-- ==== Sys2Proof/Word.lean ====
section
/-! DEFINITION. The words of the device: registers are 32 bits wide (R5), memories are bytes. -/

namespace Sys2Proof

/-- A register word (R5). -/
abbrev Word := BitVec 32

/-- A byte of a memory, a packet or a message. -/
abbrev Byte := BitVec 8

end Sys2Proof
end

