-- ==== Sys2Proof/Syntax.lean ====
section
/-! DEFINITION. The commands that the block takes from outside and from its own engines: one constructor of Instr per
row of the operation table. Operands are plain numbers and lists; what makes one well formed is in WellFormed.lean. -/

namespace Sys2Proof

/-- Who makes a register access (R26, R275, R288, R370): host ports, two-wire targets, the service cores, another
device of the weave (as originator 3 at its bridge), and the Ethernet diagnostic channel (R324). -/
inductive Orig where
  | hp0 | hp1 | t0 | t1 | svc
  | weave (fid : Nat)
  | diag (port : Nat)
deriving DecidableEq, Repr

/-- Who writes the basting bank (R74): an originator of the device map (served only as the originator of an open
maintenance session), or one of the internal writers. -/
inductive Writer where
  | bus (o : Orig)
  | loader | profileSelection | reserveManager
deriving DecidableEq, Repr


/-- How an access comes to the device (R31): who makes it and, if it comes through a BAR of a host port, which one. Its address is
then an offset in that BAR, else a device address. -/
structure Via where
  orig : Orig
  bar : Option Nat
deriving DecidableEq, Repr

/-- Wear signals of one resource (R417): the place of the signal in its row's Wear signal column, and how many have come. -/
structure Signals where
  signal : Nat
  count : Nat
deriving DecidableEq, Repr

/-- How a CSI-2 packet arrived (R94, R96): its header could not be corrected, its payload CRC is wrong, retransmission
repaired it or gave up, and how many pixels were unpacked if the line came faster than the port unpacks. -/
structure PktFlags where
  hdrBad : Bool := false
  crcBad : Bool := false
  rtx : Bool := false
  rtxFail : Bool := false
  keep : Option Nat := none
deriving DecidableEq, Repr

/-- An uncorrectable table read during a heat (R179, R207): stage (1, 3, 4, 5 of the raw part, 11 tone, 13 scaler, 14
scaler line buffer), exposure lane, and the first pixel it affects. -/
structure TableFault where
  stage : Nat
  lane : Nat
  fromX : Nat
deriving DecidableEq, Repr


/-- The commands of the block: one constructor per row of the operation table, with the operands the row's rules
give it. The rule named is the row's own. -/
inductive Instr where
  /-- RESET_RELEASE (R64): Reset release starts the boot: ISL_AO runs, fuses are read, the journal memory is opened and the loader starts reading image A. -/
  | resetRelease (maintHigh : Bool) (taddr : Nat)
  /-- RESET_N_ASSERT (R445): A low pulse on RESET_N, or VDD_AO below 0.70 V, resets every island. -/
  | resetNAssert (vddLow : Bool)
  /-- CRYSTAL_STABLE (R445): 100 µs after the crystal oscillator reaches stable amplitude, the hold on reset release ends. -/
  | crystalStable
  /-- IMAGE_HEADER_READ (R61): The header and directory of an image arrive from flash and the loader runs checks 1 to 7 of R61 on them. -/
  | imageHeaderRead
  /-- IMAGE_VERIFIED (R60): Hashing of the image ends; the signature, rollback, directory and section CRC checks decide acceptance. -/
  | imageVerified
  /-- RECORDS_CHECK (R66): The loader checks, clamps and writes every record of the accepted image into the basting bank. -/
  | recordsCheck
  /-- CROSS_FIELD_CHECKS (R68): The loader runs the ports, contexts, slices, seam, DMA defaults and budget stages for the base set and every profile set. -/
  | crossFieldChecks
  /-- LPDDR_TRAINED (R64): LPDDR5X training completes, so the first swap may proceed. -/
  | lpddrTrained
  /-- CFG_BASTING_WRITE (R74): A CFG write from an allowed writer lands in the basting bank, checked under R66, and makes the writer owner if the bank is free. -/
  | cfgBastingWrite (w : Writer) (a v : Nat)
  /-- REGISTER_WRITE (R11): A write to a register that has no row of its own acts as its access code says. -/
  | registerWrite (via : Via) (a v bytes hw : Nat)
  /-- RC_READ (R12): A read of a register with RC fields returns the value and clears them, keeping a same-cycle event. -/
  | rcRead (via : Via) (a bytes : Nat) (hw : List Nat)
  /-- UNASSIGNED_ACCESS (R30): An access to an unassigned address reads 0 or is discarded, and is counted and latched. -/
  | unassignedAccess (o : Orig) (bar : Option Nat) (a : Nat) (write : Bool)
  /-- LDR_VIEW_WRITE (R88): An originator's write to LDR_VIEW changes only its own view bit. -/
  | ldrViewWrite (o : Orig) (v : Nat)
  /-- SWAP_REQUEST (R77): The owner writes LDR_SWAP_REQ; after any checked stages the epoch advances and is sent to every island. -/
  | swapRequest (w : Writer)
  /-- DISCARD (R75): The owner writes LDR_DISCARD; the basting bank is restored from the active bank and freed. -/
  | discard (w : Writer)
  /-- OWNER_TIMEOUT (R75): An internal owner that has neither swapped nor discarded within 1 s has the bank discarded for it. -/
  | ownerTimeout
  /-- BASTING_GRANT (R74): When the bank is freed, a waiting internal writer is granted it in the fixed order. -/
  | bastingGrant
  /-- EPOCH_REACHES_ISLAND (R79): The new epoch arrives at an island; idle contexts adopt it and the island's banked settings change. -/
  | epochReachesIsland (i : Nat)
  /-- SWAP_TIMEOUT (R81): LDR_SWAP_TMO expires; ports close old-epoch frames as SHORT and discard waiting old-epoch triggers. -/
  | swapTimeout
  /-- LIVE_WRITE (R84): A write to a LIVE field lands in the basting copy of the LIVE block, clamped without report. -/
  | liveWrite (o : Orig) (a v : Nat)
  /-- MODE_SAMPLE (R352): MODE[2:0] is sampled into PWR_MODE.RAW every 1 ms and debounced for profile selection. -/
  | modeSample (v : Nat)
  /-- PROFILE_SELECTION_START (R86): 1 s after LDR_EVT.LOADED, profile selection begins. -/
  | profileSelectionStart
  /-- PROFILE_EVALUATION (R85): Every 10 ms the service cores evaluate profile conditions and dwell and, if due, write a profile set and request a swap. -/
  | profileEvaluation
  /-- PLL_LOSS_OF_LOCK (R20): An island's PLL loses lock and the island switches to its ring oscillator. -/
  | pllLossOfLock (i : Nat)
  /-- CROSSING_TIMEOUT (R21): A sender waits more than 64 µs at a crossing and a fatal or non-fatal timeout error is raised. -/
  | crossingTimeout (src dst pair : Nat) (lost : List (Nat × Nat))
  /-- LOCKSTEP_MISMATCH (R25): The two cores of a service pair disagree; the pair stops, or the fault is fatal if no reserve is left. -/
  | lockstepMismatch (pair : Nat)
  /-- RESERVE_PAIR_TAKEOVER (R25): The reserve pair sends its heartbeat and resumes the failed pair's services from the last checkpoint. -/
  | reservePairTakeover
  /-- CHECKPOINT_WRITE (R25): The service cores write a checkpoint into ECC SRAM at least every 250 µs. -/
  | checkpointWrite
  /-- FRAME_START_PACKET (R104): A frame-start packet arrives; any open frame is closed, the frame opens, is associated with a trigger and gets its epoch. -/
  | frameStartPacket (p vc fn : Nat) (f : PktFlags)
  /-- FRAME_END_PACKET (R103): A frame-end packet closes the map entry's frame, filling missing lines and marking SHORT if needed. -/
  | frameEndPacket (p vc : Nat) (f : PktFlags)
  /-- LONG_PACKET (R102): A long packet is validated, mapped, unpacked and checked against LINES and PIXELS. -/
  | longPacket (p vc dt : Nat) (payload : List Nat) (f : PktFlags)
  /-- FRAME_TIMEOUT (R105): An open frame gets no packet for CPT_FRAME_TMO.US and is closed as SHORT. -/
  | frameTimeout (p c : Nat)
  /-- LOCK_LOST (R107): An A-PHY link loses lock and the 100 µs link-loss timer starts. -/
  | lockLost (p : Nat)
  /-- LINK_LOSS (R107): Lock has been lost for more than 100 µs; open frames close with LINK_LOST and the port enters RECOVER. -/
  | linkLoss (p : Nat)
  /-- LINK_LOCK (R110): The link locks in SEARCH; the port enters BRINGUP and writes event 0x8001. -/
  | linkLock (p : Nat)
  /-- PORT_CONFIG_APPLY (R120): A port's new CFG values take effect once no frame is open, retraining if the link settings changed. -/
  | portConfigApply (p : Nat)
  /-- SCRIPT_END (R111): END ends a script and the port changes state by its result code. -/
  | scriptEnd (p : Nat)
  /-- SCRIPT_WR16 (R50): WR16 writes bytes to a sensor register with a 16-bit address. -/
  | scriptWr16 (p : Nat)
  /-- SCRIPT_WR8 (R50): WR8 writes bytes to a sensor register with an 8-bit address. -/
  | scriptWr8 (p : Nat)
  /-- SCRIPT_RDCMP (R50): RDCMP reads one byte and jumps to fail if it does not match. -/
  | scriptRdcmp (p : Nat)
  /-- SCRIPT_DELAY (R50): DELAY starts a wait of time × 10 µs. -/
  | scriptDelay (p : Nat)
  /-- DELAY_EXPIRED (R50): A script's DELAY elapses and the script continues. -/
  | delayExpired (p : Nat)
  /-- SCRIPT_GPIO (R476): GPIO drives a tunnelled or local GPIO line, or fails with 0xFD if the link is not locked. -/
  | scriptGpio (p : Nat)
  /-- SCRIPT_POC (R346): POC switches power over coax off or on. -/
  | scriptPoc (p : Nat)
  /-- SCRIPT_WAITLOCK (R50): WAITLOCK waits for link lock. -/
  | scriptWaitlock (p : Nat)
  /-- WAITLOCK_TIMEOUT (R50): WAITLOCK's timeout elapses without lock and the script jumps to fail. -/
  | waitlockTimeout (p : Nat)
  /-- SCRIPT_JUMP (R50): JUMP moves execution to its target. -/
  | scriptJump (p : Nat)
  /-- SCRIPT_LOOP (R50): LOOP jumps to its target until its counter is exhausted. -/
  | scriptLoop (p : Nat)
  /-- SCRIPT_EVENT (R112): EVENT writes a camera event with bit 15 forced to 0. -/
  | scriptEvent (p : Nat)
  /-- SCRIPT_STREAM (R113): STREAM reports the sensor starting or stopping and writes 0x8007 or 0x8008. -/
  | scriptStream (p : Nat)
  /-- INSTRUCTION_LIMIT (R52): A script reaches 65,536 executed instructions and ends with 0xFE. -/
  | instructionLimit (p : Nat)
  /-- BACKOFF_EXPIRED (R110): BACKOFF_MS elapses in HOLD and the port retries bring-up. -/
  | backoffExpired (p : Nat)
  /-- FAULT_TIMEOUT (R475): FAULT_S elapses and an A-PHY port releases POC_EN to power-cycle its module. -/
  | faultTimeout (p : Nat)
  /-- POWER_CYCLE_DONE (R475): 100 ms after release, the port enters POWER and asserts POC_EN again. -/
  | powerCycleDone (p : Nat)
  /-- SUPERVISION_RUN (R112): A supervision period expires and the supervision script runs unless the previous run is still going. -/
  | supervisionRun (p : Nat)
  /-- TRIGGER_ASSERT_SEND (R114): At T − LEAD the port sends the trigger assert message or drives the local pulse. -/
  | triggerAssertSend (p : Nat)
  /-- TRIGGER_RELEASE_SEND (R114): At the end of the pulse width the port sends the release message or ends the local pulse. -/
  | triggerReleaseSend (p : Nat)
  /-- TRIGGER_WINDOW_EXPIRE (R118): A trigger's association window expires with no frame start and the trigger is discarded as MISS. -/
  | triggerWindowExpire (p : Nat)
  /-- ECHO_BURST_START (R115): At lock and every 100 ms the port starts a burst of 16 latency echoes. -/
  | echoBurstStart (p : Nat)
  /-- ECHO_RETURN (R115): An echo request comes back on the downlink and its round trip is recorded. -/
  | echoReturn (p rtt : Nat)
  /-- ECHO_TIMEOUT (R115): An echo is not returned within 20 µs and counts as lost. -/
  | echoTimeout (p : Nat)
  /-- LATENCY_BURST_END (R115): A burst ends; CPT_TRIG_LAT is updated, VALID set and event 0x800A written on a change above 20 ns. -/
  | latencyBurstEnd (p : Nat)
  /-- FRAME_ADMISSION (R131): A frame's first line reaches the scheduler, which admits or refuses it against the slice load. -/
  | frameAdmission (c : Nat)
  /-- LINE_COMPLETE (R135): A line completes in its context's line window and becomes ready or waits for exposures or sync members. -/
  | lineComplete (c : Nat)
  /-- HEAT_DONE (R135): A slice finishes a heat and starts the ready line with the earliest deadline. -/
  | heatDone (l : Nat) (bad : List TableFault)
  /-- HOLD_FREEZE (R141): A write with FREEZE = 1 freezes a context's hold ring. -/
  | holdFreeze (c : Nat)
  /-- HOLD_RELEASE (R141): A write with FREEZE = 0 releases a context's hold ring. -/
  | holdRelease (c : Nat)
  /-- TABLE_MEMORY_WRITE (R161): A write to the line store or table region is applied byte-exact, replicated, or discarded and counted. -/
  | tableMemoryWrite (o : Orig) (a : Nat) (bytes : List (Option Nat))
  /-- SELF_TEST_IN_GAP (R420): An idle slice runs its 16 µs known-answer test, abandoned if a line becomes ready. -/
  | selfTestInGap (l result : Nat)
  /-- RESERVE_SELF_TEST (R420): Every 10 ms the reserve slice runs its known-answer test. -/
  | reserveSelfTest (pass : Bool)
  /-- SELF_TEST_STARVED (R420): An active slice completes no test within 1 s and RSV_TEST.STARVED is set. -/
  | selfTestStarved
  /-- SPARE_TEST (R420): Once per operating hour, spare rows and PLLs are exercised by march and lock tests. -/
  | spareTest (kind inst : Nat) (pass : Bool)
  /-- SEAM_LINE (R210): A line enters the seam and is composed into each output and sent to its destinations. -/
  | seamLine (c : Nat) (bad : List Nat)
  /-- COMPOSITE_WAIT_EXPIRE (R214): The wait for a lagging composite source expires and its remaining lines are filled. -/
  | compositeWaitExpire (o : Nat)
  /-- SEAM_FRAME_END (R217): After the last line, the check units compute and the seam emits the trailer and then the tag. -/
  | seamFrameEnd (c : Nat) (bad : List (Nat × Nat))
  /-- CSI2_TX_CONFIG_APPLY (R231): A transmit port's CFG change applies between frames, restarting the PHY if needed. -/
  | csi2TxConfigApply (p : Nat)
  /-- HOST_LINK_TRAINED (R236): A PCIe link comes up; a rate or width below the declared one sets DEGRADED. -/
  | hostLinkTrained (p rate width : Nat) (flit : Bool)
  /-- FLR (R237): A Function Level Reset idles the port's channels, flushes egress and resets MSI-X and event target. -/
  | flr (p : Nat)
  /-- HOT_RESET (R237): A hot reset acts on the port as an FLR does. -/
  | hotReset (p : Nat)
  /-- D3HOT_ENTRY (R237): Entry to D3hot halts every channel of the port with cause 9 and flushes egress. -/
  | d3hotEntry (p : Nat)
  /-- D3HOT_EXIT (R237): Exit from D3hot resets the function as an FLR does. -/
  | d3hotExit (p : Nat)
  /-- LINK_DOWN (R237): The PCIe link goes down; channels halt with cause 8 and egress is flushed. -/
  | linkDown (p : Nat)
  /-- BUS_MASTER_DISABLE (R237): Bus Master Enable is cleared; channels halt with cause 7 and egress is flushed. -/
  | busMasterDisable (p : Nat)
  /-- VECTOR_UNMASK (R296): A vector with its PBA bit set is unmasked and the pending message is sent or discarded. -/
  | vectorUnmask (p v : Nat)
  /-- BUFFER_TAKE (R244): A frame's first line reaches its channel, which takes the next posted buffer and reserves a completion entry. -/
  | bufferTake (c : Nat)
  /-- RING_READ_COMPLETE (R246): A read of buffer-ring entries returns. -/
  | ringReadComplete (c list length cookie : Nat)
  /-- LIST_READ_COMPLETE (R245): A read of list entries returns and the channel walks the list, halting on bad entries. -/
  | listReadComplete (c : Nat) (es : List (Nat × Nat × Nat))
  /-- EGRESS_BURST (R247): A channel drains one burst of its bytes to host memory in round robin. -/
  | egressBurst (p : Nat)
  /-- FLUSH_READ_COMPLETE (R248): The flush read returns and the completion record is written, DONE set and any armed set taken. -/
  | flushReadComplete (c : Nat)
  /-- COMPLETION_TIMEOUT (R256): A read of the channel gets no completion in time, or fails, and the channel halts. -/
  | completionTimeout (c dir cause : Nat)
  /-- ARM (R252): A NEXT_ARM write with ARM = 1 copies the staging set into the armed set, or is rejected. -/
  | arm (c seq : Nat)
  /-- DISARM (R252): A NEXT_ARM write with ARM = 0 disarms the armed set. -/
  | disarm (c : Nat)
  /-- PI_WRITE (R253): A DMX_CH_PI write posts buffers in the current set or is rejected. -/
  | piWrite (c v : Nat)
  /-- CPL_CI_WRITE (R251): A DMX_CH_CPL_CI write frees completion entries or is rejected. -/
  | cplCiWrite (c v : Nat)
  /-- START (R254): START takes the armed set and runs an idle channel, or resumes a halted one. -/
  | start (c : Nat)
  /-- STOP (R254): STOP lets the frame in progress complete and then idles the channel. -/
  | stop (c : Nat)
  /-- ABORT (R255): ABORT ends the channel's writing, discards its egress lines and writes an ABORTED record. -/
  | abort (c : Nat)
  /-- REPLAY (R260): A DMX_P_REPLAY write with GO = 1 writes a held frame into a free channel's next buffer. -/
  | replay (p v : Nat)
  /-- PACKET_OPEN (R268): A producer opens a packet at the queue's write position, or waits while another is open. -/
  | packetOpen (q producer : Nat) (bad : Option (Nat × Nat))
  /-- PACKET_WORD (R271): A producer writes a payload word, which may drop new data, overwrite old data or abort an oversize packet. -/
  | packetWord (q producer w : Nat) (bad : Option (Nat × Nat))
  /-- PACKET_COMMIT (R269): Commit writes the header, numbers the packet, makes it visible and copies it where configured. -/
  | packetCommit (q producer : Nat) (bad : Option (Nat × Nat))
  /-- PACKET_REWIND (R268): A producer abandons an open packet and the write position returns to the mark. -/
  | packetRewind (q producer : Nat)
  /-- SPILL_MOVE (R264): Words move between the on-chip store and DRAM in ring order. -/
  | spillMove (q blocks : Nat) (toHead : Bool) (bad : List Nat)
  /-- QUEUE_CONFIG_APPLY (R283): A changed queue configuration applies when no packet is open, discarding contents if needed. -/
  | queueConfigApply (q : Nat)
  /-- HEADER_READ (R276): A QMX_RP_HEAD read releases the old claim and claims the oldest unclaimed packet. -/
  | headerRead (o : Orig) (r : Nat) (bad : Option (Nat × Nat))
  /-- DATA_READ (R276): A QMX_RP_DATA read returns the next payload word of the claim. -/
  | dataRead (o : Orig) (r n : Nat) (bad : Option (Nat × Nat))
  /-- RELEASE (R276): A QMX_RP_RELEASE write ends the claim and discards unread words. -/
  | release (o : Orig) (r v : Nat)
  /-- CLAIM_TIMEOUT (R276): No word is read for QMX_CLAIM_TMO.US and the claim ends. -/
  | claimTimeout (r : Nat)
  /-- SOURCE_LEVEL_CHANGE (R289): A source's level changes and its pair states and notifications are updated. -/
  | sourceLevelChange (src : Nat)
  /-- CLAIM (R291): An EVC_T_CLAIM read makes the most urgent claimable source active and starts its pacer. -/
  | claim (o : Orig) (t : Nat)
  /-- COMPLETE (R292): An EVC_T_COMPLETE write ends a source's active state at the target. -/
  | complete (o : Orig) (t src : Nat)
  /-- ENABLE_WRITE (R293): An EVC_T_EN write changes which sources are enabled at the target. -/
  | enableWrite (o : Orig) (t w v : Nat)
  /-- GDIS (R298): An EVC_T_CTRL write sets or clears the global disable of the target. -/
  | gdis (o : Orig) (t v : Nat)
  /-- SPLIT (R294): An EVC_T_SPLIT write changes the pre-emption split and recomputes RUN_PRE. -/
  | split (o : Orig) (t v : Nat)
  /-- PACER_EXPIRE (R295): A pacer's hold-off ends and its group may notify again. -/
  | pacerExpire (g t : Nat)
  /-- EVC_ARRAY_ECC (R306): An uncorrectable error in the pair-state or priority arrays is a fatal error. -/
  | evcArrayEcc (src t : Nat)
  /-- SUPPLY_FAULT (R427): VDD_CORE or VDD_AO stays out of range for 10 µs, a fatal error. -/
  | supplyFault
  /-- OVERTEMPERATURE (R427): Junction temperature stays above 140 °C for 1 ms, a fatal error. -/
  | overtemperature (tj : Nat)
  /-- SECOND_BOUNDARY (R312): The counter reaches TSU_PPS_NEXT, which is latched and advanced by one second. -/
  | secondBoundary
  /-- ANCHOR_COMMIT (R315): The service cores commit an anchor record to queues 4 to 7. -/
  | anchorCommit
  /-- TIME_NS_READ (R317): A read of TSU_TIME_NS returns the counter and latches TSU_TIME_HI for the originator. -/
  | timeNsRead (o : Orig)
  /-- RATE_WRITE (R309): The service cores write TSU_RATE, clamped to ±500 ppm. -/
  | rateWrite (v : Nat)
  /-- STEP (R310): A TSU_STEP write adds the same amount to the counter, PPS_NEXT and every trigger NEXT. -/
  | step (v : Nat)
  /-- PPS_NEXT_WRITE (R312): The service cores realign the second boundary by writing TSU_PPS_NEXT. -/
  | ppsNextWrite (v : Nat)
  /-- TRG_NEXT_WRITE (R319): A TSU_TRG_NEXT write sets a generator's 64-bit NEXT or is rejected if less than 1 µs ahead. -/
  | trgNextWrite (g hi lo : Nat)
  /-- TRIGGER_REALIGN (R320): After a step, lock or period change, the service cores realign each enabled generator. -/
  | triggerRealign (g : Nat)
  /-- TRIGGER_FIRE (R316): A generator reaches its fire point, samples the epoch, hands the trigger to its ports and advances NEXT. -/
  | triggerFire (g : Nat)
  /-- OFFSET_MEASUREMENT (R311): A valid time offset is measured and drives the synchronisation states and servo. -/
  | offsetMeasurement
  /-- SYNC_TIMEOUT (R311): Three sync intervals pass without a measurement and the time unit enters HOLDOVER. -/
  | syncTimeout
  /-- SYNC (R313): A Sync message is received and timestamped. -/
  | sync (p domain seq stamp : Nat)
  /-- FOLLOW_UP (R313): A Follow_Up message is received and completes a two-step sync. -/
  | followUp (p domain seq origin corr rate : Nat) (gm : List Nat)
  /-- SYNC_SEND (R313): A master port sends Sync and Follow_Up at its sync interval. -/
  | syncSend (p stamp : Nat)
  /-- PDELAY_REQ_SEND (R313): Every 1 s each enabled port sends Pdelay_Req, clearing asCapable after 3 unanswered. -/
  | pdelayReqSend (p stamp : Nat)
  /-- PDELAY_REQ (R313): A received Pdelay_Req is answered with Pdelay_Resp and Pdelay_Resp_Follow_Up. -/
  | pdelayReq (p domain seq rx tx : Nat)
  /-- PDELAY_RESP (R313): A Pdelay_Resp is received for a peer delay measurement. -/
  | pdelayResp (p domain seq reqRx stamp : Nat)
  /-- PDELAY_RESP_FOLLOW_UP (R313): A Pdelay_Resp_Follow_Up completes a peer delay measurement and may set asCapable. -/
  | pdelayRespFollowUp (p domain seq respTx : Nat)
  /-- ETH_FRAME_RECEIVE (R323): An Ethernet frame is received and accepted, discarded or counted as an error. -/
  | ethFrameReceive (p len tags type dst : Nat) (bad : Bool)
  /-- DIAG_REQUEST (R324): A diagnostic read request is answered with register words, or discarded over the rate limit. -/
  | diagRequest (p src tag ver op seq addr count : Nat)
  /-- ETH_LINK_UP (R323): An Ethernet link comes up. -/
  | ethLinkUp (p : Nat)
  /-- ETH_LINK_DOWN (R323): An Ethernet link goes down. -/
  | ethLinkDown (p : Nat)
  /-- INPUT_EDGE (R329): An accepted change of a quadrature or Hall input counts, is timed, or is ILLEGAL, and compares are tested. -/
  | inputEdge (n levels : Nat)
  /-- INDEX_EDGE (R334): A rising index edge sets the count to Z_VALUE and sets REF. -/
  | indexEdge (n : Nat)
  /-- SINCOS_SAMPLE (R331): ADC0 samples a sin/cos channel, which counts, faults or flags an illegal step. -/
  | sincosSample (n codeSin codeCos : Nat)
  /-- SENT_MESSAGE (R332): A SENT message is decoded and changes the count, or is discarded. -/
  | sentMessage (n tick : Nat) (nibs : List Nat) (crc : Nat) (pause bad : Bool) (ago : Nat)
  /-- SENT_TIMEOUT (R333): No valid SENT message for 10 ms makes the channel not valid. -/
  | sentTimeout (n : Nat)
  /-- CHANNEL_REVALID (R333): 100 ms without a fault makes a channel VALID again. -/
  | channelRevalid (n : Nat)
  /-- COMPARE_ARM (R337): A POS_CMP_CFG write with ARM = 1 arms a compare and sets BEHIND. -/
  | compareArm (i v : Nat)
  /-- OBSERVER_UPDATE (R339): Every 10 µs each valid channel's tracking observer updates. -/
  | observerUpdate
  /-- STANDSTILL (R340): A channel counts no step for STILL_MS and its speed and acceleration become 0. -/
  | standstill (n : Nat)
  /-- SNAPSHOT (R342): At MID_NS + 10 µs the motion unit latches the frame's snapshot for its tag. -/
  | snapshot
  /-- HISTORY_ENTRY (R343): Every 1 ms the motion unit stores a history entry. -/
  | historyEntry
  /-- MOTION_INTERPOLATE (R343): A free-running frame's snapshot is interpolated from history, or missed. -/
  | motionInterpolate (c : Nat)
  /-- EMULATOR_STEP (R344): An emulator moves its output one Gray step towards its target. -/
  | emulatorStep (e : Nat)
  /-- ADC1_CONVERSION (R345): ADC1 converts one input of its scan, feeding the power supervisors and fold channels. -/
  | adc1Conversion (i code : Nat)
  /-- POC_FAULT_PIN (R347): POC_FLT_N_Pn goes low and the supervisor trips in hardware. -/
  | pocFaultPin (p : Nat)
  /-- POWER_GOOD (R346): Voltage and current have stayed in range for PG_MS and the supervisor enters ON. -/
  | powerGood (p : Nat)
  /-- PG_TIMEOUT (R347): No power good by PG_TMO_MS trips the supervisor. -/
  | pgTimeout (p : Nat)
  /-- POWER_RETRY (R348): The retry wait ends and the supervisor returns to INRUSH or enters LATCHED. -/
  | powerRetry (p : Nat)
  /-- ATTEMPT_RESET (R348): 10 s of uninterrupted ON resets ATTEMPT to 0. -/
  | attemptReset (p : Nat)
  /-- POWER_RELEASE (R348): A PWR_P_CTRL.RELEASE write returns a LATCHED supervisor to INRUSH. -/
  | powerRelease (p : Nat)
  /-- OPEN_DETECT (R349): Current below OPEN_MA for 10 ms sets OPEN. -/
  | openDetect (p : Nat)
  /-- PWM_PERIOD_START (R350): A periodic PWM channel begins a period and goes active. -/
  | pwmPeriodStart (k : Nat)
  /-- PWM_PULSE_START (R350): A per-trigger or per-exposure PWM pulse becomes active. -/
  | pwmPulseStart (k : Nat)
  /-- PWM_PULSE_END (R350): A PWM active interval ends and the output goes inactive. -/
  | pwmPulseEnd (k : Nat)
  /-- FOLD (R351): A fold command runs the fold motor, brakes first, or is refused by speed. -/
  | fold (m : Nat)
  /-- UNFOLD (R351): An unfold command runs the motor, brakes first, or is refused by speed. -/
  | unfold (m : Nat)
  /-- FOLD_STOP (R351): A stop command drives both lines low and idles the fold channel. -/
  | foldStop (m : Nat)
  /-- BRAKE_END (R351): The 50 ms brake ends and the motor runs the new way. -/
  | brakeEnd (m : Nat)
  /-- FOLD_STALL (R351): The current has stayed at stall level for STALL_MS and the fold channel reaches its end position. -/
  | foldStall (m : Nat)
  /-- FOLD_TIMEOUT (R351): A run exceeds TMO_MS and the fold channel enters FAULT. -/
  | foldTimeout (m : Nat)
  /-- VCORE_ADJUST (R449): The service cores set the VDD_CORE target over PMBus at boot, every 10 s and on temperature change. -/
  | vcoreAdjust (mv tj : Nat)
  /-- TRANSACTION_START (R359): A controller takes a transaction once the bus is free and drives START. -/
  | transactionStart (i : Nat) (free : Bool) (lost : Option (Nat × Nat))
  /-- BUS_STUCK_RECOVERY (R359): SDA stays low for 1 ms and the controller drives recovery clocks. -/
  | busStuckRecovery (i : Nat) (recovered : Bool)
  /-- STRETCH_TIMEOUT (R360): A target stretches SCL beyond STRETCH_MS and the transaction is abandoned. -/
  | stretchTimeout (i : Nat)
  /-- TRANSACTION_DONE (R471): A controller transaction ends and its result, data or NACK reaches its owner. -/
  | transactionDone (i : Nat) (ack : Bool) (data : List Nat)
  /-- TARGET_WRITE (R363): A target write transaction applies each acknowledged word, or the PEC-checked words at STOP. -/
  | targetWrite (t addr7 a : Nat) (bytes : List Nat) (end_ : Nat)
  /-- TARGET_READ (R363): A target read transaction fetches and sends words from the device map. -/
  | targetRead (t addr7 a n : Nat)
  /-- TARGET_DATA_TIMEOUT (R367): Read data is not available within 20 ms and 0xFF bytes are sent. -/
  | targetDataTimeout (t : Nat)
  /-- TARGET_SELF_RESET (R367): SCL stays low for more than 30 ms and the target resets itself. -/
  | targetSelfReset (t : Nat)
  /-- WAKE_ADDRESS (R368): In park mode, a target with WAKE = 1 refuses its address and asks the device to leave park mode. -/
  | wakeAddress (t : Nat)
  /-- ALERT_RESPONSE (R369): A read of the alert response address is answered by a target whose alert latch is set. -/
  | alertResponse (t : Nat) (lost : Option (Nat × Nat))
  /-- BRIDGE_ACCESS (R374): An access to a bridge window is accepted, tagged, checked for rights and queued. -/
  | bridgeAccess (via : Via) (addr : Nat) (write : Bool) (be : List Bool) (data : List Nat)
  /-- SENSOR_WINDOW_WRITE (R372): A sensor-window write starts as two-wire writes of its contiguous byte runs. -/
  | sensorWindowWrite (p : Nat)
  /-- SENSOR_WINDOW_READ (R372): A sensor-window read starts as one two-wire read of its span, or from the prefetch buffer. -/
  | sensorWindowRead (p : Nat)
  /-- REMOTE_WINDOW_ACCESS (R373): A remote-device window access is sent as a BRG_REQ over the weave. -/
  | remoteWindowAccess (f : Nat)
  /-- BRIDGE_READ_TIMEOUT (R375): A bridged read is not complete within RD_TMO_MS and fails with 0xFF data. -/
  | bridgeReadTimeout (tag : Nat)
  /-- TAKE (R377): A TAKE grants or renews the window semaphore, or is discarded. -/
  | take (o : Orig) (w : Nat)
  /-- SEMAPHORE_RELEASE (R378): A RELEASE by the holder ends the hold and starts the held accesses. -/
  | semaphoreRelease (o : Orig) (w : Nat)
  /-- LEASE_EXPIRE (R378): A semaphore's lease expires and the held accesses start. -/
  | leaseExpire (w : Nat)
  /-- RETRY_REISSUE (R379): After a RETRY answer and a random delay, the requester re-issues the request. -/
  | retryReissue (tag : Nat)
  /-- COMPAT_WRITE_TIMEOUT (R380): In CV8404 mode a posted write waits more than 1 ms for room and is dropped. -/
  | compatWriteTimeout (tag : Nat)
  /-- PREFETCH_AGE_EXPIRE (R381): A prefetch buffer reaches AGE_US and is discarded. -/
  | prefetchAgeExpire (o : Orig)
  /-- LANE_LOCK (R385): A weave lane sees 64 consecutive valid sync headers and locks. -/
  | laneLock (p l : Nat)
  /-- LANE_LOCK_LOST (R386): A lane loses lock and fails over to the spare or re-stripes. -/
  | laneLockLost (p l : Nat)
  /-- TRAIN_TIMEOUT (R385): A port is not UP within 20 ms and tries a lower rate, or restarts after 100 ms. -/
  | trainTimeout (p : Nat)
  /-- LANE_BLOCK (R385): A LANE block is received and lane alignment, the map or the port's UP state changes. -/
  | laneBlock (p uid rate lanes map : Nat)
  /-- DATA_BLOCK (R397): A DATA block of a flow is forwarded or delivered to a REMOTE context. -/
  | dataBlock (p seq gen cls flow : Nat) (payload : List Nat)
  /-- OPEN_BLOCK (R397): An OPEN block allocates a flow and is forwarded or delivered to the matching REMOTE context. -/
  | openBlock (p seq gen cls flow : Nat) (payload : List Nat)
  /-- END_BLOCK (R397): An END block closes a flow and frees its number. -/
  | endBlock (p seq gen cls flow total blocks : Nat)
  /-- ABORT_BLOCK (R399): An ABORT block discards the flow and makes FABRIC_GAP due. -/
  | abortBlock (p seq gen cls flow cause : Nat)
  /-- ACK_BLOCK (R390): An ACK acknowledges blocks and triggers selective retransmission. -/
  | ackBlock (p cum map : Nat)
  /-- ACK_TIMER (R390): 500 ns after the first unacknowledged block, the receiver sends an ACK. -/
  | ackTimer (p : Nat)
  /-- RETRANSMIT_TIMEOUT (R390): 10 µs without a CUM change makes the sender retransmit every unacknowledged block. -/
  | retransmitTimeout (p : Nat)
  /-- HELLO_SEND (R392): Every 100 µs an UP port sends a HELLO. -/
  | helloSend (p : Nat)
  /-- HELLO_BLOCK (R392): A HELLO is received and the port becomes ACTIVE or rejects the peer by name. -/
  | helloBlock (p uid name fid port gen : Nat)
  /-- HELLO_TIMEOUT (R391): Three HELLO intervals pass without a HELLO and the weave link goes down. -/
  | helloTimeout (p : Nat)
  /-- LSA_BLOCK (R393): An LSA is received, stored if newer, forwarded, and routes and generation recomputed. -/
  | lsaBlock (p seq gen : Nat) (payload : List Nat)
  /-- LSA_REFRESH (R393): Every 100 ms a device sends its own LSA on every ACTIVE port. -/
  | lsaRefresh
  /-- LSA_AGE (R393): An LSA not refreshed for 350 ms is removed. -/
  | lsaAge (uid : Nat)
  /-- FID_CLAIM (R394): 2 ms after the first port becomes ACTIVE, a device claims the lowest free fabric ID. -/
  | fidClaim
  /-- FID_JOURNAL (R394): An ID unchallenged for 1 s is journalled with the UID table. -/
  | fidJournal
  /-- BRG_REQ (R401): A BRG_REQ block is served by the remote device as originator 3, or answered RETRY. -/
  | brgReq (p seq gen : Nat) (payload : List Nat) (issued : Nat)
  /-- BRG_RSP (R401): A BRG_RSP block completes, retries or fails a remote bridge access. -/
  | brgRsp (p seq gen : Nat) (payload : List Nat)
  /-- TIME_EXCHANGE (R402): Every 1 ms ACTIVE ports exchange TIME blocks for a two-way offset measurement. -/
  | timeExchange (p : Nat)
  /-- TIME_BLOCK (R402): A TIME block is received and timestamped. -/
  | timeBlock (p sent echo echoAt : Nat) (gm : List Nat) (free : Option Nat)
  /-- HEARTBEAT_SEND (R407): Every 1 ms a relay device sends a HEARTBEAT and toggles RLY_HB_O. -/
  | heartbeatSend
  /-- HEARTBEAT (R407): A partner HEARTBEAT is received and its digest compared. -/
  | heartbeat (p seq : Nat) (body : List Nat)
  /-- HB_INPUT_EDGE (R407): An edge on RLY_HB_I counts as a heartbeat. -/
  | hbInputEdge
  /-- HEARTBEAT_TICK (R411): The 1 ms timer ticks; a missed heartbeat is counted and the third may start a takeover. -/
  | heartbeatTick
  /-- FENCE_WAIT_EXPIRE (R411): FENCE_WAIT_MS after asserting the fence, the device becomes PRIMARY or FENCED. -/
  | fenceWaitExpire
  /-- PARTNER_WAIT_EXPIRE (R406): No partner heartbeat within 500 ms of LOADED and the device takes the baton alone. -/
  | partnerWaitExpire
  /-- FENCE_INPUT (R410): RLY_FENCE_I_N is low for 10 µs and an emitting device stops and enters FENCED. -/
  | fenceInput (low : Bool)
  /-- FENCE_RELEASE_TIMER (R410): The fence input has been released for 100 ms and a FENCED device becomes STANDBY. -/
  | fenceReleaseTimer
  /-- DELIVER (R409): A DELIVER is received; the standby stores counters, loads LIVE and aligns its frame counter. -/
  | deliver (p seq : Nat) (body : List Nat)
  /-- DELIVER_ACK_TIMEOUT (R408): A DELIVER is not acknowledged within ACK_TMO and the primary enters SOLO. -/
  | deliverAckTimeout
  /-- MIRROR_RESTORE (R408): After 100 ms of clean heartbeats and acknowledgements, SOLO sends SYNC DELIVERs and becomes PRIMARY. -/
  | mirrorRestore
  /-- FC_MISMATCH (R409): No own frame matches a DELIVER within two frame periods. -/
  | fcMismatch (c : Nat)
  /-- HANDOVER (R413): RLY_CTRL.HANDOVER on the primary sends a BATON offer. -/
  | handover (o : Orig) (v : Nat)
  /-- BATON_OFFER (R413): A BATON offer is received from the primary. -/
  | batonOffer (p seq batonGen : Nat)
  /-- BATON_COMMIT (R413): A BATON commit makes the partner PRIMARY, emitting under R412. -/
  | batonCommit (p seq batonGen : Nat)
  /-- RELAY_PROFILE (R414): A PROFILE record tells the standby which profile to swap to at time S. -/
  | relayProfile (p seq : Nat) (body : List Nat)
  /-- PROFILE_SWAP_AT_S (R414): At swap time S both relay devices request the profile swap. -/
  | profileSwapAtS
  /-- EXPOSURE_LOOP_UPDATE (R206): On a statistics record the service cores compute new exposure, gain and white-balance values. -/
  | exposureLoopUpdate
  /-- EXP_REG_WRITE (R206): In the gap before the next frame, the loop writes the integration time to the sensor. -/
  | expRegWrite (c : Nat)
  /-- LIVE_BLOCK_WRITE (R206): DELAY frame starts later, the loop writes the whole LIVE block in one burst. -/
  | liveBlockWrite (c : Nat)
  /-- REPLACED (R421): A wear signal makes the reserve manager map in a spare and request a checked swap. -/
  | replaced (kind inst row : Nat) (x : Signals)
  /-- REPLACE_RETRY (R421): A refused replacement is tried again every 1 s. -/
  | replaceRetry
  /-- AGEING_MEASURE (R419): At boot and hourly, the ageing sensors are measured and a WEAR record written. -/
  | ageingMeasure (atBoot : Bool) (freqs : List Nat)
  /-- JOURNAL_RECORD (R426): The service cores write a log record to the journal and queue 3, or drop it over MAX_RPS. -/
  | journalRecord (bad : Bool)
  /-- DROP_SUMMARY (R426): A second that dropped records ends with one DROP record. -/
  | dropSummary
  /-- PARK (R430): MNT_PARK.GO = 1 from target 0 starts entry to park mode. -/
  | park (o : Orig) (v : Nat)
  /-- PARK_CANCEL (R430): MNT_PARK.GO = 0 during entry cancels park mode. -/
  | parkCancel (o : Orig) (v : Nat)
  /-- PARK_COMPLETE (R430): The islands have stopped, DRAM self-refreshes and the PCIe links are idle. -/
  | parkComplete
  /-- PARK_EXIT (R430): A wake restarts every clock, restarts the ports and writes a PARK record. -/
  | parkExit
  /-- PRESENCE_PULSE (R431): A counted PRESENCE_N pulse opens or restarts the 600 s window and draws a nonce. -/
  | presencePulse
  /-- PRESENCE_HELD (R431): PRESENCE_N stays low for more than 5 s and the pulse does not count. -/
  | presenceHeld
  /-- WINDOW_EXPIRE (R432): The maintenance write window expires and any session ends. -/
  | windowExpire
  /-- SESSION_OPEN (R432): MNT_CTRL.OPEN verifies the signed request and opens a session with its rights. -/
  | sessionOpen (o : Orig)
  /-- SESSION_CLOSE (R432): MNT_CTRL.CLOSE from the originator ends the session. -/
  | sessionClose (o : Orig)
  /-- ERASE (R433): ERASE erases a flash slot, refused for the loaded slot without a verified fallback. -/
  | erase (o : Orig) (slot : Nat)
  /-- PROGRAM (R433): PROGRAM writes 4 KiB of MNT_BUF into a flash slot. -/
  | program (o : Orig) (slot arg : Nat)
  /-- VERIFY (R433): VERIFY runs checks 1 to 11 of R61 on a slot. -/
  | verify (o : Orig) (slot : Nat)
  /-- RELOAD (R433): RELOAD discards the session's basting writes and loads as at boot with streams running. -/
  | reload (o : Orig)
  /-- ROLLBACK (R433): ROLLBACK blows the fuse counter to ARG if both slots allow it. -/
  | rollback (o : Orig) (arg : Nat)
  /-- FLASH_OPERATION_DONE (R433): A flash operation finishes and its result sets FLASH_DONE. -/
  | flashOperationDone (fail : Bool)
  /-- ECHO_REQUEST_SEND (R115): Within a latency burst, the port sends the next of its 16 echo requests, one every 100 µs. -/
  | echoRequestSend (p : Nat)
  /-- SYNC_HEADER_ERRORS (R386): A weave lane shows 16 sync-header errors within 1,024 words and fails, moving to the spare or re-striping. -/
  | syncHeaderErrors (p l : Nat)
  /-- BLOCK_CRC_ERROR (R388): A weave block arrives with a bad CRC or an illegal TYPE and is discarded, leaving a hole that makes the receiver send an ACK at once. -/
  | blockCrcError (p : Nat)
  /-- CSI2_TX_PACKET_SENT (R230): A CSI-2 transmit port finishes sending a packet and frees its room in the 256 KiB transmit buffer. -/
  | csi2TxPacketSent (p : Nat)
  /-- CSI2_PHY_RESTART_DONE (R231): A CSI-2 transmit PHY restart ends and the port sends frames again. -/
  | csi2PhyRestartDone (p : Nat)
  /-- BUS_MASTER_ENABLE (R237): The host sets Bus Master Enable on a host port, after which its channels may write host memory again. -/
  | busMasterEnable (p payload : Nat)
  /-- PCIE_UNCORRECTABLE_ERROR (R261): An uncorrectable PCIe error, such as a poisoned or ECRC-failed TLP, is logged in AER, which sets HLK_EVT.AER and records HLK error 0x04. -/
  | pcieUncorrectableError (p : Nat)
deriving DecidableEq, Repr

end Sys2Proof
end

