-- ==== Sys2Proof/Machine/Bits.lean ====
section
/-! DEFINITION. Bit fields of register words, saturating and wrapping counters, two's complement numbers, and the
byte order of records (R5). Everything here is plain arithmetic on natural numbers. -/

namespace Sys2Proof.Machine

/-- Bits [hi:lo] of a word, as a number. -/
def fld (w : Word) (hi lo : Nat) : Nat := (w.toNat >>> lo) % 2 ^ (hi + 1 - lo)

/-- The word with bits [hi:lo] replaced by the low bits of `v`; every other bit stands. -/
def setFld (w : Word) (hi lo v : Nat) : Word :=
  BitVec.ofNat 32
    ((w.toNat >>> (hi + 1)) <<< (hi + 1) ||| (v % 2 ^ (hi + 1 - lo)) <<< lo ||| w.toNat % 2 ^ lo)

/-- A Boolean as the bit it is stored as. -/
def bit (b : Bool) : Nat := if b then 1 else 0

/-- Bit `n` of a number. -/
def hasBit (v n : Nat) : Bool := v.testBit n

/-- The number with bit `n` set. -/
def withBit (v n : Nat) : Nat := v ||| 2 ^ n

/-- The number with bit `n` cleared. -/
def withoutBit (v n : Nat) : Nat := if v.testBit n then v - 2 ^ n else v

/-- A counter of `width` bits that saturates: `v + by`, at most all ones. -/
def satAdd (width v d : Nat) : Nat := min (v + d) (2 ^ width - 1)

/-- A 32-bit number that wraps. -/
def u32 (n : Nat) : Nat := n % 2 ^ 32

/-- The two's complement reading of the low `w` bits of `v`. -/
def sgn (w v : Nat) : Int :=
  let u := v % 2 ^ w
  if u < 2 ^ (w - 1) then (u : Int) else (u : Int) - 2 ^ w

/-- The low `w` bits of an integer in two's complement. -/
def unsgn (w : Nat) (i : Int) : Nat := (i % 2 ^ w).toNat

/-- Clamp an integer into [lo, hi]. -/
def clampI (lo hi i : Int) : Int := if i < lo then lo else if hi < i then hi else i

/-- Clamp a number into [lo, hi]. -/
def clampN (lo hi n : Nat) : Nat := if n < lo then lo else if hi < n then hi else n

/-- Arithmetic shift right of an integer (floor division by a power of two). -/
def sar (i : Int) (n : Nat) : Int := i / 2 ^ n

/-- Ceiling division. -/
def ceilDiv (a b : Nat) : Nat := if b = 0 then 0 else (a + b - 1) / b

/-- The smallest multiple of `m` at or above `a`. -/
def roundUp (a m : Nat) : Nat := ceilDiv a m * m

/-- `n` bytes of `v`, least significant first (R5). -/
def leBytes : Nat → Nat → List Nat
  | 0, _ => []
  | n + 1, v => v % 256 :: leBytes n (v / 256)

/-- The number that little-endian bytes spell (R5). -/
def leNum : List Nat → Nat
  | [] => 0
  | b :: bs => b % 256 + 256 * leNum bs

/-- `n` bytes of `v`, most significant first. -/
def beBytes (n v : Nat) : List Nat := (leBytes n v).reverse

/-- The number that big-endian bytes spell. -/
def beNum (bs : List Nat) : Nat := leNum bs.reverse

/-- The 32-bit words that a list of bytes spells, four bytes to a word, the last word zero-padded. The fuel is the
number of words at most. -/
def bytesToWords : Nat → List Nat → List Nat
  | 0, _ => []
  | _ + 1, [] => []
  | n + 1, bs => leNum (bs.take 4) :: bytesToWords n (bs.drop 4)

/-- The bytes of 32-bit words, least significant byte first. -/
def wordsToBytes (ws : List Nat) : List Nat := ws.flatMap (leBytes 4)

/-- `len` bytes of `bs` from offset `off`, zeros past the end. -/
def slice (bs : List Nat) (off len : Nat) : List Nat :=
  let x := (bs.drop off).take len
  x ++ List.replicate (len - x.length) 0

/-- The little-endian number of `len` bytes at offset `off` of a record. -/
def leAt (bs : List Nat) (off len : Nat) : Nat := leNum (slice bs off len)

/-- Bytes padded with zeros to length `n`, cut at `n`. -/
def padTo (n : Nat) (bs : List Nat) : List Nat := slice bs 0 n

/-- The numbers from `lo` to `hi`, both included. -/
def rangeIncl (lo hi : Nat) : List Nat := (List.range (hi + 1 - lo)).map (· + lo)

/-- The number whose bit `i` is set exactly for the `i` of the list. -/
def bitsOf (is : List Nat) : Nat := is.foldl withBit 0

/-- How many of the low `n` bits of `v` are set. -/
def popCount (n v : Nat) : Nat := ((List.range n).filter (hasBit v)).length

/-- The largest element of a list, 0 of an empty one. -/
def maxOf (l : List Nat) : Nat := l.foldl max 0

/-- The integer square root's companion: whether a power of two divides. -/
def isMul (n m : Nat) : Bool := n % m == 0

end Sys2Proof.Machine
end

