-- ==== Sys2Proof/Machine/Crypto.lean ====
section
/-! DEFINITION. Check values and the image signature: CRC-32C (R224), the SMBus packet error code (R365), SHA-256 and
ECDSA P-256 (R59, R60, R432). The spec names the standards; their constants are PRESUMED from them (log entry 7). -/

namespace Sys2Proof.Machine

/-- One bit of a reflected CRC. -/
def crcBit (poly c : Nat) : Nat := if c % 2 = 1 then Nat.xor (c / 2) poly else c / 2

/-- One byte of a reflected CRC. -/
def crcByte (poly c b : Nat) : Nat :=
  let x := Nat.xor c (b % 256)
  crcBit poly (crcBit poly (crcBit poly (crcBit poly (crcBit poly (crcBit poly (crcBit poly (crcBit poly x)))))))

/-- The running CRC-32C register over more bytes (polynomial 0x1EDC6F41 reflected, R224). -/
def crc32cRun (c : Nat) (bs : List Nat) : Nat := bs.foldl (crcByte 0x82F63B78) c

/-- Initial register value, and the value delivered for a register (R224). -/
def crc32cInit : Nat := 0xFFFFFFFF
def crc32cEnd (c : Nat) : Nat := Nat.xor c 0xFFFFFFFF

/-- CRC-32C of bytes. -/
def crc32c (bs : List Nat) : Nat := crc32cEnd (crc32cRun crc32cInit bs)

/-- The CRC-32C of bytes appended to them, least significant byte first. -/
def withCrc (bs : List Nat) : List Nat := bs ++ leBytes 4 (crc32c bs)

/-- One bit of an MSB-first CRC of `w` bits. -/
def crcMsbBit (w poly c : Nat) : Nat :=
  if c.testBit (w - 1) then Nat.xor (c * 2 % 2 ^ w) poly else c * 2 % 2 ^ w

/-- `n` bits of an MSB-first CRC. -/
def crcMsbBits (w poly : Nat) : Nat → Nat → Nat
  | 0, c => c
  | n + 1, c => crcMsbBits w poly n (crcMsbBit w poly c)

/-- CRC-8 of polynomial x^8 + x^2 + x + 1, initial value 0 (SMBus PEC, R365). -/
def pec8 (bs : List Nat) : Nat := bs.foldl (fun c b => crcMsbBits 8 0x07 8 (Nat.xor c (b % 256))) 0

/-- The greatest number whose `k`-th power is at most `x`, above `r`, by its `n` lowest bits. -/
def rootBits (k x : Nat) : Nat → Nat → Nat
  | 0, r => r
  | n + 1, r => rootBits k x n (if (r + 2 ^ n) ^ k ≤ x then r + 2 ^ n else r)

/-- The first 32 bits of the fractional part of the `k`-th root of a number below 2^10. -/
def rootFraction (k p : Nat) : Nat := rootBits k (p * 2 ^ (32 * k)) 40 0 % 2 ^ 32

/-- The primes below 312, which are the first 64. -/
def shaPrimes : List Nat :=
  (List.range 312).filter fun n => decide (2 ≤ n) && [2, 3, 5, 7, 11, 13, 17].all fun d => n == d || n % d != 0

/-- The round constants of SHA-256: the cube roots of the first 64 primes. -/
def shaK : List Nat := shaPrimes.map (rootFraction 3)

/-- The initial hash of SHA-256: the square roots of the first 8 primes. -/
def shaH0 : List Nat := (shaPrimes.take 8).map (rootFraction 2)

/-- Rotate a 32-bit number right. -/
def rotr (n x : Nat) : Nat := Nat.lor (x >>> n) (x <<< (32 - n) % 2 ^ 32)

/-- The message schedule, newest word first, extended by `n` words. -/
def shaSched : Nat → List Nat → List Nat
  | 0, w => w
  | n + 1, w =>
    let w15 := w.getD 14 0
    let w2 := w.getD 1 0
    let s0 := Nat.xor (Nat.xor (rotr 7 w15) (rotr 18 w15)) (w15 >>> 3)
    let s1 := Nat.xor (Nat.xor (rotr 17 w2) (rotr 19 w2)) (w2 >>> 10)
    shaSched n ((w.getD 15 0 + s0 + w.getD 6 0 + s1) % 2 ^ 32 :: w)

/-- The working variables of SHA-256. -/
structure ShaVars where
  a : Nat
  b : Nat
  c : Nat
  d : Nat
  e : Nat
  f : Nat
  g : Nat
  h : Nat
deriving DecidableEq, Repr

/-- One round. -/
def shaRound (v : ShaVars) (kw : Nat × Nat) : ShaVars :=
  let s1 := Nat.xor (Nat.xor (rotr 6 v.e) (rotr 11 v.e)) (rotr 25 v.e)
  let ch := Nat.xor (Nat.land v.e v.f) (Nat.land (2 ^ 32 - 1 - v.e) v.g)
  let t1 := v.h + s1 + ch + kw.1 + kw.2
  let s0 := Nat.xor (Nat.xor (rotr 2 v.a) (rotr 13 v.a)) (rotr 22 v.a)
  let mj := Nat.xor (Nat.xor (Nat.land v.a v.b) (Nat.land v.a v.c)) (Nat.land v.b v.c)
  ⟨(t1 + s0 + mj) % 2 ^ 32, v.a, v.b, v.c, (v.d + t1) % 2 ^ 32, v.e, v.f, v.g⟩

/-- One 64-byte block. -/
def shaBlock (h : List Nat) (block : List Nat) : List Nat :=
  let w0 := (List.range 16).map (fun i => beNum (slice block (4 * i) 4))
  let w := (shaSched 48 w0.reverse).reverse
  let v := (shaK.zip w).foldl shaRound
    ⟨h.getD 0 0, h.getD 1 0, h.getD 2 0, h.getD 3 0, h.getD 4 0, h.getD 5 0, h.getD 6 0, h.getD 7 0⟩
  [v.a, v.b, v.c, v.d, v.e, v.f, v.g, v.h].zip h |>.map (fun p => (p.1 + p.2) % 2 ^ 32)

/-- The blocks of a padded message, at most `n`. -/
def shaBlocks : Nat → List Nat → List Nat → List Nat
  | 0, h, _ => h
  | n + 1, h, bs => match bs with
    | [] => h
    | _ => shaBlocks n (shaBlock h (bs.take 64)) (bs.drop 64)

/-- SHA-256 of bytes, 32 bytes. -/
def sha256 (bs : List Nat) : List Nat :=
  let len := bs.length
  let padded := bs ++ [0x80] ++ List.replicate ((119 - len % 64) % 64) 0 ++ beBytes 8 (len * 8)
  (shaBlocks (len / 64 + 2) shaH0 padded).flatMap (beBytes 4)

/-- The P-256 field prime, group order, curve coefficient b and base point. -/
def p256P : Nat := 0xffffffff00000001000000000000000000000000ffffffffffffffffffffffff
def p256N : Nat := 0xffffffff00000000ffffffffffffffffbce6faada7179e84f3b9cac2fc632551
def p256B : Nat := 0x5ac635d8aa3a93e7b3ebbd55769886bc651d06b0cc53b0f63bce3c3e27d2604b
def p256Gx : Nat := 0x6b17d1f2e12c4247f8bce6e563a440f277037d812deb33a0f4a13945d898c296
def p256Gy : Nat := 0x4fe342e2fe1a7f9b8ee7eb4a7c0f9e162bce33576b315ececbb6406837bf51f5

/-- Modular power by squaring, `n` bits of exponent. -/
def powMod (m : Nat) : Nat → Nat → Nat → Nat
  | 0, _, _ => 1 % m
  | n + 1, b, e =>
    let r := powMod m n (b * b % m) (e / 2)
    if e % 2 = 1 then r * b % m else r

/-- Inverse modulo a prime. -/
def invMod (m a : Nat) : Nat := powMod m 256 (a % m) (m - 2)

/-- A point in Jacobian coordinates; z = 0 is the point at infinity. -/
structure JPoint where
  x : Nat
  y : Nat
  z : Nat
deriving DecidableEq, Repr

/-- Subtraction modulo the field prime. -/
def subP (a b : Nat) : Nat := (a + (p256P - b % p256P)) % p256P

/-- Doubling (a = −3). -/
def jDouble (p : JPoint) : JPoint :=
  let delta := p.z * p.z % p256P
  let gamma := p.y * p.y % p256P
  let beta := p.x * gamma % p256P
  let alpha := 3 * (subP p.x delta * ((p.x + delta) % p256P)) % p256P
  let x3 := subP (alpha * alpha % p256P) (8 * beta % p256P)
  let yz := (p.y + p.z) % p256P
  let z3 := subP (subP (yz * yz % p256P) gamma) delta
  let y3 := subP (alpha * subP (4 * beta % p256P) x3 % p256P) (8 * (gamma * gamma % p256P) % p256P)
  ⟨x3, y3, z3⟩

/-- Addition. -/
def jAdd (p q : JPoint) : JPoint :=
  if p.z % p256P = 0 then q
  else if q.z % p256P = 0 then p
  else
    let z1z1 := p.z * p.z % p256P
    let z2z2 := q.z * q.z % p256P
    let u1 := p.x * z2z2 % p256P
    let u2 := q.x * z1z1 % p256P
    let s1 := p.y * q.z % p256P * z2z2 % p256P
    let s2 := q.y * p.z % p256P * z1z1 % p256P
    if u1 = u2 then (if s1 = s2 then jDouble p else ⟨1, 1, 0⟩)
    else
      let h := subP u2 u1
      let r := subP s2 s1
      let hh := h * h % p256P
      let hhh := h * hh % p256P
      let v := u1 * hh % p256P
      let x3 := subP (subP (r * r % p256P) hhh) (2 * v % p256P)
      ⟨x3, subP (r * subP v x3 % p256P) (s1 * hhh % p256P), h * (p.z * q.z % p256P) % p256P⟩

/-- Scalar multiple, `n` bits of scalar. -/
def jMul : Nat → Nat → JPoint → JPoint
  | 0, _, _ => ⟨1, 1, 0⟩
  | n + 1, k, p =>
    let q := jMul n (k / 2) (jDouble p)
    if k % 2 = 1 then jAdd q p else q

/-- The affine x coordinate. -/
def jAffineX (p : JPoint) : Nat :=
  let zi := invMod p256P p.z
  p.x * (zi * zi % p256P) % p256P

/-- Whether a point lies on P-256. -/
def onCurve (x y : Nat) : Bool :=
  decide (x < p256P) && decide (y < p256P)
    && y * y % p256P == (x * x % p256P * x + (p256P - 3) * x + p256B) % p256P

/-- ECDSA P-256 over SHA-256: `key` is X then Y, `sig` is r then s, all big-endian 32-byte integers (R59). -/
def ecdsaVerify (key sig msg : List Nat) : Bool :=
  let qx := beNum (slice key 0 32)
  let qy := beNum (slice key 32 32)
  let r := beNum (slice sig 0 32)
  let sv := beNum (slice sig 32 32)
  let e := beNum (sha256 msg)
  if onCurve qx qy && decide (0 < r) && decide (r < p256N) && decide (0 < sv) && decide (sv < p256N) then
    let w := invMod p256N sv
    let pt := jAdd (jMul 256 (e * w % p256N) ⟨p256Gx, p256Gy, 1⟩) (jMul 256 (r * w % p256N) ⟨qx, qy, 1⟩)
    pt.z % p256P != 0 && jAffineX pt % p256N == r
  else false

end Sys2Proof.Machine
end

