-- ==== Sys2Proof/Machine/RegDesc.lean ====
section
/-! DEFINITION. How a register is described: class (R8), fields with access code (R11), reset value and range. -/

namespace Sys2Proof.Machine

/-- Where a register field stands: device address, high bit, low bit. -/
structure RF where
  addr : Nat
  hi : Nat
  lo : Nat
deriving DecidableEq, Repr

/-- Access codes of R11. -/
inductive Acc where
  | ro | rw | w1c | rc | wo | live
deriving DecidableEq, Repr

/-- Register classes of R8. -/
inductive Cls where
  | cfg | op | stat
deriving DecidableEq, Repr

/-- A field's Range column: any value, an interval, a stepped interval, a signed interval, a list of intervals. -/
inductive Rng where
  | any
  | iv (lo hi : Nat)
  | st (lo hi step : Nat)
  | sg (lo hi : Int)
  | set (l : List (Nat × Nat))
deriving DecidableEq, Repr

/-- One row of a Bits table. -/
structure FieldD where
  hi : Nat
  lo : Nat
  acc : Acc
  rst : Nat
  rng : Rng
deriving DecidableEq, Repr

/-- A field of the tables, any value legal unless a range is given. -/
def fd (hi lo : Nat) (acc : Acc) (rst : Nat) (rng : Rng := .any) : FieldD := ⟨hi, lo, acc, rst, rng⟩

/-- A register or register array: first address, dimensions (stride, count) with the largest stride first, class,
fields. -/
structure RegD where
  base : Nat
  dims : List (Nat × Nat)
  cls : Cls
  flds : List FieldD
deriving DecidableEq, Repr

/-- Width of a field in bits. -/
def FieldD.width (x : FieldD) : Nat := x.hi + 1 - x.lo

end Sys2Proof.Machine
end

