-- ==== Sys2Proof/Machine/RegTable.lean ====
section
/-! DEFINITION. The register tables of spec/ (the Bits tables of every chapter), one descriptor per register or
register array: base address, array dimensions (stride, count), class (R8), and its fields (R11) with their reset
values and ranges. Fields marked Reserved are absent (R7). A reset or range that depends on the variant, on the port
type or on another field is refined in Sys2Proof/Machine/RegFile.lean and Sys2Proof/Machine/Operands.lean. -/

namespace Sys2Proof.Machine

/-- Registers at 0x0–0xffff. -/
def regsGlb : List RegD := [
  -- GLB_ID
  ⟨0x0, [], .stat, [fd 31 16 .ro 0x5548, fd 15 0 .ro 0x9616]⟩,
  -- GLB_VER
  ⟨0x4, [], .stat, [fd 31 16 .ro 0, fd 15 8 .ro 0, fd 7 0 .ro 0]⟩,
  -- GLB_UID_LO
  ⟨0x8, [], .stat, [fd 31 0 .ro 0]⟩,
  -- GLB_UID_HI
  ⟨0xc, [], .stat, [fd 31 0 .ro 0]⟩,
  -- GLB_CAP0
  ⟨0x10, [], .stat, [fd 30 30 .ro 1, fd 29 28 .ro 3, fd 27 26 .ro 3, fd 25 20 .ro 0x3f, fd 19 0 .ro 0xfffff]⟩,
  -- GLB_CAP1
  ⟨0x14, [], .stat, [fd 21 21 .ro 1, fd 20 20 .ro 1, fd 18 16 .ro 3, fd 15 8 .ro 0x10, fd 7 6 .ro 3, fd 5 4 .ro 3,
    fd 3 0 .ro 0xf]⟩,
  -- GLB_ISL_PRESENT_LO
  ⟨0x20, [], .stat, [fd 31 0 .ro 0xffffffff]⟩,
  -- GLB_ISL_PRESENT_HI
  ⟨0x24, [], .stat, [fd 7 0 .ro 0xff]⟩,
  -- GLB_ISL_RUN_LO
  ⟨0x28, [], .stat, [fd 31 0 .ro 1]⟩,
  -- GLB_ISL_RUN_HI
  ⟨0x2c, [], .stat, [fd 7 0 .ro 0]⟩,
  -- GLB_ISL_FALLBACK_LO
  ⟨0x30, [], .stat, [fd 31 0 .ro 0]⟩,
  -- GLB_ISL_FALLBACK_HI
  ⟨0x34, [], .stat, [fd 7 0 .ro 0]⟩,
  -- GLB_XING_TO
  ⟨0x38, [], .stat, [fd 31 16 .rc 0, fd 13 8 .ro 0, fd 5 0 .ro 0]⟩,
  -- GLB_CFG_DENY_CNT
  ⟨0x40, [], .stat, [fd 31 0 .rc 0]⟩,
  -- GLB_CFG_DENY_ADDR
  ⟨0x44, [], .stat, [fd 31 0 .ro 0]⟩,
  -- GLB_MAP_MISS_CNT
  ⟨0x48, [], .stat, [fd 31 0 .rc 0]⟩,
  -- GLB_MAP_MISS_ADDR
  ⟨0x4c, [], .stat, [fd 31 0 .ro 0]⟩,
  -- GLB_FIRST_ERR
  ⟨0x50, [], .op, [fd 31 31 .w1c 0, fd 21 16 .ro 0, fd 13 8 .ro 0, fd 7 0 .ro 0]⟩,
  -- GLB_LAST_ERR
  ⟨0x54, [], .stat, [fd 31 31 .ro 0, fd 21 16 .ro 0, fd 13 8 .ro 0, fd 7 0 .ro 0]⟩,
  -- GLB_ERR_COUNT
  ⟨0x58, [], .stat, [fd 31 0 .rc 0]⟩]

/-- Registers at 0x10000–0x1ffff. -/
def regsLdr : List RegD := [
  -- LDR_STAT
  ⟨0x10000, [], .stat, [fd 31 24 .ro 0, fd 20 20 .ro 0, fd 19 17 .ro 0, fd 16 16 .ro 0, fd 15 13 .ro 0,
    fd 11 10 .ro 3, fd 3 0 .ro 0]⟩,
  -- LDR_EPOCH
  ⟨0x10004, [], .stat, [fd 31 16 .ro 0, fd 15 0 .ro 0]⟩,
  -- LDR_REJECT
  ⟨0x10008, [], .stat, [fd 15 8 .ro 0, fd 7 0 .ro 0]⟩,
  -- LDR_ROLLBACK
  ⟨0x1000c, [], .stat, [fd 31 16 .ro 0, fd 6 0 .ro 0]⟩,
  -- LDR_SERIAL
  ⟨0x10010, [], .stat, [fd 31 0 .ro 0]⟩,
  -- LDR_LOAD_CNT
  ⟨0x10014, [], .stat, [fd 31 16 .ro 0, fd 15 0 .ro 0]⟩,
  -- LDR_DISABLED
  ⟨0x10018, [], .stat, [fd 14 0 .ro 0]⟩,
  -- LDR_PROF_STAT
  ⟨0x1001c, [], .stat, [fd 31 16 .ro 0xffff, fd 11 11 .ro 0, fd 10 8 .ro 0, fd 2 0 .ro 0]⟩,
  -- LDR_SWAP_REQ
  ⟨0x10020, [], .cfg, [fd 0 0 .wo 0]⟩,
  -- LDR_DISCARD
  ⟨0x10024, [], .cfg, [fd 0 0 .wo 0]⟩,
  -- LDR_SWAP_TMO
  ⟨0x10028, [], .cfg, [fd 15 0 .rw 0xc8 (.iv 10 1000)]⟩,
  -- LDR_SWAP_LAST
  ⟨0x1002c, [], .stat, [fd 31 0 .ro 0]⟩,
  -- LDR_SWAP_PEND
  ⟨0x10030, [], .stat, [fd 14 0 .ro 0]⟩,
  -- LDR_SWAP_FORCED
  ⟨0x10034, [], .stat, [fd 31 0 .rc 0]⟩,
  -- LDR_LIVE_CLAMP_CNT
  ⟨0x10038, [], .stat, [fd 31 0 .rc 0]⟩,
  -- LDR_VIEW
  ⟨0x1003c, [], .op, [fd 3 0 .rw 0]⟩,
  -- LDR_EVT
  ⟨0x10040, [], .op, [fd 8 8 .w1c 0, fd 7 7 .w1c 0, fd 6 6 .w1c 0, fd 5 5 .w1c 0, fd 4 4 .w1c 0, fd 3 3 .w1c 0,
    fd 2 2 .w1c 0, fd 1 1 .w1c 0, fd 0 0 .w1c 0]⟩]

/-- Registers at 0x20000–0x3ffff. -/
def regsEvc : List RegD := [
  -- EVC_SRC_CFG
  ⟨0x20000, [(0x4, 1025)], .cfg, [fd 12 8 .rw 0, fd 7 0 .rw 0x40]⟩,
  -- EVC_SRC_LEVEL
  ⟨0x24000, [(0x4, 33)], .stat, [fd 31 0 .ro 0]⟩,
  -- EVC_PACER
  ⟨0x25000, [(0x4, 32)], .cfg, [fd 15 0 .rw 0]⟩,
  -- EVC_PACER_RUN
  ⟨0x25100, [(0x4, 4)], .stat, [fd 31 0 .ro 0]⟩,
  -- EVC_FIRST_ERR
  ⟨0x26000, [], .op, [fd 31 31 .w1c 0, fd 26 16 .ro 0, fd 9 8 .ro 0, fd 7 0 .ro 0]⟩,
  -- EVC_LAST_ERR
  ⟨0x26004, [], .stat, [fd 31 31 .ro 0, fd 26 16 .ro 0, fd 9 8 .ro 0, fd 7 0 .ro 0]⟩,
  -- EVC_ERR_COUNT
  ⟨0x26008, [], .stat, [fd 31 0 .rc 0]⟩,
  -- EVC_T_CLAIM
  ⟨0x30000, [(0x1000, 4)], .stat, [fd 31 31 .rc 0, fd 30 30 .rc 0, fd 29 29 .rc 0, fd 28 24 .rc 0, fd 23 16 .rc 0,
    fd 10 0 .rc 0]⟩,
  -- EVC_T_COMPLETE
  ⟨0x30004, [(0x1000, 4)], .op, [fd 10 0 .wo 0]⟩,
  -- EVC_T_CTRL
  ⟨0x30008, [(0x1000, 4)], .op, [fd 0 0 .rw 0]⟩,
  -- EVC_T_SPLIT
  ⟨0x3000c, [(0x1000, 4)], .op, [fd 2 0 .rw 0]⟩,
  -- EVC_T_STAT
  ⟨0x30010, [(0x1000, 4)], .stat, [fd 31 24 .ro 0, fd 23 16 .ro 0, fd 15 15 .ro 0, fd 10 0 .ro 0]⟩,
  -- EVC_T_CNT
  ⟨0x30014, [(0x1000, 4)], .stat, [fd 31 16 .rc 0, fd 15 0 .rc 0]⟩,
  -- EVC_T_VEC
  ⟨0x30100, [(0x1000, 4), (0x4, 32)], .op, [fd 5 0 .rw 0]⟩,
  -- EVC_T_EN
  ⟨0x30200, [(0x1000, 4), (0x4, 33)], .op, [fd 31 0 .rw 0]⟩,
  -- EVC_T_PEND
  ⟨0x30300, [(0x1000, 4), (0x4, 33)], .stat, [fd 31 0 .ro 0]⟩,
  -- EVC_T_ACTIVE
  ⟨0x30400, [(0x1000, 4), (0x4, 33)], .stat, [fd 31 0 .ro 0]⟩]

/-- Registers at 0x40000–0xbffff. -/
def regsQmx : List RegD := [
  -- QMX_Q_CFG
  ⟨0x40000, [(0x20, 8192)], .cfg, [fd 19 16 .rw 0, fd 15 13 .rw 0, fd 12 8 .rw 0, fd 7 3 .rw 0 (.iv 6 20),
    fd 1 1 .rw 0, fd 0 0 .rw 0 (.iv 0 1)]⟩,
  -- QMX_Q_COPY
  ⟨0x40004, [(0x20, 8192)], .cfg, [fd 12 0 .rw 0]⟩,
  -- QMX_Q_PKTS
  ⟨0x40008, [(0x20, 8192)], .stat, [fd 20 0 .ro 0]⟩,
  -- QMX_Q_WORDS
  ⟨0x4000c, [(0x20, 8192)], .stat, [fd 20 0 .ro 0]⟩,
  -- QMX_Q_LOST
  ⟨0x40010, [(0x20, 8192)], .stat, [fd 31 16 .rc 0, fd 15 8 .rc 0, fd 7 0 .rc 0]⟩,
  -- QMX_Q_SEQ
  ⟨0x40014, [(0x20, 8192)], .stat, [fd 31 0 .ro 0]⟩,
  -- QMX_RP_SEL
  ⟨0x80000, [(0x1000, 4)], .op, [fd 31 31 .rw 0, fd 12 0 .rw 0]⟩,
  -- QMX_RP_HEAD
  ⟨0x80004, [(0x1000, 4)], .stat, [fd 31 0 .rc 0]⟩,
  -- QMX_RP_STAT
  ⟨0x80008, [(0x1000, 4)], .stat, [fd 31 20 .ro 0, fd 19 19 .ro 0, fd 18 18 .ro 0, fd 17 17 .ro 0, fd 16 16 .ro 0,
    fd 12 0 .ro 0]⟩,
  -- QMX_RP_RELEASE
  ⟨0x8000c, [(0x1000, 4)], .op, [fd 0 0 .wo 0]⟩,
  -- QMX_RP_DATA
  ⟨0x80800, [(0x1000, 4), (0x4, 512)], .stat, [fd 31 0 .rc 0]⟩,
  -- QMX_EVT
  ⟨0xa0000, [], .op, [fd 5 5 .w1c 0, fd 4 4 .w1c 0, fd 3 3 .w1c 0, fd 2 2 .w1c 0, fd 1 1 .w1c 0, fd 0 0 .w1c 0]⟩,
  -- QMX_FIRST_ERR
  ⟨0xa0004, [], .op, [fd 31 31 .w1c 0, fd 20 8 .ro 0, fd 7 0 .ro 0]⟩,
  -- QMX_LAST_ERR
  ⟨0xa0008, [], .stat, [fd 31 31 .ro 0, fd 20 8 .ro 0, fd 7 0 .ro 0]⟩,
  -- QMX_ERR_COUNT
  ⟨0xa000c, [], .stat, [fd 31 0 .rc 0]⟩,
  -- QMX_CLAIM_TMO
  ⟨0xa0010, [], .cfg, [fd 15 0 .rw 0x3e8 (.iv 100 50000)]⟩,
  -- QMX_SPILL
  ⟨0xa0014, [], .stat, [fd 31 0 .ro 0]⟩]

/-- Registers at 0xc0000–0xfffff. -/
def regsDmx : List RegD := [
  -- DMX_CH_DEF
  ⟨0xc0000, [(0x200, 256)], .cfg, [fd 31 16 .rw 0x1000 (.iv 16 65535), fd 15 12 .rw 6 (.iv 0 12), fd 10 8 .rw 0,
    fd 2 2 .rw 0, fd 1 1 .rw 1]⟩,
  -- DMX_CH_NXT_RING_LO
  ⟨0xc0010, [(0x200, 256)], .op, [fd 31 4 .rw 0]⟩,
  -- DMX_CH_NXT_RING_HI
  ⟨0xc0014, [(0x200, 256)], .op, [fd 31 0 .rw 0]⟩,
  -- DMX_CH_NXT_CPL_LO
  ⟨0xc0018, [(0x200, 256)], .op, [fd 31 5 .rw 0]⟩,
  -- DMX_CH_NXT_CPL_HI
  ⟨0xc001c, [(0x200, 256)], .op, [fd 31 0 .rw 0]⟩,
  -- DMX_CH_NXT_SIZE
  ⟨0xc0020, [(0x200, 256)], .op, [fd 27 24 .rw 4, fd 19 16 .rw 2, fd 15 0 .rw 0]⟩,
  -- DMX_CH_NEXT_ARM
  ⟨0xc0024, [(0x200, 256)], .op, [fd 31 31 .rw 0, fd 7 0 .rw 0]⟩,
  -- DMX_CH_PI
  ⟨0xc0030, [(0x200, 256)], .op, [fd 15 0 .rw 0]⟩,
  -- DMX_CH_CPL_CI
  ⟨0xc0034, [(0x200, 256)], .op, [fd 15 0 .rw 0]⟩,
  -- DMX_CH_CTRL
  ⟨0xc0040, [(0x200, 256)], .op, [fd 2 2 .wo 0, fd 1 1 .wo 0, fd 0 0 .wo 0]⟩,
  -- DMX_CH_STAT
  ⟨0xc0044, [(0x200, 256)], .stat, [fd 23 16 .ro 0, fd 15 15 .ro 0, fd 14 14 .ro 0, fd 7 4 .ro 0, fd 3 0 .ro 0]⟩,
  -- DMX_CH_IDX
  ⟨0xc0048, [(0x200, 256)], .stat, [fd 31 16 .ro 0, fd 15 0 .ro 0]⟩,
  -- DMX_CH_ERR_LO
  ⟨0xc004c, [(0x200, 256)], .stat, [fd 31 0 .ro 0]⟩,
  -- DMX_CH_ERR_HI
  ⟨0xc0050, [(0x200, 256)], .stat, [fd 31 0 .ro 0]⟩,
  -- DMX_CH_ERR_INFO
  ⟨0xc0054, [(0x200, 256)], .stat, [fd 31 16 .ro 0, fd 9 8 .ro 0]⟩,
  -- DMX_CH_FRAMES
  ⟨0xc0058, [(0x200, 256)], .stat, [fd 31 0 .ro 0]⟩,
  -- DMX_CH_CNT
  ⟨0xc005c, [(0x200, 256)], .stat, [fd 31 16 .rc 0, fd 15 0 .rc 0]⟩,
  -- DMX_CH_EVT
  ⟨0xc0060, [(0x200, 256)], .op, [fd 7 7 .w1c 0, fd 6 6 .w1c 0, fd 5 5 .w1c 0, fd 4 4 .w1c 0, fd 3 3 .w1c 0,
    fd 2 2 .w1c 0, fd 1 1 .w1c 0, fd 0 0 .w1c 0]⟩,
  -- DMX_CH_EVT_EN
  ⟨0xc0064, [(0x200, 256)], .op, [fd 7 7 .rw 1, fd 6 6 .rw 1, fd 5 5 .rw 1, fd 4 4 .rw 1, fd 3 3 .rw 1, fd 2 2 .rw 1,
    fd 1 1 .rw 1, fd 0 0 .rw 1]⟩,
  -- DMX_P_REPLAY
  ⟨0xe0000, [(0x1000, 2)], .op, [fd 31 31 .wo 0, fd 30 28 .wo 0, fd 27 20 .wo 0, fd 13 0 .wo 0]⟩,
  -- DMX_P_REPLAY_STAT
  ⟨0xe0004, [(0x1000, 2)], .stat, [fd 31 31 .ro 0, fd 7 0 .ro 0]⟩,
  -- DMX_P_FIRST_ERR
  ⟨0xe0008, [(0x1000, 2)], .op, [fd 31 31 .w1c 0, fd 15 8 .ro 0, fd 7 0 .ro 0]⟩,
  -- DMX_P_LAST_ERR
  ⟨0xe000c, [(0x1000, 2)], .stat, [fd 31 31 .ro 0, fd 15 8 .ro 0, fd 7 0 .ro 0]⟩,
  -- DMX_P_ERR_COUNT
  ⟨0xe0010, [(0x1000, 2)], .stat, [fd 31 0 .rc 0]⟩]

/-- Registers at 0x100000–0x23ffff. -/
def regsCpt : List RegD := [
  -- CPT_CAP
  ⟨0x100000, [(0x10000, 20)], .stat, [fd 2 2 .ro 0, fd 1 0 .ro 0]⟩,
  -- CPT_CFG
  ⟨0x100004, [(0x10000, 20)], .cfg, [fd 31 16 .rw 0 (.set [(0, 0), (8, 450)]), fd 8 8 .rw 1 (.iv 0 1),
    fd 7 5 .rw 0 (.iv 0 4), fd 4 4 .rw 0 (.iv 0 1), fd 3 1 .rw 0 (.iv 1 5), fd 0 0 .rw 0]⟩,
  -- CPT_FRAME_TMO
  ⟨0x100008, [(0x10000, 20)], .cfg, [fd 23 0 .rw 0x186a0 (.iv 1000 1000000)]⟩,
  -- CPT_BRINGUP
  ⟨0x10000c, [(0x10000, 20)], .cfg, [fd 23 16 .rw 0xa (.iv 1 255), fd 15 4 .rw 0x64 (.iv 10 4000), fd 3 0 .rw 3]⟩,
  -- CPT_TRIG
  ⟨0x100010, [(0x10000, 20)], .cfg, [fd 31 16 .rw 0x9c40 (.iv 100 65535), fd 15 4 .rw 0xa (.iv 1 4000), fd 2 2 .rw 1,
    fd 1 0 .rw 0]⟩,
  -- CPT_TRIG_FIX
  ⟨0x100014, [(0x10000, 20)], .cfg, [fd 15 0 .rw 0]⟩,
  -- CPT_FS_LAT
  ⟨0x100018, [(0x10000, 20)], .cfg, [fd 23 0 .rw 0 (.iv 0 10000000)]⟩,
  -- CPT_STATE
  ⟨0x100100, [(0x10000, 20)], .stat, [fd 19 16 .ro 0, fd 15 8 .ro 0, fd 7 5 .ro 0, fd 4 4 .ro 0, fd 3 0 .ro 0]⟩,
  -- CPT_TRIG_LAT
  ⟨0x100104, [(0x10000, 20)], .stat, [fd 31 31 .ro 0, fd 15 0 .ro 0]⟩,
  -- CPT_PHY_CNT
  ⟨0x100108, [(0x10000, 20)], .stat, [fd 31 16 .rc 0, fd 15 0 .rc 0]⟩,
  -- CPT_PKT_ERR
  ⟨0x10010c, [(0x10000, 20)], .stat, [fd 31 16 .rc 0, fd 15 0 .rc 0]⟩,
  -- CPT_DISC
  ⟨0x100110, [(0x10000, 20)], .stat, [fd 31 16 .rc 0, fd 15 0 .rc 0]⟩,
  -- CPT_DISC2
  ⟨0x100114, [(0x10000, 20)], .stat, [fd 31 16 .rc 0, fd 15 0 .rc 0]⟩,
  -- CPT_UNMAPPED_LAST
  ⟨0x100118, [(0x10000, 20)], .stat, [fd 10 6 .ro 0, fd 5 0 .ro 0]⟩,
  -- CPT_FRAME_CNT
  ⟨0x10011c, [(0x10000, 20)], .stat, [fd 31 16 .rc 0, fd 15 0 .rc 0]⟩,
  -- CPT_LINE_CNT
  ⟨0x100120, [(0x10000, 20)], .stat, [fd 31 16 .rc 0, fd 15 0 .rc 0]⟩,
  -- CPT_LINK_CNT
  ⟨0x100124, [(0x10000, 20)], .stat, [fd 31 16 .rc 0, fd 15 0 .rc 0]⟩,
  -- CPT_TRIG_CNT
  ⟨0x100128, [(0x10000, 20)], .stat, [fd 31 24 .rc 0, fd 23 16 .rc 0, fd 15 8 .rc 0, fd 7 0 .rc 0]⟩,
  -- CPT_SEQ_CNT
  ⟨0x10012c, [(0x10000, 20)], .stat, [fd 31 16 .rc 0, fd 15 0 .rc 0]⟩,
  -- CPT_EVT
  ⟨0x100140, [(0x10000, 20)], .op, [fd 7 7 .w1c 0, fd 6 6 .w1c 0, fd 5 5 .w1c 0, fd 4 4 .w1c 0, fd 3 3 .w1c 0,
    fd 2 2 .w1c 0, fd 1 1 .w1c 0, fd 0 0 .w1c 0]⟩,
  -- CPT_FIRST_ERR
  ⟨0x100144, [(0x10000, 20)], .op, [fd 31 31 .w1c 0, fd 18 13 .ro 0, fd 12 8 .ro 0, fd 7 0 .ro 0]⟩,
  -- CPT_LAST_ERR
  ⟨0x100148, [(0x10000, 20)], .stat, [fd 31 31 .ro 0, fd 18 13 .ro 0, fd 12 8 .ro 0, fd 7 0 .ro 0]⟩,
  -- CPT_ERR_COUNT
  ⟨0x10014c, [(0x10000, 20)], .stat, [fd 31 0 .rc 0]⟩,
  -- CPT_MAP_W0
  ⟨0x100400, [(0x10000, 20), (0x10, 64)], .cfg, [fd 29 16 .rw 0 (.iv 0 16383), fd 13 12 .rw 0 (.iv 0 2),
    fd 11 6 .rw 0 (.set [(0x12, 0x12), (0x1E, 0x1E), (0x2A, 0x2F)]), fd 4 1 .rw 0, fd 0 0 .rw 0]⟩,
  -- CPT_MAP_W1
  ⟨0x100404, [(0x10000, 20), (0x10, 64)], .cfg, [fd 15 0 .rw 1 (.iv 1 16384)]⟩,
  -- CPT_MAP_W2
  ⟨0x100408, [(0x10000, 20), (0x10, 64)], .cfg, [fd 15 0 .rw 0x10 (.iv 16 16384)]⟩,
  -- CPT_MAP_W3
  ⟨0x10040c, [(0x10000, 20), (0x10, 64)], .cfg, [fd 2 1 .rw 1 (.iv 0 2), fd 0 0 .rw 0]⟩]

/-- Registers at 0x300000–0x4fffff. -/
def regsCtx : List RegD := [
  -- CTX_W00
  ⟨0x300000, [(0x80, 16384)], .cfg, [fd 0 0 .rw 0, fd 1 1 .rw 0, fd 3 2 .rw 1 (.iv 0 2), fd 5 4 .rw 0 (.iv 0 2),
    fd 6 6 .rw 0, fd 7 7 .rw 0 (.iv 0 1), fd 10 8 .rw 0 (.iv 0 4), fd 13 12 .rw 1 (.iv 1 3), fd 23 16 .rw 0,
    fd 28 24 .rw 0 (.iv 0 19)]⟩,
  -- CTX_W04
  ⟨0x300004, [(0x80, 16384)], .cfg, [fd 15 0 .rw 0x10 (.iv 16 16384), fd 31 16 .rw 1 (.iv 1 16384)]⟩,
  -- CTX_W08
  ⟨0x300008, [(0x80, 16384)], .cfg, [fd 19 0 .rw 0x2710 (.iv 500 1000000)]⟩,
  -- CTX_W0C
  ⟨0x30000c, [(0x80, 16384)], .cfg, [fd 23 0 .rw 0x8235 (.iv 1000 10000000)]⟩,
  -- CTX_W10
  ⟨0x300010, [(0x80, 16384)], .cfg, [fd 15 0 .rw 0 (.iv 0 16368), fd 31 16 .rw 0 (.iv 0 16383)]⟩,
  -- CTX_W14
  ⟨0x300014, [(0x80, 16384)], .cfg, [fd 15 0 .rw 0x10 (.st 16 16384 2), fd 31 16 .rw 1 (.iv 1 16384)]⟩,
  -- CTX_W18
  ⟨0x300018, [(0x80, 16384)], .cfg, [fd 15 0 .rw 0x10 (.iv 16 16384), fd 31 16 .rw 1 (.iv 1 16384)]⟩,
  -- CTX_W1C
  ⟨0x30001c, [(0x80, 16384)], .cfg, [fd 3 0 .rw 0, fd 7 4 .rw 0, fd 27 8 .rw 0]⟩,
  -- CTX_W20
  ⟨0x300020, [(0x80, 16384)], .cfg, [fd 3 0 .rw 4 (.iv 2 15), fd 14 8 .rw 0 (.iv 0 64), fd 19 16 .rw 0 (.iv 0 8)]⟩,
  -- CTX_W24
  ⟨0x300024, [(0x80, 16384)], .cfg, [fd 7 0 .rw 0, fd 15 8 .rw 0, fd 23 16 .rw 0, fd 31 24 .rw 0]⟩,
  -- CTX_W28
  ⟨0x300028, [(0x80, 16384)], .cfg, [fd 7 0 .rw 0, fd 15 8 .rw 0, fd 23 16 .rw 0]⟩,
  -- CTX_W2C
  ⟨0x30002c, [(0x80, 16384)], .cfg, [fd 12 0 .rw 0 (.set [(0, 0), (64, 1087)]), fd 15 13 .rw 0, fd 19 16 .rw 0]⟩,
  -- CTX_W30
  ⟨0x300030, [(0x80, 16384)], .cfg, [fd 0 0 .rw 0, fd 1 1 .rw 1, fd 2 2 .rw 0]⟩,
  -- CTX_W34
  ⟨0x300034, [(0x80, 16384)], .cfg, [fd 4 0 .rw 0, fd 15 5 .rw 0]⟩,
  -- CTX_W40
  ⟨0x300040, [(0x80, 16384)], .cfg, [fd 18 0 .ro 0]⟩,
  -- CTX_W44
  ⟨0x300044, [(0x80, 16384)], .cfg, [fd 21 0 .ro 0]⟩,
  -- CTX_W48
  ⟨0x300048, [(0x80, 16384)], .cfg, [fd 15 0 .ro 0, fd 23 16 .ro 0, fd 24 24 .ro 0, fd 25 25 .ro 0, fd 26 26 .ro 0,
    fd 27 27 .ro 0]⟩,
  -- CTX_W4C
  ⟨0x30004c, [(0x80, 16384)], .cfg, [fd 15 0 .ro 0, fd 18 16 .ro 0]⟩,
  -- CTX_W50
  ⟨0x300050, [(0x80, 16384)], .cfg, [fd 15 0 .ro 0, fd 31 16 .ro 0]⟩,
  -- CTX_W54
  ⟨0x300054, [(0x80, 16384)], .cfg, [fd 31 0 .ro 0]⟩,
  -- CTX_W58
  ⟨0x300058, [(0x80, 16384)], .cfg, [fd 31 0 .ro 0]⟩,
  -- CTX_W5C
  ⟨0x30005c, [(0x80, 16384)], .cfg, [fd 31 0 .ro 0]⟩,
  -- CTX_W60
  ⟨0x300060, [(0x80, 16384)], .cfg, [fd 31 0 .ro 0]⟩,
  -- CTX_W64
  ⟨0x300064, [(0x80, 16384)], .cfg, [fd 15 0 .ro 0, fd 31 16 .ro 0]⟩,
  -- CTX_W70
  ⟨0x300070, [(0x80, 16384)], .cfg, [fd 31 16 .live 0x1000 (.iv 1024 65535), fd 15 0 .live 0x1000 (.iv 1024 65535)]⟩,
  -- CTX_W74
  ⟨0x300074, [(0x80, 16384)], .cfg, [fd 31 16 .live 0x1000 (.iv 1024 65535), fd 15 0 .live 0x1000 (.iv 1024 65535)]⟩,
  -- CTX_W78
  ⟨0x300078, [(0x80, 16384)], .cfg, [fd 31 16 .live 0x100 (.iv 256 65535), fd 15 0 .live 0x1000 (.iv 2048 32767)]⟩,
  -- CTX_W7C
  ⟨0x30007c, [(0x80, 16384)], .cfg, [fd 31 16 .live 1 (.iv 1 65535), fd 15 0 .live 0x100 (.iv 256 65535)]⟩]

/-- Registers at 0x600000–0x6bffff. -/
def regsPix : List RegD := [
  -- PIX_CAP
  ⟨0x600000, [(0x20000, 6)], .stat, [fd 6 4 .ro 0, fd 2 1 .ro 0, fd 0 0 .ro 0]⟩,
  -- PIX_STATUS
  ⟨0x600004, [(0x20000, 6)], .stat, [fd 31 16 .ro 0, fd 15 15 .ro 0, fd 14 14 .ro 0, fd 13 0 .ro 0]⟩,
  -- PIX_RAW_CNT
  ⟨0x600010, [(0x20000, 6)], .stat, [fd 31 16 .rc 0, fd 15 0 .rc 0]⟩,
  -- PIX_EVT
  ⟨0x600020, [(0x20000, 6)], .op, [fd 5 5 .w1c 0, fd 4 4 .w1c 0, fd 1 1 .w1c 0, fd 0 0 .w1c 0]⟩,
  -- PIX_FIRST_ERR
  ⟨0x600024, [(0x20000, 6)], .op, [fd 31 31 .w1c 0, fd 23 22 .ro 0, fd 21 8 .ro 0, fd 7 0 .ro 0]⟩,
  -- PIX_LAST_ERR
  ⟨0x600028, [(0x20000, 6)], .stat, [fd 31 31 .ro 0, fd 23 22 .ro 0, fd 21 8 .ro 0, fd 7 0 .ro 0]⟩,
  -- PIX_ERR_COUNT
  ⟨0x60002c, [(0x20000, 6)], .stat, [fd 31 0 .rc 0]⟩,
  -- PIX_COL_CNT
  ⟨0x600400, [(0x20000, 6)], .stat, [fd 31 16 .rc 0, fd 15 0 .rc 0]⟩,
  -- PIX_LIN_CTRL
  ⟨0x610000, [(0x20, 256)], .cfg, [fd 30 16 .rw 0 (.st 0 32764 4), fd 1 1 .rw 0, fd 0 0 .rw 1]⟩,
  -- PIX_LIN_BL
  ⟨0x610004, [(0x20, 256), (0x4, 4)], .cfg, [fd 19 0 .rw 0 (.iv 0 262143)]⟩,
  -- PIX_DPC_CTRL
  ⟨0x612000, [(0x10, 256)], .cfg, [fd 24 8 .rw 0 (.iv 0 65536), fd 2 2 .rw 0, fd 1 1 .rw 0, fd 0 0 .rw 1]⟩,
  -- PIX_DPC_MAP
  ⟨0x612004, [(0x10, 256)], .cfg, [fd 24 0 .rw 0 (.st 0 33554428 4)]⟩,
  -- PIX_DPC_ABS
  ⟨0x612008, [(0x10, 256)], .cfg, [fd 19 0 .rw 0x4000]⟩,
  -- PIX_DPC_REL
  ⟨0x61200c, [(0x10, 256)], .cfg, [fd 15 8 .rw 0x20, fd 7 0 .rw 0x20]⟩,
  -- PIX_LSC_CTRL
  ⟨0x613000, [(0x10, 256)], .cfg, [fd 30 24 .rw 2 (.iv 2 65), fd 22 16 .rw 2 (.iv 2 65), fd 15 12 .rw 8 (.iv 3 10),
    fd 11 8 .rw 8 (.iv 3 10), fd 1 1 .rw 0, fd 0 0 .rw 1]⟩,
  -- PIX_LSC_MESH
  ⟨0x613004, [(0x10, 256)], .cfg, [fd 24 0 .rw 0 (.st 0 33554428 4)]⟩,
  -- PIX_HDR_CTRL
  ⟨0x614000, [(0x20, 256)], .cfg, [fd 30 16 .rw 0 (.st 0 32764 4), fd 3 2 .rw 0 (.iv 0 2), fd 1 1 .rw 0,
    fd 0 0 .rw 1]⟩,
  -- PIX_HDR_SAT
  ⟨0x614004, [(0x20, 256), (0x4, 3)], .cfg, [fd 19 0 .rw 0xfffff (.iv 4096 1048575)]⟩,
  -- PIX_HDR_MOT
  ⟨0x614010, [(0x20, 256)], .cfg, [fd 31 24 .rw 0x10, fd 23 0 .rw 0x10000]⟩,
  -- PIX_SGRID_ORG
  ⟨0x616000, [(0x20, 16)], .cfg, [fd 31 16 .rw 0 (.iv 0 16383), fd 15 0 .rw 0 (.iv 0 16383)]⟩,
  -- PIX_SGRID_CELL
  ⟨0x616004, [(0x20, 16)], .cfg, [fd 24 16 .rw 0x80 (.st 2 256 2), fd 8 0 .rw 0x100 (.st 16 256 2)]⟩,
  -- PIX_SGRID_DIM
  ⟨0x616008, [(0x20, 16)], .cfg, [fd 19 16 .rw 0xf, fd 13 8 .rw 8 (.iv 1 32), fd 5 0 .rw 0x10 (.iv 1 32)]⟩,
  -- PIX_COL_CTRL
  ⟨0x618000, [(0x40, 256)], .cfg, [fd 15 8 .rw 0x40, fd 2 2 .rw 0, fd 1 1 .rw 0, fd 0 0 .rw 1]⟩,
  -- PIX_COL_EDGE
  ⟨0x618004, [(0x40, 256)], .cfg, [fd 23 0 .rw 0x1000]⟩,
  -- PIX_CCM_A
  ⟨0x618008, [(0x40, 256), (0x8, 3)], .cfg, [fd 31 16 .rw 0, fd 15 0 .rw 0]⟩,
  -- PIX_CCM_B
  ⟨0x61800c, [(0x40, 256), (0x8, 3)], .cfg, [fd 31 16 .rw 0, fd 15 0 .rw 0]⟩,
  -- PIX_IRC_A
  ⟨0x618020, [(0x40, 256)], .cfg, [fd 31 16 .rw 0x1000, fd 15 0 .rw 0x1000]⟩,
  -- PIX_IRC_B
  ⟨0x618024, [(0x40, 256)], .cfg, [fd 15 0 .rw 0x1000]⟩,
  -- PIX_TONE_CTRL
  ⟨0x61c000, [(0x10, 256)], .cfg, [fd 30 16 .rw 0 (.st 0 32764 4), fd 4 4 .rw 0, fd 3 2 .rw 0 (.iv 0 2),
    fd 1 1 .rw 0, fd 0 0 .rw 1]⟩,
  -- PIX_SCL_CTRL
  ⟨0x61d000, [(0x10, 256)], .cfg, [fd 30 16 .rw 0 (.st 0 32764 4), fd 1 1 .rw 0, fd 0 0 .rw 1]⟩,
  -- PIX_SCL_BORDER
  ⟨0x61d004, [(0x10, 256)], .cfg, [fd 31 24 .rw 0, fd 23 16 .rw 0, fd 15 8 .rw 0, fd 3 0 .rw 0]⟩,
  -- HTS_REFUSE_PEND_LO
  ⟨0x61e000, [], .op, [fd 31 0 .w1c 0]⟩,
  -- HTS_REFUSE_PEND_HI
  ⟨0x61e004, [], .op, [fd 31 0 .w1c 0]⟩,
  -- HTS_FAULT_PEND_LO
  ⟨0x61e008, [], .op, [fd 31 0 .w1c 0]⟩,
  -- HTS_FAULT_PEND_HI
  ⟨0x61e00c, [], .op, [fd 31 0 .w1c 0]⟩,
  -- HTS_HOLD_FREEZE
  ⟨0x61e010, [], .op, [fd 31 31 .wo 0, fd 13 0 .wo 0]⟩,
  -- HTS_FIRST_ERR
  ⟨0x61e020, [], .op, [fd 31 31 .w1c 0, fd 26 24 .ro 0, fd 21 8 .ro 0, fd 7 0 .ro 0]⟩,
  -- HTS_LAST_ERR
  ⟨0x61e024, [], .stat, [fd 31 31 .ro 0, fd 26 24 .ro 0, fd 21 8 .ro 0, fd 7 0 .ro 0]⟩,
  -- HTS_ERR_COUNT
  ⟨0x61e028, [], .stat, [fd 31 0 .rc 0]⟩,
  -- HTS_L_LOAD
  ⟨0x61f000, [(0x20000, 6)], .stat, [fd 31 16 .ro 0, fd 15 0 .ro 0]⟩,
  -- HTS_L_BUDGET
  ⟨0x61f004, [(0x20000, 6)], .stat, [fd 18 16 .ro 0, fd 15 0 .ro 0]⟩,
  -- HTS_L_PEAK
  ⟨0x61f008, [(0x20000, 6)], .stat, [fd 31 16 .rc 0, fd 15 0 .rc 0]⟩,
  -- HTS_L_REFUSED
  ⟨0x61f00c, [(0x20000, 6)], .stat, [fd 31 16 .rc 0, fd 15 0 .rc 0]⟩,
  -- HTS_L_FAULT
  ⟨0x61f010, [(0x20000, 6)], .stat, [fd 31 16 .rc 0, fd 15 0 .rc 0]⟩,
  -- HTS_L_OVER
  ⟨0x61f014, [(0x20000, 6)], .stat, [fd 15 0 .rc 0]⟩]

/-- Registers at 0x700000–0x77ffff. -/
def regsSeam : List RegD := [
  -- SEAM_EVT
  ⟨0x700000, [], .op, [fd 1 1 .w1c 0, fd 0 0 .w1c 0]⟩,
  -- SEAM_FIRST_ERR
  ⟨0x700004, [], .op, [fd 31 31 .w1c 0, fd 30 23 .ro 0, fd 22 9 .ro 0, fd 7 0 .ro 0]⟩,
  -- SEAM_LAST_ERR
  ⟨0x700008, [], .stat, [fd 31 31 .ro 0, fd 30 23 .ro 0, fd 22 9 .ro 0, fd 7 0 .ro 0]⟩,
  -- SEAM_ERR_COUNT
  ⟨0x70000c, [], .stat, [fd 31 0 .rc 0]⟩,
  -- SEAM_CNT
  ⟨0x700010, [], .stat, [fd 31 16 .rc 0, fd 15 0 .rc 0]⟩,
  -- SEAM_ROUTE_W0
  ⟨0x702000, [(0x20, 256)], .cfg, [fd 31 16 .rw 0, fd 7 5 .rw 1 (.iv 1 4), fd 4 3 .rw 0 (.iv 0 2),
    fd 2 1 .rw 0 (.iv 0 2), fd 0 0 .rw 0]⟩,
  -- SEAM_ROUTE_W1
  ⟨0x702004, [(0x20, 256)], .cfg, [fd 31 16 .rw 0xffff (.set [(0, 16383), (0xFFFF, 0xFFFF)]),
    fd 15 0 .rw 0xffff (.set [(0, 16383), (0xFFFF, 0xFFFF)])]⟩,
  -- SEAM_ROUTE_W2
  ⟨0x702008, [(0x20, 256)], .cfg, [fd 31 16 .rw 0xffff (.set [(0, 16383), (0xFFFF, 0xFFFF)]),
    fd 15 0 .rw 0xffff (.set [(0, 16383), (0xFFFF, 0xFFFF)])]⟩,
  -- SEAM_REGION_ORG
  ⟨0x70200c, [(0x20, 256)], .cfg, [fd 31 16 .rw 0 (.iv 0 16383), fd 15 0 .rw 0 (.st 0 16382 2)]⟩,
  -- SEAM_REGION_SIZE
  ⟨0x702010, [(0x20, 256)], .cfg, [fd 31 16 .rw 1 (.iv 1 16384), fd 15 0 .rw 0x10 (.st 16 16384 2)]⟩,
  -- SEAM_OUT_FRAMES
  ⟨0x702018, [(0x20, 256)], .stat, [fd 31 0 .ro 0]⟩,
  -- SEAM_OUT_LOSS
  ⟨0x70201c, [(0x20, 256)], .stat, [fd 31 16 .rc 0, fd 15 0 .rc 0]⟩,
  -- CHK_EVT
  ⟨0x740000, [], .op, [fd 5 5 .w1c 0, fd 4 4 .w1c 0, fd 3 3 .w1c 0, fd 2 2 .w1c 0, fd 1 1 .w1c 0, fd 0 0 .w1c 0]⟩,
  -- CHK_FIRST_ERR
  ⟨0x740004, [], .op, [fd 31 31 .w1c 0, fd 30 23 .ro 0, fd 22 9 .ro 0, fd 7 0 .ro 0]⟩,
  -- CHK_LAST_ERR
  ⟨0x740008, [], .stat, [fd 31 31 .ro 0, fd 30 23 .ro 0, fd 22 9 .ro 0, fd 7 0 .ro 0]⟩,
  -- CHK_ERR_COUNT
  ⟨0x74000c, [], .stat, [fd 31 0 .rc 0]⟩,
  -- CHK_ENG_CNT
  ⟨0x740010, [], .stat, [fd 31 16 .rc 0, fd 15 0 .rc 0]⟩,
  -- CHK_IN_CNT
  ⟨0x740014, [], .stat, [fd 31 24 .rc 0, fd 23 16 .rc 0, fd 15 8 .rc 0, fd 7 0 .rc 0]⟩,
  -- CHK_IN_FMT
  ⟨0x740018, [], .stat, [fd 15 0 .rc 0]⟩]

/-- Registers at 0x780000–0x7fffff. -/
def regsHlk : List RegD := [
  -- HLK_CFG
  ⟨0x780000, [(0x10000, 2)], .cfg, [fd 2 0 .rw 4 (.iv 1 4)]⟩,
  -- HLK_STAT
  ⟨0x780004, [(0x10000, 2)], .stat, [fd 11 11 .ro 0, fd 10 10 .ro 0, fd 9 9 .ro 0, fd 8 8 .ro 0, fd 6 4 .ro 0,
    fd 2 0 .ro 0]⟩,
  -- HLK_EGR_LEVEL
  ⟨0x780008, [(0x10000, 2)], .stat, [fd 22 0 .ro 0]⟩,
  -- HLK_EGR_PEAK
  ⟨0x78000c, [(0x10000, 2)], .stat, [fd 22 0 .rc 0]⟩,
  -- HLK_EGR_HWM
  ⟨0x780010, [(0x10000, 2)], .op, [fd 22 0 .rw 0x300000]⟩,
  -- HLK_EGR_LWM
  ⟨0x780014, [(0x10000, 2)], .op, [fd 22 0 .rw 0x100000]⟩,
  -- HLK_WM_CNT
  ⟨0x780018, [(0x10000, 2)], .stat, [fd 31 16 .rc 0, fd 15 0 .rc 0]⟩,
  -- HLK_EGR_LOSS
  ⟨0x78001c, [(0x10000, 2)], .stat, [fd 31 0 .rc 0]⟩,
  -- HLK_EVT
  ⟨0x780020, [(0x10000, 2)], .op, [fd 7 7 .w1c 0, fd 6 6 .w1c 0, fd 5 5 .w1c 0, fd 4 4 .w1c 0, fd 3 3 .w1c 0,
    fd 2 2 .w1c 0, fd 1 1 .w1c 0, fd 0 0 .w1c 0]⟩,
  -- HLK_FIRST_ERR
  ⟨0x780024, [(0x10000, 2)], .op, [fd 31 31 .w1c 0, fd 7 0 .ro 0]⟩,
  -- HLK_LAST_ERR
  ⟨0x780028, [(0x10000, 2)], .stat, [fd 31 31 .ro 0, fd 7 0 .ro 0]⟩,
  -- HLK_ERR_COUNT
  ⟨0x78002c, [(0x10000, 2)], .stat, [fd 31 0 .rc 0]⟩,
  -- MSIX_ADDR_LO
  ⟨0x788000, [(0x10000, 2), (0x10, 64)], .op, [fd 31 0 .rw 0]⟩,
  -- MSIX_ADDR_HI
  ⟨0x788004, [(0x10000, 2), (0x10, 64)], .op, [fd 31 0 .rw 0]⟩,
  -- MSIX_DATA
  ⟨0x788008, [(0x10000, 2), (0x10, 64)], .op, [fd 31 0 .rw 0]⟩,
  -- MSIX_CTRL
  ⟨0x78800c, [(0x10000, 2), (0x10, 64)], .op, [fd 0 0 .rw 1]⟩,
  -- MSIX_PBA
  ⟨0x789000, [(0x10000, 2), (0x4, 2)], .stat, [fd 31 0 .ro 0]⟩,
  -- CTX2_CFG
  ⟨0x7c0000, [(0x1000, 2)], .cfg, [fd 31 16 .rw 0x50 (.iv 8 450), fd 5 5 .rw 0, fd 4 2 .rw 4 (.iv 1 4), fd 1 1 .rw 0,
    fd 0 0 .rw 0]⟩,
  -- CTX2_STAT
  ⟨0x7c0004, [(0x1000, 2)], .stat, [fd 16 16 .ro 0, fd 15 0 .ro 0]⟩,
  -- CTX2_CNT
  ⟨0x7c0008, [(0x1000, 2)], .stat, [fd 31 16 .rc 0, fd 15 0 .rc 0]⟩,
  -- CTX2_EVT
  ⟨0x7c000c, [(0x1000, 2)], .op, [fd 0 0 .w1c 0]⟩]

/-- Registers at 0x800000–0x8fffff. -/
def regsWve : List RegD := [
  -- WVE_CFG
  ⟨0x800000, [(0x1000, 4)], .cfg, [fd 11 10 .rw 3 (.iv 0 3), fd 9 8 .rw 0, fd 0 0 .rw 0]⟩,
  -- WVE_LANE_MAP
  ⟨0x800004, [(0x1000, 4)], .cfg, [fd 11 9 .rw 3 (.iv 0 4), fd 8 6 .rw 2 (.iv 0 4), fd 5 3 .rw 1 (.iv 0 4),
    fd 2 0 .rw 0 (.iv 0 4)]⟩,
  -- WVE_STAT
  ⟨0x800010, [(0x1000, 4)], .stat, [fd 31 27 .ro 0, fd 26 26 .ro 0, fd 25 24 .ro 0, fd 22 20 .ro 0, fd 19 15 .ro 0,
    fd 14 3 .ro 0, fd 2 0 .ro 0]⟩,
  -- WVE_PEER_UID_LO
  ⟨0x800014, [(0x1000, 4)], .stat, [fd 31 0 .ro 0]⟩,
  -- WVE_PEER_UID_HI
  ⟨0x800018, [(0x1000, 4)], .stat, [fd 31 0 .ro 0]⟩,
  -- WVE_RETRY_LVL
  ⟨0x80001c, [(0x1000, 4)], .stat, [fd 25 16 .ro 0, fd 9 0 .ro 0]⟩,
  -- WVE_CNT
  ⟨0x800020, [(0x1000, 4)], .stat, [fd 31 16 .rc 0, fd 15 0 .rc 0]⟩,
  -- WVE_CNT2
  ⟨0x800024, [(0x1000, 4)], .stat, [fd 31 16 .rc 0, fd 15 8 .rc 0, fd 7 0 .rc 0]⟩,
  -- WVE_EVT
  ⟨0x800040, [(0x1000, 4)], .op, [fd 3 3 .w1c 0, fd 2 2 .w1c 0, fd 1 1 .w1c 0, fd 0 0 .w1c 0]⟩,
  -- WVE_FIRST_ERR
  ⟨0x800044, [(0x1000, 4)], .op, [fd 31 31 .w1c 0, fd 12 8 .ro 0, fd 7 0 .ro 0]⟩,
  -- WVE_LAST_ERR
  ⟨0x800048, [(0x1000, 4)], .stat, [fd 31 31 .ro 0, fd 12 8 .ro 0, fd 7 0 .ro 0]⟩,
  -- WVE_ERR_COUNT
  ⟨0x80004c, [(0x1000, 4)], .stat, [fd 31 0 .rc 0]⟩,
  -- WVE_LANE_ERR
  ⟨0x800050, [(0x1000, 4), (0x4, 5)], .stat, [fd 15 0 .rc 0]⟩,
  -- FAB_CFG
  ⟨0x840000, [], .cfg, [fd 5 5 .rw 0, fd 4 0 .rw 0]⟩,
  -- FAB_NAME
  ⟨0x840004, [], .cfg, [fd 31 0 .rw 0]⟩,
  -- FAB_STAT
  ⟨0x840008, [], .stat, [fd 21 16 .ro 0, fd 13 8 .ro 0, fd 5 5 .ro 0, fd 4 0 .ro 0]⟩,
  -- FAB_MEMBERS
  ⟨0x84000c, [], .stat, [fd 31 0 .ro 0]⟩,
  -- FAB_CNT
  ⟨0x840010, [], .stat, [fd 31 16 .rc 0, fd 15 0 .rc 0]⟩,
  -- FAB_EVT
  ⟨0x840014, [], .op, [fd 4 4 .w1c 0, fd 3 3 .w1c 0, fd 2 2 .w1c 0, fd 1 1 .w1c 0, fd 0 0 .w1c 0]⟩,
  -- FAB_FIRST_ERR
  ⟨0x840018, [], .op, [fd 31 31 .w1c 0, fd 12 8 .ro 0, fd 7 0 .ro 0]⟩,
  -- FAB_LAST_ERR
  ⟨0x84001c, [], .stat, [fd 31 31 .ro 0, fd 12 8 .ro 0, fd 7 0 .ro 0]⟩,
  -- FAB_ERR_COUNT
  ⟨0x840020, [], .stat, [fd 31 0 .rc 0]⟩,
  -- FAB_ROUTE
  ⟨0x840100, [(0x4, 32)], .stat, [fd 15 8 .ro 0, fd 7 3 .ro 0, fd 2 2 .ro 0, fd 1 0 .ro 0]⟩,
  -- FAB_UID_LO
  ⟨0x840200, [(0x8, 32)], .stat, [fd 31 0 .ro 0]⟩,
  -- FAB_UID_HI
  ⟨0x840204, [(0x8, 32)], .stat, [fd 31 0 .ro 0]⟩,
  -- RLY_CFG
  ⟨0x880000, [], .cfg, [fd 31 24 .rw 0x14 (.iv 2 100), fd 19 16 .rw 2 (.iv 1 10), fd 3 2 .rw 0 (.iv 0 3),
    fd 1 1 .rw 0, fd 0 0 .rw 0]⟩,
  -- RLY_STAT
  ⟨0x880004, [], .stat, [fd 31 16 .ro 0, fd 11 8 .ro 0, fd 7 7 .ro 0, fd 6 6 .ro 0, fd 5 5 .ro 0, fd 4 4 .ro 0,
    fd 3 3 .ro 0, fd 2 0 .ro 0]⟩,
  -- RLY_DIGEST
  ⟨0x880008, [], .stat, [fd 31 0 .ro 0]⟩,
  -- RLY_PEER_DIGEST
  ⟨0x88000c, [], .stat, [fd 31 0 .ro 0]⟩,
  -- RLY_CTRL
  ⟨0x880010, [], .op, [fd 0 0 .wo 0]⟩,
  -- RLY_LAST_BATON
  ⟨0x880014, [], .stat, [fd 31 0 .ro 0]⟩,
  -- RLY_CNT
  ⟨0x880018, [], .stat, [fd 31 24 .rc 0, fd 23 16 .rc 0, fd 15 0 .rc 0]⟩,
  -- RLY_EVT
  ⟨0x88001c, [], .op, [fd 6 6 .w1c 0, fd 5 5 .w1c 0, fd 4 4 .w1c 0, fd 3 3 .w1c 0, fd 2 2 .w1c 0, fd 1 1 .w1c 0,
    fd 0 0 .w1c 0]⟩,
  -- RLY_FIRST_ERR
  ⟨0x880020, [], .op, [fd 31 31 .w1c 0, fd 7 0 .ro 0]⟩,
  -- RLY_LAST_ERR
  ⟨0x880024, [], .stat, [fd 31 31 .ro 0, fd 7 0 .ro 0]⟩,
  -- RLY_ERR_COUNT
  ⟨0x880028, [], .stat, [fd 31 0 .rc 0]⟩]

/-- Registers at 0x900000–0x9fffff. -/
def regsTsu : List RegD := [
  -- TSU_TIME_NS
  ⟨0x900000, [], .stat, [fd 31 0 .ro 0]⟩,
  -- TSU_STATE
  ⟨0x900004, [], .stat, [fd 5 4 .ro 0, fd 3 0 .ro 0]⟩,
  -- TSU_OFFSET
  ⟨0x900008, [], .stat, [fd 31 0 .ro 0]⟩,
  -- TSU_RATE
  ⟨0x90000c, [], .stat, [fd 31 0 .ro 0]⟩,
  -- TSU_STEP
  ⟨0x900010, [], .stat, [fd 31 0 .ro 0]⟩,
  -- TSU_CFG
  ⟨0x900014, [], .cfg, [fd 31 16 .rw 0x64 (.iv 10 10000), fd 2 2 .rw 0 (.iv 0 1), fd 1 0 .rw 0 (.iv 0 2)]⟩,
  -- TSU_TRG_ADV
  ⟨0x900018, [], .cfg, [fd 15 0 .rw 0x96 (.iv 10 1000)]⟩,
  -- TSU_PPS_NEXT
  ⟨0x90001c, [], .stat, [fd 31 0 .ro 0x3b9aca00]⟩,
  -- TSU_PPS_LAST
  ⟨0x900020, [], .stat, [fd 31 0 .ro 0]⟩,
  -- TSU_CNT
  ⟨0x900024, [], .stat, [fd 31 16 .rc 0, fd 15 0 .rc 0]⟩,
  -- TSU_EVT
  ⟨0x900028, [], .op, [fd 4 4 .w1c 0, fd 3 3 .w1c 0, fd 2 2 .w1c 0, fd 1 1 .w1c 0, fd 0 0 .w1c 0]⟩,
  -- TSU_FIRST_ERR
  ⟨0x90002c, [], .op, [fd 31 31 .w1c 0, fd 12 8 .ro 0, fd 7 0 .ro 0]⟩,
  -- TSU_LAST_ERR
  ⟨0x900030, [], .stat, [fd 31 31 .ro 0, fd 12 8 .ro 0, fd 7 0 .ro 0]⟩,
  -- TSU_ERR_COUNT
  ⟨0x900034, [], .stat, [fd 31 0 .rc 0]⟩,
  -- TSU_TIME_HI
  ⟨0x900038, [], .stat, [fd 31 0 .ro 0]⟩,
  -- TSU_TRG_NEXT_HI
  ⟨0x900080, [(0x4, 32)], .stat, [fd 31 0 .ro 0]⟩,
  -- TSU_TRG_CFG
  ⟨0x900100, [(0x10, 32)], .cfg, [fd 21 2 .rw 0 (.iv 0 0xFFFFF), fd 0 0 .rw 0]⟩,
  -- TSU_TRG_PERIOD
  ⟨0x900104, [(0x10, 32)], .cfg, [fd 31 0 .rw 0x1fca055 (.iv 1000000 4000000000)]⟩,
  -- TSU_TRG_PHASE
  ⟨0x900108, [(0x10, 32)], .cfg, [fd 31 0 .rw 0 (.iv 0 999999999)]⟩,
  -- TSU_TRG_NEXT
  ⟨0x90010c, [(0x10, 32)], .stat, [fd 31 0 .ro 0]⟩,
  -- ETH_CFG
  ⟨0x908000, [(0x1000, 2)], .cfg, [fd 23 16 .rw 0 (.iv 0 127), fd 12 10 .rw 2 (.iv 0 5), fd 9 9 .rw 0,
    fd 8 7 .rw 0 (.iv 0 2), fd 6 4 .rw 3 (.iv 0 4), fd 0 0 .rw 0]⟩,
  -- ETH_MAC_LO
  ⟨0x908004, [(0x1000, 2)], .cfg, [fd 31 0 .rw 0]⟩,
  -- ETH_MAC_HI
  ⟨0x908008, [(0x1000, 2)], .cfg, [fd 15 0 .rw 0]⟩,
  -- ETH_PHY_LAT
  ⟨0x90800c, [(0x1000, 2)], .cfg, [fd 31 16 .rw 0 (.iv 0 4095), fd 15 0 .rw 0 (.iv 0 4095)]⟩,
  -- ETH_STAT
  ⟨0x908010, [(0x1000, 2)], .stat, [fd 31 16 .ro 0, fd 2 2 .ro 0, fd 0 0 .ro 0]⟩,
  -- ETH_CNT
  ⟨0x908014, [(0x1000, 2)], .stat, [fd 31 16 .rc 0, fd 15 0 .rc 0]⟩,
  -- ETH_CNT2
  ⟨0x908018, [(0x1000, 2)], .stat, [fd 31 16 .rc 0, fd 15 0 .rc 0]⟩,
  -- ETH_EVT
  ⟨0x908020, [(0x1000, 2)], .op, [fd 4 4 .w1c 0, fd 3 3 .w1c 0, fd 2 2 .w1c 0, fd 1 1 .w1c 0, fd 0 0 .w1c 0]⟩,
  -- ETH_FIRST_ERR
  ⟨0x908024, [(0x1000, 2)], .op, [fd 31 31 .w1c 0, fd 7 0 .ro 0]⟩,
  -- ETH_LAST_ERR
  ⟨0x908028, [(0x1000, 2)], .stat, [fd 31 31 .ro 0, fd 7 0 .ro 0]⟩,
  -- ETH_ERR_COUNT
  ⟨0x90802c, [(0x1000, 2)], .stat, [fd 31 0 .rc 0]⟩]

/-- Registers at 0xa00000–0xafffff. -/
def regsPos : List RegD := [
  -- POS_SEL
  ⟨0xa00000, [], .cfg, [fd 25 16 .rw 0xc8 (.iv 1 1000), fd 8 8 .rw 0, fd 6 4 .rw 4 (.iv 0 4),
    fd 2 0 .rw 4 (.iv 0 4)]⟩,
  -- POS_WHEEL_SCALE
  ⟨0xa00004, [], .cfg, [fd 31 0 .rw 0x10000 (.iv 256 4294967295)]⟩,
  -- POS_STEER_ZERO
  ⟨0xa00008, [], .cfg, [fd 31 0 .rw 0]⟩,
  -- POS_STEER_SCALE
  ⟨0xa0000c, [], .cfg, [fd 31 0 .rw 0x10000 (.sg (-0x7FFFFFFF) 0x7FFFFFFF)]⟩,
  -- POS_SPEED
  ⟨0xa00010, [], .stat, [fd 26 26 .ro 0, fd 25 25 .ro 0, fd 24 24 .ro 0, fd 23 0 .ro 0]⟩,
  -- POS_STEER
  ⟨0xa00014, [], .stat, [fd 16 16 .ro 0, fd 15 0 .ro 0]⟩,
  -- POS_PROF
  ⟨0xa00018, [], .stat, [fd 15 0 .ro 0xffff]⟩,
  -- POS_EVT
  ⟨0xa00020, [], .op, [fd 6 6 .w1c 0, fd 5 5 .w1c 0, fd 4 4 .w1c 0, fd 3 3 .w1c 0, fd 2 2 .w1c 0, fd 1 1 .w1c 0,
    fd 0 0 .w1c 0]⟩,
  -- POS_FIRST_ERR
  ⟨0xa00024, [], .op, [fd 31 31 .w1c 0, fd 12 8 .ro 0, fd 7 0 .ro 0]⟩,
  -- POS_LAST_ERR
  ⟨0xa00028, [], .stat, [fd 31 31 .ro 0, fd 12 8 .ro 0, fd 7 0 .ro 0]⟩,
  -- POS_ERR_COUNT
  ⟨0xa0002c, [], .stat, [fd 31 0 .rc 0]⟩,
  -- POS_CMP_EVT
  ⟨0xa00030, [], .op, [fd 7 0 .w1c 0]⟩,
  -- POS_CMP_CFG
  ⟨0xa00040, [(0x8, 8)], .op, [fd 4 4 .ro 0, fd 3 3 .rw 0, fd 1 0 .rw 0]⟩,
  -- POS_CMP_POS
  ⟨0xa00044, [(0x8, 8)], .op, [fd 31 0 .rw 0]⟩,
  -- POS_CH_CFG
  ⟨0xa00100, [(0x80, 4)], .cfg, [fd 31 24 .rw 0x14 (.iv 1 200), fd 23 20 .rw 4 (.iv 1 15), fd 19 16 .rw 8 (.iv 0 10),
    fd 15 8 .rw 5 (.iv 1 255), fd 4 4 .rw 0, fd 3 3 .rw 0, fd 2 0 .rw 0 (.iv 0 4)]⟩,
  -- POS_CH_Z
  ⟨0xa00104, [(0x80, 4)], .cfg, [fd 31 0 .rw 0]⟩,
  -- POS_CH_SC
  ⟨0xa00108, [(0x80, 4)], .cfg, [fd 27 16 .rw 0x800, fd 11 0 .rw 0x800]⟩,
  -- POS_CH_AMP
  ⟨0xa0010c, [(0x80, 4)], .cfg, [fd 27 16 .rw 0x7d0 (.iv 1 4095), fd 11 0 .rw 0x190 (.iv 0 4095)]⟩,
  -- POS_CH_SENT
  ⟨0xa00110, [(0x80, 4)], .cfg, [fd 20 20 .rw 0, fd 19 19 .rw 1, fd 18 16 .rw 3 (.iv 1 6), fd 15 13 .rw 0 (.iv 0 5),
    fd 12 10 .rw 6 (.iv 1 6), fd 9 0 .rw 0x1e (.iv 30 900)]⟩,
  -- POS_CH_CNT
  ⟨0xa00114, [(0x80, 4)], .stat, [fd 31 0 .ro 0]⟩,
  -- POS_CH_STAT
  ⟨0xa00118, [(0x80, 4)], .stat, [fd 3 3 .ro 0, fd 2 2 .ro 0, fd 1 1 .ro 0, fd 0 0 .ro 0]⟩,
  -- POS_CH_PERIOD
  ⟨0xa0011c, [(0x80, 4)], .stat, [fd 31 0 .ro 0]⟩,
  -- POS_CH_V
  ⟨0xa00120, [(0x80, 4)], .stat, [fd 31 0 .ro 0]⟩,
  -- POS_CH_ERRCNT
  ⟨0xa00124, [(0x80, 4)], .stat, [fd 31 16 .rc 0, fd 15 8 .rc 0, fd 7 0 .rc 0]⟩,
  -- EMU_CFG
  ⟨0xa00400, [(0x20, 2)], .cfg, [fd 31 16 .rw 0x19 (.iv 1 65535), fd 2 2 .rw 0, fd 1 0 .rw 0]⟩,
  -- EMU_RATIO
  ⟨0xa00404, [(0x20, 2)], .cfg, [fd 31 16 .rw 1 (.iv 1 65535), fd 15 0 .rw 1 (.iv 1 65535)]⟩,
  -- EMU_Z
  ⟨0xa00408, [(0x20, 2)], .cfg, [fd 31 0 .rw 0]⟩,
  -- EMU_STAT
  ⟨0xa0040c, [(0x20, 2)], .stat, [fd 31 0 .ro 0]⟩,
  -- PWR_SCALE
  ⟨0xa40000, [], .cfg, [fd 31 16 .rw 0x100 (.iv 1 65535), fd 15 0 .rw 0x100 (.iv 1 65535)]⟩,
  -- PWR_RETRY
  ⟨0xa40004, [], .cfg, [fd 22 20 .rw 2 (.iv 1 8), fd 19 16 .rw 3, fd 15 0 .rw 0x64 (.iv 10 10000)]⟩,
  -- PWR_RAIL
  ⟨0xa40008, [], .cfg, [fd 15 0 .rw 0 (.iv 0 30000)]⟩,
  -- PWR_RAIL_MV
  ⟨0xa4000c, [], .stat, [fd 15 0 .ro 0]⟩,
  -- PWR_MODE
  ⟨0xa40010, [], .stat, [fd 2 0 .ro 0]⟩,
  -- PWR_EVT
  ⟨0xa40014, [], .op, [fd 0 0 .w1c 0]⟩,
  -- PWR_FIRST_ERR
  ⟨0xa40018, [], .op, [fd 31 31 .w1c 0, fd 12 8 .ro 0, fd 7 0 .ro 0]⟩,
  -- PWR_LAST_ERR
  ⟨0xa4001c, [], .stat, [fd 31 31 .ro 0, fd 12 8 .ro 0, fd 7 0 .ro 0]⟩,
  -- PWR_ERR_COUNT
  ⟨0xa40020, [], .stat, [fd 31 0 .rc 0]⟩,
  -- PWR_VCORE
  ⟨0xa40024, [], .stat, [fd 16 16 .ro 0, fd 15 0 .ro 0x320]⟩,
  -- PWR_TJ
  ⟨0xa40028, [], .stat, [fd 31 16 .rc 0, fd 15 0 .ro 0]⟩,
  -- PWR_P_LIM
  ⟨0xa40100, [(0x20, 16)], .cfg, [fd 31 16 .rw 0x3e8 (.iv 10 4000), fd 15 0 .rw 0x1f4 (.iv 10 2000)]⟩,
  -- PWR_P_VWIN
  ⟨0xa40104, [(0x20, 16)], .cfg, [fd 31 16 .rw 0x3e80 (.iv 1000 25000), fd 15 0 .rw 0x2328 (.iv 1000 20000)]⟩,
  -- PWR_P_TIME
  ⟨0xa40108, [(0x20, 16)], .cfg, [fd 31 16 .rw 0x64 (.iv 10 5000), fd 15 8 .rw 5 (.iv 1 255),
    fd 7 0 .rw 0xa (.iv 1 255)]⟩,
  -- PWR_P_OPEN
  ⟨0xa4010c, [(0x20, 16)], .cfg, [fd 15 0 .rw 0 (.iv 0 500)]⟩,
  -- PWR_P_STAT
  ⟨0xa40110, [(0x20, 16)], .stat, [fd 17 17 .ro 0, fd 16 16 .ro 0, fd 15 8 .ro 0, fd 7 3 .ro 0, fd 2 0 .ro 0]⟩,
  -- PWR_P_MEAS
  ⟨0xa40114, [(0x20, 16)], .stat, [fd 31 16 .ro 0, fd 15 0 .ro 0]⟩,
  -- PWR_P_CTRL
  ⟨0xa40118, [(0x20, 16)], .op, [fd 0 0 .wo 0]⟩,
  -- PWR_P_EVT
  ⟨0xa4011c, [(0x20, 16)], .op, [fd 3 3 .w1c 0, fd 2 2 .w1c 0, fd 1 1 .w1c 0, fd 0 0 .w1c 0]⟩,
  -- PWM_EVT
  ⟨0xa80000, [], .op, [fd 5 4 .w1c 0, fd 3 2 .w1c 0, fd 1 0 .w1c 0]⟩,
  -- PWM_FIRST_ERR
  ⟨0xa80004, [], .op, [fd 31 31 .w1c 0, fd 12 8 .ro 0, fd 7 0 .ro 0]⟩,
  -- PWM_LAST_ERR
  ⟨0xa80008, [], .stat, [fd 31 31 .ro 0, fd 12 8 .ro 0, fd 7 0 .ro 0]⟩,
  -- PWM_ERR_COUNT
  ⟨0xa8000c, [], .stat, [fd 31 0 .rc 0]⟩,
  -- PWM_CH_CFG
  ⟨0xa80100, [(0x10, 8)], .cfg, [fd 21 8 .rw 0, fd 7 3 .rw 0, fd 2 2 .rw 1, fd 1 0 .rw 0]⟩,
  -- PWM_CH_PER
  ⟨0xa80104, [(0x10, 8)], .cfg, [fd 31 0 .rw 0xf4240]⟩,
  -- PWM_CH_LIM
  ⟨0xa80108, [(0x10, 8)], .cfg, [fd 15 0 .rw 0]⟩,
  -- PWM_CH_DUTY
  ⟨0xa8010c, [(0x10, 8)], .op, [fd 15 0 .rw 0]⟩,
  -- FOLD_CFG
  ⟨0xa80200, [(0x20, 2)], .cfg, [fd 31 16 .rw 0x1388 (.iv 100 20000), fd 15 8 .rw 0x32 (.iv 1 255),
    fd 7 0 .rw 0xc0 (.iv 1 255)]⟩,
  -- FOLD_LIM
  ⟨0xa80204, [(0x20, 2)], .cfg, [fd 31 16 .rw 0xbb8 (.iv 100 10000), fd 15 0 .rw 0x5dc (.iv 50 10000)]⟩,
  -- FOLD_VMAX
  ⟨0xa80208, [(0x20, 2)], .cfg, [fd 16 16 .rw 0, fd 15 0 .rw 0x32 (.iv 0 3000)]⟩,
  -- FOLD_CMD
  ⟨0xa8020c, [(0x20, 2)], .op, [fd 1 0 .wo 0]⟩,
  -- FOLD_STAT
  ⟨0xa80210, [(0x20, 2)], .stat, [fd 31 16 .ro 0, fd 2 0 .ro 0]⟩]

/-- Registers at 0xb00000–0xb16fff. -/
def regsTwb : List RegD := [
  -- TWB_CAP
  ⟨0xb00000, [(0x1000, 23)], .stat, [fd 2 1 .ro 0, fd 0 0 .ro 0]⟩,
  -- TWB_CFG
  ⟨0xb00004, [(0x1000, 21)], .cfg, [fd 31 24 .rw 0x19 (.iv 1 100), fd 23 20 .rw 3, fd 19 16 .rw 5,
    fd 1 0 .rw 1 (.iv 0 2)]⟩,
  -- TWB_STAT
  ⟨0xb00010, [(0x1000, 23)], .stat, [fd 31 24 .ro 0, fd 23 21 .ro 0, fd 4 4 .ro 0, fd 3 0 .ro 0]⟩,
  -- TWB_CNT
  ⟨0xb00014, [(0x1000, 23)], .stat, [fd 31 24 .rc 0, fd 23 16 .rc 0, fd 15 8 .rc 0, fd 7 0 .rc 0]⟩,
  -- TWB_CNT2
  ⟨0xb00018, [(0x1000, 23)], .stat, [fd 31 16 .rc 0, fd 15 8 .rc 0, fd 7 0 .rc 0]⟩,
  -- TWB_EVT
  ⟨0xb00020, [(0x1000, 23)], .op, [fd 6 6 .w1c 0, fd 5 5 .w1c 0, fd 4 4 .w1c 0, fd 3 3 .w1c 0, fd 2 2 .w1c 0,
    fd 1 1 .w1c 0, fd 0 0 .w1c 0]⟩,
  -- TWB_FIRST_ERR
  ⟨0xb00024, [(0x1000, 23)], .op, [fd 31 31 .w1c 0, fd 14 8 .ro 0, fd 7 0 .ro 0]⟩,
  -- TWB_LAST_ERR
  ⟨0xb00028, [(0x1000, 23)], .stat, [fd 31 31 .ro 0, fd 14 8 .ro 0, fd 7 0 .ro 0]⟩,
  -- TWB_ERR_COUNT
  ⟨0xb0002c, [(0x1000, 23)], .stat, [fd 31 0 .rc 0]⟩,
  -- TWB_T_CFG
  ⟨0xb15004, [(0x1000, 2)], .cfg, [fd 19 16 .rw 5, fd 1 1 .rw 1, fd 0 0 .rw 0]⟩,
  -- TWB_T_ADDR
  ⟨0xb15008, [(0x1000, 2)], .cfg, [fd 22 16 .rw 0, fd 15 15 .rw 0, fd 14 8 .rw 0 (.iv 8 119),
    fd 6 0 .rw 0 (.iv 8 119)]⟩,
  -- TWB_T_ALERT_SEL
  ⟨0xb1500c, [(0x1000, 2)], .cfg, [fd 26 16 .rw 0 (.iv 0 1024), fd 10 0 .rw 0 (.iv 0 1024)]⟩]

/-- Registers at 0xc00000–0xcfffff. -/
def regsBrg : List RegD := [
  -- BRG_CFG
  ⟨0xc00000, [], .cfg, [fd 31 31 .rw 0, fd 27 24 .rw 5 (.iv 1 10), fd 23 14 .rw 0x40 (.iv 1 1023),
    fd 13 0 .rw 0x3e8 (.iv 100 10000)]⟩,
  -- BRG_PF_CFG
  ⟨0xc00004, [], .cfg, [fd 9 0 .rw 0x64 (.iv 10 1000)]⟩,
  -- BRG_EVT
  ⟨0xc00008, [], .op, [fd 3 3 .w1c 0, fd 2 2 .w1c 0, fd 1 1 .w1c 0, fd 0 0 .w1c 0]⟩,
  -- BRG_PF_DISCARD_ADDR
  ⟨0xc0000c, [], .stat, [fd 31 0 .ro 0]⟩,
  -- BRG_PF_CNT
  ⟨0xc00010, [], .stat, [fd 31 16 .rc 0, fd 15 0 .rc 0]⟩,
  -- BRG_CNT
  ⟨0xc00014, [], .stat, [fd 31 16 .rc 0, fd 15 0 .rc 0]⟩,
  -- BRG_RETRY_CNT
  ⟨0xc00018, [], .stat, [fd 31 16 .rc 0, fd 15 0 .rc 0]⟩,
  -- BRG_LAST_TAG
  ⟨0xc00020, [(0x4, 4)], .stat, [fd 15 0 .ro 0]⟩,
  -- BRG_FIRST_ERR
  ⟨0xc00030, [], .op, [fd 31 31 .w1c 0, fd 30 28 .ro 0, fd 23 8 .ro 0, fd 7 0 .ro 0]⟩,
  -- BRG_LAST_ERR
  ⟨0xc00034, [], .stat, [fd 31 31 .ro 0, fd 30 28 .ro 0, fd 23 8 .ro 0, fd 7 0 .ro 0]⟩,
  -- BRG_ERR_COUNT
  ⟨0xc00038, [], .stat, [fd 31 0 .rc 0]⟩,
  -- BRG_SEM_CTRL
  ⟨0xc00100, [(0x8, 52)], .op, [fd 1 1 .wo 0, fd 0 0 .wo 0]⟩,
  -- BRG_SEM_STAT
  ⟨0xc00104, [(0x8, 52)], .stat, [fd 31 30 .ro 0, fd 29 16 .ro 0, fd 8 8 .ro 0, fd 7 3 .ro 0, fd 2 0 .ro 0]⟩,
  -- BRG_SLOT
  ⟨0xc00400, [(0x40, 20), (0x4, 16)], .cfg, [fd 8 8 .rw 1, fd 7 7 .rw 0, fd 6 0 .rw 8 (.iv 8 119)]⟩,
  -- BRG_WIN_W0
  ⟨0xc01000, [(0x10, 64)], .cfg, [fd 15 8 .rw 0 (.iv 0 31), fd 2 2 .rw 0, fd 1 1 .rw 0, fd 0 0 .rw 0]⟩,
  -- BRG_WIN_RIGHTS
  ⟨0xc01004, [(0x10, 64)], .cfg, [fd 31 0 .rw 0]⟩,
  -- BRG_WIN_START
  ⟨0xc01008, [(0x10, 64)], .cfg, [fd 31 0 .rw 0]⟩,
  -- BRG_WIN_LEN
  ⟨0xc0100c, [(0x10, 64)], .cfg, [fd 31 0 .rw 0]⟩]

/-- Registers at 0xd00000–0xdfffff. -/
def regsRsv : List RegD := [
  -- RSV_CFG
  ⟨0xd00000, [], .cfg, [fd 16 16 .rw 1, fd 15 8 .rw 8 (.iv 2 255)]⟩,
  -- RSV_SLICE_MAP
  ⟨0xd00004, [], .cfg, [fd 14 0 .rw 0x4688]⟩,
  -- RSV_PLL_MAP
  ⟨0xd00008, [], .cfg, [fd 31 0 .rw 0]⟩,
  -- RSV_LEFT
  ⟨0xd0000c, [], .stat, [fd 31 16 .ro 0, fd 15 12 .ro 0, fd 11 8 .ro 0, fd 7 4 .ro 0, fd 3 2 .ro 0, fd 1 0 .ro 0]⟩,
  -- RSV_AGE
  ⟨0xd00010, [], .stat, [fd 21 16 .ro 0, fd 15 0 .ro 0]⟩,
  -- RSV_TEST
  ⟨0xd00014, [], .stat, [fd 31 31 .ro 0, fd 30 16 .rc 0, fd 15 0 .rc 0]⟩,
  -- RSV_EVT
  ⟨0xd00020, [], .op, [fd 3 3 .w1c 0, fd 2 2 .w1c 0, fd 1 1 .w1c 0, fd 0 0 .w1c 0]⟩,
  -- RSV_FIRST_ERR
  ⟨0xd00024, [], .op, [fd 31 31 .w1c 0, fd 12 8 .ro 0, fd 7 0 .ro 0]⟩,
  -- RSV_LAST_ERR
  ⟨0xd00028, [], .stat, [fd 31 31 .ro 0, fd 12 8 .ro 0, fd 7 0 .ro 0]⟩,
  -- RSV_ERR_COUNT
  ⟨0xd0002c, [], .stat, [fd 31 0 .rc 0]⟩,
  -- JNL_CFG
  ⟨0xd10000, [], .cfg, [fd 27 20 .rw 0x19 (.iv 5 104), fd 16 16 .rw 0, fd 15 0 .rw 0x7d0 (.iv 100 10000)]⟩,
  -- JNL_STAT
  ⟨0xd10004, [], .stat, [fd 31 31 .ro 0, fd 6 0 .ro 0]⟩,
  -- JNL_SEQ
  ⟨0xd10008, [], .stat, [fd 31 0 .ro 0]⟩,
  -- JNL_PTR
  ⟨0xd1000c, [], .stat, [fd 31 0 .ro 0]⟩,
  -- JNL_DROP
  ⟨0xd10010, [], .stat, [fd 31 0 .rc 0]⟩,
  -- JNL_EVT
  ⟨0xd10014, [], .op, [fd 1 1 .w1c 0, fd 0 0 .w1c 0]⟩,
  -- JNL_FIRST_ERR
  ⟨0xd10018, [], .op, [fd 31 31 .w1c 0, fd 7 0 .ro 0]⟩,
  -- JNL_LAST_ERR
  ⟨0xd1001c, [], .stat, [fd 31 31 .ro 0, fd 7 0 .ro 0]⟩,
  -- JNL_ERR_COUNT
  ⟨0xd10020, [], .stat, [fd 31 0 .rc 0]⟩,
  -- MNT_STAT
  ⟨0xd20000, [], .stat, [fd 31 22 .ro 0, fd 21 20 .ro 0, fd 19 19 .ro 0, fd 18 18 .ro 0, fd 17 17 .ro 0,
    fd 16 16 .ro 0, fd 15 12 .ro 0, fd 7 0 .ro 0]⟩,
  -- MNT_NONCE
  ⟨0xd20010, [(0x4, 4)], .stat, [fd 31 0 .ro 0]⟩,
  -- MNT_CTRL
  ⟨0xd20020, [], .op, [fd 1 1 .wo 0, fd 0 0 .wo 0]⟩,
  -- MNT_FLASH_CMD
  ⟨0xd20024, [], .op, [fd 31 29 .wo 0, fd 28 28 .wo 0, fd 27 0 .wo 0]⟩,
  -- MNT_FLASH_STAT
  ⟨0xd20028, [], .stat, [fd 31 31 .ro 0, fd 15 8 .ro 0, fd 7 0 .ro 0]⟩,
  -- MNT_SAFE
  ⟨0xd20030, [], .stat, [fd 31 31 .ro 0, fd 15 8 .ro 0, fd 7 0 .ro 0]⟩,
  -- MNT_PARK
  ⟨0xd20034, [], .op, [fd 1 1 .rw 0, fd 0 0 .rw 0]⟩,
  -- MNT_EVT
  ⟨0xd20040, [], .op, [fd 3 3 .w1c 0, fd 2 2 .w1c 0, fd 1 1 .w1c 0, fd 0 0 .w1c 0]⟩,
  -- MNT_FIRST_ERR
  ⟨0xd20044, [], .op, [fd 31 31 .w1c 0, fd 12 8 .ro 0, fd 7 0 .ro 0]⟩,
  -- MNT_LAST_ERR
  ⟨0xd20048, [], .stat, [fd 31 31 .ro 0, fd 12 8 .ro 0, fd 7 0 .ro 0]⟩,
  -- MNT_ERR_COUNT
  ⟨0xd2004c, [], .stat, [fd 31 0 .rc 0]⟩,
  -- MNT_REQ
  ⟨0xd20100, [(0x4, 40)], .op, [fd 31 0 .wo 0]⟩,
  -- MNT_BUF
  ⟨0xd21000, [(0x4, 1024)], .op, [fd 31 0 .rw 0]⟩,
  -- SVC_STAT
  ⟨0xd30000, [], .stat, [fd 31 16 .ro 0, fd 10 8 .ro 0, fd 6 4 .ro 0, fd 2 0 .ro 0]⟩,
  -- SVC_EVT
  ⟨0xd30004, [], .op, [fd 1 1 .w1c 0, fd 0 0 .w1c 0]⟩,
  -- SVC_FIRST_ERR
  ⟨0xd30008, [], .op, [fd 31 31 .w1c 0, fd 12 8 .ro 0, fd 7 0 .ro 0]⟩,
  -- SVC_LAST_ERR
  ⟨0xd3000c, [], .stat, [fd 31 31 .ro 0, fd 12 8 .ro 0, fd 7 0 .ro 0]⟩,
  -- SVC_ERR_COUNT
  ⟨0xd30010, [], .stat, [fd 31 0 .rc 0]⟩]

end Sys2Proof.Machine
end

