-- ==== Sys2Proof/Machine/Regs.lean ====
section
/-! DEFINITION. The names of the registers' fields, UNIT_NAME_FIELD as the manual writes UNIT_NAME.FIELD: where each
field stands (device address, high bit, low bit). A register of an instance or an array takes its index. -/

namespace Sys2Proof.Machine

abbrev GLB_ISL_RUN_LO_RUN : RF := ⟨0x28, 31, 0⟩
abbrev GLB_ISL_RUN_HI_RUN : RF := ⟨0x2c, 7, 0⟩
abbrev GLB_XING_TO_COUNT : RF := ⟨0x38, 31, 16⟩
abbrev GLB_XING_TO_DST : RF := ⟨0x38, 13, 8⟩
abbrev GLB_XING_TO_SRC : RF := ⟨0x38, 5, 0⟩
abbrev GLB_CFG_DENY_CNT_COUNT : RF := ⟨0x40, 31, 0⟩
abbrev GLB_CFG_DENY_ADDR_ADDR : RF := ⟨0x44, 31, 0⟩
abbrev GLB_MAP_MISS_CNT_COUNT : RF := ⟨0x48, 31, 0⟩
abbrev GLB_MAP_MISS_ADDR_ADDR : RF := ⟨0x4c, 31, 0⟩
abbrev LDR_STAT_LOAD_SEQ : RF := ⟨0x10000, 31, 24⟩
abbrev LDR_STAT_NOMATCH : RF := ⟨0x10000, 20, 20⟩
abbrev LDR_STAT_OWNER : RF := ⟨0x10000, 19, 17⟩
abbrev LDR_STAT_SWAP_BUSY : RF := ⟨0x10000, 16, 16⟩
abbrev LDR_STAT_PROFILE : RF := ⟨0x10000, 15, 13⟩
abbrev LDR_STAT_IMAGE : RF := ⟨0x10000, 11, 10⟩
abbrev LDR_STAT_STATE : RF := ⟨0x10000, 3, 0⟩
abbrev LDR_STAT_ALL : RF := ⟨0x10000, 31, 0⟩
abbrev LDR_EPOCH_OLD : RF := ⟨0x10004, 31, 16⟩
abbrev LDR_EPOCH_ACTIVE : RF := ⟨0x10004, 15, 0⟩
abbrev LDR_REJECT_CAUSE_B : RF := ⟨0x10008, 15, 8⟩
abbrev LDR_REJECT_CAUSE_A : RF := ⟨0x10008, 7, 0⟩
abbrev LDR_REJECT_ALL : RF := ⟨0x10008, 31, 0⟩
abbrev LDR_ROLLBACK_IMAGE : RF := ⟨0x1000c, 31, 16⟩
abbrev LDR_ROLLBACK_FUSE : RF := ⟨0x1000c, 6, 0⟩
abbrev LDR_SERIAL_SERIAL : RF := ⟨0x10010, 31, 0⟩
abbrev LDR_SERIAL_ALL : RF := ⟨0x10010, 31, 0⟩
abbrev LDR_LOAD_CNT_DROPS : RF := ⟨0x10014, 31, 16⟩
abbrev LDR_LOAD_CNT_CLAMPS : RF := ⟨0x10014, 15, 0⟩
abbrev LDR_LOAD_CNT_ALL : RF := ⟨0x10014, 31, 0⟩
abbrev LDR_DISABLED_COUNT : RF := ⟨0x10018, 14, 0⟩
abbrev LDR_PROF_STAT_SPEED : RF := ⟨0x1001c, 31, 16⟩
abbrev LDR_PROF_STAT_CAND_VALID : RF := ⟨0x1001c, 11, 11⟩
abbrev LDR_PROF_STAT_CANDIDATE : RF := ⟨0x1001c, 10, 8⟩
abbrev LDR_PROF_STAT_MODE : RF := ⟨0x1001c, 2, 0⟩
abbrev LDR_SWAP_REQ_GO : RF := ⟨0x10020, 0, 0⟩
abbrev LDR_DISCARD_GO : RF := ⟨0x10024, 0, 0⟩
abbrev LDR_SWAP_LAST_US : RF := ⟨0x1002c, 31, 0⟩
abbrev LDR_SWAP_PEND_CTX : RF := ⟨0x10030, 14, 0⟩
abbrev LDR_SWAP_FORCED_COUNT : RF := ⟨0x10034, 31, 0⟩
abbrev LDR_LIVE_CLAMP_CNT_COUNT : RF := ⟨0x10038, 31, 0⟩
abbrev LDR_VIEW_ACTIVE : RF := ⟨0x1003c, 3, 0⟩
abbrev LDR_EVT_SWAP_REFUSED : RF := ⟨0x10040, 8, 8⟩
abbrev LDR_EVT_PROFILE_CHANGED : RF := ⟨0x10040, 7, 7⟩
abbrev LDR_EVT_SWAP_FORCED : RF := ⟨0x10040, 6, 6⟩
abbrev LDR_EVT_SWAP_DONE : RF := ⟨0x10040, 5, 5⟩
abbrev LDR_EVT_IMAGE_ROM : RF := ⟨0x10040, 4, 4⟩
abbrev LDR_EVT_IMAGE_B : RF := ⟨0x10040, 3, 3⟩
abbrev LDR_EVT_DROPPED : RF := ⟨0x10040, 2, 2⟩
abbrev LDR_EVT_CLAMPED : RF := ⟨0x10040, 1, 1⟩
abbrev LDR_EVT_LOADED : RF := ⟨0x10040, 0, 0⟩
abbrev EVC_SRC_CFG_PACER (s : Nat) : RF := ⟨0x20000 + 0x4 * s, 12, 8⟩
abbrev EVC_SRC_CFG_PRIO (s : Nat) : RF := ⟨0x20000 + 0x4 * s, 7, 0⟩
abbrev EVC_SRC_LEVEL_LEVEL (w : Nat) : RF := ⟨0x24000 + 0x4 * w, 31, 0⟩
abbrev EVC_PACER_HOLDOFF_US (g : Nat) : RF := ⟨0x25000 + 0x4 * g, 15, 0⟩
abbrev EVC_PACER_RUN_RUN (t : Nat) : RF := ⟨0x25100 + 0x4 * t, 31, 0⟩
abbrev EVC_T_CLAIM_ALL (t : Nat) : RF := ⟨0x30000 + 0x1000 * t, 31, 0⟩
abbrev EVC_T_COMPLETE_ALL (t : Nat) : RF := ⟨0x30004 + 0x1000 * t, 31, 0⟩
abbrev EVC_T_CTRL_GDIS (t : Nat) : RF := ⟨0x30008 + 0x1000 * t, 0, 0⟩
abbrev EVC_T_CTRL_ALL (t : Nat) : RF := ⟨0x30008 + 0x1000 * t, 31, 0⟩
abbrev EVC_T_SPLIT_SPLIT (t : Nat) : RF := ⟨0x3000c + 0x1000 * t, 2, 0⟩
abbrev EVC_T_SPLIT_ALL (t : Nat) : RF := ⟨0x3000c + 0x1000 * t, 31, 0⟩
abbrev EVC_T_STAT_NOTE_PRIO (t : Nat) : RF := ⟨0x30010 + 0x1000 * t, 31, 24⟩
abbrev EVC_T_STAT_RUN_PRIO (t : Nat) : RF := ⟨0x30010 + 0x1000 * t, 23, 16⟩
abbrev EVC_T_STAT_NOTIFY (t : Nat) : RF := ⟨0x30010 + 0x1000 * t, 15, 15⟩
abbrev EVC_T_STAT_ACTIVE (t : Nat) : RF := ⟨0x30010 + 0x1000 * t, 10, 0⟩
abbrev EVC_T_CNT_NOTIFY (t : Nat) : RF := ⟨0x30014 + 0x1000 * t, 31, 16⟩
abbrev EVC_T_CNT_EMPTY (t : Nat) : RF := ⟨0x30014 + 0x1000 * t, 15, 0⟩
abbrev EVC_T_VEC_VEC (t g : Nat) : RF := ⟨0x30100 + 0x1000 * t + 0x4 * g, 5, 0⟩
abbrev EVC_T_EN_EN (t w : Nat) : RF := ⟨0x30200 + 0x1000 * t + 0x4 * w, 31, 0⟩
abbrev EVC_T_EN_ALL (t w : Nat) : RF := ⟨0x30200 + 0x1000 * t + 0x4 * w, 31, 0⟩
abbrev EVC_T_PEND_PEND (t w : Nat) : RF := ⟨0x30300 + 0x1000 * t + 0x4 * w, 31, 0⟩
abbrev EVC_T_ACTIVE_ACTIVE (t w : Nat) : RF := ⟨0x30400 + 0x1000 * t + 0x4 * w, 31, 0⟩
abbrev EVC_T_ACTIVE_ALL (t w : Nat) : RF := ⟨0x30400 + 0x1000 * t + 0x4 * w, 31, 0⟩
abbrev QMX_Q_CFG_READERS (q : Nat) : RF := ⟨0x40000 + 0x20 * q, 19, 16⟩
abbrev QMX_Q_CFG_PRIO (q : Nat) : RF := ⟨0x40000 + 0x20 * q, 15, 13⟩
abbrev QMX_Q_CFG_GROUP (q : Nat) : RF := ⟨0x40000 + 0x20 * q, 12, 8⟩
abbrev QMX_Q_CFG_DEPTH_LOG2 (q : Nat) : RF := ⟨0x40000 + 0x20 * q, 7, 3⟩
abbrev QMX_Q_CFG_MODE (q : Nat) : RF := ⟨0x40000 + 0x20 * q, 1, 1⟩
abbrev QMX_Q_CFG_ENABLE (q : Nat) : RF := ⟨0x40000 + 0x20 * q, 0, 0⟩
abbrev QMX_Q_CFG_ALL (q : Nat) : RF := ⟨0x40000 + 0x20 * q, 31, 0⟩
abbrev QMX_Q_COPY_COPY_Q (q : Nat) : RF := ⟨0x40004 + 0x20 * q, 12, 0⟩
abbrev QMX_Q_COPY_ALL (q : Nat) : RF := ⟨0x40004 + 0x20 * q, 31, 0⟩
abbrev QMX_Q_PKTS_PKTS (q : Nat) : RF := ⟨0x40008 + 0x20 * q, 20, 0⟩
abbrev QMX_Q_WORDS_WORDS (q : Nat) : RF := ⟨0x4000c + 0x20 * q, 20, 0⟩
abbrev QMX_Q_LOST_LOST (q : Nat) : RF := ⟨0x40010 + 0x20 * q, 31, 16⟩
abbrev QMX_Q_LOST_OVERSIZE (q : Nat) : RF := ⟨0x40010 + 0x20 * q, 15, 8⟩
abbrev QMX_Q_LOST_PTR_RESET (q : Nat) : RF := ⟨0x40010 + 0x20 * q, 7, 0⟩
abbrev QMX_Q_SEQ_SEQ (q : Nat) : RF := ⟨0x40014 + 0x20 * q, 31, 0⟩
abbrev QMX_RP_SEL_GROUP_MODE (r : Nat) : RF := ⟨0x80000 + 0x1000 * r, 31, 31⟩
abbrev QMX_RP_SEL_TARGET (r : Nat) : RF := ⟨0x80000 + 0x1000 * r, 12, 0⟩
abbrev QMX_RP_HEAD_ALL (r : Nat) : RF := ⟨0x80004 + 0x1000 * r, 31, 0⟩
abbrev QMX_RP_STAT_LEFT (r : Nat) : RF := ⟨0x80008 + 0x1000 * r, 31, 20⟩
abbrev QMX_RP_STAT_OVERRUN (r : Nat) : RF := ⟨0x80008 + 0x1000 * r, 19, 19⟩
abbrev QMX_RP_STAT_TIMEOUT (r : Nat) : RF := ⟨0x80008 + 0x1000 * r, 18, 18⟩
abbrev QMX_RP_STAT_BROKEN (r : Nat) : RF := ⟨0x80008 + 0x1000 * r, 17, 17⟩
abbrev QMX_RP_STAT_CLAIMED (r : Nat) : RF := ⟨0x80008 + 0x1000 * r, 16, 16⟩
abbrev QMX_RP_STAT_QUEUE (r : Nat) : RF := ⟨0x80008 + 0x1000 * r, 12, 0⟩
abbrev QMX_RP_RELEASE_ALL (r : Nat) : RF := ⟨0x8000c + 0x1000 * r, 31, 0⟩
abbrev QMX_RP_DATA_ALL (r w : Nat) : RF := ⟨0x80800 + 0x1000 * r + 0x4 * w, 31, 0⟩
abbrev QMX_EVT_CLAIM_BROKEN : RF := ⟨0xa0000, 5, 5⟩
abbrev QMX_EVT_CLAIM_TMO : RF := ⟨0xa0000, 4, 4⟩
abbrev QMX_EVT_SPILL_ECC : RF := ⟨0xa0000, 3, 3⟩
abbrev QMX_EVT_PTR_RESET : RF := ⟨0xa0000, 2, 2⟩
abbrev QMX_EVT_OVERSIZE : RF := ⟨0xa0000, 1, 1⟩
abbrev QMX_EVT_LOST : RF := ⟨0xa0000, 0, 0⟩
abbrev QMX_SPILL_KIB : RF := ⟨0xa0014, 31, 0⟩
abbrev DMX_CH_DEF_LIST_MAX (c : Nat) : RF := ⟨0xc0000 + 0x200 * c, 31, 16⟩
abbrev DMX_CH_DEF_PITCH_SHIFT (c : Nat) : RF := ⟨0xc0000 + 0x200 * c, 15, 12⟩
abbrev DMX_CH_DEF_TC (c : Nat) : RF := ⟨0xc0000 + 0x200 * c, 10, 8⟩
abbrev DMX_CH_DEF_NS (c : Nat) : RF := ⟨0xc0000 + 0x200 * c, 2, 2⟩
abbrev DMX_CH_DEF_RO_DATA (c : Nat) : RF := ⟨0xc0000 + 0x200 * c, 1, 1⟩
abbrev DMX_CH_NXT_RING_LO_ADDR (c : Nat) : RF := ⟨0xc0010 + 0x200 * c, 31, 4⟩
abbrev DMX_CH_NXT_RING_HI_ADDR (c : Nat) : RF := ⟨0xc0014 + 0x200 * c, 31, 0⟩
abbrev DMX_CH_NXT_CPL_LO_ADDR (c : Nat) : RF := ⟨0xc0018 + 0x200 * c, 31, 5⟩
abbrev DMX_CH_NXT_CPL_HI_ADDR (c : Nat) : RF := ⟨0xc001c + 0x200 * c, 31, 0⟩
abbrev DMX_CH_NXT_SIZE_CPL_LOG2 (c : Nat) : RF := ⟨0xc0020 + 0x200 * c, 27, 24⟩
abbrev DMX_CH_NXT_SIZE_RING_LOG2 (c : Nat) : RF := ⟨0xc0020 + 0x200 * c, 19, 16⟩
abbrev DMX_CH_NXT_SIZE_PI (c : Nat) : RF := ⟨0xc0020 + 0x200 * c, 15, 0⟩
abbrev DMX_CH_NEXT_ARM_ARM (c : Nat) : RF := ⟨0xc0024 + 0x200 * c, 31, 31⟩
abbrev DMX_CH_NEXT_ARM_SEQ (c : Nat) : RF := ⟨0xc0024 + 0x200 * c, 7, 0⟩
abbrev DMX_CH_NEXT_ARM_ALL (c : Nat) : RF := ⟨0xc0024 + 0x200 * c, 31, 0⟩
abbrev DMX_CH_PI_PI (c : Nat) : RF := ⟨0xc0030 + 0x200 * c, 15, 0⟩
abbrev DMX_CH_CPL_CI_CI (c : Nat) : RF := ⟨0xc0034 + 0x200 * c, 15, 0⟩
abbrev DMX_CH_STAT_TAKEN_SEQ (c : Nat) : RF := ⟨0xc0044 + 0x200 * c, 23, 16⟩
abbrev DMX_CH_STAT_ARMED (c : Nat) : RF := ⟨0xc0044 + 0x200 * c, 15, 15⟩
abbrev DMX_CH_STAT_IN_FRAME (c : Nat) : RF := ⟨0xc0044 + 0x200 * c, 14, 14⟩
abbrev DMX_CH_STAT_HALT_CAUSE (c : Nat) : RF := ⟨0xc0044 + 0x200 * c, 7, 4⟩
abbrev DMX_CH_STAT_STATE (c : Nat) : RF := ⟨0xc0044 + 0x200 * c, 3, 0⟩
abbrev DMX_CH_IDX_CPL_PI (c : Nat) : RF := ⟨0xc0048 + 0x200 * c, 31, 16⟩
abbrev DMX_CH_IDX_CI (c : Nat) : RF := ⟨0xc0048 + 0x200 * c, 15, 0⟩
abbrev DMX_CH_IDX_ALL (c : Nat) : RF := ⟨0xc0048 + 0x200 * c, 31, 0⟩
abbrev DMX_CH_ERR_LO_ADDR (c : Nat) : RF := ⟨0xc004c + 0x200 * c, 31, 0⟩
abbrev DMX_CH_ERR_HI_ADDR (c : Nat) : RF := ⟨0xc0050 + 0x200 * c, 31, 0⟩
abbrev DMX_CH_ERR_INFO_ENTRIES (c : Nat) : RF := ⟨0xc0054 + 0x200 * c, 31, 16⟩
abbrev DMX_CH_ERR_INFO_DIR (c : Nat) : RF := ⟨0xc0054 + 0x200 * c, 9, 8⟩
abbrev DMX_CH_FRAMES_COUNT (c : Nat) : RF := ⟨0xc0058 + 0x200 * c, 31, 0⟩
abbrev DMX_CH_CNT_NO_BUF (c : Nat) : RF := ⟨0xc005c + 0x200 * c, 31, 16⟩
abbrev DMX_CH_CNT_CPL_LOST (c : Nat) : RF := ⟨0xc005c + 0x200 * c, 15, 0⟩
abbrev DMX_CH_EVT_SET_TAKEN (c : Nat) : RF := ⟨0xc0060 + 0x200 * c, 7, 7⟩
abbrev DMX_CH_EVT_PI_REJ (c : Nat) : RF := ⟨0xc0060 + 0x200 * c, 6, 6⟩
abbrev DMX_CH_EVT_ARM_REJ (c : Nat) : RF := ⟨0xc0060 + 0x200 * c, 5, 5⟩
abbrev DMX_CH_EVT_CPL_LOST (c : Nat) : RF := ⟨0xc0060 + 0x200 * c, 4, 4⟩
abbrev DMX_CH_EVT_ABORTED (c : Nat) : RF := ⟨0xc0060 + 0x200 * c, 3, 3⟩
abbrev DMX_CH_EVT_HALT (c : Nat) : RF := ⟨0xc0060 + 0x200 * c, 2, 2⟩
abbrev DMX_CH_EVT_NO_BUF (c : Nat) : RF := ⟨0xc0060 + 0x200 * c, 1, 1⟩
abbrev DMX_CH_EVT_DONE (c : Nat) : RF := ⟨0xc0060 + 0x200 * c, 0, 0⟩
abbrev DMX_P_REPLAY_STAT_BUSY (p : Nat) : RF := ⟨0xe0004 + 0x1000 * p, 31, 31⟩
abbrev DMX_P_REPLAY_STAT_RESULT (p : Nat) : RF := ⟨0xe0004 + 0x1000 * p, 7, 0⟩
abbrev CPT_CAP_ALL (p : Nat) : RF := ⟨0x100000 + 0x10000 * p, 31, 0⟩
abbrev CPT_CFG_RATE (p : Nat) : RF := ⟨0x100004 + 0x10000 * p, 31, 16⟩
abbrev CPT_CFG_RTX (p : Nat) : RF := ⟨0x100004 + 0x10000 * p, 8, 8⟩
abbrev CPT_CFG_LANES (p : Nat) : RF := ⟨0x100004 + 0x10000 * p, 7, 5⟩
abbrev CPT_CFG_PHY (p : Nat) : RF := ⟨0x100004 + 0x10000 * p, 4, 4⟩
abbrev CPT_CFG_GEAR (p : Nat) : RF := ⟨0x100004 + 0x10000 * p, 3, 1⟩
abbrev CPT_CFG_ENABLE (p : Nat) : RF := ⟨0x100004 + 0x10000 * p, 0, 0⟩
abbrev CPT_CFG_ALL (p : Nat) : RF := ⟨0x100004 + 0x10000 * p, 31, 0⟩
abbrev CPT_BRINGUP_RETRY (p : Nat) : RF := ⟨0x10000c + 0x10000 * p, 3, 0⟩
abbrev CPT_TRIG_WIN_US (p : Nat) : RF := ⟨0x100010 + 0x10000 * p, 31, 16⟩
abbrev CPT_TRIG_POL (p : Nat) : RF := ⟨0x100010 + 0x10000 * p, 2, 2⟩
abbrev CPT_TRIG_LINE (p : Nat) : RF := ⟨0x100010 + 0x10000 * p, 1, 0⟩
abbrev CPT_TRIG_FIX_NS (p : Nat) : RF := ⟨0x100014 + 0x10000 * p, 15, 0⟩
abbrev CPT_FS_LAT_NS (p : Nat) : RF := ⟨0x100018 + 0x10000 * p, 23, 0⟩
abbrev CPT_STATE_ATTEMPT (p : Nat) : RF := ⟨0x100100 + 0x10000 * p, 19, 16⟩
abbrev CPT_STATE_LAST_CODE (p : Nat) : RF := ⟨0x100100 + 0x10000 * p, 15, 8⟩
abbrev CPT_STATE_GEAR_NOW (p : Nat) : RF := ⟨0x100100 + 0x10000 * p, 7, 5⟩
abbrev CPT_STATE_LOCK (p : Nat) : RF := ⟨0x100100 + 0x10000 * p, 4, 4⟩
abbrev CPT_STATE_STATE (p : Nat) : RF := ⟨0x100100 + 0x10000 * p, 3, 0⟩
abbrev CPT_TRIG_LAT_VALID (p : Nat) : RF := ⟨0x100104 + 0x10000 * p, 31, 31⟩
abbrev CPT_TRIG_LAT_NS (p : Nat) : RF := ⟨0x100104 + 0x10000 * p, 15, 0⟩
abbrev CPT_PHY_CNT_RTX_FAIL (p : Nat) : RF := ⟨0x100108 + 0x10000 * p, 31, 16⟩
abbrev CPT_PHY_CNT_RTX (p : Nat) : RF := ⟨0x100108 + 0x10000 * p, 15, 0⟩
abbrev CPT_PKT_ERR_CRC (p : Nat) : RF := ⟨0x10010c + 0x10000 * p, 31, 16⟩
abbrev CPT_PKT_ERR_HDR (p : Nat) : RF := ⟨0x10010c + 0x10000 * p, 15, 0⟩
abbrev CPT_DISC_CTX_OFF (p : Nat) : RF := ⟨0x100110 + 0x10000 * p, 31, 16⟩
abbrev CPT_DISC_UNMAPPED (p : Nat) : RF := ⟨0x100110 + 0x10000 * p, 15, 0⟩
abbrev CPT_DISC2_OVERFLOW (p : Nat) : RF := ⟨0x100114 + 0x10000 * p, 31, 16⟩
abbrev CPT_DISC2_ORPHAN (p : Nat) : RF := ⟨0x100114 + 0x10000 * p, 15, 0⟩
abbrev CPT_UNMAPPED_LAST_VC (p : Nat) : RF := ⟨0x100118 + 0x10000 * p, 10, 6⟩
abbrev CPT_UNMAPPED_LAST_DT (p : Nat) : RF := ⟨0x100118 + 0x10000 * p, 5, 0⟩
abbrev CPT_FRAME_CNT_LONG (p : Nat) : RF := ⟨0x10011c + 0x10000 * p, 31, 16⟩
abbrev CPT_FRAME_CNT_SHORT (p : Nat) : RF := ⟨0x10011c + 0x10000 * p, 15, 0⟩
abbrev CPT_LINE_CNT_LINE_LONG (p : Nat) : RF := ⟨0x100120 + 0x10000 * p, 31, 16⟩
abbrev CPT_LINE_CNT_LINE_SHORT (p : Nat) : RF := ⟨0x100120 + 0x10000 * p, 15, 0⟩
abbrev CPT_LINK_CNT_FRAME_TMO (p : Nat) : RF := ⟨0x100124 + 0x10000 * p, 31, 16⟩
abbrev CPT_LINK_CNT_LINK_LOST (p : Nat) : RF := ⟨0x100124 + 0x10000 * p, 15, 0⟩
abbrev CPT_TRIG_CNT_UNTRIGGERED (p : Nat) : RF := ⟨0x100128 + 0x10000 * p, 31, 24⟩
abbrev CPT_TRIG_CNT_MISS (p : Nat) : RF := ⟨0x100128 + 0x10000 * p, 23, 16⟩
abbrev CPT_TRIG_CNT_OVERRUN (p : Nat) : RF := ⟨0x100128 + 0x10000 * p, 15, 8⟩
abbrev CPT_TRIG_CNT_LATE (p : Nat) : RF := ⟨0x100128 + 0x10000 * p, 7, 0⟩
abbrev CPT_SEQ_CNT_CONCEALED (p : Nat) : RF := ⟨0x10012c + 0x10000 * p, 31, 16⟩
abbrev CPT_SEQ_CNT_FRAME_SKIP (p : Nat) : RF := ⟨0x10012c + 0x10000 * p, 15, 0⟩
abbrev CPT_EVT_FAULT (p : Nat) : RF := ⟨0x100140 + 0x10000 * p, 7, 7⟩
abbrev CPT_EVT_TRIG_ERR (p : Nat) : RF := ⟨0x100140 + 0x10000 * p, 6, 6⟩
abbrev CPT_EVT_PKT_ERR (p : Nat) : RF := ⟨0x100140 + 0x10000 * p, 5, 5⟩
abbrev CPT_EVT_FRAME_ERR (p : Nat) : RF := ⟨0x100140 + 0x10000 * p, 4, 4⟩
abbrev CPT_EVT_MISMATCH (p : Nat) : RF := ⟨0x100140 + 0x10000 * p, 3, 3⟩
abbrev CPT_EVT_BRINGUP_FAIL (p : Nat) : RF := ⟨0x100140 + 0x10000 * p, 2, 2⟩
abbrev CPT_EVT_LOCK (p : Nat) : RF := ⟨0x100140 + 0x10000 * p, 1, 1⟩
abbrev CPT_EVT_LINK_LOST (p : Nat) : RF := ⟨0x100140 + 0x10000 * p, 0, 0⟩
abbrev CPT_MAP_W0_CTX (p e : Nat) : RF := ⟨0x100400 + 0x10000 * p + 0x10 * e, 29, 16⟩
abbrev CPT_MAP_W0_EXP_IDX (p e : Nat) : RF := ⟨0x100400 + 0x10000 * p + 0x10 * e, 13, 12⟩
abbrev CPT_MAP_W0_DT (p e : Nat) : RF := ⟨0x100400 + 0x10000 * p + 0x10 * e, 11, 6⟩
abbrev CPT_MAP_W0_VC (p e : Nat) : RF := ⟨0x100400 + 0x10000 * p + 0x10 * e, 4, 1⟩
abbrev CPT_MAP_W0_VALID (p e : Nat) : RF := ⟨0x100400 + 0x10000 * p + 0x10 * e, 0, 0⟩
abbrev CPT_MAP_W1_LINES (p e : Nat) : RF := ⟨0x100404 + 0x10000 * p + 0x10 * e, 15, 0⟩
abbrev CPT_MAP_W2_PIXELS (p e : Nat) : RF := ⟨0x100408 + 0x10000 * p + 0x10 * e, 15, 0⟩
abbrev CPT_MAP_W3_CRC_POLICY (p e : Nat) : RF := ⟨0x10040c + 0x10000 * p + 0x10 * e, 2, 1⟩
abbrev CPT_MAP_W3_TRIGGERED (p e : Nat) : RF := ⟨0x10040c + 0x10000 * p + 0x10 * e, 0, 0⟩
abbrev CTX_ENABLE (c : Nat) : RF := ⟨0x300000 + 0x80 * c, 0, 0⟩
abbrev CTX_MODE (c : Nat) : RF := ⟨0x300000 + 0x80 * c, 1, 1⟩
abbrev CTX_TIER (c : Nat) : RF := ⟨0x300000 + 0x80 * c, 3, 2⟩
abbrev CTX_DCLASS (c : Nat) : RF := ⟨0x300000 + 0x80 * c, 5, 4⟩
abbrev CTX_OVERBOOK (c : Nat) : RF := ⟨0x300000 + 0x80 * c, 6, 6⟩
abbrev CTX_REMOTE (c : Nat) : RF := ⟨0x300000 + 0x80 * c, 7, 7⟩
abbrev CTX_SLICE (c : Nat) : RF := ⟨0x300000 + 0x80 * c, 10, 8⟩
abbrev CTX_EXPOSURES (c : Nat) : RF := ⟨0x300000 + 0x80 * c, 13, 12⟩
abbrev CTX_SYNC_GRP (c : Nat) : RF := ⟨0x300000 + 0x80 * c, 23, 16⟩
abbrev CTX_PORT (c : Nat) : RF := ⟨0x300000 + 0x80 * c, 28, 24⟩
abbrev CTX_WIDTH (c : Nat) : RF := ⟨0x300004 + 0x80 * c, 15, 0⟩
abbrev CTX_HEIGHT (c : Nat) : RF := ⟨0x300004 + 0x80 * c, 31, 16⟩
abbrev CTX_LINE_NS (c : Nat) : RF := ⟨0x300008 + 0x80 * c, 19, 0⟩
abbrev CTX_FRAME_US (c : Nat) : RF := ⟨0x30000c + 0x80 * c, 23, 0⟩
abbrev CTX_CROP_X (c : Nat) : RF := ⟨0x300010 + 0x80 * c, 15, 0⟩
abbrev CTX_CROP_Y (c : Nat) : RF := ⟨0x300010 + 0x80 * c, 31, 16⟩
abbrev CTX_CROP_W (c : Nat) : RF := ⟨0x300014 + 0x80 * c, 15, 0⟩
abbrev CTX_CROP_H (c : Nat) : RF := ⟨0x300014 + 0x80 * c, 31, 16⟩
abbrev CTX_OUT_W (c : Nat) : RF := ⟨0x300018 + 0x80 * c, 15, 0⟩
abbrev CTX_OUT_H (c : Nat) : RF := ⟨0x300018 + 0x80 * c, 31, 16⟩
abbrev CTX_OUT_FMT (c : Nat) : RF := ⟨0x30001c + 0x80 * c, 3, 0⟩
abbrev CTX_CFA (c : Nat) : RF := ⟨0x30001c + 0x80 * c, 7, 4⟩
abbrev CTX_FILL (c : Nat) : RF := ⟨0x30001c + 0x80 * c, 27, 8⟩
abbrev CTX_WIN_LINES (c : Nat) : RF := ⟨0x300020 + 0x80 * c, 3, 0⟩
abbrev CTX_SKEW_LINES (c : Nat) : RF := ⟨0x300020 + 0x80 * c, 14, 8⟩
abbrev CTX_HOLD_FRAMES (c : Nat) : RF := ⟨0x300020 + 0x80 * c, 19, 16⟩
abbrev CTX_PWL_SET (c : Nat) : RF := ⟨0x300024 + 0x80 * c, 7, 0⟩
abbrev CTX_DPC_SET (c : Nat) : RF := ⟨0x300024 + 0x80 * c, 15, 8⟩
abbrev CTX_LSC_SET (c : Nat) : RF := ⟨0x300024 + 0x80 * c, 23, 16⟩
abbrev CTX_HDR_SET (c : Nat) : RF := ⟨0x300024 + 0x80 * c, 31, 24⟩
abbrev CTX_TONE_SET (c : Nat) : RF := ⟨0x300028 + 0x80 * c, 7, 0⟩
abbrev CTX_CCM_SET (c : Nat) : RF := ⟨0x300028 + 0x80 * c, 15, 8⟩
abbrev CTX_SCALE_SET (c : Nat) : RF := ⟨0x300028 + 0x80 * c, 23, 16⟩
abbrev CTX_STAT_Q (c : Nat) : RF := ⟨0x30002c + 0x80 * c, 12, 0⟩
abbrev CTX_STAT_DIV (c : Nat) : RF := ⟨0x30002c + 0x80 * c, 15, 13⟩
abbrev CTX_STAT_GRID (c : Nat) : RF := ⟨0x30002c + 0x80 * c, 19, 16⟩
abbrev CTX_SEAL (c : Nat) : RF := ⟨0x300030 + 0x80 * c, 0, 0⟩
abbrev CTX_ALIVE_EN (c : Nat) : RF := ⟨0x300030 + 0x80 * c, 1, 1⟩
abbrev CTX_IN_CHECK (c : Nat) : RF := ⟨0x300030 + 0x80 * c, 2, 2⟩
abbrev CTX_SRC_FID (c : Nat) : RF := ⟨0x300034 + 0x80 * c, 4, 0⟩
abbrev CTX_SRC_STREAM (c : Nat) : RF := ⟨0x300034 + 0x80 * c, 15, 5⟩
abbrev CTX_LS_BASE (c : Nat) : RF := ⟨0x300040 + 0x80 * c, 18, 0⟩
abbrev CTX_HOLD_BASE (c : Nat) : RF := ⟨0x300044 + 0x80 * c, 21, 0⟩
abbrev CTX_ALIVE (c : Nat) : RF := ⟨0x300048 + 0x80 * c, 15, 0⟩
abbrev CTX_REFUSE_RUN (c : Nat) : RF := ⟨0x300048 + 0x80 * c, 23, 16⟩
abbrev CTX_PEND_DROPPED (c : Nat) : RF := ⟨0x300048 + 0x80 * c, 24, 24⟩
abbrev CTX_PEND_GAP (c : Nat) : RF := ⟨0x300048 + 0x80 * c, 25, 25⟩
abbrev CTX_PEND_BATON (c : Nat) : RF := ⟨0x300048 + 0x80 * c, 26, 26⟩
abbrev CTX_FROZEN (c : Nat) : RF := ⟨0x300048 + 0x80 * c, 27, 27⟩
abbrev CTX_EPOCH_CUR (c : Nat) : RF := ⟨0x30004c + 0x80 * c, 15, 0⟩
abbrev CTX_FSTATE (c : Nat) : RF := ⟨0x30004c + 0x80 * c, 18, 16⟩
abbrev CTX_LINES_IN (c : Nat) : RF := ⟨0x300050 + 0x80 * c, 15, 0⟩
abbrev CTX_LINES_OUT (c : Nat) : RF := ⟨0x300050 + 0x80 * c, 31, 16⟩
abbrev CTX_PAYLOAD_CRC (c : Nat) : RF := ⟨0x300054 + 0x80 * c, 31, 0⟩
abbrev CTX_LAST_FC (c : Nat) : RF := ⟨0x300058 + 0x80 * c, 31, 0⟩
abbrev CTX_FRAMES_DONE (c : Nat) : RF := ⟨0x30005c + 0x80 * c, 31, 0⟩
abbrev CTX_FRAMES_REFUSED (c : Nat) : RF := ⟨0x300060 + 0x80 * c, 31, 0⟩
abbrev CTX_WIN_OVF (c : Nat) : RF := ⟨0x300064 + 0x80 * c, 15, 0⟩
abbrev CTX_SKEW_BREAK (c : Nat) : RF := ⟨0x300064 + 0x80 * c, 31, 16⟩
abbrev CTX_WB_GAIN1 (c : Nat) : RF := ⟨0x300070 + 0x80 * c, 31, 16⟩
abbrev CTX_WB_GAIN0 (c : Nat) : RF := ⟨0x300070 + 0x80 * c, 15, 0⟩
abbrev CTX_WB_GAIN3 (c : Nat) : RF := ⟨0x300074 + 0x80 * c, 31, 16⟩
abbrev CTX_WB_GAIN2 (c : Nat) : RF := ⟨0x300074 + 0x80 * c, 15, 0⟩
abbrev CTX_HDR_RATIO1 (c : Nat) : RF := ⟨0x300078 + 0x80 * c, 31, 16⟩
abbrev CTX_DGAIN (c : Nat) : RF := ⟨0x300078 + 0x80 * c, 15, 0⟩
abbrev CTX_EXP_TIME (c : Nat) : RF := ⟨0x30007c + 0x80 * c, 31, 16⟩
abbrev CTX_HDR_RATIO2 (c : Nat) : RF := ⟨0x30007c + 0x80 * c, 15, 0⟩
abbrev PIX_CAP_LOGICAL (n : Nat) : RF := ⟨0x600000 + 0x20000 * n, 6, 4⟩
abbrev PIX_CAP_ROLE (n : Nat) : RF := ⟨0x600000 + 0x20000 * n, 2, 1⟩
abbrev PIX_STATUS_OLD_EPOCH (n : Nat) : RF := ⟨0x600004 + 0x20000 * n, 31, 16⟩
abbrev PIX_STATUS_TWO_BANKS (n : Nat) : RF := ⟨0x600004 + 0x20000 * n, 15, 15⟩
abbrev PIX_STATUS_BUSY (n : Nat) : RF := ⟨0x600004 + 0x20000 * n, 14, 14⟩
abbrev PIX_STATUS_CTX (n : Nat) : RF := ⟨0x600004 + 0x20000 * n, 13, 0⟩
abbrev PIX_RAW_CNT_DPC_LINE_OVF (n : Nat) : RF := ⟨0x600010 + 0x20000 * n, 31, 16⟩
abbrev PIX_RAW_CNT_TABLE_ECC (n : Nat) : RF := ⟨0x600010 + 0x20000 * n, 15, 0⟩
abbrev PIX_EVT_LINEBUF_ECC (n : Nat) : RF := ⟨0x600020 + 0x20000 * n, 5, 5⟩
abbrev PIX_EVT_CTABLE_ECC (n : Nat) : RF := ⟨0x600020 + 0x20000 * n, 4, 4⟩
abbrev PIX_EVT_DPC_LINE_OVF (n : Nat) : RF := ⟨0x600020 + 0x20000 * n, 1, 1⟩
abbrev PIX_EVT_TABLE_ECC (n : Nat) : RF := ⟨0x600020 + 0x20000 * n, 0, 0⟩
abbrev PIX_COL_CNT_LINEBUF_ECC (n : Nat) : RF := ⟨0x600400 + 0x20000 * n, 31, 16⟩
abbrev PIX_COL_CNT_TABLE_ECC (n : Nat) : RF := ⟨0x600400 + 0x20000 * n, 15, 0⟩
abbrev PIX_LIN_CTRL_OFFSET (s : Nat) : RF := ⟨0x610000 + 0x20 * s, 30, 16⟩
abbrev PIX_LIN_CTRL_PWL_EN (s : Nat) : RF := ⟨0x610000 + 0x20 * s, 1, 1⟩
abbrev PIX_LIN_CTRL_VALID (s : Nat) : RF := ⟨0x610000 + 0x20 * s, 0, 0⟩
abbrev PIX_LIN_BL_BL (s k : Nat) : RF := ⟨0x610004 + 0x20 * s + 0x4 * k, 19, 0⟩
abbrev PIX_DPC_CTRL_COUNT (s : Nat) : RF := ⟨0x612000 + 0x10 * s, 24, 8⟩
abbrev PIX_DPC_CTRL_DYN_EN (s : Nat) : RF := ⟨0x612000 + 0x10 * s, 2, 2⟩
abbrev PIX_DPC_CTRL_STATIC_EN (s : Nat) : RF := ⟨0x612000 + 0x10 * s, 1, 1⟩
abbrev PIX_DPC_CTRL_VALID (s : Nat) : RF := ⟨0x612000 + 0x10 * s, 0, 0⟩
abbrev PIX_DPC_MAP_OFFSET (s : Nat) : RF := ⟨0x612004 + 0x10 * s, 24, 0⟩
abbrev PIX_DPC_ABS_DYN_ABS (s : Nat) : RF := ⟨0x612008 + 0x10 * s, 19, 0⟩
abbrev PIX_DPC_REL_REL_COLD (s : Nat) : RF := ⟨0x61200c + 0x10 * s, 15, 8⟩
abbrev PIX_DPC_REL_REL_HOT (s : Nat) : RF := ⟨0x61200c + 0x10 * s, 7, 0⟩
abbrev PIX_LSC_CTRL_NY (s : Nat) : RF := ⟨0x613000 + 0x10 * s, 30, 24⟩
abbrev PIX_LSC_CTRL_NX (s : Nat) : RF := ⟨0x613000 + 0x10 * s, 22, 16⟩
abbrev PIX_LSC_CTRL_SY (s : Nat) : RF := ⟨0x613000 + 0x10 * s, 15, 12⟩
abbrev PIX_LSC_CTRL_SX (s : Nat) : RF := ⟨0x613000 + 0x10 * s, 11, 8⟩
abbrev PIX_LSC_CTRL_EN (s : Nat) : RF := ⟨0x613000 + 0x10 * s, 1, 1⟩
abbrev PIX_LSC_CTRL_VALID (s : Nat) : RF := ⟨0x613000 + 0x10 * s, 0, 0⟩
abbrev PIX_LSC_MESH_OFFSET (s : Nat) : RF := ⟨0x613004 + 0x10 * s, 24, 0⟩
abbrev PIX_HDR_CTRL_OFFSET (s : Nat) : RF := ⟨0x614000 + 0x20 * s, 30, 16⟩
abbrev PIX_HDR_CTRL_MOT_MODE (s : Nat) : RF := ⟨0x614000 + 0x20 * s, 3, 2⟩
abbrev PIX_HDR_CTRL_WT_EN (s : Nat) : RF := ⟨0x614000 + 0x20 * s, 1, 1⟩
abbrev PIX_HDR_CTRL_VALID (s : Nat) : RF := ⟨0x614000 + 0x20 * s, 0, 0⟩
abbrev PIX_HDR_SAT_SAT (s e : Nat) : RF := ⟨0x614004 + 0x20 * s + 0x4 * e, 19, 0⟩
abbrev PIX_HDR_MOT_MOT_REL (s : Nat) : RF := ⟨0x614010 + 0x20 * s, 31, 24⟩
abbrev PIX_HDR_MOT_MOT_ABS (s : Nat) : RF := ⟨0x614010 + 0x20 * s, 23, 0⟩
abbrev PIX_SGRID_ORG_Y0 (g : Nat) : RF := ⟨0x616000 + 0x20 * g, 31, 16⟩
abbrev PIX_SGRID_ORG_X0 (g : Nat) : RF := ⟨0x616000 + 0x20 * g, 15, 0⟩
abbrev PIX_SGRID_CELL_CH (g : Nat) : RF := ⟨0x616004 + 0x20 * g, 24, 16⟩
abbrev PIX_SGRID_CELL_CW (g : Nat) : RF := ⟨0x616004 + 0x20 * g, 8, 0⟩
abbrev PIX_SGRID_DIM_HIST_MASK (g : Nat) : RF := ⟨0x616008 + 0x20 * g, 19, 16⟩
abbrev PIX_SGRID_DIM_NY (g : Nat) : RF := ⟨0x616008 + 0x20 * g, 13, 8⟩
abbrev PIX_SGRID_DIM_NX (g : Nat) : RF := ⟨0x616008 + 0x20 * g, 5, 0⟩
abbrev PIX_COL_CTRL_EDGE_REL (s : Nat) : RF := ⟨0x618000 + 0x40 * s, 15, 8⟩
abbrev PIX_COL_CTRL_IR_EN (s : Nat) : RF := ⟨0x618000 + 0x40 * s, 2, 2⟩
abbrev PIX_COL_CTRL_CCM_EN (s : Nat) : RF := ⟨0x618000 + 0x40 * s, 1, 1⟩
abbrev PIX_COL_CTRL_VALID (s : Nat) : RF := ⟨0x618000 + 0x40 * s, 0, 0⟩
abbrev PIX_COL_EDGE_EDGE_ABS (s : Nat) : RF := ⟨0x618004 + 0x40 * s, 23, 0⟩
abbrev PIX_CCM_A_C1 (s i : Nat) : RF := ⟨0x618008 + 0x40 * s + 0x8 * i, 31, 16⟩
abbrev PIX_CCM_A_C0 (s i : Nat) : RF := ⟨0x618008 + 0x40 * s + 0x8 * i, 15, 0⟩
abbrev PIX_CCM_B_OFF (s i : Nat) : RF := ⟨0x61800c + 0x40 * s + 0x8 * i, 31, 16⟩
abbrev PIX_CCM_B_C2 (s i : Nat) : RF := ⟨0x61800c + 0x40 * s + 0x8 * i, 15, 0⟩
abbrev PIX_IRC_A_IRC_G (s : Nat) : RF := ⟨0x618020 + 0x40 * s, 31, 16⟩
abbrev PIX_IRC_A_IRC_R (s : Nat) : RF := ⟨0x618020 + 0x40 * s, 15, 0⟩
abbrev PIX_IRC_B_IRC_B (s : Nat) : RF := ⟨0x618024 + 0x40 * s, 15, 0⟩
abbrev PIX_TONE_CTRL_OFFSET (s : Nat) : RF := ⟨0x61c000 + 0x10 * s, 30, 16⟩
abbrev PIX_TONE_CTRL_LIMITED (s : Nat) : RF := ⟨0x61c000 + 0x10 * s, 4, 4⟩
abbrev PIX_TONE_CTRL_CSC (s : Nat) : RF := ⟨0x61c000 + 0x10 * s, 3, 2⟩
abbrev PIX_TONE_CTRL_TONE_EN (s : Nat) : RF := ⟨0x61c000 + 0x10 * s, 1, 1⟩
abbrev PIX_TONE_CTRL_VALID (s : Nat) : RF := ⟨0x61c000 + 0x10 * s, 0, 0⟩
abbrev PIX_SCL_CTRL_OFFSET (s : Nat) : RF := ⟨0x61d000 + 0x10 * s, 30, 16⟩
abbrev PIX_SCL_CTRL_COEF_EN (s : Nat) : RF := ⟨0x61d000 + 0x10 * s, 1, 1⟩
abbrev PIX_SCL_CTRL_VALID (s : Nat) : RF := ⟨0x61d000 + 0x10 * s, 0, 0⟩
abbrev PIX_SCL_BORDER_C2 (s : Nat) : RF := ⟨0x61d004 + 0x10 * s, 31, 24⟩
abbrev PIX_SCL_BORDER_C1 (s : Nat) : RF := ⟨0x61d004 + 0x10 * s, 23, 16⟩
abbrev PIX_SCL_BORDER_C0 (s : Nat) : RF := ⟨0x61d004 + 0x10 * s, 15, 8⟩
abbrev PIX_SCL_BORDER_WIDTH (s : Nat) : RF := ⟨0x61d004 + 0x10 * s, 3, 0⟩
abbrev HTS_REFUSE_PEND_LO_PEND : RF := ⟨0x61e000, 31, 0⟩
abbrev HTS_REFUSE_PEND_HI_PEND : RF := ⟨0x61e004, 31, 0⟩
abbrev HTS_FAULT_PEND_LO_PEND : RF := ⟨0x61e008, 31, 0⟩
abbrev HTS_FAULT_PEND_HI_PEND : RF := ⟨0x61e00c, 31, 0⟩
abbrev HTS_HOLD_FREEZE_FREEZE : RF := ⟨0x61e010, 31, 31⟩
abbrev HTS_L_LOAD_RESV (l : Nat) : RF := ⟨0x61f000 + 0x20000 * l, 31, 16⟩
abbrev HTS_L_LOAD_LOAD (l : Nat) : RF := ⟨0x61f000 + 0x20000 * l, 15, 0⟩
abbrev HTS_L_BUDGET_PHYS (l : Nat) : RF := ⟨0x61f004 + 0x20000 * l, 18, 16⟩
abbrev HTS_L_BUDGET_DEMAND (l : Nat) : RF := ⟨0x61f004 + 0x20000 * l, 15, 0⟩
abbrev HTS_L_PEAK_MAXWAIT (l : Nat) : RF := ⟨0x61f008 + 0x20000 * l, 31, 16⟩
abbrev HTS_L_PEAK_PEAK (l : Nat) : RF := ⟨0x61f008 + 0x20000 * l, 15, 0⟩
abbrev HTS_L_REFUSED_T2 (l : Nat) : RF := ⟨0x61f00c + 0x20000 * l, 31, 16⟩
abbrev HTS_L_REFUSED_T1 (l : Nat) : RF := ⟨0x61f00c + 0x20000 * l, 15, 0⟩
abbrev HTS_L_FAULT_SKEW_BREAK (l : Nat) : RF := ⟨0x61f010 + 0x20000 * l, 31, 16⟩
abbrev HTS_L_FAULT_WIN_OVF (l : Nat) : RF := ⟨0x61f010 + 0x20000 * l, 15, 0⟩
abbrev HTS_L_OVER_OVER (l : Nat) : RF := ⟨0x61f014 + 0x20000 * l, 15, 0⟩
abbrev SEAM_EVT_DEST_LOSS : RF := ⟨0x700000, 1, 1⟩
abbrev SEAM_EVT_COMP_LAG : RF := ⟨0x700000, 0, 0⟩
abbrev SEAM_CNT_COMP_LAG : RF := ⟨0x700010, 31, 16⟩
abbrev SEAM_CNT_DEST_LOSS : RF := ⟨0x700010, 15, 0⟩
abbrev SEAM_ROUTE_W0_DEST (o : Nat) : RF := ⟨0x702000 + 0x20 * o, 31, 16⟩
abbrev SEAM_ROUTE_W0_SOURCES (o : Nat) : RF := ⟨0x702000 + 0x20 * o, 7, 5⟩
abbrev SEAM_ROUTE_W0_DEST_KIND (o : Nat) : RF := ⟨0x702000 + 0x20 * o, 4, 3⟩
abbrev SEAM_ROUTE_W0_MODE (o : Nat) : RF := ⟨0x702000 + 0x20 * o, 2, 1⟩
abbrev SEAM_ROUTE_W0_VALID (o : Nat) : RF := ⟨0x702000 + 0x20 * o, 0, 0⟩
abbrev SEAM_ROUTE_W0_ALL (o : Nat) : RF := ⟨0x702000 + 0x20 * o, 31, 0⟩
abbrev SEAM_ROUTE_W1_SRC1 (o : Nat) : RF := ⟨0x702004 + 0x20 * o, 31, 16⟩
abbrev SEAM_ROUTE_W1_SRC0 (o : Nat) : RF := ⟨0x702004 + 0x20 * o, 15, 0⟩
abbrev SEAM_ROUTE_W1_ALL (o : Nat) : RF := ⟨0x702004 + 0x20 * o, 31, 0⟩
abbrev SEAM_ROUTE_W2_SRC3 (o : Nat) : RF := ⟨0x702008 + 0x20 * o, 31, 16⟩
abbrev SEAM_ROUTE_W2_SRC2 (o : Nat) : RF := ⟨0x702008 + 0x20 * o, 15, 0⟩
abbrev SEAM_ROUTE_W2_ALL (o : Nat) : RF := ⟨0x702008 + 0x20 * o, 31, 0⟩
abbrev SEAM_REGION_ORG_Y (o : Nat) : RF := ⟨0x70200c + 0x20 * o, 31, 16⟩
abbrev SEAM_REGION_ORG_X (o : Nat) : RF := ⟨0x70200c + 0x20 * o, 15, 0⟩
abbrev SEAM_REGION_SIZE_H (o : Nat) : RF := ⟨0x702010 + 0x20 * o, 31, 16⟩
abbrev SEAM_REGION_SIZE_W (o : Nat) : RF := ⟨0x702010 + 0x20 * o, 15, 0⟩
abbrev SEAM_OUT_FRAMES_COUNT (o : Nat) : RF := ⟨0x702018 + 0x20 * o, 31, 0⟩
abbrev SEAM_OUT_LOSS_LINES (o : Nat) : RF := ⟨0x70201c + 0x20 * o, 31, 16⟩
abbrev SEAM_OUT_LOSS_FRAMES (o : Nat) : RF := ⟨0x70201c + 0x20 * o, 15, 0⟩
abbrev CHK_EVT_IN_FORMAT : RF := ⟨0x740000, 5, 5⟩
abbrev CHK_EVT_IN_ALIVE : RF := ⟨0x740000, 4, 4⟩
abbrev CHK_EVT_IN_PAYLOAD : RF := ⟨0x740000, 3, 3⟩
abbrev CHK_EVT_IN_SEAL : RF := ⟨0x740000, 2, 2⟩
abbrev CHK_EVT_IN_TAG : RF := ⟨0x740000, 1, 1⟩
abbrev CHK_EVT_ENG_MISMATCH : RF := ⟨0x740000, 0, 0⟩
abbrev CHK_ENG_CNT_POISONED : RF := ⟨0x740010, 31, 16⟩
abbrev CHK_ENG_CNT_MISMATCH : RF := ⟨0x740010, 15, 0⟩
abbrev CHK_IN_CNT_TAG : RF := ⟨0x740014, 31, 24⟩
abbrev CHK_IN_CNT_SEAL : RF := ⟨0x740014, 23, 16⟩
abbrev CHK_IN_CNT_PAYLOAD : RF := ⟨0x740014, 15, 8⟩
abbrev CHK_IN_CNT_ALIVE : RF := ⟨0x740014, 7, 0⟩
abbrev CHK_IN_FMT_FORMAT : RF := ⟨0x740018, 15, 0⟩
abbrev HLK_CFG_DECL_RATE (p : Nat) : RF := ⟨0x780000 + 0x10000 * p, 2, 0⟩
abbrev HLK_STAT_BME (p : Nat) : RF := ⟨0x780004 + 0x10000 * p, 11, 11⟩
abbrev HLK_STAT_D3 (p : Nat) : RF := ⟨0x780004 + 0x10000 * p, 10, 10⟩
abbrev HLK_STAT_FLIT (p : Nat) : RF := ⟨0x780004 + 0x10000 * p, 9, 9⟩
abbrev HLK_STAT_UP (p : Nat) : RF := ⟨0x780004 + 0x10000 * p, 8, 8⟩
abbrev HLK_STAT_WIDTH (p : Nat) : RF := ⟨0x780004 + 0x10000 * p, 6, 4⟩
abbrev HLK_STAT_RATE (p : Nat) : RF := ⟨0x780004 + 0x10000 * p, 2, 0⟩
abbrev HLK_EGR_LEVEL_BYTES (p : Nat) : RF := ⟨0x780008 + 0x10000 * p, 22, 0⟩
abbrev HLK_EGR_PEAK_BYTES (p : Nat) : RF := ⟨0x78000c + 0x10000 * p, 22, 0⟩
abbrev HLK_EGR_HWM_BYTES (p : Nat) : RF := ⟨0x780010 + 0x10000 * p, 22, 0⟩
abbrev HLK_EGR_LWM_BYTES (p : Nat) : RF := ⟨0x780014 + 0x10000 * p, 22, 0⟩
abbrev HLK_WM_CNT_LWM (p : Nat) : RF := ⟨0x780018 + 0x10000 * p, 31, 16⟩
abbrev HLK_WM_CNT_HWM (p : Nat) : RF := ⟨0x780018 + 0x10000 * p, 15, 0⟩
abbrev HLK_EGR_LOSS_LINES (p : Nat) : RF := ⟨0x78001c + 0x10000 * p, 31, 0⟩
abbrev HLK_EVT_REPLAY_DONE (p : Nat) : RF := ⟨0x780020 + 0x10000 * p, 7, 7⟩
abbrev HLK_EVT_FLR (p : Nat) : RF := ⟨0x780020 + 0x10000 * p, 6, 6⟩
abbrev HLK_EVT_EGR_LOSS (p : Nat) : RF := ⟨0x780020 + 0x10000 * p, 5, 5⟩
abbrev HLK_EVT_AER (p : Nat) : RF := ⟨0x780020 + 0x10000 * p, 4, 4⟩
abbrev HLK_EVT_DEGRADED (p : Nat) : RF := ⟨0x780020 + 0x10000 * p, 3, 3⟩
abbrev HLK_EVT_LINK_DOWN (p : Nat) : RF := ⟨0x780020 + 0x10000 * p, 2, 2⟩
abbrev HLK_EVT_LWM_HIT (p : Nat) : RF := ⟨0x780020 + 0x10000 * p, 1, 1⟩
abbrev HLK_EVT_HWM_HIT (p : Nat) : RF := ⟨0x780020 + 0x10000 * p, 0, 0⟩
abbrev MSIX_ADDR_LO_VALUE (p v : Nat) : RF := ⟨0x788000 + 0x10000 * p + 0x10 * v, 31, 0⟩
abbrev MSIX_ADDR_HI_VALUE (p v : Nat) : RF := ⟨0x788004 + 0x10000 * p + 0x10 * v, 31, 0⟩
abbrev MSIX_DATA_VALUE (p v : Nat) : RF := ⟨0x788008 + 0x10000 * p + 0x10 * v, 31, 0⟩
abbrev MSIX_CTRL_MASK (p v : Nat) : RF := ⟨0x78800c + 0x10000 * p + 0x10 * v, 0, 0⟩
abbrev MSIX_PBA_PEND (p w : Nat) : RF := ⟨0x789000 + 0x10000 * p + 0x4 * w, 31, 0⟩
abbrev CTX2_CFG_RATE (p : Nat) : RF := ⟨0x7c0000 + 0x1000 * p, 31, 16⟩
abbrev CTX2_CFG_LANES (p : Nat) : RF := ⟨0x7c0000 + 0x1000 * p, 4, 2⟩
abbrev CTX2_CFG_PHY (p : Nat) : RF := ⟨0x7c0000 + 0x1000 * p, 1, 1⟩
abbrev CTX2_CFG_ENABLE (p : Nat) : RF := ⟨0x7c0000 + 0x1000 * p, 0, 0⟩
abbrev CTX2_CFG_ALL (p : Nat) : RF := ⟨0x7c0000 + 0x1000 * p, 31, 0⟩
abbrev CTX2_STAT_ACTIVE (p : Nat) : RF := ⟨0x7c0004 + 0x1000 * p, 16, 16⟩
abbrev CTX2_STAT_VC_USED (p : Nat) : RF := ⟨0x7c0004 + 0x1000 * p, 15, 0⟩
abbrev CTX2_CNT_OVF (p : Nat) : RF := ⟨0x7c0008 + 0x1000 * p, 31, 16⟩
abbrev CTX2_CNT_FRAMES (p : Nat) : RF := ⟨0x7c0008 + 0x1000 * p, 15, 0⟩
abbrev CTX2_EVT_OVF (p : Nat) : RF := ⟨0x7c000c + 0x1000 * p, 0, 0⟩
abbrev WVE_CFG_MIN_RATE (p : Nat) : RF := ⟨0x800000 + 0x1000 * p, 11, 10⟩
abbrev WVE_CFG_RATE (p : Nat) : RF := ⟨0x800000 + 0x1000 * p, 9, 8⟩
abbrev WVE_CFG_ENABLE (p : Nat) : RF := ⟨0x800000 + 0x1000 * p, 0, 0⟩
abbrev WVE_LANE_MAP_LL3 (p : Nat) : RF := ⟨0x800004 + 0x1000 * p, 11, 9⟩
abbrev WVE_LANE_MAP_LL2 (p : Nat) : RF := ⟨0x800004 + 0x1000 * p, 8, 6⟩
abbrev WVE_LANE_MAP_LL1 (p : Nat) : RF := ⟨0x800004 + 0x1000 * p, 5, 3⟩
abbrev WVE_LANE_MAP_LL0 (p : Nat) : RF := ⟨0x800004 + 0x1000 * p, 2, 0⟩
abbrev WVE_LANE_MAP_ALL (p : Nat) : RF := ⟨0x800004 + 0x1000 * p, 31, 0⟩
abbrev WVE_STAT_PEER_FID (p : Nat) : RF := ⟨0x800010 + 0x1000 * p, 31, 27⟩
abbrev WVE_STAT_PEER_VALID (p : Nat) : RF := ⟨0x800010 + 0x1000 * p, 26, 26⟩
abbrev WVE_STAT_RATE_NOW (p : Nat) : RF := ⟨0x800010 + 0x1000 * p, 25, 24⟩
abbrev WVE_STAT_LANES (p : Nat) : RF := ⟨0x800010 + 0x1000 * p, 22, 20⟩
abbrev WVE_STAT_LANE_OK (p : Nat) : RF := ⟨0x800010 + 0x1000 * p, 19, 15⟩
abbrev WVE_STAT_LANE_NOW (p : Nat) : RF := ⟨0x800010 + 0x1000 * p, 14, 3⟩
abbrev WVE_STAT_STATE (p : Nat) : RF := ⟨0x800010 + 0x1000 * p, 2, 0⟩
abbrev WVE_PEER_UID_LO_UID (p : Nat) : RF := ⟨0x800014 + 0x1000 * p, 31, 0⟩
abbrev WVE_PEER_UID_HI_UID (p : Nat) : RF := ⟨0x800018 + 0x1000 * p, 31, 0⟩
abbrev WVE_RETRY_LVL_RX_HELD (p : Nat) : RF := ⟨0x80001c + 0x1000 * p, 25, 16⟩
abbrev WVE_RETRY_LVL_TX_UNACK (p : Nat) : RF := ⟨0x80001c + 0x1000 * p, 9, 0⟩
abbrev WVE_CNT_RETX (p : Nat) : RF := ⟨0x800020 + 0x1000 * p, 31, 16⟩
abbrev WVE_CNT_CRC_ERR (p : Nat) : RF := ⟨0x800020 + 0x1000 * p, 15, 0⟩
abbrev WVE_CNT2_GEN_DISC (p : Nat) : RF := ⟨0x800024 + 0x1000 * p, 31, 16⟩
abbrev WVE_CNT2_LINK_DOWN (p : Nat) : RF := ⟨0x800024 + 0x1000 * p, 15, 8⟩
abbrev WVE_CNT2_LANE_FAIL (p : Nat) : RF := ⟨0x800024 + 0x1000 * p, 7, 0⟩
abbrev WVE_EVT_LANE_FAIL (p : Nat) : RF := ⟨0x800040 + 0x1000 * p, 3, 3⟩
abbrev WVE_EVT_DEGRADED (p : Nat) : RF := ⟨0x800040 + 0x1000 * p, 2, 2⟩
abbrev WVE_EVT_LINK_UP (p : Nat) : RF := ⟨0x800040 + 0x1000 * p, 1, 1⟩
abbrev WVE_EVT_LINK_DOWN (p : Nat) : RF := ⟨0x800040 + 0x1000 * p, 0, 0⟩
abbrev WVE_LANE_ERR_SYNC_ERR (p l : Nat) : RF := ⟨0x800050 + 0x1000 * p + 0x4 * l, 15, 0⟩
abbrev FAB_CFG_FID_PIN : RF := ⟨0x840000, 5, 5⟩
abbrev FAB_CFG_FID_PREF : RF := ⟨0x840000, 4, 0⟩
abbrev FAB_NAME_NAME : RF := ⟨0x840004, 31, 0⟩
abbrev FAB_STAT_MEMBERS : RF := ⟨0x840008, 21, 16⟩
abbrev FAB_STAT_GEN : RF := ⟨0x840008, 13, 8⟩
abbrev FAB_STAT_FID_VALID : RF := ⟨0x840008, 5, 5⟩
abbrev FAB_STAT_FID : RF := ⟨0x840008, 4, 0⟩
abbrev FAB_MEMBERS_MEMBERS : RF := ⟨0x84000c, 31, 0⟩
abbrev FAB_CNT_FLOW_ABORT : RF := ⟨0x840010, 31, 16⟩
abbrev FAB_CNT_NO_DEST : RF := ⟨0x840010, 15, 0⟩
abbrev FAB_EVT_NAME_REJ : RF := ⟨0x840014, 4, 4⟩
abbrev FAB_EVT_FLOW_ABORT : RF := ⟨0x840014, 3, 3⟩
abbrev FAB_EVT_GEN : RF := ⟨0x840014, 2, 2⟩
abbrev FAB_EVT_FID : RF := ⟨0x840014, 1, 1⟩
abbrev FAB_EVT_MEMBERS : RF := ⟨0x840014, 0, 0⟩
abbrev FAB_ROUTE_HOPS (f : Nat) : RF := ⟨0x840100 + 0x4 * f, 15, 8⟩
abbrev FAB_ROUTE_NEXT_FID (f : Nat) : RF := ⟨0x840100 + 0x4 * f, 7, 3⟩
abbrev FAB_ROUTE_VALID (f : Nat) : RF := ⟨0x840100 + 0x4 * f, 2, 2⟩
abbrev FAB_ROUTE_PORT (f : Nat) : RF := ⟨0x840100 + 0x4 * f, 1, 0⟩
abbrev FAB_ROUTE_ALL (f : Nat) : RF := ⟨0x840100 + 0x4 * f, 31, 0⟩
abbrev FAB_UID_LO_UID (f : Nat) : RF := ⟨0x840200 + 0x8 * f, 31, 0⟩
abbrev FAB_UID_HI_UID (f : Nat) : RF := ⟨0x840204 + 0x8 * f, 31, 0⟩
abbrev RLY_CFG_PORT : RF := ⟨0x880000, 3, 2⟩
abbrev RLY_CFG_ROLE_PREF : RF := ⟨0x880000, 1, 1⟩
abbrev RLY_CFG_ENABLE : RF := ⟨0x880000, 0, 0⟩
abbrev RLY_STAT_BATON_GEN : RF := ⟨0x880004, 31, 16⟩
abbrev RLY_STAT_MISSES : RF := ⟨0x880004, 11, 8⟩
abbrev RLY_STAT_FENCE_OUT : RF := ⟨0x880004, 7, 7⟩
abbrev RLY_STAT_FENCE_IN : RF := ⟨0x880004, 6, 6⟩
abbrev RLY_STAT_ELIGIBLE : RF := ⟨0x880004, 5, 5⟩
abbrev RLY_STAT_DIGEST_OK : RF := ⟨0x880004, 4, 4⟩
abbrev RLY_STAT_PARTNER : RF := ⟨0x880004, 3, 3⟩
abbrev RLY_STAT_ROLE : RF := ⟨0x880004, 2, 0⟩
abbrev RLY_DIGEST_DIGEST : RF := ⟨0x880008, 31, 0⟩
abbrev RLY_PEER_DIGEST_DIGEST : RF := ⟨0x88000c, 31, 0⟩
abbrev RLY_CTRL_HANDOVER : RF := ⟨0x880010, 0, 0⟩
abbrev RLY_CTRL_ALL : RF := ⟨0x880010, 31, 0⟩
abbrev RLY_LAST_BATON_US : RF := ⟨0x880014, 31, 0⟩
abbrev RLY_CNT_BATONS : RF := ⟨0x880018, 31, 24⟩
abbrev RLY_CNT_FC_MISMATCH : RF := ⟨0x880018, 23, 16⟩
abbrev RLY_CNT_SOLO : RF := ⟨0x880018, 15, 0⟩
abbrev RLY_EVT_FC_MISMATCH : RF := ⟨0x88001c, 6, 6⟩
abbrev RLY_EVT_CFG_MISMATCH : RF := ⟨0x88001c, 5, 5⟩
abbrev RLY_EVT_MIRROR_OK : RF := ⟨0x88001c, 4, 4⟩
abbrev RLY_EVT_MIRROR_LOST : RF := ⟨0x88001c, 3, 3⟩
abbrev RLY_EVT_FENCED : RF := ⟨0x88001c, 2, 2⟩
abbrev RLY_EVT_BATON : RF := ⟨0x88001c, 1, 1⟩
abbrev RLY_EVT_PARTNER_LOST : RF := ⟨0x88001c, 0, 0⟩
abbrev TSU_TIME_NS_NS : RF := ⟨0x900000, 31, 0⟩
abbrev TSU_TIME_NS_ALL : RF := ⟨0x900000, 31, 0⟩
abbrev TSU_STATE_SOURCE : RF := ⟨0x900004, 5, 4⟩
abbrev TSU_STATE_STATE : RF := ⟨0x900004, 3, 0⟩
abbrev TSU_OFFSET_VALUE : RF := ⟨0x900008, 31, 0⟩
abbrev TSU_RATE_VALUE : RF := ⟨0x90000c, 31, 0⟩
abbrev TSU_STEP_VALUE : RF := ⟨0x900010, 31, 0⟩
abbrev TSU_CFG_LOCK_NS : RF := ⟨0x900014, 31, 16⟩
abbrev TSU_CFG_SLAVE_EP : RF := ⟨0x900014, 2, 2⟩
abbrev TSU_CFG_SOURCE : RF := ⟨0x900014, 1, 0⟩
abbrev TSU_TRG_ADV_US : RF := ⟨0x900018, 15, 0⟩
abbrev TSU_PPS_NEXT_NS : RF := ⟨0x90001c, 31, 0⟩
abbrev TSU_PPS_LAST_NS : RF := ⟨0x900020, 31, 0⟩
abbrev TSU_CNT_STEPS : RF := ⟨0x900024, 31, 16⟩
abbrev TSU_CNT_MID_OVF : RF := ⟨0x900024, 15, 0⟩
abbrev TSU_EVT_TRG_REJ : RF := ⟨0x900028, 4, 4⟩
abbrev TSU_EVT_MID_OVF : RF := ⟨0x900028, 3, 3⟩
abbrev TSU_EVT_SYNC_LOST : RF := ⟨0x900028, 2, 2⟩
abbrev TSU_EVT_STEPPED : RF := ⟨0x900028, 1, 1⟩
abbrev TSU_EVT_STATE : RF := ⟨0x900028, 0, 0⟩
abbrev TSU_TIME_HI_WRAPS : RF := ⟨0x900038, 31, 0⟩
abbrev TSU_TRG_NEXT_HI_HI (g : Nat) : RF := ⟨0x900080 + 0x4 * g, 31, 0⟩
abbrev TSU_TRG_CFG_PORTS (g : Nat) : RF := ⟨0x900100 + 0x10 * g, 21, 2⟩
abbrev TSU_TRG_CFG_EN (g : Nat) : RF := ⟨0x900100 + 0x10 * g, 0, 0⟩
abbrev TSU_TRG_PERIOD_NS (g : Nat) : RF := ⟨0x900104 + 0x10 * g, 31, 0⟩
abbrev TSU_TRG_PHASE_NS (g : Nat) : RF := ⟨0x900108 + 0x10 * g, 31, 0⟩
abbrev TSU_TRG_NEXT_NS (g : Nat) : RF := ⟨0x90010c + 0x10 * g, 31, 0⟩
abbrev ETH_CFG_DOMAIN (p : Nat) : RF := ⟨0x908000 + 0x1000 * p, 23, 16⟩
abbrev ETH_CFG_DIAG_EN (p : Nat) : RF := ⟨0x908000 + 0x1000 * p, 9, 9⟩
abbrev ETH_CFG_ROLE (p : Nat) : RF := ⟨0x908000 + 0x1000 * p, 8, 7⟩
abbrev ETH_CFG_MODE (p : Nat) : RF := ⟨0x908000 + 0x1000 * p, 6, 4⟩
abbrev ETH_CFG_ENABLE (p : Nat) : RF := ⟨0x908000 + 0x1000 * p, 0, 0⟩
abbrev ETH_MAC_LO_ADDR (p : Nat) : RF := ⟨0x908004 + 0x1000 * p, 31, 0⟩
abbrev ETH_MAC_HI_ADDR (p : Nat) : RF := ⟨0x908008 + 0x1000 * p, 15, 0⟩
abbrev ETH_PHY_LAT_TX (p : Nat) : RF := ⟨0x90800c + 0x1000 * p, 31, 16⟩
abbrev ETH_PHY_LAT_RX (p : Nat) : RF := ⟨0x90800c + 0x1000 * p, 15, 0⟩
abbrev ETH_STAT_PDELAY (p : Nat) : RF := ⟨0x908010 + 0x1000 * p, 31, 16⟩
abbrev ETH_STAT_AS_CAPABLE (p : Nat) : RF := ⟨0x908010 + 0x1000 * p, 2, 2⟩
abbrev ETH_STAT_LINK (p : Nat) : RF := ⟨0x908010 + 0x1000 * p, 0, 0⟩
abbrev ETH_CNT_DROP (p : Nat) : RF := ⟨0x908014 + 0x1000 * p, 31, 16⟩
abbrev ETH_CNT_RX_ERR (p : Nat) : RF := ⟨0x908014 + 0x1000 * p, 15, 0⟩
abbrev ETH_CNT2_DIAG_LIMIT (p : Nat) : RF := ⟨0x908018 + 0x1000 * p, 31, 16⟩
abbrev ETH_CNT2_DIAG (p : Nat) : RF := ⟨0x908018 + 0x1000 * p, 15, 0⟩
abbrev ETH_EVT_DIAG_LIMIT (p : Nat) : RF := ⟨0x908020 + 0x1000 * p, 4, 4⟩
abbrev ETH_EVT_RX_ERR (p : Nat) : RF := ⟨0x908020 + 0x1000 * p, 3, 3⟩
abbrev ETH_EVT_PDELAY_FAIL (p : Nat) : RF := ⟨0x908020 + 0x1000 * p, 2, 2⟩
abbrev ETH_EVT_LINK_UP (p : Nat) : RF := ⟨0x908020 + 0x1000 * p, 1, 1⟩
abbrev ETH_EVT_LINK_DOWN (p : Nat) : RF := ⟨0x908020 + 0x1000 * p, 0, 0⟩
abbrev POS_SEL_STILL_MS : RF := ⟨0xa00000, 25, 16⟩
abbrev POS_SEL_WHEEL_INV : RF := ⟨0xa00000, 8, 8⟩
abbrev POS_SEL_STEER_CH : RF := ⟨0xa00000, 6, 4⟩
abbrev POS_SEL_WHEEL_CH : RF := ⟨0xa00000, 2, 0⟩
abbrev POS_WHEEL_SCALE_UM : RF := ⟨0xa00004, 31, 0⟩
abbrev POS_STEER_ZERO_CNT : RF := ⟨0xa00008, 31, 0⟩
abbrev POS_STEER_SCALE_SCALE : RF := ⟨0xa0000c, 31, 0⟩
abbrev POS_SPEED_ALL : RF := ⟨0xa00010, 31, 0⟩
abbrev POS_STEER_ALL : RF := ⟨0xa00014, 31, 0⟩
abbrev POS_PROF_SPEED : RF := ⟨0xa00018, 15, 0⟩
abbrev POS_EVT_EMU_LAG : RF := ⟨0xa00020, 6, 6⟩
abbrev POS_EVT_HIST_MISS : RF := ⟨0xa00020, 5, 5⟩
abbrev POS_EVT_AMP_ERR : RF := ⟨0xa00020, 4, 4⟩
abbrev POS_EVT_SENT_ERR : RF := ⟨0xa00020, 3, 3⟩
abbrev POS_EVT_CH_VALID : RF := ⟨0xa00020, 2, 2⟩
abbrev POS_EVT_CH_LOST : RF := ⟨0xa00020, 1, 1⟩
abbrev POS_EVT_ILLEGAL : RF := ⟨0xa00020, 0, 0⟩
abbrev POS_CMP_EVT_FIRED : RF := ⟨0xa00030, 7, 0⟩
abbrev POS_CMP_CFG_BEHIND (i : Nat) : RF := ⟨0xa00040 + 0x8 * i, 4, 4⟩
abbrev POS_CMP_CFG_ARM (i : Nat) : RF := ⟨0xa00040 + 0x8 * i, 3, 3⟩
abbrev POS_CMP_CFG_CH (i : Nat) : RF := ⟨0xa00040 + 0x8 * i, 1, 0⟩
abbrev POS_CMP_CFG_ALL (i : Nat) : RF := ⟨0xa00040 + 0x8 * i, 31, 0⟩
abbrev POS_CMP_POS_T (i : Nat) : RF := ⟨0xa00044 + 0x8 * i, 31, 0⟩
abbrev POS_CH_CFG_OBS_BW (n : Nat) : RF := ⟨0xa00100 + 0x80 * n, 31, 24⟩
abbrev POS_CH_CFG_ILL_MAX (n : Nat) : RF := ⟨0xa00100 + 0x80 * n, 23, 20⟩
abbrev POS_CH_CFG_INTERP_LOG2 (n : Nat) : RF := ⟨0xa00100 + 0x80 * n, 19, 16⟩
abbrev POS_CH_CFG_FILT (n : Nat) : RF := ⟨0xa00100 + 0x80 * n, 15, 8⟩
abbrev POS_CH_CFG_Z_EN (n : Nat) : RF := ⟨0xa00100 + 0x80 * n, 4, 4⟩
abbrev POS_CH_CFG_INV (n : Nat) : RF := ⟨0xa00100 + 0x80 * n, 3, 3⟩
abbrev POS_CH_CFG_TYPE (n : Nat) : RF := ⟨0xa00100 + 0x80 * n, 2, 0⟩
abbrev POS_CH_Z_Z_VALUE (n : Nat) : RF := ⟨0xa00104 + 0x80 * n, 31, 0⟩
abbrev POS_CH_SC_OFF_C (n : Nat) : RF := ⟨0xa00108 + 0x80 * n, 27, 16⟩
abbrev POS_CH_SC_OFF_S (n : Nat) : RF := ⟨0xa00108 + 0x80 * n, 11, 0⟩
abbrev POS_CH_AMP_AMP_MAX (n : Nat) : RF := ⟨0xa0010c + 0x80 * n, 27, 16⟩
abbrev POS_CH_AMP_AMP_MIN (n : Nat) : RF := ⟨0xa0010c + 0x80 * n, 11, 0⟩
abbrev POS_CH_SENT_CRC_LEGACY (n : Nat) : RF := ⟨0xa00110 + 0x80 * n, 20, 20⟩
abbrev POS_CH_SENT_PAUSE (n : Nat) : RF := ⟨0xa00110 + 0x80 * n, 19, 19⟩
abbrev POS_CH_SENT_WIDTH (n : Nat) : RF := ⟨0xa00110 + 0x80 * n, 18, 16⟩
abbrev POS_CH_SENT_FIRST (n : Nat) : RF := ⟨0xa00110 + 0x80 * n, 15, 13⟩
abbrev POS_CH_SENT_NIBBLES (n : Nat) : RF := ⟨0xa00110 + 0x80 * n, 12, 10⟩
abbrev POS_CH_SENT_TICK (n : Nat) : RF := ⟨0xa00110 + 0x80 * n, 9, 0⟩
abbrev POS_CH_CNT_COUNT (n : Nat) : RF := ⟨0xa00114 + 0x80 * n, 31, 0⟩
abbrev POS_CH_CNT_ALL (n : Nat) : RF := ⟨0xa00114 + 0x80 * n, 31, 0⟩
abbrev POS_CH_STAT_REVERSE (n : Nat) : RF := ⟨0xa00118 + 0x80 * n, 3, 3⟩
abbrev POS_CH_STAT_DIR_KNOWN (n : Nat) : RF := ⟨0xa00118 + 0x80 * n, 2, 2⟩
abbrev POS_CH_STAT_REF (n : Nat) : RF := ⟨0xa00118 + 0x80 * n, 1, 1⟩
abbrev POS_CH_STAT_VALID (n : Nat) : RF := ⟨0xa00118 + 0x80 * n, 0, 0⟩
abbrev POS_CH_STAT_ALL (n : Nat) : RF := ⟨0xa00118 + 0x80 * n, 31, 0⟩
abbrev POS_CH_PERIOD_NS (n : Nat) : RF := ⟨0xa0011c + 0x80 * n, 31, 0⟩
abbrev POS_CH_V_V (n : Nat) : RF := ⟨0xa00120 + 0x80 * n, 31, 0⟩
abbrev POS_CH_ERRCNT_ILLEGAL (n : Nat) : RF := ⟨0xa00124 + 0x80 * n, 31, 16⟩
abbrev POS_CH_ERRCNT_AMP (n : Nat) : RF := ⟨0xa00124 + 0x80 * n, 15, 8⟩
abbrev POS_CH_ERRCNT_SENT (n : Nat) : RF := ⟨0xa00124 + 0x80 * n, 7, 0⟩
abbrev EMU_CFG_EN (e : Nat) : RF := ⟨0xa00400 + 0x20 * e, 2, 2⟩
abbrev EMU_CFG_CH (e : Nat) : RF := ⟨0xa00400 + 0x20 * e, 1, 0⟩
abbrev EMU_RATIO_DEN (e : Nat) : RF := ⟨0xa00404 + 0x20 * e, 31, 16⟩
abbrev EMU_RATIO_NUM (e : Nat) : RF := ⟨0xa00404 + 0x20 * e, 15, 0⟩
abbrev EMU_Z_Z_PERIOD (e : Nat) : RF := ⟨0xa00408 + 0x20 * e, 31, 0⟩
abbrev EMU_STAT_OUT (e : Nat) : RF := ⟨0xa0040c + 0x20 * e, 31, 0⟩
abbrev PWR_SCALE_ISCALE : RF := ⟨0xa40000, 31, 16⟩
abbrev PWR_SCALE_VSCALE : RF := ⟨0xa40000, 15, 0⟩
abbrev PWR_RETRY_OC_N : RF := ⟨0xa40004, 22, 20⟩
abbrev PWR_RETRY_RETRY_N : RF := ⟨0xa40004, 19, 16⟩
abbrev PWR_RAIL_RAIL_UV_MV : RF := ⟨0xa40008, 15, 0⟩
abbrev PWR_RAIL_MV_MV : RF := ⟨0xa4000c, 15, 0⟩
abbrev PWR_MODE_RAW : RF := ⟨0xa40010, 2, 0⟩
abbrev PWR_EVT_RAIL_UV : RF := ⟨0xa40014, 0, 0⟩
abbrev PWR_VCORE_FAIL : RF := ⟨0xa40024, 16, 16⟩
abbrev PWR_VCORE_MV : RF := ⟨0xa40024, 15, 0⟩
abbrev PWR_TJ_PEAK : RF := ⟨0xa40028, 31, 16⟩
abbrev PWR_TJ_TJ : RF := ⟨0xa40028, 15, 0⟩
abbrev PWR_P_LIM_OC_INRUSH_MA (n : Nat) : RF := ⟨0xa40100 + 0x20 * n, 31, 16⟩
abbrev PWR_P_LIM_OC_MA (n : Nat) : RF := ⟨0xa40100 + 0x20 * n, 15, 0⟩
abbrev PWR_P_LIM_ALL (n : Nat) : RF := ⟨0xa40100 + 0x20 * n, 31, 0⟩
abbrev PWR_P_VWIN_OV_MV (n : Nat) : RF := ⟨0xa40104 + 0x20 * n, 31, 16⟩
abbrev PWR_P_VWIN_UV_MV (n : Nat) : RF := ⟨0xa40104 + 0x20 * n, 15, 0⟩
abbrev PWR_P_TIME_INRUSH_MS (n : Nat) : RF := ⟨0xa40108 + 0x20 * n, 7, 0⟩
abbrev PWR_P_OPEN_OPEN_MA (n : Nat) : RF := ⟨0xa4010c + 0x20 * n, 15, 0⟩
abbrev PWR_P_STAT_OPEN (n : Nat) : RF := ⟨0xa40110 + 0x20 * n, 17, 17⟩
abbrev PWR_P_STAT_PG (n : Nat) : RF := ⟨0xa40110 + 0x20 * n, 16, 16⟩
abbrev PWR_P_STAT_CAUSE (n : Nat) : RF := ⟨0xa40110 + 0x20 * n, 15, 8⟩
abbrev PWR_P_STAT_ATTEMPT (n : Nat) : RF := ⟨0xa40110 + 0x20 * n, 7, 3⟩
abbrev PWR_P_STAT_STATE (n : Nat) : RF := ⟨0xa40110 + 0x20 * n, 2, 0⟩
abbrev PWR_P_MEAS_MA (n : Nat) : RF := ⟨0xa40114 + 0x20 * n, 31, 16⟩
abbrev PWR_P_MEAS_MV (n : Nat) : RF := ⟨0xa40114 + 0x20 * n, 15, 0⟩
abbrev PWR_P_EVT_OPEN (n : Nat) : RF := ⟨0xa4011c + 0x20 * n, 3, 3⟩
abbrev PWR_P_EVT_PG (n : Nat) : RF := ⟨0xa4011c + 0x20 * n, 2, 2⟩
abbrev PWR_P_EVT_LATCHED (n : Nat) : RF := ⟨0xa4011c + 0x20 * n, 1, 1⟩
abbrev PWR_P_EVT_TRIP (n : Nat) : RF := ⟨0xa4011c + 0x20 * n, 0, 0⟩
abbrev PWM_EVT_FOLD_REJ : RF := ⟨0xa80000, 5, 4⟩
abbrev PWM_EVT_FOLD_FAULT : RF := ⟨0xa80000, 3, 2⟩
abbrev PWM_EVT_FOLD_DONE : RF := ⟨0xa80000, 1, 0⟩
abbrev PWM_CH_CFG_CTX (k : Nat) : RF := ⟨0xa80100 + 0x10 * k, 21, 8⟩
abbrev PWM_CH_CFG_GEN (k : Nat) : RF := ⟨0xa80100 + 0x10 * k, 7, 3⟩
abbrev PWM_CH_CFG_POL (k : Nat) : RF := ⟨0xa80100 + 0x10 * k, 2, 2⟩
abbrev PWM_CH_CFG_MODE (k : Nat) : RF := ⟨0xa80100 + 0x10 * k, 1, 0⟩
abbrev PWM_CH_PER_PER (k : Nat) : RF := ⟨0xa80104 + 0x10 * k, 31, 0⟩
abbrev PWM_CH_LIM_LIM (k : Nat) : RF := ⟨0xa80108 + 0x10 * k, 15, 0⟩
abbrev PWM_CH_DUTY_DUTY (k : Nat) : RF := ⟨0xa8010c + 0x10 * k, 15, 0⟩
abbrev FOLD_CFG_DUTY (m : Nat) : RF := ⟨0xa80200 + 0x20 * m, 7, 0⟩
abbrev FOLD_LIM_OC_MA (m : Nat) : RF := ⟨0xa80204 + 0x20 * m, 31, 16⟩
abbrev FOLD_LIM_STALL_MA (m : Nat) : RF := ⟨0xa80204 + 0x20 * m, 15, 0⟩
abbrev FOLD_VMAX_UNKNOWN_OK (m : Nat) : RF := ⟨0xa80208 + 0x20 * m, 16, 16⟩
abbrev FOLD_VMAX_VMAX (m : Nat) : RF := ⟨0xa80208 + 0x20 * m, 15, 0⟩
abbrev FOLD_STAT_MA (m : Nat) : RF := ⟨0xa80210 + 0x20 * m, 31, 16⟩
abbrev FOLD_STAT_STATE (m : Nat) : RF := ⟨0xa80210 + 0x20 * m, 2, 0⟩
abbrev TWB_CFG_ARB_RETRY (i : Nat) : RF := ⟨0xb00004 + 0x1000 * i, 23, 20⟩
abbrev TWB_STAT_ARB_BYTE (i : Nat) : RF := ⟨0xb00010 + 0x1000 * i, 31, 24⟩
abbrev TWB_STAT_ARB_BIT (i : Nat) : RF := ⟨0xb00010 + 0x1000 * i, 23, 21⟩
abbrev TWB_STAT_ALERT (i : Nat) : RF := ⟨0xb00010 + 0x1000 * i, 4, 4⟩
abbrev TWB_STAT_STATE (i : Nat) : RF := ⟨0xb00010 + 0x1000 * i, 3, 0⟩
abbrev TWB_CNT_NACK (i : Nat) : RF := ⟨0xb00014 + 0x1000 * i, 31, 24⟩
abbrev TWB_CNT_ARB_LOST (i : Nat) : RF := ⟨0xb00014 + 0x1000 * i, 23, 16⟩
abbrev TWB_CNT_TIMEOUT (i : Nat) : RF := ⟨0xb00014 + 0x1000 * i, 15, 8⟩
abbrev TWB_CNT_RECOVER (i : Nat) : RF := ⟨0xb00014 + 0x1000 * i, 7, 0⟩
abbrev TWB_CNT2_PROTO_ERR (i : Nat) : RF := ⟨0xb00018 + 0x1000 * i, 31, 16⟩
abbrev TWB_CNT2_STUCK (i : Nat) : RF := ⟨0xb00018 + 0x1000 * i, 15, 8⟩
abbrev TWB_CNT2_WAKE (i : Nat) : RF := ⟨0xb00018 + 0x1000 * i, 7, 0⟩
abbrev TWB_EVT_WAKE (i : Nat) : RF := ⟨0xb00020 + 0x1000 * i, 6, 6⟩
abbrev TWB_EVT_PEC_ERR (i : Nat) : RF := ⟨0xb00020 + 0x1000 * i, 5, 5⟩
abbrev TWB_EVT_PROTO_ERR (i : Nat) : RF := ⟨0xb00020 + 0x1000 * i, 4, 4⟩
abbrev TWB_EVT_BUS_STUCK (i : Nat) : RF := ⟨0xb00020 + 0x1000 * i, 3, 3⟩
abbrev TWB_EVT_TIMEOUT (i : Nat) : RF := ⟨0xb00020 + 0x1000 * i, 2, 2⟩
abbrev TWB_EVT_ARB_FAIL (i : Nat) : RF := ⟨0xb00020 + 0x1000 * i, 1, 1⟩
abbrev TWB_EVT_NACK (i : Nat) : RF := ⟨0xb00020 + 0x1000 * i, 0, 0⟩
abbrev TWB_T_CFG_WAKE (t : Nat) : RF := ⟨0xb15004 + 0x1000 * t, 1, 1⟩
abbrev TWB_T_CFG_PEC (t : Nat) : RF := ⟨0xb15004 + 0x1000 * t, 0, 0⟩
abbrev TWB_T_ADDR_MASK (t : Nat) : RF := ⟨0xb15008 + 0x1000 * t, 22, 16⟩
abbrev TWB_T_ADDR_ADDR2_EN (t : Nat) : RF := ⟨0xb15008 + 0x1000 * t, 15, 15⟩
abbrev TWB_T_ADDR_ADDR2 (t : Nat) : RF := ⟨0xb15008 + 0x1000 * t, 14, 8⟩
abbrev TWB_T_ADDR_ADDR (t : Nat) : RF := ⟨0xb15008 + 0x1000 * t, 6, 0⟩
abbrev TWB_T_ALERT_SEL_SRC1 (t : Nat) : RF := ⟨0xb1500c + 0x1000 * t, 26, 16⟩
abbrev TWB_T_ALERT_SEL_SRC0 (t : Nat) : RF := ⟨0xb1500c + 0x1000 * t, 10, 0⟩
abbrev BRG_CFG_COMPAT : RF := ⟨0xc00000, 31, 31⟩
abbrev BRG_CFG_RETRY_MAX : RF := ⟨0xc00000, 23, 14⟩
abbrev BRG_CFG_LEASE_US : RF := ⟨0xc00000, 13, 0⟩
abbrev BRG_EVT_SEM_EXPIRED : RF := ⟨0xc00008, 3, 3⟩
abbrev BRG_EVT_PF_DISCARD : RF := ⟨0xc00008, 2, 2⟩
abbrev BRG_EVT_READ_FAIL : RF := ⟨0xc00008, 1, 1⟩
abbrev BRG_EVT_POSTED_FAIL : RF := ⟨0xc00008, 0, 0⟩
abbrev BRG_PF_DISCARD_ADDR_ADDR : RF := ⟨0xc0000c, 31, 0⟩
abbrev BRG_PF_CNT_DISCARD : RF := ⟨0xc00010, 31, 16⟩
abbrev BRG_PF_CNT_HIT : RF := ⟨0xc00010, 15, 0⟩
abbrev BRG_CNT_POSTED_FAIL : RF := ⟨0xc00014, 31, 16⟩
abbrev BRG_CNT_READ_FAIL : RF := ⟨0xc00014, 15, 0⟩
abbrev BRG_RETRY_CNT_SENT : RF := ⟨0xc00018, 31, 16⟩
abbrev BRG_RETRY_CNT_RECEIVED : RF := ⟨0xc00018, 15, 0⟩
abbrev BRG_LAST_TAG_BTAG (o : Nat) : RF := ⟨0xc00020 + 0x4 * o, 15, 0⟩
abbrev BRG_LAST_TAG_ALL (o : Nat) : RF := ⟨0xc00020 + 0x4 * o, 31, 0⟩
abbrev BRG_SEM_STAT_LAST_REL (w : Nat) : RF := ⟨0xc00104 + 0x8 * w, 31, 30⟩
abbrev BRG_SEM_STAT_REMAIN_US (w : Nat) : RF := ⟨0xc00104 + 0x8 * w, 29, 16⟩
abbrev BRG_SEM_STAT_HELD (w : Nat) : RF := ⟨0xc00104 + 0x8 * w, 8, 8⟩
abbrev BRG_SEM_STAT_FID (w : Nat) : RF := ⟨0xc00104 + 0x8 * w, 7, 3⟩
abbrev BRG_SEM_STAT_ORIG (w : Nat) : RF := ⟨0xc00104 + 0x8 * w, 2, 0⟩
abbrev BRG_SEM_STAT_ALL (w : Nat) : RF := ⟨0xc00104 + 0x8 * w, 31, 0⟩
abbrev BRG_SLOT_AW16 (p s : Nat) : RF := ⟨0xc00400 + 0x40 * p + 0x4 * s, 8, 8⟩
abbrev BRG_SLOT_VALID (p s : Nat) : RF := ⟨0xc00400 + 0x40 * p + 0x4 * s, 7, 7⟩
abbrev BRG_SLOT_ADDR7 (p s : Nat) : RF := ⟨0xc00400 + 0x40 * p + 0x4 * s, 6, 0⟩
abbrev BRG_WIN_W0_INDEX (e : Nat) : RF := ⟨0xc01000 + 0x10 * e, 15, 8⟩
abbrev BRG_WIN_W0_PREFETCH_OK (e : Nat) : RF := ⟨0xc01000 + 0x10 * e, 2, 2⟩
abbrev BRG_WIN_W0_KIND (e : Nat) : RF := ⟨0xc01000 + 0x10 * e, 1, 1⟩
abbrev BRG_WIN_W0_VALID (e : Nat) : RF := ⟨0xc01000 + 0x10 * e, 0, 0⟩
abbrev BRG_WIN_RIGHTS_RIGHTS (e : Nat) : RF := ⟨0xc01004 + 0x10 * e, 31, 0⟩
abbrev BRG_WIN_START_START (e : Nat) : RF := ⟨0xc01008 + 0x10 * e, 31, 0⟩
abbrev BRG_WIN_LEN_LENGTH (e : Nat) : RF := ⟨0xc0100c + 0x10 * e, 31, 0⟩
abbrev RSV_CFG_ECC_ROW_THR : RF := ⟨0xd00000, 15, 8⟩
abbrev RSV_CFG_AUTO : RF := ⟨0xd00000, 16, 16⟩
abbrev RSV_SLICE_MAP_PHYS : RF := ⟨0xd00004, 14, 0⟩
abbrev RSV_SLICE_MAP_ALL : RF := ⟨0xd00004, 31, 0⟩
abbrev RSV_PLL_MAP_MAP : RF := ⟨0xd00008, 31, 0⟩
abbrev RSV_PLL_MAP_ALL : RF := ⟨0xd00008, 31, 0⟩
abbrev RSV_LEFT_ALL : RF := ⟨0xd0000c, 31, 0⟩
abbrev RSV_AGE_ISLAND : RF := ⟨0xd00010, 21, 16⟩
abbrev RSV_AGE_DRIFT : RF := ⟨0xd00010, 15, 0⟩
abbrev RSV_AGE_ALL : RF := ⟨0xd00010, 31, 0⟩
abbrev RSV_TEST_STARVED : RF := ⟨0xd00014, 31, 31⟩
abbrev RSV_TEST_FAIL : RF := ⟨0xd00014, 30, 16⟩
abbrev RSV_TEST_DONE : RF := ⟨0xd00014, 15, 0⟩
abbrev RSV_EVT_TEST_FAIL : RF := ⟨0xd00020, 3, 3⟩
abbrev RSV_EVT_EXHAUSTED : RF := ⟨0xd00020, 2, 2⟩
abbrev RSV_EVT_REPLACED : RF := ⟨0xd00020, 1, 1⟩
abbrev RSV_EVT_WEAR : RF := ⟨0xd00020, 0, 0⟩
abbrev JNL_CFG_MAX_RPS : RF := ⟨0xd10000, 15, 0⟩
abbrev JNL_STAT_OK : RF := ⟨0xd10004, 31, 31⟩
abbrev JNL_STAT_SIZE_MBIT : RF := ⟨0xd10004, 6, 0⟩
abbrev JNL_SEQ_ALL : RF := ⟨0xd10008, 31, 0⟩
abbrev JNL_PTR_ALL : RF := ⟨0xd1000c, 31, 0⟩
abbrev JNL_DROP_COUNT : RF := ⟨0xd10010, 31, 0⟩
abbrev JNL_EVT_DROP : RF := ⟨0xd10014, 1, 1⟩
abbrev JNL_EVT_FAIL : RF := ⟨0xd10014, 0, 0⟩
abbrev MNT_STAT_WINDOW_S : RF := ⟨0xd20000, 31, 22⟩
abbrev MNT_STAT_ORIG : RF := ⟨0xd20000, 21, 20⟩
abbrev MNT_STAT_SESSION : RF := ⟨0xd20000, 19, 19⟩
abbrev MNT_STAT_WINDOW : RF := ⟨0xd20000, 18, 18⟩
abbrev MNT_STAT_ARMED : RF := ⟨0xd20000, 17, 17⟩
abbrev MNT_STAT_DEBUG : RF := ⟨0xd20000, 16, 16⟩
abbrev MNT_STAT_FLAGS : RF := ⟨0xd20000, 15, 12⟩
abbrev MNT_STAT_LAST_RESULT : RF := ⟨0xd20000, 7, 0⟩
abbrev MNT_NONCE_NONCE (i : Nat) : RF := ⟨0xd20010 + 0x4 * i, 31, 0⟩
abbrev MNT_CTRL_OPEN : RF := ⟨0xd20020, 0, 0⟩
abbrev MNT_FLASH_CMD_ALL : RF := ⟨0xd20024, 31, 0⟩
abbrev MNT_FLASH_STAT_BUSY : RF := ⟨0xd20028, 31, 31⟩
abbrev MNT_FLASH_STAT_CAUSE : RF := ⟨0xd20028, 15, 8⟩
abbrev MNT_FLASH_STAT_RESULT : RF := ⟨0xd20028, 7, 0⟩
abbrev MNT_SAFE_SAFE : RF := ⟨0xd20030, 31, 31⟩
abbrev MNT_SAFE_UNIT : RF := ⟨0xd20030, 15, 8⟩
abbrev MNT_SAFE_CODE : RF := ⟨0xd20030, 7, 0⟩
abbrev MNT_PARK_WAKE_CMP : RF := ⟨0xd20034, 1, 1⟩
abbrev MNT_PARK_GO : RF := ⟨0xd20034, 0, 0⟩
abbrev MNT_EVT_FLASH_DONE : RF := ⟨0xd20040, 3, 3⟩
abbrev MNT_EVT_SESSION_END : RF := ⟨0xd20040, 2, 2⟩
abbrev MNT_EVT_SESSION_OPEN : RF := ⟨0xd20040, 1, 1⟩
abbrev MNT_EVT_PRESENCE : RF := ⟨0xd20040, 0, 0⟩
abbrev MNT_REQ_ALL (i : Nat) : RF := ⟨0xd20100 + 0x4 * i, 31, 0⟩
abbrev MNT_BUF_ALL (i : Nat) : RF := ⟨0xd21000 + 0x4 * i, 31, 0⟩
abbrev SVC_STAT_CHKPT_US : RF := ⟨0xd30000, 31, 16⟩
abbrev SVC_STAT_PAIR_B : RF := ⟨0xd30000, 10, 8⟩
abbrev SVC_STAT_PAIR_A : RF := ⟨0xd30000, 6, 4⟩
abbrev SVC_STAT_FAILED : RF := ⟨0xd30000, 2, 0⟩
abbrev SVC_EVT_TAKEOVER : RF := ⟨0xd30004, 1, 1⟩
abbrev SVC_EVT_PAIR_FAIL : RF := ⟨0xd30004, 0, 0⟩

end Sys2Proof.Machine
end

