-- ==== Sys2Proof/Config.lean ====
section
/-! DEFINITION. What the spec leaves free: constants without a body, so that nothing can lean on a value of one. -/

namespace Sys2Proof.Config

/-- The k-th number that the device's random source yields: session nonces (R431), retry delays (R379) and whatever
else the spec calls random. Applied to the counter State.freeCount. Log entry 2. -/
opaque freeNat : Nat → Nat

/-- The k-th value of a result the spec does not state (log entry 3). -/
opaque freeWord : Nat → Nat

/-- SRAM rows that the spares of R417 come to; the spec does not count the macros. Log entry 8. -/
opaque sramSpareRows : Nat

/-- DRAM rows in the top 1/64 of the channels (R417); the spec does not state a row's size. Log entry 8. -/
opaque dramSpareRows : Nat

/-- FRAME_US of a stream that the device only forwards, by originator and stream: nothing that reaches the device states
it (R145, R397). Log entry 78. -/
opaque forwardedUs : Nat → Nat → Nat

/-- The SRAM row, as macro × 2^16 + row, that holds the pointer set of a queue (R280), and the one that a slice reads a
table word from at a stage and lane (R179, R207); the DRAM row, as bank × 2^16 + row, that a queue spills to (R281); which
of the two CRC engines that disagree is the bad one (R227). The spec places none of them. Log entry 124. -/
opaque pointerRow : Nat → Nat
opaque tableRow : Nat → Nat → Nat → Nat
opaque spillRow : Nat → Nat
opaque badEngine : Nat

end Sys2Proof.Config
end

