-- ==== Sys2Proof/Machine/Sparse.lean ====
section
/-! DEFINITION. Sparse data by key: a list of (key, value) pairs in one canonical form, keys strictly rising and no
entry equal to the default that an unlisted key reads as. Registers, memories, and everything the spec numbers
(ports, contexts, queues, channels) are held this way, so equal contents are equal data. -/

namespace Sys2Proof.Machine

/-- Sparse data: (key, value) pairs. -/
abbrev Sparse (α : Type) := List (Nat × α)

/-- The value at a key: the listed one, else the default. -/
def sget {α : Type} (d : Nat → α) : Sparse α → Nat → α
  | [], k => d k
  | (a, v) :: m, k => if a = k then v else sget d m k

/-- The pairs without the key. -/
def sdel {α : Type} (m : Sparse α) (k : Nat) : Sparse α := m.filter (fun p => p.1 ≠ k)

/-- The pairs with the value at the key replaced or inserted in order. -/
def sins {α : Type} (k : Nat) (v : α) : Sparse α → Sparse α
  | [] => [(k, v)]
  | (a, b) :: m =>
    if k < a then (k, v) :: (a, b) :: m else if a = k then (k, v) :: m else (a, b) :: sins k v m

/-- Write a value: writing the default removes the entry, so the canonical form stands. -/
def sset {α : Type} [DecidableEq α] (d : Nat → α) (m : Sparse α) (k : Nat) (v : α) : Sparse α :=
  if v = d k then sdel m k else sins k v m

/-- Change the value at a key by a function. -/
def smod {α : Type} [DecidableEq α] (d : Nat → α) (m : Sparse α) (k : Nat) (g : α → α) : Sparse α :=
  sset d m k (g (sget d m k))

/-- Keys strictly rising from above `lo`. -/
def risingFrom {α : Type} : Nat → Sparse α → Bool
  | _, [] => true
  | lo, (a, _) :: m => decide (lo ≤ a) && risingFrom (a + 1) m

/-- The canonical form: keys strictly rising, and no entry equal to the default. -/
def swf {α : Type} [DecidableEq α] (d : Nat → α) (m : Sparse α) : Bool :=
  risingFrom 0 m && m.all (fun p => decide (p.2 ≠ d p.1))

/-- A byte memory. -/
abbrev Mem := Sparse Nat

/-- What a byte that nothing has written reads as in the device's RAMs (line store, table regions, buffers): 0.
DESIGN CHOICE (log entry 5), unsafe. -/
def ramDefault : Nat → Nat := fun _ => 0

/-- What an erased byte of flash and journal memory reads as. PRESUMED (log entry 6): NOR flash erases to 0xFF. -/
def flashDefault : Nat → Nat := fun _ => 0xFF

/-- `n` bytes from address `a`. -/
def memRead (d : Nat → Nat) (m : Mem) : Nat → Nat → List Nat
  | _, 0 => []
  | a, n + 1 => sget d m a :: memRead d m (a + 1) n

/-- Write bytes from address `a` upward. -/
def memWrite (d : Nat → Nat) : Mem → Nat → List Nat → Mem
  | m, _, [] => m
  | m, a, b :: bs => memWrite d (sset d m a (b % 256)) (a + 1) bs

end Sys2Proof.Machine
end

