-- ==== Sys2Proof/Machine/Variant.lean ====
section
/-! DEFINITION. The three variants (R1) and which units each has (GLB_CAP0, GLB_CAP1, R33). -/

namespace Sys2Proof.Machine

/-- The variants of the family (R1). -/
inductive Variant where
  | cv9616 | cv9612 | cv9608
deriving DecidableEq, Repr

/-- The value for the variant, in the manual's order CV9616, CV9612, CV9608. -/
def pick3 {α : Type} (v : Variant) (a b c : α) : α :=
  match v with
  | .cv9616 => a
  | .cv9612 => b
  | .cv9608 => c

/-- GLB_ID.PART. -/
def partOf (v : Variant) : Nat := pick3 v 0x9616 0x9612 0x9608

/-- GLB_CAP0.CP_PRESENT: camera ports. -/
def cpMask (v : Variant) : Nat := pick3 v 0xFFFFF 0xF0FFF 0x300FF
/-- GLB_CAP0.PIX_PRESENT: physical pixel slices. -/
def pixMask (v : Variant) : Nat := pick3 v 0x3F 0x0F 0x07
/-- GLB_CAP0.HP_PRESENT: host ports. -/
def hpMask (v : Variant) : Nat := pick3 v 3 3 1
/-- GLB_CAP0.ETH_PRESENT. -/
def ethMask (v : Variant) : Nat := pick3 v 3 1 1
/-- GLB_CAP0.POS_PRESENT: the motion unit. -/
def posPresent (v : Variant) : Bool := pick3 v true true false
/-- GLB_CAP1.WP_PRESENT: weave ports. -/
def wpMask (v : Variant) : Nat := pick3 v 0xF 0x3 0
/-- GLB_CAP1.TX_PRESENT: CSI-2 transmit ports. -/
def txMask (v : Variant) : Nat := pick3 v 3 3 1
/-- GLB_CAP1.DDR_PRESENT. -/
def ddrMask (v : Variant) : Nat := pick3 v 3 3 1
/-- GLB_CAP1.FABRIC_OK and RELAY_OK. -/
def fabricOk (v : Variant) : Bool := pick3 v true true false
/-- GLB_CAP1.CTX_KI × 1,024: stream contexts. -/
def ctxCount (v : Variant) : Nat := pick3 v 16384 16384 8192
/-- Active logical slices (the present slices less the reserve, R1). -/
def activeSlices (v : Variant) : Nat := pick3 v 5 3 2
/-- The bit of the part in an image's VARIANTS byte (R40). -/
def variantBit (v : Variant) : Nat := pick3 v 0 1 2

def cpPresent (v : Variant) (p : Nat) : Bool := (cpMask v).testBit p
def pixPresent (v : Variant) (n : Nat) : Bool := (pixMask v).testBit n
def hpPresent (v : Variant) (p : Nat) : Bool := (hpMask v).testBit p
def ethPresent (v : Variant) (p : Nat) : Bool := (ethMask v).testBit p
def wpPresent (v : Variant) (p : Nat) : Bool := (wpMask v).testBit p
def txPresent (v : Variant) (p : Nat) : Bool := (txMask v).testBit p

/-- Whether a camera port is an A-PHY port (CP0–CP15), else a local CSI-2 port (R14). -/
def isAphy (p : Nat) : Bool := decide (p < 16)

/-- GLB_ISL_PRESENT as one 40-bit number (R18). -/
def islMask (v : Variant) : Nat := pick3 v 0xFFFFFFFFFF 0xF3F3FC3FFF 0xF071CC03FF
def islPresent (v : Variant) (i : Nat) : Bool := (islMask v).testBit i

/-- GLB_CAP0 and GLB_CAP1 (R33). -/
def cap0 (v : Variant) : Nat :=
  (if posPresent v then 2 ^ 30 else 0) + ethMask v * 2 ^ 28 + hpMask v * 2 ^ 26 + pixMask v * 2 ^ 20 + cpMask v
def cap1 (v : Variant) : Nat :=
  (if fabricOk v then 3 * 2 ^ 20 else 0) + 3 * 2 ^ 16 + ctxCount v / 1024 * 2 ^ 8 + ddrMask v * 2 ^ 6
    + txMask v * 2 ^ 4 + wpMask v

/-- Islands by number (R18). -/
def islAO : Nat := 0
def islTIME : Nat := 1
def islCP (p : Nat) : Nat := 2 + p
def islPIX (n : Nat) : Nat := 22 + n
def islCORE : Nat := 28
def islMEM : Nat := 29
def islHL (p : Nat) : Nat := 30 + p
def islWV (p : Nat) : Nat := 32 + p
def islETH : Nat := 36
def islPOS : Nat := 37
def islSVC : Nat := 38
def islTX : Nat := 39

end Sys2Proof.Machine
end

