-- ==== Sys2Proof/Machine/StateParts.lean ====
section
/-! DEFINITION. The parts of the state that are not registers: what the spec's units hold besides their registers.
Every type is plain data. -/

namespace Sys2Proof.Machine
open Sys2Proof

/-- What fuses, ROM and the board fix for one device; it survives reset (R33, R60, R419, R434, R445). -/
structure Chip where
  variant : Variant
  /-- GLB_VER.ROM_VER. -/
  romVer : Nat
  dieMajor : Nat
  dieMinor : Nat
  /-- the 64-bit unique ID (GLB_UID). -/
  uid : Nat
  /-- public-key hash fuses, 32 bytes; none while blank (R60). -/
  keyHash : Option (List Nat)
  /-- the DEBUG_LOCK fuse is blown (R434). -/
  debugLock : Bool
  /-- bytes of Pattern flash the board carries (R38); 0 if it does not answer (R39). -/
  flashBytes : Nat
  /-- bytes of DRAM on the board (R126). -/
  dramBytes : Nat
  /-- journal memory in Mbit, 0 if none answers (R423). -/
  journalMbit : Nat
  /-- ageing-sensor frequency of every island that production test blew into fuses (R419). -/
  ageBase : Nat
deriving DecidableEq, Repr

/-- Driven levels of the device's own pins (R442). -/
structure Pins where
  /-- the crystal is stable (R445). -/
  crystal : Bool
  /-- TADDR[1:0] as sampled at reset release (R362, R446). -/
  taddr : Nat
  /-- SAFE_N is high. -/
  safeN : Bool
  /-- INT_N is driven low (R297). -/
  intLow : Bool
  /-- the internal interrupt line of target 3 (R297). -/
  svcLine : Bool
  /-- ALERT_N is driven low (R369). -/
  alertLow : Bool
  /-- RLY_FENCE_O_N is driven low (R410). -/
  fenceLow : Bool
  /-- RLY_HB_O level (R407). -/
  hbOut : Bool
  /-- POC_EN_Pn, bit n: port n's coax power is enabled (R346). -/
  pocEn : Nat
  /-- local GPIO and tunnelled GPIO levels, bit 4 × p + line (R476). -/
  gpio : Nat
  /-- PWM_Pk active, bit k (R350). -/
  pwm : Nat
  /-- FOLD_Pm_IN1 and _IN2, bits 2m and 2m + 1 (R351). -/
  fold : Nat
deriving DecidableEq, Repr

/-- What the device puts on its links, buses and pins, oldest first: nothing in the device reads it back. -/
inductive Emit where
  /-- a register read's answer to its originator. -/
  | readData (o : Orig) (addr value : Nat)
  /-- an MSI-X message on a host port (R296). -/
  | msix (port vector : Nat)
  /-- a write to host memory by DMA: port, host address, bytes, and attributes (bit 0 Relaxed Ordering, bit 1 No Snoop,
  bits [4:2] traffic class). -/
  | hostWrite (port addr : Nat) (bytes : List Nat) (attr : Nat)
  /-- a read request to host memory: port, host address, length, traffic class. -/
  | hostRead (port addr len tc : Nat)
  /-- a two-wire write: instance, address, bytes. -/
  | busWrite (inst addr7 : Nat) (bytes : List Nat)
  /-- a two-wire read: instance, address, bytes written first, length read. -/
  | busRead (inst addr7 : Nat) (first : List Nat) (len : Nat)
  /-- bytes a two-wire target returns. -/
  | targetData (inst : Nat) (bytes : List Nat)
  /-- a weave block: port, header word (R388), payload. -/
  | block (port header : Nat) (payload : List Nat) (crc : Nat)
  /-- an Ethernet frame: port, kind of message, content. -/
  | ethFrame (port kind : Nat) (content : List Nat)
  /-- a CSI-2 packet: transmit port, virtual channel, data type, payload. -/
  | csi2 (port vc dt : Nat) (payload : List Nat)
  /-- a message on an A-PHY uplink: port, kind (0 GPIO, 1 echo), value. -/
  | uplink (port kind value : Nat)
  /-- a pin of the device changed: pin group, number, level. -/
  | pin (group number level : Nat)
deriving DecidableEq, Repr

/-- A committed packet of a queue (R266, R269). -/
structure Pkt where
  seq : Nat
  words : List Nat
  /-- the read port that claims it (R276). -/
  claim : Option Nat
deriving DecidableEq, Repr

/-- A packet being written (R268). -/
structure OpenPkt where
  producer : Nat
  mark : Nat
  words : List Nat
deriving DecidableEq, Repr

/-- A producer that waits while another's packet is open (R270): a whole packet of a hardware producer (and whether it
is a copy, R274), with the event bits that it sets once the packet has committed, or a producer that has asked to open one
and writes it word by word. -/
structure Waiter where
  producer : Nat
  words : Option (List Nat)
  isCopy : Bool
  evts : List RF
deriving DecidableEq, Repr

/-- What a queue holds besides its registers (R263–R281). -/
structure QueueSt where
  pkts : List Pkt
  opn : Option OpenPkt
  /-- producers that wait for the open packet, first come first served. -/
  waiting : List Waiter
  /-- write position, in words, modulo the capacity. -/
  wpos : Nat
  /-- sequence number of the last committed packet. -/
  seq : Nat
  /-- a packet was lost after the previous valid header read (R267). -/
  lostSince : Bool
  /-- words held in DRAM (R264). -/
  dram : Nat
deriving DecidableEq, Repr

/-- What a read port holds besides its registers (R276). -/
structure PortSt where
  /-- queue and sequence number of the claimed packet. -/
  claim : Option (Nat × Nat)
  /-- words of the claim not yet read. -/
  rest : List Nat
deriving DecidableEq, Repr

/-- A sensor script (R49). -/
structure Script where
  id : Nat
  role : Nat
  ports : Nat
  period : Nat
  code : List Nat
deriving DecidableEq, Repr

/-- A profile's header (R57). -/
structure Profile where
  index : Nat
  speedUsed : Bool
  modeValue : Nat
  modeMask : Nat
  speedLo : Nat
  speedHi : Nat
  hyst : Nat
  dwell : Nat
deriving DecidableEq, Repr

/-- A SERVICE record that the loader keeps (R56): key, value, and where it stood (R474), with its first word. -/
structure Service where
  key : Nat
  value : List Nat
  section_ : Nat
  record : Nat
  word : Nat
deriving DecidableEq, Repr

/-- How far the loader is (R64). -/
inductive LoadPhase where
  /-- before reset release. -/
  | held
  /-- waiting for the header of a slot (R64 step 2). -/
  | header
  /-- hashing and verifying (step 5). -/
  | verify
  /-- checking records (step 7). -/
  | records
  /-- cross-field checks (step 8). -/
  | cross
  /-- waiting to request the load's swap (step 9). -/
  | swap
  /-- running. -/
  | run
deriving DecidableEq, Repr

/-- What the loader and profile selection hold besides their registers. -/
structure LdrSt where
  phase : LoadPhase
  /-- slot being tried or loaded: 0 A, 1 B, 2 ROM pattern. -/
  slot : Nat
  /-- this load is a maintenance RELOAD (R433). -/
  reload : Bool
  /-- DRAM training is complete (R265). -/
  trained : Bool
  /-- load-report entries kept until DRAM training completes (R265). -/
  held : List (List Nat)
  /-- entries of this load or checked swap so far (R67), and whether it has dropped an item, a hold or a context. -/
  entries : Nat
  dropped : Bool
  /-- entries of the present owner's own writes since it took the bank (R67). -/
  ownEntries : Nat
  scripts : List Script
  services : List Service
  profiles : List Profile
  profileCount : Nat
  defaultProfile : Nat
  /-- the checked set of each profile, by index (R57, R68). -/
  profSets : Sparse (Sparse Word)
  /-- the LIVE words each profile's delta records write (R84). -/
  profLive : Sparse (Sparse Word)
  /-- and the bits of those words that they name. -/
  profMask : Sparse (Sparse Word)
  /-- base set after its checks. -/
  baseSet : Sparse Word
  /-- the last record that wrote each word of the base set, and of each profile set by its deltas (R474): order among
  all writes × 2^64 + section × 2^32 + record; 0 of a word that no record wrote. -/
  origin : Sparse Nat
  profOrigin : Sparse (Sparse Nat)
  /-- writes by records so far, and windows stored (R371). -/
  writes : Nat
  windows : Nat
  /-- blob destinations: first address, length, kind, element count (R48, R157). -/
  blobs : List (Nat × Nat × Nat × Nat)
  /-- internal writers waiting for the basting bank (R74). -/
  waiting : List Writer
  /-- when the present owner took the bank (R75). -/
  ownerSince : Nat
  /-- who requested the swap in progress, and the profile it brings. -/
  swapBy : Writer
  swapProfile : Nat
  swapStart : Nat
  /-- the swap timeout has acted on the present swap (R81). -/
  swapForced : Bool
  /-- LOADED is due at the completion of this swap. -/
  loadSwap : Bool
  /-- the first swap after reset has completed, so LOADED has been set (R65). -/
  loaded : Bool
  /-- profile selection runs (R86). -/
  selecting : Bool
  /-- when the candidate was first given (R85). -/
  candSince : Nat
  /-- MODE debounce: value being counted and consecutive samples of it (R85). -/
  modeCand : Nat
  modeRun : Nat
deriving DecidableEq, Repr

/-- What the journal controller and the service cores hold for journalling (R423–R426). -/
structure JnlSt where
  /-- records waiting to be journalled by the service cores: type and payload (R67, R305). -/
  pend : List (Nat × List Nat)
  /-- start of the present second and records written in it (R426). -/
  secStart : Nat
  secCount : Nat
  /-- records dropped in this second, by TYPE. -/
  dropped : Sparse Nat
  /-- which superblock copy and which state-area copy the next write goes to (R424, R425). -/
  superTurn : Nat
  stateTurn : Nat
  /-- SEC of the latest anchor, low 32 bits (R315, R426). -/
  anchorSec : Nat
  /-- SEQ of the state area (R425). -/
  areaSeq : Nat
  /-- the sticky fabric ID and the table of members' UIDs (R394, R425). -/
  stickyFid : Option Nat
  fidTable : Sparse Nat
deriving DecidableEq, Repr

/-- What a host port holds besides its registers (R234–R262). -/
structure HostPortSt where
  /-- MSI-X Enable and Function Mask of the MSI-X capability (R238). -/
  msixEnable : Bool
  funcMask : Bool
  /-- source recorded with each pending message, by vector (R296). -/
  msixSrc : Sparse Nat
  /-- the host has set Max_Payload_Size to 256 bytes (R234), else 128. -/
  payload256 : Bool
  /-- the low watermark is armed (R259). -/
  lwmArmed : Bool
  /-- the channel, by its number in the port, that drained last (R258). -/
  lastChan : Nat
  /-- context, slot and frame serial of the running replay (R260). -/
  replay : Option (Nat × Nat × Nat)
  /-- the rate that the port's PCIe Link Status register gives (R235), in units of 0.1 GT/s; 0 while the link is down. -/
  linkRate : Nat
  /-- reads that wait because 256 are outstanding (R234): channel, direction (0 ring, 1 list, 2 flush), address, length,
  traffic class. -/
  heldReads : List (Nat × Nat × Nat × Nat × Nat)
deriving DecidableEq, Repr

/-- A host port after reset: the MSI-X capability at its PCIe reset values (R238). -/
def resetHostPort : HostPortSt := { msixEnable := false, funcMask := false, msixSrc := [], payload256 := false, lwmArmed := false, lastChan := 127, replay := none, linkRate := 0, heldReads := [] }

/-! ## Two-wire transactions -/

/-- Whose transaction a controller executes (R357). -/
inductive TxnOwner where
  /-- a run of a script on a camera port (R49), by its serial number. -/
  | script (p run : Nat)
  /-- the exposure loop of a context (R206). -/
  | loop (c : Nat)
  /-- a bridged access, by its serial number (R374). -/
  | bridge (n : Nat)
  /-- the core-voltage service (R449), by its step. -/
  | vcore (step : Nat)
deriving DecidableEq, Repr

/-- One controller transaction: an address, the bytes written, and the number of bytes read after a repeated START. -/
structure Txn where
  owner : TxnOwner
  addr7 : Nat
  wr : List Nat
  rdLen : Nat
deriving DecidableEq, Repr

/-- What a two-wire controller holds besides its registers (R357–R361). -/
structure TwbSt where
  /-- waiting transactions of the service cores and of the bridge, first come first served. -/
  svcQ : List Txn
  brgQ : List Txn
  /-- the transaction on the bus. -/
  cur : Option Txn
  /-- arbitration losses of the transaction at hand (R361). -/
  losses : Nat
deriving DecidableEq, Repr

/-! ## Camera ports and frames -/

/-- Why a running script waits (R50). -/
inductive ScriptWait where
  | ready
  /-- for a two-wire transfer. -/
  | bus
  /-- for the byte that its RDCMP compares. -/
  | compare
  /-- for its DELAY. -/
  | delay
  /-- for link lock; the code offset to continue at if the timeout elapses. -/
  | lock (fail : Nat)
deriving DecidableEq, Repr

/-- A running script: its serial number on its port, its role and code, the offset of the next instruction, instructions executed, and
the LOOP counters by code offset (R50, R52). -/
structure Run where
  id : Nat
  role : Nat
  code : List Nat
  pc : Nat
  count : Nat
  loops : Sparse Nat
  wait : ScriptWait
deriving DecidableEq, Repr

/-- A trigger handed to a port (R114–R118, R322). -/
structure TrigSt where
  /-- scheduled time T, or the time of sending plus LEAD if late (R117), on the 64-bit counter. -/
  time : Nat
  epoch : Nat
  /-- scheduled time T on the 64-bit counter, by which the members of a sync group share a trigger (R138). -/
  key : Nat
  late : Bool
  /-- the assert message has been sent. -/
  sent : Bool
  /-- a frame start has been associated with it. -/
  taken : Bool
  /-- contexts with a triggered entry that no frame start has served yet. -/
  ctxs : List Nat
  /-- exposure midpoint by context (R322). -/
  mids : List (Nat × Nat)
deriving DecidableEq, Repr

/-- A latency burst (R115): requests sent, the echoes outstanding, echoes returned, and the sum of their round trips. -/
structure EchoSt where
  sent : Nat
  waiting : Nat
  back : Nat
  sum : Nat
deriving DecidableEq, Repr

/-- What a camera port holds besides its registers (R101–R120). -/
structure CamSt where
  /-- sensor frame counter of each virtual channel (R101). -/
  fcs : Sparse Nat
  /-- the trigger that waits for its frame start. -/
  trig : Option TrigSt
  /-- a trigger pulse is active on its GPIO line (R114). -/
  pulse : Bool
  /-- lock has been lost and the 100 µs of R107 run. -/
  losing : Bool
  script : Option Run
  /-- scripts started so far. -/
  runs : Nat
  echo : Option EchoSt
  /-- ENABLE became 0 and the shutdown script runs (R110). -/
  stopping : Bool
  /-- POC_EN has been released on leaving FAULT and the 100 ms of R475 run. -/
  cycling : Bool
deriving DecidableEq, Repr

/-- The LIVE block as one refresh gives it (R82). -/
structure Live where
  wb : List Nat
  dgain : Nat
  r1 : Nat
  r2 : Nat
  exp : Nat
deriving DecidableEq, Repr

/-- One line on its way through the device: its number in the input frame, map entry, exposure index, pixels (bytes for
DT 0x12 and 0x1E and for REMOTE lines), status bits (bit 0 FILLED, 1 LINE_SHORT, 2 LINE_LONG, 3 CRC_BAD, as in R222, and
bit 4 IN_FAIL), the LIVE values of its line start (R83), and the time at which it completed in the line window. -/
structure Line where
  k : Nat
  e : Nat
  exp : Nat
  px : List Nat
  flags : Nat
  live : Live
  at_ : Nat
  /-- the port has supplied it for a line that did not come (R103, R106). -/
  supplied : Bool
deriving DecidableEq, Repr

/-- One map entry's part of a frame (R100): the entry, lines received, whether its frame start and frame end have
come, and its last good line of each parity (R97). -/
structure Part where
  e : Nat
  got : Nat
  started : Bool
  ended : Bool
  good0 : Option (List Nat)
  good1 : Option (List Nat)
deriving DecidableEq, Repr

/-- One heat: the exposures of one input line and the tables that were uncorrectable in it (R179). -/
structure HeatLine where
  k : Nat
  lanes : List Line
  bad : List TableFault
deriving DecidableEq, Repr

/-- A heat that runs on a logical slice (R135). -/
structure Running where
  slice : Nat
  frame : Nat
  line : HeatLine
deriving DecidableEq, Repr

/-- The decision over a sync group for one trigger (R138): group, key of the trigger, epoch, whether it is admitted, and
context, logical slice and load of each member that had no frame yet. -/
structure SyncSt where
  grp : Nat
  key : Nat
  epoch : Nat
  ok : Bool
  members : List (Nat × Nat × Nat)
deriving DecidableEq, Repr

/-- A delivered line: its number, its bytes in the output format, and its status bits. -/
structure OutLine where
  j : Nat
  bytes : List Nat
  flags : Nat
deriving DecidableEq, Repr

/-- Where the scheduler has a frame (R131, R133). -/
inductive Adm where
  | waiting | admitted | refused
deriving DecidableEq, Repr

/-- The motion fields of a frame tag (R221, R342). -/
structure Motion where
  wheel : Nat
  speed : Int
  steer : Int
  flags : Nat
deriving DecidableEq, Repr

/-- What the tag, seals and trailer of an incoming REMOTE frame say, as far as they have arrived (R226). -/
structure Incoming where
  tag : Option (List Nat)
  trailer : Option (List Nat)
  /-- running check over the bytes between tag and trailer. -/
  crc : Word
deriving DecidableEq, Repr

/-- A frame in the device, from its frame start until its last output has closed. -/
structure FrameSt where
  id : Nat
  ctx : Nat
  port : Nat
  epoch : Nat
  /-- sensor frame counter (R101). -/
  fc : Nat
  capNs : Nat
  midNs : Nat
  /-- STATUS bits of R220 gathered so far. -/
  status : Nat
  /-- the trigger it was associated with: key of the trigger. -/
  trig : Option Nat
  parts : List Part
  isOpen : Bool
  /-- lines received of the entry with EXP_IDX 0 (R100). -/
  linesIn : Nat
  /-- lines on their way from the port to the scheduler. -/
  arriving : List Line
  adm : Adm
  /-- what this frame adds to the committed load of its logical slice (R130). -/
  slice : Nat
  load : Nat
  /-- complete lines in the window (R135–R137). -/
  win : List Line
  /-- the skew has broken for the lines below this number, as far as they had to wait (R139). -/
  broken : Nat
  /-- when each line in the window became ready (R135, R139). -/
  ready : Sparse Nat
  /-- lines whose heat has begun, and the heats that have ended. -/
  begun : Nat
  heats : List HeatLine
  /-- its count among the admitted frames of its context (R176). -/
  statNo : Nat
  /-- delivered lines that wait to enter the seam, how many have been made, and the last output line of the scaler (R207). -/
  outq : List OutLine
  made : Nat
  last : List (Nat × Nat × Nat)
  /-- lines that have entered the seam. -/
  entered : Nat
  /-- the last line has entered the seam or the frame has been refused. -/
  gone : Bool
  alive : Option Nat
  motion : Option Motion
  incoming : Option Incoming
  /-- the frame is emitted again from a hold ring: END_NS and EPOCH as stored (R412). -/
  stored : Option (Nat × Nat)
  /-- its trailer and tag have been computed. -/
  ended : Bool
  /-- ORIGIN and PORT of the tag (R218, R226). -/
  origin : Nat
deriving DecidableEq, Repr

/-! ## Seam, check units and destinations -/

/-- What a frame tag says of its source frame, as it stood at the frame's delivery (R218–R221). -/
structure FrameFinal where
  ctx : Nat
  epoch : Nat
  fc : Nat
  alive : Nat
  cap : Nat
  mid : Nat
  motion : Option Motion
  status : Nat
  lines : Nat
  refused : Nat
  port : Nat
  origin : Nat
deriving DecidableEq, Repr

/-- One source of an output frame (R210): its context, its frame once started, lines at the seam that wait for the
others, the number of lines that have come, and its tag fields once it has ended. -/
structure SrcPart where
  ctx : Nat
  frame : Option Nat
  buf : List OutLine
  got : Nat
  final : Option FrameFinal
deriving DecidableEq, Repr

/-- Where an output frame goes (R53): a DMA channel, a transmit port, a weave stream of a fabric ID, or a hold ring. -/
inductive Dest where
  | dma (c : Nat)
  | tx (p : Nat)
  | weave (fid stream : Nat)
  | hold (c : Nat)
deriving DecidableEq, Repr

/-- An output frame that the seam is building (R209–R229), and what the check units count and compute of it. -/
structure OutFrame where
  serial : Nat
  o : Nat
  epoch : Nat
  /-- trigger of its sources (R138), by which a composite's are matched. -/
  key : Option Nat
  mode : Nat
  dest : Dest
  srcs : List SrcPart
  /-- next line to emit, and the lines of the output. -/
  next : Nat
  total : Nat
  sealed : Bool
  /-- line bytes LB and output width. -/
  lb : Nat
  width : Nat
  crc : Word
  len : Nat
  filled : Nat
  crcBad : Nat
  short : Nat
  long : Nat
  inFail : Nat
  /-- STATUS bits of the output itself: SHORT, CONCEALED, OUT_LOSS. -/
  status : Nat
  /-- error 0x02 has been recorded for it. -/
  lossSaid : Bool
  alive : Nat
deriving DecidableEq, Repr

/-- A frame in a hold ring (R140): its slot, tag fields, tag, lines with their seals, trailer and geometry. -/
structure Held where
  slot : Nat
  final : FrameFinal
  tag : List Nat
  lines : List (List Nat)
  trailer : List Nat
  lb : Nat
  sealed : Bool
  /-- status bits of each line. -/
  flags : List Nat
deriving DecidableEq, Repr

/-- A hold ring: next slot, frames held, oldest first, and the frame being written. -/
structure HoldSt where
  next : Nat
  held : List Held
  open_ : Option (Nat × Nat × List (List Nat) × List Nat)
deriving DecidableEq, Repr

/-- A packet waiting in a transmit port: virtual channel, data type (0 and 1 frame start and end with the frame number
as two bytes), bytes (R229). -/
structure TxPkt where
  vc : Nat
  dt : Nat
  bytes : List Nat
deriving DecidableEq, Repr

/-- What a transmit port holds besides its registers (R228–R231): packets, frames begun, PHY restart in progress. -/
structure TxSt where
  queue : List TxPkt
  begun : List Nat
  restarting : Bool
deriving DecidableEq, Repr

/-! ## DMA (R240–R260) -/

/-- A set of rings (R252): a serial number, ring and completion-ring addresses and sizes, SEQ, initial producer index,
records written, entries reserved, and whether its first record is still due. -/
structure DmaSet where
  id : Nat
  ring : Nat
  cpl : Nat
  ringLog2 : Nat
  cplLog2 : Nat
  seq : Nat
  pi : Nat
  k : Nat
  reserved : Nat
  fresh : Bool
deriving DecidableEq, Repr

/-- A list entry (R242). -/
structure ListEnt where
  addr : Nat
  len : Nat
  kind : Nat
deriving DecidableEq, Repr

/-- A buffer that a channel has taken (R241–R245). -/
structure Buf where
  set : Nat
  cookie : Nat
  /-- address of the next list entry, entries read and not consumed, segments consumed, entries consumed. -/
  next : Nat
  got : List ListEnt
  segs : List (Nat × Nat)
  used : Nat
  /-- END has been reached. -/
  short : Bool
  /-- bytes written. -/
  written : Nat
  tagWritten : Bool
deriving DecidableEq, Repr

/-- How a frame stands with its channel (R244): not decided, no buffer (with or without a record due), waiting for its
ring entry (ring index taken; producer index that counted), or with a buffer. -/
inductive Take where
  | pending
  | none (record : Bool)
  | waiting (set lim : Nat)
  | taken (b : Buf)
deriving DecidableEq, Repr

/-- Bytes in the egress buffer: offset in the buffer of R243, bytes, kind (0 line, 1 trailer, 2 tag). -/
structure EgrItem where
  off : Nat
  bytes : List Nat
  kind : Nat
deriving DecidableEq, Repr

/-- A frame at a channel. -/
structure ChFrame where
  serial : Nat
  /-- its output; none of a replay. -/
  o : Option Nat
  replay : Bool
  foot : Nat
  pitch : Nat
  listMax : Nat
  attr : Nat
  take : Take
  items : List EgrItem
  /-- replay bytes that have not entered the egress buffer. -/
  feed : List EgrItem
  /-- its trailer has not entered yet. -/
  isOpen : Bool
  tag : Option (List Nat)
  refusedOnce : Bool
  /-- lines and trailer lost at the list's end (R245). -/
  cut : Nat
deriving DecidableEq, Repr

/-- A HALTED record whose flush read is out (R257): the record's address, the current set before it was written, the
buffer (set, cookie, footprint, bytes written), and whether its ring entry was a reserved one. -/
structure HaltRep where
  addr : Nat
  before : DmaSet
  buf : Nat × Nat × Nat × Nat
  own : Bool
deriving DecidableEq, Repr

/-- What a channel holds besides its registers. -/
structure ChanSt where
  cur : Option DmaSet
  armed : Option DmaSet
  old : List DmaSet
  nextSet : Nat
  frames : List ChFrame
  /-- reads outstanding: ring entries, list entry, flush of a tag. -/
  ringRd : List Nat
  listRd : Option Nat
  flushRd : Option Nat
  /-- abandoned buffers: set, cookie, footprint, bytes written (R257). -/
  abandoned : List (Nat × Nat × Nat × Nat)
  /-- HALTED records written whose flush reads are outstanding, oldest first (R257). -/
  reports : List HaltRep
deriving DecidableEq, Repr

/-! ## Weave, fabric and relay (R384–R414) -/

/-- A weave block without its CRC (R388). -/
structure Block where
  seq : Nat
  type : Nat
  cls : Nat
  gen : Nat
  flow : Nat
  payload : List Nat
deriving DecidableEq, Repr

/-- A flow at a receiving port (R397–R399): what its OPEN said, and where it goes: to a flow of another port, to a
REMOTE context's frame, or nowhere. -/
structure InFlow where
  flow : Nat
  cls : Nat
  src : Nat
  stream : Nat
  lineBytes : Nat
  outLines : Nat
  format : Nat
  forward : Option (Nat × Nat)
  frame : Option Nat
  ctx : Option Nat
  /-- bytes received that do not make a whole line yet, and bytes passed on. -/
  rest : List Nat
  got : Nat
deriving DecidableEq, Repr

/-- A flow on the sending side of a hop (R397): port and number, class, destination, the output frame that feeds it (none
of a forwarded flow), bytes that do not fill a block yet, blocks and bytes sent. -/
structure OutFlow where
  port : Nat
  flow : Nat
  cls : Nat
  dst : Nat
  serial : Option Nat
  rest : List Nat
  sent : Nat
  total : Nat
deriving DecidableEq, Repr

/-- What a weave port holds besides its registers. -/
structure WvSt where
  nextSeq : Nat
  /-- unacknowledged blocks with their retransmissions, oldest first, and control blocks that wait for room. -/
  retry : List (Block × Nat)
  waitQ : List Block
  /-- next sequence number expected, blocks accepted out of order, and blocks accepted since the last ACK. -/
  cum : Nat
  held : List Block
  fresh : Nat
  inFlows : List InFlow
  /-- logical lanes in use, physical lanes that have failed since training began, and the lanes that the peer says it
  has aligned at this end's rate. -/
  lanes : Nat
  failed : Nat
  peerLanes : Option Nat
  /-- a HELLO has come whose NAME is another. -/
  rejected : Bool
  peerPort : Nat
  /-- time exchange (R402): when the last TIME block was sent, the peer's timestamp in its last one, and its arrival. -/
  timeSent : Nat
  timePeer : Nat
  timeGot : Nat
  /-- a planned lane map that has been offered to the peer and waits for its answer (R387). -/
  planned : Option Nat
deriving DecidableEq, Repr

/-- A link-state advertisement (R393). -/
structure Lsa where
  uid : Nat
  fid : Option Nat
  pin : Bool
  root : Bool
  gen : Nat
  seq : Nat
  /-- per port: neighbour fabric ID, neighbour port, rate code, lanes. -/
  links : List (Option Nat × Nat × Nat × Nat)
deriving DecidableEq, Repr

/-- A stream that the device passes on: originator, stream, and the stream bytes of a frame (R145, R397). -/
structure PassStream where
  src : Nat
  stream : Nat
  bytes : Nat
deriving DecidableEq, Repr

/-- What roll call holds besides its registers (R392–R396): the database, the device's own LSA_SEQ, whether a claim is
pinned or was journalled, and since when its ID stands. -/
structure FabSt where
  lsas : List Lsa
  ownSeq : Nat
  since : Nat
  saved : Bool
  /-- the device is to claim the lowest free ID (R394). -/
  claiming : Bool
  /-- content of the last LSA sent. -/
  sent : List Nat
  /-- streams of class F or M that the device has forwarded since the topology last changed (R145). -/
  passing : List PassStream
deriving DecidableEq, Repr

/-- A class M frame that waits for the acknowledgement of its DELIVER (R408): frame, its DELIVER, lines held. -/
structure Mirror where
  frame : Nat
  payload : List Nat
  lines : List OutLine
deriving DecidableEq, Repr

/-- What the relay holds besides its registers (R403–R414). -/
structure RlySt where
  /-- a heartbeat or an edge has come since the last tick (R407), one HEARTBEAT since LOADED. -/
  beat : Bool
  seen : Bool
  /-- last delivered FRAME_CNT and ALIVE of a context (R409), as FRAME_CNT × 2^16 + ALIVE. -/
  delivered : Sparse Nat
  mirrors : List Mirror
  /-- the last DELIVER sent for each context (R408), and an offer of the partner that stands (R413). -/
  lastSent : Sparse (List Nat)
  offerSeen : Bool
  /-- step 1 of R411 has been taken at this time; the takeover is the one of R406. -/
  fencing : Option (Nat × Bool)
  /-- the device held the baton before it asserted its fence (R410). -/
  asHolder : Bool
  /-- an offer has been sent and is not committed yet (R413). -/
  offered : Bool
  /-- DELIVERs of the partner whose frames have not been found: context, CAPTURE_NS, FRAME_CNT, virtual channel. -/
  unmatched : List (Nat × Nat × Nat × Nat)
  /-- a profile record: profile and S (R414). -/
  profile : Option (Nat × Nat)
deriving DecidableEq, Repr

/-! ## Reserve -/

/-- A replacement (R421): resource kind in the order of R417's table (0 slice, 1 SRAM row, 2 DRAM row, 3 weave lane,
4 service pair, 5 clock source, 6 check engine), instance, row for a memory row, old and new map word, wear signal in
the order of the Wear signal column of its row; past that, 1 for an uncorrectable error of a DRAM row and for a lane failure. -/
structure Repl where
  kind : Nat
  inst : Nat
  row : Nat
  oldMap : Nat
  newMap : Nat
  signal : Nat
deriving DecidableEq, Repr

/-- Signals of one resource that have not reached their threshold (R417): kind, instance, row and signal, the time of
operation when they came, and how many. -/
structure WearNote where
  kind : Nat
  inst : Nat
  row : Nat
  signal : Nat
  at_ : Nat
  count : Nat
deriving DecidableEq, Repr

/-- What the reserve manager holds besides its registers (R417–R425). -/
structure RsvSt where
  /-- retired instances of each kind, a bit map by kind. -/
  retired : Sparse Nat
  /-- REMAP entries in use; the lane map of each weave port and the PLL map, as the state area keeps them. -/
  remap : List Nat
  laneMaps : Sparse Nat
  pllMap : Nat
  /-- TOTALS of the state area, by index. -/
  totals : Sparse Nat
  /-- the replacement whose swap is in progress. -/
  cur : Option Repl
  /-- replacements that wait for the basting bank. -/
  waiting : List Repl
  /-- replacements refused once, tried again every 1 s. -/
  refused : List Repl
  /-- failed wear tests, not repeated before the replacement (R420): kind and instance. -/
  failed : List (Nat × Nat)
  /-- signals counted towards a threshold (R417); resources whose threshold has been reached and that the reserve manager has
  yet to replace: kind, instance, row, signal. -/
  wears : List WearNote
  due : List (Nat × Nat × Nat × Nat)
deriving DecidableEq, Repr

/-! ## Maintenance, park mode and flash operations (R430–R434) -/

/-- A flash operation that has not finished (R433): its OP, slot and ARG, the RESULT it comes to unless the flash fails, and its CAUSE. -/
structure FlashOp where
  op : Nat
  slot : Nat
  arg : Nat
  result : Nat
  cause : Nat
deriving DecidableEq, Repr

structure MntSt where
  /-- when the running write window began. -/
  windowAt : Nat
  /-- the first 8 bytes of the SHA-256 of the session's PUBKEY (R426). -/
  keyTag : List Nat
  /-- slots, as a bit map, whose VERIFY has returned 0x00 in this session and that stand as verified (R433). -/
  verified : Nat
  /-- flash operation in progress. -/
  op : Option FlashOp
  /-- entry to park mode has begun; the islands have stopped, since when; the wake cause asked for (R426, R430). -/
  parking : Bool
  parked : Bool
  parkedAt : Nat
  wake : Nat
  /-- time spent in park mode, stays that have ended, in ns. -/
  parkNs : Nat
deriving DecidableEq, Repr

/-! ## Time and Ethernet (R307–R326) -/

/-- A midpoint event that the motion unit has not finished (R322, R342): context, key of the trigger, MID_NS on the
64-bit counter, whether MID_NS + 10 µs has come, and whether the context was enabled, so that a frame can come. -/
structure Mid where
  ctx : Nat
  key : Nat
  at_ : Nat
  due : Bool
  use : Bool
deriving DecidableEq, Repr

/-- An anchor that is due (R315): its boundary on the 64-bit counter as it stood then, seconds since reset, the sum of all steps
then, and whether it is an extra one. -/
structure AnchorDue where
  at_ : Int
  secs : Nat
  sum : Int
  extra : Bool
deriving DecidableEq, Repr

structure TimeSt where
  /-- correction of TSU_RATE not applied yet, in 10^−12 ns. -/
  rateAcc : Int
  /-- TSU_TIME_HI as latched, plus one, by originator (R317). -/
  hiLatch : Sparse Nat
  /-- a measurement that the servo has not taken (R311): the offset, master time less the counter, and the counter then, in ns. -/
  measured : Option (Int × Int × Int)
  /-- counter and difference of the last measurement since a step, and the measured master rate in units of TSU_RATE (R311). -/
  lastDiff : Option (Int × Int)
  masterRate : Option Int
  /-- synchronised nanoseconds less the 64-bit counter: a multiple of 2^32 (R307, R318). -/
  base : Int
  /-- grandmaster clockIdentity (R315). -/
  gmId : List Nat
  /-- consecutive measurements within LOCK_NS, and beyond 4 × LOCK_NS. -/
  lockRun : Nat
  badRun : Nat
  /-- second boundaries since reset, steps since the latest one, and the anchors that are due, oldest first (R312, R315). -/
  secs : Nat
  sinceBoundary : Int
  anchors : List AnchorDue
  /-- the sum of all steps, in ns; generators that the service cores have aligned since their enabling (R320), and high halves
  written whose low halves have not followed, plus one (R317). -/
  stepped : Int
  armed : Nat
  trgHi : Sparse Nat
  mids : List Mid
deriving DecidableEq, Repr

/-- An Ethernet port (R313, R324). Times are corrected timestamps in 0.1 ns. -/
structure EthSt where
  /-- last Sync: sequence number and receipt time; of the slave port's last Follow_Up: origin time, correction, rate offset, and the
  receipt time of its Sync. -/
  sync : Option (Nat × Int)
  follow : Option (Int × Int × Int × Int)
  syncSeq : Nat
  /-- peer delay: sequence number of the last Pdelay_Req, its sending time while it waits, and receipt time of the
  response with the peer's receipt time of the request. -/
  pdSeq : Nat
  reqAt : Option Int
  respAt : Option (Int × Int)
  missed : Nat
  good : Nat
  /-- the peer's transmit time and the receipt time of the last response, and the neighbour's rate offset × 2^41 (R313). -/
  lastResp : Option (Int × Int)
  nrr : Int
  /-- diagnostic requests answered in the second that began at diagFrom. -/
  diagFrom : Nat
  diagCount : Nat
deriving DecidableEq, Repr

/-! ## Motion, camera power and actuator outputs (R327–R354) -/

/-- A change of a count: its time, the time of the last counted step (its own, unless the count was set by an index), the count
after it, the observer's v and a when it became known, and whether the sensor is of TYPE 4 (R334, R342). -/
structure StepRec where
  t : Nat
  te : Nat
  count : Nat
  v : Int
  a : Int
  sent : Bool
deriving DecidableEq, Repr

structure ChSt where
  /-- last accepted input lines (A, B, and Z as W), as bits 0–2. -/
  lines : Nat
  /-- direction of the last counted step: 1, −1, or 0 unknown. -/
  dir : Int
  /-- time of the last counted edge, if no ILLEGAL change has come since (R329). -/
  edgeAt : Option Nat
  /-- times of ILLEGAL changes (R333), and of the last counted step (R340), on the clock that no step moves. -/
  illegals : List Nat
  stepUp : Nat
  /-- consecutive amplitude faults, and consecutive discarded messages. -/
  ampRun : Nat
  badRun : Nat
  /-- position within the signal period, or decoded value, of the last sample. -/
  fine : Option Nat
  /-- tick of the previous SENT message (0 none), and step time of the last valid one. -/
  tick : Nat
  msgAt : Nat
  /-- the first step after VALID came back is not counted (R333). -/
  skip : Bool
  /-- VALID since when (on the clock that no step moves), and REF, newest first: each from a time on (R342). -/
  valids : List (Nat × Option Nat × Bool)
  /-- observer: p (U32.16), v (S24.16), a (S32.8) (R339). -/
  p : Nat
  v : Int
  a : Int
  /-- counted steps and observer updates, newest first, as far back as a snapshot can need them. -/
  steps : List StepRec
  upd : List (Nat × Int × Int)
deriving DecidableEq, Repr

/-- A history entry (R343). -/
structure HistEnt where
  t : Nat
  m : Motion
deriving DecidableEq, Repr

/-- An emulator (R344): the channel's count at enable and when it was last seen, the distance accumulated in 48 bits,
its output count, whether it runs, and whether EMU_LAG has been said of the present lag. -/
structure EmuSt where
  on : Bool
  last : Nat
  acc : Int
  o : Int
  lag : Bool
deriving DecidableEq, Repr

structure MotSt where
  chans : Sparse ChSt
  hist : List HistEnt
  emus : Sparse EmuSt
  /-- snapshots whose frames have not started yet: context, key of the trigger, motion fields. -/
  snaps : List (Nat × Nat × Motion)
deriving DecidableEq, Repr

/-- A power supervisor (R345–R349): consecutive scans above the limit and outside the window, and when INRUSH began. -/
structure PwrSt where
  oc : Nat
  out : Nat
  inrushAt : Nat
deriving DecidableEq, Repr

/-- A PWM output (R350): pulses that have not begun (start and end), the end of the running one, and the active time
of the period. -/
structure PwmSt where
  waits : List (Nat × Nat)
  until_ : Option Nat
deriving DecidableEq, Repr

/-! ## Bridge (R370–R381) -/

/-- An access that the bridge has accepted and not completed (R374). -/
structure BrgAcc where
  tag : Nat
  w : Nat
  orig : Nat
  /-- fabric ID of a weave originator. -/
  fid : Nat
  write : Bool
  addr : Nat
  /-- byte enables from `addr` on, and the data bytes of a write. -/
  be : List Bool
  data : List Nat
  /-- it has started; the rest of its two-wire transactions; the bytes read so far. -/
  started : Bool
  txns : List Txn
  got : List Nat
  /-- first byte and bytes of the block that a sensor-window read fetches (R381); of a remote access that is not waiting to be
  issued again, the halves of its data that are missing (4 for a write's answer). -/
  fetch : Option (Nat × Nat)
  /-- issue time, retries, and BTAG of the requester of a weave request (R379, R401). -/
  at_ : Nat
  retries : Nat
  rtag : Nat
  /-- a read that has failed by timeout: its result is discarded (R375). -/
  dead : Bool
  /-- first device address and bytes of what a prefetching read fetches (R381). -/
  span : Option (Nat × Nat)
deriving DecidableEq, Repr

/-- A prefetch buffer (R381): window, first device address, its bytes and whether each has been returned, and the
block's address. -/
structure PfBuf where
  w : Nat
  addr : Nat
  bytes : List (Nat × Bool)
deriving DecidableEq, Repr

/-- The half of a weave write that waits for its other half (R401): source, BTAG, block address, halves announced,
enables, and the halves that have come. -/
structure HalfWrite where
  src : Nat
  tag : Nat
  addr : Nat
  halves : Nat
  be : Nat
  lower : Option (List Nat)
  upper : Option (List Nat)
deriving DecidableEq, Repr

structure BrgSt where
  /-- accepted accesses, oldest first, and the next BTAG. -/
  accs : List BrgAcc
  nextTag : Nat
  /-- end of the lease of each window's semaphore. -/
  lease : Sparse Nat
  pf : Sparse PfBuf
  halves : List HalfWrite
  /-- a read transaction of a two-wire target that waits for the bridge: the next word's address, and the words that the controller
  has asked for beyond the one awaited (R363). -/
  tgt : Sparse (Nat × Nat)
deriving DecidableEq, Repr

/-! ## Service cores (R25, R205, R206, R449) -/

/-- How far an update of a loop is (R206). -/
inductive LoopStage where
  /-- waiting for the gap in which EXP_REG is written. -/
  | gap
  /-- the write of EXP_REG is under way. -/
  | writing
  /-- the write has been made, or there is none: frame starts of the context to wait for. -/
  | effect (left : Nat)
deriving DecidableEq, Repr

/-- An update of an exposure or white-balance loop (R206): the values to write, and how far it is. -/
structure LoopUpd where
  stage : LoopStage
  exp : Nat
  dgain : Nat
  wb : List Nat
deriving DecidableEq, Repr

/-- The loops of a context: their updates on their way, oldest first. -/
structure LoopSt where
  upds : List LoopUpd
deriving DecidableEq, Repr

/-- A checkpoint of the service cores (R25): the loops of pair A; the dwell and debounce counts of profile selection on pair B. The
spec does not say what a checkpoint holds: DESIGN CHOICE (log entry 116). -/
structure Checkpoint where
  loops : Sparse LoopSt
  candSince : Nat
  modeCand : Nat
  modeRun : Nat
deriving DecidableEq, Repr

/-- The core-voltage service (R449): exponent N once read, target requested, and whether it has stopped. -/
structure VcoreSt where
  exponent : Option Int
  target : Nat
  stopped : Bool
deriving DecidableEq, Repr

end Sys2Proof.Machine
end

