-- ==== Sys2Proof/Machine/State.lean ====
section
/-! DEFINITION. The state of the block as plain data, what stops it, and the state after reset. -/

namespace Sys2Proof.Machine
open Sys2Proof

/-- Reasons to stop with a fault. The spec names no condition under which the block stops taking commands: an access
outside the map is answered (R30), and a fatal error is a state (R428). No meaning raises one. -/
inductive Fault where
deriving DecidableEq, Repr

/-- Reasons to refuse a command. -/
inductive Refusal where
  /-- The command has no meaning yet; raised by Dispatch.lean alone. Safe: nothing is claimed of it. -/
  | notModelled (mnemonic : String)
deriving DecidableEq, Repr

/-- The block's state. -/
structure State where
  /-- commands waiting, first in first out: the model's own field. -/
  pending : List Instr
  chip : Chip
  /-- blown bits of the rollback fuse counter (R62). -/
  rollback : Nat
  pins : Pins
  /-- 64-bit nanosecond counter of ISL_TIME (R307, R317). -/
  now : Nat
  /-- OP and STAT registers by device address. -/
  regs : Sparse Word
  /-- CFG registers: basting bank, active bank, and the bank of the epoch before the active one while its frames are in
  flight (R73, R78, R79). -/
  cfgB : Sparse Word
  cfgA : Sparse Word
  cfgO : Sparse Word
  /-- CFG registers whose new values wait for a quiet point of their unit: the value in effect (R120, R231, R283). -/
  cfgX : Sparse Word
  /-- LIVE words: basting copy and active copy (R83). -/
  liveB : Sparse Word
  liveA : Sparse Word
  /-- epoch that each island holds (R78, R472). -/
  islEpoch : Sparse Nat
  ldr : LdrSt
  queues : Sparse QueueSt
  readPorts : Sparse PortSt
  hostPorts : Sparse HostPortSt
  /-- statistics packets the service cores have received and not yet used: queue and words (R274). -/
  svcStats : List (Nat × List Nat)
  jnl : JnlSt
  rsv : RsvSt
  cams : Sparse CamSt
  twbs : Sparse TwbSt
  /-- frames in the device, in order of their frame starts, and the serial number of the next one. -/
  frames : List FrameSt
  nextFrame : Nat
  /-- heats in progress, sync-group decisions, and admitted frames by context since the load (R135, R138, R176). -/
  running : List Running
  syncs : List SyncSt
  statCount : Sparse Nat
  /-- output frames at the seam and the serial number of the next one; hold rings; transmit ports; DMA channels. -/
  outs : List OutFrame
  nextOut : Nat
  /-- ALIVE of the last incoming frame of a REMOTE context (R226), and by output one more than the trigger of the last
  composite that has closed. -/
  inAlive : Sparse Nat
  doneKeys : Sparse Nat
  holds : Sparse HoldSt
  txs : Sparse TxSt
  chans : Sparse ChanSt
  /-- weave ports, flows sent, roll call, relay. -/
  weaves : Sparse WvSt
  outFlows : List OutFlow
  fab : FabSt
  rly : RlySt
  /-- maintenance and park mode; time unit; Ethernet ports. -/
  mnt : MntSt
  time : TimeSt
  eths : Sparse EthSt
  /-- motion unit, power supervisors, PWM channels, and the way each fold channel runs after its brake. -/
  mot : MotSt
  pwrs : Sparse PwrSt
  pwms : Sparse PwmSt
  folds : Sparse Nat
  brg : BrgSt
  loops : Sparse LoopSt
  vcore : VcoreSt
  /-- when the service cores wrote their last checkpoint (R25). -/
  chkAt : Nat
  checkpoint : Checkpoint
  /-- protocol errors of the interfaces that have no register for them (R6): HP0, HP1 and the weave. -/
  protoErrs : Sparse Nat
  /-- Pattern flash (R38) and journal memory (R424), by byte address. -/
  flash : Mem
  jmem : Mem
  /-- line store and slice table regions, by device address (R473). -/
  ram : Mem
  out : List Emit
  /-- free values drawn so far: the model's own field (log entry 2). -/
  freeCount : Nat
deriving DecidableEq, Repr

/-! ## Reset (R445) -/

/-- The device in reset: everything at its reset value but fuses, the counter of blown bits, the flash and the journal
memory. Commands that wait, and what has been put on links and pins, stand. -/
def State.inReset (c : Chip) (rollback : Nat) (flash jmem : Mem) (pending : List Instr) (out : List Emit) (free : Nat) (crystal : Bool) :
    State :=
  { pending, chip := c, rollback
    pins := ⟨crystal, 0, false, false, false, false, false, false, 0, 0, 0, 0⟩
    now := 0, regs := [], cfgB := [], cfgA := [], cfgO := [], cfgX := [], liveB := [], liveA := [], islEpoch := []
    ldr := { phase := .held, slot := 0, reload := false, trained := false, held := [], entries := 0, dropped := false, ownEntries := 0, scripts := []
             services := [], profiles := [], profileCount := 0, defaultProfile := 0, profSets := [], profLive := [], profMask := [], baseSet := []
             origin := [], profOrigin := [], writes := 0, windows := 0, blobs := [], waiting := [], ownerSince := 0
             swapBy := .loader, swapProfile := 0, swapStart := 0, swapForced := false, loadSwap := false, loaded := false
             selecting := false, candSince := 0, modeCand := 0, modeRun := 0 }
    queues := [], readPorts := [], hostPorts := [], svcStats := []
    jnl := { pend := [], secStart := 0, secCount := 0, dropped := [], superTurn := 0, stateTurn := 0, anchorSec := 0, areaSeq := 0
             stickyFid := none, fidTable := [] }
    rsv := ⟨[], [], [], 0, [], none, [], [], [], [], []⟩
    cams := [], twbs := [], frames := [], nextFrame := 0, running := [], syncs := [], statCount := []
    outs := [], nextOut := 0, inAlive := [], doneKeys := [], holds := [], txs := [], chans := []
    weaves := [], outFlows := []
    fab := ⟨[], 0, 0, false, false, [], []⟩
    rly := ⟨false, false, [], [], [], false, none, false, false, [], none⟩
    mnt := ⟨0, [], 0, none, false, false, 0, 0, 0⟩
    time := ⟨0, [], none, none, none, 0, [], 0, 0, 0, 0, [], 0, 0, [], []⟩
    eths := []
    mot := ⟨[], [], [], []⟩
    pwrs := [], pwms := [], folds := []
    brg := ⟨[], 0, [], [], [], []⟩
    loops := []
    vcore := ⟨none, 800, false⟩, chkAt := 0, checkpoint := ⟨[], 0, 0, 0⟩, protoErrs := []
    flash, jmem, ram := [], out, freeCount := free }

/-- The device that the model starts with: a CV9616 with blank key fuses, two flash slots, 8 GiB of DRAM and a journal memory
of 16 Mbit. DESIGN CHOICE (log entry 31): fuses, ROM and board differ from device to device. -/
def Chip.default : Chip :=
  { variant := .cv9616, romVer := 0, dieMajor := 1, dieMinor := 0, uid := 0, keyHash := none, debugLock := false
    flashBytes := 0x8000000, dramBytes := 0x200000000, journalMbit := 16, ageBase := 0 }

/-- The block right after reset: before RESET_RELEASE, with nothing placed in its memories. -/
def State.reset : State := State.inReset Chip.default 0 [] [] [] [] 0 false

end Sys2Proof.Machine
end

