-- ==== Sys2Proof/Machine/RegFile.lean ====
section
/-! DEFINITION. The register file: which register an address names (R28, R30), what it reads as after reset, absent
units (R2), and the named operations through which every meaning reads and writes a field. -/

namespace Sys2Proof.Machine
open Sys2Proof

/-- The descriptors that can cover an address: those of the unit whose row of R28 holds it. -/
def tableOf (a : Nat) : List RegD :=
  if a < 0x10000 then regsGlb else if a < 0x20000 then regsLdr else if a < 0x40000 then regsEvc
  else if a < 0xC0000 then regsQmx else if a < 0x100000 then regsDmx else if a < 0x240000 then regsCpt
  else if a < 0x300000 then [] else if a < 0x500000 then regsCtx else if a < 0x600000 then []
  else if a < 0x6C0000 then regsPix else if a < 0x700000 then [] else if a < 0x780000 then regsSeam
  else if a < 0x800000 then regsHlk else if a < 0x900000 then regsWve else if a < 0xA00000 then regsTsu
  else if a < 0xB00000 then regsPos else if a < 0xB17000 then regsTwb else if a < 0xC00000 then []
  else if a < 0xD00000 then regsBrg else if a < 0xE00000 then regsRsv else []

/-- The array indices by which an offset lies in a register array, if it does. -/
def indexIn : List (Nat × Nat) → Nat → Option (List Nat)
  | [], off => if off = 0 then some [] else none
  | (stride, count) :: ds, off =>
    if off / stride < count then (indexIn ds (off % stride)).map (off / stride :: ·) else none

/-- The first descriptor of a list that covers the word address. -/
def findReg : List RegD → Nat → Option (RegD × List Nat)
  | [], _ => none
  | d :: ds, a =>
    if d.base ≤ a then
      match indexIn d.dims (a - d.base) with
      | some is => some (d, is)
      | none => findReg ds a
    else findReg ds a

/-- The register at a word address: its descriptor and indices. -/
def regAt (a : Nat) : Option (RegD × List Nat) := findReg (tableOf a) a

/-- A word assembled from the reset values of a register's fields. -/
def tableReset (fs : List FieldD) : Word := fs.foldl (fun w x => setFld w x.hi x.lo x.rst) 0

/-- The unit whose queue is in the range 1–27 is present: queue 5 is of HP1, queues 8–27 of the camera ports (R282). -/
def queueUnitPresent (v : Variant) (q : Nat) : Bool :=
  if q = 5 then hpPresent v 1 else if 8 ≤ q ∧ q ≤ 27 then cpPresent v (q - 8) else true

/-- QMX_Q_CFG after reset (R282). -/
def queueCfgReset (q : Nat) : Nat :=
  let mk (readers depth mode en : Nat) : Nat := readers * 2 ^ 16 + depth * 8 + mode * 2 + en
  if q = 0 then mk 0 6 0 0
  else if q = 1 then mk 7 14 0 1
  else if q ≤ 3 then mk 7 14 1 1
  else if q ≤ 7 then mk (2 ^ (q - 4)) 6 1 1
  else if q ≤ 27 then mk 7 10 1 1
  else if 64 ≤ q ∧ q ≤ 1087 then mk 7 13 1 0
  else mk 0 6 0 0

/-- Resets that depend on the variant, the fuses or the instance (R33, R282, R418 and the Reset columns). -/
def specialReset (c : Chip) (a : Nat) : Option Nat :=
  let v := c.variant
  if a = 0x0 then some (0x5548 * 2 ^ 16 + partOf v)
  else if a = 0x4 then some (c.romVer % 2 ^ 16 * 2 ^ 16 + c.dieMajor % 256 * 256 + c.dieMinor % 256)
  else if a = 0x8 then some (c.uid % 2 ^ 32)
  else if a = 0xC then some (c.uid / 2 ^ 32 % 2 ^ 32)
  else if a = 0x10 then some (cap0 v)
  else if a = 0x14 then some (cap1 v)
  else if a = 0x20 then some (islMask v % 2 ^ 32)
  else if a = 0x24 then some (islMask v / 2 ^ 32)
  else if 0x30000 ≤ a ∧ a < 0x34000 ∧ 0x100 ≤ a % 0x1000 ∧ a % 0x1000 < 0x180 then
    -- EVC_T_VEC resets to its group; targets 2 and 3 read 0
    some (if a < 0x32000 then (a % 0x1000 - 0x100) / 4 else 0)
  else if 0x40000 ≤ a ∧ a < 0x80000 ∧ a % 0x20 = 0 then some (queueCfgReset ((a - 0x40000) / 0x20))
  else if 0x100000 ≤ a ∧ a < 0x240000 ∧ a % 0x10000 = 0 then
    let p := (a - 0x100000) / 0x10000
    some (bit (cpPresent v p) * 4 + bit (!isAphy p))
  else if 0x600000 ≤ a ∧ a < 0x6C0000 ∧ a % 0x20000 = 0 then
    let n := (a - 0x600000) / 0x20000
    let active := decide (n < activeSlices v)
    some (if pixPresent v n then (if active then n else 7) * 16 + bit (!active) * 2 + 1 else 0)
  else if 0x61F000 ≤ a ∧ a < 0x6C0000 ∧ a % 0x20000 = 0x1F004 then some ((a - 0x600000) / 0x20000 * 2 ^ 16)
  else if 0x610000 ≤ a ∧ a < 0x612000 ∧ a % 0x20 = 0 ∧ 0x610000 < a then some 0
  else if 0x612000 < a ∧ a < 0x613000 ∧ a % 0x10 = 0 then some 0
  else if 0x613000 < a ∧ a < 0x614000 ∧ a % 0x10 = 0 then some (2 * 2 ^ 24 + 2 * 2 ^ 16 + 8 * 2 ^ 12 + 8 * 2 ^ 8)
  else if 0x614000 < a ∧ a < 0x616000 ∧ a % 0x20 = 0 then some 0
  else if 0x618000 ≤ a ∧ a < 0x61C000 then
    let o := a % 0x40
    if o = 0 ∧ 0x618000 < a then some (64 * 256)
    else if o = 0x8 then some 0x1000            -- row 0: C0 = 1.0
    else if o = 0xC then some 0
    else if o = 0x10 then some (0x1000 * 2 ^ 16) -- row 1: C1 = 1.0
    else if o = 0x14 then some 0
    else if o = 0x18 then some 0
    else if o = 0x1C then some 0x1000            -- row 2: C2 = 1.0
    else none
  else if 0x61C000 < a ∧ a < 0x61D000 ∧ a % 0x10 = 0 then some 0
  else if 0x61D000 < a ∧ a < 0x61E000 ∧ a % 0x10 = 0 then some 0
  else if 0xB00000 ≤ a ∧ a < 0xB17000 ∧ a % 0x1000 = 0 then
    let i := (a - 0xB00000) / 0x1000
    let role := if i < 16 then 0 else if i < 20 then 1 else if i = 20 then 2 else 3
    some (if i < 20 ∧ ¬ cpPresent v i then 0 else role * 2 + 1)
  else if a = 0xB15008 then some 0x60
  else if a = 0xB16008 then some 0x64
  else if a = 0xD30000 then some 0x100
  else if a = 0xD00004 then some (pick3 v 0x4688 0x7E88 0x7FC8)
  else none

/-- What a register holds after reset, on a device with the given fuses. A register with no reset value in the spec
reads 0 (log entry 4). -/
def regReset (c : Chip) (a : Nat) : Word :=
  match specialReset c a with
  | some n => BitVec.ofNat 32 n
  | none =>
    match regAt a with
    | some (d, _) => tableReset d.flds
    | none => 0

/-- Whether the word address lies in the register space of an absent unit (R2, R36, R150). -/
def absentAt (v : Variant) (a : Nat) : Bool :=
  if 0xC0000 ≤ a ∧ a < 0xE0000 then !hpPresent v ((a - 0xC0000) / 0x10000)
  else if 0xE0000 ≤ a ∧ a < 0x100000 then !hpPresent v ((a - 0xE0000) / 0x1000)
  else if 0x100000 ≤ a ∧ a < 0x240000 then !cpPresent v ((a - 0x100000) / 0x10000)
  else if 0x300000 ≤ a ∧ a < 0x500000 then decide (ctxCount v ≤ (a - 0x300000) / 0x80)
  else if 0x600000 ≤ a ∧ a < 0x6C0000 then
    let o := (a - 0x600000) % 0x20000
    let n := (a - 0x600000) / 0x20000
    if o < 0x10000 then !pixPresent v n
    else if o < 0x1E000 then false
    else if o < 0x1F000 then false
    else decide (activeSlices v ≤ n)
  else if 0x780000 ≤ a ∧ a < 0x7A0000 then !hpPresent v ((a - 0x780000) / 0x10000)
  else if 0x7C0000 ≤ a ∧ a < 0x7C2000 then !txPresent v ((a - 0x7C0000) / 0x1000)
  else if 0x800000 ≤ a ∧ a < 0x804000 then !wpPresent v ((a - 0x800000) / 0x1000)
  else if 0x840000 ≤ a ∧ a < 0x900000 then !fabricOk v
  else if 0x908000 ≤ a ∧ a < 0x90A000 then !ethPresent v ((a - 0x908000) / 0x1000)
  else if 0xA00000 ≤ a ∧ a < 0xA40000 then !posPresent v
  else if 0xA40100 ≤ a ∧ a < 0xA40300 then !cpPresent v ((a - 0xA40100) / 0x20)
  else if 0xB00000 ≤ a ∧ a < 0xB14000 then !cpPresent v ((a - 0xB00000) / 0x1000)
  else false

/-- The variant of the device. -/
def State.variant (s : State) : Variant := s.chip.variant

/-- The stored word of an OP or STAT register. -/
def reg (s : State) (a : Nat) : Word := sget (regReset s.chip) s.regs a

/-- Store a whole OP or STAT register. -/
def setReg (a : Nat) (w : Word) (s : State) : State :=
  { s with regs := sset (regReset s.chip) s.regs a w }

/-- A field of an OP or STAT register. -/
def rd (s : State) (r : RF) : Nat := fld (reg s r.addr) r.hi r.lo

/-- Write a field of an OP or STAT register. -/
def wr (r : RF) (v : Nat) (s : State) : State := setReg r.addr (setFld (reg s r.addr) r.hi r.lo v) s

/-- A one-bit field as a Boolean. -/
def isSet (s : State) (r : RF) : Bool := rd s r != 0

/-- Add to a counter field, saturating at all ones. -/
def addSat (r : RF) (d : Nat) (s : State) : State := wr r (satAdd (r.hi + 1 - r.lo) (rd s r) d) s

/-- Count one event in a saturating counter field. -/
def inc (r : RF) (s : State) : State := addSat r 1 s

/-- Add to a wrapping counter field. -/
def incWrap (r : RF) (s : State) : State := wr r (rd s r + 1) s

/-- A word of a configuration bank. -/
def bankWord (c : Chip) (b : Sparse Word) (a : Nat) : Word := sget (regReset c) b a

/-- A field of a configuration bank. -/
def bankFld (c : Chip) (b : Sparse Word) (r : RF) : Nat := fld (bankWord c b r.addr) r.hi r.lo

/-- A bank with one field changed. -/
def bankSet (c : Chip) (b : Sparse Word) (r : RF) (v : Nat) : Sparse Word :=
  sset (regReset c) b r.addr (setFld (bankWord c b r.addr) r.hi r.lo v)

/-- A field of the active bank (R73). -/
def act (s : State) (r : RF) : Nat := bankFld s.chip s.cfgA r

/-- A field of the basting bank. -/
def bast (s : State) (r : RF) : Nat := bankFld s.chip s.cfgB r

/-- The newest epoch and the oldest epoch with frames in flight. -/
def epochActive (s : State) : Nat := rd s LDR_EPOCH_ACTIVE
def epochOld (s : State) : Nat := rd s LDR_EPOCH_OLD

/-- The bank of an epoch (R78): the active bank for the newest epoch, else the bank kept for the older one (R79). -/
def bankOf (s : State) (ep : Nat) : Sparse Word := if ep = epochActive s then s.cfgA else s.cfgO

/-- A field in the bank of an epoch. -/
def cfgE (s : State) (ep : Nat) (r : RF) : Nat := bankFld s.chip (bankOf s ep) r

/-- The epoch an island holds (0 until the first swap, R77). -/
def islandEpoch (s : State) (i : Nat) : Nat := sget (fun _ => 0) s.islEpoch i

/-- A field as an island has it: the bank of the epoch the island holds. -/
def cfgI (s : State) (isl : Nat) (r : RF) : Nat := cfgE s (islandEpoch s isl) r

/-- A field of the configuration in effect at a unit that applies changes at a quiet point (R120, R231, R283). -/
def eff (s : State) (r : RF) : Nat := bankFld s.chip s.cfgX r

/-- A field of a context's LIVE block: the basting copy and the active copy (R83). -/
def liveBast (s : State) (r : RF) : Nat := bankFld s.chip s.liveB r
def liveAct (s : State) (r : RF) : Nat := bankFld s.chip s.liveA r

/-- TSU_TIME_NS: the low 32 bits of device time (R307). -/
def timeNs (s : State) : Nat := s.now % 2 ^ 32

/-- Time `a` less time `b` by the crossing test of R308: the signed 32-bit difference of their low words. -/
def gapNs (a b : Nat) : Int := sgn 32 (a % 2 ^ 32 + 2 ^ 32 - b % 2 ^ 32)

/-- Nanoseconds from point `p` to device time. -/
def sinceNs (s : State) (p : Nat) : Int := gapNs s.now p

/-- Device time has reached the point (R308). -/
def reached (s : State) (p : Nat) : Bool := decide (0 ≤ sinceNs s p)

/-- The counter as a signed 64-bit time: a step can take it below 0 (R317). -/
def now64 (s : State) : Int := sgn 64 s.now

/-- Nanoseconds that have passed, steps of the counter left out: what durations are measured by. -/
def upNs (s : State) : Nat := (((s.now : Int) - s.time.stepped) % 2 ^ 64).toNat

/-- Put something on a link, bus or pin. -/
def emit (e : Emit) (s : State) : State := { s with out := s.out ++ [e] }

/-- The pair that holds the services of pair A, or of pair B, has stopped and the reserve pair has not taken over yet (R24, R25). -/
def stoppedA (s : State) : Bool := hasBit (rd s SVC_STAT_FAILED) (rd s SVC_STAT_PAIR_A)
def stoppedB (s : State) : Bool := hasBit (rd s SVC_STAT_FAILED) (rd s SVC_STAT_PAIR_B)
def svcStopped (s : State) : Bool := stoppedA s || stoppedB s

/-- The device is in its safe state (R428). -/
def isSafe (s : State) : Bool := isSet s MNT_SAFE_SAFE

end Sys2Proof.Machine
end

