-- ==== Sys2Proof/Machine/Ops.lean ====
section
/-! DEFINITION. The shared operations over state: queues (R263–R282), the journal (R423–R426), error records and the
safe state (R301–R304, R428), and interrupt-free event bits. -/

namespace Sys2Proof.Machine
open Sys2Proof

/-! ## Queues -/

/-- A queue that holds nothing. -/
def emptyQueue : QueueSt := ⟨[], none, [], 0, 0, false, 0⟩

def queueOf (s : State) (q : Nat) : QueueSt := sget (fun _ => emptyQueue) s.queues q

def setQueue (q : Nat) (x : QueueSt) (s : State) : State :=
  { s with queues := sset (fun _ => emptyQueue) s.queues q x }

/-- Words a committed packet occupies: header and payload (R266). -/
def pktWords (p : Pkt) : Nat := 1 + p.words.length

/-- Words of committed packets, claimed ones included. -/
def committedWords (x : QueueSt) : Nat := (x.pkts.map pktWords).sum

/-- Words of the open packet, its reserved header word included (R268). -/
def openWords (x : QueueSt) : Nat := match x.opn with | some o => 1 + o.words.length | none => 0

/-- QMX_Q_WORDS: words in use. -/
def usedWords (x : QueueSt) : Nat := committedWords x + openWords x

/-- Committed, unclaimed packets (QMX_Q_PKTS). -/
def unclaimed (x : QueueSt) : Nat := (x.pkts.filter (fun p => p.claim.isNone)).length

/-- Configuration of a queue in effect (R283). -/
def qEnabled (s : State) (q : Nat) : Bool :=
  decide (0 < q) && decide (q < 8192) && queueUnitPresent s.variant q && eff s (QMX_Q_CFG_ENABLE q) != 0
def qCapacity (s : State) (q : Nat) : Nat := 2 ^ eff s (QMX_Q_CFG_DEPTH_LOG2 q)
def qOverwrite (s : State) (q : Nat) : Bool := eff s (QMX_Q_CFG_MODE q) == 1

/-- Count a loss of `n` packets of a queue: LOST, LOST_SINCE and QMX_EVT.LOST (R273). -/
def qLost (q n : Nat) (s : State) : State :=
  if n = 0 then s
  else
    s |> addSat (QMX_Q_LOST_LOST q) n |> wr QMX_EVT_LOST 1
      |> fun s => setQueue q { queueOf s q with lostSince := true } s

def portOf (s : State) (r : Nat) : PortSt := sget (fun _ => ⟨none, []⟩) s.readPorts r

def setPort (r : Nat) (x : PortSt) (s : State) : State :=
  { s with readPorts := sset (fun _ => ⟨none, []⟩) s.readPorts r x }

/-- End a port's hold on its claim: no words are left to it (R276). -/
def dropClaim (r : Nat) (s : State) : State :=
  s |> setPort r ⟨none, []⟩ |> wr (QMX_RP_STAT_CLAIMED r) 0 |> wr (QMX_RP_STAT_LEFT r) 0

/-- Break the claim of a discarded packet, if it had one (R271, R276). -/
def breakClaim (p : Pkt) (s : State) : State :=
  match p.claim with
  | none => s
  | some r => s |> dropClaim r |> wr (QMX_RP_STAT_BROKEN r) 1 |> wr QMX_EVT_CLAIM_BROKEN 1

/-- The words outside the first and last 32 live in DRAM once moved (R264); never more than the queue holds there. -/
def capDram (x : QueueSt) : QueueSt := { x with dram := min x.dram (usedWords x - 64) }

/-- Discard the oldest committed packet whole (R271 mode 1). -/
def discardOldest (q : Nat) (s : State) : State :=
  match (queueOf s q).pkts with
  | [] => s
  | p :: ps => s |> setQueue q (capDram { queueOf s q with pkts := ps }) |> breakClaim p |> qLost q 1

/-- Discard oldest packets until a word is free; at most one pass per committed packet. -/
def makeRoom (q : Nat) : Nat → State → State
  | 0, s => s
  | n + 1, s => if usedWords (queueOf s q) < qCapacity s q then s else makeRoom q n (discardOldest q s)

/-- Rewind the open packet: the write position returns to the mark (R268). -/
def rewindOpen (q : Nat) (s : State) : State :=
  let x := queueOf s q
  match x.opn with
  | none => s
  | some o => setQueue q (capDram { x with opn := none, wpos := o.mark }) s

/-- Find room for one more word of the open packet under the queue's MODE (R271); true if the packet was dropped. -/
def roomForWord (q : Nat) (s : State) : State × Bool :=
  let x := queueOf s q
  if usedWords x < qCapacity s q then (s, false)
  else if qOverwrite s q && !x.pkts.isEmpty then (makeRoom q x.pkts.length s, false)
  else (s |> rewindOpen q |> qLost q 1, true)

/-- Open a packet at the write position: the mark is recorded and the header word reserved (R268). -/
def openPacket (q producer : Nat) (s : State) : State :=
  let x := queueOf s q
  let r := if usedWords x < qCapacity s q then (s, false)
    else if qOverwrite s q && !x.pkts.isEmpty then (makeRoom q x.pkts.length s, false)
    else (qLost q 1 s, true)
  if r.2 then r.1
  else
    let s := r.1
    let x := queueOf s q
    setQueue q { x with opn := some ⟨producer, x.wpos, []⟩, wpos := (x.wpos + 1) % qCapacity s q } s

/-- What writing one payload word came to. -/
inductive WordResult where
  | written | dropped | oversize | noPacket
deriving DecidableEq, Repr

/-- Write one payload word of the open packet (R271, R272). -/
def putWord (q w : Nat) (s : State) : State × WordResult :=
  match (queueOf s q).opn with
  | none => (s, .noPacket)
  | some o =>
    if qCapacity s q ≤ 1 + o.words.length ∨ 4095 ≤ o.words.length then
      -- the position would reach the packet's own mark, or the packet is too long for LEN
      (s |> rewindOpen q |> inc (QMX_Q_LOST_OVERSIZE q) |> qLost q 1, .oversize)
    else
      let r := roomForWord q s
      if r.2 then (r.1, .dropped)
      else
        let s := r.1
        let x := queueOf s q
        match x.opn with
        | none => (s, .dropped)
        | some o =>
          (setQueue q { x with
            opn := some { o with words := o.words ++ [w % 2 ^ 32] }, wpos := (x.wpos + 1) % qCapacity s q } s, .written)

/-- Write payload words until one is not written. -/
def putWords (q : Nat) : List Nat → State → State × WordResult
  | [], s => (s, .written)
  | w :: ws, s =>
    match putWord q w s with
    | (s', .written) => putWords q ws s'
    | r => r

/-- Make the open packet visible: it takes the next sequence number (R268, R269). -/
def commitOpen (q : Nat) (s : State) : State :=
  let x := queueOf s q
  match x.opn with
  | none => s
  | some o => setQueue q { x with opn := none, seq := u32 (x.seq + 1), pkts := x.pkts ++ [⟨u32 (x.seq + 1), o.words, none⟩] } s

/-- What the service cores receive at a commit: statistics packets (R274), error records to journal (R305). -/
def svcReceive (q : Nat) (ws : List Nat) (s : State) : State :=
  if 64 ≤ q ∧ q ≤ 1087 then { s with svcStats := s.svcStats ++ [(q, ws)] }
  else if q = 2 then { s with jnl := { s.jnl with pend := s.jnl.pend ++ [(3, wordsToBytes ws)] } }
  else s

/-- Set the event bits that announce a packet: once it has committed, or has been dropped (R270, R301). -/
def announce (es : List RF) (s : State) : State := es.foldl (fun s r => wr r 1 s) s

/-- Append one whole packet; false if it was not committed. -/
def appendPacket (q producer : Nat) (ws : List Nat) (s : State) : State × WordResult :=
  let s := openPacket q producer s
  if (queueOf s q).opn.isNone then (s, .dropped)
  else
    match putWords q ws s with
    | (s', .written) => (s' |> commitOpen q |> svcReceive q ws, .written)
    | r => r

/-- A whole packet of a hardware producer or a copy: it waits while another packet of the queue is open (R270), and its event
bits wait with it. A disabled queue takes nothing. -/
def putPlain (q producer : Nat) (ws : List Nat) (isCopy : Bool) (evts : List RF) (s : State) : State × WordResult :=
  if !qEnabled s q then (announce evts s, .noPacket)
  else
    let x := queueOf s q
    if x.opn.isSome then (setQueue q { x with waiting := x.waiting ++ [⟨producer, some ws, isCopy, evts⟩] } s, .noPacket)
    else
      let r := appendPacket q producer ws s
      (announce evts r.1, r.2)

/-- The copy of a packet just committed to `q`, if QMX_Q_COPY names a queue (R274); a copy is never copied again. -/
def putCopy (q : Nat) (ws : List Nat) (s : State) : State × List Nat :=
  let c := eff s (QMX_Q_COPY_COPY_Q q)
  if c = 0 then (s, [])
  else
    match putPlain c 0xFFFF ws true [] s with
    | (s', .oversize) => (s', [c])
    | (s', _) => (s', [])

/-- Put a packet and its copy; the queues that aborted an oversize packet are listed. -/
def qPutRaw (q producer : Nat) (ws : List Nat) (evts : List RF) (s : State) : State × List Nat :=
  match putPlain q producer ws false evts s with
  | (s', .written) => putCopy q ws s'
  | (s', .oversize) => (s', [q])
  | (s', _) => (s', [])

/-- Serve the producers that waited for the open packet, in their order of arrival (R270): whole packets are appended,
its event bits set (R270), and the first producer that writes word by word gets its packet opened. The queues that aborted an oversize packet are
listed. -/
def flushWaiting (q : Nat) : List Waiter → State → State × List Nat
  | [], s => (setQueue q { queueOf s q with waiting := [] } s, [])
  | ⟨p, none, _, _⟩ :: rest, s =>
    let s := openPacket q p s
    if (queueOf s q).opn.isSome then (setQueue q { queueOf s q with waiting := rest } s, [])
    else flushWaiting q rest s
  | ⟨p, some ws, isCopy, evts⟩ :: rest, s =>
    match appendPacket q p ws s with
    | (s', .written) =>
      let c := if isCopy then (announce evts s', []) else putCopy q ws (announce evts s')
      let r := flushWaiting q rest c.1
      (r.1, c.2 ++ r.2)
    | (s', .oversize) => let r := flushWaiting q rest (announce evts s'); (r.1, q :: r.2)
    | (s', _) => flushWaiting q rest (announce evts s')

/-! ## The journal -/

/-- Bytes of the log area: all of the memory from 0x2000 (R424). -/
def logBytes (s : State) : Nat := rd s JNL_STAT_SIZE_MBIT * 131072 - 0x2000

/-- Write bytes into the log as a ring, from a log offset. -/
def logWrite (s : State) (off : Nat) (bs : List Nat) : State :=
  let n := logBytes s
  let first := bs.take (n - off)
  let rest := bs.drop (n - off)
  { s with jmem := memWrite flashDefault (memWrite flashDefault s.jmem (0x2000 + off) first) 0x2000 rest }

/-- The superblock bytes for the present SEQ and PTR (R424). -/
def superblock (s : State) : List Nat :=
  withCrc (padTo 0x3C ([0x43, 0x56, 0x4A, 0x4E] ++ leBytes 4 (rd s JNL_SEQ_ALL) ++ leBytes 4 (rd s JNL_PTR_ALL)
    ++ leBytes 4 (rd s JNL_STAT_SIZE_MBIT)))

/-- Write the superblock copy whose turn it is. -/
def writeSuperblock (s : State) : State :=
  { s with
    jmem := memWrite flashDefault s.jmem (s.jnl.superTurn * 0x40) (superblock s)
    jnl := { s.jnl with superTurn := 1 - s.jnl.superTurn } }

/-- The bytes of a log record with the next sequence number (R426). -/
def logRecord (s : State) (type : Nat) (payload : List Nat) : List Nat :=
  withCrc ([0xA5, type % 256] ++ leBytes 2 payload.length ++ leBytes 4 (u32 (rd s JNL_SEQ_ALL + 1))
    ++ leBytes 4 s.jnl.anchorSec ++ leBytes 4 (timeNs s) ++ payload)

/-! ## Errors -/

/-- Unit codes of error records (R303). -/
def uGLB : Nat := 0x01
def uLDR : Nat := 0x02
def uEVC : Nat := 0x03
def uQMX : Nat := 0x04
def uDMX : Nat := 0x05
def uCPT : Nat := 0x06
def uHTS : Nat := 0x08
def uPIX : Nat := 0x09
def uSEAM : Nat := 0x0A
def uCHK : Nat := 0x0B
def uHLK : Nat := 0x0C
def uWVE : Nat := 0x0E
def uFAB : Nat := 0x0F
def uRLY : Nat := 0x10
def uTSU : Nat := 0x11
def uETH : Nat := 0x12
def uPOS : Nat := 0x13
def uPWR : Nat := 0x14
def uPWM : Nat := 0x15
def uTWB : Nat := 0x16
def uBRG : Nat := 0x17
def uRSV : Nat := 0x18
def uJNL : Nat := 0x19
def uMNT : Nat := 0x1A
def uSVC : Nat := 0x1B

/-- Address of a unit's FIRST_ERR; LAST_ERR and ERR_COUNT follow it. -/
def errBase (unit inst : Nat) : Nat :=
  if unit = uGLB then 0x50
  else if unit = uEVC then 0x26000
  else if unit = uQMX then 0xA0004
  else if unit = uDMX then 0xE0008 + 0x1000 * (inst / 128)
  else if unit = uCPT then 0x100144 + 0x10000 * inst
  else if unit = uHTS then 0x61E020
  else if unit = uPIX then 0x600024 + 0x20000 * inst
  else if unit = uSEAM then 0x700004
  else if unit = uCHK then 0x740004
  else if unit = uHLK then 0x780024 + 0x10000 * inst
  else if unit = uWVE then 0x800044 + 0x1000 * inst
  else if unit = uFAB then 0x840018
  else if unit = uRLY then 0x880020
  else if unit = uTSU then 0x90002C
  else if unit = uETH then 0x908024 + 0x1000 * inst
  else if unit = uPOS then 0xA00024
  else if unit = uPWR then 0xA40018
  else if unit = uPWM then 0xA80004
  else if unit = uTWB then 0xB00024 + 0x1000 * inst
  else if unit = uBRG then 0xC00030
  else if unit = uRSV then 0xD00024
  else if unit = uJNL then 0xD10018
  else if unit = uMNT then 0xD20044
  else 0xD30008

/-- The island whose epoch a unit's error record carries (R472). -/
def errIsland (unit inst : Nat) : Nat :=
  if unit = uGLB ∨ unit = uEVC then islAO
  else if unit = uCPT then islCP inst
  else if unit = uPIX then islPIX inst
  else if unit = uHLK then islHL inst
  else if unit = uWVE then islWV inst
  else if unit = uTSU then islTIME
  else if unit = uETH then islETH
  else if unit = uPOS ∨ unit = uPWR ∨ unit = uPWM then islPOS
  else if unit = uTWB then (if inst < 20 then islCP inst else islAO)
  else if unit = uFAB ∨ unit = uRLY ∨ unit = uRSV ∨ unit = uJNL ∨ unit = uMNT ∨ unit = uSVC then islSVC
  else islCORE

/-- What a unit reports with an error. -/
structure ErrInfo where
  unit : Nat
  inst : Nat
  code : Nat
  /-- LAST_ERR bits [30:8] in place; VALID and CODE are added. -/
  info : Nat := 0
  arg1 : Nat := 0xFFFFFFFF
  arg2 : Nat := 0
  /-- the event bits that the unit's chapter names for the error: set once its record has committed (R270, R301). -/
  evts : List RF := []
deriving DecidableEq, Repr

/-- The bytes of an error record (R302). -/
def errorRecord (s : State) (e : ErrInfo) (fatal first : Bool) (lastErr count : Nat) : List Nat :=
  withCrc ([e.unit % 256, e.inst % 256, e.code % 256, bit fatal + 2 * bit first]
    ++ leBytes 2 (islandEpoch s (errIsland e.unit e.inst)) ++ [0, 0] ++ leBytes 4 (timeNs s) ++ leBytes 4 lastErr
    ++ leBytes 4 e.arg1 ++ leBytes 4 e.arg2 ++ leBytes 4 count)

/-- The same error with one more event bit. -/
def ErrInfo.setting (e : ErrInfo) (r : RF) : ErrInfo := { e with evts := e.evts ++ [r] }

/-- Handle an error (R301): LAST_ERR, ERR_COUNT, FIRST_ERR while it is free, one record to queue 2 (R302), and then the event
bits. -/
def logError (fatal : Bool) (e : ErrInfo) (s : State) : State :=
  let b := errBase e.unit e.inst
  let last := 2 ^ 31 + e.info + e.code
  let first := !(isSet s ⟨b, 31, 31⟩)
  let s := wr ⟨b + 4, 31, 0⟩ last s
  let s := inc ⟨b + 8, 31, 0⟩ s
  let s := if first then wr ⟨b, 31, 0⟩ last s else s
  let rec32 := errorRecord s e fatal first last (rd s ⟨b + 8, 31, 0⟩)
  (qPutRaw 2 e.unit (bytesToWords 8 rec32) e.evts s).1

/-- An error that is not of fatal class. -/
def recordError (e : ErrInfo) (s : State) : State := logError false e s

/-- The event bit of a queue-engine error (R272, R280, R281). -/
def qmxEvt (code : Nat) : RF := if code = 1 then QMX_EVT_OVERSIZE else if code = 2 then QMX_EVT_PTR_RESET else QMX_EVT_SPILL_ECC

/-- A queue-engine error (R285); the queue stands in LAST_ERR [20:8]. -/
def qmxError (code q : Nat) (s : State) : State :=
  recordError { unit := uQMX, inst := 0, code, info := q * 256, evts := [qmxEvt code] } s

/-- Oversize aborts are recorded once the queue is rewound (R272). -/
def oversizeErrors (qs : List Nat) (s : State) : State := qs.foldl (fun s q => qmxError 1 q s) s

/-- Commit a packet to a queue (R268–R274) and then set the event bits that announce it (R270). -/
def qPutEvt (q producer : Nat) (ws : List Nat) (evts : List RF) (s : State) : State :=
  let r := qPutRaw q producer ws evts s
  oversizeErrors r.2 r.1

/-- Commit a packet that no event bit announces. -/
def qPut (q producer : Nat) (ws : List Nat) (s : State) : State := qPutEvt q producer ws [] s

/-- Write one log record to the journal memory, if it answers, and commit it to queue 3 (R423, R426). It counts among the second's
records, but for a SAFE record, which ISL_AO writes. -/
def journal (type : Nat) (payload : List Nat) (s : State) : State :=
  let bs := logRecord s type payload
  let s := if type = 9 then s else { s with jnl := { s.jnl with secCount := s.jnl.secCount + 1 } }
  let s := wr JNL_SEQ_ALL (rd s JNL_SEQ_ALL + 1) s
  let s :=
    if isSet s JNL_STAT_OK then
      let off := rd s JNL_PTR_ALL
      writeSuperblock (wr JNL_PTR_ALL ((off + bs.length) % logBytes s) (logWrite s off bs))
    else s
  qPut 3 uJNL (bytesToWords bs.length bs) s

end Sys2Proof.Machine
end

