-- ==== Sys2Proof/Machine/Flags.lean ====
section
/-! DEFINITION. The conditions of the event sources: which unit's flags assert which source (R35, R89, R122, R152, R181,
R208, R233, R262, R286, R326, R354, R383, R416, R436), and which sources never assert (R36, R65, R287). -/

namespace Sys2Proof.Machine
open Sys2Proof

/-- Bit `k` of an event register, as the level of a source that follows it. -/
def evtBit (s : State) (addr k : Nat) : Bool := hasBit (reg s addr).toNat k

/-- Whether a source exists in the variant: neither reserved nor of an absent unit (R36, R287). -/
def sourceExists (v : Variant) (src : Nat) : Bool :=
  if src < 0x001 then false
  else if src ≤ 0x004 then true
  else if src < 0x010 then false
  else if src ≤ 0x018 then true
  else if src < 0x040 then false
  else if src < 0x0E0 then cpPresent v ((src - 0x040) / 8)
  else if src < 0x160 then decide ((src - 0x0E0) / 2 * 256 < ctxCount v)
  else if src < 0x190 then
    let k := (src - 0x160) % 8
    pixPresent v ((src - 0x160) / 8) && (k == 0 || k == 1 || k == 4 || k == 5)
  else if src < 0x1A0 then false
  else if src ≤ 0x1A1 then true
  else if src < 0x1A8 then false
  else if src ≤ 0x1AD then true
  else if src < 0x1B0 then false
  else if src ≤ 0x1B1 then txPresent v (src - 0x1B0)
  else if src < 0x1E0 then false
  else if src < 0x2E0 then hpPresent v ((src - 0x1E0) / 128)
  else if src < 0x300 then hpPresent v ((src - 0x2E0) / 16) && decide ((src - 0x2E0) % 16 < 8)
  else if src ≤ 0x305 then true
  else if src < 0x320 then false
  else if src < 0x330 then wpPresent v ((src - 0x320) / 4)
  else if src ≤ 0x334 then fabricOk v
  else if src < 0x340 then false
  else if src ≤ 0x346 then fabricOk v
  else if src < 0x360 then false
  else if src ≤ 0x364 then true
  else if src < 0x370 then false
  else if src < 0x380 then ethPresent v ((src - 0x370) / 8) && decide ((src - 0x370) % 8 < 5)
  else if src ≤ 0x386 then posPresent v
  else if src = 0x387 then false
  else if src < 0x390 then posPresent v
  else if src < 0x3A0 then cpPresent v (src - 0x390)
  else if src = 0x3A0 then true
  else if src < 0x3B0 then false
  else if src ≤ 0x3B5 then true
  else if src < 0x3C0 then false
  else if src ≤ 0x3D6 then (decide (0x3D4 ≤ src) || cpPresent v (src - 0x3C0))
  else if src < 0x3E0 then false
  else if src ≤ 0x3E3 then true
  else if src < 0x3F0 then false
  else if src ≤ 0x3F5 then true
  else if src < 0x3F8 then false
  else src ≤ 0x3FD

/-- The condition of a source, as its unit's chapter states it. -/
def condition (s : State) (src : Nat) : Bool :=
  if src = 0x001 then reg s 0x40 != 0
  else if src = 0x002 then reg s 0x48 != 0
  else if src = 0x003 then reg s 0x30 != 0 || reg s 0x34 != 0
  else if src = 0x004 then isSet s GLB_XING_TO_COUNT
  else if src < 0x020 then evtBit s 0x10040 (src - 0x010)
  else if src < 0x0E0 then evtBit s (0x100140 + 0x10000 * ((src - 0x040) / 8)) ((src - 0x040) % 8)
  else if src < 0x160 then
    let g := (src - 0x0E0) / 2
    evtBit s (0x61E000 + 8 * ((src - 0x0E0) % 2) + 4 * (g / 32)) (g % 32)
  else if src < 0x190 then evtBit s (0x600020 + 0x20000 * ((src - 0x160) / 8)) ((src - 0x160) % 8)
  else if src < 0x1A8 then evtBit s 0x700000 (src - 0x1A0)
  else if src < 0x1B0 then evtBit s 0x740000 (src - 0x1A8)
  else if src < 0x1E0 then evtBit s (0x7C000C + 0x1000 * (src - 0x1B0)) 0
  else if src < 0x2E0 then
    let c := src - 0x1E0
    (reg s (0xC0060 + 0x200 * c)) &&& (reg s (0xC0064 + 0x200 * c)) != 0
  else if src < 0x300 then evtBit s (0x780020 + 0x10000 * ((src - 0x2E0) / 16)) ((src - 0x2E0) % 16)
  else if src < 0x320 then evtBit s 0xA0000 (src - 0x300)
  else if src < 0x330 then evtBit s (0x800040 + 0x1000 * ((src - 0x320) / 4)) ((src - 0x320) % 4)
  else if src < 0x340 then evtBit s 0x840014 (src - 0x330)
  else if src < 0x360 then evtBit s 0x88001C (src - 0x340)
  else if src < 0x370 then evtBit s 0x900028 (src - 0x360)
  else if src < 0x380 then evtBit s (0x908020 + 0x1000 * ((src - 0x370) / 8)) ((src - 0x370) % 8)
  else if src < 0x388 then evtBit s 0xA00020 (src - 0x380)
  else if src < 0x390 then evtBit s 0xA00030 (src - 0x388)
  else if src < 0x3A0 then reg s (0xA4011C + 0x20 * (src - 0x390)) != 0
  else if src < 0x3B0 then evtBit s 0xA40014 0
  else if src < 0x3C0 then evtBit s 0xA80000 (src - 0x3B0)
  else if src < 0x3E0 then reg s (0xB00020 + 0x1000 * (src - 0x3C0)) != 0
  else if src < 0x3F0 then evtBit s 0xC00008 (src - 0x3E0)
  else if src < 0x3F4 then evtBit s 0xD00020 (src - 0x3F0)
  else if src < 0x3F8 then evtBit s 0xD10014 (src - 0x3F4)
  else if src < 0x3FC then evtBit s 0xD20040 (src - 0x3F8)
  else evtBit s 0xD30004 (src - 0x3FC)

/-- LDR_EVT.LOADED has been set since reset: until then only sources 0x001–0x01F assert (R65). -/
def loadedOnce (s : State) : Bool := s.ldr.loaded

/-- The level of a source: it asserts exactly while its condition holds (R287). -/
def sourceLevel (s : State) (src : Nat) : Bool :=
  sourceExists s.variant src && condition s src && (loadedOnce s || decide (src < 0x020))

end Sys2Proof.Machine
end

