-- ==== Sys2Proof/Machine/Events.lean ====
section
/-! DEFINITION. The event controller (R287–R306): levels, pair states, claims, completions, pacers, notification. -/

namespace Sys2Proof.Machine
open Sys2Proof

/-! ## Pair states and claimability -/

def hostPort (s : State) (p : Nat) : HostPortSt := sget (fun _ => resetHostPort) s.hostPorts p

def setHostPort (p : Nat) (x : HostPortSt) (s : State) : State :=
  { s with hostPorts := sset (fun _ => resetHostPort) s.hostPorts p x }

/-- Priority and pacer group of a source, as ISL_AO has them (R294). -/
def prioOf (s : State) (src : Nat) : Nat := cfgI s islAO (EVC_SRC_CFG_PRIO src)
def groupOf (s : State) (src : Nat) : Nat := cfgI s islAO (EVC_SRC_CFG_PACER src)

/-- EVC_SRC_LEVEL: the level the controller has for a source. -/
def levelOf (s : State) (src : Nat) : Bool := hasBit (rd s (EVC_SRC_LEVEL_LEVEL (src / 32))) (src % 32)
def enabledAt (s : State) (t src : Nat) : Bool := hasBit (rd s (EVC_T_EN_EN t (src / 32))) (src % 32)
def activeAt (s : State) (t src : Nat) : Bool := hasBit (rd s (EVC_T_ACTIVE_ACTIVE t (src / 32))) (src % 32)

/-- (s, t) is PENDING: not active, level 1, enabled (R289). -/
def pendingAt (s : State) (t src : Nat) : Bool := levelOf s src && enabledAt s t src && !activeAt s t src

/-- The set bits of a bitmap array of 33 words whose word `w` is `g w`, as source numbers in rising order. -/
def sourcesOf (g : Nat → Nat) : List Nat :=
  (List.range 33).flatMap fun w =>
    let v := g w
    if v = 0 then [] else ((List.range 32).filter (hasBit v)).map (· + 32 * w)

/-- Sources active at a target, and sources with level and enable. -/
def activeList (s : State) (t : Nat) : List Nat := sourcesOf fun w => rd s (EVC_T_ACTIVE_ACTIVE t w)
def pendWord (s : State) (t w : Nat) : Nat := Nat.land (rd s (EVC_SRC_LEVEL_LEVEL w)) (rd s (EVC_T_EN_EN t w))
def pendingList (s : State) (t : Nat) : List Nat :=
  (sourcesOf (pendWord s t)).filter fun src => !activeAt s t src

/-- The pre-emption level of a priority (R290). -/
def preOf (s : State) (t prio : Nat) : Nat := prio >>> (8 - rd s (EVC_T_SPLIT_SPLIT t))

/-- RUN_PRE: the largest pre-emption level among the active sources, or none. -/
def runPre (s : State) (t : Nat) : Option Nat :=
  match activeList s t with
  | [] => none
  | l => some (maxOf (l.map fun src => preOf s t (prioOf s src)))

/-- PRE of the source exceeds RUN_PRE, or nothing runs. -/
def aboveRun (s : State) (t src : Nat) : Bool :=
  match runPre s t with
  | none => true
  | some r => decide (r < preOf s t (prioOf s src))

/-- Claimable sources of a target, in rising source number (R290). -/
def claimable (s : State) (t : Nat) : List Nat :=
  (pendingList s t).filter fun src => prioOf s src != 0 && aboveRun s t src

/-- The most urgent of a list: greatest PRIO, then the lower number (R290). -/
def mostUrgent (s : State) : List Nat → Option Nat
  | [] => none
  | x :: xs =>
    match mostUrgent s xs with
    | none => some x
    | some y => if prioOf s x < prioOf s y then some y else some x

/-- The pacer (g, t) runs (R295). -/
def pacerRuns (s : State) (g t : Nat) : Bool := hasBit (rd s (EVC_PACER_RUN_RUN t)) g

/-- The notifiable set N_t (R296). -/
def notifiable (s : State) (t : Nat) : List Nat :=
  (claimable s t).filter fun src => !pacerRuns s (groupOf s src) t

/-! ## Notification -/

/-- An event-controller error; source and target stand in LAST_ERR (R306). -/
def evcErr (code src t : Nat) : ErrInfo := { unit := uEVC, inst := 0, code, info := src * 2 ^ 16 + t * 2 ^ 8 }

/-- The vector is treated as masked (R238). -/
def vectorMasked (s : State) (p v : Nat) : Bool :=
  isSet s (MSIX_CTRL_MASK p v) || !(hostPort s p).msixEnable || (hostPort s p).funcMask

/-- The port can send a message now (R296). -/
def canSendMsix (s : State) (p : Nat) : Bool := isSet s (HLK_STAT_UP p) && isSet s (HLK_STAT_BME p) && !isSet s (HLK_STAT_D3 p)

def setPba (p v : Nat) (b : Bool) (s : State) : State := wr ⟨(MSIX_PBA_PEND p (v / 32)).addr, v % 32, v % 32⟩ (bit b) s
def pbaSet (s : State) (p v : Nat) : Bool := hasBit (rd s (MSIX_PBA_PEND p (v / 32))) (v % 32)

/-- Send a message, or discard it with error 0x01 if the port cannot send (R296). -/
def sendMsix (p v src : Nat) (s : State) : State :=
  if canSendMsix s p then s |> setPba p v false |> emit (.msix p v)
  else s |> setPba p v false |> recordError (evcErr 0x01 src p)

/-- Issue a message for the most urgent source of N_t: sent, or held by the PBA bit of a masked vector (R296). -/
def issueMsix (p src : Nat) (s : State) : State :=
  let v := rd s (EVC_T_VEC_VEC p (groupOf s src))
  let s := inc (EVC_T_CNT_NOTIFY p) s
  if vectorMasked s p v then
    let h := hostPort s p
    s |> setPba p v true |> setHostPort p { h with msixSrc := sset (fun _ => 0) h.msixSrc v src }
  else sendMsix p v src s

/-- Set NOTE_PRIO; pending messages are withdrawn when it falls to 0 (R296). -/
def setNote (p b : Nat) (s : State) : State :=
  let s := wr (EVC_T_STAT_NOTE_PRIO p) b s
  if b = 0 then s |> wr (MSIX_PBA_PEND p 0) 0 |> wr (MSIX_PBA_PEND p 1) 0 else s

/-- Evaluate the notification of a host target (R296). -/
def notifyHost (t : Nat) (s : State) : State :=
  let note := rd s (EVC_T_STAT_NOTE_PRIO t)
  if isSet s (EVC_T_CTRL_GDIS t) then (if note = 0 then s else setNote t 0 s)
  else
    match mostUrgent s (notifiable s t) with
    | none => if note = 0 then s else setNote t 0 s
    | some src =>
      let b := prioOf s src
      if note < b then s |> wr (EVC_T_STAT_NOTE_PRIO t) b |> issueMsix t src
      else if b < note then setNote t b s
      else s

/-- N_t is not empty and GDIS is 0: the line of targets 2 and 3, and EVC_T_STAT.NOTIFY. -/
def wantsNotify (s : State) (t : Nat) : Bool := !(notifiable s t).isEmpty && !isSet s (EVC_T_CTRL_GDIS t)

/-- Evaluate INT_N (target 2) or the internal line (target 3) (R297); INT_N stays low in the safe state (R428). -/
def notifyLine (t : Nat) (s : State) : State :=
  let want := wantsNotify s t
  let now := if t = 2 then s.pins.intLow else s.pins.svcLine
  let s := if want && !now then inc (EVC_T_CNT_NOTIFY t) s else s
  if t = 2 then { s with pins := { s.pins with intLow := want || isSafe s } }
  else { s with pins := { s.pins with svcLine := want } }

/-- Evaluate one target. -/
def notify (t : Nat) (s : State) : State := if t < 2 then notifyHost t s else notifyLine t s

/-- Evaluate every target. -/
def notifyAll (s : State) : State := s |> notify 0 |> notify 1 |> notify 2 |> notify 3

/-! ## Sources -/

/-- Set the level bit of a source. -/
def setLevel (src : Nat) (b : Bool) (s : State) : State :=
  wr ⟨(EVC_SRC_LEVEL_LEVEL (src / 32)).addr, src % 32, src % 32⟩ (bit b) s

/-- A rising level sets the alert latch of every two-wire target that selects the source (R369). -/
def alertOn (src t : Nat) (s : State) : State :=
  if (cfgI s islAO (TWB_T_ALERT_SEL_SRC0 t) = src ∨ cfgI s islAO (TWB_T_ALERT_SEL_SRC1 t) = src) then
    { wr (TWB_STAT_ALERT (21 + t)) 1 s with pins := { s.pins with alertLow := true } }
  else s

/-- The controller sees a source at its level (R289, R300). -/
def updateSource (src : Nat) (s : State) : State :=
  let l := sourceLevel s src
  if l = levelOf s src then s
  else
    let s := setLevel src l s
    let s := if l then s |> alertOn src 0 |> alertOn src 1 else s
    notifyAll s

/-- SOURCE_LEVEL_CHANGE: the level of a source is brought to its condition, pair states follow, targets are notified. -/
def execSourceLevelChange (src : Nat) (s : State) : Host.Outcome State Fault Refusal :=
  .next (if src = 0 ∨ 0x400 < src then s else updateSource src s)

/-! ## Accesses to a target window -/

/-- The only originator of a target's window (R288). -/
def targetOrig (t : Nat) : Orig := if t = 0 then .hp0 else if t = 1 then .hp1 else if t = 2 then .t0 else .svc

/-- The originator exists in this variant (R36, R288). -/
def origPresent (v : Variant) (o : Orig) : Bool :=
  match o with
  | .hp1 => hpPresent v 1
  | .weave _ => fabricOk v
  | .diag p => ethPresent v p
  | _ => true

/-- The originator may write: two-wire target 1 and the diagnostic channel only read (R324, R364). -/
def writes (o : Orig) : Bool :=
  match o with
  | .t1 => false
  | .diag _ => false
  | _ => true

/-- An access to an unassigned address: counted and latched (R30). -/
def mapMiss (a : Nat) (s : State) : State := s |> inc GLB_MAP_MISS_CNT_COUNT |> wr GLB_MAP_MISS_ADDR_ADDR a

/-- A refused CFG write: counted and latched (R10). -/
def deny (a : Nat) (s : State) : State := s |> inc GLB_CFG_DENY_CNT_COUNT |> wr GLB_CFG_DENY_ADDR_ADDR a

/-- A register write by an originator to something only another may reach: handled as R30. -/
def guardOrig (o owner : Orig) (a : Nat) (act : State → State) (s : State) : State :=
  if !origPresent s.variant o || !writes o then s
  else if o = owner then act s
  else mapMiss a s

/-- Start pacer (g, t) from its hold-off; a hold-off of 0 never runs (R295). -/
def startPacer (g t : Nat) (s : State) : State :=
  wr ⟨(EVC_PACER_RUN_RUN t).addr, g, g⟩ (bit (cfgI s islAO (EVC_PACER_HOLDOFF_US g) != 0)) s

def setActive (t src : Nat) (b : Bool) (s : State) : State :=
  wr ⟨(EVC_T_ACTIVE_ACTIVE t (src / 32)).addr, src % 32, src % 32⟩ (bit b) s

/-- HELD: a pending source with PRIO ≠ 0 whose PRE does not exceed RUN_PRE (R291). -/
def heldBack (s : State) (t : Nat) : Bool :=
  (pendingList s t).any fun src => prioOf s src != 0 && !aboveRun s t src

/-- The claim word of a target and the state after the claim (R291, R298). -/
def claimWord (t : Nat) (s : State) : State × Nat :=
  if isSet s (EVC_T_CTRL_GDIS t) then (inc (EVC_T_CNT_EMPTY t) s, 2 ^ 31)
  else
    match mostUrgent s (claimable s t) with
    | none => (inc (EVC_T_CNT_EMPTY t) s, bit (heldBack s t) * 2 ^ 30)
    | some src =>
      let g := groupOf s src
      let s' := s |> setActive t src true |> startPacer g t
      (s', bit (heldBack s' t) * 2 ^ 30 + bit (!(claimable s' t).isEmpty) * 2 ^ 29 + g * 2 ^ 24
        + prioOf s src * 2 ^ 16 + src)

/-- A register read that only one originator may make; to another it answers 0, as an unassigned address does (R30). -/
def guardRead (o owner : Orig) (a : Nat) (act : State → State) (s : State) : State :=
  if !origPresent s.variant o then s
  else if o = owner then act s
  else s |> mapMiss a |> emit (.readData o a 0)

/-- CLAIM: a read of EVC_T_CLAIM delivers the most urgent claimable source (R291). -/
def doClaim (o : Orig) (t : Nat) (s : State) : State :=
  guardRead o (targetOrig t) (EVC_T_CLAIM_ALL t).addr
    (fun s => let r := claimWord t s; r.1 |> notify t |> emit (.readData o (EVC_T_CLAIM_ALL t).addr r.2)) s

def execClaim (o : Orig) (t : Nat) (s : State) : Host.Outcome State Fault Refusal :=
  .next (if t < 4 then doClaim o t s else s)

/-- COMPLETE: the source's active state ends; completing one that is not active is error 0x02 (R292). -/
def doComplete (o : Orig) (t src : Nat) (s : State) : State :=
  guardOrig o (targetOrig t) (EVC_T_COMPLETE_ALL t).addr
    (fun s => if activeAt s t src then s |> setActive t src false |> notify t
      else recordError (evcErr 0x02 src t) s) s

def execComplete (o : Orig) (t src : Nat) (s : State) : Host.Outcome State Fault Refusal :=
  .next (if t < 4 then doComplete o t (src % 2048) s else s)

/-- The enable bits of word `w` that exist: bits of reserved or absent sources read 0 and ignore writes. -/
def enableMask (v : Variant) (w : Nat) : Nat :=
  bitsOf ((List.range 32).filter fun i => sourceExists v (32 * w + i))

/-- ENABLE_WRITE: which sources are enabled changes at once (R289, R293). -/
def doEnableWrite (o : Orig) (t w v : Nat) (s : State) : State :=
  guardOrig o (targetOrig t) (EVC_T_EN_ALL t w).addr
    (fun s => s |> wr (EVC_T_EN_EN t w) (Nat.land v (enableMask s.variant w)) |> notify t) s

def execEnableWrite (o : Orig) (t w v : Nat) (s : State) : Host.Outcome State Fault Refusal :=
  .next (if t < 4 ∧ w < 33 then doEnableWrite o t w v s else s)

/-- GDIS: the target's global disable is set or cleared (R298). -/
def doGdis (o : Orig) (t v : Nat) (s : State) : State :=
  guardOrig o (targetOrig t) (EVC_T_CTRL_ALL t).addr (fun s => s |> wr (EVC_T_CTRL_GDIS t) v |> notify t) s

def execGdis (o : Orig) (t v : Nat) (s : State) : Host.Outcome State Fault Refusal :=
  .next (if t < 4 then doGdis o t v s else s)

/-- SPLIT: the pre-emption split changes and RUN_PRE is recomputed (R290, R294). -/
def doSplit (o : Orig) (t v : Nat) (s : State) : State :=
  guardOrig o (targetOrig t) (EVC_T_SPLIT_ALL t).addr (fun s => s |> wr (EVC_T_SPLIT_SPLIT t) v |> notify t) s

def execSplit (o : Orig) (t v : Nat) (s : State) : Host.Outcome State Fault Refusal :=
  .next (if t < 4 then doSplit o t v s else s)

/-- PACER_EXPIRE: the hold-off of (g, t) ends and the group may notify again (R295). -/
def doPacerExpire (g t : Nat) (s : State) : State :=
  if pacerRuns s g t then s |> wr ⟨(EVC_PACER_RUN_RUN t).addr, g, g⟩ 0 |> notify t else s

def execPacerExpire (g t : Nat) (s : State) : Host.Outcome State Fault Refusal :=
  .next (if g < 32 ∧ t < 4 then doPacerExpire g t s else s)

/-- A reset of host target `p` (R299). -/
def resetTarget (p : Nat) (s : State) : State :=
  let s := (List.range 33).foldl (fun s w =>
    s |> wr (EVC_T_ACTIVE_ACTIVE p w) 0 |> wr (EVC_T_EN_EN p w) 0) s
  let s := (List.range 32).foldl (fun s g => wr (EVC_T_VEC_VEC p g) g s) s
  s |> wr (EVC_T_CTRL_GDIS p) 0 |> wr (EVC_T_SPLIT_SPLIT p) 0 |> setNote p 0 |> wr (EVC_PACER_RUN_RUN p) 0

end Sys2Proof.Machine
end

