-- ==== Sys2Proof/Machine/Spares.lean ====
section
/-! DEFINITION. The reserve manager's books (R417, R421, R422, R425): spares left, retirements, the state area of the
journal, and what ends a replacement. -/

namespace Sys2Proof.Machine
open Sys2Proof

def retiredMask (s : State) (kind : Nat) : Nat := sget (fun _ => 0) s.rsv.retired kind

/-- Spares that a device has of a kind when new (R1, R417); a kind's spares of a weave lane are one to a port. -/
def spareCount (kind : Nat) : Nat :=
  if kind = 0 then 1
  else if kind = 1 then Config.sramSpareRows
  else if kind = 2 then Config.dramSpareRows
  else if kind = 4 then 1
  else if kind = 5 then 4
  else 1

/-- TOTALS word 5 + kind counts the spares used (R425). -/
def sparesUsed (s : State) (kind : Nat) : Nat := sget (fun _ => 0) s.rsv.totals (5 + kind)

/-- A kind (for a weave lane, a port) has a spare left. -/
def spareLeft (s : State) (kind inst : Nat) : Bool :=
  if kind = 3 then
    -- the spare lane of the port (R384) is used once
    ((List.range 5).filter fun l => hasBit (retiredMask s 3) (8 * (inst / 8) + l)).isEmpty
  else decide (sparesUsed s kind < spareCount kind)

/-- Add to a word of TOTALS. -/
def addTotal (i n : Nat) (s : State) : State :=
  { s with rsv := { s.rsv with totals := sset (fun _ => 0) s.rsv.totals i (u32 (sget (fun _ => 0) s.rsv.totals i + n)) } }

/-- RSV_LEFT as it reads now. -/
def rsvLeft (s : State) : Nat :=
  let left (k cap : Nat) : Nat := min cap (spareCount k - sparesUsed s k)
  let dram := if spareCount 2 = 0 then 0 else min 15 (16 * (spareCount 2 - sparesUsed s 2) / spareCount 2)
  left 1 0xFFFF * 2 ^ 16 + dram * 2 ^ 12 + left 5 15 * 2 ^ 8 + left 6 15 * 2 ^ 4 + left 4 3 * 2 ^ 2 + left 0 3

/-- The islands that are clocked: all present ones, but for those of retired slices (R422); in park mode those of R18 alone. -/
def clocked (s : State) (i : Nat) : Bool :=
  islPresent s.variant i && (if s.mnt.parked then i == 0 || i == 1 || i == 37 else !(decide (22 ≤ i) && decide (i < 28) && hasBit (retiredMask s 0) (i - 22)))

/-- GLB_ISL_RUN follows the clocks (R33). -/
def showClocks (s : State) : State :=
  let m := bitsOf ((List.range 40).filter (clocked s))
  s |> wr GLB_ISL_RUN_LO_RUN m |> wr GLB_ISL_RUN_HI_RUN (m / 2 ^ 32)

def rsvErr (code kind : Nat) : ErrInfo := { unit := uRSV, inst := 0, code, info := kind * 256 }

/-! ## Wear (R417) -/

/-- Time of operation: park time is excluded (R417). -/
def operNs (s : State) : Nat := upNs s - s.mnt.parkNs

/-- Signals of one resource that reach its threshold (the Replaced when column). -/
def wearLimit (s : State) (kind signal : Nat) : Nat :=
  if kind = 0 ∧ signal = 2 then 4
  else if (kind = 1 ∨ kind = 2) ∧ signal = 0 then cfgI s islSVC RSV_CFG_ECC_ROW_THR
  else if kind = 1 ∧ signal = 2 then 2
  else if kind = 3 ∧ signal = 0 then 64
  else if kind = 6 ∧ signal = 0 then 4
  else 1

/-- The window that signals are counted over: 1 h for a weave lane, else 24 h. -/
def wearWindow (kind : Nat) : Nat := if kind = 3 then 3600000000000 else 24 * 3600000000000

/-- A threshold has been reached: WEAR, error 0x01, and a replacement is due. -/
def wearReached (kind inst row signal : Nat) (s : State) : State :=
  let s := s |> recordError ((rsvErr 1 kind).setting RSV_EVT_WEAR)
  if s.rsv.due.any fun d => d.1 == kind && d.2.1 == inst && d.2.2.1 == row then s
  else { s with rsv := { s.rsv with due := s.rsv.due ++ [(kind, inst, row, signal)] } }

/-- `n` signals of a resource: they are counted with those of the window before, and those of older times are forgotten. -/
def noteWear (kind inst row signal n : Nat) (s : State) : State :=
  let t := operNs s
  let same (x : WearNote) : Bool := x.kind == kind && x.inst == inst && x.row == row && x.signal == signal
  let recent := s.rsv.wears.filter fun x => same x && decide (t < x.at_ + wearWindow kind)
  let rest := s.rsv.wears.filter fun x => !same x
  if n = 0 then s
  else if wearLimit s kind signal ≤ (recent.map (·.count)).sum + n then
    wearReached kind inst row signal { s with rsv := { s.rsv with wears := rest } }
  else { s with rsv := { s.rsv with wears := rest ++ recent ++ [⟨kind, inst, row, signal, t, n⟩] } }

/-- Signals of the memory row at `a`, as macro or bank × 2^16 + row: kind 1 SRAM, 2 DRAM. -/
def noteRow (kind a signal : Nat) (s : State) : State := noteWear kind (a / 2 ^ 16 % 4096) (a % 2 ^ 16) signal 1 s

/-- The bytes of the state area (R425). The layout inside RETIRED is the model's (log entry 9). -/
def stateArea (s : State) : List Nat :=
  let word (f : Nat → Nat) (n : Nat) : List Nat := (List.range n).flatMap fun i => leBytes 4 (f i)
  let fid := match s.jnl.stickyFid with | some f => 0x80 + f % 32 | none => 0
  let retired := padTo 64 ([retiredMask s 0 % 256, retiredMask s 4 % 256, retiredMask s 6 % 256, 0]
    ++ leBytes 4 (retiredMask s 3) ++ word (sget (fun _ => 0) s.rsv.laneMaps) 4 ++ leBytes 4 s.rsv.pllMap ++ leBytes 8 (retiredMask s 5))
  withCrc (padTo 0x7FC
    (leBytes 4 s.jnl.areaSeq ++ leBytes 8 s.chip.uid ++ [fid, 0, 0, 0] ++ retired
      ++ (List.range 32).flatMap (fun f => leBytes 8 (sget (fun _ => 0) s.jnl.fidTable f))
      ++ word (sget (fun _ => 0) s.rsv.totals) 12 ++ leBytes 4 (min 256 s.rsv.remap.length)
      ++ (s.rsv.remap.take 256).flatMap (leBytes 4)))

/-- Write the state area, the copies alternately (R425); without a journal memory it stays in RAM (R423). -/
def writeStateArea (s : State) : State :=
  let s := { s with jnl := { s.jnl with areaSeq := u32 (s.jnl.areaSeq + 1) } }
  if isSet s JNL_STAT_OK then
    { s with
      jmem := memWrite flashDefault s.jmem (0x800 + 0x800 * s.jnl.stateTurn) (stateArea s)
      jnl := { s.jnl with stateTurn := 1 - s.jnl.stateTurn } }
  else s

/-- The payload of a SPARE record (R426). -/
def sparePayload (r : Repl) : List Nat :=
  [r.kind % 256, r.inst % 256, 0, 0] ++ leBytes 4 r.oldMap ++ leBytes 4 r.newMap ++ leBytes 4 r.signal

/-- Mark a resource retired in the books. -/
def retire (r : Repl) (s : State) : State :=
  let rv := s.rsv
  { s with rsv := { rv with
    retired := if r.kind = 1 ∨ r.kind = 2 then rv.retired
      else sset (fun _ => 0) rv.retired r.kind (withBit (retiredMask s r.kind) r.inst)
    laneMaps := if r.kind = 3 then sset (fun _ => 0) rv.laneMaps (r.inst / 8) r.newMap else rv.laneMaps
    pllMap := if r.kind = 5 then r.newMap else rv.pllMap
    remap := if r.kind = 1 ∨ r.kind = 2 then rv.remap ++ [(r.kind - 1) * 2 ^ 28 + r.inst % 4096 * 2 ^ 16 + r.row % 2 ^ 16]
      else rv.remap } }

/-- GLB_ISL_FALLBACK of an island (R20). -/
def fallbackBit (i : Nat) : RF := if i < 32 then ⟨0x30, i, i⟩ else ⟨0x34, i - 32, i - 32⟩

/-- A replaced slice, and an island on its new PLL, are no longer on their ring oscillators (R20). -/
def leaveRing (r : Repl) (s : State) : State :=
  if r.kind = 0 then wr (fallbackBit (islPIX r.inst)) 0 s else if r.kind = 5 then wr (fallbackBit r.inst) 0 s else s

/-- The end of a replacement (R421 step 4, R422): the old resource is retired, a SPARE record written, the state area
updated, REPLACED set; the last spare of a kind sets EXHAUSTED and records error 0x02. -/
def finishRepl (r : Repl) (s : State) : State :=
  let s := s |> retire r |> (fun s => if r.kind = 0 then showClocks s else s) |> addTotal (5 + r.kind) 1 |> journal 5 (sparePayload r) |> writeStateArea
    |> wr RSV_EVT_REPLACED 1 |> leaveRing r
  let same (x : Repl) : Bool := x.kind == r.kind && x.inst == r.inst && x.row == r.row
  let s := { s with rsv := { s.rsv with refused := s.rsv.refused.filter fun x => !same x } }
  if spareLeft s r.kind r.inst then s else s |> recordError ((rsvErr 2 r.kind).setting RSV_EVT_EXHAUSTED)

/-- The swap of the replacement in progress has completed. -/
def finishReplSwap (s : State) : State :=
  match s.rsv.cur with
  | none => s
  | some r => finishRepl r { s with rsv := { s.rsv with cur := none } }

end Sys2Proof.Machine
end

