-- ==== Sys2Proof/Machine/Epoch.lean ====
section
/-! DEFINITION. Frames and triggers in flight, the LIVE refresh, and the completion of an epoch swap (R73–R84). -/

namespace Sys2Proof.Machine
open Sys2Proof

/-- A camera port that is switched off (R109). -/
def resetCam : CamSt := ⟨[], none, false, false, none, 0, none, false, false⟩

def camOf (s : State) (p : Nat) : CamSt := sget (fun _ => resetCam) s.cams p
def setCam (p : Nat) (x : CamSt) (s : State) : State := { s with cams := sset (fun _ => resetCam) s.cams p x }

/-! ## Frames -/

def frameById (s : State) (id : Nat) : Option FrameSt := s.frames.find? (fun f => f.id == id)

/-- A frame as its frame start leaves it. -/
def newFrame (id c p ep fc cap mid status : Nat) (key : Option Nat) (parts : List Part) : FrameSt :=
  { id, ctx := c, port := p, epoch := ep, fc, capNs := cap, midNs := mid, status, trig := key, parts, isOpen := true
    linesIn := 0, arriving := [], adm := .waiting, slice := 0, load := 0, win := [], broken := 0, ready := []
    begun := 0, heats := [], statNo := 0, outq := [], made := 0, last := [], entered := 0, gone := false, alive := none
    motion := none, incoming := none, stored := none, ended := false, origin := 0 }

/-- Replace the frame of the same serial number. -/
def putFrame (f : FrameSt) (s : State) : State :=
  { s with frames := s.frames.map fun g => if g.id = f.id then f else g }

/-- A frame is in flight until its last output has closed; a refused one counts as complete (R80, R133). -/
def inFlight (f : FrameSt) : Bool := !f.gone && f.adm != .refused

/-- Forget frames that are neither open at their port nor in flight. -/
def sweepFrames (s : State) : State := { s with frames := s.frames.filter fun f => f.isOpen || inFlight f }

/-! ## LIVE (R82, R83) -/

/-- Refresh the active LIVE copy of a context from its basting copy, all 16 bytes at once. -/
def liveRefresh (c : Nat) (s : State) : State :=
  let d := regReset s.chip
  let copy (a : Nat) (m : Sparse Word) : Sparse Word := sset d m a (sget d s.liveB a)
  { s with liveA := s.liveA |> copy (CTX_WB_GAIN0 c).addr |> copy (CTX_WB_GAIN2 c).addr |> copy (CTX_DGAIN c).addr
      |> copy (CTX_EXP_TIME c).addr }

/-- The active LIVE block of a context. -/
def liveOf (s : State) (c : Nat) : Live :=
  { wb := [liveAct s (CTX_WB_GAIN0 c), liveAct s (CTX_WB_GAIN1 c), liveAct s (CTX_WB_GAIN2 c), liveAct s (CTX_WB_GAIN3 c)]
    dgain := liveAct s (CTX_DGAIN c)
    r1 := liveAct s (CTX_HDR_RATIO1 c)
    r2 := liveAct s (CTX_HDR_RATIO2 c)
    exp := liveAct s (CTX_EXP_TIME c) }

/-- MID_NS from the capture start and EXP_TIME (R322). -/
def midNs (cap expTime : Nat) : Nat := u32 (cap + expTime * 500)

/-! ## Exposure and white-balance loops (R206) -/

def loopOf (s : State) (c : Nat) : LoopSt := sget (fun _ => ⟨[]⟩) s.loops c
def setLoop (c : Nat) (x : LoopSt) (s : State) : State := { s with loops := sset (fun _ => ⟨[]⟩) s.loops c x }

/-- A frame start of a context, as its loops wait for it. -/
def LoopUpd.frameStart (u : LoopUpd) : LoopUpd :=
  match u.stage with
  | .effect n => { u with stage := .effect (n - 1) }
  | _ => u

/-- A frame of a context starts. -/
def countStart (c : Nat) (s : State) : State :=
  match (loopOf s c).upds with
  | [] => s
  | us => setLoop c ⟨us.map LoopUpd.frameStart⟩ s

/-! ## Swap completion -/

/-- Add elements of a list that are not yet there. -/
def addNew (xs ys : List Nat) : List Nat := ys.foldl (fun acc y => if acc.contains y then acc else acc ++ [y]) xs

/-- Contexts with an old-epoch frame, or a fired old-epoch trigger, in flight (R80, LDR_SWAP_PEND). -/
def pendContexts (s : State) : List Nat :=
  let old := epochOld s
  if old = epochActive s then []
  else
    let fr := (s.frames.filter fun f => inFlight f && f.epoch == old).map (·.ctx)
    let tr := s.cams.flatMap fun x => match x.2.trig with
      | some t => if t.epoch = old then t.ctxs else []
      | none => []
    addNew (addNew [] fr) tr

/-- A trigger still waits for its frame start: for one of its contexts, or, where none is enabled, for any: DESIGN CHOICE (log entry
117), since R80 does not speak of a trigger that no context waits for. -/
def waitsForStart (t : TrigSt) : Bool := !t.ctxs.isEmpty || !t.taken

/-- Ports that hold an old-epoch trigger in flight (R80). -/
def oldTriggers (s : State) : List Nat :=
  (List.range 20).filter fun p => match (camOf s p).trig with
    | some t => t.epoch == epochOld s && waitsForStart t
    | none => false

/-- The islands that give frames their epochs: ISL_TIME, and those of the present camera and weave ports (R78). -/
def epochSources (s : State) : List Nat :=
  islTIME :: (((List.range 20).filter (cpPresent s.variant)).map islCP ++ ((List.range 4).filter (wpPresent s.variant)).map islWV)

/-- Nothing of the old epoch is in flight and none can start (R80). -/
def swapReady (s : State) : Bool :=
  isSet s LDR_STAT_SWAP_BUSY && (pendContexts s).isEmpty && (epochOld s == epochActive s || (oldTriggers s).isEmpty)
    && (epochSources s).all fun i => islandEpoch s i == epochActive s

/-- The relay's role at LDR_EVT.LOADED (R406). -/
def relayAtLoaded (s : State) : State :=
  if fabricOk s.variant && act s RLY_CFG_ENABLE != 0 && rd s RLY_STAT_ROLE == 0 then
    wr RLY_STAT_ROLE (if act s RLY_CFG_ROLE_PREF = 1 then 1 else 2) s
  else s

/-- The payload of the BOOT record (R426); the spec does not state the reset cause's coding (log entry 32). -/
def bootPayload (s : State) : List Nat :=
  leBytes 4 (reg s 4).toNat ++ leBytes 4 (reg s LDR_STAT_ALL.addr).toNat ++ leBytes 4 (reg s LDR_REJECT_ALL.addr).toNat
    ++ leBytes 4 (reg s LDR_SERIAL_ALL.addr).toNat ++ leBytes 4 (Config.freeWord s.freeCount)

/-- The BOOT record of the first load after reset is due. -/
def bootRecord (s : State) : State :=
  if s.ldr.loaded then s
  else { s with jnl := { s.jnl with pend := s.jnl.pend ++ [(1, bootPayload s)] }, freeCount := s.freeCount + 1 }

/-- LDR_EVT.LOADED (R65): profile selection starts 1 s later (R86). -/
def announceLoaded (s : State) : State :=
  let s := bootRecord s
  { s with ldr := { s.ldr with loaded := true, loadSwap := false, phase := .run } } |> wr LDR_STAT_STATE 4 |> wr LDR_EVT_LOADED 1
    |> relayAtLoaded

/-- The completion of a swap (R80, R86, R421). -/
def completeSwap (s : State) : State :=
  let by_ := s.ldr.swapBy
  let s := { s with cfgB := s.cfgA }
  let s := s |> wr LDR_EPOCH_OLD (epochActive s) |> wr LDR_STAT_SWAP_BUSY 0
    |> wr LDR_SWAP_LAST_US (min ((upNs s - s.ldr.swapStart) / 1000) (2 ^ 32 - 1)) |> wr LDR_EVT_SWAP_DONE 1
  let s := if by_ = .loader ∨ by_ = .profileSelection then wr LDR_STAT_PROFILE s.ldr.swapProfile s else s
  let s := if by_ = .profileSelection then wr LDR_EVT_PROFILE_CHANGED 1 s else s
  let s := if by_ = .reserveManager then finishReplSwap s else s
  if s.ldr.loadSwap then announceLoaded s else s

/-- Complete the swap if nothing of the old epoch is left. -/
def checkSwap (s : State) : State := if swapReady s then completeSwap s else s

end Sys2Proof.Machine
end

