-- ==== Sys2Proof/Machine/Operands.lean ====
section
/-! DEFINITION. The Range column (R66): which values of a field are legal, the nearest legal value, and a register word
with each of its fields brought into range. -/

namespace Sys2Proof.Machine
open Sys2Proof

/-- Distance of two numbers. -/
def dist (a b : Nat) : Nat := (a - b) + (b - a)

/-- The nearer of two candidates to `v`, the lower one when they are equally near (R66). -/
def nearer (v a b : Nat) : Nat :=
  if dist v a < dist v b then a else if dist v b < dist v a then b else min a b

/-- The nearest legal value of a field of `w` bits (R66). -/
def nearest (r : Rng) (w v : Nat) : Nat :=
  match r with
  | .any => v
  | .iv lo hi => clampN lo hi v
  | .st lo hi k =>
    let c := clampN lo hi v
    let d := lo + (c - lo) / k * k
    if hi < d + k then d else nearer c d (d + k)
  | .sg lo hi => unsgn w (clampI lo hi (sgn w v))
  | .set l =>
    match l with
    | [] => v
    | p :: ps => ps.foldl (fun best q => nearer v best (clampN q.1 q.2 v)) (clampN p.1 p.2 v)

/-! ## Ranges that depend on the variant, the port or another field -/

/-- Size of the window that a BRG_WIN entry describes, in bytes (R28). -/
def bridgeWindow (kind : Nat) : Nat := if kind = 0 then 2 ^ 20 else 2 ^ 24

/-- Slice maps with the given values for the logical slices still to place: distinct physical slices from `free`. -/
def sliceMaps (free : List Nat) : Nat → List Nat
  | 0 => [0]
  | n + 1 => (sliceMaps free n).flatMap fun m =>
      (free.filter fun p => (List.range n).all fun i => m / 8 ^ i % 8 ≠ p).map fun p => p * 8 ^ n + m

/-- Legal values of RSV_SLICE_MAP: present, distinct, not retired, and 7 beyond the active count. -/
def legalSliceMaps (s : State) : List Nat :=
  let n := activeSlices s.variant
  let free := (List.range 6).filter fun p => pixPresent s.variant p && !hasBit (retiredMask s 0) p
  let none_ := ((List.range 5).map fun l => if n ≤ l then 7 * 8 ^ l else 0).sum
  (sliceMaps free n).map (· + none_)

/-- The nearest of a list of legal values, or the value itself if there is none. -/
def nearestOf (v : Nat) : List Nat → Nat
  | [] => v
  | x :: xs => xs.foldl (nearer v) x

/-- The range of a camera-port field that the port type or the PHY decides (R91, R92). -/
def camRange (p : Nat) (w : Word) (x : FieldD) : Rng :=
  if isAphy p then
    if x.lo = 8 then .iv 0 1 else if x.lo = 1 then .iv 1 5 else if x.lo = 0 then .iv 0 1 else .iv 0 0
  else if x.lo = 16 then .iv 8 450
  else if x.lo = 5 then .iv 1 (if fld w 4 4 = 1 then 3 else 4)
  else if x.lo = 4 ∨ x.lo = 0 then .iv 0 1
  else .iv 0 0

/-- The range of a field of word `a` of a context record (R124, R183, R194). A PORT that names an absent port has no legal
value: the ports stage disables the context (R69). -/
def ctxRange (v : Variant) (a : Nat) (x : FieldD) : Rng :=
  let o := a % 0x80
  if o = 0 then
    if x.lo = 4 then .iv 0 (pick3 v 2 2 0)
    else if x.lo = 7 then .iv 0 (pick3 v 1 1 0)
    else if x.lo = 8 then .iv 0 (activeSlices v - 1)
    else x.rng
  else if o = 0x1C then (if x.lo = 0 then .iv 0 7 else if x.lo = 4 then .iv 0 14 else x.rng)
  else x.rng

/-- The range of a field as it stands for this device, given the word being written (fields below `x` already in range)
and the bank it is written to. -/
def fieldRange (s : State) (b : Sparse Word) (a : Nat) (w : Word) (x : FieldD) : Rng :=
  let v := s.variant
  if 0x40000 ≤ a ∧ a < 0x80000 then
    let q := (a - 0x40000) / 0x20
    if a % 0x20 = 0 ∧ x.lo = 0 then
      (if q = 0 then .iv 0 0 else if q ≤ 27 ∧ queueUnitPresent v q then .iv 1 1 else .iv 0 1)
    else x.rng
  else if 0x100000 ≤ a ∧ a < 0x240000 then
    let o := (a - 0x100000) % 0x10000
    if o = 4 then camRange ((a - 0x100000) / 0x10000) w x
    else if 0x400 ≤ o ∧ o < 0x800 ∧ o % 16 = 0 ∧ x.lo = 16 then .iv 0 (ctxCount v - 1)
    else x.rng
  else if 0x300000 ≤ a ∧ a < 0x500000 then ctxRange v a x
  else if 0x7C0000 ≤ a ∧ a < 0x7C2000 ∧ a % 0x1000 = 0 ∧ x.lo = 2 then .iv 1 (if fld w 1 1 = 1 then 3 else 4)
  else if 0x702000 ≤ a ∧ a < 0x704000 ∧ a % 0x20 = 0 ∧ x.lo = 16 then
    .iv 0 (if fld w 4 3 = 0 then 255 else if fld w 4 3 = 1 then 1 else 0xFFFF)
  else if 0x800000 ≤ a ∧ a < 0x804000 ∧ a % 0x1000 = 0 ∧ x.lo = 10 then .iv (fld w 9 8) 3
  else if a = 0x880000 ∧ x.lo = 2 then .iv 0 (pick3 v 3 1 3)
  else if a = 0x900014 ∧ x.lo = 2 then .iv 0 (pick3 v 1 0 0)
  else if a = 0x900014 ∧ x.lo = 0 then .iv 0 (pick3 v 2 2 1)
  else if 0xA00100 ≤ a ∧ a < 0xA00300 ∧ a % 0x80 = 0 ∧ x.lo = 4 then .iv 0 (if fld w 2 0 = 1 then 1 else 0)
  else if 0xA00100 ≤ a ∧ a < 0xA00300 ∧ a % 0x80 = 0x0C ∧ x.lo = 0 then .iv 0 (clampN 1 4095 (fld w 27 16))
  else if 0xA00100 ≤ a ∧ a < 0xA00300 ∧ a % 0x80 = 0x10 ∧ x.lo = 16 then .iv 1 (max 1 (fld w 12 10 - fld w 15 13))
  else if 0xA40100 ≤ a ∧ a < 0xA40300 ∧ a % 0x20 = 4 ∧ x.lo = 16 then .iv (fld w 15 0) 25000
  else if 0xA80100 ≤ a ∧ a < 0xA80180 ∧ a % 0x10 = 4 then
    let mode := fld (bankWord s.chip b (a - 4)) 1 0
    if mode = 1 then .iv 200 1000000000 else if mode = 0 then .any else .sg (-1000000) 1000000
  else if 0xA80200 ≤ a ∧ a < 0xA80240 ∧ a % 0x20 = 4 ∧ x.lo = 0 then .iv 50 (clampN 100 10000 (fld w 31 16))
  else if 0xC01000 ≤ a ∧ a < 0xC01400 ∧ a % 0x10 = 0 then
    if x.lo = 8 then .iv 0 (if fld w 1 1 = 0 then 19 else 31)
    else if x.lo = 2 then .iv 0 (if fld w 1 1 = 0 then 1 else 0)
    else x.rng
  else if 0xC01000 ≤ a ∧ a < 0xC01400 ∧ a % 0x10 = 8 then .iv 0 (bridgeWindow (fld (bankWord s.chip b (a - 8)) 1 1) - 1)
  else if 0xC01000 ≤ a ∧ a < 0xC01400 ∧ a % 0x10 = 12 then
    .iv 1 (bridgeWindow (fld (bankWord s.chip b (a - 12)) 1 1) - (bankWord s.chip b (a - 4)).toNat)
  else x.rng

/-- The nearest legal value where legality is no interval of one field: a rights word (R54), a station address, the
slice map (R418). -/
def nearestLegal (s : State) (b : Sparse Word) (a : Nat) (w : Word) (x : FieldD) (v : Nat) : Nat :=
  if 0xC01000 ≤ a ∧ a < 0xC01400 ∧ a % 0x10 = 4 then leNum ((leBytes 4 v).map fun r => min r 2)
  else if a = 0x908008 ∨ a = 0x909008 then
    (if hasBit v 8 then nearer v (v / 256 * 256 - 1) (v / 256 * 256 + 256) else v)
  else if a = 0x908004 ∨ a = 0x909004 then (if v = 0 ∧ bankWord s.chip b (a + 4) = 0 then 1 else v)
  else if a = 0xD00004 then nearestOf v (legalSliceMaps s)
  else nearest (fieldRange s b a w x) x.width v

/-! ## A word -/

/-- A field that was brought into range: its place, the value requested, the value applied. -/
structure Clamped where
  lo : Nat
  width : Nat
  req : Nat
  applied : Nat
deriving DecidableEq, Repr

/-- A write reaches the field: its access lets software write it (R11). -/
def FieldD.writable (x : FieldD) : Bool := x.acc == .rw || x.acc == .live

/-- The field's bits as a mask of the word. -/
def FieldD.mask (x : FieldD) : Nat := (2 ^ x.width - 1) <<< x.lo

/-- The fields of a register by rising position. -/
def insField (x : FieldD) : List FieldD → List FieldD
  | [] => [x]
  | y :: ys => if x.lo ≤ y.lo then x :: y :: ys else y :: insField x ys
def fieldsUp (l : List FieldD) : List FieldD := l.foldr insField []

/-- What is reported of a field brought into range: of a rights word, each rights code by itself (R54, R55). -/
def clampsOf (a : Nat) (x : FieldD) (req ap : Nat) : List Clamped :=
  if ap = req then []
  else if 0xC01000 ≤ a ∧ a < 0xC01400 ∧ a % 0x10 = 4 then
    (List.range 4).filterMap fun i =>
      let r := req / 256 ^ i % 256
      if r ≤ 2 then none else some ⟨8 * i, 8, r, 2⟩
  else [⟨x.lo, x.width, req, ap⟩]

/-- Write the masked bits of `v` into word `w` of the bank, field by field, each brought into range (R66); reserved and
read-only bits stay (R7, R125). -/
def checkFields (s : State) (b : Sparse Word) (a v mask : Nat) : List FieldD → Word → Word × List Clamped
  | [], w => (w, [])
  | x :: xs, w =>
    if !x.writable || Nat.land x.mask mask == 0 then checkFields s b a v mask xs w
    else
      let old := w.toNat &&& x.mask
      let req := ((old &&& (x.mask - Nat.land x.mask mask)) ||| Nat.land (Nat.land v mask) x.mask) >>> x.lo
      let ap := nearestLegal s b a w x req
      let r := checkFields s b a v mask xs (setFld w x.hi x.lo ap)
      (r.1, clampsOf a x req ap ++ r.2)

/-- The word with the requested bits of every field the mask touches in place, before any range is applied: what a range
that depends on another field of the word sees. -/
def requestWord (v mask : Nat) (fs : List FieldD) (w : Word) : Word :=
  fs.foldl (fun u x => if x.writable then
      setFld u x.hi x.lo (((u.toNat &&& (x.mask - Nat.land x.mask mask)) ||| Nat.land (Nat.land v mask) x.mask) >>> x.lo)
    else u) w

/-- A write of the masked bits of `v` to word `a` of a bank. -/
def checkWord (s : State) (b : Sparse Word) (a v mask : Nat) (d : RegD) (old : Word) : Word × List Clamped :=
  checkFields s b a v mask (fieldsUp d.flds) (requestWord v mask d.flds old)

end Sys2Proof.Machine
end

