-- ==== Sys2Proof/Machine/Report.lean ====
section
/-! DEFINITION. The load report (R67, R72, R474): entries, their counts and events, the item an entry names, clamped
writes into the basting set (R66), and contexts that are disabled (R69). -/

namespace Sys2Proof.Machine
open Sys2Proof

/-- A load-report entry without EPOCH, LOAD_SEQ and CRC (R72). -/
structure Entry where
  kind : Nat
  stage : Nat := 0
  sec : Nat := 0xFFFF
  rec_ : Nat := 0
  addr : Nat := 0
  lsb : Nat := 0
  width : Nat := 0
  cause : Nat := 0
  req : Nat := 0
  applied : Nat := 0
  profile : Nat := 0xFF
deriving DecidableEq, Repr

/-- The epoch that follows (R77): 0xFFFF wraps to 1. -/
def nextEpoch (s : State) : Nat := if epochActive s = 0xFFFF then 1 else epochActive s + 1

/-- The 32 bytes of an entry (R72). -/
def entryBytes (s : State) (e : Entry) : List Nat :=
  withCrc ([e.kind % 256, e.stage % 256] ++ leBytes 2 e.sec ++ leBytes 4 e.rec_ ++ leBytes 4 e.addr
    ++ [e.lsb % 256, e.width % 256] ++ leBytes 2 e.cause ++ leBytes 4 e.req ++ leBytes 4 e.applied
    ++ leBytes 2 (nextEpoch s) ++ [e.profile % 256, rd s LDR_STAT_LOAD_SEQ % 256])

/-- Journal a load-report entry: the service cores write it as a LOAD record (R67, R426). -/
def journalEntry (bs : List Nat) (s : State) : State := { s with jnl := { s.jnl with pend := s.jnl.pend ++ [(2, bs)] } }

/-- Write one entry, the `n`-th of its count: to queue 1, or kept until DRAM training completes (R265), and to the journal while it is
among the first 1,024 (R67). -/
def reportAs (n : Nat) (e : Entry) (s : State) : State :=
  let bs := entryBytes s e
  let s := if s.ldr.trained then qPut 1 uLDR (bytesToWords 8 bs) s
    else { s with ldr := { s.ldr with held := s.ldr.held ++ [bs] } }
  if n < 1024 then journalEntry bs s else s

/-- An entry of a load or checked swap. -/
def report (e : Entry) (s : State) : State :=
  let s := reportAs s.ldr.entries e s
  { s with ldr := { s.ldr with entries := s.ldr.entries + 1 } }

/-- An entry of a write that the bank's owner makes before its swap: counted since it took the bank. -/
def reportOwn (e : Entry) (s : State) : State :=
  let s := reportAs s.ldr.ownEntries e s
  { s with ldr := { s.ldr with ownEntries := s.ldr.ownEntries + 1 } }

/-- An entry of a load or checked swap: it is counted too (LDR_LOAD_CNT, LDR_DISABLED). -/
def tell (e : Entry) (s : State) : State :=
  let s := report e s
  let s := if e.kind = 1 ∨ e.kind = 6 ∨ e.kind = 9 then inc LDR_LOAD_CNT_CLAMPS s else s
  if 2 ≤ e.kind ∧ e.kind ≤ 5 then
    let s := { s with ldr := { s.ldr with dropped := true } }
    if e.kind = 2 then inc LDR_LOAD_CNT_DROPS s else if e.kind = 4 then s else inc LDR_DISABLED_COUNT s
  else s

/-- The counts begin at 0 for each image that is checked, and for each checked swap. -/
def clearCounts (s : State) : State :=
  { s with ldr := { s.ldr with dropped := false } } |> wr LDR_LOAD_CNT_ALL 0 |> wr LDR_DISABLED_COUNT 0

/-- A load or a checked swap begins, with `n` entries written for it already: LOAD_SEQ advances. -/
def beginReport (n : Nat) (s : State) : State :=
  { s with ldr := { s.ldr with entries := n } } |> incWrap LDR_STAT_LOAD_SEQ |> clearCounts

/-- A load or a checked swap ends: CLAMPED and DROPPED, and the SUMMARY entry after the journalled ones (R67). -/
def endReport (s : State) : State :=
  let s := if rd s LDR_LOAD_CNT_CLAMPS = 0 then s else wr LDR_EVT_CLAMPED 1 s
  let s := if s.ldr.dropped then wr LDR_EVT_DROPPED 1 s else s
  journalEntry (entryBytes s { kind := 0x0A, req := s.ldr.entries - 1024 }) s

/-! ## The item that an entry names (R474) -/

/-- The later of two writes by records. -/
def originAt (s : State) (profile a : Nat) : Nat :=
  max (sget (fun _ => 0) s.ldr.origin a) (sget (fun _ => 0) (sget (fun _ => []) s.ldr.profOrigin profile) a)

/-- The last record that wrote any of `n` words from `a`. -/
def originOfItem (s : State) (profile a n : Nat) : Nat :=
  maxOf ((List.range n).map fun i => originAt s profile (a + 4 * i))

/-- SECTION and RECORD of an item. -/
def itemSec (o : Nat) : Nat := if o = 0 then 0xFFFF else o / 2 ^ 32 % 2 ^ 32
def itemRec (o : Nat) : Nat := if o = 0 then 0xFFFFFFFF else o % 2 ^ 32

/-- The words of the item that a register word belongs to: a context record, a map entry, a route with its region geometry, a directory
entry of the slices (linearisation, defect map, mesh, HDR, statistics grid, colour, scaler), or the register alone. -/
def itemOf (a : Nat) : Nat × Nat :=
  if 0x300000 ≤ a ∧ a < 0x500000 then (a / 0x80 * 0x80, 32)
  else if 0x100000 ≤ a ∧ a < 0x240000 ∧ 0x400 ≤ a % 0x10000 ∧ a % 0x10000 < 0x800 then (a / 16 * 16, 4)
  else if 0x702000 ≤ a ∧ a < 0x704000 then (a / 0x20 * 0x20, 5)
  else if 0x610000 ≤ a ∧ a < 0x612000 then (a / 0x20 * 0x20, 5)
  else if 0x612000 ≤ a ∧ a < 0x613000 then (a / 16 * 16, 4)
  else if 0x613000 ≤ a ∧ a < 0x614000 then (a / 16 * 16, 2)
  else if 0x614000 ≤ a ∧ a < 0x616000 then (a / 0x20 * 0x20, 5)
  else if 0x616000 ≤ a ∧ a < 0x616200 then (a / 0x20 * 0x20, 3)
  else if 0x618000 ≤ a ∧ a < 0x61C000 then (a / 0x40 * 0x40, 10)
  else if 0x61D000 ≤ a ∧ a < 0x61E000 then (a / 16 * 16, 2)
  else (a, 1)

/-- An entry of a cross-field stage about the item of word `a`. -/
def itemEntry (s : State) (kind stage profile a cause req applied : Nat) : Entry :=
  let i := itemOf a
  let o := originOfItem s profile i.1 i.2
  { kind, stage, sec := itemSec o, rec_ := itemRec o, addr := a, cause, req, applied, profile }

/-! ## The set under check -/

/-- A field of the set under check, which stands in the basting bank. -/
def setF (s : State) (r : RF) : Nat := bast s r

/-- Store a field of the set under check. -/
def putF (r : RF) (v : Nat) (s : State) : State := { s with cfgB := bankSet s.chip s.cfgB r v }

/-- Clamp a field in a cross-field stage; a change is reported (R68). -/
def clampF (stage profile cause : Nat) (r : RF) (v : Nat) (s : State) : State :=
  let old := setF s r
  if old = v then s
  else
    let e := itemEntry s 1 stage profile r.addr cause old v
    s |> putF r v |> tell { e with lsb := r.lo, width := r.hi + 1 - r.lo }

/-- Disable a context (R69). -/
def disableCtx (stage profile cause c : Nat) (s : State) : State :=
  let e := itemEntry s 3 stage profile (CTX_ENABLE c).addr cause c 0
  s |> putF (CTX_ENABLE c) 0 |> tell e

/-- Whether every unit the word addresses is present and it is a CFG register (R44): the cause of a drop, or none. The
reserved words of the context record are CFG words without fields (R30). LDR_SWAP_REQ and LDR_DISCARD take no record
(R87). -/
def recordCause (s : State) (a : Nat) : Option Nat :=
  if absentAt s.variant a then some 2
  else if a = 0x10020 ∨ a = 0x10024 then some 3
  else if 0x300000 ≤ a ∧ a < 0x500000 then none
  else
    match regAt a with
    | some (d, _) => if d.cls = .cfg then none else some 3
    | none => some 3

/-- The fields of a CFG word. -/
def cfgDesc (a : Nat) : RegD :=
  match regAt a with
  | some (d, _) => d
  | none => ⟨a, [], .cfg, []⟩

/-- The word is part of a LIVE block (R82). -/
def isLiveWord (a : Nat) : Bool := decide (0x300000 ≤ a) && decide (a < 0x500000) && decide (0x70 ≤ a % 0x80)

/-- Write the masked bits of a word into the basting copy: the bank, or the LIVE block (R66, R84). The fields brought
into range are listed. -/
def bastingWrite (a v mask : Nat) (s : State) : State × List Clamped :=
  let d := regReset s.chip
  if isLiveWord a then
    let r := checkWord s s.liveB a v mask (cfgDesc a) (sget d s.liveB a)
    ({ s with liveB := sset d s.liveB a r.1 }, r.2)
  else
    let r := checkWord s s.cfgB a v mask (cfgDesc a) (sget d s.cfgB a)
    ({ s with cfgB := sset d s.cfgB a r.1 }, r.2)

/-- A configuration bank with every register at its reset value, the address straps included (R362). -/
def freshBank (s : State) : Sparse Word :=
  bankSet s.chip (bankSet s.chip [] (TWB_T_ADDR_ADDR 0) (0x60 + s.pins.taddr % 4)) (TWB_T_ADDR_ADDR 1) (0x64 + s.pins.taddr % 4)

end Sys2Proof.Machine
end

