-- ==== Sys2Proof/Machine/Records.lean ====
section
/-! DEFINITION. The records of an image (R42–R58, R157, R165, R201, R205, R449, R468, R469): register records, context
entries, table blobs, scripts, routes, windows, service records and profiles, checked and written to the basting set. -/

namespace Sys2Proof.Machine
open Sys2Proof

/-- Where a record stands: directory index of its section, its index, and the profile it belongs to (0xFF: the base
set). -/
structure Src where
  sec : Nat
  rec_ : Nat
  profile : Nat := 0xFF
deriving DecidableEq, Repr

/-- Drop a record (R43, R72): REQ is its first word. -/
def dropRec (x : Src) (addr cause req : Nat) (s : State) : State :=
  tell { kind := 2, sec := x.sec, rec_ := x.rec_, addr, cause, req := u32 req, profile := x.profile } s

/-- Report a clamped field of a record. -/
def clampRec (x : Src) (addr lsb width cause req applied : Nat) (s : State) : State :=
  tell { kind := 1, sec := x.sec, rec_ := x.rec_, addr, lsb, width, cause, req, applied, profile := x.profile } s

/-- Bring a field of a record that is no register field into its range; a change is reported. -/
def recField (x : Src) (addr lsb width : Nat) (r : Rng) (v : Nat) (s : State) : State × Nat :=
  let c := nearest r width v
  (if c = v then s else clampRec x addr lsb width 1 v c s, c)

/-- Remember which record wrote a word (R474). -/
def markOrigin (x : Src) (a : Nat) (s : State) : State :=
  let l := s.ldr
  let v := (l.writes + 1) * 2 ^ 64 + x.sec * 2 ^ 32 + x.rec_
  let z : Nat → Nat := fun _ => 0
  { s with ldr := { l with
      writes := l.writes + 1
      origin := if x.profile = 0xFF then sset z l.origin a v else l.origin
      profOrigin := if x.profile = 0xFF then l.profOrigin else smod (fun _ => []) l.profOrigin x.profile (fun m => sset z m a v) } }

/-- The bits of the fields that a mask touches. -/
def fieldMask (fs : List FieldD) (mask : Nat) : Word :=
  fs.foldl (fun w f => if mask / 2 ^ f.lo % 2 ^ f.width = 0 then w else setFld w f.hi f.lo (2 ^ 32 - 1)) 0

/-- Remember which LIVE fields a profile's delta record names (R84). -/
def markLive (x : Src) (a mask : Nat) (s : State) : State :=
  if x.profile = 0xFF ∨ !isLiveWord a then s
  else
    let add (w : Word) : Word := w ||| fieldMask (cfgDesc a).flds mask
    { s with ldr := { s.ldr with profMask := smod (fun _ => []) s.ldr.profMask x.profile (fun m => smod (fun _ => 0) m a add) } }

/-- Run-time state and derived fields of a context word take no value from an image: a non-zero one is reported and
stays 0 (R46, R125). -/
def stateFields (x : Src) (a v : Nat) (s : State) : State :=
  if 0x300000 ≤ a ∧ a < 0x500000 then
    ((cfgDesc a).flds.filter fun f => f.acc == .ro).foldl (fun s f =>
      let n := fld (BitVec.ofNat 32 v) f.hi f.lo
      if n = 0 then s else clampRec x a f.lo f.width 8 n 0 s) s
  else s

/-- One word of a record: dropped if it may not be addressed (R44), else written with its fields in range (R66). -/
def writeRecWord (x : Src) (req a v mask : Nat) (s : State) : State :=
  match recordCause s a with
  | some cause => dropRec x a cause req s
  | none =>
    let s := stateFields x a (Nat.land v mask) s
    let r := bastingWrite a v mask s
    let s := r.1 |> markOrigin x a |> markLive x a mask
    r.2.foldl (fun s c => clampRec x a c.lo c.width 1 c.req c.applied s) s

/-! ## Register records (R43, R44) -/

/-- The registers of a RUN record, one by one. -/
def runWords (x : Src) (a : Nat) : List Nat → State → State
  | [], s => s
  | v :: vs, s => runWords x (a + 4) vs (writeRecWord x v (u32 a) v (2 ^ 32 - 1) s)

/-- Register records from index `n`; answers the state, the index that follows, and whether the rest of the section is dropped with the
last one (R43, R44). The fuel bounds the records. -/
def regRecords (sec profile : Nat) : Nat → Nat → List Nat → State → State × Nat × Bool
  | 0, n, _, s => (s, n, false)
  | fuel + 1, n, bs, s =>
    if bs.isEmpty then (s, n, false)
    else
      let x : Src := ⟨sec, n, profile⟩
      let w := leAt bs 0 4
      let kind := w % 4
      let a := w - kind
      let count := leAt bs 4 4
      let size := if kind = 0 then 8 else if kind = 1 then 12 else 8 + 4 * count
      if kind = 3 then (dropRec x a 4 w s, n + 1, true)
      else if kind = 2 ∧ 8 ≤ bs.length ∧ (count = 0 ∨ 4096 < count) then (dropRec x a 4 w s, n + 1, true)
      else if bs.length < size ∨ bs.length < 8 then (dropRec x 0 4 w s, n + 1, false)
      else
        let s :=
          if kind = 0 then writeRecWord x w a (leAt bs 4 4) (2 ^ 32 - 1) s
          else if kind = 1 then writeRecWord x w a (leAt bs 4 4) (leAt bs 8 4) s
          else runWords x a (bytesToWords count ((bs.drop 8).take (4 * count))) s
        regRecords sec profile fuel (n + 1) (bs.drop size) s

/-! ## Context entries (R45, R46) -/

def ctxEntries (sec : Nat) : Nat → Nat → List Nat → State → State
  | 0, _, _, s => s
  | fuel + 1, n, bs, s =>
    if bs.isEmpty then s
    else
      let x : Src := ⟨sec, n, 0xFF⟩
      let w := leAt bs 0 4
      let c := leAt bs 0 2
      if bs.length < 132 then dropRec x 0 4 w s
      else
        let s := if ctxCount s.variant ≤ c then dropRec x (0x300000 + 0x80 * c) 2 w s
          else runWords x (0x300000 + 0x80 * c) (bytesToWords 32 ((bs.drop 4).take 128)) s
        ctxEntries sec fuel (n + 1) (bs.drop 132) s

/-! ## Table blobs (R47, R48, R157, R165, R201) -/

/-- Element size, least and greatest COUNT of a KIND, and whether it lies in the table region of PIX0. -/
def tableForm (kind : Nat) : Option (Nat × Nat × Nat × Bool) :=
  if kind = 1 then some (4, 257, 257, true) else if kind = 2 then some (4, 1, 65536, false)
  else if kind = 3 then some (2, 16, 16900, false) else if kind = 4 then some (2, 130, 130, true)
  else if kind = 5 then some (2, 273, 273, true) else if kind = 6 then some (2, 384, 384, true) else none

/-- An element brought into its range, given its predecessor. -/
def elemLegal (kind : Nat) (prev : Option Nat) (v : Nat) : Nat :=
  if kind = 1 then max (min v 0xFFFFF) (prev.getD 0)
  else if kind = 2 then
    let c := v % 2 ^ 28 + min (v / 2 ^ 28 % 4) 2 * 2 ^ 28
    match prev with
    | some p => if c % 2 ^ 28 ≤ p % 2 ^ 28 then p else c
    | none => c
  else if kind = 3 then clampN 0x400 0xFFFF v
  else if kind = 4 then min v 0x1000
  else if kind = 6 then unsgn 16 (clampI (-2048) 2047 (sgn 16 v))
  else v

def elemsLegal (kind : Nat) : Option Nat → List Nat → List Nat
  | _, [] => []
  | prev, v :: vs => let c := elemLegal kind prev v; c :: elemsLegal kind (some c) vs

/-- Set the centre tap of one phase so that the phase sums to 1,024; none if it leaves the element range (R201). -/
def fixPhase (base taps centre : Nat) (vs : List Nat) : Option (List Nat) :=
  let others := ((List.range taps).map fun k => if k = centre then 0 else sgn 16 (vs.getD (base + k) 0)).sum
  let c := 1024 - others
  if c < -2048 ∨ 2047 < c then none else some (vs.set (base + centre) (unsgn 16 c))

def fixPhases : List (Nat × Nat × Nat) → List Nat → Option (List Nat)
  | [], vs => some vs
  | p :: ps, vs => match fixPhase p.1 p.2.1 p.2.2 vs with | some w => fixPhases ps w | none => none

/-- The 32 horizontal phases of 8 taps, then the 32 vertical phases of 4 taps. -/
def scalerPhases : List (Nat × Nat × Nat) :=
  (List.range 32).map (fun p => (8 * p, 8, 3)) ++ (List.range 32).map fun p => (256 + 4 * p, 4, 1)

/-- The elements as they are loaded, or none if the blob must be dropped. -/
def tableElems (kind : Nat) (vs : List Nat) : Option (List Nat) :=
  let ws := elemsLegal kind none vs
  if kind = 6 then fixPhases scalerPhases ws else some ws

/-- Elements of `size` bytes each. -/
def elemsOf (size : Nat) : Nat → List Nat → List Nat
  | 0, _ => []
  | n + 1, bs => leNum (bs.take size) :: elemsOf size n (bs.drop size)

/-- Write bytes into table memory: a write into the table region of PIX0 lands in every present slice (R158). -/
def tableWrite (a : Nat) (bs : List Nat) (s : State) : State :=
  if a < 0x1000000 then
    ((List.range 6).filter (pixPresent s.variant)).foldl (fun s n => { s with ram := memWrite ramDefault s.ram (a + 0x20000 * n) bs }) s
  else { s with ram := memWrite ramDefault s.ram a bs }

/-- Why a blob is dropped, or its elements. -/
def blobCheck (s : State) (kind eb dest count : Nat) (data : List Nat) : Except Nat (List Nat) :=
  match tableForm kind with
  | none => .error 4
  | some (size, lo, hi, inPix) =>
    let len := count * size
    let region := if inPix then decide (0x608000 ≤ dest ∧ dest + len ≤ 0x610000) else decide (0x1000000 ≤ dest ∧ dest + len ≤ 0x3000000)
    if eb ≠ size ∨ count < lo ∨ hi < count ∨ !region then .error 4
    else if s.ldr.blobs.any fun b => decide (dest < b.1 + b.2.1 ∧ b.1 < dest + len) then .error 5
    else
      match tableElems kind (elemsOf size count data) with
      | none => .error 4
      | some vs => .ok vs

/-- Positions at which two lists differ. -/
def diffs : Nat → List Nat → List Nat → List Nat
  | i, a :: as, b :: bs => if a = b then diffs (i + 1) as bs else i :: diffs (i + 1) as bs
  | _, _, _ => []

def tableBlobs (sec : Nat) : Nat → Nat → List Nat → State → State
  | 0, _, _, s => s
  | fuel + 1, n, bs, s =>
    if bs.isEmpty then s
    else
      let x : Src := ⟨sec, n, 0xFF⟩
      let w := leAt bs 0 4
      let kind := leAt bs 0 2
      let eb := leAt bs 2 1
      let dest := leAt bs 4 4
      let count := leAt bs 8 4
      let size := 16 + roundUp (count * eb) 4
      if bs.length < 16 ∨ bs.length < size then dropRec x 0 4 w s
      else
        let s :=
          match blobCheck s kind eb dest count (bs.drop 16) with
          | .error cause => dropRec x dest cause w s
          | .ok vs =>
            let s := tableWrite dest (vs.flatMap (leBytes eb)) s
            let s := { s with ldr := { s.ldr with blobs := s.ldr.blobs ++ [(dest, count * eb, kind, count)] } }
            match diffs 0 (elemsOf eb count (bs.drop 16)) vs with
            | [] => s
            | i :: is => tell { kind := 6, sec, rec_ := n, addr := dest, cause := 1, req := i, applied := is.length + 1 } s
        tableBlobs sec fuel (n + 1) (bs.drop size) s

/-! ## Sensor scripts (R49–R51) -/

/-- Length of the instruction at the head of the code; 0 for an unknown opcode. -/
def opLength (c : List Nat) : Nat :=
  let op := c.getD 0 256
  if op = 0 ∨ op = 6 ∨ op = 0x0B then 2 else if op = 1 then 5 + c.getD 4 0 else if op = 2 then 4 + c.getD 3 0
  else if op = 3 then 8 else if op = 4 ∨ op = 5 ∨ op = 8 ∨ op = 0x0A then 3 else if op = 7 then 5 else if op = 9 then 4 else 0

/-- The operands of the instruction lie in their ranges (R50). -/
def opLegal (c : List Nat) : Bool :=
  let op := c.getD 0 256
  let addr := decide (0x08 ≤ c.getD 1 0) && decide (c.getD 1 0 ≤ 0x77)
  let n (i : Nat) : Bool := decide (1 ≤ c.getD i 0) && decide (c.getD i 0 ≤ 16)
  let half (i : Nat) : Nat := leAt c i 2
  if op = 1 then addr && n 4 else if op = 2 then addr && n 3 else if op = 3 then addr
  else if op = 4 then decide (1 ≤ half 1) else if op = 5 then decide (c.getD 1 0 ≤ 3) && decide (c.getD 2 0 ≤ 1)
  else if op = 6 ∨ op = 0x0B then decide (c.getD 1 0 ≤ 1)
  else if op = 7 then decide (1 ≤ half 1) && decide (half 1 ≤ 5000)
  else if op = 9 then decide (1 ≤ c.getD 1 0) else true

/-- The jump target of an instruction, if it has one. -/
def opTarget (c : List Nat) : Option Nat :=
  let op := c.getD 0 256
  if op = 3 then some (leAt c 6 2) else if op = 7 then some (leAt c 3 2) else if op = 8 then some (leAt c 1 2)
  else if op = 9 then some (leAt c 2 2) else none

/-- The instructions of a script: start, opcode and jump target of each; none if one is unknown, out of range or cut off,
or if execution can fall off the end (R51). -/
def decodeScript : Nat → Nat → List Nat → Option (List (Nat × Nat × Option Nat))
  | 0, _, _ => none
  | fuel + 1, off, c =>
    let len := opLength c
    let op := c.getD 0 256
    if len = 0 ∨ c.length < len ∨ !opLegal c then none
    else if c.length = len then (if op = 0 ∨ op = 8 then some [(off, op, opTarget c)] else none)
    else (decodeScript fuel (off + len) (c.drop len)).map fun is => (off, op, opTarget c) :: is

/-- The code decodes, every jump lands on an instruction, and no POC instruction serves a local port. -/
def scriptLegal (ports : Nat) (code : List Nat) : Bool :=
  match decodeScript (code.length + 1) 0 code with
  | none => false
  | some is =>
    let starts := is.map (·.1)
    (is.all fun i => match i.2.2 with | some t => starts.contains t | none => true)
      && (ports / 2 ^ 16 == 0 || is.all fun i => i.2.1 != 6)

/-- Ports that earlier scripts of the role hold. -/
def portsTaken (s : State) (role : Nat) : Nat :=
  (s.ldr.scripts.filter fun y => y.role == role).foldl (fun m y => m ||| y.ports) 0

/-- One script whose header and code are all there. -/
def loadScript (x : Src) (w : Nat) (bs : List Nat) (s : State) : State :=
  let role := leAt bs 2 1
  let asked := leAt bs 4 4
  let len := leAt bs 8 2
  let kept := Nat.land asked (cpMask s.variant)
  let s := if kept = asked then s else clampRec x 0 32 32 2 asked kept s
  if kept = 0 then dropRec x 0 2 w s
  else if 255 < leAt bs 0 2 ∨ 3 < role ∨ len < 4 ∨ 4096 < len ∨ !scriptLegal kept (slice bs 12 len) then dropRec x 0 4 w s
  else
    let r := recField x 0 80 16 (if role = 1 then .iv 10 10000 else .iv 0 0) (leAt bs 10 2) s
    let own := kept - Nat.land kept (portsTaken r.1 role)
    let s := if own = kept then r.1 else clampRec x 0 32 32 5 kept own r.1
    { s with ldr := { s.ldr with scripts := s.ldr.scripts ++ [⟨leAt bs 0 2, role, own, r.2, slice bs 12 len⟩] } }

def scriptRecords (sec : Nat) : Nat → Nat → List Nat → State → State
  | 0, _, _, s => s
  | fuel + 1, n, bs, s =>
    if bs.isEmpty then s
    else
      let x : Src := ⟨sec, n, 0xFF⟩
      let w := leAt bs 0 4
      let size := 12 + roundUp (leAt bs 8 2) 4
      if bs.length < 12 ∨ bs.length < size then dropRec x 0 4 w s
      else scriptRecords sec fuel (n + 1) (bs.drop size) (loadScript x w bs s)

/-! ## Routes and windows (R53–R55, R209, R371) -/

/-- One route record: the words SEAM_ROUTE_W0–W2 of its output. -/
def loadRoute (x : Src) (bs : List Nat) (s : State) : State :=
  let o := leAt bs 0 2
  let w := leAt bs 0 4
  let a := (SEAM_ROUTE_W0_VALID o).addr
  if 255 < o then dropRec x 0 4 w s
  else
    let m := recField x a 1 2 (.iv 0 2) (leAt bs 2 1) s
    let k := recField x a 3 2 (.iv 0 2) (leAt bs 3 1) m.1
    let n := recField x a 5 3 (.iv 1 4) (leAt bs 6 1) k.1
    runWords x a [leAt bs 4 2 * 2 ^ 16 + n.2 * 2 ^ 5 + k.2 * 2 ^ 3 + m.2 * 2 + 1, leAt bs 8 4, leAt bs 12 4] n.1

def routeRecords (sec : Nat) : Nat → Nat → List Nat → State → State
  | 0, _, _, s => s
  | fuel + 1, n, bs, s =>
    if bs.isEmpty then s
    else if bs.length < 16 then dropRec ⟨sec, n, 0xFF⟩ 0 4 (leAt bs 0 4) s
    else routeRecords sec fuel (n + 1) (bs.drop 16) (loadRoute ⟨sec, n, 0xFF⟩ bs s)

/-- One window record: the next BRG_WIN entry. -/
def loadWindow (x : Src) (bs : List Nat) (s : State) : State :=
  let kind := leAt bs 0 1
  let index := leAt bs 1 1
  let w := leAt bs 0 4
  let e := s.ldr.windows
  let a := (BRG_WIN_W0_VALID e).addr
  if 1 < kind ∨ (if kind = 0 then 19 else 31) < index then dropRec x 0 4 w s
  else if (if kind = 0 then !cpPresent s.variant index else !fabricOk s.variant) then dropRec x 0 2 w s
  else if 64 ≤ e then dropRec x 0 4 w s
  else
    { s with ldr := { s.ldr with windows := e + 1 } }
      |> runWords x a [index * 256 + leAt bs 2 1 % 2 * 4 + kind * 2 + 1, leAt bs 4 4, leAt bs 8 4, leAt bs 12 4]

def windowRecords (sec : Nat) : Nat → Nat → List Nat → State → State
  | 0, _, _, s => s
  | fuel + 1, n, bs, s =>
    if bs.isEmpty then s
    else if bs.length < 16 then dropRec ⟨sec, n, 0xFF⟩ 0 4 (leAt bs 0 4) s
    else windowRecords sec fuel (n + 1) (bs.drop 16) (loadWindow ⟨sec, n, 0xFF⟩ bs s)

/-! ## Service records (R56, R205, R449) -/

/-- Length and fields (offset, size, range) of a known key. -/
def serviceForm (key : Nat) (value : List Nat) : Option (Nat × List (Nat × Nat × Rng)) :=
  if key = 0x0601 then
    some (24, [(0, 2, .iv 0 16383), (2, 1, .iv 0 3), (3, 1, .iv 0 4), (4, 2, .iv 256 61440), (6, 1, .iv 1 255),
      (7, 1, .iv 0x08 0x77), (10, 2, .iv 1 65535), (12, 2, .iv (max 1 (leAt value 10 2)) 65535), (14, 2, .iv 0x800 0x7FFF),
      (16, 2, .iv 0x100 0xFFFF), (18, 2, .iv 0x100 0xFFFF), (20, 4, .iv 0 0)])
  else if key = 0x1601 then some (4, [(0, 1, .iv 0x08 0x77), (1, 1, .set [(0, 31), (0xFF, 0xFF)]), (2, 1, .iv 1 10), (3, 1, .iv 0 0)])
  else none

/-- Bring the fields of a service value into range. -/
def serviceFields (x : Src) : List (Nat × Nat × Rng) → List Nat → State → State × List Nat
  | [], v, s => (s, v)
  | f :: fs, v, s =>
    let r := recField x 0 (8 * f.1) (8 * f.2.1) f.2.2 (leAt v f.1 f.2.1) s
    serviceFields x fs (v.take f.1 ++ leBytes f.2.1 r.2 ++ v.drop (f.1 + f.2.1)) r.1

/-- A record for the same item is kept already; the context compared is the one that the record comes to in range. -/
def serviceTaken (s : State) (key : Nat) (v : List Nat) : Bool :=
  s.ldr.services.any fun y => y.key == key && (key != 0x0601 || leAt y.value 0 2 == nearest (.iv 0 16383) 16 (leAt v 0 2))

def loadService (x : Src) (key : Nat) (v : List Nat) (w : Nat) (s : State) : State :=
  match serviceForm key v with
  | none => dropRec x 0 4 w s
  | some (len, fs) =>
    if v.length ≠ len then dropRec x 0 4 w s
    else if serviceTaken s key v then dropRec x 0 5 w s
    else
      let r := serviceFields x fs v s
      { r.1 with ldr := { r.1.ldr with services := r.1.ldr.services ++ [⟨key, r.2, x.sec, x.rec_, w⟩] } }

def serviceRecords (sec : Nat) : Nat → Nat → List Nat → State → State
  | 0, _, _, s => s
  | fuel + 1, n, bs, s =>
    if bs.isEmpty then s
    else
      let len := leAt bs 2 2
      let size := 4 + roundUp len 4
      if bs.length < size then dropRec ⟨sec, n, 0xFF⟩ 0 4 (leAt bs 0 4) s
      else serviceRecords sec fuel (n + 1) (bs.drop size) (loadService ⟨sec, n, 0xFF⟩ (leAt bs 0 2) (slice bs 4 len) (leAt bs 0 4) s)

/-! ## Profiles (R57, R58) -/

/-- The LIVE words that a profile's delta records have written, with their values (R84). -/
def profileLive (s : State) (p : Nat) : Sparse Word :=
  (sget (fun _ => []) s.ldr.profOrigin p).filterMap fun o =>
    if isLiveWord o.1 then some (o.1, sget (regReset s.chip) s.liveB o.1) else none

/-- Read a profile's header, then its delta records over the base set; the basting bank and LIVE block are the base's
again afterwards. Answers the index of the next delta record, and whether the rest of the section is dropped. -/
def loadProfile (x : Src) (bs : List Nat) (deltas : List Nat) (n : Nat) (s : State) : State × Nat × Bool :=
  let p := leAt bs 0 1
  let x := { x with profile := p }
  let used := leAt bs 1 1 % 2 == 1
  let s := if used && !posPresent s.variant then tell { kind := 9, cause := 2, req := 1, profile := p } s else s
  let lo := recField x 0 32 16 (.iv 0 3000) (leAt bs 4 2) s
  let hi := recField x 0 48 16 (.iv lo.2 3000) (leAt bs 6 2) lo.1
  let hy := recField x 0 64 16 (.iv 0 200) (leAt bs 8 2) hi.1
  let dw := recField x 0 80 16 (.iv 0 10000) (leAt bs 10 2) hy.1
  let s := dw.1
  let bank := s.cfgB
  let live := s.liveB
  let r := regRecords x.sec p deltas.length n deltas s
  let s := r.1
  let prof : Profile := ⟨p, used && posPresent s.variant, leAt bs 2 1 % 8, leAt bs 3 1 % 8, lo.2, hi.2, hy.2, dw.2⟩
  ({ s with
      cfgB := bank, liveB := live
      ldr := { s.ldr with
        profiles := s.ldr.profiles ++ [prof]
        profSets := sset (fun _ => []) s.ldr.profSets p s.cfgB
        profLive := sset (fun _ => []) s.ldr.profLive p (profileLive s p) } }, r.2)

/-- How many register records some bytes hold; nothing is counted after one of unknown length. -/
def countRecords : Nat → List Nat → Nat
  | 0, _ => 0
  | fuel + 1, bs =>
    if bs.isEmpty then 0
    else
      let kind := leAt bs 0 4 % 4
      let count := leAt bs 4 4
      let size := if kind = 0 then 8 else if kind = 1 then 12 else 8 + 4 * count
      if kind = 3 ∨ (kind = 2 ∧ 8 ≤ bs.length ∧ (count = 0 ∨ 4096 < count)) ∨ bs.length < size ∨ bs.length < 8 then 1
      else 1 + countRecords fuel (bs.drop size)

/-- The delta records of a dropped entry count in RECORD too (R474); they are neither written nor judged. -/
def skipDeltas (n : Nat) (deltas : List Nat) : Nat := n + countRecords deltas.length deltas

/-- The entries of a PROFILES section. A delta record of unknown length ends the section (R43, R44). -/
def profileEntries (sec : Nat) : Nat → Nat → Nat → List Nat → State → State
  | 0, _, _, _, s => s
  | fuel + 1, n, d, bs, s =>
    if bs.isEmpty then s
    else
      let x : Src := ⟨sec, n, 0xFF⟩
      let w := leAt bs 0 4
      let len := leAt bs 12 4
      let size := 16 + len
      if bs.length < 16 ∨ bs.length < size then dropRec x 0 4 w s
      else
        let deltas := slice bs 16 len
        let r :=
          if s.ldr.profileCount ≤ leAt bs 0 1 then (dropRec x 0 1 w s, skipDeltas d deltas, false)
          else if s.ldr.profiles.any fun q => q.index == leAt bs 0 1 then (dropRec x 0 5 w s, skipDeltas d deltas, false)
          else loadProfile x bs deltas d s
        if r.2.2 then r.1 else profileEntries sec fuel (n + 1) r.2.1 (bs.drop size) r.1

/-! ## Sections (R41, R42) -/

/-- A directory entry: its index, type, offset and length. -/
structure Section where
  index : Nat
  type : Nat
  off : Nat
  len : Nat
deriving DecidableEq, Repr

/-- The directory entries of an image. -/
def directory (img : List Nat) : List Section :=
  (List.range (leAt img 0x18 2)).map fun i =>
    let d := leAt img 0x1C 4 + 16 * i
    ⟨i, leAt img d 2, leAt img (d + 4) 4, leAt img (d + 8) 4⟩

/-- Insert by ascending type; entries of one type stay in directory order. -/
def insSection (x : Section) : List Section → List Section
  | [] => [x]
  | y :: ys => if x.type ≤ y.type then x :: y :: ys else y :: insSection x ys

/-- The records of one section. -/
def sectionRecords (x : Section) (bs : List Nat) (s : State) : State :=
  let n := bs.length
  if x.type = 1 then (regRecords x.index 0xFF n 0 bs s).1
  else if x.type = 2 then ctxEntries x.index n 0 bs s
  else if x.type = 3 then tableBlobs x.index n 0 bs s
  else if x.type = 4 then scriptRecords x.index n 0 bs s
  else if x.type = 5 then routeRecords x.index n 0 bs s
  else if x.type = 6 then windowRecords x.index n 0 bs s
  else if x.type = 7 then serviceRecords x.index n 0 bs s
  else profileEntries x.index n 0 0 bs s

/-- The sections in ascending TYPE order; a repeated or unknown one is ignored and reported. As REQ of its entry the model gives the
first word of its content: DESIGN CHOICE (log entry 122), since R72 has the first word of 'the record'. -/
def sections (img : List Nat) : List Nat → List Section → State → State
  | _, [], s => s
  | seen, x :: xs, s =>
    let bs := slice img x.off x.len
    let src : Src := ⟨x.index, 0xFFFFFFFF, 0xFF⟩
    if x.type = 0 ∨ 8 < x.type then sections img seen xs (dropRec src 0 4 (leAt bs 0 4) s)
    else if seen.contains x.type then sections img seen xs (dropRec src 0 5 (leAt bs 0 4) s)
    else sections img (x.type :: seen) xs (sectionRecords x bs s)

/-- Every record of an image (R42). -/
def loadRecords (img : List Nat) (s : State) : State :=
  sections img [] ((directory img).foldr insSection []) s

end Sys2Proof.Machine
end

