-- ==== Sys2Proof/Machine/Port.lean ====
section
/-! DEFINITION. What the camera-port commands share (R90–R122, R470): map entries, unpacking and packing, fill, opening
and closing frames, port states, power, scripts and the two-wire queue. -/

namespace Sys2Proof.Machine
open Sys2Proof

/-! ## Packing groups (R470) -/

/-- Pixels and bytes of a packing group. -/
def dtGroup (dt : Nat) : Nat × Nat :=
  if dt = 0x2B then (4, 5) else if dt = 0x2C then (2, 3) else if dt = 0x2D then (4, 7) else if dt = 0x2E then (1, 2)
  else if dt = 0x2F then (2, 5) else if dt = 0x1E then (2, 4) else (1, 1)

/-- Bits of one unpacked pixel. -/
def dtBits (dt : Nat) : Nat :=
  if dt = 0x2B then 10 else if dt = 0x2C then 12 else if dt = 0x2D then 14 else if dt = 0x2E then 16
  else if dt = 0x2F then 20 else if dt = 0x1E then 16 else 8

/-- The data types of R93. -/
def dtAccepted (dt : Nat) : Bool := dt == 0x12 || dt == 0x1E || (decide (0x2A ≤ dt) && decide (dt ≤ 0x2F))

/-- The pixels of one whole group: `hi` bytes of upper bits, then low bits packed from bit 0. -/
def unpackGroup (dt : Nat) (b : List Nat) : List Nat :=
  let g (i : Nat) : Nat := b.getD i 0 % 256
  let low (from_ w i : Nat) : Nat := (leNum (b.drop from_) >>> (w * i)) % 2 ^ w
  if dt = 0x2B then (List.range 4).map fun i => g i * 4 + low 4 2 i
  else if dt = 0x2C then (List.range 2).map fun i => g i * 16 + low 2 4 i
  else if dt = 0x2D then (List.range 4).map fun i => g i * 64 + low 4 6 i
  else if dt = 0x2E then [g 0 + 256 * g 1]
  else if dt = 0x2F then (List.range 2).map fun i => g i * 4096 + low 2 12 i
  else if dt = 0x1E then [g 0 + 256 * g 1, g 2 + 256 * g 3]
  else [g 0]

/-- The bytes of one group of pixels. -/
def packGroup (dt : Nat) (p : List Nat) : List Nat :=
  let v (i : Nat) : Nat := p.getD i 0
  let lows (n w : Nat) : Nat := ((List.range n).map fun i => (v i % 2 ^ w) <<< (w * i)).sum
  if dt = 0x2B then (List.range 4).map (fun i => v i / 4 % 256) ++ leBytes 1 (lows 4 2)
  else if dt = 0x2C then (List.range 2).map (fun i => v i / 16 % 256) ++ leBytes 1 (lows 2 4)
  else if dt = 0x2D then (List.range 4).map (fun i => v i / 64 % 256) ++ leBytes 3 (lows 4 6)
  else if dt = 0x2E then leBytes 2 (v 0)
  else if dt = 0x2F then (List.range 2).map (fun i => v i / 4096 % 256) ++ leBytes 3 (lows 2 12)
  else if dt = 0x1E then leBytes 2 (v 0) ++ leBytes 2 (v 1)
  else [v 0 % 256]

/-- Unpack a payload; an incomplete group at its end yields no pixel (R470). The fuel is the number of groups at most. -/
def unpack (dt : Nat) : Nat → List Nat → List Nat
  | 0, _ => []
  | n + 1, bs =>
    let g := (dtGroup dt).2
    if (bs.take g).length < g then [] else unpackGroup dt (bs.take g) ++ unpack dt n (bs.drop g)

/-- Pack pixels, the last group completed with zeros. -/
def pack (dt : Nat) : Nat → List Nat → List Nat
  | 0, _ => []
  | _ + 1, [] => []
  | n + 1, ps => packGroup dt (ps.take (dtGroup dt).1) ++ pack dt n (ps.drop (dtGroup dt).1)

/-- Packed payload bytes of a line of `px` pixels, rounded up to whole groups (R470). -/
def packedBytes (dt px : Nat) : Nat := ceilDiv px (dtGroup dt).1 * (dtGroup dt).2

/-! ## Map entries -/

def mapField (s : State) (ep : Nat) (r : RF) : Nat := cfgE s ep r
def mapCtx (s : State) (ep p e : Nat) : Nat := cfgE s ep (CPT_MAP_W0_CTX p e)
def mapDt (s : State) (ep p e : Nat) : Nat := cfgE s ep (CPT_MAP_W0_DT p e)
def mapVc (s : State) (ep p e : Nat) : Nat := cfgE s ep (CPT_MAP_W0_VC p e)
def mapExp (s : State) (ep p e : Nat) : Nat := cfgE s ep (CPT_MAP_W0_EXP_IDX p e)
def mapTriggered (s : State) (ep p e : Nat) : Bool := cfgE s ep (CPT_MAP_W3_TRIGGERED p e) != 0
def mapLines (s : State) (ep p e : Nat) : Nat := cfgE s ep (CPT_MAP_W1_LINES p e)
def mapPixels (s : State) (ep p e : Nat) : Nat := cfgE s ep (CPT_MAP_W2_PIXELS p e)

/-- Valid map entries of a port in an epoch's bank. -/
def mapEntries (s : State) (ep p : Nat) : List Nat :=
  (List.range 64).filter fun e => cfgE s ep (CPT_MAP_W0_VALID p e) != 0

def entriesOnVc (s : State) (ep p vc : Nat) : List Nat := (mapEntries s ep p).filter fun e => mapVc s ep p e == vc
def entriesOfCtx (s : State) (ep p c : Nat) : List Nat := (mapEntries s ep p).filter fun e => mapCtx s ep p e == c
def ctxEnabled (s : State) (ep c : Nat) : Bool := cfgE s ep (CTX_ENABLE c) != 0

/-- The fill value of a context for one pixel of a data type (R103): bytes of embedded and YUV data take its low 8
bits (log entry 10). -/
def fillPixel (s : State) (ep c dt : Nat) : Nat :=
  let v := cfgE s ep (CTX_FILL c)
  if dt = 0x1E then v % 256 * 257 else v % 2 ^ dtBits dt

/-! ## Errors, counters and camera events -/

/-- A port error (R121). -/
def portErr (p code vc dt ctx arg2 : Nat) : ErrInfo :=
  { unit := uCPT, inst := p, code, info := dt * 2 ^ 13 + vc * 2 ^ 8, arg1 := ctx, arg2 }

def noCtx : Nat := 0xFFFFFFFF

/-- Commit a camera event to queue 8 + p (R113), and then set the event bits that announce it (R270). -/
def camEvent (p code arg1 arg2 : Nat) (evts : List RF) (s : State) : State :=
  let bs := leBytes 2 code ++ [p, rd s (CPT_STATE_STATE p)] ++ leBytes 4 (timeNs s)
    ++ leBytes 2 (islandEpoch s (islCP p)) ++ leBytes 2 arg1 ++ leBytes 4 arg2
  qPutEvt (8 + p) uCPT (bytesToWords 4 bs) evts s

def portState (s : State) (p : Nat) : Nat := rd s (CPT_STATE_STATE p)

/-- The port has a bring-up script (R109, R110). -/
def scriptFor (s : State) (p role : Nat) : Option Script :=
  s.ldr.scripts.find? fun x => x.role == role && hasBit x.ports p

/-- The port accepts frames (R110). -/
def accepting (s : State) (p : Nat) : Bool := portState s p == 4 && !(camOf s p).stopping && !isSafe s

/-! ## The relay, as the ports see it (R405) -/

/-- The port serves a dual-homed module: some enabled class M context is fed from it. -/
def dualHomed (s : State) (p : Nat) : Bool :=
  let ep := islandEpoch s (islCP p)
  (mapEntries s ep p).any fun e =>
    let c := mapCtx s ep p e
    ctxEnabled s ep c && cfgE s ep (CTX_DCLASS c) == 2

/-- The device is one of a relay pair and does not hold the baton. -/
def notHolder (s : State) : Bool :=
  act s RLY_CFG_ENABLE != 0 && !(rd s RLY_STAT_ROLE == 1 || rd s RLY_STAT_ROLE == 3)

/-- The port leaves power, trigger-free writes and GPIO to the partner (R405). -/
def passive (s : State) (p : Nat) : Bool := notHolder s && dualHomed s p

/-! ## Closing frames (R103–R108) -/

/-- Fill lines that a part still lacks. -/
def missingLines (s : State) (f : FrameSt) (x : Part) : List Line :=
  let dt := mapDt s f.epoch f.port x.e
  let n := mapLines s f.epoch f.port x.e
  let px := List.replicate (mapPixels s f.epoch f.port x.e) (fillPixel s f.epoch f.ctx dt)
  (List.range (n - x.got)).map fun i => ⟨x.got + i, x.e, mapExp s f.epoch f.port x.e, px, 1, liveOf s f.ctx, 0, true⟩

/-- Every entry has all its lines. -/
def partsComplete (s : State) (f : FrameSt) : Bool :=
  f.parts.all fun x => decide (mapLines s f.epoch f.port x.e ≤ x.got)

/-- Close an open frame: missing lines are supplied as fill. It is SHORT if any entry lacks lines, or if the close makes it so
whatever has come (`cut`: R105, R107, R108, R110, R113, R81), and then carries the further STATUS bits given. A SHORT frame records
error 0x03 with the virtual channel given, if one is: not where the cause of the close has an error of its own (log entry 11). -/
def closeFrame (id extra : Nat) (cut : Bool) (vc : Option Nat) (s : State) : State :=
  match frameById s id with
  | none => s
  | some f =>
    if !f.isOpen then s
    else
      let short := cut || !partsComplete s f
      let f' := { f with
        isOpen := false
        status := f.status ||| (if short then 1 ||| extra else 0)
        arriving := if f.adm = .refused then [] else f.arriving ++ f.parts.flatMap (missingLines s f)
        parts := f.parts.map fun x => { x with started := true, ended := true } }
      let s := putFrame f' s
      let s := if short then
          let s := inc (CPT_FRAME_CNT_SHORT f.port) s
          match vc with
          | some v => recordError ((portErr f.port 0x03 v 0 f.ctx f.fc).setting (CPT_EVT_FRAME_ERR f.port)) s
          | none => wr (CPT_EVT_FRAME_ERR f.port) 1 s
        else s
      sweepFrames s

def openFrames (s : State) (p : Nat) : List FrameSt := s.frames.filter fun f => f.isOpen && f.port == p

/-- The virtual channel of an open frame: of its first entry without a frame end (log entry 11). -/
def frameVc (s : State) (f : FrameSt) : Nat :=
  match f.parts.find? fun x => !x.ended with
  | some x => mapVc s f.epoch f.port x.e
  | none => 0

/-- Close every open frame of a port as SHORT; `told` says that the cause records an error of its own. -/
def closeAll (p extra : Nat) (told : Bool) (s : State) : State :=
  (openFrames s p).foldl (fun s f => closeFrame f.id extra true (if told then none else some (frameVc s f)) s) s

/-! ## Power over coax (R345, R346, R475) -/

def setPin (group number level : Nat) (s : State) : State := emit (.pin group number level) s

/-- Pin groups of Emit.pin. -/
def pinSafe : Nat := 0
def pinPoc : Nat := 1
def pinGpio : Nat := 2
def pinPwm : Nat := 3
def pinFold : Nat := 4
def pinFence : Nat := 5
def pinHb : Nat := 6
def pinAlert : Nat := 7
def pinEmu : Nat := 8

def putBit (v n : Nat) (b : Bool) : Nat := if b then withBit v n else withoutBit v n

/-- Drive POC_EN of a port. -/
def drivePoc (p : Nat) (on : Bool) (s : State) : State :=
  { s with pins := { s.pins with pocEn := putBit s.pins.pocEn p on } } |> setPin pinPoc p (bit on)

/-- The supervisor enters INRUSH and POC_EN is asserted. -/
def powerInrush (p : Nat) (s : State) : State :=
  if isSafe s then s
  else
    { s with pwrs := sset (fun _ => ⟨0, 0, 0⟩) s.pwrs p ⟨0, 0, upNs s⟩ } |> wr (PWR_P_STAT_STATE p) 1 |> wr (PWR_P_STAT_PG p) 0
      |> drivePoc p true

/-- The supervisor enters OFF; `keep` leaves ATTEMPT standing (R475), else it returns to 0 (R346). -/
def powerOff (p : Nat) (keep : Bool) (s : State) : State :=
  let s := s |> wr (PWR_P_STAT_STATE p) 0 |> wr (PWR_P_STAT_PG p) 0 |> drivePoc p false
  if keep then s else wr (PWR_P_STAT_ATTEMPT p) 0 s

/-! ## Port states (R109–R112) -/

def setState (p st : Nat) (s : State) : State :=
  let s := wr (CPT_STATE_STATE p) st s
  if isAphy p then s else wr (CPT_STATE_LOCK p) (bit (st == 4)) s

/-- Start the script of a role, if one is bound. -/
def startScript (p role : Nat) (s : State) : State :=
  match scriptFor s p role with
  | none => s
  | some x =>
    let n := (camOf s p).runs + 1
    setCam p { camOf s p with script := some ⟨n, role, x.code, 0, 0, [], .ready⟩, runs := n } s

def dropScript (p : Nat) (s : State) : State := setCam p { camOf s p with script := none } s

/-- The link is locked; a local port's always counts as locked for its scripts (R110). -/
def linkLocked (s : State) (p : Nat) : Bool := !isAphy p || isSet s (CPT_STATE_LOCK p)

def enterBringup (p : Nat) (s : State) : State := s |> setState p 3 |> startScript p 0

/-- BRINGUP, or SEARCH if not locked. -/
def bringupOrSearch (p : Nat) (s : State) : State := if linkLocked s p then enterBringup p s else setState p 2 s

/-- A port begins: POWER on an A-PHY port (SEARCH without power on a dual-homed one of the device that does not hold the
baton, R405), BRINGUP on a local port. -/
def beginPort (p : Nat) (s : State) : State :=
  if !isAphy p then enterBringup p s
  else if passive s p then setState p 2 s
  else s |> setState p 1 |> powerInrush p

/-- RECOVER: the recovery script runs, or the port goes straight on if none is bound. -/
def enterRecover (p : Nat) (s : State) : State :=
  let s := setState p 5 s
  match scriptFor s p 3 with
  | none => bringupOrSearch p s
  | some _ => startScript p 3 s

/-- FAULT (R110). -/
def enterFault (p code : Nat) (s : State) : State :=
  s |> setState p 8
    |> camEvent p 0x8009 code (rd s (CPT_STATE_ATTEMPT p) + 1) [CPT_EVT_FAULT p, CPT_EVT_BRINGUP_FAIL p]

/-- A failed bring-up or recovery attempt: HOLD while attempts remain, else FAULT (R110). -/
def failAttempt (p code : Nat) (s : State) : State :=
  let a := rd s (CPT_STATE_ATTEMPT p)
  if a < eff s (CPT_BRINGUP_RETRY p) then
    s |> setState p 6 |> camEvent p 0x8004 code (a + 1) [CPT_EVT_BRINGUP_FAIL p] |> wr (CPT_STATE_ATTEMPT p) (a + 1)
  else enterFault p code s

/-- The end of a bring-up or recovery script by its code (R110, R111). END 0xFF of a recovery script sets BRINGUP_FAIL and records
error 0x0E like a failure: DESIGN CHOICE (log entry 114), the spec calls it an escalation. -/
def attemptEnded (p role code : Nat) (s : State) : State :=
  let failed := portErr p 0x0E 0 0 noCtx 0
  if code = 0 then
    if role = 0 then
      let s := setState p 4 s
      s |> camEvent p 0x8003 0 (rd s (CPT_STATE_ATTEMPT p) + 1) [] |> wr (CPT_STATE_ATTEMPT p) 0
    else bringupOrSearch p s
  else if 0x80 ≤ code ∧ code ≤ 0xBF then
    s |> setState p 7 |> recordError (portErr p 0x0F 0 0 noCtx 0)
      |> camEvent p 0x8005 code 0 [CPT_EVT_BRINGUP_FAIL p, CPT_EVT_MISMATCH p]
  else if (0xC0 ≤ code ∧ code ≤ 0xFC) ∨ code = 0xFE then s |> recordError failed |> enterFault p code
  else if code = 0xFF ∧ role = 3 then s |> bringupOrSearch p |> recordError (failed.setting (CPT_EVT_BRINGUP_FAIL p))
  else s |> recordError failed |> failAttempt p code

/-- The port reaches OFF; the supervisor of an A-PHY port follows (R346). -/
def enterOff (p : Nat) (s : State) : State :=
  let s := s |> setState p 0 |> wr (CPT_STATE_LOCK p) 0 |> wr (CPT_STATE_GEAR_NOW p) 0 |> wr (CPT_TRIG_LAT_VALID p) 0
  let s := if isAphy p then powerOff p false s else s
  setCam p { camOf s p with trig := none, echo := none, losing := false, stopping := false, cycling := false } s

/-- From OFF with ENABLE = 1 and a bring-up script, the port begins (R109, R110). -/
def offOrBegin (p : Nat) (s : State) : State :=
  let s := enterOff p s
  if act s (CPT_CFG_ENABLE p) != 0 && (scriptFor s p 0).isSome && !isSafe s && !s.mnt.parking then beginPort p s else s

/-- A supervision script has failed (R110). -/
def supervisionFailed (p code : Nat) (s : State) : State :=
  if portState s p = 4 then
    s |> closeAll p 0 false |> setState p 5 |> camEvent p 0x8006 code 0 [] |> recordError (portErr p 0x0E 0 0 noCtx 0)
      |> enterRecover p
  else s

/-- The running script ends with a result code (R50, R111). A shutdown script that fails records no error: DESIGN CHOICE (log entry
114), since no row of R110 names it. -/
def endScript (p code : Nat) (s : State) : State :=
  match (camOf s p).script with
  | none => s
  | some r =>
    let s := s |> dropScript p |> wr (CPT_STATE_LAST_CODE p) code
    if r.role = 0 ∨ r.role = 3 then attemptEnded p r.role code s
    else if r.role = 1 then (if code = 0 then s else supervisionFailed p code s)
    else offOrBegin p s

/-- A script runs that must not be dropped: the shutdown script of a stopping port (R110). -/
def isStopping (s : State) (p : Nat) : Bool := (camOf s p).stopping

/-- Link loss (R107): open frames close as SHORT with LINK_LOST; from STREAMING and MISMATCH the port enters RECOVER
(R110), unless it is stopping. -/
def linkLoss (p : Nat) (s : State) : State :=
  let first := (openFrames s p).head?
  let vc := match first with | some f => frameVc s f | none => 0xFFFF
  let n := match first with | some f => f.linesIn | none => 0
  let leaves := (portState s p == 4 || portState s p == 7) && !isStopping s p
  let s := s |> closeAll p 4 true |> inc (CPT_LINK_CNT_LINK_LOST p)
  let s := if leaves then setState p 5 (dropScript p s) else s
  let s := s
    |> recordError (portErr p 0x07 (if vc = 0xFFFF then 0 else vc) 0 (match first with | some f => f.ctx | none => noCtx)
        (match first with | some f => f.fc | none => 0))
    |> camEvent p 0x8002 vc n [CPT_EVT_LINK_LOST p]
  if leaves then enterRecover p s else s

/-- A port that power supervision has shut down (R110, R347); the shutdown script of a stopping port runs on. -/
def powerFault (p : Nat) (s : State) : State :=
  if portState s p = 0 then s
  else
    let s := closeAll p 4 false s
    let s := if isStopping s p then s else dropScript p s
    s |> setState p 9 |> wr (CPT_STATE_LOCK p) 0 |> wr (CPT_STATE_GEAR_NOW p) 0
      |> wr (CPT_TRIG_LAT_VALID p) 0 |> wr (CPT_EVT_FAULT p) 1 |> fun s => setCam p { camOf s p with echo := none } s

/-- A stopping port: open frames close as SHORT and the shutdown script, if bound, runs to its end first (R110). While it runs the
port refuses packets, its STATE stands as it was, and only a power trip changes it: DESIGN CHOICE (log entry 114). -/
def stopPort (p : Nat) (s : State) : State :=
  if portState s p = 0 ∨ (camOf s p).stopping then s
  else
    let s := s |> closeAll p 0 false |> dropScript p
    match scriptFor s p 2 with
    | none => enterOff p s
    | some _ => startScript p 2 (setCam p { camOf s p with stopping := true } s)

/-- During entry to park mode a port without an open frame stops, with no shutdown script (R430). -/
def parkPort (p : Nat) (s : State) : State :=
  if s.mnt.parking && portState s p != 0 && (openFrames s p).isEmpty then s |> dropScript p |> enterOff p else s

/-! ## GPIO and triggers (R114–R118, R476) -/

/-- Drive a GPIO line: a message on the uplink of an A-PHY port, a pin of a local one. -/
def driveLine (p line level : Nat) (s : State) : State :=
  if isSafe s then s
  else if isAphy p then emit (.uplink p 0 (line * 2 + level)) s
  else { s with pins := { s.pins with gpio := putBit s.pins.gpio (4 * p + line) (level != 0) } } |> setPin pinGpio (4 * p + line) level

/-- LEAD of a port (R114). -/
def leadOf (s : State) (p : Nat) : Nat :=
  (if isAphy p then rd s (CPT_TRIG_LAT_NS p) else 0) + eff s (CPT_TRIG_FIX_NS p)

/-- The port sends triggers (R117, R428). -/
def canTrigger (s : State) (p : Nat) : Bool :=
  portState s p == 4 && !(camOf s p).stopping && !isSafe s
    && (!isAphy p || (isSet s (CPT_TRIG_LAT_VALID p) && isSet s (CPT_STATE_LOCK p)))

/-- Send the assert message or begin the local pulse. -/
def assertTrigger (p : Nat) (s : State) : State :=
  s |> driveLine p (eff s (CPT_TRIG_LINE p)) (eff s (CPT_TRIG_POL p))
    |> fun s => setCam p { camOf s p with pulse := true } s

/-- A trigger counted LATE, OVERRUN or MISS records an error and sets TRIG_ERR (R118, R121). -/
def trigErr (p code : Nat) (r : RF) (s : State) : State :=
  s |> inc r |> recordError ((portErr p code 0 0 noCtx 0).setting (CPT_EVT_TRIG_ERR p))

/-- T − LEAD has passed (R117, R308). -/
def sendPassed (s : State) (p key : Nat) : Bool := decide (0 < sinceNs s (unsgn 32 ((key : Int) - leadOf s p)))

/-- The time unit hands a trigger over (R117, R118): an earlier one that no frame start has taken is an OVERRUN; a
trigger whose sending time has passed is sent at once and counted LATE. -/
def handTrigger (p key epoch : Nat) (ctxs : List Nat) (mids : List (Nat × Nat)) (s : State) : State :=
  let s := match (camOf s p).trig with
    | some t => if t.taken then s
        else trigErr p 0x0D (CPT_TRIG_CNT_OVERRUN p) s
    | none => s
  if sendPassed s p key then
    if canTrigger s p then
      s |> setCam p { camOf s p with trig := some ⟨s.now + leadOf s p, epoch, key, true, true, false, ctxs, mids⟩ }
        |> assertTrigger p |> trigErr p 0x0C (CPT_TRIG_CNT_LATE p)
    else setCam p { camOf s p with trig := none } s
  else setCam p { camOf s p with trig := some ⟨key, epoch, key, false, false, false, ctxs, mids⟩ } s

/-! ## The two-wire queue (R357) -/

def emptyTwb : TwbSt := ⟨[], [], none, 0⟩
def twbOf (s : State) (i : Nat) : TwbSt := sget (fun _ => emptyTwb) s.twbs i
def setTwb (i : Nat) (x : TwbSt) (s : State) : State := { s with twbs := sset (fun _ => emptyTwb) s.twbs i x }

/-- Queue a transaction: those of the service cores go before those of the bridge. -/
def queueTxn (i : Nat) (t : Txn) (s : State) : State :=
  let x := twbOf s i
  match t.owner with
  | .bridge _ => setTwb i { x with brgQ := x.brgQ ++ [t] } s
  | _ => setTwb i { x with svcQ := x.svcQ ++ [t] } s

end Sys2Proof.Machine
end

