-- ==== Sys2Proof/Machine/Raw.lean ====
section
/-! DEFINITION. The raw part of a pixel slice (R153–R179): linearisation, black level, defective pixels, lens shading,
HDR merge, gain trim, and the statistics record. -/

namespace Sys2Proof.Machine
open Sys2Proof

/-! ## Formulas -/

/-- Stage 1 without a table: v = c << (20 − n) (R162). -/
def linearPlain (n c : Nat) : Nat := c * 2 ^ (20 - n)

/-- Interpolation between two elements of a table with an 8-bit fraction: t0 + (((t1 − t0) × f + 128) >> 8). -/
def lerp8 (t0 t1 f : Nat) : Nat := ((t0 : Int) + sar (((t1 : Int) - t0) * f + 128) 8).toNat

/-- Stage 1 with the table (R162). -/
def linearTable (t : Nat → Nat) (n c : Nat) : Nat :=
  let x := c * 2 ^ (16 - n)
  lerp8 (t (x / 256)) (t (x / 256 + 1)) (x % 256)

/-- Gain of the lens-shading mesh at a pixel (R168). -/
def shadeGain (g : Nat → Nat → Nat) (sx sy nx ny x y : Nat) : Nat :=
  let i := min (x / 2 ^ sx) (nx - 1)
  let i1 := min (i + 1) (nx - 1)
  let j := min (y / 2 ^ sy) (ny - 1)
  let j1 := min (j + 1) (ny - 1)
  let wx := x % 2 ^ sx * 2 ^ (12 - sx)
  let wy := y % 2 ^ sy * 2 ^ (12 - sy)
  let top := g i j * (4096 - wx) + g i1 j * wx
  let bot := g i j1 * (4096 - wx) + g i1 j1 * wx
  (top * (4096 - wy) + bot * wy + 2 ^ 23) / 2 ^ 24

/-- A U4.12 gain, rounded and limited to U24 (R168, R174, R185). -/
def gain24 (v g : Nat) : Nat := min 0xFFFFFF ((v * g + 2048) / 4096)

/-- A U8.8 ratio applied to an exposure (R169). -/
def ratioed (v r : Nat) : Nat := min (2 ^ 32 - 1) ((v * r + 128) / 256)

/-- The ratio of the third exposure to the first (R169). -/
def ratio12 (r1 r2 : Nat) : Nat := min 0xFFFFFF ((r1 * r2 + 128) / 256)

/-- Weight of an exposure from its table (R170). -/
def hdrWeight (t : Nat → Nat) (d : Nat) : Nat := lerp8 (t (d / 2 ^ 14)) (t (d / 2 ^ 14 + 1)) (d / 64 % 256)

/-- The motion test of R172 on the longer and the shorter normalised value. -/
def motionFound (motAbs motRel a b w : Nat) : Bool :=
  decide (0 < w) && decide (w < 4096)
    && decide (motAbs + max a b * motRel / 256 < (if a < b then b - a else a - b))

/-- The weight after the motion test. -/
def motionWeight (mode : Nat) (moving : Bool) (w : Nat) : Nat :=
  if moving && mode == 1 then 4096 else if moving && mode == 2 then 0 else w

/-- One blend of R173. -/
def blend (a b w : Nat) : Nat := (a * w + b * (4096 - w) + 2048) / 4096

/-- Result of stage 5 for one pixel: the merged value, and whether the pixel was found moving. -/
def mergePixel (exposures mode motAbs motRel : Nat) (u0 u1 u2 w0 w1 : Nat) : Nat × Bool :=
  if exposures ≤ 1 then (min 0xFFFFFF u0, false)
  else
    let on (b : Bool) : Bool := b && mode != 0
    if exposures = 2 then
      let mv := on (motionFound motAbs motRel u0 u1 w0)
      (min 0xFFFFFF (blend u0 u1 (motionWeight mode mv w0)), mv)
    else
      let mv1 := on (motionFound motAbs motRel u1 u2 w1)
      let m12 := blend u1 u2 (motionWeight mode mv1 w1)
      let mv0 := on (motionFound motAbs motRel u0 m12 w0)
      (min 0xFFFFFF (blend u0 m12 (motionWeight mode mv0 w0)), mv1 || mv0)

/-- Insert in ascending order. -/
def insertSorted (a : Nat) : List Nat → List Nat
  | [] => [a]
  | b :: l => if a ≤ b then a :: b :: l else b :: insertSorted a l

def sortNats (l : List Nat) : List Nat := l.foldr insertSorted []

/-- The median of R164; 0 of no values. -/
def median (l : List Nat) : Nat :=
  let t := sortNats l
  let m := t.length
  if m % 2 = 1 then t.getD (m / 2) 0 else (t.getD (m / 2 - 1) 0 + t.getD (m / 2) 0) / 2

def minOf (l : List Nat) : Nat := l.foldl min (l.headD 0)

/-- The dynamic test of R167: the replacement, if the pixel is hot or cold. -/
def dynamicTest (dynAbs relHot relCold p : Nat) (n : List Nat) : Option Nat :=
  let med := median n
  if n.length < 2 then none
  else if maxOf n + (dynAbs + med * relHot / 256) < p then some med
  else if p + (dynAbs + med * relCold / 256) < minOf n then some med
  else none

/-- The histogram bin of R175. -/
def histBin (m : Nat) : Nat := if m < 2 then 0 else 2 * Nat.log2 m + m / 2 ^ (Nat.log2 m - 1) % 2

/-! ## CFA classes (R183) -/

/-- The RGB-IR patterns, line by line from the top left. -/
def rgbIr (cfa : Nat) : List Nat :=
  if cfa = 13 then [3, 1, 0, 1, 1, 2, 1, 2, 0, 1, 3, 1, 1, 2, 1, 2] else [0, 1, 3, 1, 1, 2, 1, 2, 3, 1, 0, 1, 1, 2, 1, 2]

def isRgbIr (cfa : Nat) : Bool := decide (13 ≤ cfa)

/-- The class of the pixel (x, y); the pattern goes on outside the frame. -/
def cfaClass (cfa : Nat) (x y : Int) : Nat :=
  if cfa = 0 then 0
  else if isRgbIr cfa then (rgbIr cfa).getD ((y % 4).toNat * 4 + (x % 4).toNat) 0
  else ((y % 2).toNat * 2 + (x % 2).toNat) ^^^ ((cfa - 1) % 4)

/-! ## Images -/

/-- A sample at integer coordinates of rows of samples. -/
def sample {α : Type} (d : α) (img : List (List α)) (x y : Int) : α :=
  if x < 0 ∨ y < 0 then d else (img.getD y.toNat []).getD x.toNat d

/-- Rows of samples from a function. -/
def image {α : Type} (w h : Nat) (g : Nat → Nat → α) : List (List α) :=
  (List.range h).map fun y => (List.range w).map fun x => g x y

def inFrame (w h : Nat) (x y : Int) : Bool := decide (0 ≤ x) && decide (x < w) && decide (0 ≤ y) && decide (y < h)

/-- Table elements of the table region of a physical slice (R156, R158), and of the line store. -/
def tableElem (s : State) (phys off size i : Nat) : Nat :=
  leNum (memRead ramDefault s.ram (0x608000 + 0x20000 * phys + off + size * i) size)
def storeElem (s : State) (off size i : Nat) : Nat := leNum (memRead ramDefault s.ram (0x1000000 + off + size * i) size)

/-- A field of the frame's context record in the bank of the frame's epoch. -/
def ctxF (s : State) (f : FrameSt) (r : Nat → RF) : Nat := cfgE s f.epoch (r f.ctx)

/-- The map entry that feeds an exposure lane: the first with its EXP_IDX (R153). -/
def laneEntry (s : State) (f : FrameSt) (e : Nat) : Option Nat :=
  (f.parts.find? fun x => mapExp s f.epoch f.port x.e == e).map (·.e)

/-- Bits of a lane's raw codes. -/
def laneBits (s : State) (f : FrameSt) (e : Nat) : Nat :=
  match laneEntry s f e with
  | some n => dtBits (mapDt s f.epoch f.port n)
  | none => 20

/-- The physical slice that serves a logical slice in a bank (R418). -/
def physOf (s : State) (ep l : Nat) : Nat := cfgE s ep RSV_SLICE_MAP_PHYS / 8 ^ l % 8

/-- A table is uncorrectable at a pixel of a heat: in one exposure lane for stages 1 to 5 (R179). -/
def faulty (h : HeatLine) (stage lane x : Nat) : Bool :=
  h.bad.any fun b => b.stage == stage && (b.lane == lane || decide (6 ≤ stage)) && decide (b.fromX ≤ x)

/-! ## Stages 1 to 3, by exposure lane -/

/-- A pixel of an exposure lane: its value, its saturation flag, and how stage 3 replaced it (0 not, 1 static, 2
dynamic). -/
structure Site where
  v : Nat
  sat : Bool
  kind : Nat

def noSite : Site := ⟨0, false, 0⟩

/-- Stages 1 and 2 (R162, R163). -/
def rawSite (s : State) (f : FrameSt) (phys e : Nat) (h : HeatLine) (x : Nat) : Site :=
  let set := ctxF s f CTX_PWL_SET
  let n := laneBits s f e
  let code := ((h.lanes.find? fun l => l.exp == e).map (·.px)).getD [] |>.getD x 0
  let v :=
    if cfgE s f.epoch (PIX_LIN_CTRL_PWL_EN set) = 0 ∨ faulty h 1 e x then linearPlain n code
    else linearTable (tableElem s phys (cfgE s f.epoch (PIX_LIN_CTRL_OFFSET set)) 4) n code
  let k := cfaClass (ctxF s f CTX_CFA) x h.k
  ⟨v - cfgE s f.epoch (PIX_LIN_BL_BL set k), decide (cfgE s f.epoch (PIX_HDR_SAT_SAT (ctxF s f CTX_HDR_SET) e) ≤ v), 0⟩

/-- The entries of the static map on a line and inside the frame, column and mode, duplicates left out (R165, R166). -/
def staticEntries (s : State) (f : FrameSt) (y : Nat) : List (Nat × Nat) :=
  let set := ctxF s f CTX_DPC_SET
  if cfgE s f.epoch (PIX_DPC_CTRL_STATIC_EN set) = 0 then []
  else
    let all := (List.range (cfgE s f.epoch (PIX_DPC_CTRL_COUNT set))).map
      (storeElem s (cfgE s f.epoch (PIX_DPC_MAP_OFFSET set)) 4)
    let here := (all.filter fun w => w / 2 ^ 14 % 2 ^ 14 == y && decide (w % 2 ^ 14 < ctxF s f CTX_WIDTH)).map
      fun w => (w % 2 ^ 14, w / 2 ^ 28 % 4)
    here.foldl (fun acc p => if acc.any (fun q => q.1 == p.1) then acc else acc ++ [p]) []

/-- The entries that the slice applies: at most 64 to a line and exposure (R166). -/
def appliedEntries (s : State) (f : FrameSt) (y : Nat) : List (Nat × Nat) := (staticEntries s f y).take 64

/-- Same-class neighbour offsets (R164). -/
def sameClassOffsets (cfa k : Nat) : List (Int × Int) :=
  let diag : List (Int × Int) := [(-2, -2), (2, -2), (-2, 2), (2, 2)]
  if isRgbIr cfa && (k == 0 || k == 3) then diag else [(-2, 0), (2, 0), (0, -2), (0, 2)] ++ diag

/-- The values at the offsets that lie inside the frame and are not listed in the static map (R155, R165). -/
def neighbours (w h : Nat) (listed : Nat → List (Nat × Nat)) (img : List (List Site)) (x y : Nat) (offs : List (Int × Int)) :
    List Nat :=
  (offs.filter fun d =>
      let nx := (x : Int) + d.1
      let ny := (y : Int) + d.2
      inFrame w h nx ny && !((listed ny.toNat).any fun q => (q.1 : Int) == nx)).map
    fun d => (sample noSite img ((x : Int) + d.1) ((y : Int) + d.2)).v

/-- A replaced pixel: its saturation flag is computed anew (R167). -/
def replaced (s : State) (f : FrameSt) (e x y v kind : Nat) : Site :=
  let k := cfaClass (ctxF s f CTX_CFA) x y
  ⟨v, decide (cfgE s f.epoch (PIX_HDR_SAT_SAT (ctxF s f CTX_HDR_SET) e)
    ≤ v + cfgE s f.epoch (PIX_LIN_BL_BL (ctxF s f CTX_PWL_SET) k)), kind⟩

/-- Static correction of one pixel (R165). -/
def staticSite (s : State) (f : FrameSt) (e : Nat) (hs : List HeatLine) (img : List (List Site)) (x y : Nat) : Site :=
  let p := sample noSite img x y
  let w := ctxF s f CTX_WIDTH
  let h := ctxF s f CTX_HEIGHT
  match (appliedEntries s f y).find? fun q => q.1 == x with
  | none => p
  | some q =>
    if (hs.getD y ⟨0, [], []⟩).bad.any (fun b => b.stage == 3 && b.lane == e && decide (b.fromX ≤ x)) then p
    else
      let near (offs : List (Int × Int)) : List Nat := neighbours w h (appliedEntries s f) img x y offs
      let mean (l : List Nat) : Nat := l.sum / l.length
      let n :=
        if q.2 = 0 then near (sameClassOffsets (ctxF s f CTX_CFA) (cfaClass (ctxF s f CTX_CFA) x y))
        else if q.2 = 1 then near [(-2, 0), (2, 0)] else near [(0, -2), (0, 2)]
      if n.isEmpty then p else replaced s f e x y (if q.2 = 0 then median n else mean n) 1

/-- The dynamic test of one pixel (R167). -/
def dynamicSite (s : State) (f : FrameSt) (e : Nat) (hs : List HeatLine) (img : List (List Site)) (x y : Nat) : Site :=
  let p := sample noSite img x y
  let set := ctxF s f CTX_DPC_SET
  let line := hs.getD y ⟨0, [], []⟩
  let filled := line.lanes.any fun l => l.exp == e && hasBit l.flags 0
  if cfgE s f.epoch (PIX_DPC_CTRL_DYN_EN set) = 0 ∨ filled ∨ faulty line 3 e x
      ∨ (appliedEntries s f y).any (fun q => q.1 == x) then p
  else
    let cfa := ctxF s f CTX_CFA
    let n := neighbours (ctxF s f CTX_WIDTH) (ctxF s f CTX_HEIGHT) (appliedEntries s f) img x y
      (sameClassOffsets cfa (cfaClass cfa x y))
    match dynamicTest (cfgE s f.epoch (PIX_DPC_ABS_DYN_ABS set)) (cfgE s f.epoch (PIX_DPC_REL_REL_HOT set))
        (cfgE s f.epoch (PIX_DPC_REL_REL_COLD set)) p.v n with
    | none => p
    | some v => replaced s f e x y v 2

/-- The lane's pixels after stage 3, one row to a heated line. -/
def laneImage (s : State) (f : FrameSt) (phys : Nat) (hs : List HeatLine) (e : Nat) : List (List Site) :=
  let w := ctxF s f CTX_WIDTH
  let img := hs.map fun h => (List.range w).map (rawSite s f phys e h)
  let img := image w hs.length (staticSite s f e hs img)
  image w hs.length (dynamicSite s f e hs img)

/-! ## Stages 4 to 6 -/

/-- Stage 4 (R168). -/
def shaded (s : State) (f : FrameSt) (h : HeatLine) (e x v : Nat) : Nat :=
  let set := ctxF s f CTX_LSC_SET
  let k := cfaClass (ctxF s f CTX_CFA) x h.k
  let nx := cfgE s f.epoch (PIX_LSC_CTRL_NX set)
  let g :=
    if cfgE s f.epoch (PIX_LSC_CTRL_EN set) = 0 ∨ faulty h 4 e x then 0x1000
    else shadeGain (fun i j => storeElem s (cfgE s f.epoch (PIX_LSC_MESH_OFFSET set)) 2 (4 * (j * nx + i) + k))
      (cfgE s f.epoch (PIX_LSC_CTRL_SX set)) (cfgE s f.epoch (PIX_LSC_CTRL_SY set)) nx
      (cfgE s f.epoch (PIX_LSC_CTRL_NY set)) x h.k
  gain24 v g

/-- The weight of an exposure (R170, R171, R179). -/
def weightOf (s : State) (f : FrameSt) (phys : Nat) (h : HeatLine) (e x : Nat) (p : Site) : Nat :=
  let set := ctxF s f CTX_HDR_SET
  if p.sat then 0
  else if cfgE s f.epoch (PIX_HDR_CTRL_WT_EN set) = 0 ∨ faulty h 5 e x then 4096
  else hdrWeight (tableElem s phys (cfgE s f.epoch (PIX_HDR_CTRL_OFFSET set) + 130 * e) 2) p.v

/-- A pixel after stage 6: its value, whether it counts as saturated, and whether it was found moving (R173, R174). -/
structure Merged where
  m : Nat
  sat : Bool
  moving : Bool

def noMerged : Merged := ⟨0, false, false⟩

/-- The LIVE values of a heat: those of its line start (R83, R174). -/
def heatLive (h : HeatLine) : Live := match h.lanes.head? with | some l => l.live | none => ⟨[], 0, 0, 0, 0⟩

/-- Stages 4 to 6 of one pixel. -/
def mergedPixel (s : State) (f : FrameSt) (phys : Nat) (h : HeatLine) (x : Nat) (p0 p1 p2 : Site) : Merged :=
  let n := ctxF s f CTX_EXPOSURES
  let set := ctxF s f CTX_HDR_SET
  let lv := heatLive h
  let u0 := shaded s f h 0 x p0.v
  let u1 := ratioed (shaded s f h 1 x p1.v) lv.r1
  let u2 := ratioed (shaded s f h 2 x p2.v) (ratio12 lv.r1 lv.r2)
  let r := mergePixel n (cfgE s f.epoch (PIX_HDR_CTRL_MOT_MODE set)) (cfgE s f.epoch (PIX_HDR_MOT_MOT_ABS set))
    (cfgE s f.epoch (PIX_HDR_MOT_MOT_REL set)) u0 u1 u2 (weightOf s f phys h 0 x p0) (weightOf s f phys h 1 x p1)
  let flags := p0.sat && (decide (n < 2) || p1.sat) && (decide (n < 3) || p2.sat)
  ⟨gain24 r.1 lv.dgain, flags || r.1 == 0xFFFFFF, r.2⟩

/-- The image after stage 6, one row to a heated line. -/
def mergedImage (s : State) (f : FrameSt) (phys : Nat) (hs : List HeatLine) (lanes : List (List (List Site))) :
    List (List Merged) :=
  let at_ (e x y : Nat) : Site := sample noSite (lanes.getD e []) x y
  image (ctxF s f CTX_WIDTH) hs.length fun x y =>
    mergedPixel s f phys (hs.getD y ⟨0, [], []⟩) x (at_ 0 x y) (at_ 1 x y) (at_ 2 x y)

def laneImages (s : State) (f : FrameSt) (phys : Nat) (hs : List HeatLine) : List (List (List Site)) :=
  (List.range (ctxF s f CTX_EXPOSURES)).map (laneImage s f phys hs)

/-! ## Statistics (R175–R177) -/

/-- A line that any exposure marks FILLED is left out of statistics (R155). -/
def filledLine (h : HeatLine) : Bool := h.lanes.any fun l => hasBit l.flags 0

/-- The pixels that a region of the frame holds, with their class, filled lines left out. -/
def statPixels (s : State) (f : FrameSt) (hs : List HeatLine) (img : List (List Merged)) (x0 y0 w h : Nat) :
    List (Nat × Merged) :=
  let xs := (rangeIncl x0 (x0 + w - 1)).filter fun x => decide (x < ctxF s f CTX_WIDTH)
  let ys := (rangeIncl y0 (y0 + h - 1)).filter fun y => decide (y < hs.length) && !filledLine (hs.getD y ⟨0, [], []⟩)
  ys.flatMap fun (y : Nat) => xs.map fun (x : Nat) => (cfaClass (ctxF s f CTX_CFA) x y, sample noMerged img x y)

/-- The bytes of one cell (R175, R177): a saturated pixel counts in SATCNT only. -/
def cellBytes (ps : List (Nat × Merged)) : List Nat :=
  let good := ps.filter fun p => !p.2.sat
  let cls (k : Nat) : List Nat := (good.filter fun p => p.1 == k).map fun p => p.2.m / 256
  (List.range 4).flatMap (fun k => leBytes 4 (cls k).sum) ++ (List.range 4).flatMap (fun k => leBytes 2 (cls k).length)
    ++ leBytes 2 (ps.filter (·.2.sat)).length ++ leBytes 2 (good.filter (·.2.moving)).length
    ++ leBytes 2 (maxOf (good.map fun p => p.2.m / 256)) ++ [0, 0]

/-- The statistics record of a frame (R177). -/
def statRecord (s : State) (f : FrameSt) (phys : Nat) (hs : List HeatLine) : List Nat :=
  let g := ctxF s f CTX_STAT_GRID
  let c (r : Nat → RF) : Nat := cfgE s f.epoch (r g)
  let nx := c PIX_SGRID_DIM_NX
  let ny := c PIX_SGRID_DIM_NY
  let cw := c PIX_SGRID_CELL_CW
  let ch := c PIX_SGRID_CELL_CH
  let lanes := laneImages s f phys hs
  let img := mergedImage s f phys hs lanes
  let first := heatLive (hs.headD ⟨0, [], []⟩)
  let good (e y : Nat) : Bool := !((hs.getD y ⟨0, [], []⟩).lanes.any fun l => l.exp == e && hasBit l.flags 0)
  let count (kind : Nat) : Nat :=
    (lanes.zipIdx.map fun le => (le.1.zipIdx.map fun ry =>
      if good le.2 ry.2 then (ry.1.filter fun p => p.kind == kind).length else 0).sum).sum
  let grid := statPixels s f hs img (c PIX_SGRID_ORG_X0) (c PIX_SGRID_ORG_Y0) (nx * cw) (ny * ch)
  let hist := (grid.filter fun p => !p.2.sat && hasBit (c PIX_SGRID_DIM_HIST_MASK) p.1).map fun p => histBin p.2.m
  let moved := (hs.zip img).map fun r => if filledLine r.1 then 0 else (r.2.filter (·.moving)).length
  let y0 := c PIX_SGRID_ORG_Y0
  let lines := (hs.filter fun h => decide (y0 ≤ h.k) && decide (h.k < y0 + ny * ch) && !filledLine h).length
  let changed := hs.any fun h => heatLive h != first
  let flags := bit (hasBit f.status 0) + 2 * bit (hasBit f.status 2) + 4 * bit (hasBit f.status 7) + 8 * bit changed
  withCrc
    (leBytes 2 f.ctx ++ [g, flags] ++ leBytes 2 f.epoch ++ [nx, ny] ++ leBytes 4 f.fc ++ leBytes 4 f.capNs
      ++ leBytes 2 first.exp ++ leBytes 2 first.dgain ++ leBytes 2 first.r1 ++ leBytes 2 first.r2
      ++ leBytes 4 (count 1) ++ leBytes 4 (count 2) ++ leBytes 4 moved.sum ++ leBytes 2 lines ++ [0, 0]
      ++ (List.range 4).flatMap (fun k => leBytes 2 (first.wb.getD k 0)) ++ List.replicate 16 0
      ++ (List.range 48).flatMap (fun b => leBytes 4 (min (2 ^ 32 - 1) (hist.filter (· == b)).length))
      ++ (List.range (nx * ny)).flatMap fun n =>
        cellBytes (statPixels s f hs img (c PIX_SGRID_ORG_X0 + n % nx * cw) (y0 + n / nx * ch) cw ch))

end Sys2Proof.Machine
end

