-- ==== Sys2Proof/Machine/Colour.lean ====
section
/-! DEFINITION. The colour part of a pixel slice (R182–R204): white balance, demosaic, colour correction, tone, colour
space, scaler, hem and packing; seam fill (R215). -/

namespace Sys2Proof.Machine
open Sys2Proof

/-! ## Edges (R184) -/

/-- The nearest in-frame column of the same class on the line. -/
def extendX (cfa w : Nat) (x y : Int) : Int :=
  if 0 ≤ x ∧ x < w then x
  else
    let near : List Int := if x < 0 then [0, 1, 2, 3] else [(w : Int) - 1, w - 2, w - 3, w - 4]
    (near.find? fun n => cfaClass cfa n y == cfaClass cfa x y).getD (near.headD 0)

/-- The nearest in-frame line of the same class in the column. -/
def extendY (cfa h : Nat) (x y : Int) : Int :=
  if 0 ≤ y ∧ y < h then y
  else
    let near : List Int := if y < 0 then [0, 1, 2, 3] else [(h : Int) - 1, h - 2, h - 3, h - 4]
    (near.find? fun n => cfaClass cfa x n == cfaClass cfa x y).getD (near.headD 0)

/-! ## Demosaic (R186–R188) -/

def clamp24 (i : Int) : Nat := (clampI 0 0xFFFFFF i).toNat
def clamp16 (i : Int) : Nat := (clampI 0 0xFFFF i).toNat

/-- The decision between the horizontal and the vertical estimate (R186). -/
def chooseEdge (edgeRel edgeAbs : Nat) (gh gv eh ev : Int) : Nat :=
  clamp24 (
    if gh + sar (gh * edgeRel) 8 + edgeAbs < gv then eh
    else if gv + sar (gv * edgeRel) 8 + edgeAbs < gh then ev
    else sar (eh + ev + 1) 1)

/-- The dominant channel at a site whose same-class terms count (R186). -/
def dominantFull (edgeRel edgeAbs : Nat) (c dl dr du dd cl cr cu cd : Int) : Nat :=
  let gh : Int := (dl - dr).natAbs + (2 * c - cl - cr).natAbs
  let gv : Int := (du - dd).natAbs + (2 * c - cu - cd).natAbs
  chooseEdge edgeRel edgeAbs gh gv (sar (2 * (dl + dr) + 2 * c - cl - cr + 2) 2) (sar (2 * (du + dd) + 2 * c - cu - cd + 2) 2)

/-- The dominant channel at an R or B site of an RGB-IR filter (R187). -/
def dominantShort (edgeRel edgeAbs : Nat) (dl dr du dd : Int) : Nat :=
  chooseEdge edgeRel edgeAbs (2 * (dl - dr).natAbs) (2 * (du - dd).natAbs) (sar (dl + dr + 1) 1) (sar (du + dd + 1) 1)

/-- The dominant channel carries the class. -/
def isDominant (cfa k : Nat) : Bool := if isRgbIr cfa then k == 1 else k == 1 || k == 2

/-- A colour field of the frame's colour set. -/
def colF (s : State) (f : FrameSt) (r : Nat → RF) : Nat := cfgE s f.epoch (r (ctxF s f CTX_CCM_SET))

/-- dhat of every site of the heated lines. -/
def dominantAt (s : State) (f : FrameSt) (w : List (List Nat)) (x y : Nat) : Nat :=
  let cfa := ctxF s f CTX_CFA
  let wd := ctxF s f CTX_WIDTH
  let ht := ctxF s f CTX_HEIGHT
  let k := cfaClass cfa x y
  let at_ (dx dy : Int) : Int := ((sample 0 w (extendX cfa wd (x + dx) y) (extendY cfa ht x (y + dy)) : Nat) : Int)
  let er := colF s f PIX_COL_CTRL_EDGE_REL
  let ea := colF s f PIX_COL_EDGE_EDGE_ABS
  if isDominant cfa k then sample 0 w x y
  else if isRgbIr cfa && k != 2 then dominantShort er ea (at_ (-1) 0) (at_ 1 0) (at_ 0 (-1)) (at_ 0 1)
  else dominantFull er ea (at_ 0 0) (at_ (-1) 0) (at_ 1 0) (at_ 0 (-1)) (at_ 0 1) (at_ (-2) 0) (at_ 2 0) (at_ 0 (-2)) (at_ 0 2)

/-- The in-frame sites of a class in the neighbourhood of the given radius. -/
def classSites (cfa w h k r x y : Nat) : List (Nat × Nat) :=
  ((List.range (2 * r + 1)).flatMap fun dy => (List.range (2 * r + 1)).map fun dx => (x + dx, y + dy)).filterMap fun p =>
    if r ≤ p.1 ∧ r ≤ p.2 ∧ p.1 - r < w ∧ p.2 - r < h ∧ cfaClass cfa ((p.1 - r : Nat) : Int) ((p.2 - r : Nat) : Int) = k then some (p.1 - r, p.2 - r)
    else none

/-- Reconstruction by colour difference (R188). -/
def byDifference (dhat : Nat) (diffs : List Int) : Nat :=
  let n : Int := diffs.length
  if diffs.isEmpty then dhat else clamp24 (dhat + (diffs.foldl (· + ·) 0 + n / 2) / n)

/-- Channel of class `k` at a pixel (R188). -/
def channelAt (s : State) (f : FrameSt) (w d : List (List Nat)) (k x y : Nat) : Nat :=
  let cfa := ctxF s f CTX_CFA
  let wd := ctxF s f CTX_WIDTH
  let ht := ctxF s f CTX_HEIGHT
  if cfaClass cfa x y = k then sample 0 w x y
  else
    let near := classSites cfa wd ht k 1 x y
    let set := if near.isEmpty then classSites cfa wd ht k 2 x y else near
    byDifference (sample 0 d x y) (set.map fun p => ((sample 0 w p.1 p.2 : Nat) : Int) - (sample 0 d p.1 p.2 : Nat))

/-! ## Colour correction, tone, colour space (R190–R193) -/

/-- A colour of three components. -/
abbrev Rgb := Nat × Nat × Nat

/-- IR subtraction (R190). -/
def lessIr (n ir irc : Nat) : Nat := n - (ir * irc + 2048) / 4096

/-- One row of the colour matrix (R191). -/
def ccmRow (c0 c1 c2 off : Int) (n : Rgb) : Nat :=
  clamp24 (sar (c0 * n.1 + c1 * n.2.1 + c2 * n.2.2 + 2048) 12 + off * 256)

/-- Stage 10 without the IR subtraction. -/
def colourCorrected (s : State) (f : FrameSt) (n : Rgb) : Rgb :=
  let set := ctxF s f CTX_CCM_SET
  let row (i : Nat) : Nat :=
    let q (r : Nat → Nat → RF) : Int := sgn 16 (cfgE s f.epoch (r set i))
    ccmRow (q PIX_CCM_A_C0) (q PIX_CCM_A_C1) (q PIX_CCM_B_C2) (q PIX_CCM_B_OFF) n
  if colF s f PIX_COL_CTRL_CCM_EN = 0 then n else (row 0, row 1, row 2)

/-- The tone curve on one value (R192). -/
def toneMap (t : Nat → Nat) (v : Nat) : Nat :=
  if v < 256 then lerp8 (t (v / 16)) (t (v / 16 + 1)) (v % 16 * 16)
  else
    let e := Nat.log2 v
    let u := v * 4096 / 2 ^ e
    let i := 16 + 16 * (e - 8) + u / 256 % 16
    lerp8 (t i) (t (i + 1)) (u % 256)

/-- The conversion matrices of R193, rows Y, Cb, Cr. -/
def cscMatrix (csc : Nat) : List (List Int) :=
  if csc = 0 then [[3483, 11718, 1183], [-1877, -6315, 8192], [8192, -7441, -751]]
  else if csc = 1 then [[4899, 9617, 1868], [-2765, -5427, 8192], [8192, -6860, -1332]]
  else [[4304, 11108, 972], [-2288, -5904, 8192], [8192, -7533, -659]]

/-- Colour-space conversion (R193). -/
def toYcc (csc : Nat) (p : Rgb) : Rgb :=
  let m := cscMatrix csc
  let dot (i : Nat) : Int :=
    let r := m.getD i []
    sar (r.getD 0 0 * p.1 + r.getD 1 0 * p.2.1 + r.getD 2 0 * p.2.2 + 8192) 14
  (clamp16 (dot 0), clamp16 (dot 1 + 32768), clamp16 (dot 2 + 32768))

/-- Stages 10 to 12 of one pixel of a heated line (R190–R193, R196, R207). -/
def colourPixel (s : State) (f : FrameSt) (phys : Nat) (h : HeatLine) (x : Nat) (n : Rgb) (ir : Nat) : Rgb :=
  let fmt := ctxF s f CTX_OUT_FMT
  if fmt = 6 then (min 0xFFFF (ir / 256), min 0xFFFF (ir / 256), min 0xFFFF (ir / 256))
  else
    let set := ctxF s f CTX_CCM_SET
    let n := if colF s f PIX_COL_CTRL_IR_EN = 1 ∧ isRgbIr (ctxF s f CTX_CFA) then
        (lessIr n.1 ir (cfgE s f.epoch (PIX_IRC_A_IRC_R set)), lessIr n.2.1 ir (cfgE s f.epoch (PIX_IRC_A_IRC_G set)),
          lessIr n.2.2 ir (cfgE s f.epoch (PIX_IRC_B_IRC_B set)))
      else n
    let o := colourCorrected s f n
    let ts := ctxF s f CTX_TONE_SET
    let tone (v : Nat) : Nat :=
      if cfgE s f.epoch (PIX_TONE_CTRL_TONE_EN ts) = 0 ∨ faulty h 11 0 x then v / 256
      else toneMap (tableElem s phys (cfgE s f.epoch (PIX_TONE_CTRL_OFFSET ts)) 2) v
    let t := (tone o.1, tone o.2.1, tone o.2.2)
    if fmt = 2 ∨ fmt = 3 then t else toYcc (cfgE s f.epoch (PIX_TONE_CTRL_CSC ts)) t

/-- The image after stage 12, one row to a heated line. -/
def colourImage (s : State) (f : FrameSt) (phys : Nat) (hs : List HeatLine) (m : List (List Merged)) : List (List Rgb) :=
  let cfa := ctxF s f CTX_CFA
  let wd := ctxF s f CTX_WIDTH
  let heat (y : Nat) : HeatLine := hs.getD y ⟨0, [], []⟩
  let w := image wd hs.length fun x y => gain24 (sample noMerged m x y).m ((heatLive (heat y)).wb.getD (cfaClass cfa x y) 0)
  let d := if cfa = 0 then w else image wd hs.length (dominantAt s f w)
  image wd hs.length fun x y =>
    if cfa = 0 then let v := sample 0 w x y; colourPixel s f phys (heat y) x (v, v, v) v
    else
      let ir := if isRgbIr cfa then channelAt s f w d 2 x y else 0
      colourPixel s f phys (heat y) x (channelAt s f w d 0 x y, sample 0 d x y, channelAt s f w d 3 x y) ir

/-! ## Scaler (R198–R200) -/

/-- Position of output sample `j`: first whole input and phase (R198). -/
def scalePos (inSize outSize j : Nat) : Int × Nat :=
  let step := inSize * 65536 / outSize
  let pos : Int := j * step + step / 2 - 32768
  (sar pos 16, (sar pos 11 % 32).toNat)

/-- Coefficient of a tap: horizontal taps 0–7 with the centre at 3, vertical taps 0–3 with the centre at 1 (R199). -/
def scaleCoef (s : State) (f : FrameSt) (phys : Nat) (table vertical : Bool) (phase k : Nat) : Int :=
  let set := ctxF s f CTX_SCALE_SET
  let centre := if vertical then 1 else 3
  if table && cfgE s f.epoch (PIX_SCL_CTRL_COEF_EN set) != 0 then
    sgn 16 (tableElem s phys (cfgE s f.epoch (PIX_SCL_CTRL_OFFSET set)) 2 (if vertical then 256 + 4 * phase + k else 8 * phase + k))
  else if k = centre then (32 - phase) * 32 else if k = centre + 1 then phase * 32 else 0

/-- A filtered component. -/
def filtered (taps : List (Int × Nat)) : Nat := clamp16 (sar ((taps.map fun p => p.1 * (p.2 : Int)).foldl (· + ·) 0 + 512) 10)

def filteredRgb (taps : List (Int × Rgb)) : Rgb :=
  (filtered (taps.map fun p => (p.1, p.2.1)), filtered (taps.map fun p => (p.1, p.2.2.1)), filtered (taps.map fun p => (p.1, p.2.2.2)))

/-- The input lines of a scaled line with their coefficients (R198, R199), also those outside the frame; one line when the direction is
bypassed. -/
def verticalTaps (s : State) (f : FrameSt) (phys : Nat) (table : Bool) (j : Nat) : List (Int × Int) :=
  let h := ctxF s f CTX_HEIGHT
  let o := ctxF s f CTX_OUT_H
  if o = h then [(1024, (j : Int))]
  else
    let p := scalePos h o j
    (List.range 4).map fun k => (scaleCoef s f phys table true p.2 k, p.1 - 1 + k)

/-- The in-frame lines that a tap reads; outside the frame they depend on the class of the column, whose pattern repeats after four
(R183, R184). -/
def tapLines (s : State) (f : FrameSt) (y : Int) : List Nat :=
  ([0, 1, 2, 3].map fun x => (extendY (ctxF s f CTX_CFA) (ctxF s f CTX_HEIGHT) x y).toNat).eraseDups

/-- One pixel of a scaled line, vertical before horizontal; a tap outside the frame reads the nearest pixel of its class (R184). -/
def scaledPixel (s : State) (f : FrameSt) (phys : Nat) (table : Bool) (img : List (List Rgb)) (i j : Nat) : Rgb :=
  let cfa := ctxF s f CTX_CFA
  let w := ctxF s f CTX_WIDTH
  let h := ctxF s f CTX_HEIGHT
  let o := ctxF s f CTX_OUT_W
  let px (x y : Int) : Rgb := let y := extendY cfa h x y; sample (0, 0, 0) img (extendX cfa w x y) y
  let col (x : Int) : Rgb :=
    if ctxF s f CTX_OUT_H = h then px x j
    else filteredRgb ((verticalTaps s f phys table j).map fun t => (t.1, px x t.2))
  if o = w then col i
  else
    let p := scalePos w o i
    filteredRgb ((List.range 8).map fun k => (scaleCoef s f phys table false p.2 k, col (p.1 - 3 + k)))

/-! ## Packing (R194–R196) and hem (R203, R204) -/

/-- Full-range quantisation (R195). -/
def quantFull (n x : Nat) : Nat := min (2 ^ n - 1) ((x + 2 ^ (15 - n)) / 2 ^ (16 - n))

/-- Limited-range quantisation of Y (R195). -/
def quantY (n x : Nat) : Nat := 16 * 2 ^ (n - 8) + (x * (219 * 2 ^ (n - 8)) + 32768) / 65536

/-- Limited-range quantisation of Cb and Cr (R195). -/
def quantC (n x : Nat) : Nat :=
  (((128 * 2 ^ (n - 8) : Nat) : Int) + sar (((x : Int) - 32768) * ((224 * 2 ^ (n - 8) : Nat) : Int) + 32768) 16).toNat

/-- A border component at n bits (R204). -/
def borderComp (n c : Nat) : Nat := c * 257 / 2 ^ (16 - n)

/-- Bytes of one pixel of an output format (R194). -/
def bytesPerPixel (fmt : Nat) : Nat :=
  if fmt = 0 then 2 else if fmt = 1 then 4 else if fmt = 2 then 3 else if fmt = 3 then 6 else if fmt = 4 then 1
  else if fmt = 5 then 2 else if fmt = 6 then 2 else 4

/-- One pixel of a line to be packed: a colour, or border. -/
abbrev Cell := Option Rgb

/-- The bytes of a pair of pixels in a 4:2:2 format; the chroma of a pair with a border pixel is the border's. -/
def pairBytes (n : Nat) (limited : Bool) (b : Rgb) (p q : Cell) : List Nat :=
  let size := if n = 8 then 1 else 2
  let luma (c : Cell) : Nat := match c with
    | some c => if limited then quantY n c.1 else quantFull n c.1
    | none => borderComp n b.1
  let chroma (sel : Rgb → Nat) : Nat := match p, q with
    | some p, some q =>
      let m := (sel p + sel q + 1) / 2
      if limited then quantC n m else quantFull n m
    | _, _ => borderComp n (sel b)
  leBytes size (luma p) ++ leBytes size (chroma (·.2.1)) ++ leBytes size (luma q) ++ leBytes size (chroma (·.2.2))

/-- The bytes of a line's pixels two by two. -/
def pairsBytes (n : Nat) (limited : Bool) (b : Rgb) : List Cell → List Nat
  | p :: q :: l => pairBytes n limited b p q ++ pairsBytes n limited b l
  | _ => []

/-- The bytes of one pixel in a format without chroma pairs. -/
def cellBytesOf (fmt : Nat) (limited : Bool) (b : Rgb) (c : Cell) : List Nat :=
  let comp (n size v bc : Nat) : List Nat := leBytes size (match c with | some _ => v | none => borderComp n bc)
  let p := c.getD (0, 0, 0)
  if fmt = 2 then comp 8 1 (quantFull 8 p.1) b.1 ++ comp 8 1 (quantFull 8 p.2.1) b.2.1 ++ comp 8 1 (quantFull 8 p.2.2) b.2.2
  else if fmt = 3 then comp 16 2 p.1 b.1 ++ comp 16 2 p.2.1 b.2.1 ++ comp 16 2 p.2.2 b.2.2
  else if fmt = 4 then comp 8 1 (if limited then quantY 8 p.1 else quantFull 8 p.1) b.1
  else comp 16 2 p.1 b.1

/-- The border colour of the frame's scale set. -/
def borderColour (s : State) (f : FrameSt) : Rgb :=
  let b (r : Nat → RF) : Nat := cfgE s f.epoch (r (ctxF s f CTX_SCALE_SET))
  (b PIX_SCL_BORDER_C0, b PIX_SCL_BORDER_C1, b PIX_SCL_BORDER_C2)

/-- Pack a delivered line of a processed context (formats 0–6). -/
def packCells (s : State) (f : FrameSt) (cells : List Cell) : List Nat :=
  let fmt := ctxF s f CTX_OUT_FMT
  let limited := cfgE s f.epoch (PIX_TONE_CTRL_LIMITED (ctxF s f CTX_TONE_SET)) != 0
  let b := borderColour s f
  if fmt = 0 then pairsBytes 8 limited b cells
  else if fmt = 1 then pairsBytes 10 limited b cells
  else cells.flatMap (cellBytesOf fmt limited b)

/-- A RAW24 word: m in [23:0], class in [25:24] (R194, R204). -/
def raw24 (m k : Nat) : List Nat := leBytes 4 (m % 2 ^ 24 + k * 2 ^ 24)

/-- A delivered pixel lies in the border (R203). -/
def inBorder (b w h i j : Nat) : Bool := decide (0 < b) && (decide (i < b) || decide (w ≤ i + b) || decide (j < b) || decide (h ≤ j + b))

def borderWidth (s : State) (f : FrameSt) : Nat := cfgE s f.epoch (PIX_SCL_BORDER_WIDTH (ctxF s f CTX_SCALE_SET))

/-- A delivered line of a source that is seam fill only (R215): border colour, or zeros of a REMOTE source. -/
def seamFill (s : State) (f : FrameSt) (j : Nat) : List Nat :=
  let w := ctxF s f CTX_CROP_W
  let fmt := ctxF s f CTX_OUT_FMT
  if ctxF s f CTX_REMOTE ≠ 0 ∨ ctxF s f CTX_MODE ≠ 0 then List.replicate (w * bytesPerPixel fmt) 0
  else if fmt = 7 then
    (List.range w).flatMap fun i => raw24 ((borderColour s f).1 * 0x10101)
      (cfaClass (ctxF s f CTX_CFA) ((ctxF s f CTX_CROP_X + i : Nat) : Int) ((ctxF s f CTX_CROP_Y + j : Nat) : Int))
  else packCells s f (List.replicate w none)

/-! ## Delivered lines -/

/-- Lines beyond an input line that its colours depend on: demosaic, then defect neighbours. -/
def reachBelow (s : State) (f : FrameSt) : Nat :=
  let cfa := ctxF s f CTX_CFA
  let demosaic := if cfa = 0 ∨ ctxF s f CTX_OUT_FMT = 7 then 0 else if isRgbIr cfa then 4 else 3
  demosaic + 2

/-- The last input line that delivered line `j` depends on. -/
def lastInput (s : State) (f : FrameSt) (j : Nat) : Nat :=
  let jj := ctxF s f CTX_CROP_Y + j
  let last := if ctxF s f CTX_OUT_FMT = 7 then jj else maxOf ((verticalTaps s f 0 false jj).flatMap fun t => tapLines s f t.2)
  min (last + reachBelow s f) (ctxF s f CTX_HEIGHT - 1)

/-- Status bits of an input line: those of its exposures. -/
def heatFlags (h : HeatLine) : Nat := h.lanes.foldl (fun a l => a ||| l.flags) 0

/-- A line of the scaler that is the fill value (R207): FILL as a grey of 16-bit components (log entry 123). -/
def fillRow (s : State) (f : FrameSt) : List Rgb :=
  let n := laneBits s f 0
  let v := ctxF s f CTX_FILL % 2 ^ n * 2 ^ 16 / 2 ^ n
  let fmt := ctxF s f CTX_OUT_FMT
  let p : Rgb := if fmt = 2 ∨ fmt = 3 ∨ fmt = 6 then (v, v, v) else toYcc (cfgE s f.epoch (PIX_TONE_CTRL_CSC (ctxF s f CTX_TONE_SET))) (v, v, v)
  List.replicate (ctxF s f CTX_CROP_W) p

/-- An output line of the scaler with its hem, packed (R194–R196, R203, R204). -/
def hemmedLine (s : State) (f : FrameSt) (j : Nat) (row : List Rgb) : List Nat :=
  let w := ctxF s f CTX_CROP_W
  let h := ctxF s f CTX_CROP_H
  packCells s f ((row.zipIdx).map fun p => if inBorder (borderWidth s f) w h p.2 j then none else some p.1)

/-- The delivered line `j` from the heats so far, and the scaler's output line in it; `cur` is the heat that makes it (R194–R204), and
`back` the scaler line that stands in for an uncorrectable one (R207). -/
def deliveredLine (s : State) (f : FrameSt) (phys : Nat) (hs : List HeatLine) (cur : HeatLine) (j : Nat) (back : Option (List Rgb)) :
    OutLine × List Rgb :=
  let w := ctxF s f CTX_CROP_W
  let h := ctxF s f CTX_CROP_H
  let x0 := ctxF s f CTX_CROP_X
  let jj := ctxF s f CTX_CROP_Y + j
  let m := mergedImage s f phys hs (laneImages s f phys hs)
  let flagsOf (y : Nat) : Nat := heatFlags (hs.getD y ⟨0, [], []⟩)
  if ctxF s f CTX_OUT_FMT = 7 then
    let bytes := (List.range w).flatMap fun i =>
      let k := cfaClass (ctxF s f CTX_CFA) ((x0 + i : Nat) : Int) (jj : Int)
      if inBorder (borderWidth s f) w h i j then raw24 ((borderColour s f).1 * 0x10101) k
      else raw24 (sample noMerged m ((x0 + i : Nat) : Int) (jj : Int)).m k
    (⟨j, bytes, flagsOf jj⟩, [])
  else
    let taps := verticalTaps s f phys (!faulty cur 13 0 0) jj
    let flags := ((taps.filter fun t => t.1 != 0).flatMap fun t => tapLines s f t.2).foldl (fun a y => a ||| flagsOf y) 0
    match back with
    | some row => (⟨j, hemmedLine s f j row, flags ||| 1⟩, row)
    | none =>
      let img := colourImage s f phys hs m
      let row := (List.range w).map fun i => scaledPixel s f phys (!faulty cur 13 0 (x0 + i)) img (x0 + i) jj
      (⟨j, hemmedLine s f j row, flags⟩, row)

end Sys2Proof.Machine
end

