-- ==== Sys2Proof/Machine/Sched.lean ====
section
/-! DEFINITION. The heat scheduler (R129–R141): rates, admission, line windows, sync groups, heats, and what a heat
delivers. -/

namespace Sys2Proof.Machine
open Sys2Proof

/-! ## Rates and loads (R129, R130) -/

/-- Slice cycles of a heat (R129). -/
def heatCycles (width outW : Nat) : Nat := ceilDiv (max width outW) 2 + 8

/-- A rate in units of 0.01 % of a slice (R129). -/
def sliceRate (width outW lineNs : Nat) : Nat := ceilDiv (heatCycles width outW * 10000) lineNs

def rateIn (c : Chip) (b : Sparse Word) (n : Nat) : Nat :=
  sliceRate (bankFld c b (CTX_WIDTH n)) (bankFld c b (CTX_OUT_W n)) (bankFld c b (CTX_LINE_NS n))

/-- Contexts with ENABLE = 1 in a bank, in ascending order. -/
def enabledCtxs (b : Sparse Word) : List Nat :=
  b.filterMap fun p =>
    if 0x300000 ≤ p.1 ∧ p.1 < 0x500000 ∧ (p.1 - 0x300000) % 0x80 = 0 ∧ fld p.2 0 0 = 1 then some ((p.1 - 0x300000) / 0x80)
    else none

/-- A context whose frames pass through a slice (R134). -/
def processedIn (c : Chip) (b : Sparse Word) (n : Nat) : Bool := bankFld c b (CTX_MODE n) == 0 && bankFld c b (CTX_REMOTE n) == 0

/-- The enabled processed tier-0 contexts of a logical slice in a bank. -/
def reservedIn (c : Chip) (b : Sparse Word) (l : Nat) : List Nat :=
  (enabledCtxs b).filter fun n => processedIn c b n && bankFld c b (CTX_TIER n) == 0 && bankFld c b (CTX_SLICE n) == l

/-- The contexts that RESV covers: those of both epochs while a swap is in progress (R130). -/
def reservedCtxs (s : State) (l : Nat) : List Nat :=
  let new := reservedIn s.chip s.cfgA l
  if isSet s LDR_STAT_SWAP_BUSY then addNew new (reservedIn s.chip s.cfgO l) else new

/-- RESV of a logical slice (R130): a context of both epochs counts once, at the higher rate. -/
def resv (s : State) (l : Nat) : Nat :=
  let inNew := reservedIn s.chip s.cfgA l
  let inOld := if isSet s LDR_STAT_SWAP_BUSY then reservedIn s.chip s.cfgO l else []
  ((reservedCtxs s l).map fun c =>
    max (if inNew.contains c then rateIn s.chip s.cfgA c else 0) (if inOld.contains c then rateIn s.chip s.cfgO c else 0)).sum

/-- A member of a decided sync group whose frame has not come to the scheduler yet, but may still. -/
def awaited (s : State) (key c : Nat) : Bool :=
  (s.cams.any fun x => match x.2.trig with | some t => t.key == key && t.ctxs.contains c | none => false)
    || s.frames.any fun f => f.ctx == c && f.trig == some key && f.adm == .waiting

/-- Committed load C of a logical slice (R130). -/
def committed (s : State) (l : Nat) : Nat :=
  resv s l + ((s.frames.filter fun f => f.adm == .admitted && f.slice == l).map (·.load)).sum
    + ((s.syncs.filter (·.ok)).flatMap fun y => y.members.map fun m =>
        if m.2.1 = l ∧ awaited s y.key m.1 then m.2.2 else 0).sum

/-- The highest LOAD of a logical slice (R150). -/
def notePeak (s : State) (l : Nat) : State := wr (HTS_L_PEAK_PEAK l) (max (rd s (HTS_L_PEAK_PEAK l)) (min (committed s l) 0xFFFF)) s

/-- LOAD may have risen on any slice. -/
def notePeaks (s : State) : State := (List.range (activeSlices s.variant)).foldl notePeak s

/-! ## Errors (R151, R152) -/

def htsErr (code l c : Nat) : ErrInfo := { unit := uHTS, inst := 0, code, info := l * 2 ^ 24 + c * 256, arg1 := c }

/-- Set the bit of a context's group in a pair of pending registers (R152). -/
def setGroupBit (lo hi : RF) (c : Nat) (s : State) : State :=
  let g := c / 256
  let r := if g < 32 then lo else hi
  wr r (withBit (rd s r) (g % 32)) s

def faultPend (c : Nat) (s : State) : State := setGroupBit HTS_FAULT_PEND_LO_PEND HTS_FAULT_PEND_HI_PEND c s

/-! ## Admission (R131–R134, R138) -/

/-- Whether R131 admits a rate on a slice with the given load. -/
def admits (tier load rate : Nat) : Bool := tier == 0 || decide (load + rate ≤ 9200)

/-- What a frame of a context adds to C: nothing where RESV has it already. -/
def addedLoad (s : State) (ep c : Nat) : Nat :=
  let b := bankOf s ep
  if !processedIn s.chip b c then 0
  else if bankFld s.chip b (CTX_TIER c) = 0 ∧ (reservedCtxs s (bankFld s.chip b (CTX_SLICE c))).contains c then 0
  else rateIn s.chip b c

/-- Admit a frame (R131); a tier-0 frame may take C over the cap. -/
def admitFrame (f : FrameSt) (s : State) : State :=
  let b := bankOf s f.epoch
  let l := bankFld s.chip b (CTX_SLICE f.ctx)
  let n := sget (fun _ => 0) s.statCount f.ctx
  let load := addedLoad s f.epoch f.ctx
  let s := putFrame { f with adm := .admitted, slice := l, load, statNo := n } s
  let s := { s with statCount := sset (fun _ => 0) s.statCount f.ctx (n + 1) } |> wr (CTX_FSTATE f.ctx) 1
  if processedIn s.chip b f.ctx then
    let c := committed s l
    let s := notePeak s l
    if bankFld s.chip b (CTX_TIER f.ctx) = 0 ∧ 0 < load ∧ 9200 < c then
      s |> inc (HTS_L_OVER_OVER l) |> recordError (htsErr 4 l f.ctx) |> faultPend f.ctx
    else s
  else s

/-- Refuse a frame whole (R133). -/
def refuseFrame (f : FrameSt) (s : State) : State :=
  let b := bankOf s f.epoch
  let l := bankFld s.chip b (CTX_SLICE f.ctx)
  let tier := bankFld s.chip b (CTX_TIER f.ctx)
  let s := s |> putFrame { f with adm := .refused, arriving := [] } |> wr (CTX_FSTATE f.ctx) 2
    |> incWrap (CTX_FRAMES_REFUSED f.ctx) |> inc (CTX_REFUSE_RUN f.ctx) |> wr (CTX_PEND_DROPPED f.ctx) 1
  let s := if tier = 2 then inc (HTS_L_REFUSED_T2 l) s else if tier = 1 then inc (HTS_L_REFUSED_T1 l) s else s
  let s := if tier = 0 then s else setGroupBit HTS_REFUSE_PEND_LO_PEND HTS_REFUSE_PEND_HI_PEND f.ctx s
  let s := if tier = 1 then recordError (htsErr 1 l f.ctx) s else s
  sweepFrames s

/-- The sync group of a triggered frame (R138). -/
def syncOf (s : State) (f : FrameSt) : Option (Nat × Nat) :=
  match f.trig with
  | none => none
  | some key => let g := ctxF s f CTX_SYNC_GRP; if g = 0 then none else some (g, key)

/-- Members of a sync group in an epoch's bank, ascending. -/
def membersOf (s : State) (ep g : Nat) : List Nat :=
  (enabledCtxs (bankOf s ep)).filter fun c => cfgE s ep (CTX_SYNC_GRP c) == g

/-- Check the members one after another under R131, each seeing the load that the preceding ones leave; `extra` holds
slice and load of those. -/
def groupAdmits (s : State) (ep : Nat) : List Nat → List (Nat × Nat) → Bool
  | [], _ => true
  | c :: cs, extra =>
    if !processedIn s.chip (bankOf s ep) c then groupAdmits s ep cs extra
    else
      let l := cfgE s ep (CTX_SLICE c)
      let here := ((extra.filter fun p => p.1 == l).map (·.2)).sum
      admits (cfgE s ep (CTX_TIER c)) (committed s l + here) (rateIn s.chip (bankOf s ep) c)
        && groupAdmits s ep cs ((l, addedLoad s ep c) :: extra)

/-- Decisions that still concern a member. -/
def sweepSyncs (s : State) : State :=
  { s with syncs := s.syncs.filter fun y => y.members.any fun m => awaited s y.key m.1 }

/-- Decide a sync group at the first line of its first member (R138); its frames are taken in ascending context number (R132). -/
def decideGroup (f : FrameSt) (g key : Nat) (s : State) : State :=
  let ms := membersOf s f.epoch g
  let ok := groupAdmits s f.epoch ms []
  let here := s.frames.filter fun x => x.trig == some key && x.adm == .waiting && x.epoch == f.epoch && ms.contains x.ctx
  let absent := ms.filter fun c => !(here.any fun x => x.ctx == c) && awaited s key c
  let y : SyncSt := ⟨g, key, f.epoch, ok, absent.map fun c => (c, cfgE s f.epoch (CTX_SLICE c), addedLoad s f.epoch c)⟩
  let inOrder := ms.flatMap fun c => here.filter fun x => x.ctx == c
  let s := inOrder.foldl (fun s x => if ok then admitFrame x s else refuseFrame x s) s
  notePeaks (sweepSyncs { s with syncs := s.syncs ++ [y] })

/-- FRAME_ADMISSION (R131, R133, R134, R138): the first frame of the context whose first line has reached the scheduler. -/
def doFrameAdmission (c : Nat) (s : State) : State :=
  match s.frames.find? fun f => f.ctx == c && f.adm == .waiting && !f.arriving.isEmpty with
  | none => s
  | some f =>
    match syncOf s f with
    | some (g, key) =>
      match s.syncs.find? fun y => y.grp == g && y.key == key with
      | some y => checkSwap (sweepSyncs (if y.ok then admitFrame f s else refuseFrame f s))
      | none => checkSwap (decideGroup f g key s)
    | none =>
      let b := bankOf s f.epoch
      let l := bankFld s.chip b (CTX_SLICE c)
      if !processedIn s.chip b c ∨ admits (bankFld s.chip b (CTX_TIER c)) (committed s l) (rateIn s.chip b c) then admitFrame f s
      else checkSwap (refuseFrame f s)

def execFrameAdmission (c : Nat) (s : State) : Host.Outcome State Fault Refusal := .next (doFrameAdmission c s)

/-! ## Readiness (R135, R136, R139) -/

/-- Lines that the window (and a sync member's skew buffer) holds for one exposure (R137, R139). -/
def windowSize (s : State) (f : FrameSt) : Nat :=
  ctxF s f CTX_WIN_LINES + (if (syncOf s f).isSome then ctxF s f CTX_SKEW_LINES else 0)

/-- Lines of an exposure that the context's window holds, an earlier frame's among them (R137). -/
def inWin (s : State) (f : FrameSt) (exp : Nat) : Nat :=
  ((s.frames.filter fun g => g.ctx == f.ctx).map fun g => (g.win.filter fun l => l.exp == exp).length).sum

/-- Line `k` of every exposure is in the window (R136). -/
def lineWhole (s : State) (f : FrameSt) (k : Nat) : Bool :=
  (f.win.any fun l => l.k == k) && (List.range (ctxF s f CTX_EXPOSURES)).all fun e =>
    match laneEntry s f e with
    | none => true
    | some n => decide (mapLines s f.epoch f.port n ≤ k) || f.win.any fun l => l.k == k && l.exp == e

/-- A member's frame does not hold line `k` of the others back (R139): it is not open, or has line `k` complete. The lines of a
pass-through member complete as they come, with no window. -/
def memberHas (s : State) (g : FrameSt) (k : Nat) : Bool :=
  !g.isOpen || g.adm == .refused || decide (k < g.begun) || lineWhole s g k
    || (!processedIn s.chip (bankOf s g.epoch) g.ctx && decide (k < g.linesIn))

/-- The sync group lets line `k` of a member go (R139). -/
def groupLets (s : State) (f : FrameSt) (k : Nat) : Bool :=
  match syncOf s f with
  | none => true
  | some (g, key) =>
    let ms := membersOf s f.epoch g
    decide (k < f.broken)
      || (ms.all fun c => !(s.cams.any fun x => match x.2.trig with | some t => t.key == key && t.ctxs.contains c | none => false))
        && s.frames.all fun x => x.id == f.id || x.trig != some key || !ms.contains x.ctx || memberHas s x k

/-- A line of a frame is ready. -/
def lineReady (s : State) (f : FrameSt) (k : Nat) : Bool := lineWhole s f k && groupLets s f k

/-- Note the time at which lines become ready. -/
def markFrame (s : State) (f : FrameSt) : FrameSt :=
  if f.adm != .admitted then f
  else
    let ks := addNew [] (f.win.map (·.k))
    { f with ready := ks.foldl (fun r k =>
        if (r.any fun p => p.1 == k) || !lineReady s f k then r else r ++ [(k, upNs s)]) f.ready }

def markReady (s : State) : State := { s with frames := s.frames.map (markFrame s) }

/-- Arrival of a line: the time at which its last exposure completed (R135, R136). -/
def arrivalOf (f : FrameSt) (k : Nat) : Nat := maxOf ((f.win.filter fun l => l.k == k).map (·.at_))

/-- Deadline of a line (R135). -/
def deadline (winLines lineNs arrival : Nat) : Nat := arrival + winLines * lineNs

/-- The heats that a logical slice may start, as (deadline, tier, context, frame). -/
def candidates (s : State) (l : Nat) : List (Nat × Nat × Nat × Nat) :=
  s.frames.filterMap fun f =>
    let k := f.begun
    let earlier := s.frames.any fun g => g.ctx == f.ctx && decide (g.id < f.id) && g.adm == .admitted
      && decide (g.begun < ctxF s g CTX_HEIGHT)
    if f.adm == .admitted && f.slice == l && processedIn s.chip (bankOf s f.epoch) f.ctx && (f.ready.any fun p => p.1 == k) && !earlier then
      some (deadline (ctxF s f CTX_WIN_LINES) (ctxF s f CTX_LINE_NS) (arrivalOf f k), ctxF s f CTX_TIER, f.ctx, f.id)
    else none

/-- The order of R135: earliest deadline, then lower tier, then lower context number. -/
def before (a b : Nat × Nat × Nat × Nat) : Bool :=
  decide (a.1 < b.1) || a.1 == b.1 && (decide (a.2.1 < b.2.1) || a.2.1 == b.2.1 && decide (a.2.2.1 < b.2.2.1))

def firstOf : List (Nat × Nat × Nat × Nat) → Option (Nat × Nat × Nat × Nat)
  | [] => none
  | a :: l => match firstOf l with
    | none => some a
    | some b => some (if before b a then b else a)

/-- Begin the heat of a frame's next line. -/
def beginHeat (l : Nat) (f : FrameSt) (s : State) : State :=
  let k := f.begun
  let lanes := f.win.filter fun x => x.k == k
  let since := ((f.ready.find? fun p => p.1 == k).map (·.2)).getD (upNs s)
  let wait := (upNs s - since) * 256 / ctxF s f CTX_LINE_NS
  let n := physOf s f.epoch l
  let f' := { f with win := f.win.filter (fun x => x.k != k), ready := f.ready.filter (fun p => p.1 != k), begun := k + 1 }
  let s := putFrame f' { s with running := s.running ++ [⟨l, f.id, ⟨k, lanes, []⟩⟩] }
  s |> wr (HTS_L_PEAK_MAXWAIT l) (max (rd s (HTS_L_PEAK_MAXWAIT l)) (min wait 0xFFFF))
    |> wr (PIX_STATUS_BUSY n) 1 |> wr (PIX_STATUS_CTX n) f.ctx

/-- An idle logical slice starts the ready line with the earliest deadline (R135). -/
def startHeat (s : State) (l : Nat) : State :=
  if s.running.any fun r => r.slice == l then s
  else
    match firstOf (candidates s l) with
    | none => s
    | some x => match frameById s x.2.2.2 with
      | none => s
      | some f => beginHeat l f s

/-- Lines that have become ready are noted, and every idle slice starts one. -/
def kickSlices (s : State) : State := (List.range 5).foldl startHeat (markReady s)

/-! ## Lines (R134, R137, R139) -/

/-- A line of a context that uses no heats goes to the seam in arrival order (R134). -/
def passLine (f : FrameSt) (l : Line) (s : State) : State :=
  let bytes := if ctxF s f CTX_REMOTE ≠ 0 then l.px
    else let dt := mapDt s f.epoch f.port l.e; pack dt l.px.length l.px
  putFrame { f with outq := f.outq ++ [⟨f.made, bytes, l.flags⟩], made := f.made + 1 } s

/-- A line that comes into a full window (R137). -/
def overflowed (s : State) (f : FrameSt) (l : Line) : Line :=
  let dt := mapDt s f.epoch f.port l.e
  { l with px := List.replicate l.px.length (fillPixel s f.epoch f.ctx dt), flags := l.flags ||| 1 }

def countOverflow (f : FrameSt) (s : State) : State :=
  s |> inc (CTX_WIN_OVF f.ctx) |> inc (HTS_L_FAULT_WIN_OVF f.slice) |> recordError (htsErr 2 f.slice f.ctx) |> faultPend f.ctx

/-- A skew break (R139): the next line goes without the other members' line. -/
def breakSkew (f : FrameSt) (s : State) : State :=
  s |> putFrame { f with broken := f.begun + 1 } |> inc (CTX_SKEW_BREAK f.ctx) |> inc (HTS_L_FAULT_SKEW_BREAK f.slice)
    |> recordError (htsErr 3 f.slice f.ctx) |> faultPend f.ctx

/-- The skew breaks when the window and skew buffer are full and the next line waits for other members. -/
def checkSkew (id : Nat) (s : State) : State :=
  match frameById s id with
  | none => s
  | some f =>
    let full := (List.range 3).any fun e => decide (windowSize s f ≤ inWin s f e)
    if (syncOf s f).isSome && full && lineWhole s f f.begun && !groupLets s f f.begun then breakSkew f s else s

/-- A line of a processed context completes in the window. A supplied fill line waits for room (R106); a received one that finds none
overflows the window (R137). -/
def windowLine (f : FrameSt) (l : Line) (rest : List Line) (s : State) : State :=
  if laneEntry s f l.exp ≠ some l.e then putFrame { f with arriving := rest } s
  else
    let full := decide (windowSize s f ≤ inWin s f l.exp)
    if full ∧ l.supplied then s
    else
      let l' := { (if full then overflowed s f l else l) with at_ := upNs s }
      let f' := { f with arriving := rest, win := f.win ++ [l'], status := if full then f.status ||| 128 else f.status }
      let s := putFrame f' s
      let s := if full then countOverflow f' s else s
      checkSkew f.id s

/-- LINE_COMPLETE (R134–R139): the next line of the context's first admitted frame that has one. -/
def doLineComplete (c : Nat) (s : State) : State :=
  match s.frames.find? fun f => f.ctx == c && f.adm == .admitted && !f.arriving.isEmpty with
  | none => s
  | some f =>
    match f.arriving with
    | [] => s
    | l :: rest =>
      if processedIn s.chip (bankOf s f.epoch) c then kickSlices (windowLine f l rest s)
      else kickSlices (passLine { f with arriving := rest } l s)

def execLineComplete (c : Nat) (s : State) : Host.Outcome State Fault Refusal := .next (doLineComplete c s)

/-! ## The end of a heat -/

def pixErr (n code lane c : Nat) : ErrInfo := { unit := uPIX, inst := n, code, info := lane * 2 ^ 22 + c * 256, arg1 := c }

/-- An uncorrectable read of a table row wears the slice and the row (R417). -/
def tableWear (n : Nat) (b : TableFault) (s : State) : State :=
  let a := Config.tableRow n b.stage b.lane
  s |> noteRow 1 a 1 |> noteWear 0 n a 2 1

/-- Count and report an uncorrectable table read (R179, R207). -/
def reportFault (n c : Nat) (s : State) (b : TableFault) : State :=
  tableWear n b <|
  if b.stage ≤ 5 then s |> inc (PIX_RAW_CNT_TABLE_ECC n) |> recordError ((pixErr n 1 b.lane c).setting (PIX_EVT_TABLE_ECC n))
  else if b.stage = 14 then s
  else s |> inc (PIX_COL_CNT_TABLE_ECC n) |> recordError ((pixErr n 0x40 0 c).setting (PIX_EVT_CTABLE_ECC n))

/-- Static entries beyond 64 on a line (R166), for one exposure. -/
def reportExcess (n c excess : Nat) (s : State) (e : Nat) : State :=
  if excess = 0 then s
  else s |> addSat (PIX_RAW_CNT_DPC_LINE_OVF n) excess |> recordError ((pixErr n 2 e c).setting (PIX_EVT_DPC_LINE_OVF n))

/-- Count and report an output line of the scaler whose line buffer was uncorrectable (R207). -/
def reportLineBuf (n : Nat) (f : FrameSt) (s : State) : State :=
  s |> inc (PIX_COL_CNT_LINEBUF_ECC n) |> recordError ((pixErr n 0x41 0 f.ctx).setting (PIX_EVT_LINEBUF_ECC n))

/-- The scaler's previous output line, or the fill value for the first line (R207). -/
def standIn (s : State) (f : FrameSt) : List Rgb := if f.made = 0 then fillRow s f else f.last

/-- Make the delivered lines whose inputs have all been heated; the fuel is the number of lines at most. -/
def makeLines (n : Nat) (cur : HeatLine) : Nat → FrameSt → State → FrameSt × State
  | 0, f, s => (f, s)
  | fuel + 1, f, s =>
    if f.made < ctxF s f CTX_CROP_H ∧ lastInput s f f.made < f.heats.length then
      let bad := (cur.bad.any fun b => b.stage == 14) && ctxF s f CTX_OUT_FMT != 7
      let o := deliveredLine s f n f.heats cur f.made (if bad then some (standIn s f) else none)
      makeLines n cur fuel { f with
        outq := f.outq ++ [o.1], made := f.made + 1, last := o.2
        status := if bad then f.status ||| 128 else f.status } (if bad then reportLineBuf n f s else s)
    else (f, s)

/-- The last line of a frame has left the slice: its load is released and its statistics are written (R130, R176). -/
def releaseFrame (n : Nat) (f : FrameSt) (s : State) : State :=
  let q := ctxF s f CTX_STAT_Q
  let due := q ≠ 0 ∧ f.statNo % 2 ^ ctxF s f CTX_STAT_DIV = 0
  let s' := putFrame { f with load := 0, heats := [] } s
  if due then
    let bs := statRecord s f n f.heats
    qPut q uPIX (bytesToWords bs.length bs) s'
  else s'

/-- A finished heat: what it reports and delivers. -/
def finishHeat (r : Running) (bad : List TableFault) (f : FrameSt) (s : State) : State :=
  let n := physOf s f.epoch r.slice
  let h := { r.line with bad }
  let conceal := bad.any fun b => b.stage != 14
  let excess := (staticEntries s f h.k).length - 64
  let f := { f with heats := f.heats ++ [h], status := if conceal then f.status ||| 128 else f.status }
  let s := bad.foldl (reportFault n f.ctx) s
  let s := (List.range (ctxF s f CTX_EXPOSURES)).foldl (reportExcess n f.ctx excess) s
  let m := makeLines n h (ctxF s f CTX_CROP_H) f s
  let s := putFrame m.1 m.2
  let s := if h.k + 1 = ctxF s f CTX_HEIGHT then releaseFrame n m.1 s else s
  wr (PIX_STATUS_BUSY n) 0 s

/-- HEAT_DONE (R135, R179): the slice finishes its heat and starts the ready line with the earliest deadline. -/
def doHeatDone (l : Nat) (bad : List TableFault) (s : State) : State :=
  match s.running.find? fun r => r.slice == l with
  | none => s
  | some r =>
    let s := { s with running := s.running.filter fun x => x.slice != l }
    match frameById s r.frame with
    | none => kickSlices s
    | some f => kickSlices (finishHeat r bad f s)

def execHeatDone (l : Nat) (bad : List TableFault) (s : State) : Host.Outcome State Fault Refusal := .next (doHeatDone l bad s)

end Sys2Proof.Machine
end

