-- ==== Sys2Proof/Machine/Checks.lean ====
section
/-! DEFINITION. The cross-field stages of R68 on the set in the basting bank: ports (R99, R321, R362, R387, R403),
contexts (R126, R160, R178, R189, R197, R202, R211, R284), slices, seam, DMA defaults, and the budgets (R70, R71,
R142–R146); then the derived fields LS_BASE and HOLD_BASE. -/

namespace Sys2Proof.Machine
open Sys2Proof

/-- Fold a state over a list. -/
def each {α : Type} (xs : List α) (f : α → State → State) (s : State) : State := xs.foldl (fun s x => f x s) s

/-! ## The set -/

def setCtxs (s : State) : List Nat := (enabledCtxs s.cfgB).filter fun c => decide (c < ctxCount s.variant)

/-- Every context of which the set lists a word, enabled or not, ascending; the others stand at their reset values. -/
def namedCtxs (s : State) : List Nat :=
  (s.cfgB.filterMap fun w => if 0x300000 ≤ w.1 ∧ w.1 < 0x500000 then some ((w.1 - 0x300000) / 0x80) else none).eraseDups

def setProcessed (s : State) (c : Nat) : Bool := processedIn s.chip s.cfgB c
def setRemote (s : State) (c : Nat) : Bool := setF s (CTX_REMOTE c) != 0

/-- Valid map entries of present ports as (port, entry), ascending. -/
def setMaps (s : State) : List (Nat × Nat) :=
  s.cfgB.filterMap fun w =>
    let p := (w.1 - 0x100000) / 0x10000
    let o := (w.1 - 0x100000) % 0x10000
    if 0x100000 ≤ w.1 ∧ w.1 < 0x240000 ∧ 0x400 ≤ o ∧ o < 0x800 ∧ o % 16 = 0 ∧ fld w.2 0 0 = 1 ∧ cpPresent s.variant p then
      some (p, (o - 0x400) / 16)
    else none

/-- The entries of a context, and its entry with EXP_IDX 0 on the lowest-numbered port. -/
def mapsOfCtx (s : State) (c : Nat) : List (Nat × Nat) := (setMaps s).filter fun m => setF s (CPT_MAP_W0_CTX m.1 m.2) == c
def mainMap (s : State) (c : Nat) : Option (Nat × Nat) :=
  (mapsOfCtx s c).find? fun m => setF s (CPT_MAP_W0_EXP_IDX m.1 m.2) == 0

def setDt (s : State) (c : Nat) : Nat := match mainMap s c with | some m => setF s (CPT_MAP_W0_DT m.1 m.2) | none => 0

/-- Valid routes of the set, ascending. -/
def setRoutes (s : State) : List Nat :=
  s.cfgB.filterMap fun w =>
    if 0x702000 ≤ w.1 ∧ w.1 < 0x704000 ∧ w.1 % 0x20 = 0 ∧ fld w.2 0 0 = 1 then some ((w.1 - 0x702000) / 0x20) else none

/-- The four source entries of a route, and those that its SOURCES counts. -/
def routeAll (s : State) (o : Nat) : List Nat :=
  [setF s (SEAM_ROUTE_W1_SRC0 o), setF s (SEAM_ROUTE_W1_SRC1 o), setF s (SEAM_ROUTE_W2_SRC2 o), setF s (SEAM_ROUTE_W2_SRC3 o)]
def routeUsed (s : State) (o : Nat) : List Nat := (routeAll s o).take (setF s (SEAM_ROUTE_W0_SOURCES o))

/-- Bring every field of a word that stands in the set into its range. -/
def recheck (stage profile a : Nat) (s : State) : State :=
  let old := bankWord s.chip s.cfgB a
  let r := checkWord s s.cfgB a old.toNat (2 ^ 32 - 1) (cfgDesc a) old
  r.2.foldl (fun s c => clampF stage profile 1 ⟨a, c.lo + c.width - 1, c.lo⟩ c.applied s) s

/-! ## Stage 1: ports -/

/-- What R99 has met so far: the (port, VC, DT) of valid entries, and the (context, EXP_IDX, DT) kept. -/
structure MapSeen where
  pairs : List (Nat × Nat × Nat)
  roles : List (Nat × Nat × Nat)

/-- Entries that do not repeat the (VC, DT) of a lower-numbered valid entry of their port. -/
def firstPairs (s : State) : List (Nat × Nat) → List (Nat × Nat × Nat) → List (Nat × Nat)
  | [], _ => []
  | m :: ms, seen =>
    let k := (m.1, setF s (CPT_MAP_W0_VC m.1 m.2), setF s (CPT_MAP_W0_DT m.1 m.2))
    if seen.contains k then firstPairs s ms seen else m :: firstPairs s ms (k :: seen)

/-- Of those, the entries that R99 keeps: on the context's own port, and of a role no kept entry has. -/
def keptMaps (s : State) (all : List (Nat × Nat)) : List (Nat × Nat) → List (Nat × Nat × Nat) → List (Nat × Nat)
  | [], _ => []
  | m :: ms, roles =>
    let c := setF s (CPT_MAP_W0_CTX m.1 m.2)
    let k := (c, setF s (CPT_MAP_W0_EXP_IDX m.1 m.2), setF s (CPT_MAP_W0_DT m.1 m.2))
    let home := all.find? fun n => setF s (CPT_MAP_W0_CTX n.1 n.2) == c && setF s (CPT_MAP_W0_EXP_IDX n.1 n.2) == 0
    let away : Bool := match home with | some h => h.1 != m.1 | none => false
    if away ∨ roles.contains k then keptMaps s all ms roles else m :: keptMaps s all ms (k :: roles)

/-- Drop the map entries that R99 does not keep. -/
def dropMaps (profile : Nat) (s : State) : State :=
  let all := setMaps s
  let first := firstPairs s all []
  let kept := keptMaps s first first []
  each (all.filter fun m => !kept.contains m) (fun m s =>
    let a := (CPT_MAP_W0_VALID m.1 m.2).addr
    let e := itemEntry s 2 1 profile a 5 (bankWord s.chip s.cfgB a).toNat 0
    s |> putF (CPT_MAP_W0_VALID m.1 m.2) 0 |> tell e) s

/-- The lowest-numbered generator that serves a port. -/
def setGen (s : State) (p : Nat) : Option Nat := (List.range 32).find? fun g => hasBit (setF s (TSU_TRG_CFG_PORTS g)) p

/-- Each port stays in the lowest-numbered generator that holds it (R321). -/
def trimGenerators (profile : Nat) (s : State) : State :=
  each (List.range 32) (fun g s =>
    let mine := setF s (TSU_TRG_CFG_PORTS g)
    let kept := bitsOf ((List.range 20).filter fun p => hasBit mine p && setGen s p == some g)
    clampF 1 profile 5 (TSU_TRG_CFG_PORTS g) kept s) s

/-- Addresses that a two-wire target answers (R362). -/
def answersTo (s : State) (t a : Nat) : Bool :=
  let keep := 127 - setF s (TWB_T_ADDR_MASK t)
  Nat.land a keep == Nat.land (setF s (TWB_T_ADDR_ADDR t)) keep
    || (setF s (TWB_T_ADDR_ADDR2_EN t) != 0 && a == setF s (TWB_T_ADDR_ADDR2 t))

def targetReset (s : State) (t : Nat) : Nat := 0x60 + 4 * t + s.pins.taddr % 4

def targetsOverlap (s : State) : Bool := (List.range 128).any fun a => answersTo s 0 a && answersTo s 1 a

/-- ADDR, ADDR2_EN and MASK of a target at their reset values. -/
def resetTargetAddr (profile t : Nat) (s : State) : State :=
  s |> clampF 1 profile 5 (TWB_T_ADDR_ADDR t) (targetReset s t) |> clampF 1 profile 5 (TWB_T_ADDR_ADDR2_EN t) 0
    |> clampF 1 profile 5 (TWB_T_ADDR_MASK t) 0

/-- R362: an address of 0x0C, or one that overlaps the other target's. -/
def checkTargets (profile : Nat) (s : State) : State :=
  let s := each [0, 1] (fun t s =>
    let s := if setF s (TWB_T_ADDR_ADDR t) = 0x0C then clampF 1 profile 1 (TWB_T_ADDR_ADDR t) (targetReset s t) s else s
    if setF s (TWB_T_ADDR_ADDR2_EN t) = 1 ∧ setF s (TWB_T_ADDR_ADDR2 t) = 0x0C then clampF 1 profile 1 (TWB_T_ADDR_ADDR2_EN t) 0 s
    else s) s
  each [1, 0] (fun t s => if targetsOverlap s then resetTargetAddr profile t s else s) s

/-- The port of a relay (R403). -/
def checkRelay (profile : Nat) (s : State) : State :=
  let p := setF s RLY_CFG_PORT
  if setF s RLY_CFG_ENABLE = 0 then s
  else if !wpPresent s.variant p then clampF 1 profile 2 RLY_CFG_ENABLE 0 s
  else if setF s (WVE_CFG_ENABLE p) = 0 then clampF 1 profile 6 RLY_CFG_ENABLE 0 s
  else s

/-- A context that the ports stage finds unusable (R51, R68, R69). -/
def unusableCtx (s : State) (c : Nat) : Option Nat :=
  if setRemote s c then none
  else
    match mainMap s c with
    | none => if cpPresent s.variant (setF s (CTX_PORT c)) then some 6 else some 2
    | some _ => if (mapsOfCtx s c).all fun m => (scriptFor s m.1 0).isSome then none else some 6

/-- The ports stage. -/
def stagePorts (profile : Nat) (s : State) : State :=
  let s := each ((List.range 20).filter (cpPresent s.variant)) (fun p s =>
    if sget (fun _ => regReset s.chip (CPT_CFG_ENABLE p).addr) s.cfgB (CPT_CFG_ENABLE p).addr = regReset s.chip (CPT_CFG_ENABLE p).addr
    then s else recheck 1 profile (CPT_CFG_ENABLE p).addr s) s
  let s := each ((List.range 2).filter (txPresent s.variant)) (fun p => recheck 1 profile (CTX2_CFG_ENABLE p).addr) s
  let s := s |> dropMaps profile |> trimGenerators profile |> checkTargets profile
  let s := each ((List.range 2).filter (ethPresent s.variant)) (fun e s =>
    if e ≠ setF s TSU_CFG_SLAVE_EP ∧ setF s (ETH_CFG_ROLE e) = 1 then clampF 1 profile 5 (ETH_CFG_ROLE e) 2 s else s) s
  let s := each ((List.range 4).filter (wpPresent s.variant)) (fun p s =>
    let l := [setF s (WVE_LANE_MAP_LL0 p), setF s (WVE_LANE_MAP_LL1 p), setF s (WVE_LANE_MAP_LL2 p), setF s (WVE_LANE_MAP_LL3 p)]
    if l.eraseDups.length = 4 then s else clampF 1 profile 5 ⟨(WVE_LANE_MAP_LL0 p).addr, 11, 0⟩ 0x688 s) s
  let s := checkRelay profile s
  each (setCtxs s) (fun c s => match unusableCtx s c with | some cause => disableCtx 1 profile cause c s | none => s) s

/-! ## Stage 2: contexts -/

/-- A queue that exists and is enabled in the set. -/
def setQueueOn (s : State) (q : Nat) : Bool :=
  decide (0 < q) && queueUnitPresent s.variant q && setF s (QMX_Q_CFG_ENABLE q) != 0

/-- Queues that may be enabled: those of hardware, and those whose words the set lists, ascending. -/
def setQueues (s : State) : List Nat :=
  (List.range 28).tail ++ (s.cfgB.filterMap fun w =>
    let q := (w.1 - 0x40000) / 0x20
    if 0x40000 ≤ w.1 ∧ w.1 < 0x80000 ∧ w.1 % 0x20 = 0 ∧ 28 ≤ q then some q else none)

def spilling (s : State) : List Nat := (setQueues s).filter fun q => setQueueOn s q && decide (6 < setF s (QMX_Q_CFG_DEPTH_LOG2 q))

/-- Bytes of DRAM reserved for spill (R265, R284). -/
def spillBytes (s : State) : Nat := ((spilling s).map fun q => 4 * 2 ^ setF s (QMX_Q_CFG_DEPTH_LOG2 q)).sum

/-- Lower depths until the spill regions fit in 1 GiB (R284 step 2). -/
def trimSpill (profile : Nat) : Nat → State → State
  | 0, s => s
  | n + 1, s =>
    if spillBytes s ≤ 2 ^ 30 then s
    else
      match (spilling s).getLast? with
      | none => s
      | some q => trimSpill profile n (clampF 2 profile 1 (QMX_Q_CFG_DEPTH_LOG2 q) (setF s (QMX_Q_CFG_DEPTH_LOG2 q) - 1) s)

/-- R284. -/
def checkQueues (profile : Nat) (s : State) : State :=
  let copies := s.cfgB.filterMap fun w =>
    if 0x40000 ≤ w.1 ∧ w.1 < 0x80000 ∧ w.1 % 0x20 = 4 then some ((w.1 - 0x40000) / 0x20) else none
  let s := each copies (fun q s =>
    let c := setF s (QMX_Q_COPY_COPY_Q q)
    if c ≠ 0 ∧ (c = q ∨ !setQueueOn s c) then clampF 2 profile 6 (QMX_Q_COPY_COPY_Q q) 0 s else s) s
  let s := trimSpill profile (14 * (setQueues s).length) s
  each (namedCtxs s) (fun c s =>
    let q := setF s (CTX_STAT_Q c)
    if q ≠ 0 ∧ !setQueueOn s q then clampF 2 profile 6 (CTX_STAT_Q c) 0 s else s) s

/-- Triggered members of a sync group share the generator of its lowest-numbered member (R321). -/
def checkGroups (profile : Nat) (s : State) : State :=
  let grp (s : State) (c : Nat) : Nat := setF s (CTX_SYNC_GRP c)
  let gen (s : State) (c : Nat) : Option Nat := match mainMap s c with | some m => setGen s m.1 | none => none
  each (setCtxs s) (fun c s =>
    let lead := (setCtxs s).find? fun d => grp s d == grp s c
    let trig := (mapsOfCtx s c).any fun m => setF s (CPT_MAP_W3_TRIGGERED m.1 m.2) != 0
    match lead with
    | some d => if grp s c ≠ 0 ∧ trig ∧ gen s c ≠ gen s d then clampF 2 profile 6 (CTX_SYNC_GRP c) 0 s else s
    | none => s) s

/-- Bytes per pixel of OUT_FMT (R194). -/
def fmtBytes (f : Nat) : Nat := [2, 4, 3, 6, 1, 2, 2, 4].getD f 4

/-- The delivered frame size hb (R143). -/
def setFrameBytes (s : State) (c : Nat) : Nat :=
  if setF s (CTX_MODE c) = 1 ∧ !setRemote s c then
    ((mapsOfCtx s c).map fun m =>
      setF s (CPT_MAP_W1_LINES m.1 m.2) * packedBytes (setF s (CPT_MAP_W0_DT m.1 m.2)) (setF s (CPT_MAP_W2_PIXELS m.1 m.2))).sum + 128
  else
    setF s (CTX_CROP_W c) * setF s (CTX_CROP_H c) * fmtBytes (setF s (CTX_OUT_FMT c)) + 128
      + (if setF s (CTX_SEAL c) = 1 then 8 * setF s (CTX_CROP_H c) else 0)

/-- A crop extent and origin brought inside `size`: the extent is reduced first, then the origin (R126). -/
def fitCrop (org ext size least step : Nat) : Nat × Nat :=
  let e := (min ext (size - org)) / step * step
  let e := if e < least then min ext (size / step * step) else e
  (min org (size - e), e)

/-- Start and COUNT of the blob that a directory entry requires (R160, R202). -/
def requiredBlob (s : State) (kind n : Nat) : Nat × Nat :=
  if kind = 1 then (0x608000 + setF s (PIX_LIN_CTRL_OFFSET n), 257)
  else if kind = 2 then (0x1000000 + setF s (PIX_DPC_MAP_OFFSET n), setF s (PIX_DPC_CTRL_COUNT n))
  else if kind = 3 then (0x1000000 + setF s (PIX_LSC_MESH_OFFSET n), 4 * setF s (PIX_LSC_CTRL_NX n) * setF s (PIX_LSC_CTRL_NY n))
  else if kind = 4 then (0x608000 + setF s (PIX_HDR_CTRL_OFFSET n), 130)
  else if kind = 5 then (0x608000 + setF s (PIX_TONE_CTRL_OFFSET n), 273)
  else (0x608000 + setF s (PIX_SCL_CTRL_OFFSET n), 384)

/-- Whether a selected set is VALID and the table it enables is loaded. -/
def selectorOk (s : State) (valid : RF) (en : Option RF) (kind n : Nat) : Bool :=
  setF s valid != 0 && (match en with
    | none => true
    | some e => setF s e == 0 || s.ldr.blobs.any fun b =>
        let r := requiredBlob s kind n
        b.2.2.1 == kind && b.1 == r.1 && b.2.2.2 == r.2)

/-- The selectors of a processed context (R160, R202). -/
def checkSelectors (profile c : Nat) (s : State) : State :=
  let sel (r : RF) (valid : Nat → RF) (en : Nat → Option RF) (kind : Nat) (more : State → Nat → Bool) (s : State) : State :=
    let n := setF s r
    if !selectorOk s (valid n) (en n) kind n || more s n then clampF 2 profile 6 r 0 s else s
  let no : State → Nat → Bool := fun _ _ => false
  let dt := setDt s c
  s |> sel (CTX_PWL_SET c) PIX_LIN_CTRL_VALID (fun n => some (PIX_LIN_CTRL_PWL_EN n)) 1
        (fun s n => setF s (PIX_LIN_CTRL_PWL_EN n) != 0 && (dt == 0x2A || dt == 0x2B || dt == 0x2F))
    |> sel (CTX_DPC_SET c) PIX_DPC_CTRL_VALID (fun n => some (PIX_DPC_CTRL_STATIC_EN n)) 2 no
    |> sel (CTX_LSC_SET c) PIX_LSC_CTRL_VALID (fun n => some (PIX_LSC_CTRL_EN n)) 3 no
    |> sel (CTX_HDR_SET c) PIX_HDR_CTRL_VALID (fun n => some (PIX_HDR_CTRL_WT_EN n)) 4 (fun s _ => setF s (CTX_EXPOSURES c) == 1)
    |> sel (CTX_CCM_SET c) PIX_COL_CTRL_VALID (fun _ => none) 0 no
    |> sel (CTX_TONE_SET c) PIX_TONE_CTRL_VALID (fun n => some (PIX_TONE_CTRL_TONE_EN n)) 5 no
    |> sel (CTX_SCALE_SET c) PIX_SCL_CTRL_VALID (fun n => some (PIX_SCL_CTRL_COEF_EN n)) 6 no

/-- R197: the output size of a processed context. -/
def checkScaler (profile c : Nat) (s : State) : State :=
  let cl := clampF 2 profile 1
  let w := setF s (CTX_WIDTH c)
  let h := setF s (CTX_HEIGHT c)
  let cfa := setF s (CTX_CFA c)
  let s := if setF s (CTX_OUT_FMT c) = 6 ∧ cfa ≠ 13 ∧ cfa ≠ 14 then cl (CTX_OUT_FMT c) 5 s else s
  let s := if setF s (CTX_OUT_FMT c) = 7 then s |> cl (CTX_OUT_W c) w |> cl (CTX_OUT_H c) h else s
  let s := cl (CTX_OUT_H c) (min (setF s (CTX_OUT_H c)) h) s
  let s := cl (CTX_OUT_W c) (min (setF s (CTX_OUT_W c)) (2 * w)) s
  s |> cl (CTX_OUT_W c) (max (setF s (CTX_OUT_W c)) (ceilDiv w 8)) |> cl (CTX_OUT_H c) (max (setF s (CTX_OUT_H c)) (ceilDiv h 8))

/-- The crop row of R126, with the even origin that OUT_FMT 7 needs (R197). -/
def checkCrop (profile c : Nat) (s : State) : State :=
  let cl := clampF 2 profile 1
  let raw := setF s (CTX_OUT_FMT c) == 7
  let even (n : Nat) : Nat := if raw then n / 2 * 2 else n
  let x := fitCrop (setF s (CTX_CROP_X c)) (setF s (CTX_CROP_W c)) (setF s (CTX_OUT_W c)) 16 2
  let y := fitCrop (setF s (CTX_CROP_Y c)) (setF s (CTX_CROP_H c)) (setF s (CTX_OUT_H c)) 1 1
  s |> cl (CTX_CROP_W c) x.2 |> cl (CTX_CROP_X c) (even x.1) |> cl (CTX_CROP_H c) y.2 |> cl (CTX_CROP_Y c) (even y.1)

/-- The first DRAM byte that the loader may not allocate: the spare rows lie above it (R417). -/
def dramLimit (s : State) : Nat := s.chip.dramBytes - s.chip.dramBytes / 64

/-- HOLD_FRAMES and HOLD_BASE of a context (R126, R140), given the first free DRAM byte; answers the next one. -/
def checkHold (profile c base : Nat) (s : State) : State × Nat :=
  let want := setF s (CTX_HOLD_FRAMES c)
  if want = 0 then (s, base)
  else
    let slot := roundUp (setFrameBytes s c) 4096
    let n := min want ((dramLimit s - base) / slot)
    (s |> clampF 2 profile 1 (CTX_HOLD_FRAMES c) n |> putF (CTX_HOLD_BASE c) (base / 4096), base + n * slot)

/-- DCLASS (R126, R403). -/
def checkClass (profile c : Nat) (s : State) : State :=
  let weave := (setRoutes s).any fun o => setF s (SEAM_ROUTE_W0_DEST_KIND o) == 2 && (routeUsed s o).contains c
  let relay := setF s RLY_CFG_ENABLE == 1 && decide (setF s (CTX_PORT c) < 16)
    && ((mapsOfCtx s c).all fun m => setF s (CPT_MAP_W3_TRIGGERED m.1 m.2) == 1) && decide (2 ≤ setF s (CTX_HOLD_FRAMES c))
  if setF s (CTX_DCLASS c) = 1 ∧ !setRemote s c ∧ !weave then clampF 2 profile 6 (CTX_DCLASS c) 0 s
  else if setF s (CTX_DCLASS c) = 2 ∧ !relay then clampF 2 profile 6 (CTX_DCLASS c) 0 s
  else s

/-- OVERBOOK and TIER (R126). -/
def checkTier (profile c : Nat) (s : State) : State :=
  let s := if setF s (CTX_TIER c) = 2 then s else clampF 2 profile 1 (CTX_OVERBOOK c) 0 s
  let g := setF s (CTX_SYNC_GRP c)
  match (setCtxs s).find? fun d => setF s (CTX_SYNC_GRP d) == g with
  | some d => if g = 0 then s else clampF 2 profile 5 (CTX_TIER c) (setF s (CTX_TIER d)) s
  | none => s

/-- The clamps that follow PORT, WIDTH, HEIGHT and EXPOSURES. -/
def checkCtxRest (profile c base : Nat) (s : State) : State × Nat :=
  let proc := setProcessed s c
  let s := if proc then checkScaler profile c s else s
  let s := checkTier profile c s
  let s := if proc then checkCrop profile c s else s
  let r := checkHold profile c base s
  let s := checkClass profile c r.1
  (if proc then checkSelectors profile c s else s, r.2)

/-- The checks of one enabled context (R93, R126, R189, R197, R212). -/
def checkCtx (profile c base : Nat) (s : State) : State × Nat :=
  let ms := mapsOfCtx s c
  let exps := if setProcessed s c then 1 + maxOf (ms.map fun m => setF s (CPT_MAP_W0_EXP_IDX m.1 m.2)) else 1
  if setProcessed s c ∧ (ms.any fun m => setF s (CPT_MAP_W0_DT m.1 m.2) == 0x1E) then (disableCtx 2 profile 4 c s, base)
  else if setRemote s c then
    s |> clampF 2 profile 1 (CTX_PORT c) 0 |> clampF 2 profile 1 (CTX_EXPOSURES c) 1 |> checkCtxRest profile c base
  else
    match mainMap s c with
    | none => (disableCtx 2 profile 6 c s, base)
    | some m =>
      let s := s |> clampF 2 profile 1 (CTX_PORT c) m.1 |> clampF 2 profile 1 (CTX_WIDTH c) (setF s (CPT_MAP_W2_PIXELS m.1 m.2))
        |> clampF 2 profile 1 (CTX_HEIGHT c) (setF s (CPT_MAP_W1_LINES m.1 m.2))
      if setProcessed s c ∧ setF s (CTX_CFA c) ≠ 0 ∧ setF s (CTX_HEIGHT c) < 4 then (disableCtx 2 profile 1 c s, base)
      else s |> clampF 2 profile 1 (CTX_EXPOSURES c) exps |> checkCtxRest profile c base

/-- Grids that an enabled context selects (R178). -/
def checkGrids (profile : Nat) (s : State) : State :=
  each ((List.range 16).filter fun g => (setCtxs s).any fun c => setF s (CTX_STAT_GRID c) == g) (fun g s =>
    let cw := setF s (PIX_SGRID_CELL_CW g)
    let nx := setF s (PIX_SGRID_DIM_NX g)
    let s := if 32768 < cw * setF s (PIX_SGRID_CELL_CH g) then clampF 2 profile 1 (PIX_SGRID_CELL_CH g) (32768 / cw / 2 * 2) s else s
    if 256 < nx * setF s (PIX_SGRID_DIM_NY g) then clampF 2 profile 1 (PIX_SGRID_DIM_NY g) (256 / nx) s else s) s

/-- The derived fields of the set are the loader's own (R125): they begin at 0. -/
def clearDerived (s : State) : State :=
  { s with cfgB := s.cfgB.filter fun w =>
      !(decide (0x300000 ≤ w.1) && decide (w.1 < 0x500000) && (w.1 % 0x80 == 0x40 || w.1 % 0x80 == 0x44)) }

/-- IN_CHECK is 0 in every context that is not REMOTE (R212). -/
def checkInCheck (profile : Nat) (s : State) : State :=
  each (namedCtxs s) (fun c s => if setRemote s c then s else clampF 2 profile 1 (CTX_IN_CHECK c) 0 s) s

/-- The contexts stage. -/
def stageContexts (profile : Nat) (s : State) : State :=
  let s := s |> clearDerived |> checkQueues profile |> checkGroups profile |> checkInCheck profile
  let r := (setCtxs s).foldl (fun (r : State × Nat) c => checkCtx profile c r.2 r.1) (s, roundUp (spillBytes s) 4096)
  checkGrids profile r.1

/-! ## Stage 3: slices -/

/-- A processed context needs a physical slice that serves its logical slice. -/
def stageSlices (profile : Nat) (s : State) : State :=
  each (setCtxs s) (fun c s =>
    let l := setF s (CTX_SLICE c)
    let phys := setF s RSV_SLICE_MAP_PHYS / 8 ^ l % 8
    if setProcessed s c ∧ (activeSlices s.variant ≤ l ∨ !pixPresent s.variant phys ∨ hasBit (retiredMask s 0) phys) then
      disableCtx 3 profile 6 c s
    else s) s

/-! ## Stage 4: seam (R211) -/

/-- Width and height of a route's output frame (R210). -/
def routeSize (s : State) (o : Nat) : Nat × Nat :=
  let src := routeUsed s o
  let c := src.headD 0
  let mode := setF s (SEAM_ROUTE_W0_MODE o)
  if mode = 1 then ((src.map fun d => setF s (CTX_CROP_W d)).sum, setF s (CTX_CROP_H c))
  else if mode = 2 then (setF s (SEAM_REGION_SIZE_W o), setF s (SEAM_REGION_SIZE_H o))
  else (setF s (CTX_CROP_W c), setF s (CTX_CROP_H c))

/-- Bytes of one line on a CSI-2 link (R229). -/
def linkBytes (fmt w : Nat) : Nat :=
  if fmt = 1 then ceilDiv (5 * w) 2 else if fmt = 7 then 3 * w else fmtBytes fmt * w

/-- The demand of a transmit route in Mbit/s (R229). -/
def txDemand (s : State) (o : Nat) : Rat :=
  let c := (routeUsed s o).headD 0
  let z := routeSize s o
  ((z.2 * (linkBytes (setF s (CTX_OUT_FMT c)) z.1 + 6) + 142) * 8 : Nat) / (setF s (CTX_FRAME_US c) : Rat)

/-- The cap of a transmit port in Mbit/s (R229). -/
def txCap (s : State) (p : Nat) : Rat :=
  let d : Rat := (9 * setF s (CTX2_CFG_LANES p) * setF s (CTX2_CFG_RATE p) : Nat)
  if setF s (CTX2_CFG_PHY p) = 1 then d * 16 / 7 else d

/-- The geometry checks of a route by its MODE. -/
def modeOk (s : State) (o : Nat) : Bool :=
  let src := routeUsed s o
  let c := src.headD 0
  let mode := setF s (SEAM_ROUTE_W0_MODE o)
  let same (r : Nat → RF) : Bool := src.all fun d => setF s (r d) == setF s (r c)
  if mode = 1 then
    decide (2 ≤ src.length) && src.all (setProcessed s) && setF s (CTX_SYNC_GRP c) != 0 && same CTX_SYNC_GRP && same CTX_CROP_H
      && same CTX_OUT_FMT && decide ((routeSize s o).1 ≤ 16384)
  else
    src.length == 1 && (mode != 2 || ((setProcessed s c || setRemote s c)
      && setF s (SEAM_REGION_ORG_X o) % 2 == 0 && setF s (SEAM_REGION_SIZE_W o) % 2 == 0
      && decide (setF s (SEAM_REGION_ORG_X o) + setF s (SEAM_REGION_SIZE_W o) ≤ setF s (CTX_CROP_W c))
      && decide (setF s (SEAM_REGION_ORG_Y o) + setF s (SEAM_REGION_SIZE_H o) ≤ setF s (CTX_CROP_H c))))

/-- A route to a transmit port, after the routes kept before it. -/
def txCause (s : State) (kept : List Nat) (o : Nat) : Option Nat :=
  let p := setF s (SEAM_ROUTE_W0_DEST o)
  let c := (routeUsed s o).headD 0
  let fmt := setF s (CTX_OUT_FMT c)
  let before := kept.filter fun k => setF s (SEAM_ROUTE_W0_DEST_KIND k) == 1 && setF s (SEAM_ROUTE_W0_DEST k) == p
  if !txPresent s.variant p then some 2
  else if fmt = 3 ∨ (setF s (CTX_MODE c) = 1 ∧ !setRemote s c) ∨ 16 ≤ before.length ∨ 65535 < linkBytes fmt (routeSize s o).1 then some 4
  else if txCap s p < (before.map (txDemand s)).sum + txDemand s o then some 4
  else none

/-- Why a route is dropped, if it is (R211). -/
def routeCause (s : State) (kept : List Nat) (o : Nat) : Option Nat :=
  let kind := setF s (SEAM_ROUTE_W0_DEST_KIND o)
  let dest := setF s (SEAM_ROUTE_W0_DEST o)
  let n := setF s (SEAM_ROUTE_W0_SOURCES o)
  if !((routeUsed s o).all fun c => (setCtxs s).contains c) ∨ !(((routeAll s o).drop n).all fun c => c == 0xFFFF) then some 6
  else if !modeOk s o then some 4
  else if kind = 0 then
    if !hpPresent s.variant (dest / 128) then some 2
    else if kept.any fun k => setF s (SEAM_ROUTE_W0_DEST_KIND k) == 0 && setF s (SEAM_ROUTE_W0_DEST k) == dest then some 5
    else none
  else if kind = 1 then txCause s kept o
  else if fabricOk s.variant then none else some 2

/-- The routes in ascending OUTPUT order. -/
def checkRoutes (profile : Nat) : List Nat → List Nat → State → State
  | _, [], s => s
  | kept, o :: os, s =>
    match routeCause s kept o with
    | none => checkRoutes profile (kept ++ [o]) os s
    | some cause =>
      let a := (SEAM_ROUTE_W0_VALID o).addr
      let req := o + setF s (SEAM_ROUTE_W0_MODE o) * 2 ^ 16 + setF s (SEAM_ROUTE_W0_DEST_KIND o) * 2 ^ 24
      let e := itemEntry s 2 4 profile a cause req 0
      checkRoutes profile kept os (s |> putF (SEAM_ROUTE_W0_VALID o) 0 |> tell e)

def stageSeam (profile : Nat) (s : State) : State := checkRoutes profile [] (setRoutes s) s

/-! ## Stage 5: DMA defaults -/

def stageDma (profile : Nat) (s : State) : State :=
  each (s.cfgB.filterMap fun w => if 0xC0000 ≤ w.1 ∧ w.1 < 0xE0000 ∧ w.1 % 0x200 = 0 then some w.1 else none) (fun a s =>
    if absentAt s.variant a then
      let e := itemEntry s 2 5 profile a 2 (bankWord s.chip s.cfgB a).toNat 0
      { s with cfgB := sdel s.cfgB a } |> tell e
    else recheck 5 profile a s) s

/-! ## Stage 6: budgets -/

/-- A resource of R70. -/
inductive Res where
  | slice (l : Nat) | dram | egress (p : Nat) | weave | store
deriving DecidableEq, Repr

/-- The resources in their order. -/
def resources (s : State) : List Res :=
  (List.range (activeSlices s.variant)).map .slice ++ [.dram] ++ ((List.range 2).filter (hpPresent s.variant)).map .egress
    ++ [.weave, .store]

/-- The order number that an entry carries (R70, R72). -/
def resOrder : Res → Nat
  | .slice _ => 1
  | .dram => 2
  | .egress _ => 3
  | .weave => 4
  | .store => 5

/-- Frames of a context in bytes per microsecond, which is MB/s. -/
def frameRate (s : State) (c : Nat) : Rat := (setFrameBytes s c : Rat) / (setF s (CTX_FRAME_US c) : Rat)

/-- The line container of a context (R146). -/
def lineContainer (s : State) (c : Nat) : Nat :=
  let lb :=
    if setRemote s c then setF s (CTX_CROP_W c) * fmtBytes (setF s (CTX_OUT_FMT c))
    else if setF s (CTX_MODE c) = 1 then
      maxOf ((mapsOfCtx s c).map fun m => packedBytes (setF s (CPT_MAP_W0_DT m.1 m.2)) (setF s (CPT_MAP_W2_PIXELS m.1 m.2)))
    else (if setDt s c = 0x2F then 4 else 2) * setF s (CTX_WIDTH c)
  roundUp lb 64

/-- Line-store bytes of a context (R146). -/
def storeBytes (s : State) (c : Nat) : Nat :=
  (setF s (CTX_WIN_LINES c) + setF s (CTX_SKEW_LINES c)) * setF s (CTX_EXPOSURES c) * lineContainer s c

/-- How often the valid routes to a kind of destination name a context. -/
def timesRouted (s : State) (c : Nat) (ok : Nat → Bool) : Nat :=
  (((setRoutes s).filter ok).map fun o => ((routeUsed s o).filter (· == c)).length).sum

def toHost (s : State) (p o : Nat) : Bool :=
  setF s (SEAM_ROUTE_W0_DEST_KIND o) == 0 && setF s (SEAM_ROUTE_W0_DEST o) / 128 == p
def toWeave (s : State) (o : Nat) : Bool := setF s (SEAM_ROUTE_W0_DEST_KIND o) == 2

/-- What one context adds to the demand on a resource (R142–R146); its hold is what loads the DRAM. -/
def share (s : State) (c : Nat) : Res → Rat
  | .slice l =>
    if setProcessed s c ∧ setF s (CTX_OVERBOOK c) = 0 ∧ setF s (CTX_SLICE c) = l then (rateIn s.chip s.cfgB c : Rat) else 0
  | .dram => if setF s (CTX_HOLD_FRAMES c) = 0 then 0 else frameRate s c
  | .egress p => frameRate s c * (timesRouted s c (toHost s p) : Rat)
  | .weave => 8 * frameRate s c * (timesRouted s c (toWeave s) : Rat)
  | .store => (storeBytes s c : Rat)

/-- What the streams that this device forwards add to the weave demand, in Mbit/s (R145): 8 × the stream bytes of a frame
over FRAME_US at its source, which is a free value here. Log entry 78. -/
def forwardedDemand (s : State) : Rat :=
  (s.fab.passing.map fun f => ((8 * f.bytes : Nat) : Rat) / (max 1 (Config.forwardedUs f.src f.stream) : Nat)).sum

/-- The part of the demand that no context carries: replay and queues in the DRAM, forwarded streams on the weave, tables
and the seam in the store. -/
def fixedDemand (s : State) : Res → Rat
  | .dram => 1000 + (if (setCtxs s).any fun c => setF s (CTX_HOLD_FRAMES c) != 0 then 2000 else 0)
  | .weave => forwardedDemand s
  | .store => (2 * 2 ^ 20 + ((s.ldr.blobs.filter fun b => decide (0x1000000 ≤ b.1)).map (·.2.1)).sum : Nat)
  | _ => 0

def demand (s : State) (r : Res) : Rat := fixedDemand s r + ((setCtxs s).map fun c => share s c r).sum

/-- The cap of a weave port in Mbit/s at its RATE (R70, R384). -/
def weaveCap (s : State) (p : Nat) : Rat := (28125 : Rat) / (2 ^ setF s (WVE_CFG_RATE p) : Nat) * 4 * (95 / 100) * (64 / 66) * (64 / 72)

/-- The cap of a resource (R70, R145, R235). -/
def cap (s : State) : Res → Rat
  | .slice _ => 9200
  | .dram => if ddrMask s.variant = 3 then 51200 else 25600
  | .egress p =>
    let r := setF s (HLK_CFG_DECL_RATE p)
    if r = 4 then 24700 else if r = 3 then 13300 else if r = 2 then 6650 else 3325
  | .weave =>
    match ((List.range 4).filter fun p => wpPresent s.variant p && setF s (WVE_CFG_ENABLE p) != 0).map (weaveCap s) with
    | [] => 0
    | x :: xs => xs.foldl (fun a b => if b < a then b else a) x
  | .store => (32 * 2 ^ 20 : Nat)

/-- The next item that R71 removes from an over-cap resource: a hold (true) or a context. -/
def victim (s : State) (r : Res) : Option (Bool × Nat) :=
  let cs := (setCtxs s).reverse
  let loads (c : Nat) : Bool := decide (0 < share s c r)
  let pick (t : Nat) (hold : Bool) : Option (Bool × Nat) :=
    (cs.find? fun c => setF s (CTX_TIER c) == t && loads c && (!hold || r == .dram)).map fun c => (hold, c)
  (pick 2 true).orElse fun _ => (pick 2 false).orElse fun _ => (pick 1 true).orElse fun _ => pick 1 false

/-- Remove items until the resource fits; false if only tier-0 demand is left. -/
def fitRes (profile : Nat) (r : Res) : Nat → State → State × Bool
  | 0, s => (s, decide (demand s r ≤ cap s r))
  | n + 1, s =>
    if demand s r ≤ cap s r then (s, true)
    else
      match victim s r with
      | none => (s, false)
      | some (hold, c) =>
        let e := itemEntry s (if hold then 4 else 5) 6 profile (0x300000 + 0x80 * c) 7 c (resOrder r)
        let s := if hold then s |> putF (CTX_HOLD_FRAMES c) 0 |> putF (CTX_HOLD_BASE c) 0 else putF (CTX_ENABLE c) 0 s
        fitRes profile r n (tell e s)

/-- The budgets in the order of R70; the order number of the resource that tier-0 demand alone overloads, if one does. -/
def stageBudgets (profile : Nat) : List Res → State → State × Option Nat
  | [], s => (s, none)
  | r :: rs, s =>
    match fitRes profile r (2 * (setCtxs s).length) s with
    | (s', true) => stageBudgets profile rs s'
    | (s', false) => (s', some (resOrder r))

/-- LS_BASE of every enabled context, in context-number order, from the end of the highest line-store table (R126). -/
def fillLsBase (s : State) : State :=
  let top := maxOf ((s.ldr.blobs.filter fun b => decide (0x1000000 ≤ b.1)).map fun b => b.1 + b.2.1 - 0x1000000)
  ((setCtxs s).foldl (fun (r : State × Nat) c => (putF (CTX_LS_BASE c) (r.2 / 64) r.1, r.2 + storeBytes r.1 c)) (s, roundUp top 64)).1

/-- Stages 1–6 on the set in the basting bank (R68), then its derived fields. -/
def runStages (profile : Nat) (s : State) : State × Option Nat :=
  let s := s |> stagePorts profile |> stageContexts profile |> stageSlices profile |> stageSeam profile |> stageDma profile
  match stageBudgets profile (resources s) s with
  | (s', none) => (fillLsBase s', none)
  | r => r

end Sys2Proof.Machine
end

