-- ==== Sys2Proof/Machine/Dma.lean ====
section
/-! DEFINITION. Egress buffers, DMA channels, sets, completion records and halts (R240–R260), as the commands share
them. -/

namespace Sys2Proof.Machine
open Sys2Proof

def emptyChan : ChanSt := ⟨none, none, [], 0, [], [], none, none, [], []⟩
def chanOf (s : State) (c : Nat) : ChanSt := sget (fun _ => emptyChan) s.chans c
def setChan (c : Nat) (x : ChanSt) (s : State) : State := { s with chans := sset (fun _ => emptyChan) s.chans c x }

/-- Host port of a channel (R240). -/
def portOfChan (c : Nat) : Nat := c / 128

/-- Channels of a host port. -/
def chansOf (p : Nat) : List Nat := (List.range 128).map (· + 128 * p)

def dmxErr (code c : Nat) : ErrInfo := { unit := uDMX, inst := c, code, info := c % 256 * 256 }
def hlkErr (code p : Nat) : ErrInfo := { unit := uHLK, inst := p, code }

def chanState (s : State) (c : Nat) : Nat := rd s (DMX_CH_STAT_STATE c)

/-! ## The egress buffer (R258, R259) -/

/-- The watermark in effect. -/
def watermark (n : Nat) : Nat := min n 0x400000

/-- Set the level and let the watermarks act (R259). -/
def setLevelBytes (p new : Nat) (s : State) : State :=
  let old := rd s (HLK_EGR_LEVEL_BYTES p)
  let hwm := watermark (rd s (HLK_EGR_HWM_BYTES p))
  let lwm := watermark (rd s (HLK_EGR_LWM_BYTES p))
  let s := s |> wr (HLK_EGR_LEVEL_BYTES p) new |> wr (HLK_EGR_PEAK_BYTES p) (max (rd s (HLK_EGR_PEAK_BYTES p)) new)
  let s := if old < hwm ∧ hwm ≤ new then
      s |> wr (HLK_EVT_HWM_HIT p) 1 |> inc (HLK_WM_CNT_HWM p)
        |> fun s => setHostPort p { hostPort s p with lwmArmed := true } s
    else s
  if (hostPort s p).lwmArmed && decide (new < old) && decide (new ≤ lwm) && decide (lwm < hwm) then
    s |> wr (HLK_EVT_LWM_HIT p) 1 |> inc (HLK_WM_CNT_LWM p)
      |> fun s => setHostPort p { hostPort s p with lwmArmed := false } s
  else s

def levelUp (p n : Nat) (s : State) : State := setLevelBytes p (rd s (HLK_EGR_LEVEL_BYTES p) + n) s
def levelDown (p n : Nat) (s : State) : State := if n = 0 then s else setLevelBytes p (rd s (HLK_EGR_LEVEL_BYTES p) - n) s

def itemBytes (l : List EgrItem) : Nat := (l.map fun i => i.bytes.length).sum

/-- A frame's lines go to the egress buffer. -/
def inEgress (f : ChFrame) : Bool := match f.take with | .none _ => false | _ => true

/-- Open frames of a port: 128 bytes are kept free for each (R258). -/
def openAtPort (s : State) (p : Nat) : Nat :=
  ((chansOf p).map fun c => ((chanOf s c).frames.filter fun f => f.isOpen && inEgress f).length).sum

/-- The buffer takes a line of `n` bytes (R258). -/
def egressFits (s : State) (p n : Nat) : Bool :=
  decide (rd s (HLK_EGR_LEVEL_BYTES p) + n + 128 * openAtPort s p ≤ 0x400000)

/-! ## Lines lost at a destination (R216) -/

def seamErr (code o c : Nat) : ErrInfo := { unit := uSEAM, inst := 0, code, info := o * 2 ^ 23 + c * 2 ^ 9, arg1 := c }

def outBySerial (s : State) (serial : Nat) : Option OutFrame := s.outs.find? fun x => x.serial == serial

def putOut (x : OutFrame) (s : State) : State :=
  { s with outs := s.outs.map fun y => if y.serial = x.serial then x else y }

/-- Context that an output frame's errors name: that of its first source. -/
def outCtx (x : OutFrame) : Nat := match x.srcs.head? with | some p => p.ctx | none => 0

/-- `n` lines of an output are lost: counted, OUT_LOSS set, error 0x02 once per output frame. -/
def seamLoss (o serial n : Nat) (s : State) : State :=
  if n = 0 then s
  else
    let s := s |> addSat (SEAM_OUT_LOSS_LINES o) n |> addSat SEAM_CNT_DEST_LOSS n |> wr SEAM_EVT_DEST_LOSS 1
    match outBySerial s serial with
    | none => s
    | some x =>
      let s := putOut { x with status := x.status ||| 256, lossSaid := true } s
      if x.lossSaid then s else s |> inc (SEAM_OUT_LOSS_FRAMES o) |> recordError (seamErr 2 o (outCtx x))

/-- The first line lost after the frame's tag was built: the tag will carry OUT_LOSS all the same. -/
def lateLoss (o serial : Nat) (tag : Option (List Nat)) (s : State) : State :=
  match tag with
  | some b =>
    if (outBySerial s serial).isNone && !hasBit (leAt b 0x1E 2) 8 then
      s |> inc (SEAM_OUT_LOSS_FRAMES o) |> recordError (seamErr 2 o (leAt b 0 2 % 2 ^ 14))
    else s
  | none => s

/-! ## Frames of a channel -/

def chFrame (s : State) (c serial : Nat) : Option ChFrame := (chanOf s c).frames.find? fun f => f.serial == serial

def putChFrame (c : Nat) (f : ChFrame) (s : State) : State :=
  let x := chanOf s c
  setChan c { x with frames := x.frames.map fun g => if g.serial = f.serial then f else g } s

def dropChFrame (c serial : Nat) (s : State) : State :=
  let x := chanOf s c
  setChan c { x with frames := x.frames.filter fun g => g.serial != serial } s

def isTaken (f : ChFrame) : Bool := match f.take with | .taken _ => true | .waiting _ _ => true | _ => false

/-- DMX_CH_STAT.IN_FRAME, and STOPPING that has come to its end (R254). -/
def settleState (c : Nat) (s : State) : State :=
  let busy := (chanOf s c).frames.any isTaken
  let s := wr (DMX_CH_STAT_IN_FRAME c) (bit busy) s
  if chanState s c = 2 ∧ !busy then wr (DMX_CH_STAT_STATE c) 0 s else s

/-! ## Host memory -/

/-- The port can reach host memory: link up, Bus Master Enable set, not in D3hot (R237). -/
def canReach (s : State) (p : Nat) : Bool := canSendMsix s p

/-- Host writes of a run of bytes, cut at Max_Payload_Size and at 4 KiB boundaries (R247). The fuel is the number of
bytes at most. -/
def tlps (mps attr p : Nat) : Nat → Nat → List Nat → List Emit
  | 0, _, _ => []
  | fuel + 1, a, bs =>
    if bs.isEmpty then []
    else
      let n := min mps (4096 - a % 4096)
      .hostWrite p a (bs.take n) attr :: tlps mps attr p fuel (a + n) (bs.drop n)

def writeHost (p a : Nat) (bs : List Nat) (attr : Nat) (s : State) : State :=
  let mps := if (hostPort s p).payload256 then 256 else 128
  (tlps mps attr p bs.length a bs).foldl (fun s e => emit e s) s

/-! ## Completion records (R249–R251) -/

/-- The bytes of a completion record (R249). -/
def completionRecord (status flags ch seq cookie bytes residue : Nat) (tag : Option (List Nat)) (time : Nat) : List Nat :=
  let t (off n : Nat) : Nat := match tag with | some b => leAt b off n | none => 0
  [status, flags, ch % 256, seq % 256] ++ leBytes 4 cookie ++ leBytes 4 bytes ++ leBytes 4 residue ++ leBytes 2 (t 0 2)
    ++ leBytes 2 (t 8 2) ++ leBytes 4 (t 4 4) ++ leBytes 2 (t 0x1E 2) ++ [0, 0] ++ leBytes 4 time

def setById (s : State) (c id : Nat) : Option DmaSet :=
  let x := chanOf s c
  match x.cur with
  | some d => if d.id = id then some d else x.old.find? fun o => o.id == id
  | none => x.old.find? fun o => o.id == id

/-- Store a set's counters. -/
def putSet (c : Nat) (d : DmaSet) (s : State) : State :=
  let x := chanOf s c
  let s := setChan c { x with cur := x.cur.map (fun e => if e.id = d.id then d else e)
                              old := x.old.map (fun e => if e.id = d.id then d else e) } s
  match x.cur with
  | some e => if e.id = d.id then wr (DMX_CH_IDX_CPL_PI c) d.k s else s
  | none => s

def lostRecord (c : Nat) (s : State) : State := s |> inc (DMX_CH_CNT_CPL_LOST c) |> wr (DMX_CH_EVT_CPL_LOST c) 1

/-- Traffic class of a channel's requests (DMX_CH_DEF.TC). -/
def tcOf (s : State) (c : Nat) : Nat := act s (DMX_CH_DEF_TC c)

/-- Write one completion record into a set's ring, in traffic class `tc` and without Relaxed Ordering (R239); DONE is set
(R248, R251). A port that cannot reach host memory loses the record. -/
def writeRecord (c : Nat) (d : DmaSet) (useReserved replay tagWritten : Bool) (tc status cookie bytes residue : Nat)
    (tag : Option (List Nat)) (s : State) : State :=
  if isSafe s then s else
  let p := portOfChan c
  if !canReach s p then s |> putSet c { d with reserved := d.reserved - bit useReserved } |> lostRecord c |> recordError (dmxErr 3 c) else
  let phase := 1 - d.k / 2 ^ d.cplLog2 % 2
  let flags := phase + 2 * bit replay + 4 * bit tagWritten + 8 * bit d.fresh
  let rec32 := completionRecord status flags c d.seq cookie bytes residue tag (timeNs s)
  s |> writeHost p (d.cpl + 32 * (d.k % 2 ^ d.cplLog2)) rec32 (4 * tc)
    |> putSet c { d with k := d.k + 1, reserved := d.reserved - bit useReserved, fresh := false }
    |> wr (DMX_CH_EVT_DONE c) 1

/-- An entry of the current completion ring is free for one more record (R251). -/
def cplFree (s : State) (c : Nat) (d : DmaSet) : Bool :=
  decide ((d.k + d.reserved + 2 ^ 16 - rd s (DMX_CH_CPL_CI_CI c)) % 2 ^ 16 < 2 ^ d.cplLog2)

/-! ## Sets (R252, R253) -/

/-- Sets that some buffer still belongs to. -/
def usedSets (x : ChanSt) : List Nat :=
  (x.frames.filterMap fun f => match f.take with | .taken b => some b.set | .waiting i _ => some i | _ => none)
    ++ x.abandoned.map (·.1)

/-- Take the armed set, if ARMED is 1 (R253). -/
def takeSet (c : Nat) (s : State) : State :=
  let x := chanOf s c
  match x.armed with
  | none => s
  | some d =>
    let old := (match x.cur with | some e => e :: x.old | none => x.old).filter fun e => (usedSets x).contains e.id
    s |> setChan c { x with cur := some d, armed := none, old }
      |> wr (DMX_CH_STAT_ARMED c) 0 |> wr (DMX_CH_NEXT_ARM_ARM c) 0 |> wr (DMX_CH_IDX_CI c) 0 |> wr (DMX_CH_IDX_CPL_PI c) 0
      |> wr (DMX_CH_CPL_CI_CI c) 0 |> wr (DMX_CH_PI_PI c) d.pi |> wr (DMX_CH_STAT_TAKEN_SEQ c) d.seq
      |> wr (DMX_CH_EVT_SET_TAKEN c) 1

/-- The end of a replay (R260). -/
def endReplay (p result : Nat) (s : State) : State :=
  s |> setHostPort p { hostPort s p with replay := none } |> wr (DMX_P_REPLAY_STAT_BUSY p) 0
    |> wr (DMX_P_REPLAY_STAT_RESULT p) result |> wr (HLK_EVT_REPLAY_DONE p) 1

/-- A DMX error that concerns a frame: ARG1 names its context, that of its tag or of its output's first source (R302). -/
def frameErr (s : State) (code c : Nat) (f : ChFrame) : ErrInfo :=
  match f.tag, outBySerial s f.serial with
  | some b, _ => { dmxErr code c with arg1 := leAt b 0 2 % 2 ^ 14 }
  | none, some x => { dmxErr code c with arg1 := outCtx x }
  | none, none => dmxErr code c

/-- A NO_BUFFER record (R244, R251): it may find no free entry or no ring; the frame's handling ends either way. -/
def noBufferRecord (c : Nat) (f : ChFrame) (s : State) : State :=
  let s := s |> inc (DMX_CH_CNT_NO_BUF c) |> recordError ((frameErr s 2 c f).setting (DMX_CH_EVT_NO_BUF c))
  let lost (s : State) : State := s |> lostRecord c |> recordError (dmxErr 3 c)
  let s := match (chanOf s c).cur with
    | none => lost s
    | some d =>
      if cplFree s c d then writeRecord c d false f.replay false (f.attr / 4) 3 0 0 f.foot f.tag s else lost s
  s |> dropChFrame c f.serial |> takeSet c |> settleState c

/-- The frame gets no buffer (R244): lines of it that stand in the egress buffer are lost; the record waits for the tag. -/
def refuseTake (c serial : Nat) (s : State) : State :=
  match chFrame s c serial with
  | none => s
  | some f =>
    let lines := (f.items.filter fun i => i.kind == 0).length
    let s := match f.o with
      | some o => if lines = 0 then s else lateLoss o serial f.tag (seamLoss o serial lines s)
      | none => s
    let s := s |> levelDown (portOfChan c) (itemBytes f.items) |> putChFrame c { f with take := .none true, items := [], feed := [] }
    let f' := { f with take := .none true, items := [], feed := [] }
    if f.replay then s |> dropChFrame c serial |> endReplay (portOfChan c) 3 |> settleState c
    else if f.tag.isSome then noBufferRecord c f' s
    else settleState c s

/-! ## Reads of host memory (R234) -/

/-- Reads of a channel that stand for its frames and records, issued or waiting: of rings, of lists, flush reads. -/
def readsOf (s : State) (c dir : Nat) : Nat :=
  let x := chanOf s c
  if dir = 0 then x.ringRd.length else if dir = 1 then bit x.listRd.isSome else bit x.flushRd.isSome + x.reports.length

/-- Reads of a port outstanding on the link. -/
def readsOut (s : State) (p : Nat) : Nat :=
  ((chansOf p).map fun c => readsOf s c 0 + readsOf s c 1 + readsOf s c 2).sum - (hostPort s p).heldReads.length

/-- A channel has a read of the direction on the link: those that wait are its last. -/
def asked (s : State) (c dir : Nat) : Bool :=
  decide (((hostPort s (portOfChan c)).heldReads.filter fun r => r.1 == c && r.2.1 == dir).length < readsOf s c dir)

/-- Issue a read that the channel holds already; with 256 outstanding it waits (R234). -/
def issueRead (c dir a n tc : Nat) (s : State) : State :=
  let p := portOfChan c
  let h := hostPort s p
  if readsOut s p ≤ 256 then emit (.hostRead p a n tc) s
  else setHostPort p { h with heldReads := h.heldReads ++ [(c, dir, a, n, tc)] } s

/-- Reads that wait go out as others end (R234). -/
def releaseReads (p : Nat) (s : State) : State :=
  let h := hostPort s p
  let n := 256 - readsOut s p
  if h.heldReads.isEmpty then s
  else (h.heldReads.take n).foldl (fun s r => emit (.hostRead p r.2.2.1 r.2.2.2.1 r.2.2.2.2) s)
    (setHostPort p { h with heldReads := h.heldReads.drop n } s)

/-! ## Halts (R256) -/

/-- Release what the channel's frames hold. A frame that has taken no buffer gets its NO_BUFFER record with its tag, where
`rec` says so (R244; a halted channel writes none); one that had a buffer ends without a further record. -/
def scrapFrames (c : Nat) (rec : Bool) (s : State) : State :=
  let x := chanOf s c
  let p := portOfChan c
  let h := hostPort s p
  let s := levelDown p (x.frames.map fun f => itemBytes f.items).sum s
  let take : Take → Take
    | .pending => .none rec
    | .none r => .none (r && rec)
    | _ => .none false
  let keep := (x.frames.filter fun f => f.isOpen && !f.replay).map fun f => { f with take := take f.take, items := [], feed := [] }
  let late := x.frames.filter fun f => rec && !f.isOpen && !f.replay && f.take == .pending
  let s := setChan c { chanOf s c with frames := keep, ringRd := [], listRd := none, flushRd := none } s
  let s := setHostPort p { h with heldReads := h.heldReads.filter fun r => r.1 != c || (r.2.1 == 2 && !x.reports.isEmpty) } s
  let s := late.foldl (fun s f => noBufferRecord c f s) s
  releaseReads p (if x.frames.any (·.replay) then endReplay p 3 s else s)

/-- Buffers that the channel has taken: set, cookie, footprint, bytes written. -/
def takenBufs (x : ChanSt) : List (Nat × Nat × Nat × Nat) :=
  x.frames.filterMap fun f => match f.take with
    | .taken b => some (b.set, b.cookie, f.foot, b.written)
    | .waiting i _ => some (i, 0, f.foot, 0)
    | _ => none

/-- HALTED records whose flush reads have not returned count as failed (R257): their buffers are abandoned again, and the
current set gets their entries back if it has written no other record since. -/
def unreport (c : Nat) (s : State) : State :=
  let x := chanOf s c
  let p := portOfChan c
  let h := hostPort s p
  match x.reports with
  | [] => s
  | r :: _ =>
    let s := match x.cur with
      | some d =>
        if d.id = r.before.id ∧ d.k = r.before.k + x.reports.length then
          putSet c { d with k := r.before.k, fresh := r.before.fresh, reserved := d.reserved + (x.reports.filter (·.own)).length } s
        else s
      | none => s
    s |> setChan c { chanOf s c with abandoned := (chanOf s c).abandoned ++ x.reports.map (·.buf), reports := [] }
      |> setHostPort p { h with heldReads := h.heldReads.filter fun r => r.1 != c || r.2.1 != 2 }

/-- Halt a channel (R256); the error record carries the failing address (R302). -/
def halt (c cause dir addr entries : Nat) (s : State) : State :=
  let s := unreport c s
  let ab := takenBufs (chanOf s c)
  s |> scrapFrames c false |> (fun s => setChan c { chanOf s c with abandoned := (chanOf s c).abandoned ++ ab } s)
    |> wr (DMX_CH_STAT_STATE c) 3 |> wr (DMX_CH_STAT_HALT_CAUSE c) cause |> wr (DMX_CH_STAT_IN_FRAME c) 0
    |> wr (DMX_CH_ERR_LO_ADDR c) (addr % 2 ^ 32) |> wr (DMX_CH_ERR_HI_ADDR c) (addr / 2 ^ 32)
    |> wr (DMX_CH_ERR_INFO_DIR c) dir |> wr (DMX_CH_ERR_INFO_ENTRIES c) entries
    |> recordError ({ dmxErr 1 c with arg2 := addr % 2 ^ 32 }.setting (DMX_CH_EVT_HALT c))

/-- Entries consumed for the buffer being written. -/
def entriesUsed (s : State) (c : Nat) : Nat :=
  match (chanOf s c).frames.head? with
  | some f => match f.take with | .taken b => b.used | _ => 0
  | none => 0

/-- Why a port cannot reach host memory, as a cause of a halt (R256): in D3hot, link down, Bus Master Enable clear. -/
def unreachable (s : State) (p : Nat) : Nat :=
  if isSet s (HLK_STAT_D3 p) then 9 else if !isSet s (HLK_STAT_UP p) then 8 else 7

/-- A read that the channel holds goes out; on a port that cannot reach host memory the channel halts instead (R237,
R256). -/
def ask (c dir a0 a n tc : Nat) (s : State) : State :=
  if canReach s (portOfChan c) then issueRead c dir a n tc s
  else halt c (unreachable s (portOfChan c)) dir a0 (entriesUsed s c) s

/-- Ask for the ring entry of index `ci` of a set (R246). -/
def askRing (c : Nat) (d : DmaSet) (ci : Nat) (s : State) : State :=
  let a := d.ring + 16 * (ci % 2 ^ d.ringLog2)
  let x := chanOf s c
  s |> setChan c { x with ringRd := x.ringRd ++ [a] } |> ask c 0 a (a / 64 * 64) 64 (tcOf s c)

/-- Take the next posted buffer for a frame, among those posted up to producer index `lim`; false if there is none. -/
def tryTake (c serial lim : Nat) (s : State) : State × Bool :=
  match (chanOf s c).cur, chFrame s c serial with
  | some d, some f =>
    let ci := rd s (DMX_CH_IDX_CI c)
    if chanState s c = 1 ∧ lim % 2 ^ 16 ≠ ci ∧ cplFree s c d then
      (s |> wr (DMX_CH_IDX_CI c) (ci + 1) |> putSet c { d with reserved := d.reserved + 1 }
        |> putChFrame c { f with take := .waiting d.id lim } |> askRing c d ci |> settleState c, true)
    else (s, false)
  | _, _ => (s, false)

/-! ## Walking the list (R245, R246) -/

/-- Bytes that the consumed segments cover. -/
def covered (b : Buf) : Nat := (b.segs.map (·.2)).sum

/-- Host address of an offset in the consumed segments, and the bytes of its segment from there. -/
def locate : List (Nat × Nat) → Nat → Option (Nat × Nat)
  | [], _ => none
  | (a, n) :: l, off => if off < n then some (a + off, n - off) else locate l (off - n)

/-- What consuming one list entry comes to. -/
inductive Walk where
  | go (b : Buf)
  | stop (cause addr used : Nat)

/-- Consume one entry (R245); a stop names the failing entry's address and the entries consumed before it (R256). -/
def consume (listMax : Nat) (b : Buf) (e : ListEnt) : Walk :=
  let bad := Walk.stop 6 b.next b.used
  if listMax < b.used + 1 then .stop 5 b.next b.used
  else
    let b := { b with used := b.used + 1, got := b.got.drop 1 }
    if e.kind = 1 then
      if e.len = 0 ∨ (b.segs.isEmpty ∧ e.len < 64) then bad
      else .go { b with segs := b.segs ++ [(e.addr, e.len)], next := b.next + 16 }
    else if e.kind = 2 then if e.addr % 16 ≠ 0 then bad else .go { b with next := e.addr, got := [] }
    else if e.kind = 3 then .go { b with short := true, got := [] }
    else bad

/-- Walk until offset `off` is covered, the list ends, or the next entry is not at hand; one step to an entry. -/
def walkTo (listMax off : Nat) : Nat → Buf → Walk
  | 0, b => .go b
  | fuel + 1, b =>
    if off < covered b || b.short then .go b
    else match b.got with
      | [] => .go b
      | e :: _ => match consume listMax b e with
        | .go b' => walkTo listMax off fuel b'
        | w => w

/-- What the list's end cuts is dropped; a line is lost under R216 (R245). Error 0x04 is recorded once. -/
def cutItem (c : Nat) (f : ChFrame) (i : EgrItem) (rest : List EgrItem) (s : State) : State :=
  let s := s |> levelDown (portOfChan c) i.bytes.length |> putChFrame c { f with items := rest, cut := f.cut + 1 }
  let s := match f.o with
    | some o => if i.kind = 0 then (if f.cut = 0 then lateLoss o f.serial f.tag (seamLoss o f.serial 1 s) else seamLoss o f.serial 1 s) else s
    | none => s
  if f.cut = 0 then recordError (frameErr s 4 c f) s else s

/-- Set OUT_LOSS in a tag and compute its check again (R245). -/
def tagWithLoss (bs : List Nat) : List Nat :=
  let st := leAt bs 0x1E 2 ||| 256
  withCrc (bs.take 0x1E ++ leBytes 2 st ++ (bs.drop 0x20).take 28)

/-- The head frame's handling ends with the completion record of its buffer (R248), and an armed set is taken (R253). -/
def endBuffer (c : Nat) (f : ChFrame) (b : Buf) (s : State) : State :=
  let s := match setById s c b.set with
    | some d => writeRecord c d true f.replay b.tagWritten (f.attr / 4) (if 0 < f.cut then 1 else 0) b.cookie b.written (f.foot - b.written) f.tag s
    | none => s
  let s := s |> incWrap (DMX_CH_FRAMES_COUNT c) |> dropChFrame c f.serial |> takeSet c |> settleState c
  if f.replay then endReplay (portOfChan c) 0 s else s

/-- Bring the head frame's list to its next bytes: entries are consumed as the data needs them, a read is issued where
one is missing, and bytes beyond the list's end are dropped. A list that ends before any byte leaves the tag no place: the
buffer completes without it and without a flush read. One round to an item. -/
def settleHead (c : Nat) : Nat → State → State
  | 0, s => s
  | fuel + 1, s =>
    match (chanOf s c).frames.head? with
    | none => s
    | some f =>
      match f.take, f.items with
      | .taken b, i :: rest =>
        let need := if i.kind = 2 then 0 else i.off
        match walkTo f.listMax need (b.got.length + 1) b with
        | .stop cause a used => halt c cause 1 a used s
        | .go b' =>
          let f' := { f with take := .taken b' }
          if need < covered b' then putChFrame c f' s
          else if b'.short then
            let s := cutItem c f' i rest s
            if i.kind = 2 then settleHead c fuel (endBuffer c { f' with items := rest, cut := f'.cut + 1 } b' s) else settleHead c fuel s
          else
            let s := putChFrame c f' s
            if (chanOf s c).listRd.isSome then s
            else s |> setChan c { chanOf s c with listRd := some b'.next } |> ask c 1 b'.next (b'.next / 64 * 64) 64 (f.attr / 4)
      | _, _ => s

def settle (c : Nat) (s : State) : State := settleHead c (((chanOf s c).frames.map fun f => f.items.length).sum + 1) s

/-! ## What the seam offers (R244, R258) -/

/-- A frame's first line reaches its channel: the frame waits for its buffer; a halted channel takes none and writes no
record (R244). -/
def chanBegin (c serial o foot pitch listMax attr : Nat) (s : State) : State :=
  let take : Take := if chanState s c = 3 then .none false else .pending
  let x := chanOf s c
  setChan c { x with frames := x.frames ++ [⟨serial, some o, false, foot, pitch, listMax, attr, take, [], [], true, none, false, 0⟩] } s

/-- Offer a line with its seal to the egress buffer; false if it is lost. -/
def chanLine (c serial j : Nat) (bytes : List Nat) (s : State) : State × Bool :=
  match chFrame s c serial with
  | none => (s, false)
  | some f =>
    let p := portOfChan c
    if !inEgress f then (s, false)
    else if !egressFits s p bytes.length then
      let s := s |> inc (HLK_EGR_LOSS_LINES p) |> putChFrame c { f with refusedOnce := true }
      (if f.refusedOnce then wr (HLK_EVT_EGR_LOSS p) 1 s else recordError ((hlkErr 3 p).setting (HLK_EVT_EGR_LOSS p)) s, false)
    else
      (s |> putChFrame c { f with items := f.items ++ [⟨64 + j * f.pitch, bytes, 0⟩] } |> levelUp p bytes.length |> settle c, true)

/-- The trailer and the tag of a frame enter; they are always accepted (R258). A frame without a buffer gets its record
when its tag comes (R244). -/
def chanEnd (c serial : Nat) (trailer tag : List Nat) (s : State) : State :=
  match chFrame s c serial with
  | none => s
  | some f =>
    let p := portOfChan c
    match f.take with
    | .none true => noBufferRecord c { f with tag := some tag, isOpen := false } s
    | .none false => dropChFrame c serial s
    | _ =>
      s |> putChFrame c { f with
          items := f.items ++ [⟨f.foot - 64, trailer, 1⟩, ⟨0, tag, 2⟩], isOpen := false, tag := some tag }
        |> levelUp p (trailer.length + tag.length) |> settle c

end Sys2Proof.Machine
end

