-- ==== Sys2Proof/Machine/Host.lean ====
section
/-! DEFINITION. The host links' and DMA channels' commands (R234–R262). -/

namespace Sys2Proof.Machine
open Sys2Proof

def portHere (s : State) (p : Nat) : Bool := decide (p < 2) && hpPresent s.variant p
def chanHere (s : State) (c : Nat) : Bool := portHere s (portOfChan c)

/-! ## Buffers and lists (R244–R247) -/

/-- BUFFER_TAKE (R244): the first line of a frame has reached its channel, which takes the next posted buffer. -/
def doBufferTake (c : Nat) (s : State) : State :=
  match (chanOf s c).frames.find? fun f => f.take == .pending with
  | none => s
  | some f =>
    let r := tryTake c f.serial (rd s (DMX_CH_PI_PI c)) s
    if r.2 then r.1 else refuseTake c f.serial r.1

def execBufferTake (c : Nat) (s : State) : Host.Outcome State Fault Refusal := .next (if chanHere s c then doBufferTake c s else s)

/-- A ring entry too small for the frame is returned with a SMALL record, and the next posted one is tried (R244). -/
def smallBuffer (c : Nat) (f : ChFrame) (d : DmaSet) (lim cookie : Nat) (s : State) : State :=
  let s := s |> writeRecord c d true f.replay false (f.attr / 4) 2 cookie 0 f.foot none |> recordError (frameErr s 5 c f)
  let same := match (chanOf s c).cur with | some e => e.id == d.id | none => false
  let r := if same then tryTake c f.serial lim s else (s, false)
  if r.2 then r.1 else refuseTake c f.serial r.1

/-- RING_READ_COMPLETE (R241, R244, R245): LIST, LENGTH and COOKIE of the entry that the channel asked for. -/
def doRingReadComplete (c list length cookie : Nat) (s : State) : State :=
  let x := chanOf s c
  if !asked s c 0 then s else
  match x.ringRd, x.frames.find? fun f => match f.take with | .waiting _ _ => true | _ => false with
  | a :: rest, some f =>
    match f.take with
    | .waiting id lim =>
      let s := setChan c { x with ringRd := rest } s
      let b : Buf := ⟨id, cookie, list, [], [], 0, false, 0, false⟩
      match setById s c id with
      | none => s
      | some d =>
        if list % 16 ≠ 0 then s |> putChFrame c { f with take := .taken b } |> halt c 6 0 a 0
        else if length < f.foot then smallBuffer c f d lim cookie s
        else s |> putChFrame c { f with take := .taken b } |> settle c
    | _ => s
  | _, _ => s

def execRingReadComplete (c list length cookie : Nat) (s : State) : Host.Outcome State Fault Refusal :=
  .next (if chanHere s c then releaseReads (portOfChan c) (doRingReadComplete c list length cookie s) else s)

/-- LIST_READ_COMPLETE (R242, R245, R246): the entries from the one asked for, as (ADDR, LEN, KIND). -/
def doListReadComplete (c : Nat) (es : List (Nat × Nat × Nat)) (s : State) : State :=
  let x := chanOf s c
  if !asked s c 1 then s else
  match x.listRd, x.frames.head? with
  | some _, some f =>
    match f.take with
    | .taken b =>
      s |> setChan c { x with listRd := none }
        |> putChFrame c { f with take := .taken { b with got := es.map fun e => ⟨e.1, e.2.1, e.2.2⟩ } } |> settle c
    | _ => s
  | _, _ => s

def execListReadComplete (c : Nat) (es : List (Nat × Nat × Nat)) (s : State) : Host.Outcome State Fault Refusal :=
  .next (if chanHere s c then releaseReads (portOfChan c) (doListReadComplete c es s) else s)

/-! ## Draining (R247, R248, R258) -/

/-- Let a replay's bytes into the egress buffer as far as it takes them (R260). One step to an item. -/
def feedFrame (c serial : Nat) : Nat → State → State
  | 0, s => s
  | fuel + 1, s =>
    match chFrame s c serial with
    | none => s
    | some f =>
      match f.feed with
      | [] => s
      | i :: rest =>
        let p := portOfChan c
        if i.kind = 0 && !egressFits s p i.bytes.length then s
        else
          let f' := { f with feed := rest, items := f.items ++ [i], isOpen := f.isOpen && i.kind == 0 }
          feedFrame c serial fuel (s |> putChFrame c f' |> levelUp p i.bytes.length |> settle c)

def feedReplay (p : Nat) (s : State) : State :=
  (chansOf p).foldl (fun s c =>
    match (chanOf s c).frames.find? fun f => !f.feed.isEmpty with
    | some f => feedFrame c f.serial f.feed.length s
    | none => s) s

/-- The next burst of a channel, if it has a buffer and a list entry ready: host address and length (R247, R258). -/
def burstOf (s : State) (c : Nat) : Option (Nat × Nat) :=
  let x := chanOf s c
  match x.frames.head? with
  | none => none
  | some f =>
    match f.take, f.items with
    | .taken b, i :: _ =>
      if x.flushRd.isSome || b.tagWritten then none
      else (locate b.segs i.off).map fun l => (l.1, min (min 512 i.bytes.length) l.2)
    | _, _ => none

/-- The order of the round robin: the channels after the one that drained last, then the others. -/
def roundRobin (s : State) (p : Nat) : List Nat :=
  let last := (hostPort s p).lastChan
  ((List.range 128).map fun i => 128 * p + (last + 1 + i) % 128)

/-- Drain one burst of a channel. -/
def burst (c a n : Nat) (s : State) : State :=
  let p := portOfChan c
  match (chanOf s c).frames.head? with
  | none => s
  | some f =>
    match f.take, f.items with
    | .taken b, i :: rest =>
      let all := if i.kind = 2 ∧ 0 < f.cut then tagWithLoss i.bytes else i.bytes
      let done := i.bytes.length ≤ n
      let b' := { b with written := b.written + n, tagWritten := done && i.kind == 2 }
      let i' : EgrItem := ⟨i.off + n, all.drop n, i.kind⟩
      let f' := { f with take := .taken b', items := if done then rest else i' :: rest
                         tag := if i.kind = 2 ∧ 0 < f.cut then f.tag.map tagWithLoss else f.tag }
      let s := s |> writeHost p a (all.take n) (if i.kind = 0 then f.attr else f.attr / 4 * 4) |> putChFrame c f' |> levelDown p n
        |> fun s => setHostPort p { hostPort s p with lastChan := c % 128 } s
      if b'.tagWritten then
        let t := (b'.segs.headD (0, 0)).1
        s |> setChan c { chanOf s c with flushRd := some t } |> ask c 2 t t 0 (f.attr / 4)
      else settle c s
    | _, _ => s

/-- EGRESS_BURST (R247, R258): the next channel in round robin that is ready drains one burst to host memory. -/
def doEgressBurst (p : Nat) (s : State) : State :=
  let s := feedReplay p s
  if !canReach s p then s
  else
    match (roundRobin s p).findSome? fun c => (burstOf s c).map fun x => (c, x) with
    | none => s
    | some (c, a, n) => feedReplay p (burst c a n s)

def execEgressBurst (p : Nat) (s : State) : Host.Outcome State Fault Refusal := .next (if portHere s p then doEgressBurst p s else s)

/-- The flush read of a frame's tag has returned: the completion record is written (R248). -/
def completeFrame (c : Nat) (f : ChFrame) (b : Buf) (s : State) : State :=
  s |> setChan c { chanOf s c with flushRd := none } |> endBuffer c f b |> settle c

/-- FLUSH_READ_COMPLETE (R248, R253, R257): that of the oldest HALTED record, or of the head frame's tag. -/
def doFlushReadComplete (c : Nat) (s : State) : State :=
  let x := chanOf s c
  if !asked s c 2 then s else
  match x.reports, x.flushRd with
  | _ :: rest, _ => setChan c { x with reports := rest } s
  | [], none => s
  | [], some _ =>
    match x.frames.head? with
    | some f => match f.take with
      | .taken b => if b.tagWritten then completeFrame c f b s else setChan c { x with flushRd := none } s
      | _ => setChan c { x with flushRd := none } s
    | none => setChan c { x with flushRd := none } s

def execFlushReadComplete (c : Nat) (s : State) : Host.Outcome State Fault Refusal :=
  .next (if chanHere s c then releaseReads (portOfChan c) (doFlushReadComplete c s) else s)

/-- COMPLETION_TIMEOUT (R256): a read of the channel failed; direction 0 ring, 1 list, 2 data; cause 1–4. -/
def doCompletionTimeout (c dir cause : Nat) (s : State) : State :=
  let x := chanOf s c
  let a := if dir = 0 then x.ringRd.head? else if dir = 1 then x.listRd
    else match x.reports with | r :: _ => some r.addr | [] => x.flushRd
  match a with
  | none => s
  | some a => if asked s c dir then halt c cause dir a (entriesUsed s c) s else s

def execCompletionTimeout (c dir cause : Nat) (s : State) : Host.Outcome State Fault Refusal :=
  .next (if chanHere s c && decide (dir ≤ 2) && decide (1 ≤ cause) && decide (cause ≤ 4) then doCompletionTimeout c dir cause s else s)

/-! ## Sets and control (R252–R257) -/

/-- A write is rejected (R251, R252): the event bit and error 0x06. -/
def rejectWrite (r : RF) (c : Nat) (s : State) : State := recordError ((dmxErr 6 c).setting r) s

/-- The staging set is legal (R252). -/
def stagingOk (s : State) (c : Nat) : Bool :=
  let r := rd s (DMX_CH_NXT_SIZE_RING_LOG2 c)
  let k := rd s (DMX_CH_NXT_SIZE_CPL_LOG2 c)
  decide (2 ≤ r) && decide (r ≤ 12) && decide (4 ≤ k) && decide (k ≤ 15) && decide (rd s (DMX_CH_NXT_SIZE_PI c) ≤ 2 ^ r)

/-- The staging set, with the SEQ of the ARM write. -/
def stagingSet (s : State) (c seq : Nat) : DmaSet :=
  { id := (chanOf s c).nextSet
    ring := rd s (DMX_CH_NXT_RING_HI_ADDR c) * 2 ^ 32 + rd s (DMX_CH_NXT_RING_LO_ADDR c) * 16
    cpl := rd s (DMX_CH_NXT_CPL_HI_ADDR c) * 2 ^ 32 + rd s (DMX_CH_NXT_CPL_LO_ADDR c) * 32
    ringLog2 := rd s (DMX_CH_NXT_SIZE_RING_LOG2 c), cplLog2 := rd s (DMX_CH_NXT_SIZE_CPL_LOG2 c), seq := seq % 256
    pi := rd s (DMX_CH_NXT_SIZE_PI c), k := 0, reserved := 0, fresh := true }

/-- ARM (R252). -/
def doArm (c seq : Nat) (s : State) : State :=
  if !stagingOk s c then rejectWrite (DMX_CH_EVT_ARM_REJ c) c s
  else
    let x := chanOf s c
    s |> setChan c { x with armed := some (stagingSet s c seq), nextSet := x.nextSet + 1 }
      |> wr (DMX_CH_NEXT_ARM_ARM c) 1 |> wr (DMX_CH_NEXT_ARM_SEQ c) seq |> wr (DMX_CH_STAT_ARMED c) 1

def execArm (c seq : Nat) (s : State) : Host.Outcome State Fault Refusal := .next (if chanHere s c then doArm c seq s else s)

/-- DISARM (R252). -/
def doDisarm (c : Nat) (s : State) : State :=
  s |> setChan c { chanOf s c with armed := none } |> wr (DMX_CH_NEXT_ARM_ARM c) 0 |> wr (DMX_CH_STAT_ARMED c) 0

def execDisarm (c : Nat) (s : State) : Host.Outcome State Fault Refusal := .next (if chanHere s c then doDisarm c s else s)

/-- PI_WRITE (R244, R253): rejected without a current set, or beyond the ring. -/
def doPiWrite (c v : Nat) (s : State) : State :=
  match (chanOf s c).cur with
  | none => rejectWrite (DMX_CH_EVT_PI_REJ c) c s
  | some d =>
    if 2 ^ d.ringLog2 < (v + 2 ^ 16 - rd s (DMX_CH_IDX_CI c)) % 2 ^ 16 then rejectWrite (DMX_CH_EVT_PI_REJ c) c s
    else wr (DMX_CH_PI_PI c) v s

def execPiWrite (c v : Nat) (s : State) : Host.Outcome State Fault Refusal := .next (if chanHere s c then doPiWrite c v s else s)

/-- CPL_CI_WRITE (R251): entries not yet written are not freed. -/
def doCplCiWrite (c v : Nat) (s : State) : State :=
  match (chanOf s c).cur with
  | none => rejectWrite (DMX_CH_EVT_PI_REJ c) c s
  | some d =>
    let ci := rd s (DMX_CH_CPL_CI_CI c)
    if (d.k + 2 ^ 16 - ci) % 2 ^ 16 < (v + 2 ^ 16 - ci) % 2 ^ 16 then rejectWrite (DMX_CH_EVT_PI_REJ c) c s
    else wr (DMX_CH_CPL_CI_CI c) v s

def execCplCiWrite (c v : Nat) (s : State) : Host.Outcome State Fault Refusal := .next (if chanHere s c then doCplCiWrite c v s else s)

/-- The HALTED record of an abandoned buffer, into the current ring, and its flush read (R257). -/
def haltedRecord (c : Nat) (s : State) (ab : Nat × Nat × Nat × Nat) : State :=
  match (chanOf s c).cur with
  | none => lostRecord c s
  | some d =>
    let seq := match setById s c ab.1 with | some e => e.seq | none => d.seq
    let own := ab.1 == d.id
    let a := d.cpl + 32 * (d.k % 2 ^ d.cplLog2)
    let s := writeRecord c { d with seq } own false false (tcOf s c) 5 ab.2.1 ab.2.2.2 (ab.2.2.1 - ab.2.2.2) none s
    -- the set keeps its own SEQ
    let s := match (chanOf s c).cur with | some e => putSet c { e with seq := d.seq } s | none => s
    s |> (fun s => setChan c { chanOf s c with reports := (chanOf s c).reports ++ [⟨a, d, ab, own⟩] } s)
      |> issueRead c 2 a 0 (tcOf s c)

/-- Host address of the next completion record of the current set. -/
def nextRecord (s : State) (c : Nat) : Nat :=
  match (chanOf s c).cur with
  | some d => d.cpl + 32 * (d.k % 2 ^ d.cplLog2)
  | none => 0

/-- START in HALT (R257). Where the HALTED record is due and host memory cannot be reached, its flush read fails and the
channel halts again. -/
def resume (c : Nat) (s : State) : State :=
  let ab := (chanOf s c).abandoned
  let s := s |> wr (DMX_CH_STAT_HALT_CAUSE c) 0 |> wr (DMX_CH_ERR_LO_ADDR c) 0 |> wr (DMX_CH_ERR_HI_ADDR c) 0
    |> wr (DMX_CH_ERR_INFO_DIR c) 0 |> wr (DMX_CH_ERR_INFO_ENTRIES c) 0
  if !(chanOf s c).armed.isSome && !ab.isEmpty && !canReach s (portOfChan c) then
    halt c (unreachable s (portOfChan c)) 2 (nextRecord s c) 0 s
  else
    let s := if (chanOf s c).armed.isSome then ab.foldl (fun s _ => lostRecord c s) (takeSet c s)
      else ab.foldl (haltedRecord c) s
    s |> (fun s => setChan c { chanOf s c with abandoned := [] } s) |> wr (DMX_CH_STAT_STATE c) 1

/-- START (R254, R257); before LDR_EVT.LOADED it is discarded (R65, R240). -/
def doStart (c : Nat) (s : State) : State :=
  if !s.ldr.loaded then s
  else if chanState s c = 3 then resume c s
  else if chanState s c = 0 then
    let x := chanOf s c
    if x.armed.isSome then s |> takeSet c |> wr (DMX_CH_STAT_STATE c) 1
    else if x.cur.isSome then wr (DMX_CH_STAT_STATE c) 1 s
    else wr (DMX_CH_EVT_ARM_REJ c) 1 s
  else s

def execStart (c : Nat) (s : State) : Host.Outcome State Fault Refusal := .next (if chanHere s c then doStart c s else s)

/-- STOP (R254). -/
def doStop (c : Nat) (s : State) : State := if chanState s c = 1 then s |> wr (DMX_CH_STAT_STATE c) 2 |> settleState c else s

def execStop (c : Nat) (s : State) : Host.Outcome State Fault Refusal := .next (if chanHere s c then doStop c s else s)

/-- An ABORTED record of a taken buffer (R255). -/
def abortedRecord (c : Nat) (s : State) (b : Nat × Nat × Nat × Nat) : State :=
  match setById s c b.1 with
  | some d => writeRecord c d true false false (tcOf s c) 4 b.2.1 b.2.2.2 (b.2.2.1 - b.2.2.2) none s
  | none => s

/-- ABORT (R255). -/
def doAbort (c : Nat) (s : State) : State :=
  let st := chanState s c
  if st = 3 then s |> scrapFrames c false |> wr (DMX_CH_EVT_ABORTED c) 1
  else if st = 1 ∨ st = 2 then
    let taken := takenBufs (chanOf s c)
    let s := taken.foldl (abortedRecord c) s
    let s := s |> scrapFrames c true |> wr (DMX_CH_STAT_STATE c) 0 |> wr (DMX_CH_STAT_IN_FRAME c) 0 |> wr (DMX_CH_EVT_ABORTED c) 1
    if taken.isEmpty then s else takeSet c s
  else s

def execAbort (c : Nat) (s : State) : Host.Outcome State Fault Refusal := .next (if chanHere s c then doAbort c s else s)

/-! ## Replay (R260) -/

def emptyHold : HoldSt := ⟨0, [], none⟩
def holdOf (s : State) (c : Nat) : HoldSt := sget (fun _ => emptyHold) s.holds c
def setHold (c : Nat) (x : HoldSt) (s : State) : State := { s with holds := sset (fun _ => emptyHold) s.holds c x }

/-- Some valid route of the active bank names the channel. -/
def chanRouted (s : State) (c : Nat) : Bool :=
  (List.range 256).any fun o => act s (SEAM_ROUTE_W0_VALID o) == 1 && act s (SEAM_ROUTE_W0_DEST_KIND o) == 0
    && act s (SEAM_ROUTE_W0_DEST o) == c

/-- A frame with `lines` lines of `lb` bytes in its buffer: pitch and footprint (R243). -/
def pitchOf (shift lb : Nat) (sealed : Bool) : Nat := roundUp (lb + 8 * bit sealed) (2 ^ shift)
def footprint (pitch lines : Nat) : Nat := 128 + lines * pitch

/-- Attributes of pixel data writes of a channel (R239). -/
def attrOf (ro ns tc : Nat) : Nat := ro + 2 * ns + 4 * tc

/-- The held frame as a frame of the channel (R260). -/
def replayFrame (s : State) (c serial : Nat) (h : Held) : ChFrame :=
  let pitch := pitchOf (act s (DMX_CH_DEF_PITCH_SHIFT c)) h.lb h.sealed
  let foot := footprint pitch h.lines.length
  { serial, o := none, replay := true, foot, pitch, listMax := act s (DMX_CH_DEF_LIST_MAX c)
    attr := attrOf (act s (DMX_CH_DEF_RO_DATA c)) (act s (DMX_CH_DEF_NS c)) (act s (DMX_CH_DEF_TC c)), take := .pending, items := []
    feed := (h.lines.zipIdx.map fun l => ⟨64 + l.2 * pitch, l.1, 0⟩) ++ [⟨foot - 64, h.trailer, 1⟩, ⟨0, h.tag, 2⟩]
    isOpen := true, tag := some h.tag, refusedOnce := false, cut := 0 }

/-- REPLAY (R260): a write of DMX_P_REPLAY. -/
def doReplay (p v : Nat) (s : State) : State :=
  let c := v / 2 ^ 20 % 256
  let ctx := v % 2 ^ 14
  let age := v / 2 ^ 28 % 8
  if !hasBit v 31 || isSafe s then s
  else if isSet s (DMX_P_REPLAY_STAT_BUSY p) then wr (DMX_P_REPLAY_STAT_RESULT p) 4 s
  else if portOfChan c ≠ p ∨ chanRouted s c ∨ chanState s c ≠ 1 then endReplay p 2 s
  else
    match (holdOf s ctx).held.reverse[age]? with
    | none => endReplay p 1 s
    | some h =>
      let f := replayFrame s c s.nextOut h
      let x := chanOf s c
      let s := { s with nextOut := s.nextOut + 1 } |> setChan c { x with frames := x.frames ++ [f] }
        |> wr (DMX_P_REPLAY_STAT_BUSY p) 1 |> fun s => setHostPort p { hostPort s p with replay := some (ctx, h.slot, f.serial) } s
      let r := tryTake c f.serial (rd s (DMX_CH_PI_PI c)) s
      if r.2 then feedReplay p r.1 else refuseTake c f.serial r.1

def execReplay (p v : Nat) (s : State) : Host.Outcome State Fault Refusal := .next (if portHere s p then doReplay p v s else s)

/-! ## The link and the function (R234–R238) -/

/-- Lines in the egress buffer of a port. -/
def linesHeld (s : State) (p : Nat) : Nat :=
  ((chansOf p).map fun c => ((chanOf s c).frames.map fun f => (f.items.filter fun i => i.kind == 0).length).sum).sum

/-- Halt every channel of a port (R237). -/
def haltPort (p cause : Nat) (s : State) : State :=
  let n := linesHeld s p
  (chansOf p).foldl (fun s c => halt c cause 0 0 (entriesUsed s c) s) (addSat (HLK_EGR_LOSS_LINES p) n s)

/-- A channel after a reset of its function (R237): IDLE, its sets, rings and indices cleared, nothing armed. -/
def idleChan (s : State) (c : Nat) : State :=
  let x := chanOf s c
  s |> setChan c { emptyChan with nextSet := x.nextSet, frames := x.frames } |> scrapFrames c true
    |> wr (DMX_CH_STAT_STATE c) 0 |> wr (DMX_CH_STAT_HALT_CAUSE c) 0 |> wr (DMX_CH_STAT_IN_FRAME c) 0 |> wr (DMX_CH_STAT_ARMED c) 0
    |> wr (DMX_CH_STAT_TAKEN_SEQ c) 0 |> wr (DMX_CH_NEXT_ARM_ALL c) 0 |> wr (DMX_CH_IDX_ALL c) 0 |> wr (DMX_CH_PI_PI c) 0
    |> wr (DMX_CH_CPL_CI_CI c) 0

/-- The MSI-X table, PBA and capability at their reset values (R238). -/
def resetMsix (p : Nat) (s : State) : State :=
  let s := (List.range 64).foldl (fun s v =>
    s |> wr (MSIX_ADDR_LO_VALUE p v) 0 |> wr (MSIX_ADDR_HI_VALUE p v) 0 |> wr (MSIX_DATA_VALUE p v) 0 |> wr (MSIX_CTRL_MASK p v) 1) s
  s |> wr (MSIX_PBA_PEND p 0) 0 |> wr (MSIX_PBA_PEND p 1) 0
    |> fun s => setHostPort p { hostPort s p with msixEnable := false, funcMask := false, msixSrc := [], payload256 := false } s

/-- FLR, hot reset and exit from D3hot (R237, R238, R299). -/
def resetFunction (p : Nat) (s : State) : State :=
  let s := addSat (HLK_EGR_LOSS_LINES p) (linesHeld s p) s
  (chansOf p).foldl idleChan s |> resetMsix p |> resetTarget p |> wr (HLK_STAT_BME p) 0 |> wr (HLK_STAT_D3 p) 0

def execFlr (p : Nat) (s : State) : Host.Outcome State Fault Refusal :=
  .next (if portHere s p then s |> resetFunction p |> wr (HLK_EVT_FLR p) 1 else s)

def execHotReset (p : Nat) (s : State) : Host.Outcome State Fault Refusal := .next (if portHere s p then resetFunction p s else s)

def execD3hotEntry (p : Nat) (s : State) : Host.Outcome State Fault Refusal :=
  .next (if portHere s p then s |> wr (HLK_STAT_D3 p) 1 |> haltPort p 9 else s)

def execD3hotExit (p : Nat) (s : State) : Host.Outcome State Fault Refusal :=
  .next (if portHere s p && isSet s (HLK_STAT_D3 p) then resetFunction p s else s)

/-- A port's link goes down (R237). -/
def dropLink (p : Nat) (s : State) : State :=
  s |> wr (HLK_STAT_UP p) 0 |> wr (HLK_STAT_WIDTH p) 0 |> wr (HLK_STAT_RATE p) 0 |> wr (HLK_STAT_FLIT p) 0
    |> setHostPort p { hostPort s p with linkRate := 0 } |> haltPort p 8
    |> recordError ((hlkErr 1 p).setting (HLK_EVT_LINK_DOWN p))

def execLinkDown (p : Nat) (s : State) : Host.Outcome State Fault Refusal := .next (if portHere s p then dropLink p s else s)

def execBusMasterDisable (p : Nat) (s : State) : Host.Outcome State Fault Refusal :=
  .next (if portHere s p then s |> wr (HLK_STAT_BME p) 0 |> haltPort p 7 else s)

/-- BUS_MASTER_ENABLE (R237); with it the Max_Payload_Size that the host has set, 128 or 256 bytes (R234). -/
def execBusMasterEnable (p payload : Nat) (s : State) : Host.Outcome State Fault Refusal :=
  .next (if portHere s p then
    s |> wr (HLK_STAT_BME p) 1 |> setHostPort p { hostPort s p with payload256 := decide (256 ≤ payload) }
  else s)

/-- The rate of a trained link in units of 0.1 GT/s: 8, 16, 32 and 64 GT/s for 1–4, then 5.0 and 2.5 GT/s (R234, R235). -/
def rateOf (rate : Nat) : Nat :=
  match rate with | 1 => 80 | 2 => 160 | 3 => 320 | 4 => 640 | 5 => 50 | _ => 25

/-- Usable write rate of a port's link in units of 1 MB/s (R235): that of a ×4 link at its rate, by the share of its
lanes. -/
def usableRate (s : State) (p : Nat) : Nat :=
  let x4 := match (hostPort s p).linkRate with
    | 640 => 26000 | 320 => 14000 | 160 => 7000 | 80 => 3500 | 50 => 1750 | 25 => 875 | _ => 0
  x4 * rd s (HLK_STAT_WIDTH p) / 4

/-- What the function's configuration space says it is (R234): Vendor ID, Device ID and class code. -/
def pcieIdentity (s : State) : Nat × Nat × Nat := ((reg s 0x0).toNat / 2 ^ 16, (reg s 0x0).toNat % 2 ^ 16, 0x048000)

/-- HOST_LINK_TRAINED (R234–R236): rate 1–4 as HLK_STAT.RATE has it, 5 at 5.0 GT/s and 6 at 2.5 GT/s, both read as 5; width
1, 2 or 4; flit mode. -/
def doHostLinkTrained (p rate width : Nat) (flit : Bool) (s : State) : State :=
  let s := s |> wr (HLK_STAT_UP p) 1 |> wr (HLK_STAT_RATE p) (min rate 5) |> wr (HLK_STAT_WIDTH p) width |> wr (HLK_STAT_FLIT p) (bit flit)
    |> setHostPort p { hostPort s p with linkRate := rateOf rate }
  if 5 ≤ rate ∨ rate < cfgI s (islHL p) (HLK_CFG_DECL_RATE p) ∨ width < 4 then
    s |> recordError ((hlkErr 2 p).setting (HLK_EVT_DEGRADED p))
  else s

/-- A link trains to no other rate or width, and to 64 GT/s only in flit mode (R234). -/
def execHostLinkTrained (p rate width : Nat) (flit : Bool) (s : State) : Host.Outcome State Fault Refusal :=
  .next (if portHere s p && decide (1 ≤ rate) && decide (rate ≤ 6) && (flit || rate != 4) && (width == 1 || width == 2 || width == 4) then
    doHostLinkTrained p rate width flit s else s)

/-- Send the messages that unmasked vectors hold (R238, R296). -/
def flushVectors (p : Nat) (s : State) : State :=
  (List.range 64).foldl (fun s v =>
    if pbaSet s p v && !vectorMasked s p v then sendMsix p v (sget (fun _ => 0) (hostPort s p).msixSrc v) s else s) s

/-- VECTOR_UNMASK (R238, R296): Mask bit of vector 0–63 cleared; 64 sets MSI-X Enable and 66 clears it; 65 clears Function
Mask and 67 sets it. The Mask bits are set by writes of the table. -/
def doVectorUnmask (p v : Nat) (s : State) : State :=
  let h := hostPort s p
  let s := if v < 64 then wr (MSIX_CTRL_MASK p v) 0 s
    else if v = 64 then setHostPort p { h with msixEnable := true } s
    else if v = 65 then setHostPort p { h with funcMask := false } s
    else if v = 66 then setHostPort p { h with msixEnable := false } s
    else if v = 67 then setHostPort p { h with funcMask := true } s
    else s
  flushVectors p s

def execVectorUnmask (p v : Nat) (s : State) : Host.Outcome State Fault Refusal := .next (if portHere s p then doVectorUnmask p v s else s)

def execPcieUncorrectableError (p : Nat) (s : State) : Host.Outcome State Fault Refusal :=
  .next (if portHere s p then s |> recordError ((hlkErr 4 p).setting (HLK_EVT_AER p)) else s)

end Sys2Proof.Machine
end

