-- ==== Sys2Proof/Machine/Basting.lean ====
section
/-! DEFINITION. The basting bank and the swap (R73–R81, R87, R88): owners, CFG and LIVE writes, checked and unchecked
swaps, discards, and the views of R88. -/

namespace Sys2Proof.Machine
open Sys2Proof

/-! ## Who may write CFG (R8, R10, R432) -/

/-- The number by which MNT_STAT.ORIG names an originator. -/
def origNumber (o : Orig) : Option Nat :=
  match o with
  | .hp0 => some 0
  | .hp1 => some 1
  | .t0 => some 2
  | _ => none

/-- A session of the originator is open with the right `bit` of its FLAGS (R432); the safe state has ended it. -/
def sessionOf (s : State) (o : Orig) (right : Nat) : Bool :=
  isSet s MNT_STAT_SESSION && origNumber o == some (rd s MNT_STAT_ORIG) && hasBit (rd s MNT_STAT_FLAGS) right && !isSafe s

/-- Owner codes of LDR_STAT.OWNER (R74). -/
def ownerCode : Writer → Nat
  | .loader => 1
  | .profileSelection => 2
  | .reserveManager => 3
  | .bus _ => 4

/-- The writer owns the basting bank. -/
def owns (s : State) (w : Writer) : Bool :=
  rd s LDR_STAT_OWNER == ownerCode w && (match w with | .bus o => sessionOf s o 0 | _ => true)

/-- The bank has no owner and no swap is in progress (R74). -/
def bankFree (s : State) : Bool := rd s LDR_STAT_OWNER == 0 && !isSet s LDR_STAT_SWAP_BUSY

/-- The order in which a freed bank is granted (R74). -/
def bankRank : Writer → Nat
  | .reserveManager => 0
  | .bus _ => 1
  | .loader => 2
  | .profileSelection => 3

/-- A writer may become owner: the bank is free, and no writer that waits for it goes first (R74). -/
def mayTake (s : State) (w : Writer) : Bool := bankFree s && s.ldr.waiting.all fun x => decide (bankRank w ≤ bankRank x)

/-- Become owner. -/
def takeBank (w : Writer) (s : State) : State :=
  { s with ldr := { s.ldr with ownerSince := upNs s, ownEntries := 0, waiting := s.ldr.waiting.filter (· ≠ w) } } |> wr LDR_STAT_OWNER (ownerCode w)

/-- An internal writer that finds the bank taken waits (R74). -/
def waitBank (w : Writer) (s : State) : State :=
  if s.ldr.waiting.contains w then s else { s with ldr := { s.ldr with waiting := s.ldr.waiting ++ [w] } }

/-- LDR_DISCARD: the basting bank is the active bank again, and free (R75). -/
def discardBank (s : State) : State := { s with cfgB := s.cfgA } |> wr LDR_STAT_OWNER 0

/-! ## Writes -/

/-- The address is a CFG register of a present unit, other than the two that act on arrival. -/
def isCfgAt (s : State) (a : Nat) : Bool := a % 4 == 0 && (recordCause s a).isNone

/-- Entries of the clamps of a maintenance session and of the reserve manager, which belong to no record (R67, R72). -/
def reportWrite (a : Nat) (cs : List Clamped) (s : State) : State :=
  each cs (fun c => reportOwn { kind := 1, rec_ := 0xFFFFFFFF, addr := a, lsb := c.lo, width := c.width, cause := 1, req := c.req
                                applied := c.applied }) s

/-- A word written by the bank's owner, checked and reported (R66, R67). -/
def ownerWrite (a v : Nat) (s : State) : State := let r := bastingWrite a v (2 ^ 32 - 1) s; reportWrite a r.2 r.1

/-- A LIVE word: into the basting copy whatever the bank's owner; a clamp is counted and not reported (R67, R82–R84). -/
def liveWrite (a v : Nat) (s : State) : State :=
  let r := bastingWrite a v (2 ^ 32 - 1) s
  if r.2.isEmpty then r.1 else inc LDR_LIVE_CLAMP_CNT_COUNT r.1

/-- LIVE_WRITE: the service cores and a maintenance session write LIVE fields (R8). -/
def doLiveWrite (o : Orig) (a v : Nat) (s : State) : State :=
  if !isLiveWord a || !isCfgAt s a then s
  else if o = .svc ∨ sessionOf s o 0 then liveWrite a v s
  else if o = .t1 then s
  else deny a s

def execLiveWrite (o : Orig) (a v : Nat) (s : State) : Host.Outcome State Fault Refusal := .next (doLiveWrite o a v s)

/-- CFG_BASTING_WRITE (R9, R10, R74): a write by the owner, or by a writer that becomes owner with it. -/
def doCfgBastingWrite (w : Writer) (a v : Nat) (s : State) : State :=
  if !isCfgAt s a || isLiveWord a then s
  else
    match w with
    | .bus o =>
      if o = .t1 then s
      else if owns s w then ownerWrite a v s
      else if sessionOf s o 0 && mayTake s w then s |> takeBank w |> ownerWrite a v
      else deny a s
    | w =>
      if owns s w then ownerWrite a v s
      else if mayTake s w then s |> takeBank w |> ownerWrite a v
      else waitBank w s

def execCfgBastingWrite (w : Writer) (a v : Nat) (s : State) : Host.Outcome State Fault Refusal := .next (doCfgBastingWrite w a v s)

/-- LDR_VIEW_WRITE (R88): only the originator's own bit changes. -/
def viewBit (o : Orig) : Option Nat :=
  match o with
  | .hp0 => some 0
  | .hp1 => some 1
  | .t0 => some 2
  | .t1 => some 3
  | _ => none

def doLdrViewWrite (o : Orig) (v : Nat) (s : State) : State :=
  match viewBit o with
  | some k => if origPresent s.variant o then wr LDR_VIEW_ACTIVE (putBit (rd s LDR_VIEW_ACTIVE) k (hasBit v k)) s else s
  | none => s

def execLdrViewWrite (o : Orig) (v : Nat) (s : State) : Host.Outcome State Fault Refusal := .next (doLdrViewWrite o v s)

/-! ## Swaps (R76, R77) -/

/-- A hold ring whose base or size changes starts empty (R126). -/
def restartHolds (old : Sparse Word) (s : State) : State :=
  let changed (c : Nat) : Bool :=
    bankFld s.chip old (CTX_HOLD_BASE c) != act s (CTX_HOLD_BASE c) || bankFld s.chip old (CTX_HOLD_FRAMES c) != act s (CTX_HOLD_FRAMES c)
  { s with holds := s.holds.filter fun h => !changed h.1 }

/-- The loader's demand on a logical slice (R142, HTS_L_BUDGET.DEMAND). -/
def sliceDemand (s : State) (l : Nat) : Nat :=
  (((enabledCtxs s.cfgA).filter fun c => processedIn s.chip s.cfgA c && act s (CTX_OVERBOOK c) == 0 && act s (CTX_SLICE c) == l).map
    fun c => rateIn s.chip s.cfgA c).sum

/-- Spill bytes of the active set (QMX_SPILL). -/
def activeSpill (s : State) : Nat := spillBytes { s with cfgB := s.cfgA }

/-- At the first swap every present island is clocked and SAFE_N goes high (R443). -/
def firstSwap (s : State) : State :=
  let s := showClocks s
  if s.pins.safeN || isSafe s then s
  else { s with pins := { s.pins with safeN := true } } |> setPin pinSafe 0 1

/-- An accepted request (R77): the basting set becomes the active bank of the next epoch. -/
def acceptSwap (w : Writer) (profile : Nat) (s : State) : State :=
  let old := s.cfgA
  let s := { s with
    cfgO := s.cfgA, cfgA := s.cfgB
    ldr := { s.ldr with swapBy := w, swapProfile := profile, swapStart := upNs s, swapForced := false } }
  let s := s |> wr LDR_EPOCH_OLD (epochActive s) |> wr LDR_EPOCH_ACTIVE (nextEpoch s) |> wr LDR_STAT_SWAP_BUSY 1
    |> wr LDR_STAT_OWNER 0 |> restartHolds old
  let s := each (List.range (activeSlices s.variant)) (fun l s => wr (HTS_L_BUDGET_DEMAND l) (min (sliceDemand s l) 0xFFFF) s) s
  s |> wr QMX_SPILL_KIB (activeSpill s / 1024) |> notePeaks |> firstSwap

/-- The replacement whose swap was refused is tried again later; error 0x04 is recorded once for it (R421). -/
def replRefused (s : State) : State :=
  match s.rsv.cur with
  | none => s
  | some r =>
    let known := s.rsv.refused.contains r
    let s := { s with rsv := { s.rsv with cur := none, refused := if known then s.rsv.refused else s.rsv.refused ++ [r] } }
    if known then s else recordError (rsvErr 4 r.kind) s

/-- The profile that the active set belongs to, for the entries of a checked swap. -/
def activeProfile (s : State) : Nat :=
  let p := rd s LDR_STAT_PROFILE
  if s.ldr.profiles.any fun q => q.index == p then p else 0xFF

/-- A checked swap (R76): stages 1–6 on the basting set, then the swap, or its refusal. The entries of the owner's writes count among
its first 1,024 (log entry 121). -/
def checkedSwap (w : Writer) (s : State) : State :=
  let r := runStages (activeProfile s) (beginReport s.ldr.ownEntries s)
  match r.2 with
  | none => r.1 |> endReport |> acceptSwap w (rd s LDR_STAT_PROFILE)
  | some order =>
    let s := r.1 |> tell { kind := 0x0B, stage := 6, req := ownerCode w, applied := order } |> endReport |> discardBank
      |> wr LDR_EVT_SWAP_REFUSED 1
    if w = .reserveManager then replRefused s else s

/-- The slice map with every retired physical slice replaced by one that serves nothing (R422). -/
def aliveMap (s : State) (map : Nat) : Nat :=
  let gone := retiredMask s 0
  (List.range (activeSlices s.variant)).foldl (fun m l =>
    if hasBit gone (m / 8 ^ l % 8) then
      match (List.range 6).find? fun p => pixPresent s.variant p && !hasBit gone p
          && !(List.range (activeSlices s.variant)).any fun k => m / 8 ^ k % 8 == p with
      | some p => m - m / 8 ^ l % 8 * 8 ^ l + p * 8 ^ l
      | none => m
    else m) map

/-- APPLY_RETIREMENTS (R422): the maps of the journal's state area go into the set that is about to take effect, in range as every
write into the basting bank (R66). -/
def applyRetirements (s : State) : State :=
  let put (r : RF) (v : Nat) (s : State) : State :=
    let w := bastingWrite r.addr (setFld 0 r.hi r.lo v).toNat (setFld 0 r.hi r.lo (2 ^ 32 - 1)).toNat s
    each w.2 (fun c => tell { kind := 1, rec_ := 0xFFFFFFFF, addr := r.addr, lsb := c.lo, width := c.width, cause := 1, req := c.req
                              applied := c.applied }) w.1
  let s := put RSV_SLICE_MAP_PHYS (aliveMap s (bast s RSV_SLICE_MAP_PHYS)) s
  let s := if s.rsv.pllMap = 0 then s else put RSV_PLL_MAP_MAP s.rsv.pllMap s
  s.rsv.laneMaps.foldl (fun s m => put (WVE_LANE_MAP_ALL m.1) m.2 s) s

/-- The swap that ends a load (R64 step 9, R63): the image, its serial and the profile are those of the load. -/
def loadSwapRequest (s : State) : State :=
  let slot := s.ldr.slot
  let base := 0x4000000 * slot
  let word (off n : Nat) : Nat := if slot = 2 then 0 else leNum (memRead flashDefault s.flash (base + off) n)
  let s := s |> wr LDR_STAT_IMAGE slot |> wr LDR_SERIAL_SERIAL (word 0x14 4) |> wr LDR_ROLLBACK_IMAGE (word 0x12 2)
    |> applyRetirements |> tell { kind := 8, stage := 6, req := slot, applied := word 0x14 4 } |> endReport
  let s := if slot = 1 then wr LDR_EVT_IMAGE_B 1 s else if slot = 2 then wr LDR_EVT_IMAGE_ROM 1 s else s
  { s with ldr := { s.ldr with loadSwap := true } } |> acceptSwap .loader s.ldr.swapProfile

/-- SWAP_REQUEST: the owner writes LDR_SWAP_REQ; any other writer's is discarded (R75, R87). The swap that ends a load
waits for the cross-field checks and for DRAM training. -/
def doSwapRequest (w : Writer) (s : State) : State :=
  if owns s w then
    match w with
    | .loader => if s.ldr.phase = .swap ∧ s.ldr.trained then loadSwapRequest s else s
    | .profileSelection => acceptSwap .profileSelection s.ldr.swapProfile s
    | w => checkedSwap w s
  else
    match w with
    | .bus o => if o = .t1 then s else deny 0x10020 s
    | _ => s

def execSwapRequest (w : Writer) (s : State) : Host.Outcome State Fault Refusal := .next (doSwapRequest w s)

/-- DISCARD (R75, R87). -/
def doDiscard (w : Writer) (s : State) : State :=
  if owns s w then
    let s := discardBank s
    if w = .reserveManager then replRefused s else s
  else
    match w with
    | .bus o => if o = .t1 then s else deny 0x10024 s
    | _ => s

def execDiscard (w : Writer) (s : State) : Host.Outcome State Fault Refusal := .next (doDiscard w s)

/-- OWNER_TIMEOUT (R75): the loader discards for an internal owner. -/
def doOwnerTimeout (s : State) : State :=
  let o := rd s LDR_STAT_OWNER
  if o = 1 then discardBank { s with ldr := { s.ldr with phase := if s.ldr.phase = .run then .run else .records } }
  else if o = 2 then discardBank s
  else if o = 3 then s |> discardBank |> replRefused else s

def execOwnerTimeout (s : State) : Host.Outcome State Fault Refusal := .next (doOwnerTimeout s)

/-! ## The swap timeout (R81) -/

/-- An old-epoch trigger that still waits for a frame start is discarded and counted MISS, once, whatever part of its contexts has taken
it: DESIGN CHOICE (log entry 117). -/
def dropTrigger (p : Nat) (s : State) : State := s |> setCam p { camOf s p with trig := none } |> trigErr p 0x0D (CPT_TRIG_CNT_MISS p)

/-- SWAP_TIMEOUT: the ports close every old-epoch frame still open as SHORT, the refused ones among them (log entry 117), and discard
old-epoch triggers. -/
def doSwapTimeout (s : State) : State :=
  if !isSet s LDR_STAT_SWAP_BUSY || s.ldr.swapForced then s
  else
    let s := { s with ldr := { s.ldr with swapForced := true } }
    let old := epochOld s
    let open_ := s.frames.filter fun f => f.isOpen && f.epoch == old && f.port < 20
    let s := each open_ (fun f s => closeFrame f.id 0 true (some (frameVc s f)) s) s
    let trigs := oldTriggers s
    let s := each trigs dropTrigger s
    let n := open_.length + trigs.length
    let s := if n = 0 then s else s |> addSat LDR_SWAP_FORCED_COUNT n |> wr LDR_EVT_SWAP_FORCED 1
    checkSwap (kickSlices s)

def execSwapTimeout (s : State) : Host.Outcome State Fault Refusal := .next (doSwapTimeout s)

end Sys2Proof.Machine
end

