-- ==== Sys2Proof/Machine/Weave.lean ====
section
/-! DEFINITION. Weave blocks, the retry buffer and flows on the sending side (R388–R398), and the CSI-2 transmit ports
(R228–R231), as the seam uses them. -/

namespace Sys2Proof.Machine
open Sys2Proof

def emptyWv : WvSt := ⟨0, [], [], 0, [], 0, [], 0, 0, none, false, 0, 0, 0, 0, none⟩
def wvOf (s : State) (p : Nat) : WvSt := sget (fun _ => emptyWv) s.weaves p
def setWv (p : Nat) (x : WvSt) (s : State) : State := { s with weaves := sset (fun _ => emptyWv) s.weaves p x }

def wvState (s : State) (p : Nat) : Nat := rd s (WVE_STAT_STATE p)
def wvActive (s : State) (p : Nat) : Bool := wvState s p == 3
def wvUp (s : State) (p : Nat) : Bool := decide (2 ≤ wvState s p)

def generation (s : State) : Nat := rd s FAB_STAT_GEN
def ownFid (s : State) : Option Nat := if isSet s FAB_STAT_FID_VALID then some (rd s FAB_STAT_FID) else none

def wveErr (code p lane : Nat) : ErrInfo := { unit := uWVE, inst := p, code, info := lane * 256 }
def fabErr (code fid : Nat) : ErrInfo := { unit := uFAB, inst := 0, code, info := fid % 32 * 256 }
def rlyErr (code : Nat) : ErrInfo := { unit := uRLY, inst := 0, code }

/-! ## Blocks -/

/-- The header word of a block (R388). -/
def blockHeader (b : Block) : Nat :=
  b.seq % 4096 + b.type % 16 * 2 ^ 12 + b.cls % 4 * 2 ^ 16 + b.gen % 64 * 2 ^ 18 + b.flow % 256 * 2 ^ 24

/-- A block as it goes out: header, 64 bytes of payload, and the CRC-32C of both (R388). -/
def blockOut (p : Nat) (b : Block) : Emit :=
  let pl := padTo 64 b.payload
  .block p (blockHeader b) pl (crc32c (leBytes 4 (blockHeader b) ++ pl))

/-- The link does not carry a type of block: in the safe state only HELLO and ACK are sent (R428), and to a peer with another
NAME only those and LANE (R392). -/
def barred (s : State) (p type : Nat) : Bool :=
  type != 5 && type != 6 && (isSafe s || ((wvOf s p).rejected && type != 0xC))

def putOnLink (p : Nat) (b : Block) (s : State) : State := if barred s p b.type then s else emit (blockOut p b) s

def noteUnacked (p : Nat) (s : State) : State := wr (WVE_RETRY_LVL_TX_UNACK p) (wvOf s p).retry.length s

/-- Send a sequenced block: it takes the next SEQ and is held until it is acknowledged (R389, R390). -/
def sendNow (p : Nat) (b : Block) (s : State) : State :=
  let x := wvOf s p
  let b := { b with seq := x.nextSeq }
  s |> setWv p { x with nextSeq := (x.nextSeq + 1) % 4096, retry := x.retry ++ [(b, 0)] } |> putOnLink p b |> noteUnacked p

/-- (SEQ − oldest unacknowledged SEQ) mod 4,096 of the block that would be sent next (R390). -/
def seqSpan (x : WvSt) : Nat := match x.retry with | [] => 0 | r :: _ => (x.nextSeq + 4096 - r.1.seq % 4096) % 4096

/-- Send a sequenced block, or let it wait until the window of 512 lets it go (R390). -/
def sendBlock (p type cls flow : Nat) (payload : List Nat) (s : State) : State :=
  let b : Block := ⟨0, type, cls, generation s, flow, payload⟩
  let x := wvOf s p
  if barred s p type then s
  else if seqSpan x < 512 && x.waitQ.isEmpty then sendNow p b s else setWv p { x with waitQ := x.waitQ ++ [b] } s

/-- Send what waits while the window is open. One step to a block. -/
def drainWait (p : Nat) : Nat → State → State
  | 0, s => s
  | n + 1, s =>
    let x := wvOf s p
    match x.waitQ with
    | [] => s
    | b :: rest => if seqSpan x < 512 then drainWait p n (sendNow p b (setWv p { x with waitQ := rest } s)) else s

/-- Send a link-local block: neither numbered nor retransmitted (R389). -/
def sendLocal (p type : Nat) (payload : List Nat) (s : State) : State :=
  putOnLink p ⟨0, type, 3, generation s, 0, payload⟩ s

/-! ## Flows on the sending side (R397, R398) -/

/-- A flow number that is free on the sending side of a port. -/
def freeFlow (s : State) (p : Nat) : Option Nat :=
  (List.range 256).find? fun n => !s.outFlows.any fun f => f.port == p && f.flow == n

/-- The port towards a fabric ID: by the routes for class F, by the direct link for class L (R398). -/
def portTowards (s : State) (cls fid : Nat) : Option Nat :=
  if cls = 0 then (List.range 4).find? fun p => wvActive s p && isSet s (WVE_STAT_PEER_VALID p) && rd s (WVE_STAT_PEER_FID p) == fid
  else if isSet s (FAB_ROUTE_VALID fid) then some (rd s (FAB_ROUTE_PORT fid)) else none

/-- The payload of an OPEN block (R397). -/
def openPayload (dst src stream lineBytes lines width format : Nat) : List Nat :=
  [dst % 256, src % 256] ++ leBytes 2 stream ++ leBytes 4 lineBytes ++ leBytes 2 lines ++ leBytes 2 width ++ [format % 256, 0, 0, 0]
    ++ leBytes 4 (lines * lineBytes + 128)

def flowOf (s : State) (serial : Nat) : Option OutFlow := s.outFlows.find? fun f => f.serial == some serial

def putFlow (f : OutFlow) (s : State) : State :=
  { s with outFlows := s.outFlows.map fun g => if g.port = f.port ∧ g.flow = f.flow then f else g }

def dropFlow (p n : Nat) (s : State) : State := { s with outFlows := s.outFlows.filter fun g => !(g.port == p && g.flow == n) }

/-- Open a flow for an output frame; without a destination or a free flow its lines are lost (R398). -/
def weaveBegin (serial cls fid stream lineBytes lines width format : Nat) (s : State) : State :=
  match ownFid s, portTowards s cls fid with
  | some own, some p =>
    match freeFlow s p with
    | some n =>
      { s with outFlows := s.outFlows ++ [⟨p, n, cls, fid, some serial, [], 0, 0⟩] }
        |> sendBlock p 2 cls n (openPayload fid own stream lineBytes lines width format)
    | none => s
  | _, _ => inc FAB_CNT_NO_DEST s

/-- The first `n` whole blocks of a run of bytes. -/
def wholeBlocks : Nat → List Nat → List (List Nat)
  | 0, _ => []
  | n + 1, bs => bs.take 64 :: wholeBlocks n (bs.drop 64)

/-- Append stream bytes to a flow; whole blocks are sent as DATA. -/
def flowBytes (f : OutFlow) (bytes : List Nat) (s : State) : State :=
  let all := f.rest ++ bytes
  let n := all.length / 64
  let s := putFlow { f with rest := all.drop (64 * n), sent := f.sent + n, total := f.total + bytes.length } s
  (wholeBlocks n all).foldl (fun s b => sendBlock f.port 1 f.cls f.flow b s) s

/-- Flows open on a port. -/
def openFlows (s : State) (p : Nat) : Nat := (s.outFlows.filter fun f => f.port == p).length

/-- Offer a line to the flow of an output frame; false if it is lost: no flow, the port is not UP, or the retry buffer has
no room beside the 128 bytes kept for each frame begun (R216, R391). -/
def weaveLine (serial : Nat) (bytes : List Nat) (s : State) : State × Bool :=
  match flowOf s serial with
  | none => (s, false)
  | some f =>
    let n := (f.rest.length + bytes.length) / 64
    if wvUp s f.port && (wvOf s f.port).waitQ.isEmpty && decide (seqSpan (wvOf s f.port) + n + 2 * openFlows s f.port ≤ 512) then
      (flowBytes f bytes s, true)
    else (s, false)

/-- The end of an output frame's flow: trailer and tag, the last block padded with zeros, then END (R397). -/
def weaveEnd (serial : Nat) (tail : List Nat) (s : State) : State :=
  match flowOf s serial with
  | none => s
  | some f =>
    let s := flowBytes f tail s
    match flowOf s serial with
    | none => s
    | some f =>
      let last := !f.rest.isEmpty
      let s := if last then sendBlock f.port 1 f.cls f.flow f.rest s else s
      s |> sendBlock f.port 3 f.cls f.flow (leBytes 4 f.total ++ leBytes 4 (f.sent + bit last)) |> dropFlow f.port f.flow

/-! ## CSI-2 transmit ports (R228–R231) -/

def emptyTx : TxSt := ⟨[], [], false⟩
def txOf (s : State) (p : Nat) : TxSt := sget (fun _ => emptyTx) s.txs p
def setTx (p : Nat) (x : TxSt) (s : State) : State := { s with txs := sset (fun _ => emptyTx) s.txs p x }

/-- Bytes that a packet takes in the buffer: header and footer with it (R229). -/
def txCost (t : TxPkt) : Nat := if t.dt ≤ 1 then 4 else t.bytes.length + 6

def txLevel (s : State) (p : Nat) : Nat := ((txOf s p).queue.map txCost).sum

/-- The data type of an output format (R228). -/
def txDt (fmt : Nat) : Nat :=
  if fmt = 0 then 0x1E else if fmt = 1 then 0x1F else if fmt = 2 then 0x24 else if fmt = 4 then 0x2A
  else if fmt = 5 ∨ fmt = 6 then 0x2E else 0x27

/-- The bytes of a line as sent on the link, in groups of the given size (R228, R229). The fuel is the number of groups. -/
def txGroups (n : Nat) (g : List Nat → List Nat) : Nat → List Nat → List Nat
  | 0, _ => []
  | k + 1, bs => if bs.length < n then [] else g (bs.take n) ++ txGroups n g k (bs.drop n)

/-- A line's link bytes (R228): Cb, Y0, Cr, Y1; blue, green, red; the class of RAW24 dropped. -/
def txBytes (fmt : Nat) (bs : List Nat) : List Nat :=
  let b (l : List Nat) (i : Nat) : Nat := l.getD i 0
  if fmt = 0 then txGroups 4 (fun l => [b l 1, b l 0, b l 3, b l 2]) bs.length bs
  else if fmt = 1 then
    txGroups 8 (fun l => packGroup 0x2B [leAt l 2 2, leAt l 0 2, leAt l 6 2, leAt l 4 2]) bs.length bs
  else if fmt = 2 then txGroups 3 (fun l => [b l 2, b l 1, b l 0]) bs.length bs
  else if fmt = 7 then txGroups 4 (fun l => l.take 3) bs.length bs
  else bs

/-- The virtual channel of an output: its rank among the valid routes of the port (R229). -/
def txVc (s : State) (ep p o : Nat) : Nat :=
  ((List.range o).filter fun q => cfgE s ep (SEAM_ROUTE_W0_VALID q) == 1 && cfgE s ep (SEAM_ROUTE_W0_DEST_KIND q) == 1
    && cfgE s ep (SEAM_ROUTE_W0_DEST q) == p).length

def txPut (p : Nat) (t : TxPkt) (s : State) : State :=
  let x := txOf s p
  setTx p { x with queue := x.queue ++ [t] } s

def txEnabled (s : State) (p : Nat) : Bool := eff s (CTX2_CFG_ENABLE p) == 1

/-- The port begins a frame: frame start with frame number ALIVE (R229). -/
def txBegin (p serial vc alive : Nat) (s : State) : State :=
  if txEnabled s p && !(txOf s p).restarting then
    let x := txOf s p
    s |> setTx p { x with begun := x.begun ++ [serial] } |> txPut p ⟨vc, 0, leBytes 2 alive⟩
  else s

/-- Count a line that found no room (R230). -/
def txOverflow (p : Nat) (s : State) : State := s |> inc (CTX2_CNT_OVF p) |> wr (CTX2_EVT_OVF p) 1

/-- Offer a line; false if it is lost (R230): every line that arrives while the PHY restarts is (R22, R231). -/
def txLine (p serial vc dt : Nat) (bytes : List Nat) (s : State) : State × Bool :=
  let x := txOf s p
  if !txEnabled s p then (s, false)
  else if x.restarting || !x.begun.contains serial || decide (0x40000 < txLevel s p + bytes.length + 6 + 128 * x.begun.length) then (txOverflow p s, false)
  else (txPut p ⟨vc, dt, bytes⟩ s, true)

/-- The end of a frame: one packet of DT 0x12 with trailer and tag, then frame end (R229). -/
def txEnd (p serial vc alive : Nat) (tail : List Nat) (s : State) : State :=
  let x := txOf s p
  if x.begun.contains serial then
    s |> setTx p { x with begun := x.begun.filter (· != serial) } |> txPut p ⟨vc, 0x12, tail⟩ |> txPut p ⟨vc, 1, leBytes 2 alive⟩
  else s

end Sys2Proof.Machine
end

