-- ==== Sys2Proof/Machine/Seam.lean ====
section
/-! DEFINITION. The seam, frame tags, check units, hold rings, the class M hold-back and the CSI-2 transmit ports
(R140, R141, R209–R233, R408). -/

namespace Sys2Proof.Machine
open Sys2Proof

/-! ## Routes and geometry (R209, R210) -/

def routeOn (s : State) (ep o : Nat) : Bool := cfgE s ep (SEAM_ROUTE_W0_VALID o) == 1
def routeMode (s : State) (ep o : Nat) : Nat := cfgE s ep (SEAM_ROUTE_W0_MODE o)
def routeDest (s : State) (ep o : Nat) : Nat := cfgE s ep (SEAM_ROUTE_W0_DEST o)

/-- SRC0 … SRC(SOURCES − 1) of an output. -/
def routeSrcs (s : State) (ep o : Nat) : List Nat :=
  [cfgE s ep (SEAM_ROUTE_W1_SRC0 o), cfgE s ep (SEAM_ROUTE_W1_SRC1 o), cfgE s ep (SEAM_ROUTE_W2_SRC2 o),
    cfgE s ep (SEAM_ROUTE_W2_SRC3 o)].take (cfgE s ep (SEAM_ROUTE_W0_SOURCES o))

/-- The outputs that a context is a source of. -/
def routesOf (s : State) (ep c : Nat) : List Nat := (List.range 256).filter fun o => routeOn s ep o && (routeSrcs s ep o).contains c

/-- Where an output goes (R53). -/
def destOf (s : State) (ep o : Nat) : Dest :=
  let d := routeDest s ep o
  let k := cfgE s ep (SEAM_ROUTE_W0_DEST_KIND o)
  if k = 0 then .dma d else if k = 1 then .tx d else .weave (d % 32) (d / 32)

/-- A context whose frames go through as they came in (R126). -/
def passThrough (s : State) (ep c : Nat) : Bool := cfgE s ep (CTX_MODE c) == 1 && cfgE s ep (CTX_REMOTE c) == 0

def entriesFor (s : State) (ep c : Nat) : List Nat := entriesOfCtx s ep (cfgE s ep (CTX_PORT c)) c

/-- Width and height of a context's delivered frame (R210). -/
def frameSize (s : State) (ep c : Nat) : Nat × Nat :=
  if passThrough s ep c then
    (cfgE s ep (CTX_WIDTH c), ((entriesFor s ep c).map fun e => mapLines s ep (cfgE s ep (CTX_PORT c)) e).sum)
  else (cfgE s ep (CTX_CROP_W c), cfgE s ep (CTX_CROP_H c))

/-- Line bytes of a context's delivered frame (R243). -/
def lineBytesOf (s : State) (ep c : Nat) : Nat :=
  if passThrough s ep c then
    let p := cfgE s ep (CTX_PORT c)
    maxOf ((entriesFor s ep c).map fun e => packedBytes (mapDt s ep p e) (mapPixels s ep p e))
  else cfgE s ep (CTX_CROP_W c) * bytesPerPixel (cfgE s ep (CTX_OUT_FMT c))

/-- Width, height and line bytes of an output. -/
def outSize (s : State) (ep o : Nat) : Nat × Nat × Nat :=
  let srcs := routeSrcs s ep o
  let c := srcs.headD 0
  let bpp := bytesPerPixel (cfgE s ep (CTX_OUT_FMT c))
  if routeMode s ep o = 1 then
    let w := (srcs.map fun c => cfgE s ep (CTX_CROP_W c)).sum
    (w, cfgE s ep (CTX_CROP_H c), w * bpp)
  else if routeMode s ep o = 2 then
    let w := cfgE s ep (SEAM_REGION_SIZE_W o)
    (w, cfgE s ep (SEAM_REGION_SIZE_H o), w * bpp)
  else let z := frameSize s ep c; (z.1, z.2, lineBytesOf s ep c)

/-- OUT_FMT of an output, 0xF for pass-through (R218). -/
def outFormat (s : State) (ep c : Nat) : Nat := if passThrough s ep c then 0xF else cfgE s ep (CTX_OUT_FMT c)

/-! ## Class M (R405–R413) -/

def classM (s : State) (f : FrameSt) : Bool := cfgE s f.epoch RLY_CFG_ENABLE != 0 && cfgE s f.epoch (CTX_DCLASS f.ctx) == 2

/-- The frame goes into the hold ring and to no destination (R409). -/
def ringOnly (s : State) (f : FrameSt) : Bool := classM s f && notHolder s

/-! ## Hold rings (R140, R141) -/

/-- Slots that a replay reads. -/
def replayedSlots (s : State) (c : Nat) : List Nat :=
  [0, 1].filterMap fun p => match (hostPort s p).replay with
    | some (ctx, slot, _) => if ctx = c then some slot else none
    | none => none

/-- The slot that the next frame takes, if any is not being read. -/
def nextSlot (s : State) (c frames : Nat) : Option Nat :=
  ((List.range frames).map fun i => ((holdOf s c).next + i) % frames).find? fun n => !(replayedSlots s c).contains n

/-- Begin a frame in the ring; false if it is not held. -/
def holdBegin (c frames serial : Nat) (s : State) : State × Bool :=
  match nextSlot s c frames with
  | some n =>
    let x := holdOf s c
    (setHold c { next := (n + 1) % frames, held := x.held.filter fun h => h.slot != n, open_ := some (n, serial, [], []) } s, true)
  | none => (s, false)

def holdLine (c serial : Nat) (bytes : List Nat) (flags : Nat) (s : State) : State :=
  let x := holdOf s c
  match x.open_ with
  | some (n, k, ls, fs) => if k = serial then setHold c { x with open_ := some (n, k, ls ++ [bytes], fs ++ [flags]) } s else s
  | none => s

def holdEnd (c serial : Nat) (fin : FrameFinal) (trailer tag : List Nat) (lb : Nat) (isSealed : Bool) (s : State) : State :=
  let x := holdOf s c
  match x.open_ with
  | some (n, k, ls, fs) =>
    if k = serial then setHold c { x with held := x.held ++ [⟨n, fin, tag, ls, trailer, lb, isSealed, fs⟩], open_ := none } s else s
  | none => s

/-! ## Output frames -/

/-- The lowest-numbered single output of a context, whose tag its hold ring stores and whose running check PAYLOAD_CRC
mirrors (R227). -/
def singleOutput (s : State) (ep c : Nat) : Option Nat := (routesOf s ep c).find? fun o => routeMode s ep o == 0

/-- An output frame before its first line. -/
def emptyOut (s : State) (o mode : Nat) (dest : Dest) (f : FrameSt) (cs : List Nat) (size : Nat × Nat × Nat) : OutFrame :=
  let toTx := match dest with | .tx _ => true | _ => false
  { serial := s.nextOut, o, epoch := f.epoch, key := f.trig, mode, dest
    srcs := cs.map fun c => ⟨c, if c = f.ctx then some f.id else none, [], 0, none⟩
    next := 0, total := size.2.1, sealed := cfgE s f.epoch (CTX_SEAL (cs.headD 0)) == 1 && !toTx
    lb := size.2.2, width := size.1, crc := BitVec.ofNat 32 crc32cInit, len := 0, filled := 0, crcBad := 0, short := 0, long := 0
    inFail := 0, status := 0, lossSaid := false, alive := 0 }

/-- A composite of the output that still lacks the frame (R210, R214): that of the same trigger, or the oldest one. -/
def openComposite (s : State) (o : Nat) (f : FrameSt) : Option OutFrame :=
  s.outs.find? fun x => x.o == o && x.mode == 1 && x.epoch == f.epoch && x.key == f.trig
    && x.srcs.any fun p => p.ctx == f.ctx && p.frame.isNone && p.final.isNone

def addOut (x : OutFrame) (s : State) : State := { s with outs := s.outs ++ [x], nextOut := s.nextOut + 1 }

/-- The composite that a triggered frame belongs to has closed without it (R214). -/
def missedComposite (s : State) (o : Nat) (f : FrameSt) : Bool :=
  match f.trig with
  | some k => decide (k < sget (fun _ => 0) s.doneKeys o)
  | none => false

/-- A frame joins or begins its output frame of one route. -/
def joinOutput (f : FrameSt) (s : State) (o : Nat) : State :=
  let mode := routeMode s f.epoch o
  match (if mode = 1 then openComposite s o f else none) with
  | some x => putOut { x with srcs := x.srcs.map fun p => if p.ctx = f.ctx then { p with frame := some f.id } else p } s
  | none =>
    if mode = 1 && missedComposite s o f then s
    else
      let cs := if mode = 1 then routeSrcs s f.epoch o else [f.ctx]
      addOut (emptyOut s o mode (destOf s f.epoch o) f cs (outSize s f.epoch o)) s

/-- The frame's place in the hold ring of its context (R140). -/
def joinHold (f : FrameSt) (s : State) : State :=
  let n := cfgE s f.epoch (CTX_HOLD_FRAMES f.ctx)
  if n = 0 ∨ isSet s (CTX_FROZEN f.ctx) ∨ f.stored.isSome then s
  else
    let r := holdBegin f.ctx n s.nextOut s
    if r.2 then
      let z := frameSize s f.epoch f.ctx
      addOut (emptyOut r.1 ((singleOutput s f.epoch f.ctx).getD 0) 0 (.hold f.ctx) f [f.ctx] (z.1, z.2, lineBytesOf s f.epoch f.ctx)) r.1
    else r.1

/-- A frame enters the seam: its hold ring, and every output that it feeds. -/
def joinAll (f : FrameSt) (s : State) : State :=
  let s := joinHold f s
  if ringOnly s f then s else (routesOf s f.epoch f.ctx).foldl (joinOutput f) s

/-! ## Lines to destinations (R216, R217) -/

def srcCtx (x : OutFrame) : Nat := match x.srcs.head? with | some p => p.ctx | none => 0

/-- Alive counter of an output frame: that of SRC0's frame; 0 if ALIVE_EN is 0 (R218, R219). -/
def outAlive (s : State) (x : OutFrame) : Nat :=
  match x.srcs.head? with
  | some p =>
    if cfgE s x.epoch (CTX_ALIVE_EN p.ctx) = 0 then 0
    else match p.final with
      | some f => f.alive
      | none => match p.frame.bind (frameById s) with | some f => f.alive.getD 0 | none => 0
  | none => 0

/-- The destination begins a frame. -/
def beginDest (x : OutFrame) (s : State) : State :=
  let s := putOut { x with alive := outAlive s x } s
  match x.dest with
  | .dma c =>
    let pitch := pitchOf (cfgE s x.epoch (DMX_CH_DEF_PITCH_SHIFT c)) x.lb x.sealed
    let d (r : Nat → RF) : Nat := cfgE s x.epoch (r c)
    chanBegin c x.serial x.o (footprint pitch x.total) pitch (d DMX_CH_DEF_LIST_MAX)
      (attrOf (d DMX_CH_DEF_RO_DATA) (d DMX_CH_DEF_NS) (d DMX_CH_DEF_TC)) s
  | .tx p => txBegin p x.serial (txVc s x.epoch p x.o) (outAlive s x) s
  | .weave fid stream =>
    let cls := if cfgE s x.epoch (CTX_DCLASS (srcCtx x)) = 0 then 0 else 1
    weaveBegin x.serial cls fid stream (x.lb + 8 * bit x.sealed) x.total x.width
      (outFormat s x.epoch (srcCtx x) + 16 * bit x.sealed) s
  | .hold _ => s

/-- Offer a line to its destination; false if it is lost. -/
def offer (x : OutFrame) (bytes : List Nat) (flags : Nat) (s : State) : State × Bool :=
  match x.dest with
  | .dma c => chanLine c x.serial x.next bytes s
  | .tx p => txLine p x.serial (txVc s x.epoch p x.o) (txDt (outFormat s x.epoch (srcCtx x))) bytes s
  | .weave _ _ => weaveLine x.serial bytes s
  | .hold c => (holdLine c x.serial bytes flags s, true)

def chkErr (code o c : Nat) : ErrInfo := { unit := uCHK, inst := 0, code, info := o * 2 ^ 23 + c * 2 ^ 9, arg1 := c }

/-- The two engines disagree on a check value of an output (R227); repeated mismatches wear an engine (R417). -/
def engineMismatch (x : OutFrame) (s : State) : State :=
  s |> inc CHK_ENG_CNT_MISMATCH |> inc CHK_ENG_CNT_POISONED |> recordError ((chkErr 1 x.o (srcCtx x)).setting CHK_EVT_ENG_MISMATCH)
    |> noteWear 6 (Config.badEngine % 2) 0 0 1

/-- A check value as inserted: XORed with ones if the engines disagree (R227). -/
def inserted (v : Nat) (poisoned : Bool) : Nat := if poisoned then Nat.xor v 0xFFFFFFFF else v

/-- The line seal (R222). -/
def lineSeal (j flags : Nat) (px : List Nat) (poisoned : Bool) : List Nat :=
  leBytes 2 j ++ [flags % 32, 0] ++ leBytes 4 (inserted (crc32c px) poisoned)

/-- The output frame with one more line counted (R223). -/
def countLine (x : OutFrame) (flags : Nat) (stream : List Nat) : OutFrame :=
  { x with
    next := x.next + 1, crc := BitVec.ofNat 32 (crc32cRun x.crc.toNat stream), len := x.len + stream.length
    filled := x.filled + bit (hasBit flags 0), short := x.short + bit (hasBit flags 1), long := x.long + bit (hasBit flags 2)
    crcBad := x.crcBad + bit (hasBit flags 3), inFail := x.inFail + bit (hasBit flags 4) }

/-- The seam emits the next line of an output frame (R213, R216, R217). -/
def emitLine (serial : Nat) (bytes : List Nat) (flags : Nat) (poisoned : Bool) (s : State) : State :=
  match outBySerial s serial with
  | none => s
  | some x =>
    let s := if x.next = 0 then beginDest x s else s
    let fmt := outFormat s x.epoch (srcCtx x)
    let line := match x.dest with | .tx _ => txBytes fmt bytes | _ => bytes
    let bad := poisoned && x.sealed
    let stream := if x.sealed then line ++ lineSeal x.next flags line bad else line
    let s := if bad then engineMismatch x s else s
    let r := offer x stream flags s
    let s := if r.2 then r.1 else seamLoss x.o serial 1 r.1
    match outBySerial s serial with
    | none => s
    | some y =>
      let y := countLine y flags stream
      let s := putOut y s
      if x.mode = 0 && (singleOutput s x.epoch (srcCtx x)) == some x.o then
        match x.dest with | .hold _ => s | _ => wr (CTX_PAYLOAD_CRC (srcCtx x)) y.crc.toNat s
      else s

/-- A source's part of line `j`, if it has come. -/
def partLine (p : SrcPart) (j : Nat) : Option OutLine := p.buf.find? fun l => l.j == j

/-- Seam fill of a source (R215). -/
def fillPart (s : State) (x : OutFrame) (p : SrcPart) (j : Nat) : List Nat :=
  seamFill s (newFrame 0 p.ctx 0 x.epoch 0 0 0 0 none []) j

/-- The next line of an output frame: its bytes and status bits; none while some source's part is still awaited, unless
`fill` lets the seam go on without (R213). The third part says that some part was filled. -/
def nextLine (s : State) (x : OutFrame) (fill : Bool) : Option (List Nat × Nat × Bool) :=
  let j := x.next
  let parts := x.srcs.map fun p => (p, partLine p j)
  let missing := parts.any fun q => q.2.isNone
  let lag := x.srcs.any fun p => p.buf.any fun l => decide (j + 16 ≤ l.j)
  if x.total ≤ j ∨ (missing ∧ !fill ∧ !lag) then none
  else
    let bytes := parts.flatMap fun q => match q.2 with | some l => l.bytes | none => fillPart s x q.1 j
    let flags := parts.foldl (fun a q => match q.2 with | some l => a ||| l.flags | none => a ||| 1) 0
    some (bytes, flags, missing)

/-- Count a composite line with a filled part (R213). -/
def countLag (x : OutFrame) (s : State) : State :=
  s |> inc SEAM_CNT_COMP_LAG |> recordError ((seamErr 1 x.o (srcCtx x)).setting SEAM_EVT_COMP_LAG)
    |> putOut { x with status := x.status ||| 128 }

/-- Emit every line that is due; one round to a line. -/
def emitDue (serial : Nat) (fill : Bool) (bad : List Nat) : Nat → State → State
  | 0, s => s
  | n + 1, s =>
    match outBySerial s serial with
    | none => s
    | some x =>
      match nextLine s x fill with
      | none => s
      | some (bytes, flags, filled) =>
        let s := putOut { x with srcs := x.srcs.map fun p => { p with buf := p.buf.filter fun l => decide (x.next < l.j) } } s
        let s := if filled then match outBySerial s serial with | some y => countLag y s | none => s else s
        emitDue serial fill bad n (emitLine serial bytes flags (bad.contains x.o) s)

/-- The part of a delivered line that an output takes: all of it, or its region (R210). -/
def regionOf (s : State) (x : OutFrame) (l : OutLine) : Option OutLine :=
  if x.mode = 2 then
    let bpp := bytesPerPixel (cfgE s x.epoch (CTX_OUT_FMT (srcCtx x)))
    let y := cfgE s x.epoch (SEAM_REGION_ORG_Y x.o)
    if y ≤ l.j ∧ l.j < y + x.total then
      some ⟨l.j - y, slice l.bytes (cfgE s x.epoch (SEAM_REGION_ORG_X x.o) * bpp) (x.width * bpp), l.flags⟩
    else none
  else some l

/-- A line of a frame comes to one output frame; a line that was filled already is discarded (R213). -/
def lineToOut (id : Nat) (l : OutLine) (bad : List Nat) (s : State) (serial : Nat) : State :=
  match outBySerial s serial with
  | none => s
  | some x =>
    let add (p : SrcPart) : SrcPart :=
      if p.frame = some id then
        match regionOf s x l with
        | some m => { p with got := p.got + 1, buf := if m.j < x.next then p.buf else p.buf ++ [m] }
        | none => { p with got := p.got + 1 }
      else p
    emitDue serial false bad (x.total + 1) (putOut { x with srcs := x.srcs.map add } s)

/-- The output frames that a frame feeds. -/
def outsOf (s : State) (id : Nat) : List Nat :=
  (s.outs.filter fun x => x.srcs.any fun p => p.frame == some id).map (·.serial)

/-- A line goes to every output frame of its frame. -/
def distribute (id : Nat) (l : OutLine) (bad : List Nat) (s : State) : State := (outsOf s id).foldl (lineToOut id l bad) s

/-! ## Class M frames at the seam (R408) -/

/-- The DELIVER of a frame (R407). -/
def deliverPayload (s : State) (f : FrameSt) (sync : Bool) : List Nat :=
  let live (r : Nat → RF) : List Nat := leBytes 4 (sget (regReset s.chip) s.liveA (r f.ctx).addr).toNat
  let vc := match f.parts.head? with | some x => mapVc s f.epoch f.port x.e | none => 0
  [2, bit sync] ++ leBytes 2 f.ctx ++ leBytes 4 f.fc ++ leBytes 2 (f.alive.getD 0) ++ [f.port % 256, vc % 256] ++ leBytes 4 f.capNs
    ++ live CTX_WB_GAIN0 ++ live CTX_WB_GAIN2 ++ live CTX_DGAIN ++ live CTX_EXP_TIME

def relayPort (s : State) : Nat := act s RLY_CFG_PORT
def role (s : State) : Nat := rd s RLY_STAT_ROLE

/-- A RELAY block goes out on the relay port while its link is ACTIVE (R392, R403). -/
def sendRelay (payload : List Nat) (s : State) : State :=
  if wvActive s (relayPort s) then sendBlock (relayPort s) 0xA 2 0 payload s else s

/-- Drive RLY_FENCE_O_N (R410). -/
def driveFence (low : Bool) (s : State) : State :=
  let s := { s with pins := { s.pins with fenceLow := low } } |> wr RLY_STAT_FENCE_OUT (bit low)
  setPin pinFence 0 (bit (!low)) s

/-- Lines held back for a frame go to their destinations. -/
def releaseMirror (s : State) (m : Mirror) : State :=
  m.lines.foldl (fun s l => distribute m.frame l [] s) { s with rly := { s.rly with mirrors := s.rly.mirrors.filter fun x => x.frame != m.frame } }

/-- The primary loses its mirror and enters SOLO (R408). -/
def enterSolo (s : State) : State :=
  let ms := s.rly.mirrors
  let s := { s with rly := { s.rly with asHolder := true } }
  let s := s |> wr RLY_STAT_ROLE 3 |> inc RLY_CNT_SOLO |> driveFence true |> recordError ((rlyErr 2).setting RLY_EVT_MIRROR_LOST)
  ms.foldl releaseMirror s

/-- Bytes held in the relay buffer. -/
def mirrored (s : State) : Nat := ((s.rly.mirrors.flatMap (·.lines)).map fun l => l.bytes.length).sum

/-- The first line of a class M frame enters the holder's seam: its DELIVER goes out (R408). -/
def sendDeliver (f : FrameSt) (s : State) : State :=
  let pl := deliverPayload s f false
  let s := { s with rly := { s.rly with
    delivered := sset (fun _ => 0) s.rly.delivered f.ctx (f.fc * 2 ^ 16 + f.alive.getD 0)
    lastSent := sset (fun _ => []) s.rly.lastSent f.ctx pl } }
  let s := sendRelay pl s
  if role s = 1 then { s with rly := { s.rly with mirrors := s.rly.mirrors ++ [⟨f.id, pl, []⟩] } } else s

/-- A line of a frame: held back while its DELIVER waits for its acknowledgement, else distributed. -/
def passOrHold (f : FrameSt) (l : OutLine) (bad : List Nat) (s : State) : State :=
  if s.rly.mirrors.any fun m => m.frame == f.id then
    if 0x100000 < mirrored s + l.bytes.length then distribute f.id l bad (enterSolo s)
    else
      { s with rly := { s.rly with mirrors := s.rly.mirrors.map fun m =>
          if m.frame = f.id then { m with lines := m.lines ++ [l] } else m } }
  else distribute f.id l bad s

/-! ## SEAM_LINE -/

/-- The frame of a context whose lines enter the seam: the oldest admitted one whose tag is still due. -/
def atSeam (s : State) (c : Nat) : Option FrameSt := s.frames.find? fun f => f.ctx == c && f.adm == .admitted && !f.ended

/-- ALIVE + 1, wrapping from 0xFFFF to 1 (R225). -/
def nextAlive (a : Nat) : Nat := if a = 0xFFFF then 1 else a + 1

/-- The last delivered FRAME_CNT of a context (R409). -/
def lastDelivered (s : State) (c : Nat) : Nat := sget (fun _ => 0) s.rly.delivered c / 2 ^ 16

/-- The first frame after a baton does not follow the last delivered one (R412). -/
def gapAfterBaton (s : State) (f : FrameSt) : Bool :=
  classM s f && isSet s (CTX_PEND_BATON f.ctx) && f.fc != u32 (lastDelivered s f.ctx + 1)

/-- The first line of a frame enters the seam (R225, R408, R412). -/
def enterSeam (f : FrameSt) (s : State) : State :=
  if ringOnly s f then joinAll f s
  else
    let a := nextAlive (rd s (CTX_ALIVE f.ctx))
    let f := { f with alive := some a, status := if gapAfterBaton s f then f.status ||| 8 else f.status }
    let s := s |> putFrame f |> wr (CTX_ALIVE f.ctx) a |> joinAll f
    if classM s f then sendDeliver f s else s

/-- An incoming line whose LINE_CRC was wrong (R226). -/
def sealFailed (f : FrameSt) (s : State) : State :=
  s |> inc CHK_IN_CNT_SEAL |> recordError ((chkErr 3 0 f.ctx).setting CHK_EVT_IN_SEAL)
    |> fun s => match frameById s f.id with | some g => putFrame { g with status := g.status ||| 64 } s | none => s

/-- SEAM_LINE (R210): the next line of the context enters the seam; `bad` lists the outputs whose engines disagree. -/
def doSeamLine (c : Nat) (bad : List Nat) (s : State) : State :=
  match atSeam s c with
  | none => s
  | some f =>
    match f.outq with
    | [] => s
    | l :: rest =>
      if classM s f && s.rly.offered && f.entered == 0 then s
      else
        let f' := { f with outq := rest, entered := f.entered + 1 }
        let s := s |> putFrame f' |> wr (CTX_LINES_OUT c) f'.entered
        let s := if f.entered = 0 then enterSeam f' s else s
        let s := if hasBit l.flags 4 then sealFailed f s else s
        passOrHold f' l bad s

def execSeamLine (c : Nat) (bad : List Nat) (s : State) : Host.Outcome State Fault Refusal := .next (doSeamLine c bad s)

/-! ## Tag and trailer (R217–R223) -/

/-- Where the frame was captured: own fabric ID, or the sender's with bit 7 (R218, R226). -/
def originOf (s : State) (f : FrameSt) : Nat := if f.incoming.isSome then f.origin else (ownFid s).getD 0

/-- The tag fields of a frame as they stand, with the bits that are due in its context's next tag (R133, R399, R412). -/
def finalOf (s : State) (f : FrameSt) : FrameFinal :=
  { ctx := f.ctx, epoch := match f.stored with | some x => x.2 | none => f.epoch, fc := f.fc
    alive := f.alive.getD 0, cap := f.capNs, mid := f.midNs, motion := f.motion
    status := f.status ||| (8 * rd s (CTX_PEND_DROPPED f.ctx)) ||| (16 * rd s (CTX_PEND_GAP f.ctx)) ||| (32 * rd s (CTX_PEND_BATON f.ctx))
    lines := f.linesIn, refused := rd s (CTX_REFUSE_RUN f.ctx), port := f.port, origin := originOf s f }

/-- A source whose frame never starts (R214). -/
def neverStarted (x : OutFrame) (p : SrcPart) : FrameFinal := ⟨p.ctx, x.epoch, 0, 0, 0, 0, none, 1, 0, 0, 0, 0⟩

/-- STATUS of an output's tag (R219, R220): bits 0–7 of every source, bits 9 and 10 of SRC0, and the output's own. -/
def outStatus (x : OutFrame) (fs : List FrameFinal) : Nat :=
  let all := fs.foldl (fun a f => a ||| f.status % 256) 0
  let one := match fs.head? with | some f => f.status / 512 % 4 * 512 | none => 0
  all ||| one ||| x.status

/-- The tag without its check (R218, R219). -/
def tagBody (s : State) (x : OutFrame) (fs : List FrameFinal) : List Nat :=
  let z := fs.headD (neverStarted x ⟨srcCtx x, none, [], 0, none⟩)
  let alive := if cfgE s x.epoch (CTX_ALIVE_EN z.ctx) = 0 then 0 else z.alive
  let m := z.motion.getD ⟨0, 0, 0, 0⟩
  let ok (b : Nat) : Bool := hasBit m.flags b
  let fc (i : Nat) : List Nat := leBytes 4 (if x.mode = 1 then (match fs[i]? with | some f => f.fc | none => 0) else 0)
  leBytes 2 (z.ctx % 2 ^ 14 + x.mode * 2 ^ 14) ++ leBytes 2 z.epoch ++ leBytes 4 z.fc ++ leBytes 2 alive
    ++ [x.o % 256, outFormat s x.epoch z.ctx + 16 * bit x.sealed] ++ leBytes 4 z.cap ++ leBytes 4 z.mid
    ++ leBytes 4 (if ok 0 then m.wheel else 0) ++ leBytes 3 (if ok 1 then unsgn 24 m.speed else 0) ++ [m.flags % 32]
    ++ leBytes 2 (if ok 2 then unsgn 16 m.steer else 0) ++ leBytes 2 (outStatus x fs)
    ++ leBytes 2 (fs.foldl (fun a f => min a f.lines) z.lines) ++ leBytes 2 x.total ++ leBytes 2 x.width
    ++ [z.refused % 256, z.origin % 256, z.port % 256, 0, 0, 0] ++ fc 1 ++ fc 2 ++ fc 3 ++ [0, 0, 0, 0]

/-- The tag (R218); TAG_CRC is poisoned if the engines disagree. -/
def tagBytes (s : State) (x : OutFrame) (fs : List FrameFinal) (poisoned : Bool) : List Nat :=
  let b := tagBody s x fs
  b ++ leBytes 4 (inserted (crc32c b) poisoned)

/-- The trailer (R223). -/
def trailerBytes (s : State) (x : OutFrame) (fs : List FrameFinal) (endNs : Nat) (badPayload badTrailer : Bool) : List Nat :=
  let z := fs.headD (neverStarted x ⟨srcCtx x, none, [], 0, none⟩)
  let alive := if cfgE s x.epoch (CTX_ALIVE_EN z.ctx) = 0 then 0 else z.alive
  let b := leBytes 2 (z.ctx % 2 ^ 14 + x.mode * 2 ^ 14) ++ leBytes 2 alive ++ leBytes 4 z.fc ++ leBytes 4 x.len ++ leBytes 2 x.total
    ++ leBytes 2 x.filled ++ leBytes 2 x.crcBad ++ leBytes 2 x.short ++ leBytes 2 x.long ++ leBytes 2 x.inFail ++ leBytes 4 endNs
    ++ leBytes 4 (inserted (crc32cEnd x.crc.toNat) badPayload) ++ List.replicate 28 0
  b ++ leBytes 4 (inserted (crc32c b) badTrailer)

/-- Trailer and tag of an output frame whose last line has been emitted go to its destination (R217). `bad` lists outputs
and the check value on which the engines disagree: 0 PAYLOAD_CRC, 1 TRAILER_CRC, 2 TAG_CRC. -/
def closeOut (bad : List (Nat × Nat)) (x : OutFrame) (s : State) : State :=
  let fs := x.srcs.map fun p => p.final.getD (neverStarted x p)
  let isHold := match x.dest with | .hold _ => true | _ => false
  let poison (v : Nat) : Bool := !isHold && bad.contains (x.o, v)
  let frame := (x.srcs.head?.bind (·.frame)).bind (frameById s)
  let endNs := match frame.bind (·.stored) with | some e => e.1 | none => timeNs s
  let trailer := trailerBytes s x fs endNs (poison 0) (poison 1)
  let tag := tagBytes s x fs (poison 2)
  let s := [0, 1, 2].foldl (fun s v => if poison v then engineMismatch x s else s) s
  let s := { s with outs := s.outs.filter fun y => y.serial != x.serial }
  let s := if isHold then s else incWrap (SEAM_OUT_FRAMES_COUNT x.o) s
  let s := match x.mode, x.key with
    | 1, some k => { s with doneKeys := sset (fun _ => 0) s.doneKeys x.o (max (k + 1) (sget (fun _ => 0) s.doneKeys x.o)) }
    | _, _ => s
  match x.dest with
  | .dma c => chanEnd c x.serial trailer tag s
  | .tx p => txEnd p x.serial (txVc s x.epoch p x.o) x.alive (trailer ++ tag) s
  | .weave _ _ => weaveEnd x.serial (trailer ++ tag) s
  | .hold c => holdEnd c x.serial (fs.headD (neverStarted x ⟨c, none, [], 0, none⟩)) trailer tag x.lb x.sealed s

/-- Every source has ended and every line has been emitted. -/
def complete (x : OutFrame) : Bool := decide (x.total ≤ x.next) && x.srcs.all fun p => p.final.isSome

/-- Close the complete output frames; frames whose last output has closed have left the device (R80). -/
def closeComplete (bad : List (Nat × Nat)) (s : State) : State :=
  let s := (s.outs.filter complete).foldl (fun s x => closeOut bad x s) s
  let gone (f : FrameSt) : Bool := f.ended && (outsOf s f.id).isEmpty
  let s := { s with frames := s.frames.map fun f => if gone f then { f with gone := true } else f }
  checkSwap (sweepFrames s)

/-! ## Ingress checks (R226) -/

/-- STATUS bits that a good incoming tag gives. -/
def takenStatus : Nat := 0x6BF

/-- Motion fields of an incoming tag. -/
def tagMotion (t : List Nat) : Motion := ⟨leAt t 0x14 4, sgn 24 (leAt t 0x18 3), sgn 16 (leAt t 0x1C 2), leAt t 0x1B 1⟩

def tagGood (t : List Nat) : Bool := leAt t 0x3C 4 == crc32c (t.take 0x3C)

/-- The incoming tag's own check. -/
def checkTag (f : FrameSt) (t : Option (List Nat)) (s : State) : FrameSt × State :=
  match t with
  | some b =>
    if tagGood b then
      ({ f with fc := leAt b 4 4, capNs := leAt b 0xC 4, midNs := leAt b 0x10 4, motion := some (tagMotion b), port := leAt b 0x28 1
                status := f.status ||| (leAt b 0x1E 2 &&& takenStatus) }, s)
    else
      ({ f with capNs := 0, midNs := 0, motion := none, status := f.status ||| 64 },
        s |> inc CHK_IN_CNT_TAG |> recordError ((chkErr 2 0 f.ctx).setting CHK_EVT_IN_TAG))
  | none => ({ f with capNs := 0, midNs := 0, motion := none }, s)

/-- Tag and trailer present and in agreement. -/
def checkFormat (i : Incoming) (f : FrameSt) (s : State) : FrameSt × State :=
  let same := match i.tag, i.trailer with
    | some t, some r => leAt t 0 2 == leAt r 0 2 && leAt t 8 2 == leAt r 2 2 && leAt t 4 4 == leAt r 4 4
    | _, _ => false
  if same then (f, s)
  else ({ f with status := f.status ||| 64 },
    s |> inc CHK_IN_FMT_FORMAT |> recordError ((chkErr 6 0 f.ctx).setting CHK_EVT_IN_FORMAT))

def checkPayload (i : Incoming) (f : FrameSt) (s : State) : FrameSt × State :=
  match i.trailer with
  | some r =>
    if leAt r 0x1C 4 = crc32cEnd i.crc.toNat then (f, s)
    else ({ f with status := f.status ||| 64 },
      s |> inc CHK_IN_CNT_PAYLOAD |> recordError ((chkErr 4 0 f.ctx).setting CHK_EVT_IN_PAYLOAD))
  | none => (f, s)

/-- The incoming alive counter: a gap is DROPPED_PREV, a repeat CHECK_IN_FAIL. -/
def checkAlive (i : Incoming) (f : FrameSt) (s : State) : FrameSt × State :=
  match i.tag with
  | some t =>
    let a := leAt t 8 2
    let prev := sget (fun _ => 0) s.inAlive f.ctx
    if a = 0 ∨ prev = 0 ∨ a = nextAlive prev then (f, s)
    else ({ f with status := f.status ||| (if a = prev then 64 else 8) },
      s |> inc CHK_IN_CNT_ALIVE |> recordError ((chkErr 5 0 f.ctx).setting CHK_EVT_IN_ALIVE))
  | none => (f, s)

/-- INGRESS_CHECK: what the incoming tag and trailer say of a REMOTE frame. -/
def ingressCheck (f : FrameSt) (s : State) : FrameSt × State :=
  match f.incoming with
  | none => (f, s)
  | some i =>
    let check := cfgE s f.epoch (CTX_IN_CHECK f.ctx) = 1
    let r := checkTag f i.tag s
    let r := checkFormat i r.1 r.2
    let r := if check then checkPayload i r.1 r.2 else r
    let r := if check then checkAlive i r.1 r.2 else r
    match i.tag with
    | some t => (r.1, { r.2 with inAlive := sset (fun _ => 0) r.2.inAlive f.ctx (leAt t 8 2) })
    | none => r

/-! ## SEAM_FRAME_END -/

/-- Every line of the frame has entered the seam and it will get no more. -/
def allEntered (s : State) (f : FrameSt) : Bool :=
  !f.isOpen && f.arriving.isEmpty && f.outq.isEmpty && decide (0 < f.entered)
    && !(s.rly.mirrors.any fun m => m.frame == f.id)
    && (f.stored.isSome || !processedIn s.chip (bankOf s f.epoch) f.ctx || decide (ctxF s f CTX_HEIGHT ≤ f.begun))
    && !(s.running.any fun r => r.frame == f.id)

/-- The frame's own fields at its delivery. -/
def deliverFrame (f : FrameSt) (s : State) : State :=
  let c := f.ctx
  s |> wr (CTX_PEND_DROPPED c) 0 |> wr (CTX_PEND_GAP c) 0 |> wr (CTX_PEND_BATON c) 0 |> wr (CTX_REFUSE_RUN c) 0
    |> wr (CTX_LAST_FC c) f.fc |> incWrap (CTX_FRAMES_DONE c)

/-- A BATON record (R407). -/
def sendBaton (kind : Nat) (s : State) : State := sendRelay ([4, kind] ++ leBytes 2 (rd s RLY_STAT_BATON_GEN)) s

/-- Once the frames already DELIVERed have been delivered, the old holder commits the hand-over (R413). -/
def commitBaton (s : State) : State :=
  if s.rly.offered && role s == 1 && !(s.frames.any fun f => classM s f && decide (0 < f.entered) && inFlight f) then
    { s with rly := { s.rly with offered := false } } |> sendBaton 2 |> wr RLY_STAT_ROLE 2
  else s

/-- The context has begun another frame since. -/
def newerFrame (s : State) (f : FrameSt) : Bool := s.frames.any fun g => g.ctx == f.ctx && !g.gone && decide (f.id < g.id) && !g.ended

/-- FSTATE after a frame's end: idle, unless a frame of the context that has not ended has set it (R124). -/
def endFstate (c : Nat) (s : State) : State :=
  if s.frames.any fun g => g.ctx == c && !g.ended && !g.gone then s else wr (CTX_FSTATE c) 0 s

/-- SEAM_FRAME_END (R217): the context's frame at the seam ends. -/
def doSeamFrameEnd (c : Nat) (bad : List (Nat × Nat)) (s : State) : State :=
  match atSeam s c with
  | none => s
  | some f =>
    if allEntered s f then
      let r := ingressCheck f s
      let f := { r.1 with ended := true }
      let s := putFrame f r.2
      let fin := finalOf s f
      let mark (p : SrcPart) : SrcPart := if p.frame = some f.id then { p with final := some (p.final.getD fin) } else p
      let s := { s with outs := s.outs.map fun x => { x with srcs := x.srcs.map mark } }
      let s := if f.alive.isNone then s else deliverFrame f s
      s |> endFstate c |> closeComplete bad |> commitBaton
    else if !f.isOpen && f.outq.isEmpty && !newerFrame s f then wr (CTX_FSTATE c) 3 s
    else s

def execSeamFrameEnd (c : Nat) (bad : List (Nat × Nat)) (s : State) : Host.Outcome State Fault Refusal :=
  .next (doSeamFrameEnd c bad s)

/-! ## COMPOSITE_WAIT_EXPIRE (R214) -/

/-- A composite of the output waits for a lagging source: some source has delivered its last line, and of the others at most one
is still delivering. A source whose frame has not started delivers nothing (log entry 87). -/
def waitsFor (x : OutFrame) : Bool :=
  let late := x.srcs.filter fun p => decide (p.got < x.total)
  x.mode == 1 && !late.isEmpty && (x.srcs.any fun p => decide (x.total ≤ p.got))
    && decide ((late.filter fun p => p.frame.isSome).length ≤ 1)

/-- The seam stops waiting: the lagging sources' parts are filled, and their tag fields are taken as they stand. -/
def doCompositeWaitExpire (o : Nat) (s : State) : State :=
  match s.outs.find? fun x => x.o == o && waitsFor x with
  | none => s
  | some x =>
    let give (p : SrcPart) : SrcPart :=
      if p.got < x.total then
        { p with final := match p.frame.bind (frameById s) with | some f => some (finalOf s f) | none => some (neverStarted x p) }
      else p
    s |> putOut { x with srcs := x.srcs.map give } |> emitDue x.serial true [] (x.total + 1) |> closeComplete []

def execCompositeWaitExpire (o : Nat) (s : State) : Host.Outcome State Fault Refusal := .next (doCompositeWaitExpire o s)

/-! ## Hold rings' commands (R141) -/

def ctxHere (s : State) (c : Nat) : Bool := decide (c < ctxCount s.variant)

def doHoldFreeze (c : Nat) (s : State) : State :=
  if ctxHere s c && decide (0 < act s (CTX_HOLD_FRAMES c)) then wr (CTX_FROZEN c) 1 s else s

def execHoldFreeze (c : Nat) (s : State) : Host.Outcome State Fault Refusal := .next (doHoldFreeze c s)

def doHoldRelease (c : Nat) (s : State) : State :=
  if ctxHere s c && decide (0 < act s (CTX_HOLD_FRAMES c)) then wr (CTX_FROZEN c) 0 s else s

def execHoldRelease (c : Nat) (s : State) : Host.Outcome State Fault Refusal := .next (doHoldRelease c s)

/-! ## CSI-2 transmit ports (R228–R231) -/

def txHere (s : State) (p : Nat) : Bool := decide (p < 2) && txPresent s.variant p

/-- The configuration of a transmit port in effect becomes that of its island's epoch (R231). -/
def applyTx (p : Nat) (s : State) : State :=
  let a := (CTX2_CFG_ALL p).addr
  let w := bankWord s.chip (bankOf s (islandEpoch s islTX)) a
  let old := bankWord s.chip s.cfgX a
  let relink := fld old 31 16 != fld w 31 16 || fld old 4 1 != fld w 4 1
  let s := { s with cfgX := sset (regReset s.chip) s.cfgX a w }
  let on := fld w 0 0 == 1
  let x := txOf s p
  let s := setTx p { x with restarting := on && (relink || x.restarting || fld old 0 0 == 0) } s
  wr (CTX2_STAT_ACTIVE p) (bit (on && !(txOf s p).restarting)) s

/-- CSI2_TX_CONFIG_APPLY (R231): at the first moment between frames on every VC. -/
def doCsi2TxConfigApply (p : Nat) (s : State) : State :=
  let x := txOf s p
  if txHere s p && x.begun.isEmpty && x.queue.isEmpty then applyTx p s else s

def execCsi2TxConfigApply (p : Nat) (s : State) : Host.Outcome State Fault Refusal := .next (doCsi2TxConfigApply p s)

/-- CSI2_PHY_RESTART_DONE (R231). -/
def doCsi2PhyRestartDone (p : Nat) (s : State) : State :=
  let x := txOf s p
  if txHere s p && x.restarting then s |> setTx p { x with restarting := false } |> wr (CTX2_STAT_ACTIVE p) 1 else s

def execCsi2PhyRestartDone (p : Nat) (s : State) : Host.Outcome State Fault Refusal := .next (doCsi2PhyRestartDone p s)

/-- CSI2_TX_PACKET_SENT (R228–R230): the oldest packet leaves the buffer; a frame end completes a frame. -/
def doCsi2TxPacketSent (p : Nat) (s : State) : State :=
  let x := txOf s p
  match x.queue with
  | [] => s
  | t :: rest =>
    if txHere s p && !x.restarting && txEnabled s p then
      let s := s |> setTx p { x with queue := rest } |> emit (.csi2 p t.vc t.dt t.bytes)
      if t.dt = 1 then inc (CTX2_CNT_FRAMES p) s else s
    else s

def execCsi2TxPacketSent (p : Nat) (s : State) : Host.Outcome State Fault Refusal := .next (doCsi2TxPacketSent p s)

end Sys2Proof.Machine
end

