-- ==== Sys2Proof/Machine/Fabric.lean ====
section
/-! DEFINITION. Weave lanes, links, retransmission, roll call, routes and generations (R384–R398). -/

namespace Sys2Proof.Machine
open Sys2Proof

def wvHere (s : State) (p : Nat) : Bool := decide (p < 4) && wpPresent s.variant p

/-- A field of a weave port's configuration as its island has it. -/
def wvCfg (s : State) (p : Nat) (r : Nat → RF) : Nat := cfgI s (islWV p) (r p)

/-! ## Lanes (R384–R387) -/

/-- Physical lane of logical lane `i` in a map word. -/
def laneIn (map i : Nat) : Nat := map / 8 ^ i % 8

def laneLocked (s : State) (p l : Nat) : Bool := hasBit (rd s (WVE_STAT_LANE_OK p)) l && !hasBit (wvOf s p).failed l

/-- Logical lanes whose physical lane is locked. -/
def alignedLanes (s : State) (p : Nat) : Nat :=
  bitsOf ((List.range 4).filter fun i => laneLocked s p (laneIn (rd s (WVE_STAT_LANE_NOW p)) i))

def useLanes (p mask : Nat) (s : State) : State :=
  s |> setWv p { wvOf s p with lanes := mask } |> wr (WVE_STAT_LANES p) (popCount 4 mask)

/-- A LANE block: UID, rate, aligned lanes and a lane map (R385). -/
def sendLaneMap (p lanes map : Nat) (s : State) : State :=
  sendLocal p 0xC (leBytes 8 s.chip.uid ++ [rd s (WVE_STAT_RATE_NOW p), lanes] ++ leBytes 2 map) s

/-- A LANE block with the map in use. -/
def sendLane (p : Nat) (s : State) : State :=
  sendLaneMap p (if wvUp s p then (wvOf s p).lanes else alignedLanes s p) (rd s (WVE_STAT_LANE_NOW p)) s

/-- Begin training at a rate (R385). -/
def startTraining (p rate : Nat) (s : State) : State :=
  s |> setWv p { wvOf s p with lanes := 0, failed := 0, peerLanes := none, planned := none }
    |> wr (WVE_STAT_STATE p) 1 |> wr (WVE_STAT_RATE_NOW p) rate |> wr (WVE_STAT_LANE_OK p) 0 |> wr (WVE_STAT_LANES p) 0
    |> wr (WVE_STAT_LANE_NOW p) (wvCfg s p WVE_LANE_MAP_ALL % 2 ^ 12)

/-- A port that is UP at a lower rate or on fewer than four lanes (R385). -/
def noteDegraded (p : Nat) (s : State) : State :=
  if wvCfg s p WVE_CFG_RATE < rd s (WVE_STAT_RATE_NOW p) ∨ rd s (WVE_STAT_LANES p) < 4 then
    s |> recordError ((wveErr 3 p 0).setting (WVE_EVT_DEGRADED p))
  else s

def linkUp (p mask : Nat) (s : State) : State :=
  s |> useLanes p mask |> wr (WVE_STAT_STATE p) 2 |> wr (WVE_EVT_LINK_UP p) 1
    |> (fun s => setWv p { wvOf s p with rejected := false } s) |> noteDegraded p

/-! ## Dropped frames and flows (R398, R399) -/

/-- A frame is dropped at its channel: its buffer goes back with an ABORTED record. -/
def chanDrop (c serial : Nat) (s : State) : State :=
  match chFrame s c serial with
  | none => s
  | some f =>
    let s := levelDown (portOfChan c) (itemBytes f.items) s
    let s := match f.take with
      | .taken b => abortedRecord c s (b.set, b.cookie, f.foot, b.written)
      | .waiting i _ => abortedRecord c s (i, 0, f.foot, 0)
      | _ => s
    s |> dropChFrame c serial |> takeSet c |> settleState c

/-- An ABORT block on a flow that the device sends (R388). -/
def sendAbort (f : OutFlow) (cause : Nat) (s : State) : State :=
  s |> sendBlock f.port 4 f.cls f.flow [cause] |> dropFlow f.port f.flow

/-- An output frame is dropped whole at its destination. -/
def dropOut (s : State) (x : OutFrame) : State :=
  let s := { s with outs := s.outs.filter fun y => y.serial != x.serial }
  match x.dest with
  | .dma c => chanDrop c x.serial s
  | .tx p => setTx p { txOf s p with begun := (txOf s p).begun.filter (· != x.serial) } s
  | .weave _ _ => match flowOf s x.serial with | some f => sendAbort f 4 s | none => s
  | .hold c => match (holdOf s c).open_ with
    | some (_, k, _, _) => if k = x.serial then setHold c { holdOf s c with open_ := none } s else s
    | none => s

/-- A REMOTE frame whose flow did not end is discarded whole; its context's next frame carries FABRIC_GAP (R399). -/
def discardRemote (id c : Nat) (s : State) : State :=
  let s := (s.outs.filter fun x => x.srcs.any fun q => q.frame == some id).foldl dropOut s
  checkSwap ({ s with frames := s.frames.filter fun f => f.id != id } |> wr (CTX_PEND_GAP c) 1 |> wr (CTX_FSTATE c) 0)

def putInFlow (p : Nat) (f : InFlow) (s : State) : State :=
  let x := wvOf s p
  setWv p { x with inFlows := x.inFlows.map fun g => if g.flow = f.flow then f else g } s

def dropInFlow (p n : Nat) (s : State) : State :=
  let x := wvOf s p
  setWv p { x with inFlows := x.inFlows.filter fun g => g.flow != n } s

/-- A flow received on a port ends without END: ABORT goes downstream, or its frame is discarded. -/
def abortInFlow (p cause : Nat) (s : State) (f : InFlow) : State :=
  let s := dropInFlow p f.flow s
  let s := match f.forward with
    | some (q, n) => match s.outFlows.find? fun g => g.port == q && g.flow == n with
      | some g => sendAbort g cause s
      | none => s
    | none => s
  match f.frame, f.ctx with
  | some id, some c => discardRemote id c s
  | _, _ => s

/-! ## Generations (R396, R398) -/

/-- A class F flow of the device's own is closed and its frame dropped whole (R398). -/
def closeOwnFlow (s : State) (f : OutFlow) : State :=
  let s := s |> dropFlow f.port f.flow |> inc FAB_CNT_FLOW_ABORT |> recordError ((fabErr 2 f.dst).setting FAB_EVT_FLOW_ABORT)
  match f.serial with
  | some k => { s with outs := s.outs.filter fun x => x.serial != k }
  | none => s

/-- The flow is closed with an ABORT of the source (R398). -/
def abortOwnFlow (s : State) (f : OutFlow) : State := closeOwnFlow (sendAbort f 4 s) f

/-- A class F flow that starts here. -/
def ownClassF (f : OutFlow) : Bool := f.cls == 1 && f.serial.isSome

/-- G changes: open class F flows of the device are aborted. -/
def setGeneration (g : Nat) (s : State) : State :=
  let s := { s with fab := { s.fab with passing := [] } } |> wr FAB_STAT_GEN (g % 64) |> wr FAB_EVT_GEN 1
  closeComplete [] ((s.outFlows.filter ownClassF).foldl abortOwnFlow s)

def bumpGeneration (s : State) : State := setGeneration (generation s + 1) s

/-- A newer G is adopted. -/
def adoptGeneration (g : Nat) (s : State) : State :=
  let d := (g % 64 + 64 - generation s) % 64
  if 1 ≤ d ∧ d ≤ 31 then setGeneration g s else s

/-! ## Link-state advertisements (R393) -/

def activePorts (s : State) : List Nat := (List.range 4).filter fun p => wvHere s p && wvActive s p

def fidPinned (s : State) : Bool := cfgI s islSVC FAB_CFG_FID_PIN == 1

/-- The device takes its time from Ethernet and is LOCKED (R402). -/
def timeRootCandidate (s : State) : Bool := cfgI s islTIME TSU_CFG_SOURCE == 1 && rd s TSU_STATE_STATE == 2

def fidByte (f : Option Nat) : Nat := match f with | some f => f % 32 + 128 | none => 0

/-- Neighbour fabric ID of a port, if the peer has one. -/
def peerFid (s : State) (p : Nat) : Option Nat := if isSet s (WVE_STAT_PEER_VALID p) then some (rd s (WVE_STAT_PEER_FID p)) else none
def peerUid (s : State) (p : Nat) : Nat := rd s (WVE_PEER_UID_LO_UID p) + 2 ^ 32 * rd s (WVE_PEER_UID_HI_UID p)

/-- The LSA's content apart from LSA_SEQ: what stands before it, and the links. -/
def lsaHead (s : State) : List Nat :=
  leBytes 8 s.chip.uid ++ [fidByte (ownFid s), bit (fidPinned s) + 2 * bit (timeRootCandidate s), generation s, 0]

def lsaLinks (s : State) : List Nat :=
  (List.range 4).flatMap fun p =>
    if wvHere s p && wvActive s p then [fidByte (peerFid s p), (wvOf s p).peerPort, rd s (WVE_STAT_RATE_NOW p), rd s (WVE_STAT_LANES p)]
    else [0, 0, 0, 0]

/-- The device sends its own LSA on every ACTIVE port. -/
def sendLsa (s : State) : State :=
  let n := u32 (s.fab.ownSeq + 1)
  let pl := lsaHead s ++ leBytes 4 n ++ lsaLinks s
  (activePorts s).foldl (fun s p => sendBlock p 7 3 0 pl s) { s with fab := { s.fab with ownSeq := n, sent := lsaHead s ++ lsaLinks s } }

/-- A changed LSA goes out at once, if any port can take it (R393). -/
def sendLsaIfChanged (s : State) : State :=
  if !fabricOk s.variant || (activePorts s).isEmpty || s.fab.sent == lsaHead s ++ lsaLinks s then s else sendLsa s

/-- A received LSA. -/
def parseLsa (b : List Nat) : Lsa :=
  let fidAt (i : Nat) : Option Nat := if 128 ≤ b.getD i 0 then some (b.getD i 0 % 32) else none
  { uid := leAt b 0 8, fid := fidAt 8, pin := hasBit (b.getD 9 0) 0, root := hasBit (b.getD 9 0) 1, gen := b.getD 0xA 0 % 64
    seq := leAt b 0xC 4
    links := (List.range 4).map fun i => (fidAt (0x10 + 4 * i), b.getD (0x11 + 4 * i) 0, b.getD (0x12 + 4 * i) 0, b.getD (0x13 + 4 * i) 0) }

/-! ## Routes and members (R393, R395) -/

/-- A member found by the route computation: UID, fabric ID, local port, next hop's ID, hops. -/
structure Node where
  uid : Nat
  fid : Option Nat
  port : Nat
  next : Nat
  hops : Nat
deriving DecidableEq, Repr

def lsaOf (s : State) (uid : Nat) : Option Lsa := s.fab.lsas.find? fun l => l.uid == uid

/-- The neighbours of the device itself, in port order. One whose LSA is not in the database holds no ID there (R393). -/
def firstNodes (s : State) : List Node :=
  (activePorts s).map fun p =>
    let fid := (lsaOf s (peerUid s p)).bind (·.fid)
    ⟨peerUid s p, fid, p, (peerFid s p).getD 0, 1⟩

/-- Keep the first node of each UID that is not yet known. -/
def addNodes (known new : List Node) : List Node :=
  new.foldl (fun acc n => if (known ++ acc).any fun m => m.uid == n.uid then acc else acc ++ [n]) []

/-- The nodes that a node's LSA names. -/
def nodesBehind (s : State) (n : Node) : List Node :=
  match lsaOf s n.uid with
  | none => []
  | some l => l.links.filterMap fun k =>
      match k.1 with
      | none => none
      | some f => match s.fab.lsas.find? fun m => m.fid == some f && m.uid != s.chip.uid with
        | some m => some ⟨m.uid, m.fid, n.port, n.next, n.hops + 1⟩
        | none => none

/-- All reachable nodes, nearest first, ties by local port; one round to a hop. -/
def spread (s : State) : Nat → List Node → List Node → List Node
  | 0, known, _ => known
  | fuel + 1, known, front =>
    let new := addNodes known (front.flatMap (nodesBehind s))
    if new.isEmpty then known else spread s fuel (known ++ new) new

def reachable (s : State) : List Node := let f := addNodes [] (firstNodes s); spread s 32 f f

/-- FAB_ROUTE, FAB_UID of one ID. -/
def showRoute (ns : List Node) (s : State) (f : Nat) : State :=
  let own := ownFid s == some f
  let uid := if own then s.chip.uid else match ns.find? fun n => n.fid == some f with | some n => n.uid | none => 0
  let s := s |> wr (FAB_UID_LO_UID f) (uid % 2 ^ 32) |> wr (FAB_UID_HI_UID f) (uid / 2 ^ 32)
  match ns.find? fun n => n.fid == some f && !own with
  | some n => s |> wr (FAB_ROUTE_HOPS f) n.hops |> wr (FAB_ROUTE_NEXT_FID f) n.next |> wr (FAB_ROUTE_VALID f) 1 |> wr (FAB_ROUTE_PORT f) n.port
  | none => setReg (FAB_ROUTE_ALL f).addr 0 s

/-- Compute the routes; unreachable originators' LSAs go, and the members are shown (R393, R395). -/
def computeRoutes (s : State) : State :=
  let ns := reachable s
  let s := { s with fab := { s.fab with lsas := s.fab.lsas.filter fun l => ns.any fun n => n.uid == l.uid } }
  let s := (List.range 32).foldl (showRoute ns) s
  let ids := (List.range 32).filter fun f => ownFid s == some f || ns.any fun n => n.fid == some f
  let old := rd s FAB_MEMBERS_MEMBERS
  let s := s |> wr FAB_MEMBERS_MEMBERS (bitsOf ids) |> wr FAB_STAT_MEMBERS ids.length
  if old = bitsOf ids then s else wr FAB_EVT_MEMBERS 1 s

/-! ## Fabric IDs (R394) -/

/-- Another claim of the device's own ID that beats its own. -/
def beaten (s : State) (f : Nat) : Bool :=
  s.fab.lsas.any fun l => l.fid == some f && l.uid != s.chip.uid
    && (l.pin && !fidPinned s || (l.pin == fidPinned s && decide (l.uid < s.chip.uid)))

/-- Drop a claim that has lost. -/
def resolveClaim (s : State) : State :=
  match ownFid s with
  | none => s
  | some f =>
    if beaten s f then
      let s := wr FAB_STAT_FID_VALID 0 s
      let s := if fidPinned s then s |> recordError ((fabErr 1 f).setting FAB_EVT_FID) else { s with fab := { s.fab with claiming := true } }
      bumpGeneration s
    else s

/-- What follows a change of the database or of the device's links. -/
def refreshFabric (s : State) : State := s |> computeRoutes |> resolveClaim |> computeRoutes |> sendLsaIfChanged

/-- Claim an ID. -/
def claimFid (f : Nat) (s : State) : State :=
  { s with fab := { s.fab with claiming := false, since := upNs s, saved := false } }
    |> wr FAB_STAT_FID f |> wr FAB_STAT_FID_VALID 1 |> bumpGeneration |> refreshFabric

/-- Steps 1 and 2 of the choice. -/
def chooseFid (s : State) : State :=
  if !fabricOk s.variant then s
  else if fidPinned s then
    let f := cfgI s islSVC FAB_CFG_FID_PREF
    if ownFid s = some f then s else claimFid f s
  else if (ownFid s).isSome then s
  else match s.jnl.stickyFid with | some f => claimFid f s | none => s

/-! ## Links (R391, R392) -/

/-- The port's link goes down and the port retrains. -/
def linkDown (p : Nat) (s : State) : State :=
  if !wvUp s p then s
  else
    let wasActive := wvActive s p
    let s := (wvOf s p).inFlows.foldl (abortInFlow p 3) s
    let s := (s.outFlows.filter fun f => f.port == p && ownClassF f).foldl closeOwnFlow s
    let s := { s with outFlows := s.outFlows.filter fun f => f.port != p }
    let s := setWv p emptyWv s
    let s := s |> inc (WVE_CNT2_LINK_DOWN p) |> wr (WVE_RETRY_LVL_TX_UNACK p) 0
      |> wr (WVE_RETRY_LVL_RX_HELD p) 0 |> wr (WVE_STAT_PEER_VALID p) 0 |> recordError ((wveErr 1 p 0).setting (WVE_EVT_LINK_DOWN p))
      |> startTraining p (wvCfg s p WVE_CFG_RATE)
    if wasActive then s |> bumpGeneration |> refreshFabric else s

/-- The lanes of a port have changed: its LSA shows them (R393). -/
def lanesMoved (p : Nat) (s : State) : State := s |> sendLane p |> sendLsaIfChanged

/-- A lane fails (R386), which wears it (R417): its logical lane moves onto the spare, or the lanes re-stripe. -/
def failLane (p l : Nat) (s : State) : State :=
  let x := wvOf s p
  let s := s |> setWv p { x with failed := withBit x.failed l } |> inc (WVE_CNT2_LANE_FAIL p)
    |> recordError ((wveErr 2 p l).setting (WVE_EVT_LANE_FAIL p)) |> noteWear 3 (8 * p + l) 0 1 1
  let map := rd s (WVE_STAT_LANE_NOW p)
  if !wvUp s p then s
  else
    match (List.range 4).find? fun i => hasBit x.lanes i && laneIn map i == l with
    | none => s
    | some i =>
      let used := ((List.range 4).filter (hasBit x.lanes)).map (laneIn map)
      match (List.range 5).find? fun n => laneLocked s p n && !used.contains n with
      | some n => s |> wr (WVE_STAT_LANE_NOW p) (map - l * 8 ^ i + n * 8 ^ i) |> lanesMoved p
      | none =>
        let left := withoutBit x.lanes i
        if left = 0 then linkDown p s else s |> useLanes p left |> lanesMoved p |> noteDegraded p

/-- LANE_LOCK (R385): 64 consecutive valid sync headers on a physical lane. -/
def doLaneLock (p l : Nat) (s : State) : State :=
  if wvHere s p && decide (l < 5) && decide (1 ≤ wvState s p) then
    let s := s |> wr (WVE_STAT_LANE_OK p) (withBit (rd s (WVE_STAT_LANE_OK p)) l)
      |> setWv p { wvOf s p with failed := withoutBit (wvOf s p).failed l }
    if wvState s p = 1 then
      let s := sendLane p s
      if (wvOf s p).peerLanes = some (alignedLanes s p) then linkUp p (alignedLanes s p) s else s
    else s
  else s

def execLaneLock (p l : Nat) (s : State) : Host.Outcome State Fault Refusal := .next (doLaneLock p l s)

/-- LANE_LOCK_LOST (R386). -/
def doLaneLockLost (p l : Nat) (s : State) : State :=
  if wvHere s p && decide (l < 5) && hasBit (rd s (WVE_STAT_LANE_OK p)) l then
    s |> wr (WVE_STAT_LANE_OK p) (withoutBit (rd s (WVE_STAT_LANE_OK p)) l) |> failLane p l
  else s

def execLaneLockLost (p l : Nat) (s : State) : Host.Outcome State Fault Refusal := .next (doLaneLockLost p l s)

/-- SYNC_HEADER_ERRORS (R386): 16 sync-header errors within 1,024 words. -/
def doSyncHeaderErrors (p l : Nat) (s : State) : State :=
  if wvHere s p && decide (l < 5) && hasBit (rd s (WVE_STAT_LANE_OK p)) l then
    s |> addSat (WVE_LANE_ERR_SYNC_ERR p l) 16 |> noteWear 3 (8 * p + l) 0 0 16 |> failLane p l
  else s

def execSyncHeaderErrors (p l : Nat) (s : State) : Host.Outcome State Fault Refusal := .next (doSyncHeaderErrors p l s)

/-- TRAIN_TIMEOUT (R385): 20 ms at a rate without being UP, or 100 ms after MIN_RATE has failed. -/
def doTrainTimeout (p : Nat) (s : State) : State :=
  if !wvHere s p || wvCfg s p WVE_CFG_ENABLE == 0 then s
  else if wvState s p = 1 then
    if rd s (WVE_STAT_RATE_NOW p) < wvCfg s p WVE_CFG_MIN_RATE then startTraining p (rd s (WVE_STAT_RATE_NOW p) + 1) s
    else wr (WVE_STAT_STATE p) 0 s
  else if wvState s p = 0 then startTraining p (wvCfg s p WVE_CFG_RATE) s
  else s

def execTrainTimeout (p : Nat) (s : State) : Host.Outcome State Fault Refusal := .next (doTrainTimeout p s)

/-- The two ends have agreed on a map and lanes (R386, R387). An end that did not offer the change answers. -/
def takeMap (p lanes map : Nat) (s : State) : State :=
  let x := wvOf s p
  let fewer := decide (popCount 4 lanes < rd s (WVE_STAT_LANES p))
  let answer := x.planned != some map && rd s (WVE_STAT_LANE_NOW p) != map
  let s := s |> setWv p { x with planned := if x.planned = some map then none else x.planned } |> wr (WVE_STAT_LANE_NOW p) map
    |> useLanes p lanes
  let s := if answer then sendLane p s else s
  sendLsaIfChanged (if fewer then noteDegraded p s else s)

/-- LANE_BLOCK (R385–R387): the peer's UID, rate, aligned lanes and lane map. -/
def doLaneBlock (p uid rate lanes map : Nat) (s : State) : State :=
  if !wvHere s p then s
  else if wvState s p = 1 then
    let s := s |> setWv p { wvOf s p with peerLanes := if rate = rd s (WVE_STAT_RATE_NOW p) ∧ lanes % 16 ≠ 0 then some (lanes % 16) else none }
      |> wr (WVE_PEER_UID_LO_UID p) (uid % 2 ^ 32) |> wr (WVE_PEER_UID_HI_UID p) (uid / 2 ^ 32)
    if (wvOf s p).peerLanes = some (alignedLanes s p) then s |> linkUp p (lanes % 16) |> sendLane p
    else s
  else if wvUp s p && decide (lanes % 16 ≠ 0)
      && ((List.range 4).all fun i => !hasBit lanes i || hasBit (rd s (WVE_STAT_LANE_OK p)) (laneIn map i)) then takeMap p (lanes % 16) (map % 2 ^ 12) s
  else s

def execLaneBlock (p uid rate lanes map : Nat) (s : State) : Host.Outcome State Fault Refusal := .next (doLaneBlock p uid rate lanes map s)

/-- A planned lane map (R387): kept off if a lane that it names is not locked; else offered to the peer, whose LANE block with the
same map lets both change. A port that is still training has no blocks in flight and takes the map at once. -/
def plannedMap (p map : Nat) (s : State) : State :=
  if map = rd s (WVE_STAT_LANE_NOW p) then s
  else
    match (List.range 4).find? fun i => !laneLocked s p (laneIn map i) with
    | some i => recordError (wveErr 2 p (laneIn map i)) s
    | none =>
      if wvUp s p then s |> setWv p { wvOf s p with planned := some map } |> sendLaneMap p 15 map
      else s |> wr (WVE_STAT_LANE_NOW p) map |> sendLane p

/-- The port takes the configuration of a new epoch. -/
def applyWeave (p : Nat) (mapChanged : Bool) (s : State) : State :=
  if wvCfg s p WVE_CFG_ENABLE = 1 then
    if wvState s p = 0 ∧ rd s (WVE_STAT_LANE_NOW p) = 0 then startTraining p (wvCfg s p WVE_CFG_RATE) s
    else if mapChanged then plannedMap p (wvCfg s p WVE_LANE_MAP_ALL % 2 ^ 12) s
    else s
  else s |> linkDown p |> wr (WVE_STAT_STATE p) 0 |> wr (WVE_STAT_LANE_NOW p) 0 |> wr (WVE_STAT_LANE_OK p) 0

/-! ## Retransmission (R390) -/

/-- The device sends an ACK: CUM, and a map of the blocks held beyond it. -/
def sendAck (p : Nat) (s : State) : State :=
  let x := wvOf s p
  let bits := bitsOf ((List.range 256).filter fun i => x.held.any fun b => b.seq == (x.cum + 1 + i) % 4096)
  s |> setWv p { x with fresh := 0 } |> sendLocal p 5 (leBytes 2 x.cum ++ [0, 0] ++ leBytes 32 bits)

/-- Send an unacknowledged block again; the sixteenth time brings the link down. -/
def retransmit (p : Nat) (s : State) (b : Block × Nat) : State :=
  if !wvUp s p then s
  else
    let x := wvOf s p
    let s := s |> setWv p { x with retry := x.retry.map fun r => if r.1.seq = b.1.seq then (r.1, r.2 + 1) else r }
      |> putOnLink p b.1 |> inc (WVE_CNT_RETX p)
    if 16 ≤ b.2 + 1 then linkDown p s else s

/-- ACK_BLOCK (R390): CUM, and the map of blocks beyond it. -/
def doAckBlock (p cum map : Nat) (s : State) : State :=
  if !wvHere s p || !wvUp s p then s
  else
    let x := wvOf s p
    let ahead (b : Block) : Nat := (b.seq + 4096 - cum % 4096) % 4096
    let acked (b : Block) : Bool := decide (512 < ahead b) || (decide (1 ≤ ahead b) && decide (ahead b ≤ 256) && hasBit map (ahead b - 1))
    let gone := (x.retry.filter fun r => acked r.1).map (·.1)
    let left := x.retry.filter fun r => !acked r.1
    let s := s |> setWv p { x with retry := left } |> noteUnacked p |> drainWait p 512
    let top := ((List.range 256).filter (hasBit map)).foldl (fun a i => max a (i + 1)) 0
    let s := (left.filter fun r => decide (ahead r.1 < top)).foldl (retransmit p) s
    (s.rly.mirrors.filter fun m => gone.any fun b => b.type == 0xA && b.payload == m.payload).foldl releaseMirror s

def execAckBlock (p cum map : Nat) (s : State) : Host.Outcome State Fault Refusal := .next (doAckBlock p cum map s)

/-- ACK_TIMER (R390): 500 ns after the first block that has not been acknowledged. -/
def doAckTimer (p : Nat) (s : State) : State := if wvHere s p && wvUp s p && decide (0 < (wvOf s p).fresh) then sendAck p s else s

def execAckTimer (p : Nat) (s : State) : Host.Outcome State Fault Refusal := .next (doAckTimer p s)

/-- RETRANSMIT_TIMEOUT (R390). -/
def doRetransmitTimeout (p : Nat) (s : State) : State :=
  if wvHere s p && wvUp s p then (wvOf s p).retry.foldl (retransmit p) s else s

def execRetransmitTimeout (p : Nat) (s : State) : Host.Outcome State Fault Refusal := .next (doRetransmitTimeout p s)

/-- BLOCK_CRC_ERROR (R388, R390): the hole makes the receiver send an ACK at once. -/
def doBlockCrcError (p : Nat) (s : State) : State :=
  if wvHere s p && wvUp s p then s |> inc (WVE_CNT_CRC_ERR p) |> sendAck p else s

def execBlockCrcError (p : Nat) (s : State) : Host.Outcome State Fault Refusal := .next (doBlockCrcError p s)

/-! ## HELLO (R391, R392) -/

def fabName (s : State) : Nat := cfgI s islSVC FAB_NAME_NAME

/-- HELLO_SEND (R392). -/
def doHelloSend (p : Nat) (s : State) : State :=
  if wvHere s p && wvUp s p then
    sendLocal p 6 (leBytes 8 s.chip.uid ++ leBytes 4 (fabName s) ++ [fidByte (ownFid s), p, generation s, bit (fidPinned s)]) s
  else s

def execHelloSend (p : Nat) (s : State) : Host.Outcome State Fault Refusal := .next (doHelloSend p s)

/-- The port becomes ACTIVE (R392, R394, R396). -/
def becomeActive (p : Nat) (s : State) : State :=
  let first := (activePorts s).isEmpty
  let s := s |> wr (WVE_STAT_STATE p) 3 |> bumpGeneration
  if first && (ownFid s).isNone && !fidPinned s then { s with fab := { s.fab with claiming := true } } else s

/-- HELLO_BLOCK (R392): the peer's UID, NAME, FID byte, port, generation. -/
def doHelloBlock (p uid name fid port gen : Nat) (s : State) : State :=
  if !wvHere s p || !wvUp s p then s
  else if name ≠ fabName s then
    let again := (wvOf s p).rejected
    let s := setWv p { wvOf s p with rejected := true } s
    let s := if again then s else s |> recordError ((fabErr 4 0).setting FAB_EVT_NAME_REJ)
    if wvActive s p then s |> wr (WVE_STAT_STATE p) 2 |> bumpGeneration |> refreshFabric else s
  else
    let s := s |> setWv p { wvOf s p with rejected := false, peerPort := port }
      |> wr (WVE_PEER_UID_LO_UID p) (uid % 2 ^ 32) |> wr (WVE_PEER_UID_HI_UID p) (uid / 2 ^ 32)
      |> wr (WVE_STAT_PEER_VALID p) (fid / 128 % 2) |> wr (WVE_STAT_PEER_FID p) (fid % 32)
    let s := adoptGeneration gen s
    refreshFabric (if wvActive s p then s else becomeActive p s)

def execHelloBlock (p uid name fid port gen : Nat) (s : State) : Host.Outcome State Fault Refusal :=
  .next (doHelloBlock p uid name fid port gen s)

/-- HELLO_TIMEOUT (R391). -/
def doHelloTimeout (p : Nat) (s : State) : State := if wvHere s p then linkDown p s else s

def execHelloTimeout (p : Nat) (s : State) : Host.Outcome State Fault Refusal := .next (doHelloTimeout p s)

/-! ## Roll call's timers (R393, R394) -/

def execLsaRefresh (s : State) : Host.Outcome State Fault Refusal := .next (if fabricOk s.variant && !stoppedB s then sendLsa s else s)

/-- LSA_AGE (R393): the LSA of an originator has not been refreshed for 350 ms. -/
def doLsaAge (uid : Nat) (s : State) : State :=
  if (lsaOf s uid).isSome then refreshFabric { s with fab := { s.fab with lsas := s.fab.lsas.filter fun l => l.uid != uid } } else s

def execLsaAge (uid : Nat) (s : State) : Host.Outcome State Fault Refusal := .next (doLsaAge uid s)

/-- FID_CLAIM (R394): the lowest ID that no LSA claims. -/
def doFidClaim (s : State) : State :=
  if s.fab.claiming && (ownFid s).isNone && !(activePorts s).isEmpty then
    match (List.range 32).find? fun f => !s.fab.lsas.any fun l => l.fid == some f with
    | some f => claimFid f s
    | none => s
  else s

def execFidClaim (s : State) : Host.Outcome State Fault Refusal := .next (if stoppedB s then s else doFidClaim s)

/-- FID_JOURNAL (R394, R425): the ID has stood for 1 s. -/
def doFidJournal (s : State) : State :=
  match ownFid s with
  | none => s
  | some f =>
    if s.fab.saved then s
    else
      let uidOf (i : Nat) : Nat := rd s (FAB_UID_LO_UID i) + 2 ^ 32 * rd s (FAB_UID_HI_UID i)
      let table := ((List.range 32).filter (hasBit (rd s FAB_MEMBERS_MEMBERS))).foldl
        (fun t i => sset (fun _ => 0) t i (uidOf i)) s.jnl.fidTable
      let rec7 := leBytes 4 f ++ (List.range 32).flatMap fun i => leBytes 8 (sget (fun _ => 0) table i)
      journal 7 rec7 <| writeStateArea { s with fab := { s.fab with saved := true }, jnl := { s.jnl with stickyFid := some f, fidTable := table } }

def execFidJournal (s : State) : Host.Outcome State Fault Refusal := .next (doFidJournal s)

end Sys2Proof.Machine
end

