-- ==== Sys2Proof/Machine/Relay.lean ====
section
/-! DEFINITION. Relay pairs: roles, heartbeats, mirroring, fences and the baton (R403–R414). -/

namespace Sys2Proof.Machine
open Sys2Proof

/-- The relay runs: enabled, past LDR_EVT.LOADED (R406), not in the safe state (R428) and not in park mode (R18, R442). -/
def relayOn (s : State) : Bool := fabricOk s.variant && act s RLY_CFG_ENABLE == 1 && role s != 0 && !isSafe s && !s.mnt.parked

/-- A context whose record has DCLASS 2, in ascending order. -/
def classMContexts (s : State) : List Nat :=
  s.cfgA.filterMap fun p =>
    if 0x300000 ≤ p.1 ∧ p.1 < 0x500000 ∧ (p.1 - 0x300000) % 0x80 = 0 ∧ fld p.2 5 4 = 2 then some ((p.1 - 0x300000) / 0x80) else none

/-- RLY_DIGEST (R407). -/
def ownDigest (s : State) : Nat :=
  let cs := classMContexts s
  let word (a : Nat) : List Nat := leBytes 4 (bankWord s.chip s.cfgA a).toNat
  let recs := cs.flatMap fun c => (List.range 16).flatMap fun i => word (0x300000 + 0x80 * c + 4 * i)
  let outs := (List.range 256).filter fun o => cs.contains (act s (SEAM_ROUTE_W1_SRC0 o))
  crc32c (recs ++ outs.flatMap fun o => word (SEAM_ROUTE_W0_ALL o).addr ++ word (SEAM_ROUTE_W1_ALL o).addr ++ word (SEAM_ROUTE_W2_ALL o).addr)

/-- ELIGIBLE (R410). -/
def eligible (s : State) : Bool :=
  s.rly.seen && isSet s RLY_STAT_DIGEST_OK && rd s TSU_STATE_STATE == 2 && !isSet s RLY_STAT_FENCE_IN && role s == 2

/-! ## Heartbeats (R407) -/

/-- HEARTBEAT_SEND (R407). -/
def doHeartbeatSend (s : State) : State :=
  if relayOn s then
    let s := wr RLY_DIGEST_DIGEST (ownDigest s) s
    let hb := !s.pins.hbOut
    { s with pins := { s.pins with hbOut := hb } } |> setPin pinHb 0 (bit hb)
      |> sendRelay ([1, role s] ++ leBytes 2 (rd s RLY_STAT_BATON_GEN) ++ leBytes 4 (ownDigest s)
          ++ [bit (eligible s) + 2 * bit (rd s TSU_STATE_STATE == 2)])
  else s

def execHeartbeatSend (s : State) : Host.Outcome State Fault Refusal := .next (if stoppedB s then s else doHeartbeatSend s)

/-- The own digest against the partner's (R407): while they differ CFG_MISMATCH is set, and error 0x03 is recorded when that begins. -/
def judgeDigest (first : Bool) (peer : Nat) (s : State) : State :=
  let same := peer == ownDigest s
  let was := isSet s RLY_STAT_DIGEST_OK
  let s := s |> wr RLY_PEER_DIGEST_DIGEST peer |> wr RLY_DIGEST_DIGEST (ownDigest s) |> wr RLY_STAT_DIGEST_OK (bit same)
  if same then s
  else
    if was || first then recordError ((rlyErr 3).setting RLY_EVT_CFG_MISMATCH) s else wr RLY_EVT_CFG_MISMATCH 1 s

/-- A new set is in use: the own digest follows it, and is judged again once the partner has given one. -/
def freshDigest (s : State) : State :=
  if !relayOn s then s
  else if s.rly.seen then judgeDigest false (rd s RLY_PEER_DIGEST_DIGEST) s
  else wr RLY_DIGEST_DIGEST (ownDigest s) s

/-- The role that the first HEARTBEAT since LOADED leaves (R406). -/
def settleRole (s : State) (peerRole peerGen : Nat) : Nat :=
  let lower := decide (s.chip.uid < peerUid s (relayPort s))
  let gen := rd s RLY_STAT_BATON_GEN
  if role s = 1 ∧ (peerRole = 1 ∨ peerRole = 3) then
    (if peerRole = 3 ∨ gen < peerGen ∨ (gen = peerGen ∧ !lower) then 2 else 1)
  else if role s = 2 ∧ peerRole = 2 then (if lower then 1 else 2)
  else role s

/-- A HEARTBEAT of the partner. -/
def takeHeartbeat (b : List Nat) (s : State) : State :=
  if !relayOn s then s
  else
    let peerRole := b.getD 1 0
    let peerGen := leAt b 2 2
    let first := !s.rly.seen
    let s := if first then wr RLY_STAT_ROLE (settleRole s peerRole peerGen) s else s
    let s := { s with rly := { s.rly with beat := true, seen := true } }
    let s := if role s = 2 ∧ (peerRole = 1 ∨ peerRole = 3) then wr RLY_STAT_BATON_GEN peerGen s else s
    s |> wr RLY_STAT_PARTNER 1 |> judgeDigest first (leAt b 4 4)

/-- HB_INPUT_EDGE (R407). -/
def doHbInputEdge (s : State) : State := if relayOn s then { s with rly := { s.rly with beat := true } } else s

def execHbInputEdge (s : State) : Host.Outcome State Fault Refusal := .next (doHbInputEdge s)

/-- Step 1 of R411: the fence is asserted to take the baton. -/
def takeFence (alone : Bool) (s : State) : State := driveFence true { s with rly := { s.rly with fencing := some (upNs s, alone), asHolder := false } }

/-- The third consecutive missed heartbeat of a standby (R411). -/
def partnerLost (s : State) : State :=
  let s := s |> recordError ((rlyErr 1).setting RLY_EVT_PARTNER_LOST)
  if eligible s then takeFence false s else s

/-- HEARTBEAT_TICK (R407, R411). -/
def doHeartbeatTick (s : State) : State :=
  if !relayOn s then s
  else if s.rly.beat then wr RLY_STAT_MISSES 0 { s with rly := { s.rly with beat := false } }
  else
    let n := min 15 (rd s RLY_STAT_MISSES + 1)
    let s := wr RLY_STAT_MISSES n s
    let s := if 3 ≤ n then wr RLY_STAT_PARTNER 0 s else s
    if n = 3 ∧ role s = 2 ∧ s.rly.fencing.isNone then partnerLost s else s

def execHeartbeatTick (s : State) : Host.Outcome State Fault Refusal := .next (doHeartbeatTick s)

/-! ## The baton (R411–R413) -/

/-- A held frame whose FRAME_CNT is greater than the last delivered one (R412). -/
def undelivered (s : State) (c : Nat) (h : Held) : Bool :=
  let d := (h.final.fc + 2 ^ 32 - lastDelivered s c) % 2 ^ 32
  decide (1 ≤ d) && decide (d < 2 ^ 31)

/-- A held frame as one that is emitted again: payload and flags as stored, EPOCH and END_NS as stored (R412). -/
def heldFrame (s : State) (id c : Nat) (h : Held) : FrameSt :=
  let px (l : List Nat) : List Nat := if h.sealed then l.take (l.length - 8) else l
  let lines := (h.lines.zip h.flags).zipIdx.map fun l => (⟨l.2, px l.1.1, l.1.2⟩ : OutLine)
  { newFrame id c h.final.port (epochActive s) h.final.fc h.final.cap h.final.mid h.final.status none [] with
    isOpen := false, adm := .admitted, outq := lines, made := lines.length, linesIn := h.final.lines, motion := h.final.motion
    stored := some (leAt h.trailer 0x18 4, h.final.epoch) }

/-- The frame that a non-holder is still writing into its ring is emitted from its first line on, just behind the
writer. -/
def reopenFrame (s : State) (c : Nat) : State :=
  match atSeam s c, (holdOf s c).open_ with
  | some f, some (n, k, ls, fs) =>
    match outBySerial s k with
    | some x =>
      let d := (f.fc + 2 ^ 32 - lastDelivered s c) % 2 ^ 32
      if f.alive.isNone && decide (0 < f.entered) && (x.srcs.any fun p => p.frame == some f.id) && decide (1 ≤ d) && decide (d < 2 ^ 31) then
        let px (l : List Nat) : List Nat := if x.sealed then l.take (l.length - 8) else l
        let lines := (ls.zip fs).zipIdx.map fun l => (⟨l.2, px l.1.1, l.1.2⟩ : OutLine)
        { s with outs := s.outs.filter fun y => y.serial != k }
          |> setHold c { holdOf s c with open_ := none, next := n } |> putFrame { f with outq := lines ++ f.outq, entered := 0 }
      else s
    | none => s
  | _, _ => s

/-- BATON_EMIT for one context (R412). -/
def emitHeld (s : State) (c : Nat) : State :=
  let s := reopenFrame s c
  let hs := (holdOf s c).held.filter (undelivered s c)
  let fs := hs.zipIdx.map fun h => heldFrame s (s.nextFrame + h.2) c h.1
  wr (CTX_PEND_BATON c) 1 { s with frames := fs ++ s.frames, nextFrame := s.nextFrame + fs.length }

/-- The device has taken the baton: power over coax on, and emission under R412 unless no earlier holder has delivered
(R405, R406, R411). -/
def takeBaton (newRole gen : Nat) (s : State) : State :=
  let ports := (List.range 20).filter fun p => cpPresent s.variant p && dualHomed s p
  let s := s |> wr RLY_STAT_ROLE newRole |> wr RLY_STAT_BATON_GEN gen |> wr RLY_EVT_BATON 1 |> inc RLY_CNT_BATONS
  let s := ports.foldl (fun s p => if rd s (PWR_P_STAT_STATE p) = 0 then powerInrush p s else s) s
  if newRole = 3 then inc RLY_CNT_SOLO s else (classMContexts s).foldl emitHeld s

def becomeFenced (s : State) : State :=
  { s with rly := { s.rly with fencing := none, offered := false } } |> wr RLY_STAT_ROLE 4 |> recordError ((rlyErr 5).setting RLY_EVT_FENCED)

/-- FENCE_WAIT_EXPIRE (R406, R411): step 2. -/
def doFenceWaitExpire (s : State) : State :=
  match s.rly.fencing with
  | none => s
  | some (t, alone) =>
    if isSet s RLY_STAT_FENCE_IN then s |> driveFence false |> becomeFenced
    else
      let s := { s with rly := { s.rly with fencing := none } }
      let s := if alone then takeBaton 3 1 s else takeBaton 1 (rd s RLY_STAT_BATON_GEN + 1) s
      wr RLY_LAST_BATON_US ((upNs s - t) / 1000) s

def execFenceWaitExpire (s : State) : Host.Outcome State Fault Refusal := .next (doFenceWaitExpire s)

/-- PARTNER_WAIT_EXPIRE (R406): 500 ms after LOADED without a HEARTBEAT. -/
def doPartnerWaitExpire (s : State) : State :=
  if relayOn s && !s.rly.seen && s.rly.fencing.isNone then takeFence true s else s

def execPartnerWaitExpire (s : State) : Host.Outcome State Fault Refusal := .next (doPartnerWaitExpire s)

/-- A device stops emitting its class M frames (R410). -/
def stopClassM (s : State) : State :=
  let ids := (s.frames.filter (classM s)).map (·.id)
  let isHold (x : OutFrame) : Bool := match x.dest with | .hold _ => true | _ => false
  let xs := s.outs.filter fun x => !isHold x && x.srcs.any fun p => match p.frame with | some i => ids.contains i | none => false
  closeComplete [] (xs.foldl dropOut { s with rly := { s.rly with mirrors := [] } })

/-- FENCE_INPUT (R410): RLY_FENCE_I_N has been at a level for 10 µs. Of two devices whose fences are both low, the one that held the
baton before it asserted its fence keeps it. -/
def doFenceInput (low : Bool) (s : State) : State :=
  let s := wr RLY_STAT_FENCE_IN (bit low) s
  if !low || !relayOn s then s
  else if s.rly.fencing.isSome ∨ (isSet s RLY_STAT_FENCE_OUT = true ∧ s.rly.asHolder = false ∧ (role s = 1 ∨ role s = 3)) then
    s |> stopClassM |> driveFence false |> becomeFenced
  else if (role s = 1 ∨ role s = 3) ∧ !isSet s RLY_STAT_FENCE_OUT then s |> stopClassM |> becomeFenced
  else s

def execFenceInput (low : Bool) (s : State) : Host.Outcome State Fault Refusal := .next (doFenceInput low s)

/-- FENCE_RELEASE_TIMER (R410). -/
def doFenceReleaseTimer (s : State) : State := if role s = 4 ∧ !isSet s RLY_STAT_FENCE_IN then wr RLY_STAT_ROLE 2 s else s

def execFenceReleaseTimer (s : State) : Host.Outcome State Fault Refusal := .next (doFenceReleaseTimer s)

/-- HANDOVER (R413): a write of RLY_CTRL by an originator. -/
def doHandover (o : Orig) (v : Nat) (s : State) : State :=
  if !fabricOk s.variant || !writes o then s
  else if o ≠ .t0 ∧ o ≠ .svc then deny RLY_CTRL_ALL.addr s
  else if hasBit v 0 && relayOn s && role s == 1 && !s.rly.offered then
    commitBaton (sendBaton 1 { s with rly := { s.rly with offered := true } })
  else s

def execHandover (o : Orig) (v : Nat) (s : State) : Host.Outcome State Fault Refusal := .next (doHandover o v s)

/-- A BATON record of the partner (R413). A device whose fence input is low does not take the baton (R410). -/
def takeBatonRecord (b : List Nat) (s : State) : State :=
  if !relayOn s || role s != 2 then s
  else if b.getD 1 0 = 1 then { s with rly := { s.rly with offerSeen := true } }
  else if b.getD 1 0 = 2 ∧ s.rly.offerSeen ∧ isSet s RLY_STAT_FENCE_IN = false then
    takeBaton 1 (leAt b 2 2 + 1) { s with rly := { s.rly with offerSeen := false } }
  else s

/-! ## Mirroring (R408, R409) -/

/-- DELIVER_ACK_TIMEOUT (R408). -/
def doDeliverAckTimeout (s : State) : State := if relayOn s && role s == 1 && !s.rly.mirrors.isEmpty then enterSolo s else s

def execDeliverAckTimeout (s : State) : Host.Outcome State Fault Refusal := .next (doDeliverAckTimeout s)

/-- MIRROR_RESTORE (R408): 100 ms of heartbeats and acknowledgements without a break. -/
def doMirrorRestore (s : State) : State :=
  if relayOn s && role s == 3 && isSet s RLY_STAT_PARTNER then
    let syncs := s.rly.lastSent.map fun p => [2, 1] ++ p.2.drop 2
    (syncs.foldl (fun s b => sendRelay b s) s) |> driveFence false |> wr RLY_STAT_ROLE 1 |> wr RLY_EVT_MIRROR_OK 1
  else s

def execMirrorRestore (s : State) : Host.Outcome State Fault Refusal := .next (doMirrorRestore s)

/-- Load the LIVE block of a DELIVER into the basting copy (R405, R409). -/
def loadLive (c : Nat) (b : List Nat) (s : State) : State :=
  let put (r : Nat → RF) (off : Nat) (m : Sparse Word) : Sparse Word := sset (regReset s.chip) m (r c).addr (BitVec.ofNat 32 (leAt b off 4))
  { s with liveB := s.liveB |> put CTX_WB_GAIN0 0x10 |> put CTX_WB_GAIN2 0x14 |> put CTX_DGAIN 0x18 |> put CTX_EXP_TIME 0x1C }

/-- A DELIVER of the primary (R409). -/
def takeDeliver (b : List Nat) (s : State) : State :=
  let c := leAt b 2 2
  let fc := leAt b 4 4
  let cap := leAt b 0xC 4
  if !relayOn s || role s != 2 || !(classMContexts s).contains c then s
  else
    let s := { s with rly := { s.rly with delivered := sset (fun _ => 0) s.rly.delivered c (fc * 2 ^ 16 + leAt b 8 2) } }
      |> wr (CTX_ALIVE c) (leAt b 8 2) |> loadLive c b
    let p := b.getD 0xA 0
    let vc := b.getD 0xB 0
    let x := camOf s p
    let old := sget (fun _ => 0) x.fcs vc
    let setHigh (s : State) : State := setCam p { x with fcs := sset (fun _ => 0) x.fcs vc (fc / 2 ^ 16 * 2 ^ 16 + old % 2 ^ 16) } s
    match s.frames.find? fun f => f.ctx == c && f.capNs == cap with
    | some f => s |> putFrame { f with fc } |> setHigh
    | none =>
      let h := holdOf s c
      if h.held.any fun g => g.final.cap == cap then
        s |> setHold c { h with held := h.held.map fun g => if g.final.cap = cap then { g with final := { g.final with fc } } else g } |> setHigh
      else if b.getD 1 0 % 2 = 1 then s
      else { s with rly := { s.rly with unmatched := s.rly.unmatched ++ [(c, cap, fc, vc)] } }

/-- FC_MISMATCH (R409): two frame periods without the frame of a DELIVER. -/
def doFcMismatch (c : Nat) (s : State) : State :=
  match s.rly.unmatched.find? fun u => u.1 == c with
  | none => s
  | some u =>
    { s with rly := { s.rly with unmatched := s.rly.unmatched.erase u } } |> inc RLY_CNT_FC_MISMATCH |> recordError ((rlyErr 4).setting RLY_EVT_FC_MISMATCH)

def execFcMismatch (c : Nat) (s : State) : Host.Outcome State Fault Refusal := .next (doFcMismatch c s)

/-- A PROFILE record of the primary (R414). -/
def takeProfile (b : List Nat) (s : State) : State :=
  if relayOn s && role s == 2 then { s with rly := { s.rly with profile := some (b.getD 1 0, leAt b 4 4) } } else s

/-- A RELAY block (R407). -/
def deliverRelay (b : List Nat) (s : State) : State :=
  let kind := b.getD 0 0
  if kind = 1 then takeHeartbeat b s else if kind = 2 then takeDeliver b s else if kind = 3 then takeProfile b s
  else if kind = 4 then takeBatonRecord b s else s

end Sys2Proof.Machine
end

