-- ==== Sys2Proof/Machine/Safe.lean ====
section
/-! DEFINITION. Errors of fatal class and the safe state (R304, R427, R428), and the end of a maintenance session (R432). -/

namespace Sys2Proof.Machine
open Sys2Proof

/-! ## Maintenance sessions -/

/-- Events of a MAINT record; the spec names the field only (log entry 30). -/
def mntOpen : Nat := 1
def mntRenew : Nat := 2
def mntFlash : Nat := 3
def mntEnd : Nat := 4

/-- Journal a MAINT record (R426). -/
def mntRecord (event result arg : Nat) (s : State) : State :=
  journal 8 ([event, rd s MNT_STAT_ORIG, result % 256, 0] ++ leBytes 4 arg ++ padTo 8 s.mnt.keyTag) s

/-- A session ends (R432): its basting writes are discarded unless it has requested a swap (R75). -/
def endSession (s : State) : State :=
  if isSet s MNT_STAT_SESSION then
    let s := if rd s LDR_STAT_OWNER = 4 then discardBank s else s
    let s := s |> mntRecord mntEnd 0 0 |> wr MNT_STAT_SESSION 0 |> wr MNT_STAT_FLAGS 0 |> wr MNT_EVT_SESSION_END 1
    { s with mnt := { s.mnt with keyTag := [], verified := 0 } }
  else s

/-! ## Outputs -/

/-- PWM and fold outputs inactive, fold channels IDLE (R352). -/
def quietOutputs (s : State) : State :=
  { s with pins := { s.pins with pwm := 0, fold := 0 }, pwms := [], folds := [] } |> wr (FOLD_STAT_STATE 0) 0 |> wr (FOLD_STAT_STATE 1) 0

/-- Power over coax released on every present A-PHY port. -/
def releasePower (s : State) : State :=
  ((List.range 16).filter (cpPresent s.variant)).foldl (fun s p => powerOff p false s) s

/-- Frames in flight never complete; the egress and transmit buffers are flushed (R428 step 2). No baton is
taken or handed over any more. -/
def flushFrames (s : State) : State :=
  let s := s |> addSat (HLK_EGR_LOSS_LINES 0) (linesHeld s 0) |> addSat (HLK_EGR_LOSS_LINES 1) (linesHeld s 1)
  let s := (List.range 256).foldl (fun s c => if (chanOf s c).frames.isEmpty then s else scrapFrames c false s) s
  let s := s.chans.foldl (fun s c => setChan c.1 { chanOf s c.1 with frames := [] } s) s
  { s with frames := [], running := [], syncs := [], outs := [], txs := [], outFlows := []
           rly := { s.rly with mirrors := [], fencing := none, offered := false } }

/-- The device enters the safe state (R428). -/
def enterSafe (unit code info : Nat) (s : State) : State :=
  if isSafe s then s
  else
    let s := s |> endSession |> wr MNT_SAFE_UNIT unit |> wr MNT_SAFE_CODE code |> wr MNT_SAFE_SAFE 1
    let s := { s with pins := { s.pins with safeN := false, intLow := true, gpio := 0 } }
    s |> addTotal 3 1 |> setPin pinSafe 0 0 |> flushFrames |> releasePower |> quietOutputs |> driveFence false
      |> journal 9 ([unit % 256, code % 256, 0, 0] ++ leBytes 4 info)

/-- An error of fatal class (R304): its record is committed, then the safe state is entered. -/
def fatalError (e : ErrInfo) (s : State) : State :=
  s |> logError true e |> enterSafe e.unit e.code (2 ^ 31 + e.info + e.code)

end Sys2Proof.Machine
end

