-- ==== Sys2Proof/Machine/Boot.lean ====
section
/-! DEFINITION. Reset and boot (R38–R41, R59–R65, R83, R86, R205, R422–R425, R445, R446): the image checks, the load of an
accepted image or of the ROM pattern, and the journal memory at reset release. -/

namespace Sys2Proof.Machine
open Sys2Proof

/-! ## Images in flash -/

/-- `n` bytes at an offset of a slot (R38). -/
def slotBytes (s : State) (slot off n : Nat) : List Nat := memRead flashDefault s.flash (0x4000000 * slot + off) n

def slotNum (s : State) (slot off n : Nat) : Nat := leNum (slotBytes s slot off n)

/-- The header's lengths and offsets agree and lie in range (check 7 of R61). -/
def headerConsistent (h : List Nat) : Bool :=
  let len := leAt h 0x08 4
  let sig := leAt h 0x20 4
  let count := leAt h 0x18 2
  let dir := leAt h 0x1C 4
  decide (0x200 ≤ len) && decide (len ≤ 0x4000000) && isMul len 4 && decide (sig + 136 = len) && decide (1 ≤ count)
    && decide (count ≤ 16) && decide (0x80 ≤ dir) && isMul dir 4 && decide (dir + 16 * count ≤ sig)

/-- Checks 1–7 of R61 on a slot: the cause of rejection, or none. -/
def headerCause (s : State) (slot : Nat) : Option Nat :=
  let h := slotBytes s slot 0 128
  if s.chip.flashBytes = 0 ∨ 2 ≤ slot ∨ (slot = 1 ∧ s.chip.flashBytes < 0x8000000) then some 1
  else if h.take 4 ≠ [0x43, 0x56, 0x50, 0x54] then some 2
  else if leAt h 0x7C 4 ≠ crc32c (h.take 0x7C) then some 3
  else if leAt h 4 1 ≠ 1 ∨ leAt h 6 2 ≠ 0x80 then some 4
  else if !hasBit (leAt h 0x0C 1) (variantBit s.variant) then some 5
  else if s.chip.romVer < leAt h 0x10 2 then some 6
  else if !headerConsistent h then some 7
  else none

/-- The image in a slot, signature block included. -/
def imageBytes (s : State) (slot : Nat) : List Nat := slotBytes s slot 0 (slotNum s slot 0x08 4)

/-- The image's signature holds (R59, R60). -/
def signatureHolds (s : State) (img : List Nat) : Bool :=
  let sig := leAt img 0x20 4
  let b := slice img sig 136
  match s.chip.keyHash with
  | none => false
  | some k =>
    b.take 4 == [0x53, 0x49, 0x47, 0x31] && leAt b 4 2 == 1 && sha256 (slice b 8 64) == k
      && ecdsaVerify (slice b 8 64) (slice b 0x48 64) (img.take sig)

/-- Two byte ranges (offset, length) overlap. -/
def rangesMeet (a b : Nat × Nat) : Bool := decide (a.1 < b.1 + b.2) && decide (b.1 < a.1 + a.2)

/-- No range of the list meets a later one. -/
def apart : List (Nat × Nat) → Bool
  | [] => true
  | x :: xs => !(xs.any (rangesMeet x)) && apart xs

/-- The sections lie within bounds, clear of the directory and of one another (R41). That an OFFSET or LENGTH that is no multiple of 4
fails this check too is a DESIGN CHOICE (log entry 122): R41 gives the check no such condition. -/
def directoryOk (img : List Nat) : Bool :=
  let sig := leAt img 0x20 4
  let rs := (directory img).map fun x => (x.off, x.len)
  (rs.all fun r => decide (0x80 ≤ r.1) && decide (r.1 + r.2 ≤ sig) && isMul r.1 4 && isMul r.2 4)
    && apart ((leAt img 0x1C 4, 16 * leAt img 0x18 2) :: rs)

/-- Every section's CRC holds (R41). -/
def sectionsOk (img : List Nat) : Bool :=
  (directory img).all fun x => leAt img (leAt img 0x1C 4 + 16 * x.index + 12) 4 == crc32c (slice img x.off x.len)

/-- Checks 8–11 of R61, with the rollback version that the image must reach. -/
def bodyCause (s : State) (slot floor : Nat) : Option Nat :=
  let img := imageBytes s slot
  if !signatureHolds s img then some 8
  else if leAt img 0x12 2 < floor then some 9
  else if !directoryOk img then some 0x0A
  else if !sectionsOk img then some 0x0B
  else none

/-- Checks 1–11 of R61: the cause of rejection, 0 if the image passes. -/
def slotCause (s : State) (slot floor : Nat) : Nat :=
  match headerCause s slot with
  | some c => c
  | none => (bodyCause s slot floor).getD 0

/-! ## The set under load -/

/-- What a load replaces: records' origins, scripts, services, profiles, blobs and windows; the run-time state of contexts
(R46, R225); both LIVE copies (R83); the exposure loops (R205). -/
def freshLoad (s : State) : State :=
  let l := s.ldr
  { s with
    ldr := { l with scripts := [], services := [], profiles := [], profSets := [], profLive := [], profMask := [], baseSet := [], origin := []
                    profOrigin := [], writes := 0, windows := 0, blobs := [] }
    cfgB := freshBank s, liveB := [], liveA := [], statCount := [], loops := []
    regs := s.regs.filter fun r => decide (r.1 < 0x300000) || decide (0x500000 ≤ r.1) }

/-- PROFILE_COUNT and DEFAULT_PROFILE of the header (R40), brought into range. -/
def profileHeader (s : State) : State :=
  let x : Src := ⟨0xFFFF, 0xFFFFFFFF, 0xFF⟩
  let s := clearCounts s
  let count := slotNum s s.ldr.slot 0x0D 1
  let r := recField x 0 (8 * 0x0D) 8 (.iv 0 8) count s
  let want := slotNum s s.ldr.slot 0x0E 1
  let keep := if want < max 1 r.2 then want else 0
  let s := if keep = want then r.1 else clampRec x 0 (8 * 0x0E) 8 1 want keep r.1
  { s with ldr := { s.ldr with profileCount := r.2, defaultProfile := keep } }

/-- Every DMA channel idle (R63). -/
def idleChannels (s : State) : State := (chansOf 0 ++ chansOf 1).foldl idleChan s

/-- The loader turns to the ROM pattern (R63). -/
def turnToRom (s : State) : State :=
  { s with ldr := { s.ldr with slot := 2, phase := .records } } |> wr LDR_STAT_STATE 3

/-- The ROM pattern as the next swap takes it: no profile. -/
def planRomSwap (s : State) : State :=
  { s with ldr := { s.ldr with phase := .swap, swapProfile := 0, profileCount := 0, defaultProfile := 0 } }

/-- The ROM pattern (R63): everything at its reset value, and every DMA channel idle. The loader waits for the bank if it must. -/
def romPattern (s : State) : State :=
  let s := turnToRom s
  if owns s .loader || mayTake s .loader then
    s |> takeBank .loader |> freshLoad |> clearCounts |> idleChannels |> planRomSwap
  else waitBank .loader s

/-- IMAGE_REJECT (R61): the cause is latched, and the next slot or the ROM pattern is tried. -/
def rejectImage (cause : Nat) (s : State) : State :=
  let slot := s.ldr.slot
  let s := wr (if slot = 0 then LDR_REJECT_CAUSE_A else LDR_REJECT_CAUSE_B) cause s
  let s := tell { kind := 7, stage := if cause = 0x0C then 6 else 0, req := slot, applied := cause } s
  if slot = 0 then { s with ldr := { s.ldr with slot := 1, phase := .header } } |> wr LDR_STAT_STATE 1 else romPattern s

/-- The load begins with the header of image A (R64 step 2). Profile selection starts again 1 s after the load's LOADED (R86). -/
def beginLoad (reload : Bool) (s : State) : State :=
  { s with ldr := { s.ldr with phase := .header, slot := 0, reload, selecting := false
                               waiting := s.ldr.waiting.filter (· ≠ .profileSelection) } }
    |> wr LDR_STAT_STATE 1 |> wr LDR_REJECT_ALL 0 |> wr LDR_PROF_STAT_CAND_VALID 0 |> beginReport 0

/-! ## The journal memory at boot (R423–R425) -/

/-- A superblock copy: SEQ and PTR if it is valid. -/
def superCopy (s : State) (i : Nat) : Option (Nat × Nat) :=
  let b := memRead flashDefault s.jmem (0x40 * i) 0x40
  if b.take 4 = [0x43, 0x56, 0x4A, 0x4E] ∧ leAt b 0x3C 4 = crc32c (b.take 0x3C) then some (leAt b 4 4, leAt b 8 4) else none

/-- The first sequence number is the newer one. -/
def newerSeq (a b : Nat) : Bool := decide ((a + 2 ^ 32 - b) % 2 ^ 32 < 2 ^ 31)

/-- `n` bytes of the log ring from an offset. -/
def logRead (s : State) (off n : Nat) : List Nat :=
  (List.range n).map fun i => sget flashDefault s.jmem (0x2000 + (off + i) % max 1 (logBytes s))

/-- Adopt the records that continue the log in order (R424). One step to a record. -/
def adoptLog : Nat → State → State
  | 0, s => s
  | fuel + 1, s =>
    let off := rd s JNL_PTR_ALL
    let len := leNum (logRead s (off + 2) 2)
    let b := logRead s off (20 + len)
    if b.getD 0 0 = 0xA5 ∧ len % 4 = 0 ∧ len ≤ 1008 ∧ leAt b 4 4 = u32 (rd s JNL_SEQ_ALL + 1)
        ∧ leAt b (16 + len) 4 = crc32c (b.take (16 + len)) then
      adoptLog fuel (s |> wr JNL_SEQ_ALL (leAt b 4 4) |> wr JNL_PTR_ALL ((off + 20 + len) % logBytes s))
    else s

def jnlErr (code : Nat) : ErrInfo := { unit := uJNL, inst := 0, code }

/-- Take the superblock with the newer SEQ; the other copy is written next. -/
def openLog (s : State) : State :=
  let take (i : Nat) (x : Nat × Nat) (s : State) : State :=
    { s with jnl := { s.jnl with superTurn := 1 - i } } |> wr JNL_SEQ_ALL x.1 |> wr JNL_PTR_ALL x.2
      |> fun s => adoptLog (logBytes s / 20) s
  match superCopy s 0, superCopy s 1 with
  | none, none => recordError (jnlErr 2) s
  | some a, none => take 0 a s
  | none, some b => take 1 b s
  | some a, some b => if newerSeq a.1 b.1 then take 0 a s else take 1 b s

/-- A state-area copy with a valid CRC. -/
def areaCopy (s : State) (i : Nat) : Option (List Nat) :=
  let b := memRead flashDefault s.jmem (0x800 + 0x800 * i) 0x800
  if leAt b 0x7FC 4 = crc32c (b.take 0x7FC) then some b else none

/-- What a state-area copy holds (R425), in the layout of log entry 9. -/
def adoptArea (i : Nat) (b : List Nat) (s : State) : State :=
  let z : Nat → Nat := fun _ => 0
  let tab (f : Nat → Nat) (n : Nat) : Sparse Nat := (List.range n).foldl (fun m i => sset z m i (f i)) []
  let maps : Sparse Nat := [(0, leAt b 0x10 1), (3, leAt b 0x14 4), (4, leAt b 0x11 1), (5, leAt b 0x2C 8), (6, leAt b 0x12 1)]
  let gone := leAt b 0x11 1
  let s := s |> wr SVC_STAT_PAIR_A (if hasBit gone 0 then 2 else 0) |> wr SVC_STAT_PAIR_B (if hasBit gone 1 then 2 else 1)
    |> wr SVC_STAT_FAILED gone
  { s with
    jnl := { s.jnl with
      areaSeq := leAt b 0 4, stateTurn := 1 - i
      stickyFid := if 0x80 ≤ leAt b 0x0C 1 then some (leAt b 0x0C 1 % 32) else none
      fidTable := tab (fun f => leAt b (0x50 + 8 * f) 8) 32 }
    rsv := { s.rsv with
      retired := maps.filter fun m => m.2 ≠ 0
      laneMaps := tab (fun p => leAt b (0x18 + 4 * p) 4) 4
      pllMap := leAt b 0x28 4
      totals := tab (fun i => leAt b (0x150 + 4 * i) 4) 12
      remap := (List.range (min 256 (leAt b 0x180 4))).map fun k => leAt b (0x184 + 4 * k) 4 } }

/-- Read the state area; copies of another board's device are ignored, and both are then written afresh. -/
def openArea (s : State) : State :=
  let own (b : List Nat) : Bool := leAt b 4 8 == s.chip.uid
  let a := areaCopy s 0
  let b := areaCopy s 1
  match a.filter own, b.filter own with
  | some x, some y => if newerSeq (leAt x 0 4) (leAt y 0 4) then adoptArea 0 x s else adoptArea 1 y s
  | some x, none => adoptArea 0 x s
  | none, some y => adoptArea 1 y s
  | none, none => if a.isNone && b.isNone then recordError (jnlErr 2) s else s |> writeStateArea |> writeStateArea

/-- The journal memory is opened (R64 step 1, R423). -/
def openJournal (s : State) : State :=
  if s.chip.journalMbit = 0 then s |> recordError ((jnlErr 1).setting JNL_EVT_FAIL)
  else s |> wr JNL_STAT_OK 1 |> wr JNL_STAT_SIZE_MBIT s.chip.journalMbit |> openLog |> openArea

/-! ## The commands -/

/-- RESET_RELEASE (R64 step 1, R307, R445, R446): device time starts at 0; MAINT_N high disarms maintenance; TADDR[1:0] sets the
targets' addresses. -/
def doResetRelease (maintHigh : Bool) (taddr : Nat) (s : State) : State :=
  if s.ldr.phase = .held ∧ s.pins.crystal then
    let s := { s with pins := { s.pins with taddr := taddr % 4 }, now := 0, time := { s.time with stepped := 0, rateAcc := 0 } }
    let b := freshBank s
    let s := { s with cfgB := b, cfgA := b, cfgO := b, cfgX := b } |> wr MNT_STAT_ARMED (bit (!maintHigh))
    s |> openJournal |> addTotal 2 1 |> beginLoad false
  else s

def execResetRelease (maintHigh : Bool) (taddr : Nat) (s : State) : Host.Outcome State Fault Refusal :=
  .next (doResetRelease maintHigh taddr s)

/-- Every listed byte of the flash in an address range takes a value that nothing states. -/
def scramble (lo n : Nat) (s : State) : State :=
  let k := s.freeCount
  { s with
    flash := s.flash.filterMap fun c =>
      if lo ≤ c.1 ∧ c.1 < lo + n then
        let v := Config.freeWord (k + (c.1 - lo)) % 256
        if v = flashDefault c.1 then none else some (c.1, v)
      else some c
    freeCount := k + n }

/-- A flash operation breaks off: what it was writing is not stated (log entry 3); a counter of fuse bits stands between its old
and its new value (R433). -/
def brokenFlash (s : State) : State :=
  match s.mnt.op with
  | none => s
  | some x =>
    if x.result = 3 then s
    else if x.op = 1 then scramble (0x4000000 * x.slot) 0x4000000 s
    else if x.op = 2 then scramble (0x4000000 * x.slot + 4096 * x.arg) 4096 s
    else if x.op = 5 then
      { s with rollback := s.rollback + Config.freeNat s.freeCount % (x.arg - s.rollback + 1), freeCount := s.freeCount + 1 }
    else s

/-- RESET_N_ASSERT (R445): RESET_N is pulled low, or VDD_AO fails. Pins take their states of R442. A session ends with its MAINT record
(R432); without supply nothing is written. -/
def doResetNAssert (vddLow : Bool) (s : State) : State :=
  let s := brokenFlash (if vddLow then s else endSession s)
  let low := ((List.range 16).filter (hasBit s.pins.pocEn)).map fun p => Emit.pin pinPoc p 0
  State.inReset s.chip s.rollback s.flash s.jmem s.pending (s.out ++ [.pin pinSafe 0 0] ++ low) s.freeCount (s.pins.crystal && !vddLow)

def execResetNAssert (vddLow : Bool) (s : State) : Host.Outcome State Fault Refusal := .next (doResetNAssert vddLow s)

/-- CRYSTAL_STABLE (R445). -/
def execCrystalStable (s : State) : Host.Outcome State Fault Refusal := .next { s with pins := { s.pins with crystal := true } }

/-- IMAGE_HEADER_READ (R61): checks 1–7. -/
def doImageHeaderRead (s : State) : State :=
  if s.ldr.phase = .header then
    match headerCause s s.ldr.slot with
    | some c => rejectImage c s
    | none => { s with ldr := { s.ldr with phase := .verify } } |> wr LDR_STAT_STATE 2
  else s

def execImageHeaderRead (s : State) : Host.Outcome State Fault Refusal := .next (doImageHeaderRead s)

/-- IMAGE_VERIFIED (R60, R61): checks 8–11. -/
def doImageVerified (s : State) : State :=
  if s.ldr.phase = .verify then
    match bodyCause s s.ldr.slot s.rollback with
    | some c => rejectImage c s
    | none => { s with ldr := { s.ldr with phase := .records } } |> wr LDR_STAT_STATE 3
  else s

def execImageVerified (s : State) : Host.Outcome State Fault Refusal := .next (doImageVerified s)

/-- RECORDS_CHECK (R42–R58, R66): the records go into the basting bank, which the loader takes for it. -/
def doRecordsCheck (s : State) : State :=
  if s.ldr.phase ≠ .records then s
  else if s.ldr.slot = 2 then romPattern s
  else if owns s .loader || mayTake s .loader then
    let s := s |> takeBank .loader |> freshLoad |> profileHeader
    let s := loadRecords (imageBytes s s.ldr.slot) s
    { s with ldr := { s.ldr with phase := .cross } }
  else waitBank .loader s

def execRecordsCheck (s : State) : Host.Outcome State Fault Refusal := .next (doRecordsCheck s)

/-! ## Cross-field checks (R68) -/

/-- A profile's set (R58): its entry's, or the base set. -/
def setOfProfile (s : State) (p : Nat) : Sparse Word :=
  if s.ldr.profiles.any fun q => q.index == p then sget (fun _ => []) s.ldr.profSets p else s.ldr.baseSet

/-- The stages on one profile's set. -/
def checkProfile (p : Nat) (s : State) : State × Option Nat :=
  let r := runStages p { s with cfgB := sget (fun _ => []) s.ldr.profSets p }
  let s := r.1
  ({ s with ldr := { s.ldr with profSets := sset (fun _ => []) s.ldr.profSets p s.cfgB } }, r.2)

/-- The stages on the sets of a list of profiles, until one cannot fit. -/
def checkProfiles : List Nat → State → State × Option Nat
  | [], s => (s, none)
  | p :: ps, s =>
    match checkProfile p s with
    | (s', none) => checkProfiles ps s'
    | r => r

/-- A loop's context is enabled, processed and has a statistics queue in a set (R205). -/
def loopRuns (c : Chip) (b : Sparse Word) (n : Nat) : Bool :=
  bankFld c b (CTX_ENABLE n) == 1 && processedIn c b n && bankFld c b (CTX_STAT_Q n) != 0

/-- Drop the loops whose context runs in no set (R205). -/
def checkServices (s : State) : State :=
  let sets := s.ldr.baseSet :: s.ldr.profSets.map (·.2)
  let keep (y : Service) : Bool := y.key != 0x0601 || sets.any fun b => loopRuns s.chip b (leAt y.value 0 2)
  let gone := s.ldr.services.filter fun y => !keep y
  let s := { s with ldr := { s.ldr with services := s.ldr.services.filter keep } }
  each gone (fun y => dropRec ⟨y.section_, y.record, 0xFF⟩ 0 6 y.word) s

/-- A profile's MODE condition (R85). -/
def profileMode (mode : Nat) (p : Profile) : Bool := Nat.land mode p.modeMask == Nat.land p.modeValue p.modeMask

/-- The lowest index that satisfies a condition. -/
def lowestProfile (ps : List Profile) (ok : Profile → Bool) : Option Nat :=
  ((ps.filter ok).map (·.index)).foldl (fun m i => match m with | some j => some (min i j) | none => some i) none

/-- The profile chosen at boot (R86). -/
def bootProfile (s : State) : Nat :=
  (lowestProfile s.ldr.profiles (profileMode (rd s LDR_PROF_STAT_MODE))).getD s.ldr.defaultProfile

/-- Put a profile's set into the basting bank, and the LIVE fields that its deltas write into the basting copy (R84, R86). -/
def loadProfileSet (p : Nat) (s : State) : State :=
  let d := regReset s.chip
  let mask := sget (fun _ => []) s.ldr.profMask p
  let mix (old new m : Word) : Word := (old &&& ~~~m) ||| (new &&& m)
  { s with
    cfgB := setOfProfile s p
    liveB := (sget (fun _ => []) s.ldr.profLive p).foldl (fun b w => sset d b w.1 (mix (sget d b w.1) w.2 (sget (fun _ => 0) mask w.1))) s.liveB }

/-- CROSS_FIELD_CHECKS (R68, R86). -/
def doCrossFieldChecks (s : State) : State :=
  if s.ldr.phase = .cross && owns s .loader then
    match runStages 0xFF s with
    | (s, some _) => s |> discardBank |> rejectImage 0x0C
    | (s, none) =>
      let s := { s with ldr := { s.ldr with baseSet := s.cfgB } }
      match checkProfiles (s.ldr.profiles.map (·.index)) s with
      | (s, some _) => s |> discardBank |> rejectImage 0x0C
      | (s, none) =>
        let s := checkServices s
        let p := bootProfile s
        loadProfileSet p { s with ldr := { s.ldr with phase := .swap, swapProfile := p } }
  else s

def execCrossFieldChecks (s : State) : Host.Outcome State Fault Refusal := .next (doCrossFieldChecks s)

/-- LPDDR_TRAINED (R64 step 4): the held load-report entries go to queue 1 in order (R265). -/
def doLpddrTrained (s : State) : State :=
  if s.ldr.phase = .held || s.ldr.trained then s
  else each s.ldr.held (fun bs => qPut 1 uLDR (bytesToWords 8 bs)) { s with ldr := { s.ldr with trained := true, held := [] } }

def execLpddrTrained (s : State) : Host.Outcome State Fault Refusal := .next (doLpddrTrained s)

end Sys2Proof.Machine
end

