-- ==== Sys2Proof/Machine/Reserve.lean ====
section
/-! DEFINITION. The reserve manager's commands (R417–R422) and journalling (R426). -/

namespace Sys2Proof.Machine
open Sys2Proof

/-! ## Replacement (R421) -/

/-- The reserve slice: present, not retired, serving nothing (R418). -/
def reserveSlice (s : State) : Option Nat :=
  let map := act s RSV_SLICE_MAP_PHYS
  (List.range 6).find? fun p => pixPresent s.variant p && !hasBit (retiredMask s 0) p
    && !(List.range (activeSlices s.variant)).any fun k => map / 8 ^ k % 8 == p

/-- The logical slice that a physical slice serves. -/
def logicalOf (s : State) (p : Nat) : Option Nat :=
  (List.range (activeSlices s.variant)).find? fun l => act s RSV_SLICE_MAP_PHYS / 8 ^ l % 8 == p

/-- Replace every digit `a` of a number in base `b` by `c`, over `n` digits. -/
def swapDigit (b a c : Nat) : Nat → Nat → Nat
  | 0, m => m
  | n + 1, m => (if m % b = a then c else m % b) + b * swapDigit b a c n (m / b)

/-- The first free byte of RSV_PLL_MAP. -/
def freePll (map : Nat) : Option Nat := (List.range 4).find? fun k => map / 256 ^ k % 256 < 128

/-- The old and the new map word of a replacement, or none if there is no spare for it. -/
def newMapOf (s : State) (kind inst row : Nat) : Option (Nat × Nat) :=
  if kind = 0 then
    match reserveSlice s, logicalOf s inst with
    | some p, some _ => let m := act s RSV_SLICE_MAP_PHYS; some (m, swapDigit 8 inst p 5 m)
    | _, _ => none
  else if !spareLeft s kind inst then none
  else if kind = 1 ∨ kind = 2 then some (0, (kind - 1) * 2 ^ 28 + inst % 4096 * 2 ^ 16 + row % 2 ^ 16)
  else if kind = 3 then let m := act s (WVE_LANE_MAP_ALL (inst / 8)); some (m, swapDigit 8 (inst % 8) 4 4 m)
  else if kind = 5 then
    let m := act s RSV_PLL_MAP_MAP
    (freePll m).map fun k => (m, m - m / 256 ^ k % 256 * 256 ^ k + (128 + inst % 64) * 256 ^ k)
  else some (0, 0)

/-- The CFG word that carries a new map, if one does. -/
def mapReg (kind inst : Nat) : Option RF :=
  if kind = 0 then some RSV_SLICE_MAP_ALL else if kind = 3 then some (WVE_LANE_MAP_ALL (inst / 8))
  else if kind = 5 then some RSV_PLL_MAP_ALL else none

/-- Write the new map into the basting bank and request the checked swap. -/
def runRepl (r : Repl) (s : State) : State :=
  let s := { s with rsv := { s.rsv with cur := some r } }
  let s := match mapReg r.kind r.inst with
    | some f => ownerWrite f.addr r.newMap s
    | none => s
  checkedSwap .reserveManager s

/-- Replace now, or wait for the bank (R74). -/
def beginRepl (r : Repl) (s : State) : State :=
  if mayTake s .reserveManager then s |> takeBank .reserveManager |> runRepl r
  else waitBank .reserveManager { s with rsv := { s.rsv with waiting := s.rsv.waiting ++ [r] } }

/-- The reserve manager has been granted the bank (R74). -/
def reserveGranted (s : State) : State :=
  match s.rsv.waiting with
  | [] => discardBank s
  | r :: rest =>
    let s := runRepl r { s with rsv := { s.rsv with waiting := rest } }
    if rest.isEmpty then s else waitBank .reserveManager s

/-- A replacement of the resource is under way. -/
def replPending (s : State) (kind inst row : Nat) : Bool :=
  let same (x : Repl) : Bool := x.kind == kind && x.inst == inst && x.row == row
  (match s.rsv.cur with | some x => same x | none => false) || s.rsv.waiting.any same || s.rsv.refused.any same

/-- Replace a resource whose wear has reached its threshold (R417, R421, R422). A pair is replaced by R25 alone; the reserve slice
itself is retired. -/
def replaceFor (kind inst row signal : Nat) (s : State) : State :=
  if act s RSV_CFG_AUTO = 0 ∨ kind = 4 ∨ replPending s kind inst row then s
  else
    match newMapOf s kind inst row with
    | some m => beginRepl ⟨kind, inst, row, m.1, m.2, signal⟩ s
    | none =>
      if kind = 0 ∧ reserveSlice s = some inst then finishRepl ⟨0, inst, row, 0, 0, signal⟩ s else s

/-- A wear signal that counts at once (R417). -/
def wearSignal (kind inst row signal : Nat) (s : State) : State :=
  s |> recordError ((rsvErr 1 kind).setting RSV_EVT_WEAR) |> replaceFor kind inst row signal

/-- The resource of a kind exists on this device. -/
def resourceHere (v : Variant) (kind inst : Nat) : Bool :=
  if kind = 0 then pixPresent v inst else if kind = 1 ∨ kind = 2 then decide (inst < 4096)
  else if kind = 3 then wpPresent v (inst / 8) && decide (inst % 8 < 5) else if kind = 4 then decide (inst < 3)
  else if kind = 5 then islPresent v inst else kind == 6 && decide (inst < 3)

/-- REPLACED (R417, R421): the reserve manager replaces a resource whose threshold has been reached; where none is due, `n` further
signals of it are counted first, which are those that no other command brings: corrections of a memory row among them. -/
def doReplaced (kind inst row signal n : Nat) (s : State) : State :=
  let here (d : Nat × Nat × Nat × Nat) : Bool := d.1 == kind && d.2.1 == inst && d.2.2.1 == row
  if !resourceHere s.variant kind inst then s
  else
    let s := if s.rsv.due.any here then s else noteWear kind inst row signal n s
    match s.rsv.due.find? here with
    | none => s
    | some d => replaceFor kind inst row d.2.2.2 { s with rsv := { s.rsv with due := s.rsv.due.filter fun x => !here x } }

def execReplaced (kind inst row : Nat) (x : Signals) (s : State) : Host.Outcome State Fault Refusal :=
  .next (doReplaced kind inst row x.signal x.count s)

/-- REPLACE_RETRY (R421): a refused replacement is tried again. -/
def doReplaceRetry (s : State) : State :=
  match s.rsv.refused with
  | [] => s
  | r :: _ =>
    if s.rsv.cur.isSome || s.rsv.waiting.contains r then s
    else
      match newMapOf s r.kind r.inst r.row with
      | some m => beginRepl { r with oldMap := m.1, newMap := m.2 } s
      | none => s

def execReplaceRetry (s : State) : Host.Outcome State Fault Refusal := .next (if stoppedB s then s else doReplaceRetry s)

/-! ## Self-test (R420) -/

def noteFailed (kind inst : Nat) (s : State) : State :=
  { s with rsv := { s.rsv with failed := s.rsv.failed ++ [(kind, inst)] } } |> inc RSV_TEST_FAIL |> wr RSV_EVT_TEST_FAIL 1

/-- A slice fails its test: a wear signal, or error 0x03 of fatal class for an active slice without a reserve (R422). -/
def sliceFailed (n : Nat) (s : State) : State :=
  let s := noteFailed 0 n s
  if (logicalOf s n).isSome && (reserveSlice s).isNone then fatalError (rsvErr 3 0) s else wearSignal 0 n 0 3 s

/-- SELF_TEST_IN_GAP: the test of the physical slice that serves logical slice `l`, in a gap: abandoned (0), passed (1) or
failed (2). -/
def doSelfTestInGap (l result : Nat) (s : State) : State :=
  let n := act s RSV_SLICE_MAP_PHYS / 8 ^ l % 8
  if activeSlices s.variant ≤ l || (s.running.any fun r => r.slice == l) || s.rsv.failed.contains (0, n) then s
  else if result = 1 then s |> inc RSV_TEST_DONE |> wr RSV_TEST_STARVED 0
  else if result = 2 then sliceFailed n s
  else s

def execSelfTestInGap (l result : Nat) (s : State) : Host.Outcome State Fault Refusal := .next (doSelfTestInGap l result s)

/-- RESERVE_SELF_TEST. -/
def doReserveSelfTest (pass : Bool) (s : State) : State :=
  match reserveSlice s with
  | none => s
  | some n => if s.rsv.failed.contains (0, n) then s else if pass then inc RSV_TEST_DONE s else sliceFailed n s

def execReserveSelfTest (pass : Bool) (s : State) : Host.Outcome State Fault Refusal := .next (doReserveSelfTest pass s)

/-- SELF_TEST_STARVED: no test of an active slice has completed for 1 s. -/
def execSelfTestStarved (s : State) : Host.Outcome State Fault Refusal := .next (wr RSV_TEST_STARVED 1 s)

/-- SPARE_TEST: the march or lock test of a spare row or PLL; one that fails is a spare no longer. -/
def doSpareTest (kind inst : Nat) (pass : Bool) (s : State) : State :=
  if (kind = 1 ∨ kind = 2 ∨ kind = 5) ∧ !s.rsv.failed.contains (kind, inst) then
    if pass then inc RSV_TEST_DONE s
    else s |> noteFailed kind inst |> addTotal (5 + kind) 1 |> recordError ((rsvErr 1 kind).setting RSV_EVT_WEAR)
  else s

def execSpareTest (kind inst : Nat) (pass : Bool) (s : State) : Host.Outcome State Fault Refusal := .next (doSpareTest kind inst pass s)

/-! ## The rate of the log (R426) -/

/-- Records that are never dropped: BOOT, SPARE, FID, MAINT, SAFE, PARK. -/
def neverDropped (type : Nat) : Bool := type == 1 || type == 5 || type == 7 || type == 8 || type == 9 || type == 10

/-- Write a log record, or drop it beyond MAX_RPS and count it (R426). -/
def journalOrDrop (t : Nat) (bs : List Nat) (s : State) : State :=
  if neverDropped t || decide (s.jnl.secCount < cfgI s islSVC JNL_CFG_MAX_RPS) then journal t bs s
  else { s with jnl := { s.jnl with dropped := smod (fun _ => 0) s.jnl.dropped t (· + 1) } } |> inc JNL_DROP_COUNT |> wr JNL_EVT_DROP 1

/-! ## Ageing (R419) -/

/-- Drift of a measured frequency from the fuse baseline, in 0.01 %. -/
def driftOf (base f : Nat) : Nat := if base = 0 then 0 else (if f < base then base - f else f - base) * 10000 / base

/-- The payload of a WEAR record (R426). The model keeps no correction counts by row: they are free values (log entry 33). -/
def wearPayload (s : State) : List Nat :=
  (List.range 12).flatMap (fun i => leBytes 4 (sget (fun _ => 0) s.rsv.totals i)) ++ leBytes 4 (reg s RSV_AGE_ALL.addr).toNat
    ++ (List.range 4).flatMap fun i => leBytes 4 (Config.freeWord (s.freeCount + i))

def wearRecord (s : State) : State := let s := journalOrDrop 6 (wearPayload s) s; { s with freeCount := s.freeCount + 4 }

/-- The worst of the (island, drift) pairs, the first of equals. -/
def worstDrift : List (Nat × Nat) → Nat × Nat
  | [] => (0, 0)
  | x :: xs => xs.foldl (fun m y => if m.2 < y.2 then y else m) x

/-- AGEING_MEASURE: the sensors' frequencies by island, at boot or after an hour of operation. -/
def doAgeingMeasure (atBoot : Bool) (freqs : List Nat) (s : State) : State :=
  let ds := (freqs.take 40).zipIdx.filterMap fun f =>
    if islPresent s.variant f.2 then some (f.2, min 0xFFFF (driftOf s.chip.ageBase f.1)) else none
  let w := worstDrift ds
  let s := if atBoot then s else addTotal 0 1 s
  let s := s |> wr RSV_AGE_ISLAND w.1 |> wr RSV_AGE_DRIFT w.2 |> wearRecord
  ds.foldl (fun s d => if 800 < d.2 && (freePll (act s RSV_PLL_MAP_MAP)).isSome then wearSignal 5 d.1 0 1 s else s) s

def execAgeingMeasure (atBoot : Bool) (freqs : List Nat) (s : State) : Host.Outcome State Fault Refusal :=
  .next (doAgeingMeasure atBoot freqs s)

/-! ## The journal (R426) -/

/-- JOURNAL_RECORD (R305, R426): the service cores write the next record, or drop it beyond MAX_RPS; `bad`: the memory does not
answer, or its read-back is wrong. -/
def doJournalRecord (bad : Bool) (s : State) : State :=
  match s.jnl.pend with
  | [] => s
  | (t, bs) :: rest =>
    let written := neverDropped t || decide (s.jnl.secCount < cfgI s islSVC JNL_CFG_MAX_RPS)
    let s := journalOrDrop t bs { s with jnl := { s.jnl with pend := rest } }
    if bad && written then s |> recordError ((jnlErr 1).setting JNL_EVT_FAIL) else s

def execJournalRecord (bad : Bool) (s : State) : Host.Outcome State Fault Refusal := .next (if stoppedB s then s else doJournalRecord bad s)

/-- DROP_SUMMARY (R426): a second ends; one that dropped records ends with a DROP record. -/
def doDropSummary (s : State) : State :=
  let d := s.jnl.dropped
  let s := if d.isEmpty then s else journal 4 ((List.range 10).flatMap fun i => leBytes 2 (min 0xFFFF (sget (fun _ => 0) d (i + 1)))) s
  { s with jnl := { s.jnl with dropped := [], secCount := 0, secStart := upNs s } }

def execDropSummary (s : State) : Host.Outcome State Fault Refusal := .next (if stoppedB s then s else doDropSummary s)

end Sys2Proof.Machine
end

