-- ==== Sys2Proof/Machine/Maint.lean ====
section
/-! DEFINITION. Park mode (R430), the write window and the maintenance session (R431, R432), flash operations (R433). -/

namespace Sys2Proof.Machine
open Sys2Proof

def mntErr (code orig : Nat) : ErrInfo := { unit := uMNT, inst := 0, code, info := orig * 256 }

/-! ## Park mode (R430, R442) -/

/-- A PARK record (R426): entry or exit, and the wake cause. -/
def parkRecord (exit cause : Nat) (s : State) : State := journal 0x0A [exit, cause % 256, 0, 0] s

def cameraPorts (s : State) : List Nat := (List.range 20).filter (cpPresent s.variant)

/-- A port whose configuration enables it starts again, as though ENABLE had just become 1. -/
def restartPort (p : Nat) (s : State) : State :=
  if portState s p = 0 ∧ act s (CPT_CFG_ENABLE p) ≠ 0 ∧ (scriptFor s p 0).isSome ∧ !isSafe s then beginPort p s else s

/-- The device leaves park mode, or gives its entry up. -/
def leavePark (cause : Nat) (s : State) : State :=
  let total := s.mnt.parkNs + (if s.mnt.parked then upNs s - s.mnt.parkedAt else 0)
  let hours := total / 3600000000000 - s.mnt.parkNs / 3600000000000
  let stopped := s.mnt.parked
  let s := { s with mnt := { s.mnt with parking := false, parked := false, parkedAt := 0, wake := 0, parkNs := total } } |> wr MNT_PARK_GO 0
    |> wr (TWB_STAT_STATE 21) 0 |> wr (TWB_STAT_STATE 22) 0
  let s := if stopped then showClocks s else s
  let s := if hours = 0 then s else addTotal 1 hours s
  each (cameraPorts s) restartPort s |> parkRecord 1 cause

/-- PARK: a write of MNT_PARK with GO = 1. WAKE_CMP is bit 1 of the word. -/
def doPark (o : Orig) (v : Nat) (s : State) : State :=
  if o ≠ .t0 ∨ s.mnt.parked then s
  else
    let s := wr MNT_PARK_WAKE_CMP (bit (hasBit v 1)) s
    if isSafe s || s.mnt.parking then s
    else if isSet s MNT_STAT_SESSION then wr MNT_STAT_LAST_RESULT 8 s
    else
      let s := { s with mnt := { s.mnt with parking := true, wake := 0 } } |> wr MNT_PARK_GO 1
      each (cameraPorts s) parkPort s |> parkRecord 0 0

def execPark (o : Orig) (v : Nat) (s : State) : Host.Outcome State Fault Refusal := .next (doPark o v s)

/-- PARK_CANCEL: a write of MNT_PARK with GO = 0 before the islands have stopped. -/
def doParkCancel (o : Orig) (v : Nat) (s : State) : State :=
  if o ≠ .t0 ∨ s.mnt.parked then s
  else
    let s := wr MNT_PARK_WAKE_CMP (bit (hasBit v 1)) s
    if s.mnt.parking then leavePark 4 s else s

def execParkCancel (o : Orig) (v : Nat) (s : State) : Host.Outcome State Fault Refusal := .next (doParkCancel o v s)

/-- A host port whose lanes idle goes link down (R237). -/
def parkHost (p : Nat) (s : State) : State :=
  if !hpPresent s.variant p || !isSet s (HLK_STAT_UP p) then s else dropLink p s

/-- A port that is still to stop closes what is open. -/
def parkCamera (p : Nat) (s : State) : State := if portState s p = 0 then s else parkPort p (closeAll p 0 false s)

/-- Nothing is on its way between islands: no frame, heat or output frame is in the device, and the transmit buffers are empty (R21). -/
def crossingsEmpty (s : State) : Bool :=
  s.frames.isEmpty && s.running.isEmpty && s.outs.isEmpty && s.txs.all fun x => x.2.queue.isEmpty

/-- The islands stop, and the pins take the states of R442. -/
def stopIslands (s : State) : State :=
  let s := s |> parkHost 0 |> parkHost 1 |> quietOutputs
  let s := { s with pins := { s.pins with gpio := 0, hbOut := false } } |> setPin pinHb 0 0
  let s := if s.pins.fenceLow then driveFence false s else s
  { s with mnt := { s.mnt with parked := true, parkedAt := upNs s } } |> showClocks |> wr (TWB_STAT_STATE 21) 5 |> wr (TWB_STAT_STATE 22) 5

/-- PARK_COMPLETE: the time for entry is over. What a camera port or a weave port still has open is closed; the islands of R18 stop once
every crossing is empty (R21). -/
def doParkComplete (s : State) : State :=
  if s.mnt.parking && !s.mnt.parked && !isSafe s then
    let s := each (cameraPorts s) parkCamera s
    let s := each ((List.range 4).filter (wpPresent s.variant)) linkDown s
    if crossingsEmpty s then stopIslands s else s
  else s

def execParkComplete (s : State) : Host.Outcome State Fault Refusal := .next (doParkComplete s)

/-- PARK_EXIT: a wake has been asked for since the islands stopped (R336, R368). -/
def doParkExit (s : State) : State := if s.mnt.parked && s.mnt.wake != 0 then leavePark s.mnt.wake s else s

def execParkExit (s : State) : Host.Outcome State Fault Refusal := .next (doParkExit s)

/-- Ask the device to leave park mode; the first cause stands. -/
def askWake (cause : Nat) (s : State) : State :=
  if s.mnt.parked && s.mnt.wake == 0 then { s with mnt := { s.mnt with wake := cause } } else s

/-! ## The write window (R431) -/

/-- A fresh 128-bit nonce. -/
def drawNonce (s : State) : State :=
  let n (i : Nat) : Nat := u32 (Config.freeNat (s.freeCount + i))
  { s with freeCount := s.freeCount + 4 } |> wr (MNT_NONCE_NONCE 0) (n 0) |> wr (MNT_NONCE_NONCE 1) (n 1) |> wr (MNT_NONCE_NONCE 2) (n 2)
    |> wr (MNT_NONCE_NONCE 3) (n 3)

/-- PRESENCE_PULSE: a pulse that counts. -/
def doPresencePulse (s : State) : State :=
  if isSet s MNT_STAT_ARMED then
    let s := { s with mnt := { s.mnt with windowAt := upNs s } } |> wr MNT_STAT_WINDOW 1
    if isSet s MNT_STAT_SESSION then mntRecord mntRenew 0 0 s else drawNonce s
  else s

def execPresencePulse (s : State) : Host.Outcome State Fault Refusal := .next (doPresencePulse s)

/-- PRESENCE_HELD. -/
def doPresenceHeld (s : State) : State :=
  if isSet s MNT_STAT_ARMED then s |> recordError ((mntErr 3 0).setting MNT_EVT_PRESENCE) else s

def execPresenceHeld (s : State) : Host.Outcome State Fault Refusal := .next (doPresenceHeld s)

/-- Seconds left of the window (MNT_STAT.WINDOW_S), a begun second counted whole. -/
def windowLeft (s : State) : Nat :=
  if isSet s MNT_STAT_WINDOW then ceilDiv (600000000000 - (upNs s - s.mnt.windowAt)) 1000000000 else 0

/-- WINDOW_EXPIRE (R432): a session ends with its window. -/
def doWindowExpire (s : State) : State := if isSet s MNT_STAT_WINDOW then s |> endSession |> wr MNT_STAT_WINDOW 0 else s

def execWindowExpire (s : State) : Host.Outcome State Fault Refusal := .next (doWindowExpire s)

/-! ## Sessions (R432, R434) -/

/-- The request's 160 bytes, as written to MNT_REQ. -/
def requestBytes (s : State) : List Nat := (List.range 40).flatMap fun i => leBytes 4 (reg s (MNT_REQ_ALL i).addr).toNat

/-- LAST_RESULT of a request: 0x00 for one that opens a session. -/
def requestResult (s : State) (q : List Nat) : Nat :=
  let key := slice q 0x20 64
  if !isSet s MNT_STAT_ARMED || !isSet s MNT_STAT_WINDOW then 1
  else if isSet s MNT_STAT_SESSION then 7
  else if q.take 4 ≠ [0x4D, 0x4E, 0x54, 0x31] ∨ leAt q 8 8 ≠ s.chip.uid then 2
  else if slice q 0x10 16 ≠ (List.range 4).flatMap (fun i => leBytes 4 (rd s (MNT_NONCE_NONCE i))) then 3
  else if s.chip.keyHash ≠ some (sha256 key) then 4
  else if !ecdsaVerify key (slice q 0x60 64) (q.take 0x20) then 5
  else if hasBit (leAt q 4 4) 3 ∧ s.chip.debugLock then 6
  else 0

/-- The session of a granted request; DEBUG drives the device into the safe state (R434). -/
def openSession (n flags : Nat) (tag : List Nat) (s : State) : State :=
  let s := { s with mnt := { s.mnt with keyTag := tag, verified := 0 } } |> wr MNT_STAT_SESSION 1 |> wr MNT_STAT_ORIG n
    |> wr MNT_STAT_FLAGS (flags % 16) |> wr MNT_EVT_SESSION_OPEN 1 |> addTotal 4 1
  let s := mntRecord mntOpen 0 flags s
  if hasBit flags 3 then s |> wr MNT_STAT_DEBUG 1 |> fatalError (mntErr 4 n) else s

/-- SESSION_OPEN: MNT_CTRL.OPEN. Every request uses up the nonce. -/
def doSessionOpen (o : Orig) (s : State) : State :=
  match origNumber o with
  | none => s
  | some n =>
    if !origPresent s.variant o then s
    else
      let q := requestBytes s
      let r := requestResult s q
      let flags := leAt q 4 4
      let tag := (sha256 (slice q 0x20 64)).take 8
      let s := s |> drawNonce |> wr MNT_STAT_LAST_RESULT r
      if r = 0 then openSession n flags tag s
      else s |> journal 8 ([mntOpen, n, r, 0] ++ leBytes 4 flags ++ tag) |> recordError (mntErr 1 n)

def execSessionOpen (o : Orig) (s : State) : Host.Outcome State Fault Refusal := .next (doSessionOpen o s)

/-- The originator whose session is open. -/
def sessionHolder (s : State) (o : Orig) : Bool := isSet s MNT_STAT_SESSION && origNumber o == some (rd s MNT_STAT_ORIG)

/-- SESSION_CLOSE: MNT_CTRL.CLOSE from the session's originator. -/
def doSessionClose (o : Orig) (s : State) : State := if sessionHolder s o then endSession s else s

def execSessionClose (o : Orig) (s : State) : Host.Outcome State Fault Refusal := .next (doSessionClose o s)

/-! ## Flash operations (R433) -/

/-- A result: FLASH_STAT, FLASH_DONE and the journal. -/
def flashResult (op slot arg result cause : Nat) (s : State) : State :=
  s |> wr MNT_FLASH_STAT_BUSY 0 |> wr MNT_FLASH_STAT_RESULT result |> wr MNT_FLASH_STAT_CAUSE cause |> wr MNT_EVT_FLASH_DONE 1
    |> mntRecord mntFlash result (op % 8 * 2 ^ 29 + slot % 2 * 2 ^ 28 + arg % 2 ^ 28)

/-- The operation runs until FLASH_OPERATION_DONE. -/
def flashStart (op slot arg result cause : Nat) (s : State) : State :=
  { s with mnt := { s.mnt with op := some ⟨op, slot, arg, result, cause⟩ } } |> wr MNT_FLASH_STAT_BUSY 1

/-- A command from the session's originator with the right `right`, while no operation runs; from any other originator it is
refused as a CFG write is (R10). -/
def flashCommand (o : Orig) (right op slot arg : Nat) (act : State → State) (s : State) : State :=
  if !origPresent s.variant o then s
  else if !sessionHolder s o then deny MNT_FLASH_CMD_ALL.addr s
  else if isSet s MNT_FLASH_STAT_BUSY then s
  else if !hasBit (rd s MNT_STAT_FLAGS) right then flashResult op slot arg 1 0 s
  else act s

/-- The slot of the loaded image stands unless the other slot has been verified in this session. -/
def slotKept (s : State) (slot : Nat) : Bool := rd s LDR_STAT_IMAGE == slot && !hasBit s.mnt.verified (1 - slot)

/-- First byte and size of a slot in the flash, none if it has none (R38). -/
def slotRange (s : State) (slot : Nat) : Option (Nat × Nat) :=
  if slot = 0 then (if s.chip.flashBytes = 0 then none else some (0, min s.chip.flashBytes 0x4000000))
  else if s.chip.flashBytes < 0x8000000 then none else some (0x4000000, 0x4000000)

def unverify (slot : Nat) (s : State) : State := { s with mnt := { s.mnt with verified := withoutBit s.mnt.verified slot } }

/-- Erase a slot: its bytes read 0xFF. -/
def eraseSlot (slot : Nat) (s : State) : State :=
  { s with flash := s.flash.filter fun c => !(c.1 / 0x4000000 == slot) }

/-- ERASE. -/
def doErase (o : Orig) (slot : Nat) (s : State) : State :=
  let slot := slot % 2
  flashCommand o 1 1 slot 0 (fun s =>
    if slotKept s slot then flashResult 1 slot 0 2 0 s
    else
      match slotRange s slot with
      | none => flashStart 1 slot 0 3 0 (unverify slot s)
      | some _ => s |> unverify slot |> eraseSlot slot |> flashStart 1 slot 0 0 0) s

def execErase (o : Orig) (slot : Nat) (s : State) : Host.Outcome State Fault Refusal := .next (doErase o slot s)

/-- The 4 KiB of MNT_BUF. -/
def bufferBytes (s : State) : List Nat := (List.range 1024).flatMap fun i => leBytes 4 (reg s (MNT_BUF_ALL i).addr).toNat

/-- PROGRAM. A block beyond the slot is refused. -/
def doProgram (o : Orig) (slot arg : Nat) (s : State) : State :=
  let slot := slot % 2
  flashCommand o 1 2 slot arg (fun s =>
    if slotKept s slot || decide (0x4000 ≤ arg) then flashResult 2 slot arg 2 0 s
    else
      match slotRange s slot with
      | none => flashStart 2 slot arg 3 0 (unverify slot s)
      | some r =>
        if r.2 < arg * 4096 + 4096 then flashStart 2 slot arg 3 0 (unverify slot s)
        else
          let s := unverify slot s
          { s with flash := memWrite flashDefault s.flash (r.1 + arg * 4096) (bufferBytes s) } |> flashStart 2 slot arg 0 0) s

def execProgram (o : Orig) (slot arg : Nat) (s : State) : Host.Outcome State Fault Refusal := .next (doProgram o slot arg s)

/-- VERIFY. -/
def doVerify (o : Orig) (slot : Nat) (s : State) : State :=
  let slot := slot % 2
  flashCommand o 1 3 slot 0 (fun s =>
    let c := slotCause s slot s.rollback
    flashStart 3 slot 0 (if c = 0 then 0 else 4) c s) s

def execVerify (o : Orig) (slot : Nat) (s : State) : Host.Outcome State Fault Refusal := .next (doVerify o slot s)

/-- RELOAD: refused while a load runs, and in the safe state, which refuses every CFG write (R428). -/
def doReload (o : Orig) (s : State) : State :=
  flashCommand o 1 4 0 0 (fun s =>
    if isSafe s || s.ldr.phase != .run then flashResult 4 0 0 2 0 s
    else
      let s := if rd s LDR_STAT_OWNER = 4 then discardBank s else s
      s |> beginLoad true |> flashStart 4 0 0 0 0) s

def execReload (o : Orig) (s : State) : Host.Outcome State Fault Refusal := .next (doReload o s)

/-- Both slots verify with ROLLBACK of at least `arg`. -/
def bothReach (s : State) (arg : Nat) : Bool := slotCause s 0 arg == 0 && slotCause s 1 arg == 0

/-- ROLLBACK: the fuse bits are blown until FLASH_OPERATION_DONE. -/
def doRollback (o : Orig) (arg : Nat) (s : State) : State :=
  flashCommand o 2 5 0 arg (fun s =>
    if s.rollback < arg ∧ arg ≤ 64 ∧ bothReach s arg then flashStart 5 0 arg 0 0 s else flashResult 5 0 arg 5 0 s) s

def execRollback (o : Orig) (arg : Nat) (s : State) : Host.Outcome State Fault Refusal := .next (doRollback o arg s)

/-- FLASH_OPERATION_DONE: `fail` if the flash reports an error. A RELOAD is done once the load has ended. -/
def doFlashOperationDone (fail : Bool) (s : State) : State :=
  match s.mnt.op with
  | none => s
  | some x =>
    if x.op = 4 ∧ s.ldr.phase ≠ .run then s
    else
      let s := if fail then brokenFlash s else s
      let result := if fail then 3 else x.result
      let s := { s with mnt := { s.mnt with
        op := none
        verified := if x.op = 3 ∧ result = 0 then withBit s.mnt.verified x.slot else s.mnt.verified } }
      let s := if x.op = 5 ∧ result = 0 then { s with rollback := max s.rollback x.arg } else s
      let s := flashResult x.op x.slot x.arg result x.cause s
      if result = 3 then recordError (mntErr 2 (rd s MNT_STAT_ORIG)) s else s

def execFlashOperationDone (fail : Bool) (s : State) : Host.Outcome State Fault Refusal := .next (doFlashOperationDone fail s)

end Sys2Proof.Machine
end

