-- ==== Sys2Proof/Machine/Motion.lean ====
section
/-! DEFINITION. The motion unit (R327–R344): position channels, compares, observers, snapshots, history, emulators. -/

namespace Sys2Proof.Machine
open Sys2Proof

/-! ## Arithmetic -/

/-- Round `n / d` to the nearest integer, ties away from zero (R339). -/
def rndDiv (n : Int) (d : Nat) : Int :=
  if n < 0 then -(((2 * (-n).toNat + d) / (2 * d) : Nat) : Int) else ((2 * n.toNat + d) / (2 * d) : Nat)

/-- Saturate to a signed width. -/
def satI (w : Nat) (i : Int) : Int := clampI (-(2 ^ (w - 1))) (2 ^ (w - 1) - 1) i

/-- atan(2^−i) in turns × 2^60, for i = 0 upward. -/
def atanTable : List Nat :=
  [144115188075855872, 85076163258429574, 44951908161305065, 22818290470345122, 11453424468330927, 5732295643252264,
   2866847280169571, 1433511120421931, 716766496754739, 358384615492275, 179192478636968, 89596260679883, 44798133010118,
   22399066838831] ++
  [11199533461137, 5599766735784, 2799883368544, 1399941684353, 699970842187, 349985421095, 174992710548, 87496355274,
   43748177637, 21874088818, 10937044409, 5468522205, 2734261102, 1367130551] ++
  [683565276, 341782638, 170891319, 85445659, 42722830, 21361415, 10680707, 5340354, 2670177, 1335088, 667544, 333772,
   166886, 83443] ++
  [41722, 20861, 10430, 5215, 2608, 1304, 652, 326, 163, 81, 41, 20, 10, 5]

/-- Rotate (x, y) onto the x axis and add up the angle. -/
def cordic : Nat → List Nat → Int → Int → Int → Int
  | _, [], _, _, z => z
  | i, t :: ts, x, y, z =>
    if 0 ≤ y then cordic (i + 1) ts (x + y / 2 ^ i) (y - x / 2 ^ i) (z + t) else cordic (i + 1) ts (x - y / 2 ^ i) (y + x / 2 ^ i) (z - t)

/-- atan2(s, c) as a U16 angle, 65,536 to a turn, rounded to the nearest (R331). -/
def atan2u16 (s c : Int) : Nat :=
  let z := if c < 0 then cordic 0 atanTable (-c * 2 ^ 70) (-s * 2 ^ 70) (2 ^ 59) else cordic 0 atanTable (c * 2 ^ 70) (s * 2 ^ 70) 0
  unsgn 16 ((z + 2 ^ 43) / 2 ^ 44)

/-! ## Channels -/

def emptyCh : ChSt :=
  { lines := 0, dir := 0, edgeAt := none, illegals := [], stepUp := 0, ampRun := 0, badRun := 0, fine := none, tick := 0, msgAt := 0, skip := false
    valids := [], p := 0, v := 0, a := 0, steps := [], upd := [] }

def chSt (s : State) (n : Nat) : ChSt := sget (fun _ => emptyCh) s.mot.chans n
def setCh (n : Nat) (x : ChSt) (s : State) : State :=
  { s with mot := { s.mot with chans := sset (fun _ => emptyCh) s.mot.chans n x } }

/-- A field of the configuration that ISL_POS has. -/
def posCfg (s : State) (r : RF) : Nat := cfgI s islPOS r

def chType (s : State) (n : Nat) : Nat := posCfg s (POS_CH_CFG_TYPE n)
def chValid (s : State) (n : Nat) : Bool := isSet s (POS_CH_STAT_VALID n)
def chCount (s : State) (n : Nat) : Nat := rd s (POS_CH_CNT_COUNT n)

def posErr (code inst : Nat) : ErrInfo := { unit := uPOS, inst, code, info := inst * 256 }

/-- The channel exists and its sensor is of one of the types. -/
def chIs (s : State) (n : Nat) (types : List Nat) : Bool := posPresent s.variant && decide (n < 4) && types.contains (chType s n)

/-- The wheel and the steering channel, if the Pattern names one. -/
def wheelCh (s : State) : Option Nat :=
  let c := posCfg s POS_SEL_WHEEL_CH
  if posPresent s.variant ∧ c < 4 then some c else none
def steerCh (s : State) : Option Nat :=
  let c := posCfg s POS_SEL_STEER_CH
  if posPresent s.variant ∧ c < 4 then some c else none

/-- Note VALID and REF as they are from a time on. -/
def noteValid (n t : Nat) (s : State) : State :=
  let x := chSt s n
  let since := if chValid s n then (match x.valids.head? with | some (_, some b, _) => some b | _ => some (upNs s)) else none
  setCh n { x with valids := (t, since, isSet s (POS_CH_STAT_REF n)) :: x.valids } s

/-- The earliest time that a snapshot can still ask for. -/
def keepFrom (s : State) : Nat :=
  s.time.mids.foldl (fun m x => if 0 < gapNs m x.at_ then x.at_ else m) (s.now + 2 ^ 32 - 1000000)

/-- A time is not after another (R308). -/
def notAfter (a t : Nat) : Bool := decide (0 ≤ gapNs t a)

/-- Entries from a time on, and the newest one before it. -/
def pruneBefore {α : Type} (time : α → Nat) (t : Nat) : List α → List α
  | [] => []
  | x :: xs => if 0 < gapNs t (time x) then [x] else x :: pruneBefore time t xs

/-- Forget what no snapshot can ask for. -/
def pruneCh (n : Nat) (s : State) : State :=
  let x := chSt s n
  let t := keepFrom s
  setCh n { x with
    steps := pruneBefore (fun r => r.t) t x.steps
    upd := pruneBefore (fun r => r.1) t x.upd
    valids := pruneBefore (fun r => r.1) t x.valids } s

/-! ## Speed and steering (R341) -/

/-- SPEED of an observer speed, S24 mm/s. -/
def speedOf (s : State) (v : Int) : Int :=
  let m := satI 24 (rndDiv (v * posCfg s POS_WHEEL_SCALE_UM) (2 ^ 32 * 1000))
  if posCfg s POS_SEL_WHEEL_INV = 1 then satI 24 (-m) else m

/-- STEER of a count with 16 fractional bits, S16. -/
def steerOf (s : State) (c16 : Int) : Int :=
  let d := sgn 48 (unsgn 48 (c16 - (posCfg s POS_STEER_ZERO_CNT : Int) * 2 ^ 16))
  satI 16 (rndDiv (d * sgn 32 (posCfg s POS_STEER_SCALE_SCALE)) (2 ^ 32))

/-- VALID has stood for at least 100 ms at a time, measured on the clock that no step moves (R341). -/
def settled (s : State) (t : Nat) (v : Option Nat) : Bool :=
  match v with
  | some b => decide ((b : Int) + 100000000 ≤ upNs s - sinceNs s t)
  | none => false

/-- VALID and REF of a channel as they stood at a time. -/
def validAt (s : State) (n t : Nat) : Option Nat × Bool :=
  match (chSt s n).valids.find? fun r => notAfter r.1 t with
  | some r => (r.2.1, r.2.2)
  | none => (none, false)

/-- SPEED_VALID now. -/
def speedValid (s : State) : Bool := match wheelCh s with | some n => settled s s.now (validAt s n s.now).1 | none => false

/-- SPEED now. -/
def speedNow (s : State) : Int := match wheelCh s with | some n => speedOf s (chSt s n).v | none => 0

/-- POS_SPEED, POS_STEER and POS_PROF as they read now. -/
def posSpeedWord (s : State) : Nat :=
  match wheelCh s with
  | none => 0
  | some n => bit (decide (speedNow s < 0)) * 2 ^ 26 + bit (chValid s n) * 2 ^ 25 + bit (speedValid s) * 2 ^ 24 + unsgn 24 (speedNow s)
def posSteerWord (s : State) : Nat :=
  match steerCh s with
  | none => 0
  | some n => bit (chValid s n && isSet s (POS_CH_STAT_REF n)) * 2 ^ 16 + unsgn 16 (steerOf s ((chCount s n : Int) * 2 ^ 16))
def profSpeed (s : State) : Nat :=
  if speedValid s then min 0xFFFE (rndDiv ((speedNow s).natAbs * 36) 1000).toNat else 0xFFFF

/-! ## Snapshots (R342) -/

/-- Count of a channel at a time, with the record of its last step. -/
def stepAt (s : State) (n t : Nat) : StepRec :=
  let l := (chSt s n).steps
  (l.find? fun r => notAfter r.t t).getD (l.getLast?.getD ⟨t, t, chCount s n, 0, 0, chType s n == 4⟩)

/-- The observer's last update at or before a time. -/
def updAt (s : State) (n t : Nat) : Nat × Int × Int :=
  let l := (chSt s n).upd
  (l.find? fun r => notAfter r.1 t).getD (t, 0, 0)

/-- Speed and fractional count of a channel extrapolated to a time. -/
def extrapolate (s : State) (n t : Nat) : Int × Int :=
  let r := stepAt s n t
  let b := if r.sent then (r.te, r.v, r.a) else updAt s n t
  let d : Int := gapNs t b.1
  (b.2.1 + rndDiv (b.2.2 * d * 2 ^ 8) 1000000000, (r.count : Int) * 2 ^ 16 + rndDiv (b.2.1 * d) 1000000000)

/-- Motion fields with what is not valid at 0 (R221). -/
def maskMotion (wheel : Nat) (speed steer : Int) (flags interp : Nat) : Motion :=
  let sp := if hasBit flags 1 then speed else 0
  ⟨if hasBit flags 0 then wheel else 0, sp, if hasBit flags 2 then steer else 0, flags % 8 + 8 * interp + 16 * bit (decide (sp < 0))⟩

/-- The snapshot of MID_NS. -/
def snapshotAt (s : State) (t : Nat) : Motion :=
  let w := match wheelCh s with
    | some n => let v := (validAt s n t).1; ((stepAt s n t).count, speedOf s (extrapolate s n t).1, bit v.isSome + 2 * bit (settled s t v))
    | none => (0, 0, 0)
  let c := match steerCh s with
    | some n => let v := validAt s n t; (steerOf s (extrapolate s n t).2, bit (v.1.isSome && v.2))
    | none => (0, 0)
  maskMotion w.1 w.2.1 c.1 (w.2.2 + 4 * c.2) 0

/-- A SENT channel has said all that a snapshot needs. -/
def sentReady (s : State) (t : Nat) (n : Option Nat) : Bool :=
  match n with
  | none => true
  | some n => chType s n != 4 || !chValid s n || decide (0 < gapNs (chSt s n).msgAt t)

/-- The snapshot goes to its frame, or waits for the frame's start where one can come. -/
def handSnapshot (x : Mid) (s : State) : State :=
  let m := snapshotAt s x.at_
  let mine (f : FrameSt) : Bool := f.ctx == x.ctx && f.trig == some x.key
  if s.frames.any mine then { s with frames := s.frames.map fun f => if mine f then { f with motion := some m } else f }
  else if !x.use then s
  else { s with mot := { s.mot with snaps := (s.mot.snaps ++ [(x.ctx, x.key, m)]).drop (s.mot.snaps.length + 1 - 64) } }

/-- Take every snapshot that is due and complete. -/
def finishMids (s : State) : State :=
  let ready := s.time.mids.filter fun x => x.due && sentReady s x.at_ (wheelCh s) && sentReady s x.at_ (steerCh s)
  let s := each ready handSnapshot s
  { s with time := { s.time with mids := s.time.mids.filter fun x => !ready.contains x } }

/-- SNAPSHOT: the counter has reached MID_NS + 10 µs. -/
def doSnapshot (s : State) : State :=
  let due (x : Mid) : Mid := if reached s (x.at_ + 10000) then { x with due := true } else x
  finishMids { s with time := { s.time with mids := s.time.mids.map due } }

def execSnapshot (s : State) : Host.Outcome State Fault Refusal := .next (if posPresent s.variant then doSnapshot s else s)

/-! ## Counting (R329, R333–R337) -/

/-- BEHIND of a compare for a count and a direction, 0 at standstill (R337). -/
def behindOf (known : Bool) (dir : Int) (c t : Nat) : Nat :=
  let d := if 0 < dir then sgn 32 (c + 2 ^ 32 - t) else sgn 32 (t + 2 ^ 32 - c)
  bit (known && decide (0 < d))

/-- Set BEHIND of a compare from its channel as it is. -/
def setBehind (i : Nat) (s : State) : State :=
  let n := rd s (POS_CMP_CFG_CH i)
  wr (POS_CMP_CFG_BEHIND i) (behindOf (isSet s (POS_CH_STAT_DIR_KNOWN n)) (chSt s n).dir (chCount s n) (rd s (POS_CMP_POS_T i))) s

/-- A step from `c` by `d` crosses a target (R336). -/
def crosses (c t : Nat) (d : Int) : Bool :=
  let x := sgn 32 (t + 2 ^ 32 - c)
  if 0 < d then decide (1 ≤ x) && decide (x ≤ d) else decide (d ≤ x) && decide (x ≤ -1)

/-- A compare's crossing test at a step of its channel. -/
def testCompare (n c : Nat) (d : Int) (s : State) (i : Nat) : State :=
  if rd s (POS_CMP_CFG_CH i) = n ∧ isSet s (POS_CMP_CFG_ARM i) ∧ crosses c (rd s (POS_CMP_POS_T i)) d then
    let s := s |> wr ⟨POS_CMP_EVT_FIRED.addr, i, i⟩ 1 |> wr (POS_CMP_CFG_ARM i) 0
    if isSet s MNT_PARK_WAKE_CMP then askWake 3 s else s
  else s

/-- Compares of a channel whose direction has changed. -/
def turnCompare (n : Nat) (s : State) (i : Nat) : State := if rd s (POS_CMP_CFG_CH i) = n then setBehind i s else s

/-- Count a step of `d` at time `t` on a VALID channel (R329, R335, R336). -/
def countStep (n : Nat) (d : Int) (t : Nat) (s : State) : State :=
  let x := chSt s n
  if !chValid s n ∨ d = 0 then s
  else if x.skip then setCh n { x with skip := false } s
  else
    let c := chCount s n
    let new := unsgn 32 (c + d)
    let dir : Int := if 0 < d then 1 else -1
    let turn := x.dir != 0 && x.dir != dir
    let s := match x.edgeAt with
      | some t0 => if turn then s else wr (POS_CH_PERIOD_NS n) (min (t - t0) (2 ^ 32 - 1)) s
      | none => s
    let s := s |> wr (POS_CH_CNT_COUNT n) new |> wr (POS_CH_STAT_DIR_KNOWN n) 1 |> wr (POS_CH_STAT_REVERSE n) (bit (decide (d < 0)))
    let s := setCh n { x with dir, edgeAt := some t, stepUp := upNs s, steps := ⟨t, t, new, x.v, x.a, chType s n == 4⟩ :: x.steps } s
    let s := (List.range 8).foldl (testCompare n c d) s
    let s := if turn then (List.range 8).foldl (turnCompare n) s else s
    pruneCh n s

/-- A channel becomes not valid (R333, R334). -/
def loseChannel (n : Nat) (s : State) : State :=
  if chValid s n then
    let s := s |> wr (POS_CH_STAT_VALID n) 0 |> wr (POS_CH_STAT_REF n) 0 |> recordError ((posErr 1 n).setting POS_EVT_CH_LOST)
    let s := setCh n { chSt s n with edgeAt := none, illegals := [], ampRun := 0, badRun := 0 } s
    s |> noteValid n s.now |> finishMids
  else s

/-- An ILLEGAL change of a quadrature or Hall channel (R329, R333). -/
def illegalChange (n lines : Nat) (s : State) : State :=
  let x := chSt s n
  let recent := upNs s :: x.illegals.filter fun u => decide (upNs s < u + 10000000)
  let s := s |> setCh n { x with lines, edgeAt := none, illegals := recent } |> inc (POS_CH_ERRCNT_ILLEGAL n) |> wr POS_EVT_ILLEGAL 1
  if posCfg s (POS_CH_CFG_ILL_MAX n) ≤ recent.length then loseChannel n s else s

/-- Reverse a direction under INV. -/
def invertDir (s : State) (n : Nat) (d : Int) : Int := if posCfg s (POS_CH_CFG_INV n) = 1 then -d else d

/-- Place of a state (A, B) in the Gray sequence that counts forward: A leads B (log entry 34). -/
def quadPlace (lines : Nat) : Nat := if lines % 4 = 0 then 0 else if lines % 4 = 1 then 1 else if lines % 4 = 3 then 2 else 3

/-- Place of a Hall state in the six-state sequence that counts forward, U leading V leading W; none of an illegal state. -/
def hallPlace (lines : Nat) : Option Nat :=
  match lines % 8 with
  | 1 => some 0
  | 3 => some 1
  | 2 => some 2
  | 6 => some 3
  | 4 => some 4
  | 5 => some 5
  | _ => none

/-- The step from one place of a cycle of `m` to another, if they are next to each other. -/
def cycleStep (m p q : Nat) : Option Int :=
  if (p + 1) % m = q then some 1 else if (q + 1) % m = p then some (-1) else none

/-- INPUT_EDGE: the accepted lines of a quadrature (A, B) or Hall (U, V, W) channel have changed; the filter's delay is taken
off the time (R328–R330). -/
def doInputEdge (n levels : Nat) (s : State) : State :=
  let x := chSt s n
  let t := s.now - posCfg s (POS_CH_CFG_FILT n) * 20
  let quad := chType s n == 1
  let lines := if quad then levels % 4 else levels % 8
  if lines = x.lines then s
  else
    let d := if quad then cycleStep 4 (quadPlace x.lines) (quadPlace lines)
      else match hallPlace x.lines, hallPlace lines with
        | some p, some q => cycleStep 6 p q
        | _, _ => none
    match d with
    | some d => s |> setCh n { x with lines } |> countStep n (invertDir s n d) t
    | none => illegalChange n lines s

/-- The levels of a channel that no encoder uses are accepted all the same: every digital input is sampled (R328). -/
def acceptLevels (n levels : Nat) (s : State) : State := setCh n { chSt s n with lines := levels % 8 } s

def execInputEdge (n levels : Nat) (s : State) : Host.Outcome State Fault Refusal :=
  .next (if chIs s n [1, 2] then doInputEdge n levels s else if posPresent s.variant ∧ n < 4 then acceptLevels n levels s else s)

/-- INDEX_EDGE (R334). -/
def doIndexEdge (n : Nat) (s : State) : State :=
  if posCfg s (POS_CH_CFG_Z_EN n) = 1 ∧ chValid s n ∧ !isSet s (POS_CH_STAT_REF n) then
    let t := s.now - posCfg s (POS_CH_CFG_FILT n) * 20
    let z := posCfg s (POS_CH_Z_Z_VALUE n)
    let x := chSt s n
    let te := match x.steps.head? with | some r => r.te | none => t
    s |> setCh n { x with steps := ⟨t, te, z, x.v, x.a, false⟩ :: x.steps } |> wr (POS_CH_CNT_COUNT n) z |> wr (POS_CH_STAT_REF n) 1 |> noteValid n t
  else s

def execIndexEdge (n : Nat) (s : State) : Host.Outcome State Fault Refusal := .next (if chIs s n [1] then doIndexEdge n s else s)

/-- An amplitude fault (R331, R333). -/
def ampFault (n : Nat) (s : State) : State :=
  let k := (chSt s n).ampRun + 1
  let s := s |> setCh n { chSt s n with ampRun := k } |> inc (POS_CH_ERRCNT_AMP n) |> wr POS_EVT_AMP_ERR 1
  if 8 ≤ k then loseChannel n s else s

/-- A good sample at an angle (R331). -/
def angleStep (n ang : Nat) (s : State) : State :=
  let x := { chSt s n with ampRun := 0 }
  let k := posCfg s (POS_CH_CFG_INTERP_LOG2 n)
  let fine := (ang + 2 ^ (15 - k)) / 2 ^ (16 - k) % 2 ^ k
  let s := setCh n { x with fine := some fine } s
  match x.fine with
  | none => s
  | some old =>
    let d := if k = 0 then 0 else sgn k (fine + 2 ^ k - old)
    if 2 ≤ k ∧ (2 : Int) ^ (k - 2) < (d.natAbs : Int) then
      s |> setCh n { chSt s n with edgeAt := none } |> inc (POS_CH_ERRCNT_ILLEGAL n) |> wr POS_EVT_ILLEGAL 1
    else countStep n (invertDir s n d) s.now s

/-- SINCOS_SAMPLE (R331): the angle is exact to ±1 LSB, and which of the three it is stays free (log entry 3). -/
def doSincosSample (n codeSin codeCos : Nat) (s : State) : State :=
  let a : Int := (codeSin % 4096 : Nat) - (posCfg s (POS_CH_SC_OFF_S n) : Int)
  let b : Int := (codeCos % 4096 : Nat) - (posCfg s (POS_CH_SC_OFF_C n) : Int)
  let r2 := (a * a + b * b).toNat
  if r2 < posCfg s (POS_CH_AMP_AMP_MIN n) ^ 2 ∨ posCfg s (POS_CH_AMP_AMP_MAX n) ^ 2 < r2 then ampFault n s
  else
    let off := Config.freeWord s.freeCount % 3
    angleStep n ((atan2u16 a b + 65535 + off) % 65536) { s with freeCount := s.freeCount + 1 }

def execSincosSample (n codeSin codeCos : Nat) (s : State) : Host.Outcome State Fault Refusal :=
  .next (if chIs s n [3] then doSincosSample n codeSin codeCos s else s)

/-- One nibble of the SENT CRC: polynomial x^4 + x^3 + x^2 + 1 (log entry 7). -/
def sentNibble (c x : Nat) : Nat := Nat.xor (crcMsbBits 4 0xD 4 c) (x % 16)

/-- The SENT CRC over the data nibbles: seed 5, with a further zero nibble unless it is the legacy one. -/
def sentCrc (legacy : Bool) (nibs : List Nat) : Nat :=
  let c := nibs.foldl sentNibble 5
  if legacy then c else sentNibble c 0

/-- A SENT message breaks no rule (R332). -/
def sentGood (s : State) (n tick : Nat) (nibs : List Nat) (crc : Nat) (pause : Bool) : Bool :=
  let want := posCfg s (POS_CH_SENT_TICK n) * 100
  let gap (a b : Nat) : Nat := max a b - min a b
  let last := (chSt s n).tick
  decide (5 * gap tick want ≤ want) && (last == 0 || decide (64 * gap tick last ≤ last)) && nibs.length == posCfg s (POS_CH_SENT_NIBBLES n)
    && nibs.all (fun x => decide (x < 16)) && crc == sentCrc (posCfg s (POS_CH_SENT_CRC_LEGACY n) == 1) nibs
    && (!pause || posCfg s (POS_CH_SENT_PAUSE n) == 1)

/-- SENT_MESSAGE (R332): measured tick in ns, data nibbles, CRC nibble, whether a pause pulse follows, whether a pulse was out of its
range, and how long ago the calibration pulse ended. -/
def doSentMessage (n tick : Nat) (nibs : List Nat) (crc : Nat) (pause bad : Bool) (ago : Nat) (s : State) : State :=
  let x := chSt s n
  if bad || !sentGood s n tick nibs crc pause then
    let s := s |> setCh n { x with badRun := x.badRun + 1, tick } |> inc (POS_CH_ERRCNT_SENT n) |> wr POS_EVT_SENT_ERR 1
    if 4 ≤ x.badRun + 1 then loseChannel n s else s
  else
    let w := posCfg s (POS_CH_SENT_WIDTH n)
    let v := ((nibs.drop (posCfg s (POS_CH_SENT_FIRST n))).take w).foldl (fun a b => 16 * a + b) 0
    let t := s.now - ago
    let s := setCh n { x with badRun := 0, tick, fine := some v, msgAt := t } s
    let s := match x.fine with
      | some old => countStep n (invertDir s n (sgn (4 * w) (v + 2 ^ (4 * w) - old))) t s
      | none => s
    finishMids s

def execSentMessage (n tick : Nat) (nibs : List Nat) (crc : Nat) (pause bad : Bool) (ago : Nat) (s : State) : Host.Outcome State Fault Refusal :=
  .next (if chIs s n [4] then doSentMessage n tick nibs crc pause bad ago s else s)

/-- SENT_TIMEOUT (R333). -/
def execSentTimeout (n : Nat) (s : State) : Host.Outcome State Fault Refusal := .next (if chIs s n [4] then loseChannel n s else s)

/-! ## Observers (R338–R340) -/

/-- The measurement of a channel, U32.16. -/
def measure (s : State) (n : Nat) : Nat :=
  let x := chSt s n
  match x.steps.head? with
  | none => chCount s n * 2 ^ 16
  | some r =>
    let per := rd s (POS_CH_PERIOD_NS n)
    let dt := (sinceNs s r.te).toNat
    if chType s n = 3 ∨ chType s n = 4 ∨ per = 0 ∨ 2 * per < dt then r.count * 2 ^ 16
    else unsgn 48 ((r.count : Int) * 2 ^ 16 + x.dir * (min 0xFFFF (dt * 2 ^ 16 / per) : Nat))

/-- π × 10^30. -/
def pi30 : Nat := 3141592653589793238462643383280

/-- k1, k2 and k3 of a bandwidth in Hz (R339): with ωt = 2π × OBS_BW × 10^−5. -/
def obsK (bw : Nat) : Nat × Nat × Nat :=
  let w := 2 * pi30 * bw
  let r (n d : Nat) : Nat := (2 * n + d) / (2 * d)
  (r (3 * w * 2 ^ 16) (10 ^ 35), r (3 * w ^ 2 * 2 ^ 16) (10 ^ 65), r (w ^ 3 * 2 ^ 16) (10 ^ 95))

/-- One update of a channel's observer from a measurement. -/
def observe (bw m : Nat) (x : ChSt) : ChSt :=
  let t : Int := 42950
  let k := obsK bw
  let pp : Int := x.p + rndDiv (x.v * t) (2 ^ 32) + rndDiv (x.a * t * t) (2 ^ 57)
  let e := sgn 48 (unsgn 48 (m - pp))
  { x with
    p := unsgn 48 (pp + rndDiv (k.1 * e) (2 ^ 16))
    v := satI 40 (x.v + rndDiv (x.a * t) (2 ^ 24) + rndDiv (k.2.1 * e) (2 ^ 16))
    a := satI 40 (x.a + rndDiv (k.2.2 * e) (2 ^ 24)) }

/-- Note the observer's state at this time, and show its speed (POS_CH_V, S24.8). -/
def noteUpdate (n : Nat) (s : State) : State :=
  let x := chSt s n
  s |> setCh n { x with upd := (s.now, x.v, x.a) :: x.upd } |> wr (POS_CH_V_V n) (unsgn 32 (x.v / 2 ^ 8)) |> pruneCh n

def observeCh (s : State) (n : Nat) : State :=
  if chType s n != 0 && chValid s n then s |> setCh n (observe (posCfg s (POS_CH_CFG_OBS_BW n)) (measure s n) (chSt s n)) |> noteUpdate n
  else s

/-- OBSERVER_UPDATE: every 10 µs. -/
def execObserverUpdate (s : State) : Host.Outcome State Fault Refusal :=
  .next (if posPresent s.variant then (List.range 4).foldl observeCh s else s)

/-- The observer takes the measurement, at rest. -/
def restObserver (n : Nat) (s : State) : State := s |> setCh n { chSt s n with p := measure s n, v := 0, a := 0 } |> noteUpdate n

/-- STANDSTILL (R340): no step has been counted for STILL_MS. The direction becomes unknown; the observer of a channel that is not
valid has stopped and stays so. -/
def doStandstill (n : Nat) (s : State) : State :=
  if (chSt s n).stepUp + posCfg s POS_SEL_STILL_MS * 1000000 ≤ upNs s then
    let s := if chValid s n then restObserver n s else s
    s |> wr (POS_CH_STAT_DIR_KNOWN n) 0 |> wr (POS_CH_STAT_REVERSE n) 0
  else s

def execStandstill (n : Nat) (s : State) : Host.Outcome State Fault Refusal := .next (if chIs s n [1, 2, 3, 4] then doStandstill n s else s)

/-- REF of a channel that has just become VALID: at once unless an index sets it (R334). -/
def refAtValid (s : State) (n : Nat) : Nat := bit !(chType s n == 1 && posCfg s (POS_CH_CFG_Z_EN n) == 1)

/-- CHANNEL_REVALID (R333, R340). -/
def doChannelRevalid (n : Nat) (s : State) : State :=
  if chValid s n then s
  else
    let s := s |> wr (POS_CH_STAT_VALID n) 1 |> wr (POS_CH_STAT_REF n) (refAtValid s n) |> wr POS_EVT_CH_VALID 1
    s |> setCh n { chSt s n with skip := true } |> noteValid n s.now |> restObserver n

def execChannelRevalid (n : Nat) (s : State) : Host.Outcome State Fault Refusal :=
  .next (if chIs s n [1, 2, 3, 4] then doChannelRevalid n s else s)

/-! ## Compares (R337) -/

/-- COMPARE_ARM: a write of POS_CMP_CFG. -/
def doCompareArm (i v : Nat) (s : State) : State :=
  let s := s |> wr (POS_CMP_CFG_CH i) v |> wr (POS_CMP_CFG_ARM i) (v / 8)
  if hasBit v 3 then setBehind i s else s

def execCompareArm (i v : Nat) (s : State) : Host.Outcome State Fault Refusal :=
  .next (if posPresent s.variant ∧ i < 8 then doCompareArm i v s else s)

/-! ## History (R343) -/

/-- Motion as it is now, values not masked. -/
def motionNow (s : State) : Motion :=
  let w := match wheelCh s with
    | some n => (chCount s n, speedOf s (chSt s n).v, bit (chValid s n) + 2 * bit (speedValid s))
    | none => (0, 0, 0)
  let c := match steerCh s with
    | some n => (steerOf s ((chCount s n : Int) * 2 ^ 16), bit (chValid s n && isSet s (POS_CH_STAT_REF n)))
    | none => (0, 0)
  ⟨w.1, w.2.1, c.1, w.2.2 + 4 * c.2⟩

/-- HISTORY_ENTRY: the newest 256 are kept, newest first. -/
def execHistoryEntry (s : State) : Host.Outcome State Fault Refusal :=
  .next (if posPresent s.variant then { s with mot := { s.mot with hist := (⟨s.now, motionNow s⟩ :: s.mot.hist).take 256 } } else s)

/-- Interpolate between two entries. -/
def interpolate (t : Nat) (x y : HistEnt) : Motion :=
  let f : Int := if notAfter y.t t then 2 ^ 16 else gapNs t x.t * 2 ^ 16 / gapNs y.t x.t
  let mid (a b : Int) : Int := a + rndDiv (f * (b - a)) (2 ^ 16)
  let wheel := unsgn 32 (x.m.wheel + rndDiv (f * sgn 32 (y.m.wheel + 2 ^ 32 - x.m.wheel)) (2 ^ 16))
  maskMotion wheel (mid x.m.speed y.m.speed) (mid x.m.steer y.m.steer) (Nat.land x.m.flags y.m.flags) 1

/-- The two entries that bracket a time, in a list newest first. -/
def bracket (t : Nat) : List HistEnt → Option (HistEnt × HistEnt)
  | y :: x :: rest => if notAfter x.t t then some (x, y) else bracket t (x :: rest)
  | _ => none

def setMotion (id : Nat) (m : Motion) (s : State) : State :=
  { s with frames := s.frames.map fun f => if f.id = id then { f with motion := some m } else f }

/-- The frame waits for its interpolation: free-running, or its midpoint event was discarded. -/
def interpolates (s : State) (f : FrameSt) : Bool :=
  f.motion.isNone && f.incoming.isNone && f.stored.isNone
    && match f.trig with
      | none => true
      | some k => !(s.time.mids.any fun x => x.ctx == f.ctx && x.key == k)

/-- MOTION_INTERPOLATE of a context's frame. -/
def doMotionInterpolate (c : Nat) (s : State) : State :=
  match s.frames.find? fun f => f.ctx == c && interpolates s f with
  | none => s
  | some f =>
    let t := f.midNs
    match s.mot.hist.head?, s.mot.hist.getLast? with
    | some new, some old =>
      if 0 < gapNs t new.t then s
      else if gapNs t old.t < 0 then s |> setMotion f.id ⟨0, 0, 0, 0⟩ |> recordError ({ posErr 2 0 with arg1 := f.ctx }.setting POS_EVT_HIST_MISS)
      else
        match bracket t s.mot.hist with
        | some (x, y) => setMotion f.id (interpolate t x y) s
        | none => setMotion f.id (interpolate t old old) s
    | _, _ => s

def execMotionInterpolate (c : Nat) (s : State) : Host.Outcome State Fault Refusal :=
  .next (if posPresent s.variant then doMotionInterpolate c s else s)

/-! ## Encoder emulation (R344) -/

def emuOf (s : State) (e : Nat) : EmuSt := sget (fun _ => ⟨false, 0, 0, 0, false⟩) s.mot.emus e
def setEmu (e : Nat) (x : EmuSt) (s : State) : State :=
  { s with mot := { s.mot with emus := sset (fun _ => ⟨false, 0, 0, 0, false⟩) s.mot.emus e x } }

/-- Drive A, B and Z for an output count. -/
def driveEmu (e : Nat) (o : Int) (s : State) : State :=
  let g := unsgn 2 o
  let z := posCfg s (EMU_Z_Z_PERIOD e)
  s |> setPin pinEmu (3 * e) (bit (g == 1 || g == 2)) |> setPin pinEmu (3 * e + 1) (bit (g == 2 || g == 3))
    |> setPin pinEmu (3 * e + 2) (bit (z != 0 && o % z == 0))

/-- The outputs hold: in park mode, in the safe state and while the channel is not valid (R344, R352). -/
def emuHeld (s : State) (e : Nat) : Bool := !chValid s (posCfg s (EMU_CFG_CH e)) || isSafe s || s.mnt.parked

/-- EMULATOR_STEP: one Gray step towards the target. -/
def doEmulatorStep (e : Nat) (s : State) : State :=
  let x := emuOf s e
  let n := posCfg s (EMU_CFG_CH e)
  if !x.on || emuHeld s e then s
  else
    let c := chCount s n
    let acc := sgn 48 (unsgn 48 (x.acc + sgn 32 (c + 2 ^ 32 - x.last)))
    let target := acc * posCfg s (EMU_RATIO_NUM e) / posCfg s (EMU_RATIO_DEN e)
    let lag := decide (1024 < (target - x.o).natAbs)
    let s := if lag && !x.lag then s |> recordError ((posErr 3 e).setting POS_EVT_EMU_LAG) else s
    let o := if x.o < target then x.o + 1 else if target < x.o then x.o - 1 else x.o
    s |> setEmu e { x with last := c, acc, o, lag } |> wr (EMU_STAT_OUT e) (unsgn 32 o) |> driveEmu e o

def execEmulatorStep (e : Nat) (s : State) : Host.Outcome State Fault Refusal :=
  .next (if posPresent s.variant ∧ e < 2 then doEmulatorStep e s else s)

end Sys2Proof.Machine
end

