-- ==== Sys2Proof/Machine/Power.lean ====
section
/-! DEFINITION. Camera power (R345–R349), PWM outputs and fold motors (R350, R351), and the MODE pins (R352). -/

namespace Sys2Proof.Machine
open Sys2Proof

/-! ## Power supervisors -/

def hasSupervisor (s : State) (p : Nat) : Bool := decide (p < 16) && cpPresent s.variant p
def pwrOf (s : State) (p : Nat) : PwrSt := sget (fun _ => ⟨0, 0, 0⟩) s.pwrs p
def setPwr (p : Nat) (x : PwrSt) (s : State) : State := { s with pwrs := sset (fun _ => ⟨0, 0, 0⟩) s.pwrs p x }
def pwrState (s : State) (p : Nat) : Nat := rd s (PWR_P_STAT_STATE p)
def pwrErr (code p : Nat) : ErrInfo := { unit := uPWR, inst := p, code, info := p * 256 }

/-- POC_EN is asserted: INRUSH or ON. -/
def powered (s : State) (p : Nat) : Bool := pwrState s p == 1 || pwrState s p == 2

/-- The supervisor trips (R347). -/
def tripPower (p cause : Nat) (s : State) : State :=
  s |> wr (PWR_P_STAT_STATE p) 3 |> wr (PWR_P_STAT_PG p) 0 |> inc (PWR_P_STAT_ATTEMPT p) |> wr (PWR_P_STAT_CAUSE p) cause |> drivePoc p false
    |> recordError ((pwrErr cause p).setting (PWR_P_EVT_TRIP p)) |> powerFault p |> kickSlices

/-- The release of R110: the supervisor returns to INRUSH and the port to POWER. -/
def releasePort (p : Nat) (s : State) : State :=
  if isSafe s then s else (if portState s p = 9 then s |> powerInrush p |> setState p 1 else powerInrush p s)

/-- A LATCHED supervisor is released; ATTEMPT starts again, since it never exceeds RETRY_N + 1 (R348). -/
def unlatch (p : Nat) (s : State) : State :=
  if pwrState s p = 4 ∧ !isSafe s then s |> wr (PWR_P_STAT_ATTEMPT p) 0 |> releasePort p else s

/-- The current limit as it stands (R346). -/
def currentLimit (s : State) (p : Nat) : Nat :=
  if pwrState s p = 1 ∧ upNs s < (pwrOf s p).inrushAt + posCfg s (PWR_P_TIME_INRUSH_MS p) * 1000000 then posCfg s (PWR_P_LIM_OC_INRUSH_MA p)
  else posCfg s (PWR_P_LIM_OC_MA p)

/-- A conversion of a port's voltage (R347 step 3). -/
def voltageScan (p mv : Nat) (s : State) : State :=
  let s := wr (PWR_P_MEAS_MV p) mv s
  if pwrState s p = 2 ∧ (mv < posCfg s (PWR_P_VWIN_UV_MV p) ∨ posCfg s (PWR_P_VWIN_OV_MV p) < mv) then
    let n := (pwrOf s p).out + 1
    let s := setPwr p { pwrOf s p with out := n } s
    if posCfg s PWR_RETRY_OC_N ≤ n then tripPower p 3 s else s
  else setPwr p { pwrOf s p with out := 0 } s

/-- A conversion of a port's current (R347 step 2, R349). -/
def currentScan (p ma : Nat) (s : State) : State :=
  let s := wr (PWR_P_MEAS_MA p) ma s
  let s := if posCfg s (PWR_P_OPEN_OPEN_MA p) < ma then wr (PWR_P_STAT_OPEN p) 0 s else s
  if powered s p ∧ currentLimit s p < ma then
    let n := (pwrOf s p).oc + 1
    let s := setPwr p { pwrOf s p with oc := n } s
    if posCfg s PWR_RETRY_OC_N ≤ n then tripPower p 2 s else s
  else setPwr p { pwrOf s p with oc := 0 } s

/-- A conversion of the supply rail (R349). -/
def railScan (mv : Nat) (s : State) : State :=
  let s := wr PWR_RAIL_MV_MV mv s
  if mv < posCfg s PWR_RAIL_RAIL_UV_MV then s |> recordError ((pwrErr 6 0).setting PWR_EVT_RAIL_UV) else s

/-! ## Fold motors (R351) -/

def foldState (s : State) (m : Nat) : Nat := rd s (FOLD_STAT_STATE m)
def foldErr (code m : Nat) : ErrInfo := { unit := uPWM, inst := m, code, info := m * 256 }
def foldEvt (r : RF) (m : Nat) (s : State) : State := wr ⟨r.addr, r.lo + m, r.lo + m⟩ 1 s

/-- Drive IN1 and IN2 of a channel: the duty of the line that switches, 0 for a low one. -/
def driveFold (m d1 d2 : Nat) (s : State) : State :=
  { s with pins := { s.pins with fold := putBit (putBit s.pins.fold (2 * m) (d1 != 0)) (2 * m + 1) (d2 != 0) } }
    |> setPin pinFold (2 * m) d1 |> setPin pinFold (2 * m + 1) d2

/-- Run: fold is way 1, unfold way 2. -/
def runFold (m way : Nat) (s : State) : State :=
  let d := posCfg s (FOLD_CFG_DUTY m)
  (if way = 1 then driveFold m d 0 s else driveFold m 0 d s) |> wr (FOLD_STAT_STATE m) way

/-- Both lines low, in a state. -/
def stopFold (m st : Nat) (s : State) : State := s |> driveFold m 0 0 |> wr (FOLD_STAT_STATE m) st

/-- A fold fault. -/
def faultFold (m code : Nat) (s : State) : State :=
  let r := PWM_EVT_FOLD_FAULT
  s |> stopFold m 6 |> recordError ((foldErr code m).setting ⟨r.addr, r.lo + m, r.lo + m⟩)

def foldRuns (s : State) (m : Nat) : Bool := foldState s m == 1 || foldState s m == 2

/-- A conversion of a fold motor's current. -/
def foldScan (m ma : Nat) (s : State) : State :=
  let s := wr (FOLD_STAT_MA m) ma s
  if foldRuns s m && decide (posCfg s (FOLD_LIM_OC_MA m) ≤ ma) then faultFold m 2 s else s

/-- The speed forbids the motor to run. -/
def foldForbidden (s : State) (m : Nat) : Bool :=
  let v := profSpeed s
  if v = 0xFFFF then posCfg s (FOLD_VMAX_UNKNOWN_OK m) == 0 else decide (posCfg s (FOLD_VMAX_VMAX m) < v)

/-- A fold or unfold command; one that comes during a BRAKE towards the other way turns the coming run round. -/
def foldCommand (m way : Nat) (s : State) : State :=
  let st := foldState s m
  if isSafe s || s.mnt.parked then s
  else if foldForbidden s m then foldEvt PWM_EVT_FOLD_REJ m s
  else if st = way then s
  else if st = 3 then { s with folds := sset (fun _ => 0) s.folds m way }
  else if foldRuns s m then { stopFold m 3 s with folds := sset (fun _ => 0) s.folds m way }
  else runFold m way s

def execFold (m : Nat) (s : State) : Host.Outcome State Fault Refusal := .next (if m < 2 then foldCommand m 1 s else s)
def execUnfold (m : Nat) (s : State) : Host.Outcome State Fault Refusal := .next (if m < 2 then foldCommand m 2 s else s)

/-- FOLD_STOP. -/
def doFoldStop (m : Nat) (s : State) : State := { stopFold m 0 s with folds := sset (fun _ => 0) s.folds m 0 }
def execFoldStop (m : Nat) (s : State) : Host.Outcome State Fault Refusal := .next (if m < 2 then doFoldStop m s else s)

/-- BRAKE_END. -/
def doBrakeEnd (m : Nat) (s : State) : State :=
  if foldState s m = 3 then
    let way := sget (fun _ => 0) s.folds m
    runFold m way { s with folds := sset (fun _ => 0) s.folds m 0 }
  else s
def execBrakeEnd (m : Nat) (s : State) : Host.Outcome State Fault Refusal := .next (if m < 2 then doBrakeEnd m s else s)

/-- FOLD_STALL: the end position is reached. -/
def doFoldStall (m : Nat) (s : State) : State :=
  if foldRuns s m && decide (posCfg s (FOLD_LIM_STALL_MA m) ≤ rd s (FOLD_STAT_MA m)) then
    s |> stopFold m (foldState s m + 3) |> foldEvt PWM_EVT_FOLD_DONE m
  else s
def execFoldStall (m : Nat) (s : State) : Host.Outcome State Fault Refusal := .next (if m < 2 then doFoldStall m s else s)

/-- FOLD_TIMEOUT. -/
def doFoldTimeout (m : Nat) (s : State) : State := if foldRuns s m then faultFold m 1 s else s
def execFoldTimeout (m : Nat) (s : State) : Host.Outcome State Fault Refusal := .next (if m < 2 then doFoldTimeout m s else s)

/-! ## The power commands -/

/-- A reading with a board scale, U8.8 (R345). -/
def scaled (code scale : Nat) : Nat := min 0xFFFF ((code * scale + 128) / 256)

/-- ADC1_CONVERSION (R345): one input of the scan: voltage and current of port p are 2p and 2p + 1, the rail 32, the fold currents
33 and 34. ADC1 stops in park mode (R352). -/
def doAdc1Conversion (i code : Nat) (s : State) : State :=
  let mv := scaled code (posCfg s PWR_SCALE_VSCALE)
  let ma := scaled code (posCfg s PWR_SCALE_ISCALE)
  if s.mnt.parked then s
  else if i < 32 then
    let p := i / 2
    if !hasSupervisor s p then s else if i % 2 = 0 then voltageScan p mv s else currentScan p ma s
  else if i = 32 then railScan mv s
  else if i < 35 then foldScan (i - 33) ma s
  else s

def execAdc1Conversion (i code : Nat) (s : State) : Host.Outcome State Fault Refusal := .next (doAdc1Conversion i code s)

/-- POC_FAULT_PIN (R347). -/
def execPocFaultPin (p : Nat) (s : State) : Host.Outcome State Fault Refusal :=
  .next (if hasSupervisor s p && powered s p then tripPower p 1 s else s)

/-- The last conversions show the voltage in its window and the current below the limit (R346). -/
def powerFine (s : State) (p : Nat) : Bool :=
  decide (posCfg s (PWR_P_VWIN_UV_MV p) ≤ rd s (PWR_P_MEAS_MV p)) && decide (rd s (PWR_P_MEAS_MV p) ≤ posCfg s (PWR_P_VWIN_OV_MV p))
    && decide (rd s (PWR_P_MEAS_MA p) < currentLimit s p)

/-- POWER_GOOD (R346): PG_MS have passed without a break; the port goes on to SEARCH (R110). -/
def doPowerGood (p : Nat) (s : State) : State :=
  if pwrState s p = 1 ∧ powerFine s p then
    let s := s |> wr (PWR_P_STAT_STATE p) 2 |> wr (PWR_P_STAT_PG p) 1 |> wr (PWR_P_EVT_PG p) 1 |> setPwr p { pwrOf s p with out := 0 }
    if portState s p = 1 then setState p 2 s else s
  else s
def execPowerGood (p : Nat) (s : State) : Host.Outcome State Fault Refusal := .next (if hasSupervisor s p then doPowerGood p s else s)

/-- PG_TIMEOUT (R347). -/
def execPgTimeout (p : Nat) (s : State) : Host.Outcome State Fault Refusal :=
  .next (if hasSupervisor s p && pwrState s p == 1 then tripPower p 4 s else s)

/-- POWER_RETRY (R348). -/
def doPowerRetry (p : Nat) (s : State) : State :=
  if pwrState s p = 3 then
    if rd s (PWR_P_STAT_ATTEMPT p) ≤ posCfg s PWR_RETRY_RETRY_N then releasePort p s
    else s |> wr (PWR_P_STAT_STATE p) 4 |> recordError ((pwrErr 5 p).setting (PWR_P_EVT_LATCHED p))
  else s
def execPowerRetry (p : Nat) (s : State) : Host.Outcome State Fault Refusal := .next (if hasSupervisor s p then doPowerRetry p s else s)

/-- ATTEMPT_RESET (R348). -/
def execAttemptReset (p : Nat) (s : State) : Host.Outcome State Fault Refusal :=
  .next (if hasSupervisor s p && pwrState s p == 2 then wr (PWR_P_STAT_ATTEMPT p) 0 s else s)

/-- POWER_RELEASE (R348). -/
def execPowerRelease (p : Nat) (s : State) : Host.Outcome State Fault Refusal := .next (if hasSupervisor s p then unlatch p s else s)

/-- OPEN_DETECT (R349). -/
def doOpenDetect (p : Nat) (s : State) : State :=
  if pwrState s p = 2 ∧ rd s (PWR_P_MEAS_MA p) < posCfg s (PWR_P_OPEN_OPEN_MA p) then s |> wr (PWR_P_STAT_OPEN p) 1 |> wr (PWR_P_EVT_OPEN p) 1
  else s
def execOpenDetect (p : Nat) (s : State) : Host.Outcome State Fault Refusal := .next (if hasSupervisor s p then doOpenDetect p s else s)

/-! ## PWM outputs (R350) -/

def pwmOf (s : State) (k : Nat) : PwmSt := sget (fun _ => ⟨[], none⟩) s.pwms k
def setPwm (k : Nat) (x : PwmSt) (s : State) : State := { s with pwms := sset (fun _ => ⟨[], none⟩) s.pwms k x }

/-- Drive an output active or inactive. -/
def drivePwm (k : Nat) (on : Bool) (s : State) : State :=
  { s with pins := { s.pins with pwm := putBit s.pins.pwm k on } } |> setPin pinPwm k (bit (on == (posCfg s (PWM_CH_CFG_POL k) == 1)))

/-- min(DUTY, LIM). -/
def pwmDuty (s : State) (k : Nat) : Nat := min (rd s (PWM_CH_DUTY_DUTY k)) (posCfg s (PWM_CH_LIM_LIM k))

/-- PWM outputs work: neither in park mode nor in the safe state (R352). -/
def pwmLive (s : State) (k : Nat) : Bool := decide (k < 8) && !isSafe s && !s.mnt.parked

/-- PWM_PERIOD_START (R350 mode 1). -/
def doPwmPeriodStart (k : Nat) (s : State) : State :=
  if posCfg s (PWM_CH_CFG_MODE k) = 1 then
    let d := (2 * pwmDuty s k * posCfg s (PWM_CH_PER_PER k) + 65536) / 131072
    if d = 0 then s |> setPwm k ⟨[], none⟩ |> drivePwm k false else s |> setPwm k ⟨[], some (s.now + d)⟩ |> drivePwm k true
  else s
def execPwmPeriodStart (k : Nat) (s : State) : Host.Outcome State Fault Refusal := .next (if pwmLive s k then doPwmPeriodStart k s else s)

/-- A pulse begins; if the output is active, it lasts to the later end. -/
def beginPulse (k stop : Nat) (s : State) : State :=
  let x := pwmOf s k
  match x.until_ with
  | some u => setPwm k { x with until_ := some (if 0 < gapNs stop u then stop else u) } s
  | none => s |> setPwm k { x with until_ := some stop } |> drivePwm k true

/-- A fire of a generator with time T starts the pulse of a channel (modes 2 and 3). -/
def pulseAtFire (t : Nat) (s : State) (k : Nat) : State :=
  let mode := posCfg s (PWM_CH_CFG_MODE k)
  let us := if mode = 2 then pwmDuty s k else min (liveAct s (CTX_EXP_TIME (posCfg s (PWM_CH_CFG_CTX k)))) (posCfg s (PWM_CH_LIM_LIM k))
  let start := unsgn 64 ((t : Int) + sgn 32 (posCfg s (PWM_CH_PER_PER k)))
  let stop := start + us * 1000
  if us = 0 ∨ reached s stop then s
  else if reached s start then beginPulse k stop s
  else setPwm k { pwmOf s k with waits := (pwmOf s k).waits ++ [(start, stop)] } s

/-- Every channel that follows a generator. -/
def firePwm (g t : Nat) (s : State) : State :=
  ((List.range 8).filter fun k => pwmLive s k && (posCfg s (PWM_CH_CFG_MODE k) == 2 || posCfg s (PWM_CH_CFG_MODE k) == 3)
    && posCfg s (PWM_CH_CFG_GEN k) == g).foldl (pulseAtFire t) s

/-- PWM_PULSE_START: a pulse's start has come. -/
def doPwmPulseStart (k : Nat) (s : State) : State :=
  let x := pwmOf s k
  match x.waits with
  | [] => s
  | (a, b) :: rest => if reached s a then beginPulse k b (setPwm k { x with waits := rest } s) else s
def execPwmPulseStart (k : Nat) (s : State) : Host.Outcome State Fault Refusal := .next (if pwmLive s k then doPwmPulseStart k s else s)

/-- PWM_PULSE_END: the end of the active interval has come. -/
def doPwmPulseEnd (k : Nat) (s : State) : State :=
  let x := pwmOf s k
  match x.until_ with
  | some u => if reached s u then s |> setPwm k { x with until_ := none } |> drivePwm k false else s
  | none => s
def execPwmPulseEnd (k : Nat) (s : State) : Host.Outcome State Fault Refusal := .next (if k < 8 then doPwmPulseEnd k s else s)

/-! ## MODE pins (R352, R85) -/

/-- MODE_SAMPLE: a value that has stood for 20 ms from its first sample is the debounced one. -/
def doModeSample (v : Nat) (s : State) : State :=
  let v := v % 8
  let s := wr PWR_MODE_RAW v s
  if rd s LDR_PROF_STAT_MODE = v then { s with ldr := { s.ldr with modeRun := 0 } }
  else
    let n := if s.ldr.modeRun ≠ 0 ∧ s.ldr.modeCand = v then s.ldr.modeRun + 1 else 1
    if 21 ≤ n then { s with ldr := { s.ldr with modeRun := 0 } } |> wr LDR_PROF_STAT_MODE v
    else { s with ldr := { s.ldr with modeCand := v, modeRun := n } }
def execModeSample (v : Nat) (s : State) : Host.Outcome State Fault Refusal := .next (doModeSample v s)

end Sys2Proof.Machine
end

