-- ==== Sys2Proof/Machine/Time.lean ====
section
/-! DEFINITION. The time unit (R307–R322): counter, steps, second boundaries, anchors, synchronisation states, triggers. -/

namespace Sys2Proof.Machine
open Sys2Proof

/-- A field of the configuration that ISL_TIME has. -/
def timeCfg (s : State) (r : RF) : Nat := cfgI s islTIME r

def tsuErr (code gen : Nat) : ErrInfo := { unit := uTSU, inst := 0, code, info := gen * 256 }

/-- A 64-bit time less or more an amount. -/
def add64 (t : Nat) (d : Int) : Nat := unsgn 64 ((t : Int) + d)

/-! ## The counter (R307, R308) -/

/-- One ISL_TIME cycle: 1 ns, or 4 ns in park mode, and the correction of TSU_RATE in units of 10^−12. The counter starts at reset
release. -/
def tick (s : State) : State :=
  if s.ldr.phase = .held then s
  else
  let d : Int := if s.mnt.parked then 4 else 1
  let acc := s.time.rateAcc + sgn 32 (rd s TSU_RATE_VALUE) * d
  let whole : Int := if 10 ^ 12 ≤ acc then 1 else if acc ≤ -10 ^ 12 then -1 else 0
  { s with now := add64 s.now (d + whole), time := { s.time with rateAcc := acc - whole * 10 ^ 12 } }

/-- The number of an originator, for what is kept for each. -/
def origKey (o : Orig) : Nat :=
  match o with
  | .hp0 => 0
  | .hp1 => 1
  | .t0 => 2
  | .t1 => 3
  | .svc => 4
  | .diag p => 6 + p
  | .weave f => 16 + f

/-- Latch TSU_TIME_HI for an originator (R317). -/
def latchHi (o : Orig) (s : State) : State :=
  { s with time := { s.time with hiLatch := sset (fun _ => 0) s.time.hiLatch (origKey o) (s.now / 2 ^ 32 % 2 ^ 32 + 1) } }

/-- TSU_TIME_HI as it reads for an originator. -/
def timeHiOf (o : Orig) (s : State) : Nat :=
  let k := sget (fun _ => 0) s.time.hiLatch (origKey o)
  if k = 0 then s.now / 2 ^ 32 % 2 ^ 32 else k - 1

/-- TIME_NS_READ (R308, R317). -/
def doTimeNsRead (o : Orig) (s : State) : State :=
  if origPresent s.variant o then s |> latchHi o |> emit (.readData o TSU_TIME_NS_ALL.addr (timeNs s)) else s
def execTimeNsRead (o : Orig) (s : State) : Host.Outcome State Fault Refusal := .next (doTimeNsRead o s)

/-! ## Rate and steps (R309, R310, R317) -/

def syncState (s : State) : Nat := rd s TSU_STATE_STATE

/-- In ACQUIRING and LOCKED an offset of at most 10,000 ns is removed by rate correction alone (R311). -/
def rateAlone (s : State) : Bool :=
  (syncState s == 1 || syncState s == 2) && decide ((sgn 32 (rd s TSU_OFFSET_VALUE)).natAbs ≤ 10000)

/-- A rate within ±500 ppm (R309), and within ±100 ppm of the measured master rate where rate alone removes the offset (R311). How
the master rate is measured is the model's choice (log entry 115). -/
def rateLimit (s : State) (v : Int) : Int :=
  let v := match (if rateAlone s then s.time.masterRate else none) with
    | some m => clampI (m - 100000000) (m + 100000000) v
    | none => v
  clampI (-500000000) 500000000 v

/-- RATE_WRITE. -/
def doRateWrite (v : Nat) (s : State) : State := wr TSU_RATE_VALUE (unsgn 32 (rateLimit s (sgn 32 v))) s
def execRateWrite (v : Nat) (s : State) : Host.Outcome State Fault Refusal := .next (if stoppedB s then s else doRateWrite v s)

/-- NEXT of a generator, 64 bits (R317). -/
def trgNext (s : State) (g : Nat) : Nat := rd s (TSU_TRG_NEXT_HI_HI g) * 2 ^ 32 + rd s (TSU_TRG_NEXT_NS g)
def setTrgNext (g t : Nat) (s : State) : State := s |> wr (TSU_TRG_NEXT_HI_HI g) (t / 2 ^ 32) |> wr (TSU_TRG_NEXT_NS g) t

/-- The latest boundary with its value after the steps since, on the 32-bit counter. -/
def boundaryNs (s : State) : Nat := unsgn 32 ((rd s TSU_PPS_LAST_NS : Int) + s.time.sinceBoundary)

/-- An extra anchor is due: the latest boundary with its value now (R315). -/
def dueExtra (s : State) : State :=
  let a : AnchorDue := ⟨now64 s - sinceNs s (boundaryNs s), s.time.secs, s.time.stepped, true⟩
  { s with time := { s.time with anchors := s.time.anchors ++ [a] } }

/-- A step of `d` ns: counter, second boundary and every NEXT together. -/
def stepBy (d : Int) (s : State) : State :=
  let s := { s with
    now := add64 s.now d
    time := { s.time with stepped := s.time.stepped + d, sinceBoundary := s.time.sinceBoundary + d, lastDiff := none } }
  let s := dueExtra s
  let s := s |> wr TSU_STEP_VALUE (unsgn 32 d) |> wr TSU_PPS_NEXT_NS (unsgn 32 ((rd s TSU_PPS_NEXT_NS : Int) + d))
  let s := (List.range 32).foldl (fun s g => setTrgNext g (add64 (trgNext s g) d) s) s
  s |> inc TSU_CNT_STEPS |> wr TSU_EVT_STEPPED 1

/-- STEP: the service cores write TSU_STEP. They make no step where R311 has them remove the offset by rate alone (log entry 115). -/
def doStep (v : Nat) (s : State) : State := if rateAlone s then s else stepBy (sgn 32 v) s
def execStep (v : Nat) (s : State) : Host.Outcome State Fault Refusal := .next (if stoppedB s then s else doStep v s)

/-! ## Second boundaries and anchors (R312, R315) -/

/-- SECOND_BOUNDARY: the counter has reached TSU_PPS_NEXT. -/
def doSecondBoundary (s : State) : State :=
  let p := rd s TSU_PPS_NEXT_NS
  if reached s p then
    let a : AnchorDue := ⟨now64 s - sinceNs s p, s.time.secs + 1, s.time.stepped, false⟩
    { s with time := { s.time with secs := s.time.secs + 1, sinceBoundary := 0, anchors := s.time.anchors ++ [a] } }
      |> wr TSU_PPS_LAST_NS p |> wr TSU_PPS_NEXT_NS (p + 1000000000)
  else s
def execSecondBoundary (s : State) : Host.Outcome State Fault Refusal := .next (doSecondBoundary s)

/-- Synchronised nanoseconds less the counter; 0 in FREE, where time counts from reset (R318). -/
def syncBase (s : State) : Int := if syncState s = 0 then 0 else s.time.base

/-- The next instant at which the synchronised time is a whole second (R312). -/
def nextSecond (s : State) : Nat :=
  unsgn 32 (((now64 s + syncBase s) / 1000000000 + 1) * 1000000000 - syncBase s)

/-- PPS_NEXT_WRITE: the service cores realign the second boundary: the value that they write is the next whole second. -/
def execPpsNextWrite (v : Nat) (s : State) : Host.Outcome State Fault Refusal :=
  .next (if stoppedB s ∨ v % 2 ^ 32 ≠ nextSecond s then s else wr TSU_PPS_NEXT_NS v s)

/-- Seconds of an anchor's boundary: synchronised in LOCKED and HOLDOVER, else since reset. -/
def anchorSec (s : State) (a : AnchorDue) : Nat :=
  if syncState s = 2 ∨ syncState s = 3 then
    unsgn 48 ((a.at_ + (s.time.stepped - a.sum) + s.time.base + 500000000) / 1000000000)
  else a.secs % 2 ^ 48

/-- The bytes of an anchor record (R315). -/
def anchorBytes (s : State) (a : AnchorDue) : List Nat :=
  let st := syncState s
  let free := st == 0
  withCrc (leBytes 6 (anchorSec s a) ++ [st, bit (st == 2 || st == 3) + 2 * bit a.extra + 4 * rd s TSU_STATE_SOURCE]
    ++ leBytes 4 (unsgn 32 a.at_) ++ leBytes 4 (if free then 0 else rd s TSU_OFFSET_VALUE) ++ leBytes 4 (rd s TSU_RATE_VALUE)
    ++ padTo 8 (if free then [] else s.time.gmId))

/-- Commit an anchor to the enabled queues of 4 to 7. -/
def commitAnchor (a : AnchorDue) (s : State) : State :=
  let ws := bytesToWords 8 (anchorBytes s a)
  let s := { s with jnl := { s.jnl with anchorSec := anchorSec s a % 2 ^ 32 } }
  [4, 5, 6, 7].foldl (fun s q => qPut q uTSU ws s) s

/-- ANCHOR_COMMIT: the oldest anchor that is due. -/
def doAnchorCommit (s : State) : State :=
  match s.time.anchors with
  | [] => s
  | a :: rest => commitAnchor a { s with time := { s.time with anchors := rest } }
def execAnchorCommit (s : State) : Host.Outcome State Fault Refusal := .next (if stoppedB s then s else doAnchorCommit s)

/-! ## Synchronisation states (R311) -/

/-- Enter a state; the device's LSA tells whether it may be the time root (R393, R402). -/
def enterSync (st : Nat) (s : State) : State :=
  if syncState s = st then s
  else
    { s with time := { s.time with lockRun := 0, badRun := 0 } } |> wr TSU_STATE_STATE st |> wr TSU_EVT_STATE 1 |> sendLsaIfChanged

/-- Synchronisation is lost. -/
def loseSync (s : State) : State :=
  if syncState s = 1 ∨ syncState s = 2 then s |> enterSync 3 |> recordError ((tsuErr 1 0).setting TSU_EVT_SYNC_LOST) else s

/-- The nearest multiple of 2^32. -/
def nearestWrap (i : Int) : Int := (i + 2 ^ 31) / 2 ^ 32 * 2 ^ 32

/-- Count the measurement in ACQUIRING and LOCKED; entry to LOCKED makes an extra anchor due. -/
def judgeOffset (off : Int) (s : State) : State :=
  let lock := timeCfg s TSU_CFG_LOCK_NS
  if syncState s = 1 then
    let n := if off.natAbs ≤ lock then s.time.lockRun + 1 else 0
    if 8 ≤ n then s |> enterSync 2 |> dueExtra
    else { s with time := { s.time with lockRun := n } }
  else if syncState s = 2 then
    let n := if 4 * lock < off.natAbs then s.time.badRun + 1 else 0
    if 2 ≤ n then enterSync 1 s else { s with time := { s.time with badRun := n } }
  else s

/-- The master rate as two measurements show it, with no step between them: TSU_RATE, and what the difference has changed by (log
entry 115). -/
def noteMaster (diff at_ : Int) (s : State) : State :=
  let m := match s.time.lastDiff with
    | some (t0, d0) =>
      if t0 < at_ then some (sgn 32 (rd s TSU_RATE_VALUE) + rndDiv ((diff - d0) * 10 ^ 12) (at_ - t0).toNat) else s.time.masterRate
    | none => s.time.masterRate
  { s with time := { s.time with lastDiff := some (at_, diff), masterRate := m } }

/-- OFFSET_MEASUREMENT: the servo takes the latest measurement. -/
def doOffsetMeasurement (s : State) : State :=
  match s.time.measured with
  | none => s
  | some (off, diff, at_) =>
    let s := noteMaster diff at_ { s with time := { s.time with measured := none } }
    if timeCfg s TSU_CFG_SOURCE = 0 then s
    else
      let s := wr TSU_OFFSET_VALUE (unsgn 32 off) s
      let first := syncState s == 0
      let big := first && decide (10000 < off.natAbs)
      let s := { s with time := { s.time with base := nearestWrap (if big then diff + off else diff) } }
      if first then let s := enterSync 1 s; if big then stepBy (-off) s else s
      else if syncState s = 3 then enterSync 1 s
      else judgeOffset off s
def execOffsetMeasurement (s : State) : Host.Outcome State Fault Refusal := .next (doOffsetMeasurement s)

/-- SYNC_TIMEOUT: three sync intervals without a measurement. -/
def execSyncTimeout (s : State) : Host.Outcome State Fault Refusal := .next (loseSync s)

/-! ## Triggers (R316–R322) -/

/-- The fire point of a time T on the signed 64-bit counter (R316, R317). -/
def firePoint (s : State) (t : Nat) : Int := sgn 64 t - timeCfg s TSU_TRG_ADV_US * 1000

def trgEnabled (s : State) (g : Nat) : Bool := decide (g < 32) && timeCfg s (TSU_TRG_CFG_EN g) != 0

/-- The service cores write NEXT of a generator (R319). -/
def writeNext (g t : Nat) (s : State) : State :=
  if firePoint s t < now64 s + 1000 then s |> recordError ((tsuErr 2 g).setting TSU_EVT_TRG_REJ)
  else { s with time := { s.time with armed := withBit s.time.armed g } } |> setTrgNext g t

/-- The earliest aligned T at or after a time (R318, R320). -/
def alignedFrom (s : State) (g : Nat) (t : Int) : Int :=
  let per : Int := timeCfg s (TSU_TRG_PERIOD_NS g)
  t + (timeCfg s (TSU_TRG_PHASE_NS g) - (t + syncBase s)) % per

/-- Contexts with a triggered entry on a port in an epoch's bank, and the context of each such entry with EXP_IDX 0. -/
def triggeredOn (s : State) (ep p : Nat) : List Nat :=
  addNew [] (((mapEntries s ep p).filter (mapTriggered s ep p)).map (mapCtx s ep p))
def midpointsOn (s : State) (ep p : Nat) : List Nat :=
  ((mapEntries s ep p).filter fun e => mapTriggered s ep p e && mapExp s ep p e == 0).map (mapCtx s ep p)

/-- Queue a midpoint event (R322). -/
def queueMid (g : Nat) (x : Mid) (s : State) : State :=
  if s.time.mids.length < 64 then { s with time := { s.time with mids := s.time.mids ++ [x] } }
  else s |> inc TSU_CNT_MID_OVF |> recordError ((tsuErr 3 g).setting TSU_EVT_MID_OVF)

/-- A generator's trigger with time T and epoch reaches a port. The capture start of a late one is its sending time plus LEAD
(R117). -/
def fireAtPort (g t ep : Nat) (s : State) (p : Nat) : State :=
  let cs := triggeredOn s ep p
  let s := each cs liveRefresh s
  let start := if sendPassed s p t then s.now + leadOf s p else t
  let mid (c : Nat) : Nat := start + liveAct s (CTX_EXP_TIME c) * 500
  let mids := midpointsOn s ep p
  let s' := handTrigger p t ep (cs.filter (ctxEnabled s ep)) ((addNew [] mids).map fun c => (c, u32 (mid c))) s
  if posPresent s.variant then each mids (fun c => queueMid g ⟨c, t, mid c, false, ctxEnabled s ep c⟩) s' else s'

/-- TRIGGER_FIRE: an enabled, aligned generator has reached its fire point. -/
def doTriggerFire (g : Nat) (s : State) : State :=
  let t := trgNext s g
  if trgEnabled s g && hasBit s.time.armed g && decide (firePoint s t ≤ now64 s) then
    let ep := islandEpoch s islTIME
    let ports := (List.range 20).filter fun p => hasBit (timeCfg s (TSU_TRG_CFG_PORTS g)) p && cpPresent s.variant p
    let s := ports.foldl (fireAtPort g t ep) s
    s |> firePwm g t |> setTrgNext g (add64 t (timeCfg s (TSU_TRG_PERIOD_NS g))) |> checkSwap
  else s
def execTriggerFire (g : Nat) (s : State) : Host.Outcome State Fault Refusal := .next (doTriggerFire g s)

/-- The service cores write NEXT of a generator: a fire that is due acts first, and the write then replaces the advanced NEXT (R319). -/
def replaceNext (g t : Nat) (s : State) : State := s |> doTriggerFire g |> writeNext g t

/-- TRG_NEXT_WRITE: high half, then low half. -/
def execTrgNextWrite (g hi lo : Nat) (s : State) : Host.Outcome State Fault Refusal :=
  .next (if g < 32 ∧ !stoppedA s then replaceNext g (hi % 2 ^ 32 * 2 ^ 32 + lo % 2 ^ 32) s else s)

/-- TRIGGER_REALIGN: the earliest aligned T that is no earlier than NEXT and far enough ahead (R319, R320). -/
def doTriggerRealign (g : Nat) (s : State) : State :=
  if trgEnabled s g then
    let s := doTriggerFire g s
    let least : Int := max (sgn 64 (trgNext s g)) (now64 s + 1000 + timeCfg s TSU_TRG_ADV_US * 1000)
    writeNext g (unsgn 64 (alignedFrom s g least)) s
  else s
def execTriggerRealign (g : Nat) (s : State) : Host.Outcome State Fault Refusal := .next (if stoppedA s then s else doTriggerRealign g s)

/-! ## Writes of the service cores to the time unit's STAT registers (R309, R317) -/

/-- A write of the service cores to one of the STAT registers that they steer: TSU_RATE, TSU_STEP, TSU_PPS_NEXT, TSU_TRG_NEXT_HI, which
waits for its low half, and TSU_TRG_NEXT, which applies both halves. Without a waiting high half the present one stands (log entry
115). -/
def svcTimeWrite (a v : Nat) (s : State) : State :=
  let v := v % 2 ^ 32
  if a = TSU_RATE_VALUE.addr then doRateWrite v s
  else if a = TSU_STEP_VALUE.addr then doStep v s
  else if a = TSU_PPS_NEXT_NS.addr then wr TSU_PPS_NEXT_NS v s
  else if 0x900080 ≤ a ∧ a < 0x900100 then
    { s with time := { s.time with trgHi := sset (fun _ => 0) s.time.trgHi ((a - 0x900080) / 4) (v + 1) } }
  else if 0x900100 ≤ a ∧ a < 0x900300 ∧ a % 16 = 12 then
    let g := (a - 0x900100) / 16
    let k := sget (fun _ => 0) s.time.trgHi g
    let hi := if k = 0 then rd s (TSU_TRG_NEXT_HI_HI g) else k - 1
    replaceNext g (hi * 2 ^ 32 + v) { s with time := { s.time with trgHi := sset (fun _ => 0) s.time.trgHi g 0 } }
  else s

end Sys2Proof.Machine
end

