-- ==== Sys2Proof/Machine/Eth.lean ====
section
/-! DEFINITION. The Ethernet ports and the IEEE 802.1AS subset (R311, R313, R314, R323). Timestamps are in 0.1 ns; a command that carries
one gives the raw time of the MAC, converted to the 64-bit counter. What a message that the device sends carries is listed as numbers
(log entry 40). -/

namespace Sys2Proof.Machine
open Sys2Proof

def emptyEth : EthSt := ⟨none, none, 0, 0, none, none, 0, 0, none, 0, 0, 0⟩
def ethOf (s : State) (p : Nat) : EthSt := sget (fun _ => emptyEth) s.eths p
def setEth (p : Nat) (x : EthSt) (s : State) : State := { s with eths := sset (fun _ => emptyEth) s.eths p x }

/-- A field of the configuration that ISL_ETH has. -/
def ethCfg (s : State) (r : RF) : Nat := cfgI s islETH r

def ethErr (code p : Nat) : ErrInfo := { unit := uETH, inst := p, code }

/-- The port is present and enabled. -/
def ethOn (s : State) (p : Nat) : Bool := decide (p < 2) && ethPresent s.variant p && ethCfg s (ETH_CFG_ENABLE p) != 0

/-- The port speaks PTP in the message's domain. -/
def ptpOn (s : State) (p domain : Nat) : Bool := ethOn s p && ethCfg s (ETH_CFG_DOMAIN p) == domain

/-- ING and EGR of an interface mode, 0.1 ns (R314). -/
def macDelay (mode : Nat) : Nat × Nat :=
  if mode = 0 then (384, 256) else if mode = 1 then (640, 448) else if mode = 2 then (1152, 832) else if mode = 3 then (1120, 640)
  else (8800, 6400)

/-- Corrected receipt and transmit times of a raw one (R314). -/
def rxTime (s : State) (p stamp : Nat) : Int :=
  (stamp : Int) - (macDelay (ethCfg s (ETH_CFG_MODE p))).1 - 10 * ethCfg s (ETH_PHY_LAT_RX p)
def txTime (s : State) (p stamp : Nat) : Int :=
  (stamp : Int) + (macDelay (ethCfg s (ETH_CFG_MODE p))).2 + 10 * ethCfg s (ETH_PHY_LAT_TX p)

def asCapable (s : State) (p : Nat) : Bool := isSet s (ETH_STAT_AS_CAPABLE p)

/-- The slave port, if one is enabled. -/
def slavePort (s : State) : Option Nat := (List.range 2).find? fun p => ethOn s p && ethCfg s (ETH_CFG_ROLE p) == 1

/-- clockIdentity of the device, derived from GLB_UID. -/
def ownClock (s : State) : List Nat := beBytes 8 s.chip.uid

/-! ## Sync (R313) -/

/-- SYNC: a slave port notes when the message arrived. -/
def doSync (p seq stamp : Nat) (s : State) : State := setEth p { ethOf s p with sync := some (seq, rxTime s p stamp) } s
def execSync (p domain seq stamp : Nat) (s : State) : Host.Outcome State Fault Refusal :=
  .next (if ptpOn s p domain && ethCfg s (ETH_CFG_ROLE p) == 1 then doSync p seq stamp s else s)

/-- FOLLOW_UP: origin time in 0.1 ns, correction in 2^−16 ns, rate offset, and clockIdentity. An asCapable port that the time unit
follows makes a measurement (R311). -/
def doFollowUp (p seq origin corr rate : Nat) (gm : List Nat) (s : State) : State :=
  match (ethOf s p).sync with
  | none => s
  | some (n, rx) =>
    if n ≠ seq then s
    else
      let c := rndDiv (sgn 64 corr * 10) (2 ^ 16)
      let s := setEth p { ethOf s p with sync := none, follow := some (origin, c, sgn 32 rate, rx) } s
      if timeCfg s TSU_CFG_SOURCE = 1 ∧ timeCfg s TSU_CFG_SLAVE_EP = p ∧ asCapable s p then
        let diff := rndDiv ((origin : Int) + c + 10 * rd s (ETH_STAT_PDELAY p) - rx) 10
        { s with time := { s.time with measured := some (sgn 32 (unsgn 32 (-diff)), diff, rndDiv rx 10), gmId := padTo 8 gm } }
      else s
def execFollowUp (p domain seq origin corr rate : Nat) (gm : List Nat) (s : State) : Host.Outcome State Fault Refusal :=
  .next (if ptpOn s p domain && ethCfg s (ETH_CFG_ROLE p) == 1 then doFollowUp p seq origin corr rate gm s else s)

/-- Two rate offsets × 2^41 in a row: (1 + a)(1 + b) − 1. -/
def chainRates (a b : Int) : Int := a + b + rndDiv (a * b) (2 ^ 41)

/-- Origin time, correction, rate offset and clock of a Sync that leaves at `tx`: the slave port's time, or the device's own; none
while a slave port has no time to pass on. A relay adds its neighbour's rate to the rate offset, and the residence time and the link
delay, at the grandmaster's rate, to the correction. -/
def syncContent (s : State) (tx : Int) : Option (Int × Int × Int × List Nat) :=
  match slavePort s with
  | none => some (tx + 10 * s.time.base, 0, 0, ownClock s)
  | some q =>
    (ethOf s q).follow.map fun f =>
      let rate := chainRates f.2.2.1 (ethOf s q).nrr
      let d : Int := 10 * rd s (ETH_STAT_PDELAY q) + (tx - f.2.2.2)
      (f.1, f.2.1 + d + rndDiv (d * rate) (2 ^ 41), rate, s.time.gmId)

/-- SYNC_SEND: a master port sends Sync and Follow_Up; `stamp` is when Sync passes the MAC. -/
def doSyncSend (p stamp : Nat) (s : State) : State :=
  match syncContent s (txTime s p stamp) with
  | none => s
  | some c =>
    let x := ethOf s p
    let d := ethCfg s (ETH_CFG_DOMAIN p)
    s |> setEth p { x with syncSeq := (x.syncSeq + 1) % 65536 } |> emit (.ethFrame p 0 [d, x.syncSeq])
      |> emit (.ethFrame p 1 ([d, x.syncSeq, unsgn 64 c.1, unsgn 64 c.2.1, unsgn 32 c.2.2.1] ++ c.2.2.2))
def execSyncSend (p stamp : Nat) (s : State) : Host.Outcome State Fault Refusal :=
  .next (if ethOn s p && !stoppedB s && ethCfg s (ETH_CFG_ROLE p) == 2 then doSyncSend p stamp s else s)

/-! ## Peer delay (R313) -/

/-- Three requests in a row have had no response. -/
def pdelayFail (p : Nat) (s : State) : State :=
  let lost := asCapable s p && timeCfg s TSU_CFG_SOURCE == 1 && timeCfg s TSU_CFG_SLAVE_EP == p
  let s := s |> setEth p { ethOf s p with missed := 0, good := 0 } |> wr (ETH_STAT_AS_CAPABLE p) 0 |> recordError ((ethErr 2 p).setting (ETH_EVT_PDELAY_FAIL p))
  if lost then loseSync s else s

/-- PDELAY_REQ_SEND: a request that is still open has had no response. -/
def doPdelayReqSend (p stamp : Nat) (s : State) : State :=
  let x := ethOf s p
  let s := if x.reqAt.isSome then
      let s := setEth p { x with missed := x.missed + 1, good := 0 } s
      if 3 ≤ x.missed + 1 then pdelayFail p s else s
    else s
  let x := ethOf s p
  s |> setEth p { x with pdSeq := (x.pdSeq + 1) % 65536, reqAt := some (txTime s p stamp), respAt := none }
    |> emit (.ethFrame p 2 [ethCfg s (ETH_CFG_DOMAIN p), (x.pdSeq + 1) % 65536])
def execPdelayReqSend (p stamp : Nat) (s : State) : Host.Outcome State Fault Refusal := .next (if ethOn s p && !stoppedB s then doPdelayReqSend p stamp s else s)

/-- PDELAY_REQ: answered with the receipt time, and with the time at which the response leaves. -/
def doPdelayReq (p seq rx tx : Nat) (s : State) : State :=
  let d := ethCfg s (ETH_CFG_DOMAIN p)
  s |> emit (.ethFrame p 3 [d, seq, unsgn 64 (rxTime s p rx + 10 * s.time.base)])
    |> emit (.ethFrame p 4 [d, seq, unsgn 64 (txTime s p tx + 10 * s.time.base)])
def execPdelayReq (p domain seq rx tx : Nat) (s : State) : Host.Outcome State Fault Refusal :=
  .next (if ptpOn s p domain then doPdelayReq p seq rx tx s else s)

/-- PDELAY_RESP to the last request: the peer's receipt time of it. -/
def doPdelayResp (p seq reqRx stamp : Nat) (s : State) : State :=
  let x := ethOf s p
  if x.reqAt.isSome ∧ x.pdSeq = seq then setEth p { x with respAt := some (rxTime s p stamp, (reqRx : Int)) } s else s
def execPdelayResp (p domain seq reqRx stamp : Nat) (s : State) : Host.Outcome State Fault Refusal :=
  .next (if ptpOn s p domain then doPdelayResp p seq reqRx stamp s else s)

/-- The neighbour's rate offset from the last two responses: the peer's transmit times against their receipt times (R313). -/
def neighbourRate (x : EthSt) (t3 t4 : Int) : Int :=
  match x.lastResp with
  | some (t3', t4') => if t4' < t4 then rndDiv (((t3 - t3') - (t4 - t4')) * 2 ^ 41) (t4 - t4').toNat else x.nrr
  | none => x.nrr

/-- PDELAY_RESP_FOLLOW_UP: the peer's transmit time of its response completes the exchange. -/
def doPdelayRespFollowUp (p seq respTx : Nat) (s : State) : State :=
  let x := ethOf s p
  match x.reqAt, x.respAt with
  | some t1, some (t4, t2) =>
    if x.pdSeq ≠ seq then s
    else
      let delay := rndDiv ((t4 - t1) - ((respTx : Int) - t2)) 20
      let good := if delay ≤ 10000 then min 2 (x.good + 1) else 0
      let s := s |> setEth p { x with reqAt := none, respAt := none, missed := 0, good, nrr := neighbourRate x respTx t4, lastResp := some ((respTx : Int), t4) } |> wr (ETH_STAT_PDELAY p) (min 0xFFFF delay.toNat)
      if good = 2 then wr (ETH_STAT_AS_CAPABLE p) 1 s else s
  | _, _ => s
def execPdelayRespFollowUp (p domain seq respTx : Nat) (s : State) : Host.Outcome State Fault Refusal :=
  .next (if ptpOn s p domain then doPdelayRespFollowUp p seq respTx s else s)

/-! ## Frames and links (R323) -/

/-- The port's own address, first transmitted byte lowest. -/
def ethMac (s : State) (p : Nat) : Nat := ethCfg s (ETH_MAC_LO_ADDR p) + 2 ^ 32 * ethCfg s (ETH_MAC_HI_ADDR p)

/-- ETH_FRAME_RECEIVE: length, 802.1Q tags, EtherType and destination of a frame, and whether its FCS is bad. A frame that is
accepted goes on as a command of its own. -/
def doEthFrameReceive (p len tags type dst : Nat) (bad : Bool) (s : State) : State :=
  if bad ∨ len < 64 ∨ 1522 < len then s |> inc (ETH_CNT_RX_ERR p) |> recordError ((ethErr 3 p).setting (ETH_EVT_RX_ERR p))
  else if tags ≤ 1 ∧ ((type = 0x88F7 ∧ dst = 0x0E0000C28001) ∨ (type = 0x88B5 ∧ dst = ethMac s p ∧ ethCfg s (ETH_CFG_DIAG_EN p) = 1)) then s
  else inc (ETH_CNT_DROP p) s
def execEthFrameReceive (p len tags type dst : Nat) (bad : Bool) (s : State) : Host.Outcome State Fault Refusal :=
  .next (if ethOn s p then doEthFrameReceive p len tags type dst bad s else s)

def ethHere (s : State) (p : Nat) : Bool := decide (p < 2) && ethPresent s.variant p

/-- ETH_LINK_UP. -/
def execEthLinkUp (p : Nat) (s : State) : Host.Outcome State Fault Refusal :=
  .next (if ethHere s p && !isSet s (ETH_STAT_LINK p) then s |> wr (ETH_STAT_LINK p) 1 |> wr (ETH_EVT_LINK_UP p) 1 else s)

/-- ETH_LINK_DOWN. -/
def execEthLinkDown (p : Nat) (s : State) : Host.Outcome State Fault Refusal :=
  .next (if ethHere s p && isSet s (ETH_STAT_LINK p) then
    s |> wr (ETH_STAT_LINK p) 0 |> recordError ((ethErr 1 p).setting (ETH_EVT_LINK_DOWN p))
  else s)

end Sys2Proof.Machine
end

