-- ==== Sys2Proof/Machine/Bridge.lean ====
section
/-! DEFINITION. The bridge (R370–R381): accepted accesses, sensor windows, remote-device windows, semaphores, prefetch. -/

namespace Sys2Proof.Machine
open Sys2Proof

/-! ## Originators and windows (R370, R371) -/

/-- Originator codes of the bridge. -/
def brgCode : Orig → Option Nat
  | .hp0 => some 0
  | .hp1 => some 1
  | .t0 => some 2
  | .weave _ => some 3
  | _ => none

/-- Fabric ID of a weave originator, 0 of another. -/
def brgFid : Orig → Nat
  | .weave f => f % 32
  | _ => 0

/-- The code under which an access of two-wire target 1 passes the bridge (R364): the RIGHTS of a window record have no byte for it
(R370), and no BRG_LAST_TAG belongs to it. DESIGN CHOICE (log entry 64). -/
def targetOneCode : Nat := 4

/-- Window index of a device address (R28, R371). -/
def winOf (a : Nat) : Option Nat :=
  if 0x10000000 ≤ a ∧ a < 0x11400000 then some ((a - 0x10000000) / 0x100000)
  else if 0x20000000 ≤ a ∧ a < 0x40000000 then some (20 + (a - 0x20000000) / 0x1000000)
  else none

def winBase (w : Nat) : Nat := if w < 20 then 0x10000000 + w * 0x100000 else 0x20000000 + (w - 20) * 0x1000000

def brgCfg (s : State) (r : RF) : Nat := cfgI s islCORE r

/-- The window record that decides a byte: the last one that covers it (R55). -/
def winRecord (s : State) (w off : Nat) : Option Nat :=
  (List.range 64).reverse.find? fun e =>
    brgCfg s (BRG_WIN_W0_VALID e) == 1 && brgCfg s (BRG_WIN_W0_KIND e) == bit (decide (20 ≤ w))
      && brgCfg s (BRG_WIN_W0_INDEX e) == (if w < 20 then w else w - 20)
      && decide (brgCfg s (BRG_WIN_START_START e) ≤ off)
      && decide (off < brgCfg s (BRG_WIN_START_START e) + brgCfg s (BRG_WIN_LEN_LENGTH e))

/-- Rights of an originator code on a byte of a window. -/
def winRights (s : State) (w off code : Nat) : Nat :=
  match winRecord s w off with
  | some e => (brgCfg s (BRG_WIN_RIGHTS_RIGHTS e) >>> (8 * code)) % 256
  | none => 0

/-- The byte is marked PREFETCH_OK. -/
def winPrefetch (s : State) (w off : Nat) : Bool :=
  match winRecord s w off with
  | some e => brgCfg s (BRG_WIN_W0_PREFETCH_OK e) == 1
  | none => false

/-! ## Accesses -/

/-- Indices of the enabled bytes of an access. -/
def enabledBytes (be : List Bool) : List Nat := (List.range be.length).filter fun i => be.getD i false

/-- An access within one aligned 64-byte block (R372, R373). -/
def inBlock (addr len : Nat) : Bool := decide (0 < len) && decide (addr % 64 + len ≤ 64)

def accByTag (s : State) (tag : Nat) : Option BrgAcc := s.brg.accs.find? fun x => x.tag == tag

def putAcc (x : BrgAcc) (s : State) : State :=
  { s with brg := { s.brg with accs := s.brg.accs.map fun y => if y.tag = x.tag then x else y } }

def dropAcc (x : BrgAcc) (s : State) : State := { s with brg := { s.brg with accs := s.brg.accs.filter fun y => y.tag != x.tag } }

/-- The semaphore of a window is held by this originator (R377). -/
def semHolder (s : State) (w code fid : Nat) : Bool :=
  isSet s (BRG_SEM_STAT_HELD w) && rd s (BRG_SEM_STAT_ORIG w) == code && (code != 3 || rd s (BRG_SEM_STAT_FID w) == fid)

def startLease (w : Nat) (s : State) : State :=
  { s with brg := { s.brg with lease := sset (fun _ => 0) s.brg.lease w (upNs s + brgCfg s BRG_CFG_LEASE_US * 1000) } }

/-- REMAIN_US of a semaphore: what is left of its lease. -/
def leaseLeft (s : State) (w : Nat) : Nat :=
  if isSet s (BRG_SEM_STAT_HELD w) then min ((sget (fun _ => 0) s.brg.lease w - upNs s) / 1000) (2 ^ 14 - 1) else 0

/-- An access leaves the bridge; the holder's lease starts anew (R378). -/
def closeAcc (x : BrgAcc) (s : State) : State :=
  let s := dropAcc x s
  if semHolder s x.w x.orig x.fid then startLease x.w s else s

/-! ## Answers (R373–R376, R401) -/

/-- A BRG_RSP block to a requester (R401); without a route it is lost. -/
def sendRsp (dst tag block status half : Nat) (data : List Nat) (s : State) : State :=
  match ownFid s, portTowards s 1 dst with
  | some own, some p =>
    sendBlock p 9 3 0 ([dst % 256, own % 256] ++ leBytes 2 tag ++ leBytes 4 block ++ [status, half, 0, 0] ++ leBytes 20 0 ++ padTo 32 data) s
  | _, _ => s

/-- The halves of a block, as bits, that hold enabled bytes of an access. -/
def halvesOf (addr : Nat) (be : List Bool) : Nat := bitsOf ((enabledBytes be).map fun i => (addr % 64 + i) / 32)

/-- Read data of a block to a weave requester, one response per half that holds enabled bytes. -/
def sendHalves (dst tag addr halves : Nat) (block : List Nat) (s : State) : State :=
  each ([0, 1].filter (hasBit halves)) (fun h s => sendRsp dst tag (addr / 64 * 64) 0 h (slice block (32 * h) 32) s) s

/-- What a two-wire target sends for a word: its bytes, and under PEC the packet error code (R365). -/
def targetWord (s : State) (t addr : Nat) (bytes : List Nat) : List Nat :=
  if cfgI s islAO (TWB_T_CFG_PEC t) = 1 then bytes ++ [pec8 (leBytes 4 (addr / 4 * 4) ++ bytes)] else bytes

/-- The data of a read reach its originator. -/
def answerRead (x : BrgAcc) (bytes : List Nat) (s : State) : State :=
  if x.dead then s
  else if x.orig = 0 then emit (.readData .hp0 x.addr (leNum bytes)) s
  else if x.orig = 1 then emit (.readData .hp1 x.addr (leNum bytes)) s
  else if x.orig = 2 then emit (.targetData 21 (targetWord s 0 x.addr bytes)) s
  else if x.orig = targetOneCode then emit (.targetData 22 (targetWord s 1 x.addr bytes)) s
  else sendHalves x.fid x.rtag x.addr (halvesOf x.addr x.be) (List.replicate (x.addr % 64) 0 ++ bytes) s

def brgErr (x : BrgAcc) (cause : Nat) : ErrInfo :=
  { unit := uBRG, inst := x.w, code := cause, info := x.orig * 2 ^ 28 + x.tag * 2 ^ 8, arg1 := 0xFFFFFFFF, arg2 := x.addr }

/-- Failed reads return 0xFF; a failure is counted and recorded (R375, R376). -/
def failAcc (x : BrgAcc) (cause : Nat) (s : State) : State :=
  if x.dead then s
  else
    let s := if x.write then s |> inc BRG_CNT_POSTED_FAIL |> recordError ((brgErr x cause).setting BRG_EVT_POSTED_FAIL)
      else s |> inc BRG_CNT_READ_FAIL |> recordError ((brgErr x cause).setting BRG_EVT_READ_FAIL)
    if x.orig = 3 then sendRsp x.fid x.rtag (x.addr / 64 * 64) 2 2 [] s
    else if x.write then s
    else answerRead x (List.replicate x.be.length 0xFF) s

/-- An access that the bridge holds fails. -/
def failHeld (x : BrgAcc) (cause : Nat) (s : State) : State := s |> closeAcc x |> failAcc x cause

/-- A read completes. -/
def finishRead (x : BrgAcc) (bytes : List Nat) (s : State) : State := s |> closeAcc x |> answerRead x bytes

/-- A write completes; a weave requester is told (R401). -/
def finishWrite (x : BrgAcc) (s : State) : State :=
  let s := closeAcc x s
  if x.orig = 3 then sendRsp x.fid x.rtag (x.addr / 64 * 64) 0 2 [] s else s

/-! ## Accepting (R370, R374) -/

def inCompat (s : State) : Bool := brgCfg s BRG_CFG_COMPAT == 1

/-- Room for one more access: 32 posted writes and 16 reads to a window; in CV8404 mode weave accesses wait instead
(R380). -/
def brgRoom (s : State) (w : Nat) (write : Bool) (code : Nat) : Bool :=
  (inCompat s && (decide (20 ≤ w) || code == 3))
    || decide ((s.brg.accs.filter fun x => x.w == w && x.write == write).length < if write then 32 else 16)

/-- Every enabled byte grants what the access needs. -/
def brgAllowed (s : State) (w addr : Nat) (be : List Bool) (write : Bool) (code : Nat) : Bool :=
  (enabledBytes be).all fun i =>
    let r := winRights s w (addr - winBase w + i) code
    r == 2 || (r == 1 && !write)

/-- Size, block, slot and width (R372, R373). -/
def brgShape (s : State) (w addr len : Nat) : Bool :=
  inBlock addr len
    && (decide (20 ≤ w)
        || (let o := addr - winBase w
            brgCfg s (BRG_SLOT_VALID w (o / 0x10000)) == 1
              && (brgCfg s (BRG_SLOT_AW16 w (o / 0x10000)) == 1 || decide (o % 0x10000 < 0x100))))

/-- Direction of a weave request in CV8404 mode (R380): inbound from another device, or outbound to one. -/
def inbound (x : BrgAcc) : Bool := x.orig == 3
def outbound (x : BrgAcc) : Bool := decide (20 ≤ x.w) && x.orig != 3

/-- In CV8404 mode only the 16 oldest requests of a direction and class are in its buffer; the others wait for room (R380). -/
def compatWaits (s : State) (x : BrgAcc) : Bool :=
  let earlier := (s.brg.accs.takeWhile fun y => y.tag != x.tag).filter fun y => y.write == x.write
  inCompat s && ((inbound x && decide (16 ≤ (earlier.filter inbound).length))
    || (outbound x && decide (16 ≤ (earlier.filter outbound).length)))

/-- Accept an access to a window: it is tagged, and fails at once without rights, shape or room. A weave request that
finds no room is answered RETRY (R379). -/
def bridgeAccess (o : Orig) (code w addr : Nat) (write : Bool) (be : List Bool) (data : List Nat) (rtag : Nat) (s : State) : State :=
  if code = 3 ∧ brgRoom s w write code = false then s |> inc BRG_RETRY_CNT_SENT |> sendRsp (brgFid o) rtag (addr / 64 * 64) 1 2 []
  else
    let tag := s.brg.nextTag
    let s := { s with brg := { s.brg with nextTag := (tag + 1) % 2 ^ 16 } }
    let s := if code < 4 then wr (BRG_LAST_TAG_BTAG code) tag s else s
    let x : BrgAcc := { tag, w, orig := code, fid := brgFid o, write, addr, be, data := padTo be.length data, started := false, txns := []
                        got := [], fetch := none, at_ := s.now, retries := 0, rtag, dead := false, span := none }
    if !brgAllowed s w addr be write code then failAcc x 6 s
    else if !brgShape s w addr be.length then failAcc x 7 s
    else if !brgRoom s w write code then failAcc x 5 s
    else { s with brg := { s.brg with accs := s.brg.accs ++ [x] } }

/-! ## Prefetch buffers (R381) -/

def emptyPf : PfBuf := ⟨0, 0, []⟩
def pfOf (s : State) (o : Nat) : PfBuf := sget (fun _ => emptyPf) s.brg.pf o
def setPf (o : Nat) (b : PfBuf) (s : State) : State := { s with brg := { s.brg with pf := sset (fun _ => emptyPf) s.brg.pf o b } }

/-- Discard an originator's buffer; bytes never returned are said. -/
def discardPf (o : Nat) (s : State) : State :=
  let b := pfOf s o
  let s := setPf o emptyPf s
  if b.bytes.any fun x => !x.2 then s |> inc BRG_PF_CNT_DISCARD |> wr BRG_PF_DISCARD_ADDR_ADDR (b.addr / 64 * 64) |> wr BRG_EVT_PF_DISCARD 1
  else s

/-- Discard every buffer that holds bytes of a window. -/
def discardPfWindow (w : Nat) (s : State) : State :=
  each [0, 1, 2, 3] (fun o s => if (pfOf s o).bytes.isEmpty || (pfOf s o).w != w then s else discardPf o s) s

/-- A read outside the block of the originator's buffer discards it. -/
def pfOutside (o addr : Nat) (s : State) : State :=
  let b := pfOf s o
  if b.bytes.isEmpty || b.addr / 64 == addr / 64 then s else discardPf o s

/-- Every enabled byte of a read is in the buffer and has not been returned. -/
def pfHit (b : PfBuf) (addr : Nat) (be : List Bool) : Bool :=
  !(enabledBytes be).isEmpty && (enabledBytes be).all fun i =>
    decide (b.addr ≤ addr + i) && !((b.bytes[addr + i - b.addr]?).map (·.2)).getD true

/-- The buffer with the bytes of a read returned. -/
def pfReturn (b : PfBuf) (addr : Nat) (be : List Bool) : PfBuf :=
  { b with bytes := (List.range b.bytes.length).map fun i =>
      let x := b.bytes.getD i (0, true)
      (x.1, x.2 || (decide (addr ≤ b.addr + i) && be.getD (b.addr + i - addr) false)) }

/-- The bytes of a read, 0 where disabled, out of bytes that stand from address `a` on. -/
def pickBytes (addr : Nat) (be : List Bool) (a : Nat) (bytes : List Nat) : List Nat :=
  (List.range be.length).map fun i => if be.getD i false then bytes.getD (addr + i - a) 0 else 0

/-! ## Carrying out (R372–R374, R378) -/

/-- The access of a window that may start: none while one runs, and during a hold only the holder's. -/
def nextAcc (s : State) (w : Nat) : Option BrgAcc :=
  let xs := s.brg.accs.filter fun x => x.w == w
  if xs.any (·.started) then none
  else if isSet s (BRG_SEM_STAT_HELD w) then xs.find? fun x => semHolder s w x.orig x.fid
  else xs.head?

/-- The port of a sensor window is ready for a transaction. -/
def sensorReady (s : State) (p : Nat) : Bool :=
  decide (3 ≤ portState s p) && decide (portState s p ≤ 7) && (!isAphy p || isSet s (CPT_STATE_LOCK p))

/-- Bus address and register bytes of a device address in a sensor window. -/
def sensorReg (s : State) (p addr : Nat) : Nat × List Nat :=
  let o := addr - winBase p
  let r := o % 0x10000
  (brgCfg s (BRG_SLOT_ADDR7 p (o / 0x10000)), if brgCfg s (BRG_SLOT_AW16 p (o / 0x10000)) = 1 then beBytes 2 r else [r % 256])

/-- The contiguous runs of enabled bytes, as index and bytes, from index `i` on; `cur` is the run that has begun. -/
def runsOf : Nat → List Bool → List Nat → Option (Nat × List Nat) → List (Nat × List Nat)
  | _, [], _, none => []
  | _, [], _, some c => [c]
  | i, b :: bs, d, cur =>
    match b, cur with
    | true, none => runsOf (i + 1) bs (d.drop 1) (some (i, d.take 1))
    | true, some (k, l) => runsOf (i + 1) bs (d.drop 1) (some (k, l ++ d.take 1))
    | false, none => runsOf (i + 1) bs (d.drop 1) none
    | false, some c => c :: runsOf (i + 1) bs (d.drop 1) none

/-- The two-wire writes of a sensor-window write. -/
def writeTxns (s : State) (x : BrgAcc) : List Txn :=
  (runsOf 0 x.be x.data none).map fun r =>
    let a := sensorReg s x.w (x.addr + r.1)
    ⟨.bridge x.tag, a.1, a.2 ++ r.2, 0⟩

/-- Give the next transaction of a started write to its controller, or end the write. -/
def writeOn (x : BrgAcc) (s : State) : State :=
  match x.txns with
  | [] => finishWrite x s
  | t :: rest => s |> putAcc { x with txns := rest } |> queueTxn x.w t

/-- SENSOR_WINDOW_WRITE: the write that is due at a sensor window starts. -/
def doSensorWindowWrite (p : Nat) (s : State) : State :=
  match nextAcc s p with
  | none => s
  | some x =>
    if !x.write || compatWaits s x then s
    else if !sensorReady s p then failHeld x 2 s
    else s |> discardPfWindow p |> fun s => writeOn { x with started := true, txns := writeTxns s x } s

def execSensorWindowWrite (p : Nat) (s : State) : Host.Outcome State Fault Refusal := .next (if p < 20 then doSensorWindowWrite p s else s)

/-- A read of these offsets prefetches: every byte lies in a marked range (R381). -/
def prefetches (s : State) (w first last : Nat) : Bool := (rangeIncl first last).all (winPrefetch s w)

/-- First offset and length of what a read fetches: its span, or with prefetch the block clipped to the marked range. -/
def fetchSpan (s : State) (w first last : Nat) : Nat × Nat :=
  if prefetches s w first last then
    let lo := ((List.range (first % 64)).reverse.takeWhile fun i => winPrefetch s w (first / 64 * 64 + i)).length
    let hi := ((rangeIncl (last % 64 + 1) 63).takeWhile fun i => winPrefetch s w (last / 64 * 64 + i)).length
    (first - lo, last - first + 1 + lo + hi)
  else (first, last - first + 1)

/-- A read with what it is to fetch: first device address and bytes, as a prefetch or for itself. -/
def withSpan (s : State) (x : BrgAcc) : (Nat × Nat) × BrgAcc :=
  let on := enabledBytes x.be
  let o := x.addr - winBase x.w
  let first := o + on.headD 0
  let last := o + on.getLastD 0
  let f := fetchSpan s x.w first last
  let a := (winBase x.w + f.1, f.2)
  (a, { x with span := if prefetches s x.w first last then some a else none })

/-- A read's buffer (R381): what a prefetching read has fetched beyond its own bytes stays, in place of what the originator held. -/
def keepBlock (x : BrgAcc) (a : Nat) (bytes : List Nat) (s : State) : State :=
  if x.span.isSome then setPf x.orig (pfReturn ⟨x.w, a, bytes.map fun b => (b, false)⟩ x.addr x.be) s else s

/-- Start a sensor-window read on its bus. -/
def readOn (x : BrgAcc) (s : State) : State :=
  if (enabledBytes x.be).isEmpty then finishRead x (x.be.map fun _ => 0) s
  else
    let f := withSpan s x
    let r := sensorReg s x.w f.1.1
    s |> putAcc { f.2 with started := true, fetch := some f.1 } |> queueTxn x.w ⟨.bridge x.tag, r.1, r.2, f.1.2⟩

/-- A read whose bytes stand in the originator's buffer is served from it (R381). -/
def servePf (x : BrgAcc) (s : State) : State :=
  let b := pfOf s x.orig
  s |> setPf x.orig (pfReturn b x.addr x.be) |> inc BRG_PF_CNT_HIT |> finishRead x (pickBytes x.addr x.be b.addr (b.bytes.map (·.1)))

/-- SENSOR_WINDOW_READ: the read that is due at a sensor window is served from the buffer, or starts. -/
def doSensorWindowRead (p : Nat) (s : State) : State :=
  match nextAcc s p with
  | none => s
  | some x =>
    if x.write || compatWaits s x then s
    else
      let s := pfOutside x.orig x.addr s
      let b := pfOf s x.orig
      if pfHit b x.addr x.be then servePf x s
      else if !sensorReady s p then failHeld x 2 s
      else readOn x s

/-- The bytes of a sensor-window read have come; what was fetched beyond it stays in the buffer (R381). -/
def sensorData (x : BrgAcc) (data : List Nat) (s : State) : State :=
  match x.fetch with
  | none => s
  | some (a, n) =>
    let bytes := padTo n data
    s |> keepBlock x a bytes |> finishRead x (pickBytes x.addr x.be a bytes)

/-- A two-wire transaction of an access has ended: cause 0, or why it failed (R375, R376). -/
def bridgeTxnDone (tag cause : Nat) (data : List Nat) (s : State) : State :=
  match accByTag s tag with
  | none => s
  | some x =>
    if !x.started then s
    else if cause ≠ 0 then failHeld x cause s
    else if x.write then writeOn x s
    else if x.dead then closeAcc x s
    else sensorData x data s

/-! ## Remote-device windows (R373, R379, R380, R401) -/

/-- Enables of the 64-byte block, bit i for byte i. -/
def blockEnables (addr : Nat) (be : List Bool) : Nat := bitsOf ((enabledBytes be).map fun i => addr % 64 + i)

/-- The bytes that a remote access asks for: its own, or what it prefetches (R381). -/
def fetched (x : BrgAcc) : Nat × List Bool := match x.span with | some f => (f.1, List.replicate f.2 true) | none => (x.addr, x.be)

/-- A BRG_REQ block: operation 1 read, 2 lower half, 3 upper half. -/
def reqPayload (own dst : Nat) (x : BrgAcc) (op : Nat) : List Nat :=
  let block := padTo 64 (List.replicate (x.addr % 64) 0 ++ x.data)
  let f := fetched x
  [dst % 256, own % 256] ++ leBytes 2 x.tag ++ leBytes 4 ((x.addr - winBase x.w) / 64 * 64)
    ++ [op, if x.write then halvesOf x.addr x.be else 0, 0, 0] ++ leBytes 8 (blockEnables f.1 f.2) ++ leBytes 12 0
    ++ (if x.write then slice block (32 * (op - 2)) 32 else leBytes 32 0)

/-- Send the request of an access: one block, or one per half written. What it waits for stands in `fetch`. -/
def sendReq (x : BrgAcc) (s : State) : State :=
  let f := x.w - 20
  let x := { x with at_ := if x.started then x.at_ else s.now }
  let halves := halvesOf (fetched x).1 (fetched x).2
  match ownFid s, portTowards s 1 f with
  | some own, some p =>
    if !hasBit (rd s FAB_MEMBERS_MEMBERS) f then failHeld x 8 s
    else if halves = 0 then (if x.write then finishWrite x s else finishRead x (x.be.map fun _ => 0) s)
    else if x.write then
      putAcc { x with started := true, fetch := some (4, 0) } s
        |> each ([0, 1].filter (hasBit halves)) fun h s => sendBlock p 8 3 0 (reqPayload own f x (2 + h)) s
    else
      s |> putAcc { x with started := true, fetch := some (halves, 0), got := List.replicate 64 0 } |> sendBlock p 8 3 0 (reqPayload own f x 1)
  | _, _ => failHeld x 8 s

/-- REMOTE_WINDOW_ACCESS: the access that is due at a remote-device window is sent as a request. -/
def doRemoteWindowAccess (f : Nat) (s : State) : State :=
  match nextAcc s (20 + f) with
  | none => s
  | some x =>
    if compatWaits s x then s
    else if x.write then sendReq x (discardPfWindow x.w s)
    else
      let s := pfOutside x.orig x.addr s
      let b := pfOf s x.orig
      if pfHit b x.addr x.be then servePf x s
      else if (enabledBytes x.be).isEmpty then sendReq x s
      else sendReq (withSpan s x).2 s

/-- A BRG_RSP addressed to this device: data, the end of a write, RETRY, or a failure (R401). -/
def bridgeRsp (src tag status half : Nat) (data : List Nat) (s : State) : State :=
  match accByTag s tag with
  | none => s
  | some x =>
    match x.fetch with
    | none => s
    | some (missing, _) =>
      if x.w ≠ 20 + src ∨ !x.started then s
      else if status = 1 then
        let s := inc BRG_RETRY_CNT_RECEIVED s
        if brgCfg s BRG_CFG_RETRY_MAX ≤ x.retries + 1 then failHeld x 0x0A s
        else putAcc { x with retries := x.retries + 1, fetch := none } s
      else if status ≠ 0 then failHeld x 8 s
      else if x.write then finishWrite x s
      else if 1 < half ∨ !hasBit missing half then s
      else
        let got := if half = 0 then padTo 32 data ++ x.got.drop 32 else x.got.take 32 ++ padTo 32 data
        let left := withoutBit missing half
        if left = 0 then
          let f := fetched x
          s |> keepBlock x f.1 (slice got (f.1 % 64) f.2.length) |> finishRead x (pickBytes x.addr x.be (x.addr / 64 * 64) got)
        else putAcc { x with got, fetch := some (left, 0) } s

/-- RETRY_REISSUE: the random delay after a RETRY answer ends (R379). -/
def doRetryReissue (tag : Nat) (s : State) : State :=
  match accByTag s tag with
  | none => s
  | some x => if x.started && decide (20 ≤ x.w) && x.fetch.isNone then sendReq x s else s

/-- COMPAT_WRITE_TIMEOUT: a posted write has waited 1 ms for room (R380). -/
def doCompatWriteTimeout (tag : Nat) (s : State) : State :=
  match accByTag s tag with
  | none => s
  | some x => if x.write && !x.started && compatWaits s x then failHeld x 5 s else s

def execCompatWriteTimeout (tag : Nat) (s : State) : Host.Outcome State Fault Refusal := .next (doCompatWriteTimeout tag s)

/-- BRIDGE_READ_TIMEOUT (R375): a two-wire transaction on the bus runs to its end, and its result is discarded. -/
def doBridgeReadTimeout (tag : Nat) (s : State) : State :=
  match accByTag s tag with
  | none => s
  | some x =>
    if x.write || x.dead then s
    else if x.w < 20 ∧ (twbOf s x.w).cur.any (fun t => t.owner = .bridge tag) then s |> putAcc { x with dead := true } |> failAcc x 4
    else
      let s := if x.w < 20 then setTwb x.w { twbOf s x.w with brgQ := (twbOf s x.w).brgQ.filter fun t => t.owner != .bridge tag } s else s
      failHeld x 4 s

/-! ## Semaphores (R377, R378) -/

/-- TAKE: the semaphore is granted if it is free, its lease restarts if the writer holds it. -/
def doTake (o : Orig) (w : Nat) (s : State) : State :=
  match brgCode o with
  | none => s
  | some code =>
    if !origPresent s.variant o then s
    else
      if semHolder s w code (brgFid o) then s |> discardPfWindow w |> startLease w
      else if isSet s (BRG_SEM_STAT_HELD w) then s
      else s |> discardPfWindow w |> wr (BRG_SEM_STAT_HELD w) 1 |> wr (BRG_SEM_STAT_ORIG w) code |> wr (BRG_SEM_STAT_FID w) (brgFid o) |> startLease w

def execTake (o : Orig) (w : Nat) (s : State) : Host.Outcome State Fault Refusal := .next (if w < 52 then doTake o w s else s)

/-- A hold ends: what the holder has tagged goes before what was held back. -/
def endHold (w how : Nat) (s : State) : State :=
  let own (x : BrgAcc) : Bool := x.started || semHolder s w x.orig x.fid
  let here := s.brg.accs.filter fun x => x.w == w
  { s with brg := { s.brg with
      accs := (s.brg.accs.filter fun x => x.w != w) ++ here.filter own ++ here.filter (fun x => !own x)
      lease := sset (fun _ => 0) s.brg.lease w 0 } }
    |> wr (BRG_SEM_STAT_HELD w) 0 |> wr (BRG_SEM_STAT_ORIG w) 0 |> wr (BRG_SEM_STAT_FID w) 0 |> wr (BRG_SEM_STAT_LAST_REL w) how

/-- SEMAPHORE_RELEASE: by the holder only. -/
def doSemaphoreRelease (o : Orig) (w : Nat) (s : State) : State :=
  match brgCode o with
  | none => s
  | some code => if semHolder s w code (brgFid o) then endHold w 1 s else s

def execSemaphoreRelease (o : Orig) (w : Nat) (s : State) : Host.Outcome State Fault Refusal :=
  .next (if w < 52 then doSemaphoreRelease o w s else s)

/-- LEASE_EXPIRE. -/
def doLeaseExpire (w : Nat) (s : State) : State :=
  if isSet s (BRG_SEM_STAT_HELD w) then s |> endHold w 2 |> wr BRG_EVT_SEM_EXPIRED 1 else s

def execLeaseExpire (w : Nat) (s : State) : Host.Outcome State Fault Refusal := .next (if w < 52 then doLeaseExpire w s else s)

/-- PREFETCH_AGE_EXPIRE: the buffer of an originator code is too old. -/
def execPrefetchAgeExpire (o : Orig) (s : State) : Host.Outcome State Fault Refusal :=
  .next (match brgCode o with | none => s | some c => discardPf c s)

end Sys2Proof.Machine
end

