-- ==== Sys2Proof/Machine/Camera.lean ====
section
/-! DEFINITION. The camera ports' commands (R90–R122, R470, R475, R476): packets, link, states, scripts, triggers and
latency measurement. -/

namespace Sys2Proof.Machine
open Sys2Proof

def portExists (s : State) (p : Nat) : Bool := decide (p < 20) && cpPresent s.variant p

/-! ## Packets (R96–R106) -/

/-- A packet whose header cannot be corrected, or that retransmission could not repair, is discarded (R96).  An unreadable header
names no channel and no data type, so its error carries 0 in both (DEDUCED, log entry 60). -/
def lostPacket (p vc dt : Nat) (f : PktFlags) (s : State) : State :=
  if f.rtxFail then
    s |> inc (CPT_PHY_CNT_RTX_FAIL p) |> recordError ((portErr p 0x10 vc dt noCtx 0).setting (CPT_EVT_PKT_ERR p))
  else s |> inc (CPT_PKT_ERR_HDR p) |> recordError ((portErr p 0x01 0 0 noCtx 0).setting (CPT_EVT_PKT_ERR p))

/-- Retransmission exists on an A-PHY port that has CPT_CFG.RTX set (R91); elsewhere no packet is repaired or lost by it. -/
def linkFlags (s : State) (p : Nat) (f : PktFlags) : PktFlags :=
  if isAphy p && eff s (CPT_CFG_RTX p) != 0 then f else { f with rtx := false, rtxFail := false }

/-- A packet repaired by retransmission is used and counted. -/
def countRtx (p : Nat) (f : PktFlags) (s : State) : State := if f.rtx then inc (CPT_PHY_CNT_RTX p) s else s

def unmapped (p vc dt : Nat) (s : State) : State :=
  s |> inc (CPT_DISC_UNMAPPED p) |> wr (CPT_UNMAPPED_LAST_VC p) vc |> wr (CPT_UNMAPPED_LAST_DT p) dt
    |> recordError (portErr p 0x0A vc dt noCtx 0)

/-- The sensor frame counter of a VC after a frame number (R101), and whether the number was skipped to. -/
def nextCounter (old fn : Nat) : Nat × Bool :=
  if fn = 0 then (u32 (old + 1), false)
  else
    let prev := old % 2 ^ 16
    let high := old / 2 ^ 16 + (if fn ≤ prev then 1 else 0)
    (u32 (high * 2 ^ 16 + fn), fn ≠ prev + 1 && fn ≠ 1)

/-- The partner has delivered this frame already (R409): its FRAME_CNT, and later frames count in step. -/
def matchDeliver (p vc c cap fc : Nat) (s : State) : Nat × State :=
  match s.rly.unmatched.find? fun u => u.1 == c && u.2.1 == cap with
  | none => (fc, s)
  | some u =>
    let n := u.2.2.1
    let x := camOf s p
    let old := sget (fun _ => 0) x.fcs vc
    (n, { s with rly := { s.rly with unmatched := s.rly.unmatched.filter fun v => v != u } }
      |> setCam p { x with fcs := sset (fun _ => 0) x.fcs vc (n / 2 ^ 16 * 2 ^ 16 + old % 2 ^ 16) })

/-- Open a frame of a context (R100, R118, R119, R322). -/
def openFrame (p vc c ep fc : Nat) (t : Option TrigSt) (s : State) : State :=
  let s := s |> liveRefresh c |> countStart c
  let cap := match t with | some t => u32 t.time | none => u32 (s.now + 2 ^ 32 - eff s (CPT_FS_LAT_NS p))
  let mid := match t with
    | some t => ((t.mids.find? fun x => x.1 == c).map (·.2)).getD (midNs (u32 t.time) (liveAct s (CTX_EXP_TIME c)))
    | none => midNs cap (liveAct s (CTX_EXP_TIME c))
  let status := match t with | some t => bit t.late * 2 ^ 10 | none => 2 ^ 9
  let parts := (entriesOfCtx s ep p c).map fun e => ⟨e, 0, mapVc s ep p e == vc, false, none, none⟩
  let r := matchDeliver p vc c cap fc s
  let s := r.2
  let key := t.map (·.key)
  let mine (x : Nat × Nat × Motion) : Bool := x.1 == c && some x.2.1 == key
  let motion := (s.mot.snaps.find? mine).map fun x => x.2.2
  let s := { s with mot := { s.mot with snaps := s.mot.snaps.filter fun x => !mine x } }
  let f : FrameSt := { newFrame s.nextFrame c p ep r.1 cap mid status key parts with motion }
  { s with frames := s.frames ++ [f], nextFrame := s.nextFrame + 1 }
    |> wr (CTX_EPOCH_CUR c) ep |> wr (CTX_LINES_IN c) 0 |> wr (CTX_LINES_OUT c) 0 |> wr (CTX_FSTATE c) 0

/-- A frame start within the association window of the trigger (R118). -/
def inWindow (s : State) (p : Nat) (t : TrigSt) : Bool :=
  decide (0 ≤ sinceNs s t.time) && decide (sinceNs s t.time ≤ eff s (CPT_TRIG_WIN_US p) * 1000)

/-- Contexts of the port's trigger that a frame start on the VC serves, under the trigger's epoch. -/
def triggeredContexts (s : State) (p vc : Nat) : List Nat :=
  match (camOf s p).trig with
  | none => []
  | some t =>
    if inWindow s p t then
      addNew [] (((entriesOnVc s t.epoch p vc).filter fun e => mapTriggered s t.epoch p e && ctxEnabled s t.epoch (mapCtx s t.epoch p e)
        && t.ctxs.contains (mapCtx s t.epoch p e)).map (mapCtx s t.epoch p))
    else []

/-- Open frames that a frame start on the VC closes first (R104): those with no frame end on it yet. A frame whose end on this VC has
come stays open on its other VCs, and the frame start opens the next frame (log entry 85). -/
def closedByStart (s : State) (p vc : Nat) : List FrameSt :=
  (openFrames s p).filter fun f => f.parts.any fun x => mapVc s f.epoch p x.e == vc && x.started && !x.ended

/-- A frame open on another VC whose entry on this VC now starts (R100). -/
def startsPart (s : State) (p vc : Nat) (f : FrameSt) : Bool :=
  f.isOpen && f.port == p && f.parts.any fun x => mapVc s f.epoch p x.e == vc && !x.started

def markStarted (s : State) (p vc : Nat) (f : FrameSt) : FrameSt :=
  if startsPart s p vc f then
    { f with parts := f.parts.map fun x => if mapVc s f.epoch p x.e = vc then { x with started := true } else x }
  else f

/-- Take the trigger's contexts that have been served. -/
def takeTrigger (p : Nat) (cs : List Nat) (s : State) : State :=
  match (camOf s p).trig with
  | none => s
  | some t =>
    if cs.isEmpty then s
    else
      let left := t.ctxs.filter fun c => !cs.contains c
      setCam p { camOf s p with trig := if left.isEmpty then none else some { t with taken := true, ctxs := left } } s

/-- A free-running frame of a triggered entry counts as untriggered (R118), once for each context that the frame start serves (log
entry 114). -/
def openFree (p vc fc ep : Nat) (s : State) (c : Nat) : State :=
  let trig := (entriesOnVc s ep p vc).any fun e => mapCtx s ep p e == c && mapTriggered s ep p e
  let s := if trig then s |> inc (CPT_TRIG_CNT_UNTRIGGERED p) |> wr (CPT_EVT_TRIG_ERR p) 1 else s
  openFrame p vc c ep fc none s

/-- An accepted frame start on a mapped VC. A port that is to park starts no frame (R430). -/
def startFrames (p vc fn : Nat) (s : State) : State :=
  let ep := islandEpoch s (islCP p)
  let a := if s.mnt.parking then [] else triggeredContexts s p vc
  let here := if s.mnt.parking then [] else addNew [] ((entriesOnVc s ep p vc).map (mapCtx s ep p))
  let s := (closedByStart s p vc).foldl (fun s f => closeFrame f.id 0 false (some vc) s) s
  let joined := (s.frames.filter (startsPart s p vc)).map (·.ctx)
  let s := { s with frames := s.frames.map (markStarted s p vc) }
  let n := nextCounter (sget (fun _ => 0) (camOf s p).fcs vc) fn
  let s := setCam p { camOf s p with fcs := sset (fun _ => 0) (camOf s p).fcs vc n.1 } s
  let s := if n.2 then inc (CPT_SEQ_CNT_FRAME_SKIP p) s else s
  let trig := (camOf s p).trig
  let a := a.filter fun c => !joined.contains c
  let free := here.filter fun c => !a.contains c && !joined.contains c && ctxEnabled s ep c
  let s := match trig with
    | some t => a.foldl (fun s c => openFrame p vc c t.epoch n.1 (some t) s) s
    | none => s
  let s := takeTrigger p a s
  checkSwap (parkPort p (free.foldl (openFree p vc n.1 ep) s))

/-- FRAME_START_PACKET (R96, R101, R104, R118, R119). -/
def doFrameStart (p vc fn : Nat) (f : PktFlags) (s : State) : State :=
  let f := linkFlags s p f
  if !accepting s p then s
  else if f.hdrBad ∨ f.rtxFail then lostPacket p vc 0 f s
  else
    let s := countRtx p f s
    let ep := islandEpoch s (islCP p)
    let es := entriesOnVc s ep p vc
    let trig := triggeredContexts s p vc
    if 16 ≤ vc ∨ (es.isEmpty ∧ trig.isEmpty) then unmapped p vc 0 s
    else if trig.isEmpty ∧ !(es.any fun e => ctxEnabled s ep (mapCtx s ep p e)) then inc (CPT_DISC_CTX_OFF p) s
    else startFrames p vc (fn % 2 ^ 16) s

def execFrameStartPacket (p vc fn : Nat) (f : PktFlags) (s : State) : Host.Outcome State Fault Refusal :=
  .next (if portExists s p then kickSlices (doFrameStart p vc fn f s) else s)

/-- End the entries of the VC; the frame closes when every entry has ended (R100, R103). -/
def endParts (p vc : Nat) (s : State) (f : FrameSt) : State :=
  let f' := { f with parts := f.parts.map fun x => if mapVc s f.epoch p x.e = vc then { x with started := true, ended := true } else x }
  let s := putFrame f' s
  if f'.parts.all (·.ended) then closeFrame f.id 0 false (some vc) s else s

/-- Open frames with an entry on the VC whose frame end has not come. -/
def endingFrames (s : State) (p vc : Nat) : List FrameSt :=
  (openFrames s p).filter fun g => g.parts.any fun x => mapVc s g.epoch p x.e == vc && x.started && !x.ended

/-- FRAME_END_PACKET (R103, R106). One that ends no frame is unmapped where no entry has its VC (R93, R96), and counted as CTX_OFF
where every context of the VC is disabled (R134). -/
def doFrameEnd (p vc : Nat) (f : PktFlags) (s : State) : State :=
  let f := linkFlags s p f
  if !accepting s p then s
  else if f.hdrBad ∨ f.rtxFail then lostPacket p vc 1 f s
  else
    let s := countRtx p f s
    let ep := islandEpoch s (islCP p)
    let es := entriesOnVc s ep p vc
    let open_ := endingFrames s p vc
    if !open_.isEmpty then open_.foldl (endParts p vc) s |> parkPort p
    else if 16 ≤ vc ∨ es.isEmpty then unmapped p vc 1 s
    else if es.any fun e => ctxEnabled s ep (mapCtx s ep p e) then s
    else inc (CPT_DISC_CTX_OFF p) s

def execFrameEndPacket (p vc : Nat) (f : PktFlags) (s : State) : Host.Outcome State Fault Refusal :=
  .next (if portExists s p then kickSlices (doFrameEnd p vc f s) else s)

/-- The open frame and entry that a long packet belongs to. -/
def partFor (s : State) (p vc dt : Nat) : Option (FrameSt × Part) :=
  (openFrames s p).findSome? fun f =>
    (f.parts.find? fun x => x.started && !x.ended && mapVc s f.epoch p x.e == vc && mapDt s f.epoch p x.e == dt).map fun x => (f, x)

/-- What the checks of R96–R103 make of a line: its pixels, status bits, and which errors to report. -/
structure LineCheck where
  px : List Nat
  flags : Nat
  short : Bool
  long : Bool
  concealed : Bool
  /-- the line as received is good: a later line may repeat it (R97). -/
  good : Bool

/-- Check a received line against PIXELS and its CRC policy (R97, R103); one whose excess pixels the port dropped is short (R94). -/
def checkLine (s : State) (f : FrameSt) (x : Part) (dt : Nat) (payload : List Nat) (k : Nat) (pf : PktFlags) : LineCheck :=
  let want := mapPixels s f.epoch f.port x.e
  let fill := fillPixel s f.epoch f.ctx dt
  let got0 := unpack dt payload.length payload
  let got := match pf.keep with | some n => got0.take n | none => got0
  let short := pf.keep.isSome || decide (got.length < want)
  let long := !pf.keep.isSome && decide (want < got.length)
  let px := got.take want ++ List.replicate (want - got.length) fill
  let lenFlags := bit short * 2 + bit long * 4
  if !pf.crcBad then ⟨px, lenFlags, short, long, false, true⟩
  else
    let policy := cfgE s f.epoch (CPT_MAP_W3_CRC_POLICY f.port x.e)
    let above := if k % 2 = 0 then x.good0 else x.good1
    if policy = 0 then ⟨px, lenFlags + 8, short, long, false, false⟩
    else
      match (if policy = 2 then above else none) with
      | some l => ⟨l, lenFlags + 8, short, long, true, false⟩
      | none => ⟨List.replicate want fill, lenFlags + 9, short, long, true, false⟩

/-- Count a wrong payload CRC: every packet is checked before it is mapped (R96). -/
def countCrc (p vc dt ctx : Nat) (pf : PktFlags) (s : State) : State :=
  if pf.crcBad then s |> inc (CPT_PKT_ERR_CRC p) |> recordError ((portErr p 0x02 vc dt ctx 0).setting (CPT_EVT_PKT_ERR p)) else s

/-- Count a line that came faster than the port unpacks (R94). -/
def countUnpack (p vc dt ctx : Nat) (pf : PktFlags) (s : State) : State :=
  if pf.keep.isSome then s |> inc (CPT_DISC2_OVERFLOW p) |> recordError (portErr p 0x09 vc dt ctx 0) else s

/-- Count and report what a line showed. -/
def reportLine (p vc dt : Nat) (f : FrameSt) (c : LineCheck) (pf : PktFlags) (s : State) : State :=
  let s := countCrc p vc dt f.ctx pf s
  let s := if c.concealed then inc (CPT_SEQ_CNT_CONCEALED p) s else s
  let s := countUnpack p vc dt f.ctx pf s
  let s := if c.short then
      s |> inc (CPT_LINE_CNT_LINE_SHORT p) |> recordError ((portErr p 0x05 vc dt f.ctx 0).setting (CPT_EVT_FRAME_ERR p))
    else s
  if c.long then
    s |> inc (CPT_LINE_CNT_LINE_LONG p) |> recordError ((portErr p 0x06 vc dt f.ctx 0).setting (CPT_EVT_FRAME_ERR p))
  else s

def replacePart (x : Part) (l : List Part) : List Part := l.map fun y => if y.e = x.e then x else y

/-- Show the lines received of a context's frame, of the entry with EXP_IDX 0 (R100, R124). -/
def showLines (p : Nat) (f : FrameSt) (x : Part) (n : Nat) (s : State) : State :=
  if mapExp s f.epoch p x.e = 0 then wr (CTX_LINES_IN f.ctx) n s else s

/-- A line beyond LINES: discarded, the frame is LONG (R103). -/
def lineBeyond (p vc dt : Nat) (f : FrameSt) (x : Part) (pf : PktFlags) (s : State) : State :=
  let f' := { f with
    parts := replacePart { x with got := x.got + 1 } f.parts
    linesIn := if mapExp s f.epoch p x.e = 0 then x.got + 1 else f.linesIn
    status := f.status ||| 2 }
  let s := s |> putFrame f' |> showLines p f x (x.got + 1) |> countCrc p vc dt f.ctx pf |> countUnpack p vc dt f.ctx pf
  if hasBit f.status 1 then s
  else s |> inc (CPT_FRAME_CNT_LONG p) |> recordError ((portErr p 0x04 vc dt f.ctx f.fc).setting (CPT_EVT_FRAME_ERR p))

/-- A line within LINES. Where two entries of a context have EXP_IDX 0 (with different data types), the one whose packet came last
gives the line count of the tag (log entry 114). -/
def lineWithin (p vc dt : Nat) (payload : List Nat) (f : FrameSt) (x : Part) (pf : PktFlags) (s : State) : State :=
  let k := x.got
  let c := checkLine s f x dt payload k pf
  let x' := { x with
    got := k + 1
    good0 := if c.good && k % 2 == 0 then some c.px else x.good0
    good1 := if c.good && k % 2 == 1 then some c.px else x.good1 }
  let exp := mapExp s f.epoch p x.e
  let f' := { f with
    parts := replacePart x' f.parts
    linesIn := if exp = 0 then k + 1 else f.linesIn
    status := f.status ||| (if c.concealed then 128 else 0)
    arriving := if f.adm = .refused then [] else f.arriving ++ [⟨k, x.e, exp, c.px, c.flags, liveOf s f.ctx, 0, false⟩] }
  s |> putFrame f' |> showLines p f x (k + 1) |> reportLine p vc dt f c pf

/-- LONG_PACKET (R96, R97, R102, R103, R470); the context's LIVE block is refreshed at the line's start (R83).  Line-start and
line-end packets (data types 2 and 3) are accepted and change nothing (R93). -/
def doLongPacket (p vc dt : Nat) (payload : List Nat) (pf : PktFlags) (s : State) : State :=
  let pf := linkFlags s p pf
  if !accepting s p then s
  else if pf.hdrBad ∨ pf.rtxFail then lostPacket p vc dt pf s
  else if (dt = 2 ∨ dt = 3) ∧ vc < 16 then countRtx p pf s
  else
    let s := countRtx p pf s
    match partFor s p vc dt with
    | some (f, x) =>
      let s := liveRefresh f.ctx s
      if mapLines s f.epoch p x.e ≤ x.got then lineBeyond p vc dt f x pf s else lineWithin p vc dt payload f x pf s
    | none =>
      let ep := islandEpoch s (islCP p)
      match (entriesOnVc s ep p vc).find? (fun e => mapDt s ep p e == dt) with
      | none => s |> countCrc p vc dt noCtx pf |> unmapped p vc dt
      | some e =>
        if 16 ≤ vc ∨ !dtAccepted dt then s |> countCrc p vc dt noCtx pf |> unmapped p vc dt
        else if !ctxEnabled s ep (mapCtx s ep p e) then s |> countCrc p vc dt noCtx pf |> inc (CPT_DISC_CTX_OFF p)
        else s |> countCrc p vc dt (mapCtx s ep p e) pf |> inc (CPT_DISC2_ORPHAN p) |> recordError (portErr p 0x0B vc dt (mapCtx s ep p e) 0)

def execLongPacket (p vc dt : Nat) (payload : List Nat) (f : PktFlags) (s : State) : Host.Outcome State Fault Refusal :=
  .next (if portExists s p then doLongPacket p vc dt payload f s else s)

/-- FRAME_TIMEOUT (R105): the open frame of a context has been silent; on a local port that is also a link loss. -/
def doFrameTimeout (p c : Nat) (s : State) : State :=
  match (openFrames s p).find? (fun f => f.ctx == c) with
  | none => s
  | some f =>
    let s := s |> inc (CPT_LINK_CNT_FRAME_TMO p) |> recordError (portErr p 0x08 (frameVc s f) 0 c f.fc)
    parkPort p (if isAphy p then closeFrame f.id 0 true none s else linkLoss p s)

def execFrameTimeout (p c : Nat) (s : State) : Host.Outcome State Fault Refusal :=
  .next (if portExists s p then kickSlices (doFrameTimeout p c s) else s)

/-! ## Link (R107–R110) -/

/-- The port no longer has lock. -/
def unlock (p : Nat) (s : State) : State :=
  s |> wr (CPT_STATE_LOCK p) 0 |> wr (CPT_STATE_GEAR_NOW p) 0 |> wr (CPT_TRIG_LAT_VALID p) 0
    |> fun s => setCam p { camOf s p with echo := none } s

/-- LOCK_LOST (R107): the 100 µs of link loss begin. -/
def doLockLost (p : Nat) (s : State) : State :=
  if isAphy p && isSet s (CPT_STATE_LOCK p) then s |> unlock p |> fun s => setCam p { camOf s p with losing := true } s else s

def execLockLost (p : Nat) (s : State) : Host.Outcome State Fault Refusal :=
  .next (if portExists s p then doLockLost p s else s)

/-- LINK_LOSS (R107). -/
def doLinkLoss (p : Nat) (s : State) : State :=
  if (camOf s p).losing then s |> setCam p { camOf s p with losing := false } |> linkLoss p |> parkPort p else s

def execLinkLoss (p : Nat) (s : State) : Host.Outcome State Fault Refusal :=
  .next (if portExists s p then kickSlices (doLinkLoss p s) else s)

/-- A script that waits for lock goes on (R50). -/
def resumeLock (p : Nat) (s : State) : State :=
  match (camOf s p).script with
  | some r =>
    match r.wait with
    | .lock _ => setCam p { camOf s p with script := some { r with wait := .ready } } s
    | _ => s
  | none => s

/-- LINK_LOCK (R110): from SEARCH the port enters BRINGUP with event 0x8001; in other powered states the lock is only
noted, and a lock that returns within 100 µs is no link loss. -/
def doLinkLock (p : Nat) (s : State) : State :=
  let st := portState s p
  if !isAphy p || isSet s (CPT_STATE_LOCK p) || st == 0 || st == 1 || st == 9 then s
  else
    let g := eff s (CPT_CFG_GEAR p)
    let s := s |> wr (CPT_STATE_LOCK p) 1 |> wr (CPT_STATE_GEAR_NOW p) g
      |> (fun s => setCam p { camOf s p with losing := false } s) |> resumeLock p
    if st = 2 ∧ !isStopping s p then s |> enterBringup p |> camEvent p 0x8001 g 0 [CPT_EVT_LOCK p] else s

def execLinkLock (p : Nat) (s : State) : Host.Outcome State Fault Refusal :=
  .next (if portExists s p then doLinkLock p s else s)

/-! ## Configuration (R120) -/

/-- The entries of a bank in an address range. -/
def bankRange (b : Sparse Word) (lo hi : Nat) : Sparse Word := b.filter fun x => decide (lo ≤ x.1) && decide (x.1 < hi)

/-- The values in effect in an address range become those of a bank. -/
def applyRange (b : Sparse Word) (lo hi : Nat) (s : State) : State :=
  { s with cfgX := (s.cfgX.filter fun x => decide (x.1 < lo)) ++ bankRange b lo hi ++ (s.cfgX.filter fun x => decide (hi ≤ x.1)) }

/-- GEAR, PHY, LANES, RATE or RTX differ between two banks. -/
def linkFieldsDiffer (c : Chip) (a b : Sparse Word) (p : Nat) : Bool :=
  [CPT_CFG_RATE p, CPT_CFG_RTX p, CPT_CFG_LANES p, CPT_CFG_PHY p, CPT_CFG_GEAR p].any fun r => bankFld c a r != bankFld c b r

/-- Any CFG field of the port other than those and ENABLE differs. -/
def otherFieldsDiffer (a b : Sparse Word) (p : Nat) : Bool :=
  let lo := (CPT_CFG_ALL p).addr
  bankRange a (lo + 4) (lo + 0x10000 - 4) != bankRange b (lo + 4) (lo + 0x10000 - 4)

/-- Retraining after a change of the link settings, by state (R108, R120). -/
def retrain (p : Nat) (s : State) : State :=
  let st := portState s p
  if isStopping s p then s
  else if st = 3 ∨ st = 4 ∨ st = 5 ∨ st = 6 ∨ st = 7 then
    let s := s |> closeAll p 0 false |> dropScript p |> unlock p |> fun s => setCam p { camOf s p with losing := false } s
    if isAphy p then setState p 2 s else enterBringup p s
  else s

/-- Bring the port's configuration to that of its island's epoch and act on what changed (R110, R120). -/
def applyPort (p : Nat) (s : State) : State :=
  let old := s.cfgX
  let b := bankOf s (islandEpoch s (islCP p))
  let en0 := bankFld s.chip old (CPT_CFG_ENABLE p)
  let en1 := bankFld s.chip b (CPT_CFG_ENABLE p)
  let lo := (CPT_CAP_ALL p).addr
  let s := applyRange b lo (lo + 0x10000) s
  if en0 = 1 ∧ en1 = 0 then stopPort p s
  else if en1 = 1 ∧ portState s p = 0 ∧ !(camOf s p).stopping then
    (if (scriptFor s p 0).isSome && !isSafe s && !s.mnt.parking then beginPort p s else s)
  else if linkFieldsDiffer s.chip old b p then retrain p s
  else if portState s p = 7 ∧ !isStopping s p ∧ otherFieldsDiffer old b p then enterRecover p s
  else s

/-- PORT_CONFIG_APPLY (R120): once no frame is open on any VC of the port. -/
def doPortConfigApply (p : Nat) (s : State) : State := if (openFrames s p).isEmpty then applyPort p s else s

def execPortConfigApply (p : Nat) (s : State) : Host.Outcome State Fault Refusal :=
  .next (if portExists s p then kickSlices (doPortConfigApply p s) else s)

/-! ## Scripts (R50, R52, R111, R112, R476) -/

/-- The running script of a port, if its next instruction has the opcode and it is not waiting (R50, R52); none while the pair that
runs the scripts has stopped (R24, R25). -/
def nextInstr (s : State) (p op : Nat) : Option Run :=
  match (camOf s p).script with
  | none => none
  | some r => if r.wait = .ready ∧ r.count < 65536 ∧ r.code.getD r.pc 256 = op ∧ !stoppedA s then some r else none

def setRun (p : Nat) (r : Run) (s : State) : State := setCam p { camOf s p with script := some r } s

/-- The instruction of `len` bytes has executed; the script goes on at the next one. -/
def passInstr (r : Run) (len : Nat) : Run := { r with pc := r.pc + len, count := r.count + 1 }

/-- Operand bytes of the instruction at hand. -/
def arg (r : Run) (i : Nat) : Nat := r.code.getD (r.pc + i) 0
def arg2 (r : Run) (i : Nat) : Nat := arg r i + 256 * arg r (i + 1)
def argBytes (r : Run) (i n : Nat) : List Nat := (List.range n).map fun k => arg r (i + k)

/-- SCRIPT_END (R111). -/
def doScriptEnd (p : Nat) (s : State) : State :=
  match nextInstr s p 0 with
  | none => s
  | some r => endScript p (arg r 1) s

def execScriptEnd (p : Nat) (s : State) : Host.Outcome State Fault Refusal :=
  .next (if portExists s p then kickSlices (doScriptEnd p s) else s)

/-- A register write of a script: the transfer is queued on TWBp and the script waits for it; a passive port skips it
(R405). The register address goes high byte first (log entry 12). -/
def scriptWrite (p : Nat) (r : Run) (len : Nat) (bs : List Nat) (s : State) : State :=
  if passive s p then setRun p (passInstr r len) s
  else s |> setRun p { passInstr r len with wait := .bus } |> queueTxn p ⟨.script p r.id, arg r 1, bs, 0⟩

/-- SCRIPT_WR16 (R50). -/
def doScriptWr16 (p : Nat) (s : State) : State :=
  match nextInstr s p 1 with
  | none => s
  | some r => scriptWrite p r (5 + arg r 4) (beBytes 2 (arg2 r 2) ++ argBytes r 5 (arg r 4)) s

def execScriptWr16 (p : Nat) (s : State) : Host.Outcome State Fault Refusal :=
  .next (if portExists s p then doScriptWr16 p s else s)

/-- SCRIPT_WR8 (R50). -/
def doScriptWr8 (p : Nat) (s : State) : State :=
  match nextInstr s p 2 with
  | none => s
  | some r => scriptWrite p r (4 + arg r 3) (arg r 2 :: argBytes r 4 (arg r 3)) s

def execScriptWr8 (p : Nat) (s : State) : Host.Outcome State Fault Refusal :=
  .next (if portExists s p then doScriptWr8 p s else s)

/-- SCRIPT_RDCMP (R50): the byte is read from a 16-bit register address; the comparison follows when it arrives. The
program counter stays at the instruction until then. -/
def doScriptRdcmp (p : Nat) (s : State) : State :=
  match nextInstr s p 3 with
  | none => s
  | some r => s |> setRun p { r with wait := .compare } |> queueTxn p ⟨.script p r.id, arg r 1, beBytes 2 (arg2 r 2), 1⟩

def execScriptRdcmp (p : Nat) (s : State) : Host.Outcome State Fault Refusal :=
  .next (if portExists s p then doScriptRdcmp p s else s)

/-- The two-wire transfer of a run of a script has ended (R52, R471): NACK ends it with 0xFD, an RDCMP compares its byte. The end of a
transfer whose run is over reaches nobody. -/
def scriptTransferDone (p run : Nat) (ok : Bool) (data : List Nat) (s : State) : State :=
  kickSlices <| match (camOf s p).script with
  | none => s
  | some r =>
    if r.id ≠ run ∨ (r.wait ≠ .bus ∧ r.wait ≠ .compare) then s
    else if !ok then endScript p 0xFD s
    else if r.wait = .compare then
      let r' := passInstr { r with wait := .ready } 8
      setRun p (if Nat.land (data.headD 0) (arg r 4) = arg r 5 then r' else { r' with pc := arg2 r 6 }) s
    else setRun p { r with wait := .ready } s

/-- SCRIPT_DELAY (R50). -/
def doScriptDelay (p : Nat) (s : State) : State :=
  match nextInstr s p 4 with
  | none => s
  | some r => setRun p { passInstr r 3 with wait := .delay } s

def execScriptDelay (p : Nat) (s : State) : Host.Outcome State Fault Refusal :=
  .next (if portExists s p then doScriptDelay p s else s)

/-- DELAY_EXPIRED (R50). -/
def doDelayExpired (p : Nat) (s : State) : State :=
  match (camOf s p).script with
  | some r => if r.wait = .delay then setRun p { r with wait := .ready } s else s
  | none => s

def execDelayExpired (p : Nat) (s : State) : Host.Outcome State Fault Refusal :=
  .next (if portExists s p then doDelayExpired p s else s)

/-- SCRIPT_GPIO (R476): a message that cannot be sent ends the script with 0xFD. -/
def doScriptGpio (p : Nat) (s : State) : State :=
  match nextInstr s p 5 with
  | none => s
  | some r =>
    if passive s p then setRun p (passInstr r 3) s
    else if isAphy p && !isSet s (CPT_STATE_LOCK p) then endScript p 0xFD s
    else s |> setRun p (passInstr r 3) |> driveLine p (arg r 1 % 4) (arg r 2 % 2)

def execScriptGpio (p : Nat) (s : State) : Host.Outcome State Fault Refusal :=
  .next (if portExists s p then kickSlices (doScriptGpio p s) else s)

/-- SCRIPT_POC (R108, R346): a lock loss that POC 0 causes is no link loss. -/
def doScriptPoc (p : Nat) (s : State) : State :=
  match nextInstr s p 6 with
  | none => s
  | some r =>
    let s := setRun p (passInstr r 2) s
    if passive s p || !isAphy p then s
    else if arg r 1 = 1 then powerInrush p s
    else s |> closeAll p 0 false |> unlock p |> (fun s => setCam p { camOf s p with losing := false } s) |> powerOff p false

def execScriptPoc (p : Nat) (s : State) : Host.Outcome State Fault Refusal :=
  .next (if portExists s p then kickSlices (doScriptPoc p s) else s)

/-- SCRIPT_WAITLOCK (R50, R110): on a local port, and with the link locked, it completes at once. -/
def doScriptWaitlock (p : Nat) (s : State) : State :=
  match nextInstr s p 7 with
  | none => s
  | some r =>
    if linkLocked s p then setRun p (passInstr r 5) s else setRun p { passInstr r 5 with wait := .lock (arg2 r 3) } s

def execScriptWaitlock (p : Nat) (s : State) : Host.Outcome State Fault Refusal :=
  .next (if portExists s p then doScriptWaitlock p s else s)

/-- WAITLOCK_TIMEOUT (R50). -/
def doWaitlockTimeout (p : Nat) (s : State) : State :=
  match (camOf s p).script with
  | some r =>
    match r.wait with
    | .lock fail => setRun p { r with wait := .ready, pc := fail } s
    | _ => s
  | none => s

def execWaitlockTimeout (p : Nat) (s : State) : Host.Outcome State Fault Refusal :=
  .next (if portExists s p then doWaitlockTimeout p s else s)

/-- SCRIPT_JUMP (R50). -/
def doScriptJump (p : Nat) (s : State) : State :=
  match nextInstr s p 8 with
  | none => s
  | some r => setRun p { r with pc := arg2 r 1, count := r.count + 1 } s

def execScriptJump (p : Nat) (s : State) : Host.Outcome State Fault Refusal :=
  .next (if portExists s p then doScriptJump p s else s)

/-- SCRIPT_LOOP (R50): jumps `count` times, then falls through; each instruction has its own counter, which starts anew
with the script only. -/
def doScriptLoop (p : Nat) (s : State) : State :=
  match nextInstr s p 9 with
  | none => s
  | some r =>
    let n := sget (fun _ => 0) r.loops r.pc
    if n < arg r 1 then
      setRun p { r with pc := arg2 r 2, count := r.count + 1, loops := sset (fun _ => 0) r.loops r.pc (n + 1) } s
    else setRun p (passInstr r 4) s

def execScriptLoop (p : Nat) (s : State) : Host.Outcome State Fault Refusal :=
  .next (if portExists s p then doScriptLoop p s else s)

/-- SCRIPT_EVENT (R112). -/
def doScriptEvent (p : Nat) (s : State) : State :=
  match nextInstr s p 10 with
  | none => s
  | some r => s |> setRun p (passInstr r 3) |> camEvent p (arg2 r 1 % 2 ^ 15) 0 0 []

def execScriptEvent (p : Nat) (s : State) : Host.Outcome State Fault Refusal :=
  .next (if portExists s p then doScriptEvent p s else s)

/-- SCRIPT_STREAM (R113): STREAM 0 closes open frames as SHORT without LINK_LOST. -/
def doScriptStream (p : Nat) (s : State) : State :=
  match nextInstr s p 11 with
  | none => s
  | some r =>
    let s := setRun p (passInstr r 2) s
    if arg r 1 = 1 then camEvent p 0x8007 0 0 [] s else s |> closeAll p 0 false |> camEvent p 0x8008 0 0 []

def execScriptStream (p : Nat) (s : State) : Host.Outcome State Fault Refusal :=
  .next (if portExists s p then kickSlices (doScriptStream p s) else s)

/-- INSTRUCTION_LIMIT (R52). -/
def doInstructionLimit (p : Nat) (s : State) : State :=
  match (camOf s p).script with
  | some r => if 65536 ≤ r.count then endScript p 0xFE s else s
  | none => s

def execInstructionLimit (p : Nat) (s : State) : Host.Outcome State Fault Refusal :=
  .next (if portExists s p then kickSlices (doInstructionLimit p s) else s)

/-! ## Waits of the port (R110, R112, R475) -/

/-- BACKOFF_EXPIRED (R110). -/
def doBackoffExpired (p : Nat) (s : State) : State := if portState s p = 6 ∧ !isStopping s p then bringupOrSearch p s else s

def execBackoffExpired (p : Nat) (s : State) : Host.Outcome State Fault Refusal :=
  .next (if portExists s p then doBackoffExpired p s else s)

/-- FAULT_TIMEOUT (R110, R475): an A-PHY port releases POC_EN for 100 ms; a local port begins again. -/
def doFaultTimeout (p : Nat) (s : State) : State :=
  if portState s p ≠ 8 ∨ (camOf s p).cycling ∨ isStopping s p then s
  else if isAphy p then
    s |> unlock p |> powerOff p true |> fun s => setCam p { camOf s p with cycling := true, losing := false } s
  else s |> wr (CPT_STATE_ATTEMPT p) 0 |> enterBringup p

def execFaultTimeout (p : Nat) (s : State) : Host.Outcome State Fault Refusal :=
  .next (if portExists s p then doFaultTimeout p s else s)

/-- POWER_CYCLE_DONE (R475). -/
def doPowerCycleDone (p : Nat) (s : State) : State :=
  if portState s p = 8 ∧ (camOf s p).cycling ∧ !isStopping s p then
    s |> setCam p { camOf s p with cycling := false } |> wr (CPT_STATE_ATTEMPT p) 0 |> beginPort p
  else s

def execPowerCycleDone (p : Nat) (s : State) : Host.Outcome State Fault Refusal :=
  .next (if portExists s p then doPowerCycleDone p s else s)

/-- SUPERVISION_RUN (R112): skipped while the previous run is still going. -/
def doSupervisionRun (p : Nat) (s : State) : State :=
  if portState s p = 4 ∧ (camOf s p).script = none ∧ !(camOf s p).stopping then startScript p 1 s else s

def execSupervisionRun (p : Nat) (s : State) : Host.Outcome State Fault Refusal :=
  .next (if portExists s p && !stoppedA s then doSupervisionRun p s else s)

/-! ## Trigger delivery (R114–R118, R476) -/

/-- TRIGGER_ASSERT_SEND (R114): at T − LEAD; a trigger that cannot be sent is withheld and not counted (R117, R476). -/
def doTriggerAssert (p : Nat) (s : State) : State :=
  match (camOf s p).trig with
  | none => s
  | some t =>
    if t.sent then s
    else if canTrigger s p then s |> setCam p { camOf s p with trig := some { t with sent := true } } |> assertTrigger p
    else checkSwap (setCam p { camOf s p with trig := none } s)

def execTriggerAssertSend (p : Nat) (s : State) : Host.Outcome State Fault Refusal :=
  .next (if portExists s p then doTriggerAssert p s else s)

/-- TRIGGER_RELEASE_SEND (R114): a release message that falls due without lock is lost (R476). -/
def doTriggerRelease (p : Nat) (s : State) : State :=
  if !(camOf s p).pulse then s
  else
    let s := setCam p { camOf s p with pulse := false } s
    if isAphy p && !isSet s (CPT_STATE_LOCK p) then s
    else driveLine p (eff s (CPT_TRIG_LINE p)) (1 - eff s (CPT_TRIG_POL p)) s

def execTriggerReleaseSend (p : Nat) (s : State) : Host.Outcome State Fault Refusal :=
  .next (if portExists s p then doTriggerRelease p s else s)

/-- Discard the trigger of a port as MISS, unless a frame start has taken it (R81, R118). -/
def missTrigger (p : Nat) (s : State) : State :=
  match (camOf s p).trig with
  | none => s
  | some t =>
    let s := setCam p { camOf s p with trig := none } s
    if t.taken then s else trigErr p 0x0D (CPT_TRIG_CNT_MISS p) s

/-- TRIGGER_WINDOW_EXPIRE (R118). -/
def execTriggerWindowExpire (p : Nat) (s : State) : Host.Outcome State Fault Refusal :=
  .next (if portExists s p then checkSwap (kickSlices (missTrigger p s)) else s)

/-! ## Latency (R115) -/

/-- The downlink and turnaround allowance of a gear, ns. -/
def downlinkNs (gear : Nat) : Nat :=
  if gear = 1 then 1600 else if gear = 2 then 1100 else if gear = 3 then 800 else if gear = 4 then 700 else 650

/-- ECHO_BURST_START (R115). -/
def doEchoBurst (p : Nat) (s : State) : State :=
  if isAphy p && isSet s (CPT_STATE_LOCK p) && (camOf s p).echo.isNone then
    setCam p { camOf s p with echo := some ⟨0, 0, 0, 0⟩ } s
  else s

def execEchoBurstStart (p : Nat) (s : State) : Host.Outcome State Fault Refusal :=
  .next (if portExists s p then doEchoBurst p s else s)

/-- ECHO_REQUEST_SEND (R115). -/
def doEchoRequest (p : Nat) (s : State) : State :=
  match (camOf s p).echo with
  | none => s
  | some x =>
    if x.sent < 16 then
      s |> setCam p { camOf s p with echo := some { x with sent := x.sent + 1, waiting := x.waiting + 1 } }
        |> emit (.uplink p 1 x.sent)
    else s

def execEchoRequestSend (p : Nat) (s : State) : Host.Outcome State Fault Refusal :=
  .next (if portExists s p then doEchoRequest p s else s)

/-- ECHO_RETURN (R115). -/
def doEchoReturn (p rtt : Nat) (s : State) : State :=
  match (camOf s p).echo with
  | none => s
  | some x =>
    if x.waiting = 0 then s
    else setCam p { camOf s p with echo := some { x with waiting := x.waiting - 1, back := x.back + 1, sum := x.sum + rtt } } s

def execEchoReturn (p rtt : Nat) (s : State) : Host.Outcome State Fault Refusal :=
  .next (if portExists s p then doEchoReturn p rtt s else s)

/-- ECHO_TIMEOUT (R115): an echo not returned within 20 µs is lost. -/
def doEchoTimeout (p : Nat) (s : State) : State :=
  match (camOf s p).echo with
  | none => s
  | some x => if x.waiting = 0 then s else setCam p { camOf s p with echo := some { x with waiting := x.waiting - 1 } } s

def execEchoTimeout (p : Nat) (s : State) : Host.Outcome State Fault Refusal :=
  .next (if portExists s p then doEchoTimeout p s else s)

/-- The new CPT_TRIG_LAT.NS: the mean round trip less the allowance. That the mean is taken to the nearest ns is the model's choice
(DESIGN CHOICE, log entry 13): the spec states no rounding. -/
def latencyOf (x : EchoSt) (gear : Nat) : Nat := min 0xFFFF ((2 * x.sum + x.back) / (2 * x.back) - downlinkNs gear)

/-- LATENCY_BURST_END (R115). -/
def doLatencyEnd (p : Nat) (s : State) : State :=
  match (camOf s p).echo with
  | none => s
  | some x =>
    if x.sent < 16 ∨ x.waiting ≠ 0 then s
    else
      let s := setCam p { camOf s p with echo := none } s
      if x.back = 0 then s
      else
        let old := rd s (CPT_TRIG_LAT_NS p)
        let new := latencyOf x (rd s (CPT_STATE_GEAR_NOW p))
        let s := s |> wr (CPT_TRIG_LAT_NS p) new |> wr (CPT_TRIG_LAT_VALID p) 1
        if old + 20 < new ∨ new + 20 < old then camEvent p 0x800A 0 new [] s else s

def execLatencyBurstEnd (p : Nat) (s : State) : Host.Outcome State Fault Refusal :=
  .next (if portExists s p then doLatencyEnd p s else s)

end Sys2Proof.Machine
end

