-- ==== Sys2Proof/Machine/TwoWire.lean ====
section
/-! DEFINITION. Two-wire controllers (R357–R361), the targets' own events (R367–R369), exposure loops (R205, R206), the
core-voltage service (R449), writes of table memory (R158, R161, R473), and the fatal errors of R306 and R427. -/

namespace Sys2Proof.Machine
open Sys2Proof

def twbErr (code i addr7 : Nat) : ErrInfo := { unit := uTWB, inst := i, code, info := addr7 * 256 }

/-- The island of an instance (R355). -/
def twbIsland (i : Nat) : Nat := if i < 20 then islCP i else islAO

/-- A controller that the variant has. -/
def isController (s : State) (i : Nat) : Bool := if i < 20 then cpPresent s.variant i else i == 20

/-! ## The core-voltage service (R449) -/

/-- The SERVICE record of the core voltage. -/
def vcoreRecord (s : State) : Option (List Nat) := (s.ldr.services.find? fun x => x.key == 0x1601).map (·.value)

/-- A transaction of the service. -/
def vcoreTxn (step : Nat) (wr : List Nat) (rdLen : Nat) (s : State) : State :=
  match vcoreRecord s with
  | none => s
  | some v => queueTxn 20 ⟨.vcore step, leAt v 0 1, wr, rdLen⟩ s

/-- VOUT_COMMAND for a voltage in mV: round(V × 2^−N). -/
def voutCode (mv : Nat) (n : Int) : Nat :=
  if n < 0 then (2 * mv * 2 ^ n.natAbs + 1000) / 2000 else (2 * mv + 1000 * 2 ^ n.natAbs) / (2000 * 2 ^ n.natAbs)

/-- The next voltage on the way to the target, at most STEP_MV from the present one. -/
def vcoreNext (s : State) (v : List Nat) : Nat :=
  let now := rd s PWR_VCORE_MV
  if now < s.vcore.target then min s.vcore.target (now + leAt v 2 1) else max s.vcore.target (now - leAt v 2 1)

/-- Go on: the exponent is read once, then the voltage is moved step by step. -/
def vcoreOn (s : State) : State :=
  match vcoreRecord s, s.vcore.exponent with
  | none, _ => s
  | some _, none => vcoreTxn 1 [0x20] 1 s
  | some v, some n =>
    if rd s PWR_VCORE_MV = s.vcore.target then s else vcoreTxn 2 (0x21 :: leBytes 2 (voutCode (vcoreNext s v) n)) 0 s

/-- The regulator does not answer, or is not in linear mode. -/
def vcoreFail (s : State) : State :=
  { s with vcore := { s.vcore with stopped := true } } |> wr PWR_VCORE_FAIL 1 |> recordError { unit := uPWR, inst := 0, code := 7 }

/-- A transaction of the service has ended: 0 PAGE, 1 VOUT_MODE, 2 VOUT_COMMAND. -/
def vcoreDone (step cause : Nat) (data : List Nat) (s : State) : State :=
  if cause ≠ 0 then vcoreFail s
  else if step = 0 then vcoreOn s
  else if step = 1 then
    let m := data.headD 0xFF
    if m / 32 ≠ 0 then vcoreFail s else vcoreOn { s with vcore := { s.vcore with exponent := some (sgn 5 (m % 32)) } }
  else
    match vcoreRecord s with
    | none => s
    | some v => s |> wr PWR_VCORE_MV (vcoreNext s v) |> vcoreOn

/-- The service has a transaction on its way. -/
def vcoreBusy (s : State) : Bool :=
  let isV (t : Txn) : Bool := match t.owner with | .vcore _ => true | _ => false
  let x := twbOf s 20
  x.svcQ.any isV || x.cur.any isV

/-- The junction temperature as the sensors give it now, in 0.1 °C (PWR_TJ). -/
def noteTj (tj : Nat) (s : State) : State :=
  let s := wr PWR_TJ_TJ tj s
  if sgn 16 (rd s PWR_TJ_PEAK) < sgn 16 (tj % 2 ^ 16) then wr PWR_TJ_PEAK tj s else s

/-- VCORE_ADJUST: the process monitors allow `mv` at junction temperature `tj`. -/
def doVcoreAdjust (mv tj : Nat) (s : State) : State :=
  let s := noteTj tj s
  match vcoreRecord s with
  | none => s
  | some v =>
    if !s.ldr.loaded || s.vcore.stopped || decide (mv < 720) || decide (800 < mv) || mv % 5 != 0 then s
    else
      let s := { s with vcore := { s.vcore with target := mv } }
      if vcoreBusy s then s
      else if leAt v 1 1 ≠ 0xFF ∧ s.vcore.exponent.isNone then vcoreTxn 0 [0x00, leAt v 1 1] 0 s
      else vcoreOn s

def execVcoreAdjust (mv tj : Nat) (s : State) : Host.Outcome State Fault Refusal := .next (doVcoreAdjust mv tj s)

/-! ## Exposure and white-balance loops (R205, R206) -/

/-- The SERVICE record of a context's loops. -/
def loopRecord (s : State) (c : Nat) : Option (List Nat) :=
  (s.ldr.services.find? fun x => x.key == 0x0601 && leAt x.value 0 2 == c).map (·.value)

/-- Classes of the dominant channel (R206). -/
def dominants (cfa : Nat) : List Nat := if cfa = 0 then [0] else if isRgbIr cfa then [1] else [1, 2]

/-- The cells of a statistics record (R177). -/
def cellsOf (bs : List Nat) : List (List Nat) :=
  (List.range (leAt bs 6 1 * leAt bs 7 1)).map fun i => slice bs (0x100 + 32 * i) 32

/-- Sum and count of some classes over some cells. -/
def tally (ks : List Nat) (cells : List (List Nat)) : Nat × Nat :=
  cells.foldl (fun r c => ks.foldl (fun r k => (r.1 + leAt c (4 * k) 4, r.2 + leAt c (0x10 + 2 * k) 2)) r) (0, 0)

/-- The mean of a class set; without pixels the spec states none (log entry 3). -/
def meanOf (free : Nat) (r : Nat × Nat) : Nat := if r.2 = 0 then Config.freeNat free % 2 ^ 16 else r.1 / r.2

/-- The exposure update of R206: integration time and digital gain, from those of the record. -/
def exposureStep (v bs : List Nat) (mean : Nat) : Nat × Nat :=
  let tot : Int := leAt bs 0x10 2 * leAt bs 0x12 2
  let tot := tot + sar ((tot * leAt v 4 2 / (mean : Int) - tot) * leAt v 6 1) 8
  let exp := clampI (leAt v 10 2) (leAt v 12 2) (sar tot 12)
  (exp.toNat, (clampI 0x800 (leAt v 14 2) (tot / exp)).toNat)

/-- One gain of the white-balance update; a mean of 0 gives no wanted gain (log entry 3). -/
def balanceStep (damp wb dom mean free : Nat) : Nat :=
  let want : Int := if mean = 0 then Config.freeNat free else 4096 * dom / mean
  (wb + sar ((want - wb) * damp) 8).toNat

/-- The gains after a white-balance update. -/
def balance (v bs : List Nat) (cfa free : Nat) : List Nat :=
  let cells := (cellsOf bs).filter fun c => leAt c 0x18 2 == 0
  let dom := meanOf free (tally (dominants cfa) cells)
  (List.range 4).map fun k =>
    let old := leAt bs (0x28 + 2 * k) 2
    if (dominants cfa).contains k || (isRgbIr cfa && k == 2) then 0x1000
    else if cfa = 0 then old
    else balanceStep (leAt v 6 1) old dom (meanOf (free + 1 + k) (tally [k] cells)) (free + 5 + k)

/-- One statistics record of a context that has loops. -/
def loopUpdate (c : Nat) (v bs : List Nat) (s : State) : State :=
  let cfa := act s (CTX_CFA c)
  let mean := meanOf (s.freeCount + 9) (tally (dominants cfa) (cellsOf bs))
  let doExp := hasBit (leAt v 2 1) 0 && decide (0 < mean)
  let doWb := hasBit (leAt v 2 1) 1
  let wb := if doWb then balance v bs cfa s.freeCount else (List.range 4).map fun k => leAt bs (0x28 + 2 * k) 2
  let e := if doExp then exposureStep v bs mean else (leAt bs 0x10 2, leAt bs 0x12 2)
  let s := { s with freeCount := s.freeCount + 10 }
  let us := (loopOf s c).upds
  if doExp then setLoop c ⟨us.filter (fun u => u.stage ≠ .gap) ++ [⟨.gap, e.1, e.2, wb⟩]⟩ s
  else if doWb then setLoop c ⟨us ++ [⟨.effect 0, e.1, e.2, wb⟩]⟩ s
  else s

/-- EXPOSURE_LOOP_UPDATE: the service cores take up the oldest statistics record they have received. An update that still waits for its
gap gives way to a newer one: DESIGN CHOICE (log entry 120). On a device that does not hold the baton the loops of dual-homed modules
rest (R405). -/
def doExposureLoopUpdate (s : State) : State :=
  match s.svcStats with
  | [] => s
  | x :: rest =>
    let s := { s with svcStats := rest }
    let bs := wordsToBytes x.2
    let c := leAt bs 0 2
    match loopRecord s c with
    | none => s
    | some v =>
      if !loopRuns s.chip s.cfgA c || leAt bs 3 1 % 4 != 0 || passive s (act s (CTX_PORT c)) then s
      else loopUpdate c v bs s

def execExposureLoopUpdate (s : State) : Host.Outcome State Fault Refusal := .next (if stoppedA s then s else doExposureLoopUpdate s)

/-- Integration time in lines: ceil(exp × 1,000 / LINE_NS); beyond 16 bits the spec states no value (log entry 3). -/
def expLines (exp lineNs free : Nat) : Nat :=
  let n := ceilDiv (exp * 1000) lineNs
  if n < 2 ^ 16 then n else Config.freeNat free % 2 ^ 16

/-- Change the stage of the first update that is in a given one. -/
def restage (a b : LoopStage) : List LoopUpd → List LoopUpd
  | [] => []
  | u :: us => if u.stage = a then { u with stage := b } :: us else u :: restage a b us

/-- EXP_REG_WRITE: the gap before the context's next trigger or frame start has come. -/
def doExpRegWrite (c : Nat) (s : State) : State :=
  match loopRecord s c with
  | none => s
  | some v =>
    let us := (loopOf s c).upds
    let p := act s (CTX_PORT c)
    match us.find? fun u => u.stage == .gap with
    | none => s
    | some u =>
      if us.any fun w => w.stage == .writing then s
      else if passive s p || !loopRuns s.chip s.cfgA c then setLoop c ⟨[]⟩ s
      else
        let n := expLines u.exp (act s (CTX_LINE_NS c)) s.freeCount
        { s with freeCount := s.freeCount + 1 } |> setLoop c ⟨restage .gap .writing us⟩
          |> queueTxn p ⟨.loop c, leAt v 7 1, beBytes 2 (leAt v 8 2) ++ beBytes 2 n, 0⟩

def execExpRegWrite (c : Nat) (s : State) : Host.Outcome State Fault Refusal := .next (if stoppedA s then s else doExpRegWrite c s)

/-- The sensor write of a loop has ended: DELAY further frame starts follow; an update whose write failed is given up (log entry 120). -/
def loopDone (c cause : Nat) (s : State) : State :=
  let us := (loopOf s c).upds
  if cause = 0 then
    match loopRecord s c with
    | none => setLoop c ⟨[]⟩ s
    | some v => setLoop c ⟨restage .writing (.effect (leAt v 3 1)) us⟩ s
  else setLoop c ⟨us.filter fun u => u.stage ≠ .writing⟩ s

/-- LIVE_BLOCK_WRITE: DELAY frame starts after the sensor write, the whole LIVE block is written in one burst, the oldest update first. -/
def doLiveBlockWrite (c : Nat) (s : State) : State :=
  match loopRecord s c with
  | none => s
  | some v =>
    match (loopOf s c).upds with
    | [] => s
    | x :: us =>
      if x.stage ≠ .effect 0 then s
      else if passive s (act s (CTX_PORT c)) || !loopRuns s.chip s.cfgA c then setLoop c ⟨[]⟩ s
      else
        let g (k : Nat) : Nat := min 0xFFFF (x.wb.getD k 0)
        s |> setLoop c ⟨us⟩ |> liveWrite (CTX_WB_GAIN0 c).addr (g 0 + g 1 * 2 ^ 16) |> liveWrite (CTX_WB_GAIN2 c).addr (g 2 + g 3 * 2 ^ 16)
          |> liveWrite (CTX_DGAIN c).addr (x.dgain + leAt v 0x10 2 * 2 ^ 16) |> liveWrite (CTX_EXP_TIME c).addr (leAt v 0x12 2 + x.exp * 2 ^ 16)

def execLiveBlockWrite (c : Nat) (s : State) : Host.Outcome State Fault Refusal := .next (if stoppedA s then s else doLiveBlockWrite c s)

/-! ## Controllers -/

/-- A transaction's end reaches its owner (R471): cause 0, or a cause of R376. -/
def txnResult (o : TxnOwner) (cause : Nat) (data : List Nat) (s : State) : State :=
  match o with
  | .script p n => scriptTransferDone p n (cause == 0) data s
  | .loop c => loopDone c cause s
  | .bridge n => bridgeTxnDone n cause data s
  | .vcore k => vcoreDone k cause data s

/-- The transaction a controller takes next: one that waits for its retry, then the service cores', then the bridge's. -/
def nextTxn (x : TwbSt) : Option Txn :=
  match x.cur with
  | some t => some t
  | none => match x.svcQ with | t :: _ => some t | [] => x.brgQ.head?

/-- Take that transaction out of its queue. -/
def takeTxn (x : TwbSt) : TwbSt :=
  match x.cur with
  | some _ => { x with cur := none }
  | none => match x.svcQ with | _ :: r => { x with svcQ := r, losses := 0 } | [] => { x with brgQ := x.brgQ.drop 1, losses := 0 }

/-- What a transaction is on the bus. -/
def txnEmit (i : Nat) (t : Txn) : Emit := if t.rdLen = 0 then .busWrite i t.addr7 t.wr else .busRead i t.addr7 t.wr t.rdLen

/-- Arbitration is lost at a byte and a bit (R361). -/
def arbLost (i : Nat) (at_ : Nat × Nat) (s : State) : State :=
  s |> wr (TWB_STAT_ARB_BYTE i) at_.1 |> wr (TWB_STAT_ARB_BIT i) at_.2 |> inc (TWB_CNT_ARB_LOST i)

/-- The transaction is one of a sensor window whose port is no longer ready for it (R372). -/
def notReady (s : State) (i : Nat) (t : Txn) : Bool := match t.owner with | .bridge _ => !sensorReady s i | _ => false

/-- TRANSACTION_START: the bus is free or not, and arbitration is lost or not. -/
def doTransactionStart (i : Nat) (free : Bool) (lost : Option (Nat × Nat)) (s : State) : State :=
  let x := twbOf s i
  let st := rd s (TWB_STAT_STATE i)
  match nextTxn x with
  | none => s
  | some t =>
    if st = 1 ∨ st = 3 ∨ st = 4 then s
    else if notReady s i t then s |> setTwb i { takeTxn x with losses := 0 } |> wr (TWB_STAT_STATE i) 0 |> txnResult t.owner 2 []
    else if !free then wr (TWB_STAT_STATE i) 2 s
    else
      let y := takeTxn x
      match lost with
      | none => s |> setTwb i { y with cur := some t } |> wr (TWB_STAT_STATE i) 1 |> emit (txnEmit i t)
      | some at_ =>
        let s := arbLost i at_ s
        if cfgI s (twbIsland i) (TWB_CFG_ARB_RETRY i) < y.losses + 1 then
          s |> setTwb i { y with losses := 0 } |> wr (TWB_STAT_STATE i) 0 |> recordError ((twbErr 2 i t.addr7).setting (TWB_EVT_ARB_FAIL i))
            |> txnResult t.owner 3 []
        else s |> setTwb i { y with cur := some t, losses := y.losses + 1 } |> wr (TWB_STAT_STATE i) 2

/-- BUS_STUCK_RECOVERY: SDA rises during the nine pulses, or not (R359). -/
def doBusStuckRecovery (i : Nat) (recovered : Bool) (s : State) : State :=
  let x := twbOf s i
  let st := rd s (TWB_STAT_STATE i)
  if st = 1 ∨ (st ≠ 3 ∧ (nextTxn x).isNone) then s
  else if recovered then s |> wr (TWB_STAT_STATE i) 0 |> inc (TWB_CNT_RECOVER i)
  else
    let s := s |> wr (TWB_STAT_STATE i) 4 |> inc (TWB_CNT2_STUCK i) |> wr (TWB_EVT_BUS_STUCK i) 1
    match nextTxn x with
    | none => s
    | some t => s |> setTwb i { takeTxn x with losses := 0 } |> txnResult t.owner 0x0B []

/-- The transaction on the bus ends. -/
def endTxn (i state cause : Nat) (data : List Nat) (s : State) : State :=
  let x := twbOf s i
  match x.cur with
  | none => s
  | some t => s |> setTwb i { x with cur := none, losses := 0 } |> wr (TWB_STAT_STATE i) state |> txnResult t.owner cause (padTo t.rdLen data)

/-- STRETCH_TIMEOUT: the transaction is abandoned, and recovery follows (R359, R360). -/
def doStretchTimeout (i : Nat) (s : State) : State :=
  if rd s (TWB_STAT_STATE i) ≠ 1 then s else s |> inc (TWB_CNT_TIMEOUT i) |> wr (TWB_EVT_TIMEOUT i) 1 |> endTxn i 3 4 []

/-- TRANSACTION_DONE: acknowledged throughout, with the bytes read, or ended at a NACK (R358). -/
def doTransactionDone (i : Nat) (ack : Bool) (data : List Nat) (s : State) : State :=
  if rd s (TWB_STAT_STATE i) ≠ 1 then s
  else if ack then endTxn i 0 0 data s
  else s |> inc (TWB_CNT_NACK i) |> wr (TWB_EVT_NACK i) 1 |> endTxn i 0 1 []

/-! ## Targets (R367–R369) -/

/-- What a read transaction of a target still wants (R363). -/
def wantedOf (s : State) (t : Nat) : Nat × Nat := sget (fun _ => (0, 0)) s.brg.tgt t
def setWanted (t : Nat) (x : Nat × Nat) (s : State) : State :=
  { s with brg := { s.brg with tgt := sset (fun _ => (0, 0)) s.brg.tgt t (if x.2 = 0 then (0, 0) else x) } }

/-- The bridged read that target 0 waits for. -/
def targetWaits (s : State) : Option BrgAcc := s.brg.accs.find? fun x => x.orig == 2 && !x.write && !x.dead

/-- TARGET_DATA_TIMEOUT: a target has waited 20 ms for read data. Only target 0 passes the bridge (R370). -/
def doTargetDataTimeout (t : Nat) (s : State) : State :=
  if t ≠ 0 then s
  else
    match targetWaits s with
    | none => s
    | some x => s |> putAcc { x with dead := true } |> emit (.targetData 21 (List.replicate x.be.length 0xFF))

/-- TARGET_SELF_RESET: SCL has stayed low for 30 ms during a transaction. -/
def doTargetSelfReset (t : Nat) (s : State) : State :=
  let s := if t = 0 then match targetWaits s with | none => s | some x => putAcc { x with dead := true } s else s
  s |> setWanted t (0, 0) |> inc (TWB_CNT_TIMEOUT (21 + t)) |> recordError ((twbErr 3 (21 + t) (cfgI s islAO (TWB_T_ADDR_ADDR t))).setting (TWB_EVT_TIMEOUT (21 + t)))

def execTargetSelfReset (t : Nat) (s : State) : Host.Outcome State Fault Refusal := .next (if t < 2 then doTargetSelfReset t s else s)

/-- WAKE_ADDRESS: a target is addressed in park mode. -/
def doWakeAddress (t : Nat) (s : State) : State :=
  if s.mnt.parked && cfgI s islAO (TWB_T_CFG_WAKE t) == 1 then
    s |> inc (TWB_CNT2_WAKE (21 + t)) |> wr (TWB_EVT_WAKE (21 + t)) 1 |> askWake (1 + t)
  else s

def execWakeAddress (t : Nat) (s : State) : Host.Outcome State Fault Refusal := .next (if t < 2 then doWakeAddress t s else s)

/-- ALERT_RESPONSE: address 0x0C is read on a target's pins. -/
def doAlertResponse (t : Nat) (lost : Option (Nat × Nat)) (s : State) : State :=
  if !isSet s (TWB_STAT_ALERT (21 + t)) then s
  else
    match lost with
    | some at_ => arbLost (21 + t) at_ s
    | none =>
      let s := s |> emit (.targetData (21 + t) [cfgI s islAO (TWB_T_ADDR_ADDR t) * 2]) |> wr (TWB_STAT_ALERT (21 + t)) 0
      { s with pins := { s.pins with alertLow := isSet s (TWB_STAT_ALERT 21) || isSet s (TWB_STAT_ALERT 22) } }

def execAlertResponse (t : Nat) (lost : Option (Nat × Nat)) (s : State) : Host.Outcome State Fault Refusal :=
  .next (if t < 2 then doAlertResponse t lost s else s)

/-! ## Table memory (R158, R161, R473) -/

/-- Offset and size of the tables that a bank protects in the table region, and in the line store. -/
def protectedIn (c : Chip) (b : Sparse Word) : List (Nat × Nat) :=
  let on (v e : RF) : Bool := bankFld c b v == 1 && bankFld c b e == 1
  let f := bankFld c b
  (List.range 256).flatMap fun s =>
    (if on (PIX_LIN_CTRL_VALID s) (PIX_LIN_CTRL_PWL_EN s) then [(0x608000 + f (PIX_LIN_CTRL_OFFSET s), 1028)] else [])
      ++ (if on (PIX_HDR_CTRL_VALID s) (PIX_HDR_CTRL_WT_EN s) then [(0x608000 + f (PIX_HDR_CTRL_OFFSET s), 260)] else [])
      ++ (if on (PIX_TONE_CTRL_VALID s) (PIX_TONE_CTRL_TONE_EN s) then [(0x608000 + f (PIX_TONE_CTRL_OFFSET s), 546)] else [])
      ++ (if on (PIX_SCL_CTRL_VALID s) (PIX_SCL_CTRL_COEF_EN s) then [(0x608000 + f (PIX_SCL_CTRL_OFFSET s), 768)] else [])
      ++ (if on (PIX_DPC_CTRL_VALID s) (PIX_DPC_CTRL_STATIC_EN s) then
          [(0x1000000 + f (PIX_DPC_MAP_OFFSET s), f (PIX_DPC_CTRL_COUNT s) * 4)] else [])
      ++ (if on (PIX_LSC_CTRL_VALID s) (PIX_LSC_CTRL_EN s) then
          [(0x1000000 + f (PIX_LSC_MESH_OFFSET s), 8 * f (PIX_LSC_CTRL_NX s) * f (PIX_LSC_CTRL_NY s))] else [])

/-- The banks whose directories count: active, basting, and during a swap the old one. -/
def tableBanks (s : State) : List (Sparse Word) := [s.cfgA, s.cfgB] ++ if isSet s LDR_STAT_SWAP_BUSY then [s.cfgO] else []

/-- Line-store ranges of windows, skew buffers and the seam that the loader has allocated (R146). Where the seam's 2 MiB lie is the
model's choice: the top of the line store (log entry 51). -/
def storeRanges (s : State) : List (Nat × Nat) :=
  let of (b : Sparse Word) : List (Nat × Nat) :=
    (enabledCtxs b).map fun c => (0x1000000 + 64 * bankFld s.chip b (CTX_LS_BASE c), storeBytes { s with cfgB := b } c)
  (0x2E00000, 0x200000) :: of s.cfgA ++ if isSet s LDR_STAT_SWAP_BUSY then of s.cfgO else []

/-- A byte is in one of some ranges. -/
def inRanges (rs : List (Nat × Nat)) (a : Nat) : Bool := rs.any fun r => decide (r.1 ≤ a) && decide (a < r.1 + r.2)

/-- The addresses of the bytes an access selects. -/
def selected (a : Nat) (bytes : List (Option Nat)) : List (Nat × Nat) :=
  (List.range bytes.length).filterMap fun i => (bytes.getD i none).map fun b => (a + i, b)

/-- A byte of table memory: 0 the table region of PIX0, 1 that of another block, 2 the line store. -/
def tableKind (a : Nat) : Option Nat :=
  if 0x1000000 ≤ a ∧ a < 0x3000000 then some 2
  else if 0x600000 ≤ a ∧ a < 0x6C0000 ∧ 0x8000 ≤ (a - 0x600000) % 0x20000 ∧ (a - 0x600000) % 0x20000 < 0x10000 then
    some (if a < 0x620000 then 0 else 1)
  else none

/-- A write to table memory by an originator; `none` marks a byte that is not selected. -/
def tableStore (o : Orig) (a : Nat) (bytes : List (Option Nat)) (s : State) : State :=
  match tableKind a with
  | none => s
  | some 1 => if pixPresent s.variant ((a - 0x600000) / 0x20000) then mapMiss a s else s
  | some k =>
    let xs := selected a bytes
    if o = .t1 then s
    else if !xs.all (fun x => tableKind x.1 == some k) then mapMiss a s
    else if !sessionOf s o 0 || xs.any (fun x => inRanges (storeRanges s) x.1)
        || xs.any (fun x => inRanges ((tableBanks s).flatMap (protectedIn s.chip)) x.1) then deny a s
    else each xs (fun x s => tableWrite x.1 [x.2 % 256] s) s

/-- TABLE_MEMORY_WRITE. -/
def execTableMemoryWrite (o : Orig) (a : Nat) (bytes : List (Option Nat)) (s : State) : Host.Outcome State Fault Refusal :=
  .next (if origPresent s.variant o then tableStore o a bytes s else s)

/-! ## Fatal errors (R306, R427) -/

/-- EVC_ARRAY_ECC: an uncorrectable error in the arrays, at a source and a target. -/
def execEvcArrayEcc (src t : Nat) (s : State) : Host.Outcome State Fault Refusal := .next (fatalError (evcErr 3 (src % 2048) (t % 4)) s)

/-- SUPPLY_FAULT: VDD_CORE or VDD_AO has been out of range for 10 µs. -/
def execSupplyFault (s : State) : Host.Outcome State Fault Refusal := .next (fatalError (rsvErr 5 0) s)

/-- OVERTEMPERATURE: the junction has been above 140 °C for 1 ms, at `tj`. -/
def execOvertemperature (tj : Nat) (s : State) : Host.Outcome State Fault Refusal :=
  .next (if 1400 < sgn 16 (tj % 2 ^ 16) then s |> noteTj tj |> fatalError (rsvErr 6 0) else s)

end Sys2Proof.Machine
end

