-- ==== Sys2Proof/Machine/Glb.lean ====
section
/-! DEFINITION. Clock islands, crossings and service-core pairs (R18–R25, R34). -/

namespace Sys2Proof.Machine
open Sys2Proof

/-- A GLB error: destination and source island (R34). -/
def glbErr (code src dst : Nat) : ErrInfo := { unit := uGLB, inst := 0, code, info := dst * 2 ^ 16 + src * 2 ^ 8 }

/-- PLL_LOSS_OF_LOCK: island `i` goes to its ring oscillator (R20). -/
def doPllLossOfLock (i : Nat) (s : State) : State :=
  if isSet s (fallbackBit i) then s
  else
    let s := wr (fallbackBit i) 1 s
    if i = islTIME then fatalError (tsuErr 4 0) s
    else
      let s := recordError (glbErr 3 i 0) s
      if 22 ≤ i ∧ i < 28 then wearSignal 0 (i - 22) 0 0 s else wearSignal 5 i 0 0 s

def execPllLossOfLock (i : Nat) (s : State) : Host.Outcome State Fault Refusal :=
  .next (if i < 40 ∧ islPresent s.variant i then doPllLossOfLock i s else s)

/-! ## Service-core pairs (R24, R25) -/

/-- The pair that is in reserve: it has not failed and serves nothing. -/
def reservePair (s : State) : Option Nat :=
  (List.range 3).find? fun p => !hasBit (rd s SVC_STAT_FAILED) p && p != rd s SVC_STAT_PAIR_A && p != rd s SVC_STAT_PAIR_B

def svcErr (code pair : Nat) : ErrInfo := { unit := uSVC, inst := 0, code, info := pair * 256 }

/-- LOCKSTEP_MISMATCH: the two cores of a physical pair disagree. -/
def doLockstepMismatch (pair : Nat) (s : State) : State :=
  if hasBit (rd s SVC_STAT_FAILED) pair then s
  else
    let s := wr SVC_STAT_FAILED (withBit (rd s SVC_STAT_FAILED) pair) s
    if pair ≠ rd s SVC_STAT_PAIR_A ∧ pair ≠ rd s SVC_STAT_PAIR_B then wr SVC_EVT_PAIR_FAIL 1 s
    else if (reservePair s).isNone || svcStopped s && decide (1 < popCount 3 (rd s SVC_STAT_FAILED)) then
      fatalError ((svcErr 2 pair).setting SVC_EVT_PAIR_FAIL) s
    else recordError ((svcErr 1 pair).setting SVC_EVT_PAIR_FAIL) s

def execLockstepMismatch (pair : Nat) (s : State) : Host.Outcome State Fault Refusal :=
  .next (if pair < 3 then doLockstepMismatch pair s else s)

/-- The services of pair A, or of pair B, as the last checkpoint has them. -/
def resumeServices (pairA : Bool) (s : State) : State :=
  let x := s.checkpoint
  if pairA then { s with loops := x.loops }
  else { s with ldr := { s.ldr with candSince := x.candSince, modeCand := x.modeCand, modeRun := x.modeRun } }

/-- RESERVE_PAIR_TAKEOVER: the reserve pair sends its heartbeat, then resumes the services of the pair that has stopped from the last
checkpoint. -/
def doReservePairTakeover (s : State) : State :=
  match reservePair s with
  | none => s
  | some r =>
    if !svcStopped s || isSafe s then s
    else
      let a := stoppedA s
      let old := if a then rd s SVC_STAT_PAIR_A else rd s SVC_STAT_PAIR_B
      let s := doHeartbeatSend s
      let s := s |> (if a then wr SVC_STAT_PAIR_A r else wr SVC_STAT_PAIR_B r) |> resumeServices a
      s |> wr SVC_EVT_TAKEOVER 1 |> finishRepl ⟨4, old, 0, old, r, 0⟩

def execReservePairTakeover (s : State) : Host.Outcome State Fault Refusal := .next (doReservePairTakeover s)

/-- Age of the last checkpoint in µs (SVC_STAT.CHKPT_US). -/
def checkpointAge (s : State) : Nat := min 0xFFFF ((upNs s - s.chkAt) / 1000)

/-- CHECKPOINT_WRITE (R25): a pair that has stopped writes no checkpoint, and what it was serving stands as last written. -/
def doCheckpointWrite (s : State) : State :=
  let x := s.checkpoint
  let x := if stoppedA s then x else { x with loops := s.loops }
  let x := if stoppedB s then x else { x with candSince := s.ldr.candSince, modeCand := s.ldr.modeCand, modeRun := s.ldr.modeRun }
  { s with checkpoint := x, chkAt := upNs s }

def execCheckpointWrite (s : State) : Host.Outcome State Fault Refusal := .next (doCheckpointWrite s)

/-! ## Crossings (R21, R22) -/

/-- A line lost in a crossing: the fill value, FILLED, and CONCEALED for its frame. -/
def loseLine (c k : Nat) (s : State) : State :=
  let hit (f : FrameSt) : Bool := f.ctx == c && f.adm == .admitted && ((f.win.any fun l => l.k == k) || s.running.any fun r => r.frame == f.id && r.line.k == k)
  match s.frames.find? hit with
  | none => s
  | some f =>
    let fill (l : Line) : Line := if l.k = k then overflowed s f l else l
    let s := putFrame { f with win := f.win.map fill, status := f.status ||| 128 } s
    { s with running := s.running.map fun r =>
        if r.frame = f.id then { r with line := { r.line with lanes := r.line.lanes.map fill } } else r }

/-- The IDCODE that the TAP shifts out (R457): GLB_VER.DIE_MAJOR[3:0], GLB_ID.PART, the manufacturer 0x2E9, and a 1. -/
def idcode (s : State) : Nat := (reg s 0x4).toNat / 2 ^ 8 % 2 ^ 4 * 2 ^ 28 + (reg s 0x0).toNat % 2 ^ 16 * 2 ^ 12 + 0x2E9 * 2 + 1

/-- A transmit port restarts its PHY. -/
def restartTx (p : Nat) (s : State) : State :=
  if txHere s p && txEnabled s p then s |> setTx p { txOf s p with restarting := true } |> wr (CTX2_STAT_ACTIVE p) 0 else s

/-- A MAC restarts: its link goes down. -/
def restartMac (p : Nat) (s : State) : State :=
  if ethHere s p && isSet s (ETH_STAT_LINK p) then s |> wr (ETH_STAT_LINK p) 0 |> recordError ((ethErr 1 p).setting (ETH_EVT_LINK_DOWN p)) else s

/-- The wear signal of an island that is no resource of R417's table (R22): reported, with nothing to replace. Its kind is shown as 7:
DESIGN CHOICE (log entry 118). -/
def islandWear (s : State) : State := recordError ((rsvErr 1 7).setting RSV_EVT_WEAR) s

/-- What follows for the island that did not take the item (R22). -/
def recoverIsland (dst pair : Nat) (lost : List (Nat × Nat)) (s : State) : State :=
  if 22 ≤ dst ∧ dst < 28 then each lost (fun x s => loseLine x.1 x.2 s) s
  else if 2 ≤ dst ∧ dst < 22 then (if portState s (dst - 2) = 0 then s else s |> linkLoss (dst - 2) |> parkPort (dst - 2) |> kickSlices)
  else if dst = 30 ∨ dst = 31 then parkHost (dst - 30) s
  else if 32 ≤ dst ∧ dst < 36 then linkDown (dst - 32) s
  else if dst = islTX then s |> restartTx 0 |> restartTx 1
  else if dst = islETH then s |> restartMac 0 |> restartMac 1
  else if dst = islPOS then (if posPresent s.variant then each (List.range 4) loseChannel s else s)
  else if dst = islSVC then (if pair < 3 then doLockstepMismatch pair s else s)
  else s

/-- The timeout counts as a wear signal of its destination island (R22). -/
def crossingWear (dst pair : Nat) (s : State) : State :=
  if 22 ≤ dst ∧ dst < 28 then wearSignal 0 (dst - 22) 0 1 s else if dst = islSVC then wearSignal 4 pair 0 1 s else islandWear s

/-- The islands whose failure is of fatal class (R21). -/
def fatalIsland (i : Nat) : Bool := i == islCORE || i == islMEM || i == islAO || i == islTIME

/-- CROSSING_TIMEOUT: a sender in island `src` has waited 64 µs for island `dst`; `pair` is the pair that serves the crossing if that
is ISL_SVC, and `lost` the lines (context, line) that stood in the crossing. -/
def doCrossingTimeout (src dst pair : Nat) (lost : List (Nat × Nat)) (s : State) : State :=
  let s := s |> wr GLB_XING_TO_SRC src |> wr GLB_XING_TO_DST dst |> inc GLB_XING_TO_COUNT
  if fatalIsland dst then fatalError (glbErr 1 src dst) s
  else s |> recordError (glbErr 2 src dst) |> recoverIsland dst pair lost |> crossingWear dst pair |> wearRecord

def execCrossingTimeout (src dst pair : Nat) (lost : List (Nat × Nat)) (s : State) : Host.Outcome State Fault Refusal :=
  .next (if src < 40 ∧ dst < 40 ∧ src ≠ dst ∧ islPresent s.variant src ∧ islPresent s.variant dst then doCrossingTimeout src dst pair lost s
    else s)

end Sys2Proof.Machine
end

