-- ==== Sys2Proof/Machine/Profile.lean ====
section
/-! DEFINITION. Profile selection (R84–R86, R414) and the grant of the basting bank to internal writers that wait (R74). -/

namespace Sys2Proof.Machine
open Sys2Proof

/-! ## The conditions of R85; a speed of 0xFFFF is unknown -/

def profileEnter (mode v : Nat) (p : Profile) : Bool :=
  profileMode mode p && (!p.speedUsed || (v != 0xFFFF && decide (p.speedLo ≤ v) && decide (v ≤ p.speedHi)))

def profileStay (mode v : Nat) (p : Profile) : Bool :=
  profileMode mode p && (!p.speedUsed || v == 0xFFFF || (decide (p.speedLo ≤ v + p.hyst) && decide (v ≤ p.speedHi + p.hyst)))

/-- The current profile stays; one without an entry never does (R58). -/
def currentStays (ps : List Profile) (mode v cur : Nat) : Bool := ps.any fun p => p.index == cur && profileStay mode v p

/-- The candidate of an evaluation. -/
def candidate (ps : List Profile) (mode v cur : Nat) : Option Nat :=
  if currentStays ps mode v cur then lowestProfile ps fun p => decide (p.index < cur) && profileEnter mode v p
  else lowestProfile ps (profileEnter mode v)

def dwellOf (ps : List Profile) (i : Nat) : Nat := ((ps.find? fun p => p.index == i).map (·.dwell)).getD 0

/-! ## Writing a profile's set -/

/-- The whole set of a profile goes into the basting bank, retirements applied, and its swap is requested unchecked (R76, R86). -/
def profileSwap (p : Nat) (s : State) : State :=
  s |> takeBank .profileSelection |> loadProfileSet p |> applyRetirements |> acceptSwap .profileSelection p

/-- The swap to this very profile is in progress. -/
def swappingTo (s : State) (p : Nat) : Bool := isSet s LDR_STAT_SWAP_BUSY && s.ldr.swapBy == .profileSelection && s.ldr.swapProfile == p

/-- Write and swap now, or wait for the bank (R74). -/
def profileOrWait (p : Nat) (s : State) : State :=
  if mayTake s .profileSelection then profileSwap p s else if swappingTo s p then s else waitBank .profileSelection s

def stopWaiting (s : State) : State := { s with ldr := { s.ldr with waiting := s.ldr.waiting.filter (· ≠ .profileSelection) } }

/-- A time is at least 1 ms away from every fire point of a generator, its later ones included. -/
def clearOfGen (s : State) (t g : Nat) : Bool :=
  let per : Int := timeCfg s (TSU_TRG_PERIOD_NS g)
  let d := sgn 64 t - firePoint s (trgNext s g)
  if per ≤ 0 ∨ d < 0 then decide (1000000 ≤ d.natAbs)
  else decide (1000000 ≤ d % per) && decide (1000000 ≤ per - d % per)

/-- Swap time S of the primary (R414): 5 ms ahead, moved on by whole milliseconds until every fire point is 1 ms away. That it takes
the first such time is the model's choice (log entry 52). -/
def swapTime (s : State) : Nat :=
  let ok (t : Nat) : Bool := ((List.range 32).filter (trgEnabled s)).all (clearOfGen s t)
  let t0 := s.now + 5000000
  (((List.range 1000).map fun j => t0 + 1000000 * j).find? ok).getD t0

/-- A profile change that is due. The primary of a relay pair sends it to its partner first. -/
def changeProfile (p : Nat) (s : State) : State :=
  if relayOn s && role s == 1 then
    if s.rly.profile.isSome then s
    else
      let t := swapTime s
      { s with rly := { s.rly with profile := some (p, u32 t) } } |> sendRelay ([3, p, 0, 0] ++ leBytes 4 (u32 t))
  else profileOrWait p s

/-! ## Commands -/

/-- PROFILE_SELECTION_START: 1 s after LOADED (R86). -/
def execProfileSelectionStart (s : State) : Host.Outcome State Fault Refusal :=
  .next (if s.ldr.phase = .run then { s with ldr := { s.ldr with selecting := true } } else s)

/-- One evaluation (R85). -/
def evaluate (s : State) : State :=
  let ps := s.ldr.profiles
  let v := profSpeed s
  let mode := rd s LDR_PROF_STAT_MODE
  let cur := rd s LDR_STAT_PROFILE
  let s := wr LDR_PROF_STAT_SPEED v s
  match candidate ps mode v cur with
  | none => s |> wr LDR_PROF_STAT_CAND_VALID 0 |> wr LDR_STAT_NOMATCH (bit (!currentStays ps mode v cur)) |> stopWaiting
  | some c =>
    let same := isSet s LDR_PROF_STAT_CAND_VALID && rd s LDR_PROF_STAT_CANDIDATE == c
    let s := if same then s else { s with ldr := { s.ldr with candSince := upNs s } }
    let s := s |> wr LDR_PROF_STAT_CAND_VALID 1 |> wr LDR_PROF_STAT_CANDIDATE c |> wr LDR_STAT_NOMATCH 0
    if s.ldr.candSince + dwellOf ps c * 1000000 ≤ upNs s then changeProfile c s else stopWaiting s

/-- PROFILE_EVALUATION: every 10 ms; the standby of a relay pair follows its primary (R414). -/
def doProfileEvaluation (s : State) : State :=
  if !s.ldr.selecting || isSafe s || stoppedB s || (relayOn s && role s == 2) then s else evaluate s

def execProfileEvaluation (s : State) : Host.Outcome State Fault Refusal := .next (doProfileEvaluation s)

/-- PROFILE_SWAP_AT_S: swap time S of a PROFILE record has come (R414). -/
def doProfileSwapAtS (s : State) : State :=
  match s.rly.profile with
  | none => s
  | some (p, _) =>
    let s := { s with rly := { s.rly with profile := none } }
    if isSafe s then s else { s with ldr := { s.ldr with candSince := upNs s } } |> wr LDR_PROF_STAT_CANDIDATE p |> profileOrWait p

def execProfileSwapAtS (s : State) : Host.Outcome State Fault Refusal := .next (doProfileSwapAtS s)

/-- BASTING_GRANT: the bank is free, and the first writer in the order of R74 gets it. Profile selection waits only while its latest
evaluation gives a candidate that has held for its dwell. -/
def doBastingGrant (s : State) : State :=
  if !bankFree s || isSafe s then s
  else if s.ldr.waiting.contains .reserveManager then s |> takeBank .reserveManager |> reserveGranted
  else if s.ldr.waiting.contains .loader then takeBank .loader s
  else if s.ldr.waiting.contains .profileSelection then profileSwap (rd s LDR_PROF_STAT_CANDIDATE) s
  else s

def execBastingGrant (s : State) : Host.Outcome State Fault Refusal := .next (doBastingGrant s)

end Sys2Proof.Machine
end

