-- ==== Sys2Proof/Machine/Queue.lean ====
section
/-! DEFINITION. The queue engine's commands (R263–R286): writing packets word by word, reading them through the read
ports, spill moves, pointer protection and configuration changes. -/

namespace Sys2Proof.Machine
open Sys2Proof

/-- Break the claims of a list of packets. -/
def breakClaims (ps : List Pkt) (s : State) : State := ps.foldl (fun s p => breakClaim p s) s

/-- Discard everything a queue holds, breaking claims; the open packet is rewound (R280, R283). -/
def discardAll (q : Nat) (s : State) : State :=
  let x := queueOf s q
  s |> setQueue q { x with pkts := [], opn := none, wpos := 0, dram := 0 } |> breakClaims x.pkts

/-- The forced reset of a queue whose pointer copies disagree (R280): `count` and `sq` are what the other copy holds. -/
def pointerReset (q count sq : Nat) (s : State) : State :=
  let x := queueOf s q
  s |> discardAll q |> (fun s => setQueue q { queueOf s q with seq := max x.seq (u32 sq) } s)
    |> qLost q (max x.pkts.length count) |> inc (QMX_Q_LOST_PTR_RESET q) |> qmxError 2 q
    |> noteRow 1 (Config.pointerRow q) 2

/-- Serve the waiting producers after the open packet has left. -/
def serveWaiting (q : Nat) (s : State) : State :=
  if (queueOf s q).opn.isSome then s
  else
    let r := flushWaiting q (queueOf s q).waiting s
    oversizeErrors r.2 r.1

/-- The engine compares the pointer copies at every access (R280); `bad` is the other copy's packet count and sequence
number where it disagrees. -/
def comparePointers (q : Nat) (bad : Option (Nat × Nat)) (s : State) : State :=
  match bad with
  | none => s
  | some (count, sq) => s |> pointerReset q count sq |> serveWaiting q

/-! ## Writing -/

/-- PACKET_OPEN (R268): the packet opens at the write position; while another producer's packet is open, this one waits
(R270). Queue 0 and disabled queues take none (R263). -/
def doPacketOpen (q producer : Nat) (bad : Option (Nat × Nat)) (s : State) : State :=
  if !qEnabled s q then s
  else
    let s := comparePointers q bad s
    let x := queueOf s q
    match x.opn with
    | none => openPacket q producer s
    | some o =>
      if o.producer = producer ∨ x.waiting.any (fun w => w.producer == producer && w.words.isNone) then s
      else setQueue q { x with waiting := x.waiting ++ [⟨producer, none, false, []⟩] } s

def execPacketOpen (q producer : Nat) (bad : Option (Nat × Nat)) (s : State) : Host.Outcome State Fault Refusal :=
  .next (doPacketOpen q producer bad s)

/-- The producer's packet is the open one. -/
def ownsOpen (s : State) (q producer : Nat) : Bool :=
  match (queueOf s q).opn with
  | none => false
  | some o => o.producer == producer

/-- PACKET_WORD (R271, R272). -/
def doPacketWord (q producer w : Nat) (bad : Option (Nat × Nat)) (s : State) : State :=
  if !qEnabled s q then s
  else
    let s := comparePointers q bad s
    if ownsOpen s q producer then
      let r := putWord q w s
      let s := if r.2 = .oversize then qmxError 1 q r.1 else r.1
      serveWaiting q s
    else s

def execPacketWord (q producer w : Nat) (bad : Option (Nat × Nat)) (s : State) : Host.Outcome State Fault Refusal :=
  .next (doPacketWord q producer w bad s)

/-- PACKET_COMMIT (R268, R269): numbered, visible, received by the service cores, copied where configured (R274). -/
def doPacketCommit (q producer : Nat) (bad : Option (Nat × Nat)) (s : State) : State :=
  if !qEnabled s q then s
  else
    let s := comparePointers q bad s
    if ownsOpen s q producer then
      match (queueOf s q).opn with
      | none => s
      | some o =>
        let c := putCopy q o.words (s |> commitOpen q |> svcReceive q o.words)
        c.1 |> oversizeErrors c.2 |> serveWaiting q
    else s

def execPacketCommit (q producer : Nat) (bad : Option (Nat × Nat)) (s : State) : Host.Outcome State Fault Refusal :=
  .next (doPacketCommit q producer bad s)

/-- PACKET_REWIND (R268): the open packet leaves no trace. -/
def doPacketRewind (q producer : Nat) (s : State) : State :=
  if qEnabled s q && ownsOpen s q producer then s |> rewindOpen q |> serveWaiting q else s

def execPacketRewind (q producer : Nat) (s : State) : Host.Outcome State Fault Refusal :=
  .next (doPacketRewind q producer s)

/-! ## Spill and configuration -/

/-- The committed packet that holds word `k` of the contents, counted from the oldest, if a committed one does. -/
def packetAt : Nat → List Pkt → Option Pkt
  | _, [] => none
  | k, p :: ps => if k < pktWords p then some p else packetAt (k - pktWords p) ps

/-- Discard one packet whose spilled words are uncorrectable (R281): a committed one, or the open one, which is rewound. -/
def spillDrop (q : Nat) (p : Option Pkt) (s : State) : State :=
  let x := queueOf s q
  let s := match p with
    | some p => s |> setQueue q (capDram { x with pkts := x.pkts.filter (· ≠ p) }) |> breakClaim p
    | none => rewindOpen q s
  s |> qLost q 1 |> qmxError 3 q

/-- The packets that hold the bad words of a move: `bad` counts words from the first one moved, which follows the 32 words of the
head store. -/
def spilledPackets (x : QueueSt) (bad : List Nat) : List (Option Pkt) := (bad.map fun k => packetAt (32 + k) x.pkts).eraseDups

/-- Discard every packet whose spilled words are uncorrectable (R281); the DRAM row is worn (R417). -/
def spillDiscard (q : Nat) (bad : List Nat) (s : State) : State :=
  (spilledPackets (queueOf s q) bad).foldl (fun s p => spillDrop q p s) s |> noteRow 2 (Config.spillRow q) 1 |> serveWaiting q

/-- SPILL_MOVE (R264): `blocks` 64-byte blocks move between the on-chip store and DRAM, in ring order; only a queue of
more than 64 words spills, and the first and last 32 words of the contents stay on chip. `bad` names the moved words in which a
move towards the head store meets an uncorrectable error: the packets that contain them are discarded (R281). -/
def doSpillMove (q blocks : Nat) (toHead : Bool) (bad : List Nat) (s : State) : State :=
  if !qEnabled s q || decide (eff s (QMX_Q_CFG_DEPTH_LOG2 q) ≤ 6) then s
  else
    let x := queueOf s q
    if toHead then
      if x.dram = 0 ∨ blocks = 0 then s
      else
        let bad := bad.filter (· < min x.dram (16 * blocks))
        let s := setQueue q { x with dram := x.dram - 16 * blocks } s
        if bad.isEmpty then s else spillDiscard q bad s
    else setQueue q (capDram { x with dram := x.dram + 16 * blocks }) s

def execSpillMove (q blocks : Nat) (toHead : Bool) (bad : List Nat) (s : State) : Host.Outcome State Fault Refusal :=
  .next (doSpillMove q blocks toHead bad s)

/-- The configuration of a queue that ISL_CORE has. -/
def queueCfgNew (s : State) (q : Nat) : Word × Word :=
  let b := bankOf s (islandEpoch s islCORE)
  (bankWord s.chip b (QMX_Q_CFG_ALL q).addr, bankWord s.chip b (QMX_Q_COPY_ALL q).addr)

/-- A change of DEPTH_LOG2, or of ENABLE to 0, discards the contents and counts them (R283). -/
def discardForConfig (q : Nat) (s : State) : State :=
  let n := (queueOf s q).pkts.length
  s |> discardAll q |> qLost q n

/-- QUEUE_CONFIG_APPLY (R283): the configuration of the epoch in ISL_CORE takes effect while no packet is open. -/
def doQueueConfigApply (q : Nat) (s : State) : State :=
  if 8192 ≤ q ∨ (queueOf s q).opn.isSome then s
  else
    let c := QMX_Q_CFG_ALL q
    let n := queueCfgNew s q
    let old := bankWord s.chip s.cfgX c.addr
    let s := if fld n.1 7 3 ≠ fld old 7 3 ∨ (fld n.1 0 0 = 0 ∧ fld old 0 0 = 1) then discardForConfig q s else s
    let d := regReset s.chip
    { s with cfgX := sset d (sset d s.cfgX c.addr n.1) (QMX_Q_COPY_ALL q).addr n.2 }

def execQueueConfigApply (q : Nat) (s : State) : Host.Outcome State Fault Refusal := .next (doQueueConfigApply q s)

/-! ## Reading -/

/-- The originator of a read port (R275). -/
def portOrig (r : Nat) : Orig := if r = 0 then .hp0 else if r = 1 then .hp1 else if r = 2 then .t0 else .svc

/-- End a claim and free its packet; unread words are discarded and not counted (R276). -/
def releaseClaim (r : Nat) (s : State) : State :=
  match (portOf s r).claim with
  | none => s
  | some (q, _) =>
    let x := queueOf s q
    s |> setQueue q (capDram { x with pkts := x.pkts.filter (fun p => p.claim ≠ some r) }) |> dropClaim r

/-- The port may claim from the queue (R275). -/
def isReader (s : State) (r q : Nat) : Bool := hasBit (eff s (QMX_Q_CFG_READERS q)) r

/-- A queue with an unclaimed packet. -/
def hasUnclaimed (s : State) (q : Nat) : Bool := (queueOf s q).pkts.any fun p => p.claim.isNone

/-- The member of group `g` that a header read of port `r` takes from: the highest PRIO, then the lower number (R278). -/
def groupPick (s : State) (r g : Nat) : Option Nat :=
  let members := (s.queues.map (·.1)).filter fun q =>
    qEnabled s q && eff s (QMX_Q_CFG_GROUP q) == g && isReader s r q && hasUnclaimed s q
  members.foldl (fun best q =>
    match best with
    | none => some q
    | some b => if eff s (QMX_Q_CFG_PRIO b) < eff s (QMX_Q_CFG_PRIO q) then some q else best) none

/-- A header word (R267). -/
def headerWord (valid denied lostSince : Bool) (q sq len : Nat) : Nat :=
  bit valid * 2 ^ 31 + bit denied * 2 ^ 30 + bit lostSince * 2 ^ 29 + q * 2 ^ 16 + sq % 16 * 2 ^ 12 + len

/-- Mark the oldest unclaimed packet as claimed by the port. -/
def markClaim (r : Nat) : List Pkt → List Pkt
  | [] => []
  | p :: ps => if p.claim.isNone then { p with claim := some r } :: ps else p :: markClaim r ps

/-- Take the oldest committed, unclaimed packet of a queue and answer its header (R276). -/
def claimPacket (r q : Nat) (s : State) : State × Nat :=
  let x := queueOf s q
  match x.pkts.find? (fun p => p.claim.isNone) with
  | none => (s, headerWord false false false q 0 0)
  | some p =>
    let h := headerWord true false x.lostSince q p.seq p.words.length
    let s := s |> setQueue q { x with pkts := markClaim r x.pkts, lostSince := false }
      |> setPort r ⟨some (q, p.seq), p.words⟩ |> wr (QMX_RP_STAT_QUEUE r) q
      |> wr (QMX_RP_STAT_LEFT r) p.words.length |> wr (QMX_RP_STAT_CLAIMED r) 1
    (if p.words.isEmpty then releaseClaim r s else s, h)

/-- The selection and header of a header read (R276–R278). -/
def headerRead (r : Nat) (bad : Option (Nat × Nat)) (s : State) : State × Nat :=
  let s := s |> releaseClaim r |> wr (QMX_RP_STAT_OVERRUN r) 0 |> wr (QMX_RP_STAT_TIMEOUT r) 0
    |> wr (QMX_RP_STAT_BROKEN r) 0
  let tgt := rd s (QMX_RP_SEL_TARGET r)
  if isSet s (QMX_RP_SEL_GROUP_MODE r) then
    if tgt = 0 ∨ 31 < tgt then (s, headerWord false false false 0 0 0)
    else
      match groupPick s r tgt with
      | none => (s, headerWord false false false 0 0 0)
      | some q =>
        let s := comparePointers q bad s
        if hasUnclaimed s q then claimPacket r q s else (s, headerWord false false false 0 0 0)
  else if !isReader s r tgt then (s, headerWord false true false tgt 0 0)
  else claimPacket r tgt (comparePointers tgt bad s)

/-- HEADER_READ (R276). -/
def doHeaderRead (o : Orig) (r : Nat) (bad : Option (Nat × Nat)) (s : State) : State :=
  guardRead o (portOrig r) (QMX_RP_HEAD_ALL r).addr
    (fun s => let a := headerRead r bad s; emit (.readData o (QMX_RP_HEAD_ALL r).addr a.2) a.1) s

def execHeaderRead (o : Orig) (r : Nat) (bad : Option (Nat × Nat)) (s : State) : Host.Outcome State Fault Refusal :=
  .next (if r < 4 then doHeaderRead o r bad s else s)

/-- One read of QMX_RP_DATA (R276): the next word of the claim, or 0. -/
def dataWord (r : Nat) (s : State) : State × Nat :=
  let p := portOf s r
  match p.claim, p.rest with
  | some _, w :: ws =>
    let s := s |> setPort r { p with rest := ws } |> wr (QMX_RP_STAT_LEFT r) ws.length
    (if ws.isEmpty then releaseClaim r s else s, w)
  | _, _ => if isSet s (QMX_RP_STAT_BROKEN r) then (s, 0) else (wr (QMX_RP_STAT_OVERRUN r) 1 s, 0)

/-- `n` successive words, each answered to the originator. -/
def dataWords (o : Orig) (r : Nat) : Nat → State → State
  | 0, s => s
  | n + 1, s =>
    let a := dataWord r s
    dataWords o r n (emit (.readData o (QMX_RP_DATA_ALL r 0).addr a.2) a.1)

/-- DATA_READ (R276): up to 128 words in one read request. -/
def doDataRead (o : Orig) (r n : Nat) (bad : Option (Nat × Nat)) (s : State) : State :=
  guardRead o (portOrig r) (QMX_RP_DATA_ALL r 0).addr
    (fun s =>
      let s := match (portOf s r).claim with
        | none => s
        | some (q, _) => comparePointers q bad s
      dataWords o r (min n 128) s) s

def execDataRead (o : Orig) (r n : Nat) (bad : Option (Nat × Nat)) (s : State) : Host.Outcome State Fault Refusal :=
  .next (if r < 4 then doDataRead o r n bad s else s)

/-- RELEASE (R276): GO = 1 ends the claim. -/
def doRelease (o : Orig) (r v : Nat) (s : State) : State :=
  guardOrig o (portOrig r) (QMX_RP_RELEASE_ALL r).addr (fun s => if hasBit v 0 then releaseClaim r s else s) s

def execRelease (o : Orig) (r v : Nat) (s : State) : Host.Outcome State Fault Refusal :=
  .next (if r < 4 then doRelease o r v s else s)

/-- CLAIM_TIMEOUT (R276): the claim of an idle port ends. -/
def doClaimTimeout (r : Nat) (s : State) : State :=
  match (portOf s r).claim with
  | none => s
  | some _ => s |> releaseClaim r |> wr (QMX_RP_STAT_TIMEOUT r) 1 |> wr QMX_EVT_CLAIM_TMO 1

def execClaimTimeout (r : Nat) (s : State) : Host.Outcome State Fault Refusal :=
  .next (if r < 4 then doClaimTimeout r s else s)

end Sys2Proof.Machine
end

