-- ==== Sys2Proof/Machine/Bus.lean ====
section
/-! DEFINITION. Accesses to the device map: register reads and writes with their access codes (R6, R11, R12, R30), two-wire
target transactions (R362–R366), bridge windows (R29, R370), and the Ethernet diagnostic channel (R324). -/

namespace Sys2Proof.Machine
open Sys2Proof

/-! ## Who reaches what -/

/-- The only originator that reaches an address, where there is one (R238, R275, R288). -/
def ownerOf (a : Nat) : Option Orig :=
  if 0x30000 ≤ a ∧ a < 0x34000 then some (targetOrig ((a - 0x30000) / 0x1000))
  else if 0x80000 ≤ a ∧ a < 0x84000 then some (portOrig ((a - 0x80000) / 0x1000))
  else if 0x788000 ≤ a ∧ a < 0x78A000 then some .hp0
  else if 0x798000 ≤ a ∧ a < 0x79A000 then some .hp1
  else none

/-- An address that is another originator's alone. -/
def shutOut (o : Orig) (a : Nat) : Bool :=
  match ownerOf a with
  | some w => o != w
  | none => false

/-- The offset of an address in a context record. -/
def ctxOffset (a : Nat) : Option Nat := if 0x300000 ≤ a ∧ a < 0x500000 then some (a % 0x80) else none

/-- Run-time words of a context record (R124): not banked. -/
def runTimeWord (a : Nat) : Bool := match ctxOffset a with | some k => decide (0x48 ≤ k) && decide (k < 0x68) | none => false

/-- Words of a context record that the loader fills in (R124). -/
def loaderWord (a : Nat) : Bool := match ctxOffset a with | some k => k == 0x40 || k == 0x44 | none => false

/-- An address that no register, memory or window covers (R30); the register space of an absent unit is not one (R2). -/
def unassigned (s : State) (o : Orig) (a : Nat) : Bool :=
  (winOf a).isNone && (tableKind a).isNone && !absentAt s.variant (a / 4 * 4)
    && (shutOut o a || ((regAt (a / 4 * 4)).isNone && (ctxOffset a).isNone))

/-! ## PCIe BARs (R31, R32) -/

/-- A BAR of a host port: its number, size, whether it is prefetchable, and the device address of its offset 0. -/
structure Bar where
  num : Nat
  size : Nat
  prefetch : Bool
  base : Nat
deriving DecidableEq, Repr

def hostBars : List Bar := [⟨0, 0x4000000, false, 0⟩, ⟨2, 0x2000000, true, 0x1000000⟩, ⟨4, 0x40000000, false, 0x10000000⟩]

/-- Where an access lands: at a device address, on an offset of BAR0 that is not mapped, handled as unassigned (R32), or nowhere: no BAR
holds it. -/
inductive Landing where
  | device (a : Nat)
  | unmapped (a : Nat)
  | nowhere
deriving DecidableEq, Repr

/-- The device address of an access: of a host port through a BAR, given with the offset, or, with no BAR, the address itself (R31). -/
def landing (o : Orig) (bar : Option Nat) (a : Nat) : Landing :=
  match bar with
  | none => .device a
  | some n =>
    if o = .hp0 ∨ o = .hp1 then
      match hostBars.find? fun b => b.num == n && decide (a < b.size) with
      | some b => if b.num = 0 ∧ 0x1000000 ≤ a ∧ a < 0x3000000 then .unmapped a else .device (b.base + a)
      | none => .nowhere
    else .nowhere

/-! ## Reads -/

/-- CFG reads of the originator come from the active bank (R88, R324). -/
def readsActive (s : State) (o : Orig) : Bool :=
  match o with
  | .diag _ => true
  | o => match viewBit o with | some k => hasBit (rd s LDR_VIEW_ACTIVE) k | none => false

/-- The word that a read starts from: a bank, a LIVE copy, or the register (R11, R88). -/
def storedWord (s : State) (o : Orig) (cls : Cls) (a : Nat) : Word :=
  if isLiveWord a then bankWord s.chip s.liveB a
  else if runTimeWord a then reg s a
  else if loaderWord a then bankWord s.chip s.cfgA a
  else if cls = .cfg then bankWord s.chip (if readsActive s o then s.cfgA else s.cfgB) a
  else reg s a

/-- LOGICAL and ROLE of a physical slice: 0 active, 1 reserve, 2 retired (R417). -/
def sliceRole (s : State) (n : Nat) : Nat :=
  if hasBit (retiredMask s 0) n then 2 else if (logicalOf s n).isSome then 0 else 1

/-- Routes to a transmit port in the active bank (R229). -/
def txRoutes (s : State) (p : Nat) : Nat :=
  ((List.range 256).filter fun o => act s (SEAM_ROUTE_W0_VALID o) == 1 && act s (SEAM_ROUTE_W0_DEST_KIND o) == 1 && act s (SEAM_ROUTE_W0_DEST o) == p).length

/-- The slice holds the bank of an old epoch. -/
def twoBanks (s : State) (n : Nat) : Bool := isSet s LDR_STAT_SWAP_BUSY && islandEpoch s (islPIX n) == epochActive s

/-- Fields of an event target's window that follow from the arrays (R290, R296). -/
def targetView (s : State) (t off : Nat) : List (RF × Nat) :=
  if off = 0x10 then
    [(EVC_T_STAT_RUN_PRIO t, maxOf ((activeList s t).map (prioOf s))), (EVC_T_STAT_NOTIFY t, bit (wantsNotify s t)),
      (EVC_T_STAT_ACTIVE t, (activeList s t).length)]
  else if 0x300 ≤ off ∧ off < 0x384 then [(EVC_T_PEND_PEND t ((off - 0x300) / 4), pendWord s t ((off - 0x300) / 4))]
  else []

/-- Fields of a queue's registers that follow from its contents (R264, R269). -/
def queueView (s : State) (q off : Nat) : List (RF × Nat) :=
  if off = 8 then [(QMX_Q_PKTS_PKTS q, unclaimed (queueOf s q))]
  else if off = 0xC then [(QMX_Q_WORDS_WORDS q, usedWords (queueOf s q))]
  else if off = 0x14 then [(QMX_Q_SEQ_SEQ q, (queueOf s q).seq)]
  else []

/-- Fields of a PIX block (R150, R156). -/
def pixView (s : State) (n off : Nat) : List (RF × Nat) :=
  if off = 0 then [(PIX_CAP_LOGICAL n, (logicalOf s n).getD 7), (PIX_CAP_ROLE n, sliceRole s n)]
  else if off = 4 then [(PIX_STATUS_TWO_BANKS n, bit (twoBanks s n)), (PIX_STATUS_OLD_EPOCH n, if twoBanks s n then epochOld s else 0)]
  else if off = 0x1F000 then [(HTS_L_LOAD_RESV n, min (resv s n) 0xFFFF), (HTS_L_LOAD_LOAD n, min (committed s n) 0xFFFF)]
  else if off = 0x1F004 then [(HTS_L_BUDGET_PHYS n, act s RSV_SLICE_MAP_PHYS / 8 ^ n % 8)]
  else []

/-- Fields that are computed when they are read. -/
def viewFields (s : State) (o : Orig) (a : Nat) : List (RF × Nat) :=
  if a = LDR_ROLLBACK_FUSE.addr then [(LDR_ROLLBACK_FUSE, s.rollback)]
  else if a = LDR_SWAP_PEND_CTX.addr then [(LDR_SWAP_PEND_CTX, (pendContexts s).length)]
  else if 0x30000 ≤ a ∧ a < 0x34000 then targetView s ((a - 0x30000) / 0x1000) (a % 0x1000)
  else if 0x40000 ≤ a ∧ a < 0x80000 then queueView s ((a - 0x40000) / 0x20) (a % 0x20)
  else if 0x600000 ≤ a ∧ a < 0x6C0000 then pixView s ((a - 0x600000) / 0x20000) (a % 0x20000)
  else if 0x7C0000 ≤ a ∧ a < 0x7C2000 ∧ a % 0x1000 = 4 then
    [(CTX2_STAT_VC_USED ((a - 0x7C0000) / 0x1000), 2 ^ min 16 (txRoutes s ((a - 0x7C0000) / 0x1000)) - 1)]
  else if a = RLY_STAT_ELIGIBLE.addr then [(RLY_STAT_ELIGIBLE, bit (eligible s))]
  else if a = RLY_DIGEST_DIGEST.addr then [(RLY_DIGEST_DIGEST, ownDigest s)]
  else if a = TSU_TIME_HI_WRAPS.addr then [(TSU_TIME_HI_WRAPS, timeHiOf o s)]
  else if a = POS_SPEED_ALL.addr then [(POS_SPEED_ALL, posSpeedWord s)]
  else if a = POS_STEER_ALL.addr then [(POS_STEER_ALL, posSteerWord s)]
  else if a = POS_PROF_SPEED.addr then [(POS_PROF_SPEED, profSpeed s)]
  else if 0xC00100 ≤ a ∧ a < 0xC002A0 ∧ a % 8 = 4 then [(BRG_SEM_STAT_REMAIN_US ((a - 0xC00100) / 8), leaseLeft s ((a - 0xC00100) / 8))]
  else if a = RSV_LEFT_ALL.addr then [(RSV_LEFT_ALL, rsvLeft s)]
  else if a = MNT_STAT_WINDOW_S.addr then [(MNT_STAT_WINDOW_S, windowLeft s)]
  else if a = SVC_STAT_CHKPT_US.addr then [(SVC_STAT_CHKPT_US, checkpointAge s)]
  else []

/-- What the fields of a register read as: a field that is only written reads 0 (R11). -/
def shownWord (fs : List FieldD) (w : Word) : Word := fs.foldl (fun w x => if x.acc = .wo then setFld w x.hi x.lo 0 else w) w

/-- A register's value to an originator. -/
def shown (s : State) (o : Orig) (d : RegD) (a : Nat) : Nat :=
  ((viewFields s o a).foldl (fun w f => setFld w f.1.hi f.1.lo f.2) (shownWord d.flds (storedWord s o d.cls a))).toNat

/-- The RC fields of a word after a read: cleared, each with the events of the same cycle (R12), named by its low bit. -/
def clearedWord (fs : List FieldD) (hw : List Nat) (w : Word) : Word :=
  fs.foldl (fun w x => if x.acc = .rc then setFld w x.hi x.lo (satAdd x.width 0 (hw.filter (· == x.lo)).length) else w) w

/-- A read clears the RC fields of its register; a peak starts again from the present value (R259, PWR_TJ). -/
def clearRead (d : RegD) (a : Nat) (hw : List Nat) (s : State) : State :=
  if d.flds.any (fun x => x.acc == .rc) then
    let s := setReg a (clearedWord d.flds hw (reg s a)) s
    if a = (HLK_EGR_PEAK_BYTES 0).addr then wr (HLK_EGR_PEAK_BYTES 0) (rd s (HLK_EGR_LEVEL_BYTES 0)) s
    else if a = (HLK_EGR_PEAK_BYTES 1).addr then wr (HLK_EGR_PEAK_BYTES 1) (rd s (HLK_EGR_LEVEL_BYTES 1)) s
    else if a = PWR_TJ_PEAK.addr then wr PWR_TJ_PEAK (rd s PWR_TJ_TJ) s
    else s
  else s

/-- Registers whose read is an operation (R276, R291, R308); MNT_BUF answers only the session's originator. -/
def specialRead (o : Orig) (a : Nat) (s : State) : Option (State × Nat) :=
  if 0x30000 ≤ a ∧ a < 0x34000 ∧ a % 0x1000 = 0 then
    let t := (a - 0x30000) / 0x1000
    let r := claimWord t s
    some (notify t r.1, r.2)
  else if 0x80000 ≤ a ∧ a < 0x84000 ∧ a % 0x1000 = 4 then some (headerRead ((a - 0x80000) / 0x1000) none s)
  else if 0x80000 ≤ a ∧ a < 0x84000 ∧ 0x800 ≤ a % 0x1000 then some (dataWord ((a - 0x80000) / 0x1000) s)
  else if a = TSU_TIME_NS_NS.addr then some (latchHi o s, timeNs s)
  else if 0xD21000 ≤ a ∧ a < 0xD22000 ∧ sessionHolder s o = false then some (s, 0)
  else none

/-- A read of the 32-bit word at an aligned address of the device map. -/
def readWord (o : Orig) (a : Nat) (hw : List Nat) (s : State) : State × Nat :=
  if (tableKind a).isSome then (s, leNum (memRead ramDefault s.ram a 4))
  else if absentAt s.variant a then (s, 0)
  else if shutOut o a then (mapMiss a s, 0)
  else
    match regAt a with
    | none => (if (ctxOffset a).isSome then s else mapMiss a s, 0)
    | some (d, _) =>
      match specialRead o a s with
      | some r => r
      | none => (if writes o then clearRead d a hw s else s, shown s o d a)

/-- An access that misses the map (R30). The address latched is the one presented: a byte address for UNASSIGNED_ACCESS and
REGISTER_WRITE; RC_READ, which reads whole aligned words (R6), latches the word's. The spec says only 'the address': DESIGN CHOICE (log
entry 119). -/
def missAt (o : Orig) (a : Nat) (write : Bool) (s : State) : State :=
  if !origPresent s.variant o || (write && !writes o) then s
  else
    let s := mapMiss a s
    if write then s else emit (.readData o a 0) s

/-- RC_READ: a read of `bytes` bytes at `a`, with the RC events of the same cycle. A register is read whole (R6); memory gives the
bytes selected (R473). A miss latches the aligned word's address: DESIGN CHOICE (log entry 119). -/
def doRcRead (o : Orig) (a bytes : Nat) (hw : List Nat) (s : State) : State :=
  if !origPresent s.variant o || (winOf a).isSome then s
  else if (tableKind a).isSome then emit (.readData o a (leNum (memRead ramDefault s.ram a bytes))) s
  else
    let r := readWord o (a / 4 * 4) hw s
    emit (.readData o a r.2) r.1

def execRcRead (x : Via) (a bytes : Nat) (hw : List Nat) (s : State) : Host.Outcome State Fault Refusal :=
  .next (match landing x.orig x.bar a with
    | .device d => doRcRead x.orig d bytes hw s
    | .unmapped d => missAt x.orig d false s
    | .nowhere => s)

/-! ## Writes -/

/-- A write by access code (R11); `hw` are the W1C bits that hardware sets in the same cycle (R12). -/
def writtenWord (fs : List FieldD) (v hw : Nat) (w : Word) : Word :=
  fs.foldl (fun w x =>
    let nv := v / 2 ^ x.lo % 2 ^ x.width
    match x.acc with
    | .rw => setFld w x.hi x.lo nv
    | .wo => setFld w x.hi x.lo nv
    | .w1c => setFld w x.hi x.lo (bitsOf ((List.range x.width).filter fun i => hasBit hw (x.lo + i) || (hasBit w.toNat (x.lo + i) && !hasBit nv i)))
    | _ => w) w

/-- DMX_CH_CTRL (R254): an ABORT acts alone, a STOP after a START. -/
def channelCtrl (c v : Nat) (s : State) : State :=
  if hasBit v 2 then doAbort c s
  else
    let s := if hasBit v 0 then doStart c s else s
    if hasBit v 1 then doStop c s else s

/-- Registers of a DMA channel whose write is an operation. -/
def channelWrite (c off v : Nat) (s : State) : Option State :=
  if off = 0x24 then some (if hasBit v 31 then doArm c (v % 256) s else doDisarm c s)
  else if off = 0x30 then some (doPiWrite c (v % 2 ^ 16) s)
  else if off = 0x34 then some (doCplCiWrite c (v % 2 ^ 16) s)
  else if off = 0x40 then some (channelCtrl c v s)
  else none

/-- Registers of an event target whose write is an operation (R292, R294). -/
def targetWindowWrite (o : Orig) (t off v : Nat) (s : State) : Option State :=
  if off = 4 then some (doComplete o t (v % 2048) s)
  else if off = 8 then some (doGdis o t v s)
  else if off = 0xC then some (doSplit o t v s)
  else if 0x200 ≤ off ∧ off < 0x284 then some (doEnableWrite o t ((off - 0x200) / 4) v s)
  else none

/-- MNT_FLASH_CMD (R433). -/
def flashWrite (o : Orig) (v : Nat) (s : State) : State :=
  let slot := v / 2 ^ 28 % 2
  let arg := v % 2 ^ 28
  match v / 2 ^ 29 % 8 with
  | 1 => doErase o slot s
  | 2 => doProgram o slot arg s
  | 3 => doVerify o slot s
  | 4 => doReload o s
  | 5 => doRollback o arg s
  | _ => if sessionHolder s o then s else deny MNT_FLASH_CMD_ALL.addr s

/-- Maintenance registers whose write is an operation (R430, R432, R433). -/
def maintWrite (o : Orig) (a v : Nat) (s : State) : Option State :=
  if a = MNT_CTRL_OPEN.addr then
    let s := if hasBit v 0 then doSessionOpen o s else s
    some (if hasBit v 1 then doSessionClose o s else s)
  else if a = MNT_FLASH_CMD_ALL.addr then some (flashWrite o v s)
  else if a = MNT_PARK_GO.addr then some (if hasBit v 0 then doPark o v s else doParkCancel o v s)
  else if 0xD21000 ≤ a ∧ a < 0xD22000 ∧ sessionHolder s o = false then some (deny a s)
  else none

/-- BRG_SEM_CTRL: TAKE, then RELEASE (R377, R378). -/
def semWrite (o : Orig) (w v : Nat) (s : State) : State :=
  let s := if hasBit v 0 then doTake o w s else s
  if hasBit v 1 then doSemaphoreRelease o w s else s

/-- FOLD_CMD (R351); 3 is discarded. -/
def foldWrite (m v : Nat) (s : State) : State :=
  match v % 4 with
  | 0 => doFoldStop m s
  | 1 => foldCommand m 1 s
  | 2 => foldCommand m 2 s
  | _ => s

/-- OP registers whose write is an operation. -/
def specialWrite (o : Orig) (a v : Nat) (s : State) : Option State :=
  if a = LDR_VIEW_ACTIVE.addr then some (doLdrViewWrite o v s)
  else if 0x30000 ≤ a ∧ a < 0x34000 then targetWindowWrite o ((a - 0x30000) / 0x1000) (a % 0x1000) v s
  else if 0x80000 ≤ a ∧ a < 0x84000 ∧ a % 0x1000 = 0xC then some (doRelease o ((a - 0x80000) / 0x1000) v s)
  else if 0xC0000 ≤ a ∧ a < 0x100000 ∧ o = .t0 then some s
  else if 0xC0000 ≤ a ∧ a < 0xE0000 then channelWrite ((a - 0xC0000) / 0x200) (a % 0x200) v s
  else if 0xE0000 ≤ a ∧ a < 0xE2000 ∧ a % 0x1000 = 0 then some (doReplay ((a - 0xE0000) / 0x1000) v s)
  else if a = HTS_HOLD_FREEZE_FREEZE.addr then some (if hasBit v 31 then doHoldFreeze (v % 2 ^ 14) s else doHoldRelease (v % 2 ^ 14) s)
  else if 0x788000 ≤ a ∧ a < 0x788400 ∧ a % 16 = 0xC ∧ hasBit v 0 = false then some (doVectorUnmask 0 ((a - 0x788000) / 16) s)
  else if 0x798000 ≤ a ∧ a < 0x798400 ∧ a % 16 = 0xC ∧ hasBit v 0 = false then some (doVectorUnmask 1 ((a - 0x798000) / 16) s)
  else if a = RLY_CTRL_HANDOVER.addr then some (doHandover o v s)
  else if 0xA00040 ≤ a ∧ a < 0xA00080 ∧ a % 8 = 0 then some (doCompareArm ((a - 0xA00040) / 8) v s)
  else if 0xA40100 ≤ a ∧ a < 0xA40300 ∧ a % 0x20 = 0x18 then some (if hasBit v 0 then unlatch ((a - 0xA40100) / 0x20) s else s)
  else if 0xA80200 ≤ a ∧ a < 0xA80240 ∧ a % 0x20 = 0xC then some (foldWrite ((a - 0xA80200) / 0x20) v s)
  else if 0xC00100 ≤ a ∧ a < 0xC002A0 ∧ a % 8 = 0 then some (semWrite o ((a - 0xC00100) / 8) v s)
  else if 0xD20000 ≤ a ∧ a < 0xD30000 then maintWrite o a v s
  else none

/-- A CFG write (R8–R10, R75, R87). -/
def cfgWrite (o : Orig) (a v : Nat) (s : State) : State :=
  if a = LDR_SWAP_REQ_GO.addr then (if hasBit v 0 || !owns s (.bus o) then doSwapRequest (.bus o) s else s)
  else if a = LDR_DISCARD_GO.addr then (if hasBit v 0 || !owns s (.bus o) then doDiscard (.bus o) s else s)
  else if isLiveWord a then doLiveWrite o a v s
  else doCfgBastingWrite (.bus o) a v s

/-- A write of the 32-bit word at an aligned address of the device map. -/
def writeWord (o : Orig) (a v hw : Nat) (s : State) : State :=
  if !writes o then s
  else if (tableKind a).isSome then tableStore o a ((leBytes 4 v).map some) s
  else if absentAt s.variant a then s
  else if shutOut o a then mapMiss a s
  else
    match regAt a with
    | none => if (ctxOffset a).isSome then s else mapMiss a s
    | some (d, _) =>
      match d.cls with
      | .stat => s
      | .cfg => cfgWrite o a v s
      | .op =>
        match specialWrite o a v s with
        | some s' => s'
        | none => setReg a (writtenWord d.flds v hw (reg s a)) s

/-- Of the words that an originator writes, those of STAT registers by which the service cores steer the time (R309). -/
def steerTime (o : Orig) (ws : List (Nat × Nat)) (s : State) : State :=
  if o = .svc then ws.foldl (fun s w => svcTimeWrite w.1 w.2 s) s else s

/-- A register write of fewer than 4 bytes is discarded and counted as a protocol error of its interface (R6): in TWB_CNT2 for a two-wire
target; the host links and the weave have no register for it (log entry 62). -/
def partialWrite (o : Orig) (s : State) : State :=
  let count (i : Nat) : State := { s with protoErrs := smod (fun _ => 0) s.protoErrs i (· + 1) }
  match o with
  | .t0 => inc (TWB_CNT2_PROTO_ERR 21) s
  | .hp0 => count 0
  | .hp1 => count 1
  | .weave _ => count 2
  | _ => s

/-- REGISTER_WRITE: a write of `bytes` bytes at `a`. A miss latches the byte address given: DESIGN CHOICE (log entry 119). -/
def doRegisterWrite (o : Orig) (a v bytes hw : Nat) (s : State) : State :=
  if !origPresent s.variant o || !writes o || (winOf a).isSome then s
  else if (tableKind a).isSome then tableStore o a ((leBytes bytes v).map some) s
  else if unassigned s o a then mapMiss a s
  else if bytes ≠ 4 ∨ a % 4 ≠ 0 then partialWrite o s
  else s |> writeWord o a v hw |> steerTime o [(a, v)]

def execRegisterWrite (x : Via) (a v bytes hw : Nat) (s : State) : Host.Outcome State Fault Refusal :=
  .next (match landing x.orig x.bar a with
    | .device d => doRegisterWrite x.orig d v bytes hw s
    | .unmapped d => missAt x.orig d true s
    | .nowhere => s)

/-- UNASSIGNED_ACCESS (R30, R32): also an access through BAR0 to the offsets of the line store. -/
def doUnassignedAccess (o : Orig) (bar : Option Nat) (a : Nat) (write : Bool) (s : State) : State :=
  match landing o bar a with
  | .device d => if unassigned s o d then missAt o d write s else s
  | .unmapped d => missAt o d write s
  | .nowhere => s

def execUnassignedAccess (o : Orig) (bar : Option Nat) (a : Nat) (write : Bool) (s : State) : Host.Outcome State Fault Refusal :=
  .next (doUnassignedAccess o bar a write s)

/-- Draw `n` bytes whose value the spec does not state (log entry 3). -/
def freeBytes (n : Nat) (s : State) : List Nat × State :=
  ((List.range n).map fun i => Config.freeWord (s.freeCount + i) % 256, { s with freeCount := s.freeCount + n })

/-! ## Accesses of up to 64 bytes, served locally (R29, R401) -/

/-- Aligned words that hold enabled bytes of an access. -/
def wordsTouched (addr : Nat) (be : List Bool) : List Nat := addNew [] ((enabledBytes be).map fun i => (addr + i) / 4 * 4)

/-- A read with byte enables: the bytes of the span, 0 where disabled. -/
def serveRead (o : Orig) (addr : Nat) (be : List Bool) (s : State) : State × List Nat :=
  let r := (wordsTouched addr be).foldl (fun (acc : State × List (Nat × Nat)) w => let x := readWord o w [] acc.1; (x.1, acc.2 ++ [(w, x.2)])) (s, [])
  (r.1, (List.range be.length).map fun i =>
    if be.getD i false then
      match r.2.find? fun x => x.1 == (addr + i) / 4 * 4 with
      | some x => x.2 / 256 ^ ((addr + i) % 4) % 256
      | none => 0
    else 0)

/-- The value of a word of which a write enables all four bytes. -/
def fullWord (addr : Nat) (be : List Bool) (data : List Nat) (w : Nat) : Option Nat :=
  let byte (j : Nat) : Option Nat := if addr ≤ w + j ∧ be.getD (w + j - addr) false then some (data.getD (w + j - addr) 0) else none
  let bs := (List.range 4).map byte
  if bs.all (·.isSome) then some (leNum (bs.filterMap id)) else none

/-- The registers of a write with byte enables: each needs all four bytes of its word (R6). -/
def serveWords (o : Orig) (addr : Nat) (be : List Bool) (data : List Nat) (s : State) : State :=
  (wordsTouched addr be).foldl (fun s w =>
    match fullWord addr be data w with
    | some v => writeWord o w v 0 s
    | none => if unassigned s o w then mapMiss w s else if writes o then partialWrite o s else s) s

/-- A write with byte enables: one access to table memory acts on exactly the bytes it selects, or is refused, as a whole (R161, R473);
registers are written word by word. -/
def serveWrite (o : Orig) (addr : Nat) (be : List Bool) (data : List Nat) (s : State) : State :=
  match enabledBytes be with
  | [] => s
  | i :: _ =>
    if (tableKind (addr + i)).isSome then
      tableStore o (addr + i) (((List.range be.length).map fun j => if be.getD j false then some (data.getD j 0) else none).drop i) s
    else serveWords o addr be data s

/-- The window of the device's own fabric ID: served locally, with the originator's rights (R29). -/
def ownWindow (s : State) (w : Nat) : Bool := decide (20 ≤ w) && ownFid s == some (w - 20)

/-- BRIDGE_ACCESS: an access of an originator to a bridge window; the window of the device's own fabric ID is served locally. -/
def doBridgeAccess (o : Orig) (addr : Nat) (write : Bool) (be : List Bool) (data : List Nat) (s : State) : State :=
  match winOf addr, o with
  | none, _ => s
  | some _, .weave _ => s
  | some w, o =>
    if !origPresent s.variant o then s
    else if ownWindow s w then
      if write then
        let a := addr - winBase w
        s |> serveWrite o a be data |> steerTime o ((wordsTouched a be).filterMap fun w => (fullWord a be data w).map fun v => (w, v))
      else
        let r := serveRead o (addr - winBase w) be s
        emit (.readData o addr (leNum r.2)) r.1
    else
      match brgCode o with
      | none =>
        if write then s
        else
          let r := freeBytes be.length s
          emit (.readData o addr (leNum r.1)) r.2
      | some code => bridgeAccess o code w addr write be data 0 s

def execBridgeAccess (x : Via) (addr : Nat) (write : Bool) (be : List Bool) (data : List Nat) (s : State) :
    Host.Outcome State Fault Refusal :=
  .next (match landing x.orig x.bar addr with
    | .device d => doBridgeAccess x.orig d write be data s
    | _ => s)

/-! ## Two-wire target transactions (R362–R366) -/

/-- Originator of a target's accesses. -/
def targetUser (t : Nat) : Orig := if t = 0 then .t0 else .t1

/-- The target responds to a 7-bit address (R362). -/
def targetMatches (s : State) (t addr7 : Nat) : Bool :=
  let f (r : RF) : Nat := cfgI s islAO r
  let keep := 127 - f (TWB_T_ADDR_MASK t)
  Nat.land addr7 keep == Nat.land (f (TWB_T_ADDR_ADDR t)) keep || (f (TWB_T_ADDR_ADDR2_EN t) == 1 && addr7 == f (TWB_T_ADDR_ADDR2 t))

/-- The target takes part in a transaction: addressed, and not parked (R368). -/
def targetTakes (s : State) (t addr7 : Nat) : Bool := targetMatches s t addr7 && !s.mnt.parked

/-- One word read by a target: sent at once, or through the bridge (R29, R364). -/
def targetReadWord (t a : Nat) (s : State) : State :=
  let o := targetUser t
  match winOf a with
  | some w =>
    if ownWindow s w then
      let r := serveRead o (a - winBase w) [true, true, true, true] s
      emit (.targetData (21 + t) (targetWord r.1 t a r.2)) r.1
    else bridgeAccess o (if t = 0 then 2 else targetOneCode) w a false [true, true, true, true] [] 0 s
  | none => let r := readWord o a [] s; emit (.targetData (21 + t) (targetWord r.1 t a (leBytes 4 r.2))) r.1

/-- The words that a target's read transaction wants, one after another: the next one is fetched only when the one before has been sent
(R363), so a word that waits for the bridge holds the rest back. The fuel is the number of words at most. -/
def targetReadWords (t : Nat) : Nat → State → State
  | 0, s => s
  | n + 1, s =>
    let x := wantedOf s t
    if x.2 = 0 ∨ (t = 0 ∧ (targetWaits s).isSome) then s
    else targetReadWords t n (targetReadWord t x.1 (setWanted t ((x.1 + 4) % 2 ^ 32, x.2 - 1) s))

/-- Target 0 goes on once the word that it has waited for has been sent. -/
def resumeTarget (s : State) : State := targetReadWords 0 (wantedOf s 0).2 s

/-- TARGET_READ: `n` words whose first byte the controller has clocked, or clocks as soon as the target releases SCL. -/
def doTargetRead (t addr7 a n : Nat) (s : State) : State :=
  if targetTakes s t addr7 then targetReadWords t n (setWanted t (a % 2 ^ 32 / 4 * 4, n) s) else s

def execTargetRead (t addr7 a n : Nat) (s : State) : Host.Outcome State Fault Refusal := .next (if t < 2 then doTargetRead t addr7 a n s else s)

/-- One word written by target 0. -/
def targetWriteWord (a v : Nat) (s : State) : State :=
  match winOf a with
  | some _ => doBridgeAccess .t0 a true [true, true, true, true] (leBytes 4 v) s
  | none => writeWord .t0 a v 0 s

/-- Whole words of a write, in order. -/
def targetWriteWords : List Nat → Nat → State → State
  | b0 :: b1 :: b2 :: b3 :: bs, a, s => targetWriteWords bs ((a + 4) % 2 ^ 32) (targetWriteWord a (leNum [b0, b1, b2, b3]) s)
  | _, _, s => s

/-- A word cut short at an address (R366): in a bridge window, a posted write fails too. The spec gives that failure no BTAG. -/
def cutShort (addr7 a : Nat) (s : State) : State :=
  let s := s |> inc (TWB_CNT2_PROTO_ERR 21) |> recordError ((twbErr 4 21 addr7).setting (TWB_EVT_PROTO_ERR 21))
  match winOf a with
  | none => s
  | some w =>
    let btag := Config.freeNat s.freeCount % 2 ^ 16
    let e : ErrInfo := { unit := uBRG, inst := w, code := 9, info := 2 * 2 ^ 28 + btag * 2 ^ 8, arg2 := a }
    { s with freeCount := s.freeCount + 1 } |> inc BRG_CNT_POSTED_FAIL |> recordError (e.setting BRG_EVT_POSTED_FAIL)

/-- TARGET_WRITE: the bytes after the 4 address bytes that the target has acknowledged, and how the transaction ends: 0 at a STOP, 1
at a START or repeated START, 2 at a repeated START in the clock of an acknowledge. The PEC covers the bytes of A as sent (R365). -/
def doTargetWrite (t addr7 a : Nat) (bytes : List Nat) (end_ : Nat) (s : State) : State :=
  let sent := leBytes 4 a
  let a := a % 2 ^ 32 / 4 * 4
  if !targetTakes s t addr7 || t ≠ 0 then s
  else if cfgI s islAO (TWB_T_CFG_PEC 0) = 1 then
    let bs := bytes.take 65
    let n := bs.length / 4
    if end_ = 0 then
      if bs.length = 4 * n + 1 ∧ 1 ≤ n ∧ pec8 ([addr7 % 128 * 2] ++ sent ++ bs.take (4 * n)) = bs.getD (4 * n) 0 then
        targetWriteWords (bs.take (4 * n)) a s
      else s |> inc (TWB_CNT2_PROTO_ERR 21) |> recordError ((twbErr 5 21 addr7).setting (TWB_EVT_PEC_ERR 21))
    else if bs.length % 4 ≠ 0 ∨ end_ = 2 then cutShort addr7 ((a + 4 * n) % 2 ^ 32) s
    else s
  else
    let n := bytes.length / 4
    let s := targetWriteWords (bytes.take (4 * n)) a s
    if bytes.length % 4 ≠ 0 ∨ end_ = 2 then cutShort addr7 ((a + 4 * n) % 2 ^ 32) s else s

def execTargetWrite (t addr7 a : Nat) (bytes : List Nat) (end_ : Nat) (s : State) : Host.Outcome State Fault Refusal :=
  .next (doTargetWrite t addr7 a bytes end_ s)

/-! ## Commands that may end the read that target 0 waits for -/

def execSensorWindowRead (p : Nat) (s : State) : Host.Outcome State Fault Refusal := .next (resumeTarget (if p < 20 then doSensorWindowRead p s else s))

def execRemoteWindowAccess (f : Nat) (s : State) : Host.Outcome State Fault Refusal := .next (resumeTarget (if f < 32 then doRemoteWindowAccess f s else s))

def execRetryReissue (tag : Nat) (s : State) : Host.Outcome State Fault Refusal := .next (resumeTarget (doRetryReissue tag s))

def execBridgeReadTimeout (tag : Nat) (s : State) : Host.Outcome State Fault Refusal := .next (resumeTarget (doBridgeReadTimeout tag s))

def execTransactionStart (i : Nat) (free : Bool) (lost : Option (Nat × Nat)) (s : State) : Host.Outcome State Fault Refusal :=
  .next (resumeTarget (if isController s i then doTransactionStart i free lost s else s))

def execBusStuckRecovery (i : Nat) (recovered : Bool) (s : State) : Host.Outcome State Fault Refusal :=
  .next (resumeTarget (if isController s i then doBusStuckRecovery i recovered s else s))

def execStretchTimeout (i : Nat) (s : State) : Host.Outcome State Fault Refusal :=
  .next (resumeTarget (if isController s i then doStretchTimeout i s else s))

def execTransactionDone (i : Nat) (ack : Bool) (data : List Nat) (s : State) : Host.Outcome State Fault Refusal :=
  .next (resumeTarget (if isController s i then doTransactionDone i ack data s else s))

def execTargetDataTimeout (t : Nat) (s : State) : Host.Outcome State Fault Refusal := .next (resumeTarget (doTargetDataTimeout t s))

/-! ## The diagnostic channel (R324) -/

/-- The words a request reads. -/
def diagWords (p : Nat) : Nat → Nat → State → State × List Nat
  | 0, _, s => (s, [])
  | n + 1, a, s =>
    let r := match winOf a with
      | some w =>
        if ownWindow s w then readWord (.diag p) (a - winBase w) [] s else (let f := freeBytes 4 s; (f.2, leNum f.1))
      | none => readWord (.diag p) a [] s
    let rest := diagWords p n ((a + 4) % 2 ^ 32) r.1
    (rest.1, r.2 :: rest.2)

/-- Requests answered in the present second (R324). -/
def diagRoom (s : State) (p : Nat) : Bool :=
  let x := ethOf s p
  decide (x.diagCount < 100) || decide (x.diagFrom + 1000000000 ≤ upNs s)

/-- An answered request is counted in its second. -/
def diagCounted (p : Nat) (s : State) : State :=
  let x := ethOf s p
  let x := if x.diagFrom + 1000000000 ≤ upNs s then { x with diagFrom := upNs s, diagCount := 1 } else { x with diagCount := x.diagCount + 1 }
  s |> setEth p x |> inc (ETH_CNT2_DIAG p)

/-- DIAG_REQUEST: from a source address, with the frame's 802.1Q tag plus one (0 none). -/
def doDiagRequest (p src tag ver op seq addr count : Nat) (s : State) : State :=
  if ethCfg s (ETH_CFG_DIAG_EN p) ≠ 1 then inc (ETH_CNT_DROP p) s
  else if !diagRoom s p then s |> inc (ETH_CNT2_DIAG_LIMIT p) |> wr (ETH_EVT_DIAG_LIMIT p) 1
  else
    let s := diagCounted p s
    let good := ver = 1 ∧ op = 1 ∧ addr % 4 = 0 ∧ 1 ≤ count ∧ count ≤ 256
    let r := if good then diagWords p count (addr % 2 ^ 32) s else (s, [])
    emit (.ethFrame p 5 (leBytes 6 src ++ leBytes 3 tag ++ [1, 0x81] ++ leBytes 2 seq ++ leBytes 4 addr ++ leBytes 2 count
      ++ leBytes 2 (if good then 0 else 1) ++ r.2.flatMap (leBytes 4))) r.1

def execDiagRequest (p src tag ver op seq addr count : Nat) (s : State) : Host.Outcome State Fault Refusal :=
  .next (if ethOn s p then doDiagRequest p src tag ver op seq addr count s else s)

end Sys2Proof.Machine
end

