-- ==== Sys2Proof/Machine/Blocks.lean ====
section
/-! DEFINITION. Weave blocks that arrive (R388–R402): the receiving side of the links, flows into REMOTE contexts and through this
device, link-state advertisements, bridge requests and answers, relay records, and the time exchange. -/

namespace Sys2Proof.Machine
open Sys2Proof

/-! ## Flows that arrive (R397–R399) -/

def inFlowOf (s : State) (p n : Nat) : Option InFlow := (wvOf s p).inFlows.find? fun f => f.flow == n

/-- The block carries the device's current generation (R398). -/
def genCurrent (s : State) (b : Block) : Bool := b.gen % 64 == generation s % 64

/-- FORMAT bit 4: the stream's lines carry seals (R218). -/
def flowSealed (f : InFlow) : Bool := hasBit f.format 4

/-- The enabled REMOTE context whose SRC_FID and SRC_STREAM are those of a stream (R124, R399). -/
def remoteCtx (s : State) (ep : Nat) (f : InFlow) : Option Nat :=
  let g (c : Nat) (r : Nat → RF) : Nat := cfgE s ep (r c)
  (enabledCtxs (bankOf s ep)).find? fun c => g c CTX_REMOTE == 1 && g c CTX_SRC_FID == f.src && g c CTX_SRC_STREAM == f.stream

/-- A REMOTE frame begins; its start refreshes the context's LIVE block (R83). Its epoch is that of the weave port's island (log
entry 56). -/
def openRemote (p c : Nat) (f : InFlow) (s : State) : State :=
  let s := liveRefresh c s
  let ep := islandEpoch s (islWV p)
  let fr : FrameSt := { newFrame s.nextFrame c 255 ep 0 0 0 0 none [] with
    incoming := some ⟨none, none, BitVec.ofNat 32 crc32cInit⟩, origin := 128 + f.src }
  let x := wvOf s p
  { s with frames := s.frames ++ [fr], nextFrame := s.nextFrame + 1 }
    |> setWv p { x with inFlows := x.inFlows ++ [{ f with frame := some fr.id, ctx := some c }] }
    |> wr (CTX_EPOCH_CUR c) ep |> wr (CTX_LINES_IN c) 0 |> wr (CTX_LINES_OUT c) 0 |> wr (CTX_FSTATE c) 0

def addInFlow (p : Nat) (f : InFlow) (s : State) : State := let x := wvOf s p; setWv p { x with inFlows := x.inFlows ++ [f] } s

/-- A flow for this device: to its REMOTE context, or discarded (R399). In the safe state and on the way to park mode no frame begins. -/
def acceptFlow (p : Nat) (f : InFlow) (s : State) : State :=
  if isSafe s || s.mnt.parking then addInFlow p f s
  else
    match remoteCtx s (islandEpoch s (islWV p)) f with
    | some c => openRemote p c f s
    | none => s |> addInFlow p f |> inc FAB_CNT_NO_DEST

/-- The stream is one that this device forwards (R145). -/
def notePassing (f : InFlow) (s : State) : State :=
  let others := s.fab.passing.filter fun x => !(x.src == f.src && x.stream == f.stream)
  { s with fab := { s.fab with passing := others ++ [⟨f.src, f.stream, f.outLines * f.lineBytes + 128⟩] } }

/-- No flow number is free on the next link: ABORT, cause 2, goes downstream (R397). The number that it carries is a free value,
since none is the stream's (log entry 58). -/
def refuseFlow (q cls : Nat) (s : State) : State :=
  { s with freeCount := s.freeCount + 1 } |> sendBlock q 4 cls (Config.freeWord s.freeCount % 256) [2]

/-- A flow for another device: onto a flow of the next link (R397). -/
def forwardFlow (p dst : Nat) (b : Block) (f : InFlow) (s : State) : State :=
  match (if f.cls = 0 then none else portTowards s 1 dst) with
  | none => addInFlow p f s
  | some q =>
    match freeFlow s q with
    | none => s |> addInFlow p f |> refuseFlow q f.cls
    | some n =>
      { s with outFlows := s.outFlows ++ [⟨q, n, f.cls, dst, none, [], 0, 0⟩] }
        |> notePassing f |> addInFlow p { f with forward := some (q, n) } |> sendBlock q 2 f.cls n (b.payload.take 64)

/-- An OPEN block. -/
def takeOpen (p : Nat) (b : Block) (s : State) : State :=
  match ownFid s with
  | none => s
  | some own =>
    if b.cls = 1 ∧ genCurrent s b = false then inc (WVE_CNT2_GEN_DISC p) s
    else
      let s := match inFlowOf s p b.flow with | some old => abortInFlow p 4 s old | none => s
      let pl := b.payload
      let dst := pl.getD 0 0 % 32
      let f : InFlow := { flow := b.flow, cls := b.cls, src := pl.getD 1 0 % 32, stream := leAt pl 2 2 % 2048, lineBytes := leAt pl 4 4
                          outLines := leAt pl 8 2, format := pl.getD 0xC 0, forward := none, frame := none, ctx := none, rest := [], got := 0 }
      if dst = own then acceptFlow p f s else forwardFlow p dst b f s

/-- A line comes into a REMOTE frame; its start refreshes the LIVE block (R83). -/
def addRemoteLine (id : Nat) (px : List Nat) (flags : Nat) (stream : List Nat) (s : State) : State :=
  match frameById s id with
  | none => s
  | some f =>
    let s := liveRefresh f.ctx s
    let l : Line := { k := f.linesIn, e := 0, exp := 0, px, flags, live := liveOf s f.ctx, at_ := upNs s, supplied := false }
    let i := f.incoming.map fun i => { i with crc := BitVec.ofNat 32 (crc32cRun i.crc.toNat stream) }
    s |> putFrame { f with arriving := f.arriving ++ [l], linesIn := f.linesIn + 1, incoming := i } |> wr (CTX_LINES_IN f.ctx) (f.linesIn + 1)

/-- All-zero lines marked FILLED in place of lines that the sender has lost, up to line `upTo`. -/
def fillRemote (id width upTo : Nat) (s : State) : State :=
  match frameById s id with
  | none => s
  | some f => each (List.range (upTo - f.linesIn)) (fun _ s => addRemoteLine id (List.replicate width 0) 1 [] s) s

/-- One line of the stream with its seal (R222, R226). -/
def remoteLine (f : InFlow) (id c : Nat) (bytes : List Nat) (s : State) : State :=
  if flowSealed f then
    let px := bytes.take (f.lineBytes - 8)
    let seal_ := bytes.drop (f.lineBytes - 8)
    let check := match frameById s id with | some fr => cfgE s fr.epoch (CTX_IN_CHECK c) == 1 | none => false
    let bad := check && leAt seal_ 4 4 != crc32c px
    s |> fillRemote id (f.lineBytes - 8) (min (leAt seal_ 0 2) (f.outLines - 1))
      |> addRemoteLine id px (seal_.getD 2 0 % 16 + 16 * bit bad) bytes
  else addRemoteLine id bytes 0 bytes s

/-- Whole lines at the front of a flow's bytes go to its frame while more than `keep` bytes stand behind them; one round to a line. -/
def takeLines (p id c keep : Nat) : Nat → InFlow → State → InFlow × State
  | 0, f, s => (f, s)
  | n + 1, f, s =>
    let room := match frameById s id with | some fr => decide (fr.linesIn < f.outLines) | none => false
    if 0 < f.lineBytes ∧ f.lineBytes + keep ≤ f.rest.length ∧ room = true then
      takeLines p id c keep n { f with rest := f.rest.drop f.lineBytes, got := f.got + f.lineBytes } (remoteLine f id c (f.rest.take f.lineBytes) s)
    else (f, s)

/-- A class F block of another generation is discarded and counted; its flow, if it is still open, is aborted and freed (R398). -/
def staleFlow (p : Nat) (b : Block) (s : State) : State :=
  let s := inc (WVE_CNT2_GEN_DISC p) s
  match inFlowOf s p b.flow with
  | none => s
  | some f => abortInFlow p 1 s f

/-- Act on the flow of a block, unless its generation is stale. -/
def onFlow (p : Nat) (b : Block) (act : InFlow → State → State) (s : State) : State :=
  if b.cls = 1 ∧ genCurrent s b = false then staleFlow p b s
  else
    match inFlowOf s p b.flow with
    | none => s
    | some f => act f s

/-- A DATA block. Trailer, tag and padding, at most 191 bytes, cannot be told from a line before END has come. -/
def takeData (p : Nat) (b : Block) (s : State) : State :=
  onFlow p b (fun f s =>
    match f.forward, f.frame, f.ctx with
    | some (q, n), _, _ => sendBlock q 1 f.cls n (padTo 64 (b.payload.take 64)) s
    | none, some id, some c =>
      let r := takeLines p id c 191 (64 / (f.lineBytes + 1) + 2) { f with rest := f.rest ++ padTo 64 (b.payload.take 64) } s
      putInFlow p r.1 r.2
    | _, _, _ => s) s

/-- Trailer and tag stand whole at the end of the stream: the bytes received are those that END announces, and 128 are left behind the
lines (R217, R397). -/
def tailWhole (f : InFlow) (total blocks left : Nat) : Bool :=
  let all := f.got + f.rest.length
  all == 64 * blocks && decide (total ≤ all) && decide (all < total + 64) && left == 128

/-- The end of a REMOTE frame's stream: what is left are its last lines, the trailer and the tag. Lines of the context's frame that did
not come are FILLED; a stream whose end is not whole has no trailer and no tag (R226; log entry 92). -/
def endRemote (p id c total blocks : Nat) (f : InFlow) (s : State) : State :=
  let r := takeLines p id c 128 (f.outLines + 1) { f with rest := f.rest.take (total - f.got) } s
  let s := dropInFlow p f.flow r.2
  let whole := tailWhole f total blocks r.1.rest.length
  match frameById s id with
  | none => s
  | some fr =>
    let s := fillRemote id (f.lineBytes - 8 * bit (flowSealed f)) (max f.outLines (cfgE s fr.epoch (CTX_CROP_H c))) s
    match frameById s id with
    | none => s
    | some fr =>
      let i := fr.incoming.map fun i =>
        if whole then { i with trailer := some (r.1.rest.take 64), tag := some (r.1.rest.drop 64) } else i
      putFrame { fr with isOpen := false, incoming := i } s

/-- An END block. -/
def takeEnd (p : Nat) (b : Block) (s : State) : State :=
  onFlow p b (fun f s =>
    match f.forward, f.frame, f.ctx with
    | some (q, n), _, _ => s |> sendBlock q 3 f.cls n (b.payload.take 64) |> dropFlow q n |> dropInFlow p f.flow
    | none, some id, some c => endRemote p id c (leAt b.payload 0 4) (leAt b.payload 4 4) f s
    | _, _, _ => dropInFlow p f.flow s) s

/-- An ABORT block ends the flow that it names; it goes on downstream (R398, R399). -/
def takeAbort (p : Nat) (b : Block) (s : State) : State :=
  onFlow p b (fun f s => abortInFlow p (b.payload.getD 0 0) s f) s

/-! ## Link-state advertisements (R393) -/

/-- The LSA is newer than the stored one. -/
def lsaNewer (s : State) (l : Lsa) : Bool :=
  match lsaOf s l.uid with
  | none => true
  | some o => let d := (l.seq + 2 ^ 32 - o.seq) % 2 ^ 32; decide (1 ≤ d) && decide (d < 2 ^ 31)

/-- An LSA block: stored if newer, forwarded, and its generation adopted. -/
def takeLsa (p : Nat) (b : Block) (s : State) : State :=
  let l := parseLsa b.payload
  if l.uid = s.chip.uid ∨ lsaNewer s l = false then s
  else
    let s := { s with fab := { s.fab with lsas := (s.fab.lsas.filter fun m => m.uid != l.uid) ++ [l] } }
    let s := each ((activePorts s).filter (· != p)) (fun q s => sendBlock q 7 3 0 (b.payload.take 64) s) s
    s |> adoptGeneration l.gen |> refreshFabric

/-! ## Bridge requests and answers (R379, R400, R401) -/

/-- A routed block of the current generation: for this device, or passed on. -/
def routed (p : Nat) (b : Block) (act : State → State) (s : State) : State :=
  match ownFid s with
  | none => s
  | some own =>
    if genCurrent s b = false then inc (WVE_CNT2_GEN_DISC p) s
    else
      let dst := b.payload.getD 0 0 % 32
      if dst = own then act s
      else match portTowards s 1 dst with
        | none => s
        | some q => sendBlock q b.type 3 0 (b.payload.take 64) s

/-- An outstanding request of this device to the requester that it issued earlier (R379). -/
def askedFirst (s : State) (src issued : Nat) : Bool :=
  s.brg.accs.any fun x =>
    let d := (issued + 2 ^ 32 - x.at_ % 2 ^ 32) % 2 ^ 32
    x.w == 20 + src && x.started && x.fetch.isSome
      && ((decide (1 ≤ d) && decide (d < 2 ^ 31)) || (d == 0 && (match ownFid s with | some f => decide (f < src) | none => false)))

/-- First enabled byte of a block, and the enables from there to the last one. -/
def enabledSpan (en : Nat) : Nat × List Bool :=
  let on := (List.range 64).filter (hasBit en)
  let lo := on.headD 0
  (lo, if on.isEmpty then [] else (List.range (on.getLastD 0 + 1 - lo)).map fun i => hasBit en (lo + i))

/-- A read of another device: one answer for each half with enabled bytes. -/
def serveReq (src tag addr : Nat) (be : List Bool) (s : State) : State :=
  match winOf addr with
  | some w => bridgeAccess (.weave src) 3 w addr false be [] tag s
  | none =>
    let r := serveRead (.weave src) addr be s
    sendHalves src tag addr (halvesOf addr be) (padTo 64 (List.replicate (addr % 64) 0 ++ r.2)) r.1

/-- A write of another device whose halves have all come. -/
def applyWrite (src tag addr : Nat) (be : List Bool) (data : List Nat) (s : State) : State :=
  match winOf addr with
  | some w => bridgeAccess (.weave src) 3 w addr true be data tag s
  | none => s |> serveWrite (.weave src) addr be data |> sendRsp src tag (addr / 64 * 64) 0 2 []

/-- A half of a write: the write is applied when every half announced has come. -/
def takeHalf (src tag block en op halves : Nat) (data : List Nat) (s : State) : State :=
  let same (h : HalfWrite) : Bool := h.src == src && h.tag == tag && h.addr == block
  let h := (s.brg.halves.find? same).getD ⟨src, tag, block, halves % 4, en, none, none⟩
  let h := if op = 2 then { h with lower := some data } else { h with upper := some data }
  let rest := s.brg.halves.filter fun x => !same x
  let done := (!hasBit h.halves 0 || h.lower.isSome) && (!hasBit h.halves 1 || h.upper.isSome)
  if done then
    let sp := enabledSpan h.be
    let bytes := padTo 32 (h.lower.getD []) ++ padTo 32 (h.upper.getD [])
    applyWrite src tag (block + sp.1) sp.2 (bytes.drop sp.1) { s with brg := { s.brg with halves := rest } }
  else { s with brg := { s.brg with halves := rest ++ [h] } }

/-- A BRG_REQ block for this device. The requester's issue time stands behind the 64 bytes of the block (log entry 59). -/
def takeReq (b : Block) (s : State) : State :=
  let pl := b.payload
  let src := pl.getD 1 0 % 32
  let tag := leAt pl 2 2
  let block := leAt pl 4 4 / 64 * 64
  let op := pl.getD 8 0
  let en := leAt pl 0xC 8
  if !inCompat s && askedFirst s src (leAt pl 64 4) then s |> inc BRG_RETRY_CNT_SENT |> sendRsp src tag block 1 2 []
  else if op = 1 then let sp := enabledSpan en; serveReq src tag (block + sp.1) sp.2 s
  else if op = 2 ∨ op = 3 then takeHalf src tag block en op (pl.getD 9 0) (slice pl 0x20 32) s
  else s

/-- A BRG_RSP block for this device. -/
def takeRsp (b : Block) (s : State) : State :=
  let pl := b.payload
  bridgeRsp (pl.getD 1 0 % 32) (leAt pl 2 2) (pl.getD 8 0) (pl.getD 9 0) (slice pl 0x20 32) s

/-! ## Receiving (R389, R390, R392) -/

/-- A sequenced block in its turn. -/
def deliverBlock (p : Nat) (b : Block) (s : State) : State :=
  match b.type with
  | 1 => takeData p b s
  | 2 => takeOpen p b s
  | 3 => takeEnd p b s
  | 4 => takeAbort p b s
  | 7 => takeLsa p b s
  | 8 => routed p b (takeReq b) s
  | 9 => resumeTarget (routed p b (takeRsp b) s)
  | 10 => if p = relayPort s then deliverRelay b.payload s else s
  | _ => s

/-- Held blocks that are now due; one round to a block. -/
def deliverHeld (p : Nat) : Nat → State → State
  | 0, s => s
  | n + 1, s =>
    let x := wvOf s p
    match x.held.find? fun b => b.seq == x.cum with
    | none => s
    | some b =>
      deliverHeld p n (deliverBlock p b (setWv p { x with cum := (x.cum + 1) % 4096, held := x.held.filter fun c => c.seq != b.seq } s))

def noteHeld (p : Nat) (s : State) : State := wr (WVE_RETRY_LVL_RX_HELD p) (wvOf s p).held.length s

/-- An ACK is due after 32 newly accepted blocks. -/
def ackIfDue (p : Nat) (s : State) : State := if 32 ≤ (wvOf s p).fresh then sendAck p s else s

/-- A sequenced block arrives at a port. -/
def receiveBlock (p : Nat) (b : Block) (s : State) : State :=
  let x := wvOf s p
  if !wvHere s p || !wvUp s p || x.rejected then s
  else
    let d := (b.seq % 4096 + 4096 - x.cum) % 4096
    if 512 ≤ d ∨ x.held.any (fun c => c.seq == b.seq % 4096) then sendAck p s
    else
      let s := setWv p { x with fresh := x.fresh + 1, held := x.held ++ [{ b with seq := b.seq % 4096 }] } s
      if d = 0 then s |> deliverHeld p 512 |> noteHeld p |> ackIfDue p
      else s |> noteHeld p |> sendAck p

def execDataBlock (p seq gen cls flow : Nat) (payload : List Nat) (s : State) : Host.Outcome State Fault Refusal :=
  .next (receiveBlock p ⟨seq, 1, cls % 4, gen, flow, payload⟩ s)

def execOpenBlock (p seq gen cls flow : Nat) (payload : List Nat) (s : State) : Host.Outcome State Fault Refusal :=
  .next (receiveBlock p ⟨seq, 2, cls % 2, gen, flow, payload⟩ s)

def execEndBlock (p seq gen cls flow total blocks : Nat) (s : State) : Host.Outcome State Fault Refusal :=
  .next (receiveBlock p ⟨seq, 3, cls % 4, gen, flow, leBytes 4 total ++ leBytes 4 blocks⟩ s)

def execAbortBlock (p seq gen cls flow cause : Nat) (s : State) : Host.Outcome State Fault Refusal :=
  .next (receiveBlock p ⟨seq, 4, cls % 4, gen, flow, [cause]⟩ s)

def execLsaBlock (p seq gen : Nat) (payload : List Nat) (s : State) : Host.Outcome State Fault Refusal :=
  .next (receiveBlock p ⟨seq, 7, 3, gen, 0, payload⟩ s)

/-- BRG_REQ: `issued` is the TSU_TIME_NS at which the requester issued the access. -/
def execBrgReq (p seq gen : Nat) (payload : List Nat) (issued : Nat) (s : State) : Host.Outcome State Fault Refusal :=
  .next (receiveBlock p ⟨seq, 8, 3, gen, 0, padTo 64 (payload.take 64) ++ leBytes 4 issued⟩ s)

def execBrgRsp (p seq gen : Nat) (payload : List Nat) (s : State) : Host.Outcome State Fault Refusal :=
  .next (receiveBlock p ⟨seq, 9, 3, gen, 0, payload⟩ s)

/-! ## Relay records (R407–R414) -/

/-- A RELAY block of one kind. -/
def relayBlock (p seq kind : Nat) (body : List Nat) (s : State) : State := receiveBlock p ⟨seq, 0xA, 2, 0, 0, kind :: body⟩ s

/-- HEARTBEAT: the record from offset 1 on. -/
def execHeartbeat (p seq : Nat) (body : List Nat) (s : State) : Host.Outcome State Fault Refusal := .next (relayBlock p seq 1 body s)

def execDeliver (p seq : Nat) (body : List Nat) (s : State) : Host.Outcome State Fault Refusal := .next (relayBlock p seq 2 body s)

def execRelayProfile (p seq : Nat) (body : List Nat) (s : State) : Host.Outcome State Fault Refusal := .next (relayBlock p seq 3 body s)

def execBatonOffer (p seq batonGen : Nat) (s : State) : Host.Outcome State Fault Refusal := .next (relayBlock p seq 4 (1 :: leBytes 2 batonGen) s)

def execBatonCommit (p seq batonGen : Nat) (s : State) : Host.Outcome State Fault Refusal := .next (relayBlock p seq 4 (2 :: leBytes 2 batonGen) s)

/-! ## Time over the weave (R402) -/

/-- Synchronised time, 64 bits. -/
def syncTime (s : State) : Nat := (((s.now : Int) + s.time.base) % 2 ^ 64).toNat

/-- TIME_EXCHANGE: a TIME block goes out. It carries the sender's time, the time in the peer's last block and that block's arrival, and
the grandmaster's identity (the layout is the model's, log entry 57). -/
def doTimeExchange (p : Nat) (s : State) : State :=
  if wvHere s p && wvActive s p then
    let x := wvOf s p
    s |> setWv p { x with timeSent := syncTime s }
      |> sendLocal p 0xB (leBytes 8 (syncTime s) ++ leBytes 8 x.timePeer ++ leBytes 8 x.timeGot ++ padTo 8 s.time.gmId)
  else s

def execTimeExchange (p : Nat) (s : State) : Host.Outcome State Fault Refusal := .next (doTimeExchange p s)

/-- The time root: the lowest ID among the candidates that LSAs show, else the given one. -/
def timeRoot (s : State) (free : Option Nat) : Option Nat :=
  match (List.range 32).find? fun f => s.fab.lsas.any fun l => l.root && l.fid == some f with
  | some f => some f
  | none => free

/-- The port leads to the next hop towards the time root. -/
def towardsRoot (s : State) (p : Nat) (free : Option Nat) : Bool :=
  match timeRoot s free with
  | some f => isSet s (FAB_ROUTE_VALID f) && rd s (FAB_ROUTE_PORT f) == p
  | none => false

/-- TIME_BLOCK: the peer's time, and what it says of this device's last block. `free` is the lowest ID among the members with SOURCE 0,
which no block shows. -/
def doTimeBlock (p sent echo echoAt : Nat) (gm : List Nat) (free : Option Nat) (s : State) : State :=
  if wvHere s p && wvActive s p then
    let x := wvOf s p
    let at_ := syncTime s
    let s := setWv p { x with timePeer := sent % 2 ^ 64, timeGot := at_ } s
    if timeCfg s TSU_CFG_SOURCE = 2 ∧ towardsRoot s p free ∧ x.timeSent ≠ 0 ∧ echo = x.timeSent then
      let off := rndDiv (((echoAt : Int) - x.timeSent) - ((at_ : Int) - sent)) 2
      let diff := s.time.base + off
      { s with time := { s.time with measured := some (sgn 32 (unsgn 32 (-diff)), diff, now64 s), gmId := padTo 8 gm } }
    else s
  else s

def execTimeBlock (p sent echo echoAt : Nat) (gm : List Nat) (free : Option Nat) (s : State) : Host.Outcome State Fault Refusal :=
  .next (doTimeBlock p sent echo echoAt gm free s)

end Sys2Proof.Machine
end

