-- ==== Sys2Proof/Machine/Adopt.lean ====
section
/-! DEFINITION. A new epoch arrives at an island (R78, R79), and what each unit of the island does with it. -/

namespace Sys2Proof.Machine
open Sys2Proof

/-- A field differs between two banks. -/
def fieldDiffers (s : State) (a b : Sparse Word) (r : RF) : Bool := bankFld s.chip a r != bankFld s.chip b r

/-! ## ISL_TIME (R311, R320) -/

/-- The source in use is the one configured; with SOURCE 0 the time unit is FREE, and TSU_RATE stands. -/
def freeTime (s : State) : State :=
  let s := wr TSU_STATE_SOURCE (timeCfg s TSU_CFG_SOURCE) s
  if timeCfg s TSU_CFG_SOURCE = 0 then
    let s := enterSync 0 s
    { s with time := { s.time with measured := none, lastDiff := none, masterRate := none } }
  else s

/-- A disabled generator fires no more. -/
def disarmGenerators (s : State) : State :=
  { s with time := { s.time with armed := (List.range 32).foldl (fun m g => putBit m g (hasBit m g && trgEnabled s g)) s.time.armed } }

/-! ## ISL_POS (R333, R335, R339, R344, R348, R350) -/

/-- A channel with a new TYPE begins anew: count 0, VALID unless TYPE is 0. -/
def retypeChannel (n : Nat) (s : State) : State :=
  let v := bit (chType s n != 0)
  let x := chSt s n
  let lines := if chType s n = 1 then x.lines % 4 else x.lines
  let s := s |> wr (POS_CH_CNT_COUNT n) 0 |> wr (POS_CH_STAT_VALID n) v |> wr (POS_CH_STAT_REF n) (v * refAtValid s n)
    |> wr (POS_CH_STAT_DIR_KNOWN n) 0 |> wr (POS_CH_STAT_REVERSE n) 0
  let steps := ⟨s.now, s.now, 0, 0, 0, chType s n == 4⟩ :: x.steps
  s |> setCh n { emptyCh with lines, valids := x.valids, steps, upd := x.upd, stepUp := upNs s } |> noteValid n s.now |> restObserver n

/-- Z_EN of a quadrature channel has changed (R334): with it, REF waits for an index edge; without it, REF follows VALID. -/
def reindexChannel (n : Nat) (s : State) : State :=
  if chType s n = 1 then s |> wr (POS_CH_STAT_REF n) (bit (chValid s n) * refAtValid s n) |> noteValid n s.now else s

/-- An emulator starts at its enable: its own count 0, and the channel's count recorded. -/
def startEmu (e : Nat) (s : State) : State :=
  s |> setEmu e ⟨true, chCount s (posCfg s (EMU_CFG_CH e)), 0, 0, false⟩ |> wr (EMU_STAT_OUT e) 0 |> driveEmu e 0

/-- Follow EN of an emulator. -/
def applyEmu (s : State) (e : Nat) : State :=
  let x := emuOf s e
  let en := posCfg s (EMU_CFG_EN e) == 1
  if en = x.on then (if en && !emuHeld s e then driveEmu e x.o s else s)
  else if en then startEmu e s else setEmu e { x with on := false } s

/-- A channel whose MODE or polarity changes begins inactive. -/
def applyPwm (old : Sparse Word) (s : State) (k : Nat) : State :=
  let new := bankOf s (islandEpoch s islPOS)
  if fieldDiffers s old new (PWM_CH_CFG_MODE k) || fieldDiffers s old new (PWM_CH_CFG_POL k) then s |> setPwm k ⟨[], none⟩ |> drivePwm k false
  else s

/-- A change of a port's power limits releases a latched supervisor. -/
def applyPower (old : Sparse Word) (s : State) (p : Nat) : State :=
  let new := bankOf s (islandEpoch s islPOS)
  let changed := [0, 4, 8, 12].any fun o =>
    bankWord s.chip old ((PWR_P_LIM_ALL p).addr + o) != bankWord s.chip new ((PWR_P_LIM_ALL p).addr + o)
  if hasSupervisor s p && changed then unlatch p s else s

/-- Retype the channels whose TYPE differs, and follow a Z_EN that alone differs. -/
def retypeAll (old : Sparse Word) (s : State) : State :=
  let new := bankOf s (islandEpoch s islPOS)
  (List.range 4).foldl (fun s n =>
    if fieldDiffers s old new (POS_CH_CFG_TYPE n) then retypeChannel n s
    else if fieldDiffers s old new (POS_CH_CFG_Z_EN n) then reindexChannel n s else s) s

def applyMotion (old : Sparse Word) (s : State) : State :=
  let s := if posPresent s.variant then finishMids ([0, 1].foldl applyEmu (retypeAll old s)) else s
  let s := (List.range 16).foldl (applyPower old) s
  (List.range 8).foldl (applyPwm old) s

/-! ## The islands of ports, links and the bridge -/

/-- A camera port takes its configuration at once if no frame is open, and ENABLE 0 in any case (R110, R120). -/
def adoptPort (p : Nat) (s : State) : State :=
  let b := bankOf s (islandEpoch s (islCP p))
  let stops := eff s (CPT_CFG_ENABLE p) == 1 && bankFld s.chip b (CPT_CFG_ENABLE p) == 0
  if stops || (openFrames s p).isEmpty then applyPort p s else s

/-- A changed window record discards the prefetch buffers (R381). -/
def adoptWindows (old : Sparse Word) (s : State) : State :=
  let new := bankOf s (islandEpoch s islCORE)
  if bankRange old 0xC01000 0xC01400 != bankRange new 0xC01000 0xC01400 then each [0, 1, 2, 3] discardPf s else s

/-- What the units of an island do with the bank that replaces `old`. The queues (R283) and the transmit ports (R231) wait
for a quiet point of their own. -/
def adoptBank (i : Nat) (old : Sparse Word) (s : State) : State :=
  if i = islAO then notifyAll s
  else if i = islTIME then s |> freeTime |> disarmGenerators |> sendLsaIfChanged
  else if 2 ≤ i ∧ i < 22 then adoptPort (i - 2) s
  else if i = islCORE then adoptWindows old s
  else if 32 ≤ i ∧ i < 36 then
    applyWeave (i - 32) (bankWord s.chip old (WVE_LANE_MAP_ALL (i - 32)).addr != bankWord s.chip (bankOf s (islandEpoch s i)) (WVE_LANE_MAP_ALL (i - 32)).addr) s
  else if i = islPOS then applyMotion old s
  else if i = islSVC then s |> chooseFid |> sendLsaIfChanged |> freshDigest
  else s

/-- EPOCH_REACHES_ISLAND: the island holds the newest epoch from now on. -/
def doEpochReachesIsland (i : Nat) (s : State) : State :=
  if i < 40 ∧ islPresent s.variant i ∧ islandEpoch s i ≠ epochActive s then
    let old := bankOf s (islandEpoch s i)
    let s := { s with islEpoch := sset (fun _ => 0) s.islEpoch i (epochActive s) }
    checkSwap (kickSlices (adoptBank i old s))
  else s

def execEpochReachesIsland (i : Nat) (s : State) : Host.Outcome State Fault Refusal := .next (doEpochReachesIsland i s)

end Sys2Proof.Machine
end

