-- ==== Sys2Proof/Machine/Dispatch.lean ====
section
/-! DEFINITION. Which meaning each command has: one arm per constructor of Instr. -/

namespace Sys2Proof.Machine
open Sys2Proof

def exec (i : Instr) (s : State) : Host.Outcome State Fault Refusal :=
  match i with
  | .resetRelease maintHigh taddr => Sys2Proof.Machine.execResetRelease maintHigh taddr s
  | .resetNAssert vddLow => Sys2Proof.Machine.execResetNAssert vddLow s
  | .crystalStable => Sys2Proof.Machine.execCrystalStable s
  | .imageHeaderRead => Sys2Proof.Machine.execImageHeaderRead s
  | .imageVerified => Sys2Proof.Machine.execImageVerified s
  | .recordsCheck => Sys2Proof.Machine.execRecordsCheck s
  | .crossFieldChecks => Sys2Proof.Machine.execCrossFieldChecks s
  | .lpddrTrained => Sys2Proof.Machine.execLpddrTrained s
  | .cfgBastingWrite w a v => Sys2Proof.Machine.execCfgBastingWrite w a v s
  | .registerWrite via a v bytes hw => Sys2Proof.Machine.execRegisterWrite via a v bytes hw s
  | .rcRead via a bytes hw => Sys2Proof.Machine.execRcRead via a bytes hw s
  | .unassignedAccess o bar a write => Sys2Proof.Machine.execUnassignedAccess o bar a write s
  | .ldrViewWrite o v => Sys2Proof.Machine.execLdrViewWrite o v s
  | .swapRequest w => Sys2Proof.Machine.execSwapRequest w s
  | .discard w => Sys2Proof.Machine.execDiscard w s
  | .ownerTimeout => Sys2Proof.Machine.execOwnerTimeout s
  | .bastingGrant => Sys2Proof.Machine.execBastingGrant s
  | .epochReachesIsland n => Sys2Proof.Machine.execEpochReachesIsland n s
  | .swapTimeout => Sys2Proof.Machine.execSwapTimeout s
  | .liveWrite o a v => Sys2Proof.Machine.execLiveWrite o a v s
  | .modeSample v => Sys2Proof.Machine.execModeSample v s
  | .profileSelectionStart => Sys2Proof.Machine.execProfileSelectionStart s
  | .profileEvaluation => Sys2Proof.Machine.execProfileEvaluation s
  | .pllLossOfLock n => Sys2Proof.Machine.execPllLossOfLock n s
  | .crossingTimeout src dst pair lost => Sys2Proof.Machine.execCrossingTimeout src dst pair lost s
  | .lockstepMismatch pair => Sys2Proof.Machine.execLockstepMismatch pair s
  | .reservePairTakeover => Sys2Proof.Machine.execReservePairTakeover s
  | .checkpointWrite => Sys2Proof.Machine.execCheckpointWrite s
  | .frameStartPacket p vc fn f => Sys2Proof.Machine.execFrameStartPacket p vc fn f s
  | .frameEndPacket p vc f => Sys2Proof.Machine.execFrameEndPacket p vc f s
  | .longPacket p vc dt payload f => Sys2Proof.Machine.execLongPacket p vc dt payload f s
  | .frameTimeout p c => Sys2Proof.Machine.execFrameTimeout p c s
  | .lockLost p => Sys2Proof.Machine.execLockLost p s
  | .linkLoss p => Sys2Proof.Machine.execLinkLoss p s
  | .linkLock p => Sys2Proof.Machine.execLinkLock p s
  | .portConfigApply p => Sys2Proof.Machine.execPortConfigApply p s
  | .scriptEnd p => Sys2Proof.Machine.execScriptEnd p s
  | .scriptWr16 p => Sys2Proof.Machine.execScriptWr16 p s
  | .scriptWr8 p => Sys2Proof.Machine.execScriptWr8 p s
  | .scriptRdcmp p => Sys2Proof.Machine.execScriptRdcmp p s
  | .scriptDelay p => Sys2Proof.Machine.execScriptDelay p s
  | .delayExpired p => Sys2Proof.Machine.execDelayExpired p s
  | .scriptGpio p => Sys2Proof.Machine.execScriptGpio p s
  | .scriptPoc p => Sys2Proof.Machine.execScriptPoc p s
  | .scriptWaitlock p => Sys2Proof.Machine.execScriptWaitlock p s
  | .waitlockTimeout p => Sys2Proof.Machine.execWaitlockTimeout p s
  | .scriptJump p => Sys2Proof.Machine.execScriptJump p s
  | .scriptLoop p => Sys2Proof.Machine.execScriptLoop p s
  | .scriptEvent p => Sys2Proof.Machine.execScriptEvent p s
  | .scriptStream p => Sys2Proof.Machine.execScriptStream p s
  | .instructionLimit p => Sys2Proof.Machine.execInstructionLimit p s
  | .backoffExpired p => Sys2Proof.Machine.execBackoffExpired p s
  | .faultTimeout p => Sys2Proof.Machine.execFaultTimeout p s
  | .powerCycleDone p => Sys2Proof.Machine.execPowerCycleDone p s
  | .supervisionRun p => Sys2Proof.Machine.execSupervisionRun p s
  | .triggerAssertSend p => Sys2Proof.Machine.execTriggerAssertSend p s
  | .triggerReleaseSend p => Sys2Proof.Machine.execTriggerReleaseSend p s
  | .triggerWindowExpire p => Sys2Proof.Machine.execTriggerWindowExpire p s
  | .echoBurstStart p => Sys2Proof.Machine.execEchoBurstStart p s
  | .echoReturn p rtt => Sys2Proof.Machine.execEchoReturn p rtt s
  | .echoTimeout p => Sys2Proof.Machine.execEchoTimeout p s
  | .latencyBurstEnd p => Sys2Proof.Machine.execLatencyBurstEnd p s
  | .frameAdmission c => Sys2Proof.Machine.execFrameAdmission c s
  | .lineComplete c => Sys2Proof.Machine.execLineComplete c s
  | .heatDone l bad => Sys2Proof.Machine.execHeatDone l bad s
  | .holdFreeze c => Sys2Proof.Machine.execHoldFreeze c s
  | .holdRelease c => Sys2Proof.Machine.execHoldRelease c s
  | .tableMemoryWrite o a bytes => Sys2Proof.Machine.execTableMemoryWrite o a bytes s
  | .selfTestInGap l result => Sys2Proof.Machine.execSelfTestInGap l result s
  | .reserveSelfTest pass => Sys2Proof.Machine.execReserveSelfTest pass s
  | .selfTestStarved => Sys2Proof.Machine.execSelfTestStarved s
  | .spareTest kind inst pass => Sys2Proof.Machine.execSpareTest kind inst pass s
  | .seamLine c bad => Sys2Proof.Machine.execSeamLine c bad s
  | .compositeWaitExpire o => Sys2Proof.Machine.execCompositeWaitExpire o s
  | .seamFrameEnd c bad => Sys2Proof.Machine.execSeamFrameEnd c bad s
  | .csi2TxConfigApply p => Sys2Proof.Machine.execCsi2TxConfigApply p s
  | .hostLinkTrained p rate width flit => Sys2Proof.Machine.execHostLinkTrained p rate width flit s
  | .flr p => Sys2Proof.Machine.execFlr p s
  | .hotReset p => Sys2Proof.Machine.execHotReset p s
  | .d3hotEntry p => Sys2Proof.Machine.execD3hotEntry p s
  | .d3hotExit p => Sys2Proof.Machine.execD3hotExit p s
  | .linkDown p => Sys2Proof.Machine.execLinkDown p s
  | .busMasterDisable p => Sys2Proof.Machine.execBusMasterDisable p s
  | .vectorUnmask p v => Sys2Proof.Machine.execVectorUnmask p v s
  | .bufferTake c => Sys2Proof.Machine.execBufferTake c s
  | .ringReadComplete c list length cookie => Sys2Proof.Machine.execRingReadComplete c list length cookie s
  | .listReadComplete c es => Sys2Proof.Machine.execListReadComplete c es s
  | .egressBurst p => Sys2Proof.Machine.execEgressBurst p s
  | .flushReadComplete c => Sys2Proof.Machine.execFlushReadComplete c s
  | .completionTimeout c dir cause => Sys2Proof.Machine.execCompletionTimeout c dir cause s
  | .arm c seq => Sys2Proof.Machine.execArm c seq s
  | .disarm c => Sys2Proof.Machine.execDisarm c s
  | .piWrite c v => Sys2Proof.Machine.execPiWrite c v s
  | .cplCiWrite c v => Sys2Proof.Machine.execCplCiWrite c v s
  | .start c => Sys2Proof.Machine.execStart c s
  | .stop c => Sys2Proof.Machine.execStop c s
  | .abort c => Sys2Proof.Machine.execAbort c s
  | .replay p v => Sys2Proof.Machine.execReplay p v s
  | .packetOpen q producer bad => Sys2Proof.Machine.execPacketOpen q producer bad s
  | .packetWord q producer w bad => Sys2Proof.Machine.execPacketWord q producer w bad s
  | .packetCommit q producer bad => Sys2Proof.Machine.execPacketCommit q producer bad s
  | .packetRewind q producer => Sys2Proof.Machine.execPacketRewind q producer s
  | .spillMove q blocks toHead bad => Sys2Proof.Machine.execSpillMove q blocks toHead bad s
  | .queueConfigApply q => Sys2Proof.Machine.execQueueConfigApply q s
  | .headerRead o r bad => Sys2Proof.Machine.execHeaderRead o r bad s
  | .dataRead o r n bad => Sys2Proof.Machine.execDataRead o r n bad s
  | .release o r v => Sys2Proof.Machine.execRelease o r v s
  | .claimTimeout r => Sys2Proof.Machine.execClaimTimeout r s
  | .sourceLevelChange src => Sys2Proof.Machine.execSourceLevelChange src s
  | .claim o t => Sys2Proof.Machine.execClaim o t s
  | .complete o t src => Sys2Proof.Machine.execComplete o t src s
  | .enableWrite o t w v => Sys2Proof.Machine.execEnableWrite o t w v s
  | .gdis o t v => Sys2Proof.Machine.execGdis o t v s
  | .split o t v => Sys2Proof.Machine.execSplit o t v s
  | .pacerExpire g t => Sys2Proof.Machine.execPacerExpire g t s
  | .evcArrayEcc src t => Sys2Proof.Machine.execEvcArrayEcc src t s
  | .supplyFault => Sys2Proof.Machine.execSupplyFault s
  | .overtemperature tj => Sys2Proof.Machine.execOvertemperature tj s
  | .secondBoundary => Sys2Proof.Machine.execSecondBoundary s
  | .anchorCommit => Sys2Proof.Machine.execAnchorCommit s
  | .timeNsRead o => Sys2Proof.Machine.execTimeNsRead o s
  | .rateWrite v => Sys2Proof.Machine.execRateWrite v s
  | .step v => Sys2Proof.Machine.execStep v s
  | .ppsNextWrite v => Sys2Proof.Machine.execPpsNextWrite v s
  | .trgNextWrite g hi lo => Sys2Proof.Machine.execTrgNextWrite g hi lo s
  | .triggerRealign g => Sys2Proof.Machine.execTriggerRealign g s
  | .triggerFire g => Sys2Proof.Machine.execTriggerFire g s
  | .offsetMeasurement => Sys2Proof.Machine.execOffsetMeasurement s
  | .syncTimeout => Sys2Proof.Machine.execSyncTimeout s
  | .sync p domain seq stamp => Sys2Proof.Machine.execSync p domain seq stamp s
  | .followUp p domain seq origin corr rate gm => Sys2Proof.Machine.execFollowUp p domain seq origin corr rate gm s
  | .syncSend p stamp => Sys2Proof.Machine.execSyncSend p stamp s
  | .pdelayReqSend p stamp => Sys2Proof.Machine.execPdelayReqSend p stamp s
  | .pdelayReq p domain seq rx tx => Sys2Proof.Machine.execPdelayReq p domain seq rx tx s
  | .pdelayResp p domain seq reqRx stamp => Sys2Proof.Machine.execPdelayResp p domain seq reqRx stamp s
  | .pdelayRespFollowUp p domain seq respTx => Sys2Proof.Machine.execPdelayRespFollowUp p domain seq respTx s
  | .ethFrameReceive p len tags type dst bad => Sys2Proof.Machine.execEthFrameReceive p len tags type dst bad s
  | .diagRequest p src tag ver op seq addr count => Sys2Proof.Machine.execDiagRequest p src tag ver op seq addr count s
  | .ethLinkUp p => Sys2Proof.Machine.execEthLinkUp p s
  | .ethLinkDown p => Sys2Proof.Machine.execEthLinkDown p s
  | .inputEdge n levels => Sys2Proof.Machine.execInputEdge n levels s
  | .indexEdge n => Sys2Proof.Machine.execIndexEdge n s
  | .sincosSample n codeSin codeCos => Sys2Proof.Machine.execSincosSample n codeSin codeCos s
  | .sentMessage n tick nibs crc pause bad ago => Sys2Proof.Machine.execSentMessage n tick nibs crc pause bad ago s
  | .sentTimeout n => Sys2Proof.Machine.execSentTimeout n s
  | .channelRevalid n => Sys2Proof.Machine.execChannelRevalid n s
  | .compareArm n v => Sys2Proof.Machine.execCompareArm n v s
  | .observerUpdate => Sys2Proof.Machine.execObserverUpdate s
  | .standstill n => Sys2Proof.Machine.execStandstill n s
  | .snapshot => Sys2Proof.Machine.execSnapshot s
  | .historyEntry => Sys2Proof.Machine.execHistoryEntry s
  | .motionInterpolate c => Sys2Proof.Machine.execMotionInterpolate c s
  | .emulatorStep e => Sys2Proof.Machine.execEmulatorStep e s
  | .adc1Conversion n code => Sys2Proof.Machine.execAdc1Conversion n code s
  | .pocFaultPin p => Sys2Proof.Machine.execPocFaultPin p s
  | .powerGood p => Sys2Proof.Machine.execPowerGood p s
  | .pgTimeout p => Sys2Proof.Machine.execPgTimeout p s
  | .powerRetry p => Sys2Proof.Machine.execPowerRetry p s
  | .attemptReset p => Sys2Proof.Machine.execAttemptReset p s
  | .powerRelease p => Sys2Proof.Machine.execPowerRelease p s
  | .openDetect p => Sys2Proof.Machine.execOpenDetect p s
  | .pwmPeriodStart k => Sys2Proof.Machine.execPwmPeriodStart k s
  | .pwmPulseStart k => Sys2Proof.Machine.execPwmPulseStart k s
  | .pwmPulseEnd k => Sys2Proof.Machine.execPwmPulseEnd k s
  | .fold m => Sys2Proof.Machine.execFold m s
  | .unfold m => Sys2Proof.Machine.execUnfold m s
  | .foldStop m => Sys2Proof.Machine.execFoldStop m s
  | .brakeEnd m => Sys2Proof.Machine.execBrakeEnd m s
  | .foldStall m => Sys2Proof.Machine.execFoldStall m s
  | .foldTimeout m => Sys2Proof.Machine.execFoldTimeout m s
  | .vcoreAdjust mv tj => Sys2Proof.Machine.execVcoreAdjust mv tj s
  | .transactionStart n free lost => Sys2Proof.Machine.execTransactionStart n free lost s
  | .busStuckRecovery n recovered => Sys2Proof.Machine.execBusStuckRecovery n recovered s
  | .stretchTimeout n => Sys2Proof.Machine.execStretchTimeout n s
  | .transactionDone n ack data => Sys2Proof.Machine.execTransactionDone n ack data s
  | .targetWrite t addr7 a bytes end_ => Sys2Proof.Machine.execTargetWrite t addr7 a bytes end_ s
  | .targetRead t addr7 a n => Sys2Proof.Machine.execTargetRead t addr7 a n s
  | .targetDataTimeout t => Sys2Proof.Machine.execTargetDataTimeout t s
  | .targetSelfReset t => Sys2Proof.Machine.execTargetSelfReset t s
  | .wakeAddress t => Sys2Proof.Machine.execWakeAddress t s
  | .alertResponse t lost => Sys2Proof.Machine.execAlertResponse t lost s
  | .bridgeAccess via addr write be data => Sys2Proof.Machine.execBridgeAccess via addr write be data s
  | .sensorWindowWrite p => Sys2Proof.Machine.execSensorWindowWrite p s
  | .sensorWindowRead p => Sys2Proof.Machine.execSensorWindowRead p s
  | .remoteWindowAccess f => Sys2Proof.Machine.execRemoteWindowAccess f s
  | .bridgeReadTimeout tag => Sys2Proof.Machine.execBridgeReadTimeout tag s
  | .take o w => Sys2Proof.Machine.execTake o w s
  | .semaphoreRelease o w => Sys2Proof.Machine.execSemaphoreRelease o w s
  | .leaseExpire w => Sys2Proof.Machine.execLeaseExpire w s
  | .retryReissue tag => Sys2Proof.Machine.execRetryReissue tag s
  | .compatWriteTimeout tag => Sys2Proof.Machine.execCompatWriteTimeout tag s
  | .prefetchAgeExpire o => Sys2Proof.Machine.execPrefetchAgeExpire o s
  | .laneLock p l => Sys2Proof.Machine.execLaneLock p l s
  | .laneLockLost p l => Sys2Proof.Machine.execLaneLockLost p l s
  | .trainTimeout p => Sys2Proof.Machine.execTrainTimeout p s
  | .laneBlock p uid rate lanes map => Sys2Proof.Machine.execLaneBlock p uid rate lanes map s
  | .dataBlock p seq gen cls flow payload => Sys2Proof.Machine.execDataBlock p seq gen cls flow payload s
  | .openBlock p seq gen cls flow payload => Sys2Proof.Machine.execOpenBlock p seq gen cls flow payload s
  | .endBlock p seq gen cls flow total blocks => Sys2Proof.Machine.execEndBlock p seq gen cls flow total blocks s
  | .abortBlock p seq gen cls flow cause => Sys2Proof.Machine.execAbortBlock p seq gen cls flow cause s
  | .ackBlock p cum map => Sys2Proof.Machine.execAckBlock p cum map s
  | .ackTimer p => Sys2Proof.Machine.execAckTimer p s
  | .retransmitTimeout p => Sys2Proof.Machine.execRetransmitTimeout p s
  | .helloSend p => Sys2Proof.Machine.execHelloSend p s
  | .helloBlock p uid name fid port gen => Sys2Proof.Machine.execHelloBlock p uid name fid port gen s
  | .helloTimeout p => Sys2Proof.Machine.execHelloTimeout p s
  | .lsaBlock p seq gen payload => Sys2Proof.Machine.execLsaBlock p seq gen payload s
  | .lsaRefresh => Sys2Proof.Machine.execLsaRefresh s
  | .lsaAge uid => Sys2Proof.Machine.execLsaAge uid s
  | .fidClaim => Sys2Proof.Machine.execFidClaim s
  | .fidJournal => Sys2Proof.Machine.execFidJournal s
  | .brgReq p seq gen payload issued => Sys2Proof.Machine.execBrgReq p seq gen payload issued s
  | .brgRsp p seq gen payload => Sys2Proof.Machine.execBrgRsp p seq gen payload s
  | .timeExchange p => Sys2Proof.Machine.execTimeExchange p s
  | .timeBlock p sent echo echoAt gm free => Sys2Proof.Machine.execTimeBlock p sent echo echoAt gm free s
  | .heartbeatSend => Sys2Proof.Machine.execHeartbeatSend s
  | .heartbeat p seq body => Sys2Proof.Machine.execHeartbeat p seq body s
  | .hbInputEdge => Sys2Proof.Machine.execHbInputEdge s
  | .heartbeatTick => Sys2Proof.Machine.execHeartbeatTick s
  | .fenceWaitExpire => Sys2Proof.Machine.execFenceWaitExpire s
  | .partnerWaitExpire => Sys2Proof.Machine.execPartnerWaitExpire s
  | .fenceInput low => Sys2Proof.Machine.execFenceInput low s
  | .fenceReleaseTimer => Sys2Proof.Machine.execFenceReleaseTimer s
  | .deliver p seq body => Sys2Proof.Machine.execDeliver p seq body s
  | .deliverAckTimeout => Sys2Proof.Machine.execDeliverAckTimeout s
  | .mirrorRestore => Sys2Proof.Machine.execMirrorRestore s
  | .fcMismatch c => Sys2Proof.Machine.execFcMismatch c s
  | .handover o v => Sys2Proof.Machine.execHandover o v s
  | .batonOffer p seq batonGen => Sys2Proof.Machine.execBatonOffer p seq batonGen s
  | .batonCommit p seq batonGen => Sys2Proof.Machine.execBatonCommit p seq batonGen s
  | .relayProfile p seq body => Sys2Proof.Machine.execRelayProfile p seq body s
  | .profileSwapAtS => Sys2Proof.Machine.execProfileSwapAtS s
  | .exposureLoopUpdate => Sys2Proof.Machine.execExposureLoopUpdate s
  | .expRegWrite c => Sys2Proof.Machine.execExpRegWrite c s
  | .liveBlockWrite c => Sys2Proof.Machine.execLiveBlockWrite c s
  | .replaced kind inst row x => Sys2Proof.Machine.execReplaced kind inst row x s
  | .replaceRetry => Sys2Proof.Machine.execReplaceRetry s
  | .ageingMeasure atBoot freqs => Sys2Proof.Machine.execAgeingMeasure atBoot freqs s
  | .journalRecord bad => Sys2Proof.Machine.execJournalRecord bad s
  | .dropSummary => Sys2Proof.Machine.execDropSummary s
  | .park o v => Sys2Proof.Machine.execPark o v s
  | .parkCancel o v => Sys2Proof.Machine.execParkCancel o v s
  | .parkComplete => Sys2Proof.Machine.execParkComplete s
  | .parkExit => Sys2Proof.Machine.execParkExit s
  | .presencePulse => Sys2Proof.Machine.execPresencePulse s
  | .presenceHeld => Sys2Proof.Machine.execPresenceHeld s
  | .windowExpire => Sys2Proof.Machine.execWindowExpire s
  | .sessionOpen o => Sys2Proof.Machine.execSessionOpen o s
  | .sessionClose o => Sys2Proof.Machine.execSessionClose o s
  | .erase o slot => Sys2Proof.Machine.execErase o slot s
  | .program o slot arg => Sys2Proof.Machine.execProgram o slot arg s
  | .verify o slot => Sys2Proof.Machine.execVerify o slot s
  | .reload o => Sys2Proof.Machine.execReload o s
  | .rollback o arg => Sys2Proof.Machine.execRollback o arg s
  | .flashOperationDone fail => Sys2Proof.Machine.execFlashOperationDone fail s
  | .echoRequestSend p => Sys2Proof.Machine.execEchoRequestSend p s
  | .syncHeaderErrors p l => Sys2Proof.Machine.execSyncHeaderErrors p l s
  | .blockCrcError p => Sys2Proof.Machine.execBlockCrcError p s
  | .csi2TxPacketSent p => Sys2Proof.Machine.execCsi2TxPacketSent p s
  | .csi2PhyRestartDone p => Sys2Proof.Machine.execCsi2PhyRestartDone p s
  | .busMasterEnable p payload => Sys2Proof.Machine.execBusMasterEnable p payload s
  | .pcieUncorrectableError p => Sys2Proof.Machine.execPcieUncorrectableError p s

end Sys2Proof.Machine
end

