-- ==== Sys2Proof/Safety.lean ====
section
/-! DEFINITION. What the claims say about runs: which part of the state a command may change, the canonical form of
everything the state holds by address, and what only grows. -/

namespace Sys2Proof.Machine
open Sys2Proof

/-- A byte memory is in its one canonical form: addresses strictly rising, no entry equal to what an unlisted address reads as. -/
abbrev Memory.wf (d : Nat → Nat) (m : Mem) : Bool := swf d m

/-- The registers, both copies of the LIVE words, the configuration banks, the memories and the sets that a load prepares are in
canonical form, so that equal contents are equal data. -/
structure State.Canonical (s : State) : Prop where
  regs : swf (regReset s.chip) s.regs = true
  cfgB : swf (regReset s.chip) s.cfgB = true
  cfgA : swf (regReset s.chip) s.cfgA = true
  cfgO : swf (regReset s.chip) s.cfgO = true
  cfgX : swf (regReset s.chip) s.cfgX = true
  liveB : swf (regReset s.chip) s.liveB = true
  liveA : swf (regReset s.chip) s.liveA = true
  flash : Memory.wf flashDefault s.flash = true
  jmem : Memory.wf flashDefault s.jmem = true
  ram : Memory.wf ramDefault s.ram = true
  profSets : ∀ x ∈ s.ldr.profSets, swf (regReset s.chip) x.2 = true
  baseSet : swf (regReset s.chip) s.ldr.baseSet = true

/-- The fields of the state that commands change, by name; the queue and the fuses are not among them. -/
inductive StateField where
  | rollback | pins | now | regs | cfgB | cfgA | cfgO | cfgX | liveB | liveA | islEpoch | ldr | queues | readPorts
  | hostPorts | svcStats | jnl | rsv | cams | twbs | frames | nextFrame | running | syncs | statCount | outs | nextOut
  | inAlive | doneKeys | holds | txs | chans | weaves | outFlows | fab | rly | mnt | time | eths | mot | pwrs | pwms | folds
  | brg | loops | vcore | chkAt | checkpoint | protoErrs | flash | jmem | ram | out | freeCount
deriving DecidableEq, Repr

/-- A field is the same in two states. -/
def StateField.same : StateField → State → State → Prop
  | .rollback, s, t => t.rollback = s.rollback
  | .pins, s, t => t.pins = s.pins
  | .now, s, t => t.now = s.now
  | .regs, s, t => t.regs = s.regs
  | .cfgB, s, t => t.cfgB = s.cfgB
  | .cfgA, s, t => t.cfgA = s.cfgA
  | .cfgO, s, t => t.cfgO = s.cfgO
  | .cfgX, s, t => t.cfgX = s.cfgX
  | .liveB, s, t => t.liveB = s.liveB
  | .liveA, s, t => t.liveA = s.liveA
  | .islEpoch, s, t => t.islEpoch = s.islEpoch
  | .ldr, s, t => t.ldr = s.ldr
  | .queues, s, t => t.queues = s.queues
  | .readPorts, s, t => t.readPorts = s.readPorts
  | .hostPorts, s, t => t.hostPorts = s.hostPorts
  | .svcStats, s, t => t.svcStats = s.svcStats
  | .jnl, s, t => t.jnl = s.jnl
  | .rsv, s, t => t.rsv = s.rsv
  | .cams, s, t => t.cams = s.cams
  | .twbs, s, t => t.twbs = s.twbs
  | .frames, s, t => t.frames = s.frames
  | .nextFrame, s, t => t.nextFrame = s.nextFrame
  | .running, s, t => t.running = s.running
  | .syncs, s, t => t.syncs = s.syncs
  | .statCount, s, t => t.statCount = s.statCount
  | .outs, s, t => t.outs = s.outs
  | .nextOut, s, t => t.nextOut = s.nextOut
  | .inAlive, s, t => t.inAlive = s.inAlive
  | .doneKeys, s, t => t.doneKeys = s.doneKeys
  | .holds, s, t => t.holds = s.holds
  | .txs, s, t => t.txs = s.txs
  | .chans, s, t => t.chans = s.chans
  | .weaves, s, t => t.weaves = s.weaves
  | .outFlows, s, t => t.outFlows = s.outFlows
  | .fab, s, t => t.fab = s.fab
  | .rly, s, t => t.rly = s.rly
  | .mnt, s, t => t.mnt = s.mnt
  | .time, s, t => t.time = s.time
  | .eths, s, t => t.eths = s.eths
  | .mot, s, t => t.mot = s.mot
  | .pwrs, s, t => t.pwrs = s.pwrs
  | .pwms, s, t => t.pwms = s.pwms
  | .folds, s, t => t.folds = s.folds
  | .brg, s, t => t.brg = s.brg
  | .loops, s, t => t.loops = s.loops
  | .vcore, s, t => t.vcore = s.vcore
  | .chkAt, s, t => t.chkAt = s.chkAt
  | .checkpoint, s, t => t.checkpoint = s.checkpoint
  | .protoErrs, s, t => t.protoErrs = s.protoErrs
  | .flash, s, t => t.flash = s.flash
  | .jmem, s, t => t.jmem = s.jmem
  | .ram, s, t => t.ram = s.ram
  | .out, s, t => t.out = s.out
  | .freeCount, s, t => t.freeCount = s.freeCount

/-- What holds between a state and a later one when only the fields of `F` may have changed: the commands that wait and the fuses
stand, the rollback counter and the count of free values never fall, what has been put on links and pins stays, and canonical
form is kept. -/
structure Evolves (F : List StateField) (s t : State) : Prop where
  pending : t.pending = s.pending
  chip : t.chip = s.chip
  rollback : s.rollback ≤ t.rollback
  freeCount : s.freeCount ≤ t.freeCount
  out : s.out <+: t.out
  canonical : s.Canonical → t.Canonical
  frame : ∀ x, F.contains x = false → x.same s t

/-- Which fields each command can change. -/
def touches : Instr → List StateField
  | .scriptDelay .. | .delayExpired .. | .scriptWaitlock .. | .waitlockTimeout .. | .scriptJump .. | .scriptLoop ..
    | .supervisionRun .. | .echoBurstStart .. | .echoReturn .. | .echoTimeout .. =>
      [.cams]
  | .sync .. | .pdelayResp .. => [.eths]
  | .profileSelectionStart .. => [.ldr]
  | .historyEntry .. => [.mot]
  | .pdelayReq .. | .helloSend .. => [.out]
  | .crystalStable .. => [.pins]
  | .ldrViewWrite .. | .holdFreeze .. | .holdRelease .. | .selfTestStarved .. | .stop .. | .rateWrite ..
    | .ppsNextWrite .. | .ethLinkUp .. | .compareArm .. | .attemptReset .. | .openDetect .. | .fenceReleaseTimer .. =>
      [.regs]
  | .hbInputEdge .. => [.rly]
  | .echoRequestSend .. => [.cams, .out]
  | .scriptWr16 .. | .scriptWr8 .. | .scriptRdcmp .. => [.cams, .twbs]
  | .checkpointWrite .. => [.chkAt, .checkpoint]
  | .syncSend .. => [.eths, .out]
  | .take .. | .semaphoreRelease .. | .leaseExpire .. | .prefetchAgeExpire .. => [.regs, .brg]
  | .lockLost .. | .backoffExpired .. => [.regs, .cams]
  | .disarm .. => [.regs, .chans]
  | .pdelayRespFollowUp .. => [.regs, .eths]
  | .busMasterEnable .. => [.regs, .hostPorts]
  | .modeSample .. => [.regs, .ldr]
  | .wakeAddress .. => [.regs, .mnt]
  | .indexEdge .. | .channelRevalid .. | .observerUpdate .. | .standstill .. => [.regs, .mot]
  | .unassignedAccess .. => [.regs, .out]
  | .powerGood .. => [.regs, .pwrs]
  | .tableMemoryWrite .. => [.regs, .ram]
  | .secondBoundary .. => [.regs, .time]
  | .csi2PhyRestartDone .. => [.regs, .txs]
  | .trainTimeout .. => [.regs, .weaves]
  | .followUp .. => [.time, .eths]
  | .timeNsRead .. => [.time, .out]
  | .ackTimer .. | .timeExchange .. => [.weaves, .out]
  | .timeBlock .. => [.weaves, .time]
  | .snapshot .. => [.frames, .time, .mot]
  | .step .. => [.now, .regs, .time]
  | .triggerReleaseSend .. => [.pins, .cams, .out]
  | .pwmPeriodStart .. | .pwmPulseStart .. | .pwmPulseEnd .. => [.pins, .pwms, .out]
  | .foldStall .. | .alertResponse .. => [.pins, .regs, .out]
  | .liveWrite .. => [.regs, .cfgB, .liveB]
  | .csi2TxConfigApply .. => [.regs, .cfgX, .txs]
  | .release .. | .claimTimeout .. => [.regs, .queues, .readPorts]
  | .vcoreAdjust .. => [.regs, .twbs, .vcore]
  | .csi2TxPacketSent .. => [.regs, .txs, .out]
  | .blockCrcError .. => [.regs, .weaves, .out]
  | .exposureLoopUpdate .. => [.svcStats, .loops, .freeCount]
  | .expRegWrite .. => [.twbs, .loops, .freeCount]
  | .faultTimeout .. => [.pins, .regs, .cams, .out]
  | .fold .. | .unfold .. | .foldStop .. | .brakeEnd .. => [.pins, .regs, .folds, .out]
  | .powerRelease .. => [.pins, .regs, .pwrs, .out]
  | .partnerWaitExpire .. => [.pins, .regs, .rly, .out]
  | .heartbeatSend .. | .mirrorRestore .. => [.pins, .regs, .weaves, .out]
  | .liveBlockWrite .. => [.regs, .cfgB, .liveB, .loops]
  | .queueConfigApply .. => [.regs, .cfgX, .queues, .readPorts]
  | .lsaRefresh .. => [.regs, .weaves, .fab, .out]
  | .handover .. => [.regs, .weaves, .rly, .out]
  | .powerCycleDone .. => [.pins, .regs, .cams, .pwrs, .out]
  | .piWrite .. | .cplCiWrite .. | .packetRewind .. | .ethFrameReceive .. | .ethLinkDown .. | .presenceHeld ..
    | .pcieUncorrectableError .. =>
      [.regs, .queues, .readPorts, .svcStats, .jnl]
  | .offsetMeasurement .. => [.now, .regs, .weaves, .fab, .time, .out]
  | .lpddrTrained .. => [.regs, .ldr, .queues, .readPorts, .svcStats, .jnl]
  | .hostLinkTrained .. => [.regs, .queues, .readPorts, .hostPorts, .svcStats, .jnl]
  | .targetSelfReset .. => [.regs, .queues, .readPorts, .svcStats, .jnl, .brg]
  | .linkLock .. | .scriptEvent .. | .latencyBurstEnd .. => [.regs, .queues, .readPorts, .svcStats, .jnl, .cams]
  | .arm .. => [.regs, .queues, .readPorts, .svcStats, .jnl, .chans]
  | .motionInterpolate .. => [.regs, .queues, .readPorts, .svcStats, .jnl, .frames]
  | .journalRecord .. | .dropSummary .. => [.regs, .queues, .readPorts, .svcStats, .jnl, .jmem]
  | .fcMismatch .. => [.regs, .queues, .readPorts, .svcStats, .jnl, .rly]
  | .spareTest .. | .packetOpen .. | .packetWord .. | .packetCommit .. | .spillMove .. =>
      [.regs, .queues, .readPorts, .svcStats, .jnl, .rsv]
  | .anchorCommit .. => [.regs, .queues, .readPorts, .svcStats, .jnl, .time]
  | .foldTimeout .. => [.pins, .regs, .queues, .readPorts, .svcStats, .jnl, .out]
  | .discard .. => [.regs, .cfgB, .queues, .readPorts, .svcStats, .jnl, .rsv]
  | .longPacket .. => [.regs, .liveA, .queues, .readPorts, .svcStats, .jnl, .frames]
  | .vectorUnmask .. => [.regs, .queues, .readPorts, .hostPorts, .svcStats, .jnl, .out]
  | .fidJournal .. => [.regs, .queues, .readPorts, .svcStats, .jnl, .fab, .jmem]
  | .lineComplete .. => [.regs, .queues, .readPorts, .svcStats, .jnl, .frames, .running]
  | .verify .. | .rollback .. => [.regs, .queues, .readPorts, .svcStats, .jnl, .mnt, .jmem]
  | .emulatorStep .. => [.regs, .queues, .readPorts, .svcStats, .jnl, .mot, .out]
  | .headerRead .. | .dataRead .. => [.regs, .queues, .readPorts, .svcStats, .jnl, .rsv, .out]
  | .laneLock .. => [.regs, .queues, .readPorts, .svcStats, .jnl, .weaves, .out]
  | .sourceLevelChange .. | .claim .. | .complete .. | .enableWrite .. | .gdis .. | .split .. | .pacerExpire .. =>
      [.pins, .regs, .queues, .readPorts, .hostPorts, .svcStats, .jnl, .out]
  | .powerRetry .. => [.pins, .regs, .queues, .readPorts, .svcStats, .jnl, .pwrs, .out]
  | .heartbeatTick .. => [.pins, .regs, .queues, .readPorts, .svcStats, .jnl, .rly, .out]
  | .ownerTimeout .. => [.regs, .cfgB, .ldr, .queues, .readPorts, .svcStats, .jnl, .rsv]
  | .cfgBastingWrite .. => [.regs, .cfgB, .liveB, .ldr, .queues, .readPorts, .svcStats, .jnl]
  | .windowExpire .. | .sessionClose .. => [.regs, .cfgB, .queues, .readPorts, .svcStats, .jnl, .mnt, .jmem]
  | .flr .. | .hotReset .. | .d3hotEntry .. | .d3hotExit .. | .linkDown .. | .busMasterDisable .. | .completionTimeout ..
    | .start .. | .abort .. =>
      [.regs, .queues, .readPorts, .hostPorts, .svcStats, .jnl, .chans, .out]
  | .scriptStream .. => [.regs, .queues, .readPorts, .svcStats, .jnl, .cams, .frames, .running]
  | .sentTimeout .. => [.regs, .queues, .readPorts, .svcStats, .jnl, .frames, .time, .mot]
  | .erase .. | .program .. => [.regs, .queues, .readPorts, .svcStats, .jnl, .mnt, .flash, .jmem]
  | .presencePulse .. => [.regs, .queues, .readPorts, .svcStats, .jnl, .mnt, .jmem, .freeCount]
  | .heatDone .. => [.regs, .queues, .readPorts, .svcStats, .jnl, .rsv, .frames, .running]
  | .compatWriteTimeout .. => [.regs, .queues, .readPorts, .svcStats, .jnl, .weaves, .brg, .out]
  | .laneBlock .. => [.regs, .queues, .readPorts, .svcStats, .jnl, .weaves, .fab, .out]
  | .reload .. => [.regs, .cfgB, .ldr, .queues, .readPorts, .svcStats, .jnl, .mnt, .jmem]
  | .bufferTake .. | .ringReadComplete .. | .listReadComplete .. | .egressBurst .. | .flushReadComplete .. =>
      [.regs, .queues, .readPorts, .hostPorts, .svcStats, .jnl, .outs, .chans, .out]
  | .inputEdge .. | .sentMessage .. => [.regs, .queues, .readPorts, .svcStats, .jnl, .frames, .mnt, .time, .mot]
  | .sensorWindowWrite .. => [.regs, .queues, .readPorts, .svcStats, .jnl, .twbs, .weaves, .brg, .out]
  | .syncTimeout .. => [.regs, .queues, .readPorts, .svcStats, .jnl, .weaves, .fab, .time, .out]
  | .rcRead .. => [.pins, .regs, .queues, .readPorts, .hostPorts, .svcStats, .jnl, .rsv, .time, .out]
  | .frameEndPacket .. | .frameTimeout .. | .linkLoss .. | .pocFaultPin .. | .pgTimeout .. =>
      [.pins, .regs, .queues, .readPorts, .svcStats, .jnl, .cams, .frames, .running, .out]
  | .park .. => [.pins, .regs, .queues, .readPorts, .svcStats, .jnl, .cams, .mnt, .jmem, .out]
  | .replay .. => [.regs, .queues, .readPorts, .hostPorts, .svcStats, .jnl, .outs, .nextOut, .chans, .out]
  | .sincosSample .. => [.regs, .queues, .readPorts, .svcStats, .jnl, .frames, .mnt, .time, .mot, .freeCount]
  | .pdelayReqSend .. => [.regs, .queues, .readPorts, .svcStats, .jnl, .weaves, .fab, .time, .eths, .out]
  | .flashOperationDone .. => [.rollback, .regs, .queues, .readPorts, .svcStats, .jnl, .mnt, .flash, .jmem, .freeCount]
  | .scriptEnd .. | .scriptGpio .. | .scriptPoc .. | .instructionLimit .. | .adc1Conversion .. =>
      [.pins, .regs, .queues, .readPorts, .svcStats, .jnl, .cams, .frames, .running, .pwrs, .out]
  | .portConfigApply .. =>
      [.pins, .regs, .cfgX, .queues, .readPorts, .svcStats, .jnl, .cams, .frames, .running, .pwrs, .out]
  | .reservePairTakeover .. =>
      [.pins, .regs, .ldr, .queues, .readPorts, .svcStats, .jnl, .rsv, .weaves, .loops, .jmem, .out]
  | .diagRequest .. =>
      [.pins, .regs, .queues, .readPorts, .hostPorts, .svcStats, .jnl, .rsv, .time, .eths, .out, .freeCount]
  | .targetRead .. | .targetDataTimeout .. | .remoteWindowAccess .. | .retryReissue .. =>
      [.pins, .regs, .queues, .readPorts, .hostPorts, .svcStats, .jnl, .rsv, .weaves, .time, .brg, .out]
  | .parkCancel .. | .parkExit .. =>
      [.pins, .regs, .queues, .readPorts, .svcStats, .jnl, .rsv, .cams, .mnt, .pwrs, .jmem, .out]
  | .triggerAssertSend .. =>
      [.pins, .regs, .cfgB, .ldr, .queues, .readPorts, .svcStats, .jnl, .rsv, .cams, .jmem, .out, .freeCount]
  | .sensorWindowRead .. | .bridgeReadTimeout .. =>
      [.pins, .regs, .queues, .readPorts, .hostPorts, .svcStats, .jnl, .rsv, .twbs, .weaves, .time, .brg, .out]
  | .fenceWaitExpire .. =>
      [.pins, .regs, .queues, .readPorts, .svcStats, .jnl, .frames, .nextFrame, .outs, .holds, .rly, .pwrs, .out]
  | .swapTimeout .. | .triggerWindowExpire .. =>
      [.regs, .cfgB, .ldr, .queues, .readPorts, .svcStats, .jnl, .rsv, .cams, .frames, .running, .jmem, .freeCount]
  | .frameAdmission .. =>
      [.regs, .cfgB, .ldr, .queues, .readPorts, .svcStats, .jnl, .rsv, .frames, .syncs, .statCount, .jmem, .freeCount]
  | .profileSwapAtS .. =>
      [.pins, .regs, .cfgB, .cfgA, .cfgO, .liveB, .ldr, .queues, .readPorts, .svcStats, .jnl, .holds, .rly, .out]
  | .swapRequest .. | .bastingGrant .. | .replaceRetry .. =>
      [.pins, .regs, .cfgB, .cfgA, .cfgO, .liveB, .ldr, .queues, .readPorts, .svcStats, .jnl, .rsv, .holds, .out]
  | .imageHeaderRead .. | .imageVerified .. | .crossFieldChecks .. =>
      [.regs, .cfgB, .liveB, .liveA, .ldr, .queues, .readPorts, .hostPorts, .svcStats, .jnl, .statCount, .chans, .loops,
      .out]
  | .resetRelease .. =>
      [.pins, .now, .regs, .cfgB, .cfgA, .cfgO, .cfgX, .ldr, .queues, .readPorts, .svcStats, .jnl, .rsv, .time, .jmem]
  | .profileEvaluation .. =>
      [.pins, .regs, .cfgB, .cfgA, .cfgO, .liveB, .ldr, .queues, .readPorts, .svcStats, .jnl, .holds, .weaves, .rly, .out]
  | .replaced .. =>
      [.pins, .regs, .cfgB, .cfgA, .cfgO, .liveB, .ldr, .queues, .readPorts, .svcStats, .jnl, .rsv, .holds, .jmem, .out]
  | .recordsCheck .. =>
      [.regs, .cfgB, .liveB, .liveA, .ldr, .queues, .readPorts, .hostPorts, .svcStats, .jnl, .statCount, .chans, .loops,
      .ram, .out]
  | .ageingMeasure .. =>
      [.pins, .regs, .cfgB, .cfgA, .cfgO, .liveB, .ldr, .queues, .readPorts, .svcStats, .jnl, .rsv, .holds, .jmem, .out,
      .freeCount]
  | .trgNextWrite .. | .triggerRealign .. | .triggerFire .. =>
      [.pins, .regs, .cfgB, .liveA, .ldr, .queues, .readPorts, .svcStats, .jnl, .rsv, .cams, .time, .pwms, .jmem, .out,
      .freeCount]
  | .deliverAckTimeout .. =>
      [.pins, .regs, .queues, .readPorts, .hostPorts, .svcStats, .jnl, .rsv, .outs, .holds, .txs, .chans, .weaves,
      .outFlows, .rly, .out]
  | .seamLine .. =>
      [.pins, .regs, .queues, .readPorts, .hostPorts, .svcStats, .jnl, .rsv, .frames, .outs, .nextOut, .holds, .txs, .chans,
      .weaves, .outFlows, .rly, .out]
  | .transactionStart .. | .busStuckRecovery .. | .stretchTimeout .. | .transactionDone .. =>
      [.pins, .regs, .queues, .readPorts, .hostPorts, .svcStats, .jnl, .rsv, .cams, .twbs, .frames, .running, .weaves,
      .time, .pwrs, .brg, .loops, .vcore, .out]
  | .frameStartPacket .. =>
      [.pins, .regs, .cfgB, .liveA, .ldr, .queues, .readPorts, .svcStats, .jnl, .rsv, .cams, .frames, .nextFrame, .running,
      .rly, .mot, .loops, .jmem, .out, .freeCount]
  | .compositeWaitExpire .. =>
      [.regs, .cfgB, .ldr, .queues, .readPorts, .hostPorts, .svcStats, .jnl, .rsv, .frames, .outs, .doneKeys, .holds, .txs,
      .chans, .weaves, .outFlows, .jmem, .out, .freeCount]
  | .laneLockLost .. | .retransmitTimeout .. | .helloBlock .. | .helloTimeout .. | .lsaAge .. | .fidClaim ..
    | .syncHeaderErrors .. =>
      [.regs, .cfgB, .ldr, .queues, .readPorts, .hostPorts, .svcStats, .jnl, .rsv, .frames, .outs, .doneKeys, .holds, .txs,
      .chans, .weaves, .outFlows, .fab, .jmem, .out, .freeCount]
  | .fenceInput .. =>
      [.pins, .regs, .cfgB, .ldr, .queues, .readPorts, .hostPorts, .svcStats, .jnl, .rsv, .frames, .outs, .doneKeys, .holds,
      .txs, .chans, .weaves, .outFlows, .rly, .jmem, .out, .freeCount]
  | .lockstepMismatch .. | .evcArrayEcc .. | .supplyFault .. | .overtemperature .. =>
      [.pins, .regs, .cfgB, .queues, .readPorts, .hostPorts, .svcStats, .jnl, .rsv, .frames, .running, .syncs, .outs, .txs,
      .chans, .outFlows, .rly, .mnt, .pwms, .folds, .jmem, .out]
  | .ackBlock .. =>
      [.regs, .cfgB, .ldr, .queues, .readPorts, .hostPorts, .svcStats, .jnl, .rsv, .frames, .outs, .doneKeys, .holds, .txs,
      .chans, .weaves, .outFlows, .fab, .rly, .jmem, .out, .freeCount]
  | .seamFrameEnd .. =>
      [.regs, .cfgB, .ldr, .queues, .readPorts, .hostPorts, .svcStats, .jnl, .rsv, .frames, .outs, .inAlive, .doneKeys,
      .holds, .txs, .chans, .weaves, .outFlows, .rly, .jmem, .out, .freeCount]
  | .sessionOpen .. =>
      [.pins, .regs, .cfgB, .queues, .readPorts, .hostPorts, .svcStats, .jnl, .rsv, .frames, .running, .syncs, .outs, .txs,
      .chans, .outFlows, .rly, .mnt, .pwms, .folds, .jmem, .out, .freeCount]
  | .parkComplete .. =>
      [.pins, .regs, .cfgB, .ldr, .queues, .readPorts, .hostPorts, .svcStats, .jnl, .rsv, .cams, .frames, .outs, .doneKeys,
      .holds, .txs, .chans, .weaves, .outFlows, .fab, .mnt, .pwms, .folds, .jmem, .out, .freeCount]
  | .pllLossOfLock .. | .selfTestInGap .. | .reserveSelfTest .. =>
      [.pins, .regs, .cfgB, .cfgA, .cfgO, .liveB, .ldr, .queues, .readPorts, .hostPorts, .svcStats, .jnl, .rsv, .frames,
      .running, .syncs, .outs, .holds, .txs, .chans, .outFlows, .rly, .mnt, .pwms, .folds, .jmem, .out]
  | .epochReachesIsland .. =>
      [.pins, .regs, .cfgB, .cfgX, .islEpoch, .ldr, .queues, .readPorts, .hostPorts, .svcStats, .jnl, .rsv, .cams, .frames,
      .running, .outs, .doneKeys, .holds, .txs, .chans, .weaves, .outFlows, .fab, .time, .mot, .pwrs, .pwms, .brg, .jmem,
      .out, .freeCount]
  | .crossingTimeout .. =>
      [.pins, .regs, .cfgB, .cfgA, .cfgO, .liveB, .ldr, .queues, .readPorts, .hostPorts, .svcStats, .jnl, .rsv, .cams,
      .frames, .running, .syncs, .outs, .doneKeys, .holds, .txs, .chans, .weaves, .outFlows, .fab, .rly, .mnt, .time, .mot,
      .pwms, .folds, .jmem, .out, .freeCount]
  | .registerWrite .. | .targetWrite .. | .bridgeAccess .. =>
      [.pins, .now, .regs, .cfgB, .cfgA, .cfgO, .liveB, .liveA, .ldr, .queues, .readPorts, .hostPorts, .svcStats, .jnl,
      .rsv, .cams, .frames, .running, .syncs, .outs, .nextOut, .holds, .txs, .chans, .weaves, .outFlows, .rly, .mnt, .time,
      .pwrs, .pwms, .folds, .brg, .protoErrs, .flash, .jmem, .ram, .out, .freeCount]
  | .dataBlock .. | .openBlock .. | .endBlock .. | .abortBlock .. | .lsaBlock .. | .brgReq .. | .brgRsp .. | .heartbeat ..
    | .deliver .. | .batonOffer .. | .batonCommit .. | .relayProfile .. =>
      [.pins, .regs, .cfgB, .cfgA, .cfgO, .liveB, .liveA, .ldr, .queues, .readPorts, .hostPorts, .svcStats, .jnl, .rsv,
      .cams, .frames, .nextFrame, .running, .syncs, .outs, .nextOut, .doneKeys, .holds, .txs, .chans, .weaves, .outFlows,
      .fab, .rly, .mnt, .time, .pwrs, .pwms, .folds, .brg, .protoErrs, .flash, .jmem, .ram, .out, .freeCount]
  | .resetNAssert .. =>
      [.rollback, .pins, .now, .regs, .cfgB, .cfgA, .cfgO, .cfgX, .liveB, .liveA, .islEpoch, .ldr, .queues, .readPorts,
      .hostPorts, .svcStats, .jnl, .rsv, .cams, .twbs, .frames, .nextFrame, .running, .syncs, .statCount, .outs, .nextOut,
      .inAlive, .doneKeys, .holds, .txs, .chans, .weaves, .outFlows, .fab, .rly, .mnt, .time, .eths, .mot, .pwrs, .pwms,
      .folds, .brg, .loops, .vcore, .chkAt, .checkpoint, .protoErrs, .flash, .jmem, .ram, .out, .freeCount]

end Sys2Proof.Machine
end

