-- ==== Sys2Proof/Certificates/Slice0/Obligations.lean ====
section
/-! DEFINITION. The statements for the provers, from the rules of the spec. -/

open Sys2Proof Sys2Proof.Machine

/-- Packets are opened, filled, committed and rewound at a queue's write position. (R263, R268, R269, R270, R271) -/
def Obligations.QueueWriting : Prop :=
  ∀ (s : State) (q p : Nat),
    (qEnabled s q = true →
      ((queueOf s q).opn = none → usedWords (queueOf s q) < qCapacity s q →
        exec (.packetOpen q p none) s =
          .next (setQueue q { queueOf s q with
            opn := some ⟨p, (queueOf s q).wpos, []⟩, wpos := ((queueOf s q).wpos + 1) % qCapacity s q } s)) ∧
      (∀ o, (queueOf s q).opn = some o → o.producer ≠ p →
        (∀ x ∈ (queueOf s q).waiting, x.producer ≠ p) →
        exec (.packetOpen q p none) s =
          .next (setQueue q { queueOf s q with waiting := (queueOf s q).waiting ++ [⟨p, none, false, []⟩] } s)) ∧
      (∀ o w, (queueOf s q).opn = some o → o.producer = p → 1 + o.words.length < qCapacity s q → o.words.length < 4095 →
        usedWords (queueOf s q) < qCapacity s q →
        exec (.packetWord q p w none) s =
          .next (setQueue q { queueOf s q with
            opn := some { o with words := o.words ++ [w % 2 ^ 32] }
            wpos := ((queueOf s q).wpos + 1) % qCapacity s q } s)) ∧
      (∀ o, (queueOf s q).opn = some o → o.producer = p → (queueOf s q).waiting = [] → eff s (QMX_Q_COPY_COPY_Q q) = 0 →
        ∃ t, exec (.packetCommit q p none) s = .next t ∧
          queueOf t q = { queueOf s q with
            opn := none, seq := u32 ((queueOf s q).seq + 1)
            pkts := (queueOf s q).pkts ++ [⟨u32 ((queueOf s q).seq + 1), o.words, none⟩] } ∧
          (∀ q', q' ≠ q → queueOf t q' = queueOf s q') ∧ t.regs = s.regs ∧ t.readPorts = s.readPorts) ∧
      (∀ o, (queueOf s q).opn = some o → o.producer = p → (queueOf s q).waiting = [] →
        ∃ t, exec (.packetRewind q p) s = .next t ∧
          queueOf t q = capDram { queueOf s q with opn := none, wpos := o.mark } ∧
          (∀ q', q' ≠ q → queueOf t q' = queueOf s q') ∧ ∀ x, x ≠ .queues → StateField.same x s t)) ∧
    (qEnabled s q = false → ∀ w,
      exec (.packetOpen q p none) s = .next s ∧ exec (.packetWord q p w none) s = .next s ∧
      exec (.packetCommit q p none) s = .next s ∧ exec (.packetRewind q p) s = .next s) ∧
    qEnabled s 0 = false

/-- A packet that reaches its own rewind mark is rewound, counted and reported, in either mode. (R272) -/
def Obligations.QueueOvertakesMark : Prop :=
  ∀ (s : State) (q p w : Nat) (o : OpenPkt), qEnabled s q = true → (queueOf s q).opn = some o → o.producer = p →
    (qCapacity s q ≤ 1 + o.words.length ∨ 4095 ≤ o.words.length) →
    ∃ u, exec (.packetWord q p w none) s = .next (u |> qmxError 1 q |> serveWaiting q) ∧
      (queueOf u q).opn = none ∧ (queueOf u q).wpos = o.mark ∧ (queueOf u q).pkts = (queueOf s q).pkts ∧
      (queueOf u q).seq = (queueOf s q).seq ∧ (queueOf u q).waiting = (queueOf s q).waiting ∧ (queueOf u q).lostSince = true ∧
      rd u (QMX_Q_LOST_OVERSIZE q) = satAdd 8 (rd s (QMX_Q_LOST_OVERSIZE q)) 1 ∧
      rd u (QMX_Q_LOST_LOST q) = satAdd 16 (rd s (QMX_Q_LOST_LOST q)) 1 ∧
      rd u QMX_EVT_LOST = 1 ∧ (∀ q', q' ≠ q → queueOf u q' = queueOf s q') ∧
      ((qEnabled s 2 = false ∨ (queueOf u 2).opn = none) → rd (qmxError 1 q u) QMX_EVT_OVERSIZE = 1) ∧
      (qEnabled s 2 = true → (queueOf u 2).opn ≠ none → ∃ ws, (queueOf (qmxError 1 q u) 2).waiting =
        (queueOf u 2).waiting ++ [⟨uQMX, some ws, false, [QMX_EVT_OVERSIZE]⟩]) ∧
      ∀ x, x ≠ .regs → x ≠ .queues → StateField.same x s u

/-- A full queue drops the open packet in mode 0 and gives up its oldest packets in mode 1. (R271, R273) -/
def Obligations.QueueFullModes : Prop :=
  ∀ (s : State) (q p w : Nat) (o : OpenPkt), qEnabled s q = true → (queueOf s q).opn = some o → o.producer = p →
    1 + o.words.length < qCapacity s q → o.words.length < 4095 → qCapacity s q ≤ usedWords (queueOf s q) →
    ((qOverwrite s q = false ∨ (queueOf s q).pkts = []) →
      exec (.packetWord q p w none) s = .next (s |> rewindOpen q |> qLost q 1 |> serveWaiting q)) ∧
    (qOverwrite s q = true → (queueOf s q).pkts ≠ [] →
      ∃ t, exec (.packetWord q p w none) s = .next t ∧
        let m := makeRoom q (queueOf s q).pkts.length s
        (queueOf t q).opn = some { o with words := o.words ++ [w % 2 ^ 32] } ∧ (queueOf t q).pkts = (queueOf m q).pkts ∧
        (∃ n, (queueOf t q).pkts = (queueOf s q).pkts.drop n) ∧ t.regs = m.regs ∧ t.readPorts = m.readPorts)

/-- Pointer resets, spill moves, new configurations and claim timeouts. (R264, R273, R276, R280, R281, R283) -/
def Obligations.QueueUpkeep : Prop :=
  (∀ (s : State) (q p w n sq : Nat), qEnabled s q = true →
    exec (.packetOpen q p (some (n, sq))) s = exec (.packetOpen q p none) (s |> pointerReset q n sq |> serveWaiting q) ∧
    exec (.packetWord q p w (some (n, sq))) s = exec (.packetWord q p w none) (s |> pointerReset q n sq |> serveWaiting q) ∧
    exec (.packetCommit q p (some (n, sq))) s = exec (.packetCommit q p none) (s |> pointerReset q n sq |> serveWaiting q) ∧
    ∃ r, pointerReset q n sq s = noteRow 1 (Config.pointerRow q) 2 (qmxError 2 q r) ∧
      (queueOf r q).pkts = [] ∧ (queueOf r q).opn = none ∧ (queueOf r q).wpos = 0 ∧
      (queueOf r q).seq = max (queueOf s q).seq (u32 sq) ∧ (queueOf r q).waiting = (queueOf s q).waiting ∧
      (max (queueOf s q).pkts.length n ≠ 0 → (queueOf r q).lostSince = true) ∧
      (∀ q', q' ≠ q → queueOf r q' = queueOf s q') ∧
      rd r (QMX_Q_LOST_LOST q) = satAdd 16 (rd s (QMX_Q_LOST_LOST q)) (max (queueOf s q).pkts.length n) ∧
      rd r (QMX_Q_LOST_PTR_RESET q) = satAdd 8 (rd s (QMX_Q_LOST_PTR_RESET q)) 1 ∧
      (∀ x ∈ (queueOf s q).pkts, ∀ c, c < 4 → x.claim = some c →
        (portOf r c).claim = none ∧ isSet r (QMX_RP_STAT_BROKEN c) = true) ∧
      ((qEnabled s 2 = false ∨ (queueOf r 2).opn = none) → rd (qmxError 2 q r) QMX_EVT_PTR_RESET = 1)) ∧
  ((∀ (s : State) (q n : Nat) (bad : List Nat), qEnabled s q = true → 6 < eff s (QMX_Q_CFG_DEPTH_LOG2 q) →
    exec (.spillMove q n false bad) s =
      .next (setQueue q (capDram { queueOf s q with dram := (queueOf s q).dram + 16 * n }) s) ∧
    ((queueOf s q).dram ≠ 0 → n ≠ 0 →
      let u := setQueue q { queueOf s q with dram := (queueOf s q).dram - 16 * n } s
      ((∀ k ∈ bad, min (queueOf s q).dram (16 * n) ≤ k) → exec (.spillMove q n true bad) s = .next u) ∧
      (∀ k x, k < min (queueOf s q).dram (16 * n) → packetAt (32 + k) (queueOf s q).pkts = some x →
        exec (.spillMove q n true [k]) s =
          .next (u |> setQueue q (capDram { queueOf u q with pkts := (queueOf s q).pkts.filter (· ≠ x) }) |> breakClaim x |> qLost q 1
            |> qmxError 3 q |> noteRow 2 (Config.spillRow q) 1 |> serveWaiting q)))) ∧
  (∀ (ps : List Pkt) (k : Nat) (x : Pkt), packetAt k ps = some x →
    ∃ a b, ps = a ++ x :: b ∧ (a.map pktWords).sum ≤ k ∧ k < (a.map pktWords).sum + pktWords x) ∧
  (∀ (s : State) (q : Nat), q < 8192 → (queueOf s q).opn = none →
    ∃ t, exec (.queueConfigApply q) s = .next t ∧
      bankWord t.chip t.cfgX (QMX_Q_CFG_ALL q).addr = (queueCfgNew s q).1 ∧
      bankWord t.chip t.cfgX (QMX_Q_COPY_ALL q).addr = (queueCfgNew s q).2 ∧
      (fld (queueCfgNew s q).1 7 3 = eff s (QMX_Q_CFG_DEPTH_LOG2 q) → fld (queueCfgNew s q).1 0 0 = 1 →
        t.queues = s.queues ∧ t.regs = s.regs ∧ t.readPorts = s.readPorts) ∧
      ((fld (queueCfgNew s q).1 7 3 ≠ eff s (QMX_Q_CFG_DEPTH_LOG2 q) ∨
          fld (queueCfgNew s q).1 0 0 = 0 ∧ eff s (QMX_Q_CFG_ENABLE q) = 1) →
        (queueOf t q).pkts = [] ∧
        rd t (QMX_Q_LOST_LOST q) = satAdd 16 (rd s (QMX_Q_LOST_LOST q)) (queueOf s q).pkts.length)) ∧
  (∀ (s : State) (r q sq : Nat), r < 4 → (portOf s r).claim = some (q, sq) →
    exec (.claimTimeout r) s =
      .next (s |> setQueue q (capDram { queueOf s q with pkts := (queueOf s q).pkts.filter fun p => p.claim ≠ some r })
        |> dropClaim r |> wr (QMX_RP_STAT_TIMEOUT r) 1 |> wr QMX_EVT_CLAIM_TMO 1)))

/-- A header read claims the oldest unclaimed packet for its port; data reads return its words in order. (R275, R276, R277) -/
def Obligations.QueueReading : Prop :=
  ∀ (s : State) (r : Nat), r < 4 → origPresent s.variant (portOrig r) = true →
    (∀ q p, (portOf s r).claim = none → isSet s (QMX_RP_SEL_GROUP_MODE r) = false → rd s (QMX_RP_SEL_TARGET r) = q →
      isReader s r q = true → (queueOf s q).pkts.find? (fun p => p.claim.isNone) = some p → p.words ≠ [] →
      ∃ t, exec (.headerRead (portOrig r) r none) s = .next t ∧
        portOf t r = ⟨some (q, p.seq), p.words⟩ ∧
        queueOf t q = { queueOf s q with pkts := markClaim r (queueOf s q).pkts, lostSince := false } ∧
        (∀ q', q' ≠ q → queueOf t q' = queueOf s q') ∧
        t.out = s.out ++ [.readData (portOrig r) (QMX_RP_HEAD_ALL r).addr
          (headerWord true false (queueOf s q).lostSince q p.seq p.words.length)]) ∧
    (∀ q, (portOf s r).claim = none → isSet s (QMX_RP_SEL_GROUP_MODE r) = false → rd s (QMX_RP_SEL_TARGET r) = q →
      isReader s r q = false →
      ∃ t, exec (.headerRead (portOrig r) r none) s = .next t ∧ t.queues = s.queues ∧ portOf t r = portOf s r ∧
        t.out = s.out ++ [.readData (portOrig r) (QMX_RP_HEAD_ALL r).addr (headerWord false true false q 0 0)]) ∧
    (∀ c w ws, (portOf s r).claim = some c → (portOf s r).rest = w :: ws →
      ∃ t, exec (.dataRead (portOrig r) r 1 none) s = .next t ∧
        t.out = s.out ++ [.readData (portOrig r) (QMX_RP_DATA_ALL r 0).addr w] ∧
        (ws ≠ [] → portOf t r = ⟨some c, ws⟩ ∧ t.queues = s.queues) ∧
        (ws = [] → portOf t r = ⟨none, []⟩ ∧
          (queueOf t c.1).pkts = (queueOf s c.1).pkts.filter fun p => p.claim ≠ some r)) ∧
    ((portOf s r).claim = none → isSet s (QMX_RP_STAT_BROKEN r) = false →
      exec (.dataRead (portOrig r) r 1 none) s =
        .next (s |> wr (QMX_RP_STAT_OVERRUN r) 1 |> emit (.readData (portOrig r) (QMX_RP_DATA_ALL r 0).addr 0))) ∧
    (∀ q sq v, (portOf s r).claim = some (q, sq) → v % 2 = 1 → writes (portOrig r) = true →
      exec (.release (portOrig r) r v) s =
        .next (s |> setQueue q (capDram { queueOf s q with pkts := (queueOf s q).pkts.filter fun p => p.claim ≠ some r })
          |> dropClaim r))

/-- A read port or a target window is reached by its own originator alone; all others get the R30 answer. (R30, R275, R288) -/
def Obligations.OnlyTheOwnerReaches : Prop :=
  ∀ (s : State) (o : Orig), origPresent s.variant o = true →
    (∀ r n bad, r < 4 → o ≠ portOrig r →
      exec (.headerRead o r bad) s =
        .next (s |> mapMiss (QMX_RP_HEAD_ALL r).addr |> emit (.readData o (QMX_RP_HEAD_ALL r).addr 0)) ∧
      exec (.dataRead o r n bad) s =
        .next (s |> mapMiss (QMX_RP_DATA_ALL r 0).addr |> emit (.readData o (QMX_RP_DATA_ALL r 0).addr 0)) ∧
      (writes o = true → ∀ v, exec (.release o r v) s = .next (mapMiss (QMX_RP_RELEASE_ALL r).addr s))) ∧
    (∀ t w v src, t < 4 → w < 33 → o ≠ targetOrig t →
      exec (.claim o t) s = .next (s |> mapMiss (EVC_T_CLAIM_ALL t).addr |> emit (.readData o (EVC_T_CLAIM_ALL t).addr 0)) ∧
      (writes o = true →
        exec (.complete o t src) s = .next (mapMiss (EVC_T_COMPLETE_ALL t).addr s) ∧
        exec (.enableWrite o t w v) s = .next (mapMiss (EVC_T_EN_ALL t w).addr s) ∧
        exec (.gdis o t v) s = .next (mapMiss (EVC_T_CTRL_ALL t).addr s) ∧
        exec (.split o t v) s = .next (mapMiss (EVC_T_SPLIT_ALL t).addr s)))

/-- A claim delivers the most urgent claimable source, makes it active and starts its pacer. (R290, R291, R298) -/
def Obligations.EventClaim : Prop :=
  ∀ (s : State) (t : Nat), t < 4 → origPresent s.variant (targetOrig t) = true →
    (isSet s (EVC_T_CTRL_GDIS t) = false → ∀ src, mostUrgent s (claimable s t) = some src →
      (let s' := s |> setActive t src true |> startPacer (groupOf s src) t
       exec (.claim (targetOrig t) t) s = .next (s' |> notify t |> emit (.readData (targetOrig t) (EVC_T_CLAIM_ALL t).addr
         (bit (heldBack s' t) * 2 ^ 30 + bit (!(claimable s' t).isEmpty) * 2 ^ 29 + groupOf s src * 2 ^ 24
           + prioOf s src * 2 ^ 16 + src)))) ∧
      src ∈ claimable s t ∧
      ∀ x ∈ claimable s t, prioOf s x < prioOf s src ∨ prioOf s x = prioOf s src ∧ src ≤ x) ∧
    (isSet s (EVC_T_CTRL_GDIS t) = true →
      exec (.claim (targetOrig t) t) s =
        .next (s |> inc (EVC_T_CNT_EMPTY t) |> notify t |> emit (.readData (targetOrig t) (EVC_T_CLAIM_ALL t).addr (2 ^ 31)))) ∧
    (isSet s (EVC_T_CTRL_GDIS t) = false → claimable s t = [] →
      exec (.claim (targetOrig t) t) s =
        .next (s |> inc (EVC_T_CNT_EMPTY t) |> notify t |> emit (.readData (targetOrig t) (EVC_T_CLAIM_ALL t).addr
          (bit (heldBack s t) * 2 ^ 30))))

/-- Levels, completions, enables, GDIS, SPLIT and pacer expiry act on their bit and re-evaluate the notification. (R287, R289,
R292, R293, R294, R295, R298) -/
def Obligations.EventTargets : Prop :=
  (∀ (s : State) (src : Nat), 0 < src → src ≤ 0x400 →
    (sourceLevel s src = levelOf s src → exec (.sourceLevelChange src) s = .next s) ∧
    (sourceLevel s src = false → levelOf s src = true →
      exec (.sourceLevelChange src) s = .next (s |> setLevel src false |> notifyAll)) ∧
    (sourceLevel s src = true → levelOf s src = false →
      exec (.sourceLevelChange src) s =
        .next (s |> setLevel src true |> alertOn src 0 |> alertOn src 1 |> notifyAll))) ∧
  (∀ (s : State) (t : Nat), t < 4 → origPresent s.variant (targetOrig t) = true → writes (targetOrig t) = true →
    (∀ src, src < 2048 →
      (activeAt s t src = true →
        exec (.complete (targetOrig t) t src) s = .next (s |> setActive t src false |> notify t)) ∧
      (activeAt s t src = false →
        exec (.complete (targetOrig t) t src) s = .next (recordError (evcErr 0x02 src t) s))) ∧
    (∀ w v, w < 33 →
      exec (.enableWrite (targetOrig t) t w v) s =
        .next (s |> wr (EVC_T_EN_EN t w) (Nat.land v (enableMask s.variant w)) |> notify t)) ∧
    (∀ v, exec (.gdis (targetOrig t) t v) s = .next (s |> wr (EVC_T_CTRL_GDIS t) v |> notify t) ∧
      exec (.split (targetOrig t) t v) s = .next (s |> wr (EVC_T_SPLIT_SPLIT t) v |> notify t))) ∧
  (∀ (s : State) (g t : Nat), g < 32 → t < 4 → pacerRuns s g t = true →
    exec (.pacerExpire g t) s = .next (s |> wr ⟨(EVC_PACER_RUN_RUN t).addr, g, g⟩ 0 |> notify t))

/-- One message per rise of the notifiable priority on a host target; a level on INT_N and on the internal line. (R296, R297,
R428) -/
def Obligations.HostNotification : Prop :=
  (∀ (s : State) (t : Nat), t < 2 →
    (isSet s (EVC_T_CTRL_GDIS t) = false → ∀ src, mostUrgent s (notifiable s t) = some src →
      (rd s (EVC_T_STAT_NOTE_PRIO t) < prioOf s src →
        notify t s = (s |> wr (EVC_T_STAT_NOTE_PRIO t) (prioOf s src) |> issueMsix t src)) ∧
      (prioOf s src < rd s (EVC_T_STAT_NOTE_PRIO t) → notify t s = setNote t (prioOf s src) s ∧ (notify t s).out = s.out)) ∧
    (isSet s (EVC_T_CTRL_GDIS t) = true → rd (notify t s) (EVC_T_STAT_NOTE_PRIO t) = 0)) ∧
  (∀ s : State,
    (notify 2 s).pins.intLow = (wantsNotify s 2 || isSafe s) ∧ (notify 3 s).pins.svcLine = wantsNotify s 3 ∧
    rd (notify 2 s) (EVC_T_STAT_NOTE_PRIO 2) = rd s (EVC_T_STAT_NOTE_PRIO 2) ∧
    rd (notify 3 s) (EVC_T_STAT_NOTE_PRIO 3) = rd s (EVC_T_STAT_NOTE_PRIO 3))

/-- A completion ends the source's active state and lowers the running priority; one of a source not active is error 0x02. (R292) -/
def Obligations.CompletionEndsActive : Prop :=
  ∀ (s : State) (t src : Nat), t < 4 → src < 1056 → origPresent s.variant (targetOrig t) = true →
    (activeAt s t src = true → ∃ u, exec (.complete (targetOrig t) t src) s = .next (notify t u) ∧
      (∀ x, x < 1056 → (activeAt u t x = true ↔ activeAt s t x = true ∧ x ≠ src)) ∧
      ((∀ x, x < 1056 → activeAt u t x = false) → runPre u t = none) ∧
      (∀ r, runPre u t = some r → (∃ x, x < 1056 ∧ activeAt u t x = true ∧ preOf s t (prioOf s x) = r) ∧
        ∀ x, x < 1056 → activeAt u t x = true → preOf s t (prioOf s x) ≤ r) ∧
      (∀ a, a ≠ (EVC_T_ACTIVE_ALL t (src / 32)).addr → reg u a = reg s a) ∧ ∀ x, x ≠ .regs → StateField.same x s u) ∧
    (activeAt s t src = false → ∃ u, exec (.complete (targetOrig t) t src) s = .next u ∧ u = recordError (evcErr 0x02 src t) s ∧
      ∀ x, x < 1056 → activeAt u t x = activeAt s t x)

/-- Frame-start and frame-end packets open, count and close frames; line-start and line-end packets change nothing. (R96, R100,
R101, R103, R104, R106, R110) -/
def Obligations.SensorFramePackets : Prop :=
  ∀ (s : State) (p vc fn : Nat), portExists s p = true →
    let miss := fun dt => s |> inc (CPT_DISC_UNMAPPED p) |> wr (CPT_UNMAPPED_LAST_VC p) vc |> wr (CPT_UNMAPPED_LAST_DT p) dt
      |> recordError (portErr p 0x0A vc dt noCtx 0)
    (accepting s p = true →
      ((camOf s p).trig = none → vc < 16 →
        (∃ e ∈ entriesOnVc s (islandEpoch s (islCP p)) p vc,
          ctxEnabled s (islandEpoch s (islCP p)) (mapCtx s (islandEpoch s (islCP p)) p e) = true) →
        exec (.frameStartPacket p vc fn {}) s = .next (kickSlices (startFrames p vc (fn % 2 ^ 16) s))) ∧
      ((camOf s p).trig = none → entriesOnVc s (islandEpoch s (islCP p)) p vc = [] →
        exec (.frameStartPacket p vc fn {}) s = .next (kickSlices (miss 0))) ∧
      ((camOf s p).trig = none → vc < 16 → entriesOnVc s (islandEpoch s (islCP p)) p vc ≠ [] →
        (∀ e ∈ entriesOnVc s (islandEpoch s (islCP p)) p vc,
          ctxEnabled s (islandEpoch s (islCP p)) (mapCtx s (islandEpoch s (islCP p)) p e) = false) →
        exec (.frameStartPacket p vc fn {}) s = .next (kickSlices (inc (CPT_DISC_CTX_OFF p) s))) ∧
      (endingFrames s p vc ≠ [] →
        exec (.frameEndPacket p vc {}) s = .next (kickSlices (parkPort p ((endingFrames s p vc).foldl (endParts p vc) s)))) ∧
      (endingFrames s p vc = [] →
        (vc < 16 → (∃ e ∈ entriesOnVc s (islandEpoch s (islCP p)) p vc,
            ctxEnabled s (islandEpoch s (islCP p)) (mapCtx s (islandEpoch s (islCP p)) p e) = true) →
          exec (.frameEndPacket p vc {}) s = .next (kickSlices s)) ∧
        ((16 ≤ vc ∨ entriesOnVc s (islandEpoch s (islCP p)) p vc = []) →
          exec (.frameEndPacket p vc {}) s = .next (kickSlices (miss 1))) ∧
        (vc < 16 → entriesOnVc s (islandEpoch s (islCP p)) p vc ≠ [] →
          (∀ e ∈ entriesOnVc s (islandEpoch s (islCP p)) p vc,
            ctxEnabled s (islandEpoch s (islCP p)) (mapCtx s (islandEpoch s (islCP p)) p e) = false) →
          exec (.frameEndPacket p vc {}) s = .next (kickSlices (inc (CPT_DISC_CTX_OFF p) s)))) ∧
      (∀ f : PktFlags, f.hdrBad = true → f.rtxFail = false →
        exec (.frameStartPacket p vc fn f) s = .next (kickSlices (s |> inc (CPT_PKT_ERR_HDR p)
          |> recordError ((portErr p 0x01 0 0 noCtx 0).setting (CPT_EVT_PKT_ERR p)))) ∧
        exec (.frameEndPacket p vc f) s = exec (.frameStartPacket p vc fn f) s)) ∧
    (accepting s p = false → ∀ dt payload (f : PktFlags),
      exec (.frameStartPacket p vc fn f) s = .next (kickSlices s) ∧
      exec (.frameEndPacket p vc f) s = .next (kickSlices s) ∧
      exec (.longPacket p vc dt payload f) s = .next s)

/-- The sensor frame counter of a virtual channel extends the frame number to 32 bits. (R101) -/
def Obligations.FrameCounterExtends : Prop :=
  ∀ old fn : Nat, old < 2 ^ 32 → fn < 2 ^ 16 →
    (fn ≠ 0 →
      (nextCounter old fn).1 % 2 ^ 16 = fn ∧
      (nextCounter old fn).1 / 2 ^ 16 = (old / 2 ^ 16 + if fn ≤ old % 2 ^ 16 then 1 else 0) % 2 ^ 16 ∧
      ((nextCounter old fn).2 = true ↔ fn ≠ old % 2 ^ 16 + 1 ∧ fn ≠ 1)) ∧
    nextCounter old 0 = ((old + 1) % 2 ^ 32, false)

/-- A line within LINES is checked, counted and handed on; a line beyond LINES is discarded and marks the frame LONG. (R94, R96,
R97, R102, R103) -/
def Obligations.SensorLines : Prop :=
  (∀ (s : State) (p vc dt : Nat) (payload : List Nat), portExists s p = true → accepting s p = true → dt ≠ 2 → dt ≠ 3 →
    (∀ f x, partFor s p vc dt = some (f, x) →
      (x.got < mapLines s f.epoch p x.e →
        exec (.longPacket p vc dt payload {}) s = .next (lineWithin p vc dt payload f x {} (liveRefresh f.ctx s))) ∧
      (mapLines s f.epoch p x.e ≤ x.got →
        exec (.longPacket p vc dt payload {}) s = .next (lineBeyond p vc dt f x {} (liveRefresh f.ctx s)))) ∧
    (partFor s p vc dt = none →
      (∀ e ∈ entriesOnVc s (islandEpoch s (islCP p)) p vc, mapDt s (islandEpoch s (islCP p)) p e ≠ dt) →
      exec (.longPacket p vc dt payload {}) s = .next (unmapped p vc dt s))) ∧
  (∀ (s : State) (f : FrameSt) (x : Part) (dt : Nat) (payload : List Nat) (k : Nat) (pf : PktFlags),
    let want := mapPixels s f.epoch f.port x.e
    let policy := cfgE s f.epoch (CPT_MAP_W3_CRC_POLICY f.port x.e)
    let c := checkLine s f x dt payload k pf
    (∀ l, x.good0 = some l ∨ x.good1 = some l → l.length = want) →
    c.px.length = want ∧
    (pf.keep = none → ((c.short = true ↔ (unpack dt payload.length payload).length < want) ∧
      (c.long = true ↔ want < (unpack dt payload.length payload).length))) ∧
    (pf.keep ≠ none → c.short = true ∧ c.long = false) ∧
    hasBit c.flags 1 = c.short ∧ hasBit c.flags 2 = c.long ∧ hasBit c.flags 3 = pf.crcBad ∧
    c.concealed = (pf.crcBad && policy != 0) ∧ (pf.crcBad = false → hasBit c.flags 0 = false))

/-- Frame timeouts, loss and return of lock, and a port's configuration. (R105, R107, R110, R120) -/
def Obligations.PortLinkEvents : Prop :=
  ∀ (s : State) (p : Nat), portExists s p = true →
    (∀ c f, (openFrames s p).find? (fun f => f.ctx == c) = some f →
      ∃ t, exec (.frameTimeout p c) s = .next (kickSlices (parkPort p t)) ∧
        t = (let u := s |> inc (CPT_LINK_CNT_FRAME_TMO p) |> recordError (portErr p 0x08 (frameVc s f) 0 c f.fc)
             if isAphy p = true then closeFrame f.id 0 true none u else linkLoss p u)) ∧
    (isAphy p = true → isSet s (CPT_STATE_LOCK p) = true →
      exec (.lockLost p) s = .next (s |> wr (CPT_STATE_LOCK p) 0 |> wr (CPT_STATE_GEAR_NOW p) 0 |> wr (CPT_TRIG_LAT_VALID p) 0
        |> (fun s => setCam p { camOf s p with echo := none } s)
        |> (fun s => setCam p { camOf s p with losing := true } s))) ∧
    ((camOf s p).losing = true →
      exec (.linkLoss p) s =
        .next (kickSlices (s |> setCam p { camOf s p with losing := false } |> linkLoss p |> parkPort p))) ∧
    ((camOf s p).losing = false → exec (.linkLoss p) s = .next (kickSlices s)) ∧
    (isAphy p = true → isSet s (CPT_STATE_LOCK p) = false → portState s p = 2 → (camOf s p).stopping = false →
      exec (.linkLock p) s = .next (s |> wr (CPT_STATE_LOCK p) 1 |> wr (CPT_STATE_GEAR_NOW p) (eff s (CPT_CFG_GEAR p))
        |> (fun s => setCam p { camOf s p with losing := false } s) |> resumeLock p |> enterBringup p
        |> camEvent p 0x8001 (eff s (CPT_CFG_GEAR p)) 0 [CPT_EVT_LOCK p])) ∧
    (openFrames s p = [] → exec (.portConfigApply p) s = .next (kickSlices (applyPort p s)))

/-- Every script instruction, at a ready script whose next opcode is its own, has the effect of R50. (R50, R52, R110, R111, R112,
R113, R346, R476) -/
def Obligations.ScriptInstructions : Prop :=
  ∀ (s : State) (p : Nat) (r : Run), portExists s p = true →
    (nextInstr s p 0 = some r → exec (.scriptEnd p) s = .next (kickSlices (endScript p (arg r 1) s))) ∧
    (nextInstr s p 1 = some r → passive s p = false →
      exec (.scriptWr16 p) s = .next (s |> setRun p { passInstr r (5 + arg r 4) with wait := .bus }
        |> queueTxn p ⟨.script p r.id, arg r 1, beBytes 2 (arg2 r 2) ++ argBytes r 5 (arg r 4), 0⟩)) ∧
    (nextInstr s p 2 = some r → passive s p = false →
      exec (.scriptWr8 p) s = .next (s |> setRun p { passInstr r (4 + arg r 3) with wait := .bus }
        |> queueTxn p ⟨.script p r.id, arg r 1, arg r 2 :: argBytes r 4 (arg r 3), 0⟩)) ∧
    (nextInstr s p 3 = some r →
      exec (.scriptRdcmp p) s =
        .next (s |> setRun p { r with wait := .compare } |> queueTxn p ⟨.script p r.id, arg r 1, beBytes 2 (arg2 r 2), 1⟩)) ∧
    (nextInstr s p 4 = some r → exec (.scriptDelay p) s = .next (setRun p { passInstr r 3 with wait := .delay } s)) ∧
    (nextInstr s p 5 = some r → passive s p = false →
      ((isAphy p = false ∨ isSet s (CPT_STATE_LOCK p) = true) →
        exec (.scriptGpio p) s =
          .next (kickSlices (s |> setRun p (passInstr r 3) |> driveLine p (arg r 1 % 4) (arg r 2 % 2)))) ∧
      (isAphy p = true → isSet s (CPT_STATE_LOCK p) = false →
        exec (.scriptGpio p) s = .next (kickSlices (endScript p 0xFD s)))) ∧
    (nextInstr s p 6 = some r → passive (setRun p (passInstr r 2) s) p = false → isAphy p = true → arg r 1 = 1 →
      exec (.scriptPoc p) s = .next (kickSlices (powerInrush p (setRun p (passInstr r 2) s)))) ∧
    (nextInstr s p 7 = some r →
      (linkLocked s p = true → exec (.scriptWaitlock p) s = .next (setRun p (passInstr r 5) s)) ∧
      (linkLocked s p = false →
        exec (.scriptWaitlock p) s = .next (setRun p { passInstr r 5 with wait := .lock (arg2 r 3) } s))) ∧
    (nextInstr s p 8 = some r →
      exec (.scriptJump p) s = .next (setRun p { r with pc := arg2 r 1, count := r.count + 1 } s)) ∧
    (nextInstr s p 9 = some r →
      (sget (fun _ => 0) r.loops r.pc < arg r 1 →
        exec (.scriptLoop p) s = .next (setRun p { r with
          pc := arg2 r 2, count := r.count + 1
          loops := sset (fun _ => 0) r.loops r.pc (sget (fun _ => 0) r.loops r.pc + 1) } s)) ∧
      (arg r 1 ≤ sget (fun _ => 0) r.loops r.pc → exec (.scriptLoop p) s = .next (setRun p (passInstr r 4) s))) ∧
    (nextInstr s p 10 = some r →
      exec (.scriptEvent p) s = .next (s |> setRun p (passInstr r 3) |> camEvent p (arg2 r 1 % 2 ^ 15) 0 0 [])) ∧
    (nextInstr s p 11 = some r →
      exec (.scriptStream p) s = .next (kickSlices (if arg r 1 = 1
        then s |> setRun p (passInstr r 2) |> camEvent p 0x8007 0 0 []
        else s |> setRun p (passInstr r 2) |> closeAll p 0 false |> camEvent p 0x8008 0 0 [])))

/-- What a script waits for, and the timers of a port's states. (R50, R52, R110, R112, R475) -/
def Obligations.ScriptWaitsAndTimers : Prop :=
  ∀ (s : State) (p : Nat), portExists s p = true →
    (∀ r, (camOf s p).script = some r →
      (r.wait = .delay → exec (.delayExpired p) s = .next (setRun p { r with wait := .ready } s)) ∧
      (∀ fail, r.wait = .lock fail → exec (.waitlockTimeout p) s = .next (setRun p { r with wait := .ready, pc := fail } s)) ∧
      (65536 ≤ r.count → exec (.instructionLimit p) s = .next (kickSlices (endScript p 0xFE s))) ∧
      exec (.supervisionRun p) s = .next s) ∧
    (portState s p = 6 → (camOf s p).stopping = false → exec (.backoffExpired p) s =
      .next (if linkLocked s p = true then s |> setState p 3 |> startScript p 0 else setState p 2 s)) ∧
    (portState s p = 8 → (camOf s p).cycling = false → (camOf s p).stopping = false →
      (isAphy p = false → exec (.faultTimeout p) s = .next (s |> wr (CPT_STATE_ATTEMPT p) 0 |> enterBringup p)) ∧
      (isAphy p = true → exec (.faultTimeout p) s = .next (s |> unlock p |> powerOff p true
        |> fun s => setCam p { camOf s p with cycling := true, losing := false } s))) ∧
    (portState s p = 8 → (camOf s p).cycling = true → (camOf s p).stopping = false →
      exec (.powerCycleDone p) s =
        .next (s |> setCam p { camOf s p with cycling := false } |> wr (CPT_STATE_ATTEMPT p) 0 |> beginPort p)) ∧
    (portState s p = 4 → (camOf s p).script = none → (camOf s p).stopping = false → stoppedA s = false →
      ∀ x, scriptFor s p 1 = some x →
        exec (.supervisionRun p) s = .next (setCam p { camOf s p with
          script := some ⟨(camOf s p).runs + 1, 1, x.code, 0, 0, [], .ready⟩, runs := (camOf s p).runs + 1 } s))

/-- The END code of a bring-up or recovery script decides the port's next state. (R109, R110, R111) -/
def Obligations.AttemptOutcome : Prop :=
  ∀ (s : State) (p role code : Nat), p < 20 → (role = 0 ∨ role = 3) → code < 256 →
    let t := attemptEnded p role code s
    let now := qEnabled s (8 + p) = false ∨ (queueOf s (8 + p)).opn = none
    (code = 0 → role = 0 → portState t p = 4 ∧ rd t (CPT_STATE_ATTEMPT p) = 0) ∧
    (0x80 ≤ code → code ≤ 0xBF → portState t p = 7 ∧ (now → rd t (CPT_EVT_MISMATCH p) = 1 ∧ rd t (CPT_EVT_BRINGUP_FAIL p) = 1)) ∧
    ((0xC0 ≤ code ∧ code ≤ 0xFC ∨ code = 0xFE) →
      portState t p = 8 ∧ (now → rd t (CPT_EVT_FAULT p) = 1 ∧ rd t (CPT_EVT_BRINGUP_FAIL p) = 1)) ∧
    ((0 < code ∧ code < 0x80 ∨ code = 0xFD ∨ code = 0xFF ∧ role = 0) →
      (rd s (CPT_STATE_ATTEMPT p) < eff s (CPT_BRINGUP_RETRY p) →
        portState t p = 6 ∧ rd t (CPT_STATE_ATTEMPT p) = rd s (CPT_STATE_ATTEMPT p) + 1 ∧
          (now → rd t (CPT_EVT_BRINGUP_FAIL p) = 1)) ∧
      (eff s (CPT_BRINGUP_RETRY p) ≤ rd s (CPT_STATE_ATTEMPT p) →
        portState t p = 8 ∧ (now → rd t (CPT_EVT_FAULT p) = 1 ∧ rd t (CPT_EVT_BRINGUP_FAIL p) = 1)))

/-- Trigger messages, the association window and the latency measurement. (R114, R115, R117, R118, R476) -/
def Obligations.TriggersAndLatency : Prop :=
  ∀ (s : State) (p : Nat), portExists s p = true →
    (∀ t, (camOf s p).trig = some t → t.sent = false →
      (canTrigger s p = true → exec (.triggerAssertSend p) s =
        .next (s |> setCam p { camOf s p with trig := some { t with sent := true } } |> assertTrigger p)) ∧
      (canTrigger s p = false →
        exec (.triggerAssertSend p) s = .next (checkSwap (setCam p { camOf s p with trig := none } s)))) ∧
    ((camOf s p).pulse = true →
      (isAphy p = false ∨ isSet s (CPT_STATE_LOCK p) = true → exec (.triggerReleaseSend p) s =
        .next (s |> setCam p { camOf s p with pulse := false }
          |> driveLine p (eff s (CPT_TRIG_LINE p)) (1 - eff s (CPT_TRIG_POL p)))) ∧
      (isAphy p = true → isSet s (CPT_STATE_LOCK p) = false →
        exec (.triggerReleaseSend p) s = .next (setCam p { camOf s p with pulse := false } s))) ∧
    (∀ t, (camOf s p).trig = some t → t.taken = false →
      exec (.triggerWindowExpire p) s = .next (checkSwap (kickSlices (s |> setCam p { camOf s p with trig := none }
        |> inc (CPT_TRIG_CNT_MISS p) |> recordError ((portErr p 0x0D 0 0 noCtx 0).setting (CPT_EVT_TRIG_ERR p)))))) ∧
    (isAphy p = true → isSet s (CPT_STATE_LOCK p) = true → (camOf s p).echo = none →
      exec (.echoBurstStart p) s = .next (setCam p { camOf s p with echo := some ⟨0, 0, 0, 0⟩ } s)) ∧
    (∀ x, (camOf s p).echo = some x →
      (x.sent < 16 → exec (.echoRequestSend p) s =
        .next (s |> setCam p { camOf s p with echo := some { x with sent := x.sent + 1, waiting := x.waiting + 1 } }
          |> emit (.uplink p 1 x.sent))) ∧
      (x.waiting ≠ 0 → (∀ rtt, exec (.echoReturn p rtt) s = .next (setCam p { camOf s p with
          echo := some { x with waiting := x.waiting - 1, back := x.back + 1, sum := x.sum + rtt } } s)) ∧
        exec (.echoTimeout p) s = .next (setCam p { camOf s p with echo := some { x with waiting := x.waiting - 1 } } s)) ∧
      (16 ≤ x.sent → x.waiting = 0 → x.back = 0 →
        exec (.latencyBurstEnd p) s = .next (setCam p { camOf s p with echo := none } s)) ∧
      (16 ≤ x.sent → x.waiting = 0 → x.back ≠ 0 →
        let old := rd s (CPT_TRIG_LAT_NS p)
        let new := latencyOf x (rd s (CPT_STATE_GEAR_NOW p))
        let u := s |> setCam p { camOf s p with echo := none } |> wr (CPT_TRIG_LAT_NS p) new |> wr (CPT_TRIG_LAT_VALID p) 1
        exec (.latencyBurstEnd p) s = .next (if old + 20 < new ∨ new + 20 < old then camEvent p 0x800A 0 new [] u else u)))

/-- Frames are admitted within the cap of 9,200 or by tier 0, else refused whole; a sync group stands or falls together. (R130,
R131, R132, R133, R134, R138) -/
def Obligations.FrameAdmission : Prop :=
  ((∀ (s : State) (c : Nat) (f : FrameSt),
    s.frames.find? (fun f => f.ctx == c && f.adm == .waiting && !f.arriving.isEmpty) = some f → syncOf s f = none →
    let b := bankOf s f.epoch
    let ok := admits (bankFld s.chip b (CTX_TIER c)) (committed s (bankFld s.chip b (CTX_SLICE c))) (rateIn s.chip b c)
    ((processedIn s.chip b c = false ∨ ok = true) → exec (.frameAdmission c) s = .next (admitFrame f s)) ∧
    (processedIn s.chip b c = true → ok = false →
      exec (.frameAdmission c) s = .next (checkSwap (refuseFrame f s)) ∧
      rd (refuseFrame f s) (CTX_PEND_DROPPED c) = 1 ∧ rd (refuseFrame f s) (CTX_FSTATE c) = 2 ∧
      rd (refuseFrame f s) (CTX_FRAMES_REFUSED c) = (rd s (CTX_FRAMES_REFUSED c) + 1) % 2 ^ 32 ∧
      rd (refuseFrame f s) (CTX_REFUSE_RUN c) = satAdd 8 (rd s (CTX_REFUSE_RUN c)) 1 ∧
      ∀ g ∈ (refuseFrame f s).frames, g.id = f.id → g.adm = .refused ∧ g.arriving = [] ∧ inFlight g = false)) ∧
  (∀ tier load rate : Nat, admits tier load rate = true ↔ tier = 0 ∨ load + rate ≤ 9200)) ∧
  (∀ (s : State) (c g key : Nat) (f : FrameSt),
    s.frames.find? (fun f => f.ctx == c && f.adm == .waiting && !f.arriving.isEmpty) = some f → syncOf s f = some (g, key) →
    (s.syncs.find? (fun y => y.grp == g && y.key == key) = none →
      exec (.frameAdmission c) s = .next (checkSwap (decideGroup f g key s)) ∧
      let ms := membersOf s f.epoch g
      let here := s.frames.filter fun x => x.trig == some key && x.adm == .waiting && x.epoch == f.epoch && ms.contains x.ctx
      let inOrder := ms.flatMap fun m => here.filter fun x => x.ctx == m
      (swf (regReset s.chip) (bankOf s f.epoch) = true → ms.Pairwise (· < ·)) ∧
      (groupAdmits s f.epoch ms [] = true → (decideGroup f g key s).frames = (inOrder.foldl (fun s x => admitFrame x s) s).frames) ∧
      (groupAdmits s f.epoch ms [] = false →
        (decideGroup f g key s).frames = (inOrder.foldl (fun s x => refuseFrame x s) s).frames)) ∧
    (∀ y, s.syncs.find? (fun y => y.grp == g && y.key == key) = some y →
      exec (.frameAdmission c) s = .next (checkSwap (sweepSyncs (if y.ok = true then admitFrame f s else refuseFrame f s)))))

/-- Lines enter windows, an idle slice starts the ready line with the earliest deadline, and a finished heat delivers. (R129,
R134, R135, R136, R137) -/
def Obligations.HeatsInDeadlineOrder : Prop :=
  (∀ (s : State) (c : Nat) (f : FrameSt) (l : Line) (rest : List Line),
    s.frames.find? (fun f => f.ctx == c && f.adm == .admitted && !f.arriving.isEmpty) = some f → f.arriving = l :: rest →
    (processedIn s.chip (bankOf s f.epoch) c = true →
      exec (.lineComplete c) s = .next (kickSlices (windowLine f l rest s))) ∧
    (processedIn s.chip (bankOf s f.epoch) c = false →
      exec (.lineComplete c) s = .next (kickSlices (passLine { f with arriving := rest } l s)))) ∧
  (∀ (s : State) (l : Nat) (bad : List TableFault) (r : Running) (f : FrameSt),
    s.running.find? (fun r => r.slice == l) = some r → frameById s r.frame = some f →
    exec (.heatDone l bad) s =
      .next (kickSlices (finishHeat r bad f { s with running := s.running.filter fun x => x.slice != l }))) ∧
  (∀ (s : State) (l : Nat),
    ((∃ r ∈ s.running, r.slice = l) → startHeat s l = s) ∧
    (∀ x f, (∀ r ∈ s.running, r.slice ≠ l) → firstOf (candidates s l) = some x → frameById s x.2.2.2 = some f →
      startHeat s l = beginHeat l f s ∧ x ∈ candidates s l ∧
      ∀ y ∈ candidates s l, x.1 < y.1 ∨ x.1 = y.1 ∧ (x.2.1 < y.2.1 ∨ x.2.1 = y.2.1 ∧ x.2.2.1 ≤ y.2.2.1)))

/-- Arming, taking and starting a DMA channel's sets, and its two index writes. (R251, R252, R253, R254, R257) -/
def Obligations.DmaSets : Prop :=
  ∀ (s : State) (c : Nat), chanHere s c = true →
    (∀ q, stagingOk s c = true →
      exec (.arm c q) s = .next (s |> setChan c { chanOf s c with armed := some (stagingSet s c q), nextSet := (chanOf s c).nextSet + 1 }
        |> wr (DMX_CH_NEXT_ARM_ARM c) 1 |> wr (DMX_CH_NEXT_ARM_SEQ c) q |> wr (DMX_CH_STAT_ARMED c) 1)) ∧
    (∀ q, stagingOk s c = false →
      exec (.arm c q) s = .next (rejectWrite (DMX_CH_EVT_ARM_REJ c) c s)) ∧
    exec (.disarm c) s = .next (s |> setChan c { chanOf s c with armed := none }
      |> wr (DMX_CH_NEXT_ARM_ARM c) 0 |> wr (DMX_CH_STAT_ARMED c) 0) ∧
    (∀ d v, (chanOf s c).cur = some d → v < 2 ^ 16 →
      ((v + 2 ^ 16 - rd s (DMX_CH_IDX_CI c)) % 2 ^ 16 ≤ 2 ^ d.ringLog2 →
        exec (.piWrite c v) s = .next (wr (DMX_CH_PI_PI c) v s)) ∧
      (2 ^ d.ringLog2 < (v + 2 ^ 16 - rd s (DMX_CH_IDX_CI c)) % 2 ^ 16 →
        exec (.piWrite c v) s = .next (rejectWrite (DMX_CH_EVT_PI_REJ c) c s)) ∧
      ((v + 2 ^ 16 - rd s (DMX_CH_CPL_CI_CI c)) % 2 ^ 16 ≤ (d.k + 2 ^ 16 - rd s (DMX_CH_CPL_CI_CI c)) % 2 ^ 16 →
        exec (.cplCiWrite c v) s = .next (wr (DMX_CH_CPL_CI_CI c) v s)) ∧
      ((d.k + 2 ^ 16 - rd s (DMX_CH_CPL_CI_CI c)) % 2 ^ 16 < (v + 2 ^ 16 - rd s (DMX_CH_CPL_CI_CI c)) % 2 ^ 16 →
        exec (.cplCiWrite c v) s = .next (rejectWrite (DMX_CH_EVT_PI_REJ c) c s))) ∧
    ((chanOf s c).cur = none → ∀ v,
      exec (.piWrite c v) s = .next (rejectWrite (DMX_CH_EVT_PI_REJ c) c s) ∧
      exec (.cplCiWrite c v) s = .next (rejectWrite (DMX_CH_EVT_PI_REJ c) c s)) ∧
    (∀ r, rejectWrite r c s = recordError { dmxErr 6 c with evts := [r] } s) ∧
    (s.ldr.loaded = true →
      (chanState s c = 0 → ∀ d, (chanOf s c).armed = some d → c < 256 → ∃ t, exec (.start c) s = .next t ∧ chanState t c = 1 ∧
        (chanOf t c).cur = some d ∧ (chanOf t c).armed = none ∧ rd t (DMX_CH_IDX_CI c) = 0 ∧ rd t (DMX_CH_IDX_CPL_PI c) = 0 ∧
        rd t (DMX_CH_CPL_CI_CI c) = 0 ∧ rd t (DMX_CH_PI_PI c) = d.pi % 2 ^ 16 ∧ rd t (DMX_CH_STAT_TAKEN_SEQ c) = d.seq % 256 ∧
        rd t (DMX_CH_STAT_ARMED c) = 0 ∧ rd t (DMX_CH_EVT_SET_TAKEN c) = 1 ∧ t.out = s.out) ∧
      (chanState s c = 0 → (chanOf s c).armed = none →
        exec (.start c) s = .next (if (chanOf s c).cur.isSome then wr (DMX_CH_STAT_STATE c) 1 s else wr (DMX_CH_EVT_ARM_REJ c) 1 s)) ∧
      (chanState s c = 1 ∨ chanState s c = 2 → exec (.start c) s = .next s)) ∧
    (s.ldr.loaded = false → exec (.start c) s = .next s)

/-- STOP, ABORT, a failed read and the START after a halt. (R254, R255, R256, R257) -/
def Obligations.DmaStopAbortHalt : Prop :=
  ∀ (s : State) (c : Nat), chanHere s c = true → c < 256 →
    (chanState s c = 1 → exec (.stop c) s = .next (settleState c (wr (DMX_CH_STAT_STATE c) 2 s)) ∧
      ((∀ f ∈ (chanOf s c).frames, isTaken f = false) →
        chanState (settleState c (wr (DMX_CH_STAT_STATE c) 2 s)) c = 0)) ∧
    (chanState s c ≠ 1 → exec (.stop c) s = .next s) ∧
    (chanState s c = 3 → exec (.abort c) s = .next (s |> scrapFrames c false |> wr (DMX_CH_EVT_ABORTED c) 1)) ∧
    ((chanState s c = 1 ∨ chanState s c = 2) → takenBufs (chanOf s c) = [] →
      exec (.abort c) s = .next (s |> scrapFrames c true |> wr (DMX_CH_STAT_STATE c) 0 |> wr (DMX_CH_STAT_IN_FRAME c) 0
        |> wr (DMX_CH_EVT_ABORTED c) 1)) ∧
    ((chanState s c = 1 ∨ chanState s c = 2) → takenBufs (chanOf s c) ≠ [] →
      exec (.abort c) s = .next (takeSet c ((takenBufs (chanOf s c)).foldl (abortedRecord c) s |> scrapFrames c true
        |> wr (DMX_CH_STAT_STATE c) 0 |> wr (DMX_CH_STAT_IN_FRAME c) 0 |> wr (DMX_CH_EVT_ABORTED c) 1))) ∧
    (∀ cause a, 1 ≤ cause → cause ≤ 4 → (chanOf s c).listRd = some a → asked s c 1 = true → ∃ t l,
      exec (.completionTimeout c 1 cause) s = .next t ∧ t = halt c cause 1 a (entriesUsed s c) s ∧ chanState t c = 3 ∧
      rd t (DMX_CH_STAT_HALT_CAUSE c) = cause ∧ rd t (DMX_CH_ERR_LO_ADDR c) = a % 2 ^ 32 ∧
      rd t (DMX_CH_ERR_INFO_DIR c) = 1 ∧ ((qEnabled s 2 = false ∨ (queueOf s 2).opn = none) → rd t (DMX_CH_EVT_HALT c) = 1) ∧
      t.out = s.out ++ l ∧ ∀ e ∈ l, ∃ x n tc, e = .hostRead (portOfChan c) x n tc) ∧
    (chanState s c = 3 → s.ldr.loaded = true →
      (((chanOf s c).armed ≠ none ∨ (chanOf s c).abandoned = [] ∨ canReach s (portOfChan c) = true) →
        ∃ t, exec (.start c) s = .next t ∧ chanState t c = 1 ∧ (chanOf t c).abandoned = []) ∧
      ((chanOf s c).armed = none → (chanOf s c).abandoned ≠ [] → canReach s (portOfChan c) = false →
        ∃ t, exec (.start c) s = .next t ∧ chanState t c = 3 ∧ rd t (DMX_CH_STAT_HALT_CAUSE c) = unreachable s (portOfChan c)))

/-- Taking a posted buffer, reading its ring entry and list, draining a burst, and the flush read. (R234, R241, R244, R245, R246,
R247, R248, R258) -/
def Obligations.DmaBuffers : Prop :=
  ∀ (s : State) (c : Nat), chanHere s c = true →
    (∀ f d, (chanOf s c).frames.find? (fun f => f.take == .pending) = some f → chFrame s c f.serial = some f →
      (chanOf s c).cur = some d →
      let ci := rd s (DMX_CH_IDX_CI c)
      let lim := rd s (DMX_CH_PI_PI c)
      (chanState s c = 1 → lim % 2 ^ 16 ≠ ci → cplFree s c d = true →
        exec (.bufferTake c) s = .next (s |> wr (DMX_CH_IDX_CI c) (ci + 1) |> putSet c { d with reserved := d.reserved + 1 }
          |> putChFrame c { f with take := .waiting d.id lim } |> askRing c d ci |> settleState c)) ∧
      ((chanState s c ≠ 1 ∨ lim % 2 ^ 16 = ci ∨ cplFree s c d = false) →
        exec (.bufferTake c) s = .next (refuseTake c f.serial s))) ∧
    (∀ d ci, let a := d.ring + 16 * (ci % 2 ^ d.ringLog2)
      let u := setChan c { chanOf s c with ringRd := (chanOf s c).ringRd ++ [a] } s
      canReach s (portOfChan c) = true → readsOut u (portOfChan c) ≤ 256 →
      askRing c d ci s = emit (.hostRead (portOfChan c) (a / 64 * 64) 64 (tcOf s c)) u) ∧
    (∀ list len cookie a rest f id lim d, asked s c 0 = true → (chanOf s c).ringRd = a :: rest →
      (chanOf s c).frames.find? (fun f => match f.take with | .waiting _ _ => true | _ => false) = some f →
      f.take = .waiting id lim → setById (setChan c { chanOf s c with ringRd := rest } s) c id = some d →
      let b : Buf := ⟨id, cookie, list, [], [], 0, false, 0, false⟩
      let u := setChan c { chanOf s c with ringRd := rest } s
      (list % 16 = 0 → f.foot ≤ len →
        exec (.ringReadComplete c list len cookie) s =
          .next (u |> putChFrame c { f with take := .taken b } |> settle c |> releaseReads (portOfChan c))) ∧
      (list % 16 ≠ 0 →
        exec (.ringReadComplete c list len cookie) s =
          .next (u |> putChFrame c { f with take := .taken b } |> halt c 6 0 a 0 |> releaseReads (portOfChan c)))) ∧
    (∀ es a f b, asked s c 1 = true → (chanOf s c).listRd = some a → (chanOf s c).frames.head? = some f → f.take = .taken b →
      exec (.listReadComplete c es) s = .next (s |> setChan c { chanOf s c with listRd := none }
        |> putChFrame c { f with take := .taken { b with got := es.map fun e => ⟨e.1, e.2.1, e.2.2⟩ } } |> settle c |> releaseReads (portOfChan c))) ∧
    (∀ f b a, asked s c 2 = true → (chanOf s c).reports = [] → (chanOf s c).flushRd = some a →
      (chanOf s c).frames.head? = some f → f.take = .taken b → b.tagWritten = true →
      exec (.flushReadComplete c) s = .next (releaseReads (portOfChan c) (completeFrame c f b s))) ∧
    (∀ p a n, portHere s p = true → (∀ c' ∈ chansOf p, ∀ f ∈ (chanOf s c').frames, f.feed = []) → canReach s p = true →
      (roundRobin s p).findSome? (fun c => (burstOf s c).map fun x => (c, x)) = some (c, a, n) →
      exec (.egressBurst p) s = .next (feedReplay p (burst c a n s)) ∧ n ≤ 512)

/-- Link training, resets, D3hot, link down, Bus Master Enable, MSI-X unmasking and AER on a host port. (R234, R235, R236, R237,
R238, R296, R299) -/
def Obligations.HostPortEvents : Prop :=
  ∀ (s : State) (p : Nat), portHere s p = true →
    (∀ rate width flit, 1 ≤ rate → rate ≤ 6 → (width = 1 ∨ width = 2 ∨ width = 4) →
      let t := s |> wr (HLK_STAT_UP p) 1 |> wr (HLK_STAT_RATE p) (min rate 5) |> wr (HLK_STAT_WIDTH p) width
        |> wr (HLK_STAT_FLIT p) (bit flit) |> setHostPort p { hostPort s p with linkRate := rateOf rate }
      (rate = 4 → flit = false → exec (.hostLinkTrained p rate width flit) s = .next s) ∧
      ((rate = 4 → flit = true) → (5 ≤ rate ∨ rate < cfgI s (islHL p) (HLK_CFG_DECL_RATE p) ∨ width < 4) →
        exec (.hostLinkTrained p rate width flit) s = .next (recordError { hlkErr 2 p with evts := [HLK_EVT_DEGRADED p] } t)) ∧
      ((rate = 4 → flit = true) → rate < 5 → cfgI s (islHL p) (HLK_CFG_DECL_RATE p) ≤ rate → width = 4 →
        exec (.hostLinkTrained p rate width flit) s = .next t) ∧
      usableRate t p = [0, 3500, 7000, 14000, 26000, 1750, 875].getD rate 0 * width / 4) ∧
    exec (.flr p) s = .next (s |> resetFunction p |> wr (HLK_EVT_FLR p) 1) ∧
    exec (.hotReset p) s = .next (resetFunction p s) ∧
    exec (.d3hotEntry p) s = .next (s |> wr (HLK_STAT_D3 p) 1 |> haltPort p 9) ∧
    (isSet s (HLK_STAT_D3 p) = true → exec (.d3hotExit p) s = .next (resetFunction p s)) ∧
    exec (.linkDown p) s = .next (s |> wr (HLK_STAT_UP p) 0 |> wr (HLK_STAT_WIDTH p) 0 |> wr (HLK_STAT_RATE p) 0
      |> wr (HLK_STAT_FLIT p) 0 |> setHostPort p { hostPort s p with linkRate := 0 } |> haltPort p 8
      |> recordError { hlkErr 1 p with evts := [HLK_EVT_LINK_DOWN p] }) ∧
    exec (.busMasterDisable p) s = .next (s |> wr (HLK_STAT_BME p) 0 |> haltPort p 7) ∧
    (∀ n, exec (.busMasterEnable p n) s =
      .next (s |> wr (HLK_STAT_BME p) 1 |> setHostPort p { hostPort s p with payload256 := decide (256 ≤ n) })) ∧
    (∀ v, v < 64 → exec (.vectorUnmask p v) s = .next (flushVectors p (wr (MSIX_CTRL_MASK p v) 0 s))) ∧
    exec (.vectorUnmask p 64) s = .next (flushVectors p (setHostPort p { hostPort s p with msixEnable := true } s)) ∧
    exec (.vectorUnmask p 65) s = .next (flushVectors p (setHostPort p { hostPort s p with funcMask := false } s)) ∧
    exec (.vectorUnmask p 66) s = .next (flushVectors p (setHostPort p { hostPort s p with msixEnable := false } s)) ∧
    exec (.vectorUnmask p 67) s = .next (flushVectors p (setHostPort p { hostPort s p with funcMask := true } s)) ∧
    exec (.pcieUncorrectableError p) s = .next (recordError { hlkErr 4 p with evts := [HLK_EVT_AER p] } s)

/-- What a reset of the PCIe function leaves on its port, and when a replay begins. (R237, R238, R299, R260) -/
def Obligations.FunctionResetLeaves : Prop :=
  (∀ (s : State) (p : Nat), portHere s p = true → ∃ t, exec (.hotReset p) s = .next t ∧
    rd t (HLK_STAT_BME p) = 0 ∧ rd t (HLK_STAT_D3 p) = 0 ∧
    (∀ c, portOfChan c = p → chanState t c = 0 ∧ (chanOf t c).armed = none ∧ (chanOf t c).cur = none ∧
      rd t (DMX_CH_IDX_CI c) = 0 ∧ rd t (DMX_CH_IDX_CPL_PI c) = 0 ∧ rd t (DMX_CH_PI_PI c) = 0 ∧ rd t (DMX_CH_CPL_CI_CI c) = 0) ∧
    (∀ v, v < 64 → vectorMasked t p v = true ∧ rd t (MSIX_CTRL_MASK p v) = 1) ∧
    (hostPort t p).msixEnable = false ∧ (hostPort t p).funcMask = false ∧
    (∀ w, w < 33 → rd t (EVC_T_EN_EN p w) = 0 ∧ rd t (EVC_T_ACTIVE_ACTIVE p w) = 0) ∧
    rd t (EVC_T_CTRL_GDIS p) = 0 ∧ rd t (EVC_T_SPLIT_SPLIT p) = 0 ∧ (∀ g, g < 32 → pacerRuns t g p = false) ∧
    t.cfgA = s.cfgA ∧ t.cfgB = s.cfgB ∧ t.cfgO = s.cfgO) ∧
  (∀ (s : State) (p v : Nat), portHere s p = true →
    let c := v / 2 ^ 20 % 256
    (hasBit v 31 = false → exec (.replay p v) s = .next s) ∧
    (hasBit v 31 = true → isSafe s = false →
      (isSet s (DMX_P_REPLAY_STAT_BUSY p) = true → exec (.replay p v) s = .next (wr (DMX_P_REPLAY_STAT_RESULT p) 4 s)) ∧
      (isSet s (DMX_P_REPLAY_STAT_BUSY p) = false →
        ((portOfChan c ≠ p ∨ chanRouted s c = true ∨ chanState s c ≠ 1) → exec (.replay p v) s = .next (endReplay p 2 s)) ∧
        (portOfChan c = p → chanRouted s c = false → chanState s c = 1 →
          ((holdOf s (v % 2 ^ 14)).held.reverse[v / 2 ^ 28 % 8]? = none → exec (.replay p v) s = .next (endReplay p 1 s)) ∧
          (∀ h, (holdOf s (v % 2 ^ 14)).held.reverse[v / 2 ^ 28 % 8]? = some h →
            ∃ u, u = (setChan c { chanOf s c with frames := (chanOf s c).frames ++ [replayFrame s c s.nextOut h] }
                { s with nextOut := s.nextOut + 1 } |> wr (DMX_P_REPLAY_STAT_BUSY p) 1
                |> fun s => setHostPort p { hostPort s p with replay := some (v % 2 ^ 14, h.slot, s.nextOut - 1) } s) ∧
              ((tryTake c s.nextOut (rd u (DMX_CH_PI_PI c)) u).2 = true →
                exec (.replay p v) s = .next (feedReplay p (tryTake c s.nextOut (rd u (DMX_CH_PI_PI c)) u).1)))))))

/-- A register write acts by the register's class and its fields' access codes. (R2, R6, R7, R8, R10, R11, R12, R30, R309) -/
def Obligations.RegisterWriteByClass : Prop :=
  (∀ (s : State) (o : Orig) (a v hw : Nat), origPresent s.variant o = true → writes o = true → winOf a = none → tableKind a = none →
    (unassigned s o a = true → ∀ n, exec (.registerWrite ⟨o, none⟩ a v n hw) s =
      .next (s |> inc GLB_MAP_MISS_CNT_COUNT |> wr GLB_MAP_MISS_ADDR_ADDR a)) ∧
    (unassigned s o a = false → ∀ n, (n ≠ 4 ∨ a % 4 ≠ 0) →
      (o = .t0 → exec (.registerWrite ⟨o, none⟩ a v n hw) s = .next (inc (TWB_CNT2_PROTO_ERR 21) s)) ∧
      (∀ i, (o = .hp0 ∧ i = 0 ∨ o = .hp1 ∧ i = 1 ∨ (∃ f, o = .weave f) ∧ i = 2) →
        exec (.registerWrite ⟨o, none⟩ a v n hw) s =
          .next { s with protoErrs := sset (fun _ => 0) s.protoErrs i (sget (fun _ => 0) s.protoErrs i + 1) }) ∧
      (o = .svc → exec (.registerWrite ⟨o, none⟩ a v n hw) s = .next s)) ∧
    (absentAt s.variant a = true → a % 4 = 0 → ¬(0x900000 ≤ a ∧ a < 0x901000) → exec (.registerWrite ⟨o, none⟩ a v 4 hw) s = .next s) ∧
    (unassigned s o a = false → a % 4 = 0 → absentAt s.variant a = false → shutOut o a = false → ∀ d is, regAt a = some (d, is) →
      (o ≠ .svc → d.cls = .op → specialWrite o a v s = none →
        exec (.registerWrite ⟨o, none⟩ a v 4 hw) s = .next (setReg a (writtenWord d.flds v hw (reg s a)) s)) ∧
      (o ≠ .svc → d.cls = .stat → exec (.registerWrite ⟨o, none⟩ a v 4 hw) s = .next s) ∧
      (o = .svc → ¬(0x900000 ≤ a ∧ a < 0x901000) → (d.cls = .op → specialWrite o a v s = none →
          exec (.registerWrite ⟨o, none⟩ a v 4 hw) s = .next (setReg a (writtenWord d.flds v hw (reg s a)) s)) ∧
        (d.cls = .stat → exec (.registerWrite ⟨o, none⟩ a v 4 hw) s = .next s)) ∧
      (d.cls = .cfg → a ≠ LDR_SWAP_REQ_GO.addr → a ≠ LDR_DISCARD_GO.addr → isLiveWord a = false → isCfgAt s a = true →
        (o = .svc → ¬(0x900000 ≤ a ∧ a < 0x901000)) → owns s (.bus o) = false → sessionOf s o 0 = false →
        exec (.registerWrite ⟨o, none⟩ a v 4 hw) s = .next (s |> inc GLB_CFG_DENY_CNT_COUNT |> wr GLB_CFG_DENY_ADDR_ADDR a)))) ∧
  (∀ (s : State) (v hw : Nat), v < 2 ^ 32 → stoppedB s = false →
    exec (.registerWrite ⟨.svc, none⟩ TSU_RATE_VALUE.addr v 4 hw) s = exec (.rateWrite v) s ∧
    exec (.registerWrite ⟨.svc, none⟩ TSU_STEP_VALUE.addr v 4 hw) s = exec (.step v) s ∧
    exec (.registerWrite ⟨.svc, none⟩ TSU_PPS_NEXT_NS.addr v 4 hw) s = .next (wr TSU_PPS_NEXT_NS v s)) ∧
  (∀ (x : FieldD) (v hw : Nat) (w : Word) (i : Nat), x.lo ≤ x.hi → x.hi < 32 → i < 32 →
    ((x.lo ≤ i ∧ i ≤ x.hi) →
      ((x.acc = .rw ∨ x.acc = .wo) → (writtenWord [x] v hw w).getLsbD i = v.testBit i) ∧
      (x.acc = .w1c → (writtenWord [x] v hw w).getLsbD i = (hw.testBit i || w.getLsbD i && !v.testBit i)) ∧
      (x.acc ≠ .rw → x.acc ≠ .wo → x.acc ≠ .w1c → (writtenWord [x] v hw w).getLsbD i = w.getLsbD i)) ∧
    ((i < x.lo ∨ x.hi < i) → (writtenWord [x] v hw w).getLsbD i = w.getLsbD i))

/-- A read answers the originator: a register's word, table memory its bytes, an unassigned address 0; BARs translate offsets.
(R2, R6, R11, R12, R30, R31, R32, R473) -/
def Obligations.RegisterReads : Prop :=
  (∀ (s : State) (o : Orig) (a n : Nat) (hw : List Nat), origPresent s.variant o = true → winOf a = none →
    let w := a / 4 * 4
    ((tableKind a).isSome = true →
      exec (.rcRead ⟨o, none⟩ a n hw) s = .next (emit (.readData o a (leNum (memRead ramDefault s.ram a n))) s)) ∧
    (tableKind a = none → tableKind w = none →
      (absentAt s.variant w = true → exec (.rcRead ⟨o, none⟩ a n hw) s = .next (emit (.readData o a 0) s)) ∧
      (unassigned s o w = true → exec (.rcRead ⟨o, none⟩ a n hw) s =
        .next (s |> inc GLB_MAP_MISS_CNT_COUNT |> wr GLB_MAP_MISS_ADDR_ADDR w |> emit (.readData o a 0))) ∧
      (absentAt s.variant w = false → shutOut o w = false → ∀ d is, regAt w = some (d, is) → specialRead o w s = none →
        ((∀ x ∈ d.flds, x.acc ≠ .rc) → exec (.rcRead ⟨o, none⟩ a n hw) s = .next (emit (.readData o a (shown s o d w)) s)) ∧
        (writes o = false → exec (.rcRead ⟨o, none⟩ a n hw) s = .next (emit (.readData o a (shown s o d w)) s)) ∧
        ((∃ x ∈ d.flds, x.acc = .rc) → writes o = true → w ≠ (HLK_EGR_PEAK_BYTES 0).addr → w ≠ (HLK_EGR_PEAK_BYTES 1).addr →
          w ≠ PWR_TJ_PEAK.addr → exec (.rcRead ⟨o, none⟩ a n hw) s =
            .next (s |> setReg w (clearedWord d.flds hw (reg s w)) |> emit (.readData o a (shown s o d w))))))) ∧
  (∀ (x : FieldD) (hw : List Nat) (w : Word) (i : Nat), x.lo ≤ x.hi → x.hi < 32 → i < 32 →
    (x.lo ≤ i ∧ i ≤ x.hi → (x.acc = .wo → (shownWord [x] w).getLsbD i = false) ∧
      (x.acc ≠ .wo → (shownWord [x] w).getLsbD i = w.getLsbD i) ∧
      (x.acc ≠ .rc → (clearedWord [x] hw w).getLsbD i = w.getLsbD i)) ∧
    (x.acc = .rc → fld (clearedWord [x] hw w) x.hi x.lo = min (hw.count x.lo) (2 ^ x.width - 1)) ∧
    ((i < x.lo ∨ x.hi < i) → (shownWord [x] w).getLsbD i = w.getLsbD i ∧ (clearedWord [x] hw w).getLsbD i = w.getLsbD i)) ∧
  (∀ (s : State) (o : Orig) (a : Nat), origPresent s.variant o = true → unassigned s o a = true →
    exec (.unassignedAccess o none a false) s =
      .next (s |> inc GLB_MAP_MISS_CNT_COUNT |> wr GLB_MAP_MISS_ADDR_ADDR a |> emit (.readData o a 0)) ∧
    (writes o = true → exec (.unassignedAccess o none a true) s =
      .next (s |> inc GLB_MAP_MISS_CNT_COUNT |> wr GLB_MAP_MISS_ADDR_ADDR a))) ∧
  (∀ (s : State) (o : Orig) (off b base : Nat), origPresent s.variant o = true → (o = .hp0 ∨ o = .hp1) →
    ((b = 0 ∧ base = 0 ∧ (off < 0x1000000 ∨ 0x3000000 ≤ off ∧ off < 0x4000000) ∨ b = 2 ∧ base = 0x1000000 ∧ off < 0x2000000 ∨
        b = 4 ∧ base = 0x10000000 ∧ off < 0x40000000) →
      (∀ n hw, exec (.rcRead ⟨o, some b⟩ off n hw) s = exec (.rcRead ⟨o, none⟩ (base + off) n hw) s) ∧
      (∀ v n hw, exec (.registerWrite ⟨o, some b⟩ off v n hw) s = exec (.registerWrite ⟨o, none⟩ (base + off) v n hw) s) ∧
      (∀ k, exec (.unassignedAccess o (some b) off k) s = exec (.unassignedAccess o none (base + off) k) s) ∧
      (∀ k be data, exec (.bridgeAccess ⟨o, some b⟩ off k be data) s = exec (.bridgeAccess ⟨o, none⟩ (base + off) k be data) s)) ∧
    (0x1000000 ≤ off → off < 0x3000000 →
      let t := s |> inc GLB_MAP_MISS_CNT_COUNT |> wr GLB_MAP_MISS_ADDR_ADDR off
      (∀ n hw, exec (.rcRead ⟨o, some 0⟩ off n hw) s = .next (emit (.readData o off 0) t)) ∧
      (∀ v n hw, exec (.registerWrite ⟨o, some 0⟩ off v n hw) s = .next t) ∧
      exec (.unassignedAccess o (some 0) off false) s = .next (emit (.readData o off 0) t) ∧
      exec (.unassignedAccess o (some 0) off true) s = .next t) ∧
    (0x40000000 ≤ off → ∀ n hw v, exec (.rcRead ⟨o, some b⟩ off n hw) s = .next s ∧
      exec (.registerWrite ⟨o, some b⟩ off v n v) s = .next s))

/-- CFG words go into the basting bank by its owner, LIVE words into the basting copy, and neither touches what is active. (R8,
R10, R66, R67, R74, R82, R83, R84, R88) -/
def Obligations.BastingWrites : Prop :=
  (∀ (s : State) (w : Writer) (a v : Nat), isCfgAt s a = true → isLiveWord a = false → (∀ o, w = .bus o → o ≠ .t1) →
    ((owns s w = true ∨ mayTake s w = true ∧ ∀ o, w = .bus o → sessionOf s o 0 = true) → ∃ t,
      let u := if owns s w = true then s else takeBank w s
      let c := checkWord u s.cfgB a v (2 ^ 32 - 1) (cfgDesc a) (bankWord s.chip s.cfgB a)
      exec (.cfgBastingWrite w a v) s = .next t ∧
      t = reportWrite a c.2 { u with cfgB := sset (regReset s.chip) s.cfgB a c.1 } ∧
      bankWord t.chip t.cfgB a = c.1 ∧ (∀ b, b ≠ a → bankWord t.chip t.cfgB b = bankWord s.chip s.cfgB b) ∧
      t.cfgA = s.cfgA ∧ t.cfgO = s.cfgO ∧ t.liveA = s.liveA ∧ t.liveB = s.liveB) ∧
    (owns s w = false → (mayTake s w = false ∨ ∃ o, w = .bus o ∧ sessionOf s o 0 = false) →
      (∀ o, w = .bus o → exec (.cfgBastingWrite w a v) s = .next (s |> inc GLB_CFG_DENY_CNT_COUNT |> wr GLB_CFG_DENY_ADDR_ADDR a)) ∧
      ((∀ o, w ≠ .bus o) → ∃ t, exec (.cfgBastingWrite w a v) s = .next t ∧ w ∈ t.ldr.waiting ∧
        ∀ x, x ≠ .ldr → StateField.same x s t))) ∧
  (∀ (s : State) (o : Orig) (a v : Nat), isLiveWord a = true → isCfgAt s a = true →
    ((o = .svc ∨ sessionOf s o 0 = true) →
      let c := checkWord s s.liveB a v (2 ^ 32 - 1) (cfgDesc a) (bankWord s.chip s.liveB a)
      let u := { s with liveB := sset (regReset s.chip) s.liveB a c.1 }
      exec (.liveWrite o a v) s = .next (if c.2 = [] then u else inc LDR_LIVE_CLAMP_CNT_COUNT u)) ∧
    (o ≠ .svc → o ≠ .t1 → sessionOf s o 0 = false →
      exec (.liveWrite o a v) s = .next (s |> inc GLB_CFG_DENY_CNT_COUNT |> wr GLB_CFG_DENY_ADDR_ADDR a))) ∧
  (∀ (s : State) (o : Orig) (k v : Nat), viewBit o = some k → origPresent s.variant o = true →
    ∃ t, exec (.ldrViewWrite o v) s = .next t ∧ (∀ x, x ≠ .regs → StateField.same x s t) ∧
      (∀ j, hasBit (rd t LDR_VIEW_ACTIVE) j = if j = k then hasBit v k else hasBit (rd s LDR_VIEW_ACTIVE) j) ∧
      ∀ b, b ≠ LDR_VIEW_ACTIVE.addr → reg t b = reg s b) ∧
  (∀ (s : State) (c a : Nat), c < 16384 →
    ((a = (CTX_WB_GAIN0 c).addr ∨ a = (CTX_WB_GAIN2 c).addr ∨ a = (CTX_DGAIN c).addr ∨ a = (CTX_EXP_TIME c).addr) →
      bankWord s.chip (liveRefresh c s).liveA a = bankWord s.chip s.liveB a) ∧
    ((a ≠ (CTX_WB_GAIN0 c).addr ∧ a ≠ (CTX_WB_GAIN2 c).addr ∧ a ≠ (CTX_DGAIN c).addr ∧ a ≠ (CTX_EXP_TIME c).addr) →
      bankWord s.chip (liveRefresh c s).liveA a = bankWord s.chip s.liveA a))

/-- The owner requests a swap; the new epoch reaches the islands one by one; the swap completes when nothing old is left. (R74,
R75, R76, R77, R87, R421, R78, R79, R80, R81) -/
def Obligations.SwapRequests : Prop :=
  ((∀ s : State,
    (owns s .profileSelection = true →
      exec (.swapRequest .profileSelection) s = .next (acceptSwap .profileSelection s.ldr.swapProfile s)) ∧
    (owns s .loader = true → s.ldr.phase = .swap → s.ldr.trained = true →
      exec (.swapRequest .loader) s = .next (loadSwapRequest s)) ∧
    (owns s .reserveManager = true → exec (.swapRequest .reserveManager) s = .next (checkedSwap .reserveManager s)) ∧
    (∀ o, o ≠ .t1 → (owns s (.bus o) = true → exec (.swapRequest (.bus o)) s = .next (checkedSwap (.bus o) s)) ∧
      (owns s (.bus o) = false →
        exec (.swapRequest (.bus o)) s = .next (deny 0x10020 s) ∧ exec (.discard (.bus o)) s = .next (deny 0x10024 s))) ∧
    (∀ w, owns s w = true → w ≠ .reserveManager →
      exec (.discard w) s = .next ({ s with cfgB := s.cfgA } |> wr LDR_STAT_OWNER 0)) ∧
    (owns s .reserveManager = true →
      exec (.discard .reserveManager) s = .next ({ s with cfgB := s.cfgA } |> wr LDR_STAT_OWNER 0 |> replRefused)) ∧
    (rd s LDR_STAT_OWNER = 1 → exec .ownerTimeout s =
      .next (discardBank { s with ldr := { s.ldr with phase := if s.ldr.phase = .run then .run else .records } })) ∧
    (rd s LDR_STAT_OWNER = 2 → exec .ownerTimeout s = .next (discardBank s)) ∧
    (rd s LDR_STAT_OWNER = 3 → exec .ownerTimeout s = .next (s |> discardBank |> replRefused)) ∧
    (rd s LDR_STAT_OWNER = 4 → exec .ownerTimeout s = .next s) ∧
    (bankFree s = true → isSafe s = false →
      (Writer.reserveManager ∈ s.ldr.waiting → exec .bastingGrant s = .next (s |> takeBank .reserveManager |> reserveGranted)) ∧
      (Writer.reserveManager ∉ s.ldr.waiting → Writer.loader ∈ s.ldr.waiting →
        exec .bastingGrant s = .next (takeBank .loader s)) ∧
      (Writer.reserveManager ∉ s.ldr.waiting → Writer.loader ∉ s.ldr.waiting → Writer.profileSelection ∈ s.ldr.waiting →
        exec .bastingGrant s = .next (profileSwap (rd s LDR_PROF_STAT_CANDIDATE) s)))) ∧
  (∀ (s : State) (w : Writer) (p : Nat),
    let t := acceptSwap w p s
    t.cfgO = s.cfgA ∧ t.cfgA = s.cfgB ∧ t.cfgB = s.cfgB ∧ t.liveA = s.liveA ∧ t.liveB = s.liveB ∧
    epochOld t = epochActive s ∧ epochActive t = nextEpoch s % 2 ^ 16 ∧ isSet t LDR_STAT_SWAP_BUSY = true ∧ rd t LDR_STAT_OWNER = 0 ∧
    t.islEpoch = s.islEpoch ∧ t.frames = s.frames)) ∧
  ((∀ (s : State) (i : Nat), i < 40 → islPresent s.variant i = true → islandEpoch s i ≠ epochActive s →
    exec (.epochReachesIsland i) s = .next (checkSwap (kickSlices (adoptBank i (bankOf s (islandEpoch s i))
      { s with islEpoch := sset (fun _ => 0) s.islEpoch i (epochActive s) })))) ∧
  (∀ s : State, swapReady s = true →
    (checkSwap s).cfgB = s.cfgA ∧ (checkSwap s).cfgA = s.cfgA ∧ epochOld (checkSwap s) = epochActive s ∧
    epochActive (checkSwap s) = epochActive s ∧ isSet (checkSwap s) LDR_STAT_SWAP_BUSY = false ∧
    rd (checkSwap s) LDR_EVT_SWAP_DONE = 1) ∧
  (∀ s : State, swapReady s = false → checkSwap s = s) ∧
  (∀ (s : State) (f : FrameSt), f ∈ s.frames → inFlight f = true → f.epoch = epochOld s → epochOld s ≠ epochActive s →
    swapReady s = false) ∧
  (∀ s : State, isSet s LDR_STAT_SWAP_BUSY = true → s.ldr.swapForced = false → ∃ t u : State,
    exec .swapTimeout s = .next u ∧ u = checkSwap (kickSlices t) ∧ t.ldr.swapForced = true ∧
    (∀ p, p < 20 → ∀ g, (camOf t p).trig = some g → g.epoch ≠ epochOld s ∨ waitsForStart g = false) ∧
    ((s.frames.map (·.id)).Nodup → ∀ f ∈ t.frames, f.isOpen = true → f.epoch = epochOld s → 20 ≤ f.port)) ∧
  (∀ s : State, isSet s LDR_STAT_SWAP_BUSY = false → exec .swapTimeout s = .next s))

/-- Sampling MODE, starting selection, evaluating the profiles, and the relay's swap at time S. (R85, R86, R414) -/
def Obligations.ProfileSelection : Prop :=
  (∀ (s : State) (v : Nat), ∃ t, exec (.modeSample v) s = .next t ∧
    (v % 8 = s.ldr.modeCand → s.ldr.modeRun = 20 → rd t LDR_PROF_STAT_MODE = v % 8) ∧
    (v % 8 ≠ s.ldr.modeCand → v % 8 ≠ rd s LDR_PROF_STAT_MODE → t.ldr.modeCand = v % 8 ∧ t.ldr.modeRun = 1 ∧
      rd t LDR_PROF_STAT_MODE = rd s LDR_PROF_STAT_MODE)) ∧
  (∀ s : State,
    (s.ldr.phase = .run → exec .profileSelectionStart s = .next { s with ldr := { s.ldr with selecting := true } }) ∧
    (s.ldr.phase ≠ .run → exec .profileSelectionStart s = .next s) ∧
    (s.ldr.selecting = true → isSafe s = false → stoppedB s = false → (relayOn s && role s == 2) = false →
      exec .profileEvaluation s = .next (evaluate s)) ∧
    (∀ p at_, s.rly.profile = some (p, at_) → isSafe s = false → exec .profileSwapAtS s =
      .next ({ s with rly := { s.rly with profile := none }, ldr := { s.ldr with candSince := upNs s } }
        |> wr LDR_PROF_STAT_CANDIDATE p |> profileOrWait p))) ∧
  (∀ (ps : List Profile) (mode v cur c : Nat), candidate ps mode v cur = some c →
    (∃ p ∈ ps, p.index = c ∧ profileEnter mode v p = true) ∧
    (currentStays ps mode v cur = true → c < cur) ∧
    ∀ p ∈ ps, profileEnter mode v p = true → (currentStays ps mode v cur = true → p.index < cur) → c ≤ p.index)

/-- Reset takes everything back but fuses, flash and the journal memory; release begins the load. (R307, R432, R445, R446) -/
def Obligations.ResetAndCrystal : Prop :=
  (∀ (s : State) (b : Bool), ∃ t, exec (.resetNAssert b) s = .next t ∧ t.pending = s.pending ∧ t.chip = s.chip ∧
    ((b = true ∨ isSet s MNT_STAT_SESSION = false) → t.jmem = s.jmem) ∧ (b = false → t.jmem = (endSession s).jmem) ∧
    (s.mnt.op = none → t.flash = s.flash ∧ t.rollback = s.rollback ∧ t.freeCount = s.freeCount) ∧
    t.regs = [] ∧ t.cfgA = [] ∧ t.cfgB = [] ∧ t.cfgO = [] ∧ t.liveA = [] ∧ t.liveB = [] ∧ t.frames = [] ∧ t.queues = [] ∧
    t.chans = [] ∧ t.islEpoch = [] ∧ t.ram = [] ∧ t.now = 0 ∧ t.ldr.phase = .held ∧ t.pins.safeN = false ∧
    t.pins.crystal = (s.pins.crystal && !b)) ∧
  (∀ s : State, exec .crystalStable s = .next { s with pins := { s.pins with crystal := true } }) ∧
  (∀ (s : State) (high : Bool) (a : Nat),
    (s.ldr.phase = .held → s.pins.crystal = true →
      exec (.resetRelease high a) s = .next
        ((let u := { s with pins := { s.pins with taddr := a % 4 }, now := 0, time := { s.time with stepped := 0, rateAcc := 0 } }
          { u with cfgB := freshBank u, cfgA := freshBank u, cfgO := freshBank u, cfgX := freshBank u })
        |> wr MNT_STAT_ARMED (bit (!high)) |> openJournal |> addTotal 2 1 |> beginLoad false)) ∧
    ((s.pins.crystal = false ∨ s.ldr.phase ≠ .held) → exec (.resetRelease high a) s = .next s)) ∧
  State.reset.Canonical ∧ State.reset.pending = [] ∧ State.reset.now = 0 ∧ State.reset.out = [] ∧ epochActive State.reset = 0 ∧
  isSafe State.reset = false ∧ isSet State.reset MNT_STAT_SESSION = false ∧ rd State.reset LDR_STAT_OWNER = 0

/-- The load goes header, verification, records, cross-field checks; a failed check rejects the image by its cause. (R61, R63,
R64, R66, R68, R74, R265) -/
def Obligations.LoadOfAnImage : Prop :=
  ∀ s : State,
    (s.ldr.phase = .header →
      (headerCause s s.ldr.slot = none →
        exec .imageHeaderRead s = .next ({ s with ldr := { s.ldr with phase := .verify } } |> wr LDR_STAT_STATE 2)) ∧
      (∀ c, headerCause s s.ldr.slot = some c → exec .imageHeaderRead s = .next (rejectImage c s))) ∧
    (s.ldr.phase ≠ .header → exec .imageHeaderRead s = .next s) ∧
    (s.ldr.phase = .verify →
      (bodyCause s s.ldr.slot s.rollback = none →
        exec .imageVerified s = .next ({ s with ldr := { s.ldr with phase := .records } } |> wr LDR_STAT_STATE 3)) ∧
      (∀ c, bodyCause s s.ldr.slot s.rollback = some c → exec .imageVerified s = .next (rejectImage c s))) ∧
    (s.ldr.phase = .records →
      (s.ldr.slot = 2 → exec .recordsCheck s = .next (romPattern s)) ∧
      (s.ldr.slot ≠ 2 → owns s .loader = false → mayTake s .loader = false → exec .recordsCheck s = .next (waitBank .loader s)) ∧
      (s.ldr.slot ≠ 2 → (owns s .loader = true ∨ mayTake s .loader = true) → ∃ t u : State, exec .recordsCheck s = .next t ∧
        u = loadRecords (imageBytes (s |> takeBank .loader |> freshLoad |> profileHeader) s.ldr.slot)
          (s |> takeBank .loader |> freshLoad |> profileHeader) ∧
        t = { u with ldr := { u.ldr with phase := .cross } })) ∧
    (s.ldr.phase = .cross → owns s .loader = true →
      (∀ u n, runStages 0xFF s = (u, some n) → exec .crossFieldChecks s = .next (u |> discardBank |> rejectImage 0x0C)) ∧
      (∀ u, runStages 0xFF s = (u, none) → s.ldr.profiles = [] → u.ldr.profiles = [] →
        ∃ t, exec .crossFieldChecks s = .next t ∧ t.ldr.phase = .swap ∧ t.ldr.baseSet = u.cfgB ∧ t.cfgB = u.cfgB)) ∧
    (s.ldr.phase ≠ .held → s.ldr.trained = false →
      exec .lpddrTrained s = .next (each s.ldr.held (fun bs => qPut 1 uLDR (bytesToWords 8 bs))
        { s with ldr := { s.ldr with trained := true, held := [] } }))

/-- Clock loss, crossings, lockstep, the reserve pair's takeover, checkpoints and the IDCODE. (R20, R21, R22, R24, R25, R428,
R457) -/
def Obligations.IslandsAndServicePairs : Prop :=
  (∀ (s : State) (i : Nat), i < 40 → islPresent s.variant i = true → isSet s (fallbackBit i) = false →
    (i = islTIME → exec (.pllLossOfLock i) s = .next (s |> wr (fallbackBit i) 1 |> fatalError (tsuErr 4 0))) ∧
    (i ≠ islTIME → ¬(22 ≤ i ∧ i < 28) →
      exec (.pllLossOfLock i) s = .next (s |> wr (fallbackBit i) 1 |> recordError (glbErr 3 i 0) |> wearSignal 5 i 0 0)) ∧
    (22 ≤ i → i < 28 → exec (.pllLossOfLock i) s =
      .next (s |> wr (fallbackBit i) 1 |> recordError (glbErr 3 i 0) |> wearSignal 0 (i - 22) 0 0))) ∧
  (∀ (s : State) (src dst pair : Nat) (lost : List (Nat × Nat)), src < 40 → dst < 40 → src ≠ dst →
    islPresent s.variant src = true → islPresent s.variant dst = true →
    let u := s |> wr GLB_XING_TO_SRC src |> wr GLB_XING_TO_DST dst |> inc GLB_XING_TO_COUNT
    (fatalIsland dst = true → exec (.crossingTimeout src dst pair lost) s = .next (fatalError (glbErr 1 src dst) u)) ∧
    (fatalIsland dst = false → exec (.crossingTimeout src dst pair lost) s =
      .next (u |> recordError (glbErr 2 src dst) |> recoverIsland dst pair lost |> crossingWear dst pair |> wearRecord))) ∧
  (∀ (s : State) (p : Nat), p < 3 → hasBit (rd s SVC_STAT_FAILED) p = false →
    let u := wr SVC_STAT_FAILED (withBit (rd s SVC_STAT_FAILED) p) s
    (p ≠ rd u SVC_STAT_PAIR_A → p ≠ rd u SVC_STAT_PAIR_B → exec (.lockstepMismatch p) s = .next (wr SVC_EVT_PAIR_FAIL 1 u)) ∧
    ((p = rd u SVC_STAT_PAIR_A ∨ p = rd u SVC_STAT_PAIR_B) →
      (reservePair u = none → exec (.lockstepMismatch p) s = .next (fatalError ((svcErr 2 p).setting SVC_EVT_PAIR_FAIL) u)) ∧
      (reservePair u ≠ none → popCount 3 (rd u SVC_STAT_FAILED) ≤ 1 →
        exec (.lockstepMismatch p) s = .next (recordError ((svcErr 1 p).setting SVC_EVT_PAIR_FAIL) u)))) ∧
  (∀ (s : State) (r : Nat), reservePair s = some r → isSafe s = false →
    let u := doHeartbeatSend s
    (stoppedA s = true → exec .reservePairTakeover s = .next ({ wr SVC_STAT_PAIR_A r u with loops := u.checkpoint.loops }
      |> wr SVC_EVT_TAKEOVER 1 |> finishRepl ⟨4, rd s SVC_STAT_PAIR_A, 0, rd s SVC_STAT_PAIR_A, r, 0⟩)) ∧
    (stoppedA s = false → stoppedB s = true → exec .reservePairTakeover s =
      .next ({ wr SVC_STAT_PAIR_B r u with ldr := { u.ldr with
          candSince := u.checkpoint.candSince, modeCand := u.checkpoint.modeCand, modeRun := u.checkpoint.modeRun } }
        |> wr SVC_EVT_TAKEOVER 1 |> finishRepl ⟨4, rd s SVC_STAT_PAIR_B, 0, rd s SVC_STAT_PAIR_B, r, 0⟩))) ∧
  (∀ s : State, ∃ x, exec .checkpointWrite s = .next { s with checkpoint := x, chkAt := upNs s } ∧
    x.loops = (if stoppedA s then s.checkpoint.loops else s.loops) ∧
    (x.candSince, x.modeCand, x.modeRun) = (if stoppedB s then (s.checkpoint.candSince, s.checkpoint.modeCand, s.checkpoint.modeRun)
      else (s.ldr.candSince, s.ldr.modeCand, s.ldr.modeRun))) ∧
  (∀ (s : State) (e : ErrInfo), isSafe (fatalError e s) = true ∧ (isSafe (logError true e s) = false →
    (fatalError e s).pins.safeN = false ∧ (fatalError e s).frames = [] ∧ (fatalError e s).running = [] ∧
    (fatalError e s).pins.pwm = 0)) ∧
  (∀ s : State, idcode s % 2 = 1 ∧ idcode s / 2 % 2 ^ 11 = 0x2E9 ∧ idcode s / 2 ^ 12 % 2 ^ 16 = fld (reg s 0x0) 15 0 ∧
    idcode s / 2 ^ 28 = fld (reg s 0x4) 11 8 ∧ idcode s < 2 ^ 32)

/-- Lines enter the seam in order, a frame at the seam ends once all its lines have, and a composite stops waiting. (R210, R214,
R217, R220, R225, R408, R413) -/
def Obligations.SeamLinesAndFrameEnds : Prop :=
  ∀ (s : State) (c : Nat),
    (∀ f l rest bad, atSeam s c = some f → f.outq = l :: rest → (classM s f && s.rly.offered && f.entered == 0) = false →
      exec (.seamLine c bad) s = .next (passOrHold { f with outq := rest, entered := f.entered + 1 } l bad
        (let u := s |> putFrame { f with outq := rest, entered := f.entered + 1 } |> wr (CTX_LINES_OUT c) (f.entered + 1)
         let v := if f.entered = 0 then enterSeam { f with outq := rest, entered := f.entered + 1 } u else u
         if hasBit l.flags 4 = true then sealFailed f v else v))) ∧
    (∀ f bad, atSeam s c = some f →
      (allEntered s f = true → ∃ u : State, exec (.seamFrameEnd c bad) s =
        .next ((if u.frames.any (fun g => g.ctx == c && !g.ended && !g.gone) then u else wr (CTX_FSTATE c) 0 u)
          |> closeComplete bad |> commitBaton) ∧
        ∀ x ∈ u.outs, ∀ p ∈ x.srcs, p.frame = some (ingressCheck f s).1.id → p.final.isSome = true) ∧
      (allEntered s f = false → f.isOpen = false → f.outq = [] →
        exec (.seamFrameEnd c bad) s = .next (if newerFrame s f then s else wr (CTX_FSTATE c) 3 s)) ∧
      (allEntered s f = false → f.isOpen = true → exec (.seamFrameEnd c bad) s = .next s)) ∧
    (∀ o x, s.outs.find? (fun x => x.o == o && waitsFor x) = some x → ∃ y : OutFrame,
      exec (.compositeWaitExpire o) s = .next (s |> putOut y |> emitDue x.serial true [] (x.total + 1) |> closeComplete []) ∧
      y.serial = x.serial ∧ ∀ p ∈ y.srcs, p.got < x.total → p.final.isSome = true) ∧
    (∀ x, waitsFor x = true ↔ x.mode = 1 ∧ (∃ p ∈ x.srcs, x.total ≤ p.got) ∧ (∃ p ∈ x.srcs, p.got < x.total) ∧
      (x.srcs.filter fun p => decide (p.got < x.total) && p.frame.isSome).length ≤ 1)

/-- Hold rings freeze and release; a CSI-2 transmit port takes its configuration, restarts its PHY and sends its packets in order.
(R141, R228, R229, R230, R231) -/
def Obligations.HoldAndTransmitPorts : Prop :=
  (∀ (s : State) (c : Nat), c < ctxCount s.variant →
    (0 < act s (CTX_HOLD_FRAMES c) →
      exec (.holdFreeze c) s = .next (wr (CTX_FROZEN c) 1 s) ∧ exec (.holdRelease c) s = .next (wr (CTX_FROZEN c) 0 s)) ∧
    (act s (CTX_HOLD_FRAMES c) = 0 → exec (.holdFreeze c) s = .next s ∧ exec (.holdRelease c) s = .next s)) ∧
  (∀ (s : State) (p : Nat), txHere s p = true →
    ((txOf s p).begun = [] → (txOf s p).queue = [] → exec (.csi2TxConfigApply p) s = .next (applyTx p s)) ∧
    ((txOf s p).begun ≠ [] ∨ (txOf s p).queue ≠ [] → exec (.csi2TxConfigApply p) s = .next s) ∧
    ((txOf s p).restarting = true →
      exec (.csi2PhyRestartDone p) s = .next (s |> setTx p { txOf s p with restarting := false } |> wr (CTX2_STAT_ACTIVE p) 1)) ∧
    (∀ t rest, (txOf s p).queue = t :: rest → (txOf s p).restarting = false → txEnabled s p = true →
      (t.dt ≠ 1 → exec (.csi2TxPacketSent p) s =
        .next (s |> setTx p { txOf s p with queue := rest } |> emit (.csi2 p t.vc t.dt t.bytes))) ∧
      (t.dt = 1 → exec (.csi2TxPacketSent p) s =
        .next (s |> setTx p { txOf s p with queue := rest } |> emit (.csi2 p t.vc t.dt t.bytes) |> inc (CTX2_CNT_FRAMES p)))))

/-- Self-tests, spare tests, wear and replacement, table memory, and the errors that end in the safe state. (R158, R161, R304,
R306, R417, R420, R421, R422, R427, R428, R473) -/
def Obligations.TestsWearAndReplacement : Prop :=
  (∀ (s : State) (l : Nat), l < activeSlices s.variant → (∀ r ∈ s.running, r.slice ≠ l) →
    let n := act s RSV_SLICE_MAP_PHYS / 8 ^ l % 8
    s.rsv.failed.contains (0, n) = false →
    exec (.selfTestInGap l 0) s = .next s ∧
    exec (.selfTestInGap l 1) s = .next (s |> inc RSV_TEST_DONE |> wr RSV_TEST_STARVED 0) ∧
    exec (.selfTestInGap l 2) s = .next (sliceFailed n s)) ∧
  (∀ (s : State) (n : Nat), reserveSlice s = some n → s.rsv.failed.contains (0, n) = false →
    exec (.reserveSelfTest true) s = .next (inc RSV_TEST_DONE s) ∧ exec (.reserveSelfTest false) s = .next (sliceFailed n s)) ∧
  (∀ s : State, exec .selfTestStarved s = .next (wr RSV_TEST_STARVED 1 s)) ∧
  (∀ (s : State) (k n : Nat), (k = 1 ∨ k = 2 ∨ k = 5) → s.rsv.failed.contains (k, n) = false →
    exec (.spareTest k n true) s = .next (inc RSV_TEST_DONE s) ∧
    exec (.spareTest k n false) s =
      .next (s |> noteFailed k n |> addTotal (5 + k) 1 |> recordError ((rsvErr 1 k).setting RSV_EVT_WEAR))) ∧
  (∀ (s : State) (k n row sig m : Nat), resourceHere s.variant k n = true →
    let here (d : Nat × Nat × Nat × Nat) : Bool := d.1 == k && d.2.1 == n && d.2.2.1 == row
    let old := s.rsv.wears.filter fun x => x.kind == k && x.inst == n && x.row == row && x.signal == sig &&
      decide (operNs s < x.at_ + wearWindow k)
    (∀ d ∈ s.rsv.due, here d = true → ∃ d' ∈ s.rsv.due, here d' = true ∧ exec (.replaced k n row ⟨sig, m⟩) s =
      .next (replaceFor k n row d'.2.2.2 { s with rsv := { s.rsv with due := s.rsv.due.filter fun x => !here x } })) ∧
    ((∀ d ∈ s.rsv.due, here d = false) →
      (m = 0 → exec (.replaced k n row ⟨sig, m⟩) s = .next s) ∧
      (m ≠ 0 → (old.map (·.count)).sum + m < wearLimit s k sig → ∃ w, exec (.replaced k n row ⟨sig, m⟩) s =
        .next { s with rsv := { s.rsv with wears := w ++ old ++ [⟨k, n, row, sig, operNs s, m⟩] } }) ∧
      (m ≠ 0 → wearLimit s k sig ≤ (old.map (·.count)).sum + m → ∃ w u : State,
        w = recordError ((rsvErr 1 k).setting RSV_EVT_WEAR) u ∧ (∃ x, u = { s with rsv := { s.rsv with wears := x } }) ∧
        exec (.replaced k n row ⟨sig, m⟩) s = .next (replaceFor k n row sig w)))) ∧
  (∀ (s : State) (r : Repl) (rest : List Repl) (m : Nat × Nat), stoppedB s = false → s.rsv.refused = r :: rest →
    s.rsv.cur = none → r ∉ s.rsv.waiting →
    newMapOf s r.kind r.inst r.row = some m →
    exec .replaceRetry s = .next (beginRepl { r with oldMap := m.1, newMap := m.2 } s)) ∧
  (∀ (s : State) (o : Orig) (a k : Nat) (bytes : List (Option Nat)), origPresent s.variant o = true → o ≠ .t1 →
    tableKind a = some k → k ≠ 1 → (∀ x ∈ selected a bytes, tableKind x.1 = some k) →
    (sessionOf s o 0 = false → ∃ t, exec (.tableMemoryWrite o a bytes) s = .next t ∧ t = deny a s ∧ t.ram = s.ram) ∧
    (sessionOf s o 0 = true → (∀ x ∈ selected a bytes, inRanges (storeRanges s) x.1 = false ∧
        inRanges ((tableBanks s).flatMap (protectedIn s.chip)) x.1 = false) →
      exec (.tableMemoryWrite o a bytes) s = .next (each (selected a bytes) (fun x s => tableWrite x.1 [x.2 % 256] s) s))) ∧
  (∀ (s : State) (src t : Nat), exec (.evcArrayEcc src t) s = .next (fatalError (evcErr 3 (src % 2048) (t % 4)) s) ∧
    exec .supplyFault s = .next (fatalError (rsvErr 5 0) s)) ∧
  (∀ (s : State) (tj : Nat),
    (1400 < sgn 16 (tj % 2 ^ 16) → exec (.overtemperature tj) s = .next (s |> noteTj tj |> fatalError (rsvErr 6 0))) ∧
    (sgn 16 (tj % 2 ^ 16) ≤ 1400 → exec (.overtemperature tj) s = .next s))

/-- Journal records within the rate or dropped and counted, ageing, the core voltage, and the steps of an exposure loop. (R205,
R206, R305, R419, R423, R426, R449) -/
def Obligations.JournalAndLoops : Prop :=
  (∀ (s : State) (t : Nat) (bs : List Nat) (rest : List (Nat × List Nat)) (bad : Bool), stoppedB s = false →
    s.jnl.pend = (t, bs) :: rest →
    let u : State := { s with jnl := { s.jnl with pend := rest } }
    ((neverDropped t = true ∨ s.jnl.secCount < cfgI s islSVC JNL_CFG_MAX_RPS) →
      exec (.journalRecord bad) s = .next (
        if bad = true then recordError ((jnlErr 1).setting JNL_EVT_FAIL) (journal t bs u) else journal t bs u)) ∧
    (neverDropped t = false → cfgI s islSVC JNL_CFG_MAX_RPS ≤ s.jnl.secCount →
      exec (.journalRecord bad) s = .next ({ u with jnl := { u.jnl with dropped := smod (fun _ => 0) s.jnl.dropped t (· + 1) } }
        |> inc JNL_DROP_COUNT |> wr JNL_EVT_DROP 1))) ∧
  (∀ s : State, stoppedB s = false →
    let u := if s.jnl.dropped = [] then s else
      journal 4 ((List.range 10).flatMap fun i => leBytes 2 (min 0xFFFF (sget (fun _ => 0) s.jnl.dropped (i + 1)))) s
    exec .dropSummary s = .next { u with jnl := { u.jnl with dropped := [], secCount := 0, secStart := upNs s } }) ∧
  (∀ (s : State) (freqs : List Nat),
    let ds := (freqs.take 40).zipIdx.filterMap fun f =>
      if islPresent s.variant f.2 then some (f.2, min 0xFFFF (driftOf s.chip.ageBase f.1)) else none
    (∀ d ∈ ds, d.2 ≤ 800) →
    exec (.ageingMeasure true freqs) s =
      .next (s |> wr RSV_AGE_ISLAND (worstDrift ds).1 |> wr RSV_AGE_DRIFT (worstDrift ds).2 |> wearRecord)) ∧
  (∀ (s : State) (mv tj : Nat) (v : List Nat), s.ldr.loaded = true → s.vcore.stopped = false → 720 ≤ mv → mv ≤ 800 → mv % 5 = 0 →
    vcoreRecord (noteTj tj s) = some v →
    let u : State := { noteTj tj s with vcore := { s.vcore with target := mv } }
    (vcoreBusy s = true → exec (.vcoreAdjust mv tj) s = .next u) ∧
    (vcoreBusy s = false → leAt v 1 1 ≠ 0xFF → s.vcore.exponent = none →
      exec (.vcoreAdjust mv tj) s = .next (vcoreTxn 0 [0x00, leAt v 1 1] 0 u))) ∧
  (∀ (s : State) (x : Nat × List Nat) (rest : List (Nat × List Nat)) (v : List Nat), stoppedA s = false → s.svcStats = x :: rest →
    let bs := wordsToBytes x.2
    let c := leAt bs 0 2
    let mean := meanOf (s.freeCount + 9) (tally (dominants (act s (CTX_CFA c))) (cellsOf bs))
    let u : State := { s with svcStats := rest, freeCount := s.freeCount + 10 }
    loopRecord s c = some v → loopRuns s.chip s.cfgA c = true → leAt bs 3 1 % 4 = 0 → passive s (act s (CTX_PORT c)) = false → ∃ wb,
      (hasBit (leAt v 2 1) 0 = true → 0 < mean → exec .exposureLoopUpdate s =
        .next (setLoop c ⟨(loopOf s c).upds.filter (fun y => y.stage ≠ .gap) ++
          [⟨.gap, (exposureStep v bs mean).1, (exposureStep v bs mean).2, wb⟩]⟩ u)) ∧
      ((hasBit (leAt v 2 1) 0 = false ∨ mean = 0) → hasBit (leAt v 2 1) 1 = true → exec .exposureLoopUpdate s =
        .next (setLoop c ⟨(loopOf s c).upds ++ [⟨.effect 0, leAt bs 0x10 2, leAt bs 0x12 2, wb⟩]⟩ u))) ∧
  (∀ (s : State) (c : Nat) (v : List Nat), stoppedA s = false → loopRecord s c = some v → loopRuns s.chip s.cfgA c = true →
    passive s (act s (CTX_PORT c)) = false →
    (∀ y, (loopOf s c).upds.find? (fun y => y.stage == .gap) = some y → (∀ w ∈ (loopOf s c).upds, w.stage ≠ .writing) →
      exec (.expRegWrite c) s =
        .next ({ s with freeCount := s.freeCount + 1 } |> setLoop c ⟨restage .gap .writing (loopOf s c).upds⟩
          |> queueTxn (act s (CTX_PORT c)) ⟨.loop c, leAt v 7 1, beBytes 2 (leAt v 8 2)
            ++ beBytes 2 (expLines y.exp (act s (CTX_LINE_NS c)) s.freeCount), 0⟩)) ∧
    (∀ y us, (loopOf s c).upds = y :: us → y.stage = .effect 0 → ∃ t, exec (.liveBlockWrite c) s = .next t ∧
      (let g (k : Nat) : Nat := min 0xFFFF (y.wb.getD k 0)
       t = (s |> setLoop c ⟨us⟩ |> liveWrite (CTX_WB_GAIN0 c).addr (g 0 + g 1 * 2 ^ 16)
          |> liveWrite (CTX_WB_GAIN2 c).addr (g 2 + g 3 * 2 ^ 16) |> liveWrite (CTX_DGAIN c).addr (y.dgain + leAt v 0x10 2 * 2 ^ 16)
          |> liveWrite (CTX_EXP_TIME c).addr (leAt v 0x12 2 + y.exp * 2 ^ 16))) ∧
      t.cfgA = s.cfgA ∧ t.cfgB = s.cfgB ∧ t.liveA = s.liveA))

/-- A two-wire controller starts the next transaction of a free bus, retries lost arbitration, and ends each transaction to its
owner. (R357, R358, R359, R360, R361, R363, R372, R471) -/
def Obligations.TwoWireControllers : Prop :=
  (∀ (s : State) (i : Nat) (t : Txn), isController s i = true →
    (nextTxn (twbOf s i) = some t →
      (rd s (TWB_STAT_STATE i) = 0 → notReady s i t = false →
        exec (.transactionStart i true none) s = .next (resumeTarget (s |> setTwb i { takeTxn (twbOf s i) with cur := some t }
          |> wr (TWB_STAT_STATE i) 1 |> emit (txnEmit i t))) ∧
        exec (.transactionStart i false none) s = .next (resumeTarget (wr (TWB_STAT_STATE i) 2 s)) ∧
        (∀ at_, (takeTxn (twbOf s i)).losses + 1 ≤ cfgI (arbLost i at_ s) (twbIsland i) (TWB_CFG_ARB_RETRY i) →
          exec (.transactionStart i true (some at_)) s = .next (resumeTarget (arbLost i at_ s
            |> setTwb i { takeTxn (twbOf s i) with cur := some t, losses := (takeTxn (twbOf s i)).losses + 1 }
            |> wr (TWB_STAT_STATE i) 2))) ∧
        (∀ at_, cfgI (arbLost i at_ s) (twbIsland i) (TWB_CFG_ARB_RETRY i) < (takeTxn (twbOf s i)).losses + 1 →
          exec (.transactionStart i true (some at_)) s = .next (resumeTarget (arbLost i at_ s
            |> setTwb i { takeTxn (twbOf s i) with losses := 0 } |> wr (TWB_STAT_STATE i) 0
            |> recordError ((twbErr 2 i t.addr7).setting (TWB_EVT_ARB_FAIL i)) |> txnResult t.owner 3 [])))) ∧
      (rd s (TWB_STAT_STATE i) = 0 → notReady s i t = true → ∀ free lost, exec (.transactionStart i free lost) s =
        .next (resumeTarget (s |> setTwb i { takeTxn (twbOf s i) with losses := 0 } |> wr (TWB_STAT_STATE i) 0
          |> txnResult t.owner 2 []))) ∧
      (rd s (TWB_STAT_STATE i) ≠ 1 →
        exec (.busStuckRecovery i true) s = .next (resumeTarget (s |> wr (TWB_STAT_STATE i) 0 |> inc (TWB_CNT_RECOVER i))) ∧
        exec (.busStuckRecovery i false) s = .next (resumeTarget (s |> wr (TWB_STAT_STATE i) 4 |> inc (TWB_CNT2_STUCK i)
          |> wr (TWB_EVT_BUS_STUCK i) 1 |> setTwb i { takeTxn (twbOf s i) with losses := 0 } |> txnResult t.owner 0x0B [])))) ∧
    ((twbOf s i).cur = some t → rd s (TWB_STAT_STATE i) = 1 →
      (∀ data, exec (.transactionDone i true data) s = .next (resumeTarget (s |> setTwb i { twbOf s i with cur := none, losses := 0 }
        |> wr (TWB_STAT_STATE i) 0 |> txnResult t.owner 0 (padTo t.rdLen data)))) ∧
      (∀ data, exec (.transactionDone i false data) s = .next (resumeTarget (s |> inc (TWB_CNT_NACK i) |> wr (TWB_EVT_NACK i) 1
        |> setTwb i { twbOf s i with cur := none, losses := 0 } |> wr (TWB_STAT_STATE i) 0 |> txnResult t.owner 1 (padTo t.rdLen [])))) ∧
      exec (.stretchTimeout i) s = .next (resumeTarget (s |> inc (TWB_CNT_TIMEOUT i) |> wr (TWB_EVT_TIMEOUT i) 1
        |> setTwb i { twbOf s i with cur := none, losses := 0 } |> wr (TWB_STAT_STATE i) 3 |> txnResult t.owner 4 (padTo t.rdLen []))))) ∧
  (∀ s : State, (wantedOf s 0).2 = 0 ∨ (targetWaits s).isSome = true → resumeTarget s = s)

/-- Target writes and reads word by word, self-reset, waking, the alert response and the data timeout. (R362, R363, R364, R366,
R367, R368, R369) -/
def Obligations.TwoWireTargets : Prop :=
  (∀ (s : State) (t addr7 a : Nat), t < 2 →
    (targetTakes s t addr7 = false → (∀ bytes e, exec (.targetWrite t addr7 a bytes e) s = .next s) ∧
      ∀ n, exec (.targetRead t addr7 a n) s = .next s) ∧
    (targetTakes s t addr7 = true →
      (∀ n, exec (.targetRead t addr7 a n) s = .next (targetReadWords t n (setWanted t (a % 2 ^ 32 / 4 * 4, n) s))) ∧
      (t = 1 → ∀ bytes e, exec (.targetWrite t addr7 a bytes e) s = .next s) ∧
      (t = 0 → cfgI s islAO (TWB_T_CFG_PEC 0) ≠ 1 → ∀ bytes e,
        (bytes.length % 4 = 0 → e ≠ 2 →
          exec (.targetWrite t addr7 a bytes e) s = .next (targetWriteWords bytes (a % 2 ^ 32 / 4 * 4) s)) ∧
        (bytes.length % 4 ≠ 0 → exec (.targetWrite t addr7 a bytes e) s =
          .next (cutShort addr7 ((a % 2 ^ 32 / 4 * 4 + 4 * (bytes.length / 4)) % 2 ^ 32)
            (targetWriteWords (bytes.take (4 * (bytes.length / 4))) (a % 2 ^ 32 / 4 * 4) s)))) ∧
      (t = 0 → cfgI s islAO (TWB_T_CFG_PEC 0) = 1 → ∀ ws pec, ws.length % 4 = 0 → ws ≠ [] → ws.length ≤ 64 →
        (pec8 ([addr7 % 128 * 2] ++ leBytes 4 a ++ ws) = pec →
          exec (.targetWrite t addr7 a (ws ++ [pec]) 0) s = .next (targetWriteWords ws (a % 2 ^ 32 / 4 * 4) s)) ∧
        (pec8 ([addr7 % 128 * 2] ++ leBytes 4 a ++ ws) ≠ pec →
          exec (.targetWrite t addr7 a (ws ++ [pec]) 0) s = .next (s |> inc (TWB_CNT2_PROTO_ERR 21)
            |> recordError ((twbErr 5 21 addr7).setting (TWB_EVT_PEC_ERR 21)))))) ∧
    (targetWaits s = none ∨ t = 1 → exec (.targetSelfReset t) s = .next (s |> setWanted t (0, 0) |> inc (TWB_CNT_TIMEOUT (21 + t))
      |> recordError ((twbErr 3 (21 + t) (cfgI s islAO (TWB_T_ADDR_ADDR t))).setting (TWB_EVT_TIMEOUT (21 + t))))) ∧
    (s.mnt.parked = true → cfgI s islAO (TWB_T_CFG_WAKE t) = 1 → exec (.wakeAddress t) s =
      .next (s |> inc (TWB_CNT2_WAKE (21 + t)) |> wr (TWB_EVT_WAKE (21 + t)) 1 |> askWake (1 + t))) ∧
    (isSet s (TWB_STAT_ALERT (21 + t)) = true → ∃ u, exec (.alertResponse t none) s = .next u ∧
      isSet u (TWB_STAT_ALERT (21 + t)) = false ∧ u.pins.alertLow = isSet s (TWB_STAT_ALERT (22 - t)) ∧
      u.out = s.out ++ [.targetData (21 + t) [cfgI s islAO (TWB_T_ADDR_ADDR t) * 2]]) ∧
    (isSet s (TWB_STAT_ALERT (21 + t)) = true → ∀ at_, exec (.alertResponse t (some at_)) s = .next (arbLost (21 + t) at_ s))) ∧
  (∀ (s : State) (x : BrgAcc), targetWaits s = some x → exec (.targetDataTimeout 0) s =
    .next (resumeTarget (s |> putAcc { x with dead := true } |> emit (.targetData 21 (List.replicate x.be.length 0xFF))))) ∧
  (∀ (s : State) (n : Nat), (targetWaits s).isSome = true → targetReadWords 0 n s = s)

/-- The counter's reads, rate, steps, second boundaries and anchors. (R308, R309, R310, R311, R312, R315, R317) -/
def Obligations.CounterSecondsAndSteps : Prop :=
  ∀ s : State,
    (∀ o, origPresent s.variant o = true → ∃ t, exec (.timeNsRead o) s = .next t ∧
      t.out = s.out ++ [.readData o TSU_TIME_NS_ALL.addr (s.now % 2 ^ 32)] ∧ timeHiOf o t = s.now / 2 ^ 32 % 2 ^ 32 ∧
      (∀ o', origKey o' ≠ origKey o → timeHiOf o' t = timeHiOf o' s) ∧ ∀ x, x ≠ .out → x ≠ .time → StateField.same x s t) ∧
    (stoppedB s = false →
      (∀ v, ∃ t, exec (.rateWrite v) s = .next t ∧
        ((rateAlone s = false ∨ s.time.masterRate = none) →
          sgn 32 (rd t TSU_RATE_VALUE) = clampI (-500000000) 500000000 (sgn 32 v)) ∧
        (∀ m, rateAlone s = true → s.time.masterRate = some m → sgn 32 (rd t TSU_RATE_VALUE) =
          clampI (-500000000) 500000000 (clampI (m - 100000000) (m + 100000000) (sgn 32 v))) ∧
        (∀ a, a ≠ TSU_RATE_VALUE.addr → reg t a = reg s a) ∧ ∀ x, x ≠ .regs → StateField.same x s t) ∧
      (∀ v, rateAlone s = false → ∃ (t : State) (a : AnchorDue), exec (.step v) s = .next t ∧
        (t.now : Int) = (s.now + sgn 32 v) % 2 ^ 64 ∧ (rd t TSU_PPS_NEXT_NS : Int) = (rd s TSU_PPS_NEXT_NS + sgn 32 v) % 2 ^ 32 ∧
        (∀ g, g < 32 → (trgNext t g : Int) = (trgNext s g + sgn 32 v) % 2 ^ 64) ∧
        rd t TSU_STEP_VALUE = v % 2 ^ 32 ∧ rd t TSU_CNT_STEPS = satAdd 16 (rd s TSU_CNT_STEPS) 1 ∧ rd t TSU_EVT_STEPPED = 1 ∧
        t.time.anchors = s.time.anchors ++ [a] ∧ a.extra = true ∧ a.secs = s.time.secs ∧ t.time.armed = s.time.armed ∧
        ∀ x, x ≠ .regs → x ≠ .time → x ≠ .now → StateField.same x s t) ∧
      (∀ v, rateAlone s = true → exec (.step v) s = .next s) ∧
      (∃ k : Int, now64 s < k ∧ k ≤ now64 s + 1000000000 ∧ (k + (if syncState s = 0 then 0 else s.time.base)) % 1000000000 = 0 ∧
        ∀ v, (v % 2 ^ 32 = unsgn 32 k → ∃ t, exec (.ppsNextWrite v) s = .next t ∧ rd t TSU_PPS_NEXT_NS = unsgn 32 k ∧
            (∀ a, a ≠ TSU_PPS_NEXT_NS.addr → reg t a = reg s a) ∧ ∀ x, x ≠ .regs → StateField.same x s t) ∧
          (v % 2 ^ 32 ≠ unsgn 32 k → exec (.ppsNextWrite v) s = .next s)) ∧
      (∀ a rest, s.time.anchors = a :: rest →
        exec .anchorCommit s = .next (commitAnchor a { s with time := { s.time with anchors := rest } })) ∧
      (s.time.anchors = [] → exec .anchorCommit s = .next s)) ∧
    (stoppedB s = true → (∀ v, exec (.rateWrite v) s = .next s ∧ exec (.step v) s = .next s ∧ exec (.ppsNextWrite v) s = .next s) ∧
      exec .anchorCommit s = .next s) ∧
    (reached s (rd s TSU_PPS_NEXT_NS) = true → ∃ (t : State) (a : AnchorDue), exec .secondBoundary s = .next t ∧
      t.time.secs = s.time.secs + 1 ∧ t.time.anchors = s.time.anchors ++ [a] ∧ a.extra = false ∧ a.secs = s.time.secs + 1 ∧
      rd t TSU_PPS_LAST_NS = rd s TSU_PPS_NEXT_NS ∧ rd t TSU_PPS_NEXT_NS = (rd s TSU_PPS_NEXT_NS + 1000000000) % 2 ^ 32 ∧
      ∀ x, x ≠ .regs → x ≠ .time → StateField.same x s t) ∧
    (reached s (rd s TSU_PPS_NEXT_NS) = false → exec .secondBoundary s = .next s) ∧
    ∀ a, (anchorBytes s a).length = 32

/-- The synchronisation states follow the offset measurements and their loss. (R311) -/
def Obligations.SynchronisationStates : Prop :=
  ∀ s : State,
    (s.time.measured = none → exec .offsetMeasurement s = .next s) ∧
    (timeCfg s TSU_CFG_SOURCE = 0 → ∃ t, exec .offsetMeasurement s = .next t ∧ t.time.measured = none ∧ t.now = s.now ∧
      t.time.base = s.time.base ∧ ∀ x, x ≠ .time → StateField.same x s t) ∧
    (∀ off diff at_, s.time.measured = some (off, diff, at_) → timeCfg s TSU_CFG_SOURCE ≠ 0 →
      ∃ t, exec .offsetMeasurement s = .next t ∧ rd t TSU_OFFSET_VALUE = unsgn 32 off ∧ t.time.measured = none ∧
        (syncState s = 0 → syncState t = 1 ∧ rd t TSU_EVT_STATE = 1 ∧
          (off.natAbs ≤ 10000 → t.now = s.now) ∧
          (10000 < off.natAbs → (t.now : Int) = (s.now - off) % 2 ^ 64 ∧ rd t TSU_EVT_STEPPED = 1)) ∧
        (syncState s ≠ 0 → t.now = s.now ∧ rd t TSU_EVT_STEPPED = rd s TSU_EVT_STEPPED) ∧
        (syncState s = 3 → syncState t = 1) ∧
        (syncState s = 1 →
          (off.natAbs ≤ timeCfg s TSU_CFG_LOCK_NS → 7 ≤ s.time.lockRun →
            syncState t = 2 ∧ ∃ a, t.time.anchors = s.time.anchors ++ [a] ∧ a.extra = true) ∧
          (off.natAbs ≤ timeCfg s TSU_CFG_LOCK_NS → s.time.lockRun < 7 →
            syncState t = 1 ∧ t.time.lockRun = s.time.lockRun + 1) ∧
          (timeCfg s TSU_CFG_LOCK_NS < off.natAbs → syncState t = 1 ∧ t.time.lockRun = 0)) ∧
        (syncState s = 2 →
          (4 * timeCfg s TSU_CFG_LOCK_NS < off.natAbs → 1 ≤ s.time.badRun → syncState t = 1) ∧
          (4 * timeCfg s TSU_CFG_LOCK_NS < off.natAbs → s.time.badRun = 0 → syncState t = 2 ∧ t.time.badRun = 1) ∧
          (off.natAbs ≤ 4 * timeCfg s TSU_CFG_LOCK_NS → syncState t = 2 ∧ t.time.badRun = 0))) ∧
    (syncState s = 1 ∨ syncState s = 2 → ∃ u, exec .syncTimeout s = .next (recordError ((tsuErr 1 0).setting TSU_EVT_SYNC_LOST) u) ∧
      u = enterSync 3 s ∧ syncState u = 3 ∧ rd u TSU_EVT_STATE = 1 ∧ u.now = s.now) ∧
    (syncState s ≠ 1 → syncState s ≠ 2 → exec .syncTimeout s = .next s)

/-- Trigger times are written, aligned and fired. (R316, R317, R318, R319, R320, R321, R322) -/
def Obligations.TriggerGenerators : Prop :=
  ∀ (s : State) (g : Nat),
    ((trgEnabled s g = false ∨ hasBit s.time.armed g = false ∨ now64 s < firePoint s (trgNext s g)) →
      exec (.triggerFire g) s = .next s) ∧
    (trgEnabled s g = true → hasBit s.time.armed g = true → firePoint s (trgNext s g) ≤ now64 s →
      ∃ u v : State, exec (.triggerFire g) s = .next (checkSwap u) ∧
        v = (((List.range 20).filter fun p => hasBit (timeCfg s (TSU_TRG_CFG_PORTS g)) p && cpPresent s.variant p).foldl
          (fireAtPort g (trgNext s g) (islandEpoch s islTIME)) s |> firePwm g (trgNext s g)) ∧
        trgNext u g = (trgNext s g + timeCfg v (TSU_TRG_PERIOD_NS g)) % 2 ^ 64 ∧ u = setTrgNext g (trgNext u g) v) ∧
    (∀ hi lo, 32 ≤ g ∨ stoppedA s = true → exec (.trgNextWrite g hi lo) s = .next s) ∧
    (∀ hi lo, g < 32 → stoppedA s = false → ∃ u, exec (.triggerFire g) s = .next u ∧
      let x := hi % 2 ^ 32 * 2 ^ 32 + lo % 2 ^ 32
      (firePoint u x < now64 u + 1000 →
        exec (.trgNextWrite g hi lo) s = .next (recordError ((tsuErr 2 g).setting TSU_EVT_TRG_REJ) u)) ∧
      (now64 u + 1000 ≤ firePoint u x →
        ∃ t, exec (.trgNextWrite g hi lo) s = .next t ∧ trgNext t g = x ∧
          hasBit t.time.armed g = true ∧ (∀ g', g' < 32 → g' ≠ g → trgNext t g' = trgNext u g') ∧
          ∀ x, x ≠ .regs → x ≠ .time → StateField.same x u t)) ∧
    (trgEnabled s g = true → stoppedA s = false → ∃ u, exec (.triggerFire g) s = .next u ∧
      (0 < timeCfg u (TSU_TRG_PERIOD_NS g) →
      ∃ tm : Int, tm < max (sgn 64 (trgNext u g)) (now64 u + 1000 + timeCfg u TSU_TRG_ADV_US * 1000)
          + timeCfg u (TSU_TRG_PERIOD_NS g) ∧
        max (sgn 64 (trgNext u g)) (now64 u + 1000 + timeCfg u TSU_TRG_ADV_US * 1000) ≤ tm ∧
        (tm + (if syncState u = 0 then 0 else u.time.base) - timeCfg u (TSU_TRG_PHASE_NS g)) % timeCfg u (TSU_TRG_PERIOD_NS g) = 0 ∧
        (tm < 2 ^ 63 → ∃ t, exec (.triggerRealign g) s = .next t ∧
          trgNext t g = unsgn 64 tm ∧ hasBit t.time.armed g = true ∧ ∀ x, x ≠ .regs → x ≠ .time → StateField.same x u t))) ∧
    (trgEnabled s g = false ∨ stoppedA s = true → exec (.triggerRealign g) s = .next s) ∧
    (∀ x : Mid, 64 ≤ s.time.mids.length →
      queueMid g x s = (s |> inc TSU_CNT_MID_OVF |> recordError ((tsuErr 3 g).setting TSU_EVT_MID_OVF)))

/-- Sync, Follow_Up and peer-delay messages make offset and delay measurements. (R311, R313, R314) -/
def Obligations.SyncAndPeerDelay : Prop :=
  ∀ (s : State) (p d seq : Nat),
    (ptpOn s p d = true → let y := ethOf s p
      (ethCfg s (ETH_CFG_ROLE p) = 1 →
        (∀ stamp, exec (.sync p d seq stamp) s = .next (setEth p { y with sync := some (seq, rxTime s p stamp) } s)) ∧
        (∀ rx (origin corr rate : Nat) gm, y.sync = some (seq, rx) →
          let c := rndDiv (sgn 64 corr * 10) (2 ^ 16)
          let u := setEth p { y with sync := none, follow := some (origin, c, sgn 32 rate, rx) } s
          let diff := rndDiv ((origin : Int) + c + 10 * rd s (ETH_STAT_PDELAY p) - rx) 10
          exec (.followUp p d seq origin corr rate gm) s =
            .next (if timeCfg s TSU_CFG_SOURCE = 1 ∧ timeCfg s TSU_CFG_SLAVE_EP = p ∧ asCapable s p = true then
                { u with time := { u.time with
                    measured := some (sgn 32 (unsgn 32 (-diff)), diff, rndDiv rx 10), gmId := padTo 8 gm } }
              else u))) ∧
      (∀ rx tx, exec (.pdelayReq p d seq rx tx) s =
        .next (s |> emit (.ethFrame p 3 [d, seq, unsgn 64 (rxTime s p rx + 10 * s.time.base)])
          |> emit (.ethFrame p 4 [d, seq, unsgn 64 (txTime s p tx + 10 * s.time.base)]))) ∧
      (∀ reqRx stamp, y.reqAt.isSome = true → y.pdSeq = seq →
        exec (.pdelayResp p d seq reqRx stamp) s = .next (setEth p { y with respAt := some (rxTime s p stamp, (reqRx : Int)) } s)) ∧
      (∀ (t1 t4 t2 : Int) (t3 : Nat), y.reqAt = some t1 → y.respAt = some (t4, t2) → y.pdSeq = seq →
        let delay := rndDiv ((t4 - t1) - ((t3 : Int) - t2)) 20
        let u := s |> setEth p { y with
            reqAt := none, respAt := none, missed := 0, good := if delay ≤ 10000 then min 2 (y.good + 1) else 0,
            nrr := neighbourRate y t3 t4, lastResp := some ((t3 : Int), t4) } |> wr (ETH_STAT_PDELAY p) (min 0xFFFF delay.toNat)
        exec (.pdelayRespFollowUp p d seq t3) s =
          .next (if delay ≤ 10000 ∧ 1 ≤ y.good then wr (ETH_STAT_AS_CAPABLE p) 1 u else u))) ∧
    (ptpOn s p d = false → (∀ stamp, exec (.sync p d seq stamp) s = .next s) ∧
      (∀ a b c gm, exec (.followUp p d seq a b c gm) s = .next s) ∧ (∀ a b, exec (.pdelayReq p d seq a b) s = .next s) ∧
      (∀ a b, exec (.pdelayResp p d seq a b) s = .next s) ∧ ∀ a, exec (.pdelayRespFollowUp p d seq a) s = .next s) ∧
    (ethOn s p = true → stoppedB s = false → let y := ethOf s p
      (∀ stamp, ethCfg s (ETH_CFG_ROLE p) = 2 →
        let send (o c r : Int) (gm : List Nat) : State :=
          s |> setEth p { y with syncSeq := (y.syncSeq + 1) % 65536 } |> emit (.ethFrame p 0 [ethCfg s (ETH_CFG_DOMAIN p), y.syncSeq])
            |> emit (.ethFrame p 1 ([ethCfg s (ETH_CFG_DOMAIN p), y.syncSeq, unsgn 64 o, unsgn 64 c, unsgn 32 r] ++ gm))
        (slavePort s = none →
          exec (.syncSend p stamp) s = .next (send (txTime s p stamp + 10 * s.time.base) 0 0 (beBytes 8 s.chip.uid))) ∧
        (∀ q o c r rx, slavePort s = some q → (ethOf s q).follow = some (o, c, r, rx) →
          let rate := chainRates r (ethOf s q).nrr
          let w : Int := 10 * rd s (ETH_STAT_PDELAY q) + (txTime s p stamp - rx)
          exec (.syncSend p stamp) s = .next (send o (c + w + rndDiv (w * rate) (2 ^ 41)) rate s.time.gmId)) ∧
        (∀ q, slavePort s = some q → (ethOf s q).follow = none → exec (.syncSend p stamp) s = .next s)) ∧
      (∀ stamp, let send (u : State) : State :=
          u |> setEth p { ethOf u p with
            pdSeq := ((ethOf u p).pdSeq + 1) % 65536, reqAt := some (txTime u p stamp), respAt := none }
          |> emit (.ethFrame p 2 [ethCfg u (ETH_CFG_DOMAIN p), ((ethOf u p).pdSeq + 1) % 65536])
        (y.reqAt = none → exec (.pdelayReqSend p stamp) s = .next (send s)) ∧
        (y.reqAt.isSome = true → y.missed < 2 →
          exec (.pdelayReqSend p stamp) s = .next (send (setEth p { y with missed := y.missed + 1, good := 0 } s))) ∧
        (y.reqAt.isSome = true → 2 ≤ y.missed → ∃ u, ethOf u p = { y with missed := 0, good := 0 } ∧ asCapable u p = false ∧
          (∀ x, x ≠ .eths → x ≠ .regs → StateField.same x s u) ∧
          let v := recordError ((ethErr 2 p).setting (ETH_EVT_PDELAY_FAIL p)) u
          exec (.pdelayReqSend p stamp) s =
            .next (send (if asCapable s p = true ∧ timeCfg s TSU_CFG_SOURCE = 1 ∧ timeCfg s TSU_CFG_SLAVE_EP = p
              then loseSync v else v))))) ∧
    (stoppedB s = true → ∀ stamp, exec (.syncSend p stamp) s = .next s ∧ exec (.pdelayReqSend p stamp) s = .next s)

/-- Frames that Ethernet ports take, drop or count bad, their links, and the diagnostic channel. (R323, R324, R325) -/
def Obligations.EthernetFramesAndLinks : Prop :=
  ∀ (s : State) (p : Nat),
    (ethOn s p = true →
      (∀ len tags ty dst bad, (bad = true ∨ len < 64 ∨ 1522 < len) → exec (.ethFrameReceive p len tags ty dst bad) s =
        .next (s |> inc (ETH_CNT_RX_ERR p) |> recordError ((ethErr 3 p).setting (ETH_EVT_RX_ERR p)))) ∧
      (∀ len tags ty dst, 64 ≤ len → len ≤ 1522 →
        (tags ≤ 1 → ((ty = 0x88F7 ∧ dst = 0x0E0000C28001) ∨
            (ty = 0x88B5 ∧ dst = ethMac s p ∧ ethCfg s (ETH_CFG_DIAG_EN p) = 1)) →
          exec (.ethFrameReceive p len tags ty dst false) s = .next s) ∧
        (¬ (tags ≤ 1 ∧ ((ty = 0x88F7 ∧ dst = 0x0E0000C28001) ∨
            (ty = 0x88B5 ∧ dst = ethMac s p ∧ ethCfg s (ETH_CFG_DIAG_EN p) = 1))) →
          exec (.ethFrameReceive p len tags ty dst false) s = .next (inc (ETH_CNT_DROP p) s))) ∧
      (∀ src tag ver op seq addr n,
        (ethCfg s (ETH_CFG_DIAG_EN p) ≠ 1 →
          exec (.diagRequest p src tag ver op seq addr n) s = .next (inc (ETH_CNT_DROP p) s)) ∧
        (ethCfg s (ETH_CFG_DIAG_EN p) = 1 → 100 ≤ (ethOf s p).diagCount → upNs s < (ethOf s p).diagFrom + 1000000000 →
          exec (.diagRequest p src tag ver op seq addr n) s =
            .next (s |> inc (ETH_CNT2_DIAG_LIMIT p) |> wr (ETH_EVT_DIAG_LIMIT p) 1)) ∧
        (ethCfg s (ETH_CFG_DIAG_EN p) = 1 → (ethOf s p).diagCount < 100 →
          (ver ≠ 1 ∨ op ≠ 1 ∨ addr % 4 ≠ 0 ∨ n = 0 ∨ 256 < n) →
          ∃ t, exec (.diagRequest p src tag ver op seq addr n) s = .next t ∧
            t.out = s.out ++ [.ethFrame p 5 (leBytes 6 src ++ leBytes 3 tag ++ [1, 0x81] ++ leBytes 2 seq ++ leBytes 4 addr
              ++ leBytes 2 n ++ leBytes 2 1)] ∧
            rd t (ETH_CNT2_DIAG p) = satAdd 16 (rd s (ETH_CNT2_DIAG p)) 1 ∧
            ∀ x, x ≠ .regs → x ≠ .eths → x ≠ .out → StateField.same x s t))) ∧
    (ethHere s p = true →
      (isSet s (ETH_STAT_LINK p) = false → ∃ t, exec (.ethLinkUp p) s = .next t ∧ rd t (ETH_STAT_LINK p) = 1 ∧
        rd t (ETH_EVT_LINK_UP p) = 1 ∧ exec (.ethLinkUp p) t = .next t ∧ exec (.ethLinkDown p) s = .next s) ∧
      (isSet s (ETH_STAT_LINK p) = true → ∃ t,
        exec (.ethLinkDown p) s = .next (recordError ((ethErr 1 p).setting (ETH_EVT_LINK_DOWN p)) t) ∧
        rd t (ETH_STAT_LINK p) = 0 ∧ exec (.ethLinkUp p) s = .next s ∧
        ∀ x, x ≠ .regs → StateField.same x s t))

/-- Quadrature and Hall edges count, fire the compares they cross, or are illegal; index edges set the count; compares are armed.
(R329, R330, R333, R334, R335, R336, R337) -/
def Obligations.ChannelEdges : Prop :=
  (∀ (s : State) (n lv : Nat), posPresent s.variant = true → n < 4 →
    (chType s n = 1 → lv % 4 = (chSt s n).lines → exec (.inputEdge n lv) s = .next s) ∧
    (∀ d, ((chType s n = 1 ∧ lv % 4 ≠ (chSt s n).lines ∧
          cycleStep 4 (quadPlace (chSt s n).lines) (quadPlace (lv % 4)) = some d) ∨
        (chType s n = 2 ∧ lv % 8 ≠ (chSt s n).lines ∧ ∃ a b, hallPlace (chSt s n).lines = some a ∧ hallPlace (lv % 8) = some b ∧
          cycleStep 6 a b = some d)) →
      ∃ t, exec (.inputEdge n lv) s = .next t ∧
        (∀ m, m < 4 → m ≠ n → chCount t m = chCount s m) ∧
        (chValid s n = false ∨ (chSt s n).skip = true → chCount t n = chCount s n) ∧
        (chValid s n = true → (chSt s n).skip = false →
          (chCount t n : Int) = (chCount s n + invertDir s n d) % 2 ^ 32 ∧
          rd t (POS_CH_STAT_DIR_KNOWN n) = 1 ∧ rd t (POS_CH_STAT_REVERSE n) = bit (decide (invertDir s n d < 0)) ∧
          ∀ i, i < 8 →
            (rd s (POS_CMP_CFG_CH i) = n → isSet s (POS_CMP_CFG_ARM i) = true → rd s (POS_CMP_POS_T i) = chCount t n →
              hasBit (rd t POS_CMP_EVT_FIRED) i = true ∧ rd t (POS_CMP_CFG_ARM i) = 0) ∧
            (rd s (POS_CMP_CFG_CH i) ≠ n ∨ isSet s (POS_CMP_CFG_ARM i) = false ∨ rd s (POS_CMP_POS_T i) ≠ chCount t n →
              hasBit (rd t POS_CMP_EVT_FIRED) i = hasBit (rd s POS_CMP_EVT_FIRED) i ∧
              rd t (POS_CMP_CFG_ARM i) = rd s (POS_CMP_CFG_ARM i)))) ∧
    (chType s n = 1 → lv % 4 ≠ (chSt s n).lines → cycleStep 4 (quadPlace (chSt s n).lines) (quadPlace (lv % 4)) = none →
      ∃ t, exec (.inputEdge n lv) s = .next t ∧ chCount t n = chCount s n ∧ rd t POS_EVT_ILLEGAL = 1 ∧
        rd t (POS_CH_ERRCNT_ILLEGAL n) = satAdd 16 (rd s (POS_CH_ERRCNT_ILLEGAL n)) 1 ∧
        (posCfg s (POS_CH_CFG_ILL_MAX n) ≤ 1 + ((chSt s n).illegals.filter fun u =>
            decide (upNs s < u + 10000000)).length → chValid t n = false)) ∧
    (chType s n = 1 → posCfg s (POS_CH_CFG_Z_EN n) = 1 → chValid s n = true → isSet s (POS_CH_STAT_REF n) = false →
      ∃ t, exec (.indexEdge n) s = .next t ∧ chCount t n = posCfg s (POS_CH_Z_Z_VALUE n) ∧ rd t (POS_CH_STAT_REF n) = 1 ∧
        chValid t n = true ∧ (∀ a, a ≠ (POS_CH_CNT_ALL n).addr → a ≠ (POS_CH_STAT_ALL n).addr → reg t a = reg s a) ∧
        ∀ x, x ≠ .regs → x ≠ .mot → StateField.same x s t) ∧
    (chType s n ≠ 1 ∨ posCfg s (POS_CH_CFG_Z_EN n) ≠ 1 ∨ chValid s n = false ∨ isSet s (POS_CH_STAT_REF n) = true →
      exec (.indexEdge n) s = .next s)) ∧
  ∀ (s : State) (i v : Nat), posPresent s.variant = true → i < 8 →
    ∃ t, exec (.compareArm i v) s = .next t ∧ rd t (POS_CMP_CFG_CH i) = v % 4 ∧ rd t (POS_CMP_CFG_ARM i) = v / 8 % 2 ∧
      (v / 8 % 2 = 1 → rd t (POS_CMP_CFG_BEHIND i) = behindOf (isSet s (POS_CH_STAT_DIR_KNOWN (v % 4)))
        (chSt s (v % 4)).dir (chCount s (v % 4)) (rd s (POS_CMP_POS_T i))) ∧
      (v / 8 % 2 = 0 → rd t (POS_CMP_CFG_BEHIND i) = rd s (POS_CMP_CFG_BEHIND i)) ∧
      (∀ a, a ≠ (POS_CMP_CFG_ALL i).addr → reg t a = reg s a) ∧ ∀ x, x ≠ .regs → StateField.same x s t

/-- Sin/cos samples and SENT messages step their channels or count as errors, and channels lose and regain validity. (R270, R331,
R332, R333, R334) -/
def Obligations.ChannelSamples : Prop :=
  ∀ (s : State) (n : Nat), posPresent s.variant = true → n < 4 →
    (∀ a b r2, chType s n = 3 → ∀ cs cc : Nat, a = ((cs % 4096 : Nat) : Int) - posCfg s (POS_CH_SC_OFF_S n) →
      b = ((cc % 4096 : Nat) : Int) - posCfg s (POS_CH_SC_OFF_C n) → r2 = a * a + b * b →
      ((r2 < (posCfg s (POS_CH_AMP_AMP_MIN n) : Int) ^ 2 ∨ (posCfg s (POS_CH_AMP_AMP_MAX n) : Int) ^ 2 < r2) →
        ∃ t, exec (.sincosSample n cs cc) s = .next t ∧ chCount t n = chCount s n ∧ rd t POS_EVT_AMP_ERR = 1 ∧
          rd t (POS_CH_ERRCNT_AMP n) = satAdd 8 (rd s (POS_CH_ERRCNT_AMP n)) 1 ∧
          (7 ≤ (chSt s n).ampRun → chValid t n = false) ∧
          ((chSt s n).ampRun < 7 → chValid t n = chValid s n ∧ (chSt t n).ampRun = (chSt s n).ampRun + 1)) ∧
      ((posCfg s (POS_CH_AMP_AMP_MIN n) : Int) ^ 2 ≤ r2 → r2 ≤ (posCfg s (POS_CH_AMP_AMP_MAX n) : Int) ^ 2 →
        ∃ ang, (ang = atan2u16 a b ∨ ang = (atan2u16 a b + 1) % 65536 ∨ (ang + 1) % 65536 = atan2u16 a b) ∧
          exec (.sincosSample n cs cc) s = .next (angleStep n ang { s with freeCount := s.freeCount + 1 }))) ∧
    (∀ tick nibs crc pause bad ago, chType s n = 4 →
      (bad = true ∨ sentGood s n tick nibs crc pause = false →
        ∃ t, exec (.sentMessage n tick nibs crc pause bad ago) s = .next t ∧ chCount t n = chCount s n ∧
          rd t POS_EVT_SENT_ERR = 1 ∧ rd t (POS_CH_ERRCNT_SENT n) = satAdd 8 (rd s (POS_CH_ERRCNT_SENT n)) 1 ∧
          (3 ≤ (chSt s n).badRun → chValid t n = false) ∧ ((chSt s n).badRun < 3 → chValid t n = chValid s n)) ∧
      (bad = false → sentGood s n tick nibs crc pause = true → chValid s n = true → (chSt s n).skip = false →
        ∀ v, v = ((nibs.drop (posCfg s (POS_CH_SENT_FIRST n))).take (posCfg s (POS_CH_SENT_WIDTH n))).foldl (fun a b => 16 * a + b) 0 →
        ∃ t, exec (.sentMessage n tick nibs crc pause bad ago) s = .next t ∧ (chSt t n).fine = some v ∧
          ((chSt s n).fine = none → chCount t n = chCount s n) ∧
          (∀ old, (chSt s n).fine = some old → (chCount t n : Int) = (chCount s n + invertDir s n
            (sgn (4 * posCfg s (POS_CH_SENT_WIDTH n)) (v + 2 ^ (4 * posCfg s (POS_CH_SENT_WIDTH n)) - old))) % 2 ^ 32))) ∧
    (chType s n = 4 → chValid s n = true →
      ∃ t, exec (.sentTimeout n) s = .next t ∧ chValid t n = false ∧ rd t (POS_CH_STAT_REF n) = 0 ∧ chCount t n = chCount s n ∧
        ((qEnabled s 2 = false ∨ (queueOf s 2).opn = none) → rd t POS_EVT_CH_LOST = 1)) ∧
    (chType s n = 4 → chValid s n = false → exec (.sentTimeout n) s = .next s) ∧
    (1 ≤ chType s n → chType s n ≤ 4 → chValid s n = false →
      ∃ t, exec (.channelRevalid n) s = .next t ∧ chValid t n = true ∧ rd t POS_EVT_CH_VALID = 1 ∧
        rd t (POS_CH_STAT_REF n) = (if chType s n = 1 ∧ posCfg s (POS_CH_CFG_Z_EN n) = 1 then 0 else 1) ∧
        chCount t n = chCount s n ∧ ∀ x, x ≠ .regs → x ≠ .mot → StateField.same x s t) ∧
    (chValid s n = true → exec (.channelRevalid n) s = .next s)

/-- Observers update and come to rest, snapshots and history entries give frames their motion, emulators step. (R302, R308, R338,
R339, R340, R342, R343, R344) -/
def Obligations.ObserversSnapshotsAndHistory : Prop :=
  ∀ s : State, posPresent s.variant = true →
    (∃ t, exec .observerUpdate s = .next t ∧ (∀ n, n < 4 → chCount t n = chCount s n ∧
      (chValid s n = true → chType s n ≠ 0 →
        (chSt t n).p = (observe (posCfg s (POS_CH_CFG_OBS_BW n)) (measure s n) (chSt s n)).p ∧
        (chSt t n).v = (observe (posCfg s (POS_CH_CFG_OBS_BW n)) (measure s n) (chSt s n)).v ∧
        (chSt t n).a = (observe (posCfg s (POS_CH_CFG_OBS_BW n)) (measure s n) (chSt s n)).a ∧
        rd t (POS_CH_V_V n) = unsgn 32 ((chSt t n).v / 2 ^ 8)) ∧
      (chValid s n = false → chSt t n = chSt s n)) ∧ ∀ x, x ≠ .regs → x ≠ .mot → StateField.same x s t) ∧
    (∀ n, n < 4 → 1 ≤ chType s n → chType s n ≤ 4 →
      ((chSt s n).stepUp + posCfg s POS_SEL_STILL_MS * 1000000 ≤ upNs s →
        ∃ t, exec (.standstill n) s = .next t ∧ rd t (POS_CH_STAT_DIR_KNOWN n) = 0 ∧ rd t (POS_CH_STAT_REVERSE n) = 0 ∧
          chCount t n = chCount s n ∧ chValid t n = chValid s n ∧
          (chValid s n = true → (chSt t n).p = measure s n ∧ (chSt t n).v = 0 ∧ (chSt t n).a = 0) ∧
          (chValid s n = false → chSt t n = chSt s n)) ∧
      (upNs s < (chSt s n).stepUp + posCfg s POS_SEL_STILL_MS * 1000000 → exec (.standstill n) s = .next s)) ∧
    ((∀ x ∈ s.time.mids, reached s (x.at_ + 10000) = false ∧ x.due = false) →
      ∃ t, exec .snapshot s = .next t ∧ t.time.mids = s.time.mids ∧ t.frames = s.frames ∧ t.regs = s.regs) ∧
    (∃ t, exec .historyEntry s = .next t ∧ t.mot.hist = (⟨s.now, motionNow s⟩ :: s.mot.hist).take 256 ∧ t.mot.hist.length ≤ 256 ∧
      t.mot.chans = s.mot.chans ∧ ∀ x, x ≠ .mot → StateField.same x s t) ∧
    (∀ c f new old, s.frames.find? (fun f => f.ctx == c && interpolates s f) = some f → s.mot.hist.head? = some new →
      s.mot.hist.getLast? = some old →
      (0 < gapNs f.midNs new.t → exec (.motionInterpolate c) s = .next s) ∧
      (gapNs f.midNs old.t < 0 → gapNs f.midNs new.t ≤ 0 → exec (.motionInterpolate c) s =
        .next (s |> setMotion f.id ⟨0, 0, 0, 0⟩ |> recordError ({ posErr 2 0 with arg1 := f.ctx }.setting POS_EVT_HIST_MISS))) ∧
      (∀ x y, bracket f.midNs s.mot.hist = some (x, y) → gapNs f.midNs new.t ≤ 0 → 0 ≤ gapNs f.midNs old.t →
        0 ≤ gapNs f.midNs x.t ∧ exec (.motionInterpolate c) s = .next (setMotion f.id (interpolate f.midNs x y) s))) ∧
    (∀ c, s.frames.find? (fun f => f.ctx == c && interpolates s f) = none → exec (.motionInterpolate c) s = .next s) ∧
    ∀ e, e < 2 →
      ((emuOf s e).on = false ∨ chValid s (posCfg s (EMU_CFG_CH e)) = false ∨ isSafe s = true ∨ s.mnt.parked = true →
        exec (.emulatorStep e) s = .next s) ∧
      ∃ t, exec (.emulatorStep e) s = .next t ∧ ((emuOf t e).o - (emuOf s e).o).natAbs ≤ 1 ∧
        (∀ e', e' ≠ e → emuOf t e' = emuOf s e') ∧ ∀ n, n < 4 → chCount t n = chCount s n

/-- Power supervisors trip, retry, latch and are released; conversions are measured and compared. (R345, R346, R347, R348, R349) -/
def Obligations.PowerSupervisors : Prop :=
  (∀ (s : State) (p : Nat), hasSupervisor s p = true →
    (powered s p = true → exec (.pocFaultPin p) s = .next (tripPower p 1 s)) ∧
    (powered s p = false → exec (.pocFaultPin p) s = .next s) ∧
    (pwrState s p = 1 → exec (.pgTimeout p) s = .next (tripPower p 4 s)) ∧
    (pwrState s p ≠ 1 → exec (.pgTimeout p) s = .next s ∧ exec (.powerGood p) s = .next s) ∧
    (rd s (PWR_P_MEAS_MV p) < posCfg s (PWR_P_VWIN_UV_MV p) ∨ posCfg s (PWR_P_VWIN_OV_MV p) < rd s (PWR_P_MEAS_MV p) ∨
      currentLimit s p ≤ rd s (PWR_P_MEAS_MA p) → exec (.powerGood p) s = .next s) ∧
    (∀ c, c < 8 → ∃ u, tripPower p c s =
        (u |> recordError ((pwrErr c p).setting (PWR_P_EVT_TRIP p)) |> powerFault p |> kickSlices) ∧
      pwrState u p = 3 ∧ rd u (PWR_P_STAT_PG p) = 0 ∧ rd u (PWR_P_STAT_CAUSE p) = c ∧
      rd u (PWR_P_STAT_ATTEMPT p) = satAdd 5 (rd s (PWR_P_STAT_ATTEMPT p)) 1 ∧
      ∀ x, x ≠ .regs → x ≠ .pins → x ≠ .out → StateField.same x s u) ∧
    (pwrState s p = 1 → posCfg s (PWR_P_VWIN_UV_MV p) ≤ rd s (PWR_P_MEAS_MV p) →
      rd s (PWR_P_MEAS_MV p) ≤ posCfg s (PWR_P_VWIN_OV_MV p) → rd s (PWR_P_MEAS_MA p) < currentLimit s p →
      ∃ u, pwrState u p = 2 ∧ rd u (PWR_P_STAT_PG p) = 1 ∧ rd u (PWR_P_EVT_PG p) = 1 ∧ (pwrOf u p).out = 0 ∧
        (∀ x, x ≠ .regs → x ≠ .pwrs → StateField.same x s u) ∧
        (portState s p ≠ 1 → exec (.powerGood p) s = .next u) ∧ (portState s p = 1 → exec (.powerGood p) s = .next (setState p 2 u))) ∧
    (pwrState s p = 3 →
      (rd s (PWR_P_STAT_ATTEMPT p) ≤ posCfg s PWR_RETRY_RETRY_N → exec (.powerRetry p) s = .next (releasePort p s)) ∧
      (posCfg s PWR_RETRY_RETRY_N < rd s (PWR_P_STAT_ATTEMPT p) → ∃ u,
        exec (.powerRetry p) s = .next (recordError ((pwrErr 5 p).setting (PWR_P_EVT_LATCHED p)) u) ∧ pwrState u p = 4 ∧
        ∀ x, x ≠ .regs → StateField.same x s u)) ∧
    (pwrState s p ≠ 3 → exec (.powerRetry p) s = .next s) ∧
    (pwrState s p = 2 → ∃ t, exec (.attemptReset p) s = .next t ∧ rd t (PWR_P_STAT_ATTEMPT p) = 0 ∧ pwrState t p = 2 ∧
      ∀ x, x ≠ .regs → StateField.same x s t) ∧
    (pwrState s p = 4 → isSafe s = false →
      exec (.powerRelease p) s = .next (releasePort p (wr (PWR_P_STAT_ATTEMPT p) 0 s))) ∧
    (pwrState s p ≠ 4 ∨ isSafe s = true → exec (.powerRelease p) s = .next s) ∧
    (pwrState s p = 2 → rd s (PWR_P_MEAS_MA p) < posCfg s (PWR_P_OPEN_OPEN_MA p) → ∃ t, exec (.openDetect p) s = .next t ∧
      rd t (PWR_P_STAT_OPEN p) = 1 ∧ rd t (PWR_P_EVT_OPEN p) = 1 ∧ pwrState t p = 2 ∧ ∀ x, x ≠ .regs → StateField.same x s t) ∧
    (posCfg s (PWR_P_OPEN_OPEN_MA p) ≤ rd s (PWR_P_MEAS_MA p) → exec (.openDetect p) s = .next s) ∧
    (∀ code mv, s.mnt.parked = false → mv = min 0xFFFF ((code * posCfg s PWR_SCALE_VSCALE + 128) / 256) →
      (posCfg s (PWR_P_VWIN_UV_MV p) ≤ mv → mv ≤ posCfg s (PWR_P_VWIN_OV_MV p) → ∃ t, exec (.adc1Conversion (2 * p) code) s = .next t ∧
        rd t (PWR_P_MEAS_MV p) = mv ∧ pwrState t p = pwrState s p ∧ (pwrOf t p).out = 0 ∧
        ∀ x, x ≠ .regs → x ≠ .pwrs → StateField.same x s t) ∧
      (pwrState s p = 2 → (mv < posCfg s (PWR_P_VWIN_UV_MV p) ∨ posCfg s (PWR_P_VWIN_OV_MV p) < mv) →
        ∃ u, rd u (PWR_P_MEAS_MV p) = mv ∧ (pwrOf u p).out = (pwrOf s p).out + 1 ∧ pwrState u p = 2 ∧
          exec (.adc1Conversion (2 * p) code) s =
            .next (if posCfg s PWR_RETRY_OC_N ≤ (pwrOf s p).out + 1 then tripPower p 3 u else u)))) ∧
  ∀ (s : State) (code : Nat),
    (∀ i, s.mnt.parked = true → exec (.adc1Conversion i code) s = .next s) ∧
    (s.mnt.parked = false → min 0xFFFF ((code * posCfg s PWR_SCALE_VSCALE + 128) / 256) < posCfg s PWR_RAIL_RAIL_UV_MV →
      ∃ u, exec (.adc1Conversion 32 code) s = .next (recordError ((pwrErr 6 0).setting PWR_EVT_RAIL_UV) u) ∧
        rd u PWR_RAIL_MV_MV = min 0xFFFF ((code * posCfg s PWR_SCALE_VSCALE + 128) / 256))

/-- PWM channels run their periods and pulses. (R308, R350, R352) -/
def Obligations.PwmOutputs : Prop :=
  ∀ (s : State) (k : Nat), k < 8 →
    (pwmLive s k = true →
      (posCfg s (PWM_CH_CFG_MODE k) ≠ 1 → exec (.pwmPeriodStart k) s = .next s) ∧
      (∀ d, posCfg s (PWM_CH_CFG_MODE k) = 1 →
        d = (2 * min (rd s (PWM_CH_DUTY_DUTY k)) (posCfg s (PWM_CH_LIM_LIM k)) * posCfg s (PWM_CH_PER_PER k) + 65536) / 131072 →
        ∃ t, exec (.pwmPeriodStart k) s = .next t ∧ (pwmOf t k).until_ = (if d = 0 then none else some (s.now + d)) ∧
          hasBit t.pins.pwm k = decide (d ≠ 0) ∧ (∀ j, j ≠ k → hasBit t.pins.pwm j = hasBit s.pins.pwm j ∧ pwmOf t j = pwmOf s j) ∧
          ∀ x, x ≠ .pwms → x ≠ .pins → x ≠ .out → StateField.same x s t) ∧
      (∀ a b rest, (pwmOf s k).waits = (a, b) :: rest →
        (reached s a = false → exec (.pwmPulseStart k) s = .next s) ∧
        (reached s a = true → ∃ t, exec (.pwmPulseStart k) s = .next t ∧ (pwmOf t k).waits = rest ∧
          ((pwmOf s k).until_ = none → (pwmOf t k).until_ = some b ∧ hasBit t.pins.pwm k = true) ∧
          (∀ u, (pwmOf s k).until_ = some u → (pwmOf t k).until_ = some (if 0 < gapNs b u then b else u) ∧ t.pins = s.pins) ∧
          ∀ x, x ≠ .pwms → x ≠ .pins → x ≠ .out → StateField.same x s t)) ∧
      ((pwmOf s k).waits = [] → exec (.pwmPulseStart k) s = .next s)) ∧
    (pwmLive s k = false → exec (.pwmPeriodStart k) s = .next s ∧ exec (.pwmPulseStart k) s = .next s) ∧
    ((pwmOf s k).until_ = none → exec (.pwmPulseEnd k) s = .next s) ∧
    (∀ u, (pwmOf s k).until_ = some u →
      (reached s u = false → exec (.pwmPulseEnd k) s = .next s) ∧
      (reached s u = true → ∃ t, exec (.pwmPulseEnd k) s = .next t ∧ (pwmOf t k).until_ = none ∧ hasBit t.pins.pwm k = false ∧
        ∀ x, x ≠ .pwms → x ≠ .pins → x ≠ .out → StateField.same x s t))

/-- Fold motors run, brake before they reverse, stop at the end position, and fault on current or time. (R351, R352) -/
def Obligations.FoldMotors : Prop :=
  ∀ (s : State) (m : Nat), m < 2 →
    (let no : Prop := profSpeed s = 0xFFFF ∧ posCfg s (FOLD_VMAX_UNKNOWN_OK m) = 0 ∨
        profSpeed s ≠ 0xFFFF ∧ posCfg s (FOLD_VMAX_VMAX m) < profSpeed s
     let acts (way : Nat) (o : Host.Outcome State Fault Refusal) : Prop :=
        (isSafe s = true ∨ s.mnt.parked = true → o = .next s) ∧
        (isSafe s = false → s.mnt.parked = false →
          (no → o = .next (foldEvt PWM_EVT_FOLD_REJ m s)) ∧
          (¬no →
            (foldState s m = way → o = .next s) ∧
            (foldState s m = 3 → o = .next { s with folds := sset (fun _ => 0) s.folds m way }) ∧
            (foldState s m = 3 - way → ∃ t, o = .next t ∧ foldState t m = 3 ∧ sget (fun _ => 0) t.folds m = way ∧
              hasBit t.pins.fold (2 * m) = false ∧ hasBit t.pins.fold (2 * m + 1) = false) ∧
            (foldState s m ≠ 1 → foldState s m ≠ 2 → foldState s m ≠ 3 → ∃ t, o = .next t ∧ foldState t m = way ∧
              hasBit t.pins.fold (2 * m) = decide (way = 1 ∧ posCfg s (FOLD_CFG_DUTY m) ≠ 0) ∧
              hasBit t.pins.fold (2 * m + 1) = decide (way = 2 ∧ posCfg s (FOLD_CFG_DUTY m) ≠ 0) ∧
              ∀ x, x ≠ .regs → x ≠ .pins → x ≠ .out → StateField.same x s t)))
     acts 1 (exec (.fold m) s) ∧ acts 2 (exec (.unfold m) s)) ∧
    (∃ t, exec (.foldStop m) s = .next t ∧ foldState t m = 0 ∧ hasBit t.pins.fold (2 * m) = false ∧
      hasBit t.pins.fold (2 * m + 1) = false ∧ ∀ x, x ≠ .regs → x ≠ .pins → x ≠ .out → x ≠ .folds → StateField.same x s t) ∧
    (∀ way, foldState s m = 3 → (way = 1 ∨ way = 2) → sget (fun _ => 0) s.folds m = way → ∃ t, exec (.brakeEnd m) s = .next t ∧
      foldState t m = way ∧ hasBit t.pins.fold (2 * m) = decide (way = 1 ∧ posCfg s (FOLD_CFG_DUTY m) ≠ 0) ∧
      hasBit t.pins.fold (2 * m + 1) = decide (way = 2 ∧ posCfg s (FOLD_CFG_DUTY m) ≠ 0)) ∧
    (foldState s m ≠ 3 → exec (.brakeEnd m) s = .next s) ∧
    (foldRuns s m = true →
      (posCfg s (FOLD_LIM_STALL_MA m) ≤ rd s (FOLD_STAT_MA m) → ∃ t, exec (.foldStall m) s = .next t ∧
        foldState t m = foldState s m + 3 ∧ hasBit t.pins.fold (2 * m) = false ∧ hasBit t.pins.fold (2 * m + 1) = false ∧
        rd t ⟨PWM_EVT_FOLD_DONE.addr, PWM_EVT_FOLD_DONE.lo + m, PWM_EVT_FOLD_DONE.lo + m⟩ = 1) ∧
      (rd s (FOLD_STAT_MA m) < posCfg s (FOLD_LIM_STALL_MA m) → exec (.foldStall m) s = .next s) ∧
      ∃ u, exec (.foldTimeout m) s = .next (recordError
          ((foldErr 1 m).setting ⟨PWM_EVT_FOLD_FAULT.addr, PWM_EVT_FOLD_FAULT.lo + m, PWM_EVT_FOLD_FAULT.lo + m⟩) u) ∧
        foldState u m = 6 ∧ hasBit u.pins.fold (2 * m) = false ∧ hasBit u.pins.fold (2 * m + 1) = false) ∧
    (foldRuns s m = false → exec (.foldStall m) s = .next s ∧ exec (.foldTimeout m) s = .next s)

/-- A window's semaphore is granted while free, renewed and released by its holder alone, and expires. (R377, R378) -/
def Obligations.BridgeSemaphores : Prop :=
  ∀ (s : State) (w : Nat), w < 52 →
    (∀ o code, brgCode o = some code → origPresent s.variant o = true →
      (isSet s (BRG_SEM_STAT_HELD w) = false → ∃ t, exec (.take o w) s = .next t ∧ semHolder t w code (brgFid o) = true ∧
        rd t (BRG_SEM_STAT_LAST_REL w) = rd s (BRG_SEM_STAT_LAST_REL w) ∧
        sget (fun _ => 0) t.brg.lease w = upNs s + brgCfg s BRG_CFG_LEASE_US * 1000 ∧ t.brg.accs = s.brg.accs ∧
        (∀ v, v ≠ w → reg t (BRG_SEM_STAT_ALL v).addr = reg s (BRG_SEM_STAT_ALL v).addr) ∧
        ∀ x, x ≠ .regs → x ≠ .brg → StateField.same x s t) ∧
      (semHolder s w code (brgFid o) = true → ∃ t, exec (.take o w) s = .next t ∧
        reg t (BRG_SEM_STAT_ALL w).addr = reg s (BRG_SEM_STAT_ALL w).addr ∧
        sget (fun _ => 0) t.brg.lease w = upNs s + brgCfg s BRG_CFG_LEASE_US * 1000) ∧
      (isSet s (BRG_SEM_STAT_HELD w) = true → semHolder s w code (brgFid o) = false → exec (.take o w) s = .next s) ∧
      (semHolder s w code (brgFid o) = false → exec (.semaphoreRelease o w) s = .next s)) ∧
    (let ends (how : Nat) (r : Host.Outcome State Fault Refusal) : Prop :=
      ∃ t, r = .next t ∧ isSet t (BRG_SEM_STAT_HELD w) = false ∧ rd t (BRG_SEM_STAT_LAST_REL w) = how ∧
        (how = 2 → rd t BRG_EVT_SEM_EXPIRED = 1) ∧ t.brg.accs.length = s.brg.accs.length ∧
        (∀ x, x ∈ t.brg.accs ↔ x ∈ s.brg.accs) ∧
        t.brg.accs.filter (fun x => x.w == w) =
          (s.brg.accs.filter fun x => x.w == w).filter (fun x => x.started || semHolder s w x.orig x.fid)
            ++ (s.brg.accs.filter fun x => x.w == w).filter (fun x => !(x.started || semHolder s w x.orig x.fid)) ∧
        (∀ v, v ≠ w → reg t (BRG_SEM_STAT_ALL v).addr = reg s (BRG_SEM_STAT_ALL v).addr) ∧
        ∀ x, x ≠ .regs → x ≠ .brg → StateField.same x s t
     (∀ o code, brgCode o = some code → semHolder s w code (brgFid o) = true → ends 1 (exec (.semaphoreRelease o w) s)) ∧
     (isSet s (BRG_SEM_STAT_HELD w) = true → ends 2 (exec (.leaseExpire w) s))) ∧
    (isSet s (BRG_SEM_STAT_HELD w) = false → exec (.leaseExpire w) s = .next s)

/-- Accesses to bridge windows are tagged, wait or fail; those that are due start; failures, retries and timeouts end them. (R370,
R371, R372, R374, R376, R373, R375, R378, R379, R380, R381) -/
def Obligations.BridgeAcceptance : Prop :=
  (∀ (s : State) (o : Orig) (addr : Nat) (write : Bool) (be : List Bool) (data : List Nat),
    (winOf addr = none → exec (.bridgeAccess ⟨o, none⟩ addr write be data) s = .next s) ∧
    (∀ w code, winOf addr = some w → brgCode o = some code → code < 3 → origPresent s.variant o = true →
      (20 ≤ w → ownFid s ≠ some (w - 20)) →
      ∃ x : BrgAcc, ∃ u : State, x.tag = s.brg.nextTag ∧ x.w = w ∧ x.orig = code ∧ x.write = write ∧ x.addr = addr ∧ x.be = be ∧
        x.started = false ∧ x.dead = false ∧ x.data = padTo be.length data ∧
        u.brg = { s.brg with nextTag := (s.brg.nextTag + 1) % 2 ^ 16 } ∧
        rd u (BRG_LAST_TAG_BTAG code) = s.brg.nextTag % 2 ^ 16 ∧ (∀ a, a ≠ (BRG_LAST_TAG_ALL code).addr → reg u a = reg s a) ∧
        (∀ y, y ≠ .regs → y ≠ .brg → StateField.same y s u) ∧
        (brgAllowed s w addr be write code = false →
          exec (.bridgeAccess ⟨o, none⟩ addr write be data) s = .next (failAcc x 6 u)) ∧
        (brgAllowed s w addr be write code = true → brgShape s w addr be.length = false →
          exec (.bridgeAccess ⟨o, none⟩ addr write be data) s = .next (failAcc x 7 u)) ∧
        (brgAllowed s w addr be write code = true → brgShape s w addr be.length = true → brgRoom s w write code = false →
          exec (.bridgeAccess ⟨o, none⟩ addr write be data) s = .next (failAcc x 5 u)) ∧
        (brgAllowed s w addr be write code = true → brgShape s w addr be.length = true → brgRoom s w write code = true →
          exec (.bridgeAccess ⟨o, none⟩ addr write be data) s = .next { u with brg := { u.brg with accs := s.brg.accs ++ [x] } })) ∧
    (∀ (x : BrgAcc) (cause : Nat), x.dead = false → x.orig < 2 →
      (x.write = true → failAcc x cause s =
        (s |> inc BRG_CNT_POSTED_FAIL |> recordError ((brgErr x cause).setting BRG_EVT_POSTED_FAIL))) ∧
      (x.write = false → failAcc x cause s = (s |> inc BRG_CNT_READ_FAIL |> recordError ((brgErr x cause).setting BRG_EVT_READ_FAIL)
        |> emit (.readData (if x.orig = 0 then .hp0 else .hp1) x.addr (leNum (List.replicate x.be.length 0xFF)))))) ∧
    (∀ w code, inCompat s = false → brgRoom s w write code = true →
      (s.brg.accs.filter fun x => x.w == w && x.write == write).length < if write then 32 else 16)) ∧
  (∀ s : State,
    (∀ p, p < 20 →
      (nextAcc s p = none → exec (.sensorWindowWrite p) s = .next s ∧ exec (.sensorWindowRead p) s = .next (resumeTarget s)) ∧
      (∀ x, nextAcc s p = some x → x.w = p ∧ x ∈ s.brg.accs ∧ (∀ y ∈ s.brg.accs, y.w = p → y.started = false) ∧
        (isSet s (BRG_SEM_STAT_HELD p) = true → semHolder s p x.orig x.fid = true) ∧
        (x.write = false ∨ compatWaits s x = true → exec (.sensorWindowWrite p) s = .next s) ∧
        (x.write = true ∨ compatWaits s x = true → exec (.sensorWindowRead p) s = .next (resumeTarget s)) ∧
        (compatWaits s x = false →
          (x.write = true →
            (sensorReady s p = false → exec (.sensorWindowWrite p) s = .next (failHeld x 2 s)) ∧
            (sensorReady s p = true → exec (.sensorWindowWrite p) s =
              .next (writeOn { x with started := true, txns := writeTxns s x } (discardPfWindow p s)))) ∧
          (x.write = false →
            let u := pfOutside x.orig x.addr s
            (pfHit (pfOf u x.orig) x.addr x.be = true → exec (.sensorWindowRead p) s =
              .next (resumeTarget (u |> setPf x.orig (pfReturn (pfOf u x.orig) x.addr x.be) |> inc BRG_PF_CNT_HIT
                |> finishRead x (pickBytes x.addr x.be (pfOf u x.orig).addr ((pfOf u x.orig).bytes.map (·.1)))))) ∧
            (pfHit (pfOf u x.orig) x.addr x.be = false → sensorReady s p = false →
              exec (.sensorWindowRead p) s = .next (resumeTarget (failHeld x 2 u))) ∧
            (pfHit (pfOf u x.orig) x.addr x.be = false → sensorReady s p = true →
              exec (.sensorWindowRead p) s = .next (resumeTarget (readOn x u))))))) ∧
    (∀ f, f < 32 → (nextAcc s (20 + f) = none → exec (.remoteWindowAccess f) s = .next (resumeTarget s)) ∧
      ∀ x, nextAcc s (20 + f) = some x → compatWaits s x = false →
        (x.write = true → exec (.remoteWindowAccess f) s = .next (resumeTarget (sendReq x (discardPfWindow x.w s)))) ∧
        (x.write = false →
          let u := pfOutside x.orig x.addr s
          (pfHit (pfOf u x.orig) x.addr x.be = true → exec (.remoteWindowAccess f) s = .next (resumeTarget (servePf x u))) ∧
          (pfHit (pfOf u x.orig) x.addr x.be = false → exec (.remoteWindowAccess f) s =
            .next (resumeTarget (sendReq (if (enabledBytes x.be).isEmpty then x else (withSpan u x).2) u))))) ∧
    (∀ tag, (accByTag s tag = none → exec (.retryReissue tag) s = .next (resumeTarget s) ∧
        exec (.compatWriteTimeout tag) s = .next s ∧ exec (.bridgeReadTimeout tag) s = .next (resumeTarget s)) ∧
      ∀ x, accByTag s tag = some x →
        (x.started = true → 20 ≤ x.w → x.fetch = none → exec (.retryReissue tag) s = .next (resumeTarget (sendReq x s))) ∧
        (x.fetch.isSome = true → exec (.retryReissue tag) s = .next (resumeTarget s)) ∧
        (x.write = true → exec (.bridgeReadTimeout tag) s = .next (resumeTarget s) ∧
          (x.started = false → compatWaits s x = true → exec (.compatWriteTimeout tag) s = .next (failHeld x 5 s))) ∧
        (x.write = false → exec (.compatWriteTimeout tag) s = .next s ∧
          (x.dead = false → 20 ≤ x.w → exec (.bridgeReadTimeout tag) s = .next (resumeTarget (failHeld x 4 s))) ∧
          (∀ t, x.dead = false → x.w < 20 → (twbOf s x.w).cur = some t → t.owner = .bridge tag →
            exec (.bridgeReadTimeout tag) s = .next (resumeTarget (s |> putAcc { x with dead := true } |> failAcc x 4))))) ∧
    (∀ (x : BrgAcc) (cause : Nat), accByTag (failHeld x cause s) x.tag = none) ∧
    (∀ o c, brgCode o = some c → ∃ t, exec (.prefetchAgeExpire o) s = .next t ∧ (pfOf t c).bytes = [] ∧
      (∀ d, d ≠ c → pfOf t d = pfOf s d) ∧
      ((pfOf s c).bytes.any (fun x => !x.2) = true → rd t BRG_EVT_PF_DISCARD = 1 ∧
        rd t BRG_PF_CNT_DISCARD = satAdd 16 (rd s BRG_PF_CNT_DISCARD) 1) ∧
      ((pfOf s c).bytes.any (fun x => !x.2) = false → t.regs = s.regs)))

/-- Weave ports lock lanes, train, acknowledge, and take or reject their neighbour. (R385, R386, R388, R390, R391, R392, R417) -/
def Obligations.WeaveLinks : Prop :=
  ∀ (s : State) (p : Nat), wvHere s p = true →
    (∀ l, l < 5 →
      (1 ≤ wvState s p → ∃ u v, v = sendLane p u ∧ (wvState s p ≠ 1 → exec (.laneLock p l) s = .next u) ∧
        (wvState s p = 1 → exec (.laneLock p l) s =
          .next (if (wvOf v p).peerLanes = some (alignedLanes v p) then linkUp p (alignedLanes v p) v else v)) ∧
        hasBit (rd u (WVE_STAT_LANE_OK p)) l = true ∧ hasBit (wvOf u p).failed l = false ∧
        (∀ m, m ≠ l → hasBit (rd u (WVE_STAT_LANE_OK p)) m = hasBit (rd s (WVE_STAT_LANE_OK p)) m) ∧ wvState u p = wvState s p) ∧
      (wvState s p = 0 → exec (.laneLock p l) s = .next s) ∧
      (hasBit (rd s (WVE_STAT_LANE_OK p)) l = false →
        exec (.laneLockLost p l) s = .next s ∧ exec (.syncHeaderErrors p l) s = .next s) ∧
      (hasBit (rd s (WVE_STAT_LANE_OK p)) l = true →
        (∃ u, exec (.laneLockLost p l) s = .next (failLane p l u) ∧ hasBit (rd u (WVE_STAT_LANE_OK p)) l = false ∧
          (∀ m, m ≠ l → hasBit (rd u (WVE_STAT_LANE_OK p)) m = hasBit (rd s (WVE_STAT_LANE_OK p)) m)) ∧
        exec (.syncHeaderErrors p l) s =
          .next (s |> addSat (WVE_LANE_ERR_SYNC_ERR p l) 16 |> noteWear 3 (8 * p + l) 0 0 16 |> failLane p l))) ∧
    (wvCfg s p WVE_CFG_ENABLE = 1 →
      (wvState s p = 1 → rd s (WVE_STAT_RATE_NOW p) < wvCfg s p WVE_CFG_MIN_RATE →
        exec (.trainTimeout p) s = .next (startTraining p (rd s (WVE_STAT_RATE_NOW p) + 1) s)) ∧
      (wvState s p = 1 → wvCfg s p WVE_CFG_MIN_RATE ≤ rd s (WVE_STAT_RATE_NOW p) →
        ∃ t, exec (.trainTimeout p) s = .next t ∧ wvState t p = 0 ∧ ∀ x, x ≠ .regs → StateField.same x s t) ∧
      (wvState s p = 0 → exec (.trainTimeout p) s = .next (startTraining p (wvCfg s p WVE_CFG_RATE) s)) ∧
      (wvUp s p = true → exec (.trainTimeout p) s = .next s)) ∧
    (∀ rate, wvState (startTraining p rate s) p = 1 ∧ rd (startTraining p rate s) (WVE_STAT_RATE_NOW p) = rate % 4 ∧
      rd (startTraining p rate s) (WVE_STAT_LANE_OK p) = 0 ∧ rd (startTraining p rate s) (WVE_STAT_LANES p) = 0) ∧
    (∀ uid rate lanes map, wvState s p = 1 →
      (lanes % 16 ≠ 0 → lanes % 16 = alignedLanes s p → rate = rd s (WVE_STAT_RATE_NOW p) →
        ∃ u, exec (.laneBlock p uid rate lanes map) s = .next (sendLane p (noteDegraded p u)) ∧ wvState u p = 2 ∧
          (wvOf u p).lanes = lanes % 16 ∧ rd u (WVE_EVT_LINK_UP p) = 1 ∧ rd u (WVE_STAT_LANES p) = popCount 4 (lanes % 16)) ∧
      (lanes % 16 = 0 ∨ lanes % 16 ≠ alignedLanes s p ∨ rate ≠ rd s (WVE_STAT_RATE_NOW p) →
        ∃ t, exec (.laneBlock p uid rate lanes map) s = .next t ∧ wvState t p = 1)) ∧
    (wvUp s p = true →
      (∃ u, exec (.blockCrcError p) s = .next (sendAck p u) ∧ u = inc (WVE_CNT_CRC_ERR p) s) ∧
      ((wvOf s p).fresh = 0 → exec (.ackTimer p) s = .next s) ∧ (0 < (wvOf s p).fresh → exec (.ackTimer p) s = .next (sendAck p s)) ∧
      (wvOf (sendAck p s) p).fresh = 0 ∧
      (∀ cum, (wvOf s p).waitQ = [] → s.rly.mirrors = [] → ∃ t, exec (.ackBlock p cum 0) s = .next t ∧
        (wvOf t p).retry = (wvOf s p).retry.filter (fun r => decide ((r.1.seq + 4096 - cum % 4096) % 4096 ≤ 512))) ∧
      ((wvOf s p).retry = [] → exec (.retransmitTimeout p) s = .next s) ∧
      (∃ pl, exec (.helloSend p) s = .next (sendLocal p 6 pl s)) ∧
      (∀ uid name fid port gen, name ≠ fabName s →
        ((wvOf s p).rejected = true → wvActive s p = false →
          ∃ t, exec (.helloBlock p uid name fid port gen) s = .next t ∧ wvState t p = wvState s p ∧ (wvOf t p).rejected = true) ∧
        ((wvOf s p).rejected = false → wvActive s p = false →
          ∃ u, exec (.helloBlock p uid name fid port gen) s = .next (recordError ((fabErr 4 0).setting FAB_EVT_NAME_REJ) u) ∧
            wvState u p = wvState s p ∧ (wvOf u p).rejected = true)) ∧
      (∀ uid fid port gen, ∃ u v, exec (.helloBlock p uid (fabName s) fid port gen) s = .next (refreshFabric v) ∧
        (v = if wvActive (adoptGeneration gen u) p then adoptGeneration gen u else becomeActive p (adoptGeneration gen u)) ∧
        rd u (WVE_STAT_PEER_FID p) = fid % 32 ∧ rd u (WVE_STAT_PEER_VALID p) = fid / 128 % 2 ∧ peerUid u p = uid % 2 ^ 64 ∧
        (wvOf u p).rejected = false ∧ (wvOf u p).peerPort = port) ∧
      exec (.helloTimeout p) s = .next (linkDown p s)) ∧
    (wvUp s p = false → exec (.blockCrcError p) s = .next s ∧ exec (.ackTimer p) s = .next s ∧ exec (.retransmitTimeout p) s = .next s ∧
      exec (.helloSend p) s = .next s ∧ exec (.helloTimeout p) s = .next s ∧ (∀ c m, exec (.ackBlock p c m) s = .next s) ∧
      ∀ a b c d e, exec (.helloBlock p a b c d e) s = .next s)

/-- Sequenced blocks are delivered once and in order, and answered with acknowledgements. (R389, R390, R392) -/
def Obligations.SequencedBlocks : Prop :=
  ∀ (s : State) (p : Nat),
    let comes (b : Block) (r : Host.Outcome State Fault Refusal) : Prop :=
      (wvHere s p = false ∨ wvUp s p = false ∨ (wvOf s p).rejected = true → r = .next s) ∧
      (wvHere s p = true → wvUp s p = true → (wvOf s p).rejected = false →
        let d := (b.seq % 4096 + 4096 - (wvOf s p).cum) % 4096
        let v : Block := { b with seq := b.seq % 4096 }
        ((512 ≤ d ∨ (wvOf s p).held.any (fun h => h.seq == v.seq) = true) → r = .next (sendAck p s)) ∧
        ((wvOf s p).held.any (fun h => h.seq == v.seq) = false → d < 512 →
          (d ≠ 0 → ∃ u, r = .next (sendAck p u) ∧
            wvOf u p = { wvOf s p with fresh := (wvOf s p).fresh + 1, held := (wvOf s p).held ++ [v] } ∧
            (∀ q, q ≠ p → wvOf u q = wvOf s q) ∧ (∀ x, x ≠ .regs → x ≠ .weaves → StateField.same x s u)) ∧
          (d = 0 → (wvOf s p).cum < 4096 → ∃ u,
            r = .next (ackIfDue p (noteHeld p (deliverHeld p 511 (deliverBlock p v u)))) ∧
            wvOf u p = { wvOf s p with
              fresh := (wvOf s p).fresh + 1, cum := ((wvOf s p).cum + 1) % 4096
              held := (wvOf s p).held.filter fun h => h.seq != v.seq } ∧
            (∀ q, q ≠ p → wvOf u q = wvOf s q) ∧ ∀ x, x ≠ .weaves → StateField.same x s u)))
    (∀ q g cl f pl, comes ⟨q, 1, cl % 4, g, f, pl⟩ (exec (.dataBlock p q g cl f pl) s)) ∧
    (∀ q g cl f pl, comes ⟨q, 2, cl % 2, g, f, pl⟩ (exec (.openBlock p q g cl f pl) s)) ∧
    (∀ q g cl f n m, comes ⟨q, 3, cl % 4, g, f, leBytes 4 n ++ leBytes 4 m⟩ (exec (.endBlock p q g cl f n m) s)) ∧
    (∀ q g cl f x, comes ⟨q, 4, cl % 4, g, f, [x]⟩ (exec (.abortBlock p q g cl f x) s)) ∧
    (∀ q g pl, comes ⟨q, 7, 3, g, 0, pl⟩ (exec (.lsaBlock p q g pl) s)) ∧
    (∀ q g pl t, comes ⟨q, 8, 3, g, 0, padTo 64 (pl.take 64) ++ leBytes 4 t⟩ (exec (.brgReq p q g pl t) s)) ∧
    (∀ q g pl, comes ⟨q, 9, 3, g, 0, pl⟩ (exec (.brgRsp p q g pl) s)) ∧
    (∀ q pl, comes ⟨q, 10, 2, 0, 0, 1 :: pl⟩ (exec (.heartbeat p q pl) s)) ∧
    (∀ q pl, comes ⟨q, 10, 2, 0, 0, 2 :: pl⟩ (exec (.deliver p q pl) s)) ∧
    (∀ q pl, comes ⟨q, 10, 2, 0, 0, 3 :: pl⟩ (exec (.relayProfile p q pl) s)) ∧
    (∀ q n, comes ⟨q, 10, 2, 0, 0, [4, 1] ++ leBytes 2 n⟩ (exec (.batonOffer p q n) s)) ∧
    (∀ q n, comes ⟨q, 10, 2, 0, 0, [4, 2] ++ leBytes 2 n⟩ (exec (.batonCommit p q n) s))

/-- Link-state advertisements, fabric IDs and the weave's time exchange. (R393, R394, R402) -/
def Obligations.FabricRollCall : Prop :=
  ∀ s : State,
    (fabricOk s.variant = true → stoppedB s = false → ∃ t, exec .lsaRefresh s = .next t ∧
      t.fab.ownSeq = (s.fab.ownSeq + 1) % 2 ^ 32 ∧
      t.fab.sent = lsaHead s ++ lsaLinks s ∧ ∀ x, x ≠ .regs → x ≠ .fab → x ≠ .weaves → x ≠ .out → StateField.same x s t) ∧
    (fabricOk s.variant = false ∨ stoppedB s = true → exec .lsaRefresh s = .next s) ∧
    (∀ uid, (lsaOf s uid = none → exec (.lsaAge uid) s = .next s) ∧
      ((lsaOf s uid).isSome = true → ∃ u, exec (.lsaAge uid) s = .next (refreshFabric u) ∧ lsaOf u uid = none ∧
        (∀ v, v ≠ uid → lsaOf u v = lsaOf s v) ∧ ∀ x, x ≠ .fab → StateField.same x s u)) ∧
    (∀ f, stoppedB s = false → s.fab.claiming = true → ownFid s = none → activePorts s ≠ [] → f < 32 →
      (∀ l ∈ s.fab.lsas, l.fid ≠ some f) → (∀ g, g < f → ∃ l ∈ s.fab.lsas, l.fid = some g) →
      exec .fidClaim s = .next (claimFid f s)) ∧
    (stoppedB s = true ∨ s.fab.claiming = false ∨ ownFid s ≠ none ∨ activePorts s = [] → exec .fidClaim s = .next s) ∧
    (ownFid s = none ∨ s.fab.saved = true → exec .fidJournal s = .next s) ∧
    (∀ f, ownFid s = some f → s.fab.saved = false → ∃ t, exec .fidJournal s = .next t ∧ t.fab.saved = true ∧
      t.jnl.stickyFid = some f ∧ exec .fidJournal t = .next t) ∧
    (∀ p, wvHere s p = true → wvActive s p = true →
      (∃ u pl, exec (.timeExchange p) s = .next (sendLocal p 0xB pl u) ∧ (wvOf u p).timeSent = syncTime s) ∧
      ∀ sent echo at_ gm free,
        (timeCfg s TSU_CFG_SOURCE ≠ 2 ∨ towardsRoot s p free = false ∨ (wvOf s p).timeSent = 0 ∨ echo ≠ (wvOf s p).timeSent →
          exec (.timeBlock p sent echo at_ gm free) s =
            .next (setWv p { wvOf s p with timePeer := sent % 2 ^ 64, timeGot := syncTime s } s)) ∧
        (timeCfg s TSU_CFG_SOURCE = 2 → towardsRoot s p free = true → (wvOf s p).timeSent ≠ 0 → echo = (wvOf s p).timeSent →
          ∃ t off, exec (.timeBlock p sent echo at_ gm free) s = .next t ∧ t.time.gmId = padTo 8 gm ∧
            t.time.measured = some (off, s.time.base + rndDiv (((at_ : Int) - echo) - ((syncTime s : Int) - sent)) 2, now64 s) ∧
            (wvOf t p).timePeer = sent % 2 ^ 64)) ∧
    ∀ p, wvActive s p = false → exec (.timeExchange p) s = .next s ∧ ∀ a b c gm free, exec (.timeBlock p a b c gm free) s = .next s

/-- A relay pair exchanges heartbeats, fences, takes the baton, mirrors and hands over. (R406, R407, R408, R409, R410, R411, R413) -/
def Obligations.RelayPair : Prop :=
  (∀ s : State, relayOn s = true →
    (stoppedB s = false → ∃ u, exec .heartbeatSend s = .next u ∧ u.pins.hbOut = !s.pins.hbOut ∧
      rd u RLY_DIGEST_DIGEST = ownDigest s ∧ role u = role s ∧
      ∀ x, x ≠ .regs → x ≠ .pins → x ≠ .out → x ≠ .weaves → StateField.same x s u) ∧
    exec .hbInputEdge s = .next { s with rly := { s.rly with beat := true } } ∧
    (s.rly.beat = true → ∃ t, exec .heartbeatTick s = .next t ∧ rd t RLY_STAT_MISSES = 0 ∧ t.rly.beat = false ∧ role t = role s ∧
      ∀ x, x ≠ .regs → x ≠ .rly → StateField.same x s t) ∧
    (s.rly.beat = false →
      (rd s RLY_STAT_MISSES ≠ 2 ∨ role s ≠ 2 ∨ s.rly.fencing.isSome = true → ∃ t, exec .heartbeatTick s = .next t ∧
        rd t RLY_STAT_MISSES = min 15 (rd s RLY_STAT_MISSES + 1) ∧ (2 ≤ rd s RLY_STAT_MISSES → rd t RLY_STAT_PARTNER = 0) ∧
        role t = role s ∧ ∀ x, x ≠ .regs → StateField.same x s t) ∧
      (rd s RLY_STAT_MISSES = 2 → role s = 2 → s.rly.fencing = none → ∃ u v, rd u RLY_STAT_MISSES = 3 ∧ rd u RLY_STAT_PARTNER = 0 ∧
        v = recordError ((rlyErr 1).setting RLY_EVT_PARTNER_LOST) u ∧
        exec .heartbeatTick s = .next (if eligible v then takeFence false v else v))) ∧
    (s.rly.seen = false → s.rly.fencing = none → ∃ t, exec .partnerWaitExpire s = .next t ∧ t.rly.fencing = some (upNs s, true) ∧
      t.pins.fenceLow = true ∧ rd t RLY_STAT_FENCE_OUT = 1 ∧ role t = role s) ∧
    (s.rly.seen = true ∨ s.rly.fencing.isSome = true → exec .partnerWaitExpire s = .next s) ∧
    (role s = 1 → s.rly.mirrors ≠ [] → exec .deliverAckTimeout s = .next (enterSolo s)) ∧
    (role s ≠ 1 ∨ s.rly.mirrors = [] → exec .deliverAckTimeout s = .next s) ∧
    (role s = 3 → isSet s RLY_STAT_PARTNER = true → ∃ t, exec .mirrorRestore s = .next t ∧ role t = 1 ∧ t.pins.fenceLow = false ∧
      rd t RLY_STAT_FENCE_OUT = 0 ∧ rd t RLY_EVT_MIRROR_OK = 1) ∧
    (role s ≠ 3 ∨ isSet s RLY_STAT_PARTNER = false → exec .mirrorRestore s = .next s) ∧
    (∀ o v, (o = .t0 ∨ o = .svc) → role s = 1 → s.rly.offered = false → v % 2 = 1 →
      exec (.handover o v) s = .next (commitBaton (sendBaton 1 { s with rly := { s.rly with offered := true } }))) ∧
    (∀ o v, (o = .t0 ∨ o = .svc) → role s ≠ 1 ∨ s.rly.offered = true ∨ v % 2 = 0 → exec (.handover o v) s = .next s) ∧
    ((role s = 1 ∨ role s = 3) → s.rly.fencing = none → isSet s RLY_STAT_FENCE_OUT = false → ∃ u,
      exec (.fenceInput true) s = .next (becomeFenced (stopClassM u)) ∧ rd u RLY_STAT_FENCE_IN = 1) ∧
    ((role s = 1 ∨ role s = 3) → isSet s RLY_STAT_FENCE_OUT = true → s.rly.asHolder = false → ∃ u,
      exec (.fenceInput true) s = .next (u |> stopClassM |> driveFence false |> becomeFenced) ∧ rd u RLY_STAT_FENCE_IN = 1) ∧
    ((role s = 1 ∨ role s = 3) → isSet s RLY_STAT_FENCE_OUT = true → s.rly.asHolder = true → s.rly.fencing = none →
      exec (.fenceInput true) s = .next (wr RLY_STAT_FENCE_IN 1 s))) ∧
  ∀ s : State,
    (∃ t, exec (.fenceInput false) s = .next t ∧ rd t RLY_STAT_FENCE_IN = 0 ∧ role t = role s ∧ ∀ x, x ≠ .regs → StateField.same x s t) ∧
    (role s = 4 → isSet s RLY_STAT_FENCE_IN = false → ∃ t, exec .fenceReleaseTimer s = .next t ∧ role t = 2 ∧
      ∀ x, x ≠ .regs → StateField.same x s t) ∧
    (role s ≠ 4 ∨ isSet s RLY_STAT_FENCE_IN = true → exec .fenceReleaseTimer s = .next s) ∧
    (s.rly.fencing = none → exec .fenceWaitExpire s = .next s) ∧
    (∀ since alone, s.rly.fencing = some (since, alone) →
      (isSet s RLY_STAT_FENCE_IN = true → exec .fenceWaitExpire s = .next (becomeFenced (driveFence false s))) ∧
      (isSet s RLY_STAT_FENCE_IN = false → ∀ u, u = { s with rly := { s.rly with fencing := none } } →
        ∃ v, v = (if alone then takeBaton 3 1 u else takeBaton 1 (rd s RLY_STAT_BATON_GEN + 1) u) ∧
          exec .fenceWaitExpire s = .next (wr RLY_LAST_BATON_US ((upNs v - since) / 1000) v))) ∧
    (∀ c u, s.rly.unmatched.find? (fun x => x.1 == c) = some u → ∃ v, exec (.fcMismatch c) s =
      .next (recordError ((rlyErr 4).setting RLY_EVT_FC_MISMATCH) v) ∧ v.rly.unmatched = s.rly.unmatched.erase u) ∧
    (∀ c, s.rly.unmatched.find? (fun x => x.1 == c) = none → exec (.fcMismatch c) s = .next s) ∧
    (relayOn s = false → exec .heartbeatSend s = .next s ∧ exec .hbInputEdge s = .next s ∧ exec .heartbeatTick s = .next s ∧
      exec .partnerWaitExpire s = .next s ∧ exec .deliverAckTimeout s = .next s ∧ exec .mirrorRestore s = .next s)

/-- Park mode, the write window, maintenance sessions and flash operations. (R10, R18, R21, R430, R431, R432, R433, R434) -/
def Obligations.ParkSessionsAndFlash : Prop :=
  (∀ (s : State) (o : Orig) (v : Nat),
    let w := wr MNT_PARK_WAKE_CMP (bit (hasBit v 1)) s
    let leaves (cause : Nat) (s : State) (r : Host.Outcome State Fault Refusal) : Prop :=
      ∃ u, r = .next (parkRecord 1 cause (each (cameraPorts s) restartPort u)) ∧ u.mnt.parking = false ∧ u.mnt.parked = false ∧
        rd u MNT_PARK_GO = 0 ∧ rd u (TWB_STAT_STATE 21) = 0 ∧ rd u (TWB_STAT_STATE 22) = 0 ∧
        ∀ x, x ≠ .regs → x ≠ .mnt → x ≠ .rsv → StateField.same x s u
    let closed := each ((List.range 4).filter (wpPresent s.variant)) linkDown (each (cameraPorts s) parkCamera s)
    (o ≠ .t0 ∨ s.mnt.parked = true → exec (.park o v) s = .next s ∧ exec (.parkCancel o v) s = .next s) ∧
    (o = .t0 → s.mnt.parked = false →
      (isSafe s = true ∨ s.mnt.parking = true → exec (.park o v) s = .next w) ∧
      (isSafe s = false → s.mnt.parking = false → isSet s MNT_STAT_SESSION = true →
        exec (.park o v) s = .next (wr MNT_STAT_LAST_RESULT 8 w)) ∧
      (isSafe s = false → s.mnt.parking = false → isSet s MNT_STAT_SESSION = false →
        exec (.park o v) s = .next ({ w with mnt := { w.mnt with parking := true, wake := 0 } } |> wr MNT_PARK_GO 1
          |> each (cameraPorts s) parkPort |> parkRecord 0 0)) ∧
      (s.mnt.parking = true → leaves 4 s (exec (.parkCancel o v) s)) ∧
      (s.mnt.parking = false → exec (.parkCancel o v) s = .next w)) ∧
    (s.mnt.parking = true → s.mnt.parked = false → isSafe s = false →
      (crossingsEmpty closed = false → exec .parkComplete s = .next closed) ∧
      (crossingsEmpty closed = true → ∃ t, exec .parkComplete s = .next t ∧ t.mnt.parked = true ∧
        rd t (TWB_STAT_STATE 21) = 5 ∧ rd t (TWB_STAT_STATE 22) = 5 ∧
        ∀ i, i < 40 → hasBit (rd t GLB_ISL_RUN_LO_RUN + 2 ^ 32 * rd t GLB_ISL_RUN_HI_RUN) i =
          (islPresent s.variant i && (i == 0 || i == 1 || i == 37)))) ∧
    (∀ u, crossingsEmpty u = true ↔
      u.frames = [] ∧ u.running = [] ∧ u.outs = [] ∧ ∀ x ∈ u.txs, x.2.queue = []) ∧
    (s.mnt.parking = false ∨ s.mnt.parked = true ∨ isSafe s = true → exec .parkComplete s = .next s) ∧
    (s.mnt.parked = true → s.mnt.wake ≠ 0 → leaves s.mnt.wake s (exec .parkExit s)) ∧
    (s.mnt.parked = false ∨ s.mnt.wake = 0 → exec .parkExit s = .next s)) ∧
  (∀ s : State,
    (isSet s MNT_STAT_ARMED = false → exec .presencePulse s = .next s ∧ exec .presenceHeld s = .next s) ∧
    (isSet s MNT_STAT_ARMED = true →
      (let u := wr MNT_STAT_WINDOW 1 { s with mnt := { s.mnt with windowAt := upNs s } }
       exec .presencePulse s = .next (if isSet s MNT_STAT_SESSION then mntRecord 2 0 0 u else drawNonce u)) ∧
      exec .presenceHeld s = .next (recordError ((mntErr 3 0).setting MNT_EVT_PRESENCE) s)) ∧
    (∀ i, i < 4 → rd (drawNonce s) (MNT_NONCE_NONCE i) = Config.freeNat (s.freeCount + i) % 2 ^ 32) ∧
    (isSet s MNT_STAT_WINDOW = false → exec .windowExpire s = .next s) ∧
    (isSet s MNT_STAT_WINDOW = true → exec .windowExpire s = .next (wr MNT_STAT_WINDOW 0 (endSession s))) ∧
    (∀ o, sessionHolder s o = false → exec (.sessionClose o) s = .next s) ∧
    (∀ o, sessionHolder s o = true → exec (.sessionClose o) s = .next (endSession s)) ∧
    (isSet s MNT_STAT_SESSION = false → endSession s = s) ∧
    (isSet s MNT_STAT_SESSION = true → isSet (endSession s) MNT_STAT_SESSION = false ∧ rd (endSession s) MNT_STAT_FLAGS = 0 ∧
      rd (endSession s) MNT_EVT_SESSION_END = 1 ∧ (rd s LDR_STAT_OWNER = 4 → (endSession s).cfgB = s.cfgA)) ∧
    (let q := requestBytes s
     let r := requestResult s q
     let tag := (sha256 (slice q 0x20 64)).take 8
     let u := s |> drawNonce |> wr MNT_STAT_LAST_RESULT r
     (isSet s MNT_STAT_ARMED = false ∨ isSet s MNT_STAT_WINDOW = false → r = 1) ∧
      (isSet s MNT_STAT_ARMED = true → isSet s MNT_STAT_WINDOW = true → (isSet s MNT_STAT_SESSION = true → r = 7) ∧
        (isSet s MNT_STAT_SESSION = false → (q.take 4 ≠ [0x4D, 0x4E, 0x54, 0x31] ∨ leAt q 8 8 ≠ s.chip.uid → r = 2) ∧
          (q.take 4 = [0x4D, 0x4E, 0x54, 0x31] → leAt q 8 8 = s.chip.uid →
            let same := slice q 0x10 16 = (List.range 4).flatMap fun i => leBytes 4 (rd s (MNT_NONCE_NONCE i))
            let known := s.chip.keyHash = some (sha256 (slice q 0x20 64))
            let signed := ecdsaVerify (slice q 0x20 64) (slice q 0x60 64) (q.take 0x20)
            let locked := hasBit (leAt q 4 4) 3 = true ∧ s.chip.debugLock = true
            (¬same → r = 3) ∧ (same → ¬known → r = 4) ∧ (same → known → signed = false → r = 5) ∧
            (same → known → signed = true → locked → r = 6) ∧ (same → known → signed = true → ¬locked → r = 0)))) ∧
      ∀ o n, origNumber o = some n → origPresent s.variant o = true →
        (r ≠ 0 → exec (.sessionOpen o) s = .next (u |> journal 8 ([1, n, r, 0] ++ leBytes 4 (leAt q 4 4) ++ tag)
          |> recordError (mntErr 1 n))) ∧
        (r = 0 → ∃ v, isSet v MNT_STAT_SESSION = true ∧ rd v MNT_STAT_ORIG = n % 4 ∧ rd v MNT_STAT_FLAGS = leAt q 4 4 % 16 ∧
          rd v MNT_EVT_SESSION_OPEN = 1 ∧ v.mnt.keyTag = tag ∧
          exec (.sessionOpen o) s = .next (if hasBit (leAt q 4 4) 3 then
            mntRecord 1 0 (leAt q 4 4) v |> wr MNT_STAT_DEBUG 1 |> fatalError (mntErr 4 n) else mntRecord 1 0 (leAt q 4 4) v)))) ∧
  ∀ (s : State) (o : Orig) (slot arg : Nat), origPresent s.variant o = true →
    let sl := slot % 2
    let gate (right op sl a : Nat) (r : Host.Outcome State Fault Refusal) : Prop :=
      (sessionHolder s o = false → r = .next (deny MNT_FLASH_CMD_ALL.addr s)) ∧
      (sessionHolder s o = true → isSet s MNT_FLASH_STAT_BUSY = true → r = .next s) ∧
      (sessionHolder s o = true → isSet s MNT_FLASH_STAT_BUSY = false → hasBit (rd s MNT_STAT_FLAGS) right = false →
        r = .next (flashResult op sl a 1 0 s))
    (gate 1 1 sl 0 (exec (.erase o slot) s) ∧ gate 1 2 sl arg (exec (.program o slot arg) s) ∧ gate 1 3 sl 0 (exec (.verify o slot) s) ∧
      gate 1 4 0 0 (exec (.reload o) s) ∧ gate 2 5 0 arg (exec (.rollback o arg) s)) ∧
    (∀ op res cause, ∃ v, flashResult op sl arg res cause s =
        mntRecord 3 res (op % 8 * 2 ^ 29 + sl % 2 * 2 ^ 28 + arg % 2 ^ 28) v ∧ isSet v MNT_FLASH_STAT_BUSY = false ∧
      rd v MNT_FLASH_STAT_RESULT = res % 256 ∧ rd v MNT_FLASH_STAT_CAUSE = cause % 256 ∧ rd v MNT_EVT_FLASH_DONE = 1) ∧
    (sessionHolder s o = true → isSet s MNT_FLASH_STAT_BUSY = false → hasBit (rd s MNT_STAT_FLAGS) 1 = true →
      (slotKept s sl = true → exec (.erase o slot) s = .next (flashResult 1 sl 0 2 0 s) ∧
        exec (.program o slot arg) s = .next (flashResult 2 sl arg 2 0 s)) ∧
      (slotKept s sl = false → slotRange s sl = none →
        exec (.erase o slot) s = .next (flashStart 1 sl 0 3 0 (unverify sl s)) ∧
        (arg < 0x4000 → exec (.program o slot arg) s = .next (flashStart 2 sl arg 3 0 (unverify sl s)))) ∧
      (∀ r, slotKept s sl = false → slotRange s sl = some r →
        (∃ t, exec (.erase o slot) s = .next t ∧ isSet t MNT_FLASH_STAT_BUSY = true ∧ t.mnt.op = some ⟨1, sl, 0, 0, 0⟩ ∧
          (∀ x, x / 0x4000000 = sl → sget flashDefault t.flash x = 0xFF) ∧
          ∀ x, x / 0x4000000 ≠ sl → sget flashDefault t.flash x = sget flashDefault s.flash x) ∧
        (arg < 0x4000 → arg * 4096 + 4096 ≤ r.2 → ∃ t, exec (.program o slot arg) s = .next t ∧
          isSet t MNT_FLASH_STAT_BUSY = true ∧ t.mnt.op = some ⟨2, sl, arg, 0, 0⟩ ∧
          memRead flashDefault t.flash (r.1 + arg * 4096) 4096 = bufferBytes s ∧
          ∀ x, x < r.1 + arg * 4096 ∨ r.1 + arg * 4096 + 4096 ≤ x → sget flashDefault t.flash x = sget flashDefault s.flash x)) ∧
      (∀ c, c = slotCause s sl s.rollback → exec (.verify o slot) s = .next (flashStart 3 sl 0 (if c = 0 then 0 else 4) c s) ∧
        (flashStart 3 sl 0 (if c = 0 then 0 else 4) c s).flash = s.flash) ∧
      (isSafe s = false → s.ldr.phase = .run → exec (.reload o) s =
        .next ((if rd s LDR_STAT_OWNER = 4 then discardBank s else s) |> beginLoad true |> flashStart 4 0 0 0 0)) ∧
      (isSafe s = true ∨ s.ldr.phase ≠ .run → exec (.reload o) s = .next (flashResult 4 0 0 2 0 s))) ∧
    (sessionHolder s o = true → isSet s MNT_FLASH_STAT_BUSY = false → hasBit (rd s MNT_STAT_FLAGS) 2 = true →
      (s.rollback < arg → arg ≤ 64 → slotCause s 0 arg = 0 → slotCause s 1 arg = 0 →
        exec (.rollback o arg) s = .next (flashStart 5 0 arg 0 0 s)) ∧
      (arg ≤ s.rollback ∨ 64 < arg ∨ slotCause s 0 arg ≠ 0 ∨ slotCause s 1 arg ≠ 0 →
        exec (.rollback o arg) s = .next (flashResult 5 0 arg 5 0 s))) ∧
    (∀ f, s.mnt.op = none → exec (.flashOperationDone f) s = .next s) ∧
    (∀ f x, s.mnt.op = some x → x.op = 4 → s.ldr.phase ≠ .run → exec (.flashOperationDone f) s = .next s) ∧
    (∀ x, s.mnt.op = some x → x.op ≠ 4 ∨ s.ldr.phase = .run →
      (∃ u, u.mnt.op = none ∧ u.flash = s.flash ∧ u.rollback = (if x.op = 5 ∧ x.result = 0 then max s.rollback x.arg else s.rollback) ∧
        (x.result ≠ 3 → exec (.flashOperationDone false) s = .next (flashResult x.op x.slot x.arg x.result x.cause u)) ∧
        (x.result = 3 → exec (.flashOperationDone false) s =
          .next (flashResult x.op x.slot x.arg 3 x.cause u |> recordError (mntErr 2 (rd s MNT_STAT_ORIG))))) ∧
      (∃ u, u.mnt.op = none ∧ u.rollback = (brokenFlash s).rollback ∧ exec (.flashOperationDone true) s =
        .next (flashResult x.op x.slot x.arg 3 x.cause u |> recordError (mntErr 2 (rd s MNT_STAT_ORIG)))))

/-- A step runs the command at the front of the queue with the queue's rest; an empty queue gives a tick (model's choice, log
entry 14). (R307) -/
def Obligations.StepTakesTheFrontCommand : Prop :=
  (∀ (s : State) (c : Instr) (rest : List Instr), step { s with pending := c :: rest } = exec c { s with pending := rest }) ∧
  ∀ s : State, s.pending = [] → ∃ t, step s = .next t ∧ t.pending = [] ∧ ∀ x, x ≠ .now → x ≠ .time → StateField.same x s t

/-- Every command completes, touches only the state named for it, and never undoes what only grows. (R62, R78, R307, R309) -/
def Obligations.EveryCommandHasItsEffect : Prop :=
  (∀ (c : Instr) (s : State), ∃ t, exec c s = .next t ∧ Evolves (touches c) s t) ∧
  ∀ (c : Instr) (s t : State), exec c s = .next t →
    (t.rollback ≠ s.rollback → ∃ b, c = .flashOperationDone b ∨ c = .resetNAssert b) ∧
    (t.islEpoch ≠ s.islEpoch → (∃ i, c = .epochReachesIsland i) ∨ ∃ b, c = .resetNAssert b) ∧
    (t.now ≠ s.now → (∃ v, c = .step v) ∨ c = .offsetMeasurement ∨ (∃ h a, c = .resetRelease h a) ∨
      (∃ bar a v n hw, c = .registerWrite ⟨.svc, bar⟩ a v n hw) ∨ (∃ bar a k be d, c = .bridgeAccess ⟨.svc, bar⟩ a k be d) ∨
      ∃ b, c = .resetNAssert b)

/-- Every step keeps the canonical form of registers, banks, LIVE copies, memories and prepared sets. (R62, R445, R473) -/
def Obligations.StepKeepsTheInvariant : Prop :=
  (∀ s : State, s.Canonical → ∃ t, step s = .next t ∧ t.Canonical ∧ t.pending = s.pending.tail ∧ t.chip = s.chip ∧
    s.rollback ≤ t.rollback ∧ s.out <+: t.out) ∧
  ∀ (n : Nat) (s : State), s.Canonical →
    ∃ t, Nat.repeat (fun r => match r with | some u => (match step u with | .next v => some v | _ => none) | none => none) n (some s) = some t ∧
      t.Canonical ∧ t.pending = s.pending.drop n ∧ t.chip = s.chip ∧ s.rollback ≤ t.rollback ∧ s.out <+: t.out
end

