-- ==== Sys2Proof/Laws/Sparse.lean ====
section
/-! SUPPORT. Laws of sparse data: read after write, every other key unchanged, canonical form kept. -/

namespace Sys2Proof.Machine

theorem sget_filter {α : Type} (d : Nat → α) (m : Sparse α) (k j : Nat) (h : k ≠ j) : sget d (sdel m k) j = sget d m j := by
  induction m with
  | nil => rfl
  | cons p m ih =>
    obtain ⟨a, b⟩ := p
    unfold sdel at *
    by_cases ha : a = k
    · subst ha; simpa [sget, h] using ih
    · by_cases hj : a = j <;> simp_all [sget, List.filter]

theorem sget_sdel_same {α : Type} (d : Nat → α) (m : Sparse α) (k : Nat) : sget d (sdel m k) k = d k := by
  induction m with
  | nil => rfl
  | cons p m ih =>
    obtain ⟨a, b⟩ := p
    unfold sdel at *
    by_cases ha : a = k
    · simpa [ha] using ih
    · simp_all [sget, List.filter]

theorem sget_sins {α : Type} (d : Nat → α) (m : Sparse α) (k j : Nat) (v : α) :
    sget d (sins k v m) j = if k = j then v else sget d m j := by
  induction m with
  | nil => simp [sins, sget]
  | cons p m ih =>
    obtain ⟨a, b⟩ := p
    unfold sins
    split
    · simp [sget]
    · split
      · rename_i hak; subst hak; by_cases h : a = j <;> simp [sget, h]
      · by_cases h : a = j
        · subst h; simp_all [sget, eq_comm]
        · simp [sget, h, ih]

/-- Read after write, at every key. -/
theorem sget_sset {α : Type} [DecidableEq α] (d : Nat → α) (m : Sparse α) (k j : Nat) (v : α) :
    sget d (sset d m k v) j = if k = j then v else sget d m j := by
  unfold sset
  split
  · rename_i h
    by_cases hk : k = j
    · subst hk; simp [sget_sdel_same, h]
    · simp [sget_filter d m k j hk, hk]
  · exact sget_sins d m k j v

@[simp] theorem sget_sset_same {α : Type} [DecidableEq α] (d : Nat → α) (m : Sparse α) (k : Nat) (v : α) :
    sget d (sset d m k v) k = v := by simp [sget_sset]

theorem sget_sset_ne {α : Type} [DecidableEq α] (d : Nat → α) (m : Sparse α) (k j : Nat) (v : α) (h : k ≠ j) :
    sget d (sset d m k v) j = sget d m j := by simp [sget_sset, h]

theorem risingFrom_le {α : Type} (m : Sparse α) : ∀ lo lo', lo' ≤ lo → risingFrom lo m = true → risingFrom lo' m = true := by
  cases m with
  | nil => intros; rfl
  | cons p m => intro lo lo' h; simp only [risingFrom, Bool.and_eq_true, decide_eq_true_eq]; exact fun ⟨a, b⟩ => ⟨h.trans a, b⟩

theorem risingFrom_filter {α : Type} (f : Nat × α → Bool) (m : Sparse α) :
    ∀ lo, risingFrom lo m = true → risingFrom lo (m.filter f) = true := by
  induction m with
  | nil => intro _ h; exact h
  | cons p m ih =>
    intro lo h
    simp only [risingFrom, Bool.and_eq_true, decide_eq_true_eq] at h
    rw [List.filter_cons]
    split
    · simp only [risingFrom, Bool.and_eq_true, decide_eq_true_eq]; exact ⟨h.1, ih _ h.2⟩
    · exact risingFrom_le _ _ _ (by omega) (ih _ h.2)

theorem risingFrom_sins {α : Type} (k : Nat) (v : α) (m : Sparse α) :
    ∀ lo, lo ≤ k → risingFrom lo m = true → risingFrom lo (sins k v m) = true := by
  induction m with
  | nil => intro lo h _; simpa [sins, risingFrom] using h
  | cons p m ih =>
    intro lo hk h
    simp only [risingFrom, Bool.and_eq_true, decide_eq_true_eq] at h
    unfold sins
    split
    · simp only [risingFrom, Bool.and_eq_true, decide_eq_true_eq]; exact ⟨hk, by omega, h.2⟩
    · split
      · simp only [risingFrom, Bool.and_eq_true, decide_eq_true_eq]; rename_i he; subst he; exact ⟨hk, h.2⟩
      · simp only [risingFrom, Bool.and_eq_true, decide_eq_true_eq]; exact ⟨h.1, ih _ (by omega) h.2⟩

theorem all_sins {α : Type} (q : Nat × α → Bool) (k : Nat) (v : α) (m : Sparse α) (h : m.all q = true) (hv : q (k, v) = true) :
    (sins k v m).all q = true := by
  induction m with
  | nil => simp [sins, hv]
  | cons p m ih =>
    rw [List.all_cons, Bool.and_eq_true] at h
    unfold sins
    split
    · simp [hv, h.1, h.2]
    · split <;> simp_all

/-- Removing entries keeps canonical form. -/
theorem swf_filter {α : Type} [DecidableEq α] (d : Nat → α) (f : Nat × α → Bool) (m : Sparse α) (h : swf d m = true) :
    swf d (m.filter f) = true := by
  unfold swf at *
  rw [Bool.and_eq_true] at *
  refine ⟨risingFrom_filter f m 0 h.1, ?_⟩
  rw [List.all_eq_true] at *
  exact fun x hx => h.2 x (List.mem_of_mem_filter hx)

/-- A write keeps canonical form. -/
theorem swf_sset {α : Type} [DecidableEq α] (d : Nat → α) (m : Sparse α) (k : Nat) (v : α) (h : swf d m = true) :
    swf d (sset d m k v) = true := by
  unfold sset
  split
  · exact swf_filter d _ m h
  · rename_i hv
    unfold swf at *
    rw [Bool.and_eq_true] at *
    exact ⟨risingFrom_sins k v m 0 (Nat.zero_le _) h.1, all_sins _ k v m h.2 (by simpa using hv)⟩

/-- A memory write keeps canonical form. -/
theorem swf_memWrite (d : Nat → Nat) (bs : List Nat) : ∀ (m : Mem) (a : Nat), swf d m = true → swf d (memWrite d m a bs) = true := by
  induction bs with
  | nil => intro m a h; exact h
  | cons b bs ih => intro m a h; exact ih _ _ (swf_sset d m a _ h)

/-- A memory write leaves every byte outside it as it was. -/
theorem sget_memWrite_other (d : Nat → Nat) (bs : List Nat) :
    ∀ (m : Mem) (a j : Nat), j < a ∨ a + bs.length ≤ j → sget d (memWrite d m a bs) j = sget d m j := by
  induction bs with
  | nil => intros; rfl
  | cons b bs ih =>
    intro m a j h
    rw [List.length_cons] at h
    rw [memWrite, ih _ _ _ (by omega), sget_sset_ne _ _ _ _ _ (by omega)]

/-- A memory write stores its bytes. -/
theorem sget_memWrite_at (d : Nat → Nat) (bs : List Nat) :
    ∀ (m : Mem) (a i : Nat) (h : i < bs.length), sget d (memWrite d m a bs) (a + i) = bs[i] % 256 := by
  induction bs with
  | nil => intro _ _ i h; exact absurd h (Nat.not_lt_zero i)
  | cons b bs ih =>
    intro m a i h
    cases i with
    | zero => rw [memWrite, sget_memWrite_other _ _ _ _ _ (by omega)]; simp
    | succ i =>
      rw [memWrite, show a + (i + 1) = a + 1 + i by omega, ih _ _ i (by simpa using h)]; rfl

/-- A memory read outside a memory write gives what it gave before. -/
theorem memRead_memWrite_other (d : Nat → Nat) (m : Mem) (a : Nat) (bs : List Nat) :
    ∀ (n j : Nat), j + n ≤ a ∨ a + bs.length ≤ j → memRead d (memWrite d m a bs) j n = memRead d m j n := by
  intro n
  induction n with
  | zero => intros; rfl
  | succ n ih =>
    intro j h
    rw [memRead, memRead, ih (j + 1) (by omega), sget_memWrite_other d bs m a j (by omega)]

/-- A memory read within a memory write gives the bytes written. -/
theorem memRead_memWrite_at (d : Nat → Nat) (m : Mem) (a : Nat) (bs : List Nat) (hb : ∀ b ∈ bs, b < 256) :
    ∀ (n i : Nat), i + n ≤ bs.length → memRead d (memWrite d m a bs) (a + i) n = (bs.drop i).take n := by
  intro n
  induction n with
  | zero => intros; simp [memRead]
  | succ n ih =>
    intro i h
    have hi : i < bs.length := by omega
    rw [memRead, show a + i + 1 = a + (i + 1) by omega, ih (i + 1) (by omega), sget_memWrite_at d bs m a i hi,
      Nat.mod_eq_of_lt (hb _ (List.getElem_mem hi)), List.drop_eq_getElem_cons hi, List.take_succ_cons]

end Sys2Proof.Machine
end

