-- ==== Sys2Proof/Laws/Evolve.lean ====
section
/-! SUPPORT. How the relation Evolves composes, and what one update of one field does to it. -/

namespace Sys2Proof.Machine
open Sys2Proof

/-- Every field of the first list is in the second. -/
def sub (F H : List StateField) : Bool := F.all fun x => H.contains x

theorem contains_of_sub {F H : List StateField} (h : sub F H = true) (x : StateField) (hx : F.contains x = true) : H.contains x = true :=
  List.all_eq_true.mp h x (List.contains_iff_mem.mp hx)

theorem same_refl (x : StateField) (s : State) : x.same s s := by cases x <;> rfl

theorem same_trans (x : StateField) {s t u : State} (h : x.same s t) (k : x.same t u) : x.same s u := by
  cases x <;> exact Eq.trans k h

theorem ev_refl (F : List StateField) (s : State) : Evolves F s s :=
  ⟨rfl, rfl, le_rfl, le_rfl, List.prefix_rfl, id, fun x _ => same_refl x s⟩

theorem ev_mono {F H : List StateField} {s0 s t : State} (hF : sub F H = true) (h : Evolves H s0 s) (k : Evolves F s t) : Evolves H s0 t :=
  ⟨k.pending.trans h.pending, k.chip.trans h.chip, h.rollback.trans k.rollback, h.freeCount.trans k.freeCount, h.out.trans k.out,
   fun c => k.canonical (h.canonical c), fun x hx => same_trans x (h.frame x hx) (k.frame x (by
     cases hc : F.contains x
     · rfl
     · rw [contains_of_sub hF x hc] at hx; exact absurd hx (by decide)))⟩

theorem ev_ite {F : List StateField} {s a b : State} {c : Prop} [Decidable c] (ha : Evolves F s a) (hb : Evolves F s b) :
    Evolves F s (if c then a else b) := by split <;> assumption

theorem ev_foldl {F : List StateField} {s t : State} {α : Type} {f : State → α → State} {l : List α} (h : Evolves F s t)
    (hf : ∀ b x, Evolves F s b → Evolves F s (f b x)) : Evolves F s (l.foldl f t) := by
  induction l generalizing t with
  | nil => exact h
  | cons x l ih => exact ih (hf t x h)

theorem ev_foldl_fst {F : List StateField} {s : State} {α β : Type} {f : State × β → α → State × β} {l : List α} {p : State × β}
    (h : Evolves F s p.1) (hf : ∀ b y x, Evolves F s b → Evolves F s (f (b, y) x).1) : Evolves F s (l.foldl f p).1 := by
  induction l generalizing p with
  | nil => exact h
  | cons x l ih => exact ih (hf p.1 p.2 x h)

theorem ev_foldl_snd {F : List StateField} {s : State} {α β : Type} {f : β × State → α → β × State} {l : List α} {p : β × State}
    (h : Evolves F s p.2) (hf : ∀ b y x, Evolves F s b → Evolves F s (f (y, b) x).2) : Evolves F s (l.foldl f p).2 := by
  induction l generalizing p with
  | nil => exact h
  | cons x l ih => exact ih (hf p.2 p.1 x h)

theorem sub_trans {F G H : List StateField} (h : sub F G = true) (k : sub G H = true) : sub F H = true :=
  List.all_eq_true.mpr fun x hx => contains_of_sub k x (List.all_eq_true.mp h x hx)

theorem evo_ite {F : List StateField} {s : State} {a b : Option State} {c : Prop} [Decidable c] (ha : ∀ t, a = some t → Evolves F s t)
    (hb : ∀ t, b = some t → Evolves F s t) : ∀ t, (if c then a else b) = some t → Evolves F s t := by split <;> assumption

theorem evo_some {F : List StateField} {s x : State} (h : Evolves F s x) : ∀ t, some x = some t → Evolves F s t :=
  fun _ e => Option.some.inj e ▸ h

theorem evo_none {F : List StateField} {s : State} : ∀ t, none = some t → Evolves F s t := fun _ e => nomatch e

theorem evp_ite {F : List StateField} {s : State} {a b : Option (State × Nat)} {c : Prop} [Decidable c]
    (ha : ∀ t, a = some t → Evolves F s t.1) (hb : ∀ t, b = some t → Evolves F s t.1) :
    ∀ t, (if c then a else b) = some t → Evolves F s t.1 := by split <;> assumption

theorem evp_some {F : List StateField} {s : State} {x : State × Nat} (h : Evolves F s x.1) : ∀ t, some x = some t → Evolves F s t.1 :=
  fun _ e => Option.some.inj e ▸ h

theorem evp_none {F : List StateField} {s : State} : ∀ t : State × Nat, none = some t → Evolves F s t.1 := fun _ e => nomatch e

theorem ev_getD {F : List StateField} {s u : State} {o : Option State} (ho : ∀ t, o = some t → Evolves F s t) (h : Evolves F s u) :
    Evolves F s (o.getD u) := by
  cases o
  · exact h
  · exact ho _ rfl

theorem ev_fst {F : List StateField} {s t : State} {β : Type} {p : State × β} {y : β} (e : p = (t, y)) (h : Evolves F s p.1) :
    Evolves F s t := by rw [e] at h; exact h

theorem ev_snd {F : List StateField} {s t : State} {β : Type} {p : β × State} {y : β} (e : p = (y, t)) (h : Evolves F s p.2) :
    Evolves F s t := by rw [e] at h; exact h

/-- A state that differs from an earlier one in fields of the list alone. -/
theorem ev_of {F : List StateField} {s0 s t : State} (h : Evolves F s0 s) (hp : t.pending = s.pending) (hc : t.chip = s.chip)
    (hr : s.rollback ≤ t.rollback) (hf : s.freeCount ≤ t.freeCount) (ho : s.out <+: t.out) (hw : s.Canonical → t.Canonical)
    (hx : ∀ x, F.contains x = false → x.same s t) : Evolves F s0 t :=
  ⟨hp.trans h.pending, hc.trans h.chip, h.rollback.trans hr, h.freeCount.trans hf, h.out.trans ho, fun c => hw (h.canonical c),
   fun x hn => same_trans x (h.frame x hn) (hx x hn)⟩

theorem not_contains {F : List StateField} {x y : StateField} (hx : F.contains x = true) (hy : F.contains y = false) : y ≠ x :=
  fun e => by rw [e, hx] at hy; exact absurd hy (by decide)

theorem swf_sdel {α : Type} [DecidableEq α] (d : Nat → α) (m : Sparse α) (k : Nat) (h : swf d m = true) : swf d (sdel m k) = true :=
  swf_filter d _ m h

theorem mem_sset {α : Type} [DecidableEq α] (d : Nat → α) (m : Sparse α) (k : Nat) (v : α) (x : Nat × α) (h : x ∈ sset d m k v) :
    x ∈ m ∨ x = (k, v) := by
  unfold sset at h
  split at h
  · exact .inl (List.mem_of_mem_filter h)
  · clear * - h
    induction m with
    | nil => simp [sins] at h; exact .inr h
    | cons p m ih =>
      unfold sins at h
      split at h
      · rcases List.mem_cons.mp h with h | h
        · exact .inr h
        · exact .inl h
      · split at h
        · rcases List.mem_cons.mp h with h | h
          · exact .inr h
          · exact .inl (List.mem_cons_of_mem _ h)
        · rcases List.mem_cons.mp h with h | h
          · exact .inl (h ▸ List.mem_cons_self ..)
          · rcases ih h with h | h
            · exact .inl (List.mem_cons_of_mem _ h)
            · exact .inr h

theorem sget_mem {α : Type} (d : Nat → α) (m : Sparse α) (k : Nat) : sget d m k = d k ∨ (k, sget d m k) ∈ m := by
  induction m with
  | nil => exact .inl rfl
  | cons p m ih =>
    obtain ⟨a, b⟩ := p
    unfold sget
    split
    · rename_i h; subst h; exact .inr (List.mem_cons_self ..)
    · exact ih.imp id (List.mem_cons_of_mem _)

theorem swf_nil {α : Type} [DecidableEq α] (d : Nat → α) : swf d ([] : Sparse α) = true := rfl

theorem swf_bankSet (c : Chip) (b : Sparse Word) (r : RF) (v : Nat) (h : swf (regReset c) b = true) : swf (regReset c) (bankSet c b r v) = true :=
  swf_sset _ _ _ _ h

theorem swf_profSet {s : State} (c : s.Canonical) (p : Nat) : swf (regReset s.chip) (sget (fun _ => []) s.ldr.profSets p) = true := by
  rcases sget_mem (fun _ => []) s.ldr.profSets p with h | h
  · rw [h]; rfl
  · exact c.profSets _ h

theorem profSets_sset {c : Chip} {m : Sparse (Sparse Word)} (h : ∀ x ∈ m, swf (regReset c) x.2 = true) (p : Nat) {v : Sparse Word}
    (hv : swf (regReset c) v = true) : ∀ x ∈ sset (fun _ => []) m p v, swf (regReset c) x.2 = true := fun x hx => by
  rcases mem_sset _ _ _ _ _ hx with h' | h'
  · exact h x h'
  · rw [h']; exact hv

theorem swf_foldl_sset (d : Nat → Word) (f : Sparse Word → Nat × Word → Word) (l : Sparse Word) : ∀ m : Sparse Word, swf d m = true →
    swf d (l.foldl (fun m w => sset d m w.1 (f m w)) m) = true := by
  induction l with
  | nil => exact fun _ h => h
  | cons x l ih => exact fun m h => ih _ (swf_sset _ _ _ _ h)

theorem swf_bankOf {s : State} (c : s.Canonical) (ep : Nat) : swf (regReset s.chip) (bankOf s ep) = true := by
  unfold bankOf; split
  · exact c.cfgA
  · exact c.cfgO

theorem swf_freshBank (s : State) : swf (regReset s.chip) (freshBank s) = true :=
  swf_bankSet _ _ _ _ (swf_bankSet _ _ _ _ rfl)

theorem swf_freshBank_of {s : State} {c : Chip} (h : s.chip = c) : swf (regReset c) (freshBank s) = true := h ▸ swf_freshBank s

theorem swf_setOfProfile {s : State} (c : s.Canonical) (p : Nat) : swf (regReset s.chip) (setOfProfile s p) = true := by
  unfold setOfProfile; split
  · exact swf_profSet c p
  · exact c.baseSet

/-- A filterMap that keeps the keys keeps them rising. -/
theorem risingFrom_filterMap {α : Type} (f : Nat × α → Option (Nat × α)) (hf : ∀ x y, f x = some y → y.1 = x.1) (m : Sparse α) :
    ∀ lo, risingFrom lo m = true → risingFrom lo (m.filterMap f) = true := by
  induction m with
  | nil => intro _ h; exact h
  | cons p m ih =>
    intro lo h
    simp only [risingFrom, Bool.and_eq_true, decide_eq_true_eq] at h
    rw [List.filterMap_cons]
    cases e : f p with
    | none => exact risingFrom_le _ _ _ (by omega) (ih _ h.2)
    | some y =>
      have := hf p y e
      simp only [risingFrom, Bool.and_eq_true, decide_eq_true_eq]
      exact ⟨this ▸ h.1, this ▸ ih _ h.2⟩

/-- A state whose bank, LIVE words and loader come from an earlier state of the same command. -/
theorem ev_restore {F : List StateField} {s s1 u : State} {l : LdrSt} (hb : F.contains .cfgB = true) (hl : F.contains .liveB = true)
    (hr : F.contains .ldr = true) (h1 : Evolves F s s1) (h2 : Evolves F s u)
    (hw : u.Canonical → (∀ x ∈ l.profSets, swf (regReset u.chip) x.2 = true) ∧ swf (regReset u.chip) l.baseSet = true) :
    Evolves F s { u with cfgB := s1.cfgB, liveB := s1.liveB, ldr := l } :=
  ⟨h2.pending, h2.chip, h2.rollback, h2.freeCount, h2.out, fun c =>
    have k1 := h1.canonical c
    have k2 := h2.canonical c
    have e : u.chip = s1.chip := h2.chip.trans h1.chip.symm
    ⟨k2.regs, e ▸ k1.cfgB, k2.cfgA, k2.cfgO, k2.cfgX, e ▸ k1.liveB, k2.liveA, k2.flash, k2.jmem, k2.ram, (hw k2).1, (hw k2).2⟩,
   fun x hx => by
    have hb' := not_contains hb hx; have hl' := not_contains hl hx; have hr' := not_contains hr hx
    have hu := h2.frame x hx
    cases x <;> first | exact hu | contradiction⟩

theorem risingFrom_append {α : Type} (m n : Sparse α) : ∀ lo mid : Nat, lo ≤ mid → risingFrom lo m = true → (∀ x ∈ m, x.1 < mid) →
    risingFrom mid n = true → risingFrom lo (m ++ n) = true := by
  induction m with
  | nil => exact fun lo mid h _ _ hn => risingFrom_le _ _ _ h hn
  | cons p m ih =>
    intro lo mid _ hm hx hn
    simp only [risingFrom, Bool.and_eq_true, decide_eq_true_eq] at hm
    simp only [List.cons_append, risingFrom, Bool.and_eq_true, decide_eq_true_eq]
    exact ⟨hm.1, ih _ mid (hx p (List.mem_cons_self ..)) hm.2 (fun x h => hx x (List.mem_cons_of_mem _ h)) hn⟩

theorem risingFrom_above {α : Type} (m : Sparse α) : ∀ lo mid : Nat, risingFrom lo m = true → (∀ x ∈ m, mid ≤ x.1) → risingFrom mid m = true := by
  cases m with
  | nil => intros; rfl
  | cons p m =>
    intro lo mid h hx
    simp only [risingFrom, Bool.and_eq_true, decide_eq_true_eq] at h ⊢
    exact ⟨hx p (List.mem_cons_self ..), h.2⟩

theorem swf_splice (d : Nat → Word) (a b : Sparse Word) (lo hi : Nat) (hl : lo ≤ hi) (ha : swf d a = true) (hb : swf d b = true) :
    swf d ((a.filter fun x => decide (x.1 < lo)) ++ bankRange b lo hi ++ (a.filter fun x => decide (hi ≤ x.1))) = true := by
  have fa := swf_filter d (fun x => decide (x.1 < lo)) a ha
  have fb := swf_filter d (fun x => decide (lo ≤ x.1) && decide (x.1 < hi)) b hb
  have fc := swf_filter d (fun x => decide (hi ≤ x.1)) a ha
  have hlo : ∀ x ∈ a.filter (fun x => decide (x.1 < lo)), x.1 < lo := fun x h => by simpa using (List.mem_filter.mp h).2
  have hmid : ∀ x ∈ bankRange b lo hi, lo ≤ x.1 ∧ x.1 < hi := fun x h => by simpa using (List.mem_filter.mp h).2
  have hhi : ∀ x ∈ a.filter (fun x => decide (hi ≤ x.1)), hi ≤ x.1 := fun x h => by simpa using (List.mem_filter.mp h).2
  simp only [swf, Bool.and_eq_true] at fa fb fc ⊢
  refine ⟨?_, by simp only [List.all_append, Bool.and_eq_true]; exact ⟨⟨fa.2, fb.2⟩, fc.2⟩⟩
  rw [List.append_assoc]
  exact risingFrom_append _ _ 0 lo (Nat.zero_le _) fa.1 hlo
    (risingFrom_append _ _ lo hi hl (risingFrom_above _ 0 lo fb.1 fun x h => (hmid x h).1) (fun x h => (hmid x h).2)
      (risingFrom_above _ 0 hi fc.1 hhi))

theorem ev_rollback {F : List StateField} {s0 s : State} {v : Nat} (hx : F.contains .rollback = true) (h : Evolves F s0 s) (hv : s.rollback ≤ v) :
    Evolves F s0 { s with rollback := v } :=
  ev_of h rfl rfl hv le_rfl List.prefix_rfl (fun c => ⟨c.regs, c.cfgB, c.cfgA, c.cfgO, c.cfgX, c.liveB, c.liveA, c.flash, c.jmem, c.ram, c.profSets, c.baseSet⟩)
    (fun y hy => by have := not_contains hx hy; cases y <;> first | rfl | contradiction)

theorem ev_pins {F : List StateField} {s0 s : State} {v : Pins} (hx : F.contains .pins = true) (h : Evolves F s0 s) :
    Evolves F s0 { s with pins := v } :=
  ev_of h rfl rfl le_rfl le_rfl List.prefix_rfl (fun c => ⟨c.regs, c.cfgB, c.cfgA, c.cfgO, c.cfgX, c.liveB, c.liveA, c.flash, c.jmem, c.ram, c.profSets, c.baseSet⟩)
    (fun y hy => by have := not_contains hx hy; cases y <;> first | rfl | contradiction)

theorem ev_now {F : List StateField} {s0 s : State} {v : Nat} (hx : F.contains .now = true) (h : Evolves F s0 s) :
    Evolves F s0 { s with now := v } :=
  ev_of h rfl rfl le_rfl le_rfl List.prefix_rfl (fun c => ⟨c.regs, c.cfgB, c.cfgA, c.cfgO, c.cfgX, c.liveB, c.liveA, c.flash, c.jmem, c.ram, c.profSets, c.baseSet⟩)
    (fun y hy => by have := not_contains hx hy; cases y <;> first | rfl | contradiction)

theorem ev_regs {F : List StateField} {s0 s : State} {v : Sparse Word} (hx : F.contains .regs = true) (h : Evolves F s0 s) (hw : s.Canonical → swf (regReset s.chip) v = true) :
    Evolves F s0 { s with regs := v } :=
  ev_of h rfl rfl le_rfl le_rfl List.prefix_rfl (fun c => ⟨hw c, c.cfgB, c.cfgA, c.cfgO, c.cfgX, c.liveB, c.liveA, c.flash, c.jmem, c.ram, c.profSets, c.baseSet⟩)
    (fun y hy => by have := not_contains hx hy; cases y <;> first | rfl | contradiction)

theorem ev_cfgB {F : List StateField} {s0 s : State} {v : Sparse Word} (hx : F.contains .cfgB = true) (h : Evolves F s0 s) (hw : s.Canonical → swf (regReset s.chip) v = true) :
    Evolves F s0 { s with cfgB := v } :=
  ev_of h rfl rfl le_rfl le_rfl List.prefix_rfl (fun c => ⟨c.regs, hw c, c.cfgA, c.cfgO, c.cfgX, c.liveB, c.liveA, c.flash, c.jmem, c.ram, c.profSets, c.baseSet⟩)
    (fun y hy => by have := not_contains hx hy; cases y <;> first | rfl | contradiction)

theorem ev_cfgA {F : List StateField} {s0 s : State} {v : Sparse Word} (hx : F.contains .cfgA = true) (h : Evolves F s0 s) (hw : s.Canonical → swf (regReset s.chip) v = true) :
    Evolves F s0 { s with cfgA := v } :=
  ev_of h rfl rfl le_rfl le_rfl List.prefix_rfl (fun c => ⟨c.regs, c.cfgB, hw c, c.cfgO, c.cfgX, c.liveB, c.liveA, c.flash, c.jmem, c.ram, c.profSets, c.baseSet⟩)
    (fun y hy => by have := not_contains hx hy; cases y <;> first | rfl | contradiction)

theorem ev_cfgO {F : List StateField} {s0 s : State} {v : Sparse Word} (hx : F.contains .cfgO = true) (h : Evolves F s0 s) (hw : s.Canonical → swf (regReset s.chip) v = true) :
    Evolves F s0 { s with cfgO := v } :=
  ev_of h rfl rfl le_rfl le_rfl List.prefix_rfl (fun c => ⟨c.regs, c.cfgB, c.cfgA, hw c, c.cfgX, c.liveB, c.liveA, c.flash, c.jmem, c.ram, c.profSets, c.baseSet⟩)
    (fun y hy => by have := not_contains hx hy; cases y <;> first | rfl | contradiction)

theorem ev_cfgX {F : List StateField} {s0 s : State} {v : Sparse Word} (hx : F.contains .cfgX = true) (h : Evolves F s0 s) (hw : s.Canonical → swf (regReset s.chip) v = true) :
    Evolves F s0 { s with cfgX := v } :=
  ev_of h rfl rfl le_rfl le_rfl List.prefix_rfl (fun c => ⟨c.regs, c.cfgB, c.cfgA, c.cfgO, hw c, c.liveB, c.liveA, c.flash, c.jmem, c.ram, c.profSets, c.baseSet⟩)
    (fun y hy => by have := not_contains hx hy; cases y <;> first | rfl | contradiction)

theorem ev_liveB {F : List StateField} {s0 s : State} {v : Sparse Word} (hx : F.contains .liveB = true) (h : Evolves F s0 s) (hw : s.Canonical → swf (regReset s.chip) v = true) :
    Evolves F s0 { s with liveB := v } :=
  ev_of h rfl rfl le_rfl le_rfl List.prefix_rfl (fun c => ⟨c.regs, c.cfgB, c.cfgA, c.cfgO, c.cfgX, hw c, c.liveA, c.flash, c.jmem, c.ram, c.profSets, c.baseSet⟩)
    (fun y hy => by have := not_contains hx hy; cases y <;> first | rfl | contradiction)

theorem ev_liveA {F : List StateField} {s0 s : State} {v : Sparse Word} (hx : F.contains .liveA = true) (h : Evolves F s0 s) (hw : s.Canonical → swf (regReset s.chip) v = true) :
    Evolves F s0 { s with liveA := v } :=
  ev_of h rfl rfl le_rfl le_rfl List.prefix_rfl (fun c => ⟨c.regs, c.cfgB, c.cfgA, c.cfgO, c.cfgX, c.liveB, hw c, c.flash, c.jmem, c.ram, c.profSets, c.baseSet⟩)
    (fun y hy => by have := not_contains hx hy; cases y <;> first | rfl | contradiction)

theorem ev_islEpoch {F : List StateField} {s0 s : State} {v : Sparse Nat} (hx : F.contains .islEpoch = true) (h : Evolves F s0 s) :
    Evolves F s0 { s with islEpoch := v } :=
  ev_of h rfl rfl le_rfl le_rfl List.prefix_rfl (fun c => ⟨c.regs, c.cfgB, c.cfgA, c.cfgO, c.cfgX, c.liveB, c.liveA, c.flash, c.jmem, c.ram, c.profSets, c.baseSet⟩)
    (fun y hy => by have := not_contains hx hy; cases y <;> first | rfl | contradiction)

theorem ev_ldr {F : List StateField} {s0 s : State} {v : LdrSt} (hx : F.contains .ldr = true) (h : Evolves F s0 s) (hw : s.Canonical → (∀ x ∈ v.profSets, swf (regReset s.chip) x.2 = true) ∧ swf (regReset s.chip) v.baseSet = true) :
    Evolves F s0 { s with ldr := v } :=
  ev_of h rfl rfl le_rfl le_rfl List.prefix_rfl (fun c => ⟨c.regs, c.cfgB, c.cfgA, c.cfgO, c.cfgX, c.liveB, c.liveA, c.flash, c.jmem, c.ram, (hw c).1, (hw c).2⟩)
    (fun y hy => by have := not_contains hx hy; cases y <;> first | rfl | contradiction)

theorem ev_queues {F : List StateField} {s0 s : State} {v : Sparse QueueSt} (hx : F.contains .queues = true) (h : Evolves F s0 s) :
    Evolves F s0 { s with queues := v } :=
  ev_of h rfl rfl le_rfl le_rfl List.prefix_rfl (fun c => ⟨c.regs, c.cfgB, c.cfgA, c.cfgO, c.cfgX, c.liveB, c.liveA, c.flash, c.jmem, c.ram, c.profSets, c.baseSet⟩)
    (fun y hy => by have := not_contains hx hy; cases y <;> first | rfl | contradiction)

theorem ev_readPorts {F : List StateField} {s0 s : State} {v : Sparse PortSt} (hx : F.contains .readPorts = true) (h : Evolves F s0 s) :
    Evolves F s0 { s with readPorts := v } :=
  ev_of h rfl rfl le_rfl le_rfl List.prefix_rfl (fun c => ⟨c.regs, c.cfgB, c.cfgA, c.cfgO, c.cfgX, c.liveB, c.liveA, c.flash, c.jmem, c.ram, c.profSets, c.baseSet⟩)
    (fun y hy => by have := not_contains hx hy; cases y <;> first | rfl | contradiction)

theorem ev_hostPorts {F : List StateField} {s0 s : State} {v : Sparse HostPortSt} (hx : F.contains .hostPorts = true) (h : Evolves F s0 s) :
    Evolves F s0 { s with hostPorts := v } :=
  ev_of h rfl rfl le_rfl le_rfl List.prefix_rfl (fun c => ⟨c.regs, c.cfgB, c.cfgA, c.cfgO, c.cfgX, c.liveB, c.liveA, c.flash, c.jmem, c.ram, c.profSets, c.baseSet⟩)
    (fun y hy => by have := not_contains hx hy; cases y <;> first | rfl | contradiction)

theorem ev_svcStats {F : List StateField} {s0 s : State} {v : List (Nat × List Nat)} (hx : F.contains .svcStats = true) (h : Evolves F s0 s) :
    Evolves F s0 { s with svcStats := v } :=
  ev_of h rfl rfl le_rfl le_rfl List.prefix_rfl (fun c => ⟨c.regs, c.cfgB, c.cfgA, c.cfgO, c.cfgX, c.liveB, c.liveA, c.flash, c.jmem, c.ram, c.profSets, c.baseSet⟩)
    (fun y hy => by have := not_contains hx hy; cases y <;> first | rfl | contradiction)

theorem ev_jnl {F : List StateField} {s0 s : State} {v : JnlSt} (hx : F.contains .jnl = true) (h : Evolves F s0 s) :
    Evolves F s0 { s with jnl := v } :=
  ev_of h rfl rfl le_rfl le_rfl List.prefix_rfl (fun c => ⟨c.regs, c.cfgB, c.cfgA, c.cfgO, c.cfgX, c.liveB, c.liveA, c.flash, c.jmem, c.ram, c.profSets, c.baseSet⟩)
    (fun y hy => by have := not_contains hx hy; cases y <;> first | rfl | contradiction)

theorem ev_rsv {F : List StateField} {s0 s : State} {v : RsvSt} (hx : F.contains .rsv = true) (h : Evolves F s0 s) :
    Evolves F s0 { s with rsv := v } :=
  ev_of h rfl rfl le_rfl le_rfl List.prefix_rfl (fun c => ⟨c.regs, c.cfgB, c.cfgA, c.cfgO, c.cfgX, c.liveB, c.liveA, c.flash, c.jmem, c.ram, c.profSets, c.baseSet⟩)
    (fun y hy => by have := not_contains hx hy; cases y <;> first | rfl | contradiction)

theorem ev_cams {F : List StateField} {s0 s : State} {v : Sparse CamSt} (hx : F.contains .cams = true) (h : Evolves F s0 s) :
    Evolves F s0 { s with cams := v } :=
  ev_of h rfl rfl le_rfl le_rfl List.prefix_rfl (fun c => ⟨c.regs, c.cfgB, c.cfgA, c.cfgO, c.cfgX, c.liveB, c.liveA, c.flash, c.jmem, c.ram, c.profSets, c.baseSet⟩)
    (fun y hy => by have := not_contains hx hy; cases y <;> first | rfl | contradiction)

theorem ev_twbs {F : List StateField} {s0 s : State} {v : Sparse TwbSt} (hx : F.contains .twbs = true) (h : Evolves F s0 s) :
    Evolves F s0 { s with twbs := v } :=
  ev_of h rfl rfl le_rfl le_rfl List.prefix_rfl (fun c => ⟨c.regs, c.cfgB, c.cfgA, c.cfgO, c.cfgX, c.liveB, c.liveA, c.flash, c.jmem, c.ram, c.profSets, c.baseSet⟩)
    (fun y hy => by have := not_contains hx hy; cases y <;> first | rfl | contradiction)

theorem ev_frames {F : List StateField} {s0 s : State} {v : List FrameSt} (hx : F.contains .frames = true) (h : Evolves F s0 s) :
    Evolves F s0 { s with frames := v } :=
  ev_of h rfl rfl le_rfl le_rfl List.prefix_rfl (fun c => ⟨c.regs, c.cfgB, c.cfgA, c.cfgO, c.cfgX, c.liveB, c.liveA, c.flash, c.jmem, c.ram, c.profSets, c.baseSet⟩)
    (fun y hy => by have := not_contains hx hy; cases y <;> first | rfl | contradiction)

theorem ev_nextFrame {F : List StateField} {s0 s : State} {v : Nat} (hx : F.contains .nextFrame = true) (h : Evolves F s0 s) :
    Evolves F s0 { s with nextFrame := v } :=
  ev_of h rfl rfl le_rfl le_rfl List.prefix_rfl (fun c => ⟨c.regs, c.cfgB, c.cfgA, c.cfgO, c.cfgX, c.liveB, c.liveA, c.flash, c.jmem, c.ram, c.profSets, c.baseSet⟩)
    (fun y hy => by have := not_contains hx hy; cases y <;> first | rfl | contradiction)

theorem ev_running {F : List StateField} {s0 s : State} {v : List Running} (hx : F.contains .running = true) (h : Evolves F s0 s) :
    Evolves F s0 { s with running := v } :=
  ev_of h rfl rfl le_rfl le_rfl List.prefix_rfl (fun c => ⟨c.regs, c.cfgB, c.cfgA, c.cfgO, c.cfgX, c.liveB, c.liveA, c.flash, c.jmem, c.ram, c.profSets, c.baseSet⟩)
    (fun y hy => by have := not_contains hx hy; cases y <;> first | rfl | contradiction)

theorem ev_syncs {F : List StateField} {s0 s : State} {v : List SyncSt} (hx : F.contains .syncs = true) (h : Evolves F s0 s) :
    Evolves F s0 { s with syncs := v } :=
  ev_of h rfl rfl le_rfl le_rfl List.prefix_rfl (fun c => ⟨c.regs, c.cfgB, c.cfgA, c.cfgO, c.cfgX, c.liveB, c.liveA, c.flash, c.jmem, c.ram, c.profSets, c.baseSet⟩)
    (fun y hy => by have := not_contains hx hy; cases y <;> first | rfl | contradiction)

theorem ev_statCount {F : List StateField} {s0 s : State} {v : Sparse Nat} (hx : F.contains .statCount = true) (h : Evolves F s0 s) :
    Evolves F s0 { s with statCount := v } :=
  ev_of h rfl rfl le_rfl le_rfl List.prefix_rfl (fun c => ⟨c.regs, c.cfgB, c.cfgA, c.cfgO, c.cfgX, c.liveB, c.liveA, c.flash, c.jmem, c.ram, c.profSets, c.baseSet⟩)
    (fun y hy => by have := not_contains hx hy; cases y <;> first | rfl | contradiction)

theorem ev_outs {F : List StateField} {s0 s : State} {v : List OutFrame} (hx : F.contains .outs = true) (h : Evolves F s0 s) :
    Evolves F s0 { s with outs := v } :=
  ev_of h rfl rfl le_rfl le_rfl List.prefix_rfl (fun c => ⟨c.regs, c.cfgB, c.cfgA, c.cfgO, c.cfgX, c.liveB, c.liveA, c.flash, c.jmem, c.ram, c.profSets, c.baseSet⟩)
    (fun y hy => by have := not_contains hx hy; cases y <;> first | rfl | contradiction)

theorem ev_nextOut {F : List StateField} {s0 s : State} {v : Nat} (hx : F.contains .nextOut = true) (h : Evolves F s0 s) :
    Evolves F s0 { s with nextOut := v } :=
  ev_of h rfl rfl le_rfl le_rfl List.prefix_rfl (fun c => ⟨c.regs, c.cfgB, c.cfgA, c.cfgO, c.cfgX, c.liveB, c.liveA, c.flash, c.jmem, c.ram, c.profSets, c.baseSet⟩)
    (fun y hy => by have := not_contains hx hy; cases y <;> first | rfl | contradiction)

theorem ev_inAlive {F : List StateField} {s0 s : State} {v : Sparse Nat} (hx : F.contains .inAlive = true) (h : Evolves F s0 s) :
    Evolves F s0 { s with inAlive := v } :=
  ev_of h rfl rfl le_rfl le_rfl List.prefix_rfl (fun c => ⟨c.regs, c.cfgB, c.cfgA, c.cfgO, c.cfgX, c.liveB, c.liveA, c.flash, c.jmem, c.ram, c.profSets, c.baseSet⟩)
    (fun y hy => by have := not_contains hx hy; cases y <;> first | rfl | contradiction)

theorem ev_doneKeys {F : List StateField} {s0 s : State} {v : Sparse Nat} (hx : F.contains .doneKeys = true) (h : Evolves F s0 s) :
    Evolves F s0 { s with doneKeys := v } :=
  ev_of h rfl rfl le_rfl le_rfl List.prefix_rfl (fun c => ⟨c.regs, c.cfgB, c.cfgA, c.cfgO, c.cfgX, c.liveB, c.liveA, c.flash, c.jmem, c.ram, c.profSets, c.baseSet⟩)
    (fun y hy => by have := not_contains hx hy; cases y <;> first | rfl | contradiction)

theorem ev_holds {F : List StateField} {s0 s : State} {v : Sparse HoldSt} (hx : F.contains .holds = true) (h : Evolves F s0 s) :
    Evolves F s0 { s with holds := v } :=
  ev_of h rfl rfl le_rfl le_rfl List.prefix_rfl (fun c => ⟨c.regs, c.cfgB, c.cfgA, c.cfgO, c.cfgX, c.liveB, c.liveA, c.flash, c.jmem, c.ram, c.profSets, c.baseSet⟩)
    (fun y hy => by have := not_contains hx hy; cases y <;> first | rfl | contradiction)

theorem ev_txs {F : List StateField} {s0 s : State} {v : Sparse TxSt} (hx : F.contains .txs = true) (h : Evolves F s0 s) :
    Evolves F s0 { s with txs := v } :=
  ev_of h rfl rfl le_rfl le_rfl List.prefix_rfl (fun c => ⟨c.regs, c.cfgB, c.cfgA, c.cfgO, c.cfgX, c.liveB, c.liveA, c.flash, c.jmem, c.ram, c.profSets, c.baseSet⟩)
    (fun y hy => by have := not_contains hx hy; cases y <;> first | rfl | contradiction)

theorem ev_chans {F : List StateField} {s0 s : State} {v : Sparse ChanSt} (hx : F.contains .chans = true) (h : Evolves F s0 s) :
    Evolves F s0 { s with chans := v } :=
  ev_of h rfl rfl le_rfl le_rfl List.prefix_rfl (fun c => ⟨c.regs, c.cfgB, c.cfgA, c.cfgO, c.cfgX, c.liveB, c.liveA, c.flash, c.jmem, c.ram, c.profSets, c.baseSet⟩)
    (fun y hy => by have := not_contains hx hy; cases y <;> first | rfl | contradiction)

theorem ev_weaves {F : List StateField} {s0 s : State} {v : Sparse WvSt} (hx : F.contains .weaves = true) (h : Evolves F s0 s) :
    Evolves F s0 { s with weaves := v } :=
  ev_of h rfl rfl le_rfl le_rfl List.prefix_rfl (fun c => ⟨c.regs, c.cfgB, c.cfgA, c.cfgO, c.cfgX, c.liveB, c.liveA, c.flash, c.jmem, c.ram, c.profSets, c.baseSet⟩)
    (fun y hy => by have := not_contains hx hy; cases y <;> first | rfl | contradiction)

theorem ev_outFlows {F : List StateField} {s0 s : State} {v : List OutFlow} (hx : F.contains .outFlows = true) (h : Evolves F s0 s) :
    Evolves F s0 { s with outFlows := v } :=
  ev_of h rfl rfl le_rfl le_rfl List.prefix_rfl (fun c => ⟨c.regs, c.cfgB, c.cfgA, c.cfgO, c.cfgX, c.liveB, c.liveA, c.flash, c.jmem, c.ram, c.profSets, c.baseSet⟩)
    (fun y hy => by have := not_contains hx hy; cases y <;> first | rfl | contradiction)

theorem ev_fab {F : List StateField} {s0 s : State} {v : FabSt} (hx : F.contains .fab = true) (h : Evolves F s0 s) :
    Evolves F s0 { s with fab := v } :=
  ev_of h rfl rfl le_rfl le_rfl List.prefix_rfl (fun c => ⟨c.regs, c.cfgB, c.cfgA, c.cfgO, c.cfgX, c.liveB, c.liveA, c.flash, c.jmem, c.ram, c.profSets, c.baseSet⟩)
    (fun y hy => by have := not_contains hx hy; cases y <;> first | rfl | contradiction)

theorem ev_rly {F : List StateField} {s0 s : State} {v : RlySt} (hx : F.contains .rly = true) (h : Evolves F s0 s) :
    Evolves F s0 { s with rly := v } :=
  ev_of h rfl rfl le_rfl le_rfl List.prefix_rfl (fun c => ⟨c.regs, c.cfgB, c.cfgA, c.cfgO, c.cfgX, c.liveB, c.liveA, c.flash, c.jmem, c.ram, c.profSets, c.baseSet⟩)
    (fun y hy => by have := not_contains hx hy; cases y <;> first | rfl | contradiction)

theorem ev_mnt {F : List StateField} {s0 s : State} {v : MntSt} (hx : F.contains .mnt = true) (h : Evolves F s0 s) :
    Evolves F s0 { s with mnt := v } :=
  ev_of h rfl rfl le_rfl le_rfl List.prefix_rfl (fun c => ⟨c.regs, c.cfgB, c.cfgA, c.cfgO, c.cfgX, c.liveB, c.liveA, c.flash, c.jmem, c.ram, c.profSets, c.baseSet⟩)
    (fun y hy => by have := not_contains hx hy; cases y <;> first | rfl | contradiction)

theorem ev_time {F : List StateField} {s0 s : State} {v : TimeSt} (hx : F.contains .time = true) (h : Evolves F s0 s) :
    Evolves F s0 { s with time := v } :=
  ev_of h rfl rfl le_rfl le_rfl List.prefix_rfl (fun c => ⟨c.regs, c.cfgB, c.cfgA, c.cfgO, c.cfgX, c.liveB, c.liveA, c.flash, c.jmem, c.ram, c.profSets, c.baseSet⟩)
    (fun y hy => by have := not_contains hx hy; cases y <;> first | rfl | contradiction)

theorem ev_eths {F : List StateField} {s0 s : State} {v : Sparse EthSt} (hx : F.contains .eths = true) (h : Evolves F s0 s) :
    Evolves F s0 { s with eths := v } :=
  ev_of h rfl rfl le_rfl le_rfl List.prefix_rfl (fun c => ⟨c.regs, c.cfgB, c.cfgA, c.cfgO, c.cfgX, c.liveB, c.liveA, c.flash, c.jmem, c.ram, c.profSets, c.baseSet⟩)
    (fun y hy => by have := not_contains hx hy; cases y <;> first | rfl | contradiction)

theorem ev_mot {F : List StateField} {s0 s : State} {v : MotSt} (hx : F.contains .mot = true) (h : Evolves F s0 s) :
    Evolves F s0 { s with mot := v } :=
  ev_of h rfl rfl le_rfl le_rfl List.prefix_rfl (fun c => ⟨c.regs, c.cfgB, c.cfgA, c.cfgO, c.cfgX, c.liveB, c.liveA, c.flash, c.jmem, c.ram, c.profSets, c.baseSet⟩)
    (fun y hy => by have := not_contains hx hy; cases y <;> first | rfl | contradiction)

theorem ev_pwrs {F : List StateField} {s0 s : State} {v : Sparse PwrSt} (hx : F.contains .pwrs = true) (h : Evolves F s0 s) :
    Evolves F s0 { s with pwrs := v } :=
  ev_of h rfl rfl le_rfl le_rfl List.prefix_rfl (fun c => ⟨c.regs, c.cfgB, c.cfgA, c.cfgO, c.cfgX, c.liveB, c.liveA, c.flash, c.jmem, c.ram, c.profSets, c.baseSet⟩)
    (fun y hy => by have := not_contains hx hy; cases y <;> first | rfl | contradiction)

theorem ev_pwms {F : List StateField} {s0 s : State} {v : Sparse PwmSt} (hx : F.contains .pwms = true) (h : Evolves F s0 s) :
    Evolves F s0 { s with pwms := v } :=
  ev_of h rfl rfl le_rfl le_rfl List.prefix_rfl (fun c => ⟨c.regs, c.cfgB, c.cfgA, c.cfgO, c.cfgX, c.liveB, c.liveA, c.flash, c.jmem, c.ram, c.profSets, c.baseSet⟩)
    (fun y hy => by have := not_contains hx hy; cases y <;> first | rfl | contradiction)

theorem ev_folds {F : List StateField} {s0 s : State} {v : Sparse Nat} (hx : F.contains .folds = true) (h : Evolves F s0 s) :
    Evolves F s0 { s with folds := v } :=
  ev_of h rfl rfl le_rfl le_rfl List.prefix_rfl (fun c => ⟨c.regs, c.cfgB, c.cfgA, c.cfgO, c.cfgX, c.liveB, c.liveA, c.flash, c.jmem, c.ram, c.profSets, c.baseSet⟩)
    (fun y hy => by have := not_contains hx hy; cases y <;> first | rfl | contradiction)

theorem ev_brg {F : List StateField} {s0 s : State} {v : BrgSt} (hx : F.contains .brg = true) (h : Evolves F s0 s) :
    Evolves F s0 { s with brg := v } :=
  ev_of h rfl rfl le_rfl le_rfl List.prefix_rfl (fun c => ⟨c.regs, c.cfgB, c.cfgA, c.cfgO, c.cfgX, c.liveB, c.liveA, c.flash, c.jmem, c.ram, c.profSets, c.baseSet⟩)
    (fun y hy => by have := not_contains hx hy; cases y <;> first | rfl | contradiction)

theorem ev_loops {F : List StateField} {s0 s : State} {v : Sparse LoopSt} (hx : F.contains .loops = true) (h : Evolves F s0 s) :
    Evolves F s0 { s with loops := v } :=
  ev_of h rfl rfl le_rfl le_rfl List.prefix_rfl (fun c => ⟨c.regs, c.cfgB, c.cfgA, c.cfgO, c.cfgX, c.liveB, c.liveA, c.flash, c.jmem, c.ram, c.profSets, c.baseSet⟩)
    (fun y hy => by have := not_contains hx hy; cases y <;> first | rfl | contradiction)

theorem ev_vcore {F : List StateField} {s0 s : State} {v : VcoreSt} (hx : F.contains .vcore = true) (h : Evolves F s0 s) :
    Evolves F s0 { s with vcore := v } :=
  ev_of h rfl rfl le_rfl le_rfl List.prefix_rfl (fun c => ⟨c.regs, c.cfgB, c.cfgA, c.cfgO, c.cfgX, c.liveB, c.liveA, c.flash, c.jmem, c.ram, c.profSets, c.baseSet⟩)
    (fun y hy => by have := not_contains hx hy; cases y <;> first | rfl | contradiction)

theorem ev_chkAt {F : List StateField} {s0 s : State} {v : Nat} (hx : F.contains .chkAt = true) (h : Evolves F s0 s) :
    Evolves F s0 { s with chkAt := v } :=
  ev_of h rfl rfl le_rfl le_rfl List.prefix_rfl (fun c => ⟨c.regs, c.cfgB, c.cfgA, c.cfgO, c.cfgX, c.liveB, c.liveA, c.flash, c.jmem, c.ram, c.profSets, c.baseSet⟩)
    (fun y hy => by have := not_contains hx hy; cases y <;> first | rfl | contradiction)

theorem ev_checkpoint {F : List StateField} {s0 s : State} {v : Checkpoint} (hx : F.contains .checkpoint = true) (h : Evolves F s0 s) :
    Evolves F s0 { s with checkpoint := v } :=
  ev_of h rfl rfl le_rfl le_rfl List.prefix_rfl (fun c => ⟨c.regs, c.cfgB, c.cfgA, c.cfgO, c.cfgX, c.liveB, c.liveA, c.flash, c.jmem, c.ram, c.profSets, c.baseSet⟩)
    (fun y hy => by have := not_contains hx hy; cases y <;> first | rfl | contradiction)

theorem ev_protoErrs {F : List StateField} {s0 s : State} {v : Sparse Nat} (hx : F.contains .protoErrs = true) (h : Evolves F s0 s) :
    Evolves F s0 { s with protoErrs := v } :=
  ev_of h rfl rfl le_rfl le_rfl List.prefix_rfl (fun c => ⟨c.regs, c.cfgB, c.cfgA, c.cfgO, c.cfgX, c.liveB, c.liveA, c.flash, c.jmem, c.ram, c.profSets, c.baseSet⟩)
    (fun y hy => by have := not_contains hx hy; cases y <;> first | rfl | contradiction)

theorem ev_flash {F : List StateField} {s0 s : State} {v : Mem} (hx : F.contains .flash = true) (h : Evolves F s0 s) (hw : s.Canonical → swf (flashDefault) v = true) :
    Evolves F s0 { s with flash := v } :=
  ev_of h rfl rfl le_rfl le_rfl List.prefix_rfl (fun c => ⟨c.regs, c.cfgB, c.cfgA, c.cfgO, c.cfgX, c.liveB, c.liveA, hw c, c.jmem, c.ram, c.profSets, c.baseSet⟩)
    (fun y hy => by have := not_contains hx hy; cases y <;> first | rfl | contradiction)

theorem ev_jmem {F : List StateField} {s0 s : State} {v : Mem} (hx : F.contains .jmem = true) (h : Evolves F s0 s) (hw : s.Canonical → swf (flashDefault) v = true) :
    Evolves F s0 { s with jmem := v } :=
  ev_of h rfl rfl le_rfl le_rfl List.prefix_rfl (fun c => ⟨c.regs, c.cfgB, c.cfgA, c.cfgO, c.cfgX, c.liveB, c.liveA, c.flash, hw c, c.ram, c.profSets, c.baseSet⟩)
    (fun y hy => by have := not_contains hx hy; cases y <;> first | rfl | contradiction)

theorem ev_ram {F : List StateField} {s0 s : State} {v : Mem} (hx : F.contains .ram = true) (h : Evolves F s0 s) (hw : s.Canonical → swf (ramDefault) v = true) :
    Evolves F s0 { s with ram := v } :=
  ev_of h rfl rfl le_rfl le_rfl List.prefix_rfl (fun c => ⟨c.regs, c.cfgB, c.cfgA, c.cfgO, c.cfgX, c.liveB, c.liveA, c.flash, c.jmem, hw c, c.profSets, c.baseSet⟩)
    (fun y hy => by have := not_contains hx hy; cases y <;> first | rfl | contradiction)

theorem ev_out {F : List StateField} {s0 s : State} {v : List Emit} (hx : F.contains .out = true) (h : Evolves F s0 s) (hv : s.out <+: v) :
    Evolves F s0 { s with out := v } :=
  ev_of h rfl rfl le_rfl le_rfl hv (fun c => ⟨c.regs, c.cfgB, c.cfgA, c.cfgO, c.cfgX, c.liveB, c.liveA, c.flash, c.jmem, c.ram, c.profSets, c.baseSet⟩)
    (fun y hy => by have := not_contains hx hy; cases y <;> first | rfl | contradiction)

theorem ev_freeCount {F : List StateField} {s0 s : State} {v : Nat} (hx : F.contains .freeCount = true) (h : Evolves F s0 s) (hv : s.freeCount ≤ v) :
    Evolves F s0 { s with freeCount := v } :=
  ev_of h rfl rfl le_rfl hv List.prefix_rfl (fun c => ⟨c.regs, c.cfgB, c.cfgA, c.cfgO, c.cfgX, c.liveB, c.liveA, c.flash, c.jmem, c.ram, c.profSets, c.baseSet⟩)
    (fun y hy => by have := not_contains hx hy; cases y <;> first | rfl | contradiction)

theorem ev_chkAt_checkpoint {F : List StateField} {s0 s : State} {v_chkAt : Nat} {v_checkpoint : Checkpoint}
    (hx_chkAt : F.contains .chkAt = true) (hx_checkpoint : F.contains .checkpoint = true) (h : Evolves F s0 s)   :
    Evolves F s0 { s with chkAt := v_chkAt, checkpoint := v_checkpoint } :=
  ev_of h rfl rfl le_rfl le_rfl List.prefix_rfl (fun c => ⟨c.regs, c.cfgB, c.cfgA, c.cfgO, c.cfgX, c.liveB, c.liveA, c.flash, c.jmem, c.ram, c.profSets, c.baseSet⟩)
    (fun y hy => by have := not_contains hx_chkAt hy; have := not_contains hx_checkpoint hy; cases y <;> first | rfl | contradiction)

theorem ev_pins_now_cfgB_cfgA_cfgO_cfgX_time {F : List StateField} {s0 s : State} {v_pins : Pins} {v_now : Nat} {v_cfgB : Sparse Word} {v_cfgA : Sparse Word} {v_cfgO : Sparse Word} {v_cfgX : Sparse Word} {v_time : TimeSt}
    (hx_pins : F.contains .pins = true) (hx_now : F.contains .now = true) (hx_cfgB : F.contains .cfgB = true) (hx_cfgA : F.contains .cfgA = true) (hx_cfgO : F.contains .cfgO = true) (hx_cfgX : F.contains .cfgX = true) (hx_time : F.contains .time = true) (h : Evolves F s0 s) (hw_cfgB : s.Canonical → swf (regReset s.chip) v_cfgB = true) (hw_cfgA : s.Canonical → swf (regReset s.chip) v_cfgA = true) (hw_cfgO : s.Canonical → swf (regReset s.chip) v_cfgO = true) (hw_cfgX : s.Canonical → swf (regReset s.chip) v_cfgX = true)  :
    Evolves F s0 { s with pins := v_pins, now := v_now, cfgB := v_cfgB, cfgA := v_cfgA, cfgO := v_cfgO, cfgX := v_cfgX, time := v_time } :=
  ev_of h rfl rfl le_rfl le_rfl List.prefix_rfl (fun c => ⟨c.regs, hw_cfgB c, hw_cfgA c, hw_cfgO c, hw_cfgX c, c.liveB, c.liveA, c.flash, c.jmem, c.ram, c.profSets, c.baseSet⟩)
    (fun y hy => by have := not_contains hx_pins hy; have := not_contains hx_now hy; have := not_contains hx_cfgB hy; have := not_contains hx_cfgA hy; have := not_contains hx_cfgO hy; have := not_contains hx_cfgX hy; have := not_contains hx_time hy; cases y <;> first | rfl | contradiction)

theorem ev_pins_now_time {F : List StateField} {s0 s : State} {v_pins : Pins} {v_now : Nat} {v_time : TimeSt}
    (hx_pins : F.contains .pins = true) (hx_now : F.contains .now = true) (hx_time : F.contains .time = true) (h : Evolves F s0 s)   :
    Evolves F s0 { s with pins := v_pins, now := v_now, time := v_time } :=
  ev_of h rfl rfl le_rfl le_rfl List.prefix_rfl (fun c => ⟨c.regs, c.cfgB, c.cfgA, c.cfgO, c.cfgX, c.liveB, c.liveA, c.flash, c.jmem, c.ram, c.profSets, c.baseSet⟩)
    (fun y hy => by have := not_contains hx_pins hy; have := not_contains hx_now hy; have := not_contains hx_time hy; cases y <;> first | rfl | contradiction)

theorem ev_jnl_jmem {F : List StateField} {s0 s : State} {v_jnl : JnlSt} {v_jmem : Mem}
    (hx_jnl : F.contains .jnl = true) (hx_jmem : F.contains .jmem = true) (h : Evolves F s0 s) (hw_jmem : s.Canonical → swf (flashDefault) v_jmem = true)  :
    Evolves F s0 { s with jnl := v_jnl, jmem := v_jmem } :=
  ev_of h rfl rfl le_rfl le_rfl List.prefix_rfl (fun c => ⟨c.regs, c.cfgB, c.cfgA, c.cfgO, c.cfgX, c.liveB, c.liveA, c.flash, hw_jmem c, c.ram, c.profSets, c.baseSet⟩)
    (fun y hy => by have := not_contains hx_jnl hy; have := not_contains hx_jmem hy; cases y <;> first | rfl | contradiction)

theorem ev_frames_nextFrame {F : List StateField} {s0 s : State} {v_frames : List FrameSt} {v_nextFrame : Nat}
    (hx_frames : F.contains .frames = true) (hx_nextFrame : F.contains .nextFrame = true) (h : Evolves F s0 s)   :
    Evolves F s0 { s with frames := v_frames, nextFrame := v_nextFrame } :=
  ev_of h rfl rfl le_rfl le_rfl List.prefix_rfl (fun c => ⟨c.regs, c.cfgB, c.cfgA, c.cfgO, c.cfgX, c.liveB, c.liveA, c.flash, c.jmem, c.ram, c.profSets, c.baseSet⟩)
    (fun y hy => by have := not_contains hx_frames hy; have := not_contains hx_nextFrame hy; cases y <;> first | rfl | contradiction)

theorem ev_now_time {F : List StateField} {s0 s : State} {v_now : Nat} {v_time : TimeSt}
    (hx_now : F.contains .now = true) (hx_time : F.contains .time = true) (h : Evolves F s0 s)   :
    Evolves F s0 { s with now := v_now, time := v_time } :=
  ev_of h rfl rfl le_rfl le_rfl List.prefix_rfl (fun c => ⟨c.regs, c.cfgB, c.cfgA, c.cfgO, c.cfgX, c.liveB, c.liveA, c.flash, c.jmem, c.ram, c.profSets, c.baseSet⟩)
    (fun y hy => by have := not_contains hx_now hy; have := not_contains hx_time hy; cases y <;> first | rfl | contradiction)

theorem ev_outs_nextOut {F : List StateField} {s0 s : State} {v_outs : List OutFrame} {v_nextOut : Nat}
    (hx_outs : F.contains .outs = true) (hx_nextOut : F.contains .nextOut = true) (h : Evolves F s0 s)   :
    Evolves F s0 { s with outs := v_outs, nextOut := v_nextOut } :=
  ev_of h rfl rfl le_rfl le_rfl List.prefix_rfl (fun c => ⟨c.regs, c.cfgB, c.cfgA, c.cfgO, c.cfgX, c.liveB, c.liveA, c.flash, c.jmem, c.ram, c.profSets, c.baseSet⟩)
    (fun y hy => by have := not_contains hx_outs hy; have := not_contains hx_nextOut hy; cases y <;> first | rfl | contradiction)

theorem ev_cfgB_liveB_ldr {F : List StateField} {s0 s : State} {v_cfgB : Sparse Word} {v_liveB : Sparse Word} {v_ldr : LdrSt}
    (hx_cfgB : F.contains .cfgB = true) (hx_liveB : F.contains .liveB = true) (hx_ldr : F.contains .ldr = true) (h : Evolves F s0 s) (hw_cfgB : s.Canonical → swf (regReset s.chip) v_cfgB = true) (hw_liveB : s.Canonical → swf (regReset s.chip) v_liveB = true) (hw_ldr : s.Canonical → (∀ x ∈ v_ldr.profSets, swf (regReset s.chip) x.2 = true) ∧ swf (regReset s.chip) v_ldr.baseSet = true)  :
    Evolves F s0 { s with cfgB := v_cfgB, liveB := v_liveB, ldr := v_ldr } :=
  ev_of h rfl rfl le_rfl le_rfl List.prefix_rfl (fun c => ⟨c.regs, hw_cfgB c, c.cfgA, c.cfgO, c.cfgX, hw_liveB c, c.liveA, c.flash, c.jmem, c.ram, (hw_ldr c).1, (hw_ldr c).2⟩)
    (fun y hy => by have := not_contains hx_cfgB hy; have := not_contains hx_liveB hy; have := not_contains hx_ldr hy; cases y <;> first | rfl | contradiction)

theorem ev_cfgB_liveB {F : List StateField} {s0 s : State} {v_cfgB : Sparse Word} {v_liveB : Sparse Word}
    (hx_cfgB : F.contains .cfgB = true) (hx_liveB : F.contains .liveB = true) (h : Evolves F s0 s) (hw_cfgB : s.Canonical → swf (regReset s.chip) v_cfgB = true) (hw_liveB : s.Canonical → swf (regReset s.chip) v_liveB = true)  :
    Evolves F s0 { s with cfgB := v_cfgB, liveB := v_liveB } :=
  ev_of h rfl rfl le_rfl le_rfl List.prefix_rfl (fun c => ⟨c.regs, hw_cfgB c, c.cfgA, c.cfgO, c.cfgX, hw_liveB c, c.liveA, c.flash, c.jmem, c.ram, c.profSets, c.baseSet⟩)
    (fun y hy => by have := not_contains hx_cfgB hy; have := not_contains hx_liveB hy; cases y <;> first | rfl | contradiction)

theorem ev_regs_cfgB_liveB_liveA_ldr_statCount_loops {F : List StateField} {s0 s : State} {v_regs : Sparse Word} {v_cfgB : Sparse Word} {v_liveB : Sparse Word} {v_liveA : Sparse Word} {v_ldr : LdrSt} {v_statCount : Sparse Nat} {v_loops : Sparse LoopSt}
    (hx_regs : F.contains .regs = true) (hx_cfgB : F.contains .cfgB = true) (hx_liveB : F.contains .liveB = true) (hx_liveA : F.contains .liveA = true) (hx_ldr : F.contains .ldr = true) (hx_statCount : F.contains .statCount = true) (hx_loops : F.contains .loops = true) (h : Evolves F s0 s) (hw_regs : s.Canonical → swf (regReset s.chip) v_regs = true) (hw_cfgB : s.Canonical → swf (regReset s.chip) v_cfgB = true) (hw_liveB : s.Canonical → swf (regReset s.chip) v_liveB = true) (hw_liveA : s.Canonical → swf (regReset s.chip) v_liveA = true) (hw_ldr : s.Canonical → (∀ x ∈ v_ldr.profSets, swf (regReset s.chip) x.2 = true) ∧ swf (regReset s.chip) v_ldr.baseSet = true)  :
    Evolves F s0 { s with regs := v_regs, cfgB := v_cfgB, liveB := v_liveB, liveA := v_liveA, ldr := v_ldr, statCount := v_statCount, loops := v_loops } :=
  ev_of h rfl rfl le_rfl le_rfl List.prefix_rfl (fun c => ⟨hw_regs c, hw_cfgB c, c.cfgA, c.cfgO, c.cfgX, hw_liveB c, hw_liveA c, c.flash, c.jmem, c.ram, (hw_ldr c).1, (hw_ldr c).2⟩)
    (fun y hy => by have := not_contains hx_regs hy; have := not_contains hx_cfgB hy; have := not_contains hx_liveB hy; have := not_contains hx_liveA hy; have := not_contains hx_ldr hy; have := not_contains hx_statCount hy; have := not_contains hx_loops hy; cases y <;> first | rfl | contradiction)

theorem ev_rollback_freeCount {F : List StateField} {s0 s : State} {v_rollback : Nat} {v_freeCount : Nat}
    (hx_rollback : F.contains .rollback = true) (hx_freeCount : F.contains .freeCount = true) (h : Evolves F s0 s)  (hv_rollback : s.rollback ≤ v_rollback) (hv_freeCount : s.freeCount ≤ v_freeCount) :
    Evolves F s0 { s with rollback := v_rollback, freeCount := v_freeCount } :=
  ev_of h rfl rfl hv_rollback hv_freeCount List.prefix_rfl (fun c => ⟨c.regs, c.cfgB, c.cfgA, c.cfgO, c.cfgX, c.liveB, c.liveA, c.flash, c.jmem, c.ram, c.profSets, c.baseSet⟩)
    (fun y hy => by have := not_contains hx_rollback hy; have := not_contains hx_freeCount hy; cases y <;> first | rfl | contradiction)

theorem ev_jnl_freeCount {F : List StateField} {s0 s : State} {v_jnl : JnlSt} {v_freeCount : Nat}
    (hx_jnl : F.contains .jnl = true) (hx_freeCount : F.contains .freeCount = true) (h : Evolves F s0 s)  (hv_freeCount : s.freeCount ≤ v_freeCount) :
    Evolves F s0 { s with jnl := v_jnl, freeCount := v_freeCount } :=
  ev_of h rfl rfl le_rfl hv_freeCount List.prefix_rfl (fun c => ⟨c.regs, c.cfgB, c.cfgA, c.cfgO, c.cfgX, c.liveB, c.liveA, c.flash, c.jmem, c.ram, c.profSets, c.baseSet⟩)
    (fun y hy => by have := not_contains hx_jnl hy; have := not_contains hx_freeCount hy; cases y <;> first | rfl | contradiction)

theorem ev_jnl_fab {F : List StateField} {s0 s : State} {v_jnl : JnlSt} {v_fab : FabSt}
    (hx_jnl : F.contains .jnl = true) (hx_fab : F.contains .fab = true) (h : Evolves F s0 s)   :
    Evolves F s0 { s with jnl := v_jnl, fab := v_fab } :=
  ev_of h rfl rfl le_rfl le_rfl List.prefix_rfl (fun c => ⟨c.regs, c.cfgB, c.cfgA, c.cfgO, c.cfgX, c.liveB, c.liveA, c.flash, c.jmem, c.ram, c.profSets, c.baseSet⟩)
    (fun y hy => by have := not_contains hx_jnl hy; have := not_contains hx_fab hy; cases y <;> first | rfl | contradiction)

theorem ev_cfgB_cfgA_cfgO_cfgX {F : List StateField} {s0 s : State} {v_cfgB : Sparse Word} {v_cfgA : Sparse Word} {v_cfgO : Sparse Word} {v_cfgX : Sparse Word}
    (hx_cfgB : F.contains .cfgB = true) (hx_cfgA : F.contains .cfgA = true) (hx_cfgO : F.contains .cfgO = true) (hx_cfgX : F.contains .cfgX = true) (h : Evolves F s0 s) (hw_cfgB : s.Canonical → swf (regReset s.chip) v_cfgB = true) (hw_cfgA : s.Canonical → swf (regReset s.chip) v_cfgA = true) (hw_cfgO : s.Canonical → swf (regReset s.chip) v_cfgO = true) (hw_cfgX : s.Canonical → swf (regReset s.chip) v_cfgX = true)  :
    Evolves F s0 { s with cfgB := v_cfgB, cfgA := v_cfgA, cfgO := v_cfgO, cfgX := v_cfgX } :=
  ev_of h rfl rfl le_rfl le_rfl List.prefix_rfl (fun c => ⟨c.regs, hw_cfgB c, hw_cfgA c, hw_cfgO c, hw_cfgX c, c.liveB, c.liveA, c.flash, c.jmem, c.ram, c.profSets, c.baseSet⟩)
    (fun y hy => by have := not_contains hx_cfgB hy; have := not_contains hx_cfgA hy; have := not_contains hx_cfgO hy; have := not_contains hx_cfgX hy; cases y <;> first | rfl | contradiction)

theorem ev_jnl_rsv {F : List StateField} {s0 s : State} {v_jnl : JnlSt} {v_rsv : RsvSt}
    (hx_jnl : F.contains .jnl = true) (hx_rsv : F.contains .rsv = true) (h : Evolves F s0 s)   :
    Evolves F s0 { s with jnl := v_jnl, rsv := v_rsv } :=
  ev_of h rfl rfl le_rfl le_rfl List.prefix_rfl (fun c => ⟨c.regs, c.cfgB, c.cfgA, c.cfgO, c.cfgX, c.liveB, c.liveA, c.flash, c.jmem, c.ram, c.profSets, c.baseSet⟩)
    (fun y hy => by have := not_contains hx_jnl hy; have := not_contains hx_rsv hy; cases y <;> first | rfl | contradiction)

theorem ev_pins_pwms_folds {F : List StateField} {s0 s : State} {v_pins : Pins} {v_pwms : Sparse PwmSt} {v_folds : Sparse Nat}
    (hx_pins : F.contains .pins = true) (hx_pwms : F.contains .pwms = true) (hx_folds : F.contains .folds = true) (h : Evolves F s0 s)   :
    Evolves F s0 { s with pins := v_pins, pwms := v_pwms, folds := v_folds } :=
  ev_of h rfl rfl le_rfl le_rfl List.prefix_rfl (fun c => ⟨c.regs, c.cfgB, c.cfgA, c.cfgO, c.cfgX, c.liveB, c.liveA, c.flash, c.jmem, c.ram, c.profSets, c.baseSet⟩)
    (fun y hy => by have := not_contains hx_pins hy; have := not_contains hx_pwms hy; have := not_contains hx_folds hy; cases y <;> first | rfl | contradiction)

theorem ev_cfgA_cfgO_ldr {F : List StateField} {s0 s : State} {v_cfgA : Sparse Word} {v_cfgO : Sparse Word} {v_ldr : LdrSt}
    (hx_cfgA : F.contains .cfgA = true) (hx_cfgO : F.contains .cfgO = true) (hx_ldr : F.contains .ldr = true) (h : Evolves F s0 s) (hw_cfgA : s.Canonical → swf (regReset s.chip) v_cfgA = true) (hw_cfgO : s.Canonical → swf (regReset s.chip) v_cfgO = true) (hw_ldr : s.Canonical → (∀ x ∈ v_ldr.profSets, swf (regReset s.chip) x.2 = true) ∧ swf (regReset s.chip) v_ldr.baseSet = true)  :
    Evolves F s0 { s with cfgA := v_cfgA, cfgO := v_cfgO, ldr := v_ldr } :=
  ev_of h rfl rfl le_rfl le_rfl List.prefix_rfl (fun c => ⟨c.regs, c.cfgB, hw_cfgA c, hw_cfgO c, c.cfgX, c.liveB, c.liveA, c.flash, c.jmem, c.ram, (hw_ldr c).1, (hw_ldr c).2⟩)
    (fun y hy => by have := not_contains hx_cfgA hy; have := not_contains hx_cfgO hy; have := not_contains hx_ldr hy; cases y <;> first | rfl | contradiction)

theorem ev_flash_freeCount {F : List StateField} {s0 s : State} {v_flash : Mem} {v_freeCount : Nat}
    (hx_flash : F.contains .flash = true) (hx_freeCount : F.contains .freeCount = true) (h : Evolves F s0 s) (hw_flash : s.Canonical → swf (flashDefault) v_flash = true) (hv_freeCount : s.freeCount ≤ v_freeCount) :
    Evolves F s0 { s with flash := v_flash, freeCount := v_freeCount } :=
  ev_of h rfl rfl le_rfl hv_freeCount List.prefix_rfl (fun c => ⟨c.regs, c.cfgB, c.cfgA, c.cfgO, c.cfgX, c.liveB, c.liveA, hw_flash c, c.jmem, c.ram, c.profSets, c.baseSet⟩)
    (fun y hy => by have := not_contains hx_flash hy; have := not_contains hx_freeCount hy; cases y <;> first | rfl | contradiction)

theorem ev_outs_doneKeys {F : List StateField} {s0 s : State} {v_outs : List OutFrame} {v_doneKeys : Sparse Nat}
    (hx_outs : F.contains .outs = true) (hx_doneKeys : F.contains .doneKeys = true) (h : Evolves F s0 s)   :
    Evolves F s0 { s with outs := v_outs, doneKeys := v_doneKeys } :=
  ev_of h rfl rfl le_rfl le_rfl List.prefix_rfl (fun c => ⟨c.regs, c.cfgB, c.cfgA, c.cfgO, c.cfgX, c.liveB, c.liveA, c.flash, c.jmem, c.ram, c.profSets, c.baseSet⟩)
    (fun y hy => by have := not_contains hx_outs hy; have := not_contains hx_doneKeys hy; cases y <;> first | rfl | contradiction)

theorem ev_mnt_rollback {F : List StateField} {s0 s : State} {v_mnt : MntSt} {v_rollback : Nat}
    (hx_mnt : F.contains .mnt = true) (hx_rollback : F.contains .rollback = true) (h : Evolves F s0 s)  (hv_rollback : s.rollback ≤ v_rollback) :
    Evolves F s0 { s with mnt := v_mnt, rollback := v_rollback } :=
  ev_of h rfl rfl hv_rollback le_rfl List.prefix_rfl (fun c => ⟨c.regs, c.cfgB, c.cfgA, c.cfgO, c.cfgX, c.liveB, c.liveA, c.flash, c.jmem, c.ram, c.profSets, c.baseSet⟩)
    (fun y hy => by have := not_contains hx_mnt hy; have := not_contains hx_rollback hy; cases y <;> first | rfl | contradiction)

theorem ev_pins_cfgB_cfgA_cfgO_cfgX {F : List StateField} {s0 s : State} {v_pins : Pins} {v_cfgB : Sparse Word} {v_cfgA : Sparse Word} {v_cfgO : Sparse Word} {v_cfgX : Sparse Word}
    (hx_pins : F.contains .pins = true) (hx_cfgB : F.contains .cfgB = true) (hx_cfgA : F.contains .cfgA = true) (hx_cfgO : F.contains .cfgO = true) (hx_cfgX : F.contains .cfgX = true) (h : Evolves F s0 s) (hw_cfgB : s.Canonical → swf (regReset s.chip) v_cfgB = true) (hw_cfgA : s.Canonical → swf (regReset s.chip) v_cfgA = true) (hw_cfgO : s.Canonical → swf (regReset s.chip) v_cfgO = true) (hw_cfgX : s.Canonical → swf (regReset s.chip) v_cfgX = true)  :
    Evolves F s0 { s with pins := v_pins, cfgB := v_cfgB, cfgA := v_cfgA, cfgO := v_cfgO, cfgX := v_cfgX } :=
  ev_of h rfl rfl le_rfl le_rfl List.prefix_rfl (fun c => ⟨c.regs, hw_cfgB c, hw_cfgA c, hw_cfgO c, hw_cfgX c, c.liveB, c.liveA, c.flash, c.jmem, c.ram, c.profSets, c.baseSet⟩)
    (fun y hy => by have := not_contains hx_pins hy; have := not_contains hx_cfgB hy; have := not_contains hx_cfgA hy; have := not_contains hx_cfgO hy; have := not_contains hx_cfgX hy; cases y <;> first | rfl | contradiction)

theorem ev_rly_ldr {F : List StateField} {s0 s : State} {v_rly : RlySt} {v_ldr : LdrSt}
    (hx_rly : F.contains .rly = true) (hx_ldr : F.contains .ldr = true) (h : Evolves F s0 s)  (hw_ldr : s.Canonical → (∀ x ∈ v_ldr.profSets, swf (regReset s.chip) x.2 = true) ∧ swf (regReset s.chip) v_ldr.baseSet = true)  :
    Evolves F s0 { s with rly := v_rly, ldr := v_ldr } :=
  ev_of h rfl rfl le_rfl le_rfl List.prefix_rfl (fun c => ⟨c.regs, c.cfgB, c.cfgA, c.cfgO, c.cfgX, c.liveB, c.liveA, c.flash, c.jmem, c.ram, (hw_ldr c).1, (hw_ldr c).2⟩)
    (fun y hy => by have := not_contains hx_rly hy; have := not_contains hx_ldr hy; cases y <;> first | rfl | contradiction)

theorem ev_mot_frames_nextFrame {F : List StateField} {s0 s : State} {v_mot : MotSt} {v_frames : List FrameSt} {v_nextFrame : Nat}
    (hx_mot : F.contains .mot = true) (hx_frames : F.contains .frames = true) (hx_nextFrame : F.contains .nextFrame = true) (h : Evolves F s0 s)   :
    Evolves F s0 { s with mot := v_mot, frames := v_frames, nextFrame := v_nextFrame } :=
  ev_of h rfl rfl le_rfl le_rfl List.prefix_rfl (fun c => ⟨c.regs, c.cfgB, c.cfgA, c.cfgO, c.cfgX, c.liveB, c.liveA, c.flash, c.jmem, c.ram, c.profSets, c.baseSet⟩)
    (fun y hy => by have := not_contains hx_mot hy; have := not_contains hx_frames hy; have := not_contains hx_nextFrame hy; cases y <;> first | rfl | contradiction)

theorem ev_frames_nextFrame_mot {F : List StateField} {s0 s : State} {v_frames : List FrameSt} {v_nextFrame : Nat} {v_mot : MotSt}
    (hx_frames : F.contains .frames = true) (hx_nextFrame : F.contains .nextFrame = true) (hx_mot : F.contains .mot = true) (h : Evolves F s0 s)   :
    Evolves F s0 { s with frames := v_frames, nextFrame := v_nextFrame, mot := v_mot } :=
  ev_of h rfl rfl le_rfl le_rfl List.prefix_rfl (fun c => ⟨c.regs, c.cfgB, c.cfgA, c.cfgO, c.cfgX, c.liveB, c.liveA, c.flash, c.jmem, c.ram, c.profSets, c.baseSet⟩)
    (fun y hy => by have := not_contains hx_frames hy; have := not_contains hx_nextFrame hy; have := not_contains hx_mot hy; cases y <;> first | rfl | contradiction)

theorem ev_frames_running_syncs_outs_txs_outFlows_rly {F : List StateField} {s0 s : State} {v_frames : List FrameSt} {v_running : List Running} {v_syncs : List SyncSt} {v_outs : List OutFrame} {v_txs : Sparse TxSt} {v_outFlows : List OutFlow} {v_rly : RlySt}
    (hx_frames : F.contains .frames = true) (hx_running : F.contains .running = true) (hx_syncs : F.contains .syncs = true) (hx_outs : F.contains .outs = true) (hx_txs : F.contains .txs = true) (hx_outFlows : F.contains .outFlows = true) (hx_rly : F.contains .rly = true) (h : Evolves F s0 s)   :
    Evolves F s0 { s with frames := v_frames, running := v_running, syncs := v_syncs, outs := v_outs, txs := v_txs, outFlows := v_outFlows, rly := v_rly } :=
  ev_of h rfl rfl le_rfl le_rfl List.prefix_rfl (fun c => ⟨c.regs, c.cfgB, c.cfgA, c.cfgO, c.cfgX, c.liveB, c.liveA, c.flash, c.jmem, c.ram, c.profSets, c.baseSet⟩)
    (fun y hy => by have := not_contains hx_frames hy; have := not_contains hx_running hy; have := not_contains hx_syncs hy; have := not_contains hx_outs hy; have := not_contains hx_txs hy; have := not_contains hx_outFlows hy; have := not_contains hx_rly hy; cases y <;> first | rfl | contradiction)

end Sys2Proof.Machine
end

