-- ==== Sys2Proof/Laws/EvRegFile.lean ====
section
/-! SUPPORT. What each function of Machine/RegFile.lean changes: one lemma per function, its footprint first. -/

namespace Sys2Proof.Machine
open Sys2Proof

set_option linter.unusedTactic false
set_option linter.unreachableTactic false
set_option linter.unusedVariables false

variable {H : List StateField} {s0 s sNext : State}

theorem setReg_ev (hF : sub [.regs] H = true) (h : Evolves H s0 s) (a : Nat) (w : Word) : Evolves H s0 (setReg a w s) := by
  refine ev_mono hF h ?_
  unfold setReg
  repeat' first
      | (with_reducible first
          | exact ev_refl _ _ | assumption | refine ev_ite ?_ ?_ | refine ev_fst (by assumption) ?_
          | refine ev_snd (by assumption) ?_)
      | (with_reducible first
          | exact Nat.le_add_right _ _ | exact le_rfl
          | (refine fun (c : State.Canonical _) => ?_; repeat' first | exact c.regs | exact c.cfgB | exact c.cfgA | exact ⟨c.profSets, c.baseSet⟩ | exact ⟨profSets_sset c.profSets _ c.cfgB, c.baseSet⟩ | exact ⟨c.profSets, c.cfgB⟩ | exact ⟨List.forall_mem_nil _, rfl⟩ | exact swf_nil _ | exact swf_freshBank_of rfl | exact swf_profSet c _ | exact swf_setOfProfile c _ | exact swf_bankOf c _ | apply swf_foldl_sset | apply swf_sset))
      | (show sub _ _ = true) | (show List.contains _ _ = true; rfl) | dsimp only | split | (with_reducible apply ev_regs)

theorem wr_ev (hF : sub [.regs] H = true) (h : Evolves H s0 s) (r : RF) (v : Nat) : Evolves H s0 (wr r v s) := by
  refine ev_mono hF h ?_
  unfold wr
  repeat' first
      | (with_reducible first
          | exact ev_refl _ _ | assumption | apply setReg_ev | refine ev_ite ?_ ?_ | refine ev_fst (by assumption) ?_
          | refine ev_snd (by assumption) ?_)
      | (show sub _ _ = true; rfl) | (show List.contains _ _ = true; rfl)

theorem addSat_ev (hF : sub [.regs] H = true) (h : Evolves H s0 s) (r : RF) (d : Nat) : Evolves H s0 (addSat r d s) := by
  refine ev_mono hF h ?_
  unfold addSat
  repeat' first
      | (with_reducible first
          | exact ev_refl _ _ | assumption | apply wr_ev | refine ev_ite ?_ ?_ | refine ev_fst (by assumption) ?_
          | refine ev_snd (by assumption) ?_)
      | (show sub _ _ = true; rfl) | (show List.contains _ _ = true; rfl)

theorem inc_ev (hF : sub [.regs] H = true) (h : Evolves H s0 s) (r : RF) : Evolves H s0 (inc r s) := by
  refine ev_mono hF h ?_
  unfold inc
  repeat' first
      | (with_reducible first
          | exact ev_refl _ _ | assumption | apply addSat_ev | refine ev_ite ?_ ?_ | refine ev_fst (by assumption) ?_
          | refine ev_snd (by assumption) ?_)
      | (show sub _ _ = true; rfl) | (show List.contains _ _ = true; rfl)

theorem emit_ev (hF : sub [.out] H = true) (h : Evolves H s0 s) (e : Emit) : Evolves H s0 (emit e s) := by
  refine ev_mono hF h ?_
  unfold emit
  exact ev_out rfl (ev_refl _ _) (List.prefix_append _ _)

theorem incWrap_ev (hF : sub [.regs] H = true) (h : Evolves H s0 s) (r : RF) : Evolves H s0 (incWrap r s) := by
  refine ev_mono hF h ?_
  unfold incWrap
  repeat' first
      | (with_reducible first
          | exact ev_refl _ _ | assumption | apply wr_ev | refine ev_ite ?_ ?_ | refine ev_fst (by assumption) ?_
          | refine ev_snd (by assumption) ?_)
      | (show sub _ _ = true; rfl) | (show List.contains _ _ = true; rfl)

end Sys2Proof.Machine
end

