-- ==== Sys2Proof/Laws/EvOps.lean ====
section
/-! SUPPORT. What each function of Machine/Ops.lean changes: one lemma per function, its footprint first. -/

namespace Sys2Proof.Machine
open Sys2Proof

set_option linter.unusedTactic false
set_option linter.unreachableTactic false
set_option linter.unusedVariables false

variable {H : List StateField} {s0 s sNext : State}

theorem logWrite_ev (hF : sub [.jmem] H = true) (h : Evolves H s0 s) (off : Nat) (bs : List Nat) :
    Evolves H s0 (logWrite s off bs) := by
  refine ev_mono hF h ?_
  unfold logWrite
  dsimp only
  with_reducible apply ev_jmem
  · rfl
  · exact ev_refl _ _
  · exact fun c => swf_memWrite _ _ _ _ (swf_memWrite _ _ _ _ c.jmem)

theorem announce_ev (hF : sub [.regs] H = true) (h : Evolves H s0 s) (es : List RF) : Evolves H s0 (announce es s) := by
  refine ev_mono hF h ?_
  unfold announce
  repeat' first
      | (with_reducible first
          | exact ev_refl _ _ | assumption | apply wr_ev | refine ev_ite ?_ ?_
          | (refine ev_foldl ?_ ?_; rotate_left; intro _ _ _) | refine ev_fst (by assumption) ?_
          | refine ev_snd (by assumption) ?_)
      | (show sub _ _ = true; rfl) | (show List.contains _ _ = true; rfl)

theorem setQueue_ev (hF : sub [.queues] H = true) (h : Evolves H s0 s) (q : Nat) (x : QueueSt) : Evolves H s0 (setQueue q x s)
    := by
  refine ev_mono hF h ?_
  unfold setQueue
  repeat' first
      | (with_reducible first
          | exact ev_refl _ _ | assumption | refine ev_ite ?_ ?_ | refine ev_fst (by assumption) ?_
          | refine ev_snd (by assumption) ?_)
      | (show sub _ _ = true) | (show List.contains _ _ = true; rfl) | dsimp only | split | (with_reducible apply ev_queues)

theorem commitOpen_ev (hF : sub [.queues] H = true) (h : Evolves H s0 s) (q : Nat) : Evolves H s0 (commitOpen q s) := by
  refine ev_mono hF h ?_
  unfold commitOpen
  repeat' first
      | (with_reducible first
          | exact ev_refl _ _ | assumption | apply setQueue_ev | refine ev_ite ?_ ?_ | refine ev_fst (by assumption) ?_
          | refine ev_snd (by assumption) ?_)
      | (show sub _ _ = true; rfl) | (show List.contains _ _ = true) | dsimp only | split

theorem setPort_ev (hF : sub [.readPorts] H = true) (h : Evolves H s0 s) (r : Nat) (x : PortSt) : Evolves H s0 (setPort r x s)
    := by
  refine ev_mono hF h ?_
  unfold setPort
  repeat' first
      | (with_reducible first
          | exact ev_refl _ _ | assumption | refine ev_ite ?_ ?_ | refine ev_fst (by assumption) ?_
          | refine ev_snd (by assumption) ?_)
      | (show sub _ _ = true) | (show List.contains _ _ = true; rfl) | dsimp only | split | (with_reducible apply ev_readPorts)

theorem dropClaim_ev (hF : sub [.regs, .readPorts] H = true) (h : Evolves H s0 s) (r : Nat) : Evolves H s0 (dropClaim r s) := by
  refine ev_mono hF h ?_
  unfold dropClaim
  repeat' first
      | (with_reducible first
          | exact ev_refl _ _ | assumption | apply wr_ev | apply setPort_ev | refine ev_ite ?_ ?_
          | refine ev_fst (by assumption) ?_ | refine ev_snd (by assumption) ?_)
      | (show sub _ _ = true; rfl) | (show List.contains _ _ = true; rfl)

theorem breakClaim_ev (hF : sub [.regs, .readPorts] H = true) (h : Evolves H s0 s) (p : Pkt) : Evolves H s0 (breakClaim p s) :=
    by
  refine ev_mono hF h ?_
  unfold breakClaim
  repeat' first
      | (with_reducible first
          | exact ev_refl _ _ | assumption | apply wr_ev | apply dropClaim_ev | refine ev_ite ?_ ?_
          | refine ev_fst (by assumption) ?_ | refine ev_snd (by assumption) ?_)
      | (show sub _ _ = true; rfl) | (show List.contains _ _ = true) | dsimp only | split

theorem qLost_ev (hF : sub [.regs, .queues] H = true) (h : Evolves H s0 s) (q : Nat) (n : Nat) : Evolves H s0 (qLost q n s) :=
    by
  refine ev_mono hF h ?_
  unfold qLost
  repeat' first
      | (with_reducible first
          | exact ev_refl _ _ | assumption | apply wr_ev | apply addSat_ev | apply setQueue_ev | refine ev_ite ?_ ?_
          | refine ev_fst (by assumption) ?_ | refine ev_snd (by assumption) ?_)
      | (show sub _ _ = true; rfl) | (show List.contains _ _ = true; rfl)

theorem discardOldest_ev (hF : sub [.regs, .queues, .readPorts] H = true) (h : Evolves H s0 s) (q : Nat) : Evolves H s0
    (discardOldest q s) := by
  refine ev_mono hF h ?_
  unfold discardOldest
  repeat' first
      | (with_reducible first
          | exact ev_refl _ _ | assumption | apply setQueue_ev | apply breakClaim_ev | apply qLost_ev | refine ev_ite ?_ ?_
          | refine ev_fst (by assumption) ?_ | refine ev_snd (by assumption) ?_)
      | (show sub _ _ = true; rfl) | (show List.contains _ _ = true) | dsimp only | split

theorem makeRoom_ev (hF : sub [.regs, .queues, .readPorts] H = true) (h : Evolves H s0 s) (q : Nat) (x1 : Nat) : Evolves H s0
    (makeRoom q x1 s) := by
  refine ev_mono hF h ?_
  clear h hF
  suffices key : ∀ s0 : State, Evolves [.regs, .queues, .readPorts] s0 s → Evolves [.regs, .queues, .readPorts] s0 (makeRoom q
      x1 s) from key s (ev_refl _ s)
  fun_induction makeRoom q x1 s <;> intro s0 h <;> repeat' first
      | (with_reducible first
          | exact ev_refl _ _ | assumption | apply_assumption -exfalso -symm | apply discardOldest_ev
          | (refine ev_foldl ?_ ?_; rotate_left; intro _ _ _) | (refine ev_foldl_fst ?_ ?_; rotate_left; intro _ _ _ _)
          | (refine ev_foldl_snd ?_ ?_; rotate_left; intro _ _ _ _))
      | (show sub _ _ = true; rfl) | (show List.contains _ _ = true; rfl)

theorem openPacket_ev (hF : sub [.regs, .queues, .readPorts] H = true) (h : Evolves H s0 s) (q : Nat) (producer : Nat) : Evolves
    H s0 (openPacket q producer s) := by
  refine ev_mono hF h ?_
  unfold openPacket
  repeat' first
      | (with_reducible first
          | exact ev_refl _ _ | assumption | apply setQueue_ev | apply qLost_ev | apply makeRoom_ev | refine ev_ite ?_ ?_
          | refine ev_fst (by assumption) ?_ | refine ev_snd (by assumption) ?_)
      | (show sub _ _ = true; rfl) | (show List.contains _ _ = true) | dsimp only | split

theorem rewindOpen_ev (hF : sub [.queues] H = true) (h : Evolves H s0 s) (q : Nat) : Evolves H s0 (rewindOpen q s) := by
  refine ev_mono hF h ?_
  unfold rewindOpen
  repeat' first
      | (with_reducible first
          | exact ev_refl _ _ | assumption | apply setQueue_ev | refine ev_ite ?_ ?_ | refine ev_fst (by assumption) ?_
          | refine ev_snd (by assumption) ?_)
      | (show sub _ _ = true; rfl) | (show List.contains _ _ = true) | dsimp only | split

theorem roomForWord_ev (hF : sub [.regs, .queues, .readPorts] H = true) (h : Evolves H s0 s) (q : Nat) : Evolves H s0
    (roomForWord q s).1 := by
  refine ev_mono hF h ?_
  unfold roomForWord
  repeat' first
      | (with_reducible first
          | exact ev_refl _ _ | assumption | apply qLost_ev | apply makeRoom_ev | apply rewindOpen_ev | refine ev_ite ?_ ?_
          | refine ev_fst (by assumption) ?_ | refine ev_snd (by assumption) ?_)
      | (show sub _ _ = true; rfl) | (show List.contains _ _ = true) | dsimp only | split

theorem putWord_ev (hF : sub [.regs, .queues, .readPorts] H = true) (h : Evolves H s0 s) (q : Nat) (w : Nat) : Evolves H s0
    (putWord q w s).1 := by
  refine ev_mono hF h ?_
  unfold putWord
  repeat' first
      | (with_reducible first
          | exact ev_refl _ _ | assumption | apply inc_ev | apply setQueue_ev | apply qLost_ev | apply rewindOpen_ev
          | apply roomForWord_ev | refine ev_ite ?_ ?_ | refine ev_fst (by assumption) ?_ | refine ev_snd (by assumption) ?_)
      | (show sub _ _ = true; rfl) | (show List.contains _ _ = true) | dsimp only | split

theorem putWords_ev (hF : sub [.regs, .queues, .readPorts] H = true) (h : Evolves H s0 s) (q : Nat) (x1 : List Nat) : Evolves H
    s0 (putWords q x1 s).1 := by
  refine ev_mono hF h ?_
  clear h hF
  suffices key : ∀ s0 : State, Evolves [.regs, .queues, .readPorts] s0 s → Evolves [.regs, .queues, .readPorts] s0 (putWords q
      x1 s).1 from key s (ev_refl _ s)
  fun_induction putWords q x1 s <;> intro s0 h <;> repeat' first
      | (with_reducible first
          | exact ev_refl _ _ | assumption | apply_assumption -exfalso -symm | apply putWord_ev | refine ev_ite ?_ ?_
          | refine ev_fst (by assumption) ?_ | (refine ev_foldl_fst ?_ ?_; rotate_left; intro _ _ _ _)
          | (refine ev_foldl_snd ?_ ?_; rotate_left; intro _ _ _ _))
      | (show sub _ _ = true; rfl) | (show List.contains _ _ = true; rfl)

theorem svcReceive_ev (hF : sub [.svcStats, .jnl] H = true) (h : Evolves H s0 s) (q : Nat) (ws : List Nat) : Evolves H s0
    (svcReceive q ws s) := by
  refine ev_mono hF h ?_
  unfold svcReceive
  repeat' first
      | (with_reducible first
          | exact ev_refl _ _ | assumption | refine ev_ite ?_ ?_ | refine ev_fst (by assumption) ?_
          | refine ev_snd (by assumption) ?_)
      | (show sub _ _ = true) | (show List.contains _ _ = true; rfl) | dsimp only | split
      | (with_reducible first | apply ev_svcStats | apply ev_jnl)

theorem appendPacket_ev (hF : sub [.regs, .queues, .readPorts, .svcStats, .jnl] H = true) (h : Evolves H s0 s) (q : Nat)
    (producer : Nat) (ws : List Nat) : Evolves H s0 (appendPacket q producer ws s).1 := by
  refine ev_mono hF h ?_
  unfold appendPacket
  repeat' first
      | (with_reducible first
          | exact ev_refl _ _ | assumption | apply commitOpen_ev | apply openPacket_ev | apply putWords_ev | apply svcReceive_ev
          | refine ev_ite ?_ ?_ | refine ev_fst (by assumption) ?_ | refine ev_snd (by assumption) ?_)
      | (show sub _ _ = true; rfl) | (show List.contains _ _ = true) | dsimp only | split

theorem putPlain_ev (hF : sub [.regs, .queues, .readPorts, .svcStats, .jnl] H = true) (h : Evolves H s0 s) (q : Nat) (producer :
    Nat) (ws : List Nat) (isCopy : Bool) (evts : List RF) : Evolves H s0 (putPlain q producer ws isCopy evts s).1 := by
  refine ev_mono hF h ?_
  unfold putPlain
  repeat' first
      | (with_reducible first
          | exact ev_refl _ _ | assumption | apply announce_ev | apply setQueue_ev | apply appendPacket_ev | refine ev_ite ?_ ?_
          | refine ev_fst (by assumption) ?_ | refine ev_snd (by assumption) ?_)
      | (show sub _ _ = true; rfl) | (show List.contains _ _ = true) | dsimp only | split

theorem putCopy_ev (hF : sub [.regs, .queues, .readPorts, .svcStats, .jnl] H = true) (h : Evolves H s0 s) (q : Nat) (ws : List
    Nat) : Evolves H s0 (putCopy q ws s).1 := by
  refine ev_mono hF h ?_
  unfold putCopy
  repeat' first
      | (with_reducible first
          | exact ev_refl _ _ | assumption | apply putPlain_ev | refine ev_ite ?_ ?_ | refine ev_fst (by assumption) ?_
          | refine ev_snd (by assumption) ?_)
      | (show sub _ _ = true; rfl) | (show List.contains _ _ = true) | dsimp only | split

theorem qPutRaw_ev (hF : sub [.regs, .queues, .readPorts, .svcStats, .jnl] H = true) (h : Evolves H s0 s) (q : Nat) (producer :
    Nat) (ws : List Nat) (evts : List RF) : Evolves H s0 (qPutRaw q producer ws evts s).1 := by
  refine ev_mono hF h ?_
  unfold qPutRaw
  repeat' first
      | (with_reducible first
          | exact ev_refl _ _ | assumption | apply putPlain_ev | apply putCopy_ev | refine ev_ite ?_ ?_
          | refine ev_fst (by assumption) ?_ | refine ev_snd (by assumption) ?_)
      | (show sub _ _ = true; rfl) | (show List.contains _ _ = true) | dsimp only | split

theorem logError_ev (hF : sub [.regs, .queues, .readPorts, .svcStats, .jnl] H = true) (h : Evolves H s0 s) (fatal : Bool) (e :
    ErrInfo) : Evolves H s0 (logError fatal e s) := by
  refine ev_mono hF h ?_
  unfold logError
  repeat' first
      | (with_reducible first
          | exact ev_refl _ _ | assumption | apply wr_ev | apply inc_ev | apply qPutRaw_ev | refine ev_ite ?_ ?_
          | refine ev_fst (by assumption) ?_ | refine ev_snd (by assumption) ?_)
      | (show sub _ _ = true; rfl) | (show List.contains _ _ = true; rfl)

theorem recordError_ev (hF : sub [.regs, .queues, .readPorts, .svcStats, .jnl] H = true) (h : Evolves H s0 s) (e : ErrInfo) :
    Evolves H s0 (recordError e s) := by
  refine ev_mono hF h ?_
  unfold recordError
  repeat' first
      | (with_reducible first
          | exact ev_refl _ _ | assumption | apply logError_ev | refine ev_ite ?_ ?_ | refine ev_fst (by assumption) ?_
          | refine ev_snd (by assumption) ?_)
      | (show sub _ _ = true; rfl) | (show List.contains _ _ = true; rfl)

theorem qmxError_ev (hF : sub [.regs, .queues, .readPorts, .svcStats, .jnl] H = true) (h : Evolves H s0 s) (code : Nat) (q :
    Nat) : Evolves H s0 (qmxError code q s) := by
  refine ev_mono hF h ?_
  unfold qmxError
  repeat' first
      | (with_reducible first
          | exact ev_refl _ _ | assumption | apply recordError_ev | refine ev_ite ?_ ?_ | refine ev_fst (by assumption) ?_
          | refine ev_snd (by assumption) ?_)
      | (show sub _ _ = true; rfl) | (show List.contains _ _ = true; rfl)

theorem oversizeErrors_ev (hF : sub [.regs, .queues, .readPorts, .svcStats, .jnl] H = true) (h : Evolves H s0 s) (qs : List Nat)
    : Evolves H s0 (oversizeErrors qs s) := by
  refine ev_mono hF h ?_
  unfold oversizeErrors
  repeat' first
      | (with_reducible first
          | exact ev_refl _ _ | assumption | apply qmxError_ev | refine ev_ite ?_ ?_
          | (refine ev_foldl ?_ ?_; rotate_left; intro _ _ _) | refine ev_fst (by assumption) ?_
          | refine ev_snd (by assumption) ?_)
      | (show sub _ _ = true; rfl) | (show List.contains _ _ = true; rfl)

theorem qPutEvt_ev (hF : sub [.regs, .queues, .readPorts, .svcStats, .jnl] H = true) (h : Evolves H s0 s) (q : Nat) (producer :
    Nat) (ws : List Nat) (evts : List RF) : Evolves H s0 (qPutEvt q producer ws evts s) := by
  refine ev_mono hF h ?_
  unfold qPutEvt
  repeat' first
      | (with_reducible first
          | exact ev_refl _ _ | assumption | apply qPutRaw_ev | apply oversizeErrors_ev | refine ev_ite ?_ ?_
          | refine ev_fst (by assumption) ?_ | refine ev_snd (by assumption) ?_)
      | (show sub _ _ = true; rfl) | (show List.contains _ _ = true; rfl)

theorem qPut_ev (hF : sub [.regs, .queues, .readPorts, .svcStats, .jnl] H = true) (h : Evolves H s0 s) (q : Nat) (producer :
    Nat) (ws : List Nat) : Evolves H s0 (qPut q producer ws s) := by
  refine ev_mono hF h ?_
  unfold qPut
  repeat' first
      | (with_reducible first
          | exact ev_refl _ _ | assumption | apply qPutEvt_ev | refine ev_ite ?_ ?_ | refine ev_fst (by assumption) ?_
          | refine ev_snd (by assumption) ?_)
      | (show sub _ _ = true; rfl) | (show List.contains _ _ = true; rfl)

theorem writeSuperblock_ev (hF : sub [.jnl, .jmem] H = true) (h : Evolves H s0 s)  : Evolves H s0 (writeSuperblock s) := by
  refine ev_mono hF h ?_
  unfold writeSuperblock
  repeat' first
      | (with_reducible first
          | exact ev_refl _ _ | assumption | refine ev_ite ?_ ?_ | refine ev_fst (by assumption) ?_
          | refine ev_snd (by assumption) ?_)
      | (with_reducible first
          | exact Nat.le_add_right _ _ | exact le_rfl
          | (refine fun (c : State.Canonical _) => ?_; repeat' first | exact c.cfgB | exact c.cfgA | exact c.jmem | exact ⟨c.profSets, c.baseSet⟩ | exact ⟨profSets_sset c.profSets _ c.cfgB, c.baseSet⟩ | exact ⟨c.profSets, c.cfgB⟩ | exact ⟨List.forall_mem_nil _, rfl⟩ | exact swf_nil _ | exact swf_freshBank_of rfl | exact swf_profSet c _ | exact swf_setOfProfile c _ | exact swf_bankOf c _ | apply swf_foldl_sset | apply swf_sset | apply swf_bankSet | apply swf_memWrite))
      | (show sub _ _ = true) | (show List.contains _ _ = true; rfl) | dsimp only | split | (with_reducible apply ev_jnl_jmem)

theorem journal_ev (hF : sub [.regs, .queues, .readPorts, .svcStats, .jnl, .jmem] H = true) (h : Evolves H s0 s) (type : Nat)
    (payload : List Nat) : Evolves H s0 (journal type payload s) := by
  refine ev_mono hF h ?_
  unfold journal
  repeat' first
      | (with_reducible first
          | exact ev_refl _ _ | assumption | apply wr_ev | apply logWrite_ev | apply qPut_ev | apply writeSuperblock_ev
          | refine ev_ite ?_ ?_ | refine ev_fst (by assumption) ?_ | refine ev_snd (by assumption) ?_)
      | (show sub _ _ = true; rfl) | (show List.contains _ _ = true; rfl) | dsimp only | split | (with_reducible apply ev_jnl)

theorem flushWaiting_ev (hF : sub [.regs, .queues, .readPorts, .svcStats, .jnl] H = true) (h : Evolves H s0 s) (q : Nat) (x1 :
    List Waiter) : Evolves H s0 (flushWaiting q x1 s).1 := by
  refine ev_mono hF h ?_
  clear h hF
  suffices key : ∀ s0 : State, Evolves [.regs, .queues, .readPorts, .svcStats, .jnl] s0 s → Evolves [.regs, .queues, .readPorts,
      .svcStats, .jnl] s0 (flushWaiting q x1 s).1 from key s (ev_refl _ s)
  fun_induction flushWaiting q x1 s <;> intro s0 h <;> repeat' first
      | (with_reducible first
          | exact ev_refl _ _ | assumption | apply_assumption -exfalso -symm | apply announce_ev | apply setQueue_ev
          | apply openPacket_ev | apply appendPacket_ev | apply putCopy_ev | refine ev_ite ?_ ?_
          | refine ev_fst (by assumption) ?_ | refine ev_snd (by assumption) ?_)
      | (show sub _ _ = true) | (show List.contains _ _ = true) | dsimp only | split | dsimp +zetaDelta only

end Sys2Proof.Machine
end

