-- ==== Sys2Proof/Laws/Reg.lean ====
section
/-! SUPPORT. What writing a register field does to every field and every register. -/

namespace Sys2Proof.Machine
open Sys2Proof

/-! ## Fields of a word -/

theorem testBit_setFld (w : Word) (hi lo v i : Nat) (h : lo ≤ hi) :
    (setFld w hi lo v).toNat.testBit i =
      (decide (i < 32) && if hi < i then w.toNat.testBit i else if lo ≤ i then v.testBit (i - lo) else w.toNat.testBit i) := by
  unfold setFld
  rw [BitVec.toNat_ofNat, Nat.testBit_mod_two_pow]
  simp only [Nat.testBit_or, Nat.testBit_shiftLeft, Nat.testBit_shiftRight, Nat.testBit_mod_two_pow]
  by_cases h1 : hi < i
  · have a1 : hi + 1 ≤ i := h1
    have a2 : hi + 1 + (i - (hi + 1)) = i := by omega
    have a3 : ¬ i - lo < hi + 1 - lo := by omega
    have a4 : ¬ i < lo := by omega
    simp [h1, a1, a2, a3, a4]
  · have a1 : ¬ hi + 1 ≤ i := by omega
    by_cases h2 : lo ≤ i
    · have a3 : i - lo < hi + 1 - lo := by omega
      have a4 : ¬ i < lo := by omega
      simp [h1, a1, h2, a3, a4]
    · have a4 : i < lo := by omega
      simp [h1, a1, h2, a4]

theorem testBit_fld (w : Word) (hi lo i : Nat) : (fld w hi lo).testBit i = (decide (i < hi + 1 - lo) && w.toNat.testBit (lo + i)) := by
  simp [fld, Nat.testBit_mod_two_pow, Nat.testBit_shiftRight]

/-- The written field reads as the value, cut to its width. -/
theorem fld_setFld_same (w : Word) (hi lo v : Nat) (h : lo ≤ hi) (h32 : hi < 32) : fld (setFld w hi lo v) hi lo = v % 2 ^ (hi + 1 - lo) := by
  apply Nat.eq_of_testBit_eq
  intro i
  rw [testBit_fld, testBit_setFld _ _ _ _ _ h, Nat.testBit_mod_two_pow]
  by_cases hi' : i < hi + 1 - lo
  · have a1 : lo + i < 32 := by omega
    have a2 : ¬ hi < lo + i := by omega
    simp [hi', a1, a2]
  · simp [hi']

/-- A field that shares no bit with the written one stands. -/
theorem fld_setFld_disjoint (w : Word) (hi lo v hi' lo' : Nat) (h : lo ≤ hi) (h32 : hi' < 32) (hd : hi' < lo ∨ hi < lo') :
    fld (setFld w hi lo v) hi' lo' = fld w hi' lo' := by
  apply Nat.eq_of_testBit_eq
  intro i
  rw [testBit_fld, testBit_fld, testBit_setFld _ _ _ _ _ h]
  by_cases hi' : i < hi' + 1 - lo'
  · have a1 : lo' + i < 32 := by omega
    rcases hd with hd | hd
    · have a2 : ¬ hi < lo' + i := by omega
      have a3 : ¬ lo ≤ lo' + i := by omega
      simp [a1, a2, a3]
    · have a2 : hi < lo' + i := by omega
      simp [a1, a2]
  · simp [hi']

theorem fld_lt (w : Word) (hi lo : Nat) : fld w hi lo < 2 ^ (hi + 1 - lo) := Nat.mod_lt _ (Nat.two_pow_pos _)

theorem rd_lt (s : State) (r : RF) : rd s r < 2 ^ (r.hi + 1 - r.lo) := fld_lt _ _ _

/-! ## Registers -/

theorem reg_setReg (s : State) (a b : Nat) (w : Word) : reg (setReg a w s) b = if a = b then w else reg s b := sget_sset _ _ _ _ _

theorem reg_wr (s : State) (r : RF) (v b : Nat) : reg (wr r v s) b = if r.addr = b then setFld (reg s b) r.hi r.lo v else reg s b := by
  unfold wr
  rw [reg_setReg]
  split
  · next h => rw [h]
  · rfl

theorem reg_wr_ne {s : State} {r : RF} {v b : Nat} (h : r.addr ≠ b) : reg (wr r v s) b = reg s b := by rw [reg_wr, if_neg h]

/-- The field written reads as the value. -/
theorem rd_wr_same {s : State} {r : RF} {v : Nat} (h : r.lo ≤ r.hi) (h32 : r.hi < 32) : rd (wr r v s) r = v % 2 ^ (r.hi + 1 - r.lo) := by
  unfold rd
  rw [reg_wr, if_pos rfl, fld_setFld_same _ _ _ _ h h32]

/-- A field of another register stands. -/
theorem rd_wr_addr {s : State} {r f : RF} {v : Nat} (h : r.addr ≠ f.addr) : rd (wr r v s) f = rd s f := by
  unfold rd
  rw [reg_wr_ne h]

/-- A field that shares no bit with the written one stands. -/
theorem rd_wr_bits {s : State} {r f : RF} {v : Nat} (h : r.lo ≤ r.hi) (h32 : f.hi < 32) (hd : f.hi < r.lo ∨ r.hi < f.lo) :
    rd (wr r v s) f = rd s f := by
  unfold rd
  rw [reg_wr]
  split
  · exact fld_setFld_disjoint _ _ _ _ _ _ h h32 hd
  · rfl

/-- Any other field of which the caller knows one or the other. -/
theorem rd_wr_other {s : State} {r f : RF} {v : Nat} (h : r.lo ≤ r.hi) (h32 : f.hi < 32) (hd : r.addr ≠ f.addr ∨ f.hi < r.lo ∨ r.hi < f.lo) :
    rd (wr r v s) f = rd s f := by
  rcases hd with hd | hd
  · exact rd_wr_addr hd
  · exact rd_wr_bits h h32 hd

theorem rd_congr {s t : State} {r : RF} (h : reg t r.addr = reg s r.addr) : rd t r = rd s r := by unfold rd; rw [h]

theorem reg_congr {s t : State} {a : Nat} (hr : t.regs = s.regs) (hc : t.chip = s.chip) : reg t a = reg s a := by unfold reg; rw [hr, hc]

theorem rd_regs {s t : State} {r : RF} (hr : t.regs = s.regs) (hc : t.chip = s.chip) : rd t r = rd s r := rd_congr (reg_congr hr hc)

end Sys2Proof.Machine
end

