-- ==== Sys2Proof/Laws/Errors.lean ====
section
/-! SUPPORT. Which registers a queue operation, a journal record and an error record can change, and what an error leaves of
the rest of the state. -/

namespace Sys2Proof.Machine
open Sys2Proof

/-- The fuses stand, and so does every register outside a set of addresses. -/
def RegsKept (P : Nat → Prop) (s t : State) : Prop := t.chip = s.chip ∧ ∀ a, ¬ P a → reg t a = reg s a

theorem RegsKept.refl (P : Nat → Prop) (s : State) : RegsKept P s s := ⟨rfl, fun _ _ => rfl⟩

theorem RegsKept.trans {P : Nat → Prop} {s t u : State} (h : RegsKept P s t) (k : RegsKept P t u) : RegsKept P s u :=
  ⟨k.1.trans h.1, fun a ha => (k.2 a ha).trans (h.2 a ha)⟩

theorem RegsKept.mono {P Q : Nat → Prop} {s t : State} (h : RegsKept P s t) (hpq : ∀ a, P a → Q a) : RegsKept Q s t :=
  ⟨h.1, fun a ha => h.2 a fun k => ha (hpq a k)⟩

theorem RegsKept.of_eq {P : Nat → Prop} {s t : State} (hr : t.regs = s.regs) (hc : t.chip = s.chip) : RegsKept P s t :=
  ⟨hc, fun _ _ => reg_congr hr hc⟩

theorem RegsKept.wr {P : Nat → Prop} {s t : State} (h : RegsKept P s t) {r : RF} {v : Nat} (hr : P r.addr) : RegsKept P s (wr r v t) :=
  h.trans ⟨rfl, fun a ha => reg_wr_ne fun e => ha (e ▸ hr)⟩

theorem RegsKept.foldl {P : Nat → Prop} {α : Type} {f : State → α → State} (hf : ∀ s x, RegsKept P s (f s x)) (l : List α) :
    ∀ s, RegsKept P s (l.foldl f s) := by
  induction l with
  | nil => exact fun s => .refl P s
  | cons x l ih => exact fun s => (hf s x).trans (ih _)

theorem RegsKept.rd {P : Nat → Prop} {s t : State} (h : RegsKept P s t) {r : RF} (hr : ¬ P r.addr) : rd t r = rd s r :=
  rd_congr (h.2 _ hr)

/-- The registers that queue operations can write: those of the queue engine, and in a state that no run reaches, with a claim of a
port that does not exist, the word that such a port's status would have. -/
def isQmx (a : Nat) : Prop := (0x40000 ≤ a ∧ a < 0xC0000) ∨ a % 0x1000 = 8

theorem qmx_rpStat (r : Nat) : isQmx (0x80008 + 0x1000 * r) := Or.inr (by omega)

theorem qmx_lost {q : Nat} (h : q < 8192) : isQmx (0x40010 + 0x20 * q) := Or.inl (by omega)

theorem qmx_evt : isQmx 0xA0000 := Or.inl (by omega)

/-- One register of the set is written. -/
theorem wr_kept {P : Nat → Prop} {r : RF} (a : Nat) (e : r.addr = a) (h : P a) (v : Nat) (s : State) : RegsKept P s (wr r v s) :=
  ⟨rfl, fun b hb => reg_wr_ne fun k => hb (k ▸ e ▸ h)⟩

theorem kept_eq {P : Nat → Prop} {s t u : State} (h : RegsKept P s t) (hr : u.regs = t.regs) (hc : u.chip = t.chip) : RegsKept P s u :=
  h.trans (.of_eq hr hc)

theorem setQueue_kept (P : Nat → Prop) (q : Nat) (x : QueueSt) (s : State) : RegsKept P s (setQueue q x s) := .of_eq rfl rfl

theorem qLost_kept {q : Nat} (h : q < 8192) (n : Nat) (s : State) : RegsKept isQmx s (qLost q n s) := by
  unfold qLost
  split
  · exact .refl _ _
  · exact ((wr_kept (0x40010 + 0x20 * q) rfl (qmx_lost h) _ s).trans (wr_kept 0xA0000 rfl qmx_evt 1 _)).trans (setQueue_kept _ _ _ _)

theorem breakClaim_kept (p : Pkt) (s : State) : RegsKept isQmx s (breakClaim p s) := by
  unfold breakClaim
  split
  · exact .refl _ _
  · next r _ =>
    have k : RegsKept isQmx s (dropClaim r s) :=
      (RegsKept.trans (.of_eq rfl rfl) (wr_kept (0x80008 + 0x1000 * r) rfl (qmx_rpStat r) 0 (setPort r ⟨none, []⟩ s))).trans (wr_kept (0x80008 + 0x1000 * r) rfl (qmx_rpStat r) 0 _)
    exact (k.trans (wr_kept (0x80008 + 0x1000 * r) rfl (qmx_rpStat r) 1 _)).trans (wr_kept 0xA0000 rfl qmx_evt 1 _)

theorem discardOldest_kept {q : Nat} (h : q < 8192) (s : State) : RegsKept isQmx s (discardOldest q s) := by
  unfold discardOldest
  split
  · exact .refl _ _
  · exact (RegsKept.trans (setQueue_kept _ _ _ _) (breakClaim_kept _ _)).trans (qLost_kept h _ _)

theorem makeRoom_kept {q : Nat} (h : q < 8192) (n : Nat) : ∀ s, RegsKept isQmx s (makeRoom q n s) := by
  induction n with
  | zero => exact fun s => .refl _ s
  | succ n ih =>
    intro s
    unfold makeRoom
    split
    · exact .refl _ _
    · exact (discardOldest_kept h s).trans (ih _)

theorem rewindOpen_kept (q : Nat) (s : State) : RegsKept isQmx s (rewindOpen q s) := by
  unfold rewindOpen
  dsimp only
  split
  · exact .refl _ _
  · exact .of_eq rfl rfl

theorem openPacket_kept {q : Nat} (h : q < 8192) (p : Nat) (s : State) : RegsKept isQmx s (openPacket q p s) := by
  unfold openPacket
  extract_lets x r
  have k : RegsKept isQmx s r.1 := by
    show RegsKept isQmx s (if _ then _ else _ : State × Bool).1
    split
    · exact .refl _ _
    · split
      · exact makeRoom_kept h _ _
      · exact qLost_kept h _ _
  split
  · exact k
  · exact k.trans (setQueue_kept _ _ _ _)

theorem roomForWord_kept {q : Nat} (h : q < 8192) (s : State) : RegsKept isQmx s (roomForWord q s).1 := by
  unfold roomForWord
  dsimp only
  split
  · exact .refl _ _
  · split
    · exact makeRoom_kept h _ _
    · exact (rewindOpen_kept q s).trans (qLost_kept h _ _)

theorem putWord_kept {q : Nat} (h : q < 8192) (w : Nat) (s : State) : RegsKept isQmx s (putWord q w s).1 := by
  unfold putWord
  split
  · exact .refl _ _
  · split
    · exact ((rewindOpen_kept q s).trans (wr_kept (0x40010 + 0x20 * q) rfl (qmx_lost h) _ _)).trans (qLost_kept h _ _)
    · have k := roomForWord_kept h s
      dsimp only
      split
      · exact k
      · split
        · exact k
        · exact k.trans (setQueue_kept _ _ _ _)

theorem putWords_kept {q : Nat} (h : q < 8192) (ws : List Nat) : ∀ s, RegsKept isQmx s (putWords q ws s).1 := by
  induction ws with
  | nil => exact fun s => .refl _ s
  | cons w ws ih =>
    intro s
    have k := putWord_kept h w s
    unfold putWords
    split
    · next s' e => rw [e] at k; exact k.trans (ih _)
    · exact k

theorem appendPacket_kept {q : Nat} (h : q < 8192) (p : Nat) (ws : List Nat) (s : State) : RegsKept isQmx s (appendPacket q p ws s).1 := by
  have k := openPacket_kept h p s
  have k2 := k.trans (putWords_kept h ws (openPacket q p s))
  unfold appendPacket
  dsimp only
  split
  · exact k
  · split
    · next s' e =>
      rw [e] at k2
      refine kept_eq k2 ?_ ?_ <;> (unfold svcReceive commitOpen; dsimp only; repeat' split) <;> rfl
    · exact k2

/-- Setting event bits changes no register outside a set that holds their words. -/
theorem announce_kept {P : Nat → Prop} (es : List RF) (h : ∀ r ∈ es, P r.addr) : ∀ s, RegsKept P s (announce es s) := by
  induction es with
  | nil => exact fun s => .refl _ s
  | cons r es ih =>
    exact fun s => (wr_kept r.addr rfl (h r (List.mem_cons_self ..)) 1 s).trans (ih (fun x hx => h x (List.mem_cons_of_mem _ hx)) _)

/-- A register of the queue engine, or the word of one of a packet's event bits. -/
def isQmxOr (es : List RF) (a : Nat) : Prop := isQmx a ∨ ∃ r ∈ es, r.addr = a

theorem putPlain_kept (q p : Nat) (ws : List Nat) (b : Bool) (es : List RF) (s : State) :
    RegsKept (isQmxOr es) s (putPlain q p ws b es s).1 := by
  have ka : ∀ s, RegsKept (isQmxOr es) s (announce es s) := announce_kept es fun r hr => Or.inr ⟨r, hr, rfl⟩
  unfold putPlain
  split
  · exact ka s
  · next e =>
    have h : q < 8192 := by
      by_contra hq
      exact e (by simp [qEnabled, hq])
    dsimp only
    split
    · exact .of_eq rfl rfl
    · exact ((appendPacket_kept h p ws s).mono fun a k => Or.inl k).trans (ka _)

theorem putCopy_kept (q : Nat) (ws : List Nat) (s : State) : RegsKept isQmx s (putCopy q ws s).1 := by
  unfold putCopy
  dsimp only
  split
  · exact .refl _ _
  · have k := (putPlain_kept (eff s (QMX_Q_COPY_COPY_Q q)) 0xFFFF ws true [] s).mono
      fun a h => h.resolve_right fun ⟨r, hr, _⟩ => List.not_mem_nil hr
    split
    · next s' e => rw [e] at k; exact k
    · next s' _ e => rw [e] at k; exact k

theorem qPutRaw_kept (q p : Nat) (ws : List Nat) (es : List RF) (s : State) : RegsKept (isQmxOr es) s (qPutRaw q p ws es s).1 := by
  have k := putPlain_kept q p ws false es s
  unfold qPutRaw
  split
  · next s' e => rw [e] at k; exact k.trans ((putCopy_kept q ws s').mono fun a h => Or.inl h)
  · next s' e => rw [e] at k; exact k
  · next s' _ e => rw [e] at k; exact k

/-- The registers that recording an error can change: those of the queue engine, the three error registers of its unit, and the words
of the event bits that the error names. -/
def isErr (e : ErrInfo) (a : Nat) : Prop :=
  isQmxOr e.evts a ∨ (errBase e.unit e.inst ≤ a ∧ a ≤ errBase e.unit e.inst + 8)

theorem logError_kept (fatal : Bool) (e : ErrInfo) (s : State) : RegsKept (isErr e) s (logError fatal e s) := by
  unfold logError
  dsimp only
  refine RegsKept.trans ?_ ((qPutRaw_kept _ _ _ _ _).mono fun a h => Or.inl h)
  have p0 : isErr e (errBase e.unit e.inst) := Or.inr (by omega)
  have p4 : isErr e (errBase e.unit e.inst + 4) := Or.inr (by omega)
  have p8 : isErr e (errBase e.unit e.inst + 8) := Or.inr (by omega)
  have k : RegsKept (isErr e) s (inc ⟨errBase e.unit e.inst + 8, 31, 0⟩
      (wr ⟨errBase e.unit e.inst + 4, 31, 0⟩ (2 ^ 31 + e.info + e.code) s)) :=
    (wr_kept _ rfl p4 _ s).trans (wr_kept _ rfl p8 _ _)
  split
  · exact k.trans (wr_kept _ rfl p0 _ _)
  · exact k

/-- An error record changes the three error registers of its unit, its event bits and registers of the queue engine, no other. -/
theorem recordError_kept (e : ErrInfo) (s : State) : RegsKept (isErr e) s (recordError e s) := logError_kept _ _ _

theorem rd_recordError {e : ErrInfo} {s : State} {r : RF} (h : ¬ isErr e r.addr) : rd (recordError e s) r = rd s r :=
  (recordError_kept e s).rd h

/-- What an error record leaves of the rest of the state. -/
theorem recordError_same (e : ErrInfo) (s : State) (x : StateField)
    (h : [StateField.regs, .queues, .readPorts, .svcStats, .jnl].contains x = false) : x.same s (recordError e s) :=
  (recordError_ev rfl (ev_refl [StateField.regs, .queues, .readPorts, .svcStats, .jnl] s) e).frame x h

end Sys2Proof.Machine
end

