-- ==== Sys2Proof/Laws/EvSpares.lean ====
section
/-! SUPPORT. What each function of Machine/Spares.lean changes: one lemma per function, its footprint first. -/

namespace Sys2Proof.Machine
open Sys2Proof

set_option linter.unusedTactic false
set_option linter.unreachableTactic false
set_option linter.unusedVariables false

variable {H : List StateField} {s0 s sNext : State}

theorem addTotal_ev (hF : sub [.rsv] H = true) (h : Evolves H s0 s) (i : Nat) (n : Nat) : Evolves H s0 (addTotal i n s) := by
  refine ev_mono hF h ?_
  unfold addTotal
  repeat' first
      | (with_reducible first
          | exact ev_refl _ _ | assumption | refine ev_ite ?_ ?_ | refine ev_fst (by assumption) ?_
          | refine ev_snd (by assumption) ?_)
      | (show sub _ _ = true) | (show List.contains _ _ = true; rfl) | dsimp only | split | (with_reducible apply ev_rsv)

theorem leaveRing_ev (hF : sub [.regs] H = true) (h : Evolves H s0 s) (r : Repl) : Evolves H s0 (leaveRing r s) := by
  refine ev_mono hF h ?_
  unfold leaveRing
  repeat' first
      | (with_reducible first
          | exact ev_refl _ _ | assumption | apply wr_ev | refine ev_ite ?_ ?_ | refine ev_fst (by assumption) ?_
          | refine ev_snd (by assumption) ?_)
      | (show sub _ _ = true; rfl) | (show List.contains _ _ = true; rfl)

theorem retire_ev (hF : sub [.rsv] H = true) (h : Evolves H s0 s) (r : Repl) : Evolves H s0 (retire r s) := by
  refine ev_mono hF h ?_
  unfold retire
  repeat' first
      | (with_reducible first
          | exact ev_refl _ _ | assumption | refine ev_ite ?_ ?_ | refine ev_fst (by assumption) ?_
          | refine ev_snd (by assumption) ?_)
      | (show sub _ _ = true) | (show List.contains _ _ = true; rfl) | dsimp only | split | (with_reducible apply ev_rsv)

theorem showClocks_ev (hF : sub [.regs] H = true) (h : Evolves H s0 s)  : Evolves H s0 (showClocks s) := by
  refine ev_mono hF h ?_
  unfold showClocks
  repeat' first
      | (with_reducible first
          | exact ev_refl _ _ | assumption | apply wr_ev | refine ev_ite ?_ ?_ | refine ev_fst (by assumption) ?_
          | refine ev_snd (by assumption) ?_)
      | (show sub _ _ = true; rfl) | (show List.contains _ _ = true; rfl)

theorem writeStateArea_ev (hF : sub [.jnl, .jmem] H = true) (h : Evolves H s0 s)  : Evolves H s0 (writeStateArea s) := by
  refine ev_mono hF h ?_
  unfold writeStateArea
  repeat' first
      | (with_reducible first
          | exact ev_refl _ _ | assumption | refine ev_ite ?_ ?_ | refine ev_fst (by assumption) ?_
          | refine ev_snd (by assumption) ?_)
      | (with_reducible first
          | exact Nat.le_add_right _ _ | exact le_rfl
          | (refine fun (c : State.Canonical _) => ?_; repeat' first | exact c.cfgB | exact c.cfgA | exact c.jmem | exact ⟨c.profSets, c.baseSet⟩ | exact ⟨profSets_sset c.profSets _ c.cfgB, c.baseSet⟩ | exact ⟨c.profSets, c.cfgB⟩ | exact ⟨List.forall_mem_nil _, rfl⟩ | exact swf_nil _ | exact swf_freshBank_of rfl | exact swf_profSet c _ | exact swf_setOfProfile c _ | exact swf_bankOf c _ | apply swf_foldl_sset | apply swf_sset | apply swf_bankSet | apply swf_memWrite))
      | (show sub _ _ = true) | (show List.contains _ _ = true; rfl) | dsimp only | split | (with_reducible apply ev_jnl_jmem)

theorem finishRepl_ev (hF : sub [.regs, .queues, .readPorts, .svcStats, .jnl, .rsv, .jmem] H = true) (h : Evolves H s0 s) (r :
    Repl) : Evolves H s0 (finishRepl r s) := by
  refine ev_mono hF h ?_
  unfold finishRepl
  repeat' first
      | (with_reducible first
          | exact ev_refl _ _ | assumption | apply wr_ev | apply addTotal_ev | apply recordError_ev | apply journal_ev
          | apply leaveRing_ev | apply retire_ev | apply showClocks_ev | apply writeStateArea_ev | refine ev_ite ?_ ?_
          | refine ev_fst (by assumption) ?_ | refine ev_snd (by assumption) ?_)
      | (show sub _ _ = true; rfl) | (show List.contains _ _ = true; rfl) | dsimp only | split | (with_reducible apply ev_rsv)

theorem finishReplSwap_ev (hF : sub [.regs, .queues, .readPorts, .svcStats, .jnl, .rsv, .jmem] H = true) (h : Evolves H s0 s)  :
    Evolves H s0 (finishReplSwap s) := by
  refine ev_mono hF h ?_
  unfold finishReplSwap
  repeat' first
      | (with_reducible first
          | exact ev_refl _ _ | assumption | apply finishRepl_ev | refine ev_ite ?_ ?_ | refine ev_fst (by assumption) ?_
          | refine ev_snd (by assumption) ?_)
      | (show sub _ _ = true; rfl) | (show List.contains _ _ = true; rfl) | dsimp only | split | (with_reducible apply ev_rsv)

theorem wearReached_ev (hF : sub [.regs, .queues, .readPorts, .svcStats, .jnl, .rsv] H = true) (h : Evolves H s0 s) (kind : Nat)
    (inst : Nat) (row : Nat) (signal : Nat) : Evolves H s0 (wearReached kind inst row signal s) := by
  refine ev_mono hF h ?_
  unfold wearReached
  repeat' first
      | (with_reducible first
          | exact ev_refl _ _ | assumption | apply recordError_ev | refine ev_ite ?_ ?_ | refine ev_fst (by assumption) ?_
          | refine ev_snd (by assumption) ?_)
      | (show sub _ _ = true; rfl) | (show List.contains _ _ = true; rfl) | dsimp only | split | (with_reducible apply ev_rsv)

theorem noteWear_ev (hF : sub [.regs, .queues, .readPorts, .svcStats, .jnl, .rsv] H = true) (h : Evolves H s0 s) (kind : Nat)
    (inst : Nat) (row : Nat) (signal : Nat) (n : Nat) : Evolves H s0 (noteWear kind inst row signal n s) := by
  refine ev_mono hF h ?_
  unfold noteWear
  repeat' first
      | (with_reducible first
          | exact ev_refl _ _ | assumption | apply wearReached_ev | refine ev_ite ?_ ?_ | refine ev_fst (by assumption) ?_
          | refine ev_snd (by assumption) ?_)
      | (show sub _ _ = true; rfl) | (show List.contains _ _ = true; rfl) | dsimp only | split | (with_reducible apply ev_rsv)

theorem noteRow_ev (hF : sub [.regs, .queues, .readPorts, .svcStats, .jnl, .rsv] H = true) (h : Evolves H s0 s) (kind : Nat) (a
    : Nat) (signal : Nat) : Evolves H s0 (noteRow kind a signal s) := by
  refine ev_mono hF h ?_
  unfold noteRow
  repeat' first
      | (with_reducible first
          | exact ev_refl _ _ | assumption | apply noteWear_ev | refine ev_ite ?_ ?_ | refine ev_fst (by assumption) ?_
          | refine ev_snd (by assumption) ?_)
      | (show sub _ _ = true; rfl) | (show List.contains _ _ = true; rfl)

end Sys2Proof.Machine
end

