-- ==== Sys2Proof/Laws/EvEvents.lean ====
section
/-! SUPPORT. What each function of Machine/Events.lean changes: one lemma per function, its footprint first. -/

namespace Sys2Proof.Machine
open Sys2Proof

set_option linter.unusedTactic false
set_option linter.unreachableTactic false
set_option linter.unusedVariables false

variable {H : List StateField} {s0 s sNext : State}

theorem setHostPort_ev (hF : sub [.hostPorts] H = true) (h : Evolves H s0 s) (p : Nat) (x : HostPortSt) : Evolves H s0
    (setHostPort p x s) := by
  refine ev_mono hF h ?_
  unfold setHostPort
  repeat' first
      | (with_reducible first
          | exact ev_refl _ _ | assumption | refine ev_ite ?_ ?_ | refine ev_fst (by assumption) ?_
          | refine ev_snd (by assumption) ?_)
      | (show sub _ _ = true) | (show List.contains _ _ = true; rfl) | dsimp only | split | (with_reducible apply ev_hostPorts)

theorem setPba_ev (hF : sub [.regs] H = true) (h : Evolves H s0 s) (p : Nat) (v : Nat) (b : Bool) : Evolves H s0 (setPba p v b
    s) := by
  refine ev_mono hF h ?_
  unfold setPba
  repeat' first
      | (with_reducible first
          | exact ev_refl _ _ | assumption | apply wr_ev | refine ev_ite ?_ ?_ | refine ev_fst (by assumption) ?_
          | refine ev_snd (by assumption) ?_)
      | (show sub _ _ = true; rfl) | (show List.contains _ _ = true; rfl)

theorem sendMsix_ev (hF : sub [.regs, .queues, .readPorts, .svcStats, .jnl, .out] H = true) (h : Evolves H s0 s) (p : Nat) (v :
    Nat) (src : Nat) : Evolves H s0 (sendMsix p v src s) := by
  refine ev_mono hF h ?_
  unfold sendMsix
  repeat' first
      | (with_reducible first
          | exact ev_refl _ _ | assumption | apply recordError_ev | apply emit_ev | apply setPba_ev | refine ev_ite ?_ ?_
          | refine ev_fst (by assumption) ?_ | refine ev_snd (by assumption) ?_)
      | (show sub _ _ = true; rfl) | (show List.contains _ _ = true; rfl)

theorem issueMsix_ev (hF : sub [.regs, .queues, .readPorts, .hostPorts, .svcStats, .jnl, .out] H = true) (h : Evolves H s0 s) (p
    : Nat) (src : Nat) : Evolves H s0 (issueMsix p src s) := by
  refine ev_mono hF h ?_
  unfold issueMsix
  repeat' first
      | (with_reducible first
          | exact ev_refl _ _ | assumption | apply inc_ev | apply setHostPort_ev | apply setPba_ev | apply sendMsix_ev
          | refine ev_ite ?_ ?_ | refine ev_fst (by assumption) ?_ | refine ev_snd (by assumption) ?_)
      | (show sub _ _ = true; rfl) | (show List.contains _ _ = true; rfl)

theorem setNote_ev (hF : sub [.regs] H = true) (h : Evolves H s0 s) (p : Nat) (b : Nat) : Evolves H s0 (setNote p b s) := by
  refine ev_mono hF h ?_
  unfold setNote
  repeat' first
      | (with_reducible first
          | exact ev_refl _ _ | assumption | apply wr_ev | refine ev_ite ?_ ?_ | refine ev_fst (by assumption) ?_
          | refine ev_snd (by assumption) ?_)
      | (show sub _ _ = true; rfl) | (show List.contains _ _ = true; rfl)

theorem notifyHost_ev (hF : sub [.regs, .queues, .readPorts, .hostPorts, .svcStats, .jnl, .out] H = true) (h : Evolves H s0 s)
    (t : Nat) : Evolves H s0 (notifyHost t s) := by
  refine ev_mono hF h ?_
  unfold notifyHost
  repeat' first
      | (with_reducible first
          | exact ev_refl _ _ | assumption | apply wr_ev | apply issueMsix_ev | apply setNote_ev | refine ev_ite ?_ ?_
          | refine ev_fst (by assumption) ?_ | refine ev_snd (by assumption) ?_)
      | (show sub _ _ = true; rfl) | (show List.contains _ _ = true) | dsimp only | split

theorem notifyLine_ev (hF : sub [.pins, .regs] H = true) (h : Evolves H s0 s) (t : Nat) : Evolves H s0 (notifyLine t s) := by
  refine ev_mono hF h ?_
  unfold notifyLine
  repeat' first
      | (with_reducible first
          | exact ev_refl _ _ | assumption | apply inc_ev | refine ev_ite ?_ ?_ | refine ev_fst (by assumption) ?_
          | refine ev_snd (by assumption) ?_)
      | (show sub _ _ = true; rfl) | (show List.contains _ _ = true; rfl) | dsimp only | split | (with_reducible apply ev_pins)

theorem notify_ev (hF : sub [.pins, .regs, .queues, .readPorts, .hostPorts, .svcStats, .jnl, .out] H = true) (h : Evolves H s0
    s) (t : Nat) : Evolves H s0 (notify t s) := by
  refine ev_mono hF h ?_
  unfold notify
  repeat' first
      | (with_reducible first
          | exact ev_refl _ _ | assumption | apply notifyHost_ev | apply notifyLine_ev | refine ev_ite ?_ ?_
          | refine ev_fst (by assumption) ?_ | refine ev_snd (by assumption) ?_)
      | (show sub _ _ = true; rfl) | (show List.contains _ _ = true; rfl)

theorem notifyAll_ev (hF : sub [.pins, .regs, .queues, .readPorts, .hostPorts, .svcStats, .jnl, .out] H = true) (h : Evolves H
    s0 s)  : Evolves H s0 (notifyAll s) := by
  refine ev_mono hF h ?_
  unfold notifyAll
  repeat' first
      | (with_reducible first
          | exact ev_refl _ _ | assumption | apply notify_ev | refine ev_ite ?_ ?_ | refine ev_fst (by assumption) ?_
          | refine ev_snd (by assumption) ?_)
      | (show sub _ _ = true; rfl) | (show List.contains _ _ = true; rfl)

theorem alertOn_ev (hF : sub [.pins, .regs] H = true) (h : Evolves H s0 s) (src : Nat) (t : Nat) : Evolves H s0 (alertOn src t
    s) := by
  refine ev_mono hF h ?_
  unfold alertOn
  repeat' first
      | (with_reducible first
          | exact ev_refl _ _ | assumption | apply wr_ev | refine ev_ite ?_ ?_ | refine ev_fst (by assumption) ?_
          | refine ev_snd (by assumption) ?_)
      | (show sub _ _ = true; rfl) | (show List.contains _ _ = true; rfl) | dsimp only | split | (with_reducible apply ev_pins)

theorem mapMiss_ev (hF : sub [.regs] H = true) (h : Evolves H s0 s) (a : Nat) : Evolves H s0 (mapMiss a s) := by
  refine ev_mono hF h ?_
  unfold mapMiss
  repeat' first
      | (with_reducible first
          | exact ev_refl _ _ | assumption | apply wr_ev | apply inc_ev | refine ev_ite ?_ ?_ | refine ev_fst (by assumption) ?_
          | refine ev_snd (by assumption) ?_)
      | (show sub _ _ = true; rfl) | (show List.contains _ _ = true; rfl)

theorem deny_ev (hF : sub [.regs] H = true) (h : Evolves H s0 s) (a : Nat) : Evolves H s0 (deny a s) := by
  refine ev_mono hF h ?_
  unfold deny
  repeat' first
      | (with_reducible first
          | exact ev_refl _ _ | assumption | apply wr_ev | apply inc_ev | refine ev_ite ?_ ?_ | refine ev_fst (by assumption) ?_
          | refine ev_snd (by assumption) ?_)
      | (show sub _ _ = true; rfl) | (show List.contains _ _ = true; rfl)

theorem guardOrig_ev {act : State → State} (hF : sub [.regs] H = true) (h : Evolves H s0 s)
    (o owner : Orig) (a : Nat) (ha : ∀ u, Evolves H s0 u → Evolves H s0 (act u)) : Evolves H s0 (guardOrig o owner a act s) :=
        by
  have hs := ha s h
  unfold guardOrig
  repeat' first
      | assumption
      | (with_reducible first
          | apply mapMiss_ev | refine ev_ite ?_ ?_)
      | exact sub_trans rfl hF | dsimp only

theorem setActive_ev (hF : sub [.regs] H = true) (h : Evolves H s0 s) (t : Nat) (src : Nat) (b : Bool) : Evolves H s0 (setActive
    t src b s) := by
  refine ev_mono hF h ?_
  unfold setActive
  repeat' first
      | (with_reducible first
          | exact ev_refl _ _ | assumption | apply wr_ev | refine ev_ite ?_ ?_ | refine ev_fst (by assumption) ?_
          | refine ev_snd (by assumption) ?_)
      | (show sub _ _ = true; rfl) | (show List.contains _ _ = true; rfl)

theorem doComplete_ev (hF : sub [.pins, .regs, .queues, .readPorts, .hostPorts, .svcStats, .jnl, .out] H = true) (h : Evolves H
    s0 s) (o : Orig) (t : Nat) (src : Nat) : Evolves H s0 (doComplete o t src s) := by
  refine ev_mono hF h ?_
  unfold doComplete
  repeat' first
      | (with_reducible first
          | exact ev_refl _ _ | assumption | apply recordError_ev | apply notify_ev | apply guardOrig_ev | apply setActive_ev
          | refine ev_ite ?_ ?_ | refine ev_fst (by assumption) ?_ | refine ev_snd (by assumption) ?_ | intro _ _ _ | intro _ _)
      | (show sub _ _ = true; rfl) | (show List.contains _ _ = true; rfl)

theorem doEnableWrite_ev (hF : sub [.pins, .regs, .queues, .readPorts, .hostPorts, .svcStats, .jnl, .out] H = true) (h : Evolves
    H s0 s) (o : Orig) (t : Nat) (w : Nat) (v : Nat) : Evolves H s0 (doEnableWrite o t w v s) := by
  refine ev_mono hF h ?_
  unfold doEnableWrite
  repeat' first
      | (with_reducible first
          | exact ev_refl _ _ | assumption | apply wr_ev | apply notify_ev | apply guardOrig_ev | refine ev_ite ?_ ?_
          | refine ev_fst (by assumption) ?_ | refine ev_snd (by assumption) ?_ | intro _ _ _ | intro _ _)
      | (show sub _ _ = true; rfl) | (show List.contains _ _ = true; rfl)

theorem doGdis_ev (hF : sub [.pins, .regs, .queues, .readPorts, .hostPorts, .svcStats, .jnl, .out] H = true) (h : Evolves H s0
    s) (o : Orig) (t : Nat) (v : Nat) : Evolves H s0 (doGdis o t v s) := by
  refine ev_mono hF h ?_
  unfold doGdis
  repeat' first
      | (with_reducible first
          | exact ev_refl _ _ | assumption | apply wr_ev | apply notify_ev | apply guardOrig_ev | refine ev_ite ?_ ?_
          | refine ev_fst (by assumption) ?_ | refine ev_snd (by assumption) ?_ | intro _ _ _ | intro _ _)
      | (show sub _ _ = true; rfl) | (show List.contains _ _ = true; rfl)

theorem doSplit_ev (hF : sub [.pins, .regs, .queues, .readPorts, .hostPorts, .svcStats, .jnl, .out] H = true) (h : Evolves H s0
    s) (o : Orig) (t : Nat) (v : Nat) : Evolves H s0 (doSplit o t v s) := by
  refine ev_mono hF h ?_
  unfold doSplit
  repeat' first
      | (with_reducible first
          | exact ev_refl _ _ | assumption | apply wr_ev | apply notify_ev | apply guardOrig_ev | refine ev_ite ?_ ?_
          | refine ev_fst (by assumption) ?_ | refine ev_snd (by assumption) ?_ | intro _ _ _ | intro _ _)
      | (show sub _ _ = true; rfl) | (show List.contains _ _ = true; rfl)

theorem startPacer_ev (hF : sub [.regs] H = true) (h : Evolves H s0 s) (g : Nat) (t : Nat) : Evolves H s0 (startPacer g t s) :=
    by
  refine ev_mono hF h ?_
  unfold startPacer
  repeat' first
      | (with_reducible first
          | exact ev_refl _ _ | assumption | apply wr_ev | refine ev_ite ?_ ?_ | refine ev_fst (by assumption) ?_
          | refine ev_snd (by assumption) ?_)
      | (show sub _ _ = true; rfl) | (show List.contains _ _ = true; rfl)

theorem claimWord_ev (hF : sub [.regs] H = true) (h : Evolves H s0 s) (t : Nat) : Evolves H s0 (claimWord t s).1 := by
  refine ev_mono hF h ?_
  unfold claimWord
  repeat' first
      | (with_reducible first
          | exact ev_refl _ _ | assumption | apply inc_ev | apply setActive_ev | apply startPacer_ev | refine ev_ite ?_ ?_
          | refine ev_fst (by assumption) ?_ | refine ev_snd (by assumption) ?_)
      | (show sub _ _ = true; rfl) | (show List.contains _ _ = true) | dsimp only | split

theorem guardRead_ev {act : State → State} (hF : sub [.regs, .out] H = true) (h : Evolves H s0 s)
    (o owner : Orig) (a : Nat) (ha : ∀ u, Evolves H s0 u → Evolves H s0 (act u)) : Evolves H s0 (guardRead o owner a act s) :=
        by
  have hs := ha s h
  unfold guardRead
  repeat' first
      | assumption
      | (with_reducible first
          | apply mapMiss_ev | apply emit_ev | refine ev_ite ?_ ?_)
      | exact sub_trans rfl hF | dsimp only

theorem doClaim_ev (hF : sub [.pins, .regs, .queues, .readPorts, .hostPorts, .svcStats, .jnl, .out] H = true) (h : Evolves H s0
    s) (o : Orig) (t : Nat) : Evolves H s0 (doClaim o t s) := by
  refine ev_mono hF h ?_
  unfold doClaim
  repeat' first
      | (with_reducible first
          | exact ev_refl _ _ | assumption | apply emit_ev | apply notify_ev | apply claimWord_ev | apply guardRead_ev
          | refine ev_ite ?_ ?_ | refine ev_fst (by assumption) ?_ | refine ev_snd (by assumption) ?_ | intro _ _ _ | intro _ _)
      | (show sub _ _ = true; rfl) | (show List.contains _ _ = true; rfl)

theorem doPacerExpire_ev (hF : sub [.pins, .regs, .queues, .readPorts, .hostPorts, .svcStats, .jnl, .out] H = true) (h : Evolves
    H s0 s) (g : Nat) (t : Nat) : Evolves H s0 (doPacerExpire g t s) := by
  refine ev_mono hF h ?_
  unfold doPacerExpire
  repeat' first
      | (with_reducible first
          | exact ev_refl _ _ | assumption | apply wr_ev | apply notify_ev | refine ev_ite ?_ ?_
          | refine ev_fst (by assumption) ?_ | refine ev_snd (by assumption) ?_)
      | (show sub _ _ = true; rfl) | (show List.contains _ _ = true; rfl)

theorem execClaim_ev (hF : sub [.pins, .regs, .queues, .readPorts, .hostPorts, .svcStats, .jnl, .out] H = true) (h : Evolves H
    s0 s) (o : Orig) (t : Nat) (e : execClaim o t s = .next sNext) : Evolves H s0 sNext := by
  refine ev_mono hF h ?_
  unfold execClaim at e
  cases e
  repeat' first
      | (with_reducible first
          | exact ev_refl _ _ | assumption | apply doClaim_ev | refine ev_ite ?_ ?_ | refine ev_fst (by assumption) ?_
          | refine ev_snd (by assumption) ?_)
      | (show sub _ _ = true; rfl) | (show List.contains _ _ = true; rfl)

theorem execComplete_ev (hF : sub [.pins, .regs, .queues, .readPorts, .hostPorts, .svcStats, .jnl, .out] H = true) (h : Evolves
    H s0 s) (o : Orig) (t : Nat) (src : Nat) (e : execComplete o t src s = .next sNext) : Evolves H s0 sNext := by
  refine ev_mono hF h ?_
  unfold execComplete at e
  cases e
  repeat' first
      | (with_reducible first
          | exact ev_refl _ _ | assumption | apply doComplete_ev | refine ev_ite ?_ ?_ | refine ev_fst (by assumption) ?_
          | refine ev_snd (by assumption) ?_)
      | (show sub _ _ = true; rfl) | (show List.contains _ _ = true; rfl)

theorem resetTarget_ev (hF : sub [.regs] H = true) (h : Evolves H s0 s) (p : Nat) : Evolves H s0 (resetTarget p s) := by
  refine ev_mono hF h ?_
  unfold resetTarget
  repeat' first
      | (with_reducible first
          | exact ev_refl _ _ | assumption | apply wr_ev | apply setNote_ev | refine ev_ite ?_ ?_
          | (refine ev_foldl ?_ ?_; rotate_left; intro _ _ _) | refine ev_fst (by assumption) ?_
          | refine ev_snd (by assumption) ?_)
      | (show sub _ _ = true; rfl) | (show List.contains _ _ = true; rfl)

theorem execEnableWrite_ev (hF : sub [.pins, .regs, .queues, .readPorts, .hostPorts, .svcStats, .jnl, .out] H = true) (h :
    Evolves H s0 s) (o : Orig) (t : Nat) (w : Nat) (v : Nat) (e : execEnableWrite o t w v s = .next sNext) : Evolves H s0 sNext
    := by
  refine ev_mono hF h ?_
  unfold execEnableWrite at e
  cases e
  repeat' first
      | (with_reducible first
          | exact ev_refl _ _ | assumption | apply doEnableWrite_ev | refine ev_ite ?_ ?_ | refine ev_fst (by assumption) ?_
          | refine ev_snd (by assumption) ?_)
      | (show sub _ _ = true; rfl) | (show List.contains _ _ = true; rfl)

theorem execGdis_ev (hF : sub [.pins, .regs, .queues, .readPorts, .hostPorts, .svcStats, .jnl, .out] H = true) (h : Evolves H s0
    s) (o : Orig) (t : Nat) (v : Nat) (e : execGdis o t v s = .next sNext) : Evolves H s0 sNext := by
  refine ev_mono hF h ?_
  unfold execGdis at e
  cases e
  repeat' first
      | (with_reducible first
          | exact ev_refl _ _ | assumption | apply doGdis_ev | refine ev_ite ?_ ?_ | refine ev_fst (by assumption) ?_
          | refine ev_snd (by assumption) ?_)
      | (show sub _ _ = true; rfl) | (show List.contains _ _ = true; rfl)

theorem execPacerExpire_ev (hF : sub [.pins, .regs, .queues, .readPorts, .hostPorts, .svcStats, .jnl, .out] H = true) (h :
    Evolves H s0 s) (g : Nat) (t : Nat) (e : execPacerExpire g t s = .next sNext) : Evolves H s0 sNext := by
  refine ev_mono hF h ?_
  unfold execPacerExpire at e
  cases e
  repeat' first
      | (with_reducible first
          | exact ev_refl _ _ | assumption | apply doPacerExpire_ev | refine ev_ite ?_ ?_ | refine ev_fst (by assumption) ?_
          | refine ev_snd (by assumption) ?_)
      | (show sub _ _ = true; rfl) | (show List.contains _ _ = true; rfl)

theorem setLevel_ev (hF : sub [.regs] H = true) (h : Evolves H s0 s) (src : Nat) (b : Bool) : Evolves H s0 (setLevel src b s) :=
    by
  refine ev_mono hF h ?_
  unfold setLevel
  repeat' first
      | (with_reducible first
          | exact ev_refl _ _ | assumption | apply wr_ev | refine ev_ite ?_ ?_ | refine ev_fst (by assumption) ?_
          | refine ev_snd (by assumption) ?_)
      | (show sub _ _ = true; rfl) | (show List.contains _ _ = true; rfl)

theorem updateSource_ev (hF : sub [.pins, .regs, .queues, .readPorts, .hostPorts, .svcStats, .jnl, .out] H = true) (h : Evolves
    H s0 s) (src : Nat) : Evolves H s0 (updateSource src s) := by
  refine ev_mono hF h ?_
  unfold updateSource
  repeat' first
      | (with_reducible first
          | exact ev_refl _ _ | assumption | apply notifyAll_ev | apply alertOn_ev | apply setLevel_ev | refine ev_ite ?_ ?_
          | refine ev_fst (by assumption) ?_ | refine ev_snd (by assumption) ?_)
      | (show sub _ _ = true; rfl) | (show List.contains _ _ = true; rfl)

theorem execSourceLevelChange_ev (hF : sub [.pins, .regs, .queues, .readPorts, .hostPorts, .svcStats, .jnl, .out] H = true) (h :
    Evolves H s0 s) (src : Nat) (e : execSourceLevelChange src s = .next sNext) : Evolves H s0 sNext := by
  refine ev_mono hF h ?_
  unfold execSourceLevelChange at e
  cases e
  repeat' first
      | (with_reducible first
          | exact ev_refl _ _ | assumption | apply updateSource_ev | refine ev_ite ?_ ?_ | refine ev_fst (by assumption) ?_
          | refine ev_snd (by assumption) ?_)
      | (show sub _ _ = true; rfl) | (show List.contains _ _ = true; rfl)

theorem execSplit_ev (hF : sub [.pins, .regs, .queues, .readPorts, .hostPorts, .svcStats, .jnl, .out] H = true) (h : Evolves H
    s0 s) (o : Orig) (t : Nat) (v : Nat) (e : execSplit o t v s = .next sNext) : Evolves H s0 sNext := by
  refine ev_mono hF h ?_
  unfold execSplit at e
  cases e
  repeat' first
      | (with_reducible first
          | exact ev_refl _ _ | assumption | apply doSplit_ev | refine ev_ite ?_ ?_ | refine ev_fst (by assumption) ?_
          | refine ev_snd (by assumption) ?_)
      | (show sub _ _ = true; rfl) | (show List.contains _ _ = true; rfl)

end Sys2Proof.Machine
end

