-- ==== Sys2Proof/Laws/EvEpoch.lean ====
section
/-! SUPPORT. What each function of Machine/Epoch.lean changes: one lemma per function, its footprint first. -/

namespace Sys2Proof.Machine
open Sys2Proof

set_option linter.unusedTactic false
set_option linter.unreachableTactic false
set_option linter.unusedVariables false

variable {H : List StateField} {s0 s sNext : State}

theorem bootRecord_ev (hF : sub [.jnl, .freeCount] H = true) (h : Evolves H s0 s)  : Evolves H s0 (bootRecord s) := by
  refine ev_mono hF h ?_
  unfold bootRecord
  repeat' first
      | (with_reducible first
          | exact ev_refl _ _ | assumption | refine ev_ite ?_ ?_ | refine ev_fst (by assumption) ?_
          | refine ev_snd (by assumption) ?_)
      | (with_reducible first
          | exact Nat.le_add_right _ _ | exact le_rfl)
      | (show sub _ _ = true) | (show List.contains _ _ = true; rfl) | dsimp only | split
      | (with_reducible apply ev_jnl_freeCount)

theorem relayAtLoaded_ev (hF : sub [.regs] H = true) (h : Evolves H s0 s)  : Evolves H s0 (relayAtLoaded s) := by
  refine ev_mono hF h ?_
  unfold relayAtLoaded
  repeat' first
      | (with_reducible first
          | exact ev_refl _ _ | assumption | apply wr_ev | refine ev_ite ?_ ?_ | refine ev_fst (by assumption) ?_
          | refine ev_snd (by assumption) ?_)
      | (show sub _ _ = true; rfl) | (show List.contains _ _ = true; rfl)

theorem announceLoaded_ev (hF : sub [.regs, .ldr, .jnl, .freeCount] H = true) (h : Evolves H s0 s)  : Evolves H s0
    (announceLoaded s) := by
  refine ev_mono hF h ?_
  unfold announceLoaded
  repeat' first
      | (with_reducible first
          | exact ev_refl _ _ | assumption | apply bootRecord_ev | apply wr_ev | apply relayAtLoaded_ev | refine ev_ite ?_ ?_
          | refine ev_fst (by assumption) ?_ | refine ev_snd (by assumption) ?_)
      | (with_reducible first
          | exact Nat.le_add_right _ _ | exact le_rfl
          | (refine fun (c : State.Canonical _) => ?_; repeat' first | exact c.regs | exact c.cfgB | exact c.cfgA | exact ⟨c.profSets, c.baseSet⟩ | (apply swf_splice; exact Nat.le_add_right _ _)))
      | (show sub _ _ = true; rfl) | (show List.contains _ _ = true; rfl) | dsimp only | split | (with_reducible apply ev_ldr)

theorem completeSwap_ev (hF : sub [.regs, .cfgB, .ldr, .queues, .readPorts, .svcStats, .jnl, .rsv, .jmem, .freeCount] H = true)
    (h : Evolves H s0 s)  : Evolves H s0 (completeSwap s) := by
  refine ev_mono hF h ?_
  unfold completeSwap
  repeat' first
      | (with_reducible first
          | exact ev_refl _ _ | assumption | apply wr_ev | apply announceLoaded_ev | apply finishReplSwap_ev
          | refine ev_ite ?_ ?_ | refine ev_fst (by assumption) ?_ | refine ev_snd (by assumption) ?_)
      | (with_reducible first
          | exact Nat.le_add_right _ _ | exact le_rfl
          | (refine fun (c : State.Canonical _) => ?_; repeat' first | exact c.regs | exact c.cfgB | exact c.cfgA | (apply swf_splice; exact Nat.le_add_right _ _)))
      | (show sub _ _ = true; rfl) | (show List.contains _ _ = true; rfl) | dsimp only | split | (with_reducible apply ev_cfgB)

theorem checkSwap_ev (hF : sub [.regs, .cfgB, .ldr, .queues, .readPorts, .svcStats, .jnl, .rsv, .jmem, .freeCount] H = true) (h
    : Evolves H s0 s)  : Evolves H s0 (checkSwap s) := by
  refine ev_mono hF h ?_
  unfold checkSwap
  repeat' first
      | (with_reducible first
          | exact ev_refl _ _ | assumption | apply completeSwap_ev | refine ev_ite ?_ ?_ | refine ev_fst (by assumption) ?_
          | refine ev_snd (by assumption) ?_)
      | (show sub _ _ = true; rfl) | (show List.contains _ _ = true; rfl)

theorem liveRefresh_ev (hF : sub [.liveA] H = true) (h : Evolves H s0 s) (c : Nat) : Evolves H s0 (liveRefresh c s) := by
  refine ev_mono hF h ?_
  unfold liveRefresh
  repeat' first
      | (with_reducible first
          | exact ev_refl _ _ | assumption | refine ev_ite ?_ ?_ | refine ev_fst (by assumption) ?_
          | refine ev_snd (by assumption) ?_)
      | (with_reducible first
          | exact Nat.le_add_right _ _ | exact le_rfl
          | (refine fun (c : State.Canonical _) => ?_; repeat' first | exact c.cfgB | exact c.cfgA | exact c.liveA | exact ⟨c.profSets, c.baseSet⟩ | exact ⟨profSets_sset c.profSets _ c.cfgB, c.baseSet⟩ | exact ⟨c.profSets, c.cfgB⟩ | exact ⟨List.forall_mem_nil _, rfl⟩ | exact swf_nil _ | exact swf_freshBank_of rfl | exact swf_profSet c _ | exact swf_setOfProfile c _ | exact swf_bankOf c _ | apply swf_foldl_sset | apply swf_sset))
      | (show sub _ _ = true) | (show List.contains _ _ = true; rfl) | dsimp only | split | (with_reducible apply ev_liveA)

theorem putFrame_ev (hF : sub [.frames] H = true) (h : Evolves H s0 s) (f : FrameSt) : Evolves H s0 (putFrame f s) := by
  refine ev_mono hF h ?_
  unfold putFrame
  repeat' first
      | (with_reducible first
          | exact ev_refl _ _ | assumption | refine ev_ite ?_ ?_ | refine ev_fst (by assumption) ?_
          | refine ev_snd (by assumption) ?_)
      | (show sub _ _ = true) | (show List.contains _ _ = true; rfl) | dsimp only | split | (with_reducible apply ev_frames)

theorem setCam_ev (hF : sub [.cams] H = true) (h : Evolves H s0 s) (p : Nat) (x : CamSt) : Evolves H s0 (setCam p x s) := by
  refine ev_mono hF h ?_
  unfold setCam
  repeat' first
      | (with_reducible first
          | exact ev_refl _ _ | assumption | refine ev_ite ?_ ?_ | refine ev_fst (by assumption) ?_
          | refine ev_snd (by assumption) ?_)
      | (show sub _ _ = true) | (show List.contains _ _ = true; rfl) | dsimp only | split | (with_reducible apply ev_cams)

theorem sweepFrames_ev (hF : sub [.frames] H = true) (h : Evolves H s0 s)  : Evolves H s0 (sweepFrames s) := by
  refine ev_mono hF h ?_
  unfold sweepFrames
  repeat' first
      | (with_reducible first
          | exact ev_refl _ _ | assumption | refine ev_ite ?_ ?_ | refine ev_fst (by assumption) ?_
          | refine ev_snd (by assumption) ?_)
      | (show sub _ _ = true) | (show List.contains _ _ = true; rfl) | dsimp only | split | (with_reducible apply ev_frames)

theorem setLoop_ev (hF : sub [.loops] H = true) (h : Evolves H s0 s) (c : Nat) (x : LoopSt) : Evolves H s0 (setLoop c x s) := by
  refine ev_mono hF h ?_
  unfold setLoop
  repeat' first
      | (with_reducible first
          | exact ev_refl _ _ | assumption | refine ev_ite ?_ ?_ | refine ev_fst (by assumption) ?_
          | refine ev_snd (by assumption) ?_)
      | (show sub _ _ = true) | (show List.contains _ _ = true; rfl) | dsimp only | split | (with_reducible apply ev_loops)

theorem countStart_ev (hF : sub [.loops] H = true) (h : Evolves H s0 s) (c : Nat) : Evolves H s0 (countStart c s) := by
  refine ev_mono hF h ?_
  unfold countStart
  repeat' first
      | (with_reducible first
          | exact ev_refl _ _ | assumption | apply setLoop_ev | refine ev_ite ?_ ?_ | refine ev_fst (by assumption) ?_
          | refine ev_snd (by assumption) ?_)
      | (show sub _ _ = true; rfl) | (show List.contains _ _ = true) | dsimp only | split

end Sys2Proof.Machine
end

