-- ==== Sys2Proof/Laws/EvReport.lean ====
section
/-! SUPPORT. What each function of Machine/Report.lean changes: one lemma per function, its footprint first. -/

namespace Sys2Proof.Machine
open Sys2Proof

set_option linter.unusedTactic false
set_option linter.unreachableTactic false
set_option linter.unusedVariables false

variable {H : List StateField} {s0 s sNext : State}

theorem bastingWrite_ev (hF : sub [.cfgB, .liveB] H = true) (h : Evolves H s0 s) (a : Nat) (v : Nat) (mask : Nat) : Evolves H s0
    (bastingWrite a v mask s).1 := by
  refine ev_mono hF h ?_
  unfold bastingWrite
  repeat' first
      | (with_reducible first
          | exact ev_refl _ _ | assumption | refine ev_ite ?_ ?_ | refine ev_fst (by assumption) ?_
          | refine ev_snd (by assumption) ?_)
      | (with_reducible first
          | exact Nat.le_add_right _ _ | exact le_rfl
          | (refine fun (c : State.Canonical _) => ?_; repeat' first | exact c.cfgB | exact c.cfgA | exact c.liveB | exact ⟨c.profSets, c.baseSet⟩ | exact ⟨profSets_sset c.profSets _ c.cfgB, c.baseSet⟩ | exact ⟨c.profSets, c.cfgB⟩ | exact ⟨List.forall_mem_nil _, rfl⟩ | exact swf_nil _ | exact swf_freshBank_of rfl | exact swf_profSet c _ | exact swf_setOfProfile c _ | exact swf_bankOf c _ | apply swf_foldl_sset | apply swf_sset))
      | (show sub _ _ = true) | (show List.contains _ _ = true; rfl) | dsimp only | split
      | (with_reducible first | apply ev_cfgB | apply ev_liveB)

theorem journalEntry_ev (hF : sub [.jnl] H = true) (h : Evolves H s0 s) (bs : List Nat) : Evolves H s0 (journalEntry bs s) := by
  refine ev_mono hF h ?_
  unfold journalEntry
  repeat' first
      | (with_reducible first
          | exact ev_refl _ _ | assumption | refine ev_ite ?_ ?_ | refine ev_fst (by assumption) ?_
          | refine ev_snd (by assumption) ?_)
      | (show sub _ _ = true) | (show List.contains _ _ = true; rfl) | dsimp only | split | (with_reducible apply ev_jnl)

theorem reportAs_ev (hF : sub [.regs, .ldr, .queues, .readPorts, .svcStats, .jnl] H = true) (h : Evolves H s0 s) (n : Nat) (e :
    Entry) : Evolves H s0 (reportAs n e s) := by
  refine ev_mono hF h ?_
  unfold reportAs
  repeat' first
      | (with_reducible first
          | exact ev_refl _ _ | assumption | apply qPut_ev | apply journalEntry_ev | refine ev_ite ?_ ?_
          | refine ev_fst (by assumption) ?_ | refine ev_snd (by assumption) ?_)
      | (with_reducible first
          | exact Nat.le_add_right _ _ | exact le_rfl
          | (refine fun (c : State.Canonical _) => ?_; repeat' first | exact c.regs | exact c.cfgB | exact c.cfgA | exact ⟨c.profSets, c.baseSet⟩ | (apply swf_splice; exact Nat.le_add_right _ _)))
      | (show sub _ _ = true; rfl) | (show List.contains _ _ = true; rfl) | dsimp only | split | (with_reducible apply ev_ldr)

theorem report_ev (hF : sub [.regs, .ldr, .queues, .readPorts, .svcStats, .jnl] H = true) (h : Evolves H s0 s) (e : Entry) :
    Evolves H s0 (report e s) := by
  refine ev_mono hF h ?_
  unfold report
  repeat' first
      | (with_reducible first
          | exact ev_refl _ _ | assumption | apply reportAs_ev | refine ev_ite ?_ ?_ | refine ev_fst (by assumption) ?_
          | refine ev_snd (by assumption) ?_)
      | (with_reducible first
          | exact Nat.le_add_right _ _ | exact le_rfl
          | (refine fun (c : State.Canonical _) => ?_; repeat' first | exact c.regs | exact c.cfgB | exact c.cfgA | exact ⟨c.profSets, c.baseSet⟩ | (apply swf_splice; exact Nat.le_add_right _ _)))
      | (show sub _ _ = true; rfl) | (show List.contains _ _ = true; rfl) | dsimp only | split | (with_reducible apply ev_ldr)

theorem tell_ev (hF : sub [.regs, .ldr, .queues, .readPorts, .svcStats, .jnl] H = true) (h : Evolves H s0 s) (e : Entry) :
    Evolves H s0 (tell e s) := by
  refine ev_mono hF h ?_
  unfold tell
  repeat' first
      | (with_reducible first
          | exact ev_refl _ _ | assumption | apply inc_ev | apply report_ev | refine ev_ite ?_ ?_
          | refine ev_fst (by assumption) ?_ | refine ev_snd (by assumption) ?_)
      | (with_reducible first
          | exact Nat.le_add_right _ _ | exact le_rfl
          | (refine fun (c : State.Canonical _) => ?_; repeat' first | exact c.regs | exact c.cfgB | exact c.cfgA | exact ⟨c.profSets, c.baseSet⟩ | (apply swf_splice; exact Nat.le_add_right _ _)))
      | (show sub _ _ = true; rfl) | (show List.contains _ _ = true; rfl) | dsimp only | split | (with_reducible apply ev_ldr)

theorem reportOwn_ev (hF : sub [.regs, .ldr, .queues, .readPorts, .svcStats, .jnl] H = true) (h : Evolves H s0 s) (e : Entry) :
    Evolves H s0 (reportOwn e s) := by
  refine ev_mono hF h ?_
  unfold reportOwn
  repeat' first
      | (with_reducible first
          | exact ev_refl _ _ | assumption | apply reportAs_ev | refine ev_ite ?_ ?_ | refine ev_fst (by assumption) ?_
          | refine ev_snd (by assumption) ?_)
      | (with_reducible first
          | exact Nat.le_add_right _ _ | exact le_rfl
          | (refine fun (c : State.Canonical _) => ?_; repeat' first | exact c.regs | exact c.cfgB | exact c.cfgA | exact ⟨c.profSets, c.baseSet⟩ | (apply swf_splice; exact Nat.le_add_right _ _)))
      | (show sub _ _ = true; rfl) | (show List.contains _ _ = true; rfl) | dsimp only | split | (with_reducible apply ev_ldr)

theorem clearCounts_ev (hF : sub [.regs, .ldr] H = true) (h : Evolves H s0 s)  : Evolves H s0 (clearCounts s) := by
  refine ev_mono hF h ?_
  unfold clearCounts
  repeat' first
      | (with_reducible first
          | exact ev_refl _ _ | assumption | apply wr_ev | refine ev_ite ?_ ?_ | refine ev_fst (by assumption) ?_
          | refine ev_snd (by assumption) ?_)
      | (with_reducible first
          | exact Nat.le_add_right _ _ | exact le_rfl
          | (refine fun (c : State.Canonical _) => ?_; repeat' first | exact c.regs | exact c.cfgB | exact c.cfgA | exact ⟨c.profSets, c.baseSet⟩ | (apply swf_splice; exact Nat.le_add_right _ _)))
      | (show sub _ _ = true; rfl) | (show List.contains _ _ = true; rfl) | dsimp only | split | (with_reducible apply ev_ldr)

theorem beginReport_ev (hF : sub [.regs, .ldr] H = true) (h : Evolves H s0 s) (n : Nat) : Evolves H s0 (beginReport n s) := by
  refine ev_mono hF h ?_
  unfold beginReport
  repeat' first
      | (with_reducible first
          | exact ev_refl _ _ | assumption | apply incWrap_ev | apply clearCounts_ev | refine ev_ite ?_ ?_
          | refine ev_fst (by assumption) ?_ | refine ev_snd (by assumption) ?_)
      | (with_reducible first
          | exact Nat.le_add_right _ _ | exact le_rfl
          | (refine fun (c : State.Canonical _) => ?_; repeat' first | exact c.regs | exact c.cfgB | exact c.cfgA | exact ⟨c.profSets, c.baseSet⟩ | (apply swf_splice; exact Nat.le_add_right _ _)))
      | (show sub _ _ = true; rfl) | (show List.contains _ _ = true; rfl) | dsimp only | split | (with_reducible apply ev_ldr)

theorem endReport_ev (hF : sub [.regs, .jnl] H = true) (h : Evolves H s0 s)  : Evolves H s0 (endReport s) := by
  refine ev_mono hF h ?_
  unfold endReport
  repeat' first
      | (with_reducible first
          | exact ev_refl _ _ | assumption | apply wr_ev | apply journalEntry_ev | refine ev_ite ?_ ?_
          | refine ev_fst (by assumption) ?_ | refine ev_snd (by assumption) ?_)
      | (show sub _ _ = true; rfl) | (show List.contains _ _ = true; rfl)

theorem putF_ev (hF : sub [.cfgB] H = true) (h : Evolves H s0 s) (r : RF) (v : Nat) : Evolves H s0 (putF r v s) := by
  refine ev_mono hF h ?_
  unfold putF
  repeat' first
      | (with_reducible first
          | exact ev_refl _ _ | assumption | refine ev_ite ?_ ?_ | refine ev_fst (by assumption) ?_
          | refine ev_snd (by assumption) ?_)
      | (with_reducible first
          | exact Nat.le_add_right _ _ | exact le_rfl
          | (refine fun (c : State.Canonical _) => ?_; repeat' first | exact c.cfgB | exact c.cfgA | exact ⟨c.profSets, c.baseSet⟩ | exact ⟨profSets_sset c.profSets _ c.cfgB, c.baseSet⟩ | exact ⟨c.profSets, c.cfgB⟩ | exact ⟨List.forall_mem_nil _, rfl⟩ | exact swf_nil _ | exact swf_freshBank_of rfl | exact swf_profSet c _ | exact swf_setOfProfile c _ | exact swf_bankOf c _ | apply swf_foldl_sset | apply swf_sset | apply swf_bankSet))
      | (show sub _ _ = true) | (show List.contains _ _ = true; rfl) | dsimp only | split | (with_reducible apply ev_cfgB)

theorem clampF_ev (hF : sub [.regs, .cfgB, .ldr, .queues, .readPorts, .svcStats, .jnl] H = true) (h : Evolves H s0 s) (stage :
    Nat) (profile : Nat) (cause : Nat) (r : RF) (v : Nat) : Evolves H s0 (clampF stage profile cause r v s) := by
  refine ev_mono hF h ?_
  unfold clampF
  repeat' first
      | (with_reducible first
          | exact ev_refl _ _ | assumption | apply tell_ev | apply putF_ev | refine ev_ite ?_ ?_
          | refine ev_fst (by assumption) ?_ | refine ev_snd (by assumption) ?_)
      | (show sub _ _ = true; rfl) | (show List.contains _ _ = true; rfl)

theorem disableCtx_ev (hF : sub [.regs, .cfgB, .ldr, .queues, .readPorts, .svcStats, .jnl] H = true) (h : Evolves H s0 s) (stage
    : Nat) (profile : Nat) (cause : Nat) (c : Nat) : Evolves H s0 (disableCtx stage profile cause c s) := by
  refine ev_mono hF h ?_
  unfold disableCtx
  repeat' first
      | (with_reducible first
          | exact ev_refl _ _ | assumption | apply tell_ev | apply putF_ev | refine ev_ite ?_ ?_
          | refine ev_fst (by assumption) ?_ | refine ev_snd (by assumption) ?_)
      | (show sub _ _ = true; rfl) | (show List.contains _ _ = true; rfl)

end Sys2Proof.Machine
end

