-- ==== Sys2Proof/Laws/EvRecords.lean ====
section
/-! SUPPORT. What each function of Machine/Records.lean changes: one lemma per function, its footprint first. -/

namespace Sys2Proof.Machine
open Sys2Proof

set_option linter.unusedTactic false
set_option linter.unreachableTactic false
set_option linter.unusedVariables false

variable {H : List StateField} {s0 s sNext : State}

theorem tableWrite_ev (hF : sub [.ram] H = true) (h : Evolves H s0 s) (a : Nat) (bs : List Nat) : Evolves H s0 (tableWrite a bs
    s) := by
  refine ev_mono hF h ?_
  unfold tableWrite
  repeat' first
      | (with_reducible first
          | exact ev_refl _ _ | assumption | refine ev_ite ?_ ?_ | (refine ev_foldl ?_ ?_; rotate_left; intro _ _ _)
          | refine ev_fst (by assumption) ?_ | refine ev_snd (by assumption) ?_)
      | (with_reducible first
          | exact Nat.le_add_right _ _ | exact le_rfl
          | (refine fun (c : State.Canonical _) => ?_; repeat' first | exact c.cfgB | exact c.cfgA | exact c.ram | exact ⟨c.profSets, c.baseSet⟩ | exact ⟨profSets_sset c.profSets _ c.cfgB, c.baseSet⟩ | exact ⟨c.profSets, c.cfgB⟩ | exact ⟨List.forall_mem_nil _, rfl⟩ | exact swf_nil _ | exact swf_freshBank_of rfl | exact swf_profSet c _ | exact swf_setOfProfile c _ | exact swf_bankOf c _ | apply swf_foldl_sset | apply swf_sset | apply swf_bankSet | apply swf_memWrite))
      | (show sub _ _ = true) | (show List.contains _ _ = true; rfl) | dsimp only | split | (with_reducible apply ev_ram)

theorem dropRec_ev (hF : sub [.regs, .ldr, .queues, .readPorts, .svcStats, .jnl] H = true) (h : Evolves H s0 s) (x : Src) (addr
    : Nat) (cause : Nat) (req : Nat) : Evolves H s0 (dropRec x addr cause req s) := by
  refine ev_mono hF h ?_
  unfold dropRec
  repeat' first
      | (with_reducible first
          | exact ev_refl _ _ | assumption | apply tell_ev | refine ev_ite ?_ ?_ | refine ev_fst (by assumption) ?_
          | refine ev_snd (by assumption) ?_)
      | (show sub _ _ = true; rfl) | (show List.contains _ _ = true; rfl)

theorem clampRec_ev (hF : sub [.regs, .ldr, .queues, .readPorts, .svcStats, .jnl] H = true) (h : Evolves H s0 s) (x : Src) (addr
    : Nat) (lsb : Nat) (width : Nat) (cause : Nat) (req : Nat) (applied : Nat) : Evolves H s0 (clampRec x addr lsb width cause
    req applied s) := by
  refine ev_mono hF h ?_
  unfold clampRec
  repeat' first
      | (with_reducible first
          | exact ev_refl _ _ | assumption | apply tell_ev | refine ev_ite ?_ ?_ | refine ev_fst (by assumption) ?_
          | refine ev_snd (by assumption) ?_)
      | (show sub _ _ = true; rfl) | (show List.contains _ _ = true; rfl)

theorem markLive_ev (hF : sub [.ldr] H = true) (h : Evolves H s0 s) (x : Src) (a : Nat) (mask : Nat) : Evolves H s0 (markLive x
    a mask s) := by
  refine ev_mono hF h ?_
  unfold markLive
  repeat' first
      | (with_reducible first
          | exact ev_refl _ _ | assumption | refine ev_ite ?_ ?_ | refine ev_fst (by assumption) ?_
          | refine ev_snd (by assumption) ?_)
      | (with_reducible first
          | exact Nat.le_add_right _ _ | exact le_rfl
          | (refine fun (c : State.Canonical _) => ?_; repeat' first | exact c.cfgB | exact c.cfgA | exact ⟨c.profSets, c.baseSet⟩ | (apply swf_splice; exact Nat.le_add_right _ _)))
      | (show sub _ _ = true) | (show List.contains _ _ = true; rfl) | dsimp only | split | (with_reducible apply ev_ldr)

theorem markOrigin_ev (hF : sub [.ldr] H = true) (h : Evolves H s0 s) (x : Src) (a : Nat) : Evolves H s0 (markOrigin x a s) :=
    by
  refine ev_mono hF h ?_
  unfold markOrigin
  repeat' first
      | (with_reducible first
          | exact ev_refl _ _ | assumption | refine ev_ite ?_ ?_ | refine ev_fst (by assumption) ?_
          | refine ev_snd (by assumption) ?_)
      | (with_reducible first
          | exact Nat.le_add_right _ _ | exact le_rfl
          | (refine fun (c : State.Canonical _) => ?_; repeat' first | exact c.cfgB | exact c.cfgA | exact ⟨c.profSets, c.baseSet⟩ | (apply swf_splice; exact Nat.le_add_right _ _)))
      | (show sub _ _ = true) | (show List.contains _ _ = true; rfl) | dsimp only | split | (with_reducible apply ev_ldr)

theorem stateFields_ev (hF : sub [.regs, .ldr, .queues, .readPorts, .svcStats, .jnl] H = true) (h : Evolves H s0 s) (x : Src) (a
    : Nat) (v : Nat) : Evolves H s0 (stateFields x a v s) := by
  refine ev_mono hF h ?_
  unfold stateFields
  repeat' first
      | (with_reducible first
          | exact ev_refl _ _ | assumption | apply clampRec_ev | refine ev_ite ?_ ?_
          | (refine ev_foldl ?_ ?_; rotate_left; intro _ _ _) | refine ev_fst (by assumption) ?_
          | refine ev_snd (by assumption) ?_)
      | (show sub _ _ = true; rfl) | (show List.contains _ _ = true; rfl)

theorem writeRecWord_ev (hF : sub [.regs, .cfgB, .liveB, .ldr, .queues, .readPorts, .svcStats, .jnl] H = true) (h : Evolves H s0
    s) (x : Src) (req : Nat) (a : Nat) (v : Nat) (mask : Nat) : Evolves H s0 (writeRecWord x req a v mask s) := by
  refine ev_mono hF h ?_
  unfold writeRecWord
  repeat' first
      | (with_reducible first
          | exact ev_refl _ _ | assumption | apply bastingWrite_ev | apply dropRec_ev | apply clampRec_ev | apply markLive_ev
          | apply markOrigin_ev | apply stateFields_ev | refine ev_ite ?_ ?_ | (refine ev_foldl ?_ ?_; rotate_left; intro _ _ _)
          | refine ev_fst (by assumption) ?_ | refine ev_snd (by assumption) ?_)
      | (show sub _ _ = true; rfl) | (show List.contains _ _ = true) | dsimp only | split

theorem runWords_ev (hF : sub [.regs, .cfgB, .liveB, .ldr, .queues, .readPorts, .svcStats, .jnl] H = true) (h : Evolves H s0 s)
    (x : Src) (a : Nat) (x2 : List Nat) : Evolves H s0 (runWords x a x2 s) := by
  refine ev_mono hF h ?_
  clear h hF
  suffices key : ∀ s0 : State, Evolves [.regs, .cfgB, .liveB, .ldr, .queues, .readPorts, .svcStats, .jnl] s0 s → Evolves [.regs,
      .cfgB, .liveB, .ldr, .queues, .readPorts, .svcStats, .jnl] s0 (runWords x a x2 s) from key s (ev_refl _ s)
  fun_induction runWords x a x2 s <;> intro s0 h <;> repeat' first
      | (with_reducible first
          | exact ev_refl _ _ | assumption | apply_assumption -exfalso -symm | apply writeRecWord_ev
          | (refine ev_foldl ?_ ?_; rotate_left; intro _ _ _) | (refine ev_foldl_fst ?_ ?_; rotate_left; intro _ _ _ _)
          | (refine ev_foldl_snd ?_ ?_; rotate_left; intro _ _ _ _))
      | (show sub _ _ = true; rfl) | (show List.contains _ _ = true; rfl)

theorem ctxEntries_ev (hF : sub [.regs, .cfgB, .liveB, .ldr, .queues, .readPorts, .svcStats, .jnl] H = true) (h : Evolves H s0
    s) (sec : Nat) (x1 : Nat) (x2 : Nat) (x3 : List Nat) : Evolves H s0 (ctxEntries sec x1 x2 x3 s) := by
  refine ev_mono hF h ?_
  clear h hF
  suffices key : ∀ s0 : State, Evolves [.regs, .cfgB, .liveB, .ldr, .queues, .readPorts, .svcStats, .jnl] s0 s → Evolves [.regs,
      .cfgB, .liveB, .ldr, .queues, .readPorts, .svcStats, .jnl] s0 (ctxEntries sec x1 x2 x3 s) from key s (ev_refl _ s)
  fun_induction ctxEntries sec x1 x2 x3 s <;> intro s0 h <;> repeat' first
      | (with_reducible first
          | exact ev_refl _ _ | assumption | apply_assumption -exfalso -symm | apply dropRec_ev | apply runWords_ev
          | refine ev_ite ?_ ?_ | (refine ev_foldl ?_ ?_; rotate_left; intro _ _ _)
          | (refine ev_foldl_fst ?_ ?_; rotate_left; intro _ _ _ _) | (refine ev_foldl_snd ?_ ?_; rotate_left; intro _ _ _ _))
      | (show sub _ _ = true; rfl) | (show List.contains _ _ = true; rfl)

theorem recField_ev (hF : sub [.regs, .ldr, .queues, .readPorts, .svcStats, .jnl] H = true) (h : Evolves H s0 s) (x : Src) (addr
    : Nat) (lsb : Nat) (width : Nat) (r : Rng) (v : Nat) : Evolves H s0 (recField x addr lsb width r v s).1 := by
  refine ev_mono hF h ?_
  unfold recField
  repeat' first
      | (with_reducible first
          | exact ev_refl _ _ | assumption | apply clampRec_ev | refine ev_ite ?_ ?_ | refine ev_fst (by assumption) ?_
          | refine ev_snd (by assumption) ?_)
      | (show sub _ _ = true; rfl) | (show List.contains _ _ = true; rfl)

theorem regRecords_ev (hF : sub [.regs, .cfgB, .liveB, .ldr, .queues, .readPorts, .svcStats, .jnl] H = true) (h : Evolves H s0
    s) (sec : Nat) (profile : Nat) (x2 : Nat) (x3 : Nat) (x4 : List Nat) : Evolves H s0 (regRecords sec profile x2 x3 x4 s).1 :=
    by
  refine ev_mono hF h ?_
  clear h hF
  suffices key : ∀ s0 : State, Evolves [.regs, .cfgB, .liveB, .ldr, .queues, .readPorts, .svcStats, .jnl] s0 s → Evolves [.regs,
      .cfgB, .liveB, .ldr, .queues, .readPorts, .svcStats, .jnl] s0 (regRecords sec profile x2 x3 x4 s).1 from key s (ev_refl _
      s)
  fun_induction regRecords sec profile x2 x3 x4 s <;> intro s0 h <;> repeat' first
      | (with_reducible first
          | exact ev_refl _ _ | assumption | apply_assumption -exfalso -symm | apply dropRec_ev | apply writeRecWord_ev
          | apply runWords_ev | refine ev_ite ?_ ?_ | (refine ev_foldl ?_ ?_; rotate_left; intro _ _ _)
          | (refine ev_foldl_fst ?_ ?_; rotate_left; intro _ _ _ _) | (refine ev_foldl_snd ?_ ?_; rotate_left; intro _ _ _ _))
      | (show sub _ _ = true; rfl) | (show List.contains _ _ = true; rfl)

theorem loadProfile_ev (hF : sub [.regs, .cfgB, .liveB, .ldr, .queues, .readPorts, .svcStats, .jnl] H = true) (h : Evolves H s0
    s) (x : Src)
    (bs deltas : List Nat) (n : Nat) : Evolves H s0 (loadProfile x bs deltas n s).1 := by
  refine ev_mono hF h ?_
  unfold loadProfile
  refine ev_restore rfl rfl rfl (s1 := (recField _ _ _ _ _ _ _).1) ?_ ?_ (fun c => ⟨profSets_sset c.profSets _ c.cfgB,
      c.baseSet⟩) <;>
  repeat' first
      | (with_reducible first
          | exact ev_refl _ _ | apply recField_ev | apply regRecords_ev | apply tell_ev | refine ev_ite ?_ ?_)
      | (show sub _ _ = true; rfl) | dsimp only

theorem profileEntries_ev (hF : sub [.regs, .cfgB, .liveB, .ldr, .queues, .readPorts, .svcStats, .jnl] H = true) (h : Evolves H
    s0 s) (sec : Nat) (x1 : Nat) (x2 : Nat) (x3 : Nat) (x4 : List Nat) : Evolves H s0 (profileEntries sec x1 x2 x3 x4 s) := by
  refine ev_mono hF h ?_
  clear h hF
  suffices key : ∀ s0 : State, Evolves [.regs, .cfgB, .liveB, .ldr, .queues, .readPorts, .svcStats, .jnl] s0 s → Evolves [.regs,
      .cfgB, .liveB, .ldr, .queues, .readPorts, .svcStats, .jnl] s0 (profileEntries sec x1 x2 x3 x4 s) from key s (ev_refl _ s)
  fun_induction profileEntries sec x1 x2 x3 x4 s <;> intro s0 h <;> repeat' first
      | (with_reducible first
          | exact ev_refl _ _ | assumption | apply_assumption -exfalso -symm | apply dropRec_ev | apply loadProfile_ev
          | refine ev_ite ?_ ?_ | refine ev_fst (by assumption) ?_ | refine ev_snd (by assumption) ?_)
      | (show sub _ _ = true) | (show List.contains _ _ = true) | dsimp only | split | dsimp +zetaDelta only

theorem loadRoute_ev (hF : sub [.regs, .cfgB, .liveB, .ldr, .queues, .readPorts, .svcStats, .jnl] H = true) (h : Evolves H s0 s)
    (x : Src) (bs : List Nat) : Evolves H s0 (loadRoute x bs s) := by
  refine ev_mono hF h ?_
  unfold loadRoute
  repeat' first
      | (with_reducible first
          | exact ev_refl _ _ | assumption | apply dropRec_ev | apply runWords_ev | apply recField_ev | refine ev_ite ?_ ?_
          | refine ev_fst (by assumption) ?_ | refine ev_snd (by assumption) ?_)
      | (show sub _ _ = true; rfl) | (show List.contains _ _ = true; rfl)

theorem routeRecords_ev (hF : sub [.regs, .cfgB, .liveB, .ldr, .queues, .readPorts, .svcStats, .jnl] H = true) (h : Evolves H s0
    s) (sec : Nat) (x1 : Nat) (x2 : Nat) (x3 : List Nat) : Evolves H s0 (routeRecords sec x1 x2 x3 s) := by
  refine ev_mono hF h ?_
  clear h hF
  suffices key : ∀ s0 : State, Evolves [.regs, .cfgB, .liveB, .ldr, .queues, .readPorts, .svcStats, .jnl] s0 s → Evolves [.regs,
      .cfgB, .liveB, .ldr, .queues, .readPorts, .svcStats, .jnl] s0 (routeRecords sec x1 x2 x3 s) from key s (ev_refl _ s)
  fun_induction routeRecords sec x1 x2 x3 s <;> intro s0 h <;> repeat' first
      | (with_reducible first
          | exact ev_refl _ _ | assumption | apply_assumption -exfalso -symm | apply dropRec_ev | apply loadRoute_ev
          | (refine ev_foldl ?_ ?_; rotate_left; intro _ _ _) | (refine ev_foldl_fst ?_ ?_; rotate_left; intro _ _ _ _)
          | (refine ev_foldl_snd ?_ ?_; rotate_left; intro _ _ _ _))
      | (show sub _ _ = true; rfl) | (show List.contains _ _ = true; rfl)

theorem loadScript_ev (hF : sub [.regs, .ldr, .queues, .readPorts, .svcStats, .jnl] H = true) (h : Evolves H s0 s) (x : Src) (w
    : Nat) (bs : List Nat) : Evolves H s0 (loadScript x w bs s) := by
  refine ev_mono hF h ?_
  unfold loadScript
  repeat' first
      | (with_reducible first
          | exact ev_refl _ _ | assumption | apply dropRec_ev | apply clampRec_ev | apply recField_ev | refine ev_ite ?_ ?_
          | refine ev_fst (by assumption) ?_ | refine ev_snd (by assumption) ?_)
      | (with_reducible first
          | exact Nat.le_add_right _ _ | exact le_rfl
          | (refine fun (c : State.Canonical _) => ?_; repeat' first | exact c.regs | exact c.cfgB | exact c.cfgA | exact ⟨c.profSets, c.baseSet⟩ | (apply swf_splice; exact Nat.le_add_right _ _)))
      | (show sub _ _ = true; rfl) | (show List.contains _ _ = true; rfl) | dsimp only | split | (with_reducible apply ev_ldr)

theorem scriptRecords_ev (hF : sub [.regs, .ldr, .queues, .readPorts, .svcStats, .jnl] H = true) (h : Evolves H s0 s) (sec :
    Nat) (x1 : Nat) (x2 : Nat) (x3 : List Nat) : Evolves H s0 (scriptRecords sec x1 x2 x3 s) := by
  refine ev_mono hF h ?_
  clear h hF
  suffices key : ∀ s0 : State, Evolves [.regs, .ldr, .queues, .readPorts, .svcStats, .jnl] s0 s → Evolves [.regs, .ldr, .queues,
      .readPorts, .svcStats, .jnl] s0 (scriptRecords sec x1 x2 x3 s) from key s (ev_refl _ s)
  fun_induction scriptRecords sec x1 x2 x3 s <;> intro s0 h <;> repeat' first
      | (with_reducible first
          | exact ev_refl _ _ | assumption | apply_assumption -exfalso -symm | apply dropRec_ev | apply loadScript_ev
          | (refine ev_foldl ?_ ?_; rotate_left; intro _ _ _) | (refine ev_foldl_fst ?_ ?_; rotate_left; intro _ _ _ _)
          | (refine ev_foldl_snd ?_ ?_; rotate_left; intro _ _ _ _))
      | (show sub _ _ = true; rfl) | (show List.contains _ _ = true; rfl)

theorem serviceFields_ev (hF : sub [.regs, .ldr, .queues, .readPorts, .svcStats, .jnl] H = true) (h : Evolves H s0 s) (x : Src)
    (x1 : List (Nat × Nat × Rng)) (x2 : List Nat) : Evolves H s0 (serviceFields x x1 x2 s).1 := by
  refine ev_mono hF h ?_
  clear h hF
  suffices key : ∀ s0 : State, Evolves [.regs, .ldr, .queues, .readPorts, .svcStats, .jnl] s0 s → Evolves [.regs, .ldr, .queues,
      .readPorts, .svcStats, .jnl] s0 (serviceFields x x1 x2 s).1 from key s (ev_refl _ s)
  fun_induction serviceFields x x1 x2 s <;> intro s0 h <;> repeat' first
      | (with_reducible first
          | exact ev_refl _ _ | assumption | apply_assumption -exfalso -symm | apply recField_ev
          | (refine ev_foldl ?_ ?_; rotate_left; intro _ _ _) | (refine ev_foldl_fst ?_ ?_; rotate_left; intro _ _ _ _)
          | (refine ev_foldl_snd ?_ ?_; rotate_left; intro _ _ _ _))
      | (show sub _ _ = true; rfl) | (show List.contains _ _ = true; rfl)

theorem loadService_ev (hF : sub [.regs, .ldr, .queues, .readPorts, .svcStats, .jnl] H = true) (h : Evolves H s0 s) (x : Src)
    (key : Nat) (v : List Nat) (w : Nat) : Evolves H s0 (loadService x key v w s) := by
  refine ev_mono hF h ?_
  unfold loadService
  repeat' first
      | (with_reducible first
          | exact ev_refl _ _ | assumption | apply dropRec_ev | apply serviceFields_ev | refine ev_ite ?_ ?_
          | refine ev_fst (by assumption) ?_ | refine ev_snd (by assumption) ?_)
      | (with_reducible first
          | exact Nat.le_add_right _ _ | exact le_rfl
          | (refine fun (c : State.Canonical _) => ?_; repeat' first | exact c.regs | exact c.cfgB | exact c.cfgA | exact ⟨c.profSets, c.baseSet⟩ | (apply swf_splice; exact Nat.le_add_right _ _)))
      | (show sub _ _ = true; rfl) | (show List.contains _ _ = true; rfl) | dsimp only | split | (with_reducible apply ev_ldr)

theorem serviceRecords_ev (hF : sub [.regs, .ldr, .queues, .readPorts, .svcStats, .jnl] H = true) (h : Evolves H s0 s) (sec :
    Nat) (x1 : Nat) (x2 : Nat) (x3 : List Nat) : Evolves H s0 (serviceRecords sec x1 x2 x3 s) := by
  refine ev_mono hF h ?_
  clear h hF
  suffices key : ∀ s0 : State, Evolves [.regs, .ldr, .queues, .readPorts, .svcStats, .jnl] s0 s → Evolves [.regs, .ldr, .queues,
      .readPorts, .svcStats, .jnl] s0 (serviceRecords sec x1 x2 x3 s) from key s (ev_refl _ s)
  fun_induction serviceRecords sec x1 x2 x3 s <;> intro s0 h <;> repeat' first
      | (with_reducible first
          | exact ev_refl _ _ | assumption | apply_assumption -exfalso -symm | apply dropRec_ev | apply loadService_ev
          | (refine ev_foldl ?_ ?_; rotate_left; intro _ _ _) | (refine ev_foldl_fst ?_ ?_; rotate_left; intro _ _ _ _)
          | (refine ev_foldl_snd ?_ ?_; rotate_left; intro _ _ _ _))
      | (show sub _ _ = true; rfl) | (show List.contains _ _ = true; rfl)

theorem tableBlobs_ev (hF : sub [.regs, .ldr, .queues, .readPorts, .svcStats, .jnl, .ram] H = true) (h : Evolves H s0 s) (sec :
    Nat) (x1 : Nat) (x2 : Nat) (x3 : List Nat) : Evolves H s0 (tableBlobs sec x1 x2 x3 s) := by
  refine ev_mono hF h ?_
  clear h hF
  suffices key : ∀ s0 : State, Evolves [.regs, .ldr, .queues, .readPorts, .svcStats, .jnl, .ram] s0 s → Evolves [.regs, .ldr,
      .queues, .readPorts, .svcStats, .jnl, .ram] s0 (tableBlobs sec x1 x2 x3 s) from key s (ev_refl _ s)
  fun_induction tableBlobs sec x1 x2 x3 s <;> intro s0 h <;> repeat' first
      | (with_reducible first
          | exact ev_refl _ _ | assumption | apply_assumption -exfalso -symm | apply tell_ev | apply tableWrite_ev
          | apply dropRec_ev | refine ev_ite ?_ ?_ | refine ev_fst (by assumption) ?_ | refine ev_snd (by assumption) ?_)
      | (with_reducible first
          | exact Nat.le_add_right _ _ | exact le_rfl
          | (refine fun (c : State.Canonical _) => ?_; repeat' first | exact c.regs | exact c.cfgB | exact c.cfgA | exact c.ram | exact ⟨c.profSets, c.baseSet⟩ | (apply swf_splice; exact Nat.le_add_right _ _)))
      | (show sub _ _ = true) | (show List.contains _ _ = true) | dsimp only | split | dsimp +zetaDelta only
      | (with_reducible apply ev_ldr)

theorem loadWindow_ev (hF : sub [.regs, .cfgB, .liveB, .ldr, .queues, .readPorts, .svcStats, .jnl] H = true) (h : Evolves H s0
    s) (x : Src) (bs : List Nat) : Evolves H s0 (loadWindow x bs s) := by
  refine ev_mono hF h ?_
  unfold loadWindow
  repeat' first
      | (with_reducible first
          | exact ev_refl _ _ | assumption | apply dropRec_ev | apply runWords_ev | refine ev_ite ?_ ?_
          | refine ev_fst (by assumption) ?_ | refine ev_snd (by assumption) ?_)
      | (with_reducible first
          | exact Nat.le_add_right _ _ | exact le_rfl
          | (refine fun (c : State.Canonical _) => ?_; repeat' first | exact c.regs | exact c.cfgB | exact c.cfgA | exact c.liveB | exact ⟨c.profSets, c.baseSet⟩ | (apply swf_splice; exact Nat.le_add_right _ _)))
      | (show sub _ _ = true; rfl) | (show List.contains _ _ = true; rfl) | dsimp only | split | (with_reducible apply ev_ldr)

theorem windowRecords_ev (hF : sub [.regs, .cfgB, .liveB, .ldr, .queues, .readPorts, .svcStats, .jnl] H = true) (h : Evolves H
    s0 s) (sec : Nat) (x1 : Nat) (x2 : Nat) (x3 : List Nat) : Evolves H s0 (windowRecords sec x1 x2 x3 s) := by
  refine ev_mono hF h ?_
  clear h hF
  suffices key : ∀ s0 : State, Evolves [.regs, .cfgB, .liveB, .ldr, .queues, .readPorts, .svcStats, .jnl] s0 s → Evolves [.regs,
      .cfgB, .liveB, .ldr, .queues, .readPorts, .svcStats, .jnl] s0 (windowRecords sec x1 x2 x3 s) from key s (ev_refl _ s)
  fun_induction windowRecords sec x1 x2 x3 s <;> intro s0 h <;> repeat' first
      | (with_reducible first
          | exact ev_refl _ _ | assumption | apply_assumption -exfalso -symm | apply dropRec_ev | apply loadWindow_ev
          | (refine ev_foldl ?_ ?_; rotate_left; intro _ _ _) | (refine ev_foldl_fst ?_ ?_; rotate_left; intro _ _ _ _)
          | (refine ev_foldl_snd ?_ ?_; rotate_left; intro _ _ _ _))
      | (show sub _ _ = true; rfl) | (show List.contains _ _ = true; rfl)

theorem sectionRecords_ev (hF : sub [.regs, .cfgB, .liveB, .ldr, .queues, .readPorts, .svcStats, .jnl, .ram] H = true) (h :
    Evolves H s0 s) (x : Section) (bs : List Nat) : Evolves H s0 (sectionRecords x bs s) := by
  refine ev_mono hF h ?_
  unfold sectionRecords
  repeat' first
      | (with_reducible first
          | exact ev_refl _ _ | assumption | apply ctxEntries_ev | apply regRecords_ev | apply profileEntries_ev
          | apply routeRecords_ev | apply scriptRecords_ev | apply serviceRecords_ev | apply tableBlobs_ev
          | apply windowRecords_ev | refine ev_ite ?_ ?_ | refine ev_fst (by assumption) ?_ | refine ev_snd (by assumption) ?_)
      | (show sub _ _ = true; rfl) | (show List.contains _ _ = true; rfl)

theorem sections_ev (hF : sub [.regs, .cfgB, .liveB, .ldr, .queues, .readPorts, .svcStats, .jnl, .ram] H = true) (h : Evolves H
    s0 s) (img : List Nat) (x1 : List Nat) (x2 : List Section) : Evolves H s0 (sections img x1 x2 s) := by
  refine ev_mono hF h ?_
  clear h hF
  suffices key : ∀ s0 : State, Evolves [.regs, .cfgB, .liveB, .ldr, .queues, .readPorts, .svcStats, .jnl, .ram] s0 s → Evolves
      [.regs, .cfgB, .liveB, .ldr, .queues, .readPorts, .svcStats, .jnl, .ram] s0 (sections img x1 x2 s) from key s (ev_refl _
      s)
  fun_induction sections img x1 x2 s <;> intro s0 h <;> repeat' first
      | (with_reducible first
          | exact ev_refl _ _ | assumption | apply_assumption -exfalso -symm | apply dropRec_ev | apply sectionRecords_ev
          | (refine ev_foldl ?_ ?_; rotate_left; intro _ _ _) | (refine ev_foldl_fst ?_ ?_; rotate_left; intro _ _ _ _)
          | (refine ev_foldl_snd ?_ ?_; rotate_left; intro _ _ _ _))
      | (show sub _ _ = true; rfl) | (show List.contains _ _ = true; rfl)

theorem loadRecords_ev (hF : sub [.regs, .cfgB, .liveB, .ldr, .queues, .readPorts, .svcStats, .jnl, .ram] H = true) (h : Evolves
    H s0 s) (img : List Nat) : Evolves H s0 (loadRecords img s) := by
  refine ev_mono hF h ?_
  unfold loadRecords
  repeat' first
      | (with_reducible first
          | exact ev_refl _ _ | assumption | apply sections_ev | refine ev_ite ?_ ?_ | refine ev_fst (by assumption) ?_
          | refine ev_snd (by assumption) ?_)
      | (show sub _ _ = true; rfl) | (show List.contains _ _ = true; rfl)

end Sys2Proof.Machine
end

