-- ==== Sys2Proof/Laws/EvPort.lean ====
section
/-! SUPPORT. What each function of Machine/Port.lean changes: one lemma per function, its footprint first. -/

namespace Sys2Proof.Machine
open Sys2Proof

set_option linter.unusedTactic false
set_option linter.unreachableTactic false
set_option linter.unusedVariables false

variable {H : List StateField} {s0 s sNext : State}

theorem setPin_ev (hF : sub [.out] H = true) (h : Evolves H s0 s) (group : Nat) (number : Nat) (level : Nat) : Evolves H s0
    (setPin group number level s) := by
  refine ev_mono hF h ?_
  unfold setPin
  repeat' first
      | (with_reducible first
          | exact ev_refl _ _ | assumption | apply emit_ev | refine ev_ite ?_ ?_ | refine ev_fst (by assumption) ?_
          | refine ev_snd (by assumption) ?_)
      | (show sub _ _ = true; rfl) | (show List.contains _ _ = true; rfl)

theorem setState_ev (hF : sub [.regs] H = true) (h : Evolves H s0 s) (p : Nat) (st : Nat) : Evolves H s0 (setState p st s) := by
  refine ev_mono hF h ?_
  unfold setState
  repeat' first
      | (with_reducible first
          | exact ev_refl _ _ | assumption | apply wr_ev | refine ev_ite ?_ ?_ | refine ev_fst (by assumption) ?_
          | refine ev_snd (by assumption) ?_)
      | (show sub _ _ = true; rfl) | (show List.contains _ _ = true; rfl)

theorem startScript_ev (hF : sub [.cams] H = true) (h : Evolves H s0 s) (p : Nat) (role : Nat) : Evolves H s0 (startScript p
    role s) := by
  refine ev_mono hF h ?_
  unfold startScript
  repeat' first
      | (with_reducible first
          | exact ev_refl _ _ | assumption | apply setCam_ev | refine ev_ite ?_ ?_ | refine ev_fst (by assumption) ?_
          | refine ev_snd (by assumption) ?_)
      | (show sub _ _ = true; rfl) | (show List.contains _ _ = true) | dsimp only | split

theorem enterBringup_ev (hF : sub [.regs, .cams] H = true) (h : Evolves H s0 s) (p : Nat) : Evolves H s0 (enterBringup p s) :=
    by
  refine ev_mono hF h ?_
  unfold enterBringup
  repeat' first
      | (with_reducible first
          | exact ev_refl _ _ | assumption | apply setState_ev | apply startScript_ev | refine ev_ite ?_ ?_
          | refine ev_fst (by assumption) ?_ | refine ev_snd (by assumption) ?_)
      | (show sub _ _ = true; rfl) | (show List.contains _ _ = true; rfl)

theorem drivePoc_ev (hF : sub [.pins, .out] H = true) (h : Evolves H s0 s) (p : Nat) (on : Bool) : Evolves H s0 (drivePoc p on
    s) := by
  refine ev_mono hF h ?_
  unfold drivePoc
  repeat' first
      | (with_reducible first
          | exact ev_refl _ _ | assumption | apply setPin_ev | refine ev_ite ?_ ?_ | refine ev_fst (by assumption) ?_
          | refine ev_snd (by assumption) ?_)
      | (show sub _ _ = true; rfl) | (show List.contains _ _ = true; rfl) | dsimp only | split | (with_reducible apply ev_pins)

theorem powerInrush_ev (hF : sub [.pins, .regs, .pwrs, .out] H = true) (h : Evolves H s0 s) (p : Nat) : Evolves H s0
    (powerInrush p s) := by
  refine ev_mono hF h ?_
  unfold powerInrush
  repeat' first
      | (with_reducible first
          | exact ev_refl _ _ | assumption | apply wr_ev | apply drivePoc_ev | refine ev_ite ?_ ?_
          | refine ev_fst (by assumption) ?_ | refine ev_snd (by assumption) ?_)
      | (show sub _ _ = true; rfl) | (show List.contains _ _ = true; rfl) | dsimp only | split | (with_reducible apply ev_pwrs)

theorem beginPort_ev (hF : sub [.pins, .regs, .cams, .pwrs, .out] H = true) (h : Evolves H s0 s) (p : Nat) : Evolves H s0
    (beginPort p s) := by
  refine ev_mono hF h ?_
  unfold beginPort
  repeat' first
      | (with_reducible first
          | exact ev_refl _ _ | assumption | apply setState_ev | apply enterBringup_ev | apply powerInrush_ev
          | refine ev_ite ?_ ?_ | refine ev_fst (by assumption) ?_ | refine ev_snd (by assumption) ?_)
      | (show sub _ _ = true; rfl) | (show List.contains _ _ = true; rfl)

theorem bringupOrSearch_ev (hF : sub [.regs, .cams] H = true) (h : Evolves H s0 s) (p : Nat) : Evolves H s0 (bringupOrSearch p
    s) := by
  refine ev_mono hF h ?_
  unfold bringupOrSearch
  repeat' first
      | (with_reducible first
          | exact ev_refl _ _ | assumption | apply setState_ev | apply enterBringup_ev | refine ev_ite ?_ ?_
          | refine ev_fst (by assumption) ?_ | refine ev_snd (by assumption) ?_)
      | (show sub _ _ = true; rfl) | (show List.contains _ _ = true; rfl)

theorem enterRecover_ev (hF : sub [.regs, .cams] H = true) (h : Evolves H s0 s) (p : Nat) : Evolves H s0 (enterRecover p s) :=
    by
  refine ev_mono hF h ?_
  unfold enterRecover
  repeat' first
      | (with_reducible first
          | exact ev_refl _ _ | assumption | apply setState_ev | apply startScript_ev | apply bringupOrSearch_ev
          | refine ev_ite ?_ ?_ | refine ev_fst (by assumption) ?_ | refine ev_snd (by assumption) ?_)
      | (show sub _ _ = true; rfl) | (show List.contains _ _ = true) | dsimp only | split

theorem closeFrame_ev (hF : sub [.regs, .queues, .readPorts, .svcStats, .jnl, .frames] H = true) (h : Evolves H s0 s) (id : Nat)
    (extra : Nat) (cut : Bool) (vc : Option Nat) : Evolves H s0 (closeFrame id extra cut vc s) := by
  refine ev_mono hF h ?_
  unfold closeFrame
  repeat' first
      | (with_reducible first
          | exact ev_refl _ _ | assumption | apply wr_ev | apply inc_ev | apply recordError_ev | apply putFrame_ev
          | apply sweepFrames_ev | refine ev_ite ?_ ?_ | refine ev_fst (by assumption) ?_ | refine ev_snd (by assumption) ?_)
      | (show sub _ _ = true; rfl) | (show List.contains _ _ = true) | dsimp only | split

theorem closeAll_ev (hF : sub [.regs, .queues, .readPorts, .svcStats, .jnl, .frames] H = true) (h : Evolves H s0 s) (p : Nat)
    (extra : Nat) (told : Bool) : Evolves H s0 (closeAll p extra told s) := by
  refine ev_mono hF h ?_
  unfold closeAll
  repeat' first
      | (with_reducible first
          | exact ev_refl _ _ | assumption | apply closeFrame_ev | refine ev_ite ?_ ?_
          | (refine ev_foldl ?_ ?_; rotate_left; intro _ _ _) | refine ev_fst (by assumption) ?_
          | refine ev_snd (by assumption) ?_)
      | (show sub _ _ = true; rfl) | (show List.contains _ _ = true; rfl)

theorem dropScript_ev (hF : sub [.cams] H = true) (h : Evolves H s0 s) (p : Nat) : Evolves H s0 (dropScript p s) := by
  refine ev_mono hF h ?_
  unfold dropScript
  repeat' first
      | (with_reducible first
          | exact ev_refl _ _ | assumption | apply setCam_ev | refine ev_ite ?_ ?_ | refine ev_fst (by assumption) ?_
          | refine ev_snd (by assumption) ?_)
      | (show sub _ _ = true; rfl) | (show List.contains _ _ = true; rfl)

theorem powerOff_ev (hF : sub [.pins, .regs, .out] H = true) (h : Evolves H s0 s) (p : Nat) (keep : Bool) : Evolves H s0
    (powerOff p keep s) := by
  refine ev_mono hF h ?_
  unfold powerOff
  repeat' first
      | (with_reducible first
          | exact ev_refl _ _ | assumption | apply wr_ev | apply drivePoc_ev | refine ev_ite ?_ ?_
          | refine ev_fst (by assumption) ?_ | refine ev_snd (by assumption) ?_)
      | (show sub _ _ = true; rfl) | (show List.contains _ _ = true; rfl)

theorem enterOff_ev (hF : sub [.pins, .regs, .cams, .out] H = true) (h : Evolves H s0 s) (p : Nat) : Evolves H s0 (enterOff p s)
    := by
  refine ev_mono hF h ?_
  unfold enterOff
  repeat' first
      | (with_reducible first
          | exact ev_refl _ _ | assumption | apply wr_ev | apply setState_ev | apply setCam_ev | apply powerOff_ev
          | refine ev_ite ?_ ?_ | refine ev_fst (by assumption) ?_ | refine ev_snd (by assumption) ?_)
      | (show sub _ _ = true; rfl) | (show List.contains _ _ = true; rfl)

theorem stopPort_ev (hF : sub [.pins, .regs, .queues, .readPorts, .svcStats, .jnl, .cams, .frames, .out] H = true) (h : Evolves
    H s0 s) (p : Nat) : Evolves H s0 (stopPort p s) := by
  refine ev_mono hF h ?_
  unfold stopPort
  repeat' first
      | (with_reducible first
          | exact ev_refl _ _ | assumption | apply setCam_ev | apply startScript_ev | apply closeAll_ev | apply dropScript_ev
          | apply enterOff_ev | refine ev_ite ?_ ?_ | refine ev_fst (by assumption) ?_ | refine ev_snd (by assumption) ?_)
      | (show sub _ _ = true; rfl) | (show List.contains _ _ = true) | dsimp only | split

theorem parkPort_ev (hF : sub [.pins, .regs, .cams, .out] H = true) (h : Evolves H s0 s) (p : Nat) : Evolves H s0 (parkPort p s)
    := by
  refine ev_mono hF h ?_
  unfold parkPort
  repeat' first
      | (with_reducible first
          | exact ev_refl _ _ | assumption | apply dropScript_ev | apply enterOff_ev | refine ev_ite ?_ ?_
          | refine ev_fst (by assumption) ?_ | refine ev_snd (by assumption) ?_)
      | (show sub _ _ = true; rfl) | (show List.contains _ _ = true; rfl)

theorem driveLine_ev (hF : sub [.pins, .out] H = true) (h : Evolves H s0 s) (p : Nat) (line : Nat) (level : Nat) : Evolves H s0
    (driveLine p line level s) := by
  refine ev_mono hF h ?_
  unfold driveLine
  repeat' first
      | (with_reducible first
          | exact ev_refl _ _ | assumption | apply emit_ev | apply setPin_ev | refine ev_ite ?_ ?_
          | refine ev_fst (by assumption) ?_ | refine ev_snd (by assumption) ?_)
      | (show sub _ _ = true; rfl) | (show List.contains _ _ = true; rfl) | dsimp only | split | (with_reducible apply ev_pins)

theorem assertTrigger_ev (hF : sub [.pins, .cams, .out] H = true) (h : Evolves H s0 s) (p : Nat) : Evolves H s0 (assertTrigger p
    s) := by
  refine ev_mono hF h ?_
  unfold assertTrigger
  repeat' first
      | (with_reducible first
          | exact ev_refl _ _ | assumption | apply setCam_ev | apply driveLine_ev | refine ev_ite ?_ ?_
          | refine ev_fst (by assumption) ?_ | refine ev_snd (by assumption) ?_)
      | (show sub _ _ = true; rfl) | (show List.contains _ _ = true; rfl)

theorem camEvent_ev (hF : sub [.regs, .queues, .readPorts, .svcStats, .jnl] H = true) (h : Evolves H s0 s) (p : Nat) (code :
    Nat) (arg1 : Nat) (arg2 : Nat) (evts : List RF) : Evolves H s0 (camEvent p code arg1 arg2 evts s) := by
  refine ev_mono hF h ?_
  unfold camEvent
  repeat' first
      | (with_reducible first
          | exact ev_refl _ _ | assumption | apply qPutEvt_ev | refine ev_ite ?_ ?_ | refine ev_fst (by assumption) ?_
          | refine ev_snd (by assumption) ?_)
      | (show sub _ _ = true; rfl) | (show List.contains _ _ = true; rfl)

theorem enterFault_ev (hF : sub [.regs, .queues, .readPorts, .svcStats, .jnl] H = true) (h : Evolves H s0 s) (p : Nat) (code :
    Nat) : Evolves H s0 (enterFault p code s) := by
  refine ev_mono hF h ?_
  unfold enterFault
  repeat' first
      | (with_reducible first
          | exact ev_refl _ _ | assumption | apply setState_ev | apply camEvent_ev | refine ev_ite ?_ ?_
          | refine ev_fst (by assumption) ?_ | refine ev_snd (by assumption) ?_)
      | (show sub _ _ = true; rfl) | (show List.contains _ _ = true; rfl)

theorem failAttempt_ev (hF : sub [.regs, .queues, .readPorts, .svcStats, .jnl] H = true) (h : Evolves H s0 s) (p : Nat) (code :
    Nat) : Evolves H s0 (failAttempt p code s) := by
  refine ev_mono hF h ?_
  unfold failAttempt
  repeat' first
      | (with_reducible first
          | exact ev_refl _ _ | assumption | apply wr_ev | apply setState_ev | apply camEvent_ev | apply enterFault_ev
          | refine ev_ite ?_ ?_ | refine ev_fst (by assumption) ?_ | refine ev_snd (by assumption) ?_)
      | (show sub _ _ = true; rfl) | (show List.contains _ _ = true; rfl)

theorem attemptEnded_ev (hF : sub [.regs, .queues, .readPorts, .svcStats, .jnl, .cams] H = true) (h : Evolves H s0 s) (p : Nat)
    (role : Nat) (code : Nat) : Evolves H s0 (attemptEnded p role code s) := by
  refine ev_mono hF h ?_
  unfold attemptEnded
  repeat' first
      | (with_reducible first
          | exact ev_refl _ _ | assumption | apply wr_ev | apply recordError_ev | apply setState_ev | apply bringupOrSearch_ev
          | apply camEvent_ev | apply enterFault_ev | apply failAttempt_ev | refine ev_ite ?_ ?_
          | refine ev_fst (by assumption) ?_ | refine ev_snd (by assumption) ?_)
      | (show sub _ _ = true; rfl) | (show List.contains _ _ = true; rfl)

theorem setTwb_ev (hF : sub [.twbs] H = true) (h : Evolves H s0 s) (i : Nat) (x : TwbSt) : Evolves H s0 (setTwb i x s) := by
  refine ev_mono hF h ?_
  unfold setTwb
  repeat' first
      | (with_reducible first
          | exact ev_refl _ _ | assumption | refine ev_ite ?_ ?_ | refine ev_fst (by assumption) ?_
          | refine ev_snd (by assumption) ?_)
      | (show sub _ _ = true) | (show List.contains _ _ = true; rfl) | dsimp only | split | (with_reducible apply ev_twbs)

theorem queueTxn_ev (hF : sub [.twbs] H = true) (h : Evolves H s0 s) (i : Nat) (t : Txn) : Evolves H s0 (queueTxn i t s) := by
  refine ev_mono hF h ?_
  unfold queueTxn
  repeat' first
      | (with_reducible first
          | exact ev_refl _ _ | assumption | apply setTwb_ev | refine ev_ite ?_ ?_ | refine ev_fst (by assumption) ?_
          | refine ev_snd (by assumption) ?_)
      | (show sub _ _ = true; rfl) | (show List.contains _ _ = true) | dsimp only | split

theorem powerFault_ev (hF : sub [.regs, .queues, .readPorts, .svcStats, .jnl, .cams, .frames] H = true) (h : Evolves H s0 s) (p
    : Nat) : Evolves H s0 (powerFault p s) := by
  refine ev_mono hF h ?_
  unfold powerFault
  repeat' first
      | (with_reducible first
          | exact ev_refl _ _ | assumption | apply wr_ev | apply setState_ev | apply setCam_ev | apply closeAll_ev
          | apply dropScript_ev | refine ev_ite ?_ ?_ | refine ev_fst (by assumption) ?_ | refine ev_snd (by assumption) ?_)
      | (show sub _ _ = true; rfl) | (show List.contains _ _ = true; rfl)

theorem trigErr_ev (hF : sub [.regs, .queues, .readPorts, .svcStats, .jnl] H = true) (h : Evolves H s0 s) (p : Nat) (code : Nat)
    (r : RF) : Evolves H s0 (trigErr p code r s) := by
  refine ev_mono hF h ?_
  unfold trigErr
  repeat' first
      | (with_reducible first
          | exact ev_refl _ _ | assumption | apply inc_ev | apply recordError_ev | refine ev_ite ?_ ?_
          | refine ev_fst (by assumption) ?_ | refine ev_snd (by assumption) ?_)
      | (show sub _ _ = true; rfl) | (show List.contains _ _ = true; rfl)

theorem handTrigger_ev (hF : sub [.pins, .regs, .queues, .readPorts, .svcStats, .jnl, .cams, .out] H = true) (h : Evolves H s0
    s) (p : Nat) (key : Nat) (epoch : Nat) (ctxs : List Nat) (mids : List (Nat × Nat)) : Evolves H s0 (handTrigger p key epoch
    ctxs mids s) := by
  refine ev_mono hF h ?_
  unfold handTrigger
  repeat' first
      | (with_reducible first
          | exact ev_refl _ _ | assumption | apply setCam_ev | apply assertTrigger_ev | apply trigErr_ev | refine ev_ite ?_ ?_
          | refine ev_fst (by assumption) ?_ | refine ev_snd (by assumption) ?_)
      | (show sub _ _ = true; rfl) | (show List.contains _ _ = true) | dsimp only | split

theorem offOrBegin_ev (hF : sub [.pins, .regs, .cams, .pwrs, .out] H = true) (h : Evolves H s0 s) (p : Nat) : Evolves H s0
    (offOrBegin p s) := by
  refine ev_mono hF h ?_
  unfold offOrBegin
  repeat' first
      | (with_reducible first
          | exact ev_refl _ _ | assumption | apply beginPort_ev | apply enterOff_ev | refine ev_ite ?_ ?_
          | refine ev_fst (by assumption) ?_ | refine ev_snd (by assumption) ?_)
      | (show sub _ _ = true; rfl) | (show List.contains _ _ = true; rfl)

theorem supervisionFailed_ev (hF : sub [.regs, .queues, .readPorts, .svcStats, .jnl, .cams, .frames] H = true) (h : Evolves H s0
    s) (p : Nat) (code : Nat) : Evolves H s0 (supervisionFailed p code s) := by
  refine ev_mono hF h ?_
  unfold supervisionFailed
  repeat' first
      | (with_reducible first
          | exact ev_refl _ _ | assumption | apply recordError_ev | apply setState_ev | apply enterRecover_ev
          | apply closeAll_ev | apply camEvent_ev | refine ev_ite ?_ ?_ | refine ev_fst (by assumption) ?_
          | refine ev_snd (by assumption) ?_)
      | (show sub _ _ = true; rfl) | (show List.contains _ _ = true; rfl)

theorem endScript_ev (hF : sub [.pins, .regs, .queues, .readPorts, .svcStats, .jnl, .cams, .frames, .pwrs, .out] H = true) (h :
    Evolves H s0 s) (p : Nat) (code : Nat) : Evolves H s0 (endScript p code s) := by
  refine ev_mono hF h ?_
  unfold endScript
  repeat' first
      | (with_reducible first
          | exact ev_refl _ _ | assumption | apply wr_ev | apply dropScript_ev | apply attemptEnded_ev | apply offOrBegin_ev
          | apply supervisionFailed_ev | refine ev_ite ?_ ?_ | refine ev_fst (by assumption) ?_
          | refine ev_snd (by assumption) ?_)
      | (show sub _ _ = true; rfl) | (show List.contains _ _ = true) | dsimp only | split

theorem linkLoss_ev (hF : sub [.regs, .queues, .readPorts, .svcStats, .jnl, .cams, .frames] H = true) (h : Evolves H s0 s) (p :
    Nat) : Evolves H s0 (linkLoss p s) := by
  refine ev_mono hF h ?_
  unfold linkLoss
  repeat' first
      | (with_reducible first
          | exact ev_refl _ _ | assumption | apply inc_ev | apply recordError_ev | apply setState_ev | apply enterRecover_ev
          | apply closeAll_ev | apply dropScript_ev | apply camEvent_ev | refine ev_ite ?_ ?_ | refine ev_fst (by assumption) ?_
          | refine ev_snd (by assumption) ?_)
      | (show sub _ _ = true; rfl) | (show List.contains _ _ = true; rfl)

end Sys2Proof.Machine
end

