-- ==== Sys2Proof/Laws/EvSched.lean ====
section
/-! SUPPORT. What each function of Machine/Sched.lean changes: one lemma per function, its footprint first. -/

namespace Sys2Proof.Machine
open Sys2Proof

set_option linter.unusedTactic false
set_option linter.unreachableTactic false
set_option linter.unusedVariables false

variable {H : List StateField} {s0 s sNext : State}

theorem notePeak_ev (hF : sub [.regs] H = true) (h : Evolves H s0 s) (l : Nat) : Evolves H s0 (notePeak s l) := by
  refine ev_mono hF h ?_
  unfold notePeak
  repeat' first
      | (with_reducible first
          | exact ev_refl _ _ | assumption | apply wr_ev | refine ev_ite ?_ ?_ | refine ev_fst (by assumption) ?_
          | refine ev_snd (by assumption) ?_)
      | (show sub _ _ = true; rfl) | (show List.contains _ _ = true; rfl)

theorem notePeaks_ev (hF : sub [.regs] H = true) (h : Evolves H s0 s)  : Evolves H s0 (notePeaks s) := by
  refine ev_mono hF h ?_
  unfold notePeaks
  repeat' first
      | (with_reducible first
          | exact ev_refl _ _ | assumption | apply notePeak_ev | refine ev_ite ?_ ?_
          | (refine ev_foldl ?_ ?_; rotate_left; intro _ _ _) | refine ev_fst (by assumption) ?_
          | refine ev_snd (by assumption) ?_)
      | (show sub _ _ = true; rfl) | (show List.contains _ _ = true; rfl)

theorem setGroupBit_ev (hF : sub [.regs] H = true) (h : Evolves H s0 s) (lo : RF) (hi : RF) (c : Nat) : Evolves H s0
    (setGroupBit lo hi c s) := by
  refine ev_mono hF h ?_
  unfold setGroupBit
  repeat' first
      | (with_reducible first
          | exact ev_refl _ _ | assumption | apply wr_ev | refine ev_ite ?_ ?_ | refine ev_fst (by assumption) ?_
          | refine ev_snd (by assumption) ?_)
      | (show sub _ _ = true; rfl) | (show List.contains _ _ = true; rfl)

theorem faultPend_ev (hF : sub [.regs] H = true) (h : Evolves H s0 s) (c : Nat) : Evolves H s0 (faultPend c s) := by
  refine ev_mono hF h ?_
  unfold faultPend
  repeat' first
      | (with_reducible first
          | exact ev_refl _ _ | assumption | apply setGroupBit_ev | refine ev_ite ?_ ?_ | refine ev_fst (by assumption) ?_
          | refine ev_snd (by assumption) ?_)
      | (show sub _ _ = true; rfl) | (show List.contains _ _ = true; rfl)

theorem admitFrame_ev (hF : sub [.regs, .queues, .readPorts, .svcStats, .jnl, .frames, .statCount] H = true) (h : Evolves H s0
    s) (f : FrameSt) : Evolves H s0 (admitFrame f s) := by
  refine ev_mono hF h ?_
  unfold admitFrame
  repeat' first
      | (with_reducible first
          | exact ev_refl _ _ | assumption | apply wr_ev | apply inc_ev | apply recordError_ev | apply notePeak_ev
          | apply putFrame_ev | apply faultPend_ev | refine ev_ite ?_ ?_ | refine ev_fst (by assumption) ?_
          | refine ev_snd (by assumption) ?_)
      | (show sub _ _ = true; rfl) | (show List.contains _ _ = true; rfl) | dsimp only | split
      | (with_reducible apply ev_statCount)

theorem beginHeat_ev (hF : sub [.regs, .frames, .running] H = true) (h : Evolves H s0 s) (l : Nat) (f : FrameSt) : Evolves H s0
    (beginHeat l f s) := by
  refine ev_mono hF h ?_
  unfold beginHeat
  repeat' first
      | (with_reducible first
          | exact ev_refl _ _ | assumption | apply wr_ev | apply putFrame_ev | refine ev_ite ?_ ?_
          | refine ev_fst (by assumption) ?_ | refine ev_snd (by assumption) ?_)
      | (show sub _ _ = true; rfl) | (show List.contains _ _ = true; rfl) | dsimp only | split
      | (with_reducible apply ev_running)

theorem breakSkew_ev (hF : sub [.regs, .queues, .readPorts, .svcStats, .jnl, .frames] H = true) (h : Evolves H s0 s) (f :
    FrameSt) : Evolves H s0 (breakSkew f s) := by
  refine ev_mono hF h ?_
  unfold breakSkew
  repeat' first
      | (with_reducible first
          | exact ev_refl _ _ | assumption | apply inc_ev | apply recordError_ev | apply putFrame_ev | apply faultPend_ev
          | refine ev_ite ?_ ?_ | refine ev_fst (by assumption) ?_ | refine ev_snd (by assumption) ?_)
      | (show sub _ _ = true; rfl) | (show List.contains _ _ = true; rfl)

theorem checkSkew_ev (hF : sub [.regs, .queues, .readPorts, .svcStats, .jnl, .frames] H = true) (h : Evolves H s0 s) (id : Nat)
    : Evolves H s0 (checkSkew id s) := by
  refine ev_mono hF h ?_
  unfold checkSkew
  repeat' first
      | (with_reducible first
          | exact ev_refl _ _ | assumption | apply breakSkew_ev | refine ev_ite ?_ ?_ | refine ev_fst (by assumption) ?_
          | refine ev_snd (by assumption) ?_)
      | (show sub _ _ = true; rfl) | (show List.contains _ _ = true) | dsimp only | split

theorem countOverflow_ev (hF : sub [.regs, .queues, .readPorts, .svcStats, .jnl] H = true) (h : Evolves H s0 s) (f : FrameSt) :
    Evolves H s0 (countOverflow f s) := by
  refine ev_mono hF h ?_
  unfold countOverflow
  repeat' first
      | (with_reducible first
          | exact ev_refl _ _ | assumption | apply inc_ev | apply recordError_ev | apply faultPend_ev | refine ev_ite ?_ ?_
          | refine ev_fst (by assumption) ?_ | refine ev_snd (by assumption) ?_)
      | (show sub _ _ = true; rfl) | (show List.contains _ _ = true; rfl)

theorem markReady_ev (hF : sub [.frames] H = true) (h : Evolves H s0 s)  : Evolves H s0 (markReady s) := by
  refine ev_mono hF h ?_
  unfold markReady
  repeat' first
      | (with_reducible first
          | exact ev_refl _ _ | assumption | refine ev_ite ?_ ?_ | refine ev_fst (by assumption) ?_
          | refine ev_snd (by assumption) ?_)
      | (show sub _ _ = true) | (show List.contains _ _ = true; rfl) | dsimp only | split | (with_reducible apply ev_frames)

theorem startHeat_ev (hF : sub [.regs, .frames, .running] H = true) (h : Evolves H s0 s) (l : Nat) : Evolves H s0 (startHeat s
    l) := by
  refine ev_mono hF h ?_
  unfold startHeat
  repeat' first
      | (with_reducible first
          | exact ev_refl _ _ | assumption | apply beginHeat_ev | refine ev_ite ?_ ?_ | refine ev_fst (by assumption) ?_
          | refine ev_snd (by assumption) ?_)
      | (show sub _ _ = true; rfl) | (show List.contains _ _ = true) | dsimp only | split

theorem kickSlices_ev (hF : sub [.regs, .frames, .running] H = true) (h : Evolves H s0 s)  : Evolves H s0 (kickSlices s) := by
  refine ev_mono hF h ?_
  unfold kickSlices
  repeat' first
      | (with_reducible first
          | exact ev_refl _ _ | assumption | apply markReady_ev | apply startHeat_ev | refine ev_ite ?_ ?_
          | (refine ev_foldl ?_ ?_; rotate_left; intro _ _ _) | refine ev_fst (by assumption) ?_
          | refine ev_snd (by assumption) ?_)
      | (show sub _ _ = true; rfl) | (show List.contains _ _ = true; rfl)

theorem refuseFrame_ev (hF : sub [.regs, .queues, .readPorts, .svcStats, .jnl, .frames] H = true) (h : Evolves H s0 s) (f :
    FrameSt) : Evolves H s0 (refuseFrame f s) := by
  refine ev_mono hF h ?_
  unfold refuseFrame
  repeat' first
      | (with_reducible first
          | exact ev_refl _ _ | assumption | apply wr_ev | apply inc_ev | apply recordError_ev | apply putFrame_ev
          | apply setGroupBit_ev | apply sweepFrames_ev | apply incWrap_ev | refine ev_ite ?_ ?_
          | refine ev_fst (by assumption) ?_ | refine ev_snd (by assumption) ?_)
      | (show sub _ _ = true; rfl) | (show List.contains _ _ = true; rfl)

theorem sweepSyncs_ev (hF : sub [.syncs] H = true) (h : Evolves H s0 s)  : Evolves H s0 (sweepSyncs s) := by
  refine ev_mono hF h ?_
  unfold sweepSyncs
  repeat' first
      | (with_reducible first
          | exact ev_refl _ _ | assumption | refine ev_ite ?_ ?_ | refine ev_fst (by assumption) ?_
          | refine ev_snd (by assumption) ?_)
      | (show sub _ _ = true) | (show List.contains _ _ = true; rfl) | dsimp only | split | (with_reducible apply ev_syncs)

theorem decideGroup_ev (hF : sub [.regs, .queues, .readPorts, .svcStats, .jnl, .frames, .syncs, .statCount] H = true) (h :
    Evolves H s0 s) (f : FrameSt) (g : Nat) (key : Nat) : Evolves H s0 (decideGroup f g key s) := by
  refine ev_mono hF h ?_
  unfold decideGroup
  repeat' first
      | (with_reducible first
          | exact ev_refl _ _ | assumption | apply notePeaks_ev | apply admitFrame_ev | apply refuseFrame_ev
          | apply sweepSyncs_ev | refine ev_ite ?_ ?_ | (refine ev_foldl ?_ ?_; rotate_left; intro _ _ _)
          | refine ev_fst (by assumption) ?_ | refine ev_snd (by assumption) ?_)
      | (show sub _ _ = true; rfl) | (show List.contains _ _ = true; rfl) | dsimp only | split | (with_reducible apply ev_syncs)

theorem doFrameAdmission_ev (hF : sub [.regs, .cfgB, .ldr, .queues, .readPorts, .svcStats, .jnl, .rsv, .frames, .syncs,
    .statCount, .jmem, .freeCount] H = true) (h : Evolves H s0 s) (c : Nat) : Evolves H s0 (doFrameAdmission c s) := by
  refine ev_mono hF h ?_
  unfold doFrameAdmission
  repeat' first
      | (with_reducible first
          | exact ev_refl _ _ | assumption | apply checkSwap_ev | apply admitFrame_ev | apply refuseFrame_ev
          | apply sweepSyncs_ev | apply decideGroup_ev | refine ev_ite ?_ ?_ | refine ev_fst (by assumption) ?_
          | refine ev_snd (by assumption) ?_)
      | (show sub _ _ = true; rfl) | (show List.contains _ _ = true) | dsimp only | split

theorem reportLineBuf_ev (hF : sub [.regs, .queues, .readPorts, .svcStats, .jnl] H = true) (h : Evolves H s0 s) (n : Nat) (f :
    FrameSt) : Evolves H s0 (reportLineBuf n f s) := by
  refine ev_mono hF h ?_
  unfold reportLineBuf
  repeat' first
      | (with_reducible first
          | exact ev_refl _ _ | assumption | apply inc_ev | apply recordError_ev | refine ev_ite ?_ ?_
          | refine ev_fst (by assumption) ?_ | refine ev_snd (by assumption) ?_)
      | (show sub _ _ = true; rfl) | (show List.contains _ _ = true; rfl)

theorem makeLines_ev (hF : sub [.regs, .queues, .readPorts, .svcStats, .jnl] H = true) (h : Evolves H s0 s) (n : Nat) (cur :
    HeatLine) (x2 : Nat) (x3 : FrameSt) : Evolves H s0 (makeLines n cur x2 x3 s).2 := by
  refine ev_mono hF h ?_
  clear h hF
  suffices key : ∀ s0 : State, Evolves [.regs, .queues, .readPorts, .svcStats, .jnl] s0 s → Evolves [.regs, .queues, .readPorts,
      .svcStats, .jnl] s0 (makeLines n cur x2 x3 s).2 from key s (ev_refl _ s)
  fun_induction makeLines n cur x2 x3 s <;> intro s0 h <;> repeat' first
      | (with_reducible first
          | exact ev_refl _ _ | assumption | apply_assumption -exfalso -symm | apply reportLineBuf_ev | refine ev_ite ?_ ?_
          | (refine ev_foldl ?_ ?_; rotate_left; intro _ _ _) | (refine ev_foldl_fst ?_ ?_; rotate_left; intro _ _ _ _)
          | (refine ev_foldl_snd ?_ ?_; rotate_left; intro _ _ _ _))
      | (show sub _ _ = true; rfl) | (show List.contains _ _ = true; rfl)

theorem releaseFrame_ev (hF : sub [.regs, .queues, .readPorts, .svcStats, .jnl, .frames] H = true) (h : Evolves H s0 s) (n :
    Nat) (f : FrameSt) : Evolves H s0 (releaseFrame n f s) := by
  refine ev_mono hF h ?_
  unfold releaseFrame
  repeat' first
      | (with_reducible first
          | exact ev_refl _ _ | assumption | apply qPut_ev | apply putFrame_ev | refine ev_ite ?_ ?_
          | refine ev_fst (by assumption) ?_ | refine ev_snd (by assumption) ?_)
      | (show sub _ _ = true; rfl) | (show List.contains _ _ = true; rfl)

theorem reportExcess_ev (hF : sub [.regs, .queues, .readPorts, .svcStats, .jnl] H = true) (h : Evolves H s0 s) (n : Nat) (c :
    Nat) (excess : Nat) (e : Nat) : Evolves H s0 (reportExcess n c excess s e) := by
  refine ev_mono hF h ?_
  unfold reportExcess
  repeat' first
      | (with_reducible first
          | exact ev_refl _ _ | assumption | apply addSat_ev | apply recordError_ev | refine ev_ite ?_ ?_
          | refine ev_fst (by assumption) ?_ | refine ev_snd (by assumption) ?_)
      | (show sub _ _ = true; rfl) | (show List.contains _ _ = true; rfl)

theorem tableWear_ev (hF : sub [.regs, .queues, .readPorts, .svcStats, .jnl, .rsv] H = true) (h : Evolves H s0 s) (n : Nat) (b :
    TableFault) : Evolves H s0 (tableWear n b s) := by
  refine ev_mono hF h ?_
  unfold tableWear
  repeat' first
      | (with_reducible first
          | exact ev_refl _ _ | assumption | apply noteWear_ev | apply noteRow_ev | refine ev_ite ?_ ?_
          | refine ev_fst (by assumption) ?_ | refine ev_snd (by assumption) ?_)
      | (show sub _ _ = true; rfl) | (show List.contains _ _ = true; rfl)

theorem reportFault_ev (hF : sub [.regs, .queues, .readPorts, .svcStats, .jnl, .rsv] H = true) (h : Evolves H s0 s) (n : Nat) (c
    : Nat) (b : TableFault) : Evolves H s0 (reportFault n c s b) := by
  refine ev_mono hF h ?_
  unfold reportFault
  repeat' first
      | (with_reducible first
          | exact ev_refl _ _ | assumption | apply inc_ev | apply recordError_ev | apply tableWear_ev | refine ev_ite ?_ ?_
          | refine ev_fst (by assumption) ?_ | refine ev_snd (by assumption) ?_)
      | (show sub _ _ = true; rfl) | (show List.contains _ _ = true; rfl)

theorem finishHeat_ev (hF : sub [.regs, .queues, .readPorts, .svcStats, .jnl, .rsv, .frames] H = true) (h : Evolves H s0 s) (r :
    Running) (bad : List TableFault) (f : FrameSt) : Evolves H s0 (finishHeat r bad f s) := by
  refine ev_mono hF h ?_
  unfold finishHeat
  repeat' first
      | (with_reducible first
          | exact ev_refl _ _ | assumption | apply wr_ev | apply putFrame_ev | apply makeLines_ev | apply releaseFrame_ev
          | apply reportExcess_ev | apply reportFault_ev | refine ev_ite ?_ ?_
          | (refine ev_foldl ?_ ?_; rotate_left; intro _ _ _) | refine ev_fst (by assumption) ?_
          | refine ev_snd (by assumption) ?_)
      | (show sub _ _ = true; rfl) | (show List.contains _ _ = true; rfl)

theorem doHeatDone_ev (hF : sub [.regs, .queues, .readPorts, .svcStats, .jnl, .rsv, .frames, .running] H = true) (h : Evolves H
    s0 s) (l : Nat) (bad : List TableFault) : Evolves H s0 (doHeatDone l bad s) := by
  refine ev_mono hF h ?_
  unfold doHeatDone
  repeat' first
      | (with_reducible first
          | exact ev_refl _ _ | assumption | apply kickSlices_ev | apply finishHeat_ev | refine ev_ite ?_ ?_
          | refine ev_fst (by assumption) ?_ | refine ev_snd (by assumption) ?_)
      | (show sub _ _ = true; rfl) | (show List.contains _ _ = true; rfl) | dsimp only | split
      | (with_reducible apply ev_running)

theorem passLine_ev (hF : sub [.frames] H = true) (h : Evolves H s0 s) (f : FrameSt) (l : Line) : Evolves H s0 (passLine f l s)
    := by
  refine ev_mono hF h ?_
  unfold passLine
  repeat' first
      | (with_reducible first
          | exact ev_refl _ _ | assumption | apply putFrame_ev | refine ev_ite ?_ ?_ | refine ev_fst (by assumption) ?_
          | refine ev_snd (by assumption) ?_)
      | (show sub _ _ = true; rfl) | (show List.contains _ _ = true; rfl)

theorem windowLine_ev (hF : sub [.regs, .queues, .readPorts, .svcStats, .jnl, .frames] H = true) (h : Evolves H s0 s) (f :
    FrameSt) (l : Line) (rest : List Line) : Evolves H s0 (windowLine f l rest s) := by
  refine ev_mono hF h ?_
  unfold windowLine
  repeat' first
      | (with_reducible first
          | exact ev_refl _ _ | assumption | apply putFrame_ev | apply checkSkew_ev | apply countOverflow_ev
          | refine ev_ite ?_ ?_ | refine ev_fst (by assumption) ?_ | refine ev_snd (by assumption) ?_)
      | (show sub _ _ = true; rfl) | (show List.contains _ _ = true; rfl)

theorem doLineComplete_ev (hF : sub [.regs, .queues, .readPorts, .svcStats, .jnl, .frames, .running] H = true) (h : Evolves H s0
    s) (c : Nat) : Evolves H s0 (doLineComplete c s) := by
  refine ev_mono hF h ?_
  unfold doLineComplete
  repeat' first
      | (with_reducible first
          | exact ev_refl _ _ | assumption | apply kickSlices_ev | apply passLine_ev | apply windowLine_ev | refine ev_ite ?_ ?_
          | refine ev_fst (by assumption) ?_ | refine ev_snd (by assumption) ?_)
      | (show sub _ _ = true; rfl) | (show List.contains _ _ = true) | dsimp only | split

theorem execFrameAdmission_ev (hF : sub [.regs, .cfgB, .ldr, .queues, .readPorts, .svcStats, .jnl, .rsv, .frames, .syncs,
    .statCount, .jmem, .freeCount] H = true) (h : Evolves H s0 s) (c : Nat) (e : execFrameAdmission c s = .next sNext) : Evolves
    H s0 sNext := by
  refine ev_mono hF h ?_
  unfold execFrameAdmission at e
  cases e
  repeat' first
      | (with_reducible first
          | exact ev_refl _ _ | assumption | apply doFrameAdmission_ev | refine ev_ite ?_ ?_ | refine ev_fst (by assumption) ?_
          | refine ev_snd (by assumption) ?_)
      | (show sub _ _ = true; rfl) | (show List.contains _ _ = true; rfl)

theorem execHeatDone_ev (hF : sub [.regs, .queues, .readPorts, .svcStats, .jnl, .rsv, .frames, .running] H = true) (h : Evolves
    H s0 s) (l : Nat) (bad : List TableFault) (e : execHeatDone l bad s = .next sNext) : Evolves H s0 sNext := by
  refine ev_mono hF h ?_
  unfold execHeatDone at e
  cases e
  repeat' first
      | (with_reducible first
          | exact ev_refl _ _ | assumption | apply doHeatDone_ev | refine ev_ite ?_ ?_ | refine ev_fst (by assumption) ?_
          | refine ev_snd (by assumption) ?_)
      | (show sub _ _ = true; rfl) | (show List.contains _ _ = true; rfl)

theorem execLineComplete_ev (hF : sub [.regs, .queues, .readPorts, .svcStats, .jnl, .frames, .running] H = true) (h : Evolves H
    s0 s) (c : Nat) (e : execLineComplete c s = .next sNext) : Evolves H s0 sNext := by
  refine ev_mono hF h ?_
  unfold execLineComplete at e
  cases e
  repeat' first
      | (with_reducible first
          | exact ev_refl _ _ | assumption | apply doLineComplete_ev | refine ev_ite ?_ ?_ | refine ev_fst (by assumption) ?_
          | refine ev_snd (by assumption) ?_)
      | (show sub _ _ = true; rfl) | (show List.contains _ _ = true; rfl)

end Sys2Proof.Machine
end

