-- ==== Sys2Proof/Laws/EvChecks.lean ====
section
/-! SUPPORT. What each function of Machine/Checks.lean changes: one lemma per function, its footprint first. -/

namespace Sys2Proof.Machine
open Sys2Proof

set_option linter.unusedTactic false
set_option linter.unreachableTactic false
set_option linter.unusedVariables false

variable {H : List StateField} {s0 s sNext : State}

theorem each_ev {α : Type} {xs : List α} {f : α → State → State} (h : Evolves H s0 s)
    (hf : ∀ x u, Evolves H s0 u → Evolves H s0 (f x u)) : Evolves H s0 (each xs f s) :=
  ev_foldl h fun b x hb => hf x b hb

theorem fillLsBase_ev (hF : sub [.cfgB] H = true) (h : Evolves H s0 s)  : Evolves H s0 (fillLsBase s) := by
  refine ev_mono hF h ?_
  unfold fillLsBase
  repeat' first
      | (with_reducible first
          | exact ev_refl _ _ | assumption | apply putF_ev | refine ev_ite ?_ ?_ | refine ev_fst (by assumption) ?_
          | refine ev_snd (by assumption) ?_ | (refine ev_foldl_fst ?_ ?_; rotate_left; intro _ _ _ _))
      | (show sub _ _ = true; rfl) | (show List.contains _ _ = true; rfl)

theorem fitRes_ev (hF : sub [.regs, .cfgB, .ldr, .queues, .readPorts, .svcStats, .jnl] H = true) (h : Evolves H s0 s) (profile :
    Nat) (r : Res) (x2 : Nat) : Evolves H s0 (fitRes profile r x2 s).1 := by
  refine ev_mono hF h ?_
  clear h hF
  suffices key : ∀ s0 : State, Evolves [.regs, .cfgB, .ldr, .queues, .readPorts, .svcStats, .jnl] s0 s → Evolves [.regs, .cfgB,
      .ldr, .queues, .readPorts, .svcStats, .jnl] s0 (fitRes profile r x2 s).1 from key s (ev_refl _ s)
  fun_induction fitRes profile r x2 s <;> intro s0 h <;> repeat' first
      | (with_reducible first
          | exact ev_refl _ _ | assumption | apply_assumption -exfalso -symm | apply tell_ev | apply putF_ev
          | refine ev_ite ?_ ?_ | (refine ev_foldl ?_ ?_; rotate_left; intro _ _ _)
          | (refine ev_foldl_fst ?_ ?_; rotate_left; intro _ _ _ _) | (refine ev_foldl_snd ?_ ?_; rotate_left; intro _ _ _ _))
      | (show sub _ _ = true; rfl) | (show List.contains _ _ = true; rfl)

theorem stageBudgets_ev (hF : sub [.regs, .cfgB, .ldr, .queues, .readPorts, .svcStats, .jnl] H = true) (h : Evolves H s0 s)
    (profile : Nat) (x1 : List Res) : Evolves H s0 (stageBudgets profile x1 s).1 := by
  refine ev_mono hF h ?_
  clear h hF
  suffices key : ∀ s0 : State, Evolves [.regs, .cfgB, .ldr, .queues, .readPorts, .svcStats, .jnl] s0 s → Evolves [.regs, .cfgB,
      .ldr, .queues, .readPorts, .svcStats, .jnl] s0 (stageBudgets profile x1 s).1 from key s (ev_refl _ s)
  fun_induction stageBudgets profile x1 s <;> intro s0 h <;> repeat' first
      | (with_reducible first
          | exact ev_refl _ _ | assumption | apply_assumption -exfalso -symm | apply fitRes_ev | refine ev_ite ?_ ?_
          | refine ev_fst (by assumption) ?_ | (refine ev_foldl_fst ?_ ?_; rotate_left; intro _ _ _ _)
          | (refine ev_foldl_snd ?_ ?_; rotate_left; intro _ _ _ _))
      | (show sub _ _ = true; rfl) | (show List.contains _ _ = true; rfl)

theorem checkClass_ev (hF : sub [.regs, .cfgB, .ldr, .queues, .readPorts, .svcStats, .jnl] H = true) (h : Evolves H s0 s)
    (profile : Nat) (c : Nat) : Evolves H s0 (checkClass profile c s) := by
  refine ev_mono hF h ?_
  unfold checkClass
  repeat' first
      | (with_reducible first
          | exact ev_refl _ _ | assumption | apply clampF_ev | refine ev_ite ?_ ?_ | refine ev_fst (by assumption) ?_
          | refine ev_snd (by assumption) ?_)
      | (show sub _ _ = true; rfl) | (show List.contains _ _ = true; rfl)

theorem checkCrop_ev (hF : sub [.regs, .cfgB, .ldr, .queues, .readPorts, .svcStats, .jnl] H = true) (h : Evolves H s0 s)
    (profile : Nat) (c : Nat) : Evolves H s0 (checkCrop profile c s) := by
  refine ev_mono hF h ?_
  unfold checkCrop
  repeat' first
      | (with_reducible first
          | exact ev_refl _ _ | assumption | apply clampF_ev | refine ev_ite ?_ ?_ | refine ev_fst (by assumption) ?_
          | refine ev_snd (by assumption) ?_)
      | (show sub _ _ = true; rfl) | (show List.contains _ _ = true; rfl)

theorem checkHold_ev (hF : sub [.regs, .cfgB, .ldr, .queues, .readPorts, .svcStats, .jnl] H = true) (h : Evolves H s0 s)
    (profile : Nat) (c : Nat) (base : Nat) : Evolves H s0 (checkHold profile c base s).1 := by
  refine ev_mono hF h ?_
  unfold checkHold
  repeat' first
      | (with_reducible first
          | exact ev_refl _ _ | assumption | apply putF_ev | apply clampF_ev | refine ev_ite ?_ ?_
          | refine ev_fst (by assumption) ?_ | refine ev_snd (by assumption) ?_)
      | (show sub _ _ = true; rfl) | (show List.contains _ _ = true) | dsimp only | split

theorem checkScaler_ev (hF : sub [.regs, .cfgB, .ldr, .queues, .readPorts, .svcStats, .jnl] H = true) (h : Evolves H s0 s)
    (profile : Nat) (c : Nat) : Evolves H s0 (checkScaler profile c s) := by
  refine ev_mono hF h ?_
  unfold checkScaler
  repeat' first
      | (with_reducible first
          | exact ev_refl _ _ | assumption | apply clampF_ev | refine ev_ite ?_ ?_ | refine ev_fst (by assumption) ?_
          | refine ev_snd (by assumption) ?_)
      | (show sub _ _ = true; rfl) | (show List.contains _ _ = true; rfl)

theorem checkSelectors_ev (hF : sub [.regs, .cfgB, .ldr, .queues, .readPorts, .svcStats, .jnl] H = true) (h : Evolves H s0 s)
    (profile : Nat) (c : Nat) : Evolves H s0 (checkSelectors profile c s) := by
  refine ev_mono hF h ?_
  unfold checkSelectors
  repeat' first
      | (with_reducible first
          | exact ev_refl _ _ | assumption | apply clampF_ev | refine ev_ite ?_ ?_ | refine ev_fst (by assumption) ?_
          | refine ev_snd (by assumption) ?_)
      | (show sub _ _ = true; rfl) | (show List.contains _ _ = true; rfl)

theorem checkTier_ev (hF : sub [.regs, .cfgB, .ldr, .queues, .readPorts, .svcStats, .jnl] H = true) (h : Evolves H s0 s)
    (profile : Nat) (c : Nat) : Evolves H s0 (checkTier profile c s) := by
  refine ev_mono hF h ?_
  unfold checkTier
  repeat' first
      | (with_reducible first
          | exact ev_refl _ _ | assumption | apply clampF_ev | refine ev_ite ?_ ?_ | refine ev_fst (by assumption) ?_
          | refine ev_snd (by assumption) ?_)
      | (show sub _ _ = true; rfl) | (show List.contains _ _ = true) | dsimp only | split

theorem checkCtxRest_ev (hF : sub [.regs, .cfgB, .ldr, .queues, .readPorts, .svcStats, .jnl] H = true) (h : Evolves H s0 s)
    (profile : Nat) (c : Nat) (base : Nat) : Evolves H s0 (checkCtxRest profile c base s).1 := by
  refine ev_mono hF h ?_
  unfold checkCtxRest
  repeat' first
      | (with_reducible first
          | exact ev_refl _ _ | assumption | apply checkClass_ev | apply checkCrop_ev | apply checkHold_ev
          | apply checkScaler_ev | apply checkSelectors_ev | apply checkTier_ev | refine ev_ite ?_ ?_
          | refine ev_fst (by assumption) ?_ | refine ev_snd (by assumption) ?_)
      | (show sub _ _ = true; rfl) | (show List.contains _ _ = true; rfl)

theorem checkCtx_ev (hF : sub [.regs, .cfgB, .ldr, .queues, .readPorts, .svcStats, .jnl] H = true) (h : Evolves H s0 s) (profile
    : Nat) (c : Nat) (base : Nat) : Evolves H s0 (checkCtx profile c base s).1 := by
  refine ev_mono hF h ?_
  unfold checkCtx
  repeat' first
      | (with_reducible first
          | exact ev_refl _ _ | assumption | apply clampF_ev | apply checkCtxRest_ev | apply disableCtx_ev | refine ev_ite ?_ ?_
          | refine ev_fst (by assumption) ?_ | refine ev_snd (by assumption) ?_)
      | (show sub _ _ = true; rfl) | (show List.contains _ _ = true) | dsimp only | split

theorem checkGrids_ev (hF : sub [.regs, .cfgB, .ldr, .queues, .readPorts, .svcStats, .jnl] H = true) (h : Evolves H s0 s)
    (profile : Nat) : Evolves H s0 (checkGrids profile s) := by
  refine ev_mono hF h ?_
  unfold checkGrids
  repeat' first
      | (with_reducible first
          | exact ev_refl _ _ | assumption | apply each_ev | apply clampF_ev | refine ev_ite ?_ ?_
          | refine ev_fst (by assumption) ?_ | refine ev_snd (by assumption) ?_ | intro _ _ _ | intro _ _)
      | (show sub _ _ = true; rfl) | (show List.contains _ _ = true; rfl)

theorem checkGroups_ev (hF : sub [.regs, .cfgB, .ldr, .queues, .readPorts, .svcStats, .jnl] H = true) (h : Evolves H s0 s)
    (profile : Nat) : Evolves H s0 (checkGroups profile s) := by
  refine ev_mono hF h ?_
  unfold checkGroups
  repeat' first
      | (with_reducible first
          | exact ev_refl _ _ | assumption | apply each_ev | apply clampF_ev | refine ev_ite ?_ ?_
          | refine ev_fst (by assumption) ?_ | refine ev_snd (by assumption) ?_ | intro _ _ _ | intro _ _)
      | (show sub _ _ = true; rfl) | (show List.contains _ _ = true) | dsimp only | split

theorem checkInCheck_ev (hF : sub [.regs, .cfgB, .ldr, .queues, .readPorts, .svcStats, .jnl] H = true) (h : Evolves H s0 s)
    (profile : Nat) : Evolves H s0 (checkInCheck profile s) := by
  refine ev_mono hF h ?_
  unfold checkInCheck
  repeat' first
      | (with_reducible first
          | exact ev_refl _ _ | assumption | apply each_ev | apply clampF_ev | refine ev_ite ?_ ?_
          | refine ev_fst (by assumption) ?_ | refine ev_snd (by assumption) ?_ | intro _ _ _ | intro _ _)
      | (show sub _ _ = true; rfl) | (show List.contains _ _ = true; rfl)

theorem trimSpill_ev (hF : sub [.regs, .cfgB, .ldr, .queues, .readPorts, .svcStats, .jnl] H = true) (h : Evolves H s0 s)
    (profile : Nat) (x1 : Nat) : Evolves H s0 (trimSpill profile x1 s) := by
  refine ev_mono hF h ?_
  clear h hF
  suffices key : ∀ s0 : State, Evolves [.regs, .cfgB, .ldr, .queues, .readPorts, .svcStats, .jnl] s0 s → Evolves [.regs, .cfgB,
      .ldr, .queues, .readPorts, .svcStats, .jnl] s0 (trimSpill profile x1 s) from key s (ev_refl _ s)
  fun_induction trimSpill profile x1 s <;> intro s0 h <;> repeat' first
      | (with_reducible first
          | exact ev_refl _ _ | assumption | apply_assumption -exfalso -symm | apply clampF_ev
          | (refine ev_foldl ?_ ?_; rotate_left; intro _ _ _) | (refine ev_foldl_fst ?_ ?_; rotate_left; intro _ _ _ _)
          | (refine ev_foldl_snd ?_ ?_; rotate_left; intro _ _ _ _))
      | (show sub _ _ = true; rfl) | (show List.contains _ _ = true; rfl)

theorem checkQueues_ev (hF : sub [.regs, .cfgB, .ldr, .queues, .readPorts, .svcStats, .jnl] H = true) (h : Evolves H s0 s)
    (profile : Nat) : Evolves H s0 (checkQueues profile s) := by
  refine ev_mono hF h ?_
  unfold checkQueues
  repeat' first
      | (with_reducible first
          | exact ev_refl _ _ | assumption | apply each_ev | apply clampF_ev | apply trimSpill_ev | refine ev_ite ?_ ?_
          | refine ev_fst (by assumption) ?_ | refine ev_snd (by assumption) ?_ | intro _ _ _ | intro _ _)
      | (show sub _ _ = true; rfl) | (show List.contains _ _ = true; rfl)

theorem clearDerived_ev (hF : sub [.cfgB] H = true) (h : Evolves H s0 s)  : Evolves H s0 (clearDerived s) := by
  refine ev_mono hF h ?_
  unfold clearDerived
  repeat' first
      | (with_reducible first
          | exact ev_refl _ _ | assumption | refine ev_ite ?_ ?_ | refine ev_fst (by assumption) ?_
          | refine ev_snd (by assumption) ?_)
      | (with_reducible first
          | exact Nat.le_add_right _ _ | exact le_rfl
          | (refine fun (c : State.Canonical _) => ?_; repeat' first | exact c.cfgB | exact c.cfgA | exact ⟨c.profSets, c.baseSet⟩ | exact ⟨profSets_sset c.profSets _ c.cfgB, c.baseSet⟩ | exact ⟨c.profSets, c.cfgB⟩ | exact ⟨List.forall_mem_nil _, rfl⟩ | exact swf_nil _ | exact swf_freshBank_of rfl | exact swf_profSet c _ | exact swf_setOfProfile c _ | exact swf_bankOf c _ | apply swf_foldl_sset | apply swf_sset | apply swf_bankSet | apply swf_memWrite | apply swf_sdel | apply swf_filter))
      | (show sub _ _ = true) | (show List.contains _ _ = true; rfl) | dsimp only | split | (with_reducible apply ev_cfgB)

theorem stageContexts_ev (hF : sub [.regs, .cfgB, .ldr, .queues, .readPorts, .svcStats, .jnl] H = true) (h : Evolves H s0 s)
    (profile : Nat) : Evolves H s0 (stageContexts profile s) := by
  refine ev_mono hF h ?_
  unfold stageContexts
  repeat' first
      | (with_reducible first
          | exact ev_refl _ _ | assumption | apply checkCtx_ev | apply checkGrids_ev | apply checkGroups_ev
          | apply checkInCheck_ev | apply checkQueues_ev | apply clearDerived_ev | refine ev_ite ?_ ?_
          | refine ev_fst (by assumption) ?_ | refine ev_snd (by assumption) ?_
          | (refine ev_foldl_fst ?_ ?_; rotate_left; intro _ _ _ _))
      | (show sub _ _ = true; rfl) | (show List.contains _ _ = true; rfl)

theorem recheck_ev (hF : sub [.regs, .cfgB, .ldr, .queues, .readPorts, .svcStats, .jnl] H = true) (h : Evolves H s0 s) (stage :
    Nat) (profile : Nat) (a : Nat) : Evolves H s0 (recheck stage profile a s) := by
  refine ev_mono hF h ?_
  unfold recheck
  repeat' first
      | (with_reducible first
          | exact ev_refl _ _ | assumption | apply clampF_ev | refine ev_ite ?_ ?_
          | (refine ev_foldl ?_ ?_; rotate_left; intro _ _ _) | refine ev_fst (by assumption) ?_
          | refine ev_snd (by assumption) ?_)
      | (show sub _ _ = true; rfl) | (show List.contains _ _ = true; rfl)

theorem stageDma_ev (hF : sub [.regs, .cfgB, .ldr, .queues, .readPorts, .svcStats, .jnl] H = true) (h : Evolves H s0 s) (profile
    : Nat) : Evolves H s0 (stageDma profile s) := by
  refine ev_mono hF h ?_
  unfold stageDma
  repeat' first
      | (with_reducible first
          | exact ev_refl _ _ | assumption | apply each_ev | apply tell_ev | apply recheck_ev | refine ev_ite ?_ ?_
          | refine ev_fst (by assumption) ?_ | refine ev_snd (by assumption) ?_ | intro _ _ _ | intro _ _)
      | (with_reducible first
          | exact Nat.le_add_right _ _ | exact le_rfl
          | (refine fun (c : State.Canonical _) => ?_; repeat' first | exact c.regs | exact c.cfgB | exact c.cfgA | exact ⟨c.profSets, c.baseSet⟩ | exact ⟨profSets_sset c.profSets _ c.cfgB, c.baseSet⟩ | exact ⟨c.profSets, c.cfgB⟩ | exact ⟨List.forall_mem_nil _, rfl⟩ | exact swf_nil _ | exact swf_freshBank_of rfl | exact swf_profSet c _ | exact swf_setOfProfile c _ | exact swf_bankOf c _ | apply swf_foldl_sset | apply swf_sset | apply swf_bankSet | apply swf_memWrite | apply swf_sdel))
      | (show sub _ _ = true; rfl) | (show List.contains _ _ = true; rfl) | dsimp only | split | (with_reducible apply ev_cfgB)

theorem checkRelay_ev (hF : sub [.regs, .cfgB, .ldr, .queues, .readPorts, .svcStats, .jnl] H = true) (h : Evolves H s0 s)
    (profile : Nat) : Evolves H s0 (checkRelay profile s) := by
  refine ev_mono hF h ?_
  unfold checkRelay
  repeat' first
      | (with_reducible first
          | exact ev_refl _ _ | assumption | apply clampF_ev | refine ev_ite ?_ ?_ | refine ev_fst (by assumption) ?_
          | refine ev_snd (by assumption) ?_)
      | (show sub _ _ = true; rfl) | (show List.contains _ _ = true; rfl)

theorem resetTargetAddr_ev (hF : sub [.regs, .cfgB, .ldr, .queues, .readPorts, .svcStats, .jnl] H = true) (h : Evolves H s0 s)
    (profile : Nat) (t : Nat) : Evolves H s0 (resetTargetAddr profile t s) := by
  refine ev_mono hF h ?_
  unfold resetTargetAddr
  repeat' first
      | (with_reducible first
          | exact ev_refl _ _ | assumption | apply clampF_ev | refine ev_ite ?_ ?_ | refine ev_fst (by assumption) ?_
          | refine ev_snd (by assumption) ?_)
      | (show sub _ _ = true; rfl) | (show List.contains _ _ = true; rfl)

theorem checkTargets_ev (hF : sub [.regs, .cfgB, .ldr, .queues, .readPorts, .svcStats, .jnl] H = true) (h : Evolves H s0 s)
    (profile : Nat) : Evolves H s0 (checkTargets profile s) := by
  refine ev_mono hF h ?_
  unfold checkTargets
  repeat' first
      | (with_reducible first
          | exact ev_refl _ _ | assumption | apply each_ev | apply clampF_ev | apply resetTargetAddr_ev | refine ev_ite ?_ ?_
          | refine ev_fst (by assumption) ?_ | refine ev_snd (by assumption) ?_ | intro _ _ _ | intro _ _)
      | (show sub _ _ = true; rfl) | (show List.contains _ _ = true; rfl)

theorem dropMaps_ev (hF : sub [.regs, .cfgB, .ldr, .queues, .readPorts, .svcStats, .jnl] H = true) (h : Evolves H s0 s) (profile
    : Nat) : Evolves H s0 (dropMaps profile s) := by
  refine ev_mono hF h ?_
  unfold dropMaps
  repeat' first
      | (with_reducible first
          | exact ev_refl _ _ | assumption | apply each_ev | apply tell_ev | apply putF_ev | refine ev_ite ?_ ?_
          | refine ev_fst (by assumption) ?_ | refine ev_snd (by assumption) ?_ | intro _ _ _ | intro _ _)
      | (show sub _ _ = true; rfl) | (show List.contains _ _ = true; rfl)

theorem trimGenerators_ev (hF : sub [.regs, .cfgB, .ldr, .queues, .readPorts, .svcStats, .jnl] H = true) (h : Evolves H s0 s)
    (profile : Nat) : Evolves H s0 (trimGenerators profile s) := by
  refine ev_mono hF h ?_
  unfold trimGenerators
  repeat' first
      | (with_reducible first
          | exact ev_refl _ _ | assumption | apply each_ev | apply clampF_ev | refine ev_ite ?_ ?_
          | refine ev_fst (by assumption) ?_ | refine ev_snd (by assumption) ?_ | intro _ _ _ | intro _ _)
      | (show sub _ _ = true; rfl) | (show List.contains _ _ = true; rfl)

theorem stagePorts_ev (hF : sub [.regs, .cfgB, .ldr, .queues, .readPorts, .svcStats, .jnl] H = true) (h : Evolves H s0 s)
    (profile : Nat) : Evolves H s0 (stagePorts profile s) := by
  refine ev_mono hF h ?_
  unfold stagePorts
  repeat' first
      | (with_reducible first
          | exact ev_refl _ _ | assumption | apply each_ev | apply clampF_ev | apply disableCtx_ev | apply recheck_ev
          | apply checkRelay_ev | apply checkTargets_ev | apply dropMaps_ev | apply trimGenerators_ev | refine ev_ite ?_ ?_
          | refine ev_fst (by assumption) ?_ | refine ev_snd (by assumption) ?_ | intro _ _ _ | intro _ _)
      | (show sub _ _ = true; rfl) | (show List.contains _ _ = true) | dsimp only | split

theorem checkRoutes_ev (hF : sub [.regs, .cfgB, .ldr, .queues, .readPorts, .svcStats, .jnl] H = true) (h : Evolves H s0 s)
    (profile : Nat) (x1 : List Nat) (x2 : List Nat) : Evolves H s0 (checkRoutes profile x1 x2 s) := by
  refine ev_mono hF h ?_
  clear h hF
  suffices key : ∀ s0 : State, Evolves [.regs, .cfgB, .ldr, .queues, .readPorts, .svcStats, .jnl] s0 s → Evolves [.regs, .cfgB,
      .ldr, .queues, .readPorts, .svcStats, .jnl] s0 (checkRoutes profile x1 x2 s) from key s (ev_refl _ s)
  fun_induction checkRoutes profile x1 x2 s <;> intro s0 h <;> repeat' first
      | (with_reducible first
          | exact ev_refl _ _ | assumption | apply_assumption -exfalso -symm | apply tell_ev | apply putF_ev
          | (refine ev_foldl ?_ ?_; rotate_left; intro _ _ _) | (refine ev_foldl_fst ?_ ?_; rotate_left; intro _ _ _ _)
          | (refine ev_foldl_snd ?_ ?_; rotate_left; intro _ _ _ _))
      | (show sub _ _ = true; rfl) | (show List.contains _ _ = true; rfl)

theorem stageSeam_ev (hF : sub [.regs, .cfgB, .ldr, .queues, .readPorts, .svcStats, .jnl] H = true) (h : Evolves H s0 s)
    (profile : Nat) : Evolves H s0 (stageSeam profile s) := by
  refine ev_mono hF h ?_
  unfold stageSeam
  repeat' first
      | (with_reducible first
          | exact ev_refl _ _ | assumption | apply checkRoutes_ev | refine ev_ite ?_ ?_ | refine ev_fst (by assumption) ?_
          | refine ev_snd (by assumption) ?_)
      | (show sub _ _ = true; rfl) | (show List.contains _ _ = true; rfl)

theorem stageSlices_ev (hF : sub [.regs, .cfgB, .ldr, .queues, .readPorts, .svcStats, .jnl] H = true) (h : Evolves H s0 s)
    (profile : Nat) : Evolves H s0 (stageSlices profile s) := by
  refine ev_mono hF h ?_
  unfold stageSlices
  repeat' first
      | (with_reducible first
          | exact ev_refl _ _ | assumption | apply each_ev | apply disableCtx_ev | refine ev_ite ?_ ?_
          | refine ev_fst (by assumption) ?_ | refine ev_snd (by assumption) ?_ | intro _ _ _ | intro _ _)
      | (show sub _ _ = true; rfl) | (show List.contains _ _ = true; rfl)

theorem runStages_ev (hF : sub [.regs, .cfgB, .ldr, .queues, .readPorts, .svcStats, .jnl] H = true) (h : Evolves H s0 s)
    (profile : Nat) : Evolves H s0 (runStages profile s).1 := by
  refine ev_mono hF h ?_
  unfold runStages
  repeat' first
      | (with_reducible first
          | exact ev_refl _ _ | assumption | apply fillLsBase_ev | apply stageBudgets_ev | apply stageContexts_ev
          | apply stageDma_ev | apply stagePorts_ev | apply stageSeam_ev | apply stageSlices_ev | refine ev_ite ?_ ?_
          | refine ev_fst (by assumption) ?_ | refine ev_snd (by assumption) ?_)
      | (show sub _ _ = true; rfl) | (show List.contains _ _ = true) | dsimp only | split

end Sys2Proof.Machine
end

