-- ==== Sys2Proof/Laws/EvDma.lean ====
section
/-! SUPPORT. What each function of Machine/Dma.lean changes: one lemma per function, its footprint first. -/

namespace Sys2Proof.Machine
open Sys2Proof

set_option linter.unusedTactic false
set_option linter.unreachableTactic false
set_option linter.unusedVariables false

variable {H : List StateField} {s0 s sNext : State}

theorem lostRecord_ev (hF : sub [.regs] H = true) (h : Evolves H s0 s) (c : Nat) : Evolves H s0 (lostRecord c s) := by
  refine ev_mono hF h ?_
  unfold lostRecord
  repeat' first
      | (with_reducible first
          | exact ev_refl _ _ | assumption | apply wr_ev | apply inc_ev | refine ev_ite ?_ ?_ | refine ev_fst (by assumption) ?_
          | refine ev_snd (by assumption) ?_)
      | (show sub _ _ = true; rfl) | (show List.contains _ _ = true; rfl)

theorem setChan_ev (hF : sub [.chans] H = true) (h : Evolves H s0 s) (c : Nat) (x : ChanSt) : Evolves H s0 (setChan c x s) := by
  refine ev_mono hF h ?_
  unfold setChan
  repeat' first
      | (with_reducible first
          | exact ev_refl _ _ | assumption | refine ev_ite ?_ ?_ | refine ev_fst (by assumption) ?_
          | refine ev_snd (by assumption) ?_)
      | (show sub _ _ = true) | (show List.contains _ _ = true; rfl) | dsimp only | split | (with_reducible apply ev_chans)

theorem putSet_ev (hF : sub [.regs, .chans] H = true) (h : Evolves H s0 s) (c : Nat) (d : DmaSet) : Evolves H s0 (putSet c d s)
    := by
  refine ev_mono hF h ?_
  unfold putSet
  repeat' first
      | (with_reducible first
          | exact ev_refl _ _ | assumption | apply wr_ev | apply setChan_ev | refine ev_ite ?_ ?_
          | refine ev_fst (by assumption) ?_ | refine ev_snd (by assumption) ?_)
      | (show sub _ _ = true; rfl) | (show List.contains _ _ = true) | dsimp only | split

theorem writeHost_ev (hF : sub [.out] H = true) (h : Evolves H s0 s) (p : Nat) (a : Nat) (bs : List Nat) (attr : Nat) : Evolves
    H s0 (writeHost p a bs attr s) := by
  refine ev_mono hF h ?_
  unfold writeHost
  repeat' first
      | (with_reducible first
          | exact ev_refl _ _ | assumption | apply emit_ev | refine ev_ite ?_ ?_
          | (refine ev_foldl ?_ ?_; rotate_left; intro _ _ _) | refine ev_fst (by assumption) ?_
          | refine ev_snd (by assumption) ?_)
      | (show sub _ _ = true; rfl) | (show List.contains _ _ = true; rfl)

theorem writeRecord_ev (hF : sub [.regs, .queues, .readPorts, .svcStats, .jnl, .chans, .out] H = true) (h : Evolves H s0 s) (c :
    Nat) (d : DmaSet) (useReserved : Bool) (replay : Bool) (tagWritten : Bool) (tc : Nat) (status : Nat) (cookie : Nat) (bytes :
    Nat) (residue : Nat) (tag : Option (List Nat)) : Evolves H s0 (writeRecord c d useReserved replay tagWritten tc status
    cookie bytes residue tag s) := by
  refine ev_mono hF h ?_
  unfold writeRecord
  repeat' first
      | (with_reducible first
          | exact ev_refl _ _ | assumption | apply wr_ev | apply recordError_ev | apply lostRecord_ev | apply putSet_ev
          | apply writeHost_ev | refine ev_ite ?_ ?_ | refine ev_fst (by assumption) ?_ | refine ev_snd (by assumption) ?_)
      | (show sub _ _ = true; rfl) | (show List.contains _ _ = true; rfl)

theorem dropChFrame_ev (hF : sub [.chans] H = true) (h : Evolves H s0 s) (c : Nat) (serial : Nat) : Evolves H s0 (dropChFrame c
    serial s) := by
  refine ev_mono hF h ?_
  unfold dropChFrame
  repeat' first
      | (with_reducible first
          | exact ev_refl _ _ | assumption | apply setChan_ev | refine ev_ite ?_ ?_ | refine ev_fst (by assumption) ?_
          | refine ev_snd (by assumption) ?_)
      | (show sub _ _ = true; rfl) | (show List.contains _ _ = true; rfl)

theorem setLevelBytes_ev (hF : sub [.regs, .hostPorts] H = true) (h : Evolves H s0 s) (p : Nat) (new : Nat) : Evolves H s0
    (setLevelBytes p new s) := by
  refine ev_mono hF h ?_
  unfold setLevelBytes
  repeat' first
      | (with_reducible first
          | exact ev_refl _ _ | assumption | apply wr_ev | apply inc_ev | apply setHostPort_ev | refine ev_ite ?_ ?_
          | refine ev_fst (by assumption) ?_ | refine ev_snd (by assumption) ?_)
      | (show sub _ _ = true; rfl) | (show List.contains _ _ = true; rfl)

theorem levelDown_ev (hF : sub [.regs, .hostPorts] H = true) (h : Evolves H s0 s) (p : Nat) (n : Nat) : Evolves H s0 (levelDown
    p n s) := by
  refine ev_mono hF h ?_
  unfold levelDown
  repeat' first
      | (with_reducible first
          | exact ev_refl _ _ | assumption | apply setLevelBytes_ev | refine ev_ite ?_ ?_ | refine ev_fst (by assumption) ?_
          | refine ev_snd (by assumption) ?_)
      | (show sub _ _ = true; rfl) | (show List.contains _ _ = true; rfl)

theorem settleState_ev (hF : sub [.regs] H = true) (h : Evolves H s0 s) (c : Nat) : Evolves H s0 (settleState c s) := by
  refine ev_mono hF h ?_
  unfold settleState
  repeat' first
      | (with_reducible first
          | exact ev_refl _ _ | assumption | apply wr_ev | refine ev_ite ?_ ?_ | refine ev_fst (by assumption) ?_
          | refine ev_snd (by assumption) ?_)
      | (show sub _ _ = true; rfl) | (show List.contains _ _ = true; rfl)

theorem takeSet_ev (hF : sub [.regs, .chans] H = true) (h : Evolves H s0 s) (c : Nat) : Evolves H s0 (takeSet c s) := by
  refine ev_mono hF h ?_
  unfold takeSet
  repeat' first
      | (with_reducible first
          | exact ev_refl _ _ | assumption | apply wr_ev | apply setChan_ev | refine ev_ite ?_ ?_
          | refine ev_fst (by assumption) ?_ | refine ev_snd (by assumption) ?_)
      | (show sub _ _ = true; rfl) | (show List.contains _ _ = true) | dsimp only | split

theorem levelUp_ev (hF : sub [.regs, .hostPorts] H = true) (h : Evolves H s0 s) (p : Nat) (n : Nat) : Evolves H s0 (levelUp p n
    s) := by
  refine ev_mono hF h ?_
  unfold levelUp
  repeat' first
      | (with_reducible first
          | exact ev_refl _ _ | assumption | apply setLevelBytes_ev | refine ev_ite ?_ ?_ | refine ev_fst (by assumption) ?_
          | refine ev_snd (by assumption) ?_)
      | (show sub _ _ = true; rfl) | (show List.contains _ _ = true; rfl)

theorem noBufferRecord_ev (hF : sub [.regs, .queues, .readPorts, .svcStats, .jnl, .chans, .out] H = true) (h : Evolves H s0 s)
    (c : Nat) (f : ChFrame) : Evolves H s0 (noBufferRecord c f s) := by
  refine ev_mono hF h ?_
  unfold noBufferRecord
  repeat' first
      | (with_reducible first
          | exact ev_refl _ _ | assumption | apply inc_ev | apply recordError_ev | apply lostRecord_ev | apply writeRecord_ev
          | apply dropChFrame_ev | apply settleState_ev | apply takeSet_ev | refine ev_ite ?_ ?_
          | refine ev_fst (by assumption) ?_ | refine ev_snd (by assumption) ?_)
      | (show sub _ _ = true; rfl) | (show List.contains _ _ = true) | dsimp only | split

theorem putChFrame_ev (hF : sub [.chans] H = true) (h : Evolves H s0 s) (c : Nat) (f : ChFrame) : Evolves H s0 (putChFrame c f
    s) := by
  refine ev_mono hF h ?_
  unfold putChFrame
  repeat' first
      | (with_reducible first
          | exact ev_refl _ _ | assumption | apply setChan_ev | refine ev_ite ?_ ?_ | refine ev_fst (by assumption) ?_
          | refine ev_snd (by assumption) ?_)
      | (show sub _ _ = true; rfl) | (show List.contains _ _ = true; rfl)

theorem endReplay_ev (hF : sub [.regs, .hostPorts] H = true) (h : Evolves H s0 s) (p : Nat) (result : Nat) : Evolves H s0
    (endReplay p result s) := by
  refine ev_mono hF h ?_
  unfold endReplay
  repeat' first
      | (with_reducible first
          | exact ev_refl _ _ | assumption | apply wr_ev | apply setHostPort_ev | refine ev_ite ?_ ?_
          | refine ev_fst (by assumption) ?_ | refine ev_snd (by assumption) ?_)
      | (show sub _ _ = true; rfl) | (show List.contains _ _ = true; rfl)

theorem releaseReads_ev (hF : sub [.hostPorts, .out] H = true) (h : Evolves H s0 s) (p : Nat) : Evolves H s0 (releaseReads p s)
    := by
  refine ev_mono hF h ?_
  unfold releaseReads
  repeat' first
      | (with_reducible first
          | exact ev_refl _ _ | assumption | apply emit_ev | apply setHostPort_ev | refine ev_ite ?_ ?_
          | (refine ev_foldl ?_ ?_; rotate_left; intro _ _ _) | refine ev_fst (by assumption) ?_
          | refine ev_snd (by assumption) ?_)
      | (show sub _ _ = true; rfl) | (show List.contains _ _ = true; rfl)

theorem scrapFrames_ev (hF : sub [.regs, .queues, .readPorts, .hostPorts, .svcStats, .jnl, .chans, .out] H = true) (h : Evolves
    H s0 s) (c : Nat) (rec : Bool) : Evolves H s0 (scrapFrames c rec s) := by
  refine ev_mono hF h ?_
  unfold scrapFrames
  repeat' first
      | (with_reducible first
          | exact ev_refl _ _ | assumption | apply setChan_ev | apply setHostPort_ev | apply levelDown_ev
          | apply noBufferRecord_ev | apply endReplay_ev | apply releaseReads_ev | refine ev_ite ?_ ?_
          | (refine ev_foldl ?_ ?_; rotate_left; intro _ _ _) | refine ev_fst (by assumption) ?_
          | refine ev_snd (by assumption) ?_)
      | (show sub _ _ = true; rfl) | (show List.contains _ _ = true; rfl)

theorem unreport_ev (hF : sub [.regs, .hostPorts, .chans] H = true) (h : Evolves H s0 s) (c : Nat) : Evolves H s0 (unreport c s)
    := by
  refine ev_mono hF h ?_
  unfold unreport
  repeat' first
      | (with_reducible first
          | exact ev_refl _ _ | assumption | apply setChan_ev | apply putSet_ev | apply setHostPort_ev | refine ev_ite ?_ ?_
          | refine ev_fst (by assumption) ?_ | refine ev_snd (by assumption) ?_)
      | (show sub _ _ = true; rfl) | (show List.contains _ _ = true) | dsimp only | split

theorem halt_ev (hF : sub [.regs, .queues, .readPorts, .hostPorts, .svcStats, .jnl, .chans, .out] H = true) (h : Evolves H s0 s)
    (c : Nat) (cause : Nat) (dir : Nat) (addr : Nat) (entries : Nat) : Evolves H s0 (halt c cause dir addr entries s) := by
  refine ev_mono hF h ?_
  unfold halt
  repeat' first
      | (with_reducible first
          | exact ev_refl _ _ | assumption | apply wr_ev | apply recordError_ev | apply setChan_ev | apply scrapFrames_ev
          | apply unreport_ev | refine ev_ite ?_ ?_ | refine ev_fst (by assumption) ?_ | refine ev_snd (by assumption) ?_)
      | (show sub _ _ = true; rfl) | (show List.contains _ _ = true; rfl)

theorem issueRead_ev (hF : sub [.hostPorts, .out] H = true) (h : Evolves H s0 s) (c : Nat) (dir : Nat) (a : Nat) (n : Nat) (tc :
    Nat) : Evolves H s0 (issueRead c dir a n tc s) := by
  refine ev_mono hF h ?_
  unfold issueRead
  repeat' first
      | (with_reducible first
          | exact ev_refl _ _ | assumption | apply emit_ev | apply setHostPort_ev | refine ev_ite ?_ ?_
          | refine ev_fst (by assumption) ?_ | refine ev_snd (by assumption) ?_)
      | (show sub _ _ = true; rfl) | (show List.contains _ _ = true; rfl)

theorem ask_ev (hF : sub [.regs, .queues, .readPorts, .hostPorts, .svcStats, .jnl, .chans, .out] H = true) (h : Evolves H s0 s)
    (c : Nat) (dir : Nat) (a0 : Nat) (a : Nat) (n : Nat) (tc : Nat) : Evolves H s0 (ask c dir a0 a n tc s) := by
  refine ev_mono hF h ?_
  unfold ask
  repeat' first
      | (with_reducible first
          | exact ev_refl _ _ | assumption | apply halt_ev | apply issueRead_ev | refine ev_ite ?_ ?_
          | refine ev_fst (by assumption) ?_ | refine ev_snd (by assumption) ?_)
      | (show sub _ _ = true; rfl) | (show List.contains _ _ = true; rfl)

theorem lateLoss_ev (hF : sub [.regs, .queues, .readPorts, .svcStats, .jnl] H = true) (h : Evolves H s0 s) (o : Nat) (serial :
    Nat) (tag : Option (List Nat)) : Evolves H s0 (lateLoss o serial tag s) := by
  refine ev_mono hF h ?_
  unfold lateLoss
  repeat' first
      | (with_reducible first
          | exact ev_refl _ _ | assumption | apply inc_ev | apply recordError_ev | refine ev_ite ?_ ?_
          | refine ev_fst (by assumption) ?_ | refine ev_snd (by assumption) ?_)
      | (show sub _ _ = true; rfl) | (show List.contains _ _ = true) | dsimp only | split

theorem putOut_ev (hF : sub [.outs] H = true) (h : Evolves H s0 s) (x : OutFrame) : Evolves H s0 (putOut x s) := by
  refine ev_mono hF h ?_
  unfold putOut
  repeat' first
      | (with_reducible first
          | exact ev_refl _ _ | assumption | refine ev_ite ?_ ?_ | refine ev_fst (by assumption) ?_
          | refine ev_snd (by assumption) ?_)
      | (show sub _ _ = true) | (show List.contains _ _ = true; rfl) | dsimp only | split | (with_reducible apply ev_outs)

theorem seamLoss_ev (hF : sub [.regs, .queues, .readPorts, .svcStats, .jnl, .outs] H = true) (h : Evolves H s0 s) (o : Nat)
    (serial : Nat) (n : Nat) : Evolves H s0 (seamLoss o serial n s) := by
  refine ev_mono hF h ?_
  unfold seamLoss
  repeat' first
      | (with_reducible first
          | exact ev_refl _ _ | assumption | apply wr_ev | apply addSat_ev | apply inc_ev | apply recordError_ev
          | apply putOut_ev | refine ev_ite ?_ ?_ | refine ev_fst (by assumption) ?_ | refine ev_snd (by assumption) ?_)
      | (show sub _ _ = true; rfl) | (show List.contains _ _ = true) | dsimp only | split

theorem cutItem_ev (hF : sub [.regs, .queues, .readPorts, .hostPorts, .svcStats, .jnl, .outs, .chans] H = true) (h : Evolves H
    s0 s) (c : Nat) (f : ChFrame) (i : EgrItem) (rest : List EgrItem) : Evolves H s0 (cutItem c f i rest s) := by
  refine ev_mono hF h ?_
  unfold cutItem
  repeat' first
      | (with_reducible first
          | exact ev_refl _ _ | assumption | apply recordError_ev | apply levelDown_ev | apply putChFrame_ev | apply lateLoss_ev
          | apply seamLoss_ev | refine ev_ite ?_ ?_ | refine ev_fst (by assumption) ?_ | refine ev_snd (by assumption) ?_)
      | (show sub _ _ = true; rfl) | (show List.contains _ _ = true) | dsimp only | split

theorem endBuffer_ev (hF : sub [.regs, .queues, .readPorts, .hostPorts, .svcStats, .jnl, .chans, .out] H = true) (h : Evolves H
    s0 s) (c : Nat) (f : ChFrame) (b : Buf) : Evolves H s0 (endBuffer c f b s) := by
  refine ev_mono hF h ?_
  unfold endBuffer
  repeat' first
      | (with_reducible first
          | exact ev_refl _ _ | assumption | apply writeRecord_ev | apply dropChFrame_ev | apply settleState_ev
          | apply takeSet_ev | apply endReplay_ev | apply incWrap_ev | refine ev_ite ?_ ?_ | refine ev_fst (by assumption) ?_
          | refine ev_snd (by assumption) ?_)
      | (show sub _ _ = true; rfl) | (show List.contains _ _ = true) | dsimp only | split

theorem settleHead_ev (hF : sub [.regs, .queues, .readPorts, .hostPorts, .svcStats, .jnl, .outs, .chans, .out] H = true) (h :
    Evolves H s0 s) (c : Nat) (x1 : Nat) : Evolves H s0 (settleHead c x1 s) := by
  refine ev_mono hF h ?_
  clear h hF
  suffices key : ∀ s0 : State, Evolves [.regs, .queues, .readPorts, .hostPorts, .svcStats, .jnl, .outs, .chans, .out] s0 s →
      Evolves [.regs, .queues, .readPorts, .hostPorts, .svcStats, .jnl, .outs, .chans, .out] s0 (settleHead c x1 s) from key s
      (ev_refl _ s)
  fun_induction settleHead c x1 s <;> intro s0 h <;> repeat' first
      | (with_reducible first
          | exact ev_refl _ _ | assumption | apply_assumption -exfalso -symm | apply setChan_ev | apply putChFrame_ev
          | apply halt_ev | apply ask_ev | apply cutItem_ev | apply endBuffer_ev
          | (refine ev_foldl ?_ ?_; rotate_left; intro _ _ _) | (refine ev_foldl_fst ?_ ?_; rotate_left; intro _ _ _ _)
          | (refine ev_foldl_snd ?_ ?_; rotate_left; intro _ _ _ _))
      | (show sub _ _ = true; rfl) | (show List.contains _ _ = true; rfl)

theorem settle_ev (hF : sub [.regs, .queues, .readPorts, .hostPorts, .svcStats, .jnl, .outs, .chans, .out] H = true) (h :
    Evolves H s0 s) (c : Nat) : Evolves H s0 (settle c s) := by
  refine ev_mono hF h ?_
  unfold settle
  repeat' first
      | (with_reducible first
          | exact ev_refl _ _ | assumption | apply settleHead_ev | refine ev_ite ?_ ?_ | refine ev_fst (by assumption) ?_
          | refine ev_snd (by assumption) ?_)
      | (show sub _ _ = true; rfl) | (show List.contains _ _ = true; rfl)

theorem chanEnd_ev (hF : sub [.regs, .queues, .readPorts, .hostPorts, .svcStats, .jnl, .outs, .chans, .out] H = true) (h :
    Evolves H s0 s) (c : Nat) (serial : Nat) (trailer : List Nat) (tag : List Nat) : Evolves H s0 (chanEnd c serial trailer tag
    s) := by
  refine ev_mono hF h ?_
  unfold chanEnd
  repeat' first
      | (with_reducible first
          | exact ev_refl _ _ | assumption | apply dropChFrame_ev | apply levelUp_ev | apply noBufferRecord_ev
          | apply putChFrame_ev | apply settle_ev | refine ev_ite ?_ ?_ | refine ev_fst (by assumption) ?_
          | refine ev_snd (by assumption) ?_)
      | (show sub _ _ = true; rfl) | (show List.contains _ _ = true) | dsimp only | split

theorem refuseTake_ev (hF : sub [.regs, .queues, .readPorts, .hostPorts, .svcStats, .jnl, .outs, .chans, .out] H = true) (h :
    Evolves H s0 s) (c : Nat) (serial : Nat) : Evolves H s0 (refuseTake c serial s) := by
  refine ev_mono hF h ?_
  unfold refuseTake
  repeat' first
      | (with_reducible first
          | exact ev_refl _ _ | assumption | apply dropChFrame_ev | apply levelDown_ev | apply settleState_ev
          | apply noBufferRecord_ev | apply putChFrame_ev | apply endReplay_ev | apply lateLoss_ev | apply seamLoss_ev
          | refine ev_ite ?_ ?_ | refine ev_fst (by assumption) ?_ | refine ev_snd (by assumption) ?_)
      | (show sub _ _ = true; rfl) | (show List.contains _ _ = true) | dsimp only | split

theorem askRing_ev (hF : sub [.regs, .queues, .readPorts, .hostPorts, .svcStats, .jnl, .chans, .out] H = true) (h : Evolves H s0
    s) (c : Nat) (d : DmaSet) (ci : Nat) : Evolves H s0 (askRing c d ci s) := by
  refine ev_mono hF h ?_
  unfold askRing
  repeat' first
      | (with_reducible first
          | exact ev_refl _ _ | assumption | apply setChan_ev | apply ask_ev | refine ev_ite ?_ ?_
          | refine ev_fst (by assumption) ?_ | refine ev_snd (by assumption) ?_)
      | (show sub _ _ = true; rfl) | (show List.contains _ _ = true; rfl)

theorem tryTake_ev (hF : sub [.regs, .queues, .readPorts, .hostPorts, .svcStats, .jnl, .chans, .out] H = true) (h : Evolves H s0
    s) (c : Nat) (serial : Nat) (lim : Nat) : Evolves H s0 (tryTake c serial lim s).1 := by
  refine ev_mono hF h ?_
  unfold tryTake
  repeat' first
      | (with_reducible first
          | exact ev_refl _ _ | assumption | apply wr_ev | apply putSet_ev | apply settleState_ev | apply putChFrame_ev
          | apply askRing_ev | refine ev_ite ?_ ?_ | refine ev_fst (by assumption) ?_ | refine ev_snd (by assumption) ?_)
      | (show sub _ _ = true; rfl) | (show List.contains _ _ = true) | dsimp only | split

theorem chanBegin_ev (hF : sub [.chans] H = true) (h : Evolves H s0 s) (c : Nat) (serial : Nat) (o : Nat) (foot : Nat) (pitch :
    Nat) (listMax : Nat) (attr : Nat) : Evolves H s0 (chanBegin c serial o foot pitch listMax attr s) := by
  refine ev_mono hF h ?_
  unfold chanBegin
  repeat' first
      | (with_reducible first
          | exact ev_refl _ _ | assumption | apply setChan_ev | refine ev_ite ?_ ?_ | refine ev_fst (by assumption) ?_
          | refine ev_snd (by assumption) ?_)
      | (show sub _ _ = true; rfl) | (show List.contains _ _ = true; rfl)

theorem chanLine_ev (hF : sub [.regs, .queues, .readPorts, .hostPorts, .svcStats, .jnl, .outs, .chans, .out] H = true) (h :
    Evolves H s0 s) (c : Nat) (serial : Nat) (j : Nat) (bytes : List Nat) : Evolves H s0 (chanLine c serial j bytes s).1 := by
  refine ev_mono hF h ?_
  unfold chanLine
  repeat' first
      | (with_reducible first
          | exact ev_refl _ _ | assumption | apply wr_ev | apply inc_ev | apply recordError_ev | apply levelUp_ev
          | apply putChFrame_ev | apply settle_ev | refine ev_ite ?_ ?_ | refine ev_fst (by assumption) ?_
          | refine ev_snd (by assumption) ?_)
      | (show sub _ _ = true; rfl) | (show List.contains _ _ = true) | dsimp only | split

end Sys2Proof.Machine
end

