-- ==== Sys2Proof/Laws/EvHost.lean ====
section
/-! SUPPORT. What each function of Machine/Host.lean changes: one lemma per function, its footprint first. -/

namespace Sys2Proof.Machine
open Sys2Proof

set_option linter.unusedTactic false
set_option linter.unreachableTactic false
set_option linter.unusedVariables false

variable {H : List StateField} {s0 s sNext : State}

theorem abortedRecord_ev (hF : sub [.regs, .queues, .readPorts, .svcStats, .jnl, .chans, .out] H = true) (h : Evolves H s0 s) (c
    : Nat) (b : Nat × Nat × Nat × Nat) : Evolves H s0 (abortedRecord c s b) := by
  refine ev_mono hF h ?_
  unfold abortedRecord
  repeat' first
      | (with_reducible first
          | exact ev_refl _ _ | assumption | apply writeRecord_ev | refine ev_ite ?_ ?_ | refine ev_fst (by assumption) ?_
          | refine ev_snd (by assumption) ?_)
      | (show sub _ _ = true; rfl) | (show List.contains _ _ = true) | dsimp only | split

theorem setHold_ev (hF : sub [.holds] H = true) (h : Evolves H s0 s) (c : Nat) (x : HoldSt) : Evolves H s0 (setHold c x s) := by
  refine ev_mono hF h ?_
  unfold setHold
  repeat' first
      | (with_reducible first
          | exact ev_refl _ _ | assumption | refine ev_ite ?_ ?_ | refine ev_fst (by assumption) ?_
          | refine ev_snd (by assumption) ?_)
      | (show sub _ _ = true) | (show List.contains _ _ = true; rfl) | dsimp only | split | (with_reducible apply ev_holds)

theorem doAbort_ev (hF : sub [.regs, .queues, .readPorts, .hostPorts, .svcStats, .jnl, .chans, .out] H = true) (h : Evolves H s0
    s) (c : Nat) : Evolves H s0 (doAbort c s) := by
  refine ev_mono hF h ?_
  unfold doAbort
  repeat' first
      | (with_reducible first
          | exact ev_refl _ _ | assumption | apply wr_ev | apply abortedRecord_ev | apply takeSet_ev | apply scrapFrames_ev
          | refine ev_ite ?_ ?_ | (refine ev_foldl ?_ ?_; rotate_left; intro _ _ _) | refine ev_fst (by assumption) ?_
          | refine ev_snd (by assumption) ?_)
      | (show sub _ _ = true; rfl) | (show List.contains _ _ = true; rfl)

theorem haltedRecord_ev (hF : sub [.regs, .queues, .readPorts, .hostPorts, .svcStats, .jnl, .chans, .out] H = true) (h : Evolves
    H s0 s) (c : Nat) (ab : Nat × Nat × Nat × Nat) : Evolves H s0 (haltedRecord c s ab) := by
  refine ev_mono hF h ?_
  unfold haltedRecord
  repeat' first
      | (with_reducible first
          | exact ev_refl _ _ | assumption | apply lostRecord_ev | apply setChan_ev | apply putSet_ev | apply writeRecord_ev
          | apply issueRead_ev | refine ev_ite ?_ ?_ | refine ev_fst (by assumption) ?_ | refine ev_snd (by assumption) ?_)
      | (show sub _ _ = true; rfl) | (show List.contains _ _ = true) | dsimp only | split

theorem resume_ev (hF : sub [.regs, .queues, .readPorts, .hostPorts, .svcStats, .jnl, .chans, .out] H = true) (h : Evolves H s0
    s) (c : Nat) : Evolves H s0 (resume c s) := by
  refine ev_mono hF h ?_
  unfold resume
  repeat' first
      | (with_reducible first
          | exact ev_refl _ _ | assumption | apply wr_ev | apply lostRecord_ev | apply setChan_ev | apply takeSet_ev
          | apply halt_ev | apply haltedRecord_ev | refine ev_ite ?_ ?_ | (refine ev_foldl ?_ ?_; rotate_left; intro _ _ _)
          | refine ev_fst (by assumption) ?_ | refine ev_snd (by assumption) ?_)
      | (show sub _ _ = true; rfl) | (show List.contains _ _ = true; rfl)

theorem doStart_ev (hF : sub [.regs, .queues, .readPorts, .hostPorts, .svcStats, .jnl, .chans, .out] H = true) (h : Evolves H s0
    s) (c : Nat) : Evolves H s0 (doStart c s) := by
  refine ev_mono hF h ?_
  unfold doStart
  repeat' first
      | (with_reducible first
          | exact ev_refl _ _ | assumption | apply wr_ev | apply takeSet_ev | apply resume_ev | refine ev_ite ?_ ?_
          | refine ev_fst (by assumption) ?_ | refine ev_snd (by assumption) ?_)
      | (show sub _ _ = true; rfl) | (show List.contains _ _ = true; rfl)

theorem doStop_ev (hF : sub [.regs] H = true) (h : Evolves H s0 s) (c : Nat) : Evolves H s0 (doStop c s) := by
  refine ev_mono hF h ?_
  unfold doStop
  repeat' first
      | (with_reducible first
          | exact ev_refl _ _ | assumption | apply wr_ev | apply settleState_ev | refine ev_ite ?_ ?_
          | refine ev_fst (by assumption) ?_ | refine ev_snd (by assumption) ?_)
      | (show sub _ _ = true; rfl) | (show List.contains _ _ = true; rfl)

theorem rejectWrite_ev (hF : sub [.regs, .queues, .readPorts, .svcStats, .jnl] H = true) (h : Evolves H s0 s) (r : RF) (c : Nat)
    : Evolves H s0 (rejectWrite r c s) := by
  refine ev_mono hF h ?_
  unfold rejectWrite
  repeat' first
      | (with_reducible first
          | exact ev_refl _ _ | assumption | apply recordError_ev | refine ev_ite ?_ ?_ | refine ev_fst (by assumption) ?_
          | refine ev_snd (by assumption) ?_)
      | (show sub _ _ = true; rfl) | (show List.contains _ _ = true; rfl)

theorem doArm_ev (hF : sub [.regs, .queues, .readPorts, .svcStats, .jnl, .chans] H = true) (h : Evolves H s0 s) (c : Nat) (seq :
    Nat) : Evolves H s0 (doArm c seq s) := by
  refine ev_mono hF h ?_
  unfold doArm
  repeat' first
      | (with_reducible first
          | exact ev_refl _ _ | assumption | apply wr_ev | apply setChan_ev | apply rejectWrite_ev | refine ev_ite ?_ ?_
          | refine ev_fst (by assumption) ?_ | refine ev_snd (by assumption) ?_)
      | (show sub _ _ = true; rfl) | (show List.contains _ _ = true; rfl)

theorem doCplCiWrite_ev (hF : sub [.regs, .queues, .readPorts, .svcStats, .jnl] H = true) (h : Evolves H s0 s) (c : Nat) (v :
    Nat) : Evolves H s0 (doCplCiWrite c v s) := by
  refine ev_mono hF h ?_
  unfold doCplCiWrite
  repeat' first
      | (with_reducible first
          | exact ev_refl _ _ | assumption | apply wr_ev | apply rejectWrite_ev | refine ev_ite ?_ ?_
          | refine ev_fst (by assumption) ?_ | refine ev_snd (by assumption) ?_)
      | (show sub _ _ = true; rfl) | (show List.contains _ _ = true) | dsimp only | split

theorem doDisarm_ev (hF : sub [.regs, .chans] H = true) (h : Evolves H s0 s) (c : Nat) : Evolves H s0 (doDisarm c s) := by
  refine ev_mono hF h ?_
  unfold doDisarm
  repeat' first
      | (with_reducible first
          | exact ev_refl _ _ | assumption | apply wr_ev | apply setChan_ev | refine ev_ite ?_ ?_
          | refine ev_fst (by assumption) ?_ | refine ev_snd (by assumption) ?_)
      | (show sub _ _ = true; rfl) | (show List.contains _ _ = true; rfl)

theorem doPiWrite_ev (hF : sub [.regs, .queues, .readPorts, .svcStats, .jnl] H = true) (h : Evolves H s0 s) (c : Nat) (v : Nat)
    : Evolves H s0 (doPiWrite c v s) := by
  refine ev_mono hF h ?_
  unfold doPiWrite
  repeat' first
      | (with_reducible first
          | exact ev_refl _ _ | assumption | apply wr_ev | apply rejectWrite_ev | refine ev_ite ?_ ?_
          | refine ev_fst (by assumption) ?_ | refine ev_snd (by assumption) ?_)
      | (show sub _ _ = true; rfl) | (show List.contains _ _ = true) | dsimp only | split

theorem feedFrame_ev (hF : sub [.regs, .queues, .readPorts, .hostPorts, .svcStats, .jnl, .outs, .chans, .out] H = true) (h :
    Evolves H s0 s) (c : Nat) (serial : Nat) (x2 : Nat) : Evolves H s0 (feedFrame c serial x2 s) := by
  refine ev_mono hF h ?_
  clear h hF
  suffices key : ∀ s0 : State, Evolves [.regs, .queues, .readPorts, .hostPorts, .svcStats, .jnl, .outs, .chans, .out] s0 s →
      Evolves [.regs, .queues, .readPorts, .hostPorts, .svcStats, .jnl, .outs, .chans, .out] s0 (feedFrame c serial x2 s) from
      key s (ev_refl _ s)
  fun_induction feedFrame c serial x2 s <;> intro s0 h <;> repeat' first
      | (with_reducible first
          | exact ev_refl _ _ | assumption | apply_assumption -exfalso -symm | apply levelUp_ev | apply putChFrame_ev
          | apply settle_ev | (refine ev_foldl ?_ ?_; rotate_left; intro _ _ _)
          | (refine ev_foldl_fst ?_ ?_; rotate_left; intro _ _ _ _) | (refine ev_foldl_snd ?_ ?_; rotate_left; intro _ _ _ _))
      | (show sub _ _ = true; rfl) | (show List.contains _ _ = true; rfl)

theorem feedReplay_ev (hF : sub [.regs, .queues, .readPorts, .hostPorts, .svcStats, .jnl, .outs, .chans, .out] H = true) (h :
    Evolves H s0 s) (p : Nat) : Evolves H s0 (feedReplay p s) := by
  refine ev_mono hF h ?_
  unfold feedReplay
  repeat' first
      | (with_reducible first
          | exact ev_refl _ _ | assumption | apply feedFrame_ev | refine ev_ite ?_ ?_
          | (refine ev_foldl ?_ ?_; rotate_left; intro _ _ _) | refine ev_fst (by assumption) ?_
          | refine ev_snd (by assumption) ?_)
      | (show sub _ _ = true; rfl) | (show List.contains _ _ = true) | dsimp only | split

theorem doReplay_ev (hF : sub [.regs, .queues, .readPorts, .hostPorts, .svcStats, .jnl, .outs, .nextOut, .chans, .out] H = true)
    (h : Evolves H s0 s) (p : Nat) (v : Nat) : Evolves H s0 (doReplay p v s) := by
  refine ev_mono hF h ?_
  unfold doReplay
  repeat' first
      | (with_reducible first
          | exact ev_refl _ _ | assumption | apply wr_ev | apply setChan_ev | apply setHostPort_ev | apply endReplay_ev
          | apply feedReplay_ev | apply refuseTake_ev | apply tryTake_ev | refine ev_ite ?_ ?_
          | refine ev_fst (by assumption) ?_ | refine ev_snd (by assumption) ?_)
      | (show sub _ _ = true; rfl) | (show List.contains _ _ = true; rfl) | dsimp only | split
      | (with_reducible apply ev_nextOut)

theorem flushVectors_ev (hF : sub [.regs, .queues, .readPorts, .svcStats, .jnl, .out] H = true) (h : Evolves H s0 s) (p : Nat) :
    Evolves H s0 (flushVectors p s) := by
  refine ev_mono hF h ?_
  unfold flushVectors
  repeat' first
      | (with_reducible first
          | exact ev_refl _ _ | assumption | apply sendMsix_ev | refine ev_ite ?_ ?_
          | (refine ev_foldl ?_ ?_; rotate_left; intro _ _ _) | refine ev_fst (by assumption) ?_
          | refine ev_snd (by assumption) ?_)
      | (show sub _ _ = true; rfl) | (show List.contains _ _ = true; rfl)

theorem doVectorUnmask_ev (hF : sub [.regs, .queues, .readPorts, .hostPorts, .svcStats, .jnl, .out] H = true) (h : Evolves H s0
    s) (p : Nat) (v : Nat) : Evolves H s0 (doVectorUnmask p v s) := by
  refine ev_mono hF h ?_
  unfold doVectorUnmask
  repeat' first
      | (with_reducible first
          | exact ev_refl _ _ | assumption | apply wr_ev | apply setHostPort_ev | apply flushVectors_ev | refine ev_ite ?_ ?_
          | refine ev_fst (by assumption) ?_ | refine ev_snd (by assumption) ?_)
      | (show sub _ _ = true; rfl) | (show List.contains _ _ = true; rfl)

theorem burst_ev (hF : sub [.regs, .queues, .readPorts, .hostPorts, .svcStats, .jnl, .outs, .chans, .out] H = true) (h : Evolves
    H s0 s) (c : Nat) (a : Nat) (n : Nat) : Evolves H s0 (burst c a n s) := by
  refine ev_mono hF h ?_
  unfold burst
  repeat' first
      | (with_reducible first
          | exact ev_refl _ _ | assumption | apply setChan_ev | apply writeHost_ev | apply setHostPort_ev | apply levelDown_ev
          | apply putChFrame_ev | apply ask_ev | apply settle_ev | refine ev_ite ?_ ?_ | refine ev_fst (by assumption) ?_
          | refine ev_snd (by assumption) ?_)
      | (show sub _ _ = true; rfl) | (show List.contains _ _ = true) | dsimp only | split

theorem completeFrame_ev (hF : sub [.regs, .queues, .readPorts, .hostPorts, .svcStats, .jnl, .outs, .chans, .out] H = true) (h :
    Evolves H s0 s) (c : Nat) (f : ChFrame) (b : Buf) : Evolves H s0 (completeFrame c f b s) := by
  refine ev_mono hF h ?_
  unfold completeFrame
  repeat' first
      | (with_reducible first
          | exact ev_refl _ _ | assumption | apply setChan_ev | apply endBuffer_ev | apply settle_ev | refine ev_ite ?_ ?_
          | refine ev_fst (by assumption) ?_ | refine ev_snd (by assumption) ?_)
      | (show sub _ _ = true; rfl) | (show List.contains _ _ = true; rfl)

theorem doBufferTake_ev (hF : sub [.regs, .queues, .readPorts, .hostPorts, .svcStats, .jnl, .outs, .chans, .out] H = true) (h :
    Evolves H s0 s) (c : Nat) : Evolves H s0 (doBufferTake c s) := by
  refine ev_mono hF h ?_
  unfold doBufferTake
  repeat' first
      | (with_reducible first
          | exact ev_refl _ _ | assumption | apply refuseTake_ev | apply tryTake_ev | refine ev_ite ?_ ?_
          | refine ev_fst (by assumption) ?_ | refine ev_snd (by assumption) ?_)
      | (show sub _ _ = true; rfl) | (show List.contains _ _ = true) | dsimp only | split

theorem doCompletionTimeout_ev (hF : sub [.regs, .queues, .readPorts, .hostPorts, .svcStats, .jnl, .chans, .out] H = true) (h :
    Evolves H s0 s) (c : Nat) (dir : Nat) (cause : Nat) : Evolves H s0 (doCompletionTimeout c dir cause s) := by
  refine ev_mono hF h ?_
  unfold doCompletionTimeout
  repeat' first
      | (with_reducible first
          | exact ev_refl _ _ | assumption | apply halt_ev | refine ev_ite ?_ ?_ | refine ev_fst (by assumption) ?_
          | refine ev_snd (by assumption) ?_)
      | (show sub _ _ = true; rfl) | (show List.contains _ _ = true) | dsimp only | split

theorem idleChan_ev (hF : sub [.regs, .queues, .readPorts, .hostPorts, .svcStats, .jnl, .chans, .out] H = true) (h : Evolves H
    s0 s) (c : Nat) : Evolves H s0 (idleChan s c) := by
  refine ev_mono hF h ?_
  unfold idleChan
  repeat' first
      | (with_reducible first
          | exact ev_refl _ _ | assumption | apply wr_ev | apply setChan_ev | apply scrapFrames_ev | refine ev_ite ?_ ?_
          | refine ev_fst (by assumption) ?_ | refine ev_snd (by assumption) ?_)
      | (show sub _ _ = true; rfl) | (show List.contains _ _ = true; rfl)

theorem haltPort_ev (hF : sub [.regs, .queues, .readPorts, .hostPorts, .svcStats, .jnl, .chans, .out] H = true) (h : Evolves H
    s0 s) (p : Nat) (cause : Nat) : Evolves H s0 (haltPort p cause s) := by
  refine ev_mono hF h ?_
  unfold haltPort
  repeat' first
      | (with_reducible first
          | exact ev_refl _ _ | assumption | apply addSat_ev | apply halt_ev | refine ev_ite ?_ ?_
          | (refine ev_foldl ?_ ?_; rotate_left; intro _ _ _) | refine ev_fst (by assumption) ?_
          | refine ev_snd (by assumption) ?_)
      | (show sub _ _ = true; rfl) | (show List.contains _ _ = true; rfl)

theorem dropLink_ev (hF : sub [.regs, .queues, .readPorts, .hostPorts, .svcStats, .jnl, .chans, .out] H = true) (h : Evolves H
    s0 s) (p : Nat) : Evolves H s0 (dropLink p s) := by
  refine ev_mono hF h ?_
  unfold dropLink
  repeat' first
      | (with_reducible first
          | exact ev_refl _ _ | assumption | apply wr_ev | apply recordError_ev | apply setHostPort_ev | apply haltPort_ev
          | refine ev_ite ?_ ?_ | refine ev_fst (by assumption) ?_ | refine ev_snd (by assumption) ?_)
      | (show sub _ _ = true; rfl) | (show List.contains _ _ = true; rfl)

theorem doEgressBurst_ev (hF : sub [.regs, .queues, .readPorts, .hostPorts, .svcStats, .jnl, .outs, .chans, .out] H = true) (h :
    Evolves H s0 s) (p : Nat) : Evolves H s0 (doEgressBurst p s) := by
  refine ev_mono hF h ?_
  unfold doEgressBurst
  repeat' first
      | (with_reducible first
          | exact ev_refl _ _ | assumption | apply feedReplay_ev | apply burst_ev | refine ev_ite ?_ ?_
          | refine ev_fst (by assumption) ?_ | refine ev_snd (by assumption) ?_)
      | (show sub _ _ = true; rfl) | (show List.contains _ _ = true) | dsimp only | split

theorem doFlushReadComplete_ev (hF : sub [.regs, .queues, .readPorts, .hostPorts, .svcStats, .jnl, .outs, .chans, .out] H =
    true) (h : Evolves H s0 s) (c : Nat) : Evolves H s0 (doFlushReadComplete c s) := by
  refine ev_mono hF h ?_
  unfold doFlushReadComplete
  repeat' first
      | (with_reducible first
          | exact ev_refl _ _ | assumption | apply setChan_ev | apply completeFrame_ev | refine ev_ite ?_ ?_
          | refine ev_fst (by assumption) ?_ | refine ev_snd (by assumption) ?_)
      | (show sub _ _ = true; rfl) | (show List.contains _ _ = true) | dsimp only | split

theorem doHostLinkTrained_ev (hF : sub [.regs, .queues, .readPorts, .hostPorts, .svcStats, .jnl] H = true) (h : Evolves H s0 s)
    (p : Nat) (rate : Nat) (width : Nat) (flit : Bool) : Evolves H s0 (doHostLinkTrained p rate width flit s) := by
  refine ev_mono hF h ?_
  unfold doHostLinkTrained
  repeat' first
      | (with_reducible first
          | exact ev_refl _ _ | assumption | apply wr_ev | apply recordError_ev | apply setHostPort_ev | refine ev_ite ?_ ?_
          | refine ev_fst (by assumption) ?_ | refine ev_snd (by assumption) ?_)
      | (show sub _ _ = true; rfl) | (show List.contains _ _ = true; rfl)

theorem doListReadComplete_ev (hF : sub [.regs, .queues, .readPorts, .hostPorts, .svcStats, .jnl, .outs, .chans, .out] H = true)
    (h : Evolves H s0 s) (c : Nat) (es : List (Nat × Nat × Nat)) : Evolves H s0 (doListReadComplete c es s) := by
  refine ev_mono hF h ?_
  unfold doListReadComplete
  repeat' first
      | (with_reducible first
          | exact ev_refl _ _ | assumption | apply setChan_ev | apply putChFrame_ev | apply settle_ev | refine ev_ite ?_ ?_
          | refine ev_fst (by assumption) ?_ | refine ev_snd (by assumption) ?_)
      | (show sub _ _ = true; rfl) | (show List.contains _ _ = true) | dsimp only | split

theorem smallBuffer_ev (hF : sub [.regs, .queues, .readPorts, .hostPorts, .svcStats, .jnl, .outs, .chans, .out] H = true) (h :
    Evolves H s0 s) (c : Nat) (f : ChFrame) (d : DmaSet) (lim : Nat) (cookie : Nat) : Evolves H s0 (smallBuffer c f d lim cookie
    s) := by
  refine ev_mono hF h ?_
  unfold smallBuffer
  repeat' first
      | (with_reducible first
          | exact ev_refl _ _ | assumption | apply recordError_ev | apply writeRecord_ev | apply refuseTake_ev
          | apply tryTake_ev | refine ev_ite ?_ ?_ | refine ev_fst (by assumption) ?_ | refine ev_snd (by assumption) ?_)
      | (show sub _ _ = true; rfl) | (show List.contains _ _ = true) | dsimp only | split

theorem doRingReadComplete_ev (hF : sub [.regs, .queues, .readPorts, .hostPorts, .svcStats, .jnl, .outs, .chans, .out] H = true)
    (h : Evolves H s0 s) (c : Nat) (list : Nat) (length : Nat) (cookie : Nat) : Evolves H s0 (doRingReadComplete c list length
    cookie s) := by
  refine ev_mono hF h ?_
  unfold doRingReadComplete
  repeat' first
      | (with_reducible first
          | exact ev_refl _ _ | assumption | apply setChan_ev | apply putChFrame_ev | apply halt_ev | apply settle_ev
          | apply smallBuffer_ev | refine ev_ite ?_ ?_ | refine ev_fst (by assumption) ?_ | refine ev_snd (by assumption) ?_)
      | (show sub _ _ = true; rfl) | (show List.contains _ _ = true) | dsimp only | split

theorem execAbort_ev (hF : sub [.regs, .queues, .readPorts, .hostPorts, .svcStats, .jnl, .chans, .out] H = true) (h : Evolves H
    s0 s) (c : Nat) (e : execAbort c s = .next sNext) : Evolves H s0 sNext := by
  refine ev_mono hF h ?_
  unfold execAbort at e
  cases e
  repeat' first
      | (with_reducible first
          | exact ev_refl _ _ | assumption | apply doAbort_ev | refine ev_ite ?_ ?_ | refine ev_fst (by assumption) ?_
          | refine ev_snd (by assumption) ?_)
      | (show sub _ _ = true; rfl) | (show List.contains _ _ = true; rfl)

theorem execArm_ev (hF : sub [.regs, .queues, .readPorts, .svcStats, .jnl, .chans] H = true) (h : Evolves H s0 s) (c : Nat) (seq
    : Nat) (e : execArm c seq s = .next sNext) : Evolves H s0 sNext := by
  refine ev_mono hF h ?_
  unfold execArm at e
  cases e
  repeat' first
      | (with_reducible first
          | exact ev_refl _ _ | assumption | apply doArm_ev | refine ev_ite ?_ ?_ | refine ev_fst (by assumption) ?_
          | refine ev_snd (by assumption) ?_)
      | (show sub _ _ = true; rfl) | (show List.contains _ _ = true; rfl)

theorem execBufferTake_ev (hF : sub [.regs, .queues, .readPorts, .hostPorts, .svcStats, .jnl, .outs, .chans, .out] H = true) (h
    : Evolves H s0 s) (c : Nat) (e : execBufferTake c s = .next sNext) : Evolves H s0 sNext := by
  refine ev_mono hF h ?_
  unfold execBufferTake at e
  cases e
  repeat' first
      | (with_reducible first
          | exact ev_refl _ _ | assumption | apply doBufferTake_ev | refine ev_ite ?_ ?_ | refine ev_fst (by assumption) ?_
          | refine ev_snd (by assumption) ?_)
      | (show sub _ _ = true; rfl) | (show List.contains _ _ = true; rfl)

theorem execBusMasterDisable_ev (hF : sub [.regs, .queues, .readPorts, .hostPorts, .svcStats, .jnl, .chans, .out] H = true) (h :
    Evolves H s0 s) (p : Nat) (e : execBusMasterDisable p s = .next sNext) : Evolves H s0 sNext := by
  refine ev_mono hF h ?_
  unfold execBusMasterDisable at e
  cases e
  repeat' first
      | (with_reducible first
          | exact ev_refl _ _ | assumption | apply wr_ev | apply haltPort_ev | refine ev_ite ?_ ?_
          | refine ev_fst (by assumption) ?_ | refine ev_snd (by assumption) ?_)
      | (show sub _ _ = true; rfl) | (show List.contains _ _ = true; rfl)

theorem execBusMasterEnable_ev (hF : sub [.regs, .hostPorts] H = true) (h : Evolves H s0 s) (p : Nat) (payload : Nat) (e :
    execBusMasterEnable p payload s = .next sNext) : Evolves H s0 sNext := by
  refine ev_mono hF h ?_
  unfold execBusMasterEnable at e
  cases e
  repeat' first
      | (with_reducible first
          | exact ev_refl _ _ | assumption | apply wr_ev | apply setHostPort_ev | refine ev_ite ?_ ?_
          | refine ev_fst (by assumption) ?_ | refine ev_snd (by assumption) ?_)
      | (show sub _ _ = true; rfl) | (show List.contains _ _ = true; rfl)

theorem execCompletionTimeout_ev (hF : sub [.regs, .queues, .readPorts, .hostPorts, .svcStats, .jnl, .chans, .out] H = true) (h
    : Evolves H s0 s) (c : Nat) (dir : Nat) (cause : Nat) (e : execCompletionTimeout c dir cause s = .next sNext) : Evolves H s0
    sNext := by
  refine ev_mono hF h ?_
  unfold execCompletionTimeout at e
  cases e
  repeat' first
      | (with_reducible first
          | exact ev_refl _ _ | assumption | apply doCompletionTimeout_ev | refine ev_ite ?_ ?_
          | refine ev_fst (by assumption) ?_ | refine ev_snd (by assumption) ?_)
      | (show sub _ _ = true; rfl) | (show List.contains _ _ = true; rfl)

theorem execCplCiWrite_ev (hF : sub [.regs, .queues, .readPorts, .svcStats, .jnl] H = true) (h : Evolves H s0 s) (c : Nat) (v :
    Nat) (e : execCplCiWrite c v s = .next sNext) : Evolves H s0 sNext := by
  refine ev_mono hF h ?_
  unfold execCplCiWrite at e
  cases e
  repeat' first
      | (with_reducible first
          | exact ev_refl _ _ | assumption | apply doCplCiWrite_ev | refine ev_ite ?_ ?_ | refine ev_fst (by assumption) ?_
          | refine ev_snd (by assumption) ?_)
      | (show sub _ _ = true; rfl) | (show List.contains _ _ = true; rfl)

theorem execD3hotEntry_ev (hF : sub [.regs, .queues, .readPorts, .hostPorts, .svcStats, .jnl, .chans, .out] H = true) (h :
    Evolves H s0 s) (p : Nat) (e : execD3hotEntry p s = .next sNext) : Evolves H s0 sNext := by
  refine ev_mono hF h ?_
  unfold execD3hotEntry at e
  cases e
  repeat' first
      | (with_reducible first
          | exact ev_refl _ _ | assumption | apply wr_ev | apply haltPort_ev | refine ev_ite ?_ ?_
          | refine ev_fst (by assumption) ?_ | refine ev_snd (by assumption) ?_)
      | (show sub _ _ = true; rfl) | (show List.contains _ _ = true; rfl)

theorem resetMsix_ev (hF : sub [.regs, .hostPorts] H = true) (h : Evolves H s0 s) (p : Nat) : Evolves H s0 (resetMsix p s) := by
  refine ev_mono hF h ?_
  unfold resetMsix
  repeat' first
      | (with_reducible first
          | exact ev_refl _ _ | assumption | apply wr_ev | apply setHostPort_ev | refine ev_ite ?_ ?_
          | (refine ev_foldl ?_ ?_; rotate_left; intro _ _ _) | refine ev_fst (by assumption) ?_
          | refine ev_snd (by assumption) ?_)
      | (show sub _ _ = true; rfl) | (show List.contains _ _ = true; rfl)

theorem resetFunction_ev (hF : sub [.regs, .queues, .readPorts, .hostPorts, .svcStats, .jnl, .chans, .out] H = true) (h :
    Evolves H s0 s) (p : Nat) : Evolves H s0 (resetFunction p s) := by
  refine ev_mono hF h ?_
  unfold resetFunction
  repeat' first
      | (with_reducible first
          | exact ev_refl _ _ | assumption | apply wr_ev | apply addSat_ev | apply idleChan_ev | apply resetMsix_ev
          | apply resetTarget_ev | refine ev_ite ?_ ?_ | (refine ev_foldl ?_ ?_; rotate_left; intro _ _ _)
          | refine ev_fst (by assumption) ?_ | refine ev_snd (by assumption) ?_)
      | (show sub _ _ = true; rfl) | (show List.contains _ _ = true; rfl)

theorem execD3hotExit_ev (hF : sub [.regs, .queues, .readPorts, .hostPorts, .svcStats, .jnl, .chans, .out] H = true) (h :
    Evolves H s0 s) (p : Nat) (e : execD3hotExit p s = .next sNext) : Evolves H s0 sNext := by
  refine ev_mono hF h ?_
  unfold execD3hotExit at e
  cases e
  repeat' first
      | (with_reducible first
          | exact ev_refl _ _ | assumption | apply resetFunction_ev | refine ev_ite ?_ ?_ | refine ev_fst (by assumption) ?_
          | refine ev_snd (by assumption) ?_)
      | (show sub _ _ = true; rfl) | (show List.contains _ _ = true; rfl)

theorem execDisarm_ev (hF : sub [.regs, .chans] H = true) (h : Evolves H s0 s) (c : Nat) (e : execDisarm c s = .next sNext) :
    Evolves H s0 sNext := by
  refine ev_mono hF h ?_
  unfold execDisarm at e
  cases e
  repeat' first
      | (with_reducible first
          | exact ev_refl _ _ | assumption | apply doDisarm_ev | refine ev_ite ?_ ?_ | refine ev_fst (by assumption) ?_
          | refine ev_snd (by assumption) ?_)
      | (show sub _ _ = true; rfl) | (show List.contains _ _ = true; rfl)

theorem execEgressBurst_ev (hF : sub [.regs, .queues, .readPorts, .hostPorts, .svcStats, .jnl, .outs, .chans, .out] H = true) (h
    : Evolves H s0 s) (p : Nat) (e : execEgressBurst p s = .next sNext) : Evolves H s0 sNext := by
  refine ev_mono hF h ?_
  unfold execEgressBurst at e
  cases e
  repeat' first
      | (with_reducible first
          | exact ev_refl _ _ | assumption | apply doEgressBurst_ev | refine ev_ite ?_ ?_ | refine ev_fst (by assumption) ?_
          | refine ev_snd (by assumption) ?_)
      | (show sub _ _ = true; rfl) | (show List.contains _ _ = true; rfl)

theorem execFlr_ev (hF : sub [.regs, .queues, .readPorts, .hostPorts, .svcStats, .jnl, .chans, .out] H = true) (h : Evolves H s0
    s) (p : Nat) (e : execFlr p s = .next sNext) : Evolves H s0 sNext := by
  refine ev_mono hF h ?_
  unfold execFlr at e
  cases e
  repeat' first
      | (with_reducible first
          | exact ev_refl _ _ | assumption | apply wr_ev | apply resetFunction_ev | refine ev_ite ?_ ?_
          | refine ev_fst (by assumption) ?_ | refine ev_snd (by assumption) ?_)
      | (show sub _ _ = true; rfl) | (show List.contains _ _ = true; rfl)

theorem execFlushReadComplete_ev (hF : sub [.regs, .queues, .readPorts, .hostPorts, .svcStats, .jnl, .outs, .chans, .out] H =
    true) (h : Evolves H s0 s) (c : Nat) (e : execFlushReadComplete c s = .next sNext) : Evolves H s0 sNext := by
  refine ev_mono hF h ?_
  unfold execFlushReadComplete at e
  cases e
  repeat' first
      | (with_reducible first
          | exact ev_refl _ _ | assumption | apply releaseReads_ev | apply doFlushReadComplete_ev | refine ev_ite ?_ ?_
          | refine ev_fst (by assumption) ?_ | refine ev_snd (by assumption) ?_)
      | (show sub _ _ = true; rfl) | (show List.contains _ _ = true; rfl)

theorem execHostLinkTrained_ev (hF : sub [.regs, .queues, .readPorts, .hostPorts, .svcStats, .jnl] H = true) (h : Evolves H s0
    s) (p : Nat) (rate : Nat) (width : Nat) (flit : Bool) (e : execHostLinkTrained p rate width flit s = .next sNext) : Evolves
    H s0 sNext := by
  refine ev_mono hF h ?_
  unfold execHostLinkTrained at e
  cases e
  repeat' first
      | (with_reducible first
          | exact ev_refl _ _ | assumption | apply doHostLinkTrained_ev | refine ev_ite ?_ ?_ | refine ev_fst (by assumption) ?_
          | refine ev_snd (by assumption) ?_)
      | (show sub _ _ = true; rfl) | (show List.contains _ _ = true; rfl)

theorem execHotReset_ev (hF : sub [.regs, .queues, .readPorts, .hostPorts, .svcStats, .jnl, .chans, .out] H = true) (h : Evolves
    H s0 s) (p : Nat) (e : execHotReset p s = .next sNext) : Evolves H s0 sNext := by
  refine ev_mono hF h ?_
  unfold execHotReset at e
  cases e
  repeat' first
      | (with_reducible first
          | exact ev_refl _ _ | assumption | apply resetFunction_ev | refine ev_ite ?_ ?_ | refine ev_fst (by assumption) ?_
          | refine ev_snd (by assumption) ?_)
      | (show sub _ _ = true; rfl) | (show List.contains _ _ = true; rfl)

theorem execLinkDown_ev (hF : sub [.regs, .queues, .readPorts, .hostPorts, .svcStats, .jnl, .chans, .out] H = true) (h : Evolves
    H s0 s) (p : Nat) (e : execLinkDown p s = .next sNext) : Evolves H s0 sNext := by
  refine ev_mono hF h ?_
  unfold execLinkDown at e
  cases e
  repeat' first
      | (with_reducible first
          | exact ev_refl _ _ | assumption | apply dropLink_ev | refine ev_ite ?_ ?_ | refine ev_fst (by assumption) ?_
          | refine ev_snd (by assumption) ?_)
      | (show sub _ _ = true; rfl) | (show List.contains _ _ = true; rfl)

theorem execListReadComplete_ev (hF : sub [.regs, .queues, .readPorts, .hostPorts, .svcStats, .jnl, .outs, .chans, .out] H =
    true) (h : Evolves H s0 s) (c : Nat) (es : List (Nat × Nat × Nat)) (e : execListReadComplete c es s = .next sNext) : Evolves
    H s0 sNext := by
  refine ev_mono hF h ?_
  unfold execListReadComplete at e
  cases e
  repeat' first
      | (with_reducible first
          | exact ev_refl _ _ | assumption | apply releaseReads_ev | apply doListReadComplete_ev | refine ev_ite ?_ ?_
          | refine ev_fst (by assumption) ?_ | refine ev_snd (by assumption) ?_)
      | (show sub _ _ = true; rfl) | (show List.contains _ _ = true; rfl)

theorem execPcieUncorrectableError_ev (hF : sub [.regs, .queues, .readPorts, .svcStats, .jnl] H = true) (h : Evolves H s0 s) (p
    : Nat) (e : execPcieUncorrectableError p s = .next sNext) : Evolves H s0 sNext := by
  refine ev_mono hF h ?_
  unfold execPcieUncorrectableError at e
  cases e
  repeat' first
      | (with_reducible first
          | exact ev_refl _ _ | assumption | apply recordError_ev | refine ev_ite ?_ ?_ | refine ev_fst (by assumption) ?_
          | refine ev_snd (by assumption) ?_)
      | (show sub _ _ = true; rfl) | (show List.contains _ _ = true; rfl)

theorem execPiWrite_ev (hF : sub [.regs, .queues, .readPorts, .svcStats, .jnl] H = true) (h : Evolves H s0 s) (c : Nat) (v :
    Nat) (e : execPiWrite c v s = .next sNext) : Evolves H s0 sNext := by
  refine ev_mono hF h ?_
  unfold execPiWrite at e
  cases e
  repeat' first
      | (with_reducible first
          | exact ev_refl _ _ | assumption | apply doPiWrite_ev | refine ev_ite ?_ ?_ | refine ev_fst (by assumption) ?_
          | refine ev_snd (by assumption) ?_)
      | (show sub _ _ = true; rfl) | (show List.contains _ _ = true; rfl)

theorem execReplay_ev (hF : sub [.regs, .queues, .readPorts, .hostPorts, .svcStats, .jnl, .outs, .nextOut, .chans, .out] H =
    true) (h : Evolves H s0 s) (p : Nat) (v : Nat) (e : execReplay p v s = .next sNext) : Evolves H s0 sNext := by
  refine ev_mono hF h ?_
  unfold execReplay at e
  cases e
  repeat' first
      | (with_reducible first
          | exact ev_refl _ _ | assumption | apply doReplay_ev | refine ev_ite ?_ ?_ | refine ev_fst (by assumption) ?_
          | refine ev_snd (by assumption) ?_)
      | (show sub _ _ = true; rfl) | (show List.contains _ _ = true; rfl)

theorem execRingReadComplete_ev (hF : sub [.regs, .queues, .readPorts, .hostPorts, .svcStats, .jnl, .outs, .chans, .out] H =
    true) (h : Evolves H s0 s) (c : Nat) (list : Nat) (length : Nat) (cookie : Nat) (e : execRingReadComplete c list length
    cookie s = .next sNext) : Evolves H s0 sNext := by
  refine ev_mono hF h ?_
  unfold execRingReadComplete at e
  cases e
  repeat' first
      | (with_reducible first
          | exact ev_refl _ _ | assumption | apply releaseReads_ev | apply doRingReadComplete_ev | refine ev_ite ?_ ?_
          | refine ev_fst (by assumption) ?_ | refine ev_snd (by assumption) ?_)
      | (show sub _ _ = true; rfl) | (show List.contains _ _ = true; rfl)

theorem execStart_ev (hF : sub [.regs, .queues, .readPorts, .hostPorts, .svcStats, .jnl, .chans, .out] H = true) (h : Evolves H
    s0 s) (c : Nat) (e : execStart c s = .next sNext) : Evolves H s0 sNext := by
  refine ev_mono hF h ?_
  unfold execStart at e
  cases e
  repeat' first
      | (with_reducible first
          | exact ev_refl _ _ | assumption | apply doStart_ev | refine ev_ite ?_ ?_ | refine ev_fst (by assumption) ?_
          | refine ev_snd (by assumption) ?_)
      | (show sub _ _ = true; rfl) | (show List.contains _ _ = true; rfl)

theorem execStop_ev (hF : sub [.regs] H = true) (h : Evolves H s0 s) (c : Nat) (e : execStop c s = .next sNext) : Evolves H s0
    sNext := by
  refine ev_mono hF h ?_
  unfold execStop at e
  cases e
  repeat' first
      | (with_reducible first
          | exact ev_refl _ _ | assumption | apply doStop_ev | refine ev_ite ?_ ?_ | refine ev_fst (by assumption) ?_
          | refine ev_snd (by assumption) ?_)
      | (show sub _ _ = true; rfl) | (show List.contains _ _ = true; rfl)

theorem execVectorUnmask_ev (hF : sub [.regs, .queues, .readPorts, .hostPorts, .svcStats, .jnl, .out] H = true) (h : Evolves H
    s0 s) (p : Nat) (v : Nat) (e : execVectorUnmask p v s = .next sNext) : Evolves H s0 sNext := by
  refine ev_mono hF h ?_
  unfold execVectorUnmask at e
  cases e
  repeat' first
      | (with_reducible first
          | exact ev_refl _ _ | assumption | apply doVectorUnmask_ev | refine ev_ite ?_ ?_ | refine ev_fst (by assumption) ?_
          | refine ev_snd (by assumption) ?_)
      | (show sub _ _ = true; rfl) | (show List.contains _ _ = true; rfl)

end Sys2Proof.Machine
end

