-- ==== Sys2Proof/Laws/EvBasting.lean ====
section
/-! SUPPORT. What each function of Machine/Basting.lean changes: one lemma per function, its footprint first. -/

namespace Sys2Proof.Machine
open Sys2Proof

set_option linter.unusedTactic false
set_option linter.unreachableTactic false
set_option linter.unusedVariables false

variable {H : List StateField} {s0 s sNext : State}

theorem firstSwap_ev (hF : sub [.pins, .regs, .out] H = true) (h : Evolves H s0 s)  : Evolves H s0 (firstSwap s) := by
  refine ev_mono hF h ?_
  unfold firstSwap
  repeat' first
      | (with_reducible first
          | exact ev_refl _ _ | assumption | apply showClocks_ev | apply setPin_ev | refine ev_ite ?_ ?_
          | refine ev_fst (by assumption) ?_ | refine ev_snd (by assumption) ?_)
      | (show sub _ _ = true; rfl) | (show List.contains _ _ = true; rfl) | dsimp only | split | (with_reducible apply ev_pins)

theorem restartHolds_ev (hF : sub [.holds] H = true) (h : Evolves H s0 s) (old : Sparse Word) : Evolves H s0 (restartHolds old
    s) := by
  refine ev_mono hF h ?_
  unfold restartHolds
  repeat' first
      | (with_reducible first
          | exact ev_refl _ _ | assumption | refine ev_ite ?_ ?_ | refine ev_fst (by assumption) ?_
          | refine ev_snd (by assumption) ?_)
      | (show sub _ _ = true) | (show List.contains _ _ = true; rfl) | dsimp only | split | (with_reducible apply ev_holds)

theorem acceptSwap_ev (hF : sub [.pins, .regs, .cfgA, .cfgO, .ldr, .holds, .out] H = true) (h : Evolves H s0 s) (w : Writer)
    (profile : Nat) : Evolves H s0 (acceptSwap w profile s) := by
  refine ev_mono hF h ?_
  unfold acceptSwap
  repeat' first
      | (with_reducible first
          | exact ev_refl _ _ | assumption | apply wr_ev | apply each_ev | apply firstSwap_ev | apply notePeaks_ev
          | apply restartHolds_ev | refine ev_ite ?_ ?_ | refine ev_fst (by assumption) ?_ | refine ev_snd (by assumption) ?_
          | intro _ _ _ | intro _ _)
      | (with_reducible first
          | exact Nat.le_add_right _ _ | exact le_rfl
          | (refine fun (c : State.Canonical _) => ?_; repeat' first | exact c.regs | exact c.cfgB | exact c.cfgA | exact c.cfgO | exact ⟨c.profSets, c.baseSet⟩ | (apply swf_splice; exact Nat.le_add_right _ _)))
      | (show sub _ _ = true; rfl) | (show List.contains _ _ = true; rfl) | dsimp only | split
      | (with_reducible apply ev_cfgA_cfgO_ldr)

theorem applyRetirements_ev (hF : sub [.regs, .cfgB, .liveB, .ldr, .queues, .readPorts, .svcStats, .jnl] H = true) (h : Evolves
    H s0 s)  : Evolves H s0 (applyRetirements s) := by
  refine ev_mono hF h ?_
  unfold applyRetirements
  repeat' first
      | (with_reducible first
          | exact ev_refl _ _ | assumption | apply each_ev | apply bastingWrite_ev | apply tell_ev | refine ev_ite ?_ ?_
          | (refine ev_foldl ?_ ?_; rotate_left; intro _ _ _) | refine ev_fst (by assumption) ?_
          | refine ev_snd (by assumption) ?_ | intro _ _ _ | intro _ _)
      | (show sub _ _ = true; rfl) | (show List.contains _ _ = true; rfl)

theorem reportWrite_ev (hF : sub [.regs, .ldr, .queues, .readPorts, .svcStats, .jnl] H = true) (h : Evolves H s0 s) (a : Nat)
    (cs : List Clamped) : Evolves H s0 (reportWrite a cs s) := by
  refine ev_mono hF h ?_
  unfold reportWrite
  repeat' first
      | (with_reducible first
          | exact ev_refl _ _ | assumption | apply each_ev | apply reportOwn_ev | refine ev_ite ?_ ?_
          | refine ev_fst (by assumption) ?_ | refine ev_snd (by assumption) ?_ | intro _ _ _ | intro _ _)
      | (show sub _ _ = true; rfl) | (show List.contains _ _ = true; rfl)

theorem ownerWrite_ev (hF : sub [.regs, .cfgB, .liveB, .ldr, .queues, .readPorts, .svcStats, .jnl] H = true) (h : Evolves H s0
    s) (a : Nat) (v : Nat) : Evolves H s0 (ownerWrite a v s) := by
  refine ev_mono hF h ?_
  unfold ownerWrite
  repeat' first
      | (with_reducible first
          | exact ev_refl _ _ | assumption | apply bastingWrite_ev | apply reportWrite_ev | refine ev_ite ?_ ?_
          | refine ev_fst (by assumption) ?_ | refine ev_snd (by assumption) ?_)
      | (show sub _ _ = true; rfl) | (show List.contains _ _ = true; rfl)

theorem takeBank_ev (hF : sub [.regs, .ldr] H = true) (h : Evolves H s0 s) (w : Writer) : Evolves H s0 (takeBank w s) := by
  refine ev_mono hF h ?_
  unfold takeBank
  repeat' first
      | (with_reducible first
          | exact ev_refl _ _ | assumption | apply wr_ev | refine ev_ite ?_ ?_ | refine ev_fst (by assumption) ?_
          | refine ev_snd (by assumption) ?_)
      | (with_reducible first
          | exact Nat.le_add_right _ _ | exact le_rfl
          | (refine fun (c : State.Canonical _) => ?_; repeat' first | exact c.regs | exact c.cfgB | exact c.cfgA | exact ⟨c.profSets, c.baseSet⟩ | (apply swf_splice; exact Nat.le_add_right _ _)))
      | (show sub _ _ = true; rfl) | (show List.contains _ _ = true; rfl) | dsimp only | split | (with_reducible apply ev_ldr)

theorem waitBank_ev (hF : sub [.ldr] H = true) (h : Evolves H s0 s) (w : Writer) : Evolves H s0 (waitBank w s) := by
  refine ev_mono hF h ?_
  unfold waitBank
  repeat' first
      | (with_reducible first
          | exact ev_refl _ _ | assumption | refine ev_ite ?_ ?_ | refine ev_fst (by assumption) ?_
          | refine ev_snd (by assumption) ?_)
      | (with_reducible first
          | exact Nat.le_add_right _ _ | exact le_rfl
          | (refine fun (c : State.Canonical _) => ?_; repeat' first | exact c.cfgB | exact c.cfgA | exact ⟨c.profSets, c.baseSet⟩ | (apply swf_splice; exact Nat.le_add_right _ _)))
      | (show sub _ _ = true) | (show List.contains _ _ = true; rfl) | dsimp only | split | (with_reducible apply ev_ldr)

theorem doCfgBastingWrite_ev (hF : sub [.regs, .cfgB, .liveB, .ldr, .queues, .readPorts, .svcStats, .jnl] H = true) (h : Evolves
    H s0 s) (w : Writer) (a : Nat) (v : Nat) : Evolves H s0 (doCfgBastingWrite w a v s) := by
  refine ev_mono hF h ?_
  unfold doCfgBastingWrite
  repeat' first
      | (with_reducible first
          | exact ev_refl _ _ | assumption | apply deny_ev | apply ownerWrite_ev | apply takeBank_ev | apply waitBank_ev
          | refine ev_ite ?_ ?_ | refine ev_fst (by assumption) ?_ | refine ev_snd (by assumption) ?_)
      | (show sub _ _ = true; rfl) | (show List.contains _ _ = true) | dsimp only | split

theorem discardBank_ev (hF : sub [.regs, .cfgB] H = true) (h : Evolves H s0 s)  : Evolves H s0 (discardBank s) := by
  refine ev_mono hF h ?_
  unfold discardBank
  repeat' first
      | (with_reducible first
          | exact ev_refl _ _ | assumption | apply wr_ev | refine ev_ite ?_ ?_ | refine ev_fst (by assumption) ?_
          | refine ev_snd (by assumption) ?_)
      | (with_reducible first
          | exact Nat.le_add_right _ _ | exact le_rfl
          | (refine fun (c : State.Canonical _) => ?_; repeat' first | exact c.regs | exact c.cfgB | exact c.cfgA | (apply swf_splice; exact Nat.le_add_right _ _)))
      | (show sub _ _ = true; rfl) | (show List.contains _ _ = true; rfl) | dsimp only | split | (with_reducible apply ev_cfgB)

theorem replRefused_ev (hF : sub [.regs, .queues, .readPorts, .svcStats, .jnl, .rsv] H = true) (h : Evolves H s0 s)  : Evolves H
    s0 (replRefused s) := by
  refine ev_mono hF h ?_
  unfold replRefused
  repeat' first
      | (with_reducible first
          | exact ev_refl _ _ | assumption | apply recordError_ev | refine ev_ite ?_ ?_ | refine ev_fst (by assumption) ?_
          | refine ev_snd (by assumption) ?_)
      | (show sub _ _ = true; rfl) | (show List.contains _ _ = true; rfl) | dsimp only | split | (with_reducible apply ev_rsv)

theorem doDiscard_ev (hF : sub [.regs, .cfgB, .queues, .readPorts, .svcStats, .jnl, .rsv] H = true) (h : Evolves H s0 s) (w :
    Writer) : Evolves H s0 (doDiscard w s) := by
  refine ev_mono hF h ?_
  unfold doDiscard
  repeat' first
      | (with_reducible first
          | exact ev_refl _ _ | assumption | apply deny_ev | apply discardBank_ev | apply replRefused_ev | refine ev_ite ?_ ?_
          | refine ev_fst (by assumption) ?_ | refine ev_snd (by assumption) ?_)
      | (show sub _ _ = true; rfl) | (show List.contains _ _ = true) | dsimp only | split

theorem liveWrite_ev (hF : sub [.regs, .cfgB, .liveB] H = true) (h : Evolves H s0 s) (a : Nat) (v : Nat) : Evolves H s0
    (liveWrite a v s) := by
  refine ev_mono hF h ?_
  unfold liveWrite
  repeat' first
      | (with_reducible first
          | exact ev_refl _ _ | assumption | apply inc_ev | apply bastingWrite_ev | refine ev_ite ?_ ?_
          | refine ev_fst (by assumption) ?_ | refine ev_snd (by assumption) ?_)
      | (show sub _ _ = true; rfl) | (show List.contains _ _ = true; rfl)

theorem doLiveWrite_ev (hF : sub [.regs, .cfgB, .liveB] H = true) (h : Evolves H s0 s) (o : Orig) (a : Nat) (v : Nat) : Evolves
    H s0 (doLiveWrite o a v s) := by
  refine ev_mono hF h ?_
  unfold doLiveWrite
  repeat' first
      | (with_reducible first
          | exact ev_refl _ _ | assumption | apply deny_ev | apply liveWrite_ev | refine ev_ite ?_ ?_
          | refine ev_fst (by assumption) ?_ | refine ev_snd (by assumption) ?_)
      | (show sub _ _ = true; rfl) | (show List.contains _ _ = true; rfl)

theorem checkedSwap_ev (hF : sub [.pins, .regs, .cfgB, .cfgA, .cfgO, .ldr, .queues, .readPorts, .svcStats, .jnl, .rsv, .holds,
    .out] H = true) (h : Evolves H s0 s) (w : Writer) : Evolves H s0 (checkedSwap w s) := by
  refine ev_mono hF h ?_
  unfold checkedSwap
  repeat' first
      | (with_reducible first
          | exact ev_refl _ _ | assumption | apply wr_ev | apply acceptSwap_ev | apply tell_ev | apply discardBank_ev
          | apply replRefused_ev | apply beginReport_ev | apply endReport_ev | apply runStages_ev | refine ev_ite ?_ ?_
          | refine ev_fst (by assumption) ?_ | refine ev_snd (by assumption) ?_)
      | (show sub _ _ = true; rfl) | (show List.contains _ _ = true) | dsimp only | split

theorem loadSwapRequest_ev (hF : sub [.pins, .regs, .cfgB, .cfgA, .cfgO, .liveB, .ldr, .queues, .readPorts, .svcStats, .jnl,
    .holds, .out] H = true) (h : Evolves H s0 s)  : Evolves H s0 (loadSwapRequest s) := by
  refine ev_mono hF h ?_
  unfold loadSwapRequest
  repeat' first
      | (with_reducible first
          | exact ev_refl _ _ | assumption | apply wr_ev | apply acceptSwap_ev | apply tell_ev | apply applyRetirements_ev
          | apply endReport_ev | refine ev_ite ?_ ?_ | refine ev_fst (by assumption) ?_ | refine ev_snd (by assumption) ?_)
      | (with_reducible first
          | exact Nat.le_add_right _ _ | exact le_rfl
          | (refine fun (c : State.Canonical _) => ?_; repeat' first | exact c.regs | exact c.cfgB | exact c.cfgA | exact c.cfgO | exact c.liveB | exact ⟨c.profSets, c.baseSet⟩ | (apply swf_splice; exact Nat.le_add_right _ _)))
      | (show sub _ _ = true; rfl) | (show List.contains _ _ = true; rfl) | dsimp only | split | (with_reducible apply ev_ldr)

theorem doSwapRequest_ev (hF : sub [.pins, .regs, .cfgB, .cfgA, .cfgO, .liveB, .ldr, .queues, .readPorts, .svcStats, .jnl, .rsv,
    .holds, .out] H = true) (h : Evolves H s0 s) (w : Writer) : Evolves H s0 (doSwapRequest w s) := by
  refine ev_mono hF h ?_
  unfold doSwapRequest
  repeat' first
      | (with_reducible first
          | exact ev_refl _ _ | assumption | apply acceptSwap_ev | apply deny_ev | apply checkedSwap_ev
          | apply loadSwapRequest_ev | refine ev_ite ?_ ?_ | refine ev_fst (by assumption) ?_ | refine ev_snd (by assumption) ?_)
      | (show sub _ _ = true; rfl) | (show List.contains _ _ = true) | dsimp only | split

theorem doLdrViewWrite_ev (hF : sub [.regs] H = true) (h : Evolves H s0 s) (o : Orig) (v : Nat) : Evolves H s0 (doLdrViewWrite o
    v s) := by
  refine ev_mono hF h ?_
  unfold doLdrViewWrite
  repeat' first
      | (with_reducible first
          | exact ev_refl _ _ | assumption | apply wr_ev | refine ev_ite ?_ ?_ | refine ev_fst (by assumption) ?_
          | refine ev_snd (by assumption) ?_)
      | (show sub _ _ = true; rfl) | (show List.contains _ _ = true) | dsimp only | split

theorem doOwnerTimeout_ev (hF : sub [.regs, .cfgB, .ldr, .queues, .readPorts, .svcStats, .jnl, .rsv] H = true) (h : Evolves H s0
    s)  : Evolves H s0 (doOwnerTimeout s) := by
  refine ev_mono hF h ?_
  unfold doOwnerTimeout
  repeat' first
      | (with_reducible first
          | exact ev_refl _ _ | assumption | apply discardBank_ev | apply replRefused_ev | refine ev_ite ?_ ?_
          | refine ev_fst (by assumption) ?_ | refine ev_snd (by assumption) ?_)
      | (with_reducible first
          | exact Nat.le_add_right _ _ | exact le_rfl
          | (refine fun (c : State.Canonical _) => ?_; repeat' first | exact c.regs | exact c.cfgB | exact c.cfgA | exact ⟨c.profSets, c.baseSet⟩ | (apply swf_splice; exact Nat.le_add_right _ _)))
      | (show sub _ _ = true; rfl) | (show List.contains _ _ = true; rfl) | dsimp only | split | (with_reducible apply ev_ldr)

theorem dropTrigger_ev (hF : sub [.regs, .queues, .readPorts, .svcStats, .jnl, .cams] H = true) (h : Evolves H s0 s) (p : Nat) :
    Evolves H s0 (dropTrigger p s) := by
  refine ev_mono hF h ?_
  unfold dropTrigger
  repeat' first
      | (with_reducible first
          | exact ev_refl _ _ | assumption | apply setCam_ev | apply trigErr_ev | refine ev_ite ?_ ?_
          | refine ev_fst (by assumption) ?_ | refine ev_snd (by assumption) ?_)
      | (show sub _ _ = true; rfl) | (show List.contains _ _ = true; rfl)

theorem doSwapTimeout_ev (hF : sub [.regs, .cfgB, .ldr, .queues, .readPorts, .svcStats, .jnl, .rsv, .cams, .frames, .running,
    .jmem, .freeCount] H = true) (h : Evolves H s0 s)  : Evolves H s0 (doSwapTimeout s) := by
  refine ev_mono hF h ?_
  unfold doSwapTimeout
  repeat' first
      | (with_reducible first
          | exact ev_refl _ _ | assumption | apply wr_ev | apply addSat_ev | apply checkSwap_ev | apply each_ev
          | apply closeFrame_ev | apply kickSlices_ev | apply dropTrigger_ev | refine ev_ite ?_ ?_
          | refine ev_fst (by assumption) ?_ | refine ev_snd (by assumption) ?_ | intro _ _ _ | intro _ _)
      | (with_reducible first
          | exact Nat.le_add_right _ _ | exact le_rfl
          | (refine fun (c : State.Canonical _) => ?_; repeat' first | exact c.regs | exact c.cfgB | exact c.cfgA | exact c.jmem | exact ⟨c.profSets, c.baseSet⟩ | (apply swf_splice; exact Nat.le_add_right _ _)))
      | (show sub _ _ = true; rfl) | (show List.contains _ _ = true; rfl) | dsimp only | split | (with_reducible apply ev_ldr)

theorem execCfgBastingWrite_ev (hF : sub [.regs, .cfgB, .liveB, .ldr, .queues, .readPorts, .svcStats, .jnl] H = true) (h :
    Evolves H s0 s) (w : Writer) (a : Nat) (v : Nat) (e : execCfgBastingWrite w a v s = .next sNext) : Evolves H s0 sNext := by
  refine ev_mono hF h ?_
  unfold execCfgBastingWrite at e
  cases e
  repeat' first
      | (with_reducible first
          | exact ev_refl _ _ | assumption | apply doCfgBastingWrite_ev | refine ev_ite ?_ ?_ | refine ev_fst (by assumption) ?_
          | refine ev_snd (by assumption) ?_)
      | (show sub _ _ = true; rfl) | (show List.contains _ _ = true; rfl)

theorem execDiscard_ev (hF : sub [.regs, .cfgB, .queues, .readPorts, .svcStats, .jnl, .rsv] H = true) (h : Evolves H s0 s) (w :
    Writer) (e : execDiscard w s = .next sNext) : Evolves H s0 sNext := by
  refine ev_mono hF h ?_
  unfold execDiscard at e
  cases e
  repeat' first
      | (with_reducible first
          | exact ev_refl _ _ | assumption | apply doDiscard_ev | refine ev_ite ?_ ?_ | refine ev_fst (by assumption) ?_
          | refine ev_snd (by assumption) ?_)
      | (show sub _ _ = true; rfl) | (show List.contains _ _ = true; rfl)

theorem execLdrViewWrite_ev (hF : sub [.regs] H = true) (h : Evolves H s0 s) (o : Orig) (v : Nat) (e : execLdrViewWrite o v s =
    .next sNext) : Evolves H s0 sNext := by
  refine ev_mono hF h ?_
  unfold execLdrViewWrite at e
  cases e
  repeat' first
      | (with_reducible first
          | exact ev_refl _ _ | assumption | apply doLdrViewWrite_ev | refine ev_ite ?_ ?_ | refine ev_fst (by assumption) ?_
          | refine ev_snd (by assumption) ?_)
      | (show sub _ _ = true; rfl) | (show List.contains _ _ = true; rfl)

theorem execLiveWrite_ev (hF : sub [.regs, .cfgB, .liveB] H = true) (h : Evolves H s0 s) (o : Orig) (a : Nat) (v : Nat) (e :
    execLiveWrite o a v s = .next sNext) : Evolves H s0 sNext := by
  refine ev_mono hF h ?_
  unfold execLiveWrite at e
  cases e
  repeat' first
      | (with_reducible first
          | exact ev_refl _ _ | assumption | apply doLiveWrite_ev | refine ev_ite ?_ ?_ | refine ev_fst (by assumption) ?_
          | refine ev_snd (by assumption) ?_)
      | (show sub _ _ = true; rfl) | (show List.contains _ _ = true; rfl)

theorem execOwnerTimeout_ev (hF : sub [.regs, .cfgB, .ldr, .queues, .readPorts, .svcStats, .jnl, .rsv] H = true) (h : Evolves H
    s0 s) (e : execOwnerTimeout s = .next sNext) : Evolves H s0 sNext := by
  refine ev_mono hF h ?_
  unfold execOwnerTimeout at e
  cases e
  repeat' first
      | (with_reducible first
          | exact ev_refl _ _ | assumption | apply doOwnerTimeout_ev | refine ev_ite ?_ ?_ | refine ev_fst (by assumption) ?_
          | refine ev_snd (by assumption) ?_)
      | (show sub _ _ = true; rfl) | (show List.contains _ _ = true; rfl)

theorem execSwapRequest_ev (hF : sub [.pins, .regs, .cfgB, .cfgA, .cfgO, .liveB, .ldr, .queues, .readPorts, .svcStats, .jnl,
    .rsv, .holds, .out] H = true) (h : Evolves H s0 s) (w : Writer) (e : execSwapRequest w s = .next sNext) : Evolves H s0 sNext
    := by
  refine ev_mono hF h ?_
  unfold execSwapRequest at e
  cases e
  repeat' first
      | (with_reducible first
          | exact ev_refl _ _ | assumption | apply doSwapRequest_ev | refine ev_ite ?_ ?_ | refine ev_fst (by assumption) ?_
          | refine ev_snd (by assumption) ?_)
      | (show sub _ _ = true; rfl) | (show List.contains _ _ = true; rfl)

theorem execSwapTimeout_ev (hF : sub [.regs, .cfgB, .ldr, .queues, .readPorts, .svcStats, .jnl, .rsv, .cams, .frames, .running,
    .jmem, .freeCount] H = true) (h : Evolves H s0 s) (e : execSwapTimeout s = .next sNext) : Evolves H s0 sNext := by
  refine ev_mono hF h ?_
  unfold execSwapTimeout at e
  cases e
  repeat' first
      | (with_reducible first
          | exact ev_refl _ _ | assumption | apply doSwapTimeout_ev | refine ev_ite ?_ ?_ | refine ev_fst (by assumption) ?_
          | refine ev_snd (by assumption) ?_)
      | (show sub _ _ = true; rfl) | (show List.contains _ _ = true; rfl)

end Sys2Proof.Machine
end

