-- ==== Sys2Proof/Laws/EvWeave.lean ====
section
/-! SUPPORT. What each function of Machine/Weave.lean changes: one lemma per function, its footprint first. -/

namespace Sys2Proof.Machine
open Sys2Proof

set_option linter.unusedTactic false
set_option linter.unreachableTactic false
set_option linter.unusedVariables false

variable {H : List StateField} {s0 s sNext : State}

theorem dropFlow_ev (hF : sub [.outFlows] H = true) (h : Evolves H s0 s) (p : Nat) (n : Nat) : Evolves H s0 (dropFlow p n s) :=
    by
  refine ev_mono hF h ?_
  unfold dropFlow
  repeat' first
      | (with_reducible first
          | exact ev_refl _ _ | assumption | refine ev_ite ?_ ?_ | refine ev_fst (by assumption) ?_
          | refine ev_snd (by assumption) ?_)
      | (show sub _ _ = true) | (show List.contains _ _ = true; rfl) | dsimp only | split | (with_reducible apply ev_outFlows)

theorem noteUnacked_ev (hF : sub [.regs] H = true) (h : Evolves H s0 s) (p : Nat) : Evolves H s0 (noteUnacked p s) := by
  refine ev_mono hF h ?_
  unfold noteUnacked
  repeat' first
      | (with_reducible first
          | exact ev_refl _ _ | assumption | apply wr_ev | refine ev_ite ?_ ?_ | refine ev_fst (by assumption) ?_
          | refine ev_snd (by assumption) ?_)
      | (show sub _ _ = true; rfl) | (show List.contains _ _ = true; rfl)

theorem putOnLink_ev (hF : sub [.out] H = true) (h : Evolves H s0 s) (p : Nat) (b : Block) : Evolves H s0 (putOnLink p b s) :=
    by
  refine ev_mono hF h ?_
  unfold putOnLink
  repeat' first
      | (with_reducible first
          | exact ev_refl _ _ | assumption | apply emit_ev | refine ev_ite ?_ ?_ | refine ev_fst (by assumption) ?_
          | refine ev_snd (by assumption) ?_)
      | (show sub _ _ = true; rfl) | (show List.contains _ _ = true; rfl)

theorem setWv_ev (hF : sub [.weaves] H = true) (h : Evolves H s0 s) (p : Nat) (x : WvSt) : Evolves H s0 (setWv p x s) := by
  refine ev_mono hF h ?_
  unfold setWv
  repeat' first
      | (with_reducible first
          | exact ev_refl _ _ | assumption | refine ev_ite ?_ ?_ | refine ev_fst (by assumption) ?_
          | refine ev_snd (by assumption) ?_)
      | (show sub _ _ = true) | (show List.contains _ _ = true; rfl) | dsimp only | split | (with_reducible apply ev_weaves)

theorem sendNow_ev (hF : sub [.regs, .weaves, .out] H = true) (h : Evolves H s0 s) (p : Nat) (b : Block) : Evolves H s0 (sendNow
    p b s) := by
  refine ev_mono hF h ?_
  unfold sendNow
  repeat' first
      | (with_reducible first
          | exact ev_refl _ _ | assumption | apply noteUnacked_ev | apply putOnLink_ev | apply setWv_ev | refine ev_ite ?_ ?_
          | refine ev_fst (by assumption) ?_ | refine ev_snd (by assumption) ?_)
      | (show sub _ _ = true; rfl) | (show List.contains _ _ = true; rfl)

theorem sendBlock_ev (hF : sub [.regs, .weaves, .out] H = true) (h : Evolves H s0 s) (p : Nat) (type : Nat) (cls : Nat) (flow :
    Nat) (payload : List Nat) : Evolves H s0 (sendBlock p type cls flow payload s) := by
  refine ev_mono hF h ?_
  unfold sendBlock
  repeat' first
      | (with_reducible first
          | exact ev_refl _ _ | assumption | apply setWv_ev | apply sendNow_ev | refine ev_ite ?_ ?_
          | refine ev_fst (by assumption) ?_ | refine ev_snd (by assumption) ?_)
      | (show sub _ _ = true; rfl) | (show List.contains _ _ = true; rfl)

theorem setTx_ev (hF : sub [.txs] H = true) (h : Evolves H s0 s) (p : Nat) (x : TxSt) : Evolves H s0 (setTx p x s) := by
  refine ev_mono hF h ?_
  unfold setTx
  repeat' first
      | (with_reducible first
          | exact ev_refl _ _ | assumption | refine ev_ite ?_ ?_ | refine ev_fst (by assumption) ?_
          | refine ev_snd (by assumption) ?_)
      | (show sub _ _ = true) | (show List.contains _ _ = true; rfl) | dsimp only | split | (with_reducible apply ev_txs)

theorem sendLocal_ev (hF : sub [.out] H = true) (h : Evolves H s0 s) (p : Nat) (type : Nat) (payload : List Nat) : Evolves H s0
    (sendLocal p type payload s) := by
  refine ev_mono hF h ?_
  unfold sendLocal
  repeat' first
      | (with_reducible first
          | exact ev_refl _ _ | assumption | apply putOnLink_ev | refine ev_ite ?_ ?_ | refine ev_fst (by assumption) ?_
          | refine ev_snd (by assumption) ?_)
      | (show sub _ _ = true; rfl) | (show List.contains _ _ = true; rfl)

theorem txPut_ev (hF : sub [.txs] H = true) (h : Evolves H s0 s) (p : Nat) (t : TxPkt) : Evolves H s0 (txPut p t s) := by
  refine ev_mono hF h ?_
  unfold txPut
  repeat' first
      | (with_reducible first
          | exact ev_refl _ _ | assumption | apply setTx_ev | refine ev_ite ?_ ?_ | refine ev_fst (by assumption) ?_
          | refine ev_snd (by assumption) ?_)
      | (show sub _ _ = true; rfl) | (show List.contains _ _ = true; rfl)

theorem txEnd_ev (hF : sub [.txs] H = true) (h : Evolves H s0 s) (p : Nat) (serial : Nat) (vc : Nat) (alive : Nat) (tail : List
    Nat) : Evolves H s0 (txEnd p serial vc alive tail s) := by
  refine ev_mono hF h ?_
  unfold txEnd
  repeat' first
      | (with_reducible first
          | exact ev_refl _ _ | assumption | apply setTx_ev | apply txPut_ev | refine ev_ite ?_ ?_
          | refine ev_fst (by assumption) ?_ | refine ev_snd (by assumption) ?_)
      | (show sub _ _ = true; rfl) | (show List.contains _ _ = true; rfl)

theorem putFlow_ev (hF : sub [.outFlows] H = true) (h : Evolves H s0 s) (f : OutFlow) : Evolves H s0 (putFlow f s) := by
  refine ev_mono hF h ?_
  unfold putFlow
  repeat' first
      | (with_reducible first
          | exact ev_refl _ _ | assumption | refine ev_ite ?_ ?_ | refine ev_fst (by assumption) ?_
          | refine ev_snd (by assumption) ?_)
      | (show sub _ _ = true) | (show List.contains _ _ = true; rfl) | dsimp only | split | (with_reducible apply ev_outFlows)

theorem flowBytes_ev (hF : sub [.regs, .weaves, .outFlows, .out] H = true) (h : Evolves H s0 s) (f : OutFlow) (bytes : List Nat)
    : Evolves H s0 (flowBytes f bytes s) := by
  refine ev_mono hF h ?_
  unfold flowBytes
  repeat' first
      | (with_reducible first
          | exact ev_refl _ _ | assumption | apply sendBlock_ev | apply putFlow_ev | refine ev_ite ?_ ?_
          | (refine ev_foldl ?_ ?_; rotate_left; intro _ _ _) | refine ev_fst (by assumption) ?_
          | refine ev_snd (by assumption) ?_)
      | (show sub _ _ = true; rfl) | (show List.contains _ _ = true; rfl)

theorem weaveEnd_ev (hF : sub [.regs, .weaves, .outFlows, .out] H = true) (h : Evolves H s0 s) (serial : Nat) (tail : List Nat)
    : Evolves H s0 (weaveEnd serial tail s) := by
  refine ev_mono hF h ?_
  unfold weaveEnd
  repeat' first
      | (with_reducible first
          | exact ev_refl _ _ | assumption | apply dropFlow_ev | apply sendBlock_ev | apply flowBytes_ev | refine ev_ite ?_ ?_
          | refine ev_fst (by assumption) ?_ | refine ev_snd (by assumption) ?_)
      | (show sub _ _ = true; rfl) | (show List.contains _ _ = true) | dsimp only | split

theorem txBegin_ev (hF : sub [.txs] H = true) (h : Evolves H s0 s) (p : Nat) (serial : Nat) (vc : Nat) (alive : Nat) : Evolves H
    s0 (txBegin p serial vc alive s) := by
  refine ev_mono hF h ?_
  unfold txBegin
  repeat' first
      | (with_reducible first
          | exact ev_refl _ _ | assumption | apply setTx_ev | apply txPut_ev | refine ev_ite ?_ ?_
          | refine ev_fst (by assumption) ?_ | refine ev_snd (by assumption) ?_)
      | (show sub _ _ = true; rfl) | (show List.contains _ _ = true; rfl)

theorem weaveBegin_ev (hF : sub [.regs, .weaves, .outFlows, .out] H = true) (h : Evolves H s0 s) (serial : Nat) (cls : Nat) (fid
    : Nat) (stream : Nat) (lineBytes : Nat) (lines : Nat) (width : Nat) (format : Nat) : Evolves H s0 (weaveBegin serial cls fid
    stream lineBytes lines width format s) := by
  refine ev_mono hF h ?_
  unfold weaveBegin
  repeat' first
      | (with_reducible first
          | exact ev_refl _ _ | assumption | apply inc_ev | apply sendBlock_ev | refine ev_ite ?_ ?_
          | refine ev_fst (by assumption) ?_ | refine ev_snd (by assumption) ?_)
      | (show sub _ _ = true; rfl) | (show List.contains _ _ = true; rfl) | dsimp only | split
      | (with_reducible apply ev_outFlows)

theorem txOverflow_ev (hF : sub [.regs] H = true) (h : Evolves H s0 s) (p : Nat) : Evolves H s0 (txOverflow p s) := by
  refine ev_mono hF h ?_
  unfold txOverflow
  repeat' first
      | (with_reducible first
          | exact ev_refl _ _ | assumption | apply wr_ev | apply inc_ev | refine ev_ite ?_ ?_ | refine ev_fst (by assumption) ?_
          | refine ev_snd (by assumption) ?_)
      | (show sub _ _ = true; rfl) | (show List.contains _ _ = true; rfl)

theorem txLine_ev (hF : sub [.regs, .txs] H = true) (h : Evolves H s0 s) (p : Nat) (serial : Nat) (vc : Nat) (dt : Nat) (bytes :
    List Nat) : Evolves H s0 (txLine p serial vc dt bytes s).1 := by
  refine ev_mono hF h ?_
  unfold txLine
  repeat' first
      | (with_reducible first
          | exact ev_refl _ _ | assumption | apply txPut_ev | apply txOverflow_ev | refine ev_ite ?_ ?_
          | refine ev_fst (by assumption) ?_ | refine ev_snd (by assumption) ?_)
      | (show sub _ _ = true; rfl) | (show List.contains _ _ = true) | dsimp only | split

theorem weaveLine_ev (hF : sub [.regs, .weaves, .outFlows, .out] H = true) (h : Evolves H s0 s) (serial : Nat) (bytes : List
    Nat) : Evolves H s0 (weaveLine serial bytes s).1 := by
  refine ev_mono hF h ?_
  unfold weaveLine
  repeat' first
      | (with_reducible first
          | exact ev_refl _ _ | assumption | apply flowBytes_ev | refine ev_ite ?_ ?_ | refine ev_fst (by assumption) ?_
          | refine ev_snd (by assumption) ?_)
      | (show sub _ _ = true; rfl) | (show List.contains _ _ = true) | dsimp only | split

theorem drainWait_ev (hF : sub [.regs, .weaves, .out] H = true) (h : Evolves H s0 s) (p : Nat) (x1 : Nat) : Evolves H s0
    (drainWait p x1 s) := by
  refine ev_mono hF h ?_
  clear h hF
  suffices key : ∀ s0 : State, Evolves [.regs, .weaves, .out] s0 s → Evolves [.regs, .weaves, .out] s0 (drainWait p x1 s) from
      key s (ev_refl _ s)
  fun_induction drainWait p x1 s <;> intro s0 h <;> repeat' first
      | (with_reducible first
          | exact ev_refl _ _ | assumption | apply_assumption -exfalso -symm | apply setWv_ev | apply sendNow_ev
          | (refine ev_foldl ?_ ?_; rotate_left; intro _ _ _) | (refine ev_foldl_fst ?_ ?_; rotate_left; intro _ _ _ _)
          | (refine ev_foldl_snd ?_ ?_; rotate_left; intro _ _ _ _))
      | (show sub _ _ = true; rfl) | (show List.contains _ _ = true; rfl)

end Sys2Proof.Machine
end

