-- ==== Sys2Proof/Laws/EvSeam.lean ====
section
/-! SUPPORT. What each function of Machine/Seam.lean changes: one lemma per function, its footprint first. -/

namespace Sys2Proof.Machine
open Sys2Proof

set_option linter.unusedTactic false
set_option linter.unreachableTactic false
set_option linter.unusedVariables false

variable {H : List StateField} {s0 s sNext : State}

theorem addOut_ev (hF : sub [.outs, .nextOut] H = true) (h : Evolves H s0 s) (x : OutFrame) : Evolves H s0 (addOut x s) := by
  refine ev_mono hF h ?_
  unfold addOut
  repeat' first
      | (with_reducible first
          | exact ev_refl _ _ | assumption | refine ev_ite ?_ ?_ | refine ev_fst (by assumption) ?_
          | refine ev_snd (by assumption) ?_)
      | (with_reducible first
          | exact Nat.le_add_right _ _ | exact le_rfl)
      | (show sub _ _ = true) | (show List.contains _ _ = true; rfl) | dsimp only | split
      | (with_reducible apply ev_outs_nextOut)

theorem engineMismatch_ev (hF : sub [.regs, .queues, .readPorts, .svcStats, .jnl, .rsv] H = true) (h : Evolves H s0 s) (x :
    OutFrame) : Evolves H s0 (engineMismatch x s) := by
  refine ev_mono hF h ?_
  unfold engineMismatch
  repeat' first
      | (with_reducible first
          | exact ev_refl _ _ | assumption | apply inc_ev | apply recordError_ev | apply noteWear_ev | refine ev_ite ?_ ?_
          | refine ev_fst (by assumption) ?_ | refine ev_snd (by assumption) ?_)
      | (show sub _ _ = true; rfl) | (show List.contains _ _ = true; rfl)

theorem holdEnd_ev (hF : sub [.holds] H = true) (h : Evolves H s0 s) (c : Nat) (serial : Nat) (fin : FrameFinal) (trailer : List
    Nat) (tag : List Nat) (lb : Nat) (isSealed : Bool) : Evolves H s0 (holdEnd c serial fin trailer tag lb isSealed s) := by
  refine ev_mono hF h ?_
  unfold holdEnd
  repeat' first
      | (with_reducible first
          | exact ev_refl _ _ | assumption | apply setHold_ev | refine ev_ite ?_ ?_ | refine ev_fst (by assumption) ?_
          | refine ev_snd (by assumption) ?_)
      | (show sub _ _ = true; rfl) | (show List.contains _ _ = true) | dsimp only | split

theorem closeOut_ev (hF : sub [.regs, .queues, .readPorts, .hostPorts, .svcStats, .jnl, .rsv, .outs, .doneKeys, .holds, .txs,
    .chans, .weaves, .outFlows, .out] H = true) (h : Evolves H s0 s) (bad : List (Nat × Nat)) (x : OutFrame) : Evolves H s0
    (closeOut bad x s) := by
  refine ev_mono hF h ?_
  unfold closeOut
  repeat' first
      | (with_reducible first
          | exact ev_refl _ _ | assumption | apply incWrap_ev | apply chanEnd_ev | apply engineMismatch_ev | apply holdEnd_ev
          | apply txEnd_ev | apply weaveEnd_ev | refine ev_ite ?_ ?_ | (refine ev_foldl ?_ ?_; rotate_left; intro _ _ _)
          | refine ev_fst (by assumption) ?_ | refine ev_snd (by assumption) ?_)
      | (with_reducible first
          | exact Nat.le_add_right _ _ | exact le_rfl)
      | (show sub _ _ = true; rfl) | (show List.contains _ _ = true; rfl) | dsimp only | split
      | (with_reducible apply ev_outs_doneKeys)

theorem closeComplete_ev (hF : sub [.regs, .cfgB, .ldr, .queues, .readPorts, .hostPorts, .svcStats, .jnl, .rsv, .frames, .outs,
    .doneKeys, .holds, .txs, .chans, .weaves, .outFlows, .jmem, .out, .freeCount] H = true) (h : Evolves H s0 s) (bad : List
    (Nat × Nat)) : Evolves H s0 (closeComplete bad s) := by
  refine ev_mono hF h ?_
  unfold closeComplete
  repeat' first
      | (with_reducible first
          | exact ev_refl _ _ | assumption | apply checkSwap_ev | apply sweepFrames_ev | apply closeOut_ev | refine ev_ite ?_ ?_
          | (refine ev_foldl ?_ ?_; rotate_left; intro _ _ _) | refine ev_fst (by assumption) ?_
          | refine ev_snd (by assumption) ?_)
      | (show sub _ _ = true; rfl) | (show List.contains _ _ = true; rfl) | dsimp only | split
      | (with_reducible apply ev_frames)

theorem applyTx_ev (hF : sub [.regs, .cfgX, .txs] H = true) (h : Evolves H s0 s) (p : Nat) : Evolves H s0 (applyTx p s) := by
  refine ev_mono hF h ?_
  unfold applyTx
  repeat' first
      | (with_reducible first
          | exact ev_refl _ _ | assumption | apply wr_ev | apply setTx_ev | refine ev_ite ?_ ?_
          | refine ev_fst (by assumption) ?_ | refine ev_snd (by assumption) ?_)
      | (with_reducible first
          | exact Nat.le_add_right _ _ | exact le_rfl
          | (refine fun (c : State.Canonical _) => ?_; repeat' first | exact c.regs | exact c.cfgB | exact c.cfgA | exact c.cfgX | exact ⟨c.profSets, c.baseSet⟩ | exact ⟨profSets_sset c.profSets _ c.cfgB, c.baseSet⟩ | exact ⟨c.profSets, c.cfgB⟩ | exact ⟨List.forall_mem_nil _, rfl⟩ | exact swf_nil _ | exact swf_freshBank_of rfl | exact swf_profSet c _ | exact swf_setOfProfile c _ | exact swf_bankOf c _ | apply swf_foldl_sset | apply swf_sset))
      | (show sub _ _ = true; rfl) | (show List.contains _ _ = true; rfl) | dsimp only | split | (with_reducible apply ev_cfgX)

theorem sendRelay_ev (hF : sub [.regs, .weaves, .out] H = true) (h : Evolves H s0 s) (payload : List Nat) : Evolves H s0
    (sendRelay payload s) := by
  refine ev_mono hF h ?_
  unfold sendRelay
  repeat' first
      | (with_reducible first
          | exact ev_refl _ _ | assumption | apply sendBlock_ev | refine ev_ite ?_ ?_ | refine ev_fst (by assumption) ?_
          | refine ev_snd (by assumption) ?_)
      | (show sub _ _ = true; rfl) | (show List.contains _ _ = true; rfl)

theorem sendBaton_ev (hF : sub [.regs, .weaves, .out] H = true) (h : Evolves H s0 s) (kind : Nat) : Evolves H s0 (sendBaton kind
    s) := by
  refine ev_mono hF h ?_
  unfold sendBaton
  repeat' first
      | (with_reducible first
          | exact ev_refl _ _ | assumption | apply sendRelay_ev | refine ev_ite ?_ ?_ | refine ev_fst (by assumption) ?_
          | refine ev_snd (by assumption) ?_)
      | (show sub _ _ = true; rfl) | (show List.contains _ _ = true; rfl)

theorem commitBaton_ev (hF : sub [.regs, .weaves, .rly, .out] H = true) (h : Evolves H s0 s)  : Evolves H s0 (commitBaton s) :=
    by
  refine ev_mono hF h ?_
  unfold commitBaton
  repeat' first
      | (with_reducible first
          | exact ev_refl _ _ | assumption | apply wr_ev | apply sendBaton_ev | refine ev_ite ?_ ?_
          | refine ev_fst (by assumption) ?_ | refine ev_snd (by assumption) ?_)
      | (show sub _ _ = true; rfl) | (show List.contains _ _ = true; rfl) | dsimp only | split | (with_reducible apply ev_rly)

theorem doHoldFreeze_ev (hF : sub [.regs] H = true) (h : Evolves H s0 s) (c : Nat) : Evolves H s0 (doHoldFreeze c s) := by
  refine ev_mono hF h ?_
  unfold doHoldFreeze
  repeat' first
      | (with_reducible first
          | exact ev_refl _ _ | assumption | apply wr_ev | refine ev_ite ?_ ?_ | refine ev_fst (by assumption) ?_
          | refine ev_snd (by assumption) ?_)
      | (show sub _ _ = true; rfl) | (show List.contains _ _ = true; rfl)

theorem doHoldRelease_ev (hF : sub [.regs] H = true) (h : Evolves H s0 s) (c : Nat) : Evolves H s0 (doHoldRelease c s) := by
  refine ev_mono hF h ?_
  unfold doHoldRelease
  repeat' first
      | (with_reducible first
          | exact ev_refl _ _ | assumption | apply wr_ev | refine ev_ite ?_ ?_ | refine ev_fst (by assumption) ?_
          | refine ev_snd (by assumption) ?_)
      | (show sub _ _ = true; rfl) | (show List.contains _ _ = true; rfl)

theorem driveFence_ev (hF : sub [.pins, .regs, .out] H = true) (h : Evolves H s0 s) (low : Bool) : Evolves H s0 (driveFence low
    s) := by
  refine ev_mono hF h ?_
  unfold driveFence
  repeat' first
      | (with_reducible first
          | exact ev_refl _ _ | assumption | apply wr_ev | apply setPin_ev | refine ev_ite ?_ ?_
          | refine ev_fst (by assumption) ?_ | refine ev_snd (by assumption) ?_)
      | (show sub _ _ = true; rfl) | (show List.contains _ _ = true; rfl) | dsimp only | split | (with_reducible apply ev_pins)

theorem beginDest_ev (hF : sub [.regs, .outs, .txs, .chans, .weaves, .outFlows, .out] H = true) (h : Evolves H s0 s) (x :
    OutFrame) : Evolves H s0 (beginDest x s) := by
  refine ev_mono hF h ?_
  unfold beginDest
  repeat' first
      | (with_reducible first
          | exact ev_refl _ _ | assumption | apply putOut_ev | apply chanBegin_ev | apply txBegin_ev | apply weaveBegin_ev
          | refine ev_ite ?_ ?_ | refine ev_fst (by assumption) ?_ | refine ev_snd (by assumption) ?_)
      | (show sub _ _ = true; rfl) | (show List.contains _ _ = true) | dsimp only | split

theorem checkAlive_ev (hF : sub [.regs, .queues, .readPorts, .svcStats, .jnl] H = true) (h : Evolves H s0 s) (i : Incoming) (f :
    FrameSt) : Evolves H s0 (checkAlive i f s).2 := by
  refine ev_mono hF h ?_
  unfold checkAlive
  repeat' first
      | (with_reducible first
          | exact ev_refl _ _ | assumption | apply inc_ev | apply recordError_ev | refine ev_ite ?_ ?_
          | refine ev_fst (by assumption) ?_ | refine ev_snd (by assumption) ?_)
      | (show sub _ _ = true; rfl) | (show List.contains _ _ = true) | dsimp only | split

theorem checkFormat_ev (hF : sub [.regs, .queues, .readPorts, .svcStats, .jnl] H = true) (h : Evolves H s0 s) (i : Incoming) (f
    : FrameSt) : Evolves H s0 (checkFormat i f s).2 := by
  refine ev_mono hF h ?_
  unfold checkFormat
  repeat' first
      | (with_reducible first
          | exact ev_refl _ _ | assumption | apply inc_ev | apply recordError_ev | refine ev_ite ?_ ?_
          | refine ev_fst (by assumption) ?_ | refine ev_snd (by assumption) ?_)
      | (show sub _ _ = true; rfl) | (show List.contains _ _ = true) | dsimp only | split

theorem checkPayload_ev (hF : sub [.regs, .queues, .readPorts, .svcStats, .jnl] H = true) (h : Evolves H s0 s) (i : Incoming) (f
    : FrameSt) : Evolves H s0 (checkPayload i f s).2 := by
  refine ev_mono hF h ?_
  unfold checkPayload
  repeat' first
      | (with_reducible first
          | exact ev_refl _ _ | assumption | apply inc_ev | apply recordError_ev | refine ev_ite ?_ ?_
          | refine ev_fst (by assumption) ?_ | refine ev_snd (by assumption) ?_)
      | (show sub _ _ = true; rfl) | (show List.contains _ _ = true) | dsimp only | split

theorem checkTag_ev (hF : sub [.regs, .queues, .readPorts, .svcStats, .jnl] H = true) (h : Evolves H s0 s) (f : FrameSt) (t :
    Option (List Nat)) : Evolves H s0 (checkTag f t s).2 := by
  refine ev_mono hF h ?_
  unfold checkTag
  repeat' first
      | (with_reducible first
          | exact ev_refl _ _ | assumption | apply inc_ev | apply recordError_ev | refine ev_ite ?_ ?_
          | refine ev_fst (by assumption) ?_ | refine ev_snd (by assumption) ?_)
      | (show sub _ _ = true; rfl) | (show List.contains _ _ = true) | dsimp only | split

theorem countLag_ev (hF : sub [.regs, .queues, .readPorts, .svcStats, .jnl, .outs] H = true) (h : Evolves H s0 s) (x : OutFrame)
    : Evolves H s0 (countLag x s) := by
  refine ev_mono hF h ?_
  unfold countLag
  repeat' first
      | (with_reducible first
          | exact ev_refl _ _ | assumption | apply inc_ev | apply recordError_ev | apply putOut_ev | refine ev_ite ?_ ?_
          | refine ev_fst (by assumption) ?_ | refine ev_snd (by assumption) ?_)
      | (show sub _ _ = true; rfl) | (show List.contains _ _ = true; rfl)

theorem deliverFrame_ev (hF : sub [.regs] H = true) (h : Evolves H s0 s) (f : FrameSt) : Evolves H s0 (deliverFrame f s) := by
  refine ev_mono hF h ?_
  unfold deliverFrame
  repeat' first
      | (with_reducible first
          | exact ev_refl _ _ | assumption | apply wr_ev | apply incWrap_ev | refine ev_ite ?_ ?_
          | refine ev_fst (by assumption) ?_ | refine ev_snd (by assumption) ?_)
      | (show sub _ _ = true; rfl) | (show List.contains _ _ = true; rfl)

theorem holdLine_ev (hF : sub [.holds] H = true) (h : Evolves H s0 s) (c : Nat) (serial : Nat) (bytes : List Nat) (flags : Nat)
    : Evolves H s0 (holdLine c serial bytes flags s) := by
  refine ev_mono hF h ?_
  unfold holdLine
  repeat' first
      | (with_reducible first
          | exact ev_refl _ _ | assumption | apply setHold_ev | refine ev_ite ?_ ?_ | refine ev_fst (by assumption) ?_
          | refine ev_snd (by assumption) ?_)
      | (show sub _ _ = true; rfl) | (show List.contains _ _ = true) | dsimp only | split

theorem offer_ev (hF : sub [.regs, .queues, .readPorts, .hostPorts, .svcStats, .jnl, .outs, .holds, .txs, .chans, .weaves,
    .outFlows, .out] H = true) (h : Evolves H s0 s) (x : OutFrame) (bytes : List Nat) (flags : Nat) : Evolves H s0 (offer x
    bytes flags s).1 := by
  refine ev_mono hF h ?_
  unfold offer
  repeat' first
      | (with_reducible first
          | exact ev_refl _ _ | assumption | apply chanLine_ev | apply holdLine_ev | apply txLine_ev | apply weaveLine_ev
          | refine ev_ite ?_ ?_ | refine ev_fst (by assumption) ?_ | refine ev_snd (by assumption) ?_)
      | (show sub _ _ = true; rfl) | (show List.contains _ _ = true) | dsimp only | split

theorem emitLine_ev (hF : sub [.regs, .queues, .readPorts, .hostPorts, .svcStats, .jnl, .rsv, .outs, .holds, .txs, .chans,
    .weaves, .outFlows, .out] H = true) (h : Evolves H s0 s) (serial : Nat) (bytes : List Nat) (flags : Nat) (poisoned : Bool) :
    Evolves H s0 (emitLine serial bytes flags poisoned s) := by
  refine ev_mono hF h ?_
  unfold emitLine
  repeat' first
      | (with_reducible first
          | exact ev_refl _ _ | assumption | apply wr_ev | apply putOut_ev | apply seamLoss_ev | apply engineMismatch_ev
          | apply beginDest_ev | apply offer_ev | refine ev_ite ?_ ?_ | refine ev_fst (by assumption) ?_
          | refine ev_snd (by assumption) ?_)
      | (show sub _ _ = true; rfl) | (show List.contains _ _ = true) | dsimp only | split

theorem emitDue_ev (hF : sub [.regs, .queues, .readPorts, .hostPorts, .svcStats, .jnl, .rsv, .outs, .holds, .txs, .chans,
    .weaves, .outFlows, .out] H = true) (h : Evolves H s0 s) (serial : Nat) (fill : Bool) (bad : List Nat) (x3 : Nat) : Evolves
    H s0 (emitDue serial fill bad x3 s) := by
  refine ev_mono hF h ?_
  clear h hF
  suffices key : ∀ s0 : State, Evolves [.regs, .queues, .readPorts, .hostPorts, .svcStats, .jnl, .rsv, .outs, .holds, .txs,
      .chans, .weaves, .outFlows, .out] s0 s → Evolves [.regs, .queues, .readPorts, .hostPorts, .svcStats, .jnl, .rsv, .outs,
      .holds, .txs, .chans, .weaves, .outFlows, .out] s0 (emitDue serial fill bad x3 s) from key s (ev_refl _ s)
  fun_induction emitDue serial fill bad x3 s <;> intro s0 h <;> repeat' first
      | (with_reducible first
          | exact ev_refl _ _ | assumption | apply_assumption -exfalso -symm | apply putOut_ev | apply countLag_ev
          | apply emitLine_ev | refine ev_ite ?_ ?_ | refine ev_fst (by assumption) ?_ | refine ev_snd (by assumption) ?_)
      | (show sub _ _ = true) | (show List.contains _ _ = true) | dsimp only | split

theorem lineToOut_ev (hF : sub [.regs, .queues, .readPorts, .hostPorts, .svcStats, .jnl, .rsv, .outs, .holds, .txs, .chans,
    .weaves, .outFlows, .out] H = true) (h : Evolves H s0 s) (id : Nat) (l : OutLine) (bad : List Nat) (serial : Nat) : Evolves
    H s0 (lineToOut id l bad s serial) := by
  refine ev_mono hF h ?_
  unfold lineToOut
  repeat' first
      | (with_reducible first
          | exact ev_refl _ _ | assumption | apply putOut_ev | apply emitDue_ev | refine ev_ite ?_ ?_
          | refine ev_fst (by assumption) ?_ | refine ev_snd (by assumption) ?_)
      | (show sub _ _ = true; rfl) | (show List.contains _ _ = true) | dsimp only | split

theorem distribute_ev (hF : sub [.regs, .queues, .readPorts, .hostPorts, .svcStats, .jnl, .rsv, .outs, .holds, .txs, .chans,
    .weaves, .outFlows, .out] H = true) (h : Evolves H s0 s) (id : Nat) (l : OutLine) (bad : List Nat) : Evolves H s0
    (distribute id l bad s) := by
  refine ev_mono hF h ?_
  unfold distribute
  repeat' first
      | (with_reducible first
          | exact ev_refl _ _ | assumption | apply lineToOut_ev | refine ev_ite ?_ ?_
          | (refine ev_foldl ?_ ?_; rotate_left; intro _ _ _) | refine ev_fst (by assumption) ?_
          | refine ev_snd (by assumption) ?_)
      | (show sub _ _ = true; rfl) | (show List.contains _ _ = true; rfl)

theorem releaseMirror_ev (hF : sub [.regs, .queues, .readPorts, .hostPorts, .svcStats, .jnl, .rsv, .outs, .holds, .txs, .chans,
    .weaves, .outFlows, .rly, .out] H = true) (h : Evolves H s0 s) (m : Mirror) : Evolves H s0 (releaseMirror s m) := by
  refine ev_mono hF h ?_
  unfold releaseMirror
  repeat' first
      | (with_reducible first
          | exact ev_refl _ _ | assumption | apply distribute_ev | refine ev_ite ?_ ?_
          | (refine ev_foldl ?_ ?_; rotate_left; intro _ _ _) | refine ev_fst (by assumption) ?_
          | refine ev_snd (by assumption) ?_)
      | (show sub _ _ = true; rfl) | (show List.contains _ _ = true; rfl) | dsimp only | split | (with_reducible apply ev_rly)

theorem doCompositeWaitExpire_ev (hF : sub [.regs, .cfgB, .ldr, .queues, .readPorts, .hostPorts, .svcStats, .jnl, .rsv, .frames,
    .outs, .doneKeys, .holds, .txs, .chans, .weaves, .outFlows, .jmem, .out, .freeCount] H = true) (h : Evolves H s0 s) (o :
    Nat) : Evolves H s0 (doCompositeWaitExpire o s) := by
  refine ev_mono hF h ?_
  unfold doCompositeWaitExpire
  repeat' first
      | (with_reducible first
          | exact ev_refl _ _ | assumption | apply putOut_ev | apply closeComplete_ev | apply emitDue_ev | refine ev_ite ?_ ?_
          | refine ev_fst (by assumption) ?_ | refine ev_snd (by assumption) ?_)
      | (show sub _ _ = true; rfl) | (show List.contains _ _ = true) | dsimp only | split

theorem doCsi2PhyRestartDone_ev (hF : sub [.regs, .txs] H = true) (h : Evolves H s0 s) (p : Nat) : Evolves H s0
    (doCsi2PhyRestartDone p s) := by
  refine ev_mono hF h ?_
  unfold doCsi2PhyRestartDone
  repeat' first
      | (with_reducible first
          | exact ev_refl _ _ | assumption | apply wr_ev | apply setTx_ev | refine ev_ite ?_ ?_
          | refine ev_fst (by assumption) ?_ | refine ev_snd (by assumption) ?_)
      | (show sub _ _ = true; rfl) | (show List.contains _ _ = true; rfl)

theorem doCsi2TxConfigApply_ev (hF : sub [.regs, .cfgX, .txs] H = true) (h : Evolves H s0 s) (p : Nat) : Evolves H s0
    (doCsi2TxConfigApply p s) := by
  refine ev_mono hF h ?_
  unfold doCsi2TxConfigApply
  repeat' first
      | (with_reducible first
          | exact ev_refl _ _ | assumption | apply applyTx_ev | refine ev_ite ?_ ?_ | refine ev_fst (by assumption) ?_
          | refine ev_snd (by assumption) ?_)
      | (show sub _ _ = true; rfl) | (show List.contains _ _ = true; rfl)

theorem doCsi2TxPacketSent_ev (hF : sub [.regs, .txs, .out] H = true) (h : Evolves H s0 s) (p : Nat) : Evolves H s0
    (doCsi2TxPacketSent p s) := by
  refine ev_mono hF h ?_
  unfold doCsi2TxPacketSent
  repeat' first
      | (with_reducible first
          | exact ev_refl _ _ | assumption | apply inc_ev | apply emit_ev | apply setTx_ev | refine ev_ite ?_ ?_
          | refine ev_fst (by assumption) ?_ | refine ev_snd (by assumption) ?_)
      | (show sub _ _ = true; rfl) | (show List.contains _ _ = true) | dsimp only | split

theorem enterSolo_ev (hF : sub [.pins, .regs, .queues, .readPorts, .hostPorts, .svcStats, .jnl, .rsv, .outs, .holds, .txs,
    .chans, .weaves, .outFlows, .rly, .out] H = true) (h : Evolves H s0 s)  : Evolves H s0 (enterSolo s) := by
  refine ev_mono hF h ?_
  unfold enterSolo
  repeat' first
      | (with_reducible first
          | exact ev_refl _ _ | assumption | apply wr_ev | apply inc_ev | apply recordError_ev | apply driveFence_ev
          | apply releaseMirror_ev | refine ev_ite ?_ ?_ | (refine ev_foldl ?_ ?_; rotate_left; intro _ _ _)
          | refine ev_fst (by assumption) ?_ | refine ev_snd (by assumption) ?_)
      | (show sub _ _ = true; rfl) | (show List.contains _ _ = true; rfl) | dsimp only | split | (with_reducible apply ev_rly)

theorem endFstate_ev (hF : sub [.regs] H = true) (h : Evolves H s0 s) (c : Nat) : Evolves H s0 (endFstate c s) := by
  refine ev_mono hF h ?_
  unfold endFstate
  repeat' first
      | (with_reducible first
          | exact ev_refl _ _ | assumption | apply wr_ev | refine ev_ite ?_ ?_ | refine ev_fst (by assumption) ?_
          | refine ev_snd (by assumption) ?_)
      | (show sub _ _ = true; rfl) | (show List.contains _ _ = true; rfl)

theorem ingressCheck_ev (hF : sub [.regs, .queues, .readPorts, .svcStats, .jnl, .inAlive] H = true) (h : Evolves H s0 s) (f :
    FrameSt) : Evolves H s0 (ingressCheck f s).2 := by
  refine ev_mono hF h ?_
  unfold ingressCheck
  repeat' first
      | (with_reducible first
          | exact ev_refl _ _ | assumption | apply checkAlive_ev | apply checkFormat_ev | apply checkPayload_ev
          | apply checkTag_ev | refine ev_ite ?_ ?_ | refine ev_fst (by assumption) ?_ | refine ev_snd (by assumption) ?_)
      | (show sub _ _ = true; rfl) | (show List.contains _ _ = true; rfl) | dsimp only | split
      | (with_reducible apply ev_inAlive)

theorem doSeamFrameEnd_ev (hF : sub [.regs, .cfgB, .ldr, .queues, .readPorts, .hostPorts, .svcStats, .jnl, .rsv, .frames, .outs,
    .inAlive, .doneKeys, .holds, .txs, .chans, .weaves, .outFlows, .rly, .jmem, .out, .freeCount] H = true) (h : Evolves H s0 s)
    (c : Nat) (bad : List (Nat × Nat)) : Evolves H s0 (doSeamFrameEnd c bad s) := by
  refine ev_mono hF h ?_
  unfold doSeamFrameEnd
  repeat' first
      | (with_reducible first
          | exact ev_refl _ _ | assumption | apply wr_ev | apply putFrame_ev | apply closeComplete_ev | apply commitBaton_ev
          | apply deliverFrame_ev | apply endFstate_ev | apply ingressCheck_ev | refine ev_ite ?_ ?_
          | refine ev_fst (by assumption) ?_ | refine ev_snd (by assumption) ?_)
      | (show sub _ _ = true; rfl) | (show List.contains _ _ = true; rfl) | dsimp only | split | (with_reducible apply ev_outs)

theorem holdBegin_ev (hF : sub [.holds] H = true) (h : Evolves H s0 s) (c : Nat) (frames : Nat) (serial : Nat) : Evolves H s0
    (holdBegin c frames serial s).1 := by
  refine ev_mono hF h ?_
  unfold holdBegin
  repeat' first
      | (with_reducible first
          | exact ev_refl _ _ | assumption | apply setHold_ev | refine ev_ite ?_ ?_ | refine ev_fst (by assumption) ?_
          | refine ev_snd (by assumption) ?_)
      | (show sub _ _ = true; rfl) | (show List.contains _ _ = true) | dsimp only | split

theorem joinHold_ev (hF : sub [.outs, .nextOut, .holds] H = true) (h : Evolves H s0 s) (f : FrameSt) : Evolves H s0 (joinHold f
    s) := by
  refine ev_mono hF h ?_
  unfold joinHold
  repeat' first
      | (with_reducible first
          | exact ev_refl _ _ | assumption | apply addOut_ev | apply holdBegin_ev | refine ev_ite ?_ ?_
          | refine ev_fst (by assumption) ?_ | refine ev_snd (by assumption) ?_)
      | (show sub _ _ = true; rfl) | (show List.contains _ _ = true; rfl)

theorem joinOutput_ev (hF : sub [.outs, .nextOut] H = true) (h : Evolves H s0 s) (f : FrameSt) (o : Nat) : Evolves H s0
    (joinOutput f s o) := by
  refine ev_mono hF h ?_
  unfold joinOutput
  repeat' first
      | (with_reducible first
          | exact ev_refl _ _ | assumption | apply addOut_ev | apply putOut_ev | refine ev_ite ?_ ?_
          | refine ev_fst (by assumption) ?_ | refine ev_snd (by assumption) ?_)
      | (show sub _ _ = true; rfl) | (show List.contains _ _ = true) | dsimp only | split

theorem joinAll_ev (hF : sub [.outs, .nextOut, .holds] H = true) (h : Evolves H s0 s) (f : FrameSt) : Evolves H s0 (joinAll f s)
    := by
  refine ev_mono hF h ?_
  unfold joinAll
  repeat' first
      | (with_reducible first
          | exact ev_refl _ _ | assumption | apply joinHold_ev | apply joinOutput_ev | refine ev_ite ?_ ?_
          | (refine ev_foldl ?_ ?_; rotate_left; intro _ _ _) | refine ev_fst (by assumption) ?_
          | refine ev_snd (by assumption) ?_)
      | (show sub _ _ = true; rfl) | (show List.contains _ _ = true; rfl)

theorem sendDeliver_ev (hF : sub [.regs, .weaves, .rly, .out] H = true) (h : Evolves H s0 s) (f : FrameSt) : Evolves H s0
    (sendDeliver f s) := by
  refine ev_mono hF h ?_
  unfold sendDeliver
  repeat' first
      | (with_reducible first
          | exact ev_refl _ _ | assumption | apply sendRelay_ev | refine ev_ite ?_ ?_ | refine ev_fst (by assumption) ?_
          | refine ev_snd (by assumption) ?_)
      | (show sub _ _ = true; rfl) | (show List.contains _ _ = true; rfl) | dsimp only | split | (with_reducible apply ev_rly)

theorem enterSeam_ev (hF : sub [.regs, .frames, .outs, .nextOut, .holds, .weaves, .rly, .out] H = true) (h : Evolves H s0 s) (f
    : FrameSt) : Evolves H s0 (enterSeam f s) := by
  refine ev_mono hF h ?_
  unfold enterSeam
  repeat' first
      | (with_reducible first
          | exact ev_refl _ _ | assumption | apply wr_ev | apply putFrame_ev | apply joinAll_ev | apply sendDeliver_ev
          | refine ev_ite ?_ ?_ | refine ev_fst (by assumption) ?_ | refine ev_snd (by assumption) ?_)
      | (show sub _ _ = true; rfl) | (show List.contains _ _ = true; rfl)

theorem passOrHold_ev (hF : sub [.pins, .regs, .queues, .readPorts, .hostPorts, .svcStats, .jnl, .rsv, .outs, .holds, .txs,
    .chans, .weaves, .outFlows, .rly, .out] H = true) (h : Evolves H s0 s) (f : FrameSt) (l : OutLine) (bad : List Nat) :
    Evolves H s0 (passOrHold f l bad s) := by
  refine ev_mono hF h ?_
  unfold passOrHold
  repeat' first
      | (with_reducible first
          | exact ev_refl _ _ | assumption | apply distribute_ev | apply enterSolo_ev | refine ev_ite ?_ ?_
          | refine ev_fst (by assumption) ?_ | refine ev_snd (by assumption) ?_)
      | (show sub _ _ = true; rfl) | (show List.contains _ _ = true; rfl) | dsimp only | split | (with_reducible apply ev_rly)

theorem sealFailed_ev (hF : sub [.regs, .queues, .readPorts, .svcStats, .jnl, .frames] H = true) (h : Evolves H s0 s) (f :
    FrameSt) : Evolves H s0 (sealFailed f s) := by
  refine ev_mono hF h ?_
  unfold sealFailed
  repeat' first
      | (with_reducible first
          | exact ev_refl _ _ | assumption | apply inc_ev | apply recordError_ev | apply putFrame_ev | refine ev_ite ?_ ?_
          | refine ev_fst (by assumption) ?_ | refine ev_snd (by assumption) ?_)
      | (show sub _ _ = true; rfl) | (show List.contains _ _ = true) | dsimp only | split

theorem doSeamLine_ev (hF : sub [.pins, .regs, .queues, .readPorts, .hostPorts, .svcStats, .jnl, .rsv, .frames, .outs, .nextOut,
    .holds, .txs, .chans, .weaves, .outFlows, .rly, .out] H = true) (h : Evolves H s0 s) (c : Nat) (bad : List Nat) : Evolves H
    s0 (doSeamLine c bad s) := by
  refine ev_mono hF h ?_
  unfold doSeamLine
  repeat' first
      | (with_reducible first
          | exact ev_refl _ _ | assumption | apply wr_ev | apply putFrame_ev | apply enterSeam_ev | apply passOrHold_ev
          | apply sealFailed_ev | refine ev_ite ?_ ?_ | refine ev_fst (by assumption) ?_ | refine ev_snd (by assumption) ?_)
      | (show sub _ _ = true; rfl) | (show List.contains _ _ = true) | dsimp only | split

theorem execCompositeWaitExpire_ev (hF : sub [.regs, .cfgB, .ldr, .queues, .readPorts, .hostPorts, .svcStats, .jnl, .rsv,
    .frames, .outs, .doneKeys, .holds, .txs, .chans, .weaves, .outFlows, .jmem, .out, .freeCount] H = true) (h : Evolves H s0 s)
    (o : Nat) (e : execCompositeWaitExpire o s = .next sNext) : Evolves H s0 sNext := by
  refine ev_mono hF h ?_
  unfold execCompositeWaitExpire at e
  cases e
  repeat' first
      | (with_reducible first
          | exact ev_refl _ _ | assumption | apply doCompositeWaitExpire_ev | refine ev_ite ?_ ?_
          | refine ev_fst (by assumption) ?_ | refine ev_snd (by assumption) ?_)
      | (show sub _ _ = true; rfl) | (show List.contains _ _ = true; rfl)

theorem execCsi2PhyRestartDone_ev (hF : sub [.regs, .txs] H = true) (h : Evolves H s0 s) (p : Nat) (e : execCsi2PhyRestartDone p
    s = .next sNext) : Evolves H s0 sNext := by
  refine ev_mono hF h ?_
  unfold execCsi2PhyRestartDone at e
  cases e
  repeat' first
      | (with_reducible first
          | exact ev_refl _ _ | assumption | apply doCsi2PhyRestartDone_ev | refine ev_ite ?_ ?_
          | refine ev_fst (by assumption) ?_ | refine ev_snd (by assumption) ?_)
      | (show sub _ _ = true; rfl) | (show List.contains _ _ = true; rfl)

theorem execCsi2TxConfigApply_ev (hF : sub [.regs, .cfgX, .txs] H = true) (h : Evolves H s0 s) (p : Nat) (e :
    execCsi2TxConfigApply p s = .next sNext) : Evolves H s0 sNext := by
  refine ev_mono hF h ?_
  unfold execCsi2TxConfigApply at e
  cases e
  repeat' first
      | (with_reducible first
          | exact ev_refl _ _ | assumption | apply doCsi2TxConfigApply_ev | refine ev_ite ?_ ?_
          | refine ev_fst (by assumption) ?_ | refine ev_snd (by assumption) ?_)
      | (show sub _ _ = true; rfl) | (show List.contains _ _ = true; rfl)

theorem execCsi2TxPacketSent_ev (hF : sub [.regs, .txs, .out] H = true) (h : Evolves H s0 s) (p : Nat) (e : execCsi2TxPacketSent
    p s = .next sNext) : Evolves H s0 sNext := by
  refine ev_mono hF h ?_
  unfold execCsi2TxPacketSent at e
  cases e
  repeat' first
      | (with_reducible first
          | exact ev_refl _ _ | assumption | apply doCsi2TxPacketSent_ev | refine ev_ite ?_ ?_
          | refine ev_fst (by assumption) ?_ | refine ev_snd (by assumption) ?_)
      | (show sub _ _ = true; rfl) | (show List.contains _ _ = true; rfl)

theorem execHoldFreeze_ev (hF : sub [.regs] H = true) (h : Evolves H s0 s) (c : Nat) (e : execHoldFreeze c s = .next sNext) :
    Evolves H s0 sNext := by
  refine ev_mono hF h ?_
  unfold execHoldFreeze at e
  cases e
  repeat' first
      | (with_reducible first
          | exact ev_refl _ _ | assumption | apply doHoldFreeze_ev | refine ev_ite ?_ ?_ | refine ev_fst (by assumption) ?_
          | refine ev_snd (by assumption) ?_)
      | (show sub _ _ = true; rfl) | (show List.contains _ _ = true; rfl)

theorem execHoldRelease_ev (hF : sub [.regs] H = true) (h : Evolves H s0 s) (c : Nat) (e : execHoldRelease c s = .next sNext) :
    Evolves H s0 sNext := by
  refine ev_mono hF h ?_
  unfold execHoldRelease at e
  cases e
  repeat' first
      | (with_reducible first
          | exact ev_refl _ _ | assumption | apply doHoldRelease_ev | refine ev_ite ?_ ?_ | refine ev_fst (by assumption) ?_
          | refine ev_snd (by assumption) ?_)
      | (show sub _ _ = true; rfl) | (show List.contains _ _ = true; rfl)

theorem execSeamFrameEnd_ev (hF : sub [.regs, .cfgB, .ldr, .queues, .readPorts, .hostPorts, .svcStats, .jnl, .rsv, .frames,
    .outs, .inAlive, .doneKeys, .holds, .txs, .chans, .weaves, .outFlows, .rly, .jmem, .out, .freeCount] H = true) (h : Evolves
    H s0 s) (c : Nat) (bad : List (Nat × Nat)) (e : execSeamFrameEnd c bad s = .next sNext) : Evolves H s0 sNext := by
  refine ev_mono hF h ?_
  unfold execSeamFrameEnd at e
  cases e
  repeat' first
      | (with_reducible first
          | exact ev_refl _ _ | assumption | apply doSeamFrameEnd_ev | refine ev_ite ?_ ?_ | refine ev_fst (by assumption) ?_
          | refine ev_snd (by assumption) ?_)
      | (show sub _ _ = true; rfl) | (show List.contains _ _ = true; rfl)

theorem execSeamLine_ev (hF : sub [.pins, .regs, .queues, .readPorts, .hostPorts, .svcStats, .jnl, .rsv, .frames, .outs,
    .nextOut, .holds, .txs, .chans, .weaves, .outFlows, .rly, .out] H = true) (h : Evolves H s0 s) (c : Nat) (bad : List Nat) (e
    : execSeamLine c bad s = .next sNext) : Evolves H s0 sNext := by
  refine ev_mono hF h ?_
  unfold execSeamLine at e
  cases e
  repeat' first
      | (with_reducible first
          | exact ev_refl _ _ | assumption | apply doSeamLine_ev | refine ev_ite ?_ ?_ | refine ev_fst (by assumption) ?_
          | refine ev_snd (by assumption) ?_)
      | (show sub _ _ = true; rfl) | (show List.contains _ _ = true; rfl)

end Sys2Proof.Machine
end

