-- ==== Sys2Proof/Laws/EvFabric.lean ====
section
/-! SUPPORT. What each function of Machine/Fabric.lean changes: one lemma per function, its footprint first. -/

namespace Sys2Proof.Machine
open Sys2Proof

set_option linter.unusedTactic false
set_option linter.unreachableTactic false
set_option linter.unusedVariables false

variable {H : List StateField} {s0 s sNext : State}

theorem chanDrop_ev (hF : sub [.regs, .queues, .readPorts, .hostPorts, .svcStats, .jnl, .chans, .out] H = true) (h : Evolves H
    s0 s) (c : Nat) (serial : Nat) : Evolves H s0 (chanDrop c serial s) := by
  refine ev_mono hF h ?_
  unfold chanDrop
  repeat' first
      | (with_reducible first
          | exact ev_refl _ _ | assumption | apply abortedRecord_ev | apply dropChFrame_ev | apply levelDown_ev
          | apply settleState_ev | apply takeSet_ev | refine ev_ite ?_ ?_ | refine ev_fst (by assumption) ?_
          | refine ev_snd (by assumption) ?_)
      | (show sub _ _ = true; rfl) | (show List.contains _ _ = true) | dsimp only | split

theorem sendAbort_ev (hF : sub [.regs, .weaves, .outFlows, .out] H = true) (h : Evolves H s0 s) (f : OutFlow) (cause : Nat) :
    Evolves H s0 (sendAbort f cause s) := by
  refine ev_mono hF h ?_
  unfold sendAbort
  repeat' first
      | (with_reducible first
          | exact ev_refl _ _ | assumption | apply dropFlow_ev | apply sendBlock_ev | refine ev_ite ?_ ?_
          | refine ev_fst (by assumption) ?_ | refine ev_snd (by assumption) ?_)
      | (show sub _ _ = true; rfl) | (show List.contains _ _ = true; rfl)

theorem dropOut_ev (hF : sub [.regs, .queues, .readPorts, .hostPorts, .svcStats, .jnl, .outs, .holds, .txs, .chans, .weaves,
    .outFlows, .out] H = true) (h : Evolves H s0 s) (x : OutFrame) : Evolves H s0 (dropOut s x) := by
  refine ev_mono hF h ?_
  unfold dropOut
  repeat' first
      | (with_reducible first
          | exact ev_refl _ _ | assumption | apply chanDrop_ev | apply sendAbort_ev | apply setHold_ev | apply setTx_ev
          | refine ev_ite ?_ ?_ | refine ev_fst (by assumption) ?_ | refine ev_snd (by assumption) ?_)
      | (show sub _ _ = true; rfl) | (show List.contains _ _ = true; rfl) | dsimp only | split | (with_reducible apply ev_outs)

theorem discardRemote_ev (hF : sub [.regs, .cfgB, .ldr, .queues, .readPorts, .hostPorts, .svcStats, .jnl, .rsv, .frames, .outs,
    .holds, .txs, .chans, .weaves, .outFlows, .jmem, .out, .freeCount] H = true) (h : Evolves H s0 s) (id : Nat) (c : Nat) :
    Evolves H s0 (discardRemote id c s) := by
  refine ev_mono hF h ?_
  unfold discardRemote
  repeat' first
      | (with_reducible first
          | exact ev_refl _ _ | assumption | apply wr_ev | apply checkSwap_ev | apply dropOut_ev | refine ev_ite ?_ ?_
          | (refine ev_foldl ?_ ?_; rotate_left; intro _ _ _) | refine ev_fst (by assumption) ?_
          | refine ev_snd (by assumption) ?_)
      | (show sub _ _ = true; rfl) | (show List.contains _ _ = true; rfl) | dsimp only | split
      | (with_reducible apply ev_frames)

theorem dropInFlow_ev (hF : sub [.weaves] H = true) (h : Evolves H s0 s) (p : Nat) (n : Nat) : Evolves H s0 (dropInFlow p n s)
    := by
  refine ev_mono hF h ?_
  unfold dropInFlow
  repeat' first
      | (with_reducible first
          | exact ev_refl _ _ | assumption | apply setWv_ev | refine ev_ite ?_ ?_ | refine ev_fst (by assumption) ?_
          | refine ev_snd (by assumption) ?_)
      | (show sub _ _ = true; rfl) | (show List.contains _ _ = true; rfl)

theorem abortInFlow_ev (hF : sub [.regs, .cfgB, .ldr, .queues, .readPorts, .hostPorts, .svcStats, .jnl, .rsv, .frames, .outs,
    .holds, .txs, .chans, .weaves, .outFlows, .jmem, .out, .freeCount] H = true) (h : Evolves H s0 s) (p : Nat) (cause : Nat) (f
    : InFlow) : Evolves H s0 (abortInFlow p cause s f) := by
  refine ev_mono hF h ?_
  unfold abortInFlow
  repeat' first
      | (with_reducible first
          | exact ev_refl _ _ | assumption | apply sendAbort_ev | apply discardRemote_ev | apply dropInFlow_ev
          | refine ev_ite ?_ ?_ | refine ev_fst (by assumption) ?_ | refine ev_snd (by assumption) ?_)
      | (show sub _ _ = true; rfl) | (show List.contains _ _ = true) | dsimp only | split

theorem closeOwnFlow_ev (hF : sub [.regs, .queues, .readPorts, .svcStats, .jnl, .outs, .outFlows] H = true) (h : Evolves H s0 s)
    (f : OutFlow) : Evolves H s0 (closeOwnFlow s f) := by
  refine ev_mono hF h ?_
  unfold closeOwnFlow
  repeat' first
      | (with_reducible first
          | exact ev_refl _ _ | assumption | apply inc_ev | apply recordError_ev | apply dropFlow_ev | refine ev_ite ?_ ?_
          | refine ev_fst (by assumption) ?_ | refine ev_snd (by assumption) ?_)
      | (show sub _ _ = true; rfl) | (show List.contains _ _ = true; rfl) | dsimp only | split | (with_reducible apply ev_outs)

theorem abortOwnFlow_ev (hF : sub [.regs, .queues, .readPorts, .svcStats, .jnl, .outs, .weaves, .outFlows, .out] H = true) (h :
    Evolves H s0 s) (f : OutFlow) : Evolves H s0 (abortOwnFlow s f) := by
  refine ev_mono hF h ?_
  unfold abortOwnFlow
  repeat' first
      | (with_reducible first
          | exact ev_refl _ _ | assumption | apply sendAbort_ev | apply closeOwnFlow_ev | refine ev_ite ?_ ?_
          | refine ev_fst (by assumption) ?_ | refine ev_snd (by assumption) ?_)
      | (show sub _ _ = true; rfl) | (show List.contains _ _ = true; rfl)

theorem sendAck_ev (hF : sub [.weaves, .out] H = true) (h : Evolves H s0 s) (p : Nat) : Evolves H s0 (sendAck p s) := by
  refine ev_mono hF h ?_
  unfold sendAck
  repeat' first
      | (with_reducible first
          | exact ev_refl _ _ | assumption | apply setWv_ev | apply sendLocal_ev | refine ev_ite ?_ ?_
          | refine ev_fst (by assumption) ?_ | refine ev_snd (by assumption) ?_)
      | (show sub _ _ = true; rfl) | (show List.contains _ _ = true; rfl)

theorem setGeneration_ev (hF : sub [.regs, .cfgB, .ldr, .queues, .readPorts, .hostPorts, .svcStats, .jnl, .rsv, .frames, .outs,
    .doneKeys, .holds, .txs, .chans, .weaves, .outFlows, .fab, .jmem, .out, .freeCount] H = true) (h : Evolves H s0 s) (g : Nat)
    : Evolves H s0 (setGeneration g s) := by
  refine ev_mono hF h ?_
  unfold setGeneration
  repeat' first
      | (with_reducible first
          | exact ev_refl _ _ | assumption | apply wr_ev | apply abortOwnFlow_ev | apply closeComplete_ev | refine ev_ite ?_ ?_
          | (refine ev_foldl ?_ ?_; rotate_left; intro _ _ _) | refine ev_fst (by assumption) ?_
          | refine ev_snd (by assumption) ?_)
      | (show sub _ _ = true; rfl) | (show List.contains _ _ = true; rfl) | dsimp only | split | (with_reducible apply ev_fab)

theorem bumpGeneration_ev (hF : sub [.regs, .cfgB, .ldr, .queues, .readPorts, .hostPorts, .svcStats, .jnl, .rsv, .frames, .outs,
    .doneKeys, .holds, .txs, .chans, .weaves, .outFlows, .fab, .jmem, .out, .freeCount] H = true) (h : Evolves H s0 s)  :
    Evolves H s0 (bumpGeneration s) := by
  refine ev_mono hF h ?_
  unfold bumpGeneration
  repeat' first
      | (with_reducible first
          | exact ev_refl _ _ | assumption | apply setGeneration_ev | refine ev_ite ?_ ?_ | refine ev_fst (by assumption) ?_
          | refine ev_snd (by assumption) ?_)
      | (show sub _ _ = true; rfl) | (show List.contains _ _ = true; rfl)

theorem showRoute_ev (hF : sub [.regs] H = true) (h : Evolves H s0 s) (ns : List Node) (f : Nat) : Evolves H s0 (showRoute ns s
    f) := by
  refine ev_mono hF h ?_
  unfold showRoute
  repeat' first
      | (with_reducible first
          | exact ev_refl _ _ | assumption | apply setReg_ev | apply wr_ev | refine ev_ite ?_ ?_
          | refine ev_fst (by assumption) ?_ | refine ev_snd (by assumption) ?_)
      | (show sub _ _ = true; rfl) | (show List.contains _ _ = true) | dsimp only | split

theorem computeRoutes_ev (hF : sub [.regs, .fab] H = true) (h : Evolves H s0 s)  : Evolves H s0 (computeRoutes s) := by
  refine ev_mono hF h ?_
  unfold computeRoutes
  repeat' first
      | (with_reducible first
          | exact ev_refl _ _ | assumption | apply wr_ev | apply showRoute_ev | refine ev_ite ?_ ?_
          | (refine ev_foldl ?_ ?_; rotate_left; intro _ _ _) | refine ev_fst (by assumption) ?_
          | refine ev_snd (by assumption) ?_)
      | (show sub _ _ = true; rfl) | (show List.contains _ _ = true; rfl) | dsimp only | split | (with_reducible apply ev_fab)

theorem resolveClaim_ev (hF : sub [.regs, .cfgB, .ldr, .queues, .readPorts, .hostPorts, .svcStats, .jnl, .rsv, .frames, .outs,
    .doneKeys, .holds, .txs, .chans, .weaves, .outFlows, .fab, .jmem, .out, .freeCount] H = true) (h : Evolves H s0 s)  :
    Evolves H s0 (resolveClaim s) := by
  refine ev_mono hF h ?_
  unfold resolveClaim
  repeat' first
      | (with_reducible first
          | exact ev_refl _ _ | assumption | apply wr_ev | apply recordError_ev | apply bumpGeneration_ev | refine ev_ite ?_ ?_
          | refine ev_fst (by assumption) ?_ | refine ev_snd (by assumption) ?_)
      | (show sub _ _ = true; rfl) | (show List.contains _ _ = true; rfl) | dsimp only | split | (with_reducible apply ev_fab)

theorem sendLsa_ev (hF : sub [.regs, .weaves, .fab, .out] H = true) (h : Evolves H s0 s)  : Evolves H s0 (sendLsa s) := by
  refine ev_mono hF h ?_
  unfold sendLsa
  repeat' first
      | (with_reducible first
          | exact ev_refl _ _ | assumption | apply sendBlock_ev | refine ev_ite ?_ ?_
          | (refine ev_foldl ?_ ?_; rotate_left; intro _ _ _) | refine ev_fst (by assumption) ?_
          | refine ev_snd (by assumption) ?_)
      | (show sub _ _ = true; rfl) | (show List.contains _ _ = true; rfl) | dsimp only | split | (with_reducible apply ev_fab)

theorem sendLsaIfChanged_ev (hF : sub [.regs, .weaves, .fab, .out] H = true) (h : Evolves H s0 s)  : Evolves H s0
    (sendLsaIfChanged s) := by
  refine ev_mono hF h ?_
  unfold sendLsaIfChanged
  repeat' first
      | (with_reducible first
          | exact ev_refl _ _ | assumption | apply sendLsa_ev | refine ev_ite ?_ ?_ | refine ev_fst (by assumption) ?_
          | refine ev_snd (by assumption) ?_)
      | (show sub _ _ = true; rfl) | (show List.contains _ _ = true; rfl)

theorem refreshFabric_ev (hF : sub [.regs, .cfgB, .ldr, .queues, .readPorts, .hostPorts, .svcStats, .jnl, .rsv, .frames, .outs,
    .doneKeys, .holds, .txs, .chans, .weaves, .outFlows, .fab, .jmem, .out, .freeCount] H = true) (h : Evolves H s0 s)  :
    Evolves H s0 (refreshFabric s) := by
  refine ev_mono hF h ?_
  unfold refreshFabric
  repeat' first
      | (with_reducible first
          | exact ev_refl _ _ | assumption | apply computeRoutes_ev | apply resolveClaim_ev | apply sendLsaIfChanged_ev
          | refine ev_ite ?_ ?_ | refine ev_fst (by assumption) ?_ | refine ev_snd (by assumption) ?_)
      | (show sub _ _ = true; rfl) | (show List.contains _ _ = true; rfl)

theorem startTraining_ev (hF : sub [.regs, .weaves] H = true) (h : Evolves H s0 s) (p : Nat) (rate : Nat) : Evolves H s0
    (startTraining p rate s) := by
  refine ev_mono hF h ?_
  unfold startTraining
  repeat' first
      | (with_reducible first
          | exact ev_refl _ _ | assumption | apply wr_ev | apply setWv_ev | refine ev_ite ?_ ?_
          | refine ev_fst (by assumption) ?_ | refine ev_snd (by assumption) ?_)
      | (show sub _ _ = true; rfl) | (show List.contains _ _ = true; rfl)

theorem linkDown_ev (hF : sub [.regs, .cfgB, .ldr, .queues, .readPorts, .hostPorts, .svcStats, .jnl, .rsv, .frames, .outs,
    .doneKeys, .holds, .txs, .chans, .weaves, .outFlows, .fab, .jmem, .out, .freeCount] H = true) (h : Evolves H s0 s) (p : Nat)
    : Evolves H s0 (linkDown p s) := by
  refine ev_mono hF h ?_
  unfold linkDown
  repeat' first
      | (with_reducible first
          | exact ev_refl _ _ | assumption | apply wr_ev | apply inc_ev | apply recordError_ev | apply setWv_ev
          | apply abortInFlow_ev | apply closeOwnFlow_ev | apply bumpGeneration_ev | apply refreshFabric_ev
          | apply startTraining_ev | refine ev_ite ?_ ?_ | (refine ev_foldl ?_ ?_; rotate_left; intro _ _ _)
          | refine ev_fst (by assumption) ?_ | refine ev_snd (by assumption) ?_)
      | (show sub _ _ = true; rfl) | (show List.contains _ _ = true; rfl) | dsimp only | split
      | (with_reducible apply ev_outFlows)

theorem sendLaneMap_ev (hF : sub [.out] H = true) (h : Evolves H s0 s) (p : Nat) (lanes : Nat) (map : Nat) : Evolves H s0
    (sendLaneMap p lanes map s) := by
  refine ev_mono hF h ?_
  unfold sendLaneMap
  repeat' first
      | (with_reducible first
          | exact ev_refl _ _ | assumption | apply sendLocal_ev | refine ev_ite ?_ ?_ | refine ev_fst (by assumption) ?_
          | refine ev_snd (by assumption) ?_)
      | (show sub _ _ = true; rfl) | (show List.contains _ _ = true; rfl)

theorem sendLane_ev (hF : sub [.out] H = true) (h : Evolves H s0 s) (p : Nat) : Evolves H s0 (sendLane p s) := by
  refine ev_mono hF h ?_
  unfold sendLane
  repeat' first
      | (with_reducible first
          | exact ev_refl _ _ | assumption | apply sendLaneMap_ev | refine ev_ite ?_ ?_ | refine ev_fst (by assumption) ?_
          | refine ev_snd (by assumption) ?_)
      | (show sub _ _ = true; rfl) | (show List.contains _ _ = true; rfl)

theorem plannedMap_ev (hF : sub [.regs, .queues, .readPorts, .svcStats, .jnl, .weaves, .out] H = true) (h : Evolves H s0 s) (p :
    Nat) (map : Nat) : Evolves H s0 (plannedMap p map s) := by
  refine ev_mono hF h ?_
  unfold plannedMap
  repeat' first
      | (with_reducible first
          | exact ev_refl _ _ | assumption | apply wr_ev | apply recordError_ev | apply setWv_ev | apply sendLaneMap_ev
          | apply sendLane_ev | refine ev_ite ?_ ?_ | refine ev_fst (by assumption) ?_ | refine ev_snd (by assumption) ?_)
      | (show sub _ _ = true; rfl) | (show List.contains _ _ = true) | dsimp only | split

theorem applyWeave_ev (hF : sub [.regs, .cfgB, .ldr, .queues, .readPorts, .hostPorts, .svcStats, .jnl, .rsv, .frames, .outs,
    .doneKeys, .holds, .txs, .chans, .weaves, .outFlows, .fab, .jmem, .out, .freeCount] H = true) (h : Evolves H s0 s) (p : Nat)
    (mapChanged : Bool) : Evolves H s0 (applyWeave p mapChanged s) := by
  refine ev_mono hF h ?_
  unfold applyWeave
  repeat' first
      | (with_reducible first
          | exact ev_refl _ _ | assumption | apply wr_ev | apply startTraining_ev | apply linkDown_ev | apply plannedMap_ev
          | refine ev_ite ?_ ?_ | refine ev_fst (by assumption) ?_ | refine ev_snd (by assumption) ?_)
      | (show sub _ _ = true; rfl) | (show List.contains _ _ = true; rfl)

theorem claimFid_ev (hF : sub [.regs, .cfgB, .ldr, .queues, .readPorts, .hostPorts, .svcStats, .jnl, .rsv, .frames, .outs,
    .doneKeys, .holds, .txs, .chans, .weaves, .outFlows, .fab, .jmem, .out, .freeCount] H = true) (h : Evolves H s0 s) (f : Nat)
    : Evolves H s0 (claimFid f s) := by
  refine ev_mono hF h ?_
  unfold claimFid
  repeat' first
      | (with_reducible first
          | exact ev_refl _ _ | assumption | apply wr_ev | apply bumpGeneration_ev | apply refreshFabric_ev
          | refine ev_ite ?_ ?_ | refine ev_fst (by assumption) ?_ | refine ev_snd (by assumption) ?_)
      | (show sub _ _ = true; rfl) | (show List.contains _ _ = true; rfl) | dsimp only | split | (with_reducible apply ev_fab)

theorem chooseFid_ev (hF : sub [.regs, .cfgB, .ldr, .queues, .readPorts, .hostPorts, .svcStats, .jnl, .rsv, .frames, .outs,
    .doneKeys, .holds, .txs, .chans, .weaves, .outFlows, .fab, .jmem, .out, .freeCount] H = true) (h : Evolves H s0 s)  :
    Evolves H s0 (chooseFid s) := by
  refine ev_mono hF h ?_
  unfold chooseFid
  repeat' first
      | (with_reducible first
          | exact ev_refl _ _ | assumption | apply claimFid_ev | refine ev_ite ?_ ?_ | refine ev_fst (by assumption) ?_
          | refine ev_snd (by assumption) ?_)
      | (show sub _ _ = true; rfl) | (show List.contains _ _ = true) | dsimp only | split

theorem adoptGeneration_ev (hF : sub [.regs, .cfgB, .ldr, .queues, .readPorts, .hostPorts, .svcStats, .jnl, .rsv, .frames,
    .outs, .doneKeys, .holds, .txs, .chans, .weaves, .outFlows, .fab, .jmem, .out, .freeCount] H = true) (h : Evolves H s0 s) (g
    : Nat) : Evolves H s0 (adoptGeneration g s) := by
  refine ev_mono hF h ?_
  unfold adoptGeneration
  repeat' first
      | (with_reducible first
          | exact ev_refl _ _ | assumption | apply setGeneration_ev | refine ev_ite ?_ ?_ | refine ev_fst (by assumption) ?_
          | refine ev_snd (by assumption) ?_)
      | (show sub _ _ = true; rfl) | (show List.contains _ _ = true; rfl)

theorem becomeActive_ev (hF : sub [.regs, .cfgB, .ldr, .queues, .readPorts, .hostPorts, .svcStats, .jnl, .rsv, .frames, .outs,
    .doneKeys, .holds, .txs, .chans, .weaves, .outFlows, .fab, .jmem, .out, .freeCount] H = true) (h : Evolves H s0 s) (p : Nat)
    : Evolves H s0 (becomeActive p s) := by
  refine ev_mono hF h ?_
  unfold becomeActive
  repeat' first
      | (with_reducible first
          | exact ev_refl _ _ | assumption | apply wr_ev | apply bumpGeneration_ev | refine ev_ite ?_ ?_
          | refine ev_fst (by assumption) ?_ | refine ev_snd (by assumption) ?_)
      | (show sub _ _ = true; rfl) | (show List.contains _ _ = true; rfl) | dsimp only | split | (with_reducible apply ev_fab)

theorem putInFlow_ev (hF : sub [.weaves] H = true) (h : Evolves H s0 s) (p : Nat) (f : InFlow) : Evolves H s0 (putInFlow p f s)
    := by
  refine ev_mono hF h ?_
  unfold putInFlow
  repeat' first
      | (with_reducible first
          | exact ev_refl _ _ | assumption | apply setWv_ev | refine ev_ite ?_ ?_ | refine ev_fst (by assumption) ?_
          | refine ev_snd (by assumption) ?_)
      | (show sub _ _ = true; rfl) | (show List.contains _ _ = true; rfl)

theorem retransmit_ev (hF : sub [.regs, .cfgB, .ldr, .queues, .readPorts, .hostPorts, .svcStats, .jnl, .rsv, .frames, .outs,
    .doneKeys, .holds, .txs, .chans, .weaves, .outFlows, .fab, .jmem, .out, .freeCount] H = true) (h : Evolves H s0 s) (p : Nat)
    (b : Block × Nat) : Evolves H s0 (retransmit p s b) := by
  refine ev_mono hF h ?_
  unfold retransmit
  repeat' first
      | (with_reducible first
          | exact ev_refl _ _ | assumption | apply inc_ev | apply putOnLink_ev | apply setWv_ev | apply linkDown_ev
          | refine ev_ite ?_ ?_ | refine ev_fst (by assumption) ?_ | refine ev_snd (by assumption) ?_)
      | (show sub _ _ = true; rfl) | (show List.contains _ _ = true; rfl)

theorem doAckBlock_ev (hF : sub [.regs, .cfgB, .ldr, .queues, .readPorts, .hostPorts, .svcStats, .jnl, .rsv, .frames, .outs,
    .doneKeys, .holds, .txs, .chans, .weaves, .outFlows, .fab, .rly, .jmem, .out, .freeCount] H = true) (h : Evolves H s0 s) (p
    : Nat) (cum : Nat) (map : Nat) : Evolves H s0 (doAckBlock p cum map s) := by
  refine ev_mono hF h ?_
  unfold doAckBlock
  repeat' first
      | (with_reducible first
          | exact ev_refl _ _ | assumption | apply noteUnacked_ev | apply setWv_ev | apply drainWait_ev | apply releaseMirror_ev
          | apply retransmit_ev | refine ev_ite ?_ ?_ | (refine ev_foldl ?_ ?_; rotate_left; intro _ _ _)
          | refine ev_fst (by assumption) ?_ | refine ev_snd (by assumption) ?_)
      | (show sub _ _ = true; rfl) | (show List.contains _ _ = true; rfl)

theorem doAckTimer_ev (hF : sub [.weaves, .out] H = true) (h : Evolves H s0 s) (p : Nat) : Evolves H s0 (doAckTimer p s) := by
  refine ev_mono hF h ?_
  unfold doAckTimer
  repeat' first
      | (with_reducible first
          | exact ev_refl _ _ | assumption | apply sendAck_ev | refine ev_ite ?_ ?_ | refine ev_fst (by assumption) ?_
          | refine ev_snd (by assumption) ?_)
      | (show sub _ _ = true; rfl) | (show List.contains _ _ = true; rfl)

theorem doBlockCrcError_ev (hF : sub [.regs, .weaves, .out] H = true) (h : Evolves H s0 s) (p : Nat) : Evolves H s0
    (doBlockCrcError p s) := by
  refine ev_mono hF h ?_
  unfold doBlockCrcError
  repeat' first
      | (with_reducible first
          | exact ev_refl _ _ | assumption | apply inc_ev | apply sendAck_ev | refine ev_ite ?_ ?_
          | refine ev_fst (by assumption) ?_ | refine ev_snd (by assumption) ?_)
      | (show sub _ _ = true; rfl) | (show List.contains _ _ = true; rfl)

theorem doFidClaim_ev (hF : sub [.regs, .cfgB, .ldr, .queues, .readPorts, .hostPorts, .svcStats, .jnl, .rsv, .frames, .outs,
    .doneKeys, .holds, .txs, .chans, .weaves, .outFlows, .fab, .jmem, .out, .freeCount] H = true) (h : Evolves H s0 s)  :
    Evolves H s0 (doFidClaim s) := by
  refine ev_mono hF h ?_
  unfold doFidClaim
  repeat' first
      | (with_reducible first
          | exact ev_refl _ _ | assumption | apply claimFid_ev | refine ev_ite ?_ ?_ | refine ev_fst (by assumption) ?_
          | refine ev_snd (by assumption) ?_)
      | (show sub _ _ = true; rfl) | (show List.contains _ _ = true) | dsimp only | split

theorem doFidJournal_ev (hF : sub [.regs, .queues, .readPorts, .svcStats, .jnl, .fab, .jmem] H = true) (h : Evolves H s0 s)  :
    Evolves H s0 (doFidJournal s) := by
  refine ev_mono hF h ?_
  unfold doFidJournal
  repeat' first
      | (with_reducible first
          | exact ev_refl _ _ | assumption | apply journal_ev | apply writeStateArea_ev | refine ev_ite ?_ ?_
          | refine ev_fst (by assumption) ?_ | refine ev_snd (by assumption) ?_)
      | (with_reducible first
          | exact Nat.le_add_right _ _ | exact le_rfl)
      | (show sub _ _ = true; rfl) | (show List.contains _ _ = true; rfl) | dsimp only | split
      | (with_reducible apply ev_jnl_fab)

theorem doHelloBlock_ev (hF : sub [.regs, .cfgB, .ldr, .queues, .readPorts, .hostPorts, .svcStats, .jnl, .rsv, .frames, .outs,
    .doneKeys, .holds, .txs, .chans, .weaves, .outFlows, .fab, .jmem, .out, .freeCount] H = true) (h : Evolves H s0 s) (p : Nat)
    (uid : Nat) (name : Nat) (fid : Nat) (port : Nat) (gen : Nat) : Evolves H s0 (doHelloBlock p uid name fid port gen s) := by
  refine ev_mono hF h ?_
  unfold doHelloBlock
  repeat' first
      | (with_reducible first
          | exact ev_refl _ _ | assumption | apply wr_ev | apply recordError_ev | apply setWv_ev | apply bumpGeneration_ev
          | apply refreshFabric_ev | apply adoptGeneration_ev | apply becomeActive_ev | refine ev_ite ?_ ?_
          | refine ev_fst (by assumption) ?_ | refine ev_snd (by assumption) ?_)
      | (show sub _ _ = true; rfl) | (show List.contains _ _ = true; rfl)

theorem doHelloSend_ev (hF : sub [.out] H = true) (h : Evolves H s0 s) (p : Nat) : Evolves H s0 (doHelloSend p s) := by
  refine ev_mono hF h ?_
  unfold doHelloSend
  repeat' first
      | (with_reducible first
          | exact ev_refl _ _ | assumption | apply sendLocal_ev | refine ev_ite ?_ ?_ | refine ev_fst (by assumption) ?_
          | refine ev_snd (by assumption) ?_)
      | (show sub _ _ = true; rfl) | (show List.contains _ _ = true; rfl)

theorem doHelloTimeout_ev (hF : sub [.regs, .cfgB, .ldr, .queues, .readPorts, .hostPorts, .svcStats, .jnl, .rsv, .frames, .outs,
    .doneKeys, .holds, .txs, .chans, .weaves, .outFlows, .fab, .jmem, .out, .freeCount] H = true) (h : Evolves H s0 s) (p : Nat)
    : Evolves H s0 (doHelloTimeout p s) := by
  refine ev_mono hF h ?_
  unfold doHelloTimeout
  repeat' first
      | (with_reducible first
          | exact ev_refl _ _ | assumption | apply linkDown_ev | refine ev_ite ?_ ?_ | refine ev_fst (by assumption) ?_
          | refine ev_snd (by assumption) ?_)
      | (show sub _ _ = true; rfl) | (show List.contains _ _ = true; rfl)

theorem noteDegraded_ev (hF : sub [.regs, .queues, .readPorts, .svcStats, .jnl] H = true) (h : Evolves H s0 s) (p : Nat) :
    Evolves H s0 (noteDegraded p s) := by
  refine ev_mono hF h ?_
  unfold noteDegraded
  repeat' first
      | (with_reducible first
          | exact ev_refl _ _ | assumption | apply recordError_ev | refine ev_ite ?_ ?_ | refine ev_fst (by assumption) ?_
          | refine ev_snd (by assumption) ?_)
      | (show sub _ _ = true; rfl) | (show List.contains _ _ = true; rfl)

theorem useLanes_ev (hF : sub [.regs, .weaves] H = true) (h : Evolves H s0 s) (p : Nat) (mask : Nat) : Evolves H s0 (useLanes p
    mask s) := by
  refine ev_mono hF h ?_
  unfold useLanes
  repeat' first
      | (with_reducible first
          | exact ev_refl _ _ | assumption | apply wr_ev | apply setWv_ev | refine ev_ite ?_ ?_
          | refine ev_fst (by assumption) ?_ | refine ev_snd (by assumption) ?_)
      | (show sub _ _ = true; rfl) | (show List.contains _ _ = true; rfl)

theorem linkUp_ev (hF : sub [.regs, .queues, .readPorts, .svcStats, .jnl, .weaves] H = true) (h : Evolves H s0 s) (p : Nat)
    (mask : Nat) : Evolves H s0 (linkUp p mask s) := by
  refine ev_mono hF h ?_
  unfold linkUp
  repeat' first
      | (with_reducible first
          | exact ev_refl _ _ | assumption | apply wr_ev | apply setWv_ev | apply noteDegraded_ev | apply useLanes_ev
          | refine ev_ite ?_ ?_ | refine ev_fst (by assumption) ?_ | refine ev_snd (by assumption) ?_)
      | (show sub _ _ = true; rfl) | (show List.contains _ _ = true; rfl)

theorem takeMap_ev (hF : sub [.regs, .queues, .readPorts, .svcStats, .jnl, .weaves, .fab, .out] H = true) (h : Evolves H s0 s)
    (p : Nat) (lanes : Nat) (map : Nat) : Evolves H s0 (takeMap p lanes map s) := by
  refine ev_mono hF h ?_
  unfold takeMap
  repeat' first
      | (with_reducible first
          | exact ev_refl _ _ | assumption | apply wr_ev | apply setWv_ev | apply sendLsaIfChanged_ev | apply sendLane_ev
          | apply noteDegraded_ev | apply useLanes_ev | refine ev_ite ?_ ?_ | refine ev_fst (by assumption) ?_
          | refine ev_snd (by assumption) ?_)
      | (show sub _ _ = true; rfl) | (show List.contains _ _ = true; rfl)

theorem doLaneBlock_ev (hF : sub [.regs, .queues, .readPorts, .svcStats, .jnl, .weaves, .fab, .out] H = true) (h : Evolves H s0
    s) (p : Nat) (uid : Nat) (rate : Nat) (lanes : Nat) (map : Nat) : Evolves H s0 (doLaneBlock p uid rate lanes map s) := by
  refine ev_mono hF h ?_
  unfold doLaneBlock
  repeat' first
      | (with_reducible first
          | exact ev_refl _ _ | assumption | apply wr_ev | apply setWv_ev | apply sendLane_ev | apply linkUp_ev
          | apply takeMap_ev | refine ev_ite ?_ ?_ | refine ev_fst (by assumption) ?_ | refine ev_snd (by assumption) ?_)
      | (show sub _ _ = true; rfl) | (show List.contains _ _ = true; rfl)

theorem doLaneLock_ev (hF : sub [.regs, .queues, .readPorts, .svcStats, .jnl, .weaves, .out] H = true) (h : Evolves H s0 s) (p :
    Nat) (l : Nat) : Evolves H s0 (doLaneLock p l s) := by
  refine ev_mono hF h ?_
  unfold doLaneLock
  repeat' first
      | (with_reducible first
          | exact ev_refl _ _ | assumption | apply wr_ev | apply setWv_ev | apply sendLane_ev | apply linkUp_ev
          | refine ev_ite ?_ ?_ | refine ev_fst (by assumption) ?_ | refine ev_snd (by assumption) ?_)
      | (show sub _ _ = true; rfl) | (show List.contains _ _ = true; rfl)

theorem lanesMoved_ev (hF : sub [.regs, .weaves, .fab, .out] H = true) (h : Evolves H s0 s) (p : Nat) : Evolves H s0 (lanesMoved
    p s) := by
  refine ev_mono hF h ?_
  unfold lanesMoved
  repeat' first
      | (with_reducible first
          | exact ev_refl _ _ | assumption | apply sendLsaIfChanged_ev | apply sendLane_ev | refine ev_ite ?_ ?_
          | refine ev_fst (by assumption) ?_ | refine ev_snd (by assumption) ?_)
      | (show sub _ _ = true; rfl) | (show List.contains _ _ = true; rfl)

theorem failLane_ev (hF : sub [.regs, .cfgB, .ldr, .queues, .readPorts, .hostPorts, .svcStats, .jnl, .rsv, .frames, .outs,
    .doneKeys, .holds, .txs, .chans, .weaves, .outFlows, .fab, .jmem, .out, .freeCount] H = true) (h : Evolves H s0 s) (p : Nat)
    (l : Nat) : Evolves H s0 (failLane p l s) := by
  refine ev_mono hF h ?_
  unfold failLane
  repeat' first
      | (with_reducible first
          | exact ev_refl _ _ | assumption | apply wr_ev | apply inc_ev | apply recordError_ev | apply setWv_ev
          | apply noteWear_ev | apply linkDown_ev | apply noteDegraded_ev | apply useLanes_ev | apply lanesMoved_ev
          | refine ev_ite ?_ ?_ | refine ev_fst (by assumption) ?_ | refine ev_snd (by assumption) ?_)
      | (show sub _ _ = true; rfl) | (show List.contains _ _ = true) | dsimp only | split

theorem doLaneLockLost_ev (hF : sub [.regs, .cfgB, .ldr, .queues, .readPorts, .hostPorts, .svcStats, .jnl, .rsv, .frames, .outs,
    .doneKeys, .holds, .txs, .chans, .weaves, .outFlows, .fab, .jmem, .out, .freeCount] H = true) (h : Evolves H s0 s) (p : Nat)
    (l : Nat) : Evolves H s0 (doLaneLockLost p l s) := by
  refine ev_mono hF h ?_
  unfold doLaneLockLost
  repeat' first
      | (with_reducible first
          | exact ev_refl _ _ | assumption | apply wr_ev | apply failLane_ev | refine ev_ite ?_ ?_
          | refine ev_fst (by assumption) ?_ | refine ev_snd (by assumption) ?_)
      | (show sub _ _ = true; rfl) | (show List.contains _ _ = true; rfl)

theorem doLsaAge_ev (hF : sub [.regs, .cfgB, .ldr, .queues, .readPorts, .hostPorts, .svcStats, .jnl, .rsv, .frames, .outs,
    .doneKeys, .holds, .txs, .chans, .weaves, .outFlows, .fab, .jmem, .out, .freeCount] H = true) (h : Evolves H s0 s) (uid :
    Nat) : Evolves H s0 (doLsaAge uid s) := by
  refine ev_mono hF h ?_
  unfold doLsaAge
  repeat' first
      | (with_reducible first
          | exact ev_refl _ _ | assumption | apply refreshFabric_ev | refine ev_ite ?_ ?_ | refine ev_fst (by assumption) ?_
          | refine ev_snd (by assumption) ?_)
      | (show sub _ _ = true; rfl) | (show List.contains _ _ = true; rfl) | dsimp only | split | (with_reducible apply ev_fab)

theorem doRetransmitTimeout_ev (hF : sub [.regs, .cfgB, .ldr, .queues, .readPorts, .hostPorts, .svcStats, .jnl, .rsv, .frames,
    .outs, .doneKeys, .holds, .txs, .chans, .weaves, .outFlows, .fab, .jmem, .out, .freeCount] H = true) (h : Evolves H s0 s) (p
    : Nat) : Evolves H s0 (doRetransmitTimeout p s) := by
  refine ev_mono hF h ?_
  unfold doRetransmitTimeout
  repeat' first
      | (with_reducible first
          | exact ev_refl _ _ | assumption | apply retransmit_ev | refine ev_ite ?_ ?_
          | (refine ev_foldl ?_ ?_; rotate_left; intro _ _ _) | refine ev_fst (by assumption) ?_
          | refine ev_snd (by assumption) ?_)
      | (show sub _ _ = true; rfl) | (show List.contains _ _ = true; rfl)

theorem doSyncHeaderErrors_ev (hF : sub [.regs, .cfgB, .ldr, .queues, .readPorts, .hostPorts, .svcStats, .jnl, .rsv, .frames,
    .outs, .doneKeys, .holds, .txs, .chans, .weaves, .outFlows, .fab, .jmem, .out, .freeCount] H = true) (h : Evolves H s0 s) (p
    : Nat) (l : Nat) : Evolves H s0 (doSyncHeaderErrors p l s) := by
  refine ev_mono hF h ?_
  unfold doSyncHeaderErrors
  repeat' first
      | (with_reducible first
          | exact ev_refl _ _ | assumption | apply addSat_ev | apply noteWear_ev | apply failLane_ev | refine ev_ite ?_ ?_
          | refine ev_fst (by assumption) ?_ | refine ev_snd (by assumption) ?_)
      | (show sub _ _ = true; rfl) | (show List.contains _ _ = true; rfl)

theorem doTrainTimeout_ev (hF : sub [.regs, .weaves] H = true) (h : Evolves H s0 s) (p : Nat) : Evolves H s0 (doTrainTimeout p
    s) := by
  refine ev_mono hF h ?_
  unfold doTrainTimeout
  repeat' first
      | (with_reducible first
          | exact ev_refl _ _ | assumption | apply wr_ev | apply startTraining_ev | refine ev_ite ?_ ?_
          | refine ev_fst (by assumption) ?_ | refine ev_snd (by assumption) ?_)
      | (show sub _ _ = true; rfl) | (show List.contains _ _ = true; rfl)

theorem execAckBlock_ev (hF : sub [.regs, .cfgB, .ldr, .queues, .readPorts, .hostPorts, .svcStats, .jnl, .rsv, .frames, .outs,
    .doneKeys, .holds, .txs, .chans, .weaves, .outFlows, .fab, .rly, .jmem, .out, .freeCount] H = true) (h : Evolves H s0 s) (p
    : Nat) (cum : Nat) (map : Nat) (e : execAckBlock p cum map s = .next sNext) : Evolves H s0 sNext := by
  refine ev_mono hF h ?_
  unfold execAckBlock at e
  cases e
  repeat' first
      | (with_reducible first
          | exact ev_refl _ _ | assumption | apply doAckBlock_ev | refine ev_ite ?_ ?_ | refine ev_fst (by assumption) ?_
          | refine ev_snd (by assumption) ?_)
      | (show sub _ _ = true; rfl) | (show List.contains _ _ = true; rfl)

theorem execAckTimer_ev (hF : sub [.weaves, .out] H = true) (h : Evolves H s0 s) (p : Nat) (e : execAckTimer p s = .next sNext)
    : Evolves H s0 sNext := by
  refine ev_mono hF h ?_
  unfold execAckTimer at e
  cases e
  repeat' first
      | (with_reducible first
          | exact ev_refl _ _ | assumption | apply doAckTimer_ev | refine ev_ite ?_ ?_ | refine ev_fst (by assumption) ?_
          | refine ev_snd (by assumption) ?_)
      | (show sub _ _ = true; rfl) | (show List.contains _ _ = true; rfl)

theorem execBlockCrcError_ev (hF : sub [.regs, .weaves, .out] H = true) (h : Evolves H s0 s) (p : Nat) (e : execBlockCrcError p
    s = .next sNext) : Evolves H s0 sNext := by
  refine ev_mono hF h ?_
  unfold execBlockCrcError at e
  cases e
  repeat' first
      | (with_reducible first
          | exact ev_refl _ _ | assumption | apply doBlockCrcError_ev | refine ev_ite ?_ ?_ | refine ev_fst (by assumption) ?_
          | refine ev_snd (by assumption) ?_)
      | (show sub _ _ = true; rfl) | (show List.contains _ _ = true; rfl)

theorem execFidClaim_ev (hF : sub [.regs, .cfgB, .ldr, .queues, .readPorts, .hostPorts, .svcStats, .jnl, .rsv, .frames, .outs,
    .doneKeys, .holds, .txs, .chans, .weaves, .outFlows, .fab, .jmem, .out, .freeCount] H = true) (h : Evolves H s0 s) (e :
    execFidClaim s = .next sNext) : Evolves H s0 sNext := by
  refine ev_mono hF h ?_
  unfold execFidClaim at e
  cases e
  repeat' first
      | (with_reducible first
          | exact ev_refl _ _ | assumption | apply doFidClaim_ev | refine ev_ite ?_ ?_ | refine ev_fst (by assumption) ?_
          | refine ev_snd (by assumption) ?_)
      | (show sub _ _ = true; rfl) | (show List.contains _ _ = true; rfl)

theorem execFidJournal_ev (hF : sub [.regs, .queues, .readPorts, .svcStats, .jnl, .fab, .jmem] H = true) (h : Evolves H s0 s) (e
    : execFidJournal s = .next sNext) : Evolves H s0 sNext := by
  refine ev_mono hF h ?_
  unfold execFidJournal at e
  cases e
  repeat' first
      | (with_reducible first
          | exact ev_refl _ _ | assumption | apply doFidJournal_ev | refine ev_ite ?_ ?_ | refine ev_fst (by assumption) ?_
          | refine ev_snd (by assumption) ?_)
      | (show sub _ _ = true; rfl) | (show List.contains _ _ = true; rfl)

theorem execHelloBlock_ev (hF : sub [.regs, .cfgB, .ldr, .queues, .readPorts, .hostPorts, .svcStats, .jnl, .rsv, .frames, .outs,
    .doneKeys, .holds, .txs, .chans, .weaves, .outFlows, .fab, .jmem, .out, .freeCount] H = true) (h : Evolves H s0 s) (p : Nat)
    (uid : Nat) (name : Nat) (fid : Nat) (port : Nat) (gen : Nat) (e : execHelloBlock p uid name fid port gen s = .next sNext) :
    Evolves H s0 sNext := by
  refine ev_mono hF h ?_
  unfold execHelloBlock at e
  cases e
  repeat' first
      | (with_reducible first
          | exact ev_refl _ _ | assumption | apply doHelloBlock_ev | refine ev_ite ?_ ?_ | refine ev_fst (by assumption) ?_
          | refine ev_snd (by assumption) ?_)
      | (show sub _ _ = true; rfl) | (show List.contains _ _ = true; rfl)

theorem execHelloSend_ev (hF : sub [.out] H = true) (h : Evolves H s0 s) (p : Nat) (e : execHelloSend p s = .next sNext) :
    Evolves H s0 sNext := by
  refine ev_mono hF h ?_
  unfold execHelloSend at e
  cases e
  repeat' first
      | (with_reducible first
          | exact ev_refl _ _ | assumption | apply doHelloSend_ev | refine ev_ite ?_ ?_ | refine ev_fst (by assumption) ?_
          | refine ev_snd (by assumption) ?_)
      | (show sub _ _ = true; rfl) | (show List.contains _ _ = true; rfl)

theorem execHelloTimeout_ev (hF : sub [.regs, .cfgB, .ldr, .queues, .readPorts, .hostPorts, .svcStats, .jnl, .rsv, .frames,
    .outs, .doneKeys, .holds, .txs, .chans, .weaves, .outFlows, .fab, .jmem, .out, .freeCount] H = true) (h : Evolves H s0 s) (p
    : Nat) (e : execHelloTimeout p s = .next sNext) : Evolves H s0 sNext := by
  refine ev_mono hF h ?_
  unfold execHelloTimeout at e
  cases e
  repeat' first
      | (with_reducible first
          | exact ev_refl _ _ | assumption | apply doHelloTimeout_ev | refine ev_ite ?_ ?_ | refine ev_fst (by assumption) ?_
          | refine ev_snd (by assumption) ?_)
      | (show sub _ _ = true; rfl) | (show List.contains _ _ = true; rfl)

theorem execLaneBlock_ev (hF : sub [.regs, .queues, .readPorts, .svcStats, .jnl, .weaves, .fab, .out] H = true) (h : Evolves H
    s0 s) (p : Nat) (uid : Nat) (rate : Nat) (lanes : Nat) (map : Nat) (e : execLaneBlock p uid rate lanes map s = .next sNext)
    : Evolves H s0 sNext := by
  refine ev_mono hF h ?_
  unfold execLaneBlock at e
  cases e
  repeat' first
      | (with_reducible first
          | exact ev_refl _ _ | assumption | apply doLaneBlock_ev | refine ev_ite ?_ ?_ | refine ev_fst (by assumption) ?_
          | refine ev_snd (by assumption) ?_)
      | (show sub _ _ = true; rfl) | (show List.contains _ _ = true; rfl)

theorem execLaneLock_ev (hF : sub [.regs, .queues, .readPorts, .svcStats, .jnl, .weaves, .out] H = true) (h : Evolves H s0 s) (p
    : Nat) (l : Nat) (e : execLaneLock p l s = .next sNext) : Evolves H s0 sNext := by
  refine ev_mono hF h ?_
  unfold execLaneLock at e
  cases e
  repeat' first
      | (with_reducible first
          | exact ev_refl _ _ | assumption | apply doLaneLock_ev | refine ev_ite ?_ ?_ | refine ev_fst (by assumption) ?_
          | refine ev_snd (by assumption) ?_)
      | (show sub _ _ = true; rfl) | (show List.contains _ _ = true; rfl)

theorem execLaneLockLost_ev (hF : sub [.regs, .cfgB, .ldr, .queues, .readPorts, .hostPorts, .svcStats, .jnl, .rsv, .frames,
    .outs, .doneKeys, .holds, .txs, .chans, .weaves, .outFlows, .fab, .jmem, .out, .freeCount] H = true) (h : Evolves H s0 s) (p
    : Nat) (l : Nat) (e : execLaneLockLost p l s = .next sNext) : Evolves H s0 sNext := by
  refine ev_mono hF h ?_
  unfold execLaneLockLost at e
  cases e
  repeat' first
      | (with_reducible first
          | exact ev_refl _ _ | assumption | apply doLaneLockLost_ev | refine ev_ite ?_ ?_ | refine ev_fst (by assumption) ?_
          | refine ev_snd (by assumption) ?_)
      | (show sub _ _ = true; rfl) | (show List.contains _ _ = true; rfl)

theorem execLsaAge_ev (hF : sub [.regs, .cfgB, .ldr, .queues, .readPorts, .hostPorts, .svcStats, .jnl, .rsv, .frames, .outs,
    .doneKeys, .holds, .txs, .chans, .weaves, .outFlows, .fab, .jmem, .out, .freeCount] H = true) (h : Evolves H s0 s) (uid :
    Nat) (e : execLsaAge uid s = .next sNext) : Evolves H s0 sNext := by
  refine ev_mono hF h ?_
  unfold execLsaAge at e
  cases e
  repeat' first
      | (with_reducible first
          | exact ev_refl _ _ | assumption | apply doLsaAge_ev | refine ev_ite ?_ ?_ | refine ev_fst (by assumption) ?_
          | refine ev_snd (by assumption) ?_)
      | (show sub _ _ = true; rfl) | (show List.contains _ _ = true; rfl)

theorem execLsaRefresh_ev (hF : sub [.regs, .weaves, .fab, .out] H = true) (h : Evolves H s0 s) (e : execLsaRefresh s = .next
    sNext) : Evolves H s0 sNext := by
  refine ev_mono hF h ?_
  unfold execLsaRefresh at e
  cases e
  repeat' first
      | (with_reducible first
          | exact ev_refl _ _ | assumption | apply sendLsa_ev | refine ev_ite ?_ ?_ | refine ev_fst (by assumption) ?_
          | refine ev_snd (by assumption) ?_)
      | (show sub _ _ = true; rfl) | (show List.contains _ _ = true; rfl)

theorem execRetransmitTimeout_ev (hF : sub [.regs, .cfgB, .ldr, .queues, .readPorts, .hostPorts, .svcStats, .jnl, .rsv, .frames,
    .outs, .doneKeys, .holds, .txs, .chans, .weaves, .outFlows, .fab, .jmem, .out, .freeCount] H = true) (h : Evolves H s0 s) (p
    : Nat) (e : execRetransmitTimeout p s = .next sNext) : Evolves H s0 sNext := by
  refine ev_mono hF h ?_
  unfold execRetransmitTimeout at e
  cases e
  repeat' first
      | (with_reducible first
          | exact ev_refl _ _ | assumption | apply doRetransmitTimeout_ev | refine ev_ite ?_ ?_
          | refine ev_fst (by assumption) ?_ | refine ev_snd (by assumption) ?_)
      | (show sub _ _ = true; rfl) | (show List.contains _ _ = true; rfl)

theorem execSyncHeaderErrors_ev (hF : sub [.regs, .cfgB, .ldr, .queues, .readPorts, .hostPorts, .svcStats, .jnl, .rsv, .frames,
    .outs, .doneKeys, .holds, .txs, .chans, .weaves, .outFlows, .fab, .jmem, .out, .freeCount] H = true) (h : Evolves H s0 s) (p
    : Nat) (l : Nat) (e : execSyncHeaderErrors p l s = .next sNext) : Evolves H s0 sNext := by
  refine ev_mono hF h ?_
  unfold execSyncHeaderErrors at e
  cases e
  repeat' first
      | (with_reducible first
          | exact ev_refl _ _ | assumption | apply doSyncHeaderErrors_ev | refine ev_ite ?_ ?_
          | refine ev_fst (by assumption) ?_ | refine ev_snd (by assumption) ?_)
      | (show sub _ _ = true; rfl) | (show List.contains _ _ = true; rfl)

theorem execTrainTimeout_ev (hF : sub [.regs, .weaves] H = true) (h : Evolves H s0 s) (p : Nat) (e : execTrainTimeout p s =
    .next sNext) : Evolves H s0 sNext := by
  refine ev_mono hF h ?_
  unfold execTrainTimeout at e
  cases e
  repeat' first
      | (with_reducible first
          | exact ev_refl _ _ | assumption | apply doTrainTimeout_ev | refine ev_ite ?_ ?_ | refine ev_fst (by assumption) ?_
          | refine ev_snd (by assumption) ?_)
      | (show sub _ _ = true; rfl) | (show List.contains _ _ = true; rfl)

end Sys2Proof.Machine
end

