-- ==== Sys2Proof/Laws/EvRelay.lean ====
section
/-! SUPPORT. What each function of Machine/Relay.lean changes: one lemma per function, its footprint first. -/

namespace Sys2Proof.Machine
open Sys2Proof

set_option linter.unusedTactic false
set_option linter.unreachableTactic false
set_option linter.unusedVariables false

variable {H : List StateField} {s0 s sNext : State}

theorem judgeDigest_ev (hF : sub [.regs, .queues, .readPorts, .svcStats, .jnl] H = true) (h : Evolves H s0 s) (first : Bool)
    (peer : Nat) : Evolves H s0 (judgeDigest first peer s) := by
  refine ev_mono hF h ?_
  unfold judgeDigest
  repeat' first
      | (with_reducible first
          | exact ev_refl _ _ | assumption | apply wr_ev | apply recordError_ev | refine ev_ite ?_ ?_
          | refine ev_fst (by assumption) ?_ | refine ev_snd (by assumption) ?_)
      | (show sub _ _ = true; rfl) | (show List.contains _ _ = true; rfl)

theorem freshDigest_ev (hF : sub [.regs, .queues, .readPorts, .svcStats, .jnl] H = true) (h : Evolves H s0 s)  : Evolves H s0
    (freshDigest s) := by
  refine ev_mono hF h ?_
  unfold freshDigest
  repeat' first
      | (with_reducible first
          | exact ev_refl _ _ | assumption | apply wr_ev | apply judgeDigest_ev | refine ev_ite ?_ ?_
          | refine ev_fst (by assumption) ?_ | refine ev_snd (by assumption) ?_)
      | (show sub _ _ = true; rfl) | (show List.contains _ _ = true; rfl)

theorem doHandover_ev (hF : sub [.regs, .weaves, .rly, .out] H = true) (h : Evolves H s0 s) (o : Orig) (v : Nat) : Evolves H s0
    (doHandover o v s) := by
  refine ev_mono hF h ?_
  unfold doHandover
  repeat' first
      | (with_reducible first
          | exact ev_refl _ _ | assumption | apply deny_ev | apply sendBaton_ev | apply commitBaton_ev | refine ev_ite ?_ ?_
          | refine ev_fst (by assumption) ?_ | refine ev_snd (by assumption) ?_)
      | (show sub _ _ = true; rfl) | (show List.contains _ _ = true; rfl) | dsimp only | split | (with_reducible apply ev_rly)

theorem becomeFenced_ev (hF : sub [.regs, .queues, .readPorts, .svcStats, .jnl, .rly] H = true) (h : Evolves H s0 s)  : Evolves
    H s0 (becomeFenced s) := by
  refine ev_mono hF h ?_
  unfold becomeFenced
  repeat' first
      | (with_reducible first
          | exact ev_refl _ _ | assumption | apply wr_ev | apply recordError_ev | refine ev_ite ?_ ?_
          | refine ev_fst (by assumption) ?_ | refine ev_snd (by assumption) ?_)
      | (show sub _ _ = true; rfl) | (show List.contains _ _ = true; rfl) | dsimp only | split | (with_reducible apply ev_rly)

theorem reopenFrame_ev (hF : sub [.frames, .outs, .holds] H = true) (h : Evolves H s0 s) (c : Nat) : Evolves H s0 (reopenFrame s
    c) := by
  refine ev_mono hF h ?_
  unfold reopenFrame
  repeat' first
      | (with_reducible first
          | exact ev_refl _ _ | assumption | apply setHold_ev | apply putFrame_ev | refine ev_ite ?_ ?_
          | refine ev_fst (by assumption) ?_ | refine ev_snd (by assumption) ?_)
      | (show sub _ _ = true; rfl) | (show List.contains _ _ = true; rfl) | dsimp only | split | (with_reducible apply ev_outs)

theorem emitHeld_ev (hF : sub [.regs, .frames, .nextFrame, .outs, .holds] H = true) (h : Evolves H s0 s) (c : Nat) : Evolves H
    s0 (emitHeld s c) := by
  refine ev_mono hF h ?_
  unfold emitHeld
  repeat' first
      | (with_reducible first
          | exact ev_refl _ _ | assumption | apply wr_ev | apply reopenFrame_ev | refine ev_ite ?_ ?_
          | refine ev_fst (by assumption) ?_ | refine ev_snd (by assumption) ?_)
      | (with_reducible first
          | exact Nat.le_add_right _ _ | exact le_rfl)
      | (show sub _ _ = true; rfl) | (show List.contains _ _ = true; rfl) | dsimp only | split
      | (with_reducible apply ev_frames_nextFrame)

theorem takeBaton_ev (hF : sub [.pins, .regs, .frames, .nextFrame, .outs, .holds, .pwrs, .out] H = true) (h : Evolves H s0 s)
    (newRole : Nat) (gen : Nat) : Evolves H s0 (takeBaton newRole gen s) := by
  refine ev_mono hF h ?_
  unfold takeBaton
  repeat' first
      | (with_reducible first
          | exact ev_refl _ _ | assumption | apply wr_ev | apply inc_ev | apply powerInrush_ev | apply emitHeld_ev
          | refine ev_ite ?_ ?_ | (refine ev_foldl ?_ ?_; rotate_left; intro _ _ _) | refine ev_fst (by assumption) ?_
          | refine ev_snd (by assumption) ?_)
      | (show sub _ _ = true; rfl) | (show List.contains _ _ = true; rfl)

theorem takeBatonRecord_ev (hF : sub [.pins, .regs, .frames, .nextFrame, .outs, .holds, .rly, .pwrs, .out] H = true) (h :
    Evolves H s0 s) (b : List Nat) : Evolves H s0 (takeBatonRecord b s) := by
  refine ev_mono hF h ?_
  unfold takeBatonRecord
  repeat' first
      | (with_reducible first
          | exact ev_refl _ _ | assumption | apply takeBaton_ev | refine ev_ite ?_ ?_ | refine ev_fst (by assumption) ?_
          | refine ev_snd (by assumption) ?_)
      | (show sub _ _ = true; rfl) | (show List.contains _ _ = true; rfl) | dsimp only | split | (with_reducible apply ev_rly)

theorem loadLive_ev (hF : sub [.liveB] H = true) (h : Evolves H s0 s) (c : Nat) (b : List Nat) : Evolves H s0 (loadLive c b s)
    := by
  refine ev_mono hF h ?_
  unfold loadLive
  repeat' first
      | (with_reducible first
          | exact ev_refl _ _ | assumption | refine ev_ite ?_ ?_ | refine ev_fst (by assumption) ?_
          | refine ev_snd (by assumption) ?_)
      | (with_reducible first
          | exact Nat.le_add_right _ _ | exact le_rfl
          | (refine fun (c : State.Canonical _) => ?_; repeat' first | exact c.cfgB | exact c.cfgA | exact c.liveB | exact ⟨c.profSets, c.baseSet⟩ | exact ⟨profSets_sset c.profSets _ c.cfgB, c.baseSet⟩ | exact ⟨c.profSets, c.cfgB⟩ | exact ⟨List.forall_mem_nil _, rfl⟩ | exact swf_nil _ | exact swf_freshBank_of rfl | exact swf_profSet c _ | exact swf_setOfProfile c _ | exact swf_bankOf c _ | apply swf_foldl_sset | apply swf_sset))
      | (show sub _ _ = true) | (show List.contains _ _ = true; rfl) | dsimp only | split | (with_reducible apply ev_liveB)

theorem takeDeliver_ev (hF : sub [.regs, .liveB, .cams, .frames, .holds, .rly] H = true) (h : Evolves H s0 s) (b : List Nat) :
    Evolves H s0 (takeDeliver b s) := by
  refine ev_mono hF h ?_
  unfold takeDeliver
  repeat' first
      | (with_reducible first
          | exact ev_refl _ _ | assumption | apply wr_ev | apply setHold_ev | apply putFrame_ev | apply setCam_ev
          | apply loadLive_ev | refine ev_ite ?_ ?_ | refine ev_fst (by assumption) ?_ | refine ev_snd (by assumption) ?_)
      | (show sub _ _ = true; rfl) | (show List.contains _ _ = true; rfl) | dsimp only | split | (with_reducible apply ev_rly)

theorem takeHeartbeat_ev (hF : sub [.regs, .queues, .readPorts, .svcStats, .jnl, .rly] H = true) (h : Evolves H s0 s) (b : List
    Nat) : Evolves H s0 (takeHeartbeat b s) := by
  refine ev_mono hF h ?_
  unfold takeHeartbeat
  repeat' first
      | (with_reducible first
          | exact ev_refl _ _ | assumption | apply wr_ev | apply judgeDigest_ev | refine ev_ite ?_ ?_
          | refine ev_fst (by assumption) ?_ | refine ev_snd (by assumption) ?_)
      | (show sub _ _ = true; rfl) | (show List.contains _ _ = true; rfl) | dsimp only | split | (with_reducible apply ev_rly)

theorem takeProfile_ev (hF : sub [.rly] H = true) (h : Evolves H s0 s) (b : List Nat) : Evolves H s0 (takeProfile b s) := by
  refine ev_mono hF h ?_
  unfold takeProfile
  repeat' first
      | (with_reducible first
          | exact ev_refl _ _ | assumption | refine ev_ite ?_ ?_ | refine ev_fst (by assumption) ?_
          | refine ev_snd (by assumption) ?_)
      | (show sub _ _ = true) | (show List.contains _ _ = true; rfl) | dsimp only | split | (with_reducible apply ev_rly)

theorem deliverRelay_ev (hF : sub [.pins, .regs, .liveB, .queues, .readPorts, .svcStats, .jnl, .cams, .frames, .nextFrame,
    .outs, .holds, .rly, .pwrs, .out] H = true) (h : Evolves H s0 s) (b : List Nat) : Evolves H s0 (deliverRelay b s) := by
  refine ev_mono hF h ?_
  unfold deliverRelay
  repeat' first
      | (with_reducible first
          | exact ev_refl _ _ | assumption | apply takeBatonRecord_ev | apply takeDeliver_ev | apply takeHeartbeat_ev
          | apply takeProfile_ev | refine ev_ite ?_ ?_ | refine ev_fst (by assumption) ?_ | refine ev_snd (by assumption) ?_)
      | (show sub _ _ = true; rfl) | (show List.contains _ _ = true; rfl)

theorem doDeliverAckTimeout_ev (hF : sub [.pins, .regs, .queues, .readPorts, .hostPorts, .svcStats, .jnl, .rsv, .outs, .holds,
    .txs, .chans, .weaves, .outFlows, .rly, .out] H = true) (h : Evolves H s0 s)  : Evolves H s0 (doDeliverAckTimeout s) := by
  refine ev_mono hF h ?_
  unfold doDeliverAckTimeout
  repeat' first
      | (with_reducible first
          | exact ev_refl _ _ | assumption | apply enterSolo_ev | refine ev_ite ?_ ?_ | refine ev_fst (by assumption) ?_
          | refine ev_snd (by assumption) ?_)
      | (show sub _ _ = true; rfl) | (show List.contains _ _ = true; rfl)

theorem doFcMismatch_ev (hF : sub [.regs, .queues, .readPorts, .svcStats, .jnl, .rly] H = true) (h : Evolves H s0 s) (c : Nat) :
    Evolves H s0 (doFcMismatch c s) := by
  refine ev_mono hF h ?_
  unfold doFcMismatch
  repeat' first
      | (with_reducible first
          | exact ev_refl _ _ | assumption | apply inc_ev | apply recordError_ev | refine ev_ite ?_ ?_
          | refine ev_fst (by assumption) ?_ | refine ev_snd (by assumption) ?_)
      | (show sub _ _ = true; rfl) | (show List.contains _ _ = true; rfl) | dsimp only | split | (with_reducible apply ev_rly)

theorem stopClassM_ev (hF : sub [.regs, .cfgB, .ldr, .queues, .readPorts, .hostPorts, .svcStats, .jnl, .rsv, .frames, .outs,
    .doneKeys, .holds, .txs, .chans, .weaves, .outFlows, .rly, .jmem, .out, .freeCount] H = true) (h : Evolves H s0 s)  :
    Evolves H s0 (stopClassM s) := by
  refine ev_mono hF h ?_
  unfold stopClassM
  repeat' first
      | (with_reducible first
          | exact ev_refl _ _ | assumption | apply dropOut_ev | apply closeComplete_ev | refine ev_ite ?_ ?_
          | (refine ev_foldl ?_ ?_; rotate_left; intro _ _ _) | refine ev_fst (by assumption) ?_
          | refine ev_snd (by assumption) ?_)
      | (show sub _ _ = true; rfl) | (show List.contains _ _ = true; rfl) | dsimp only | split | (with_reducible apply ev_rly)

theorem doFenceInput_ev (hF : sub [.pins, .regs, .cfgB, .ldr, .queues, .readPorts, .hostPorts, .svcStats, .jnl, .rsv, .frames,
    .outs, .doneKeys, .holds, .txs, .chans, .weaves, .outFlows, .rly, .jmem, .out, .freeCount] H = true) (h : Evolves H s0 s)
    (low : Bool) : Evolves H s0 (doFenceInput low s) := by
  refine ev_mono hF h ?_
  unfold doFenceInput
  repeat' first
      | (with_reducible first
          | exact ev_refl _ _ | assumption | apply wr_ev | apply driveFence_ev | apply becomeFenced_ev | apply stopClassM_ev
          | refine ev_ite ?_ ?_ | refine ev_fst (by assumption) ?_ | refine ev_snd (by assumption) ?_)
      | (show sub _ _ = true; rfl) | (show List.contains _ _ = true; rfl)

theorem doFenceReleaseTimer_ev (hF : sub [.regs] H = true) (h : Evolves H s0 s)  : Evolves H s0 (doFenceReleaseTimer s) := by
  refine ev_mono hF h ?_
  unfold doFenceReleaseTimer
  repeat' first
      | (with_reducible first
          | exact ev_refl _ _ | assumption | apply wr_ev | refine ev_ite ?_ ?_ | refine ev_fst (by assumption) ?_
          | refine ev_snd (by assumption) ?_)
      | (show sub _ _ = true; rfl) | (show List.contains _ _ = true; rfl)

theorem doFenceWaitExpire_ev (hF : sub [.pins, .regs, .queues, .readPorts, .svcStats, .jnl, .frames, .nextFrame, .outs, .holds,
    .rly, .pwrs, .out] H = true) (h : Evolves H s0 s)  : Evolves H s0 (doFenceWaitExpire s) := by
  refine ev_mono hF h ?_
  unfold doFenceWaitExpire
  repeat' first
      | (with_reducible first
          | exact ev_refl _ _ | assumption | apply wr_ev | apply driveFence_ev | apply becomeFenced_ev | apply takeBaton_ev
          | refine ev_ite ?_ ?_ | refine ev_fst (by assumption) ?_ | refine ev_snd (by assumption) ?_)
      | (show sub _ _ = true; rfl) | (show List.contains _ _ = true; rfl) | dsimp only | split | (with_reducible apply ev_rly)

theorem doHbInputEdge_ev (hF : sub [.rly] H = true) (h : Evolves H s0 s)  : Evolves H s0 (doHbInputEdge s) := by
  refine ev_mono hF h ?_
  unfold doHbInputEdge
  repeat' first
      | (with_reducible first
          | exact ev_refl _ _ | assumption | refine ev_ite ?_ ?_ | refine ev_fst (by assumption) ?_
          | refine ev_snd (by assumption) ?_)
      | (show sub _ _ = true) | (show List.contains _ _ = true; rfl) | dsimp only | split | (with_reducible apply ev_rly)

theorem doHeartbeatSend_ev (hF : sub [.pins, .regs, .weaves, .out] H = true) (h : Evolves H s0 s)  : Evolves H s0
    (doHeartbeatSend s) := by
  refine ev_mono hF h ?_
  unfold doHeartbeatSend
  repeat' first
      | (with_reducible first
          | exact ev_refl _ _ | assumption | apply wr_ev | apply setPin_ev | apply sendRelay_ev | refine ev_ite ?_ ?_
          | refine ev_fst (by assumption) ?_ | refine ev_snd (by assumption) ?_)
      | (show sub _ _ = true; rfl) | (show List.contains _ _ = true; rfl) | dsimp only | split | (with_reducible apply ev_pins)

theorem takeFence_ev (hF : sub [.pins, .regs, .rly, .out] H = true) (h : Evolves H s0 s) (alone : Bool) : Evolves H s0
    (takeFence alone s) := by
  refine ev_mono hF h ?_
  unfold takeFence
  repeat' first
      | (with_reducible first
          | exact ev_refl _ _ | assumption | apply driveFence_ev | refine ev_ite ?_ ?_ | refine ev_fst (by assumption) ?_
          | refine ev_snd (by assumption) ?_)
      | (show sub _ _ = true; rfl) | (show List.contains _ _ = true; rfl) | dsimp only | split | (with_reducible apply ev_rly)

theorem partnerLost_ev (hF : sub [.pins, .regs, .queues, .readPorts, .svcStats, .jnl, .rly, .out] H = true) (h : Evolves H s0 s)
    : Evolves H s0 (partnerLost s) := by
  refine ev_mono hF h ?_
  unfold partnerLost
  repeat' first
      | (with_reducible first
          | exact ev_refl _ _ | assumption | apply recordError_ev | apply takeFence_ev | refine ev_ite ?_ ?_
          | refine ev_fst (by assumption) ?_ | refine ev_snd (by assumption) ?_)
      | (show sub _ _ = true; rfl) | (show List.contains _ _ = true; rfl)

theorem doHeartbeatTick_ev (hF : sub [.pins, .regs, .queues, .readPorts, .svcStats, .jnl, .rly, .out] H = true) (h : Evolves H
    s0 s)  : Evolves H s0 (doHeartbeatTick s) := by
  refine ev_mono hF h ?_
  unfold doHeartbeatTick
  repeat' first
      | (with_reducible first
          | exact ev_refl _ _ | assumption | apply wr_ev | apply partnerLost_ev | refine ev_ite ?_ ?_
          | refine ev_fst (by assumption) ?_ | refine ev_snd (by assumption) ?_)
      | (show sub _ _ = true; rfl) | (show List.contains _ _ = true; rfl) | dsimp only | split | (with_reducible apply ev_rly)

theorem doMirrorRestore_ev (hF : sub [.pins, .regs, .weaves, .out] H = true) (h : Evolves H s0 s)  : Evolves H s0
    (doMirrorRestore s) := by
  refine ev_mono hF h ?_
  unfold doMirrorRestore
  repeat' first
      | (with_reducible first
          | exact ev_refl _ _ | assumption | apply wr_ev | apply sendRelay_ev | apply driveFence_ev | refine ev_ite ?_ ?_
          | (refine ev_foldl ?_ ?_; rotate_left; intro _ _ _) | refine ev_fst (by assumption) ?_
          | refine ev_snd (by assumption) ?_)
      | (show sub _ _ = true; rfl) | (show List.contains _ _ = true; rfl)

theorem doPartnerWaitExpire_ev (hF : sub [.pins, .regs, .rly, .out] H = true) (h : Evolves H s0 s)  : Evolves H s0
    (doPartnerWaitExpire s) := by
  refine ev_mono hF h ?_
  unfold doPartnerWaitExpire
  repeat' first
      | (with_reducible first
          | exact ev_refl _ _ | assumption | apply takeFence_ev | refine ev_ite ?_ ?_ | refine ev_fst (by assumption) ?_
          | refine ev_snd (by assumption) ?_)
      | (show sub _ _ = true; rfl) | (show List.contains _ _ = true; rfl)

theorem execDeliverAckTimeout_ev (hF : sub [.pins, .regs, .queues, .readPorts, .hostPorts, .svcStats, .jnl, .rsv, .outs, .holds,
    .txs, .chans, .weaves, .outFlows, .rly, .out] H = true) (h : Evolves H s0 s) (e : execDeliverAckTimeout s = .next sNext) :
    Evolves H s0 sNext := by
  refine ev_mono hF h ?_
  unfold execDeliverAckTimeout at e
  cases e
  repeat' first
      | (with_reducible first
          | exact ev_refl _ _ | assumption | apply doDeliverAckTimeout_ev | refine ev_ite ?_ ?_
          | refine ev_fst (by assumption) ?_ | refine ev_snd (by assumption) ?_)
      | (show sub _ _ = true; rfl) | (show List.contains _ _ = true; rfl)

theorem execFcMismatch_ev (hF : sub [.regs, .queues, .readPorts, .svcStats, .jnl, .rly] H = true) (h : Evolves H s0 s) (c : Nat)
    (e : execFcMismatch c s = .next sNext) : Evolves H s0 sNext := by
  refine ev_mono hF h ?_
  unfold execFcMismatch at e
  cases e
  repeat' first
      | (with_reducible first
          | exact ev_refl _ _ | assumption | apply doFcMismatch_ev | refine ev_ite ?_ ?_ | refine ev_fst (by assumption) ?_
          | refine ev_snd (by assumption) ?_)
      | (show sub _ _ = true; rfl) | (show List.contains _ _ = true; rfl)

theorem execFenceInput_ev (hF : sub [.pins, .regs, .cfgB, .ldr, .queues, .readPorts, .hostPorts, .svcStats, .jnl, .rsv, .frames,
    .outs, .doneKeys, .holds, .txs, .chans, .weaves, .outFlows, .rly, .jmem, .out, .freeCount] H = true) (h : Evolves H s0 s)
    (low : Bool) (e : execFenceInput low s = .next sNext) : Evolves H s0 sNext := by
  refine ev_mono hF h ?_
  unfold execFenceInput at e
  cases e
  repeat' first
      | (with_reducible first
          | exact ev_refl _ _ | assumption | apply doFenceInput_ev | refine ev_ite ?_ ?_ | refine ev_fst (by assumption) ?_
          | refine ev_snd (by assumption) ?_)
      | (show sub _ _ = true; rfl) | (show List.contains _ _ = true; rfl)

theorem execFenceReleaseTimer_ev (hF : sub [.regs] H = true) (h : Evolves H s0 s) (e : execFenceReleaseTimer s = .next sNext) :
    Evolves H s0 sNext := by
  refine ev_mono hF h ?_
  unfold execFenceReleaseTimer at e
  cases e
  repeat' first
      | (with_reducible first
          | exact ev_refl _ _ | assumption | apply doFenceReleaseTimer_ev | refine ev_ite ?_ ?_
          | refine ev_fst (by assumption) ?_ | refine ev_snd (by assumption) ?_)
      | (show sub _ _ = true; rfl) | (show List.contains _ _ = true; rfl)

theorem execFenceWaitExpire_ev (hF : sub [.pins, .regs, .queues, .readPorts, .svcStats, .jnl, .frames, .nextFrame, .outs,
    .holds, .rly, .pwrs, .out] H = true) (h : Evolves H s0 s) (e : execFenceWaitExpire s = .next sNext) : Evolves H s0 sNext :=
    by
  refine ev_mono hF h ?_
  unfold execFenceWaitExpire at e
  cases e
  repeat' first
      | (with_reducible first
          | exact ev_refl _ _ | assumption | apply doFenceWaitExpire_ev | refine ev_ite ?_ ?_ | refine ev_fst (by assumption) ?_
          | refine ev_snd (by assumption) ?_)
      | (show sub _ _ = true; rfl) | (show List.contains _ _ = true; rfl)

theorem execHandover_ev (hF : sub [.regs, .weaves, .rly, .out] H = true) (h : Evolves H s0 s) (o : Orig) (v : Nat) (e :
    execHandover o v s = .next sNext) : Evolves H s0 sNext := by
  refine ev_mono hF h ?_
  unfold execHandover at e
  cases e
  repeat' first
      | (with_reducible first
          | exact ev_refl _ _ | assumption | apply doHandover_ev | refine ev_ite ?_ ?_ | refine ev_fst (by assumption) ?_
          | refine ev_snd (by assumption) ?_)
      | (show sub _ _ = true; rfl) | (show List.contains _ _ = true; rfl)

theorem execHbInputEdge_ev (hF : sub [.rly] H = true) (h : Evolves H s0 s) (e : execHbInputEdge s = .next sNext) : Evolves H s0
    sNext := by
  refine ev_mono hF h ?_
  unfold execHbInputEdge at e
  cases e
  repeat' first
      | (with_reducible first
          | exact ev_refl _ _ | assumption | apply doHbInputEdge_ev | refine ev_ite ?_ ?_ | refine ev_fst (by assumption) ?_
          | refine ev_snd (by assumption) ?_)
      | (show sub _ _ = true; rfl) | (show List.contains _ _ = true; rfl)

theorem execHeartbeatSend_ev (hF : sub [.pins, .regs, .weaves, .out] H = true) (h : Evolves H s0 s) (e : execHeartbeatSend s =
    .next sNext) : Evolves H s0 sNext := by
  refine ev_mono hF h ?_
  unfold execHeartbeatSend at e
  cases e
  repeat' first
      | (with_reducible first
          | exact ev_refl _ _ | assumption | apply doHeartbeatSend_ev | refine ev_ite ?_ ?_ | refine ev_fst (by assumption) ?_
          | refine ev_snd (by assumption) ?_)
      | (show sub _ _ = true; rfl) | (show List.contains _ _ = true; rfl)

theorem execHeartbeatTick_ev (hF : sub [.pins, .regs, .queues, .readPorts, .svcStats, .jnl, .rly, .out] H = true) (h : Evolves H
    s0 s) (e : execHeartbeatTick s = .next sNext) : Evolves H s0 sNext := by
  refine ev_mono hF h ?_
  unfold execHeartbeatTick at e
  cases e
  repeat' first
      | (with_reducible first
          | exact ev_refl _ _ | assumption | apply doHeartbeatTick_ev | refine ev_ite ?_ ?_ | refine ev_fst (by assumption) ?_
          | refine ev_snd (by assumption) ?_)
      | (show sub _ _ = true; rfl) | (show List.contains _ _ = true; rfl)

theorem execMirrorRestore_ev (hF : sub [.pins, .regs, .weaves, .out] H = true) (h : Evolves H s0 s) (e : execMirrorRestore s =
    .next sNext) : Evolves H s0 sNext := by
  refine ev_mono hF h ?_
  unfold execMirrorRestore at e
  cases e
  repeat' first
      | (with_reducible first
          | exact ev_refl _ _ | assumption | apply doMirrorRestore_ev | refine ev_ite ?_ ?_ | refine ev_fst (by assumption) ?_
          | refine ev_snd (by assumption) ?_)
      | (show sub _ _ = true; rfl) | (show List.contains _ _ = true; rfl)

theorem execPartnerWaitExpire_ev (hF : sub [.pins, .regs, .rly, .out] H = true) (h : Evolves H s0 s) (e : execPartnerWaitExpire
    s = .next sNext) : Evolves H s0 sNext := by
  refine ev_mono hF h ?_
  unfold execPartnerWaitExpire at e
  cases e
  repeat' first
      | (with_reducible first
          | exact ev_refl _ _ | assumption | apply doPartnerWaitExpire_ev | refine ev_ite ?_ ?_
          | refine ev_fst (by assumption) ?_ | refine ev_snd (by assumption) ?_)
      | (show sub _ _ = true; rfl) | (show List.contains _ _ = true; rfl)

end Sys2Proof.Machine
end

