-- ==== Sys2Proof/Laws/EvSafe.lean ====
section
/-! SUPPORT. What each function of Machine/Safe.lean changes: one lemma per function, its footprint first. -/

namespace Sys2Proof.Machine
open Sys2Proof

set_option linter.unusedTactic false
set_option linter.unreachableTactic false
set_option linter.unusedVariables false

variable {H : List StateField} {s0 s sNext : State}

theorem mntRecord_ev (hF : sub [.regs, .queues, .readPorts, .svcStats, .jnl, .jmem] H = true) (h : Evolves H s0 s) (event : Nat)
    (result : Nat) (arg : Nat) : Evolves H s0 (mntRecord event result arg s) := by
  refine ev_mono hF h ?_
  unfold mntRecord
  repeat' first
      | (with_reducible first
          | exact ev_refl _ _ | assumption | apply journal_ev | refine ev_ite ?_ ?_ | refine ev_fst (by assumption) ?_
          | refine ev_snd (by assumption) ?_)
      | (show sub _ _ = true; rfl) | (show List.contains _ _ = true; rfl)

theorem endSession_ev (hF : sub [.regs, .cfgB, .queues, .readPorts, .svcStats, .jnl, .mnt, .jmem] H = true) (h : Evolves H s0 s)
    : Evolves H s0 (endSession s) := by
  refine ev_mono hF h ?_
  unfold endSession
  repeat' first
      | (with_reducible first
          | exact ev_refl _ _ | assumption | apply wr_ev | apply discardBank_ev | apply mntRecord_ev | refine ev_ite ?_ ?_
          | refine ev_fst (by assumption) ?_ | refine ev_snd (by assumption) ?_)
      | (show sub _ _ = true; rfl) | (show List.contains _ _ = true; rfl) | dsimp only | split | (with_reducible apply ev_mnt)

theorem flushFrames_ev (hF : sub [.regs, .queues, .readPorts, .hostPorts, .svcStats, .jnl, .frames, .running, .syncs, .outs,
    .txs, .chans, .outFlows, .rly, .out] H = true) (h : Evolves H s0 s)  : Evolves H s0 (flushFrames s) := by
  refine ev_mono hF h ?_
  unfold flushFrames
  repeat' first
      | (with_reducible first
          | exact ev_refl _ _ | assumption | apply addSat_ev | apply setChan_ev | apply scrapFrames_ev | refine ev_ite ?_ ?_
          | (refine ev_foldl ?_ ?_; rotate_left; intro _ _ _) | refine ev_fst (by assumption) ?_
          | refine ev_snd (by assumption) ?_)
      | (with_reducible first
          | exact Nat.le_add_right _ _ | exact le_rfl)
      | (show sub _ _ = true; rfl) | (show List.contains _ _ = true; rfl) | dsimp only | split
      | (with_reducible apply ev_frames_running_syncs_outs_txs_outFlows_rly)

theorem quietOutputs_ev (hF : sub [.pins, .regs, .pwms, .folds] H = true) (h : Evolves H s0 s)  : Evolves H s0 (quietOutputs s)
    := by
  refine ev_mono hF h ?_
  unfold quietOutputs
  repeat' first
      | (with_reducible first
          | exact ev_refl _ _ | assumption | apply wr_ev | refine ev_ite ?_ ?_ | refine ev_fst (by assumption) ?_
          | refine ev_snd (by assumption) ?_)
      | (with_reducible first
          | exact Nat.le_add_right _ _ | exact le_rfl)
      | (show sub _ _ = true; rfl) | (show List.contains _ _ = true; rfl) | dsimp only | split
      | (with_reducible apply ev_pins_pwms_folds)

theorem releasePower_ev (hF : sub [.pins, .regs, .out] H = true) (h : Evolves H s0 s)  : Evolves H s0 (releasePower s) := by
  refine ev_mono hF h ?_
  unfold releasePower
  repeat' first
      | (with_reducible first
          | exact ev_refl _ _ | assumption | apply powerOff_ev | refine ev_ite ?_ ?_
          | (refine ev_foldl ?_ ?_; rotate_left; intro _ _ _) | refine ev_fst (by assumption) ?_
          | refine ev_snd (by assumption) ?_)
      | (show sub _ _ = true; rfl) | (show List.contains _ _ = true; rfl)

theorem enterSafe_ev (hF : sub [.pins, .regs, .cfgB, .queues, .readPorts, .hostPorts, .svcStats, .jnl, .rsv, .frames, .running,
    .syncs, .outs, .txs, .chans, .outFlows, .rly, .mnt, .pwms, .folds, .jmem, .out] H = true) (h : Evolves H s0 s) (unit : Nat)
    (code : Nat) (info : Nat) : Evolves H s0 (enterSafe unit code info s) := by
  refine ev_mono hF h ?_
  unfold enterSafe
  repeat' first
      | (with_reducible first
          | exact ev_refl _ _ | assumption | apply wr_ev | apply addTotal_ev | apply journal_ev | apply setPin_ev
          | apply endSession_ev | apply driveFence_ev | apply flushFrames_ev | apply quietOutputs_ev | apply releasePower_ev
          | refine ev_ite ?_ ?_ | refine ev_fst (by assumption) ?_ | refine ev_snd (by assumption) ?_)
      | (show sub _ _ = true; rfl) | (show List.contains _ _ = true; rfl) | dsimp only | split | (with_reducible apply ev_pins)

theorem fatalError_ev (hF : sub [.pins, .regs, .cfgB, .queues, .readPorts, .hostPorts, .svcStats, .jnl, .rsv, .frames, .running,
    .syncs, .outs, .txs, .chans, .outFlows, .rly, .mnt, .pwms, .folds, .jmem, .out] H = true) (h : Evolves H s0 s) (e : ErrInfo)
    : Evolves H s0 (fatalError e s) := by
  refine ev_mono hF h ?_
  unfold fatalError
  repeat' first
      | (with_reducible first
          | exact ev_refl _ _ | assumption | apply logError_ev | apply enterSafe_ev | refine ev_ite ?_ ?_
          | refine ev_fst (by assumption) ?_ | refine ev_snd (by assumption) ?_)
      | (show sub _ _ = true; rfl) | (show List.contains _ _ = true; rfl)

end Sys2Proof.Machine
end

