-- ==== Sys2Proof/Laws/EvBoot.lean ====
section
/-! SUPPORT. What each function of Machine/Boot.lean changes: one lemma per function, its footprint first. -/

namespace Sys2Proof.Machine
open Sys2Proof

set_option linter.unusedTactic false
set_option linter.unreachableTactic false
set_option linter.unusedVariables false

variable {H : List StateField} {s0 s sNext : State}

theorem adoptArea_ev (hF : sub [.regs, .jnl, .rsv] H = true) (h : Evolves H s0 s) (i : Nat) (b : List Nat) : Evolves H s0
    (adoptArea i b s) := by
  refine ev_mono hF h ?_
  unfold adoptArea
  repeat' first
      | (with_reducible first
          | exact ev_refl _ _ | assumption | apply wr_ev | refine ev_ite ?_ ?_ | refine ev_fst (by assumption) ?_
          | refine ev_snd (by assumption) ?_)
      | (with_reducible first
          | exact Nat.le_add_right _ _ | exact le_rfl)
      | (show sub _ _ = true; rfl) | (show List.contains _ _ = true; rfl) | dsimp only | split
      | (with_reducible apply ev_jnl_rsv)

theorem adoptLog_ev (hF : sub [.regs] H = true) (h : Evolves H s0 s) (x0 : Nat) : Evolves H s0 (adoptLog x0 s) := by
  refine ev_mono hF h ?_
  clear h hF
  suffices key : ∀ s0 : State, Evolves [.regs] s0 s → Evolves [.regs] s0 (adoptLog x0 s) from key s (ev_refl _ s)
  fun_induction adoptLog x0 s <;> intro s0 h <;> repeat' first
      | (with_reducible first
          | exact ev_refl _ _ | assumption | apply_assumption -exfalso -symm | apply wr_ev
          | (refine ev_foldl ?_ ?_; rotate_left; intro _ _ _) | (refine ev_foldl_fst ?_ ?_; rotate_left; intro _ _ _ _)
          | (refine ev_foldl_snd ?_ ?_; rotate_left; intro _ _ _ _))
      | (show sub _ _ = true; rfl) | (show List.contains _ _ = true; rfl)

theorem beginLoad_ev (hF : sub [.regs, .ldr] H = true) (h : Evolves H s0 s) (reload : Bool) : Evolves H s0 (beginLoad reload s)
    := by
  refine ev_mono hF h ?_
  unfold beginLoad
  repeat' first
      | (with_reducible first
          | exact ev_refl _ _ | assumption | apply wr_ev | apply beginReport_ev | refine ev_ite ?_ ?_
          | refine ev_fst (by assumption) ?_ | refine ev_snd (by assumption) ?_)
      | (with_reducible first
          | exact Nat.le_add_right _ _ | exact le_rfl
          | (refine fun (c : State.Canonical _) => ?_; repeat' first | exact c.regs | exact c.cfgB | exact c.cfgA | exact ⟨c.profSets, c.baseSet⟩ | (apply swf_splice; exact Nat.le_add_right _ _)))
      | (show sub _ _ = true; rfl) | (show List.contains _ _ = true; rfl) | dsimp only | split | (with_reducible apply ev_ldr)

theorem scramble_ev (hF : sub [.flash, .freeCount] H = true) (h : Evolves H s0 s) (lo n : Nat) :
    Evolves H s0 (scramble lo n s) := by
  refine ev_mono hF h ?_
  unfold scramble
  dsimp only
  with_reducible apply ev_flash_freeCount
  · rfl
  · rfl
  · exact ev_refl _ _
  · intro c
    have hc := c.flash
    simp only [swf, Bool.and_eq_true] at hc ⊢
    refine ⟨risingFrom_filterMap _ ?_ _ 0 hc.1, ?_⟩
    · intro x y e
      split at e
      · split at e <;> cases e
        rfl
      · cases e; rfl
    · refine List.all_eq_true.mpr fun y hy => ?_
      obtain ⟨z, hz, e⟩ := List.mem_filterMap.mp hy
      split at e
      · split at e <;> cases e
        rename_i hn
        simpa using hn
      · cases e; exact List.all_eq_true.mp hc.2 _ hz
  · exact Nat.le_add_right _ _

theorem brokenFlash_ev (hF : sub [.rollback, .flash, .freeCount] H = true) (h : Evolves H s0 s)  : Evolves H s0 (brokenFlash s)
    := by
  refine ev_mono hF h ?_
  unfold brokenFlash
  repeat' first
      | (with_reducible first
          | exact ev_refl _ _ | assumption | exact Nat.le_max_left _ _ | apply scramble_ev | refine ev_ite ?_ ?_
          | refine ev_fst (by assumption) ?_ | refine ev_snd (by assumption) ?_)
      | (with_reducible first
          | exact Nat.le_add_right _ _ | exact le_rfl)
      | (show sub _ _ = true; rfl) | (show List.contains _ _ = true; rfl) | dsimp only | split
      | (with_reducible apply ev_rollback_freeCount)

theorem loadProfileSet_ev (hF : sub [.cfgB, .liveB] H = true) (h : Evolves H s0 s) (p : Nat) : Evolves H s0 (loadProfileSet p s)
    := by
  refine ev_mono hF h ?_
  unfold loadProfileSet
  repeat' first
      | (with_reducible first
          | exact ev_refl _ _ | assumption | refine ev_ite ?_ ?_ | refine ev_fst (by assumption) ?_
          | refine ev_snd (by assumption) ?_)
      | (with_reducible first
          | exact Nat.le_add_right _ _ | exact le_rfl
          | (refine fun (c : State.Canonical _) => ?_; repeat' first | exact c.cfgB | exact c.cfgA | exact c.liveB | exact ⟨c.profSets, c.baseSet⟩ | exact ⟨profSets_sset c.profSets _ c.cfgB, c.baseSet⟩ | exact ⟨c.profSets, c.cfgB⟩ | exact ⟨List.forall_mem_nil _, rfl⟩ | exact swf_nil _ | exact swf_freshBank_of rfl | exact swf_profSet c _ | exact swf_setOfProfile c _ | exact swf_bankOf c _ | apply swf_foldl_sset | (apply swf_splice; exact Nat.le_add_right _ _)))
      | (show sub _ _ = true) | (show List.contains _ _ = true; rfl) | dsimp only | split | (with_reducible apply ev_cfgB_liveB)

theorem checkProfile_ev (hF : sub [.regs, .cfgB, .ldr, .queues, .readPorts, .svcStats, .jnl] H = true) (h : Evolves H s0 s) (p :
    Nat) :
    Evolves H s0 (checkProfile p s).1 := by
  refine ev_mono hF h ?_
  have k := runStages_ev (H := [.regs, .cfgB, .ldr, .queues, .readPorts, .svcStats, .jnl]) rfl (ev_cfgB rfl (ev_refl _ s) fun c
      => swf_profSet c p) p
  unfold checkProfile
  dsimp only
  generalize runStages p _ = r at k ⊢
  exact ev_ldr rfl k fun c => ⟨profSets_sset c.profSets _ c.cfgB, c.baseSet⟩

theorem checkProfiles_ev (hF : sub [.regs, .cfgB, .ldr, .queues, .readPorts, .svcStats, .jnl] H = true) (h : Evolves H s0 s) (ps
    : List Nat) :
    Evolves H s0 (checkProfiles ps s).1 := by
  refine ev_mono hF h ?_
  clear h hF
  suffices key : ∀ s0, Evolves [.regs, .cfgB, .ldr, .queues, .readPorts, .svcStats, .jnl] s0 s → Evolves [.regs, .cfgB, .ldr,
      .queues, .readPorts, .svcStats, .jnl] s0 (checkProfiles ps s).1 from key s (ev_refl _ s)
  induction ps generalizing s with
  | nil => exact fun _ h => h
  | cons p ps ih =>
    intro s0 h
    have k := checkProfile_ev (H := [.regs, .cfgB, .ldr, .queues, .readPorts, .svcStats, .jnl]) rfl h p
    unfold checkProfiles
    generalize checkProfile p s = r at k ⊢
    obtain ⟨u, o⟩ := r
    cases o
    · exact ih s0 k
    · exact k

theorem checkServices_ev (hF : sub [.regs, .ldr, .queues, .readPorts, .svcStats, .jnl] H = true) (h : Evolves H s0 s)  : Evolves
    H s0 (checkServices s) := by
  refine ev_mono hF h ?_
  unfold checkServices
  repeat' first
      | (with_reducible first
          | exact ev_refl _ _ | assumption | apply each_ev | apply dropRec_ev | refine ev_ite ?_ ?_
          | refine ev_fst (by assumption) ?_ | refine ev_snd (by assumption) ?_ | intro _ _ _ | intro _ _)
      | (with_reducible first
          | exact Nat.le_add_right _ _ | exact le_rfl
          | (refine fun (c : State.Canonical _) => ?_; repeat' first | exact c.regs | exact c.cfgB | exact c.cfgA | exact ⟨c.profSets, c.baseSet⟩ | (apply swf_splice; exact Nat.le_add_right _ _)))
      | (show sub _ _ = true; rfl) | (show List.contains _ _ = true; rfl) | dsimp only | split | (with_reducible apply ev_ldr)

theorem freshLoad_ev (hF : sub [.regs, .cfgB, .liveB, .liveA, .ldr, .statCount, .loops] H = true) (h : Evolves H s0 s)  :
    Evolves H s0 (freshLoad s) := by
  refine ev_mono hF h ?_
  unfold freshLoad
  repeat' first
      | (with_reducible first
          | exact ev_refl _ _ | assumption | refine ev_ite ?_ ?_ | refine ev_fst (by assumption) ?_
          | refine ev_snd (by assumption) ?_)
      | (with_reducible first
          | exact Nat.le_add_right _ _ | exact le_rfl
          | (refine fun (c : State.Canonical _) => ?_; repeat' first | exact c.regs | exact c.cfgB | exact c.cfgA | exact c.liveB | exact c.liveA | exact ⟨c.profSets, c.baseSet⟩ | exact ⟨profSets_sset c.profSets _ c.cfgB, c.baseSet⟩ | exact ⟨c.profSets, c.cfgB⟩ | exact ⟨List.forall_mem_nil _, rfl⟩ | exact swf_nil _ | exact swf_freshBank_of rfl | exact swf_profSet c _ | exact swf_setOfProfile c _ | exact swf_bankOf c _ | apply swf_foldl_sset | apply swf_sset | apply swf_bankSet | apply swf_memWrite | apply swf_sdel | apply swf_filter))
      | (show sub _ _ = true) | (show List.contains _ _ = true; rfl) | dsimp only | split
      | (with_reducible apply ev_regs_cfgB_liveB_liveA_ldr_statCount_loops)

theorem idleChannels_ev (hF : sub [.regs, .queues, .readPorts, .hostPorts, .svcStats, .jnl, .chans, .out] H = true) (h : Evolves
    H s0 s)  : Evolves H s0 (idleChannels s) := by
  refine ev_mono hF h ?_
  unfold idleChannels
  repeat' first
      | (with_reducible first
          | exact ev_refl _ _ | assumption | apply idleChan_ev | refine ev_ite ?_ ?_
          | (refine ev_foldl ?_ ?_; rotate_left; intro _ _ _) | refine ev_fst (by assumption) ?_
          | refine ev_snd (by assumption) ?_)
      | (show sub _ _ = true; rfl) | (show List.contains _ _ = true; rfl)

theorem planRomSwap_ev (hF : sub [.ldr] H = true) (h : Evolves H s0 s)  : Evolves H s0 (planRomSwap s) := by
  refine ev_mono hF h ?_
  unfold planRomSwap
  repeat' first
      | (with_reducible first
          | exact ev_refl _ _ | assumption | refine ev_ite ?_ ?_ | refine ev_fst (by assumption) ?_
          | refine ev_snd (by assumption) ?_)
      | (with_reducible first
          | exact Nat.le_add_right _ _ | exact le_rfl
          | (refine fun (c : State.Canonical _) => ?_; repeat' first | exact c.cfgB | exact c.cfgA | exact ⟨c.profSets, c.baseSet⟩ | (apply swf_splice; exact Nat.le_add_right _ _)))
      | (show sub _ _ = true) | (show List.contains _ _ = true; rfl) | dsimp only | split | (with_reducible apply ev_ldr)

theorem turnToRom_ev (hF : sub [.regs, .ldr] H = true) (h : Evolves H s0 s)  : Evolves H s0 (turnToRom s) := by
  refine ev_mono hF h ?_
  unfold turnToRom
  repeat' first
      | (with_reducible first
          | exact ev_refl _ _ | assumption | apply wr_ev | refine ev_ite ?_ ?_ | refine ev_fst (by assumption) ?_
          | refine ev_snd (by assumption) ?_)
      | (with_reducible first
          | exact Nat.le_add_right _ _ | exact le_rfl
          | (refine fun (c : State.Canonical _) => ?_; repeat' first | exact c.regs | exact c.cfgB | exact c.cfgA | exact ⟨c.profSets, c.baseSet⟩ | (apply swf_splice; exact Nat.le_add_right _ _)))
      | (show sub _ _ = true; rfl) | (show List.contains _ _ = true; rfl) | dsimp only | split | (with_reducible apply ev_ldr)

theorem romPattern_ev (hF : sub [.regs, .cfgB, .liveB, .liveA, .ldr, .queues, .readPorts, .hostPorts, .svcStats, .jnl,
    .statCount, .chans, .loops, .out] H = true) (h : Evolves H s0 s)  : Evolves H s0 (romPattern s) := by
  refine ev_mono hF h ?_
  unfold romPattern
  repeat' first
      | (with_reducible first
          | exact ev_refl _ _ | assumption | apply takeBank_ev | apply waitBank_ev | apply clearCounts_ev | apply freshLoad_ev
          | apply idleChannels_ev | apply planRomSwap_ev | apply turnToRom_ev | refine ev_ite ?_ ?_
          | refine ev_fst (by assumption) ?_ | refine ev_snd (by assumption) ?_)
      | (show sub _ _ = true; rfl) | (show List.contains _ _ = true; rfl)

theorem rejectImage_ev (hF : sub [.regs, .cfgB, .liveB, .liveA, .ldr, .queues, .readPorts, .hostPorts, .svcStats, .jnl,
    .statCount, .chans, .loops, .out] H = true) (h : Evolves H s0 s) (cause : Nat) : Evolves H s0 (rejectImage cause s) := by
  refine ev_mono hF h ?_
  unfold rejectImage
  repeat' first
      | (with_reducible first
          | exact ev_refl _ _ | assumption | apply wr_ev | apply tell_ev | apply romPattern_ev | refine ev_ite ?_ ?_
          | refine ev_fst (by assumption) ?_ | refine ev_snd (by assumption) ?_)
      | (with_reducible first
          | exact Nat.le_add_right _ _ | exact le_rfl
          | (refine fun (c : State.Canonical _) => ?_; repeat' first | exact c.regs | exact c.cfgB | exact c.cfgA | exact c.liveB | exact c.liveA | exact ⟨c.profSets, c.baseSet⟩ | (apply swf_splice; exact Nat.le_add_right _ _)))
      | (show sub _ _ = true; rfl) | (show List.contains _ _ = true; rfl) | dsimp only | split | (with_reducible apply ev_ldr)

theorem doCrossFieldChecks_ev (hF : sub [.regs, .cfgB, .liveB, .liveA, .ldr, .queues, .readPorts, .hostPorts, .svcStats, .jnl,
    .statCount, .chans, .loops, .out] H = true) (h : Evolves H s0 s)  : Evolves H s0 (doCrossFieldChecks s) := by
  refine ev_mono hF h ?_
  unfold doCrossFieldChecks
  repeat' first
      | (with_reducible first
          | exact ev_refl _ _ | assumption | apply discardBank_ev | apply runStages_ev | apply loadProfileSet_ev
          | apply checkProfiles_ev | apply checkServices_ev | apply rejectImage_ev | refine ev_ite ?_ ?_
          | refine ev_fst (by assumption) ?_ | refine ev_snd (by assumption) ?_)
      | (with_reducible first
          | exact Nat.le_add_right _ _ | exact le_rfl
          | (refine fun (c : State.Canonical _) => ?_; repeat' first | exact c.regs | exact c.cfgB | exact c.cfgA | exact c.liveB | exact c.liveA | exact ⟨c.profSets, c.baseSet⟩ | exact ⟨profSets_sset c.profSets _ c.cfgB, c.baseSet⟩ | exact ⟨c.profSets, c.cfgB⟩ | (apply swf_splice; exact Nat.le_add_right _ _)))
      | (show sub _ _ = true; rfl) | (show List.contains _ _ = true; rfl) | dsimp only | split | (with_reducible apply ev_ldr)

theorem doImageHeaderRead_ev (hF : sub [.regs, .cfgB, .liveB, .liveA, .ldr, .queues, .readPorts, .hostPorts, .svcStats, .jnl,
    .statCount, .chans, .loops, .out] H = true) (h : Evolves H s0 s)  : Evolves H s0 (doImageHeaderRead s) := by
  refine ev_mono hF h ?_
  unfold doImageHeaderRead
  repeat' first
      | (with_reducible first
          | exact ev_refl _ _ | assumption | apply wr_ev | apply rejectImage_ev | refine ev_ite ?_ ?_
          | refine ev_fst (by assumption) ?_ | refine ev_snd (by assumption) ?_)
      | (with_reducible first
          | exact Nat.le_add_right _ _ | exact le_rfl
          | (refine fun (c : State.Canonical _) => ?_; repeat' first | exact c.regs | exact c.cfgB | exact c.cfgA | exact c.liveB | exact c.liveA | exact ⟨c.profSets, c.baseSet⟩ | (apply swf_splice; exact Nat.le_add_right _ _)))
      | (show sub _ _ = true; rfl) | (show List.contains _ _ = true; rfl) | dsimp only | split | (with_reducible apply ev_ldr)

theorem doImageVerified_ev (hF : sub [.regs, .cfgB, .liveB, .liveA, .ldr, .queues, .readPorts, .hostPorts, .svcStats, .jnl,
    .statCount, .chans, .loops, .out] H = true) (h : Evolves H s0 s)  : Evolves H s0 (doImageVerified s) := by
  refine ev_mono hF h ?_
  unfold doImageVerified
  repeat' first
      | (with_reducible first
          | exact ev_refl _ _ | assumption | apply wr_ev | apply rejectImage_ev | refine ev_ite ?_ ?_
          | refine ev_fst (by assumption) ?_ | refine ev_snd (by assumption) ?_)
      | (with_reducible first
          | exact Nat.le_add_right _ _ | exact le_rfl
          | (refine fun (c : State.Canonical _) => ?_; repeat' first | exact c.regs | exact c.cfgB | exact c.cfgA | exact c.liveB | exact c.liveA | exact ⟨c.profSets, c.baseSet⟩ | (apply swf_splice; exact Nat.le_add_right _ _)))
      | (show sub _ _ = true; rfl) | (show List.contains _ _ = true; rfl) | dsimp only | split | (with_reducible apply ev_ldr)

theorem doLpddrTrained_ev (hF : sub [.regs, .ldr, .queues, .readPorts, .svcStats, .jnl] H = true) (h : Evolves H s0 s)  :
    Evolves H s0 (doLpddrTrained s) := by
  refine ev_mono hF h ?_
  unfold doLpddrTrained
  repeat' first
      | (with_reducible first
          | exact ev_refl _ _ | assumption | apply qPut_ev | apply each_ev | refine ev_ite ?_ ?_
          | refine ev_fst (by assumption) ?_ | refine ev_snd (by assumption) ?_ | intro _ _ _ | intro _ _)
      | (with_reducible first
          | exact Nat.le_add_right _ _ | exact le_rfl
          | (refine fun (c : State.Canonical _) => ?_; repeat' first | exact c.regs | exact c.cfgB | exact c.cfgA | exact ⟨c.profSets, c.baseSet⟩ | (apply swf_splice; exact Nat.le_add_right _ _)))
      | (show sub _ _ = true; rfl) | (show List.contains _ _ = true; rfl) | dsimp only | split | (with_reducible apply ev_ldr)

theorem profileHeader_ev (hF : sub [.regs, .ldr, .queues, .readPorts, .svcStats, .jnl] H = true) (h : Evolves H s0 s)  : Evolves
    H s0 (profileHeader s) := by
  refine ev_mono hF h ?_
  unfold profileHeader
  repeat' first
      | (with_reducible first
          | exact ev_refl _ _ | assumption | apply clearCounts_ev | apply clampRec_ev | apply recField_ev | refine ev_ite ?_ ?_
          | refine ev_fst (by assumption) ?_ | refine ev_snd (by assumption) ?_)
      | (with_reducible first
          | exact Nat.le_add_right _ _ | exact le_rfl
          | (refine fun (c : State.Canonical _) => ?_; repeat' first | exact c.regs | exact c.cfgB | exact c.cfgA | exact ⟨c.profSets, c.baseSet⟩ | (apply swf_splice; exact Nat.le_add_right _ _)))
      | (show sub _ _ = true; rfl) | (show List.contains _ _ = true; rfl) | dsimp only | split | (with_reducible apply ev_ldr)

theorem doRecordsCheck_ev (hF : sub [.regs, .cfgB, .liveB, .liveA, .ldr, .queues, .readPorts, .hostPorts, .svcStats, .jnl,
    .statCount, .chans, .loops, .ram, .out] H = true) (h : Evolves H s0 s)  : Evolves H s0 (doRecordsCheck s) := by
  refine ev_mono hF h ?_
  unfold doRecordsCheck
  repeat' first
      | (with_reducible first
          | exact ev_refl _ _ | assumption | apply takeBank_ev | apply waitBank_ev | apply freshLoad_ev | apply romPattern_ev
          | apply loadRecords_ev | apply profileHeader_ev | refine ev_ite ?_ ?_ | refine ev_fst (by assumption) ?_
          | refine ev_snd (by assumption) ?_)
      | (with_reducible first
          | exact Nat.le_add_right _ _ | exact le_rfl
          | (refine fun (c : State.Canonical _) => ?_; repeat' first | exact c.regs | exact c.cfgB | exact c.cfgA | exact c.liveB | exact c.liveA | exact c.ram | exact ⟨c.profSets, c.baseSet⟩ | (apply swf_splice; exact Nat.le_add_right _ _)))
      | (show sub _ _ = true; rfl) | (show List.contains _ _ = true; rfl) | dsimp only | split | (with_reducible apply ev_ldr)

theorem doResetNAssert_ev (hF : sub [.rollback, .pins, .now, .regs, .cfgB, .cfgA, .cfgO, .cfgX, .liveB, .liveA, .islEpoch, .ldr,
    .queues, .readPorts, .hostPorts, .svcStats, .jnl, .rsv, .cams, .twbs, .frames, .nextFrame, .running, .syncs, .statCount,
    .outs, .nextOut, .inAlive, .doneKeys, .holds, .txs, .chans, .weaves, .outFlows, .fab, .rly, .mnt, .time, .eths, .mot, .pwrs,
    .pwms, .folds, .brg, .loops, .vcore, .chkAt, .checkpoint, .protoErrs, .flash, .jmem, .ram, .out, .freeCount] H = true) (h :
    Evolves H s0 s) (vddLow : Bool) :
    Evolves H s0 (doResetNAssert vddLow s) := by
  refine ev_mono hF h ?_
  have k := brokenFlash_ev (H := [.rollback, .pins, .now, .regs, .cfgB, .cfgA, .cfgO, .cfgX, .liveB, .liveA, .islEpoch, .ldr,
      .queues, .readPorts, .hostPorts, .svcStats, .jnl, .rsv, .cams, .twbs, .frames, .nextFrame, .running, .syncs, .statCount,
      .outs, .nextOut, .inAlive, .doneKeys, .holds, .txs, .chans, .weaves, .outFlows, .fab, .rly, .mnt, .time, .eths, .mot,
      .pwrs, .pwms, .folds, .brg, .loops, .vcore, .chkAt, .checkpoint, .protoErrs, .flash, .jmem, .ram, .out, .freeCount]) rfl
    (ev_ite (c := vddLow = true) (ev_refl _ s) (endSession_ev (H := [.rollback, .pins, .now, .regs, .cfgB, .cfgA, .cfgO, .cfgX,
        .liveB, .liveA, .islEpoch, .ldr, .queues, .readPorts, .hostPorts, .svcStats, .jnl, .rsv, .cams, .twbs, .frames,
        .nextFrame, .running, .syncs, .statCount, .outs, .nextOut, .inAlive, .doneKeys, .holds, .txs, .chans, .weaves,
        .outFlows, .fab, .rly, .mnt, .time, .eths, .mot, .pwrs, .pwms, .folds, .brg, .loops, .vcore, .chkAt, .checkpoint,
        .protoErrs, .flash, .jmem, .ram, .out, .freeCount]) rfl (ev_refl _ s)))
  unfold doResetNAssert
  generalize brokenFlash _ = u at k ⊢
  exact ⟨k.pending, k.chip, k.rollback, k.freeCount, k.out.trans ((List.prefix_append _ _).trans (List.prefix_append _ _)),
    fun c => ⟨rfl, rfl, rfl, rfl, rfl, rfl, rfl, (k.canonical c).flash, (k.canonical c).jmem, rfl, (fun _ h => nomatch h), rfl⟩,
    fun x hx => by cases x <;> exact absurd hx (by decide)⟩

theorem openArea_ev (hF : sub [.regs, .queues, .readPorts, .svcStats, .jnl, .rsv, .jmem] H = true) (h : Evolves H s0 s)  :
    Evolves H s0 (openArea s) := by
  refine ev_mono hF h ?_
  unfold openArea
  repeat' first
      | (with_reducible first
          | exact ev_refl _ _ | assumption | apply recordError_ev | apply writeStateArea_ev | apply adoptArea_ev
          | refine ev_ite ?_ ?_ | refine ev_fst (by assumption) ?_ | refine ev_snd (by assumption) ?_)
      | (show sub _ _ = true; rfl) | (show List.contains _ _ = true) | dsimp only | split

theorem openLog_ev (hF : sub [.regs, .queues, .readPorts, .svcStats, .jnl] H = true) (h : Evolves H s0 s)  : Evolves H s0
    (openLog s) := by
  refine ev_mono hF h ?_
  unfold openLog
  repeat' first
      | (with_reducible first
          | exact ev_refl _ _ | assumption | apply wr_ev | apply recordError_ev | apply adoptLog_ev | refine ev_ite ?_ ?_
          | refine ev_fst (by assumption) ?_ | refine ev_snd (by assumption) ?_)
      | (show sub _ _ = true; rfl) | (show List.contains _ _ = true; rfl) | dsimp only | split | (with_reducible apply ev_jnl)

theorem openJournal_ev (hF : sub [.regs, .queues, .readPorts, .svcStats, .jnl, .rsv, .jmem] H = true) (h : Evolves H s0 s)  :
    Evolves H s0 (openJournal s) := by
  refine ev_mono hF h ?_
  unfold openJournal
  repeat' first
      | (with_reducible first
          | exact ev_refl _ _ | assumption | apply wr_ev | apply recordError_ev | apply openArea_ev | apply openLog_ev
          | refine ev_ite ?_ ?_ | refine ev_fst (by assumption) ?_ | refine ev_snd (by assumption) ?_)
      | (show sub _ _ = true; rfl) | (show List.contains _ _ = true; rfl)

theorem doResetRelease_ev (hF : sub [.pins, .now, .regs, .cfgB, .cfgA, .cfgO, .cfgX, .ldr, .queues, .readPorts, .svcStats, .jnl,
    .rsv, .time, .jmem] H = true) (h : Evolves H s0 s) (maintHigh : Bool) (taddr : Nat) : Evolves H s0 (doResetRelease maintHigh
    taddr s) := by
  refine ev_mono hF h ?_
  unfold doResetRelease
  repeat' first
      | (with_reducible first
          | exact ev_refl _ _ | assumption | apply wr_ev | apply addTotal_ev | apply beginLoad_ev | apply openJournal_ev
          | refine ev_ite ?_ ?_ | refine ev_fst (by assumption) ?_ | refine ev_snd (by assumption) ?_)
      | (with_reducible first
          | exact Nat.le_add_right _ _ | exact le_rfl
          | (refine fun (c : State.Canonical _) => ?_; repeat' first | exact c.regs | exact c.cfgB | exact c.cfgA | exact c.cfgO | exact c.cfgX | exact c.jmem | exact ⟨c.profSets, c.baseSet⟩ | exact ⟨profSets_sset c.profSets _ c.cfgB, c.baseSet⟩ | exact ⟨c.profSets, c.cfgB⟩ | exact ⟨List.forall_mem_nil _, rfl⟩ | exact swf_nil _ | exact swf_freshBank_of rfl | (apply swf_splice; exact Nat.le_add_right _ _)))
      | (show sub _ _ = true; rfl) | (show List.contains _ _ = true; rfl) | dsimp only | split
      | (with_reducible first
          | apply ev_cfgB_cfgA_cfgO_cfgX | apply ev_pins_now_time | apply ev_pins_now_cfgB_cfgA_cfgO_cfgX_time)

theorem execCrossFieldChecks_ev (hF : sub [.regs, .cfgB, .liveB, .liveA, .ldr, .queues, .readPorts, .hostPorts, .svcStats, .jnl,
    .statCount, .chans, .loops, .out] H = true) (h : Evolves H s0 s) (e : execCrossFieldChecks s = .next sNext) : Evolves H s0
    sNext := by
  refine ev_mono hF h ?_
  unfold execCrossFieldChecks at e
  cases e
  repeat' first
      | (with_reducible first
          | exact ev_refl _ _ | assumption | apply doCrossFieldChecks_ev | refine ev_ite ?_ ?_
          | refine ev_fst (by assumption) ?_ | refine ev_snd (by assumption) ?_)
      | (show sub _ _ = true; rfl) | (show List.contains _ _ = true; rfl)

theorem execCrystalStable_ev (hF : sub [.pins] H = true) (h : Evolves H s0 s) (e : execCrystalStable s = .next sNext) : Evolves
    H s0 sNext := by
  refine ev_mono hF h ?_
  unfold execCrystalStable at e
  cases e
  repeat' first
      | (with_reducible first
          | exact ev_refl _ _ | assumption | refine ev_ite ?_ ?_ | refine ev_fst (by assumption) ?_
          | refine ev_snd (by assumption) ?_)
      | (show sub _ _ = true) | (show List.contains _ _ = true; rfl) | dsimp only | split | (with_reducible apply ev_pins)

theorem execImageHeaderRead_ev (hF : sub [.regs, .cfgB, .liveB, .liveA, .ldr, .queues, .readPorts, .hostPorts, .svcStats, .jnl,
    .statCount, .chans, .loops, .out] H = true) (h : Evolves H s0 s) (e : execImageHeaderRead s = .next sNext) : Evolves H s0
    sNext := by
  refine ev_mono hF h ?_
  unfold execImageHeaderRead at e
  cases e
  repeat' first
      | (with_reducible first
          | exact ev_refl _ _ | assumption | apply doImageHeaderRead_ev | refine ev_ite ?_ ?_ | refine ev_fst (by assumption) ?_
          | refine ev_snd (by assumption) ?_)
      | (show sub _ _ = true; rfl) | (show List.contains _ _ = true; rfl)

theorem execImageVerified_ev (hF : sub [.regs, .cfgB, .liveB, .liveA, .ldr, .queues, .readPorts, .hostPorts, .svcStats, .jnl,
    .statCount, .chans, .loops, .out] H = true) (h : Evolves H s0 s) (e : execImageVerified s = .next sNext) : Evolves H s0
    sNext := by
  refine ev_mono hF h ?_
  unfold execImageVerified at e
  cases e
  repeat' first
      | (with_reducible first
          | exact ev_refl _ _ | assumption | apply doImageVerified_ev | refine ev_ite ?_ ?_ | refine ev_fst (by assumption) ?_
          | refine ev_snd (by assumption) ?_)
      | (show sub _ _ = true; rfl) | (show List.contains _ _ = true; rfl)

theorem execLpddrTrained_ev (hF : sub [.regs, .ldr, .queues, .readPorts, .svcStats, .jnl] H = true) (h : Evolves H s0 s) (e :
    execLpddrTrained s = .next sNext) : Evolves H s0 sNext := by
  refine ev_mono hF h ?_
  unfold execLpddrTrained at e
  cases e
  repeat' first
      | (with_reducible first
          | exact ev_refl _ _ | assumption | apply doLpddrTrained_ev | refine ev_ite ?_ ?_ | refine ev_fst (by assumption) ?_
          | refine ev_snd (by assumption) ?_)
      | (show sub _ _ = true; rfl) | (show List.contains _ _ = true; rfl)

theorem execRecordsCheck_ev (hF : sub [.regs, .cfgB, .liveB, .liveA, .ldr, .queues, .readPorts, .hostPorts, .svcStats, .jnl,
    .statCount, .chans, .loops, .ram, .out] H = true) (h : Evolves H s0 s) (e : execRecordsCheck s = .next sNext) : Evolves H s0
    sNext := by
  refine ev_mono hF h ?_
  unfold execRecordsCheck at e
  cases e
  repeat' first
      | (with_reducible first
          | exact ev_refl _ _ | assumption | apply doRecordsCheck_ev | refine ev_ite ?_ ?_ | refine ev_fst (by assumption) ?_
          | refine ev_snd (by assumption) ?_)
      | (show sub _ _ = true; rfl) | (show List.contains _ _ = true; rfl)

theorem execResetNAssert_ev (hF : sub [.rollback, .pins, .now, .regs, .cfgB, .cfgA, .cfgO, .cfgX, .liveB, .liveA, .islEpoch,
    .ldr, .queues, .readPorts, .hostPorts, .svcStats, .jnl, .rsv, .cams, .twbs, .frames, .nextFrame, .running, .syncs,
    .statCount, .outs, .nextOut, .inAlive, .doneKeys, .holds, .txs, .chans, .weaves, .outFlows, .fab, .rly, .mnt, .time, .eths,
    .mot, .pwrs, .pwms, .folds, .brg, .loops, .vcore, .chkAt, .checkpoint, .protoErrs, .flash, .jmem, .ram, .out, .freeCount] H
    = true) (h : Evolves H s0 s) (vddLow : Bool) (e : execResetNAssert vddLow s = .next sNext) : Evolves H s0 sNext := by
  refine ev_mono hF h ?_
  unfold execResetNAssert at e
  cases e
  repeat' first
      | (with_reducible first
          | exact ev_refl _ _ | assumption | apply doResetNAssert_ev | refine ev_ite ?_ ?_ | refine ev_fst (by assumption) ?_
          | refine ev_snd (by assumption) ?_)
      | (show sub _ _ = true; rfl) | (show List.contains _ _ = true; rfl)

theorem execResetRelease_ev (hF : sub [.pins, .now, .regs, .cfgB, .cfgA, .cfgO, .cfgX, .ldr, .queues, .readPorts, .svcStats,
    .jnl, .rsv, .time, .jmem] H = true) (h : Evolves H s0 s) (maintHigh : Bool) (taddr : Nat) (e : execResetRelease maintHigh
    taddr s = .next sNext) : Evolves H s0 sNext := by
  refine ev_mono hF h ?_
  unfold execResetRelease at e
  cases e
  repeat' first
      | (with_reducible first
          | exact ev_refl _ _ | assumption | apply doResetRelease_ev | refine ev_ite ?_ ?_ | refine ev_fst (by assumption) ?_
          | refine ev_snd (by assumption) ?_)
      | (show sub _ _ = true; rfl) | (show List.contains _ _ = true; rfl)

end Sys2Proof.Machine
end

