-- ==== Sys2Proof/Laws/EvReserve.lean ====
section
/-! SUPPORT. What each function of Machine/Reserve.lean changes: one lemma per function, its footprint first. -/

namespace Sys2Proof.Machine
open Sys2Proof

set_option linter.unusedTactic false
set_option linter.unreachableTactic false
set_option linter.unusedVariables false

variable {H : List StateField} {s0 s sNext : State}

theorem runRepl_ev (hF : sub [.pins, .regs, .cfgB, .cfgA, .cfgO, .liveB, .ldr, .queues, .readPorts, .svcStats, .jnl, .rsv,
    .holds, .out] H = true) (h : Evolves H s0 s) (r : Repl) : Evolves H s0 (runRepl r s) := by
  refine ev_mono hF h ?_
  unfold runRepl
  repeat' first
      | (with_reducible first
          | exact ev_refl _ _ | assumption | apply ownerWrite_ev | apply checkedSwap_ev | refine ev_ite ?_ ?_
          | refine ev_fst (by assumption) ?_ | refine ev_snd (by assumption) ?_)
      | (show sub _ _ = true; rfl) | (show List.contains _ _ = true; rfl) | dsimp only | split | (with_reducible apply ev_rsv)

theorem beginRepl_ev (hF : sub [.pins, .regs, .cfgB, .cfgA, .cfgO, .liveB, .ldr, .queues, .readPorts, .svcStats, .jnl, .rsv,
    .holds, .out] H = true) (h : Evolves H s0 s) (r : Repl) : Evolves H s0 (beginRepl r s) := by
  refine ev_mono hF h ?_
  unfold beginRepl
  repeat' first
      | (with_reducible first
          | exact ev_refl _ _ | assumption | apply takeBank_ev | apply waitBank_ev | apply runRepl_ev | refine ev_ite ?_ ?_
          | refine ev_fst (by assumption) ?_ | refine ev_snd (by assumption) ?_)
      | (show sub _ _ = true; rfl) | (show List.contains _ _ = true; rfl) | dsimp only | split | (with_reducible apply ev_rsv)

theorem replaceFor_ev (hF : sub [.pins, .regs, .cfgB, .cfgA, .cfgO, .liveB, .ldr, .queues, .readPorts, .svcStats, .jnl, .rsv,
    .holds, .jmem, .out] H = true) (h : Evolves H s0 s) (kind : Nat) (inst : Nat) (row : Nat) (signal : Nat) : Evolves H s0
    (replaceFor kind inst row signal s) := by
  refine ev_mono hF h ?_
  unfold replaceFor
  repeat' first
      | (with_reducible first
          | exact ev_refl _ _ | assumption | apply finishRepl_ev | apply beginRepl_ev | refine ev_ite ?_ ?_
          | refine ev_fst (by assumption) ?_ | refine ev_snd (by assumption) ?_)
      | (show sub _ _ = true; rfl) | (show List.contains _ _ = true) | dsimp only | split

theorem wearSignal_ev (hF : sub [.pins, .regs, .cfgB, .cfgA, .cfgO, .liveB, .ldr, .queues, .readPorts, .svcStats, .jnl, .rsv,
    .holds, .jmem, .out] H = true) (h : Evolves H s0 s) (kind : Nat) (inst : Nat) (row : Nat) (signal : Nat) : Evolves H s0
    (wearSignal kind inst row signal s) := by
  refine ev_mono hF h ?_
  unfold wearSignal
  repeat' first
      | (with_reducible first
          | exact ev_refl _ _ | assumption | apply recordError_ev | apply replaceFor_ev | refine ev_ite ?_ ?_
          | refine ev_fst (by assumption) ?_ | refine ev_snd (by assumption) ?_)
      | (show sub _ _ = true; rfl) | (show List.contains _ _ = true; rfl)

theorem journalOrDrop_ev (hF : sub [.regs, .queues, .readPorts, .svcStats, .jnl, .jmem] H = true) (h : Evolves H s0 s) (t : Nat)
    (bs : List Nat) : Evolves H s0 (journalOrDrop t bs s) := by
  refine ev_mono hF h ?_
  unfold journalOrDrop
  repeat' first
      | (with_reducible first
          | exact ev_refl _ _ | assumption | apply wr_ev | apply inc_ev | apply journal_ev | refine ev_ite ?_ ?_
          | refine ev_fst (by assumption) ?_ | refine ev_snd (by assumption) ?_)
      | (show sub _ _ = true; rfl) | (show List.contains _ _ = true; rfl) | dsimp only | split | (with_reducible apply ev_jnl)

theorem wearRecord_ev (hF : sub [.regs, .queues, .readPorts, .svcStats, .jnl, .jmem, .freeCount] H = true) (h : Evolves H s0 s)
    : Evolves H s0 (wearRecord s) := by
  refine ev_mono hF h ?_
  unfold wearRecord
  repeat' first
      | (with_reducible first
          | exact ev_refl _ _ | assumption | apply journalOrDrop_ev | refine ev_ite ?_ ?_ | refine ev_fst (by assumption) ?_
          | refine ev_snd (by assumption) ?_)
      | (with_reducible first
          | exact Nat.le_add_right _ _ | exact le_rfl)
      | (show sub _ _ = true; rfl) | (show List.contains _ _ = true; rfl) | dsimp only | split
      | (with_reducible apply ev_freeCount)

theorem doAgeingMeasure_ev (hF : sub [.pins, .regs, .cfgB, .cfgA, .cfgO, .liveB, .ldr, .queues, .readPorts, .svcStats, .jnl,
    .rsv, .holds, .jmem, .out, .freeCount] H = true) (h : Evolves H s0 s) (atBoot : Bool) (freqs : List Nat) : Evolves H s0
    (doAgeingMeasure atBoot freqs s) := by
  refine ev_mono hF h ?_
  unfold doAgeingMeasure
  repeat' first
      | (with_reducible first
          | exact ev_refl _ _ | assumption | apply wr_ev | apply addTotal_ev | apply wearSignal_ev | apply wearRecord_ev
          | refine ev_ite ?_ ?_ | (refine ev_foldl ?_ ?_; rotate_left; intro _ _ _) | refine ev_fst (by assumption) ?_
          | refine ev_snd (by assumption) ?_)
      | (show sub _ _ = true; rfl) | (show List.contains _ _ = true; rfl)

theorem reserveGranted_ev (hF : sub [.pins, .regs, .cfgB, .cfgA, .cfgO, .liveB, .ldr, .queues, .readPorts, .svcStats, .jnl,
    .rsv, .holds, .out] H = true) (h : Evolves H s0 s)  : Evolves H s0 (reserveGranted s) := by
  refine ev_mono hF h ?_
  unfold reserveGranted
  repeat' first
      | (with_reducible first
          | exact ev_refl _ _ | assumption | apply waitBank_ev | apply discardBank_ev | apply runRepl_ev | refine ev_ite ?_ ?_
          | refine ev_fst (by assumption) ?_ | refine ev_snd (by assumption) ?_)
      | (show sub _ _ = true; rfl) | (show List.contains _ _ = true; rfl) | dsimp only | split | (with_reducible apply ev_rsv)

theorem doDropSummary_ev (hF : sub [.regs, .queues, .readPorts, .svcStats, .jnl, .jmem] H = true) (h : Evolves H s0 s)  :
    Evolves H s0 (doDropSummary s) := by
  refine ev_mono hF h ?_
  unfold doDropSummary
  repeat' first
      | (with_reducible first
          | exact ev_refl _ _ | assumption | apply journal_ev | refine ev_ite ?_ ?_ | refine ev_fst (by assumption) ?_
          | refine ev_snd (by assumption) ?_)
      | (show sub _ _ = true; rfl) | (show List.contains _ _ = true; rfl) | dsimp only | split | (with_reducible apply ev_jnl)

theorem doJournalRecord_ev (hF : sub [.regs, .queues, .readPorts, .svcStats, .jnl, .jmem] H = true) (h : Evolves H s0 s) (bad :
    Bool) : Evolves H s0 (doJournalRecord bad s) := by
  refine ev_mono hF h ?_
  unfold doJournalRecord
  repeat' first
      | (with_reducible first
          | exact ev_refl _ _ | assumption | apply recordError_ev | apply journalOrDrop_ev | refine ev_ite ?_ ?_
          | refine ev_fst (by assumption) ?_ | refine ev_snd (by assumption) ?_)
      | (show sub _ _ = true; rfl) | (show List.contains _ _ = true; rfl) | dsimp only | split | (with_reducible apply ev_jnl)

theorem doReplaceRetry_ev (hF : sub [.pins, .regs, .cfgB, .cfgA, .cfgO, .liveB, .ldr, .queues, .readPorts, .svcStats, .jnl,
    .rsv, .holds, .out] H = true) (h : Evolves H s0 s)  : Evolves H s0 (doReplaceRetry s) := by
  refine ev_mono hF h ?_
  unfold doReplaceRetry
  repeat' first
      | (with_reducible first
          | exact ev_refl _ _ | assumption | apply beginRepl_ev | refine ev_ite ?_ ?_ | refine ev_fst (by assumption) ?_
          | refine ev_snd (by assumption) ?_)
      | (show sub _ _ = true; rfl) | (show List.contains _ _ = true) | dsimp only | split

theorem doReplaced_ev (hF : sub [.pins, .regs, .cfgB, .cfgA, .cfgO, .liveB, .ldr, .queues, .readPorts, .svcStats, .jnl, .rsv,
    .holds, .jmem, .out] H = true) (h : Evolves H s0 s) (kind : Nat) (inst : Nat) (row : Nat) (signal : Nat) (n : Nat) : Evolves
    H s0 (doReplaced kind inst row signal n s) := by
  refine ev_mono hF h ?_
  unfold doReplaced
  repeat' first
      | (with_reducible first
          | exact ev_refl _ _ | assumption | apply noteWear_ev | apply replaceFor_ev | refine ev_ite ?_ ?_
          | refine ev_fst (by assumption) ?_ | refine ev_snd (by assumption) ?_)
      | (show sub _ _ = true; rfl) | (show List.contains _ _ = true; rfl) | dsimp only | split | (with_reducible apply ev_rsv)

theorem noteFailed_ev (hF : sub [.regs, .rsv] H = true) (h : Evolves H s0 s) (kind : Nat) (inst : Nat) : Evolves H s0
    (noteFailed kind inst s) := by
  refine ev_mono hF h ?_
  unfold noteFailed
  repeat' first
      | (with_reducible first
          | exact ev_refl _ _ | assumption | apply wr_ev | apply inc_ev | refine ev_ite ?_ ?_ | refine ev_fst (by assumption) ?_
          | refine ev_snd (by assumption) ?_)
      | (show sub _ _ = true; rfl) | (show List.contains _ _ = true; rfl) | dsimp only | split | (with_reducible apply ev_rsv)

theorem sliceFailed_ev (hF : sub [.pins, .regs, .cfgB, .cfgA, .cfgO, .liveB, .ldr, .queues, .readPorts, .hostPorts, .svcStats,
    .jnl, .rsv, .frames, .running, .syncs, .outs, .holds, .txs, .chans, .outFlows, .rly, .mnt, .pwms, .folds, .jmem, .out] H =
    true) (h : Evolves H s0 s) (n : Nat) : Evolves H s0 (sliceFailed n s) := by
  refine ev_mono hF h ?_
  unfold sliceFailed
  repeat' first
      | (with_reducible first
          | exact ev_refl _ _ | assumption | apply fatalError_ev | apply wearSignal_ev | apply noteFailed_ev
          | refine ev_ite ?_ ?_ | refine ev_fst (by assumption) ?_ | refine ev_snd (by assumption) ?_)
      | (show sub _ _ = true; rfl) | (show List.contains _ _ = true; rfl)

theorem doReserveSelfTest_ev (hF : sub [.pins, .regs, .cfgB, .cfgA, .cfgO, .liveB, .ldr, .queues, .readPorts, .hostPorts,
    .svcStats, .jnl, .rsv, .frames, .running, .syncs, .outs, .holds, .txs, .chans, .outFlows, .rly, .mnt, .pwms, .folds, .jmem,
    .out] H = true) (h : Evolves H s0 s) (pass : Bool) : Evolves H s0 (doReserveSelfTest pass s) := by
  refine ev_mono hF h ?_
  unfold doReserveSelfTest
  repeat' first
      | (with_reducible first
          | exact ev_refl _ _ | assumption | apply inc_ev | apply sliceFailed_ev | refine ev_ite ?_ ?_
          | refine ev_fst (by assumption) ?_ | refine ev_snd (by assumption) ?_)
      | (show sub _ _ = true; rfl) | (show List.contains _ _ = true) | dsimp only | split

theorem doSelfTestInGap_ev (hF : sub [.pins, .regs, .cfgB, .cfgA, .cfgO, .liveB, .ldr, .queues, .readPorts, .hostPorts,
    .svcStats, .jnl, .rsv, .frames, .running, .syncs, .outs, .holds, .txs, .chans, .outFlows, .rly, .mnt, .pwms, .folds, .jmem,
    .out] H = true) (h : Evolves H s0 s) (l : Nat) (result : Nat) : Evolves H s0 (doSelfTestInGap l result s) := by
  refine ev_mono hF h ?_
  unfold doSelfTestInGap
  repeat' first
      | (with_reducible first
          | exact ev_refl _ _ | assumption | apply wr_ev | apply inc_ev | apply sliceFailed_ev | refine ev_ite ?_ ?_
          | refine ev_fst (by assumption) ?_ | refine ev_snd (by assumption) ?_)
      | (show sub _ _ = true; rfl) | (show List.contains _ _ = true; rfl)

theorem doSpareTest_ev (hF : sub [.regs, .queues, .readPorts, .svcStats, .jnl, .rsv] H = true) (h : Evolves H s0 s) (kind : Nat)
    (inst : Nat) (pass : Bool) : Evolves H s0 (doSpareTest kind inst pass s) := by
  refine ev_mono hF h ?_
  unfold doSpareTest
  repeat' first
      | (with_reducible first
          | exact ev_refl _ _ | assumption | apply addTotal_ev | apply inc_ev | apply recordError_ev | apply noteFailed_ev
          | refine ev_ite ?_ ?_ | refine ev_fst (by assumption) ?_ | refine ev_snd (by assumption) ?_)
      | (show sub _ _ = true; rfl) | (show List.contains _ _ = true; rfl)

theorem execAgeingMeasure_ev (hF : sub [.pins, .regs, .cfgB, .cfgA, .cfgO, .liveB, .ldr, .queues, .readPorts, .svcStats, .jnl,
    .rsv, .holds, .jmem, .out, .freeCount] H = true) (h : Evolves H s0 s) (atBoot : Bool) (freqs : List Nat) (e :
    execAgeingMeasure atBoot freqs s = .next sNext) : Evolves H s0 sNext := by
  refine ev_mono hF h ?_
  unfold execAgeingMeasure at e
  cases e
  repeat' first
      | (with_reducible first
          | exact ev_refl _ _ | assumption | apply doAgeingMeasure_ev | refine ev_ite ?_ ?_ | refine ev_fst (by assumption) ?_
          | refine ev_snd (by assumption) ?_)
      | (show sub _ _ = true; rfl) | (show List.contains _ _ = true; rfl)

theorem execDropSummary_ev (hF : sub [.regs, .queues, .readPorts, .svcStats, .jnl, .jmem] H = true) (h : Evolves H s0 s) (e :
    execDropSummary s = .next sNext) : Evolves H s0 sNext := by
  refine ev_mono hF h ?_
  unfold execDropSummary at e
  cases e
  repeat' first
      | (with_reducible first
          | exact ev_refl _ _ | assumption | apply doDropSummary_ev | refine ev_ite ?_ ?_ | refine ev_fst (by assumption) ?_
          | refine ev_snd (by assumption) ?_)
      | (show sub _ _ = true; rfl) | (show List.contains _ _ = true; rfl)

theorem execJournalRecord_ev (hF : sub [.regs, .queues, .readPorts, .svcStats, .jnl, .jmem] H = true) (h : Evolves H s0 s) (bad
    : Bool) (e : execJournalRecord bad s = .next sNext) : Evolves H s0 sNext := by
  refine ev_mono hF h ?_
  unfold execJournalRecord at e
  cases e
  repeat' first
      | (with_reducible first
          | exact ev_refl _ _ | assumption | apply doJournalRecord_ev | refine ev_ite ?_ ?_ | refine ev_fst (by assumption) ?_
          | refine ev_snd (by assumption) ?_)
      | (show sub _ _ = true; rfl) | (show List.contains _ _ = true; rfl)

theorem execReplaceRetry_ev (hF : sub [.pins, .regs, .cfgB, .cfgA, .cfgO, .liveB, .ldr, .queues, .readPorts, .svcStats, .jnl,
    .rsv, .holds, .out] H = true) (h : Evolves H s0 s) (e : execReplaceRetry s = .next sNext) : Evolves H s0 sNext := by
  refine ev_mono hF h ?_
  unfold execReplaceRetry at e
  cases e
  repeat' first
      | (with_reducible first
          | exact ev_refl _ _ | assumption | apply doReplaceRetry_ev | refine ev_ite ?_ ?_ | refine ev_fst (by assumption) ?_
          | refine ev_snd (by assumption) ?_)
      | (show sub _ _ = true; rfl) | (show List.contains _ _ = true; rfl)

theorem execReplaced_ev (hF : sub [.pins, .regs, .cfgB, .cfgA, .cfgO, .liveB, .ldr, .queues, .readPorts, .svcStats, .jnl, .rsv,
    .holds, .jmem, .out] H = true) (h : Evolves H s0 s) (kind : Nat) (inst : Nat) (row : Nat) (x : Signals) (e : execReplaced
    kind inst row x s = .next sNext) : Evolves H s0 sNext := by
  refine ev_mono hF h ?_
  unfold execReplaced at e
  cases e
  repeat' first
      | (with_reducible first
          | exact ev_refl _ _ | assumption | apply doReplaced_ev | refine ev_ite ?_ ?_
          | (refine ev_foldl ?_ ?_; rotate_left; intro _ _ _) | refine ev_fst (by assumption) ?_
          | refine ev_snd (by assumption) ?_ | (refine ev_foldl_fst ?_ ?_; rotate_left; intro _ _ _ _)
          | (refine ev_foldl_snd ?_ ?_; rotate_left; intro _ _ _ _))
      | (show sub _ _ = true; rfl) | (show List.contains _ _ = true; rfl) | dsimp only | split

theorem execReserveSelfTest_ev (hF : sub [.pins, .regs, .cfgB, .cfgA, .cfgO, .liveB, .ldr, .queues, .readPorts, .hostPorts,
    .svcStats, .jnl, .rsv, .frames, .running, .syncs, .outs, .holds, .txs, .chans, .outFlows, .rly, .mnt, .pwms, .folds, .jmem,
    .out] H = true) (h : Evolves H s0 s) (pass : Bool) (e : execReserveSelfTest pass s = .next sNext) : Evolves H s0 sNext := by
  refine ev_mono hF h ?_
  unfold execReserveSelfTest at e
  cases e
  repeat' first
      | (with_reducible first
          | exact ev_refl _ _ | assumption | apply doReserveSelfTest_ev | refine ev_ite ?_ ?_ | refine ev_fst (by assumption) ?_
          | refine ev_snd (by assumption) ?_)
      | (show sub _ _ = true; rfl) | (show List.contains _ _ = true; rfl)

theorem execSelfTestInGap_ev (hF : sub [.pins, .regs, .cfgB, .cfgA, .cfgO, .liveB, .ldr, .queues, .readPorts, .hostPorts,
    .svcStats, .jnl, .rsv, .frames, .running, .syncs, .outs, .holds, .txs, .chans, .outFlows, .rly, .mnt, .pwms, .folds, .jmem,
    .out] H = true) (h : Evolves H s0 s) (l : Nat) (result : Nat) (e : execSelfTestInGap l result s = .next sNext) : Evolves H
    s0 sNext := by
  refine ev_mono hF h ?_
  unfold execSelfTestInGap at e
  cases e
  repeat' first
      | (with_reducible first
          | exact ev_refl _ _ | assumption | apply doSelfTestInGap_ev | refine ev_ite ?_ ?_ | refine ev_fst (by assumption) ?_
          | refine ev_snd (by assumption) ?_)
      | (show sub _ _ = true; rfl) | (show List.contains _ _ = true; rfl)

theorem execSelfTestStarved_ev (hF : sub [.regs] H = true) (h : Evolves H s0 s) (e : execSelfTestStarved s = .next sNext) :
    Evolves H s0 sNext := by
  refine ev_mono hF h ?_
  unfold execSelfTestStarved at e
  cases e
  repeat' first
      | (with_reducible first
          | exact ev_refl _ _ | assumption | apply wr_ev | refine ev_ite ?_ ?_ | refine ev_fst (by assumption) ?_
          | refine ev_snd (by assumption) ?_)
      | (show sub _ _ = true; rfl) | (show List.contains _ _ = true; rfl)

theorem execSpareTest_ev (hF : sub [.regs, .queues, .readPorts, .svcStats, .jnl, .rsv] H = true) (h : Evolves H s0 s) (kind :
    Nat) (inst : Nat) (pass : Bool) (e : execSpareTest kind inst pass s = .next sNext) : Evolves H s0 sNext := by
  refine ev_mono hF h ?_
  unfold execSpareTest at e
  cases e
  repeat' first
      | (with_reducible first
          | exact ev_refl _ _ | assumption | apply doSpareTest_ev | refine ev_ite ?_ ?_ | refine ev_fst (by assumption) ?_
          | refine ev_snd (by assumption) ?_)
      | (show sub _ _ = true; rfl) | (show List.contains _ _ = true; rfl)

end Sys2Proof.Machine
end

