-- ==== Sys2Proof/Laws/EvMaint.lean ====
section
/-! SUPPORT. What each function of Machine/Maint.lean changes: one lemma per function, its footprint first. -/

namespace Sys2Proof.Machine
open Sys2Proof

set_option linter.unusedTactic false
set_option linter.unreachableTactic false
set_option linter.unusedVariables false

variable {H : List StateField} {s0 s sNext : State}

theorem askWake_ev (hF : sub [.mnt] H = true) (h : Evolves H s0 s) (cause : Nat) : Evolves H s0 (askWake cause s) := by
  refine ev_mono hF h ?_
  unfold askWake
  repeat' first
      | (with_reducible first
          | exact ev_refl _ _ | assumption | refine ev_ite ?_ ?_ | refine ev_fst (by assumption) ?_
          | refine ev_snd (by assumption) ?_)
      | (show sub _ _ = true) | (show List.contains _ _ = true; rfl) | dsimp only | split | (with_reducible apply ev_mnt)

theorem parkRecord_ev (hF : sub [.regs, .queues, .readPorts, .svcStats, .jnl, .jmem] H = true) (h : Evolves H s0 s) (exit : Nat)
    (cause : Nat) : Evolves H s0 (parkRecord exit cause s) := by
  refine ev_mono hF h ?_
  unfold parkRecord
  repeat' first
      | (with_reducible first
          | exact ev_refl _ _ | assumption | apply journal_ev | refine ev_ite ?_ ?_ | refine ev_fst (by assumption) ?_
          | refine ev_snd (by assumption) ?_)
      | (show sub _ _ = true; rfl) | (show List.contains _ _ = true; rfl)

theorem doPark_ev (hF : sub [.pins, .regs, .queues, .readPorts, .svcStats, .jnl, .cams, .mnt, .jmem, .out] H = true) (h :
    Evolves H s0 s) (o : Orig) (v : Nat) : Evolves H s0 (doPark o v s) := by
  refine ev_mono hF h ?_
  unfold doPark
  repeat' first
      | (with_reducible first
          | exact ev_refl _ _ | assumption | apply wr_ev | apply each_ev | apply parkPort_ev | apply parkRecord_ev
          | refine ev_ite ?_ ?_ | refine ev_fst (by assumption) ?_ | refine ev_snd (by assumption) ?_ | intro _ _ _ | intro _ _)
      | (show sub _ _ = true; rfl) | (show List.contains _ _ = true; rfl) | dsimp only | split | (with_reducible apply ev_mnt)

theorem restartPort_ev (hF : sub [.pins, .regs, .cams, .pwrs, .out] H = true) (h : Evolves H s0 s) (p : Nat) : Evolves H s0
    (restartPort p s) := by
  refine ev_mono hF h ?_
  unfold restartPort
  repeat' first
      | (with_reducible first
          | exact ev_refl _ _ | assumption | apply beginPort_ev | refine ev_ite ?_ ?_ | refine ev_fst (by assumption) ?_
          | refine ev_snd (by assumption) ?_)
      | (show sub _ _ = true; rfl) | (show List.contains _ _ = true; rfl)

theorem leavePark_ev (hF : sub [.pins, .regs, .queues, .readPorts, .svcStats, .jnl, .rsv, .cams, .mnt, .pwrs, .jmem, .out] H =
    true) (h : Evolves H s0 s) (cause : Nat) : Evolves H s0 (leavePark cause s) := by
  refine ev_mono hF h ?_
  unfold leavePark
  repeat' first
      | (with_reducible first
          | exact ev_refl _ _ | assumption | apply wr_ev | apply addTotal_ev | apply showClocks_ev | apply each_ev
          | apply parkRecord_ev | apply restartPort_ev | refine ev_ite ?_ ?_ | refine ev_fst (by assumption) ?_
          | refine ev_snd (by assumption) ?_ | intro _ _ _ | intro _ _)
      | (show sub _ _ = true; rfl) | (show List.contains _ _ = true; rfl) | dsimp only | split | (with_reducible apply ev_mnt)

theorem doParkCancel_ev (hF : sub [.pins, .regs, .queues, .readPorts, .svcStats, .jnl, .rsv, .cams, .mnt, .pwrs, .jmem, .out] H
    = true) (h : Evolves H s0 s) (o : Orig) (v : Nat) : Evolves H s0 (doParkCancel o v s) := by
  refine ev_mono hF h ?_
  unfold doParkCancel
  repeat' first
      | (with_reducible first
          | exact ev_refl _ _ | assumption | apply wr_ev | apply leavePark_ev | refine ev_ite ?_ ?_
          | refine ev_fst (by assumption) ?_ | refine ev_snd (by assumption) ?_)
      | (show sub _ _ = true; rfl) | (show List.contains _ _ = true; rfl)

theorem doSessionClose_ev (hF : sub [.regs, .cfgB, .queues, .readPorts, .svcStats, .jnl, .mnt, .jmem] H = true) (h : Evolves H
    s0 s) (o : Orig) : Evolves H s0 (doSessionClose o s) := by
  refine ev_mono hF h ?_
  unfold doSessionClose
  repeat' first
      | (with_reducible first
          | exact ev_refl _ _ | assumption | apply endSession_ev | refine ev_ite ?_ ?_ | refine ev_fst (by assumption) ?_
          | refine ev_snd (by assumption) ?_)
      | (show sub _ _ = true; rfl) | (show List.contains _ _ = true; rfl)

theorem drawNonce_ev (hF : sub [.regs, .freeCount] H = true) (h : Evolves H s0 s)  : Evolves H s0 (drawNonce s) := by
  refine ev_mono hF h ?_
  unfold drawNonce
  repeat' first
      | (with_reducible first
          | exact ev_refl _ _ | assumption | apply wr_ev | refine ev_ite ?_ ?_ | refine ev_fst (by assumption) ?_
          | refine ev_snd (by assumption) ?_)
      | (with_reducible first
          | exact Nat.le_add_right _ _ | exact le_rfl)
      | (show sub _ _ = true; rfl) | (show List.contains _ _ = true; rfl) | dsimp only | split
      | (with_reducible apply ev_freeCount)

theorem openSession_ev (hF : sub [.pins, .regs, .cfgB, .queues, .readPorts, .hostPorts, .svcStats, .jnl, .rsv, .frames,
    .running, .syncs, .outs, .txs, .chans, .outFlows, .rly, .mnt, .pwms, .folds, .jmem, .out] H = true) (h : Evolves H s0 s) (n
    : Nat) (flags : Nat) (tag : List Nat) : Evolves H s0 (openSession n flags tag s) := by
  refine ev_mono hF h ?_
  unfold openSession
  repeat' first
      | (with_reducible first
          | exact ev_refl _ _ | assumption | apply wr_ev | apply addTotal_ev | apply mntRecord_ev | apply fatalError_ev
          | refine ev_ite ?_ ?_ | refine ev_fst (by assumption) ?_ | refine ev_snd (by assumption) ?_)
      | (show sub _ _ = true; rfl) | (show List.contains _ _ = true; rfl) | dsimp only | split | (with_reducible apply ev_mnt)

theorem doSessionOpen_ev (hF : sub [.pins, .regs, .cfgB, .queues, .readPorts, .hostPorts, .svcStats, .jnl, .rsv, .frames,
    .running, .syncs, .outs, .txs, .chans, .outFlows, .rly, .mnt, .pwms, .folds, .jmem, .out, .freeCount] H = true) (h : Evolves
    H s0 s) (o : Orig) : Evolves H s0 (doSessionOpen o s) := by
  refine ev_mono hF h ?_
  unfold doSessionOpen
  repeat' first
      | (with_reducible first
          | exact ev_refl _ _ | assumption | apply wr_ev | apply recordError_ev | apply journal_ev | apply drawNonce_ev
          | apply openSession_ev | refine ev_ite ?_ ?_ | refine ev_fst (by assumption) ?_ | refine ev_snd (by assumption) ?_)
      | (show sub _ _ = true; rfl) | (show List.contains _ _ = true) | dsimp only | split

theorem eraseSlot_ev (hF : sub [.flash] H = true) (h : Evolves H s0 s) (slot : Nat) : Evolves H s0 (eraseSlot slot s) := by
  refine ev_mono hF h ?_
  unfold eraseSlot
  repeat' first
      | (with_reducible first
          | exact ev_refl _ _ | assumption | refine ev_ite ?_ ?_ | refine ev_fst (by assumption) ?_
          | refine ev_snd (by assumption) ?_)
      | (with_reducible first
          | exact Nat.le_add_right _ _ | exact le_rfl
          | (refine fun (c : State.Canonical _) => ?_; repeat' first | exact c.cfgB | exact c.cfgA | exact c.flash | exact ⟨c.profSets, c.baseSet⟩ | exact ⟨profSets_sset c.profSets _ c.cfgB, c.baseSet⟩ | exact ⟨c.profSets, c.cfgB⟩ | exact ⟨List.forall_mem_nil _, rfl⟩ | exact swf_nil _ | exact swf_freshBank_of rfl | exact swf_profSet c _ | exact swf_setOfProfile c _ | exact swf_bankOf c _ | apply swf_foldl_sset | apply swf_sset | apply swf_bankSet | apply swf_memWrite | apply swf_sdel | apply swf_filter))
      | (show sub _ _ = true) | (show List.contains _ _ = true; rfl) | dsimp only | split | (with_reducible apply ev_flash)

theorem flashResult_ev (hF : sub [.regs, .queues, .readPorts, .svcStats, .jnl, .jmem] H = true) (h : Evolves H s0 s) (op : Nat)
    (slot : Nat) (arg : Nat) (result : Nat) (cause : Nat) : Evolves H s0 (flashResult op slot arg result cause s) := by
  refine ev_mono hF h ?_
  unfold flashResult
  repeat' first
      | (with_reducible first
          | exact ev_refl _ _ | assumption | apply wr_ev | apply mntRecord_ev | refine ev_ite ?_ ?_
          | refine ev_fst (by assumption) ?_ | refine ev_snd (by assumption) ?_)
      | (show sub _ _ = true; rfl) | (show List.contains _ _ = true; rfl)

theorem flashCommand_ev {act : State → State} (hF : sub [.regs, .queues, .readPorts, .svcStats, .jnl, .jmem] H = true) (h :
    Evolves H s0 s)
    (o : Orig) (right op slot arg : Nat) (ha : ∀ u, Evolves H s0 u → Evolves H s0 (act u)) :
    Evolves H s0 (flashCommand o right op slot arg act s) := by
  have hd := fun a => deny_ev (sub_trans rfl hF) h a
  have hr := fun a b => flashResult_ev (sub_trans rfl hF) h op slot arg a b
  have hs := ha s h
  unfold flashCommand
  repeat' first | assumption | with_reducible apply hd | with_reducible apply hr | with_reducible refine ev_ite ?_ ?_

theorem flashStart_ev (hF : sub [.regs, .mnt] H = true) (h : Evolves H s0 s) (op : Nat) (slot : Nat) (arg : Nat) (result : Nat)
    (cause : Nat) : Evolves H s0 (flashStart op slot arg result cause s) := by
  refine ev_mono hF h ?_
  unfold flashStart
  repeat' first
      | (with_reducible first
          | exact ev_refl _ _ | assumption | apply wr_ev | refine ev_ite ?_ ?_ | refine ev_fst (by assumption) ?_
          | refine ev_snd (by assumption) ?_)
      | (show sub _ _ = true; rfl) | (show List.contains _ _ = true; rfl) | dsimp only | split | (with_reducible apply ev_mnt)

theorem unverify_ev (hF : sub [.mnt] H = true) (h : Evolves H s0 s) (slot : Nat) : Evolves H s0 (unverify slot s) := by
  refine ev_mono hF h ?_
  unfold unverify
  repeat' first
      | (with_reducible first
          | exact ev_refl _ _ | assumption | refine ev_ite ?_ ?_ | refine ev_fst (by assumption) ?_
          | refine ev_snd (by assumption) ?_)
      | (show sub _ _ = true) | (show List.contains _ _ = true; rfl) | dsimp only | split | (with_reducible apply ev_mnt)

theorem doErase_ev (hF : sub [.regs, .queues, .readPorts, .svcStats, .jnl, .mnt, .flash, .jmem] H = true) (h : Evolves H s0 s)
    (o : Orig) (slot : Nat) : Evolves H s0 (doErase o slot s) := by
  refine ev_mono hF h ?_
  unfold doErase
  repeat' first
      | (with_reducible first
          | exact ev_refl _ _ | assumption | apply eraseSlot_ev | apply flashResult_ev | apply flashCommand_ev
          | apply flashStart_ev | apply unverify_ev | refine ev_ite ?_ ?_ | refine ev_fst (by assumption) ?_
          | refine ev_snd (by assumption) ?_ | intro _ _ _ | intro _ _)
      | (show sub _ _ = true; rfl) | (show List.contains _ _ = true) | dsimp only | split

theorem doProgram_ev (hF : sub [.regs, .queues, .readPorts, .svcStats, .jnl, .mnt, .flash, .jmem] H = true) (h : Evolves H s0 s)
    (o : Orig) (slot : Nat) (arg : Nat) : Evolves H s0 (doProgram o slot arg s) := by
  refine ev_mono hF h ?_
  unfold doProgram
  repeat' first
      | (with_reducible first
          | exact ev_refl _ _ | assumption | apply flashResult_ev | apply flashCommand_ev | apply flashStart_ev
          | apply unverify_ev | refine ev_ite ?_ ?_ | refine ev_fst (by assumption) ?_ | refine ev_snd (by assumption) ?_
          | intro _ _ _ | intro _ _)
      | (with_reducible first
          | exact Nat.le_add_right _ _ | exact le_rfl
          | (refine fun (c : State.Canonical _) => ?_; repeat' first | exact c.regs | exact c.cfgB | exact c.cfgA | exact c.flash | exact c.jmem | exact ⟨c.profSets, c.baseSet⟩ | exact ⟨profSets_sset c.profSets _ c.cfgB, c.baseSet⟩ | exact ⟨c.profSets, c.cfgB⟩ | exact ⟨List.forall_mem_nil _, rfl⟩ | exact swf_nil _ | exact swf_freshBank_of rfl | exact swf_profSet c _ | exact swf_setOfProfile c _ | exact swf_bankOf c _ | apply swf_foldl_sset | apply swf_sset | apply swf_bankSet | apply swf_memWrite))
      | (show sub _ _ = true; rfl) | (show List.contains _ _ = true; rfl) | dsimp only | split | (with_reducible apply ev_flash)

theorem doReload_ev (hF : sub [.regs, .cfgB, .ldr, .queues, .readPorts, .svcStats, .jnl, .mnt, .jmem] H = true) (h : Evolves H
    s0 s) (o : Orig) : Evolves H s0 (doReload o s) := by
  refine ev_mono hF h ?_
  unfold doReload
  repeat' first
      | (with_reducible first
          | exact ev_refl _ _ | assumption | apply discardBank_ev | apply flashResult_ev | apply flashCommand_ev
          | apply flashStart_ev | apply beginLoad_ev | refine ev_ite ?_ ?_ | refine ev_fst (by assumption) ?_
          | refine ev_snd (by assumption) ?_ | intro _ _ _ | intro _ _)
      | (show sub _ _ = true; rfl) | (show List.contains _ _ = true; rfl)

theorem doRollback_ev (hF : sub [.regs, .queues, .readPorts, .svcStats, .jnl, .mnt, .jmem] H = true) (h : Evolves H s0 s) (o :
    Orig) (arg : Nat) : Evolves H s0 (doRollback o arg s) := by
  refine ev_mono hF h ?_
  unfold doRollback
  repeat' first
      | (with_reducible first
          | exact ev_refl _ _ | assumption | apply flashResult_ev | apply flashCommand_ev | apply flashStart_ev
          | refine ev_ite ?_ ?_ | refine ev_fst (by assumption) ?_ | refine ev_snd (by assumption) ?_ | intro _ _ _ | intro _ _)
      | (show sub _ _ = true; rfl) | (show List.contains _ _ = true; rfl)

theorem doVerify_ev (hF : sub [.regs, .queues, .readPorts, .svcStats, .jnl, .mnt, .jmem] H = true) (h : Evolves H s0 s) (o :
    Orig) (slot : Nat) : Evolves H s0 (doVerify o slot s) := by
  refine ev_mono hF h ?_
  unfold doVerify
  repeat' first
      | (with_reducible first
          | exact ev_refl _ _ | assumption | apply flashCommand_ev | apply flashStart_ev | refine ev_ite ?_ ?_
          | refine ev_fst (by assumption) ?_ | refine ev_snd (by assumption) ?_ | intro _ _ _ | intro _ _)
      | (show sub _ _ = true; rfl) | (show List.contains _ _ = true; rfl)

theorem parkHost_ev (hF : sub [.regs, .queues, .readPorts, .hostPorts, .svcStats, .jnl, .chans, .out] H = true) (h : Evolves H
    s0 s) (p : Nat) : Evolves H s0 (parkHost p s) := by
  refine ev_mono hF h ?_
  unfold parkHost
  repeat' first
      | (with_reducible first
          | exact ev_refl _ _ | assumption | apply dropLink_ev | refine ev_ite ?_ ?_ | refine ev_fst (by assumption) ?_
          | refine ev_snd (by assumption) ?_)
      | (show sub _ _ = true; rfl) | (show List.contains _ _ = true; rfl)

theorem doFlashOperationDone_ev (hF : sub [.rollback, .regs, .queues, .readPorts, .svcStats, .jnl, .mnt, .flash, .jmem,
    .freeCount] H = true) (h : Evolves H s0 s) (fail : Bool) : Evolves H s0 (doFlashOperationDone fail s) := by
  refine ev_mono hF h ?_
  unfold doFlashOperationDone
  repeat' first
      | (with_reducible first
          | exact ev_refl _ _ | assumption | exact Nat.le_max_left _ _ | apply recordError_ev | apply flashResult_ev
          | apply brokenFlash_ev | refine ev_ite ?_ ?_ | refine ev_fst (by assumption) ?_ | refine ev_snd (by assumption) ?_)
      | (with_reducible first
          | exact Nat.le_add_right _ _ | exact le_rfl)
      | (show sub _ _ = true; rfl) | (show List.contains _ _ = true; rfl) | dsimp only | split
      | (with_reducible apply ev_mnt_rollback)

theorem parkCamera_ev (hF : sub [.pins, .regs, .queues, .readPorts, .svcStats, .jnl, .cams, .frames, .out] H = true) (h :
    Evolves H s0 s) (p : Nat) : Evolves H s0 (parkCamera p s) := by
  refine ev_mono hF h ?_
  unfold parkCamera
  repeat' first
      | (with_reducible first
          | exact ev_refl _ _ | assumption | apply closeAll_ev | apply parkPort_ev | refine ev_ite ?_ ?_
          | refine ev_fst (by assumption) ?_ | refine ev_snd (by assumption) ?_)
      | (show sub _ _ = true; rfl) | (show List.contains _ _ = true; rfl)

theorem stopIslands_ev (hF : sub [.pins, .regs, .queues, .readPorts, .hostPorts, .svcStats, .jnl, .chans, .mnt, .pwms, .folds,
    .out] H = true) (h : Evolves H s0 s)  : Evolves H s0 (stopIslands s) := by
  refine ev_mono hF h ?_
  unfold stopIslands
  repeat' first
      | (with_reducible first
          | exact ev_refl _ _ | assumption | apply wr_ev | apply showClocks_ev | apply setPin_ev | apply driveFence_ev
          | apply quietOutputs_ev | apply parkHost_ev | refine ev_ite ?_ ?_ | refine ev_fst (by assumption) ?_
          | refine ev_snd (by assumption) ?_)
      | (show sub _ _ = true; rfl) | (show List.contains _ _ = true; rfl) | dsimp only | split
      | (with_reducible first | apply ev_pins | apply ev_mnt)

theorem doParkComplete_ev (hF : sub [.pins, .regs, .cfgB, .ldr, .queues, .readPorts, .hostPorts, .svcStats, .jnl, .rsv, .cams,
    .frames, .outs, .doneKeys, .holds, .txs, .chans, .weaves, .outFlows, .fab, .mnt, .pwms, .folds, .jmem, .out, .freeCount] H =
    true) (h : Evolves H s0 s)  : Evolves H s0 (doParkComplete s) := by
  refine ev_mono hF h ?_
  unfold doParkComplete
  repeat' first
      | (with_reducible first
          | exact ev_refl _ _ | assumption | apply each_ev | apply linkDown_ev | apply parkCamera_ev | apply stopIslands_ev
          | refine ev_ite ?_ ?_ | refine ev_fst (by assumption) ?_ | refine ev_snd (by assumption) ?_ | intro _ _ _ | intro _ _)
      | (show sub _ _ = true; rfl) | (show List.contains _ _ = true; rfl)

theorem doParkExit_ev (hF : sub [.pins, .regs, .queues, .readPorts, .svcStats, .jnl, .rsv, .cams, .mnt, .pwrs, .jmem, .out] H =
    true) (h : Evolves H s0 s)  : Evolves H s0 (doParkExit s) := by
  refine ev_mono hF h ?_
  unfold doParkExit
  repeat' first
      | (with_reducible first
          | exact ev_refl _ _ | assumption | apply leavePark_ev | refine ev_ite ?_ ?_ | refine ev_fst (by assumption) ?_
          | refine ev_snd (by assumption) ?_)
      | (show sub _ _ = true; rfl) | (show List.contains _ _ = true; rfl)

theorem doPresenceHeld_ev (hF : sub [.regs, .queues, .readPorts, .svcStats, .jnl] H = true) (h : Evolves H s0 s)  : Evolves H s0
    (doPresenceHeld s) := by
  refine ev_mono hF h ?_
  unfold doPresenceHeld
  repeat' first
      | (with_reducible first
          | exact ev_refl _ _ | assumption | apply recordError_ev | refine ev_ite ?_ ?_ | refine ev_fst (by assumption) ?_
          | refine ev_snd (by assumption) ?_)
      | (show sub _ _ = true; rfl) | (show List.contains _ _ = true; rfl)

theorem doPresencePulse_ev (hF : sub [.regs, .queues, .readPorts, .svcStats, .jnl, .mnt, .jmem, .freeCount] H = true) (h :
    Evolves H s0 s)  : Evolves H s0 (doPresencePulse s) := by
  refine ev_mono hF h ?_
  unfold doPresencePulse
  repeat' first
      | (with_reducible first
          | exact ev_refl _ _ | assumption | apply wr_ev | apply mntRecord_ev | apply drawNonce_ev | refine ev_ite ?_ ?_
          | refine ev_fst (by assumption) ?_ | refine ev_snd (by assumption) ?_)
      | (show sub _ _ = true; rfl) | (show List.contains _ _ = true; rfl) | dsimp only | split | (with_reducible apply ev_mnt)

theorem doWindowExpire_ev (hF : sub [.regs, .cfgB, .queues, .readPorts, .svcStats, .jnl, .mnt, .jmem] H = true) (h : Evolves H
    s0 s)  : Evolves H s0 (doWindowExpire s) := by
  refine ev_mono hF h ?_
  unfold doWindowExpire
  repeat' first
      | (with_reducible first
          | exact ev_refl _ _ | assumption | apply wr_ev | apply endSession_ev | refine ev_ite ?_ ?_
          | refine ev_fst (by assumption) ?_ | refine ev_snd (by assumption) ?_)
      | (show sub _ _ = true; rfl) | (show List.contains _ _ = true; rfl)

theorem execErase_ev (hF : sub [.regs, .queues, .readPorts, .svcStats, .jnl, .mnt, .flash, .jmem] H = true) (h : Evolves H s0 s)
    (o : Orig) (slot : Nat) (e : execErase o slot s = .next sNext) : Evolves H s0 sNext := by
  refine ev_mono hF h ?_
  unfold execErase at e
  cases e
  repeat' first
      | (with_reducible first
          | exact ev_refl _ _ | assumption | apply doErase_ev | refine ev_ite ?_ ?_ | refine ev_fst (by assumption) ?_
          | refine ev_snd (by assumption) ?_)
      | (show sub _ _ = true; rfl) | (show List.contains _ _ = true; rfl)

theorem execFlashOperationDone_ev (hF : sub [.rollback, .regs, .queues, .readPorts, .svcStats, .jnl, .mnt, .flash, .jmem,
    .freeCount] H = true) (h : Evolves H s0 s) (fail : Bool) (e : execFlashOperationDone fail s = .next sNext) : Evolves H s0
    sNext := by
  refine ev_mono hF h ?_
  unfold execFlashOperationDone at e
  cases e
  repeat' first
      | (with_reducible first
          | exact ev_refl _ _ | assumption | apply doFlashOperationDone_ev | refine ev_ite ?_ ?_
          | refine ev_fst (by assumption) ?_ | refine ev_snd (by assumption) ?_)
      | (show sub _ _ = true; rfl) | (show List.contains _ _ = true; rfl)

theorem execPark_ev (hF : sub [.pins, .regs, .queues, .readPorts, .svcStats, .jnl, .cams, .mnt, .jmem, .out] H = true) (h :
    Evolves H s0 s) (o : Orig) (v : Nat) (e : execPark o v s = .next sNext) : Evolves H s0 sNext := by
  refine ev_mono hF h ?_
  unfold execPark at e
  cases e
  repeat' first
      | (with_reducible first
          | exact ev_refl _ _ | assumption | apply doPark_ev | refine ev_ite ?_ ?_ | refine ev_fst (by assumption) ?_
          | refine ev_snd (by assumption) ?_)
      | (show sub _ _ = true; rfl) | (show List.contains _ _ = true; rfl)

theorem execParkCancel_ev (hF : sub [.pins, .regs, .queues, .readPorts, .svcStats, .jnl, .rsv, .cams, .mnt, .pwrs, .jmem, .out]
    H = true) (h : Evolves H s0 s) (o : Orig) (v : Nat) (e : execParkCancel o v s = .next sNext) : Evolves H s0 sNext := by
  refine ev_mono hF h ?_
  unfold execParkCancel at e
  cases e
  repeat' first
      | (with_reducible first
          | exact ev_refl _ _ | assumption | apply doParkCancel_ev | refine ev_ite ?_ ?_ | refine ev_fst (by assumption) ?_
          | refine ev_snd (by assumption) ?_)
      | (show sub _ _ = true; rfl) | (show List.contains _ _ = true; rfl)

theorem execParkComplete_ev (hF : sub [.pins, .regs, .cfgB, .ldr, .queues, .readPorts, .hostPorts, .svcStats, .jnl, .rsv, .cams,
    .frames, .outs, .doneKeys, .holds, .txs, .chans, .weaves, .outFlows, .fab, .mnt, .pwms, .folds, .jmem, .out, .freeCount] H =
    true) (h : Evolves H s0 s) (e : execParkComplete s = .next sNext) : Evolves H s0 sNext := by
  refine ev_mono hF h ?_
  unfold execParkComplete at e
  cases e
  repeat' first
      | (with_reducible first
          | exact ev_refl _ _ | assumption | apply doParkComplete_ev | refine ev_ite ?_ ?_ | refine ev_fst (by assumption) ?_
          | refine ev_snd (by assumption) ?_)
      | (show sub _ _ = true; rfl) | (show List.contains _ _ = true; rfl)

theorem execParkExit_ev (hF : sub [.pins, .regs, .queues, .readPorts, .svcStats, .jnl, .rsv, .cams, .mnt, .pwrs, .jmem, .out] H
    = true) (h : Evolves H s0 s) (e : execParkExit s = .next sNext) : Evolves H s0 sNext := by
  refine ev_mono hF h ?_
  unfold execParkExit at e
  cases e
  repeat' first
      | (with_reducible first
          | exact ev_refl _ _ | assumption | apply doParkExit_ev | refine ev_ite ?_ ?_ | refine ev_fst (by assumption) ?_
          | refine ev_snd (by assumption) ?_)
      | (show sub _ _ = true; rfl) | (show List.contains _ _ = true; rfl)

theorem execPresenceHeld_ev (hF : sub [.regs, .queues, .readPorts, .svcStats, .jnl] H = true) (h : Evolves H s0 s) (e :
    execPresenceHeld s = .next sNext) : Evolves H s0 sNext := by
  refine ev_mono hF h ?_
  unfold execPresenceHeld at e
  cases e
  repeat' first
      | (with_reducible first
          | exact ev_refl _ _ | assumption | apply doPresenceHeld_ev | refine ev_ite ?_ ?_ | refine ev_fst (by assumption) ?_
          | refine ev_snd (by assumption) ?_)
      | (show sub _ _ = true; rfl) | (show List.contains _ _ = true; rfl)

theorem execPresencePulse_ev (hF : sub [.regs, .queues, .readPorts, .svcStats, .jnl, .mnt, .jmem, .freeCount] H = true) (h :
    Evolves H s0 s) (e : execPresencePulse s = .next sNext) : Evolves H s0 sNext := by
  refine ev_mono hF h ?_
  unfold execPresencePulse at e
  cases e
  repeat' first
      | (with_reducible first
          | exact ev_refl _ _ | assumption | apply doPresencePulse_ev | refine ev_ite ?_ ?_ | refine ev_fst (by assumption) ?_
          | refine ev_snd (by assumption) ?_)
      | (show sub _ _ = true; rfl) | (show List.contains _ _ = true; rfl)

theorem execProgram_ev (hF : sub [.regs, .queues, .readPorts, .svcStats, .jnl, .mnt, .flash, .jmem] H = true) (h : Evolves H s0
    s) (o : Orig) (slot : Nat) (arg : Nat) (e : execProgram o slot arg s = .next sNext) : Evolves H s0 sNext := by
  refine ev_mono hF h ?_
  unfold execProgram at e
  cases e
  repeat' first
      | (with_reducible first
          | exact ev_refl _ _ | assumption | apply doProgram_ev | refine ev_ite ?_ ?_ | refine ev_fst (by assumption) ?_
          | refine ev_snd (by assumption) ?_)
      | (show sub _ _ = true; rfl) | (show List.contains _ _ = true; rfl)

theorem execReload_ev (hF : sub [.regs, .cfgB, .ldr, .queues, .readPorts, .svcStats, .jnl, .mnt, .jmem] H = true) (h : Evolves H
    s0 s) (o : Orig) (e : execReload o s = .next sNext) : Evolves H s0 sNext := by
  refine ev_mono hF h ?_
  unfold execReload at e
  cases e
  repeat' first
      | (with_reducible first
          | exact ev_refl _ _ | assumption | apply doReload_ev | refine ev_ite ?_ ?_ | refine ev_fst (by assumption) ?_
          | refine ev_snd (by assumption) ?_)
      | (show sub _ _ = true; rfl) | (show List.contains _ _ = true; rfl)

theorem execRollback_ev (hF : sub [.regs, .queues, .readPorts, .svcStats, .jnl, .mnt, .jmem] H = true) (h : Evolves H s0 s) (o :
    Orig) (arg : Nat) (e : execRollback o arg s = .next sNext) : Evolves H s0 sNext := by
  refine ev_mono hF h ?_
  unfold execRollback at e
  cases e
  repeat' first
      | (with_reducible first
          | exact ev_refl _ _ | assumption | apply doRollback_ev | refine ev_ite ?_ ?_ | refine ev_fst (by assumption) ?_
          | refine ev_snd (by assumption) ?_)
      | (show sub _ _ = true; rfl) | (show List.contains _ _ = true; rfl)

theorem execSessionClose_ev (hF : sub [.regs, .cfgB, .queues, .readPorts, .svcStats, .jnl, .mnt, .jmem] H = true) (h : Evolves H
    s0 s) (o : Orig) (e : execSessionClose o s = .next sNext) : Evolves H s0 sNext := by
  refine ev_mono hF h ?_
  unfold execSessionClose at e
  cases e
  repeat' first
      | (with_reducible first
          | exact ev_refl _ _ | assumption | apply doSessionClose_ev | refine ev_ite ?_ ?_ | refine ev_fst (by assumption) ?_
          | refine ev_snd (by assumption) ?_)
      | (show sub _ _ = true; rfl) | (show List.contains _ _ = true; rfl)

theorem execSessionOpen_ev (hF : sub [.pins, .regs, .cfgB, .queues, .readPorts, .hostPorts, .svcStats, .jnl, .rsv, .frames,
    .running, .syncs, .outs, .txs, .chans, .outFlows, .rly, .mnt, .pwms, .folds, .jmem, .out, .freeCount] H = true) (h : Evolves
    H s0 s) (o : Orig) (e : execSessionOpen o s = .next sNext) : Evolves H s0 sNext := by
  refine ev_mono hF h ?_
  unfold execSessionOpen at e
  cases e
  repeat' first
      | (with_reducible first
          | exact ev_refl _ _ | assumption | apply doSessionOpen_ev | refine ev_ite ?_ ?_ | refine ev_fst (by assumption) ?_
          | refine ev_snd (by assumption) ?_)
      | (show sub _ _ = true; rfl) | (show List.contains _ _ = true; rfl)

theorem execVerify_ev (hF : sub [.regs, .queues, .readPorts, .svcStats, .jnl, .mnt, .jmem] H = true) (h : Evolves H s0 s) (o :
    Orig) (slot : Nat) (e : execVerify o slot s = .next sNext) : Evolves H s0 sNext := by
  refine ev_mono hF h ?_
  unfold execVerify at e
  cases e
  repeat' first
      | (with_reducible first
          | exact ev_refl _ _ | assumption | apply doVerify_ev | refine ev_ite ?_ ?_ | refine ev_fst (by assumption) ?_
          | refine ev_snd (by assumption) ?_)
      | (show sub _ _ = true; rfl) | (show List.contains _ _ = true; rfl)

theorem execWindowExpire_ev (hF : sub [.regs, .cfgB, .queues, .readPorts, .svcStats, .jnl, .mnt, .jmem] H = true) (h : Evolves H
    s0 s) (e : execWindowExpire s = .next sNext) : Evolves H s0 sNext := by
  refine ev_mono hF h ?_
  unfold execWindowExpire at e
  cases e
  repeat' first
      | (with_reducible first
          | exact ev_refl _ _ | assumption | apply doWindowExpire_ev | refine ev_ite ?_ ?_ | refine ev_fst (by assumption) ?_
          | refine ev_snd (by assumption) ?_)
      | (show sub _ _ = true; rfl) | (show List.contains _ _ = true; rfl)

end Sys2Proof.Machine
end

