-- ==== Sys2Proof/Laws/EvMotion.lean ====
section
/-! SUPPORT. What each function of Machine/Motion.lean changes: one lemma per function, its footprint first. -/

namespace Sys2Proof.Machine
open Sys2Proof

set_option linter.unusedTactic false
set_option linter.unreachableTactic false
set_option linter.unusedVariables false

variable {H : List StateField} {s0 s sNext : State}

theorem setCh_ev (hF : sub [.mot] H = true) (h : Evolves H s0 s) (n : Nat) (x : ChSt) : Evolves H s0 (setCh n x s) := by
  refine ev_mono hF h ?_
  unfold setCh
  repeat' first
      | (with_reducible first
          | exact ev_refl _ _ | assumption | refine ev_ite ?_ ?_ | refine ev_fst (by assumption) ?_
          | refine ev_snd (by assumption) ?_)
      | (show sub _ _ = true) | (show List.contains _ _ = true; rfl) | dsimp only | split | (with_reducible apply ev_mot)

theorem acceptLevels_ev (hF : sub [.mot] H = true) (h : Evolves H s0 s) (n : Nat) (levels : Nat) : Evolves H s0 (acceptLevels n
    levels s) := by
  refine ev_mono hF h ?_
  unfold acceptLevels
  repeat' first
      | (with_reducible first
          | exact ev_refl _ _ | assumption | apply setCh_ev | refine ev_ite ?_ ?_ | refine ev_fst (by assumption) ?_
          | refine ev_snd (by assumption) ?_)
      | (show sub _ _ = true; rfl) | (show List.contains _ _ = true; rfl)

theorem driveEmu_ev (hF : sub [.out] H = true) (h : Evolves H s0 s) (e : Nat) (o : Int) : Evolves H s0 (driveEmu e o s) := by
  refine ev_mono hF h ?_
  unfold driveEmu
  repeat' first
      | (with_reducible first
          | exact ev_refl _ _ | assumption | apply setPin_ev | refine ev_ite ?_ ?_ | refine ev_fst (by assumption) ?_
          | refine ev_snd (by assumption) ?_)
      | (show sub _ _ = true; rfl) | (show List.contains _ _ = true; rfl)

theorem setEmu_ev (hF : sub [.mot] H = true) (h : Evolves H s0 s) (e : Nat) (x : EmuSt) : Evolves H s0 (setEmu e x s) := by
  refine ev_mono hF h ?_
  unfold setEmu
  repeat' first
      | (with_reducible first
          | exact ev_refl _ _ | assumption | refine ev_ite ?_ ?_ | refine ev_fst (by assumption) ?_
          | refine ev_snd (by assumption) ?_)
      | (show sub _ _ = true) | (show List.contains _ _ = true; rfl) | dsimp only | split | (with_reducible apply ev_mot)

theorem handSnapshot_ev (hF : sub [.frames, .mot] H = true) (h : Evolves H s0 s) (x : Mid) : Evolves H s0 (handSnapshot x s) :=
    by
  refine ev_mono hF h ?_
  unfold handSnapshot
  repeat' first
      | (with_reducible first
          | exact ev_refl _ _ | assumption | refine ev_ite ?_ ?_ | refine ev_fst (by assumption) ?_
          | refine ev_snd (by assumption) ?_)
      | (show sub _ _ = true) | (show List.contains _ _ = true; rfl) | dsimp only | split
      | (with_reducible first | apply ev_frames | apply ev_mot)

theorem finishMids_ev (hF : sub [.frames, .time, .mot] H = true) (h : Evolves H s0 s)  : Evolves H s0 (finishMids s) := by
  refine ev_mono hF h ?_
  unfold finishMids
  repeat' first
      | (with_reducible first
          | exact ev_refl _ _ | assumption | apply each_ev | apply handSnapshot_ev | refine ev_ite ?_ ?_
          | refine ev_fst (by assumption) ?_ | refine ev_snd (by assumption) ?_ | intro _ _ _ | intro _ _)
      | (show sub _ _ = true; rfl) | (show List.contains _ _ = true; rfl) | dsimp only | split | (with_reducible apply ev_time)

theorem noteValid_ev (hF : sub [.mot] H = true) (h : Evolves H s0 s) (n : Nat) (t : Nat) : Evolves H s0 (noteValid n t s) := by
  refine ev_mono hF h ?_
  unfold noteValid
  repeat' first
      | (with_reducible first
          | exact ev_refl _ _ | assumption | apply setCh_ev | refine ev_ite ?_ ?_ | refine ev_fst (by assumption) ?_
          | refine ev_snd (by assumption) ?_)
      | (show sub _ _ = true; rfl) | (show List.contains _ _ = true; rfl)

theorem pruneCh_ev (hF : sub [.mot] H = true) (h : Evolves H s0 s) (n : Nat) : Evolves H s0 (pruneCh n s) := by
  refine ev_mono hF h ?_
  unfold pruneCh
  repeat' first
      | (with_reducible first
          | exact ev_refl _ _ | assumption | apply setCh_ev | refine ev_ite ?_ ?_ | refine ev_fst (by assumption) ?_
          | refine ev_snd (by assumption) ?_)
      | (show sub _ _ = true; rfl) | (show List.contains _ _ = true; rfl)

theorem noteUpdate_ev (hF : sub [.regs, .mot] H = true) (h : Evolves H s0 s) (n : Nat) : Evolves H s0 (noteUpdate n s) := by
  refine ev_mono hF h ?_
  unfold noteUpdate
  repeat' first
      | (with_reducible first
          | exact ev_refl _ _ | assumption | apply wr_ev | apply setCh_ev | apply pruneCh_ev | refine ev_ite ?_ ?_
          | refine ev_fst (by assumption) ?_ | refine ev_snd (by assumption) ?_)
      | (show sub _ _ = true; rfl) | (show List.contains _ _ = true; rfl)

theorem restObserver_ev (hF : sub [.regs, .mot] H = true) (h : Evolves H s0 s) (n : Nat) : Evolves H s0 (restObserver n s) := by
  refine ev_mono hF h ?_
  unfold restObserver
  repeat' first
      | (with_reducible first
          | exact ev_refl _ _ | assumption | apply setCh_ev | apply noteUpdate_ev | refine ev_ite ?_ ?_
          | refine ev_fst (by assumption) ?_ | refine ev_snd (by assumption) ?_)
      | (show sub _ _ = true; rfl) | (show List.contains _ _ = true; rfl)

theorem loseChannel_ev (hF : sub [.regs, .queues, .readPorts, .svcStats, .jnl, .frames, .time, .mot] H = true) (h : Evolves H s0
    s) (n : Nat) : Evolves H s0 (loseChannel n s) := by
  refine ev_mono hF h ?_
  unfold loseChannel
  repeat' first
      | (with_reducible first
          | exact ev_refl _ _ | assumption | apply wr_ev | apply recordError_ev | apply setCh_ev | apply finishMids_ev
          | apply noteValid_ev | refine ev_ite ?_ ?_ | refine ev_fst (by assumption) ?_ | refine ev_snd (by assumption) ?_)
      | (show sub _ _ = true; rfl) | (show List.contains _ _ = true; rfl)

theorem ampFault_ev (hF : sub [.regs, .queues, .readPorts, .svcStats, .jnl, .frames, .time, .mot] H = true) (h : Evolves H s0 s)
    (n : Nat) : Evolves H s0 (ampFault n s) := by
  refine ev_mono hF h ?_
  unfold ampFault
  repeat' first
      | (with_reducible first
          | exact ev_refl _ _ | assumption | apply wr_ev | apply inc_ev | apply setCh_ev | apply loseChannel_ev
          | refine ev_ite ?_ ?_ | refine ev_fst (by assumption) ?_ | refine ev_snd (by assumption) ?_)
      | (show sub _ _ = true; rfl) | (show List.contains _ _ = true; rfl)

theorem testCompare_ev (hF : sub [.regs, .mnt] H = true) (h : Evolves H s0 s) (n : Nat) (c : Nat) (d : Int) (i : Nat) : Evolves
    H s0 (testCompare n c d s i) := by
  refine ev_mono hF h ?_
  unfold testCompare
  repeat' first
      | (with_reducible first
          | exact ev_refl _ _ | assumption | apply wr_ev | apply askWake_ev | refine ev_ite ?_ ?_
          | refine ev_fst (by assumption) ?_ | refine ev_snd (by assumption) ?_)
      | (show sub _ _ = true; rfl) | (show List.contains _ _ = true; rfl)

theorem setBehind_ev (hF : sub [.regs] H = true) (h : Evolves H s0 s) (i : Nat) : Evolves H s0 (setBehind i s) := by
  refine ev_mono hF h ?_
  unfold setBehind
  repeat' first
      | (with_reducible first
          | exact ev_refl _ _ | assumption | apply wr_ev | refine ev_ite ?_ ?_ | refine ev_fst (by assumption) ?_
          | refine ev_snd (by assumption) ?_)
      | (show sub _ _ = true; rfl) | (show List.contains _ _ = true; rfl)

theorem turnCompare_ev (hF : sub [.regs] H = true) (h : Evolves H s0 s) (n : Nat) (i : Nat) : Evolves H s0 (turnCompare n s i)
    := by
  refine ev_mono hF h ?_
  unfold turnCompare
  repeat' first
      | (with_reducible first
          | exact ev_refl _ _ | assumption | apply setBehind_ev | refine ev_ite ?_ ?_ | refine ev_fst (by assumption) ?_
          | refine ev_snd (by assumption) ?_)
      | (show sub _ _ = true; rfl) | (show List.contains _ _ = true; rfl)

theorem countStep_ev (hF : sub [.regs, .mnt, .mot] H = true) (h : Evolves H s0 s) (n : Nat) (d : Int) (t : Nat) : Evolves H s0
    (countStep n d t s) := by
  refine ev_mono hF h ?_
  unfold countStep
  repeat' first
      | (with_reducible first
          | exact ev_refl _ _ | assumption | apply wr_ev | apply setCh_ev | apply pruneCh_ev | apply testCompare_ev
          | apply turnCompare_ev | refine ev_ite ?_ ?_ | (refine ev_foldl ?_ ?_; rotate_left; intro _ _ _)
          | refine ev_fst (by assumption) ?_ | refine ev_snd (by assumption) ?_)
      | (show sub _ _ = true; rfl) | (show List.contains _ _ = true) | dsimp only | split

theorem angleStep_ev (hF : sub [.regs, .mnt, .mot] H = true) (h : Evolves H s0 s) (n : Nat) (ang : Nat) : Evolves H s0
    (angleStep n ang s) := by
  refine ev_mono hF h ?_
  unfold angleStep
  repeat' first
      | (with_reducible first
          | exact ev_refl _ _ | assumption | apply wr_ev | apply inc_ev | apply setCh_ev | apply countStep_ev
          | refine ev_ite ?_ ?_ | refine ev_fst (by assumption) ?_ | refine ev_snd (by assumption) ?_)
      | (show sub _ _ = true; rfl) | (show List.contains _ _ = true) | dsimp only | split

theorem doCompareArm_ev (hF : sub [.regs] H = true) (h : Evolves H s0 s) (i : Nat) (v : Nat) : Evolves H s0 (doCompareArm i v s)
    := by
  refine ev_mono hF h ?_
  unfold doCompareArm
  repeat' first
      | (with_reducible first
          | exact ev_refl _ _ | assumption | apply wr_ev | apply setBehind_ev | refine ev_ite ?_ ?_
          | refine ev_fst (by assumption) ?_ | refine ev_snd (by assumption) ?_)
      | (show sub _ _ = true; rfl) | (show List.contains _ _ = true; rfl)

theorem doChannelRevalid_ev (hF : sub [.regs, .mot] H = true) (h : Evolves H s0 s) (n : Nat) : Evolves H s0 (doChannelRevalid n
    s) := by
  refine ev_mono hF h ?_
  unfold doChannelRevalid
  repeat' first
      | (with_reducible first
          | exact ev_refl _ _ | assumption | apply wr_ev | apply setCh_ev | apply noteValid_ev | apply restObserver_ev
          | refine ev_ite ?_ ?_ | refine ev_fst (by assumption) ?_ | refine ev_snd (by assumption) ?_)
      | (show sub _ _ = true; rfl) | (show List.contains _ _ = true; rfl)

theorem doEmulatorStep_ev (hF : sub [.regs, .queues, .readPorts, .svcStats, .jnl, .mot, .out] H = true) (h : Evolves H s0 s) (e
    : Nat) : Evolves H s0 (doEmulatorStep e s) := by
  refine ev_mono hF h ?_
  unfold doEmulatorStep
  repeat' first
      | (with_reducible first
          | exact ev_refl _ _ | assumption | apply wr_ev | apply recordError_ev | apply driveEmu_ev | apply setEmu_ev
          | refine ev_ite ?_ ?_ | refine ev_fst (by assumption) ?_ | refine ev_snd (by assumption) ?_)
      | (show sub _ _ = true; rfl) | (show List.contains _ _ = true; rfl)

theorem doIndexEdge_ev (hF : sub [.regs, .mot] H = true) (h : Evolves H s0 s) (n : Nat) : Evolves H s0 (doIndexEdge n s) := by
  refine ev_mono hF h ?_
  unfold doIndexEdge
  repeat' first
      | (with_reducible first
          | exact ev_refl _ _ | assumption | apply wr_ev | apply setCh_ev | apply noteValid_ev | refine ev_ite ?_ ?_
          | refine ev_fst (by assumption) ?_ | refine ev_snd (by assumption) ?_)
      | (show sub _ _ = true; rfl) | (show List.contains _ _ = true; rfl)

theorem illegalChange_ev (hF : sub [.regs, .queues, .readPorts, .svcStats, .jnl, .frames, .time, .mot] H = true) (h : Evolves H
    s0 s) (n : Nat) (lines : Nat) : Evolves H s0 (illegalChange n lines s) := by
  refine ev_mono hF h ?_
  unfold illegalChange
  repeat' first
      | (with_reducible first
          | exact ev_refl _ _ | assumption | apply wr_ev | apply inc_ev | apply setCh_ev | apply loseChannel_ev
          | refine ev_ite ?_ ?_ | refine ev_fst (by assumption) ?_ | refine ev_snd (by assumption) ?_)
      | (show sub _ _ = true; rfl) | (show List.contains _ _ = true; rfl)

theorem doInputEdge_ev (hF : sub [.regs, .queues, .readPorts, .svcStats, .jnl, .frames, .mnt, .time, .mot] H = true) (h :
    Evolves H s0 s) (n : Nat) (levels : Nat) : Evolves H s0 (doInputEdge n levels s) := by
  refine ev_mono hF h ?_
  unfold doInputEdge
  repeat' first
      | (with_reducible first
          | exact ev_refl _ _ | assumption | apply setCh_ev | apply countStep_ev | apply illegalChange_ev | refine ev_ite ?_ ?_
          | refine ev_fst (by assumption) ?_ | refine ev_snd (by assumption) ?_)
      | (show sub _ _ = true; rfl) | (show List.contains _ _ = true) | dsimp only | split

theorem setMotion_ev (hF : sub [.frames] H = true) (h : Evolves H s0 s) (id : Nat) (m : Motion) : Evolves H s0 (setMotion id m
    s) := by
  refine ev_mono hF h ?_
  unfold setMotion
  repeat' first
      | (with_reducible first
          | exact ev_refl _ _ | assumption | refine ev_ite ?_ ?_ | refine ev_fst (by assumption) ?_
          | refine ev_snd (by assumption) ?_)
      | (show sub _ _ = true) | (show List.contains _ _ = true; rfl) | dsimp only | split | (with_reducible apply ev_frames)

theorem doMotionInterpolate_ev (hF : sub [.regs, .queues, .readPorts, .svcStats, .jnl, .frames] H = true) (h : Evolves H s0 s)
    (c : Nat) : Evolves H s0 (doMotionInterpolate c s) := by
  refine ev_mono hF h ?_
  unfold doMotionInterpolate
  repeat' first
      | (with_reducible first
          | exact ev_refl _ _ | assumption | apply recordError_ev | apply setMotion_ev | refine ev_ite ?_ ?_
          | refine ev_fst (by assumption) ?_ | refine ev_snd (by assumption) ?_)
      | (show sub _ _ = true; rfl) | (show List.contains _ _ = true) | dsimp only | split

theorem doSentMessage_ev (hF : sub [.regs, .queues, .readPorts, .svcStats, .jnl, .frames, .mnt, .time, .mot] H = true) (h :
    Evolves H s0 s) (n : Nat) (tick : Nat) (nibs : List Nat) (crc : Nat) (pause : Bool) (bad : Bool) (ago : Nat) : Evolves H s0
    (doSentMessage n tick nibs crc pause bad ago s) := by
  refine ev_mono hF h ?_
  unfold doSentMessage
  repeat' first
      | (with_reducible first
          | exact ev_refl _ _ | assumption | apply wr_ev | apply inc_ev | apply setCh_ev | apply finishMids_ev
          | apply loseChannel_ev | apply countStep_ev | refine ev_ite ?_ ?_ | refine ev_fst (by assumption) ?_
          | refine ev_snd (by assumption) ?_)
      | (show sub _ _ = true; rfl) | (show List.contains _ _ = true) | dsimp only | split

theorem doSincosSample_ev (hF : sub [.regs, .queues, .readPorts, .svcStats, .jnl, .frames, .mnt, .time, .mot, .freeCount] H =
    true) (h : Evolves H s0 s) (n : Nat) (codeSin : Nat) (codeCos : Nat) : Evolves H s0 (doSincosSample n codeSin codeCos s) :=
    by
  refine ev_mono hF h ?_
  unfold doSincosSample
  repeat' first
      | (with_reducible first
          | exact ev_refl _ _ | assumption | apply ampFault_ev | apply angleStep_ev | refine ev_ite ?_ ?_
          | refine ev_fst (by assumption) ?_ | refine ev_snd (by assumption) ?_)
      | (with_reducible first
          | exact Nat.le_add_right _ _ | exact le_rfl)
      | (show sub _ _ = true; rfl) | (show List.contains _ _ = true; rfl) | dsimp only | split
      | (with_reducible apply ev_freeCount)

theorem doSnapshot_ev (hF : sub [.frames, .time, .mot] H = true) (h : Evolves H s0 s)  : Evolves H s0 (doSnapshot s) := by
  refine ev_mono hF h ?_
  unfold doSnapshot
  repeat' first
      | (with_reducible first
          | exact ev_refl _ _ | assumption | apply finishMids_ev | refine ev_ite ?_ ?_ | refine ev_fst (by assumption) ?_
          | refine ev_snd (by assumption) ?_)
      | (show sub _ _ = true; rfl) | (show List.contains _ _ = true; rfl) | dsimp only | split | (with_reducible apply ev_time)

theorem doStandstill_ev (hF : sub [.regs, .mot] H = true) (h : Evolves H s0 s) (n : Nat) : Evolves H s0 (doStandstill n s) := by
  refine ev_mono hF h ?_
  unfold doStandstill
  repeat' first
      | (with_reducible first
          | exact ev_refl _ _ | assumption | apply wr_ev | apply restObserver_ev | refine ev_ite ?_ ?_
          | refine ev_fst (by assumption) ?_ | refine ev_snd (by assumption) ?_)
      | (show sub _ _ = true; rfl) | (show List.contains _ _ = true; rfl)

theorem execChannelRevalid_ev (hF : sub [.regs, .mot] H = true) (h : Evolves H s0 s) (n : Nat) (e : execChannelRevalid n s =
    .next sNext) : Evolves H s0 sNext := by
  refine ev_mono hF h ?_
  unfold execChannelRevalid at e
  cases e
  repeat' first
      | (with_reducible first
          | exact ev_refl _ _ | assumption | apply doChannelRevalid_ev | refine ev_ite ?_ ?_ | refine ev_fst (by assumption) ?_
          | refine ev_snd (by assumption) ?_)
      | (show sub _ _ = true; rfl) | (show List.contains _ _ = true; rfl)

theorem execCompareArm_ev (hF : sub [.regs] H = true) (h : Evolves H s0 s) (i : Nat) (v : Nat) (e : execCompareArm i v s = .next
    sNext) : Evolves H s0 sNext := by
  refine ev_mono hF h ?_
  unfold execCompareArm at e
  cases e
  repeat' first
      | (with_reducible first
          | exact ev_refl _ _ | assumption | apply doCompareArm_ev | refine ev_ite ?_ ?_ | refine ev_fst (by assumption) ?_
          | refine ev_snd (by assumption) ?_)
      | (show sub _ _ = true; rfl) | (show List.contains _ _ = true; rfl)

theorem execEmulatorStep_ev (hF : sub [.regs, .queues, .readPorts, .svcStats, .jnl, .mot, .out] H = true) (h : Evolves H s0 s)
    (e : Nat) (e : execEmulatorStep e s = .next sNext) : Evolves H s0 sNext := by
  refine ev_mono hF h ?_
  unfold execEmulatorStep at e
  cases e
  repeat' first
      | (with_reducible first
          | exact ev_refl _ _ | assumption | apply doEmulatorStep_ev | refine ev_ite ?_ ?_ | refine ev_fst (by assumption) ?_
          | refine ev_snd (by assumption) ?_)
      | (show sub _ _ = true; rfl) | (show List.contains _ _ = true; rfl)

theorem execHistoryEntry_ev (hF : sub [.mot] H = true) (h : Evolves H s0 s) (e : execHistoryEntry s = .next sNext) : Evolves H
    s0 sNext := by
  refine ev_mono hF h ?_
  unfold execHistoryEntry at e
  cases e
  repeat' first
      | (with_reducible first
          | exact ev_refl _ _ | assumption | refine ev_ite ?_ ?_ | refine ev_fst (by assumption) ?_
          | refine ev_snd (by assumption) ?_)
      | (show sub _ _ = true) | (show List.contains _ _ = true; rfl) | dsimp only | split | (with_reducible apply ev_mot)

theorem execIndexEdge_ev (hF : sub [.regs, .mot] H = true) (h : Evolves H s0 s) (n : Nat) (e : execIndexEdge n s = .next sNext)
    : Evolves H s0 sNext := by
  refine ev_mono hF h ?_
  unfold execIndexEdge at e
  cases e
  repeat' first
      | (with_reducible first
          | exact ev_refl _ _ | assumption | apply doIndexEdge_ev | refine ev_ite ?_ ?_ | refine ev_fst (by assumption) ?_
          | refine ev_snd (by assumption) ?_)
      | (show sub _ _ = true; rfl) | (show List.contains _ _ = true; rfl)

theorem execInputEdge_ev (hF : sub [.regs, .queues, .readPorts, .svcStats, .jnl, .frames, .mnt, .time, .mot] H = true) (h :
    Evolves H s0 s) (n : Nat) (levels : Nat) (e : execInputEdge n levels s = .next sNext) : Evolves H s0 sNext := by
  refine ev_mono hF h ?_
  unfold execInputEdge at e
  cases e
  repeat' first
      | (with_reducible first
          | exact ev_refl _ _ | assumption | apply acceptLevels_ev | apply doInputEdge_ev | refine ev_ite ?_ ?_
          | refine ev_fst (by assumption) ?_ | refine ev_snd (by assumption) ?_)
      | (show sub _ _ = true; rfl) | (show List.contains _ _ = true; rfl)

theorem execMotionInterpolate_ev (hF : sub [.regs, .queues, .readPorts, .svcStats, .jnl, .frames] H = true) (h : Evolves H s0 s)
    (c : Nat) (e : execMotionInterpolate c s = .next sNext) : Evolves H s0 sNext := by
  refine ev_mono hF h ?_
  unfold execMotionInterpolate at e
  cases e
  repeat' first
      | (with_reducible first
          | exact ev_refl _ _ | assumption | apply doMotionInterpolate_ev | refine ev_ite ?_ ?_
          | refine ev_fst (by assumption) ?_ | refine ev_snd (by assumption) ?_)
      | (show sub _ _ = true; rfl) | (show List.contains _ _ = true; rfl)

theorem observeCh_ev (hF : sub [.regs, .mot] H = true) (h : Evolves H s0 s) (n : Nat) : Evolves H s0 (observeCh s n) := by
  refine ev_mono hF h ?_
  unfold observeCh
  repeat' first
      | (with_reducible first
          | exact ev_refl _ _ | assumption | apply setCh_ev | apply noteUpdate_ev | refine ev_ite ?_ ?_
          | refine ev_fst (by assumption) ?_ | refine ev_snd (by assumption) ?_)
      | (show sub _ _ = true; rfl) | (show List.contains _ _ = true; rfl)

theorem execObserverUpdate_ev (hF : sub [.regs, .mot] H = true) (h : Evolves H s0 s) (e : execObserverUpdate s = .next sNext) :
    Evolves H s0 sNext := by
  refine ev_mono hF h ?_
  unfold execObserverUpdate at e
  cases e
  repeat' first
      | (with_reducible first
          | exact ev_refl _ _ | assumption | apply observeCh_ev | refine ev_ite ?_ ?_
          | (refine ev_foldl ?_ ?_; rotate_left; intro _ _ _) | refine ev_fst (by assumption) ?_
          | refine ev_snd (by assumption) ?_)
      | (show sub _ _ = true; rfl) | (show List.contains _ _ = true; rfl)

theorem execSentMessage_ev (hF : sub [.regs, .queues, .readPorts, .svcStats, .jnl, .frames, .mnt, .time, .mot] H = true) (h :
    Evolves H s0 s) (n : Nat) (tick : Nat) (nibs : List Nat) (crc : Nat) (pause : Bool) (bad : Bool) (ago : Nat) (e :
    execSentMessage n tick nibs crc pause bad ago s = .next sNext) : Evolves H s0 sNext := by
  refine ev_mono hF h ?_
  unfold execSentMessage at e
  cases e
  repeat' first
      | (with_reducible first
          | exact ev_refl _ _ | assumption | apply doSentMessage_ev | refine ev_ite ?_ ?_ | refine ev_fst (by assumption) ?_
          | refine ev_snd (by assumption) ?_)
      | (show sub _ _ = true; rfl) | (show List.contains _ _ = true; rfl)

theorem execSentTimeout_ev (hF : sub [.regs, .queues, .readPorts, .svcStats, .jnl, .frames, .time, .mot] H = true) (h : Evolves
    H s0 s) (n : Nat) (e : execSentTimeout n s = .next sNext) : Evolves H s0 sNext := by
  refine ev_mono hF h ?_
  unfold execSentTimeout at e
  cases e
  repeat' first
      | (with_reducible first
          | exact ev_refl _ _ | assumption | apply loseChannel_ev | refine ev_ite ?_ ?_ | refine ev_fst (by assumption) ?_
          | refine ev_snd (by assumption) ?_)
      | (show sub _ _ = true; rfl) | (show List.contains _ _ = true; rfl)

theorem execSincosSample_ev (hF : sub [.regs, .queues, .readPorts, .svcStats, .jnl, .frames, .mnt, .time, .mot, .freeCount] H =
    true) (h : Evolves H s0 s) (n : Nat) (codeSin : Nat) (codeCos : Nat) (e : execSincosSample n codeSin codeCos s = .next
    sNext) : Evolves H s0 sNext := by
  refine ev_mono hF h ?_
  unfold execSincosSample at e
  cases e
  repeat' first
      | (with_reducible first
          | exact ev_refl _ _ | assumption | apply doSincosSample_ev | refine ev_ite ?_ ?_ | refine ev_fst (by assumption) ?_
          | refine ev_snd (by assumption) ?_)
      | (show sub _ _ = true; rfl) | (show List.contains _ _ = true; rfl)

theorem execSnapshot_ev (hF : sub [.frames, .time, .mot] H = true) (h : Evolves H s0 s) (e : execSnapshot s = .next sNext) :
    Evolves H s0 sNext := by
  refine ev_mono hF h ?_
  unfold execSnapshot at e
  cases e
  repeat' first
      | (with_reducible first
          | exact ev_refl _ _ | assumption | apply doSnapshot_ev | refine ev_ite ?_ ?_ | refine ev_fst (by assumption) ?_
          | refine ev_snd (by assumption) ?_)
      | (show sub _ _ = true; rfl) | (show List.contains _ _ = true; rfl)

theorem execStandstill_ev (hF : sub [.regs, .mot] H = true) (h : Evolves H s0 s) (n : Nat) (e : execStandstill n s = .next
    sNext) : Evolves H s0 sNext := by
  refine ev_mono hF h ?_
  unfold execStandstill at e
  cases e
  repeat' first
      | (with_reducible first
          | exact ev_refl _ _ | assumption | apply doStandstill_ev | refine ev_ite ?_ ?_ | refine ev_fst (by assumption) ?_
          | refine ev_snd (by assumption) ?_)
      | (show sub _ _ = true; rfl) | (show List.contains _ _ = true; rfl)

end Sys2Proof.Machine
end

