-- ==== Sys2Proof/Laws/EvPower.lean ====
section
/-! SUPPORT. What each function of Machine/Power.lean changes: one lemma per function, its footprint first. -/

namespace Sys2Proof.Machine
open Sys2Proof

set_option linter.unusedTactic false
set_option linter.unreachableTactic false
set_option linter.unusedVariables false

variable {H : List StateField} {s0 s sNext : State}

theorem releasePort_ev (hF : sub [.pins, .regs, .pwrs, .out] H = true) (h : Evolves H s0 s) (p : Nat) : Evolves H s0
    (releasePort p s) := by
  refine ev_mono hF h ?_
  unfold releasePort
  repeat' first
      | (with_reducible first
          | exact ev_refl _ _ | assumption | apply setState_ev | apply powerInrush_ev | refine ev_ite ?_ ?_
          | refine ev_fst (by assumption) ?_ | refine ev_snd (by assumption) ?_)
      | (show sub _ _ = true; rfl) | (show List.contains _ _ = true; rfl)

theorem unlatch_ev (hF : sub [.pins, .regs, .pwrs, .out] H = true) (h : Evolves H s0 s) (p : Nat) : Evolves H s0 (unlatch p s)
    := by
  refine ev_mono hF h ?_
  unfold unlatch
  repeat' first
      | (with_reducible first
          | exact ev_refl _ _ | assumption | apply wr_ev | apply releasePort_ev | refine ev_ite ?_ ?_
          | refine ev_fst (by assumption) ?_ | refine ev_snd (by assumption) ?_)
      | (show sub _ _ = true; rfl) | (show List.contains _ _ = true; rfl)

theorem drivePwm_ev (hF : sub [.pins, .out] H = true) (h : Evolves H s0 s) (k : Nat) (on : Bool) : Evolves H s0 (drivePwm k on
    s) := by
  refine ev_mono hF h ?_
  unfold drivePwm
  repeat' first
      | (with_reducible first
          | exact ev_refl _ _ | assumption | apply setPin_ev | refine ev_ite ?_ ?_ | refine ev_fst (by assumption) ?_
          | refine ev_snd (by assumption) ?_)
      | (show sub _ _ = true; rfl) | (show List.contains _ _ = true; rfl) | dsimp only | split | (with_reducible apply ev_pins)

theorem setPwm_ev (hF : sub [.pwms] H = true) (h : Evolves H s0 s) (k : Nat) (x : PwmSt) : Evolves H s0 (setPwm k x s) := by
  refine ev_mono hF h ?_
  unfold setPwm
  repeat' first
      | (with_reducible first
          | exact ev_refl _ _ | assumption | refine ev_ite ?_ ?_ | refine ev_fst (by assumption) ?_
          | refine ev_snd (by assumption) ?_)
      | (show sub _ _ = true) | (show List.contains _ _ = true; rfl) | dsimp only | split | (with_reducible apply ev_pwms)

theorem driveFold_ev (hF : sub [.pins, .out] H = true) (h : Evolves H s0 s) (m : Nat) (d1 : Nat) (d2 : Nat) : Evolves H s0
    (driveFold m d1 d2 s) := by
  refine ev_mono hF h ?_
  unfold driveFold
  repeat' first
      | (with_reducible first
          | exact ev_refl _ _ | assumption | apply setPin_ev | refine ev_ite ?_ ?_ | refine ev_fst (by assumption) ?_
          | refine ev_snd (by assumption) ?_)
      | (show sub _ _ = true; rfl) | (show List.contains _ _ = true; rfl) | dsimp only | split | (with_reducible apply ev_pins)

theorem stopFold_ev (hF : sub [.pins, .regs, .out] H = true) (h : Evolves H s0 s) (m : Nat) (st : Nat) : Evolves H s0 (stopFold
    m st s) := by
  refine ev_mono hF h ?_
  unfold stopFold
  repeat' first
      | (with_reducible first
          | exact ev_refl _ _ | assumption | apply wr_ev | apply driveFold_ev | refine ev_ite ?_ ?_
          | refine ev_fst (by assumption) ?_ | refine ev_snd (by assumption) ?_)
      | (show sub _ _ = true; rfl) | (show List.contains _ _ = true; rfl)

theorem doFoldStop_ev (hF : sub [.pins, .regs, .folds, .out] H = true) (h : Evolves H s0 s) (m : Nat) : Evolves H s0 (doFoldStop
    m s) := by
  refine ev_mono hF h ?_
  unfold doFoldStop
  repeat' first
      | (with_reducible first
          | exact ev_refl _ _ | assumption | apply stopFold_ev | refine ev_ite ?_ ?_ | refine ev_fst (by assumption) ?_
          | refine ev_snd (by assumption) ?_)
      | (show sub _ _ = true; rfl) | (show List.contains _ _ = true; rfl) | dsimp only | split | (with_reducible apply ev_folds)

theorem foldEvt_ev (hF : sub [.regs] H = true) (h : Evolves H s0 s) (r : RF) (m : Nat) : Evolves H s0 (foldEvt r m s) := by
  refine ev_mono hF h ?_
  unfold foldEvt
  repeat' first
      | (with_reducible first
          | exact ev_refl _ _ | assumption | apply wr_ev | refine ev_ite ?_ ?_ | refine ev_fst (by assumption) ?_
          | refine ev_snd (by assumption) ?_)
      | (show sub _ _ = true; rfl) | (show List.contains _ _ = true; rfl)

theorem runFold_ev (hF : sub [.pins, .regs, .out] H = true) (h : Evolves H s0 s) (m : Nat) (way : Nat) : Evolves H s0 (runFold m
    way s) := by
  refine ev_mono hF h ?_
  unfold runFold
  repeat' first
      | (with_reducible first
          | exact ev_refl _ _ | assumption | apply wr_ev | apply driveFold_ev | refine ev_ite ?_ ?_
          | refine ev_fst (by assumption) ?_ | refine ev_snd (by assumption) ?_)
      | (show sub _ _ = true; rfl) | (show List.contains _ _ = true; rfl)

theorem foldCommand_ev (hF : sub [.pins, .regs, .folds, .out] H = true) (h : Evolves H s0 s) (m : Nat) (way : Nat) : Evolves H
    s0 (foldCommand m way s) := by
  refine ev_mono hF h ?_
  unfold foldCommand
  repeat' first
      | (with_reducible first
          | exact ev_refl _ _ | assumption | apply stopFold_ev | apply foldEvt_ev | apply runFold_ev | refine ev_ite ?_ ?_
          | refine ev_fst (by assumption) ?_ | refine ev_snd (by assumption) ?_)
      | (show sub _ _ = true; rfl) | (show List.contains _ _ = true; rfl) | dsimp only | split | (with_reducible apply ev_folds)

theorem beginPulse_ev (hF : sub [.pins, .pwms, .out] H = true) (h : Evolves H s0 s) (k : Nat) (stop : Nat) : Evolves H s0
    (beginPulse k stop s) := by
  refine ev_mono hF h ?_
  unfold beginPulse
  repeat' first
      | (with_reducible first
          | exact ev_refl _ _ | assumption | apply drivePwm_ev | apply setPwm_ev | refine ev_ite ?_ ?_
          | refine ev_fst (by assumption) ?_ | refine ev_snd (by assumption) ?_)
      | (show sub _ _ = true; rfl) | (show List.contains _ _ = true) | dsimp only | split

theorem setPwr_ev (hF : sub [.pwrs] H = true) (h : Evolves H s0 s) (p : Nat) (x : PwrSt) : Evolves H s0 (setPwr p x s) := by
  refine ev_mono hF h ?_
  unfold setPwr
  repeat' first
      | (with_reducible first
          | exact ev_refl _ _ | assumption | refine ev_ite ?_ ?_ | refine ev_fst (by assumption) ?_
          | refine ev_snd (by assumption) ?_)
      | (show sub _ _ = true) | (show List.contains _ _ = true; rfl) | dsimp only | split | (with_reducible apply ev_pwrs)

theorem tripPower_ev (hF : sub [.pins, .regs, .queues, .readPorts, .svcStats, .jnl, .cams, .frames, .running, .out] H = true) (h
    : Evolves H s0 s) (p : Nat) (cause : Nat) : Evolves H s0 (tripPower p cause s) := by
  refine ev_mono hF h ?_
  unfold tripPower
  repeat' first
      | (with_reducible first
          | exact ev_refl _ _ | assumption | apply wr_ev | apply inc_ev | apply recordError_ev | apply drivePoc_ev
          | apply kickSlices_ev | apply powerFault_ev | refine ev_ite ?_ ?_ | refine ev_fst (by assumption) ?_
          | refine ev_snd (by assumption) ?_)
      | (show sub _ _ = true; rfl) | (show List.contains _ _ = true; rfl)

theorem currentScan_ev (hF : sub [.pins, .regs, .queues, .readPorts, .svcStats, .jnl, .cams, .frames, .running, .pwrs, .out] H =
    true) (h : Evolves H s0 s) (p : Nat) (ma : Nat) : Evolves H s0 (currentScan p ma s) := by
  refine ev_mono hF h ?_
  unfold currentScan
  repeat' first
      | (with_reducible first
          | exact ev_refl _ _ | assumption | apply wr_ev | apply setPwr_ev | apply tripPower_ev | refine ev_ite ?_ ?_
          | refine ev_fst (by assumption) ?_ | refine ev_snd (by assumption) ?_)
      | (show sub _ _ = true; rfl) | (show List.contains _ _ = true; rfl)

theorem faultFold_ev (hF : sub [.pins, .regs, .queues, .readPorts, .svcStats, .jnl, .out] H = true) (h : Evolves H s0 s) (m :
    Nat) (code : Nat) : Evolves H s0 (faultFold m code s) := by
  refine ev_mono hF h ?_
  unfold faultFold
  repeat' first
      | (with_reducible first
          | exact ev_refl _ _ | assumption | apply recordError_ev | apply stopFold_ev | refine ev_ite ?_ ?_
          | refine ev_fst (by assumption) ?_ | refine ev_snd (by assumption) ?_)
      | (show sub _ _ = true; rfl) | (show List.contains _ _ = true; rfl)

theorem foldScan_ev (hF : sub [.pins, .regs, .queues, .readPorts, .svcStats, .jnl, .out] H = true) (h : Evolves H s0 s) (m :
    Nat) (ma : Nat) : Evolves H s0 (foldScan m ma s) := by
  refine ev_mono hF h ?_
  unfold foldScan
  repeat' first
      | (with_reducible first
          | exact ev_refl _ _ | assumption | apply wr_ev | apply faultFold_ev | refine ev_ite ?_ ?_
          | refine ev_fst (by assumption) ?_ | refine ev_snd (by assumption) ?_)
      | (show sub _ _ = true; rfl) | (show List.contains _ _ = true; rfl)

theorem railScan_ev (hF : sub [.regs, .queues, .readPorts, .svcStats, .jnl] H = true) (h : Evolves H s0 s) (mv : Nat) : Evolves
    H s0 (railScan mv s) := by
  refine ev_mono hF h ?_
  unfold railScan
  repeat' first
      | (with_reducible first
          | exact ev_refl _ _ | assumption | apply wr_ev | apply recordError_ev | refine ev_ite ?_ ?_
          | refine ev_fst (by assumption) ?_ | refine ev_snd (by assumption) ?_)
      | (show sub _ _ = true; rfl) | (show List.contains _ _ = true; rfl)

theorem voltageScan_ev (hF : sub [.pins, .regs, .queues, .readPorts, .svcStats, .jnl, .cams, .frames, .running, .pwrs, .out] H =
    true) (h : Evolves H s0 s) (p : Nat) (mv : Nat) : Evolves H s0 (voltageScan p mv s) := by
  refine ev_mono hF h ?_
  unfold voltageScan
  repeat' first
      | (with_reducible first
          | exact ev_refl _ _ | assumption | apply wr_ev | apply setPwr_ev | apply tripPower_ev | refine ev_ite ?_ ?_
          | refine ev_fst (by assumption) ?_ | refine ev_snd (by assumption) ?_)
      | (show sub _ _ = true; rfl) | (show List.contains _ _ = true; rfl)

theorem doAdc1Conversion_ev (hF : sub [.pins, .regs, .queues, .readPorts, .svcStats, .jnl, .cams, .frames, .running, .pwrs,
    .out] H = true) (h : Evolves H s0 s) (i : Nat) (code : Nat) : Evolves H s0 (doAdc1Conversion i code s) := by
  refine ev_mono hF h ?_
  unfold doAdc1Conversion
  repeat' first
      | (with_reducible first
          | exact ev_refl _ _ | assumption | apply currentScan_ev | apply foldScan_ev | apply railScan_ev | apply voltageScan_ev
          | refine ev_ite ?_ ?_ | refine ev_fst (by assumption) ?_ | refine ev_snd (by assumption) ?_)
      | (show sub _ _ = true; rfl) | (show List.contains _ _ = true; rfl)

theorem doBrakeEnd_ev (hF : sub [.pins, .regs, .folds, .out] H = true) (h : Evolves H s0 s) (m : Nat) : Evolves H s0 (doBrakeEnd
    m s) := by
  refine ev_mono hF h ?_
  unfold doBrakeEnd
  repeat' first
      | (with_reducible first
          | exact ev_refl _ _ | assumption | apply runFold_ev | refine ev_ite ?_ ?_ | refine ev_fst (by assumption) ?_
          | refine ev_snd (by assumption) ?_)
      | (show sub _ _ = true; rfl) | (show List.contains _ _ = true; rfl) | dsimp only | split | (with_reducible apply ev_folds)

theorem pulseAtFire_ev (hF : sub [.pins, .pwms, .out] H = true) (h : Evolves H s0 s) (t : Nat) (k : Nat) : Evolves H s0
    (pulseAtFire t s k) := by
  refine ev_mono hF h ?_
  unfold pulseAtFire
  repeat' first
      | (with_reducible first
          | exact ev_refl _ _ | assumption | apply setPwm_ev | apply beginPulse_ev | refine ev_ite ?_ ?_
          | refine ev_fst (by assumption) ?_ | refine ev_snd (by assumption) ?_)
      | (show sub _ _ = true; rfl) | (show List.contains _ _ = true; rfl)

theorem firePwm_ev (hF : sub [.pins, .pwms, .out] H = true) (h : Evolves H s0 s) (g : Nat) (t : Nat) : Evolves H s0 (firePwm g t
    s) := by
  refine ev_mono hF h ?_
  unfold firePwm
  repeat' first
      | (with_reducible first
          | exact ev_refl _ _ | assumption | apply pulseAtFire_ev | refine ev_ite ?_ ?_
          | (refine ev_foldl ?_ ?_; rotate_left; intro _ _ _) | refine ev_fst (by assumption) ?_
          | refine ev_snd (by assumption) ?_)
      | (show sub _ _ = true; rfl) | (show List.contains _ _ = true; rfl)

theorem doFoldStall_ev (hF : sub [.pins, .regs, .out] H = true) (h : Evolves H s0 s) (m : Nat) : Evolves H s0 (doFoldStall m s)
    := by
  refine ev_mono hF h ?_
  unfold doFoldStall
  repeat' first
      | (with_reducible first
          | exact ev_refl _ _ | assumption | apply stopFold_ev | apply foldEvt_ev | refine ev_ite ?_ ?_
          | refine ev_fst (by assumption) ?_ | refine ev_snd (by assumption) ?_)
      | (show sub _ _ = true; rfl) | (show List.contains _ _ = true; rfl)

theorem doFoldTimeout_ev (hF : sub [.pins, .regs, .queues, .readPorts, .svcStats, .jnl, .out] H = true) (h : Evolves H s0 s) (m
    : Nat) : Evolves H s0 (doFoldTimeout m s) := by
  refine ev_mono hF h ?_
  unfold doFoldTimeout
  repeat' first
      | (with_reducible first
          | exact ev_refl _ _ | assumption | apply faultFold_ev | refine ev_ite ?_ ?_ | refine ev_fst (by assumption) ?_
          | refine ev_snd (by assumption) ?_)
      | (show sub _ _ = true; rfl) | (show List.contains _ _ = true; rfl)

theorem doModeSample_ev (hF : sub [.regs, .ldr] H = true) (h : Evolves H s0 s) (v : Nat) : Evolves H s0 (doModeSample v s) := by
  refine ev_mono hF h ?_
  unfold doModeSample
  repeat' first
      | (with_reducible first
          | exact ev_refl _ _ | assumption | apply wr_ev | refine ev_ite ?_ ?_ | refine ev_fst (by assumption) ?_
          | refine ev_snd (by assumption) ?_)
      | (with_reducible first
          | exact Nat.le_add_right _ _ | exact le_rfl
          | (refine fun (c : State.Canonical _) => ?_; repeat' first | exact c.regs | exact c.cfgB | exact c.cfgA | exact ⟨c.profSets, c.baseSet⟩ | (apply swf_splice; exact Nat.le_add_right _ _)))
      | (show sub _ _ = true; rfl) | (show List.contains _ _ = true; rfl) | dsimp only | split | (with_reducible apply ev_ldr)

theorem doOpenDetect_ev (hF : sub [.regs] H = true) (h : Evolves H s0 s) (p : Nat) : Evolves H s0 (doOpenDetect p s) := by
  refine ev_mono hF h ?_
  unfold doOpenDetect
  repeat' first
      | (with_reducible first
          | exact ev_refl _ _ | assumption | apply wr_ev | refine ev_ite ?_ ?_ | refine ev_fst (by assumption) ?_
          | refine ev_snd (by assumption) ?_)
      | (show sub _ _ = true; rfl) | (show List.contains _ _ = true; rfl)

theorem doPowerGood_ev (hF : sub [.regs, .pwrs] H = true) (h : Evolves H s0 s) (p : Nat) : Evolves H s0 (doPowerGood p s) := by
  refine ev_mono hF h ?_
  unfold doPowerGood
  repeat' first
      | (with_reducible first
          | exact ev_refl _ _ | assumption | apply wr_ev | apply setState_ev | apply setPwr_ev | refine ev_ite ?_ ?_
          | refine ev_fst (by assumption) ?_ | refine ev_snd (by assumption) ?_)
      | (show sub _ _ = true; rfl) | (show List.contains _ _ = true; rfl)

theorem doPowerRetry_ev (hF : sub [.pins, .regs, .queues, .readPorts, .svcStats, .jnl, .pwrs, .out] H = true) (h : Evolves H s0
    s) (p : Nat) : Evolves H s0 (doPowerRetry p s) := by
  refine ev_mono hF h ?_
  unfold doPowerRetry
  repeat' first
      | (with_reducible first
          | exact ev_refl _ _ | assumption | apply wr_ev | apply recordError_ev | apply releasePort_ev | refine ev_ite ?_ ?_
          | refine ev_fst (by assumption) ?_ | refine ev_snd (by assumption) ?_)
      | (show sub _ _ = true; rfl) | (show List.contains _ _ = true; rfl)

theorem doPwmPeriodStart_ev (hF : sub [.pins, .pwms, .out] H = true) (h : Evolves H s0 s) (k : Nat) : Evolves H s0
    (doPwmPeriodStart k s) := by
  refine ev_mono hF h ?_
  unfold doPwmPeriodStart
  repeat' first
      | (with_reducible first
          | exact ev_refl _ _ | assumption | apply drivePwm_ev | apply setPwm_ev | refine ev_ite ?_ ?_
          | refine ev_fst (by assumption) ?_ | refine ev_snd (by assumption) ?_)
      | (show sub _ _ = true; rfl) | (show List.contains _ _ = true; rfl)

theorem doPwmPulseEnd_ev (hF : sub [.pins, .pwms, .out] H = true) (h : Evolves H s0 s) (k : Nat) : Evolves H s0 (doPwmPulseEnd k
    s) := by
  refine ev_mono hF h ?_
  unfold doPwmPulseEnd
  repeat' first
      | (with_reducible first
          | exact ev_refl _ _ | assumption | apply drivePwm_ev | apply setPwm_ev | refine ev_ite ?_ ?_
          | refine ev_fst (by assumption) ?_ | refine ev_snd (by assumption) ?_)
      | (show sub _ _ = true; rfl) | (show List.contains _ _ = true) | dsimp only | split

theorem doPwmPulseStart_ev (hF : sub [.pins, .pwms, .out] H = true) (h : Evolves H s0 s) (k : Nat) : Evolves H s0
    (doPwmPulseStart k s) := by
  refine ev_mono hF h ?_
  unfold doPwmPulseStart
  repeat' first
      | (with_reducible first
          | exact ev_refl _ _ | assumption | apply setPwm_ev | apply beginPulse_ev | refine ev_ite ?_ ?_
          | refine ev_fst (by assumption) ?_ | refine ev_snd (by assumption) ?_)
      | (show sub _ _ = true; rfl) | (show List.contains _ _ = true) | dsimp only | split

theorem execAdc1Conversion_ev (hF : sub [.pins, .regs, .queues, .readPorts, .svcStats, .jnl, .cams, .frames, .running, .pwrs,
    .out] H = true) (h : Evolves H s0 s) (i : Nat) (code : Nat) (e : execAdc1Conversion i code s = .next sNext) : Evolves H s0
    sNext := by
  refine ev_mono hF h ?_
  unfold execAdc1Conversion at e
  cases e
  repeat' first
      | (with_reducible first
          | exact ev_refl _ _ | assumption | apply doAdc1Conversion_ev | refine ev_ite ?_ ?_ | refine ev_fst (by assumption) ?_
          | refine ev_snd (by assumption) ?_)
      | (show sub _ _ = true; rfl) | (show List.contains _ _ = true; rfl)

theorem execAttemptReset_ev (hF : sub [.regs] H = true) (h : Evolves H s0 s) (p : Nat) (e : execAttemptReset p s = .next sNext)
    : Evolves H s0 sNext := by
  refine ev_mono hF h ?_
  unfold execAttemptReset at e
  cases e
  repeat' first
      | (with_reducible first
          | exact ev_refl _ _ | assumption | apply wr_ev | refine ev_ite ?_ ?_ | refine ev_fst (by assumption) ?_
          | refine ev_snd (by assumption) ?_)
      | (show sub _ _ = true; rfl) | (show List.contains _ _ = true; rfl)

theorem execBrakeEnd_ev (hF : sub [.pins, .regs, .folds, .out] H = true) (h : Evolves H s0 s) (m : Nat) (e : execBrakeEnd m s =
    .next sNext) : Evolves H s0 sNext := by
  refine ev_mono hF h ?_
  unfold execBrakeEnd at e
  cases e
  repeat' first
      | (with_reducible first
          | exact ev_refl _ _ | assumption | apply doBrakeEnd_ev | refine ev_ite ?_ ?_ | refine ev_fst (by assumption) ?_
          | refine ev_snd (by assumption) ?_)
      | (show sub _ _ = true; rfl) | (show List.contains _ _ = true; rfl)

theorem execFold_ev (hF : sub [.pins, .regs, .folds, .out] H = true) (h : Evolves H s0 s) (m : Nat) (e : execFold m s = .next
    sNext) : Evolves H s0 sNext := by
  refine ev_mono hF h ?_
  unfold execFold at e
  cases e
  repeat' first
      | (with_reducible first
          | exact ev_refl _ _ | assumption | apply foldCommand_ev | refine ev_ite ?_ ?_ | refine ev_fst (by assumption) ?_
          | refine ev_snd (by assumption) ?_)
      | (show sub _ _ = true; rfl) | (show List.contains _ _ = true; rfl)

theorem execFoldStall_ev (hF : sub [.pins, .regs, .out] H = true) (h : Evolves H s0 s) (m : Nat) (e : execFoldStall m s = .next
    sNext) : Evolves H s0 sNext := by
  refine ev_mono hF h ?_
  unfold execFoldStall at e
  cases e
  repeat' first
      | (with_reducible first
          | exact ev_refl _ _ | assumption | apply doFoldStall_ev | refine ev_ite ?_ ?_ | refine ev_fst (by assumption) ?_
          | refine ev_snd (by assumption) ?_)
      | (show sub _ _ = true; rfl) | (show List.contains _ _ = true; rfl)

theorem execFoldStop_ev (hF : sub [.pins, .regs, .folds, .out] H = true) (h : Evolves H s0 s) (m : Nat) (e : execFoldStop m s =
    .next sNext) : Evolves H s0 sNext := by
  refine ev_mono hF h ?_
  unfold execFoldStop at e
  cases e
  repeat' first
      | (with_reducible first
          | exact ev_refl _ _ | assumption | apply doFoldStop_ev | refine ev_ite ?_ ?_ | refine ev_fst (by assumption) ?_
          | refine ev_snd (by assumption) ?_)
      | (show sub _ _ = true; rfl) | (show List.contains _ _ = true; rfl)

theorem execFoldTimeout_ev (hF : sub [.pins, .regs, .queues, .readPorts, .svcStats, .jnl, .out] H = true) (h : Evolves H s0 s)
    (m : Nat) (e : execFoldTimeout m s = .next sNext) : Evolves H s0 sNext := by
  refine ev_mono hF h ?_
  unfold execFoldTimeout at e
  cases e
  repeat' first
      | (with_reducible first
          | exact ev_refl _ _ | assumption | apply doFoldTimeout_ev | refine ev_ite ?_ ?_ | refine ev_fst (by assumption) ?_
          | refine ev_snd (by assumption) ?_)
      | (show sub _ _ = true; rfl) | (show List.contains _ _ = true; rfl)

theorem execModeSample_ev (hF : sub [.regs, .ldr] H = true) (h : Evolves H s0 s) (v : Nat) (e : execModeSample v s = .next
    sNext) : Evolves H s0 sNext := by
  refine ev_mono hF h ?_
  unfold execModeSample at e
  cases e
  repeat' first
      | (with_reducible first
          | exact ev_refl _ _ | assumption | apply doModeSample_ev | refine ev_ite ?_ ?_ | refine ev_fst (by assumption) ?_
          | refine ev_snd (by assumption) ?_)
      | (show sub _ _ = true; rfl) | (show List.contains _ _ = true; rfl)

theorem execOpenDetect_ev (hF : sub [.regs] H = true) (h : Evolves H s0 s) (p : Nat) (e : execOpenDetect p s = .next sNext) :
    Evolves H s0 sNext := by
  refine ev_mono hF h ?_
  unfold execOpenDetect at e
  cases e
  repeat' first
      | (with_reducible first
          | exact ev_refl _ _ | assumption | apply doOpenDetect_ev | refine ev_ite ?_ ?_ | refine ev_fst (by assumption) ?_
          | refine ev_snd (by assumption) ?_)
      | (show sub _ _ = true; rfl) | (show List.contains _ _ = true; rfl)

theorem execPgTimeout_ev (hF : sub [.pins, .regs, .queues, .readPorts, .svcStats, .jnl, .cams, .frames, .running, .out] H =
    true) (h : Evolves H s0 s) (p : Nat) (e : execPgTimeout p s = .next sNext) : Evolves H s0 sNext := by
  refine ev_mono hF h ?_
  unfold execPgTimeout at e
  cases e
  repeat' first
      | (with_reducible first
          | exact ev_refl _ _ | assumption | apply tripPower_ev | refine ev_ite ?_ ?_ | refine ev_fst (by assumption) ?_
          | refine ev_snd (by assumption) ?_)
      | (show sub _ _ = true; rfl) | (show List.contains _ _ = true; rfl)

theorem execPocFaultPin_ev (hF : sub [.pins, .regs, .queues, .readPorts, .svcStats, .jnl, .cams, .frames, .running, .out] H =
    true) (h : Evolves H s0 s) (p : Nat) (e : execPocFaultPin p s = .next sNext) : Evolves H s0 sNext := by
  refine ev_mono hF h ?_
  unfold execPocFaultPin at e
  cases e
  repeat' first
      | (with_reducible first
          | exact ev_refl _ _ | assumption | apply tripPower_ev | refine ev_ite ?_ ?_ | refine ev_fst (by assumption) ?_
          | refine ev_snd (by assumption) ?_)
      | (show sub _ _ = true; rfl) | (show List.contains _ _ = true; rfl)

theorem execPowerGood_ev (hF : sub [.regs, .pwrs] H = true) (h : Evolves H s0 s) (p : Nat) (e : execPowerGood p s = .next sNext)
    : Evolves H s0 sNext := by
  refine ev_mono hF h ?_
  unfold execPowerGood at e
  cases e
  repeat' first
      | (with_reducible first
          | exact ev_refl _ _ | assumption | apply doPowerGood_ev | refine ev_ite ?_ ?_ | refine ev_fst (by assumption) ?_
          | refine ev_snd (by assumption) ?_)
      | (show sub _ _ = true; rfl) | (show List.contains _ _ = true; rfl)

theorem execPowerRelease_ev (hF : sub [.pins, .regs, .pwrs, .out] H = true) (h : Evolves H s0 s) (p : Nat) (e : execPowerRelease
    p s = .next sNext) : Evolves H s0 sNext := by
  refine ev_mono hF h ?_
  unfold execPowerRelease at e
  cases e
  repeat' first
      | (with_reducible first
          | exact ev_refl _ _ | assumption | apply unlatch_ev | refine ev_ite ?_ ?_ | refine ev_fst (by assumption) ?_
          | refine ev_snd (by assumption) ?_)
      | (show sub _ _ = true; rfl) | (show List.contains _ _ = true; rfl)

theorem execPowerRetry_ev (hF : sub [.pins, .regs, .queues, .readPorts, .svcStats, .jnl, .pwrs, .out] H = true) (h : Evolves H
    s0 s) (p : Nat) (e : execPowerRetry p s = .next sNext) : Evolves H s0 sNext := by
  refine ev_mono hF h ?_
  unfold execPowerRetry at e
  cases e
  repeat' first
      | (with_reducible first
          | exact ev_refl _ _ | assumption | apply doPowerRetry_ev | refine ev_ite ?_ ?_ | refine ev_fst (by assumption) ?_
          | refine ev_snd (by assumption) ?_)
      | (show sub _ _ = true; rfl) | (show List.contains _ _ = true; rfl)

theorem execPwmPeriodStart_ev (hF : sub [.pins, .pwms, .out] H = true) (h : Evolves H s0 s) (k : Nat) (e : execPwmPeriodStart k
    s = .next sNext) : Evolves H s0 sNext := by
  refine ev_mono hF h ?_
  unfold execPwmPeriodStart at e
  cases e
  repeat' first
      | (with_reducible first
          | exact ev_refl _ _ | assumption | apply doPwmPeriodStart_ev | refine ev_ite ?_ ?_ | refine ev_fst (by assumption) ?_
          | refine ev_snd (by assumption) ?_)
      | (show sub _ _ = true; rfl) | (show List.contains _ _ = true; rfl)

theorem execPwmPulseEnd_ev (hF : sub [.pins, .pwms, .out] H = true) (h : Evolves H s0 s) (k : Nat) (e : execPwmPulseEnd k s =
    .next sNext) : Evolves H s0 sNext := by
  refine ev_mono hF h ?_
  unfold execPwmPulseEnd at e
  cases e
  repeat' first
      | (with_reducible first
          | exact ev_refl _ _ | assumption | apply doPwmPulseEnd_ev | refine ev_ite ?_ ?_ | refine ev_fst (by assumption) ?_
          | refine ev_snd (by assumption) ?_)
      | (show sub _ _ = true; rfl) | (show List.contains _ _ = true; rfl)

theorem execPwmPulseStart_ev (hF : sub [.pins, .pwms, .out] H = true) (h : Evolves H s0 s) (k : Nat) (e : execPwmPulseStart k s
    = .next sNext) : Evolves H s0 sNext := by
  refine ev_mono hF h ?_
  unfold execPwmPulseStart at e
  cases e
  repeat' first
      | (with_reducible first
          | exact ev_refl _ _ | assumption | apply doPwmPulseStart_ev | refine ev_ite ?_ ?_ | refine ev_fst (by assumption) ?_
          | refine ev_snd (by assumption) ?_)
      | (show sub _ _ = true; rfl) | (show List.contains _ _ = true; rfl)

theorem execUnfold_ev (hF : sub [.pins, .regs, .folds, .out] H = true) (h : Evolves H s0 s) (m : Nat) (e : execUnfold m s =
    .next sNext) : Evolves H s0 sNext := by
  refine ev_mono hF h ?_
  unfold execUnfold at e
  cases e
  repeat' first
      | (with_reducible first
          | exact ev_refl _ _ | assumption | apply foldCommand_ev | refine ev_ite ?_ ?_ | refine ev_fst (by assumption) ?_
          | refine ev_snd (by assumption) ?_)
      | (show sub _ _ = true; rfl) | (show List.contains _ _ = true; rfl)

end Sys2Proof.Machine
end

