-- ==== Sys2Proof/Laws/EvTime.lean ====
section
/-! SUPPORT. What each function of Machine/Time.lean changes: one lemma per function, its footprint first. -/

namespace Sys2Proof.Machine
open Sys2Proof

set_option linter.unusedTactic false
set_option linter.unreachableTactic false
set_option linter.unusedVariables false

variable {H : List StateField} {s0 s sNext : State}

theorem enterSync_ev (hF : sub [.regs, .weaves, .fab, .time, .out] H = true) (h : Evolves H s0 s) (st : Nat) : Evolves H s0
    (enterSync st s) := by
  refine ev_mono hF h ?_
  unfold enterSync
  repeat' first
      | (with_reducible first
          | exact ev_refl _ _ | assumption | apply wr_ev | apply sendLsaIfChanged_ev | refine ev_ite ?_ ?_
          | refine ev_fst (by assumption) ?_ | refine ev_snd (by assumption) ?_)
      | (show sub _ _ = true; rfl) | (show List.contains _ _ = true; rfl) | dsimp only | split | (with_reducible apply ev_time)

theorem commitAnchor_ev (hF : sub [.regs, .queues, .readPorts, .svcStats, .jnl] H = true) (h : Evolves H s0 s) (a : AnchorDue) :
    Evolves H s0 (commitAnchor a s) := by
  refine ev_mono hF h ?_
  unfold commitAnchor
  repeat' first
      | (with_reducible first
          | exact ev_refl _ _ | assumption | apply qPut_ev | refine ev_ite ?_ ?_
          | (refine ev_foldl ?_ ?_; rotate_left; intro _ _ _) | refine ev_fst (by assumption) ?_
          | refine ev_snd (by assumption) ?_)
      | (show sub _ _ = true; rfl) | (show List.contains _ _ = true; rfl) | dsimp only | split | (with_reducible apply ev_jnl)

theorem latchHi_ev (hF : sub [.time] H = true) (h : Evolves H s0 s) (o : Orig) : Evolves H s0 (latchHi o s) := by
  refine ev_mono hF h ?_
  unfold latchHi
  repeat' first
      | (with_reducible first
          | exact ev_refl _ _ | assumption | refine ev_ite ?_ ?_ | refine ev_fst (by assumption) ?_
          | refine ev_snd (by assumption) ?_)
      | (show sub _ _ = true) | (show List.contains _ _ = true; rfl) | dsimp only | split | (with_reducible apply ev_time)

theorem doAnchorCommit_ev (hF : sub [.regs, .queues, .readPorts, .svcStats, .jnl, .time] H = true) (h : Evolves H s0 s)  :
    Evolves H s0 (doAnchorCommit s) := by
  refine ev_mono hF h ?_
  unfold doAnchorCommit
  repeat' first
      | (with_reducible first
          | exact ev_refl _ _ | assumption | apply commitAnchor_ev | refine ev_ite ?_ ?_ | refine ev_fst (by assumption) ?_
          | refine ev_snd (by assumption) ?_)
      | (show sub _ _ = true; rfl) | (show List.contains _ _ = true; rfl) | dsimp only | split | (with_reducible apply ev_time)

theorem doRateWrite_ev (hF : sub [.regs] H = true) (h : Evolves H s0 s) (v : Nat) : Evolves H s0 (doRateWrite v s) := by
  refine ev_mono hF h ?_
  unfold doRateWrite
  repeat' first
      | (with_reducible first
          | exact ev_refl _ _ | assumption | apply wr_ev | refine ev_ite ?_ ?_ | refine ev_fst (by assumption) ?_
          | refine ev_snd (by assumption) ?_)
      | (show sub _ _ = true; rfl) | (show List.contains _ _ = true; rfl)

theorem dueExtra_ev (hF : sub [.time] H = true) (h : Evolves H s0 s)  : Evolves H s0 (dueExtra s) := by
  refine ev_mono hF h ?_
  unfold dueExtra
  repeat' first
      | (with_reducible first
          | exact ev_refl _ _ | assumption | refine ev_ite ?_ ?_ | refine ev_fst (by assumption) ?_
          | refine ev_snd (by assumption) ?_)
      | (show sub _ _ = true) | (show List.contains _ _ = true; rfl) | dsimp only | split | (with_reducible apply ev_time)

theorem setTrgNext_ev (hF : sub [.regs] H = true) (h : Evolves H s0 s) (g : Nat) (t : Nat) : Evolves H s0 (setTrgNext g t s) :=
    by
  refine ev_mono hF h ?_
  unfold setTrgNext
  repeat' first
      | (with_reducible first
          | exact ev_refl _ _ | assumption | apply wr_ev | refine ev_ite ?_ ?_ | refine ev_fst (by assumption) ?_
          | refine ev_snd (by assumption) ?_)
      | (show sub _ _ = true; rfl) | (show List.contains _ _ = true; rfl)

theorem stepBy_ev (hF : sub [.now, .regs, .time] H = true) (h : Evolves H s0 s) (d : Int) : Evolves H s0 (stepBy d s) := by
  refine ev_mono hF h ?_
  unfold stepBy
  repeat' first
      | (with_reducible first
          | exact ev_refl _ _ | assumption | apply wr_ev | apply inc_ev | apply dueExtra_ev | apply setTrgNext_ev
          | refine ev_ite ?_ ?_ | (refine ev_foldl ?_ ?_; rotate_left; intro _ _ _) | refine ev_fst (by assumption) ?_
          | refine ev_snd (by assumption) ?_)
      | (with_reducible first
          | exact Nat.le_add_right _ _ | exact le_rfl)
      | (show sub _ _ = true; rfl) | (show List.contains _ _ = true; rfl) | dsimp only | split
      | (with_reducible apply ev_now_time)

theorem doStep_ev (hF : sub [.now, .regs, .time] H = true) (h : Evolves H s0 s) (v : Nat) : Evolves H s0 (doStep v s) := by
  refine ev_mono hF h ?_
  unfold doStep
  repeat' first
      | (with_reducible first
          | exact ev_refl _ _ | assumption | apply stepBy_ev | refine ev_ite ?_ ?_ | refine ev_fst (by assumption) ?_
          | refine ev_snd (by assumption) ?_)
      | (show sub _ _ = true; rfl) | (show List.contains _ _ = true; rfl)

theorem queueMid_ev (hF : sub [.regs, .queues, .readPorts, .svcStats, .jnl, .time] H = true) (h : Evolves H s0 s) (g : Nat) (x :
    Mid) : Evolves H s0 (queueMid g x s) := by
  refine ev_mono hF h ?_
  unfold queueMid
  repeat' first
      | (with_reducible first
          | exact ev_refl _ _ | assumption | apply inc_ev | apply recordError_ev | refine ev_ite ?_ ?_
          | refine ev_fst (by assumption) ?_ | refine ev_snd (by assumption) ?_)
      | (show sub _ _ = true; rfl) | (show List.contains _ _ = true; rfl) | dsimp only | split | (with_reducible apply ev_time)

theorem fireAtPort_ev (hF : sub [.pins, .regs, .liveA, .queues, .readPorts, .svcStats, .jnl, .cams, .time, .out] H = true) (h :
    Evolves H s0 s) (g : Nat) (t : Nat) (ep : Nat) (p : Nat) : Evolves H s0 (fireAtPort g t ep s p) := by
  refine ev_mono hF h ?_
  unfold fireAtPort
  repeat' first
      | (with_reducible first
          | exact ev_refl _ _ | assumption | apply liveRefresh_ev | apply each_ev | apply handTrigger_ev | apply queueMid_ev
          | refine ev_ite ?_ ?_ | refine ev_fst (by assumption) ?_ | refine ev_snd (by assumption) ?_ | intro _ _ _ | intro _ _)
      | (show sub _ _ = true; rfl) | (show List.contains _ _ = true; rfl)

theorem doTriggerFire_ev (hF : sub [.pins, .regs, .cfgB, .liveA, .ldr, .queues, .readPorts, .svcStats, .jnl, .rsv, .cams, .time,
    .pwms, .jmem, .out, .freeCount] H = true) (h : Evolves H s0 s) (g : Nat) : Evolves H s0 (doTriggerFire g s) := by
  refine ev_mono hF h ?_
  unfold doTriggerFire
  repeat' first
      | (with_reducible first
          | exact ev_refl _ _ | assumption | apply checkSwap_ev | apply setTrgNext_ev | apply fireAtPort_ev | apply firePwm_ev
          | refine ev_ite ?_ ?_ | (refine ev_foldl ?_ ?_; rotate_left; intro _ _ _) | refine ev_fst (by assumption) ?_
          | refine ev_snd (by assumption) ?_)
      | (show sub _ _ = true; rfl) | (show List.contains _ _ = true; rfl)

theorem writeNext_ev (hF : sub [.regs, .queues, .readPorts, .svcStats, .jnl, .time] H = true) (h : Evolves H s0 s) (g : Nat) (t
    : Nat) : Evolves H s0 (writeNext g t s) := by
  refine ev_mono hF h ?_
  unfold writeNext
  repeat' first
      | (with_reducible first
          | exact ev_refl _ _ | assumption | apply recordError_ev | apply setTrgNext_ev | refine ev_ite ?_ ?_
          | refine ev_fst (by assumption) ?_ | refine ev_snd (by assumption) ?_)
      | (show sub _ _ = true; rfl) | (show List.contains _ _ = true; rfl) | dsimp only | split | (with_reducible apply ev_time)

theorem replaceNext_ev (hF : sub [.pins, .regs, .cfgB, .liveA, .ldr, .queues, .readPorts, .svcStats, .jnl, .rsv, .cams, .time,
    .pwms, .jmem, .out, .freeCount] H = true) (h : Evolves H s0 s) (g : Nat) (t : Nat) : Evolves H s0 (replaceNext g t s) := by
  refine ev_mono hF h ?_
  unfold replaceNext
  repeat' first
      | (with_reducible first
          | exact ev_refl _ _ | assumption | apply doTriggerFire_ev | apply writeNext_ev | refine ev_ite ?_ ?_
          | refine ev_fst (by assumption) ?_ | refine ev_snd (by assumption) ?_)
      | (show sub _ _ = true; rfl) | (show List.contains _ _ = true; rfl)

theorem svcTimeWrite_ev (hF : sub [.pins, .now, .regs, .cfgB, .liveA, .ldr, .queues, .readPorts, .svcStats, .jnl, .rsv, .cams,
    .time, .pwms, .jmem, .out, .freeCount] H = true) (h : Evolves H s0 s) (a : Nat) (v : Nat) : Evolves H s0 (svcTimeWrite a v
    s) := by
  refine ev_mono hF h ?_
  unfold svcTimeWrite
  repeat' first
      | (with_reducible first
          | exact ev_refl _ _ | assumption | apply wr_ev | apply doRateWrite_ev | apply doStep_ev | apply replaceNext_ev
          | refine ev_ite ?_ ?_ | (refine ev_foldl ?_ ?_; rotate_left; intro _ _ _) | refine ev_fst (by assumption) ?_
          | refine ev_snd (by assumption) ?_ | (refine ev_foldl_fst ?_ ?_; rotate_left; intro _ _ _ _)
          | (refine ev_foldl_snd ?_ ?_; rotate_left; intro _ _ _ _))
      | (show sub _ _ = true; rfl) | (show List.contains _ _ = true; rfl) | dsimp only | split
      | (with_reducible first | apply ev_time)

theorem judgeOffset_ev (hF : sub [.regs, .weaves, .fab, .time, .out] H = true) (h : Evolves H s0 s) (off : Int) : Evolves H s0
    (judgeOffset off s) := by
  refine ev_mono hF h ?_
  unfold judgeOffset
  repeat' first
      | (with_reducible first
          | exact ev_refl _ _ | assumption | apply enterSync_ev | apply dueExtra_ev | refine ev_ite ?_ ?_
          | refine ev_fst (by assumption) ?_ | refine ev_snd (by assumption) ?_)
      | (show sub _ _ = true; rfl) | (show List.contains _ _ = true; rfl) | dsimp only | split | (with_reducible apply ev_time)

theorem noteMaster_ev (hF : sub [.time] H = true) (h : Evolves H s0 s) (diff : Int) (at_ : Int) : Evolves H s0 (noteMaster diff
    at_ s) := by
  refine ev_mono hF h ?_
  unfold noteMaster
  repeat' first
      | (with_reducible first
          | exact ev_refl _ _ | assumption | refine ev_ite ?_ ?_ | refine ev_fst (by assumption) ?_
          | refine ev_snd (by assumption) ?_)
      | (show sub _ _ = true) | (show List.contains _ _ = true; rfl) | dsimp only | split | (with_reducible apply ev_time)

theorem doOffsetMeasurement_ev (hF : sub [.now, .regs, .weaves, .fab, .time, .out] H = true) (h : Evolves H s0 s)  : Evolves H
    s0 (doOffsetMeasurement s) := by
  refine ev_mono hF h ?_
  unfold doOffsetMeasurement
  repeat' first
      | (with_reducible first
          | exact ev_refl _ _ | assumption | apply wr_ev | apply enterSync_ev | apply stepBy_ev | apply judgeOffset_ev
          | apply noteMaster_ev | refine ev_ite ?_ ?_ | refine ev_fst (by assumption) ?_ | refine ev_snd (by assumption) ?_)
      | (show sub _ _ = true; rfl) | (show List.contains _ _ = true; rfl) | dsimp only | split | (with_reducible apply ev_time)

theorem loseSync_ev (hF : sub [.regs, .queues, .readPorts, .svcStats, .jnl, .weaves, .fab, .time, .out] H = true) (h : Evolves H
    s0 s)  : Evolves H s0 (loseSync s) := by
  refine ev_mono hF h ?_
  unfold loseSync
  repeat' first
      | (with_reducible first
          | exact ev_refl _ _ | assumption | apply recordError_ev | apply enterSync_ev | refine ev_ite ?_ ?_
          | refine ev_fst (by assumption) ?_ | refine ev_snd (by assumption) ?_)
      | (show sub _ _ = true; rfl) | (show List.contains _ _ = true; rfl)

theorem doSecondBoundary_ev (hF : sub [.regs, .time] H = true) (h : Evolves H s0 s)  : Evolves H s0 (doSecondBoundary s) := by
  refine ev_mono hF h ?_
  unfold doSecondBoundary
  repeat' first
      | (with_reducible first
          | exact ev_refl _ _ | assumption | apply wr_ev | refine ev_ite ?_ ?_ | refine ev_fst (by assumption) ?_
          | refine ev_snd (by assumption) ?_)
      | (show sub _ _ = true; rfl) | (show List.contains _ _ = true; rfl) | dsimp only | split | (with_reducible apply ev_time)

theorem doTimeNsRead_ev (hF : sub [.time, .out] H = true) (h : Evolves H s0 s) (o : Orig) : Evolves H s0 (doTimeNsRead o s) :=
    by
  refine ev_mono hF h ?_
  unfold doTimeNsRead
  repeat' first
      | (with_reducible first
          | exact ev_refl _ _ | assumption | apply emit_ev | apply latchHi_ev | refine ev_ite ?_ ?_
          | refine ev_fst (by assumption) ?_ | refine ev_snd (by assumption) ?_)
      | (show sub _ _ = true; rfl) | (show List.contains _ _ = true; rfl)

theorem doTriggerRealign_ev (hF : sub [.pins, .regs, .cfgB, .liveA, .ldr, .queues, .readPorts, .svcStats, .jnl, .rsv, .cams,
    .time, .pwms, .jmem, .out, .freeCount] H = true) (h : Evolves H s0 s) (g : Nat) : Evolves H s0 (doTriggerRealign g s) := by
  refine ev_mono hF h ?_
  unfold doTriggerRealign
  repeat' first
      | (with_reducible first
          | exact ev_refl _ _ | assumption | apply doTriggerFire_ev | apply writeNext_ev | refine ev_ite ?_ ?_
          | refine ev_fst (by assumption) ?_ | refine ev_snd (by assumption) ?_)
      | (show sub _ _ = true; rfl) | (show List.contains _ _ = true; rfl)

theorem execAnchorCommit_ev (hF : sub [.regs, .queues, .readPorts, .svcStats, .jnl, .time] H = true) (h : Evolves H s0 s) (e :
    execAnchorCommit s = .next sNext) : Evolves H s0 sNext := by
  refine ev_mono hF h ?_
  unfold execAnchorCommit at e
  cases e
  repeat' first
      | (with_reducible first
          | exact ev_refl _ _ | assumption | apply doAnchorCommit_ev | refine ev_ite ?_ ?_ | refine ev_fst (by assumption) ?_
          | refine ev_snd (by assumption) ?_)
      | (show sub _ _ = true; rfl) | (show List.contains _ _ = true; rfl)

theorem execOffsetMeasurement_ev (hF : sub [.now, .regs, .weaves, .fab, .time, .out] H = true) (h : Evolves H s0 s) (e :
    execOffsetMeasurement s = .next sNext) : Evolves H s0 sNext := by
  refine ev_mono hF h ?_
  unfold execOffsetMeasurement at e
  cases e
  repeat' first
      | (with_reducible first
          | exact ev_refl _ _ | assumption | apply doOffsetMeasurement_ev | refine ev_ite ?_ ?_
          | refine ev_fst (by assumption) ?_ | refine ev_snd (by assumption) ?_)
      | (show sub _ _ = true; rfl) | (show List.contains _ _ = true; rfl)

theorem execPpsNextWrite_ev (hF : sub [.regs] H = true) (h : Evolves H s0 s) (v : Nat) (e : execPpsNextWrite v s = .next sNext)
    : Evolves H s0 sNext := by
  refine ev_mono hF h ?_
  unfold execPpsNextWrite at e
  cases e
  repeat' first
      | (with_reducible first
          | exact ev_refl _ _ | assumption | apply wr_ev | refine ev_ite ?_ ?_
          | (refine ev_foldl ?_ ?_; rotate_left; intro _ _ _) | refine ev_fst (by assumption) ?_
          | refine ev_snd (by assumption) ?_ | (refine ev_foldl_fst ?_ ?_; rotate_left; intro _ _ _ _)
          | (refine ev_foldl_snd ?_ ?_; rotate_left; intro _ _ _ _))
      | (show sub _ _ = true; rfl) | (show List.contains _ _ = true; rfl) | dsimp only | split

theorem execRateWrite_ev (hF : sub [.regs] H = true) (h : Evolves H s0 s) (v : Nat) (e : execRateWrite v s = .next sNext) :
    Evolves H s0 sNext := by
  refine ev_mono hF h ?_
  unfold execRateWrite at e
  cases e
  repeat' first
      | (with_reducible first
          | exact ev_refl _ _ | assumption | apply doRateWrite_ev | refine ev_ite ?_ ?_ | refine ev_fst (by assumption) ?_
          | refine ev_snd (by assumption) ?_)
      | (show sub _ _ = true; rfl) | (show List.contains _ _ = true; rfl)

theorem execSecondBoundary_ev (hF : sub [.regs, .time] H = true) (h : Evolves H s0 s) (e : execSecondBoundary s = .next sNext) :
    Evolves H s0 sNext := by
  refine ev_mono hF h ?_
  unfold execSecondBoundary at e
  cases e
  repeat' first
      | (with_reducible first
          | exact ev_refl _ _ | assumption | apply doSecondBoundary_ev | refine ev_ite ?_ ?_ | refine ev_fst (by assumption) ?_
          | refine ev_snd (by assumption) ?_)
      | (show sub _ _ = true; rfl) | (show List.contains _ _ = true; rfl)

theorem execStep_ev (hF : sub [.now, .regs, .time] H = true) (h : Evolves H s0 s) (v : Nat) (e : execStep v s = .next sNext) :
    Evolves H s0 sNext := by
  refine ev_mono hF h ?_
  unfold execStep at e
  cases e
  repeat' first
      | (with_reducible first
          | exact ev_refl _ _ | assumption | apply doStep_ev | refine ev_ite ?_ ?_ | refine ev_fst (by assumption) ?_
          | refine ev_snd (by assumption) ?_)
      | (show sub _ _ = true; rfl) | (show List.contains _ _ = true; rfl)

theorem execSyncTimeout_ev (hF : sub [.regs, .queues, .readPorts, .svcStats, .jnl, .weaves, .fab, .time, .out] H = true) (h :
    Evolves H s0 s) (e : execSyncTimeout s = .next sNext) : Evolves H s0 sNext := by
  refine ev_mono hF h ?_
  unfold execSyncTimeout at e
  cases e
  repeat' first
      | (with_reducible first
          | exact ev_refl _ _ | assumption | apply loseSync_ev | refine ev_ite ?_ ?_ | refine ev_fst (by assumption) ?_
          | refine ev_snd (by assumption) ?_)
      | (show sub _ _ = true; rfl) | (show List.contains _ _ = true; rfl)

theorem execTimeNsRead_ev (hF : sub [.time, .out] H = true) (h : Evolves H s0 s) (o : Orig) (e : execTimeNsRead o s = .next
    sNext) : Evolves H s0 sNext := by
  refine ev_mono hF h ?_
  unfold execTimeNsRead at e
  cases e
  repeat' first
      | (with_reducible first
          | exact ev_refl _ _ | assumption | apply doTimeNsRead_ev | refine ev_ite ?_ ?_ | refine ev_fst (by assumption) ?_
          | refine ev_snd (by assumption) ?_)
      | (show sub _ _ = true; rfl) | (show List.contains _ _ = true; rfl)

theorem execTrgNextWrite_ev (hF : sub [.pins, .regs, .cfgB, .liveA, .ldr, .queues, .readPorts, .svcStats, .jnl, .rsv, .cams,
    .time, .pwms, .jmem, .out, .freeCount] H = true) (h : Evolves H s0 s) (g : Nat) (hi : Nat) (lo : Nat) (e : execTrgNextWrite
    g hi lo s = .next sNext) : Evolves H s0 sNext := by
  refine ev_mono hF h ?_
  unfold execTrgNextWrite at e
  cases e
  repeat' first
      | (with_reducible first
          | exact ev_refl _ _ | assumption | apply replaceNext_ev | refine ev_ite ?_ ?_ | refine ev_fst (by assumption) ?_
          | refine ev_snd (by assumption) ?_)
      | (show sub _ _ = true; rfl) | (show List.contains _ _ = true; rfl)

theorem execTriggerFire_ev (hF : sub [.pins, .regs, .cfgB, .liveA, .ldr, .queues, .readPorts, .svcStats, .jnl, .rsv, .cams,
    .time, .pwms, .jmem, .out, .freeCount] H = true) (h : Evolves H s0 s) (g : Nat) (e : execTriggerFire g s = .next sNext) :
    Evolves H s0 sNext := by
  refine ev_mono hF h ?_
  unfold execTriggerFire at e
  cases e
  repeat' first
      | (with_reducible first
          | exact ev_refl _ _ | assumption | apply doTriggerFire_ev | refine ev_ite ?_ ?_ | refine ev_fst (by assumption) ?_
          | refine ev_snd (by assumption) ?_)
      | (show sub _ _ = true; rfl) | (show List.contains _ _ = true; rfl)

theorem execTriggerRealign_ev (hF : sub [.pins, .regs, .cfgB, .liveA, .ldr, .queues, .readPorts, .svcStats, .jnl, .rsv, .cams,
    .time, .pwms, .jmem, .out, .freeCount] H = true) (h : Evolves H s0 s) (g : Nat) (e : execTriggerRealign g s = .next sNext) :
    Evolves H s0 sNext := by
  refine ev_mono hF h ?_
  unfold execTriggerRealign at e
  cases e
  repeat' first
      | (with_reducible first
          | exact ev_refl _ _ | assumption | apply doTriggerRealign_ev | refine ev_ite ?_ ?_ | refine ev_fst (by assumption) ?_
          | refine ev_snd (by assumption) ?_)
      | (show sub _ _ = true; rfl) | (show List.contains _ _ = true; rfl)

end Sys2Proof.Machine
end

