-- ==== Sys2Proof/Laws/EvEth.lean ====
section
/-! SUPPORT. What each function of Machine/Eth.lean changes: one lemma per function, its footprint first. -/

namespace Sys2Proof.Machine
open Sys2Proof

set_option linter.unusedTactic false
set_option linter.unreachableTactic false
set_option linter.unusedVariables false

variable {H : List StateField} {s0 s sNext : State}

theorem setEth_ev (hF : sub [.eths] H = true) (h : Evolves H s0 s) (p : Nat) (x : EthSt) : Evolves H s0 (setEth p x s) := by
  refine ev_mono hF h ?_
  unfold setEth
  repeat' first
      | (with_reducible first
          | exact ev_refl _ _ | assumption | refine ev_ite ?_ ?_ | refine ev_fst (by assumption) ?_
          | refine ev_snd (by assumption) ?_)
      | (show sub _ _ = true) | (show List.contains _ _ = true; rfl) | dsimp only | split | (with_reducible apply ev_eths)

theorem doEthFrameReceive_ev (hF : sub [.regs, .queues, .readPorts, .svcStats, .jnl] H = true) (h : Evolves H s0 s) (p : Nat)
    (len : Nat) (tags : Nat) (type : Nat) (dst : Nat) (bad : Bool) : Evolves H s0 (doEthFrameReceive p len tags type dst bad s)
    := by
  refine ev_mono hF h ?_
  unfold doEthFrameReceive
  repeat' first
      | (with_reducible first
          | exact ev_refl _ _ | assumption | apply inc_ev | apply recordError_ev | refine ev_ite ?_ ?_
          | refine ev_fst (by assumption) ?_ | refine ev_snd (by assumption) ?_)
      | (show sub _ _ = true; rfl) | (show List.contains _ _ = true; rfl)

theorem doFollowUp_ev (hF : sub [.time, .eths] H = true) (h : Evolves H s0 s) (p : Nat) (seq : Nat) (origin : Nat) (corr : Nat)
    (rate : Nat) (gm : List Nat) : Evolves H s0 (doFollowUp p seq origin corr rate gm s) := by
  refine ev_mono hF h ?_
  unfold doFollowUp
  repeat' first
      | (with_reducible first
          | exact ev_refl _ _ | assumption | apply setEth_ev | refine ev_ite ?_ ?_ | refine ev_fst (by assumption) ?_
          | refine ev_snd (by assumption) ?_)
      | (show sub _ _ = true; rfl) | (show List.contains _ _ = true; rfl) | dsimp only | split | (with_reducible apply ev_time)

theorem doPdelayReq_ev (hF : sub [.out] H = true) (h : Evolves H s0 s) (p : Nat) (seq : Nat) (rx : Nat) (tx : Nat) : Evolves H
    s0 (doPdelayReq p seq rx tx s) := by
  refine ev_mono hF h ?_
  unfold doPdelayReq
  repeat' first
      | (with_reducible first
          | exact ev_refl _ _ | assumption | apply emit_ev | refine ev_ite ?_ ?_ | refine ev_fst (by assumption) ?_
          | refine ev_snd (by assumption) ?_)
      | (show sub _ _ = true; rfl) | (show List.contains _ _ = true; rfl)

theorem pdelayFail_ev (hF : sub [.regs, .queues, .readPorts, .svcStats, .jnl, .weaves, .fab, .time, .eths, .out] H = true) (h :
    Evolves H s0 s) (p : Nat) : Evolves H s0 (pdelayFail p s) := by
  refine ev_mono hF h ?_
  unfold pdelayFail
  repeat' first
      | (with_reducible first
          | exact ev_refl _ _ | assumption | apply wr_ev | apply recordError_ev | apply setEth_ev | apply loseSync_ev
          | refine ev_ite ?_ ?_ | refine ev_fst (by assumption) ?_ | refine ev_snd (by assumption) ?_)
      | (show sub _ _ = true; rfl) | (show List.contains _ _ = true; rfl)

theorem doPdelayReqSend_ev (hF : sub [.regs, .queues, .readPorts, .svcStats, .jnl, .weaves, .fab, .time, .eths, .out] H = true)
    (h : Evolves H s0 s) (p : Nat) (stamp : Nat) : Evolves H s0 (doPdelayReqSend p stamp s) := by
  refine ev_mono hF h ?_
  unfold doPdelayReqSend
  repeat' first
      | (with_reducible first
          | exact ev_refl _ _ | assumption | apply emit_ev | apply setEth_ev | apply pdelayFail_ev | refine ev_ite ?_ ?_
          | refine ev_fst (by assumption) ?_ | refine ev_snd (by assumption) ?_)
      | (show sub _ _ = true; rfl) | (show List.contains _ _ = true; rfl)

theorem doPdelayResp_ev (hF : sub [.eths] H = true) (h : Evolves H s0 s) (p : Nat) (seq : Nat) (reqRx : Nat) (stamp : Nat) :
    Evolves H s0 (doPdelayResp p seq reqRx stamp s) := by
  refine ev_mono hF h ?_
  unfold doPdelayResp
  repeat' first
      | (with_reducible first
          | exact ev_refl _ _ | assumption | apply setEth_ev | refine ev_ite ?_ ?_ | refine ev_fst (by assumption) ?_
          | refine ev_snd (by assumption) ?_)
      | (show sub _ _ = true; rfl) | (show List.contains _ _ = true; rfl)

theorem doPdelayRespFollowUp_ev (hF : sub [.regs, .eths] H = true) (h : Evolves H s0 s) (p : Nat) (seq : Nat) (respTx : Nat) :
    Evolves H s0 (doPdelayRespFollowUp p seq respTx s) := by
  refine ev_mono hF h ?_
  unfold doPdelayRespFollowUp
  repeat' first
      | (with_reducible first
          | exact ev_refl _ _ | assumption | apply wr_ev | apply setEth_ev | refine ev_ite ?_ ?_
          | refine ev_fst (by assumption) ?_ | refine ev_snd (by assumption) ?_)
      | (show sub _ _ = true; rfl) | (show List.contains _ _ = true) | dsimp only | split

theorem doSync_ev (hF : sub [.eths] H = true) (h : Evolves H s0 s) (p : Nat) (seq : Nat) (stamp : Nat) : Evolves H s0 (doSync p
    seq stamp s) := by
  refine ev_mono hF h ?_
  unfold doSync
  repeat' first
      | (with_reducible first
          | exact ev_refl _ _ | assumption | apply setEth_ev | refine ev_ite ?_ ?_ | refine ev_fst (by assumption) ?_
          | refine ev_snd (by assumption) ?_)
      | (show sub _ _ = true; rfl) | (show List.contains _ _ = true; rfl)

theorem doSyncSend_ev (hF : sub [.eths, .out] H = true) (h : Evolves H s0 s) (p : Nat) (stamp : Nat) : Evolves H s0 (doSyncSend
    p stamp s) := by
  refine ev_mono hF h ?_
  unfold doSyncSend
  repeat' first
      | (with_reducible first
          | exact ev_refl _ _ | assumption | apply emit_ev | apply setEth_ev | refine ev_ite ?_ ?_
          | refine ev_fst (by assumption) ?_ | refine ev_snd (by assumption) ?_)
      | (show sub _ _ = true; rfl) | (show List.contains _ _ = true) | dsimp only | split

theorem execEthFrameReceive_ev (hF : sub [.regs, .queues, .readPorts, .svcStats, .jnl] H = true) (h : Evolves H s0 s) (p : Nat)
    (len : Nat) (tags : Nat) (type : Nat) (dst : Nat) (bad : Bool) (e : execEthFrameReceive p len tags type dst bad s = .next
    sNext) : Evolves H s0 sNext := by
  refine ev_mono hF h ?_
  unfold execEthFrameReceive at e
  cases e
  repeat' first
      | (with_reducible first
          | exact ev_refl _ _ | assumption | apply doEthFrameReceive_ev | refine ev_ite ?_ ?_ | refine ev_fst (by assumption) ?_
          | refine ev_snd (by assumption) ?_)
      | (show sub _ _ = true; rfl) | (show List.contains _ _ = true; rfl)

theorem execEthLinkDown_ev (hF : sub [.regs, .queues, .readPorts, .svcStats, .jnl] H = true) (h : Evolves H s0 s) (p : Nat) (e :
    execEthLinkDown p s = .next sNext) : Evolves H s0 sNext := by
  refine ev_mono hF h ?_
  unfold execEthLinkDown at e
  cases e
  repeat' first
      | (with_reducible first
          | exact ev_refl _ _ | assumption | apply wr_ev | apply recordError_ev | refine ev_ite ?_ ?_
          | refine ev_fst (by assumption) ?_ | refine ev_snd (by assumption) ?_)
      | (show sub _ _ = true; rfl) | (show List.contains _ _ = true; rfl)

theorem execEthLinkUp_ev (hF : sub [.regs] H = true) (h : Evolves H s0 s) (p : Nat) (e : execEthLinkUp p s = .next sNext) :
    Evolves H s0 sNext := by
  refine ev_mono hF h ?_
  unfold execEthLinkUp at e
  cases e
  repeat' first
      | (with_reducible first
          | exact ev_refl _ _ | assumption | apply wr_ev | refine ev_ite ?_ ?_ | refine ev_fst (by assumption) ?_
          | refine ev_snd (by assumption) ?_)
      | (show sub _ _ = true; rfl) | (show List.contains _ _ = true; rfl)

theorem execFollowUp_ev (hF : sub [.time, .eths] H = true) (h : Evolves H s0 s) (p : Nat) (domain : Nat) (seq : Nat) (origin :
    Nat) (corr : Nat) (rate : Nat) (gm : List Nat) (e : execFollowUp p domain seq origin corr rate gm s = .next sNext) : Evolves
    H s0 sNext := by
  refine ev_mono hF h ?_
  unfold execFollowUp at e
  cases e
  repeat' first
      | (with_reducible first
          | exact ev_refl _ _ | assumption | apply doFollowUp_ev | refine ev_ite ?_ ?_ | refine ev_fst (by assumption) ?_
          | refine ev_snd (by assumption) ?_)
      | (show sub _ _ = true; rfl) | (show List.contains _ _ = true; rfl)

theorem execPdelayReq_ev (hF : sub [.out] H = true) (h : Evolves H s0 s) (p : Nat) (domain : Nat) (seq : Nat) (rx : Nat) (tx :
    Nat) (e : execPdelayReq p domain seq rx tx s = .next sNext) : Evolves H s0 sNext := by
  refine ev_mono hF h ?_
  unfold execPdelayReq at e
  cases e
  repeat' first
      | (with_reducible first
          | exact ev_refl _ _ | assumption | apply doPdelayReq_ev | refine ev_ite ?_ ?_ | refine ev_fst (by assumption) ?_
          | refine ev_snd (by assumption) ?_)
      | (show sub _ _ = true; rfl) | (show List.contains _ _ = true; rfl)

theorem execPdelayReqSend_ev (hF : sub [.regs, .queues, .readPorts, .svcStats, .jnl, .weaves, .fab, .time, .eths, .out] H =
    true) (h : Evolves H s0 s) (p : Nat) (stamp : Nat) (e : execPdelayReqSend p stamp s = .next sNext) : Evolves H s0 sNext :=
    by
  refine ev_mono hF h ?_
  unfold execPdelayReqSend at e
  cases e
  repeat' first
      | (with_reducible first
          | exact ev_refl _ _ | assumption | apply doPdelayReqSend_ev | refine ev_ite ?_ ?_ | refine ev_fst (by assumption) ?_
          | refine ev_snd (by assumption) ?_)
      | (show sub _ _ = true; rfl) | (show List.contains _ _ = true; rfl)

theorem execPdelayResp_ev (hF : sub [.eths] H = true) (h : Evolves H s0 s) (p : Nat) (domain : Nat) (seq : Nat) (reqRx : Nat)
    (stamp : Nat) (e : execPdelayResp p domain seq reqRx stamp s = .next sNext) : Evolves H s0 sNext := by
  refine ev_mono hF h ?_
  unfold execPdelayResp at e
  cases e
  repeat' first
      | (with_reducible first
          | exact ev_refl _ _ | assumption | apply doPdelayResp_ev | refine ev_ite ?_ ?_ | refine ev_fst (by assumption) ?_
          | refine ev_snd (by assumption) ?_)
      | (show sub _ _ = true; rfl) | (show List.contains _ _ = true; rfl)

theorem execPdelayRespFollowUp_ev (hF : sub [.regs, .eths] H = true) (h : Evolves H s0 s) (p : Nat) (domain : Nat) (seq : Nat)
    (respTx : Nat) (e : execPdelayRespFollowUp p domain seq respTx s = .next sNext) : Evolves H s0 sNext := by
  refine ev_mono hF h ?_
  unfold execPdelayRespFollowUp at e
  cases e
  repeat' first
      | (with_reducible first
          | exact ev_refl _ _ | assumption | apply doPdelayRespFollowUp_ev | refine ev_ite ?_ ?_
          | refine ev_fst (by assumption) ?_ | refine ev_snd (by assumption) ?_)
      | (show sub _ _ = true; rfl) | (show List.contains _ _ = true; rfl)

theorem execSync_ev (hF : sub [.eths] H = true) (h : Evolves H s0 s) (p : Nat) (domain : Nat) (seq : Nat) (stamp : Nat) (e :
    execSync p domain seq stamp s = .next sNext) : Evolves H s0 sNext := by
  refine ev_mono hF h ?_
  unfold execSync at e
  cases e
  repeat' first
      | (with_reducible first
          | exact ev_refl _ _ | assumption | apply doSync_ev | refine ev_ite ?_ ?_ | refine ev_fst (by assumption) ?_
          | refine ev_snd (by assumption) ?_)
      | (show sub _ _ = true; rfl) | (show List.contains _ _ = true; rfl)

theorem execSyncSend_ev (hF : sub [.eths, .out] H = true) (h : Evolves H s0 s) (p : Nat) (stamp : Nat) (e : execSyncSend p stamp
    s = .next sNext) : Evolves H s0 sNext := by
  refine ev_mono hF h ?_
  unfold execSyncSend at e
  cases e
  repeat' first
      | (with_reducible first
          | exact ev_refl _ _ | assumption | apply doSyncSend_ev | refine ev_ite ?_ ?_ | refine ev_fst (by assumption) ?_
          | refine ev_snd (by assumption) ?_)
      | (show sub _ _ = true; rfl) | (show List.contains _ _ = true; rfl)

end Sys2Proof.Machine
end

