-- ==== Sys2Proof/Laws/EvBridge.lean ====
section
/-! SUPPORT. What each function of Machine/Bridge.lean changes: one lemma per function, its footprint first. -/

namespace Sys2Proof.Machine
open Sys2Proof

set_option linter.unusedTactic false
set_option linter.unreachableTactic false
set_option linter.unusedVariables false

variable {H : List StateField} {s0 s sNext : State}

theorem setPf_ev (hF : sub [.brg] H = true) (h : Evolves H s0 s) (o : Nat) (b : PfBuf) : Evolves H s0 (setPf o b s) := by
  refine ev_mono hF h ?_
  unfold setPf
  repeat' first
      | (with_reducible first
          | exact ev_refl _ _ | assumption | refine ev_ite ?_ ?_ | refine ev_fst (by assumption) ?_
          | refine ev_snd (by assumption) ?_)
      | (show sub _ _ = true) | (show List.contains _ _ = true; rfl) | dsimp only | split | (with_reducible apply ev_brg)

theorem discardPf_ev (hF : sub [.regs, .brg] H = true) (h : Evolves H s0 s) (o : Nat) : Evolves H s0 (discardPf o s) := by
  refine ev_mono hF h ?_
  unfold discardPf
  repeat' first
      | (with_reducible first
          | exact ev_refl _ _ | assumption | apply wr_ev | apply inc_ev | apply setPf_ev | refine ev_ite ?_ ?_
          | refine ev_fst (by assumption) ?_ | refine ev_snd (by assumption) ?_)
      | (show sub _ _ = true; rfl) | (show List.contains _ _ = true; rfl)

theorem sendRsp_ev (hF : sub [.regs, .weaves, .out] H = true) (h : Evolves H s0 s) (dst : Nat) (tag : Nat) (block : Nat) (status
    : Nat) (half : Nat) (data : List Nat) : Evolves H s0 (sendRsp dst tag block status half data s) := by
  refine ev_mono hF h ?_
  unfold sendRsp
  repeat' first
      | (with_reducible first
          | exact ev_refl _ _ | assumption | apply sendBlock_ev | refine ev_ite ?_ ?_ | refine ev_fst (by assumption) ?_
          | refine ev_snd (by assumption) ?_)
      | (show sub _ _ = true; rfl) | (show List.contains _ _ = true) | dsimp only | split

theorem sendHalves_ev (hF : sub [.regs, .weaves, .out] H = true) (h : Evolves H s0 s) (dst : Nat) (tag : Nat) (addr : Nat)
    (halves : Nat) (block : List Nat) : Evolves H s0 (sendHalves dst tag addr halves block s) := by
  refine ev_mono hF h ?_
  unfold sendHalves
  repeat' first
      | (with_reducible first
          | exact ev_refl _ _ | assumption | apply each_ev | apply sendRsp_ev | refine ev_ite ?_ ?_
          | refine ev_fst (by assumption) ?_ | refine ev_snd (by assumption) ?_ | intro _ _ _ | intro _ _)
      | (show sub _ _ = true; rfl) | (show List.contains _ _ = true; rfl)

theorem answerRead_ev (hF : sub [.regs, .weaves, .out] H = true) (h : Evolves H s0 s) (x : BrgAcc) (bytes : List Nat) : Evolves
    H s0 (answerRead x bytes s) := by
  refine ev_mono hF h ?_
  unfold answerRead
  repeat' first
      | (with_reducible first
          | exact ev_refl _ _ | assumption | apply emit_ev | apply sendHalves_ev | refine ev_ite ?_ ?_
          | refine ev_fst (by assumption) ?_ | refine ev_snd (by assumption) ?_)
      | (show sub _ _ = true; rfl) | (show List.contains _ _ = true; rfl)

theorem failAcc_ev (hF : sub [.regs, .queues, .readPorts, .svcStats, .jnl, .weaves, .out] H = true) (h : Evolves H s0 s) (x :
    BrgAcc) (cause : Nat) : Evolves H s0 (failAcc x cause s) := by
  refine ev_mono hF h ?_
  unfold failAcc
  repeat' first
      | (with_reducible first
          | exact ev_refl _ _ | assumption | apply inc_ev | apply recordError_ev | apply sendRsp_ev | apply answerRead_ev
          | refine ev_ite ?_ ?_ | refine ev_fst (by assumption) ?_ | refine ev_snd (by assumption) ?_)
      | (show sub _ _ = true; rfl) | (show List.contains _ _ = true; rfl)

theorem bridgeAccess_ev (hF : sub [.regs, .queues, .readPorts, .svcStats, .jnl, .weaves, .brg, .out] H = true) (h : Evolves H s0
    s) (o : Orig) (code : Nat) (w : Nat) (addr : Nat) (write : Bool) (be : List Bool) (data : List Nat) (rtag : Nat) : Evolves H
    s0 (bridgeAccess o code w addr write be data rtag s) := by
  refine ev_mono hF h ?_
  unfold bridgeAccess
  repeat' first
      | (with_reducible first
          | exact ev_refl _ _ | assumption | apply wr_ev | apply inc_ev | apply sendRsp_ev | apply failAcc_ev
          | refine ev_ite ?_ ?_ | refine ev_fst (by assumption) ?_ | refine ev_snd (by assumption) ?_)
      | (show sub _ _ = true; rfl) | (show List.contains _ _ = true; rfl) | dsimp only | split | (with_reducible apply ev_brg)

theorem endHold_ev (hF : sub [.regs, .brg] H = true) (h : Evolves H s0 s) (w : Nat) (how : Nat) : Evolves H s0 (endHold w how s)
    := by
  refine ev_mono hF h ?_
  unfold endHold
  repeat' first
      | (with_reducible first
          | exact ev_refl _ _ | assumption | apply wr_ev | refine ev_ite ?_ ?_ | refine ev_fst (by assumption) ?_
          | refine ev_snd (by assumption) ?_)
      | (show sub _ _ = true; rfl) | (show List.contains _ _ = true; rfl) | dsimp only | split | (with_reducible apply ev_brg)

theorem doSemaphoreRelease_ev (hF : sub [.regs, .brg] H = true) (h : Evolves H s0 s) (o : Orig) (w : Nat) : Evolves H s0
    (doSemaphoreRelease o w s) := by
  refine ev_mono hF h ?_
  unfold doSemaphoreRelease
  repeat' first
      | (with_reducible first
          | exact ev_refl _ _ | assumption | apply endHold_ev | refine ev_ite ?_ ?_ | refine ev_fst (by assumption) ?_
          | refine ev_snd (by assumption) ?_)
      | (show sub _ _ = true; rfl) | (show List.contains _ _ = true) | dsimp only | split

theorem discardPfWindow_ev (hF : sub [.regs, .brg] H = true) (h : Evolves H s0 s) (w : Nat) : Evolves H s0 (discardPfWindow w s)
    := by
  refine ev_mono hF h ?_
  unfold discardPfWindow
  repeat' first
      | (with_reducible first
          | exact ev_refl _ _ | assumption | apply each_ev | apply discardPf_ev | refine ev_ite ?_ ?_
          | refine ev_fst (by assumption) ?_ | refine ev_snd (by assumption) ?_ | intro _ _ _ | intro _ _)
      | (show sub _ _ = true; rfl) | (show List.contains _ _ = true; rfl)

theorem startLease_ev (hF : sub [.brg] H = true) (h : Evolves H s0 s) (w : Nat) : Evolves H s0 (startLease w s) := by
  refine ev_mono hF h ?_
  unfold startLease
  repeat' first
      | (with_reducible first
          | exact ev_refl _ _ | assumption | refine ev_ite ?_ ?_ | refine ev_fst (by assumption) ?_
          | refine ev_snd (by assumption) ?_)
      | (show sub _ _ = true) | (show List.contains _ _ = true; rfl) | dsimp only | split | (with_reducible apply ev_brg)

theorem doTake_ev (hF : sub [.regs, .brg] H = true) (h : Evolves H s0 s) (o : Orig) (w : Nat) : Evolves H s0 (doTake o w s) :=
    by
  refine ev_mono hF h ?_
  unfold doTake
  repeat' first
      | (with_reducible first
          | exact ev_refl _ _ | assumption | apply wr_ev | apply discardPfWindow_ev | apply startLease_ev | refine ev_ite ?_ ?_
          | refine ev_fst (by assumption) ?_ | refine ev_snd (by assumption) ?_)
      | (show sub _ _ = true; rfl) | (show List.contains _ _ = true) | dsimp only | split

theorem dropAcc_ev (hF : sub [.brg] H = true) (h : Evolves H s0 s) (x : BrgAcc) : Evolves H s0 (dropAcc x s) := by
  refine ev_mono hF h ?_
  unfold dropAcc
  repeat' first
      | (with_reducible first
          | exact ev_refl _ _ | assumption | refine ev_ite ?_ ?_ | refine ev_fst (by assumption) ?_
          | refine ev_snd (by assumption) ?_)
      | (show sub _ _ = true) | (show List.contains _ _ = true; rfl) | dsimp only | split | (with_reducible apply ev_brg)

theorem closeAcc_ev (hF : sub [.brg] H = true) (h : Evolves H s0 s) (x : BrgAcc) : Evolves H s0 (closeAcc x s) := by
  refine ev_mono hF h ?_
  unfold closeAcc
  repeat' first
      | (with_reducible first
          | exact ev_refl _ _ | assumption | apply startLease_ev | apply dropAcc_ev | refine ev_ite ?_ ?_
          | refine ev_fst (by assumption) ?_ | refine ev_snd (by assumption) ?_)
      | (show sub _ _ = true; rfl) | (show List.contains _ _ = true; rfl)

theorem failHeld_ev (hF : sub [.regs, .queues, .readPorts, .svcStats, .jnl, .weaves, .brg, .out] H = true) (h : Evolves H s0 s)
    (x : BrgAcc) (cause : Nat) : Evolves H s0 (failHeld x cause s) := by
  refine ev_mono hF h ?_
  unfold failHeld
  repeat' first
      | (with_reducible first
          | exact ev_refl _ _ | assumption | apply failAcc_ev | apply closeAcc_ev | refine ev_ite ?_ ?_
          | refine ev_fst (by assumption) ?_ | refine ev_snd (by assumption) ?_)
      | (show sub _ _ = true; rfl) | (show List.contains _ _ = true; rfl)

theorem finishRead_ev (hF : sub [.regs, .weaves, .brg, .out] H = true) (h : Evolves H s0 s) (x : BrgAcc) (bytes : List Nat) :
    Evolves H s0 (finishRead x bytes s) := by
  refine ev_mono hF h ?_
  unfold finishRead
  repeat' first
      | (with_reducible first
          | exact ev_refl _ _ | assumption | apply answerRead_ev | apply closeAcc_ev | refine ev_ite ?_ ?_
          | refine ev_fst (by assumption) ?_ | refine ev_snd (by assumption) ?_)
      | (show sub _ _ = true; rfl) | (show List.contains _ _ = true; rfl)

theorem finishWrite_ev (hF : sub [.regs, .weaves, .brg, .out] H = true) (h : Evolves H s0 s) (x : BrgAcc) : Evolves H s0
    (finishWrite x s) := by
  refine ev_mono hF h ?_
  unfold finishWrite
  repeat' first
      | (with_reducible first
          | exact ev_refl _ _ | assumption | apply sendRsp_ev | apply closeAcc_ev | refine ev_ite ?_ ?_
          | refine ev_fst (by assumption) ?_ | refine ev_snd (by assumption) ?_)
      | (show sub _ _ = true; rfl) | (show List.contains _ _ = true; rfl)

theorem keepBlock_ev (hF : sub [.brg] H = true) (h : Evolves H s0 s) (x : BrgAcc) (a : Nat) (bytes : List Nat) : Evolves H s0
    (keepBlock x a bytes s) := by
  refine ev_mono hF h ?_
  unfold keepBlock
  repeat' first
      | (with_reducible first
          | exact ev_refl _ _ | assumption | apply setPf_ev | refine ev_ite ?_ ?_ | refine ev_fst (by assumption) ?_
          | refine ev_snd (by assumption) ?_)
      | (show sub _ _ = true; rfl) | (show List.contains _ _ = true; rfl)

theorem putAcc_ev (hF : sub [.brg] H = true) (h : Evolves H s0 s) (x : BrgAcc) : Evolves H s0 (putAcc x s) := by
  refine ev_mono hF h ?_
  unfold putAcc
  repeat' first
      | (with_reducible first
          | exact ev_refl _ _ | assumption | refine ev_ite ?_ ?_ | refine ev_fst (by assumption) ?_
          | refine ev_snd (by assumption) ?_)
      | (show sub _ _ = true) | (show List.contains _ _ = true; rfl) | dsimp only | split | (with_reducible apply ev_brg)

theorem bridgeRsp_ev (hF : sub [.regs, .queues, .readPorts, .svcStats, .jnl, .weaves, .brg, .out] H = true) (h : Evolves H s0 s)
    (src : Nat) (tag : Nat) (status : Nat) (half : Nat) (data : List Nat) : Evolves H s0 (bridgeRsp src tag status half data s)
    := by
  refine ev_mono hF h ?_
  unfold bridgeRsp
  repeat' first
      | (with_reducible first
          | exact ev_refl _ _ | assumption | apply inc_ev | apply failHeld_ev | apply finishRead_ev | apply finishWrite_ev
          | apply keepBlock_ev | apply putAcc_ev | refine ev_ite ?_ ?_ | refine ev_fst (by assumption) ?_
          | refine ev_snd (by assumption) ?_)
      | (show sub _ _ = true; rfl) | (show List.contains _ _ = true) | dsimp only | split

theorem sensorData_ev (hF : sub [.regs, .weaves, .brg, .out] H = true) (h : Evolves H s0 s) (x : BrgAcc) (data : List Nat) :
    Evolves H s0 (sensorData x data s) := by
  refine ev_mono hF h ?_
  unfold sensorData
  repeat' first
      | (with_reducible first
          | exact ev_refl _ _ | assumption | apply finishRead_ev | apply keepBlock_ev | refine ev_ite ?_ ?_
          | refine ev_fst (by assumption) ?_ | refine ev_snd (by assumption) ?_)
      | (show sub _ _ = true; rfl) | (show List.contains _ _ = true) | dsimp only | split

theorem writeOn_ev (hF : sub [.regs, .twbs, .weaves, .brg, .out] H = true) (h : Evolves H s0 s) (x : BrgAcc) : Evolves H s0
    (writeOn x s) := by
  refine ev_mono hF h ?_
  unfold writeOn
  repeat' first
      | (with_reducible first
          | exact ev_refl _ _ | assumption | apply finishWrite_ev | apply putAcc_ev | apply queueTxn_ev | refine ev_ite ?_ ?_
          | refine ev_fst (by assumption) ?_ | refine ev_snd (by assumption) ?_)
      | (show sub _ _ = true; rfl) | (show List.contains _ _ = true) | dsimp only | split

theorem bridgeTxnDone_ev (hF : sub [.regs, .queues, .readPorts, .svcStats, .jnl, .twbs, .weaves, .brg, .out] H = true) (h :
    Evolves H s0 s) (tag : Nat) (cause : Nat) (data : List Nat) : Evolves H s0 (bridgeTxnDone tag cause data s) := by
  refine ev_mono hF h ?_
  unfold bridgeTxnDone
  repeat' first
      | (with_reducible first
          | exact ev_refl _ _ | assumption | apply closeAcc_ev | apply failHeld_ev | apply sensorData_ev | apply writeOn_ev
          | refine ev_ite ?_ ?_ | refine ev_fst (by assumption) ?_ | refine ev_snd (by assumption) ?_)
      | (show sub _ _ = true; rfl) | (show List.contains _ _ = true) | dsimp only | split

theorem doBridgeReadTimeout_ev (hF : sub [.regs, .queues, .readPorts, .svcStats, .jnl, .twbs, .weaves, .brg, .out] H = true) (h
    : Evolves H s0 s) (tag : Nat) : Evolves H s0 (doBridgeReadTimeout tag s) := by
  refine ev_mono hF h ?_
  unfold doBridgeReadTimeout
  repeat' first
      | (with_reducible first
          | exact ev_refl _ _ | assumption | apply failAcc_ev | apply failHeld_ev | apply putAcc_ev | apply setTwb_ev
          | refine ev_ite ?_ ?_ | refine ev_fst (by assumption) ?_ | refine ev_snd (by assumption) ?_)
      | (show sub _ _ = true; rfl) | (show List.contains _ _ = true) | dsimp only | split

theorem doCompatWriteTimeout_ev (hF : sub [.regs, .queues, .readPorts, .svcStats, .jnl, .weaves, .brg, .out] H = true) (h :
    Evolves H s0 s) (tag : Nat) : Evolves H s0 (doCompatWriteTimeout tag s) := by
  refine ev_mono hF h ?_
  unfold doCompatWriteTimeout
  repeat' first
      | (with_reducible first
          | exact ev_refl _ _ | assumption | apply failHeld_ev | refine ev_ite ?_ ?_ | refine ev_fst (by assumption) ?_
          | refine ev_snd (by assumption) ?_)
      | (show sub _ _ = true; rfl) | (show List.contains _ _ = true) | dsimp only | split

theorem doLeaseExpire_ev (hF : sub [.regs, .brg] H = true) (h : Evolves H s0 s) (w : Nat) : Evolves H s0 (doLeaseExpire w s) :=
    by
  refine ev_mono hF h ?_
  unfold doLeaseExpire
  repeat' first
      | (with_reducible first
          | exact ev_refl _ _ | assumption | apply wr_ev | apply endHold_ev | refine ev_ite ?_ ?_
          | refine ev_fst (by assumption) ?_ | refine ev_snd (by assumption) ?_)
      | (show sub _ _ = true; rfl) | (show List.contains _ _ = true; rfl)

theorem pfOutside_ev (hF : sub [.regs, .brg] H = true) (h : Evolves H s0 s) (o : Nat) (addr : Nat) : Evolves H s0 (pfOutside o
    addr s) := by
  refine ev_mono hF h ?_
  unfold pfOutside
  repeat' first
      | (with_reducible first
          | exact ev_refl _ _ | assumption | apply discardPf_ev | refine ev_ite ?_ ?_ | refine ev_fst (by assumption) ?_
          | refine ev_snd (by assumption) ?_)
      | (show sub _ _ = true; rfl) | (show List.contains _ _ = true; rfl)

theorem sendReq_ev (hF : sub [.regs, .queues, .readPorts, .svcStats, .jnl, .weaves, .brg, .out] H = true) (h : Evolves H s0 s)
    (x : BrgAcc) : Evolves H s0 (sendReq x s) := by
  refine ev_mono hF h ?_
  unfold sendReq
  repeat' first
      | (with_reducible first
          | exact ev_refl _ _ | assumption | apply sendBlock_ev | apply each_ev | apply failHeld_ev | apply finishRead_ev
          | apply finishWrite_ev | apply putAcc_ev | refine ev_ite ?_ ?_ | refine ev_fst (by assumption) ?_
          | refine ev_snd (by assumption) ?_ | intro _ _ _ | intro _ _)
      | (show sub _ _ = true; rfl) | (show List.contains _ _ = true) | dsimp only | split

theorem servePf_ev (hF : sub [.regs, .weaves, .brg, .out] H = true) (h : Evolves H s0 s) (x : BrgAcc) : Evolves H s0 (servePf x
    s) := by
  refine ev_mono hF h ?_
  unfold servePf
  repeat' first
      | (with_reducible first
          | exact ev_refl _ _ | assumption | apply inc_ev | apply setPf_ev | apply finishRead_ev | refine ev_ite ?_ ?_
          | refine ev_fst (by assumption) ?_ | refine ev_snd (by assumption) ?_)
      | (show sub _ _ = true; rfl) | (show List.contains _ _ = true; rfl)

theorem doRemoteWindowAccess_ev (hF : sub [.regs, .queues, .readPorts, .svcStats, .jnl, .weaves, .brg, .out] H = true) (h :
    Evolves H s0 s) (f : Nat) : Evolves H s0 (doRemoteWindowAccess f s) := by
  refine ev_mono hF h ?_
  unfold doRemoteWindowAccess
  repeat' first
      | (with_reducible first
          | exact ev_refl _ _ | assumption | apply discardPfWindow_ev | apply pfOutside_ev | apply sendReq_ev | apply servePf_ev
          | refine ev_ite ?_ ?_ | refine ev_fst (by assumption) ?_ | refine ev_snd (by assumption) ?_)
      | (show sub _ _ = true; rfl) | (show List.contains _ _ = true) | dsimp only | split

theorem doRetryReissue_ev (hF : sub [.regs, .queues, .readPorts, .svcStats, .jnl, .weaves, .brg, .out] H = true) (h : Evolves H
    s0 s) (tag : Nat) : Evolves H s0 (doRetryReissue tag s) := by
  refine ev_mono hF h ?_
  unfold doRetryReissue
  repeat' first
      | (with_reducible first
          | exact ev_refl _ _ | assumption | apply sendReq_ev | refine ev_ite ?_ ?_ | refine ev_fst (by assumption) ?_
          | refine ev_snd (by assumption) ?_)
      | (show sub _ _ = true; rfl) | (show List.contains _ _ = true) | dsimp only | split

theorem readOn_ev (hF : sub [.regs, .twbs, .weaves, .brg, .out] H = true) (h : Evolves H s0 s) (x : BrgAcc) : Evolves H s0
    (readOn x s) := by
  refine ev_mono hF h ?_
  unfold readOn
  repeat' first
      | (with_reducible first
          | exact ev_refl _ _ | assumption | apply finishRead_ev | apply putAcc_ev | apply queueTxn_ev | refine ev_ite ?_ ?_
          | refine ev_fst (by assumption) ?_ | refine ev_snd (by assumption) ?_)
      | (show sub _ _ = true; rfl) | (show List.contains _ _ = true; rfl)

theorem doSensorWindowRead_ev (hF : sub [.regs, .queues, .readPorts, .svcStats, .jnl, .twbs, .weaves, .brg, .out] H = true) (h :
    Evolves H s0 s) (p : Nat) : Evolves H s0 (doSensorWindowRead p s) := by
  refine ev_mono hF h ?_
  unfold doSensorWindowRead
  repeat' first
      | (with_reducible first
          | exact ev_refl _ _ | assumption | apply failHeld_ev | apply pfOutside_ev | apply servePf_ev | apply readOn_ev
          | refine ev_ite ?_ ?_ | refine ev_fst (by assumption) ?_ | refine ev_snd (by assumption) ?_)
      | (show sub _ _ = true; rfl) | (show List.contains _ _ = true) | dsimp only | split

theorem doSensorWindowWrite_ev (hF : sub [.regs, .queues, .readPorts, .svcStats, .jnl, .twbs, .weaves, .brg, .out] H = true) (h
    : Evolves H s0 s) (p : Nat) : Evolves H s0 (doSensorWindowWrite p s) := by
  refine ev_mono hF h ?_
  unfold doSensorWindowWrite
  repeat' first
      | (with_reducible first
          | exact ev_refl _ _ | assumption | apply discardPfWindow_ev | apply failHeld_ev | apply writeOn_ev
          | refine ev_ite ?_ ?_ | refine ev_fst (by assumption) ?_ | refine ev_snd (by assumption) ?_)
      | (show sub _ _ = true; rfl) | (show List.contains _ _ = true) | dsimp only | split

theorem execCompatWriteTimeout_ev (hF : sub [.regs, .queues, .readPorts, .svcStats, .jnl, .weaves, .brg, .out] H = true) (h :
    Evolves H s0 s) (tag : Nat) (e : execCompatWriteTimeout tag s = .next sNext) : Evolves H s0 sNext := by
  refine ev_mono hF h ?_
  unfold execCompatWriteTimeout at e
  cases e
  repeat' first
      | (with_reducible first
          | exact ev_refl _ _ | assumption | apply doCompatWriteTimeout_ev | refine ev_ite ?_ ?_
          | refine ev_fst (by assumption) ?_ | refine ev_snd (by assumption) ?_)
      | (show sub _ _ = true; rfl) | (show List.contains _ _ = true; rfl)

theorem execLeaseExpire_ev (hF : sub [.regs, .brg] H = true) (h : Evolves H s0 s) (w : Nat) (e : execLeaseExpire w s = .next
    sNext) : Evolves H s0 sNext := by
  refine ev_mono hF h ?_
  unfold execLeaseExpire at e
  cases e
  repeat' first
      | (with_reducible first
          | exact ev_refl _ _ | assumption | apply doLeaseExpire_ev | refine ev_ite ?_ ?_ | refine ev_fst (by assumption) ?_
          | refine ev_snd (by assumption) ?_)
      | (show sub _ _ = true; rfl) | (show List.contains _ _ = true; rfl)

theorem execPrefetchAgeExpire_ev (hF : sub [.regs, .brg] H = true) (h : Evolves H s0 s) (o : Orig) (e : execPrefetchAgeExpire o
    s = .next sNext) : Evolves H s0 sNext := by
  refine ev_mono hF h ?_
  unfold execPrefetchAgeExpire at e
  cases e
  repeat' first
      | (with_reducible first
          | exact ev_refl _ _ | assumption | apply discardPf_ev | refine ev_ite ?_ ?_ | refine ev_fst (by assumption) ?_
          | refine ev_snd (by assumption) ?_)
      | (show sub _ _ = true; rfl) | (show List.contains _ _ = true) | dsimp only | split

theorem execSemaphoreRelease_ev (hF : sub [.regs, .brg] H = true) (h : Evolves H s0 s) (o : Orig) (w : Nat) (e :
    execSemaphoreRelease o w s = .next sNext) : Evolves H s0 sNext := by
  refine ev_mono hF h ?_
  unfold execSemaphoreRelease at e
  cases e
  repeat' first
      | (with_reducible first
          | exact ev_refl _ _ | assumption | apply doSemaphoreRelease_ev | refine ev_ite ?_ ?_
          | refine ev_fst (by assumption) ?_ | refine ev_snd (by assumption) ?_)
      | (show sub _ _ = true; rfl) | (show List.contains _ _ = true; rfl)

theorem execSensorWindowWrite_ev (hF : sub [.regs, .queues, .readPorts, .svcStats, .jnl, .twbs, .weaves, .brg, .out] H = true)
    (h : Evolves H s0 s) (p : Nat) (e : execSensorWindowWrite p s = .next sNext) : Evolves H s0 sNext := by
  refine ev_mono hF h ?_
  unfold execSensorWindowWrite at e
  cases e
  repeat' first
      | (with_reducible first
          | exact ev_refl _ _ | assumption | apply doSensorWindowWrite_ev | refine ev_ite ?_ ?_
          | refine ev_fst (by assumption) ?_ | refine ev_snd (by assumption) ?_)
      | (show sub _ _ = true; rfl) | (show List.contains _ _ = true; rfl)

theorem execTake_ev (hF : sub [.regs, .brg] H = true) (h : Evolves H s0 s) (o : Orig) (w : Nat) (e : execTake o w s = .next
    sNext) : Evolves H s0 sNext := by
  refine ev_mono hF h ?_
  unfold execTake at e
  cases e
  repeat' first
      | (with_reducible first
          | exact ev_refl _ _ | assumption | apply doTake_ev | refine ev_ite ?_ ?_ | refine ev_fst (by assumption) ?_
          | refine ev_snd (by assumption) ?_)
      | (show sub _ _ = true; rfl) | (show List.contains _ _ = true; rfl)

end Sys2Proof.Machine
end

