-- ==== Sys2Proof/Laws/EvCamera.lean ====
section
/-! SUPPORT. What each function of Machine/Camera.lean changes: one lemma per function, its footprint first. -/

namespace Sys2Proof.Machine
open Sys2Proof

set_option linter.unusedTactic false
set_option linter.unreachableTactic false
set_option linter.unusedVariables false

variable {H : List StateField} {s0 s sNext : State}

theorem applyRange_ev (hF : sub [.cfgX] H = true) (h : Evolves H s0 s) (b : Sparse Word) (lo hi : Nat)
    (hl : lo ≤ hi) (hb : s.Canonical → swf (regReset s.chip) b = true) : Evolves H s0 (applyRange b lo hi s) := by
  refine ev_mono hF h ?_
  unfold applyRange
  exact ev_cfgX rfl (ev_refl _ _) fun c => swf_splice _ _ _ _ _ hl c.cfgX (hb c)

theorem unlock_ev (hF : sub [.regs, .cams] H = true) (h : Evolves H s0 s) (p : Nat) : Evolves H s0 (unlock p s) := by
  refine ev_mono hF h ?_
  unfold unlock
  repeat' first
      | (with_reducible first
          | exact ev_refl _ _ | assumption | apply wr_ev | apply setCam_ev | refine ev_ite ?_ ?_
          | refine ev_fst (by assumption) ?_ | refine ev_snd (by assumption) ?_)
      | (show sub _ _ = true; rfl) | (show List.contains _ _ = true; rfl)

theorem retrain_ev (hF : sub [.regs, .queues, .readPorts, .svcStats, .jnl, .cams, .frames] H = true) (h : Evolves H s0 s) (p :
    Nat) : Evolves H s0 (retrain p s) := by
  refine ev_mono hF h ?_
  unfold retrain
  repeat' first
      | (with_reducible first
          | exact ev_refl _ _ | assumption | apply setState_ev | apply setCam_ev | apply enterBringup_ev | apply closeAll_ev
          | apply dropScript_ev | apply unlock_ev | refine ev_ite ?_ ?_ | refine ev_fst (by assumption) ?_
          | refine ev_snd (by assumption) ?_)
      | (show sub _ _ = true; rfl) | (show List.contains _ _ = true; rfl)

theorem applyPort_ev (hF : sub [.pins, .regs, .cfgX, .queues, .readPorts, .svcStats, .jnl, .cams, .frames, .pwrs, .out] H =
    true) (h : Evolves H s0 s) (p : Nat) : Evolves H s0 (applyPort p s) := by
  refine ev_mono hF h ?_
  unfold applyPort
  repeat' first
      | (with_reducible first
          | exact ev_refl _ _ | assumption | apply applyRange_ev | apply beginPort_ev | apply enterRecover_ev | apply retrain_ev
          | apply stopPort_ev | refine ev_ite ?_ ?_ | refine ev_fst (by assumption) ?_ | refine ev_snd (by assumption) ?_)
      | (with_reducible first
          | exact Nat.le_add_right _ _ | exact le_rfl
          | (refine fun (c : State.Canonical _) => ?_; repeat' first | exact c.regs | exact c.cfgB | exact c.cfgA | exact c.cfgX | exact ⟨c.profSets, c.baseSet⟩ | exact ⟨profSets_sset c.profSets _ c.cfgB, c.baseSet⟩ | exact ⟨c.profSets, c.cfgB⟩ | exact ⟨List.forall_mem_nil _, rfl⟩ | exact swf_nil _ | exact swf_freshBank_of rfl | exact swf_profSet c _ | exact swf_setOfProfile c _ | exact swf_bankOf c _ | (apply swf_splice; exact Nat.le_add_right _ _)))
      | (show sub _ _ = true; rfl) | (show List.contains _ _ = true; rfl)

theorem countCrc_ev (hF : sub [.regs, .queues, .readPorts, .svcStats, .jnl] H = true) (h : Evolves H s0 s) (p : Nat) (vc : Nat)
    (dt : Nat) (ctx : Nat) (pf : PktFlags) : Evolves H s0 (countCrc p vc dt ctx pf s) := by
  refine ev_mono hF h ?_
  unfold countCrc
  repeat' first
      | (with_reducible first
          | exact ev_refl _ _ | assumption | apply inc_ev | apply recordError_ev | refine ev_ite ?_ ?_
          | refine ev_fst (by assumption) ?_ | refine ev_snd (by assumption) ?_)
      | (show sub _ _ = true; rfl) | (show List.contains _ _ = true; rfl)

theorem countRtx_ev (hF : sub [.regs] H = true) (h : Evolves H s0 s) (p : Nat) (f : PktFlags) : Evolves H s0 (countRtx p f s) :=
    by
  refine ev_mono hF h ?_
  unfold countRtx
  repeat' first
      | (with_reducible first
          | exact ev_refl _ _ | assumption | apply inc_ev | refine ev_ite ?_ ?_ | refine ev_fst (by assumption) ?_
          | refine ev_snd (by assumption) ?_)
      | (show sub _ _ = true; rfl) | (show List.contains _ _ = true; rfl)

theorem countUnpack_ev (hF : sub [.regs, .queues, .readPorts, .svcStats, .jnl] H = true) (h : Evolves H s0 s) (p : Nat) (vc :
    Nat) (dt : Nat) (ctx : Nat) (pf : PktFlags) : Evolves H s0 (countUnpack p vc dt ctx pf s) := by
  refine ev_mono hF h ?_
  unfold countUnpack
  repeat' first
      | (with_reducible first
          | exact ev_refl _ _ | assumption | apply inc_ev | apply recordError_ev | refine ev_ite ?_ ?_
          | refine ev_fst (by assumption) ?_ | refine ev_snd (by assumption) ?_)
      | (show sub _ _ = true; rfl) | (show List.contains _ _ = true; rfl)

theorem doBackoffExpired_ev (hF : sub [.regs, .cams] H = true) (h : Evolves H s0 s) (p : Nat) : Evolves H s0 (doBackoffExpired p
    s) := by
  refine ev_mono hF h ?_
  unfold doBackoffExpired
  repeat' first
      | (with_reducible first
          | exact ev_refl _ _ | assumption | apply bringupOrSearch_ev | refine ev_ite ?_ ?_ | refine ev_fst (by assumption) ?_
          | refine ev_snd (by assumption) ?_)
      | (show sub _ _ = true; rfl) | (show List.contains _ _ = true; rfl)

theorem setRun_ev (hF : sub [.cams] H = true) (h : Evolves H s0 s) (p : Nat) (r : Run) : Evolves H s0 (setRun p r s) := by
  refine ev_mono hF h ?_
  unfold setRun
  repeat' first
      | (with_reducible first
          | exact ev_refl _ _ | assumption | apply setCam_ev | refine ev_ite ?_ ?_ | refine ev_fst (by assumption) ?_
          | refine ev_snd (by assumption) ?_)
      | (show sub _ _ = true; rfl) | (show List.contains _ _ = true; rfl)

theorem scriptTransferDone_ev (hF : sub [.pins, .regs, .queues, .readPorts, .svcStats, .jnl, .cams, .frames, .running, .pwrs,
    .out] H = true) (h : Evolves H s0 s) (p : Nat) (run : Nat) (ok : Bool) (data : List Nat) : Evolves H s0 (scriptTransferDone
    p run ok data s) := by
  refine ev_mono hF h ?_
  unfold scriptTransferDone
  repeat' first
      | (with_reducible first
          | exact ev_refl _ _ | assumption | apply kickSlices_ev | apply endScript_ev | apply setRun_ev | refine ev_ite ?_ ?_
          | refine ev_fst (by assumption) ?_ | refine ev_snd (by assumption) ?_)
      | (show sub _ _ = true; rfl) | (show List.contains _ _ = true) | dsimp only | split

theorem doDelayExpired_ev (hF : sub [.cams] H = true) (h : Evolves H s0 s) (p : Nat) : Evolves H s0 (doDelayExpired p s) := by
  refine ev_mono hF h ?_
  unfold doDelayExpired
  repeat' first
      | (with_reducible first
          | exact ev_refl _ _ | assumption | apply setRun_ev | refine ev_ite ?_ ?_ | refine ev_fst (by assumption) ?_
          | refine ev_snd (by assumption) ?_)
      | (show sub _ _ = true; rfl) | (show List.contains _ _ = true) | dsimp only | split

theorem doEchoBurst_ev (hF : sub [.cams] H = true) (h : Evolves H s0 s) (p : Nat) : Evolves H s0 (doEchoBurst p s) := by
  refine ev_mono hF h ?_
  unfold doEchoBurst
  repeat' first
      | (with_reducible first
          | exact ev_refl _ _ | assumption | apply setCam_ev | refine ev_ite ?_ ?_ | refine ev_fst (by assumption) ?_
          | refine ev_snd (by assumption) ?_)
      | (show sub _ _ = true; rfl) | (show List.contains _ _ = true; rfl)

theorem doEchoRequest_ev (hF : sub [.cams, .out] H = true) (h : Evolves H s0 s) (p : Nat) : Evolves H s0 (doEchoRequest p s) :=
    by
  refine ev_mono hF h ?_
  unfold doEchoRequest
  repeat' first
      | (with_reducible first
          | exact ev_refl _ _ | assumption | apply emit_ev | apply setCam_ev | refine ev_ite ?_ ?_
          | refine ev_fst (by assumption) ?_ | refine ev_snd (by assumption) ?_)
      | (show sub _ _ = true; rfl) | (show List.contains _ _ = true) | dsimp only | split

theorem doEchoReturn_ev (hF : sub [.cams] H = true) (h : Evolves H s0 s) (p : Nat) (rtt : Nat) : Evolves H s0 (doEchoReturn p
    rtt s) := by
  refine ev_mono hF h ?_
  unfold doEchoReturn
  repeat' first
      | (with_reducible first
          | exact ev_refl _ _ | assumption | apply setCam_ev | refine ev_ite ?_ ?_ | refine ev_fst (by assumption) ?_
          | refine ev_snd (by assumption) ?_)
      | (show sub _ _ = true; rfl) | (show List.contains _ _ = true) | dsimp only | split

theorem doEchoTimeout_ev (hF : sub [.cams] H = true) (h : Evolves H s0 s) (p : Nat) : Evolves H s0 (doEchoTimeout p s) := by
  refine ev_mono hF h ?_
  unfold doEchoTimeout
  repeat' first
      | (with_reducible first
          | exact ev_refl _ _ | assumption | apply setCam_ev | refine ev_ite ?_ ?_ | refine ev_fst (by assumption) ?_
          | refine ev_snd (by assumption) ?_)
      | (show sub _ _ = true; rfl) | (show List.contains _ _ = true) | dsimp only | split

theorem doFaultTimeout_ev (hF : sub [.pins, .regs, .cams, .out] H = true) (h : Evolves H s0 s) (p : Nat) : Evolves H s0
    (doFaultTimeout p s) := by
  refine ev_mono hF h ?_
  unfold doFaultTimeout
  repeat' first
      | (with_reducible first
          | exact ev_refl _ _ | assumption | apply wr_ev | apply setCam_ev | apply enterBringup_ev | apply unlock_ev
          | apply powerOff_ev | refine ev_ite ?_ ?_ | refine ev_fst (by assumption) ?_ | refine ev_snd (by assumption) ?_)
      | (show sub _ _ = true; rfl) | (show List.contains _ _ = true; rfl)

theorem endParts_ev (hF : sub [.regs, .queues, .readPorts, .svcStats, .jnl, .frames] H = true) (h : Evolves H s0 s) (p : Nat)
    (vc : Nat) (f : FrameSt) : Evolves H s0 (endParts p vc s f) := by
  refine ev_mono hF h ?_
  unfold endParts
  repeat' first
      | (with_reducible first
          | exact ev_refl _ _ | assumption | apply putFrame_ev | apply closeFrame_ev | refine ev_ite ?_ ?_
          | refine ev_fst (by assumption) ?_ | refine ev_snd (by assumption) ?_)
      | (show sub _ _ = true; rfl) | (show List.contains _ _ = true; rfl)

theorem lostPacket_ev (hF : sub [.regs, .queues, .readPorts, .svcStats, .jnl] H = true) (h : Evolves H s0 s) (p : Nat) (vc :
    Nat) (dt : Nat) (f : PktFlags) : Evolves H s0 (lostPacket p vc dt f s) := by
  refine ev_mono hF h ?_
  unfold lostPacket
  repeat' first
      | (with_reducible first
          | exact ev_refl _ _ | assumption | apply inc_ev | apply recordError_ev | refine ev_ite ?_ ?_
          | refine ev_fst (by assumption) ?_ | refine ev_snd (by assumption) ?_)
      | (show sub _ _ = true; rfl) | (show List.contains _ _ = true; rfl)

theorem unmapped_ev (hF : sub [.regs, .queues, .readPorts, .svcStats, .jnl] H = true) (h : Evolves H s0 s) (p : Nat) (vc : Nat)
    (dt : Nat) : Evolves H s0 (unmapped p vc dt s) := by
  refine ev_mono hF h ?_
  unfold unmapped
  repeat' first
      | (with_reducible first
          | exact ev_refl _ _ | assumption | apply wr_ev | apply inc_ev | apply recordError_ev | refine ev_ite ?_ ?_
          | refine ev_fst (by assumption) ?_ | refine ev_snd (by assumption) ?_)
      | (show sub _ _ = true; rfl) | (show List.contains _ _ = true; rfl)

theorem doFrameEnd_ev (hF : sub [.pins, .regs, .queues, .readPorts, .svcStats, .jnl, .cams, .frames, .out] H = true) (h :
    Evolves H s0 s) (p : Nat) (vc : Nat) (f : PktFlags) : Evolves H s0 (doFrameEnd p vc f s) := by
  refine ev_mono hF h ?_
  unfold doFrameEnd
  repeat' first
      | (with_reducible first
          | exact ev_refl _ _ | assumption | apply inc_ev | apply parkPort_ev | apply countRtx_ev | apply endParts_ev
          | apply lostPacket_ev | apply unmapped_ev | refine ev_ite ?_ ?_ | (refine ev_foldl ?_ ?_; rotate_left; intro _ _ _)
          | refine ev_fst (by assumption) ?_ | refine ev_snd (by assumption) ?_)
      | (show sub _ _ = true; rfl) | (show List.contains _ _ = true; rfl)

theorem matchDeliver_ev (hF : sub [.cams, .rly] H = true) (h : Evolves H s0 s) (p : Nat) (vc : Nat) (c : Nat) (cap : Nat) (fc :
    Nat) : Evolves H s0 (matchDeliver p vc c cap fc s).2 := by
  refine ev_mono hF h ?_
  unfold matchDeliver
  repeat' first
      | (with_reducible first
          | exact ev_refl _ _ | assumption | apply setCam_ev | refine ev_ite ?_ ?_ | refine ev_fst (by assumption) ?_
          | refine ev_snd (by assumption) ?_)
      | (show sub _ _ = true; rfl) | (show List.contains _ _ = true; rfl) | dsimp only | split | (with_reducible apply ev_rly)

theorem openFrame_ev (hF : sub [.regs, .liveA, .cams, .frames, .nextFrame, .rly, .mot, .loops] H = true) (h : Evolves H s0 s) (p
    : Nat) (vc : Nat) (c : Nat) (ep : Nat) (fc : Nat) (t : Option TrigSt) : Evolves H s0 (openFrame p vc c ep fc t s) := by
  refine ev_mono hF h ?_
  unfold openFrame
  repeat' first
      | (with_reducible first
          | exact ev_refl _ _ | assumption | apply wr_ev | apply liveRefresh_ev | apply countStart_ev | apply matchDeliver_ev
          | refine ev_ite ?_ ?_ | refine ev_fst (by assumption) ?_ | refine ev_snd (by assumption) ?_)
      | (with_reducible first
          | exact Nat.le_add_right _ _ | exact le_rfl)
      | (show sub _ _ = true; rfl) | (show List.contains _ _ = true; rfl) | dsimp only | split
      | (with_reducible first
          | apply ev_frames_nextFrame | apply ev_mot_frames_nextFrame)

theorem openFree_ev (hF : sub [.regs, .liveA, .cams, .frames, .nextFrame, .rly, .mot, .loops] H = true) (h : Evolves H s0 s) (p
    : Nat) (vc : Nat) (fc : Nat) (ep : Nat) (c : Nat) : Evolves H s0 (openFree p vc fc ep s c) := by
  refine ev_mono hF h ?_
  unfold openFree
  repeat' first
      | (with_reducible first
          | exact ev_refl _ _ | assumption | apply wr_ev | apply inc_ev | apply openFrame_ev | refine ev_ite ?_ ?_
          | refine ev_fst (by assumption) ?_ | refine ev_snd (by assumption) ?_)
      | (show sub _ _ = true; rfl) | (show List.contains _ _ = true; rfl)

theorem takeTrigger_ev (hF : sub [.cams] H = true) (h : Evolves H s0 s) (p : Nat) (cs : List Nat) : Evolves H s0 (takeTrigger p
    cs s) := by
  refine ev_mono hF h ?_
  unfold takeTrigger
  repeat' first
      | (with_reducible first
          | exact ev_refl _ _ | assumption | apply setCam_ev | refine ev_ite ?_ ?_ | refine ev_fst (by assumption) ?_
          | refine ev_snd (by assumption) ?_)
      | (show sub _ _ = true; rfl) | (show List.contains _ _ = true) | dsimp only | split

theorem startFrames_ev (hF : sub [.pins, .regs, .cfgB, .liveA, .ldr, .queues, .readPorts, .svcStats, .jnl, .rsv, .cams, .frames,
    .nextFrame, .rly, .mot, .loops, .jmem, .out, .freeCount] H = true) (h : Evolves H s0 s) (p : Nat) (vc : Nat) (fn : Nat) :
    Evolves H s0 (startFrames p vc fn s) := by
  refine ev_mono hF h ?_
  unfold startFrames
  repeat' first
      | (with_reducible first
          | exact ev_refl _ _ | assumption | apply inc_ev | apply checkSwap_ev | apply setCam_ev | apply closeFrame_ev
          | apply parkPort_ev | apply openFrame_ev | apply openFree_ev | apply takeTrigger_ev | refine ev_ite ?_ ?_
          | (refine ev_foldl ?_ ?_; rotate_left; intro _ _ _) | refine ev_fst (by assumption) ?_
          | refine ev_snd (by assumption) ?_)
      | (show sub _ _ = true; rfl) | (show List.contains _ _ = true; rfl) | dsimp only | split
      | (with_reducible apply ev_frames)

theorem doFrameStart_ev (hF : sub [.pins, .regs, .cfgB, .liveA, .ldr, .queues, .readPorts, .svcStats, .jnl, .rsv, .cams,
    .frames, .nextFrame, .rly, .mot, .loops, .jmem, .out, .freeCount] H = true) (h : Evolves H s0 s) (p : Nat) (vc : Nat) (fn :
    Nat) (f : PktFlags) : Evolves H s0 (doFrameStart p vc fn f s) := by
  refine ev_mono hF h ?_
  unfold doFrameStart
  repeat' first
      | (with_reducible first
          | exact ev_refl _ _ | assumption | apply inc_ev | apply countRtx_ev | apply lostPacket_ev | apply unmapped_ev
          | apply startFrames_ev | refine ev_ite ?_ ?_ | refine ev_fst (by assumption) ?_ | refine ev_snd (by assumption) ?_)
      | (show sub _ _ = true; rfl) | (show List.contains _ _ = true; rfl)

theorem doFrameTimeout_ev (hF : sub [.pins, .regs, .queues, .readPorts, .svcStats, .jnl, .cams, .frames, .out] H = true) (h :
    Evolves H s0 s) (p : Nat) (c : Nat) : Evolves H s0 (doFrameTimeout p c s) := by
  refine ev_mono hF h ?_
  unfold doFrameTimeout
  repeat' first
      | (with_reducible first
          | exact ev_refl _ _ | assumption | apply inc_ev | apply recordError_ev | apply closeFrame_ev | apply parkPort_ev
          | apply linkLoss_ev | refine ev_ite ?_ ?_ | refine ev_fst (by assumption) ?_ | refine ev_snd (by assumption) ?_)
      | (show sub _ _ = true; rfl) | (show List.contains _ _ = true) | dsimp only | split

theorem doInstructionLimit_ev (hF : sub [.pins, .regs, .queues, .readPorts, .svcStats, .jnl, .cams, .frames, .pwrs, .out] H =
    true) (h : Evolves H s0 s) (p : Nat) : Evolves H s0 (doInstructionLimit p s) := by
  refine ev_mono hF h ?_
  unfold doInstructionLimit
  repeat' first
      | (with_reducible first
          | exact ev_refl _ _ | assumption | apply endScript_ev | refine ev_ite ?_ ?_ | refine ev_fst (by assumption) ?_
          | refine ev_snd (by assumption) ?_)
      | (show sub _ _ = true; rfl) | (show List.contains _ _ = true) | dsimp only | split

theorem doLatencyEnd_ev (hF : sub [.regs, .queues, .readPorts, .svcStats, .jnl, .cams] H = true) (h : Evolves H s0 s) (p : Nat)
    : Evolves H s0 (doLatencyEnd p s) := by
  refine ev_mono hF h ?_
  unfold doLatencyEnd
  repeat' first
      | (with_reducible first
          | exact ev_refl _ _ | assumption | apply wr_ev | apply setCam_ev | apply camEvent_ev | refine ev_ite ?_ ?_
          | refine ev_fst (by assumption) ?_ | refine ev_snd (by assumption) ?_)
      | (show sub _ _ = true; rfl) | (show List.contains _ _ = true) | dsimp only | split

theorem resumeLock_ev (hF : sub [.cams] H = true) (h : Evolves H s0 s) (p : Nat) : Evolves H s0 (resumeLock p s) := by
  refine ev_mono hF h ?_
  unfold resumeLock
  repeat' first
      | (with_reducible first
          | exact ev_refl _ _ | assumption | apply setCam_ev | refine ev_ite ?_ ?_ | refine ev_fst (by assumption) ?_
          | refine ev_snd (by assumption) ?_)
      | (show sub _ _ = true; rfl) | (show List.contains _ _ = true) | dsimp only | split

theorem doLinkLock_ev (hF : sub [.regs, .queues, .readPorts, .svcStats, .jnl, .cams] H = true) (h : Evolves H s0 s) (p : Nat) :
    Evolves H s0 (doLinkLock p s) := by
  refine ev_mono hF h ?_
  unfold doLinkLock
  repeat' first
      | (with_reducible first
          | exact ev_refl _ _ | assumption | apply wr_ev | apply setCam_ev | apply enterBringup_ev | apply camEvent_ev
          | apply resumeLock_ev | refine ev_ite ?_ ?_ | refine ev_fst (by assumption) ?_ | refine ev_snd (by assumption) ?_)
      | (show sub _ _ = true; rfl) | (show List.contains _ _ = true; rfl)

theorem doLinkLoss_ev (hF : sub [.pins, .regs, .queues, .readPorts, .svcStats, .jnl, .cams, .frames, .out] H = true) (h :
    Evolves H s0 s) (p : Nat) : Evolves H s0 (doLinkLoss p s) := by
  refine ev_mono hF h ?_
  unfold doLinkLoss
  repeat' first
      | (with_reducible first
          | exact ev_refl _ _ | assumption | apply setCam_ev | apply parkPort_ev | apply linkLoss_ev | refine ev_ite ?_ ?_
          | refine ev_fst (by assumption) ?_ | refine ev_snd (by assumption) ?_)
      | (show sub _ _ = true; rfl) | (show List.contains _ _ = true; rfl)

theorem doLockLost_ev (hF : sub [.regs, .cams] H = true) (h : Evolves H s0 s) (p : Nat) : Evolves H s0 (doLockLost p s) := by
  refine ev_mono hF h ?_
  unfold doLockLost
  repeat' first
      | (with_reducible first
          | exact ev_refl _ _ | assumption | apply setCam_ev | apply unlock_ev | refine ev_ite ?_ ?_
          | refine ev_fst (by assumption) ?_ | refine ev_snd (by assumption) ?_)
      | (show sub _ _ = true; rfl) | (show List.contains _ _ = true; rfl)

theorem showLines_ev (hF : sub [.regs] H = true) (h : Evolves H s0 s) (p : Nat) (f : FrameSt) (x : Part) (n : Nat) : Evolves H
    s0 (showLines p f x n s) := by
  refine ev_mono hF h ?_
  unfold showLines
  repeat' first
      | (with_reducible first
          | exact ev_refl _ _ | assumption | apply wr_ev | refine ev_ite ?_ ?_ | refine ev_fst (by assumption) ?_
          | refine ev_snd (by assumption) ?_)
      | (show sub _ _ = true; rfl) | (show List.contains _ _ = true; rfl)

theorem lineBeyond_ev (hF : sub [.regs, .queues, .readPorts, .svcStats, .jnl, .frames] H = true) (h : Evolves H s0 s) (p : Nat)
    (vc : Nat) (dt : Nat) (f : FrameSt) (x : Part) (pf : PktFlags) : Evolves H s0 (lineBeyond p vc dt f x pf s) := by
  refine ev_mono hF h ?_
  unfold lineBeyond
  repeat' first
      | (with_reducible first
          | exact ev_refl _ _ | assumption | apply inc_ev | apply recordError_ev | apply putFrame_ev | apply countCrc_ev
          | apply countUnpack_ev | apply showLines_ev | refine ev_ite ?_ ?_ | refine ev_fst (by assumption) ?_
          | refine ev_snd (by assumption) ?_)
      | (show sub _ _ = true; rfl) | (show List.contains _ _ = true; rfl)

theorem reportLine_ev (hF : sub [.regs, .queues, .readPorts, .svcStats, .jnl] H = true) (h : Evolves H s0 s) (p : Nat) (vc :
    Nat) (dt : Nat) (f : FrameSt) (c : LineCheck) (pf : PktFlags) : Evolves H s0 (reportLine p vc dt f c pf s) := by
  refine ev_mono hF h ?_
  unfold reportLine
  repeat' first
      | (with_reducible first
          | exact ev_refl _ _ | assumption | apply inc_ev | apply recordError_ev | apply countCrc_ev | apply countUnpack_ev
          | refine ev_ite ?_ ?_ | refine ev_fst (by assumption) ?_ | refine ev_snd (by assumption) ?_)
      | (show sub _ _ = true; rfl) | (show List.contains _ _ = true; rfl)

theorem lineWithin_ev (hF : sub [.regs, .queues, .readPorts, .svcStats, .jnl, .frames] H = true) (h : Evolves H s0 s) (p : Nat)
    (vc : Nat) (dt : Nat) (payload : List Nat) (f : FrameSt) (x : Part) (pf : PktFlags) : Evolves H s0 (lineWithin p vc dt
    payload f x pf s) := by
  refine ev_mono hF h ?_
  unfold lineWithin
  repeat' first
      | (with_reducible first
          | exact ev_refl _ _ | assumption | apply putFrame_ev | apply showLines_ev | apply reportLine_ev | refine ev_ite ?_ ?_
          | refine ev_fst (by assumption) ?_ | refine ev_snd (by assumption) ?_)
      | (show sub _ _ = true; rfl) | (show List.contains _ _ = true; rfl)

theorem doLongPacket_ev (hF : sub [.regs, .liveA, .queues, .readPorts, .svcStats, .jnl, .frames] H = true) (h : Evolves H s0 s)
    (p : Nat) (vc : Nat) (dt : Nat) (payload : List Nat) (pf : PktFlags) : Evolves H s0 (doLongPacket p vc dt payload pf s) :=
    by
  refine ev_mono hF h ?_
  unfold doLongPacket
  repeat' first
      | (with_reducible first
          | exact ev_refl _ _ | assumption | apply inc_ev | apply recordError_ev | apply liveRefresh_ev | apply countCrc_ev
          | apply countRtx_ev | apply lostPacket_ev | apply unmapped_ev | apply lineBeyond_ev | apply lineWithin_ev
          | refine ev_ite ?_ ?_ | refine ev_fst (by assumption) ?_ | refine ev_snd (by assumption) ?_)
      | (show sub _ _ = true; rfl) | (show List.contains _ _ = true) | dsimp only | split

theorem doPortConfigApply_ev (hF : sub [.pins, .regs, .cfgX, .queues, .readPorts, .svcStats, .jnl, .cams, .frames, .pwrs, .out]
    H = true) (h : Evolves H s0 s) (p : Nat) : Evolves H s0 (doPortConfigApply p s) := by
  refine ev_mono hF h ?_
  unfold doPortConfigApply
  repeat' first
      | (with_reducible first
          | exact ev_refl _ _ | assumption | apply applyPort_ev | refine ev_ite ?_ ?_ | refine ev_fst (by assumption) ?_
          | refine ev_snd (by assumption) ?_)
      | (show sub _ _ = true; rfl) | (show List.contains _ _ = true; rfl)

theorem doPowerCycleDone_ev (hF : sub [.pins, .regs, .cams, .pwrs, .out] H = true) (h : Evolves H s0 s) (p : Nat) : Evolves H s0
    (doPowerCycleDone p s) := by
  refine ev_mono hF h ?_
  unfold doPowerCycleDone
  repeat' first
      | (with_reducible first
          | exact ev_refl _ _ | assumption | apply wr_ev | apply setCam_ev | apply beginPort_ev | refine ev_ite ?_ ?_
          | refine ev_fst (by assumption) ?_ | refine ev_snd (by assumption) ?_)
      | (show sub _ _ = true; rfl) | (show List.contains _ _ = true; rfl)

theorem doScriptDelay_ev (hF : sub [.cams] H = true) (h : Evolves H s0 s) (p : Nat) : Evolves H s0 (doScriptDelay p s) := by
  refine ev_mono hF h ?_
  unfold doScriptDelay
  repeat' first
      | (with_reducible first
          | exact ev_refl _ _ | assumption | apply setRun_ev | refine ev_ite ?_ ?_ | refine ev_fst (by assumption) ?_
          | refine ev_snd (by assumption) ?_)
      | (show sub _ _ = true; rfl) | (show List.contains _ _ = true) | dsimp only | split

theorem doScriptEnd_ev (hF : sub [.pins, .regs, .queues, .readPorts, .svcStats, .jnl, .cams, .frames, .pwrs, .out] H = true) (h
    : Evolves H s0 s) (p : Nat) : Evolves H s0 (doScriptEnd p s) := by
  refine ev_mono hF h ?_
  unfold doScriptEnd
  repeat' first
      | (with_reducible first
          | exact ev_refl _ _ | assumption | apply endScript_ev | refine ev_ite ?_ ?_ | refine ev_fst (by assumption) ?_
          | refine ev_snd (by assumption) ?_)
      | (show sub _ _ = true; rfl) | (show List.contains _ _ = true) | dsimp only | split

theorem doScriptEvent_ev (hF : sub [.regs, .queues, .readPorts, .svcStats, .jnl, .cams] H = true) (h : Evolves H s0 s) (p : Nat)
    : Evolves H s0 (doScriptEvent p s) := by
  refine ev_mono hF h ?_
  unfold doScriptEvent
  repeat' first
      | (with_reducible first
          | exact ev_refl _ _ | assumption | apply camEvent_ev | apply setRun_ev | refine ev_ite ?_ ?_
          | refine ev_fst (by assumption) ?_ | refine ev_snd (by assumption) ?_)
      | (show sub _ _ = true; rfl) | (show List.contains _ _ = true) | dsimp only | split

theorem doScriptGpio_ev (hF : sub [.pins, .regs, .queues, .readPorts, .svcStats, .jnl, .cams, .frames, .pwrs, .out] H = true) (h
    : Evolves H s0 s) (p : Nat) : Evolves H s0 (doScriptGpio p s) := by
  refine ev_mono hF h ?_
  unfold doScriptGpio
  repeat' first
      | (with_reducible first
          | exact ev_refl _ _ | assumption | apply driveLine_ev | apply endScript_ev | apply setRun_ev | refine ev_ite ?_ ?_
          | refine ev_fst (by assumption) ?_ | refine ev_snd (by assumption) ?_)
      | (show sub _ _ = true; rfl) | (show List.contains _ _ = true) | dsimp only | split

theorem doScriptJump_ev (hF : sub [.cams] H = true) (h : Evolves H s0 s) (p : Nat) : Evolves H s0 (doScriptJump p s) := by
  refine ev_mono hF h ?_
  unfold doScriptJump
  repeat' first
      | (with_reducible first
          | exact ev_refl _ _ | assumption | apply setRun_ev | refine ev_ite ?_ ?_ | refine ev_fst (by assumption) ?_
          | refine ev_snd (by assumption) ?_)
      | (show sub _ _ = true; rfl) | (show List.contains _ _ = true) | dsimp only | split

theorem doScriptLoop_ev (hF : sub [.cams] H = true) (h : Evolves H s0 s) (p : Nat) : Evolves H s0 (doScriptLoop p s) := by
  refine ev_mono hF h ?_
  unfold doScriptLoop
  repeat' first
      | (with_reducible first
          | exact ev_refl _ _ | assumption | apply setRun_ev | refine ev_ite ?_ ?_ | refine ev_fst (by assumption) ?_
          | refine ev_snd (by assumption) ?_)
      | (show sub _ _ = true; rfl) | (show List.contains _ _ = true) | dsimp only | split

theorem doScriptPoc_ev (hF : sub [.pins, .regs, .queues, .readPorts, .svcStats, .jnl, .cams, .frames, .pwrs, .out] H = true) (h
    : Evolves H s0 s) (p : Nat) : Evolves H s0 (doScriptPoc p s) := by
  refine ev_mono hF h ?_
  unfold doScriptPoc
  repeat' first
      | (with_reducible first
          | exact ev_refl _ _ | assumption | apply setCam_ev | apply powerInrush_ev | apply closeAll_ev | apply unlock_ev
          | apply powerOff_ev | apply setRun_ev | refine ev_ite ?_ ?_ | refine ev_fst (by assumption) ?_
          | refine ev_snd (by assumption) ?_)
      | (show sub _ _ = true; rfl) | (show List.contains _ _ = true) | dsimp only | split

theorem doScriptRdcmp_ev (hF : sub [.cams, .twbs] H = true) (h : Evolves H s0 s) (p : Nat) : Evolves H s0 (doScriptRdcmp p s) :=
    by
  refine ev_mono hF h ?_
  unfold doScriptRdcmp
  repeat' first
      | (with_reducible first
          | exact ev_refl _ _ | assumption | apply queueTxn_ev | apply setRun_ev | refine ev_ite ?_ ?_
          | refine ev_fst (by assumption) ?_ | refine ev_snd (by assumption) ?_)
      | (show sub _ _ = true; rfl) | (show List.contains _ _ = true) | dsimp only | split

theorem doScriptStream_ev (hF : sub [.regs, .queues, .readPorts, .svcStats, .jnl, .cams, .frames] H = true) (h : Evolves H s0 s)
    (p : Nat) : Evolves H s0 (doScriptStream p s) := by
  refine ev_mono hF h ?_
  unfold doScriptStream
  repeat' first
      | (with_reducible first
          | exact ev_refl _ _ | assumption | apply closeAll_ev | apply camEvent_ev | apply setRun_ev | refine ev_ite ?_ ?_
          | refine ev_fst (by assumption) ?_ | refine ev_snd (by assumption) ?_)
      | (show sub _ _ = true; rfl) | (show List.contains _ _ = true) | dsimp only | split

theorem doScriptWaitlock_ev (hF : sub [.cams] H = true) (h : Evolves H s0 s) (p : Nat) : Evolves H s0 (doScriptWaitlock p s) :=
    by
  refine ev_mono hF h ?_
  unfold doScriptWaitlock
  repeat' first
      | (with_reducible first
          | exact ev_refl _ _ | assumption | apply setRun_ev | refine ev_ite ?_ ?_ | refine ev_fst (by assumption) ?_
          | refine ev_snd (by assumption) ?_)
      | (show sub _ _ = true; rfl) | (show List.contains _ _ = true) | dsimp only | split

theorem scriptWrite_ev (hF : sub [.cams, .twbs] H = true) (h : Evolves H s0 s) (p : Nat) (r : Run) (len : Nat) (bs : List Nat) :
    Evolves H s0 (scriptWrite p r len bs s) := by
  refine ev_mono hF h ?_
  unfold scriptWrite
  repeat' first
      | (with_reducible first
          | exact ev_refl _ _ | assumption | apply queueTxn_ev | apply setRun_ev | refine ev_ite ?_ ?_
          | refine ev_fst (by assumption) ?_ | refine ev_snd (by assumption) ?_)
      | (show sub _ _ = true; rfl) | (show List.contains _ _ = true; rfl)

theorem doScriptWr16_ev (hF : sub [.cams, .twbs] H = true) (h : Evolves H s0 s) (p : Nat) : Evolves H s0 (doScriptWr16 p s) :=
    by
  refine ev_mono hF h ?_
  unfold doScriptWr16
  repeat' first
      | (with_reducible first
          | exact ev_refl _ _ | assumption | apply scriptWrite_ev | refine ev_ite ?_ ?_ | refine ev_fst (by assumption) ?_
          | refine ev_snd (by assumption) ?_)
      | (show sub _ _ = true; rfl) | (show List.contains _ _ = true) | dsimp only | split

theorem doScriptWr8_ev (hF : sub [.cams, .twbs] H = true) (h : Evolves H s0 s) (p : Nat) : Evolves H s0 (doScriptWr8 p s) := by
  refine ev_mono hF h ?_
  unfold doScriptWr8
  repeat' first
      | (with_reducible first
          | exact ev_refl _ _ | assumption | apply scriptWrite_ev | refine ev_ite ?_ ?_ | refine ev_fst (by assumption) ?_
          | refine ev_snd (by assumption) ?_)
      | (show sub _ _ = true; rfl) | (show List.contains _ _ = true) | dsimp only | split

theorem doSupervisionRun_ev (hF : sub [.cams] H = true) (h : Evolves H s0 s) (p : Nat) : Evolves H s0 (doSupervisionRun p s) :=
    by
  refine ev_mono hF h ?_
  unfold doSupervisionRun
  repeat' first
      | (with_reducible first
          | exact ev_refl _ _ | assumption | apply startScript_ev | refine ev_ite ?_ ?_ | refine ev_fst (by assumption) ?_
          | refine ev_snd (by assumption) ?_)
      | (show sub _ _ = true; rfl) | (show List.contains _ _ = true; rfl)

theorem doTriggerAssert_ev (hF : sub [.pins, .regs, .cfgB, .ldr, .queues, .readPorts, .svcStats, .jnl, .rsv, .cams, .jmem, .out,
    .freeCount] H = true) (h : Evolves H s0 s) (p : Nat) : Evolves H s0 (doTriggerAssert p s) := by
  refine ev_mono hF h ?_
  unfold doTriggerAssert
  repeat' first
      | (with_reducible first
          | exact ev_refl _ _ | assumption | apply checkSwap_ev | apply setCam_ev | apply assertTrigger_ev | refine ev_ite ?_ ?_
          | refine ev_fst (by assumption) ?_ | refine ev_snd (by assumption) ?_)
      | (show sub _ _ = true; rfl) | (show List.contains _ _ = true) | dsimp only | split

theorem doTriggerRelease_ev (hF : sub [.pins, .cams, .out] H = true) (h : Evolves H s0 s) (p : Nat) : Evolves H s0
    (doTriggerRelease p s) := by
  refine ev_mono hF h ?_
  unfold doTriggerRelease
  repeat' first
      | (with_reducible first
          | exact ev_refl _ _ | assumption | apply setCam_ev | apply driveLine_ev | refine ev_ite ?_ ?_
          | refine ev_fst (by assumption) ?_ | refine ev_snd (by assumption) ?_)
      | (show sub _ _ = true; rfl) | (show List.contains _ _ = true; rfl)

theorem doWaitlockTimeout_ev (hF : sub [.cams] H = true) (h : Evolves H s0 s) (p : Nat) : Evolves H s0 (doWaitlockTimeout p s)
    := by
  refine ev_mono hF h ?_
  unfold doWaitlockTimeout
  repeat' first
      | (with_reducible first
          | exact ev_refl _ _ | assumption | apply setRun_ev | refine ev_ite ?_ ?_ | refine ev_fst (by assumption) ?_
          | refine ev_snd (by assumption) ?_)
      | (show sub _ _ = true; rfl) | (show List.contains _ _ = true) | dsimp only | split

theorem execBackoffExpired_ev (hF : sub [.regs, .cams] H = true) (h : Evolves H s0 s) (p : Nat) (e : execBackoffExpired p s =
    .next sNext) : Evolves H s0 sNext := by
  refine ev_mono hF h ?_
  unfold execBackoffExpired at e
  cases e
  repeat' first
      | (with_reducible first
          | exact ev_refl _ _ | assumption | apply doBackoffExpired_ev | refine ev_ite ?_ ?_ | refine ev_fst (by assumption) ?_
          | refine ev_snd (by assumption) ?_)
      | (show sub _ _ = true; rfl) | (show List.contains _ _ = true; rfl)

theorem execDelayExpired_ev (hF : sub [.cams] H = true) (h : Evolves H s0 s) (p : Nat) (e : execDelayExpired p s = .next sNext)
    : Evolves H s0 sNext := by
  refine ev_mono hF h ?_
  unfold execDelayExpired at e
  cases e
  repeat' first
      | (with_reducible first
          | exact ev_refl _ _ | assumption | apply doDelayExpired_ev | refine ev_ite ?_ ?_ | refine ev_fst (by assumption) ?_
          | refine ev_snd (by assumption) ?_)
      | (show sub _ _ = true; rfl) | (show List.contains _ _ = true; rfl)

theorem execEchoBurstStart_ev (hF : sub [.cams] H = true) (h : Evolves H s0 s) (p : Nat) (e : execEchoBurstStart p s = .next
    sNext) : Evolves H s0 sNext := by
  refine ev_mono hF h ?_
  unfold execEchoBurstStart at e
  cases e
  repeat' first
      | (with_reducible first
          | exact ev_refl _ _ | assumption | apply doEchoBurst_ev | refine ev_ite ?_ ?_ | refine ev_fst (by assumption) ?_
          | refine ev_snd (by assumption) ?_)
      | (show sub _ _ = true; rfl) | (show List.contains _ _ = true; rfl)

theorem execEchoRequestSend_ev (hF : sub [.cams, .out] H = true) (h : Evolves H s0 s) (p : Nat) (e : execEchoRequestSend p s =
    .next sNext) : Evolves H s0 sNext := by
  refine ev_mono hF h ?_
  unfold execEchoRequestSend at e
  cases e
  repeat' first
      | (with_reducible first
          | exact ev_refl _ _ | assumption | apply doEchoRequest_ev | refine ev_ite ?_ ?_ | refine ev_fst (by assumption) ?_
          | refine ev_snd (by assumption) ?_)
      | (show sub _ _ = true; rfl) | (show List.contains _ _ = true; rfl)

theorem execEchoReturn_ev (hF : sub [.cams] H = true) (h : Evolves H s0 s) (p : Nat) (rtt : Nat) (e : execEchoReturn p rtt s =
    .next sNext) : Evolves H s0 sNext := by
  refine ev_mono hF h ?_
  unfold execEchoReturn at e
  cases e
  repeat' first
      | (with_reducible first
          | exact ev_refl _ _ | assumption | apply doEchoReturn_ev | refine ev_ite ?_ ?_ | refine ev_fst (by assumption) ?_
          | refine ev_snd (by assumption) ?_)
      | (show sub _ _ = true; rfl) | (show List.contains _ _ = true; rfl)

theorem execEchoTimeout_ev (hF : sub [.cams] H = true) (h : Evolves H s0 s) (p : Nat) (e : execEchoTimeout p s = .next sNext) :
    Evolves H s0 sNext := by
  refine ev_mono hF h ?_
  unfold execEchoTimeout at e
  cases e
  repeat' first
      | (with_reducible first
          | exact ev_refl _ _ | assumption | apply doEchoTimeout_ev | refine ev_ite ?_ ?_ | refine ev_fst (by assumption) ?_
          | refine ev_snd (by assumption) ?_)
      | (show sub _ _ = true; rfl) | (show List.contains _ _ = true; rfl)

theorem execFaultTimeout_ev (hF : sub [.pins, .regs, .cams, .out] H = true) (h : Evolves H s0 s) (p : Nat) (e : execFaultTimeout
    p s = .next sNext) : Evolves H s0 sNext := by
  refine ev_mono hF h ?_
  unfold execFaultTimeout at e
  cases e
  repeat' first
      | (with_reducible first
          | exact ev_refl _ _ | assumption | apply doFaultTimeout_ev | refine ev_ite ?_ ?_ | refine ev_fst (by assumption) ?_
          | refine ev_snd (by assumption) ?_)
      | (show sub _ _ = true; rfl) | (show List.contains _ _ = true; rfl)

theorem execFrameEndPacket_ev (hF : sub [.pins, .regs, .queues, .readPorts, .svcStats, .jnl, .cams, .frames, .running, .out] H =
    true) (h : Evolves H s0 s) (p : Nat) (vc : Nat) (f : PktFlags) (e : execFrameEndPacket p vc f s = .next sNext) : Evolves H
    s0 sNext := by
  refine ev_mono hF h ?_
  unfold execFrameEndPacket at e
  cases e
  repeat' first
      | (with_reducible first
          | exact ev_refl _ _ | assumption | apply kickSlices_ev | apply doFrameEnd_ev | refine ev_ite ?_ ?_
          | refine ev_fst (by assumption) ?_ | refine ev_snd (by assumption) ?_)
      | (show sub _ _ = true; rfl) | (show List.contains _ _ = true; rfl)

theorem execFrameStartPacket_ev (hF : sub [.pins, .regs, .cfgB, .liveA, .ldr, .queues, .readPorts, .svcStats, .jnl, .rsv, .cams,
    .frames, .nextFrame, .running, .rly, .mot, .loops, .jmem, .out, .freeCount] H = true) (h : Evolves H s0 s) (p : Nat) (vc :
    Nat) (fn : Nat) (f : PktFlags) (e : execFrameStartPacket p vc fn f s = .next sNext) : Evolves H s0 sNext := by
  refine ev_mono hF h ?_
  unfold execFrameStartPacket at e
  cases e
  repeat' first
      | (with_reducible first
          | exact ev_refl _ _ | assumption | apply kickSlices_ev | apply doFrameStart_ev | refine ev_ite ?_ ?_
          | refine ev_fst (by assumption) ?_ | refine ev_snd (by assumption) ?_)
      | (show sub _ _ = true; rfl) | (show List.contains _ _ = true; rfl)

theorem execFrameTimeout_ev (hF : sub [.pins, .regs, .queues, .readPorts, .svcStats, .jnl, .cams, .frames, .running, .out] H =
    true) (h : Evolves H s0 s) (p : Nat) (c : Nat) (e : execFrameTimeout p c s = .next sNext) : Evolves H s0 sNext := by
  refine ev_mono hF h ?_
  unfold execFrameTimeout at e
  cases e
  repeat' first
      | (with_reducible first
          | exact ev_refl _ _ | assumption | apply kickSlices_ev | apply doFrameTimeout_ev | refine ev_ite ?_ ?_
          | refine ev_fst (by assumption) ?_ | refine ev_snd (by assumption) ?_)
      | (show sub _ _ = true; rfl) | (show List.contains _ _ = true; rfl)

theorem execInstructionLimit_ev (hF : sub [.pins, .regs, .queues, .readPorts, .svcStats, .jnl, .cams, .frames, .running, .pwrs,
    .out] H = true) (h : Evolves H s0 s) (p : Nat) (e : execInstructionLimit p s = .next sNext) : Evolves H s0 sNext := by
  refine ev_mono hF h ?_
  unfold execInstructionLimit at e
  cases e
  repeat' first
      | (with_reducible first
          | exact ev_refl _ _ | assumption | apply kickSlices_ev | apply doInstructionLimit_ev | refine ev_ite ?_ ?_
          | refine ev_fst (by assumption) ?_ | refine ev_snd (by assumption) ?_)
      | (show sub _ _ = true; rfl) | (show List.contains _ _ = true; rfl)

theorem execLatencyBurstEnd_ev (hF : sub [.regs, .queues, .readPorts, .svcStats, .jnl, .cams] H = true) (h : Evolves H s0 s) (p
    : Nat) (e : execLatencyBurstEnd p s = .next sNext) : Evolves H s0 sNext := by
  refine ev_mono hF h ?_
  unfold execLatencyBurstEnd at e
  cases e
  repeat' first
      | (with_reducible first
          | exact ev_refl _ _ | assumption | apply doLatencyEnd_ev | refine ev_ite ?_ ?_ | refine ev_fst (by assumption) ?_
          | refine ev_snd (by assumption) ?_)
      | (show sub _ _ = true; rfl) | (show List.contains _ _ = true; rfl)

theorem execLinkLock_ev (hF : sub [.regs, .queues, .readPorts, .svcStats, .jnl, .cams] H = true) (h : Evolves H s0 s) (p : Nat)
    (e : execLinkLock p s = .next sNext) : Evolves H s0 sNext := by
  refine ev_mono hF h ?_
  unfold execLinkLock at e
  cases e
  repeat' first
      | (with_reducible first
          | exact ev_refl _ _ | assumption | apply doLinkLock_ev | refine ev_ite ?_ ?_ | refine ev_fst (by assumption) ?_
          | refine ev_snd (by assumption) ?_)
      | (show sub _ _ = true; rfl) | (show List.contains _ _ = true; rfl)

theorem execLinkLoss_ev (hF : sub [.pins, .regs, .queues, .readPorts, .svcStats, .jnl, .cams, .frames, .running, .out] H = true)
    (h : Evolves H s0 s) (p : Nat) (e : execLinkLoss p s = .next sNext) : Evolves H s0 sNext := by
  refine ev_mono hF h ?_
  unfold execLinkLoss at e
  cases e
  repeat' first
      | (with_reducible first
          | exact ev_refl _ _ | assumption | apply kickSlices_ev | apply doLinkLoss_ev | refine ev_ite ?_ ?_
          | refine ev_fst (by assumption) ?_ | refine ev_snd (by assumption) ?_)
      | (show sub _ _ = true; rfl) | (show List.contains _ _ = true; rfl)

theorem execLockLost_ev (hF : sub [.regs, .cams] H = true) (h : Evolves H s0 s) (p : Nat) (e : execLockLost p s = .next sNext) :
    Evolves H s0 sNext := by
  refine ev_mono hF h ?_
  unfold execLockLost at e
  cases e
  repeat' first
      | (with_reducible first
          | exact ev_refl _ _ | assumption | apply doLockLost_ev | refine ev_ite ?_ ?_ | refine ev_fst (by assumption) ?_
          | refine ev_snd (by assumption) ?_)
      | (show sub _ _ = true; rfl) | (show List.contains _ _ = true; rfl)

theorem execLongPacket_ev (hF : sub [.regs, .liveA, .queues, .readPorts, .svcStats, .jnl, .frames] H = true) (h : Evolves H s0
    s) (p : Nat) (vc : Nat) (dt : Nat) (payload : List Nat) (f : PktFlags) (e : execLongPacket p vc dt payload f s = .next
    sNext) : Evolves H s0 sNext := by
  refine ev_mono hF h ?_
  unfold execLongPacket at e
  cases e
  repeat' first
      | (with_reducible first
          | exact ev_refl _ _ | assumption | apply doLongPacket_ev | refine ev_ite ?_ ?_ | refine ev_fst (by assumption) ?_
          | refine ev_snd (by assumption) ?_)
      | (show sub _ _ = true; rfl) | (show List.contains _ _ = true; rfl)

theorem execPortConfigApply_ev (hF : sub [.pins, .regs, .cfgX, .queues, .readPorts, .svcStats, .jnl, .cams, .frames, .running,
    .pwrs, .out] H = true) (h : Evolves H s0 s) (p : Nat) (e : execPortConfigApply p s = .next sNext) : Evolves H s0 sNext := by
  refine ev_mono hF h ?_
  unfold execPortConfigApply at e
  cases e
  repeat' first
      | (with_reducible first
          | exact ev_refl _ _ | assumption | apply kickSlices_ev | apply doPortConfigApply_ev | refine ev_ite ?_ ?_
          | refine ev_fst (by assumption) ?_ | refine ev_snd (by assumption) ?_)
      | (show sub _ _ = true; rfl) | (show List.contains _ _ = true; rfl)

theorem execPowerCycleDone_ev (hF : sub [.pins, .regs, .cams, .pwrs, .out] H = true) (h : Evolves H s0 s) (p : Nat) (e :
    execPowerCycleDone p s = .next sNext) : Evolves H s0 sNext := by
  refine ev_mono hF h ?_
  unfold execPowerCycleDone at e
  cases e
  repeat' first
      | (with_reducible first
          | exact ev_refl _ _ | assumption | apply doPowerCycleDone_ev | refine ev_ite ?_ ?_ | refine ev_fst (by assumption) ?_
          | refine ev_snd (by assumption) ?_)
      | (show sub _ _ = true; rfl) | (show List.contains _ _ = true; rfl)

theorem execScriptDelay_ev (hF : sub [.cams] H = true) (h : Evolves H s0 s) (p : Nat) (e : execScriptDelay p s = .next sNext) :
    Evolves H s0 sNext := by
  refine ev_mono hF h ?_
  unfold execScriptDelay at e
  cases e
  repeat' first
      | (with_reducible first
          | exact ev_refl _ _ | assumption | apply doScriptDelay_ev | refine ev_ite ?_ ?_ | refine ev_fst (by assumption) ?_
          | refine ev_snd (by assumption) ?_)
      | (show sub _ _ = true; rfl) | (show List.contains _ _ = true; rfl)

theorem execScriptEnd_ev (hF : sub [.pins, .regs, .queues, .readPorts, .svcStats, .jnl, .cams, .frames, .running, .pwrs, .out] H
    = true) (h : Evolves H s0 s) (p : Nat) (e : execScriptEnd p s = .next sNext) : Evolves H s0 sNext := by
  refine ev_mono hF h ?_
  unfold execScriptEnd at e
  cases e
  repeat' first
      | (with_reducible first
          | exact ev_refl _ _ | assumption | apply kickSlices_ev | apply doScriptEnd_ev | refine ev_ite ?_ ?_
          | refine ev_fst (by assumption) ?_ | refine ev_snd (by assumption) ?_)
      | (show sub _ _ = true; rfl) | (show List.contains _ _ = true; rfl)

theorem execScriptEvent_ev (hF : sub [.regs, .queues, .readPorts, .svcStats, .jnl, .cams] H = true) (h : Evolves H s0 s) (p :
    Nat) (e : execScriptEvent p s = .next sNext) : Evolves H s0 sNext := by
  refine ev_mono hF h ?_
  unfold execScriptEvent at e
  cases e
  repeat' first
      | (with_reducible first
          | exact ev_refl _ _ | assumption | apply doScriptEvent_ev | refine ev_ite ?_ ?_ | refine ev_fst (by assumption) ?_
          | refine ev_snd (by assumption) ?_)
      | (show sub _ _ = true; rfl) | (show List.contains _ _ = true; rfl)

theorem execScriptGpio_ev (hF : sub [.pins, .regs, .queues, .readPorts, .svcStats, .jnl, .cams, .frames, .running, .pwrs, .out]
    H = true) (h : Evolves H s0 s) (p : Nat) (e : execScriptGpio p s = .next sNext) : Evolves H s0 sNext := by
  refine ev_mono hF h ?_
  unfold execScriptGpio at e
  cases e
  repeat' first
      | (with_reducible first
          | exact ev_refl _ _ | assumption | apply kickSlices_ev | apply doScriptGpio_ev | refine ev_ite ?_ ?_
          | refine ev_fst (by assumption) ?_ | refine ev_snd (by assumption) ?_)
      | (show sub _ _ = true; rfl) | (show List.contains _ _ = true; rfl)

theorem execScriptJump_ev (hF : sub [.cams] H = true) (h : Evolves H s0 s) (p : Nat) (e : execScriptJump p s = .next sNext) :
    Evolves H s0 sNext := by
  refine ev_mono hF h ?_
  unfold execScriptJump at e
  cases e
  repeat' first
      | (with_reducible first
          | exact ev_refl _ _ | assumption | apply doScriptJump_ev | refine ev_ite ?_ ?_ | refine ev_fst (by assumption) ?_
          | refine ev_snd (by assumption) ?_)
      | (show sub _ _ = true; rfl) | (show List.contains _ _ = true; rfl)

theorem execScriptLoop_ev (hF : sub [.cams] H = true) (h : Evolves H s0 s) (p : Nat) (e : execScriptLoop p s = .next sNext) :
    Evolves H s0 sNext := by
  refine ev_mono hF h ?_
  unfold execScriptLoop at e
  cases e
  repeat' first
      | (with_reducible first
          | exact ev_refl _ _ | assumption | apply doScriptLoop_ev | refine ev_ite ?_ ?_ | refine ev_fst (by assumption) ?_
          | refine ev_snd (by assumption) ?_)
      | (show sub _ _ = true; rfl) | (show List.contains _ _ = true; rfl)

theorem execScriptPoc_ev (hF : sub [.pins, .regs, .queues, .readPorts, .svcStats, .jnl, .cams, .frames, .running, .pwrs, .out] H
    = true) (h : Evolves H s0 s) (p : Nat) (e : execScriptPoc p s = .next sNext) : Evolves H s0 sNext := by
  refine ev_mono hF h ?_
  unfold execScriptPoc at e
  cases e
  repeat' first
      | (with_reducible first
          | exact ev_refl _ _ | assumption | apply kickSlices_ev | apply doScriptPoc_ev | refine ev_ite ?_ ?_
          | refine ev_fst (by assumption) ?_ | refine ev_snd (by assumption) ?_)
      | (show sub _ _ = true; rfl) | (show List.contains _ _ = true; rfl)

theorem execScriptRdcmp_ev (hF : sub [.cams, .twbs] H = true) (h : Evolves H s0 s) (p : Nat) (e : execScriptRdcmp p s = .next
    sNext) : Evolves H s0 sNext := by
  refine ev_mono hF h ?_
  unfold execScriptRdcmp at e
  cases e
  repeat' first
      | (with_reducible first
          | exact ev_refl _ _ | assumption | apply doScriptRdcmp_ev | refine ev_ite ?_ ?_ | refine ev_fst (by assumption) ?_
          | refine ev_snd (by assumption) ?_)
      | (show sub _ _ = true; rfl) | (show List.contains _ _ = true; rfl)

theorem execScriptStream_ev (hF : sub [.regs, .queues, .readPorts, .svcStats, .jnl, .cams, .frames, .running] H = true) (h :
    Evolves H s0 s) (p : Nat) (e : execScriptStream p s = .next sNext) : Evolves H s0 sNext := by
  refine ev_mono hF h ?_
  unfold execScriptStream at e
  cases e
  repeat' first
      | (with_reducible first
          | exact ev_refl _ _ | assumption | apply kickSlices_ev | apply doScriptStream_ev | refine ev_ite ?_ ?_
          | refine ev_fst (by assumption) ?_ | refine ev_snd (by assumption) ?_)
      | (show sub _ _ = true; rfl) | (show List.contains _ _ = true; rfl)

theorem execScriptWaitlock_ev (hF : sub [.cams] H = true) (h : Evolves H s0 s) (p : Nat) (e : execScriptWaitlock p s = .next
    sNext) : Evolves H s0 sNext := by
  refine ev_mono hF h ?_
  unfold execScriptWaitlock at e
  cases e
  repeat' first
      | (with_reducible first
          | exact ev_refl _ _ | assumption | apply doScriptWaitlock_ev | refine ev_ite ?_ ?_ | refine ev_fst (by assumption) ?_
          | refine ev_snd (by assumption) ?_)
      | (show sub _ _ = true; rfl) | (show List.contains _ _ = true; rfl)

theorem execScriptWr16_ev (hF : sub [.cams, .twbs] H = true) (h : Evolves H s0 s) (p : Nat) (e : execScriptWr16 p s = .next
    sNext) : Evolves H s0 sNext := by
  refine ev_mono hF h ?_
  unfold execScriptWr16 at e
  cases e
  repeat' first
      | (with_reducible first
          | exact ev_refl _ _ | assumption | apply doScriptWr16_ev | refine ev_ite ?_ ?_ | refine ev_fst (by assumption) ?_
          | refine ev_snd (by assumption) ?_)
      | (show sub _ _ = true; rfl) | (show List.contains _ _ = true; rfl)

theorem execScriptWr8_ev (hF : sub [.cams, .twbs] H = true) (h : Evolves H s0 s) (p : Nat) (e : execScriptWr8 p s = .next sNext)
    : Evolves H s0 sNext := by
  refine ev_mono hF h ?_
  unfold execScriptWr8 at e
  cases e
  repeat' first
      | (with_reducible first
          | exact ev_refl _ _ | assumption | apply doScriptWr8_ev | refine ev_ite ?_ ?_ | refine ev_fst (by assumption) ?_
          | refine ev_snd (by assumption) ?_)
      | (show sub _ _ = true; rfl) | (show List.contains _ _ = true; rfl)

theorem execSupervisionRun_ev (hF : sub [.cams] H = true) (h : Evolves H s0 s) (p : Nat) (e : execSupervisionRun p s = .next
    sNext) : Evolves H s0 sNext := by
  refine ev_mono hF h ?_
  unfold execSupervisionRun at e
  cases e
  repeat' first
      | (with_reducible first
          | exact ev_refl _ _ | assumption | apply doSupervisionRun_ev | refine ev_ite ?_ ?_ | refine ev_fst (by assumption) ?_
          | refine ev_snd (by assumption) ?_)
      | (show sub _ _ = true; rfl) | (show List.contains _ _ = true; rfl)

theorem execTriggerAssertSend_ev (hF : sub [.pins, .regs, .cfgB, .ldr, .queues, .readPorts, .svcStats, .jnl, .rsv, .cams, .jmem,
    .out, .freeCount] H = true) (h : Evolves H s0 s) (p : Nat) (e : execTriggerAssertSend p s = .next sNext) : Evolves H s0
    sNext := by
  refine ev_mono hF h ?_
  unfold execTriggerAssertSend at e
  cases e
  repeat' first
      | (with_reducible first
          | exact ev_refl _ _ | assumption | apply doTriggerAssert_ev | refine ev_ite ?_ ?_ | refine ev_fst (by assumption) ?_
          | refine ev_snd (by assumption) ?_)
      | (show sub _ _ = true; rfl) | (show List.contains _ _ = true; rfl)

theorem execTriggerReleaseSend_ev (hF : sub [.pins, .cams, .out] H = true) (h : Evolves H s0 s) (p : Nat) (e :
    execTriggerReleaseSend p s = .next sNext) : Evolves H s0 sNext := by
  refine ev_mono hF h ?_
  unfold execTriggerReleaseSend at e
  cases e
  repeat' first
      | (with_reducible first
          | exact ev_refl _ _ | assumption | apply doTriggerRelease_ev | refine ev_ite ?_ ?_ | refine ev_fst (by assumption) ?_
          | refine ev_snd (by assumption) ?_)
      | (show sub _ _ = true; rfl) | (show List.contains _ _ = true; rfl)

theorem missTrigger_ev (hF : sub [.regs, .queues, .readPorts, .svcStats, .jnl, .cams] H = true) (h : Evolves H s0 s) (p : Nat) :
    Evolves H s0 (missTrigger p s) := by
  refine ev_mono hF h ?_
  unfold missTrigger
  repeat' first
      | (with_reducible first
          | exact ev_refl _ _ | assumption | apply setCam_ev | apply trigErr_ev | refine ev_ite ?_ ?_
          | refine ev_fst (by assumption) ?_ | refine ev_snd (by assumption) ?_)
      | (show sub _ _ = true; rfl) | (show List.contains _ _ = true) | dsimp only | split

theorem execTriggerWindowExpire_ev (hF : sub [.regs, .cfgB, .ldr, .queues, .readPorts, .svcStats, .jnl, .rsv, .cams, .frames,
    .running, .jmem, .freeCount] H = true) (h : Evolves H s0 s) (p : Nat) (e : execTriggerWindowExpire p s = .next sNext) :
    Evolves H s0 sNext := by
  refine ev_mono hF h ?_
  unfold execTriggerWindowExpire at e
  cases e
  repeat' first
      | (with_reducible first
          | exact ev_refl _ _ | assumption | apply checkSwap_ev | apply kickSlices_ev | apply missTrigger_ev
          | refine ev_ite ?_ ?_ | refine ev_fst (by assumption) ?_ | refine ev_snd (by assumption) ?_)
      | (show sub _ _ = true; rfl) | (show List.contains _ _ = true; rfl)

theorem execWaitlockTimeout_ev (hF : sub [.cams] H = true) (h : Evolves H s0 s) (p : Nat) (e : execWaitlockTimeout p s = .next
    sNext) : Evolves H s0 sNext := by
  refine ev_mono hF h ?_
  unfold execWaitlockTimeout at e
  cases e
  repeat' first
      | (with_reducible first
          | exact ev_refl _ _ | assumption | apply doWaitlockTimeout_ev | refine ev_ite ?_ ?_ | refine ev_fst (by assumption) ?_
          | refine ev_snd (by assumption) ?_)
      | (show sub _ _ = true; rfl) | (show List.contains _ _ = true; rfl)

end Sys2Proof.Machine
end

