-- ==== Sys2Proof/Laws/EvTwoWire.lean ====
section
/-! SUPPORT. What each function of Machine/TwoWire.lean changes: one lemma per function, its footprint first. -/

namespace Sys2Proof.Machine
open Sys2Proof

set_option linter.unusedTactic false
set_option linter.unreachableTactic false
set_option linter.unusedVariables false

variable {H : List StateField} {s0 s sNext : State}

theorem tableStore_ev (hF : sub [.regs, .ram] H = true) (h : Evolves H s0 s) (o : Orig) (a : Nat) (bytes : List (Option Nat)) :
    Evolves H s0 (tableStore o a bytes s) := by
  refine ev_mono hF h ?_
  unfold tableStore
  repeat' first
      | (with_reducible first
          | exact ev_refl _ _ | assumption | apply each_ev | apply mapMiss_ev | apply deny_ev | apply tableWrite_ev
          | refine ev_ite ?_ ?_ | refine ev_fst (by assumption) ?_ | refine ev_snd (by assumption) ?_ | intro _ _ _ | intro _ _)
      | (show sub _ _ = true; rfl) | (show List.contains _ _ = true) | dsimp only | split

theorem arbLost_ev (hF : sub [.regs] H = true) (h : Evolves H s0 s) (i : Nat) (at_ : Nat × Nat) : Evolves H s0 (arbLost i at_ s)
    := by
  refine ev_mono hF h ?_
  unfold arbLost
  repeat' first
      | (with_reducible first
          | exact ev_refl _ _ | assumption | apply wr_ev | apply inc_ev | refine ev_ite ?_ ?_ | refine ev_fst (by assumption) ?_
          | refine ev_snd (by assumption) ?_)
      | (show sub _ _ = true; rfl) | (show List.contains _ _ = true; rfl)

theorem setWanted_ev (hF : sub [.brg] H = true) (h : Evolves H s0 s) (t : Nat) (x : Nat × Nat) : Evolves H s0 (setWanted t x s)
    := by
  refine ev_mono hF h ?_
  unfold setWanted
  repeat' first
      | (with_reducible first
          | exact ev_refl _ _ | assumption | refine ev_ite ?_ ?_ | refine ev_fst (by assumption) ?_
          | refine ev_snd (by assumption) ?_)
      | (show sub _ _ = true) | (show List.contains _ _ = true; rfl) | dsimp only | split | (with_reducible apply ev_brg)

theorem doAlertResponse_ev (hF : sub [.pins, .regs, .out] H = true) (h : Evolves H s0 s) (t : Nat) (lost : Option (Nat × Nat)) :
    Evolves H s0 (doAlertResponse t lost s) := by
  refine ev_mono hF h ?_
  unfold doAlertResponse
  repeat' first
      | (with_reducible first
          | exact ev_refl _ _ | assumption | apply wr_ev | apply emit_ev | apply arbLost_ev | refine ev_ite ?_ ?_
          | refine ev_fst (by assumption) ?_ | refine ev_snd (by assumption) ?_)
      | (show sub _ _ = true; rfl) | (show List.contains _ _ = true; rfl) | dsimp only | split | (with_reducible apply ev_pins)

theorem loopDone_ev (hF : sub [.loops] H = true) (h : Evolves H s0 s) (c : Nat) (cause : Nat) : Evolves H s0 (loopDone c cause
    s) := by
  refine ev_mono hF h ?_
  unfold loopDone
  repeat' first
      | (with_reducible first
          | exact ev_refl _ _ | assumption | apply setLoop_ev | refine ev_ite ?_ ?_ | refine ev_fst (by assumption) ?_
          | refine ev_snd (by assumption) ?_)
      | (show sub _ _ = true; rfl) | (show List.contains _ _ = true) | dsimp only | split

theorem vcoreFail_ev (hF : sub [.regs, .queues, .readPorts, .svcStats, .jnl, .vcore] H = true) (h : Evolves H s0 s)  : Evolves H
    s0 (vcoreFail s) := by
  refine ev_mono hF h ?_
  unfold vcoreFail
  repeat' first
      | (with_reducible first
          | exact ev_refl _ _ | assumption | apply wr_ev | apply recordError_ev | refine ev_ite ?_ ?_
          | refine ev_fst (by assumption) ?_ | refine ev_snd (by assumption) ?_)
      | (show sub _ _ = true; rfl) | (show List.contains _ _ = true; rfl) | dsimp only | split | (with_reducible apply ev_vcore)

theorem vcoreTxn_ev (hF : sub [.twbs] H = true) (h : Evolves H s0 s) (step : Nat) (wr : List Nat) (rdLen : Nat) : Evolves H s0
    (vcoreTxn step wr rdLen s) := by
  refine ev_mono hF h ?_
  unfold vcoreTxn
  repeat' first
      | (with_reducible first
          | exact ev_refl _ _ | assumption | apply queueTxn_ev | refine ev_ite ?_ ?_ | refine ev_fst (by assumption) ?_
          | refine ev_snd (by assumption) ?_)
      | (show sub _ _ = true; rfl) | (show List.contains _ _ = true) | dsimp only | split

theorem vcoreOn_ev (hF : sub [.twbs] H = true) (h : Evolves H s0 s)  : Evolves H s0 (vcoreOn s) := by
  refine ev_mono hF h ?_
  unfold vcoreOn
  repeat' first
      | (with_reducible first
          | exact ev_refl _ _ | assumption | apply vcoreTxn_ev | refine ev_ite ?_ ?_ | refine ev_fst (by assumption) ?_
          | refine ev_snd (by assumption) ?_)
      | (show sub _ _ = true; rfl) | (show List.contains _ _ = true) | dsimp only | split

theorem vcoreDone_ev (hF : sub [.regs, .queues, .readPorts, .svcStats, .jnl, .twbs, .vcore] H = true) (h : Evolves H s0 s) (step
    : Nat) (cause : Nat) (data : List Nat) : Evolves H s0 (vcoreDone step cause data s) := by
  refine ev_mono hF h ?_
  unfold vcoreDone
  repeat' first
      | (with_reducible first
          | exact ev_refl _ _ | assumption | apply wr_ev | apply vcoreFail_ev | apply vcoreOn_ev | refine ev_ite ?_ ?_
          | refine ev_fst (by assumption) ?_ | refine ev_snd (by assumption) ?_)
      | (show sub _ _ = true; rfl) | (show List.contains _ _ = true; rfl) | dsimp only | split | (with_reducible apply ev_vcore)

theorem txnResult_ev (hF : sub [.pins, .regs, .queues, .readPorts, .svcStats, .jnl, .cams, .twbs, .frames, .running, .weaves,
    .pwrs, .brg, .loops, .vcore, .out] H = true) (h : Evolves H s0 s) (o : TxnOwner) (cause : Nat) (data : List Nat) : Evolves H
    s0 (txnResult o cause data s) := by
  refine ev_mono hF h ?_
  unfold txnResult
  repeat' first
      | (with_reducible first
          | exact ev_refl _ _ | assumption | apply bridgeTxnDone_ev | apply loopDone_ev | apply scriptTransferDone_ev
          | apply vcoreDone_ev | refine ev_ite ?_ ?_ | refine ev_fst (by assumption) ?_ | refine ev_snd (by assumption) ?_)
      | (show sub _ _ = true; rfl) | (show List.contains _ _ = true) | dsimp only | split

theorem doBusStuckRecovery_ev (hF : sub [.pins, .regs, .queues, .readPorts, .svcStats, .jnl, .cams, .twbs, .frames, .running,
    .weaves, .pwrs, .brg, .loops, .vcore, .out] H = true) (h : Evolves H s0 s) (i : Nat) (recovered : Bool) : Evolves H s0
    (doBusStuckRecovery i recovered s) := by
  refine ev_mono hF h ?_
  unfold doBusStuckRecovery
  repeat' first
      | (with_reducible first
          | exact ev_refl _ _ | assumption | apply wr_ev | apply inc_ev | apply setTwb_ev | apply txnResult_ev
          | refine ev_ite ?_ ?_ | refine ev_fst (by assumption) ?_ | refine ev_snd (by assumption) ?_)
      | (show sub _ _ = true; rfl) | (show List.contains _ _ = true) | dsimp only | split

theorem doExpRegWrite_ev (hF : sub [.twbs, .loops, .freeCount] H = true) (h : Evolves H s0 s) (c : Nat) : Evolves H s0
    (doExpRegWrite c s) := by
  refine ev_mono hF h ?_
  unfold doExpRegWrite
  repeat' first
      | (with_reducible first
          | exact ev_refl _ _ | assumption | apply queueTxn_ev | apply setLoop_ev | refine ev_ite ?_ ?_
          | refine ev_fst (by assumption) ?_ | refine ev_snd (by assumption) ?_)
      | (with_reducible first
          | exact Nat.le_add_right _ _ | exact le_rfl)
      | (show sub _ _ = true; rfl) | (show List.contains _ _ = true; rfl) | dsimp only | split
      | (with_reducible apply ev_freeCount)

theorem loopUpdate_ev (hF : sub [.loops, .freeCount] H = true) (h : Evolves H s0 s) (c : Nat) (v : List Nat) (bs : List Nat) :
    Evolves H s0 (loopUpdate c v bs s) := by
  refine ev_mono hF h ?_
  unfold loopUpdate
  repeat' first
      | (with_reducible first
          | exact ev_refl _ _ | assumption | apply setLoop_ev | refine ev_ite ?_ ?_ | refine ev_fst (by assumption) ?_
          | refine ev_snd (by assumption) ?_)
      | (with_reducible first
          | exact Nat.le_add_right _ _ | exact le_rfl)
      | (show sub _ _ = true; rfl) | (show List.contains _ _ = true; rfl) | dsimp only | split
      | (with_reducible apply ev_freeCount)

theorem doExposureLoopUpdate_ev (hF : sub [.svcStats, .loops, .freeCount] H = true) (h : Evolves H s0 s)  : Evolves H s0
    (doExposureLoopUpdate s) := by
  refine ev_mono hF h ?_
  unfold doExposureLoopUpdate
  repeat' first
      | (with_reducible first
          | exact ev_refl _ _ | assumption | apply loopUpdate_ev | refine ev_ite ?_ ?_ | refine ev_fst (by assumption) ?_
          | refine ev_snd (by assumption) ?_)
      | (show sub _ _ = true; rfl) | (show List.contains _ _ = true; rfl) | dsimp only | split
      | (with_reducible apply ev_svcStats)

theorem doLiveBlockWrite_ev (hF : sub [.regs, .cfgB, .liveB, .loops] H = true) (h : Evolves H s0 s) (c : Nat) : Evolves H s0
    (doLiveBlockWrite c s) := by
  refine ev_mono hF h ?_
  unfold doLiveBlockWrite
  repeat' first
      | (with_reducible first
          | exact ev_refl _ _ | assumption | apply liveWrite_ev | apply setLoop_ev | refine ev_ite ?_ ?_
          | refine ev_fst (by assumption) ?_ | refine ev_snd (by assumption) ?_)
      | (show sub _ _ = true; rfl) | (show List.contains _ _ = true) | dsimp only | split

theorem endTxn_ev (hF : sub [.pins, .regs, .queues, .readPorts, .svcStats, .jnl, .cams, .twbs, .frames, .running, .weaves,
    .pwrs, .brg, .loops, .vcore, .out] H = true) (h : Evolves H s0 s) (i : Nat) (state : Nat) (cause : Nat) (data : List Nat) :
    Evolves H s0 (endTxn i state cause data s) := by
  refine ev_mono hF h ?_
  unfold endTxn
  repeat' first
      | (with_reducible first
          | exact ev_refl _ _ | assumption | apply wr_ev | apply setTwb_ev | apply txnResult_ev | refine ev_ite ?_ ?_
          | refine ev_fst (by assumption) ?_ | refine ev_snd (by assumption) ?_)
      | (show sub _ _ = true; rfl) | (show List.contains _ _ = true) | dsimp only | split

theorem doStretchTimeout_ev (hF : sub [.pins, .regs, .queues, .readPorts, .svcStats, .jnl, .cams, .twbs, .frames, .running,
    .weaves, .pwrs, .brg, .loops, .vcore, .out] H = true) (h : Evolves H s0 s) (i : Nat) : Evolves H s0 (doStretchTimeout i s)
    := by
  refine ev_mono hF h ?_
  unfold doStretchTimeout
  repeat' first
      | (with_reducible first
          | exact ev_refl _ _ | assumption | apply wr_ev | apply inc_ev | apply endTxn_ev | refine ev_ite ?_ ?_
          | refine ev_fst (by assumption) ?_ | refine ev_snd (by assumption) ?_)
      | (show sub _ _ = true; rfl) | (show List.contains _ _ = true; rfl)

theorem doTargetDataTimeout_ev (hF : sub [.brg, .out] H = true) (h : Evolves H s0 s) (t : Nat) : Evolves H s0
    (doTargetDataTimeout t s) := by
  refine ev_mono hF h ?_
  unfold doTargetDataTimeout
  repeat' first
      | (with_reducible first
          | exact ev_refl _ _ | assumption | apply emit_ev | apply putAcc_ev | refine ev_ite ?_ ?_
          | refine ev_fst (by assumption) ?_ | refine ev_snd (by assumption) ?_)
      | (show sub _ _ = true; rfl) | (show List.contains _ _ = true) | dsimp only | split

theorem doTargetSelfReset_ev (hF : sub [.regs, .queues, .readPorts, .svcStats, .jnl, .brg] H = true) (h : Evolves H s0 s) (t :
    Nat) : Evolves H s0 (doTargetSelfReset t s) := by
  refine ev_mono hF h ?_
  unfold doTargetSelfReset
  repeat' first
      | (with_reducible first
          | exact ev_refl _ _ | assumption | apply inc_ev | apply recordError_ev | apply putAcc_ev | apply setWanted_ev
          | refine ev_ite ?_ ?_ | refine ev_fst (by assumption) ?_ | refine ev_snd (by assumption) ?_)
      | (show sub _ _ = true; rfl) | (show List.contains _ _ = true) | dsimp only | split

theorem doTransactionDone_ev (hF : sub [.pins, .regs, .queues, .readPorts, .svcStats, .jnl, .cams, .twbs, .frames, .running,
    .weaves, .pwrs, .brg, .loops, .vcore, .out] H = true) (h : Evolves H s0 s) (i : Nat) (ack : Bool) (data : List Nat) :
    Evolves H s0 (doTransactionDone i ack data s) := by
  refine ev_mono hF h ?_
  unfold doTransactionDone
  repeat' first
      | (with_reducible first
          | exact ev_refl _ _ | assumption | apply wr_ev | apply inc_ev | apply endTxn_ev | refine ev_ite ?_ ?_
          | refine ev_fst (by assumption) ?_ | refine ev_snd (by assumption) ?_)
      | (show sub _ _ = true; rfl) | (show List.contains _ _ = true; rfl)

theorem doTransactionStart_ev (hF : sub [.pins, .regs, .queues, .readPorts, .svcStats, .jnl, .cams, .twbs, .frames, .running,
    .weaves, .pwrs, .brg, .loops, .vcore, .out] H = true) (h : Evolves H s0 s) (i : Nat) (free : Bool) (lost : Option (Nat ×
    Nat)) : Evolves H s0 (doTransactionStart i free lost s) := by
  refine ev_mono hF h ?_
  unfold doTransactionStart
  repeat' first
      | (with_reducible first
          | exact ev_refl _ _ | assumption | apply wr_ev | apply recordError_ev | apply emit_ev | apply arbLost_ev
          | apply setTwb_ev | apply txnResult_ev | refine ev_ite ?_ ?_ | refine ev_fst (by assumption) ?_
          | refine ev_snd (by assumption) ?_)
      | (show sub _ _ = true; rfl) | (show List.contains _ _ = true) | dsimp only | split

theorem noteTj_ev (hF : sub [.regs] H = true) (h : Evolves H s0 s) (tj : Nat) : Evolves H s0 (noteTj tj s) := by
  refine ev_mono hF h ?_
  unfold noteTj
  repeat' first
      | (with_reducible first
          | exact ev_refl _ _ | assumption | apply wr_ev | refine ev_ite ?_ ?_ | refine ev_fst (by assumption) ?_
          | refine ev_snd (by assumption) ?_)
      | (show sub _ _ = true; rfl) | (show List.contains _ _ = true; rfl)

theorem doVcoreAdjust_ev (hF : sub [.regs, .twbs, .vcore] H = true) (h : Evolves H s0 s) (mv : Nat) (tj : Nat) : Evolves H s0
    (doVcoreAdjust mv tj s) := by
  refine ev_mono hF h ?_
  unfold doVcoreAdjust
  repeat' first
      | (with_reducible first
          | exact ev_refl _ _ | assumption | apply vcoreTxn_ev | apply vcoreOn_ev | apply noteTj_ev | refine ev_ite ?_ ?_
          | refine ev_fst (by assumption) ?_ | refine ev_snd (by assumption) ?_)
      | (show sub _ _ = true; rfl) | (show List.contains _ _ = true; rfl) | dsimp only | split | (with_reducible apply ev_vcore)

theorem doWakeAddress_ev (hF : sub [.regs, .mnt] H = true) (h : Evolves H s0 s) (t : Nat) : Evolves H s0 (doWakeAddress t s) :=
    by
  refine ev_mono hF h ?_
  unfold doWakeAddress
  repeat' first
      | (with_reducible first
          | exact ev_refl _ _ | assumption | apply wr_ev | apply inc_ev | apply askWake_ev | refine ev_ite ?_ ?_
          | refine ev_fst (by assumption) ?_ | refine ev_snd (by assumption) ?_)
      | (show sub _ _ = true; rfl) | (show List.contains _ _ = true; rfl)

theorem execAlertResponse_ev (hF : sub [.pins, .regs, .out] H = true) (h : Evolves H s0 s) (t : Nat) (lost : Option (Nat × Nat))
    (e : execAlertResponse t lost s = .next sNext) : Evolves H s0 sNext := by
  refine ev_mono hF h ?_
  unfold execAlertResponse at e
  cases e
  repeat' first
      | (with_reducible first
          | exact ev_refl _ _ | assumption | apply doAlertResponse_ev | refine ev_ite ?_ ?_ | refine ev_fst (by assumption) ?_
          | refine ev_snd (by assumption) ?_)
      | (show sub _ _ = true; rfl) | (show List.contains _ _ = true; rfl)

theorem execEvcArrayEcc_ev (hF : sub [.pins, .regs, .cfgB, .queues, .readPorts, .hostPorts, .svcStats, .jnl, .rsv, .frames,
    .running, .syncs, .outs, .txs, .chans, .outFlows, .rly, .mnt, .pwms, .folds, .jmem, .out] H = true) (h : Evolves H s0 s)
    (src : Nat) (t : Nat) (e : execEvcArrayEcc src t s = .next sNext) : Evolves H s0 sNext := by
  refine ev_mono hF h ?_
  unfold execEvcArrayEcc at e
  cases e
  repeat' first
      | (with_reducible first
          | exact ev_refl _ _ | assumption | apply fatalError_ev | refine ev_ite ?_ ?_ | refine ev_fst (by assumption) ?_
          | refine ev_snd (by assumption) ?_)
      | (show sub _ _ = true; rfl) | (show List.contains _ _ = true; rfl)

theorem execExpRegWrite_ev (hF : sub [.twbs, .loops, .freeCount] H = true) (h : Evolves H s0 s) (c : Nat) (e : execExpRegWrite c
    s = .next sNext) : Evolves H s0 sNext := by
  refine ev_mono hF h ?_
  unfold execExpRegWrite at e
  cases e
  repeat' first
      | (with_reducible first
          | exact ev_refl _ _ | assumption | apply doExpRegWrite_ev | refine ev_ite ?_ ?_ | refine ev_fst (by assumption) ?_
          | refine ev_snd (by assumption) ?_)
      | (show sub _ _ = true; rfl) | (show List.contains _ _ = true; rfl)

theorem execExposureLoopUpdate_ev (hF : sub [.svcStats, .loops, .freeCount] H = true) (h : Evolves H s0 s) (e :
    execExposureLoopUpdate s = .next sNext) : Evolves H s0 sNext := by
  refine ev_mono hF h ?_
  unfold execExposureLoopUpdate at e
  cases e
  repeat' first
      | (with_reducible first
          | exact ev_refl _ _ | assumption | apply doExposureLoopUpdate_ev | refine ev_ite ?_ ?_
          | refine ev_fst (by assumption) ?_ | refine ev_snd (by assumption) ?_)
      | (show sub _ _ = true; rfl) | (show List.contains _ _ = true; rfl)

theorem execLiveBlockWrite_ev (hF : sub [.regs, .cfgB, .liveB, .loops] H = true) (h : Evolves H s0 s) (c : Nat) (e :
    execLiveBlockWrite c s = .next sNext) : Evolves H s0 sNext := by
  refine ev_mono hF h ?_
  unfold execLiveBlockWrite at e
  cases e
  repeat' first
      | (with_reducible first
          | exact ev_refl _ _ | assumption | apply doLiveBlockWrite_ev | refine ev_ite ?_ ?_ | refine ev_fst (by assumption) ?_
          | refine ev_snd (by assumption) ?_)
      | (show sub _ _ = true; rfl) | (show List.contains _ _ = true; rfl)

theorem execOvertemperature_ev (hF : sub [.pins, .regs, .cfgB, .queues, .readPorts, .hostPorts, .svcStats, .jnl, .rsv, .frames,
    .running, .syncs, .outs, .txs, .chans, .outFlows, .rly, .mnt, .pwms, .folds, .jmem, .out] H = true) (h : Evolves H s0 s) (tj
    : Nat) (e : execOvertemperature tj s = .next sNext) : Evolves H s0 sNext := by
  refine ev_mono hF h ?_
  unfold execOvertemperature at e
  cases e
  repeat' first
      | (with_reducible first
          | exact ev_refl _ _ | assumption | apply fatalError_ev | apply noteTj_ev | refine ev_ite ?_ ?_
          | refine ev_fst (by assumption) ?_ | refine ev_snd (by assumption) ?_)
      | (show sub _ _ = true; rfl) | (show List.contains _ _ = true; rfl)

theorem execSupplyFault_ev (hF : sub [.pins, .regs, .cfgB, .queues, .readPorts, .hostPorts, .svcStats, .jnl, .rsv, .frames,
    .running, .syncs, .outs, .txs, .chans, .outFlows, .rly, .mnt, .pwms, .folds, .jmem, .out] H = true) (h : Evolves H s0 s) (e
    : execSupplyFault s = .next sNext) : Evolves H s0 sNext := by
  refine ev_mono hF h ?_
  unfold execSupplyFault at e
  cases e
  repeat' first
      | (with_reducible first
          | exact ev_refl _ _ | assumption | apply fatalError_ev | refine ev_ite ?_ ?_ | refine ev_fst (by assumption) ?_
          | refine ev_snd (by assumption) ?_)
      | (show sub _ _ = true; rfl) | (show List.contains _ _ = true; rfl)

theorem execTableMemoryWrite_ev (hF : sub [.regs, .ram] H = true) (h : Evolves H s0 s) (o : Orig) (a : Nat) (bytes : List
    (Option Nat)) (e : execTableMemoryWrite o a bytes s = .next sNext) : Evolves H s0 sNext := by
  refine ev_mono hF h ?_
  unfold execTableMemoryWrite at e
  cases e
  repeat' first
      | (with_reducible first
          | exact ev_refl _ _ | assumption | apply tableStore_ev | refine ev_ite ?_ ?_ | refine ev_fst (by assumption) ?_
          | refine ev_snd (by assumption) ?_)
      | (show sub _ _ = true; rfl) | (show List.contains _ _ = true; rfl)

theorem execTargetSelfReset_ev (hF : sub [.regs, .queues, .readPorts, .svcStats, .jnl, .brg] H = true) (h : Evolves H s0 s) (t :
    Nat) (e : execTargetSelfReset t s = .next sNext) : Evolves H s0 sNext := by
  refine ev_mono hF h ?_
  unfold execTargetSelfReset at e
  cases e
  repeat' first
      | (with_reducible first
          | exact ev_refl _ _ | assumption | apply doTargetSelfReset_ev | refine ev_ite ?_ ?_ | refine ev_fst (by assumption) ?_
          | refine ev_snd (by assumption) ?_)
      | (show sub _ _ = true; rfl) | (show List.contains _ _ = true; rfl)

theorem execVcoreAdjust_ev (hF : sub [.regs, .twbs, .vcore] H = true) (h : Evolves H s0 s) (mv : Nat) (tj : Nat) (e :
    execVcoreAdjust mv tj s = .next sNext) : Evolves H s0 sNext := by
  refine ev_mono hF h ?_
  unfold execVcoreAdjust at e
  cases e
  repeat' first
      | (with_reducible first
          | exact ev_refl _ _ | assumption | apply doVcoreAdjust_ev | refine ev_ite ?_ ?_ | refine ev_fst (by assumption) ?_
          | refine ev_snd (by assumption) ?_)
      | (show sub _ _ = true; rfl) | (show List.contains _ _ = true; rfl)

theorem execWakeAddress_ev (hF : sub [.regs, .mnt] H = true) (h : Evolves H s0 s) (t : Nat) (e : execWakeAddress t s = .next
    sNext) : Evolves H s0 sNext := by
  refine ev_mono hF h ?_
  unfold execWakeAddress at e
  cases e
  repeat' first
      | (with_reducible first
          | exact ev_refl _ _ | assumption | apply doWakeAddress_ev | refine ev_ite ?_ ?_ | refine ev_fst (by assumption) ?_
          | refine ev_snd (by assumption) ?_)
      | (show sub _ _ = true; rfl) | (show List.contains _ _ = true; rfl)

end Sys2Proof.Machine
end

