-- ==== Sys2Proof/Laws/EvGlb.lean ====
section
/-! SUPPORT. What each function of Machine/Glb.lean changes: one lemma per function, its footprint first. -/

namespace Sys2Proof.Machine
open Sys2Proof

set_option linter.unusedTactic false
set_option linter.unreachableTactic false
set_option linter.unusedVariables false

variable {H : List StateField} {s0 s sNext : State}

theorem islandWear_ev (hF : sub [.regs, .queues, .readPorts, .svcStats, .jnl] H = true) (h : Evolves H s0 s)  : Evolves H s0
    (islandWear s) := by
  refine ev_mono hF h ?_
  unfold islandWear
  repeat' first
      | (with_reducible first
          | exact ev_refl _ _ | assumption | apply recordError_ev | refine ev_ite ?_ ?_ | refine ev_fst (by assumption) ?_
          | refine ev_snd (by assumption) ?_)
      | (show sub _ _ = true; rfl) | (show List.contains _ _ = true; rfl)

theorem crossingWear_ev (hF : sub [.pins, .regs, .cfgB, .cfgA, .cfgO, .liveB, .ldr, .queues, .readPorts, .svcStats, .jnl, .rsv,
    .holds, .jmem, .out] H = true) (h : Evolves H s0 s) (dst : Nat) (pair : Nat) : Evolves H s0 (crossingWear dst pair s) := by
  refine ev_mono hF h ?_
  unfold crossingWear
  repeat' first
      | (with_reducible first
          | exact ev_refl _ _ | assumption | apply islandWear_ev | apply wearSignal_ev | refine ev_ite ?_ ?_
          | refine ev_fst (by assumption) ?_ | refine ev_snd (by assumption) ?_)
      | (show sub _ _ = true; rfl) | (show List.contains _ _ = true; rfl)

theorem doCheckpointWrite_ev (hF : sub [.chkAt, .checkpoint] H = true) (h : Evolves H s0 s)  : Evolves H s0 (doCheckpointWrite
    s) := by
  refine ev_mono hF h ?_
  unfold doCheckpointWrite
  repeat' first
      | (with_reducible first
          | exact ev_refl _ _ | assumption | refine ev_ite ?_ ?_ | refine ev_fst (by assumption) ?_
          | refine ev_snd (by assumption) ?_)
      | (with_reducible first
          | exact Nat.le_add_right _ _ | exact le_rfl)
      | (show sub _ _ = true) | (show List.contains _ _ = true; rfl) | dsimp only | split
      | (with_reducible apply ev_chkAt_checkpoint)

theorem doLockstepMismatch_ev (hF : sub [.pins, .regs, .cfgB, .queues, .readPorts, .hostPorts, .svcStats, .jnl, .rsv, .frames,
    .running, .syncs, .outs, .txs, .chans, .outFlows, .rly, .mnt, .pwms, .folds, .jmem, .out] H = true) (h : Evolves H s0 s)
    (pair : Nat) : Evolves H s0 (doLockstepMismatch pair s) := by
  refine ev_mono hF h ?_
  unfold doLockstepMismatch
  repeat' first
      | (with_reducible first
          | exact ev_refl _ _ | assumption | apply wr_ev | apply recordError_ev | apply fatalError_ev | refine ev_ite ?_ ?_
          | refine ev_fst (by assumption) ?_ | refine ev_snd (by assumption) ?_)
      | (show sub _ _ = true; rfl) | (show List.contains _ _ = true; rfl)

theorem loseLine_ev (hF : sub [.frames, .running] H = true) (h : Evolves H s0 s) (c : Nat) (k : Nat) : Evolves H s0 (loseLine c
    k s) := by
  refine ev_mono hF h ?_
  unfold loseLine
  repeat' first
      | (with_reducible first
          | exact ev_refl _ _ | assumption | apply putFrame_ev | refine ev_ite ?_ ?_ | refine ev_fst (by assumption) ?_
          | refine ev_snd (by assumption) ?_)
      | (show sub _ _ = true; rfl) | (show List.contains _ _ = true; rfl) | dsimp only | split
      | (with_reducible apply ev_running)

theorem restartMac_ev (hF : sub [.regs, .queues, .readPorts, .svcStats, .jnl] H = true) (h : Evolves H s0 s) (p : Nat) : Evolves
    H s0 (restartMac p s) := by
  refine ev_mono hF h ?_
  unfold restartMac
  repeat' first
      | (with_reducible first
          | exact ev_refl _ _ | assumption | apply wr_ev | apply recordError_ev | refine ev_ite ?_ ?_
          | refine ev_fst (by assumption) ?_ | refine ev_snd (by assumption) ?_)
      | (show sub _ _ = true; rfl) | (show List.contains _ _ = true; rfl)

theorem restartTx_ev (hF : sub [.regs, .txs] H = true) (h : Evolves H s0 s) (p : Nat) : Evolves H s0 (restartTx p s) := by
  refine ev_mono hF h ?_
  unfold restartTx
  repeat' first
      | (with_reducible first
          | exact ev_refl _ _ | assumption | apply wr_ev | apply setTx_ev | refine ev_ite ?_ ?_
          | refine ev_fst (by assumption) ?_ | refine ev_snd (by assumption) ?_)
      | (show sub _ _ = true; rfl) | (show List.contains _ _ = true; rfl)

theorem recoverIsland_ev (hF : sub [.pins, .regs, .cfgB, .ldr, .queues, .readPorts, .hostPorts, .svcStats, .jnl, .rsv, .cams,
    .frames, .running, .syncs, .outs, .doneKeys, .holds, .txs, .chans, .weaves, .outFlows, .fab, .rly, .mnt, .time, .mot, .pwms,
    .folds, .jmem, .out, .freeCount] H = true) (h : Evolves H s0 s) (dst : Nat) (pair : Nat) (lost : List (Nat × Nat)) : Evolves
    H s0 (recoverIsland dst pair lost s) := by
  refine ev_mono hF h ?_
  unfold recoverIsland
  repeat' first
      | (with_reducible first
          | exact ev_refl _ _ | assumption | apply each_ev | apply linkDown_ev | apply loseChannel_ev | apply parkPort_ev
          | apply kickSlices_ev | apply doLockstepMismatch_ev | apply linkLoss_ev | apply loseLine_ev | apply parkHost_ev
          | apply restartMac_ev | apply restartTx_ev | refine ev_ite ?_ ?_ | refine ev_fst (by assumption) ?_
          | refine ev_snd (by assumption) ?_ | intro _ _ _ | intro _ _)
      | (show sub _ _ = true; rfl) | (show List.contains _ _ = true; rfl)

theorem doCrossingTimeout_ev (hF : sub [.pins, .regs, .cfgB, .cfgA, .cfgO, .liveB, .ldr, .queues, .readPorts, .hostPorts,
    .svcStats, .jnl, .rsv, .cams, .frames, .running, .syncs, .outs, .doneKeys, .holds, .txs, .chans, .weaves, .outFlows, .fab,
    .rly, .mnt, .time, .mot, .pwms, .folds, .jmem, .out, .freeCount] H = true) (h : Evolves H s0 s) (src : Nat) (dst : Nat)
    (pair : Nat) (lost : List (Nat × Nat)) : Evolves H s0 (doCrossingTimeout src dst pair lost s) := by
  refine ev_mono hF h ?_
  unfold doCrossingTimeout
  repeat' first
      | (with_reducible first
          | exact ev_refl _ _ | assumption | apply wr_ev | apply inc_ev | apply recordError_ev | apply fatalError_ev
          | apply crossingWear_ev | apply wearRecord_ev | apply recoverIsland_ev | refine ev_ite ?_ ?_
          | refine ev_fst (by assumption) ?_ | refine ev_snd (by assumption) ?_)
      | (show sub _ _ = true; rfl) | (show List.contains _ _ = true; rfl)

theorem doPllLossOfLock_ev (hF : sub [.pins, .regs, .cfgB, .cfgA, .cfgO, .liveB, .ldr, .queues, .readPorts, .hostPorts,
    .svcStats, .jnl, .rsv, .frames, .running, .syncs, .outs, .holds, .txs, .chans, .outFlows, .rly, .mnt, .pwms, .folds, .jmem,
    .out] H = true) (h : Evolves H s0 s) (i : Nat) : Evolves H s0 (doPllLossOfLock i s) := by
  refine ev_mono hF h ?_
  unfold doPllLossOfLock
  repeat' first
      | (with_reducible first
          | exact ev_refl _ _ | assumption | apply wr_ev | apply recordError_ev | apply fatalError_ev | apply wearSignal_ev
          | refine ev_ite ?_ ?_ | refine ev_fst (by assumption) ?_ | refine ev_snd (by assumption) ?_)
      | (show sub _ _ = true; rfl) | (show List.contains _ _ = true; rfl)

theorem resumeServices_ev (hF : sub [.ldr, .loops] H = true) (h : Evolves H s0 s) (pairA : Bool) : Evolves H s0 (resumeServices
    pairA s) := by
  refine ev_mono hF h ?_
  unfold resumeServices
  repeat' first
      | (with_reducible first
          | exact ev_refl _ _ | assumption | refine ev_ite ?_ ?_ | refine ev_fst (by assumption) ?_
          | refine ev_snd (by assumption) ?_)
      | (with_reducible first
          | exact Nat.le_add_right _ _ | exact le_rfl
          | (refine fun (c : State.Canonical _) => ?_; repeat' first | exact c.cfgB | exact c.cfgA | exact ⟨c.profSets, c.baseSet⟩ | (apply swf_splice; exact Nat.le_add_right _ _)))
      | (show sub _ _ = true) | (show List.contains _ _ = true; rfl) | dsimp only | split
      | (with_reducible first | apply ev_ldr | apply ev_loops)

theorem doReservePairTakeover_ev (hF : sub [.pins, .regs, .ldr, .queues, .readPorts, .svcStats, .jnl, .rsv, .weaves, .loops,
    .jmem, .out] H = true) (h : Evolves H s0 s)  : Evolves H s0 (doReservePairTakeover s) := by
  refine ev_mono hF h ?_
  unfold doReservePairTakeover
  repeat' first
      | (with_reducible first
          | exact ev_refl _ _ | assumption | apply wr_ev | apply finishRepl_ev | apply doHeartbeatSend_ev
          | apply resumeServices_ev | refine ev_ite ?_ ?_ | refine ev_fst (by assumption) ?_ | refine ev_snd (by assumption) ?_)
      | (show sub _ _ = true; rfl) | (show List.contains _ _ = true) | dsimp only | split

theorem execCheckpointWrite_ev (hF : sub [.chkAt, .checkpoint] H = true) (h : Evolves H s0 s) (e : execCheckpointWrite s = .next
    sNext) : Evolves H s0 sNext := by
  refine ev_mono hF h ?_
  unfold execCheckpointWrite at e
  cases e
  repeat' first
      | (with_reducible first
          | exact ev_refl _ _ | assumption | apply doCheckpointWrite_ev | refine ev_ite ?_ ?_ | refine ev_fst (by assumption) ?_
          | refine ev_snd (by assumption) ?_)
      | (show sub _ _ = true; rfl) | (show List.contains _ _ = true; rfl)

theorem execCrossingTimeout_ev (hF : sub [.pins, .regs, .cfgB, .cfgA, .cfgO, .liveB, .ldr, .queues, .readPorts, .hostPorts,
    .svcStats, .jnl, .rsv, .cams, .frames, .running, .syncs, .outs, .doneKeys, .holds, .txs, .chans, .weaves, .outFlows, .fab,
    .rly, .mnt, .time, .mot, .pwms, .folds, .jmem, .out, .freeCount] H = true) (h : Evolves H s0 s) (src : Nat) (dst : Nat)
    (pair : Nat) (lost : List (Nat × Nat)) (e : execCrossingTimeout src dst pair lost s = .next sNext) : Evolves H s0 sNext :=
    by
  refine ev_mono hF h ?_
  unfold execCrossingTimeout at e
  cases e
  repeat' first
      | (with_reducible first
          | exact ev_refl _ _ | assumption | apply doCrossingTimeout_ev | refine ev_ite ?_ ?_ | refine ev_fst (by assumption) ?_
          | refine ev_snd (by assumption) ?_)
      | (show sub _ _ = true; rfl) | (show List.contains _ _ = true; rfl)

theorem execLockstepMismatch_ev (hF : sub [.pins, .regs, .cfgB, .queues, .readPorts, .hostPorts, .svcStats, .jnl, .rsv, .frames,
    .running, .syncs, .outs, .txs, .chans, .outFlows, .rly, .mnt, .pwms, .folds, .jmem, .out] H = true) (h : Evolves H s0 s)
    (pair : Nat) (e : execLockstepMismatch pair s = .next sNext) : Evolves H s0 sNext := by
  refine ev_mono hF h ?_
  unfold execLockstepMismatch at e
  cases e
  repeat' first
      | (with_reducible first
          | exact ev_refl _ _ | assumption | apply doLockstepMismatch_ev | refine ev_ite ?_ ?_
          | refine ev_fst (by assumption) ?_ | refine ev_snd (by assumption) ?_)
      | (show sub _ _ = true; rfl) | (show List.contains _ _ = true; rfl)

theorem execPllLossOfLock_ev (hF : sub [.pins, .regs, .cfgB, .cfgA, .cfgO, .liveB, .ldr, .queues, .readPorts, .hostPorts,
    .svcStats, .jnl, .rsv, .frames, .running, .syncs, .outs, .holds, .txs, .chans, .outFlows, .rly, .mnt, .pwms, .folds, .jmem,
    .out] H = true) (h : Evolves H s0 s) (i : Nat) (e : execPllLossOfLock i s = .next sNext) : Evolves H s0 sNext := by
  refine ev_mono hF h ?_
  unfold execPllLossOfLock at e
  cases e
  repeat' first
      | (with_reducible first
          | exact ev_refl _ _ | assumption | apply doPllLossOfLock_ev | refine ev_ite ?_ ?_ | refine ev_fst (by assumption) ?_
          | refine ev_snd (by assumption) ?_)
      | (show sub _ _ = true; rfl) | (show List.contains _ _ = true; rfl)

theorem execReservePairTakeover_ev (hF : sub [.pins, .regs, .ldr, .queues, .readPorts, .svcStats, .jnl, .rsv, .weaves, .loops,
    .jmem, .out] H = true) (h : Evolves H s0 s) (e : execReservePairTakeover s = .next sNext) : Evolves H s0 sNext := by
  refine ev_mono hF h ?_
  unfold execReservePairTakeover at e
  cases e
  repeat' first
      | (with_reducible first
          | exact ev_refl _ _ | assumption | apply doReservePairTakeover_ev | refine ev_ite ?_ ?_
          | refine ev_fst (by assumption) ?_ | refine ev_snd (by assumption) ?_)
      | (show sub _ _ = true; rfl) | (show List.contains _ _ = true; rfl)

end Sys2Proof.Machine
end

