-- ==== Sys2Proof/Laws/EvProfile.lean ====
section
/-! SUPPORT. What each function of Machine/Profile.lean changes: one lemma per function, its footprint first. -/

namespace Sys2Proof.Machine
open Sys2Proof

set_option linter.unusedTactic false
set_option linter.unreachableTactic false
set_option linter.unusedVariables false

variable {H : List StateField} {s0 s sNext : State}

theorem profileSwap_ev (hF : sub [.pins, .regs, .cfgB, .cfgA, .cfgO, .liveB, .ldr, .queues, .readPorts, .svcStats, .jnl, .holds,
    .out] H = true) (h : Evolves H s0 s) (p : Nat) : Evolves H s0 (profileSwap p s) := by
  refine ev_mono hF h ?_
  unfold profileSwap
  repeat' first
      | (with_reducible first
          | exact ev_refl _ _ | assumption | apply acceptSwap_ev | apply applyRetirements_ev | apply takeBank_ev
          | apply loadProfileSet_ev | refine ev_ite ?_ ?_ | refine ev_fst (by assumption) ?_ | refine ev_snd (by assumption) ?_)
      | (show sub _ _ = true; rfl) | (show List.contains _ _ = true; rfl)

theorem profileOrWait_ev (hF : sub [.pins, .regs, .cfgB, .cfgA, .cfgO, .liveB, .ldr, .queues, .readPorts, .svcStats, .jnl,
    .holds, .out] H = true) (h : Evolves H s0 s) (p : Nat) : Evolves H s0 (profileOrWait p s) := by
  refine ev_mono hF h ?_
  unfold profileOrWait
  repeat' first
      | (with_reducible first
          | exact ev_refl _ _ | assumption | apply waitBank_ev | apply profileSwap_ev | refine ev_ite ?_ ?_
          | refine ev_fst (by assumption) ?_ | refine ev_snd (by assumption) ?_)
      | (show sub _ _ = true; rfl) | (show List.contains _ _ = true; rfl)

theorem changeProfile_ev (hF : sub [.pins, .regs, .cfgB, .cfgA, .cfgO, .liveB, .ldr, .queues, .readPorts, .svcStats, .jnl,
    .holds, .weaves, .rly, .out] H = true) (h : Evolves H s0 s) (p : Nat) : Evolves H s0 (changeProfile p s) := by
  refine ev_mono hF h ?_
  unfold changeProfile
  repeat' first
      | (with_reducible first
          | exact ev_refl _ _ | assumption | apply sendRelay_ev | apply profileOrWait_ev | refine ev_ite ?_ ?_
          | refine ev_fst (by assumption) ?_ | refine ev_snd (by assumption) ?_)
      | (show sub _ _ = true; rfl) | (show List.contains _ _ = true; rfl) | dsimp only | split | (with_reducible apply ev_rly)

theorem doBastingGrant_ev (hF : sub [.pins, .regs, .cfgB, .cfgA, .cfgO, .liveB, .ldr, .queues, .readPorts, .svcStats, .jnl,
    .rsv, .holds, .out] H = true) (h : Evolves H s0 s)  : Evolves H s0 (doBastingGrant s) := by
  refine ev_mono hF h ?_
  unfold doBastingGrant
  repeat' first
      | (with_reducible first
          | exact ev_refl _ _ | assumption | apply takeBank_ev | apply profileSwap_ev | apply reserveGranted_ev
          | refine ev_ite ?_ ?_ | refine ev_fst (by assumption) ?_ | refine ev_snd (by assumption) ?_)
      | (show sub _ _ = true; rfl) | (show List.contains _ _ = true; rfl)

theorem stopWaiting_ev (hF : sub [.ldr] H = true) (h : Evolves H s0 s)  : Evolves H s0 (stopWaiting s) := by
  refine ev_mono hF h ?_
  unfold stopWaiting
  repeat' first
      | (with_reducible first
          | exact ev_refl _ _ | assumption | refine ev_ite ?_ ?_ | refine ev_fst (by assumption) ?_
          | refine ev_snd (by assumption) ?_)
      | (with_reducible first
          | exact Nat.le_add_right _ _ | exact le_rfl
          | (refine fun (c : State.Canonical _) => ?_; repeat' first | exact c.cfgB | exact c.cfgA | exact ⟨c.profSets, c.baseSet⟩ | (apply swf_splice; exact Nat.le_add_right _ _)))
      | (show sub _ _ = true) | (show List.contains _ _ = true; rfl) | dsimp only | split | (with_reducible apply ev_ldr)

theorem evaluate_ev (hF : sub [.pins, .regs, .cfgB, .cfgA, .cfgO, .liveB, .ldr, .queues, .readPorts, .svcStats, .jnl, .holds,
    .weaves, .rly, .out] H = true) (h : Evolves H s0 s)  : Evolves H s0 (evaluate s) := by
  refine ev_mono hF h ?_
  unfold evaluate
  repeat' first
      | (with_reducible first
          | exact ev_refl _ _ | assumption | apply wr_ev | apply changeProfile_ev | apply stopWaiting_ev | refine ev_ite ?_ ?_
          | refine ev_fst (by assumption) ?_ | refine ev_snd (by assumption) ?_)
      | (with_reducible first
          | exact Nat.le_add_right _ _ | exact le_rfl
          | (refine fun (c : State.Canonical _) => ?_; repeat' first | exact c.regs | exact c.cfgB | exact c.cfgA | exact c.cfgO | exact c.liveB | exact ⟨c.profSets, c.baseSet⟩ | (apply swf_splice; exact Nat.le_add_right _ _)))
      | (show sub _ _ = true; rfl) | (show List.contains _ _ = true; rfl) | dsimp only | split | (with_reducible apply ev_ldr)

theorem doProfileEvaluation_ev (hF : sub [.pins, .regs, .cfgB, .cfgA, .cfgO, .liveB, .ldr, .queues, .readPorts, .svcStats, .jnl,
    .holds, .weaves, .rly, .out] H = true) (h : Evolves H s0 s)  : Evolves H s0 (doProfileEvaluation s) := by
  refine ev_mono hF h ?_
  unfold doProfileEvaluation
  repeat' first
      | (with_reducible first
          | exact ev_refl _ _ | assumption | apply evaluate_ev | refine ev_ite ?_ ?_ | refine ev_fst (by assumption) ?_
          | refine ev_snd (by assumption) ?_)
      | (show sub _ _ = true; rfl) | (show List.contains _ _ = true; rfl)

theorem doProfileSwapAtS_ev (hF : sub [.pins, .regs, .cfgB, .cfgA, .cfgO, .liveB, .ldr, .queues, .readPorts, .svcStats, .jnl,
    .holds, .rly, .out] H = true) (h : Evolves H s0 s)  : Evolves H s0 (doProfileSwapAtS s) := by
  refine ev_mono hF h ?_
  unfold doProfileSwapAtS
  repeat' first
      | (with_reducible first
          | exact ev_refl _ _ | assumption | apply wr_ev | apply profileOrWait_ev | refine ev_ite ?_ ?_
          | refine ev_fst (by assumption) ?_ | refine ev_snd (by assumption) ?_)
      | (with_reducible first
          | exact Nat.le_add_right _ _ | exact le_rfl
          | (refine fun (c : State.Canonical _) => ?_; repeat' first | exact c.regs | exact c.cfgB | exact c.cfgA | exact c.cfgO | exact c.liveB | exact ⟨c.profSets, c.baseSet⟩ | (apply swf_splice; exact Nat.le_add_right _ _)))
      | (show sub _ _ = true; rfl) | (show List.contains _ _ = true; rfl) | dsimp only | split
      | (with_reducible apply ev_rly_ldr)

theorem execBastingGrant_ev (hF : sub [.pins, .regs, .cfgB, .cfgA, .cfgO, .liveB, .ldr, .queues, .readPorts, .svcStats, .jnl,
    .rsv, .holds, .out] H = true) (h : Evolves H s0 s) (e : execBastingGrant s = .next sNext) : Evolves H s0 sNext := by
  refine ev_mono hF h ?_
  unfold execBastingGrant at e
  cases e
  repeat' first
      | (with_reducible first
          | exact ev_refl _ _ | assumption | apply doBastingGrant_ev | refine ev_ite ?_ ?_ | refine ev_fst (by assumption) ?_
          | refine ev_snd (by assumption) ?_)
      | (show sub _ _ = true; rfl) | (show List.contains _ _ = true; rfl)

theorem execProfileEvaluation_ev (hF : sub [.pins, .regs, .cfgB, .cfgA, .cfgO, .liveB, .ldr, .queues, .readPorts, .svcStats,
    .jnl, .holds, .weaves, .rly, .out] H = true) (h : Evolves H s0 s) (e : execProfileEvaluation s = .next sNext) : Evolves H s0
    sNext := by
  refine ev_mono hF h ?_
  unfold execProfileEvaluation at e
  cases e
  repeat' first
      | (with_reducible first
          | exact ev_refl _ _ | assumption | apply doProfileEvaluation_ev | refine ev_ite ?_ ?_
          | refine ev_fst (by assumption) ?_ | refine ev_snd (by assumption) ?_)
      | (show sub _ _ = true; rfl) | (show List.contains _ _ = true; rfl)

theorem execProfileSelectionStart_ev (hF : sub [.ldr] H = true) (h : Evolves H s0 s) (e : execProfileSelectionStart s = .next
    sNext) : Evolves H s0 sNext := by
  refine ev_mono hF h ?_
  unfold execProfileSelectionStart at e
  cases e
  repeat' first
      | (with_reducible first
          | exact ev_refl _ _ | assumption | refine ev_ite ?_ ?_ | refine ev_fst (by assumption) ?_
          | refine ev_snd (by assumption) ?_)
      | (with_reducible first
          | exact Nat.le_add_right _ _ | exact le_rfl
          | (refine fun (c : State.Canonical _) => ?_; repeat' first | exact c.cfgB | exact c.cfgA | exact ⟨c.profSets, c.baseSet⟩ | (apply swf_splice; exact Nat.le_add_right _ _)))
      | (show sub _ _ = true) | (show List.contains _ _ = true; rfl) | dsimp only | split | (with_reducible apply ev_ldr)

theorem execProfileSwapAtS_ev (hF : sub [.pins, .regs, .cfgB, .cfgA, .cfgO, .liveB, .ldr, .queues, .readPorts, .svcStats, .jnl,
    .holds, .rly, .out] H = true) (h : Evolves H s0 s) (e : execProfileSwapAtS s = .next sNext) : Evolves H s0 sNext := by
  refine ev_mono hF h ?_
  unfold execProfileSwapAtS at e
  cases e
  repeat' first
      | (with_reducible first
          | exact ev_refl _ _ | assumption | apply doProfileSwapAtS_ev | refine ev_ite ?_ ?_ | refine ev_fst (by assumption) ?_
          | refine ev_snd (by assumption) ?_)
      | (show sub _ _ = true; rfl) | (show List.contains _ _ = true; rfl)

end Sys2Proof.Machine
end

