-- ==== Sys2Proof/Laws/EvQueue.lean ====
section
/-! SUPPORT. What each function of Machine/Queue.lean changes: one lemma per function, its footprint first. -/

namespace Sys2Proof.Machine
open Sys2Proof

set_option linter.unusedTactic false
set_option linter.unreachableTactic false
set_option linter.unusedVariables false

variable {H : List StateField} {s0 s sNext : State}

theorem releaseClaim_ev (hF : sub [.regs, .queues, .readPorts] H = true) (h : Evolves H s0 s) (r : Nat) : Evolves H s0
    (releaseClaim r s) := by
  refine ev_mono hF h ?_
  unfold releaseClaim
  repeat' first
      | (with_reducible first
          | exact ev_refl _ _ | assumption | apply setQueue_ev | apply dropClaim_ev | refine ev_ite ?_ ?_
          | refine ev_fst (by assumption) ?_ | refine ev_snd (by assumption) ?_)
      | (show sub _ _ = true; rfl) | (show List.contains _ _ = true) | dsimp only | split

theorem doRelease_ev (hF : sub [.regs, .queues, .readPorts] H = true) (h : Evolves H s0 s) (o : Orig) (r : Nat) (v : Nat) :
    Evolves H s0 (doRelease o r v s) := by
  refine ev_mono hF h ?_
  unfold doRelease
  repeat' first
      | (with_reducible first
          | exact ev_refl _ _ | assumption | apply guardOrig_ev | apply releaseClaim_ev | refine ev_ite ?_ ?_
          | refine ev_fst (by assumption) ?_ | refine ev_snd (by assumption) ?_ | intro _ _ _ | intro _ _)
      | (show sub _ _ = true; rfl) | (show List.contains _ _ = true; rfl)

theorem breakClaims_ev (hF : sub [.regs, .readPorts] H = true) (h : Evolves H s0 s) (ps : List Pkt) : Evolves H s0 (breakClaims
    ps s) := by
  refine ev_mono hF h ?_
  unfold breakClaims
  repeat' first
      | (with_reducible first
          | exact ev_refl _ _ | assumption | apply breakClaim_ev | refine ev_ite ?_ ?_
          | (refine ev_foldl ?_ ?_; rotate_left; intro _ _ _) | refine ev_fst (by assumption) ?_
          | refine ev_snd (by assumption) ?_)
      | (show sub _ _ = true; rfl) | (show List.contains _ _ = true; rfl)

theorem claimPacket_ev (hF : sub [.regs, .queues, .readPorts] H = true) (h : Evolves H s0 s) (r : Nat) (q : Nat) : Evolves H s0
    (claimPacket r q s).1 := by
  refine ev_mono hF h ?_
  unfold claimPacket
  repeat' first
      | (with_reducible first
          | exact ev_refl _ _ | assumption | apply wr_ev | apply setQueue_ev | apply setPort_ev | apply releaseClaim_ev
          | refine ev_ite ?_ ?_ | refine ev_fst (by assumption) ?_ | refine ev_snd (by assumption) ?_)
      | (show sub _ _ = true; rfl) | (show List.contains _ _ = true) | dsimp only | split

theorem discardAll_ev (hF : sub [.regs, .queues, .readPorts] H = true) (h : Evolves H s0 s) (q : Nat) : Evolves H s0 (discardAll
    q s) := by
  refine ev_mono hF h ?_
  unfold discardAll
  repeat' first
      | (with_reducible first
          | exact ev_refl _ _ | assumption | apply setQueue_ev | apply breakClaims_ev | refine ev_ite ?_ ?_
          | refine ev_fst (by assumption) ?_ | refine ev_snd (by assumption) ?_)
      | (show sub _ _ = true; rfl) | (show List.contains _ _ = true; rfl)

theorem pointerReset_ev (hF : sub [.regs, .queues, .readPorts, .svcStats, .jnl, .rsv] H = true) (h : Evolves H s0 s) (q : Nat)
    (count : Nat) (sq : Nat) : Evolves H s0 (pointerReset q count sq s) := by
  refine ev_mono hF h ?_
  unfold pointerReset
  repeat' first
      | (with_reducible first
          | exact ev_refl _ _ | assumption | apply inc_ev | apply setQueue_ev | apply qLost_ev | apply qmxError_ev
          | apply discardAll_ev | apply noteRow_ev | refine ev_ite ?_ ?_ | refine ev_fst (by assumption) ?_
          | refine ev_snd (by assumption) ?_)
      | (show sub _ _ = true; rfl) | (show List.contains _ _ = true; rfl)

theorem serveWaiting_ev (hF : sub [.regs, .queues, .readPorts, .svcStats, .jnl] H = true) (h : Evolves H s0 s) (q : Nat) :
    Evolves H s0 (serveWaiting q s) := by
  refine ev_mono hF h ?_
  unfold serveWaiting
  repeat' first
      | (with_reducible first
          | exact ev_refl _ _ | assumption | apply oversizeErrors_ev | apply flushWaiting_ev | refine ev_ite ?_ ?_
          | refine ev_fst (by assumption) ?_ | refine ev_snd (by assumption) ?_)
      | (show sub _ _ = true; rfl) | (show List.contains _ _ = true; rfl)

theorem comparePointers_ev (hF : sub [.regs, .queues, .readPorts, .svcStats, .jnl, .rsv] H = true) (h : Evolves H s0 s) (q :
    Nat) (bad : Option (Nat × Nat)) : Evolves H s0 (comparePointers q bad s) := by
  refine ev_mono hF h ?_
  unfold comparePointers
  repeat' first
      | (with_reducible first
          | exact ev_refl _ _ | assumption | apply pointerReset_ev | apply serveWaiting_ev | refine ev_ite ?_ ?_
          | refine ev_fst (by assumption) ?_ | refine ev_snd (by assumption) ?_)
      | (show sub _ _ = true; rfl) | (show List.contains _ _ = true) | dsimp only | split

theorem dataWord_ev (hF : sub [.regs, .queues, .readPorts] H = true) (h : Evolves H s0 s) (r : Nat) : Evolves H s0 (dataWord r
    s).1 := by
  refine ev_mono hF h ?_
  unfold dataWord
  repeat' first
      | (with_reducible first
          | exact ev_refl _ _ | assumption | apply wr_ev | apply setPort_ev | apply releaseClaim_ev | refine ev_ite ?_ ?_
          | refine ev_fst (by assumption) ?_ | refine ev_snd (by assumption) ?_)
      | (show sub _ _ = true; rfl) | (show List.contains _ _ = true) | dsimp only | split

theorem dataWords_ev (hF : sub [.regs, .queues, .readPorts, .out] H = true) (h : Evolves H s0 s) (o : Orig) (r : Nat) (x2 : Nat)
    : Evolves H s0 (dataWords o r x2 s) := by
  refine ev_mono hF h ?_
  clear h hF
  suffices key : ∀ s0 : State, Evolves [.regs, .queues, .readPorts, .out] s0 s → Evolves [.regs, .queues, .readPorts, .out] s0
      (dataWords o r x2 s) from key s (ev_refl _ s)
  fun_induction dataWords o r x2 s <;> intro s0 h <;> repeat' first
      | (with_reducible first
          | exact ev_refl _ _ | assumption | apply_assumption -exfalso -symm | apply emit_ev | apply dataWord_ev
          | (refine ev_foldl ?_ ?_; rotate_left; intro _ _ _) | (refine ev_foldl_fst ?_ ?_; rotate_left; intro _ _ _ _)
          | (refine ev_foldl_snd ?_ ?_; rotate_left; intro _ _ _ _))
      | (show sub _ _ = true; rfl) | (show List.contains _ _ = true; rfl)

theorem headerRead_ev (hF : sub [.regs, .queues, .readPorts, .svcStats, .jnl, .rsv] H = true) (h : Evolves H s0 s) (r : Nat)
    (bad : Option (Nat × Nat)) : Evolves H s0 (headerRead r bad s).1 := by
  refine ev_mono hF h ?_
  unfold headerRead
  repeat' first
      | (with_reducible first
          | exact ev_refl _ _ | assumption | apply wr_ev | apply releaseClaim_ev | apply claimPacket_ev
          | apply comparePointers_ev | refine ev_ite ?_ ?_ | refine ev_fst (by assumption) ?_ | refine ev_snd (by assumption) ?_)
      | (show sub _ _ = true; rfl) | (show List.contains _ _ = true) | dsimp only | split

theorem discardForConfig_ev (hF : sub [.regs, .queues, .readPorts] H = true) (h : Evolves H s0 s) (q : Nat) : Evolves H s0
    (discardForConfig q s) := by
  refine ev_mono hF h ?_
  unfold discardForConfig
  repeat' first
      | (with_reducible first
          | exact ev_refl _ _ | assumption | apply qLost_ev | apply discardAll_ev | refine ev_ite ?_ ?_
          | refine ev_fst (by assumption) ?_ | refine ev_snd (by assumption) ?_)
      | (show sub _ _ = true; rfl) | (show List.contains _ _ = true; rfl)

theorem doClaimTimeout_ev (hF : sub [.regs, .queues, .readPorts] H = true) (h : Evolves H s0 s) (r : Nat) : Evolves H s0
    (doClaimTimeout r s) := by
  refine ev_mono hF h ?_
  unfold doClaimTimeout
  repeat' first
      | (with_reducible first
          | exact ev_refl _ _ | assumption | apply wr_ev | apply releaseClaim_ev | refine ev_ite ?_ ?_
          | refine ev_fst (by assumption) ?_ | refine ev_snd (by assumption) ?_)
      | (show sub _ _ = true; rfl) | (show List.contains _ _ = true) | dsimp only | split

theorem doDataRead_ev (hF : sub [.regs, .queues, .readPorts, .svcStats, .jnl, .rsv, .out] H = true) (h : Evolves H s0 s) (o :
    Orig) (r : Nat) (n : Nat) (bad : Option (Nat × Nat)) : Evolves H s0 (doDataRead o r n bad s) := by
  refine ev_mono hF h ?_
  unfold doDataRead
  repeat' first
      | (with_reducible first
          | exact ev_refl _ _ | assumption | apply comparePointers_ev | apply dataWords_ev | apply guardRead_ev
          | refine ev_ite ?_ ?_ | refine ev_fst (by assumption) ?_ | refine ev_snd (by assumption) ?_ | intro _ _ _ | intro _ _)
      | (show sub _ _ = true; rfl) | (show List.contains _ _ = true) | dsimp only | split

theorem doHeaderRead_ev (hF : sub [.regs, .queues, .readPorts, .svcStats, .jnl, .rsv, .out] H = true) (h : Evolves H s0 s) (o :
    Orig) (r : Nat) (bad : Option (Nat × Nat)) : Evolves H s0 (doHeaderRead o r bad s) := by
  refine ev_mono hF h ?_
  unfold doHeaderRead
  repeat' first
      | (with_reducible first
          | exact ev_refl _ _ | assumption | apply emit_ev | apply headerRead_ev | apply guardRead_ev | refine ev_ite ?_ ?_
          | refine ev_fst (by assumption) ?_ | refine ev_snd (by assumption) ?_ | intro _ _ _ | intro _ _)
      | (show sub _ _ = true; rfl) | (show List.contains _ _ = true; rfl)

theorem doPacketCommit_ev (hF : sub [.regs, .queues, .readPorts, .svcStats, .jnl, .rsv] H = true) (h : Evolves H s0 s) (q : Nat)
    (producer : Nat) (bad : Option (Nat × Nat)) : Evolves H s0 (doPacketCommit q producer bad s) := by
  refine ev_mono hF h ?_
  unfold doPacketCommit
  repeat' first
      | (with_reducible first
          | exact ev_refl _ _ | assumption | apply commitOpen_ev | apply svcReceive_ev | apply putCopy_ev
          | apply oversizeErrors_ev | apply serveWaiting_ev | apply comparePointers_ev | refine ev_ite ?_ ?_
          | refine ev_fst (by assumption) ?_ | refine ev_snd (by assumption) ?_)
      | (show sub _ _ = true; rfl) | (show List.contains _ _ = true) | dsimp only | split

theorem doPacketOpen_ev (hF : sub [.regs, .queues, .readPorts, .svcStats, .jnl, .rsv] H = true) (h : Evolves H s0 s) (q : Nat)
    (producer : Nat) (bad : Option (Nat × Nat)) : Evolves H s0 (doPacketOpen q producer bad s) := by
  refine ev_mono hF h ?_
  unfold doPacketOpen
  repeat' first
      | (with_reducible first
          | exact ev_refl _ _ | assumption | apply setQueue_ev | apply openPacket_ev | apply comparePointers_ev
          | refine ev_ite ?_ ?_ | refine ev_fst (by assumption) ?_ | refine ev_snd (by assumption) ?_)
      | (show sub _ _ = true; rfl) | (show List.contains _ _ = true) | dsimp only | split

theorem doPacketRewind_ev (hF : sub [.regs, .queues, .readPorts, .svcStats, .jnl] H = true) (h : Evolves H s0 s) (q : Nat)
    (producer : Nat) : Evolves H s0 (doPacketRewind q producer s) := by
  refine ev_mono hF h ?_
  unfold doPacketRewind
  repeat' first
      | (with_reducible first
          | exact ev_refl _ _ | assumption | apply rewindOpen_ev | apply serveWaiting_ev | refine ev_ite ?_ ?_
          | refine ev_fst (by assumption) ?_ | refine ev_snd (by assumption) ?_)
      | (show sub _ _ = true; rfl) | (show List.contains _ _ = true; rfl)

theorem doPacketWord_ev (hF : sub [.regs, .queues, .readPorts, .svcStats, .jnl, .rsv] H = true) (h : Evolves H s0 s) (q : Nat)
    (producer : Nat) (w : Nat) (bad : Option (Nat × Nat)) : Evolves H s0 (doPacketWord q producer w bad s) := by
  refine ev_mono hF h ?_
  unfold doPacketWord
  repeat' first
      | (with_reducible first
          | exact ev_refl _ _ | assumption | apply putWord_ev | apply qmxError_ev | apply serveWaiting_ev
          | apply comparePointers_ev | refine ev_ite ?_ ?_ | refine ev_fst (by assumption) ?_ | refine ev_snd (by assumption) ?_)
      | (show sub _ _ = true; rfl) | (show List.contains _ _ = true; rfl)

theorem doQueueConfigApply_ev (hF : sub [.regs, .cfgX, .queues, .readPorts] H = true) (h : Evolves H s0 s) (q : Nat) : Evolves H
    s0 (doQueueConfigApply q s) := by
  refine ev_mono hF h ?_
  unfold doQueueConfigApply
  repeat' first
      | (with_reducible first
          | exact ev_refl _ _ | assumption | apply discardForConfig_ev | refine ev_ite ?_ ?_ | refine ev_fst (by assumption) ?_
          | refine ev_snd (by assumption) ?_)
      | (with_reducible first
          | exact Nat.le_add_right _ _ | exact le_rfl
          | (refine fun (c : State.Canonical _) => ?_; repeat' first | exact c.regs | exact c.cfgB | exact c.cfgA | exact c.cfgX | exact ⟨c.profSets, c.baseSet⟩ | exact ⟨profSets_sset c.profSets _ c.cfgB, c.baseSet⟩ | exact ⟨c.profSets, c.cfgB⟩ | exact ⟨List.forall_mem_nil _, rfl⟩ | exact swf_nil _ | exact swf_freshBank_of rfl | exact swf_profSet c _ | exact swf_setOfProfile c _ | exact swf_bankOf c _ | apply swf_foldl_sset | apply swf_sset))
      | (show sub _ _ = true; rfl) | (show List.contains _ _ = true; rfl) | dsimp only | split | (with_reducible apply ev_cfgX)

theorem spillDrop_ev (hF : sub [.regs, .queues, .readPorts, .svcStats, .jnl] H = true) (h : Evolves H s0 s) (q : Nat) (p :
    Option Pkt) : Evolves H s0 (spillDrop q p s) := by
  refine ev_mono hF h ?_
  unfold spillDrop
  repeat' first
      | (with_reducible first
          | exact ev_refl _ _ | assumption | apply setQueue_ev | apply breakClaim_ev | apply qLost_ev | apply rewindOpen_ev
          | apply qmxError_ev | refine ev_ite ?_ ?_ | refine ev_fst (by assumption) ?_ | refine ev_snd (by assumption) ?_)
      | (show sub _ _ = true; rfl) | (show List.contains _ _ = true) | dsimp only | split

theorem spillDiscard_ev (hF : sub [.regs, .queues, .readPorts, .svcStats, .jnl, .rsv] H = true) (h : Evolves H s0 s) (q : Nat)
    (bad : List Nat) : Evolves H s0 (spillDiscard q bad s) := by
  refine ev_mono hF h ?_
  unfold spillDiscard
  repeat' first
      | (with_reducible first
          | exact ev_refl _ _ | assumption | apply noteRow_ev | apply serveWaiting_ev | apply spillDrop_ev | refine ev_ite ?_ ?_
          | (refine ev_foldl ?_ ?_; rotate_left; intro _ _ _) | refine ev_fst (by assumption) ?_
          | refine ev_snd (by assumption) ?_)
      | (show sub _ _ = true; rfl) | (show List.contains _ _ = true; rfl)

theorem doSpillMove_ev (hF : sub [.regs, .queues, .readPorts, .svcStats, .jnl, .rsv] H = true) (h : Evolves H s0 s) (q : Nat)
    (blocks : Nat) (toHead : Bool) (bad : List Nat) : Evolves H s0 (doSpillMove q blocks toHead bad s) := by
  refine ev_mono hF h ?_
  unfold doSpillMove
  repeat' first
      | (with_reducible first
          | exact ev_refl _ _ | assumption | apply setQueue_ev | apply spillDiscard_ev | refine ev_ite ?_ ?_
          | refine ev_fst (by assumption) ?_ | refine ev_snd (by assumption) ?_)
      | (show sub _ _ = true; rfl) | (show List.contains _ _ = true; rfl)

theorem execClaimTimeout_ev (hF : sub [.regs, .queues, .readPorts] H = true) (h : Evolves H s0 s) (r : Nat) (e :
    execClaimTimeout r s = .next sNext) : Evolves H s0 sNext := by
  refine ev_mono hF h ?_
  unfold execClaimTimeout at e
  cases e
  repeat' first
      | (with_reducible first
          | exact ev_refl _ _ | assumption | apply doClaimTimeout_ev | refine ev_ite ?_ ?_ | refine ev_fst (by assumption) ?_
          | refine ev_snd (by assumption) ?_)
      | (show sub _ _ = true; rfl) | (show List.contains _ _ = true; rfl)

theorem execDataRead_ev (hF : sub [.regs, .queues, .readPorts, .svcStats, .jnl, .rsv, .out] H = true) (h : Evolves H s0 s) (o :
    Orig) (r : Nat) (n : Nat) (bad : Option (Nat × Nat)) (e : execDataRead o r n bad s = .next sNext) : Evolves H s0 sNext := by
  refine ev_mono hF h ?_
  unfold execDataRead at e
  cases e
  repeat' first
      | (with_reducible first
          | exact ev_refl _ _ | assumption | apply doDataRead_ev | refine ev_ite ?_ ?_ | refine ev_fst (by assumption) ?_
          | refine ev_snd (by assumption) ?_)
      | (show sub _ _ = true; rfl) | (show List.contains _ _ = true; rfl)

theorem execHeaderRead_ev (hF : sub [.regs, .queues, .readPorts, .svcStats, .jnl, .rsv, .out] H = true) (h : Evolves H s0 s) (o
    : Orig) (r : Nat) (bad : Option (Nat × Nat)) (e : execHeaderRead o r bad s = .next sNext) : Evolves H s0 sNext := by
  refine ev_mono hF h ?_
  unfold execHeaderRead at e
  cases e
  repeat' first
      | (with_reducible first
          | exact ev_refl _ _ | assumption | apply doHeaderRead_ev | refine ev_ite ?_ ?_ | refine ev_fst (by assumption) ?_
          | refine ev_snd (by assumption) ?_)
      | (show sub _ _ = true; rfl) | (show List.contains _ _ = true; rfl)

theorem execPacketCommit_ev (hF : sub [.regs, .queues, .readPorts, .svcStats, .jnl, .rsv] H = true) (h : Evolves H s0 s) (q :
    Nat) (producer : Nat) (bad : Option (Nat × Nat)) (e : execPacketCommit q producer bad s = .next sNext) : Evolves H s0 sNext
    := by
  refine ev_mono hF h ?_
  unfold execPacketCommit at e
  cases e
  repeat' first
      | (with_reducible first
          | exact ev_refl _ _ | assumption | apply doPacketCommit_ev | refine ev_ite ?_ ?_ | refine ev_fst (by assumption) ?_
          | refine ev_snd (by assumption) ?_)
      | (show sub _ _ = true; rfl) | (show List.contains _ _ = true; rfl)

theorem execPacketOpen_ev (hF : sub [.regs, .queues, .readPorts, .svcStats, .jnl, .rsv] H = true) (h : Evolves H s0 s) (q : Nat)
    (producer : Nat) (bad : Option (Nat × Nat)) (e : execPacketOpen q producer bad s = .next sNext) : Evolves H s0 sNext := by
  refine ev_mono hF h ?_
  unfold execPacketOpen at e
  cases e
  repeat' first
      | (with_reducible first
          | exact ev_refl _ _ | assumption | apply doPacketOpen_ev | refine ev_ite ?_ ?_ | refine ev_fst (by assumption) ?_
          | refine ev_snd (by assumption) ?_)
      | (show sub _ _ = true; rfl) | (show List.contains _ _ = true; rfl)

theorem execPacketRewind_ev (hF : sub [.regs, .queues, .readPorts, .svcStats, .jnl] H = true) (h : Evolves H s0 s) (q : Nat)
    (producer : Nat) (e : execPacketRewind q producer s = .next sNext) : Evolves H s0 sNext := by
  refine ev_mono hF h ?_
  unfold execPacketRewind at e
  cases e
  repeat' first
      | (with_reducible first
          | exact ev_refl _ _ | assumption | apply doPacketRewind_ev | refine ev_ite ?_ ?_ | refine ev_fst (by assumption) ?_
          | refine ev_snd (by assumption) ?_)
      | (show sub _ _ = true; rfl) | (show List.contains _ _ = true; rfl)

theorem execPacketWord_ev (hF : sub [.regs, .queues, .readPorts, .svcStats, .jnl, .rsv] H = true) (h : Evolves H s0 s) (q : Nat)
    (producer : Nat) (w : Nat) (bad : Option (Nat × Nat)) (e : execPacketWord q producer w bad s = .next sNext) : Evolves H s0
    sNext := by
  refine ev_mono hF h ?_
  unfold execPacketWord at e
  cases e
  repeat' first
      | (with_reducible first
          | exact ev_refl _ _ | assumption | apply doPacketWord_ev | refine ev_ite ?_ ?_ | refine ev_fst (by assumption) ?_
          | refine ev_snd (by assumption) ?_)
      | (show sub _ _ = true; rfl) | (show List.contains _ _ = true; rfl)

theorem execQueueConfigApply_ev (hF : sub [.regs, .cfgX, .queues, .readPorts] H = true) (h : Evolves H s0 s) (q : Nat) (e :
    execQueueConfigApply q s = .next sNext) : Evolves H s0 sNext := by
  refine ev_mono hF h ?_
  unfold execQueueConfigApply at e
  cases e
  repeat' first
      | (with_reducible first
          | exact ev_refl _ _ | assumption | apply doQueueConfigApply_ev | refine ev_ite ?_ ?_
          | refine ev_fst (by assumption) ?_ | refine ev_snd (by assumption) ?_)
      | (show sub _ _ = true; rfl) | (show List.contains _ _ = true; rfl)

theorem execRelease_ev (hF : sub [.regs, .queues, .readPorts] H = true) (h : Evolves H s0 s) (o : Orig) (r : Nat) (v : Nat) (e :
    execRelease o r v s = .next sNext) : Evolves H s0 sNext := by
  refine ev_mono hF h ?_
  unfold execRelease at e
  cases e
  repeat' first
      | (with_reducible first
          | exact ev_refl _ _ | assumption | apply doRelease_ev | refine ev_ite ?_ ?_ | refine ev_fst (by assumption) ?_
          | refine ev_snd (by assumption) ?_)
      | (show sub _ _ = true; rfl) | (show List.contains _ _ = true; rfl)

theorem execSpillMove_ev (hF : sub [.regs, .queues, .readPorts, .svcStats, .jnl, .rsv] H = true) (h : Evolves H s0 s) (q : Nat)
    (blocks : Nat) (toHead : Bool) (bad : List Nat) (e : execSpillMove q blocks toHead bad s = .next sNext) : Evolves H s0 sNext
    := by
  refine ev_mono hF h ?_
  unfold execSpillMove at e
  cases e
  repeat' first
      | (with_reducible first
          | exact ev_refl _ _ | assumption | apply doSpillMove_ev | refine ev_ite ?_ ?_ | refine ev_fst (by assumption) ?_
          | refine ev_snd (by assumption) ?_)
      | (show sub _ _ = true; rfl) | (show List.contains _ _ = true; rfl)

end Sys2Proof.Machine
end

