-- ==== Sys2Proof/Laws/EvBus.lean ====
section
/-! SUPPORT. What each function of Machine/Bus.lean changes: one lemma per function, its footprint first. -/

namespace Sys2Proof.Machine
open Sys2Proof

set_option linter.unusedTactic false
set_option linter.unreachableTactic false
set_option linter.unusedVariables false

variable {H : List StateField} {s0 s sNext : State}

theorem partialWrite_ev (hF : sub [.regs, .protoErrs] H = true) (h : Evolves H s0 s) (o : Orig) : Evolves H s0 (partialWrite o
    s) := by
  refine ev_mono hF h ?_
  unfold partialWrite
  repeat' first
      | (with_reducible first
          | exact ev_refl _ _ | assumption | apply inc_ev | refine ev_ite ?_ ?_ | refine ev_fst (by assumption) ?_
          | refine ev_snd (by assumption) ?_)
      | (show sub _ _ = true; rfl) | (show List.contains _ _ = true; rfl) | dsimp only | split
      | (with_reducible apply ev_protoErrs)

theorem cfgWrite_ev (hF : sub [.pins, .regs, .cfgB, .cfgA, .cfgO, .liveB, .ldr, .queues, .readPorts, .svcStats, .jnl, .rsv,
    .holds, .out] H = true) (h : Evolves H s0 s) (o : Orig) (a : Nat) (v : Nat) : Evolves H s0 (cfgWrite o a v s) := by
  refine ev_mono hF h ?_
  unfold cfgWrite
  repeat' first
      | (with_reducible first
          | exact ev_refl _ _ | assumption | apply doCfgBastingWrite_ev | apply doDiscard_ev | apply doLiveWrite_ev
          | apply doSwapRequest_ev | refine ev_ite ?_ ?_ | refine ev_fst (by assumption) ?_ | refine ev_snd (by assumption) ?_)
      | (show sub _ _ = true; rfl) | (show List.contains _ _ = true; rfl)

theorem channelCtrl_ev (hF : sub [.regs, .queues, .readPorts, .hostPorts, .svcStats, .jnl, .chans, .out] H = true) (h : Evolves
    H s0 s) (c : Nat) (v : Nat) : Evolves H s0 (channelCtrl c v s) := by
  refine ev_mono hF h ?_
  unfold channelCtrl
  repeat' first
      | (with_reducible first
          | exact ev_refl _ _ | assumption | apply doAbort_ev | apply doStart_ev | apply doStop_ev | refine ev_ite ?_ ?_
          | refine ev_fst (by assumption) ?_ | refine ev_snd (by assumption) ?_)
      | (show sub _ _ = true; rfl) | (show List.contains _ _ = true; rfl)

theorem channelWrite_ev (hF : sub [.regs, .queues, .readPorts, .hostPorts, .svcStats, .jnl, .chans, .out] H = true) (h : Evolves
    H s0 s) (c : Nat) (off : Nat) (v : Nat) : ∀ sNext, channelWrite c off v s = some sNext → Evolves H s0 sNext := by
  suffices key : ∀ sNext, channelWrite c off v s = some sNext → Evolves [.regs, .queues, .readPorts, .hostPorts, .svcStats,
      .jnl, .chans, .out] s sNext from fun u e => ev_mono hF h (key u e)
  unfold channelWrite
  repeat' first
      | (with_reducible first
          | exact evo_none | refine evo_ite ?_ ?_ | refine evo_some ?_ | exact ev_refl _ _ | assumption | apply channelCtrl_ev
          | apply doArm_ev | apply doCplCiWrite_ev | apply doDisarm_ev | apply doPiWrite_ev | refine ev_ite ?_ ?_
          | refine ev_fst (by assumption) ?_ | refine ev_snd (by assumption) ?_)
      | (show sub _ _ = true; rfl) | (show List.contains _ _ = true; rfl)

theorem foldWrite_ev (hF : sub [.pins, .regs, .folds, .out] H = true) (h : Evolves H s0 s) (m : Nat) (v : Nat) : Evolves H s0
    (foldWrite m v s) := by
  refine ev_mono hF h ?_
  unfold foldWrite
  repeat' first
      | (with_reducible first
          | exact ev_refl _ _ | assumption | apply doFoldStop_ev | apply foldCommand_ev | refine ev_ite ?_ ?_
          | refine ev_fst (by assumption) ?_ | refine ev_snd (by assumption) ?_)
      | (show sub _ _ = true; rfl) | (show List.contains _ _ = true) | dsimp only | split

theorem flashWrite_ev (hF : sub [.regs, .cfgB, .ldr, .queues, .readPorts, .svcStats, .jnl, .mnt, .flash, .jmem] H = true) (h :
    Evolves H s0 s) (o : Orig) (v : Nat) : Evolves H s0 (flashWrite o v s) := by
  refine ev_mono hF h ?_
  unfold flashWrite
  repeat' first
      | (with_reducible first
          | exact ev_refl _ _ | assumption | apply deny_ev | apply doErase_ev | apply doProgram_ev | apply doReload_ev
          | apply doRollback_ev | apply doVerify_ev | refine ev_ite ?_ ?_ | refine ev_fst (by assumption) ?_
          | refine ev_snd (by assumption) ?_)
      | (show sub _ _ = true; rfl) | (show List.contains _ _ = true) | dsimp only | split

theorem maintWrite_ev (hF : sub [.pins, .regs, .cfgB, .ldr, .queues, .readPorts, .hostPorts, .svcStats, .jnl, .rsv, .cams,
    .frames, .running, .syncs, .outs, .txs, .chans, .outFlows, .rly, .mnt, .pwrs, .pwms, .folds, .flash, .jmem, .out,
    .freeCount] H = true) (h : Evolves H s0 s) (o : Orig) (a : Nat) (v : Nat) : ∀ sNext, maintWrite o a v s = some sNext →
    Evolves H s0 sNext := by
  suffices key : ∀ sNext, maintWrite o a v s = some sNext → Evolves [.pins, .regs, .cfgB, .ldr, .queues, .readPorts, .hostPorts,
      .svcStats, .jnl, .rsv, .cams, .frames, .running, .syncs, .outs, .txs, .chans, .outFlows, .rly, .mnt, .pwrs, .pwms, .folds,
      .flash, .jmem, .out, .freeCount] s sNext from fun u e => ev_mono hF h (key u e)
  unfold maintWrite
  repeat' first
      | (with_reducible first
          | exact evo_none | refine evo_ite ?_ ?_ | refine evo_some ?_ | exact ev_refl _ _ | assumption | apply deny_ev
          | apply doPark_ev | apply doParkCancel_ev | apply doSessionClose_ev | apply doSessionOpen_ev | apply flashWrite_ev
          | refine ev_ite ?_ ?_ | refine ev_fst (by assumption) ?_ | refine ev_snd (by assumption) ?_)
      | (show sub _ _ = true; rfl) | (show List.contains _ _ = true; rfl)

theorem semWrite_ev (hF : sub [.regs, .brg] H = true) (h : Evolves H s0 s) (o : Orig) (w : Nat) (v : Nat) : Evolves H s0
    (semWrite o w v s) := by
  refine ev_mono hF h ?_
  unfold semWrite
  repeat' first
      | (with_reducible first
          | exact ev_refl _ _ | assumption | apply doSemaphoreRelease_ev | apply doTake_ev | refine ev_ite ?_ ?_
          | refine ev_fst (by assumption) ?_ | refine ev_snd (by assumption) ?_)
      | (show sub _ _ = true; rfl) | (show List.contains _ _ = true; rfl)

theorem targetWindowWrite_ev (hF : sub [.pins, .regs, .queues, .readPorts, .hostPorts, .svcStats, .jnl, .out] H = true) (h :
    Evolves H s0 s) (o : Orig) (t : Nat) (off : Nat) (v : Nat) : ∀ sNext, targetWindowWrite o t off v s = some sNext → Evolves H
    s0 sNext := by
  suffices key : ∀ sNext, targetWindowWrite o t off v s = some sNext → Evolves [.pins, .regs, .queues, .readPorts, .hostPorts,
      .svcStats, .jnl, .out] s sNext from fun u e => ev_mono hF h (key u e)
  unfold targetWindowWrite
  repeat' first
      | (with_reducible first
          | exact evo_none | refine evo_ite ?_ ?_ | refine evo_some ?_ | exact ev_refl _ _ | assumption | apply doComplete_ev
          | apply doEnableWrite_ev | apply doGdis_ev | apply doSplit_ev | refine ev_ite ?_ ?_ | refine ev_fst (by assumption) ?_
          | refine ev_snd (by assumption) ?_)
      | (show sub _ _ = true; rfl) | (show List.contains _ _ = true; rfl)

theorem specialWrite_ev (hF : sub [.pins, .regs, .cfgB, .ldr, .queues, .readPorts, .hostPorts, .svcStats, .jnl, .rsv, .cams,
    .frames, .running, .syncs, .outs, .nextOut, .txs, .chans, .weaves, .outFlows, .rly, .mnt, .pwrs, .pwms, .folds, .brg,
    .flash, .jmem, .out, .freeCount] H = true) (h : Evolves H s0 s) (o : Orig) (a : Nat) (v : Nat) : ∀ sNext, specialWrite o a v
    s = some sNext → Evolves H s0 sNext := by
  suffices key : ∀ sNext, specialWrite o a v s = some sNext → Evolves [.pins, .regs, .cfgB, .ldr, .queues, .readPorts,
      .hostPorts, .svcStats, .jnl, .rsv, .cams, .frames, .running, .syncs, .outs, .nextOut, .txs, .chans, .weaves, .outFlows,
      .rly, .mnt, .pwrs, .pwms, .folds, .brg, .flash, .jmem, .out, .freeCount] s sNext from fun u e => ev_mono hF h (key u e)
  unfold specialWrite
  repeat' first
      | (with_reducible first
          | exact evo_none | refine evo_ite ?_ ?_ | refine evo_some ?_ | exact ev_refl _ _ | assumption | apply unlatch_ev
          | refine channelWrite_ev ?_ ?_ _ _ _ | apply doCompareArm_ev | apply doHandover_ev | apply doHoldFreeze_ev
          | apply doHoldRelease_ev | apply doLdrViewWrite_ev | apply doRelease_ev | apply doReplay_ev | apply doVectorUnmask_ev
          | apply foldWrite_ev | refine maintWrite_ev ?_ ?_ _ _ _ | apply semWrite_ev
          | refine targetWindowWrite_ev ?_ ?_ _ _ _ _ | refine ev_ite ?_ ?_ | refine ev_fst (by assumption) ?_
          | refine ev_snd (by assumption) ?_)
      | (show sub _ _ = true; rfl) | (show List.contains _ _ = true; rfl)

theorem writeWord_ev (hF : sub [.pins, .regs, .cfgB, .cfgA, .cfgO, .liveB, .ldr, .queues, .readPorts, .hostPorts, .svcStats,
    .jnl, .rsv, .cams, .frames, .running, .syncs, .outs, .nextOut, .holds, .txs, .chans, .weaves, .outFlows, .rly, .mnt, .pwrs,
    .pwms, .folds, .brg, .flash, .jmem, .ram, .out, .freeCount] H = true) (h : Evolves H s0 s) (o : Orig) (a : Nat) (v : Nat)
    (hw : Nat) : Evolves H s0 (writeWord o a v hw s) := by
  refine ev_mono hF h ?_
  unfold writeWord
  repeat' first
      | (with_reducible first
          | exact ev_refl _ _ | assumption | apply setReg_ev | apply mapMiss_ev | apply cfgWrite_ev
          | refine specialWrite_ev ?_ ?_ _ _ _  _ (by assumption) | refine svcTimeWrite_ev ?_ ?_ _ _  _ (by assumption)
          | apply tableStore_ev | refine ev_getD (specialWrite_ev ?_ ?_ _ _ _ ) ?_
          | refine ev_getD (svcTimeWrite_ev ?_ ?_ _ _ ) ?_ | refine ev_ite ?_ ?_ | refine ev_fst (by assumption) ?_
          | refine ev_snd (by assumption) ?_)
      | (show sub _ _ = true; rfl) | (show List.contains _ _ = true) | dsimp only | split

theorem serveWords_ev (hF : sub [.pins, .regs, .cfgB, .cfgA, .cfgO, .liveB, .ldr, .queues, .readPorts, .hostPorts, .svcStats,
    .jnl, .rsv, .cams, .frames, .running, .syncs, .outs, .nextOut, .holds, .txs, .chans, .weaves, .outFlows, .rly, .mnt, .pwrs,
    .pwms, .folds, .brg, .protoErrs, .flash, .jmem, .ram, .out, .freeCount] H = true) (h : Evolves H s0 s) (o : Orig) (addr :
    Nat) (be : List Bool) (data : List Nat) : Evolves H s0 (serveWords o addr be data s) := by
  refine ev_mono hF h ?_
  unfold serveWords
  repeat' first
      | (with_reducible first
          | exact ev_refl _ _ | assumption | apply mapMiss_ev | apply partialWrite_ev | apply writeWord_ev | refine ev_ite ?_ ?_
          | (refine ev_foldl ?_ ?_; rotate_left; intro _ _ _) | refine ev_fst (by assumption) ?_
          | refine ev_snd (by assumption) ?_ | (refine ev_foldl_fst ?_ ?_; rotate_left; intro _ _ _ _)
          | (refine ev_foldl_snd ?_ ?_; rotate_left; intro _ _ _ _))
      | (show sub _ _ = true; rfl) | (show List.contains _ _ = true; rfl) | dsimp only | split

theorem serveWrite_ev (hF : sub [.pins, .regs, .cfgB, .cfgA, .cfgO, .liveB, .ldr, .queues, .readPorts, .hostPorts, .svcStats,
    .jnl, .rsv, .cams, .frames, .running, .syncs, .outs, .nextOut, .holds, .txs, .chans, .weaves, .outFlows, .rly, .mnt, .pwrs,
    .pwms, .folds, .brg, .protoErrs, .flash, .jmem, .ram, .out, .freeCount] H = true) (h : Evolves H s0 s) (o : Orig) (addr :
    Nat) (be : List Bool) (data : List Nat) : Evolves H s0 (serveWrite o addr be data s) := by
  refine ev_mono hF h ?_
  unfold serveWrite
  repeat' first
      | (with_reducible first
          | exact ev_refl _ _ | assumption | apply tableStore_ev | apply serveWords_ev | refine ev_ite ?_ ?_
          | refine ev_fst (by assumption) ?_ | refine ev_snd (by assumption) ?_)
      | (show sub _ _ = true; rfl) | (show List.contains _ _ = true) | dsimp only | split

theorem clearRead_ev (hF : sub [.regs] H = true) (h : Evolves H s0 s) (d : RegD) (a : Nat) (hw : List Nat) : Evolves H s0
    (clearRead d a hw s) := by
  refine ev_mono hF h ?_
  unfold clearRead
  repeat' first
      | (with_reducible first
          | exact ev_refl _ _ | assumption | apply setReg_ev | apply wr_ev | refine ev_ite ?_ ?_
          | refine ev_fst (by assumption) ?_ | refine ev_snd (by assumption) ?_)
      | (show sub _ _ = true; rfl) | (show List.contains _ _ = true; rfl)

theorem cutShort_ev (hF : sub [.regs, .queues, .readPorts, .svcStats, .jnl, .freeCount] H = true) (h : Evolves H s0 s) (addr7 :
    Nat) (a : Nat) : Evolves H s0 (cutShort addr7 a s) := by
  refine ev_mono hF h ?_
  unfold cutShort
  repeat' first
      | (with_reducible first
          | exact ev_refl _ _ | assumption | apply inc_ev | apply recordError_ev | refine ev_ite ?_ ?_
          | refine ev_fst (by assumption) ?_ | refine ev_snd (by assumption) ?_)
      | (with_reducible first
          | exact Nat.le_add_right _ _ | exact le_rfl)
      | (show sub _ _ = true; rfl) | (show List.contains _ _ = true; rfl) | dsimp only | split
      | (with_reducible apply ev_freeCount)

theorem specialRead_ev (hF : sub [.pins, .regs, .queues, .readPorts, .hostPorts, .svcStats, .jnl, .rsv, .time, .out] H = true)
    (h : Evolves H s0 s) (o : Orig) (a : Nat) : ∀ sNext, specialRead o a s = some sNext → Evolves H s0 sNext.1 := by
  suffices key : ∀ sNext, specialRead o a s = some sNext → Evolves [.pins, .regs, .queues, .readPorts, .hostPorts, .svcStats,
      .jnl, .rsv, .time, .out] s sNext.1 from fun u e => ev_mono hF h (key u e)
  unfold specialRead
  repeat' first
      | (with_reducible first
          | exact evp_none | refine evp_ite ?_ ?_ | refine evp_some ?_ | exact ev_refl _ _ | assumption | apply notify_ev
          | apply claimWord_ev | apply dataWord_ev | apply headerRead_ev | apply latchHi_ev | refine ev_ite ?_ ?_
          | refine ev_fst (by assumption) ?_ | refine ev_snd (by assumption) ?_)
      | (show sub _ _ = true; rfl) | (show List.contains _ _ = true; rfl)

theorem readWord_ev (hF : sub [.pins, .regs, .queues, .readPorts, .hostPorts, .svcStats, .jnl, .rsv, .time, .out] H = true) (h :
    Evolves H s0 s) (o : Orig) (a : Nat) (hw : List Nat) : Evolves H s0 (readWord o a hw s).1 := by
  refine ev_mono hF h ?_
  unfold readWord
  repeat' first
      | (with_reducible first
          | exact ev_refl _ _ | assumption | apply mapMiss_ev | apply clearRead_ev
          | refine specialRead_ev ?_ ?_ _ _  _ (by assumption) | refine ev_ite ?_ ?_ | refine ev_fst (by assumption) ?_
          | refine ev_snd (by assumption) ?_)
      | (show sub _ _ = true; rfl) | (show List.contains _ _ = true) | dsimp only | split

theorem serveRead_ev (hF : sub [.pins, .regs, .queues, .readPorts, .hostPorts, .svcStats, .jnl, .rsv, .time, .out] H = true) (h
    : Evolves H s0 s) (o : Orig) (addr : Nat) (be : List Bool) : Evolves H s0 (serveRead o addr be s).1 := by
  refine ev_mono hF h ?_
  unfold serveRead
  repeat' first
      | (with_reducible first
          | exact ev_refl _ _ | assumption | apply readWord_ev | refine ev_ite ?_ ?_ | refine ev_fst (by assumption) ?_
          | refine ev_snd (by assumption) ?_ | (refine ev_foldl_fst ?_ ?_; rotate_left; intro _ _ _ _))
      | (show sub _ _ = true; rfl) | (show List.contains _ _ = true; rfl)

theorem targetReadWord_ev (hF : sub [.pins, .regs, .queues, .readPorts, .hostPorts, .svcStats, .jnl, .rsv, .weaves, .time, .brg,
    .out] H = true) (h : Evolves H s0 s) (t : Nat) (a : Nat) : Evolves H s0 (targetReadWord t a s) := by
  refine ev_mono hF h ?_
  unfold targetReadWord
  repeat' first
      | (with_reducible first
          | exact ev_refl _ _ | assumption | apply emit_ev | apply bridgeAccess_ev | apply readWord_ev | apply serveRead_ev
          | refine ev_ite ?_ ?_ | refine ev_fst (by assumption) ?_ | refine ev_snd (by assumption) ?_)
      | (show sub _ _ = true; rfl) | (show List.contains _ _ = true) | dsimp only | split

theorem targetReadWords_ev (hF : sub [.pins, .regs, .queues, .readPorts, .hostPorts, .svcStats, .jnl, .rsv, .weaves, .time,
    .brg, .out] H = true) (h : Evolves H s0 s) (t : Nat) (x1 : Nat) : Evolves H s0 (targetReadWords t x1 s) := by
  refine ev_mono hF h ?_
  clear h hF
  suffices key : ∀ s0 : State, Evolves [.pins, .regs, .queues, .readPorts, .hostPorts, .svcStats, .jnl, .rsv, .weaves, .time,
      .brg, .out] s0 s → Evolves [.pins, .regs, .queues, .readPorts, .hostPorts, .svcStats, .jnl, .rsv, .weaves, .time, .brg,
      .out] s0 (targetReadWords t x1 s) from key s (ev_refl _ s)
  fun_induction targetReadWords t x1 s <;> intro s0 h <;> repeat' first
      | (with_reducible first
          | exact ev_refl _ _ | assumption | apply_assumption -exfalso -symm | apply setWanted_ev | apply targetReadWord_ev
          | (refine ev_foldl ?_ ?_; rotate_left; intro _ _ _) | (refine ev_foldl_fst ?_ ?_; rotate_left; intro _ _ _ _)
          | (refine ev_foldl_snd ?_ ?_; rotate_left; intro _ _ _ _))
      | (show sub _ _ = true; rfl) | (show List.contains _ _ = true; rfl)

theorem resumeTarget_ev (hF : sub [.pins, .regs, .queues, .readPorts, .hostPorts, .svcStats, .jnl, .rsv, .weaves, .time, .brg,
    .out] H = true) (h : Evolves H s0 s)  : Evolves H s0 (resumeTarget s) := by
  refine ev_mono hF h ?_
  unfold resumeTarget
  repeat' first
      | (with_reducible first
          | exact ev_refl _ _ | assumption | apply targetReadWords_ev | refine ev_ite ?_ ?_ | refine ev_fst (by assumption) ?_
          | refine ev_snd (by assumption) ?_)
      | (show sub _ _ = true; rfl) | (show List.contains _ _ = true; rfl)

theorem diagCounted_ev (hF : sub [.regs, .eths] H = true) (h : Evolves H s0 s) (p : Nat) : Evolves H s0 (diagCounted p s) := by
  refine ev_mono hF h ?_
  unfold diagCounted
  repeat' first
      | (with_reducible first
          | exact ev_refl _ _ | assumption | apply inc_ev | apply setEth_ev | refine ev_ite ?_ ?_
          | refine ev_fst (by assumption) ?_ | refine ev_snd (by assumption) ?_)
      | (show sub _ _ = true; rfl) | (show List.contains _ _ = true; rfl)

theorem freeBytes_ev (hF : sub [.freeCount] H = true) (h : Evolves H s0 s) (n : Nat) : Evolves H s0 (freeBytes n s).2 := by
  refine ev_mono hF h ?_
  unfold freeBytes
  repeat' first
      | (with_reducible first
          | exact ev_refl _ _ | assumption | refine ev_ite ?_ ?_ | refine ev_fst (by assumption) ?_
          | refine ev_snd (by assumption) ?_)
      | (with_reducible first
          | exact Nat.le_add_right _ _ | exact le_rfl)
      | (show sub _ _ = true) | (show List.contains _ _ = true; rfl) | dsimp only | split | (with_reducible apply ev_freeCount)

theorem diagWords_ev (hF : sub [.pins, .regs, .queues, .readPorts, .hostPorts, .svcStats, .jnl, .rsv, .time, .out, .freeCount] H
    = true) (h : Evolves H s0 s) (p : Nat) (x1 : Nat) (x2 : Nat) : Evolves H s0 (diagWords p x1 x2 s).1 := by
  refine ev_mono hF h ?_
  clear h hF
  suffices key : ∀ s0 : State, Evolves [.pins, .regs, .queues, .readPorts, .hostPorts, .svcStats, .jnl, .rsv, .time, .out,
      .freeCount] s0 s → Evolves [.pins, .regs, .queues, .readPorts, .hostPorts, .svcStats, .jnl, .rsv, .time, .out, .freeCount]
      s0 (diagWords p x1 x2 s).1 from key s (ev_refl _ s)
  fun_induction diagWords p x1 x2 s <;> intro s0 h <;> repeat' first
      | (with_reducible first
          | exact ev_refl _ _ | assumption | apply_assumption -exfalso -symm | apply readWord_ev | apply freeBytes_ev
          | refine ev_ite ?_ ?_ | refine ev_fst (by assumption) ?_ | refine ev_snd (by assumption) ?_)
      | (show sub _ _ = true) | (show List.contains _ _ = true) | dsimp only | split | dsimp +zetaDelta only

theorem steerTime_ev (hF : sub [.pins, .now, .regs, .cfgB, .liveA, .ldr, .queues, .readPorts, .svcStats, .jnl, .rsv, .cams,
    .time, .pwms, .jmem, .out, .freeCount] H = true) (h : Evolves H s0 s) (o : Orig) (ws : List (Nat × Nat)) : Evolves H s0
    (steerTime o ws s) := by
  refine ev_mono hF h ?_
  unfold steerTime
  repeat' first
      | (with_reducible first
          | exact ev_refl _ _ | assumption | apply svcTimeWrite_ev | refine ev_ite ?_ ?_
          | (refine ev_foldl ?_ ?_; rotate_left; intro _ _ _) | refine ev_fst (by assumption) ?_
          | refine ev_snd (by assumption) ?_ | (refine ev_foldl_fst ?_ ?_; rotate_left; intro _ _ _ _)
          | (refine ev_foldl_snd ?_ ?_; rotate_left; intro _ _ _ _))
      | (show sub _ _ = true; rfl) | (show List.contains _ _ = true; rfl) | dsimp only | split

theorem doBridgeAccess_ev (hF : sub [.pins, .now, .regs, .cfgB, .cfgA, .cfgO, .liveB, .liveA, .ldr, .queues, .readPorts,
    .hostPorts, .svcStats, .jnl, .rsv, .cams, .frames, .running, .syncs, .outs, .nextOut, .holds, .txs, .chans, .weaves,
    .outFlows, .rly, .mnt, .time, .pwrs, .pwms, .folds, .brg, .protoErrs, .flash, .jmem, .ram, .out, .freeCount] H = true) (h :
    Evolves H s0 s) (o : Orig) (addr : Nat) (write : Bool) (be : List Bool) (data : List Nat) : Evolves H s0 (doBridgeAccess o
    addr write be data s) := by
  refine ev_mono hF h ?_
  unfold doBridgeAccess
  repeat' first
      | (with_reducible first
          | exact ev_refl _ _ | assumption | apply emit_ev | apply bridgeAccess_ev | apply serveWrite_ev | apply serveRead_ev
          | apply freeBytes_ev | apply steerTime_ev | refine ev_ite ?_ ?_ | (refine ev_foldl ?_ ?_; rotate_left; intro _ _ _)
          | refine ev_fst (by assumption) ?_ | refine ev_snd (by assumption) ?_
          | (refine ev_foldl_fst ?_ ?_; rotate_left; intro _ _ _ _) | (refine ev_foldl_snd ?_ ?_; rotate_left; intro _ _ _ _))
      | (show sub _ _ = true; rfl) | (show List.contains _ _ = true; rfl) | dsimp only | split

theorem doDiagRequest_ev (hF : sub [.pins, .regs, .queues, .readPorts, .hostPorts, .svcStats, .jnl, .rsv, .time, .eths, .out,
    .freeCount] H = true) (h : Evolves H s0 s) (p : Nat) (src : Nat) (tag : Nat) (ver : Nat) (op : Nat) (seq : Nat) (addr : Nat)
    (count : Nat) : Evolves H s0 (doDiagRequest p src tag ver op seq addr count s) := by
  refine ev_mono hF h ?_
  unfold doDiagRequest
  repeat' first
      | (with_reducible first
          | exact ev_refl _ _ | assumption | apply wr_ev | apply inc_ev | apply emit_ev | apply diagCounted_ev
          | apply diagWords_ev | refine ev_ite ?_ ?_ | refine ev_fst (by assumption) ?_ | refine ev_snd (by assumption) ?_)
      | (show sub _ _ = true; rfl) | (show List.contains _ _ = true) | dsimp only | split

theorem doRcRead_ev (hF : sub [.pins, .regs, .queues, .readPorts, .hostPorts, .svcStats, .jnl, .rsv, .time, .out] H = true) (h :
    Evolves H s0 s) (o : Orig) (a : Nat) (bytes : Nat) (hw : List Nat) : Evolves H s0 (doRcRead o a bytes hw s) := by
  refine ev_mono hF h ?_
  unfold doRcRead
  repeat' first
      | (with_reducible first
          | exact ev_refl _ _ | assumption | apply emit_ev | apply readWord_ev | refine ev_ite ?_ ?_
          | refine ev_fst (by assumption) ?_ | refine ev_snd (by assumption) ?_)
      | (show sub _ _ = true; rfl) | (show List.contains _ _ = true; rfl)

theorem doRegisterWrite_ev (hF : sub [.pins, .now, .regs, .cfgB, .cfgA, .cfgO, .liveB, .liveA, .ldr, .queues, .readPorts,
    .hostPorts, .svcStats, .jnl, .rsv, .cams, .frames, .running, .syncs, .outs, .nextOut, .holds, .txs, .chans, .weaves,
    .outFlows, .rly, .mnt, .time, .pwrs, .pwms, .folds, .brg, .protoErrs, .flash, .jmem, .ram, .out, .freeCount] H = true) (h :
    Evolves H s0 s) (o : Orig) (a : Nat) (v : Nat) (bytes : Nat) (hw : Nat) : Evolves H s0 (doRegisterWrite o a v bytes hw s) :=
    by
  refine ev_mono hF h ?_
  unfold doRegisterWrite
  repeat' first
      | (with_reducible first
          | exact ev_refl _ _ | assumption | apply mapMiss_ev | apply partialWrite_ev | apply tableStore_ev | apply writeWord_ev
          | apply steerTime_ev | refine ev_ite ?_ ?_ | (refine ev_foldl ?_ ?_; rotate_left; intro _ _ _)
          | refine ev_fst (by assumption) ?_ | refine ev_snd (by assumption) ?_
          | (refine ev_foldl_fst ?_ ?_; rotate_left; intro _ _ _ _) | (refine ev_foldl_snd ?_ ?_; rotate_left; intro _ _ _ _))
      | (show sub _ _ = true; rfl) | (show List.contains _ _ = true; rfl) | dsimp only | split

theorem doTargetRead_ev (hF : sub [.pins, .regs, .queues, .readPorts, .hostPorts, .svcStats, .jnl, .rsv, .weaves, .time, .brg,
    .out] H = true) (h : Evolves H s0 s) (t : Nat) (addr7 : Nat) (a : Nat) (n : Nat) : Evolves H s0 (doTargetRead t addr7 a n s)
    := by
  refine ev_mono hF h ?_
  unfold doTargetRead
  repeat' first
      | (with_reducible first
          | exact ev_refl _ _ | assumption | apply setWanted_ev | apply targetReadWords_ev | refine ev_ite ?_ ?_
          | refine ev_fst (by assumption) ?_ | refine ev_snd (by assumption) ?_)
      | (show sub _ _ = true; rfl) | (show List.contains _ _ = true; rfl)

theorem targetWriteWord_ev (hF : sub [.pins, .now, .regs, .cfgB, .cfgA, .cfgO, .liveB, .liveA, .ldr, .queues, .readPorts,
    .hostPorts, .svcStats, .jnl, .rsv, .cams, .frames, .running, .syncs, .outs, .nextOut, .holds, .txs, .chans, .weaves,
    .outFlows, .rly, .mnt, .time, .pwrs, .pwms, .folds, .brg, .protoErrs, .flash, .jmem, .ram, .out, .freeCount] H = true) (h :
    Evolves H s0 s) (a : Nat) (v : Nat) : Evolves H s0 (targetWriteWord a v s) := by
  refine ev_mono hF h ?_
  unfold targetWriteWord
  repeat' first
      | (with_reducible first
          | exact ev_refl _ _ | assumption | apply writeWord_ev | apply doBridgeAccess_ev | refine ev_ite ?_ ?_
          | refine ev_fst (by assumption) ?_ | refine ev_snd (by assumption) ?_)
      | (show sub _ _ = true; rfl) | (show List.contains _ _ = true) | dsimp only | split

theorem targetWriteWords_ev (hF : sub [.pins, .now, .regs, .cfgB, .cfgA, .cfgO, .liveB, .liveA, .ldr, .queues, .readPorts,
    .hostPorts, .svcStats, .jnl, .rsv, .cams, .frames, .running, .syncs, .outs, .nextOut, .holds, .txs, .chans, .weaves,
    .outFlows, .rly, .mnt, .time, .pwrs, .pwms, .folds, .brg, .protoErrs, .flash, .jmem, .ram, .out, .freeCount] H = true) (h :
    Evolves H s0 s) (x0 : List Nat) (x1 : Nat) : Evolves H s0 (targetWriteWords x0 x1 s) := by
  refine ev_mono hF h ?_
  clear h hF
  suffices key : ∀ s0 : State, Evolves [.pins, .now, .regs, .cfgB, .cfgA, .cfgO, .liveB, .liveA, .ldr, .queues, .readPorts,
      .hostPorts, .svcStats, .jnl, .rsv, .cams, .frames, .running, .syncs, .outs, .nextOut, .holds, .txs, .chans, .weaves,
      .outFlows, .rly, .mnt, .time, .pwrs, .pwms, .folds, .brg, .protoErrs, .flash, .jmem, .ram, .out, .freeCount] s0 s →
      Evolves [.pins, .now, .regs, .cfgB, .cfgA, .cfgO, .liveB, .liveA, .ldr, .queues, .readPorts, .hostPorts, .svcStats, .jnl,
      .rsv, .cams, .frames, .running, .syncs, .outs, .nextOut, .holds, .txs, .chans, .weaves, .outFlows, .rly, .mnt, .time,
      .pwrs, .pwms, .folds, .brg, .protoErrs, .flash, .jmem, .ram, .out, .freeCount] s0 (targetWriteWords x0 x1 s) from key s
      (ev_refl _ s)
  fun_induction targetWriteWords x0 x1 s <;> intro s0 h <;> repeat' first
      | (with_reducible first
          | exact ev_refl _ _ | assumption | apply_assumption -exfalso -symm | apply targetWriteWord_ev
          | (refine ev_foldl ?_ ?_; rotate_left; intro _ _ _) | (refine ev_foldl_fst ?_ ?_; rotate_left; intro _ _ _ _)
          | (refine ev_foldl_snd ?_ ?_; rotate_left; intro _ _ _ _))
      | (show sub _ _ = true; rfl) | (show List.contains _ _ = true; rfl)

theorem doTargetWrite_ev (hF : sub [.pins, .now, .regs, .cfgB, .cfgA, .cfgO, .liveB, .liveA, .ldr, .queues, .readPorts,
    .hostPorts, .svcStats, .jnl, .rsv, .cams, .frames, .running, .syncs, .outs, .nextOut, .holds, .txs, .chans, .weaves,
    .outFlows, .rly, .mnt, .time, .pwrs, .pwms, .folds, .brg, .protoErrs, .flash, .jmem, .ram, .out, .freeCount] H = true) (h :
    Evolves H s0 s) (t : Nat) (addr7 : Nat) (a : Nat) (bytes : List Nat) (end_ : Nat) : Evolves H s0 (doTargetWrite t addr7 a
    bytes end_ s) := by
  refine ev_mono hF h ?_
  unfold doTargetWrite
  repeat' first
      | (with_reducible first
          | exact ev_refl _ _ | assumption | apply inc_ev | apply recordError_ev | apply cutShort_ev | apply targetWriteWords_ev
          | refine ev_ite ?_ ?_ | refine ev_fst (by assumption) ?_ | refine ev_snd (by assumption) ?_)
      | (show sub _ _ = true; rfl) | (show List.contains _ _ = true; rfl)

theorem missAt_ev (hF : sub [.regs, .out] H = true) (h : Evolves H s0 s) (o : Orig) (a : Nat) (write : Bool) : Evolves H s0
    (missAt o a write s) := by
  refine ev_mono hF h ?_
  unfold missAt
  repeat' first
      | (with_reducible first
          | exact ev_refl _ _ | assumption | apply emit_ev | apply mapMiss_ev | refine ev_ite ?_ ?_
          | refine ev_fst (by assumption) ?_ | refine ev_snd (by assumption) ?_)
      | (show sub _ _ = true; rfl) | (show List.contains _ _ = true; rfl)

theorem doUnassignedAccess_ev (hF : sub [.regs, .out] H = true) (h : Evolves H s0 s) (o : Orig) (bar : Option Nat) (a : Nat)
    (write : Bool) : Evolves H s0 (doUnassignedAccess o bar a write s) := by
  refine ev_mono hF h ?_
  unfold doUnassignedAccess
  repeat' first
      | (with_reducible first
          | exact ev_refl _ _ | assumption | apply missAt_ev | refine ev_ite ?_ ?_ | refine ev_fst (by assumption) ?_
          | refine ev_snd (by assumption) ?_)
      | (show sub _ _ = true; rfl) | (show List.contains _ _ = true) | dsimp only | split

theorem execBridgeAccess_ev (hF : sub [.pins, .now, .regs, .cfgB, .cfgA, .cfgO, .liveB, .liveA, .ldr, .queues, .readPorts,
    .hostPorts, .svcStats, .jnl, .rsv, .cams, .frames, .running, .syncs, .outs, .nextOut, .holds, .txs, .chans, .weaves,
    .outFlows, .rly, .mnt, .time, .pwrs, .pwms, .folds, .brg, .protoErrs, .flash, .jmem, .ram, .out, .freeCount] H = true) (h :
    Evolves H s0 s) (x : Via) (addr : Nat) (write : Bool) (be : List Bool) (data : List Nat) (e : execBridgeAccess x addr write
    be data s = .next sNext) : Evolves H s0 sNext := by
  refine ev_mono hF h ?_
  unfold execBridgeAccess at e
  cases e
  repeat' first
      | (with_reducible first
          | exact ev_refl _ _ | assumption | apply doBridgeAccess_ev | refine ev_ite ?_ ?_
          | (refine ev_foldl ?_ ?_; rotate_left; intro _ _ _) | refine ev_fst (by assumption) ?_
          | refine ev_snd (by assumption) ?_ | (refine ev_foldl_fst ?_ ?_; rotate_left; intro _ _ _ _)
          | (refine ev_foldl_snd ?_ ?_; rotate_left; intro _ _ _ _))
      | (show sub _ _ = true; rfl) | (show List.contains _ _ = true; rfl) | dsimp only | split

theorem execBridgeReadTimeout_ev (hF : sub [.pins, .regs, .queues, .readPorts, .hostPorts, .svcStats, .jnl, .rsv, .twbs,
    .weaves, .time, .brg, .out] H = true) (h : Evolves H s0 s) (tag : Nat) (e : execBridgeReadTimeout tag s = .next sNext) :
    Evolves H s0 sNext := by
  refine ev_mono hF h ?_
  unfold execBridgeReadTimeout at e
  cases e
  repeat' first
      | (with_reducible first
          | exact ev_refl _ _ | assumption | apply resumeTarget_ev | apply doBridgeReadTimeout_ev | refine ev_ite ?_ ?_
          | refine ev_fst (by assumption) ?_ | refine ev_snd (by assumption) ?_)
      | (show sub _ _ = true; rfl) | (show List.contains _ _ = true; rfl)

theorem execBusStuckRecovery_ev (hF : sub [.pins, .regs, .queues, .readPorts, .hostPorts, .svcStats, .jnl, .rsv, .cams, .twbs,
    .frames, .running, .weaves, .time, .pwrs, .brg, .loops, .vcore, .out] H = true) (h : Evolves H s0 s) (i : Nat) (recovered :
    Bool) (e : execBusStuckRecovery i recovered s = .next sNext) : Evolves H s0 sNext := by
  refine ev_mono hF h ?_
  unfold execBusStuckRecovery at e
  cases e
  repeat' first
      | (with_reducible first
          | exact ev_refl _ _ | assumption | apply resumeTarget_ev | apply doBusStuckRecovery_ev | refine ev_ite ?_ ?_
          | refine ev_fst (by assumption) ?_ | refine ev_snd (by assumption) ?_)
      | (show sub _ _ = true; rfl) | (show List.contains _ _ = true; rfl)

theorem execDiagRequest_ev (hF : sub [.pins, .regs, .queues, .readPorts, .hostPorts, .svcStats, .jnl, .rsv, .time, .eths, .out,
    .freeCount] H = true) (h : Evolves H s0 s) (p : Nat) (src : Nat) (tag : Nat) (ver : Nat) (op : Nat) (seq : Nat) (addr : Nat)
    (count : Nat) (e : execDiagRequest p src tag ver op seq addr count s = .next sNext) : Evolves H s0 sNext := by
  refine ev_mono hF h ?_
  unfold execDiagRequest at e
  cases e
  repeat' first
      | (with_reducible first
          | exact ev_refl _ _ | assumption | apply doDiagRequest_ev | refine ev_ite ?_ ?_ | refine ev_fst (by assumption) ?_
          | refine ev_snd (by assumption) ?_)
      | (show sub _ _ = true; rfl) | (show List.contains _ _ = true; rfl)

theorem execRcRead_ev (hF : sub [.pins, .regs, .queues, .readPorts, .hostPorts, .svcStats, .jnl, .rsv, .time, .out] H = true) (h
    : Evolves H s0 s) (x : Via) (a : Nat) (bytes : Nat) (hw : List Nat) (e : execRcRead x a bytes hw s = .next sNext) : Evolves
    H s0 sNext := by
  refine ev_mono hF h ?_
  unfold execRcRead at e
  cases e
  repeat' first
      | (with_reducible first
          | exact ev_refl _ _ | assumption | apply doRcRead_ev | apply missAt_ev | refine ev_ite ?_ ?_
          | (refine ev_foldl ?_ ?_; rotate_left; intro _ _ _) | refine ev_fst (by assumption) ?_
          | refine ev_snd (by assumption) ?_ | (refine ev_foldl_fst ?_ ?_; rotate_left; intro _ _ _ _)
          | (refine ev_foldl_snd ?_ ?_; rotate_left; intro _ _ _ _))
      | (show sub _ _ = true; rfl) | (show List.contains _ _ = true; rfl) | dsimp only | split

theorem execRegisterWrite_ev (hF : sub [.pins, .now, .regs, .cfgB, .cfgA, .cfgO, .liveB, .liveA, .ldr, .queues, .readPorts,
    .hostPorts, .svcStats, .jnl, .rsv, .cams, .frames, .running, .syncs, .outs, .nextOut, .holds, .txs, .chans, .weaves,
    .outFlows, .rly, .mnt, .time, .pwrs, .pwms, .folds, .brg, .protoErrs, .flash, .jmem, .ram, .out, .freeCount] H = true) (h :
    Evolves H s0 s) (x : Via) (a : Nat) (v : Nat) (bytes : Nat) (hw : Nat) (e : execRegisterWrite x a v bytes hw s = .next
    sNext) : Evolves H s0 sNext := by
  refine ev_mono hF h ?_
  unfold execRegisterWrite at e
  cases e
  repeat' first
      | (with_reducible first
          | exact ev_refl _ _ | assumption | apply doRegisterWrite_ev | apply missAt_ev | refine ev_ite ?_ ?_
          | (refine ev_foldl ?_ ?_; rotate_left; intro _ _ _) | refine ev_fst (by assumption) ?_
          | refine ev_snd (by assumption) ?_ | (refine ev_foldl_fst ?_ ?_; rotate_left; intro _ _ _ _)
          | (refine ev_foldl_snd ?_ ?_; rotate_left; intro _ _ _ _))
      | (show sub _ _ = true; rfl) | (show List.contains _ _ = true; rfl) | dsimp only | split

theorem execRemoteWindowAccess_ev (hF : sub [.pins, .regs, .queues, .readPorts, .hostPorts, .svcStats, .jnl, .rsv, .weaves,
    .time, .brg, .out] H = true) (h : Evolves H s0 s) (f : Nat) (e : execRemoteWindowAccess f s = .next sNext) : Evolves H s0
    sNext := by
  refine ev_mono hF h ?_
  unfold execRemoteWindowAccess at e
  cases e
  repeat' first
      | (with_reducible first
          | exact ev_refl _ _ | assumption | apply resumeTarget_ev | apply doRemoteWindowAccess_ev | refine ev_ite ?_ ?_
          | refine ev_fst (by assumption) ?_ | refine ev_snd (by assumption) ?_)
      | (show sub _ _ = true; rfl) | (show List.contains _ _ = true; rfl)

theorem execRetryReissue_ev (hF : sub [.pins, .regs, .queues, .readPorts, .hostPorts, .svcStats, .jnl, .rsv, .weaves, .time,
    .brg, .out] H = true) (h : Evolves H s0 s) (tag : Nat) (e : execRetryReissue tag s = .next sNext) : Evolves H s0 sNext := by
  refine ev_mono hF h ?_
  unfold execRetryReissue at e
  cases e
  repeat' first
      | (with_reducible first
          | exact ev_refl _ _ | assumption | apply resumeTarget_ev | apply doRetryReissue_ev | refine ev_ite ?_ ?_
          | refine ev_fst (by assumption) ?_ | refine ev_snd (by assumption) ?_)
      | (show sub _ _ = true; rfl) | (show List.contains _ _ = true; rfl)

theorem execSensorWindowRead_ev (hF : sub [.pins, .regs, .queues, .readPorts, .hostPorts, .svcStats, .jnl, .rsv, .twbs, .weaves,
    .time, .brg, .out] H = true) (h : Evolves H s0 s) (p : Nat) (e : execSensorWindowRead p s = .next sNext) : Evolves H s0
    sNext := by
  refine ev_mono hF h ?_
  unfold execSensorWindowRead at e
  cases e
  repeat' first
      | (with_reducible first
          | exact ev_refl _ _ | assumption | apply resumeTarget_ev | apply doSensorWindowRead_ev | refine ev_ite ?_ ?_
          | refine ev_fst (by assumption) ?_ | refine ev_snd (by assumption) ?_)
      | (show sub _ _ = true; rfl) | (show List.contains _ _ = true; rfl)

theorem execStretchTimeout_ev (hF : sub [.pins, .regs, .queues, .readPorts, .hostPorts, .svcStats, .jnl, .rsv, .cams, .twbs,
    .frames, .running, .weaves, .time, .pwrs, .brg, .loops, .vcore, .out] H = true) (h : Evolves H s0 s) (i : Nat) (e :
    execStretchTimeout i s = .next sNext) : Evolves H s0 sNext := by
  refine ev_mono hF h ?_
  unfold execStretchTimeout at e
  cases e
  repeat' first
      | (with_reducible first
          | exact ev_refl _ _ | assumption | apply resumeTarget_ev | apply doStretchTimeout_ev | refine ev_ite ?_ ?_
          | refine ev_fst (by assumption) ?_ | refine ev_snd (by assumption) ?_)
      | (show sub _ _ = true; rfl) | (show List.contains _ _ = true; rfl)

theorem execTargetDataTimeout_ev (hF : sub [.pins, .regs, .queues, .readPorts, .hostPorts, .svcStats, .jnl, .rsv, .weaves,
    .time, .brg, .out] H = true) (h : Evolves H s0 s) (t : Nat) (e : execTargetDataTimeout t s = .next sNext) : Evolves H s0
    sNext := by
  refine ev_mono hF h ?_
  unfold execTargetDataTimeout at e
  cases e
  repeat' first
      | (with_reducible first
          | exact ev_refl _ _ | assumption | apply resumeTarget_ev | apply doTargetDataTimeout_ev | refine ev_ite ?_ ?_
          | refine ev_fst (by assumption) ?_ | refine ev_snd (by assumption) ?_)
      | (show sub _ _ = true; rfl) | (show List.contains _ _ = true; rfl)

theorem execTargetRead_ev (hF : sub [.pins, .regs, .queues, .readPorts, .hostPorts, .svcStats, .jnl, .rsv, .weaves, .time, .brg,
    .out] H = true) (h : Evolves H s0 s) (t : Nat) (addr7 : Nat) (a : Nat) (n : Nat) (e : execTargetRead t addr7 a n s = .next
    sNext) : Evolves H s0 sNext := by
  refine ev_mono hF h ?_
  unfold execTargetRead at e
  cases e
  repeat' first
      | (with_reducible first
          | exact ev_refl _ _ | assumption | apply doTargetRead_ev | refine ev_ite ?_ ?_ | refine ev_fst (by assumption) ?_
          | refine ev_snd (by assumption) ?_)
      | (show sub _ _ = true; rfl) | (show List.contains _ _ = true; rfl)

theorem execTargetWrite_ev (hF : sub [.pins, .now, .regs, .cfgB, .cfgA, .cfgO, .liveB, .liveA, .ldr, .queues, .readPorts,
    .hostPorts, .svcStats, .jnl, .rsv, .cams, .frames, .running, .syncs, .outs, .nextOut, .holds, .txs, .chans, .weaves,
    .outFlows, .rly, .mnt, .time, .pwrs, .pwms, .folds, .brg, .protoErrs, .flash, .jmem, .ram, .out, .freeCount] H = true) (h :
    Evolves H s0 s) (t : Nat) (addr7 : Nat) (a : Nat) (bytes : List Nat) (end_ : Nat) (e : execTargetWrite t addr7 a bytes end_
    s = .next sNext) : Evolves H s0 sNext := by
  refine ev_mono hF h ?_
  unfold execTargetWrite at e
  cases e
  repeat' first
      | (with_reducible first
          | exact ev_refl _ _ | assumption | apply doTargetWrite_ev | refine ev_ite ?_ ?_ | refine ev_fst (by assumption) ?_
          | refine ev_snd (by assumption) ?_)
      | (show sub _ _ = true; rfl) | (show List.contains _ _ = true; rfl)

theorem execTransactionDone_ev (hF : sub [.pins, .regs, .queues, .readPorts, .hostPorts, .svcStats, .jnl, .rsv, .cams, .twbs,
    .frames, .running, .weaves, .time, .pwrs, .brg, .loops, .vcore, .out] H = true) (h : Evolves H s0 s) (i : Nat) (ack : Bool)
    (data : List Nat) (e : execTransactionDone i ack data s = .next sNext) : Evolves H s0 sNext := by
  refine ev_mono hF h ?_
  unfold execTransactionDone at e
  cases e
  repeat' first
      | (with_reducible first
          | exact ev_refl _ _ | assumption | apply resumeTarget_ev | apply doTransactionDone_ev | refine ev_ite ?_ ?_
          | refine ev_fst (by assumption) ?_ | refine ev_snd (by assumption) ?_)
      | (show sub _ _ = true; rfl) | (show List.contains _ _ = true; rfl)

theorem execTransactionStart_ev (hF : sub [.pins, .regs, .queues, .readPorts, .hostPorts, .svcStats, .jnl, .rsv, .cams, .twbs,
    .frames, .running, .weaves, .time, .pwrs, .brg, .loops, .vcore, .out] H = true) (h : Evolves H s0 s) (i : Nat) (free : Bool)
    (lost : Option (Nat × Nat)) (e : execTransactionStart i free lost s = .next sNext) : Evolves H s0 sNext := by
  refine ev_mono hF h ?_
  unfold execTransactionStart at e
  cases e
  repeat' first
      | (with_reducible first
          | exact ev_refl _ _ | assumption | apply resumeTarget_ev | apply doTransactionStart_ev | refine ev_ite ?_ ?_
          | refine ev_fst (by assumption) ?_ | refine ev_snd (by assumption) ?_)
      | (show sub _ _ = true; rfl) | (show List.contains _ _ = true; rfl)

theorem execUnassignedAccess_ev (hF : sub [.regs, .out] H = true) (h : Evolves H s0 s) (o : Orig) (bar : Option Nat) (a : Nat)
    (write : Bool) (e : execUnassignedAccess o bar a write s = .next sNext) : Evolves H s0 sNext := by
  refine ev_mono hF h ?_
  unfold execUnassignedAccess at e
  cases e
  repeat' first
      | (with_reducible first
          | exact ev_refl _ _ | assumption | apply doUnassignedAccess_ev | refine ev_ite ?_ ?_
          | refine ev_fst (by assumption) ?_ | refine ev_snd (by assumption) ?_)
      | (show sub _ _ = true; rfl) | (show List.contains _ _ = true; rfl)

end Sys2Proof.Machine
end

