-- ==== Sys2Proof/Laws/EvBlocks.lean ====
section
/-! SUPPORT. What each function of Machine/Blocks.lean changes: one lemma per function, its footprint first. -/

namespace Sys2Proof.Machine
open Sys2Proof

set_option linter.unusedTactic false
set_option linter.unreachableTactic false
set_option linter.unusedVariables false

variable {H : List StateField} {s0 s sNext : State}

theorem addInFlow_ev (hF : sub [.weaves] H = true) (h : Evolves H s0 s) (p : Nat) (f : InFlow) : Evolves H s0 (addInFlow p f s)
    := by
  refine ev_mono hF h ?_
  unfold addInFlow
  repeat' first
      | (with_reducible first
          | exact ev_refl _ _ | assumption | apply setWv_ev | refine ev_ite ?_ ?_ | refine ev_fst (by assumption) ?_
          | refine ev_snd (by assumption) ?_)
      | (show sub _ _ = true; rfl) | (show List.contains _ _ = true; rfl)

theorem openRemote_ev (hF : sub [.regs, .liveA, .frames, .nextFrame, .weaves] H = true) (h : Evolves H s0 s) (p : Nat) (c : Nat)
    (f : InFlow) : Evolves H s0 (openRemote p c f s) := by
  refine ev_mono hF h ?_
  unfold openRemote
  repeat' first
      | (with_reducible first
          | exact ev_refl _ _ | assumption | apply wr_ev | apply setWv_ev | apply liveRefresh_ev | refine ev_ite ?_ ?_
          | refine ev_fst (by assumption) ?_ | refine ev_snd (by assumption) ?_)
      | (with_reducible first
          | exact Nat.le_add_right _ _ | exact le_rfl)
      | (show sub _ _ = true; rfl) | (show List.contains _ _ = true; rfl) | dsimp only | split
      | (with_reducible apply ev_frames_nextFrame)

theorem acceptFlow_ev (hF : sub [.regs, .liveA, .frames, .nextFrame, .weaves] H = true) (h : Evolves H s0 s) (p : Nat) (f :
    InFlow) : Evolves H s0 (acceptFlow p f s) := by
  refine ev_mono hF h ?_
  unfold acceptFlow
  repeat' first
      | (with_reducible first
          | exact ev_refl _ _ | assumption | apply inc_ev | apply addInFlow_ev | apply openRemote_ev | refine ev_ite ?_ ?_
          | refine ev_fst (by assumption) ?_ | refine ev_snd (by assumption) ?_)
      | (show sub _ _ = true; rfl) | (show List.contains _ _ = true) | dsimp only | split

theorem ackIfDue_ev (hF : sub [.weaves, .out] H = true) (h : Evolves H s0 s) (p : Nat) : Evolves H s0 (ackIfDue p s) := by
  refine ev_mono hF h ?_
  unfold ackIfDue
  repeat' first
      | (with_reducible first
          | exact ev_refl _ _ | assumption | apply sendAck_ev | refine ev_ite ?_ ?_ | refine ev_fst (by assumption) ?_
          | refine ev_snd (by assumption) ?_)
      | (show sub _ _ = true; rfl) | (show List.contains _ _ = true; rfl)

theorem addRemoteLine_ev (hF : sub [.regs, .liveA, .frames] H = true) (h : Evolves H s0 s) (id : Nat) (px : List Nat) (flags :
    Nat) (stream : List Nat) : Evolves H s0 (addRemoteLine id px flags stream s) := by
  refine ev_mono hF h ?_
  unfold addRemoteLine
  repeat' first
      | (with_reducible first
          | exact ev_refl _ _ | assumption | apply wr_ev | apply liveRefresh_ev | apply putFrame_ev | refine ev_ite ?_ ?_
          | refine ev_fst (by assumption) ?_ | refine ev_snd (by assumption) ?_)
      | (show sub _ _ = true; rfl) | (show List.contains _ _ = true) | dsimp only | split

theorem applyWrite_ev (hF : sub [.pins, .regs, .cfgB, .cfgA, .cfgO, .liveB, .ldr, .queues, .readPorts, .hostPorts, .svcStats,
    .jnl, .rsv, .cams, .frames, .running, .syncs, .outs, .nextOut, .holds, .txs, .chans, .weaves, .outFlows, .rly, .mnt, .pwrs,
    .pwms, .folds, .brg, .protoErrs, .flash, .jmem, .ram, .out, .freeCount] H = true) (h : Evolves H s0 s) (src : Nat) (tag :
    Nat) (addr : Nat) (be : List Bool) (data : List Nat) : Evolves H s0 (applyWrite src tag addr be data s) := by
  refine ev_mono hF h ?_
  unfold applyWrite
  repeat' first
      | (with_reducible first
          | exact ev_refl _ _ | assumption | apply sendRsp_ev | apply bridgeAccess_ev | apply serveWrite_ev
          | refine ev_ite ?_ ?_ | refine ev_fst (by assumption) ?_ | refine ev_snd (by assumption) ?_)
      | (show sub _ _ = true; rfl) | (show List.contains _ _ = true) | dsimp only | split

theorem routed_ev {act : State → State} (hF : sub [.regs, .weaves, .out] H = true) (h : Evolves H s0 s)
    (p : Nat) (b : Block) (ha : ∀ u, Evolves H s0 u → Evolves H s0 (act u)) : Evolves H s0 (routed p b act s) := by
  have hs := ha s h
  unfold routed
  repeat' first
      | assumption
      | (with_reducible first
          | apply inc_ev | apply sendBlock_ev | refine ev_ite ?_ ?_)
      | exact sub_trans rfl hF | dsimp only | split

theorem staleFlow_ev (hF : sub [.regs, .cfgB, .ldr, .queues, .readPorts, .hostPorts, .svcStats, .jnl, .rsv, .frames, .outs,
    .holds, .txs, .chans, .weaves, .outFlows, .jmem, .out, .freeCount] H = true) (h : Evolves H s0 s) (p : Nat) (b : Block) :
    Evolves H s0 (staleFlow p b s) := by
  refine ev_mono hF h ?_
  unfold staleFlow
  repeat' first
      | (with_reducible first
          | exact ev_refl _ _ | assumption | apply inc_ev | apply abortInFlow_ev | refine ev_ite ?_ ?_
          | refine ev_fst (by assumption) ?_ | refine ev_snd (by assumption) ?_)
      | (show sub _ _ = true; rfl) | (show List.contains _ _ = true) | dsimp only | split

theorem onFlow_ev {act : InFlow → State → State} (hF : sub [.regs, .cfgB, .ldr, .queues, .readPorts, .hostPorts, .svcStats,
    .jnl, .rsv, .frames, .outs, .holds, .txs, .chans, .weaves, .outFlows, .jmem, .out, .freeCount] H = true) (h : Evolves H s0
    s)
    (p : Nat) (b : Block) (ha : ∀ f u, Evolves H s0 u → Evolves H s0 (act f u)) : Evolves H s0 (onFlow p b act s) := by
  have hs := fun f => ha f s h
  unfold onFlow
  repeat' first
      | assumption
      | (with_reducible first
          | apply staleFlow_ev | refine ev_ite ?_ ?_)
      | exact sub_trans rfl hF | dsimp only | split | apply hs

theorem takeAbort_ev (hF : sub [.regs, .cfgB, .ldr, .queues, .readPorts, .hostPorts, .svcStats, .jnl, .rsv, .frames, .outs,
    .holds, .txs, .chans, .weaves, .outFlows, .jmem, .out, .freeCount] H = true) (h : Evolves H s0 s) (p : Nat) (b : Block) :
    Evolves H s0 (takeAbort p b s) := by
  refine ev_mono hF h ?_
  unfold takeAbort
  repeat' first
      | (with_reducible first
          | exact ev_refl _ _ | assumption | apply abortInFlow_ev | apply onFlow_ev | refine ev_ite ?_ ?_
          | refine ev_fst (by assumption) ?_ | refine ev_snd (by assumption) ?_ | intro _ _ _ | intro _ _)
      | (show sub _ _ = true; rfl) | (show List.contains _ _ = true; rfl)

theorem fillRemote_ev (hF : sub [.regs, .liveA, .frames] H = true) (h : Evolves H s0 s) (id : Nat) (width : Nat) (upTo : Nat) :
    Evolves H s0 (fillRemote id width upTo s) := by
  refine ev_mono hF h ?_
  unfold fillRemote
  repeat' first
      | (with_reducible first
          | exact ev_refl _ _ | assumption | apply each_ev | apply addRemoteLine_ev | refine ev_ite ?_ ?_
          | refine ev_fst (by assumption) ?_ | refine ev_snd (by assumption) ?_ | intro _ _ _ | intro _ _)
      | (show sub _ _ = true; rfl) | (show List.contains _ _ = true) | dsimp only | split

theorem remoteLine_ev (hF : sub [.regs, .liveA, .frames] H = true) (h : Evolves H s0 s) (f : InFlow) (id : Nat) (c : Nat) (bytes
    : List Nat) : Evolves H s0 (remoteLine f id c bytes s) := by
  refine ev_mono hF h ?_
  unfold remoteLine
  repeat' first
      | (with_reducible first
          | exact ev_refl _ _ | assumption | apply addRemoteLine_ev | apply fillRemote_ev | refine ev_ite ?_ ?_
          | refine ev_fst (by assumption) ?_ | refine ev_snd (by assumption) ?_)
      | (show sub _ _ = true; rfl) | (show List.contains _ _ = true; rfl)

theorem takeLines_ev (hF : sub [.regs, .liveA, .frames] H = true) (h : Evolves H s0 s) (p : Nat) (id : Nat) (c : Nat) (keep :
    Nat) (x4 : Nat) (x5 : InFlow) : Evolves H s0 (takeLines p id c keep x4 x5 s).2 := by
  refine ev_mono hF h ?_
  clear h hF
  suffices key : ∀ s0 : State, Evolves [.regs, .liveA, .frames] s0 s → Evolves [.regs, .liveA, .frames] s0 (takeLines p id c
      keep x4 x5 s).2 from key s (ev_refl _ s)
  fun_induction takeLines p id c keep x4 x5 s <;> intro s0 h <;> repeat' first
      | (with_reducible first
          | exact ev_refl _ _ | assumption | apply_assumption -exfalso -symm | apply remoteLine_ev
          | (refine ev_foldl ?_ ?_; rotate_left; intro _ _ _) | (refine ev_foldl_fst ?_ ?_; rotate_left; intro _ _ _ _)
          | (refine ev_foldl_snd ?_ ?_; rotate_left; intro _ _ _ _))
      | (show sub _ _ = true; rfl) | (show List.contains _ _ = true; rfl)

theorem takeData_ev (hF : sub [.regs, .cfgB, .liveA, .ldr, .queues, .readPorts, .hostPorts, .svcStats, .jnl, .rsv, .frames,
    .outs, .holds, .txs, .chans, .weaves, .outFlows, .jmem, .out, .freeCount] H = true) (h : Evolves H s0 s) (p : Nat) (b :
    Block) : Evolves H s0 (takeData p b s) := by
  refine ev_mono hF h ?_
  unfold takeData
  repeat' first
      | (with_reducible first
          | exact ev_refl _ _ | assumption | apply sendBlock_ev | apply onFlow_ev | apply putInFlow_ev | apply takeLines_ev
          | refine ev_ite ?_ ?_ | refine ev_fst (by assumption) ?_ | refine ev_snd (by assumption) ?_ | intro _ _ _ | intro _ _)
      | (show sub _ _ = true; rfl) | (show List.contains _ _ = true) | dsimp only | split

theorem endRemote_ev (hF : sub [.regs, .liveA, .frames, .weaves] H = true) (h : Evolves H s0 s) (p : Nat) (id : Nat) (c : Nat)
    (total : Nat) (blocks : Nat) (f : InFlow) : Evolves H s0 (endRemote p id c total blocks f s) := by
  refine ev_mono hF h ?_
  unfold endRemote
  repeat' first
      | (with_reducible first
          | exact ev_refl _ _ | assumption | apply dropInFlow_ev | apply putFrame_ev | apply fillRemote_ev | apply takeLines_ev
          | refine ev_ite ?_ ?_ | refine ev_fst (by assumption) ?_ | refine ev_snd (by assumption) ?_)
      | (show sub _ _ = true; rfl) | (show List.contains _ _ = true) | dsimp only | split

theorem takeEnd_ev (hF : sub [.regs, .cfgB, .liveA, .ldr, .queues, .readPorts, .hostPorts, .svcStats, .jnl, .rsv, .frames,
    .outs, .holds, .txs, .chans, .weaves, .outFlows, .jmem, .out, .freeCount] H = true) (h : Evolves H s0 s) (p : Nat) (b :
    Block) : Evolves H s0 (takeEnd p b s) := by
  refine ev_mono hF h ?_
  unfold takeEnd
  repeat' first
      | (with_reducible first
          | exact ev_refl _ _ | assumption | apply dropFlow_ev | apply sendBlock_ev | apply dropInFlow_ev | apply onFlow_ev
          | apply endRemote_ev | refine ev_ite ?_ ?_ | refine ev_fst (by assumption) ?_ | refine ev_snd (by assumption) ?_
          | intro _ _ _ | intro _ _)
      | (show sub _ _ = true; rfl) | (show List.contains _ _ = true) | dsimp only | split

theorem takeLsa_ev (hF : sub [.regs, .cfgB, .ldr, .queues, .readPorts, .hostPorts, .svcStats, .jnl, .rsv, .frames, .outs,
    .doneKeys, .holds, .txs, .chans, .weaves, .outFlows, .fab, .jmem, .out, .freeCount] H = true) (h : Evolves H s0 s) (p : Nat)
    (b : Block) : Evolves H s0 (takeLsa p b s) := by
  refine ev_mono hF h ?_
  unfold takeLsa
  repeat' first
      | (with_reducible first
          | exact ev_refl _ _ | assumption | apply sendBlock_ev | apply each_ev | apply refreshFabric_ev
          | apply adoptGeneration_ev | refine ev_ite ?_ ?_ | refine ev_fst (by assumption) ?_ | refine ev_snd (by assumption) ?_
          | intro _ _ _ | intro _ _)
      | (show sub _ _ = true; rfl) | (show List.contains _ _ = true; rfl) | dsimp only | split | (with_reducible apply ev_fab)

theorem notePassing_ev (hF : sub [.fab] H = true) (h : Evolves H s0 s) (f : InFlow) : Evolves H s0 (notePassing f s) := by
  refine ev_mono hF h ?_
  unfold notePassing
  repeat' first
      | (with_reducible first
          | exact ev_refl _ _ | assumption | refine ev_ite ?_ ?_ | refine ev_fst (by assumption) ?_
          | refine ev_snd (by assumption) ?_)
      | (show sub _ _ = true) | (show List.contains _ _ = true; rfl) | dsimp only | split | (with_reducible apply ev_fab)

theorem refuseFlow_ev (hF : sub [.regs, .weaves, .out, .freeCount] H = true) (h : Evolves H s0 s) (q : Nat) (cls : Nat) :
    Evolves H s0 (refuseFlow q cls s) := by
  refine ev_mono hF h ?_
  unfold refuseFlow
  repeat' first
      | (with_reducible first
          | exact ev_refl _ _ | assumption | apply sendBlock_ev | refine ev_ite ?_ ?_ | refine ev_fst (by assumption) ?_
          | refine ev_snd (by assumption) ?_)
      | (with_reducible first
          | exact Nat.le_add_right _ _ | exact le_rfl)
      | (show sub _ _ = true; rfl) | (show List.contains _ _ = true; rfl) | dsimp only | split
      | (with_reducible apply ev_freeCount)

theorem forwardFlow_ev (hF : sub [.regs, .weaves, .outFlows, .fab, .out, .freeCount] H = true) (h : Evolves H s0 s) (p : Nat)
    (dst : Nat) (b : Block) (f : InFlow) : Evolves H s0 (forwardFlow p dst b f s) := by
  refine ev_mono hF h ?_
  unfold forwardFlow
  repeat' first
      | (with_reducible first
          | exact ev_refl _ _ | assumption | apply sendBlock_ev | apply addInFlow_ev | apply notePassing_ev
          | apply refuseFlow_ev | refine ev_ite ?_ ?_ | refine ev_fst (by assumption) ?_ | refine ev_snd (by assumption) ?_)
      | (show sub _ _ = true; rfl) | (show List.contains _ _ = true; rfl) | dsimp only | split
      | (with_reducible apply ev_outFlows)

theorem takeOpen_ev (hF : sub [.regs, .cfgB, .liveA, .ldr, .queues, .readPorts, .hostPorts, .svcStats, .jnl, .rsv, .frames,
    .nextFrame, .outs, .holds, .txs, .chans, .weaves, .outFlows, .fab, .jmem, .out, .freeCount] H = true) (h : Evolves H s0 s)
    (p : Nat) (b : Block) : Evolves H s0 (takeOpen p b s) := by
  refine ev_mono hF h ?_
  unfold takeOpen
  repeat' first
      | (with_reducible first
          | exact ev_refl _ _ | assumption | apply inc_ev | apply abortInFlow_ev | apply acceptFlow_ev | apply forwardFlow_ev
          | refine ev_ite ?_ ?_ | refine ev_fst (by assumption) ?_ | refine ev_snd (by assumption) ?_)
      | (show sub _ _ = true; rfl) | (show List.contains _ _ = true) | dsimp only | split

theorem serveReq_ev (hF : sub [.pins, .regs, .queues, .readPorts, .hostPorts, .svcStats, .jnl, .rsv, .weaves, .time, .brg, .out]
    H = true) (h : Evolves H s0 s) (src : Nat) (tag : Nat) (addr : Nat) (be : List Bool) : Evolves H s0 (serveReq src tag addr
    be s) := by
  refine ev_mono hF h ?_
  unfold serveReq
  repeat' first
      | (with_reducible first
          | exact ev_refl _ _ | assumption | apply sendHalves_ev | apply bridgeAccess_ev | apply serveRead_ev
          | refine ev_ite ?_ ?_ | refine ev_fst (by assumption) ?_ | refine ev_snd (by assumption) ?_)
      | (show sub _ _ = true; rfl) | (show List.contains _ _ = true) | dsimp only | split

theorem takeHalf_ev (hF : sub [.pins, .regs, .cfgB, .cfgA, .cfgO, .liveB, .ldr, .queues, .readPorts, .hostPorts, .svcStats,
    .jnl, .rsv, .cams, .frames, .running, .syncs, .outs, .nextOut, .holds, .txs, .chans, .weaves, .outFlows, .rly, .mnt, .pwrs,
    .pwms, .folds, .brg, .protoErrs, .flash, .jmem, .ram, .out, .freeCount] H = true) (h : Evolves H s0 s) (src : Nat) (tag :
    Nat) (block : Nat) (en : Nat) (op : Nat) (halves : Nat) (data : List Nat) : Evolves H s0 (takeHalf src tag block en op
    halves data s) := by
  refine ev_mono hF h ?_
  unfold takeHalf
  repeat' first
      | (with_reducible first
          | exact ev_refl _ _ | assumption | apply applyWrite_ev | refine ev_ite ?_ ?_ | refine ev_fst (by assumption) ?_
          | refine ev_snd (by assumption) ?_)
      | (show sub _ _ = true; rfl) | (show List.contains _ _ = true; rfl) | dsimp only | split | (with_reducible apply ev_brg)

theorem takeReq_ev (hF : sub [.pins, .regs, .cfgB, .cfgA, .cfgO, .liveB, .ldr, .queues, .readPorts, .hostPorts, .svcStats, .jnl,
    .rsv, .cams, .frames, .running, .syncs, .outs, .nextOut, .holds, .txs, .chans, .weaves, .outFlows, .rly, .mnt, .time, .pwrs,
    .pwms, .folds, .brg, .protoErrs, .flash, .jmem, .ram, .out, .freeCount] H = true) (h : Evolves H s0 s) (b : Block) : Evolves
    H s0 (takeReq b s) := by
  refine ev_mono hF h ?_
  unfold takeReq
  repeat' first
      | (with_reducible first
          | exact ev_refl _ _ | assumption | apply inc_ev | apply sendRsp_ev | apply serveReq_ev | apply takeHalf_ev
          | refine ev_ite ?_ ?_ | refine ev_fst (by assumption) ?_ | refine ev_snd (by assumption) ?_)
      | (show sub _ _ = true; rfl) | (show List.contains _ _ = true; rfl)

theorem takeRsp_ev (hF : sub [.regs, .queues, .readPorts, .svcStats, .jnl, .weaves, .brg, .out] H = true) (h : Evolves H s0 s)
    (b : Block) : Evolves H s0 (takeRsp b s) := by
  refine ev_mono hF h ?_
  unfold takeRsp
  repeat' first
      | (with_reducible first
          | exact ev_refl _ _ | assumption | apply bridgeRsp_ev | refine ev_ite ?_ ?_ | refine ev_fst (by assumption) ?_
          | refine ev_snd (by assumption) ?_)
      | (show sub _ _ = true; rfl) | (show List.contains _ _ = true; rfl)

theorem deliverBlock_ev (hF : sub [.pins, .regs, .cfgB, .cfgA, .cfgO, .liveB, .liveA, .ldr, .queues, .readPorts, .hostPorts,
    .svcStats, .jnl, .rsv, .cams, .frames, .nextFrame, .running, .syncs, .outs, .nextOut, .doneKeys, .holds, .txs, .chans,
    .weaves, .outFlows, .fab, .rly, .mnt, .time, .pwrs, .pwms, .folds, .brg, .protoErrs, .flash, .jmem, .ram, .out, .freeCount]
    H = true) (h : Evolves H s0 s) (p : Nat) (b : Block) : Evolves H s0 (deliverBlock p b s) := by
  refine ev_mono hF h ?_
  unfold deliverBlock
  repeat' first
      | (with_reducible first
          | exact ev_refl _ _ | assumption | apply deliverRelay_ev | apply resumeTarget_ev | apply routed_ev
          | apply takeAbort_ev | apply takeData_ev | apply takeEnd_ev | apply takeLsa_ev | apply takeOpen_ev | apply takeReq_ev
          | apply takeRsp_ev | refine ev_ite ?_ ?_ | refine ev_fst (by assumption) ?_ | refine ev_snd (by assumption) ?_
          | intro _ _ _ | intro _ _)
      | (show sub _ _ = true; rfl) | (show List.contains _ _ = true) | dsimp only | split

theorem deliverHeld_ev (hF : sub [.pins, .regs, .cfgB, .cfgA, .cfgO, .liveB, .liveA, .ldr, .queues, .readPorts, .hostPorts,
    .svcStats, .jnl, .rsv, .cams, .frames, .nextFrame, .running, .syncs, .outs, .nextOut, .doneKeys, .holds, .txs, .chans,
    .weaves, .outFlows, .fab, .rly, .mnt, .time, .pwrs, .pwms, .folds, .brg, .protoErrs, .flash, .jmem, .ram, .out, .freeCount]
    H = true) (h : Evolves H s0 s) (p : Nat) (x1 : Nat) : Evolves H s0 (deliverHeld p x1 s) := by
  refine ev_mono hF h ?_
  clear h hF
  suffices key : ∀ s0 : State, Evolves [.pins, .regs, .cfgB, .cfgA, .cfgO, .liveB, .liveA, .ldr, .queues, .readPorts,
      .hostPorts, .svcStats, .jnl, .rsv, .cams, .frames, .nextFrame, .running, .syncs, .outs, .nextOut, .doneKeys, .holds, .txs,
      .chans, .weaves, .outFlows, .fab, .rly, .mnt, .time, .pwrs, .pwms, .folds, .brg, .protoErrs, .flash, .jmem, .ram, .out,
      .freeCount] s0 s → Evolves [.pins, .regs, .cfgB, .cfgA, .cfgO, .liveB, .liveA, .ldr, .queues, .readPorts, .hostPorts,
      .svcStats, .jnl, .rsv, .cams, .frames, .nextFrame, .running, .syncs, .outs, .nextOut, .doneKeys, .holds, .txs, .chans,
      .weaves, .outFlows, .fab, .rly, .mnt, .time, .pwrs, .pwms, .folds, .brg, .protoErrs, .flash, .jmem, .ram, .out,
      .freeCount] s0 (deliverHeld p x1 s) from key s (ev_refl _ s)
  fun_induction deliverHeld p x1 s <;> intro s0 h <;> repeat' first
      | (with_reducible first
          | exact ev_refl _ _ | assumption | apply_assumption -exfalso -symm | apply setWv_ev | apply deliverBlock_ev
          | (refine ev_foldl ?_ ?_; rotate_left; intro _ _ _) | (refine ev_foldl_fst ?_ ?_; rotate_left; intro _ _ _ _)
          | (refine ev_foldl_snd ?_ ?_; rotate_left; intro _ _ _ _))
      | (show sub _ _ = true; rfl) | (show List.contains _ _ = true; rfl)

theorem doTimeBlock_ev (hF : sub [.weaves, .time] H = true) (h : Evolves H s0 s) (p : Nat) (sent : Nat) (echo : Nat) (echoAt :
    Nat) (gm : List Nat) (free : Option Nat) : Evolves H s0 (doTimeBlock p sent echo echoAt gm free s) := by
  refine ev_mono hF h ?_
  unfold doTimeBlock
  repeat' first
      | (with_reducible first
          | exact ev_refl _ _ | assumption | apply setWv_ev | refine ev_ite ?_ ?_ | refine ev_fst (by assumption) ?_
          | refine ev_snd (by assumption) ?_)
      | (show sub _ _ = true; rfl) | (show List.contains _ _ = true; rfl) | dsimp only | split | (with_reducible apply ev_time)

theorem doTimeExchange_ev (hF : sub [.weaves, .out] H = true) (h : Evolves H s0 s) (p : Nat) : Evolves H s0 (doTimeExchange p s)
    := by
  refine ev_mono hF h ?_
  unfold doTimeExchange
  repeat' first
      | (with_reducible first
          | exact ev_refl _ _ | assumption | apply setWv_ev | apply sendLocal_ev | refine ev_ite ?_ ?_
          | refine ev_fst (by assumption) ?_ | refine ev_snd (by assumption) ?_)
      | (show sub _ _ = true; rfl) | (show List.contains _ _ = true; rfl)

theorem noteHeld_ev (hF : sub [.regs] H = true) (h : Evolves H s0 s) (p : Nat) : Evolves H s0 (noteHeld p s) := by
  refine ev_mono hF h ?_
  unfold noteHeld
  repeat' first
      | (with_reducible first
          | exact ev_refl _ _ | assumption | apply wr_ev | refine ev_ite ?_ ?_ | refine ev_fst (by assumption) ?_
          | refine ev_snd (by assumption) ?_)
      | (show sub _ _ = true; rfl) | (show List.contains _ _ = true; rfl)

theorem receiveBlock_ev (hF : sub [.pins, .regs, .cfgB, .cfgA, .cfgO, .liveB, .liveA, .ldr, .queues, .readPorts, .hostPorts,
    .svcStats, .jnl, .rsv, .cams, .frames, .nextFrame, .running, .syncs, .outs, .nextOut, .doneKeys, .holds, .txs, .chans,
    .weaves, .outFlows, .fab, .rly, .mnt, .time, .pwrs, .pwms, .folds, .brg, .protoErrs, .flash, .jmem, .ram, .out, .freeCount]
    H = true) (h : Evolves H s0 s) (p : Nat) (b : Block) : Evolves H s0 (receiveBlock p b s) := by
  refine ev_mono hF h ?_
  unfold receiveBlock
  repeat' first
      | (with_reducible first
          | exact ev_refl _ _ | assumption | apply setWv_ev | apply sendAck_ev | apply ackIfDue_ev | apply deliverHeld_ev
          | apply noteHeld_ev | refine ev_ite ?_ ?_ | refine ev_fst (by assumption) ?_ | refine ev_snd (by assumption) ?_)
      | (show sub _ _ = true; rfl) | (show List.contains _ _ = true; rfl)

theorem execAbortBlock_ev (hF : sub [.pins, .regs, .cfgB, .cfgA, .cfgO, .liveB, .liveA, .ldr, .queues, .readPorts, .hostPorts,
    .svcStats, .jnl, .rsv, .cams, .frames, .nextFrame, .running, .syncs, .outs, .nextOut, .doneKeys, .holds, .txs, .chans,
    .weaves, .outFlows, .fab, .rly, .mnt, .time, .pwrs, .pwms, .folds, .brg, .protoErrs, .flash, .jmem, .ram, .out, .freeCount]
    H = true) (h : Evolves H s0 s) (p : Nat) (seq : Nat) (gen : Nat) (cls : Nat) (flow : Nat) (cause : Nat) (e : execAbortBlock
    p seq gen cls flow cause s = .next sNext) : Evolves H s0 sNext := by
  refine ev_mono hF h ?_
  unfold execAbortBlock at e
  cases e
  repeat' first
      | (with_reducible first
          | exact ev_refl _ _ | assumption | apply receiveBlock_ev | refine ev_ite ?_ ?_ | refine ev_fst (by assumption) ?_
          | refine ev_snd (by assumption) ?_)
      | (show sub _ _ = true; rfl) | (show List.contains _ _ = true; rfl)

theorem relayBlock_ev (hF : sub [.pins, .regs, .cfgB, .cfgA, .cfgO, .liveB, .liveA, .ldr, .queues, .readPorts, .hostPorts,
    .svcStats, .jnl, .rsv, .cams, .frames, .nextFrame, .running, .syncs, .outs, .nextOut, .doneKeys, .holds, .txs, .chans,
    .weaves, .outFlows, .fab, .rly, .mnt, .time, .pwrs, .pwms, .folds, .brg, .protoErrs, .flash, .jmem, .ram, .out, .freeCount]
    H = true) (h : Evolves H s0 s) (p : Nat) (seq : Nat) (kind : Nat) (body : List Nat) : Evolves H s0 (relayBlock p seq kind
    body s) := by
  refine ev_mono hF h ?_
  unfold relayBlock
  repeat' first
      | (with_reducible first
          | exact ev_refl _ _ | assumption | apply receiveBlock_ev | refine ev_ite ?_ ?_ | refine ev_fst (by assumption) ?_
          | refine ev_snd (by assumption) ?_)
      | (show sub _ _ = true; rfl) | (show List.contains _ _ = true; rfl)

theorem execBatonCommit_ev (hF : sub [.pins, .regs, .cfgB, .cfgA, .cfgO, .liveB, .liveA, .ldr, .queues, .readPorts, .hostPorts,
    .svcStats, .jnl, .rsv, .cams, .frames, .nextFrame, .running, .syncs, .outs, .nextOut, .doneKeys, .holds, .txs, .chans,
    .weaves, .outFlows, .fab, .rly, .mnt, .time, .pwrs, .pwms, .folds, .brg, .protoErrs, .flash, .jmem, .ram, .out, .freeCount]
    H = true) (h : Evolves H s0 s) (p : Nat) (seq : Nat) (batonGen : Nat) (e : execBatonCommit p seq batonGen s = .next sNext) :
    Evolves H s0 sNext := by
  refine ev_mono hF h ?_
  unfold execBatonCommit at e
  cases e
  repeat' first
      | (with_reducible first
          | exact ev_refl _ _ | assumption | apply relayBlock_ev | refine ev_ite ?_ ?_ | refine ev_fst (by assumption) ?_
          | refine ev_snd (by assumption) ?_)
      | (show sub _ _ = true; rfl) | (show List.contains _ _ = true; rfl)

theorem execBatonOffer_ev (hF : sub [.pins, .regs, .cfgB, .cfgA, .cfgO, .liveB, .liveA, .ldr, .queues, .readPorts, .hostPorts,
    .svcStats, .jnl, .rsv, .cams, .frames, .nextFrame, .running, .syncs, .outs, .nextOut, .doneKeys, .holds, .txs, .chans,
    .weaves, .outFlows, .fab, .rly, .mnt, .time, .pwrs, .pwms, .folds, .brg, .protoErrs, .flash, .jmem, .ram, .out, .freeCount]
    H = true) (h : Evolves H s0 s) (p : Nat) (seq : Nat) (batonGen : Nat) (e : execBatonOffer p seq batonGen s = .next sNext) :
    Evolves H s0 sNext := by
  refine ev_mono hF h ?_
  unfold execBatonOffer at e
  cases e
  repeat' first
      | (with_reducible first
          | exact ev_refl _ _ | assumption | apply relayBlock_ev | refine ev_ite ?_ ?_ | refine ev_fst (by assumption) ?_
          | refine ev_snd (by assumption) ?_)
      | (show sub _ _ = true; rfl) | (show List.contains _ _ = true; rfl)

theorem execBrgReq_ev (hF : sub [.pins, .regs, .cfgB, .cfgA, .cfgO, .liveB, .liveA, .ldr, .queues, .readPorts, .hostPorts,
    .svcStats, .jnl, .rsv, .cams, .frames, .nextFrame, .running, .syncs, .outs, .nextOut, .doneKeys, .holds, .txs, .chans,
    .weaves, .outFlows, .fab, .rly, .mnt, .time, .pwrs, .pwms, .folds, .brg, .protoErrs, .flash, .jmem, .ram, .out, .freeCount]
    H = true) (h : Evolves H s0 s) (p : Nat) (seq : Nat) (gen : Nat) (payload : List Nat) (issued : Nat) (e : execBrgReq p seq
    gen payload issued s = .next sNext) : Evolves H s0 sNext := by
  refine ev_mono hF h ?_
  unfold execBrgReq at e
  cases e
  repeat' first
      | (with_reducible first
          | exact ev_refl _ _ | assumption | apply receiveBlock_ev | refine ev_ite ?_ ?_ | refine ev_fst (by assumption) ?_
          | refine ev_snd (by assumption) ?_)
      | (show sub _ _ = true; rfl) | (show List.contains _ _ = true; rfl)

theorem execBrgRsp_ev (hF : sub [.pins, .regs, .cfgB, .cfgA, .cfgO, .liveB, .liveA, .ldr, .queues, .readPorts, .hostPorts,
    .svcStats, .jnl, .rsv, .cams, .frames, .nextFrame, .running, .syncs, .outs, .nextOut, .doneKeys, .holds, .txs, .chans,
    .weaves, .outFlows, .fab, .rly, .mnt, .time, .pwrs, .pwms, .folds, .brg, .protoErrs, .flash, .jmem, .ram, .out, .freeCount]
    H = true) (h : Evolves H s0 s) (p : Nat) (seq : Nat) (gen : Nat) (payload : List Nat) (e : execBrgRsp p seq gen payload s =
    .next sNext) : Evolves H s0 sNext := by
  refine ev_mono hF h ?_
  unfold execBrgRsp at e
  cases e
  repeat' first
      | (with_reducible first
          | exact ev_refl _ _ | assumption | apply receiveBlock_ev | refine ev_ite ?_ ?_ | refine ev_fst (by assumption) ?_
          | refine ev_snd (by assumption) ?_)
      | (show sub _ _ = true; rfl) | (show List.contains _ _ = true; rfl)

theorem execDataBlock_ev (hF : sub [.pins, .regs, .cfgB, .cfgA, .cfgO, .liveB, .liveA, .ldr, .queues, .readPorts, .hostPorts,
    .svcStats, .jnl, .rsv, .cams, .frames, .nextFrame, .running, .syncs, .outs, .nextOut, .doneKeys, .holds, .txs, .chans,
    .weaves, .outFlows, .fab, .rly, .mnt, .time, .pwrs, .pwms, .folds, .brg, .protoErrs, .flash, .jmem, .ram, .out, .freeCount]
    H = true) (h : Evolves H s0 s) (p : Nat) (seq : Nat) (gen : Nat) (cls : Nat) (flow : Nat) (payload : List Nat) (e :
    execDataBlock p seq gen cls flow payload s = .next sNext) : Evolves H s0 sNext := by
  refine ev_mono hF h ?_
  unfold execDataBlock at e
  cases e
  repeat' first
      | (with_reducible first
          | exact ev_refl _ _ | assumption | apply receiveBlock_ev | refine ev_ite ?_ ?_ | refine ev_fst (by assumption) ?_
          | refine ev_snd (by assumption) ?_)
      | (show sub _ _ = true; rfl) | (show List.contains _ _ = true; rfl)

theorem execDeliver_ev (hF : sub [.pins, .regs, .cfgB, .cfgA, .cfgO, .liveB, .liveA, .ldr, .queues, .readPorts, .hostPorts,
    .svcStats, .jnl, .rsv, .cams, .frames, .nextFrame, .running, .syncs, .outs, .nextOut, .doneKeys, .holds, .txs, .chans,
    .weaves, .outFlows, .fab, .rly, .mnt, .time, .pwrs, .pwms, .folds, .brg, .protoErrs, .flash, .jmem, .ram, .out, .freeCount]
    H = true) (h : Evolves H s0 s) (p : Nat) (seq : Nat) (body : List Nat) (e : execDeliver p seq body s = .next sNext) :
    Evolves H s0 sNext := by
  refine ev_mono hF h ?_
  unfold execDeliver at e
  cases e
  repeat' first
      | (with_reducible first
          | exact ev_refl _ _ | assumption | apply relayBlock_ev | refine ev_ite ?_ ?_ | refine ev_fst (by assumption) ?_
          | refine ev_snd (by assumption) ?_)
      | (show sub _ _ = true; rfl) | (show List.contains _ _ = true; rfl)

theorem execEndBlock_ev (hF : sub [.pins, .regs, .cfgB, .cfgA, .cfgO, .liveB, .liveA, .ldr, .queues, .readPorts, .hostPorts,
    .svcStats, .jnl, .rsv, .cams, .frames, .nextFrame, .running, .syncs, .outs, .nextOut, .doneKeys, .holds, .txs, .chans,
    .weaves, .outFlows, .fab, .rly, .mnt, .time, .pwrs, .pwms, .folds, .brg, .protoErrs, .flash, .jmem, .ram, .out, .freeCount]
    H = true) (h : Evolves H s0 s) (p : Nat) (seq : Nat) (gen : Nat) (cls : Nat) (flow : Nat) (total : Nat) (blocks : Nat) (e :
    execEndBlock p seq gen cls flow total blocks s = .next sNext) : Evolves H s0 sNext := by
  refine ev_mono hF h ?_
  unfold execEndBlock at e
  cases e
  repeat' first
      | (with_reducible first
          | exact ev_refl _ _ | assumption | apply receiveBlock_ev | refine ev_ite ?_ ?_ | refine ev_fst (by assumption) ?_
          | refine ev_snd (by assumption) ?_)
      | (show sub _ _ = true; rfl) | (show List.contains _ _ = true; rfl)

theorem execHeartbeat_ev (hF : sub [.pins, .regs, .cfgB, .cfgA, .cfgO, .liveB, .liveA, .ldr, .queues, .readPorts, .hostPorts,
    .svcStats, .jnl, .rsv, .cams, .frames, .nextFrame, .running, .syncs, .outs, .nextOut, .doneKeys, .holds, .txs, .chans,
    .weaves, .outFlows, .fab, .rly, .mnt, .time, .pwrs, .pwms, .folds, .brg, .protoErrs, .flash, .jmem, .ram, .out, .freeCount]
    H = true) (h : Evolves H s0 s) (p : Nat) (seq : Nat) (body : List Nat) (e : execHeartbeat p seq body s = .next sNext) :
    Evolves H s0 sNext := by
  refine ev_mono hF h ?_
  unfold execHeartbeat at e
  cases e
  repeat' first
      | (with_reducible first
          | exact ev_refl _ _ | assumption | apply relayBlock_ev | refine ev_ite ?_ ?_ | refine ev_fst (by assumption) ?_
          | refine ev_snd (by assumption) ?_)
      | (show sub _ _ = true; rfl) | (show List.contains _ _ = true; rfl)

theorem execLsaBlock_ev (hF : sub [.pins, .regs, .cfgB, .cfgA, .cfgO, .liveB, .liveA, .ldr, .queues, .readPorts, .hostPorts,
    .svcStats, .jnl, .rsv, .cams, .frames, .nextFrame, .running, .syncs, .outs, .nextOut, .doneKeys, .holds, .txs, .chans,
    .weaves, .outFlows, .fab, .rly, .mnt, .time, .pwrs, .pwms, .folds, .brg, .protoErrs, .flash, .jmem, .ram, .out, .freeCount]
    H = true) (h : Evolves H s0 s) (p : Nat) (seq : Nat) (gen : Nat) (payload : List Nat) (e : execLsaBlock p seq gen payload s
    = .next sNext) : Evolves H s0 sNext := by
  refine ev_mono hF h ?_
  unfold execLsaBlock at e
  cases e
  repeat' first
      | (with_reducible first
          | exact ev_refl _ _ | assumption | apply receiveBlock_ev | refine ev_ite ?_ ?_ | refine ev_fst (by assumption) ?_
          | refine ev_snd (by assumption) ?_)
      | (show sub _ _ = true; rfl) | (show List.contains _ _ = true; rfl)

theorem execOpenBlock_ev (hF : sub [.pins, .regs, .cfgB, .cfgA, .cfgO, .liveB, .liveA, .ldr, .queues, .readPorts, .hostPorts,
    .svcStats, .jnl, .rsv, .cams, .frames, .nextFrame, .running, .syncs, .outs, .nextOut, .doneKeys, .holds, .txs, .chans,
    .weaves, .outFlows, .fab, .rly, .mnt, .time, .pwrs, .pwms, .folds, .brg, .protoErrs, .flash, .jmem, .ram, .out, .freeCount]
    H = true) (h : Evolves H s0 s) (p : Nat) (seq : Nat) (gen : Nat) (cls : Nat) (flow : Nat) (payload : List Nat) (e :
    execOpenBlock p seq gen cls flow payload s = .next sNext) : Evolves H s0 sNext := by
  refine ev_mono hF h ?_
  unfold execOpenBlock at e
  cases e
  repeat' first
      | (with_reducible first
          | exact ev_refl _ _ | assumption | apply receiveBlock_ev | refine ev_ite ?_ ?_ | refine ev_fst (by assumption) ?_
          | refine ev_snd (by assumption) ?_)
      | (show sub _ _ = true; rfl) | (show List.contains _ _ = true; rfl)

theorem execRelayProfile_ev (hF : sub [.pins, .regs, .cfgB, .cfgA, .cfgO, .liveB, .liveA, .ldr, .queues, .readPorts, .hostPorts,
    .svcStats, .jnl, .rsv, .cams, .frames, .nextFrame, .running, .syncs, .outs, .nextOut, .doneKeys, .holds, .txs, .chans,
    .weaves, .outFlows, .fab, .rly, .mnt, .time, .pwrs, .pwms, .folds, .brg, .protoErrs, .flash, .jmem, .ram, .out, .freeCount]
    H = true) (h : Evolves H s0 s) (p : Nat) (seq : Nat) (body : List Nat) (e : execRelayProfile p seq body s = .next sNext) :
    Evolves H s0 sNext := by
  refine ev_mono hF h ?_
  unfold execRelayProfile at e
  cases e
  repeat' first
      | (with_reducible first
          | exact ev_refl _ _ | assumption | apply relayBlock_ev | refine ev_ite ?_ ?_ | refine ev_fst (by assumption) ?_
          | refine ev_snd (by assumption) ?_)
      | (show sub _ _ = true; rfl) | (show List.contains _ _ = true; rfl)

theorem execTimeBlock_ev (hF : sub [.weaves, .time] H = true) (h : Evolves H s0 s) (p : Nat) (sent : Nat) (echo : Nat) (echoAt :
    Nat) (gm : List Nat) (free : Option Nat) (e : execTimeBlock p sent echo echoAt gm free s = .next sNext) : Evolves H s0 sNext
    := by
  refine ev_mono hF h ?_
  unfold execTimeBlock at e
  cases e
  repeat' first
      | (with_reducible first
          | exact ev_refl _ _ | assumption | apply doTimeBlock_ev | refine ev_ite ?_ ?_ | refine ev_fst (by assumption) ?_
          | refine ev_snd (by assumption) ?_)
      | (show sub _ _ = true; rfl) | (show List.contains _ _ = true; rfl)

theorem execTimeExchange_ev (hF : sub [.weaves, .out] H = true) (h : Evolves H s0 s) (p : Nat) (e : execTimeExchange p s = .next
    sNext) : Evolves H s0 sNext := by
  refine ev_mono hF h ?_
  unfold execTimeExchange at e
  cases e
  repeat' first
      | (with_reducible first
          | exact ev_refl _ _ | assumption | apply doTimeExchange_ev | refine ev_ite ?_ ?_ | refine ev_fst (by assumption) ?_
          | refine ev_snd (by assumption) ?_)
      | (show sub _ _ = true; rfl) | (show List.contains _ _ = true; rfl)

end Sys2Proof.Machine
end

