-- ==== Sys2Proof/Laws/EvAdopt.lean ====
section
/-! SUPPORT. What each function of Machine/Adopt.lean changes: one lemma per function, its footprint first. -/

namespace Sys2Proof.Machine
open Sys2Proof

set_option linter.unusedTactic false
set_option linter.unreachableTactic false
set_option linter.unusedVariables false

variable {H : List StateField} {s0 s sNext : State}

theorem adoptPort_ev (hF : sub [.pins, .regs, .cfgX, .queues, .readPorts, .svcStats, .jnl, .cams, .frames, .pwrs, .out] H =
    true) (h : Evolves H s0 s) (p : Nat) : Evolves H s0 (adoptPort p s) := by
  refine ev_mono hF h ?_
  unfold adoptPort
  repeat' first
      | (with_reducible first
          | exact ev_refl _ _ | assumption | apply applyPort_ev | refine ev_ite ?_ ?_ | refine ev_fst (by assumption) ?_
          | refine ev_snd (by assumption) ?_)
      | (show sub _ _ = true; rfl) | (show List.contains _ _ = true; rfl)

theorem adoptWindows_ev (hF : sub [.regs, .brg] H = true) (h : Evolves H s0 s) (old : Sparse Word) : Evolves H s0 (adoptWindows
    old s) := by
  refine ev_mono hF h ?_
  unfold adoptWindows
  repeat' first
      | (with_reducible first
          | exact ev_refl _ _ | assumption | apply each_ev | apply discardPf_ev | refine ev_ite ?_ ?_
          | refine ev_fst (by assumption) ?_ | refine ev_snd (by assumption) ?_ | intro _ _ _ | intro _ _)
      | (show sub _ _ = true; rfl) | (show List.contains _ _ = true; rfl)

theorem startEmu_ev (hF : sub [.regs, .mot, .out] H = true) (h : Evolves H s0 s) (e : Nat) : Evolves H s0 (startEmu e s) := by
  refine ev_mono hF h ?_
  unfold startEmu
  repeat' first
      | (with_reducible first
          | exact ev_refl _ _ | assumption | apply wr_ev | apply driveEmu_ev | apply setEmu_ev | refine ev_ite ?_ ?_
          | refine ev_fst (by assumption) ?_ | refine ev_snd (by assumption) ?_)
      | (show sub _ _ = true; rfl) | (show List.contains _ _ = true; rfl)

theorem applyEmu_ev (hF : sub [.regs, .mot, .out] H = true) (h : Evolves H s0 s) (e : Nat) : Evolves H s0 (applyEmu s e) := by
  refine ev_mono hF h ?_
  unfold applyEmu
  repeat' first
      | (with_reducible first
          | exact ev_refl _ _ | assumption | apply driveEmu_ev | apply setEmu_ev | apply startEmu_ev | refine ev_ite ?_ ?_
          | refine ev_fst (by assumption) ?_ | refine ev_snd (by assumption) ?_)
      | (show sub _ _ = true; rfl) | (show List.contains _ _ = true; rfl)

theorem applyPower_ev (hF : sub [.pins, .regs, .pwrs, .out] H = true) (h : Evolves H s0 s) (old : Sparse Word) (p : Nat) :
    Evolves H s0 (applyPower old s p) := by
  refine ev_mono hF h ?_
  unfold applyPower
  repeat' first
      | (with_reducible first
          | exact ev_refl _ _ | assumption | apply unlatch_ev | refine ev_ite ?_ ?_ | refine ev_fst (by assumption) ?_
          | refine ev_snd (by assumption) ?_)
      | (show sub _ _ = true; rfl) | (show List.contains _ _ = true; rfl)

theorem applyPwm_ev (hF : sub [.pins, .pwms, .out] H = true) (h : Evolves H s0 s) (old : Sparse Word) (k : Nat) : Evolves H s0
    (applyPwm old s k) := by
  refine ev_mono hF h ?_
  unfold applyPwm
  repeat' first
      | (with_reducible first
          | exact ev_refl _ _ | assumption | apply drivePwm_ev | apply setPwm_ev | refine ev_ite ?_ ?_
          | refine ev_fst (by assumption) ?_ | refine ev_snd (by assumption) ?_)
      | (show sub _ _ = true; rfl) | (show List.contains _ _ = true; rfl)

theorem reindexChannel_ev (hF : sub [.regs, .mot] H = true) (h : Evolves H s0 s) (n : Nat) : Evolves H s0 (reindexChannel n s)
    := by
  refine ev_mono hF h ?_
  unfold reindexChannel
  repeat' first
      | (with_reducible first
          | exact ev_refl _ _ | assumption | apply wr_ev | apply noteValid_ev | refine ev_ite ?_ ?_
          | refine ev_fst (by assumption) ?_ | refine ev_snd (by assumption) ?_)
      | (show sub _ _ = true; rfl) | (show List.contains _ _ = true; rfl)

theorem retypeChannel_ev (hF : sub [.regs, .mot] H = true) (h : Evolves H s0 s) (n : Nat) : Evolves H s0 (retypeChannel n s) :=
    by
  refine ev_mono hF h ?_
  unfold retypeChannel
  repeat' first
      | (with_reducible first
          | exact ev_refl _ _ | assumption | apply wr_ev | apply setCh_ev | apply noteValid_ev | apply restObserver_ev
          | refine ev_ite ?_ ?_ | refine ev_fst (by assumption) ?_ | refine ev_snd (by assumption) ?_)
      | (show sub _ _ = true; rfl) | (show List.contains _ _ = true; rfl)

theorem retypeAll_ev (hF : sub [.regs, .mot] H = true) (h : Evolves H s0 s) (old : Sparse Word) : Evolves H s0 (retypeAll old s)
    := by
  refine ev_mono hF h ?_
  unfold retypeAll
  repeat' first
      | (with_reducible first
          | exact ev_refl _ _ | assumption | apply reindexChannel_ev | apply retypeChannel_ev | refine ev_ite ?_ ?_
          | (refine ev_foldl ?_ ?_; rotate_left; intro _ _ _) | refine ev_fst (by assumption) ?_
          | refine ev_snd (by assumption) ?_)
      | (show sub _ _ = true; rfl) | (show List.contains _ _ = true; rfl)

theorem applyMotion_ev (hF : sub [.pins, .regs, .frames, .time, .mot, .pwrs, .pwms, .out] H = true) (h : Evolves H s0 s) (old :
    Sparse Word) : Evolves H s0 (applyMotion old s) := by
  refine ev_mono hF h ?_
  unfold applyMotion
  repeat' first
      | (with_reducible first
          | exact ev_refl _ _ | assumption | apply applyEmu_ev | apply applyPower_ev | apply applyPwm_ev | apply finishMids_ev
          | apply retypeAll_ev | refine ev_ite ?_ ?_ | (refine ev_foldl ?_ ?_; rotate_left; intro _ _ _)
          | refine ev_fst (by assumption) ?_ | refine ev_snd (by assumption) ?_)
      | (show sub _ _ = true; rfl) | (show List.contains _ _ = true; rfl)

theorem disarmGenerators_ev (hF : sub [.time] H = true) (h : Evolves H s0 s)  : Evolves H s0 (disarmGenerators s) := by
  refine ev_mono hF h ?_
  unfold disarmGenerators
  repeat' first
      | (with_reducible first
          | exact ev_refl _ _ | assumption | refine ev_ite ?_ ?_ | refine ev_fst (by assumption) ?_
          | refine ev_snd (by assumption) ?_)
      | (show sub _ _ = true) | (show List.contains _ _ = true; rfl) | dsimp only | split | (with_reducible apply ev_time)

theorem freeTime_ev (hF : sub [.regs, .weaves, .fab, .time, .out] H = true) (h : Evolves H s0 s)  : Evolves H s0 (freeTime s) :=
    by
  refine ev_mono hF h ?_
  unfold freeTime
  repeat' first
      | (with_reducible first
          | exact ev_refl _ _ | assumption | apply wr_ev | apply enterSync_ev | refine ev_ite ?_ ?_
          | refine ev_fst (by assumption) ?_ | refine ev_snd (by assumption) ?_)
      | (show sub _ _ = true; rfl) | (show List.contains _ _ = true; rfl) | dsimp only | split | (with_reducible apply ev_time)

theorem adoptBank_ev (hF : sub [.pins, .regs, .cfgB, .cfgX, .ldr, .queues, .readPorts, .hostPorts, .svcStats, .jnl, .rsv, .cams,
    .frames, .outs, .doneKeys, .holds, .txs, .chans, .weaves, .outFlows, .fab, .time, .mot, .pwrs, .pwms, .brg, .jmem, .out,
    .freeCount] H = true) (h : Evolves H s0 s) (i : Nat) (old : Sparse Word) : Evolves H s0 (adoptBank i old s) := by
  refine ev_mono hF h ?_
  unfold adoptBank
  repeat' first
      | (with_reducible first
          | exact ev_refl _ _ | assumption | apply adoptPort_ev | apply adoptWindows_ev | apply applyMotion_ev
          | apply sendLsaIfChanged_ev | apply applyWeave_ev | apply chooseFid_ev | apply disarmGenerators_ev | apply freeTime_ev
          | apply freshDigest_ev | apply notifyAll_ev | refine ev_ite ?_ ?_ | refine ev_fst (by assumption) ?_
          | refine ev_snd (by assumption) ?_)
      | (show sub _ _ = true; rfl) | (show List.contains _ _ = true; rfl)

theorem doEpochReachesIsland_ev (hF : sub [.pins, .regs, .cfgB, .cfgX, .islEpoch, .ldr, .queues, .readPorts, .hostPorts,
    .svcStats, .jnl, .rsv, .cams, .frames, .running, .outs, .doneKeys, .holds, .txs, .chans, .weaves, .outFlows, .fab, .time,
    .mot, .pwrs, .pwms, .brg, .jmem, .out, .freeCount] H = true) (h : Evolves H s0 s) (i : Nat) : Evolves H s0
    (doEpochReachesIsland i s) := by
  refine ev_mono hF h ?_
  unfold doEpochReachesIsland
  repeat' first
      | (with_reducible first
          | exact ev_refl _ _ | assumption | apply checkSwap_ev | apply adoptBank_ev | apply kickSlices_ev | refine ev_ite ?_ ?_
          | refine ev_fst (by assumption) ?_ | refine ev_snd (by assumption) ?_)
      | (show sub _ _ = true; rfl) | (show List.contains _ _ = true; rfl) | dsimp only | split
      | (with_reducible apply ev_islEpoch)

theorem execEpochReachesIsland_ev (hF : sub [.pins, .regs, .cfgB, .cfgX, .islEpoch, .ldr, .queues, .readPorts, .hostPorts,
    .svcStats, .jnl, .rsv, .cams, .frames, .running, .outs, .doneKeys, .holds, .txs, .chans, .weaves, .outFlows, .fab, .time,
    .mot, .pwrs, .pwms, .brg, .jmem, .out, .freeCount] H = true) (h : Evolves H s0 s) (i : Nat) (e : execEpochReachesIsland i s
    = .next sNext) : Evolves H s0 sNext := by
  refine ev_mono hF h ?_
  unfold execEpochReachesIsland at e
  cases e
  repeat' first
      | (with_reducible first
          | exact ev_refl _ _ | assumption | apply doEpochReachesIsland_ev | refine ev_ite ?_ ?_
          | refine ev_fst (by assumption) ?_ | refine ev_snd (by assumption) ?_)
      | (show sub _ _ = true; rfl) | (show List.contains _ _ = true; rfl)

end Sys2Proof.Machine
end

