-- ==== Sys2Proof/Laws/Exec.lean ====
section
/-! SUPPORT. What exec and step do with each command: one lemma per constructor. -/

namespace Sys2Proof.Machine
open Sys2Proof

theorem step_cons (s : State) (c : Instr) (rest : List Instr) : step { s with pending := c :: rest } = exec c { s with pending := rest } := rfl

theorem step_of_pending {s : State} {c : Instr} {rest : List Instr} (h : s.pending = c :: rest) : step s = exec c { s with pending := rest } := by
  unfold step; rw [h]

theorem step_idle {s : State} (h : s.pending = []) : step s = .next (tick s) := by unfold step; rw [h]

@[simp] theorem exec_resetRelease {s : State} : ∀ maintHigh taddr, exec (.resetRelease maintHigh taddr) s = execResetRelease maintHigh taddr s := fun _ _ => rfl
@[simp] theorem exec_resetNAssert {s : State} : ∀ vddLow, exec (.resetNAssert vddLow) s = execResetNAssert vddLow s := fun _ => rfl
@[simp] theorem exec_crystalStable {s : State} : exec .crystalStable s = execCrystalStable s := rfl
@[simp] theorem exec_imageHeaderRead {s : State} : exec .imageHeaderRead s = execImageHeaderRead s := rfl
@[simp] theorem exec_imageVerified {s : State} : exec .imageVerified s = execImageVerified s := rfl
@[simp] theorem exec_recordsCheck {s : State} : exec .recordsCheck s = execRecordsCheck s := rfl
@[simp] theorem exec_crossFieldChecks {s : State} : exec .crossFieldChecks s = execCrossFieldChecks s := rfl
@[simp] theorem exec_lpddrTrained {s : State} : exec .lpddrTrained s = execLpddrTrained s := rfl
@[simp] theorem exec_cfgBastingWrite {s : State} : ∀ w a v, exec (.cfgBastingWrite w a v) s = execCfgBastingWrite w a v s := fun _ _ _ => rfl
@[simp] theorem exec_registerWrite {s : State} : ∀ via a v bytes hw, exec (.registerWrite via a v bytes hw) s = execRegisterWrite via a v bytes hw s := fun _ _ _ _ _ => rfl
@[simp] theorem exec_rcRead {s : State} : ∀ via a bytes hw, exec (.rcRead via a bytes hw) s = execRcRead via a bytes hw s := fun _ _ _ _ => rfl
@[simp] theorem exec_unassignedAccess {s : State} : ∀ o bar a write, exec (.unassignedAccess o bar a write) s = execUnassignedAccess o bar a write s := fun _ _ _ _ => rfl
@[simp] theorem exec_ldrViewWrite {s : State} : ∀ o v, exec (.ldrViewWrite o v) s = execLdrViewWrite o v s := fun _ _ => rfl
@[simp] theorem exec_swapRequest {s : State} : ∀ w, exec (.swapRequest w) s = execSwapRequest w s := fun _ => rfl
@[simp] theorem exec_discard {s : State} : ∀ w, exec (.discard w) s = execDiscard w s := fun _ => rfl
@[simp] theorem exec_ownerTimeout {s : State} : exec .ownerTimeout s = execOwnerTimeout s := rfl
@[simp] theorem exec_bastingGrant {s : State} : exec .bastingGrant s = execBastingGrant s := rfl
@[simp] theorem exec_epochReachesIsland {s : State} : ∀ n, exec (.epochReachesIsland n) s = execEpochReachesIsland n s := fun _ => rfl
@[simp] theorem exec_swapTimeout {s : State} : exec .swapTimeout s = execSwapTimeout s := rfl
@[simp] theorem exec_liveWrite {s : State} : ∀ o a v, exec (.liveWrite o a v) s = execLiveWrite o a v s := fun _ _ _ => rfl
@[simp] theorem exec_modeSample {s : State} : ∀ v, exec (.modeSample v) s = execModeSample v s := fun _ => rfl
@[simp] theorem exec_profileSelectionStart {s : State} : exec .profileSelectionStart s = execProfileSelectionStart s := rfl
@[simp] theorem exec_profileEvaluation {s : State} : exec .profileEvaluation s = execProfileEvaluation s := rfl
@[simp] theorem exec_pllLossOfLock {s : State} : ∀ n, exec (.pllLossOfLock n) s = execPllLossOfLock n s := fun _ => rfl
@[simp] theorem exec_crossingTimeout {s : State} : ∀ src dst pair lost, exec (.crossingTimeout src dst pair lost) s = execCrossingTimeout src dst pair lost s := fun _ _ _ _ => rfl
@[simp] theorem exec_lockstepMismatch {s : State} : ∀ pair, exec (.lockstepMismatch pair) s = execLockstepMismatch pair s := fun _ => rfl
@[simp] theorem exec_reservePairTakeover {s : State} : exec .reservePairTakeover s = execReservePairTakeover s := rfl
@[simp] theorem exec_checkpointWrite {s : State} : exec .checkpointWrite s = execCheckpointWrite s := rfl
@[simp] theorem exec_frameStartPacket {s : State} : ∀ p vc fn f, exec (.frameStartPacket p vc fn f) s = execFrameStartPacket p vc fn f s := fun _ _ _ _ => rfl
@[simp] theorem exec_frameEndPacket {s : State} : ∀ p vc f, exec (.frameEndPacket p vc f) s = execFrameEndPacket p vc f s := fun _ _ _ => rfl
@[simp] theorem exec_longPacket {s : State} : ∀ p vc dt payload f, exec (.longPacket p vc dt payload f) s = execLongPacket p vc dt payload f s := fun _ _ _ _ _ => rfl
@[simp] theorem exec_frameTimeout {s : State} : ∀ p c, exec (.frameTimeout p c) s = execFrameTimeout p c s := fun _ _ => rfl
@[simp] theorem exec_lockLost {s : State} : ∀ p, exec (.lockLost p) s = execLockLost p s := fun _ => rfl
@[simp] theorem exec_linkLoss {s : State} : ∀ p, exec (.linkLoss p) s = execLinkLoss p s := fun _ => rfl
@[simp] theorem exec_linkLock {s : State} : ∀ p, exec (.linkLock p) s = execLinkLock p s := fun _ => rfl
@[simp] theorem exec_portConfigApply {s : State} : ∀ p, exec (.portConfigApply p) s = execPortConfigApply p s := fun _ => rfl
@[simp] theorem exec_scriptEnd {s : State} : ∀ p, exec (.scriptEnd p) s = execScriptEnd p s := fun _ => rfl
@[simp] theorem exec_scriptWr16 {s : State} : ∀ p, exec (.scriptWr16 p) s = execScriptWr16 p s := fun _ => rfl
@[simp] theorem exec_scriptWr8 {s : State} : ∀ p, exec (.scriptWr8 p) s = execScriptWr8 p s := fun _ => rfl
@[simp] theorem exec_scriptRdcmp {s : State} : ∀ p, exec (.scriptRdcmp p) s = execScriptRdcmp p s := fun _ => rfl
@[simp] theorem exec_scriptDelay {s : State} : ∀ p, exec (.scriptDelay p) s = execScriptDelay p s := fun _ => rfl
@[simp] theorem exec_delayExpired {s : State} : ∀ p, exec (.delayExpired p) s = execDelayExpired p s := fun _ => rfl
@[simp] theorem exec_scriptGpio {s : State} : ∀ p, exec (.scriptGpio p) s = execScriptGpio p s := fun _ => rfl
@[simp] theorem exec_scriptPoc {s : State} : ∀ p, exec (.scriptPoc p) s = execScriptPoc p s := fun _ => rfl
@[simp] theorem exec_scriptWaitlock {s : State} : ∀ p, exec (.scriptWaitlock p) s = execScriptWaitlock p s := fun _ => rfl
@[simp] theorem exec_waitlockTimeout {s : State} : ∀ p, exec (.waitlockTimeout p) s = execWaitlockTimeout p s := fun _ => rfl
@[simp] theorem exec_scriptJump {s : State} : ∀ p, exec (.scriptJump p) s = execScriptJump p s := fun _ => rfl
@[simp] theorem exec_scriptLoop {s : State} : ∀ p, exec (.scriptLoop p) s = execScriptLoop p s := fun _ => rfl
@[simp] theorem exec_scriptEvent {s : State} : ∀ p, exec (.scriptEvent p) s = execScriptEvent p s := fun _ => rfl
@[simp] theorem exec_scriptStream {s : State} : ∀ p, exec (.scriptStream p) s = execScriptStream p s := fun _ => rfl
@[simp] theorem exec_instructionLimit {s : State} : ∀ p, exec (.instructionLimit p) s = execInstructionLimit p s := fun _ => rfl
@[simp] theorem exec_backoffExpired {s : State} : ∀ p, exec (.backoffExpired p) s = execBackoffExpired p s := fun _ => rfl
@[simp] theorem exec_faultTimeout {s : State} : ∀ p, exec (.faultTimeout p) s = execFaultTimeout p s := fun _ => rfl
@[simp] theorem exec_powerCycleDone {s : State} : ∀ p, exec (.powerCycleDone p) s = execPowerCycleDone p s := fun _ => rfl
@[simp] theorem exec_supervisionRun {s : State} : ∀ p, exec (.supervisionRun p) s = execSupervisionRun p s := fun _ => rfl
@[simp] theorem exec_triggerAssertSend {s : State} : ∀ p, exec (.triggerAssertSend p) s = execTriggerAssertSend p s := fun _ => rfl
@[simp] theorem exec_triggerReleaseSend {s : State} : ∀ p, exec (.triggerReleaseSend p) s = execTriggerReleaseSend p s := fun _ => rfl
@[simp] theorem exec_triggerWindowExpire {s : State} : ∀ p, exec (.triggerWindowExpire p) s = execTriggerWindowExpire p s := fun _ => rfl
@[simp] theorem exec_echoBurstStart {s : State} : ∀ p, exec (.echoBurstStart p) s = execEchoBurstStart p s := fun _ => rfl
@[simp] theorem exec_echoReturn {s : State} : ∀ p rtt, exec (.echoReturn p rtt) s = execEchoReturn p rtt s := fun _ _ => rfl
@[simp] theorem exec_echoTimeout {s : State} : ∀ p, exec (.echoTimeout p) s = execEchoTimeout p s := fun _ => rfl
@[simp] theorem exec_latencyBurstEnd {s : State} : ∀ p, exec (.latencyBurstEnd p) s = execLatencyBurstEnd p s := fun _ => rfl
@[simp] theorem exec_frameAdmission {s : State} : ∀ c, exec (.frameAdmission c) s = execFrameAdmission c s := fun _ => rfl
@[simp] theorem exec_lineComplete {s : State} : ∀ c, exec (.lineComplete c) s = execLineComplete c s := fun _ => rfl
@[simp] theorem exec_heatDone {s : State} : ∀ l bad, exec (.heatDone l bad) s = execHeatDone l bad s := fun _ _ => rfl
@[simp] theorem exec_holdFreeze {s : State} : ∀ c, exec (.holdFreeze c) s = execHoldFreeze c s := fun _ => rfl
@[simp] theorem exec_holdRelease {s : State} : ∀ c, exec (.holdRelease c) s = execHoldRelease c s := fun _ => rfl
@[simp] theorem exec_tableMemoryWrite {s : State} : ∀ o a bytes, exec (.tableMemoryWrite o a bytes) s = execTableMemoryWrite o a bytes s := fun _ _ _ => rfl
@[simp] theorem exec_selfTestInGap {s : State} : ∀ l result, exec (.selfTestInGap l result) s = execSelfTestInGap l result s := fun _ _ => rfl
@[simp] theorem exec_reserveSelfTest {s : State} : ∀ pass, exec (.reserveSelfTest pass) s = execReserveSelfTest pass s := fun _ => rfl
@[simp] theorem exec_selfTestStarved {s : State} : exec .selfTestStarved s = execSelfTestStarved s := rfl
@[simp] theorem exec_spareTest {s : State} : ∀ kind inst pass, exec (.spareTest kind inst pass) s = execSpareTest kind inst pass s := fun _ _ _ => rfl
@[simp] theorem exec_seamLine {s : State} : ∀ c bad, exec (.seamLine c bad) s = execSeamLine c bad s := fun _ _ => rfl
@[simp] theorem exec_compositeWaitExpire {s : State} : ∀ o, exec (.compositeWaitExpire o) s = execCompositeWaitExpire o s := fun _ => rfl
@[simp] theorem exec_seamFrameEnd {s : State} : ∀ c bad, exec (.seamFrameEnd c bad) s = execSeamFrameEnd c bad s := fun _ _ => rfl
@[simp] theorem exec_csi2TxConfigApply {s : State} : ∀ p, exec (.csi2TxConfigApply p) s = execCsi2TxConfigApply p s := fun _ => rfl
@[simp] theorem exec_hostLinkTrained {s : State} : ∀ p rate width flit, exec (.hostLinkTrained p rate width flit) s = execHostLinkTrained p rate width flit s := fun _ _ _ _ => rfl
@[simp] theorem exec_flr {s : State} : ∀ p, exec (.flr p) s = execFlr p s := fun _ => rfl
@[simp] theorem exec_hotReset {s : State} : ∀ p, exec (.hotReset p) s = execHotReset p s := fun _ => rfl
@[simp] theorem exec_d3hotEntry {s : State} : ∀ p, exec (.d3hotEntry p) s = execD3hotEntry p s := fun _ => rfl
@[simp] theorem exec_d3hotExit {s : State} : ∀ p, exec (.d3hotExit p) s = execD3hotExit p s := fun _ => rfl
@[simp] theorem exec_linkDown {s : State} : ∀ p, exec (.linkDown p) s = execLinkDown p s := fun _ => rfl
@[simp] theorem exec_busMasterDisable {s : State} : ∀ p, exec (.busMasterDisable p) s = execBusMasterDisable p s := fun _ => rfl
@[simp] theorem exec_vectorUnmask {s : State} : ∀ p v, exec (.vectorUnmask p v) s = execVectorUnmask p v s := fun _ _ => rfl
@[simp] theorem exec_bufferTake {s : State} : ∀ c, exec (.bufferTake c) s = execBufferTake c s := fun _ => rfl
@[simp] theorem exec_ringReadComplete {s : State} : ∀ c list length cookie, exec (.ringReadComplete c list length cookie) s = execRingReadComplete c list length cookie s := fun _ _ _ _ => rfl
@[simp] theorem exec_listReadComplete {s : State} : ∀ c es, exec (.listReadComplete c es) s = execListReadComplete c es s := fun _ _ => rfl
@[simp] theorem exec_egressBurst {s : State} : ∀ p, exec (.egressBurst p) s = execEgressBurst p s := fun _ => rfl
@[simp] theorem exec_flushReadComplete {s : State} : ∀ c, exec (.flushReadComplete c) s = execFlushReadComplete c s := fun _ => rfl
@[simp] theorem exec_completionTimeout {s : State} : ∀ c dir cause, exec (.completionTimeout c dir cause) s = execCompletionTimeout c dir cause s := fun _ _ _ => rfl
@[simp] theorem exec_arm {s : State} : ∀ c seq, exec (.arm c seq) s = execArm c seq s := fun _ _ => rfl
@[simp] theorem exec_disarm {s : State} : ∀ c, exec (.disarm c) s = execDisarm c s := fun _ => rfl
@[simp] theorem exec_piWrite {s : State} : ∀ c v, exec (.piWrite c v) s = execPiWrite c v s := fun _ _ => rfl
@[simp] theorem exec_cplCiWrite {s : State} : ∀ c v, exec (.cplCiWrite c v) s = execCplCiWrite c v s := fun _ _ => rfl
@[simp] theorem exec_start {s : State} : ∀ c, exec (.start c) s = execStart c s := fun _ => rfl
@[simp] theorem exec_stop {s : State} : ∀ c, exec (.stop c) s = execStop c s := fun _ => rfl
@[simp] theorem exec_abort {s : State} : ∀ c, exec (.abort c) s = execAbort c s := fun _ => rfl
@[simp] theorem exec_replay {s : State} : ∀ p v, exec (.replay p v) s = execReplay p v s := fun _ _ => rfl
@[simp] theorem exec_packetOpen {s : State} : ∀ q producer bad, exec (.packetOpen q producer bad) s = execPacketOpen q producer bad s := fun _ _ _ => rfl
@[simp] theorem exec_packetWord {s : State} : ∀ q producer w bad, exec (.packetWord q producer w bad) s = execPacketWord q producer w bad s := fun _ _ _ _ => rfl
@[simp] theorem exec_packetCommit {s : State} : ∀ q producer bad, exec (.packetCommit q producer bad) s = execPacketCommit q producer bad s := fun _ _ _ => rfl
@[simp] theorem exec_packetRewind {s : State} : ∀ q producer, exec (.packetRewind q producer) s = execPacketRewind q producer s := fun _ _ => rfl
@[simp] theorem exec_spillMove {s : State} : ∀ q blocks toHead bad, exec (.spillMove q blocks toHead bad) s = execSpillMove q blocks toHead bad s := fun _ _ _ _ => rfl
@[simp] theorem exec_queueConfigApply {s : State} : ∀ q, exec (.queueConfigApply q) s = execQueueConfigApply q s := fun _ => rfl
@[simp] theorem exec_headerRead {s : State} : ∀ o r bad, exec (.headerRead o r bad) s = execHeaderRead o r bad s := fun _ _ _ => rfl
@[simp] theorem exec_dataRead {s : State} : ∀ o r n bad, exec (.dataRead o r n bad) s = execDataRead o r n bad s := fun _ _ _ _ => rfl
@[simp] theorem exec_release {s : State} : ∀ o r v, exec (.release o r v) s = execRelease o r v s := fun _ _ _ => rfl
@[simp] theorem exec_claimTimeout {s : State} : ∀ r, exec (.claimTimeout r) s = execClaimTimeout r s := fun _ => rfl
@[simp] theorem exec_sourceLevelChange {s : State} : ∀ src, exec (.sourceLevelChange src) s = execSourceLevelChange src s := fun _ => rfl
@[simp] theorem exec_claim {s : State} : ∀ o t, exec (.claim o t) s = execClaim o t s := fun _ _ => rfl
@[simp] theorem exec_complete {s : State} : ∀ o t src, exec (.complete o t src) s = execComplete o t src s := fun _ _ _ => rfl
@[simp] theorem exec_enableWrite {s : State} : ∀ o t w v, exec (.enableWrite o t w v) s = execEnableWrite o t w v s := fun _ _ _ _ => rfl
@[simp] theorem exec_gdis {s : State} : ∀ o t v, exec (.gdis o t v) s = execGdis o t v s := fun _ _ _ => rfl
@[simp] theorem exec_split {s : State} : ∀ o t v, exec (.split o t v) s = execSplit o t v s := fun _ _ _ => rfl
@[simp] theorem exec_pacerExpire {s : State} : ∀ g t, exec (.pacerExpire g t) s = execPacerExpire g t s := fun _ _ => rfl
@[simp] theorem exec_evcArrayEcc {s : State} : ∀ src t, exec (.evcArrayEcc src t) s = execEvcArrayEcc src t s := fun _ _ => rfl
@[simp] theorem exec_supplyFault {s : State} : exec .supplyFault s = execSupplyFault s := rfl
@[simp] theorem exec_overtemperature {s : State} : ∀ tj, exec (.overtemperature tj) s = execOvertemperature tj s := fun _ => rfl
@[simp] theorem exec_secondBoundary {s : State} : exec .secondBoundary s = execSecondBoundary s := rfl
@[simp] theorem exec_anchorCommit {s : State} : exec .anchorCommit s = execAnchorCommit s := rfl
@[simp] theorem exec_timeNsRead {s : State} : ∀ o, exec (.timeNsRead o) s = execTimeNsRead o s := fun _ => rfl
@[simp] theorem exec_rateWrite {s : State} : ∀ v, exec (.rateWrite v) s = execRateWrite v s := fun _ => rfl
@[simp] theorem exec_step {s : State} : ∀ v, exec (.step v) s = execStep v s := fun _ => rfl
@[simp] theorem exec_ppsNextWrite {s : State} : ∀ v, exec (.ppsNextWrite v) s = execPpsNextWrite v s := fun _ => rfl
@[simp] theorem exec_trgNextWrite {s : State} : ∀ g hi lo, exec (.trgNextWrite g hi lo) s = execTrgNextWrite g hi lo s := fun _ _ _ => rfl
@[simp] theorem exec_triggerRealign {s : State} : ∀ g, exec (.triggerRealign g) s = execTriggerRealign g s := fun _ => rfl
@[simp] theorem exec_triggerFire {s : State} : ∀ g, exec (.triggerFire g) s = execTriggerFire g s := fun _ => rfl
@[simp] theorem exec_offsetMeasurement {s : State} : exec .offsetMeasurement s = execOffsetMeasurement s := rfl
@[simp] theorem exec_syncTimeout {s : State} : exec .syncTimeout s = execSyncTimeout s := rfl
@[simp] theorem exec_sync {s : State} : ∀ p domain seq stamp, exec (.sync p domain seq stamp) s = execSync p domain seq stamp s := fun _ _ _ _ => rfl
@[simp] theorem exec_followUp {s : State} : ∀ p domain seq origin corr rate gm, exec (.followUp p domain seq origin corr rate gm) s = execFollowUp p domain seq origin corr rate gm s := fun _ _ _ _ _ _ _ => rfl
@[simp] theorem exec_syncSend {s : State} : ∀ p stamp, exec (.syncSend p stamp) s = execSyncSend p stamp s := fun _ _ => rfl
@[simp] theorem exec_pdelayReqSend {s : State} : ∀ p stamp, exec (.pdelayReqSend p stamp) s = execPdelayReqSend p stamp s := fun _ _ => rfl
@[simp] theorem exec_pdelayReq {s : State} : ∀ p domain seq rx tx, exec (.pdelayReq p domain seq rx tx) s = execPdelayReq p domain seq rx tx s := fun _ _ _ _ _ => rfl
@[simp] theorem exec_pdelayResp {s : State} : ∀ p domain seq reqRx stamp, exec (.pdelayResp p domain seq reqRx stamp) s = execPdelayResp p domain seq reqRx stamp s := fun _ _ _ _ _ => rfl
@[simp] theorem exec_pdelayRespFollowUp {s : State} : ∀ p domain seq respTx, exec (.pdelayRespFollowUp p domain seq respTx) s = execPdelayRespFollowUp p domain seq respTx s := fun _ _ _ _ => rfl
@[simp] theorem exec_ethFrameReceive {s : State} : ∀ p len tags type dst bad, exec (.ethFrameReceive p len tags type dst bad) s = execEthFrameReceive p len tags type dst bad s := fun _ _ _ _ _ _ => rfl
@[simp] theorem exec_diagRequest {s : State} : ∀ p src tag ver op seq addr count, exec (.diagRequest p src tag ver op seq addr count) s = execDiagRequest p src tag ver op seq addr count s := fun _ _ _ _ _ _ _ _ => rfl
@[simp] theorem exec_ethLinkUp {s : State} : ∀ p, exec (.ethLinkUp p) s = execEthLinkUp p s := fun _ => rfl
@[simp] theorem exec_ethLinkDown {s : State} : ∀ p, exec (.ethLinkDown p) s = execEthLinkDown p s := fun _ => rfl
@[simp] theorem exec_inputEdge {s : State} : ∀ n levels, exec (.inputEdge n levels) s = execInputEdge n levels s := fun _ _ => rfl
@[simp] theorem exec_indexEdge {s : State} : ∀ n, exec (.indexEdge n) s = execIndexEdge n s := fun _ => rfl
@[simp] theorem exec_sincosSample {s : State} : ∀ n codeSin codeCos, exec (.sincosSample n codeSin codeCos) s = execSincosSample n codeSin codeCos s := fun _ _ _ => rfl
@[simp] theorem exec_sentMessage {s : State} : ∀ n tick nibs crc pause bad ago, exec (.sentMessage n tick nibs crc pause bad ago) s = execSentMessage n tick nibs crc pause bad ago s := fun _ _ _ _ _ _ _ => rfl
@[simp] theorem exec_sentTimeout {s : State} : ∀ n, exec (.sentTimeout n) s = execSentTimeout n s := fun _ => rfl
@[simp] theorem exec_channelRevalid {s : State} : ∀ n, exec (.channelRevalid n) s = execChannelRevalid n s := fun _ => rfl
@[simp] theorem exec_compareArm {s : State} : ∀ n v, exec (.compareArm n v) s = execCompareArm n v s := fun _ _ => rfl
@[simp] theorem exec_observerUpdate {s : State} : exec .observerUpdate s = execObserverUpdate s := rfl
@[simp] theorem exec_standstill {s : State} : ∀ n, exec (.standstill n) s = execStandstill n s := fun _ => rfl
@[simp] theorem exec_snapshot {s : State} : exec .snapshot s = execSnapshot s := rfl
@[simp] theorem exec_historyEntry {s : State} : exec .historyEntry s = execHistoryEntry s := rfl
@[simp] theorem exec_motionInterpolate {s : State} : ∀ c, exec (.motionInterpolate c) s = execMotionInterpolate c s := fun _ => rfl
@[simp] theorem exec_emulatorStep {s : State} : ∀ e, exec (.emulatorStep e) s = execEmulatorStep e s := fun _ => rfl
@[simp] theorem exec_adc1Conversion {s : State} : ∀ n code, exec (.adc1Conversion n code) s = execAdc1Conversion n code s := fun _ _ => rfl
@[simp] theorem exec_pocFaultPin {s : State} : ∀ p, exec (.pocFaultPin p) s = execPocFaultPin p s := fun _ => rfl
@[simp] theorem exec_powerGood {s : State} : ∀ p, exec (.powerGood p) s = execPowerGood p s := fun _ => rfl
@[simp] theorem exec_pgTimeout {s : State} : ∀ p, exec (.pgTimeout p) s = execPgTimeout p s := fun _ => rfl
@[simp] theorem exec_powerRetry {s : State} : ∀ p, exec (.powerRetry p) s = execPowerRetry p s := fun _ => rfl
@[simp] theorem exec_attemptReset {s : State} : ∀ p, exec (.attemptReset p) s = execAttemptReset p s := fun _ => rfl
@[simp] theorem exec_powerRelease {s : State} : ∀ p, exec (.powerRelease p) s = execPowerRelease p s := fun _ => rfl
@[simp] theorem exec_openDetect {s : State} : ∀ p, exec (.openDetect p) s = execOpenDetect p s := fun _ => rfl
@[simp] theorem exec_pwmPeriodStart {s : State} : ∀ k, exec (.pwmPeriodStart k) s = execPwmPeriodStart k s := fun _ => rfl
@[simp] theorem exec_pwmPulseStart {s : State} : ∀ k, exec (.pwmPulseStart k) s = execPwmPulseStart k s := fun _ => rfl
@[simp] theorem exec_pwmPulseEnd {s : State} : ∀ k, exec (.pwmPulseEnd k) s = execPwmPulseEnd k s := fun _ => rfl
@[simp] theorem exec_fold {s : State} : ∀ m, exec (.fold m) s = execFold m s := fun _ => rfl
@[simp] theorem exec_unfold {s : State} : ∀ m, exec (.unfold m) s = execUnfold m s := fun _ => rfl
@[simp] theorem exec_foldStop {s : State} : ∀ m, exec (.foldStop m) s = execFoldStop m s := fun _ => rfl
@[simp] theorem exec_brakeEnd {s : State} : ∀ m, exec (.brakeEnd m) s = execBrakeEnd m s := fun _ => rfl
@[simp] theorem exec_foldStall {s : State} : ∀ m, exec (.foldStall m) s = execFoldStall m s := fun _ => rfl
@[simp] theorem exec_foldTimeout {s : State} : ∀ m, exec (.foldTimeout m) s = execFoldTimeout m s := fun _ => rfl
@[simp] theorem exec_vcoreAdjust {s : State} : ∀ mv tj, exec (.vcoreAdjust mv tj) s = execVcoreAdjust mv tj s := fun _ _ => rfl
@[simp] theorem exec_transactionStart {s : State} : ∀ n free lost, exec (.transactionStart n free lost) s = execTransactionStart n free lost s := fun _ _ _ => rfl
@[simp] theorem exec_busStuckRecovery {s : State} : ∀ n recovered, exec (.busStuckRecovery n recovered) s = execBusStuckRecovery n recovered s := fun _ _ => rfl
@[simp] theorem exec_stretchTimeout {s : State} : ∀ n, exec (.stretchTimeout n) s = execStretchTimeout n s := fun _ => rfl
@[simp] theorem exec_transactionDone {s : State} : ∀ n ack data, exec (.transactionDone n ack data) s = execTransactionDone n ack data s := fun _ _ _ => rfl
@[simp] theorem exec_targetWrite {s : State} : ∀ t addr7 a bytes end_, exec (.targetWrite t addr7 a bytes end_) s = execTargetWrite t addr7 a bytes end_ s := fun _ _ _ _ _ => rfl
@[simp] theorem exec_targetRead {s : State} : ∀ t addr7 a n, exec (.targetRead t addr7 a n) s = execTargetRead t addr7 a n s := fun _ _ _ _ => rfl
@[simp] theorem exec_targetDataTimeout {s : State} : ∀ t, exec (.targetDataTimeout t) s = execTargetDataTimeout t s := fun _ => rfl
@[simp] theorem exec_targetSelfReset {s : State} : ∀ t, exec (.targetSelfReset t) s = execTargetSelfReset t s := fun _ => rfl
@[simp] theorem exec_wakeAddress {s : State} : ∀ t, exec (.wakeAddress t) s = execWakeAddress t s := fun _ => rfl
@[simp] theorem exec_alertResponse {s : State} : ∀ t lost, exec (.alertResponse t lost) s = execAlertResponse t lost s := fun _ _ => rfl
@[simp] theorem exec_bridgeAccess {s : State} : ∀ via addr write be data, exec (.bridgeAccess via addr write be data) s = execBridgeAccess via addr write be data s := fun _ _ _ _ _ => rfl
@[simp] theorem exec_sensorWindowWrite {s : State} : ∀ p, exec (.sensorWindowWrite p) s = execSensorWindowWrite p s := fun _ => rfl
@[simp] theorem exec_sensorWindowRead {s : State} : ∀ p, exec (.sensorWindowRead p) s = execSensorWindowRead p s := fun _ => rfl
@[simp] theorem exec_remoteWindowAccess {s : State} : ∀ f, exec (.remoteWindowAccess f) s = execRemoteWindowAccess f s := fun _ => rfl
@[simp] theorem exec_bridgeReadTimeout {s : State} : ∀ tag, exec (.bridgeReadTimeout tag) s = execBridgeReadTimeout tag s := fun _ => rfl
@[simp] theorem exec_take {s : State} : ∀ o w, exec (.take o w) s = execTake o w s := fun _ _ => rfl
@[simp] theorem exec_semaphoreRelease {s : State} : ∀ o w, exec (.semaphoreRelease o w) s = execSemaphoreRelease o w s := fun _ _ => rfl
@[simp] theorem exec_leaseExpire {s : State} : ∀ w, exec (.leaseExpire w) s = execLeaseExpire w s := fun _ => rfl
@[simp] theorem exec_retryReissue {s : State} : ∀ tag, exec (.retryReissue tag) s = execRetryReissue tag s := fun _ => rfl
@[simp] theorem exec_compatWriteTimeout {s : State} : ∀ tag, exec (.compatWriteTimeout tag) s = execCompatWriteTimeout tag s := fun _ => rfl
@[simp] theorem exec_prefetchAgeExpire {s : State} : ∀ o, exec (.prefetchAgeExpire o) s = execPrefetchAgeExpire o s := fun _ => rfl
@[simp] theorem exec_laneLock {s : State} : ∀ p l, exec (.laneLock p l) s = execLaneLock p l s := fun _ _ => rfl
@[simp] theorem exec_laneLockLost {s : State} : ∀ p l, exec (.laneLockLost p l) s = execLaneLockLost p l s := fun _ _ => rfl
@[simp] theorem exec_trainTimeout {s : State} : ∀ p, exec (.trainTimeout p) s = execTrainTimeout p s := fun _ => rfl
@[simp] theorem exec_laneBlock {s : State} : ∀ p uid rate lanes map, exec (.laneBlock p uid rate lanes map) s = execLaneBlock p uid rate lanes map s := fun _ _ _ _ _ => rfl
@[simp] theorem exec_dataBlock {s : State} : ∀ p seq gen cls flow payload, exec (.dataBlock p seq gen cls flow payload) s = execDataBlock p seq gen cls flow payload s := fun _ _ _ _ _ _ => rfl
@[simp] theorem exec_openBlock {s : State} : ∀ p seq gen cls flow payload, exec (.openBlock p seq gen cls flow payload) s = execOpenBlock p seq gen cls flow payload s := fun _ _ _ _ _ _ => rfl
@[simp] theorem exec_endBlock {s : State} : ∀ p seq gen cls flow total blocks, exec (.endBlock p seq gen cls flow total blocks) s = execEndBlock p seq gen cls flow total blocks s := fun _ _ _ _ _ _ _ => rfl
@[simp] theorem exec_abortBlock {s : State} : ∀ p seq gen cls flow cause, exec (.abortBlock p seq gen cls flow cause) s = execAbortBlock p seq gen cls flow cause s := fun _ _ _ _ _ _ => rfl
@[simp] theorem exec_ackBlock {s : State} : ∀ p cum map, exec (.ackBlock p cum map) s = execAckBlock p cum map s := fun _ _ _ => rfl
@[simp] theorem exec_ackTimer {s : State} : ∀ p, exec (.ackTimer p) s = execAckTimer p s := fun _ => rfl
@[simp] theorem exec_retransmitTimeout {s : State} : ∀ p, exec (.retransmitTimeout p) s = execRetransmitTimeout p s := fun _ => rfl
@[simp] theorem exec_helloSend {s : State} : ∀ p, exec (.helloSend p) s = execHelloSend p s := fun _ => rfl
@[simp] theorem exec_helloBlock {s : State} : ∀ p uid name fid port gen, exec (.helloBlock p uid name fid port gen) s = execHelloBlock p uid name fid port gen s := fun _ _ _ _ _ _ => rfl
@[simp] theorem exec_helloTimeout {s : State} : ∀ p, exec (.helloTimeout p) s = execHelloTimeout p s := fun _ => rfl
@[simp] theorem exec_lsaBlock {s : State} : ∀ p seq gen payload, exec (.lsaBlock p seq gen payload) s = execLsaBlock p seq gen payload s := fun _ _ _ _ => rfl
@[simp] theorem exec_lsaRefresh {s : State} : exec .lsaRefresh s = execLsaRefresh s := rfl
@[simp] theorem exec_lsaAge {s : State} : ∀ uid, exec (.lsaAge uid) s = execLsaAge uid s := fun _ => rfl
@[simp] theorem exec_fidClaim {s : State} : exec .fidClaim s = execFidClaim s := rfl
@[simp] theorem exec_fidJournal {s : State} : exec .fidJournal s = execFidJournal s := rfl
@[simp] theorem exec_brgReq {s : State} : ∀ p seq gen payload issued, exec (.brgReq p seq gen payload issued) s = execBrgReq p seq gen payload issued s := fun _ _ _ _ _ => rfl
@[simp] theorem exec_brgRsp {s : State} : ∀ p seq gen payload, exec (.brgRsp p seq gen payload) s = execBrgRsp p seq gen payload s := fun _ _ _ _ => rfl
@[simp] theorem exec_timeExchange {s : State} : ∀ p, exec (.timeExchange p) s = execTimeExchange p s := fun _ => rfl
@[simp] theorem exec_timeBlock {s : State} : ∀ p sent echo echoAt gm free, exec (.timeBlock p sent echo echoAt gm free) s = execTimeBlock p sent echo echoAt gm free s := fun _ _ _ _ _ _ => rfl
@[simp] theorem exec_heartbeatSend {s : State} : exec .heartbeatSend s = execHeartbeatSend s := rfl
@[simp] theorem exec_heartbeat {s : State} : ∀ p seq body, exec (.heartbeat p seq body) s = execHeartbeat p seq body s := fun _ _ _ => rfl
@[simp] theorem exec_hbInputEdge {s : State} : exec .hbInputEdge s = execHbInputEdge s := rfl
@[simp] theorem exec_heartbeatTick {s : State} : exec .heartbeatTick s = execHeartbeatTick s := rfl
@[simp] theorem exec_fenceWaitExpire {s : State} : exec .fenceWaitExpire s = execFenceWaitExpire s := rfl
@[simp] theorem exec_partnerWaitExpire {s : State} : exec .partnerWaitExpire s = execPartnerWaitExpire s := rfl
@[simp] theorem exec_fenceInput {s : State} : ∀ low, exec (.fenceInput low) s = execFenceInput low s := fun _ => rfl
@[simp] theorem exec_fenceReleaseTimer {s : State} : exec .fenceReleaseTimer s = execFenceReleaseTimer s := rfl
@[simp] theorem exec_deliver {s : State} : ∀ p seq body, exec (.deliver p seq body) s = execDeliver p seq body s := fun _ _ _ => rfl
@[simp] theorem exec_deliverAckTimeout {s : State} : exec .deliverAckTimeout s = execDeliverAckTimeout s := rfl
@[simp] theorem exec_mirrorRestore {s : State} : exec .mirrorRestore s = execMirrorRestore s := rfl
@[simp] theorem exec_fcMismatch {s : State} : ∀ c, exec (.fcMismatch c) s = execFcMismatch c s := fun _ => rfl
@[simp] theorem exec_handover {s : State} : ∀ o v, exec (.handover o v) s = execHandover o v s := fun _ _ => rfl
@[simp] theorem exec_batonOffer {s : State} : ∀ p seq batonGen, exec (.batonOffer p seq batonGen) s = execBatonOffer p seq batonGen s := fun _ _ _ => rfl
@[simp] theorem exec_batonCommit {s : State} : ∀ p seq batonGen, exec (.batonCommit p seq batonGen) s = execBatonCommit p seq batonGen s := fun _ _ _ => rfl
@[simp] theorem exec_relayProfile {s : State} : ∀ p seq body, exec (.relayProfile p seq body) s = execRelayProfile p seq body s := fun _ _ _ => rfl
@[simp] theorem exec_profileSwapAtS {s : State} : exec .profileSwapAtS s = execProfileSwapAtS s := rfl
@[simp] theorem exec_exposureLoopUpdate {s : State} : exec .exposureLoopUpdate s = execExposureLoopUpdate s := rfl
@[simp] theorem exec_expRegWrite {s : State} : ∀ c, exec (.expRegWrite c) s = execExpRegWrite c s := fun _ => rfl
@[simp] theorem exec_liveBlockWrite {s : State} : ∀ c, exec (.liveBlockWrite c) s = execLiveBlockWrite c s := fun _ => rfl
@[simp] theorem exec_replaced {s : State} : ∀ kind inst row x, exec (.replaced kind inst row x) s = execReplaced kind inst row x s := fun _ _ _ _ => rfl
@[simp] theorem exec_replaceRetry {s : State} : exec .replaceRetry s = execReplaceRetry s := rfl
@[simp] theorem exec_ageingMeasure {s : State} : ∀ atBoot freqs, exec (.ageingMeasure atBoot freqs) s = execAgeingMeasure atBoot freqs s := fun _ _ => rfl
@[simp] theorem exec_journalRecord {s : State} : ∀ bad, exec (.journalRecord bad) s = execJournalRecord bad s := fun _ => rfl
@[simp] theorem exec_dropSummary {s : State} : exec .dropSummary s = execDropSummary s := rfl
@[simp] theorem exec_park {s : State} : ∀ o v, exec (.park o v) s = execPark o v s := fun _ _ => rfl
@[simp] theorem exec_parkCancel {s : State} : ∀ o v, exec (.parkCancel o v) s = execParkCancel o v s := fun _ _ => rfl
@[simp] theorem exec_parkComplete {s : State} : exec .parkComplete s = execParkComplete s := rfl
@[simp] theorem exec_parkExit {s : State} : exec .parkExit s = execParkExit s := rfl
@[simp] theorem exec_presencePulse {s : State} : exec .presencePulse s = execPresencePulse s := rfl
@[simp] theorem exec_presenceHeld {s : State} : exec .presenceHeld s = execPresenceHeld s := rfl
@[simp] theorem exec_windowExpire {s : State} : exec .windowExpire s = execWindowExpire s := rfl
@[simp] theorem exec_sessionOpen {s : State} : ∀ o, exec (.sessionOpen o) s = execSessionOpen o s := fun _ => rfl
@[simp] theorem exec_sessionClose {s : State} : ∀ o, exec (.sessionClose o) s = execSessionClose o s := fun _ => rfl
@[simp] theorem exec_erase {s : State} : ∀ o slot, exec (.erase o slot) s = execErase o slot s := fun _ _ => rfl
@[simp] theorem exec_program {s : State} : ∀ o slot arg, exec (.program o slot arg) s = execProgram o slot arg s := fun _ _ _ => rfl
@[simp] theorem exec_verify {s : State} : ∀ o slot, exec (.verify o slot) s = execVerify o slot s := fun _ _ => rfl
@[simp] theorem exec_reload {s : State} : ∀ o, exec (.reload o) s = execReload o s := fun _ => rfl
@[simp] theorem exec_rollback {s : State} : ∀ o arg, exec (.rollback o arg) s = execRollback o arg s := fun _ _ => rfl
@[simp] theorem exec_flashOperationDone {s : State} : ∀ fail, exec (.flashOperationDone fail) s = execFlashOperationDone fail s := fun _ => rfl
@[simp] theorem exec_echoRequestSend {s : State} : ∀ p, exec (.echoRequestSend p) s = execEchoRequestSend p s := fun _ => rfl
@[simp] theorem exec_syncHeaderErrors {s : State} : ∀ p l, exec (.syncHeaderErrors p l) s = execSyncHeaderErrors p l s := fun _ _ => rfl
@[simp] theorem exec_blockCrcError {s : State} : ∀ p, exec (.blockCrcError p) s = execBlockCrcError p s := fun _ => rfl
@[simp] theorem exec_csi2TxPacketSent {s : State} : ∀ p, exec (.csi2TxPacketSent p) s = execCsi2TxPacketSent p s := fun _ => rfl
@[simp] theorem exec_csi2PhyRestartDone {s : State} : ∀ p, exec (.csi2PhyRestartDone p) s = execCsi2PhyRestartDone p s := fun _ => rfl
@[simp] theorem exec_busMasterEnable {s : State} : ∀ p payload, exec (.busMasterEnable p payload) s = execBusMasterEnable p payload s := fun _ _ => rfl
@[simp] theorem exec_pcieUncorrectableError {s : State} : ∀ p, exec (.pcieUncorrectableError p) s = execPcieUncorrectableError p s := fun _ => rfl

end Sys2Proof.Machine
end

