-- ==== Sys2Proof/Laws/State.lean ====
section
/-! SUPPORT. What the named updates of the state leave of each field, and what its accessors read after them. -/

namespace Sys2Proof.Machine
open Sys2Proof

/-! ## One field per update -/

@[simp] theorem setReg_pending (a : Nat) (w : Word) (s : State) : (setReg a w s).pending = s.pending := rfl
@[simp] theorem setReg_chip (a : Nat) (w : Word) (s : State) : (setReg a w s).chip = s.chip := rfl
@[simp] theorem setReg_rollback (a : Nat) (w : Word) (s : State) : (setReg a w s).rollback = s.rollback := rfl
@[simp] theorem setReg_pins (a : Nat) (w : Word) (s : State) : (setReg a w s).pins = s.pins := rfl
@[simp] theorem setReg_now (a : Nat) (w : Word) (s : State) : (setReg a w s).now = s.now := rfl
@[simp] theorem setReg_cfgB (a : Nat) (w : Word) (s : State) : (setReg a w s).cfgB = s.cfgB := rfl
@[simp] theorem setReg_cfgA (a : Nat) (w : Word) (s : State) : (setReg a w s).cfgA = s.cfgA := rfl
@[simp] theorem setReg_cfgO (a : Nat) (w : Word) (s : State) : (setReg a w s).cfgO = s.cfgO := rfl
@[simp] theorem setReg_cfgX (a : Nat) (w : Word) (s : State) : (setReg a w s).cfgX = s.cfgX := rfl
@[simp] theorem setReg_liveB (a : Nat) (w : Word) (s : State) : (setReg a w s).liveB = s.liveB := rfl
@[simp] theorem setReg_liveA (a : Nat) (w : Word) (s : State) : (setReg a w s).liveA = s.liveA := rfl
@[simp] theorem setReg_islEpoch (a : Nat) (w : Word) (s : State) : (setReg a w s).islEpoch = s.islEpoch := rfl
@[simp] theorem setReg_ldr (a : Nat) (w : Word) (s : State) : (setReg a w s).ldr = s.ldr := rfl
@[simp] theorem setReg_queues (a : Nat) (w : Word) (s : State) : (setReg a w s).queues = s.queues := rfl
@[simp] theorem setReg_readPorts (a : Nat) (w : Word) (s : State) : (setReg a w s).readPorts = s.readPorts := rfl
@[simp] theorem setReg_hostPorts (a : Nat) (w : Word) (s : State) : (setReg a w s).hostPorts = s.hostPorts := rfl
@[simp] theorem setReg_svcStats (a : Nat) (w : Word) (s : State) : (setReg a w s).svcStats = s.svcStats := rfl
@[simp] theorem setReg_jnl (a : Nat) (w : Word) (s : State) : (setReg a w s).jnl = s.jnl := rfl
@[simp] theorem setReg_rsv (a : Nat) (w : Word) (s : State) : (setReg a w s).rsv = s.rsv := rfl
@[simp] theorem setReg_cams (a : Nat) (w : Word) (s : State) : (setReg a w s).cams = s.cams := rfl
@[simp] theorem setReg_twbs (a : Nat) (w : Word) (s : State) : (setReg a w s).twbs = s.twbs := rfl
@[simp] theorem setReg_frames (a : Nat) (w : Word) (s : State) : (setReg a w s).frames = s.frames := rfl
@[simp] theorem setReg_nextFrame (a : Nat) (w : Word) (s : State) : (setReg a w s).nextFrame = s.nextFrame := rfl
@[simp] theorem setReg_running (a : Nat) (w : Word) (s : State) : (setReg a w s).running = s.running := rfl
@[simp] theorem setReg_syncs (a : Nat) (w : Word) (s : State) : (setReg a w s).syncs = s.syncs := rfl
@[simp] theorem setReg_statCount (a : Nat) (w : Word) (s : State) : (setReg a w s).statCount = s.statCount := rfl
@[simp] theorem setReg_outs (a : Nat) (w : Word) (s : State) : (setReg a w s).outs = s.outs := rfl
@[simp] theorem setReg_nextOut (a : Nat) (w : Word) (s : State) : (setReg a w s).nextOut = s.nextOut := rfl
@[simp] theorem setReg_inAlive (a : Nat) (w : Word) (s : State) : (setReg a w s).inAlive = s.inAlive := rfl
@[simp] theorem setReg_doneKeys (a : Nat) (w : Word) (s : State) : (setReg a w s).doneKeys = s.doneKeys := rfl
@[simp] theorem setReg_holds (a : Nat) (w : Word) (s : State) : (setReg a w s).holds = s.holds := rfl
@[simp] theorem setReg_txs (a : Nat) (w : Word) (s : State) : (setReg a w s).txs = s.txs := rfl
@[simp] theorem setReg_chans (a : Nat) (w : Word) (s : State) : (setReg a w s).chans = s.chans := rfl
@[simp] theorem setReg_weaves (a : Nat) (w : Word) (s : State) : (setReg a w s).weaves = s.weaves := rfl
@[simp] theorem setReg_outFlows (a : Nat) (w : Word) (s : State) : (setReg a w s).outFlows = s.outFlows := rfl
@[simp] theorem setReg_fab (a : Nat) (w : Word) (s : State) : (setReg a w s).fab = s.fab := rfl
@[simp] theorem setReg_rly (a : Nat) (w : Word) (s : State) : (setReg a w s).rly = s.rly := rfl
@[simp] theorem setReg_mnt (a : Nat) (w : Word) (s : State) : (setReg a w s).mnt = s.mnt := rfl
@[simp] theorem setReg_time (a : Nat) (w : Word) (s : State) : (setReg a w s).time = s.time := rfl
@[simp] theorem setReg_eths (a : Nat) (w : Word) (s : State) : (setReg a w s).eths = s.eths := rfl
@[simp] theorem setReg_mot (a : Nat) (w : Word) (s : State) : (setReg a w s).mot = s.mot := rfl
@[simp] theorem setReg_pwrs (a : Nat) (w : Word) (s : State) : (setReg a w s).pwrs = s.pwrs := rfl
@[simp] theorem setReg_pwms (a : Nat) (w : Word) (s : State) : (setReg a w s).pwms = s.pwms := rfl
@[simp] theorem setReg_folds (a : Nat) (w : Word) (s : State) : (setReg a w s).folds = s.folds := rfl
@[simp] theorem setReg_brg (a : Nat) (w : Word) (s : State) : (setReg a w s).brg = s.brg := rfl
@[simp] theorem setReg_loops (a : Nat) (w : Word) (s : State) : (setReg a w s).loops = s.loops := rfl
@[simp] theorem setReg_vcore (a : Nat) (w : Word) (s : State) : (setReg a w s).vcore = s.vcore := rfl
@[simp] theorem setReg_chkAt (a : Nat) (w : Word) (s : State) : (setReg a w s).chkAt = s.chkAt := rfl
@[simp] theorem setReg_checkpoint (a : Nat) (w : Word) (s : State) : (setReg a w s).checkpoint = s.checkpoint := rfl
@[simp] theorem setReg_protoErrs (a : Nat) (w : Word) (s : State) : (setReg a w s).protoErrs = s.protoErrs := rfl
@[simp] theorem setReg_flash (a : Nat) (w : Word) (s : State) : (setReg a w s).flash = s.flash := rfl
@[simp] theorem setReg_jmem (a : Nat) (w : Word) (s : State) : (setReg a w s).jmem = s.jmem := rfl
@[simp] theorem setReg_ram (a : Nat) (w : Word) (s : State) : (setReg a w s).ram = s.ram := rfl
@[simp] theorem setReg_out (a : Nat) (w : Word) (s : State) : (setReg a w s).out = s.out := rfl
@[simp] theorem setReg_freeCount (a : Nat) (w : Word) (s : State) : (setReg a w s).freeCount = s.freeCount := rfl

@[simp] theorem wr_pending (r : RF) (v : Nat) (s : State) : (wr r v s).pending = s.pending := rfl
@[simp] theorem wr_chip (r : RF) (v : Nat) (s : State) : (wr r v s).chip = s.chip := rfl
@[simp] theorem wr_rollback (r : RF) (v : Nat) (s : State) : (wr r v s).rollback = s.rollback := rfl
@[simp] theorem wr_pins (r : RF) (v : Nat) (s : State) : (wr r v s).pins = s.pins := rfl
@[simp] theorem wr_now (r : RF) (v : Nat) (s : State) : (wr r v s).now = s.now := rfl
@[simp] theorem wr_cfgB (r : RF) (v : Nat) (s : State) : (wr r v s).cfgB = s.cfgB := rfl
@[simp] theorem wr_cfgA (r : RF) (v : Nat) (s : State) : (wr r v s).cfgA = s.cfgA := rfl
@[simp] theorem wr_cfgO (r : RF) (v : Nat) (s : State) : (wr r v s).cfgO = s.cfgO := rfl
@[simp] theorem wr_cfgX (r : RF) (v : Nat) (s : State) : (wr r v s).cfgX = s.cfgX := rfl
@[simp] theorem wr_liveB (r : RF) (v : Nat) (s : State) : (wr r v s).liveB = s.liveB := rfl
@[simp] theorem wr_liveA (r : RF) (v : Nat) (s : State) : (wr r v s).liveA = s.liveA := rfl
@[simp] theorem wr_islEpoch (r : RF) (v : Nat) (s : State) : (wr r v s).islEpoch = s.islEpoch := rfl
@[simp] theorem wr_ldr (r : RF) (v : Nat) (s : State) : (wr r v s).ldr = s.ldr := rfl
@[simp] theorem wr_queues (r : RF) (v : Nat) (s : State) : (wr r v s).queues = s.queues := rfl
@[simp] theorem wr_readPorts (r : RF) (v : Nat) (s : State) : (wr r v s).readPorts = s.readPorts := rfl
@[simp] theorem wr_hostPorts (r : RF) (v : Nat) (s : State) : (wr r v s).hostPorts = s.hostPorts := rfl
@[simp] theorem wr_svcStats (r : RF) (v : Nat) (s : State) : (wr r v s).svcStats = s.svcStats := rfl
@[simp] theorem wr_jnl (r : RF) (v : Nat) (s : State) : (wr r v s).jnl = s.jnl := rfl
@[simp] theorem wr_rsv (r : RF) (v : Nat) (s : State) : (wr r v s).rsv = s.rsv := rfl
@[simp] theorem wr_cams (r : RF) (v : Nat) (s : State) : (wr r v s).cams = s.cams := rfl
@[simp] theorem wr_twbs (r : RF) (v : Nat) (s : State) : (wr r v s).twbs = s.twbs := rfl
@[simp] theorem wr_frames (r : RF) (v : Nat) (s : State) : (wr r v s).frames = s.frames := rfl
@[simp] theorem wr_nextFrame (r : RF) (v : Nat) (s : State) : (wr r v s).nextFrame = s.nextFrame := rfl
@[simp] theorem wr_running (r : RF) (v : Nat) (s : State) : (wr r v s).running = s.running := rfl
@[simp] theorem wr_syncs (r : RF) (v : Nat) (s : State) : (wr r v s).syncs = s.syncs := rfl
@[simp] theorem wr_statCount (r : RF) (v : Nat) (s : State) : (wr r v s).statCount = s.statCount := rfl
@[simp] theorem wr_outs (r : RF) (v : Nat) (s : State) : (wr r v s).outs = s.outs := rfl
@[simp] theorem wr_nextOut (r : RF) (v : Nat) (s : State) : (wr r v s).nextOut = s.nextOut := rfl
@[simp] theorem wr_inAlive (r : RF) (v : Nat) (s : State) : (wr r v s).inAlive = s.inAlive := rfl
@[simp] theorem wr_doneKeys (r : RF) (v : Nat) (s : State) : (wr r v s).doneKeys = s.doneKeys := rfl
@[simp] theorem wr_holds (r : RF) (v : Nat) (s : State) : (wr r v s).holds = s.holds := rfl
@[simp] theorem wr_txs (r : RF) (v : Nat) (s : State) : (wr r v s).txs = s.txs := rfl
@[simp] theorem wr_chans (r : RF) (v : Nat) (s : State) : (wr r v s).chans = s.chans := rfl
@[simp] theorem wr_weaves (r : RF) (v : Nat) (s : State) : (wr r v s).weaves = s.weaves := rfl
@[simp] theorem wr_outFlows (r : RF) (v : Nat) (s : State) : (wr r v s).outFlows = s.outFlows := rfl
@[simp] theorem wr_fab (r : RF) (v : Nat) (s : State) : (wr r v s).fab = s.fab := rfl
@[simp] theorem wr_rly (r : RF) (v : Nat) (s : State) : (wr r v s).rly = s.rly := rfl
@[simp] theorem wr_mnt (r : RF) (v : Nat) (s : State) : (wr r v s).mnt = s.mnt := rfl
@[simp] theorem wr_time (r : RF) (v : Nat) (s : State) : (wr r v s).time = s.time := rfl
@[simp] theorem wr_eths (r : RF) (v : Nat) (s : State) : (wr r v s).eths = s.eths := rfl
@[simp] theorem wr_mot (r : RF) (v : Nat) (s : State) : (wr r v s).mot = s.mot := rfl
@[simp] theorem wr_pwrs (r : RF) (v : Nat) (s : State) : (wr r v s).pwrs = s.pwrs := rfl
@[simp] theorem wr_pwms (r : RF) (v : Nat) (s : State) : (wr r v s).pwms = s.pwms := rfl
@[simp] theorem wr_folds (r : RF) (v : Nat) (s : State) : (wr r v s).folds = s.folds := rfl
@[simp] theorem wr_brg (r : RF) (v : Nat) (s : State) : (wr r v s).brg = s.brg := rfl
@[simp] theorem wr_loops (r : RF) (v : Nat) (s : State) : (wr r v s).loops = s.loops := rfl
@[simp] theorem wr_vcore (r : RF) (v : Nat) (s : State) : (wr r v s).vcore = s.vcore := rfl
@[simp] theorem wr_chkAt (r : RF) (v : Nat) (s : State) : (wr r v s).chkAt = s.chkAt := rfl
@[simp] theorem wr_checkpoint (r : RF) (v : Nat) (s : State) : (wr r v s).checkpoint = s.checkpoint := rfl
@[simp] theorem wr_protoErrs (r : RF) (v : Nat) (s : State) : (wr r v s).protoErrs = s.protoErrs := rfl
@[simp] theorem wr_flash (r : RF) (v : Nat) (s : State) : (wr r v s).flash = s.flash := rfl
@[simp] theorem wr_jmem (r : RF) (v : Nat) (s : State) : (wr r v s).jmem = s.jmem := rfl
@[simp] theorem wr_ram (r : RF) (v : Nat) (s : State) : (wr r v s).ram = s.ram := rfl
@[simp] theorem wr_out (r : RF) (v : Nat) (s : State) : (wr r v s).out = s.out := rfl
@[simp] theorem wr_freeCount (r : RF) (v : Nat) (s : State) : (wr r v s).freeCount = s.freeCount := rfl

@[simp] theorem addSat_pending (r : RF) (d : Nat) (s : State) : (addSat r d s).pending = s.pending := rfl
@[simp] theorem addSat_chip (r : RF) (d : Nat) (s : State) : (addSat r d s).chip = s.chip := rfl
@[simp] theorem addSat_rollback (r : RF) (d : Nat) (s : State) : (addSat r d s).rollback = s.rollback := rfl
@[simp] theorem addSat_pins (r : RF) (d : Nat) (s : State) : (addSat r d s).pins = s.pins := rfl
@[simp] theorem addSat_now (r : RF) (d : Nat) (s : State) : (addSat r d s).now = s.now := rfl
@[simp] theorem addSat_cfgB (r : RF) (d : Nat) (s : State) : (addSat r d s).cfgB = s.cfgB := rfl
@[simp] theorem addSat_cfgA (r : RF) (d : Nat) (s : State) : (addSat r d s).cfgA = s.cfgA := rfl
@[simp] theorem addSat_cfgO (r : RF) (d : Nat) (s : State) : (addSat r d s).cfgO = s.cfgO := rfl
@[simp] theorem addSat_cfgX (r : RF) (d : Nat) (s : State) : (addSat r d s).cfgX = s.cfgX := rfl
@[simp] theorem addSat_liveB (r : RF) (d : Nat) (s : State) : (addSat r d s).liveB = s.liveB := rfl
@[simp] theorem addSat_liveA (r : RF) (d : Nat) (s : State) : (addSat r d s).liveA = s.liveA := rfl
@[simp] theorem addSat_islEpoch (r : RF) (d : Nat) (s : State) : (addSat r d s).islEpoch = s.islEpoch := rfl
@[simp] theorem addSat_ldr (r : RF) (d : Nat) (s : State) : (addSat r d s).ldr = s.ldr := rfl
@[simp] theorem addSat_queues (r : RF) (d : Nat) (s : State) : (addSat r d s).queues = s.queues := rfl
@[simp] theorem addSat_readPorts (r : RF) (d : Nat) (s : State) : (addSat r d s).readPorts = s.readPorts := rfl
@[simp] theorem addSat_hostPorts (r : RF) (d : Nat) (s : State) : (addSat r d s).hostPorts = s.hostPorts := rfl
@[simp] theorem addSat_svcStats (r : RF) (d : Nat) (s : State) : (addSat r d s).svcStats = s.svcStats := rfl
@[simp] theorem addSat_jnl (r : RF) (d : Nat) (s : State) : (addSat r d s).jnl = s.jnl := rfl
@[simp] theorem addSat_rsv (r : RF) (d : Nat) (s : State) : (addSat r d s).rsv = s.rsv := rfl
@[simp] theorem addSat_cams (r : RF) (d : Nat) (s : State) : (addSat r d s).cams = s.cams := rfl
@[simp] theorem addSat_twbs (r : RF) (d : Nat) (s : State) : (addSat r d s).twbs = s.twbs := rfl
@[simp] theorem addSat_frames (r : RF) (d : Nat) (s : State) : (addSat r d s).frames = s.frames := rfl
@[simp] theorem addSat_nextFrame (r : RF) (d : Nat) (s : State) : (addSat r d s).nextFrame = s.nextFrame := rfl
@[simp] theorem addSat_running (r : RF) (d : Nat) (s : State) : (addSat r d s).running = s.running := rfl
@[simp] theorem addSat_syncs (r : RF) (d : Nat) (s : State) : (addSat r d s).syncs = s.syncs := rfl
@[simp] theorem addSat_statCount (r : RF) (d : Nat) (s : State) : (addSat r d s).statCount = s.statCount := rfl
@[simp] theorem addSat_outs (r : RF) (d : Nat) (s : State) : (addSat r d s).outs = s.outs := rfl
@[simp] theorem addSat_nextOut (r : RF) (d : Nat) (s : State) : (addSat r d s).nextOut = s.nextOut := rfl
@[simp] theorem addSat_inAlive (r : RF) (d : Nat) (s : State) : (addSat r d s).inAlive = s.inAlive := rfl
@[simp] theorem addSat_doneKeys (r : RF) (d : Nat) (s : State) : (addSat r d s).doneKeys = s.doneKeys := rfl
@[simp] theorem addSat_holds (r : RF) (d : Nat) (s : State) : (addSat r d s).holds = s.holds := rfl
@[simp] theorem addSat_txs (r : RF) (d : Nat) (s : State) : (addSat r d s).txs = s.txs := rfl
@[simp] theorem addSat_chans (r : RF) (d : Nat) (s : State) : (addSat r d s).chans = s.chans := rfl
@[simp] theorem addSat_weaves (r : RF) (d : Nat) (s : State) : (addSat r d s).weaves = s.weaves := rfl
@[simp] theorem addSat_outFlows (r : RF) (d : Nat) (s : State) : (addSat r d s).outFlows = s.outFlows := rfl
@[simp] theorem addSat_fab (r : RF) (d : Nat) (s : State) : (addSat r d s).fab = s.fab := rfl
@[simp] theorem addSat_rly (r : RF) (d : Nat) (s : State) : (addSat r d s).rly = s.rly := rfl
@[simp] theorem addSat_mnt (r : RF) (d : Nat) (s : State) : (addSat r d s).mnt = s.mnt := rfl
@[simp] theorem addSat_time (r : RF) (d : Nat) (s : State) : (addSat r d s).time = s.time := rfl
@[simp] theorem addSat_eths (r : RF) (d : Nat) (s : State) : (addSat r d s).eths = s.eths := rfl
@[simp] theorem addSat_mot (r : RF) (d : Nat) (s : State) : (addSat r d s).mot = s.mot := rfl
@[simp] theorem addSat_pwrs (r : RF) (d : Nat) (s : State) : (addSat r d s).pwrs = s.pwrs := rfl
@[simp] theorem addSat_pwms (r : RF) (d : Nat) (s : State) : (addSat r d s).pwms = s.pwms := rfl
@[simp] theorem addSat_folds (r : RF) (d : Nat) (s : State) : (addSat r d s).folds = s.folds := rfl
@[simp] theorem addSat_brg (r : RF) (d : Nat) (s : State) : (addSat r d s).brg = s.brg := rfl
@[simp] theorem addSat_loops (r : RF) (d : Nat) (s : State) : (addSat r d s).loops = s.loops := rfl
@[simp] theorem addSat_vcore (r : RF) (d : Nat) (s : State) : (addSat r d s).vcore = s.vcore := rfl
@[simp] theorem addSat_chkAt (r : RF) (d : Nat) (s : State) : (addSat r d s).chkAt = s.chkAt := rfl
@[simp] theorem addSat_checkpoint (r : RF) (d : Nat) (s : State) : (addSat r d s).checkpoint = s.checkpoint := rfl
@[simp] theorem addSat_protoErrs (r : RF) (d : Nat) (s : State) : (addSat r d s).protoErrs = s.protoErrs := rfl
@[simp] theorem addSat_flash (r : RF) (d : Nat) (s : State) : (addSat r d s).flash = s.flash := rfl
@[simp] theorem addSat_jmem (r : RF) (d : Nat) (s : State) : (addSat r d s).jmem = s.jmem := rfl
@[simp] theorem addSat_ram (r : RF) (d : Nat) (s : State) : (addSat r d s).ram = s.ram := rfl
@[simp] theorem addSat_out (r : RF) (d : Nat) (s : State) : (addSat r d s).out = s.out := rfl
@[simp] theorem addSat_freeCount (r : RF) (d : Nat) (s : State) : (addSat r d s).freeCount = s.freeCount := rfl

@[simp] theorem inc_pending (r : RF) (s : State) : (inc r s).pending = s.pending := rfl
@[simp] theorem inc_chip (r : RF) (s : State) : (inc r s).chip = s.chip := rfl
@[simp] theorem inc_rollback (r : RF) (s : State) : (inc r s).rollback = s.rollback := rfl
@[simp] theorem inc_pins (r : RF) (s : State) : (inc r s).pins = s.pins := rfl
@[simp] theorem inc_now (r : RF) (s : State) : (inc r s).now = s.now := rfl
@[simp] theorem inc_cfgB (r : RF) (s : State) : (inc r s).cfgB = s.cfgB := rfl
@[simp] theorem inc_cfgA (r : RF) (s : State) : (inc r s).cfgA = s.cfgA := rfl
@[simp] theorem inc_cfgO (r : RF) (s : State) : (inc r s).cfgO = s.cfgO := rfl
@[simp] theorem inc_cfgX (r : RF) (s : State) : (inc r s).cfgX = s.cfgX := rfl
@[simp] theorem inc_liveB (r : RF) (s : State) : (inc r s).liveB = s.liveB := rfl
@[simp] theorem inc_liveA (r : RF) (s : State) : (inc r s).liveA = s.liveA := rfl
@[simp] theorem inc_islEpoch (r : RF) (s : State) : (inc r s).islEpoch = s.islEpoch := rfl
@[simp] theorem inc_ldr (r : RF) (s : State) : (inc r s).ldr = s.ldr := rfl
@[simp] theorem inc_queues (r : RF) (s : State) : (inc r s).queues = s.queues := rfl
@[simp] theorem inc_readPorts (r : RF) (s : State) : (inc r s).readPorts = s.readPorts := rfl
@[simp] theorem inc_hostPorts (r : RF) (s : State) : (inc r s).hostPorts = s.hostPorts := rfl
@[simp] theorem inc_svcStats (r : RF) (s : State) : (inc r s).svcStats = s.svcStats := rfl
@[simp] theorem inc_jnl (r : RF) (s : State) : (inc r s).jnl = s.jnl := rfl
@[simp] theorem inc_rsv (r : RF) (s : State) : (inc r s).rsv = s.rsv := rfl
@[simp] theorem inc_cams (r : RF) (s : State) : (inc r s).cams = s.cams := rfl
@[simp] theorem inc_twbs (r : RF) (s : State) : (inc r s).twbs = s.twbs := rfl
@[simp] theorem inc_frames (r : RF) (s : State) : (inc r s).frames = s.frames := rfl
@[simp] theorem inc_nextFrame (r : RF) (s : State) : (inc r s).nextFrame = s.nextFrame := rfl
@[simp] theorem inc_running (r : RF) (s : State) : (inc r s).running = s.running := rfl
@[simp] theorem inc_syncs (r : RF) (s : State) : (inc r s).syncs = s.syncs := rfl
@[simp] theorem inc_statCount (r : RF) (s : State) : (inc r s).statCount = s.statCount := rfl
@[simp] theorem inc_outs (r : RF) (s : State) : (inc r s).outs = s.outs := rfl
@[simp] theorem inc_nextOut (r : RF) (s : State) : (inc r s).nextOut = s.nextOut := rfl
@[simp] theorem inc_inAlive (r : RF) (s : State) : (inc r s).inAlive = s.inAlive := rfl
@[simp] theorem inc_doneKeys (r : RF) (s : State) : (inc r s).doneKeys = s.doneKeys := rfl
@[simp] theorem inc_holds (r : RF) (s : State) : (inc r s).holds = s.holds := rfl
@[simp] theorem inc_txs (r : RF) (s : State) : (inc r s).txs = s.txs := rfl
@[simp] theorem inc_chans (r : RF) (s : State) : (inc r s).chans = s.chans := rfl
@[simp] theorem inc_weaves (r : RF) (s : State) : (inc r s).weaves = s.weaves := rfl
@[simp] theorem inc_outFlows (r : RF) (s : State) : (inc r s).outFlows = s.outFlows := rfl
@[simp] theorem inc_fab (r : RF) (s : State) : (inc r s).fab = s.fab := rfl
@[simp] theorem inc_rly (r : RF) (s : State) : (inc r s).rly = s.rly := rfl
@[simp] theorem inc_mnt (r : RF) (s : State) : (inc r s).mnt = s.mnt := rfl
@[simp] theorem inc_time (r : RF) (s : State) : (inc r s).time = s.time := rfl
@[simp] theorem inc_eths (r : RF) (s : State) : (inc r s).eths = s.eths := rfl
@[simp] theorem inc_mot (r : RF) (s : State) : (inc r s).mot = s.mot := rfl
@[simp] theorem inc_pwrs (r : RF) (s : State) : (inc r s).pwrs = s.pwrs := rfl
@[simp] theorem inc_pwms (r : RF) (s : State) : (inc r s).pwms = s.pwms := rfl
@[simp] theorem inc_folds (r : RF) (s : State) : (inc r s).folds = s.folds := rfl
@[simp] theorem inc_brg (r : RF) (s : State) : (inc r s).brg = s.brg := rfl
@[simp] theorem inc_loops (r : RF) (s : State) : (inc r s).loops = s.loops := rfl
@[simp] theorem inc_vcore (r : RF) (s : State) : (inc r s).vcore = s.vcore := rfl
@[simp] theorem inc_chkAt (r : RF) (s : State) : (inc r s).chkAt = s.chkAt := rfl
@[simp] theorem inc_checkpoint (r : RF) (s : State) : (inc r s).checkpoint = s.checkpoint := rfl
@[simp] theorem inc_protoErrs (r : RF) (s : State) : (inc r s).protoErrs = s.protoErrs := rfl
@[simp] theorem inc_flash (r : RF) (s : State) : (inc r s).flash = s.flash := rfl
@[simp] theorem inc_jmem (r : RF) (s : State) : (inc r s).jmem = s.jmem := rfl
@[simp] theorem inc_ram (r : RF) (s : State) : (inc r s).ram = s.ram := rfl
@[simp] theorem inc_out (r : RF) (s : State) : (inc r s).out = s.out := rfl
@[simp] theorem inc_freeCount (r : RF) (s : State) : (inc r s).freeCount = s.freeCount := rfl

@[simp] theorem incWrap_pending (r : RF) (s : State) : (incWrap r s).pending = s.pending := rfl
@[simp] theorem incWrap_chip (r : RF) (s : State) : (incWrap r s).chip = s.chip := rfl
@[simp] theorem incWrap_rollback (r : RF) (s : State) : (incWrap r s).rollback = s.rollback := rfl
@[simp] theorem incWrap_pins (r : RF) (s : State) : (incWrap r s).pins = s.pins := rfl
@[simp] theorem incWrap_now (r : RF) (s : State) : (incWrap r s).now = s.now := rfl
@[simp] theorem incWrap_cfgB (r : RF) (s : State) : (incWrap r s).cfgB = s.cfgB := rfl
@[simp] theorem incWrap_cfgA (r : RF) (s : State) : (incWrap r s).cfgA = s.cfgA := rfl
@[simp] theorem incWrap_cfgO (r : RF) (s : State) : (incWrap r s).cfgO = s.cfgO := rfl
@[simp] theorem incWrap_cfgX (r : RF) (s : State) : (incWrap r s).cfgX = s.cfgX := rfl
@[simp] theorem incWrap_liveB (r : RF) (s : State) : (incWrap r s).liveB = s.liveB := rfl
@[simp] theorem incWrap_liveA (r : RF) (s : State) : (incWrap r s).liveA = s.liveA := rfl
@[simp] theorem incWrap_islEpoch (r : RF) (s : State) : (incWrap r s).islEpoch = s.islEpoch := rfl
@[simp] theorem incWrap_ldr (r : RF) (s : State) : (incWrap r s).ldr = s.ldr := rfl
@[simp] theorem incWrap_queues (r : RF) (s : State) : (incWrap r s).queues = s.queues := rfl
@[simp] theorem incWrap_readPorts (r : RF) (s : State) : (incWrap r s).readPorts = s.readPorts := rfl
@[simp] theorem incWrap_hostPorts (r : RF) (s : State) : (incWrap r s).hostPorts = s.hostPorts := rfl
@[simp] theorem incWrap_svcStats (r : RF) (s : State) : (incWrap r s).svcStats = s.svcStats := rfl
@[simp] theorem incWrap_jnl (r : RF) (s : State) : (incWrap r s).jnl = s.jnl := rfl
@[simp] theorem incWrap_rsv (r : RF) (s : State) : (incWrap r s).rsv = s.rsv := rfl
@[simp] theorem incWrap_cams (r : RF) (s : State) : (incWrap r s).cams = s.cams := rfl
@[simp] theorem incWrap_twbs (r : RF) (s : State) : (incWrap r s).twbs = s.twbs := rfl
@[simp] theorem incWrap_frames (r : RF) (s : State) : (incWrap r s).frames = s.frames := rfl
@[simp] theorem incWrap_nextFrame (r : RF) (s : State) : (incWrap r s).nextFrame = s.nextFrame := rfl
@[simp] theorem incWrap_running (r : RF) (s : State) : (incWrap r s).running = s.running := rfl
@[simp] theorem incWrap_syncs (r : RF) (s : State) : (incWrap r s).syncs = s.syncs := rfl
@[simp] theorem incWrap_statCount (r : RF) (s : State) : (incWrap r s).statCount = s.statCount := rfl
@[simp] theorem incWrap_outs (r : RF) (s : State) : (incWrap r s).outs = s.outs := rfl
@[simp] theorem incWrap_nextOut (r : RF) (s : State) : (incWrap r s).nextOut = s.nextOut := rfl
@[simp] theorem incWrap_inAlive (r : RF) (s : State) : (incWrap r s).inAlive = s.inAlive := rfl
@[simp] theorem incWrap_doneKeys (r : RF) (s : State) : (incWrap r s).doneKeys = s.doneKeys := rfl
@[simp] theorem incWrap_holds (r : RF) (s : State) : (incWrap r s).holds = s.holds := rfl
@[simp] theorem incWrap_txs (r : RF) (s : State) : (incWrap r s).txs = s.txs := rfl
@[simp] theorem incWrap_chans (r : RF) (s : State) : (incWrap r s).chans = s.chans := rfl
@[simp] theorem incWrap_weaves (r : RF) (s : State) : (incWrap r s).weaves = s.weaves := rfl
@[simp] theorem incWrap_outFlows (r : RF) (s : State) : (incWrap r s).outFlows = s.outFlows := rfl
@[simp] theorem incWrap_fab (r : RF) (s : State) : (incWrap r s).fab = s.fab := rfl
@[simp] theorem incWrap_rly (r : RF) (s : State) : (incWrap r s).rly = s.rly := rfl
@[simp] theorem incWrap_mnt (r : RF) (s : State) : (incWrap r s).mnt = s.mnt := rfl
@[simp] theorem incWrap_time (r : RF) (s : State) : (incWrap r s).time = s.time := rfl
@[simp] theorem incWrap_eths (r : RF) (s : State) : (incWrap r s).eths = s.eths := rfl
@[simp] theorem incWrap_mot (r : RF) (s : State) : (incWrap r s).mot = s.mot := rfl
@[simp] theorem incWrap_pwrs (r : RF) (s : State) : (incWrap r s).pwrs = s.pwrs := rfl
@[simp] theorem incWrap_pwms (r : RF) (s : State) : (incWrap r s).pwms = s.pwms := rfl
@[simp] theorem incWrap_folds (r : RF) (s : State) : (incWrap r s).folds = s.folds := rfl
@[simp] theorem incWrap_brg (r : RF) (s : State) : (incWrap r s).brg = s.brg := rfl
@[simp] theorem incWrap_loops (r : RF) (s : State) : (incWrap r s).loops = s.loops := rfl
@[simp] theorem incWrap_vcore (r : RF) (s : State) : (incWrap r s).vcore = s.vcore := rfl
@[simp] theorem incWrap_chkAt (r : RF) (s : State) : (incWrap r s).chkAt = s.chkAt := rfl
@[simp] theorem incWrap_checkpoint (r : RF) (s : State) : (incWrap r s).checkpoint = s.checkpoint := rfl
@[simp] theorem incWrap_protoErrs (r : RF) (s : State) : (incWrap r s).protoErrs = s.protoErrs := rfl
@[simp] theorem incWrap_flash (r : RF) (s : State) : (incWrap r s).flash = s.flash := rfl
@[simp] theorem incWrap_jmem (r : RF) (s : State) : (incWrap r s).jmem = s.jmem := rfl
@[simp] theorem incWrap_ram (r : RF) (s : State) : (incWrap r s).ram = s.ram := rfl
@[simp] theorem incWrap_out (r : RF) (s : State) : (incWrap r s).out = s.out := rfl
@[simp] theorem incWrap_freeCount (r : RF) (s : State) : (incWrap r s).freeCount = s.freeCount := rfl

@[simp] theorem emit_pending (e : Emit) (s : State) : (emit e s).pending = s.pending := rfl
@[simp] theorem emit_chip (e : Emit) (s : State) : (emit e s).chip = s.chip := rfl
@[simp] theorem emit_rollback (e : Emit) (s : State) : (emit e s).rollback = s.rollback := rfl
@[simp] theorem emit_pins (e : Emit) (s : State) : (emit e s).pins = s.pins := rfl
@[simp] theorem emit_now (e : Emit) (s : State) : (emit e s).now = s.now := rfl
@[simp] theorem emit_regs (e : Emit) (s : State) : (emit e s).regs = s.regs := rfl
@[simp] theorem emit_cfgB (e : Emit) (s : State) : (emit e s).cfgB = s.cfgB := rfl
@[simp] theorem emit_cfgA (e : Emit) (s : State) : (emit e s).cfgA = s.cfgA := rfl
@[simp] theorem emit_cfgO (e : Emit) (s : State) : (emit e s).cfgO = s.cfgO := rfl
@[simp] theorem emit_cfgX (e : Emit) (s : State) : (emit e s).cfgX = s.cfgX := rfl
@[simp] theorem emit_liveB (e : Emit) (s : State) : (emit e s).liveB = s.liveB := rfl
@[simp] theorem emit_liveA (e : Emit) (s : State) : (emit e s).liveA = s.liveA := rfl
@[simp] theorem emit_islEpoch (e : Emit) (s : State) : (emit e s).islEpoch = s.islEpoch := rfl
@[simp] theorem emit_ldr (e : Emit) (s : State) : (emit e s).ldr = s.ldr := rfl
@[simp] theorem emit_queues (e : Emit) (s : State) : (emit e s).queues = s.queues := rfl
@[simp] theorem emit_readPorts (e : Emit) (s : State) : (emit e s).readPorts = s.readPorts := rfl
@[simp] theorem emit_hostPorts (e : Emit) (s : State) : (emit e s).hostPorts = s.hostPorts := rfl
@[simp] theorem emit_svcStats (e : Emit) (s : State) : (emit e s).svcStats = s.svcStats := rfl
@[simp] theorem emit_jnl (e : Emit) (s : State) : (emit e s).jnl = s.jnl := rfl
@[simp] theorem emit_rsv (e : Emit) (s : State) : (emit e s).rsv = s.rsv := rfl
@[simp] theorem emit_cams (e : Emit) (s : State) : (emit e s).cams = s.cams := rfl
@[simp] theorem emit_twbs (e : Emit) (s : State) : (emit e s).twbs = s.twbs := rfl
@[simp] theorem emit_frames (e : Emit) (s : State) : (emit e s).frames = s.frames := rfl
@[simp] theorem emit_nextFrame (e : Emit) (s : State) : (emit e s).nextFrame = s.nextFrame := rfl
@[simp] theorem emit_running (e : Emit) (s : State) : (emit e s).running = s.running := rfl
@[simp] theorem emit_syncs (e : Emit) (s : State) : (emit e s).syncs = s.syncs := rfl
@[simp] theorem emit_statCount (e : Emit) (s : State) : (emit e s).statCount = s.statCount := rfl
@[simp] theorem emit_outs (e : Emit) (s : State) : (emit e s).outs = s.outs := rfl
@[simp] theorem emit_nextOut (e : Emit) (s : State) : (emit e s).nextOut = s.nextOut := rfl
@[simp] theorem emit_inAlive (e : Emit) (s : State) : (emit e s).inAlive = s.inAlive := rfl
@[simp] theorem emit_doneKeys (e : Emit) (s : State) : (emit e s).doneKeys = s.doneKeys := rfl
@[simp] theorem emit_holds (e : Emit) (s : State) : (emit e s).holds = s.holds := rfl
@[simp] theorem emit_txs (e : Emit) (s : State) : (emit e s).txs = s.txs := rfl
@[simp] theorem emit_chans (e : Emit) (s : State) : (emit e s).chans = s.chans := rfl
@[simp] theorem emit_weaves (e : Emit) (s : State) : (emit e s).weaves = s.weaves := rfl
@[simp] theorem emit_outFlows (e : Emit) (s : State) : (emit e s).outFlows = s.outFlows := rfl
@[simp] theorem emit_fab (e : Emit) (s : State) : (emit e s).fab = s.fab := rfl
@[simp] theorem emit_rly (e : Emit) (s : State) : (emit e s).rly = s.rly := rfl
@[simp] theorem emit_mnt (e : Emit) (s : State) : (emit e s).mnt = s.mnt := rfl
@[simp] theorem emit_time (e : Emit) (s : State) : (emit e s).time = s.time := rfl
@[simp] theorem emit_eths (e : Emit) (s : State) : (emit e s).eths = s.eths := rfl
@[simp] theorem emit_mot (e : Emit) (s : State) : (emit e s).mot = s.mot := rfl
@[simp] theorem emit_pwrs (e : Emit) (s : State) : (emit e s).pwrs = s.pwrs := rfl
@[simp] theorem emit_pwms (e : Emit) (s : State) : (emit e s).pwms = s.pwms := rfl
@[simp] theorem emit_folds (e : Emit) (s : State) : (emit e s).folds = s.folds := rfl
@[simp] theorem emit_brg (e : Emit) (s : State) : (emit e s).brg = s.brg := rfl
@[simp] theorem emit_loops (e : Emit) (s : State) : (emit e s).loops = s.loops := rfl
@[simp] theorem emit_vcore (e : Emit) (s : State) : (emit e s).vcore = s.vcore := rfl
@[simp] theorem emit_chkAt (e : Emit) (s : State) : (emit e s).chkAt = s.chkAt := rfl
@[simp] theorem emit_checkpoint (e : Emit) (s : State) : (emit e s).checkpoint = s.checkpoint := rfl
@[simp] theorem emit_protoErrs (e : Emit) (s : State) : (emit e s).protoErrs = s.protoErrs := rfl
@[simp] theorem emit_flash (e : Emit) (s : State) : (emit e s).flash = s.flash := rfl
@[simp] theorem emit_jmem (e : Emit) (s : State) : (emit e s).jmem = s.jmem := rfl
@[simp] theorem emit_ram (e : Emit) (s : State) : (emit e s).ram = s.ram := rfl
@[simp] theorem emit_freeCount (e : Emit) (s : State) : (emit e s).freeCount = s.freeCount := rfl

@[simp] theorem setPin_pending (g n l : Nat) (s : State) : (setPin g n l s).pending = s.pending := rfl
@[simp] theorem setPin_chip (g n l : Nat) (s : State) : (setPin g n l s).chip = s.chip := rfl
@[simp] theorem setPin_rollback (g n l : Nat) (s : State) : (setPin g n l s).rollback = s.rollback := rfl
@[simp] theorem setPin_pins (g n l : Nat) (s : State) : (setPin g n l s).pins = s.pins := rfl
@[simp] theorem setPin_now (g n l : Nat) (s : State) : (setPin g n l s).now = s.now := rfl
@[simp] theorem setPin_regs (g n l : Nat) (s : State) : (setPin g n l s).regs = s.regs := rfl
@[simp] theorem setPin_cfgB (g n l : Nat) (s : State) : (setPin g n l s).cfgB = s.cfgB := rfl
@[simp] theorem setPin_cfgA (g n l : Nat) (s : State) : (setPin g n l s).cfgA = s.cfgA := rfl
@[simp] theorem setPin_cfgO (g n l : Nat) (s : State) : (setPin g n l s).cfgO = s.cfgO := rfl
@[simp] theorem setPin_cfgX (g n l : Nat) (s : State) : (setPin g n l s).cfgX = s.cfgX := rfl
@[simp] theorem setPin_liveB (g n l : Nat) (s : State) : (setPin g n l s).liveB = s.liveB := rfl
@[simp] theorem setPin_liveA (g n l : Nat) (s : State) : (setPin g n l s).liveA = s.liveA := rfl
@[simp] theorem setPin_islEpoch (g n l : Nat) (s : State) : (setPin g n l s).islEpoch = s.islEpoch := rfl
@[simp] theorem setPin_ldr (g n l : Nat) (s : State) : (setPin g n l s).ldr = s.ldr := rfl
@[simp] theorem setPin_queues (g n l : Nat) (s : State) : (setPin g n l s).queues = s.queues := rfl
@[simp] theorem setPin_readPorts (g n l : Nat) (s : State) : (setPin g n l s).readPorts = s.readPorts := rfl
@[simp] theorem setPin_hostPorts (g n l : Nat) (s : State) : (setPin g n l s).hostPorts = s.hostPorts := rfl
@[simp] theorem setPin_svcStats (g n l : Nat) (s : State) : (setPin g n l s).svcStats = s.svcStats := rfl
@[simp] theorem setPin_jnl (g n l : Nat) (s : State) : (setPin g n l s).jnl = s.jnl := rfl
@[simp] theorem setPin_rsv (g n l : Nat) (s : State) : (setPin g n l s).rsv = s.rsv := rfl
@[simp] theorem setPin_cams (g n l : Nat) (s : State) : (setPin g n l s).cams = s.cams := rfl
@[simp] theorem setPin_twbs (g n l : Nat) (s : State) : (setPin g n l s).twbs = s.twbs := rfl
@[simp] theorem setPin_frames (g n l : Nat) (s : State) : (setPin g n l s).frames = s.frames := rfl
@[simp] theorem setPin_nextFrame (g n l : Nat) (s : State) : (setPin g n l s).nextFrame = s.nextFrame := rfl
@[simp] theorem setPin_running (g n l : Nat) (s : State) : (setPin g n l s).running = s.running := rfl
@[simp] theorem setPin_syncs (g n l : Nat) (s : State) : (setPin g n l s).syncs = s.syncs := rfl
@[simp] theorem setPin_statCount (g n l : Nat) (s : State) : (setPin g n l s).statCount = s.statCount := rfl
@[simp] theorem setPin_outs (g n l : Nat) (s : State) : (setPin g n l s).outs = s.outs := rfl
@[simp] theorem setPin_nextOut (g n l : Nat) (s : State) : (setPin g n l s).nextOut = s.nextOut := rfl
@[simp] theorem setPin_inAlive (g n l : Nat) (s : State) : (setPin g n l s).inAlive = s.inAlive := rfl
@[simp] theorem setPin_doneKeys (g n l : Nat) (s : State) : (setPin g n l s).doneKeys = s.doneKeys := rfl
@[simp] theorem setPin_holds (g n l : Nat) (s : State) : (setPin g n l s).holds = s.holds := rfl
@[simp] theorem setPin_txs (g n l : Nat) (s : State) : (setPin g n l s).txs = s.txs := rfl
@[simp] theorem setPin_chans (g n l : Nat) (s : State) : (setPin g n l s).chans = s.chans := rfl
@[simp] theorem setPin_weaves (g n l : Nat) (s : State) : (setPin g n l s).weaves = s.weaves := rfl
@[simp] theorem setPin_outFlows (g n l : Nat) (s : State) : (setPin g n l s).outFlows = s.outFlows := rfl
@[simp] theorem setPin_fab (g n l : Nat) (s : State) : (setPin g n l s).fab = s.fab := rfl
@[simp] theorem setPin_rly (g n l : Nat) (s : State) : (setPin g n l s).rly = s.rly := rfl
@[simp] theorem setPin_mnt (g n l : Nat) (s : State) : (setPin g n l s).mnt = s.mnt := rfl
@[simp] theorem setPin_time (g n l : Nat) (s : State) : (setPin g n l s).time = s.time := rfl
@[simp] theorem setPin_eths (g n l : Nat) (s : State) : (setPin g n l s).eths = s.eths := rfl
@[simp] theorem setPin_mot (g n l : Nat) (s : State) : (setPin g n l s).mot = s.mot := rfl
@[simp] theorem setPin_pwrs (g n l : Nat) (s : State) : (setPin g n l s).pwrs = s.pwrs := rfl
@[simp] theorem setPin_pwms (g n l : Nat) (s : State) : (setPin g n l s).pwms = s.pwms := rfl
@[simp] theorem setPin_folds (g n l : Nat) (s : State) : (setPin g n l s).folds = s.folds := rfl
@[simp] theorem setPin_brg (g n l : Nat) (s : State) : (setPin g n l s).brg = s.brg := rfl
@[simp] theorem setPin_loops (g n l : Nat) (s : State) : (setPin g n l s).loops = s.loops := rfl
@[simp] theorem setPin_vcore (g n l : Nat) (s : State) : (setPin g n l s).vcore = s.vcore := rfl
@[simp] theorem setPin_chkAt (g n l : Nat) (s : State) : (setPin g n l s).chkAt = s.chkAt := rfl
@[simp] theorem setPin_checkpoint (g n l : Nat) (s : State) : (setPin g n l s).checkpoint = s.checkpoint := rfl
@[simp] theorem setPin_protoErrs (g n l : Nat) (s : State) : (setPin g n l s).protoErrs = s.protoErrs := rfl
@[simp] theorem setPin_flash (g n l : Nat) (s : State) : (setPin g n l s).flash = s.flash := rfl
@[simp] theorem setPin_jmem (g n l : Nat) (s : State) : (setPin g n l s).jmem = s.jmem := rfl
@[simp] theorem setPin_ram (g n l : Nat) (s : State) : (setPin g n l s).ram = s.ram := rfl
@[simp] theorem setPin_freeCount (g n l : Nat) (s : State) : (setPin g n l s).freeCount = s.freeCount := rfl

@[simp] theorem setQueue_pending (q : Nat) (x : QueueSt) (s : State) : (setQueue q x s).pending = s.pending := rfl
@[simp] theorem setQueue_chip (q : Nat) (x : QueueSt) (s : State) : (setQueue q x s).chip = s.chip := rfl
@[simp] theorem setQueue_rollback (q : Nat) (x : QueueSt) (s : State) : (setQueue q x s).rollback = s.rollback := rfl
@[simp] theorem setQueue_pins (q : Nat) (x : QueueSt) (s : State) : (setQueue q x s).pins = s.pins := rfl
@[simp] theorem setQueue_now (q : Nat) (x : QueueSt) (s : State) : (setQueue q x s).now = s.now := rfl
@[simp] theorem setQueue_regs (q : Nat) (x : QueueSt) (s : State) : (setQueue q x s).regs = s.regs := rfl
@[simp] theorem setQueue_cfgB (q : Nat) (x : QueueSt) (s : State) : (setQueue q x s).cfgB = s.cfgB := rfl
@[simp] theorem setQueue_cfgA (q : Nat) (x : QueueSt) (s : State) : (setQueue q x s).cfgA = s.cfgA := rfl
@[simp] theorem setQueue_cfgO (q : Nat) (x : QueueSt) (s : State) : (setQueue q x s).cfgO = s.cfgO := rfl
@[simp] theorem setQueue_cfgX (q : Nat) (x : QueueSt) (s : State) : (setQueue q x s).cfgX = s.cfgX := rfl
@[simp] theorem setQueue_liveB (q : Nat) (x : QueueSt) (s : State) : (setQueue q x s).liveB = s.liveB := rfl
@[simp] theorem setQueue_liveA (q : Nat) (x : QueueSt) (s : State) : (setQueue q x s).liveA = s.liveA := rfl
@[simp] theorem setQueue_islEpoch (q : Nat) (x : QueueSt) (s : State) : (setQueue q x s).islEpoch = s.islEpoch := rfl
@[simp] theorem setQueue_ldr (q : Nat) (x : QueueSt) (s : State) : (setQueue q x s).ldr = s.ldr := rfl
@[simp] theorem setQueue_readPorts (q : Nat) (x : QueueSt) (s : State) : (setQueue q x s).readPorts = s.readPorts := rfl
@[simp] theorem setQueue_hostPorts (q : Nat) (x : QueueSt) (s : State) : (setQueue q x s).hostPorts = s.hostPorts := rfl
@[simp] theorem setQueue_svcStats (q : Nat) (x : QueueSt) (s : State) : (setQueue q x s).svcStats = s.svcStats := rfl
@[simp] theorem setQueue_jnl (q : Nat) (x : QueueSt) (s : State) : (setQueue q x s).jnl = s.jnl := rfl
@[simp] theorem setQueue_rsv (q : Nat) (x : QueueSt) (s : State) : (setQueue q x s).rsv = s.rsv := rfl
@[simp] theorem setQueue_cams (q : Nat) (x : QueueSt) (s : State) : (setQueue q x s).cams = s.cams := rfl
@[simp] theorem setQueue_twbs (q : Nat) (x : QueueSt) (s : State) : (setQueue q x s).twbs = s.twbs := rfl
@[simp] theorem setQueue_frames (q : Nat) (x : QueueSt) (s : State) : (setQueue q x s).frames = s.frames := rfl
@[simp] theorem setQueue_nextFrame (q : Nat) (x : QueueSt) (s : State) : (setQueue q x s).nextFrame = s.nextFrame := rfl
@[simp] theorem setQueue_running (q : Nat) (x : QueueSt) (s : State) : (setQueue q x s).running = s.running := rfl
@[simp] theorem setQueue_syncs (q : Nat) (x : QueueSt) (s : State) : (setQueue q x s).syncs = s.syncs := rfl
@[simp] theorem setQueue_statCount (q : Nat) (x : QueueSt) (s : State) : (setQueue q x s).statCount = s.statCount := rfl
@[simp] theorem setQueue_outs (q : Nat) (x : QueueSt) (s : State) : (setQueue q x s).outs = s.outs := rfl
@[simp] theorem setQueue_nextOut (q : Nat) (x : QueueSt) (s : State) : (setQueue q x s).nextOut = s.nextOut := rfl
@[simp] theorem setQueue_inAlive (q : Nat) (x : QueueSt) (s : State) : (setQueue q x s).inAlive = s.inAlive := rfl
@[simp] theorem setQueue_doneKeys (q : Nat) (x : QueueSt) (s : State) : (setQueue q x s).doneKeys = s.doneKeys := rfl
@[simp] theorem setQueue_holds (q : Nat) (x : QueueSt) (s : State) : (setQueue q x s).holds = s.holds := rfl
@[simp] theorem setQueue_txs (q : Nat) (x : QueueSt) (s : State) : (setQueue q x s).txs = s.txs := rfl
@[simp] theorem setQueue_chans (q : Nat) (x : QueueSt) (s : State) : (setQueue q x s).chans = s.chans := rfl
@[simp] theorem setQueue_weaves (q : Nat) (x : QueueSt) (s : State) : (setQueue q x s).weaves = s.weaves := rfl
@[simp] theorem setQueue_outFlows (q : Nat) (x : QueueSt) (s : State) : (setQueue q x s).outFlows = s.outFlows := rfl
@[simp] theorem setQueue_fab (q : Nat) (x : QueueSt) (s : State) : (setQueue q x s).fab = s.fab := rfl
@[simp] theorem setQueue_rly (q : Nat) (x : QueueSt) (s : State) : (setQueue q x s).rly = s.rly := rfl
@[simp] theorem setQueue_mnt (q : Nat) (x : QueueSt) (s : State) : (setQueue q x s).mnt = s.mnt := rfl
@[simp] theorem setQueue_time (q : Nat) (x : QueueSt) (s : State) : (setQueue q x s).time = s.time := rfl
@[simp] theorem setQueue_eths (q : Nat) (x : QueueSt) (s : State) : (setQueue q x s).eths = s.eths := rfl
@[simp] theorem setQueue_mot (q : Nat) (x : QueueSt) (s : State) : (setQueue q x s).mot = s.mot := rfl
@[simp] theorem setQueue_pwrs (q : Nat) (x : QueueSt) (s : State) : (setQueue q x s).pwrs = s.pwrs := rfl
@[simp] theorem setQueue_pwms (q : Nat) (x : QueueSt) (s : State) : (setQueue q x s).pwms = s.pwms := rfl
@[simp] theorem setQueue_folds (q : Nat) (x : QueueSt) (s : State) : (setQueue q x s).folds = s.folds := rfl
@[simp] theorem setQueue_brg (q : Nat) (x : QueueSt) (s : State) : (setQueue q x s).brg = s.brg := rfl
@[simp] theorem setQueue_loops (q : Nat) (x : QueueSt) (s : State) : (setQueue q x s).loops = s.loops := rfl
@[simp] theorem setQueue_vcore (q : Nat) (x : QueueSt) (s : State) : (setQueue q x s).vcore = s.vcore := rfl
@[simp] theorem setQueue_chkAt (q : Nat) (x : QueueSt) (s : State) : (setQueue q x s).chkAt = s.chkAt := rfl
@[simp] theorem setQueue_checkpoint (q : Nat) (x : QueueSt) (s : State) : (setQueue q x s).checkpoint = s.checkpoint := rfl
@[simp] theorem setQueue_protoErrs (q : Nat) (x : QueueSt) (s : State) : (setQueue q x s).protoErrs = s.protoErrs := rfl
@[simp] theorem setQueue_flash (q : Nat) (x : QueueSt) (s : State) : (setQueue q x s).flash = s.flash := rfl
@[simp] theorem setQueue_jmem (q : Nat) (x : QueueSt) (s : State) : (setQueue q x s).jmem = s.jmem := rfl
@[simp] theorem setQueue_ram (q : Nat) (x : QueueSt) (s : State) : (setQueue q x s).ram = s.ram := rfl
@[simp] theorem setQueue_out (q : Nat) (x : QueueSt) (s : State) : (setQueue q x s).out = s.out := rfl
@[simp] theorem setQueue_freeCount (q : Nat) (x : QueueSt) (s : State) : (setQueue q x s).freeCount = s.freeCount := rfl

@[simp] theorem setPort_pending (r : Nat) (x : PortSt) (s : State) : (setPort r x s).pending = s.pending := rfl
@[simp] theorem setPort_chip (r : Nat) (x : PortSt) (s : State) : (setPort r x s).chip = s.chip := rfl
@[simp] theorem setPort_rollback (r : Nat) (x : PortSt) (s : State) : (setPort r x s).rollback = s.rollback := rfl
@[simp] theorem setPort_pins (r : Nat) (x : PortSt) (s : State) : (setPort r x s).pins = s.pins := rfl
@[simp] theorem setPort_now (r : Nat) (x : PortSt) (s : State) : (setPort r x s).now = s.now := rfl
@[simp] theorem setPort_regs (r : Nat) (x : PortSt) (s : State) : (setPort r x s).regs = s.regs := rfl
@[simp] theorem setPort_cfgB (r : Nat) (x : PortSt) (s : State) : (setPort r x s).cfgB = s.cfgB := rfl
@[simp] theorem setPort_cfgA (r : Nat) (x : PortSt) (s : State) : (setPort r x s).cfgA = s.cfgA := rfl
@[simp] theorem setPort_cfgO (r : Nat) (x : PortSt) (s : State) : (setPort r x s).cfgO = s.cfgO := rfl
@[simp] theorem setPort_cfgX (r : Nat) (x : PortSt) (s : State) : (setPort r x s).cfgX = s.cfgX := rfl
@[simp] theorem setPort_liveB (r : Nat) (x : PortSt) (s : State) : (setPort r x s).liveB = s.liveB := rfl
@[simp] theorem setPort_liveA (r : Nat) (x : PortSt) (s : State) : (setPort r x s).liveA = s.liveA := rfl
@[simp] theorem setPort_islEpoch (r : Nat) (x : PortSt) (s : State) : (setPort r x s).islEpoch = s.islEpoch := rfl
@[simp] theorem setPort_ldr (r : Nat) (x : PortSt) (s : State) : (setPort r x s).ldr = s.ldr := rfl
@[simp] theorem setPort_queues (r : Nat) (x : PortSt) (s : State) : (setPort r x s).queues = s.queues := rfl
@[simp] theorem setPort_hostPorts (r : Nat) (x : PortSt) (s : State) : (setPort r x s).hostPorts = s.hostPorts := rfl
@[simp] theorem setPort_svcStats (r : Nat) (x : PortSt) (s : State) : (setPort r x s).svcStats = s.svcStats := rfl
@[simp] theorem setPort_jnl (r : Nat) (x : PortSt) (s : State) : (setPort r x s).jnl = s.jnl := rfl
@[simp] theorem setPort_rsv (r : Nat) (x : PortSt) (s : State) : (setPort r x s).rsv = s.rsv := rfl
@[simp] theorem setPort_cams (r : Nat) (x : PortSt) (s : State) : (setPort r x s).cams = s.cams := rfl
@[simp] theorem setPort_twbs (r : Nat) (x : PortSt) (s : State) : (setPort r x s).twbs = s.twbs := rfl
@[simp] theorem setPort_frames (r : Nat) (x : PortSt) (s : State) : (setPort r x s).frames = s.frames := rfl
@[simp] theorem setPort_nextFrame (r : Nat) (x : PortSt) (s : State) : (setPort r x s).nextFrame = s.nextFrame := rfl
@[simp] theorem setPort_running (r : Nat) (x : PortSt) (s : State) : (setPort r x s).running = s.running := rfl
@[simp] theorem setPort_syncs (r : Nat) (x : PortSt) (s : State) : (setPort r x s).syncs = s.syncs := rfl
@[simp] theorem setPort_statCount (r : Nat) (x : PortSt) (s : State) : (setPort r x s).statCount = s.statCount := rfl
@[simp] theorem setPort_outs (r : Nat) (x : PortSt) (s : State) : (setPort r x s).outs = s.outs := rfl
@[simp] theorem setPort_nextOut (r : Nat) (x : PortSt) (s : State) : (setPort r x s).nextOut = s.nextOut := rfl
@[simp] theorem setPort_inAlive (r : Nat) (x : PortSt) (s : State) : (setPort r x s).inAlive = s.inAlive := rfl
@[simp] theorem setPort_doneKeys (r : Nat) (x : PortSt) (s : State) : (setPort r x s).doneKeys = s.doneKeys := rfl
@[simp] theorem setPort_holds (r : Nat) (x : PortSt) (s : State) : (setPort r x s).holds = s.holds := rfl
@[simp] theorem setPort_txs (r : Nat) (x : PortSt) (s : State) : (setPort r x s).txs = s.txs := rfl
@[simp] theorem setPort_chans (r : Nat) (x : PortSt) (s : State) : (setPort r x s).chans = s.chans := rfl
@[simp] theorem setPort_weaves (r : Nat) (x : PortSt) (s : State) : (setPort r x s).weaves = s.weaves := rfl
@[simp] theorem setPort_outFlows (r : Nat) (x : PortSt) (s : State) : (setPort r x s).outFlows = s.outFlows := rfl
@[simp] theorem setPort_fab (r : Nat) (x : PortSt) (s : State) : (setPort r x s).fab = s.fab := rfl
@[simp] theorem setPort_rly (r : Nat) (x : PortSt) (s : State) : (setPort r x s).rly = s.rly := rfl
@[simp] theorem setPort_mnt (r : Nat) (x : PortSt) (s : State) : (setPort r x s).mnt = s.mnt := rfl
@[simp] theorem setPort_time (r : Nat) (x : PortSt) (s : State) : (setPort r x s).time = s.time := rfl
@[simp] theorem setPort_eths (r : Nat) (x : PortSt) (s : State) : (setPort r x s).eths = s.eths := rfl
@[simp] theorem setPort_mot (r : Nat) (x : PortSt) (s : State) : (setPort r x s).mot = s.mot := rfl
@[simp] theorem setPort_pwrs (r : Nat) (x : PortSt) (s : State) : (setPort r x s).pwrs = s.pwrs := rfl
@[simp] theorem setPort_pwms (r : Nat) (x : PortSt) (s : State) : (setPort r x s).pwms = s.pwms := rfl
@[simp] theorem setPort_folds (r : Nat) (x : PortSt) (s : State) : (setPort r x s).folds = s.folds := rfl
@[simp] theorem setPort_brg (r : Nat) (x : PortSt) (s : State) : (setPort r x s).brg = s.brg := rfl
@[simp] theorem setPort_loops (r : Nat) (x : PortSt) (s : State) : (setPort r x s).loops = s.loops := rfl
@[simp] theorem setPort_vcore (r : Nat) (x : PortSt) (s : State) : (setPort r x s).vcore = s.vcore := rfl
@[simp] theorem setPort_chkAt (r : Nat) (x : PortSt) (s : State) : (setPort r x s).chkAt = s.chkAt := rfl
@[simp] theorem setPort_checkpoint (r : Nat) (x : PortSt) (s : State) : (setPort r x s).checkpoint = s.checkpoint := rfl
@[simp] theorem setPort_protoErrs (r : Nat) (x : PortSt) (s : State) : (setPort r x s).protoErrs = s.protoErrs := rfl
@[simp] theorem setPort_flash (r : Nat) (x : PortSt) (s : State) : (setPort r x s).flash = s.flash := rfl
@[simp] theorem setPort_jmem (r : Nat) (x : PortSt) (s : State) : (setPort r x s).jmem = s.jmem := rfl
@[simp] theorem setPort_ram (r : Nat) (x : PortSt) (s : State) : (setPort r x s).ram = s.ram := rfl
@[simp] theorem setPort_out (r : Nat) (x : PortSt) (s : State) : (setPort r x s).out = s.out := rfl
@[simp] theorem setPort_freeCount (r : Nat) (x : PortSt) (s : State) : (setPort r x s).freeCount = s.freeCount := rfl

@[simp] theorem setHostPort_pending (p : Nat) (x : HostPortSt) (s : State) : (setHostPort p x s).pending = s.pending := rfl
@[simp] theorem setHostPort_chip (p : Nat) (x : HostPortSt) (s : State) : (setHostPort p x s).chip = s.chip := rfl
@[simp] theorem setHostPort_rollback (p : Nat) (x : HostPortSt) (s : State) : (setHostPort p x s).rollback = s.rollback := rfl
@[simp] theorem setHostPort_pins (p : Nat) (x : HostPortSt) (s : State) : (setHostPort p x s).pins = s.pins := rfl
@[simp] theorem setHostPort_now (p : Nat) (x : HostPortSt) (s : State) : (setHostPort p x s).now = s.now := rfl
@[simp] theorem setHostPort_regs (p : Nat) (x : HostPortSt) (s : State) : (setHostPort p x s).regs = s.regs := rfl
@[simp] theorem setHostPort_cfgB (p : Nat) (x : HostPortSt) (s : State) : (setHostPort p x s).cfgB = s.cfgB := rfl
@[simp] theorem setHostPort_cfgA (p : Nat) (x : HostPortSt) (s : State) : (setHostPort p x s).cfgA = s.cfgA := rfl
@[simp] theorem setHostPort_cfgO (p : Nat) (x : HostPortSt) (s : State) : (setHostPort p x s).cfgO = s.cfgO := rfl
@[simp] theorem setHostPort_cfgX (p : Nat) (x : HostPortSt) (s : State) : (setHostPort p x s).cfgX = s.cfgX := rfl
@[simp] theorem setHostPort_liveB (p : Nat) (x : HostPortSt) (s : State) : (setHostPort p x s).liveB = s.liveB := rfl
@[simp] theorem setHostPort_liveA (p : Nat) (x : HostPortSt) (s : State) : (setHostPort p x s).liveA = s.liveA := rfl
@[simp] theorem setHostPort_islEpoch (p : Nat) (x : HostPortSt) (s : State) : (setHostPort p x s).islEpoch = s.islEpoch := rfl
@[simp] theorem setHostPort_ldr (p : Nat) (x : HostPortSt) (s : State) : (setHostPort p x s).ldr = s.ldr := rfl
@[simp] theorem setHostPort_queues (p : Nat) (x : HostPortSt) (s : State) : (setHostPort p x s).queues = s.queues := rfl
@[simp] theorem setHostPort_readPorts (p : Nat) (x : HostPortSt) (s : State) : (setHostPort p x s).readPorts = s.readPorts := rfl
@[simp] theorem setHostPort_svcStats (p : Nat) (x : HostPortSt) (s : State) : (setHostPort p x s).svcStats = s.svcStats := rfl
@[simp] theorem setHostPort_jnl (p : Nat) (x : HostPortSt) (s : State) : (setHostPort p x s).jnl = s.jnl := rfl
@[simp] theorem setHostPort_rsv (p : Nat) (x : HostPortSt) (s : State) : (setHostPort p x s).rsv = s.rsv := rfl
@[simp] theorem setHostPort_cams (p : Nat) (x : HostPortSt) (s : State) : (setHostPort p x s).cams = s.cams := rfl
@[simp] theorem setHostPort_twbs (p : Nat) (x : HostPortSt) (s : State) : (setHostPort p x s).twbs = s.twbs := rfl
@[simp] theorem setHostPort_frames (p : Nat) (x : HostPortSt) (s : State) : (setHostPort p x s).frames = s.frames := rfl
@[simp] theorem setHostPort_nextFrame (p : Nat) (x : HostPortSt) (s : State) : (setHostPort p x s).nextFrame = s.nextFrame := rfl
@[simp] theorem setHostPort_running (p : Nat) (x : HostPortSt) (s : State) : (setHostPort p x s).running = s.running := rfl
@[simp] theorem setHostPort_syncs (p : Nat) (x : HostPortSt) (s : State) : (setHostPort p x s).syncs = s.syncs := rfl
@[simp] theorem setHostPort_statCount (p : Nat) (x : HostPortSt) (s : State) : (setHostPort p x s).statCount = s.statCount := rfl
@[simp] theorem setHostPort_outs (p : Nat) (x : HostPortSt) (s : State) : (setHostPort p x s).outs = s.outs := rfl
@[simp] theorem setHostPort_nextOut (p : Nat) (x : HostPortSt) (s : State) : (setHostPort p x s).nextOut = s.nextOut := rfl
@[simp] theorem setHostPort_inAlive (p : Nat) (x : HostPortSt) (s : State) : (setHostPort p x s).inAlive = s.inAlive := rfl
@[simp] theorem setHostPort_doneKeys (p : Nat) (x : HostPortSt) (s : State) : (setHostPort p x s).doneKeys = s.doneKeys := rfl
@[simp] theorem setHostPort_holds (p : Nat) (x : HostPortSt) (s : State) : (setHostPort p x s).holds = s.holds := rfl
@[simp] theorem setHostPort_txs (p : Nat) (x : HostPortSt) (s : State) : (setHostPort p x s).txs = s.txs := rfl
@[simp] theorem setHostPort_chans (p : Nat) (x : HostPortSt) (s : State) : (setHostPort p x s).chans = s.chans := rfl
@[simp] theorem setHostPort_weaves (p : Nat) (x : HostPortSt) (s : State) : (setHostPort p x s).weaves = s.weaves := rfl
@[simp] theorem setHostPort_outFlows (p : Nat) (x : HostPortSt) (s : State) : (setHostPort p x s).outFlows = s.outFlows := rfl
@[simp] theorem setHostPort_fab (p : Nat) (x : HostPortSt) (s : State) : (setHostPort p x s).fab = s.fab := rfl
@[simp] theorem setHostPort_rly (p : Nat) (x : HostPortSt) (s : State) : (setHostPort p x s).rly = s.rly := rfl
@[simp] theorem setHostPort_mnt (p : Nat) (x : HostPortSt) (s : State) : (setHostPort p x s).mnt = s.mnt := rfl
@[simp] theorem setHostPort_time (p : Nat) (x : HostPortSt) (s : State) : (setHostPort p x s).time = s.time := rfl
@[simp] theorem setHostPort_eths (p : Nat) (x : HostPortSt) (s : State) : (setHostPort p x s).eths = s.eths := rfl
@[simp] theorem setHostPort_mot (p : Nat) (x : HostPortSt) (s : State) : (setHostPort p x s).mot = s.mot := rfl
@[simp] theorem setHostPort_pwrs (p : Nat) (x : HostPortSt) (s : State) : (setHostPort p x s).pwrs = s.pwrs := rfl
@[simp] theorem setHostPort_pwms (p : Nat) (x : HostPortSt) (s : State) : (setHostPort p x s).pwms = s.pwms := rfl
@[simp] theorem setHostPort_folds (p : Nat) (x : HostPortSt) (s : State) : (setHostPort p x s).folds = s.folds := rfl
@[simp] theorem setHostPort_brg (p : Nat) (x : HostPortSt) (s : State) : (setHostPort p x s).brg = s.brg := rfl
@[simp] theorem setHostPort_loops (p : Nat) (x : HostPortSt) (s : State) : (setHostPort p x s).loops = s.loops := rfl
@[simp] theorem setHostPort_vcore (p : Nat) (x : HostPortSt) (s : State) : (setHostPort p x s).vcore = s.vcore := rfl
@[simp] theorem setHostPort_chkAt (p : Nat) (x : HostPortSt) (s : State) : (setHostPort p x s).chkAt = s.chkAt := rfl
@[simp] theorem setHostPort_checkpoint (p : Nat) (x : HostPortSt) (s : State) : (setHostPort p x s).checkpoint = s.checkpoint := rfl
@[simp] theorem setHostPort_protoErrs (p : Nat) (x : HostPortSt) (s : State) : (setHostPort p x s).protoErrs = s.protoErrs := rfl
@[simp] theorem setHostPort_flash (p : Nat) (x : HostPortSt) (s : State) : (setHostPort p x s).flash = s.flash := rfl
@[simp] theorem setHostPort_jmem (p : Nat) (x : HostPortSt) (s : State) : (setHostPort p x s).jmem = s.jmem := rfl
@[simp] theorem setHostPort_ram (p : Nat) (x : HostPortSt) (s : State) : (setHostPort p x s).ram = s.ram := rfl
@[simp] theorem setHostPort_out (p : Nat) (x : HostPortSt) (s : State) : (setHostPort p x s).out = s.out := rfl
@[simp] theorem setHostPort_freeCount (p : Nat) (x : HostPortSt) (s : State) : (setHostPort p x s).freeCount = s.freeCount := rfl

@[simp] theorem setCam_pending (p : Nat) (x : CamSt) (s : State) : (setCam p x s).pending = s.pending := rfl
@[simp] theorem setCam_chip (p : Nat) (x : CamSt) (s : State) : (setCam p x s).chip = s.chip := rfl
@[simp] theorem setCam_rollback (p : Nat) (x : CamSt) (s : State) : (setCam p x s).rollback = s.rollback := rfl
@[simp] theorem setCam_pins (p : Nat) (x : CamSt) (s : State) : (setCam p x s).pins = s.pins := rfl
@[simp] theorem setCam_now (p : Nat) (x : CamSt) (s : State) : (setCam p x s).now = s.now := rfl
@[simp] theorem setCam_regs (p : Nat) (x : CamSt) (s : State) : (setCam p x s).regs = s.regs := rfl
@[simp] theorem setCam_cfgB (p : Nat) (x : CamSt) (s : State) : (setCam p x s).cfgB = s.cfgB := rfl
@[simp] theorem setCam_cfgA (p : Nat) (x : CamSt) (s : State) : (setCam p x s).cfgA = s.cfgA := rfl
@[simp] theorem setCam_cfgO (p : Nat) (x : CamSt) (s : State) : (setCam p x s).cfgO = s.cfgO := rfl
@[simp] theorem setCam_cfgX (p : Nat) (x : CamSt) (s : State) : (setCam p x s).cfgX = s.cfgX := rfl
@[simp] theorem setCam_liveB (p : Nat) (x : CamSt) (s : State) : (setCam p x s).liveB = s.liveB := rfl
@[simp] theorem setCam_liveA (p : Nat) (x : CamSt) (s : State) : (setCam p x s).liveA = s.liveA := rfl
@[simp] theorem setCam_islEpoch (p : Nat) (x : CamSt) (s : State) : (setCam p x s).islEpoch = s.islEpoch := rfl
@[simp] theorem setCam_ldr (p : Nat) (x : CamSt) (s : State) : (setCam p x s).ldr = s.ldr := rfl
@[simp] theorem setCam_queues (p : Nat) (x : CamSt) (s : State) : (setCam p x s).queues = s.queues := rfl
@[simp] theorem setCam_readPorts (p : Nat) (x : CamSt) (s : State) : (setCam p x s).readPorts = s.readPorts := rfl
@[simp] theorem setCam_hostPorts (p : Nat) (x : CamSt) (s : State) : (setCam p x s).hostPorts = s.hostPorts := rfl
@[simp] theorem setCam_svcStats (p : Nat) (x : CamSt) (s : State) : (setCam p x s).svcStats = s.svcStats := rfl
@[simp] theorem setCam_jnl (p : Nat) (x : CamSt) (s : State) : (setCam p x s).jnl = s.jnl := rfl
@[simp] theorem setCam_rsv (p : Nat) (x : CamSt) (s : State) : (setCam p x s).rsv = s.rsv := rfl
@[simp] theorem setCam_twbs (p : Nat) (x : CamSt) (s : State) : (setCam p x s).twbs = s.twbs := rfl
@[simp] theorem setCam_frames (p : Nat) (x : CamSt) (s : State) : (setCam p x s).frames = s.frames := rfl
@[simp] theorem setCam_nextFrame (p : Nat) (x : CamSt) (s : State) : (setCam p x s).nextFrame = s.nextFrame := rfl
@[simp] theorem setCam_running (p : Nat) (x : CamSt) (s : State) : (setCam p x s).running = s.running := rfl
@[simp] theorem setCam_syncs (p : Nat) (x : CamSt) (s : State) : (setCam p x s).syncs = s.syncs := rfl
@[simp] theorem setCam_statCount (p : Nat) (x : CamSt) (s : State) : (setCam p x s).statCount = s.statCount := rfl
@[simp] theorem setCam_outs (p : Nat) (x : CamSt) (s : State) : (setCam p x s).outs = s.outs := rfl
@[simp] theorem setCam_nextOut (p : Nat) (x : CamSt) (s : State) : (setCam p x s).nextOut = s.nextOut := rfl
@[simp] theorem setCam_inAlive (p : Nat) (x : CamSt) (s : State) : (setCam p x s).inAlive = s.inAlive := rfl
@[simp] theorem setCam_doneKeys (p : Nat) (x : CamSt) (s : State) : (setCam p x s).doneKeys = s.doneKeys := rfl
@[simp] theorem setCam_holds (p : Nat) (x : CamSt) (s : State) : (setCam p x s).holds = s.holds := rfl
@[simp] theorem setCam_txs (p : Nat) (x : CamSt) (s : State) : (setCam p x s).txs = s.txs := rfl
@[simp] theorem setCam_chans (p : Nat) (x : CamSt) (s : State) : (setCam p x s).chans = s.chans := rfl
@[simp] theorem setCam_weaves (p : Nat) (x : CamSt) (s : State) : (setCam p x s).weaves = s.weaves := rfl
@[simp] theorem setCam_outFlows (p : Nat) (x : CamSt) (s : State) : (setCam p x s).outFlows = s.outFlows := rfl
@[simp] theorem setCam_fab (p : Nat) (x : CamSt) (s : State) : (setCam p x s).fab = s.fab := rfl
@[simp] theorem setCam_rly (p : Nat) (x : CamSt) (s : State) : (setCam p x s).rly = s.rly := rfl
@[simp] theorem setCam_mnt (p : Nat) (x : CamSt) (s : State) : (setCam p x s).mnt = s.mnt := rfl
@[simp] theorem setCam_time (p : Nat) (x : CamSt) (s : State) : (setCam p x s).time = s.time := rfl
@[simp] theorem setCam_eths (p : Nat) (x : CamSt) (s : State) : (setCam p x s).eths = s.eths := rfl
@[simp] theorem setCam_mot (p : Nat) (x : CamSt) (s : State) : (setCam p x s).mot = s.mot := rfl
@[simp] theorem setCam_pwrs (p : Nat) (x : CamSt) (s : State) : (setCam p x s).pwrs = s.pwrs := rfl
@[simp] theorem setCam_pwms (p : Nat) (x : CamSt) (s : State) : (setCam p x s).pwms = s.pwms := rfl
@[simp] theorem setCam_folds (p : Nat) (x : CamSt) (s : State) : (setCam p x s).folds = s.folds := rfl
@[simp] theorem setCam_brg (p : Nat) (x : CamSt) (s : State) : (setCam p x s).brg = s.brg := rfl
@[simp] theorem setCam_loops (p : Nat) (x : CamSt) (s : State) : (setCam p x s).loops = s.loops := rfl
@[simp] theorem setCam_vcore (p : Nat) (x : CamSt) (s : State) : (setCam p x s).vcore = s.vcore := rfl
@[simp] theorem setCam_chkAt (p : Nat) (x : CamSt) (s : State) : (setCam p x s).chkAt = s.chkAt := rfl
@[simp] theorem setCam_checkpoint (p : Nat) (x : CamSt) (s : State) : (setCam p x s).checkpoint = s.checkpoint := rfl
@[simp] theorem setCam_protoErrs (p : Nat) (x : CamSt) (s : State) : (setCam p x s).protoErrs = s.protoErrs := rfl
@[simp] theorem setCam_flash (p : Nat) (x : CamSt) (s : State) : (setCam p x s).flash = s.flash := rfl
@[simp] theorem setCam_jmem (p : Nat) (x : CamSt) (s : State) : (setCam p x s).jmem = s.jmem := rfl
@[simp] theorem setCam_ram (p : Nat) (x : CamSt) (s : State) : (setCam p x s).ram = s.ram := rfl
@[simp] theorem setCam_out (p : Nat) (x : CamSt) (s : State) : (setCam p x s).out = s.out := rfl
@[simp] theorem setCam_freeCount (p : Nat) (x : CamSt) (s : State) : (setCam p x s).freeCount = s.freeCount := rfl

@[simp] theorem setTwb_pending (i : Nat) (x : TwbSt) (s : State) : (setTwb i x s).pending = s.pending := rfl
@[simp] theorem setTwb_chip (i : Nat) (x : TwbSt) (s : State) : (setTwb i x s).chip = s.chip := rfl
@[simp] theorem setTwb_rollback (i : Nat) (x : TwbSt) (s : State) : (setTwb i x s).rollback = s.rollback := rfl
@[simp] theorem setTwb_pins (i : Nat) (x : TwbSt) (s : State) : (setTwb i x s).pins = s.pins := rfl
@[simp] theorem setTwb_now (i : Nat) (x : TwbSt) (s : State) : (setTwb i x s).now = s.now := rfl
@[simp] theorem setTwb_regs (i : Nat) (x : TwbSt) (s : State) : (setTwb i x s).regs = s.regs := rfl
@[simp] theorem setTwb_cfgB (i : Nat) (x : TwbSt) (s : State) : (setTwb i x s).cfgB = s.cfgB := rfl
@[simp] theorem setTwb_cfgA (i : Nat) (x : TwbSt) (s : State) : (setTwb i x s).cfgA = s.cfgA := rfl
@[simp] theorem setTwb_cfgO (i : Nat) (x : TwbSt) (s : State) : (setTwb i x s).cfgO = s.cfgO := rfl
@[simp] theorem setTwb_cfgX (i : Nat) (x : TwbSt) (s : State) : (setTwb i x s).cfgX = s.cfgX := rfl
@[simp] theorem setTwb_liveB (i : Nat) (x : TwbSt) (s : State) : (setTwb i x s).liveB = s.liveB := rfl
@[simp] theorem setTwb_liveA (i : Nat) (x : TwbSt) (s : State) : (setTwb i x s).liveA = s.liveA := rfl
@[simp] theorem setTwb_islEpoch (i : Nat) (x : TwbSt) (s : State) : (setTwb i x s).islEpoch = s.islEpoch := rfl
@[simp] theorem setTwb_ldr (i : Nat) (x : TwbSt) (s : State) : (setTwb i x s).ldr = s.ldr := rfl
@[simp] theorem setTwb_queues (i : Nat) (x : TwbSt) (s : State) : (setTwb i x s).queues = s.queues := rfl
@[simp] theorem setTwb_readPorts (i : Nat) (x : TwbSt) (s : State) : (setTwb i x s).readPorts = s.readPorts := rfl
@[simp] theorem setTwb_hostPorts (i : Nat) (x : TwbSt) (s : State) : (setTwb i x s).hostPorts = s.hostPorts := rfl
@[simp] theorem setTwb_svcStats (i : Nat) (x : TwbSt) (s : State) : (setTwb i x s).svcStats = s.svcStats := rfl
@[simp] theorem setTwb_jnl (i : Nat) (x : TwbSt) (s : State) : (setTwb i x s).jnl = s.jnl := rfl
@[simp] theorem setTwb_rsv (i : Nat) (x : TwbSt) (s : State) : (setTwb i x s).rsv = s.rsv := rfl
@[simp] theorem setTwb_cams (i : Nat) (x : TwbSt) (s : State) : (setTwb i x s).cams = s.cams := rfl
@[simp] theorem setTwb_frames (i : Nat) (x : TwbSt) (s : State) : (setTwb i x s).frames = s.frames := rfl
@[simp] theorem setTwb_nextFrame (i : Nat) (x : TwbSt) (s : State) : (setTwb i x s).nextFrame = s.nextFrame := rfl
@[simp] theorem setTwb_running (i : Nat) (x : TwbSt) (s : State) : (setTwb i x s).running = s.running := rfl
@[simp] theorem setTwb_syncs (i : Nat) (x : TwbSt) (s : State) : (setTwb i x s).syncs = s.syncs := rfl
@[simp] theorem setTwb_statCount (i : Nat) (x : TwbSt) (s : State) : (setTwb i x s).statCount = s.statCount := rfl
@[simp] theorem setTwb_outs (i : Nat) (x : TwbSt) (s : State) : (setTwb i x s).outs = s.outs := rfl
@[simp] theorem setTwb_nextOut (i : Nat) (x : TwbSt) (s : State) : (setTwb i x s).nextOut = s.nextOut := rfl
@[simp] theorem setTwb_inAlive (i : Nat) (x : TwbSt) (s : State) : (setTwb i x s).inAlive = s.inAlive := rfl
@[simp] theorem setTwb_doneKeys (i : Nat) (x : TwbSt) (s : State) : (setTwb i x s).doneKeys = s.doneKeys := rfl
@[simp] theorem setTwb_holds (i : Nat) (x : TwbSt) (s : State) : (setTwb i x s).holds = s.holds := rfl
@[simp] theorem setTwb_txs (i : Nat) (x : TwbSt) (s : State) : (setTwb i x s).txs = s.txs := rfl
@[simp] theorem setTwb_chans (i : Nat) (x : TwbSt) (s : State) : (setTwb i x s).chans = s.chans := rfl
@[simp] theorem setTwb_weaves (i : Nat) (x : TwbSt) (s : State) : (setTwb i x s).weaves = s.weaves := rfl
@[simp] theorem setTwb_outFlows (i : Nat) (x : TwbSt) (s : State) : (setTwb i x s).outFlows = s.outFlows := rfl
@[simp] theorem setTwb_fab (i : Nat) (x : TwbSt) (s : State) : (setTwb i x s).fab = s.fab := rfl
@[simp] theorem setTwb_rly (i : Nat) (x : TwbSt) (s : State) : (setTwb i x s).rly = s.rly := rfl
@[simp] theorem setTwb_mnt (i : Nat) (x : TwbSt) (s : State) : (setTwb i x s).mnt = s.mnt := rfl
@[simp] theorem setTwb_time (i : Nat) (x : TwbSt) (s : State) : (setTwb i x s).time = s.time := rfl
@[simp] theorem setTwb_eths (i : Nat) (x : TwbSt) (s : State) : (setTwb i x s).eths = s.eths := rfl
@[simp] theorem setTwb_mot (i : Nat) (x : TwbSt) (s : State) : (setTwb i x s).mot = s.mot := rfl
@[simp] theorem setTwb_pwrs (i : Nat) (x : TwbSt) (s : State) : (setTwb i x s).pwrs = s.pwrs := rfl
@[simp] theorem setTwb_pwms (i : Nat) (x : TwbSt) (s : State) : (setTwb i x s).pwms = s.pwms := rfl
@[simp] theorem setTwb_folds (i : Nat) (x : TwbSt) (s : State) : (setTwb i x s).folds = s.folds := rfl
@[simp] theorem setTwb_brg (i : Nat) (x : TwbSt) (s : State) : (setTwb i x s).brg = s.brg := rfl
@[simp] theorem setTwb_loops (i : Nat) (x : TwbSt) (s : State) : (setTwb i x s).loops = s.loops := rfl
@[simp] theorem setTwb_vcore (i : Nat) (x : TwbSt) (s : State) : (setTwb i x s).vcore = s.vcore := rfl
@[simp] theorem setTwb_chkAt (i : Nat) (x : TwbSt) (s : State) : (setTwb i x s).chkAt = s.chkAt := rfl
@[simp] theorem setTwb_checkpoint (i : Nat) (x : TwbSt) (s : State) : (setTwb i x s).checkpoint = s.checkpoint := rfl
@[simp] theorem setTwb_protoErrs (i : Nat) (x : TwbSt) (s : State) : (setTwb i x s).protoErrs = s.protoErrs := rfl
@[simp] theorem setTwb_flash (i : Nat) (x : TwbSt) (s : State) : (setTwb i x s).flash = s.flash := rfl
@[simp] theorem setTwb_jmem (i : Nat) (x : TwbSt) (s : State) : (setTwb i x s).jmem = s.jmem := rfl
@[simp] theorem setTwb_ram (i : Nat) (x : TwbSt) (s : State) : (setTwb i x s).ram = s.ram := rfl
@[simp] theorem setTwb_out (i : Nat) (x : TwbSt) (s : State) : (setTwb i x s).out = s.out := rfl
@[simp] theorem setTwb_freeCount (i : Nat) (x : TwbSt) (s : State) : (setTwb i x s).freeCount = s.freeCount := rfl

@[simp] theorem putFrame_pending (f : FrameSt) (s : State) : (putFrame f s).pending = s.pending := rfl
@[simp] theorem putFrame_chip (f : FrameSt) (s : State) : (putFrame f s).chip = s.chip := rfl
@[simp] theorem putFrame_rollback (f : FrameSt) (s : State) : (putFrame f s).rollback = s.rollback := rfl
@[simp] theorem putFrame_pins (f : FrameSt) (s : State) : (putFrame f s).pins = s.pins := rfl
@[simp] theorem putFrame_now (f : FrameSt) (s : State) : (putFrame f s).now = s.now := rfl
@[simp] theorem putFrame_regs (f : FrameSt) (s : State) : (putFrame f s).regs = s.regs := rfl
@[simp] theorem putFrame_cfgB (f : FrameSt) (s : State) : (putFrame f s).cfgB = s.cfgB := rfl
@[simp] theorem putFrame_cfgA (f : FrameSt) (s : State) : (putFrame f s).cfgA = s.cfgA := rfl
@[simp] theorem putFrame_cfgO (f : FrameSt) (s : State) : (putFrame f s).cfgO = s.cfgO := rfl
@[simp] theorem putFrame_cfgX (f : FrameSt) (s : State) : (putFrame f s).cfgX = s.cfgX := rfl
@[simp] theorem putFrame_liveB (f : FrameSt) (s : State) : (putFrame f s).liveB = s.liveB := rfl
@[simp] theorem putFrame_liveA (f : FrameSt) (s : State) : (putFrame f s).liveA = s.liveA := rfl
@[simp] theorem putFrame_islEpoch (f : FrameSt) (s : State) : (putFrame f s).islEpoch = s.islEpoch := rfl
@[simp] theorem putFrame_ldr (f : FrameSt) (s : State) : (putFrame f s).ldr = s.ldr := rfl
@[simp] theorem putFrame_queues (f : FrameSt) (s : State) : (putFrame f s).queues = s.queues := rfl
@[simp] theorem putFrame_readPorts (f : FrameSt) (s : State) : (putFrame f s).readPorts = s.readPorts := rfl
@[simp] theorem putFrame_hostPorts (f : FrameSt) (s : State) : (putFrame f s).hostPorts = s.hostPorts := rfl
@[simp] theorem putFrame_svcStats (f : FrameSt) (s : State) : (putFrame f s).svcStats = s.svcStats := rfl
@[simp] theorem putFrame_jnl (f : FrameSt) (s : State) : (putFrame f s).jnl = s.jnl := rfl
@[simp] theorem putFrame_rsv (f : FrameSt) (s : State) : (putFrame f s).rsv = s.rsv := rfl
@[simp] theorem putFrame_cams (f : FrameSt) (s : State) : (putFrame f s).cams = s.cams := rfl
@[simp] theorem putFrame_twbs (f : FrameSt) (s : State) : (putFrame f s).twbs = s.twbs := rfl
@[simp] theorem putFrame_nextFrame (f : FrameSt) (s : State) : (putFrame f s).nextFrame = s.nextFrame := rfl
@[simp] theorem putFrame_running (f : FrameSt) (s : State) : (putFrame f s).running = s.running := rfl
@[simp] theorem putFrame_syncs (f : FrameSt) (s : State) : (putFrame f s).syncs = s.syncs := rfl
@[simp] theorem putFrame_statCount (f : FrameSt) (s : State) : (putFrame f s).statCount = s.statCount := rfl
@[simp] theorem putFrame_outs (f : FrameSt) (s : State) : (putFrame f s).outs = s.outs := rfl
@[simp] theorem putFrame_nextOut (f : FrameSt) (s : State) : (putFrame f s).nextOut = s.nextOut := rfl
@[simp] theorem putFrame_inAlive (f : FrameSt) (s : State) : (putFrame f s).inAlive = s.inAlive := rfl
@[simp] theorem putFrame_doneKeys (f : FrameSt) (s : State) : (putFrame f s).doneKeys = s.doneKeys := rfl
@[simp] theorem putFrame_holds (f : FrameSt) (s : State) : (putFrame f s).holds = s.holds := rfl
@[simp] theorem putFrame_txs (f : FrameSt) (s : State) : (putFrame f s).txs = s.txs := rfl
@[simp] theorem putFrame_chans (f : FrameSt) (s : State) : (putFrame f s).chans = s.chans := rfl
@[simp] theorem putFrame_weaves (f : FrameSt) (s : State) : (putFrame f s).weaves = s.weaves := rfl
@[simp] theorem putFrame_outFlows (f : FrameSt) (s : State) : (putFrame f s).outFlows = s.outFlows := rfl
@[simp] theorem putFrame_fab (f : FrameSt) (s : State) : (putFrame f s).fab = s.fab := rfl
@[simp] theorem putFrame_rly (f : FrameSt) (s : State) : (putFrame f s).rly = s.rly := rfl
@[simp] theorem putFrame_mnt (f : FrameSt) (s : State) : (putFrame f s).mnt = s.mnt := rfl
@[simp] theorem putFrame_time (f : FrameSt) (s : State) : (putFrame f s).time = s.time := rfl
@[simp] theorem putFrame_eths (f : FrameSt) (s : State) : (putFrame f s).eths = s.eths := rfl
@[simp] theorem putFrame_mot (f : FrameSt) (s : State) : (putFrame f s).mot = s.mot := rfl
@[simp] theorem putFrame_pwrs (f : FrameSt) (s : State) : (putFrame f s).pwrs = s.pwrs := rfl
@[simp] theorem putFrame_pwms (f : FrameSt) (s : State) : (putFrame f s).pwms = s.pwms := rfl
@[simp] theorem putFrame_folds (f : FrameSt) (s : State) : (putFrame f s).folds = s.folds := rfl
@[simp] theorem putFrame_brg (f : FrameSt) (s : State) : (putFrame f s).brg = s.brg := rfl
@[simp] theorem putFrame_loops (f : FrameSt) (s : State) : (putFrame f s).loops = s.loops := rfl
@[simp] theorem putFrame_vcore (f : FrameSt) (s : State) : (putFrame f s).vcore = s.vcore := rfl
@[simp] theorem putFrame_chkAt (f : FrameSt) (s : State) : (putFrame f s).chkAt = s.chkAt := rfl
@[simp] theorem putFrame_checkpoint (f : FrameSt) (s : State) : (putFrame f s).checkpoint = s.checkpoint := rfl
@[simp] theorem putFrame_protoErrs (f : FrameSt) (s : State) : (putFrame f s).protoErrs = s.protoErrs := rfl
@[simp] theorem putFrame_flash (f : FrameSt) (s : State) : (putFrame f s).flash = s.flash := rfl
@[simp] theorem putFrame_jmem (f : FrameSt) (s : State) : (putFrame f s).jmem = s.jmem := rfl
@[simp] theorem putFrame_ram (f : FrameSt) (s : State) : (putFrame f s).ram = s.ram := rfl
@[simp] theorem putFrame_out (f : FrameSt) (s : State) : (putFrame f s).out = s.out := rfl
@[simp] theorem putFrame_freeCount (f : FrameSt) (s : State) : (putFrame f s).freeCount = s.freeCount := rfl

@[simp] theorem setChan_pending (c : Nat) (x : ChanSt) (s : State) : (setChan c x s).pending = s.pending := rfl
@[simp] theorem setChan_chip (c : Nat) (x : ChanSt) (s : State) : (setChan c x s).chip = s.chip := rfl
@[simp] theorem setChan_rollback (c : Nat) (x : ChanSt) (s : State) : (setChan c x s).rollback = s.rollback := rfl
@[simp] theorem setChan_pins (c : Nat) (x : ChanSt) (s : State) : (setChan c x s).pins = s.pins := rfl
@[simp] theorem setChan_now (c : Nat) (x : ChanSt) (s : State) : (setChan c x s).now = s.now := rfl
@[simp] theorem setChan_regs (c : Nat) (x : ChanSt) (s : State) : (setChan c x s).regs = s.regs := rfl
@[simp] theorem setChan_cfgB (c : Nat) (x : ChanSt) (s : State) : (setChan c x s).cfgB = s.cfgB := rfl
@[simp] theorem setChan_cfgA (c : Nat) (x : ChanSt) (s : State) : (setChan c x s).cfgA = s.cfgA := rfl
@[simp] theorem setChan_cfgO (c : Nat) (x : ChanSt) (s : State) : (setChan c x s).cfgO = s.cfgO := rfl
@[simp] theorem setChan_cfgX (c : Nat) (x : ChanSt) (s : State) : (setChan c x s).cfgX = s.cfgX := rfl
@[simp] theorem setChan_liveB (c : Nat) (x : ChanSt) (s : State) : (setChan c x s).liveB = s.liveB := rfl
@[simp] theorem setChan_liveA (c : Nat) (x : ChanSt) (s : State) : (setChan c x s).liveA = s.liveA := rfl
@[simp] theorem setChan_islEpoch (c : Nat) (x : ChanSt) (s : State) : (setChan c x s).islEpoch = s.islEpoch := rfl
@[simp] theorem setChan_ldr (c : Nat) (x : ChanSt) (s : State) : (setChan c x s).ldr = s.ldr := rfl
@[simp] theorem setChan_queues (c : Nat) (x : ChanSt) (s : State) : (setChan c x s).queues = s.queues := rfl
@[simp] theorem setChan_readPorts (c : Nat) (x : ChanSt) (s : State) : (setChan c x s).readPorts = s.readPorts := rfl
@[simp] theorem setChan_hostPorts (c : Nat) (x : ChanSt) (s : State) : (setChan c x s).hostPorts = s.hostPorts := rfl
@[simp] theorem setChan_svcStats (c : Nat) (x : ChanSt) (s : State) : (setChan c x s).svcStats = s.svcStats := rfl
@[simp] theorem setChan_jnl (c : Nat) (x : ChanSt) (s : State) : (setChan c x s).jnl = s.jnl := rfl
@[simp] theorem setChan_rsv (c : Nat) (x : ChanSt) (s : State) : (setChan c x s).rsv = s.rsv := rfl
@[simp] theorem setChan_cams (c : Nat) (x : ChanSt) (s : State) : (setChan c x s).cams = s.cams := rfl
@[simp] theorem setChan_twbs (c : Nat) (x : ChanSt) (s : State) : (setChan c x s).twbs = s.twbs := rfl
@[simp] theorem setChan_frames (c : Nat) (x : ChanSt) (s : State) : (setChan c x s).frames = s.frames := rfl
@[simp] theorem setChan_nextFrame (c : Nat) (x : ChanSt) (s : State) : (setChan c x s).nextFrame = s.nextFrame := rfl
@[simp] theorem setChan_running (c : Nat) (x : ChanSt) (s : State) : (setChan c x s).running = s.running := rfl
@[simp] theorem setChan_syncs (c : Nat) (x : ChanSt) (s : State) : (setChan c x s).syncs = s.syncs := rfl
@[simp] theorem setChan_statCount (c : Nat) (x : ChanSt) (s : State) : (setChan c x s).statCount = s.statCount := rfl
@[simp] theorem setChan_outs (c : Nat) (x : ChanSt) (s : State) : (setChan c x s).outs = s.outs := rfl
@[simp] theorem setChan_nextOut (c : Nat) (x : ChanSt) (s : State) : (setChan c x s).nextOut = s.nextOut := rfl
@[simp] theorem setChan_inAlive (c : Nat) (x : ChanSt) (s : State) : (setChan c x s).inAlive = s.inAlive := rfl
@[simp] theorem setChan_doneKeys (c : Nat) (x : ChanSt) (s : State) : (setChan c x s).doneKeys = s.doneKeys := rfl
@[simp] theorem setChan_holds (c : Nat) (x : ChanSt) (s : State) : (setChan c x s).holds = s.holds := rfl
@[simp] theorem setChan_txs (c : Nat) (x : ChanSt) (s : State) : (setChan c x s).txs = s.txs := rfl
@[simp] theorem setChan_weaves (c : Nat) (x : ChanSt) (s : State) : (setChan c x s).weaves = s.weaves := rfl
@[simp] theorem setChan_outFlows (c : Nat) (x : ChanSt) (s : State) : (setChan c x s).outFlows = s.outFlows := rfl
@[simp] theorem setChan_fab (c : Nat) (x : ChanSt) (s : State) : (setChan c x s).fab = s.fab := rfl
@[simp] theorem setChan_rly (c : Nat) (x : ChanSt) (s : State) : (setChan c x s).rly = s.rly := rfl
@[simp] theorem setChan_mnt (c : Nat) (x : ChanSt) (s : State) : (setChan c x s).mnt = s.mnt := rfl
@[simp] theorem setChan_time (c : Nat) (x : ChanSt) (s : State) : (setChan c x s).time = s.time := rfl
@[simp] theorem setChan_eths (c : Nat) (x : ChanSt) (s : State) : (setChan c x s).eths = s.eths := rfl
@[simp] theorem setChan_mot (c : Nat) (x : ChanSt) (s : State) : (setChan c x s).mot = s.mot := rfl
@[simp] theorem setChan_pwrs (c : Nat) (x : ChanSt) (s : State) : (setChan c x s).pwrs = s.pwrs := rfl
@[simp] theorem setChan_pwms (c : Nat) (x : ChanSt) (s : State) : (setChan c x s).pwms = s.pwms := rfl
@[simp] theorem setChan_folds (c : Nat) (x : ChanSt) (s : State) : (setChan c x s).folds = s.folds := rfl
@[simp] theorem setChan_brg (c : Nat) (x : ChanSt) (s : State) : (setChan c x s).brg = s.brg := rfl
@[simp] theorem setChan_loops (c : Nat) (x : ChanSt) (s : State) : (setChan c x s).loops = s.loops := rfl
@[simp] theorem setChan_vcore (c : Nat) (x : ChanSt) (s : State) : (setChan c x s).vcore = s.vcore := rfl
@[simp] theorem setChan_chkAt (c : Nat) (x : ChanSt) (s : State) : (setChan c x s).chkAt = s.chkAt := rfl
@[simp] theorem setChan_checkpoint (c : Nat) (x : ChanSt) (s : State) : (setChan c x s).checkpoint = s.checkpoint := rfl
@[simp] theorem setChan_protoErrs (c : Nat) (x : ChanSt) (s : State) : (setChan c x s).protoErrs = s.protoErrs := rfl
@[simp] theorem setChan_flash (c : Nat) (x : ChanSt) (s : State) : (setChan c x s).flash = s.flash := rfl
@[simp] theorem setChan_jmem (c : Nat) (x : ChanSt) (s : State) : (setChan c x s).jmem = s.jmem := rfl
@[simp] theorem setChan_ram (c : Nat) (x : ChanSt) (s : State) : (setChan c x s).ram = s.ram := rfl
@[simp] theorem setChan_out (c : Nat) (x : ChanSt) (s : State) : (setChan c x s).out = s.out := rfl
@[simp] theorem setChan_freeCount (c : Nat) (x : ChanSt) (s : State) : (setChan c x s).freeCount = s.freeCount := rfl

@[simp] theorem setHold_pending (c : Nat) (x : HoldSt) (s : State) : (setHold c x s).pending = s.pending := rfl
@[simp] theorem setHold_chip (c : Nat) (x : HoldSt) (s : State) : (setHold c x s).chip = s.chip := rfl
@[simp] theorem setHold_rollback (c : Nat) (x : HoldSt) (s : State) : (setHold c x s).rollback = s.rollback := rfl
@[simp] theorem setHold_pins (c : Nat) (x : HoldSt) (s : State) : (setHold c x s).pins = s.pins := rfl
@[simp] theorem setHold_now (c : Nat) (x : HoldSt) (s : State) : (setHold c x s).now = s.now := rfl
@[simp] theorem setHold_regs (c : Nat) (x : HoldSt) (s : State) : (setHold c x s).regs = s.regs := rfl
@[simp] theorem setHold_cfgB (c : Nat) (x : HoldSt) (s : State) : (setHold c x s).cfgB = s.cfgB := rfl
@[simp] theorem setHold_cfgA (c : Nat) (x : HoldSt) (s : State) : (setHold c x s).cfgA = s.cfgA := rfl
@[simp] theorem setHold_cfgO (c : Nat) (x : HoldSt) (s : State) : (setHold c x s).cfgO = s.cfgO := rfl
@[simp] theorem setHold_cfgX (c : Nat) (x : HoldSt) (s : State) : (setHold c x s).cfgX = s.cfgX := rfl
@[simp] theorem setHold_liveB (c : Nat) (x : HoldSt) (s : State) : (setHold c x s).liveB = s.liveB := rfl
@[simp] theorem setHold_liveA (c : Nat) (x : HoldSt) (s : State) : (setHold c x s).liveA = s.liveA := rfl
@[simp] theorem setHold_islEpoch (c : Nat) (x : HoldSt) (s : State) : (setHold c x s).islEpoch = s.islEpoch := rfl
@[simp] theorem setHold_ldr (c : Nat) (x : HoldSt) (s : State) : (setHold c x s).ldr = s.ldr := rfl
@[simp] theorem setHold_queues (c : Nat) (x : HoldSt) (s : State) : (setHold c x s).queues = s.queues := rfl
@[simp] theorem setHold_readPorts (c : Nat) (x : HoldSt) (s : State) : (setHold c x s).readPorts = s.readPorts := rfl
@[simp] theorem setHold_hostPorts (c : Nat) (x : HoldSt) (s : State) : (setHold c x s).hostPorts = s.hostPorts := rfl
@[simp] theorem setHold_svcStats (c : Nat) (x : HoldSt) (s : State) : (setHold c x s).svcStats = s.svcStats := rfl
@[simp] theorem setHold_jnl (c : Nat) (x : HoldSt) (s : State) : (setHold c x s).jnl = s.jnl := rfl
@[simp] theorem setHold_rsv (c : Nat) (x : HoldSt) (s : State) : (setHold c x s).rsv = s.rsv := rfl
@[simp] theorem setHold_cams (c : Nat) (x : HoldSt) (s : State) : (setHold c x s).cams = s.cams := rfl
@[simp] theorem setHold_twbs (c : Nat) (x : HoldSt) (s : State) : (setHold c x s).twbs = s.twbs := rfl
@[simp] theorem setHold_frames (c : Nat) (x : HoldSt) (s : State) : (setHold c x s).frames = s.frames := rfl
@[simp] theorem setHold_nextFrame (c : Nat) (x : HoldSt) (s : State) : (setHold c x s).nextFrame = s.nextFrame := rfl
@[simp] theorem setHold_running (c : Nat) (x : HoldSt) (s : State) : (setHold c x s).running = s.running := rfl
@[simp] theorem setHold_syncs (c : Nat) (x : HoldSt) (s : State) : (setHold c x s).syncs = s.syncs := rfl
@[simp] theorem setHold_statCount (c : Nat) (x : HoldSt) (s : State) : (setHold c x s).statCount = s.statCount := rfl
@[simp] theorem setHold_outs (c : Nat) (x : HoldSt) (s : State) : (setHold c x s).outs = s.outs := rfl
@[simp] theorem setHold_nextOut (c : Nat) (x : HoldSt) (s : State) : (setHold c x s).nextOut = s.nextOut := rfl
@[simp] theorem setHold_inAlive (c : Nat) (x : HoldSt) (s : State) : (setHold c x s).inAlive = s.inAlive := rfl
@[simp] theorem setHold_doneKeys (c : Nat) (x : HoldSt) (s : State) : (setHold c x s).doneKeys = s.doneKeys := rfl
@[simp] theorem setHold_txs (c : Nat) (x : HoldSt) (s : State) : (setHold c x s).txs = s.txs := rfl
@[simp] theorem setHold_chans (c : Nat) (x : HoldSt) (s : State) : (setHold c x s).chans = s.chans := rfl
@[simp] theorem setHold_weaves (c : Nat) (x : HoldSt) (s : State) : (setHold c x s).weaves = s.weaves := rfl
@[simp] theorem setHold_outFlows (c : Nat) (x : HoldSt) (s : State) : (setHold c x s).outFlows = s.outFlows := rfl
@[simp] theorem setHold_fab (c : Nat) (x : HoldSt) (s : State) : (setHold c x s).fab = s.fab := rfl
@[simp] theorem setHold_rly (c : Nat) (x : HoldSt) (s : State) : (setHold c x s).rly = s.rly := rfl
@[simp] theorem setHold_mnt (c : Nat) (x : HoldSt) (s : State) : (setHold c x s).mnt = s.mnt := rfl
@[simp] theorem setHold_time (c : Nat) (x : HoldSt) (s : State) : (setHold c x s).time = s.time := rfl
@[simp] theorem setHold_eths (c : Nat) (x : HoldSt) (s : State) : (setHold c x s).eths = s.eths := rfl
@[simp] theorem setHold_mot (c : Nat) (x : HoldSt) (s : State) : (setHold c x s).mot = s.mot := rfl
@[simp] theorem setHold_pwrs (c : Nat) (x : HoldSt) (s : State) : (setHold c x s).pwrs = s.pwrs := rfl
@[simp] theorem setHold_pwms (c : Nat) (x : HoldSt) (s : State) : (setHold c x s).pwms = s.pwms := rfl
@[simp] theorem setHold_folds (c : Nat) (x : HoldSt) (s : State) : (setHold c x s).folds = s.folds := rfl
@[simp] theorem setHold_brg (c : Nat) (x : HoldSt) (s : State) : (setHold c x s).brg = s.brg := rfl
@[simp] theorem setHold_loops (c : Nat) (x : HoldSt) (s : State) : (setHold c x s).loops = s.loops := rfl
@[simp] theorem setHold_vcore (c : Nat) (x : HoldSt) (s : State) : (setHold c x s).vcore = s.vcore := rfl
@[simp] theorem setHold_chkAt (c : Nat) (x : HoldSt) (s : State) : (setHold c x s).chkAt = s.chkAt := rfl
@[simp] theorem setHold_checkpoint (c : Nat) (x : HoldSt) (s : State) : (setHold c x s).checkpoint = s.checkpoint := rfl
@[simp] theorem setHold_protoErrs (c : Nat) (x : HoldSt) (s : State) : (setHold c x s).protoErrs = s.protoErrs := rfl
@[simp] theorem setHold_flash (c : Nat) (x : HoldSt) (s : State) : (setHold c x s).flash = s.flash := rfl
@[simp] theorem setHold_jmem (c : Nat) (x : HoldSt) (s : State) : (setHold c x s).jmem = s.jmem := rfl
@[simp] theorem setHold_ram (c : Nat) (x : HoldSt) (s : State) : (setHold c x s).ram = s.ram := rfl
@[simp] theorem setHold_out (c : Nat) (x : HoldSt) (s : State) : (setHold c x s).out = s.out := rfl
@[simp] theorem setHold_freeCount (c : Nat) (x : HoldSt) (s : State) : (setHold c x s).freeCount = s.freeCount := rfl

@[simp] theorem setTx_pending (p : Nat) (x : TxSt) (s : State) : (setTx p x s).pending = s.pending := rfl
@[simp] theorem setTx_chip (p : Nat) (x : TxSt) (s : State) : (setTx p x s).chip = s.chip := rfl
@[simp] theorem setTx_rollback (p : Nat) (x : TxSt) (s : State) : (setTx p x s).rollback = s.rollback := rfl
@[simp] theorem setTx_pins (p : Nat) (x : TxSt) (s : State) : (setTx p x s).pins = s.pins := rfl
@[simp] theorem setTx_now (p : Nat) (x : TxSt) (s : State) : (setTx p x s).now = s.now := rfl
@[simp] theorem setTx_regs (p : Nat) (x : TxSt) (s : State) : (setTx p x s).regs = s.regs := rfl
@[simp] theorem setTx_cfgB (p : Nat) (x : TxSt) (s : State) : (setTx p x s).cfgB = s.cfgB := rfl
@[simp] theorem setTx_cfgA (p : Nat) (x : TxSt) (s : State) : (setTx p x s).cfgA = s.cfgA := rfl
@[simp] theorem setTx_cfgO (p : Nat) (x : TxSt) (s : State) : (setTx p x s).cfgO = s.cfgO := rfl
@[simp] theorem setTx_cfgX (p : Nat) (x : TxSt) (s : State) : (setTx p x s).cfgX = s.cfgX := rfl
@[simp] theorem setTx_liveB (p : Nat) (x : TxSt) (s : State) : (setTx p x s).liveB = s.liveB := rfl
@[simp] theorem setTx_liveA (p : Nat) (x : TxSt) (s : State) : (setTx p x s).liveA = s.liveA := rfl
@[simp] theorem setTx_islEpoch (p : Nat) (x : TxSt) (s : State) : (setTx p x s).islEpoch = s.islEpoch := rfl
@[simp] theorem setTx_ldr (p : Nat) (x : TxSt) (s : State) : (setTx p x s).ldr = s.ldr := rfl
@[simp] theorem setTx_queues (p : Nat) (x : TxSt) (s : State) : (setTx p x s).queues = s.queues := rfl
@[simp] theorem setTx_readPorts (p : Nat) (x : TxSt) (s : State) : (setTx p x s).readPorts = s.readPorts := rfl
@[simp] theorem setTx_hostPorts (p : Nat) (x : TxSt) (s : State) : (setTx p x s).hostPorts = s.hostPorts := rfl
@[simp] theorem setTx_svcStats (p : Nat) (x : TxSt) (s : State) : (setTx p x s).svcStats = s.svcStats := rfl
@[simp] theorem setTx_jnl (p : Nat) (x : TxSt) (s : State) : (setTx p x s).jnl = s.jnl := rfl
@[simp] theorem setTx_rsv (p : Nat) (x : TxSt) (s : State) : (setTx p x s).rsv = s.rsv := rfl
@[simp] theorem setTx_cams (p : Nat) (x : TxSt) (s : State) : (setTx p x s).cams = s.cams := rfl
@[simp] theorem setTx_twbs (p : Nat) (x : TxSt) (s : State) : (setTx p x s).twbs = s.twbs := rfl
@[simp] theorem setTx_frames (p : Nat) (x : TxSt) (s : State) : (setTx p x s).frames = s.frames := rfl
@[simp] theorem setTx_nextFrame (p : Nat) (x : TxSt) (s : State) : (setTx p x s).nextFrame = s.nextFrame := rfl
@[simp] theorem setTx_running (p : Nat) (x : TxSt) (s : State) : (setTx p x s).running = s.running := rfl
@[simp] theorem setTx_syncs (p : Nat) (x : TxSt) (s : State) : (setTx p x s).syncs = s.syncs := rfl
@[simp] theorem setTx_statCount (p : Nat) (x : TxSt) (s : State) : (setTx p x s).statCount = s.statCount := rfl
@[simp] theorem setTx_outs (p : Nat) (x : TxSt) (s : State) : (setTx p x s).outs = s.outs := rfl
@[simp] theorem setTx_nextOut (p : Nat) (x : TxSt) (s : State) : (setTx p x s).nextOut = s.nextOut := rfl
@[simp] theorem setTx_inAlive (p : Nat) (x : TxSt) (s : State) : (setTx p x s).inAlive = s.inAlive := rfl
@[simp] theorem setTx_doneKeys (p : Nat) (x : TxSt) (s : State) : (setTx p x s).doneKeys = s.doneKeys := rfl
@[simp] theorem setTx_holds (p : Nat) (x : TxSt) (s : State) : (setTx p x s).holds = s.holds := rfl
@[simp] theorem setTx_chans (p : Nat) (x : TxSt) (s : State) : (setTx p x s).chans = s.chans := rfl
@[simp] theorem setTx_weaves (p : Nat) (x : TxSt) (s : State) : (setTx p x s).weaves = s.weaves := rfl
@[simp] theorem setTx_outFlows (p : Nat) (x : TxSt) (s : State) : (setTx p x s).outFlows = s.outFlows := rfl
@[simp] theorem setTx_fab (p : Nat) (x : TxSt) (s : State) : (setTx p x s).fab = s.fab := rfl
@[simp] theorem setTx_rly (p : Nat) (x : TxSt) (s : State) : (setTx p x s).rly = s.rly := rfl
@[simp] theorem setTx_mnt (p : Nat) (x : TxSt) (s : State) : (setTx p x s).mnt = s.mnt := rfl
@[simp] theorem setTx_time (p : Nat) (x : TxSt) (s : State) : (setTx p x s).time = s.time := rfl
@[simp] theorem setTx_eths (p : Nat) (x : TxSt) (s : State) : (setTx p x s).eths = s.eths := rfl
@[simp] theorem setTx_mot (p : Nat) (x : TxSt) (s : State) : (setTx p x s).mot = s.mot := rfl
@[simp] theorem setTx_pwrs (p : Nat) (x : TxSt) (s : State) : (setTx p x s).pwrs = s.pwrs := rfl
@[simp] theorem setTx_pwms (p : Nat) (x : TxSt) (s : State) : (setTx p x s).pwms = s.pwms := rfl
@[simp] theorem setTx_folds (p : Nat) (x : TxSt) (s : State) : (setTx p x s).folds = s.folds := rfl
@[simp] theorem setTx_brg (p : Nat) (x : TxSt) (s : State) : (setTx p x s).brg = s.brg := rfl
@[simp] theorem setTx_loops (p : Nat) (x : TxSt) (s : State) : (setTx p x s).loops = s.loops := rfl
@[simp] theorem setTx_vcore (p : Nat) (x : TxSt) (s : State) : (setTx p x s).vcore = s.vcore := rfl
@[simp] theorem setTx_chkAt (p : Nat) (x : TxSt) (s : State) : (setTx p x s).chkAt = s.chkAt := rfl
@[simp] theorem setTx_checkpoint (p : Nat) (x : TxSt) (s : State) : (setTx p x s).checkpoint = s.checkpoint := rfl
@[simp] theorem setTx_protoErrs (p : Nat) (x : TxSt) (s : State) : (setTx p x s).protoErrs = s.protoErrs := rfl
@[simp] theorem setTx_flash (p : Nat) (x : TxSt) (s : State) : (setTx p x s).flash = s.flash := rfl
@[simp] theorem setTx_jmem (p : Nat) (x : TxSt) (s : State) : (setTx p x s).jmem = s.jmem := rfl
@[simp] theorem setTx_ram (p : Nat) (x : TxSt) (s : State) : (setTx p x s).ram = s.ram := rfl
@[simp] theorem setTx_out (p : Nat) (x : TxSt) (s : State) : (setTx p x s).out = s.out := rfl
@[simp] theorem setTx_freeCount (p : Nat) (x : TxSt) (s : State) : (setTx p x s).freeCount = s.freeCount := rfl

@[simp] theorem setWv_pending (p : Nat) (x : WvSt) (s : State) : (setWv p x s).pending = s.pending := rfl
@[simp] theorem setWv_chip (p : Nat) (x : WvSt) (s : State) : (setWv p x s).chip = s.chip := rfl
@[simp] theorem setWv_rollback (p : Nat) (x : WvSt) (s : State) : (setWv p x s).rollback = s.rollback := rfl
@[simp] theorem setWv_pins (p : Nat) (x : WvSt) (s : State) : (setWv p x s).pins = s.pins := rfl
@[simp] theorem setWv_now (p : Nat) (x : WvSt) (s : State) : (setWv p x s).now = s.now := rfl
@[simp] theorem setWv_regs (p : Nat) (x : WvSt) (s : State) : (setWv p x s).regs = s.regs := rfl
@[simp] theorem setWv_cfgB (p : Nat) (x : WvSt) (s : State) : (setWv p x s).cfgB = s.cfgB := rfl
@[simp] theorem setWv_cfgA (p : Nat) (x : WvSt) (s : State) : (setWv p x s).cfgA = s.cfgA := rfl
@[simp] theorem setWv_cfgO (p : Nat) (x : WvSt) (s : State) : (setWv p x s).cfgO = s.cfgO := rfl
@[simp] theorem setWv_cfgX (p : Nat) (x : WvSt) (s : State) : (setWv p x s).cfgX = s.cfgX := rfl
@[simp] theorem setWv_liveB (p : Nat) (x : WvSt) (s : State) : (setWv p x s).liveB = s.liveB := rfl
@[simp] theorem setWv_liveA (p : Nat) (x : WvSt) (s : State) : (setWv p x s).liveA = s.liveA := rfl
@[simp] theorem setWv_islEpoch (p : Nat) (x : WvSt) (s : State) : (setWv p x s).islEpoch = s.islEpoch := rfl
@[simp] theorem setWv_ldr (p : Nat) (x : WvSt) (s : State) : (setWv p x s).ldr = s.ldr := rfl
@[simp] theorem setWv_queues (p : Nat) (x : WvSt) (s : State) : (setWv p x s).queues = s.queues := rfl
@[simp] theorem setWv_readPorts (p : Nat) (x : WvSt) (s : State) : (setWv p x s).readPorts = s.readPorts := rfl
@[simp] theorem setWv_hostPorts (p : Nat) (x : WvSt) (s : State) : (setWv p x s).hostPorts = s.hostPorts := rfl
@[simp] theorem setWv_svcStats (p : Nat) (x : WvSt) (s : State) : (setWv p x s).svcStats = s.svcStats := rfl
@[simp] theorem setWv_jnl (p : Nat) (x : WvSt) (s : State) : (setWv p x s).jnl = s.jnl := rfl
@[simp] theorem setWv_rsv (p : Nat) (x : WvSt) (s : State) : (setWv p x s).rsv = s.rsv := rfl
@[simp] theorem setWv_cams (p : Nat) (x : WvSt) (s : State) : (setWv p x s).cams = s.cams := rfl
@[simp] theorem setWv_twbs (p : Nat) (x : WvSt) (s : State) : (setWv p x s).twbs = s.twbs := rfl
@[simp] theorem setWv_frames (p : Nat) (x : WvSt) (s : State) : (setWv p x s).frames = s.frames := rfl
@[simp] theorem setWv_nextFrame (p : Nat) (x : WvSt) (s : State) : (setWv p x s).nextFrame = s.nextFrame := rfl
@[simp] theorem setWv_running (p : Nat) (x : WvSt) (s : State) : (setWv p x s).running = s.running := rfl
@[simp] theorem setWv_syncs (p : Nat) (x : WvSt) (s : State) : (setWv p x s).syncs = s.syncs := rfl
@[simp] theorem setWv_statCount (p : Nat) (x : WvSt) (s : State) : (setWv p x s).statCount = s.statCount := rfl
@[simp] theorem setWv_outs (p : Nat) (x : WvSt) (s : State) : (setWv p x s).outs = s.outs := rfl
@[simp] theorem setWv_nextOut (p : Nat) (x : WvSt) (s : State) : (setWv p x s).nextOut = s.nextOut := rfl
@[simp] theorem setWv_inAlive (p : Nat) (x : WvSt) (s : State) : (setWv p x s).inAlive = s.inAlive := rfl
@[simp] theorem setWv_doneKeys (p : Nat) (x : WvSt) (s : State) : (setWv p x s).doneKeys = s.doneKeys := rfl
@[simp] theorem setWv_holds (p : Nat) (x : WvSt) (s : State) : (setWv p x s).holds = s.holds := rfl
@[simp] theorem setWv_txs (p : Nat) (x : WvSt) (s : State) : (setWv p x s).txs = s.txs := rfl
@[simp] theorem setWv_chans (p : Nat) (x : WvSt) (s : State) : (setWv p x s).chans = s.chans := rfl
@[simp] theorem setWv_outFlows (p : Nat) (x : WvSt) (s : State) : (setWv p x s).outFlows = s.outFlows := rfl
@[simp] theorem setWv_fab (p : Nat) (x : WvSt) (s : State) : (setWv p x s).fab = s.fab := rfl
@[simp] theorem setWv_rly (p : Nat) (x : WvSt) (s : State) : (setWv p x s).rly = s.rly := rfl
@[simp] theorem setWv_mnt (p : Nat) (x : WvSt) (s : State) : (setWv p x s).mnt = s.mnt := rfl
@[simp] theorem setWv_time (p : Nat) (x : WvSt) (s : State) : (setWv p x s).time = s.time := rfl
@[simp] theorem setWv_eths (p : Nat) (x : WvSt) (s : State) : (setWv p x s).eths = s.eths := rfl
@[simp] theorem setWv_mot (p : Nat) (x : WvSt) (s : State) : (setWv p x s).mot = s.mot := rfl
@[simp] theorem setWv_pwrs (p : Nat) (x : WvSt) (s : State) : (setWv p x s).pwrs = s.pwrs := rfl
@[simp] theorem setWv_pwms (p : Nat) (x : WvSt) (s : State) : (setWv p x s).pwms = s.pwms := rfl
@[simp] theorem setWv_folds (p : Nat) (x : WvSt) (s : State) : (setWv p x s).folds = s.folds := rfl
@[simp] theorem setWv_brg (p : Nat) (x : WvSt) (s : State) : (setWv p x s).brg = s.brg := rfl
@[simp] theorem setWv_loops (p : Nat) (x : WvSt) (s : State) : (setWv p x s).loops = s.loops := rfl
@[simp] theorem setWv_vcore (p : Nat) (x : WvSt) (s : State) : (setWv p x s).vcore = s.vcore := rfl
@[simp] theorem setWv_chkAt (p : Nat) (x : WvSt) (s : State) : (setWv p x s).chkAt = s.chkAt := rfl
@[simp] theorem setWv_checkpoint (p : Nat) (x : WvSt) (s : State) : (setWv p x s).checkpoint = s.checkpoint := rfl
@[simp] theorem setWv_protoErrs (p : Nat) (x : WvSt) (s : State) : (setWv p x s).protoErrs = s.protoErrs := rfl
@[simp] theorem setWv_flash (p : Nat) (x : WvSt) (s : State) : (setWv p x s).flash = s.flash := rfl
@[simp] theorem setWv_jmem (p : Nat) (x : WvSt) (s : State) : (setWv p x s).jmem = s.jmem := rfl
@[simp] theorem setWv_ram (p : Nat) (x : WvSt) (s : State) : (setWv p x s).ram = s.ram := rfl
@[simp] theorem setWv_out (p : Nat) (x : WvSt) (s : State) : (setWv p x s).out = s.out := rfl
@[simp] theorem setWv_freeCount (p : Nat) (x : WvSt) (s : State) : (setWv p x s).freeCount = s.freeCount := rfl

@[simp] theorem setEth_pending (p : Nat) (x : EthSt) (s : State) : (setEth p x s).pending = s.pending := rfl
@[simp] theorem setEth_chip (p : Nat) (x : EthSt) (s : State) : (setEth p x s).chip = s.chip := rfl
@[simp] theorem setEth_rollback (p : Nat) (x : EthSt) (s : State) : (setEth p x s).rollback = s.rollback := rfl
@[simp] theorem setEth_pins (p : Nat) (x : EthSt) (s : State) : (setEth p x s).pins = s.pins := rfl
@[simp] theorem setEth_now (p : Nat) (x : EthSt) (s : State) : (setEth p x s).now = s.now := rfl
@[simp] theorem setEth_regs (p : Nat) (x : EthSt) (s : State) : (setEth p x s).regs = s.regs := rfl
@[simp] theorem setEth_cfgB (p : Nat) (x : EthSt) (s : State) : (setEth p x s).cfgB = s.cfgB := rfl
@[simp] theorem setEth_cfgA (p : Nat) (x : EthSt) (s : State) : (setEth p x s).cfgA = s.cfgA := rfl
@[simp] theorem setEth_cfgO (p : Nat) (x : EthSt) (s : State) : (setEth p x s).cfgO = s.cfgO := rfl
@[simp] theorem setEth_cfgX (p : Nat) (x : EthSt) (s : State) : (setEth p x s).cfgX = s.cfgX := rfl
@[simp] theorem setEth_liveB (p : Nat) (x : EthSt) (s : State) : (setEth p x s).liveB = s.liveB := rfl
@[simp] theorem setEth_liveA (p : Nat) (x : EthSt) (s : State) : (setEth p x s).liveA = s.liveA := rfl
@[simp] theorem setEth_islEpoch (p : Nat) (x : EthSt) (s : State) : (setEth p x s).islEpoch = s.islEpoch := rfl
@[simp] theorem setEth_ldr (p : Nat) (x : EthSt) (s : State) : (setEth p x s).ldr = s.ldr := rfl
@[simp] theorem setEth_queues (p : Nat) (x : EthSt) (s : State) : (setEth p x s).queues = s.queues := rfl
@[simp] theorem setEth_readPorts (p : Nat) (x : EthSt) (s : State) : (setEth p x s).readPorts = s.readPorts := rfl
@[simp] theorem setEth_hostPorts (p : Nat) (x : EthSt) (s : State) : (setEth p x s).hostPorts = s.hostPorts := rfl
@[simp] theorem setEth_svcStats (p : Nat) (x : EthSt) (s : State) : (setEth p x s).svcStats = s.svcStats := rfl
@[simp] theorem setEth_jnl (p : Nat) (x : EthSt) (s : State) : (setEth p x s).jnl = s.jnl := rfl
@[simp] theorem setEth_rsv (p : Nat) (x : EthSt) (s : State) : (setEth p x s).rsv = s.rsv := rfl
@[simp] theorem setEth_cams (p : Nat) (x : EthSt) (s : State) : (setEth p x s).cams = s.cams := rfl
@[simp] theorem setEth_twbs (p : Nat) (x : EthSt) (s : State) : (setEth p x s).twbs = s.twbs := rfl
@[simp] theorem setEth_frames (p : Nat) (x : EthSt) (s : State) : (setEth p x s).frames = s.frames := rfl
@[simp] theorem setEth_nextFrame (p : Nat) (x : EthSt) (s : State) : (setEth p x s).nextFrame = s.nextFrame := rfl
@[simp] theorem setEth_running (p : Nat) (x : EthSt) (s : State) : (setEth p x s).running = s.running := rfl
@[simp] theorem setEth_syncs (p : Nat) (x : EthSt) (s : State) : (setEth p x s).syncs = s.syncs := rfl
@[simp] theorem setEth_statCount (p : Nat) (x : EthSt) (s : State) : (setEth p x s).statCount = s.statCount := rfl
@[simp] theorem setEth_outs (p : Nat) (x : EthSt) (s : State) : (setEth p x s).outs = s.outs := rfl
@[simp] theorem setEth_nextOut (p : Nat) (x : EthSt) (s : State) : (setEth p x s).nextOut = s.nextOut := rfl
@[simp] theorem setEth_inAlive (p : Nat) (x : EthSt) (s : State) : (setEth p x s).inAlive = s.inAlive := rfl
@[simp] theorem setEth_doneKeys (p : Nat) (x : EthSt) (s : State) : (setEth p x s).doneKeys = s.doneKeys := rfl
@[simp] theorem setEth_holds (p : Nat) (x : EthSt) (s : State) : (setEth p x s).holds = s.holds := rfl
@[simp] theorem setEth_txs (p : Nat) (x : EthSt) (s : State) : (setEth p x s).txs = s.txs := rfl
@[simp] theorem setEth_chans (p : Nat) (x : EthSt) (s : State) : (setEth p x s).chans = s.chans := rfl
@[simp] theorem setEth_weaves (p : Nat) (x : EthSt) (s : State) : (setEth p x s).weaves = s.weaves := rfl
@[simp] theorem setEth_outFlows (p : Nat) (x : EthSt) (s : State) : (setEth p x s).outFlows = s.outFlows := rfl
@[simp] theorem setEth_fab (p : Nat) (x : EthSt) (s : State) : (setEth p x s).fab = s.fab := rfl
@[simp] theorem setEth_rly (p : Nat) (x : EthSt) (s : State) : (setEth p x s).rly = s.rly := rfl
@[simp] theorem setEth_mnt (p : Nat) (x : EthSt) (s : State) : (setEth p x s).mnt = s.mnt := rfl
@[simp] theorem setEth_time (p : Nat) (x : EthSt) (s : State) : (setEth p x s).time = s.time := rfl
@[simp] theorem setEth_mot (p : Nat) (x : EthSt) (s : State) : (setEth p x s).mot = s.mot := rfl
@[simp] theorem setEth_pwrs (p : Nat) (x : EthSt) (s : State) : (setEth p x s).pwrs = s.pwrs := rfl
@[simp] theorem setEth_pwms (p : Nat) (x : EthSt) (s : State) : (setEth p x s).pwms = s.pwms := rfl
@[simp] theorem setEth_folds (p : Nat) (x : EthSt) (s : State) : (setEth p x s).folds = s.folds := rfl
@[simp] theorem setEth_brg (p : Nat) (x : EthSt) (s : State) : (setEth p x s).brg = s.brg := rfl
@[simp] theorem setEth_loops (p : Nat) (x : EthSt) (s : State) : (setEth p x s).loops = s.loops := rfl
@[simp] theorem setEth_vcore (p : Nat) (x : EthSt) (s : State) : (setEth p x s).vcore = s.vcore := rfl
@[simp] theorem setEth_chkAt (p : Nat) (x : EthSt) (s : State) : (setEth p x s).chkAt = s.chkAt := rfl
@[simp] theorem setEth_checkpoint (p : Nat) (x : EthSt) (s : State) : (setEth p x s).checkpoint = s.checkpoint := rfl
@[simp] theorem setEth_protoErrs (p : Nat) (x : EthSt) (s : State) : (setEth p x s).protoErrs = s.protoErrs := rfl
@[simp] theorem setEth_flash (p : Nat) (x : EthSt) (s : State) : (setEth p x s).flash = s.flash := rfl
@[simp] theorem setEth_jmem (p : Nat) (x : EthSt) (s : State) : (setEth p x s).jmem = s.jmem := rfl
@[simp] theorem setEth_ram (p : Nat) (x : EthSt) (s : State) : (setEth p x s).ram = s.ram := rfl
@[simp] theorem setEth_out (p : Nat) (x : EthSt) (s : State) : (setEth p x s).out = s.out := rfl
@[simp] theorem setEth_freeCount (p : Nat) (x : EthSt) (s : State) : (setEth p x s).freeCount = s.freeCount := rfl

@[simp] theorem setCh_pending (n : Nat) (x : ChSt) (s : State) : (setCh n x s).pending = s.pending := rfl
@[simp] theorem setCh_chip (n : Nat) (x : ChSt) (s : State) : (setCh n x s).chip = s.chip := rfl
@[simp] theorem setCh_rollback (n : Nat) (x : ChSt) (s : State) : (setCh n x s).rollback = s.rollback := rfl
@[simp] theorem setCh_pins (n : Nat) (x : ChSt) (s : State) : (setCh n x s).pins = s.pins := rfl
@[simp] theorem setCh_now (n : Nat) (x : ChSt) (s : State) : (setCh n x s).now = s.now := rfl
@[simp] theorem setCh_regs (n : Nat) (x : ChSt) (s : State) : (setCh n x s).regs = s.regs := rfl
@[simp] theorem setCh_cfgB (n : Nat) (x : ChSt) (s : State) : (setCh n x s).cfgB = s.cfgB := rfl
@[simp] theorem setCh_cfgA (n : Nat) (x : ChSt) (s : State) : (setCh n x s).cfgA = s.cfgA := rfl
@[simp] theorem setCh_cfgO (n : Nat) (x : ChSt) (s : State) : (setCh n x s).cfgO = s.cfgO := rfl
@[simp] theorem setCh_cfgX (n : Nat) (x : ChSt) (s : State) : (setCh n x s).cfgX = s.cfgX := rfl
@[simp] theorem setCh_liveB (n : Nat) (x : ChSt) (s : State) : (setCh n x s).liveB = s.liveB := rfl
@[simp] theorem setCh_liveA (n : Nat) (x : ChSt) (s : State) : (setCh n x s).liveA = s.liveA := rfl
@[simp] theorem setCh_islEpoch (n : Nat) (x : ChSt) (s : State) : (setCh n x s).islEpoch = s.islEpoch := rfl
@[simp] theorem setCh_ldr (n : Nat) (x : ChSt) (s : State) : (setCh n x s).ldr = s.ldr := rfl
@[simp] theorem setCh_queues (n : Nat) (x : ChSt) (s : State) : (setCh n x s).queues = s.queues := rfl
@[simp] theorem setCh_readPorts (n : Nat) (x : ChSt) (s : State) : (setCh n x s).readPorts = s.readPorts := rfl
@[simp] theorem setCh_hostPorts (n : Nat) (x : ChSt) (s : State) : (setCh n x s).hostPorts = s.hostPorts := rfl
@[simp] theorem setCh_svcStats (n : Nat) (x : ChSt) (s : State) : (setCh n x s).svcStats = s.svcStats := rfl
@[simp] theorem setCh_jnl (n : Nat) (x : ChSt) (s : State) : (setCh n x s).jnl = s.jnl := rfl
@[simp] theorem setCh_rsv (n : Nat) (x : ChSt) (s : State) : (setCh n x s).rsv = s.rsv := rfl
@[simp] theorem setCh_cams (n : Nat) (x : ChSt) (s : State) : (setCh n x s).cams = s.cams := rfl
@[simp] theorem setCh_twbs (n : Nat) (x : ChSt) (s : State) : (setCh n x s).twbs = s.twbs := rfl
@[simp] theorem setCh_frames (n : Nat) (x : ChSt) (s : State) : (setCh n x s).frames = s.frames := rfl
@[simp] theorem setCh_nextFrame (n : Nat) (x : ChSt) (s : State) : (setCh n x s).nextFrame = s.nextFrame := rfl
@[simp] theorem setCh_running (n : Nat) (x : ChSt) (s : State) : (setCh n x s).running = s.running := rfl
@[simp] theorem setCh_syncs (n : Nat) (x : ChSt) (s : State) : (setCh n x s).syncs = s.syncs := rfl
@[simp] theorem setCh_statCount (n : Nat) (x : ChSt) (s : State) : (setCh n x s).statCount = s.statCount := rfl
@[simp] theorem setCh_outs (n : Nat) (x : ChSt) (s : State) : (setCh n x s).outs = s.outs := rfl
@[simp] theorem setCh_nextOut (n : Nat) (x : ChSt) (s : State) : (setCh n x s).nextOut = s.nextOut := rfl
@[simp] theorem setCh_inAlive (n : Nat) (x : ChSt) (s : State) : (setCh n x s).inAlive = s.inAlive := rfl
@[simp] theorem setCh_doneKeys (n : Nat) (x : ChSt) (s : State) : (setCh n x s).doneKeys = s.doneKeys := rfl
@[simp] theorem setCh_holds (n : Nat) (x : ChSt) (s : State) : (setCh n x s).holds = s.holds := rfl
@[simp] theorem setCh_txs (n : Nat) (x : ChSt) (s : State) : (setCh n x s).txs = s.txs := rfl
@[simp] theorem setCh_chans (n : Nat) (x : ChSt) (s : State) : (setCh n x s).chans = s.chans := rfl
@[simp] theorem setCh_weaves (n : Nat) (x : ChSt) (s : State) : (setCh n x s).weaves = s.weaves := rfl
@[simp] theorem setCh_outFlows (n : Nat) (x : ChSt) (s : State) : (setCh n x s).outFlows = s.outFlows := rfl
@[simp] theorem setCh_fab (n : Nat) (x : ChSt) (s : State) : (setCh n x s).fab = s.fab := rfl
@[simp] theorem setCh_rly (n : Nat) (x : ChSt) (s : State) : (setCh n x s).rly = s.rly := rfl
@[simp] theorem setCh_mnt (n : Nat) (x : ChSt) (s : State) : (setCh n x s).mnt = s.mnt := rfl
@[simp] theorem setCh_time (n : Nat) (x : ChSt) (s : State) : (setCh n x s).time = s.time := rfl
@[simp] theorem setCh_eths (n : Nat) (x : ChSt) (s : State) : (setCh n x s).eths = s.eths := rfl
@[simp] theorem setCh_pwrs (n : Nat) (x : ChSt) (s : State) : (setCh n x s).pwrs = s.pwrs := rfl
@[simp] theorem setCh_pwms (n : Nat) (x : ChSt) (s : State) : (setCh n x s).pwms = s.pwms := rfl
@[simp] theorem setCh_folds (n : Nat) (x : ChSt) (s : State) : (setCh n x s).folds = s.folds := rfl
@[simp] theorem setCh_brg (n : Nat) (x : ChSt) (s : State) : (setCh n x s).brg = s.brg := rfl
@[simp] theorem setCh_loops (n : Nat) (x : ChSt) (s : State) : (setCh n x s).loops = s.loops := rfl
@[simp] theorem setCh_vcore (n : Nat) (x : ChSt) (s : State) : (setCh n x s).vcore = s.vcore := rfl
@[simp] theorem setCh_chkAt (n : Nat) (x : ChSt) (s : State) : (setCh n x s).chkAt = s.chkAt := rfl
@[simp] theorem setCh_checkpoint (n : Nat) (x : ChSt) (s : State) : (setCh n x s).checkpoint = s.checkpoint := rfl
@[simp] theorem setCh_protoErrs (n : Nat) (x : ChSt) (s : State) : (setCh n x s).protoErrs = s.protoErrs := rfl
@[simp] theorem setCh_flash (n : Nat) (x : ChSt) (s : State) : (setCh n x s).flash = s.flash := rfl
@[simp] theorem setCh_jmem (n : Nat) (x : ChSt) (s : State) : (setCh n x s).jmem = s.jmem := rfl
@[simp] theorem setCh_ram (n : Nat) (x : ChSt) (s : State) : (setCh n x s).ram = s.ram := rfl
@[simp] theorem setCh_out (n : Nat) (x : ChSt) (s : State) : (setCh n x s).out = s.out := rfl
@[simp] theorem setCh_freeCount (n : Nat) (x : ChSt) (s : State) : (setCh n x s).freeCount = s.freeCount := rfl

@[simp] theorem setEmu_pending (e : Nat) (x : EmuSt) (s : State) : (setEmu e x s).pending = s.pending := rfl
@[simp] theorem setEmu_chip (e : Nat) (x : EmuSt) (s : State) : (setEmu e x s).chip = s.chip := rfl
@[simp] theorem setEmu_rollback (e : Nat) (x : EmuSt) (s : State) : (setEmu e x s).rollback = s.rollback := rfl
@[simp] theorem setEmu_pins (e : Nat) (x : EmuSt) (s : State) : (setEmu e x s).pins = s.pins := rfl
@[simp] theorem setEmu_now (e : Nat) (x : EmuSt) (s : State) : (setEmu e x s).now = s.now := rfl
@[simp] theorem setEmu_regs (e : Nat) (x : EmuSt) (s : State) : (setEmu e x s).regs = s.regs := rfl
@[simp] theorem setEmu_cfgB (e : Nat) (x : EmuSt) (s : State) : (setEmu e x s).cfgB = s.cfgB := rfl
@[simp] theorem setEmu_cfgA (e : Nat) (x : EmuSt) (s : State) : (setEmu e x s).cfgA = s.cfgA := rfl
@[simp] theorem setEmu_cfgO (e : Nat) (x : EmuSt) (s : State) : (setEmu e x s).cfgO = s.cfgO := rfl
@[simp] theorem setEmu_cfgX (e : Nat) (x : EmuSt) (s : State) : (setEmu e x s).cfgX = s.cfgX := rfl
@[simp] theorem setEmu_liveB (e : Nat) (x : EmuSt) (s : State) : (setEmu e x s).liveB = s.liveB := rfl
@[simp] theorem setEmu_liveA (e : Nat) (x : EmuSt) (s : State) : (setEmu e x s).liveA = s.liveA := rfl
@[simp] theorem setEmu_islEpoch (e : Nat) (x : EmuSt) (s : State) : (setEmu e x s).islEpoch = s.islEpoch := rfl
@[simp] theorem setEmu_ldr (e : Nat) (x : EmuSt) (s : State) : (setEmu e x s).ldr = s.ldr := rfl
@[simp] theorem setEmu_queues (e : Nat) (x : EmuSt) (s : State) : (setEmu e x s).queues = s.queues := rfl
@[simp] theorem setEmu_readPorts (e : Nat) (x : EmuSt) (s : State) : (setEmu e x s).readPorts = s.readPorts := rfl
@[simp] theorem setEmu_hostPorts (e : Nat) (x : EmuSt) (s : State) : (setEmu e x s).hostPorts = s.hostPorts := rfl
@[simp] theorem setEmu_svcStats (e : Nat) (x : EmuSt) (s : State) : (setEmu e x s).svcStats = s.svcStats := rfl
@[simp] theorem setEmu_jnl (e : Nat) (x : EmuSt) (s : State) : (setEmu e x s).jnl = s.jnl := rfl
@[simp] theorem setEmu_rsv (e : Nat) (x : EmuSt) (s : State) : (setEmu e x s).rsv = s.rsv := rfl
@[simp] theorem setEmu_cams (e : Nat) (x : EmuSt) (s : State) : (setEmu e x s).cams = s.cams := rfl
@[simp] theorem setEmu_twbs (e : Nat) (x : EmuSt) (s : State) : (setEmu e x s).twbs = s.twbs := rfl
@[simp] theorem setEmu_frames (e : Nat) (x : EmuSt) (s : State) : (setEmu e x s).frames = s.frames := rfl
@[simp] theorem setEmu_nextFrame (e : Nat) (x : EmuSt) (s : State) : (setEmu e x s).nextFrame = s.nextFrame := rfl
@[simp] theorem setEmu_running (e : Nat) (x : EmuSt) (s : State) : (setEmu e x s).running = s.running := rfl
@[simp] theorem setEmu_syncs (e : Nat) (x : EmuSt) (s : State) : (setEmu e x s).syncs = s.syncs := rfl
@[simp] theorem setEmu_statCount (e : Nat) (x : EmuSt) (s : State) : (setEmu e x s).statCount = s.statCount := rfl
@[simp] theorem setEmu_outs (e : Nat) (x : EmuSt) (s : State) : (setEmu e x s).outs = s.outs := rfl
@[simp] theorem setEmu_nextOut (e : Nat) (x : EmuSt) (s : State) : (setEmu e x s).nextOut = s.nextOut := rfl
@[simp] theorem setEmu_inAlive (e : Nat) (x : EmuSt) (s : State) : (setEmu e x s).inAlive = s.inAlive := rfl
@[simp] theorem setEmu_doneKeys (e : Nat) (x : EmuSt) (s : State) : (setEmu e x s).doneKeys = s.doneKeys := rfl
@[simp] theorem setEmu_holds (e : Nat) (x : EmuSt) (s : State) : (setEmu e x s).holds = s.holds := rfl
@[simp] theorem setEmu_txs (e : Nat) (x : EmuSt) (s : State) : (setEmu e x s).txs = s.txs := rfl
@[simp] theorem setEmu_chans (e : Nat) (x : EmuSt) (s : State) : (setEmu e x s).chans = s.chans := rfl
@[simp] theorem setEmu_weaves (e : Nat) (x : EmuSt) (s : State) : (setEmu e x s).weaves = s.weaves := rfl
@[simp] theorem setEmu_outFlows (e : Nat) (x : EmuSt) (s : State) : (setEmu e x s).outFlows = s.outFlows := rfl
@[simp] theorem setEmu_fab (e : Nat) (x : EmuSt) (s : State) : (setEmu e x s).fab = s.fab := rfl
@[simp] theorem setEmu_rly (e : Nat) (x : EmuSt) (s : State) : (setEmu e x s).rly = s.rly := rfl
@[simp] theorem setEmu_mnt (e : Nat) (x : EmuSt) (s : State) : (setEmu e x s).mnt = s.mnt := rfl
@[simp] theorem setEmu_time (e : Nat) (x : EmuSt) (s : State) : (setEmu e x s).time = s.time := rfl
@[simp] theorem setEmu_eths (e : Nat) (x : EmuSt) (s : State) : (setEmu e x s).eths = s.eths := rfl
@[simp] theorem setEmu_pwrs (e : Nat) (x : EmuSt) (s : State) : (setEmu e x s).pwrs = s.pwrs := rfl
@[simp] theorem setEmu_pwms (e : Nat) (x : EmuSt) (s : State) : (setEmu e x s).pwms = s.pwms := rfl
@[simp] theorem setEmu_folds (e : Nat) (x : EmuSt) (s : State) : (setEmu e x s).folds = s.folds := rfl
@[simp] theorem setEmu_brg (e : Nat) (x : EmuSt) (s : State) : (setEmu e x s).brg = s.brg := rfl
@[simp] theorem setEmu_loops (e : Nat) (x : EmuSt) (s : State) : (setEmu e x s).loops = s.loops := rfl
@[simp] theorem setEmu_vcore (e : Nat) (x : EmuSt) (s : State) : (setEmu e x s).vcore = s.vcore := rfl
@[simp] theorem setEmu_chkAt (e : Nat) (x : EmuSt) (s : State) : (setEmu e x s).chkAt = s.chkAt := rfl
@[simp] theorem setEmu_checkpoint (e : Nat) (x : EmuSt) (s : State) : (setEmu e x s).checkpoint = s.checkpoint := rfl
@[simp] theorem setEmu_protoErrs (e : Nat) (x : EmuSt) (s : State) : (setEmu e x s).protoErrs = s.protoErrs := rfl
@[simp] theorem setEmu_flash (e : Nat) (x : EmuSt) (s : State) : (setEmu e x s).flash = s.flash := rfl
@[simp] theorem setEmu_jmem (e : Nat) (x : EmuSt) (s : State) : (setEmu e x s).jmem = s.jmem := rfl
@[simp] theorem setEmu_ram (e : Nat) (x : EmuSt) (s : State) : (setEmu e x s).ram = s.ram := rfl
@[simp] theorem setEmu_out (e : Nat) (x : EmuSt) (s : State) : (setEmu e x s).out = s.out := rfl
@[simp] theorem setEmu_freeCount (e : Nat) (x : EmuSt) (s : State) : (setEmu e x s).freeCount = s.freeCount := rfl

@[simp] theorem setPwr_pending (p : Nat) (x : PwrSt) (s : State) : (setPwr p x s).pending = s.pending := rfl
@[simp] theorem setPwr_chip (p : Nat) (x : PwrSt) (s : State) : (setPwr p x s).chip = s.chip := rfl
@[simp] theorem setPwr_rollback (p : Nat) (x : PwrSt) (s : State) : (setPwr p x s).rollback = s.rollback := rfl
@[simp] theorem setPwr_pins (p : Nat) (x : PwrSt) (s : State) : (setPwr p x s).pins = s.pins := rfl
@[simp] theorem setPwr_now (p : Nat) (x : PwrSt) (s : State) : (setPwr p x s).now = s.now := rfl
@[simp] theorem setPwr_regs (p : Nat) (x : PwrSt) (s : State) : (setPwr p x s).regs = s.regs := rfl
@[simp] theorem setPwr_cfgB (p : Nat) (x : PwrSt) (s : State) : (setPwr p x s).cfgB = s.cfgB := rfl
@[simp] theorem setPwr_cfgA (p : Nat) (x : PwrSt) (s : State) : (setPwr p x s).cfgA = s.cfgA := rfl
@[simp] theorem setPwr_cfgO (p : Nat) (x : PwrSt) (s : State) : (setPwr p x s).cfgO = s.cfgO := rfl
@[simp] theorem setPwr_cfgX (p : Nat) (x : PwrSt) (s : State) : (setPwr p x s).cfgX = s.cfgX := rfl
@[simp] theorem setPwr_liveB (p : Nat) (x : PwrSt) (s : State) : (setPwr p x s).liveB = s.liveB := rfl
@[simp] theorem setPwr_liveA (p : Nat) (x : PwrSt) (s : State) : (setPwr p x s).liveA = s.liveA := rfl
@[simp] theorem setPwr_islEpoch (p : Nat) (x : PwrSt) (s : State) : (setPwr p x s).islEpoch = s.islEpoch := rfl
@[simp] theorem setPwr_ldr (p : Nat) (x : PwrSt) (s : State) : (setPwr p x s).ldr = s.ldr := rfl
@[simp] theorem setPwr_queues (p : Nat) (x : PwrSt) (s : State) : (setPwr p x s).queues = s.queues := rfl
@[simp] theorem setPwr_readPorts (p : Nat) (x : PwrSt) (s : State) : (setPwr p x s).readPorts = s.readPorts := rfl
@[simp] theorem setPwr_hostPorts (p : Nat) (x : PwrSt) (s : State) : (setPwr p x s).hostPorts = s.hostPorts := rfl
@[simp] theorem setPwr_svcStats (p : Nat) (x : PwrSt) (s : State) : (setPwr p x s).svcStats = s.svcStats := rfl
@[simp] theorem setPwr_jnl (p : Nat) (x : PwrSt) (s : State) : (setPwr p x s).jnl = s.jnl := rfl
@[simp] theorem setPwr_rsv (p : Nat) (x : PwrSt) (s : State) : (setPwr p x s).rsv = s.rsv := rfl
@[simp] theorem setPwr_cams (p : Nat) (x : PwrSt) (s : State) : (setPwr p x s).cams = s.cams := rfl
@[simp] theorem setPwr_twbs (p : Nat) (x : PwrSt) (s : State) : (setPwr p x s).twbs = s.twbs := rfl
@[simp] theorem setPwr_frames (p : Nat) (x : PwrSt) (s : State) : (setPwr p x s).frames = s.frames := rfl
@[simp] theorem setPwr_nextFrame (p : Nat) (x : PwrSt) (s : State) : (setPwr p x s).nextFrame = s.nextFrame := rfl
@[simp] theorem setPwr_running (p : Nat) (x : PwrSt) (s : State) : (setPwr p x s).running = s.running := rfl
@[simp] theorem setPwr_syncs (p : Nat) (x : PwrSt) (s : State) : (setPwr p x s).syncs = s.syncs := rfl
@[simp] theorem setPwr_statCount (p : Nat) (x : PwrSt) (s : State) : (setPwr p x s).statCount = s.statCount := rfl
@[simp] theorem setPwr_outs (p : Nat) (x : PwrSt) (s : State) : (setPwr p x s).outs = s.outs := rfl
@[simp] theorem setPwr_nextOut (p : Nat) (x : PwrSt) (s : State) : (setPwr p x s).nextOut = s.nextOut := rfl
@[simp] theorem setPwr_inAlive (p : Nat) (x : PwrSt) (s : State) : (setPwr p x s).inAlive = s.inAlive := rfl
@[simp] theorem setPwr_doneKeys (p : Nat) (x : PwrSt) (s : State) : (setPwr p x s).doneKeys = s.doneKeys := rfl
@[simp] theorem setPwr_holds (p : Nat) (x : PwrSt) (s : State) : (setPwr p x s).holds = s.holds := rfl
@[simp] theorem setPwr_txs (p : Nat) (x : PwrSt) (s : State) : (setPwr p x s).txs = s.txs := rfl
@[simp] theorem setPwr_chans (p : Nat) (x : PwrSt) (s : State) : (setPwr p x s).chans = s.chans := rfl
@[simp] theorem setPwr_weaves (p : Nat) (x : PwrSt) (s : State) : (setPwr p x s).weaves = s.weaves := rfl
@[simp] theorem setPwr_outFlows (p : Nat) (x : PwrSt) (s : State) : (setPwr p x s).outFlows = s.outFlows := rfl
@[simp] theorem setPwr_fab (p : Nat) (x : PwrSt) (s : State) : (setPwr p x s).fab = s.fab := rfl
@[simp] theorem setPwr_rly (p : Nat) (x : PwrSt) (s : State) : (setPwr p x s).rly = s.rly := rfl
@[simp] theorem setPwr_mnt (p : Nat) (x : PwrSt) (s : State) : (setPwr p x s).mnt = s.mnt := rfl
@[simp] theorem setPwr_time (p : Nat) (x : PwrSt) (s : State) : (setPwr p x s).time = s.time := rfl
@[simp] theorem setPwr_eths (p : Nat) (x : PwrSt) (s : State) : (setPwr p x s).eths = s.eths := rfl
@[simp] theorem setPwr_mot (p : Nat) (x : PwrSt) (s : State) : (setPwr p x s).mot = s.mot := rfl
@[simp] theorem setPwr_pwms (p : Nat) (x : PwrSt) (s : State) : (setPwr p x s).pwms = s.pwms := rfl
@[simp] theorem setPwr_folds (p : Nat) (x : PwrSt) (s : State) : (setPwr p x s).folds = s.folds := rfl
@[simp] theorem setPwr_brg (p : Nat) (x : PwrSt) (s : State) : (setPwr p x s).brg = s.brg := rfl
@[simp] theorem setPwr_loops (p : Nat) (x : PwrSt) (s : State) : (setPwr p x s).loops = s.loops := rfl
@[simp] theorem setPwr_vcore (p : Nat) (x : PwrSt) (s : State) : (setPwr p x s).vcore = s.vcore := rfl
@[simp] theorem setPwr_chkAt (p : Nat) (x : PwrSt) (s : State) : (setPwr p x s).chkAt = s.chkAt := rfl
@[simp] theorem setPwr_checkpoint (p : Nat) (x : PwrSt) (s : State) : (setPwr p x s).checkpoint = s.checkpoint := rfl
@[simp] theorem setPwr_protoErrs (p : Nat) (x : PwrSt) (s : State) : (setPwr p x s).protoErrs = s.protoErrs := rfl
@[simp] theorem setPwr_flash (p : Nat) (x : PwrSt) (s : State) : (setPwr p x s).flash = s.flash := rfl
@[simp] theorem setPwr_jmem (p : Nat) (x : PwrSt) (s : State) : (setPwr p x s).jmem = s.jmem := rfl
@[simp] theorem setPwr_ram (p : Nat) (x : PwrSt) (s : State) : (setPwr p x s).ram = s.ram := rfl
@[simp] theorem setPwr_out (p : Nat) (x : PwrSt) (s : State) : (setPwr p x s).out = s.out := rfl
@[simp] theorem setPwr_freeCount (p : Nat) (x : PwrSt) (s : State) : (setPwr p x s).freeCount = s.freeCount := rfl

@[simp] theorem setPwm_pending (k : Nat) (x : PwmSt) (s : State) : (setPwm k x s).pending = s.pending := rfl
@[simp] theorem setPwm_chip (k : Nat) (x : PwmSt) (s : State) : (setPwm k x s).chip = s.chip := rfl
@[simp] theorem setPwm_rollback (k : Nat) (x : PwmSt) (s : State) : (setPwm k x s).rollback = s.rollback := rfl
@[simp] theorem setPwm_pins (k : Nat) (x : PwmSt) (s : State) : (setPwm k x s).pins = s.pins := rfl
@[simp] theorem setPwm_now (k : Nat) (x : PwmSt) (s : State) : (setPwm k x s).now = s.now := rfl
@[simp] theorem setPwm_regs (k : Nat) (x : PwmSt) (s : State) : (setPwm k x s).regs = s.regs := rfl
@[simp] theorem setPwm_cfgB (k : Nat) (x : PwmSt) (s : State) : (setPwm k x s).cfgB = s.cfgB := rfl
@[simp] theorem setPwm_cfgA (k : Nat) (x : PwmSt) (s : State) : (setPwm k x s).cfgA = s.cfgA := rfl
@[simp] theorem setPwm_cfgO (k : Nat) (x : PwmSt) (s : State) : (setPwm k x s).cfgO = s.cfgO := rfl
@[simp] theorem setPwm_cfgX (k : Nat) (x : PwmSt) (s : State) : (setPwm k x s).cfgX = s.cfgX := rfl
@[simp] theorem setPwm_liveB (k : Nat) (x : PwmSt) (s : State) : (setPwm k x s).liveB = s.liveB := rfl
@[simp] theorem setPwm_liveA (k : Nat) (x : PwmSt) (s : State) : (setPwm k x s).liveA = s.liveA := rfl
@[simp] theorem setPwm_islEpoch (k : Nat) (x : PwmSt) (s : State) : (setPwm k x s).islEpoch = s.islEpoch := rfl
@[simp] theorem setPwm_ldr (k : Nat) (x : PwmSt) (s : State) : (setPwm k x s).ldr = s.ldr := rfl
@[simp] theorem setPwm_queues (k : Nat) (x : PwmSt) (s : State) : (setPwm k x s).queues = s.queues := rfl
@[simp] theorem setPwm_readPorts (k : Nat) (x : PwmSt) (s : State) : (setPwm k x s).readPorts = s.readPorts := rfl
@[simp] theorem setPwm_hostPorts (k : Nat) (x : PwmSt) (s : State) : (setPwm k x s).hostPorts = s.hostPorts := rfl
@[simp] theorem setPwm_svcStats (k : Nat) (x : PwmSt) (s : State) : (setPwm k x s).svcStats = s.svcStats := rfl
@[simp] theorem setPwm_jnl (k : Nat) (x : PwmSt) (s : State) : (setPwm k x s).jnl = s.jnl := rfl
@[simp] theorem setPwm_rsv (k : Nat) (x : PwmSt) (s : State) : (setPwm k x s).rsv = s.rsv := rfl
@[simp] theorem setPwm_cams (k : Nat) (x : PwmSt) (s : State) : (setPwm k x s).cams = s.cams := rfl
@[simp] theorem setPwm_twbs (k : Nat) (x : PwmSt) (s : State) : (setPwm k x s).twbs = s.twbs := rfl
@[simp] theorem setPwm_frames (k : Nat) (x : PwmSt) (s : State) : (setPwm k x s).frames = s.frames := rfl
@[simp] theorem setPwm_nextFrame (k : Nat) (x : PwmSt) (s : State) : (setPwm k x s).nextFrame = s.nextFrame := rfl
@[simp] theorem setPwm_running (k : Nat) (x : PwmSt) (s : State) : (setPwm k x s).running = s.running := rfl
@[simp] theorem setPwm_syncs (k : Nat) (x : PwmSt) (s : State) : (setPwm k x s).syncs = s.syncs := rfl
@[simp] theorem setPwm_statCount (k : Nat) (x : PwmSt) (s : State) : (setPwm k x s).statCount = s.statCount := rfl
@[simp] theorem setPwm_outs (k : Nat) (x : PwmSt) (s : State) : (setPwm k x s).outs = s.outs := rfl
@[simp] theorem setPwm_nextOut (k : Nat) (x : PwmSt) (s : State) : (setPwm k x s).nextOut = s.nextOut := rfl
@[simp] theorem setPwm_inAlive (k : Nat) (x : PwmSt) (s : State) : (setPwm k x s).inAlive = s.inAlive := rfl
@[simp] theorem setPwm_doneKeys (k : Nat) (x : PwmSt) (s : State) : (setPwm k x s).doneKeys = s.doneKeys := rfl
@[simp] theorem setPwm_holds (k : Nat) (x : PwmSt) (s : State) : (setPwm k x s).holds = s.holds := rfl
@[simp] theorem setPwm_txs (k : Nat) (x : PwmSt) (s : State) : (setPwm k x s).txs = s.txs := rfl
@[simp] theorem setPwm_chans (k : Nat) (x : PwmSt) (s : State) : (setPwm k x s).chans = s.chans := rfl
@[simp] theorem setPwm_weaves (k : Nat) (x : PwmSt) (s : State) : (setPwm k x s).weaves = s.weaves := rfl
@[simp] theorem setPwm_outFlows (k : Nat) (x : PwmSt) (s : State) : (setPwm k x s).outFlows = s.outFlows := rfl
@[simp] theorem setPwm_fab (k : Nat) (x : PwmSt) (s : State) : (setPwm k x s).fab = s.fab := rfl
@[simp] theorem setPwm_rly (k : Nat) (x : PwmSt) (s : State) : (setPwm k x s).rly = s.rly := rfl
@[simp] theorem setPwm_mnt (k : Nat) (x : PwmSt) (s : State) : (setPwm k x s).mnt = s.mnt := rfl
@[simp] theorem setPwm_time (k : Nat) (x : PwmSt) (s : State) : (setPwm k x s).time = s.time := rfl
@[simp] theorem setPwm_eths (k : Nat) (x : PwmSt) (s : State) : (setPwm k x s).eths = s.eths := rfl
@[simp] theorem setPwm_mot (k : Nat) (x : PwmSt) (s : State) : (setPwm k x s).mot = s.mot := rfl
@[simp] theorem setPwm_pwrs (k : Nat) (x : PwmSt) (s : State) : (setPwm k x s).pwrs = s.pwrs := rfl
@[simp] theorem setPwm_folds (k : Nat) (x : PwmSt) (s : State) : (setPwm k x s).folds = s.folds := rfl
@[simp] theorem setPwm_brg (k : Nat) (x : PwmSt) (s : State) : (setPwm k x s).brg = s.brg := rfl
@[simp] theorem setPwm_loops (k : Nat) (x : PwmSt) (s : State) : (setPwm k x s).loops = s.loops := rfl
@[simp] theorem setPwm_vcore (k : Nat) (x : PwmSt) (s : State) : (setPwm k x s).vcore = s.vcore := rfl
@[simp] theorem setPwm_chkAt (k : Nat) (x : PwmSt) (s : State) : (setPwm k x s).chkAt = s.chkAt := rfl
@[simp] theorem setPwm_checkpoint (k : Nat) (x : PwmSt) (s : State) : (setPwm k x s).checkpoint = s.checkpoint := rfl
@[simp] theorem setPwm_protoErrs (k : Nat) (x : PwmSt) (s : State) : (setPwm k x s).protoErrs = s.protoErrs := rfl
@[simp] theorem setPwm_flash (k : Nat) (x : PwmSt) (s : State) : (setPwm k x s).flash = s.flash := rfl
@[simp] theorem setPwm_jmem (k : Nat) (x : PwmSt) (s : State) : (setPwm k x s).jmem = s.jmem := rfl
@[simp] theorem setPwm_ram (k : Nat) (x : PwmSt) (s : State) : (setPwm k x s).ram = s.ram := rfl
@[simp] theorem setPwm_out (k : Nat) (x : PwmSt) (s : State) : (setPwm k x s).out = s.out := rfl
@[simp] theorem setPwm_freeCount (k : Nat) (x : PwmSt) (s : State) : (setPwm k x s).freeCount = s.freeCount := rfl

@[simp] theorem setPf_pending (o : Nat) (b : PfBuf) (s : State) : (setPf o b s).pending = s.pending := rfl
@[simp] theorem setPf_chip (o : Nat) (b : PfBuf) (s : State) : (setPf o b s).chip = s.chip := rfl
@[simp] theorem setPf_rollback (o : Nat) (b : PfBuf) (s : State) : (setPf o b s).rollback = s.rollback := rfl
@[simp] theorem setPf_pins (o : Nat) (b : PfBuf) (s : State) : (setPf o b s).pins = s.pins := rfl
@[simp] theorem setPf_now (o : Nat) (b : PfBuf) (s : State) : (setPf o b s).now = s.now := rfl
@[simp] theorem setPf_regs (o : Nat) (b : PfBuf) (s : State) : (setPf o b s).regs = s.regs := rfl
@[simp] theorem setPf_cfgB (o : Nat) (b : PfBuf) (s : State) : (setPf o b s).cfgB = s.cfgB := rfl
@[simp] theorem setPf_cfgA (o : Nat) (b : PfBuf) (s : State) : (setPf o b s).cfgA = s.cfgA := rfl
@[simp] theorem setPf_cfgO (o : Nat) (b : PfBuf) (s : State) : (setPf o b s).cfgO = s.cfgO := rfl
@[simp] theorem setPf_cfgX (o : Nat) (b : PfBuf) (s : State) : (setPf o b s).cfgX = s.cfgX := rfl
@[simp] theorem setPf_liveB (o : Nat) (b : PfBuf) (s : State) : (setPf o b s).liveB = s.liveB := rfl
@[simp] theorem setPf_liveA (o : Nat) (b : PfBuf) (s : State) : (setPf o b s).liveA = s.liveA := rfl
@[simp] theorem setPf_islEpoch (o : Nat) (b : PfBuf) (s : State) : (setPf o b s).islEpoch = s.islEpoch := rfl
@[simp] theorem setPf_ldr (o : Nat) (b : PfBuf) (s : State) : (setPf o b s).ldr = s.ldr := rfl
@[simp] theorem setPf_queues (o : Nat) (b : PfBuf) (s : State) : (setPf o b s).queues = s.queues := rfl
@[simp] theorem setPf_readPorts (o : Nat) (b : PfBuf) (s : State) : (setPf o b s).readPorts = s.readPorts := rfl
@[simp] theorem setPf_hostPorts (o : Nat) (b : PfBuf) (s : State) : (setPf o b s).hostPorts = s.hostPorts := rfl
@[simp] theorem setPf_svcStats (o : Nat) (b : PfBuf) (s : State) : (setPf o b s).svcStats = s.svcStats := rfl
@[simp] theorem setPf_jnl (o : Nat) (b : PfBuf) (s : State) : (setPf o b s).jnl = s.jnl := rfl
@[simp] theorem setPf_rsv (o : Nat) (b : PfBuf) (s : State) : (setPf o b s).rsv = s.rsv := rfl
@[simp] theorem setPf_cams (o : Nat) (b : PfBuf) (s : State) : (setPf o b s).cams = s.cams := rfl
@[simp] theorem setPf_twbs (o : Nat) (b : PfBuf) (s : State) : (setPf o b s).twbs = s.twbs := rfl
@[simp] theorem setPf_frames (o : Nat) (b : PfBuf) (s : State) : (setPf o b s).frames = s.frames := rfl
@[simp] theorem setPf_nextFrame (o : Nat) (b : PfBuf) (s : State) : (setPf o b s).nextFrame = s.nextFrame := rfl
@[simp] theorem setPf_running (o : Nat) (b : PfBuf) (s : State) : (setPf o b s).running = s.running := rfl
@[simp] theorem setPf_syncs (o : Nat) (b : PfBuf) (s : State) : (setPf o b s).syncs = s.syncs := rfl
@[simp] theorem setPf_statCount (o : Nat) (b : PfBuf) (s : State) : (setPf o b s).statCount = s.statCount := rfl
@[simp] theorem setPf_outs (o : Nat) (b : PfBuf) (s : State) : (setPf o b s).outs = s.outs := rfl
@[simp] theorem setPf_nextOut (o : Nat) (b : PfBuf) (s : State) : (setPf o b s).nextOut = s.nextOut := rfl
@[simp] theorem setPf_inAlive (o : Nat) (b : PfBuf) (s : State) : (setPf o b s).inAlive = s.inAlive := rfl
@[simp] theorem setPf_doneKeys (o : Nat) (b : PfBuf) (s : State) : (setPf o b s).doneKeys = s.doneKeys := rfl
@[simp] theorem setPf_holds (o : Nat) (b : PfBuf) (s : State) : (setPf o b s).holds = s.holds := rfl
@[simp] theorem setPf_txs (o : Nat) (b : PfBuf) (s : State) : (setPf o b s).txs = s.txs := rfl
@[simp] theorem setPf_chans (o : Nat) (b : PfBuf) (s : State) : (setPf o b s).chans = s.chans := rfl
@[simp] theorem setPf_weaves (o : Nat) (b : PfBuf) (s : State) : (setPf o b s).weaves = s.weaves := rfl
@[simp] theorem setPf_outFlows (o : Nat) (b : PfBuf) (s : State) : (setPf o b s).outFlows = s.outFlows := rfl
@[simp] theorem setPf_fab (o : Nat) (b : PfBuf) (s : State) : (setPf o b s).fab = s.fab := rfl
@[simp] theorem setPf_rly (o : Nat) (b : PfBuf) (s : State) : (setPf o b s).rly = s.rly := rfl
@[simp] theorem setPf_mnt (o : Nat) (b : PfBuf) (s : State) : (setPf o b s).mnt = s.mnt := rfl
@[simp] theorem setPf_time (o : Nat) (b : PfBuf) (s : State) : (setPf o b s).time = s.time := rfl
@[simp] theorem setPf_eths (o : Nat) (b : PfBuf) (s : State) : (setPf o b s).eths = s.eths := rfl
@[simp] theorem setPf_mot (o : Nat) (b : PfBuf) (s : State) : (setPf o b s).mot = s.mot := rfl
@[simp] theorem setPf_pwrs (o : Nat) (b : PfBuf) (s : State) : (setPf o b s).pwrs = s.pwrs := rfl
@[simp] theorem setPf_pwms (o : Nat) (b : PfBuf) (s : State) : (setPf o b s).pwms = s.pwms := rfl
@[simp] theorem setPf_folds (o : Nat) (b : PfBuf) (s : State) : (setPf o b s).folds = s.folds := rfl
@[simp] theorem setPf_loops (o : Nat) (b : PfBuf) (s : State) : (setPf o b s).loops = s.loops := rfl
@[simp] theorem setPf_vcore (o : Nat) (b : PfBuf) (s : State) : (setPf o b s).vcore = s.vcore := rfl
@[simp] theorem setPf_chkAt (o : Nat) (b : PfBuf) (s : State) : (setPf o b s).chkAt = s.chkAt := rfl
@[simp] theorem setPf_checkpoint (o : Nat) (b : PfBuf) (s : State) : (setPf o b s).checkpoint = s.checkpoint := rfl
@[simp] theorem setPf_protoErrs (o : Nat) (b : PfBuf) (s : State) : (setPf o b s).protoErrs = s.protoErrs := rfl
@[simp] theorem setPf_flash (o : Nat) (b : PfBuf) (s : State) : (setPf o b s).flash = s.flash := rfl
@[simp] theorem setPf_jmem (o : Nat) (b : PfBuf) (s : State) : (setPf o b s).jmem = s.jmem := rfl
@[simp] theorem setPf_ram (o : Nat) (b : PfBuf) (s : State) : (setPf o b s).ram = s.ram := rfl
@[simp] theorem setPf_out (o : Nat) (b : PfBuf) (s : State) : (setPf o b s).out = s.out := rfl
@[simp] theorem setPf_freeCount (o : Nat) (b : PfBuf) (s : State) : (setPf o b s).freeCount = s.freeCount := rfl

@[simp] theorem setLoop_pending (c : Nat) (x : LoopSt) (s : State) : (setLoop c x s).pending = s.pending := rfl
@[simp] theorem setLoop_chip (c : Nat) (x : LoopSt) (s : State) : (setLoop c x s).chip = s.chip := rfl
@[simp] theorem setLoop_rollback (c : Nat) (x : LoopSt) (s : State) : (setLoop c x s).rollback = s.rollback := rfl
@[simp] theorem setLoop_pins (c : Nat) (x : LoopSt) (s : State) : (setLoop c x s).pins = s.pins := rfl
@[simp] theorem setLoop_now (c : Nat) (x : LoopSt) (s : State) : (setLoop c x s).now = s.now := rfl
@[simp] theorem setLoop_regs (c : Nat) (x : LoopSt) (s : State) : (setLoop c x s).regs = s.regs := rfl
@[simp] theorem setLoop_cfgB (c : Nat) (x : LoopSt) (s : State) : (setLoop c x s).cfgB = s.cfgB := rfl
@[simp] theorem setLoop_cfgA (c : Nat) (x : LoopSt) (s : State) : (setLoop c x s).cfgA = s.cfgA := rfl
@[simp] theorem setLoop_cfgO (c : Nat) (x : LoopSt) (s : State) : (setLoop c x s).cfgO = s.cfgO := rfl
@[simp] theorem setLoop_cfgX (c : Nat) (x : LoopSt) (s : State) : (setLoop c x s).cfgX = s.cfgX := rfl
@[simp] theorem setLoop_liveB (c : Nat) (x : LoopSt) (s : State) : (setLoop c x s).liveB = s.liveB := rfl
@[simp] theorem setLoop_liveA (c : Nat) (x : LoopSt) (s : State) : (setLoop c x s).liveA = s.liveA := rfl
@[simp] theorem setLoop_islEpoch (c : Nat) (x : LoopSt) (s : State) : (setLoop c x s).islEpoch = s.islEpoch := rfl
@[simp] theorem setLoop_ldr (c : Nat) (x : LoopSt) (s : State) : (setLoop c x s).ldr = s.ldr := rfl
@[simp] theorem setLoop_queues (c : Nat) (x : LoopSt) (s : State) : (setLoop c x s).queues = s.queues := rfl
@[simp] theorem setLoop_readPorts (c : Nat) (x : LoopSt) (s : State) : (setLoop c x s).readPorts = s.readPorts := rfl
@[simp] theorem setLoop_hostPorts (c : Nat) (x : LoopSt) (s : State) : (setLoop c x s).hostPorts = s.hostPorts := rfl
@[simp] theorem setLoop_svcStats (c : Nat) (x : LoopSt) (s : State) : (setLoop c x s).svcStats = s.svcStats := rfl
@[simp] theorem setLoop_jnl (c : Nat) (x : LoopSt) (s : State) : (setLoop c x s).jnl = s.jnl := rfl
@[simp] theorem setLoop_rsv (c : Nat) (x : LoopSt) (s : State) : (setLoop c x s).rsv = s.rsv := rfl
@[simp] theorem setLoop_cams (c : Nat) (x : LoopSt) (s : State) : (setLoop c x s).cams = s.cams := rfl
@[simp] theorem setLoop_twbs (c : Nat) (x : LoopSt) (s : State) : (setLoop c x s).twbs = s.twbs := rfl
@[simp] theorem setLoop_frames (c : Nat) (x : LoopSt) (s : State) : (setLoop c x s).frames = s.frames := rfl
@[simp] theorem setLoop_nextFrame (c : Nat) (x : LoopSt) (s : State) : (setLoop c x s).nextFrame = s.nextFrame := rfl
@[simp] theorem setLoop_running (c : Nat) (x : LoopSt) (s : State) : (setLoop c x s).running = s.running := rfl
@[simp] theorem setLoop_syncs (c : Nat) (x : LoopSt) (s : State) : (setLoop c x s).syncs = s.syncs := rfl
@[simp] theorem setLoop_statCount (c : Nat) (x : LoopSt) (s : State) : (setLoop c x s).statCount = s.statCount := rfl
@[simp] theorem setLoop_outs (c : Nat) (x : LoopSt) (s : State) : (setLoop c x s).outs = s.outs := rfl
@[simp] theorem setLoop_nextOut (c : Nat) (x : LoopSt) (s : State) : (setLoop c x s).nextOut = s.nextOut := rfl
@[simp] theorem setLoop_inAlive (c : Nat) (x : LoopSt) (s : State) : (setLoop c x s).inAlive = s.inAlive := rfl
@[simp] theorem setLoop_doneKeys (c : Nat) (x : LoopSt) (s : State) : (setLoop c x s).doneKeys = s.doneKeys := rfl
@[simp] theorem setLoop_holds (c : Nat) (x : LoopSt) (s : State) : (setLoop c x s).holds = s.holds := rfl
@[simp] theorem setLoop_txs (c : Nat) (x : LoopSt) (s : State) : (setLoop c x s).txs = s.txs := rfl
@[simp] theorem setLoop_chans (c : Nat) (x : LoopSt) (s : State) : (setLoop c x s).chans = s.chans := rfl
@[simp] theorem setLoop_weaves (c : Nat) (x : LoopSt) (s : State) : (setLoop c x s).weaves = s.weaves := rfl
@[simp] theorem setLoop_outFlows (c : Nat) (x : LoopSt) (s : State) : (setLoop c x s).outFlows = s.outFlows := rfl
@[simp] theorem setLoop_fab (c : Nat) (x : LoopSt) (s : State) : (setLoop c x s).fab = s.fab := rfl
@[simp] theorem setLoop_rly (c : Nat) (x : LoopSt) (s : State) : (setLoop c x s).rly = s.rly := rfl
@[simp] theorem setLoop_mnt (c : Nat) (x : LoopSt) (s : State) : (setLoop c x s).mnt = s.mnt := rfl
@[simp] theorem setLoop_time (c : Nat) (x : LoopSt) (s : State) : (setLoop c x s).time = s.time := rfl
@[simp] theorem setLoop_eths (c : Nat) (x : LoopSt) (s : State) : (setLoop c x s).eths = s.eths := rfl
@[simp] theorem setLoop_mot (c : Nat) (x : LoopSt) (s : State) : (setLoop c x s).mot = s.mot := rfl
@[simp] theorem setLoop_pwrs (c : Nat) (x : LoopSt) (s : State) : (setLoop c x s).pwrs = s.pwrs := rfl
@[simp] theorem setLoop_pwms (c : Nat) (x : LoopSt) (s : State) : (setLoop c x s).pwms = s.pwms := rfl
@[simp] theorem setLoop_folds (c : Nat) (x : LoopSt) (s : State) : (setLoop c x s).folds = s.folds := rfl
@[simp] theorem setLoop_brg (c : Nat) (x : LoopSt) (s : State) : (setLoop c x s).brg = s.brg := rfl
@[simp] theorem setLoop_vcore (c : Nat) (x : LoopSt) (s : State) : (setLoop c x s).vcore = s.vcore := rfl
@[simp] theorem setLoop_chkAt (c : Nat) (x : LoopSt) (s : State) : (setLoop c x s).chkAt = s.chkAt := rfl
@[simp] theorem setLoop_checkpoint (c : Nat) (x : LoopSt) (s : State) : (setLoop c x s).checkpoint = s.checkpoint := rfl
@[simp] theorem setLoop_protoErrs (c : Nat) (x : LoopSt) (s : State) : (setLoop c x s).protoErrs = s.protoErrs := rfl
@[simp] theorem setLoop_flash (c : Nat) (x : LoopSt) (s : State) : (setLoop c x s).flash = s.flash := rfl
@[simp] theorem setLoop_jmem (c : Nat) (x : LoopSt) (s : State) : (setLoop c x s).jmem = s.jmem := rfl
@[simp] theorem setLoop_ram (c : Nat) (x : LoopSt) (s : State) : (setLoop c x s).ram = s.ram := rfl
@[simp] theorem setLoop_out (c : Nat) (x : LoopSt) (s : State) : (setLoop c x s).out = s.out := rfl
@[simp] theorem setLoop_freeCount (c : Nat) (x : LoopSt) (s : State) : (setLoop c x s).freeCount = s.freeCount := rfl

/-! ## Accessors after their own update, and where their field stands -/

theorem queueOf_setQueue (q : Nat) (x : QueueSt) (j : Nat) (s : State) : queueOf (setQueue q x s) j = if q = j then x else queueOf s j := sget_sset _ _ _ _ _
@[simp] theorem queueOf_setQueue_same (q : Nat) (x : QueueSt) (s : State) : queueOf (setQueue q x s) q = x := sget_sset_same _ _ _ _
theorem queueOf_setQueue_ne (q : Nat) (x : QueueSt) {j : Nat} (s : State) (h : q ≠ j) : queueOf (setQueue q x s) j = queueOf s j := sget_sset_ne _ _ _ _ _ h
theorem queueOf_congr {s t : State} (h : t.queues = s.queues) (j : Nat) : queueOf t j = queueOf s j := by unfold queueOf; rw [h]
@[simp] theorem queueOf_setReg (a : Nat) (w : Word) (j : Nat) (s : State) : queueOf (setReg a w s) j = queueOf s j := rfl
@[simp] theorem queueOf_wr (r : RF) (v : Nat) (j : Nat) (s : State) : queueOf (wr r v s) j = queueOf s j := rfl
@[simp] theorem queueOf_addSat (r : RF) (d : Nat) (j : Nat) (s : State) : queueOf (addSat r d s) j = queueOf s j := rfl
@[simp] theorem queueOf_inc (r : RF) (j : Nat) (s : State) : queueOf (inc r s) j = queueOf s j := rfl
@[simp] theorem queueOf_incWrap (r : RF) (j : Nat) (s : State) : queueOf (incWrap r s) j = queueOf s j := rfl
@[simp] theorem queueOf_emit (e : Emit) (j : Nat) (s : State) : queueOf (emit e s) j = queueOf s j := rfl
@[simp] theorem queueOf_setPin (g n l : Nat) (j : Nat) (s : State) : queueOf (setPin g n l s) j = queueOf s j := rfl

theorem portOf_setPort (r : Nat) (x : PortSt) (j : Nat) (s : State) : portOf (setPort r x s) j = if r = j then x else portOf s j := sget_sset _ _ _ _ _
@[simp] theorem portOf_setPort_same (r : Nat) (x : PortSt) (s : State) : portOf (setPort r x s) r = x := sget_sset_same _ _ _ _
theorem portOf_setPort_ne (r : Nat) (x : PortSt) {j : Nat} (s : State) (h : r ≠ j) : portOf (setPort r x s) j = portOf s j := sget_sset_ne _ _ _ _ _ h
theorem portOf_congr {s t : State} (h : t.readPorts = s.readPorts) (j : Nat) : portOf t j = portOf s j := by unfold portOf; rw [h]
@[simp] theorem portOf_setReg (a : Nat) (w : Word) (j : Nat) (s : State) : portOf (setReg a w s) j = portOf s j := rfl
@[simp] theorem portOf_wr (r : RF) (v : Nat) (j : Nat) (s : State) : portOf (wr r v s) j = portOf s j := rfl
@[simp] theorem portOf_addSat (r : RF) (d : Nat) (j : Nat) (s : State) : portOf (addSat r d s) j = portOf s j := rfl
@[simp] theorem portOf_inc (r : RF) (j : Nat) (s : State) : portOf (inc r s) j = portOf s j := rfl
@[simp] theorem portOf_incWrap (r : RF) (j : Nat) (s : State) : portOf (incWrap r s) j = portOf s j := rfl
@[simp] theorem portOf_emit (e : Emit) (j : Nat) (s : State) : portOf (emit e s) j = portOf s j := rfl
@[simp] theorem portOf_setPin (g n l : Nat) (j : Nat) (s : State) : portOf (setPin g n l s) j = portOf s j := rfl

theorem hostPort_setHostPort (p : Nat) (x : HostPortSt) (j : Nat) (s : State) : hostPort (setHostPort p x s) j = if p = j then x else hostPort s j := sget_sset _ _ _ _ _
@[simp] theorem hostPort_setHostPort_same (p : Nat) (x : HostPortSt) (s : State) : hostPort (setHostPort p x s) p = x := sget_sset_same _ _ _ _
theorem hostPort_setHostPort_ne (p : Nat) (x : HostPortSt) {j : Nat} (s : State) (h : p ≠ j) : hostPort (setHostPort p x s) j = hostPort s j := sget_sset_ne _ _ _ _ _ h
theorem hostPort_congr {s t : State} (h : t.hostPorts = s.hostPorts) (j : Nat) : hostPort t j = hostPort s j := by unfold hostPort; rw [h]
@[simp] theorem hostPort_setReg (a : Nat) (w : Word) (j : Nat) (s : State) : hostPort (setReg a w s) j = hostPort s j := rfl
@[simp] theorem hostPort_wr (r : RF) (v : Nat) (j : Nat) (s : State) : hostPort (wr r v s) j = hostPort s j := rfl
@[simp] theorem hostPort_addSat (r : RF) (d : Nat) (j : Nat) (s : State) : hostPort (addSat r d s) j = hostPort s j := rfl
@[simp] theorem hostPort_inc (r : RF) (j : Nat) (s : State) : hostPort (inc r s) j = hostPort s j := rfl
@[simp] theorem hostPort_incWrap (r : RF) (j : Nat) (s : State) : hostPort (incWrap r s) j = hostPort s j := rfl
@[simp] theorem hostPort_emit (e : Emit) (j : Nat) (s : State) : hostPort (emit e s) j = hostPort s j := rfl
@[simp] theorem hostPort_setPin (g n l : Nat) (j : Nat) (s : State) : hostPort (setPin g n l s) j = hostPort s j := rfl

theorem camOf_setCam (p : Nat) (x : CamSt) (j : Nat) (s : State) : camOf (setCam p x s) j = if p = j then x else camOf s j := sget_sset _ _ _ _ _
@[simp] theorem camOf_setCam_same (p : Nat) (x : CamSt) (s : State) : camOf (setCam p x s) p = x := sget_sset_same _ _ _ _
theorem camOf_setCam_ne (p : Nat) (x : CamSt) {j : Nat} (s : State) (h : p ≠ j) : camOf (setCam p x s) j = camOf s j := sget_sset_ne _ _ _ _ _ h
theorem camOf_congr {s t : State} (h : t.cams = s.cams) (j : Nat) : camOf t j = camOf s j := by unfold camOf; rw [h]
@[simp] theorem camOf_setReg (a : Nat) (w : Word) (j : Nat) (s : State) : camOf (setReg a w s) j = camOf s j := rfl
@[simp] theorem camOf_wr (r : RF) (v : Nat) (j : Nat) (s : State) : camOf (wr r v s) j = camOf s j := rfl
@[simp] theorem camOf_addSat (r : RF) (d : Nat) (j : Nat) (s : State) : camOf (addSat r d s) j = camOf s j := rfl
@[simp] theorem camOf_inc (r : RF) (j : Nat) (s : State) : camOf (inc r s) j = camOf s j := rfl
@[simp] theorem camOf_incWrap (r : RF) (j : Nat) (s : State) : camOf (incWrap r s) j = camOf s j := rfl
@[simp] theorem camOf_emit (e : Emit) (j : Nat) (s : State) : camOf (emit e s) j = camOf s j := rfl
@[simp] theorem camOf_setPin (g n l : Nat) (j : Nat) (s : State) : camOf (setPin g n l s) j = camOf s j := rfl

theorem twbOf_setTwb (i : Nat) (x : TwbSt) (j : Nat) (s : State) : twbOf (setTwb i x s) j = if i = j then x else twbOf s j := sget_sset _ _ _ _ _
@[simp] theorem twbOf_setTwb_same (i : Nat) (x : TwbSt) (s : State) : twbOf (setTwb i x s) i = x := sget_sset_same _ _ _ _
theorem twbOf_setTwb_ne (i : Nat) (x : TwbSt) {j : Nat} (s : State) (h : i ≠ j) : twbOf (setTwb i x s) j = twbOf s j := sget_sset_ne _ _ _ _ _ h
theorem twbOf_congr {s t : State} (h : t.twbs = s.twbs) (j : Nat) : twbOf t j = twbOf s j := by unfold twbOf; rw [h]
@[simp] theorem twbOf_setReg (a : Nat) (w : Word) (j : Nat) (s : State) : twbOf (setReg a w s) j = twbOf s j := rfl
@[simp] theorem twbOf_wr (r : RF) (v : Nat) (j : Nat) (s : State) : twbOf (wr r v s) j = twbOf s j := rfl
@[simp] theorem twbOf_addSat (r : RF) (d : Nat) (j : Nat) (s : State) : twbOf (addSat r d s) j = twbOf s j := rfl
@[simp] theorem twbOf_inc (r : RF) (j : Nat) (s : State) : twbOf (inc r s) j = twbOf s j := rfl
@[simp] theorem twbOf_incWrap (r : RF) (j : Nat) (s : State) : twbOf (incWrap r s) j = twbOf s j := rfl
@[simp] theorem twbOf_emit (e : Emit) (j : Nat) (s : State) : twbOf (emit e s) j = twbOf s j := rfl
@[simp] theorem twbOf_setPin (g n l : Nat) (j : Nat) (s : State) : twbOf (setPin g n l s) j = twbOf s j := rfl

theorem chanOf_setChan (c : Nat) (x : ChanSt) (j : Nat) (s : State) : chanOf (setChan c x s) j = if c = j then x else chanOf s j := sget_sset _ _ _ _ _
@[simp] theorem chanOf_setChan_same (c : Nat) (x : ChanSt) (s : State) : chanOf (setChan c x s) c = x := sget_sset_same _ _ _ _
theorem chanOf_setChan_ne (c : Nat) (x : ChanSt) {j : Nat} (s : State) (h : c ≠ j) : chanOf (setChan c x s) j = chanOf s j := sget_sset_ne _ _ _ _ _ h
theorem chanOf_congr {s t : State} (h : t.chans = s.chans) (j : Nat) : chanOf t j = chanOf s j := by unfold chanOf; rw [h]
@[simp] theorem chanOf_setReg (a : Nat) (w : Word) (j : Nat) (s : State) : chanOf (setReg a w s) j = chanOf s j := rfl
@[simp] theorem chanOf_wr (r : RF) (v : Nat) (j : Nat) (s : State) : chanOf (wr r v s) j = chanOf s j := rfl
@[simp] theorem chanOf_addSat (r : RF) (d : Nat) (j : Nat) (s : State) : chanOf (addSat r d s) j = chanOf s j := rfl
@[simp] theorem chanOf_inc (r : RF) (j : Nat) (s : State) : chanOf (inc r s) j = chanOf s j := rfl
@[simp] theorem chanOf_incWrap (r : RF) (j : Nat) (s : State) : chanOf (incWrap r s) j = chanOf s j := rfl
@[simp] theorem chanOf_emit (e : Emit) (j : Nat) (s : State) : chanOf (emit e s) j = chanOf s j := rfl
@[simp] theorem chanOf_setPin (g n l : Nat) (j : Nat) (s : State) : chanOf (setPin g n l s) j = chanOf s j := rfl

theorem holdOf_setHold (c : Nat) (x : HoldSt) (j : Nat) (s : State) : holdOf (setHold c x s) j = if c = j then x else holdOf s j := sget_sset _ _ _ _ _
@[simp] theorem holdOf_setHold_same (c : Nat) (x : HoldSt) (s : State) : holdOf (setHold c x s) c = x := sget_sset_same _ _ _ _
theorem holdOf_setHold_ne (c : Nat) (x : HoldSt) {j : Nat} (s : State) (h : c ≠ j) : holdOf (setHold c x s) j = holdOf s j := sget_sset_ne _ _ _ _ _ h
theorem holdOf_congr {s t : State} (h : t.holds = s.holds) (j : Nat) : holdOf t j = holdOf s j := by unfold holdOf; rw [h]
@[simp] theorem holdOf_setReg (a : Nat) (w : Word) (j : Nat) (s : State) : holdOf (setReg a w s) j = holdOf s j := rfl
@[simp] theorem holdOf_wr (r : RF) (v : Nat) (j : Nat) (s : State) : holdOf (wr r v s) j = holdOf s j := rfl
@[simp] theorem holdOf_addSat (r : RF) (d : Nat) (j : Nat) (s : State) : holdOf (addSat r d s) j = holdOf s j := rfl
@[simp] theorem holdOf_inc (r : RF) (j : Nat) (s : State) : holdOf (inc r s) j = holdOf s j := rfl
@[simp] theorem holdOf_incWrap (r : RF) (j : Nat) (s : State) : holdOf (incWrap r s) j = holdOf s j := rfl
@[simp] theorem holdOf_emit (e : Emit) (j : Nat) (s : State) : holdOf (emit e s) j = holdOf s j := rfl
@[simp] theorem holdOf_setPin (g n l : Nat) (j : Nat) (s : State) : holdOf (setPin g n l s) j = holdOf s j := rfl

theorem txOf_setTx (p : Nat) (x : TxSt) (j : Nat) (s : State) : txOf (setTx p x s) j = if p = j then x else txOf s j := sget_sset _ _ _ _ _
@[simp] theorem txOf_setTx_same (p : Nat) (x : TxSt) (s : State) : txOf (setTx p x s) p = x := sget_sset_same _ _ _ _
theorem txOf_setTx_ne (p : Nat) (x : TxSt) {j : Nat} (s : State) (h : p ≠ j) : txOf (setTx p x s) j = txOf s j := sget_sset_ne _ _ _ _ _ h
theorem txOf_congr {s t : State} (h : t.txs = s.txs) (j : Nat) : txOf t j = txOf s j := by unfold txOf; rw [h]
@[simp] theorem txOf_setReg (a : Nat) (w : Word) (j : Nat) (s : State) : txOf (setReg a w s) j = txOf s j := rfl
@[simp] theorem txOf_wr (r : RF) (v : Nat) (j : Nat) (s : State) : txOf (wr r v s) j = txOf s j := rfl
@[simp] theorem txOf_addSat (r : RF) (d : Nat) (j : Nat) (s : State) : txOf (addSat r d s) j = txOf s j := rfl
@[simp] theorem txOf_inc (r : RF) (j : Nat) (s : State) : txOf (inc r s) j = txOf s j := rfl
@[simp] theorem txOf_incWrap (r : RF) (j : Nat) (s : State) : txOf (incWrap r s) j = txOf s j := rfl
@[simp] theorem txOf_emit (e : Emit) (j : Nat) (s : State) : txOf (emit e s) j = txOf s j := rfl
@[simp] theorem txOf_setPin (g n l : Nat) (j : Nat) (s : State) : txOf (setPin g n l s) j = txOf s j := rfl

theorem wvOf_setWv (p : Nat) (x : WvSt) (j : Nat) (s : State) : wvOf (setWv p x s) j = if p = j then x else wvOf s j := sget_sset _ _ _ _ _
@[simp] theorem wvOf_setWv_same (p : Nat) (x : WvSt) (s : State) : wvOf (setWv p x s) p = x := sget_sset_same _ _ _ _
theorem wvOf_setWv_ne (p : Nat) (x : WvSt) {j : Nat} (s : State) (h : p ≠ j) : wvOf (setWv p x s) j = wvOf s j := sget_sset_ne _ _ _ _ _ h
theorem wvOf_congr {s t : State} (h : t.weaves = s.weaves) (j : Nat) : wvOf t j = wvOf s j := by unfold wvOf; rw [h]
@[simp] theorem wvOf_setReg (a : Nat) (w : Word) (j : Nat) (s : State) : wvOf (setReg a w s) j = wvOf s j := rfl
@[simp] theorem wvOf_wr (r : RF) (v : Nat) (j : Nat) (s : State) : wvOf (wr r v s) j = wvOf s j := rfl
@[simp] theorem wvOf_addSat (r : RF) (d : Nat) (j : Nat) (s : State) : wvOf (addSat r d s) j = wvOf s j := rfl
@[simp] theorem wvOf_inc (r : RF) (j : Nat) (s : State) : wvOf (inc r s) j = wvOf s j := rfl
@[simp] theorem wvOf_incWrap (r : RF) (j : Nat) (s : State) : wvOf (incWrap r s) j = wvOf s j := rfl
@[simp] theorem wvOf_emit (e : Emit) (j : Nat) (s : State) : wvOf (emit e s) j = wvOf s j := rfl
@[simp] theorem wvOf_setPin (g n l : Nat) (j : Nat) (s : State) : wvOf (setPin g n l s) j = wvOf s j := rfl

theorem ethOf_setEth (p : Nat) (x : EthSt) (j : Nat) (s : State) : ethOf (setEth p x s) j = if p = j then x else ethOf s j := sget_sset _ _ _ _ _
@[simp] theorem ethOf_setEth_same (p : Nat) (x : EthSt) (s : State) : ethOf (setEth p x s) p = x := sget_sset_same _ _ _ _
theorem ethOf_setEth_ne (p : Nat) (x : EthSt) {j : Nat} (s : State) (h : p ≠ j) : ethOf (setEth p x s) j = ethOf s j := sget_sset_ne _ _ _ _ _ h
theorem ethOf_congr {s t : State} (h : t.eths = s.eths) (j : Nat) : ethOf t j = ethOf s j := by unfold ethOf; rw [h]
@[simp] theorem ethOf_setReg (a : Nat) (w : Word) (j : Nat) (s : State) : ethOf (setReg a w s) j = ethOf s j := rfl
@[simp] theorem ethOf_wr (r : RF) (v : Nat) (j : Nat) (s : State) : ethOf (wr r v s) j = ethOf s j := rfl
@[simp] theorem ethOf_addSat (r : RF) (d : Nat) (j : Nat) (s : State) : ethOf (addSat r d s) j = ethOf s j := rfl
@[simp] theorem ethOf_inc (r : RF) (j : Nat) (s : State) : ethOf (inc r s) j = ethOf s j := rfl
@[simp] theorem ethOf_incWrap (r : RF) (j : Nat) (s : State) : ethOf (incWrap r s) j = ethOf s j := rfl
@[simp] theorem ethOf_emit (e : Emit) (j : Nat) (s : State) : ethOf (emit e s) j = ethOf s j := rfl
@[simp] theorem ethOf_setPin (g n l : Nat) (j : Nat) (s : State) : ethOf (setPin g n l s) j = ethOf s j := rfl

theorem chSt_setCh (n : Nat) (x : ChSt) (j : Nat) (s : State) : chSt (setCh n x s) j = if n = j then x else chSt s j := sget_sset _ _ _ _ _
@[simp] theorem chSt_setCh_same (n : Nat) (x : ChSt) (s : State) : chSt (setCh n x s) n = x := sget_sset_same _ _ _ _
theorem chSt_setCh_ne (n : Nat) (x : ChSt) {j : Nat} (s : State) (h : n ≠ j) : chSt (setCh n x s) j = chSt s j := sget_sset_ne _ _ _ _ _ h
theorem chSt_congr {s t : State} (h : t.mot = s.mot) (j : Nat) : chSt t j = chSt s j := by unfold chSt; rw [h]
@[simp] theorem chSt_setReg (a : Nat) (w : Word) (j : Nat) (s : State) : chSt (setReg a w s) j = chSt s j := rfl
@[simp] theorem chSt_wr (r : RF) (v : Nat) (j : Nat) (s : State) : chSt (wr r v s) j = chSt s j := rfl
@[simp] theorem chSt_addSat (r : RF) (d : Nat) (j : Nat) (s : State) : chSt (addSat r d s) j = chSt s j := rfl
@[simp] theorem chSt_inc (r : RF) (j : Nat) (s : State) : chSt (inc r s) j = chSt s j := rfl
@[simp] theorem chSt_incWrap (r : RF) (j : Nat) (s : State) : chSt (incWrap r s) j = chSt s j := rfl
@[simp] theorem chSt_emit (e : Emit) (j : Nat) (s : State) : chSt (emit e s) j = chSt s j := rfl
@[simp] theorem chSt_setPin (g n l : Nat) (j : Nat) (s : State) : chSt (setPin g n l s) j = chSt s j := rfl

theorem emuOf_setEmu (e : Nat) (x : EmuSt) (j : Nat) (s : State) : emuOf (setEmu e x s) j = if e = j then x else emuOf s j := sget_sset _ _ _ _ _
@[simp] theorem emuOf_setEmu_same (e : Nat) (x : EmuSt) (s : State) : emuOf (setEmu e x s) e = x := sget_sset_same _ _ _ _
theorem emuOf_setEmu_ne (e : Nat) (x : EmuSt) {j : Nat} (s : State) (h : e ≠ j) : emuOf (setEmu e x s) j = emuOf s j := sget_sset_ne _ _ _ _ _ h
theorem emuOf_congr {s t : State} (h : t.mot = s.mot) (j : Nat) : emuOf t j = emuOf s j := by unfold emuOf; rw [h]
@[simp] theorem emuOf_setReg (a : Nat) (w : Word) (j : Nat) (s : State) : emuOf (setReg a w s) j = emuOf s j := rfl
@[simp] theorem emuOf_wr (r : RF) (v : Nat) (j : Nat) (s : State) : emuOf (wr r v s) j = emuOf s j := rfl
@[simp] theorem emuOf_addSat (r : RF) (d : Nat) (j : Nat) (s : State) : emuOf (addSat r d s) j = emuOf s j := rfl
@[simp] theorem emuOf_inc (r : RF) (j : Nat) (s : State) : emuOf (inc r s) j = emuOf s j := rfl
@[simp] theorem emuOf_incWrap (r : RF) (j : Nat) (s : State) : emuOf (incWrap r s) j = emuOf s j := rfl
@[simp] theorem emuOf_emit (e : Emit) (j : Nat) (s : State) : emuOf (emit e s) j = emuOf s j := rfl
@[simp] theorem emuOf_setPin (g n l : Nat) (j : Nat) (s : State) : emuOf (setPin g n l s) j = emuOf s j := rfl

theorem pwrOf_setPwr (p : Nat) (x : PwrSt) (j : Nat) (s : State) : pwrOf (setPwr p x s) j = if p = j then x else pwrOf s j := sget_sset _ _ _ _ _
@[simp] theorem pwrOf_setPwr_same (p : Nat) (x : PwrSt) (s : State) : pwrOf (setPwr p x s) p = x := sget_sset_same _ _ _ _
theorem pwrOf_setPwr_ne (p : Nat) (x : PwrSt) {j : Nat} (s : State) (h : p ≠ j) : pwrOf (setPwr p x s) j = pwrOf s j := sget_sset_ne _ _ _ _ _ h
theorem pwrOf_congr {s t : State} (h : t.pwrs = s.pwrs) (j : Nat) : pwrOf t j = pwrOf s j := by unfold pwrOf; rw [h]
@[simp] theorem pwrOf_setReg (a : Nat) (w : Word) (j : Nat) (s : State) : pwrOf (setReg a w s) j = pwrOf s j := rfl
@[simp] theorem pwrOf_wr (r : RF) (v : Nat) (j : Nat) (s : State) : pwrOf (wr r v s) j = pwrOf s j := rfl
@[simp] theorem pwrOf_addSat (r : RF) (d : Nat) (j : Nat) (s : State) : pwrOf (addSat r d s) j = pwrOf s j := rfl
@[simp] theorem pwrOf_inc (r : RF) (j : Nat) (s : State) : pwrOf (inc r s) j = pwrOf s j := rfl
@[simp] theorem pwrOf_incWrap (r : RF) (j : Nat) (s : State) : pwrOf (incWrap r s) j = pwrOf s j := rfl
@[simp] theorem pwrOf_emit (e : Emit) (j : Nat) (s : State) : pwrOf (emit e s) j = pwrOf s j := rfl
@[simp] theorem pwrOf_setPin (g n l : Nat) (j : Nat) (s : State) : pwrOf (setPin g n l s) j = pwrOf s j := rfl

theorem pwmOf_setPwm (k : Nat) (x : PwmSt) (j : Nat) (s : State) : pwmOf (setPwm k x s) j = if k = j then x else pwmOf s j := sget_sset _ _ _ _ _
@[simp] theorem pwmOf_setPwm_same (k : Nat) (x : PwmSt) (s : State) : pwmOf (setPwm k x s) k = x := sget_sset_same _ _ _ _
theorem pwmOf_setPwm_ne (k : Nat) (x : PwmSt) {j : Nat} (s : State) (h : k ≠ j) : pwmOf (setPwm k x s) j = pwmOf s j := sget_sset_ne _ _ _ _ _ h
theorem pwmOf_congr {s t : State} (h : t.pwms = s.pwms) (j : Nat) : pwmOf t j = pwmOf s j := by unfold pwmOf; rw [h]
@[simp] theorem pwmOf_setReg (a : Nat) (w : Word) (j : Nat) (s : State) : pwmOf (setReg a w s) j = pwmOf s j := rfl
@[simp] theorem pwmOf_wr (r : RF) (v : Nat) (j : Nat) (s : State) : pwmOf (wr r v s) j = pwmOf s j := rfl
@[simp] theorem pwmOf_addSat (r : RF) (d : Nat) (j : Nat) (s : State) : pwmOf (addSat r d s) j = pwmOf s j := rfl
@[simp] theorem pwmOf_inc (r : RF) (j : Nat) (s : State) : pwmOf (inc r s) j = pwmOf s j := rfl
@[simp] theorem pwmOf_incWrap (r : RF) (j : Nat) (s : State) : pwmOf (incWrap r s) j = pwmOf s j := rfl
@[simp] theorem pwmOf_emit (e : Emit) (j : Nat) (s : State) : pwmOf (emit e s) j = pwmOf s j := rfl
@[simp] theorem pwmOf_setPin (g n l : Nat) (j : Nat) (s : State) : pwmOf (setPin g n l s) j = pwmOf s j := rfl

theorem pfOf_setPf (o : Nat) (b : PfBuf) (j : Nat) (s : State) : pfOf (setPf o b s) j = if o = j then b else pfOf s j := sget_sset _ _ _ _ _
@[simp] theorem pfOf_setPf_same (o : Nat) (b : PfBuf) (s : State) : pfOf (setPf o b s) o = b := sget_sset_same _ _ _ _
theorem pfOf_setPf_ne (o : Nat) (b : PfBuf) {j : Nat} (s : State) (h : o ≠ j) : pfOf (setPf o b s) j = pfOf s j := sget_sset_ne _ _ _ _ _ h
theorem pfOf_congr {s t : State} (h : t.brg = s.brg) (j : Nat) : pfOf t j = pfOf s j := by unfold pfOf; rw [h]
@[simp] theorem pfOf_setReg (a : Nat) (w : Word) (j : Nat) (s : State) : pfOf (setReg a w s) j = pfOf s j := rfl
@[simp] theorem pfOf_wr (r : RF) (v : Nat) (j : Nat) (s : State) : pfOf (wr r v s) j = pfOf s j := rfl
@[simp] theorem pfOf_addSat (r : RF) (d : Nat) (j : Nat) (s : State) : pfOf (addSat r d s) j = pfOf s j := rfl
@[simp] theorem pfOf_inc (r : RF) (j : Nat) (s : State) : pfOf (inc r s) j = pfOf s j := rfl
@[simp] theorem pfOf_incWrap (r : RF) (j : Nat) (s : State) : pfOf (incWrap r s) j = pfOf s j := rfl
@[simp] theorem pfOf_emit (e : Emit) (j : Nat) (s : State) : pfOf (emit e s) j = pfOf s j := rfl
@[simp] theorem pfOf_setPin (g n l : Nat) (j : Nat) (s : State) : pfOf (setPin g n l s) j = pfOf s j := rfl

theorem loopOf_setLoop (c : Nat) (x : LoopSt) (j : Nat) (s : State) : loopOf (setLoop c x s) j = if c = j then x else loopOf s j := sget_sset _ _ _ _ _
@[simp] theorem loopOf_setLoop_same (c : Nat) (x : LoopSt) (s : State) : loopOf (setLoop c x s) c = x := sget_sset_same _ _ _ _
theorem loopOf_setLoop_ne (c : Nat) (x : LoopSt) {j : Nat} (s : State) (h : c ≠ j) : loopOf (setLoop c x s) j = loopOf s j := sget_sset_ne _ _ _ _ _ h
theorem loopOf_congr {s t : State} (h : t.loops = s.loops) (j : Nat) : loopOf t j = loopOf s j := by unfold loopOf; rw [h]
@[simp] theorem loopOf_setReg (a : Nat) (w : Word) (j : Nat) (s : State) : loopOf (setReg a w s) j = loopOf s j := rfl
@[simp] theorem loopOf_wr (r : RF) (v : Nat) (j : Nat) (s : State) : loopOf (wr r v s) j = loopOf s j := rfl
@[simp] theorem loopOf_addSat (r : RF) (d : Nat) (j : Nat) (s : State) : loopOf (addSat r d s) j = loopOf s j := rfl
@[simp] theorem loopOf_inc (r : RF) (j : Nat) (s : State) : loopOf (inc r s) j = loopOf s j := rfl
@[simp] theorem loopOf_incWrap (r : RF) (j : Nat) (s : State) : loopOf (incWrap r s) j = loopOf s j := rfl
@[simp] theorem loopOf_emit (e : Emit) (j : Nat) (s : State) : loopOf (emit e s) j = loopOf s j := rfl
@[simp] theorem loopOf_setPin (g n l : Nat) (j : Nat) (s : State) : loopOf (setPin g n l s) j = loopOf s j := rfl

/-! ## Registers and configuration where an update writes none -/

@[simp] theorem act_setReg (a : Nat) (w : Word) (fl : RF) (s : State) : act (setReg a w s) fl = act s fl := rfl
@[simp] theorem eff_setReg (a : Nat) (w : Word) (fl : RF) (s : State) : eff (setReg a w s) fl = eff s fl := rfl
@[simp] theorem setReg_variant (a : Nat) (w : Word) (s : State) : (setReg a w s).variant = s.variant := rfl
@[simp] theorem act_wr (r : RF) (v : Nat) (fl : RF) (s : State) : act (wr r v s) fl = act s fl := rfl
@[simp] theorem eff_wr (r : RF) (v : Nat) (fl : RF) (s : State) : eff (wr r v s) fl = eff s fl := rfl
@[simp] theorem wr_variant (r : RF) (v : Nat) (s : State) : (wr r v s).variant = s.variant := rfl
@[simp] theorem act_addSat (r : RF) (d : Nat) (fl : RF) (s : State) : act (addSat r d s) fl = act s fl := rfl
@[simp] theorem eff_addSat (r : RF) (d : Nat) (fl : RF) (s : State) : eff (addSat r d s) fl = eff s fl := rfl
@[simp] theorem addSat_variant (r : RF) (d : Nat) (s : State) : (addSat r d s).variant = s.variant := rfl
@[simp] theorem act_inc (r : RF) (fl : RF) (s : State) : act (inc r s) fl = act s fl := rfl
@[simp] theorem eff_inc (r : RF) (fl : RF) (s : State) : eff (inc r s) fl = eff s fl := rfl
@[simp] theorem inc_variant (r : RF) (s : State) : (inc r s).variant = s.variant := rfl
@[simp] theorem act_incWrap (r : RF) (fl : RF) (s : State) : act (incWrap r s) fl = act s fl := rfl
@[simp] theorem eff_incWrap (r : RF) (fl : RF) (s : State) : eff (incWrap r s) fl = eff s fl := rfl
@[simp] theorem incWrap_variant (r : RF) (s : State) : (incWrap r s).variant = s.variant := rfl
@[simp] theorem reg_emit (e : Emit) (j : Nat) (s : State) : reg (emit e s) j = reg s j := rfl
@[simp] theorem rd_emit (e : Emit) (fl : RF) (s : State) : rd (emit e s) fl = rd s fl := rfl
@[simp] theorem isSet_emit (e : Emit) (fl : RF) (s : State) : isSet (emit e s) fl = isSet s fl := rfl
@[simp] theorem cfgI_emit (e : Emit) (isl : Nat) (fl : RF) (s : State) : cfgI (emit e s) isl fl = cfgI s isl fl := rfl
@[simp] theorem act_emit (e : Emit) (fl : RF) (s : State) : act (emit e s) fl = act s fl := rfl
@[simp] theorem eff_emit (e : Emit) (fl : RF) (s : State) : eff (emit e s) fl = eff s fl := rfl
@[simp] theorem emit_variant (e : Emit) (s : State) : (emit e s).variant = s.variant := rfl
@[simp] theorem reg_setPin (g n l : Nat) (j : Nat) (s : State) : reg (setPin g n l s) j = reg s j := rfl
@[simp] theorem rd_setPin (g n l : Nat) (fl : RF) (s : State) : rd (setPin g n l s) fl = rd s fl := rfl
@[simp] theorem isSet_setPin (g n l : Nat) (fl : RF) (s : State) : isSet (setPin g n l s) fl = isSet s fl := rfl
@[simp] theorem cfgI_setPin (g n l : Nat) (isl : Nat) (fl : RF) (s : State) : cfgI (setPin g n l s) isl fl = cfgI s isl fl := rfl
@[simp] theorem act_setPin (g n l : Nat) (fl : RF) (s : State) : act (setPin g n l s) fl = act s fl := rfl
@[simp] theorem eff_setPin (g n l : Nat) (fl : RF) (s : State) : eff (setPin g n l s) fl = eff s fl := rfl
@[simp] theorem setPin_variant (g n l : Nat) (s : State) : (setPin g n l s).variant = s.variant := rfl
@[simp] theorem reg_setQueue (q : Nat) (x : QueueSt) (j : Nat) (s : State) : reg (setQueue q x s) j = reg s j := rfl
@[simp] theorem rd_setQueue (q : Nat) (x : QueueSt) (fl : RF) (s : State) : rd (setQueue q x s) fl = rd s fl := rfl
@[simp] theorem isSet_setQueue (q : Nat) (x : QueueSt) (fl : RF) (s : State) : isSet (setQueue q x s) fl = isSet s fl := rfl
@[simp] theorem cfgI_setQueue (q : Nat) (x : QueueSt) (isl : Nat) (fl : RF) (s : State) : cfgI (setQueue q x s) isl fl = cfgI s isl fl := rfl
@[simp] theorem act_setQueue (q : Nat) (x : QueueSt) (fl : RF) (s : State) : act (setQueue q x s) fl = act s fl := rfl
@[simp] theorem eff_setQueue (q : Nat) (x : QueueSt) (fl : RF) (s : State) : eff (setQueue q x s) fl = eff s fl := rfl
@[simp] theorem setQueue_variant (q : Nat) (x : QueueSt) (s : State) : (setQueue q x s).variant = s.variant := rfl
@[simp] theorem reg_setPort (r : Nat) (x : PortSt) (j : Nat) (s : State) : reg (setPort r x s) j = reg s j := rfl
@[simp] theorem rd_setPort (r : Nat) (x : PortSt) (fl : RF) (s : State) : rd (setPort r x s) fl = rd s fl := rfl
@[simp] theorem isSet_setPort (r : Nat) (x : PortSt) (fl : RF) (s : State) : isSet (setPort r x s) fl = isSet s fl := rfl
@[simp] theorem cfgI_setPort (r : Nat) (x : PortSt) (isl : Nat) (fl : RF) (s : State) : cfgI (setPort r x s) isl fl = cfgI s isl fl := rfl
@[simp] theorem act_setPort (r : Nat) (x : PortSt) (fl : RF) (s : State) : act (setPort r x s) fl = act s fl := rfl
@[simp] theorem eff_setPort (r : Nat) (x : PortSt) (fl : RF) (s : State) : eff (setPort r x s) fl = eff s fl := rfl
@[simp] theorem setPort_variant (r : Nat) (x : PortSt) (s : State) : (setPort r x s).variant = s.variant := rfl
@[simp] theorem reg_setHostPort (p : Nat) (x : HostPortSt) (j : Nat) (s : State) : reg (setHostPort p x s) j = reg s j := rfl
@[simp] theorem rd_setHostPort (p : Nat) (x : HostPortSt) (fl : RF) (s : State) : rd (setHostPort p x s) fl = rd s fl := rfl
@[simp] theorem isSet_setHostPort (p : Nat) (x : HostPortSt) (fl : RF) (s : State) : isSet (setHostPort p x s) fl = isSet s fl := rfl
@[simp] theorem cfgI_setHostPort (p : Nat) (x : HostPortSt) (isl : Nat) (fl : RF) (s : State) : cfgI (setHostPort p x s) isl fl = cfgI s isl fl := rfl
@[simp] theorem act_setHostPort (p : Nat) (x : HostPortSt) (fl : RF) (s : State) : act (setHostPort p x s) fl = act s fl := rfl
@[simp] theorem eff_setHostPort (p : Nat) (x : HostPortSt) (fl : RF) (s : State) : eff (setHostPort p x s) fl = eff s fl := rfl
@[simp] theorem setHostPort_variant (p : Nat) (x : HostPortSt) (s : State) : (setHostPort p x s).variant = s.variant := rfl
@[simp] theorem reg_setCam (p : Nat) (x : CamSt) (j : Nat) (s : State) : reg (setCam p x s) j = reg s j := rfl
@[simp] theorem rd_setCam (p : Nat) (x : CamSt) (fl : RF) (s : State) : rd (setCam p x s) fl = rd s fl := rfl
@[simp] theorem isSet_setCam (p : Nat) (x : CamSt) (fl : RF) (s : State) : isSet (setCam p x s) fl = isSet s fl := rfl
@[simp] theorem cfgI_setCam (p : Nat) (x : CamSt) (isl : Nat) (fl : RF) (s : State) : cfgI (setCam p x s) isl fl = cfgI s isl fl := rfl
@[simp] theorem act_setCam (p : Nat) (x : CamSt) (fl : RF) (s : State) : act (setCam p x s) fl = act s fl := rfl
@[simp] theorem eff_setCam (p : Nat) (x : CamSt) (fl : RF) (s : State) : eff (setCam p x s) fl = eff s fl := rfl
@[simp] theorem setCam_variant (p : Nat) (x : CamSt) (s : State) : (setCam p x s).variant = s.variant := rfl
@[simp] theorem reg_setTwb (i : Nat) (x : TwbSt) (j : Nat) (s : State) : reg (setTwb i x s) j = reg s j := rfl
@[simp] theorem rd_setTwb (i : Nat) (x : TwbSt) (fl : RF) (s : State) : rd (setTwb i x s) fl = rd s fl := rfl
@[simp] theorem isSet_setTwb (i : Nat) (x : TwbSt) (fl : RF) (s : State) : isSet (setTwb i x s) fl = isSet s fl := rfl
@[simp] theorem cfgI_setTwb (i : Nat) (x : TwbSt) (isl : Nat) (fl : RF) (s : State) : cfgI (setTwb i x s) isl fl = cfgI s isl fl := rfl
@[simp] theorem act_setTwb (i : Nat) (x : TwbSt) (fl : RF) (s : State) : act (setTwb i x s) fl = act s fl := rfl
@[simp] theorem eff_setTwb (i : Nat) (x : TwbSt) (fl : RF) (s : State) : eff (setTwb i x s) fl = eff s fl := rfl
@[simp] theorem setTwb_variant (i : Nat) (x : TwbSt) (s : State) : (setTwb i x s).variant = s.variant := rfl
@[simp] theorem reg_putFrame (f : FrameSt) (j : Nat) (s : State) : reg (putFrame f s) j = reg s j := rfl
@[simp] theorem rd_putFrame (f : FrameSt) (fl : RF) (s : State) : rd (putFrame f s) fl = rd s fl := rfl
@[simp] theorem isSet_putFrame (f : FrameSt) (fl : RF) (s : State) : isSet (putFrame f s) fl = isSet s fl := rfl
@[simp] theorem cfgI_putFrame (f : FrameSt) (isl : Nat) (fl : RF) (s : State) : cfgI (putFrame f s) isl fl = cfgI s isl fl := rfl
@[simp] theorem act_putFrame (f : FrameSt) (fl : RF) (s : State) : act (putFrame f s) fl = act s fl := rfl
@[simp] theorem eff_putFrame (f : FrameSt) (fl : RF) (s : State) : eff (putFrame f s) fl = eff s fl := rfl
@[simp] theorem putFrame_variant (f : FrameSt) (s : State) : (putFrame f s).variant = s.variant := rfl
@[simp] theorem reg_setChan (c : Nat) (x : ChanSt) (j : Nat) (s : State) : reg (setChan c x s) j = reg s j := rfl
@[simp] theorem rd_setChan (c : Nat) (x : ChanSt) (fl : RF) (s : State) : rd (setChan c x s) fl = rd s fl := rfl
@[simp] theorem isSet_setChan (c : Nat) (x : ChanSt) (fl : RF) (s : State) : isSet (setChan c x s) fl = isSet s fl := rfl
@[simp] theorem cfgI_setChan (c : Nat) (x : ChanSt) (isl : Nat) (fl : RF) (s : State) : cfgI (setChan c x s) isl fl = cfgI s isl fl := rfl
@[simp] theorem act_setChan (c : Nat) (x : ChanSt) (fl : RF) (s : State) : act (setChan c x s) fl = act s fl := rfl
@[simp] theorem eff_setChan (c : Nat) (x : ChanSt) (fl : RF) (s : State) : eff (setChan c x s) fl = eff s fl := rfl
@[simp] theorem setChan_variant (c : Nat) (x : ChanSt) (s : State) : (setChan c x s).variant = s.variant := rfl
@[simp] theorem reg_setHold (c : Nat) (x : HoldSt) (j : Nat) (s : State) : reg (setHold c x s) j = reg s j := rfl
@[simp] theorem rd_setHold (c : Nat) (x : HoldSt) (fl : RF) (s : State) : rd (setHold c x s) fl = rd s fl := rfl
@[simp] theorem isSet_setHold (c : Nat) (x : HoldSt) (fl : RF) (s : State) : isSet (setHold c x s) fl = isSet s fl := rfl
@[simp] theorem cfgI_setHold (c : Nat) (x : HoldSt) (isl : Nat) (fl : RF) (s : State) : cfgI (setHold c x s) isl fl = cfgI s isl fl := rfl
@[simp] theorem act_setHold (c : Nat) (x : HoldSt) (fl : RF) (s : State) : act (setHold c x s) fl = act s fl := rfl
@[simp] theorem eff_setHold (c : Nat) (x : HoldSt) (fl : RF) (s : State) : eff (setHold c x s) fl = eff s fl := rfl
@[simp] theorem setHold_variant (c : Nat) (x : HoldSt) (s : State) : (setHold c x s).variant = s.variant := rfl
@[simp] theorem reg_setTx (p : Nat) (x : TxSt) (j : Nat) (s : State) : reg (setTx p x s) j = reg s j := rfl
@[simp] theorem rd_setTx (p : Nat) (x : TxSt) (fl : RF) (s : State) : rd (setTx p x s) fl = rd s fl := rfl
@[simp] theorem isSet_setTx (p : Nat) (x : TxSt) (fl : RF) (s : State) : isSet (setTx p x s) fl = isSet s fl := rfl
@[simp] theorem cfgI_setTx (p : Nat) (x : TxSt) (isl : Nat) (fl : RF) (s : State) : cfgI (setTx p x s) isl fl = cfgI s isl fl := rfl
@[simp] theorem act_setTx (p : Nat) (x : TxSt) (fl : RF) (s : State) : act (setTx p x s) fl = act s fl := rfl
@[simp] theorem eff_setTx (p : Nat) (x : TxSt) (fl : RF) (s : State) : eff (setTx p x s) fl = eff s fl := rfl
@[simp] theorem setTx_variant (p : Nat) (x : TxSt) (s : State) : (setTx p x s).variant = s.variant := rfl
@[simp] theorem reg_setWv (p : Nat) (x : WvSt) (j : Nat) (s : State) : reg (setWv p x s) j = reg s j := rfl
@[simp] theorem rd_setWv (p : Nat) (x : WvSt) (fl : RF) (s : State) : rd (setWv p x s) fl = rd s fl := rfl
@[simp] theorem isSet_setWv (p : Nat) (x : WvSt) (fl : RF) (s : State) : isSet (setWv p x s) fl = isSet s fl := rfl
@[simp] theorem cfgI_setWv (p : Nat) (x : WvSt) (isl : Nat) (fl : RF) (s : State) : cfgI (setWv p x s) isl fl = cfgI s isl fl := rfl
@[simp] theorem act_setWv (p : Nat) (x : WvSt) (fl : RF) (s : State) : act (setWv p x s) fl = act s fl := rfl
@[simp] theorem eff_setWv (p : Nat) (x : WvSt) (fl : RF) (s : State) : eff (setWv p x s) fl = eff s fl := rfl
@[simp] theorem setWv_variant (p : Nat) (x : WvSt) (s : State) : (setWv p x s).variant = s.variant := rfl
@[simp] theorem reg_setEth (p : Nat) (x : EthSt) (j : Nat) (s : State) : reg (setEth p x s) j = reg s j := rfl
@[simp] theorem rd_setEth (p : Nat) (x : EthSt) (fl : RF) (s : State) : rd (setEth p x s) fl = rd s fl := rfl
@[simp] theorem isSet_setEth (p : Nat) (x : EthSt) (fl : RF) (s : State) : isSet (setEth p x s) fl = isSet s fl := rfl
@[simp] theorem cfgI_setEth (p : Nat) (x : EthSt) (isl : Nat) (fl : RF) (s : State) : cfgI (setEth p x s) isl fl = cfgI s isl fl := rfl
@[simp] theorem act_setEth (p : Nat) (x : EthSt) (fl : RF) (s : State) : act (setEth p x s) fl = act s fl := rfl
@[simp] theorem eff_setEth (p : Nat) (x : EthSt) (fl : RF) (s : State) : eff (setEth p x s) fl = eff s fl := rfl
@[simp] theorem setEth_variant (p : Nat) (x : EthSt) (s : State) : (setEth p x s).variant = s.variant := rfl
@[simp] theorem reg_setCh (n : Nat) (x : ChSt) (j : Nat) (s : State) : reg (setCh n x s) j = reg s j := rfl
@[simp] theorem rd_setCh (n : Nat) (x : ChSt) (fl : RF) (s : State) : rd (setCh n x s) fl = rd s fl := rfl
@[simp] theorem isSet_setCh (n : Nat) (x : ChSt) (fl : RF) (s : State) : isSet (setCh n x s) fl = isSet s fl := rfl
@[simp] theorem cfgI_setCh (n : Nat) (x : ChSt) (isl : Nat) (fl : RF) (s : State) : cfgI (setCh n x s) isl fl = cfgI s isl fl := rfl
@[simp] theorem act_setCh (n : Nat) (x : ChSt) (fl : RF) (s : State) : act (setCh n x s) fl = act s fl := rfl
@[simp] theorem eff_setCh (n : Nat) (x : ChSt) (fl : RF) (s : State) : eff (setCh n x s) fl = eff s fl := rfl
@[simp] theorem setCh_variant (n : Nat) (x : ChSt) (s : State) : (setCh n x s).variant = s.variant := rfl
@[simp] theorem reg_setEmu (e : Nat) (x : EmuSt) (j : Nat) (s : State) : reg (setEmu e x s) j = reg s j := rfl
@[simp] theorem rd_setEmu (e : Nat) (x : EmuSt) (fl : RF) (s : State) : rd (setEmu e x s) fl = rd s fl := rfl
@[simp] theorem isSet_setEmu (e : Nat) (x : EmuSt) (fl : RF) (s : State) : isSet (setEmu e x s) fl = isSet s fl := rfl
@[simp] theorem cfgI_setEmu (e : Nat) (x : EmuSt) (isl : Nat) (fl : RF) (s : State) : cfgI (setEmu e x s) isl fl = cfgI s isl fl := rfl
@[simp] theorem act_setEmu (e : Nat) (x : EmuSt) (fl : RF) (s : State) : act (setEmu e x s) fl = act s fl := rfl
@[simp] theorem eff_setEmu (e : Nat) (x : EmuSt) (fl : RF) (s : State) : eff (setEmu e x s) fl = eff s fl := rfl
@[simp] theorem setEmu_variant (e : Nat) (x : EmuSt) (s : State) : (setEmu e x s).variant = s.variant := rfl
@[simp] theorem reg_setPwr (p : Nat) (x : PwrSt) (j : Nat) (s : State) : reg (setPwr p x s) j = reg s j := rfl
@[simp] theorem rd_setPwr (p : Nat) (x : PwrSt) (fl : RF) (s : State) : rd (setPwr p x s) fl = rd s fl := rfl
@[simp] theorem isSet_setPwr (p : Nat) (x : PwrSt) (fl : RF) (s : State) : isSet (setPwr p x s) fl = isSet s fl := rfl
@[simp] theorem cfgI_setPwr (p : Nat) (x : PwrSt) (isl : Nat) (fl : RF) (s : State) : cfgI (setPwr p x s) isl fl = cfgI s isl fl := rfl
@[simp] theorem act_setPwr (p : Nat) (x : PwrSt) (fl : RF) (s : State) : act (setPwr p x s) fl = act s fl := rfl
@[simp] theorem eff_setPwr (p : Nat) (x : PwrSt) (fl : RF) (s : State) : eff (setPwr p x s) fl = eff s fl := rfl
@[simp] theorem setPwr_variant (p : Nat) (x : PwrSt) (s : State) : (setPwr p x s).variant = s.variant := rfl
@[simp] theorem reg_setPwm (k : Nat) (x : PwmSt) (j : Nat) (s : State) : reg (setPwm k x s) j = reg s j := rfl
@[simp] theorem rd_setPwm (k : Nat) (x : PwmSt) (fl : RF) (s : State) : rd (setPwm k x s) fl = rd s fl := rfl
@[simp] theorem isSet_setPwm (k : Nat) (x : PwmSt) (fl : RF) (s : State) : isSet (setPwm k x s) fl = isSet s fl := rfl
@[simp] theorem cfgI_setPwm (k : Nat) (x : PwmSt) (isl : Nat) (fl : RF) (s : State) : cfgI (setPwm k x s) isl fl = cfgI s isl fl := rfl
@[simp] theorem act_setPwm (k : Nat) (x : PwmSt) (fl : RF) (s : State) : act (setPwm k x s) fl = act s fl := rfl
@[simp] theorem eff_setPwm (k : Nat) (x : PwmSt) (fl : RF) (s : State) : eff (setPwm k x s) fl = eff s fl := rfl
@[simp] theorem setPwm_variant (k : Nat) (x : PwmSt) (s : State) : (setPwm k x s).variant = s.variant := rfl
@[simp] theorem reg_setPf (o : Nat) (b : PfBuf) (j : Nat) (s : State) : reg (setPf o b s) j = reg s j := rfl
@[simp] theorem rd_setPf (o : Nat) (b : PfBuf) (fl : RF) (s : State) : rd (setPf o b s) fl = rd s fl := rfl
@[simp] theorem isSet_setPf (o : Nat) (b : PfBuf) (fl : RF) (s : State) : isSet (setPf o b s) fl = isSet s fl := rfl
@[simp] theorem cfgI_setPf (o : Nat) (b : PfBuf) (isl : Nat) (fl : RF) (s : State) : cfgI (setPf o b s) isl fl = cfgI s isl fl := rfl
@[simp] theorem act_setPf (o : Nat) (b : PfBuf) (fl : RF) (s : State) : act (setPf o b s) fl = act s fl := rfl
@[simp] theorem eff_setPf (o : Nat) (b : PfBuf) (fl : RF) (s : State) : eff (setPf o b s) fl = eff s fl := rfl
@[simp] theorem setPf_variant (o : Nat) (b : PfBuf) (s : State) : (setPf o b s).variant = s.variant := rfl
@[simp] theorem reg_setLoop (c : Nat) (x : LoopSt) (j : Nat) (s : State) : reg (setLoop c x s) j = reg s j := rfl
@[simp] theorem rd_setLoop (c : Nat) (x : LoopSt) (fl : RF) (s : State) : rd (setLoop c x s) fl = rd s fl := rfl
@[simp] theorem isSet_setLoop (c : Nat) (x : LoopSt) (fl : RF) (s : State) : isSet (setLoop c x s) fl = isSet s fl := rfl
@[simp] theorem cfgI_setLoop (c : Nat) (x : LoopSt) (isl : Nat) (fl : RF) (s : State) : cfgI (setLoop c x s) isl fl = cfgI s isl fl := rfl
@[simp] theorem act_setLoop (c : Nat) (x : LoopSt) (fl : RF) (s : State) : act (setLoop c x s) fl = act s fl := rfl
@[simp] theorem eff_setLoop (c : Nat) (x : LoopSt) (fl : RF) (s : State) : eff (setLoop c x s) fl = eff s fl := rfl
@[simp] theorem setLoop_variant (c : Nat) (x : LoopSt) (s : State) : (setLoop c x s).variant = s.variant := rfl

/-- The epochs stand where their register is not written, and with them the configuration that an island has. -/
theorem cfgI_congr {s t : State} (hr : reg t 0x10004 = reg s 0x10004) (hc : t.chip = s.chip) (ha : t.cfgA = s.cfgA) (ho : t.cfgO = s.cfgO)
    (hi : t.islEpoch = s.islEpoch) (i : Nat) (f : RF) : cfgI t i f = cfgI s i f := by
  have he : epochActive t = epochActive s := rd_congr hr
  unfold cfgI cfgE bankOf islandEpoch
  rw [he, hc, ha, ho, hi]

theorem cfgI_wr {r : RF} (h : r.addr ≠ 0x10004) (v : Nat) (s : State) (i : Nat) (f : RF) : cfgI (wr r v s) i f = cfgI s i f :=
  cfgI_congr (reg_wr_ne h) rfl rfl rfl rfl i f

end Sys2Proof.Machine
end

