-- ==== Sys2Proof/WellFormed.lean ====
section
/-! DEFINITION. What makes a command well formed: numbers within the widths and counts that the spec gives the things they
name, payloads made of bytes. A number of a unit that one of the variants lacks is well formed: the unit is absent (R36). -/

namespace Sys2Proof

/-- An access through a BAR is a host port's, and names one of its three BARs (R31). -/
def barOk (o : Orig) (bar : Option Nat) : Bool :=
  match bar with
  | none => true
  | some n => (o == .hp0 || o == .hp1) && (n == 0 || n == 2 || n == 4)

/-- Operands lie in the ranges that the spec gives them. -/
def Instr.wellFormed (i : Instr) : Bool :=
  match i with
  | .resetRelease _ taddr => decide (taddr < 4)
  | .resetNAssert _ => true
  | .crystalStable => true
  | .imageHeaderRead => true
  | .imageVerified => true
  | .recordsCheck => true
  | .crossFieldChecks => true
  | .lpddrTrained => true
  | .cfgBastingWrite _ a v => decide (a < 2 ^ 32) && decide (v < 2 ^ 32)
  | .registerWrite via a v bytes hw => barOk via.orig via.bar && decide (a < 2 ^ 32) && decide (v < 2 ^ 32) && decide (bytes ≤ 4) && decide (hw < 2 ^ 32)
  | .rcRead via a bytes hw => barOk via.orig via.bar && decide (a < 2 ^ 32) && decide (bytes ≤ 4) && (hw.all fun x => decide (x < 2 ^ 32))
  | .unassignedAccess o bar a _ => barOk o bar && decide (a < 2 ^ 32)
  | .ldrViewWrite _ v => decide (v < 2 ^ 32)
  | .swapRequest _ => true
  | .discard _ => true
  | .ownerTimeout => true
  | .bastingGrant => true
  | .epochReachesIsland i => decide (i < 40)
  | .swapTimeout => true
  | .liveWrite _ a v => decide (a < 2 ^ 32) && decide (v < 2 ^ 32)
  | .modeSample v => decide (v < 8)
  | .profileSelectionStart => true
  | .profileEvaluation => true
  | .pllLossOfLock i => decide (i < 40)
  | .crossingTimeout src dst pair _ => decide (src < 40) && decide (dst < 40) && decide (pair < 3)
  | .lockstepMismatch pair => decide (pair < 3)
  | .reservePairTakeover => true
  | .checkpointWrite => true
  | .frameStartPacket p vc fn _ => decide (p < 20) && decide (vc < 32) && decide (fn < 2 ^ 16)
  | .frameEndPacket p vc _ => decide (p < 20) && decide (vc < 32)
  | .longPacket p vc dt payload _ => decide (p < 20) && decide (vc < 32) && decide (dt < 64) && (payload.all fun x => decide (x < 256))
  | .frameTimeout p c => decide (p < 20) && decide (c < 16384)
  | .lockLost p => decide (p < 20)
  | .linkLoss p => decide (p < 20)
  | .linkLock p => decide (p < 20)
  | .portConfigApply p => decide (p < 20)
  | .scriptEnd p => decide (p < 20)
  | .scriptWr16 p => decide (p < 20)
  | .scriptWr8 p => decide (p < 20)
  | .scriptRdcmp p => decide (p < 20)
  | .scriptDelay p => decide (p < 20)
  | .delayExpired p => decide (p < 20)
  | .scriptGpio p => decide (p < 20)
  | .scriptPoc p => decide (p < 20)
  | .scriptWaitlock p => decide (p < 20)
  | .waitlockTimeout p => decide (p < 20)
  | .scriptJump p => decide (p < 20)
  | .scriptLoop p => decide (p < 20)
  | .scriptEvent p => decide (p < 20)
  | .scriptStream p => decide (p < 20)
  | .instructionLimit p => decide (p < 20)
  | .backoffExpired p => decide (p < 20)
  | .faultTimeout p => decide (p < 20)
  | .powerCycleDone p => decide (p < 20)
  | .supervisionRun p => decide (p < 20)
  | .triggerAssertSend p => decide (p < 20)
  | .triggerReleaseSend p => decide (p < 20)
  | .triggerWindowExpire p => decide (p < 20)
  | .echoBurstStart p => decide (p < 20)
  | .echoReturn p rtt => decide (p < 20) && decide (rtt < 2 ^ 32)
  | .echoTimeout p => decide (p < 20)
  | .latencyBurstEnd p => decide (p < 20)
  | .frameAdmission c => decide (c < 16384)
  | .lineComplete c => decide (c < 16384)
  | .heatDone l _ => decide (l < 5)
  | .holdFreeze c => decide (c < 16384)
  | .holdRelease c => decide (c < 16384)
  | .tableMemoryWrite _ a bytes => decide (a < 2 ^ 32) && (bytes.all fun x => decide (x.getD 0 < 256))
  | .selfTestInGap l result => decide (l < 5) && decide (result < 2 ^ 32)
  | .reserveSelfTest _ => true
  | .selfTestStarved => true
  | .spareTest kind inst _ => decide (kind < 7) && decide (inst < 2 ^ 32)
  | .seamLine c _ => decide (c < 16384)
  | .compositeWaitExpire o => decide (o < 256)
  | .seamFrameEnd c _ => decide (c < 16384)
  | .csi2TxConfigApply p => decide (p < 2)
  | .hostLinkTrained p rate width _ => decide (p < 2) && decide (rate < 7) && decide (width < 17)
  | .flr p => decide (p < 2)
  | .hotReset p => decide (p < 2)
  | .d3hotEntry p => decide (p < 2)
  | .d3hotExit p => decide (p < 2)
  | .linkDown p => decide (p < 2)
  | .busMasterDisable p => decide (p < 2)
  | .vectorUnmask p v => decide (p < 2) && decide (v < 256)
  | .bufferTake c => decide (c < 16384)
  | .ringReadComplete c list length cookie => decide (c < 256) && decide (list < 2 ^ 64) && decide (length < 2 ^ 32) && decide (cookie < 2 ^ 32)
  | .listReadComplete c es => decide (c < 256) && (es.all fun x => decide (x.1 < 2 ^ 64) && decide (x.2.1 < 2 ^ 32) && decide (x.2.2 < 2 ^ 32))
  | .egressBurst p => decide (p < 2)
  | .flushReadComplete c => decide (c < 256)
  | .completionTimeout c dir cause => decide (c < 256) && decide (dir < 2) && decide (cause < 256)
  | .arm c seq => decide (c < 256) && decide (seq < 2 ^ 32)
  | .disarm c => decide (c < 256)
  | .piWrite c v => decide (c < 256) && decide (v < 2 ^ 32)
  | .cplCiWrite c v => decide (c < 256) && decide (v < 2 ^ 32)
  | .start c => decide (c < 256)
  | .stop c => decide (c < 256)
  | .abort c => decide (c < 256)
  | .replay p v => decide (p < 2) && decide (v < 2 ^ 32)
  | .packetOpen q producer _ => decide (q < 8192) && decide (producer < 2 ^ 32)
  | .packetWord q producer w _ => decide (q < 8192) && decide (producer < 2 ^ 32) && decide (w < 2 ^ 32)
  | .packetCommit q producer _ => decide (q < 8192) && decide (producer < 2 ^ 32)
  | .packetRewind q producer => decide (q < 8192) && decide (producer < 2 ^ 32)
  | .spillMove q blocks _ bad => decide (q < 8192) && decide (blocks < 2 ^ 32) && (bad.all fun i => decide (i < 16 * blocks))
  | .queueConfigApply q => decide (q < 8192)
  | .headerRead _ r _ => decide (r < 16)
  | .dataRead _ r n _ => decide (r < 16) && decide (n < 2 ^ 32)
  | .release _ r v => decide (r < 16) && decide (v < 2 ^ 32)
  | .claimTimeout r => decide (r < 16)
  | .sourceLevelChange src => decide (src < 0x401)
  | .claim _ t => decide (t < 4)
  | .complete _ t src => decide (t < 4) && decide (src < 2 ^ 32)
  | .enableWrite _ t w v => decide (t < 4) && decide (w < 32) && decide (v < 2 ^ 32)
  | .gdis _ t v => decide (t < 4) && decide (v < 2 ^ 32)
  | .split _ t v => decide (t < 4) && decide (v < 2 ^ 32)
  | .pacerExpire g t => decide (g < 32) && decide (t < 4)
  | .evcArrayEcc src t => decide (src < 0x401) && decide (t < 4)
  | .supplyFault => true
  | .overtemperature tj => decide (tj < 2 ^ 16)
  | .secondBoundary => true
  | .anchorCommit => true
  | .timeNsRead _ => true
  | .rateWrite v => decide (v < 2 ^ 32)
  | .step v => decide (v < 2 ^ 32)
  | .ppsNextWrite v => decide (v < 2 ^ 32)
  | .trgNextWrite g hi lo => decide (g < 32) && decide (hi < 2 ^ 32) && decide (lo < 2 ^ 32)
  | .triggerRealign g => decide (g < 32)
  | .triggerFire g => decide (g < 32)
  | .offsetMeasurement => true
  | .syncTimeout => true
  | .sync p domain seq _ => decide (p < 2) && decide (domain < 256) && decide (seq < 2 ^ 16)
  | .followUp p domain seq _ _ _ gm => decide (p < 2) && decide (domain < 256) && decide (seq < 2 ^ 16) && (gm.all fun x => decide (x < 256))
  | .syncSend p _ => decide (p < 2)
  | .pdelayReqSend p _ => decide (p < 2)
  | .pdelayReq p domain seq _ _ => decide (p < 2) && decide (domain < 256) && decide (seq < 2 ^ 16)
  | .pdelayResp p domain seq _ _ => decide (p < 2) && decide (domain < 256) && decide (seq < 2 ^ 16)
  | .pdelayRespFollowUp p domain seq _ => decide (p < 2) && decide (domain < 256) && decide (seq < 2 ^ 16)
  | .ethFrameReceive p len tags type dst _ => decide (p < 2) && decide (len < 2 ^ 16) && decide (tags < 2 ^ 16) && decide (type < 2 ^ 16) && decide (dst < 2 ^ 48)
  | .diagRequest p src tag ver op seq addr count => decide (p < 2) && decide (src < 2 ^ 48) && decide (tag < 2 ^ 16) && decide (ver < 256) && decide (op < 2 ^ 32) && decide (seq < 2 ^ 32) && decide (addr < 2 ^ 32) && decide (count < 2 ^ 32)
  | .ethLinkUp p => decide (p < 2)
  | .ethLinkDown p => decide (p < 2)
  | .inputEdge n levels => decide (n < 4) && decide (levels < 8)
  | .indexEdge n => decide (n < 4)
  | .sincosSample n codeSin codeCos => decide (n < 4) && decide (codeSin < 4096) && decide (codeCos < 4096)
  | .sentMessage n tick nibs crc _ _ ago => decide (n < 4) && decide (tick < 2 ^ 32) && (nibs.all fun x => decide (x < 16)) && decide (crc < 16) && decide (ago < 2 ^ 32)
  | .sentTimeout n => decide (n < 4)
  | .channelRevalid n => decide (n < 4)
  | .compareArm i v => decide (i < 8) && decide (v < 2 ^ 32)
  | .observerUpdate => true
  | .standstill n => decide (n < 4)
  | .snapshot => true
  | .historyEntry => true
  | .motionInterpolate c => decide (c < 16384)
  | .emulatorStep e => decide (e < 2)
  | .adc1Conversion i code => decide (i < 64) && decide (code < 4096)
  | .pocFaultPin p => decide (p < 16)
  | .powerGood p => decide (p < 16)
  | .pgTimeout p => decide (p < 16)
  | .powerRetry p => decide (p < 16)
  | .attemptReset p => decide (p < 16)
  | .powerRelease p => decide (p < 16)
  | .openDetect p => decide (p < 16)
  | .pwmPeriodStart k => decide (k < 8)
  | .pwmPulseStart k => decide (k < 8)
  | .pwmPulseEnd k => decide (k < 8)
  | .fold m => decide (m < 2)
  | .unfold m => decide (m < 2)
  | .foldStop m => decide (m < 2)
  | .brakeEnd m => decide (m < 2)
  | .foldStall m => decide (m < 2)
  | .foldTimeout m => decide (m < 2)
  | .vcoreAdjust mv tj => decide (mv < 2 ^ 16) && decide (tj < 2 ^ 16)
  | .transactionStart i _ _ => decide (i < 23)
  | .busStuckRecovery i _ => decide (i < 23)
  | .stretchTimeout i => decide (i < 23)
  | .transactionDone i _ data => decide (i < 23) && (data.all fun x => decide (x < 256))
  | .targetWrite t addr7 a bytes end_ => decide (t < 2) && decide (addr7 < 128) && decide (a < 2 ^ 32) && (bytes.all fun x => decide (x < 256)) && decide (end_ < 4)
  | .targetRead t addr7 a n => decide (t < 2) && decide (addr7 < 128) && decide (a < 2 ^ 32) && decide (n < 2 ^ 32)
  | .targetDataTimeout t => decide (t < 2)
  | .targetSelfReset t => decide (t < 2)
  | .wakeAddress t => decide (t < 2)
  | .alertResponse t _ => decide (t < 2)
  | .bridgeAccess via addr _ be data => barOk via.orig via.bar && decide (addr < 2 ^ 32) && decide (be.length ≤ 64) && (data.all fun x => decide (x < 256))
  | .sensorWindowWrite p => decide (p < 20)
  | .sensorWindowRead p => decide (p < 20)
  | .remoteWindowAccess f => decide (f < 32)
  | .bridgeReadTimeout tag => decide (tag < 2 ^ 16)
  | .take _ w => decide (w < 52)
  | .semaphoreRelease _ w => decide (w < 52)
  | .leaseExpire w => decide (w < 52)
  | .retryReissue tag => decide (tag < 2 ^ 16)
  | .compatWriteTimeout tag => decide (tag < 2 ^ 16)
  | .prefetchAgeExpire _ => true
  | .laneLock p l => decide (p < 4) && decide (l < 5)
  | .laneLockLost p l => decide (p < 4) && decide (l < 5)
  | .trainTimeout p => decide (p < 4)
  | .laneBlock p uid _ _ _ => decide (p < 4) && decide (uid < 2 ^ 64)
  | .dataBlock p seq _ cls flow payload => decide (p < 4) && decide (seq < 2 ^ 16) && decide (cls < 256) && decide (flow < 256) && (payload.all fun x => decide (x < 256))
  | .openBlock p seq _ cls flow payload => decide (p < 4) && decide (seq < 2 ^ 16) && decide (cls < 256) && decide (flow < 256) && (payload.all fun x => decide (x < 256))
  | .endBlock p seq _ cls flow total blocks => decide (p < 4) && decide (seq < 2 ^ 16) && decide (cls < 256) && decide (flow < 256) && decide (total < 2 ^ 32) && decide (blocks < 2 ^ 32)
  | .abortBlock p seq _ cls flow cause => decide (p < 4) && decide (seq < 2 ^ 16) && decide (cls < 256) && decide (flow < 256) && decide (cause < 256)
  | .ackBlock p cum _ => decide (p < 4) && decide (cum < 2 ^ 16)
  | .ackTimer p => decide (p < 4)
  | .retransmitTimeout p => decide (p < 4)
  | .helloSend p => decide (p < 4)
  | .helloBlock p uid _ fid port _ => decide (p < 4) && decide (uid < 2 ^ 64) && decide (fid < 256) && decide (port < 4)
  | .helloTimeout p => decide (p < 4)
  | .lsaBlock p seq _ payload => decide (p < 4) && decide (seq < 2 ^ 16) && (payload.all fun x => decide (x < 256))
  | .lsaRefresh => true
  | .lsaAge uid => decide (uid < 2 ^ 64)
  | .fidClaim => true
  | .fidJournal => true
  | .brgReq p seq _ payload _ => decide (p < 4) && decide (seq < 2 ^ 16) && (payload.all fun x => decide (x < 256))
  | .brgRsp p seq _ payload => decide (p < 4) && decide (seq < 2 ^ 16) && (payload.all fun x => decide (x < 256))
  | .timeExchange p => decide (p < 4)
  | .timeBlock p _ _ _ gm _ => decide (p < 4) && (gm.all fun x => decide (x < 256))
  | .heartbeatSend => true
  | .heartbeat p seq body => decide (p < 4) && decide (seq < 2 ^ 16) && (body.all fun x => decide (x < 256))
  | .hbInputEdge => true
  | .heartbeatTick => true
  | .fenceWaitExpire => true
  | .partnerWaitExpire => true
  | .fenceInput _ => true
  | .fenceReleaseTimer => true
  | .deliver p seq body => decide (p < 4) && decide (seq < 2 ^ 16) && (body.all fun x => decide (x < 256))
  | .deliverAckTimeout => true
  | .mirrorRestore => true
  | .fcMismatch c => decide (c < 16384)
  | .handover _ v => decide (v < 2 ^ 32)
  | .batonOffer p seq _ => decide (p < 4) && decide (seq < 2 ^ 16)
  | .batonCommit p seq _ => decide (p < 4) && decide (seq < 2 ^ 16)
  | .relayProfile p seq body => decide (p < 4) && decide (seq < 2 ^ 16) && (body.all fun x => decide (x < 256))
  | .profileSwapAtS => true
  | .exposureLoopUpdate => true
  | .expRegWrite c => decide (c < 16384)
  | .liveBlockWrite c => decide (c < 16384)
  | .replaced kind inst row x => decide (kind < 7) && decide (inst < 2 ^ 32) && decide (row < 2 ^ 32) && decide (x.signal < 7) && decide (x.count < 2 ^ 32)
  | .replaceRetry => true
  | .ageingMeasure _ _ => true
  | .journalRecord _ => true
  | .dropSummary => true
  | .park _ v => decide (v < 2 ^ 32)
  | .parkCancel _ v => decide (v < 2 ^ 32)
  | .parkComplete => true
  | .parkExit => true
  | .presencePulse => true
  | .presenceHeld => true
  | .windowExpire => true
  | .sessionOpen _ => true
  | .sessionClose _ => true
  | .erase _ slot => decide (slot < 2 ^ 32)
  | .program _ slot arg => decide (slot < 2 ^ 32) && decide (arg < 2 ^ 32)
  | .verify _ slot => decide (slot < 2 ^ 32)
  | .reload _ => true
  | .rollback _ arg => decide (arg < 2 ^ 32)
  | .flashOperationDone _ => true
  | .echoRequestSend p => decide (p < 20)
  | .syncHeaderErrors p l => decide (p < 4) && decide (l < 5)
  | .blockCrcError p => decide (p < 4)
  | .csi2TxPacketSent p => decide (p < 2)
  | .csi2PhyRestartDone p => decide (p < 2)
  | .busMasterEnable p payload => decide (p < 2) && decide (payload < 4097)
  | .pcieUncorrectableError p => decide (p < 2)

end Sys2Proof
end

