-- ==== Sys2Proof/Tests/Slice0.lean ====
section
/-! SUPPORT. Our own tests: witnesses of the hypotheses of the statements, well-formedness, and small runs of one command. -/

set_option linter.unusedSimpArgs false
set_option Elab.async false

namespace Sys2Proof.Tests
open Sys2Proof Sys2Proof.Machine

/-- The state after reset with some register fields written. -/
def withRegs (l : List (RF × Nat)) (s : State := State.reset) : State := l.foldl (fun s x => wr x.1 x.2 s) s

/-- A state with some configuration fields set in every bank. -/
def withCfg (l : List (RF × Nat)) (s : State := State.reset) : State :=
  let b := l.foldl (fun b x => bankSet s.chip b x.1 x.2) s.cfgA
  { s with cfgB := b, cfgA := b, cfgO := b, cfgX := b }

/-- The next state of a command; the same state where it stops. -/
def after (c : Instr) (s : State) : State :=
  match exec c s with
  | .next t => t
  | _ => s

/-- The last thing that a state has put on its links and pins. -/
def said (s : State) : Option Emit := s.out.getLast?

/-- A state whose queue `q` is as given. -/
def withQueue (q : Nat) (x : QueueSt) (s : State := State.reset) : State := { s with queues := [(q, x)] }

/-! ## Well-formedness: each check refuses an ill-formed command -/

/-- With every number 0 and every list empty, a command is well formed. -/
theorem test_wellFormed_1 :
    ([.resetRelease false 0, .resetNAssert false, .crystalStable, .imageHeaderRead, .imageVerified, .recordsCheck,
      .crossFieldChecks, .lpddrTrained, .cfgBastingWrite .loader 0 0, .registerWrite ⟨.hp0, none⟩ 0 0 0 0,
      .rcRead ⟨.hp0, none⟩ 0 0 [], .unassignedAccess .hp0 none 0 false, .ldrViewWrite .hp0 0, .swapRequest .loader,
      .discard .loader, .ownerTimeout, .bastingGrant, .epochReachesIsland 0, .swapTimeout, .liveWrite .hp0 0 0, .modeSample 0,
      .profileSelectionStart, .profileEvaluation, .pllLossOfLock 0, .crossingTimeout 0 0 0 [], .lockstepMismatch 0,
      .reservePairTakeover, .checkpointWrite, .frameStartPacket 0 0 0 {}, .frameEndPacket 0 0 {}, .longPacket 0 0 0 [] {},
      .frameTimeout 0 0, .lockLost 0, .linkLoss 0, .linkLock 0, .portConfigApply 0, .scriptEnd 0, .scriptWr16 0, .scriptWr8 0,
      .scriptRdcmp 0, .scriptDelay 0, .delayExpired 0, .scriptGpio 0, .scriptPoc 0, .scriptWaitlock 0, .waitlockTimeout 0,
      .scriptJump 0, .scriptLoop 0, .scriptEvent 0, .scriptStream 0, .instructionLimit 0, .backoffExpired 0, .faultTimeout 0,
      .powerCycleDone 0, .supervisionRun 0, .triggerAssertSend 0, .triggerReleaseSend 0, .triggerWindowExpire 0,
      .echoBurstStart 0, .echoReturn 0 0] : List Instr).all (fun c => c.wellFormed) = true := by decide

/-- With every number 0 and every list empty, a command is well formed. -/
theorem test_wellFormed_2 :
    ([.echoTimeout 0, .latencyBurstEnd 0, .frameAdmission 0, .lineComplete 0, .heatDone 0 [], .holdFreeze 0, .holdRelease 0,
      .tableMemoryWrite .hp0 0 [], .selfTestInGap 0 0, .reserveSelfTest false, .selfTestStarved, .spareTest 0 0 false,
      .seamLine 0 [], .compositeWaitExpire 0, .seamFrameEnd 0 [], .csi2TxConfigApply 0, .hostLinkTrained 0 0 0 false, .flr 0,
      .hotReset 0, .d3hotEntry 0, .d3hotExit 0, .linkDown 0, .busMasterDisable 0, .vectorUnmask 0 0, .bufferTake 0,
      .ringReadComplete 0 0 0 0, .listReadComplete 0 [], .egressBurst 0, .flushReadComplete 0, .completionTimeout 0 0 0,
      .arm 0 0, .disarm 0, .piWrite 0 0, .cplCiWrite 0 0, .start 0, .stop 0, .abort 0, .replay 0 0, .packetOpen 0 0 none,
      .packetWord 0 0 0 none, .packetCommit 0 0 none, .packetRewind 0 0, .spillMove 0 0 false [], .queueConfigApply 0,
      .headerRead .hp0 0 none, .dataRead .hp0 0 0 none, .release .hp0 0 0, .claimTimeout 0, .sourceLevelChange 0,
      .claim .hp0 0, .complete .hp0 0 0, .enableWrite .hp0 0 0 0, .gdis .hp0 0 0, .split .hp0 0 0, .pacerExpire 0 0,
      .evcArrayEcc 0 0, .supplyFault, .overtemperature 0, .secondBoundary, .anchorCommit] : List Instr).all (fun c => c.wellFormed) = true := by decide

/-- With every number 0 and every list empty, a command is well formed. -/
theorem test_wellFormed_3 :
    ([.timeNsRead .hp0, .rateWrite 0, .step 0, .ppsNextWrite 0, .trgNextWrite 0 0 0, .triggerRealign 0, .triggerFire 0,
      .offsetMeasurement, .syncTimeout, .sync 0 0 0 0, .followUp 0 0 0 0 0 0 [], .syncSend 0 0, .pdelayReqSend 0 0,
      .pdelayReq 0 0 0 0 0, .pdelayResp 0 0 0 0 0, .pdelayRespFollowUp 0 0 0 0, .ethFrameReceive 0 0 0 0 0 false,
      .diagRequest 0 0 0 0 0 0 0 0, .ethLinkUp 0, .ethLinkDown 0, .inputEdge 0 0, .indexEdge 0, .sincosSample 0 0 0,
      .sentMessage 0 0 [] 0 false false 0, .sentTimeout 0, .channelRevalid 0, .compareArm 0 0, .observerUpdate, .standstill 0,
      .snapshot, .historyEntry, .motionInterpolate 0, .emulatorStep 0, .adc1Conversion 0 0, .pocFaultPin 0, .powerGood 0,
      .pgTimeout 0, .powerRetry 0, .attemptReset 0, .powerRelease 0, .openDetect 0, .pwmPeriodStart 0, .pwmPulseStart 0,
      .pwmPulseEnd 0, .fold 0, .unfold 0, .foldStop 0, .brakeEnd 0, .foldStall 0, .foldTimeout 0, .vcoreAdjust 0 0,
      .transactionStart 0 false none, .busStuckRecovery 0 false, .stretchTimeout 0, .transactionDone 0 false [],
      .targetWrite 0 0 0 [] 0, .targetRead 0 0 0 0, .targetDataTimeout 0, .targetSelfReset 0, .wakeAddress 0] : List Instr).all (fun c => c.wellFormed) = true := by decide

/-- With every number 0 and every list empty, a command is well formed. -/
theorem test_wellFormed_4 :
    ([.alertResponse 0 none, .bridgeAccess ⟨.hp0, none⟩ 0 false [] [], .sensorWindowWrite 0, .sensorWindowRead 0,
      .remoteWindowAccess 0, .bridgeReadTimeout 0, .take .hp0 0, .semaphoreRelease .hp0 0, .leaseExpire 0, .retryReissue 0,
      .compatWriteTimeout 0, .prefetchAgeExpire .hp0, .laneLock 0 0, .laneLockLost 0 0, .trainTimeout 0, .laneBlock 0 0 0 0 0,
      .dataBlock 0 0 0 0 0 [], .openBlock 0 0 0 0 0 [], .endBlock 0 0 0 0 0 0 0, .abortBlock 0 0 0 0 0 0, .ackBlock 0 0 0,
      .ackTimer 0, .retransmitTimeout 0, .helloSend 0, .helloBlock 0 0 0 0 0 0, .helloTimeout 0, .lsaBlock 0 0 0 [],
      .lsaRefresh, .lsaAge 0, .fidClaim, .fidJournal, .brgReq 0 0 0 [] 0, .brgRsp 0 0 0 [], .timeExchange 0,
      .timeBlock 0 0 0 0 [] none, .heartbeatSend, .heartbeat 0 0 [], .hbInputEdge, .heartbeatTick, .fenceWaitExpire,
      .partnerWaitExpire, .fenceInput false, .fenceReleaseTimer, .deliver 0 0 [], .deliverAckTimeout, .mirrorRestore,
      .fcMismatch 0, .handover .hp0 0, .batonOffer 0 0 0, .batonCommit 0 0 0, .relayProfile 0 0 [], .profileSwapAtS,
      .exposureLoopUpdate, .expRegWrite 0, .liveBlockWrite 0, .replaced 0 0 0 ⟨0, 0⟩, .replaceRetry, .ageingMeasure false [],
      .journalRecord false, .dropSummary] : List Instr).all (fun c => c.wellFormed) = true := by decide

/-- With every number 0 and every list empty, a command is well formed. -/
theorem test_wellFormed_5 :
    ([.park .hp0 0, .parkCancel .hp0 0, .parkComplete, .parkExit, .presencePulse, .presenceHeld, .windowExpire,
      .sessionOpen .hp0, .sessionClose .hp0, .erase .hp0 0, .program .hp0 0 0, .verify .hp0 0, .reload .hp0, .rollback .hp0 0,
      .flashOperationDone false, .echoRequestSend 0, .syncHeaderErrors 0 0, .blockCrcError 0, .csi2TxPacketSent 0,
      .csi2PhyRestartDone 0, .busMasterEnable 0 0, .pcieUncorrectableError 0] : List Instr).all (fun c => c.wellFormed) = true := by decide

/-- One operand just beyond its range: refused. -/
theorem test_illFormed_1 :
    ([.resetRelease false 4, .cfgBastingWrite .loader (2 ^ 32) 0, .cfgBastingWrite .loader 0 (2 ^ 32),
      .registerWrite ⟨.hp0, some 1⟩ 0 0 0 0, .registerWrite ⟨.svc, some 0⟩ 0 0 0 0, .registerWrite ⟨.hp0, none⟩ (2 ^ 32) 0 0 0,
      .registerWrite ⟨.hp0, none⟩ 0 (2 ^ 32) 0 0, .registerWrite ⟨.hp0, none⟩ 0 0 5 0,
      .registerWrite ⟨.hp0, none⟩ 0 0 0 (2 ^ 32), .rcRead ⟨.hp0, some 1⟩ 0 0 [], .rcRead ⟨.svc, some 0⟩ 0 0 [],
      .rcRead ⟨.hp0, none⟩ (2 ^ 32) 0 [], .rcRead ⟨.hp0, none⟩ 0 5 [], .rcRead ⟨.hp0, none⟩ 0 0 [2 ^ 32],
      .unassignedAccess .hp0 (some 1) 0 false, .unassignedAccess .svc (some 0) 0 false,
      .unassignedAccess .hp0 none (2 ^ 32) false, .ldrViewWrite .hp0 (2 ^ 32), .epochReachesIsland 40,
      .liveWrite .hp0 (2 ^ 32) 0, .liveWrite .hp0 0 (2 ^ 32), .modeSample 8, .pllLossOfLock 40, .crossingTimeout 40 0 0 [],
      .crossingTimeout 0 40 0 [], .crossingTimeout 0 0 3 [], .lockstepMismatch 3, .frameStartPacket 20 0 0 {},
      .frameStartPacket 0 32 0 {}, .frameStartPacket 0 0 (2 ^ 16) {}, .frameEndPacket 20 0 {}, .frameEndPacket 0 32 {},
      .longPacket 20 0 0 [] {}, .longPacket 0 32 0 [] {}, .longPacket 0 0 64 [] {}, .longPacket 0 0 0 [256] {},
      .frameTimeout 20 0, .frameTimeout 0 16384, .lockLost 20, .linkLoss 20, .linkLock 20, .portConfigApply 20, .scriptEnd 20,
      .scriptWr16 20, .scriptWr8 20, .scriptRdcmp 20, .scriptDelay 20, .delayExpired 20, .scriptGpio 20, .scriptPoc 20,
      .scriptWaitlock 20, .waitlockTimeout 20, .scriptJump 20, .scriptLoop 20, .scriptEvent 20, .scriptStream 20,
      .instructionLimit 20, .backoffExpired 20, .faultTimeout 20, .powerCycleDone 20] : List Instr).all (fun c => !c.wellFormed) = true := by decide

/-- One operand just beyond its range: refused. -/
theorem test_illFormed_2 :
    ([.supervisionRun 20, .triggerAssertSend 20, .triggerReleaseSend 20, .triggerWindowExpire 20, .echoBurstStart 20,
      .echoReturn 20 0, .echoReturn 0 (2 ^ 32), .echoTimeout 20, .latencyBurstEnd 20, .frameAdmission 16384,
      .lineComplete 16384, .heatDone 5 [], .holdFreeze 16384, .holdRelease 16384, .tableMemoryWrite .hp0 (2 ^ 32) [],
      .tableMemoryWrite .hp0 0 [some 256], .selfTestInGap 5 0, .selfTestInGap 0 (2 ^ 32), .spareTest 7 0 false,
      .spareTest 0 (2 ^ 32) false, .seamLine 16384 [], .compositeWaitExpire 256, .seamFrameEnd 16384 [], .csi2TxConfigApply 2,
      .hostLinkTrained 2 0 0 false, .hostLinkTrained 0 7 0 false, .hostLinkTrained 0 0 17 false, .flr 2, .hotReset 2,
      .d3hotEntry 2, .d3hotExit 2, .linkDown 2, .busMasterDisable 2, .vectorUnmask 2 0, .vectorUnmask 0 256, .bufferTake 16384,
      .ringReadComplete 256 0 0 0, .ringReadComplete 0 (2 ^ 64) 0 0, .ringReadComplete 0 0 (2 ^ 32) 0,
      .ringReadComplete 0 0 0 (2 ^ 32), .listReadComplete 256 [], .listReadComplete 0 [(2 ^ 64, 0, 0)],
      .listReadComplete 0 [(0, 2 ^ 32, 0)], .listReadComplete 0 [(0, 0, 2 ^ 32)], .egressBurst 2, .flushReadComplete 256,
      .completionTimeout 256 0 0, .completionTimeout 0 2 0, .completionTimeout 0 0 256, .arm 256 0, .arm 0 (2 ^ 32),
      .disarm 256, .piWrite 256 0, .piWrite 0 (2 ^ 32), .cplCiWrite 256 0, .cplCiWrite 0 (2 ^ 32), .start 256, .stop 256,
      .abort 256, .replay 2 0] : List Instr).all (fun c => !c.wellFormed) = true := by decide

/-- One operand just beyond its range: refused. -/
theorem test_illFormed_3 :
    ([.replay 0 (2 ^ 32), .packetOpen 8192 0 none, .packetOpen 0 (2 ^ 32) none, .packetWord 8192 0 0 none,
      .packetWord 0 (2 ^ 32) 0 none, .packetWord 0 0 (2 ^ 32) none, .packetCommit 8192 0 none, .packetCommit 0 (2 ^ 32) none,
      .packetRewind 8192 0, .packetRewind 0 (2 ^ 32), .spillMove 8192 0 false [], .spillMove 0 (2 ^ 32) false [],
      .spillMove 0 0 false [0], .queueConfigApply 8192, .headerRead .hp0 16 none, .dataRead .hp0 16 0 none,
      .dataRead .hp0 0 (2 ^ 32) none, .release .hp0 16 0, .release .hp0 0 (2 ^ 32), .claimTimeout 16, .sourceLevelChange 0x401,
      .claim .hp0 4, .complete .hp0 4 0, .complete .hp0 0 (2 ^ 32), .enableWrite .hp0 4 0 0, .enableWrite .hp0 0 32 0,
      .enableWrite .hp0 0 0 (2 ^ 32), .gdis .hp0 4 0, .gdis .hp0 0 (2 ^ 32), .split .hp0 4 0, .split .hp0 0 (2 ^ 32),
      .pacerExpire 32 0, .pacerExpire 0 4, .evcArrayEcc 0x401 0, .evcArrayEcc 0 4, .overtemperature (2 ^ 16),
      .rateWrite (2 ^ 32), .step (2 ^ 32), .ppsNextWrite (2 ^ 32), .trgNextWrite 32 0 0, .trgNextWrite 0 (2 ^ 32) 0,
      .trgNextWrite 0 0 (2 ^ 32), .triggerRealign 32, .triggerFire 32, .sync 2 0 0 0, .sync 0 256 0 0, .sync 0 0 (2 ^ 16) 0,
      .followUp 2 0 0 0 0 0 [], .followUp 0 256 0 0 0 0 [], .followUp 0 0 (2 ^ 16) 0 0 0 [], .followUp 0 0 0 0 0 0 [256],
      .syncSend 2 0, .pdelayReqSend 2 0, .pdelayReq 2 0 0 0 0, .pdelayReq 0 256 0 0 0, .pdelayReq 0 0 (2 ^ 16) 0 0,
      .pdelayResp 2 0 0 0 0, .pdelayResp 0 256 0 0 0, .pdelayResp 0 0 (2 ^ 16) 0 0, .pdelayRespFollowUp 2 0 0 0] : List Instr).all (fun c => !c.wellFormed) = true := by decide

/-- One operand just beyond its range: refused. -/
theorem test_illFormed_4 :
    ([.pdelayRespFollowUp 0 256 0 0, .pdelayRespFollowUp 0 0 (2 ^ 16) 0, .ethFrameReceive 2 0 0 0 0 false,
      .ethFrameReceive 0 (2 ^ 16) 0 0 0 false, .ethFrameReceive 0 0 (2 ^ 16) 0 0 false,
      .ethFrameReceive 0 0 0 (2 ^ 16) 0 false, .ethFrameReceive 0 0 0 0 (2 ^ 48) false, .diagRequest 2 0 0 0 0 0 0 0,
      .diagRequest 0 (2 ^ 48) 0 0 0 0 0 0, .diagRequest 0 0 (2 ^ 16) 0 0 0 0 0, .diagRequest 0 0 0 256 0 0 0 0,
      .diagRequest 0 0 0 0 (2 ^ 32) 0 0 0, .diagRequest 0 0 0 0 0 (2 ^ 32) 0 0, .diagRequest 0 0 0 0 0 0 (2 ^ 32) 0,
      .diagRequest 0 0 0 0 0 0 0 (2 ^ 32), .ethLinkUp 2, .ethLinkDown 2, .inputEdge 4 0, .inputEdge 0 8, .indexEdge 4,
      .sincosSample 4 0 0, .sincosSample 0 4096 0, .sincosSample 0 0 4096, .sentMessage 4 0 [] 0 false false 0,
      .sentMessage 0 (2 ^ 32) [] 0 false false 0, .sentMessage 0 0 [16] 0 false false 0, .sentMessage 0 0 [] 16 false false 0,
      .sentMessage 0 0 [] 0 false false (2 ^ 32), .sentTimeout 4, .channelRevalid 4, .compareArm 8 0, .compareArm 0 (2 ^ 32),
      .standstill 4, .motionInterpolate 16384, .emulatorStep 2, .adc1Conversion 64 0, .adc1Conversion 0 4096, .pocFaultPin 16,
      .powerGood 16, .pgTimeout 16, .powerRetry 16, .attemptReset 16, .powerRelease 16, .openDetect 16, .pwmPeriodStart 8,
      .pwmPulseStart 8, .pwmPulseEnd 8, .fold 2, .unfold 2, .foldStop 2, .brakeEnd 2, .foldStall 2, .foldTimeout 2,
      .vcoreAdjust (2 ^ 16) 0, .vcoreAdjust 0 (2 ^ 16), .transactionStart 23 false none, .busStuckRecovery 23 false,
      .stretchTimeout 23, .transactionDone 23 false [], .transactionDone 0 false [256]] : List Instr).all (fun c => !c.wellFormed) = true := by decide

/-- One operand just beyond its range: refused. -/
theorem test_illFormed_5 :
    ([.targetWrite 2 0 0 [] 0, .targetWrite 0 128 0 [] 0, .targetWrite 0 0 (2 ^ 32) [] 0, .targetWrite 0 0 0 [256] 0,
      .targetWrite 0 0 0 [] 4, .targetRead 2 0 0 0, .targetRead 0 128 0 0, .targetRead 0 0 (2 ^ 32) 0,
      .targetRead 0 0 0 (2 ^ 32), .targetDataTimeout 2, .targetSelfReset 2, .wakeAddress 2, .alertResponse 2 none,
      .bridgeAccess ⟨.hp0, some 1⟩ 0 false [] [], .bridgeAccess ⟨.svc, some 0⟩ 0 false [] [],
      .bridgeAccess ⟨.hp0, none⟩ (2 ^ 32) false [] [], .bridgeAccess ⟨.hp0, none⟩ 0 false (List.replicate 65 false) [],
      .bridgeAccess ⟨.hp0, none⟩ 0 false [] [256], .sensorWindowWrite 20, .sensorWindowRead 20, .remoteWindowAccess 32,
      .bridgeReadTimeout (2 ^ 16), .take .hp0 52, .semaphoreRelease .hp0 52, .leaseExpire 52, .retryReissue (2 ^ 16),
      .compatWriteTimeout (2 ^ 16), .laneLock 4 0, .laneLock 0 5, .laneLockLost 4 0, .laneLockLost 0 5, .trainTimeout 4,
      .laneBlock 4 0 0 0 0, .laneBlock 0 (2 ^ 64) 0 0 0, .dataBlock 4 0 0 0 0 [], .dataBlock 0 (2 ^ 16) 0 0 0 [],
      .dataBlock 0 0 0 256 0 [], .dataBlock 0 0 0 0 256 [], .dataBlock 0 0 0 0 0 [256], .openBlock 4 0 0 0 0 [],
      .openBlock 0 (2 ^ 16) 0 0 0 [], .openBlock 0 0 0 256 0 [], .openBlock 0 0 0 0 256 [], .openBlock 0 0 0 0 0 [256],
      .endBlock 4 0 0 0 0 0 0, .endBlock 0 (2 ^ 16) 0 0 0 0 0, .endBlock 0 0 0 256 0 0 0, .endBlock 0 0 0 0 256 0 0,
      .endBlock 0 0 0 0 0 (2 ^ 32) 0, .endBlock 0 0 0 0 0 0 (2 ^ 32), .abortBlock 4 0 0 0 0 0, .abortBlock 0 (2 ^ 16) 0 0 0 0,
      .abortBlock 0 0 0 256 0 0, .abortBlock 0 0 0 0 256 0, .abortBlock 0 0 0 0 0 256, .ackBlock 4 0 0, .ackBlock 0 (2 ^ 16) 0,
      .ackTimer 4, .retransmitTimeout 4, .helloSend 4] : List Instr).all (fun c => !c.wellFormed) = true := by decide

/-- One operand just beyond its range: refused. -/
theorem test_illFormed_6 :
    ([.helloBlock 4 0 0 0 0 0, .helloBlock 0 (2 ^ 64) 0 0 0 0, .helloBlock 0 0 0 256 0 0, .helloBlock 0 0 0 0 4 0,
      .helloTimeout 4, .lsaBlock 4 0 0 [], .lsaBlock 0 (2 ^ 16) 0 [], .lsaBlock 0 0 0 [256], .lsaAge (2 ^ 64),
      .brgReq 4 0 0 [] 0, .brgReq 0 (2 ^ 16) 0 [] 0, .brgReq 0 0 0 [256] 0, .brgRsp 4 0 0 [], .brgRsp 0 (2 ^ 16) 0 [],
      .brgRsp 0 0 0 [256], .timeExchange 4, .timeBlock 4 0 0 0 [] none, .timeBlock 0 0 0 0 [256] none, .heartbeat 4 0 [],
      .heartbeat 0 (2 ^ 16) [], .heartbeat 0 0 [256], .deliver 4 0 [], .deliver 0 (2 ^ 16) [], .deliver 0 0 [256],
      .fcMismatch 16384, .handover .hp0 (2 ^ 32), .batonOffer 4 0 0, .batonOffer 0 (2 ^ 16) 0, .batonCommit 4 0 0,
      .batonCommit 0 (2 ^ 16) 0, .relayProfile 4 0 [], .relayProfile 0 (2 ^ 16) [], .relayProfile 0 0 [256],
      .expRegWrite 16384, .liveBlockWrite 16384, .replaced 7 0 0 ⟨0, 0⟩, .replaced 0 (2 ^ 32) 0 ⟨0, 0⟩,
      .replaced 0 0 (2 ^ 32) ⟨0, 0⟩, .replaced 0 0 0 ⟨7, 0⟩, .replaced 0 0 0 ⟨0, 2 ^ 32⟩, .park .hp0 (2 ^ 32),
      .parkCancel .hp0 (2 ^ 32), .erase .hp0 (2 ^ 32), .program .hp0 (2 ^ 32) 0, .program .hp0 0 (2 ^ 32),
      .verify .hp0 (2 ^ 32), .rollback .hp0 (2 ^ 32), .echoRequestSend 20, .syncHeaderErrors 4 0, .syncHeaderErrors 0 5,
      .blockCrcError 4, .csi2TxPacketSent 2, .csi2PhyRestartDone 2, .busMasterEnable 2 0, .busMasterEnable 0 4097,
      .pcieUncorrectableError 2] : List Instr).all (fun c => !c.wellFormed) = true := by decide

/-! ## Queues -/

def qOne : Pkt := ⟨1, [7, 8], none⟩
def qMine : QueueSt := { emptyQueue with opn := some ⟨5, 0, [1]⟩, wpos := 2 }

theorem witness_QueueWriting :
    qEnabled State.reset 1 = true ∧ (queueOf State.reset 1).opn = none ∧
    usedWords (queueOf State.reset 1) < qCapacity State.reset 1 ∧
    (let s := withQueue 1 qMine
     qEnabled s 1 = true ∧ (queueOf s 1).opn = some ⟨5, 0, [1]⟩ ∧ (5 : Nat) ≠ 6 ∧ (queueOf s 1).waiting = [] ∧
     1 + [1].length < qCapacity s 1 ∧ usedWords (queueOf s 1) < qCapacity s 1 ∧ eff s (QMX_Q_COPY_COPY_Q 1) = 0) ∧
    qEnabled State.reset 8192 = false := by decide +kernel

/-- A queue of 64 words whose open packet leaves no room for one more word. -/
def qTight : State :=
  withCfg [(QMX_Q_CFG_ENABLE 4, 1), (QMX_Q_CFG_DEPTH_LOG2 4, 6)]
    (withQueue 4 { emptyQueue with opn := some ⟨5, 0, List.replicate 63 0⟩, wpos := 0 })

theorem witness_QueueOvertakesMark :
    qEnabled qTight 4 = true ∧ (queueOf qTight 4).opn = some ⟨5, 0, List.replicate 63 0⟩ ∧
    qCapacity qTight 4 = 1 + (List.replicate 63 0).length := by decide +kernel

theorem test_oversize_counts :
    rd (after (.packetWord 4 5 9 none) qTight) (QMX_Q_LOST_OVERSIZE 4) = 1 ∧
    (queueOf (after (.packetWord 4 5 9 none) qTight) 4).opn = none := by decide +kernel

/-- A full queue, in either full mode, with an older packet and an open one. -/
def qFull (mode : Nat) : State :=
  withCfg [(QMX_Q_CFG_ENABLE 4, 1), (QMX_Q_CFG_DEPTH_LOG2 4, 6), (QMX_Q_CFG_MODE 4, mode)]
    (withQueue 4 { emptyQueue with pkts := [⟨1, List.replicate 60 0, none⟩], opn := some ⟨5, 61, [1, 2]⟩, wpos := 0, seq := 1 })

theorem witness_QueueFullModes :
    (∀ m ∈ [0, 1], qEnabled (qFull m) 4 = true ∧ (queueOf (qFull m) 4).opn = some ⟨5, 61, [1, 2]⟩ ∧
      1 + [1, 2].length < qCapacity (qFull m) 4 ∧ qCapacity (qFull m) 4 ≤ usedWords (queueOf (qFull m) 4) ∧
      (queueOf (qFull m) 4).pkts ≠ []) ∧
    qOverwrite (qFull 0) 4 = false ∧ qOverwrite (qFull 1) 4 = true := by decide +kernel

theorem test_full_modes :
    (queueOf (after (.packetWord 4 5 9 none) (qFull 0)) 4).pkts.length = 1 ∧
    rd (after (.packetWord 4 5 9 none) (qFull 0)) (QMX_Q_LOST_LOST 4) = 1 ∧
    (queueOf (after (.packetWord 4 5 9 none) (qFull 1)) 4).opn = some ⟨5, 61, [1, 2, 9]⟩ ∧
    (queueOf (after (.packetWord 4 5 9 none) (qFull 1)) 4).pkts = [] := by decide +kernel

theorem witness_QueueUpkeep :
    (let s := withQueue 1 { emptyQueue with dram := 32 }
     qEnabled s 1 = true ∧ 6 < eff s (QMX_Q_CFG_DEPTH_LOG2 1) ∧ (queueOf s 1).dram ≠ 0 ∧ (queueOf s 1).opn = none ∧
     (∀ k ∈ [32], min (queueOf s 1).dram (16 * 2) ≤ k) ∧ 31 < min (queueOf s 1).dram (16 * 2)) ∧
    packetAt (32 + 0) [qOne, ⟨2, List.replicate 40 0, none⟩] = some ⟨2, List.replicate 40 0, none⟩ ∧
    (packetAt 2 [qOne, ⟨2, [9], none⟩] = some qOne ∧ packetAt 3 [qOne, ⟨2, [9], none⟩] = some ⟨2, [9], none⟩) ∧
    max [qOne].length 0 ≠ 0 ∧
    qEnabled (withQueue 1 { emptyQueue with pkts := [qOne] }) 1 = true ∧
    (let s := withQueue 8191 emptyQueue
     (queueOf s 8191).opn = none ∧
     fld (queueCfgNew s 8191).1 7 3 = eff s (QMX_Q_CFG_DEPTH_LOG2 8191) ∧
     fld (queueCfgNew (withCfg [(QMX_Q_CFG_ENABLE 1, 1)]) 1).1 0 0 = 1) ∧
    (let s : State := { withCfg [(QMX_Q_CFG_DEPTH_LOG2 1, 9)] with cfgX := [] }
     fld (queueCfgNew s 1).1 7 3 ≠ eff s (QMX_Q_CFG_DEPTH_LOG2 1) ∧ (queueOf s 1).opn = none) ∧
    (∀ r ∈ [0, 3], (portOf ({ State.reset with readPorts := [(r, ⟨some (1, 1), [7]⟩)] } : State) r).claim = some (1, 1)) := by
  decide +kernel

/-- R280, R281: a pointer mismatch and an uncorrectable word of the spilled part. -/
theorem test_pointer_reset_and_spill :
    (let t := after (.packetOpen 1 5 (some (3, 9))) (withQueue 1 { emptyQueue with pkts := [qOne], seq := 1 })
     (queueOf t 1).pkts = [] ∧ (queueOf t 1).seq = 9 ∧ rd t (QMX_Q_LOST_LOST 1) = 3 ∧ rd t QMX_EVT_PTR_RESET = 1 ∧
       (queueOf t 1).opn = some ⟨5, 0, []⟩) ∧
    (let t := after (.spillMove 1 2 true [0]) (withQueue 1 { emptyQueue with pkts := [qOne, ⟨2, List.replicate 90 0, none⟩], dram := 30 })
     (queueOf t 1).pkts = [qOne] ∧ rd t (QMX_Q_LOST_LOST 1) = 1) := by decide +kernel

/-- Read port `r` selects queue 1, which holds packet 1. -/
def qRead (r : Nat) : State :=
  withRegs [(QMX_RP_SEL_TARGET r, 1)]
    (withCfg [(QMX_Q_CFG_ENABLE 1, 1), (QMX_Q_CFG_READERS 1, 15)] (withQueue 1 { emptyQueue with pkts := [qOne], seq := 1 }))

theorem witness_QueueReading :
    (∀ r ∈ [0, 3], origPresent (qRead r).variant (portOrig r) = true ∧ (portOf (qRead r) r).claim = none ∧
      isSet (qRead r) (QMX_RP_SEL_GROUP_MODE r) = false ∧ rd (qRead r) (QMX_RP_SEL_TARGET r) = 1 ∧
      isReader (qRead r) r 1 = true ∧ (queueOf (qRead r) 1).pkts.find? (fun p => p.claim.isNone) = some qOne ∧ qOne.words ≠ [] ∧
      isSet (qRead r) (QMX_RP_STAT_BROKEN r) = false ∧ writes (portOrig r) = true) ∧
    (let s := withRegs [(QMX_RP_SEL_TARGET 0, 1)] (withCfg [(QMX_Q_CFG_READERS 1, 0)])
     (portOf s 0).claim = none ∧ isSet s (QMX_RP_SEL_GROUP_MODE 0) = false ∧ isReader s 0 1 = false) ∧
    (let s : State := { qRead 3 with readPorts := [(3, ⟨some (1, 1), [7, 8]⟩)] }
     (portOf s 3).claim = some (1, 1) ∧ (portOf s 3).rest = 7 :: [8]) ∧
    (let s : State := { qRead 3 with readPorts := [(3, ⟨some (1, 1), [8]⟩)] }
     (portOf s 3).rest = 8 :: []) := by decide +kernel

theorem test_header_read :
    said (after (.headerRead .hp0 0 none) (qRead 0)) =
      some (.readData .hp0 (QMX_RP_HEAD_ALL 0).addr (headerWord true false false 1 1 2)) ∧
    (portOf (after (.headerRead .hp0 0 none) (qRead 0)) 0).rest = [7, 8] := by decide +kernel

theorem test_data_read :
    said (after (.dataRead .hp0 0 1 none) (after (.headerRead .hp0 0 none) (qRead 0))) =
      some (.readData .hp0 (QMX_RP_DATA_ALL 0 0).addr 7) := by decide +kernel

theorem witness_OnlyTheOwnerReaches :
    origPresent State.reset.variant .hp1 = true ∧ writes .hp1 = true ∧
    (∀ r ∈ [0, 2, 3], Orig.hp1 ≠ portOrig r) ∧ (∀ t ∈ [0, 2, 3], Orig.hp1 ≠ targetOrig t) ∧
    origPresent State.reset.variant .hp0 = true ∧ Orig.hp0 ≠ portOrig 1 ∧ Orig.hp0 ≠ targetOrig 1 := by decide +kernel

/-! ## Events -/

/-- Sources 0x10 and 0x11 have level 1 and are enabled at target `t`, with priorities 5 and `p`. -/
def evTwo (t p : Nat) : State :=
  withRegs [(EVC_SRC_LEVEL_LEVEL 0, 0x30000), (EVC_T_EN_EN t 0, 0x30000)]
    (withCfg [(EVC_SRC_CFG_PRIO 0x10, 5), (EVC_SRC_CFG_PRIO 0x11, p)])

theorem witness_EventClaim :
    (∀ t ∈ [0, 3], origPresent State.reset.variant (targetOrig t) = true ∧
      isSet (evTwo t 5) (EVC_T_CTRL_GDIS t) = false ∧ mostUrgent (evTwo t 5) (claimable (evTwo t 5) t) = some 0x10) ∧
    isSet (wr (EVC_T_CTRL_GDIS 0) 1 State.reset) (EVC_T_CTRL_GDIS 0) = true ∧
    isSet State.reset (EVC_T_CTRL_GDIS 0) = false ∧ claimable State.reset 0 = [] := by decide +kernel

theorem test_claim :
    mostUrgent (evTwo 0 6) (claimable (evTwo 0 6) 0) = some 0x11 ∧
    activeAt (after (.claim .hp0 0) (evTwo 0 6)) 0 0x11 = true ∧
    activeAt (after (.claim .hp0 0) (evTwo 0 6)) 0 0x10 = false := by decide +kernel

theorem witness_EventTargets :
    sourceLevel State.reset 0x400 = levelOf State.reset 0x400 ∧
    (sourceLevel (evTwo 0 5) 0x10 = false ∧ levelOf (evTwo 0 5) 0x10 = true) ∧
    (let s := withRegs [(⟨0x10040, 0, 0⟩, 1)]
     sourceLevel s 0x10 = true ∧ levelOf s 0x10 = false) ∧
    (∀ t ∈ [0, 3], writes (targetOrig t) = true ∧ origPresent State.reset.variant (targetOrig t) = true ∧
      activeAt (setActive t 0x41F true State.reset) t 0x41F = true ∧ activeAt State.reset t 0x7FF = false ∧
      pacerRuns (startPacer 31 t (withCfg [(EVC_PACER_HOLDOFF_US 31, 1)])) 31 t = true) := by decide +kernel

theorem test_enable_and_pacer :
    rd (after (.enableWrite .hp0 0 0 0xFFFFFFFF) State.reset) (EVC_T_EN_EN 0 0) = 0x01FF001E ∧
    pacerRuns (after (.pacerExpire 31 3) (startPacer 31 3 (withCfg [(EVC_PACER_HOLDOFF_US 31, 1)]))) 31 3 = false := by decide +kernel

theorem witness_HostNotification :
    (∀ t ∈ [0, 1], isSet (evTwo t 5) (EVC_T_CTRL_GDIS t) = false ∧
      mostUrgent (evTwo t 5) (notifiable (evTwo t 5) t) = some 0x10 ∧
      rd (evTwo t 5) (EVC_T_STAT_NOTE_PRIO t) < prioOf (evTwo t 5) 0x10 ∧
      prioOf (evTwo t 5) 0x10 < rd (wr (EVC_T_STAT_NOTE_PRIO t) 9 (evTwo t 5)) (EVC_T_STAT_NOTE_PRIO t) ∧
      mostUrgent (wr (EVC_T_STAT_NOTE_PRIO t) 9 (evTwo t 5)) (notifiable (wr (EVC_T_STAT_NOTE_PRIO t) 9 (evTwo t 5)) t) =
        some 0x10 ∧
      isSet (wr (EVC_T_CTRL_GDIS t) 1 (evTwo t 5)) (EVC_T_CTRL_GDIS t) = true) := by decide +kernel

theorem test_lines_of_targets :
    (notify 2 (evTwo 2 5)).pins.intLow = true ∧ (notify 3 (evTwo 2 5)).pins.svcLine = false := by decide +kernel

theorem witness_CompletionEndsActive :
    (∀ t ∈ [0, 3], origPresent State.reset.variant (targetOrig t) = true ∧
      activeAt (setActive t 0x41F true State.reset) t 0x41F = true ∧ activeAt State.reset t 0x41F = false) := by decide +kernel

/-! ## Camera ports -/

/-- Port `p` streams; its map entry 0 takes 2 lines of 4 RAW10 pixels on virtual channel `vc` to context 3, enabled as given. -/
def camOn (p vc on : Nat) : State :=
  withRegs [(CPT_STATE_STATE p, 4)]
    (withCfg [(CPT_MAP_W0_VALID p 0, 1), (CPT_MAP_W0_VC p 0, vc), (CPT_MAP_W0_DT p 0, 0x2B), (CPT_MAP_W0_CTX p 0, 3),
      (CPT_MAP_W1_LINES p 0, 2), (CPT_MAP_W2_PIXELS p 0, 4), (CTX_ENABLE 3, on), (CPT_MAP_W3_CRC_POLICY p 0, 1)])

/-- A started part of map entry 0 with `got` lines received, in an open frame. -/
def camFrame (got : Nat) : State :=
  { camOn 0 0 1 with
    frames := [newFrame 0 3 0 0 9 0 0 0 none [⟨0, got, true, false, some [1, 2, 3, 4], none⟩]], nextFrame := 1 }

theorem witness_SensorFramePackets :
    (∀ p ∈ [0, 19], ∀ vc ∈ [0, 15],
      portExists (camOn p vc 1) p = true ∧ accepting (camOn p vc 1) p = true ∧ (camOf (camOn p vc 1) p).trig = none ∧
      (∃ e ∈ entriesOnVc (camOn p vc 1) (islandEpoch (camOn p vc 1) (islCP p)) p vc,
        ctxEnabled (camOn p vc 1) (islandEpoch (camOn p vc 1) (islCP p))
          (mapCtx (camOn p vc 1) (islandEpoch (camOn p vc 1) (islCP p)) p e) = true) ∧
      entriesOnVc (camOn p vc 0) (islandEpoch (camOn p vc 0) (islCP p)) p vc ≠ [] ∧
      (∀ e ∈ entriesOnVc (camOn p vc 0) (islandEpoch (camOn p vc 0) (islCP p)) p vc,
        ctxEnabled (camOn p vc 0) (islandEpoch (camOn p vc 0) (islCP p))
          (mapCtx (camOn p vc 0) (islandEpoch (camOn p vc 0) (islCP p)) p e) = false)) ∧
    entriesOnVc (camOn 0 0 1) (islandEpoch (camOn 0 0 1) (islCP 0)) 0 1 = [] ∧
    (∀ vc ∈ [16, 31], 16 ≤ vc ∧ endingFrames (camOn 0 0 1) 0 vc = []) ∧ endingFrames (camOn 0 0 1) 0 0 = [] ∧
    endingFrames (camFrame 2) 0 0 ≠ [] ∧ accepting (camFrame 2) 0 = true ∧
    (({ hdrBad := true } : PktFlags).hdrBad = true ∧ ({ hdrBad := true } : PktFlags).rtxFail = false) ∧
    accepting State.reset 0 = false ∧ portExists State.reset 0 = true := by decide +kernel

/-- R101: a frame number not above the last one's carries into the upper half. -/
theorem test_frame_counter :
    nextCounter 0x1FFFF 1 = (0x20001, false) ∧ nextCounter 0x10005 7 = (0x10007, true) ∧
    nextCounter 0xFFFFFFFF 0 = (0, false) := by decide +kernel

theorem test_frame_opens :
    (after (.frameStartPacket 0 0 9 {}) (camOn 0 0 1)).frames.map (fun f => (f.ctx, f.fc, f.isOpen)) = [(3, 9, true)] ∧
    rd (after (.frameStartPacket 0 0 9 {}) (camOn 0 0 0)) (CPT_DISC_CTX_OFF 0) = 1 ∧
    (after (.frameEndPacket 0 0 {}) (camFrame 2)).frames.map (·.isOpen) = [false] ∧
    rd (after (.frameEndPacket 0 0 {}) (camOn 0 0 0)) (CPT_DISC_CTX_OFF 0) = 1 ∧
    rd (after (.frameEndPacket 0 31 {}) (camOn 0 0 1)) (CPT_DISC_UNMAPPED 0) = 1 := by decide +kernel

theorem witness_SensorLines :
    (∀ g ∈ [1, 2], portExists (camFrame g) 0 = true ∧ accepting (camFrame g) 0 = true ∧
      partFor (camFrame g) 0 0 0x2B =
        some (newFrame 0 3 0 0 9 0 0 0 none [⟨0, g, true, false, some [1, 2, 3, 4], none⟩], ⟨0, g, true, false, some [1, 2, 3, 4], none⟩)) ∧
    1 < mapLines (camFrame 1) 0 0 0 ∧ mapLines (camFrame 2) 0 0 0 ≤ 2 ∧ mapPixels (camFrame 1) 0 0 0 = [1, 2, 3, 4].length ∧
    partFor (camFrame 1) 0 0 0x2C = none ∧ ({} : PktFlags).keep = none ∧ ({ keep := some 3 } : PktFlags).keep ≠ none ∧
    (∀ e ∈ entriesOnVc (camFrame 1) (islandEpoch (camFrame 1) (islCP 0)) 0 0,
      mapDt (camFrame 1) (islandEpoch (camFrame 1) (islCP 0)) 0 e ≠ 0x2C) := by decide +kernel

/-- R470: four RAW10 pixels from their upper bits and the byte of low bits. -/
theorem test_raw10_line :
    ((after (.longPacket 0 0 0x2B [1, 2, 3, 4, 0xE4] {}) (camFrame 1)).frames.map fun f => f.arriving.map (·.px)) =
      [[[4, 9, 14, 19]]] ∧
    rd (after (.longPacket 0 0 0x2B [1, 2, 3, 4, 0xE4] {}) (camFrame 2)) (CPT_FRAME_CNT_LONG 0) = 1 := by decide +kernel

/-- A port in a state, locked or not. -/
def camIn (p st lock : Nat) : State := withRegs [(CPT_STATE_STATE p, st), (CPT_STATE_LOCK p, lock)]

theorem witness_PortLinkEvents :
    ((openFrames (camFrame 1) 0).find? fun f => f.ctx == 3).isSome = true ∧
    (∀ p ∈ [0, 15], portExists (camIn p 2 1) p = true ∧ isAphy p = true ∧ isSet (camIn p 4 1) (CPT_STATE_LOCK p) = true ∧
      isSet (camIn p 2 0) (CPT_STATE_LOCK p) = false ∧ portState (camIn p 2 0) p = 2 ∧ (camOf (camIn p 2 0) p).stopping = false ∧
      openFrames (camIn p 2 0) p = []) ∧
    (camOf (setCam 19 { resetCam with losing := true } State.reset) 19).losing = true ∧
    (camOf State.reset 19).losing = false ∧ portExists State.reset 19 = true := by decide +kernel

theorem test_lock_lost :
    rd (after (.lockLost 15) (camIn 15 4 1)) (CPT_STATE_LOCK 15) = 0 ∧
    (camOf (after (.lockLost 15) (camIn 15 4 1)) 15).losing = true := by decide +kernel

/-- Port 0 runs a script of the given code from offset 0. -/
def camRun (code : List Nat) (s : State := camIn 0 3 1) : State := setRun 0 ⟨1, 0, code, 0, 0, [], .ready⟩ s

theorem witness_ScriptInstructions :
    (∀ op ∈ List.range 12, nextInstr (camRun [op, 1, 0, 0, 0]) 0 op = some ⟨1, 0, [op, 1, 0, 0, 0], 0, 0, [], .ready⟩) ∧
    portExists (camRun []) 0 = true ∧ passive (camRun []) 0 = false ∧ isAphy 0 = true ∧
    isSet (camRun []) (CPT_STATE_LOCK 0) = true ∧ isSet (camRun [5, 0, 1] (camIn 0 3 0)) (CPT_STATE_LOCK 0) = false ∧
    arg ⟨1, 0, [6, 1], 0, 0, [], .ready⟩ 1 = 1 ∧
    passive (setRun 0 (passInstr ⟨1, 0, [6, 1], 0, 0, [], .ready⟩ 2) (camRun [6, 1])) 0 = false ∧
    linkLocked (camRun [7]) 0 = true ∧ linkLocked (camRun [7] (camIn 0 3 0)) 0 = false ∧
    sget (fun _ => 0) ([] : Sparse Nat) 0 < 1 ∧ 1 ≤ sget (fun _ => 0) [(0, 1)] 0 := by decide +kernel

/-- R50, R52: a delay waits; a jump goes to its offset; a loop goes back until its count is reached. -/
theorem test_script_control :
    (camOf (after (.scriptDelay 0) (camRun [4, 10, 0])) 0).script = some ⟨1, 0, [4, 10, 0], 3, 1, [], .delay⟩ ∧
    ((camOf (after (.scriptJump 0) (camRun [8, 0x34, 0x12])) 0).script.map (·.pc)) = some 0x1234 ∧
    ((camOf (after (.scriptLoop 0) (camRun [9, 2, 0x10, 0])) 0).script.map (·.pc)) = some 0x10 := by decide +kernel

theorem test_script_write :
    (twbOf (after (.scriptWr16 0) (camRun [1, 0x36, 0x02, 0x30, 2, 0xAA, 0xBB])) 0).svcQ =
      [⟨.script 0 1, 0x36, [0x30, 0x02, 0xAA, 0xBB], 0⟩] ∧
    ((camOf (after (.scriptWr16 0) (camRun [1, 0x36, 0x02, 0x30, 2, 0xAA, 0xBB])) 0).script.map (·.wait)) = some .bus := by
  decide +kernel

/-- Port 0 has a supervision script. -/
def camSup : State :=
  let s := camIn 0 4 1
  { s with ldr := { s.ldr with scripts := [⟨7, 1, 1, 0, [0, 0]⟩] } }

theorem witness_ScriptWaitsAndTimers :
    (camOf (setRun 0 ⟨1, 0, [], 0, 65536, [], .delay⟩ State.reset) 0).script = some ⟨1, 0, [], 0, 65536, [], .delay⟩ ∧
    (camOf (setRun 0 ⟨1, 0, [], 0, 0, [], .lock 8⟩ State.reset) 0).script = some ⟨1, 0, [], 0, 0, [], .lock 8⟩ ∧
    (65536 : Nat) ≤ 65536 ∧ portState (camIn 0 6 0) 0 = 6 ∧ (∀ st ∈ [6, 8], (camOf (camIn 0 st 0) 0).stopping = false) ∧
    (∀ p ∈ [0, 15, 16, 19], portState (camIn p 8 0) p = 8 ∧ (camOf (camIn p 8 0) p).cycling = false ∧ portExists State.reset p = true) ∧
    isAphy 16 = false ∧ isAphy 15 = true ∧
    (camOf (setCam 0 { resetCam with cycling := true } (camIn 0 8 0)) 0).cycling = true ∧
    (portState camSup 0 = 4 ∧ (camOf camSup 0).script = none ∧ (camOf camSup 0).stopping = false ∧ stoppedA camSup = false ∧
      scriptFor camSup 0 1 = some ⟨7, 1, 1, 0, [0, 0]⟩) := by decide +kernel

theorem test_backoff :
    portState (after (.backoffExpired 0) (camIn 0 6 1)) 0 = 3 ∧ portState (after (.backoffExpired 0) (camIn 0 6 0)) 0 = 2 := by
  decide +kernel

theorem witness_AttemptOutcome :
    (∀ p ∈ [0, 19], p < 20) ∧ (∀ c ∈ [0x80, 0xBF], 0x80 ≤ c ∧ c ≤ 0xBF ∧ c < 256) ∧
    (∀ c ∈ [0xC0, 0xFC, 0xFE], (0xC0 ≤ c ∧ c ≤ 0xFC ∨ c = 0xFE) ∧ c < 256) ∧
    (∀ c ∈ [1, 0x7F, 0xFD], (0 < c ∧ c < 0x80 ∨ c = 0xFD ∨ c = 0xFF ∧ (0 : Nat) = 0) ∧ c < 256) ∧
    rd State.reset (CPT_STATE_ATTEMPT 0) < eff (withCfg [(CPT_BRINGUP_RETRY 0, 1)]) (CPT_BRINGUP_RETRY 0) ∧ (queueOf State.reset 8).opn = none ∧
    eff (withCfg [(CPT_BRINGUP_RETRY 0, 0)]) (CPT_BRINGUP_RETRY 0) ≤ rd State.reset (CPT_STATE_ATTEMPT 0) := by decide +kernel

theorem test_attempt_outcome :
    portState (attemptEnded 0 0 0 (camIn 0 3 1)) 0 = 4 ∧ portState (attemptEnded 0 0 0xBF (camIn 0 3 1)) 0 = 7 ∧
    portState (attemptEnded 0 0 0xC0 (camIn 0 3 1)) 0 = 8 ∧
    portState (attemptEnded 0 0 0x7F (withCfg [(CPT_BRINGUP_RETRY 0, 1)] (camIn 0 3 1))) 0 = 6 := by decide +kernel

/-- Port 0 with a trigger that has not been sent, and its latency known or not. -/
def camTrig (valid : Nat) : State :=
  wr (CPT_TRIG_LAT_VALID 0) valid (setCam 0 { resetCam with trig := some ⟨500, 0, 500, false, false, false, [3], []⟩, pulse := true }
    (camIn 0 4 1))

def camEcho (e : EchoSt) : State := setCam 0 { resetCam with echo := some e } (camIn 0 4 1)

theorem witness_TriggersAndLatency :
    ((camOf (camTrig 1) 0).trig = some ⟨500, 0, 500, false, false, false, [3], []⟩ ∧ canTrigger (camTrig 1) 0 = true ∧
      canTrigger (camTrig 0) 0 = false ∧ (camOf (camTrig 1) 0).pulse = true ∧ isSet (camTrig 1) (CPT_STATE_LOCK 0) = true ∧
      isSet (wr (CPT_STATE_LOCK 0) 0 (camTrig 1)) (CPT_STATE_LOCK 0) = false) ∧
    (isAphy 0 = true ∧ (camOf (camIn 0 4 1) 0).echo = none) ∧
    ((camOf (camEcho ⟨15, 1, 0, 0⟩) 0).echo = some ⟨15, 1, 0, 0⟩ ∧ (15 : Nat) < 16 ∧ (1 : Nat) ≠ 0) ∧
    ((camOf (camEcho ⟨16, 0, 0, 0⟩) 0).echo = some ⟨16, 0, 0, 0⟩ ∧ (16 : Nat) ≤ 16) ∧
    (camOf (camEcho ⟨16, 0, 3, 900⟩) 0).echo = some ⟨16, 0, 3, 900⟩ := by decide +kernel

theorem test_trigger_assert :
    ((camOf (after (.triggerAssertSend 0) (camTrig 1)) 0).trig.map (·.sent)) = some true ∧
    (camOf (after (.triggerAssertSend 0) (camTrig 0)) 0).trig = none ∧
    (camOf (after (.triggerReleaseSend 0) (camTrig 1)) 0).pulse = false := by decide +kernel

/-! ## Scheduler -/

def aLive : Live := ⟨[], 0, 0, 0, 0⟩
def aLine (k : Nat) : Line := ⟨k, 0, 0, [1, 2, 3, 4], 0, aLive, 0, false⟩

/-- Context 3 on slice 4 with a frame whose first line has reached the scheduler; its line time makes it fit or not. -/
def schedOne (mode tier lineNs : Nat) (adm : Adm) (grp : Nat := 0) : State :=
  { withCfg [(CTX_ENABLE 3, 1), (CTX_MODE 3, mode), (CTX_TIER 3, tier), (CTX_WIDTH 3, 3840), (CTX_LINE_NS 3, lineNs), (CTX_SLICE 3, 4),
      (CTX_HEIGHT 3, 2), (CTX_WIN_LINES 3, 4), (CTX_SYNC_GRP 3, grp)] with
    frames := [{ newFrame 0 3 0 0 9 0 0 0 (if grp = 0 then none else some 77) [] with adm, arriving := [aLine 0] }], nextFrame := 1 }

/-- The hypotheses of an admission: the frame is found, and belongs to the sync group given or to none. -/
def admFinds (s : State) (g : Option (Nat × Nat)) : Bool :=
  match s.frames.find? fun f => f.ctx == 3 && f.adm == .waiting && !f.arriving.isEmpty with
  | some f => syncOf s f == g
  | none => false

theorem witness_FrameAdmission :
    admFinds (schedOne 0 1 20000 .waiting) none = true ∧ admFinds (schedOne 1 1 20000 .waiting) none = true ∧
    admFinds (schedOne 0 1 1000 .waiting) none = true ∧
    (let s := schedOne 0 1 20000 .waiting
     admits (bankFld s.chip (bankOf s 0) (CTX_TIER 3)) (committed s 4) (rateIn s.chip (bankOf s 0) 3) = true) ∧
    (let s := schedOne 1 1 1000 .waiting
     processedIn s.chip (bankOf s 0) 3 = false) ∧
    (let s := schedOne 0 1 1000 .waiting
     processedIn s.chip (bankOf s 0) 3 = true ∧
     admits (bankFld s.chip (bankOf s 0) (CTX_TIER 3)) (committed s 4) (rateIn s.chip (bankOf s 0) 3) = false) ∧
    (admits 1 0 9200 = true ∧ admits 1 1 9200 = false ∧ admits 0 1 9200 = true) ∧
    (∀ n ∈ [20000, 1000],
      admFinds (schedOne 0 1 n .waiting 5) (some (5, 77)) = true ∧
      (schedOne 0 1 n .waiting 5).syncs.find? (fun y => y.grp == 5 && y.key == 77) = none) ∧
    swf (regReset Chip.default) (bankOf (schedOne 0 1 20000 .waiting 5) 0) = true ∧
    groupAdmits (schedOne 0 1 20000 .waiting 5) 0 (membersOf (schedOne 0 1 20000 .waiting 5) 0 5) [] = true ∧
    groupAdmits (schedOne 0 1 1000 .waiting 5) 0 (membersOf (schedOne 0 1 1000 .waiting 5) 0 5) [] = false ∧
    (∀ ok ∈ [true, false],
      ({ schedOne 0 1 20000 .waiting 5 with syncs := [⟨5, 77, 0, ok, []⟩] } : State).syncs.find? (fun y => y.grp == 5 && y.key == 77) =
        some ⟨5, 77, 0, ok, []⟩) := by decide +kernel

/-- R129, R137: a heat of an 8 Mpixel context takes 1,928 cycles, one of a cabin camera 808. -/
theorem test_heat_cycles : heatCycles 3840 3840 = 1928 ∧ heatCycles 1600 1600 = 808 := by decide +kernel

theorem test_admission :
    ((after (.frameAdmission 3) (schedOne 0 1 20000 .waiting)).frames.map (·.adm)) = [.admitted] ∧
    rd (after (.frameAdmission 3) (schedOne 0 1 1000 .waiting)) (CTX_REFUSE_RUN 3) = 1 := by decide +kernel

/-- An admitted frame on slice 4 whose line 0 is ready. -/
def schedReady : State :=
  { schedOne 0 1 20000 .admitted with
    frames := [{ newFrame 0 3 0 0 9 0 0 0 none [] with adm := .admitted, slice := 4, win := [aLine 0], ready := [(0, 0)] }] }

theorem witness_HeatsInDeadlineOrder :
    (∀ m ∈ [0, 1], ((schedOne m 1 20000 .admitted).frames.find? fun f => f.ctx == 3 && f.adm == .admitted && !f.arriving.isEmpty) =
        some { newFrame 0 3 0 0 9 0 0 0 none [] with adm := .admitted, arriving := aLine 0 :: [] }) ∧
    processedIn Chip.default (bankOf (schedOne 0 1 20000 .admitted) 0) 3 = true ∧
    processedIn Chip.default (bankOf (schedOne 1 1 20000 .admitted) 0) 3 = false ∧
    (let s : State := { schedReady with running := [⟨4, 0, ⟨0, [aLine 0], []⟩⟩] }
     s.running.find? (fun r => r.slice == 4) = some ⟨4, 0, ⟨0, [aLine 0], []⟩⟩ ∧ (frameById s 0).isSome = true ∧
     ∃ r ∈ s.running, r.slice = 4) ∧
    (schedReady.running = [] ∧ firstOf (candidates schedReady 4) = some (80000, 1, 3, 0) ∧ (frameById schedReady 0).isSome = true) := by
  decide +kernel

/-- The order of R137's worked example: an equal deadline and tier go to the lower number; an earlier deadline goes first. -/
theorem test_heat_order :
    firstOf [(28000, 1, 17, 1), (28000, 1, 16, 0)] = some (28000, 1, 16, 0) ∧
    firstOf [(67000, 2, 64, 3), (30000, 1, 48, 2)] = some (30000, 1, 48, 2) := by decide +kernel

/-! ## DMA channels and host ports -/

def dSet : DmaSet := { id := 0, ring := 0x1000, cpl := 0x2000, ringLog2 := 2, cplLog2 := 4, seq := 9, pi := 2, k := 3, reserved := 0, fresh := false }
def dBuf : Buf := ⟨0, 0x77, 0x4000, [], [(0x9000, 600)], 1, false, 0, false⟩
def dFrame (t : Take) : ChFrame :=
  { serial := 1, o := some 0, replay := false, foot := 256, pitch := 64, listMax := 4, attr := 0, take := t
    items := [⟨0, [1, 2, 3], 0⟩], feed := [], isOpen := true, tag := none, refusedOnce := false, cut := 0 }

/-- Channel `c` in a state of DMX_CH_STAT, with what it holds; two buffers are posted on it. -/
def dChan (c st : Nat) (x : ChanSt) : State :=
  let s := withRegs [(DMX_CH_STAT_STATE c, st), (DMX_CH_PI_PI c, 2)]
  { s with chans := [(c, x)], ldr := { s.ldr with loaded := true } }

def dStaged (c pi : Nat) : State :=
  withRegs [(DMX_CH_NXT_SIZE_RING_LOG2 c, 2), (DMX_CH_NXT_SIZE_CPL_LOG2 c, 15), (DMX_CH_NXT_SIZE_PI c, pi)]

theorem witness_DmaSets :
    (∀ c ∈ [0, 255], chanHere State.reset c = true ∧ stagingOk (dStaged c 4) c = true ∧ stagingOk (dStaged c 5) c = false) ∧
    (let s := dChan 255 0 { emptyChan with cur := some dSet, armed := some dSet }
     (chanOf s 255).cur = some dSet ∧ (chanOf s 255).armed = some dSet ∧ s.ldr.loaded = true ∧ chanState s 255 = 0 ∧
     (4 + 2 ^ 16 - rd s (DMX_CH_IDX_CI 255)) % 2 ^ 16 ≤ 2 ^ dSet.ringLog2 ∧
     2 ^ dSet.ringLog2 < (5 + 2 ^ 16 - rd s (DMX_CH_IDX_CI 255)) % 2 ^ 16 ∧
     (3 + 2 ^ 16 - rd s (DMX_CH_CPL_CI_CI 255)) % 2 ^ 16 ≤ (dSet.k + 2 ^ 16 - rd s (DMX_CH_CPL_CI_CI 255)) % 2 ^ 16) ∧
    ((chanOf State.reset 0).cur = none ∧ (chanOf State.reset 0).armed = none ∧ State.reset.ldr.loaded = false) ∧
    (let s := dChan 0 0 emptyChan
     chanState s 0 = 0 ∧ (chanOf s 0).armed = none) ∧
    chanState (dChan 0 1 emptyChan) 0 = 1 ∧ chanState (dChan 0 2 emptyChan) 0 = 2 := by decide +kernel

/-- R252, R253: START takes the armed set and writes its producer index. -/
theorem test_start_takes_the_set :
    rd (after (.start 255) (dChan 255 0 { emptyChan with armed := some dSet })) (DMX_CH_PI_PI 255) = 2 ∧
    rd (after (.start 255) (dChan 255 0 { emptyChan with armed := some dSet })) (DMX_CH_STAT_TAKEN_SEQ 255) = 9 := by decide +kernel

theorem witness_DmaStopAbortHalt :
    chanHere State.reset 255 = true ∧
    (chanState (dChan 255 1 { emptyChan with frames := [dFrame .pending] }) 255 = 1 ∧
      ∀ f ∈ (chanOf (dChan 255 1 { emptyChan with frames := [dFrame .pending] }) 255).frames, isTaken f = false) ∧
    chanState State.reset 0 ≠ 1 ∧ chanState (dChan 0 3 emptyChan) 0 = 3 ∧ (dChan 0 3 emptyChan).ldr.loaded = true ∧
    (∀ st ∈ [1, 2], chanState (dChan 0 st emptyChan) 0 = st ∧ takenBufs (chanOf (dChan 0 st emptyChan) 0) = [] ∧
      takenBufs (chanOf (dChan 0 st { emptyChan with frames := [dFrame (.taken dBuf)] }) 0) ≠ []) ∧
    (let s := dChan 0 1 { emptyChan with listRd := some 0x4000 }
     (chanOf s 0).listRd = some 0x4000 ∧ asked s 0 1 = true) ∧ (∀ n ∈ [1, 4], 1 ≤ n ∧ n ≤ 4) ∧
    (let s := dChan 255 3 { emptyChan with cur := some dSet }
     chanState s 255 = 3 ∧ (chanOf s 255).armed = none ∧ (chanOf s 255).abandoned = []) ∧
    (let s := dChan 255 3 { emptyChan with cur := some dSet, abandoned := [(0, 0x77, 256, 0)] }
     chanState s 255 = 3 ∧ (chanOf s 255).armed = none ∧ (chanOf s 255).abandoned ≠ [] ∧ canReach s (portOfChan 255) = false ∧
     canReach (withRegs [(HLK_STAT_UP 1, 1), (HLK_STAT_BME 1, 1)] s) (portOfChan 255) = true) := by
  decide +kernel

theorem test_halt :
    chanState (after (.completionTimeout 0 1 4) (dChan 0 1 { emptyChan with listRd := some 0x4000 })) 0 = 3 ∧
    rd (after (.completionTimeout 0 1 4) (dChan 0 1 { emptyChan with listRd := some 0x4000 })) (DMX_CH_ERR_LO_ADDR 0) = 0x4000 ∧
    (let s := dChan 255 3 { emptyChan with cur := some dSet, abandoned := [(0, 0x77, 256, 0)] }
     chanState (after (.start 255) s) 255 = 3 ∧ rd (after (.start 255) s) (DMX_CH_STAT_HALT_CAUSE 255) = 8 ∧
     chanState (after (.start 255) (withRegs [(HLK_STAT_UP 1, 1), (HLK_STAT_BME 1, 1)] s)) 255 = 1) := by
  decide +kernel

/-- Channel 255 runs with a set and one frame; its port can reach the host. -/
def dRun (t : Take) : State :=
  withRegs [(HLK_STAT_UP 1, 1), (HLK_STAT_BME 1, 1)] (dChan 255 1 { emptyChan with cur := some dSet, frames := [dFrame t] })

theorem witness_DmaBuffers :
    ((chanOf (dRun .pending) 255).frames.find? (fun f => f.take == .pending) = some (dFrame .pending) ∧
      chFrame (dRun .pending) 255 1 = some (dFrame .pending) ∧ (chanOf (dRun .pending) 255).cur = some dSet ∧
      chanState (dRun .pending) 255 = 1 ∧ rd (dRun .pending) (DMX_CH_PI_PI 255) % 2 ^ 16 ≠ rd (dRun .pending) (DMX_CH_IDX_CI 255) ∧
      cplFree (dRun .pending) 255 dSet = true) ∧
    (let s := dChan 255 2 { emptyChan with cur := some dSet, frames := [dFrame .pending] }
     chanState s 255 ≠ 1 ∧ chFrame s 255 1 = some (dFrame .pending)) ∧
    (let s := setChan 255 { chanOf (dRun (.waiting 0 2)) 255 with ringRd := [0x1000] } (dRun (.waiting 0 2))
     asked s 255 0 = true ∧ (chanOf s 255).ringRd = 0x1000 :: [] ∧
     (chanOf s 255).frames.find? (fun f => match f.take with | .waiting _ _ => true | _ => false) = some (dFrame (.waiting 0 2)) ∧
     setById (setChan 255 { chanOf s 255 with ringRd := [] } s) 255 0 = some dSet ∧
     0x4000 % 16 = 0 ∧ (dFrame (.waiting 0 2)).foot ≤ 256 ∧ 0x4001 % 16 ≠ 0) ∧
    (let s := setChan 255 { chanOf (dRun (.taken dBuf)) 255 with listRd := some 0x4000 } (dRun (.taken dBuf))
     asked s 255 1 = true ∧ (chanOf s 255).listRd = some 0x4000 ∧ (chanOf s 255).frames.head? = some (dFrame (.taken dBuf))) ∧
    (let b : Buf := { dBuf with tagWritten := true }
     let s := setChan 255 { chanOf (dRun (.taken b)) 255 with flushRd := some 0x9000 } (dRun (.taken b))
     asked s 255 2 = true ∧ (chanOf s 255).reports = [] ∧ (chanOf s 255).flushRd = some 0x9000 ∧ (chanOf s 255).frames.head? = some (dFrame (.taken b)) ∧ b.tagWritten = true) ∧
    (let s := dRun (.taken dBuf)
     canReach s (portOfChan 255) = true ∧ readsOut (setChan 255 { chanOf s 255 with ringRd := [0x1000] } s) 1 ≤ 256 ∧
     portHere s 1 = true ∧ (∀ c ∈ chansOf 1, ∀ f ∈ (chanOf s c).frames, f.feed = []) ∧ canReach s 1 = true ∧
     (roundRobin s 1).findSome? (fun c => (burstOf s c).map fun x => (c, x)) = some (255, 0x9000, 3)) := by decide +kernel

theorem test_buffer_take :
    said (after (.bufferTake 255) (dRun .pending)) = some (.hostRead 1 0x1000 64 0) ∧
    rd (after (.bufferTake 255) (dRun .pending)) (DMX_CH_IDX_CI 255) = 1 ∧
    (after (.egressBurst 1) (dRun (.taken dBuf))).out = [.hostWrite 1 0x9000 [1, 2, 3] 0] := by decide +kernel

theorem witness_HostPortEvents :
    (∀ p ∈ [0, 1], portHere State.reset p = true ∧ isSet (wr (HLK_STAT_D3 p) 1 State.reset) (HLK_STAT_D3 p) = true ∧
      cfgI (withCfg [(HLK_CFG_DECL_RATE p, 4)]) (islHL p) (HLK_CFG_DECL_RATE p) = 4) ∧
    (∀ r ∈ [5, 6], 5 ≤ r ∧ 1 ≤ r ∧ r ≤ 6 ∧ ((r : Nat) = 4 → false = true)) ∧
    ((4 : Nat) < 5 ∧ cfgI (withCfg [(HLK_CFG_DECL_RATE 0, 4)]) (islHL 0) (HLK_CFG_DECL_RATE 0) ≤ 4 ∧ (4 : Nat) = 4) ∧
    (3 < cfgI (withCfg [(HLK_CFG_DECL_RATE 0, 4)]) (islHL 0) (HLK_CFG_DECL_RATE 0) ∧ (2 : Nat) < 4) := by decide +kernel

theorem test_link_trained :
    rd (after (.hostLinkTrained 0 4 4 true) (withCfg [(HLK_CFG_DECL_RATE 0, 4)])) (HLK_EVT_DEGRADED 0) = 0 ∧
    rd (after (.hostLinkTrained 0 3 4 true) (withCfg [(HLK_CFG_DECL_RATE 0, 4)])) (HLK_EVT_DEGRADED 0) = 1 ∧
    after (.hostLinkTrained 0 4 4 false) State.reset = State.reset ∧
    usableRate (after (.hostLinkTrained 0 4 4 true) State.reset) 0 = 26000 ∧
    usableRate (after (.hostLinkTrained 1 6 2 false) State.reset) 1 = 437 := by decide +kernel

/-- R234, R457: Vendor ID, Device ID and class code of a CV9616; the IDCODE below its stepping, of 0x9616 and 0x2E9. -/
theorem test_identities :
    pcieIdentity State.reset = (0x5548, 0x9616, 0x048000) ∧
    idcode State.reset % 2 ^ 28 = 0x96165D3 := by decide +kernel

def dHeld : Held := ⟨0, ⟨3, 0, 9, 0, 0, 0, none, 0, 1, 0, 0, 0⟩, List.replicate 64 0, [[1, 2]], [0], 2, false, [0]⟩

/-- A hold ring with one frame, and channel 1 as `dRun`'s. -/
def dHold (st : Nat) (held : List Held) : State :=
  { dChan 1 st { emptyChan with cur := some dSet } with holds := [(3, ⟨1, held, none⟩)] }

theorem witness_FunctionResetLeaves :
    ∀ p ∈ [0, 1], portHere State.reset p = true ∧ portOfChan (255 * p) = p := by decide +kernel

theorem witness_ReplayOfHeldFrame :
    portHere State.reset 0 = true ∧
    hasBit 0x00100003 31 = false ∧ hasBit 0x80100003 31 = true ∧ isSafe State.reset = false ∧
    isSet (wr (DMX_P_REPLAY_STAT_BUSY 0) 1 State.reset) (DMX_P_REPLAY_STAT_BUSY 0) = true ∧
    isSet (dHold 1 [dHeld]) (DMX_P_REPLAY_STAT_BUSY 0) = false ∧
    (0x80100003 / 2 ^ 20 % 256 = 1 ∧ 0x80100003 % 2 ^ 14 = 3 ∧ 0x80100003 / 2 ^ 28 % 8 = 0) ∧
    chanState (dHold 0 []) 1 ≠ 1 ∧ (portOfChan 1 = 0 ∧ chanRouted (dHold 1 [dHeld]) 1 = false ∧ chanState (dHold 1 [dHeld]) 1 = 1) ∧
    (holdOf (dHold 1 []) 3).held.reverse[0]? = none ∧ (holdOf (dHold 1 [dHeld]) 3).held.reverse[0]? = some dHeld ∧
    (let s := dHold 1 [dHeld]
     let u := setChan 1 { chanOf s 1 with frames := (chanOf s 1).frames ++ [replayFrame s 1 s.nextOut dHeld] } { s with nextOut := s.nextOut + 1 }
       |> wr (DMX_P_REPLAY_STAT_BUSY 0) 1 |> fun s => setHostPort 0 { hostPort s 0 with replay := some (3, 0, s.nextOut - 1) } s
     (tryTake 1 s.nextOut (rd u (DMX_CH_PI_PI 1)) u).2 = true) := by decide +kernel

theorem test_replay_result : rd (after (.replay 0 0x80100003) (dHold 1 [])) (DMX_P_REPLAY_STAT_RESULT 0) = 1 := by decide +kernel

/-! ## Device map, basting set, epochs, profiles, boot -/

def aSuper : Nat := (CPT_EVT_FAULT 0).addr
def aCfg : Nat := (QMX_Q_CFG_ALL 1).addr
def aLiveWord : Nat := (CTX_EXP_TIME 3).addr

/-- Class of the register at an address. -/
def clsAt (a : Nat) : Option Cls := (regAt a).map (·.1.cls)

/-- A maintenance session of HP0 with the right to configure. -/
def inSession : State := withRegs [(MNT_STAT_SESSION, 1), (MNT_STAT_ORIG, 0), (MNT_STAT_FLAGS, 1)]

theorem witness_RegisterWriteByClass :
    (origPresent State.reset.variant .hp0 = true ∧ writes .hp0 = true) ∧
    (∀ a ∈ [aSuper, aCfg, 0, 0xFFFFFC], winOf a = none ∧ tableKind a = none) ∧
    unassigned State.reset .hp0 0xFFFFFC = true ∧
    (∀ a ∈ [aSuper, aCfg, 0], unassigned State.reset .hp0 a = false ∧ a % 4 = 0 ∧ absentAt State.reset.variant a = false ∧
      shutOut .hp0 a = false) ∧
    (unassigned State.reset .t0 aSuper = false ∧ origPresent State.reset.variant .t0 = true ∧ writes .t0 = true ∧ (3 ≠ 4 ∨ aSuper % 4 ≠ 0) ∧
      origPresent State.reset.variant .svc = true ∧ unassigned State.reset .svc aSuper = false ∧
      (specialWrite .svc aSuper 1 State.reset).isNone = true ∧ ¬(0x900000 ≤ aSuper ∧ aSuper < 0x901000) ∧
      stoppedB State.reset = false) ∧
    (let a := (HLK_STAT_UP 1).addr
     absentAt Variant.cv9608 a = true ∧ a % 4 = 0 ∧ ¬(0x900000 ≤ a ∧ a < 0x901000)) ∧
    (clsAt aSuper = some .op ∧ (specialWrite .hp0 aSuper 1 State.reset).isNone = true) ∧
    clsAt GLB_MAP_MISS_CNT_COUNT.addr = some .stat ∧
    (clsAt aCfg = some .cfg ∧ aCfg ≠ LDR_SWAP_REQ_GO.addr ∧ aCfg ≠ LDR_DISCARD_GO.addr ∧ isLiveWord aCfg = false ∧
      isCfgAt State.reset aCfg = true ∧ owns State.reset (.bus .hp0) = false ∧ sessionOf State.reset .hp0 0 = false) ∧
    (∀ i ∈ [0, 31], (fd 31 0 .rw 0).lo ≤ i ∧ i ≤ (fd 31 0 .rw 0).hi ∧ (i < (fd 30 1 .w1c 0).lo ∨ (fd 30 1 .w1c 0).hi < i)) := by
  decide +kernel

theorem test_write_by_class :
    rd (after (.registerWrite ⟨.hp0, none⟩ aSuper (2 ^ (CPT_EVT_FAULT 0).lo) 4 0) (withRegs [(CPT_EVT_FAULT 0, 1), (CPT_EVT_LOCK 0, 1)]))
      (CPT_EVT_FAULT 0) = 0 ∧
    rd (after (.registerWrite ⟨.hp0, none⟩ aSuper (2 ^ (CPT_EVT_FAULT 0).lo) 4 0) (withRegs [(CPT_EVT_FAULT 0, 1), (CPT_EVT_LOCK 0, 1)]))
      (CPT_EVT_LOCK 0) = 1 ∧
    rd (after (.registerWrite ⟨.hp0, none⟩ aCfg 1 4 0) State.reset) GLB_CFG_DENY_ADDR_ADDR = aCfg ∧
    rd (after (.registerWrite ⟨.t0, none⟩ aSuper 1 2 0) State.reset) (TWB_CNT2_PROTO_ERR 21) = 1 ∧
    sget (fun _ => 0) (after (.registerWrite ⟨.hp1, none⟩ aSuper 1 2 0) State.reset).protoErrs 1 = 1 := by decide +kernel

theorem witness_RegisterReads :
    origPresent State.reset.variant .hp1 = true ∧ (winOf 0x1000000 = none ∧ (tableKind 0x1000000).isSome = true) ∧
    (winOf 0 = none ∧ tableKind 0 = none) ∧ unassigned State.reset .hp1 0xFFFFFC = true ∧ writes .hp1 = true ∧
    (let w := GLB_MAP_MISS_CNT_COUNT.addr
     absentAt State.reset.variant w = false ∧ shutOut .hp1 w = false ∧ clsAt w = some .stat ∧ (specialRead .hp1 w State.reset).isNone = true ∧
     ((regAt w).map fun d => d.1.flds.any fun x => x.acc == .rc) = some true ∧ w ≠ PWR_TJ_PEAK.addr) ∧
    (absentAt Variant.cv9608 (HLK_STAT_UP 1).addr = true) ∧ writes (.diag 0) = false ∧ origPresent State.reset.variant (.diag 0) = true ∧
    (∀ off ∈ [0, 0xFFFFFF, 0x3000000, 0x3FFFFFF], off < 0x1000000 ∨ 0x3000000 ≤ off ∧ off < 0x4000000) := by decide +kernel

theorem test_register_read :
    said (after (.rcRead ⟨.hp0, none⟩ GLB_MAP_MISS_CNT_COUNT.addr 4 []) (withRegs [(GLB_MAP_MISS_CNT_COUNT, 7)])) =
      some (.readData .hp0 GLB_MAP_MISS_CNT_COUNT.addr (7 * 2 ^ GLB_MAP_MISS_CNT_COUNT.lo)) ∧
    rd (after (.unassignedAccess .hp0 none 0xFFFFFC true) State.reset) GLB_MAP_MISS_ADDR_ADDR = 0xFFFFFC ∧
    said (after (.rcRead ⟨.hp0, some 2⟩ 0 1 []) (after (.tableMemoryWrite .hp0 0x1000000 [some 7]) inSession)) =
      some (.readData .hp0 0x1000000 7) ∧
    rd (after (.rcRead ⟨.hp0, some 0⟩ 0x1000000 4 []) State.reset) GLB_MAP_MISS_CNT_COUNT = 1 ∧
    after (.rcRead ⟨.hp0, some 4⟩ 0x40000000 4 []) State.reset = State.reset := by decide +kernel


theorem witness_BastingWrites :
    isCfgAt State.reset aCfg = true ∧ isLiveWord aCfg = false ∧ Orig.hp0 ≠ .t1 ∧
    owns (withRegs [(LDR_STAT_OWNER, 1)]) .loader = true ∧ owns (wr LDR_STAT_OWNER 4 inSession) (.bus .hp0) = true ∧
    (owns inSession (.bus .hp0) = false ∧ mayTake inSession (.bus .hp0) = true ∧ sessionOf inSession .hp0 0 = true) ∧
    (owns (withRegs [(LDR_STAT_OWNER, 3)]) .loader = false ∧ mayTake (withRegs [(LDR_STAT_OWNER, 3)]) .loader = false) ∧
    (owns State.reset .loader = false ∧ mayTake State.reset .loader = true) ∧
    (let s : State := { State.reset with ldr := { State.reset.ldr with waiting := [.reserveManager] } }
     bankFree s = true ∧ mayTake s .loader = false ∧ mayTake s .reserveManager = true) ∧
    sessionOf State.reset .hp0 0 = false ∧ Orig.hp0 ≠ .svc ∧
    (isLiveWord aLiveWord = true ∧ isCfgAt State.reset aLiveWord = true) ∧
    (viewBit .hp0 = some 0 ∧ origPresent State.reset.variant .hp0 = true) ∧ viewBit .t1 = some 3 ∧
    (16383 < 16384 ∧ (CTX_DGAIN 16383).addr ≠ (CTX_EXP_TIME 16383).addr ∧ (CTX_ENABLE 16383).addr ≠ (CTX_DGAIN 16383).addr ∧
      (CTX_ENABLE 16383).addr ≠ (CTX_WB_GAIN0 16383).addr ∧ (CTX_ENABLE 16383).addr ≠ (CTX_WB_GAIN2 16383).addr ∧
      (CTX_ENABLE 16383).addr ≠ (CTX_EXP_TIME 16383).addr) := by decide +kernel

theorem test_basting_write :
    bankFld Chip.default (after (.cfgBastingWrite (.bus .hp0) aCfg 0x49) (wr LDR_STAT_OWNER 4 inSession)).cfgB (QMX_Q_CFG_DEPTH_LOG2 1) =
      0x49 / 8 % 32 ∧
    (after (.cfgBastingWrite (.bus .hp0) aCfg 0x49) (wr LDR_STAT_OWNER 4 inSession)).cfgA = [] := by decide +kernel

def ownedBy (n : Nat) : State := withRegs [(LDR_STAT_OWNER, n)]
def waitingFor (ws : List Writer) : State := { State.reset with ldr := { State.reset.ldr with waiting := ws } }

/-- A swap is in progress to epoch 1, as far as every island or none. -/
def swapping (done : Bool) : State :=
  let s := withRegs [(LDR_STAT_SWAP_BUSY, 1), (LDR_EPOCH_ACTIVE, 1)]
  if done then { s with islEpoch := (List.range 40).map fun i => (i, 1) } else s

theorem witness_SwapRequests :
    owns (ownedBy 2) .profileSelection = true ∧ owns (ownedBy 1) .loader = true ∧ owns (ownedBy 3) .reserveManager = true ∧
    (let s : State := { ownedBy 1 with ldr := { State.reset.ldr with phase := .swap, trained := true } }
     owns s .loader = true ∧ s.ldr.phase = .swap ∧ s.ldr.trained = true) ∧
    owns (wr LDR_STAT_OWNER 4 inSession) (.bus .hp0) = true ∧ owns inSession (.bus .hp0) = false ∧ Orig.hp0 ≠ .t1 ∧
    Writer.loader ≠ .reserveManager ∧ (∀ n ∈ [2, 3, 4], rd (ownedBy n) LDR_STAT_OWNER = n) ∧
    bankFree State.reset = true ∧ isSafe State.reset = false ∧
    Writer.reserveManager ∈ (waitingFor [.loader, .reserveManager]).ldr.waiting ∧
    (Writer.reserveManager ∉ (waitingFor [.loader]).ldr.waiting ∧ Writer.loader ∈ (waitingFor [.loader]).ldr.waiting) ∧
    (Writer.reserveManager ∉ (waitingFor [.profileSelection]).ldr.waiting ∧
      Writer.loader ∉ (waitingFor [.profileSelection]).ldr.waiting ∧
      Writer.profileSelection ∈ (waitingFor [.profileSelection]).ldr.waiting) := by decide +kernel

theorem witness_SwapCompletes :
    (islPresent State.reset.variant 39 = true ∧ islandEpoch (swapping false) 39 ≠ epochActive (swapping false)) ∧
    swapReady (swapping true) = true ∧ swapReady (swapping false) = false ∧
    (let s : State := { swapping true with frames := [newFrame 0 3 0 0 9 0 0 0 none []] }
     newFrame 0 3 0 0 9 0 0 0 none [] ∈ s.frames ∧ inFlight (newFrame 0 3 0 0 9 0 0 0 none []) = true ∧
     (newFrame 0 3 0 0 9 0 0 0 none []).epoch = epochOld s ∧ epochOld s ≠ epochActive s) ∧
    (isSet (swapping false) LDR_STAT_SWAP_BUSY = true ∧ (swapping false).ldr.swapForced = false) ∧
    isSet State.reset LDR_STAT_SWAP_BUSY = false := by decide +kernel

theorem test_swap :
    epochActive (after (.swapRequest .profileSelection) (ownedBy 2)) = 1 ∧
    rd (checkSwap (swapping true)) LDR_EVT_SWAP_DONE = 1 := by decide +kernel

def aProfile (i lo hi : Nat) : Profile := ⟨i, true, 0, 0, lo, hi, 5, 1000⟩

theorem witness_ProfileSelection :
    (let s : State := { State.reset with ldr := { State.reset.ldr with modeCand := 7, modeRun := 20 } }
     15 % 8 = s.ldr.modeCand ∧ s.ldr.modeRun = 20) ∧
    (9 % 8 ≠ State.reset.ldr.modeCand ∧ 9 % 8 ≠ rd State.reset LDR_PROF_STAT_MODE) ∧
    (let s : State := { State.reset with ldr := { State.reset.ldr with phase := .run, selecting := true } }
     s.ldr.phase = .run ∧ s.ldr.selecting = true ∧ isSafe s = false ∧ stoppedB s = false ∧ (relayOn s && role s == 2) = false) ∧
    State.reset.ldr.phase ≠ .run ∧
    ({ State.reset with rly := { State.reset.rly with profile := some (2, 100) } } : State).rly.profile = some (2, 100) ∧
    candidate [aProfile 0 0 10, aProfile 1 11 20] 0 20 0 = some 1 ∧ candidate [aProfile 0 0 10, aProfile 1 11 20] 0 10 1 = some 0 ∧
    currentStays [aProfile 0 0 10, aProfile 1 11 20] 0 10 1 = true := by decide +kernel

theorem witness_ResetAndCrystal :
    State.reset.mnt.op = none ∧ State.reset.ldr.phase = .held ∧
    ({ State.reset with pins := { State.reset.pins with crystal := true } } : State).pins.crystal = true ∧
    State.reset.pins.crystal = false ∧ isSet State.reset MNT_STAT_SESSION = false := by decide +kernel

/-- A small image: header and an empty directory entry, 0xFF up to the signature block, and that block (R40, R41, R59). -/
def imgHead : List Nat := [
  67, 86, 80, 84, 1, 255, 128, 0, 0, 2, 0, 0, 7, 255, 255, 255, 0, 0, 1, 0, 42, 0, 0, 0,
  1, 0, 255, 255, 128, 0, 0, 0, 120, 1, 0, 0, 255, 255, 255, 255]
def imgTail : List Nat := [
  70, 20, 0, 154, 9, 0, 0, 0, 144, 0, 0, 0, 0, 0, 0, 0, 0, 0, 0, 0]
def imgSig : List Nat := [
  83, 73, 71, 49, 1, 0, 0, 0, 211, 96, 51, 47, 173, 155, 200, 58, 250, 255, 74, 116, 13, 232, 165, 22,
  191, 27, 143, 179, 253, 227, 96, 255, 29, 3, 151, 156, 31, 148, 62, 226, 232, 166, 96, 7, 253, 39, 107, 2,
  113, 38, 92, 109, 176, 146, 196, 160, 197, 235, 140, 69, 253, 196, 54, 80, 44, 138, 9, 95, 93, 87, 69, 242,
  8, 139, 185, 255, 34, 171, 41, 26, 116, 200, 111, 198, 119, 186, 137, 123, 170, 222, 227, 112, 204, 97, 41, 184,
  45, 23, 11, 163, 252, 38, 65, 92, 233, 38, 75, 48, 176, 133, 129, 254, 50, 9, 2, 247, 211, 49, 217, 210,
  235, 3, 90, 192, 237, 184, 183, 141, 237, 157, 149, 224, 36, 231, 186, 60]
def imgKey : List Nat := [
  222, 161, 83, 140, 224, 253, 245, 204, 150, 254, 29, 239, 181, 254, 126, 216, 125, 129, 35, 239, 224, 202, 219, 206,
  216, 150, 254, 129, 126, 221, 213, 125]

def imgAll : List Nat := imgHead ++ List.replicate 84 255 ++ imgTail ++ List.replicate 232 255 ++ imgSig

/-- A device with the image in both slots. -/
def imgDevice (phase : LoadPhase) (slot rollback : Nat) : State :=
  { State.reset with
    chip := { Chip.default with keyHash := some imgKey }
    flash := memWrite flashDefault (memWrite flashDefault [] 0 imgAll) 0x4000000 imgAll
    rollback, ldr := { State.reset.ldr with phase, slot } }

/-- A session request of the same key, for the first right (R432). -/
def mntRequest : List Nat := [
  77, 78, 84, 49, 1, 0, 0, 0, 0, 0, 0, 0, 0, 0, 0, 0, 0, 0, 0, 0, 0, 0, 0, 0,
  0, 0, 0, 0, 0, 0, 0, 0, 211, 96, 51, 47, 173, 155, 200, 58, 250, 255, 74, 116, 13, 232, 165, 22,
  191, 27, 143, 179, 253, 227, 96, 255, 29, 3, 151, 156, 31, 148, 62, 226, 232, 166, 96, 7, 253, 39, 107, 2,
  113, 38, 92, 109, 176, 146, 196, 160, 197, 235, 140, 69, 253, 196, 54, 80, 44, 138, 9, 95, 93, 87, 69, 242,
  16, 164, 144, 82, 57, 85, 203, 194, 194, 211, 69, 36, 88, 252, 223, 151, 196, 115, 52, 105, 241, 135, 144, 95,
  92, 182, 115, 71, 244, 36, 78, 184, 69, 83, 210, 221, 121, 18, 69, 159, 11, 0, 106, 240, 203, 132, 77, 134,
  25, 22, 94, 234, 129, 0, 77, 197, 178, 71, 237, 30, 226, 232, 241, 2]

/-- R59: SHA-256 of the three bytes "abc", the example of FIPS 180-4, which gives the algorithm. -/
theorem test_sha256 : (sha256 [0x61, 0x62, 0x63]).take 8 = [0xBA, 0x78, 0x16, 0xBF, 0x8F, 0x01, 0xCF, 0xEA] := by decide +kernel

/-- R224: the check value of the nine bytes "123456789". -/
theorem test_crc : crc32c [0x31, 0x32, 0x33, 0x34, 0x35, 0x36, 0x37, 0x38, 0x39] = 0xE3069283 := by decide +kernel

theorem img_length : imgAll.length = 512 ∧ ∀ b ∈ imgAll, b < 256 := by decide +kernel

/-- Both slots read as the image. -/
theorem img_read (ph : LoadPhase) (sl rb slot off n : Nat) (hs : slot = 0 ∨ slot = 1) (h : off + n ≤ 512) :
    slotBytes (imgDevice ph sl rb) slot off n = (imgAll.drop off).take n := by
  have hl := img_length
  rcases hs with rfl | rfl
  · rw [slotBytes, imgDevice, memRead_memWrite_other _ _ _ _ _ _ (by omega), show 0x4000000 * 0 + off = 0 + off by omega,
      memRead_memWrite_at _ _ _ _ hl.2 _ _ (by omega)]
  · rw [slotBytes, imgDevice, show 0x4000000 * 1 + off = 0x4000000 + off by omega, memRead_memWrite_at _ _ _ _ hl.2 _ _ (by omega)]

theorem img_bytes (ph : LoadPhase) (sl rb slot : Nat) (hs : slot = 0 ∨ slot = 1) : imageBytes (imgDevice ph sl rb) slot = imgAll := by
  have e : slotNum (imgDevice ph sl rb) slot 0x08 4 = 512 := by
    rw [slotNum, img_read _ _ _ _ _ _ hs (by decide)]
    decide +kernel
  rw [imageBytes, e, img_read _ _ _ _ _ _ hs (by decide)]
  decide +kernel

/-- The signature, made outside the model with a key of our own, holds (R59). -/
theorem img_signature : signatureHolds { State.reset with chip := { Chip.default with keyHash := some imgKey } } imgAll = true := by
  decide +kernel

theorem img_rest : leAt imgAll 0x12 2 = 1 ∧ directoryOk imgAll = true ∧ sectionsOk imgAll = true := by decide +kernel

/-- The image passes checks 1–11 of R61 in either slot. -/
theorem img_header (ph : LoadPhase) (sl rb slot : Nat) (hs : slot = 0 ∨ slot = 1) : headerCause (imgDevice ph sl rb) slot = none := by
  have e := img_read ph sl rb slot 0 128 hs (by decide)
  have hc : (imgDevice ph sl rb).chip = { Chip.default with keyHash := some imgKey } := rfl
  rcases hs with rfl | rfl <;> simp only [headerCause, e, State.variant, hc] <;> decide +kernel

theorem img_body (ph : LoadPhase) (sl rb slot floor : Nat) (hs : slot = 0 ∨ slot = 1) (hf : floor ≤ 1) :
    bodyCause (imgDevice ph sl rb) slot floor = none := by
  have e : signatureHolds (imgDevice ph sl rb) imgAll = true := img_signature
  simp [bodyCause, img_bytes _ _ _ _ hs, e, img_rest.1, img_rest.2.1, img_rest.2.2, hf]

/-- The loader with nothing in flash. -/
def ldrIn (phase : LoadPhase) (slot : Nat) : State := { State.reset with ldr := { State.reset.ldr with phase, slot } }

theorem witness_LoadOfAnImage_header :
    (imgDevice .header 1 1).ldr.phase = .header ∧ headerCause (imgDevice .header 1 1) (imgDevice .header 1 1).ldr.slot = none :=
  ⟨rfl, img_header _ _ _ 1 (.inr rfl)⟩

theorem witness_LoadOfAnImage_body :
    (imgDevice .verify 1 1).ldr.phase = .verify ∧
    bodyCause (imgDevice .verify 1 1) (imgDevice .verify 1 1).ldr.slot (imgDevice .verify 1 1).rollback = none :=
  ⟨rfl, img_body _ _ _ 1 1 (.inr rfl) (Nat.le_refl 1)⟩

/-- The loader owns the bank and is at the cross-field checks; a table blob of the length given lies in the line store. -/
def crossing (len : Nat) : State :=
  let s := ownedBy 1
  { s with ldr := { s.ldr with phase := .cross, blobs := [(0x1000000, len, 0, 0)] } }

theorem witness_LoadOfAnImage_rest :
    (headerCause (ldrIn .header 0) 0 = some 2 ∧ (ldrIn .verify 0).ldr.phase ≠ .header ∧
      bodyCause (ldrIn .verify 0) (ldrIn .verify 0).ldr.slot (ldrIn .verify 0).rollback = some 8) ∧
    ((ldrIn .records 2).ldr.phase = .records ∧ (ldrIn .records 2).ldr.slot = 2) ∧
    ((ldrIn .records 1).ldr.slot ≠ 2 ∧ owns (ldrIn .records 1) .loader = false ∧ mayTake (ldrIn .records 1) .loader = true) ∧
    (let s := wr LDR_STAT_OWNER 3 (ldrIn .records 1)
     s.ldr.phase = .records ∧ owns s .loader = false ∧ mayTake s .loader = false) ∧
    ((crossing 0).ldr.phase = .cross ∧ owns (crossing 0) .loader = true) ∧
    (runStages 0xFF (crossing 0x2000000)).2 = some 5 ∧
    ((runStages 0xFF (crossing 0)).2 = none ∧ (crossing 0).ldr.profiles = [] ∧ (runStages 0xFF (crossing 0)).1.ldr.profiles = []) ∧
    ((ldrIn .header 0).ldr.phase ≠ .held ∧ (ldrIn .header 0).ldr.trained = false) := by decide +kernel

/-- A fallback bit of ISL_TIME is fatal, of a pixel slice's island it is not (R20, R21). -/
theorem witness_IslandsAndServicePairs :
    (∀ i ∈ [0, 39, islTIME, 22, 27], islPresent State.reset.variant i = true ∧ isSet State.reset (fallbackBit i) = false) ∧
    (21 ≠ islTIME ∧ ¬(22 ≤ 21 ∧ 21 < 28)) ∧ (28 ≠ islTIME ∧ ¬(22 ≤ 28 ∧ 28 < 28)) ∧ (22 ≤ 27 ∧ 27 < 28) ∧
    fatalIsland islTIME = true ∧ fatalIsland 39 = false ∧
    (let s := withRegs [(SVC_STAT_PAIR_A, 0), (SVC_STAT_PAIR_B, 1)]
     (hasBit (rd s SVC_STAT_FAILED) 2 = false ∧
      let u := wr SVC_STAT_FAILED (withBit (rd s SVC_STAT_FAILED) 2) s
      2 ≠ rd u SVC_STAT_PAIR_A ∧ 2 ≠ rd u SVC_STAT_PAIR_B) ∧
     (let u := wr SVC_STAT_FAILED (withBit (rd s SVC_STAT_FAILED) 1) s
      1 = rd u SVC_STAT_PAIR_B ∧ reservePair u ≠ none ∧ popCount 3 (rd u SVC_STAT_FAILED) ≤ 1) ∧
     (let v := wr SVC_STAT_FAILED 4 s
      let u := wr SVC_STAT_FAILED (withBit (rd v SVC_STAT_FAILED) 1) v
      1 = rd u SVC_STAT_PAIR_B ∧ reservePair u = none)) ∧
    (let s := withRegs [(SVC_STAT_PAIR_A, 0), (SVC_STAT_PAIR_B, 1), (SVC_STAT_FAILED, 2)]
     reservePair s = some 2 ∧ stoppedA s = false ∧ stoppedB s = true ∧ isSafe s = false) ∧
    (let s := withRegs [(SVC_STAT_PAIR_A, 0), (SVC_STAT_PAIR_B, 1), (SVC_STAT_FAILED, 1)]
     reservePair s = some 2 ∧ stoppedA s = true ∧ isSafe s = false) := by
  decide +kernel

/-- R25: a takeover restores what the checkpoint holds; a crossing timeout to a fatal island. -/
theorem test_takeover_and_crossing :
    (let s := { withRegs [(SVC_STAT_PAIR_A, 0), (SVC_STAT_PAIR_B, 1), (SVC_STAT_FAILED, 2)] with checkpoint := ⟨[], 44, 5, 6⟩ }
     let t := after .reservePairTakeover s
     rd t SVC_STAT_PAIR_B = 2 ∧ t.ldr.candSince = 44 ∧ t.ldr.modeRun = 6 ∧ rd t SVC_EVT_TAKEOVER = 1) ∧
    isSafe (after (.crossingTimeout 2 islTIME 0 []) State.reset) = true := by decide +kernel

theorem test_loss_of_lock :
    isSafe (after (.pllLossOfLock islTIME) State.reset) = true ∧ isSafe (after (.pllLossOfLock 22) State.reset) = false := by decide +kernel

/-! ## Seam, hold rings and transmit ports -/

def seamF (rest : List OutLine) (open_ : Bool) (entered : Nat) : FrameSt :=
  { newFrame 0 3 0 0 9 0 0 0 none [] with adm := .admitted, outq := rest, isOpen := open_, entered, begun := entered, alive := some 1 }

/-- Context 3 has a frame whose lines are at the seam. -/
def seamOne (f : FrameSt) : State :=
  { withCfg [(CTX_ENABLE 3, 1), (CTX_HEIGHT 3, 2)] with frames := [f], nextFrame := 1 }

/-- A composite of which one source has delivered its 2 lines and the other none. -/
def seamComposite : OutFrame :=
  { serial := 0, o := 5, epoch := 0, key := none, mode := 1, dest := .dma 0
    srcs := [⟨3, some 0, [], 2, none⟩, ⟨4, none, [], 0, none⟩], next := 0, total := 2, sealed := false, lb := 4, width := 1
    crc := 0, len := 0, filled := 0, crcBad := 0, short := 0, long := 0, inFail := 0, status := 0, lossSaid := false, alive := 1 }

theorem witness_SeamLinesAndFrameEnds :
    (let f := seamF [⟨0, [1, 2], 0⟩] true 0
     atSeam (seamOne f) 3 = some f ∧ f.outq = ⟨0, [1, 2], 0⟩ :: [] ∧
     (classM (seamOne f) f && (seamOne f).rly.offered && f.entered == 0) = false) ∧
    (let f := seamF [] false 2
     atSeam (seamOne f) 3 = some f ∧ allEntered (seamOne f) f = true) ∧
    (let f := seamF [] false 0
     atSeam (seamOne f) 3 = some f ∧ allEntered (seamOne f) f = false ∧ f.isOpen = false ∧ f.outq = []) ∧
    (let f := seamF [] true 0
     allEntered (seamOne f) f = false ∧ f.isOpen = true) ∧
    ({ State.reset with outs := [seamComposite] } : State).outs.find? (fun x => x.o == 5 && waitsFor x) = some seamComposite := by
  decide +kernel

theorem test_seam_line :
    rd (after (.seamLine 3 []) (seamOne (seamF [⟨0, [1, 2], 0⟩] true 0))) (CTX_LINES_OUT 3) = 1 ∧
    rd (after (.seamFrameEnd 3 []) (seamOne (seamF [] false 2))) (CTX_FRAMES_DONE 3) = 1 := by decide +kernel

/-- Transmit port 1 with packets and frames. -/
def txOne (x : TxSt) : State := { withCfg [(CTX2_CFG_ENABLE 1, 1)] with txs := [(1, x)] }

theorem witness_HoldAndTransmitPorts :
    (16383 < ctxCount State.reset.variant ∧ 0 < act (withCfg [(CTX_HOLD_FRAMES 16383, 1)]) (CTX_HOLD_FRAMES 16383) ∧
      act State.reset (CTX_HOLD_FRAMES 0) = 0) ∧
    (txHere State.reset 1 = true ∧ (txOf State.reset 1).begun = [] ∧ (txOf State.reset 1).queue = []) ∧
    (txOf (txOne ⟨[], [7], false⟩) 1).begun ≠ [] ∧ (txOf (txOne ⟨[], [], true⟩) 1).restarting = true ∧
    (∀ d ∈ [0, 1], (txOf (txOne ⟨[⟨2, d, [1]⟩], [], false⟩) 1).queue = ⟨2, d, [1]⟩ :: [] ∧
      (txOf (txOne ⟨[⟨2, d, [1]⟩], [], false⟩) 1).restarting = false ∧ txEnabled (txOne ⟨[⟨2, d, [1]⟩], [], false⟩) 1 = true) := by
  decide +kernel

theorem test_hold_and_transmit :
    rd (after (.holdFreeze 16383) (withCfg [(CTX_HOLD_FRAMES 16383, 1)])) (CTX_FROZEN 16383) = 1 ∧
    said (after (.csi2TxPacketSent 1) (txOne ⟨[⟨2, 1, [9, 0]⟩], [], false⟩)) = some (.csi2 1 2 1 [9, 0]) ∧
    rd (after (.csi2TxPacketSent 1) (txOne ⟨[⟨2, 1, [9, 0]⟩], [], false⟩)) (CTX2_CNT_FRAMES 1) = 1 := by decide +kernel

/-! ## Reserve, journal, loops -/

theorem witness_TestsWearAndReplacement :
    (∀ l ∈ [0, 4], l < activeSlices State.reset.variant ∧ (∀ r ∈ State.reset.running, r.slice ≠ l) ∧
      State.reset.rsv.failed.contains (0, act State.reset RSV_SLICE_MAP_PHYS / 8 ^ l % 8) = false) ∧
    (reserveSlice State.reset = some 5 ∧ State.reset.rsv.failed.contains (0, 5) = false) ∧
    (∀ k ∈ [1, 2, 5], State.reset.rsv.failed.contains (k, 0) = false) ∧ resourceHere State.reset.variant 6 2 = true ∧
    (resourceHere State.reset.variant 3 9 = true ∧ wearLimit State.reset 3 0 = 64 ∧ State.reset.rsv.due = [] ∧ State.reset.rsv.wears = [] ∧
      (0 : Nat) + 63 < 64 ∧ 64 ≤ (0 : Nat) + 64) ∧
    (let s : State := { State.reset with rsv := { State.reset.rsv with wears := [⟨3, 9, 0, 0, 0, 48⟩] } }
     (s.rsv.wears.filter fun x => x.kind == 3 && x.inst == 9 && x.row == 0 && x.signal == 0 &&
        decide (operNs s < x.at_ + wearWindow 3)) = [⟨3, 9, 0, 0, 0, 48⟩]) ∧
    (let s : State := { State.reset with rsv := { State.reset.rsv with due := [(6, 1, 0, 0)] } }
     ∃ d ∈ s.rsv.due, (d.1 == 6 && d.2.1 == 1 && d.2.2.1 == 0) = true) ∧ stoppedB State.reset = false ∧
    (let s : State := { State.reset with rsv := { State.reset.rsv with refused := [⟨6, 2, 0, 0, 0, 0⟩] } }
     s.rsv.refused = ⟨6, 2, 0, 0, 0, 0⟩ :: [] ∧ s.rsv.cur = none ∧ (⟨6, 2, 0, 0, 0, 0⟩ : Repl) ∉ s.rsv.waiting ∧
     newMapOf s 6 2 0 = some (0, 0)) ∧
    (origPresent State.reset.variant .hp0 = true ∧ Orig.hp0 ≠ .t1 ∧ tableKind 0x1000000 = some 2 ∧
      (∀ x ∈ selected 0x1000000 [some 1, none], tableKind x.1 = some 2) ∧ sessionOf State.reset .hp0 0 = false ∧
      sessionOf inSession .hp0 0 = true ∧
      (∀ x ∈ selected 0x1000000 [some 1, none], inRanges (storeRanges inSession) x.1 = false ∧
        inRanges ((tableBanks inSession).flatMap (protectedIn inSession.chip)) x.1 = false)) ∧
    (1400 < sgn 16 (1401 % 2 ^ 16) ∧ sgn 16 (1400 % 2 ^ 16) ≤ 1400) := by decide +kernel

theorem test_table_write :
    memRead ramDefault (after (.tableMemoryWrite .hp0 0x1000000 [some 1, none, some 3]) inSession).ram 0x1000000 3 = [1, 0, 3] ∧
    rd (after (.tableMemoryWrite .hp0 0x1000000 [some 1]) State.reset) GLB_CFG_DENY_ADDR_ADDR = 0x1000000 := by decide +kernel

theorem test_self_test_passes : rd (after (.selfTestInGap 4 1) State.reset) RSV_TEST_DONE = 1 := by decide +kernel

/-- A journal record waits; so many records have been written in this second. -/
def jWaits (t n : Nat) : State := { State.reset with jnl := { State.reset.jnl with pend := [(t, [1])], secCount := n } }

/-- A statistics record of context 3: exposure 100 lines, gain 1, one cell whose class 0 has the sum 1000 over `n` pixels (R177). -/
def loopStat (n : Nat) : List Nat := [3, 0x01010000, 0, 0, 0x10000064] ++ List.replicate 59 0 ++ [1000, 0, 0, 0, n, 0, 0, 0]

/-- Context 3 has loops, of exposure or of white balance, with updates on their way. -/
def loopAt (flags : Nat) (upds : List LoopUpd) : State :=
  { withCfg [(CTX_ENABLE 3, 1), (CTX_STAT_Q 3, 9), (CTX_LINE_NS 3, 20000), (CTX_CFA 3, 0)] with
    ldr := { State.reset.ldr with services := [⟨0x0601, leBytes 2 3 ++ [flags] ++ List.replicate 29 1, 0, 0, 0⟩] }
    loops := [(3, ⟨upds⟩)], svcStats := [(9, loopStat 10)] }

theorem witness_JournalAndLoops :
    stoppedB (jWaits 1 0) = false ∧ ((jWaits 1 0).jnl.pend = (1, [1]) :: [] ∧ neverDropped 1 = true) ∧
    (neverDropped 2 = false ∧ (jWaits 2 0).jnl.secCount < cfgI (jWaits 2 0) islSVC JNL_CFG_MAX_RPS ∧
      cfgI (jWaits 2 2000) islSVC JNL_CFG_MAX_RPS ≤ (jWaits 2 2000).jnl.secCount) ∧
    State.reset.jnl.dropped = [] ∧ (({ State.reset.jnl with dropped := [(3, 1)] } : JnlSt).dropped ≠ []) ∧
    (∀ d ∈ (([1000, 1000].take 40).zipIdx.filterMap fun f =>
      if islPresent State.reset.variant f.2 then some (f.2, min 0xFFFF (driftOf 1000 f.1)) else none), d.2 ≤ 800) ∧
    (let s : State := { State.reset with
       ldr := { State.reset.ldr with loaded := true, services := [⟨0x1601, [0, 0x40], 0, 0, 0⟩] }
       twbs := [(20, { emptyTwb with svcQ := [⟨.vcore 0, 0x40, [0x20], 1⟩] })] }
     s.ldr.loaded = true ∧ s.vcore.stopped = false ∧ (∀ mv ∈ [720, 800], 720 ≤ mv ∧ mv ≤ 800 ∧ mv % 5 = 0) ∧
     vcoreRecord (noteTj 500 s) = some [0, 0x40] ∧ vcoreBusy s = true) ∧
    (let s : State := { State.reset with ldr := { State.reset.ldr with loaded := true, services := [⟨0x1601, [0, 0x40], 0, 0, 0⟩] } }
     vcoreRecord (noteTj 500 s) = some [0, 0x40] ∧ vcoreBusy s = false ∧ leAt [0, 0x40] 1 1 ≠ 0xFF ∧ s.vcore.exponent = none) ∧
    (∀ flags ∈ [1, 2], let s := loopAt flags []
     stoppedA s = false ∧ s.svcStats = (9, loopStat 10) :: [] ∧ leAt (wordsToBytes (loopStat 10)) 0 2 = 3 ∧
     ((loopRecord s 3).map fun v => (leAt v 2 1, hasBit flags 0, hasBit flags 1)) = some (flags, flags == 1, flags == 2) ∧
     loopRuns s.chip s.cfgA 3 = true ∧ leAt (wordsToBytes (loopStat 10)) 3 1 % 4 = 0 ∧
     0 < meanOf (s.freeCount + 9) (tally (dominants (act s (CTX_CFA 3))) (cellsOf (wordsToBytes (loopStat 10)))) ∧
     passive s (act s (CTX_PORT 3)) = false) ∧
    (let s := loopAt 1 [⟨.effect 0, 1, 1, []⟩, ⟨.gap, 40, 1, []⟩]
     (loopOf s 3).upds.find? (fun y => y.stage == .gap) = some ⟨.gap, 40, 1, []⟩ ∧ (∀ w ∈ (loopOf s 3).upds, w.stage ≠ .writing) ∧
     (loopOf s 3).upds = ⟨.effect 0, 1, 1, []⟩ :: [⟨.gap, 40, 1, []⟩] ∧ (loopRecord s 3).isSome = true ∧ passive s (act s (CTX_PORT 3)) = false) := by
  decide +kernel

theorem test_journal_drops :
    rd (after (.journalRecord false) (jWaits 2 2000)) JNL_DROP_COUNT = 1 ∧
    loopOf (after (.liveBlockWrite 3) (loopAt 1 [⟨.effect 0, 1, 1, []⟩])) 3 = ⟨[]⟩ := by decide +kernel

/-- R206: a mean of 100 below the target asks for more light, so the update holds a longer exposure; it waits for its gap. -/
theorem test_exposure_loop :
    ((loopOf (after .exposureLoopUpdate (loopAt 1 [])) 3).upds.map (·.stage)) = [.gap] ∧
    ((loopOf (after (.expRegWrite 3) (loopAt 1 [⟨.gap, 40, 1, []⟩])) 3).upds.map (·.stage)) = [.writing] := by decide +kernel

/-! ## Two-wire buses -/

def aTxn : Txn := ⟨.script 0 1, 0x36, [0x30, 0x02, 0xAA], 1⟩

/-- Instance 0 with a transaction that waits, or is on the bus, and so many losses. -/
def twbWaits (n : Nat) : State := { State.reset with twbs := [(0, { emptyTwb with cur := some aTxn, losses := n })] }

theorem witness_TwoWireControllers :
    (∀ i ∈ [0, 20], isController State.reset i = true) ∧
    (nextTxn (twbOf (twbWaits 0) 0) = some aTxn ∧ rd (twbWaits 0) (TWB_STAT_STATE 0) = 0) ∧
    nextTxn (twbOf ({ State.reset with twbs := [(0, { emptyTwb with brgQ := [aTxn] })] } : State) 0) = some aTxn ∧
    (let s := withCfg [(TWB_CFG_ARB_RETRY 0, 3)] (twbWaits 2)
     notReady s 0 aTxn = false ∧ (takeTxn (twbOf s 0)).losses + 1 ≤ cfgI (arbLost 0 (0, 3) s) (twbIsland 0) (TWB_CFG_ARB_RETRY 0)) ∧
    (let s := withCfg [(TWB_CFG_ARB_RETRY 0, 3)] (twbWaits 3)
     cfgI (arbLost 0 (0, 3) s) (twbIsland 0) (TWB_CFG_ARB_RETRY 0) < (takeTxn (twbOf s 0)).losses + 1) ∧
    (let s : State := { State.reset with twbs := [(0, { emptyTwb with brgQ := [⟨.bridge 1, 0x36, [0], 1⟩] })] }
     nextTxn (twbOf s 0) = some ⟨.bridge 1, 0x36, [0], 1⟩ ∧ rd s (TWB_STAT_STATE 0) = 0 ∧ notReady s 0 ⟨.bridge 1, 0x36, [0], 1⟩ = true) ∧
    (wantedOf State.reset 0).2 = 0 ∧ ((twbOf (twbWaits 0) 0).cur = some aTxn ∧ rd (wr (TWB_STAT_STATE 0) 1 (twbWaits 0)) (TWB_STAT_STATE 0) = 1) := by decide +kernel

theorem test_two_wire_start :
    said (after (.transactionStart 0 true none) (twbWaits 0)) = some (.busRead 0 0x36 [0x30, 0x02, 0xAA] 1) ∧
    rd (after (.transactionDone 0 false []) (wr (TWB_STAT_STATE 0) 1 (twbWaits 0))) (TWB_CNT_NACK 0) = 1 := by decide +kernel

def aAcc : BrgAcc :=
  { tag := 1, w := 0, orig := 2, fid := 0, write := false, addr := 0x10000000, be := [true, true], data := [], started := true
    txns := [], got := [], fetch := none, span := none, at_ := 0, retries := 0, rtag := 0, dead := false }

theorem witness_TwoWireTargets :
    (targetTakes State.reset 0 0x10 = false ∧ targetTakes State.reset 0 0x60 = true ∧ targetTakes State.reset 1 0x64 = true) ∧
    cfgI State.reset islAO (TWB_T_CFG_PEC 0) ≠ 1 ∧ cfgI (withCfg [(TWB_T_CFG_PEC 0, 1)]) islAO (TWB_T_CFG_PEC 0) = 1 ∧
    targetTakes (withCfg [(TWB_T_CFG_PEC 0, 1)]) 0 0x60 = true ∧
    (∀ n ∈ [4, 64], (List.replicate n 7).length % 4 = 0 ∧ List.replicate n 7 ≠ [] ∧ (List.replicate n 7).length ≤ 64) ∧
    (let p := pec8 ([0x60 % 128 * 2] ++ leBytes 4 9 ++ [7, 7, 7, 7])
     p = pec8 ([0x60 % 128 * 2] ++ leBytes 4 9 ++ [7, 7, 7, 7]) ∧
     pec8 ([0x60 % 128 * 2] ++ leBytes 4 9 ++ [7, 7, 7, 7]) ≠ p + 1) ∧
    targetWaits State.reset = none ∧
    (∀ t ∈ [0, 1], let s : State := { withCfg [(TWB_T_CFG_WAKE t, 1)] with mnt := { State.reset.mnt with parked := true } }
     s.mnt.parked = true ∧ cfgI s islAO (TWB_T_CFG_WAKE t) = 1) ∧
    (∀ t ∈ [0, 1], isSet (wr (TWB_STAT_ALERT (21 + t)) 1 State.reset) (TWB_STAT_ALERT (21 + t)) = true) ∧
    ([7, 7, 7, 7].length % 4 = 0 ∧ [7, 7, 7].length % 4 ≠ 0) ∧
    targetWaits ({ State.reset with brg := { State.reset.brg with accs := [aAcc] } } : State) = some aAcc := by decide +kernel

theorem test_target_read :
    said (after (.targetRead 0 0x60 GLB_MAP_MISS_CNT_COUNT.addr 1) (withRegs [(GLB_MAP_MISS_CNT_COUNT, 7)])) =
      some (.targetData 21 (leBytes 4 (7 * 2 ^ GLB_MAP_MISS_CNT_COUNT.lo))) ∧
    rd (after (.targetWrite 0 0x60 9 [7, 7, 7, 7, pec8 ([0xC0] ++ leBytes 4 9 ++ [7, 7, 7, 7])] 0) (withCfg [(TWB_T_CFG_PEC 0, 1)]))
      (TWB_CNT2_PROTO_ERR 21) = 0 ∧
    isSet (after (.alertResponse 0 none) (wr (TWB_STAT_ALERT 21) 1 State.reset)) (TWB_STAT_ALERT 21) = false := by decide +kernel

/-! ## Time and Ethernet -/

def tAt (now : Nat) : State := { State.reset with now }

theorem witness_CounterSecondsAndSteps :
    origPresent State.reset.variant .svc = true ∧ origKey .hp0 ≠ origKey .svc ∧
    (reached (tAt 1000000000) (rd (tAt 1000000000) TSU_PPS_NEXT_NS) = true ∧
      reached (tAt 999999999) (rd (tAt 999999999) TSU_PPS_NEXT_NS) = false) ∧
    State.reset.time.anchors = [] ∧ ({ State.reset.time with anchors := [⟨0, 1, 0, true⟩] } : TimeSt).anchors = ⟨0, 1, 0, true⟩ :: [] ∧
    stoppedB State.reset = false ∧ stoppedB (withRegs [(SVC_STAT_FAILED, 2)]) = true ∧ rateAlone State.reset = false ∧
    State.reset.time.masterRate = none ∧
    (let s := withRegs [(TSU_STATE_STATE, 1), (TSU_OFFSET_VALUE, 10000)]
     rateAlone s = true ∧ rateAlone (wr TSU_OFFSET_VALUE 10001 s) = false ∧
     ({ s with time := { s.time with masterRate := some 5 } } : State).time.masterRate = some 5) := by decide +kernel

/-- R309, R310: the rate keeps to ±500,000,000; a step moves the counter. -/
theorem test_rate_and_step :
    sgn 32 (rd (after (.rateWrite 600000000) State.reset) TSU_RATE_VALUE) = 500000000 ∧
    (after (.step 0xFFFFFFFF) (tAt 1000)).now = 999 ∧ (after (.step 5) (tAt 1000)).now = 1005 ∧
    (after (.step 5) (tAt 1000)).time.anchors.map (·.extra) = [true] ∧
    rd (after (.ppsNextWrite 2000000000) (tAt 1000000001)) TSU_PPS_NEXT_NS = 2000000000 ∧
    rd (after (.ppsNextWrite 1999999999) (tAt 1000000001)) TSU_PPS_NEXT_NS = 1000000000 ∧
    (after (.step 5) (withRegs [(TSU_STATE_STATE, 1)] (tAt 1000))).now = 1000 := by decide +kernel

/-- A measured offset in a synchronisation state. -/
def tMeasured (st : Nat) (off : Int) (lockRun badRun : Nat) : State :=
  let s := withRegs [(TSU_STATE_STATE, st)] (withCfg [(TSU_CFG_SOURCE, 1), (TSU_CFG_LOCK_NS, 100)])
  { s with now := 20000, time := { s.time with measured := some (off, off, 0), lockRun, badRun } }

theorem witness_SynchronisationStates :
    State.reset.time.measured = none ∧ timeCfg State.reset TSU_CFG_SOURCE = 0 ∧
    (∀ st ∈ [0, 1, 2, 3], ∀ off ∈ [100, 101, 400, 401, 10000, 10001], (tMeasured st off 7 1).time.measured = some (off, off, 0) ∧
      timeCfg (tMeasured st off 7 1) TSU_CFG_SOURCE ≠ 0 ∧ syncState (tMeasured st off 7 1) = st) ∧
    timeCfg (tMeasured 1 100 7 1) TSU_CFG_LOCK_NS = 100 ∧ 7 ≤ (tMeasured 1 100 7 1).time.lockRun ∧
    (tMeasured 1 100 6 1).time.lockRun < 7 ∧ 1 ≤ (tMeasured 2 401 7 1).time.badRun ∧ (tMeasured 2 401 7 0).time.badRun = 0 := by
  decide +kernel

theorem test_sync_state :
    syncState (after .offsetMeasurement (tMeasured 1 100 7 0)) = 2 ∧ syncState (after .offsetMeasurement (tMeasured 1 101 7 0)) = 1 ∧
    syncState (after .offsetMeasurement (tMeasured 2 401 0 1)) = 1 ∧ (after .offsetMeasurement (tMeasured 0 10001 0 0)).now = 9999 := by
  decide +kernel

/-- Generator `g` is enabled with a period of 1 ms, aligned or not, and stands at a time. -/
def tGen (g armed next : Nat) : State :=
  let s := setTrgNext g next (withCfg [(TSU_TRG_CFG_EN g, 1), (TSU_TRG_PERIOD_NS g, 1000000)])
  { s with now := 5000000, time := { s.time with armed } }

theorem witness_TriggerGenerators :
    stoppedA State.reset = false ∧ stoppedA (withRegs [(SVC_STAT_FAILED, 1)]) = true ∧
    (firePoint (tGen 31 0 0) (0 % 2 ^ 32 * 2 ^ 32 + 5000999 % 2 ^ 32) < ((tGen 31 0 0).now : Int) + 1000 ∧
      ((tGen 31 0 0).now : Int) + 1000 ≤ firePoint (tGen 31 0 0) (1 % 2 ^ 32 * 2 ^ 32 + 0 % 2 ^ 32)) ∧
    (∀ g ∈ [0, 31], trgEnabled (tGen g 0 0) g = true ∧ 0 < timeCfg (tGen g 0 0) (TSU_TRG_PERIOD_NS g) ∧ trgEnabled State.reset g = false ∧
      hasBit (tGen g 0 0).time.armed g = false ∧ hasBit (tGen g (2 ^ g) 4000000).time.armed g = true ∧
      firePoint (tGen g (2 ^ g) 4000000) (trgNext (tGen g (2 ^ g) 4000000) g) ≤ now64 (tGen g (2 ^ g) 4000000)) ∧
    64 ≤ ({ State.reset.time with mids := List.replicate 64 ⟨3, 0, 0, false, true⟩ } : TimeSt).mids.length := by decide +kernel

theorem test_trigger_generator :
    trgNext (after (.trgNextWrite 31 1 7) (tGen 31 0 0)) 31 = 2 ^ 32 + 7 ∧
    rd (after (.trgNextWrite 31 0 5000000) (tGen 31 0 0)) TSU_EVT_TRG_REJ = 1 ∧
    trgNext (after (.triggerFire 31) (tGen 31 (2 ^ 31) 4000000)) 31 = 5000000 := by decide +kernel

/-- Ethernet port `p` is enabled with a role; time comes from port 1. -/
def ethUp (p role : Nat) (x : EthSt := emptyEth) : State :=
  { withCfg [(ETH_CFG_ENABLE p, 1), (ETH_CFG_ROLE p, role), (TSU_CFG_SOURCE, 1), (TSU_CFG_SLAVE_EP, p)] with eths := [(p, x)] }

theorem witness_SyncAndPeerDelay :
    (∀ p ∈ [0, 1], ptpOn (ethUp p 1) p 0 = true ∧ ethCfg (ethUp p 1) (ETH_CFG_ROLE p) = 1 ∧ ethOn (ethUp p 2) p = true ∧
      ptpOn State.reset p 0 = false ∧ ethCfg (ethUp p 2) (ETH_CFG_ROLE p) = 2) ∧
    (let s := wr (ETH_STAT_AS_CAPABLE 1) 1 (ethUp 1 1 { emptyEth with sync := some (7, 100) })
     (ethOf s 1).sync = some (7, 100) ∧ timeCfg s TSU_CFG_SOURCE = 1 ∧ timeCfg s TSU_CFG_SLAVE_EP = 1 ∧ asCapable s 1 = true) ∧
    (let s := ethUp 1 1 { emptyEth with reqAt := some 100, respAt := some (900, 400), pdSeq := 7, good := 1, missed := 2 }
     (ethOf s 1).reqAt = some 100 ∧ (ethOf s 1).reqAt.isSome = true ∧ (ethOf s 1).respAt = some (900, 400) ∧ (ethOf s 1).pdSeq = 7 ∧
     1 ≤ (ethOf s 1).good ∧ 2 ≤ (ethOf s 1).missed) ∧
    (rndDiv ((900 - 100) - (((500 : Nat) : Int) - 400)) 20 ≤ 10000 ∧ 10000 < rndDiv ((200110 - 0) - (((500 : Nat) : Int) - 400)) 20) ∧
    (let s := withCfg [(ETH_CFG_ENABLE 1, 1), (ETH_CFG_ROLE 1, 2)]
     ethOn s 1 = true ∧ stoppedB s = false ∧ ethCfg s (ETH_CFG_ROLE 1) = 2 ∧ slavePort s = none) ∧
    (∀ f ∈ [none, some (500, 0, 0, 30)], let s := withCfg [(ETH_CFG_ENABLE 1, 1), (ETH_CFG_ROLE 1, 2)] (ethUp 0 1 { emptyEth with follow := f })
     ethCfg s (ETH_CFG_ROLE 1) = 2 ∧ slavePort s = some 0 ∧ (ethOf s 0).follow = f) ∧ (ethOf (ethUp 1 1) 1).reqAt = none := by
  decide +kernel

/-- R313: the mean of (t4 − t1) and (t3 − t2), in ns from 0.1 ns. -/
theorem test_peer_delay :
    rd (after (.pdelayRespFollowUp 1 0 7 500) (ethUp 1 1 { emptyEth with reqAt := some 100, respAt := some (900, 400), pdSeq := 7 }))
      (ETH_STAT_PDELAY 1) = 35 ∧
    rd (after (.pdelayReqSend 1 0) (ethUp 1 1 { emptyEth with reqAt := some 100, missed := 2 })) (ETH_EVT_PDELAY_FAIL 1) = 1 := by
  decide +kernel

theorem witness_EthernetFramesAndLinks :
    ethOn (ethUp 1 1) 1 = true ∧ (∀ n ∈ [64, 1522], 64 ≤ n ∧ n ≤ 1522) ∧ (63 < 64 ∧ 1522 < 1523) ∧
    (let s := withCfg [(ETH_CFG_ENABLE 1, 1), (ETH_CFG_DIAG_EN 1, 1)]
     ethOn s 1 = true ∧ ethCfg s (ETH_CFG_DIAG_EN 1) = 1 ∧ ethCfg (ethUp 1 1) (ETH_CFG_DIAG_EN 1) ≠ 1 ∧ (ethOf s 1).diagCount < 100 ∧
     (let u : State := { s with eths := [(1, { emptyEth with diagCount := 100 })] }
      100 ≤ (ethOf u 1).diagCount ∧ upNs u < (ethOf u 1).diagFrom + 1000000000)) ∧
    (∀ p ∈ [0, 1], ethHere State.reset p = true ∧ isSet State.reset (ETH_STAT_LINK p) = false ∧
      isSet (withRegs [(ETH_STAT_LINK p, 1)]) (ETH_STAT_LINK p) = true) := by decide +kernel

theorem test_ethernet_frames :
    rd (after (.ethFrameReceive 1 63 0 0x88F7 0x0E0000C28001 false) (ethUp 1 1)) (ETH_CNT_RX_ERR 1) = 1 ∧
    rd (after (.ethFrameReceive 1 64 0 0x88F7 0x0E0000C28001 false) (ethUp 1 1)) (ETH_CNT_DROP 1) = 0 ∧
    rd (after (.ethFrameReceive 1 64 2 0x88F7 0x0E0000C28001 false) (ethUp 1 1)) (ETH_CNT_DROP 1) = 1 := by decide +kernel

/-! ## Motion -/

/-- Channel `n` of a type, with its last lines, valid or not. -/
def posOne (n type : Nat) (x : ChSt) (valid : Nat := 1) : State :=
  let s := withRegs [(POS_CH_STAT_VALID n, valid)] (withCfg [(POS_CH_CFG_TYPE n, type), (POS_CH_CFG_Z_EN n, 1)])
  { s with now := 1000000000, mot := { s.mot with chans := [(n, x)] } }

theorem witness_ChannelEdges :
    posPresent State.reset.variant = true ∧
    (chType (posOne 3 1 emptyCh) 3 = 1 ∧ 4 % 4 = (chSt (posOne 3 1 emptyCh) 3).lines ∧ 1 % 4 ≠ (chSt (posOne 3 1 emptyCh) 3).lines ∧
      cycleStep 4 (quadPlace (chSt (posOne 3 1 emptyCh) 3).lines) (quadPlace (1 % 4)) = some 1 ∧
      3 % 4 ≠ (chSt (posOne 3 1 emptyCh) 3).lines ∧
      cycleStep 4 (quadPlace (chSt (posOne 3 1 emptyCh) 3).lines) (quadPlace (3 % 4)) = none) ∧
    (let s := posOne 0 2 { emptyCh with lines := 5 }
     chType s 0 = 2 ∧ 1 % 8 ≠ (chSt s 0).lines ∧ hallPlace (chSt s 0).lines = some 5 ∧ hallPlace (1 % 8) = some 0 ∧
     cycleStep 6 5 0 = some 1) ∧
    (∀ v ∈ [0, 1], chValid (posOne 3 1 emptyCh v) 3 = (v == 1)) ∧ (chSt (posOne 3 1 { emptyCh with skip := true }) 3).skip = true ∧
    (chSt (posOne 3 1 emptyCh) 3).skip = false ∧
    (let s := withRegs [(POS_CMP_CFG_CH 7, 3), (POS_CMP_CFG_ARM 7, 1), (POS_CMP_POS_T 7, 1)] (posOne 3 1 emptyCh)
     rd s (POS_CMP_CFG_CH 7) = 3 ∧ isSet s (POS_CMP_CFG_ARM 7) = true ∧ rd s (POS_CMP_POS_T 7) = chCount (after (.inputEdge 3 1) s) 3 ∧
     isSet s (POS_CMP_CFG_ARM 0) = false) ∧
    (posCfg (posOne 3 1 emptyCh) (POS_CH_CFG_Z_EN 3) = 1 ∧ isSet (posOne 3 1 emptyCh) (POS_CH_STAT_REF 3) = false ∧
      isSet (wr (POS_CH_STAT_REF 3) 1 (posOne 3 1 emptyCh)) (POS_CH_STAT_REF 3) = true) := by decide +kernel

/-- R329: 00 → 01 counts up, 00 → 10 counts down, 00 → 11 is illegal. -/
theorem test_quadrature :
    chCount (after (.inputEdge 3 1) (posOne 3 1 emptyCh)) 3 = 1 ∧ chCount (after (.inputEdge 3 2) (posOne 3 1 emptyCh)) 3 = 0xFFFFFFFF ∧
    rd (after (.inputEdge 3 3) (posOne 3 1 emptyCh)) (POS_CH_ERRCNT_ILLEGAL 3) = 1 := by decide +kernel

/-- A SENT channel of six data nibbles, of which three make the value. -/
def posSent (x : ChSt) : State :=
  withCfg [(POS_CH_SENT_TICK 0, 30), (POS_CH_SENT_NIBBLES 0, 6), (POS_CH_SENT_WIDTH 0, 3), (POS_CH_SENT_FIRST 0, 0)] (posOne 0 4 x)

theorem witness_ChannelSamples :
    (let s := withCfg [(POS_CH_AMP_AMP_MIN 0, 5), (POS_CH_AMP_AMP_MAX 0, 5), (POS_CH_SC_OFF_S 0, 2048), (POS_CH_SC_OFF_C 0, 2048)]
       (posOne 0 3 { emptyCh with ampRun := 7 })
     chType s 0 = 3 ∧ 7 ≤ (chSt s 0).ampRun ∧ ((0 : Int) < (posCfg s (POS_CH_AMP_AMP_MIN 0) : Int) ^ 2) ∧
     ((2051 % 4096 : Nat) : Int) - posCfg s (POS_CH_SC_OFF_S 0) = 3 ∧ ((2052 % 4096 : Nat) : Int) - posCfg s (POS_CH_SC_OFF_C 0) = 4 ∧
     (posCfg s (POS_CH_AMP_AMP_MIN 0) : Int) ^ 2 ≤ 25 ∧ 25 ≤ (posCfg s (POS_CH_AMP_AMP_MAX 0) : Int) ^ 2 ∧
     (posCfg s (POS_CH_AMP_AMP_MAX 0) : Int) ^ 2 < 3 * 3 + 5 * 5) ∧
    (chSt (posOne 0 3 { emptyCh with ampRun := 6 }) 0).ampRun < 7 ∧
    (let s := posSent { emptyCh with badRun := 3 }
     chType s 0 = 4 ∧ sentGood s 0 3000 [1, 2, 3, 4, 5] 0 false = false ∧ 3 ≤ (chSt s 0).badRun ∧ chValid s 0 = true) ∧
    (let s := posSent { emptyCh with fine := some 5 }
     sentGood s 0 3000 [1, 2, 3, 4, 5, 6] (sentCrc false [1, 2, 3, 4, 5, 6]) false = true ∧ (chSt s 0).skip = false ∧
     (chSt s 0).fine = some 5 ∧ (chSt s 0).badRun < 3) ∧
    (chSt (posSent emptyCh) 0).fine = none ∧
    (∀ ty ∈ [1, 4], 1 ≤ chType (posOne 3 ty emptyCh 0) 3 ∧ chType (posOne 3 ty emptyCh 0) 3 ≤ 4 ∧ chValid (posOne 3 ty emptyCh 0) 3 = false) := by
  decide +kernel

/-- R332: the difference of the decoded values counts. -/
theorem test_sent :
    chCount (after (.sentMessage 0 3000 [1, 2, 3, 4, 5, 6] (sentCrc false [1, 2, 3, 4, 5, 6]) false false 0)
      (posSent { emptyCh with fine := some 0x120 })) 0 = 3 ∧
    chValid (after (.sentTimeout 0) (posSent emptyCh)) 0 = false := by decide +kernel

def aHist (t : Nat) : HistEnt := ⟨t, ⟨0, 0, 0, 0⟩⟩

/-- A frame of context 3 with its midpoint at a time, between history entries at 1 and 2 ms. -/
def posHist (mid : Nat) : State :=
  { State.reset with
    now := 3000000, mot := { State.reset.mot with hist := [aHist 2000000, aHist 1000000] }
    frames := [newFrame 0 3 0 0 9 0 mid 0 none []] }

theorem witness_ObserversSnapshotsAndHistory :
    (chValid (posOne 3 1 emptyCh) 3 = true ∧ chType (posOne 3 1 emptyCh) 3 ≠ 0 ∧ chValid (posOne 3 1 emptyCh 0) 3 = false) ∧
    (∀ v ∈ [0, 1], let s := withCfg [(POS_SEL_STILL_MS, 100)] (posOne 3 1 { emptyCh with stepUp := 900000000 } v)
     1 ≤ chType s 3 ∧ chType s 3 ≤ 4 ∧ (chSt s 3).stepUp + posCfg s POS_SEL_STILL_MS * 1000000 ≤ upNs s) ∧
    (let s := withCfg [(POS_SEL_STILL_MS, 100)] (posOne 3 1 { emptyCh with stepUp := 900000001 })
     upNs s < (chSt s 3).stepUp + posCfg s POS_SEL_STILL_MS * 1000000) ∧
    (∀ x ∈ ([⟨3, 0, 0, false, true⟩] : List Mid), reached (tAt 9999) (x.at_ + 10000) = false ∧ x.due = false) ∧
    (∀ m ∈ [999999, 1000000, 2000000, 2000001],
      (posHist m).frames.find? (fun f => f.ctx == 3 && interpolates (posHist m) f) = some (newFrame 0 3 0 0 9 0 m 0 none []) ∧
      (posHist m).mot.hist.head? = some (aHist 2000000) ∧ (posHist m).mot.hist.getLast? = some (aHist 1000000) ∧
      (newFrame 0 3 0 0 9 0 m 0 none []).midNs = m) ∧
    (0 < gapNs 2000001 2000000 ∧ gapNs 999999 1000000 < 0 ∧ gapNs 1000000 1000000 = 0 ∧ gapNs 1000000 2000000 ≤ 0) ∧
    bracket 1000000 [aHist 2000000, aHist 1000000] = some (aHist 1000000, aHist 2000000) ∧
    State.reset.frames.find? (fun f => f.ctx == 3 && interpolates State.reset f) = none ∧
    (emuOf State.reset 1).on = false := by decide +kernel

theorem test_history :
    (after .historyEntry (posHist 0)).mot.hist.length = 3 ∧ rd (after (.motionInterpolate 3) (posHist 999999)) POS_EVT_HIST_MISS = 1 ∧
    rd (after (.motionInterpolate 3) (posHist 1000000)) POS_EVT_HIST_MISS = 0 := by decide +kernel

/-! ## Power, PWM outputs, fold motors -/

def pwrIn (p st : Nat) (l : List (RF × Nat) := []) : State :=
  withRegs ((PWR_P_STAT_STATE p, st) :: l)
    (withCfg [(PWR_RETRY_RETRY_N, 2), (PWR_P_OPEN_OPEN_MA p, 10), (PWR_SCALE_VSCALE, 256), (PWR_P_VWIN_UV_MV p, 9000),
      (PWR_P_VWIN_OV_MV p, 15000), (PWR_RAIL_RAIL_UV_MV, 10000)])

theorem witness_PowerSupervisors :
    (∀ p ∈ [0, 15], hasSupervisor State.reset p = true ∧ powered (pwrIn p 1) p = true ∧ powered (pwrIn p 2) p = true ∧
      powered (pwrIn p 0) p = false ∧ (∀ st ∈ [0, 1, 2, 3, 4], pwrState (pwrIn p st) p = st) ∧ portState (pwrIn p 1) p ≠ 1 ∧
      portState (pwrIn p 1 [(CPT_STATE_STATE p, 1)]) p = 1) ∧
    (let s := withCfg [(PWR_P_LIM_OC_INRUSH_MA 15, 900), (PWR_P_LIM_OC_MA 15, 900)] (pwrIn 15 1 [(PWR_P_MEAS_MV 15, 12000), (PWR_P_MEAS_MA 15, 899)])
     posCfg s (PWR_P_VWIN_UV_MV 15) ≤ rd s (PWR_P_MEAS_MV 15) ∧ rd s (PWR_P_MEAS_MV 15) ≤ posCfg s (PWR_P_VWIN_OV_MV 15) ∧
     rd s (PWR_P_MEAS_MA 15) < currentLimit s 15 ∧ pwrState s 15 = 1 ∧ currentLimit s 15 ≤ rd (wr (PWR_P_MEAS_MA 15) 900 s) (PWR_P_MEAS_MA 15)) ∧
    rd (pwrIn 15 3 [(PWR_P_STAT_ATTEMPT 15, 2)]) (PWR_P_STAT_ATTEMPT 15) ≤ posCfg (pwrIn 15 3) PWR_RETRY_RETRY_N ∧
    posCfg (pwrIn 15 3) PWR_RETRY_RETRY_N < rd (pwrIn 15 3 [(PWR_P_STAT_ATTEMPT 15, 3)]) (PWR_P_STAT_ATTEMPT 15) ∧
    isSafe (pwrIn 15 4) = false ∧ isSafe (withRegs [(MNT_SAFE_SAFE, 1)]) = true ∧
    rd (pwrIn 15 2 [(PWR_P_MEAS_MA 15, 9)]) (PWR_P_MEAS_MA 15) < posCfg (pwrIn 15 2) (PWR_P_OPEN_OPEN_MA 15) ∧
    posCfg (pwrIn 15 2) (PWR_P_OPEN_OPEN_MA 15) ≤ rd (pwrIn 15 2 [(PWR_P_MEAS_MA 15, 10)]) (PWR_P_MEAS_MA 15) ∧
    (∀ c ∈ [9000, 15000], posCfg (pwrIn 15 2) (PWR_P_VWIN_UV_MV 15) ≤ min 0xFFFF ((c * posCfg (pwrIn 15 2) PWR_SCALE_VSCALE + 128) / 256) ∧
      min 0xFFFF ((c * posCfg (pwrIn 15 2) PWR_SCALE_VSCALE + 128) / 256) ≤ posCfg (pwrIn 15 2) (PWR_P_VWIN_OV_MV 15)) ∧
    posCfg (pwrIn 15 2) (PWR_P_VWIN_OV_MV 15) < min 0xFFFF ((15001 * posCfg (pwrIn 15 2) PWR_SCALE_VSCALE + 128) / 256) ∧
    min 0xFFFF ((8999 * posCfg (pwrIn 15 2) PWR_SCALE_VSCALE + 128) / 256) < posCfg (pwrIn 15 2) (PWR_P_VWIN_UV_MV 15) ∧
    State.reset.mnt.parked = false ∧ ({ State.reset.mnt with parked := true } : MntSt).parked = true ∧
    min 0xFFFF ((9999 * posCfg (pwrIn 15 2) PWR_SCALE_VSCALE + 128) / 256) < posCfg (pwrIn 15 2) PWR_RAIL_RAIL_UV_MV := by decide +kernel

theorem test_power :
    pwrState (after (.powerRetry 15) (pwrIn 15 3 [(PWR_P_STAT_ATTEMPT 15, 3)])) 15 = 4 ∧
    pwrState (after (.powerRetry 15) (pwrIn 15 3 [(PWR_P_STAT_ATTEMPT 15, 2)])) 15 = 1 ∧
    rd (after (.adc1Conversion 30 12000) (pwrIn 15 2)) (PWR_P_MEAS_MV 15) = 12000 := by decide +kernel

/-- PWM channel 7 in a mode, with pulses that wait and the end of the running one. -/
def pwmOne (mode : Nat) (x : PwmSt) : State :=
  let s := withRegs [(PWM_CH_DUTY_DUTY 7, 0x8000)] (withCfg [(PWM_CH_CFG_MODE 7, mode), (PWM_CH_LIM_LIM 7, 0xFFFF), (PWM_CH_PER_PER 7, 1000)])
  { s with now := 5000, pwms := [(7, x)] }

theorem witness_PwmOutputs :
    (pwmLive (pwmOne 1 ⟨[], none⟩) 7 = true ∧ posCfg (pwmOne 1 ⟨[], none⟩) (PWM_CH_CFG_MODE 7) = 1 ∧
      posCfg (pwmOne 2 ⟨[], none⟩) (PWM_CH_CFG_MODE 7) ≠ 1 ∧ pwmLive (withRegs [(MNT_SAFE_SAFE, 1)]) 7 = false) ∧
    (∀ a ∈ [5000, 5001], (pwmOf (pwmOne 2 ⟨[(a, 6000)], none⟩) 7).waits = (a, 6000) :: []) ∧ (pwmOne 2 ⟨[], none⟩).now < 5001 ∧
    (pwmOf (pwmOne 2 ⟨[], none⟩) 7).waits = [] ∧ (pwmOf (pwmOne 2 ⟨[], none⟩) 7).until_ = none ∧
    (∀ u ∈ [5000, 5001], (pwmOf (pwmOne 2 ⟨[], some u⟩) 7).until_ = some u) := by decide +kernel

/-- R350: a duty of one half of a period of 1,000 ns. -/
theorem test_pwm :
    (pwmOf (after (.pwmPeriodStart 7) (pwmOne 1 ⟨[], none⟩)) 7).until_ = some 5500 ∧
    (pwmOf (after (.pwmPulseEnd 7) (pwmOne 2 ⟨[], some 5000⟩)) 7).until_ = none := by decide +kernel

/-- Fold channel 1 in a state; the speed is not known. -/
def foldIn (st unknownOk : Nat) : State := withRegs [(FOLD_STAT_STATE 1, st)] (withCfg [(FOLD_VMAX_UNKNOWN_OK 1, unknownOk), (FOLD_CFG_DUTY 1, 4)])

theorem witness_FoldMotors :
    isSafe (withRegs [(MNT_SAFE_SAFE, 1)]) = true ∧ (isSafe (foldIn 0 1) = false ∧ (foldIn 0 1).mnt.parked = false) ∧
    (profSpeed (foldIn 0 0) = 0xFFFF ∧ posCfg (foldIn 0 0) (FOLD_VMAX_UNKNOWN_OK 1) = 0 ∧ posCfg (foldIn 0 1) (FOLD_VMAX_UNKNOWN_OK 1) ≠ 0 ∧
      profSpeed (foldIn 0 1) = 0xFFFF) ∧
    (∀ way ∈ [1, 2], let s : State := { foldIn 3 1 with folds := [(1, way)] }
     foldState s 1 = 3 ∧ sget (fun _ => 0) s.folds 1 = way) ∧
    (∀ st ∈ [0, 1, 2, 3, 4, 5, 6], foldState (foldIn st 1) 1 = st) ∧ foldRuns (foldIn 1 1) 1 = true ∧ foldRuns (foldIn 2 1) 1 = true ∧
    foldRuns (foldIn 3 1) 1 = false ∧
    (let s := wr (FOLD_STAT_MA 1) 500 (withCfg [(FOLD_LIM_STALL_MA 1, 500)] (foldIn 1 1))
     posCfg s (FOLD_LIM_STALL_MA 1) ≤ rd s (FOLD_STAT_MA 1)) ∧
    (let s := wr (FOLD_STAT_MA 1) 499 (withCfg [(FOLD_LIM_STALL_MA 1, 500)] (foldIn 1 1))
     rd s (FOLD_STAT_MA 1) < posCfg s (FOLD_LIM_STALL_MA 1)) := by decide +kernel

theorem test_fold :
    foldState (after (.fold 1) (foldIn 0 1)) 1 = 1 ∧ foldState (after (.fold 1) (foldIn 2 1)) 1 = 3 ∧
    foldState (after (.brakeEnd 1) (after (.unfold 1) (after (.fold 1) (after (.fold 1) (foldIn 2 1))))) 1 = 2 ∧
    rd (after (.fold 1) (foldIn 0 0)) ⟨PWM_EVT_FOLD_REJ.addr, PWM_EVT_FOLD_REJ.lo + 1, PWM_EVT_FOLD_REJ.lo + 1⟩ = 1 := by decide +kernel

/-! ## Bridge -/

/-- Window 0 covers device memory from 0 on for HP0 and the next originators, with one slot. -/
def brgOn (l : List (RF × Nat) := []) : State :=
  withRegs [(CPT_STATE_STATE 0, 4), (CPT_STATE_LOCK 0, 1)]
    (withCfg ([(BRG_WIN_W0_VALID 0, 1), (BRG_WIN_LEN_LENGTH 0, 0x100000), (BRG_WIN_RIGHTS_RIGHTS 0, 0x020202), (BRG_SLOT_VALID 0 0, 1),
      (BRG_SLOT_AW16 0 0, 1), (BRG_WIN_W0_VALID 1, 1), (BRG_WIN_W0_KIND 1, 1), (BRG_WIN_W0_INDEX 1, 31), (BRG_WIN_LEN_LENGTH 1, 0x1000000),
      (BRG_WIN_RIGHTS_RIGHTS 1, 0x020202)] ++ l))

def withAccs (xs : List BrgAcc) (s : State := brgOn) : State := { s with brg := { s.brg with accs := xs } }
def held (w orig : Nat) : List (RF × Nat) := [(BRG_SEM_STAT_HELD w, 1), (BRG_SEM_STAT_ORIG w, orig)]
def acc0 (tag w : Nat) (write : Bool) : BrgAcc := { aAcc with tag, w, orig := 0, write, addr := winBase w, started := false }

theorem witness_BridgeSemaphores :
    (brgCode .hp0 = some 0 ∧ origPresent State.reset.variant .hp0 = true ∧ brgCode (.weave 5) = some 3) ∧
    (∀ w ∈ [0, 51], isSet State.reset (BRG_SEM_STAT_HELD w) = false ∧ semHolder (withRegs (held w 0)) w 0 (brgFid .hp0) = true ∧
      isSet (withRegs (held w 1)) (BRG_SEM_STAT_HELD w) = true ∧ semHolder (withRegs (held w 1)) w 0 (brgFid .hp0) = false) := by
  decide +kernel

theorem test_semaphore :
    semHolder (after (.take .hp1 51) State.reset) 51 1 0 = true ∧
    rd (after (.leaseExpire 51) (withRegs (held 51 0))) (BRG_SEM_STAT_LAST_REL 51) = 2 := by decide +kernel

theorem witness_BridgeAcceptance :
    winOf 0x40000000 = none ∧ (winOf 0x10000000 = some 0 ∧ brgCode .hp0 = some 0 ∧ (0 : Nat) < 3 ∧ origPresent State.reset.variant .hp0 = true) ∧
    (winOf 0x3F000000 = some 51 ∧ ownFid State.reset ≠ some (51 - 20)) ∧
    (brgAllowed State.reset 0 0x10000000 [true] true 0 = false ∧ brgAllowed brgOn 0 0x10000000 [true] true 0 = true ∧
      brgShape brgOn 0 0x10010000 1 = false ∧ brgAllowed brgOn 0 0x10010000 [true] true 0 = true ∧ brgShape brgOn 0 0x10000000 1 = true ∧
      brgRoom brgOn 0 true 0 = true ∧
      brgRoom (withAccs (List.replicate 32 (acc0 1 0 true))) 0 true 0 = false ∧
      brgAllowed (withAccs (List.replicate 32 (acc0 1 0 true))) 0 0x10000000 [true] true 0 = true ∧
      brgShape (withAccs (List.replicate 32 (acc0 1 0 true))) 0 0x10000000 1 = true) ∧
    (∀ b ∈ [true, false], (acc0 1 0 b).dead = false ∧ (acc0 1 0 b).orig < 2 ∧ (acc0 1 0 b).write = b) ∧ inCompat brgOn = false := by decide +kernel

theorem witness_BridgeCarriesOut :
    (nextAcc State.reset 19 = none ∧ nextAcc State.reset 51 = none) ∧
    (∀ b ∈ [true, false], nextAcc (withAccs [acc0 1 0 b]) 0 = some (acc0 1 0 b) ∧ sensorReady (withAccs [acc0 1 0 b]) 0 = true ∧
      sensorReady (withAccs [acc0 1 0 b] State.reset) 0 = false ∧ nextAcc (withAccs [acc0 1 0 b] State.reset) 0 = some (acc0 1 0 b) ∧
      nextAcc (withAccs [acc0 1 51 b]) 51 = some (acc0 1 51 b) ∧ compatWaits (withAccs [acc0 1 51 b]) (acc0 1 51 b) = false) ∧
    isSet (withRegs (held 0 0) (withAccs [acc0 1 0 true])) (BRG_SEM_STAT_HELD 0) = true ∧
    nextAcc (withRegs (held 0 0) (withAccs [acc0 1 0 true])) 0 = some (acc0 1 0 true) ∧
    (let s := setPf 0 ⟨0, 0x10000000, [(5, false), (6, false)]⟩ (withAccs [acc0 1 0 false])
     pfHit (pfOf (pfOutside 0 0x10000000 s) 0) 0x10000000 [true, true] = true) ∧
    pfHit (pfOf (pfOutside 0 0x10000000 (withAccs [acc0 1 0 false])) 0) 0x10000000 [true, true] = false ∧
    accByTag State.reset 1 = none := by decide +kernel

theorem witness_BridgeCarriesOut_late :
    (let x := { acc0 1 51 false with started := true }
     accByTag (withAccs [x]) 1 = some x ∧ x.started = true ∧ 20 ≤ x.w ∧ x.fetch = none ∧ x.dead = false) ∧
    (let x := { acc0 1 51 false with fetch := some (0, 4) }
     accByTag (withAccs [x]) 1 = some x ∧ x.fetch.isSome = true) ∧
    (let s := withAccs (List.replicate 16 (acc0 1 51 true) ++ [acc0 2 51 true]) (brgOn [(BRG_CFG_COMPAT, 1)])
     accByTag s 2 = some (acc0 2 51 true) ∧ compatWaits s (acc0 2 51 true) = true) ∧
    (let s := setPf 0 ⟨0, 0x10000000, [(5, false)]⟩ State.reset
     brgCode .hp0 = some 0 ∧ (pfOf s 0).bytes.any (fun x => !x.2) = true) ∧ (pfOf State.reset 0).bytes.any (fun x => !x.2) = false := by
  decide +kernel

theorem test_bridge :
    ((after (.bridgeAccess ⟨.hp0, none⟩ 0x10000000 true [true] [9]) brgOn).brg.accs.map fun x => (x.w, x.data)) = [(0, [9])] ∧
    rd (after (.bridgeAccess ⟨.hp0, none⟩ 0x10000000 true [true] [9]) State.reset) BRG_CNT_POSTED_FAIL = 1 ∧
    (twbOf (after (.sensorWindowWrite 0) (withAccs [acc0 1 0 true])) 0).brgQ.length = 1 := by decide +kernel

/-! ## Weave, fabric, relay -/

/-- Weave port `p` in a state, enabled, with what it holds. -/
def wvIn (p st : Nat) (x : WvSt := emptyWv) (l : List (RF × Nat) := []) : State :=
  { withRegs ((WVE_STAT_STATE p, st) :: l) (withCfg [(WVE_CFG_ENABLE p, 1), (WVE_CFG_MIN_RATE p, 2), (WVE_CFG_RATE p, 0)]) with weaves := [(p, x)] }

def aBlock (seq : Nat) : Block := ⟨seq, 1, 0, 0, 0, []⟩

theorem witness_WeaveLinks :
    (∀ p ∈ [0, 3], wvHere State.reset p = true ∧ wvCfg (wvIn p 1) p WVE_CFG_ENABLE = 1 ∧ (∀ st ∈ [0, 1, 2, 3], wvState (wvIn p st) p = st) ∧
      wvUp (wvIn p 2) p = true ∧ wvUp (wvIn p 1) p = false ∧
      hasBit (rd (wvIn p 2) (WVE_STAT_LANE_OK p)) 4 = false ∧
      hasBit (rd (wvIn p 2 emptyWv [(WVE_STAT_LANE_OK p, 16)]) (WVE_STAT_LANE_OK p)) 4 = true ∧
      rd (wvIn p 1 emptyWv [(WVE_STAT_RATE_NOW p, 1)]) (WVE_STAT_RATE_NOW p) < wvCfg (wvIn p 1) p WVE_CFG_MIN_RATE ∧
      wvCfg (wvIn p 1) p WVE_CFG_MIN_RATE ≤ rd (wvIn p 1 emptyWv [(WVE_STAT_RATE_NOW p, 2)]) (WVE_STAT_RATE_NOW p)) ∧
    (let s := wvIn 3 1 emptyWv [(WVE_STAT_LANE_OK 3, 15)]
     alignedLanes s 3 % 16 ≠ 0 ∧ alignedLanes s 3 % 16 = alignedLanes s 3 ∧ 0 = rd s (WVE_STAT_RATE_NOW 3) ∧ 0 % 16 = 0) ∧
    ((wvOf (wvIn 3 2 { emptyWv with rejected := true }) 3).rejected = true ∧ (wvOf (wvIn 3 2) 3).fresh = 0 ∧ (wvOf (wvIn 3 2) 3).waitQ = [] ∧ (wvIn 3 2).rly.mirrors = [] ∧ (wvOf (wvIn 3 2) 3).retry = []) ∧
    0 < (wvOf (wvIn 3 2 { emptyWv with fresh := 1 }) 3).fresh ∧
    (fabName (wvIn 3 2) + 1 ≠ fabName (wvIn 3 2) ∧ wvActive (wvIn 3 2) 3 = false ∧ (wvOf (wvIn 3 2) 3).rejected = false ∧
      (wvOf (wvIn 3 2 { emptyWv with rejected := true }) 3).rejected = true) := by decide +kernel

theorem test_weave_training :
    rd (after (.trainTimeout 3) (wvIn 3 1 emptyWv [(WVE_STAT_RATE_NOW 3, 1)])) (WVE_STAT_RATE_NOW 3) = 2 ∧
    wvState (after (.trainTimeout 3) (wvIn 3 1 emptyWv [(WVE_STAT_RATE_NOW 3, 2)])) 3 = 0 ∧
    hasBit (rd (after (.laneLock 3 4) (wvIn 3 1)) (WVE_STAT_LANE_OK 3)) 4 = true := by decide +kernel

/-- R390: the distance is taken modulo 4096; the next one in order, one out of order, one repeated, one out of the window. -/
theorem witness_SequencedBlocks :
    wvHere State.reset 4 = false ∧ wvUp (wvIn 3 1) 3 = false ∧ (wvOf (wvIn 3 2 { emptyWv with rejected := true }) 3).rejected = true ∧
    (let s := wvIn 3 2 { emptyWv with cum := 4095, held := [aBlock 7] }
     wvHere s 3 = true ∧ wvUp s 3 = true ∧ (wvOf s 3).rejected = false ∧
     (4095 % 4096 + 4096 - (wvOf s 3).cum) % 4096 = 0 ∧ (wvOf s 3).cum < 4096 ∧
     (0 % 4096 + 4096 - (wvOf s 3).cum) % 4096 = 1 ∧ (510 % 4096 + 4096 - (wvOf s 3).cum) % 4096 = 511 ∧
     (511 % 4096 + 4096 - (wvOf s 3).cum) % 4096 = 512 ∧
     (wvOf s 3).held.any (fun h => h.seq == 7 % 4096) = true ∧ (wvOf s 3).held.any (fun h => h.seq == 4095 % 4096) = false ∧
     (wvOf s 3).held.any (fun h => h.seq == 510 % 4096) = false) := by decide +kernel

theorem test_blocks :
    (wvOf (after (.lsaBlock 3 4095 0 []) (wvIn 3 2 { emptyWv with cum := 4095 })) 3).cum = 0 ∧
    (wvOf (after (.lsaBlock 3 1 0 []) (wvIn 3 2 { emptyWv with cum := 4095 })) 3).held.length = 1 := by decide +kernel

def aLsa (uid : Nat) (fid : Option Nat) : Lsa := ⟨uid, fid, false, false, 0, 0, []⟩

/-- The device claims a fabric ID while 0 to n − 1 are taken. -/
def fabClaim (n : Nat) : State :=
  let s := wvIn 0 3
  { s with fab := { s.fab with claiming := true, lsas := (List.range n).map fun f => aLsa (f + 9) (some f) } }

def fabHas : State := withRegs [(FAB_STAT_FID_VALID, 1), (FAB_STAT_FID, 5)]

theorem witness_FabricRollCall :
    stoppedB State.reset = false ∧ fabricOk State.reset.variant = true ∧ fabricOk Variant.cv9608 = false ∧
    lsaOf State.reset 9 = none ∧ (lsaOf (fabClaim 1) 9).isSome = true ∧
    (∀ n ∈ [0, 31], (fabClaim n).fab.claiming = true ∧ ownFid (fabClaim n) = none ∧ activePorts (fabClaim n) ≠ [] ∧ n < 32 ∧
      (∀ l ∈ (fabClaim n).fab.lsas, l.fid ≠ some n) ∧ (∀ g < n, ∃ l ∈ (fabClaim n).fab.lsas, l.fid = some g)) ∧
    (State.reset.fab.claiming = false ∧ ownFid fabHas = some 5 ∧ fabHas.fab.saved = false ∧ activePorts State.reset = []) ∧
    (wvHere (wvIn 3 3) 3 = true ∧ wvActive (wvIn 3 3) 3 = true ∧ timeCfg (wvIn 3 3) TSU_CFG_SOURCE ≠ 2 ∧ wvActive (wvIn 3 2) 3 = false) := by
  decide +kernel

theorem test_fid_claim :
    ownFid (after .fidClaim (fabClaim 3)) = some 3 ∧ (after .fidJournal fabHas).jnl.stickyFid = some 5 := by decide +kernel

/-- The relay runs in a role. -/
def rlyIn (r : Nat) (l : List (RF × Nat) := []) : State := withRegs ((RLY_STAT_ROLE, r) :: l) (withCfg [(RLY_CFG_ENABLE, 1)])

theorem witness_RelayPair :
    (∀ r ∈ [1, 2, 3, 4], relayOn (rlyIn r) = true ∧ role (rlyIn r) = r) ∧ relayOn State.reset = false ∧
    ({ (rlyIn 2).rly with beat := true } : RlySt).beat = true ∧ (rlyIn 2).rly.beat = false ∧
    rd (rlyIn 2 [(RLY_STAT_MISSES, 2)]) RLY_STAT_MISSES = 2 ∧ rd (rlyIn 2) RLY_STAT_MISSES ≠ 2 ∧ (rlyIn 2).rly.fencing = none ∧
    ({ (rlyIn 2).rly with fencing := some (0, false) } : RlySt).fencing.isSome = true ∧ (rlyIn 2).rly.seen = false ∧
    ({ (rlyIn 2).rly with seen := true } : RlySt).seen = true ∧
    ({ (rlyIn 1).rly with mirrors := [⟨0, [], []⟩] } : RlySt).mirrors ≠ [] ∧ (rlyIn 1).rly.mirrors = [] ∧
    (role (rlyIn 3 [(RLY_STAT_PARTNER, 1)]) = 3 ∧ isSet (rlyIn 3 [(RLY_STAT_PARTNER, 1)]) RLY_STAT_PARTNER = true ∧
      isSet (rlyIn 3) RLY_STAT_PARTNER = false) ∧
    ((rlyIn 1).rly.offered = false ∧ ({ (rlyIn 1).rly with offered := true } : RlySt).offered = true) ∧
    (isSet (rlyIn 1) RLY_STAT_FENCE_OUT = false ∧ isSet (rlyIn 4) RLY_STAT_FENCE_IN = false ∧
      isSet (rlyIn 4 [(RLY_STAT_FENCE_IN, 1)]) RLY_STAT_FENCE_IN = true) ∧
    (let s : State := { rlyIn 2 with rly := { (rlyIn 2).rly with unmatched := [(3, 0, 0, 0)] } }
     s.rly.unmatched.find? (fun x => x.1 == 3) = some (3, 0, 0, 0) ∧ s.rly.unmatched.find? (fun x => x.1 == 4) = none) := by decide +kernel

/-- R411: with FENCE_OUT driven, the fence input ends the other kind of holding; while fencing, the input decides. -/
theorem witness_RelayPair_fence :
    (∀ r ∈ [1, 3], ∀ h ∈ [true, false], let s : State := { rlyIn r [(RLY_STAT_FENCE_OUT, 1)] with rly := { (rlyIn r).rly with asHolder := h } }
     role s = r ∧ isSet s RLY_STAT_FENCE_OUT = true ∧ s.rly.asHolder = h ∧ s.rly.fencing = none ∧ relayOn s = true ∧ stoppedB s = false) ∧
    (∀ alone ∈ [true, false], ∀ i ∈ [0, 1], let s : State := { rlyIn 2 [(RLY_STAT_FENCE_IN, i)] with rly := { (rlyIn 2).rly with fencing := some (0, alone) } }
     s.rly.fencing = some (0, alone) ∧ isSet s RLY_STAT_FENCE_IN = (i == 1)) := by decide +kernel

theorem test_fence :
    role (after (.fenceInput true) (rlyIn 1)) = 4 ∧
    (let s : State := { rlyIn 2 with rly := { (rlyIn 2).rly with fencing := some (0, true) } }
     role (after .fenceWaitExpire s) = 3) := by decide +kernel

theorem test_relay :
    rd (after .heartbeatTick (rlyIn 2 [(RLY_STAT_MISSES, 2)])) RLY_EVT_PARTNER_LOST = 1 ∧
    role (after .fenceReleaseTimer (rlyIn 4)) = 2 ∧ role (after .mirrorRestore (rlyIn 3 [(RLY_STAT_PARTNER, 1)])) = 1 := by decide +kernel

theorem witness_FabricRollCall_time :
    let s := withCfg [(TSU_CFG_SOURCE, 2)] (wvIn 3 3 { emptyWv with timeSent := 40 } [(FAB_ROUTE_VALID 7, 1), (FAB_ROUTE_PORT 7, 3)])
    timeCfg s TSU_CFG_SOURCE = 2 ∧ towardsRoot s 3 (some 7) = true ∧ (wvOf s 3).timeSent ≠ 0 ∧ 40 = (wvOf s 3).timeSent ∧
      towardsRoot s 3 none = false := by decide +kernel

/-- A TIME block that echoes our own last one gives a measurement (R402). -/
theorem test_time_block :
    ((after (.timeBlock 3 60 40 100 [1] (some 7)) (withCfg [(TSU_CFG_SOURCE, 2)]
      (wvIn 3 3 { emptyWv with timeSent := 40 } [(FAB_ROUTE_VALID 7, 1), (FAB_ROUTE_PORT 7, 3)]))).time.measured.isSome) = true := by
  decide +kernel

/-! ## Maintenance, park mode, flash -/

def parkIn (parking parked : Bool) (wake : Nat) : State := { State.reset with mnt := { State.reset.mnt with parking, parked, wake } }

theorem witness_ParkSessionsAndFlash_park :
    (Orig.hp0 ≠ .t0 ∧ (parkIn true true 0).mnt.parked = true) ∧
    (isSafe (withRegs [(MNT_SAFE_SAFE, 1)]) = true ∧ isSafe (parkIn true false 0) = false ∧ (parkIn true false 0).mnt.parked = false ∧
      (parkIn true false 0).mnt.parking = true ∧ State.reset.mnt.parking = false) ∧
    (isSet inSession MNT_STAT_SESSION = true ∧ inSession.mnt.parking = false ∧ isSet State.reset MNT_STAT_SESSION = false) ∧
    (let s := parkIn true false 0
     crossingsEmpty (each ((List.range 4).filter (wpPresent s.variant)) linkDown (each (cameraPorts s) parkCamera s)) = true) ∧
    (let s : State := { parkIn true false 0 with txs := [(0, ⟨[⟨0, 0, [1, 0]⟩], [], false⟩)] }
     s.mnt.parking = true ∧ s.mnt.parked = false ∧ isSafe s = false ∧
     crossingsEmpty (each ((List.range 4).filter (wpPresent s.variant)) linkDown (each (cameraPorts s) parkCamera s)) = false) ∧
    (Orig.hp0 ≠ Orig.t0 ∧ sessionHolder inSession .t0 = false ∧ isSet (withRegs [(MNT_STAT_ARMED, 1), (MNT_STAT_WINDOW, 1)]) MNT_STAT_SESSION = false ∧
      rd (wr LDR_STAT_OWNER 4 inSession) LDR_STAT_OWNER = 4) ∧
    ((parkIn true true 3).mnt.wake ≠ 0 ∧ (parkIn true true 0).mnt.wake = 0) ∧
    (isSet State.reset MNT_STAT_ARMED = false ∧ isSet (withRegs [(MNT_STAT_ARMED, 1)]) MNT_STAT_ARMED = true) ∧
    (isSet State.reset MNT_STAT_WINDOW = false ∧ isSet (withRegs [(MNT_STAT_WINDOW, 1)]) MNT_STAT_WINDOW = true) ∧
    (sessionHolder State.reset .hp0 = false ∧ sessionHolder inSession .hp0 = true) ∧
    (origNumber .hp0 = some 0 ∧ origPresent State.reset.variant .hp0 = true ∧ requestResult State.reset (requestBytes State.reset) ≠ 0) := by
  decide +kernel

/-- The write window is open on an armed device, and its request registers hold the signed request. -/
def mntAsks : State :=
  { withRegs ([(MNT_STAT_ARMED, 1), (MNT_STAT_WINDOW, 1)] ++ (List.range 40).map fun i => (⟨(MNT_REQ_ALL i).addr, 31, 0⟩, leAt mntRequest (4 * i) 4))
      { State.reset with chip := { Chip.default with keyHash := some imgKey } } with freeCount := 0 }

/-- R432: the request with our key's signature is granted. -/
theorem witness_ParkSessionsAndFlash_request : requestResult mntAsks (requestBytes mntAsks) = 0 := by decide +kernel

/-- R432: each check that fails gives its result; a session that is open goes before the request's content. -/
theorem witness_ParkSessionsAndFlash_refused :
    (let s := wr MNT_STAT_SESSION 1 mntAsks
     isSet s MNT_STAT_SESSION = true ∧ requestResult s (requestBytes s) = 7) ∧
    (let q := requestBytes mntAsks
     q.take 4 = [0x4D, 0x4E, 0x54, 0x31] ∧ leAt q 8 8 = mntAsks.chip.uid ∧
     slice q 0x10 16 = ((List.range 4).flatMap fun i => leBytes 4 (rd mntAsks (MNT_NONCE_NONCE i))) ∧
     requestResult mntAsks (0 :: q.drop 1) = 2 ∧ requestResult (wr (MNT_NONCE_NONCE 3) 1 mntAsks) q = 3 ∧
     requestResult { mntAsks with chip := { mntAsks.chip with keyHash := none } } q = 4) := by decide +kernel

/-- A session of HP0 with a FLAGS value. -/
def sessionWith (flags : Nat) (s : State := State.reset) : State :=
  withRegs [(MNT_STAT_SESSION, 1), (MNT_STAT_ORIG, 0), (MNT_STAT_FLAGS, flags), (LDR_STAT_IMAGE, 1)] s

theorem witness_ParkSessionsAndFlash_flash :
    (sessionHolder State.reset .hp0 = false ∧ sessionHolder (sessionWith 2) .hp0 = true ∧
      isSet (wr MNT_FLASH_STAT_BUSY 1 (sessionWith 2)) MNT_FLASH_STAT_BUSY = true ∧ isSet (sessionWith 2) MNT_FLASH_STAT_BUSY = false) ∧
    (hasBit (rd (sessionWith 1) MNT_STAT_FLAGS) 1 = false ∧ hasBit (rd (sessionWith 1) MNT_STAT_FLAGS) 2 = false ∧
      hasBit (rd (sessionWith 2) MNT_STAT_FLAGS) 1 = true ∧ hasBit (rd (sessionWith 4) MNT_STAT_FLAGS) 2 = true) ∧
    (slotKept (sessionWith 2) 1 = true ∧ slotKept (sessionWith 2) 0 = false ∧ slotRange (sessionWith 2) (2 % 2) = some (0, 0x4000000) ∧
      0x3FFF < 0x4000 ∧ 0x3FFF * 4096 + 4096 ≤ 0x4000000) ∧
    (isSafe (sessionWith 2) = false ∧ (sessionWith 2).ldr.phase ≠ .run ∧ (ldrIn .run 0).ldr.phase = .run) ∧
    (slotRange ({ sessionWith 2 with chip := { Chip.default with flashBytes := 0x4000000 } } : State) 1 = none ∧
      slotKept (sessionWith 2 (withRegs [])) 0 = false ∧
      (let s := wr LDR_STAT_IMAGE 0 { sessionWith 2 with chip := { Chip.default with flashBytes := 0x4000000 } }
       slotKept s 1 = false ∧ slotRange s 1 = none ∧ sessionHolder s .hp0 = true)) ∧
    slotCause (sessionWith 4) 0 1 ≠ 0 ∧
    ((0 : Nat) ≤ State.reset.rollback ∧ 64 < 65 ∧ State.reset.mnt.op = none) ∧
    (let s : State := { ldrIn .run 0 with mnt := { State.reset.mnt with op := some ⟨5, 0, 7, 0, 0⟩ } }
     s.mnt.op = some ⟨5, 0, 7, 0, 0⟩ ∧ (5 ≠ 4 ∨ s.ldr.phase = .run) ∧ 0 < 3) := by decide +kernel

/-- A rollback step is due that the images of both slots reach. -/
theorem witness_ParkSessionsAndFlash_rollback :
    (imgDevice .run 0 0).rollback < 1 ∧ 1 ≤ 64 ∧ bothReach (imgDevice .run 0 0) 1 = true := by
  have h (slot : Nat) (hs : slot = 0 ∨ slot = 1) : slotCause (imgDevice .run 0 0) slot 1 = 0 := by
    simp only [slotCause, img_header _ _ _ _ hs, img_body _ _ _ _ 1 hs (Nat.le_refl 1), Option.getD_none]
  refine ⟨Nat.zero_lt_one, by decide, ?_⟩
  rw [bothReach, h 0 (.inl rfl), h 1 (.inr rfl)]
  rfl

theorem test_flash_and_park :
    rd (after (.erase .hp0 0) (sessionWith 2)) MNT_FLASH_STAT_BUSY = 1 ∧
    rd (after (.erase .hp0 1) (sessionWith 2)) MNT_FLASH_STAT_BUSY = 0 ∧
    (after (.flashOperationDone false) ({ ldrIn .run 0 with mnt := { State.reset.mnt with op := some ⟨5, 0, 7, 0, 0⟩ } } : State)).rollback = 7 := by
  decide +kernel

/-! ## The queue of commands -/

theorem witness_StepTakesTheFrontCommand : State.reset.pending = [] := rfl

theorem test_step_takes_the_front :
    (match step { State.reset with pending := [.step 5, .crystalStable] } with | .next t => (t.now, t.pending) | _ => (0, [])) =
      (5, [.crystalStable]) := by decide +kernel

theorem witness_StepKeepsTheInvariant : State.reset.Canonical := by
  constructor <;> simp [State.reset, State.inReset, swf, risingFrom]

/-- Commands whose effect takes the counter, the rollback counter or an island's epoch along. -/
theorem witness_EveryCommandHasItsEffect :
    (after (.step 5) State.reset).now ≠ State.reset.now ∧
    (after (.epochReachesIsland 39) (swapping false)).islEpoch ≠ (swapping false).islEpoch := by decide +kernel

end Sys2Proof.Tests
end

/-! PROOFS. CFG words into the basting bank, LIVE words, the views of the bank, and the LIVE refresh (R8, R10, R66, R74, R82 to R84,
R88). -/

namespace Sys2Proof.Machine
open Sys2Proof

/-- A field outside the footprint is the same. -/
theorem Evolves.same {F : List StateField} {s t : State} (h : Evolves F s t) {x : StateField} (hx : x ∉ F) : x.same s t :=
  h.frame x (by simpa using hx)

/-! ## The basting bank -/

/-- The writer owns the bank, or may become its owner with the write (R74); of the bus only a session with the right may. -/
def mayWriteBank (s : State) (w : Writer) : Prop :=
  owns s w = true ∨ mayTake s w = true ∧ ∀ o, w = .bus o → sessionOf s o 0 = true

theorem doCfgBastingWrite_of_mayWriteBank {s : State} {w : Writer} {a : Nat} (v : Nat) (hc : isCfgAt s a = true)
    (hl : isLiveWord a = false) (ht : w ≠ .bus .t1) (h : mayWriteBank s w) :
    doCfgBastingWrite w a v s = ownerWrite a v (if owns s w = true then s else takeBank w s) := by
  unfold doCfgBastingWrite
  by_cases ho : owns s w = true
  · cases w <;> simp_all
  · obtain ⟨hm, hs⟩ := h.resolve_left ho
    cases w <;> simp_all

/-- A bus originator without the right to the bank is denied (R10). -/
theorem doCfgBastingWrite_denied {s : State} {o : Orig} {a : Nat} (v : Nat) (hc : isCfgAt s a = true) (hl : isLiveWord a = false)
    (ht : o ≠ .t1) (ho : owns s (.bus o) = false) (hm : mayTake s (.bus o) = false ∨ sessionOf s o 0 = false) :
    doCfgBastingWrite (.bus o) a v s = deny a s := by
  unfold doCfgBastingWrite
  rcases hm with hm | hm <;> simp [hc, hl, ht, ho, hm]

/-- An internal writer that may not take the bank waits for it (R74). -/
theorem doCfgBastingWrite_waits {s : State} {w : Writer} {a : Nat} (v : Nat) (hc : isCfgAt s a = true) (hl : isLiveWord a = false)
    (hw : ∀ o, w ≠ .bus o) (ho : owns s w = false) (hm : mayTake s w = false) : doCfgBastingWrite w a v s = waitBank w s := by
  unfold doCfgBastingWrite
  cases w with
  | bus o => exact absurd rfl (hw o)
  | _ => simp [hc, hl, ho, hm]

theorem mem_waitBank (w : Writer) (s : State) : w ∈ (waitBank w s).ldr.waiting := by
  unfold waitBank
  split
  · next h => simpa using h
  · simp

/-- The owner's write: the checked word goes into the bank, and its clamps are reported (R66, R67). -/
theorem ownerWrite_eq {a : Nat} (hl : isLiveWord a = false) (v : Nat) (s : State) :
    ownerWrite a v s =
      let c := checkWord s s.cfgB a v (2 ^ 32 - 1) (cfgDesc a) (bankWord s.chip s.cfgB a)
      reportWrite a c.2 { s with cfgB := sset (regReset s.chip) s.cfgB a c.1 } := by
  simp only [ownerWrite, bastingWrite, hl, Bool.false_eq_true, if_false]
  rfl

theorem bankWord_sset (c : Chip) (m : Sparse Word) (a b : Nat) (w : Word) :
    bankWord c (sset (regReset c) m a w) b = if a = b then w else bankWord c m b := sget_sset _ _ _ _ _

/-- Reporting clamps leaves the banks and the LIVE copies alone. -/
theorem reportWrite_evolves (a : Nat) (cs : List Clamped) (s : State) :
    Evolves [.regs, .ldr, .queues, .readPorts, .svcStats, .jnl] s (reportWrite a cs s) := reportWrite_ev rfl (ev_refl _ s) a cs

/-! ## LIVE words -/

/-- A LIVE write: the checked word goes into the basting copy, and a clamp is counted (R67, R84). -/
theorem liveWrite_eq {a : Nat} (hl : isLiveWord a = true) (v : Nat) (s : State) :
    liveWrite a v s =
      let c := checkWord s s.liveB a v (2 ^ 32 - 1) (cfgDesc a) (bankWord s.chip s.liveB a)
      let u := { s with liveB := sset (regReset s.chip) s.liveB a c.1 }
      if c.2 = [] then u else inc LDR_LIVE_CLAMP_CNT_COUNT u := by
  simp only [liveWrite, bastingWrite, hl, if_true, List.isEmpty_iff]
  rfl

theorem doLiveWrite_of_right {s : State} {o : Orig} {a : Nat} (v : Nat) (hl : isLiveWord a = true) (hc : isCfgAt s a = true)
    (h : o = .svc ∨ sessionOf s o 0 = true) : doLiveWrite o a v s = liveWrite a v s := by
  simp [doLiveWrite, hl, hc, h]

theorem doLiveWrite_denied {s : State} {o : Orig} {a : Nat} (v : Nat) (hl : isLiveWord a = true) (hc : isCfgAt s a = true)
    (hs : o ≠ .svc) (ht : o ≠ .t1) (h : sessionOf s o 0 = false) : doLiveWrite o a v s = deny a s := by
  simp [doLiveWrite, hl, hc, hs, ht, h]

/-- The refresh of a context takes its four LIVE words from the basting copy, and no other word (R83). -/
theorem bankWord_liveRefresh (c a : Nat) (s : State) :
    bankWord s.chip (liveRefresh c s).liveA a =
      if a = (CTX_WB_GAIN0 c).addr ∨ a = (CTX_WB_GAIN2 c).addr ∨ a = (CTX_DGAIN c).addr ∨ a = (CTX_EXP_TIME c).addr
      then bankWord s.chip s.liveB a else bankWord s.chip s.liveA a := by
  have copy (m : Sparse Word) (k : Nat) : bankWord s.chip (sset (regReset s.chip) m k (sget (regReset s.chip) s.liveB k)) a =
      if a = k then bankWord s.chip s.liveB a else bankWord s.chip m a := by
    rw [bankWord_sset]
    by_cases h : k = a
    · subst h; simp [bankWord]
    · simp [h, Ne.symm h]
  simp only [liveRefresh, copy]
  grind

/-! ## The views of the bank -/

theorem testBit_withoutBit (v n j : Nat) : (withoutBit v n).testBit j = (v.testBit j && decide (j ≠ n)) := by
  unfold withoutBit
  induction n generalizing v j with
  | zero =>
    cases j with
    | zero =>
      split
      · next h => simp at h ⊢; omega
      · next h => simpa using h
    | succ j =>
      simp only [Nat.testBit_succ]
      split
      · next h => rw [show (v - 2 ^ 0) / 2 = v / 2 by simp at h; omega]; simp
      · simp
  | succ n ih =>
    have step : (if v.testBit (n + 1) then v - 2 ^ (n + 1) else v) / 2 = if (v / 2).testBit n then v / 2 - 2 ^ n else v / 2 := by
      rw [Nat.testBit_succ]; split <;> omega
    cases j with
    | zero =>
      split
      · next h =>
        have := Nat.ge_two_pow_of_testBit h
        simp only [Nat.testBit_zero]
        simp; omega
      · simp
    | succ j => rw [Nat.testBit_succ, step, ih, Nat.testBit_succ]; simp

theorem testBit_putBit (v n j : Nat) (b : Bool) : (putBit v n b).testBit j = if j = n then b else v.testBit j := by
  unfold putBit
  split
  · by_cases h : j = n <;> simp_all [withBit, eq_comm]
  · by_cases h : j = n <;> simp_all [testBit_withoutBit]

theorem viewBit_lt {o : Orig} {k : Nat} (h : viewBit o = some k) : k < 4 := by
  cases o <;> simp [viewBit] at h <;> omega

/-- A write of LDR_VIEW changes the originator's own bit (R88). -/
theorem doLdrViewWrite_eq {s : State} {o : Orig} {k : Nat} (v : Nat) (h : viewBit o = some k) (hp : origPresent s.variant o = true) :
    doLdrViewWrite o v s = wr LDR_VIEW_ACTIVE (putBit (rd s LDR_VIEW_ACTIVE) k (hasBit v k)) s := by
  simp [doLdrViewWrite, h, hp]

theorem hasBit_view {s : State} {k : Nat} (hk : k < 4) (b : Bool) (j : Nat) :
    hasBit (rd (wr LDR_VIEW_ACTIVE (putBit (rd s LDR_VIEW_ACTIVE) k b) s) LDR_VIEW_ACTIVE) j =
      if j = k then b else hasBit (rd s LDR_VIEW_ACTIVE) j := by
  rw [rd_wr_same (by decide) (by decide)]
  simp only [hasBit, Nat.testBit_mod_two_pow, testBit_putBit]
  by_cases hj : j < 4
  · simp [hj]
  · rw [Nat.testBit_lt_two_pow ((rd_lt s LDR_VIEW_ACTIVE).trans_le (Nat.pow_le_pow_right (by decide) (by simpa using hj)))]
    simp [hj]; omega

/-! ## O28 -/

/-- A write that its writer may make: what stands in every bank afterwards (R10, R66, R82). -/
theorem cfgBastingWrite_accepted (s : State) (w : Writer) (a v : Nat) (hc : isCfgAt s a = true) (hl : isLiveWord a = false)
    (ht : w ≠ .bus .t1) (h : mayWriteBank s w) : ∃ t,
    let u := if owns s w = true then s else takeBank w s
    let c := checkWord u s.cfgB a v (2 ^ 32 - 1) (cfgDesc a) (bankWord s.chip s.cfgB a)
    exec (.cfgBastingWrite w a v) s = .next t ∧
    t = reportWrite a c.2 { u with cfgB := sset (regReset s.chip) s.cfgB a c.1 } ∧
    bankWord t.chip t.cfgB a = c.1 ∧ (∀ b, b ≠ a → bankWord t.chip t.cfgB b = bankWord s.chip s.cfgB b) ∧
    t.cfgA = s.cfgA ∧ t.cfgO = s.cfgO ∧ t.liveA = s.liveA ∧ t.liveB = s.liveB := by
  refine ⟨doCfgBastingWrite w a v s, ?_⟩
  extract_lets u c
  have hu : Evolves [.regs, .ldr] s u := ev_ite (ev_refl _ s) (takeBank_ev rfl (ev_refl _ s) w)
  have hB : u.cfgB = s.cfgB := hu.same (x := .cfgB) (by decide)
  have e : doCfgBastingWrite w a v s = reportWrite a c.2 { u with cfgB := sset (regReset s.chip) s.cfgB a c.1 } := by
    rw [doCfgBastingWrite_of_mayWriteBank v hc hl ht h, ownerWrite_eq hl, hB, hu.chip]
  have hr := reportWrite_evolves a c.2 { u with cfgB := sset (regReset s.chip) s.cfgB a c.1 }
  rw [← e] at hr
  have hchip := hr.chip.trans hu.chip
  have hcfgB : (doCfgBastingWrite w a v s).cfgB = sset (regReset s.chip) s.cfgB a c.1 := hr.same (x := .cfgB) (by decide)
  refine ⟨rfl, e, ?_, fun b hb => ?_, ?_, ?_, ?_, ?_⟩
  · rw [hchip, hcfgB, bankWord_sset, if_pos rfl]
  · rw [hchip, hcfgB, bankWord_sset, if_neg hb.symm]
  · exact (hr.same (x := .cfgA) (by decide)).trans (hu.same (x := .cfgA) (by decide))
  · exact (hr.same (x := .cfgO) (by decide)).trans (hu.same (x := .cfgO) (by decide))
  · exact (hr.same (x := .liveA) (by decide)).trans (hu.same (x := .liveA) (by decide))
  · exact (hr.same (x := .liveB) (by decide)).trans (hu.same (x := .liveB) (by decide))

/-- Settles O28, from the equations of the four writes and the footprint of the reports. -/
theorem bastingWrites : Obligations.BastingWrites := by
  refine ⟨fun s w a v hc hl ht => ⟨?_, fun ho hm => ⟨?_, fun hw => ?_⟩⟩,
    fun s o a v hl hc => ⟨fun h => ?_, fun hs ht h => ?_⟩, fun s o k v hk hp => ?_, fun s c a _ => ⟨fun h => ?_, fun h => ?_⟩⟩
  · exact cfgBastingWrite_accepted s w a v hc hl fun e => ht _ e rfl
  · rintro o rfl
    rw [exec_cfgBastingWrite, execCfgBastingWrite, doCfgBastingWrite_denied v hc hl (ht o rfl) ho (by simpa using hm)]
    rfl
  · have hm : mayTake s w = false := hm.resolve_right fun ⟨o, e, _⟩ => hw o e
    rw [exec_cfgBastingWrite, execCfgBastingWrite, doCfgBastingWrite_waits v hc hl hw ho hm]
    exact ⟨_, rfl, mem_waitBank w s, fun x hx => (waitBank_ev (H := [.ldr]) rfl (ev_refl _ s) w).same (by simpa using hx)⟩
  · rw [exec_liveWrite, execLiveWrite, doLiveWrite_of_right v hl hc h, liveWrite_eq hl]
  · rw [exec_liveWrite, execLiveWrite, doLiveWrite_denied v hl hc hs ht h]
    rfl
  · rw [exec_ldrViewWrite, execLdrViewWrite, doLdrViewWrite_eq v hk hp]
    exact ⟨_, rfl, fun x hx => (wr_ev (H := [.regs]) rfl (ev_refl _ s) _ _).same (by simpa using hx),
      hasBit_view (viewBit_lt hk) _, fun b hb => reg_wr_ne hb.symm⟩
  · rw [bankWord_liveRefresh, if_pos h]
  · rw [bankWord_liveRefresh, if_neg (by tauto)]

end Sys2Proof.Machine

/-! PROOFS. A register write by the register's class and its fields' access codes (R2, R6 to R12, R30, R309). -/

namespace Sys2Proof.Machine
open Sys2Proof

/-! ## A field's bits by its access code (R11, R12) -/

theorem testBit_foldl_withBit (l : List Nat) (v i : Nat) : (l.foldl withBit v).testBit i = (v.testBit i || decide (i ∈ l)) := by
  induction l generalizing v with
  | nil => simp
  | cons x l ih => rw [List.foldl_cons, ih]; simp [withBit, Nat.testBit_two_pow, eq_comm, Bool.or_assoc]

/-- A number built from a list of bits has exactly those. -/
theorem testBit_bitsOf (l : List Nat) (i : Nat) : (bitsOf l).testBit i = decide (i ∈ l) := by
  simp [bitsOf, testBit_foldl_withBit]

section
variable {x : FieldD} {i : Nat} (v hw : Nat) (w : Word)

theorem getLsbD_setFld (h : x.lo ≤ x.hi) (hi : i < 32) (n : Nat) : (setFld w x.hi x.lo n).getLsbD i =
    if x.hi < i then w.getLsbD i else if x.lo ≤ i then n.testBit (i - x.lo) else w.getLsbD i := by
  simp only [BitVec.getLsbD, testBit_setFld w x.hi x.lo n i h, hi, decide_true, Bool.true_and]

/-- The new value of a field, at the place of each of its bits. -/
theorem testBit_newValue (hlo : x.lo ≤ i) (hhi : i ≤ x.hi) : (v / 2 ^ x.lo % 2 ^ x.width).testBit (i - x.lo) = v.testBit i := by
  have hw : i - x.lo < x.width := by simp only [FieldD.width]; omega
  simp [hw, Nat.testBit_div_two_pow, Nat.sub_add_cancel hlo]

theorem writtenWord_written (h : x.lo ≤ x.hi) (hi : i < 32) (ha : x.acc = .rw ∨ x.acc = .wo) (hlo : x.lo ≤ i) (hhi : i ≤ x.hi) :
    (writtenWord [x] v hw w).getLsbD i = v.testBit i := by
  have e : writtenWord [x] v hw w = setFld w x.hi x.lo (v / 2 ^ x.lo % 2 ^ x.width) := by
    rcases ha with ha | ha <;> simp [writtenWord, ha]
  rw [e, getLsbD_setFld w h hi, if_neg (by omega), if_pos hlo, testBit_newValue v hlo hhi]

theorem writtenWord_w1c (h : x.lo ≤ x.hi) (hi : i < 32) (ha : x.acc = .w1c) (hlo : x.lo ≤ i) (hhi : i ≤ x.hi) :
    (writtenWord [x] v hw w).getLsbD i = (hw.testBit i || w.getLsbD i && !v.testBit i) := by
  have hx : i - x.lo < x.width := by simp only [FieldD.width]; omega
  simp only [writtenWord, List.foldl_cons, List.foldl_nil, ha]
  rw [getLsbD_setFld w h hi, if_neg (by omega), if_pos hlo, testBit_bitsOf]
  simp only [List.mem_filter, List.mem_range, hx, true_and, hasBit, testBit_newValue v hlo hhi, Nat.add_sub_cancel' hlo,
    Bool.decide_eq_true, BitVec.getLsbD]

theorem writtenWord_kept (h : x.acc ≠ .rw) (ho : x.acc ≠ .wo) (hc : x.acc ≠ .w1c) : writtenWord [x] v hw w = w := by
  cases ha : x.acc <;> simp_all [writtenWord]

theorem writtenWord_outside (h : x.lo ≤ x.hi) (hi : i < 32) (ho : i < x.lo ∨ x.hi < i) :
    (writtenWord [x] v hw w).getLsbD i = w.getLsbD i := by
  have e (n : Nat) : (setFld w x.hi x.lo n).getLsbD i = w.getLsbD i := by
    rw [getLsbD_setFld w h hi]
    rcases ho with ho | ho
    · rw [if_neg (by omega), if_neg (by omega)]
    · rw [if_pos ho]
  cases ha : x.acc <;> simp [writtenWord, ha, e]

end

/-! ## Where a write goes -/

/-- The addresses by which the service cores steer the time (R309). -/
def steersTime (a : Nat) : Prop := 0x900000 ≤ a ∧ a < 0x901000

theorem svcTimeWrite_outside {a : Nat} (h : ¬ steersTime a) (v : Nat) (s : State) : svcTimeWrite a v s = s := by
  unfold steersTime at h
  unfold svcTimeWrite
  dsimp only
  rw [if_neg (by omega), if_neg (by omega), if_neg (by omega), if_neg (by omega), if_neg (by omega)]

theorem steerTime_outside {o : Orig} {a : Nat} (h : o = .svc → ¬ steersTime a) (v : Nat) (s : State) : steerTime o [(a, v)] s = s := by
  unfold steerTime
  split
  · next ho => exact svcTimeWrite_outside (h ho) v s
  · rfl

section
variable {s : State} {o : Orig} {a : Nat} (hp : origPresent s.variant o = true) (hwr : writes o = true) (hwin : winOf a = none)
  (htab : tableKind a = none)
include hp hwr hwin htab

/-- A write that misses the map is counted and latched (R30). -/
theorem doRegisterWrite_miss (hu : unassigned s o a = true) (v n hw : Nat) : doRegisterWrite o a v n hw s = mapMiss a s := by
  simp [doRegisterWrite, hp, hwr, hwin, htab, hu]

/-- A write of another size or alignment is discarded and counted (R6). -/
theorem doRegisterWrite_partial (hu : unassigned s o a = false) {n : Nat} (hn : n ≠ 4 ∨ a % 4 ≠ 0) (v hw : Nat) :
    doRegisterWrite o a v n hw s = partialWrite o s := by
  simp only [doRegisterWrite, hp, hwr, hwin, htab, hu, if_pos hn]
  rfl

theorem doRegisterWrite_whole (hu : unassigned s o a = false) (ha : a % 4 = 0) (v hw : Nat) :
    doRegisterWrite o a v 4 hw s = steerTime o [(a, v)] (writeWord o a v hw s) := by
  simp [doRegisterWrite, hp, hwr, hwin, htab, hu, ha]

end

section
variable {s : State} {o : Orig} {a : Nat} (hwr : writes o = true) (htab : tableKind a = none)
include hwr htab

/-- The register space of an absent unit takes no write (R2). -/
theorem writeWord_absent (h : absentAt s.variant a = true) (v hw : Nat) : writeWord o a v hw s = s := by
  simp [writeWord, hwr, htab, h]

variable {d : RegD} {is : List Nat} (hab : absentAt s.variant a = false) (hshut : shutOut o a = false) (hreg : regAt a = some (d, is))
include hab hshut hreg

/-- A STAT register stands (R8). -/
theorem writeWord_stat (hc : d.cls = .stat) (v hw : Nat) : writeWord o a v hw s = s := by
  simp [writeWord, hwr, htab, hab, hshut, hreg, hc]

/-- An OP register takes the word by its access codes (R8, R11). -/
theorem writeWord_op (hc : d.cls = .op) {v : Nat} (hs : specialWrite o a v s = none) (hw : Nat) :
    writeWord o a v hw s = setReg a (writtenWord d.flds v hw (reg s a)) s := by
  simp [writeWord, hwr, htab, hab, hshut, hreg, hc, hs]

theorem writeWord_cfg (hc : d.cls = .cfg) (v hw : Nat) : writeWord o a v hw s = cfgWrite o a v s := by
  simp [writeWord, hwr, htab, hab, hshut, hreg, hc]

end

/-- A banked CFG word of a writer without the bank and without a session is denied (R10). -/
theorem cfgWrite_denied {s : State} {o : Orig} {a : Nat} (hwr : writes o = true) (hgo : a ≠ LDR_SWAP_REQ_GO.addr)
    (hdis : a ≠ LDR_DISCARD_GO.addr) (hl : isLiveWord a = false) (hc : isCfgAt s a = true) (ho : owns s (.bus o) = false)
    (hs : sessionOf s o 0 = false) (v : Nat) : cfgWrite o a v s = deny a s := by
  have ht : o ≠ .t1 := by rintro rfl; exact absurd hwr (by decide)
  simp only [cfgWrite, if_neg hgo, if_neg hdis, hl, Bool.false_eq_true, if_false]
  exact doCfgBastingWrite_denied v hc hl ht ho (.inr hs)

/-- What the space of an absent unit covers is assigned (R2). -/
theorem unassigned_of_absent {s : State} {a : Nat} (o : Orig) (h : absentAt s.variant a = true) (ha : a % 4 = 0) :
    unassigned s o a = false := by
  have e : a / 4 * 4 = a := by omega
  simp [unassigned, e, h]

/-- A write of the service cores to a STAT register does what it does to the time (R309). -/
theorem doRegisterWrite_svc_stat {s : State} {a : Nat} {d : RegD} {is : List Nat} (hwin : winOf a = none) (htab : tableKind a = none)
    (ha : a % 4 = 0) (hab : absentAt s.variant a = false) (hown : ownerOf a = none) (hreg : regAt a = some (d, is)) (hc : d.cls = .stat)
    (v hw : Nat) : doRegisterWrite .svc a v 4 hw s = svcTimeWrite a v s := by
  have e : a / 4 * 4 = a := by omega
  have hshut : shutOut .svc a = false := by simp [shutOut, hown]
  have hu : unassigned s .svc a = false := by simp [unassigned, e, hreg, hshut]
  rw [doRegisterWrite_whole rfl rfl hwin htab hu ha, writeWord_stat rfl htab hab hshut hreg hc]
  rfl

/-! ## O26 -/

theorem exec_registerWrite_direct (o : Orig) (a v n hw : Nat) (s : State) :
    exec (.registerWrite ⟨o, none⟩ a v n hw) s = .next (doRegisterWrite o a v n hw s) := rfl

/-- A write of the service cores to a register that they steer the time by is the command of its name (R309). -/
theorem doRegisterWrite_steers (s : State) {v : Nat} (hv : v < 2 ^ 32) (hw : Nat) :
    doRegisterWrite .svc TSU_RATE_VALUE.addr v 4 hw s = doRateWrite v s ∧
    doRegisterWrite .svc TSU_STEP_VALUE.addr v 4 hw s = doStep v s ∧
    doRegisterWrite .svc TSU_PPS_NEXT_NS.addr v 4 hw s = wr TSU_PPS_NEXT_NS v s := by
  have hm := Nat.mod_eq_of_lt hv
  have present {a : Nat} (h : ∀ v, absentAt v a = false) : absentAt s.variant a = false := h _
  refine ⟨?_, ?_, ?_⟩ <;>
    rw [doRegisterWrite_svc_stat rfl rfl rfl (present (by intro v; cases v <;> decide)) rfl rfl rfl, svcTimeWrite, hm] <;> rfl

/-- Settles O26: the word goes where writeWord's branches say, and a field's bits follow its access code. -/
theorem registerWriteByClass : Obligations.RegisterWriteByClass := by
  refine ⟨fun s o a v hw hp hwr hwin htab => ⟨fun hu n => ?_, fun hu n hn => ⟨?_, ?_, ?_⟩, fun hab ha hout => ?_,
    fun hu ha hab hshut d is hreg => ?_⟩, fun s v hw hv hst => ?_, fun x v hw w i hlh hhi hi => ⟨fun hin => ⟨?_, ?_, ?_⟩, ?_⟩⟩
  · rw [exec_registerWrite_direct, doRegisterWrite_miss hp hwr hwin htab hu]
    rfl
  · rintro rfl
    rw [exec_registerWrite_direct, doRegisterWrite_partial hp hwr hwin htab hu hn]
    rfl
  · rintro i h
    rw [exec_registerWrite_direct, doRegisterWrite_partial hp hwr hwin htab hu hn]
    rcases h with ⟨rfl, rfl⟩ | ⟨rfl, rfl⟩ | ⟨⟨f, rfl⟩, rfl⟩ <;> rfl
  · rintro rfl
    rw [exec_registerWrite_direct, doRegisterWrite_partial hp hwr hwin htab hu hn]
    rfl
  · rw [exec_registerWrite_direct, doRegisterWrite_whole hp hwr hwin htab (unassigned_of_absent o hab ha) ha,
      writeWord_absent hwr htab hab, steerTime_outside fun _ => hout]
  · have whole (h : o = .svc → ¬ steersTime a) :
        exec (.registerWrite ⟨o, none⟩ a v 4 hw) s = .next (writeWord o a v hw s) := by
      rw [exec_registerWrite_direct, doRegisterWrite_whole hp hwr hwin htab hu ha, steerTime_outside h]
    refine ⟨fun ho hc hs => ?_, fun ho hc => ?_, fun ho hout => ⟨fun hc hs => ?_, fun hc => ?_⟩,
      fun hc hgo hdis hl hcfg hout hown hses => ?_⟩
    · rw [whole fun e => absurd e ho, writeWord_op hwr htab hab hshut hreg hc hs]
    · rw [whole fun e => absurd e ho, writeWord_stat hwr htab hab hshut hreg hc]
    · rw [whole fun _ => hout, writeWord_op hwr htab hab hshut hreg hc hs]
    · rw [whole fun _ => hout, writeWord_stat hwr htab hab hshut hreg hc]
    · rw [whole hout, writeWord_cfg hwr htab hab hshut hreg hc, cfgWrite_denied hwr hgo hdis hl hcfg hown hses]
      rfl
  · obtain ⟨hr, hs, hn⟩ := doRegisterWrite_steers s hv hw
    rw [exec_registerWrite_direct, exec_registerWrite_direct, exec_registerWrite_direct, hr, hs, hn, exec_rateWrite, exec_step,
      execRateWrite, execStep, hst]
    exact ⟨rfl, rfl, rfl⟩
  · exact fun ha => writtenWord_written v hw w hlh hi ha hin.1 hin.2
  · exact fun ha => writtenWord_w1c v hw w hlh hi ha hin.1 hin.2
  · exact fun h ho hc => by rw [writtenWord_kept v hw w h ho hc]
  · exact writtenWord_outside v hw w hlh hi

end Sys2Proof.Machine

/-! PROOFS. What journalling leaves of the registers, and park mode (R21, R426, R430). -/

namespace Sys2Proof.Machine
open Sys2Proof

/-! ## Journalling and the registers -/

/-- The registers that a journal record can change: those of the queue engine, and SEQ and PTR of the journal. -/
def isJnl (a : Nat) : Prop := isQmx a ∨ a = JNL_SEQ_ALL.addr ∨ a = JNL_PTR_ALL.addr

theorem not_isJnl {a : Nat} (h : 0xD20000 ≤ a) (h8 : a % 0x1000 ≠ 8) : ¬ isJnl a := by
  simp only [isJnl, isQmx]
  omega

theorem qmxEvt_addr (code : Nat) : (qmxEvt code).addr = 0xA0000 := by
  unfold qmxEvt
  split
  · rfl
  · split <;> rfl

theorem qmxError_kept (code q : Nat) (s : State) : RegsKept isQmx s (qmxError code q s) := by
  refine (recordError_kept _ _).mono fun a h => ?_
  rcases h with (h | ⟨r, hr, rfl⟩) | ⟨hlo, hhi⟩
  · exact h
  · rw [List.mem_singleton.mp hr, qmxEvt_addr]
    exact qmx_evt
  · have e : errBase uQMX 0 = 0xA0004 := rfl
    exact Or.inl (by dsimp only at hlo hhi; omega)

theorem qPut_kept (q p : Nat) (ws : List Nat) (s : State) : RegsKept isQmx s (qPut q p ws s) := by
  refine RegsKept.trans ((qPutRaw_kept q p ws [] s).mono fun a h => ?_) (RegsKept.foldl (fun s q => qmxError_kept 1 q s) _ _)
  exact h.resolve_right fun ⟨r, hr, _⟩ => List.not_mem_nil hr

theorem kept_jnl_jmem (P : Nat → Prop) (s : State) (j : JnlSt) (m : Mem) : RegsKept P s { s with jnl := j, jmem := m } := .of_eq rfl rfl

theorem logWrite_kept (P : Nat → Prop) (s : State) (off : Nat) (bs : List Nat) : RegsKept P s (logWrite s off bs) :=
  kept_jnl_jmem P s s.jnl _

theorem writeSuperblock_kept (P : Nat → Prop) (s : State) : RegsKept P s (writeSuperblock s) := kept_jnl_jmem P s _ _

/-- A journal record changes no other register. -/
theorem journal_kept (type : Nat) (payload : List Nat) (s : State) : RegsKept isJnl s (journal type payload s) := by
  unfold journal
  extract_lets bs j s1 s2 off s3
  have k1 : RegsKept isJnl s s1 := by
    simp only [s1]
    split
    · exact .refl _ s
    · exact .of_eq rfl rfl
  have k2 : RegsKept isJnl s s2 := k1.wr (Or.inr (.inl rfl))
  have k3 : RegsKept isJnl s s3 := by
    simp only [s3]
    split
    · exact ((k2.trans (logWrite_kept _ s2 off bs)).wr (Or.inr (.inr rfl))).trans (writeSuperblock_kept _ _)
    · exact k2
  exact k3.trans ((qPut_kept _ _ _ _).mono fun a h => Or.inl h)

theorem mntRecord_kept (event result arg : Nat) (s : State) : RegsKept isJnl s (mntRecord event result arg s) := journal_kept _ _ _

/-! ## The islands that are clocked (R18, R33) -/

/-- GLB_ISL_RUN shows the islands that are clocked. -/
theorem hasBit_showClocks (s : State) {i : Nat} (hi : i < 40) :
    hasBit (rd (showClocks s) GLB_ISL_RUN_LO_RUN + 2 ^ 32 * rd (showClocks s) GLB_ISL_RUN_HI_RUN) i = clocked s i := by
  unfold showClocks
  extract_lets m
  have hm : m.testBit i = clocked s i := by simp [m, testBit_bitsOf, hi]
  have hlo : rd (wr GLB_ISL_RUN_HI_RUN (m / 2 ^ 32) (wr GLB_ISL_RUN_LO_RUN m s)) GLB_ISL_RUN_LO_RUN = m % 2 ^ 32 := by
    rw [rd_wr_addr (by decide)]
    exact rd_wr_same (by decide) (by decide)
  have hhi : rd (wr GLB_ISL_RUN_HI_RUN (m / 2 ^ 32) (wr GLB_ISL_RUN_LO_RUN m s)) GLB_ISL_RUN_HI_RUN = m / 2 ^ 32 % 2 ^ 8 :=
    rd_wr_same (by decide) (by decide)
  rw [hlo, hhi, ← hm, hasBit, Nat.add_comm, Nat.testBit_two_pow_mul_add _ (Nat.mod_lt _ (by decide))]
  split
  · next h => rw [Nat.testBit_mod_two_pow, decide_eq_true h, Bool.true_and]
  · next h =>
    rw [Nat.testBit_mod_two_pow, decide_eq_true (show i - 32 < 8 by omega), Nat.testBit_div_two_pow,
      Nat.sub_add_cancel (Nat.le_of_not_lt h), Bool.true_and]

theorem showClocks_kept (s : State) : RegsKept (fun a => a = 0x28 ∨ a = 0x2C) s (showClocks s) :=
  ((RegsKept.refl _ s).wr (.inl rfl)).wr (.inr rfl)

theorem clocked_of_parked {s : State} (h : s.mnt.parked = true) (i : Nat) :
    clocked s i = (islPresent s.variant i && (i == 0 || i == 1 || i == 37)) := by simp [clocked, h]

/-! ## Entry to park mode and its end (R430) -/

theorem cameraPorts_congr {s t : State} (h : t.chip = s.chip) : cameraPorts t = cameraPorts s := by simp [cameraPorts, State.variant, h]

/-- What a device that leaves park mode is like before its ports start again; `t` is `s` but for registers. -/
theorem leavePark_leaves {s t : State} (h : Evolves [.regs] s t) (cause : Nat) : ∃ u,
    leavePark cause t = parkRecord 1 cause (each (cameraPorts s) restartPort u) ∧ u.mnt.parking = false ∧ u.mnt.parked = false ∧
      rd u MNT_PARK_GO = 0 ∧ rd u (TWB_STAT_STATE 21) = 0 ∧ rd u (TWB_STAT_STATE 22) = 0 ∧
      ∀ x, x ≠ .regs → x ≠ .mnt → x ≠ .rsv → StateField.same x s u := by
  unfold leavePark
  extract_lets total hours stopped m s1 s2 s3
  have e1 : Evolves [.regs, .mnt, .rsv] s s1 :=
    wr_ev rfl (wr_ev rfl (wr_ev rfl (ev_mnt rfl (ev_mono rfl (ev_refl _ s) h)) _ _) _ _) _ _
  have e2 : Evolves [.regs, .mnt, .rsv] s s2 := ev_ite (showClocks_ev rfl e1) e1
  have e3 : Evolves [.regs, .mnt, .rsv] s s3 := ev_ite e2 (addTotal_ev rfl e2 1 hours)
  have hm : s3.mnt = s1.mnt := by
    simp only [s3, s2]
    split <;> split <;> rfl
  have k2 : RegsKept (fun a => a = 0x28 ∨ a = 0x2C) s1 s2 := by
    simp only [s2]
    split
    · exact showClocks_kept s1
    · exact .refl _ _
  have k3 : RegsKept (fun a => a = 0x28 ∨ a = 0x2C) s1 s3 := by
    refine k2.trans ?_
    simp only [s3]
    split
    · exact .refl _ _
    · exact .of_eq rfl rfl
  refine ⟨s3, ?_, ?_, ?_, ?_, ?_, ?_, fun x hr hx hv => e3.same (by simp [hr, hx, hv])⟩
  · rw [cameraPorts_congr e3.chip]
  · rw [hm]; rfl
  · rw [hm]; rfl
  · rw [k3.rd (by decide), rd_wr_addr (by decide), rd_wr_addr (by decide), rd_wr_same (by decide) (by decide)]
    rfl
  · rw [k3.rd (by decide), rd_wr_addr (by decide), rd_wr_same (by decide) (by decide)]
    rfl
  · rw [k3.rd (by decide), rd_wr_same (by decide) (by decide)]
    rfl

/-- Asking for park mode outside it (R430). -/
theorem doPark_asked {s : State} (v : Nat) (h : s.mnt.parked = false) : doPark .t0 v s =
    let w := wr MNT_PARK_WAKE_CMP (bit (hasBit v 1)) s
    if isSafe s || s.mnt.parking then w
    else if isSet s MNT_STAT_SESSION then wr MNT_STAT_LAST_RESULT 8 w
    else { w with mnt := { w.mnt with parking := true, wake := 0 } } |> wr MNT_PARK_GO 1 |> each (cameraPorts s) parkPort
      |> parkRecord 0 0 := by
  have hsafe : isSafe (wr MNT_PARK_WAKE_CMP (bit (hasBit v 1)) s) = isSafe s := by
    simp only [isSafe, isSet, rd_wr_addr (show MNT_PARK_WAKE_CMP.addr ≠ MNT_SAFE_SAFE.addr by decide)]
  have hses : isSet (wr MNT_PARK_WAKE_CMP (bit (hasBit v 1)) s) MNT_STAT_SESSION = isSet s MNT_STAT_SESSION := by
    simp only [isSet, rd_wr_addr (show MNT_PARK_WAKE_CMP.addr ≠ MNT_STAT_SESSION.addr by decide)]
  unfold doPark
  simp only [h, hsafe, hses, ne_eq, not_true_eq_false, Bool.false_eq_true, or_self, if_false]
  rfl

/-- Only target 0 asks for park mode or gives it up, and not in it. -/
theorem doPark_idle {s : State} {o : Orig} (v : Nat) (h : o ≠ .t0 ∨ s.mnt.parked = true) : doPark o v s = s := if_pos h

theorem doParkCancel_idle {s : State} {o : Orig} (v : Nat) (h : o ≠ .t0 ∨ s.mnt.parked = true) : doParkCancel o v s = s := if_pos h

theorem doParkCancel_asked {s : State} (v : Nat) (h : s.mnt.parked = false) : doParkCancel .t0 v s =
    if s.mnt.parking then leavePark 4 (wr MNT_PARK_WAKE_CMP (bit (hasBit v 1)) s) else wr MNT_PARK_WAKE_CMP (bit (hasBit v 1)) s := by
  exact if_neg (by simp [h])

/-! ## The islands stop (R18, R21) -/

theorem crossingsEmpty_iff (s : State) : crossingsEmpty s = true ↔
    s.frames = [] ∧ s.running = [] ∧ s.outs = [] ∧ ∀ x ∈ s.txs, x.2.queue = [] := by
  simp [crossingsEmpty, and_assoc]

/-- The state in which ports have closed what was open when the time for entry is over. -/
def entryClosed (s : State) : State := each ((List.range 4).filter (wpPresent s.variant)) linkDown (each (cameraPorts s) parkCamera s)

theorem entryClosed_chip (s : State) : (entryClosed s).chip = s.chip := by
  have h : Evolves [.pins, .regs, .cfgB, .ldr, .queues, .readPorts, .hostPorts, .svcStats, .jnl, .rsv, .cams, .frames, .outs, .doneKeys,
      .holds, .txs, .chans, .weaves, .outFlows, .fab, .jmem, .out, .freeCount] s (entryClosed s) :=
    each_ev (each_ev (ev_refl _ s) fun x u hu => parkCamera_ev rfl hu x) fun x u hu => linkDown_ev rfl hu x
  exact h.chip

theorem doParkComplete_entered {s : State} (hp : s.mnt.parking = true) (hd : s.mnt.parked = false) (hs : isSafe s = false) :
    doParkComplete s = if crossingsEmpty (entryClosed s) then stopIslands (entryClosed s) else entryClosed s := by
  have hc : (each (cameraPorts s) parkCamera s).chip = s.chip :=
    (each_ev (ev_refl [.pins, .regs, .queues, .readPorts, .svcStats, .jnl, .cams, .frames, .out] s) fun x u hu =>
      parkCamera_ev rfl hu x).chip
  simp only [doParkComplete, hp, hd, hs, Bool.not_false, Bool.and_self, if_true, State.variant, hc]
  rfl

theorem doParkComplete_idle {s : State} (h : s.mnt.parking = false ∨ s.mnt.parked = true ∨ isSafe s = true) : doParkComplete s = s := by
  rcases h with h | h | h <;> simp [doParkComplete, h]

/-- The islands stop: the last that stopIslands does, to a state that is already in park mode. -/
theorem stopIslands_eq (s : State) : ∃ u, u.mnt.parked = true ∧ u.variant = s.variant ∧
    stopIslands s = (showClocks u |> wr (TWB_STAT_STATE 21) 5 |> wr (TWB_STAT_STATE 22) 5) := by
  have hc := (stopIslands_ev rfl (ev_refl [.pins, .regs, .queues, .readPorts, .hostPorts, .svcStats, .jnl, .chans, .mnt, .pwms, .folds,
    .out] s)).chip
  unfold stopIslands at hc ⊢
  extract_lets s1 s2 s3 s4 m
  refine ⟨{ s4 with mnt := { m with parked := true, parkedAt := upNs s4 } }, rfl, ?_, rfl⟩
  exact congrArg Chip.variant hc

/-- Once the islands have stopped, both targets are parked, and islands 0, 1 and 37 alone are clocked. -/
theorem stopIslands_parked (s : State) : (stopIslands s).mnt.parked = true ∧ rd (stopIslands s) (TWB_STAT_STATE 21) = 5 ∧
    rd (stopIslands s) (TWB_STAT_STATE 22) = 5 ∧
    ∀ i, i < 40 → hasBit (rd (stopIslands s) GLB_ISL_RUN_LO_RUN + 2 ^ 32 * rd (stopIslands s) GLB_ISL_RUN_HI_RUN) i =
      (islPresent s.variant i && (i == 0 || i == 1 || i == 37)) := by
  obtain ⟨u, hu, hv, e⟩ := stopIslands_eq s
  have run (r : RF) (h1 : 0xB15010 ≠ r.addr) (h2 : 0xB16010 ≠ r.addr) : rd (stopIslands s) r = rd (showClocks u) r := by
    rw [e, rd_wr_addr h2, rd_wr_addr h1]
  refine ⟨by rw [e]; exact hu, ?_, ?_, fun i hi => ?_⟩
  · rw [e, rd_wr_addr (by decide), rd_wr_same (by decide) (by decide)]
    rfl
  · rw [e, rd_wr_same (by decide) (by decide)]
    rfl
  · rw [run _ (by decide) (by decide), run _ (by decide) (by decide), hasBit_showClocks u hi, clocked_of_parked hu, hv]

end Sys2Proof.Machine

/-! PROOFS. The write window and maintenance sessions (R431, R432, R434). -/

namespace Sys2Proof.Machine
open Sys2Proof

theorem rd_mntRecord {r : RF} (h : 0xD20000 ≤ r.addr) (h8 : r.addr % 0x1000 ≠ 8) (event result arg : Nat) (s : State) :
    rd (mntRecord event result arg s) r = rd s r := (mntRecord_kept event result arg s).rd (not_isJnl h h8)

@[simp] theorem rd_addTotal (i n : Nat) (s : State) (r : RF) : rd (addTotal i n s) r = rd s r := rfl

theorem rd_mnt (s : State) (m : MntSt) (r : RF) : rd { s with mnt := m } r = rd s r := rfl

theorem isSet_of_rd {s : State} {r : RF} {n : Nat} (h : rd s r = n) : isSet s r = (n != 0) := by rw [isSet, h]

/-! ## The window (R431) -/

/-- A pulse opens the window or starts it again; in a session it is journalled, outside one it draws a nonce. -/
theorem doPresencePulse_armed {s : State} (h : isSet s MNT_STAT_ARMED = true) : doPresencePulse s =
    let u := wr MNT_STAT_WINDOW 1 { s with mnt := { s.mnt with windowAt := upNs s } }
    if isSet s MNT_STAT_SESSION then mntRecord 2 0 0 u else drawNonce u := by
  have hses : isSet (wr MNT_STAT_WINDOW 1 { s with mnt := { s.mnt with windowAt := upNs s } }) MNT_STAT_SESSION =
      isSet s MNT_STAT_SESSION :=
    isSet_of_rd (rd_wr_bits (by decide) (by decide) (by decide))
  simp only [doPresencePulse, h, if_true, hses]
  rfl

theorem doPresencePulse_unarmed {s : State} (h : isSet s MNT_STAT_ARMED = false) : doPresencePulse s = s := by simp [doPresencePulse, h]

theorem doPresenceHeld_armed {s : State} (h : isSet s MNT_STAT_ARMED = true) :
    doPresenceHeld s = recordError ((mntErr 3 0).setting MNT_EVT_PRESENCE) s := by simp [doPresenceHeld, h]

theorem doPresenceHeld_unarmed {s : State} (h : isSet s MNT_STAT_ARMED = false) : doPresenceHeld s = s := by simp [doPresenceHeld, h]

theorem doWindowExpire_open {s : State} (h : isSet s MNT_STAT_WINDOW = true) :
    doWindowExpire s = wr MNT_STAT_WINDOW 0 (endSession s) := by simp [doWindowExpire, h]

theorem doWindowExpire_shut {s : State} (h : isSet s MNT_STAT_WINDOW = false) : doWindowExpire s = s := by simp [doWindowExpire, h]

/-- The nonce shows four words of the random source. -/
theorem rd_drawNonce (s : State) {i : Nat} (hi : i < 4) :
    rd (drawNonce s) (MNT_NONCE_NONCE i) = Config.freeNat (s.freeCount + i) % 2 ^ 32 := by
  have word (i : Nat) (u : State) :
      rd (wr (MNT_NONCE_NONCE i) (u32 (Config.freeNat (s.freeCount + i))) u) (MNT_NONCE_NONCE i) =
        Config.freeNat (s.freeCount + i) % 2 ^ 32 := by
    rw [rd_wr_same (Nat.zero_le _) (Nat.lt_succ_self 31)]
    exact Nat.mod_mod _ _
  have other {j : Nat} (h : j ≠ i) (v : Nat) (u : State) :
      rd (wr (MNT_NONCE_NONCE j) v u) (MNT_NONCE_NONCE i) = rd u (MNT_NONCE_NONCE i) :=
    rd_wr_addr (by dsimp only; omega)
  unfold drawNonce
  match i, hi with
  | 0, _ => rw [other (by decide), other (by decide), other (by decide), word]
  | 1, _ => rw [other (by decide), other (by decide), word]
  | 2, _ => rw [other (by decide), word]
  | 3, _ => rw [word]

/-! ## The end of a session (R432) -/

theorem endSession_without {s : State} (h : isSet s MNT_STAT_SESSION = false) : endSession s = s := by simp [endSession, h]

/-- The registers and the basting bank that the end of an open session leaves: those after its MAINT record, and three writes. -/
theorem endSession_eq {s : State} (h : isSet s MNT_STAT_SESSION = true) : ∃ u,
    u = mntRecord mntEnd 0 0 (if rd s LDR_STAT_OWNER = 4 then discardBank s else s) ∧ (endSession s).cfgB = u.cfgB ∧
    ∀ r, rd (endSession s) r = rd (u |> wr MNT_STAT_SESSION 0 |> wr MNT_STAT_FLAGS 0 |> wr MNT_EVT_SESSION_END 1) r := by
  refine ⟨_, rfl, ?_⟩
  unfold endSession
  rw [if_pos h]
  extract_lets s1 s2
  exact ⟨by simp only [s1, s2, wr_cfgB], fun r => rd_mnt _ _ r⟩

/-- An open session ends: the flags are cleared, the event is set, and the basting bank that it owned is the active one again. -/
theorem endSession_of_session {s : State} (h : isSet s MNT_STAT_SESSION = true) :
    isSet (endSession s) MNT_STAT_SESSION = false ∧ rd (endSession s) MNT_STAT_FLAGS = 0 ∧
      rd (endSession s) MNT_EVT_SESSION_END = 1 ∧ (rd s LDR_STAT_OWNER = 4 → (endSession s).cfgB = s.cfgA) := by
  obtain ⟨u, hu, hB, hr⟩ := endSession_eq h
  refine ⟨isSet_of_rd (n := 0) ?_, ?_, ?_, fun ho => ?_⟩
  · rw [hr, rd_wr_addr (by decide), rd_wr_bits (by decide) (by decide) (by decide), rd_wr_same (by decide) (by decide)]
    rfl
  · rw [hr, rd_wr_addr (by decide), rd_wr_same (by decide) (by decide)]
    rfl
  · rw [hr, rd_wr_same (by decide) (by decide)]
    rfl
  · rw [hB, hu, if_pos ho]
    exact (mntRecord_ev rfl (ev_refl [.regs, .queues, .readPorts, .svcStats, .jnl, .jmem] (discardBank s)) mntEnd 0 0).same (x := .cfgB)
      (by decide)

theorem doSessionClose_holder {s : State} {o : Orig} (h : sessionHolder s o = true) : doSessionClose o s = endSession s := by
  simp [doSessionClose, h]

theorem doSessionClose_other {s : State} {o : Orig} (h : sessionHolder s o = false) : doSessionClose o s = s := by
  simp [doSessionClose, h]

/-! ## Opening a session (R432): each check of the request, in their order -/

section
variable {s : State} {q : List Nat}

theorem requestResult_outside (h : isSet s MNT_STAT_ARMED = false ∨ isSet s MNT_STAT_WINDOW = false) : requestResult s q = 1 := by
  rcases h with h | h <;> simp [requestResult, h]

variable (ha : isSet s MNT_STAT_ARMED = true) (hw : isSet s MNT_STAT_WINDOW = true)
include ha hw

theorem requestResult_inSession (h : isSet s MNT_STAT_SESSION = true) : requestResult s q = 7 := by simp [requestResult, ha, hw, h]

variable (hs : isSet s MNT_STAT_SESSION = false)
include hs

theorem requestResult_malformed (h : q.take 4 ≠ [0x4D, 0x4E, 0x54, 0x31] ∨ leAt q 8 8 ≠ s.chip.uid) : requestResult s q = 2 := by
  simp [requestResult, ha, hw, hs, h]

variable (hm : q.take 4 = [0x4D, 0x4E, 0x54, 0x31]) (hu : leAt q 8 8 = s.chip.uid)
include hm hu

/-- The checks that follow, on a request for this device while the window is open: nonce, key, signature, and the debug lock. -/
theorem requestResult_checks :
    let same := slice q 0x10 16 = (List.range 4).flatMap fun i => leBytes 4 (rd s (MNT_NONCE_NONCE i))
    let known := s.chip.keyHash = some (sha256 (slice q 0x20 64))
    let signed := ecdsaVerify (slice q 0x20 64) (slice q 0x60 64) (q.take 0x20)
    let locked := hasBit (leAt q 4 4) 3 = true ∧ s.chip.debugLock = true
    (¬same → requestResult s q = 3) ∧ (same → ¬known → requestResult s q = 4) ∧
      (same → known → signed = false → requestResult s q = 5) ∧ (same → known → signed = true → locked → requestResult s q = 6) ∧
      (same → known → signed = true → ¬locked → requestResult s q = 0) := by
  extract_lets same known signed locked
  have e : requestResult s q = if ¬same then 3 else if ¬known then 4 else if !signed then 5 else if locked then 6 else 0 := by
    unfold requestResult
    rw [if_neg (by simp [ha, hw]), if_neg (by simp [hs]), if_neg (by simp [hm, hu])]
  rw [e]
  refine ⟨fun h => if_pos h, fun h hk => ?_, fun h hk hsig => ?_, fun h hk hsig hl => ?_, fun h hk hsig hl => ?_⟩
  · simp [h, hk]
  · simp [h, hk, hsig]
  · simp [h, hk, hsig, hl]
  · simp [h, hk, hsig, hl]

end

/-- A refused request is journalled and recorded as an error (R432). -/
theorem doSessionOpen_refused {s : State} {o : Orig} {n : Nat} (hn : origNumber o = some n) (hp : origPresent s.variant o = true)
    (hr : requestResult s (requestBytes s) ≠ 0) : doSessionOpen o s =
    (s |> drawNonce |> wr MNT_STAT_LAST_RESULT (requestResult s (requestBytes s))
      |> journal 8 ([1, n, requestResult s (requestBytes s), 0] ++ leBytes 4 (leAt (requestBytes s) 4 4)
        ++ (sha256 (slice (requestBytes s) 0x20 64)).take 8)
      |> recordError (mntErr 1 n)) := by
  simp only [doSessionOpen, hn, hp, Bool.not_true, Bool.false_eq_true, if_false, if_neg hr]
  rfl

theorem doSessionOpen_granted {s : State} {o : Orig} {n : Nat} (hn : origNumber o = some n) (hp : origPresent s.variant o = true)
    (hr : requestResult s (requestBytes s) = 0) : doSessionOpen o s =
    openSession n (leAt (requestBytes s) 4 4) ((sha256 (slice (requestBytes s) 0x20 64)).take 8)
      (s |> drawNonce |> wr MNT_STAT_LAST_RESULT (requestResult s (requestBytes s))) := by
  simp only [doSessionOpen, hn, hp, Bool.not_true, Bool.false_eq_true, if_false, if_pos hr]

/-- What a granted request leaves before its record is journalled; with DEBUG the record is followed by the fatal error (R434). -/
theorem openSession_eq (n flags : Nat) (tag : List Nat) (s : State) : ∃ v, isSet v MNT_STAT_SESSION = true ∧
    rd v MNT_STAT_ORIG = n % 4 ∧ rd v MNT_STAT_FLAGS = flags % 16 ∧ rd v MNT_EVT_SESSION_OPEN = 1 ∧ v.mnt.keyTag = tag ∧
    openSession n flags tag s = if hasBit flags 3 then mntRecord 1 0 flags v |> wr MNT_STAT_DEBUG 1 |> fatalError (mntErr 4 n)
      else mntRecord 1 0 flags v := by
  refine ⟨_, isSet_of_rd (n := 1) ?_, ?_, ?_, ?_, ?_, rfl⟩
  · simp (disch := decide) only [rd_addTotal, rd_wr_same, rd_wr_other]
    decide
  · simp (disch := decide) only [rd_addTotal, rd_wr_same, rd_wr_other]
    rfl
  · simp (disch := decide) only [rd_addTotal, rd_wr_same, rd_wr_other]
    exact Nat.mod_mod _ 16
  · simp (disch := decide) only [rd_addTotal, rd_wr_same]
    decide
  · rfl

end Sys2Proof.Machine

/-! PROOFS. Flash operations (R433), and O57. -/

namespace Sys2Proof.Machine
open Sys2Proof

/-! ## Who may command the flash -/

section
variable {s : State} {o : Orig} {right op slot arg : Nat} {act : State → State} (hp : origPresent s.variant o = true)
include hp

theorem flashCommand_denied (h : sessionHolder s o = false) :
    flashCommand o right op slot arg act s = deny MNT_FLASH_CMD_ALL.addr s := by simp [flashCommand, hp, h]

theorem flashCommand_busy (h : sessionHolder s o = true) (hb : isSet s MNT_FLASH_STAT_BUSY = true) :
    flashCommand o right op slot arg act s = s := by simp [flashCommand, hp, h, hb]

theorem flashCommand_noRight (h : sessionHolder s o = true) (hb : isSet s MNT_FLASH_STAT_BUSY = false)
    (hr : hasBit (rd s MNT_STAT_FLAGS) right = false) : flashCommand o right op slot arg act s = flashResult op slot arg 1 0 s := by
  simp [flashCommand, hp, h, hb, hr]

/-- The gate of R433, for every flash command. -/
theorem flashCommand_gate (c : Instr) (e : exec c s = .next (flashCommand o right op slot arg act s)) :
    (sessionHolder s o = false → exec c s = .next (deny MNT_FLASH_CMD_ALL.addr s)) ∧
    (sessionHolder s o = true → isSet s MNT_FLASH_STAT_BUSY = true → exec c s = .next s) ∧
    (sessionHolder s o = true → isSet s MNT_FLASH_STAT_BUSY = false → hasBit (rd s MNT_STAT_FLAGS) right = false →
      exec c s = .next (flashResult op slot arg 1 0 s)) :=
  ⟨fun h => e.trans (congrArg _ (flashCommand_denied hp h)), fun h hb => e.trans (congrArg _ (flashCommand_busy hp h hb)),
    fun h hb hr => e.trans (congrArg _ (flashCommand_noRight hp h hb hr))⟩

theorem flashCommand_granted (h : sessionHolder s o = true) (hb : isSet s MNT_FLASH_STAT_BUSY = false)
    (hr : hasBit (rd s MNT_STAT_FLAGS) right = true) : flashCommand o right op slot arg act s = act s := by
  simp [flashCommand, hp, h, hb, hr]

end

/-! ## Results -/

/-- A result is shown in FLASH_STAT with its event, and then journalled. -/
theorem flashResult_eq (op slot arg result cause : Nat) (s : State) : ∃ v, flashResult op slot arg result cause s =
      mntRecord 3 result (op % 8 * 2 ^ 29 + slot % 2 * 2 ^ 28 + arg % 2 ^ 28) v ∧ isSet v MNT_FLASH_STAT_BUSY = false ∧
    rd v MNT_FLASH_STAT_RESULT = result % 256 ∧ rd v MNT_FLASH_STAT_CAUSE = cause % 256 ∧ rd v MNT_EVT_FLASH_DONE = 1 := by
  refine ⟨_, rfl, isSet_of_rd (n := 0) ?_, ?_, ?_, ?_⟩
  · rw [rd_wr_addr (by decide), rd_wr_bits (by decide) (by decide) (by decide), rd_wr_bits (by decide) (by decide) (by decide),
      rd_wr_same (by decide) (by decide)]
    rfl
  · rw [rd_wr_addr (by decide), rd_wr_bits (by decide) (by decide) (by decide), rd_wr_same (by decide) (by decide)]
    rfl
  · rw [rd_wr_addr (by decide), rd_wr_same (by decide) (by decide)]
    rfl
  · rw [rd_wr_same (by decide) (by decide)]
    rfl

/-- A result leaves the originator of the session. -/
theorem rd_flashResult_orig (op slot arg result cause : Nat) (s : State) :
    rd (flashResult op slot arg result cause s) MNT_STAT_ORIG = rd s MNT_STAT_ORIG := by
  unfold flashResult
  rw [rd_mntRecord (by decide) (by decide)]
  simp (disch := decide) only [rd_wr_addr]

theorem isSet_flashStart (op slot arg result cause : Nat) (s : State) :
    isSet (flashStart op slot arg result cause s) MNT_FLASH_STAT_BUSY = true :=
  isSet_of_rd (n := 1) (rd_wr_same (by decide) (by decide))

theorem flashStart_flash (op slot arg result cause : Nat) (s : State) : (flashStart op slot arg result cause s).flash = s.flash := rfl

/-! ## What stands in the flash -/

theorem sget_filter_keys {α : Type} (d : Nat → α) (p : Nat → Bool) (m : Sparse α) (k : Nat) :
    sget d (m.filter fun c => p c.1) k = if p k then sget d m k else d k := by
  induction m with
  | nil => simp [sget]
  | cons c m ih =>
    by_cases hc : p c.1 = true
    · by_cases hk : c.1 = k
      · subst hk; simp [sget, hc]
      · simp [sget, hc, hk, ih]
    · by_cases hk : c.1 = k
      · subst hk; simp [hc, ih]
      · simp [sget, hc, hk, ih]

/-- Erasing a slot: its bytes read 0xFF, and every other byte stands. -/
theorem sget_eraseSlot (slot : Nat) (s : State) (x : Nat) : sget flashDefault (eraseSlot slot s).flash x =
    if x / 0x4000000 = slot then 0xFF else sget flashDefault s.flash x := by
  refine (sget_filter_keys flashDefault (fun k => !(k / 0x4000000 == slot)) s.flash x).trans ?_
  by_cases h : x / 0x4000000 = slot <;> simp [h, flashDefault]

theorem length_leBytes (n v : Nat) : (leBytes n v).length = n := by
  induction n generalizing v with
  | zero => rfl
  | succ n ih => simp [leBytes, ih]

theorem lt_of_mem_leBytes {n v b : Nat} (h : b ∈ leBytes n v) : b < 256 := by
  induction n generalizing v with
  | zero => exact absurd h List.not_mem_nil
  | succ n ih =>
    rcases List.mem_cons.mp h with rfl | h
    · exact Nat.mod_lt _ (by decide)
    · exact ih h

theorem length_bufferBytes (s : State) : (bufferBytes s).length = 4096 := by
  simp only [bufferBytes, List.length_flatMap, length_leBytes, List.map_const', List.sum_replicate, List.length_range, smul_eq_mul]

theorem lt_of_mem_bufferBytes {s : State} {b : Nat} (h : b ∈ bufferBytes s) : b < 256 := by
  obtain ⟨i, -, hb⟩ := List.mem_flatMap.mp h
  exact lt_of_mem_leBytes hb

/-! ## The commands of a session with the right to the flash -/

section
variable {s : State} {o : Orig} (hp : origPresent s.variant o = true) (hh : sessionHolder s o = true)
  (hb : isSet s MNT_FLASH_STAT_BUSY = false)
include hp hh hb

section
variable (hr : hasBit (rd s MNT_STAT_FLAGS) 1 = true) (slot arg : Nat)
include hr

theorem doErase_kept (hk : slotKept s (slot % 2) = true) : doErase o slot s = flashResult 1 (slot % 2) 0 2 0 s := by
  unfold doErase
  rw [flashCommand_granted hp hh hb hr, if_pos hk]

theorem doErase_noFlash (hk : slotKept s (slot % 2) = false) (hs : slotRange s (slot % 2) = none) :
    doErase o slot s = flashStart 1 (slot % 2) 0 3 0 (unverify (slot % 2) s) := by
  unfold doErase
  rw [flashCommand_granted hp hh hb hr]
  simp [hk, hs]

theorem doErase_slot {r : Nat × Nat} (hk : slotKept s (slot % 2) = false) (hs : slotRange s (slot % 2) = some r) :
    doErase o slot s = (s |> unverify (slot % 2) |> eraseSlot (slot % 2) |> flashStart 1 (slot % 2) 0 0 0) := by
  unfold doErase
  rw [flashCommand_granted hp hh hb hr]
  simp [hk, hs]

theorem doProgram_kept (hk : slotKept s (slot % 2) = true) : doProgram o slot arg s = flashResult 2 (slot % 2) arg 2 0 s := by
  unfold doProgram
  rw [flashCommand_granted hp hh hb hr]
  simp [hk]

theorem doProgram_noFlash (hk : slotKept s (slot % 2) = false) (hs : slotRange s (slot % 2) = none) (ha : arg < 0x4000) :
    doProgram o slot arg s = flashStart 2 (slot % 2) arg 3 0 (unverify (slot % 2) s) := by
  unfold doProgram
  rw [flashCommand_granted hp hh hb hr]
  simp [hk, hs, ha]

theorem doProgram_slot {r : Nat × Nat} (hk : slotKept s (slot % 2) = false) (hs : slotRange s (slot % 2) = some r) (ha : arg < 0x4000)
    (hl : arg * 4096 + 4096 ≤ r.2) : doProgram o slot arg s =
      flashStart 2 (slot % 2) arg 0 0
        { unverify (slot % 2) s with flash := memWrite flashDefault s.flash (r.1 + arg * 4096) (bufferBytes s) } := by
  unfold doProgram
  rw [flashCommand_granted hp hh hb hr]
  simp only [hk, hs, decide_eq_false (show ¬ 0x4000 ≤ arg by omega), Bool.or_self, Bool.false_eq_true, if_false,
    if_neg (show ¬ r.2 < arg * 4096 + 4096 by omega)]
  rfl

theorem doVerify_granted : doVerify o slot s = flashStart 3 (slot % 2) 0 (if slotCause s (slot % 2) s.rollback = 0 then 0 else 4)
    (slotCause s (slot % 2) s.rollback) s := by
  unfold doVerify
  rw [flashCommand_granted hp hh hb hr]

/-- RELOAD begins a load in a device that runs and is not safe. -/
theorem doReload_granted (hs : isSafe s = false) (hx : s.ldr.phase = .run) : doReload o s =
    ((if rd s LDR_STAT_OWNER = 4 then discardBank s else s) |> beginLoad true |> flashStart 4 0 0 0 0) := by
  unfold doReload
  rw [flashCommand_granted hp hh hb hr]
  simp [hs, hx]

theorem doReload_refused (h : isSafe s = true ∨ s.ldr.phase ≠ .run) : doReload o s = flashResult 4 0 0 2 0 s := by
  unfold doReload
  rw [flashCommand_granted hp hh hb hr]
  rcases h with h | h <;> simp [h]

end

section
variable (hr : hasBit (rd s MNT_STAT_FLAGS) 2 = true) {arg : Nat}
include hr

theorem doRollback_due (h1 : s.rollback < arg) (h2 : arg ≤ 64) (ha : slotCause s 0 arg = 0) (hB : slotCause s 1 arg = 0) :
    doRollback o arg s = flashStart 5 0 arg 0 0 s := by
  unfold doRollback
  rw [flashCommand_granted hp hh hb hr]
  simp [bothReach, h1, h2, ha, hB]

theorem doRollback_refused (h : arg ≤ s.rollback ∨ 64 < arg ∨ slotCause s 0 arg ≠ 0 ∨ slotCause s 1 arg ≠ 0) :
    doRollback o arg s = flashResult 5 0 arg 5 0 s := by
  unfold doRollback
  rw [flashCommand_granted hp hh hb hr]
  refine if_neg ?_
  simp only [bothReach, Bool.and_eq_true, beq_iff_eq]
  omega

end
end

/-! ## The end of an operation -/

theorem doFlashOperationDone_none {s : State} (f : Bool) (h : s.mnt.op = none) : doFlashOperationDone f s = s := by
  simp [doFlashOperationDone, h]

theorem doFlashOperationDone_loading {s : State} (f : Bool) {x : FlashOp} (h : s.mnt.op = some x) (h4 : x.op = 4)
    (hr : s.ldr.phase ≠ .run) : doFlashOperationDone f s = s := by
  simp [doFlashOperationDone, h, h4, hr]

theorem rd_brokenFlash (s : State) (r : RF) : rd (brokenFlash s) r = rd s r :=
  have h := brokenFlash_ev rfl (ev_refl [.rollback, .flash, .freeCount] s)
  rd_regs (h.same (x := .regs) (by decide)) h.chip

/-- The state that the end of an operation with a result reports on: nothing in progress, and the counter raised if ROLLBACK has
succeeded. -/
def operationEnded (x : FlashOp) (result : Nat) (s : State) : State :=
  let s := { s with mnt := { s.mnt with
    op := none, verified := if x.op = 3 ∧ result = 0 then withBit s.mnt.verified x.slot else s.mnt.verified } }
  if x.op = 5 ∧ result = 0 then { s with rollback := max s.rollback x.arg } else s

theorem operationEnded_op (x : FlashOp) (result : Nat) (s : State) : (operationEnded x result s).mnt.op = none := by
  unfold operationEnded; dsimp only; split <;> rfl

theorem operationEnded_flash (x : FlashOp) (result : Nat) (s : State) : (operationEnded x result s).flash = s.flash := by
  unfold operationEnded; dsimp only; split <;> rfl

theorem operationEnded_rollback (x : FlashOp) (result : Nat) (s : State) : (operationEnded x result s).rollback =
    if x.op = 5 ∧ result = 0 then max s.rollback x.arg else s.rollback := by
  unfold operationEnded; dsimp only; split <;> rfl

theorem rd_operationEnded (x : FlashOp) (result : Nat) (s : State) (r : RF) : rd (operationEnded x result s) r = rd s r := by
  unfold operationEnded; dsimp only; split <;> rfl

/-- FLASH_OPERATION_DONE: the result kept, or 3 if the flash fails, and with 3 its error. -/
theorem doFlashOperationDone_ends {s : State} {x : FlashOp} (h : s.mnt.op = some x) (hr : x.op ≠ 4 ∨ s.ldr.phase = .run) (f : Bool) :
    doFlashOperationDone f s =
      let result := if f then 3 else x.result
      let t := flashResult x.op x.slot x.arg result x.cause (operationEnded x result (if f then brokenFlash s else s))
      if result = 3 then recordError (mntErr 2 (rd s MNT_STAT_ORIG)) t else t := by
  have horig : rd (if f then brokenFlash s else s) MNT_STAT_ORIG = rd s MNT_STAT_ORIG := by
    split
    · exact rd_brokenFlash s _
    · rfl
  extract_lets result t
  have ht : rd t MNT_STAT_ORIG = rd s MNT_STAT_ORIG := by simp only [t, rd_flashResult_orig, rd_operationEnded, horig]
  have hx : ¬(x.op = 4 ∧ s.ldr.phase ≠ .run) := by tauto
  rw [← ht]
  simp only [doFlashOperationDone, h, if_neg hx]
  simp only [t, result, operationEnded]

section
variable {s : State} {x : FlashOp} (h : s.mnt.op = some x) (hr : x.op ≠ 4 ∨ s.ldr.phase = .run)
include h hr

theorem doFlashOperationDone_kept (h3 : x.result ≠ 3) : doFlashOperationDone false s =
    flashResult x.op x.slot x.arg x.result x.cause (operationEnded x x.result s) := by
  simp [doFlashOperationDone_ends h hr, h3]

theorem doFlashOperationDone_error (h3 : x.result = 3) : doFlashOperationDone false s =
    recordError (mntErr 2 (rd s MNT_STAT_ORIG)) (flashResult x.op x.slot x.arg 3 x.cause (operationEnded x x.result s)) := by
  simp [doFlashOperationDone_ends h hr, h3]

theorem doFlashOperationDone_fails : doFlashOperationDone true s =
    recordError (mntErr 2 (rd s MNT_STAT_ORIG)) (flashResult x.op x.slot x.arg 3 x.cause (operationEnded x 3 (brokenFlash s))) := by
  simp [doFlashOperationDone_ends h hr]

end

/-! ## O57 -/

theorem next_congr {s t : State} (h : s = t) : (Host.Outcome.next s : Host.Outcome State Fault Refusal) = .next t := h ▸ rfl

/-- ERASE of a slot with flash that may be erased (R433). -/
theorem erase_slot {s : State} {o : Orig} {slot : Nat} {r : Nat × Nat} (hp : origPresent s.variant o = true)
    (hh : sessionHolder s o = true) (hb : isSet s MNT_FLASH_STAT_BUSY = false) (hr : hasBit (rd s MNT_STAT_FLAGS) 1 = true)
    (hk : slotKept s (slot % 2) = false) (hs : slotRange s (slot % 2) = some r) :
    ∃ t, exec (.erase o slot) s = .next t ∧ isSet t MNT_FLASH_STAT_BUSY = true ∧ t.mnt.op = some ⟨1, slot % 2, 0, 0, 0⟩ ∧
      (∀ x, x / 0x4000000 = slot % 2 → sget flashDefault t.flash x = 0xFF) ∧
      ∀ x, x / 0x4000000 ≠ slot % 2 → sget flashDefault t.flash x = sget flashDefault s.flash x :=
  ⟨_, next_congr (doErase_slot hp hh hb hr slot hk hs), isSet_flashStart _ _ _ _ _ _, rfl,
    fun x hx => (sget_eraseSlot _ _ x).trans (if_pos hx), fun x hx => (sget_eraseSlot _ _ x).trans (if_neg hx)⟩

/-- PROGRAM of a block of a slot with flash that may be written (R433). -/
theorem program_slot {s : State} {o : Orig} {slot arg : Nat} {r : Nat × Nat} (hp : origPresent s.variant o = true)
    (hh : sessionHolder s o = true) (hb : isSet s MNT_FLASH_STAT_BUSY = false) (hr : hasBit (rd s MNT_STAT_FLAGS) 1 = true)
    (hk : slotKept s (slot % 2) = false) (hs : slotRange s (slot % 2) = some r) (ha : arg < 0x4000) (hl : arg * 4096 + 4096 ≤ r.2) :
    ∃ t, exec (.program o slot arg) s = .next t ∧ isSet t MNT_FLASH_STAT_BUSY = true ∧ t.mnt.op = some ⟨2, slot % 2, arg, 0, 0⟩ ∧
      memRead flashDefault t.flash (r.1 + arg * 4096) 4096 = bufferBytes s ∧
      ∀ x, x < r.1 + arg * 4096 ∨ r.1 + arg * 4096 + 4096 ≤ x → sget flashDefault t.flash x = sget flashDefault s.flash x := by
  have hlen := length_bufferBytes s
  have hread := memRead_memWrite_at flashDefault s.flash (r.1 + arg * 4096) (bufferBytes s) (fun b => lt_of_mem_bufferBytes) 4096 0
    (by omega)
  rw [Nat.add_zero, List.drop_zero, List.take_of_length_le hlen.le] at hread
  refine ⟨_, next_congr (doProgram_slot hp hh hb hr slot arg hk hs ha hl), isSet_flashStart _ _ _ _ _ _, rfl, ?_,
    fun x hx => ?_⟩
  · simpa only [flashStart_flash] using hread
  · simp only [flashStart_flash]
    exact sget_memWrite_other flashDefault (bufferBytes s) s.flash _ x (by rwa [hlen])

/-- Settles O57, command by command. -/
theorem parkSessionsAndFlash : Obligations.ParkSessionsAndFlash := by
  refine ⟨fun s o v => ?_, fun s => ?_, fun s o slot arg hp => ?_⟩
  · -- Park mode (R430).
    extract_lets w leaves closed
    refine ⟨fun h => ⟨next_congr (doPark_idle v h), next_congr (doParkCancel_idle v h)⟩, ?_,
      fun hp hd hs => ⟨fun hc => ?_, fun hc => ?_⟩, crossingsEmpty_iff, fun h => next_congr (doParkComplete_idle h),
      fun hp hw => ?_, fun h => next_congr (if_neg ?_)⟩
    · rintro rfl hd
      have hpark := doPark_asked v hd
      have hcancel := doParkCancel_asked v hd
      refine ⟨fun h => next_congr (hpark.trans (if_pos (by simpa using h))), fun hs hp hses => ?_, fun hs hp hses => ?_,
        fun hp => ?_, fun hp => ?_⟩
      · exact next_congr (by simp only [hpark, hs, hp, hses, Bool.or_self, Bool.false_eq_true, if_false, if_true]; rfl)
      · exact next_congr (by simp only [hpark, hs, hp, hses, Bool.or_self, Bool.false_eq_true, if_false]; rfl)
      · obtain ⟨u, hu, hrest⟩ := leavePark_leaves (wr_ev rfl (ev_refl [.regs] s) MNT_PARK_WAKE_CMP (bit (hasBit v 1))) 4
        exact ⟨u, next_congr (hcancel.trans ((if_pos hp).trans hu)), hrest⟩
      · exact next_congr (hcancel.trans (if_neg (by simp [hp])))
    · exact next_congr ((doParkComplete_entered hp hd hs).trans (if_neg (Bool.not_eq_true _ ▸ hc)))
    · obtain ⟨hpk, h21, h22, hrun⟩ := stopIslands_parked (entryClosed s)
      have hv : (entryClosed s).variant = s.variant := congrArg Chip.variant (entryClosed_chip s)
      exact ⟨_, next_congr ((doParkComplete_entered hp hd hs).trans (if_pos hc)), hpk, h21, h22, hv ▸ hrun⟩
    · obtain ⟨u, hu, hrest⟩ := leavePark_leaves (ev_refl [.regs] s) s.mnt.wake
      exact ⟨u, next_congr ((if_pos (by simp [hp, hw])).trans hu), hrest⟩
    · rcases h with h | h <;> simp [h]
  · -- The window and the session (R431, R432).
    refine ⟨fun h => ⟨next_congr (doPresencePulse_unarmed h), next_congr (doPresenceHeld_unarmed h)⟩,
      fun h => ⟨next_congr (doPresencePulse_armed h), next_congr (doPresenceHeld_armed h)⟩,
      fun i hi => rd_drawNonce s hi, fun h => next_congr (doWindowExpire_shut h),
      fun h => next_congr (doWindowExpire_open h), fun o h => next_congr (doSessionClose_other h),
      fun o h => next_congr (doSessionClose_holder h), endSession_without, endSession_of_session, ?_⟩
    extract_lets q r tag u
    refine ⟨requestResult_outside, fun ha hw => ⟨requestResult_inSession ha hw, fun hs => ⟨requestResult_malformed ha hw hs,
      requestResult_checks ha hw hs⟩⟩, fun o n hn hp => ⟨fun hr => next_congr (doSessionOpen_refused hn hp hr), fun hr => ?_⟩⟩
    obtain ⟨v, hses, horig, hflags, hevt, htag, hv⟩ := openSession_eq n (leAt q 4 4) tag u
    exact ⟨v, hses, horig, hflags, hevt, htag, next_congr ((doSessionOpen_granted hn hp hr).trans hv)⟩
  · -- Flash operations (R433).
    extract_lets sl gate
    refine ⟨⟨flashCommand_gate hp _ (by rw [exec_erase, execErase, doErase]),
        flashCommand_gate hp _ (by rw [exec_program, execProgram, doProgram]),
        flashCommand_gate hp _ (by rw [exec_verify, execVerify, doVerify]),
        flashCommand_gate hp _ (by rw [exec_reload, execReload, doReload]),
        flashCommand_gate hp _ (by rw [exec_rollback, execRollback, doRollback])⟩,
      fun op res cause => flashResult_eq op sl arg res cause s, fun hh hb hr => ?_, fun hh hb hr => ?_,
      fun f h => next_congr (doFlashOperationDone_none f h),
      fun f x h h4 hr => next_congr (doFlashOperationDone_loading f h h4 hr), fun x h hr => ⟨?_, ?_⟩⟩
    · refine ⟨fun hk => ⟨next_congr (doErase_kept hp hh hb hr slot hk),
          next_congr (doProgram_kept hp hh hb hr slot arg hk)⟩,
        fun hk hs => ⟨next_congr (doErase_noFlash hp hh hb hr slot hk hs),
          fun ha => next_congr (doProgram_noFlash hp hh hb hr slot arg hk hs ha)⟩,
        fun r hk hs => ⟨erase_slot hp hh hb hr hk hs, program_slot hp hh hb hr hk hs⟩, ?_,
        fun hs hx => next_congr (doReload_granted hp hh hb hr hs hx),
        fun h => next_congr (doReload_refused hp hh hb hr h)⟩
      rintro c rfl
      exact ⟨next_congr (doVerify_granted hp hh hb hr slot), rfl⟩
    · exact ⟨fun h1 h2 ha hB => next_congr (doRollback_due hp hh hb hr h1 h2 ha hB),
        fun h => next_congr (doRollback_refused hp hh hb hr h)⟩
    · exact ⟨operationEnded x x.result s, operationEnded_op _ _ _, operationEnded_flash _ _ _, operationEnded_rollback _ _ _,
        fun h3 => next_congr (doFlashOperationDone_kept h hr h3), fun h3 => next_congr (doFlashOperationDone_error h hr h3)⟩
    · refine ⟨operationEnded x 3 (brokenFlash s), operationEnded_op _ _ _, ?_, next_congr (doFlashOperationDone_fails h hr)⟩
      rw [operationEnded_rollback, if_neg (by simp)]

end Sys2Proof.Machine

/-! PROOFS. A read port and a target window belong to one originator (R30, R275, R288). -/

namespace Sys2Proof.Machine
open Sys2Proof

/-- A read of what belongs to another originator answers 0 and misses the map (R30). -/
theorem guardRead_other {s : State} {o owner : Orig} (hp : origPresent s.variant o = true) (h : o ≠ owner) (a : Nat)
    (act : State → State) : guardRead o owner a act s = (s |> mapMiss a |> emit (.readData o a 0)) := by
  simp [guardRead, hp, h]

/-- A write to what belongs to another originator is discarded and misses the map (R30). -/
theorem guardOrig_other {s : State} {o owner : Orig} (hp : origPresent s.variant o = true) (hw : writes o = true) (h : o ≠ owner)
    (a : Nat) (act : State → State) : guardOrig o owner a act s = mapMiss a s := by
  simp [guardOrig, hp, hw, h]

/-- Settles O6: every command to a port or a window goes through one of the two guards. -/
theorem onlyTheOwnerReaches : Obligations.OnlyTheOwnerReaches := by
  refine fun s o hp => ⟨fun r n bad hr ho => ⟨?_, ?_, fun hw v => ?_⟩, fun t w v src ht hw ho => ⟨?_, fun hwr => ⟨?_, ?_, ?_, ?_⟩⟩⟩
  · rw [exec_headerRead, execHeaderRead, if_pos hr, doHeaderRead, guardRead_other hp ho]
  · rw [exec_dataRead, execDataRead, if_pos hr, doDataRead, guardRead_other hp ho]
  · rw [exec_release, execRelease, if_pos hr, doRelease, guardOrig_other hp hw ho]
  · rw [exec_claim, execClaim, if_pos ht, doClaim, guardRead_other hp ho]
  · rw [exec_complete, execComplete, if_pos ht, doComplete, guardOrig_other hp hwr ho]
  · rw [exec_enableWrite, execEnableWrite, if_pos ⟨ht, hw⟩, doEnableWrite, guardOrig_other hp hwr ho]
  · rw [exec_gdis, execGdis, if_pos ht, doGdis, guardOrig_other hp hwr ho]
  · rw [exec_split, execSplit, if_pos ht, doSplit, guardOrig_other hp hwr ho]

end Sys2Proof.Machine

/-! PROOFS. The state that an error of fatal class leaves (R304, R427, R428). -/

namespace Sys2Proof.Machine
open Sys2Proof

/-- Every register other than MNT_SAFE. -/
def notSafeWord (a : Nat) : Prop := a ≠ 0xD20030

theorem isSafe_congr {s t : State} (h : RegsKept notSafeWord s t) : isSafe t = isSafe s := by
  rw [isSafe, isSet, h.rd (fun k => k rfl)]
  rfl

theorem RegsKept.wrNotSafe {s t : State} (h : RegsKept notSafeWord s t) {r : RF} {v : Nat}
    (hr : r.addr ≠ 0xD20030 := by dsimp only; omega) : RegsKept notSafeWord s (Machine.wr r v t) := h.wr hr

theorem RegsKept.foldl_mem {P : Nat → Prop} {α : Type} {f : State → α → State} {l : List α}
    (hf : ∀ s, ∀ x ∈ l, RegsKept P s (f s x)) (s : State) : RegsKept P s (l.foldl f s) :=
  List.foldlRecOn l f (motive := RegsKept P s) (.refl P s) fun t ht x hx => ht.trans (hf t x hx)

/-! ## MNT_SAFE stands while the frames are given up and the outputs go inactive -/

section
variable (p : Nat) (s : State)

theorem setHostPort_kept (P : Nat → Prop) (x : HostPortSt) : RegsKept P s (setHostPort p x s) := .of_eq rfl rfl

theorem setChan_kept (P : Nat → Prop) (c : Nat) (x : ChanSt) : RegsKept P s (setChan c x s) := .of_eq rfl rfl

theorem setLevelBytes_kept (n : Nat) : RegsKept notSafeWord s (setLevelBytes p n s) := by
  unfold setLevelBytes
  extract_lets old hwm lwm s1 s2
  have k1 : RegsKept notSafeWord s s1 := (RegsKept.refl _ s).wrNotSafe.wrNotSafe
  have k2 : RegsKept notSafeWord s s2 := by
    simp only [s2]
    split
    · exact k1.wrNotSafe.wrNotSafe.trans (setHostPort_kept p _ _ _)
    · exact k1
  split
  · exact k2.wrNotSafe.wrNotSafe.trans (setHostPort_kept p _ _ _)
  · exact k2

theorem levelDown_kept (n : Nat) : RegsKept notSafeWord s (levelDown p n s) := by
  unfold levelDown
  split
  · exact .refl _ s
  · exact setLevelBytes_kept p s _

theorem endReplay_kept (n : Nat) : RegsKept notSafeWord s (endReplay p n s) :=
  (setHostPort_kept p s _ _).wrNotSafe.wrNotSafe.wrNotSafe

theorem emit_kept (P : Nat → Prop) (e : Emit) : RegsKept P s (emit e s) := .of_eq rfl rfl

theorem releaseReads_kept (P : Nat → Prop) : RegsKept P s (releaseReads p s) := by
  unfold releaseReads
  extract_lets h n
  split
  · exact .refl _ s
  · exact (setHostPort_kept p s P _).trans (RegsKept.foldl (fun t r => emit_kept t P _) _ _)

theorem drivePoc_kept (P : Nat → Prop) (on : Bool) : RegsKept P s (drivePoc p on s) := .of_eq rfl rfl

theorem powerOff_kept (hp : p < 16) (keep : Bool) : RegsKept notSafeWord s (powerOff p keep s) := by
  have k : RegsKept notSafeWord s (s |> wr (PWR_P_STAT_STATE p) 0 |> wr (PWR_P_STAT_PG p) 0 |> drivePoc p false) :=
    (RegsKept.refl _ s).wrNotSafe.wrNotSafe.trans (drivePoc_kept p _ _ _)
  unfold powerOff
  extract_lets u
  split
  · exact k
  · exact k.wrNotSafe

/-- A channel whose frames are given up without a record (R428). -/
theorem scrapFrames_false_kept (c : Nat) : RegsKept notSafeWord s (scrapFrames c false s) := by
  unfold scrapFrames
  extract_lets x p h s1 take keep late x1 s2 s3 s4
  have k1 : RegsKept notSafeWord s s1 := levelDown_kept p s _
  have k3 : RegsKept notSafeWord s s3 := (k1.trans (setChan_kept s1 _ _ _)).trans (setHostPort_kept p s2 _ _)
  have hl : late = [] := by simp [late]
  have k4 : RegsKept notSafeWord s s4 := by simpa only [s4, hl, List.foldl_nil] using k3
  refine RegsKept.trans ?_ (releaseReads_kept p _ _)
  split
  · exact k4.trans (endReplay_kept p s4 3)
  · exact k4

end

section
variable (s : State)

theorem flushFrames_kept : RegsKept notSafeWord s (flushFrames s) := by
  unfold flushFrames
  extract_lets s1 s2 s3
  have k1 : RegsKept notSafeWord s s1 :=
    (RegsKept.refl _ s).wrNotSafe.wrNotSafe
  have k2 : RegsKept notSafeWord s1 s2 := by
    refine RegsKept.foldl (fun t c => ?_) _ _
    split
    · exact .refl _ t
    · exact scrapFrames_false_kept t c
  have k3 : RegsKept notSafeWord s2 s3 := by
    refine RegsKept.foldl (fun t c => ?_) _ _
    exact setChan_kept t _ _ _
  have k := (k1.trans k2).trans k3
  clear_value s3
  exact kept_eq k rfl rfl

theorem releasePower_kept : RegsKept notSafeWord s (releasePower s) :=
  .foldl_mem (fun t p hp => powerOff_kept p t (List.mem_range.mp (List.mem_filter.mp hp).1) false) s

theorem quietOutputs_kept : RegsKept notSafeWord s (quietOutputs s) := by
  have k : RegsKept notSafeWord s { s with pins := { s.pins with pwm := 0, fold := 0 }, pwms := [], folds := [] } := .of_eq rfl rfl
  exact k.wrNotSafe.wrNotSafe

theorem driveFence_kept (low : Bool) : RegsKept notSafeWord s (driveFence low s) := by
  have k : RegsKept notSafeWord s { s with pins := { s.pins with fenceLow := low } } := .of_eq rfl rfl
  exact k.wrNotSafe.trans (emit_kept _ _ _)

end

/-! ## The outputs of the safe state -/

theorem flushFrames_frames (s : State) : (flushFrames s).frames = [] ∧ (flushFrames s).running = [] := ⟨rfl, rfl⟩

theorem powerOff_safeN (p : Nat) (keep : Bool) (s : State) : (powerOff p keep s).pins.safeN = s.pins.safeN := by
  unfold powerOff
  extract_lets u
  split <;> rfl

theorem releasePower_safeN (s : State) : (releasePower s).pins.safeN = s.pins.safeN :=
  List.foldlRecOn _ _ (motive := fun t : State => t.pins.safeN = s.pins.safeN) rfl
    fun t ht p _ => (powerOff_safeN p false t).trans ht

theorem quietOutputs_safeN (s : State) : (quietOutputs s).pins.safeN = s.pins.safeN := rfl

theorem driveFence_safeN (low : Bool) (s : State) : (driveFence low s).pins.safeN = s.pins.safeN := rfl

/-- All that the safe state switches off, once MNT_SAFE and the pins say that it is entered (R428). -/
def switchOff (s : State) : State :=
  s |> addTotal 3 1 |> setPin pinSafe 0 0 |> flushFrames |> releasePower |> quietOutputs |> driveFence false

theorem switchOff_kept (s : State) : RegsKept notSafeWord s (switchOff s) := by
  have k : RegsKept notSafeWord s (s |> addTotal 3 1 |> setPin pinSafe 0 0) := .of_eq rfl rfl
  exact (((k.trans (flushFrames_kept _)).trans (releasePower_kept _)).trans (quietOutputs_kept _)).trans (driveFence_kept _ false)

theorem switchOff_inactive (s : State) : (switchOff s).pins.safeN = s.pins.safeN ∧ (switchOff s).frames = [] ∧
    (switchOff s).running = [] ∧ (switchOff s).pins.pwm = 0 := by
  let u := s |> addTotal 3 1 |> setPin pinSafe 0 0
  have hpins : (flushFrames u).pins = u.pins := (flushFrames_ev rfl (ev_refl [.regs, .queues, .readPorts, .hostPorts, .svcStats, .jnl,
    .frames, .running, .syncs, .outs, .txs, .chans, .outFlows, .rly, .out] u)).same (x := .pins) (by decide)
  have hoff : Evolves [.pins, .regs, .pwms, .folds, .out] (flushFrames u) (switchOff s) :=
    driveFence_ev rfl (quietOutputs_ev rfl (releasePower_ev rfl (ev_refl _ _))) false
  obtain ⟨hf, hr⟩ := flushFrames_frames u
  refine ⟨?_, ?_, ?_, rfl⟩
  · calc (switchOff s).pins.safeN = (quietOutputs (releasePower (flushFrames u))).pins.safeN := driveFence_safeN false _
      _ = (flushFrames u).pins.safeN := (quietOutputs_safeN _).trans (releasePower_safeN _)
      _ = s.pins.safeN := congrArg Pins.safeN hpins
  · exact (hoff.same (x := .frames) (by decide)).trans hf
  · exact (hoff.same (x := .running) (by decide)).trans hr

/-! ## Entering the safe state -/

theorem enterSafe_of_safe {s : State} (h : isSafe s = true) (unit code info : Nat) : enterSafe unit code info s = s := if_pos h

theorem isSafe_pins (s : State) (p : Pins) : isSafe { s with pins := p } = isSafe s := rfl

/-- The safe state is entered once: MNT_SAFE and the pins, all that is switched off, and a record. -/
theorem enterSafe_enters {s : State} (h : isSafe s = false) (unit code info : Nat) : ∃ (u : State) (bs : List Nat),
    enterSafe unit code info s = journal 9 bs (switchOff u) ∧ isSafe u = true ∧ u.pins.safeN = false := by
  let v := s |> endSession |> wr MNT_SAFE_UNIT unit |> wr MNT_SAFE_CODE code |> wr MNT_SAFE_SAFE 1
  have hv : isSafe v = true := isSet_of_rd (n := 1) (rd_wr_same (by decide) (by decide))
  refine ⟨{ v with pins := { v.pins with safeN := false, intLow := true, gpio := 0 } }, _, if_neg (by simp [h]), ?_, rfl⟩
  exact (isSafe_pins v _).trans hv

theorem isSafe_journal (t : Nat) (bs : List Nat) (s : State) : isSafe (journal t bs s) = isSafe s := by
  rw [isSafe, isSet, (journal_kept t bs s).rd (not_isJnl (by decide) (by decide))]
  rfl

/-- Entering the safe state from outside it (R428). -/
theorem enterSafe_inactive {s : State} (h : isSafe s = false) (unit code info : Nat) :
    isSafe (enterSafe unit code info s) = true ∧ (enterSafe unit code info s).pins.safeN = false ∧
      (enterSafe unit code info s).frames = [] ∧ (enterSafe unit code info s).running = [] ∧
      (enterSafe unit code info s).pins.pwm = 0 := by
  obtain ⟨u, bs, e, hu, hsafeN⟩ := enterSafe_enters h unit code info
  obtain ⟨hn, hf, hr, hp⟩ := switchOff_inactive u
  have hj := journal_ev rfl (ev_refl [.regs, .queues, .readPorts, .svcStats, .jnl, .jmem] (switchOff u)) 9 bs
  have hpins : (journal 9 bs (switchOff u)).pins = (switchOff u).pins := hj.same (x := .pins) (by decide)
  rw [e]
  refine ⟨?_, ?_, (hj.same (x := .frames) (by decide)).trans hf, (hj.same (x := .running) (by decide)).trans hr, ?_⟩
  · rw [isSafe_journal, isSafe_congr (switchOff_kept u), hu]
  · rw [hpins, hn, hsafeN]
  · rw [hpins, hp]

theorem isSafe_fatalError (e : ErrInfo) (s : State) : isSafe (fatalError e s) = true := by
  cases h : isSafe (logError true e s) with
  | true => rw [fatalError, enterSafe_of_safe h, h]
  | false => exact (enterSafe_inactive h _ _ _).1

end Sys2Proof.Machine

/-! PROOFS. Clock islands, crossings and service-core pairs (R20 to R25, R457). -/

namespace Sys2Proof.Machine
open Sys2Proof

/-! ## Clock loss (R20) -/

section
variable {s : State} {i : Nat} (hi : i < 40) (hp : islPresent s.variant i = true) (hb : isSet s (fallbackBit i) = false)
include hi hp hb

/-- A present island that is not in fallback goes to its ring oscillator, and what it is decides the rest. -/
theorem execPllLossOfLock_eq : execPllLossOfLock i s = .next (let u := wr (fallbackBit i) 1 s
    if i = islTIME then fatalError (tsuErr 4 0) u
    else if 22 ≤ i ∧ i < 28 then u |> recordError (glbErr 3 i 0) |> wearSignal 0 (i - 22) 0 0
    else u |> recordError (glbErr 3 i 0) |> wearSignal 5 i 0 0) := by
  rw [execPllLossOfLock, if_pos ⟨hi, hp⟩, doPllLossOfLock, if_neg (by simp [hb])]

theorem execPllLossOfLock_time (h : i = islTIME) :
    execPllLossOfLock i s = .next (s |> wr (fallbackBit i) 1 |> fatalError (tsuErr 4 0)) := by
  rw [execPllLossOfLock_eq hi hp hb]
  exact congrArg _ (if_pos h)

theorem execPllLossOfLock_island (h : i ≠ islTIME) (hs : ¬(22 ≤ i ∧ i < 28)) :
    execPllLossOfLock i s = .next (s |> wr (fallbackBit i) 1 |> recordError (glbErr 3 i 0) |> wearSignal 5 i 0 0) := by
  rw [execPllLossOfLock_eq hi hp hb]
  exact congrArg _ ((if_neg h).trans (if_neg hs))

theorem execPllLossOfLock_slice (hs : 22 ≤ i ∧ i < 28) :
    execPllLossOfLock i s = .next (s |> wr (fallbackBit i) 1 |> recordError (glbErr 3 i 0) |> wearSignal 0 (i - 22) 0 0) := by
  rw [execPllLossOfLock_eq hi hp hb]
  exact congrArg _ ((if_neg (by unfold islTIME; omega)).trans (if_pos hs))

end

/-! ## Crossings (R21, R22) -/

theorem execCrossingTimeout_eq {s : State} {src dst : Nat} (hs : src < 40) (hd : dst < 40) (hne : src ≠ dst)
    (hps : islPresent s.variant src = true) (hpd : islPresent s.variant dst = true) (pair : Nat) (lost : List (Nat × Nat)) :
    execCrossingTimeout src dst pair lost s = .next (doCrossingTimeout src dst pair lost s) := by
  rw [execCrossingTimeout, if_pos ⟨hs, hd, hne, hps, hpd⟩]

/-! ## Service-core pairs (R25) -/

/-- What follows the mark of a pair that has failed. -/
theorem execLockstepMismatch_eq {s : State} {p : Nat} (hp : p < 3) (hf : hasBit (rd s SVC_STAT_FAILED) p = false) :
    execLockstepMismatch p s = .next (let u := wr SVC_STAT_FAILED (withBit (rd s SVC_STAT_FAILED) p) s
      if p ≠ rd u SVC_STAT_PAIR_A ∧ p ≠ rd u SVC_STAT_PAIR_B then wr SVC_EVT_PAIR_FAIL 1 u
      else if (reservePair u).isNone || svcStopped u && decide (1 < popCount 3 (rd u SVC_STAT_FAILED)) then
        fatalError ((svcErr 2 p).setting SVC_EVT_PAIR_FAIL) u
      else recordError ((svcErr 1 p).setting SVC_EVT_PAIR_FAIL) u) := by
  rw [execLockstepMismatch, if_pos hp, doLockstepMismatch, if_neg (by simp [hf])]

/-- A takeover while a pair has stopped: the stopped role, that of pair A first, goes to the reserve pair (R25). -/
theorem doReservePairTakeover_eq {s : State} {r : Nat} (hr : reservePair s = some r) (hs : isSafe s = false)
    (hst : svcStopped s = true) : doReservePairTakeover s =
    let a := stoppedA s
    let old := if a then rd s SVC_STAT_PAIR_A else rd s SVC_STAT_PAIR_B
    doHeartbeatSend s |> (if a then wr SVC_STAT_PAIR_A r else wr SVC_STAT_PAIR_B r) |> resumeServices a |> wr SVC_EVT_TAKEOVER 1
      |> finishRepl ⟨4, old, 0, old, r, 0⟩ := by
  simp only [doReservePairTakeover, hr, hs, hst, Bool.not_true, Bool.or_self, Bool.false_eq_true, if_false]

/-- A checkpoint takes the values of each pair that still serves (R25). -/
theorem doCheckpointWrite_eq (s : State) : ∃ x, doCheckpointWrite s = { s with checkpoint := x, chkAt := upNs s } ∧
    x.loops = (if stoppedA s then s.checkpoint.loops else s.loops) ∧
    (x.candSince, x.modeCand, x.modeRun) = (if stoppedB s then (s.checkpoint.candSince, s.checkpoint.modeCand, s.checkpoint.modeRun)
      else (s.ldr.candSince, s.ldr.modeCand, s.ldr.modeRun)) := by
  refine ⟨_, rfl, ?_, ?_⟩
  · cases stoppedA s <;> cases stoppedB s <;> rfl
  · cases stoppedA s <;> cases stoppedB s <;> rfl

/-! ## The IDCODE (R457) -/

theorem idcode_eq (s : State) : idcode s = fld (reg s 0x4) 11 8 * 2 ^ 28 + fld (reg s 0x0) 15 0 * 2 ^ 12 + 0x2E9 * 2 + 1 := by
  simp only [idcode, fld, Nat.shiftRight_eq_div_pow, Nat.pow_zero, Nat.div_one]

theorem idcode_fields (s : State) : idcode s % 2 = 1 ∧ idcode s / 2 % 2 ^ 11 = 0x2E9 ∧
    idcode s / 2 ^ 12 % 2 ^ 16 = fld (reg s 0x0) 15 0 ∧ idcode s / 2 ^ 28 = fld (reg s 0x4) 11 8 ∧ idcode s < 2 ^ 32 := by
  have hver : fld (reg s 0x4) 11 8 < 2 ^ 4 := fld_lt _ _ _
  have hpart : fld (reg s 0x0) 15 0 < 2 ^ 16 := fld_lt _ _ _
  rw [idcode_eq]
  refine ⟨?_, ?_, ?_, ?_, ?_⟩ <;> omega

/-! ## O33 -/

/-- Settles O33, command by command, with what a fatal error leaves. -/
theorem islandsAndServicePairs : Obligations.IslandsAndServicePairs := by
  refine ⟨fun s i hi hp hb => ⟨execPllLossOfLock_time hi hp hb, execPllLossOfLock_island hi hp hb,
      fun h1 h2 => execPllLossOfLock_slice hi hp hb ⟨h1, h2⟩⟩,
    fun s src dst pair lost hs hd hne hps hpd => ?_, fun s p hp hf => ?_, fun s r hr hs => ?_,
    fun s => ?_, fun s e => ⟨isSafe_fatalError e s, fun h => (enterSafe_inactive h _ _ _).2⟩, idcode_fields⟩
  · rw [exec_crossingTimeout, execCrossingTimeout_eq hs hd hne hps hpd, doCrossingTimeout]
    exact ⟨fun h => congrArg _ (if_pos h), fun h => congrArg _ (if_neg (by simp [h]))⟩
  · rw [exec_lockstepMismatch, execLockstepMismatch_eq hp hf]
    extract_lets u
    refine ⟨fun ha hb => congrArg _ (if_pos ⟨ha, hb⟩), fun hserves => ?_⟩
    rw [if_neg (by tauto)]
    refine ⟨fun hn => congrArg _ (if_pos (by simp [hn])), fun hn hc => congrArg _ (if_neg ?_)⟩
    have hsome : (reservePair u).isNone = false := by simpa [Option.isNone_eq_false_iff, Option.isSome_iff_ne_none] using hn
    simp [hsome, hc]
  · rw [exec_reservePairTakeover, execReservePairTakeover]
    refine ⟨fun ha => ?_, fun ha hb => ?_⟩
    · rw [doReservePairTakeover_eq hr hs (by simp [svcStopped, ha]), ha]
      rfl
    · rw [doReservePairTakeover_eq hr hs (by simp [svcStopped, hb]), ha]
      rfl
  · obtain ⟨x, hx, hrest⟩ := doCheckpointWrite_eq s
    exact ⟨x, congrArg _ hx, hrest⟩

end Sys2Proof.Machine

/-! PROOFS. What every command and every step keep (R62, R78, R307, R309, R445, R473). -/

namespace Sys2Proof.Machine
open Sys2Proof

/-! ## Every command answers a next state within its footprint -/

theorem exec_next (c : Instr) (s : State) : ∃ t, exec c s = .next t := by
  cases c <;> exact ⟨_, rfl⟩

/-- What a command answers evolves from the state within the fields that `touches` names for it. -/
theorem exec_evolves {c : Instr} {s t : State} (e : exec c s = .next t) : Evolves (touches c) s t := by
  cases c with
  | resetRelease maintHigh taddr => exact execResetRelease_ev rfl (ev_refl _ _) maintHigh taddr e
  | resetNAssert vddLow => exact execResetNAssert_ev rfl (ev_refl _ _) vddLow e
  | crystalStable => exact execCrystalStable_ev rfl (ev_refl _ _) e
  | imageHeaderRead => exact execImageHeaderRead_ev rfl (ev_refl _ _) e
  | imageVerified => exact execImageVerified_ev rfl (ev_refl _ _) e
  | recordsCheck => exact execRecordsCheck_ev rfl (ev_refl _ _) e
  | crossFieldChecks => exact execCrossFieldChecks_ev rfl (ev_refl _ _) e
  | lpddrTrained => exact execLpddrTrained_ev rfl (ev_refl _ _) e
  | cfgBastingWrite w a v => exact execCfgBastingWrite_ev rfl (ev_refl _ _) w a v e
  | registerWrite via a v bytes hw => exact execRegisterWrite_ev rfl (ev_refl _ _) via a v bytes hw e
  | rcRead via a bytes hw => exact execRcRead_ev rfl (ev_refl _ _) via a bytes hw e
  | unassignedAccess o bar a write => exact execUnassignedAccess_ev rfl (ev_refl _ _) o bar a write e
  | ldrViewWrite o v => exact execLdrViewWrite_ev rfl (ev_refl _ _) o v e
  | swapRequest w => exact execSwapRequest_ev rfl (ev_refl _ _) w e
  | discard w => exact execDiscard_ev rfl (ev_refl _ _) w e
  | ownerTimeout => exact execOwnerTimeout_ev rfl (ev_refl _ _) e
  | bastingGrant => exact execBastingGrant_ev rfl (ev_refl _ _) e
  | epochReachesIsland n => exact execEpochReachesIsland_ev rfl (ev_refl _ _) n e
  | swapTimeout => exact execSwapTimeout_ev rfl (ev_refl _ _) e
  | liveWrite o a v => exact execLiveWrite_ev rfl (ev_refl _ _) o a v e
  | modeSample v => exact execModeSample_ev rfl (ev_refl _ _) v e
  | profileSelectionStart => exact execProfileSelectionStart_ev rfl (ev_refl _ _) e
  | profileEvaluation => exact execProfileEvaluation_ev rfl (ev_refl _ _) e
  | pllLossOfLock n => exact execPllLossOfLock_ev rfl (ev_refl _ _) n e
  | crossingTimeout src dst pair lost => exact execCrossingTimeout_ev rfl (ev_refl _ _) src dst pair lost e
  | lockstepMismatch pair => exact execLockstepMismatch_ev rfl (ev_refl _ _) pair e
  | reservePairTakeover => exact execReservePairTakeover_ev rfl (ev_refl _ _) e
  | checkpointWrite => exact execCheckpointWrite_ev rfl (ev_refl _ _) e
  | frameStartPacket p vc fn f => exact execFrameStartPacket_ev rfl (ev_refl _ _) p vc fn f e
  | frameEndPacket p vc f => exact execFrameEndPacket_ev rfl (ev_refl _ _) p vc f e
  | longPacket p vc dt payload f => exact execLongPacket_ev rfl (ev_refl _ _) p vc dt payload f e
  | frameTimeout p c => exact execFrameTimeout_ev rfl (ev_refl _ _) p c e
  | lockLost p => exact execLockLost_ev rfl (ev_refl _ _) p e
  | linkLoss p => exact execLinkLoss_ev rfl (ev_refl _ _) p e
  | linkLock p => exact execLinkLock_ev rfl (ev_refl _ _) p e
  | portConfigApply p => exact execPortConfigApply_ev rfl (ev_refl _ _) p e
  | scriptEnd p => exact execScriptEnd_ev rfl (ev_refl _ _) p e
  | scriptWr16 p => exact execScriptWr16_ev rfl (ev_refl _ _) p e
  | scriptWr8 p => exact execScriptWr8_ev rfl (ev_refl _ _) p e
  | scriptRdcmp p => exact execScriptRdcmp_ev rfl (ev_refl _ _) p e
  | scriptDelay p => exact execScriptDelay_ev rfl (ev_refl _ _) p e
  | delayExpired p => exact execDelayExpired_ev rfl (ev_refl _ _) p e
  | scriptGpio p => exact execScriptGpio_ev rfl (ev_refl _ _) p e
  | scriptPoc p => exact execScriptPoc_ev rfl (ev_refl _ _) p e
  | scriptWaitlock p => exact execScriptWaitlock_ev rfl (ev_refl _ _) p e
  | waitlockTimeout p => exact execWaitlockTimeout_ev rfl (ev_refl _ _) p e
  | scriptJump p => exact execScriptJump_ev rfl (ev_refl _ _) p e
  | scriptLoop p => exact execScriptLoop_ev rfl (ev_refl _ _) p e
  | scriptEvent p => exact execScriptEvent_ev rfl (ev_refl _ _) p e
  | scriptStream p => exact execScriptStream_ev rfl (ev_refl _ _) p e
  | instructionLimit p => exact execInstructionLimit_ev rfl (ev_refl _ _) p e
  | backoffExpired p => exact execBackoffExpired_ev rfl (ev_refl _ _) p e
  | faultTimeout p => exact execFaultTimeout_ev rfl (ev_refl _ _) p e
  | powerCycleDone p => exact execPowerCycleDone_ev rfl (ev_refl _ _) p e
  | supervisionRun p => exact execSupervisionRun_ev rfl (ev_refl _ _) p e
  | triggerAssertSend p => exact execTriggerAssertSend_ev rfl (ev_refl _ _) p e
  | triggerReleaseSend p => exact execTriggerReleaseSend_ev rfl (ev_refl _ _) p e
  | triggerWindowExpire p => exact execTriggerWindowExpire_ev rfl (ev_refl _ _) p e
  | echoBurstStart p => exact execEchoBurstStart_ev rfl (ev_refl _ _) p e
  | echoReturn p rtt => exact execEchoReturn_ev rfl (ev_refl _ _) p rtt e
  | echoTimeout p => exact execEchoTimeout_ev rfl (ev_refl _ _) p e
  | latencyBurstEnd p => exact execLatencyBurstEnd_ev rfl (ev_refl _ _) p e
  | frameAdmission c => exact execFrameAdmission_ev rfl (ev_refl _ _) c e
  | lineComplete c => exact execLineComplete_ev rfl (ev_refl _ _) c e
  | heatDone l bad => exact execHeatDone_ev rfl (ev_refl _ _) l bad e
  | holdFreeze c => exact execHoldFreeze_ev rfl (ev_refl _ _) c e
  | holdRelease c => exact execHoldRelease_ev rfl (ev_refl _ _) c e
  | tableMemoryWrite o a bytes => exact execTableMemoryWrite_ev rfl (ev_refl _ _) o a bytes e
  | selfTestInGap l result => exact execSelfTestInGap_ev rfl (ev_refl _ _) l result e
  | reserveSelfTest pass => exact execReserveSelfTest_ev rfl (ev_refl _ _) pass e
  | selfTestStarved => exact execSelfTestStarved_ev rfl (ev_refl _ _) e
  | spareTest kind inst pass => exact execSpareTest_ev rfl (ev_refl _ _) kind inst pass e
  | seamLine c bad => exact execSeamLine_ev rfl (ev_refl _ _) c bad e
  | compositeWaitExpire o => exact execCompositeWaitExpire_ev rfl (ev_refl _ _) o e
  | seamFrameEnd c bad => exact execSeamFrameEnd_ev rfl (ev_refl _ _) c bad e
  | csi2TxConfigApply p => exact execCsi2TxConfigApply_ev rfl (ev_refl _ _) p e
  | hostLinkTrained p rate width flit => exact execHostLinkTrained_ev rfl (ev_refl _ _) p rate width flit e
  | flr p => exact execFlr_ev rfl (ev_refl _ _) p e
  | hotReset p => exact execHotReset_ev rfl (ev_refl _ _) p e
  | d3hotEntry p => exact execD3hotEntry_ev rfl (ev_refl _ _) p e
  | d3hotExit p => exact execD3hotExit_ev rfl (ev_refl _ _) p e
  | linkDown p => exact execLinkDown_ev rfl (ev_refl _ _) p e
  | busMasterDisable p => exact execBusMasterDisable_ev rfl (ev_refl _ _) p e
  | vectorUnmask p v => exact execVectorUnmask_ev rfl (ev_refl _ _) p v e
  | bufferTake c => exact execBufferTake_ev rfl (ev_refl _ _) c e
  | ringReadComplete c list length cookie => exact execRingReadComplete_ev rfl (ev_refl _ _) c list length cookie e
  | listReadComplete c es => exact execListReadComplete_ev rfl (ev_refl _ _) c es e
  | egressBurst p => exact execEgressBurst_ev rfl (ev_refl _ _) p e
  | flushReadComplete c => exact execFlushReadComplete_ev rfl (ev_refl _ _) c e
  | completionTimeout c dir cause => exact execCompletionTimeout_ev rfl (ev_refl _ _) c dir cause e
  | arm c seq => exact execArm_ev rfl (ev_refl _ _) c seq e
  | disarm c => exact execDisarm_ev rfl (ev_refl _ _) c e
  | piWrite c v => exact execPiWrite_ev rfl (ev_refl _ _) c v e
  | cplCiWrite c v => exact execCplCiWrite_ev rfl (ev_refl _ _) c v e
  | start c => exact execStart_ev rfl (ev_refl _ _) c e
  | stop c => exact execStop_ev rfl (ev_refl _ _) c e
  | abort c => exact execAbort_ev rfl (ev_refl _ _) c e
  | replay p v => exact execReplay_ev rfl (ev_refl _ _) p v e
  | packetOpen q producer bad => exact execPacketOpen_ev rfl (ev_refl _ _) q producer bad e
  | packetWord q producer w bad => exact execPacketWord_ev rfl (ev_refl _ _) q producer w bad e
  | packetCommit q producer bad => exact execPacketCommit_ev rfl (ev_refl _ _) q producer bad e
  | packetRewind q producer => exact execPacketRewind_ev rfl (ev_refl _ _) q producer e
  | spillMove q blocks toHead bad => exact execSpillMove_ev rfl (ev_refl _ _) q blocks toHead bad e
  | queueConfigApply q => exact execQueueConfigApply_ev rfl (ev_refl _ _) q e
  | headerRead o r bad => exact execHeaderRead_ev rfl (ev_refl _ _) o r bad e
  | dataRead o r n bad => exact execDataRead_ev rfl (ev_refl _ _) o r n bad e
  | release o r v => exact execRelease_ev rfl (ev_refl _ _) o r v e
  | claimTimeout r => exact execClaimTimeout_ev rfl (ev_refl _ _) r e
  | sourceLevelChange src => exact execSourceLevelChange_ev rfl (ev_refl _ _) src e
  | claim o t => exact execClaim_ev rfl (ev_refl _ _) o t e
  | complete o t src => exact execComplete_ev rfl (ev_refl _ _) o t src e
  | enableWrite o t w v => exact execEnableWrite_ev rfl (ev_refl _ _) o t w v e
  | gdis o t v => exact execGdis_ev rfl (ev_refl _ _) o t v e
  | split o t v => exact execSplit_ev rfl (ev_refl _ _) o t v e
  | pacerExpire g t => exact execPacerExpire_ev rfl (ev_refl _ _) g t e
  | evcArrayEcc src t => exact execEvcArrayEcc_ev rfl (ev_refl _ _) src t e
  | supplyFault => exact execSupplyFault_ev rfl (ev_refl _ _) e
  | overtemperature tj => exact execOvertemperature_ev rfl (ev_refl _ _) tj e
  | secondBoundary => exact execSecondBoundary_ev rfl (ev_refl _ _) e
  | anchorCommit => exact execAnchorCommit_ev rfl (ev_refl _ _) e
  | timeNsRead o => exact execTimeNsRead_ev rfl (ev_refl _ _) o e
  | rateWrite v => exact execRateWrite_ev rfl (ev_refl _ _) v e
  | step v => exact execStep_ev rfl (ev_refl _ _) v e
  | ppsNextWrite v => exact execPpsNextWrite_ev rfl (ev_refl _ _) v e
  | trgNextWrite g hi lo => exact execTrgNextWrite_ev rfl (ev_refl _ _) g hi lo e
  | triggerRealign g => exact execTriggerRealign_ev rfl (ev_refl _ _) g e
  | triggerFire g => exact execTriggerFire_ev rfl (ev_refl _ _) g e
  | offsetMeasurement => exact execOffsetMeasurement_ev rfl (ev_refl _ _) e
  | syncTimeout => exact execSyncTimeout_ev rfl (ev_refl _ _) e
  | sync p domain seq stamp => exact execSync_ev rfl (ev_refl _ _) p domain seq stamp e
  | followUp p domain seq origin corr rate gm => exact execFollowUp_ev rfl (ev_refl _ _) p domain seq origin corr rate gm e
  | syncSend p stamp => exact execSyncSend_ev rfl (ev_refl _ _) p stamp e
  | pdelayReqSend p stamp => exact execPdelayReqSend_ev rfl (ev_refl _ _) p stamp e
  | pdelayReq p domain seq rx tx => exact execPdelayReq_ev rfl (ev_refl _ _) p domain seq rx tx e
  | pdelayResp p domain seq reqRx stamp => exact execPdelayResp_ev rfl (ev_refl _ _) p domain seq reqRx stamp e
  | pdelayRespFollowUp p domain seq respTx => exact execPdelayRespFollowUp_ev rfl (ev_refl _ _) p domain seq respTx e
  | ethFrameReceive p len tags type dst bad => exact execEthFrameReceive_ev rfl (ev_refl _ _) p len tags type dst bad e
  | diagRequest p src tag ver op seq addr count => exact execDiagRequest_ev rfl (ev_refl _ _) p src tag ver op seq addr count e
  | ethLinkUp p => exact execEthLinkUp_ev rfl (ev_refl _ _) p e
  | ethLinkDown p => exact execEthLinkDown_ev rfl (ev_refl _ _) p e
  | inputEdge n levels => exact execInputEdge_ev rfl (ev_refl _ _) n levels e
  | indexEdge n => exact execIndexEdge_ev rfl (ev_refl _ _) n e
  | sincosSample n codeSin codeCos => exact execSincosSample_ev rfl (ev_refl _ _) n codeSin codeCos e
  | sentMessage n tick nibs crc pause bad ago => exact execSentMessage_ev rfl (ev_refl _ _) n tick nibs crc pause bad ago e
  | sentTimeout n => exact execSentTimeout_ev rfl (ev_refl _ _) n e
  | channelRevalid n => exact execChannelRevalid_ev rfl (ev_refl _ _) n e
  | compareArm n v => exact execCompareArm_ev rfl (ev_refl _ _) n v e
  | observerUpdate => exact execObserverUpdate_ev rfl (ev_refl _ _) e
  | standstill n => exact execStandstill_ev rfl (ev_refl _ _) n e
  | snapshot => exact execSnapshot_ev rfl (ev_refl _ _) e
  | historyEntry => exact execHistoryEntry_ev rfl (ev_refl _ _) e
  | motionInterpolate c => exact execMotionInterpolate_ev rfl (ev_refl _ _) c e
  | emulatorStep n => exact execEmulatorStep_ev rfl (ev_refl _ _) n e
  | adc1Conversion n code => exact execAdc1Conversion_ev rfl (ev_refl _ _) n code e
  | pocFaultPin p => exact execPocFaultPin_ev rfl (ev_refl _ _) p e
  | powerGood p => exact execPowerGood_ev rfl (ev_refl _ _) p e
  | pgTimeout p => exact execPgTimeout_ev rfl (ev_refl _ _) p e
  | powerRetry p => exact execPowerRetry_ev rfl (ev_refl _ _) p e
  | attemptReset p => exact execAttemptReset_ev rfl (ev_refl _ _) p e
  | powerRelease p => exact execPowerRelease_ev rfl (ev_refl _ _) p e
  | openDetect p => exact execOpenDetect_ev rfl (ev_refl _ _) p e
  | pwmPeriodStart k => exact execPwmPeriodStart_ev rfl (ev_refl _ _) k e
  | pwmPulseStart k => exact execPwmPulseStart_ev rfl (ev_refl _ _) k e
  | pwmPulseEnd k => exact execPwmPulseEnd_ev rfl (ev_refl _ _) k e
  | fold m => exact execFold_ev rfl (ev_refl _ _) m e
  | unfold m => exact execUnfold_ev rfl (ev_refl _ _) m e
  | foldStop m => exact execFoldStop_ev rfl (ev_refl _ _) m e
  | brakeEnd m => exact execBrakeEnd_ev rfl (ev_refl _ _) m e
  | foldStall m => exact execFoldStall_ev rfl (ev_refl _ _) m e
  | foldTimeout m => exact execFoldTimeout_ev rfl (ev_refl _ _) m e
  | vcoreAdjust mv tj => exact execVcoreAdjust_ev rfl (ev_refl _ _) mv tj e
  | transactionStart n free lost => exact execTransactionStart_ev rfl (ev_refl _ _) n free lost e
  | busStuckRecovery n recovered => exact execBusStuckRecovery_ev rfl (ev_refl _ _) n recovered e
  | stretchTimeout n => exact execStretchTimeout_ev rfl (ev_refl _ _) n e
  | transactionDone n ack data => exact execTransactionDone_ev rfl (ev_refl _ _) n ack data e
  | targetWrite t addr7 a bytes end_ => exact execTargetWrite_ev rfl (ev_refl _ _) t addr7 a bytes end_ e
  | targetRead t addr7 a n => exact execTargetRead_ev rfl (ev_refl _ _) t addr7 a n e
  | targetDataTimeout t => exact execTargetDataTimeout_ev rfl (ev_refl _ _) t e
  | targetSelfReset t => exact execTargetSelfReset_ev rfl (ev_refl _ _) t e
  | wakeAddress t => exact execWakeAddress_ev rfl (ev_refl _ _) t e
  | alertResponse t lost => exact execAlertResponse_ev rfl (ev_refl _ _) t lost e
  | bridgeAccess via addr write be data => exact execBridgeAccess_ev rfl (ev_refl _ _) via addr write be data e
  | sensorWindowWrite p => exact execSensorWindowWrite_ev rfl (ev_refl _ _) p e
  | sensorWindowRead p => exact execSensorWindowRead_ev rfl (ev_refl _ _) p e
  | remoteWindowAccess f => exact execRemoteWindowAccess_ev rfl (ev_refl _ _) f e
  | bridgeReadTimeout tag => exact execBridgeReadTimeout_ev rfl (ev_refl _ _) tag e
  | take o w => exact execTake_ev rfl (ev_refl _ _) o w e
  | semaphoreRelease o w => exact execSemaphoreRelease_ev rfl (ev_refl _ _) o w e
  | leaseExpire w => exact execLeaseExpire_ev rfl (ev_refl _ _) w e
  | retryReissue tag => exact execRetryReissue_ev rfl (ev_refl _ _) tag e
  | compatWriteTimeout tag => exact execCompatWriteTimeout_ev rfl (ev_refl _ _) tag e
  | prefetchAgeExpire o => exact execPrefetchAgeExpire_ev rfl (ev_refl _ _) o e
  | laneLock p l => exact execLaneLock_ev rfl (ev_refl _ _) p l e
  | laneLockLost p l => exact execLaneLockLost_ev rfl (ev_refl _ _) p l e
  | trainTimeout p => exact execTrainTimeout_ev rfl (ev_refl _ _) p e
  | laneBlock p uid rate lanes map => exact execLaneBlock_ev rfl (ev_refl _ _) p uid rate lanes map e
  | dataBlock p seq gen cls flow payload => exact execDataBlock_ev rfl (ev_refl _ _) p seq gen cls flow payload e
  | openBlock p seq gen cls flow payload => exact execOpenBlock_ev rfl (ev_refl _ _) p seq gen cls flow payload e
  | endBlock p seq gen cls flow total blocks => exact execEndBlock_ev rfl (ev_refl _ _) p seq gen cls flow total blocks e
  | abortBlock p seq gen cls flow cause => exact execAbortBlock_ev rfl (ev_refl _ _) p seq gen cls flow cause e
  | ackBlock p cum map => exact execAckBlock_ev rfl (ev_refl _ _) p cum map e
  | ackTimer p => exact execAckTimer_ev rfl (ev_refl _ _) p e
  | retransmitTimeout p => exact execRetransmitTimeout_ev rfl (ev_refl _ _) p e
  | helloSend p => exact execHelloSend_ev rfl (ev_refl _ _) p e
  | helloBlock p uid name fid port gen => exact execHelloBlock_ev rfl (ev_refl _ _) p uid name fid port gen e
  | helloTimeout p => exact execHelloTimeout_ev rfl (ev_refl _ _) p e
  | lsaBlock p seq gen payload => exact execLsaBlock_ev rfl (ev_refl _ _) p seq gen payload e
  | lsaRefresh => exact execLsaRefresh_ev rfl (ev_refl _ _) e
  | lsaAge uid => exact execLsaAge_ev rfl (ev_refl _ _) uid e
  | fidClaim => exact execFidClaim_ev rfl (ev_refl _ _) e
  | fidJournal => exact execFidJournal_ev rfl (ev_refl _ _) e
  | brgReq p seq gen payload issued => exact execBrgReq_ev rfl (ev_refl _ _) p seq gen payload issued e
  | brgRsp p seq gen payload => exact execBrgRsp_ev rfl (ev_refl _ _) p seq gen payload e
  | timeExchange p => exact execTimeExchange_ev rfl (ev_refl _ _) p e
  | timeBlock p sent echo echoAt gm free => exact execTimeBlock_ev rfl (ev_refl _ _) p sent echo echoAt gm free e
  | heartbeatSend => exact execHeartbeatSend_ev rfl (ev_refl _ _) e
  | heartbeat p seq body => exact execHeartbeat_ev rfl (ev_refl _ _) p seq body e
  | hbInputEdge => exact execHbInputEdge_ev rfl (ev_refl _ _) e
  | heartbeatTick => exact execHeartbeatTick_ev rfl (ev_refl _ _) e
  | fenceWaitExpire => exact execFenceWaitExpire_ev rfl (ev_refl _ _) e
  | partnerWaitExpire => exact execPartnerWaitExpire_ev rfl (ev_refl _ _) e
  | fenceInput low => exact execFenceInput_ev rfl (ev_refl _ _) low e
  | fenceReleaseTimer => exact execFenceReleaseTimer_ev rfl (ev_refl _ _) e
  | deliver p seq body => exact execDeliver_ev rfl (ev_refl _ _) p seq body e
  | deliverAckTimeout => exact execDeliverAckTimeout_ev rfl (ev_refl _ _) e
  | mirrorRestore => exact execMirrorRestore_ev rfl (ev_refl _ _) e
  | fcMismatch c => exact execFcMismatch_ev rfl (ev_refl _ _) c e
  | handover o v => exact execHandover_ev rfl (ev_refl _ _) o v e
  | batonOffer p seq batonGen => exact execBatonOffer_ev rfl (ev_refl _ _) p seq batonGen e
  | batonCommit p seq batonGen => exact execBatonCommit_ev rfl (ev_refl _ _) p seq batonGen e
  | relayProfile p seq body => exact execRelayProfile_ev rfl (ev_refl _ _) p seq body e
  | profileSwapAtS => exact execProfileSwapAtS_ev rfl (ev_refl _ _) e
  | exposureLoopUpdate => exact execExposureLoopUpdate_ev rfl (ev_refl _ _) e
  | expRegWrite c => exact execExpRegWrite_ev rfl (ev_refl _ _) c e
  | liveBlockWrite c => exact execLiveBlockWrite_ev rfl (ev_refl _ _) c e
  | replaced kind inst row x => exact execReplaced_ev rfl (ev_refl _ _) kind inst row x e
  | replaceRetry => exact execReplaceRetry_ev rfl (ev_refl _ _) e
  | ageingMeasure atBoot freqs => exact execAgeingMeasure_ev rfl (ev_refl _ _) atBoot freqs e
  | journalRecord bad => exact execJournalRecord_ev rfl (ev_refl _ _) bad e
  | dropSummary => exact execDropSummary_ev rfl (ev_refl _ _) e
  | park o v => exact execPark_ev rfl (ev_refl _ _) o v e
  | parkCancel o v => exact execParkCancel_ev rfl (ev_refl _ _) o v e
  | parkComplete => exact execParkComplete_ev rfl (ev_refl _ _) e
  | parkExit => exact execParkExit_ev rfl (ev_refl _ _) e
  | presencePulse => exact execPresencePulse_ev rfl (ev_refl _ _) e
  | presenceHeld => exact execPresenceHeld_ev rfl (ev_refl _ _) e
  | windowExpire => exact execWindowExpire_ev rfl (ev_refl _ _) e
  | sessionOpen o => exact execSessionOpen_ev rfl (ev_refl _ _) o e
  | sessionClose o => exact execSessionClose_ev rfl (ev_refl _ _) o e
  | erase o slot => exact execErase_ev rfl (ev_refl _ _) o slot e
  | program o slot arg => exact execProgram_ev rfl (ev_refl _ _) o slot arg e
  | verify o slot => exact execVerify_ev rfl (ev_refl _ _) o slot e
  | reload o => exact execReload_ev rfl (ev_refl _ _) o e
  | rollback o arg => exact execRollback_ev rfl (ev_refl _ _) o arg e
  | flashOperationDone fail => exact execFlashOperationDone_ev rfl (ev_refl _ _) fail e
  | echoRequestSend p => exact execEchoRequestSend_ev rfl (ev_refl _ _) p e
  | syncHeaderErrors p l => exact execSyncHeaderErrors_ev rfl (ev_refl _ _) p l e
  | blockCrcError p => exact execBlockCrcError_ev rfl (ev_refl _ _) p e
  | csi2TxPacketSent p => exact execCsi2TxPacketSent_ev rfl (ev_refl _ _) p e
  | csi2PhyRestartDone p => exact execCsi2PhyRestartDone_ev rfl (ev_refl _ _) p e
  | busMasterEnable p payload => exact execBusMasterEnable_ev rfl (ev_refl _ _) p payload e
  | pcieUncorrectableError p => exact execPcieUncorrectableError_ev rfl (ev_refl _ _) p e

/-- A command that changes a field is one that `touches` names the field for. -/
theorem touches_of_changed {c : Instr} {s t : State} (e : exec c s = .next t) {x : StateField} (h : ¬ x.same s t) :
    (touches c).contains x = true := by
  by_contra hx
  exact h ((exec_evolves e).frame x (by simpa using hx))

/-! ## What changes under a few commands only -/

/-- The rollback counter changes at the end of a flash operation and at a reset only (R62). -/
theorem exec_of_rollback_changed {c : Instr} {s t : State} (e : exec c s = .next t) (h : t.rollback ≠ s.rollback) :
    ∃ b, c = .flashOperationDone b ∨ c = .resetNAssert b := by
  have hc := touches_of_changed e (x := .rollback) h
  cases c with
  | flashOperationDone b => exact ⟨b, .inl rfl⟩
  | resetNAssert b => exact ⟨b, .inr rfl⟩
  | _ => exact absurd hc Bool.false_ne_true

/-- The islands' epochs change when an epoch reaches an island and at a reset only (R78). -/
theorem exec_of_islEpoch_changed {c : Instr} {s t : State} (e : exec c s = .next t) (h : t.islEpoch ≠ s.islEpoch) :
    (∃ i, c = .epochReachesIsland i) ∨ ∃ b, c = .resetNAssert b := by
  have hc := touches_of_changed e (x := .islEpoch) h
  cases c with
  | epochReachesIsland i => exact .inl ⟨i, rfl⟩
  | resetNAssert b => exact .inr ⟨b, rfl⟩
  | _ => exact absurd hc Bool.false_ne_true

/-! ## Writes that leave the 64-bit counter (R309) -/

/-- Every field that a write can change but the 64-bit counter. -/
def timelessFields : List StateField :=
  (touches (.registerWrite ⟨.t0, none⟩ 0 0 0 0)).filter (· ≠ .now)

/-- The service cores alone steer the time. -/
theorem steerTime_of_ne_svc {o : Orig} (ho : o ≠ .svc) (ws : List (Nat × Nat)) (s : State) : steerTime o ws s = s := if_neg ho

section
variable {s0 s : State} (h : Evolves timelessFields s0 s)
include h

theorem doRegisterWrite_timeless {o : Orig} (ho : o ≠ .svc) (a v bytes hw : Nat) :
    Evolves timelessFields s0 (doRegisterWrite o a v bytes hw s) := by
  rw [doRegisterWrite, steerTime_of_ne_svc ho]
  exact ev_ite h (ev_ite (tableStore_ev rfl h ..) (ev_ite (mapMiss_ev rfl h _) (ev_ite (partialWrite_ev rfl h _)
    (writeWord_ev rfl h ..))))

theorem execRegisterWrite_timeless {x : Via} (ho : x.orig ≠ .svc) {a v bytes hw : Nat} {t : State}
    (e : execRegisterWrite x a v bytes hw s = .next t) : Evolves timelessFields s0 t := by
  cases e
  split
  · exact doRegisterWrite_timeless h ho ..
  · exact missAt_ev rfl h ..
  · exact h

theorem doBridgeAccess_timeless {o : Orig} (ho : o ≠ .svc) (addr : Nat) (write : Bool) (be : List Bool) (data : List Nat) :
    Evolves timelessFields s0 (doBridgeAccess o addr write be data s) := by
  unfold doBridgeAccess
  split
  · exact h
  · exact h
  · refine ev_ite h (ev_ite (ev_ite ?_ (emit_ev rfl (serveRead_ev rfl h ..) _)) ?_)
    · simp only [steerTime_of_ne_svc ho]
      exact serveWrite_ev rfl h ..
    · split
      · exact ev_ite h (emit_ev rfl (freeBytes_ev rfl h _) _)
      · exact bridgeAccess_ev rfl h ..

theorem execBridgeAccess_timeless {x : Via} (ho : x.orig ≠ .svc) {addr : Nat} {write : Bool} {be : List Bool} {data : List Nat}
    {t : State} (e : execBridgeAccess x addr write be data s = .next t) : Evolves timelessFields s0 t := by
  cases e
  split
  · exact doBridgeAccess_timeless h ho ..
  · exact h

theorem targetWriteWord_timeless (a v : Nat) : Evolves timelessFields s0 (targetWriteWord a v s) := by
  unfold targetWriteWord
  split
  · exact doBridgeAccess_timeless h (by decide) ..
  · exact writeWord_ev rfl h ..

end

theorem targetWriteWords_timeless (bs : List Nat) (a : Nat) (s : State) {s0 : State} (h : Evolves timelessFields s0 s) :
    Evolves timelessFields s0 (targetWriteWords bs a s) := by
  fun_induction targetWriteWords bs a s with
  | case1 b0 b1 b2 b3 bs a s ih => exact ih (targetWriteWord_timeless h ..)
  | case2 => exact h

theorem doTargetWrite_timeless (t addr7 a : Nat) (bytes : List Nat) (end_ : Nat) (s : State) :
    Evolves timelessFields s (doTargetWrite t addr7 a bytes end_ s) := by
  have h := ev_refl timelessFields s
  have hw (bs : List Nat) (a : Nat) := targetWriteWords_timeless bs a s h
  refine ev_ite h (ev_ite (ev_ite (ev_ite (hw ..) ?_) (ev_ite (cutShort_ev rfl h ..) h)) (ev_ite (cutShort_ev rfl (hw ..) ..) (hw ..)))
  exact recordError_ev rfl (inc_ev rfl h _) _

/-- Between its ticks the 64-bit counter changes under these commands only (R307, R309). -/
theorem exec_of_now_changed {c : Instr} {s t : State} (e : exec c s = .next t) (h : t.now ≠ s.now) :
    (∃ v, c = .step v) ∨ c = .offsetMeasurement ∨ (∃ h a, c = .resetRelease h a) ∨
      (∃ bar a v n hw, c = .registerWrite ⟨.svc, bar⟩ a v n hw) ∨ (∃ bar a k be d, c = .bridgeAccess ⟨.svc, bar⟩ a k be d) ∨
      ∃ b, c = .resetNAssert b := by
  have hc := touches_of_changed e (x := .now) h
  have refuted {F : List StateField} (hF : F.contains .now = false) (ev : Evolves F s t) : False := h (ev.frame .now hF)
  have h0 := ev_refl timelessFields s
  cases c with
  | step v => exact .inl ⟨v, rfl⟩
  | offsetMeasurement => exact .inr (.inl rfl)
  | resetRelease h a => exact .inr (.inr (.inl ⟨h, a, rfl⟩))
  | resetNAssert b => exact .inr (.inr (.inr (.inr (.inr ⟨b, rfl⟩))))
  | registerWrite x a v n hw =>
    obtain ⟨o, bar⟩ := x
    by_cases ho : o = .svc
    · exact .inr (.inr (.inr (.inl ⟨bar, a, v, n, hw, by rw [ho]⟩)))
    · exact (refuted rfl (execRegisterWrite_timeless h0 ho e)).elim
  | bridgeAccess x a k be d =>
    obtain ⟨o, bar⟩ := x
    by_cases ho : o = .svc
    · exact .inr (.inr (.inr (.inr (.inl ⟨bar, a, k, be, d, by rw [ho]⟩))))
    · exact (refuted rfl (execBridgeAccess_timeless h0 ho e)).elim
  | targetWrite n addr7 a bytes end_ =>
    cases e
    exact (refuted rfl (doTargetWrite_timeless n addr7 a bytes end_ s)).elim
  | _ => exact absurd hc Bool.false_ne_true

/-! ## O59 -/

/-- Settles O59: the footprint of each command, and the few commands that reach the fields which rules single out. -/
theorem everyCommandHasItsEffect : Obligations.EveryCommandHasItsEffect := by
  refine ⟨fun c s => ?_, fun c s t e => ⟨exec_of_rollback_changed e, exec_of_islEpoch_changed e, exec_of_now_changed e⟩⟩
  obtain ⟨t, ht⟩ := exec_next c s
  exact ⟨t, ht, exec_evolves ht⟩

/-! ## Steps -/

theorem tick_evolves (s : State) : Evolves [.now, .time] s (tick s) :=
  ev_ite (ev_refl _ _) (ev_now_time rfl rfl (ev_refl _ _))

/-- The canonical form says nothing of the commands that wait. -/
theorem canonical_setPending {s : State} (c : s.Canonical) (l : List Instr) : State.Canonical { s with pending := l } :=
  ⟨c.regs, c.cfgB, c.cfgA, c.cfgO, c.cfgX, c.liveB, c.liveA, c.flash, c.jmem, c.ram, c.profSets, c.baseSet⟩

/-- What `n` steps from `s` keep in `t`. -/
structure StepsKeep (n : Nat) (s t : State) : Prop where
  canonical : t.Canonical
  pending : t.pending = s.pending.drop n
  chip : t.chip = s.chip
  rollback : s.rollback ≤ t.rollback
  out : s.out <+: t.out

theorem stepsKeep_zero {s : State} (c : s.Canonical) : StepsKeep 0 s s := ⟨c, rfl, rfl, le_rfl, List.prefix_rfl⟩

theorem StepsKeep.trans {m n : Nat} {s t u : State} (h : StepsKeep m s t) (k : StepsKeep n t u) : StepsKeep (m + n) s u :=
  ⟨k.canonical, by rw [k.pending, h.pending, List.drop_drop], k.chip.trans h.chip, h.rollback.trans k.rollback, h.out.trans k.out⟩

theorem step_keeps {s : State} (c : s.Canonical) : ∃ t, step s = .next t ∧ StepsKeep 1 s t := by
  cases h : s.pending with
  | nil =>
    have ev := tick_evolves s
    exact ⟨_, step_idle h, ev.canonical c, by rw [ev.pending, h]; rfl, ev.chip, ev.rollback, ev.out⟩
  | cons i rest =>
    obtain ⟨t, ht⟩ := exec_next i { s with pending := rest }
    have ev := exec_evolves ht
    exact ⟨t, (step_of_pending h).trans ht, ev.canonical (canonical_setPending c rest), by rw [ev.pending, h]; rfl, ev.chip,
      ev.rollback, ev.out⟩

/-! ## O60 -/

/-- Settles O60, by induction on the number of steps. -/
theorem stepKeepsTheInvariant : Obligations.StepKeepsTheInvariant := by
  refine ⟨fun s c => ?_, fun n s c => ?_⟩
  · obtain ⟨t, ht, k⟩ := step_keeps c
    exact ⟨t, ht, k.canonical, k.pending.trans List.drop_one, k.chip, k.rollback, k.out⟩
  · suffices key : ∃ t, Nat.repeat _ n (some s) = some t ∧ StepsKeep n s t by
      obtain ⟨t, ht, k⟩ := key
      exact ⟨t, ht, k.canonical, k.pending, k.chip, k.rollback, k.out⟩
    induction n with
    | zero => exact ⟨s, rfl, stepsKeep_zero c⟩
    | succ n ih =>
      obtain ⟨t, ht, k⟩ := ih
      obtain ⟨u, hu, ku⟩ := step_keeps k.canonical
      refine ⟨u, ?_, k.trans ku⟩
      rw [Nat.repeat, ht]
      simp only [hu]

end Sys2Proof.Machine

/-! PROOFS. Scripts of the camera ports and the timers of a port's states (R50, R52, R110 to R113, R475, R476). -/

namespace Sys2Proof.Machine
open Sys2Proof

/-! ## Each instruction at a ready script -/

section
variable {s : State} {p : Nat} {r : Run}

theorem doScriptEnd_ready (h : nextInstr s p 0 = some r) : doScriptEnd p s = endScript p (arg r 1) s := by
  simp only [doScriptEnd, h]

theorem scriptWrite_of_not_passive (h : passive s p = false) (len : Nat) (bs : List Nat) :
    scriptWrite p r len bs s =
      (s |> setRun p { passInstr r len with wait := .bus } |> queueTxn p ⟨.script p r.id, arg r 1, bs, 0⟩) :=
  if_neg (by simp [h])

theorem doScriptWr16_ready (h : nextInstr s p 1 = some r) :
    doScriptWr16 p s = scriptWrite p r (5 + arg r 4) (beBytes 2 (arg2 r 2) ++ argBytes r 5 (arg r 4)) s := by
  simp only [doScriptWr16, h]

theorem doScriptWr8_ready (h : nextInstr s p 2 = some r) :
    doScriptWr8 p s = scriptWrite p r (4 + arg r 3) (arg r 2 :: argBytes r 4 (arg r 3)) s := by
  simp only [doScriptWr8, h]

theorem doScriptRdcmp_ready (h : nextInstr s p 3 = some r) : doScriptRdcmp p s =
    (s |> setRun p { r with wait := .compare } |> queueTxn p ⟨.script p r.id, arg r 1, beBytes 2 (arg2 r 2), 1⟩) := by
  simp only [doScriptRdcmp, h]

theorem doScriptDelay_ready (h : nextInstr s p 4 = some r) :
    doScriptDelay p s = setRun p { passInstr r 3 with wait := .delay } s := by
  simp only [doScriptDelay, h]

theorem doScriptGpio_ready (h : nextInstr s p 5 = some r) (ha : passive s p = false) :
    doScriptGpio p s = if isAphy p && !isSet s (CPT_STATE_LOCK p) then endScript p 0xFD s
      else s |> setRun p (passInstr r 3) |> driveLine p (arg r 1 % 4) (arg r 2 % 2) := by
  simp only [doScriptGpio, h, ha, Bool.false_eq_true, if_false]

/-- POC 1 starts the power of an A-PHY port that is not passive (R346). -/
theorem doScriptPoc_on (h : nextInstr s p 6 = some r) (ha : passive (setRun p (passInstr r 2) s) p = false)
    (hp : isAphy p = true) (h1 : arg r 1 = 1) : doScriptPoc p s = powerInrush p (setRun p (passInstr r 2) s) := by
  simp only [doScriptPoc, h, ha, hp, h1, Bool.not_true, Bool.or_self, Bool.false_eq_true, if_false, if_true]

theorem doScriptWaitlock_ready (h : nextInstr s p 7 = some r) :
    doScriptWaitlock p s = if linkLocked s p then setRun p (passInstr r 5) s
      else setRun p { passInstr r 5 with wait := .lock (arg2 r 3) } s := by
  simp only [doScriptWaitlock, h]

theorem doScriptJump_ready (h : nextInstr s p 8 = some r) :
    doScriptJump p s = setRun p { r with pc := arg2 r 1, count := r.count + 1 } s := by
  simp only [doScriptJump, h]

theorem doScriptLoop_ready (h : nextInstr s p 9 = some r) :
    doScriptLoop p s = if sget (fun _ => 0) r.loops r.pc < arg r 1 then
        setRun p { r with
          pc := arg2 r 2, count := r.count + 1
          loops := sset (fun _ => 0) r.loops r.pc (sget (fun _ => 0) r.loops r.pc + 1) } s
      else setRun p (passInstr r 4) s := by
  simp only [doScriptLoop, h]

theorem doScriptEvent_ready (h : nextInstr s p 10 = some r) :
    doScriptEvent p s = (s |> setRun p (passInstr r 3) |> camEvent p (arg2 r 1 % 2 ^ 15) 0 0 []) := by
  simp only [doScriptEvent, h]

theorem doScriptStream_ready (h : nextInstr s p 11 = some r) :
    doScriptStream p s = if arg r 1 = 1 then s |> setRun p (passInstr r 2) |> camEvent p 0x8007 0 0 []
      else s |> setRun p (passInstr r 2) |> closeAll p 0 false |> camEvent p 0x8008 0 0 [] := by
  simp only [doScriptStream, h]

end

/-! ## O15 -/

/-- A command of a port that the device has is what its unit does. -/
theorem next_of_portExists {s : State} {p : Nat} (hp : portExists s p = true) {t u : State} (h : t = u) :
    (.next (if portExists s p = true then t else s) : Host.Outcome State Fault Refusal) = .next u := by
  rw [if_pos hp, h]

/-- Settles O15, opcode by opcode. -/
theorem scriptInstructions : Obligations.ScriptInstructions := by
  intro s p r hp
  refine ⟨fun h => ?_, fun h ha => ?_, fun h ha => ?_, fun h => ?_, fun h => ?_, fun h ha => ⟨fun hl => ?_, fun hx hl => ?_⟩,
    fun h ha hx h1 => ?_, fun h => ⟨fun hl => ?_, fun hl => ?_⟩, fun h => ?_, fun h => ⟨fun hc => ?_, fun hc => ?_⟩, fun h => ?_,
    fun h => ?_⟩
  · exact next_of_portExists hp (congrArg _ (doScriptEnd_ready h))
  · exact next_of_portExists hp ((doScriptWr16_ready h).trans (scriptWrite_of_not_passive ha ..))
  · exact next_of_portExists hp ((doScriptWr8_ready h).trans (scriptWrite_of_not_passive ha ..))
  · exact next_of_portExists hp (doScriptRdcmp_ready h)
  · exact next_of_portExists hp (doScriptDelay_ready h)
  · refine next_of_portExists hp (congrArg _ ((doScriptGpio_ready h ha).trans (if_neg ?_)))
    rcases hl with hl | hl <;> simp [hl]
  · exact next_of_portExists hp (congrArg _ ((doScriptGpio_ready h ha).trans (if_pos (by simp [hx, hl]))))
  · exact next_of_portExists hp (congrArg _ (doScriptPoc_on h ha hx h1))
  · exact next_of_portExists hp ((doScriptWaitlock_ready h).trans (if_pos hl))
  · exact next_of_portExists hp ((doScriptWaitlock_ready h).trans (if_neg (by simp [hl])))
  · exact next_of_portExists hp (doScriptJump_ready h)
  · exact next_of_portExists hp ((doScriptLoop_ready h).trans (if_pos hc))
  · exact next_of_portExists hp ((doScriptLoop_ready h).trans (if_neg (by omega)))
  · exact next_of_portExists hp (doScriptEvent_ready h)
  · exact next_of_portExists hp (congrArg _ (doScriptStream_ready h))

/-! ## What a running script waits for -/

section
variable {s : State} {p : Nat} {r : Run} (hr : (camOf s p).script = some r)
include hr

theorem doDelayExpired_waiting (h : r.wait = .delay) : doDelayExpired p s = setRun p { r with wait := .ready } s := by
  simp only [doDelayExpired, hr, h, if_true]

theorem doWaitlockTimeout_waiting {fail : Nat} (h : r.wait = .lock fail) :
    doWaitlockTimeout p s = setRun p { r with wait := .ready, pc := fail } s := by
  simp only [doWaitlockTimeout, hr, h]

theorem doInstructionLimit_reached (h : 65536 ≤ r.count) : doInstructionLimit p s = endScript p 0xFE s := by
  simp only [doInstructionLimit, hr, h, if_true]

/-- A run that is still going skips the next one (R112). -/
theorem doSupervisionRun_running : doSupervisionRun p s = s := if_neg (by simp [hr])

end

/-! ## The timers of the port's states -/

section
variable {s : State} {p : Nat} (hst : (camOf s p).stopping = false)
include hst

theorem doBackoffExpired_hold (h : portState s p = 6) : doBackoffExpired p s = bringupOrSearch p s :=
  if_pos ⟨h, by simp [isStopping, hst]⟩

theorem doFaultTimeout_fault (h : portState s p = 8) (hc : (camOf s p).cycling = false) :
    doFaultTimeout p s = if isAphy p then
        s |> unlock p |> powerOff p true |> fun s => setCam p { camOf s p with cycling := true, losing := false } s
      else s |> wr (CPT_STATE_ATTEMPT p) 0 |> enterBringup p :=
  if_neg (by simp [isStopping, h, hc, hst])

theorem doPowerCycleDone_cycling (h : portState s p = 8) (hc : (camOf s p).cycling = true) :
    doPowerCycleDone p s =
      (s |> setCam p { camOf s p with cycling := false } |> wr (CPT_STATE_ATTEMPT p) 0 |> beginPort p) :=
  if_pos ⟨h, hc, by simp [isStopping, hst]⟩

theorem doSupervisionRun_streaming (h : portState s p = 4) (hn : (camOf s p).script = none) :
    doSupervisionRun p s = startScript p 1 s :=
  if_pos ⟨h, hn, by simp [hst]⟩

end

theorem startScript_bound {s : State} {p role : Nat} {x : Script} (h : scriptFor s p role = some x) :
    startScript p role s = setCam p { camOf s p with
      script := some ⟨(camOf s p).runs + 1, role, x.code, 0, 0, [], .ready⟩, runs := (camOf s p).runs + 1 } s := by
  simp only [startScript, h]

/-! ## O16 -/

/-- Settles O16, timer by timer. -/
theorem scriptWaitsAndTimers : Obligations.ScriptWaitsAndTimers := by
  intro s p hp
  refine ⟨fun r hr => ⟨fun h => ?_, fun fail h => ?_, fun h => ?_, ?_⟩, fun h hst => ?_,
    fun h hc hst => ⟨fun ha => ?_, fun ha => ?_⟩, fun h hc hst => ?_, fun h hn hst ha x hx => ?_⟩
  · exact next_of_portExists hp (doDelayExpired_waiting hr h)
  · exact next_of_portExists hp (doWaitlockTimeout_waiting hr h)
  · exact next_of_portExists hp (congrArg _ (doInstructionLimit_reached hr h))
  · rw [exec_supervisionRun, execSupervisionRun, doSupervisionRun_running hr, ite_self]
  · exact next_of_portExists hp (doBackoffExpired_hold hst h)
  · exact next_of_portExists hp ((doFaultTimeout_fault hst h hc).trans (if_neg (by simp [ha])))
  · exact next_of_portExists hp ((doFaultTimeout_fault hst h hc).trans (if_pos ha))
  · exact next_of_portExists hp (doPowerCycleDone_cycling hst h hc)
  · exact congrArg _ ((if_pos (by simp [hp, ha])).trans ((doSupervisionRun_streaming hst h hn).trans (startScript_bound hx)))

end Sys2Proof.Machine

/-! PROOFS. Profile selection (R85, R86, R414). -/

namespace Sys2Proof.Machine
open Sys2Proof

/-! ## The debounce of MODE (R85) -/

theorem rd_wr_modeRaw (v : Nat) (s : State) : rd (wr PWR_MODE_RAW v s) LDR_PROF_STAT_MODE = rd s LDR_PROF_STAT_MODE :=
  rd_wr_addr (by decide)

/-- A value counts at its 21st consecutive sample. -/
theorem doModeSample_counts {s : State} {v : Nat} (hc : v % 8 = s.ldr.modeCand) (hr : s.ldr.modeRun = 20) :
    rd (doModeSample v s) LDR_PROF_STAT_MODE = v % 8 := by
  unfold doModeSample
  extract_lets w u l n
  have hn : 21 ≤ n := by
    have hl : u.ldr.modeRun = 20 ∧ u.ldr.modeCand = w := ⟨hr, hc.symm⟩
    simp [n, hl]
  by_cases h : rd u LDR_PROF_STAT_MODE = w
  · rw [if_pos h]
    exact h
  · rw [if_neg h, if_pos hn]
    exact (rd_wr_same (by decide) (by decide)).trans (Nat.mod_mod _ _)

/-- A value that neither counts nor runs begins a run of its own. -/
theorem doModeSample_begins {s : State} {v : Nat} (hc : v % 8 ≠ s.ldr.modeCand) (hm : v % 8 ≠ rd s LDR_PROF_STAT_MODE) :
    doModeSample v s = { wr PWR_MODE_RAW (v % 8) s with ldr := { s.ldr with modeCand := v % 8, modeRun := 1 } } := by
  unfold doModeSample
  extract_lets w u l n
  have hn : n = 1 := if_neg fun h => hc h.2.symm
  have hne : ¬ rd u LDR_PROF_STAT_MODE = w := by rw [rd_wr_modeRaw]; exact fun h => hm h.symm
  rw [if_neg hne, hn]
  rfl

/-! ## Evaluation (R85) -/

theorem doProfileEvaluation_active {s : State} (h : s.ldr.selecting = true) (hs : isSafe s = false) (hb : stoppedB s = false)
    (hr : (relayOn s && role s == 2) = false) : doProfileEvaluation s = evaluate s := by
  simp only [doProfileEvaluation, h, hs, hb, hr, Bool.not_true, Bool.or_self, Bool.false_eq_true, if_false]

/-- Swap time S outside the safe state (R414). -/
theorem doProfileSwapAtS_due {s : State} {p at_ : Nat} (h : s.rly.profile = some (p, at_)) (hs : isSafe s = false) :
    doProfileSwapAtS s = ({ s with rly := { s.rly with profile := none }, ldr := { s.ldr with candSince := upNs s } }
      |> wr LDR_PROF_STAT_CANDIDATE p |> profileOrWait p) := by
  simp only [doProfileSwapAtS, h]
  exact if_neg (by rw [show isSafe { s with rly := { s.rly with profile := none } } = isSafe s from rfl, hs]; exact Bool.false_ne_true)

/-- One step of the search for the lowest index. -/
def lowerOf (m : Option Nat) (i : Nat) : Option Nat := match m with | some j => some (min i j) | none => some i

theorem foldl_lowerOf_some (l : List Nat) : ∀ a, l.foldl lowerOf (some a) = some (l.foldl min a) := by
  induction l with
  | nil => exact fun _ => rfl
  | cons b l ih => exact fun a => (ih (min b a)).trans (by rw [List.foldl_cons, Nat.min_comm])

theorem lowestProfile_eq_min? (ps : List Profile) (ok : Profile → Bool) :
    lowestProfile ps ok = ((ps.filter ok).map (·.index)).min? := by
  show ((ps.filter ok).map (·.index)).foldl lowerOf none = _
  cases (ps.filter ok).map (·.index) with
  | nil => rfl
  | cons a l => exact foldl_lowerOf_some l a

theorem lowestProfile_eq_some {ps : List Profile} {ok : Profile → Bool} {c : Nat} (h : lowestProfile ps ok = some c) :
    (∃ p ∈ ps, p.index = c ∧ ok p = true) ∧ ∀ p ∈ ps, ok p = true → c ≤ p.index := by
  rw [lowestProfile_eq_min?, List.min?_eq_some_iff] at h
  obtain ⟨hmem, hle⟩ := h
  obtain ⟨p, hp, rfl⟩ := List.mem_map.mp hmem
  obtain ⟨hps, hok⟩ := List.mem_filter.mp hp
  exact ⟨⟨p, hps, rfl, hok⟩, fun q hq hokq => hle _ (List.mem_map_of_mem (List.mem_filter.mpr ⟨hq, hokq⟩))⟩

/-- The candidate enters, is of lower index than a current profile that stays, and is the lowest such. -/
theorem candidate_eq_some {ps : List Profile} {mode v cur c : Nat} (h : candidate ps mode v cur = some c) :
    (∃ p ∈ ps, p.index = c ∧ profileEnter mode v p = true) ∧ (currentStays ps mode v cur = true → c < cur) ∧
      ∀ p ∈ ps, profileEnter mode v p = true → (currentStays ps mode v cur = true → p.index < cur) → c ≤ p.index := by
  unfold candidate at h
  split at h
  · next hstay =>
    obtain ⟨⟨p, hp, rfl, hok⟩, hlow⟩ := lowestProfile_eq_some h
    rw [Bool.and_eq_true, decide_eq_true_eq] at hok
    exact ⟨⟨p, hp, rfl, hok.2⟩, fun _ => hok.1,
      fun q hq hen hlt => hlow q hq (by rw [hen, decide_eq_true (hlt hstay)]; rfl)⟩
  · next hstay =>
    obtain ⟨hex, hlow⟩ := lowestProfile_eq_some h
    exact ⟨hex, fun k => absurd k hstay, fun q hq hen _ => hlow q hq hen⟩

/-! ## O30 -/

/-- Settles O30, command by command, and the candidate from the lowest index that qualifies. -/
theorem profileSelection : Obligations.ProfileSelection := by
  refine ⟨fun s v => ⟨_, rfl, doModeSample_counts, fun hc hm => ?_⟩, fun s => ⟨fun h => ?_, fun h => ?_, fun h hs hb hr => ?_,
    fun p at_ h hs => ?_⟩, fun ps mode v cur c h => candidate_eq_some h⟩
  · rw [doModeSample_begins hc hm]
    exact ⟨rfl, rfl, rd_wr_modeRaw _ s⟩
  · exact congrArg _ (if_pos h)
  · exact congrArg _ (if_neg h)
  · exact congrArg _ (doProfileEvaluation_active h hs hb hr)
  · exact congrArg _ (doProfileSwapAtS_due h hs)

end Sys2Proof.Machine

/-! PROOFS. The load of an image: its checks, the records, the cross-field checks, and DRAM training (R61 to R68, R74, R265). -/

namespace Sys2Proof.Machine
open Sys2Proof

/-! ## Header and verification (R61) -/

section
variable {s : State}

theorem doImageHeaderRead_passed (h : s.ldr.phase = .header) (hc : headerCause s s.ldr.slot = none) :
    doImageHeaderRead s = wr LDR_STAT_STATE 2 { s with ldr := { s.ldr with phase := .verify } } := by
  simp only [doImageHeaderRead, h, hc, if_true]

theorem doImageHeaderRead_rejected (h : s.ldr.phase = .header) {c : Nat} (hc : headerCause s s.ldr.slot = some c) :
    doImageHeaderRead s = rejectImage c s := by
  simp only [doImageHeaderRead, h, hc, if_true]

theorem doImageVerified_passed (h : s.ldr.phase = .verify) (hc : bodyCause s s.ldr.slot s.rollback = none) :
    doImageVerified s = wr LDR_STAT_STATE 3 { s with ldr := { s.ldr with phase := .records } } := by
  simp only [doImageVerified, h, hc, if_true]

theorem doImageVerified_rejected (h : s.ldr.phase = .verify) {c : Nat} (hc : bodyCause s s.ldr.slot s.rollback = some c) :
    doImageVerified s = rejectImage c s := by
  simp only [doImageVerified, h, hc, if_true]

/-! ## Records (R63, R66, R74) -/

theorem doRecordsCheck_rom (h : s.ldr.phase = .records) (hs : s.ldr.slot = 2) : doRecordsCheck s = romPattern s := by
  simp only [doRecordsCheck, h, hs, ne_eq, not_true_eq_false, if_false, if_true]

theorem doRecordsCheck_slot (h : s.ldr.phase = .records) (hs : s.ldr.slot ≠ 2) :
    doRecordsCheck s = if owns s .loader || mayTake s .loader then
        let t := s |> takeBank .loader |> freshLoad |> profileHeader
        let u := loadRecords (imageBytes t t.ldr.slot) t
        { u with ldr := { u.ldr with phase := .cross } }
      else waitBank .loader s :=
  (if_neg (not_not_intro h)).trans (if_neg hs)

end

/-! ## What the load report leaves of the loader's records -/

/-- The slot, the profiles and the base set stand, as the load report leaves them. -/
structure SetsKept (s t : State) : Prop where
  slot : t.ldr.slot = s.ldr.slot
  profiles : t.ldr.profiles = s.ldr.profiles
  baseSet : t.ldr.baseSet = s.ldr.baseSet

theorem SetsKept.refl (s : State) : SetsKept s s := ⟨rfl, rfl, rfl⟩

theorem SetsKept.trans {s t u : State} (h : SetsKept s t) (k : SetsKept t u) : SetsKept s u :=
  ⟨k.slot.trans h.slot, k.profiles.trans h.profiles, k.baseSet.trans h.baseSet⟩

theorem SetsKept.of_ldr {s t : State} (h : t.ldr = s.ldr) : SetsKept s t := by
  constructor <;> rw [h]

theorem reportAs_setsKept (n : Nat) (e : Entry) (s : State) : SetsKept s (reportAs n e s) := by
  unfold reportAs
  extract_lets bs l u
  have k : SetsKept s u := by
    simp only [u]
    split
    · exact .of_ldr ((qPut_ev (H := [.regs, .queues, .readPorts, .svcStats, .jnl]) rfl (ev_refl _ s) ..).same (x := .ldr) (by decide))
    · exact ⟨rfl, rfl, rfl⟩
  split
  · exact k.trans (.of_ldr ((journalEntry_ev (H := [.jnl]) rfl (ev_refl _ u) _).same (x := .ldr) (by decide)))
  · exact k

theorem tell_setsKept (e : Entry) (s : State) : SetsKept s (tell e s) := by
  unfold tell
  extract_lets u v l w
  have ku : SetsKept s u := (reportAs_setsKept s.ldr.entries e s).trans ⟨rfl, rfl, rfl⟩
  have kv : SetsKept s v := by
    simp only [v]
    split
    · exact ku.trans (.of_ldr rfl)
    · exact ku
  have kw : SetsKept s w := kv.trans ⟨rfl, rfl, rfl⟩
  split
  · split
    · exact kw.trans (.of_ldr rfl)
    · split
      · exact kw
      · exact kw.trans (.of_ldr rfl)
  · exact kv

theorem recField_setsKept (x : Src) (addr lsb width : Nat) (r : Rng) (v : Nat) (s : State) :
    SetsKept s (recField x addr lsb width r v s).1 := by
  unfold recField clampRec
  extract_lets c
  show SetsKept s (if c = v then _ else _)
  split
  · exact .refl s
  · exact tell_setsKept _ s

theorem profileHeader_setsKept (s : State) : SetsKept s (profileHeader s) := by
  unfold profileHeader
  extract_lets x u count r want keep v
  have kr : SetsKept s r.1 := SetsKept.trans (t := u) ⟨rfl, rfl, rfl⟩ (recField_setsKept _ _ _ _ _ _ u)
  have kv : SetsKept s v := by
    simp only [v]
    split
    · exact kr
    · exact kr.trans (tell_setsKept _ _)
  exact kv.trans ⟨rfl, rfl, rfl⟩

theorem checkServices_setsKept (s : State) : SetsKept s (checkServices s) := by
  unfold checkServices
  extract_lets sets keep gone u
  exact List.foldlRecOn gone _ (motive := SetsKept s) ⟨rfl, rfl, rfl⟩ fun t ht y _ => ht.trans (tell_setsKept _ t)

/-! ## Cross-field checks (R68, R86) -/

/-- The base set after its checks is kept. -/
def noteBase (u : State) : State := { u with ldr := { u.ldr with baseSet := u.cfgB } }

section
variable {s u : State} (h : s.ldr.phase = .cross) (ho : owns s .loader = true)
include h ho

/-- A base set that cannot fit rejects the image. -/
theorem doCrossFieldChecks_rejected {n : Nat} (hr : runStages 0xFF s = (u, some n)) :
    doCrossFieldChecks s = (u |> discardBank |> rejectImage 0x0C) := by
  rw [doCrossFieldChecks, if_pos (by simp [h, ho]), hr]

/-- A base set that fits, with no profile beside it, is the set that the swap brings. -/
theorem doCrossFieldChecks_base (hr : runStages 0xFF s = (u, none)) (hp : u.ldr.profiles = []) :
    doCrossFieldChecks s =
      let t := checkServices (noteBase u)
      loadProfileSet (bootProfile t) { t with ldr := { t.ldr with phase := .swap, swapProfile := bootProfile t } } := by
  have hc : checkProfiles ((noteBase u).ldr.profiles.map (·.index)) (noteBase u) = (noteBase u, none) := by
    rw [show (noteBase u).ldr.profiles = [] from hp]
    rfl
  rw [doCrossFieldChecks, if_pos (by simp [h, ho]), hr]
  change (match checkProfiles ((noteBase u).ldr.profiles.map (·.index)) (noteBase u) with | (s, some _) => _ | (s, none) => _) = _
  rw [hc]

end

theorem setOfProfile_of_nil {s : State} (h : s.ldr.profiles = []) (p : Nat) : setOfProfile s p = s.ldr.baseSet := by
  simp [setOfProfile, h]

/-! ## DRAM training (R265) -/

theorem doLpddrTrained_first {s : State} (h : s.ldr.phase ≠ .held) (ht : s.ldr.trained = false) :
    doLpddrTrained s = each s.ldr.held (fun bs => qPut 1 uLDR (bytesToWords 8 bs))
      { s with ldr := { s.ldr with trained := true, held := [] } } := by
  rw [doLpddrTrained, if_neg (by simp [h, ht])]

/-! ## O32 -/

/-- Settles O32, phase by phase. -/
theorem loadOfAnImage : Obligations.LoadOfAnImage := by
  refine fun s => ⟨fun h => ⟨fun hc => ?_, fun c hc => ?_⟩, fun h => ?_, fun h => ⟨fun hc => ?_, fun c hc => ?_⟩,
    fun h => ⟨fun hs => ?_, fun hs ho hm => ?_, fun hs hm => ?_⟩, fun h ho => ⟨fun u n hr => ?_, fun u hr _ hp => ?_⟩,
    fun h ht => ?_⟩
  · exact congrArg _ (doImageHeaderRead_passed h hc)
  · exact congrArg _ (doImageHeaderRead_rejected h hc)
  · exact congrArg _ (if_neg h)
  · exact congrArg _ (doImageVerified_passed h hc)
  · exact congrArg _ (doImageVerified_rejected h hc)
  · exact congrArg _ (doRecordsCheck_rom h hs)
  · exact congrArg _ ((doRecordsCheck_slot h hs).trans (if_neg (by simp [ho, hm])))
  · have hb : (owns s .loader || mayTake s .loader) = true := by rcases hm with hm | hm <;> simp [hm]
    have hslot : (s |> takeBank .loader |> freshLoad |> profileHeader).ldr.slot = s.ldr.slot := (profileHeader_setsKept _).slot
    refine ⟨_, _, next_congr ((doRecordsCheck_slot h hs).trans (if_pos hb)), rfl, ?_⟩
    rw [← hslot]
  · exact congrArg _ (doCrossFieldChecks_rejected h ho hr)
  · have k := checkServices_setsKept (noteBase u)
    refine ⟨_, next_congr (doCrossFieldChecks_base h ho hr hp), rfl, k.baseSet, ?_⟩
    exact (setOfProfile_of_nil (k.profiles.trans hp) _).trans k.baseSet
  · exact congrArg _ (doLpddrTrained_first h ht)

end Sys2Proof.Machine

/-! PROOFS. Requests for a swap, the epoch on its way to the islands, and the swap's completion (R74 to R80, R87, R421). -/

namespace Sys2Proof.Machine
open Sys2Proof

/-! ## Requests (R74 to R76, R87, R421) -/

section
variable {s : State}

theorem doSwapRequest_profileSelection (h : owns s .profileSelection = true) :
    doSwapRequest .profileSelection s = acceptSwap .profileSelection s.ldr.swapProfile s := if_pos h

theorem doSwapRequest_loader (h : owns s .loader = true) (hp : s.ldr.phase = .swap) (ht : s.ldr.trained = true) :
    doSwapRequest .loader s = loadSwapRequest s := (if_pos h).trans (if_pos ⟨hp, ht⟩)

theorem doSwapRequest_reserveManager (h : owns s .reserveManager = true) :
    doSwapRequest .reserveManager s = checkedSwap .reserveManager s := if_pos h

theorem doSwapRequest_bus {o : Orig} (h : owns s (.bus o) = true) :
    doSwapRequest (.bus o) s = checkedSwap (.bus o) s := if_pos h

theorem doSwapRequest_denied {o : Orig} (ho : o ≠ .t1) (h : owns s (.bus o) = false) :
    doSwapRequest (.bus o) s = deny 0x10020 s := (if_neg (by simp [h])).trans (if_neg ho)

theorem doDiscard_denied {o : Orig} (ho : o ≠ .t1) (h : owns s (.bus o) = false) :
    doDiscard (.bus o) s = deny 0x10024 s := (if_neg (by simp [h])).trans (if_neg ho)

theorem doDiscard_owner {w : Writer} (h : owns s w = true) (hw : w ≠ .reserveManager) : doDiscard w s = discardBank s :=
  (if_pos h).trans (if_neg hw)

theorem doDiscard_reserveManager (h : owns s .reserveManager = true) :
    doDiscard .reserveManager s = replRefused (discardBank s) := (if_pos h).trans (if_pos rfl)

/-- OWNER_TIMEOUT by the owner's code: the loader, profile selection, the reserve manager, and none for a session. -/
theorem doOwnerTimeout_loader (h : rd s LDR_STAT_OWNER = 1) : doOwnerTimeout s =
    discardBank { s with ldr := { s.ldr with phase := if s.ldr.phase = .run then .run else .records } } := if_pos h

theorem doOwnerTimeout_profileSelection (h : rd s LDR_STAT_OWNER = 2) : doOwnerTimeout s = discardBank s :=
  (if_neg (by omega)).trans (if_pos h)

theorem doOwnerTimeout_reserveManager (h : rd s LDR_STAT_OWNER = 3) : doOwnerTimeout s = replRefused (discardBank s) :=
  (if_neg (by omega)).trans ((if_neg (by omega)).trans (if_pos h))

theorem doOwnerTimeout_session (h : rd s LDR_STAT_OWNER = 4) : doOwnerTimeout s = s :=
  (if_neg (by omega)).trans ((if_neg (by omega)).trans (if_neg (by omega)))

/-- The free bank goes to the first writer in the order of R74. -/
theorem doBastingGrant_free (h : bankFree s = true) (hs : isSafe s = false) : doBastingGrant s =
    if Writer.reserveManager ∈ s.ldr.waiting then s |> takeBank .reserveManager |> reserveGranted
    else if Writer.loader ∈ s.ldr.waiting then takeBank .loader s
    else if Writer.profileSelection ∈ s.ldr.waiting then profileSwap (rd s LDR_PROF_STAT_CANDIDATE) s
    else s := by
  simp only [doBastingGrant, h, hs, List.contains_iff_mem, Bool.not_true, Bool.or_self, Bool.false_eq_true, if_false]

theorem doEpochReachesIsland_old {i : Nat} (hi : i < 40) (hp : islPresent s.variant i = true) (he : islandEpoch s i ≠ epochActive s) :
    doEpochReachesIsland i s = checkSwap (kickSlices (adoptBank i (bankOf s (islandEpoch s i))
      { s with islEpoch := sset (fun _ => 0) s.islEpoch i (epochActive s) })) := if_pos ⟨hi, hp, he⟩

end

/-! ## The registers of a swap -/

/-- Every register other than those of the bank's state, the epochs and the loader's events. -/
def notSwapWord (a : Nat) : Prop := a ≠ 0x10000 ∧ a ≠ 0x10004 ∧ a ≠ 0x10040

/-- The registers' fields by which a swap's progress shows. -/
def swapFields : List RF := [LDR_EPOCH_OLD, LDR_EPOCH_ACTIVE, LDR_STAT_SWAP_BUSY, LDR_STAT_OWNER, LDR_EVT_SWAP_DONE]

/-- Each of a list of fields reads the same in two states. -/
def FieldsKept (fs : List RF) (s t : State) : Prop := ∀ f ∈ fs, rd t f = rd s f

section
variable {fs : List RF} {s t u : State}

theorem FieldsKept.refl (fs : List RF) (s : State) : FieldsKept fs s s := fun _ _ => rfl

theorem FieldsKept.trans (h : FieldsKept fs s t) (k : FieldsKept fs t u) : FieldsKept fs s u :=
  fun f hf => (k f hf).trans (h f hf)

theorem FieldsKept.of_eq (hr : t.regs = s.regs) (hc : t.chip = s.chip) : FieldsKept fs s t := fun _ _ => rd_regs hr hc

/-- A write outside the fields' bits. -/
theorem FieldsKept.wr (h : FieldsKept fs s t) {r : RF} {v : Nat} (hr : r.lo ≤ r.hi)
    (hd : ∀ f ∈ fs, f.hi < 32 ∧ (r.addr ≠ f.addr ∨ f.hi < r.lo ∨ r.hi < f.lo)) : FieldsKept fs s (Machine.wr r v t) :=
  fun f hf => (rd_wr_other hr (hd f hf).1 (hd f hf).2).trans (h f hf)

/-- What leaves the swap's words leaves its fields. -/
theorem RegsKept.swapFields (h : RegsKept notSwapWord s t) : FieldsKept swapFields s t := fun f hf => by
  refine h.rd ?_
  simp only [Machine.swapFields, List.mem_cons, List.not_mem_nil, or_false] at hf
  rcases hf with rfl | rfl | rfl | rfl | rfl <;> simp [notSwapWord]

end

theorem notSwapWord_of_le {a : Nat} (h : 0x20000 ≤ a) : notSwapWord a := by unfold notSwapWord; omega

theorem notSwapWord_of_isJnl {a : Nat} (h : isJnl a) : notSwapWord a := by
  simp only [isJnl, isQmx] at h
  unfold notSwapWord
  omega

/-- An error record of a unit whose registers, and whose event bits, lie behind the loader's. -/
theorem recordError_notSwapWord {e : ErrInfo} (hb : 0x20000 ≤ errBase e.unit e.inst) (he : ∀ r ∈ e.evts, 0x20000 ≤ r.addr)
    (s : State) : RegsKept notSwapWord s (recordError e s) := by
  refine (recordError_kept e s).mono fun a h => ?_
  rcases h with (h | ⟨r, hr, rfl⟩) | ⟨hlo, -⟩
  · exact notSwapWord_of_isJnl (.inl h)
  · exact notSwapWord_of_le (he r hr)
  · exact notSwapWord_of_le (hb.trans hlo)

/-! ## An accepted request (R77) -/

/-- The banks change their roles, and the request is noted. -/
def swapBanks (w : Writer) (profile : Nat) (s : State) : State :=
  { s with
    cfgO := s.cfgA, cfgA := s.cfgB
    ldr := { s.ldr with swapBy := w, swapProfile := profile, swapStart := upNs s, swapForced := false } }

/-- The fields that an accepted request writes. -/
def announceSwap (s : State) : State :=
  s |> wr LDR_EPOCH_OLD (epochActive s) |> wr LDR_EPOCH_ACTIVE (nextEpoch s) |> wr LDR_STAT_SWAP_BUSY 1 |> wr LDR_STAT_OWNER 0

/-- What follows from the new active bank: hold rings, demands, peaks and the clocks. -/
def showActiveBank (old : Sparse Word) (s : State) : State :=
  let s := restartHolds old s
  let s := each (List.range (activeSlices s.variant)) (fun l s => wr (HTS_L_BUDGET_DEMAND l) (min (sliceDemand s l) 0xFFFF) s) s
  s |> wr QMX_SPILL_KIB (activeSpill s / 1024) |> notePeaks |> firstSwap

theorem acceptSwap_eq (w : Writer) (p : Nat) (s : State) :
    acceptSwap w p s = showActiveBank s.cfgA (announceSwap (swapBanks w p s)) := rfl

theorem showActiveBank_evolves (old : Sparse Word) (s : State) :
    Evolves [.pins, .regs, .holds, .out] s (showActiveBank old s) :=
  firstSwap_ev rfl (notePeaks_ev rfl (wr_ev rfl (each_ev (restartHolds_ev rfl (ev_refl _ s) old) fun _ _ h => wr_ev rfl h _ _) _ _))

theorem announceSwap_evolves (s : State) : Evolves [.pins, .regs, .holds, .out] s (announceSwap s) :=
  wr_ev rfl (wr_ev rfl (wr_ev rfl (wr_ev rfl (ev_refl _ s) _ _) _ _) _ _) _ _

theorem firstSwap_kept (s : State) : RegsKept notSwapWord s (firstSwap s) := by
  have k : RegsKept notSwapWord s (showClocks s) := (showClocks_kept s).mono fun a h => by unfold notSwapWord; omega
  unfold firstSwap
  extract_lets u
  split
  · exact k
  · exact k.trans (.of_eq rfl rfl)

theorem notePeaks_kept (s : State) : RegsKept notSwapWord s (notePeaks s) :=
  RegsKept.foldl (f := notePeak) (fun t l => (RegsKept.refl _ t).wr (notSwapWord_of_le (by dsimp only; omega))) _ s

theorem showActiveBank_kept (old : Sparse Word) (s : State) : RegsKept notSwapWord s (showActiveBank old s) := by
  unfold showActiveBank
  extract_lets u v
  have hu : RegsKept notSwapWord s u := .of_eq rfl rfl
  have hv : RegsKept notSwapWord u v := .foldl (fun t l => (RegsKept.refl _ t).wr (notSwapWord_of_le (by dsimp only; omega))) _ _
  have hw := (hu.trans hv).wr (r := QMX_SPILL_KIB) (v := activeSpill v / 1024) (notSwapWord_of_le (by decide))
  exact (hw.trans (notePeaks_kept _)).trans (firstSwap_kept _)

theorem epochActive_lt (s : State) : epochActive s < 2 ^ 16 := rd_lt s LDR_EPOCH_ACTIVE

/-- The new epoch follows the old one, the swap is in progress, and the bank has no owner. -/
theorem announceSwap_fields (s : State) : epochOld (announceSwap s) = epochActive s ∧
    epochActive (announceSwap s) = nextEpoch s % 2 ^ 16 ∧ rd (announceSwap s) LDR_STAT_SWAP_BUSY = 1 ∧
    rd (announceSwap s) LDR_STAT_OWNER = 0 := by
  let s1 := wr LDR_EPOCH_OLD (epochActive s) s
  let s2 := wr LDR_EPOCH_ACTIVE (nextEpoch s) s1
  let s3 := wr LDR_STAT_SWAP_BUSY 1 s2
  have old1 : rd s1 LDR_EPOCH_OLD = epochActive s :=
    (rd_wr_same (by decide) (by decide)).trans (Nat.mod_eq_of_lt (epochActive_lt s))
  have old2 : rd s2 LDR_EPOCH_OLD = epochActive s := (rd_wr_bits (by decide) (by decide) (by decide)).trans old1
  have act2 : rd s2 LDR_EPOCH_ACTIVE = nextEpoch s % 2 ^ 16 := rd_wr_same (by decide) (by decide)
  have busy3 : rd s3 LDR_STAT_SWAP_BUSY = 1 := rd_wr_same (by decide) (by decide)
  have addr {f : RF} (h : f.addr = 0x10004) : rd (announceSwap s) f = rd s2 f :=
    (rd_wr_addr (by rw [h]; decide)).trans (rd_wr_addr (by rw [h]; decide))
  exact ⟨(addr rfl).trans old2, (addr rfl).trans act2, (rd_wr_bits (by decide) (by decide) (by decide)).trans busy3,
    rd_wr_same (by decide) (by decide)⟩

theorem acceptSwap_banks (w : Writer) (p : Nat) (s : State) :
    Evolves [.pins, .regs, .holds, .out] (swapBanks w p s) (acceptSwap w p s) := by
  rw [acceptSwap_eq]
  exact ev_mono rfl (announceSwap_evolves _) (showActiveBank_evolves _ _)

theorem acceptSwap_fields (w : Writer) (p : Nat) (s : State) : epochOld (acceptSwap w p s) = epochActive s ∧
    epochActive (acceptSwap w p s) = nextEpoch s % 2 ^ 16 ∧ isSet (acceptSwap w p s) LDR_STAT_SWAP_BUSY = true ∧
    rd (acceptSwap w p s) LDR_STAT_OWNER = 0 := by
  have k : FieldsKept swapFields (announceSwap (swapBanks w p s)) (acceptSwap w p s) := by
    rw [acceptSwap_eq]
    exact (showActiveBank_kept _ _).swapFields
  obtain ⟨hold, hact, hbusy, howner⟩ := announceSwap_fields (swapBanks w p s)
  exact ⟨(k _ (by decide)).trans hold, (k _ (by decide)).trans hact, isSet_of_rd (n := 1) ((k _ (by decide)).trans hbusy),
    (k _ (by decide)).trans howner⟩

/-! ## Completion (R80) -/

theorem fallbackBit_addr (i : Nat) : (fallbackBit i).addr = 0x30 ∨ (fallbackBit i).addr = 0x34 := by
  unfold fallbackBit
  split
  · exact .inl rfl
  · exact .inr rfl

theorem leaveRing_kept (r : Repl) (s : State) : RegsKept notSwapWord s (leaveRing r s) := by
  have hf (i : Nat) : RegsKept notSwapWord s (wr (fallbackBit i) 0 s) :=
    (RegsKept.refl _ s).wr (by have := fallbackBit_addr i; unfold notSwapWord; omega)
  unfold leaveRing
  split
  · exact hf _
  · split
    · exact hf _
    · exact .refl _ s

theorem retire_kept (P : Nat → Prop) (r : Repl) (s : State) : RegsKept P s (retire r s) := .of_eq rfl rfl

theorem addTotal_kept (P : Nat → Prop) (i n : Nat) (s : State) : RegsKept P s (addTotal i n s) := .of_eq rfl rfl

theorem writeStateArea_kept (P : Nat → Prop) (s : State) : RegsKept P s (writeStateArea s) := by
  unfold writeStateArea
  extract_lets j u
  split <;> exact .of_eq rfl rfl

/-- The books, the journal and the event bit of a replacement that is done. -/
def recordRepl (r : Repl) (s : State) : State :=
  s |> retire r |> (fun s => if r.kind = 0 then showClocks s else s) |> addTotal (5 + r.kind) 1 |> journal 5 (sparePayload r)
    |> writeStateArea |> wr RSV_EVT_REPLACED 1 |> leaveRing r

theorem recordRepl_kept (r : Repl) (s : State) : RegsKept notSwapWord s (recordRepl r s) := by
  let t := (fun s => if r.kind = 0 then showClocks s else s) (retire r s)
  have ht : RegsKept notSwapWord s t := by
    refine (retire_kept _ r s).trans ?_
    simp only [t]
    split
    · exact (showClocks_kept _).mono fun a h => by unfold notSwapWord; omega
    · exact .refl _ _
  have hj := (ht.trans (addTotal_kept _ (5 + r.kind) 1 t)).trans
    ((journal_kept 5 (sparePayload r) _).mono fun _ => notSwapWord_of_isJnl)
  exact ((hj.trans (writeStateArea_kept _ _)).wr (notSwapWord_of_le (by decide))).trans (leaveRing_kept r _)

/-- A replacement that is done is no longer among those refused. -/
def forgetRefused (r : Repl) (s : State) : State :=
  { s with rsv := { s.rsv with
    refused := s.rsv.refused.filter fun x => !(x.kind == r.kind && x.inst == r.inst && x.row == r.row) } }

theorem finishRepl_eq (r : Repl) (s : State) : finishRepl r s =
    let u := forgetRefused r (recordRepl r s)
    if spareLeft u r.kind r.inst then u else recordError ((rsvErr 2 r.kind).setting RSV_EVT_EXHAUSTED) u := rfl

theorem finishRepl_kept (r : Repl) (s : State) : RegsKept notSwapWord s (finishRepl r s) := by
  rw [finishRepl_eq]
  extract_lets u
  have hu : RegsKept notSwapWord s u := (recordRepl_kept r s).trans (.of_eq rfl rfl)
  split
  · exact hu
  · have hb : 0x20000 ≤ errBase uRSV 0 := by decide
    refine hu.trans (recordError_notSwapWord hb (fun f hf => ?_) u)
    rw [List.mem_singleton.mp hf]
    decide

theorem finishReplSwap_kept (s : State) : RegsKept notSwapWord s (finishReplSwap s) := by
  unfold finishReplSwap
  split
  · exact .refl _ s
  · exact RegsKept.trans (t := { s with rsv := { s.rsv with cur := none } }) (.of_eq rfl rfl) (finishRepl_kept _ _)

theorem announceLoaded_fields (s : State) : FieldsKept swapFields s (announceLoaded s) := by
  have hboot : FieldsKept swapFields s (bootRecord s) := by
    unfold bootRecord
    split
    · exact .refl _ s
    · exact .of_eq rfl rfl
  have hrelay (u : State) : FieldsKept swapFields u (relayAtLoaded u) := by
    unfold relayAtLoaded
    split
    · exact (FieldsKept.refl _ u).wr (by decide) (by decide)
    · exact .refl _ u
  let u : State := { bootRecord s with ldr := { (bootRecord s).ldr with loaded := true, loadSwap := false, phase := .run } }
  have hu : FieldsKept swapFields s u := hboot.trans (.of_eq rfl rfl)
  have hstate : FieldsKept swapFields s (wr LDR_STAT_STATE 4 u) := hu.wr (by decide) (by decide)
  exact (hstate.wr (by decide) (by decide)).trans (hrelay _)

/-- The fields that a completion writes first. -/
def closeSwap (s : State) : State :=
  s |> wr LDR_EPOCH_OLD (epochActive s) |> wr LDR_STAT_SWAP_BUSY 0
    |> wr LDR_SWAP_LAST_US (min ((upNs s - s.ldr.swapStart) / 1000) (2 ^ 32 - 1)) |> wr LDR_EVT_SWAP_DONE 1

/-- What a completed swap means to those who asked for it. -/
def reportSwap (by_ : Writer) (s : State) : State :=
  let s := if by_ = .loader ∨ by_ = .profileSelection then wr LDR_STAT_PROFILE s.ldr.swapProfile s else s
  let s := if by_ = .profileSelection then wr LDR_EVT_PROFILE_CHANGED 1 s else s
  let s := if by_ = .reserveManager then finishReplSwap s else s
  if s.ldr.loadSwap then announceLoaded s else s

theorem completeSwap_eq (s : State) : completeSwap s = reportSwap s.ldr.swapBy (closeSwap { s with cfgB := s.cfgA }) := rfl

theorem reportSwap_fields (by_ : Writer) (s : State) : FieldsKept swapFields s (reportSwap by_ s) := by
  unfold reportSwap
  extract_lets s1 s2 s3
  have k1 : FieldsKept swapFields s s1 := by
    simp only [s1]
    split
    · exact (FieldsKept.refl _ s).wr (by decide) (by decide)
    · exact .refl _ s
  have k2 : FieldsKept swapFields s1 s2 := by
    simp only [s2]
    split
    · exact (FieldsKept.refl _ s1).wr (by decide) (by decide)
    · exact .refl _ s1
  have k3 : FieldsKept swapFields s2 s3 := by
    simp only [s3]
    split
    · exact (finishReplSwap_kept s2).swapFields
    · exact .refl _ s2
  have k := (k1.trans k2).trans k3
  split
  · exact k.trans (announceLoaded_fields s3)
  · exact k

/-- The fields of the state that the completion of a swap changes besides the banks. -/
def completionFields : List StateField := [.regs, .ldr, .queues, .readPorts, .svcStats, .jnl, .rsv, .jmem, .freeCount]

theorem reportSwap_evolves {s0 s : State} (by_ : Writer) (h : Evolves completionFields s0 s) :
    Evolves completionFields s0 (reportSwap by_ s) := by
  unfold reportSwap
  extract_lets s1 s2 s3
  have k1 : Evolves completionFields s0 s1 := ev_ite (wr_ev rfl h _ _) h
  have k2 : Evolves completionFields s0 s2 := ev_ite (wr_ev rfl k1 _ _) k1
  have k3 : Evolves completionFields s0 s3 := ev_ite (finishReplSwap_ev rfl k2) k2
  exact ev_ite (announceLoaded_ev rfl k3) k3

/-- Completion copies the active bank into the basting bank, and changes neither after that. -/
theorem completeSwap_banks (s : State) : Evolves completionFields { s with cfgB := s.cfgA } (completeSwap s) := by
  rw [completeSwap_eq]
  refine reportSwap_evolves _ ?_
  exact wr_ev rfl (wr_ev rfl (wr_ev rfl (wr_ev rfl (ev_refl _ _) _ _) _ _) _ _) _ _

theorem closeSwap_fields (s : State) : epochOld (closeSwap s) = epochActive s ∧ epochActive (closeSwap s) = epochActive s ∧
    rd (closeSwap s) LDR_STAT_SWAP_BUSY = 0 ∧ rd (closeSwap s) LDR_EVT_SWAP_DONE = 1 := by
  let s1 := wr LDR_EPOCH_OLD (epochActive s) s
  let s2 := wr LDR_STAT_SWAP_BUSY 0 s1
  have old1 : rd s1 LDR_EPOCH_OLD = epochActive s :=
    (rd_wr_same (by decide) (by decide)).trans (Nat.mod_eq_of_lt (epochActive_lt s))
  have act1 : rd s1 LDR_EPOCH_ACTIVE = epochActive s := rd_wr_bits (by decide) (by decide) (by decide)
  have busy2 : rd s2 LDR_STAT_SWAP_BUSY = 0 := rd_wr_same (by decide) (by decide)
  have rest {f : RF} (h : f.addr ≠ 0x10040 ∧ f.addr ≠ 0x1002C) : rd (closeSwap s) f = rd s2 f :=
    (rd_wr_addr h.1.symm).trans (rd_wr_addr h.2.symm)
  exact ⟨(rest (by decide)).trans ((rd_wr_addr (by decide)).trans old1), (rest (by decide)).trans ((rd_wr_addr (by decide)).trans act1),
    (rest (by decide)).trans busy2, rd_wr_same (by decide) (by decide)⟩

theorem completeSwap_fields (s : State) : epochOld (completeSwap s) = epochActive s ∧ epochActive (completeSwap s) = epochActive s ∧
    isSet (completeSwap s) LDR_STAT_SWAP_BUSY = false ∧ rd (completeSwap s) LDR_EVT_SWAP_DONE = 1 := by
  have k : FieldsKept swapFields (closeSwap { s with cfgB := s.cfgA }) (completeSwap s) := reportSwap_fields _ _
  obtain ⟨hold, hact, hbusy, hdone⟩ := closeSwap_fields { s with cfgB := s.cfgA }
  exact ⟨(k _ (by decide)).trans hold, (k _ (by decide)).trans hact, isSet_of_rd (n := 0) ((k _ (by decide)).trans hbusy),
    (k _ (by decide)).trans hdone⟩

theorem checkSwap_ready {s : State} (h : swapReady s = true) : checkSwap s = completeSwap s := if_pos h

theorem checkSwap_not_ready {s : State} (h : swapReady s = false) : checkSwap s = s := if_neg (by simp [h])

/-! ## What holds a swap up (R80) -/

theorem mem_addNew {x : Nat} (ys : List Nat) : ∀ xs, x ∈ xs ∨ x ∈ ys → x ∈ addNew xs ys := by
  induction ys with
  | nil => exact fun xs h => h.resolve_right List.not_mem_nil
  | cons y ys ih =>
    intro xs h
    refine ih (if xs.contains y then xs else xs ++ [y]) ?_
    by_cases hc : xs.contains y
    · rw [if_pos hc]
      rcases h with h | h
      · exact .inl h
      · rcases List.mem_cons.mp h with rfl | h
        · exact .inl (List.contains_iff_mem.mp hc)
        · exact .inr h
    · rw [if_neg hc]
      rcases h with h | h
      · exact .inl (List.mem_append_left _ h)
      · rcases List.mem_cons.mp h with rfl | h
        · exact .inl (List.mem_append_right _ (List.mem_singleton_self _))
        · exact .inr h

theorem mem_pendContexts {s : State} {f : FrameSt} (hf : f ∈ s.frames) (hi : inFlight f = true) (he : f.epoch = epochOld s)
    (hne : epochOld s ≠ epochActive s) : f.ctx ∈ pendContexts s := by
  unfold pendContexts
  rw [if_neg hne]
  refine mem_addNew _ _ (.inl (mem_addNew _ _ (.inr (List.mem_map_of_mem (List.mem_filter.mpr ⟨hf, ?_⟩)))))
  rw [hi, he, beq_self_eq_true]
  rfl

theorem swapReady_of_mem_pendContexts {s : State} {c : Nat} (h : c ∈ pendContexts s) : swapReady s = false := by
  have he : (pendContexts s).isEmpty = false := List.isEmpty_eq_false_iff.mpr (List.ne_nil_of_mem h)
  simp [swapReady, he]

end Sys2Proof.Machine

/-! PROOFS. The swap timeout closes the old epoch's frames and discards its triggers (R81), and the swap's requests as a whole. -/

namespace Sys2Proof.Machine
open Sys2Proof

/-! ## Closing a frame -/

theorem frameById_some {s : State} {id : Nat} {f : FrameSt} (h : frameById s id = some f) : f ∈ s.frames ∧ f.id = id :=
  ⟨List.mem_of_find?_eq_some h, by simpa using List.find?_some h⟩

theorem frameById_none {s : State} {id : Nat} (h : frameById s id = none) {f : FrameSt} (hf : f ∈ s.frames) : f.id ≠ id := by
  simpa using List.find?_eq_none.mp h f hf

/-- Under one number there is one frame. -/
theorem eq_of_frameId {s : State} (hn : (s.frames.map (·.id)).Nodup) {f g : FrameSt} (hf : f ∈ s.frames) (hg : g ∈ s.frames)
    (h : f.id = g.id) : f = g := List.inj_on_of_nodup_map hn hf hg h

/-- What a port leaves of the frames when it closes one: no new number, and of the open frames those of other numbers. -/
structure FrameClosed (id : Nat) (s t : State) : Prop where
  ids : (t.frames.map (·.id)).Sublist (s.frames.map (·.id))
  isOpen : ∀ g ∈ t.frames, g.isOpen = true → g ∈ s.frames ∧ g.id ≠ id

/-- A SHORT frame at a port touches none of the swap's words. -/
theorem portError_notSwapWord (p code vc dt ctx arg2 : Nat) {r : RF} (hr : 0x20000 ≤ r.addr) (s : State) :
    RegsKept notSwapWord s (recordError ((portErr p code vc dt ctx arg2).setting r) s) := by
  have hb : 0x20000 ≤ errBase uCPT p := by
    have e : errBase uCPT p = 0x100144 + 0x10000 * p := rfl
    omega
  refine recordError_notSwapWord hb (fun f hf => ?_) s
  rw [List.mem_singleton.mp hf]
  exact hr

/-- An open frame is put back closed, a SHORT one is reported, and what is neither open nor in flight is forgotten. -/
theorem closeFrame_open {s : State} {id : Nat} {f : FrameSt} (h : frameById s id = some f) (ho : f.isOpen = true) (extra : Nat)
    (cut : Bool) (vc : Option Nat) : ∃ (f' : FrameSt) (v : State), f'.id = f.id ∧ f'.isOpen = false ∧
      v.frames = (putFrame f' s).frames ∧ RegsKept notSwapWord s v ∧ closeFrame id extra cut vc s = sweepFrames v := by
  simp -zeta only [closeFrame, h, ho, Bool.not_true, Bool.false_eq_true, if_false]
  extract_lets short f' u counted v
  have hcounted : RegsKept notSwapWord s counted :=
    RegsKept.trans (t := u) (.of_eq rfl rfl) ((RegsKept.refl _ u).wr (notSwapWord_of_le (by dsimp only; omega)))
  have hv : v.frames = u.frames ∧ RegsKept notSwapWord s v := by
    simp only [v]
    split
    · split
      · exact ⟨recordError_same _ _ .frames (by decide),
          hcounted.trans (portError_notSwapWord _ _ _ _ _ _ (by dsimp only; omega) _)⟩
      · exact ⟨rfl, hcounted.wr (notSwapWord_of_le (by dsimp only; omega))⟩
    · exact ⟨rfl, .of_eq rfl rfl⟩
  exact ⟨f', v, rfl, rfl, hv.1, hv.2, rfl⟩

theorem frameClosed_of_put {id : Nat} {s t : State} {f' : FrameSt} (hid : f'.id = id) (ho : f'.isOpen = false)
    (ht : t.frames = (putFrame f' s).frames.filter fun f => f.isOpen || inFlight f) : FrameClosed id s t where
  ids := by
    have hmap : (putFrame f' s).frames.map (·.id) = s.frames.map (·.id) := by
      simp only [putFrame, List.map_map]
      refine List.map_congr_left fun g _ => ?_
      simp only [Function.comp_apply]
      split
      · next h => exact h.symm
      · rfl
    rw [ht, ← hmap]
    exact List.filter_sublist.map _
  isOpen := fun g hg hgo => by
    rw [ht] at hg
    obtain ⟨g', hg', rfl⟩ := List.mem_map.mp (List.mem_filter.mp hg).1
    split at hgo
    · rw [ho] at hgo
      exact absurd hgo Bool.false_ne_true
    · next h => rw [if_neg h]; exact ⟨hg', hid ▸ h⟩

theorem closeFrame_frameClosed {s : State} (hn : (s.frames.map (·.id)).Nodup) (id extra : Nat) (cut : Bool) (vc : Option Nat) :
    FrameClosed id s (closeFrame id extra cut vc s) := by
  cases h : frameById s id with
  | none =>
    simp only [closeFrame, h]
    exact ⟨.refl _, fun g hg _ => ⟨hg, frameById_none h hg⟩⟩
  | some f =>
    obtain ⟨hf, hid⟩ := frameById_some h
    by_cases ho : f.isOpen = true
    · obtain ⟨f', v, hid', ho', hv, -, e⟩ := closeFrame_open h ho extra cut vc
      rw [e]
      exact frameClosed_of_put (hid'.trans hid) ho' (congrArg (List.filter _) hv)
    · simp only [closeFrame, h, ho]
      refine ⟨.refl _, fun g hg hgo => ⟨hg, fun e => ho ?_⟩⟩
      rw [eq_of_frameId hn hf hg (hid.trans e.symm)]
      exact hgo

theorem closeFrame_kept (id extra : Nat) (cut : Bool) (vc : Option Nat) (s : State) :
    RegsKept notSwapWord s (closeFrame id extra cut vc s) := by
  cases h : frameById s id with
  | none => simp only [closeFrame, h]; exact .refl _ s
  | some f =>
    by_cases ho : f.isOpen = true
    · obtain ⟨f', v, -, -, -, hv, e⟩ := closeFrame_open h ho extra cut vc
      rw [e]
      exact hv.trans (.of_eq rfl rfl)
    · simp only [closeFrame, h, ho]
      exact .refl _ s

/-! ## Closing the old epoch's frames (R81) -/

/-- The frames of an epoch that are open at a camera port. -/
def openOf (old : Nat) (s : State) : List FrameSt := s.frames.filter fun f => f.isOpen && f.epoch == old && f.port < 20

/-- The ports close a list of frames as SHORT. -/
def closeShort (fs : List FrameSt) (s : State) : State := each fs (fun f s => closeFrame f.id 0 true (some (frameVc s f)) s) s

theorem closeShort_cons (f : FrameSt) (fs : List FrameSt) (s : State) :
    closeShort (f :: fs) s = closeShort fs (closeFrame f.id 0 true (some (frameVc s f)) s) := rfl

theorem closeShort_kept (fs : List FrameSt) (s : State) : RegsKept notSwapWord s (closeShort fs s) :=
  RegsKept.foldl (f := fun s (f : FrameSt) => closeFrame f.id 0 true (some (frameVc s f)) s) (fun _ _ => closeFrame_kept ..) fs s

theorem closeShort_evolves (fs : List FrameSt) (s : State) :
    Evolves [.regs, .queues, .readPorts, .svcStats, .jnl, .frames] s (closeShort fs s) :=
  each_ev (ev_refl _ s) fun _ _ h => closeFrame_ev rfl h ..

/-- A frame that is open afterwards was there before, and is none of those closed. -/
theorem isOpen_closeShort (fs : List FrameSt) : ∀ (s : State), (s.frames.map (·.id)).Nodup →
    ∀ g ∈ (closeShort fs s).frames, g.isOpen = true → g ∈ s.frames ∧ ∀ f ∈ fs, g.id ≠ f.id := by
  induction fs with
  | nil => exact fun s _ g hg _ => ⟨hg, fun f hf => absurd hf List.not_mem_nil⟩
  | cons f fs ih =>
    intro s hn g hg hgo
    have hc := closeFrame_frameClosed hn f.id 0 true (some (frameVc s f))
    rw [closeShort_cons] at hg
    obtain ⟨hmem, hne⟩ := ih _ (hc.ids.nodup hn) g hg hgo
    obtain ⟨hs, hf⟩ := hc.isOpen g hmem hgo
    exact ⟨hs, List.forall_mem_cons.mpr ⟨hf, hne⟩⟩

/-- No frame of the epoch is left open at a camera port. -/
theorem port_of_open_closeShort {s : State} (hn : (s.frames.map (·.id)).Nodup) {old : Nat} {g : FrameSt}
    (hg : g ∈ (closeShort (openOf old s) s).frames) (hgo : g.isOpen = true) (he : g.epoch = old) : 20 ≤ g.port := by
  obtain ⟨hs, hne⟩ := isOpen_closeShort _ s hn g hg hgo
  by_contra hp
  exact hne g (List.mem_filter.mpr ⟨hs, by simp [hgo, he]; omega⟩) rfl

/-! ## Discarding the old epoch's triggers (R81) -/

theorem trig_dropTrigger (p q : Nat) (s : State) :
    (camOf (dropTrigger p s) q).trig = if p = q then none else (camOf s q).trig := by
  have e : (dropTrigger p s).cams = (setCam p { camOf s p with trig := none } s).cams :=
    (trigErr_ev (H := [.regs, .queues, .readPorts, .svcStats, .jnl]) rfl (ev_refl _ _) _ _ _).same (x := .cams) (by decide)
  rw [camOf_congr e, camOf_setCam]
  split <;> rfl

theorem trig_each_dropTrigger (ps : List Nat) (q : Nat) : ∀ s : State,
    (camOf (each ps dropTrigger s) q).trig = if q ∈ ps then none else (camOf s q).trig := by
  induction ps with
  | nil => exact fun s => rfl
  | cons p ps ih =>
    intro s
    refine (ih (dropTrigger p s)).trans ?_
    rw [trig_dropTrigger]
    by_cases hq : q ∈ ps
    · simp [hq]
    · simp [hq, eq_comm]

/-- A trigger that the old epoch's discarding leaves is of another epoch, or waits for no frame start. -/
theorem trig_of_oldTriggers_dropped {s : State} {p : Nat} (hp : p < 20) {g : TrigSt}
    (h : (camOf (each (oldTriggers s) dropTrigger s) p).trig = some g) : g.epoch ≠ epochOld s ∨ waitsForStart g = false := by
  rw [trig_each_dropTrigger] at h
  split at h
  · exact absurd h (by simp)
  · next hno =>
    by_contra hc
    rw [not_or, not_not, Bool.not_eq_false] at hc
    refine hno (List.mem_filter.mpr ⟨List.mem_range.mpr hp, ?_⟩)
    simp only [h, hc.1, hc.2, beq_self_eq_true, Bool.and_self]

/-! ## SWAP_TIMEOUT (R81) -/

/-- The timeout has begun to act: the ports have closed the old epoch's frames. -/
def oldFramesClosed (s : State) : State :=
  closeShort (openOf (epochOld s) s) { s with ldr := { s.ldr with swapForced := true } }

/-- The state in which the swap timeout has acted. -/
def forceSwap (s : State) : State :=
  let u := oldFramesClosed s
  let ps := oldTriggers u
  let v := each ps dropTrigger u
  let n := (openOf (epochOld s) s).length + ps.length
  if n = 0 then v else v |> addSat LDR_SWAP_FORCED_COUNT n |> wr LDR_EVT_SWAP_FORCED 1

theorem doSwapTimeout_eq {s : State} (hb : isSet s LDR_STAT_SWAP_BUSY = true) (hf : s.ldr.swapForced = false) :
    doSwapTimeout s = checkSwap (kickSlices (forceSwap s)) := if_neg (by simp [hb, hf])

theorem doSwapTimeout_idle {s : State} (hb : isSet s LDR_STAT_SWAP_BUSY = false) : doSwapTimeout s = s := if_pos (by simp [hb])

theorem epochOld_oldFramesClosed (s : State) : epochOld (oldFramesClosed s) = epochOld s :=
  (closeShort_kept _ _).rd (r := LDR_EPOCH_OLD) (by simp [notSwapWord])

theorem swapForced_oldFramesClosed (s : State) : (oldFramesClosed s).ldr.swapForced = true :=
  congrArg LdrSt.swapForced ((closeShort_evolves _ _).same (x := .ldr) (by decide))

theorem oldTriggersDropped_evolves (u : State) :
    Evolves [.regs, .queues, .readPorts, .svcStats, .jnl, .cams] u (each (oldTriggers u) dropTrigger u) :=
  each_ev (ev_refl _ u) fun p _ h => dropTrigger_ev rfl h p

/-- Counting what the timeout has forced changes registers only. -/
theorem forceSwap_evolves (s : State) :
    Evolves [.regs] (each (oldTriggers (oldFramesClosed s)) dropTrigger (oldFramesClosed s)) (forceSwap s) :=
  ev_ite (ev_refl _ _) (wr_ev rfl (addSat_ev rfl (ev_refl _ _) _ _) _ _)

theorem forceSwap_swapForced (s : State) : (forceSwap s).ldr.swapForced = true :=
  calc (forceSwap s).ldr.swapForced
    _ = (each (oldTriggers (oldFramesClosed s)) dropTrigger (oldFramesClosed s)).ldr.swapForced :=
      congrArg LdrSt.swapForced ((forceSwap_evolves s).same (x := .ldr) (by decide))
    _ = (oldFramesClosed s).ldr.swapForced :=
      congrArg LdrSt.swapForced ((oldTriggersDropped_evolves _).same (x := .ldr) (by decide))
    _ = true := swapForced_oldFramesClosed s

theorem forceSwap_trig {s : State} {p : Nat} (hp : p < 20) {g : TrigSt} (h : (camOf (forceSwap s) p).trig = some g) :
    g.epoch ≠ epochOld s ∨ waitsForStart g = false := by
  rw [camOf_congr ((forceSwap_evolves s).same (x := .cams) (by decide))] at h
  rw [← epochOld_oldFramesClosed s]
  exact trig_of_oldTriggers_dropped hp h

theorem forceSwap_frames (s : State) : (forceSwap s).frames = (oldFramesClosed s).frames :=
  ((forceSwap_evolves s).same (x := .frames) (by decide)).trans ((oldTriggersDropped_evolves _).same (x := .frames) (by decide))

theorem forceSwap_open {s : State} (hn : (s.frames.map (·.id)).Nodup) {f : FrameSt} (hf : f ∈ (forceSwap s).frames)
    (ho : f.isOpen = true) (he : f.epoch = epochOld s) : 20 ≤ f.port := by
  rw [forceSwap_frames] at hf
  exact port_of_open_closeShort (s := { s with ldr := { s.ldr with swapForced := true } }) hn hf ho he

/-! ## O29 -/

/-- Settles O29, from the requests, the completion of a swap and the swap timeout. -/
theorem swapRequests : Obligations.SwapRequests := by
  refine ⟨⟨fun s => ⟨fun h => ?_, fun h hp ht => ?_, fun h => ?_, fun o ho => ⟨fun h => ?_, fun h => ⟨?_, ?_⟩⟩, fun w h hw => ?_,
      fun h => ?_, fun h => ?_, fun h => ?_, fun h => ?_, fun h => ?_, fun h hs => ?_⟩, fun s w p => ?_⟩,
    fun s i hi hp he => ?_, fun s h => ?_, fun s h => checkSwap_not_ready h, fun s f hf hi he hne => ?_, fun s hb hf => ?_,
    fun s hb => ?_⟩
  · exact next_congr (doSwapRequest_profileSelection h)
  · exact next_congr (doSwapRequest_loader h hp ht)
  · exact next_congr (doSwapRequest_reserveManager h)
  · exact next_congr (doSwapRequest_bus h)
  · exact next_congr (doSwapRequest_denied ho h)
  · exact next_congr (doDiscard_denied ho h)
  · exact next_congr (doDiscard_owner h hw)
  · exact next_congr (doDiscard_reserveManager h)
  · exact next_congr (doOwnerTimeout_loader h)
  · exact next_congr (doOwnerTimeout_profileSelection h)
  · exact next_congr (doOwnerTimeout_reserveManager h)
  · exact next_congr (doOwnerTimeout_session h)
  · rw [exec_bastingGrant, execBastingGrant, doBastingGrant_free h hs]
    exact ⟨fun hr => congrArg _ (if_pos hr), fun hr hl => congrArg _ ((if_neg hr).trans (if_pos hl)),
      fun hr hl hq => congrArg _ ((if_neg hr).trans ((if_neg hl).trans (if_pos hq)))⟩
  · have k := acceptSwap_banks w p s
    obtain ⟨hold, hact, hbusy, howner⟩ := acceptSwap_fields w p s
    exact ⟨k.same (x := .cfgO) (by decide), k.same (x := .cfgA) (by decide), k.same (x := .cfgB) (by decide),
      k.same (x := .liveA) (by decide), k.same (x := .liveB) (by decide), hold, hact, hbusy, howner,
      k.same (x := .islEpoch) (by decide), k.same (x := .frames) (by decide)⟩
  · exact next_congr (doEpochReachesIsland_old hi hp he)
  · rw [checkSwap_ready h]
    have k := completeSwap_banks s
    exact ⟨k.same (x := .cfgB) (by decide), k.same (x := .cfgA) (by decide), completeSwap_fields s⟩
  · exact swapReady_of_mem_pendContexts (mem_pendContexts hf hi he hne)
  · exact ⟨forceSwap s, _, next_congr (doSwapTimeout_eq hb hf), rfl, forceSwap_swapForced s, fun p hp g hg => forceSwap_trig hp hg,
      fun hn f hf ho he => forceSwap_open hn hf ho he⟩
  · exact next_congr (doSwapTimeout_idle hb)

end Sys2Proof.Machine

/-! PROOFS. Frame starts and frame ends of the camera ports, and the frame counter (R96, R100, R101, R103, R104, R106, R110). -/

namespace Sys2Proof.Machine
open Sys2Proof

/-! ## Flags of a packet -/

/-- The flags of a good packet stay as they are, with retransmission or without. -/
@[simp] theorem linkFlags_good (s : State) (p : Nat) : linkFlags s p {} = {} := ite_self _

@[simp] theorem linkFlags_hdrBad (s : State) (p : Nat) (f : PktFlags) : (linkFlags s p f).hdrBad = f.hdrBad := by
  unfold linkFlags
  split <;> rfl

/-- No packet is lost by a retransmission that the port does not have (R91). -/
theorem linkFlags_rtxFail {s : State} {p : Nat} {f : PktFlags} (h : f.rtxFail = false) : (linkFlags s p f).rtxFail = false := by
  unfold linkFlags
  split
  · exact h
  · rfl

@[simp] theorem countRtx_good (p : Nat) (s : State) : countRtx p {} s = s := rfl

/-- An uncorrectable header that retransmission did not lose counts HDR and records error 0x01 (R96). -/
theorem lostPacket_header {f : PktFlags} (h : f.rtxFail = false) (p vc dt : Nat) (s : State) : lostPacket p vc dt f s =
    (s |> inc (CPT_PKT_ERR_HDR p) |> recordError ((portErr p 0x01 0 0 noCtx 0).setting (CPT_EVT_PKT_ERR p))) :=
  if_neg (by simp [h])

/-! ## Frame starts -/

/-- Valid entries of the VC, under the epoch that the port's island holds. -/
def entriesHere (s : State) (p vc : Nat) : List Nat := entriesOnVc s (islandEpoch s (islCP p)) p vc

/-- One of them feeds an enabled context. -/
def feedsEnabled (s : State) (p vc : Nat) : Bool :=
  (entriesHere s p vc).any fun e => ctxEnabled s (islandEpoch s (islCP p)) (mapCtx s (islandEpoch s (islCP p)) p e)

section
variable {s : State} {p vc : Nat}

theorem entriesHere_eq : entriesHere s p vc = entriesOnVc s (islandEpoch s (islCP p)) p vc := rfl

theorem feedsEnabled_eq : feedsEnabled s p vc =
    (entriesHere s p vc).any fun e => ctxEnabled s (islandEpoch s (islCP p)) (mapCtx s (islandEpoch s (islCP p)) p e) := rfl

theorem feedsEnabled_of_exists (h : ∃ e ∈ entriesOnVc s (islandEpoch s (islCP p)) p vc,
    ctxEnabled s (islandEpoch s (islCP p)) (mapCtx s (islandEpoch s (islCP p)) p e) = true) : feedsEnabled s p vc = true :=
  List.any_eq_true.mpr h

theorem feedsEnabled_eq_false (h : ∀ e ∈ entriesOnVc s (islandEpoch s (islCP p)) p vc,
    ctxEnabled s (islandEpoch s (islCP p)) (mapCtx s (islandEpoch s (islCP p)) p e) = false) : feedsEnabled s p vc = false :=
  List.any_eq_false.mpr fun e he => by simp [h e he]

theorem entriesHere_ne_nil (h : feedsEnabled s p vc = true) : entriesHere s p vc ≠ [] := by
  intro hn
  simp [feedsEnabled, hn] at h

theorem triggeredContexts_none (h : (camOf s p).trig = none) : triggeredContexts s p vc = [] := by
  simp only [triggeredContexts, h]

theorem doFrameStart_refused (ha : accepting s p = false) (fn : Nat) (f : PktFlags) : doFrameStart p vc fn f s = s :=
  if_pos (by simp [ha])

theorem doFrameEnd_refused (ha : accepting s p = false) (f : PktFlags) : doFrameEnd p vc f s = s := if_pos (by simp [ha])

theorem doLongPacket_refused (ha : accepting s p = false) (dt : Nat) (payload : List Nat) (f : PktFlags) :
    doLongPacket p vc dt payload f s = s :=
  if_pos (by simp [ha])

section
variable (ha : accepting s p = true)
include ha

/-- A good frame start where no trigger waits (R96, R101). -/
theorem doFrameStart_good (ht : (camOf s p).trig = none) (fn : Nat) :
    doFrameStart p vc fn {} s =
      if 16 ≤ vc ∨ entriesHere s p vc = [] then unmapped p vc 0 s
      else if feedsEnabled s p vc = true then startFrames p vc (fn % 2 ^ 16) s
      else inc (CPT_DISC_CTX_OFF p) s := by
  simp only [doFrameStart, linkFlags_good, countRtx_good, ha, triggeredContexts_none ht, ← entriesHere_eq, ← feedsEnabled_eq]
  cases feedsEnabled s p vc <;> simp

/-- A good frame end (R96, R103, R134). -/
theorem doFrameEnd_good :
    doFrameEnd p vc {} s =
      if endingFrames s p vc ≠ [] then parkPort p ((endingFrames s p vc).foldl (endParts p vc) s)
      else if 16 ≤ vc ∨ entriesHere s p vc = [] then unmapped p vc 1 s
      else if feedsEnabled s p vc = true then s
      else inc (CPT_DISC_CTX_OFF p) s := by
  simp only [doFrameEnd, linkFlags_good, countRtx_good, ha, ← entriesHere_eq, ← feedsEnabled_eq]
  simp

theorem doFrameStart_header {f : PktFlags} (hb : f.hdrBad = true) (hr : f.rtxFail = false) (fn : Nat) :
    doFrameStart p vc fn f s =
      (s |> inc (CPT_PKT_ERR_HDR p) |> recordError ((portErr p 0x01 0 0 noCtx 0).setting (CPT_EVT_PKT_ERR p))) := by
  simp [doFrameStart, ha, hb, lostPacket_header (linkFlags_rtxFail hr)]

theorem doFrameEnd_header {f : PktFlags} (hb : f.hdrBad = true) (hr : f.rtxFail = false) :
    doFrameEnd p vc f s =
      (s |> inc (CPT_PKT_ERR_HDR p) |> recordError ((portErr p 0x01 0 0 noCtx 0).setting (CPT_EVT_PKT_ERR p))) := by
  simp [doFrameEnd, ha, hb, lostPacket_header (linkFlags_rtxFail hr)]

end
end

/-! ## O11 -/

/-- Settles O11, packet by packet, by the branches of a good frame start and a good frame end. -/
theorem sensorFramePackets : Obligations.SensorFramePackets := by
  intro s p vc fn hp
  refine ⟨fun ha => ⟨fun ht hv h => ?_, fun ht h => ?_, fun ht hv hne h => ?_, fun h => ?_,
    fun hn => ⟨fun hv h => ?_, fun h => ?_, fun hv hne h => ?_⟩, fun f hb hr => ⟨?_, ?_⟩⟩,
    fun ha dt payload f => ⟨?_, ?_, ?_⟩⟩
  · have hf := feedsEnabled_of_exists h
    exact next_of_portExists hp (by simp [doFrameStart_good ha ht, hf, entriesHere_ne_nil hf, Nat.not_le.mpr hv])
  · exact next_of_portExists hp (congrArg _ ((doFrameStart_good ha ht fn).trans (if_pos (.inr h))))
  · exact next_of_portExists hp (by simp [doFrameStart_good ha ht, feedsEnabled_eq_false h, entriesHere, hne, Nat.not_le.mpr hv])
  · exact next_of_portExists hp (congrArg _ ((doFrameEnd_good ha).trans (if_pos h)))
  · have hf := feedsEnabled_of_exists h
    exact next_of_portExists hp (by simp [doFrameEnd_good ha, hn, hf, entriesHere_ne_nil hf, Nat.not_le.mpr hv])
  · exact next_of_portExists hp (congrArg _ ((doFrameEnd_good ha).trans ((if_neg (by simp [hn])).trans (if_pos h))))
  · exact next_of_portExists hp (by simp [doFrameEnd_good ha, hn, feedsEnabled_eq_false h, entriesHere, hne, Nat.not_le.mpr hv])
  · exact next_of_portExists hp (congrArg _ (doFrameStart_header ha hb hr fn))
  · rw [exec_frameEndPacket, execFrameEndPacket, exec_frameStartPacket, execFrameStartPacket, doFrameEnd_header ha hb hr,
      doFrameStart_header ha hb hr]
  · exact next_of_portExists hp (congrArg _ (doFrameStart_refused ha fn f))
  · exact next_of_portExists hp (congrArg _ (doFrameEnd_refused ha f))
  · exact next_of_portExists hp (doLongPacket_refused ha dt payload f)

/-! ## The frame counter (R101) -/

theorem u32_join (h : Nat) {l : Nat} (hl : l < 2 ^ 16) :
    u32 (h * 2 ^ 16 + l) % 2 ^ 16 = l ∧ u32 (h * 2 ^ 16 + l) / 2 ^ 16 = h % 2 ^ 16 := by
  unfold u32
  omega

/-- The counter after a frame number from 1 up: the number below, the high half carried where the number has not grown. -/
theorem nextCounter_of_ne_zero (old : Nat) {fn : Nat} (h : fn ≠ 0) :
    nextCounter old fn = (u32 ((old / 2 ^ 16 + if fn ≤ old % 2 ^ 16 then 1 else 0) * 2 ^ 16 + fn),
      fn ≠ old % 2 ^ 16 + 1 && fn ≠ 1) :=
  if_neg h

/-- Settles O12, by the two halves of the counter. -/
theorem frameCounterExtends : Obligations.FrameCounterExtends := by
  intro old fn _ hfn
  refine ⟨fun h => ?_, if_pos rfl⟩
  rw [nextCounter_of_ne_zero old h]
  obtain ⟨hlow, hhigh⟩ := u32_join (old / 2 ^ 16 + if fn ≤ old % 2 ^ 16 then 1 else 0) hfn
  exact ⟨hlow, hhigh, by simp⟩

end Sys2Proof.Machine

/-! PROOFS. Long packets: lines within and beyond LINES, and the check of a line (R94, R96, R97, R102, R103). -/

namespace Sys2Proof.Machine
open Sys2Proof

/-! ## Long packets -/

theorem mapLines_liveRefresh (c ep p e : Nat) (s : State) : mapLines (liveRefresh c s) ep p e = mapLines s ep p e := rfl

section
variable {s : State} {p vc dt : Nat} (payload : List Nat) (ha : accepting s p = true) (h2 : dt ≠ 2) (h3 : dt ≠ 3)
include ha h2 h3

theorem doLongPacket_within {f : FrameSt} {x : Part} (h : partFor s p vc dt = some (f, x)) (hl : x.got < mapLines s f.epoch p x.e) :
    doLongPacket p vc dt payload {} s = lineWithin p vc dt payload f x {} (liveRefresh f.ctx s) := by
  simp [doLongPacket, ha, h2, h3, h, mapLines_liveRefresh, Nat.not_le.mpr hl]

theorem doLongPacket_beyond {f : FrameSt} {x : Part} (h : partFor s p vc dt = some (f, x)) (hl : mapLines s f.epoch p x.e ≤ x.got) :
    doLongPacket p vc dt payload {} s = lineBeyond p vc dt f x {} (liveRefresh f.ctx s) := by
  simp [doLongPacket, ha, h2, h3, h, mapLines_liveRefresh, hl]

theorem doLongPacket_unmapped (h : partFor s p vc dt = none)
    (hm : ∀ e ∈ entriesOnVc s (islandEpoch s (islCP p)) p vc, mapDt s (islandEpoch s (islCP p)) p e ≠ dt) :
    doLongPacket p vc dt payload {} s = unmapped p vc dt s := by
  have hf : (entriesOnVc s (islandEpoch s (islCP p)) p vc).find? (fun e => mapDt s (islandEpoch s (islCP p)) p e == dt) = none := by
    simpa using hm
  simp [doLongPacket, ha, h2, h3, h, hf, countCrc]

end

/-! ## The check of a line -/

/-- The pixels that arrived of a line: those unpacked, cut where the port had to drop the rest (R94). -/
def arrivedPx (dt : Nat) (payload : List Nat) (pf : PktFlags) : List Nat :=
  match pf.keep with
  | some n => (unpack dt payload.length payload).take n
  | none => unpack dt payload.length payload

def lineShort (want dt : Nat) (payload : List Nat) (pf : PktFlags) : Bool :=
  pf.keep.isSome || decide ((arrivedPx dt payload pf).length < want)

def lineLong (want dt : Nat) (payload : List Nat) (pf : PktFlags) : Bool :=
  !pf.keep.isSome && decide (want < (arrivedPx dt payload pf).length)

/-- The status bits of a line's length. -/
def lengthFlags (short long : Bool) : Nat := bit short * 2 + bit long * 4

/-- A line cut or filled up to PIXELS (R103). -/
def fittedPx (want fill : Nat) (px : List Nat) : List Nat := px.take want ++ List.replicate (want - px.length) fill

theorem fittedPx_length (want fill : Nat) (px : List Nat) : (fittedPx want fill px).length = want := by
  simp only [fittedPx, List.length_append, List.length_take, List.length_replicate]
  omega

/-- The status bits of a line with nothing, CRC_BAD, or CRC_BAD and fill beside its length. -/
theorem hasBit_lengthFlags (short long : Bool) {n : Nat} (hn : n = 0 ∨ n = 8 ∨ n = 9) :
    hasBit (lengthFlags short long + n) 1 = short ∧ hasBit (lengthFlags short long + n) 2 = long ∧
    hasBit (lengthFlags short long + n) 3 = (n != 0) ∧ (n = 0 → hasBit (lengthFlags short long + n) 0 = false) := by
  rcases hn with rfl | rfl | rfl <;> revert short long <;> decide

section
variable {s : State} {f : FrameSt} {x : Part} {dt : Nat} {payload : List Nat} {k : Nat} {pf : PktFlags}

theorem checkLine_crcGood (h : pf.crcBad = false) :
    let want := mapPixels s f.epoch f.port x.e
    checkLine s f x dt payload k pf =
      ⟨fittedPx want (fillPixel s f.epoch f.ctx dt) (arrivedPx dt payload pf),
        lengthFlags (lineShort want dt payload pf) (lineLong want dt payload pf) + 0,
        lineShort want dt payload pf, lineLong want dt payload pf, false, true⟩ :=
  if_pos (by simp [h])

section
variable (h : pf.crcBad = true)
include h

/-- Policy 0 uses the line as it came (R97). -/
theorem checkLine_crcBad_used (hp : cfgE s f.epoch (CPT_MAP_W3_CRC_POLICY f.port x.e) = 0) :
    let want := mapPixels s f.epoch f.port x.e
    checkLine s f x dt payload k pf =
      ⟨fittedPx want (fillPixel s f.epoch f.ctx dt) (arrivedPx dt payload pf),
        lengthFlags (lineShort want dt payload pf) (lineLong want dt payload pf) + 8,
        lineShort want dt payload pf, lineLong want dt payload pf, false, false⟩ :=
  (if_neg (by simp [h])).trans (if_pos hp)

/-- The other policies conceal it by the last good line of its parity or by fill (R97). -/
theorem checkLine_crcBad_concealed (hp : cfgE s f.epoch (CPT_MAP_W3_CRC_POLICY f.port x.e) ≠ 0) :
    let want := mapPixels s f.epoch f.port x.e
    ∃ l n, checkLine s f x dt payload k pf =
        ⟨l, lengthFlags (lineShort want dt payload pf) (lineLong want dt payload pf) + n,
          lineShort want dt payload pf, lineLong want dt payload pf, true, false⟩ ∧
      (n = 8 ∧ (x.good0 = some l ∨ x.good1 = some l) ∨ n = 9 ∧ l = List.replicate want (fillPixel s f.epoch f.ctx dt)) := by
  intro want
  unfold checkLine
  dsimp only
  rw [if_neg (by simp [h]), if_neg hp]
  split
  · next l hl =>
    refine ⟨l, 8, rfl, .inl ⟨rfl, ?_⟩⟩
    split_ifs at hl
    · exact .inl hl
    · exact .inr hl
  · exact ⟨_, 9, rfl, .inr ⟨rfl, rfl⟩⟩

end

/-- Whatever came and whichever policy holds: the length marks are those of what arrived, the line has PIXELS pixels, and it is concealed
with a wrong CRC under another policy than 0 only. -/
theorem checkLine_shape (hkept : ∀ l, x.good0 = some l ∨ x.good1 = some l → l.length = mapPixels s f.epoch f.port x.e) :
    let want := mapPixels s f.epoch f.port x.e
    ∃ l n g, checkLine s f x dt payload k pf =
        ⟨l, lengthFlags (lineShort want dt payload pf) (lineLong want dt payload pf) + n,
          lineShort want dt payload pf, lineLong want dt payload pf,
          pf.crcBad && cfgE s f.epoch (CPT_MAP_W3_CRC_POLICY f.port x.e) != 0, g⟩ ∧
      l.length = want ∧ (n = 0 ∨ n = 8 ∨ n = 9) ∧ (n != 0) = pf.crcBad := by
  intro want
  cases hb : pf.crcBad with
  | false => exact ⟨_, 0, true, checkLine_crcGood hb, fittedPx_length .., .inl rfl, rfl⟩
  | true =>
    by_cases hp : cfgE s f.epoch (CPT_MAP_W3_CRC_POLICY f.port x.e) = 0
    · exact ⟨_, 8, false, by rw [checkLine_crcBad_used hb hp, hp]; rfl, fittedPx_length .., .inr (.inl rfl), rfl⟩
    · rw [Bool.true_and, bne_iff_ne.mpr hp]
      obtain ⟨l, n, e, ⟨rfl, hl⟩ | ⟨rfl, rfl⟩⟩ := checkLine_crcBad_concealed (dt := dt) (payload := payload) (k := k) hb hp
      · exact ⟨l, 8, false, e, hkept l hl, .inr (.inl rfl), rfl⟩
      · exact ⟨_, 9, false, e, List.length_replicate, .inr (.inr rfl), rfl⟩

theorem lineShort_uncut (h : pf.keep = none) (want : Nat) :
    lineShort want dt payload pf = true ↔ (unpack dt payload.length payload).length < want := by
  simp [lineShort, arrivedPx, h]

theorem lineLong_uncut (h : pf.keep = none) (want : Nat) :
    lineLong want dt payload pf = true ↔ want < (unpack dt payload.length payload).length := by
  simp [lineLong, arrivedPx, h]

/-- A line whose excess the port dropped is short and not long (R94). -/
theorem lineShort_cut (h : pf.keep ≠ none) (want : Nat) :
    lineShort want dt payload pf = true ∧ lineLong want dt payload pf = false := by
  simp [lineShort, lineLong, Option.isSome_iff_ne_none.mpr h]

end

/-! ## O13 -/

/-- Settles O13, by the branches of a good long packet and the shape of a checked line. -/
theorem sensorLines : Obligations.SensorLines := by
  refine ⟨fun s p vc dt payload hp ha h2 h3 => ⟨fun f x h => ⟨fun hl => ?_, fun hl => ?_⟩, fun h hm => ?_⟩, ?_⟩
  · exact next_of_portExists hp (doLongPacket_within payload ha h2 h3 h hl)
  · exact next_of_portExists hp (doLongPacket_beyond payload ha h2 h3 h hl)
  · exact next_of_portExists hp (doLongPacket_unmapped payload ha h2 h3 h hm)
  · intro s f x dt payload k pf want policy c hkept
    obtain ⟨l, n, g, e, hlen, hn, hcrc⟩ := checkLine_shape (dt := dt) (payload := payload) (k := k) (pf := pf) hkept
    obtain ⟨h1, h2, h3, h0⟩ := hasBit_lengthFlags (lineShort want dt payload pf) (lineLong want dt payload pf) hn
    rw [show c = _ from e]
    refine ⟨hlen, fun hk => ⟨lineShort_uncut hk want, lineLong_uncut hk want⟩, fun hk => lineShort_cut hk want, h1, h2,
      h3.trans hcrc, rfl, fun hb => h0 ?_⟩
    simpa [hb] using hcrc

end Sys2Proof.Machine

/-! PROOFS. The link of a port: frame timeouts, loss and return of lock, its configuration (R105, R107, R110, R120). -/

namespace Sys2Proof.Machine
open Sys2Proof

/-! ## Frame timeouts -/

/-- A silent frame is counted and recorded; it is closed, on a local port by link loss (R105). -/
theorem doFrameTimeout_open {s : State} {p c : Nat} {f : FrameSt} (h : (openFrames s p).find? (fun f => f.ctx == c) = some f) :
    doFrameTimeout p c s = parkPort p
      (let u := s |> inc (CPT_LINK_CNT_FRAME_TMO p) |> recordError (portErr p 0x08 (frameVc s f) 0 c f.fc)
       if isAphy p = true then closeFrame f.id 0 true none u else linkLoss p u) := by
  simp only [doFrameTimeout, h]

/-! ## Loss and return of lock -/

section
variable {s : State} {p : Nat}

theorem doLockLost_locked (ha : isAphy p = true) (hl : isSet s (CPT_STATE_LOCK p) = true) :
    doLockLost p s = (s |> unlock p |> fun s => setCam p { camOf s p with losing := true } s) :=
  if_pos (by simp [ha, hl])

theorem doLinkLoss_losing (h : (camOf s p).losing = true) :
    doLinkLoss p s = (s |> setCam p { camOf s p with losing := false } |> linkLoss p |> parkPort p) :=
  if_pos h

/-- The lock has come back within the 100 µs (R107). -/
theorem doLinkLoss_returned (h : (camOf s p).losing = false) : doLinkLoss p s = s := if_neg (by simp [h])

/-- A script that waits for lock goes on; nothing else of the port changes. -/
theorem stopping_resumeLock (s : State) (p : Nat) : (camOf (resumeLock p s) p).stopping = (camOf s p).stopping := by
  unfold resumeLock
  split
  · split
    · rw [camOf_setCam_same]
    · rfl
  · rfl

/-- Lock found in SEARCH begins the bring-up (R110). -/
theorem doLinkLock_search (ha : isAphy p = true) (hl : isSet s (CPT_STATE_LOCK p) = false) (hst : portState s p = 2)
    (hs : (camOf s p).stopping = false) :
    doLinkLock p s = (s |> wr (CPT_STATE_LOCK p) 1 |> wr (CPT_STATE_GEAR_NOW p) (eff s (CPT_CFG_GEAR p))
      |> (fun s => setCam p { camOf s p with losing := false } s) |> resumeLock p |> enterBringup p
      |> camEvent p 0x8001 (eff s (CPT_CFG_GEAR p)) 0 [CPT_EVT_LOCK p]) :=
  (if_neg (by simp [ha, hl, hst])).trans (if_pos ⟨hst, by simp [isStopping, stopping_resumeLock, hs]⟩)

theorem doPortConfigApply_quiet (h : openFrames s p = []) : doPortConfigApply p s = applyPort p s := if_pos (by simp [h])

end

/-! ## O14 -/

/-- Settles O14, command by command. -/
theorem portLinkEvents : Obligations.PortLinkEvents := by
  intro s p hp
  refine ⟨fun c f h => ⟨_, ?_, rfl⟩, fun ha hl => ?_, fun h => ?_, fun h => ?_, fun ha hl hst hs => ?_, fun h => ?_⟩
  · exact next_of_portExists hp (congrArg _ (doFrameTimeout_open h))
  · exact next_of_portExists hp (doLockLost_locked ha hl)
  · exact next_of_portExists hp (congrArg _ (doLinkLoss_losing h))
  · exact next_of_portExists hp (congrArg _ (doLinkLoss_returned h))
  · exact next_of_portExists hp (doLinkLock_search ha hl hst hs)
  · exact next_of_portExists hp (congrArg _ (doPortConfigApply_quiet h))

end Sys2Proof.Machine

/-! PROOFS. Trigger messages, the association window and the latency measurement (R114, R115, R117, R118, R476). -/

namespace Sys2Proof.Machine
open Sys2Proof

/-! ## Triggers -/

section
variable {s : State} {p : Nat}

/-- A trigger at its sending time is sent, or withheld and forgotten where the port cannot send it (R114, R117). -/
theorem doTriggerAssert_waiting {t : TrigSt} (h : (camOf s p).trig = some t) (hs : t.sent = false) :
    doTriggerAssert p s =
      if canTrigger s p = true then s |> setCam p { camOf s p with trig := some { t with sent := true } } |> assertTrigger p
      else checkSwap (setCam p { camOf s p with trig := none } s) := by
  simp only [doTriggerAssert, h, hs, Bool.false_eq_true, if_false]

/-- The end of a pulse, with a message that is lost without lock (R114, R476). -/
theorem doTriggerRelease_pulse (h : (camOf s p).pulse = true) :
    doTriggerRelease p s =
      if isAphy p && !isSet s (CPT_STATE_LOCK p) then setCam p { camOf s p with pulse := false } s
      else s |> setCam p { camOf s p with pulse := false }
        |> driveLine p (eff s (CPT_TRIG_LINE p)) (1 - eff s (CPT_TRIG_POL p)) :=
  if_neg (by simp [h])

/-- A trigger that no frame start has taken is a MISS (R118). -/
theorem missTrigger_untaken {t : TrigSt} (h : (camOf s p).trig = some t) (ht : t.taken = false) :
    missTrigger p s = trigErr p 0x0D (CPT_TRIG_CNT_MISS p) (setCam p { camOf s p with trig := none } s) := by
  simp only [missTrigger, h, ht, Bool.false_eq_true, if_false]

/-! ## Latency bursts (R115) -/

theorem doEchoBurst_idle (ha : isAphy p = true) (hl : isSet s (CPT_STATE_LOCK p) = true) (hn : (camOf s p).echo = none) :
    doEchoBurst p s = setCam p { camOf s p with echo := some ⟨0, 0, 0, 0⟩ } s :=
  if_pos (by simp [ha, hl, hn])

section
variable {x : EchoSt} (hx : (camOf s p).echo = some x)
include hx

theorem doEchoRequest_more (h : x.sent < 16) : doEchoRequest p s =
    (s |> setCam p { camOf s p with echo := some { x with sent := x.sent + 1, waiting := x.waiting + 1 } }
      |> emit (.uplink p 1 x.sent)) := by
  simp only [doEchoRequest, hx, if_pos h]

theorem doEchoReturn_waiting (h : x.waiting ≠ 0) (rtt : Nat) : doEchoReturn p rtt s =
    setCam p { camOf s p with echo := some { x with waiting := x.waiting - 1, back := x.back + 1, sum := x.sum + rtt } } s := by
  simp only [doEchoReturn, hx, if_neg h]

theorem doEchoTimeout_waiting (h : x.waiting ≠ 0) :
    doEchoTimeout p s = setCam p { camOf s p with echo := some { x with waiting := x.waiting - 1 } } s := by
  simp only [doEchoTimeout, hx, if_neg h]

/-- The end of a burst that is all sent and answered for: with no echo returned the latency stands. -/
theorem doLatencyEnd_answered (hs : 16 ≤ x.sent) (hw : x.waiting = 0) : doLatencyEnd p s =
    if x.back = 0 then setCam p { camOf s p with echo := none } s
    else
      let old := rd s (CPT_TRIG_LAT_NS p)
      let new := latencyOf x (rd s (CPT_STATE_GEAR_NOW p))
      let u := s |> setCam p { camOf s p with echo := none } |> wr (CPT_TRIG_LAT_NS p) new |> wr (CPT_TRIG_LAT_VALID p) 1
      if old + 20 < new ∨ new + 20 < old then camEvent p 0x800A 0 new [] u else u := by
  simp only [doLatencyEnd, hx, if_neg (show ¬ (x.sent < 16 ∨ x.waiting ≠ 0) by omega)]
  rfl

end
end

/-! ## O18 -/

/-- Settles O18, command by command. -/
theorem triggersAndLatency : Obligations.TriggersAndLatency := by
  intro s p hp
  refine ⟨fun t h hs => ⟨fun hc => ?_, fun hc => ?_⟩, fun h => ⟨fun hl => ?_, fun ha hl => ?_⟩, fun t h ht => ?_,
    fun ha hl hn => ?_, fun x hx => ⟨fun h => ?_, fun h => ⟨fun rtt => ?_, ?_⟩, fun hs hw hb => ?_, fun hs hw hb => ?_⟩⟩
  · exact next_of_portExists hp ((doTriggerAssert_waiting h hs).trans (if_pos hc))
  · exact next_of_portExists hp ((doTriggerAssert_waiting h hs).trans (if_neg (by simp [hc])))
  · refine next_of_portExists hp ((doTriggerRelease_pulse h).trans (if_neg ?_))
    rcases hl with hl | hl <;> simp [hl]
  · exact next_of_portExists hp ((doTriggerRelease_pulse h).trans (if_pos (by simp [ha, hl])))
  · exact next_of_portExists hp (congrArg (fun u => checkSwap (kickSlices u)) (missTrigger_untaken h ht))
  · exact next_of_portExists hp (doEchoBurst_idle ha hl hn)
  · exact next_of_portExists hp (doEchoRequest_more hx h)
  · exact next_of_portExists hp (doEchoReturn_waiting hx h rtt)
  · exact next_of_portExists hp (doEchoTimeout_waiting hx h)
  · exact next_of_portExists hp ((doLatencyEnd_answered hx hs hw).trans (if_pos hb))
  · exact next_of_portExists hp ((doLatencyEnd_answered hx hs hw).trans (if_neg hb))

end Sys2Proof.Machine

/-! PROOFS. What a whole packet of a hardware producer leaves in the queues, and its event bits (R268 to R274, R301). -/

namespace Sys2Proof.Machine
open Sys2Proof

/-! ## Every other queue stands -/

/-- Every queue but one stands. -/
def OnlyQueue (q : Nat) (s t : State) : Prop := ∀ j, j ≠ q → queueOf t j = queueOf s j

theorem OnlyQueue.refl (q : Nat) (s : State) : OnlyQueue q s s := fun _ _ => rfl

theorem OnlyQueue.trans {q : Nat} {s t u : State} (h : OnlyQueue q s t) (k : OnlyQueue q t u) : OnlyQueue q s u :=
  fun j hj => (k j hj).trans (h j hj)

theorem OnlyQueue.of_queues {q : Nat} {s t : State} (h : t.queues = s.queues) : OnlyQueue q s t := fun j _ => queueOf_congr h j

theorem setQueue_onlyQueue (q : Nat) (x : QueueSt) (s : State) : OnlyQueue q s (setQueue q x s) :=
  fun _ hj => queueOf_setQueue_ne q x s hj.symm

theorem breakClaim_queues (p : Pkt) (s : State) : (breakClaim p s).queues = s.queues :=
  (breakClaim_ev (H := [.regs, .readPorts]) rfl (ev_refl _ s) p).same (x := .queues) (by decide)

theorem announce_queues (es : List RF) (s : State) : (announce es s).queues = s.queues :=
  (announce_ev (H := [.regs]) rfl (ev_refl _ s) es).same (x := .queues) (by decide)

theorem svcReceive_queues (q : Nat) (ws : List Nat) (s : State) : (svcReceive q ws s).queues = s.queues := by
  unfold svcReceive
  split_ifs <;> rfl

theorem qLost_onlyQueue (q n : Nat) (s : State) : OnlyQueue q s (qLost q n s) := by
  unfold qLost
  split
  · exact .refl q s
  · exact setQueue_onlyQueue q _ _

theorem discardOldest_onlyQueue (q : Nat) (s : State) : OnlyQueue q s (discardOldest q s) := by
  unfold discardOldest
  split
  · exact .refl q s
  · exact ((setQueue_onlyQueue q _ s).trans (.of_queues (breakClaim_queues _ _))).trans (qLost_onlyQueue q 1 _)

theorem makeRoom_onlyQueue (q n : Nat) (s : State) : OnlyQueue q s (makeRoom q n s) := by
  induction n generalizing s with
  | zero => exact .refl q s
  | succ n ih =>
    unfold makeRoom
    split
    · exact .refl q s
    · exact (discardOldest_onlyQueue q s).trans (ih _)

theorem rewindOpen_onlyQueue (q : Nat) (s : State) : OnlyQueue q s (rewindOpen q s) := by
  unfold rewindOpen
  dsimp only
  split
  · exact .refl q s
  · exact setQueue_onlyQueue q _ s

theorem commitOpen_onlyQueue (q : Nat) (s : State) : OnlyQueue q s (commitOpen q s) := by
  unfold commitOpen
  dsimp only
  split
  · exact .refl q s
  · exact setQueue_onlyQueue q _ s

theorem openPacket_onlyQueue (q p : Nat) (s : State) : OnlyQueue q s (openPacket q p s) := by
  unfold openPacket
  extract_lets x r
  have k : OnlyQueue q s r.1 := by
    simp only [r]
    split_ifs
    · exact .refl q s
    · exact makeRoom_onlyQueue q _ s
    · exact qLost_onlyQueue q 1 s
  split
  · exact k
  · exact k.trans (setQueue_onlyQueue q _ _)

theorem roomForWord_onlyQueue (q : Nat) (s : State) : OnlyQueue q s (roomForWord q s).1 := by
  unfold roomForWord
  dsimp only
  split_ifs
  · exact .refl q s
  · exact makeRoom_onlyQueue q _ s
  · exact (rewindOpen_onlyQueue q s).trans (qLost_onlyQueue q 1 _)

theorem putWord_onlyQueue (q w : Nat) (s : State) : OnlyQueue q s (putWord q w s).1 := by
  unfold putWord
  split
  · exact .refl q s
  · split
    · exact ((rewindOpen_onlyQueue q s).trans (.of_queues (inc_queues ..))).trans (qLost_onlyQueue q 1 _)
    · have k := roomForWord_onlyQueue q s
      dsimp only
      split
      · exact k
      · split
        · exact k
        · exact k.trans (setQueue_onlyQueue q _ _)

theorem putWords_onlyQueue (q : Nat) (ws : List Nat) (s : State) : OnlyQueue q s (putWords q ws s).1 := by
  induction ws generalizing s with
  | nil => exact .refl q s
  | cons w ws ih =>
    have k := putWord_onlyQueue q w s
    unfold putWords
    split
    · next s' e => rw [e] at k; exact k.trans (ih s')
    · exact k

theorem appendPacket_onlyQueue (q p : Nat) (ws : List Nat) (s : State) : OnlyQueue q s (appendPacket q p ws s).1 := by
  have k := (openPacket_onlyQueue q p s).trans (putWords_onlyQueue q ws _)
  unfold appendPacket
  dsimp only
  split
  · exact openPacket_onlyQueue q p s
  · split
    · next s' e =>
      rw [e] at k
      exact (k.trans (commitOpen_onlyQueue q s')).trans (.of_queues (svcReceive_queues q ws _))
    · exact k

/-! ## A whole packet leaves no packet open -/

/-- The queue has no open packet. -/
def shut (s : State) (q : Nat) : Prop := (queueOf s q).opn = none

theorem shut_of_queues {s t : State} (h : t.queues = s.queues) {q : Nat} : shut t q ↔ shut s q := by
  rw [shut, shut, queueOf_congr h]

theorem shut_rewindOpen (q : Nat) (s : State) : shut (rewindOpen q s) q := by
  unfold rewindOpen shut
  dsimp only
  split
  · assumption
  · simp [capDram]

theorem shut_commitOpen (q : Nat) (s : State) : shut (commitOpen q s) q := by
  unfold commitOpen shut
  dsimp only
  split
  · assumption
  · simp

theorem shut_qLost {q : Nat} {s : State} (h : shut s q) (n : Nat) : shut (qLost q n s) q := by
  unfold qLost shut
  split
  · exact h
  · simpa [shut] using h

theorem shut_roomForWord {q : Nat} {s : State} (h : (roomForWord q s).2 = true) : shut (roomForWord q s).1 q := by
  unfold roomForWord at h ⊢
  dsimp only at h ⊢
  split_ifs at h ⊢
  exact shut_qLost (shut_rewindOpen q s) 1

/-- A word that is not written leaves no packet open (R271, R272). -/
theorem shut_putWord {q w : Nat} {s : State} (h : (putWord q w s).2 ≠ .written) : shut (putWord q w s).1 q := by
  unfold putWord at h ⊢
  split at h
  · assumption
  · split
    · exact shut_qLost ((shut_of_queues (inc_queues ..)).mpr (shut_rewindOpen q s)) 1
    · next hfit =>
      rw [if_neg hfit] at h
      dsimp only at h ⊢
      split
      · next hd => exact shut_roomForWord hd
      · next hd =>
        rw [if_neg hd] at h
        split
        · assumption
        · next ho => simp [ho] at h

theorem shut_putWords {q : Nat} {ws : List Nat} {s : State} (h : (putWords q ws s).2 ≠ .written) : shut (putWords q ws s).1 q := by
  induction ws generalizing s with
  | nil => exact absurd rfl h
  | cons w ws ih =>
    unfold putWords at h ⊢
    split at h
    · exact ih h
    · exact shut_putWord h

theorem shut_appendPacket (q p : Nat) (ws : List Nat) (s : State) : shut (appendPacket q p ws s).1 q := by
  unfold appendPacket
  dsimp only
  split
  · next h => exact Option.isNone_iff_eq_none.mp h
  · split
    · exact (shut_of_queues (svcReceive_queues q ws _)).mpr (shut_commitOpen q _)
    · next hw => exact shut_putWords fun e => hw _ (Prod.ext rfl e)

section
variable {s : State} {j : Nat} (hj : shut s j)
include hj

theorem shut_putPlain (q p : Nat) (ws : List Nat) (isCopy : Bool) (es : List RF) : shut (putPlain q p ws isCopy es s).1 j := by
  unfold putPlain
  split
  · exact (shut_of_queues (announce_queues es s)).mpr hj
  · dsimp only
    split
    · next ho =>
      have hq : j ≠ q := by
        rintro rfl
        rw [shut] at hj
        simp [hj] at ho
      rw [shut, setQueue_onlyQueue q _ s j hq]
      exact hj
    · refine (shut_of_queues (announce_queues es _)).mpr ?_
      by_cases hq : j = q
      · exact hq ▸ shut_appendPacket q p ws s
      · rw [shut, appendPacket_onlyQueue q p ws s j hq]
        exact hj

theorem shut_putCopy (q : Nat) (ws : List Nat) : shut (putCopy q ws s).1 j := by
  have k := shut_putPlain hj (eff s (QMX_Q_COPY_COPY_Q q)) 0xFFFF ws true []
  unfold putCopy
  dsimp only
  split
  · exact hj
  · split <;> next e => rw [e] at k; exact k

theorem shut_qPutRaw (q p : Nat) (ws : List Nat) (es : List RF) : shut (qPutRaw q p ws es s).1 j := by
  have k := shut_putPlain hj q p ws false es
  unfold qPutRaw
  split
  · next s' e => rw [e] at k; exact shut_putCopy k q ws
  · next s' e => rw [e] at k; exact k
  · next s' _ e => rw [e] at k; exact k

/-- An error record leaves a queue without an open packet without one. -/
theorem shut_recordError (e : ErrInfo) : shut (recordError e s) j := by
  unfold recordError logError
  dsimp only
  refine shut_qPutRaw ?_ ..
  split
  · exact hj
  · exact hj

end

end Sys2Proof.Machine

/-! PROOFS. The END code of a bring-up or recovery script (R109 to R111, R270). -/

namespace Sys2Proof.Machine
open Sys2Proof

/-! ## The event bits that announce a packet -/

/-- A field of one bit, as every event bit is. -/
def oneBit (r : RF) : Prop := r.lo = r.hi ∧ r.hi < 32

theorem rd_set_oneBit {r : RF} (hr : oneBit r) (s : State) : rd (wr r 1 s) r = 1 := by
  obtain ⟨hlo, h32⟩ := hr
  rw [rd_wr_same hlo.le h32, hlo]
  simp

theorem oneBit_disjoint {x r : RF} (hx : oneBit x) (hr : oneBit r) (h : x ≠ r) : x.addr ≠ r.addr ∨ r.hi < x.lo ∨ x.hi < r.lo := by
  obtain ⟨xa, xh, xl⟩ := x
  obtain ⟨ra, rh, rl⟩ := r
  simp only [oneBit, ne_eq, RF.mk.injEq, not_and] at *
  omega

/-- A bit that is set stays set when event bits are. -/
theorem rd_announce_of_set {r : RF} (hr : oneBit r) {es : List RF} (h : ∀ x ∈ es, oneBit x) {s : State} (hs : rd s r = 1) :
    rd (announce es s) r = 1 := by
  induction es generalizing s with
  | nil => exact hs
  | cons x es ih =>
    obtain ⟨hx, hes⟩ := List.forall_mem_cons.mp h
    refine ih hes ?_
    by_cases hxr : x = r
    · rw [hxr, rd_set_oneBit hr]
    · rw [rd_wr_other hx.1.le hr.2 (oneBit_disjoint hx hr hxr), hs]

theorem rd_announce {es : List RF} (h : ∀ x ∈ es, oneBit x) {r : RF} (hr : r ∈ es) (s : State) : rd (announce es s) r = 1 := by
  induction es generalizing s with
  | nil => exact absurd hr List.not_mem_nil
  | cons x es ih =>
    obtain ⟨hx, hes⟩ := List.forall_mem_cons.mp h
    rcases List.mem_cons.mp hr with rfl | hr
    · exact rd_announce_of_set hx hes (rd_set_oneBit hx s)
    · exact ih hes hr _

theorem qPutEvt_kept (q p : Nat) (ws : List Nat) (es : List RF) (s : State) : RegsKept (isQmxOr es) s (qPutEvt q p ws es s) :=
  (qPutRaw_kept q p ws es s).trans ((RegsKept.foldl (fun s q => qmxError_kept 1 q s) _ _).mono fun _ h => Or.inl h)

/-- A packet whose queue has none open, or is disabled, sets its event bits at once (R270). -/
theorem rd_qPutEvt_announced {q : Nat} {es : List RF} {s : State} (hq : qEnabled s q = false ∨ shut s q)
    (h : ∀ x ∈ es, oneBit x) {r : RF} (hr : r ∈ es) (hm : ¬ isQmx r.addr) (p : Nat) (ws : List Nat) :
    rd (qPutEvt q p ws es s) r = 1 := by
  have plain : rd (putPlain q p ws false es s).1 r = 1 := by
    unfold putPlain
    split
    · exact rd_announce h hr s
    · next he =>
      have hs := hq.resolve_left (by simpa using he)
      rw [shut] at hs
      simpa [hs] using rd_announce h hr _
  refine ((RegsKept.foldl (fun s q => qmxError_kept 1 q s) _ _).rd hm).trans ?_
  unfold qPutRaw
  split
  · next s' e => rw [e] at plain; exact ((putCopy_kept q ws s').rd hm).trans plain
  · next s' e => rw [e] at plain; exact plain
  · next s' _ e => rw [e] at plain; exact plain

theorem qEnabled_congr {s t : State} (hc : t.chip = s.chip) (hx : t.cfgX = s.cfgX) (q : Nat) : qEnabled t q = qEnabled s q := by
  simp only [qEnabled, eff, State.variant, hc, hx]

/-! ## The registers of a port -/

/-- The words of a port that its states write: STATE and the event bits. -/
def portWord (p a : Nat) : Prop := a = 0x100100 + 0x10000 * p ∨ a = 0x100140 + 0x10000 * p

theorem portWord_not_isQmx {p a : Nat} (h : portWord p a) : ¬ isQmx a := by
  unfold portWord isQmx at *
  omega

theorem portError_not_portWord {p a : Nat} (h : portWord p a) (code vc dt ctx arg2 : Nat) :
    ¬ isErr (portErr p code vc dt ctx arg2) a := by
  have e : errBase uCPT p = 0x100144 + 0x10000 * p := rfl
  rintro ((hq | ⟨r, hr, -⟩) | ⟨hlo, hhi⟩)
  · exact portWord_not_isQmx h hq
  · exact List.not_mem_nil hr
  · simp only [portErr] at hlo hhi
    unfold portWord at h
    omega

theorem rd_portError {p : Nat} {r : RF} (h : portWord p r.addr) (code vc dt ctx arg2 : Nat) (s : State) :
    rd (recordError (portErr p code vc dt ctx arg2) s) r = rd s r :=
  rd_recordError (portError_not_portWord h code vc dt ctx arg2)

theorem portState_portError (p code vc dt ctx arg2 : Nat) (s : State) :
    portState (recordError (portErr p code vc dt ctx arg2) s) p = portState s p :=
  rd_portError (.inl rfl) ..

theorem eff_recordError (e : ErrInfo) (r : RF) (s : State) : eff (recordError e s) r = eff s r := by
  have hx : (recordError e s).cfgX = s.cfgX := recordError_same e s .cfgX (by decide)
  simp only [eff, (recordError_kept e s).1, hx]

/-- The camera events of the port are announced at once: its queue is disabled or has no packet open (R270). -/
def eventsNow (s : State) (p : Nat) : Prop := qEnabled s (8 + p) = false ∨ shut s (8 + p)

theorem eventsNow_recordError {s : State} {p : Nat} (h : eventsNow s p) (e : ErrInfo) : eventsNow (recordError e s) p := by
  refine h.imp (fun hq => ?_) fun hs => shut_recordError hs e
  rw [qEnabled_congr (recordError_kept e s).1 (recordError_same e s .cfgX (by decide)), hq]

/-! ## A port's state and its camera events -/

section
variable {s : State} {p : Nat}

theorem portState_setState {st : Nat} (h : st < 16) : portState (setState p st s) p = st := by
  have e : rd (wr (CPT_STATE_STATE p) st s) (CPT_STATE_STATE p) = st :=
    (rd_wr_same (by simp) (by simp)).trans (Nat.mod_eq_of_lt h)
  unfold setState portState
  dsimp only
  split
  · exact e
  · exact (rd_wr_bits (by simp) (by simp) (.inl (by simp))).trans e

theorem eventsNow_setState (h : eventsNow s p) (st : Nat) : eventsNow (setState p st s) p := by
  unfold setState
  dsimp only
  split <;> exact h

theorem portState_attempt (v : Nat) : portState (wr (CPT_STATE_ATTEMPT p) v s) p = portState s p :=
  rd_wr_bits (by simp) (by simp) (.inl (by simp))

section
variable {es : List RF} (code a b : Nat)

theorem camEvent_kept : RegsKept (isQmxOr es) s (camEvent p code a b es s) := qPutEvt_kept ..

/-- A camera event announced by bits of CPT_EVT leaves the port's state. -/
theorem portState_camEvent (h : ∀ r ∈ es, r.addr = 0x100140 + 0x10000 * p) :
    portState (camEvent p code a b es s) p = portState s p := by
  refine (camEvent_kept code a b).rd ?_
  rintro (hq | ⟨r, hr, e⟩)
  · exact portWord_not_isQmx (p := p) (.inl rfl) hq
  · rw [h r hr] at e
    dsimp only at e
    omega

theorem rd_camEvent_announced (hn : eventsNow s p) (h : ∀ x ∈ es, oneBit x) {r : RF} (hr : r ∈ es)
    (ha : portWord p r.addr) : rd (camEvent p code a b es s) r = 1 :=
  rd_qPutEvt_announced hn h hr (portWord_not_isQmx ha) ..

end

/-! ## Faults and failed attempts -/

theorem portState_enterFault (code : Nat) : portState (enterFault p code s) p = 8 := by
  unfold enterFault
  rw [portState_camEvent _ _ _ (by simp), portState_setState (by decide)]

theorem rd_enterFault (h : eventsNow s p) (code : Nat) :
    rd (enterFault p code s) (CPT_EVT_FAULT p) = 1 ∧ rd (enterFault p code s) (CPT_EVT_BRINGUP_FAIL p) = 1 :=
  have hn := eventsNow_setState h 8
  ⟨rd_camEvent_announced _ _ _ hn (by simp [oneBit]) (by simp) (.inr rfl),
    rd_camEvent_announced _ _ _ hn (by simp [oneBit]) (by simp) (.inr rfl)⟩

/-- While attempts remain, a failed one enters HOLD and is counted (R110). -/
theorem failAttempt_hold (h : rd s (CPT_STATE_ATTEMPT p) < eff s (CPT_BRINGUP_RETRY p)) (code : Nat) :
    let t := failAttempt p code s
    portState t p = 6 ∧ rd t (CPT_STATE_ATTEMPT p) = rd s (CPT_STATE_ATTEMPT p) + 1 ∧
      (eventsNow s p → rd t (CPT_EVT_BRINGUP_FAIL p) = 1) := by
  intro t
  have e : t = _ := if_pos h
  rw [e]
  have hw : rd s (CPT_STATE_ATTEMPT p) + 1 < 2 ^ 4 := (Nat.succ_le_of_lt h).trans_lt (fld_lt _ 3 0)
  refine ⟨?_, ?_, fun hn => ?_⟩
  · rw [portState_attempt, portState_camEvent _ _ _ (by simp), portState_setState (by decide)]
  · rw [rd_wr_same (by simp) (by simp)]
    exact Nat.mod_eq_of_lt hw
  · rw [rd_wr_addr (by simp)]
    exact rd_camEvent_announced _ _ _ (eventsNow_setState hn 6) (by simp [oneBit]) (by simp) (.inr rfl)

theorem failAttempt_fault (h : eff s (CPT_BRINGUP_RETRY p) ≤ rd s (CPT_STATE_ATTEMPT p)) (code : Nat) :
    failAttempt p code s = enterFault p code s :=
  if_neg (Nat.not_lt.mpr h)

/-! ## The outcome by END code (R111) -/

theorem attemptEnded_passed : attemptEnded p 0 0 s =
    (setState p 4 s |> camEvent p 0x8003 0 (rd (setState p 4 s) (CPT_STATE_ATTEMPT p) + 1) [] |> wr (CPT_STATE_ATTEMPT p) 0) := rfl

section
variable (role : Nat) {code : Nat}

theorem attemptEnded_mismatch (h : 0x80 ≤ code ∧ code ≤ 0xBF) : attemptEnded p role code s =
    (s |> setState p 7 |> recordError (portErr p 0x0F 0 0 noCtx 0)
      |> camEvent p 0x8005 code 0 [CPT_EVT_BRINGUP_FAIL p, CPT_EVT_MISMATCH p]) :=
  (if_neg (by omega)).trans (if_pos h)

theorem attemptEnded_fatal (h : 0xC0 ≤ code ∧ code ≤ 0xFC ∨ code = 0xFE) :
    attemptEnded p role code s = (s |> recordError (portErr p 0x0E 0 0 noCtx 0) |> enterFault p code) :=
  (if_neg (by omega)).trans ((if_neg (by omega)).trans (if_pos h))

theorem attemptEnded_failed (h : 0 < code ∧ code < 0x80 ∨ code = 0xFD ∨ code = 0xFF ∧ role = 0) :
    attemptEnded p role code s = (s |> recordError (portErr p 0x0E 0 0 noCtx 0) |> failAttempt p code) :=
  (if_neg (by omega)).trans ((if_neg (by omega)).trans ((if_neg (by omega)).trans (if_neg (by omega))))

end
end

/-! ## O17 -/

/-- Settles O17, by the ranges of the END code; an error record before the camera event leaves the port's word, RETRY and the queue of
its events as the outcome needs them. -/
theorem attemptOutcome : Obligations.AttemptOutcome := by
  intro s p role code _ _ _ t now
  have ha : rd (recordError (portErr p 0x0E 0 0 noCtx 0) s) (CPT_STATE_ATTEMPT p) = rd s (CPT_STATE_ATTEMPT p) :=
    rd_portError (.inl rfl) ..
  have hnow (h : now) (e : ErrInfo) : eventsNow (recordError e s) p := eventsNow_recordError h e
  refine ⟨fun hc hr => ?_, fun h1 h2 => ?_, fun h => ?_, fun h => ⟨fun hlt => ?_, fun hle => ?_⟩⟩
  · subst hc hr
    refine ⟨?_, rd_wr_same (by simp) (by simp)⟩
    exact (portState_attempt 0).trans ((portState_camEvent _ _ _ (by simp)).trans (portState_setState (by decide)))
  · have e : t = _ := attemptEnded_mismatch role ⟨h1, h2⟩
    rw [e]
    refine ⟨?_, fun hn => ?_⟩
    · rw [portState_camEvent _ _ _ (by simp), portState_portError, portState_setState (by decide)]
    · have hn' := eventsNow_recordError (eventsNow_setState hn 7) (portErr p 0x0F 0 0 noCtx 0)
      exact ⟨rd_camEvent_announced _ _ _ hn' (by simp [oneBit]) (by simp) (.inr rfl),
        rd_camEvent_announced _ _ _ hn' (by simp [oneBit]) (by simp) (.inr rfl)⟩
  · have e : t = _ := attemptEnded_fatal role h
    rw [e]
    exact ⟨portState_enterFault code, fun hn => rd_enterFault (hnow hn _) code⟩
  · have e : t = _ := attemptEnded_failed role h
    obtain ⟨hst, hat, hev⟩ := failAttempt_hold (s := recordError (portErr p 0x0E 0 0 noCtx 0) s) (p := p)
      (by rwa [ha, eff_recordError]) code
    rw [e]
    exact ⟨hst, hat.trans (by rw [ha]), fun hn => hev (hnow hn _)⟩
  · have e : t = _ := attemptEnded_failed role h
    rw [e, failAttempt_fault (by rwa [ha, eff_recordError])]
    exact ⟨portState_enterFault code, fun hn => rd_enterFault (hnow hn _) code⟩

end Sys2Proof.Machine

/-! PROOFS. Admission of frames and of sync groups (R130 to R134, R138). -/

namespace Sys2Proof.Machine
open Sys2Proof

/-! ## The cap (R131) -/

theorem admits_iff (tier load rate : Nat) : admits tier load rate = true ↔ tier = 0 ∨ load + rate ≤ 9200 := by simp [admits]

/-! ## The frame that FRAME_ADMISSION takes -/

section
variable {s : State} {c : Nat} {f : FrameSt}
  (hf : s.frames.find? (fun f => f.ctx == c && f.adm == .waiting && !f.arriving.isEmpty) = some f)
include hf

theorem ctx_of_waiting : f.ctx = c := by
  have h := List.find?_some hf
  simp only [Bool.and_eq_true, beq_iff_eq] at h
  exact h.1.1

section
variable (hg : syncOf s f = none)
include hg

/-- Outside a sync group a frame that takes no heats is admitted (R134), and so is one that R131 admits. -/
theorem doFrameAdmission_admits (h : processedIn s.chip (bankOf s f.epoch) c = false ∨
      admits (bankFld s.chip (bankOf s f.epoch) (CTX_TIER c)) (committed s (bankFld s.chip (bankOf s f.epoch) (CTX_SLICE c)))
        (rateIn s.chip (bankOf s f.epoch) c) = true) :
    doFrameAdmission c s = admitFrame f s := by
  simp only [doFrameAdmission, hf, hg]
  exact if_pos (h.imp (by simp [·]) id)

/-- Any other frame is refused whole (R133). -/
theorem doFrameAdmission_refuses (hp : processedIn s.chip (bankOf s f.epoch) c = true)
    (ha : admits (bankFld s.chip (bankOf s f.epoch) (CTX_TIER c)) (committed s (bankFld s.chip (bankOf s f.epoch) (CTX_SLICE c)))
        (rateIn s.chip (bankOf s f.epoch) c) = false) :
    doFrameAdmission c s = checkSwap (refuseFrame f s) := by
  simp only [doFrameAdmission, hf, hg]
  exact if_neg (by simp [hp, ha])

end

section
variable {g key : Nat} (hg : syncOf s f = some (g, key))
include hg

theorem doFrameAdmission_undecided (hy : s.syncs.find? (fun y => y.grp == g && y.key == key) = none) :
    doFrameAdmission c s = checkSwap (decideGroup f g key s) := by
  simp only [doFrameAdmission, hf, hg, hy]

theorem doFrameAdmission_decided {y : SyncSt} (hy : s.syncs.find? (fun y => y.grp == g && y.key == key) = some y) :
    doFrameAdmission c s = checkSwap (sweepSyncs (if y.ok = true then admitFrame f s else refuseFrame f s)) := by
  simp only [doFrameAdmission, hf, hg, hy]

end
end

/-! ## A refused frame (R133) -/

/-- The frame loses its lines, and its context's status words say so. -/
def markRefused (f : FrameSt) (s : State) : State :=
  s |> putFrame { f with adm := .refused, arriving := [] } |> wr (CTX_FSTATE f.ctx) 2
    |> incWrap (CTX_FRAMES_REFUSED f.ctx) |> inc (CTX_REFUSE_RUN f.ctx) |> wr (CTX_PEND_DROPPED f.ctx) 1

/-- The scheduler counts and reports the refusal by tier (R133, R151, R152). -/
def reportRefusal (c l tier : Nat) (s : State) : State :=
  let s := if tier = 2 then inc (HTS_L_REFUSED_T2 l) s else if tier = 1 then inc (HTS_L_REFUSED_T1 l) s else s
  let s := if tier = 0 then s else setGroupBit HTS_REFUSE_PEND_LO_PEND HTS_REFUSE_PEND_HI_PEND c s
  if tier = 1 then recordError (htsErr 1 l c) s else s

theorem refuseFrame_eq (f : FrameSt) (s : State) : refuseFrame f s =
    sweepFrames (reportRefusal f.ctx (bankFld s.chip (bankOf s f.epoch) (CTX_SLICE f.ctx))
      (bankFld s.chip (bankOf s f.epoch) (CTX_TIER f.ctx)) (markRefused f s)) := rfl

/-- A word that is not one of a context's status words, from offset 0x40 of its block on. -/
def notCtxStatus (a : Nat) : Prop := a < 0x300000 ∨ a % 0x80 < 0x40

theorem htsError_notCtxStatus (code l c : Nat) (s : State) : RegsKept notCtxStatus s (recordError (htsErr code l c) s) := by
  refine (recordError_kept _ s).mono fun a h => ?_
  have hb : errBase (htsErr code l c).unit (htsErr code l c).inst = 0x61E020 := rfl
  rcases h with (h | ⟨r, hr, _⟩) | h
  · unfold isQmx at h; unfold notCtxStatus; omega
  · exact absurd hr List.not_mem_nil
  · unfold notCtxStatus; omega

theorem setGroupBit_kept {P : Nat → Prop} {lo hi : RF} (hlo : P lo.addr) (hhi : P hi.addr) (c : Nat) (s : State) :
    RegsKept P s (setGroupBit lo hi c s) := by
  refine (RegsKept.refl P s).wr ?_
  split
  · exact hlo
  · exact hhi

theorem reportRefusal_kept (c l tier : Nat) (s : State) : RegsKept notCtxStatus s (reportRefusal c l tier s) := by
  have hc : notCtxStatus (0x61f00c + 0x20000 * l) := by unfold notCtxStatus; omega
  unfold reportRefusal
  extract_lets s1 s2
  have k1 : RegsKept notCtxStatus s s1 := by
    simp only [s1]
    split
    · exact wr_kept _ rfl hc _ s
    · split
      · exact wr_kept _ rfl hc _ s
      · exact .refl _ s
  have k2 : RegsKept notCtxStatus s s2 := by
    simp only [s2]
    split
    · exact k1
    · exact k1.trans (setGroupBit_kept (.inr (by decide)) (.inr (by decide)) c s1)
  split
  · exact k2.trans (htsError_notCtxStatus 1 l c s2)
  · exact k2

theorem reportRefusal_frames (c l tier : Nat) (s : State) : (reportRefusal c l tier s).frames = s.frames := by
  unfold reportRefusal
  extract_lets s1 s2
  have k1 : s1.frames = s.frames := by
    simp only [s1]
    split
    · rfl
    · split <;> rfl
  have k2 : s2.frames = s.frames := by
    simp only [s2]
    split <;> exact k1
  split
  · exact (recordError_same (htsErr 1 l c) s2 .frames rfl).trans k2
  · exact k2

/-- Of the status of a context, a refusal changes what `markRefused` does. -/
theorem rd_refuseFrame (f : FrameSt) (s : State) {r : RF} (h : ¬ notCtxStatus r.addr) : rd (refuseFrame f s) r = rd (markRefused f s) r := by
  rw [refuseFrame_eq]
  exact (reportRefusal_kept ..).rd h

/-- The status of the context of a refused frame. -/
theorem refuseFrame_status (f : FrameSt) (s : State) :
    rd (refuseFrame f s) (CTX_PEND_DROPPED f.ctx) = 1 ∧ rd (refuseFrame f s) (CTX_FSTATE f.ctx) = 2 ∧
    rd (refuseFrame f s) (CTX_FRAMES_REFUSED f.ctx) = (rd s (CTX_FRAMES_REFUSED f.ctx) + 1) % 2 ^ 32 ∧
    rd (refuseFrame f s) (CTX_REFUSE_RUN f.ctx) = satAdd 8 (rd s (CTX_REFUSE_RUN f.ctx)) 1 := by
  refine ⟨?_, ?_, ?_, ?_⟩ <;> rw [rd_refuseFrame f s (by unfold notCtxStatus; dsimp only; omega)] <;> unfold markRefused
  · exact rd_wr_same (by simp) (by simp)
  · rw [rd_wr_addr (by simp), inc, addSat, rd_wr_addr (by simp), incWrap, rd_wr_addr (by simp), rd_wr_same (by simp) (by simp)]
    rfl
  · rw [rd_wr_addr (by simp), inc, addSat, rd_wr_addr (by simp), incWrap, rd_wr_same (by simp) (by simp), rd_wr_addr (by simp)]
    rfl
  · rw [rd_wr_bits (by simp) (by simp) (by simp), inc, addSat, rd_wr_same (by simp) (by simp), incWrap, rd_wr_addr (by simp),
      rd_wr_addr (by simp), rd_putFrame]
    exact Nat.mod_eq_of_lt (by dsimp only [satAdd]; omega)

theorem frames_refuseFrame (f : FrameSt) (s : State) : (refuseFrame f s).frames =
    (putFrame { f with adm := .refused, arriving := [] } s).frames.filter fun g => g.isOpen || inFlight g := by
  rw [refuseFrame_eq]
  exact congrArg (List.filter _) (reportRefusal_frames ..)

/-- What is left of a refused frame has no lines and is not in flight (R80, R133). -/
theorem refused_of_mem_refuseFrame {f g : FrameSt} {s : State} (hg : g ∈ (refuseFrame f s).frames) (hid : g.id = f.id) :
    g.adm = .refused ∧ g.arriving = [] ∧ inFlight g = false := by
  rw [frames_refuseFrame] at hg
  obtain ⟨x, _, rfl⟩ := List.mem_map.mp (List.mem_of_mem_filter hg)
  split at hid
  · next h => rw [if_pos h]; exact ⟨rfl, rfl, by simp [inFlight]⟩
  · next h => exact absurd hid h

/-! ## Sync groups (R132, R138) -/

theorem risingFrom_pairwise {α : Type} (m : Sparse α) : ∀ lo, risingFrom lo m = true →
    (∀ x ∈ m, lo ≤ x.1) ∧ m.Pairwise fun x y => x.1 < y.1 := by
  induction m with
  | nil => exact fun _ _ => ⟨by simp, .nil⟩
  | cons p m ih =>
    intro lo h
    simp only [risingFrom, Bool.and_eq_true, decide_eq_true_eq] at h
    obtain ⟨hlo, hm⟩ := h
    obtain ⟨habove, hpw⟩ := ih _ hm
    refine ⟨fun x hx => ?_, .cons habove hpw⟩
    rcases List.mem_cons.mp hx with rfl | hx
    · exact hlo
    · have := habove x hx
      omega

/-- The contexts of a bank in canonical form come in ascending order. -/
theorem enabledCtxs_ascending {d : Nat → Word} {b : Sparse Word} (h : swf d b = true) : (enabledCtxs b).Pairwise (· < ·) := by
  have hr : risingFrom 0 b = true := (Bool.and_eq_true_iff.mp h).1
  refine (risingFrom_pairwise b 0 hr).2.filterMap _ fun x y hxy i hi j hj => ?_
  obtain ⟨hx, ex⟩ := Option.ite_none_right_eq_some.mp hi
  obtain ⟨hy, ey⟩ := Option.ite_none_right_eq_some.mp hj
  cases ex
  cases ey
  omega

theorem membersOf_ascending {s : State} {ep : Nat} (h : swf (regReset s.chip) (bankOf s ep) = true) (g : Nat) :
    (membersOf s ep g).Pairwise (· < ·) :=
  (enabledCtxs_ascending h).filter _

theorem notePeaks_frames (s : State) : (notePeaks s).frames = s.frames :=
  (notePeaks_ev rfl (ev_refl [.regs] s)).frame .frames rfl

/-- The waiting frames of a trigger whose contexts are members, in ascending context number (R132). -/
def groupFrames (s : State) (ep key : Nat) (ms : List Nat) : List FrameSt :=
  ms.flatMap fun m => (s.frames.filter fun x => x.trig == some key && x.adm == .waiting && x.epoch == ep && ms.contains x.ctx).filter
    fun x => x.ctx == m

/-- A decision treats every waiting frame of the trigger alike. -/
theorem decideGroup_frames (f : FrameSt) (g key : Nat) (s : State) : (decideGroup f g key s).frames =
    ((groupFrames s f.epoch key (membersOf s f.epoch g)).foldl
      (fun u x => if groupAdmits s f.epoch (membersOf s f.epoch g) [] = true then admitFrame x u else refuseFrame x u) s).frames :=
  notePeaks_frames _

/-! ## O19 -/

/-- Settles O19: a frame alone by R131, a group by its decision. -/
theorem frameAdmission : Obligations.FrameAdmission := by
  refine ⟨⟨fun s c f hf hg => ⟨fun h => ?_, fun hp ha => ?_⟩, admits_iff⟩, fun s c g key f hf hg => ⟨fun hy => ?_, fun y hy => ?_⟩⟩
  · exact next_congr (doFrameAdmission_admits hf hg h)
  · obtain rfl := ctx_of_waiting hf
    obtain ⟨hdropped, hstate, hcount, hrun⟩ := refuseFrame_status f s
    exact ⟨next_congr (doFrameAdmission_refuses hf hg hp ha), hdropped, hstate, hcount, hrun,
      fun x hx hid => refused_of_mem_refuseFrame hx hid⟩
  · refine ⟨next_congr (doFrameAdmission_undecided hf hg hy), fun h => membersOf_ascending h g, fun h => ?_, fun h => ?_⟩
    · rw [decideGroup_frames, h]; rfl
    · rw [decideGroup_frames, h]; rfl
  · exact next_congr (doFrameAdmission_decided hf hg hy)

end Sys2Proof.Machine

/-! PROOFS. Lines and heats: LINE_COMPLETE, HEAT_DONE, and what an idle slice starts (R129, R134 to R137). -/

namespace Sys2Proof.Machine
open Sys2Proof

/-! ## Lines and the end of a heat -/

theorem doLineComplete_next {s : State} {c : Nat} {f : FrameSt} {l : Line} {rest : List Line}
    (hf : s.frames.find? (fun f => f.ctx == c && f.adm == .admitted && !f.arriving.isEmpty) = some f) (hl : f.arriving = l :: rest) :
    doLineComplete c s =
      if processedIn s.chip (bankOf s f.epoch) c = true then kickSlices (windowLine f l rest s)
      else kickSlices (passLine { f with arriving := rest } l s) := by
  simp only [doLineComplete, hf, hl]

theorem doHeatDone_running {s : State} {l : Nat} {r : Running} {f : FrameSt} (hr : s.running.find? (fun r => r.slice == l) = some r)
    (hf : frameById s r.frame = some f) (bad : List TableFault) :
    doHeatDone l bad s = kickSlices (finishHeat r bad f { s with running := s.running.filter fun x => x.slice != l }) := by
  have hf' : frameById { s with running := s.running.filter fun x => x.slice != l } r.frame = some f := hf
  simp only [doHeatDone, hr, hf']

/-! ## The order of R135 -/

/-- The first has the earlier deadline, or an equal one and a lower tier, or both equal and no higher context number. -/
def noLater (x y : Nat × Nat × Nat × Nat) : Prop :=
  x.1 < y.1 ∨ x.1 = y.1 ∧ (x.2.1 < y.2.1 ∨ x.2.1 = y.2.1 ∧ x.2.2.1 ≤ y.2.2.1)

theorem before_eq_false_iff (x y : Nat × Nat × Nat × Nat) : before y x = false ↔ noLater x y := by
  simp only [before, noLater, Bool.or_eq_false_iff, Bool.and_eq_false_iff, decide_eq_false_iff_not, beq_eq_false_iff_ne]
  omega

theorem noLater_refl (x : Nat × Nat × Nat × Nat) : noLater x x := .inr ⟨rfl, .inr ⟨rfl, le_rfl⟩⟩

theorem noLater_trans {x y z : Nat × Nat × Nat × Nat} (h : noLater x y) (k : noLater y z) : noLater x z := by
  unfold noLater at *
  omega

theorem noLater_of_before {x y : Nat × Nat × Nat × Nat} (h : before x y = true) : noLater x y := by
  simp only [before, Bool.or_eq_true, Bool.and_eq_true, decide_eq_true_eq, beq_iff_eq] at h
  unfold noLater
  omega

theorem firstOf_eq_none {l : List (Nat × Nat × Nat × Nat)} (h : firstOf l = none) : l = [] := by
  cases l with
  | nil => rfl
  | cons a l => unfold firstOf at h; split at h <;> cases h

/-- What a slice takes first is a candidate, and no candidate comes before it. -/
theorem firstOf_eq_some {l : List (Nat × Nat × Nat × Nat)} : ∀ {x}, firstOf l = some x → x ∈ l ∧ ∀ y ∈ l, noLater x y := by
  induction l with
  | nil => intro x h; cases h
  | cons a l ih =>
    intro x h
    unfold firstOf at h
    split at h
    · next e =>
      cases h
      rw [firstOf_eq_none e]
      exact ⟨List.mem_singleton_self a, by simpa using noLater_refl a⟩
    · next b e =>
      obtain ⟨hb, hmin⟩ := ih e
      cases h
      split
      · next hba => exact ⟨List.mem_cons_of_mem _ hb, List.forall_mem_cons.mpr ⟨noLater_of_before hba, hmin⟩⟩
      · next hba =>
        have hab : noLater a b := (before_eq_false_iff a b).mp (by simpa using hba)
        exact ⟨List.mem_cons_self .., List.forall_mem_cons.mpr ⟨noLater_refl a, fun y hy => noLater_trans hab (hmin y hy)⟩⟩

/-! ## What a slice starts (R135) -/

theorem startHeat_busy {s : State} {l : Nat} (h : ∃ r ∈ s.running, r.slice = l) : startHeat s l = s := if_pos (by simpa using h)

theorem startHeat_idle {s : State} {l : Nat} {x : Nat × Nat × Nat × Nat} {f : FrameSt} (h : ∀ r ∈ s.running, r.slice ≠ l)
    (hx : firstOf (candidates s l) = some x) (hf : frameById s x.2.2.2 = some f) : startHeat s l = beginHeat l f s := by
  refine (if_neg (by simpa using h)).trans ?_
  simp only [hx, hf]

/-! ## O20 -/

/-- Settles O20; the order of the candidates by induction on their list. -/
theorem heatsInDeadlineOrder : Obligations.HeatsInDeadlineOrder := by
  refine ⟨fun s c f l rest hf hl => ⟨fun h => ?_, fun h => ?_⟩, fun s l bad r f hr hf => ?_,
    fun s l => ⟨startHeat_busy, fun x f h hx hf => ?_⟩⟩
  · exact next_congr ((doLineComplete_next hf hl).trans (if_pos h))
  · exact next_congr ((doLineComplete_next hf hl).trans (if_neg (by simp [h])))
  · exact next_congr (doHeatDone_running hr hf bad)
  · exact ⟨startHeat_idle h hx hf, firstOf_eq_some hx⟩

end Sys2Proof.Machine

/-! PROOFS. Hold rings' commands and the CSI-2 transmit ports (R141, R228 to R231). -/

namespace Sys2Proof.Machine
open Sys2Proof

/-! ## Hold rings (R141) -/

section
variable {s : State} {c : Nat}

section
variable (hc : c < ctxCount s.variant) (hr : 0 < act s (CTX_HOLD_FRAMES c))
include hc hr

theorem doHoldFreeze_ring : doHoldFreeze c s = wr (CTX_FROZEN c) 1 s := if_pos (by simp [ctxHere, hc, hr])

theorem doHoldRelease_ring : doHoldRelease c s = wr (CTX_FROZEN c) 0 s := if_pos (by simp [ctxHere, hc, hr])

end

section
variable (hr : act s (CTX_HOLD_FRAMES c) = 0)
include hr

theorem doHoldFreeze_noRing : doHoldFreeze c s = s := if_neg (by simp [hr])

theorem doHoldRelease_noRing : doHoldRelease c s = s := if_neg (by simp [hr])

end
end

/-! ## Transmit ports (R228 to R231) -/

section
variable {s : State} {p : Nat}

theorem doCsi2TxConfigApply_midFrame (h : (txOf s p).begun ≠ [] ∨ (txOf s p).queue ≠ []) : doCsi2TxConfigApply p s = s := by
  refine if_neg ?_
  rcases h with h | h <;> simp [h]

section
variable (hp : txHere s p = true)
include hp

theorem doCsi2TxConfigApply_quiet (hb : (txOf s p).begun = []) (hq : (txOf s p).queue = []) : doCsi2TxConfigApply p s = applyTx p s :=
  if_pos (by simp [hp, hb, hq])

theorem doCsi2PhyRestartDone_restarting (hr : (txOf s p).restarting = true) : doCsi2PhyRestartDone p s =
    (s |> setTx p { txOf s p with restarting := false } |> wr (CTX2_STAT_ACTIVE p) 1) :=
  if_pos (by simp [hp, hr])

/-- The oldest packet leaves the buffer; a frame end counts a frame. -/
theorem doCsi2TxPacketSent_sends {t : TxPkt} {rest : List TxPkt} (hq : (txOf s p).queue = t :: rest)
    (hr : (txOf s p).restarting = false) (he : txEnabled s p = true) : doCsi2TxPacketSent p s =
      let u := s |> setTx p { txOf s p with queue := rest } |> emit (.csi2 p t.vc t.dt t.bytes)
      if t.dt = 1 then inc (CTX2_CNT_FRAMES p) u else u := by
  simp only [doCsi2TxPacketSent, hq]
  exact if_pos (by simp [hp, hr, he])

end
end

/-! ## O35 -/

/-- Settles O35, command by command. -/
theorem holdAndTransmitPorts : Obligations.HoldAndTransmitPorts := by
  refine ⟨fun s c hc => ⟨fun hr => ⟨?_, ?_⟩, fun hr => ⟨?_, ?_⟩⟩,
    fun s p hp => ⟨fun hb hq => ?_, fun h => ?_, fun hr => ?_, fun t rest hq hr he => ⟨fun ht => ?_, fun ht => ?_⟩⟩⟩
  · exact next_congr (doHoldFreeze_ring hc hr)
  · exact next_congr (doHoldRelease_ring hc hr)
  · exact next_congr (doHoldFreeze_noRing hr)
  · exact next_congr (doHoldRelease_noRing hr)
  · exact next_congr (doCsi2TxConfigApply_quiet hp hb hq)
  · exact next_congr (doCsi2TxConfigApply_midFrame h)
  · exact next_congr (doCsi2PhyRestartDone_restarting hp hr)
  · exact next_congr ((doCsi2TxPacketSent_sends hp hq hr he).trans (if_neg ht))
  · exact next_congr ((doCsi2TxPacketSent_sends hp hq hr he).trans (if_pos ht))

end Sys2Proof.Machine

/-! PROOFS. Self-tests and spare tests, wear and replacement, table memory, and the errors that end in the safe state (R158, R161,
R304, R417, R420 to R422, R427, R428, R473). -/

namespace Sys2Proof.Machine
open Sys2Proof

/-! ## Self-tests of slices, and tests of spares (R420) -/

/-- The test of an idle active slice that has not failed ends as its result says. -/
theorem doSelfTestInGap_idle {s : State} {l : Nat} (hl : l < activeSlices s.variant) (hidle : ∀ r ∈ s.running, r.slice ≠ l)
    (hf : s.rsv.failed.contains (0, act s RSV_SLICE_MAP_PHYS / 8 ^ l % 8) = false) (result : Nat) : doSelfTestInGap l result s =
      if result = 1 then s |> inc RSV_TEST_DONE |> wr RSV_TEST_STARVED 0
      else if result = 2 then sliceFailed (act s RSV_SLICE_MAP_PHYS / 8 ^ l % 8) s
      else s := by
  have hbusy : (s.running.any fun r => r.slice == l) = false := by simpa using hidle
  exact if_neg (by rw [hbusy, hf]; simpa using hl)

theorem doReserveSelfTest_reserve {s : State} {n : Nat} (hn : reserveSlice s = some n) (hf : s.rsv.failed.contains (0, n) = false)
    (pass : Bool) : doReserveSelfTest pass s = if pass then inc RSV_TEST_DONE s else sliceFailed n s := by
  simp only [doReserveSelfTest, hn, hf, Bool.false_eq_true, if_false]

theorem doSpareTest_spare {s : State} {k n : Nat} (hk : k = 1 ∨ k = 2 ∨ k = 5) (hf : s.rsv.failed.contains (k, n) = false)
    (pass : Bool) : doSpareTest k n pass s = if pass then inc RSV_TEST_DONE s
      else s |> noteFailed k n |> addTotal (5 + k) 1 |> recordError ((rsvErr 1 k).setting RSV_EVT_WEAR) :=
  if_pos ⟨hk, by rw [hf]; rfl⟩

/-! ## Wear signals and replacements that are due (R417) -/

/-- An entry of the list of due replacements is for the resource. -/
def isDueFor (k n row : Nat) (d : Nat × Nat × Nat × Nat) : Bool := d.1 == k && d.2.1 == n && d.2.2.1 == row

/-- A note is of this signal of the resource. -/
def isNoteOf (k n row sig : Nat) (x : WearNote) : Bool := x.kind == k && x.inst == n && x.row == row && x.signal == sig

/-- The notes of the signal that its window still counts. -/
def recentNotes (k n row sig : Nat) (s : State) : List WearNote :=
  s.rsv.wears.filter fun x => isNoteOf k n row sig x && decide (operNs s < x.at_ + wearWindow k)

/-- The notes of every other signal. -/
def otherNotes (k n row sig : Nat) (s : State) : List WearNote := s.rsv.wears.filter fun x => !isNoteOf k n row sig x

theorem recordError_rsv (e : ErrInfo) (s : State) : (recordError e s).rsv = s.rsv :=
  (recordError_ev rfl (ev_refl [.regs, .queues, .readPorts, .svcStats, .jnl] s) e).same (x := .rsv) (by decide)

section
variable {s : State} {k n row sig m : Nat}

theorem noteWear_below (hm : m ≠ 0) (h : ((recentNotes k n row sig s).map (·.count)).sum + m < wearLimit s k sig) :
    noteWear k n row sig m s = { s with rsv := { s.rsv with
      wears := otherNotes k n row sig s ++ recentNotes k n row sig s ++ [⟨k, n, row, sig, operNs s, m⟩] } } :=
  (if_neg hm).trans (if_neg (Nat.not_le.mpr h))

theorem noteWear_reached (hm : m ≠ 0) (h : wearLimit s k sig ≤ ((recentNotes k n row sig s).map (·.count)).sum + m) :
    noteWear k n row sig m s = wearReached k n row sig { s with rsv := { s.rsv with wears := otherNotes k n row sig s } } :=
  (if_neg hm).trans (if_pos h)

/-- A threshold reached makes the replacement due where none was. -/
theorem wearReached_notDue (h : s.rsv.due.any (isDueFor k n row) = false) : wearReached k n row sig s =
    let w := recordError ((rsvErr 1 k).setting RSV_EVT_WEAR) s
    { w with rsv := { w.rsv with due := w.rsv.due ++ [(k, n, row, sig)] } } := by
  rw [← recordError_rsv ((rsvErr 1 k).setting RSV_EVT_WEAR)] at h
  exact if_neg (Bool.eq_false_iff.mp h)

/-! ## REPLACED (R417, R421) -/

/-- What REPLACED does once the signals are counted: a replacement that is due is begun and taken off the list. -/
def takeDue (k n row : Nat) (s : State) : State :=
  match s.rsv.due.find? (isDueFor k n row) with
  | none => s
  | some d => replaceFor k n row d.2.2.2 { s with rsv := { s.rsv with due := s.rsv.due.filter fun x => !isDueFor k n row x } }

theorem doReplaced_here (h : resourceHere s.variant k n = true) : doReplaced k n row sig m s =
    takeDue k n row (if s.rsv.due.any (isDueFor k n row) then s else noteWear k n row sig m s) :=
  if_neg (by simp [h])

theorem takeDue_notDue (h : s.rsv.due.any (isDueFor k n row) = false) : takeDue k n row s = s := by
  have hfind : s.rsv.due.find? (isDueFor k n row) = none := List.find?_eq_none.mpr (by simpa using h)
  simp only [takeDue, hfind]

theorem takeDue_due (h : s.rsv.due.any (isDueFor k n row) = true) : ∃ d ∈ s.rsv.due, isDueFor k n row d = true ∧
    takeDue k n row s =
      replaceFor k n row d.2.2.2 { s with rsv := { s.rsv with due := s.rsv.due.filter fun x => !isDueFor k n row x } } := by
  obtain ⟨d, hd⟩ := Option.isSome_iff_exists.mp (List.find?_isSome.mpr (List.any_eq_true.mp h))
  exact ⟨d, List.mem_of_find?_eq_some hd, List.find?_some hd, by simp only [takeDue, hd]⟩

/-- An entry made just now is taken off again, and the list is as it was. -/
theorem takeDue_added (h : s.rsv.due.any (isDueFor k n row) = false) :
    takeDue k n row { s with rsv := { s.rsv with due := s.rsv.due ++ [(k, n, row, sig)] } } = replaceFor k n row sig s := by
  have hno : ∀ d ∈ s.rsv.due, isDueFor k n row d = false := by simpa using h
  have hnew : isDueFor k n row (k, n, row, sig) = true := by simp [isDueFor]
  have hfind : (s.rsv.due ++ [(k, n, row, sig)]).find? (isDueFor k n row) = some (k, n, row, sig) := by
    rw [List.find?_append, List.find?_eq_none.mpr (by simpa using hno), List.find?_singleton, hnew]
    rfl
  have hfilter : (s.rsv.due ++ [(k, n, row, sig)]).filter (fun x => !isDueFor k n row x) = s.rsv.due := by
    rw [List.filter_append, List.filter_eq_self.mpr (by simpa using hno), List.filter_singleton, hnew]
    exact List.append_nil _
  simp only [takeDue, hfind, hfilter]

theorem takeDue_wearReached (h : s.rsv.due.any (isDueFor k n row) = false) : takeDue k n row (wearReached k n row sig s) =
    replaceFor k n row sig (recordError ((rsvErr 1 k).setting RSV_EVT_WEAR) s) := by
  rw [wearReached_notDue h]
  exact takeDue_added (by rw [recordError_rsv]; exact h)

section
variable (hres : resourceHere s.variant k n = true)
include hres

theorem doReplaced_due (h : s.rsv.due.any (isDueFor k n row) = true) : doReplaced k n row sig m s = takeDue k n row s := by
  rw [doReplaced_here hres, if_pos h]

section
variable (hdue : s.rsv.due.any (isDueFor k n row) = false)
include hdue

theorem doReplaced_notDue : doReplaced k n row sig m s = takeDue k n row (noteWear k n row sig m s) := by
  rw [doReplaced_here hres, if_neg (Bool.eq_false_iff.mp hdue)]

theorem doReplaced_noSignal : doReplaced k n row sig 0 s = s := by
  rw [doReplaced_notDue hres hdue, noteWear, if_pos rfl, takeDue_notDue hdue]

theorem doReplaced_below (hm : m ≠ 0) (h : ((recentNotes k n row sig s).map (·.count)).sum + m < wearLimit s k sig) :
    doReplaced k n row sig m s = { s with rsv := { s.rsv with
      wears := otherNotes k n row sig s ++ recentNotes k n row sig s ++ [⟨k, n, row, sig, operNs s, m⟩] } } := by
  rw [doReplaced_notDue hres hdue, noteWear_below hm h]
  exact takeDue_notDue hdue

theorem doReplaced_reached (hm : m ≠ 0) (h : wearLimit s k sig ≤ ((recentNotes k n row sig s).map (·.count)).sum + m) :
    doReplaced k n row sig m s = replaceFor k n row sig (recordError ((rsvErr 1 k).setting RSV_EVT_WEAR)
      { s with rsv := { s.rsv with wears := otherNotes k n row sig s } }) := by
  rw [doReplaced_notDue hres hdue, noteWear_reached hm h]
  exact takeDue_wearReached hdue

end
end
end

/-! ## REPLACE_RETRY (R421) -/

theorem doReplaceRetry_oldest {s : State} {r : Repl} {rest : List Repl} {m : Nat × Nat} (hr : s.rsv.refused = r :: rest)
    (hc : s.rsv.cur = none) (hw : r ∉ s.rsv.waiting) (hm : newMapOf s r.kind r.inst r.row = some m) :
    doReplaceRetry s = beginRepl { r with oldMap := m.1, newMap := m.2 } s := by
  simp only [doReplaceRetry, hr, hm]
  exact if_neg (by simp [hc, hw])

/-! ## Table memory (R158, R161, R473) -/

section
variable {s : State} {o : Orig} {a k : Nat} {bytes : List (Option Nat)} (ho : o ≠ .t1) (hk : tableKind a = some k) (hk1 : k ≠ 1)
  (hall : ∀ x ∈ selected a bytes, tableKind x.1 = some k)
include ho hk hk1 hall

/-- A write that lies in one table memory, not that of another block, is stored whole or denied whole. -/
theorem tableStore_eq : tableStore o a bytes s =
    if !sessionOf s o 0 || (selected a bytes).any (fun x => inRanges (storeRanges s) x.1)
        || (selected a bytes).any (fun x => inRanges ((tableBanks s).flatMap (protectedIn s.chip)) x.1) then deny a s
    else each (selected a bytes) (fun x s => tableWrite x.1 [x.2 % 256] s) s := by
  have hin : (selected a bytes).all (fun x => tableKind x.1 == some k) = true := by simpa using hall
  unfold tableStore
  split
  · next h => cases hk.symm.trans h
  · next h => exact absurd (Option.some.inj (hk.symm.trans h)) hk1
  · next k' _ h =>
    cases hk.symm.trans h
    rw [if_neg ho, if_neg (by rw [hin]; decide)]

theorem tableStore_noSession (h : sessionOf s o 0 = false) : tableStore o a bytes s = deny a s :=
  (tableStore_eq ho hk hk1 hall).trans (if_pos (by simp [h]))

theorem tableStore_clear (h : sessionOf s o 0 = true)
    (hclear : ∀ x ∈ selected a bytes, inRanges (storeRanges s) x.1 = false ∧
      inRanges ((tableBanks s).flatMap (protectedIn s.chip)) x.1 = false) :
    tableStore o a bytes s = each (selected a bytes) (fun x s => tableWrite x.1 [x.2 % 256] s) s := by
  have hstore : (selected a bytes).any (fun x => inRanges (storeRanges s) x.1) = false :=
    List.any_eq_false.mpr fun x hx => Bool.eq_false_iff.mp (hclear x hx).1
  have htables : (selected a bytes).any (fun x => inRanges ((tableBanks s).flatMap (protectedIn s.chip)) x.1) = false :=
    List.any_eq_false.mpr fun x hx => Bool.eq_false_iff.mp (hclear x hx).2
  exact (tableStore_eq ho hk hk1 hall).trans (if_neg (by rw [h, hstore, htables]; decide))

end

@[simp] theorem deny_ram (a : Nat) (s : State) : (deny a s).ram = s.ram := by simp [deny]

/-! ## O36 -/

/-- Settles O36, command by command; REPLACED by whether its replacement is due. -/
theorem testsWearAndReplacement : Obligations.TestsWearAndReplacement := by
  refine ⟨fun s l hl hidle => ?_, fun s n hn hf => ⟨?_, ?_⟩, fun s => rfl, fun s k n hk hf => ⟨?_, ?_⟩,
    fun s k n row sig m hres => ⟨fun d hd hhere => ?_, fun hno => ?_⟩, fun s r rest m hB hr hc hw hm => ?_,
    fun s o a k bytes hp ho hk hk1 hall => ⟨fun h => ?_, fun h hclear => ?_⟩, fun s src t => ⟨rfl, rfl⟩,
    fun s tj => ⟨fun h => ?_, fun h => ?_⟩⟩
  · intro n hf
    have test (result : Nat) := doSelfTestInGap_idle hl hidle hf result
    exact ⟨next_congr (test 0), next_congr (test 1), next_congr (test 2)⟩
  · exact next_congr (doReserveSelfTest_reserve hn hf true)
  · exact next_congr (doReserveSelfTest_reserve hn hf false)
  · exact next_congr (doSpareTest_spare hk hf true)
  · exact next_congr (doSpareTest_spare hk hf false)
  · have hdue : s.rsv.due.any (isDueFor k n row) = true := List.any_eq_true.mpr ⟨d, hd, hhere⟩
    obtain ⟨d', hd', hhere', e⟩ := takeDue_due hdue
    exact ⟨d', hd', hhere', next_congr ((doReplaced_due hres hdue).trans e)⟩
  · have hdue : s.rsv.due.any (isDueFor k n row) = false := List.any_eq_false.mpr fun d hd => Bool.eq_false_iff.mp (hno d hd)
    refine ⟨?_, fun hm h => ⟨_, next_congr (doReplaced_below hres hdue hm h)⟩,
      fun hm h => ⟨_, _, rfl, ⟨_, rfl⟩, next_congr (doReplaced_reached hres hdue hm h)⟩⟩
    rintro rfl
    exact next_congr (doReplaced_noSignal hres hdue)
  · exact next_congr ((if_neg (Bool.eq_false_iff.mp hB)).trans (doReplaceRetry_oldest hr hc hw hm))
  · exact ⟨_, next_congr ((if_pos hp).trans (tableStore_noSession ho hk hk1 hall h)), rfl, deny_ram a s⟩
  · exact next_congr ((if_pos hp).trans (tableStore_clear ho hk hk1 hall h hclear))
  · exact next_congr (if_pos h)
  · exact next_congr (if_neg (Int.not_lt.mpr h))

end Sys2Proof.Machine

/-! PROOFS. The LIVE block that an exposure loop writes, for a context number past the last context record (R205, R206). -/

namespace Sys2Proof.Machine
open Sys2Proof

/-! ## A loop of a context past the last record -/

/-- A context number past the 16,384 context records: its record would lie in the linearisation directory, from set 4 on. -/
def strayCtx : Nat := 25089

/-- Linearisation set 4 is valid, and set 5 has a black level. Read as the record of `strayCtx`, the context is enabled and has a
statistics queue. -/
def strayBank : Sparse Word := [((PIX_LIN_CTRL_VALID 4).addr, 1), ((PIX_LIN_BL_BL 5 2).addr, 9)]

/-- The SERVICE record of a loop of `strayCtx` (R205). -/
def strayRecord : List Nat := leBytes 2 strayCtx ++ [1] ++ List.replicate 21 1

/-- An update whose delay is over: 100 µs, and gains of 1.0. -/
def dueUpd : LoopUpd := ⟨.effect 0, 100, 0x1000, [0x1000, 0x1000, 0x1000, 0x1000]⟩

/-- The service cores hold that record, and its one update is due. -/
def strayLoop : State :=
  { State.reset with
    cfgA := strayBank, cfgB := strayBank
    ldr := { State.reset.ldr with services := [⟨0x0601, strayRecord, 0, 0, 0⟩] }
    loops := [(strayCtx, ⟨[dueUpd]⟩)] }

theorem strayLoop_runs : stoppedA strayLoop = false ∧ loopRecord strayLoop strayCtx = some strayRecord ∧
    loopRuns strayLoop.chip strayLoop.cfgA strayCtx = true ∧ passive strayLoop (act strayLoop (CTX_PORT strayCtx)) = false := by
  decide +kernel

/-- The first word of the block is no LIVE word but the black levels of set 7: the burst changes the basting bank there. -/
theorem strayLoop_sets_blackLevel :
    bankFld strayLoop.chip strayLoop.cfgB (PIX_LIN_BL_BL 7 3) = 0 ∧
    bankFld strayLoop.chip (doLiveBlockWrite strayCtx strayLoop).cfgB (PIX_LIN_BL_BL 7 3) = 0x1000 := by decide +kernel

theorem execLiveBlockWrite_running {s : State} (h : stoppedA s = false) (c : Nat) :
    exec (.liveBlockWrite c) s = .next (doLiveBlockWrite c s) :=
  next_congr (if_neg (Bool.eq_false_iff.mp h))

/-! ## O37 -/

/-- Refutes O37: its last clause says of every number `c` that the banks stand, but the LIVE block of a number past the last context
record lies among other registers, and LIVE_BLOCK_WRITE of such a loop writes those in the basting bank. -/
theorem not_journalAndLoops : ¬ Obligations.JournalAndLoops := by
  rintro ⟨-, -, -, -, -, hloop⟩
  obtain ⟨hA, hrecord, hruns, hactive⟩ := strayLoop_runs
  obtain ⟨-, hlive⟩ := hloop strayLoop strayCtx strayRecord hA hrecord hruns hactive
  obtain ⟨t, hexec, -, -, hbank, -⟩ := hlive dueUpd [] rfl rfl
  cases (execLiveBlockWrite_running hA strayCtx).symm.trans hexec
  obtain ⟨hbefore, hafter⟩ := strayLoop_sets_blackLevel
  rw [hbank, hbefore] at hafter
  exact absurd hafter (by decide)

end Sys2Proof.Machine

/-! PROOFS. Lines and frame ends at the seam, and composites that stop waiting (R210, R214, R217, R220, R225, R408, R413). -/

namespace Sys2Proof.Machine
open Sys2Proof

/-! ## SEAM_LINE (R210, R225) -/

/-- The oldest line that is due enters, unless the frame has not begun and an offer of the baton holds it back (R413). -/
theorem doSeamLine_lineDue {s : State} {c : Nat} {f : FrameSt} (hf : atSeam s c = some f) {l : OutLine} {rest : List OutLine}
    (hl : f.outq = l :: rest) (hbaton : (classM s f && s.rly.offered && f.entered == 0) = false) (bad : List Nat) :
    doSeamLine c bad s =
      let f' := { f with outq := rest, entered := f.entered + 1 }
      let u := s |> putFrame f' |> wr (CTX_LINES_OUT c) (f.entered + 1)
      let v := if f.entered = 0 then enterSeam f' u else u
      passOrHold f' l bad (if hasBit l.flags 4 = true then sealFailed f v else v) := by
  simp only [doSeamLine, hf, hl]
  exact if_neg (by simp [hbaton])

/-! ## SEAM_FRAME_END (R217, R220) -/

/-- The part of a source with frame `id` has tag fields: those it had, or `fin`. -/
def givePart (id : Nat) (fin : FrameFinal) (p : SrcPart) : SrcPart :=
  if p.frame = some id then { p with final := some (p.final.getD fin) } else p

/-- The frame gives its tag fields to every output that it feeds. -/
def giveTag (f : FrameSt) (s : State) : State :=
  { s with outs := s.outs.map fun x => { x with srcs := x.srcs.map (givePart f.id (finalOf s f)) } }

/-- The frame as its end leaves it, its ingress checks made. -/
def endedFrame (f : FrameSt) (s : State) : FrameSt := { (ingressCheck f s).1 with ended := true }

/-- The frame has ended and its tag fields are given; it counts as delivered if it has taken an alive value. -/
def endFrame (f : FrameSt) (s : State) : State :=
  let g := endedFrame f s
  let t := giveTag g (putFrame g (ingressCheck f s).2)
  if g.alive.isNone then t else deliverFrame g t

theorem givePart_final {id : Nat} {fin : FrameFinal} {p : SrcPart} (h : (givePart id fin p).frame = some id) :
    (givePart id fin p).final.isSome = true := by
  unfold givePart at h ⊢
  split
  · rfl
  · next hp => exact absurd (by rwa [if_neg hp] at h) hp

theorem giveTag_gives {f : FrameSt} {s : State} :
    ∀ x ∈ (giveTag f s).outs, ∀ p ∈ x.srcs, p.frame = some f.id → p.final.isSome = true := by
  intro x hx p hp hid
  obtain ⟨y, -, rfl⟩ := List.mem_map.mp hx
  obtain ⟨q, -, rfl⟩ := List.mem_map.mp hp
  exact givePart_final hid

@[simp] theorem deliverFrame_outs (f : FrameSt) (s : State) : (deliverFrame f s).outs = s.outs := by simp [deliverFrame]

theorem endFrame_outs (f : FrameSt) (s : State) :
    (endFrame f s).outs = (giveTag (endedFrame f s) (putFrame (endedFrame f s) (ingressCheck f s).2)).outs := by
  simp only [endFrame]
  split
  · rfl
  · exact deliverFrame_outs ..

/-- Every output that the frame feeds has its tag fields. -/
theorem endFrame_gives (f : FrameSt) (s : State) :
    ∀ x ∈ (endFrame f s).outs, ∀ p ∈ x.srcs, p.frame = some (ingressCheck f s).1.id → p.final.isSome = true := by
  rw [endFrame_outs]
  exact giveTag_gives (f := endedFrame f s)

section
variable {s : State} {c : Nat} {f : FrameSt} (hf : atSeam s c = some f) (bad : List (Nat × Nat))
include hf

theorem doSeamFrameEnd_allEntered (h : allEntered s f = true) :
    doSeamFrameEnd c bad s = (endFrame f s |> endFstate c |> closeComplete bad |> commitBaton) := by
  simp only [doSeamFrameEnd, hf, h]
  rfl

theorem doSeamFrameEnd_waiting (h : allEntered s f = false) : doSeamFrameEnd c bad s =
    if !f.isOpen && f.outq.isEmpty && !newerFrame s f then wr (CTX_FSTATE c) 3 s else s := by
  simp only [doSeamFrameEnd, hf]
  exact if_neg (by simp [h])

theorem doSeamFrameEnd_lastLines (h : allEntered s f = false) (hopen : f.isOpen = false) (hq : f.outq = []) :
    doSeamFrameEnd c bad s = if newerFrame s f then s else wr (CTX_FSTATE c) 3 s := by
  rw [doSeamFrameEnd_waiting hf bad h, hopen, hq]
  cases newerFrame s f <;> rfl

theorem doSeamFrameEnd_open (h : allEntered s f = false) (hopen : f.isOpen = true) : doSeamFrameEnd c bad s = s := by
  rw [doSeamFrameEnd_waiting hf bad h, hopen]
  rfl

end

/-! ## COMPOSITE_WAIT_EXPIRE (R214) -/

/-- The part of a source that lags: its frame's tag fields as they stand, or those of a frame that never started. -/
def giveLate (s : State) (x : OutFrame) (p : SrcPart) : SrcPart :=
  if p.got < x.total then
    { p with final := match p.frame.bind (frameById s) with | some f => some (finalOf s f) | none => some (neverStarted x p) }
  else p

/-- The composite waits no more: every source that lags has its tag fields. -/
def noLagging (s : State) (x : OutFrame) : OutFrame := { x with srcs := x.srcs.map (giveLate s x) }

theorem giveLate_got (s : State) (x : OutFrame) (p : SrcPart) : (giveLate s x p).got = p.got := by
  unfold giveLate
  split <;> rfl

theorem giveLate_final {s : State} {x : OutFrame} {p : SrcPart} (h : p.got < x.total) : (giveLate s x p).final.isSome = true := by
  unfold giveLate
  rw [if_pos h]
  cases p.frame.bind (frameById s) <;> rfl

theorem noLagging_gives {s : State} {x : OutFrame} : ∀ p ∈ (noLagging s x).srcs, p.got < x.total → p.final.isSome = true := by
  intro p hp hlate
  obtain ⟨q, -, rfl⟩ := List.mem_map.mp hp
  exact giveLate_final (giveLate_got s x q ▸ hlate)

theorem doCompositeWaitExpire_waiting {s : State} {o : Nat} {x : OutFrame}
    (hx : s.outs.find? (fun x => x.o == o && waitsFor x) = some x) : doCompositeWaitExpire o s =
      (s |> putOut (noLagging s x) |> emitDue x.serial true [] (x.total + 1) |> closeComplete []) := by
  simp only [doCompositeWaitExpire, hx]
  rfl

/-- A composite waits if some source has delivered all its lines, some source lags, and of these at most one has started. -/
theorem waitsFor_iff (x : OutFrame) : waitsFor x = true ↔
    x.mode = 1 ∧ (∃ p ∈ x.srcs, x.total ≤ p.got) ∧ (∃ p ∈ x.srcs, p.got < x.total) ∧
      (x.srcs.filter fun p => decide (p.got < x.total) && p.frame.isSome).length ≤ 1 := by
  have hlate : (!(x.srcs.filter fun p => decide (p.got < x.total)).isEmpty) = true ↔ ∃ p ∈ x.srcs, p.got < x.total := by simp
  have hdone : x.srcs.any (fun p => decide (x.total ≤ p.got)) = true ↔ ∃ p ∈ x.srcs, x.total ≤ p.got := by simp
  have hstarted : ((x.srcs.filter fun p => decide (p.got < x.total)).filter fun p => p.frame.isSome) =
      x.srcs.filter fun p => decide (p.got < x.total) && p.frame.isSome := by
    simp only [List.filter_filter, Bool.and_comm]
  simp only [waitsFor, Bool.and_eq_true, beq_iff_eq, decide_eq_true_eq, hlate, hdone, hstarted]
  tauto

/-! ## O34 -/

/-- Settles O34, command by command; the last clause is the condition of R214 in full. -/
theorem seamLinesAndFrameEnds : Obligations.SeamLinesAndFrameEnds := by
  refine fun s c => ⟨fun f l rest bad hf hl hbaton => ?_,
    fun f bad hf => ⟨fun h => ?_, fun h hopen hq => ?_, fun h hopen => ?_⟩, fun o x hx => ?_, waitsFor_iff⟩
  · exact next_congr (doSeamLine_lineDue hf hl hbaton bad)
  · exact ⟨endFrame f s, next_congr (doSeamFrameEnd_allEntered hf bad h), endFrame_gives f s⟩
  · exact next_congr (doSeamFrameEnd_lastLines hf bad h hopen hq)
  · exact next_congr (doSeamFrameEnd_open hf bad h hopen)
  · exact ⟨noLagging s x, next_congr (doCompositeWaitExpire_waiting hx), rfl, noLagging_gives⟩

end Sys2Proof.Machine

/-! PROOFS. The two sets of a DMA channel, its index writes and START outside a halt (R251 to R254). -/

namespace Sys2Proof.Machine
open Sys2Proof

section
variable {s : State} {c : Nat}

/-! ## ARM (R252) -/

theorem doArm_legal (h : stagingOk s c = true) (q : Nat) : doArm c q s =
    (s |> setChan c { chanOf s c with armed := some (stagingSet s c q), nextSet := (chanOf s c).nextSet + 1 }
      |> wr (DMX_CH_NEXT_ARM_ARM c) 1 |> wr (DMX_CH_NEXT_ARM_SEQ c) q |> wr (DMX_CH_STAT_ARMED c) 1) := by
  simp only [doArm, h, Bool.not_true, Bool.false_eq_true, if_false]

theorem doArm_illegal (h : stagingOk s c = false) (q : Nat) : doArm c q s = rejectWrite (DMX_CH_EVT_ARM_REJ c) c s := by
  simp only [doArm, h, Bool.not_false, if_true]

/-! ## The index writes (R251, R253) -/

theorem doPiWrite_withoutSet (h : (chanOf s c).cur = none) (v : Nat) :
    doPiWrite c v s = rejectWrite (DMX_CH_EVT_PI_REJ c) c s := by simp only [doPiWrite, h]

theorem doCplCiWrite_withoutSet (h : (chanOf s c).cur = none) (v : Nat) :
    doCplCiWrite c v s = rejectWrite (DMX_CH_EVT_PI_REJ c) c s := by simp only [doCplCiWrite, h]

/-- The producer index may not run ahead of the consumer index by more than the ring holds. -/
theorem doPiWrite_withSet {d : DmaSet} (h : (chanOf s c).cur = some d) (v : Nat) : doPiWrite c v s =
    if 2 ^ d.ringLog2 < (v + 2 ^ 16 - rd s (DMX_CH_IDX_CI c)) % 2 ^ 16 then rejectWrite (DMX_CH_EVT_PI_REJ c) c s
    else wr (DMX_CH_PI_PI c) v s := by simp only [doPiWrite, h]

/-- Only records that are written can be freed. -/
theorem doCplCiWrite_withSet {d : DmaSet} (h : (chanOf s c).cur = some d) (v : Nat) : doCplCiWrite c v s =
    if (d.k + 2 ^ 16 - rd s (DMX_CH_CPL_CI_CI c)) % 2 ^ 16 < (v + 2 ^ 16 - rd s (DMX_CH_CPL_CI_CI c)) % 2 ^ 16 then
      rejectWrite (DMX_CH_EVT_PI_REJ c) c s
    else wr (DMX_CH_CPL_CI_CI c) v s := by simp only [doCplCiWrite, h]

/-! ## Taking the armed set (R253) -/

theorem takeSet_armed {d : DmaSet} (h : (chanOf s c).armed = some d) : ∃ old, takeSet c s =
    (s |> setChan c { chanOf s c with cur := some d, armed := none, old }
      |> wr (DMX_CH_STAT_ARMED c) 0 |> wr (DMX_CH_NEXT_ARM_ARM c) 0 |> wr (DMX_CH_IDX_CI c) 0 |> wr (DMX_CH_IDX_CPL_PI c) 0
      |> wr (DMX_CH_CPL_CI_CI c) 0 |> wr (DMX_CH_PI_PI c) d.pi |> wr (DMX_CH_STAT_TAKEN_SEQ c) d.seq
      |> wr (DMX_CH_EVT_SET_TAKEN c) 1) := by
  simp only [takeSet, h]
  exact ⟨_, rfl⟩

theorem takeSet_shows {d : DmaSet} (h : (chanOf s c).armed = some d) :
    let t := takeSet c s
    (chanOf t c).cur = some d ∧ (chanOf t c).armed = none ∧ rd t (DMX_CH_IDX_CI c) = 0 ∧ rd t (DMX_CH_IDX_CPL_PI c) = 0 ∧
    rd t (DMX_CH_CPL_CI_CI c) = 0 ∧ rd t (DMX_CH_PI_PI c) = d.pi % 2 ^ 16 ∧ rd t (DMX_CH_STAT_TAKEN_SEQ c) = d.seq % 256 ∧
    rd t (DMX_CH_STAT_ARMED c) = 0 ∧ rd t (DMX_CH_EVT_SET_TAKEN c) = 1 ∧ t.out = s.out := by
  obtain ⟨old, e⟩ := takeSet_armed h
  intro t
  simp only [t, e]
  simp (disch := (dsimp only; omega)) [rd_wr_same, rd_wr_other]

/-! ## START (R254) -/

theorem doStart_unloaded (h : s.ldr.loaded = false) : doStart c s = s := by
  simp only [doStart, h, Bool.not_false, if_true]

theorem doStart_halted (hl : s.ldr.loaded = true) (h : chanState s c = 3) : doStart c s = resume c s := by
  simp only [doStart, hl, h, Bool.not_true, Bool.false_eq_true, if_false, if_true]

theorem doStart_running (hl : s.ldr.loaded = true) (h : chanState s c = 1 ∨ chanState s c = 2) : doStart c s = s := by
  have h3 : chanState s c ≠ 3 := by omega
  have h0 : chanState s c ≠ 0 := by omega
  simp only [doStart, hl, h3, h0, Bool.not_true, Bool.false_eq_true, if_false]

section
variable (hl : s.ldr.loaded = true) (h0 : chanState s c = 0)
include hl h0

theorem doStart_idle_armed {d : DmaSet} (h : (chanOf s c).armed = some d) :
    doStart c s = wr (DMX_CH_STAT_STATE c) 1 (takeSet c s) := by
  simp [doStart, hl, h0, h]

theorem doStart_idle_unarmed (h : (chanOf s c).armed = none) :
    doStart c s = if (chanOf s c).cur.isSome then wr (DMX_CH_STAT_STATE c) 1 s else wr (DMX_CH_EVT_ARM_REJ c) 1 s := by
  simp [doStart, hl, h0, h]

end

/-- A channel that takes its armed set and runs. -/
theorem start_takesArmed {d : DmaSet} (h : (chanOf s c).armed = some d) :
    let t := wr (DMX_CH_STAT_STATE c) 1 (takeSet c s)
    chanState t c = 1 ∧ (chanOf t c).cur = some d ∧ (chanOf t c).armed = none ∧ rd t (DMX_CH_IDX_CI c) = 0 ∧
    rd t (DMX_CH_IDX_CPL_PI c) = 0 ∧ rd t (DMX_CH_CPL_CI_CI c) = 0 ∧ rd t (DMX_CH_PI_PI c) = d.pi % 2 ^ 16 ∧
    rd t (DMX_CH_STAT_TAKEN_SEQ c) = d.seq % 256 ∧ rd t (DMX_CH_STAT_ARMED c) = 0 ∧ rd t (DMX_CH_EVT_SET_TAKEN c) = 1 ∧
    t.out = s.out := by
  simp (disch := (dsimp only; omega)) only [chanState, rd_wr_same, rd_wr_other, chanOf_wr, wr_out]
  exact ⟨rfl, takeSet_shows h⟩

end

/-! ## O21 -/

/-- Settles O21, command by command, from the equations of each. -/
theorem dmaSets : Obligations.DmaSets := by
  intro s c hc
  refine ⟨fun q h => ?_, fun q h => ?_, ?_, fun d v hd _ => ⟨fun h => ?_, fun h => ?_, fun h => ?_, fun h => ?_⟩,
    fun hn v => ⟨?_, ?_⟩, fun _ => rfl, fun hl => ⟨fun h0 d hd _ => ?_, fun h0 hn => ?_, fun h => ?_⟩, fun hl => ?_⟩
  · exact next_congr ((if_pos hc).trans (doArm_legal h q))
  · exact next_congr ((if_pos hc).trans (doArm_illegal h q))
  · exact next_congr (if_pos hc)
  · exact next_congr ((if_pos hc).trans ((doPiWrite_withSet hd v).trans (if_neg (Nat.not_lt.mpr h))))
  · exact next_congr ((if_pos hc).trans ((doPiWrite_withSet hd v).trans (if_pos h)))
  · exact next_congr ((if_pos hc).trans ((doCplCiWrite_withSet hd v).trans (if_neg (Nat.not_lt.mpr h))))
  · exact next_congr ((if_pos hc).trans ((doCplCiWrite_withSet hd v).trans (if_pos h)))
  · exact next_congr ((if_pos hc).trans (doPiWrite_withoutSet hn v))
  · exact next_congr ((if_pos hc).trans (doCplCiWrite_withoutSet hn v))
  · exact ⟨_, next_congr ((if_pos hc).trans (doStart_idle_armed hl h0 hd)), start_takesArmed hd⟩
  · exact next_congr ((if_pos hc).trans (doStart_idle_unarmed hl h0 hn))
  · exact next_congr ((if_pos hc).trans (doStart_running hl h))
  · exact next_congr ((if_pos hc).trans (doStart_unloaded hl))

end Sys2Proof.Machine

/-! PROOFS. The commands of a host port's link, function and MSI-X vectors (R234 to R238, R296, R299), and O24. -/

namespace Sys2Proof.Machine
open Sys2Proof

section
variable {s : State} {p : Nat}

/-! ## A trained link (R234 to R236) -/

/-- What a trained link shows, before it is compared with what was declared. -/
def showLink (p rate width : Nat) (flit : Bool) (s : State) : State :=
  s |> wr (HLK_STAT_UP p) 1 |> wr (HLK_STAT_RATE p) (min rate 5) |> wr (HLK_STAT_WIDTH p) width |> wr (HLK_STAT_FLIT p) (bit flit)
    |> setHostPort p { hostPort s p with linkRate := rateOf rate }

section
variable (rate width : Nat) (flit : Bool)

/-- Training leaves what is declared. -/
theorem cfgI_showLink (isl : Nat) (r : RF) : cfgI (showLink p rate width flit s) isl r = cfgI s isl r := by
  unfold showLink
  rw [cfgI_setHostPort]
  simp (disch := (dsimp only; omega)) only [cfgI_wr]

theorem linkRate_showLink : (hostPort (showLink p rate width flit s) p).linkRate = rateOf rate :=
  congrArg HostPortSt.linkRate (hostPort_setHostPort_same ..)

theorem width_showLink : rd (showLink p rate width flit s) (HLK_STAT_WIDTH p) = width % 8 := by
  unfold showLink
  simp (disch := (dsimp only; omega)) only [rd_setHostPort, rd_wr_other, rd_wr_same]
  rfl

end

section
variable {rate width : Nat} {flit : Bool}

/-- The usable write rate by rate and width (R235). -/
theorem usableRate_showLink (h1 : 1 ≤ rate) (h6 : rate ≤ 6) (hw : width < 8) :
    usableRate (showLink p rate width flit s) p = [0, 3500, 7000, 14000, 26000, 1750, 875].getD rate 0 * width / 4 := by
  unfold usableRate
  rw [linkRate_showLink, width_showLink, Nat.mod_eq_of_lt hw]
  interval_cases rate <;> rfl

/-- The link is compared with the declared rate and the full width (R236). -/
theorem doHostLinkTrained_eq : doHostLinkTrained p rate width flit s =
    let t := showLink p rate width flit s
    if 5 ≤ rate ∨ rate < cfgI s (islHL p) (HLK_CFG_DECL_RATE p) ∨ width < 4 then
      recordError { hlkErr 2 p with evts := [HLK_EVT_DEGRADED p] } t
    else t := by
  rw [← cfgI_showLink rate width flit]
  rfl

/-- A link trains to the rates and widths of R234 and to no other. -/
theorem exec_hostLinkTrained_possible (hp : portHere s p = true) (h1 : 1 ≤ rate) (h6 : rate ≤ 6)
    (hw : width = 1 ∨ width = 2 ∨ width = 4) (hf : rate = 4 → flit = true) :
    exec (.hostLinkTrained p rate width flit) s = .next (doHostLinkTrained p rate width flit s) := by
  have hflit : (flit || rate != 4) = true := by
    by_cases h : rate = 4
    · simp [hf h]
    · simp [h]
  have hwidth : (width == 1 || width == 2 || width == 4) = true := by simpa [or_assoc] using hw
  exact next_congr (if_pos (by simp only [hp, h1, h6, hflit, hwidth, decide_true, Bool.and_self]))

theorem exec_hostLinkTrained_withoutFlit : exec (.hostLinkTrained p 4 width false) s = .next s :=
  next_congr (if_neg (by simp))

end

/-! ## MSI-X vectors (R238, R296) -/

theorem doVectorUnmask_vector {v : Nat} (h : v < 64) : doVectorUnmask p v s = flushVectors p (wr (MSIX_CTRL_MASK p v) 0 s) :=
  congrArg (flushVectors p) (if_pos h)

/-- The numbers past the vectors stand for the bits of the capability. -/
theorem doVectorUnmask_capability :
    doVectorUnmask p 64 s = flushVectors p (setHostPort p { hostPort s p with msixEnable := true } s) ∧
    doVectorUnmask p 65 s = flushVectors p (setHostPort p { hostPort s p with funcMask := false } s) ∧
    doVectorUnmask p 66 s = flushVectors p (setHostPort p { hostPort s p with msixEnable := false } s) ∧
    doVectorUnmask p 67 s = flushVectors p (setHostPort p { hostPort s p with funcMask := true } s) :=
  ⟨rfl, rfl, rfl, rfl⟩

end

/-! ## O24 -/

/-- Settles O24, command by command. -/
theorem hostPortEvents : Obligations.HostPortEvents := by
  intro s p hp
  obtain ⟨h64, h65, h66, h67⟩ := doVectorUnmask_capability (s := s) (p := p)
  refine ⟨fun rate width flit h1 h6 hw => ?_, next_congr (if_pos hp), next_congr (if_pos hp), next_congr (if_pos hp),
    fun hd => next_congr (if_pos (by rw [hp, hd]; rfl)), next_congr (if_pos hp), next_congr (if_pos hp),
    fun n => next_congr (if_pos hp), fun v hv => next_congr ((if_pos hp).trans (doVectorUnmask_vector hv)),
    next_congr ((if_pos hp).trans h64), next_congr ((if_pos hp).trans h65), next_congr ((if_pos hp).trans h66),
    next_congr ((if_pos hp).trans h67), next_congr (if_pos hp)⟩
  intro t
  refine ⟨fun hr hf => ?_, fun hf hslow => ?_, fun hf h5 hd h4 => ?_, usableRate_showLink h1 h6 (by omega)⟩
  · subst hr hf
    exact exec_hostLinkTrained_withoutFlit
  · exact (exec_hostLinkTrained_possible hp h1 h6 hw hf).trans (next_congr (doHostLinkTrained_eq.trans (if_pos hslow)))
  · exact (exec_hostLinkTrained_possible hp h1 h6 hw hf).trans (next_congr (doHostLinkTrained_eq.trans (if_neg (by omega))))

end Sys2Proof.Machine

/-! PROOFS. A frame's buffer: taking it, its ring entry and list, bursts, and the flush read (R234, R241, R244 to R248, R258), and
O23. -/

namespace Sys2Proof.Machine
open Sys2Proof

section
variable {s : State} {c : Nat}

/-! ## Taking a posted buffer (R244) -/

section
variable {f : ChFrame} {d : DmaSet} (hf : chFrame s c f.serial = some f) (hd : (chanOf s c).cur = some d) {lim : Nat}
include hf hd

theorem tryTake_posted (h1 : chanState s c = 1) (hci : lim % 2 ^ 16 ≠ rd s (DMX_CH_IDX_CI c)) (hfree : cplFree s c d = true) :
    tryTake c f.serial lim s = (s |> wr (DMX_CH_IDX_CI c) (rd s (DMX_CH_IDX_CI c) + 1)
      |> putSet c { d with reserved := d.reserved + 1 } |> putChFrame c { f with take := .waiting d.id lim } |> askRing c d (rd s (DMX_CH_IDX_CI c)) |> settleState c, true) := by
  simp only [tryTake, hf, hd]
  exact if_pos ⟨h1, hci, hfree⟩

theorem tryTake_none (h : chanState s c ≠ 1 ∨ lim % 2 ^ 16 = rd s (DMX_CH_IDX_CI c) ∨ cplFree s c d = false) :
    tryTake c f.serial lim s = (s, false) := by
  simp only [tryTake, hf, hd]
  exact if_neg fun ⟨h1, hci, hfree⟩ => h.elim (· h1) fun h => h.elim hci fun h => by simp [h] at hfree

end

theorem doBufferTake_taken {f : ChFrame} (h : (chanOf s c).frames.find? (fun f => f.take == .pending) = some f) {t : State}
    (ht : tryTake c f.serial (rd s (DMX_CH_PI_PI c)) s = (t, true)) : doBufferTake c s = t := by
  simp only [doBufferTake, h, ht, if_true]

theorem doBufferTake_refused {f : ChFrame} (h : (chanOf s c).frames.find? (fun f => f.take == .pending) = some f)
    (ht : tryTake c f.serial (rd s (DMX_CH_PI_PI c)) s = (s, false)) : doBufferTake c s = refuseTake c f.serial s := by
  simp only [doBufferTake, h, ht, Bool.false_eq_true, if_false]

/-- The read of a ring entry covers the aligned 64 bytes that it lies in (R246). -/
theorem askRing_reachable (d : DmaSet) (ci : Nat) :
    let a := d.ring + 16 * (ci % 2 ^ d.ringLog2)
    let u := setChan c { chanOf s c with ringRd := (chanOf s c).ringRd ++ [a] } s
    canReach s (portOfChan c) = true → readsOut u (portOfChan c) ≤ 256 →
    askRing c d ci s = emit (.hostRead (portOfChan c) (a / 64 * 64) 64 (tcOf s c)) u :=
  fun hr hn => (if_pos hr).trans (if_pos hn)

/-! ## The ring entry and the list (R241, R245) -/

/-- The frame waits for its ring entry. -/
def awaitsEntry (f : ChFrame) : Bool := match f.take with | .waiting _ _ => true | _ => false

/-- What the entry of the oldest ring read comes to for the frame that waits (R244, R245). -/
theorem doRingReadComplete_entry {a : Nat} {rest : List Nat} {f : ChFrame} {id lim : Nat} {d : DmaSet} (hasked : asked s c 0 = true)
    (hrd : (chanOf s c).ringRd = a :: rest) (hf : (chanOf s c).frames.find? awaitsEntry = some f) (ht : f.take = .waiting id lim)
    (hd : setById (setChan c { chanOf s c with ringRd := rest } s) c id = some d) (list len cookie : Nat) :
    let u := setChan c { chanOf s c with ringRd := rest } s
    let v := putChFrame c { f with take := .taken ⟨id, cookie, list, [], [], 0, false, 0, false⟩ } u
    doRingReadComplete c list len cookie s =
      if list % 16 ≠ 0 then halt c 6 0 a 0 v else if len < f.foot then smallBuffer c f d lim cookie u else settle c v := by
  intro u v
  unfold doRingReadComplete
  generalize hr : ite (list % 16 ≠ 0) _ _ = r
  rw [if_neg (by simp [hasked])]
  split
  · next ha hg =>
    obtain ⟨rfl, rfl⟩ := List.cons.inj (hrd.symm.trans ha)
    obtain rfl := Option.some.inj (hf.symm.trans hg)
    simp only [ht]
    split
    · next h => exact nomatch hd.symm.trans h
    · next h => rw [← hr, ← Option.some.inj (hd.symm.trans h)]
  · next h => exact (h _ _ _ hrd hf).elim

section
variable {f : ChFrame} {b : Buf} {a : Nat} (hf : (chanOf s c).frames.head? = some f) (ht : f.take = .taken b)
include hf ht

theorem doListReadComplete_taken (hasked : asked s c 1 = true) (hrd : (chanOf s c).listRd = some a) (es : List (Nat × Nat × Nat)) :
    doListReadComplete c es s = (s |> setChan c { chanOf s c with listRd := none }
      |> putChFrame c { f with take := .taken { b with got := es.map fun e => ⟨e.1, e.2.1, e.2.2⟩ } } |> settle c) := by
  simp only [doListReadComplete, hasked, hrd, hf, ht, Bool.not_true, Bool.false_eq_true, if_false]

/-! ## The flush read (R248) -/

theorem doFlushReadComplete_tag (hasked : asked s c 2 = true) (hrep : (chanOf s c).reports = [])
    (hrd : (chanOf s c).flushRd = some a) (hw : b.tagWritten = true) : doFlushReadComplete c s = completeFrame c f b s := by
  simp only [doFlushReadComplete, hasked, hrep, hrd, hf, ht, hw, Bool.not_true, Bool.false_eq_true, if_false, if_true]

end

/-! ## Bursts (R247, R258) -/

theorem feedReplay_none {p : Nat} (h : ∀ c ∈ chansOf p, ∀ f ∈ (chanOf s c).frames, f.feed = []) : feedReplay p s = s := by
  refine List.foldlRecOn _ _ (motive := (· = s)) rfl fun t ht c hc => ?_
  have hnone : (chanOf s c).frames.find? (fun f => !f.feed.isEmpty) = none := by
    simpa using h c hc
  rw [ht, hnone]

theorem burstOf_le {a n : Nat} (h : burstOf s c = some (a, n)) : n ≤ 512 := by
  unfold burstOf at h
  dsimp only at h
  split at h
  · exact nomatch h
  · split at h
    · split at h
      · exact nomatch h
      · obtain ⟨l, -, e⟩ := Option.map_eq_some_iff.mp h
        have := congrArg Prod.snd e
        dsimp only at this
        omega
    · exact nomatch h

theorem doEgressBurst_ready {p a n : Nat} (hfeed : ∀ c ∈ chansOf p, ∀ f ∈ (chanOf s c).frames, f.feed = [])
    (hr : canReach s p = true) (h : (roundRobin s p).findSome? (fun c => (burstOf s c).map fun x => (c, x)) = some (c, a, n)) :
    doEgressBurst p s = feedReplay p (burst c a n s) := by
  simp only [doEgressBurst, feedReplay_none hfeed, hr, h, Bool.not_true, Bool.false_eq_true, if_false]

end

/-! ## O23 -/

/-- Settles O23, command by command; the length of a burst is that of `burstOf`. -/
theorem dmaBuffers : Obligations.DmaBuffers := by
  intro s c hc
  refine ⟨fun f d hp hf hd => ⟨fun h1 hci hfree => ?_, fun h => ?_⟩, fun d ci => askRing_reachable d ci,
    fun list len cookie a rest f id lim d hasked hrd hf ht hd => ⟨fun hl hlen => ?_, fun hl => ?_⟩,
    fun es a f b hasked hrd hf ht => ?_, fun f b a hasked hrep hrd hf ht hw => ?_, fun p a n hp hfeed hr h => ⟨?_, ?_⟩⟩
  · exact next_congr ((if_pos hc).trans (doBufferTake_taken hp (tryTake_posted hf hd h1 hci hfree)))
  · exact next_congr ((if_pos hc).trans (doBufferTake_refused hp (tryTake_none hf hd h)))
  · exact next_congr ((if_pos hc).trans (congrArg _ ((doRingReadComplete_entry hasked hrd hf ht hd list len cookie).trans
      ((if_neg (not_not.mpr hl)).trans (if_neg (Nat.not_lt.mpr hlen))))))
  · exact next_congr ((if_pos hc).trans (congrArg _ ((doRingReadComplete_entry hasked hrd hf ht hd list len cookie).trans
      (if_pos hl))))
  · exact next_congr ((if_pos hc).trans (congrArg _ (doListReadComplete_taken hf ht hasked hrd es)))
  · exact next_congr ((if_pos hc).trans (congrArg _ (doFlushReadComplete_tag hf ht hasked hrep hrd hw)))
  · exact next_congr ((if_pos hp).trans (doEgressBurst_ready hfeed hr h))
  · obtain ⟨c', -, hb⟩ := List.exists_of_findSome?_eq_some h
    obtain ⟨x, hx, e⟩ := Option.map_eq_some_iff.mp hb
    cases e
    exact burstOf_le hx

end Sys2Proof.Machine

/-! PROOFS. What a halt of a DMA channel leaves: its registers, its event bit, and what goes out on the link (R256). -/

namespace Sys2Proof.Machine
open Sys2Proof

/-! ## The event bit of an error (R270, R301) -/

/-- An error's registers are written before its record goes to queue 2. -/
theorem logError_puts (fatal : Bool) (e : ErrInfo) (s : State) : ∃ u ws, logError fatal e s = (qPutRaw 2 e.unit ws e.evts u).1 ∧
    u.queues = s.queues ∧ u.chip = s.chip ∧ u.cfgX = s.cfgX := by
  unfold logError
  extract_lets b last first s1 s2 s3
  have k : Evolves [.regs] s s3 :=
    ev_ite (wr_ev rfl (inc_ev rfl (wr_ev rfl (ev_refl _ s) ..) ..) ..) (inc_ev rfl (wr_ev rfl (ev_refl _ s) ..) ..)
  exact ⟨s3, _, rfl, k.same (x := .queues) (by decide), k.chip, k.same (x := .cfgX) (by decide)⟩

/-- The event bits of an error are set at once if queue 2 is disabled or has no packet open. -/
theorem rd_recordError_announced {s : State} {e : ErrInfo} (hq : qEnabled s 2 = false ∨ shut s 2) (h : ∀ x ∈ e.evts, oneBit x)
    {r : RF} (hr : r ∈ e.evts) (hm : ¬ isQmx r.addr) : rd (recordError e s) r = 1 := by
  obtain ⟨u, ws, eq, hqs, hchip, hcfg⟩ := logError_puts false e s
  have hu : qEnabled u 2 = false ∨ shut u 2 := by rwa [qEnabled_congr hchip hcfg, shut_of_queues hqs]
  have k : RegsKept isQmx (qPutRaw 2 e.unit ws e.evts u).1 (qPutEvt 2 e.unit ws e.evts u) :=
    RegsKept.foldl (fun s q => qmxError_kept 1 q s) _ _
  rw [recordError, eq, ← k.rd hm]
  exact rd_qPutEvt_announced hu h hr hm ..

/-! ## What goes out on the link (R234) -/

/-- Nothing has gone out but reads of host memory by the port. -/
def OnlyReads (p : Nat) (s t : State) : Prop := ∃ l, t.out = s.out ++ l ∧ ∀ e ∈ l, ∃ a n tc, e = .hostRead p a n tc

theorem OnlyReads.of_out {p : Nat} {s t : State} (h : t.out = s.out) : OnlyReads p s t := ⟨[], by simpa using h, by simp⟩

theorem OnlyReads.trans {p : Nat} {s t u : State} (h : OnlyReads p s t) (k : OnlyReads p t u) : OnlyReads p s u := by
  obtain ⟨l, hl, hreads⟩ := h
  obtain ⟨m, hm, kreads⟩ := k
  exact ⟨l ++ m, by rw [hm, hl, List.append_assoc], fun e he => (List.mem_append.mp he).elim (hreads e) (kreads e)⟩

theorem releaseReads_onlyReads (p : Nat) (s : State) : OnlyReads p s (releaseReads p s) := by
  unfold releaseReads
  extract_lets h n
  split
  · exact .of_out rfl
  · refine List.foldlRecOn _ _ (motive := OnlyReads p s) (.of_out rfl) fun t ht r _ => ht.trans ?_
    exact ⟨[_], rfl, fun e he => ⟨_, _, _, List.mem_singleton.mp he⟩⟩

/-! ## The state that a halt leaves (R256) -/

section
variable (c : Nat) (s : State)

/-- Frames that are given up without a record: all is done in the registers, the port and the channel before reads that waited go
out. -/
theorem scrapFrames_false_releases : ∃ u, scrapFrames c false s = releaseReads (portOfChan c) u ∧
    Evolves [.regs, .hostPorts, .chans] s u := by
  unfold scrapFrames
  extract_lets x p h s1 take keep late x1 s2 s3 s4
  have k3 : Evolves [.regs, .hostPorts, .chans] s s3 :=
    setHostPort_ev rfl (setChan_ev rfl (levelDown_ev rfl (ev_refl _ s) ..) ..) ..
  have e4 : s4 = s3 := by simp [s4, late]
  refine ⟨_, rfl, ?_⟩
  rw [e4]
  exact ev_ite (endReplay_ev rfl k3 ..) k3

theorem scrapFrames_false_ev : Evolves [.regs, .hostPorts, .chans, .out] s (scrapFrames c false s) := by
  obtain ⟨u, e, k⟩ := scrapFrames_false_releases c s
  rw [e]
  exact releaseReads_ev rfl (ev_mono (F := [.regs, .hostPorts, .chans]) rfl (ev_refl _ s) k) _

theorem scrapFrames_false_onlyReads : OnlyReads (portOfChan c) s (scrapFrames c false s) := by
  obtain ⟨u, e, k⟩ := scrapFrames_false_releases c s
  rw [e]
  exact (OnlyReads.of_out (k.same (x := .out) (by decide))).trans (releaseReads_onlyReads _ u)

variable (cause dir addr entries : Nat)

/-- What the channel's registers say of a halt. -/
def showHalt : State :=
  s |> wr (DMX_CH_STAT_STATE c) 3 |> wr (DMX_CH_STAT_HALT_CAUSE c) cause |> wr (DMX_CH_STAT_IN_FRAME c) 0
    |> wr (DMX_CH_ERR_LO_ADDR c) (addr % 2 ^ 32) |> wr (DMX_CH_ERR_HI_ADDR c) (addr / 2 ^ 32)
    |> wr (DMX_CH_ERR_INFO_DIR c) dir |> wr (DMX_CH_ERR_INFO_ENTRIES c) entries

theorem showHalt_ev : Evolves [.regs] s (showHalt c s cause dir addr entries) :=
  wr_ev rfl (wr_ev rfl (wr_ev rfl (wr_ev rfl (wr_ev rfl (wr_ev rfl (wr_ev rfl (ev_refl _ s) ..) ..) ..) ..) ..) ..) ..

/-- The error of a halt. -/
def haltError : ErrInfo := { dmxErr 1 c with arg2 := addr % 2 ^ 32, evts := [DMX_CH_EVT_HALT c] }

/-- What the channel held is given up, the registers are set, and the error is recorded. -/
theorem halt_records : ∃ u, halt c cause dir addr entries s = recordError (haltError c addr) (showHalt c u cause dir addr entries) ∧
    Evolves [.regs, .hostPorts, .chans, .out] s u ∧ OnlyReads (portOfChan c) s u := by
  have k := unreport_ev (H := [.regs, .hostPorts, .chans]) rfl (ev_refl _ s) c
  have kf := scrapFrames_false_ev c (unreport c s)
  have ko := scrapFrames_false_onlyReads c (unreport c s)
  unfold halt
  extract_lets s1 ab
  refine ⟨_, rfl, ?_, ?_⟩
  · exact setChan_ev rfl (ev_mono (F := [.regs, .hostPorts, .chans, .out]) rfl (ev_mono (F := [.regs, .hostPorts, .chans]) rfl
      (ev_refl _ s) k) kf) ..
  · exact ((OnlyReads.of_out (k.same (x := .out) (by decide))).trans ko).trans (.of_out rfl)

/-- The error of a halt leaves the words that tell of it. -/
theorem haltError_status {a : Nat} (hc : c < 256) (hlo : 0xC0044 + 0x200 * c ≤ a) (hhi : a ≤ 0xC0054 + 0x200 * c) :
    ¬ isErr (haltError c addr) a := by
  have e : errBase uDMX c = 0xE0008 + 0x1000 * (c / 128) := rfl
  rintro ((h | ⟨r, hr, rfl⟩) | ⟨h, -⟩)
  · unfold isQmx at h
    omega
  · rw [List.mem_singleton.mp hr] at hhi
    dsimp only at hhi
    omega
  · simp only [haltError, dmxErr] at h
    omega

theorem rd_haltError (hc : c < 256) {r : RF} (hlo : 0xC0044 + 0x200 * c ≤ r.addr) (hhi : r.addr ≤ 0xC0054 + 0x200 * c) :
    rd (recordError (haltError c addr) s) r = rd s r := rd_recordError (haltError_status c addr hc hlo hhi)

theorem halt_registers (hc : c < 256) : let t := halt c cause dir addr entries s
    chanState t c = 3 ∧ rd t (DMX_CH_STAT_HALT_CAUSE c) = cause % 16 ∧ rd t (DMX_CH_ERR_LO_ADDR c) = addr % 2 ^ 32 ∧
    rd t (DMX_CH_ERR_INFO_DIR c) = dir % 4 := by
  obtain ⟨u, e, -, -⟩ := halt_records c s cause dir addr entries
  intro t
  simp (disch := (dsimp only; omega)) only [t, e, chanState, rd_haltError c _ addr hc]
  unfold showHalt
  simp (disch := (dsimp only; omega)) only [rd_wr_same, rd_wr_other]
  exact ⟨rfl, rfl, Nat.mod_mod _ _, rfl⟩

theorem halt_event (hq : qEnabled s 2 = false ∨ (queueOf s 2).opn = none) :
    rd (halt c cause dir addr entries s) (DMX_CH_EVT_HALT c) = 1 := by
  obtain ⟨u, e, k, -⟩ := halt_records c s cause dir addr entries
  have kv : Evolves [.regs, .hostPorts, .chans, .out] s (showHalt c u cause dir addr entries) :=
    ev_mono (F := [.regs]) rfl k (showHalt_ev c u cause dir addr entries)
  have hu : qEnabled (showHalt c u cause dir addr entries) 2 = false ∨ shut (showHalt c u cause dir addr entries) 2 := by
    rwa [qEnabled_congr kv.chip (kv.same (x := .cfgX) (by decide)), shut_of_queues (kv.same (x := .queues) (by decide))]
  rw [e]
  exact rd_recordError_announced hu (by simp [haltError, oneBit]) (List.mem_singleton_self _) (by unfold isQmx; dsimp only; omega)

theorem halt_onlyReads : OnlyReads (portOfChan c) s (halt c cause dir addr entries s) := by
  obtain ⟨u, e, -, ko⟩ := halt_records c s cause dir addr entries
  have kv : (showHalt c u cause dir addr entries).out = u.out :=
    (showHalt_ev c u cause dir addr entries).same (x := .out) (by decide)
  rw [e]
  exact (ko.trans (.of_out kv)).trans (.of_out (recordError_same (haltError c addr) _ .out (by decide)))

end

end Sys2Proof.Machine

/-! PROOFS. STOP, ABORT, a read that fails and START after a halt (R254 to R257), and O22. -/

namespace Sys2Proof.Machine
open Sys2Proof

section
variable {s : State} {c : Nat}

/-! ## STOP and ABORT (R254, R255) -/

theorem chanState_settleState_stopping (h : ∀ f ∈ (chanOf s c).frames, isTaken f = false) :
    chanState (settleState c (wr (DMX_CH_STAT_STATE c) 2 s)) c = 0 := by
  have hbusy : (chanOf s c).frames.any isTaken = false := by simpa using h
  have hst (v : Nat) : chanState (wr (DMX_CH_STAT_IN_FRAME c) v (wr (DMX_CH_STAT_STATE c) 2 s)) c = 2 := by
    simp (disch := (dsimp only; omega)) [chanState, rd_wr_same, rd_wr_other]
  simp only [settleState, chanOf_wr, hbusy, hst, Bool.not_false, and_self, if_true]
  simp (disch := (dsimp only; omega)) [chanState, rd_wr_same]

theorem doAbort_halted (h : chanState s c = 3) : doAbort c s = (s |> scrapFrames c false |> wr (DMX_CH_EVT_ABORTED c) 1) := if_pos h

/-- ABORT in RUN or STOPPING: a channel that had a buffer takes its armed set afterwards (R253). -/
theorem doAbort_running (h : chanState s c = 1 ∨ chanState s c = 2) : doAbort c s =
    let t := (takenBufs (chanOf s c)).foldl (abortedRecord c) s |> scrapFrames c true |> wr (DMX_CH_STAT_STATE c) 0
      |> wr (DMX_CH_STAT_IN_FRAME c) 0 |> wr (DMX_CH_EVT_ABORTED c) 1
    if (takenBufs (chanOf s c)).isEmpty then t else takeSet c t :=
  (if_neg (by omega)).trans (if_pos h)

/-! ## A read of a list that fails (R256) -/

theorem doCompletionTimeout_list {a : Nat} (ha : (chanOf s c).listRd = some a) (hasked : asked s c 1 = true) (cause : Nat) :
    doCompletionTimeout c 1 cause s = halt c cause 1 a (entriesUsed s c) s := by
  simp [doCompletionTimeout, ha, hasked]

theorem exec_completionTimeout_list (hc : chanHere s c = true) {cause : Nat} (h1 : 1 ≤ cause) (h4 : cause ≤ 4) :
    exec (.completionTimeout c 1 cause) s = .next (doCompletionTimeout c 1 cause s) :=
  next_congr (if_pos (by simp [hc, h1, h4]))

/-! ## START after a halt (R257) -/

/-- The registers that told of the halt are cleared. -/
def clearHalt (c : Nat) (s : State) : State :=
  s |> wr (DMX_CH_STAT_HALT_CAUSE c) 0 |> wr (DMX_CH_ERR_LO_ADDR c) 0 |> wr (DMX_CH_ERR_HI_ADDR c) 0
    |> wr (DMX_CH_ERR_INFO_DIR c) 0 |> wr (DMX_CH_ERR_INFO_ENTRIES c) 0

/-- The HALTED record of an abandoned buffer is due and its flush read cannot be made. -/
def cannotFlush (s : State) (c : Nat) : Prop :=
  (chanOf s c).armed = none ∧ (chanOf s c).abandoned ≠ [] ∧ canReach s (portOfChan c) = false

theorem isSet_clearHalt (hc : c < 256) {r : RF} (h : 0xE0000 ≤ r.addr) : isSet (clearHalt c s) r = isSet s r := by
  unfold clearHalt isSet
  simp (disch := (dsimp only; omega)) only [rd_wr_addr]

section
variable (hc : c < 256)
include hc

theorem canReach_clearHalt (p : Nat) : canReach (clearHalt c s) p = canReach s p := by
  unfold canReach canSendMsix
  simp (disch := (dsimp only; omega)) only [isSet_clearHalt hc]

theorem unreachable_clearHalt (p : Nat) : unreachable (clearHalt c s) p = unreachable s p := by
  unfold unreachable
  simp (disch := (dsimp only; omega)) only [isSet_clearHalt hc]

/-- The condition that `resume` tests. -/
theorem cannotFlush_iff : (!(chanOf (clearHalt c s) c).armed.isSome && !(chanOf s c).abandoned.isEmpty
    && !canReach (clearHalt c s) (portOfChan c)) = true ↔ cannotFlush s c := by
  have e : chanOf (clearHalt c s) c = chanOf s c := by simp only [clearHalt, chanOf_wr]
  rw [e, canReach_clearHalt hc]
  simp [cannotFlush, and_assoc]

theorem resume_halts (h : cannotFlush s c) : resume c s =
    halt c (unreachable s (portOfChan c)) 2 (nextRecord (clearHalt c s) c) 0 (clearHalt c s) := by
  rw [← unreachable_clearHalt hc]
  exact if_pos ((cannotFlush_iff hc).mpr h)

/-- Otherwise the abandoned buffers are reported or lost, and the channel runs. -/
theorem resume_runs (h : ¬ cannotFlush s c) : chanState (resume c s) c = 1 ∧ (chanOf (resume c s) c).abandoned = [] := by
  have e : ∃ u, resume c s = wr (DMX_CH_STAT_STATE c) 1 (setChan c { chanOf u c with abandoned := [] } u) :=
    ⟨_, if_neg fun k => h ((cannotFlush_iff hc).mp k)⟩
  obtain ⟨u, e⟩ := e
  rw [e, chanOf_wr, chanOf_setChan_same]
  exact ⟨by simp (disch := (dsimp only; omega)) [chanState, rd_wr_same], rfl⟩

end

theorem unreachable_lt (s : State) (p : Nat) : unreachable s p < 16 := by
  unfold unreachable
  split_ifs <;> decide

end

/-! ## O22 -/

/-- Settles O22, command by command; what a halt leaves holds of every halt. -/
theorem dmaStopAbortHalt : Obligations.DmaStopAbortHalt := by
  intro s c hc h256
  refine ⟨fun h => ⟨next_congr ((if_pos hc).trans (if_pos h)), chanState_settleState_stopping⟩,
    fun h => next_congr ((if_pos hc).trans (if_neg h)), fun h => next_congr ((if_pos hc).trans (doAbort_halted h)),
    fun h hn => ?_, fun h hn => ?_, fun cause a h1 h4 ha hasked => ?_, fun h hl => ⟨fun hrun => ?_, fun ha hb hr => ?_⟩⟩
  · refine next_congr ((if_pos hc).trans ((doAbort_running h).trans ?_))
    rw [hn]
    rfl
  · exact next_congr ((if_pos hc).trans ((doAbort_running h).trans (if_neg (by simpa using hn))))
  · obtain ⟨hst, hcause, hlo, hdir⟩ := halt_registers c s cause 1 a (entriesUsed s c) h256
    obtain ⟨l, hout, hreads⟩ := halt_onlyReads c s cause 1 a (entriesUsed s c)
    exact ⟨_, l, (exec_completionTimeout_list hc h1 h4).trans (next_congr (doCompletionTimeout_list ha hasked cause)), rfl, hst,
      hcause.trans (Nat.mod_eq_of_lt (by omega)), hlo, hdir, halt_event c s cause 1 a (entriesUsed s c), hout, hreads⟩
  · have hn : ¬ cannotFlush s c := fun ⟨ha, hb, hr⟩ => by
      rcases hrun with h | h | h
      · exact h ha
      · exact hb h
      · exact absurd (h.symm.trans hr) (by decide)
    exact ⟨_, next_congr ((if_pos hc).trans (doStart_halted hl h)), resume_runs h256 hn⟩
  · obtain ⟨hst, hcause, -, -⟩ := halt_registers c (clearHalt c s) (unreachable s (portOfChan c)) 2 (nextRecord (clearHalt c s) c) 0
      h256
    exact ⟨_, next_congr ((if_pos hc).trans ((doStart_halted hl h).trans (resume_halts h256 ⟨ha, hb, hr⟩))), hst,
      hcause.trans (Nat.mod_eq_of_lt (unreachable_lt s _))⟩

end Sys2Proof.Machine

/-! PROOFS. What the queue engine's operations leave of a queue, its counters and the event bits (R264, R268 to R273, R285). -/

namespace Sys2Proof.Machine
open Sys2Proof

/-! ## Event bits that no queue operation clears -/

/-- A one-bit field outside the words in which queue operations also count or clear: QMX_Q_LOST and QMX_RP_STAT. -/
def onlySet (r : RF) : Prop := oneBit r ∧ (r.addr < 0x40000 ∨ 0x80010 ≤ r.addr) ∧ r.addr % 0x1000 ≠ 8

/-- The bits that queue operations only set, stay set. -/
def KeepsSet (s t : State) : Prop := ∀ r, onlySet r → rd s r = 1 → rd t r = 1

theorem KeepsSet.refl (s : State) : KeepsSet s s := fun _ _ h => h

theorem KeepsSet.trans {s t u : State} (h : KeepsSet s t) (k : KeepsSet t u) : KeepsSet s u := fun r hr hs => k r hr (h r hr hs)

theorem KeepsSet.of_eq {s t : State} (hr : t.regs = s.regs) (hc : t.chip = s.chip) : KeepsSet s t :=
  fun _ _ h => (rd_regs hr hc).trans h

theorem setQueue_keepsSet (q : Nat) (x : QueueSt) (s : State) : KeepsSet s (setQueue q x s) := .of_eq rfl rfl

theorem announce_keepsSet {es : List RF} (h : ∀ x ∈ es, oneBit x) (s : State) : KeepsSet s (announce es s) :=
  fun _ hr hs => rd_announce_of_set hr.1 h hs

theorem wr_set_keepsSet {x : RF} (h : oneBit x) (s : State) : KeepsSet s (wr x 1 s) :=
  announce_keepsSet (es := [x]) (by simpa using h) s

theorem wr_lost_keepsSet {q : Nat} (h : q < 8192) {x : RF} (hx : x.addr = 0x40010 + 0x20 * q) (v : Nat) (s : State) :
    KeepsSet s (wr x v s) := fun r ⟨_, ha, _⟩ hs => (rd_wr_addr (by omega)).trans hs

theorem wr_rpStat_keepsSet {r : Nat} {x : RF} (hx : x.addr = 0x80008 + 0x1000 * r) (v : Nat) (s : State) : KeepsSet s (wr x v s) :=
  fun _ ⟨_, _, ha⟩ hs => (rd_wr_addr (by omega)).trans hs

theorem lt_of_qEnabled {s : State} {q : Nat} (h : qEnabled s q = true) : 0 < q ∧ q < 8192 := by
  simp only [qEnabled, Bool.and_eq_true, decide_eq_true_eq] at h
  exact h.1.1

theorem qLost_keepsSet {q : Nat} (h : q < 8192) (n : Nat) (s : State) : KeepsSet s (qLost q n s) := by
  unfold qLost
  split
  · exact .refl s
  · exact ((wr_lost_keepsSet h rfl _ s).trans (wr_set_keepsSet ⟨rfl, by decide⟩ _)).trans (setQueue_keepsSet q _ _)

theorem breakClaim_keepsSet (p : Pkt) (s : State) : KeepsSet s (breakClaim p s) := by
  unfold breakClaim
  split
  · exact .refl s
  · next r _ =>
    have drop : KeepsSet s (dropClaim r s) :=
      (KeepsSet.trans (.of_eq rfl rfl) (wr_rpStat_keepsSet rfl 0 (setPort r ⟨none, []⟩ s))).trans (wr_rpStat_keepsSet rfl 0 _)
    exact (drop.trans (wr_rpStat_keepsSet rfl 1 _)).trans (wr_set_keepsSet ⟨rfl, by decide⟩ _)

theorem discardOldest_keepsSet {q : Nat} (h : q < 8192) (s : State) : KeepsSet s (discardOldest q s) := by
  unfold discardOldest
  split
  · exact .refl s
  · exact ((setQueue_keepsSet q _ s).trans (breakClaim_keepsSet _ _)).trans (qLost_keepsSet h 1 _)

theorem makeRoom_keepsSet {q : Nat} (h : q < 8192) (n : Nat) (s : State) : KeepsSet s (makeRoom q n s) := by
  induction n generalizing s with
  | zero => exact .refl s
  | succ n ih =>
    unfold makeRoom
    split
    · exact .refl s
    · exact (discardOldest_keepsSet h s).trans (ih _)

theorem rewindOpen_keepsSet (q : Nat) (s : State) : KeepsSet s (rewindOpen q s) := by
  unfold rewindOpen
  dsimp only
  split
  · exact .refl s
  · exact setQueue_keepsSet q _ s

theorem commitOpen_keepsSet (q : Nat) (s : State) : KeepsSet s (commitOpen q s) := by
  unfold commitOpen
  dsimp only
  split
  · exact .refl s
  · exact setQueue_keepsSet q _ s

theorem svcReceive_keepsSet (q : Nat) (ws : List Nat) (s : State) : KeepsSet s (svcReceive q ws s) := by
  have k : Evolves [.svcStats, .jnl] s (svcReceive q ws s) := svcReceive_ev rfl (ev_refl _ s) q ws
  exact .of_eq (k.same (x := .regs) (by decide)) k.chip

section
variable {q : Nat} (h : q < 8192)
include h

theorem openPacket_keepsSet (p : Nat) (s : State) : KeepsSet s (openPacket q p s) := by
  unfold openPacket
  extract_lets x r
  have k : KeepsSet s r.1 := by
    simp only [r]
    split_ifs
    · exact .refl s
    · exact makeRoom_keepsSet h _ s
    · exact qLost_keepsSet h 1 s
  split
  · exact k
  · exact k.trans (setQueue_keepsSet q _ _)

theorem roomForWord_keepsSet (s : State) : KeepsSet s (roomForWord q s).1 := by
  unfold roomForWord
  dsimp only
  split_ifs
  · exact .refl s
  · exact makeRoom_keepsSet h _ s
  · exact (rewindOpen_keepsSet q s).trans (qLost_keepsSet h 1 _)

theorem putWord_keepsSet (w : Nat) (s : State) : KeepsSet s (putWord q w s).1 := by
  have room := roomForWord_keepsSet h s
  unfold putWord
  split
  · exact .refl s
  · split
    · exact ((rewindOpen_keepsSet q s).trans (wr_lost_keepsSet h rfl _ _)).trans (qLost_keepsSet h 1 _)
    · dsimp only
      split
      · exact room
      · split
        · exact room
        · exact room.trans (setQueue_keepsSet q _ _)

theorem putWords_keepsSet (ws : List Nat) (s : State) : KeepsSet s (putWords q ws s).1 := by
  induction ws generalizing s with
  | nil => exact .refl s
  | cons w ws ih =>
    have k := putWord_keepsSet h w s
    unfold putWords
    split
    · next s' e => rw [e] at k; exact k.trans (ih s')
    · exact k

theorem appendPacket_keepsSet (p : Nat) (ws : List Nat) (s : State) : KeepsSet s (appendPacket q p ws s).1 := by
  have opened := openPacket_keepsSet h p s
  have k := opened.trans (putWords_keepsSet h ws _)
  unfold appendPacket
  dsimp only
  split
  · exact opened
  · split
    · next s' e =>
      rw [e] at k
      exact (k.trans (commitOpen_keepsSet q s')).trans (svcReceive_keepsSet q ws _)
    · exact k

end

theorem putPlain_keepsSet (q p : Nat) (ws : List Nat) (isCopy : Bool) {es : List RF} (h : ∀ x ∈ es, oneBit x) (s : State) :
    KeepsSet s (putPlain q p ws isCopy es s).1 := by
  unfold putPlain
  split
  · exact announce_keepsSet h s
  · next he =>
    have hq : q < 8192 := (lt_of_qEnabled (by simpa using he)).2
    dsimp only
    split
    · exact setQueue_keepsSet q _ s
    · exact (appendPacket_keepsSet hq p ws s).trans (announce_keepsSet h _)

theorem putCopy_keepsSet (q : Nat) (ws : List Nat) (s : State) : KeepsSet s (putCopy q ws s).1 := by
  have k := putPlain_keepsSet (eff s (QMX_Q_COPY_COPY_Q q)) 0xFFFF ws true (es := []) (by simp) s
  unfold putCopy
  dsimp only
  split
  · exact .refl s
  · split <;> next e => rw [e] at k; exact k

theorem qPutRaw_keepsSet (q p : Nat) (ws : List Nat) {es : List RF} (h : ∀ x ∈ es, oneBit x) (s : State) :
    KeepsSet s (qPutRaw q p ws es s).1 := by
  have k := putPlain_keepsSet q p ws false h s
  unfold qPutRaw
  split
  · next s' e => rw [e] at k; exact k.trans (putCopy_keepsSet q ws s')
  · next s' e => rw [e] at k; exact k
  · next s' _ e => rw [e] at k; exact k

/-! ## The event bits of an error -/

theorem rd_putPlain_announced {q : Nat} {es : List RF} {s : State} (hq : qEnabled s q = false ∨ shut s q) (h : ∀ x ∈ es, oneBit x)
    {r : RF} (hr : r ∈ es) (p : Nat) (ws : List Nat) (isCopy : Bool) : rd (putPlain q p ws isCopy es s).1 r = 1 := by
  unfold putPlain
  split
  · exact rd_announce h hr s
  · next he =>
    have hs := hq.resolve_left (by simpa using he)
    rw [shut] at hs
    simpa [hs] using rd_announce h hr _

theorem rd_qPutRaw_announced {q : Nat} {es : List RF} {s : State} (hq : qEnabled s q = false ∨ shut s q) (h : ∀ x ∈ es, oneBit x)
    {r : RF} (hr : r ∈ es) (ho : onlySet r) (p : Nat) (ws : List Nat) : rd (qPutRaw q p ws es s).1 r = 1 := by
  have k := rd_putPlain_announced hq h hr p ws false
  unfold qPutRaw
  split
  · next s' e => rw [e] at k; exact putCopy_keepsSet q ws s' r ho k
  · next s' e => rw [e] at k; exact k
  · next s' _ e => rw [e] at k; exact k

/-- The event bit of a queue-engine error is set at once if queue 2 is disabled or has no packet open. -/
theorem rd_qmxError_announced {s : State} (hq : qEnabled s 2 = false ∨ shut s 2) (code q : Nat) :
    rd (qmxError code q s) (qmxEvt code) = 1 := by
  obtain ⟨u, ws, eq, hqs, hchip, hcfg⟩ :=
    logError_puts false { unit := uQMX, inst := 0, code, info := q * 256, evts := [qmxEvt code] } s
  have hu : qEnabled u 2 = false ∨ shut u 2 := by rwa [qEnabled_congr hchip hcfg, shut_of_queues hqs]
  have hb : oneBit (qmxEvt code) := by unfold qmxEvt; split_ifs <;> simp [oneBit]
  rw [qmxError, recordError, eq]
  exact rd_qPutRaw_announced hu (by simpa using hb) (by simp) ⟨hb, by simp [qmxEvt_addr], by simp [qmxEvt_addr]⟩ _ _

/-- While queue 2 has a packet open, the record of an error waits there with its event bits behind it (R270). -/
theorem logError_waits {s : State} (he : qEnabled s 2 = true) (ho : ¬ shut s 2) (fatal : Bool) (e : ErrInfo) :
    ∃ ws, (queueOf (logError fatal e s) 2).waiting = (queueOf s 2).waiting ++ [⟨e.unit, some ws, false, e.evts⟩] := by
  obtain ⟨u, ws, eq, hqs, hchip, hcfg⟩ := logError_puts fatal e s
  have hu : qEnabled u 2 = true := by rw [qEnabled_congr hchip hcfg, he]
  have hopen : (queueOf u 2).opn.isSome = true := by
    rw [queueOf_congr hqs]
    exact Option.isSome_iff_ne_none.mpr ho
  refine ⟨ws, ?_⟩
  rw [eq, ← queueOf_congr hqs]
  simp [qPutRaw, putPlain, hu, hopen]

/-- An error record clears no event bit outside its unit's error registers. -/
theorem rd_recordError_of_set {s : State} {e : ErrInfo} (he : ∀ x ∈ e.evts, oneBit x) {r : RF} (hr : onlySet r)
    (hb : r.addr < errBase e.unit e.inst ∨ errBase e.unit e.inst + 8 < r.addr) (hs : rd s r = 1) : rd (recordError e s) r = 1 := by
  unfold recordError logError
  extract_lets b last first s1 s2 s3 rec32
  have h3 : rd s3 r = 1 := by
    have h2 : rd s2 r = 1 := by
      rw [show rd s2 r = rd s1 r from rd_wr_addr (by dsimp only; omega),
        show rd s1 r = rd s r from rd_wr_addr (by dsimp only; omega), hs]
    simp only [s3]
    split
    · rw [rd_wr_addr (by dsimp only; omega), h2]
    · exact h2
  exact qPutRaw_keepsSet 2 e.unit _ he s3 r hr h3

/-! ## Counters -/

theorem satAdd_lt (w v d : Nat) : satAdd w v d < 2 ^ w := by
  have := Nat.two_pow_pos w
  unfold satAdd
  omega

/-- A counter field reads as the saturated sum. -/
theorem rd_addSat_same {s : State} {r : RF} (h : r.lo ≤ r.hi) (h32 : r.hi < 32) (d : Nat) :
    rd (addSat r d s) r = satAdd (r.hi + 1 - r.lo) (rd s r) d :=
  (rd_wr_same h h32).trans (Nat.mod_eq_of_lt (satAdd_lt _ _ _))

theorem rd_inc_same {s : State} {r : RF} (h : r.lo ≤ r.hi) (h32 : r.hi < 32) :
    rd (inc r s) r = satAdd (r.hi + 1 - r.lo) (rd s r) 1 := rd_addSat_same h h32 1

theorem rd_inc_bits {s : State} {r f : RF} (h : r.lo ≤ r.hi) (h32 : f.hi < 32) (hd : f.hi < r.lo ∨ r.hi < f.lo) :
    rd (inc r s) f = rd s f := rd_wr_bits h h32 hd

theorem satAdd_zero {w v : Nat} (h : v < 2 ^ w) : satAdd w v 0 = v := by
  unfold satAdd
  omega

/-! ## What a loss, a rewind and a discard leave -/

section
variable (q : Nat) (s : State)

theorem qLost_of_ne {n : Nat} (h : n ≠ 0) : qLost q n s =
    setQueue q { queueOf s q with lostSince := true } (wr QMX_EVT_LOST 1 (addSat (QMX_Q_LOST_LOST q) n s)) := if_neg h

/-- A loss of packets marks the queue (R273). -/
theorem queueOf_qLost (n : Nat) :
    queueOf (qLost q n s) q = { queueOf s q with lostSince := (queueOf s q).lostSince || decide (n ≠ 0) } := by
  by_cases h : n = 0
  · simp [qLost, h]
  · simp [qLost_of_ne q s h, h]

theorem rd_qLost_lost (n : Nat) :
    rd (qLost q n s) (QMX_Q_LOST_LOST q) = satAdd 16 (rd s (QMX_Q_LOST_LOST q)) n := by
  by_cases h : n = 0
  · have := satAdd_zero (rd_lt s (QMX_Q_LOST_LOST q))
    simpa [qLost, h] using this.symm
  · rw [qLost_of_ne q s h, rd_setQueue, rd_wr_addr (by dsimp only; omega), rd_addSat_same (by simp) (by simp)]
    rfl

/-- The other counters of the word stand. -/
theorem rd_qLost_other (n : Nat) {f : RF} (ha : f.addr = 0x40010 + 0x20 * q) (hf : f.hi < 16) :
    rd (qLost q n s) f = rd s f := by
  by_cases h : n = 0
  · rw [qLost, if_pos h]
  · rw [qLost_of_ne q s h, rd_setQueue, rd_wr_addr (by dsimp only; omega), addSat, rd_wr_bits (by simp) (by omega) (.inl hf)]

theorem rd_qLost_event {n : Nat} (h : n ≠ 0) : rd (qLost q n s) QMX_EVT_LOST = 1 := by
  rw [qLost_of_ne q s h, rd_setQueue, rd_set_oneBit (by simp [oneBit])]

theorem rewindOpen_open {o : OpenPkt} (h : (queueOf s q).opn = some o) :
    rewindOpen q s = setQueue q (capDram { queueOf s q with opn := none, wpos := o.mark }) s := by
  simp [rewindOpen, h]

theorem serveWaiting_open {o : OpenPkt} (h : (queueOf s q).opn = some o) : serveWaiting q s = s := by simp [serveWaiting, h]

/-- With nobody waiting there is nobody to serve. -/
theorem serveWaiting_nobody (h : (queueOf s q).waiting = []) : queueOf (serveWaiting q s) q = queueOf s q ∧
    Evolves [.queues] s (serveWaiting q s) ∧ OnlyQueue q s (serveWaiting q s) := by
  unfold serveWaiting
  split
  · exact ⟨rfl, ev_refl _ s, .refl q s⟩
  · rw [h]
    refine ⟨?_, setQueue_ev rfl (ev_refl _ s) q _, setQueue_onlyQueue q _ s⟩
    rw [show oversizeErrors (flushWaiting q [] s).2 (flushWaiting q [] s).1 = setQueue q { queueOf s q with waiting := [] } s from rfl,
      queueOf_setQueue_same, ← h]

/-- Discarding the oldest packet takes it off the front and leaves the open packet (R271). -/
theorem queueOf_discardOldest :
    (queueOf (discardOldest q s) q).pkts = (queueOf s q).pkts.drop 1 ∧ (queueOf (discardOldest q s) q).opn = (queueOf s q).opn := by
  unfold discardOldest
  split
  · next h => simp [h]
  · next p ps h =>
    rw [queueOf_qLost, queueOf_congr (breakClaim_queues _ _), queueOf_setQueue_same, h]
    exact ⟨rfl, rfl⟩

/-- Making room takes some of the oldest packets and leaves the open packet (R271). -/
theorem queueOf_makeRoom (n : Nat) : (∃ k, (queueOf (makeRoom q n s) q).pkts = (queueOf s q).pkts.drop k) ∧
    (queueOf (makeRoom q n s) q).opn = (queueOf s q).opn := by
  induction n generalizing s with
  | zero => exact ⟨⟨0, rfl⟩, rfl⟩
  | succ n ih =>
    unfold makeRoom
    split
    · exact ⟨⟨0, rfl⟩, rfl⟩
    · obtain ⟨⟨k, hk⟩, ho⟩ := ih (discardOldest q s)
      obtain ⟨hp, ho'⟩ := queueOf_discardOldest q s
      exact ⟨⟨1 + k, by rw [hk, hp, List.drop_drop]⟩, ho.trans ho'⟩

end

end Sys2Proof.Machine

/-! PROOFS. Packets written word by word (R263, R268 to R273). -/

namespace Sys2Proof.Machine
open Sys2Proof

/-! ## Commands of a disabled queue (R263) -/

section
variable {s : State} {q : Nat} (h : qEnabled s q = false)
include h

theorem doPacketOpen_disabled (p : Nat) (bad : Option (Nat × Nat)) : doPacketOpen q p bad s = s := by simp [doPacketOpen, h]

theorem doPacketWord_disabled (p w : Nat) (bad : Option (Nat × Nat)) : doPacketWord q p w bad s = s := by simp [doPacketWord, h]

theorem doPacketCommit_disabled (p : Nat) (bad : Option (Nat × Nat)) : doPacketCommit q p bad s = s := by simp [doPacketCommit, h]

theorem doPacketRewind_disabled (p : Nat) : doPacketRewind q p s = s := by simp [doPacketRewind, h]

end

/-! ## Commands of an enabled queue -/

section
variable {s : State} {q p : Nat} {o : OpenPkt} (he : qEnabled s q = true)

section
include he

theorem doPacketOpen_free (ho : (queueOf s q).opn = none) (hf : usedWords (queueOf s q) < qCapacity s q) : doPacketOpen q p none s =
    setQueue q { queueOf s q with
      opn := some ⟨p, (queueOf s q).wpos, []⟩, wpos := ((queueOf s q).wpos + 1) % qCapacity s q } s := by
  simp [doPacketOpen, comparePointers, he, ho, openPacket, hf]

theorem doPacketOpen_waits (ho : (queueOf s q).opn = some o) (hp : o.producer ≠ p)
    (hw : ∀ x ∈ (queueOf s q).waiting, x.producer ≠ p) : doPacketOpen q p none s =
    setQueue q { queueOf s q with waiting := (queueOf s q).waiting ++ [⟨p, none, false, []⟩] } s := by
  have hn : (queueOf s q).waiting.any (fun w => w.producer == p && w.words.isNone) = false := by
    simp only [List.any_eq_false, Bool.and_eq_true, beq_iff_eq]
    exact fun x hx k => hw x hx k.1
  simp [doPacketOpen, comparePointers, he, ho, hp, hn]

end

variable (ho : (queueOf s q).opn = some o) (hp : o.producer = p)
include ho

theorem ownsOpen_producer (hp : o.producer = p) : ownsOpen s q p = true := by simp [ownsOpen, ho, hp]

/-! ## One word -/

theorem putWord_overtakes (h : qCapacity s q ≤ 1 + o.words.length ∨ 4095 ≤ o.words.length) (w : Nat) :
    putWord q w s = (s |> rewindOpen q |> inc (QMX_Q_LOST_OVERSIZE q) |> qLost q 1, .oversize) := by
  simp [putWord, ho, h]

section
variable (hc : 1 + o.words.length < qCapacity s q) (hl : o.words.length < 4095)
include hc hl

theorem putWord_fits (hf : usedWords (queueOf s q) < qCapacity s q) (w : Nat) : putWord q w s =
    (setQueue q { queueOf s q with
      opn := some { o with words := o.words ++ [w % 2 ^ 32] }
      wpos := ((queueOf s q).wpos + 1) % qCapacity s q } s, .written) := by
  simp [putWord, ho, roomForWord, hf, Nat.not_le.mpr hc, Nat.not_le.mpr hl]

variable (hf : qCapacity s q ≤ usedWords (queueOf s q))
include hf

theorem putWord_drops (hm : qOverwrite s q = false ∨ (queueOf s q).pkts = []) (w : Nat) :
    putWord q w s = (s |> rewindOpen q |> qLost q 1, .dropped) := by
  have hroom : roomForWord q s = (s |> rewindOpen q |> qLost q 1, true) := by
    have : (qOverwrite s q && !(queueOf s q).pkts.isEmpty) = false := by rcases hm with hm | hm <;> simp [hm]
    simp [roomForWord, Nat.not_lt.mpr hf, this]
  simp [putWord, ho, hroom, Nat.not_le.mpr hc, Nat.not_le.mpr hl]

theorem putWord_discards (hm : qOverwrite s q = true) (hk : (queueOf s q).pkts ≠ []) (w : Nat) :
    let m := makeRoom q (queueOf s q).pkts.length s
    putWord q w s = (setQueue q { queueOf m q with
      opn := some { o with words := o.words ++ [w % 2 ^ 32] }
      wpos := ((queueOf m q).wpos + 1) % qCapacity m q } m, .written) := by
  intro m
  have hopen : (queueOf m q).opn = some o := (queueOf_makeRoom q s _).2.trans ho
  have hroom : roomForWord q s = (m, false) := by simp [roomForWord, Nat.not_lt.mpr hf, hm, hk, m]
  simp [putWord, ho, hroom, hopen, Nat.not_le.mpr hc, Nat.not_le.mpr hl]

end

/-! ## The commands of the packet's producer -/

include he hp

theorem doPacketWord_own (w : Nat) : doPacketWord q p w none s =
    serveWaiting q (if (putWord q w s).2 = .oversize then qmxError 1 q (putWord q w s).1 else (putWord q w s).1) :=
  (if_neg (by simp [he])).trans (if_pos (ownsOpen_producer ho hp))

theorem doPacketWord_fits (hc : 1 + o.words.length < qCapacity s q) (hl : o.words.length < 4095)
    (hf : usedWords (queueOf s q) < qCapacity s q) (w : Nat) : doPacketWord q p w none s =
    setQueue q { queueOf s q with
      opn := some { o with words := o.words ++ [w % 2 ^ 32] }
      wpos := ((queueOf s q).wpos + 1) % qCapacity s q } s := by
  rw [doPacketWord_own he ho hp, putWord_fits ho hc hl hf, if_neg (by simp)]
  exact serveWaiting_open q _ (congrArg QueueSt.opn (queueOf_setQueue_same ..))

theorem doPacketWord_overtakes (h : qCapacity s q ≤ 1 + o.words.length ∨ 4095 ≤ o.words.length) (w : Nat) :
    doPacketWord q p w none s =
      (s |> rewindOpen q |> inc (QMX_Q_LOST_OVERSIZE q) |> qLost q 1 |> qmxError 1 q |> serveWaiting q) := by
  rw [doPacketWord_own he ho hp, putWord_overtakes ho h]
  rfl

/-- A committed packet takes the next sequence number (R269); nothing else of the queue changes. -/
theorem doPacketCommit_alone (hw : (queueOf s q).waiting = []) (hc : eff s (QMX_Q_COPY_COPY_Q q) = 0) :
    let t := doPacketCommit q p none s
    queueOf t q = { queueOf s q with
      opn := none, seq := u32 ((queueOf s q).seq + 1)
      pkts := (queueOf s q).pkts ++ [⟨u32 ((queueOf s q).seq + 1), o.words, none⟩] } ∧
    OnlyQueue q s t ∧ Evolves [.queues, .svcStats, .jnl] s t := by
  intro t
  let u := svcReceive q o.words (commitOpen q s)
  have hu : Evolves [.queues, .svcStats, .jnl] s u := svcReceive_ev rfl (commitOpen_ev rfl (ev_refl _ s) q) q _
  have heff : eff u (QMX_Q_COPY_COPY_Q q) = 0 := by
    rw [← hc, eff, eff, hu.chip, show u.cfgX = s.cfgX from hu.same (x := .cfgX) (by decide)]
  have hq : queueOf u q = { queueOf s q with
      opn := none, seq := u32 ((queueOf s q).seq + 1)
      pkts := (queueOf s q).pkts ++ [⟨u32 ((queueOf s q).seq + 1), o.words, none⟩] } := by
    rw [queueOf_congr (svcReceive_queues q _ _)]
    simp [commitOpen, ho]
  have ht : t = serveWaiting q u := by
    have hcopy : putCopy q o.words u = (u, []) := by simp [putCopy, heff]
    simp only [t, doPacketCommit, comparePointers, he, ownsOpen_producer ho hp, ho]
    rw [show putCopy q o.words _ = (u, []) from hcopy]
    rfl
  obtain ⟨hsame, hev, honly⟩ := serveWaiting_nobody q u (by rw [hq, ← hw])
  rw [ht]
  exact ⟨hsame.trans hq, ((commitOpen_onlyQueue q s).trans (.of_queues (svcReceive_queues q _ _))).trans honly,
    ev_mono rfl hu hev⟩

theorem doPacketRewind_alone (hw : (queueOf s q).waiting = []) :
    let t := doPacketRewind q p s
    queueOf t q = capDram { queueOf s q with opn := none, wpos := o.mark } ∧ OnlyQueue q s t ∧ Evolves [.queues] s t := by
  intro t
  have hq : queueOf (rewindOpen q s) q = capDram { queueOf s q with opn := none, wpos := o.mark } := by
    rw [rewindOpen_open q s ho, queueOf_setQueue_same]
  have ht : t = serveWaiting q (rewindOpen q s) := by simp [t, doPacketRewind, he, ownsOpen_producer ho hp]
  obtain ⟨hsame, hev, honly⟩ := serveWaiting_nobody q (rewindOpen q s) (by rw [hq]; exact hw)
  rw [ht]
  exact ⟨hsame.trans hq, (rewindOpen_onlyQueue q s).trans honly, ev_mono rfl (rewindOpen_ev rfl (ev_refl _ s) q) hev⟩

end

/-! ## O1 -/

/-- Settles O1, command by command. -/
theorem queueWriting : Obligations.QueueWriting := by
  refine fun s q p => ⟨fun he => ⟨fun ho hf => ?_, fun o ho hp hw => ?_, fun o w ho hp hc hl hf => ?_, fun o ho hp hw hc => ?_,
    fun o ho hp hw => ?_⟩, fun hd w => ⟨?_, ?_, ?_, ?_⟩, by simp [qEnabled]⟩
  · rw [exec_packetOpen, execPacketOpen, doPacketOpen_free he ho hf]
  · rw [exec_packetOpen, execPacketOpen, doPacketOpen_waits he ho hp hw]
  · rw [exec_packetWord, execPacketWord, doPacketWord_fits he ho hp hc hl hf]
  · obtain ⟨hq, honly, hev⟩ := doPacketCommit_alone he ho hp hw hc
    exact ⟨_, rfl, hq, honly, hev.same (x := .regs) (by decide), hev.same (x := .readPorts) (by decide)⟩
  · obtain ⟨hq, honly, hev⟩ := doPacketRewind_alone he ho hp hw
    exact ⟨_, rfl, hq, honly, fun x hx => hev.same (by simpa using hx)⟩
  · rw [exec_packetOpen, execPacketOpen, doPacketOpen_disabled hd]
  · rw [exec_packetWord, execPacketWord, doPacketWord_disabled hd]
  · rw [exec_packetCommit, execPacketCommit, doPacketCommit_disabled hd]
  · rw [exec_packetRewind, execPacketRewind, doPacketRewind_disabled hd]

/-! ## O2 -/

/-- The state in which an oversize packet has been rewound and counted, before its error is recorded (R272). -/
def oversizeLost (q : Nat) (s : State) : State := s |> rewindOpen q |> inc (QMX_Q_LOST_OVERSIZE q) |> qLost q 1

section
variable (s : State) {q : Nat}

theorem queueOf_oversizeLost {o : OpenPkt} (ho : (queueOf s q).opn = some o) : queueOf (oversizeLost q s) q =
    { capDram { queueOf s q with opn := none, wpos := o.mark } with lostSince := true } := by
  rw [oversizeLost, queueOf_qLost, queueOf_inc, rewindOpen_open q s ho, queueOf_setQueue_same]
  simp

theorem oversizeLost_counts :
    rd (oversizeLost q s) (QMX_Q_LOST_OVERSIZE q) = satAdd 8 (rd s (QMX_Q_LOST_OVERSIZE q)) 1 ∧
    rd (oversizeLost q s) (QMX_Q_LOST_LOST q) = satAdd 16 (rd s (QMX_Q_LOST_LOST q)) 1 := by
  have hr : Evolves [.queues] s (rewindOpen q s) := rewindOpen_ev rfl (ev_refl _ s) q
  have hrd (f : RF) : rd (rewindOpen q s) f = rd s f := rd_regs (hr.same (x := .regs) (by decide)) hr.chip
  refine ⟨?_, ?_⟩
  · rw [oversizeLost, rd_qLost_other q _ 1 rfl (by simp), rd_inc_same (by simp) (by simp), hrd]
    rfl
  · rw [oversizeLost, rd_qLost_lost, rd_inc_bits (by simp) (by simp) (.inr (by simp)), hrd]

theorem oversizeLost_evolves : Evolves [.regs, .queues] s (oversizeLost q s) :=
  qLost_ev rfl (inc_ev rfl (rewindOpen_ev rfl (ev_refl _ s) q) _) q 1

end

/-- Settles O2, from what the rewound queue holds and the record of error 0x01. -/
theorem queueOvertakesMark : Obligations.QueueOvertakesMark := by
  intro s q p w o he ho hp h
  have hev : Evolves [.regs, .queues] s (oversizeLost q s) := oversizeLost_evolves s
  have henabled : qEnabled (oversizeLost q s) 2 = qEnabled s 2 := qEnabled_congr hev.chip (hev.same (x := .cfgX) (by decide)) 2
  have hown := queueOf_oversizeLost s ho
  obtain ⟨hover, hlost⟩ := oversizeLost_counts s (q := q)
  refine ⟨oversizeLost q s, ?_, by rw [hown]; rfl, by rw [hown]; rfl, by rw [hown]; rfl, by rw [hown]; rfl, by rw [hown]; rfl,
    by rw [hown], hover, hlost, rd_qLost_event q _ one_ne_zero, ?_, fun hq2 => ?_, fun hq2 hopen => ?_, fun x hx hx' => ?_⟩
  · rw [exec_packetWord, execPacketWord, doPacketWord_overtakes he ho hp h]
    rfl
  · exact ((rewindOpen_onlyQueue q s).trans (.of_queues (inc_queues ..))).trans (qLost_onlyQueue q 1 _)
  · exact rd_qmxError_announced (hq2.imp_left henabled.trans) 1 q
  · exact logError_waits (henabled.trans hq2) hopen _ _
  · exact hev.same (by simp [hx, hx'])

/-! ## O3 -/

/-- Settles O3: without room the open packet is dropped, or the oldest packets go. -/
theorem queueFullModes : Obligations.QueueFullModes := by
  intro s q p w o he ho hp hc hl hf
  refine ⟨fun hm => ?_, fun hm hk => ?_⟩
  · rw [exec_packetWord, execPacketWord, doPacketWord_own he ho hp, putWord_drops ho hc hl hf hm]
    rfl
  · obtain ⟨hdrop, -⟩ := queueOf_makeRoom q s (queueOf s q).pkts.length
    refine ⟨_, by rw [exec_packetWord, execPacketWord, doPacketWord_own he ho hp, putWord_discards ho hc hl hf hm hk,
      if_neg (by simp), serveWaiting_open q _ (o := { o with words := o.words ++ [w % 2 ^ 32] }) (by simp)], ?_⟩
    refine ⟨by simp, by simp, by simpa using hdrop, rfl, rfl⟩

end Sys2Proof.Machine

/-! PROOFS. Pointer resets, spill moves, new configurations and claim timeouts of the queues (R264, R276, R280 to R283). -/

namespace Sys2Proof.Machine
open Sys2Proof

/-! ## Broken claims -/

/-- The port has lost its claim and shows so (R276). -/
def claimBroken (s : State) (c : Nat) : Prop := (portOf s c).claim = none ∧ isSet s (QMX_RP_STAT_BROKEN c) = true

theorem claimBroken_of_kept {P : Nat → Prop} {s t : State} {c : Nat} (h : claimBroken s c) (hk : RegsKept P s t)
    (hp : t.readPorts = s.readPorts) (hc : ¬ P (0x80008 + 0x1000 * c)) : claimBroken t c := by
  obtain ⟨hclaim, hbroken⟩ := h
  refine ⟨by rw [portOf_congr hp, hclaim], ?_⟩
  rw [isSet, hk.rd hc]
  exact hbroken

theorem breakClaim_claimBroken {p : Pkt} {c : Nat} (h : p.claim = some c) (s : State) : claimBroken (breakClaim p s) c := by
  simp only [breakClaim, h]
  refine ⟨by simp [dropClaim], isSet_of_rd (n := 1) ?_⟩
  rw [rd_wr_addr (by dsimp only; omega), rd_set_oneBit (by simp [oneBit])]

/-- A broken claim stays broken while others are. -/
theorem claimBroken_breakClaim {s : State} {c : Nat} (h : claimBroken s c) (p : Pkt) : claimBroken (breakClaim p s) c := by
  cases hp : p.claim with
  | none => simpa [breakClaim, hp] using h
  | some r =>
    by_cases hr : r = c
    · exact breakClaim_claimBroken (hr ▸ hp) s
    · obtain ⟨hclaim, hbroken⟩ := h
      simp only [breakClaim, hp, dropClaim]
      refine ⟨by simp [portOf_setPort_ne _ _ _ hr, hclaim], ?_⟩
      rw [isSet, rd_wr_addr (by dsimp only; omega), rd_wr_addr (by dsimp only; omega), rd_wr_addr (by dsimp only; omega),
        rd_wr_addr (by dsimp only; omega), rd_setPort]
      exact hbroken

theorem claimBroken_breakClaims {s : State} {c : Nat} (h : claimBroken s c) (ps : List Pkt) : claimBroken (breakClaims ps s) c := by
  induction ps generalizing s with
  | nil => exact h
  | cons p ps ih => exact ih (claimBroken_breakClaim h p)

theorem breakClaims_claimBroken {ps : List Pkt} {x : Pkt} (hx : x ∈ ps) {c : Nat} (h : x.claim = some c) (s : State) :
    claimBroken (breakClaims ps s) c := by
  induction ps generalizing s with
  | nil => exact absurd hx List.not_mem_nil
  | cons p ps ih =>
    rcases List.mem_cons.mp hx with rfl | hx
    · exact claimBroken_breakClaims (breakClaim_claimBroken h s) ps
    · exact ih hx _

/-! ## The registers that a discard writes -/

/-- Breaking a claim writes the status of read ports and QMX_EVT, which lie above the counters of the queues. -/
theorem breakClaim_keepsCounters (p : Pkt) (s : State) : RegsKept (0x80008 ≤ ·) s (breakClaim p s) := by
  unfold breakClaim
  split
  · exact .refl _ s
  · next r _ =>
    have stat : 0x80008 ≤ 0x80008 + 0x1000 * r := by omega
    exact (((RegsKept.of_eq (t := setPort r ⟨none, []⟩ s) rfl rfl).wr stat).wr stat |>.wr stat).wr (by simp)

theorem discardAll_keepsCounters (q : Nat) (s : State) : RegsKept (0x80008 ≤ ·) s (discardAll q s) :=
  (setQueue_kept _ q _ s).trans (RegsKept.foldl (fun s p => breakClaim_keepsCounters p s) _ _)

/-- The words that count lost packets and announce them: QMX_Q_LOST of the queues and QMX_EVT. -/
def lossWord (a : Nat) : Prop := a < 0x80000 ∨ a = 0xA0000

theorem qLost_lossWords {q : Nat} (h : q < 8192) (n : Nat) (s : State) : RegsKept lossWord s (qLost q n s) := by
  unfold qLost
  split
  · exact .refl _ s
  · have lost : lossWord (0x40010 + 0x20 * q) := Or.inl (by omega)
    exact ((wr_kept _ rfl lost _ s).wr (r := QMX_EVT_LOST) (Or.inr rfl)).trans (setQueue_kept _ q _ _)

theorem discardAll_evolves (q : Nat) (s : State) : Evolves [.regs, .queues, .readPorts] s (discardAll q s) :=
  breakClaims_ev rfl (setQueue_ev rfl (ev_refl _ s) q _) _

theorem breakClaims_queues (ps : List Pkt) (s : State) : (breakClaims ps s).queues = s.queues :=
  (breakClaims_ev (H := [.regs, .readPorts]) rfl (ev_refl _ s) ps).same (x := .queues) (by decide)

theorem queueOf_discardAll (q : Nat) (s : State) :
    queueOf (discardAll q s) q = { queueOf s q with pkts := [], opn := none, wpos := 0, dram := 0 } := by
  rw [discardAll, queueOf_congr (breakClaims_queues _ _), queueOf_setQueue_same]

theorem discardAll_onlyQueue (q : Nat) (s : State) : OnlyQueue q s (discardAll q s) :=
  (setQueue_onlyQueue q _ s).trans (.of_queues (breakClaims_queues _ _))

/-! ## The pointer reset (R280) -/

/-- The state of a pointer reset before its error is recorded. -/
def pointersReset (q count sq : Nat) (s : State) : State :=
  s |> discardAll q |> (fun u => setQueue q { queueOf u q with seq := max (queueOf s q).seq (u32 sq) } u)
    |> qLost q (max (queueOf s q).pkts.length count) |> inc (QMX_Q_LOST_PTR_RESET q)

section
variable (q n sq : Nat) (s : State)

theorem pointerReset_eq : pointerReset q n sq s = noteRow 1 (Config.pointerRow q) 2 (qmxError 2 q (pointersReset q n sq s)) := rfl

theorem pointersReset_evolves : Evolves [.regs, .queues, .readPorts] s (pointersReset q n sq s) :=
  inc_ev rfl (qLost_ev rfl (setQueue_ev rfl (discardAll_evolves q s) q _) q _) _

theorem queueOf_pointersReset : queueOf (pointersReset q n sq s) q = { queueOf s q with
    pkts := [], opn := none, wpos := 0, dram := 0, seq := max (queueOf s q).seq (u32 sq)
    lostSince := (queueOf s q).lostSince || decide (max (queueOf s q).pkts.length n ≠ 0) } := by
  rw [pointersReset, queueOf_inc, queueOf_qLost, queueOf_setQueue_same, queueOf_discardAll]

theorem pointersReset_onlyQueue : OnlyQueue q s (pointersReset q n sq s) :=
  (((discardAll_onlyQueue q s).trans (setQueue_onlyQueue q _ _)).trans (qLost_onlyQueue q _ _)).trans (.of_queues (inc_queues ..))

theorem pointersReset_counts (hq : q < 8192) :
    rd (pointersReset q n sq s) (QMX_Q_LOST_LOST q) = satAdd 16 (rd s (QMX_Q_LOST_LOST q)) (max (queueOf s q).pkts.length n) ∧
    rd (pointersReset q n sq s) (QMX_Q_LOST_PTR_RESET q) = satAdd 8 (rd s (QMX_Q_LOST_PTR_RESET q)) 1 := by
  have hrd {f : RF} (hf : f.addr = 0x40010 + 0x20 * q) : rd (discardAll q s) f = rd s f :=
    (discardAll_keepsCounters q s).rd (by omega)
  refine ⟨?_, ?_⟩
  · rw [pointersReset, rd_inc_bits (by simp) (by simp) (.inr (by simp)), rd_qLost_lost, rd_setQueue, hrd rfl]
  · rw [pointersReset, rd_inc_same (by simp) (by simp), rd_qLost_other q _ _ rfl (by simp), rd_setQueue, hrd rfl]
    rfl

theorem pointersReset_breaksClaims (hq : q < 8192) {x : Pkt} (hx : x ∈ (queueOf s q).pkts) {c : Nat} (h : x.claim = some c) :
    claimBroken (pointersReset q n sq s) c := by
  let u := discardAll q s
  have hk : RegsKept lossWord u (pointersReset q n sq s) :=
    ((setQueue_kept _ q _ u).trans (qLost_lossWords hq _ _)).wr (r := QMX_Q_LOST_PTR_RESET q) (Or.inl (by dsimp only; omega))
  have hev : Evolves [.regs, .queues] u (pointersReset q n sq s) :=
    inc_ev rfl (qLost_ev rfl (setQueue_ev rfl (ev_refl _ u) q _) q _) _
  exact claimBroken_of_kept (breakClaims_claimBroken hx h _) hk (hev.same (x := .readPorts) (by decide))
    (by unfold lossWord; omega)

/-- A queue stays enabled over a pointer reset and the serving of its waiting producers. -/
theorem qEnabled_comparePointers (bad : Option (Nat × Nat)) (j : Nat) : qEnabled (comparePointers q bad s) j = qEnabled s j := by
  have hev : Evolves [.regs, .queues, .readPorts, .svcStats, .jnl, .rsv] s (comparePointers q bad s) :=
    comparePointers_ev rfl (ev_refl _ s) q bad
  exact qEnabled_congr hev.chip (hev.same (x := .cfgX) (by decide)) j

end

section
variable {s : State} {q : Nat} (he : qEnabled s q = true) (p : Nat) (bad : Option (Nat × Nat))
include he

theorem doPacketOpen_compared : doPacketOpen q p bad s = doPacketOpen q p none (comparePointers q bad s) := by
  simp only [doPacketOpen, he, qEnabled_comparePointers]
  rfl

theorem doPacketWord_compared (w : Nat) : doPacketWord q p w bad s = doPacketWord q p w none (comparePointers q bad s) := by
  simp only [doPacketWord, he, qEnabled_comparePointers]
  rfl

theorem doPacketCommit_compared : doPacketCommit q p bad s = doPacketCommit q p none (comparePointers q bad s) := by
  simp only [doPacketCommit, he, qEnabled_comparePointers]
  rfl

end

/-! ## Spill moves (R264, R281) -/

section
variable {s : State} {q : Nat} (he : qEnabled s q = true) (hd : 6 < eff s (QMX_Q_CFG_DEPTH_LOG2 q))
include he hd

theorem doSpillMove_toDram (n : Nat) (bad : List Nat) : doSpillMove q n false bad s =
    setQueue q (capDram { queueOf s q with dram := (queueOf s q).dram + 16 * n }) s := by
  simp [doSpillMove, he, Nat.not_le.mpr hd]

variable (h0 : (queueOf s q).dram ≠ 0) {n : Nat} (hn : n ≠ 0)
include h0 hn

theorem doSpillMove_toHead (bad : List Nat) : doSpillMove q n true bad s =
    let lost := bad.filter (· < min (queueOf s q).dram (16 * n))
    let u := setQueue q { queueOf s q with dram := (queueOf s q).dram - 16 * n } s
    if lost.isEmpty then u else spillDiscard q lost u := by
  simp [doSpillMove, he, Nat.not_le.mpr hd, h0, hn]

theorem doSpillMove_clean {bad : List Nat} (hb : ∀ k ∈ bad, min (queueOf s q).dram (16 * n) ≤ k) : doSpillMove q n true bad s =
    setQueue q { queueOf s q with dram := (queueOf s q).dram - 16 * n } s := by
  have hnone : bad.filter (· < min (queueOf s q).dram (16 * n)) = [] :=
    List.filter_eq_nil_iff.mpr fun k hk => by simpa only [decide_eq_true_eq, Nat.not_lt] using hb k hk
  rw [doSpillMove_toHead he hd h0 hn, hnone]
  rfl

end

/-- An uncorrectable word of a committed packet discards that packet whole (R281). -/
theorem spillDiscard_packet {u : State} {q k : Nat} {x : Pkt} (hx : packetAt (32 + k) (queueOf u q).pkts = some x) :
    spillDiscard q [k] u =
      (u |> setQueue q (capDram { queueOf u q with pkts := (queueOf u q).pkts.filter (· ≠ x) }) |> breakClaim x |> qLost q 1
        |> qmxError 3 q |> noteRow 2 (Config.spillRow q) 1 |> serveWaiting q) := by
  have hp : spilledPackets (queueOf u q) [k] = [some x] := by rw [spilledPackets, List.map_singleton, hx]; rfl
  rw [spillDiscard, hp]
  rfl

/-- The packet that holds a word: the words before it, and its own (R266). -/
theorem packetAt_eq_some {ps : List Pkt} {k : Nat} {x : Pkt} (h : packetAt k ps = some x) :
    ∃ a b, ps = a ++ x :: b ∧ (a.map pktWords).sum ≤ k ∧ k < (a.map pktWords).sum + pktWords x := by
  induction ps generalizing k with
  | nil => simp [packetAt] at h
  | cons p ps ih =>
    unfold packetAt at h
    split at h
    · next hk =>
      obtain rfl : p = x := Option.some.inj h
      exact ⟨[], ps, rfl, by simp, by simpa using hk⟩
    · next hk =>
      obtain ⟨a, b, e, hlo, hhi⟩ := ih h
      refine ⟨p :: a, b, by rw [e]; rfl, ?_, ?_⟩ <;> simp only [List.map_cons, List.sum_cons] <;> omega

/-! ## New configurations (R283) -/

/-- The new words discard the contents: the depth changes, or the queue is disabled. -/
def discardsContents (s : State) (q : Nat) : Prop :=
  fld (queueCfgNew s q).1 7 3 ≠ eff s (QMX_Q_CFG_DEPTH_LOG2 q) ∨
    fld (queueCfgNew s q).1 0 0 = 0 ∧ eff s (QMX_Q_CFG_ENABLE q) = 1

/-- Put the words that ISL_CORE holds for a queue into effect. -/
def effectQueueCfg (q : Nat) (c : Word × Word) (s : State) : State :=
  let d := regReset s.chip
  { s with cfgX := sset d (sset d s.cfgX (QMX_Q_CFG_ALL q).addr c.1) (QMX_Q_COPY_ALL q).addr c.2 }

theorem effectQueueCfg_words (q : Nat) (c : Word × Word) (s : State) : let t := effectQueueCfg q c s
    bankWord t.chip t.cfgX (QMX_Q_CFG_ALL q).addr = c.1 ∧ bankWord t.chip t.cfgX (QMX_Q_COPY_ALL q).addr = c.2 := by
  simp [effectQueueCfg, bankWord_sset]

section
variable {s : State} {q : Nat} (hq : q < 8192) (ho : (queueOf s q).opn = none)
include hq ho

theorem doQueueConfigApply_eq : doQueueConfigApply q s = effectQueueCfg q (queueCfgNew s q)
    (if fld (queueCfgNew s q).1 7 3 ≠ fld (bankWord s.chip s.cfgX (QMX_Q_CFG_ALL q).addr) 7 3 ∨
        (fld (queueCfgNew s q).1 0 0 = 0 ∧ fld (bankWord s.chip s.cfgX (QMX_Q_CFG_ALL q).addr) 0 0 = 1)
      then discardForConfig q s else s) :=
  if_neg (by simp [ho, hq])

theorem doQueueConfigApply_discards (h : discardsContents s q) :
    doQueueConfigApply q s = effectQueueCfg q (queueCfgNew s q) (discardForConfig q s) := by
  rw [doQueueConfigApply_eq hq ho]
  exact congrArg _ (if_pos h)

theorem doQueueConfigApply_keeps (h : ¬ discardsContents s q) :
    doQueueConfigApply q s = effectQueueCfg q (queueCfgNew s q) s := by
  rw [doQueueConfigApply_eq hq ho]
  exact congrArg _ (if_neg h)

omit ho in
theorem discardForConfig_discards : (queueOf (discardForConfig q s) q).pkts = [] ∧
    rd (discardForConfig q s) (QMX_Q_LOST_LOST q) = satAdd 16 (rd s (QMX_Q_LOST_LOST q)) (queueOf s q).pkts.length := by
  refine ⟨?_, ?_⟩
  · rw [discardForConfig, queueOf_qLost, queueOf_discardAll]
  · rw [discardForConfig, rd_qLost_lost, (discardAll_keepsCounters q s).rd (by dsimp only; omega)]

end

/-! ## Claims (R276) -/

theorem releaseClaim_none {s : State} {r : Nat} (h : (portOf s r).claim = none) : releaseClaim r s = s := by simp [releaseClaim, h]

theorem releaseClaim_some {s : State} {r q sq : Nat} (h : (portOf s r).claim = some (q, sq)) : releaseClaim r s =
    (s |> setQueue q (capDram { queueOf s q with pkts := (queueOf s q).pkts.filter fun p => p.claim ≠ some r }) |> dropClaim r) := by
  simp [releaseClaim, h]

theorem doClaimTimeout_some {s : State} {r q sq : Nat} (h : (portOf s r).claim = some (q, sq)) : doClaimTimeout r s =
    (s |> releaseClaim r |> wr (QMX_RP_STAT_TIMEOUT r) 1 |> wr QMX_EVT_CLAIM_TMO 1) := by
  simp [doClaimTimeout, h]

/-! ## O4 -/

/-- A pointer mismatch: the three accesses go on from the reset queue, and what the reset leaves (R280). -/
theorem pointerMismatch {s : State} {q : Nat} (he : qEnabled s q = true) (n sq : Nat) :
    ∃ r, pointerReset q n sq s = noteRow 1 (Config.pointerRow q) 2 (qmxError 2 q r) ∧
      (queueOf r q).pkts = [] ∧ (queueOf r q).opn = none ∧ (queueOf r q).wpos = 0 ∧
      (queueOf r q).seq = max (queueOf s q).seq (u32 sq) ∧ (queueOf r q).waiting = (queueOf s q).waiting ∧
      (max (queueOf s q).pkts.length n ≠ 0 → (queueOf r q).lostSince = true) ∧
      (∀ q', q' ≠ q → queueOf r q' = queueOf s q') ∧
      rd r (QMX_Q_LOST_LOST q) = satAdd 16 (rd s (QMX_Q_LOST_LOST q)) (max (queueOf s q).pkts.length n) ∧
      rd r (QMX_Q_LOST_PTR_RESET q) = satAdd 8 (rd s (QMX_Q_LOST_PTR_RESET q)) 1 ∧
      (∀ x ∈ (queueOf s q).pkts, ∀ c, c < 4 → x.claim = some c →
        (portOf r c).claim = none ∧ isSet r (QMX_RP_STAT_BROKEN c) = true) ∧
      ((qEnabled s 2 = false ∨ (queueOf r 2).opn = none) → rd (qmxError 2 q r) QMX_EVT_PTR_RESET = 1) := by
  have hq := (lt_of_qEnabled he).2
  have hown := queueOf_pointersReset q n sq s
  have hev := pointersReset_evolves q n sq s
  have henabled : qEnabled (pointersReset q n sq s) 2 = qEnabled s 2 := qEnabled_congr hev.chip (hev.same (x := .cfgX) (by decide)) 2
  obtain ⟨hlost, hreset⟩ := pointersReset_counts q n sq s hq
  exact ⟨pointersReset q n sq s, pointerReset_eq q n sq s, by rw [hown], by rw [hown], by rw [hown], by rw [hown], by rw [hown],
    fun hmax => by rw [hown]; simp only [decide_eq_true hmax, Bool.or_true], pointersReset_onlyQueue q n sq s, hlost, hreset,
    fun x hx c _ h => pointersReset_breaksClaims q n sq s hq hx h, fun hq2 => rd_qmxError_announced (hq2.imp_left henabled.trans) 2 q⟩

/-- The words in effect after QUEUE_CONFIG_APPLY, and what becomes of the contents (R283). -/
theorem queueConfigApply_effect {s : State} {q : Nat} (hq : q < 8192) (ho : (queueOf s q).opn = none) :
    let t := doQueueConfigApply q s
    bankWord t.chip t.cfgX (QMX_Q_CFG_ALL q).addr = (queueCfgNew s q).1 ∧
    bankWord t.chip t.cfgX (QMX_Q_COPY_ALL q).addr = (queueCfgNew s q).2 ∧
    (¬ discardsContents s q → t.queues = s.queues ∧ t.regs = s.regs ∧ t.readPorts = s.readPorts) ∧
    (discardsContents s q → (queueOf t q).pkts = [] ∧
      rd t (QMX_Q_LOST_LOST q) = satAdd 16 (rd s (QMX_Q_LOST_LOST q)) (queueOf s q).pkts.length) := by
  intro t
  by_cases h : discardsContents s q
  · have e : t = effectQueueCfg q (queueCfgNew s q) (discardForConfig q s) := doQueueConfigApply_discards hq ho h
    obtain ⟨hcfg, hcopy⟩ := effectQueueCfg_words q (queueCfgNew s q) (discardForConfig q s)
    exact ⟨e ▸ hcfg, e ▸ hcopy, fun hn => absurd h hn, fun _ => e ▸ discardForConfig_discards hq⟩
  · have e : t = effectQueueCfg q (queueCfgNew s q) s := doQueueConfigApply_keeps hq ho h
    obtain ⟨hcfg, hcopy⟩ := effectQueueCfg_words q (queueCfgNew s q) s
    exact ⟨e ▸ hcfg, e ▸ hcopy, fun _ => e ▸ ⟨rfl, rfl, rfl⟩, fun hd => absurd hd h⟩

/-- Settles O4, command by command. -/
theorem queueUpkeep : Obligations.QueueUpkeep := by
  refine ⟨fun s q p w n sq he => ⟨?_, ?_, ?_, pointerMismatch he n sq⟩, fun s q n bad he hd => ⟨?_, fun h0 hn => ⟨fun hb => ?_,
    fun k x hk hx => ?_⟩⟩, fun ps k x h => packetAt_eq_some h, fun s q hq ho => ?_, fun s r q sq hr h => ?_⟩
  · rw [exec_packetOpen, execPacketOpen, doPacketOpen_compared he]
    rfl
  · rw [exec_packetWord, execPacketWord, doPacketWord_compared he]
    rfl
  · rw [exec_packetCommit, execPacketCommit, doPacketCommit_compared he]
    rfl
  · rw [exec_spillMove, execSpillMove, doSpillMove_toDram he hd]
  · rw [exec_spillMove, execSpillMove, doSpillMove_clean he hd h0 hn hb]
  · rw [exec_spillMove, execSpillMove, doSpillMove_toHead he hd h0 hn]
    have hbad : [k].filter (· < min (queueOf s q).dram (16 * n)) = [k] := by simpa using hk
    rw [hbad]
    dsimp only
    rw [if_neg (by simp), spillDiscard_packet (x := x) (by simpa using hx)]
    simp
  · obtain ⟨hcfg, hcopy, hkeeps, hdiscards⟩ := queueConfigApply_effect hq ho
    exact ⟨_, rfl, hcfg, hcopy, fun hdepth hen => hkeeps fun h => h.elim (absurd hdepth) fun h => by simp [hen] at h, hdiscards⟩
  · rw [exec_claimTimeout, execClaimTimeout, if_pos hr, doClaimTimeout_some h, releaseClaim_some h]

end Sys2Proof.Machine

/-! PROOFS. Reading of a queue through a read port (R275 to R277). -/

namespace Sys2Proof.Machine
open Sys2Proof

/-! ## Accesses by the port's own originator -/

theorem guardRead_own {s : State} {o : Orig} (hp : origPresent s.variant o = true) (a : Nat) (act : State → State) :
    guardRead o o a act s = act s := by
  simp [guardRead, hp]

theorem guardOrig_own {s : State} {o : Orig} (hp : origPresent s.variant o = true) (hw : writes o = true) (a : Nat)
    (act : State → State) : guardOrig o o a act s = act s := by
  simp [guardOrig, hp, hw]

/-! ## Ports and queues are apart -/

@[simp] theorem queueOf_setPort (r : Nat) (x : PortSt) (j : Nat) (s : State) : queueOf (setPort r x s) j = queueOf s j := rfl

@[simp] theorem portOf_setQueue (q : Nat) (x : QueueSt) (j : Nat) (s : State) : portOf (setQueue q x s) j = portOf s j := rfl

@[simp] theorem queueOf_dropClaim (r j : Nat) (s : State) : queueOf (dropClaim r s) j = queueOf s j := rfl

@[simp] theorem portOf_dropClaim (r : Nat) (s : State) : portOf (dropClaim r s) r = ⟨none, []⟩ := by
  simp [dropClaim]

/-! ## Header reads (R276, R277) -/

/-- A header read clears the port's flags first. -/
def clearFlags (r : Nat) (s : State) : State :=
  s |> wr (QMX_RP_STAT_OVERRUN r) 0 |> wr (QMX_RP_STAT_TIMEOUT r) 0 |> wr (QMX_RP_STAT_BROKEN r) 0

theorem rd_clearFlags {r : Nat} {f : RF} (h : f.addr ≠ 0x80008 + 0x1000 * r) (s : State) : rd (clearFlags r s) f = rd s f := by
  simp only [clearFlags]
  rw [rd_wr_addr (Ne.symm h), rd_wr_addr (Ne.symm h), rd_wr_addr (Ne.symm h)]

/-- A header read of a port that holds no claim and selects one queue. -/
theorem headerRead_single {s : State} {r q : Nat} (hc : (portOf s r).claim = none)
    (hg : isSet s (QMX_RP_SEL_GROUP_MODE r) = false) (ht : rd s (QMX_RP_SEL_TARGET r) = q) : headerRead r none s =
    if isReader s r q then claimPacket r q (clearFlags r s) else (clearFlags r s, headerWord false true false q 0 0) := by
  have hsel {f : RF} (hf : f.addr = 0x80000 + 0x1000 * r) : rd (clearFlags r s) f = rd s f := rd_clearFlags (by omega) s
  have hg' : isSet (clearFlags r s) (QMX_RP_SEL_GROUP_MODE r) = false := by rw [isSet, hsel rfl]; exact hg
  rw [headerRead, releaseClaim_none hc]
  refine (if_neg (c := isSet (clearFlags r s) (QMX_RP_SEL_GROUP_MODE r) = true) (by simp [hg'])).trans ?_
  change (if !isReader s r (rd (clearFlags r s) (QMX_RP_SEL_TARGET r)) then
      (clearFlags r s, headerWord false true false (rd (clearFlags r s) (QMX_RP_SEL_TARGET r)) 0 0)
    else claimPacket r (rd (clearFlags r s) (QMX_RP_SEL_TARGET r)) (clearFlags r s)) = _
  rw [hsel rfl, ht]
  cases isReader s r q <;> rfl

theorem exec_headerRead_own {s : State} {r : Nat} (hr : r < 4) (hp : origPresent s.variant (portOrig r) = true) :
    exec (.headerRead (portOrig r) r none) s = .next
      (emit (.readData (portOrig r) (QMX_RP_HEAD_ALL r).addr (headerRead r none s).2) (headerRead r none s).1) := by
  rw [exec_headerRead, execHeaderRead, if_pos hr, doHeaderRead, guardRead_own hp]

/-- A claim of a packet with words: what the port, the queue and the answer hold. -/
theorem claimPacket_waiting {s : State} {q : Nat} {p : Pkt} (r : Nat)
    (h : (queueOf s q).pkts.find? (fun p => p.claim.isNone) = some p) (hw : p.words ≠ []) : ∃ u,
    claimPacket r q s = (u, headerWord true false (queueOf s q).lostSince q p.seq p.words.length) ∧
    portOf u r = ⟨some (q, p.seq), p.words⟩ ∧
    queueOf u q = { queueOf s q with pkts := markClaim r (queueOf s q).pkts, lostSince := false } ∧ OnlyQueue q s u ∧
    u.out = s.out := by
  refine ⟨_, by simp only [claimPacket, h]; rw [if_neg (by simpa using hw)], by simp, by simp, ?_, by simp⟩
  exact fun j hj => by simp [queueOf_setQueue_ne q _ s hj.symm]

/-! ## Data reads (R276) -/

theorem exec_dataRead_one {s : State} {r : Nat} (hr : r < 4) (hp : origPresent s.variant (portOrig r) = true) :
    exec (.dataRead (portOrig r) r 1 none) s =
      .next (emit (.readData (portOrig r) (QMX_RP_DATA_ALL r 0).addr (dataWord r s).2) (dataWord r s).1) := by
  rw [exec_dataRead, execDataRead, if_pos hr, doDataRead, guardRead_own hp]
  cases (portOf s r).claim <;> rfl

/-- The next word of a claim. -/
theorem dataWord_claim {s : State} {r w : Nat} {c : Nat × Nat} {ws : List Nat} (hc : (portOf s r).claim = some c)
    (hr : (portOf s r).rest = w :: ws) : ∃ u, dataWord r s = (u, w) ∧ u.out = s.out ∧
    (ws ≠ [] → portOf u r = ⟨some c, ws⟩ ∧ u.queues = s.queues) ∧
    (ws = [] → portOf u r = ⟨none, []⟩ ∧ (queueOf u c.1).pkts = (queueOf s c.1).pkts.filter fun p => p.claim ≠ some r) := by
  let v := s |> setPort r ⟨some c, ws⟩ |> wr (QMX_RP_STAT_LEFT r) ws.length
  have e : dataWord r s = (if ws.isEmpty then releaseClaim r v else v, w) := by
    simp only [dataWord, hc, hr]
    rfl
  have hv : portOf v r = ⟨some c, ws⟩ := by simp [v]
  cases ws with
  | cons x ws => exact ⟨v, e, rfl, fun _ => ⟨hv, rfl⟩, fun h => absurd h (by simp)⟩
  | nil =>
    have hrel := releaseClaim_some (s := v) (r := r) (q := c.1) (sq := c.2) (by rw [hv])
    refine ⟨releaseClaim r v, e, by rw [hrel]; rfl, fun h => absurd rfl h, fun _ => ?_⟩
    rw [hrel]
    exact ⟨by simp, by simp [capDram, v]⟩

theorem dataWord_none {s : State} {r : Nat} (hc : (portOf s r).claim = none) (hb : isSet s (QMX_RP_STAT_BROKEN r) = false) :
    dataWord r s = (wr (QMX_RP_STAT_OVERRUN r) 1 s, 0) := by
  simp [dataWord, hc, hb]

/-! ## O5 -/

/-- Settles O5, command by command. -/
theorem queueReading : Obligations.QueueReading := by
  refine fun s r hr hp => ⟨fun q p hc hg ht hrd hfind hw => ?_, fun q hc hg ht hrd => ?_, fun c w ws hc hrest => ?_, fun hc hb => ?_,
    fun q sq v hc hv hwr => ?_⟩
  · obtain ⟨u, e, hport, hown, hothers, hout⟩ := claimPacket_waiting (s := clearFlags r s) r hfind hw
    refine ⟨_, exec_headerRead_own hr hp, ?_⟩
    rw [headerRead_single hc hg ht, if_pos hrd, e]
    exact ⟨hport, hown, hothers, congrArg (· ++ [_]) hout⟩
  · refine ⟨_, exec_headerRead_own hr hp, ?_⟩
    rw [headerRead_single hc hg ht, if_neg (by simp [hrd])]
    exact ⟨rfl, rfl, rfl⟩
  · obtain ⟨u, e, hout, hmore, hlast⟩ := dataWord_claim hc hrest
    refine ⟨_, exec_dataRead_one hr hp, ?_⟩
    rw [e]
    exact ⟨congrArg (· ++ [_]) hout, hmore, hlast⟩
  · rw [exec_dataRead_one hr hp, dataWord_none hc hb]
  · have hgo : hasBit v 0 = true := by simp [hasBit, hv]
    rw [exec_release, execRelease, if_pos hr, doRelease, guardOrig_own hp hwr, if_pos hgo, releaseClaim_some hc]

end Sys2Proof.Machine

/-! PROOFS. Samples and messages of position channels, and how channels lose and regain validity (R331 to R336, R340). -/

namespace Sys2Proof.Machine
open Sys2Proof

/-! ## The registers of a channel and its event bits -/

theorem RegsKept.of_evolves {P : Nat → Prop} {F : List StateField} {s t : State} (h : Evolves F s t) (hr : StateField.regs ∉ F) :
    RegsKept P s t := .of_eq (h.same (x := .regs) hr) h.chip

/-- The record of a lost channel. -/
def lostError (n : Nat) : ErrInfo := (posErr 1 n).setting POS_EVT_CH_LOST

theorem lostError_base (n : Nat) : errBase (lostError n).unit (lostError n).inst = 0xA00024 := rfl

theorem lostError_bits (n : Nat) : ∀ x ∈ (lostError n).evts, oneBit x := by simp [lostError, posErr, ErrInfo.setting, oneBit]

/-- The words of the four channels. -/
def channelWord (a : Nat) : Prop := 0xA00100 ≤ a ∧ a < 0xA00300

theorem not_isErr_of_channelWord {a : Nat} (h : channelWord a) (n : Nat) : ¬ isErr (lostError n) a := by
  obtain ⟨hlo, hhi⟩ := h
  rintro ((hq | ⟨r, hr, rfl⟩) | ⟨-, h⟩)
  · unfold isQmx at hq
    omega
  · obtain rfl : r = POS_EVT_CH_LOST := by simpa [lostError, posErr, ErrInfo.setting] using hr
    simp at hlo
  · rw [lostError_base] at h
    omega

theorem posEvt_onlySet {r : RF} (hr : oneBit r) (ha : r.addr = 0xA00020) : onlySet r := ⟨hr, by omega, by omega⟩

theorem chCount_lt (s : State) (n : Nat) : chCount s n < 2 ^ 32 := rd_lt s (POS_CH_CNT_COUNT n)

theorem chIs_of_type {s : State} {n k : Nat} {types : List Nat} (hp : posPresent s.variant = true) (hn : n < 4) (hk : chType s n = k)
    (h : k ∈ types) : chIs s n types = true := by
  simp [chIs, hp, hn, hk, h]

/-! ## A channel becomes not valid (R333, R334) -/

/-- VALID and REF fall, and the loss is recorded. -/
def showLost (n : Nat) (s : State) : State :=
  s |> wr (POS_CH_STAT_VALID n) 0 |> wr (POS_CH_STAT_REF n) 0 |> recordError (lostError n)

theorem loseChannel_invalid {s : State} {n : Nat} (h : chValid s n = false) : loseChannel n s = s := if_neg (by simp [h])

/-- What else a loss does, it does outside the registers. -/
theorem loseChannel_evolves {s : State} {n : Nat} (h : chValid s n = true) :
    Evolves [.frames, .time, .mot] (showLost n s) (loseChannel n s) := by
  rw [loseChannel, if_pos h]
  exact finishMids_ev rfl (noteValid_ev rfl (setCh_ev rfl (ev_refl _ (showLost n s)) n _) n _)

section
variable {s : State} {n : Nat} (hn : n < 4)

theorem rd_showLost {r : RF} (h : channelWord r.addr) : rd (showLost n s) r =
    rd (s |> wr (POS_CH_STAT_VALID n) 0 |> wr (POS_CH_STAT_REF n) 0) r :=
  rd_recordError (not_isErr_of_channelWord h n)

include hn

theorem stat_channelWord : channelWord (0xA00118 + 0x80 * n) := ⟨by omega, by omega⟩

theorem loseChannel_shows (h : chValid s n = true) :
    chValid (loseChannel n s) n = false ∧ rd (loseChannel n s) (POS_CH_STAT_REF n) = 0 := by
  have k (r : RF) (hr : r.addr = 0xA00118 + 0x80 * n) : rd (loseChannel n s) r =
      rd (s |> wr (POS_CH_STAT_VALID n) 0 |> wr (POS_CH_STAT_REF n) 0) r :=
    ((RegsKept.of_evolves (P := fun _ => False) (loseChannel_evolves h) (by decide)).rd id).trans
      (rd_showLost (hr ▸ stat_channelWord hn))
  refine ⟨?_, ?_⟩
  · rw [chValid, isSet, k _ rfl, rd_wr_bits (by simp) (by simp) (.inl (by simp)), rd_wr_same (by simp) (by simp)]
    rfl
  · rw [k _ rfl, rd_wr_same (by simp) (by simp)]
    rfl

theorem chValid_loseChannel : chValid (loseChannel n s) n = false := by
  cases h : chValid s n with
  | false => rw [loseChannel_invalid h, h]
  | true => exact (loseChannel_shows hn h).1

omit hn in
/-- The other words of the channels stand. -/
theorem rd_loseChannel {r : RF} (h : channelWord r.addr) (hne : r.addr ≠ 0xA00118 + 0x80 * n) : rd (loseChannel n s) r = rd s r := by
  cases hv : chValid s n with
  | false => rw [loseChannel_invalid hv]
  | true =>
    rw [(RegsKept.of_evolves (P := fun _ => False) (loseChannel_evolves hv) (by decide)).rd id, rd_showLost h,
      rd_wr_addr (Ne.symm hne), rd_wr_addr (Ne.symm hne)]

omit hn in
/-- An event bit of the unit that is set stays set. -/
theorem rd_loseChannel_of_set {r : RF} (hr : oneBit r) (ha : r.addr = 0xA00020) (hs : rd s r = 1) : rd (loseChannel n s) r = 1 := by
  cases hv : chValid s n with
  | false => rwa [loseChannel_invalid hv]
  | true =>
    rw [(RegsKept.of_evolves (P := fun _ => False) (loseChannel_evolves hv) (by decide)).rd id]
    refine rd_recordError_of_set (lostError_bits n) (posEvt_onlySet hr ha) (.inl (by rw [ha, lostError_base]; decide)) ?_
    rw [rd_wr_addr (by dsimp only; omega), rd_wr_addr (by dsimp only; omega), hs]

omit hn in
/-- CH_LOST is set at once where no packet of queue 2 stands open (R270). -/
theorem rd_loseChannel_event (h : chValid s n = true) (hq : qEnabled s 2 = false ∨ shut s 2) :
    rd (loseChannel n s) POS_EVT_CH_LOST = 1 := by
  rw [(RegsKept.of_evolves (P := fun _ => False) (loseChannel_evolves h) (by decide)).rd id]
  let u := s |> wr (POS_CH_STAT_VALID n) 0 |> wr (POS_CH_STAT_REF n) 0
  have hu : qEnabled u 2 = false ∨ shut u 2 := by
    rwa [qEnabled_congr (t := u) (s := s) rfl rfl, shut_of_queues (t := u) (s := s) rfl]
  exact rd_recordError_announced (e := lostError n) hu (lostError_bits n) (by simp [lostError, posErr, ErrInfo.setting])
    (by simp [isQmx])

end

/-! ## Counted faults (R331, R332) -/

/-- A fault of a channel is counted in a field of POS_CH_ERRCNT and sets its event bit. -/
def countFault (n : Nat) (x : ChSt) (cnt evt : RF) (s : State) : State := s |> setCh n x |> inc cnt |> wr evt 1

section
variable {s : State} {n : Nat} (x : ChSt) {cnt evt : RF} (hc : cnt.addr = 0xA00124 + 0x80 * n)
  (he : evt.addr = 0xA00020)
include hc he

theorem countFault_kept {r : RF} (h : channelWord r.addr) (hne : r.addr ≠ 0xA00124 + 0x80 * n) :
    rd (countFault n x cnt evt s) r = rd s r := by
  obtain ⟨hlo, -⟩ := h
  rw [countFault, rd_wr_addr (by omega), inc, addSat, rd_wr_addr (by omega), rd_setCh]

theorem countFault_chCount (hn : n < 4) : chCount (countFault n x cnt evt s) n = chCount s n :=
  countFault_kept x hc he ⟨by dsimp only; omega, by dsimp only; omega⟩ (by dsimp only; omega)

theorem countFault_chValid (hn : n < 4) : chValid (countFault n x cnt evt s) n = chValid s n :=
  congrArg (· != 0) (countFault_kept x hc he (stat_channelWord hn) (by dsimp only; omega))

theorem countFault_counts (hlo : cnt.lo ≤ cnt.hi) (h32 : cnt.hi < 32) :
    rd (countFault n x cnt evt s) cnt = satAdd (cnt.hi + 1 - cnt.lo) (rd s cnt) 1 := by
  rw [countFault, rd_wr_addr (by omega), rd_inc_same hlo h32, rd_setCh]

/-- What a counted fault shows, whether it loses the channel or not. -/
theorem countFault_shows (hn : n < 4) (hlo : cnt.lo ≤ cnt.hi) (h32 : cnt.hi < 32) (hbit : oneBit evt) (lost : Prop) [Decidable lost] :
    let u := countFault n x cnt evt s
    let t := if lost then loseChannel n u else u
    chCount t n = chCount s n ∧ rd t evt = 1 ∧ rd t cnt = satAdd (cnt.hi + 1 - cnt.lo) (rd s cnt) 1 ∧
      (lost → chValid t n = false) ∧ (¬ lost → chValid t n = chValid s n ∧ chSt t n = x) := by
  intro u t
  have hevt : rd u evt = 1 := rd_set_oneBit hbit _
  have hcnt := countFault_counts (s := s) x hc he hlo h32
  by_cases h : lost
  · have e : t = loseChannel n u := if_pos h
    have hstat (r : RF) (hr : r.addr = 0xA00114 + 0x80 * n ∨ r.addr = 0xA00124 + 0x80 * n) : rd t r = rd u r :=
      e ▸ rd_loseChannel ⟨by omega, by omega⟩ (by omega)
    refine ⟨(hstat _ (.inl rfl)).trans (countFault_chCount x hc he hn), ?_, (hstat _ (.inr hc)).trans hcnt, fun _ => ?_,
      fun hk => absurd h hk⟩
    · exact e ▸ rd_loseChannel_of_set hbit he hevt
    · exact e ▸ chValid_loseChannel hn
  · have e : t = u := if_neg h
    rw [e]
    exact ⟨countFault_chCount x hc he hn, hevt, hcnt, fun hk => absurd hk h, fun _ => ⟨countFault_chValid x hc he hn, by
      simp [u, countFault]⟩⟩

end

/-! ## Sin/cos samples (R331) -/

/-- The squared amplitude lies outside AMP_MIN to AMP_MAX. -/
def amplitudeFault (s : State) (n : Nat) (r2 : Int) : Prop :=
  r2 < (posCfg s (POS_CH_AMP_AMP_MIN n) : Int) ^ 2 ∨ (posCfg s (POS_CH_AMP_AMP_MAX n) : Int) ^ 2 < r2

theorem atan2u16_lt (a b : Int) : atan2u16 a b < 65536 := by
  unfold atan2u16 unsgn
  extract_lets z
  have := Int.emod_lt_of_pos ((z + 2 ^ 43) / 2 ^ 44) (show (0 : Int) < 2 ^ 16 by decide)
  omega

/-- An angle that is an LSB below, at or an LSB above another (log entry 3). -/
theorem angle_near {x k : Nat} (hx : x < 65536) (hk : k < 3) :
    (x + 65535 + k) % 65536 = x ∨ (x + 65535 + k) % 65536 = (x + 1) % 65536 ∨ ((x + 65535 + k) % 65536 + 1) % 65536 = x := by
  omega

section
variable {s : State} {n : Nat} {cs cc : Nat} {a b : Int} (ha : a = ((cs % 4096 : Nat) : Int) - posCfg s (POS_CH_SC_OFF_S n))
  (hb : b = ((cc % 4096 : Nat) : Int) - posCfg s (POS_CH_SC_OFF_C n))

theorem amplitudeFault_iff : amplitudeFault s n (a * a + b * b) ↔
    (a * a + b * b).toNat < posCfg s (POS_CH_AMP_AMP_MIN n) ^ 2 ∨ posCfg s (POS_CH_AMP_AMP_MAX n) ^ 2 < (a * a + b * b).toNat := by
  have h0 : 0 ≤ a * a + b * b := add_nonneg (mul_self_nonneg a) (mul_self_nonneg b)
  rw [amplitudeFault, Int.toNat_lt h0, Int.lt_toNat]
  push_cast
  rfl

include ha hb

theorem doSincosSample_fault (h : amplitudeFault s n (a * a + b * b)) : doSincosSample n cs cc s = ampFault n s := by
  rw [amplitudeFault_iff] at h
  subst ha hb
  exact if_pos h

theorem doSincosSample_angle (h : ¬ amplitudeFault s n (a * a + b * b)) : doSincosSample n cs cc s =
    angleStep n ((atan2u16 a b + 65535 + Config.freeWord s.freeCount % 3) % 65536) { s with freeCount := s.freeCount + 1 } := by
  rw [amplitudeFault_iff] at h
  subst ha hb
  exact if_neg h

end

theorem ampFault_eq (n : Nat) (s : State) : ampFault n s =
    let u := countFault n { chSt s n with ampRun := (chSt s n).ampRun + 1 } (POS_CH_ERRCNT_AMP n) POS_EVT_AMP_ERR s
    if 8 ≤ (chSt s n).ampRun + 1 then loseChannel n u else u := rfl

/-! ## A counted step (R329, R335) -/

/-- The compares' event and configuration words. -/
def compareWord (a : Nat) : Prop := a = POS_CMP_EVT_FIRED.addr ∨ ∃ i, a = (POS_CMP_CFG_ALL i).addr

theorem testCompare_kept (n c : Nat) (d : Int) (s : State) (i : Nat) : RegsKept compareWord s (testCompare n c d s i) := by
  unfold testCompare
  split
  · extract_lets u
    have hu : RegsKept compareWord s u :=
      ((RegsKept.refl compareWord s).wr (r := ⟨POS_CMP_EVT_FIRED.addr, i, i⟩) (.inl rfl)).wr (r := POS_CMP_CFG_ARM i) (.inr ⟨i, rfl⟩)
    split
    · exact hu.trans (.of_evolves (askWake_ev (H := [.mnt]) rfl (ev_refl _ u) 3) (by decide))
    · exact hu
  · exact .refl _ s

theorem turnCompare_kept (n : Nat) (s : State) (i : Nat) : RegsKept compareWord s (turnCompare n s i) := by
  unfold turnCompare
  split
  · exact (RegsKept.refl compareWord s).wr (r := POS_CMP_CFG_BEHIND i) (.inr ⟨i, rfl⟩)
  · exact .refl _ s

theorem pruneCh_fine (n : Nat) (s : State) : (chSt (pruneCh n s) n).fine = (chSt s n).fine := by simp [pruneCh]

/-- The compares of a step, those of a turn, and what the channel then forgets. -/
def afterStep (n : Nat) (d : Int) (c : Nat) (turn : Bool) (s : State) : State :=
  let s := (List.range 8).foldl (testCompare n c d) s
  pruneCh n (if turn then (List.range 8).foldl (turnCompare n) s else s)

theorem afterStep_leaves (n : Nat) (d : Int) (c : Nat) (turn : Bool) (s : State) :
    RegsKept compareWord s (afterStep n d c turn s) ∧ (chSt (afterStep n d c turn s) n).fine = (chSt s n).fine := by
  unfold afterStep
  extract_lets u
  have hu : RegsKept compareWord s u := RegsKept.foldl (testCompare_kept n c d) _ s
  have hev : Evolves [.regs, .mnt] s u := ev_foldl (ev_refl _ s) fun _ i h => testCompare_ev rfl h n c d i
  refine ⟨RegsKept.trans ?_ (.of_evolves (pruneCh_ev (H := [.mot]) rfl (ev_refl _ _) n) (by decide)), ?_⟩
  · split
    · exact hu.trans (RegsKept.foldl (turnCompare_kept n) _ u)
    · exact hu
  · have hmot : (if turn then (List.range 8).foldl (turnCompare n) u else u).mot = s.mot := by
      have k : Evolves [.regs, .mnt] s (if turn then (List.range 8).foldl (turnCompare n) u else u) :=
        ev_ite (ev_foldl hev fun _ i h => turnCompare_ev rfl h n i) hev
      exact k.same (x := .mot) (by decide)
    rw [pruneCh_fine, chSt_congr hmot]

/-- A step of a valid channel moves the count, modulo 2^32, and leaves the last fine value. -/
theorem countStep_counts {s : State} {n : Nat} (hv : chValid s n = true) (hk : (chSt s n).skip = false) (d : Int) (t : Nat) :
    (chCount (countStep n d t s) n : Int) = (chCount s n + d) % 2 ^ 32 ∧ (chSt (countStep n d t s) n).fine = (chSt s n).fine := by
  have hcount := chCount_lt s n
  by_cases hd : d = 0
  · have e : countStep n d t s = s := if_pos (.inr hd)
    rw [e, hd]
    exact ⟨by omega, rfl⟩
  · unfold countStep
    extract_lets x c new dir turn s1 s2 s3 s4 s5
    rw [if_neg (by simp [hv, hd]), if_neg (by simp [x, hk])]
    obtain ⟨hregs, hfine⟩ := afterStep_leaves n d c turn s3
    change (chCount (afterStep n d c turn s3) n : Int) = _ ∧ (chSt (afterStep n d c turn s3) n).fine = _
    refine ⟨?_, ?_⟩
    · have hnew : rd s3 (POS_CH_CNT_COUNT n) = new % 2 ^ 32 := by
        rw [rd_setCh, rd_wr_addr (by simp), rd_wr_addr (by simp), rd_wr_same (by simp) (by simp)]
        rfl
      rw [chCount, hregs.rd (by rintro (h | ⟨i, h⟩) <;> dsimp only at h <;> omega), hnew]
      simp only [new, unsgn, c]
      omega
    · rw [hfine]
      simp [s3, x]

/-! ## SENT messages (R332) -/

theorem handSnapshot_chans (x : Mid) (s : State) : (handSnapshot x s).mot.chans = s.mot.chans := by
  unfold handSnapshot
  dsimp only
  split_ifs <;> rfl

theorem finishMids_chans (s : State) : (finishMids s).mot.chans = s.mot.chans :=
  List.foldlRecOn _ _ (motive := fun u => u.mot.chans = s.mot.chans) rfl fun u hu x _ => (handSnapshot_chans x u).trans hu

theorem chSt_finishMids (s : State) (n : Nat) : chSt (finishMids s) n = chSt s n := by rw [chSt, finishMids_chans, ← chSt]

theorem rd_finishMids (s : State) (r : RF) : rd (finishMids s) r = rd s r :=
  (RegsKept.of_evolves (P := fun _ => False) (finishMids_ev (H := [.frames, .time, .mot]) rfl (ev_refl _ s)) (by decide)).rd id

/-- The position in a message: WIDTH nibbles from FIRST. -/
def sentValue (s : State) (n : Nat) (nibs : List Nat) : Nat :=
  ((nibs.drop (posCfg s (POS_CH_SENT_FIRST n))).take (posCfg s (POS_CH_SENT_WIDTH n))).foldl (fun a b => 16 * a + b) 0

section
variable {s : State} {n tick : Nat} {nibs : List Nat} {crc : Nat} {pause bad : Bool} (ago : Nat)

theorem doSentMessage_bad (h : bad = true ∨ sentGood s n tick nibs crc pause = false) :
    doSentMessage n tick nibs crc pause bad ago s =
    let u := countFault n { chSt s n with badRun := (chSt s n).badRun + 1, tick } (POS_CH_ERRCNT_SENT n) POS_EVT_SENT_ERR s
    if 4 ≤ (chSt s n).badRun + 1 then loseChannel n u else u :=
  if_pos (by simpa using h)

/-- The channel as a good message leaves it, its step not yet counted. -/
def sentTaken (n tick v t : Nat) (s : State) : State := setCh n { chSt s n with badRun := 0, tick, fine := some v, msgAt := t } s

theorem doSentMessage_good (hb : bad = false) (h : sentGood s n tick nibs crc pause = true) :
    doSentMessage n tick nibs crc pause bad ago s =
      let v := sentValue s n nibs
      let w := posCfg s (POS_CH_SENT_WIDTH n)
      let u := sentTaken n tick v (s.now - ago) s
      finishMids (match (chSt s n).fine with
        | some old => countStep n (invertDir s n (sgn (4 * w) (v + 2 ^ (4 * w) - old))) (s.now - ago) u
        | none => u) :=
  if_neg (by simp [hb, h])

/-- A good message takes its value; unless it is the first, the signed difference to the last one counts. -/
theorem doSentMessage_counts (hb : bad = false) (h : sentGood s n tick nibs crc pause = true) (hv : chValid s n = true)
    (hk : (chSt s n).skip = false) : let t := doSentMessage n tick nibs crc pause bad ago s
    let v := sentValue s n nibs
    let w := posCfg s (POS_CH_SENT_WIDTH n)
    (chSt t n).fine = some v ∧ ((chSt s n).fine = none → chCount t n = chCount s n) ∧
      ∀ old, (chSt s n).fine = some old →
        (chCount t n : Int) = (chCount s n + invertDir s n (sgn (4 * w) (v + 2 ^ (4 * w) - old))) % 2 ^ 32 := by
  intro t v w
  have e : t = _ := doSentMessage_good ago hb h
  rw [e]
  have hfine : (chSt (sentTaken n tick v (s.now - ago) s) n).fine = some v := by simp [sentTaken]
  simp only [chSt_finishMids, chCount, rd_finishMids]
  cases hold : (chSt s n).fine with
  | none => exact ⟨hfine, fun _ => rfl, fun old ho => absurd ho (by simp)⟩
  | some old =>
    obtain ⟨hcount, hkeep⟩ := countStep_counts (s := sentTaken n tick v (s.now - ago) s) hv (by simpa [sentTaken] using hk)
      (invertDir s n (sgn (4 * w) (v + 2 ^ (4 * w) - old))) (s.now - ago)
    exact ⟨hkeep.trans hfine, fun ho => absurd ho (by simp), fun old' ho => Option.some.inj ho ▸ hcount⟩

end

/-! ## Regained validity (R333, R334, R340) -/

theorem setCh_kept (P : Nat → Prop) (n : Nat) (x : ChSt) (s : State) : RegsKept P s (setCh n x s) := .of_eq rfl rfl

theorem noteUpdate_kept (n : Nat) (s : State) : RegsKept (· = (POS_CH_V_V n).addr) s (noteUpdate n s) :=
  ((setCh_kept (· = _) n _ s).wr (r := POS_CH_V_V n) rfl).trans
    (.of_evolves (pruneCh_ev (H := [.mot]) rfl (ev_refl _ _) n) (by decide))

theorem restObserver_kept (n : Nat) (s : State) : RegsKept (· = (POS_CH_V_V n).addr) s (restObserver n s) :=
  (setCh_kept _ n _ s).trans (noteUpdate_kept n _)

section
variable {s : State} {n : Nat} (h : chValid s n = false)

/-- VALID rises, and REF unless an index sets it. -/
def showValid (n : Nat) (s : State) : State :=
  s |> wr (POS_CH_STAT_VALID n) 1 |> wr (POS_CH_STAT_REF n) (refAtValid s n) |> wr POS_EVT_CH_VALID 1

include h in
theorem doChannelRevalid_kept : RegsKept (· = (POS_CH_V_V n).addr) (showValid n s) (doChannelRevalid n s) := by
  rw [doChannelRevalid, if_neg (by simp [h])]
  let u := setCh n { chSt (showValid n s) n with skip := true } (showValid n s)
  change RegsKept _ _ (restObserver n (noteValid n (showValid n s).now u))
  exact ((setCh_kept _ n _ _).trans (.of_evolves (noteValid_ev (H := [.mot]) rfl (ev_refl _ u) n _) (by decide))).trans
    (restObserver_kept n _)

theorem refAtValid_eq : refAtValid s n = if chType s n = 1 ∧ posCfg s (POS_CH_CFG_Z_EN n) = 1 then 0 else 1 := by
  unfold refAtValid
  split
  · next hz => simp [hz, bit]
  · next hz =>
    have : (chType s n == 1 && posCfg s (POS_CH_CFG_Z_EN n) == 1) = false := by simpa using hz
    rw [this]
    rfl

theorem showValid_shows : chValid (showValid n s) n = true ∧ rd (showValid n s) POS_EVT_CH_VALID = 1 ∧
    rd (showValid n s) (POS_CH_STAT_REF n) = (if chType s n = 1 ∧ posCfg s (POS_CH_CFG_Z_EN n) = 1 then 0 else 1) ∧
    chCount (showValid n s) n = chCount s n := by
  refine ⟨?_, rd_set_oneBit (by simp [oneBit]) _, ?_, ?_⟩
  · rw [chValid, showValid, isSet, rd_wr_addr (by dsimp only; omega), rd_wr_bits (by simp) (by simp) (.inl (by simp)),
      rd_set_oneBit (by simp [oneBit])]
    rfl
  · rw [showValid, rd_wr_addr (by dsimp only; omega), rd_wr_same (by simp) (by simp), refAtValid_eq]
    split <;> rfl
  · rw [chCount, showValid, rd_wr_addr (by dsimp only; omega), rd_wr_addr (by dsimp only; omega), rd_wr_addr (by dsimp only; omega),
      ← chCount]

include h in
theorem doChannelRevalid_shows : let t := doChannelRevalid n s
    chValid t n = true ∧ rd t POS_EVT_CH_VALID = 1 ∧
    rd t (POS_CH_STAT_REF n) = (if chType s n = 1 ∧ posCfg s (POS_CH_CFG_Z_EN n) = 1 then 0 else 1) ∧ chCount t n = chCount s n := by
  intro t
  have hrd {r : RF} (hne : r.addr ≠ 0xA00120 + 0x80 * n) : rd t r = rd (showValid n s) r := (doChannelRevalid_kept h).rd hne
  obtain ⟨hvalid, hevt, href, hcount⟩ := showValid_shows (s := s) (n := n)
  refine ⟨?_, (hrd (by dsimp only; omega)).trans hevt, (hrd (by dsimp only; omega)).trans href,
    (hrd (by dsimp only; omega)).trans hcount⟩
  rw [chValid, isSet, hrd (by dsimp only; omega)]
  exact hvalid

end

/-! ## O46 -/

/-- Settles O46, command by command. -/
theorem channelSamples : Obligations.ChannelSamples := by
  intro s n hp hn
  have sincos (h : chType s n = 3) : chIs s n [3] = true := chIs_of_type hp hn h (by decide)
  have sent (h : chType s n = 4) : chIs s n [4] = true := chIs_of_type hp hn h (by decide)
  refine ⟨fun a b r2 ht cs cc ha hb hr => ⟨fun h => ?_, fun hmin hmax => ?_⟩, fun tick nibs crc pause bad ago ht => ⟨fun h => ?_,
    fun hb h hv hk v hval => ?_⟩, fun ht hv => ?_, fun ht hv => ?_, fun h1 h4 hv => ?_, fun hv => ?_⟩
  · subst hr
    obtain ⟨hcount, hevt, hcnt, hlost, hkept⟩ := countFault_shows (s := s) { chSt s n with ampRun := (chSt s n).ampRun + 1 }
      (cnt := POS_CH_ERRCNT_AMP n) (evt := POS_EVT_AMP_ERR) rfl rfl hn (by simp) (by simp) (by simp [oneBit])
      (8 ≤ (chSt s n).ampRun + 1)
    refine ⟨_, by rw [exec_sincosSample, execSincosSample, if_pos (sincos ht), doSincosSample_fault ha hb h, ampFault_eq], hcount,
      hevt, hcnt, fun h7 => hlost (by omega), fun h7 => ?_⟩
    obtain ⟨hvalid, hch⟩ := hkept (by omega)
    exact ⟨hvalid, by rw [hch]⟩
  · subst hr
    have hok : ¬ amplitudeFault s n (a * a + b * b) := fun h => h.elim (not_lt.mpr hmin) (not_lt.mpr hmax)
    exact ⟨_, angle_near (atan2u16_lt a b) (Nat.mod_lt (Config.freeWord s.freeCount) (by decide)),
      by rw [exec_sincosSample, execSincosSample, if_pos (sincos ht), doSincosSample_angle ha hb hok]⟩
  · obtain ⟨hcount, hevt, hcnt, hlost, hkept⟩ := countFault_shows (s := s)
      { chSt s n with badRun := (chSt s n).badRun + 1, tick }
      (cnt := POS_CH_ERRCNT_SENT n) (evt := POS_EVT_SENT_ERR) rfl rfl hn (by simp) (by simp) (by simp [oneBit])
      (4 ≤ (chSt s n).badRun + 1)
    exact ⟨_, by rw [exec_sentMessage, execSentMessage, if_pos (sent ht), doSentMessage_bad ago h], hcount, hevt, hcnt,
      fun h3 => hlost (by omega), fun h3 => (hkept (by omega)).1⟩
  · obtain rfl : v = sentValue s n nibs := hval
    exact ⟨_, by rw [exec_sentMessage, execSentMessage, if_pos (sent ht)], doSentMessage_counts ago hb h hv hk⟩
  · obtain ⟨hinvalid, href⟩ := loseChannel_shows hn hv
    exact ⟨_, by rw [exec_sentTimeout, execSentTimeout, if_pos (sent ht)], hinvalid, href,
      rd_loseChannel ⟨by dsimp only; omega, by dsimp only; omega⟩ (by dsimp only; omega), rd_loseChannel_event hv⟩
  · rw [exec_sentTimeout, execSentTimeout, if_pos (sent ht), loseChannel_invalid hv]
  · have hty : chIs s n [1, 2, 3, 4] = true := chIs_of_type hp hn rfl (by simp; omega)
    obtain ⟨hvalid, hevt, href, hcount⟩ := doChannelRevalid_shows hv
    exact ⟨_, by rw [exec_channelRevalid, execChannelRevalid, if_pos hty], hvalid, hevt, href, hcount, fun x hx hx' =>
      (doChannelRevalid_ev (H := [.regs, .mot]) rfl (ev_refl _ s) n).same (by simp [hx, hx'])⟩
  · rw [exec_channelRevalid, execChannelRevalid, doChannelRevalid, if_pos hv, ite_self]

end Sys2Proof.Machine

/-! PROOFS. The sources of the event controller: active states, the most urgent source, the running priority (R289, R290). -/

namespace Sys2Proof.Machine
open Sys2Proof

/-! ## One bit of a bitmap word -/

/-- Writing one bit of a 32-bit field sets that bit and no other. -/
theorem hasBit_rd_wr_bit (s : State) {a i j : Nat} (hi : i < 32) (hj : j < 32) (b : Bool) :
    hasBit (rd (wr ⟨a, i, i⟩ (bit b) s) ⟨a, 31, 0⟩) j = if j = i then b else hasBit (rd s ⟨a, 31, 0⟩) j := by
  simp only [hasBit, rd, reg_wr, if_true, testBit_fld, testBit_setFld _ i i _ _ le_rfl]
  rcases lt_trichotomy j i with h | rfl | h
  · simp [hj, h.ne, Nat.not_lt.mpr h.le, Nat.not_le.mpr h]
  · cases b <;> simp [hj, bit]
  · simp [hj, h.ne', h]

theorem activeAt_setActive (s : State) (t src x : Nat) (b : Bool) :
    activeAt (setActive t src b s) t x = if x = src then b else activeAt s t x := by
  by_cases hw : x / 32 = src / 32
  · have h := hasBit_rd_wr_bit s (a := (EVC_T_ACTIVE_ACTIVE t (src / 32)).addr) (Nat.mod_lt src (by decide))
      (Nat.mod_lt x (by decide)) b
    have hx : x % 32 = src % 32 ↔ x = src := by omega
    simpa only [activeAt, setActive, hw, hx] using h
  · have hx : x ≠ src := fun h => hw (h ▸ rfl)
    rw [if_neg hx, activeAt, setActive, rd_wr_addr (by dsimp only; omega), activeAt]

/-! ## Lists of sources in rising order -/

/-- The set bits of word `w` of a bitmap, whose value is `v`, as source numbers. -/
def wordSources (v w : Nat) : List Nat := if v = 0 then [] else ((List.range 32).filter (hasBit v)).map (· + 32 * w)

theorem sourcesOf_eq (g : Nat → Nat) : sourcesOf g = (List.range 33).flatMap fun w => wordSources (g w) w := rfl

theorem mem_wordSources {v w src : Nat} : src ∈ wordSources v w ↔ src / 32 = w ∧ hasBit v (src % 32) = true := by
  unfold wordSources
  split
  · next h => simp [h, hasBit]
  · simp only [List.mem_map, List.mem_filter, List.mem_range]
    constructor
    · rintro ⟨i, ⟨hi, hb⟩, rfl⟩
      exact ⟨by omega, by rwa [show (i + 32 * w) % 32 = i by omega]⟩
    · rintro ⟨rfl, hb⟩
      exact ⟨src % 32, ⟨Nat.mod_lt _ (by decide), hb⟩, by omega⟩

theorem wordSources_rising (v w : Nat) : (wordSources v w).Pairwise (· < ·) := by
  unfold wordSources
  split
  · exact .nil
  · exact (List.pairwise_lt_range.filter _).map _ fun _ _ h => Nat.add_lt_add_right h _

theorem mem_sourcesOf {g : Nat → Nat} {src : Nat} :
    src ∈ sourcesOf g ↔ src < 1056 ∧ hasBit (g (src / 32)) (src % 32) = true := by
  simp only [sourcesOf_eq, List.mem_flatMap, List.mem_range, mem_wordSources]
  constructor
  · rintro ⟨w, hw, rfl, hb⟩
    exact ⟨by omega, hb⟩
  · rintro ⟨hs, hb⟩
    exact ⟨src / 32, by omega, rfl, hb⟩

theorem sourcesOf_rising (g : Nat → Nat) : (sourcesOf g).Pairwise (· < ·) := by
  rw [sourcesOf_eq]
  refine List.pairwise_flatMap.mpr ⟨fun w _ => wordSources_rising _ w, List.pairwise_lt_range.imp fun hlt x hx y hy => ?_⟩
  have hx' := (mem_wordSources.mp hx).1
  have hy' := (mem_wordSources.mp hy).1
  omega

theorem mem_activeList {s : State} {t src : Nat} : src ∈ activeList s t ↔ src < 1056 ∧ activeAt s t src = true := mem_sourcesOf

theorem claimable_rising (s : State) (t : Nat) : (claimable s t).Pairwise (· < ·) := ((sourcesOf_rising _).filter _).filter _

/-! ## The most urgent source (R290) -/

theorem mostUrgent_eq_none {s : State} {l : List Nat} : mostUrgent s l = none ↔ l = [] := by
  cases l with
  | nil => simp [mostUrgent]
  | cons a l =>
    rw [mostUrgent]
    split
    · simp
    · split <;> simp

/-- The most urgent of a rising list is of the list; any other has a lower priority, or an equal one and a greater number. -/
theorem mostUrgent_spec {s : State} {src : Nat} {l : List Nat} (hl : l.Pairwise (· < ·)) (h : mostUrgent s l = some src) :
    src ∈ l ∧ ∀ x ∈ l, prioOf s x < prioOf s src ∨ prioOf s x = prioOf s src ∧ src ≤ x := by
  induction l generalizing src with
  | nil => cases h
  | cons a l ih =>
    obtain ⟨ha, hl⟩ := List.pairwise_cons.mp hl
    rw [mostUrgent] at h
    split at h
    · next hnone =>
      obtain rfl : a = src := Option.some.inj h
      rw [mostUrgent_eq_none.mp hnone]
      simp
    · next y hy =>
      obtain ⟨hmem, hbest⟩ := ih hl hy
      split at h
      · next hlt =>
        obtain rfl : y = src := Option.some.inj h
        exact ⟨List.mem_cons_of_mem _ hmem, List.forall_mem_cons.mpr ⟨.inl hlt, hbest⟩⟩
      · next hge =>
        obtain rfl : a = src := Option.some.inj h
        refine ⟨List.mem_cons_self, List.forall_mem_cons.mpr ⟨.inr ⟨rfl, le_rfl⟩, fun x hx => ?_⟩⟩
        have hlt := ha x hx
        have hle := hbest x hx
        omega

/-! ## The running priority (R290) -/

theorem max?_eq_maxOf {l : List Nat} (h : l ≠ []) : l.max? = some (maxOf l) := by
  cases l with
  | nil => exact absurd rfl h
  | cons a l => rw [List.max?_cons', maxOf, List.foldl_cons, Nat.zero_max]

theorem runPre_eq_none {s : State} {t : Nat} : runPre s t = none ↔ activeList s t = [] := by
  unfold runPre
  split
  · next h => simp [h]
  · next h => simpa using h

/-- With nothing active nothing runs. -/
theorem runPre_none {s : State} {t : Nat} (h : ∀ x, x < 1056 → activeAt s t x = false) : runPre s t = none := by
  refine runPre_eq_none.mpr (List.eq_nil_iff_forall_not_mem.mpr fun x hx => ?_)
  obtain ⟨hlt, ha⟩ := mem_activeList.mp hx
  simp [h x hlt] at ha

/-- What runs at a target is the largest pre-emption level of its active sources. -/
theorem runPre_eq_some {s : State} {t r : Nat} (h : runPre s t = some r) :
    (∃ x ∈ activeList s t, preOf s t (prioOf s x) = r) ∧ ∀ x ∈ activeList s t, preOf s t (prioOf s x) ≤ r := by
  unfold runPre at h
  split at h
  · cases h
  · next hne =>
    have hmax := max?_eq_maxOf (l := (activeList s t).map fun x => preOf s t (prioOf s x)) (by simpa using hne)
    rw [h, List.max?_eq_some_iff] at hmax
    simpa using hmax

end Sys2Proof.Machine

/-! PROOFS. The notification of a target: NOTE_PRIO of the host targets, INT_N and the internal line (R296, R297, R428). -/

namespace Sys2Proof.Machine
open Sys2Proof

/-! ## A host target's NOTE_PRIO (R296) -/

section
variable {s : State} {t : Nat}

@[simp] theorem setNote_out (p b : Nat) (s : State) : (setNote p b s).out = s.out := by
  unfold setNote
  split <;> rfl

/-- NOTE_PRIO reads as what was set. -/
theorem notePrio_setNote (p b : Nat) (s : State) : rd (setNote p b s) (EVC_T_STAT_NOTE_PRIO p) = b % 256 := by
  have hset : rd (wr (EVC_T_STAT_NOTE_PRIO p) b s) (EVC_T_STAT_NOTE_PRIO p) = b % 256 := rd_wr_same (by simp) (by simp)
  unfold setNote
  split
  · rw [rd_wr_addr (by dsimp only; omega), rd_wr_addr (by dsimp only; omega), hset]
  · exact hset

theorem notify_host (ht : t < 2) : notify t s = notifyHost t s := if_pos ht

theorem notify_line (ht : 2 ≤ t) : notify t s = notifyLine t s := if_neg (Nat.not_lt.mpr ht)

/-- With GDIS 1 nothing stays notified. -/
theorem notePrio_notifyHost_gdis (h : isSet s (EVC_T_CTRL_GDIS t) = true) : rd (notifyHost t s) (EVC_T_STAT_NOTE_PRIO t) = 0 := by
  simp only [notifyHost, h, if_true]
  split
  · next hz => exact hz
  · exact notePrio_setNote t 0 s

section
variable {src : Nat} (hg : isSet s (EVC_T_CTRL_GDIS t) = false) (hm : mostUrgent s (notifiable s t) = some src)
include hg hm

theorem notifyHost_rise (h : rd s (EVC_T_STAT_NOTE_PRIO t) < prioOf s src) :
    notifyHost t s = (s |> wr (EVC_T_STAT_NOTE_PRIO t) (prioOf s src) |> issueMsix t src) := by
  simp [notifyHost, hg, hm, h]

theorem notifyHost_fall (h : prioOf s src < rd s (EVC_T_STAT_NOTE_PRIO t)) : notifyHost t s = setNote t (prioOf s src) s := by
  simp [notifyHost, hg, hm, h, h.le]

end

/-! ## The lines of targets 2 and 3 (R297, R428) -/

/-- A line's target counts a rise of its line before it drives it. -/
def countRise (t : Nat) (b : Bool) (s : State) : State := if b then inc (EVC_T_CNT_NOTIFY t) s else s

theorem rd_countRise {b : Bool} {r : RF} (h : (EVC_T_CNT_NOTIFY t).addr ≠ r.addr) : rd (countRise t b s) r = rd s r := by
  unfold countRise
  split
  · exact rd_wr_addr h
  · rfl

/-- INT_N of target 2: it is low as long as target 2 wants notice or the device is in its safe state. -/
theorem notifyLine_two : notifyLine 2 s =
    let u := countRise 2 (wantsNotify s 2 && !s.pins.intLow) s
    { u with pins := { u.pins with intLow := wantsNotify s 2 || isSafe s } } := by
  have hsafe (b : Bool) : isSafe (countRise 2 b s) = isSafe s := by rw [isSafe, isSet, rd_countRise (by decide)]; rfl
  rw [← hsafe]
  rfl

theorem notifyLine_three : notifyLine 3 s =
    let u := countRise 3 (wantsNotify s 3 && !s.pins.svcLine) s
    { u with pins := { u.pins with svcLine := wantsNotify s 3 } } := rfl

end

/-! ## O9 -/

/-- Settles O9: a host target by its NOTE_PRIO, the other two by the line they drive. -/
theorem hostNotification : Obligations.HostNotification := by
  refine ⟨fun s t ht => ?_, fun s => ?_⟩
  · rw [notify_host ht]
    refine ⟨fun hg src hm => ⟨notifyHost_rise hg hm, fun hlt => ?_⟩, notePrio_notifyHost_gdis⟩
    rw [notifyHost_fall hg hm hlt]
    exact ⟨rfl, setNote_out ..⟩
  · rw [notify_line le_rfl, notify_line (by decide), notifyLine_two, notifyLine_three]
    exact ⟨rfl, rfl, rd_countRise (by simp), rd_countRise (by simp)⟩

end Sys2Proof.Machine

/-! PROOFS. The commands at a target's window, level changes and pacers (R287, R289 to R295, R298). -/

namespace Sys2Proof.Machine
open Sys2Proof

/-! ## Claims (R291, R298) -/

section
variable {s : State} {t : Nat}

theorem claimWord_gdis (hg : isSet s (EVC_T_CTRL_GDIS t) = true) : claimWord t s = (inc (EVC_T_CNT_EMPTY t) s, 2 ^ 31) := if_pos hg

theorem claimWord_none (hg : isSet s (EVC_T_CTRL_GDIS t) = false) (hc : claimable s t = []) :
    claimWord t s = (inc (EVC_T_CNT_EMPTY t) s, bit (heldBack s t) * 2 ^ 30) := by
  simp [claimWord, hg, hc, mostUrgent]

theorem claimWord_some {src : Nat} (hg : isSet s (EVC_T_CTRL_GDIS t) = false) (hm : mostUrgent s (claimable s t) = some src) :
    claimWord t s =
      let s' := s |> setActive t src true |> startPacer (groupOf s src) t
      (s', bit (heldBack s' t) * 2 ^ 30 + bit (!(claimable s' t).isEmpty) * 2 ^ 29 + groupOf s src * 2 ^ 24
        + prioOf s src * 2 ^ 16 + src) := by
  simp [claimWord, hg, hm]

/-- A claim by the target's own originator acts and answers with the claim word. -/
theorem exec_claim_own {u : State} {v : Nat} (ht : t < 4) (hp : origPresent s.variant (targetOrig t) = true)
    (h : claimWord t s = (u, v)) : exec (.claim (targetOrig t) t) s =
      .next (u |> notify t |> emit (.readData (targetOrig t) (EVC_T_CLAIM_ALL t).addr v)) := by
  rw [exec_claim, execClaim, if_pos ht, doClaim, guardRead_own hp, h]

end

/-! ## O7 -/

/-- Settles O7: the claim word by GDIS and by what is claimable; the claimable sources stand in rising order. -/
theorem eventClaim : Obligations.EventClaim := fun _ _ ht hp =>
  ⟨fun hg _ hm => ⟨exec_claim_own ht hp (claimWord_some hg hm), mostUrgent_spec (claimable_rising _ _) hm⟩,
    fun hg => exec_claim_own ht hp (claimWord_gdis hg), fun hg hc => exec_claim_own ht hp (claimWord_none hg hc)⟩

/-! ## Levels, completions and pacers (R287, R292, R295) -/

section
variable {s : State} {t src : Nat}

theorem exec_sourceLevelChange_source (h0 : 0 < src) (h : src ≤ 0x400) :
    exec (.sourceLevelChange src) s = .next (updateSource src s) :=
  next_congr (if_neg (by omega))

theorem updateSource_same (h : sourceLevel s src = levelOf s src) : updateSource src s = s := if_pos h

theorem updateSource_falls (h : sourceLevel s src = false) (hl : levelOf s src = true) :
    updateSource src s = (s |> setLevel src false |> notifyAll) := by
  simp [updateSource, h, hl]

theorem updateSource_rises (h : sourceLevel s src = true) (hl : levelOf s src = false) :
    updateSource src s = (s |> setLevel src true |> alertOn src 0 |> alertOn src 1 |> notifyAll) := by
  simp [updateSource, h, hl]

/-- Every target's own originator may write. -/
@[simp] theorem writes_targetOrig (t : Nat) : writes (targetOrig t) = true := by
  unfold targetOrig
  split_ifs <;> rfl

theorem exec_complete_own (ht : t < 4) (hp : origPresent s.variant (targetOrig t) = true) (hsrc : src < 2048) :
    exec (.complete (targetOrig t) t src) s = .next (if activeAt s t src then s |> setActive t src false |> notify t
      else recordError (evcErr 0x02 src t) s) := by
  rw [exec_complete, execComplete, if_pos ht, Nat.mod_eq_of_lt hsrc, doComplete, guardOrig_own hp (writes_targetOrig t)]

theorem exec_pacerExpire_runs {g : Nat} (hg : g < 32) (ht : t < 4) (h : pacerRuns s g t = true) :
    exec (.pacerExpire g t) s = .next (s |> wr ⟨(EVC_PACER_RUN_RUN t).addr, g, g⟩ 0 |> notify t) :=
  next_congr ((if_pos ⟨hg, ht⟩).trans (if_pos h))

end

/-! ## O8 -/

/-- Settles O8, command by command. -/
theorem eventTargets : Obligations.EventTargets := by
  refine ⟨fun s src h0 h => ?_, fun s t ht hp hw => ⟨fun src hsrc => ?_, fun w v hlt => ?_, fun v => ⟨?_, ?_⟩⟩,
    fun s g t hg ht h => exec_pacerExpire_runs hg ht h⟩
  · rw [exec_sourceLevelChange_source h0 h]
    exact ⟨fun he => next_congr (updateSource_same he), fun hs hl => next_congr (updateSource_falls hs hl),
      fun hs hl => next_congr (updateSource_rises hs hl)⟩
  · rw [exec_complete_own ht hp hsrc]
    exact ⟨fun ha => next_congr (if_pos ha), fun ha => next_congr (if_neg (by simp [ha]))⟩
  · rw [exec_enableWrite, execEnableWrite, if_pos ⟨ht, hlt⟩, doEnableWrite, guardOrig_own hp hw]
  · rw [exec_gdis, execGdis, if_pos ht, doGdis, guardOrig_own hp hw]
  · rw [exec_split, execSplit, if_pos ht, doSplit, guardOrig_own hp hw]

/-! ## What a completion leaves (R292) -/

section
variable (s : State) (t src : Nat)

/-- The addresses of the active bitmaps are no registers of an event-controller error. -/
theorem not_isErr_evcErr_active {x : Nat} (ht : t < 4) (hx : x < 1056) (code : Nat) :
    ¬ isErr (evcErr code src t) (EVC_T_ACTIVE_ACTIVE t (x / 32)).addr := by
  have hbase : errBase (evcErr code src t).unit (evcErr code src t).inst = 0x26000 := rfl
  rintro ((hq | ⟨r, hr, -⟩) | ⟨-, h⟩)
  · unfold isQmx at hq
    dsimp only at hq
    omega
  · exact absurd hr List.not_mem_nil
  · rw [hbase] at h
    dsimp only at h
    omega

theorem activeAt_evcErr {x : Nat} (ht : t < 4) (hx : x < 1056) (code : Nat) :
    activeAt (recordError (evcErr code src t) s) t x = activeAt s t x := by
  rw [activeAt, rd_recordError (not_isErr_evcErr_active t src ht hx code), activeAt]

/-- Active states have no part in a source's pre-emption level. -/
theorem preOf_setActive (b : Bool) (x : Nat) :
    preOf (setActive t src b s) t (prioOf (setActive t src b s) x) = preOf s t (prioOf s x) := by
  rw [preOf, prioOf, setActive, rd_wr_addr (by dsimp only; omega), cfgI_wr (by dsimp only; omega), preOf, prioOf]

/-- The running priority after a change of one active bit is the largest level of the sources active then. -/
theorem runPre_setActive {r : Nat} (b : Bool) (h : runPre (setActive t src b s) t = some r) :
    (∃ x, x < 1056 ∧ activeAt (setActive t src b s) t x = true ∧ preOf s t (prioOf s x) = r) ∧
    ∀ x, x < 1056 → activeAt (setActive t src b s) t x = true → preOf s t (prioOf s x) ≤ r := by
  obtain ⟨⟨x, hx, he⟩, hle⟩ := runPre_eq_some h
  simp only [preOf_setActive, mem_activeList] at hx he hle
  exact ⟨⟨x, hx.1, hx.2, he⟩, fun y hy ha => hle y ⟨hy, ha⟩⟩

end

/-! ## O10 -/

/-- Settles O10: the bit of the source goes, or the error is recorded. -/
theorem completionEndsActive : Obligations.CompletionEndsActive := by
  intro s t src ht hsrc hp
  rw [exec_complete_own ht hp (by omega)]
  refine ⟨fun ha => ⟨setActive t src false s, next_congr (if_pos ha), fun x _ => ?_, runPre_none,
    fun r hr => runPre_setActive s t src false hr, fun a hne => reg_wr_ne hne.symm, fun x hx => ?_⟩, fun ha =>
    ⟨_, next_congr (if_neg (by simp [ha])), rfl, fun x hx => activeAt_evcErr s t src ht hx 0x02⟩⟩
  · by_cases he : x = src <;> simp [activeAt_setActive, he]
  · exact (setActive_ev (H := [.regs]) rfl (ev_refl _ s) t src false).same (by simpa using hx)

end Sys2Proof.Machine

/-! PROOFS. The configuration that an island has, across changes that leave its banks and epochs, and fields after a write (R11, R73,
R78, R79). -/

namespace Sys2Proof.Machine
open Sys2Proof

/-- The banks and the islands' epochs of two states are the same, and so is the register of the device's epochs. -/
def sameBanks (s t : State) : Prop :=
  reg t 0x10004 = reg s 0x10004 ∧ t.chip = s.chip ∧ t.cfgA = s.cfgA ∧ t.cfgO = s.cfgO ∧ t.islEpoch = s.islEpoch

theorem sameBanks.trans {s t u : State} (h : sameBanks s t) (k : sameBanks t u) : sameBanks s u :=
  ⟨k.1.trans h.1, k.2.1.trans h.2.1, k.2.2.1.trans h.2.2.1, k.2.2.2.1.trans h.2.2.2.1, k.2.2.2.2.trans h.2.2.2.2⟩

theorem sameBanks.cfgI {s t : State} (h : sameBanks s t) (i : Nat) (f : RF) : Machine.cfgI t i f = Machine.cfgI s i f :=
  cfgI_congr h.1 h.2.1 h.2.2.1 h.2.2.2.1 h.2.2.2.2 i f

theorem sameBanks.posCfg {s t : State} (h : sameBanks s t) (f : RF) : Machine.posCfg t f = Machine.posCfg s f := h.cfgI _ f

theorem sameBanks_wr {r : RF} (h : r.addr ≠ 0x10004) (v : Nat) (s : State) : sameBanks s (wr r v s) :=
  ⟨reg_wr_ne h, rfl, rfl, rfl, rfl⟩

theorem sameBanks_of_evolves {F : List StateField} {s t : State} (h : Evolves F s t) (hr : reg t 0x10004 = reg s 0x10004)
    (ha : .cfgA ∉ F := by decide) (ho : .cfgO ∉ F := by decide) (hi : .islEpoch ∉ F := by decide) : sameBanks s t :=
  ⟨hr, h.chip, h.same ha, h.same ho, h.same hi⟩

/-! ## Fields after a write -/

theorem RegsKept.reg {P : Nat → Prop} {s t : State} (h : RegsKept P s t) {a : Nat} (ha : ¬ P a) : Machine.reg t a = Machine.reg s a := h.2 a ha


/-- A field reads as the value written, where it fits. -/
theorem rd_wr_fits {s : State} {r : RF} {v : Nat} (h : r.lo ≤ r.hi) (h32 : r.hi < 32) (hv : v < 2 ^ (r.hi + 1 - r.lo)) :
    rd (wr r v s) r = v := (rd_wr_same h h32).trans (Nat.mod_eq_of_lt hv)

theorem rd_inc_other {s : State} {r f : RF} (h : r.lo ≤ r.hi) (h32 : f.hi < 32) (hd : r.addr ≠ f.addr ∨ f.hi < r.lo ∨ r.hi < f.lo) :
    rd (inc r s) f = rd s f := rd_wr_other h h32 hd

theorem posCfg_wr {r : RF} (h : r.addr ≠ 0x10004) (v : Nat) (s : State) (f : RF) : posCfg (wr r v s) f = posCfg s f :=
  (sameBanks_wr h v s).posCfg f

end Sys2Proof.Machine

/-! PROOFS. Steps of the machine, and reset (R307, R432, R445, R446). -/

namespace Sys2Proof.Machine
open Sys2Proof

/-! ## O58 -/

/-- Settles O58: the two cases of a step, and the footprint of a tick. -/
theorem stepTakesTheFrontCommand : Obligations.StepTakesTheFrontCommand :=
  ⟨step_cons, fun s h => ⟨tick s, step_idle h, (tick_evolves s).pending.trans h, fun _ hn ht => (tick_evolves s).same (by simp [hn, ht])⟩⟩

/-! ## Reset (R445) -/

/-- The end of a session leaves a flash operation in progress. -/
theorem endSession_op (s : State) : (endSession s).mnt.op = s.mnt.op := by
  unfold endSession
  split
  · extract_lets s1 s2
    have h1 : s1.mnt = s.mnt := by
      simp only [s1]
      split <;> rfl
    have h2 : (mntRecord mntEnd 0 0 s1).mnt = s1.mnt :=
      (mntRecord_ev (H := [.regs, .queues, .readPorts, .svcStats, .jnl, .jmem]) rfl (ev_refl _ s1) mntEnd 0 0).same (x := .mnt) (by decide)
    have h3 : s2.mnt = (mntRecord mntEnd 0 0 s1).mnt := by simp only [s2, wr_mnt]
    show s2.mnt.op = s.mnt.op
    rw [h3, h2, h1]
  · rfl

theorem brokenFlash_idle {s : State} (h : s.mnt.op = none) : brokenFlash s = s := by simp [brokenFlash, h]

/-- The state whose fuses, flash and journal memory a reset leaves: a session has ended where there was supply to journal it. -/
def beforeReset (vddLow : Bool) (s : State) : State := if vddLow then s else endSession s

theorem beforeReset_evolves (b : Bool) (s : State) :
    Evolves [.regs, .cfgB, .queues, .readPorts, .svcStats, .jnl, .mnt, .jmem] s (beforeReset b s) :=
  ev_ite (ev_refl _ s) (endSession_ev rfl (ev_refl _ s))

theorem beforeReset_op (b : Bool) (s : State) : (beforeReset b s).mnt.op = s.mnt.op := by
  unfold beforeReset
  split
  · rfl
  · exact endSession_op s

theorem beforeReset_jmem {b : Bool} {s : State} (h : b = true ∨ isSet s MNT_STAT_SESSION = false) : (beforeReset b s).jmem = s.jmem := by
  unfold beforeReset
  split
  · rfl
  · next hb => rw [endSession_without (h.resolve_left hb)]

theorem brokenFlash_evolves (s : State) : Evolves [.rollback, .flash, .freeCount] s (brokenFlash s) := brokenFlash_ev rfl (ev_refl _ s)

/-- RESET_N goes low: what waits, the chip and the journal memory stand, and with no flash operation the flash and the fuses too. -/
theorem resetNAssert_leaves (s : State) (b : Bool) : ∃ t, exec (.resetNAssert b) s = .next t ∧ t.pending = s.pending ∧ t.chip = s.chip ∧
    ((b = true ∨ isSet s MNT_STAT_SESSION = false) → t.jmem = s.jmem) ∧ (b = false → t.jmem = (endSession s).jmem) ∧
    (s.mnt.op = none → t.flash = s.flash ∧ t.rollback = s.rollback ∧ t.freeCount = s.freeCount) ∧
    t.regs = [] ∧ t.cfgA = [] ∧ t.cfgB = [] ∧ t.cfgO = [] ∧ t.liveA = [] ∧ t.liveB = [] ∧ t.frames = [] ∧ t.queues = [] ∧
    t.chans = [] ∧ t.islEpoch = [] ∧ t.ram = [] ∧ t.now = 0 ∧ t.ldr.phase = .held ∧ t.pins.safeN = false ∧
    t.pins.crystal = (s.pins.crystal && !b) := by
  have e1 := beforeReset_evolves b s
  have e2 := brokenFlash_evolves (beforeReset b s)
  have hj : (brokenFlash (beforeReset b s)).jmem = (beforeReset b s).jmem := e2.same (x := .jmem) (by decide)
  have hp : (brokenFlash (beforeReset b s)).pins = s.pins :=
    (e2.same (x := .pins) (by decide)).trans (e1.same (x := .pins) (by decide))
  refine ⟨doResetNAssert b s, rfl, e2.pending.trans e1.pending, e2.chip.trans e1.chip, fun h => hj.trans (beforeReset_jmem h),
    fun h => hj.trans (by subst h; rfl), fun h => ?_, rfl, rfl, rfl, rfl, rfl, rfl, rfl, rfl, rfl, rfl, rfl, rfl, rfl, rfl,
    congrArg (fun p : Pins => p.crystal && !b) hp⟩
  have hop : brokenFlash (beforeReset b s) = beforeReset b s := brokenFlash_idle ((beforeReset_op b s).trans h)
  exact ⟨(congrArg State.flash hop).trans (e1.same (x := .flash) (by decide)),
    (congrArg State.rollback hop).trans (e1.same (x := .rollback) (by decide)),
    (congrArg State.freeCount hop).trans (e1.same (x := .freeCount) (by decide))⟩

theorem doResetRelease_idle {s : State} (h : s.pins.crystal = false ∨ s.ldr.phase ≠ .held) (high : Bool) (a : Nat) :
    doResetRelease high a s = s := if_neg (by rcases h with h | h <;> simp [h])

/-- Settles O31: what reset leaves, what release begins, and the reset state itself. -/
theorem resetAndCrystal : Obligations.ResetAndCrystal :=
  ⟨resetNAssert_leaves, fun _ => rfl,
    fun _ high a => ⟨fun hp hc => next_congr (if_pos ⟨hp, hc⟩), fun h => next_congr (doResetRelease_idle h high a)⟩,
    Tests.witness_StepKeepsTheInvariant, rfl, rfl, rfl, rfl, rfl, rfl, rfl⟩

end Sys2Proof.Machine

/-! PROOFS. PWM channels (R308, R350, R352). -/

namespace Sys2Proof.Machine
open Sys2Proof

/-! ## An output and the state of its channel -/

section
variable (k : Nat) (on : Bool) (s : State)

theorem hasBit_drivePwm (j : Nat) : hasBit (drivePwm k on s).pins.pwm j = if j = k then on else hasBit s.pins.pwm j := testBit_putBit ..

theorem pwmOf_drivePwm (j : Nat) : pwmOf (drivePwm k on s) j = pwmOf s j := rfl

end

section
variable {s : State} {k stop : Nat}

/-- A period of mode 1 makes the output active for its share, and inactive where the share is 0 ns (R350). -/
theorem doPwmPeriodStart_follows (hm : posCfg s (PWM_CH_CFG_MODE k) = 1) {d : Nat}
    (hd : d = (2 * pwmDuty s k * posCfg s (PWM_CH_PER_PER k) + 65536) / 131072) :
    doPwmPeriodStart k s = (s |> setPwm k ⟨[], if d = 0 then none else some (s.now + d)⟩ |> drivePwm k (decide (d ≠ 0))) := by
  unfold doPwmPeriodStart
  rw [if_pos hm, ← hd]
  by_cases h : d = 0 <;> simp [h]

theorem beginPulse_idle (h : (pwmOf s k).until_ = none) :
    beginPulse k stop s = (s |> setPwm k { pwmOf s k with until_ := some stop } |> drivePwm k true) := by simp [beginPulse, h]

theorem beginPulse_active {u : Nat} (h : (pwmOf s k).until_ = some u) :
    beginPulse k stop s = setPwm k { pwmOf s k with until_ := some (if 0 < gapNs stop u then stop else u) } s := by simp [beginPulse, h]

theorem waits_beginPulse : (pwmOf (beginPulse k stop s) k).waits = (pwmOf s k).waits := by
  cases h : (pwmOf s k).until_ with
  | none => rw [beginPulse_idle h, pwmOf_drivePwm, pwmOf_setPwm_same]
  | some u => rw [beginPulse_active h, pwmOf_setPwm_same]

section
variable {a b : Nat} {rest : List (Nat × Nat)} (hw : (pwmOf s k).waits = (a, b) :: rest)
include hw

theorem doPwmPulseStart_early (hr : reached s a = false) : doPwmPulseStart k s = s := by simp [doPwmPulseStart, hw, hr]

theorem doPwmPulseStart_due (hr : reached s a = true) :
    doPwmPulseStart k s = beginPulse k b (setPwm k { pwmOf s k with waits := rest } s) := by simp [doPwmPulseStart, hw, hr]

end

theorem doPwmPulseStart_none (hw : (pwmOf s k).waits = []) : doPwmPulseStart k s = s := by simp [doPwmPulseStart, hw]

theorem doPwmPulseEnd_inactive (h : (pwmOf s k).until_ = none) : doPwmPulseEnd k s = s := by simp [doPwmPulseEnd, h]

section
variable {u : Nat} (h : (pwmOf s k).until_ = some u)
include h

theorem doPwmPulseEnd_early (hr : reached s u = false) : doPwmPulseEnd k s = s := by simp [doPwmPulseEnd, h, hr]

theorem doPwmPulseEnd_due (hr : reached s u = true) :
    doPwmPulseEnd k s = (s |> setPwm k { pwmOf s k with until_ := none } |> drivePwm k false) := by simp [doPwmPulseEnd, h, hr]

end
end

/-! ## O49 -/

/-- Settles O49, command by command. -/
theorem pwmOutputs : Obligations.PwmOutputs := by
  intro s k hk
  refine ⟨fun hl => ⟨fun hm => next_congr ((if_pos hl).trans (if_neg hm)), fun d hm hd => ?_, fun a b rest hw =>
    ⟨fun hr => next_congr ((if_pos hl).trans (doPwmPulseStart_early hw hr)), fun hr => ?_⟩,
    fun hw => next_congr ((if_pos hl).trans (doPwmPulseStart_none hw))⟩,
    fun hl => ⟨next_congr (if_neg (by simp [hl])), next_congr (if_neg (by simp [hl]))⟩,
    fun hu => next_congr ((if_pos hk).trans (doPwmPulseEnd_inactive hu)), fun u hu =>
    ⟨fun hr => next_congr ((if_pos hk).trans (doPwmPulseEnd_early hu hr)), fun hr => ?_⟩⟩
  · have e := doPwmPeriodStart_follows hm hd
    refine ⟨_, next_congr (if_pos hl), ?_, ?_, fun j hj => ⟨?_, ?_⟩, fun x h1 h2 h3 =>
      (doPwmPeriodStart_ev (H := [.pins, .pwms, .out]) rfl (ev_refl _ s) k).same (by simp [h1, h2, h3])⟩
    · rw [e, pwmOf_drivePwm, pwmOf_setPwm_same]
    · rw [e, hasBit_drivePwm, if_pos rfl]
    · rw [e, hasBit_drivePwm, if_neg hj]
      rfl
    · rw [e, pwmOf_drivePwm, pwmOf_setPwm_ne _ _ _ hj.symm]
  · have e := doPwmPulseStart_due hw hr
    have hx : pwmOf (setPwm k { pwmOf s k with waits := rest } s) k = { pwmOf s k with waits := rest } := pwmOf_setPwm_same ..
    refine ⟨_, next_congr (if_pos hl), ?_, fun hn => ?_, fun u hu => ?_, fun x h1 h2 h3 =>
      (doPwmPulseStart_ev (H := [.pins, .pwms, .out]) rfl (ev_refl _ s) k).same (by simp [h1, h2, h3])⟩
    · rw [e, waits_beginPulse, hx]
    · rw [e, beginPulse_idle (by rw [hx]; exact hn), pwmOf_drivePwm, pwmOf_setPwm_same, hasBit_drivePwm]
      exact ⟨rfl, if_pos rfl⟩
    · rw [e, beginPulse_active (u := u) (by rw [hx]; exact hu), pwmOf_setPwm_same]
      exact ⟨rfl, rfl⟩
  · have e := doPwmPulseEnd_due hu hr
    refine ⟨_, next_congr (if_pos hk), ?_, ?_, fun x h1 h2 h3 =>
      (doPwmPulseEnd_ev (H := [.pins, .pwms, .out]) rfl (ev_refl _ s) k).same (by simp [h1, h2, h3])⟩
    · rw [e, pwmOf_drivePwm, pwmOf_setPwm_same]
    · rw [e, hasBit_drivePwm, if_pos rfl]

end Sys2Proof.Machine

/-! PROOFS. Fold motors (R351, R352). -/

namespace Sys2Proof.Machine
open Sys2Proof

/-! ## A motor's lines and its state -/

section
variable (m : Nat) (s : State)

theorem hasBit_driveFold_in1 (d1 d2 : Nat) : hasBit (driveFold m d1 d2 s).pins.fold (2 * m) = decide (d1 ≠ 0) := by
  show (putBit (putBit _ (2 * m) (d1 != 0)) (2 * m + 1) (d2 != 0)).testBit (2 * m) = _
  rw [testBit_putBit, if_neg (by omega), testBit_putBit, if_pos rfl, Bool.eq_iff_iff]
  simp

theorem hasBit_driveFold_in2 (d1 d2 : Nat) : hasBit (driveFold m d1 d2 s).pins.fold (2 * m + 1) = decide (d2 ≠ 0) := by
  show (putBit (putBit _ (2 * m) (d1 != 0)) (2 * m + 1) (d2 != 0)).testBit (2 * m + 1) = _
  rw [testBit_putBit, if_pos rfl, Bool.eq_iff_iff]
  simp

theorem foldState_wr {st : Nat} (h : st < 8) : foldState (wr (FOLD_STAT_STATE m) st s) m = st := by
  rw [foldState, rd_wr_same (by simp) (by simp)]
  exact Nat.mod_eq_of_lt h

/-- A motor that stands in a state: both lines low. -/
def foldRests (s : State) (m st : Nat) : Prop :=
  foldState s m = st ∧ hasBit s.pins.fold (2 * m) = false ∧ hasBit s.pins.fold (2 * m + 1) = false

theorem stopFold_rests {st : Nat} (h : st < 8) : foldRests (stopFold m st s) m st := by
  refine ⟨foldState_wr m _ h, ?_⟩
  rw [stopFold, wr_pins, hasBit_driveFold_in1, hasBit_driveFold_in2]
  simp

/-- A motor that runs a way: the line of that way at DUTY, the other one low. -/
def foldDriven (s : State) (m way duty : Nat) : Prop :=
  foldState s m = way ∧ hasBit s.pins.fold (2 * m) = decide (way = 1 ∧ duty ≠ 0) ∧
    hasBit s.pins.fold (2 * m + 1) = decide (way = 2 ∧ duty ≠ 0)

theorem runFold_fold : runFold m 1 s = wr (FOLD_STAT_STATE m) 1 (driveFold m (posCfg s (FOLD_CFG_DUTY m)) 0 s) := by simp [runFold]

theorem runFold_unfold : runFold m 2 s = wr (FOLD_STAT_STATE m) 2 (driveFold m 0 (posCfg s (FOLD_CFG_DUTY m)) s) := by simp [runFold]

theorem runFold_driven {way : Nat} (h : way = 1 ∨ way = 2) : foldDriven (runFold m way s) m way (posCfg s (FOLD_CFG_DUTY m)) := by
  refine ⟨foldState_wr m _ (by omega), ?_⟩
  rcases h with rfl | rfl
  · rw [runFold_fold, wr_pins, hasBit_driveFold_in1, hasBit_driveFold_in2]
    simp
  · rw [runFold_unfold, wr_pins, hasBit_driveFold_in1, hasBit_driveFold_in2]
    simp

end

/-! ## FOLD and UNFOLD -/

section
variable {s : State} {m way : Nat}

theorem foldForbidden_iff : foldForbidden s m = true ↔
    profSpeed s = 0xFFFF ∧ posCfg s (FOLD_VMAX_UNKNOWN_OK m) = 0 ∨
      profSpeed s ≠ 0xFFFF ∧ posCfg s (FOLD_VMAX_VMAX m) < profSpeed s := by
  unfold foldForbidden
  by_cases h : profSpeed s = 0xFFFF <;> simp [h]

theorem foldCommand_shut (h : isSafe s = true ∨ s.mnt.parked = true) : foldCommand m way s = s := if_pos (by simpa using h)

section
variable (hs : isSafe s = false) (hp : s.mnt.parked = false)
include hs hp

theorem foldCommand_rejected (h : foldForbidden s m = true) : foldCommand m way s = foldEvt PWM_EVT_FOLD_REJ m s := by
  simp [foldCommand, hs, hp, h]

variable (hf : foldForbidden s m = false)
include hf

theorem foldCommand_same (h : foldState s m = way) : foldCommand m way s = s := by simp [foldCommand, hs, hp, hf, h]

variable (hw : way = 1 ∨ way = 2)
include hw

theorem foldCommand_braking (h : foldState s m = 3) :
    foldCommand m way s = { s with folds := sset (fun _ => 0) s.folds m way } := by
  have : 3 ≠ way := by omega
  simp [foldCommand, hs, hp, hf, h, this]

theorem foldCommand_reverses (h : foldState s m = 3 - way) :
    foldCommand m way s = { stopFold m 3 s with folds := sset (fun _ => 0) s.folds m way } := by
  rcases hw with rfl | rfl <;> simp [foldCommand, hs, hp, hf, h, foldRuns]

theorem foldCommand_starts (h1 : foldState s m ≠ 1) (h2 : foldState s m ≠ 2) (h3 : foldState s m ≠ 3) :
    foldCommand m way s = runFold m way s := by
  have : foldState s m ≠ way := by omega
  simp [foldCommand, hs, hp, hf, h1, h2, h3, this, foldRuns]

end

/-! ## Ends of a run -/

theorem posCfg_folds (s : State) (x : Sparse Nat) (f : RF) : posCfg { s with folds := x } f = posCfg s f :=
  sameBanks.posCfg ⟨reg_congr rfl rfl, rfl, rfl, rfl, rfl⟩ f

theorem doBrakeEnd_brake (h : foldState s m = 3) : doBrakeEnd m s =
    runFold m (sget (fun _ => 0) s.folds m) { s with folds := sset (fun _ => 0) s.folds m 0 } := if_pos h

theorem foldRuns_lt (h : foldRuns s m = true) : foldState s m + 3 < 8 := by
  simp only [foldRuns, Bool.or_eq_true, beq_iff_eq] at h
  omega

section
variable (h : foldRuns s m = true)
include h

theorem doFoldStall_high (hc : posCfg s (FOLD_LIM_STALL_MA m) ≤ rd s (FOLD_STAT_MA m)) :
    doFoldStall m s = foldEvt PWM_EVT_FOLD_DONE m (stopFold m (foldState s m + 3) s) := by simp [doFoldStall, h, hc]

theorem doFoldStall_low (hc : rd s (FOLD_STAT_MA m) < posCfg s (FOLD_LIM_STALL_MA m)) : doFoldStall m s = s := by
  simp [doFoldStall, h, hc]

end

theorem doFoldStall_idle (h : foldRuns s m = false) : doFoldStall m s = s := by simp [doFoldStall, h]

/-- The event bit of a motor stands in another register than its state. -/
theorem foldEvt_rests {st : Nat} (h : foldRests s m st) (r : RF) (hr : r.addr < 0xA80200) : foldRests (foldEvt r m s) m st :=
  ⟨(rd_wr_addr (by dsimp only; omega)).trans h.1, h.2⟩

end

/-! ## O50 -/

/-- Settles O50, command by command; FOLD and UNFOLD are one command with two ways. -/
theorem foldMotors : Obligations.FoldMotors := by
  intro s m hm
  extract_lets no acts
  have command (way : Nat) (hw : way = 1 ∨ way = 2) : acts way (.next (foldCommand m way s)) := by
    refine ⟨fun h => next_congr (foldCommand_shut h), fun hs hp => ⟨fun h => ?_, fun h => ?_⟩⟩
    · exact next_congr (foldCommand_rejected hs hp (foldForbidden_iff.mpr h))
    have hf : foldForbidden s m = false := by simpa using mt foldForbidden_iff.mp h
    refine ⟨fun h => next_congr (foldCommand_same hs hp hf h), fun h => next_congr (foldCommand_braking hs hp hf hw h), fun h => ?_,
      fun h1 h2 h3 => ?_⟩
    · rw [foldCommand_reverses hs hp hf hw h]
      obtain ⟨hst, hin1, hin2⟩ := stopFold_rests m s (st := 3) (by decide)
      exact ⟨_, rfl, hst, sget_sset_same .., hin1, hin2⟩
    · rw [foldCommand_starts hs hp hf hw h1 h2 h3]
      obtain ⟨hst, hin1, hin2⟩ := runFold_driven m s hw
      exact ⟨_, rfl, hst, hin1, hin2, fun x h1 h2 h3 =>
        (runFold_ev (H := [.pins, .regs, .out]) rfl (ev_refl _ s) m way).same (by simp [h1, h2, h3])⟩
  refine ⟨⟨?_, ?_⟩, ?_, fun way h3 hw hway => ?_, fun h => next_congr ((if_pos hm).trans (if_neg h)), fun h =>
    ⟨fun hc => ?_, fun hc => next_congr ((if_pos hm).trans (doFoldStall_low h hc)), ?_⟩, fun h =>
    ⟨next_congr ((if_pos hm).trans (doFoldStall_idle h)), next_congr ((if_pos hm).trans (if_neg (by simp [h])))⟩⟩
  · rw [exec_fold, execFold, if_pos hm]
    exact command 1 (.inl rfl)
  · rw [exec_unfold, execUnfold, if_pos hm]
    exact command 2 (.inr rfl)
  · obtain ⟨hst, hin1, hin2⟩ := stopFold_rests m s (st := 0) (by decide)
    exact ⟨_, next_congr (if_pos hm), hst, hin1, hin2, fun x h1 h2 h3 h4 =>
      (doFoldStop_ev (H := [.pins, .regs, .folds, .out]) rfl (ev_refl _ s) m).same (by simp [h1, h2, h3, h4])⟩
  · subst hway
    have hd := runFold_driven m { s with folds := sset (fun _ => 0) s.folds m 0 } hw
    rw [posCfg_folds] at hd
    obtain ⟨hst, hin1, hin2⟩ := hd
    exact ⟨_, next_congr ((if_pos hm).trans (doBrakeEnd_brake h3)), hst, hin1, hin2⟩
  · obtain ⟨hst, hin1, hin2⟩ := foldEvt_rests (stopFold_rests m s (foldRuns_lt h)) PWM_EVT_FOLD_DONE (by decide)
    exact ⟨_, next_congr ((if_pos hm).trans (doFoldStall_high h hc)), hst, hin1, hin2,
      rd_set_oneBit ⟨rfl, by dsimp only; omega⟩ _⟩
  · obtain ⟨hst, hin1, hin2⟩ := stopFold_rests m s (st := 6) (by decide)
    exact ⟨_, next_congr ((if_pos hm).trans (if_pos h)), hst, hin1, hin2⟩

end Sys2Proof.Machine

/-! PROOFS. Power supervisors (R345 to R349). -/

namespace Sys2Proof.Machine
open Sys2Proof

/-! ## Trips (R347) -/

theorem posCfg_setPwr (p : Nat) (x : PwrSt) (s : State) (f : RF) : posCfg (setPwr p x s) f = posCfg s f := cfgI_setPwr ..

theorem rd_drivePoc (p : Nat) (on : Bool) (s : State) (r : RF) : rd (drivePoc p on s) r = rd s r := rfl

/-- What a trip does to the supervisor, before its error and the port's fault. -/
def tripped (p cause : Nat) (s : State) : State :=
  s |> wr (PWR_P_STAT_STATE p) 3 |> wr (PWR_P_STAT_PG p) 0 |> inc (PWR_P_STAT_ATTEMPT p) |> wr (PWR_P_STAT_CAUSE p) cause
    |> drivePoc p false

theorem tripPower_eq (p cause : Nat) (s : State) : tripPower p cause s =
    (tripped p cause s |> recordError ((pwrErr cause p).setting (PWR_P_EVT_TRIP p)) |> powerFault p |> kickSlices) := rfl

theorem tripped_evolves (p cause : Nat) (s : State) : Evolves [.regs, .pins, .out] s (tripped p cause s) :=
  drivePoc_ev rfl (wr_ev rfl (inc_ev rfl (wr_ev rfl (wr_ev rfl (ev_refl _ s) _ _) _ _) _) _ _) p false

/-- A tripped supervisor is in its retry state without PG, with its cause and one more attempt. -/
theorem tripped_shows (p : Nat) {c : Nat} (hc : c < 8) (s : State) :
    pwrState (tripped p c s) p = 3 ∧ rd (tripped p c s) (PWR_P_STAT_PG p) = 0 ∧ rd (tripped p c s) (PWR_P_STAT_CAUSE p) = c ∧
      rd (tripped p c s) (PWR_P_STAT_ATTEMPT p) = satAdd 5 (rd s (PWR_P_STAT_ATTEMPT p)) 1 := by
  refine ⟨?_, ?_, ?_, ?_⟩
  · simp [pwrState, tripped, rd_drivePoc, rd_wr_other, rd_inc_other, rd_wr_same]
  · simp [tripped, rd_drivePoc, rd_wr_other, rd_inc_other, rd_wr_same]
  · simp [tripped, rd_drivePoc, rd_wr_same]
    omega
  · simp [tripped, rd_drivePoc, rd_wr_other, rd_inc_same]

/-! ## Power good, retry and release (R346, R348, R349) -/

/-- A supervisor in its ON state with PG and its event. -/
def powerOn (p : Nat) (s : State) : State :=
  s |> wr (PWR_P_STAT_STATE p) 2 |> wr (PWR_P_STAT_PG p) 1 |> wr (PWR_P_EVT_PG p) 1 |> setPwr p { pwrOf s p with out := 0 }

theorem powerOn_evolves (p : Nat) (s : State) : Evolves [.regs, .pwrs] s (powerOn p s) :=
  setPwr_ev rfl (wr_ev rfl (wr_ev rfl (wr_ev rfl (ev_refl _ s) _ _) _ _) _ _) p _

theorem powerOn_shows (p : Nat) (s : State) :
    pwrState (powerOn p s) p = 2 ∧ rd (powerOn p s) (PWR_P_STAT_PG p) = 1 ∧ rd (powerOn p s) (PWR_P_EVT_PG p) = 1 ∧
      (pwrOf (powerOn p s) p).out = 0 := by
  refine ⟨?_, ?_, ?_, by simp [powerOn]⟩
  · simp [pwrState, powerOn, rd_wr_other, rd_wr_same]
  · simp [powerOn, rd_wr_other, rd_wr_same]
  · simp [powerOn, rd_wr_same]

section
variable {s : State} {p : Nat}

theorem portState_powerOn : portState (powerOn p s) p = portState s p := by
  rw [powerOn, portState, rd_setPwr, rd_wr_addr (by dsimp only; omega), rd_wr_addr (by dsimp only; omega), rd_wr_addr (by dsimp only; omega)]
  rfl

theorem powerFine_iff : powerFine s p = true ↔ posCfg s (PWR_P_VWIN_UV_MV p) ≤ rd s (PWR_P_MEAS_MV p) ∧
    rd s (PWR_P_MEAS_MV p) ≤ posCfg s (PWR_P_VWIN_OV_MV p) ∧ rd s (PWR_P_MEAS_MA p) < currentLimit s p := by
  simp [powerFine, and_assoc]

theorem doPowerGood_fine (h : pwrState s p = 1) (hf : powerFine s p = true) :
    doPowerGood p s = if portState (powerOn p s) p = 1 then setState p 2 (powerOn p s) else powerOn p s := if_pos ⟨h, hf⟩

theorem doPowerGood_idle (h : pwrState s p ≠ 1 ∨ powerFine s p = false) : doPowerGood p s = s :=
  if_neg (by rcases h with h | h <;> simp [h])

theorem doPowerRetry_again (h : pwrState s p = 3) (ha : rd s (PWR_P_STAT_ATTEMPT p) ≤ posCfg s PWR_RETRY_RETRY_N) :
    doPowerRetry p s = releasePort p s := (if_pos h).trans (if_pos ha)

theorem doPowerRetry_latches (h : pwrState s p = 3) (ha : posCfg s PWR_RETRY_RETRY_N < rd s (PWR_P_STAT_ATTEMPT p)) :
    doPowerRetry p s = recordError ((pwrErr 5 p).setting (PWR_P_EVT_LATCHED p)) (wr (PWR_P_STAT_STATE p) 4 s) :=
  (if_pos h).trans (if_neg (by omega))

/-! ## Conversions of a port's voltage and of the rail (R345, R347, R349) -/

section
variable {mv : Nat} (hm : mv ≤ 0xFFFF)

theorem voltageScan_within (hl : posCfg s (PWR_P_VWIN_UV_MV p) ≤ mv) (hh : mv ≤ posCfg s (PWR_P_VWIN_OV_MV p)) :
    voltageScan p mv s = setPwr p { pwrOf s p with out := 0 } (wr (PWR_P_MEAS_MV p) mv s) := by
  unfold voltageScan
  extract_lets u
  have hcfg (f : RF) : posCfg u f = posCfg s f := posCfg_wr (by dsimp only; omega) ..
  exact if_neg (by rw [hcfg, hcfg]; omega)

theorem voltageScan_outside (hst : pwrState s p = 2) (h : mv < posCfg s (PWR_P_VWIN_UV_MV p) ∨ posCfg s (PWR_P_VWIN_OV_MV p) < mv) :
    voltageScan p mv s =
      let u := setPwr p { pwrOf s p with out := (pwrOf s p).out + 1 } (wr (PWR_P_MEAS_MV p) mv s)
      if posCfg s PWR_RETRY_OC_N ≤ (pwrOf s p).out + 1 then tripPower p 3 u else u := by
  have hcfg (f : RF) : posCfg (wr (PWR_P_MEAS_MV p) mv s) f = posCfg s f := posCfg_wr (by dsimp only; omega) ..
  have hon : pwrState (wr (PWR_P_MEAS_MV p) mv s) p = 2 := (rd_wr_addr (by dsimp only; omega)).trans hst
  simp only [voltageScan, hon, hcfg, posCfg_setPwr, h, and_self, if_true, pwrOf_wr]

include hm in
theorem measured_voltage (x : PwrSt) :
    rd (setPwr p x (wr (PWR_P_MEAS_MV p) mv s)) (PWR_P_MEAS_MV p) = mv ∧
      pwrState (setPwr p x (wr (PWR_P_MEAS_MV p) mv s)) p = pwrState s p := by
  refine ⟨?_, by simp [pwrState, rd_wr_other]⟩
  rw [rd_setPwr, rd_wr_same (by simp) (by simp)]
  exact Nat.mod_eq_of_lt (by dsimp only; omega)

end

theorem doAdc1Conversion_voltage (hp : hasSupervisor s p = true) (hm : s.mnt.parked = false) (code : Nat) :
    doAdc1Conversion (2 * p) code s = voltageScan p (scaled code (posCfg s PWR_SCALE_VSCALE)) s := by
  have h16 : p < 16 := by
    simp only [hasSupervisor, Bool.and_eq_true, decide_eq_true_eq] at hp
    exact hp.1
  have : 2 * p < 32 := by omega
  simp [doAdc1Conversion, hm, hp, this]

theorem doAdc1Conversion_rail (hm : s.mnt.parked = false) (code : Nat) :
    doAdc1Conversion 32 code s = railScan (scaled code (posCfg s PWR_SCALE_VSCALE)) s := by simp [doAdc1Conversion, hm]

theorem railScan_low {mv : Nat} (h : mv < posCfg s PWR_RAIL_RAIL_UV_MV) :
    railScan mv s = recordError ((pwrErr 6 0).setting PWR_EVT_RAIL_UV) (wr PWR_RAIL_MV_MV mv s) :=
  if_pos (by rw [posCfg_wr (by decide)]; exact h)

end

/-! ## O48 -/

section
variable {s : State} {p : Nat} (hp : hasSupervisor s p = true)
include hp

theorem exec_powerGood_of (hf : pwrState s p = 1) (h : powerFine s p = true) :
    (portState s p ≠ 1 → exec (.powerGood p) s = .next (powerOn p s)) ∧
      (portState s p = 1 → exec (.powerGood p) s = .next (setState p 2 (powerOn p s))) := by
  rw [exec_powerGood, execPowerGood, if_pos hp, doPowerGood_fine hf h, portState_powerOn]
  exact ⟨fun h => next_congr (if_neg h), fun h => next_congr (if_pos h)⟩

end

/-- Settles O48, command by command. -/
theorem powerSupervisors : Obligations.PowerSupervisors := by
  refine ⟨fun s p hp => ⟨fun h => ?_, fun h => ?_, fun h => ?_, fun h => ⟨?_, ?_⟩, fun h => ?_, fun c hc => ?_, fun h1 hl hh hc => ?_,
    fun h => ⟨fun ha => ?_, fun ha => ?_⟩, fun h => ?_, fun h => ?_, fun h hs => ?_, fun h => ?_, fun h ho => ?_, fun ho => ?_,
    fun code mv hk hm => ⟨fun hl hh => ?_, fun h ho => ?_⟩⟩, fun s code => ⟨fun i h => ?_, fun hk h => ?_⟩⟩
  · exact next_congr (if_pos (by simp [hp, h]))
  · exact next_congr (if_neg (by simp [h]))
  · exact next_congr (if_pos (by simp [hp, h]))
  · exact next_congr (if_neg (by simp [h]))
  · exact next_congr ((if_pos hp).trans (doPowerGood_idle (.inl h)))
  · refine next_congr ((if_pos hp).trans (doPowerGood_idle (.inr ?_)))
    rw [← Bool.not_eq_true, powerFine_iff]
    omega
  · obtain ⟨hst, hpg, hcause, hatt⟩ := tripped_shows p hc s
    exact ⟨_, tripPower_eq p c s, hst, hpg, hcause, hatt, fun x h1 h2 h3 => (tripped_evolves p c s).same (by simp [h1, h2, h3])⟩
  · obtain ⟨hst, hpg, hevt, hout⟩ := powerOn_shows p s
    exact ⟨_, hst, hpg, hevt, hout, fun x h1 h2 => (powerOn_evolves p s).same (by simp [h1, h2]),
      exec_powerGood_of hp h1 (powerFine_iff.mpr ⟨hl, hh, hc⟩)⟩
  · exact next_congr ((if_pos hp).trans (doPowerRetry_again h ha))
  · exact ⟨_, next_congr ((if_pos hp).trans (doPowerRetry_latches h ha)), rd_wr_same (by simp) (by simp), fun x hx =>
      (wr_ev (H := [.regs]) rfl (ev_refl _ s) _ _).same (by simpa using hx)⟩
  · exact next_congr ((if_pos hp).trans (if_neg h))
  · exact ⟨_, next_congr (if_pos (by simp [hp, h])), rd_wr_same (by simp) (by simp),
      (rd_wr_bits (by simp) (by simp) (by simp)).trans h, fun x hx => (wr_ev (H := [.regs]) rfl (ev_refl _ s) _ _).same (by simpa using hx)⟩
  · exact next_congr ((if_pos hp).trans (if_pos (by simp [h, hs])))
  · refine next_congr ((if_pos hp).trans (if_neg ?_))
    rcases h with h | h <;> simp [h]
  · refine ⟨_, next_congr ((if_pos hp).trans (if_pos ⟨h, ho⟩)), ?_, ?_, ?_, fun x hx =>
      (wr_ev (H := [.regs]) rfl (wr_ev rfl (ev_refl _ s) _ _) _ _).same (by simpa using hx)⟩
    · simp [rd_wr_other, rd_wr_same]
    · simp [rd_wr_same]
    · simpa [pwrState, rd_wr_other] using h
  · exact next_congr ((if_pos hp).trans (if_neg (by omega)))
  · subst hm
    obtain ⟨hmv, hst⟩ := measured_voltage (s := s) (p := p) (mv := scaled code (posCfg s PWR_SCALE_VSCALE)) (min_le_left _ _)
      { pwrOf s p with out := 0 }
    exact ⟨_, next_congr ((doAdc1Conversion_voltage hp hk code).trans (voltageScan_within hl hh)), hmv, hst, by simp, fun x h1 h2 =>
      (setPwr_ev (H := [.regs, .pwrs]) rfl (wr_ev rfl (ev_refl _ s) _ _) p _).same (by simp [h1, h2])⟩
  · subst hm
    obtain ⟨hmv, hst⟩ := measured_voltage (s := s) (p := p) (mv := scaled code (posCfg s PWR_SCALE_VSCALE)) (min_le_left _ _)
      { pwrOf s p with out := (pwrOf s p).out + 1 }
    exact ⟨_, hmv, by simp, hst.trans h, next_congr ((doAdc1Conversion_voltage hp hk code).trans (voltageScan_outside h ho))⟩
  · exact next_congr (if_pos h)
  · refine ⟨_, next_congr ((doAdc1Conversion_rail hk code).trans (railScan_low h)), ?_⟩
    rw [rd_wr_same (by decide) (by decide)]
    exact Nat.mod_eq_of_lt (lt_of_le_of_lt (min_le_left _ _) (by decide))

end Sys2Proof.Machine

/-! PROOFS. What the sending of weave blocks leaves of the registers (R388 to R390, R393). -/

namespace Sys2Proof.Machine
open Sys2Proof

/-- The register that shows how many blocks of a port are unacknowledged. -/
def retryLevel (p a : Nat) : Prop := a = 0x80001C + 0x1000 * p

/-- The registers of the weave ports. -/
def weaveWord (a : Nat) : Prop := 0x800000 ≤ a ∧ a < 0x804000

theorem weaveWord_of_retryLevel {p a : Nat} (hp : p < 4) (h : retryLevel p a) : weaveWord a := by
  unfold retryLevel at h
  unfold weaveWord
  omega

section
variable (p : Nat) (s : State)

theorem setWv_kept (P : Nat → Prop) (x : WvSt) : RegsKept P s (setWv p x s) := .of_eq rfl rfl

theorem putOnLink_kept (P : Nat → Prop) (b : Block) : RegsKept P s (putOnLink p b s) := by
  unfold putOnLink
  split
  · exact .refl P s
  · exact emit_kept _ P _

theorem sendLocal_kept (P : Nat → Prop) (type : Nat) (payload : List Nat) : RegsKept P s (sendLocal p type payload s) :=
  putOnLink_kept ..

theorem noteUnacked_kept : RegsKept (retryLevel p) s (noteUnacked p s) := (RegsKept.refl _ s).wr rfl

theorem sendNow_kept (b : Block) : RegsKept (retryLevel p) s (sendNow p b s) :=
  ((setWv_kept p s _ _).trans (putOnLink_kept p _ _ _)).trans (noteUnacked_kept p _)

theorem sendBlock_kept (type cls flow : Nat) (payload : List Nat) : RegsKept (retryLevel p) s (sendBlock p type cls flow payload s) := by
  unfold sendBlock
  extract_lets b x
  split
  · exact .refl _ s
  · split
    · exact sendNow_kept p s b
    · exact setWv_kept p s _ _

end

/-- An LSA goes out on weave ports alone. -/
theorem sendLsa_kept (s : State) : RegsKept weaveWord s (sendLsa s) := by
  unfold sendLsa
  extract_lets n pl
  refine RegsKept.trans (t := { s with fab := { s.fab with ownSeq := n, sent := lsaHead s ++ lsaLinks s } }) (.of_eq rfl rfl)
    (.foldl_mem (fun u p hp => (sendBlock_kept p u 7 3 0 pl).mono fun a h => weaveWord_of_retryLevel ?_ h) _)
  simp only [activePorts, List.mem_filter, List.mem_range] at hp
  exact hp.1

theorem sendLsaIfChanged_kept (s : State) : RegsKept weaveWord s (sendLsaIfChanged s) := by
  unfold sendLsaIfChanged
  split
  · exact .refl _ s
  · exact sendLsa_kept s

end Sys2Proof.Machine

/-! PROOFS. The counter of ISL_TIME: reads, rate, steps, second boundaries, anchors (R307 to R312, R315, R317). -/

namespace Sys2Proof.Machine
open Sys2Proof

/-! ## Numbers in two's complement -/

theorem cast_unsgn (w : Nat) (i : Int) : (unsgn w i : Int) = i % 2 ^ w :=
  Int.toNat_of_nonneg (Int.emod_nonneg i (by positivity))

theorem unsgn_lt (w : Nat) (i : Int) : unsgn w i < 2 ^ w := by
  have h := cast_unsgn w i
  have := Int.emod_lt_of_pos i (b := 2 ^ w) (by positivity)
  exact_mod_cast h ▸ this

theorem add64_lt (t : Nat) (d : Int) : add64 t d < 2 ^ 64 := unsgn_lt 64 _

theorem cast_add64 (t : Nat) (d : Int) : (add64 t d : Int) = (t + d) % 2 ^ 64 := cast_unsgn 64 _

/-- A number in range is what its low bits read as. -/
theorem sgn_unsgn {w : Nat} (hw : 0 < w) {i : Int} (hl : -2 ^ (w - 1) ≤ i) (hh : i < 2 ^ (w - 1)) : sgn w (unsgn w i) = i := by
  have hp : (2 : Int) ^ w = 2 * 2 ^ (w - 1) := (mul_pow_sub_one hw.ne' 2).symm
  have h := cast_unsgn w i
  have hcast : (unsgn w i < 2 ^ (w - 1)) ↔ (unsgn w i : Int) < 2 ^ (w - 1) := by exact_mod_cast Iff.rfl
  simp only [sgn, Nat.mod_eq_of_lt (unsgn_lt w i), hcast, h]
  rcases le_or_gt 0 i with h0 | h0
  · rw [Int.emod_eq_of_lt h0 (by omega), if_pos hh]
  · have hneg : i % 2 ^ w = i + 2 ^ w := by
      rw [← Int.add_emod_right, Int.emod_eq_of_lt (by omega) (by omega)]
    rw [hneg, if_neg (by omega), Int.add_sub_cancel]

theorem unsgn32_sgn (v : Nat) : unsgn 32 (sgn 32 v) = v % 2 ^ 32 := by
  have h := cast_unsgn 32 (sgn 32 v)
  unfold sgn at h ⊢
  dsimp only at h ⊢
  split at h <;> split <;> omega

theorem clampI_bounds {lo hi : Int} (h : lo ≤ hi) (i : Int) : lo ≤ clampI lo hi i ∧ clampI lo hi i ≤ hi := by
  unfold clampI
  split
  · omega
  · split <;> omega

/-! ## A generator's NEXT (R317) -/

/-- The registers of the generators. -/
def generatorWord (a : Nat) : Prop := 0x900080 ≤ a ∧ a < 0x900300

section
variable {g : Nat} (t : Nat) (s : State)

theorem setTrgNext_kept (hg : g < 32) : RegsKept generatorWord s (setTrgNext g t s) := by
  refine ((RegsKept.refl _ s).wr ?_).wr ?_ <;> (unfold generatorWord; dsimp only; omega)

theorem trgNext_setTrgNext_same (hg : g < 32) (ht : t < 2 ^ 64) : trgNext (setTrgNext g t s) g = t := by
  unfold trgNext setTrgNext
  rw [rd_wr_addr (show (TSU_TRG_NEXT_NS g).addr ≠ (TSU_TRG_NEXT_HI_HI g).addr by dsimp only; omega), rd_wr_same (by simp) (by simp),
    rd_wr_same (by simp) (by simp)]
  dsimp only
  omega

theorem trgNext_setTrgNext_ne (hg : g < 32) {j : Nat} (hj : j < 32) (h : j ≠ g) : trgNext (setTrgNext g t s) j = trgNext s j := by
  unfold trgNext setTrgNext
  rw [rd_wr_addr (by dsimp only; omega), rd_wr_addr (by dsimp only; omega), rd_wr_addr (by dsimp only; omega),
    rd_wr_addr (by dsimp only; omega)]

end

theorem trgNext_of_kept {P : Nat → Prop} {s t : State} (h : RegsKept P s t) (g : Nat) (hh : ¬ P (0x900080 + 0x4 * g))
    (hl : ¬ P (0x90010C + 0x10 * g)) : trgNext t g = trgNext s g := by
  rw [trgNext, h.rd hh, h.rd hl, trgNext]

/-! ## Steps (R310, R317) -/

/-- A step's part in one generator. -/
def stepNext (d : Int) (s : State) (g : Nat) : State := setTrgNext g (add64 (trgNext s g) d) s

theorem stepNexts_kept (d : Int) {l : List Nat} (hl : ∀ g ∈ l, g < 32) (s : State) : RegsKept generatorWord s (l.foldl (stepNext d) s) :=
  .foldl_mem (fun u g hg => setTrgNext_kept _ u (hl g hg)) s

theorem trgNext_stepNexts (d : Int) {l : List Nat} (hn : l.Nodup) (hl : ∀ g ∈ l, g < 32) {g : Nat} (hg : g < 32) (s : State) :
    trgNext (l.foldl (stepNext d) s) g = if g ∈ l then add64 (trgNext s g) d else trgNext s g := by
  induction l generalizing s with
  | nil => simp
  | cons x l ih =>
    obtain ⟨hx, hn⟩ := List.nodup_cons.mp hn
    have hx32 : x < 32 := hl x List.mem_cons_self
    rw [List.foldl_cons, ih hn fun y hy => hl y (List.mem_cons_of_mem _ hy)]
    by_cases h : g = x
    · subst h
      rw [if_neg hx, if_pos List.mem_cons_self, stepNext, trgNext_setTrgNext_same _ _ hg (add64_lt _ _)]
    · rw [stepNext, trgNext_setTrgNext_ne _ _ hx32 hg h]
      simp [h]

/-- The counter and the time unit's own state after a step. -/
def stepCounter (d : Int) (s : State) : State :=
  dueExtra { s with
    now := add64 s.now d
    time := { s.time with stepped := s.time.stepped + d, sinceBoundary := s.time.sinceBoundary + d, lastDiff := none } }

theorem stepCounter_kept (P : Nat → Prop) (d : Int) (s : State) : RegsKept P s (stepCounter d s) := .of_eq rfl rfl

/-- The counter and all that moves with it, before the step is counted. -/
def stepTimes (d : Int) (s : State) : State :=
  (List.range 32).foldl (stepNext d)
    (stepCounter d s |> wr TSU_STEP_VALUE (unsgn 32 d) |> wr TSU_PPS_NEXT_NS (unsgn 32 ((rd s TSU_PPS_NEXT_NS : Int) + d)))

theorem stepBy_eq (d : Int) (s : State) : stepBy d s = (stepTimes d s |> inc TSU_CNT_STEPS |> wr TSU_EVT_STEPPED 1) := rfl

section
variable (d : Int) (s : State)

theorem stepTimes_kept : RegsKept generatorWord
    (stepCounter d s |> wr TSU_STEP_VALUE (unsgn 32 d) |> wr TSU_PPS_NEXT_NS (unsgn 32 ((rd s TSU_PPS_NEXT_NS : Int) + d)))
    (stepTimes d s) := stepNexts_kept d (fun _ => List.mem_range.mp) _

/-- The registers that a step writes. -/
def stepWord (a : Nat) : Prop := a = 0x900010 ∨ a = 0x90001C ∨ a = 0x900024 ∨ a = 0x900028 ∨ generatorWord a

theorem stepBy_kept : RegsKept stepWord s (stepBy d s) := by
  have k := (stepCounter_kept stepWord d s).wr (r := TSU_STEP_VALUE) (v := unsgn 32 d) (.inl rfl)
  have k := k.wr (r := TSU_PPS_NEXT_NS) (v := unsgn 32 ((rd s TSU_PPS_NEXT_NS : Int) + d)) (.inr (.inl rfl))
  have k := k.trans ((stepTimes_kept d s).mono fun _ h => .inr (.inr (.inr (.inr h))))
  exact (k.wr (r := TSU_CNT_STEPS) (.inr (.inr (.inl rfl)))).wr (r := TSU_EVT_STEPPED) (.inr (.inr (.inr (.inl rfl))))

theorem rd_stepBy_pps : (rd (stepBy d s) TSU_PPS_NEXT_NS : Int) = (rd s TSU_PPS_NEXT_NS + d) % 2 ^ 32 := by
  rw [stepBy_eq, rd_wr_addr (by decide), inc, addSat, rd_wr_addr (by decide), (stepTimes_kept d s).rd (by simp [generatorWord]),
    rd_wr_fits (by decide) (by decide) (unsgn_lt 32 _), cast_unsgn]

theorem rd_stepBy_value : rd (stepBy d s) TSU_STEP_VALUE = unsgn 32 d := by
  rw [stepBy_eq, rd_wr_addr (by decide), inc, addSat, rd_wr_addr (by decide), (stepTimes_kept d s).rd (by simp [generatorWord]),
    rd_wr_addr (by decide), rd_wr_fits (by decide) (by decide) (unsgn_lt 32 _)]

theorem rd_stepBy_count : rd (stepBy d s) TSU_CNT_STEPS = satAdd 16 (rd s TSU_CNT_STEPS) 1 := by
  rw [stepBy_eq, rd_wr_addr (by decide), rd_inc_same (by decide) (by decide), (stepTimes_kept d s).rd (by simp [generatorWord]),
    rd_wr_addr (by decide), rd_wr_addr (by decide), (stepCounter_kept (fun _ => False) d s).rd id]
  rfl

theorem rd_stepBy_stepped : rd (stepBy d s) TSU_EVT_STEPPED = 1 := rd_set_oneBit ⟨rfl, by decide⟩ _

theorem rd_stepBy_state : rd (stepBy d s) TSU_EVT_STATE = rd s TSU_EVT_STATE := by
  rw [stepBy_eq, rd_wr_bits (by decide) (by decide) (by decide), inc, addSat, rd_wr_addr (by decide),
    (stepTimes_kept d s).rd (by simp [generatorWord]), rd_wr_addr (by decide), rd_wr_addr (by decide),
    (stepCounter_kept (fun _ => False) d s).rd id]

theorem trgNext_stepBy {g : Nat} (hg : g < 32) : (trgNext (stepBy d s) g : Int) = (trgNext s g + d) % 2 ^ 64 := by
  have hb : RegsKept (fun a => a < 0x900080) (stepTimes d s) (stepBy d s) := ((RegsKept.refl _ _).wr (by decide)).wr (by decide)
  have ha : RegsKept (fun a => a < 0x900080) s
      (stepCounter d s |> wr TSU_STEP_VALUE (unsgn 32 d) |> wr TSU_PPS_NEXT_NS (unsgn 32 ((rd s TSU_PPS_NEXT_NS : Int) + d))) :=
    ((stepCounter_kept _ d s).wr (by decide)).wr (by decide)
  rw [trgNext_of_kept hb g (by omega) (by omega), stepTimes,
    trgNext_stepNexts d List.nodup_range (fun _ => List.mem_range.mp) hg, if_pos (List.mem_range.mpr hg),
    trgNext_of_kept ha g (by omega) (by omega), cast_add64]

/-- The state of the time unit after a step, and the rest. -/
theorem stepTimes_time : (stepTimes d s).time = (stepCounter d s).time ∧ (stepTimes d s).now = add64 s.now d := by
  have e : Evolves [.regs] (stepCounter d s) (stepTimes d s) :=
    ev_foldl (wr_ev rfl (wr_ev rfl (ev_refl _ _) _ _) _ _) fun _ g h => setTrgNext_ev rfl h g _
  exact ⟨e.same (x := .time) (by decide), e.same (x := .now) (by decide)⟩

theorem stepBy_time : (stepBy d s).time = (stepCounter d s).time := by
  rw [stepBy_eq, wr_time, inc_time, (stepTimes_time d s).1]

theorem stepBy_now : (stepBy d s).now = add64 s.now d := by
  rw [stepBy_eq, wr_now, inc_now, (stepTimes_time d s).2]

end

/-! ## Rates (R309, R311) -/

section
variable {s : State}

theorem rateLimit_free (h : rateAlone s = false ∨ s.time.masterRate = none) (v : Int) :
    rateLimit s v = clampI (-500000000) 500000000 v := by
  rcases h with h | h <;> simp [rateLimit, h]

theorem rateLimit_bound {m : Int} (h : rateAlone s = true) (hm : s.time.masterRate = some m) (v : Int) :
    rateLimit s v = clampI (-500000000) 500000000 (clampI (m - 100000000) (m + 100000000) v) := by simp [rateLimit, h, hm]

theorem rd_doRateWrite (v : Nat) : sgn 32 (rd (doRateWrite v s) TSU_RATE_VALUE) = rateLimit s (sgn 32 v) := by
  rw [doRateWrite, rd_wr_fits (by decide) (by decide) (unsgn_lt 32 _)]
  obtain ⟨hl, hh⟩ : -500000000 ≤ rateLimit s (sgn 32 v) ∧ rateLimit s (sgn 32 v) ≤ 500000000 := clampI_bounds (by decide) _
  exact sgn_unsgn (by decide) (by omega) (by omega)

/-! ## Reads, second boundaries and anchors (R308, R312, R315, R317) -/

theorem timeHiOf_latchHi (o : Orig) : timeHiOf o (latchHi o s) = s.now / 2 ^ 32 % 2 ^ 32 := by simp [timeHiOf, latchHi]

theorem timeHiOf_latchHi_other {o o' : Orig} (h : origKey o' ≠ origKey o) : timeHiOf o' (latchHi o s) = timeHiOf o' s := by
  simp [timeHiOf, latchHi, sget_sset_ne _ _ _ _ _ h.symm]

theorem latchHi_evolves (o : Orig) (s : State) : Evolves [.time] s (latchHi o s) := ev_time rfl (ev_refl _ s)

theorem doTimeNsRead_of_present {o : Orig} (h : origPresent s.variant o = true) :
    doTimeNsRead o s = emit (.readData o TSU_TIME_NS_ALL.addr (timeNs s)) (latchHi o s) := by simp [doTimeNsRead, h]

/-- The next whole second lies within a second ahead of the counter. -/
theorem nextSecond_spec (s : State) : ∃ k : Int, nextSecond s = unsgn 32 k ∧ now64 s < k ∧ k ≤ now64 s + 1000000000 ∧
    (k + syncBase s) % 1000000000 = 0 :=
  ⟨_, rfl, by omega, by omega, by omega⟩

/-- The anchor that a second boundary makes due. -/
def boundaryAnchor (s : State) : AnchorDue := ⟨now64 s - sinceNs s (rd s TSU_PPS_NEXT_NS), s.time.secs + 1, s.time.stepped, false⟩

theorem doSecondBoundary_due (h : reached s (rd s TSU_PPS_NEXT_NS) = true) : doSecondBoundary s =
    ({ s with time := { s.time with secs := s.time.secs + 1, sinceBoundary := 0, anchors := s.time.anchors ++ [boundaryAnchor s] } }
      |> wr TSU_PPS_LAST_NS (rd s TSU_PPS_NEXT_NS) |> wr TSU_PPS_NEXT_NS (rd s TSU_PPS_NEXT_NS + 1000000000)) := if_pos h

theorem doAnchorCommit_due {a : AnchorDue} {rest : List AnchorDue} (h : s.time.anchors = a :: rest) :
    doAnchorCommit s = commitAnchor a { s with time := { s.time with anchors := rest } } := by simp [doAnchorCommit, h]

theorem doAnchorCommit_none (h : s.time.anchors = []) : doAnchorCommit s = s := by simp [doAnchorCommit, h]

end

theorem length_slice (bs : List Nat) (off len : Nat) : (slice bs off len).length = len := by
  simp only [slice, List.length_append, List.length_replicate, List.length_take]
  omega

theorem length_padTo (n : Nat) (bs : List Nat) : (padTo n bs).length = n := length_slice bs 0 n

theorem length_anchorBytes (s : State) (a : AnchorDue) : (anchorBytes s a).length = 32 := by
  simp [anchorBytes, withCrc, length_leBytes, length_padTo]

/-! ## O40 -/

section
variable {s : State} (h : stoppedB s = false)
include h

theorem exec_rateWrite_running (v : Nat) : exec (.rateWrite v) s = .next (doRateWrite v s) := next_congr (if_neg (by simp [h]))

theorem exec_step_running (v : Nat) : exec (.step v) s = .next (doStep v s) := next_congr (if_neg (by simp [h]))

theorem exec_anchorCommit_running : exec .anchorCommit s = .next (doAnchorCommit s) := next_congr (if_neg (by simp [h]))

/-- The next whole second is written, and no other value (R312). -/
theorem exec_ppsNextWrite_running {k : Int} (hk : nextSecond s = unsgn 32 k) (v : Nat) :
    (v % 2 ^ 32 = unsgn 32 k → ∃ t, exec (.ppsNextWrite v) s = .next t ∧ rd t TSU_PPS_NEXT_NS = unsgn 32 k ∧
      (∀ a, a ≠ TSU_PPS_NEXT_NS.addr → reg t a = reg s a) ∧ ∀ x, x ≠ .regs → StateField.same x s t) ∧
    (v % 2 ^ 32 ≠ unsgn 32 k → exec (.ppsNextWrite v) s = .next s) := by
  refine ⟨fun hv => ⟨_, next_congr (if_neg (by rw [hk]; simp [h, ← hv])), (rd_wr_same (by decide) (by decide)).trans hv, fun a ha =>
    reg_wr_ne ha.symm, fun x hx => (wr_ev (H := [.regs]) rfl (ev_refl _ s) _ _).same (by simpa using hx)⟩, fun hv =>
    next_congr (if_pos (.inr (by rw [hk]; exact hv)))⟩

end

/-- Settles O40, command by command. -/
theorem counterSecondsAndSteps : Obligations.CounterSecondsAndSteps := by
  refine fun s => ⟨fun o ho => ?_, fun h => ⟨fun v => ?_, fun v hr => ?_, fun v hr => ?_, ?_, fun a rest ha => ?_, fun ha => ?_⟩,
    fun h => ⟨fun v => ⟨next_congr (if_pos h), next_congr (if_pos h), next_congr (if_pos (.inl h))⟩, next_congr (if_pos h)⟩,
    fun h => ?_, fun h => next_congr (if_neg (by simp [h])), length_anchorBytes s⟩
  · rw [exec_timeNsRead, execTimeNsRead, doTimeNsRead_of_present ho]
    exact ⟨_, rfl, rfl, timeHiOf_latchHi o, fun o' h => timeHiOf_latchHi_other h, fun x h1 h2 =>
      (emit_ev (H := [.out, .time]) rfl (ev_mono rfl (ev_refl _ s) (latchHi_evolves o s)) _).same (by simp [h1, h2])⟩
  · rw [exec_rateWrite_running h]
    exact ⟨_, rfl, fun hf => (rd_doRateWrite v).trans (rateLimit_free hf _), fun m ha hm => (rd_doRateWrite v).trans (rateLimit_bound ha hm _),
      fun a ha => reg_wr_ne ha.symm, fun x hx => (wr_ev (H := [.regs]) rfl (ev_refl _ s) _ _).same (by simpa using hx)⟩
  · rw [exec_step_running h, doStep, if_neg (by simp [hr])]
    refine ⟨_, _, rfl, ?_, rd_stepBy_pps _ s, fun g hg => trgNext_stepBy _ s hg, (rd_stepBy_value _ s).trans (unsgn32_sgn v),
      rd_stepBy_count _ s, rd_stepBy_stepped _ s, congrArg TimeSt.anchors (stepBy_time _ s), rfl, rfl,
      (congrArg TimeSt.armed (stepBy_time _ s)).trans rfl, fun x h1 h2 h3 =>
      (stepBy_ev (H := [.now, .regs, .time]) rfl (ev_refl _ s) _).same (by simp [h1, h2, h3])⟩
    rw [stepBy_now, cast_add64]
  · rw [exec_step_running h, doStep, if_pos hr]
  · obtain ⟨k, hk, hlo, hhi, hm⟩ := nextSecond_spec s
    exact ⟨k, hlo, hhi, hm, exec_ppsNextWrite_running h hk⟩
  · rw [exec_anchorCommit_running h, doAnchorCommit_due ha]
  · rw [exec_anchorCommit_running h, doAnchorCommit_none ha]
  · rw [exec_secondBoundary, execSecondBoundary, doSecondBoundary_due h]
    refine ⟨_, boundaryAnchor s, rfl, rfl, rfl, rfl, rfl, ?_, rd_wr_same (by decide) (by decide), fun x h1 h2 =>
      (wr_ev (H := [.regs, .time]) rfl (wr_ev rfl (ev_time rfl (ev_refl _ s)) _ _) _ _).same (by simp [h1, h2])⟩
    rw [rd_wr_addr (by decide), rd_wr_same (by decide) (by decide)]
    exact Nat.mod_eq_of_lt (rd_lt s TSU_PPS_NEXT_NS)

end Sys2Proof.Machine

/-! PROOFS. The synchronisation states and the offset measurements (R311). -/

namespace Sys2Proof.Machine
open Sys2Proof

/-! ## Entering a state -/

/-- The registers that entering a synchronisation state writes. -/
def syncWord (a : Nat) : Prop := a = 0x900004 ∨ a = 0x900028 ∨ weaveWord a

section
variable {s : State} {st : Nat}

theorem enterSync_same (h : syncState s = st) : enterSync st s = s := if_pos h

section
variable (h : syncState s ≠ st)
include h

theorem enterSync_eq : enterSync st s = sendLsaIfChanged
    ({ s with time := { s.time with lockRun := 0, badRun := 0 } } |> wr TSU_STATE_STATE st |> wr TSU_EVT_STATE 1) := if_neg h

theorem rd_enterSync_state : rd (enterSync st s) TSU_EVT_STATE = 1 := by
  rw [enterSync_eq h, (sendLsaIfChanged_kept _).rd (by simp [weaveWord]), rd_wr_same (by decide) (by decide)]
  rfl

theorem syncState_enterSync (hst : st < 16) : syncState (enterSync st s) = st := by
  rw [enterSync_eq h, syncState, (sendLsaIfChanged_kept _).rd (by simp [weaveWord]), rd_wr_addr (by decide)]
  exact rd_wr_fits (by decide) (by decide) hst

theorem enterSync_time : (enterSync st s).time = { s.time with lockRun := 0, badRun := 0 } := by
  rw [enterSync_eq h]
  exact (sendLsaIfChanged_ev (H := [.regs, .weaves, .fab, .out]) rfl (ev_refl _ _)).same (x := .time) (by decide)

end

theorem enterSync_kept (st : Nat) (s : State) : RegsKept syncWord s (enterSync st s) := by
  by_cases h : syncState s = st
  · rw [enterSync_same h]
    exact .refl _ s
  · rw [enterSync_eq h]
    have k : RegsKept syncWord s { s with time := { s.time with lockRun := 0, badRun := 0 } } := .of_eq rfl rfl
    exact ((k.wr (.inl rfl)).wr (.inr (.inl rfl))).trans ((sendLsaIfChanged_kept _).mono fun a h => .inr (.inr h))

theorem rd_enterSync_stepped (st : Nat) (s : State) : rd (enterSync st s) TSU_EVT_STEPPED = rd s TSU_EVT_STEPPED := by
  by_cases h : syncState s = st
  · rw [enterSync_same h]
  · rw [enterSync_eq h, (sendLsaIfChanged_kept _).rd (by simp [weaveWord]), rd_wr_bits (by decide) (by decide) (by decide),
      rd_wr_addr (by decide)]
    exact rd_regs rfl rfl

theorem enterSync_measured (st : Nat) (s : State) : (enterSync st s).time.measured = s.time.measured := by
  by_cases h : syncState s = st
  · rw [enterSync_same h]
  · rw [enterSync_time h]

theorem enterSync_now (st : Nat) (s : State) : (enterSync st s).now = s.now :=
  (enterSync_ev (H := [.regs, .weaves, .fab, .time, .out]) rfl (ev_refl _ s) st).same (x := .now) (by decide)

theorem loseSync_synchronised (h : syncState s = 1 ∨ syncState s = 2) :
    loseSync s = recordError ((tsuErr 1 0).setting TSU_EVT_SYNC_LOST) (enterSync 3 s) := if_pos h

theorem loseSync_idle (h1 : syncState s ≠ 1) (h2 : syncState s ≠ 2) : loseSync s = s := if_neg (by simp [h1, h2])

end

/-! ## Taking a measurement -/

theorem noteMaster_evolves (diff at_ : Int) (s : State) : Evolves [.time] s (noteMaster diff at_ s) := ev_time rfl (ev_refl _ s)

theorem syncState_congr {s t : State} (hr : t.regs = s.regs) (hc : t.chip = s.chip) : syncState t = syncState s := rd_regs hr hc

theorem timeCfg_congr {s t : State} (h : sameBanks s t) (r : RF) : timeCfg t r = timeCfg s r := h.cfgI _ r

/-- The state with the latest measurement taken. -/
def measurementTaken (diff at_ : Int) (s : State) : State := noteMaster diff at_ { s with time := { s.time with measured := none } }

/-- The measurement shown in TSU_OFFSET. -/
def offsetShown (off diff at_ : Int) (s : State) : State := wr TSU_OFFSET_VALUE (unsgn 32 off) (measurementTaken diff at_ s)

/-- The first measurement of a free device is so large that the counter is stepped (R311). -/
def firstBig (s : State) (off : Int) : Bool := syncState s == 0 && decide (10000 < off.natAbs)

/-- The measurement shown, and the distance of synchronised time from the counter that goes with it. -/
def measurementShown (off diff at_ : Int) (s : State) : State :=
  let u := offsetShown off diff at_ s
  { u with time := { u.time with base := nearestWrap (if firstBig u off then diff + off else diff) } }

section
variable {s : State} {off diff at_ : Int}

theorem measurementTaken_evolves : Evolves [.time] s (measurementTaken diff at_ s) :=
  ev_mono rfl (ev_time rfl (ev_refl [.time] s)) (noteMaster_evolves ..)

theorem timeCfg_measurementTaken (r : RF) : timeCfg (measurementTaken diff at_ s) r = timeCfg s r :=
  timeCfg_congr ⟨reg_congr rfl rfl, rfl, rfl, rfl, rfl⟩ r

theorem offsetShown_kept : RegsKept (· = 0x900008) s (offsetShown off diff at_ s) := by
  have k : RegsKept (· = 0x900008) s (measurementTaken diff at_ s) := .of_eq rfl rfl
  exact k.wr (r := TSU_OFFSET_VALUE) rfl

theorem syncState_offsetShown : syncState (offsetShown off diff at_ s) = syncState s := offsetShown_kept.rd (by decide)

theorem measurementShown_kept : RegsKept (· = 0x900008) s (measurementShown off diff at_ s) := by
  exact offsetShown_kept.trans (.of_eq rfl rfl)

theorem rd_measurementShown : rd (measurementShown off diff at_ s) TSU_OFFSET_VALUE = unsgn 32 off :=
  (rd_regs (s := offsetShown off diff at_ s) rfl rfl).trans
    (rd_wr_fits (by decide) (by decide) (unsgn_lt 32 _))

theorem syncState_measurementShown : syncState (measurementShown off diff at_ s) = syncState s := measurementShown_kept.rd (by decide)

theorem timeCfg_measurementShown (r : RF) : timeCfg (measurementShown off diff at_ s) r = timeCfg s r :=
  timeCfg_congr (s := s) ⟨(measurementShown_kept (s := s)).reg (by decide), rfl, rfl, rfl, rfl⟩ r

theorem measurementShown_time : (measurementShown off diff at_ s).time.measured = none ∧
    (measurementShown off diff at_ s).time.lockRun = s.time.lockRun ∧ (measurementShown off diff at_ s).time.badRun = s.time.badRun ∧
    (measurementShown off diff at_ s).time.anchors = s.time.anchors ∧ (measurementShown off diff at_ s).now = s.now :=
  ⟨rfl, rfl, rfl, rfl, rfl⟩

section
variable (hm : s.time.measured = some (off, diff, at_))
include hm

theorem doOffsetMeasurement_some : doOffsetMeasurement s =
    if timeCfg (measurementTaken diff at_ s) TSU_CFG_SOURCE = 0 then measurementTaken diff at_ s
    else
      let w := offsetShown off diff at_ s
      let u := measurementShown off diff at_ s
      if syncState w == 0 then (if firstBig w off then stepBy (-off) (enterSync 1 u) else enterSync 1 u)
      else if syncState u = 3 then enterSync 1 u
      else judgeOffset off u := by
  unfold doOffsetMeasurement
  rw [hm]
  rfl

theorem doOffsetMeasurement_noSource (h : timeCfg s TSU_CFG_SOURCE = 0) : doOffsetMeasurement s = measurementTaken diff at_ s := by
  rw [doOffsetMeasurement_some hm, if_pos ((timeCfg_measurementTaken _).trans h)]

variable (h : timeCfg s TSU_CFG_SOURCE ≠ 0)
include h

theorem doOffsetMeasurement_taken : doOffsetMeasurement s =
    let u := measurementShown off diff at_ s
    if syncState s = 0 then (if 10000 < off.natAbs then stepBy (-off) (enterSync 1 u) else enterSync 1 u)
    else if syncState s = 3 then enterSync 1 u else judgeOffset off u := by
  rw [doOffsetMeasurement_some hm, if_neg (by rwa [timeCfg_measurementTaken])]
  simp only [firstBig, syncState_offsetShown, syncState_measurementShown, beq_iff_eq, Bool.and_eq_true, decide_eq_true_eq]
  by_cases h0 : syncState s = 0 <;> simp [h0]

end
end

/-! ## Judging an offset -/

/-- The state with the two counts of measurements in a row. -/
def withRuns (lock bad : Nat) (s : State) : State := { s with time := { s.time with lockRun := lock, badRun := bad } }

theorem withRuns_kept (P : Nat → Prop) (lock bad : Nat) (s : State) : RegsKept P s (withRuns lock bad s) := .of_eq rfl rfl

theorem syncState_withRuns (lock bad : Nat) (s : State) : syncState (withRuns lock bad s) = syncState s := rd_regs rfl rfl

section
variable {u : State} {off : Int}

section
variable (h : syncState u = 1)
include h

theorem judgeOffset_locks (hin : off.natAbs ≤ timeCfg u TSU_CFG_LOCK_NS) (hn : 7 ≤ u.time.lockRun) :
    judgeOffset off u = dueExtra (enterSync 2 u) := by simp [judgeOffset, h, hin, hn]

theorem judgeOffset_counts (hin : off.natAbs ≤ timeCfg u TSU_CFG_LOCK_NS) (hn : u.time.lockRun < 7) :
    judgeOffset off u = withRuns (u.time.lockRun + 1) u.time.badRun u := by
  unfold judgeOffset
  rw [if_pos h, if_pos hin, if_neg (by omega)]
  rfl

theorem judgeOffset_outside (hout : timeCfg u TSU_CFG_LOCK_NS < off.natAbs) : judgeOffset off u = withRuns 0 u.time.badRun u := by
  simp only [judgeOffset, if_pos h, if_neg (Nat.not_le.mpr hout)]
  rfl

end

section
variable (h : syncState u = 2)
include h

theorem judgeOffset_loses (hout : 4 * timeCfg u TSU_CFG_LOCK_NS < off.natAbs) (hn : 1 ≤ u.time.badRun) :
    judgeOffset off u = enterSync 1 u := by simp [judgeOffset, h, hout, hn]

theorem judgeOffset_bad (hout : 4 * timeCfg u TSU_CFG_LOCK_NS < off.natAbs) (hn : u.time.badRun = 0) :
    judgeOffset off u = withRuns u.time.lockRun 1 u := by
  unfold judgeOffset
  rw [if_neg (by omega), if_pos h, if_pos hout, hn, if_neg (by omega)]
  rfl

theorem judgeOffset_good (hin : off.natAbs ≤ 4 * timeCfg u TSU_CFG_LOCK_NS) : judgeOffset off u = withRuns u.time.lockRun 0 u := by
  have h1 : syncState u ≠ 1 := by omega
  simp only [judgeOffset, if_neg h1, if_pos h, if_neg (Nat.not_lt.mpr hin)]
  rfl

end

theorem judgeOffset_idle (h1 : syncState u ≠ 1) (h2 : syncState u ≠ 2) : judgeOffset off u = u := by simp [judgeOffset, h1, h2]

/-- What a judged offset can come to. -/
theorem judgeOffset_cases (off : Int) (u : State) : judgeOffset off u = dueExtra (enterSync 2 u) ∨ judgeOffset off u = enterSync 1 u ∨
    ∃ lock bad, judgeOffset off u = withRuns lock bad u := by
  by_cases h1 : syncState u = 1
  · by_cases hin : off.natAbs ≤ timeCfg u TSU_CFG_LOCK_NS
    · by_cases hn : 7 ≤ u.time.lockRun
      · exact .inl (judgeOffset_locks h1 hin hn)
      · exact .inr (.inr ⟨_, _, judgeOffset_counts h1 hin (by omega)⟩)
    · exact .inr (.inr ⟨_, _, judgeOffset_outside h1 (by omega)⟩)
  by_cases h2 : syncState u = 2
  · by_cases hin : off.natAbs ≤ 4 * timeCfg u TSU_CFG_LOCK_NS
    · exact .inr (.inr ⟨_, _, judgeOffset_good h2 hin⟩)
    · by_cases hn : u.time.badRun = 0
      · exact .inr (.inr ⟨_, _, judgeOffset_bad h2 (by omega) hn⟩)
      · exact .inr (.inl (judgeOffset_loses h2 (by omega) (by omega)))
  · exact .inr (.inr ⟨u.time.lockRun, u.time.badRun, judgeOffset_idle h1 h2⟩)

end

theorem dueExtra_anchors (s : State) : ∃ a, (dueExtra s).time.anchors = s.time.anchors ++ [a] ∧ a.extra = true := ⟨_, rfl, rfl⟩

theorem syncState_dueExtra (s : State) : syncState (dueExtra s) = syncState s := rd_regs rfl rfl

/-- The registers, the measurement that waits and the counter: what the judgement of a measurement keeps of them. -/
def measurementKept (u t : State) : Prop :=
  rd t TSU_OFFSET_VALUE = rd u TSU_OFFSET_VALUE ∧ t.time.measured = u.time.measured ∧ t.now = u.now ∧
    rd t TSU_EVT_STEPPED = rd u TSU_EVT_STEPPED

theorem enterSync_measurementKept (st : Nat) (u : State) : measurementKept u (enterSync st u) :=
  ⟨(enterSync_kept st u).rd (by simp [syncWord, weaveWord]), enterSync_measured st u, enterSync_now st u, rd_enterSync_stepped st u⟩

theorem dueExtra_measurementKept {u t : State} (h : measurementKept u t) : measurementKept u (dueExtra t) :=
  ⟨(rd_regs rfl rfl).trans h.1, h.2.1, h.2.2.1, (rd_regs rfl rfl).trans h.2.2.2⟩

theorem judgeOffset_measurementKept (off : Int) (u : State) : measurementKept u (judgeOffset off u) := by
  rcases judgeOffset_cases off u with h | h | ⟨lock, bad, h⟩
  · rw [h]
    exact dueExtra_measurementKept (enterSync_measurementKept 2 u)
  · rw [h]
    exact enterSync_measurementKept 1 u
  · rw [h]
    exact ⟨rd_regs rfl rfl, rfl, rfl, rd_regs rfl rfl⟩

/-! ## O41 -/

section
variable {s : State} {off diff at_ : Int} (hm : s.time.measured = some (off, diff, at_)) (h : timeCfg s TSU_CFG_SOURCE ≠ 0)
include hm h

/-- A measurement is shown and taken whatever it comes to, and only the first of a free device can step the counter. -/
theorem doOffsetMeasurement_shows : rd (doOffsetMeasurement s) TSU_OFFSET_VALUE = unsgn 32 off ∧
    (doOffsetMeasurement s).time.measured = none ∧
    (syncState s ≠ 0 → (doOffsetMeasurement s).now = s.now ∧ rd (doOffsetMeasurement s) TSU_EVT_STEPPED = rd s TSU_EVT_STEPPED) := by
  have stepped : rd (measurementShown off diff at_ s) TSU_EVT_STEPPED = rd s TSU_EVT_STEPPED := measurementShown_kept.rd (by decide)
  have shows {t : State} (k : measurementKept (measurementShown off diff at_ s) t) : rd t TSU_OFFSET_VALUE = unsgn 32 off ∧
      t.time.measured = none ∧ (syncState s ≠ 0 → t.now = s.now ∧ rd t TSU_EVT_STEPPED = rd s TSU_EVT_STEPPED) :=
    ⟨k.1.trans rd_measurementShown, k.2.1, fun _ => ⟨k.2.2.1, k.2.2.2.trans stepped⟩⟩
  have entered := shows (enterSync_measurementKept 1 _)
  rw [doOffsetMeasurement_taken hm h]
  extract_lets u
  split
  · next h0 =>
    split
    · refine ⟨((stepBy_kept (-off) _).rd (by simp [stepWord, generatorWord])).trans entered.1, ?_, fun hn => absurd h0 hn⟩
      rw [stepBy_time]
      exact entered.2.1
    · exact entered
  · split
    · exact entered
    · exact shows (judgeOffset_measurementKept off u)

/-- The first measurement of a free device: it begins to acquire, and a large offset is removed by a step. -/
theorem doOffsetMeasurement_first (h0 : syncState s = 0) :
    syncState (doOffsetMeasurement s) = 1 ∧ rd (doOffsetMeasurement s) TSU_EVT_STATE = 1 ∧
      (off.natAbs ≤ 10000 → (doOffsetMeasurement s).now = s.now) ∧
      (10000 < off.natAbs → ((doOffsetMeasurement s).now : Int) = (s.now - off) % 2 ^ 64 ∧
        rd (doOffsetMeasurement s) TSU_EVT_STEPPED = 1) := by
  have hne : syncState (measurementShown off diff at_ s) ≠ 1 := by rw [syncState_measurementShown, h0]; decide
  have hst := syncState_enterSync hne (by decide)
  have hevt := rd_enterSync_state hne
  have hnow : (enterSync 1 (measurementShown off diff at_ s)).now = s.now := enterSync_now 1 _
  rw [doOffsetMeasurement_taken hm h]
  extract_lets u
  rw [if_pos h0]
  split
  · next hbig =>
    refine ⟨((stepBy_kept (-off) _).rd (by simp [stepWord, generatorWord])).trans hst, (rd_stepBy_state _ _).trans hevt,
      fun hs => absurd hs (by omega), fun _ => ⟨?_, rd_stepBy_stepped _ _⟩⟩
    rw [stepBy_now, cast_add64, hnow, ← Int.sub_eq_add_neg]
  · next hsmall => exact ⟨hst, hevt, fun _ => hnow, fun hb => absurd hb hsmall⟩

end

/-- Settles O41: what a measurement comes to by the state and the offset, and the loss of synchronisation. -/
theorem synchronisationStates : Obligations.SynchronisationStates := by
  refine fun s => ⟨fun hn => ?_, fun h => ?_, fun off diff at_ hm h => ?_, fun h => ?_, fun h1 h2 => next_congr (loseSync_idle h1 h2)⟩
  · exact next_congr (by simp [doOffsetMeasurement, hn])
  · cases hm : s.time.measured with
    | none => exact ⟨s, next_congr (by simp [doOffsetMeasurement, hm]), hm, rfl, rfl, fun x _ => same_refl x s⟩
    | some m =>
      obtain ⟨off, diff, at_⟩ := m
      exact ⟨_, next_congr (doOffsetMeasurement_noSource hm h), rfl, rfl, rfl, fun x hx =>
        (measurementTaken_evolves (s := s)).same (by simpa using hx)⟩
  · have e := doOffsetMeasurement_taken hm h
    have hst : syncState (measurementShown off diff at_ s) = syncState s := syncState_measurementShown
    obtain ⟨hoff, hmeas, hstill⟩ := doOffsetMeasurement_shows hm h
    refine ⟨doOffsetMeasurement s, rfl, hoff, hmeas, fun h0 => ?_, hstill, fun h3 => ?_, fun h1 => ⟨fun hin hn => ?_, fun hin hn => ?_,
      fun hout => ?_⟩, fun h2 => ⟨fun hout hn => ?_, fun hout hn => ?_, fun hin => ?_⟩⟩
    · exact doOffsetMeasurement_first hm h h0
    · rw [e, if_neg (by omega), if_pos h3]
      exact syncState_enterSync (by omega) (by decide)
    all_goals
      rw [e, if_neg (by omega), if_neg (by omega)]
    · rw [judgeOffset_locks (hst.trans h1) (by rwa [timeCfg_measurementShown]) hn]
      obtain ⟨a, ha, hextra⟩ := dueExtra_anchors (enterSync 2 (measurementShown off diff at_ s))
      refine ⟨(syncState_dueExtra _).trans (syncState_enterSync (by omega) (by decide)), a, ha.trans ?_, hextra⟩
      rw [enterSync_time (by omega)]
      rfl
    · rw [judgeOffset_counts (hst.trans h1) (by rwa [timeCfg_measurementShown]) hn, syncState_withRuns]
      exact ⟨hst.trans h1, rfl⟩
    · rw [judgeOffset_outside (hst.trans h1) (by rwa [timeCfg_measurementShown]), syncState_withRuns]
      exact ⟨hst.trans h1, rfl⟩
    · rw [judgeOffset_loses (hst.trans h2) (by rwa [timeCfg_measurementShown]) hn]
      exact syncState_enterSync (by omega) (by decide)
    · rw [judgeOffset_bad (hst.trans h2) (by rwa [timeCfg_measurementShown]) hn, syncState_withRuns]
      exact ⟨hst.trans h2, rfl⟩
    · rw [judgeOffset_good (hst.trans h2) (by rwa [timeCfg_measurementShown]), syncState_withRuns]
      exact ⟨hst.trans h2, rfl⟩
  · exact ⟨_, next_congr (loseSync_synchronised h), rfl, syncState_enterSync (by omega) (by decide), rd_enterSync_state (by omega),
      enterSync_now 3 s⟩

end Sys2Proof.Machine

/-! PROOFS. Trigger generators: fires, writes of NEXT and realignment (R316 to R322). -/

namespace Sys2Proof.Machine
open Sys2Proof

section
variable {s : State} {g : Nat}

/-! ## Fires (R316, R321) -/

theorem trgEnabled_lt (h : trgEnabled s g = true) : g < 32 := by
  simp only [trgEnabled, Bool.and_eq_true, decide_eq_true_eq] at h
  exact h.1

theorem doTriggerFire_idle (h : trgEnabled s g = false ∨ hasBit s.time.armed g = false ∨ now64 s < firePoint s (trgNext s g)) :
    doTriggerFire g s = s := by
  refine if_neg ?_
  rcases h with h | h | h <;> simp [h]

/-- What a fire hands to the ports and to the PWM channels. -/
def fired (g : Nat) (s : State) : State :=
  ((List.range 20).filter fun p => hasBit (timeCfg s (TSU_TRG_CFG_PORTS g)) p && cpPresent s.variant p).foldl
    (fireAtPort g (trgNext s g) (islandEpoch s islTIME)) s |> firePwm g (trgNext s g)

theorem timeCfg_firePwm (g t : Nat) (s : State) (r : RF) : timeCfg (firePwm g t s) r = timeCfg s r := by
  have h := firePwm_ev (H := [.pins, .pwms, .out]) rfl (ev_refl _ s) g t
  exact timeCfg_congr (sameBanks_of_evolves h (reg_congr (h.same (x := .regs) (by decide)) h.chip)) r

theorem doTriggerFire_due (he : trgEnabled s g = true) (ha : hasBit s.time.armed g = true) (h : firePoint s (trgNext s g) ≤ now64 s) :
    doTriggerFire g s =
      checkSwap (setTrgNext g (add64 (trgNext s g) (timeCfg (fired g s) (TSU_TRG_PERIOD_NS g))) (fired g s)) := by
  rw [fired, timeCfg_firePwm]
  exact if_pos (by simp [he, ha, h])

/-! ## Writes of NEXT (R317, R319) -/

theorem hasBit_withBit (v n : Nat) : hasBit (withBit v n) n = true := by simp [hasBit, withBit]

theorem writeNext_late {x : Nat} (h : firePoint s x < now64 s + 1000) :
    writeNext g x s = recordError ((tsuErr 2 g).setting TSU_EVT_TRG_REJ) s := if_pos h

/-- A time far enough ahead: the generator takes it and is armed. -/
theorem writeNext_taken (hg : g < 32) {x : Nat} (hx : x < 2 ^ 64) (h : now64 s + 1000 ≤ firePoint s x) :
    trgNext (writeNext g x s) g = x ∧ hasBit (writeNext g x s).time.armed g = true ∧
      (∀ j, j < 32 → j ≠ g → trgNext (writeNext g x s) j = trgNext s j) ∧
      ∀ y, y ≠ .regs → y ≠ .time → StateField.same y s (writeNext g x s) := by
  have e : writeNext g x s = setTrgNext g x { s with time := { s.time with armed := withBit s.time.armed g } } :=
    if_neg (by omega)
  rw [e]
  refine ⟨trgNext_setTrgNext_same _ _ hg hx, hasBit_withBit _ _, fun j hj hne => ?_, fun y h1 h2 =>
    (setTrgNext_ev (H := [.regs, .time]) rfl (ev_time rfl (ev_refl _ s)) g x).same (by simp [h1, h2])⟩
  rw [trgNext_setTrgNext_ne _ _ hg hj hne]
  exact trgNext_of_kept (P := fun _ => False) (.of_eq rfl rfl) j id id

/-! ## Realignment (R318 to R320) -/

/-- The earliest time of which a realigned trigger may be: not before NEXT and far enough ahead. -/
def realignLeast (s : State) (g : Nat) : Int := max (sgn 64 (trgNext s g)) (now64 s + 1000 + timeCfg s TSU_TRG_ADV_US * 1000)

theorem alignedFrom_spec (h : 0 < timeCfg s (TSU_TRG_PERIOD_NS g)) (t : Int) :
    alignedFrom s g t < t + timeCfg s (TSU_TRG_PERIOD_NS g) ∧ t ≤ alignedFrom s g t ∧
      (alignedFrom s g t + syncBase s - timeCfg s (TSU_TRG_PHASE_NS g)) % timeCfg s (TSU_TRG_PERIOD_NS g) = 0 := by
  have hpos : (0 : Int) < timeCfg s (TSU_TRG_PERIOD_NS g) := by exact_mod_cast h
  simp only [alignedFrom]
  have hlt := Int.emod_lt_of_pos (timeCfg s (TSU_TRG_PHASE_NS g) - (t + syncBase s)) hpos
  have hge := Int.emod_nonneg (timeCfg s (TSU_TRG_PHASE_NS g) - (t + syncBase s)) hpos.ne'
  refine ⟨by omega, by omega,
    Int.emod_eq_zero_of_dvd ⟨-((timeCfg s (TSU_TRG_PHASE_NS g) - (t + syncBase s)) / timeCfg s (TSU_TRG_PERIOD_NS g)), ?_⟩⟩
  have := Int.mul_ediv_add_emod (timeCfg s (TSU_TRG_PHASE_NS g) - (t + syncBase s)) (timeCfg s (TSU_TRG_PERIOD_NS g))
  rw [mul_neg]
  omega

theorem doTriggerRealign_enabled (h : trgEnabled s g = true) : doTriggerRealign g s =
    writeNext g (unsgn 64 (alignedFrom (doTriggerFire g s) g (realignLeast (doTriggerFire g s) g))) (doTriggerFire g s) := if_pos h

theorem le_sgn64 (v : Nat) : -2 ^ 63 ≤ sgn 64 v := by
  unfold sgn
  dsimp only
  split <;> omega

/-- An aligned time from the least one on is far enough ahead to be written. -/
theorem firePoint_aligned {tm : Int} (hl : realignLeast s g ≤ tm) (hh : tm < 2 ^ 63) : now64 s + 1000 ≤ firePoint s (unsgn 64 tm) := by
  unfold realignLeast at hl
  have hnext := le_sgn64 (trgNext s g)
  rw [firePoint, sgn_unsgn (by decide) (show -2 ^ (64 - 1) ≤ tm by omega) (by omega)]
  omega

/-- Settles O42, command by command: a write and a realignment act on the state that a fire which is due leaves. -/
theorem triggerGenerators : Obligations.TriggerGenerators := by
  refine fun s g => ⟨fun h => next_congr (doTriggerFire_idle h), fun he ha h => ?_, fun hi lo h => ?_, fun hi lo hg hs => ?_,
    fun he hs => ⟨_, rfl, fun hper => ?_⟩, fun h => ?_, fun x hx => if_neg (by omega)⟩
  · refine ⟨_, fired g s, next_congr (doTriggerFire_due he ha h), rfl, ?_, ?_⟩
    all_goals rw [trgNext_setTrgNext_same _ _ (trgEnabled_lt he) (add64_lt _ _)]
    have := cast_add64 (trgNext s g) (timeCfg (fired g s) (TSU_TRG_PERIOD_NS g))
    omega
  · refine next_congr (if_neg ?_)
    rcases h with h | h <;> simp [h]
  · have e (x : Nat) : (if g < 32 ∧ (!stoppedA s) = true then replaceNext g x s else s) = writeNext g x (doTriggerFire g s) :=
      if_pos ⟨hg, by simp [hs]⟩
    refine ⟨_, rfl, ?_⟩
    intro x
    exact ⟨fun h => next_congr ((e x).trans (writeNext_late h)), fun h =>
      ⟨_, next_congr (e x), writeNext_taken hg (x := x) (by simp only [x]; omega) h⟩⟩
  · obtain ⟨hlt, hle, hmod⟩ := alignedFrom_spec hper (realignLeast (doTriggerFire g s) g)
    refine ⟨_, hlt, hle, hmod, fun hh => ?_⟩
    obtain ⟨hnext, harmed, -, hsame⟩ :=
      writeNext_taken (trgEnabled_lt he) (unsgn_lt 64 _) (firePoint_aligned (s := doTriggerFire g s) (g := g) hle hh)
    exact ⟨_, next_congr ((if_neg (by simp [hs])).trans (doTriggerRealign_enabled he)), hnext, harmed, hsame⟩
  · rcases h with h | h
    · refine next_congr ?_
      split
      · rfl
      · exact if_neg (by simp [h])
    · exact next_congr (if_pos h)

end

end Sys2Proof.Machine

/-! PROOFS. Sync, Follow_Up and peer-delay messages (R311, R313, R314). -/

namespace Sys2Proof.Machine
open Sys2Proof

/-! ## What a change of a port's own state leaves -/

theorem timeCfg_setEth (p : Nat) (x : EthSt) (s : State) (r : RF) : timeCfg (setEth p x s) r = timeCfg s r := cfgI_setEth ..

theorem ethCfg_setEth (p : Nat) (x : EthSt) (s : State) (r : RF) : ethCfg (setEth p x s) r = ethCfg s r := cfgI_setEth ..

theorem asCapable_setEth (p : Nat) (x : EthSt) (s : State) (j : Nat) : asCapable (setEth p x s) j = asCapable s j := isSet_setEth ..

theorem ptpOn_domain {s : State} {p d : Nat} (h : ptpOn s p d = true) : ethCfg s (ETH_CFG_DOMAIN p) = d := by
  simp only [ptpOn, Bool.and_eq_true, beq_iff_eq] at h
  exact h.2

section
variable {s : State} {p seq : Nat}

/-! ## Follow_Up and what a master passes on -/

/-- The time of a followed Sync, with what its Follow_Up brought. -/
def followed (p origin corr rate : Nat) (rx : Int) (s : State) : State :=
  setEth p { ethOf s p with sync := none, follow := some (origin, rndDiv (sgn 64 corr * 10) (2 ^ 16), sgn 32 rate, rx) } s

theorem doFollowUp_noted {rx : Int} (h : (ethOf s p).sync = some (seq, rx)) (origin corr rate : Nat) (gm : List Nat) :
    doFollowUp p seq origin corr rate gm s =
      let u := followed p origin corr rate rx s
      let diff := rndDiv ((origin : Int) + rndDiv (sgn 64 corr * 10) (2 ^ 16) + 10 * rd s (ETH_STAT_PDELAY p) - rx) 10
      if timeCfg s TSU_CFG_SOURCE = 1 ∧ timeCfg s TSU_CFG_SLAVE_EP = p ∧ asCapable s p = true then
        { u with time := { u.time with measured := some (sgn 32 (unsgn 32 (-diff)), diff, rndDiv rx 10), gmId := padTo 8 gm } }
      else u := by
  unfold doFollowUp
  rw [h]
  simp only [followed, ne_eq, not_true_eq_false, if_false, timeCfg_setEth, asCapable_setEth, rd_setEth]

theorem syncContent_master (h : slavePort s = none) (tx : Int) :
    syncContent s tx = some (tx + 10 * s.time.base, 0, 0, beBytes 8 s.chip.uid) := by simp only [syncContent, h]; rfl

theorem syncContent_relay {q : Nat} {o c r rx : Int} (h : slavePort s = some q) (hf : (ethOf s q).follow = some (o, c, r, rx)) (tx : Int) :
    syncContent s tx =
      let rate := chainRates r (ethOf s q).nrr
      let w : Int := 10 * rd s (ETH_STAT_PDELAY q) + (tx - rx)
      some (o, c + w + rndDiv (w * rate) (2 ^ 41), rate, s.time.gmId) := by simp only [syncContent, h, hf, Option.map_some]

theorem syncContent_untimed {q : Nat} (h : slavePort s = some q) (hf : (ethOf s q).follow = none) (tx : Int) : syncContent s tx = none := by
  simp only [syncContent, h, hf, Option.map_none]

theorem doSyncSend_content {stamp : Nat} {o c r : Int} {gm : List Nat} (h : syncContent s (txTime s p stamp) = some (o, c, r, gm)) :
    doSyncSend p stamp s =
      (s |> setEth p { ethOf s p with syncSeq := ((ethOf s p).syncSeq + 1) % 65536 }
        |> emit (.ethFrame p 0 [ethCfg s (ETH_CFG_DOMAIN p), (ethOf s p).syncSeq])
        |> emit (.ethFrame p 1 ([ethCfg s (ETH_CFG_DOMAIN p), (ethOf s p).syncSeq, unsgn 64 o, unsgn 64 c, unsgn 32 r] ++ gm))) := by
  simp only [doSyncSend, h]

theorem doSyncSend_untimed {stamp : Nat} (h : syncContent s (txTime s p stamp) = none) : doSyncSend p stamp s = s := by
  simp only [doSyncSend, h]

/-! ## Peer delay -/

theorem doPdelayResp_open (ho : (ethOf s p).reqAt.isSome = true) (hn : (ethOf s p).pdSeq = seq) (reqRx stamp : Nat) :
    doPdelayResp p seq reqRx stamp s = setEth p { ethOf s p with respAt := some (rxTime s p stamp, (reqRx : Int)) } s := if_pos ⟨ho, hn⟩

theorem doPdelayRespFollowUp_completes {t1 t4 t2 : Int} (h1 : (ethOf s p).reqAt = some t1) (h4 : (ethOf s p).respAt = some (t4, t2))
    (hn : (ethOf s p).pdSeq = seq) (t3 : Nat) : doPdelayRespFollowUp p seq t3 s =
      let y := ethOf s p
      let delay := rndDiv ((t4 - t1) - ((t3 : Int) - t2)) 20
      let u := s |> setEth p { y with
          reqAt := none, respAt := none, missed := 0, good := if delay ≤ 10000 then min 2 (y.good + 1) else 0,
          nrr := neighbourRate y t3 t4, lastResp := some ((t3 : Int), t4) } |> wr (ETH_STAT_PDELAY p) (min 0xFFFF delay.toNat)
      if delay ≤ 10000 ∧ 1 ≤ y.good then wr (ETH_STAT_AS_CAPABLE p) 1 u else u := by
  have hgood (delay : Int) (n : Nat) : (if delay ≤ 10000 then min 2 (n + 1) else 0) = 2 ↔ delay ≤ 10000 ∧ 1 ≤ n := by
    split <;> omega
  simp only [doPdelayRespFollowUp, h1, h4, hn, ne_eq, not_true_eq_false, if_false, hgood]

/-- A request goes out under the next number. -/
def sendPdelayReq (p stamp : Nat) (u : State) : State :=
  u |> setEth p { ethOf u p with pdSeq := ((ethOf u p).pdSeq + 1) % 65536, reqAt := some (txTime u p stamp), respAt := none }
    |> emit (.ethFrame p 2 [ethCfg u (ETH_CFG_DOMAIN p), ((ethOf u p).pdSeq + 1) % 65536])

theorem doPdelayReqSend_idle (h : (ethOf s p).reqAt = none) (stamp : Nat) : doPdelayReqSend p stamp s = sendPdelayReq p stamp s := by
  simp only [doPdelayReqSend, h, Option.isSome_none, Bool.false_eq_true, if_false]
  rfl

section
variable (h : (ethOf s p).reqAt.isSome = true)
include h

theorem doPdelayReqSend_missed (hm : (ethOf s p).missed < 2) (stamp : Nat) : doPdelayReqSend p stamp s =
    sendPdelayReq p stamp (setEth p { ethOf s p with missed := (ethOf s p).missed + 1, good := 0 } s) := by
  have : ¬ 3 ≤ (ethOf s p).missed + 1 := by omega
  simp only [doPdelayReqSend, h, if_true, this, if_false]
  rfl

/-- A port whose peer has not answered three requests is no longer asCapable. -/
def peerLost (p : Nat) (s : State) : State :=
  s |> setEth p { ethOf s p with missed := 0, good := 0 } |> wr (ETH_STAT_AS_CAPABLE p) 0

omit h in
theorem pdelayFail_eq (u : State) : pdelayFail p u =
    let v := recordError ((ethErr 2 p).setting (ETH_EVT_PDELAY_FAIL p)) (peerLost p u)
    if asCapable u p = true ∧ timeCfg u TSU_CFG_SOURCE = 1 ∧ timeCfg u TSU_CFG_SLAVE_EP = p then loseSync v else v := by
  simp only [pdelayFail, Bool.and_eq_true, beq_iff_eq, and_assoc]
  rfl

theorem doPdelayReqSend_fails (hm : 2 ≤ (ethOf s p).missed) (stamp : Nat) : doPdelayReqSend p stamp s =
    sendPdelayReq p stamp (pdelayFail p (setEth p { ethOf s p with missed := (ethOf s p).missed + 1, good := 0 } s)) := by
  have : 3 ≤ (ethOf s p).missed + 1 := by omega
  simp only [doPdelayReqSend, h, if_true, this]
  rfl

end

theorem peerLost_evolves (u : State) : Evolves [.eths, .regs] u (peerLost p u) := wr_ev rfl (setEth_ev rfl (ev_refl _ u) p _) _ _

theorem ethOf_peerLost (u : State) : ethOf (peerLost p u) p = { ethOf u p with missed := 0, good := 0 } := by
  rw [peerLost, ethOf_wr, ethOf_setEth_same]

theorem asCapable_peerLost (u : State) : asCapable (peerLost p u) p = false :=
  isSet_of_rd (n := 0) ((rd_wr_same (by simp) (by simp)).trans (Nat.zero_mod _))

end

/-! ## O43 -/

/-- Settles O43, message by message. -/
theorem syncAndPeerDelay : Obligations.SyncAndPeerDelay := by
  refine fun s p d seq => ⟨fun h => ?_, fun h => ?_, fun hon hst => ?_, fun h stamp => ?_⟩
  · intro y
    refine ⟨fun hr => ⟨fun stamp => ?_, fun rx origin corr rate gm hy => ?_⟩, fun rx tx => ?_, fun reqRx stamp ho hn => ?_,
      fun t1 t4 t2 t3 h1 h4 hn => ?_⟩
    · exact next_congr (if_pos (by simp [h, hr]))
    · exact next_congr ((if_pos (by simp [h, hr])).trans (doFollowUp_noted hy origin corr rate gm))
    · obtain rfl := ptpOn_domain h
      exact next_congr (if_pos h)
    · exact next_congr ((if_pos h).trans (doPdelayResp_open ho hn reqRx stamp))
    · exact next_congr ((if_pos h).trans (doPdelayRespFollowUp_completes h1 h4 hn t3))
  · exact ⟨fun stamp => next_congr (if_neg (by simp [h])), fun a b c gm => next_congr (if_neg (by simp [h])),
      fun a b => next_congr (if_neg (by simp [h])), fun a b => next_congr (if_neg (by simp [h])), fun a => next_congr (if_neg (by simp [h]))⟩
  · intro y
    refine ⟨fun stamp hr => ?_, fun stamp => ?_⟩
    · have e : exec (.syncSend p stamp) s = .next (doSyncSend p stamp s) := next_congr (if_pos (by simp [hon, hst, hr]))
      intro send
      exact ⟨fun h => e.trans (next_congr (doSyncSend_content (syncContent_master h _))),
        fun q o c r rx h hf => e.trans (next_congr (doSyncSend_content (syncContent_relay h hf _))),
        fun q h hf => e.trans (next_congr (doSyncSend_untimed (syncContent_untimed h hf _)))⟩
    · have e : exec (.pdelayReqSend p stamp) s = .next (doPdelayReqSend p stamp s) := next_congr (if_pos (by simp [hon, hst]))
      intro send
      refine ⟨fun h => e.trans (next_congr (doPdelayReqSend_idle h stamp)), fun h hm => e.trans (next_congr (doPdelayReqSend_missed h hm stamp)),
        fun h hm => ⟨peerLost p (setEth p { y with missed := y.missed + 1, good := 0 } s), ?_, asCapable_peerLost _, fun x h1 h2 => ?_, ?_⟩⟩
      · rw [ethOf_peerLost, ethOf_setEth_same]
      · exact (ev_mono rfl (setEth_ev (H := [.eths, .regs]) rfl (ev_refl _ s) p _) (peerLost_evolves _)).same (by simp [h1, h2])
      · rw [e, doPdelayReqSend_fails h hm stamp, pdelayFail_eq]
        simp only [asCapable_setEth, timeCfg_setEth]
        rfl
  · exact ⟨next_congr (if_neg (by simp [h])), next_congr (if_neg (by simp [h]))⟩

end Sys2Proof.Machine

/-! PROOFS. Frames and links of the Ethernet ports, and the diagnostic channel (R323 to R325). -/

namespace Sys2Proof.Machine
open Sys2Proof

section
variable {s : State} {p : Nat}

theorem out_emit (e : Emit) (u : State) : (emit e u).out = u.out ++ [e] := rfl

/-! ## Diagnostic requests (R324, R325) -/

theorem doDiagRequest_off (h : ethCfg s (ETH_CFG_DIAG_EN p) ≠ 1) (src tag ver op seq addr n : Nat) :
    doDiagRequest p src tag ver op seq addr n s = inc (ETH_CNT_DROP p) s := if_pos h

section
variable (h : ethCfg s (ETH_CFG_DIAG_EN p) = 1)
include h

theorem doDiagRequest_limited (hc : 100 ≤ (ethOf s p).diagCount) (ht : upNs s < (ethOf s p).diagFrom + 1000000000)
    (src tag ver op seq addr n : Nat) : doDiagRequest p src tag ver op seq addr n s =
      (s |> inc (ETH_CNT2_DIAG_LIMIT p) |> wr (ETH_EVT_DIAG_LIMIT p) 1) := by
  have hroom : diagRoom s p = false := by simp [diagRoom, hc, ht]
  simp [doDiagRequest, h, hroom]

/-- A request that is not well formed is counted and answered with status 1. -/
theorem doDiagRequest_malformed (hc : (ethOf s p).diagCount < 100) (src tag : Nat) {ver op : Nat} (seq : Nat) {addr n : Nat}
    (hbad : ver ≠ 1 ∨ op ≠ 1 ∨ addr % 4 ≠ 0 ∨ n = 0 ∨ 256 < n) : doDiagRequest p src tag ver op seq addr n s =
      emit (.ethFrame p 5 (leBytes 6 src ++ leBytes 3 tag ++ [1, 0x81] ++ leBytes 2 seq ++ leBytes 4 addr ++ leBytes 2 n
        ++ leBytes 2 1)) (diagCounted p s) := by
  have hroom : diagRoom s p = true := by simp [diagRoom, hc]
  have hgood : ¬ (ver = 1 ∧ op = 1 ∧ addr % 4 = 0 ∧ 1 ≤ n ∧ n ≤ 256) := by omega
  simp only [doDiagRequest, h, hroom, hgood, ne_eq, not_true_eq_false, if_false, Bool.not_true, Bool.false_eq_true, List.flatMap_nil,
    List.append_nil]

end

theorem diagCounted_shows : (diagCounted p s).out = s.out ∧
    rd (diagCounted p s) (ETH_CNT2_DIAG p) = satAdd 16 (rd s (ETH_CNT2_DIAG p)) 1 ∧
    ∀ x, x ≠ .regs → x ≠ .eths → StateField.same x s (diagCounted p s) := by
  unfold diagCounted
  extract_lets x y
  refine ⟨by rw [inc_out, setEth_out], ?_, fun z h1 h2 =>
    (inc_ev (H := [.regs, .eths]) rfl (setEth_ev rfl (ev_refl _ s) p _) _).same (by simp [h1, h2])⟩
  rw [rd_inc_same (by simp) (by simp), rd_setEth]
  rfl

/-! ## Links -/

theorem linkUp_shows : rd (s |> wr (ETH_STAT_LINK p) 1 |> wr (ETH_EVT_LINK_UP p) 1) (ETH_STAT_LINK p) = 1 := by
  simp [rd_wr_other, rd_wr_same]

/-! ## O44 -/

end

/-- Settles O44, command by command. -/
theorem ethernetFramesAndLinks : Obligations.EthernetFramesAndLinks := by
  refine fun s p => ⟨fun h => ⟨fun len tags ty dst bad hb => ?_, fun len tags ty dst hlo hhi => ⟨fun ht ha => ?_, fun hna => ?_⟩,
    fun src tag ver op seq addr n => ⟨fun hd => ?_, fun hd hc ht => ?_, fun hd hc hbad => ?_⟩⟩,
    fun hh => ⟨fun hl => ?_, fun hl => ?_⟩⟩
  · exact next_congr ((if_pos h).trans (if_pos hb))
  · have good : ¬ (false = true ∨ len < 64 ∨ 1522 < len) := by simp; omega
    exact next_congr ((if_pos h).trans ((if_neg good).trans (if_pos ⟨ht, ha⟩)))
  · have good : ¬ (false = true ∨ len < 64 ∨ 1522 < len) := by simp; omega
    exact next_congr ((if_pos h).trans ((if_neg good).trans (if_neg hna)))
  · exact next_congr ((if_pos h).trans (doDiagRequest_off hd ..))
  · exact next_congr ((if_pos h).trans (doDiagRequest_limited hd hc ht ..))
  · obtain ⟨hout, hcnt, hsame⟩ := diagCounted_shows (s := s) (p := p)
    refine ⟨_, next_congr ((if_pos h).trans (doDiagRequest_malformed hd hc src tag seq hbad)), ?_, (rd_emit ..).trans hcnt,
      fun x h1 h2 h3 => same_trans x (hsame x h1 h2) ((emit_ev (H := [.out]) rfl (ev_refl _ _) _).same (by simpa using h3))⟩
    rw [out_emit, hout]
  · have hset : isSet (s |> wr (ETH_STAT_LINK p) 1 |> wr (ETH_EVT_LINK_UP p) 1) (ETH_STAT_LINK p) = true := isSet_of_rd linkUp_shows
    exact ⟨_, next_congr (if_pos (by simp [hh, hl])), linkUp_shows, rd_set_oneBit ⟨rfl, by simp⟩ _, next_congr (if_neg (by simp [hset])),
      next_congr (if_neg (by simp [hl]))⟩
  · exact ⟨_, next_congr (if_pos (by simp [hh, hl])), (rd_wr_same (by simp) (by simp)).trans (Nat.zero_mod _),
      next_congr (if_neg (by simp [hl])), fun x hx => (wr_ev (H := [.regs]) rfl (ev_refl _ s) _ _).same (by simpa using hx)⟩

end Sys2Proof.Machine

/-! PROOFS. Prefetch buffers that are discarded, and the semaphores of bridge windows (R377, R378, R381). -/

namespace Sys2Proof.Machine
open Sys2Proof

/-! ## Discarded buffers -/

/-- The registers of the prefetch buffers, and the bridge's event register. -/
def pfWord (a : Nat) : Prop := a = 0xC00008 ∨ a = 0xC0000C ∨ a = 0xC00010

/-- Two states differ at most in the prefetch buffers and their registers. -/
structure PfOnly (s t : State) : Prop where
  evolves : Evolves [.regs, .brg] s t
  regs : RegsKept pfWord s t
  brg : ∃ pf, t.brg = { s.brg with pf := pf }

section
variable {s t u : State}

theorem PfOnly.refl (s : State) : PfOnly s s := ⟨ev_refl _ s, .refl _ s, _, rfl⟩

theorem PfOnly.trans (h : PfOnly s t) (k : PfOnly t u) : PfOnly s u := by
  obtain ⟨pf, hpf⟩ := h.brg
  obtain ⟨pf', hpf'⟩ := k.brg
  exact ⟨ev_mono (by decide) h.evolves k.evolves, h.regs.trans k.regs, pf', by rw [hpf', hpf]⟩

theorem PfOnly.rd (h : PfOnly s t) {r : RF} (hr : ¬ pfWord r.addr) : Machine.rd t r = Machine.rd s r := h.regs.rd hr

theorem PfOnly.isSet (h : PfOnly s t) {r : RF} (hr : ¬ pfWord r.addr) : Machine.isSet t r = Machine.isSet s r := by
  rw [Machine.isSet, h.rd hr, Machine.isSet]

theorem PfOnly.banks (h : PfOnly s t) : sameBanks s t := sameBanks_of_evolves h.evolves (h.regs.reg (by simp [pfWord]))

theorem PfOnly.accs (h : PfOnly s t) : t.brg.accs = s.brg.accs := by
  obtain ⟨pf, hpf⟩ := h.brg
  rw [hpf]

theorem discardPf_only (o : Nat) (s : State) : PfOnly s (discardPf o s) := by
  refine ⟨discardPf_ev rfl (ev_refl _ s) o, ?_, ?_⟩
  · unfold discardPf
    dsimp only
    split
    · have h0 : RegsKept pfWord s (setPf o emptyPf s) := .of_eq rfl rfl
      have h1 : RegsKept pfWord s (inc BRG_PF_CNT_DISCARD (setPf o emptyPf s)) := h0.wr (r := BRG_PF_CNT_DISCARD) (.inr (.inr rfl))
      exact (h1.wr (r := BRG_PF_DISCARD_ADDR_ADDR) (.inr (.inl rfl))).wr (r := BRG_EVT_PF_DISCARD) (.inl rfl)
    · exact .of_eq rfl rfl
  · unfold discardPf
    dsimp only
    split
    · simp only [wr_brg, inc_brg]
      exact ⟨_, rfl⟩
    · exact ⟨_, rfl⟩

theorem discardPfWindow_only (w : Nat) (s : State) : PfOnly s (discardPfWindow w s) := by
  unfold discardPfWindow each
  refine List.foldlRecOn [0, 1, 2, 3] _ (motive := PfOnly s) (.refl s) fun t ht o _ => ?_
  dsimp only
  split
  · exact ht
  · exact ht.trans (discardPf_only o t)

theorem pfOutside_only (o addr : Nat) (s : State) : PfOnly s (pfOutside o addr s) := by
  unfold pfOutside
  dsimp only
  split
  · exact .refl s
  · exact discardPf_only o s

end

/-! ## TAKE -/

theorem brgCode_le {o : Orig} {code : Nat} (h : brgCode o = some code) : code ≤ 3 := by
  cases o <;> simp [brgCode] at h <;> omega

theorem brgFid_lt (o : Orig) : brgFid o < 32 := by
  cases o <;> simp only [brgFid] <;> omega

theorem semHolder_congr {s t : State} {w : Nat} (h : reg t (BRG_SEM_STAT_ALL w).addr = reg s (BRG_SEM_STAT_ALL w).addr) (code fid : Nat) :
    semHolder t w code fid = semHolder s w code fid := by
  rw [semHolder, isSet, rd_congr (r := BRG_SEM_STAT_HELD w) h, rd_congr (r := BRG_SEM_STAT_ORIG w) h,
    rd_congr (r := BRG_SEM_STAT_FID w) h, semHolder, isSet]

theorem held_of_semHolder {s : State} {w code fid : Nat} (h : semHolder s w code fid = true) : isSet s (BRG_SEM_STAT_HELD w) = true := by
  simp only [semHolder, Bool.and_eq_true] at h
  exact h.1.1

/-- The status register of a window's semaphore. -/
def semWord (w a : Nat) : Prop := a = 0xC00104 + 8 * w

theorem not_semWord {v w : Nat} (h : v ≠ w) : ¬ semWord w (BRG_SEM_STAT_ALL v).addr := by
  simp only [semWord]
  omega

theorem not_pfWord_semStat (w : Nat) : ¬ pfWord (BRG_SEM_STAT_ALL w).addr := by
  simp only [pfWord]
  omega

section
variable {o : Orig} {w code : Nat} {s : State}

/-- The semaphore of a window is given to an originator. -/
def grantSem (w code fid : Nat) (s : State) : State :=
  s |> wr (BRG_SEM_STAT_HELD w) 1 |> wr (BRG_SEM_STAT_ORIG w) code |> wr (BRG_SEM_STAT_FID w) fid

theorem semHolder_grantSem {fid : Nat} (hc : code ≤ 3) (hf : fid < 32) : semHolder (grantSem w code fid s) w code fid = true := by
  have hH : rd (grantSem w code fid s) (BRG_SEM_STAT_HELD w) = 1 := by simp [grantSem, rd_wr_other, rd_wr_same]
  have hO : rd (grantSem w code fid s) (BRG_SEM_STAT_ORIG w) = code := by
    simp only [grantSem]
    rw [rd_wr_other (by simp) (by simp) (by simp), rd_wr_fits (by simp) (by simp) (by simp; omega)]
  have hF : rd (grantSem w code fid s) (BRG_SEM_STAT_FID w) = fid := rd_wr_fits (by simp) (by simp) (by simpa using hf)
  simp [semHolder, isSet, hH, hO, hF]

theorem lastRel_grantSem (fid : Nat) : rd (grantSem w code fid s) (BRG_SEM_STAT_LAST_REL w) = rd s (BRG_SEM_STAT_LAST_REL w) := by
  simp [grantSem, rd_wr_other]

theorem grantSem_kept (fid : Nat) : RegsKept (semWord w) s (grantSem w code fid s) := by
  unfold grantSem
  exact (((RegsKept.refl (semWord w) s).wr (r := BRG_SEM_STAT_HELD w) rfl).wr (r := BRG_SEM_STAT_ORIG w) rfl).wr
    (r := BRG_SEM_STAT_FID w) rfl

theorem upNs_congr {s t : State} (hn : t.now = s.now) (ht : t.time = s.time) : upNs t = upNs s := by rw [upNs, hn, ht]; rfl

theorem lease_startLease (s : State) (w : Nat) :
    sget (fun _ => 0) (startLease w s).brg.lease w = upNs s + brgCfg s BRG_CFG_LEASE_US * 1000 := sget_sset_same ..

theorem PfOnly.leaseEnd {s t : State} (h : PfOnly s t) :
    upNs t + brgCfg t BRG_CFG_LEASE_US * 1000 = upNs s + brgCfg s BRG_CFG_LEASE_US * 1000 := by
  rw [upNs_congr (h.evolves.same (x := .now) (by decide)) (h.evolves.same (x := .time) (by decide)), brgCfg, h.banks.cfgI]
  rfl

theorem reg_startLease (s : State) (w a : Nat) : reg (startLease w s) a = reg s a := reg_congr rfl rfl

theorem accs_startLease (s : State) (w : Nat) : (startLease w s).brg.accs = s.brg.accs := rfl

theorem brg_grantSem (fid : Nat) : (grantSem w code fid s).brg = s.brg := by simp only [grantSem, wr_brg]

theorem grantSem_banks (fid : Nat) : sameBanks s (grantSem w code fid s) :=
  sameBanks_of_evolves (F := [.regs]) (wr_ev rfl (wr_ev rfl (wr_ev rfl (ev_refl _ s) _ _) _ _) _ _)
    ((grantSem_kept _).reg (by simp only [semWord]; omega))

theorem leaseEnd_grantSem (fid : Nat) : upNs (grantSem w code fid s) + brgCfg (grantSem w code fid s) BRG_CFG_LEASE_US * 1000 =
    upNs s + brgCfg s BRG_CFG_LEASE_US * 1000 := by
  rw [brgCfg, (grantSem_banks fid).cfgI, brgCfg]
  rfl

theorem doTake_holder (hc : brgCode o = some code) (hp : origPresent s.variant o = true) (hh : semHolder s w code (brgFid o) = true) :
    doTake o w s = startLease w (discardPfWindow w s) := by
  simp [doTake, hc, hp, hh]

theorem doTake_held (hc : brgCode o = some code) (hh : semHolder s w code (brgFid o) = false) (hs : isSet s (BRG_SEM_STAT_HELD w) = true) :
    doTake o w s = s := by
  simp [doTake, hc, hh, hs]

theorem doTake_free (hc : brgCode o = some code) (hp : origPresent s.variant o = true) (hs : isSet s (BRG_SEM_STAT_HELD w) = false) :
    doTake o w s = startLease w (grantSem w code (brgFid o) (discardPfWindow w s)) := by
  simp [doTake, hc, hp, hs, semHolder, grantSem]

end

/-! ## The end of a hold -/

/-- A hold of a window's semaphore has ended: it is free, and no access is lost or changes its place but behind the holder's. -/
def holdEnded (w how : Nat) (s t : State) : Prop :=
  isSet t (BRG_SEM_STAT_HELD w) = false ∧ rd t (BRG_SEM_STAT_LAST_REL w) = how ∧
    (how = 2 → rd t BRG_EVT_SEM_EXPIRED = 1) ∧ t.brg.accs.length = s.brg.accs.length ∧
    (∀ x, x ∈ t.brg.accs ↔ x ∈ s.brg.accs) ∧
    t.brg.accs.filter (fun x => x.w == w) =
      (s.brg.accs.filter fun x => x.w == w).filter (fun x => x.started || semHolder s w x.orig x.fid)
        ++ (s.brg.accs.filter fun x => x.w == w).filter (fun x => !(x.started || semHolder s w x.orig x.fid)) ∧
    (∀ v, v ≠ w → reg t (BRG_SEM_STAT_ALL v).addr = reg s (BRG_SEM_STAT_ALL v).addr) ∧
    ∀ x, x ≠ .regs → x ≠ .brg → StateField.same x s t

section
variable {s : State} {w : Nat}

/-- The accesses after a hold of a window: those of other windows, then the window's own, the holder's and the started ones first. -/
def holdOrder (w : Nat) (own : BrgAcc → Bool) (xs : List BrgAcc) : List BrgAcc :=
  (xs.filter fun x => x.w != w) ++ (xs.filter fun x => x.w == w).filter own ++ (xs.filter fun x => x.w == w).filter fun x => !own x

theorem holdOrder_perm (own : BrgAcc → Bool) (xs : List BrgAcc) : (holdOrder w own xs).Perm xs := by
  have hown : ((xs.filter fun x => x.w == w).filter own ++ (xs.filter fun x => x.w == w).filter fun x => !own x).Perm
      (xs.filter fun x => x.w == w) := List.filter_append_perm own _
  have hw : ((xs.filter fun x => x.w == w) ++ xs.filter fun x => !(x.w == w)).Perm xs := List.filter_append_perm _ xs
  rw [holdOrder, List.append_assoc]
  exact (List.Perm.append_left _ hown).trans (List.perm_append_comm.trans hw)

theorem filter_holdOrder (own : BrgAcc → Bool) (xs : List BrgAcc) : (holdOrder w own xs).filter (fun x => x.w == w) =
    (xs.filter fun x => x.w == w).filter own ++ (xs.filter fun x => x.w == w).filter fun x => !own x := by
  have h : ∀ x : BrgAcc, ((x.w == w) && (x.w != w)) = false := fun x => by cases h : x.w == w <;> simp_all [bne]
  have h2 : ∀ (b : Bool) (x : BrgAcc), (x.w == w && (b && x.w == w)) = (b && x.w == w) := fun b x => by
    cases x.w == w <;> simp
  simp only [holdOrder, List.filter_append, List.filter_filter, h, h2, List.filter_false, List.nil_append]

theorem accs_endHold (w how : Nat) (s : State) :
    (endHold w how s).brg.accs = holdOrder w (fun x => x.started || semHolder s w x.orig x.fid) s.brg.accs := rfl

theorem endHold_kept (w how : Nat) (s : State) : RegsKept (semWord w) s (endHold w how s) := by
  unfold endHold
  extract_lets own here
  refine ((((RegsKept.of_eq (P := semWord w) (s := s) ?_ ?_).wr (r := BRG_SEM_STAT_HELD w) rfl).wr (r := BRG_SEM_STAT_ORIG w) rfl).wr
    (r := BRG_SEM_STAT_FID w) rfl).wr (r := BRG_SEM_STAT_LAST_REL w) rfl
  · rfl
  · rfl

theorem held_endHold (w how : Nat) (s : State) : isSet (endHold w how s) (BRG_SEM_STAT_HELD w) = false := by
  simp [endHold, isSet, rd_wr_other, rd_wr_same]

theorem lastRel_endHold {how : Nat} (h : how < 4) (w : Nat) (s : State) : rd (endHold w how s) (BRG_SEM_STAT_LAST_REL w) = how :=
  rd_wr_fits (by simp) (by simp) (by simpa using h)

theorem holdEnded_of_accs {t : State} {how : Nat} (ha : t.brg.accs = (endHold w how s).brg.accs)
    (hh : isSet t (BRG_SEM_STAT_HELD w) = false) (hl : rd t (BRG_SEM_STAT_LAST_REL w) = how) (he : how = 2 → rd t BRG_EVT_SEM_EXPIRED = 1)
    (hr : ∀ v, v ≠ w → reg t (BRG_SEM_STAT_ALL v).addr = reg s (BRG_SEM_STAT_ALL v).addr) (hev : Evolves [.regs, .brg] s t) :
    holdEnded w how s t := by
  rw [accs_endHold] at ha
  have hp := holdOrder_perm (w := w) (fun x => x.started || semHolder s w x.orig x.fid) s.brg.accs
  rw [← ha] at hp
  exact ⟨hh, hl, he, hp.length_eq, fun x => hp.mem_iff, ha ▸ filter_holdOrder _ _, hr, fun x h1 h2 => hev.same (by simp [h1, h2])⟩

theorem endHold_ended (w : Nat) (s : State) : holdEnded w 1 s (endHold w 1 s) :=
  holdEnded_of_accs rfl (held_endHold ..) (lastRel_endHold (by decide) ..) (fun h => absurd h (by decide))
    (fun _ h => (endHold_kept w 1 s).reg (not_semWord h)) (endHold_ev rfl (ev_refl _ s) w 1)

theorem endHold_expired (w : Nat) (s : State) : holdEnded w 2 s (endHold w 2 s |> wr BRG_EVT_SEM_EXPIRED 1) := by
  have ha : ∀ v, BRG_EVT_SEM_EXPIRED.addr ≠ (BRG_SEM_STAT_ALL v).addr := fun v => by dsimp only; omega
  refine holdEnded_of_accs (congrArg BrgSt.accs (wr_brg ..)) ?_ ?_ (fun _ => rd_set_oneBit ⟨rfl, by decide⟩ _) (fun v h => ?_)
    (wr_ev rfl (endHold_ev rfl (ev_refl _ s) w 2) _ _)
  · rw [isSet, rd_wr_addr (f := BRG_SEM_STAT_HELD w) (ha w)]
    exact held_endHold ..
  · rw [rd_wr_addr (f := BRG_SEM_STAT_LAST_REL w) (ha w)]
    exact lastRel_endHold (by decide) ..
  · rw [reg_wr_ne (ha v)]
    exact (endHold_kept w 2 s).reg (not_semWord h)

end

/-- Settles O51, with the facts about a semaphore that is given and about the end of a hold. -/
theorem bridgeSemaphores : Obligations.BridgeSemaphores := by
  intro s w hw
  have htake : ∀ o, exec (.take o w) s = .next (doTake o w s) := fun o => next_congr (if_pos hw)
  have hrel : ∀ o, exec (.semaphoreRelease o w) s = .next (doSemaphoreRelease o w s) := fun o => next_congr (if_pos hw)
  have hexp : exec (.leaseExpire w) s = .next (doLeaseExpire w s) := next_congr (if_pos hw)
  have hpf := discardPfWindow_only w s
  refine ⟨fun o code hc hp => ⟨fun hs => ?_, fun hh => ?_, fun hs hh => ?_, fun hh => ?_⟩,
    ⟨fun o code hc hh => ?_, fun hs => ?_⟩, fun hs => ?_⟩
  · have hev := doTake_ev rfl (ev_refl [.regs, .brg] s) o w
    rw [htake]
    rw [doTake_free hc hp hs] at hev ⊢
    refine ⟨_, rfl, ?_, ?_, ?_, ?_, fun v hv => ?_, fun x h1 h2 => hev.same (by simp [h1, h2])⟩
    · rw [semHolder_congr (reg_startLease ..)]
      exact semHolder_grantSem (brgCode_le hc) (brgFid_lt o)
    · rw [rd_congr (reg_startLease ..), lastRel_grantSem, hpf.rd (r := BRG_SEM_STAT_LAST_REL w) (not_pfWord_semStat w)]
    · rw [lease_startLease, leaseEnd_grantSem, hpf.leaseEnd]
    · rw [accs_startLease, brg_grantSem, hpf.accs]
    · rw [reg_startLease, (grantSem_kept _).reg (not_semWord hv), hpf.regs.reg (not_pfWord_semStat v)]
  · rw [htake, doTake_holder hc hp hh]
    refine ⟨_, rfl, ?_, (lease_startLease _ w).trans hpf.leaseEnd⟩
    rw [reg_startLease, hpf.regs.reg (not_pfWord_semStat w)]
  · rw [htake, doTake_held hc hh hs]
  · rw [hrel]
    simp [doSemaphoreRelease, hc, hh]
  · rw [hrel]
    exact ⟨_, next_congr (by simp [doSemaphoreRelease, hc, hh]), endHold_ended w s⟩
  · rw [hexp]
    exact ⟨_, next_congr (if_pos hs), endHold_expired w s⟩
  · rw [hexp]
    simp [doLeaseExpire, hs]

end Sys2Proof.Machine

/-! PROOFS. Accesses to bridge windows: accepting, failing, carrying out (R370 to R376, R378 to R381). -/

namespace Sys2Proof.Machine
open Sys2Proof

/-! ## What acceptance reads -/

section
variable {s t : State}

theorem sameBanks.brgCfg (h : sameBanks s t) (r : RF) : Machine.brgCfg t r = Machine.brgCfg s r := h.cfgI _ r

theorem sameBanks.brgAllowed (h : sameBanks s t) (w addr : Nat) (be : List Bool) (write : Bool) (code : Nat) :
    Machine.brgAllowed t w addr be write code = Machine.brgAllowed s w addr be write code := by
  simp only [Machine.brgAllowed, winRights, winRecord, h.brgCfg]

theorem sameBanks.brgShape (h : sameBanks s t) (w addr len : Nat) : Machine.brgShape t w addr len = Machine.brgShape s w addr len := by
  simp only [Machine.brgShape, h.brgCfg]

theorem sameBanks.brgRoom (h : sameBanks s t) (ha : t.brg.accs = s.brg.accs) (w : Nat) (write : Bool) (code : Nat) :
    Machine.brgRoom t w write code = Machine.brgRoom s w write code := by
  simp only [Machine.brgRoom, inCompat, h.brgCfg, ha]

theorem sameBanks.writeTxns (h : sameBanks s t) (x : BrgAcc) : Machine.writeTxns t x = Machine.writeTxns s x := by
  simp only [Machine.writeTxns, sensorReg, h.brgCfg]

theorem PfOnly.sensorReady (h : PfOnly s t) (p : Nat) : Machine.sensorReady t p = Machine.sensorReady s p := by
  have hn : ¬ pfWord (CPT_STATE_STATE p).addr := by
    simp only [pfWord]
    omega
  rw [Machine.sensorReady, portState, h.rd (r := CPT_STATE_STATE p) hn, h.isSet (r := CPT_STATE_LOCK p) hn, Machine.sensorReady, portState]

end

/-! ## Accepting -/

section
variable (o : Orig) (code w addr : Nat) (write : Bool) (be : List Bool) (data : List Nat) (s : State)

/-- The access as it is tagged (R374). -/
def taggedAcc : BrgAcc :=
  { tag := s.brg.nextTag, w, orig := code, fid := brgFid o, write, addr, be, data := padTo be.length data, started := false, txns := []
    got := [], fetch := none, at_ := s.now, retries := 0, rtag := 0, dead := false, span := none }

/-- The state in which the next BTAG has been given to an originator. -/
def tagGiven : State :=
  wr (BRG_LAST_TAG_BTAG code) s.brg.nextTag { s with brg := { s.brg with nextTag := (s.brg.nextTag + 1) % 2 ^ 16 } }

theorem brg_tagGiven : (tagGiven code s).brg = { s.brg with nextTag := (s.brg.nextTag + 1) % 2 ^ 16 } := by rw [tagGiven, wr_brg]

theorem tagGiven_evolves : Evolves [.regs, .brg] s (tagGiven code s) := wr_ev rfl (ev_brg rfl (ev_refl _ s)) _ _

theorem reg_tagGiven {a : Nat} (h : a ≠ (BRG_LAST_TAG_ALL code).addr) : reg (tagGiven code s) a = reg s a := reg_wr_ne h.symm

theorem lastTag_tagGiven : rd (tagGiven code s) (BRG_LAST_TAG_BTAG code) = s.brg.nextTag % 2 ^ 16 := rd_wr_same (by simp) (by simp)

theorem tagGiven_banks : sameBanks s (tagGiven code s) :=
  sameBanks_of_evolves (tagGiven_evolves code s) (reg_tagGiven code s (by dsimp only; omega))

theorem bridgeAccess_eq (hc : code < 3) : bridgeAccess o code w addr write be data 0 s =
    if !brgAllowed s w addr be write code then failAcc (taggedAcc o code w addr write be data s) 6 (tagGiven code s)
    else if !brgShape s w addr be.length then failAcc (taggedAcc o code w addr write be data s) 7 (tagGiven code s)
    else if !brgRoom s w write code then failAcc (taggedAcc o code w addr write be data s) 5 (tagGiven code s)
    else { tagGiven code s with
      brg := { (tagGiven code s).brg with accs := s.brg.accs ++ [taggedAcc o code w addr write be data s] } } := by
  have hb := tagGiven_banks code s
  rw [← hb.brgAllowed, ← hb.brgShape, ← hb.brgRoom (by rw [brg_tagGiven])]
  unfold bridgeAccess
  rw [if_neg (by omega)]
  dsimp only
  rw [if_pos (by omega : code < 4)]
  rfl

end

section
variable {o : Orig} {addr w code : Nat} {s : State} (write : Bool) (be : List Bool) (data : List Nat)

/-- An access of a host or target originator to a window of another device goes to the bridge. -/
theorem exec_bridgeAccess_window (hw : winOf addr = some w) (hc : brgCode o = some code) (h3 : code < 3)
    (hp : origPresent s.variant o = true) (hn : 20 ≤ w → ownFid s ≠ some (w - 20)) :
    exec (.bridgeAccess ⟨o, none⟩ addr write be data) s = .next (bridgeAccess o code w addr write be data 0 s) := by
  have hown : ownWindow s w = false := by
    simp only [ownWindow, Bool.and_eq_false_imp, decide_eq_true_eq, beq_eq_false_iff_ne]
    exact hn
  refine next_congr (?_ : doBridgeAccess o addr write be data s = _)
  cases o <;> simp_all [doBridgeAccess, brgCode]

theorem exec_bridgeAccess_nowhere (h : winOf addr = none) : exec (.bridgeAccess ⟨o, none⟩ addr write be data) s = .next s :=
  next_congr (by simp [landing, doBridgeAccess, h])

end

/-! ## Failing -/

section
variable {x : BrgAcc} (cause : Nat) (s : State)

theorem failAcc_posted (hd : x.dead = false) (ho : x.orig < 2) (hw : x.write = true) :
    failAcc x cause s = (s |> inc BRG_CNT_POSTED_FAIL |> recordError ((brgErr x cause).setting BRG_EVT_POSTED_FAIL)) := by
  have h3 : x.orig ≠ 3 := by omega
  simp [failAcc, hd, hw, h3]

theorem failAcc_read (hd : x.dead = false) (ho : x.orig < 2) (hw : x.write = false) :
    failAcc x cause s = (s |> inc BRG_CNT_READ_FAIL |> recordError ((brgErr x cause).setting BRG_EVT_READ_FAIL)
      |> emit (.readData (if x.orig = 0 then .hp0 else .hp1) x.addr (leNum (List.replicate x.be.length 0xFF)))) := by
  have h3 : x.orig ≠ 3 := by omega
  rcases (by omega : x.orig = 0 ∨ x.orig = 1) with h | h <;> simp [failAcc, answerRead, hd, hw, h]

/-- An access that fails leaves the bridge. -/
theorem accByTag_failHeld (x : BrgAcc) : accByTag (failHeld x cause s) x.tag = none := by
  have hb : (failHeld x cause s).brg = (closeAcc x s).brg := (failAcc_ev rfl (ev_refl
    [.regs, .queues, .readPorts, .svcStats, .jnl, .weaves, .out] _) x cause).same (x := .brg) (by decide)
  have hc : (closeAcc x s).brg.accs = s.brg.accs.filter fun y => y.tag != x.tag := by
    unfold closeAcc
    dsimp only
    split <;> rfl
  rw [accByTag, hb, hc, List.find?_eq_none]
  intro y hy
  simpa using (List.mem_filter.1 hy).2

end

/-! ## The access that is due -/

section
variable {s : State} {w : Nat} {x : BrgAcc}

theorem nextAcc_due (h : nextAcc s w = some x) : x.w = w ∧ x ∈ s.brg.accs ∧ (∀ y ∈ s.brg.accs, y.w = w → y.started = false) ∧
    (isSet s (BRG_SEM_STAT_HELD w) = true → semHolder s w x.orig x.fid = true) := by
  unfold nextAcc at h
  dsimp only at h
  split at h
  · cases h
  · next hs =>
    have hidle : ∀ y ∈ s.brg.accs, y.w = w → y.started = false := fun y hy hw => by
      simp only [List.any_eq_true, List.mem_filter, beq_iff_eq, not_exists, not_and, Bool.not_eq_true] at hs
      exact hs y ⟨hy, hw⟩
    have hin : x ∈ s.brg.accs.filter fun x => x.w == w := by
      split at h
      · exact List.mem_of_find?_eq_some h
      · exact List.mem_of_head? h
    obtain ⟨hx, hw⟩ := List.mem_filter.1 hin
    refine ⟨by simpa using hw, hx, hidle, fun hh => ?_⟩
    rw [if_pos hh] at h
    exact List.find?_some (p := fun x : BrgAcc => semHolder s w x.orig x.fid) h

end

section
variable {s : State} {p f : Nat} {x : BrgAcc}

theorem exec_sensorWindowWrite_none (h : nextAcc s p = none) : exec (.sensorWindowWrite p) s = .next s :=
  next_congr (by simp [doSensorWindowWrite, h])

theorem exec_sensorWindowRead_none (h : nextAcc s p = none) : exec (.sensorWindowRead p) s = .next (resumeTarget s) :=
  next_congr (congrArg resumeTarget (by simp [doSensorWindowRead, h]))

section
variable (hn : nextAcc s p = some x)
include hn

theorem exec_sensorWindowWrite_other (h : x.write = false ∨ compatWaits s x = true) : exec (.sensorWindowWrite p) s = .next s :=
  next_congr (by rcases h with h | h <;> simp [doSensorWindowWrite, hn, h])

theorem exec_sensorWindowRead_other (h : x.write = true ∨ compatWaits s x = true) :
    exec (.sensorWindowRead p) s = .next (resumeTarget s) :=
  next_congr (congrArg resumeTarget (by rcases h with h | h <;> simp [doSensorWindowRead, hn, h]))

variable (hp : p < 20) (hc : compatWaits s x = false)
include hp hc

theorem exec_sensorWindowWrite_fails (hw : x.write = true) (hr : sensorReady s p = false) :
    exec (.sensorWindowWrite p) s = .next (failHeld x 2 s) :=
  next_congr (by simp [doSensorWindowWrite, hp, hn, hc, hw, hr])

theorem exec_sensorWindowWrite_starts (hw : x.write = true) (hr : sensorReady s p = true) : exec (.sensorWindowWrite p) s =
    .next (writeOn { x with started := true, txns := writeTxns s x } (discardPfWindow p s)) := by
  rw [← (discardPfWindow_only p s).banks.writeTxns]
  exact next_congr (by simp [doSensorWindowWrite, hp, hn, hc, hw, hr])

/-- A read in a window: from the buffer, or on the bus of a port that is ready. -/
theorem exec_sensorWindowRead_due (hw : x.write = false) : exec (.sensorWindowRead p) s = .next (resumeTarget
    (if pfHit (pfOf (pfOutside x.orig x.addr s) x.orig) x.addr x.be then servePf x (pfOutside x.orig x.addr s)
      else if !sensorReady s p then failHeld x 2 (pfOutside x.orig x.addr s) else readOn x (pfOutside x.orig x.addr s))) := by
  rw [← (pfOutside_only x.orig x.addr s).sensorReady]
  exact next_congr (congrArg resumeTarget (by simp [doSensorWindowRead, hp, hn, hc, hw]))

end

theorem exec_remoteWindowAccess_none (h : nextAcc s (20 + f) = none) : exec (.remoteWindowAccess f) s = .next (resumeTarget s) :=
  next_congr (congrArg resumeTarget (by simp [doRemoteWindowAccess, h]))

section
variable (hf : f < 32) (hn : nextAcc s (20 + f) = some x) (hc : compatWaits s x = false)
include hf hn hc

theorem exec_remoteWindowAccess_write (hw : x.write = true) :
    exec (.remoteWindowAccess f) s = .next (resumeTarget (sendReq x (discardPfWindow x.w s))) :=
  next_congr (congrArg resumeTarget (by simp [doRemoteWindowAccess, hf, hn, hc, hw]))

theorem exec_remoteWindowAccess_read (hw : x.write = false) : exec (.remoteWindowAccess f) s = .next (resumeTarget
    (if pfHit (pfOf (pfOutside x.orig x.addr s) x.orig) x.addr x.be then servePf x (pfOutside x.orig x.addr s)
      else sendReq (if (enabledBytes x.be).isEmpty then x else (withSpan (pfOutside x.orig x.addr s) x).2) (pfOutside x.orig x.addr s))) := by
  refine next_congr (congrArg resumeTarget ?_)
  simp only [doRemoteWindowAccess, hf, hn, hc, hw, if_true, Bool.false_eq_true, if_false]
  split
  · rfl
  · split <;> rfl

end

end

/-! ## Retries and timeouts -/

section
variable {s : State} {tag : Nat} {x : BrgAcc}

theorem exec_retry_none (h : accByTag s tag = none) : exec (.retryReissue tag) s = .next (resumeTarget s) ∧
    exec (.compatWriteTimeout tag) s = .next s ∧ exec (.bridgeReadTimeout tag) s = .next (resumeTarget s) :=
  ⟨next_congr (congrArg resumeTarget (by simp [doRetryReissue, h])), next_congr (by simp [doCompatWriteTimeout, h]),
    next_congr (congrArg resumeTarget (by simp [doBridgeReadTimeout, h]))⟩

section
variable (h : accByTag s tag = some x)
include h

theorem exec_retryReissue_sends (hs : x.started = true) (hw : 20 ≤ x.w) (hf : x.fetch = none) :
    exec (.retryReissue tag) s = .next (resumeTarget (sendReq x s)) :=
  next_congr (congrArg resumeTarget (by simp [doRetryReissue, h, hs, hw, hf]))

theorem exec_retryReissue_open (hf : x.fetch.isSome = true) : exec (.retryReissue tag) s = .next (resumeTarget s) := by
  obtain ⟨y, hy⟩ := Option.isSome_iff_exists.1 hf
  exact next_congr (congrArg resumeTarget (by simp [doRetryReissue, h, hy]))

theorem exec_bridgeReadTimeout_write (hw : x.write = true) : exec (.bridgeReadTimeout tag) s = .next (resumeTarget s) :=
  next_congr (congrArg resumeTarget (by simp [doBridgeReadTimeout, h, hw]))

theorem exec_compatWriteTimeout_read (hw : x.write = false) : exec (.compatWriteTimeout tag) s = .next s :=
  next_congr (by simp [doCompatWriteTimeout, h, hw])

theorem exec_compatWriteTimeout_waits (hw : x.write = true) (hs : x.started = false) (hc : compatWaits s x = true) :
    exec (.compatWriteTimeout tag) s = .next (failHeld x 5 s) :=
  next_congr (by simp [doCompatWriteTimeout, h, hw, hs, hc])

theorem exec_bridgeReadTimeout_remote (hw : x.write = false) (hd : x.dead = false) (hr : 20 ≤ x.w) :
    exec (.bridgeReadTimeout tag) s = .next (resumeTarget (failHeld x 4 s)) :=
  next_congr (congrArg resumeTarget (by simp [doBridgeReadTimeout, h, hw, hd, Nat.not_lt.2 hr]))

theorem exec_bridgeReadTimeout_onBus {t : Txn} (hw : x.write = false) (hd : x.dead = false) (hr : x.w < 20)
    (ht : (twbOf s x.w).cur = some t) (ho : t.owner = .bridge tag) :
    exec (.bridgeReadTimeout tag) s = .next (resumeTarget (s |> putAcc { x with dead := true } |> failAcc x 4)) :=
  next_congr (congrArg resumeTarget (by simp [doBridgeReadTimeout, h, hw, hd, hr, ht, ho]))

end

end

/-! ## Buffers that are too old -/

section
variable (c : Nat) (s : State)

theorem pfOf_discardPf (d : Nat) : pfOf (discardPf c s) d = if c = d then emptyPf else pfOf s d := by
  have h : (discardPf c s).brg = (setPf c emptyPf s).brg := by
    unfold discardPf
    dsimp only
    split
    · simp only [wr_brg, inc_brg]
    · rfl
  rw [pfOf, h]
  exact sget_sset (fun _ => emptyPf) s.brg.pf c d emptyPf

theorem discardPf_unread (h : (pfOf s c).bytes.any (fun x => !x.2) = true) :
    rd (discardPf c s) BRG_EVT_PF_DISCARD = 1 ∧
      rd (discardPf c s) BRG_PF_CNT_DISCARD = satAdd 16 (rd s BRG_PF_CNT_DISCARD) 1 := by
  rw [discardPf, if_pos h]
  refine ⟨rd_set_oneBit ⟨rfl, by decide⟩ _, ?_⟩
  rw [rd_wr_addr (by decide), rd_wr_addr (by decide), rd_inc_same (by decide) (by decide)]
  rfl

theorem discardPf_read (h : (pfOf s c).bytes.any (fun x => !x.2) = false) : (discardPf c s).regs = s.regs := by
  simp [discardPf, h]

end

theorem prefetchAgeExpire_effect {o : Orig} {c : Nat} (s : State) (h : brgCode o = some c) :
    ∃ t, exec (.prefetchAgeExpire o) s = .next t ∧ (pfOf t c).bytes = [] ∧
      (∀ d, d ≠ c → pfOf t d = pfOf s d) ∧
      ((pfOf s c).bytes.any (fun x => !x.2) = true → rd t BRG_EVT_PF_DISCARD = 1 ∧
        rd t BRG_PF_CNT_DISCARD = satAdd 16 (rd s BRG_PF_CNT_DISCARD) 1) ∧
      ((pfOf s c).bytes.any (fun x => !x.2) = false → t.regs = s.regs) := by
  refine ⟨discardPf c s, next_congr (by rw [h]), ?_, fun d hd => ?_, discardPf_unread c s, discardPf_read c s⟩
  · rw [pfOf_discardPf, if_pos rfl]
    rfl
  · rw [pfOf_discardPf, if_neg hd.symm]

/-! ## The obligation -/

/-- Settles O52, with the facts about acceptance, failure, and the access that is due. -/
theorem bridgeAcceptance : Obligations.BridgeAcceptance := by
  refine ⟨fun s o addr write be data => ⟨exec_bridgeAccess_nowhere _ _ _, fun w code hw hc h3 hp hn => ?_,
    fun x cause hd ho => ⟨failAcc_posted cause s hd ho, failAcc_read cause s hd ho⟩, fun w code hi hr => ?_⟩,
    fun s => ⟨fun p hp => ⟨fun h => ⟨exec_sensorWindowWrite_none h, exec_sensorWindowRead_none h⟩, fun x hn => ?_⟩,
      fun f hf => ⟨exec_remoteWindowAccess_none, fun x hn hc => ⟨exec_remoteWindowAccess_write hf hn hc, fun hw => ?_⟩⟩,
      fun tag => ⟨exec_retry_none, fun x h => ?_⟩, fun x cause => accByTag_failHeld cause s x,
      fun o c => prefetchAgeExpire_effect s⟩⟩
  · refine ⟨taggedAcc o code w addr write be data s, tagGiven code s, rfl, rfl, rfl, rfl, rfl, rfl, rfl, rfl, rfl, brg_tagGiven ..,
      lastTag_tagGiven .., fun a => reg_tagGiven code s, fun y h1 h2 => (tagGiven_evolves code s).same (by simp [h1, h2]), ?_⟩
    rw [exec_bridgeAccess_window write be data hw hc h3 hp hn, bridgeAccess_eq _ _ _ _ _ _ _ _ h3]
    refine ⟨fun ha => ?_, fun ha hs => ?_, fun ha hs hr => ?_, fun ha hs hr => ?_⟩ <;> simp only [*] <;> rfl
  · simpa [brgRoom, hi] using hr
  · obtain ⟨hw, hx, hi, hh⟩ := nextAcc_due hn
    refine ⟨hw, hx, hi, hh, exec_sensorWindowWrite_other hn, exec_sensorWindowRead_other hn, fun hc =>
      ⟨fun hw => ⟨exec_sensorWindowWrite_fails hn hp hc hw, exec_sensorWindowWrite_starts hn hp hc hw⟩, fun hw => ?_⟩⟩
    rw [exec_sensorWindowRead_due hn hp hc hw]
    exact ⟨fun h => next_congr (congrArg resumeTarget (if_pos h)), fun h hr => by simp [h, hr], fun h hr => by simp [h, hr]⟩
  · rw [exec_remoteWindowAccess_read hf hn hc hw]
    exact ⟨fun h => by simp [h], fun h => by simp [h]⟩
  · exact ⟨exec_retryReissue_sends h, exec_retryReissue_open h,
      fun hw => ⟨exec_bridgeReadTimeout_write h hw, exec_compatWriteTimeout_waits h hw⟩,
      fun hw => ⟨exec_compatWriteTimeout_read h hw, exec_bridgeReadTimeout_remote h hw, fun t => exec_bridgeReadTimeout_onBus h hw⟩⟩

end Sys2Proof.Machine

/-! PROOFS. Two-wire controllers and targets (R357 to R369, R372). -/

namespace Sys2Proof.Machine
open Sys2Proof

/-! ## The read that target 0 carries on -/

theorem targetReadWords_waits {s : State} (h : (targetWaits s).isSome = true) (n : Nat) : targetReadWords 0 n s = s := by
  cases n with
  | zero => rfl
  | succ n => exact if_pos (.inr ⟨rfl, h⟩)

theorem resumeTarget_rests {s : State} (h : (wantedOf s 0).2 = 0 ∨ (targetWaits s).isSome = true) : resumeTarget s = s := by
  rcases h with h | h
  · rw [resumeTarget, h]
    rfl
  · exact targetReadWords_waits h _

/-! ## Controllers -/

section
variable {s : State} {i : Nat} {t : Txn}

/-- A command to a controller of the device, after which target 0 goes on. -/
theorem next_controller (hi : isController s i = true) (u : State) :
    (Host.Outcome.next (resumeTarget (if isController s i then u else s)) : Host.Outcome State Fault Refusal) = .next (resumeTarget u) :=
  next_congr (congrArg resumeTarget (if_pos hi))

section
variable (hn : nextTxn (twbOf s i) = some t)
include hn

section
variable (hs : rd s (TWB_STAT_STATE i) = 0) (hr : notReady s i t = false)
include hs hr

theorem doTransactionStart_notFree (lost : Option (Nat × Nat)) : doTransactionStart i false lost s = wr (TWB_STAT_STATE i) 2 s := by
  simp only [doTransactionStart, hn, hs, hr]
  rw [if_neg (by decide), if_neg (by decide), if_pos (by decide)]

theorem doTransactionStart_onBus : doTransactionStart i true none s =
    (s |> setTwb i { takeTxn (twbOf s i) with cur := some t } |> wr (TWB_STAT_STATE i) 1 |> emit (txnEmit i t)) := by
  simp only [doTransactionStart, hn, hs, hr]
  rw [if_neg (by decide), if_neg (by decide), if_neg (by decide)]

theorem doTransactionStart_lost (at_ : Nat × Nat) : doTransactionStart i true (some at_) s =
    if cfgI (arbLost i at_ s) (twbIsland i) (TWB_CFG_ARB_RETRY i) < (takeTxn (twbOf s i)).losses + 1 then
      arbLost i at_ s |> setTwb i { takeTxn (twbOf s i) with losses := 0 } |> wr (TWB_STAT_STATE i) 0
        |> recordError ((twbErr 2 i t.addr7).setting (TWB_EVT_ARB_FAIL i)) |> txnResult t.owner 3 []
    else arbLost i at_ s |> setTwb i { takeTxn (twbOf s i) with cur := some t, losses := (takeTxn (twbOf s i)).losses + 1 }
      |> wr (TWB_STAT_STATE i) 2 := by
  simp only [doTransactionStart, hn, hs, hr]
  rw [if_neg (by decide), if_neg (by decide), if_neg (by decide)]

end

theorem doTransactionStart_notReady (hs : rd s (TWB_STAT_STATE i) = 0) (hr : notReady s i t = true) (free : Bool)
    (lost : Option (Nat × Nat)) : doTransactionStart i free lost s =
      (s |> setTwb i { takeTxn (twbOf s i) with losses := 0 } |> wr (TWB_STAT_STATE i) 0 |> txnResult t.owner 2 []) := by
  simp only [doTransactionStart, hn, hs, hr]
  rw [if_neg (by decide), if_pos trivial]

theorem doBusStuckRecovery_free (hs : rd s (TWB_STAT_STATE i) ≠ 1) :
    doBusStuckRecovery i true s = (s |> wr (TWB_STAT_STATE i) 0 |> inc (TWB_CNT_RECOVER i)) := by
  unfold doBusStuckRecovery
  dsimp only
  rw [hn, if_neg (by simpa using hs), if_pos rfl]

theorem doBusStuckRecovery_stuck (hs : rd s (TWB_STAT_STATE i) ≠ 1) :
    doBusStuckRecovery i false s = (s |> wr (TWB_STAT_STATE i) 4 |> inc (TWB_CNT2_STUCK i) |> wr (TWB_EVT_BUS_STUCK i) 1
      |> setTwb i { takeTxn (twbOf s i) with losses := 0 } |> txnResult t.owner 0x0B []) := by
  unfold doBusStuckRecovery
  dsimp only
  rw [hn, if_neg (by simpa using hs), if_neg (by decide)]

end

section
variable (hc : (twbOf s i).cur = some t)
include hc

theorem endTxn_of_cur {u : State} (hu : u.twbs = s.twbs) (state cause : Nat) (data : List Nat) : endTxn i state cause data u =
    (u |> setTwb i { twbOf s i with cur := none, losses := 0 } |> wr (TWB_STAT_STATE i) state
      |> txnResult t.owner cause (padTo t.rdLen data)) := by
  have h : twbOf u i = twbOf s i := by rw [twbOf, hu, twbOf]
  simp only [endTxn, h, hc]

variable (hs : rd s (TWB_STAT_STATE i) = 1)
include hs

theorem doTransactionDone_acknowledged (data : List Nat) : doTransactionDone i true data s =
    (s |> setTwb i { twbOf s i with cur := none, losses := 0 } |> wr (TWB_STAT_STATE i) 0
      |> txnResult t.owner 0 (padTo t.rdLen data)) := by
  rw [doTransactionDone, if_neg (not_not.2 hs), if_pos rfl, endTxn_of_cur hc rfl]

theorem doTransactionDone_nack (data : List Nat) : doTransactionDone i false data s =
    (s |> inc (TWB_CNT_NACK i) |> wr (TWB_EVT_NACK i) 1 |> setTwb i { twbOf s i with cur := none, losses := 0 }
      |> wr (TWB_STAT_STATE i) 0 |> txnResult t.owner 1 (padTo t.rdLen [])) := by
  rw [doTransactionDone, if_neg (not_not.2 hs), if_neg (by decide), endTxn_of_cur hc (by rw [wr_twbs, inc_twbs])]

theorem doStretchTimeout_busy : doStretchTimeout i s =
    (s |> inc (TWB_CNT_TIMEOUT i) |> wr (TWB_EVT_TIMEOUT i) 1 |> setTwb i { twbOf s i with cur := none, losses := 0 }
      |> wr (TWB_STAT_STATE i) 3 |> txnResult t.owner 4 (padTo t.rdLen [])) := by
  rw [doStretchTimeout, if_neg (not_not.2 hs), endTxn_of_cur hc (by rw [wr_twbs, inc_twbs])]

end

end

/-- Settles O38, command by command on a controller with a transaction due or on the bus. -/
theorem twoWireControllers : Obligations.TwoWireControllers := by
  refine ⟨fun s i t hi => ⟨fun hn => ⟨fun hs hr => ?_, fun hs hr free lost => ?_, fun hs => ⟨?_, ?_⟩⟩,
      fun hc hs => ⟨fun data => ?_, fun data => ?_, ?_⟩⟩,
    fun s => resumeTarget_rests⟩
  · have key : ∀ {free lost u}, doTransactionStart i free lost s = u → exec (.transactionStart i free lost) s = .next (resumeTarget u) :=
      fun h => h ▸ next_controller hi _
    exact ⟨key (doTransactionStart_onBus hn hs hr), key (doTransactionStart_notFree hn hs hr none),
      fun at_ h => key ((doTransactionStart_lost hn hs hr at_).trans (if_neg (Nat.not_lt.2 h))),
      fun at_ h => key ((doTransactionStart_lost hn hs hr at_).trans (if_pos h))⟩
  · exact doTransactionStart_notReady hn hs hr free lost ▸ next_controller hi _
  · exact doBusStuckRecovery_free hn hs ▸ next_controller hi _
  · exact doBusStuckRecovery_stuck hn hs ▸ next_controller hi _
  · exact doTransactionDone_acknowledged hc hs data ▸ next_controller hi _
  · exact doTransactionDone_nack hc hs data ▸ next_controller hi _
  · exact doStretchTimeout_busy hc hs ▸ next_controller hi _

/-! ## Writes of a target (R364 to R366) -/

section
variable {s : State} {addr7 a : Nat} (ht : targetTakes s 0 addr7 = true)
include ht

section
variable (hp : cfgI s islAO (TWB_T_CFG_PEC 0) ≠ 1) (bytes : List Nat) (e : Nat)
include hp

theorem doTargetWrite_words (h4 : bytes.length % 4 = 0) (he : e ≠ 2) :
    doTargetWrite 0 addr7 a bytes e s = targetWriteWords bytes (a % 2 ^ 32 / 4 * 4) s := by
  have hlen : 4 * (bytes.length / 4) = bytes.length := by omega
  simp only [doTargetWrite, ht, hp, hlen, List.take_length, h4, he]
  rfl

theorem doTargetWrite_cut (h4 : bytes.length % 4 ≠ 0) : doTargetWrite 0 addr7 a bytes e s =
    cutShort addr7 ((a % 2 ^ 32 / 4 * 4 + 4 * (bytes.length / 4)) % 2 ^ 32)
      (targetWriteWords (bytes.take (4 * (bytes.length / 4))) (a % 2 ^ 32 / 4 * 4) s) := by
  unfold doTargetWrite
  dsimp only
  rw [if_neg (by simp [ht]), if_neg hp, if_pos (.inl h4)]

end

theorem doTargetWrite_pec (hp : cfgI s islAO (TWB_T_CFG_PEC 0) = 1) (ws : List Nat) (pec : Nat) (h4 : ws.length % 4 = 0) (hne : ws ≠ [])
    (h64 : ws.length ≤ 64) : doTargetWrite 0 addr7 a (ws ++ [pec]) 0 s =
      if pec8 ([addr7 % 128 * 2] ++ leBytes 4 a ++ ws) = pec then targetWriteWords ws (a % 2 ^ 32 / 4 * 4) s
      else s |> inc (TWB_CNT2_PROTO_ERR 21) |> recordError ((twbErr 5 21 addr7).setting (TWB_EVT_PEC_ERR 21)) := by
  have hpos : 0 < ws.length := List.length_pos_iff.2 hne
  have hall : (ws ++ [pec]).take 65 = ws ++ [pec] := List.take_of_length_le (by simp; omega)
  have hn : 4 * ((ws ++ [pec]).length / 4) = ws.length := by simp; omega
  unfold doTargetWrite
  dsimp only
  rw [if_neg (by simp [ht]), if_pos hp, if_pos rfl, hall, hn, List.take_left' rfl]
  refine if_congr ?_ rfl rfl
  rw [List.getD_append_right _ _ _ _ (Nat.le_refl _)]
  simp
  omega

end

theorem doTargetWrite_other {s : State} {t addr7 : Nat} (h : targetTakes s t addr7 = false ∨ t = 1) (a : Nat) (bytes : List Nat) (e : Nat) :
    doTargetWrite t addr7 a bytes e s = s := if_pos (by rcases h with h | h <;> simp [h])

/-! ## Events of a target (R367 to R369) -/

section
variable {s : State} {t : Nat}

theorem doTargetSelfReset_noRead (h : targetWaits s = none ∨ t = 1) : doTargetSelfReset t s = (s |> setWanted t (0, 0)
    |> inc (TWB_CNT_TIMEOUT (21 + t))
    |> recordError ((twbErr 3 (21 + t) (cfgI s islAO (TWB_T_ADDR_ADDR t))).setting (TWB_EVT_TIMEOUT (21 + t)))) := by
  by_cases ht : t = 0
  · subst ht
    have hn : targetWaits s = none := h.resolve_right (by decide)
    simp [doTargetSelfReset, hn]
  · simp [doTargetSelfReset, ht]

theorem doWakeAddress_parked (hp : s.mnt.parked = true) (hw : cfgI s islAO (TWB_T_CFG_WAKE t) = 1) :
    doWakeAddress t s = (s |> inc (TWB_CNT2_WAKE (21 + t)) |> wr (TWB_EVT_WAKE (21 + t)) 1 |> askWake (1 + t)) := by
  simp [doWakeAddress, hp, hw]

/-- The state after a target has answered the alert response address. -/
def alertAnswered (t : Nat) (s : State) : State :=
  s |> emit (.targetData (21 + t) [cfgI s islAO (TWB_T_ADDR_ADDR t) * 2]) |> wr (TWB_STAT_ALERT (21 + t)) 0

theorem doAlertResponse_answers (ha : isSet s (TWB_STAT_ALERT (21 + t)) = true) : doAlertResponse t none s =
    { alertAnswered t s with pins := { (alertAnswered t s).pins with
        alertLow := isSet (alertAnswered t s) (TWB_STAT_ALERT 21) || isSet (alertAnswered t s) (TWB_STAT_ALERT 22) } } := by
  unfold doAlertResponse
  rw [if_neg (by simp [ha])]
  rfl

theorem isSet_alertAnswered_self : isSet (alertAnswered t s) (TWB_STAT_ALERT (21 + t)) = false := by
  rw [alertAnswered, isSet, rd_wr_same (by simp) (by simp)]
  rfl

theorem isSet_alertAnswered_other {i : Nat} (h : i ≠ 21 + t) :
    isSet (alertAnswered t s) (TWB_STAT_ALERT i) = isSet s (TWB_STAT_ALERT i) := by
  rw [alertAnswered, isSet, rd_wr_addr (by dsimp only; omega)]
  rfl

/-- ALERT_N is low afterwards only for the alert of the other target. -/
theorem alertLow_alertAnswered (h : t < 2) :
    (isSet (alertAnswered t s) (TWB_STAT_ALERT 21) || isSet (alertAnswered t s) (TWB_STAT_ALERT 22)) = isSet s (TWB_STAT_ALERT (22 - t)) := by
  rcases (by omega : t = 0 ∨ t = 1) with rfl | rfl
  · rw [isSet_alertAnswered_self (t := 0), isSet_alertAnswered_other (by decide)]
    rfl
  · rw [isSet_alertAnswered_self (t := 1), isSet_alertAnswered_other (by decide), Bool.or_false]

theorem doAlertResponse_effect (h : t < 2) (ha : isSet s (TWB_STAT_ALERT (21 + t)) = true) :
    isSet (doAlertResponse t none s) (TWB_STAT_ALERT (21 + t)) = false ∧
      (doAlertResponse t none s).pins.alertLow = isSet s (TWB_STAT_ALERT (22 - t)) ∧
      (doAlertResponse t none s).out = s.out ++ [.targetData (21 + t) [cfgI s islAO (TWB_T_ADDR_ADDR t) * 2]] := by
  rw [doAlertResponse_answers ha]
  exact ⟨isSet_alertAnswered_self, alertLow_alertAnswered h, rfl⟩

theorem doAlertResponse_lost (ha : isSet s (TWB_STAT_ALERT (21 + t)) = true) (at_ : Nat × Nat) :
    doAlertResponse t (some at_) s = arbLost (21 + t) at_ s := by
  simp [doAlertResponse, ha]

end

/-- Settles O39, command by command on a target. -/
theorem twoWireTargets : Obligations.TwoWireTargets := by
  refine ⟨fun s t addr7 a h2 => ⟨fun h => ⟨fun bytes e => next_congr (doTargetWrite_other (.inl h) a bytes e), fun n => ?_⟩,
      fun h => ⟨fun n => ?_, fun ht bytes e => next_congr (doTargetWrite_other (.inr ht) a bytes e), ?_, ?_⟩, fun hw => ?_, fun hp hw => ?_, fun ha => ?_, fun ha at_ => ?_⟩,
    fun s x hx => ?_, fun s n h => targetReadWords_waits h n⟩
  · exact next_congr ((if_pos h2).trans (if_neg (by simp [h])))
  · exact next_congr ((if_pos h2).trans (if_pos h))
  · rintro rfl hp bytes e
    exact ⟨fun h4 he => next_congr (doTargetWrite_words h hp bytes e h4 he), fun h4 => next_congr (doTargetWrite_cut h hp bytes e h4)⟩
  · rintro rfl hp ws pec h4 hne h64
    have key := doTargetWrite_pec (a := a) h hp ws pec h4 hne h64
    exact ⟨fun hb => next_congr (key.trans (if_pos hb)), fun hb => next_congr (key.trans (if_neg hb))⟩
  · exact next_congr ((if_pos h2).trans (doTargetSelfReset_noRead hw))
  · exact next_congr ((if_pos h2).trans (doWakeAddress_parked hp hw))
  · exact ⟨_, next_congr (if_pos h2), doAlertResponse_effect h2 ha⟩
  · exact next_congr ((if_pos h2).trans (doAlertResponse_lost ha at_))
  · exact next_congr (congrArg resumeTarget (by simp [doTargetDataTimeout, hx]))

end Sys2Proof.Machine

/-! PROOFS. Weave links: lanes, training, acknowledgements, and the neighbour (R385 to R392). -/

namespace Sys2Proof.Machine
open Sys2Proof

/-! ## Lanes -/

/-- A lane's mark is set, or taken away. -/
def markLane (p l : Nat) (s : State) : State :=
  s |> wr (WVE_STAT_LANE_OK p) (withBit (rd s (WVE_STAT_LANE_OK p)) l) |> setWv p { wvOf s p with failed := withoutBit (wvOf s p).failed l }
def unmarkLane (p l : Nat) (s : State) : State := wr (WVE_STAT_LANE_OK p) (withoutBit (rd s (WVE_STAT_LANE_OK p)) l) s

section
variable {s : State} {p l : Nat}

theorem wvState_of_rd {t : State} (h : rd t (WVE_STAT_STATE p) = rd s (WVE_STAT_STATE p)) : wvState t p = wvState s p := h

theorem laneOk_lt (s : State) (p : Nat) : rd s (WVE_STAT_LANE_OK p) < 2 ^ 5 := rd_lt s _

theorem withBit_lt {v n k : Nat} (h : v < 2 ^ k) (hn : n < k) : withBit v n < 2 ^ k :=
  Nat.or_lt_two_pow h (Nat.pow_lt_pow_right (by decide) hn)

theorem withoutBit_lt {v k : Nat} (h : v < 2 ^ k) (n : Nat) : withoutBit v n < 2 ^ k := by
  unfold withoutBit
  split
  · exact (Nat.sub_le ..).trans_lt h
  · exact h

theorem hasBit_withBit_ne {m : Nat} (v : Nat) (h : m ≠ l) : hasBit (withBit v l) m = hasBit v m := by
  simp [hasBit, withBit, h.symm]

theorem hasBit_withoutBit_same (v n : Nat) : hasBit (withoutBit v n) n = false := by simp [hasBit, testBit_withoutBit]

theorem hasBit_withoutBit_ne {m : Nat} (v : Nat) (h : m ≠ l) : hasBit (withoutBit v l) m = hasBit v m := by
  simp [hasBit, testBit_withoutBit, h]

theorem laneOk_markLane (hl : l < 5) : rd (markLane p l s) (WVE_STAT_LANE_OK p) = withBit (rd s (WVE_STAT_LANE_OK p)) l := by
  rw [markLane, rd_setWv]
  exact rd_wr_fits (by simp) (by simp) (withBit_lt (laneOk_lt s p) hl)

theorem laneOk_unmarkLane : rd (unmarkLane p l s) (WVE_STAT_LANE_OK p) = withoutBit (rd s (WVE_STAT_LANE_OK p)) l :=
  rd_wr_fits (by simp) (by simp) (withoutBit_lt (laneOk_lt s p) l)

theorem wvState_markLane : wvState (markLane p l s) p = wvState s p :=
  wvState_of_rd (by rw [markLane, rd_setWv, rd_wr_other (by simp) (by simp) (by simp)])

theorem failed_markLane : hasBit (wvOf (markLane p l s) p).failed l = false := by
  rw [markLane, wvOf_setWv_same]
  exact hasBit_withoutBit_same _ l

theorem doLaneLock_eq (hp : wvHere s p = true) (hl : l < 5) (hs : 1 ≤ wvState s p) : doLaneLock p l s =
    if wvState s p = 1 then
      if (wvOf (sendLane p (markLane p l s)) p).peerLanes = some (alignedLanes (sendLane p (markLane p l s)) p) then
        linkUp p (alignedLanes (sendLane p (markLane p l s)) p) (sendLane p (markLane p l s))
      else sendLane p (markLane p l s)
    else markLane p l s := by
  rw [← wvState_markLane (s := s) (p := p) (l := l)]
  exact if_pos (by simp [hp, hl, hs])

theorem doLaneLock_off (hs : wvState s p = 0) : doLaneLock p l s = s := if_neg (by simp [hs])

theorem doLaneLockLost_unlocked (h : hasBit (rd s (WVE_STAT_LANE_OK p)) l = false) : doLaneLockLost p l s = s := if_neg (by simp [h])

theorem doSyncHeaderErrors_unlocked (h : hasBit (rd s (WVE_STAT_LANE_OK p)) l = false) : doSyncHeaderErrors p l s = s :=
  if_neg (by simp [h])

theorem doLaneLockLost_locked (hp : wvHere s p = true) (hl : l < 5) (h : hasBit (rd s (WVE_STAT_LANE_OK p)) l = true) :
    doLaneLockLost p l s = failLane p l (unmarkLane p l s) := if_pos (by simp [hp, hl, h])

theorem doSyncHeaderErrors_locked (hp : wvHere s p = true) (hl : l < 5) (h : hasBit (rd s (WVE_STAT_LANE_OK p)) l = true) :
    doSyncHeaderErrors p l s = (s |> addSat (WVE_LANE_ERR_SYNC_ERR p l) 16 |> noteWear 3 (8 * p + l) 0 0 16 |> failLane p l) :=
  if_pos (by simp [hp, hl, h])

theorem laneLock_effect (hp : wvHere s p = true) (hl : l < 5) (hs : 1 ≤ wvState s p) :
    ∃ u v, v = sendLane p u ∧ (wvState s p ≠ 1 → exec (.laneLock p l) s = .next u) ∧
      (wvState s p = 1 → exec (.laneLock p l) s =
        .next (if (wvOf v p).peerLanes = some (alignedLanes v p) then linkUp p (alignedLanes v p) v else v)) ∧
      hasBit (rd u (WVE_STAT_LANE_OK p)) l = true ∧ hasBit (wvOf u p).failed l = false ∧
      (∀ m, m ≠ l → hasBit (rd u (WVE_STAT_LANE_OK p)) m = hasBit (rd s (WVE_STAT_LANE_OK p)) m) ∧ wvState u p = wvState s p := by
  refine ⟨markLane p l s, _, rfl, fun h => ?_, fun h => ?_, ?_, failed_markLane, fun m hm => ?_, wvState_markLane⟩
  · exact next_congr ((doLaneLock_eq hp hl hs).trans (if_neg h))
  · exact next_congr ((doLaneLock_eq hp hl hs).trans (if_pos h))
  · rw [laneOk_markLane hl, hasBit_withBit]
  · rw [laneOk_markLane hl, hasBit_withBit_ne _ hm]

theorem laneLockLost_effect (hp : wvHere s p = true) (hl : l < 5) (h : hasBit (rd s (WVE_STAT_LANE_OK p)) l = true) :
    ∃ u, exec (.laneLockLost p l) s = .next (failLane p l u) ∧ hasBit (rd u (WVE_STAT_LANE_OK p)) l = false ∧
      ∀ m, m ≠ l → hasBit (rd u (WVE_STAT_LANE_OK p)) m = hasBit (rd s (WVE_STAT_LANE_OK p)) m := by
  refine ⟨unmarkLane p l s, next_congr (doLaneLockLost_locked hp hl h), ?_, fun m hm => ?_⟩
  · rw [laneOk_unmarkLane, hasBit_withoutBit_same]
  · rw [laneOk_unmarkLane, hasBit_withoutBit_ne _ hm]

end

/-! ## Training -/

section
variable {s : State} {p : Nat}

theorem trains (rate : Nat) (s : State) : wvState (startTraining p rate s) p = 1 ∧
    rd (startTraining p rate s) (WVE_STAT_RATE_NOW p) = rate % 4 ∧ rd (startTraining p rate s) (WVE_STAT_LANE_OK p) = 0 ∧
    rd (startTraining p rate s) (WVE_STAT_LANES p) = 0 := by
  simp [wvState, startTraining, rd_wr_other, rd_wr_same]

section
variable (hp : wvHere s p = true) (he : wvCfg s p WVE_CFG_ENABLE = 1)
include hp he

theorem doTrainTimeout_lower (hs : wvState s p = 1) (hr : rd s (WVE_STAT_RATE_NOW p) < wvCfg s p WVE_CFG_MIN_RATE) :
    doTrainTimeout p s = startTraining p (rd s (WVE_STAT_RATE_NOW p) + 1) s := by
  simp [doTrainTimeout, hp, he, hs, hr]

theorem doTrainTimeout_waits (hs : wvState s p = 1) (hr : wvCfg s p WVE_CFG_MIN_RATE ≤ rd s (WVE_STAT_RATE_NOW p)) :
    doTrainTimeout p s = wr (WVE_STAT_STATE p) 0 s := by
  simp [doTrainTimeout, hp, he, hs, Nat.not_lt.2 hr]

theorem doTrainTimeout_again (hs : wvState s p = 0) : doTrainTimeout p s = startTraining p (wvCfg s p WVE_CFG_RATE) s := by
  simp [doTrainTimeout, hp, he, hs]

theorem doTrainTimeout_up (hs : wvUp s p = true) : doTrainTimeout p s = s := by
  have h2 : 2 ≤ wvState s p := of_decide_eq_true hs
  have h0 : wvState s p ≠ 0 := by omega
  have h1 : wvState s p ≠ 1 := by omega
  simp [doTrainTimeout, hp, he, h0, h1]

end

/-- What a LANE block in training says: the peer's UID, and its lanes where it runs at the port's rate. -/
def peerSays (p uid : Nat) (lanes : Option Nat) (s : State) : State :=
  s |> setWv p { wvOf s p with peerLanes := lanes } |> wr (WVE_PEER_UID_LO_UID p) (uid % 2 ^ 32) |> wr (WVE_PEER_UID_HI_UID p) (uid / 2 ^ 32)

/-- The link of a port is UP on some lanes, before it is said whether it is degraded. -/
def upOn (p mask : Nat) (s : State) : State :=
  s |> useLanes p mask |> wr (WVE_STAT_STATE p) 2 |> wr (WVE_EVT_LINK_UP p) 1 |> (fun s => setWv p { wvOf s p with rejected := false } s)

theorem linkUp_eq (mask : Nat) (s : State) : linkUp p mask s = noteDegraded p (upOn p mask s) := rfl

theorem popCount_le (n v : Nat) : popCount n v ≤ n := by
  simpa [popCount] using List.length_filter_le (hasBit v) (List.range n)

theorem upOn_shows (mask : Nat) (s : State) : wvState (upOn p mask s) p = 2 ∧ (wvOf (upOn p mask s) p).lanes = mask ∧
    rd (upOn p mask s) (WVE_EVT_LINK_UP p) = 1 ∧ rd (upOn p mask s) (WVE_STAT_LANES p) = popCount 4 mask := by
  have h8 : popCount 4 mask % 8 = popCount 4 mask := Nat.mod_eq_of_lt ((popCount_le 4 mask).trans_lt (by decide))
  refine ⟨?_, ?_, ?_, ?_⟩
  · rw [wvState, upOn, rd_setWv, rd_wr_other (by simp) (by simp) (by simp), rd_wr_fits (by simp) (by simp) (by simp)]
  · simp [upOn, useLanes]
  · rw [upOn, rd_setWv]
    exact rd_set_oneBit ⟨rfl, by simp⟩ _
  · simp [upOn, useLanes, rd_wr_other, rd_wr_same, h8]

theorem wvOf_peerSays (uid : Nat) (lanes : Option Nat) : wvOf (peerSays p uid lanes s) p = { wvOf s p with peerLanes := lanes } := by
  simp [peerSays]

theorem stat_peerSays (uid : Nat) (lanes : Option Nat) {r : RF} (hr : r.addr = 0x800010 + 0x1000 * p) :
    rd (peerSays p uid lanes s) r = rd s r := by
  rw [peerSays, rd_wr_addr (by dsimp only; omega), rd_wr_addr (by dsimp only; omega), rd_setWv]

theorem alignedLanes_peerSays (uid : Nat) (lanes : Option Nat) : alignedLanes (peerSays p uid lanes s) p = alignedLanes s p := by
  simp only [alignedLanes, laneLocked, wvOf_peerSays, stat_peerSays (p := p) uid lanes (r := WVE_STAT_LANE_OK p) rfl,
    stat_peerSays (p := p) uid lanes (r := WVE_STAT_LANE_NOW p) rfl]

theorem doLaneBlock_training (hp : wvHere s p = true) (hs : wvState s p = 1) (uid rate lanes map : Nat) : doLaneBlock p uid rate lanes map s =
    if (if rate = rd s (WVE_STAT_RATE_NOW p) ∧ lanes % 16 ≠ 0 then some (lanes % 16) else none) = some (alignedLanes s p) then
      sendLane p (linkUp p (lanes % 16)
        (peerSays p uid (if rate = rd s (WVE_STAT_RATE_NOW p) ∧ lanes % 16 ≠ 0 then some (lanes % 16) else none) s))
    else peerSays p uid (if rate = rd s (WVE_STAT_RATE_NOW p) ∧ lanes % 16 ≠ 0 then some (lanes % 16) else none) s := by
  have h : ∀ pl, (wvOf (peerSays p uid pl s) p).peerLanes = some (alignedLanes (peerSays p uid pl s) p) ↔ pl = some (alignedLanes s p) :=
    fun pl => by rw [wvOf_peerSays, alignedLanes_peerSays]
  rw [doLaneBlock, if_neg (by simp [hp]), if_pos hs]
  exact if_congr (h _) rfl rfl

theorem laneBlock_agrees (hp : wvHere s p = true) (hs : wvState s p = 1) {uid rate lanes map : Nat} (h0 : lanes % 16 ≠ 0)
    (ha : lanes % 16 = alignedLanes s p) (hr : rate = rd s (WVE_STAT_RATE_NOW p)) :
    ∃ u, exec (.laneBlock p uid rate lanes map) s = .next (sendLane p (noteDegraded p u)) ∧ wvState u p = 2 ∧
      (wvOf u p).lanes = lanes % 16 ∧ rd u (WVE_EVT_LINK_UP p) = 1 ∧ rd u (WVE_STAT_LANES p) = popCount 4 (lanes % 16) := by
  refine ⟨_, next_congr ((doLaneBlock_training hp hs ..).trans ((if_pos ?_).trans (congrArg _ (linkUp_eq ..)))), upOn_shows ..⟩
  rw [if_pos ⟨hr, h0⟩, ha]

theorem laneBlock_differs (hp : wvHere s p = true) (hs : wvState s p = 1) {uid rate lanes map : Nat}
    (h : lanes % 16 = 0 ∨ lanes % 16 ≠ alignedLanes s p ∨ rate ≠ rd s (WVE_STAT_RATE_NOW p)) :
    ∃ t, exec (.laneBlock p uid rate lanes map) s = .next t ∧ wvState t p = 1 := by
  refine ⟨_, next_congr ((doLaneBlock_training hp hs ..).trans (if_neg ?_)), (wvState_of_rd (stat_peerSays _ _ rfl)).trans hs⟩
  split
  · next hc =>
    rw [Option.some.injEq]
    exact (h.resolve_left hc.2).resolve_right (not_not.2 hc.1)
  · simp

end

/-! ## Acknowledgements (R390) -/

section
variable {s : State} {p : Nat}

theorem wvOf_sendLocal (type : Nat) (pl : List Nat) (q : Nat) (s : State) : wvOf (sendLocal p type pl s) q = wvOf s q :=
  wvOf_congr ((sendLocal_ev rfl (ev_refl [.out] s) p type pl).same (x := .weaves) (by decide)) q

theorem fresh_sendAck (s : State) : (wvOf (sendAck p s) p).fresh = 0 := by rw [sendAck, wvOf_sendLocal, wvOf_setWv_same]

section
variable (hp : wvHere s p = true) (hu : wvUp s p = true)
include hp hu

theorem doAckTimer_eq : doAckTimer p s = if 0 < (wvOf s p).fresh then sendAck p s else s := by simp [doAckTimer, hp, hu]

/-- An ACK without a map frees the blocks up to CUM; with no block that waits, that is all. -/
theorem doAckBlock_noMap (hw : (wvOf s p).waitQ = []) (hm : s.rly.mirrors = []) (cum : Nat) :
    (wvOf (doAckBlock p cum 0 s) p).retry =
      (wvOf s p).retry.filter (fun r => decide ((r.1.seq + 4096 - cum % 4096) % 4096 ≤ 512)) := by
  have hbits : (List.range 256).filter (hasBit 0) = [] := List.filter_eq_nil_iff.2 fun i _ => by simp [hasBit]
  have hdrain : ∀ t : State, (wvOf t p).waitQ = [] → drainWait p 512 t = t := fun t ht => by simp [drainWait, ht]
  have hl : ∀ b : Block × Nat, (!(decide (512 < (b.1.seq + 4096 - cum % 4096) % 4096) ||
      decide (1 ≤ (b.1.seq + 4096 - cum % 4096) % 4096) && decide ((b.1.seq + 4096 - cum % 4096) % 4096 ≤ 256) &&
        hasBit 0 ((b.1.seq + 4096 - cum % 4096) % 4096 - 1))) = decide ((b.1.seq + 4096 - cum % 4096) % 4096 ≤ 512) := fun b => by
    have h0 : ∀ n, hasBit 0 n = false := fun n => by simp [hasBit]
    rw [h0, Bool.and_false, Bool.or_false, ← decide_not]
    exact decide_eq_decide.2 Nat.not_lt
  unfold doAckBlock
  rw [if_neg (by simp [hp, hu])]
  simp only [hl, hbits, List.foldl_nil, Nat.not_lt_zero, decide_false, List.filter_false]
  rw [hdrain _ (by simp [noteUnacked, hw])]
  simp [noteUnacked, hm]

theorem doRetransmitTimeout_empty (h : (wvOf s p).retry = []) : doRetransmitTimeout p s = s := by simp [doRetransmitTimeout, hp, hu, h]

end

theorem doAckBlock_down (h : wvUp s p = false) (c m : Nat) : doAckBlock p c m s = s := if_pos (by simp [h])
theorem doHelloBlock_down (h : wvUp s p = false) (a b c d e : Nat) : doHelloBlock p a b c d e s = s := if_pos (by simp [h])
theorem linkDown_down (h : wvUp s p = false) : linkDown p s = s := if_pos (by simp [h])

end

/-! ## HELLO (R392) -/

/-- A HELLO with another NAME is noted. -/
def rejectPeer (p : Nat) (s : State) : State := setWv p { wvOf s p with rejected := true } s

/-- A HELLO of the own NAME shows the neighbour. -/
def showPeer (p uid fid port : Nat) (s : State) : State :=
  s |> setWv p { wvOf s p with rejected := false, peerPort := port }
    |> wr (WVE_PEER_UID_LO_UID p) (uid % 2 ^ 32) |> wr (WVE_PEER_UID_HI_UID p) (uid / 2 ^ 32)
    |> wr (WVE_STAT_PEER_VALID p) (fid / 128 % 2) |> wr (WVE_STAT_PEER_FID p) (fid % 32)

section
variable {s : State} {p : Nat}

theorem showPeer_shows (uid fid port : Nat) : rd (showPeer p uid fid port s) (WVE_STAT_PEER_FID p) = fid % 32 ∧
    rd (showPeer p uid fid port s) (WVE_STAT_PEER_VALID p) = fid / 128 % 2 ∧ peerUid (showPeer p uid fid port s) p = uid % 2 ^ 64 ∧
    (wvOf (showPeer p uid fid port s) p).rejected = false ∧ (wvOf (showPeer p uid fid port s) p).peerPort = port := by
  refine ⟨?_, ?_, ?_, ?_, ?_⟩
  · simp [showPeer, rd_wr_same]
  · simp [showPeer, rd_wr_other, rd_wr_same]
  · simp [peerUid, showPeer, rd_wr_other, rd_wr_same]
    omega
  · simp [showPeer]
  · simp [showPeer]

theorem not_isErr_nameRej (hp : p < 4) : ¬ isErr ((fabErr 4 0).setting FAB_EVT_NAME_REJ) (0x800010 + 0x1000 * p) := by
  have hb : errBase ((fabErr 4 0).setting FAB_EVT_NAME_REJ).unit ((fabErr 4 0).setting FAB_EVT_NAME_REJ).inst = 0x840018 := rfl
  rintro ((hq | ⟨r, hr, ha⟩) | ⟨h, -⟩)
  · unfold isQmx at hq
    omega
  · obtain rfl : r = FAB_EVT_NAME_REJ := by simpa [fabErr, ErrInfo.setting] using hr
    dsimp only at ha
    omega
  · rw [hb] at h
    omega

section
variable (hp : wvHere s p = true) (hu : wvUp s p = true)
include hp hu

theorem doHelloBlock_own (uid fid port gen : Nat) : doHelloBlock p uid (fabName s) fid port gen s =
    refreshFabric (if wvActive (adoptGeneration gen (showPeer p uid fid port s)) p then adoptGeneration gen (showPeer p uid fid port s)
      else becomeActive p (adoptGeneration gen (showPeer p uid fid port s))) := by
  rw [doHelloBlock, if_neg (by simp [hp, hu]), if_neg (by simp)]
  rfl

variable {name : Nat} (hn : name ≠ fabName s) (ha : wvActive s p = false)
include hn ha

theorem doHelloBlock_rejectedAgain (hr : (wvOf s p).rejected = true) (uid fid port gen : Nat) :
    doHelloBlock p uid name fid port gen s = rejectPeer p s := by
  have ha' : wvActive (rejectPeer p s) p = false := ha
  rw [doHelloBlock, if_neg (by simp [hp, hu]), if_pos hn]
  simp only [hr, if_true]
  exact if_neg (by simpa [rejectPeer] using ha')

theorem doHelloBlock_rejected (hr : (wvOf s p).rejected = false) (uid fid port gen : Nat) :
    doHelloBlock p uid name fid port gen s = recordError ((fabErr 4 0).setting FAB_EVT_NAME_REJ) (rejectPeer p s) := by
  have h4 : p < 4 := by
    simp only [wvHere, Bool.and_eq_true, decide_eq_true_eq] at hp
    exact hp.1
  have ha' : wvActive (recordError ((fabErr 4 0).setting FAB_EVT_NAME_REJ) (rejectPeer p s)) p = false := by
    rw [wvActive, wvState, rd_recordError (not_isErr_nameRej h4)]
    exact ha
  rw [doHelloBlock, if_neg (by simp [hp, hu]), if_pos hn]
  simp only [hr, Bool.false_eq_true, if_false]
  exact if_neg (by simpa [rejectPeer] using ha')

end

end

/-- Settles O53, command by command on a port of the device. -/
theorem weaveLinks : Obligations.WeaveLinks := by
  intro s p hp
  refine ⟨fun l hl => ⟨laneLock_effect hp hl, fun hs => next_congr (doLaneLock_off hs),
      fun h => ⟨next_congr (doLaneLockLost_unlocked h), next_congr (doSyncHeaderErrors_unlocked h)⟩,
      fun h => ⟨laneLockLost_effect hp hl h, next_congr (doSyncHeaderErrors_locked hp hl h)⟩⟩,
    fun he => ⟨fun hs hr => next_congr (doTrainTimeout_lower hp he hs hr), fun hs hr => ?_,
      fun hs => next_congr (doTrainTimeout_again hp he hs), fun hs => next_congr (doTrainTimeout_up hp he hs)⟩,
    fun rate => trains rate s,
    fun uid rate lanes map hs => ⟨laneBlock_agrees hp hs, laneBlock_differs hp hs⟩,
    fun hu => ⟨⟨_, next_congr (if_pos (by simp [hp, hu])), rfl⟩, fun h => ?_, fun h => ?_, fresh_sendAck s,
      fun cum hw hm => ⟨_, rfl, doAckBlock_noMap hp hu hw hm cum⟩, fun h => next_congr (doRetransmitTimeout_empty hp hu h),
      ⟨_, next_congr (if_pos (by simp [hp, hu]))⟩,
      fun uid name fid port gen hn => ⟨fun hr ha => ?_, fun hr ha => ?_⟩,
      fun uid fid port gen => ⟨showPeer p uid fid port s, _, next_congr (doHelloBlock_own hp hu ..), rfl, showPeer_shows ..⟩,
      next_congr (if_pos hp)⟩,
    fun h => ⟨next_congr (if_neg (by simp [h])), next_congr (if_neg (by simp [h])), next_congr (if_neg (by simp [h])),
      next_congr (if_neg (by simp [h])), ?_, fun c m => next_congr (doAckBlock_down h c m),
      fun a b c d e => next_congr (doHelloBlock_down h a b c d e)⟩⟩
  · refine ⟨_, next_congr (doTrainTimeout_waits hp he hs hr), rd_wr_same (by simp) (by simp), fun x hx => ?_⟩
    exact (wr_ev rfl (ev_refl [.regs] s) _ _).same (by simpa using hx)
  · exact next_congr ((doAckTimer_eq hp hu).trans (if_neg (by omega)))
  · exact next_congr ((doAckTimer_eq hp hu).trans (if_pos h))
  · exact ⟨_, next_congr (doHelloBlock_rejectedAgain hp hu hn ha hr ..), rfl, by rw [rejectPeer, wvOf_setWv_same]⟩
  · exact ⟨_, next_congr (doHelloBlock_rejected hp hu hn ha hr ..), rfl, by rw [rejectPeer, wvOf_setWv_same]⟩
  · exact next_congr ((if_pos hp).trans (linkDown_down h))

end Sys2Proof.Machine

/-! PROOFS. Sequenced blocks that arrive at a weave port (R389, R390, R392). -/

namespace Sys2Proof.Machine
open Sys2Proof

/-- A block as it is held: its sequence number has 12 bits. -/
def heldBlock (b : Block) : Block := { b with seq := b.seq % 4096 }

/-- How far a block lies beyond the next one expected. -/
def blockAhead (p : Nat) (b : Block) (s : State) : Nat := (b.seq % 4096 + 4096 - (wvOf s p).cum) % 4096

/-- A block joins those that are held. -/
def holdBlock (p : Nat) (b : Block) (s : State) : State :=
  setWv p { wvOf s p with fresh := (wvOf s p).fresh + 1, held := (wvOf s p).held ++ [heldBlock b] } s

/-- The block that is next has been accepted, and CUM has moved on. -/
def acceptBlock (p : Nat) (b : Block) (s : State) : State :=
  setWv p { wvOf s p with
    fresh := (wvOf s p).fresh + 1, cum := ((wvOf s p).cum + 1) % 4096
    held := (wvOf s p).held.filter fun h => h.seq != (heldBlock b).seq } (holdBlock p b s)

section
variable {s : State} {p : Nat} {b : Block}

theorem receiveBlock_shut (h : wvHere s p = false ∨ wvUp s p = false ∨ (wvOf s p).rejected = true) : receiveBlock p b s = s :=
  if_pos (by rcases h with h | h | h <;> simp [h])

section
variable (hp : wvHere s p = true) (hu : wvUp s p = true) (hr : (wvOf s p).rejected = false)
include hp hu hr

theorem receiveBlock_known (h : 512 ≤ blockAhead p b s ∨ (wvOf s p).held.any (fun h => h.seq == (heldBlock b).seq) = true) :
    receiveBlock p b s = sendAck p s :=
  (if_neg (by simp [hp, hu, hr])).trans (if_pos h)

theorem receiveBlock_new (hh : (wvOf s p).held.any (fun h => h.seq == (heldBlock b).seq) = false) (hd : blockAhead p b s < 512) :
    receiveBlock p b s = if blockAhead p b s = 0 then ackIfDue p (noteHeld p (deliverHeld p 512 (holdBlock p b s)))
      else sendAck p (noteHeld p (holdBlock p b s)) :=
  (if_neg (by simp [hp, hu, hr])).trans (if_neg (not_or.2 ⟨Nat.not_le.2 hd, by rw [← Bool.not_eq_true] at hh; exact hh⟩))

end

/-- The block that is next is the one whose number is CUM. -/
theorem seq_of_next (hc : (wvOf s p).cum < 4096) (h : blockAhead p b s = 0) : (heldBlock b).seq = (wvOf s p).cum := by
  unfold blockAhead at h
  show b.seq % 4096 = _
  omega

theorem find_held_append {v : Block} {l : List Block} (hl : l.any (fun h => h.seq == v.seq) = false) :
    (l ++ [v]).find? (fun h => h.seq == v.seq) = some v := by
  rw [List.any_eq_false] at hl
  rw [List.find?_append, List.find?_eq_none.2 hl]
  simp

/-- The first round of a delivery takes the block that has just come. -/
theorem deliverHeld_holdBlock (n : Nat) (hc : (wvOf s p).cum < 4096) (h : blockAhead p b s = 0)
    (hh : (wvOf s p).held.any (fun h => h.seq == (heldBlock b).seq) = false) :
    deliverHeld p (n + 1) (holdBlock p b s) = deliverHeld p n (deliverBlock p (heldBlock b) (acceptBlock p b s)) := by
  have hw : wvOf (holdBlock p b s) p =
      { wvOf s p with fresh := (wvOf s p).fresh + 1, held := (wvOf s p).held ++ [heldBlock b] } := wvOf_setWv_same ..
  have hf : ((wvOf s p).held ++ [heldBlock b]).filter (fun c => c.seq != (heldBlock b).seq) =
      (wvOf s p).held.filter fun c => c.seq != (heldBlock b).seq := by
    simp [List.filter_append]
  rw [deliverHeld]
  simp only [hw, ← seq_of_next hc h, find_held_append hh, hf]
  rw [acceptBlock, seq_of_next hc h]

theorem wvOf_acceptBlock_same : wvOf (acceptBlock p b s) p = { wvOf s p with
    fresh := (wvOf s p).fresh + 1, cum := ((wvOf s p).cum + 1) % 4096
    held := (wvOf s p).held.filter fun h => h.seq != (heldBlock b).seq } := wvOf_setWv_same ..

theorem wvOf_acceptBlock_ne {q : Nat} (h : q ≠ p) : wvOf (acceptBlock p b s) q = wvOf s q := by
  rw [acceptBlock, wvOf_setWv_ne _ _ _ h.symm, holdBlock, wvOf_setWv_ne _ _ _ h.symm]

theorem acceptBlock_same {x : StateField} (h : x ≠ .weaves) : x.same s (acceptBlock p b s) :=
  (setWv_ev rfl (setWv_ev rfl (ev_refl [.weaves] s) p _) p _).same (by simpa using h)

theorem wvOf_noteHeld_ne {q : Nat} (h : q ≠ p) : wvOf (noteHeld p (holdBlock p b s)) q = wvOf s q := by
  rw [noteHeld, wvOf_wr, holdBlock, wvOf_setWv_ne _ _ _ h.symm]

theorem noteHeld_same {x : StateField} (h1 : x ≠ .regs) (h2 : x ≠ .weaves) : x.same s (noteHeld p (holdBlock p b s)) :=
  (wr_ev rfl (setWv_ev rfl (ev_refl [.regs, .weaves] s) p _) _ _).same (by simp [h1, h2])

end

/-- What becomes of a sequenced block that comes to a port (R390). -/
def blockComes (s : State) (p : Nat) (b : Block) (r : Host.Outcome State Fault Refusal) : Prop :=
  (wvHere s p = false ∨ wvUp s p = false ∨ (wvOf s p).rejected = true → r = .next s) ∧
    (wvHere s p = true → wvUp s p = true → (wvOf s p).rejected = false →
      ((512 ≤ blockAhead p b s ∨ (wvOf s p).held.any (fun h => h.seq == (heldBlock b).seq) = true) → r = .next (sendAck p s)) ∧
      ((wvOf s p).held.any (fun h => h.seq == (heldBlock b).seq) = false → blockAhead p b s < 512 →
        (blockAhead p b s ≠ 0 → ∃ u, r = .next (sendAck p u) ∧
          wvOf u p = { wvOf s p with fresh := (wvOf s p).fresh + 1, held := (wvOf s p).held ++ [heldBlock b] } ∧
          (∀ q, q ≠ p → wvOf u q = wvOf s q) ∧ (∀ x, x ≠ .regs → x ≠ .weaves → StateField.same x s u)) ∧
        (blockAhead p b s = 0 → (wvOf s p).cum < 4096 → ∃ u,
          r = .next (ackIfDue p (noteHeld p (deliverHeld p 511 (deliverBlock p (heldBlock b) u)))) ∧
          wvOf u p = { wvOf s p with
            fresh := (wvOf s p).fresh + 1, cum := ((wvOf s p).cum + 1) % 4096
            held := (wvOf s p).held.filter fun h => h.seq != (heldBlock b).seq } ∧
          (∀ q, q ≠ p → wvOf u q = wvOf s q) ∧ ∀ x, x ≠ .weaves → StateField.same x s u)))

theorem receiveBlock_comes (s : State) (p : Nat) (b : Block) : blockComes s p b (.next (receiveBlock p b s)) := by
  refine ⟨fun h => next_congr (receiveBlock_shut h), fun hp hu hr => ⟨fun h => next_congr (receiveBlock_known hp hu hr h),
    fun hh hd => ⟨fun h0 => ?_, fun h0 hc => ?_⟩⟩⟩
  · refine ⟨noteHeld p (holdBlock p b s), next_congr ((receiveBlock_new hp hu hr hh hd).trans (if_neg h0)), ?_,
      fun q => wvOf_noteHeld_ne, fun x => noteHeld_same⟩
    rw [noteHeld, wvOf_wr]
    exact wvOf_setWv_same ..
  · refine ⟨acceptBlock p b s, next_congr ((receiveBlock_new hp hu hr hh hd).trans ((if_pos h0).trans ?_)), wvOf_acceptBlock_same,
      fun q => wvOf_acceptBlock_ne, fun x => acceptBlock_same⟩
    rw [deliverHeld_holdBlock 511 hc h0 hh]

/-- Settles O54: each of the commands is the arrival of a block. -/
theorem sequencedBlocks : Obligations.SequencedBlocks := by
  intro s p
  exact ⟨fun _ _ _ _ _ => receiveBlock_comes s p _, fun _ _ _ _ _ => receiveBlock_comes s p _,
    fun _ _ _ _ _ _ => receiveBlock_comes s p _, fun _ _ _ _ _ => receiveBlock_comes s p _, fun _ _ _ => receiveBlock_comes s p _,
    fun _ _ _ _ => receiveBlock_comes s p _, fun _ _ _ => receiveBlock_comes s p _, fun _ _ => receiveBlock_comes s p _,
    fun _ _ => receiveBlock_comes s p _, fun _ _ => receiveBlock_comes s p _, fun _ _ => receiveBlock_comes s p _,
    fun _ _ => receiveBlock_comes s p _⟩

end Sys2Proof.Machine

/-! PROOFS. The roll call: advertisements, fabric IDs and their saving, and time over the weave (R393, R394, R402). -/

namespace Sys2Proof.Machine
open Sys2Proof

/-! ## The sticky ID through a log record (R394, R425) -/

/-- The ID that the books keep as the sticky one is the same. -/
def sameSticky (s t : State) : Prop := t.jnl.stickyFid = s.jnl.stickyFid

section
variable {s t u : State}

theorem sameSticky.trans (h : sameSticky s t) (k : sameSticky t u) : sameSticky s u := Eq.trans k h

theorem sameSticky_of_evolves {F : List StateField} (h : Evolves F s t) (hF : .jnl ∉ F := by decide) : sameSticky s t :=
  congrArg JnlSt.stickyFid (h.same (x := .jnl) hF)

theorem svcReceive_sticky (q : Nat) (ws : List Nat) (s : State) : sameSticky s (svcReceive q ws s) := by
  unfold svcReceive
  split
  · rfl
  · split <;> rfl

theorem announce_sticky (es : List RF) (s : State) : sameSticky s (announce es s) :=
  sameSticky_of_evolves (announce_ev rfl (ev_refl [.regs] s) es)

theorem appendPacket_sticky (q p : Nat) (ws : List Nat) (s : State) : sameSticky s (appendPacket q p ws s).1 := by
  have ho := openPacket_ev rfl (ev_refl [.regs, .queues, .readPorts] s) q p
  have hw := putWords_ev rfl ho q ws
  unfold appendPacket
  dsimp only
  split
  · exact sameSticky_of_evolves ho
  · split
    · next s' e =>
      rw [e] at hw
      exact (sameSticky_of_evolves (commitOpen_ev rfl hw q)).trans (svcReceive_sticky q ws _)
    · exact sameSticky_of_evolves hw

theorem putPlain_sticky (q p : Nat) (ws : List Nat) (b : Bool) (es : List RF) (s : State) : sameSticky s (putPlain q p ws b es s).1 := by
  unfold putPlain
  split
  · exact announce_sticky es s
  · dsimp only
    split
    · rfl
    · exact (appendPacket_sticky q p ws s).trans (announce_sticky es _)

theorem putCopy_sticky (q : Nat) (ws : List Nat) (s : State) : sameSticky s (putCopy q ws s).1 := by
  have k := putPlain_sticky (eff s (QMX_Q_COPY_COPY_Q q)) 0xFFFF ws true [] s
  unfold putCopy
  dsimp only
  split
  · rfl
  · split
    · next s' e => rw [e] at k; exact k
    · next s' _ e => rw [e] at k; exact k

theorem qPutRaw_sticky (q p : Nat) (ws : List Nat) (es : List RF) (s : State) : sameSticky s (qPutRaw q p ws es s).1 := by
  have k := putPlain_sticky q p ws false es s
  unfold qPutRaw
  split
  · next s' e => rw [e] at k; exact k.trans (putCopy_sticky q ws s')
  · next s' e => rw [e] at k; exact k
  · next s' _ e => rw [e] at k; exact k

theorem recordError_sticky (e : ErrInfo) (s : State) : sameSticky s (recordError e s) := by
  unfold recordError logError
  extract_lets b last first s1 s2 s3 rec32
  refine sameSticky.trans (t := s3) ?_ (qPutRaw_sticky ..)
  simp only [s3]
  split <;> rfl

theorem qPut_sticky (q p : Nat) (ws : List Nat) (s : State) : sameSticky s (qPut q p ws s) :=
  List.foldlRecOn _ _ (motive := sameSticky s) (qPutRaw_sticky q p ws [] s) fun t ht _ _ => ht.trans (recordError_sticky _ t)

theorem journal_sticky (type : Nat) (payload : List Nat) (s : State) : sameSticky s (journal type payload s) := by
  unfold journal
  extract_lets bs j s1 s2 off s3
  have h1 : sameSticky s s1 := by
    simp only [s1]
    split <;> rfl
  have h3 : sameSticky s s3 := by
    refine h1.trans ?_
    simp only [s3]
    split <;> rfl
  exact h3.trans (qPut_sticky ..)

theorem writeStateArea_sticky (s : State) : sameSticky s (writeStateArea s) := by
  unfold writeStateArea
  dsimp only
  split <;> rfl

end

/-! ## Advertisements (R393) -/

section
variable {s : State}

theorem sendLsa_fab (s : State) : (sendLsa s).fab = { s.fab with ownSeq := u32 (s.fab.ownSeq + 1), sent := lsaHead s ++ lsaLinks s } :=
  (ev_foldl (ev_refl [.regs, .weaves, .out] _) fun u p hu => sendBlock_ev rfl hu p 7 3 0 _ :
    Evolves [.regs, .weaves, .out] { s with fab := { s.fab with ownSeq := u32 (s.fab.ownSeq + 1), sent := lsaHead s ++ lsaLinks s } }
      (sendLsa s)).same (x := .fab) (by decide)

/-- The database without one originator's advertisement. -/
def withoutLsa (uid : Nat) (s : State) : State := { s with fab := { s.fab with lsas := s.fab.lsas.filter fun l => l.uid != uid } }

theorem lsaOf_withoutLsa_same (uid : Nat) (s : State) : lsaOf (withoutLsa uid s) uid = none := by
  refine List.find?_eq_none.2 fun l hl => ?_
  simpa using (List.mem_filter.1 hl).2

theorem lsaOf_withoutLsa_ne {uid v : Nat} (h : v ≠ uid) (s : State) : lsaOf (withoutLsa uid s) v = lsaOf s v := by
  show (s.fab.lsas.filter fun l => l.uid != uid).find? (fun l => l.uid == v) = s.fab.lsas.find? fun l => l.uid == v
  rw [List.find?_filter]
  refine congrArg (List.find? · s.fab.lsas) (funext fun l => ?_)
  by_cases hl : l.uid = v <;> simp [hl, h]

theorem withoutLsa_same {uid : Nat} {x : StateField} (h : x ≠ .fab) : x.same s (withoutLsa uid s) :=
  (ev_fab rfl (ev_refl [.fab] s)).same (by simpa using h)

theorem doLsaAge_none {uid : Nat} (h : lsaOf s uid = none) : doLsaAge uid s = s := by simp [doLsaAge, h]

theorem doLsaAge_stored {uid : Nat} (h : (lsaOf s uid).isSome = true) : doLsaAge uid s = refreshFabric (withoutLsa uid s) := if_pos h

/-! ## Fabric IDs (R394) -/

theorem doFidClaim_eq (hc : s.fab.claiming = true) (ho : ownFid s = none) (ha : activePorts s ≠ []) {f : Nat}
    (hf : ((List.range 32).find? fun f => !s.fab.lsas.any fun l => l.fid == some f) = some f) : doFidClaim s = claimFid f s := by
  have ha' : (activePorts s).isEmpty = false := by simpa [List.isEmpty_iff] using ha
  simp [doFidClaim, hc, ho, ha', hf]

/-- The lowest ID that no stored advertisement claims. -/
theorem lowest_unclaimed {f : Nat} (h32 : f < 32) (hf : ∀ l ∈ s.fab.lsas, l.fid ≠ some f)
    (hl : ∀ g, g < f → ∃ l ∈ s.fab.lsas, l.fid = some g) :
    ((List.range 32).find? fun f => !s.fab.lsas.any fun l => l.fid == some f) = some f := by
  rw [List.find?_range_eq_some]
  refine ⟨?_, by simpa using h32, fun g hg => ?_⟩
  · simpa using hf
  · simpa using hl g hg

theorem doFidClaim_off (h : s.fab.claiming = false ∨ ownFid s ≠ none ∨ activePorts s = []) : doFidClaim s = s := by
  refine if_neg ?_
  rcases h with h | h | h
  · simp [h]
  · simp [Option.isNone_iff_eq_none, h]
  · simp [h]

theorem doFidJournal_off (h : ownFid s = none ∨ s.fab.saved = true) : doFidJournal s = s := by
  unfold doFidJournal
  rcases h with h | h
  · rw [h]
  · split
    · rfl
    · exact if_pos h

theorem doFidJournal_saves {f : Nat} (ho : ownFid s = some f) (h : s.fab.saved = false) :
    (doFidJournal s).fab.saved = true ∧ (doFidJournal s).jnl.stickyFid = some f := by
  simp only [doFidJournal, ho, h, Bool.false_eq_true, if_false]
  exact ⟨congrArg FabSt.saved ((journal_ev rfl (writeStateArea_ev rfl (ev_refl
      [.regs, .queues, .readPorts, .svcStats, .jnl, .jmem] _)) 7 _).same (x := .fab) (by decide)),
    (writeStateArea_sticky _).trans (journal_sticky 7 _ _)⟩

/-! ## Time over the weave (R402) -/

section
variable {p : Nat}

theorem doTimeExchange_active (hp : wvHere s p = true) (ha : wvActive s p = true) :
    ∃ u pl, doTimeExchange p s = sendLocal p 0xB pl u ∧ (wvOf u p).timeSent = syncTime s :=
  ⟨setWv p { wvOf s p with timeSent := syncTime s } s, _, if_pos (by simp [hp, ha]), by rw [wvOf_setWv_same]⟩

/-- A TIME block is noted: the peer's time and its arrival. -/
def noteTime (p sent : Nat) (s : State) : State := setWv p { wvOf s p with timePeer := sent % 2 ^ 64, timeGot := syncTime s } s

/-- The offset that a TIME block gives: half the difference of the two directions, before or after the time unit's own. -/
def timeDiff (s : State) (sent echo at_ : Nat) : Int := s.time.base + rndDiv (((at_ : Int) - echo) - ((syncTime s : Int) - sent)) 2

theorem doTimeBlock_active (hp : wvHere s p = true) (ha : wvActive s p = true) (sent echo at_ : Nat) (gm : List Nat) (free : Option Nat) :
    doTimeBlock p sent echo at_ gm free s =
      if timeCfg s TSU_CFG_SOURCE = 2 ∧ towardsRoot s p free ∧ (wvOf s p).timeSent ≠ 0 ∧ echo = (wvOf s p).timeSent then
        { noteTime p sent s with time := { s.time with
            measured := some (sgn 32 (unsgn 32 (-timeDiff s sent (wvOf s p).timeSent at_)), timeDiff s sent (wvOf s p).timeSent at_, now64 s)
            gmId := padTo 8 gm } }
      else noteTime p sent s :=
  if_pos (by simp [hp, ha])

theorem timeBlock_noted (hp : wvHere s p = true) (ha : wvActive s p = true) {sent echo at_ : Nat} {gm : List Nat} {free : Option Nat}
    (h : timeCfg s TSU_CFG_SOURCE ≠ 2 ∨ towardsRoot s p free = false ∨ (wvOf s p).timeSent = 0 ∨ echo ≠ (wvOf s p).timeSent) :
    exec (.timeBlock p sent echo at_ gm free) s = .next (noteTime p sent s) := by
  refine next_congr ((doTimeBlock_active hp ha ..).trans (if_neg ?_))
  rintro ⟨h2, hr, h0, he⟩
  simp [h2, hr, h0, he] at h

theorem timeBlock_measured (hp : wvHere s p = true) (ha : wvActive s p = true) {sent echo at_ : Nat} {gm : List Nat} {free : Option Nat}
    (h2 : timeCfg s TSU_CFG_SOURCE = 2) (hr : towardsRoot s p free = true) (h0 : (wvOf s p).timeSent ≠ 0) (he : echo = (wvOf s p).timeSent) :
    ∃ t off, exec (.timeBlock p sent echo at_ gm free) s = .next t ∧ t.time.gmId = padTo 8 gm ∧
      t.time.measured = some (off, timeDiff s sent echo at_, now64 s) ∧ (wvOf t p).timePeer = sent % 2 ^ 64 := by
  refine ⟨_, _, next_congr ((doTimeBlock_active hp ha ..).trans (if_pos ⟨h2, hr, h0, he⟩)), rfl, by rw [he], ?_⟩
  exact congrArg WvSt.timePeer (wvOf_setWv_same p _ s)

end

end

/-- Settles O55, command by command. -/
theorem fabricRollCall : Obligations.FabricRollCall := by
  intro s
  refine ⟨fun hf hb => ⟨sendLsa s, next_congr (if_pos (by simp [hf, hb])), ?_, ?_, fun x h1 h2 h3 h4 => ?_⟩,
    fun h => next_congr (if_neg ?_),
    fun uid => ⟨fun h => next_congr (doLsaAge_none h), fun h => ⟨withoutLsa uid s, next_congr (doLsaAge_stored h),
      lsaOf_withoutLsa_same uid s, fun v hv => lsaOf_withoutLsa_ne hv s, fun x => withoutLsa_same⟩⟩,
    fun f hb hc ho ha h32 hf hl => ?_, fun h => ?_, fun h => next_congr (doFidJournal_off h),
    fun f ho hs => ?_, fun p hp ha => ⟨?_, fun sent echo at_ gm free => ⟨timeBlock_noted hp ha, timeBlock_measured hp ha⟩⟩,
    fun p ha => ⟨next_congr (if_neg (by simp [ha])), fun a b c gm free => next_congr (if_neg (by simp [ha]))⟩⟩
  · rw [sendLsa_fab]
    rfl
  · rw [sendLsa_fab]
  · exact (sendLsa_ev rfl (ev_refl [.regs, .weaves, .fab, .out] s)).same (by simp [h1, h2, h3, h4])
  · rcases h with h | h <;> simp [h]
  · exact next_congr ((if_neg (by simp [hb])).trans (doFidClaim_eq hc ho ha (lowest_unclaimed h32 hf hl)))
  · refine next_congr ?_
    split
    · rfl
    · next hb => exact doFidClaim_off (h.resolve_left hb)
  · obtain ⟨h1, h2⟩ := doFidJournal_saves ho hs
    exact ⟨_, rfl, h1, h2, next_congr (doFidJournal_off (.inr h1))⟩
  · obtain ⟨u, pl, h1, h2⟩ := doTimeExchange_active hp ha
    exact ⟨u, pl, next_congr h1, h2⟩

end Sys2Proof.Machine

/-! PROOFS. Relay pairs: heartbeats, fences, the baton, mirroring and the hand-over (R406 to R413). -/

namespace Sys2Proof.Machine
open Sys2Proof

/-! ## The digest fits its register (R224, R407) -/

theorem crcBit_lt {poly c : Nat} (hp : poly < 2 ^ 32) (h : c < 2 ^ 32) : crcBit poly c < 2 ^ 32 := by
  have h2 : c / 2 < 2 ^ 32 := by omega
  unfold crcBit
  split
  · exact Nat.xor_lt_two_pow h2 hp
  · exact h2

theorem crcByte_lt {poly c : Nat} (hp : poly < 2 ^ 32) (h : c < 2 ^ 32) (b : Nat) : crcByte poly c b < 2 ^ 32 := by
  have hb : b % 256 < 2 ^ 32 := by omega
  have hx : Nat.xor c (b % 256) < 2 ^ 32 := Nat.xor_lt_two_pow h hb
  exact crcBit_lt hp (crcBit_lt hp (crcBit_lt hp (crcBit_lt hp (crcBit_lt hp (crcBit_lt hp (crcBit_lt hp (crcBit_lt hp hx)))))))

theorem crc32c_lt (bs : List Nat) : crc32c bs < 2 ^ 32 :=
  Nat.xor_lt_two_pow (List.foldlRecOn bs _ (motive := (· < 2 ^ 32)) (by decide) fun c hc b _ => crcByte_lt (by decide) hc b)
    (by decide)

theorem ownDigest_lt (s : State) : ownDigest s < 2 ^ 32 := crc32c_lt _

/-! ## What the relay's conditions read -/

section
variable {s t : State}

/-- The relay runs in a state with the same role, safe state, variant, bank and park mode. -/
theorem relayOn_congr (hr : role t = role s) (hs : isSafe t = isSafe s) (hv : t.variant = s.variant)
    (ha : act t RLY_CFG_ENABLE = act s RLY_CFG_ENABLE) (hm : t.mnt = s.mnt) : relayOn t = relayOn s := by
  simp only [relayOn, hr, hs, hv, ha, hm]

theorem relayPort_lt (s : State) : relayPort s < 4 := fld_lt _ _ _

/-- The relay's blocks change no register but one of the weave port. -/
theorem sendRelay_kept (payload : List Nat) (s : State) : RegsKept weaveWord s (sendRelay payload s) := by
  unfold sendRelay
  split
  · exact (sendBlock_kept _ s 0xA 2 0 payload).mono fun a h => weaveWord_of_retryLevel (relayPort_lt s) h
  · exact .refl _ s

theorem not_weaveWord_relay {a : Nat} (h : 0x880000 ≤ a) : ¬ weaveWord a := by
  unfold weaveWord
  omega

theorem role_wr_stat {r : RF} (h : r.lo ≤ r.hi) (hd : 2 < r.lo) (v : Nat) (s : State) : role (wr r v s) = role s :=
  rd_wr_other h (by simp) (.inr (.inl hd))

theorem role_wr_addr {r : RF} (h : r.addr ≠ RLY_STAT_ROLE.addr) (v : Nat) (s : State) : role (wr r v s) = role s := rd_wr_addr h

theorem relayOn_wr_stat {r : RF} (ha : r.addr = 0x880004) (h : r.lo ≤ r.hi) (hd : 2 < r.lo) (v : Nat) (s : State) :
    relayOn (wr r v s) = relayOn s :=
  relayOn_congr (role_wr_stat h hd v s) (congrArg (· != 0) (rd_wr_addr (by rw [ha]; decide))) rfl rfl rfl

theorem fabricOk_of_relayOn (h : relayOn s = true) : fabricOk s.variant = true := by
  simp only [relayOn, Bool.and_eq_true] at h
  exact h.1.1.1.1

end

/-! ## Heartbeats (R407, R411) -/

section
variable {s : State}

/-- The state before the HEARTBEAT goes out: the digest shown, the pulse pin toggled. -/
def beatShown (s : State) : State :=
  { wr RLY_DIGEST_DIGEST (ownDigest s) s with pins := { s.pins with hbOut := !s.pins.hbOut } } |> setPin pinHb 0 (bit (!s.pins.hbOut))

theorem doHeartbeatSend_on (h : relayOn s = true) : ∃ pl, doHeartbeatSend s = sendRelay pl (beatShown s) := ⟨_, if_pos h⟩

theorem beatShown_kept (s : State) : RegsKept (· = 0x880008) s (beatShown s) := by
  have k : RegsKept (· = 0x880008) s (wr RLY_DIGEST_DIGEST (ownDigest s) s) := (RegsKept.refl _ s).wr (r := RLY_DIGEST_DIGEST) rfl
  exact kept_eq k rfl rfl

theorem digest_beatShown (s : State) : rd (beatShown s) RLY_DIGEST_DIGEST = ownDigest s := by
  have h : rd (wr RLY_DIGEST_DIGEST (ownDigest s) s) RLY_DIGEST_DIGEST = ownDigest s :=
    rd_wr_fits (by decide) (by decide) (by simpa using ownDigest_lt s)
  rw [← h]
  exact rd_regs rfl rfl

theorem beatShown_evolves (s : State) : Evolves [.regs, .pins, .out, .weaves] s (beatShown s) :=
  emit_ev rfl (ev_pins rfl (wr_ev rfl (ev_refl _ s) _ _)) _

theorem heartbeatSend_effect (h : relayOn s = true) (hb : stoppedB s = false) : ∃ u, exec .heartbeatSend s = .next u ∧
    u.pins.hbOut = !s.pins.hbOut ∧ rd u RLY_DIGEST_DIGEST = ownDigest s ∧ role u = role s ∧
    ∀ x, x ≠ .regs → x ≠ .pins → x ≠ .out → x ≠ .weaves → StateField.same x s u := by
  obtain ⟨pl, hpl⟩ := doHeartbeatSend_on h
  have hk := sendRelay_kept pl (beatShown s)
  have hp : (sendRelay pl (beatShown s)).pins = (beatShown s).pins :=
    (sendRelay_ev rfl (ev_refl [.regs, .weaves, .out] _) pl).same (x := .pins) (by decide)
  refine ⟨_, next_congr ((if_neg (by simp [hb])).trans hpl), ?_, ?_, ?_, fun x h1 h2 h3 h4 => ?_⟩
  · rw [hp]
    rfl
  · rw [hk.rd (not_weaveWord_relay (by decide)), digest_beatShown]
  · rw [role, hk.rd (not_weaveWord_relay (by decide)), (beatShown_kept s).rd (by decide), role]
  · exact (sendRelay_ev rfl (beatShown_evolves s) pl).same (by simp [h1, h2, h3, h4])

/-- A heartbeat is missed: MISSES counts, and from the third on PARTNER falls. -/
def beatMissed (s : State) : State :=
  let n := min 15 (rd s RLY_STAT_MISSES + 1)
  if 3 ≤ n then wr RLY_STAT_PARTNER 0 (wr RLY_STAT_MISSES n s) else wr RLY_STAT_MISSES n s

theorem misses_lt (s : State) : rd s RLY_STAT_MISSES < 16 := rd_lt s RLY_STAT_MISSES

theorem misses_beatMissed (s : State) : rd (beatMissed s) RLY_STAT_MISSES = min 15 (rd s RLY_STAT_MISSES + 1) := by
  have h : rd (wr RLY_STAT_MISSES (min 15 (rd s RLY_STAT_MISSES + 1)) s) RLY_STAT_MISSES = min 15 (rd s RLY_STAT_MISSES + 1) :=
    rd_wr_fits (by decide) (by decide) (by simp)
  unfold beatMissed
  dsimp only
  split
  · rw [rd_wr_other (by decide) (by decide) (by decide), h]
  · exact h

theorem partner_beatMissed (h : 2 ≤ rd s RLY_STAT_MISSES) : rd (beatMissed s) RLY_STAT_PARTNER = 0 := by
  rw [beatMissed, if_pos (by omega)]
  exact rd_wr_same (by decide) (by decide)

theorem role_beatMissed (s : State) : role (beatMissed s) = role s := by
  unfold beatMissed
  dsimp only
  split
  · rw [role_wr_stat (by decide) (by decide), role_wr_stat (by decide) (by decide)]
  · rw [role_wr_stat (by decide) (by decide)]

theorem beatMissed_evolves (s : State) : Evolves [.regs] s (beatMissed s) := by
  unfold beatMissed
  dsimp only
  split
  · exact wr_ev rfl (wr_ev rfl (ev_refl _ s) _ _) _ _
  · exact wr_ev rfl (ev_refl _ s) _ _

section
variable (h : relayOn s = true)
include h

theorem doHeartbeatTick_beat (hb : s.rly.beat = true) :
    doHeartbeatTick s = wr RLY_STAT_MISSES 0 { s with rly := { s.rly with beat := false } } := by
  simp [doHeartbeatTick, h, hb]

theorem doHeartbeatTick_missed (hb : s.rly.beat = false) : doHeartbeatTick s =
    if rd s RLY_STAT_MISSES = 2 ∧ role s = 2 ∧ s.rly.fencing = none then partnerLost (beatMissed s) else beatMissed s := by
  have hf : (beatMissed s).rly = s.rly := (beatMissed_evolves s).same (x := .rly) (by decide)
  have hc : min 15 (rd s RLY_STAT_MISSES + 1) = 3 ∧ role (beatMissed s) = 2 ∧ (beatMissed s).rly.fencing.isNone = true ↔
      rd s RLY_STAT_MISSES = 2 ∧ role s = 2 ∧ s.rly.fencing = none := by
    rw [role_beatMissed, hf, Option.isNone_iff_eq_none, show min 15 (rd s RLY_STAT_MISSES + 1) = 3 ↔ rd s RLY_STAT_MISSES = 2 by omega]
  rw [doHeartbeatTick, if_neg (by simp [h]), if_neg (by simp [hb])]
  exact if_congr hc rfl rfl

theorem heartbeatTick_beat (hb : s.rly.beat = true) : ∃ t, exec .heartbeatTick s = .next t ∧ rd t RLY_STAT_MISSES = 0 ∧
    t.rly.beat = false ∧ role t = role s ∧ ∀ x, x ≠ .regs → x ≠ .rly → StateField.same x s t := by
  refine ⟨_, next_congr (doHeartbeatTick_beat h hb), rd_wr_same (by decide) (by decide), ?_, ?_, fun x h1 h2 => ?_⟩
  · rw [wr_rly]
  · rw [role_wr_stat (by decide) (by decide)]
    rfl
  · exact (wr_ev rfl (ev_rly rfl (ev_refl [.regs, .rly] s)) _ _).same (by simp [h1, h2])

theorem heartbeatTick_missed (hb : s.rly.beat = false) (hc : rd s RLY_STAT_MISSES ≠ 2 ∨ role s ≠ 2 ∨ s.rly.fencing.isSome = true) :
    ∃ t, exec .heartbeatTick s = .next t ∧ rd t RLY_STAT_MISSES = min 15 (rd s RLY_STAT_MISSES + 1) ∧
      (2 ≤ rd s RLY_STAT_MISSES → rd t RLY_STAT_PARTNER = 0) ∧ role t = role s ∧ ∀ x, x ≠ .regs → StateField.same x s t := by
  refine ⟨_, next_congr ((doHeartbeatTick_missed h hb).trans (if_neg ?_)), misses_beatMissed s, partner_beatMissed, role_beatMissed s,
    fun x hx => (beatMissed_evolves s).same (by simpa using hx)⟩
  rintro ⟨h2, hr, hf⟩
  simp [h2, hr, hf] at hc

theorem heartbeatTick_lost (hb : s.rly.beat = false) (h2 : rd s RLY_STAT_MISSES = 2) (hr : role s = 2) (hf : s.rly.fencing = none) :
    ∃ u v, rd u RLY_STAT_MISSES = 3 ∧ rd u RLY_STAT_PARTNER = 0 ∧ v = recordError ((rlyErr 1).setting RLY_EVT_PARTNER_LOST) u ∧
      exec .heartbeatTick s = .next (if eligible v then takeFence false v else v) :=
  ⟨beatMissed s, _, (misses_beatMissed s).trans (by rw [h2]; rfl), partner_beatMissed h2.ge, rfl,
    next_congr ((doHeartbeatTick_missed h hb).trans (if_pos ⟨h2, hr, hf⟩))⟩

end

/-! ## Fences (R406, R410) -/

theorem role_emit (e : Emit) (s : State) : role (emit e s) = role s := rd_emit ..

theorem role_driveFence (low : Bool) (s : State) : role (driveFence low s) = role s := by
  rw [driveFence, setPin, role_emit, role_wr_stat (by decide) (by decide)]
  exact rd_regs rfl rfl

theorem fenceOut_driveFence (low : Bool) (s : State) : rd (driveFence low s) RLY_STAT_FENCE_OUT = bit low := by
  rw [driveFence, setPin, rd_emit]
  exact rd_wr_fits (by decide) (by decide) (by cases low <;> decide)

theorem partnerWaitExpire_fences (h : relayOn s = true) (hs : s.rly.seen = false) (hf : s.rly.fencing = none) :
    ∃ t, exec .partnerWaitExpire s = .next t ∧ t.rly.fencing = some (upNs s, true) ∧ t.pins.fenceLow = true ∧
      rd t RLY_STAT_FENCE_OUT = 1 ∧ role t = role s := by
  refine ⟨takeFence true s, next_congr (if_pos (by simp [h, hs, hf])), rfl, rfl, fenceOut_driveFence ..,
    (role_driveFence ..).trans (rd_regs rfl rfl)⟩

theorem doPartnerWaitExpire_off (h : s.rly.seen = true ∨ s.rly.fencing.isSome = true) : doPartnerWaitExpire s = s := by
  refine if_neg ?_
  rcases h with h | h
  · simp [h]
  · obtain ⟨x, hx⟩ := Option.isSome_iff_exists.1 h
    simp [hx]

section
variable (h : relayOn s = true)
include h

theorem relayOn_fenceIn (v : Nat) : relayOn (wr RLY_STAT_FENCE_IN v s) = true :=
  (relayOn_wr_stat rfl (by decide) (by decide) v s).trans h

theorem doFenceInput_low : doFenceInput true s =
    if s.rly.fencing.isSome ∨ (isSet s RLY_STAT_FENCE_OUT = true ∧ s.rly.asHolder = false ∧ (role s = 1 ∨ role s = 3)) then
      wr RLY_STAT_FENCE_IN 1 s |> stopClassM |> driveFence false |> becomeFenced
    else if (role s = 1 ∨ role s = 3) ∧ !isSet s RLY_STAT_FENCE_OUT then wr RLY_STAT_FENCE_IN 1 s |> stopClassM |> becomeFenced
    else wr RLY_STAT_FENCE_IN 1 s := by
  have hr : role (wr RLY_STAT_FENCE_IN 1 s) = role s := role_wr_stat (by decide) (by decide) 1 s
  have ho : isSet (wr RLY_STAT_FENCE_IN 1 s) RLY_STAT_FENCE_OUT = isSet s RLY_STAT_FENCE_OUT :=
    congrArg (· != 0) (rd_wr_other (by decide) (by decide) (by decide))
  have hl : (wr RLY_STAT_FENCE_IN 1 s).rly = s.rly := wr_rly ..
  rw [← hr, ← ho, ← hl]
  exact if_neg (by simp [bit, relayOn_fenceIn h])

theorem fenceInput_stops (hr : role s = 1 ∨ role s = 3) (hf : s.rly.fencing = none) (ho : isSet s RLY_STAT_FENCE_OUT = false) :
    ∃ u, exec (.fenceInput true) s = .next (becomeFenced (stopClassM u)) ∧ rd u RLY_STAT_FENCE_IN = 1 :=
  ⟨_, next_congr ((doFenceInput_low h).trans ((if_neg (by simp [hf, ho])).trans (if_pos ⟨hr, by simp [ho]⟩))),
    rd_set_oneBit ⟨rfl, by decide⟩ s⟩

theorem fenceInput_yields (hr : role s = 1 ∨ role s = 3) (ho : isSet s RLY_STAT_FENCE_OUT = true) (ha : s.rly.asHolder = false) :
    ∃ u, exec (.fenceInput true) s = .next (u |> stopClassM |> driveFence false |> becomeFenced) ∧ rd u RLY_STAT_FENCE_IN = 1 :=
  ⟨_, next_congr ((doFenceInput_low h).trans (if_pos (.inr ⟨ho, ha, hr⟩))), rd_set_oneBit ⟨rfl, by decide⟩ s⟩

theorem fenceInput_keeps (ho : isSet s RLY_STAT_FENCE_OUT = true) (ha : s.rly.asHolder = true) (hf : s.rly.fencing = none) :
    exec (.fenceInput true) s = .next (wr RLY_STAT_FENCE_IN 1 s) :=
  next_congr ((doFenceInput_low h).trans ((if_neg (by simp [hf, ha])).trans (if_neg (by simp [ho]))))

end

theorem fenceInput_released (s : State) : ∃ t, exec (.fenceInput false) s = .next t ∧ rd t RLY_STAT_FENCE_IN = 0 ∧ role t = role s ∧
    ∀ x, x ≠ .regs → StateField.same x s t := by
  refine ⟨wr RLY_STAT_FENCE_IN 0 s, next_congr (by simp [doFenceInput, bit]), rd_wr_same (by decide) (by decide),
    role_wr_stat (by decide) (by decide) 0 s,
    fun x hx => ?_⟩
  exact (wr_ev rfl (ev_refl [.regs] s) _ _).same (by simpa using hx)

theorem fenceReleaseTimer_standby (hr : role s = 4) (hf : isSet s RLY_STAT_FENCE_IN = false) :
    ∃ t, exec .fenceReleaseTimer s = .next t ∧ role t = 2 ∧ ∀ x, x ≠ .regs → StateField.same x s t := by
  refine ⟨wr RLY_STAT_ROLE 2 s, next_congr (if_pos (by simp [hr, hf])), rd_wr_same (by decide) (by decide), fun x hx => ?_⟩
  exact (wr_ev rfl (ev_refl [.regs] s) _ _).same (by simpa using hx)

theorem doFenceReleaseTimer_off (h : role s ≠ 4 ∨ isSet s RLY_STAT_FENCE_IN = true) : doFenceReleaseTimer s = s :=
  if_neg (by rcases h with h | h <;> simp [h])

/-! ## The baton (R411) -/

theorem doFenceWaitExpire_none (h : s.rly.fencing = none) : doFenceWaitExpire s = s := by simp [doFenceWaitExpire, h]

section
variable {since : Nat} {alone : Bool} (h : s.rly.fencing = some (since, alone))
include h

theorem doFenceWaitExpire_yields (hf : isSet s RLY_STAT_FENCE_IN = true) : doFenceWaitExpire s = becomeFenced (driveFence false s) := by
  simp only [doFenceWaitExpire, h]
  exact if_pos hf

theorem doFenceWaitExpire_takes (hf : isSet s RLY_STAT_FENCE_IN = false) {u : State} (hu : u = { s with rly := { s.rly with fencing := none } }) :
    ∃ v, v = (if alone then takeBaton 3 1 u else takeBaton 1 (rd s RLY_STAT_BATON_GEN + 1) u) ∧
      exec .fenceWaitExpire s = .next (wr RLY_LAST_BATON_US ((upNs v - since) / 1000) v) := by
  subst hu
  refine ⟨_, rfl, next_congr ?_⟩
  simp only [doFenceWaitExpire, h]
  exact if_neg (by simp [hf])

end

/-! ## Mirroring (R408, R409) -/

theorem doDeliverAckTimeout_primary (h : relayOn s = true) (hr : role s = 1) (hm : s.rly.mirrors ≠ []) :
    doDeliverAckTimeout s = enterSolo s := if_pos (by simp [h, hr, hm])

theorem doDeliverAckTimeout_off (h : role s ≠ 1 ∨ s.rly.mirrors = []) : doDeliverAckTimeout s = s :=
  if_neg (by rcases h with h | h <;> simp [h])

/-- Some relay records go out one after another. -/
theorem sendRelays_kept (bs : List (List Nat)) (s : State) : RegsKept weaveWord s (bs.foldl (fun s b => sendRelay b s) s) :=
  .foldl (fun s b => sendRelay_kept b s) bs s

theorem doMirrorRestore_solo (h : relayOn s = true) (hr : role s = 3) (hp : isSet s RLY_STAT_PARTNER = true) :
    ∃ bs : List (List Nat), doMirrorRestore s =
      (bs.foldl (fun s b => sendRelay b s) s |> driveFence false |> wr RLY_STAT_ROLE 1 |> wr RLY_EVT_MIRROR_OK 1) :=
  ⟨_, if_pos (by simp [h, hr, hp])⟩

theorem mirrorRestore_effect (h : relayOn s = true) (hr : role s = 3) (hp : isSet s RLY_STAT_PARTNER = true) :
    ∃ t, exec .mirrorRestore s = .next t ∧ role t = 1 ∧ t.pins.fenceLow = false ∧
      rd t RLY_STAT_FENCE_OUT = 0 ∧ rd t RLY_EVT_MIRROR_OK = 1 := by
  obtain ⟨bs, hbs⟩ := doMirrorRestore_solo h hr hp
  refine ⟨_, next_congr hbs, ?_, ?_, ?_, rd_set_oneBit ⟨rfl, by decide⟩ _⟩
  · rw [role_wr_addr (by decide)]
    exact rd_wr_same (by decide) (by decide)
  · rw [wr_pins, wr_pins]
    rfl
  · rw [rd_wr_addr (by decide), rd_wr_other (by decide) (by decide) (by decide), fenceOut_driveFence]
    rfl

theorem doMirrorRestore_off (h : role s ≠ 3 ∨ isSet s RLY_STAT_PARTNER = false) : doMirrorRestore s = s :=
  if_neg (by rcases h with h | h <;> simp [h])

theorem fcMismatch_drops {c : Nat} {u : Nat × Nat × Nat × Nat} (h : s.rly.unmatched.find? (fun x => x.1 == c) = some u) :
    ∃ v, exec (.fcMismatch c) s = .next (recordError ((rlyErr 4).setting RLY_EVT_FC_MISMATCH) v) ∧
      v.rly.unmatched = s.rly.unmatched.erase u := by
  refine ⟨inc RLY_CNT_FC_MISMATCH { s with rly := { s.rly with unmatched := s.rly.unmatched.erase u } }, next_congr ?_, ?_⟩
  · simp only [doFcMismatch, h]
  · rw [inc_rly]

theorem doFcMismatch_none {c : Nat} (h : s.rly.unmatched.find? (fun x => x.1 == c) = none) : doFcMismatch c s = s := by
  simp [doFcMismatch, h]

/-! ## The hand-over (R413) -/

theorem hasBit_zero_iff (v : Nat) : hasBit v 0 = decide (v % 2 = 1) := Nat.testBit_zero v

section
variable {o : Orig} {v : Nat} (ho : o = .t0 ∨ o = .svc) (h : relayOn s = true)
include ho h

theorem doHandover_eq : doHandover o v s = if hasBit v 0 && relayOn s && role s == 1 && !s.rly.offered then
    commitBaton (sendBaton 1 { s with rly := { s.rly with offered := true } }) else s := by
  have hw : writes o = true := by rcases ho with rfl | rfl <;> rfl
  rw [doHandover, if_neg (by simp [fabricOk_of_relayOn h, hw]), if_neg (by rcases ho with rfl | rfl <;> simp)]

theorem doHandover_offers (hr : role s = 1) (hf : s.rly.offered = false) (hv : v % 2 = 1) :
    doHandover o v s = commitBaton (sendBaton 1 { s with rly := { s.rly with offered := true } }) :=
  (doHandover_eq ho h).trans (if_pos (by simp [hasBit_zero_iff, h, hr, hf, hv]))

theorem doHandover_off (hc : role s ≠ 1 ∨ s.rly.offered = true ∨ v % 2 = 0) : doHandover o v s = s :=
  (doHandover_eq ho h).trans (if_neg (by rcases hc with hc | hc | hc <;> simp [hasBit_zero_iff, hc]))

end

end

/-- Settles O56, command by command, with the relay running and for every state. -/
theorem relayPair : Obligations.RelayPair := by
  refine ⟨fun s h => ⟨heartbeatSend_effect h, next_congr (if_pos h), heartbeatTick_beat h,
      fun hb => ⟨heartbeatTick_missed h hb, heartbeatTick_lost h hb⟩, partnerWaitExpire_fences h,
      fun hc => next_congr (doPartnerWaitExpire_off hc), fun hr hm => next_congr (doDeliverAckTimeout_primary h hr hm),
      fun hc => next_congr (doDeliverAckTimeout_off hc), mirrorRestore_effect h, fun hc => next_congr (doMirrorRestore_off hc),
      fun o v ho hr hf hv => next_congr (doHandover_offers ho h hr hf hv), fun o v ho hc => next_congr (doHandover_off ho h hc),
      fenceInput_stops h, fenceInput_yields h, fun _ => fenceInput_keeps h⟩,
    fun s => ⟨fenceInput_released s, fenceReleaseTimer_standby, fun hc => next_congr (doFenceReleaseTimer_off hc),
      fun hc => next_congr (doFenceWaitExpire_none hc),
      fun since alone hc => ⟨fun hf => next_congr (doFenceWaitExpire_yields hc hf), fun hf u => doFenceWaitExpire_takes hc hf⟩,
      fun c u => fcMismatch_drops, fun c hc => next_congr (doFcMismatch_none hc),
      fun h => ⟨next_congr ?_, next_congr (if_neg (by simp [h])), next_congr (if_pos (by simp [h])), next_congr (if_neg (by simp [h])),
        next_congr (if_neg (by simp [h])), next_congr (if_neg (by simp [h]))⟩⟩⟩
  split
  · rfl
  · exact if_neg (by simp [h])

end Sys2Proof.Machine

/-! PROOFS. Edges of quadrature and Hall channels, the compares they cross, index edges, and the arming of compares (R329 to R337). -/

namespace Sys2Proof.Machine
open Sys2Proof

/-! ## The compares at a step (R336) -/

/-- The registers of the compares. -/
def comparesWord (a : Nat) : Prop := a = 0xA00030 ∨ ∃ i, i < 8 ∧ a = 0xA00040 + 8 * i

/-- A compare's FIRED bit, as a field. -/
abbrev firedBit (i : Nat) : RF := ⟨POS_CMP_EVT_FIRED.addr, i, i⟩

theorem hasBit_fired {i : Nat} (h : i < 8) (s : State) : hasBit (rd s POS_CMP_EVT_FIRED) i = isSet s (firedBit i) := by
  have hl : hasBit (rd s POS_CMP_EVT_FIRED) i = (reg s 0xA00030).toNat.testBit i := by
    rw [hasBit, rd, testBit_fld]
    simp [h]
  have hr : rd s (firedBit i) = ((reg s 0xA00030).toNat >>> i) % 2 :=
    congrArg (fun width => ((reg s 0xA00030).toNat >>> i) % 2 ^ width) (Nat.add_sub_cancel_left i 1)
  rw [hl, isSet, hr, Nat.testBit, Nat.one_and_eq_mod_two]

/-- Two states agree on a compare: its channel and target, whether it is armed, and whether it has fired. -/
structure CompareSame (i : Nat) (s t : State) : Prop where
  arm : rd t (POS_CMP_CFG_ARM i) = rd s (POS_CMP_CFG_ARM i)
  fired : isSet t (firedBit i) = isSet s (firedBit i)
  ch : rd t (POS_CMP_CFG_CH i) = rd s (POS_CMP_CFG_CH i)
  target : rd t (POS_CMP_POS_T i) = rd s (POS_CMP_POS_T i)

section
variable {i j n c : Nat} {d : Int} {s t u : State}

theorem CompareSame.refl (i : Nat) (s : State) : CompareSame i s s := ⟨rfl, rfl, rfl, rfl⟩

theorem CompareSame.trans (h : CompareSame i s t) (k : CompareSame i t u) : CompareSame i s u :=
  ⟨k.arm.trans h.arm, k.fired.trans h.fired, k.ch.trans h.ch, k.target.trans h.target⟩

theorem compareSame_of_kept {P : Nat → Prop} (h : RegsKept P s t) (hc : ¬ P (0xA00040 + 8 * i)) (ht : ¬ P (0xA00044 + 8 * i))
    (hf : ¬ P 0xA00030) : CompareSame i s t :=
  ⟨h.rd hc, by rw [isSet, h.rd (r := firedBit i) hf, isSet], h.rd hc, h.rd ht⟩

theorem compareSame_of_evolves {F : List StateField} (h : Evolves F s t) (hr : .regs ∉ F := by decide) : CompareSame i s t :=
  compareSame_of_kept (P := fun _ => False) (.of_evolves h hr) id id id

/-- The step of a channel that a compare watches crosses the compare's target. -/
def compareHit (n c : Nat) (d : Int) (i : Nat) (s : State) : Prop :=
  rd s (POS_CMP_CFG_CH i) = n ∧ isSet s (POS_CMP_CFG_ARM i) ∧ crosses c (rd s (POS_CMP_POS_T i)) d

theorem compareHit_congr (h : CompareSame i s t) : compareHit n c d i t ↔ compareHit n c d i s := by
  rw [compareHit, compareHit, h.ch, h.target, isSet, h.arm, isSet]

/-- The compare has fired, and is disarmed. -/
def fireCompare (i : Nat) (s : State) : State := s |> wr (firedBit i) 1 |> wr (POS_CMP_CFG_ARM i) 0

theorem testCompare_misses (h : ¬ compareHit n c d i s) : testCompare n c d s i = s := if_neg h

theorem testCompare_hits (h : compareHit n c d i s) : Evolves [.mnt] (fireCompare i s) (testCompare n c d s i) := by
  rw [show testCompare n c d s i = if isSet (fireCompare i s) MNT_PARK_WAKE_CMP then askWake 3 (fireCompare i s) else fireCompare i s
    from if_pos h]
  split
  · exact askWake_ev rfl (ev_refl _ _) 3
  · exact ev_refl _ _

theorem fireCompare_other (hi : i < 8) (hj : j < 8) (h : i ≠ j) (s : State) : CompareSame i s (fireCompare j s) := by
  refine ⟨?_, congrArg (· != 0) ?_, ?_, ?_⟩
  · rw [fireCompare, rd_wr_addr (by dsimp only; omega), rd_wr_addr (by dsimp only; omega)]
  · rw [fireCompare, rd_wr_addr (by dsimp only; omega), rd_wr_bits (Nat.le_refl _) (by dsimp only; omega) (by dsimp only; omega)]
  · rw [fireCompare, rd_wr_addr (by dsimp only; omega), rd_wr_addr (by dsimp only; omega)]
  · rw [fireCompare, rd_wr_addr (by dsimp only; omega), rd_wr_addr (by dsimp only; omega)]

theorem fireCompare_self (hi : i < 8) (s : State) :
    isSet (fireCompare i s) (firedBit i) = true ∧ rd (fireCompare i s) (POS_CMP_CFG_ARM i) = 0 := by
  refine ⟨?_, rd_wr_same (by simp) (by simp)⟩
  rw [fireCompare, isSet, rd_wr_addr (by dsimp only; omega), rd_set_oneBit ⟨rfl, by dsimp only; omega⟩]
  rfl

theorem testCompare_other (hi : i < 8) (hj : j < 8) (h : i ≠ j) (s : State) : CompareSame i s (testCompare n c d s j) := by
  by_cases hh : compareHit n c d j s
  · exact (fireCompare_other hi hj h s).trans (compareSame_of_evolves (testCompare_hits hh))
  · rw [testCompare_misses hh]
    exact .refl i s

/-- Tests of other compares leave a compare as it is. -/
theorem testCompares_other (hi : i < 8) {l : List Nat} (hl : ∀ j ∈ l, j < 8 ∧ i ≠ j) (s : State) :
    CompareSame i s (l.foldl (testCompare n c d) s) :=
  List.foldlRecOn l _ (motive := CompareSame i s) (.refl i s) fun u hu j hj =>
    hu.trans (testCompare_other hi (hl j hj).1 (hl j hj).2 u)

/-- The tests of the eight compares come to one test of each. -/
theorem testCompares_split (hi : i < 8) : ∃ l₁ l₂ : List Nat, List.range 8 = l₁ ++ i :: l₂ ∧ (∀ j ∈ l₁, j < 8 ∧ i ≠ j) ∧
    ∀ j ∈ l₂, j < 8 ∧ i ≠ j := by
  obtain ⟨l₁, l₂, e⟩ := List.append_of_mem (List.mem_range.2 hi)
  have hnd : (l₁ ++ i :: l₂).Nodup := e ▸ List.nodup_range
  have hlt : ∀ j ∈ l₁ ++ i :: l₂, j < 8 := fun j hj => List.mem_range.1 (e ▸ hj)
  obtain ⟨-, hr, hd⟩ := List.nodup_append.1 hnd
  refine ⟨l₁, l₂, e, fun j hj => ⟨hlt j (by simp [hj]), fun h => hd j hj i (by simp) h.symm⟩, fun j hj => ⟨hlt j (by simp [hj]), ?_⟩⟩
  rintro rfl
  exact (List.nodup_cons.1 hr).1 hj

theorem testCompares_hit (hi : i < 8) (h : compareHit n c d i s) :
    isSet ((List.range 8).foldl (testCompare n c d) s) (firedBit i) = true ∧
      rd ((List.range 8).foldl (testCompare n c d) s) (POS_CMP_CFG_ARM i) = 0 := by
  obtain ⟨l₁, l₂, e, h₁, h₂⟩ := testCompares_split hi
  have k₁ := testCompares_other (n := n) (c := c) (d := d) hi h₁ s
  have hh := (compareHit_congr k₁ (n := n) (c := c) (d := d)).2 h
  obtain ⟨hf, ha⟩ := fireCompare_self hi (l₁.foldl (testCompare n c d) s)
  have k := CompareSame.trans (compareSame_of_evolves (testCompare_hits hh)) (testCompares_other (n := n) (c := c) (d := d) hi h₂ _)
  rw [e, List.foldl_append, List.foldl_cons]
  exact ⟨k.fired.trans hf, k.arm.trans ha⟩

theorem testCompares_missed (hi : i < 8) (h : ¬ compareHit n c d i s) : CompareSame i s ((List.range 8).foldl (testCompare n c d) s) := by
  obtain ⟨l₁, l₂, e, h₁, h₂⟩ := testCompares_split hi
  have k₁ := testCompares_other (n := n) (c := c) (d := d) hi h₁ s
  rw [e, List.foldl_append, List.foldl_cons, testCompare_misses (fun hh => h ((compareHit_congr k₁).1 hh))]
  exact k₁.trans (testCompares_other hi h₂ _)

theorem setBehind_same (i : Nat) (hj : j < 8) (s : State) : CompareSame i s (setBehind j s) := by
  have hf : rd (setBehind j s) (firedBit i) = rd s (firedBit i) := rd_wr_addr (by dsimp only; omega)
  refine ⟨?_, by rw [isSet, hf, isSet], ?_, rd_wr_addr (by dsimp only; omega)⟩
  · exact rd_wr_other (by simp) (by simp) (by simp)
  · exact rd_wr_other (by simp) (by simp) (by simp)

theorem turnCompares_same (i n : Nat) (s : State) : CompareSame i s ((List.range 8).foldl (turnCompare n) s) :=
  List.foldlRecOn _ _ (motive := CompareSame i s) (.refl i s) fun u hu j hj => hu.trans <| by
    unfold turnCompare
    split
    · exact setBehind_same i (List.mem_range.1 hj) u
    · exact .refl i u

/-- A step by one crosses a target exactly if it reaches it. -/
theorem crosses_iff {T : Nat} (hc : c < 2 ^ 32) (hT : T < 2 ^ 32) (hd : d = 1 ∨ d = -1) :
    crosses c T d = true ↔ T = unsgn 32 (c + d) := by
  rcases hd with rfl | rfl
  · simp only [crosses, unsgn, sgn]
    simp
    split <;> omega
  · simp only [crosses, unsgn, sgn]
    simp
    split <;> omega

theorem afterStep_compares {turn : Bool} (hi : i < 8) (hc : c < 2 ^ 32) (hd : d = 1 ∨ d = -1) :
    (rd s (POS_CMP_CFG_CH i) = n → isSet s (POS_CMP_CFG_ARM i) = true → rd s (POS_CMP_POS_T i) = unsgn 32 (c + d) →
      isSet (afterStep n d c turn s) (firedBit i) = true ∧ rd (afterStep n d c turn s) (POS_CMP_CFG_ARM i) = 0) ∧
    (rd s (POS_CMP_CFG_CH i) ≠ n ∨ isSet s (POS_CMP_CFG_ARM i) = false ∨ rd s (POS_CMP_POS_T i) ≠ unsgn 32 (c + d) →
      CompareSame i s (afterStep n d c turn s)) := by
  have hx : crosses c (rd s (POS_CMP_POS_T i)) d = true ↔ rd s (POS_CMP_POS_T i) = unsgn 32 (c + d) := crosses_iff hc (rd_lt s _) hd
  have k : CompareSame i ((List.range 8).foldl (testCompare n c d) s) (afterStep n d c turn s) := by
    unfold afterStep
    dsimp only
    refine CompareSame.trans ?_ (compareSame_of_evolves (pruneCh_ev (H := [.mot]) rfl (ev_refl _ _) n))
    split
    · exact turnCompares_same i n _
    · exact .refl i _
  refine ⟨fun hch ha hT => ?_, fun h => (testCompares_missed hi fun ⟨hch, ha, hT⟩ => ?_).trans k⟩
  · obtain ⟨hf, harm⟩ := testCompares_hit hi ⟨hch, ha, hx.2 hT⟩
    exact ⟨k.fired.trans hf, k.arm.trans harm⟩
  · simp [hch, ha, hx.1 hT] at h

theorem afterStep_kept (n : Nat) (d : Int) (c : Nat) (turn : Bool) (s : State) : RegsKept comparesWord s (afterStep n d c turn s) := by
  have ht : ∀ u, ∀ i ∈ List.range 8, RegsKept comparesWord u (testCompare n c d u i) := fun u i hi => by
    by_cases h : compareHit n c d i u
    · have k : RegsKept comparesWord u (fireCompare i u) :=
        ((RegsKept.refl comparesWord u).wr (r := firedBit i) (.inl rfl)).wr (r := POS_CMP_CFG_ARM i) (.inr ⟨i, List.mem_range.1 hi, rfl⟩)
      exact k.trans (.of_evolves (testCompare_hits h) (by decide))
    · rw [testCompare_misses h]
      exact .refl _ u
  have hb : ∀ u, ∀ i ∈ List.range 8, RegsKept comparesWord u (turnCompare n u i) := fun u i hi => by
    unfold turnCompare
    split
    · exact (RegsKept.refl comparesWord u).wr (r := POS_CMP_CFG_BEHIND i) (.inr ⟨i, List.mem_range.1 hi, rfl⟩)
    · exact .refl _ u
  unfold afterStep
  dsimp only
  refine RegsKept.trans (RegsKept.trans (.foldl_mem ht s) ?_) (.of_evolves (pruneCh_ev (H := [.mot]) rfl (ev_refl _ _) n) (by decide))
  split
  · exact .foldl_mem hb _
  · exact .refl _ _

end

/-! ## A counted step (R329, R335) -/

section
variable {s : State} {n : Nat} {d : Int}

/-- The direction turns at a step. -/
def stepTurns (s : State) (n : Nat) (d : Int) : Bool := (chSt s n).dir != 0 && (chSt s n).dir != (if 0 < d then 1 else -1)

/-- The period that a step shows: none at a turn or without an edge before. -/
def showPeriod (n : Nat) (d : Int) (t : Nat) (s : State) : State :=
  match (chSt s n).edgeAt with
  | some t0 => if stepTurns s n d then s else wr (POS_CH_PERIOD_NS n) (min (t - t0) (2 ^ 32 - 1)) s
  | none => s

/-- What a step shows in the channel's registers. -/
def showStep (n : Nat) (d : Int) (t : Nat) (s : State) : State :=
  showPeriod n d t s |> wr (POS_CH_CNT_COUNT n) (unsgn 32 (chCount s n + d)) |> wr (POS_CH_STAT_DIR_KNOWN n) 1
    |> wr (POS_CH_STAT_REVERSE n) (bit (decide (d < 0)))

/-- What the channel remembers of a step. -/
def stepNote (n : Nat) (d : Int) (t : Nat) (s : State) : ChSt :=
  { chSt s n with
    dir := if 0 < d then 1 else -1, edgeAt := some t, stepUp := upNs (showStep n d t s)
    steps := ⟨t, t, unsgn 32 (chCount s n + d), (chSt s n).v, (chSt s n).a, chType (showStep n d t s) n == 4⟩ :: (chSt s n).steps }

theorem countStep_invalid (h : chValid s n = false) (d : Int) (t : Nat) : countStep n d t s = s := if_pos (.inl (by simp [h]))

theorem countStep_skipped (hv : chValid s n = true) (hk : (chSt s n).skip = true) (hd : d ≠ 0) (t : Nat) :
    countStep n d t s = setCh n { chSt s n with skip := false } s :=
  (if_neg (by simp [hv, hd])).trans (if_pos hk)

theorem countStep_eq (hv : chValid s n = true) (hk : (chSt s n).skip = false) (hd : d ≠ 0) (t : Nat) :
    countStep n d t s = afterStep n d (chCount s n) (stepTurns s n d) (setCh n (stepNote n d t s) (showStep n d t s)) :=
  (if_neg (by simp [hv, hd])).trans (if_neg (by simp [hk]))

theorem showStep_kept (n : Nat) (d : Int) (t : Nat) (s : State) :
    RegsKept (fun a => 0xA00114 + 0x80 * n ≤ a ∧ a ≤ 0xA0011C + 0x80 * n) s (showStep n d t s) := by
  have hp : RegsKept (fun a => 0xA00114 + 0x80 * n ≤ a ∧ a ≤ 0xA0011C + 0x80 * n) s (showPeriod n d t s) := by
    unfold showPeriod
    split
    · split
      · exact .refl _ s
      · exact (RegsKept.refl _ s).wr (r := POS_CH_PERIOD_NS n) ⟨by dsimp only; omega, by dsimp only; omega⟩
    · exact .refl _ s
  exact ((hp.wr (r := POS_CH_CNT_COUNT n) ⟨by dsimp only; omega, by dsimp only; omega⟩).wr
    (r := POS_CH_STAT_DIR_KNOWN n) ⟨by dsimp only; omega, by dsimp only; omega⟩).wr
    (r := POS_CH_STAT_REVERSE n) ⟨by dsimp only; omega, by dsimp only; omega⟩

theorem showStep_shows (d : Int) (t : Nat) (s : State) : rd (showStep n d t s) (POS_CH_STAT_DIR_KNOWN n) = 1 ∧
    rd (showStep n d t s) (POS_CH_STAT_REVERSE n) = bit (decide (d < 0)) := by
  refine ⟨?_, rd_wr_fits (by simp) (by simp) (by simp [bit]; split <;> omega)⟩
  rw [showStep, rd_wr_other (by simp) (by simp) (by simp)]
  exact rd_set_oneBit ⟨rfl, by simp⟩ _

/-- A field of the channels' registers reads after a step as the step shows it. -/
theorem rd_countStep (hv : chValid s n = true) (hk : (chSt s n).skip = false) (hd : d ≠ 0) (t : Nat) {r : RF} (hr : 0xA00100 ≤ r.addr) :
    rd (countStep n d t s) r = rd (showStep n d t s) r := by
  have hn : ¬ comparesWord r.addr := by
    rintro (h | ⟨i, hi, h⟩) <;> omega
  rw [countStep_eq hv hk hd, (afterStep_kept ..).rd hn, rd_setCh]

/-- The count of another channel stands. -/
theorem chCount_countStep_ne {m : Nat} (h : m ≠ n) (d : Int) (t : Nat) (s : State) :
    chCount (countStep n d t s) m = chCount s m := by
  by_cases hd : d = 0
  · exact congrArg (chCount · m) (if_pos (.inr hd))
  cases hv : chValid s n with
  | false => rw [countStep_invalid hv]
  | true =>
    cases hk : (chSt s n).skip with
    | true =>
      rw [countStep_skipped hv hk hd]
      exact rd_setCh ..
    | false => exact (rd_countStep hv hk hd t (by dsimp only; omega)).trans ((showStep_kept n d t s).rd (by dsimp only; omega))

theorem chCount_countStep_off (h : chValid s n = false ∨ (chSt s n).skip = true) (d : Int) (t : Nat) :
    chCount (countStep n d t s) n = chCount s n := by
  by_cases hd : d = 0
  · exact congrArg (chCount · n) (if_pos (.inr hd))
  cases hv : chValid s n with
  | false => rw [countStep_invalid hv]
  | true =>
    rw [countStep_skipped hv (h.resolve_left (by simp [hv])) hd]
    exact rd_setCh ..

/-- What a step of a channel from one state to another comes to at a compare: it fires and is disarmed exactly if it is armed and the
new count is its target. -/
def compareEffect (n i : Nat) (s u : State) : Prop :=
  (rd s (POS_CMP_CFG_CH i) = n → isSet s (POS_CMP_CFG_ARM i) = true → rd s (POS_CMP_POS_T i) = chCount u n →
    hasBit (rd u POS_CMP_EVT_FIRED) i = true ∧ rd u (POS_CMP_CFG_ARM i) = 0) ∧
  (rd s (POS_CMP_CFG_CH i) ≠ n ∨ isSet s (POS_CMP_CFG_ARM i) = false ∨ rd s (POS_CMP_POS_T i) ≠ chCount u n →
    hasBit (rd u POS_CMP_EVT_FIRED) i = hasBit (rd s POS_CMP_EVT_FIRED) i ∧ rd u (POS_CMP_CFG_ARM i) = rd s (POS_CMP_CFG_ARM i))

/-- What a step by `d` of a channel comes to from one state to another, whether the channel counts it or not. -/
def stepEffect (n : Nat) (d : Int) (s u : State) : Prop :=
  (∀ m, m < 4 → m ≠ n → chCount u m = chCount s m) ∧
  (chValid s n = false ∨ (chSt s n).skip = true → chCount u n = chCount s n) ∧
  (chValid s n = true → (chSt s n).skip = false →
    (chCount u n : Int) = (chCount s n + d) % 2 ^ 32 ∧
    rd u (POS_CH_STAT_DIR_KNOWN n) = 1 ∧ rd u (POS_CH_STAT_REVERSE n) = bit (decide (d < 0)) ∧
    ∀ i, i < 8 → compareEffect n i s u)

theorem countStep_compares (hv : chValid s n = true) (hk : (chSt s n).skip = false) (hd : d = 1 ∨ d = -1) (t : Nat) {i : Nat}
    (hi : i < 8) : compareEffect n i s (countStep n d t s) := by
  have h0 : d ≠ 0 := by omega
  have hnew : chCount (countStep n d t s) n = unsgn 32 (chCount s n + d) := by
    have h := (countStep_counts hv hk d t).1
    rw [unsgn]
    omega
  have k : CompareSame i s (setCh n (stepNote n d t s) (showStep n d t s)) :=
    (compareSame_of_kept (showStep_kept n d t s) (by omega) (by omega) (by omega)).trans
      (compareSame_of_evolves (setCh_ev (H := [.mot]) rfl (ev_refl _ _) n _))
  obtain ⟨hhit, hmiss⟩ := afterStep_compares (n := n) (s := setCh n (stepNote n d t s) (showStep n d t s)) (turn := stepTurns s n d) hi
    (chCount_lt s n) hd
  rw [k.ch, k.target, isSet, k.arm, ← isSet, ← countStep_eq hv hk h0] at hhit hmiss
  rw [compareEffect, hasBit_fired hi, hasBit_fired hi, hnew]
  exact ⟨hhit, fun h => ⟨((hmiss h).fired).trans k.fired, ((hmiss h).arm).trans k.arm⟩⟩

theorem countStep_effect (hd : d = 1 ∨ d = -1) (t : Nat) : stepEffect n d s (countStep n d t s) := by
  have h0 : d ≠ 0 := by omega
  obtain ⟨hknown, hrev⟩ := showStep_shows (n := n) d t s
  refine ⟨fun m _ h => chCount_countStep_ne h d t s, fun h => chCount_countStep_off h d t, fun hv hk =>
    ⟨(countStep_counts hv hk d t).1, ?_, ?_, fun i hi => countStep_compares hv hk hd t hi⟩⟩
  · exact (rd_countStep hv hk h0 t (by dsimp only; omega)).trans hknown
  · exact (rd_countStep hv hk h0 t (by dsimp only; omega)).trans hrev

end

/-! ## Edges (R329, R330, R333) -/

section
variable {s : State} {n lv : Nat}

theorem cycleStep_unit {m p q : Nat} {d : Int} (h : cycleStep m p q = some d) : d = 1 ∨ d = -1 := by
  unfold cycleStep at h
  split at h
  · exact .inl (Option.some.inj h).symm
  · split at h
    · exact .inr (Option.some.inj h).symm
    · cases h

theorem invertDir_unit {d : Int} (h : d = 1 ∨ d = -1) (s : State) (n : Nat) : invertDir s n d = 1 ∨ invertDir s n d = -1 := by
  unfold invertDir
  split <;> omega

/-- The lines of a channel are accepted. -/
def linesTaken (n lines : Nat) (s : State) : State := setCh n { chSt s n with lines } s

/-- The time of an edge: the filter's delay is taken off. -/
def edgeTime (s : State) (n : Nat) : Nat := s.now - posCfg s (POS_CH_CFG_FILT n) * 20

theorem doInputEdge_still (ht : chType s n = 1) (h : lv % 4 = (chSt s n).lines) : doInputEdge n lv s = s := by
  simp [doInputEdge, ht, h]

theorem doInputEdge_quad {d : Int} (ht : chType s n = 1) (h : lv % 4 ≠ (chSt s n).lines)
    (hd : cycleStep 4 (quadPlace (chSt s n).lines) (quadPlace (lv % 4)) = some d) :
    doInputEdge n lv s = countStep n (invertDir s n d) (edgeTime s n) (linesTaken n (lv % 4) s) := by
  unfold doInputEdge
  dsimp only
  simp only [ht, beq_self_eq_true, if_true, h, if_false, hd]
  rfl

theorem doInputEdge_hall {d : Int} {a b : Nat} (ht : chType s n = 2) (h : lv % 8 ≠ (chSt s n).lines) (ha : hallPlace (chSt s n).lines = some a)
    (hb : hallPlace (lv % 8) = some b) (hd : cycleStep 6 a b = some d) :
    doInputEdge n lv s = countStep n (invertDir s n d) (edgeTime s n) (linesTaken n (lv % 8) s) := by
  have h2 : (2 == 1) = false := rfl
  unfold doInputEdge
  dsimp only
  simp only [ht, h2, Bool.false_eq_true, h, if_false, ha, hb, hd]
  rfl

theorem doInputEdge_illegal (ht : chType s n = 1) (h : lv % 4 ≠ (chSt s n).lines)
    (hd : cycleStep 4 (quadPlace (chSt s n).lines) (quadPlace (lv % 4)) = none) : doInputEdge n lv s = illegalChange n (lv % 4) s := by
  unfold doInputEdge
  dsimp only
  simp only [ht, beq_self_eq_true, if_true, h, if_false, hd]

/-- A step with accepted lines: what it shows, against the state before. -/
theorem linesTaken_step (n lines : Nat) {d : Int} (hd : d = 1 ∨ d = -1) (t : Nat) :
    stepEffect n d s (countStep n d t (linesTaken n lines s)) := by
  have key := countStep_effect (s := linesTaken n lines s) (n := n) hd t
  have hk : (chSt (linesTaken n lines s) n).skip = (chSt s n).skip := by simp [linesTaken]
  rw [stepEffect, hk] at key
  exact key

/-! ## Illegal changes (R333) -/

/-- The channel after an illegal change. -/
def illegalNote (n lines : Nat) (s : State) : ChSt :=
  { chSt s n with lines, edgeAt := none, illegals := upNs s :: (chSt s n).illegals.filter fun u => decide (upNs s < u + 10000000) }

/-- The change is counted. -/
def illegalCounted (n lines : Nat) (s : State) : State :=
  countFault n (illegalNote n lines s) (POS_CH_ERRCNT_ILLEGAL n) POS_EVT_ILLEGAL s

theorem illegalCounted_banks (n lines : Nat) (s : State) : sameBanks s (illegalCounted n lines s) := by
  have h0 : sameBanks s (setCh n (illegalNote n lines s) s) := ⟨reg_congr rfl rfl, rfl, rfl, rfl, rfl⟩
  have h1 : sameBanks s (inc (POS_CH_ERRCNT_ILLEGAL n) (setCh n (illegalNote n lines s) s)) :=
    h0.trans (sameBanks_wr (by dsimp only; omega) _ _)
  exact h1.trans (sameBanks_wr (by decide) _ _)

theorem illegalChange_eq (n lines : Nat) (s : State) : illegalChange n lines s =
    if posCfg s (POS_CH_CFG_ILL_MAX n) ≤ (illegalNote n lines s).illegals.length then loseChannel n (illegalCounted n lines s)
    else illegalCounted n lines s := by
  rw [← (illegalCounted_banks n lines s).posCfg]
  rfl

theorem illegalChange_shows (hn : n < 4) (lines : Nat) : chCount (illegalChange n lines s) n = chCount s n ∧
    rd (illegalChange n lines s) POS_EVT_ILLEGAL = 1 ∧
    rd (illegalChange n lines s) (POS_CH_ERRCNT_ILLEGAL n) = satAdd 16 (rd s (POS_CH_ERRCNT_ILLEGAL n)) 1 ∧
    (posCfg s (POS_CH_CFG_ILL_MAX n) ≤ 1 + ((chSt s n).illegals.filter fun u => decide (upNs s < u + 10000000)).length →
      chValid (illegalChange n lines s) n = false) := by
  obtain ⟨hcount, hevt, hcnt, hlost, -⟩ := countFault_shows (s := s) (illegalNote n lines s) (cnt := POS_CH_ERRCNT_ILLEGAL n)
    (evt := POS_EVT_ILLEGAL) rfl rfl hn (by simp) (by simp) (by simp [oneBit])
    (posCfg s (POS_CH_CFG_ILL_MAX n) ≤ (illegalNote n lines s).illegals.length)
  rw [illegalChange_eq]
  refine ⟨hcount, hevt, hcnt, fun h => hlost ?_⟩
  rw [illegalNote, List.length_cons]
  omega

/-! ## Index edges (R334) -/

theorem posCfg_lt (s : State) (r : RF) : posCfg s r < 2 ^ (r.hi + 1 - r.lo) := fld_lt _ _ _

/-- The channel's notes at an index edge. -/
def indexNote (n : Nat) (s : State) : ChSt :=
  { chSt s n with
    steps := ⟨edgeTime s n, (match (chSt s n).steps.head? with | some r => r.te | none => edgeTime s n), posCfg s (POS_CH_Z_Z_VALUE n),
      (chSt s n).v, (chSt s n).a, false⟩ :: (chSt s n).steps }

/-- An index edge shows Z_VALUE as the count, and REF. -/
def indexShown (n : Nat) (s : State) : State :=
  s |> setCh n (indexNote n s) |> wr (POS_CH_CNT_COUNT n) (posCfg s (POS_CH_Z_Z_VALUE n)) |> wr (POS_CH_STAT_REF n) 1

theorem doIndexEdge_sets (hz : posCfg s (POS_CH_CFG_Z_EN n) = 1) (hv : chValid s n = true) (hr : isSet s (POS_CH_STAT_REF n) = false) :
    doIndexEdge n s = noteValid n (edgeTime s n) (indexShown n s) :=
  if_pos ⟨hz, hv, by simp [hr]⟩

theorem noteValid_kept (P : Nat → Prop) (n t : Nat) (s : State) : RegsKept P s (noteValid n t s) := setCh_kept P n _ s

theorem indexShown_kept (n : Nat) (s : State) :
    RegsKept (fun a => a = (POS_CH_CNT_ALL n).addr ∨ a = (POS_CH_STAT_ALL n).addr) s (indexShown n s) :=
  ((setCh_kept _ n (indexNote n s) s).wr (r := POS_CH_CNT_COUNT n) (.inl rfl)).wr (r := POS_CH_STAT_REF n) (.inr rfl)

theorem indexEdge_effect (hv : chValid s n = true) : let t := noteValid n (edgeTime s n) (indexShown n s)
    chCount t n = posCfg s (POS_CH_Z_Z_VALUE n) ∧ rd t (POS_CH_STAT_REF n) = 1 ∧ chValid t n = true ∧
      (∀ a, a ≠ (POS_CH_CNT_ALL n).addr → a ≠ (POS_CH_STAT_ALL n).addr → reg t a = reg s a) ∧
      ∀ x, x ≠ .regs → x ≠ .mot → StateField.same x s t := by
  intro t
  have hrd (r : RF) : rd t r = rd (indexShown n s) r := (noteValid_kept (fun _ => False) n _ _).rd id
  refine ⟨?_, ?_, ?_, fun a h1 h2 => ?_, fun x h1 h2 => ?_⟩
  · rw [chCount, hrd, indexShown, rd_wr_addr (by dsimp only; omega)]
    exact rd_wr_fits (by simp) (by simp) (posCfg_lt s (POS_CH_Z_Z_VALUE n))
  · rw [hrd]
    exact rd_set_oneBit ⟨rfl, by simp⟩ _
  · rw [chValid, isSet, hrd, indexShown, rd_wr_other (by simp) (by simp) (by simp), rd_wr_addr (by dsimp only; omega), rd_setCh]
    exact hv
  · exact ((indexShown_kept n s).trans (noteValid_kept _ n _ _)).reg (by simp [h1, h2])
  · exact (noteValid_ev rfl (wr_ev rfl (wr_ev rfl (setCh_ev rfl (ev_refl [.regs, .mot] s) n _) _ _) _ _) n _).same (by simp [h1, h2])

theorem indexEdge_off (h : chType s n ≠ 1 ∨ posCfg s (POS_CH_CFG_Z_EN n) ≠ 1 ∨ chValid s n = false ∨ isSet s (POS_CH_STAT_REF n) = true) :
    execIndexEdge n s = .next s := by
  refine next_congr ?_
  rcases h with h | h | h | h
  · exact if_neg (by simp [chIs, h])
  · simp [doIndexEdge, h]
  · simp [doIndexEdge, h]
  · simp [doIndexEdge, h]

end

/-! ## Arming (R337) -/

section
variable {s : State} {i v : Nat}

/-- POS_CMP_CFG as written: the channel and ARM. -/
def armWritten (i v : Nat) (s : State) : State := s |> wr (POS_CMP_CFG_CH i) v |> wr (POS_CMP_CFG_ARM i) (v / 8)

theorem hasBit_three (v : Nat) : hasBit v 3 = decide (v / 8 % 2 = 1) := by
  rw [hasBit, Nat.testBit_eq_decide_div_mod_eq]

theorem doCompareArm_eq (i v : Nat) (s : State) :
    doCompareArm i v s = if v / 8 % 2 = 1 then setBehind i (armWritten i v s) else armWritten i v s :=
  if_congr (by rw [hasBit_three, decide_eq_true_iff]) rfl rfl

theorem armWritten_shows (i v : Nat) (s : State) : rd (armWritten i v s) (POS_CMP_CFG_CH i) = v % 4 ∧
    rd (armWritten i v s) (POS_CMP_CFG_ARM i) = v / 8 % 2 ∧
    rd (armWritten i v s) (POS_CMP_CFG_BEHIND i) = rd s (POS_CMP_CFG_BEHIND i) := by
  refine ⟨?_, rd_wr_same (by simp) (by simp), ?_⟩
  · rw [armWritten, rd_wr_other (by simp) (by simp) (by simp)]
    exact rd_wr_same (by simp) (by simp)
  · rw [armWritten, rd_wr_other (by simp) (by simp) (by simp), rd_wr_other (by simp) (by simp) (by simp)]

theorem armWritten_kept (i v : Nat) (s : State) : RegsKept (· = (POS_CMP_CFG_ALL i).addr) s (armWritten i v s) :=
  ((RegsKept.refl (· = (POS_CMP_CFG_ALL i).addr) s).wr (r := POS_CMP_CFG_CH i) rfl).wr (r := POS_CMP_CFG_ARM i) rfl

theorem setBehind_kept (i : Nat) (s : State) : RegsKept (· = (POS_CMP_CFG_ALL i).addr) s (setBehind i s) :=
  (RegsKept.refl (· = (POS_CMP_CFG_ALL i).addr) s).wr (r := POS_CMP_CFG_BEHIND i) rfl

theorem bit_lt (b : Bool) : bit b < 2 := by cases b <;> decide

theorem behindOf_lt (known : Bool) (dir : Int) (c t : Nat) : behindOf known dir c t < 2 := by
  unfold behindOf
  exact bit_lt _

/-- BEHIND of a compare that is armed, from the channel as it stands. -/
theorem behind_armed (hi : i < 8) : rd (setBehind i (armWritten i v s)) (POS_CMP_CFG_BEHIND i) =
    behindOf (isSet s (POS_CH_STAT_DIR_KNOWN (v % 4))) (chSt s (v % 4)).dir (chCount s (v % 4)) (rd s (POS_CMP_POS_T i)) := by
  have k := armWritten_kept i v s
  rw [setBehind, rd_wr_fits (by simp) (by simp) (behindOf_lt ..), (armWritten_shows i v s).1, isSet,
    k.rd (r := POS_CH_STAT_DIR_KNOWN (v % 4)) (by dsimp only; omega), chCount, k.rd (r := POS_CH_CNT_COUNT (v % 4)) (by dsimp only; omega),
    k.rd (r := POS_CMP_POS_T i) (by dsimp only; omega)]
  rfl

theorem compareArm_effect (hi : i < 8) : let t := doCompareArm i v s
    rd t (POS_CMP_CFG_CH i) = v % 4 ∧ rd t (POS_CMP_CFG_ARM i) = v / 8 % 2 ∧
      (v / 8 % 2 = 1 → rd t (POS_CMP_CFG_BEHIND i) = behindOf (isSet s (POS_CH_STAT_DIR_KNOWN (v % 4)))
        (chSt s (v % 4)).dir (chCount s (v % 4)) (rd s (POS_CMP_POS_T i))) ∧
      (v / 8 % 2 = 0 → rd t (POS_CMP_CFG_BEHIND i) = rd s (POS_CMP_CFG_BEHIND i)) ∧
      (∀ a, a ≠ (POS_CMP_CFG_ALL i).addr → reg t a = reg s a) ∧ ∀ x, x ≠ .regs → StateField.same x s t := by
  obtain ⟨hch, harm, hbehind⟩ := armWritten_shows i v s
  intro t
  have hev : Evolves [.regs] s (armWritten i v s) := wr_ev rfl (wr_ev rfl (ev_refl _ s) _ _) _ _
  by_cases h : v / 8 % 2 = 1
  · have e : t = setBehind i (armWritten i v s) := (doCompareArm_eq i v s).trans (if_pos h)
    have k := setBehind_same i hi (armWritten i v s)
    rw [e]
    exact ⟨k.ch.trans hch, k.arm.trans harm, fun _ => behind_armed hi, fun h0 => by omega,
      fun a ha => ((armWritten_kept i v s).trans (setBehind_kept i _)).reg ha, fun x hx => (wr_ev rfl hev _ _).same (by simpa using hx)⟩
  · have e : t = armWritten i v s := (doCompareArm_eq i v s).trans (if_neg h)
    rw [e]
    exact ⟨hch, harm, fun h1 => absurd h1 h, fun _ => hbehind, fun a ha => (armWritten_kept i v s).reg ha,
      fun x hx => hev.same (by simpa using hx)⟩

end

/-- Settles O45, kind of edge by kind of edge. -/
theorem channelEdges : Obligations.ChannelEdges := by
  refine ⟨fun s n lv hp hn => ?_, fun s i v hp hi => ⟨_, next_congr (if_pos ⟨hp, hi⟩), compareArm_effect hi⟩⟩
  have key {k : Nat} (ht : chType s n = k) (h : k ∈ [1, 2]) : exec (.inputEdge n lv) s = .next (doInputEdge n lv s) :=
    next_congr (if_pos (chIs_of_type hp hn ht h))
  refine ⟨fun ht h => (key ht (by simp)).trans (next_congr (doInputEdge_still ht h)), fun d h => ?_, fun ht h hd => ?_,
    fun ht hz hv hr => ?_, fun h => indexEdge_off h⟩
  · rcases h with ⟨ht, hl, hd⟩ | ⟨ht, hl, a, b, ha, hb, hd⟩
    · exact ⟨_, (key ht (by simp)).trans (next_congr (doInputEdge_quad ht hl hd)),
        linesTaken_step n _ (invertDir_unit (cycleStep_unit hd) s n) _⟩
    · exact ⟨_, (key ht (by simp)).trans (next_congr (doInputEdge_hall ht hl ha hb hd)),
        linesTaken_step n _ (invertDir_unit (cycleStep_unit hd) s n) _⟩
  · exact ⟨_, (key ht (by simp)).trans (next_congr (doInputEdge_illegal ht h hd)), illegalChange_shows hn _⟩
  · exact ⟨_, next_congr ((if_pos (chIs_of_type hp hn ht (by simp))).trans (doIndexEdge_sets hz hv hr)), indexEdge_effect hv⟩

end Sys2Proof.Machine
